-- ==== Sys2Proof/Word.lean ====
section
/-! DEFINITION. The word types of the HXD-D64 model and their plainest arithmetic (R7: a byte is 8 bits,
a word is 32 bits, byte 0 holds bits 7 to 0). -/

namespace Sys2Proof

/-- A byte (R7). -/
abbrev Byte := BitVec 8
/-- A run of bytes, byte 0 first; a byte past the end of the list reads as zero. -/
abbrev Bytes := List (BitVec 8)
/-- A word (R7), also an FP32 bit pattern (R133). -/
abbrev Word := BitVec 32
/-- A die identifier (R17). -/
abbrev DieId := BitVec 6
/-- A tile index of the central store (R36). -/
abbrev TileIdx := BitVec 17
/-- A partition number, 0 to 31 (R318). -/
abbrev PartId := BitVec 5
/-- A tenant, which is the function with that index (R315). -/
abbrev Tenant := BitVec 9
/-- A matrix engine, E00 to E47 (R95). -/
abbrev Engine := Fin 48
/-- A step epoch (R55). -/
abbrev Epoch := BitVec 32

end Sys2Proof
end

