-- ==== Sys2Proof/Machine/Types.lean ====
section
/-! DEFINITION. The records of the manual that commands carry and the state holds: headers, flits, control messages,
requests, extent entries, descriptors. Bit fields keep the manual's names and widths. -/

namespace Sys2Proof.Machine

/-! ## Chapter 02: links, control ring -/

/-- One direction of a die link (R17, Table 2.1): the die's link number, and whether the flits go down from the hub to the die. -/
structure LinkId where
  die : DieId
  link : BitVec 2
  down : Bool
deriving DecidableEq, Repr

/-- A block of a die: the BLOCK field of Table 2.4. -/
structure BlockId where
  die : DieId
  block : BitVec 4 := 0
deriving DecidableEq, Repr

/-- Traffic classes (Table 2.3). -/
inductive FlitClass where
  | req | wdata | rdata | ctrl
deriving DecidableEq, Repr

/-- A flit: 256 payload bytes and the sideband of Table 2.2. -/
structure Flit where
  crc : BitVec 32 := 0
  nak : Bool := false
  ackSeq : BitVec 12 := 0
  seq : BitVec 12 := 0
  creditClass : BitVec 2 := 0
  credits : BitVec 6 := 0
  dest : DieId := 0
  src : DieId := 0
  cls : BitVec 2 := 0
  last : Bool := false
  tag : BitVec 16 := 0
  offset : BitVec 32 := 0
  payload : Bytes := []
deriving DecidableEq, Repr

/-- A control message (Table 2.4). -/
structure CtrlMsg where
  paramB : BitVec 32 := 0
  paramA : BitVec 32 := 0
  tag : BitVec 16 := 0
  bcast : Bool := false
  dest : DieId := 0
  src : DieId := 0
  block : BitVec 4 := 0
  scope : BitVec 8 := 0
  status : BitVec 8 := 0
  type : BitVec 8 := 0
deriving DecidableEq, Repr

/-! ## Chapter 03: the central store -/

/-- Tile states (Table 3.5). -/
inductive TileState where
  | free | filling | ready | held
deriving DecidableEq, Repr

/-- The tile header (R40, Table 3.3), without the reply byte. -/
structure TileHeader where
  hasScale : Bool := false
  scaleSlot : BitVec 4 := 0
  scaleIndex : BitVec 17 := 0
  srcValid : Bool := false
  shared : Bool := false
  srcTile : BitVec 34 := 0
  owner : BitVec 6 := 0
  poison : Bool := false
  tenant : Tenant := 0
  world : Bool := false
  cls : BitVec 2 := 0
  out : Bool := false
  persist : Bool := false
  state : TileState := .free
  format : BitVec 8 := 0
  anchor : BitVec 16 := 0
  cols : BitVec 16 := 0
  rows : BitVec 16 := 0
  prod : Epoch := 0
  epoch : Epoch := 0
  crc : BitVec 32 := 0
deriving DecidableEq, Repr

/-- A store request (Table 3.4). -/
structure StoreReq where
  /-- SRC of the flit that carries the request (Table 2.2) -/
  src : DieId := 0
  epoch : Epoch := 0
  rtag : BitVec 16 := 0
  tile : TileIdx
  tenant : Tenant := 0
  world : Bool := false
  hold : Bool := false
  part : BitVec 6 := 0
  op : BitVec 8 := 1
deriving DecidableEq, Repr

/-- Read reply codes (Table 3.6). -/
inductive ReplyCode where
  | data | notReady | deniedTenant | deniedWorld | poisoned
deriving DecidableEq, Repr

/-- One word of a slot found disturbed when it is read: words 0 to 4,095 are payload, 4,096 to 4,103 the header,
and the mask gives the flipped bits of the 39-bit codeword (R56). An operand: the disturbance comes from outside. -/
structure Upset where
  word : Nat
  mask : BitVec 39
deriving DecidableEq, Repr

/-- A tile: header and payload. -/
structure Tile where
  hdr : TileHeader := {}
  payload : Bytes := []
deriving DecidableEq, Repr

/-! ## Chapter 04: tiers -/

/-- The extent entry (Table 4.1). -/
structure ExtentEntry where
  tilemap : BitVec 128 := 0
  inflight : BitVec 8 := 0
  moveBusy : Bool := false
  movePtr : BitVec 7 := 0
  mstate : BitVec 2 := 0
  newTier : BitVec 2 := 0
  newLoc : BitVec 25 := 0
  copyTier : BitVec 2 := 0
  copyLoc : BitVec 25 := 0
  homeTier : BitVec 2 := 0
  homeLoc : BitVec 25 := 0
  tenant : Tenant := 0
  world : Bool := false
  shared : Bool := false
  cls : BitVec 2 := 0
  pin : Bool := false
  valid : Bool := false
  owner : BitVec 6 := 0
  lost : Bool := false
deriving DecidableEq, Repr

/-- Who asks a tier agent (R68): world, tenant, whether the Bureau asks, and the partition or 0x3E, 0x3F. -/
structure TierReq where
  die : DieId := 0x3C
  tenant : Tenant := 0
  world : Bool := false
  bureau : Bool := false
  part : BitVec 6 := 0x3E
  /-- store slot of the tile that a write carries (R79) -/
  slot : TileIdx := 0
deriving DecidableEq, Repr

/-- Where a tile read from a tier is placed in the store, and the fields its request gives (R80). -/
structure LoadDest where
  tile : TileIdx
  owner : BitVec 6 := 0x3E
  epoch : Epoch := 0
  prod : Epoch := 0
  out : Bool := false
  persist : Bool := true
deriving DecidableEq, Repr

/-- One burst of a tile read that comes back disturbed (R77, R79): its number in the tile, and the bits, by beat and DQ, that the first read
and the second read show inverted. An operand: the disturbance comes from outside. -/
structure BurstUpset where
  burst : BitVec 9
  first : List (BitVec 5 × BitVec 4) := []
  second : List (BitVec 5 × BitVec 4) := []
deriving DecidableEq, Repr

/-- The disturbed bursts of one tile read; every other burst passes. -/
abbrev BurstFault := List BurstUpset

/-! ## Chapter 05 and 06: engines -/

/-- How the cells of a product are initialised (R107, R108): kept as they are, zero, spill records from an operand-cache address on (one a
cell; onto the cells or in their place), or elements of a format from an address on. The ANCHOR is that of the tile that lies there. -/
inductive CellInit where
  | keep
  | zero
  | spill (addr : Nat) (onto : Bool)
  | elems (fmt : BitVec 8) (addr : Nat)
deriving DecidableEq, Repr

/-- What an operation of an engine finds in its hardware, an operand from outside: a mismatch of a check with its mechanism code of Table 15.1
and location (R96, R114, R115, R126); words of vector registers, by 1,024 × register + element (R127), and of the operand cache, by byte
offset div 4 (R130), with the flipped bits of their codewords. -/
structure OpChecks where
  fault : Option (BitVec 8 × BitVec 16) := none
  regs : List Upset := []
  cache : List Upset := []
deriving DecidableEq, Repr

/-- A matrix product (R97 to R104): unit j's weight vector is vector j of the operand-cache run from `wAddr` on, row i's broadcast vector is
vector i of the run from `aAddr` on; block scales and ANCHORs are those of the tiles that lie there (R39, R97). -/
structure MatmulOp where
  engine : Engine
  ctx : Bool
  /-- the output tile that the cells belong to (R106), and its row that activation row 0 gives -/
  tile : TileIdx
  tileRow : Nat := 0
  init : CellInit
  wFmt : BitVec 8
  aFmt : BitVec 8
  wAddr : Nat
  aAddr : Nat
  rows : Nat
  rowBase : Nat
  anchor : Int
  chk : OpChecks := {}
deriving DecidableEq, Repr

/-- A convolution (R102, R103): a run of K-chunks, in the feeder's order, for the output positions of a row range; the weights of the run's
chunk c are vectors 512c to 512c + 511 of the run from `mm.wAddr` on. -/
structure ConvOp where
  mm : MatmulOp
  /-- number of the first output position, row by row -/
  pos0 : Nat
  height : Nat
  width : Nat
  chans : Nat
  /-- first K-chunk of the run, in the order channel chunk, kw, kh, and their number -/
  chunk0 : Nat
  chunks : Nat
  kH : Nat
  kW : Nat
  sh : Nat
  sw : Nat
  dh : Nat
  dw : Nat
  ph : Nat
  pw : Nat
  outW : Nat
  oneD : Bool
deriving DecidableEq, Repr

/-- An operation on accumulator cells. -/
inductive TileOp where
  | deep (m : MatmulOp)
  | wide (m : MatmulOp)
  | conv (c : ConvOp)
deriving DecidableEq, Repr

/-- The tile of the store that fills a frame of the operand cache (R129), and its header. -/
structure FrameTile where
  tile : TileIdx
  hdr : TileHeader := {}
deriving DecidableEq, Repr

/-- An operation as the retry of R111 runs it again: with the tiles that its frames held. -/
structure RunOp where
  op : TileOp
  used : List (Nat × FrameTile) := []
deriving DecidableEq, Repr

/-- A conversion read (R128, R134): one accumulator row into a vector register of the context, for an output tile; with FORMAT RECORD its
spill records go to the operand cache from byte offset `dst` on (R107). -/
structure ConvRead where
  engine : Engine
  ctx : Bool
  row : Nat
  part : PartId
  tile : TileIdx
  fmt : BitVec 8
  outAnchor : Int
  dst : Nat
  release : Bool
  chk : OpChecks := {}
deriving DecidableEq, Repr

/-- Element-wise vector operations (Table 6.2), and the vector engine's moves through the operand cache's ports (Table 6.1): a row read from
cache elements, a row written as packed elements, and a frame that leaves as a tile for the store. -/
inductive VecKind where
  | add | sub | mul | fma | min | max | cmpLt | cmpEq | select | exp | exp2 | log | log2 | recip | rsqrt
  | sigmoid | tanh | silu | gelu | softplus | relu | leakyRelu | clamp | convert (fmt : BitVec 8) (anchor : Int)
  | widen (fmt : BitVec 8) (anchor : Int)
  | load (fmt : BitVec 8) (addr : Nat)
  | store (fmt : BitVec 8) (anchor : Int) (addr : Nat)
  | egress (frame : Nat) (tile : TileIdx) (hdr : TileHeader)
deriving DecidableEq, Repr

/-- A vector operation over registers (R126, R133). -/
structure VecOp where
  engine : Engine
  ctx : Bool
  part : PartId
  kind : VecKind
  dst : Nat
  a : Nat
  b : Nat
  c : Nat
  n : Nat
  chk : OpChecks := {}
deriving DecidableEq, Repr

/-- Reductions (R136). -/
inductive RedKind where
  | sum | max | min
deriving DecidableEq, Repr

/-- A cosine or sine table tile in the operand cache (R137): rows of one position each from a byte offset on, and the position of the row
rotated. -/
structure RotTable where
  fmt : BitVec 8
  addr : Nat
  positions : Nat
  pos : Nat
deriving DecidableEq, Repr

/-- What the feeder's level follows (R119): the program's hint of a gap, a wait that has no hint, the program's hint of work to come. -/
inductive HoldEvent where
  | gap (handshakes : Nat)
  | wait (handshakes : Nat)
  | ramp
deriving DecidableEq, Repr

/-- Parameters of a selection (R141, Table 6.3). -/
structure SelParams where
  k : Nat
  ascending : Bool
  mass : Bool
  sumAnchor : Int
  ref : BitVec 32
  idBase : BitVec 40 := 0
  /-- SOURCE of the list written -/
  source : Nat
  /-- the list passes between blocks: OWNER 0x3E and PERSIST (R46, R151) -/
  persist : Bool := false
  tenant : Tenant := 0
  chk : OpChecks := {}
deriving DecidableEq, Repr

/-- Where a selection takes its input (R139): n elements of a run of vector registers, SELECT payloads of the operand cache by byte offset, or
SELECT tiles of the store. The scan stream of a shelf engine is the third source (R173). -/
inductive SelInput where
  | regs (r : Nat) (n : Nat)
  | cached (addrs : List Nat)
  | stored (tiles : List TileIdx)
deriving DecidableEq, Repr

/-- A partial list that a producer puts into a cross-module merge slot (R152, R153): its store tile, SOURCE, and whether it is PROVISIONAL. -/
structure MergePart where
  engine : Engine
  tile : TileIdx
  source : BitVec 8
  provisional : Bool
deriving DecidableEq, Repr

/-- The expected slots of a merge by source, and, for one of a retrieval phase whose budget passes, the request (R151). -/
structure MergeSet where
  slots : List (Nat × TileIdx)
  budgetOf : Option Nat := none
deriving DecidableEq, Repr

/-- One selection entry (R139): score, 40-bit id. -/
structure SelEntry where
  score : BitVec 32
  id : BitVec 40
deriving DecidableEq, Repr

/-- A SELECT payload read into fields (R147, Tables 6.4 and 6.5). -/
structure SelList where
  entries : List (BitVec 24 × BitVec 40 × BitVec 32) := []
  nValid : Nat := 0
  k : Nat := 0
  kthScore : BitVec 32 := 0
  ties : Nat := 0
  inputCount : Nat := 0
  invalid : Nat := 0
  refUsed : BitVec 32 := 0
  sumAnchor : Int := 0
  approx : Bool := false
  mass : Bool := false
  dupMismatch : Bool := false
  sumOvf : Bool := false
  ascending : Bool := false
  source : Nat := 0
  sumSel : Int := 0
  sumRest : Int := 0
  sumSelF : BitVec 32 := 0
  sumRestF : BitVec 32 := 0
  dupRemoved : Nat := 0
deriving DecidableEq, Repr

/-- The ready line of a cross-module merge slot (R152, Table 6.7). -/
structure ReadyLine where
  seq : BitVec 64 := 0
  epoch : Epoch := 0
  provisional : Bool := false
  source : BitVec 8 := 0
  crc : BitVec 32 := 0
  writer : BitVec 32 := 0
deriving DecidableEq, Repr

/-! ## Chapter 13: descriptors -/

/-- A descriptor (Table 13.1). -/
structure Descriptor where
  opcode : BitVec 8 := 0
  opflags : BitVec 8 := 0
  rsvd : BitVec 48 := 0
  tag : BitVec 64 := 0
  paramAddr : BitVec 64 := 0
  paramLen : BitVec 32 := 0
  argA : BitVec 32 := 0
  resultAddr : BitVec 64 := 0
  resultLen : BitVec 32 := 0
  argB : BitVec 32 := 0
  argC : BitVec 64 := 0
  argD : BitVec 64 := 0
deriving DecidableEq, Repr

/-- What the host side supplies when the host die reads a descriptor's regions (R273, R274): the parameter bytes and whether
the PARAM, RESULT and turn-block buffer addresses translate with the access needed. -/
structure HostView where
  param : Bytes := []
  paramOk : Bool := true
  resultOk : Bool := true
  /-- a window line of the parameter region fails BCRC twice (R278) -/
  poison : Bool := false
  /-- a compare-and-swap on the tenant's lease word, if the command makes one, succeeds (R380) -/
  swapOk : Bool := true
deriving DecidableEq, Repr

/-- The doorbell line as a re-read returns it (Table 12.2), with whether it translated and whether a reserved byte is non-zero. -/
structure DoorbellLine where
  sqTail : BitVec 32 := 0
  cqHead : BitVec 32 := 0
  reserved : Bool := false
  translates : Bool := true
deriving DecidableEq, Repr

/-! ## Chapter 16: Settee -/

/-- A Settee frame (Table 16.1). -/
structure Frame where
  crc : BitVec 32 := 0
  nak : Bool := false
  ackSeq : BitVec 12 := 0
  seq : BitVec 12 := 0
  credit : BitVec 12 := 0
  empty : Bool := false
  first : Bool := false
  last : Bool := false
  used : BitVec 8 := 0
  payload : Bytes := []
deriving DecidableEq, Repr

/-- A Settee message header (Table 16.3). -/
structure MsgHdr where
  type : BitVec 8 := 0
  provisional : Bool := false
  journal : Bool := false
  more : Bool := false
  tenant : Tenant := 0
  partition : BitVec 8 := 0xFF
  status : BitVec 8 := 0
  object : BitVec 16 := 0
  epoch : BitVec 32 := 0
  jseq : BitVec 64 := 0
  ref : BitVec 64 := 0
deriving DecidableEq, Repr

/-- The IDENT body (R369). -/
structure Ident where
  serial : BitVec 128 := 0
  position : Bool := false
  pairId : BitVec 16 := 0
  journalGen : BitVec 64 := 0
deriving DecidableEq, Repr

/-- A lease word (Table 16.5). -/
structure LeaseWord where
  held : Bool := false
  holder : Bool := false
  solo : Bool := false
  pairId : BitVec 16 := 0
  tenant : Tenant := 0
  count : BitVec 32 := 0
deriving DecidableEq, Repr

/-! ## Chapter 15: check records -/

/-- A check record (Table 15.2). -/
structure CheckRecord where
  epoch : Epoch := 0
  engine : Engine
  partition : PartId := 0
  result : BitVec 8 := 0
  faults : BitVec 8 := 0
  mechanism : BitVec 8 := 0
  location : BitVec 16 := 0xFFFF
  tile : BitVec 32 := 0xFFFFFFFF
  anchorRetries : BitVec 32 := 0
  crcChecked : BitVec 32 := 0
deriving DecidableEq, Repr

end Sys2Proof.Machine
end

