-- ==== Sys2Proof/Machine/StateFabric.lean ====
section
/-! DEFINITION. State of the fabric and of the central store (chapters 02 and 03). A keyed part of the state is a
canonical sparse map: keys strictly rising, no entry equal to what an unlisted key reads as. -/

namespace Sys2Proof.Machine

/-- A sparse map from a number to a value (kept sorted by the operations of Ops.lean). -/
abbrev Map (β : Type) := List (Nat × β)

/-- One direction of a die link: its transmitter and its receiver (R18 to R21). -/
structure LinkState where
  /-- 12 bits; R20 sequence number the receiver expects -/
  expect : BitVec 12 := 0
  /-- 1 bit; R20 the receiver discards until the replacement arrives -/
  discarding : Bool := false
  /-- 12 bits; R21 sequence number of the run of negative acknowledges -/
  nakSeq : BitVec 12 := 0
  /-- count; R21 consecutive negative acknowledges of that number -/
  nakRun : Nat := 0
  /-- at most 128 flits; R20 replay buffer of the transmitter -/
  replay : List Flit := []
  /-- 12 bits; R20 next sequence number to send -/
  txSeq : BitVec 12 := 0
  /-- counts by class REQ, WDATA, RDATA, CTRL; R19 flits sent and not yet credited -/
  owed : Map Nat := []
  /-- flits in order; R19, R21 flits that wait on the handshake for credit, replay room or the link's reinitialisation -/
  waiting : List Flit := []
  /-- flits in order; R20, R23 flits of transfers of which not every flit has come -/
  rx : List Flit := []
  /-- counts by class; R20 credits to return with the next reverse flit -/
  credit : Map Nat := []
  /-- 1 bit; R20 an acknowledgement is due -/
  ackDue : Bool := false
  /-- 1 bit; R21 reinitialisation of the link in progress (a link's pair of channels keeps it with its up channel) -/
  reinit : Bool := false
  /-- record times; R21 reinitialisations of the link in the last second (with its up channel) -/
  reinitAt : List (BitVec 48) := []
  /-- 1 bit; R21 link declared failed (with its up channel) -/
  failed : Bool := false
deriving DecidableEq, Repr

/-- A fence of one issuer on one die (R31). -/
structure Fence where
  /-- links of the die on which the marker went out; R31 -/
  marked : List (BitVec 2) := []
  /-- (link, store die) markers that have reached a store die; R31 -/
  arrived : List (BitVec 2 × BitVec 3) := []
  /-- tiles that the die was writing when the marker was issued; R31 -/
  earlier : List TileIdx := []
  /-- (link, store die) answers; R31 -/
  answers : List (BitVec 2 × BitVec 3) := []
  /-- 1 bit; R31 the fenced block was reset before it answered -/
  reset : Bool := false
deriving DecidableEq, Repr

/-- Where a quiesce stands (R32, Table 2.8). -/
inductive QuiesceStage where
  | waiting | draining | quiet | done | hung
deriving DecidableEq, Repr

/-- A quiesce of one block (R32). -/
structure Quiesce where
  stage : QuiesceStage := .draining
  since : BitVec 48 := 0
deriving DecidableEq, Repr

/-- State of chapter 02. -/
structure FabricState where
  /-- map by link direction; R18 to R21 die links; reset: empty link state -/
  links : Map LinkState := []
  /-- 1 bit per die; R21 dies that run on one link; reset none -/
  halfLink : List DieId := []
  /-- 1 bit; R21 a link failure has already forced a warm reset; reset 0 -/
  linkReset : List Nat := []
  /-- queue per hub output; R23 waiting flits with their input die; reset empty -/
  hubWait : Map (List (DieId × Flit)) := []
  /-- engine per hub output; R22 the engine of a compute die that the output's last RDATA flit was for; reset 0 -/
  hubEngine : Map Nat := []
  /-- input number per hub output and class; R23 round-robin pointer; reset 0 -/
  hubRr : Map Nat := []
  /-- count per hub output; R23 data flits granted since the last CTRL grant, at most 4; reset 4 -/
  hubCtrl : Map Nat := []
  /-- queue per hub; R26 messages waiting for the hop out of hub h; reset empty -/
  ring : Map (List CtrlMsg) := []
  /-- counter per hub; R26 messages of unlisted type dropped; reset 0 -/
  ringDrops : Map Nat := []
  /-- counter; R336 CTRL messages dropped for world; reset 0 -/
  worldDrops : Nat := 0
  /-- tiles per die; R18, R23 transfers reassembled at a die other than a compute or store die; reset empty -/
  arrived : Map (List Tile) := []
  /-- queue per die; R26 delivered control messages; reset empty -/
  inbox : Map (List CtrlMsg) := []
  /-- requests of secure blocks whose reply may pass (source die, tag, reply's sender); R336; reset none -/
  secureReq : List (DieId × BitVec 16 × DieId) := []
  /-- map by issuer and die; R31 fences in progress; reset none -/
  fences : Map Fence := []
  /-- 8 bits per issuer and die; R31 outcome of the last fence; reset none -/
  fenceResult : Map (BitVec 8) := []
  /-- map by die and block; R32 quiesces; reset none -/
  quiesce : Map Quiesce := []
  /-- 16 bits per domain; R28 published rate, handshakes per µs; reset 0 (Table 20.16) -/
  rate : Map (BitVec 16) := []
  /-- 64 dies; R452 clockless domains released; reset none -/
  released : List DieId := []
deriving DecidableEq, Repr

/-- A slot of the store: header, payload and the transfer that fills it (R36, R48, R49). -/
structure Slot where
  hdr : TileHeader := {}
  payload : Bytes := []
  /-- payload flits written so far -/
  got : List (BitVec 6) := []
  src : DieId := 0
  tag : BitVec 16 := 0
  /-- 1 bit; R49 the writer was reset before the last flit -/
  abandoned : Bool := false
  /-- 39 bits per word; R56 stored codeword as it differs from the codeword of the word held (bits [38:32] the check bits); unlisted 0 -/
  flips : Map (BitVec 39) := []
deriving DecidableEq, Repr

/-- A read reply on RDATA (R44, Table 3.6). -/
structure StoreReply where
  rtag : BitVec 16
  tile : TileIdx
  code : ReplyCode
  hdr : TileHeader
  payload : Option Bytes
deriving DecidableEq, Repr

/-- State of chapter 03. -/
structure StoreState where
  /-- 131,072 slots of 32 + 16,384 bytes; R36, R40 tile slots; reset FREE, zero (R62) -/
  slots : Map Slot := []
  /-- transfers whose payload flits are discarded (source die × 65,536 + tag), with the flits still to come; R48; reset none -/
  refusing : Map Nat := []
  /-- (block, tile) pairs; R50 recorded subscriptions; reset none -/
  subs : List (BlockId × TileIdx) := []
  /-- (block, tile) pairs; R50 READY_NOTICEs sent and not yet received; reset none -/
  notices : List (BlockId × TileIdx) := []
  /-- (block, tile) pairs; R91 tiles a subscriber may start on; reset none -/
  known : List (BlockId × TileIdx) := []
  /-- replies sent, oldest first; R44; reset none -/
  replies : List StoreReply := []
  /-- 64-bit counter per bank; R58, Table 20.16 group 0x2 corrected words; reset 0 -/
  corrected : Map Nat := []
  /-- counter per die; R61 words corrected in the scrub pass; reset 0 -/
  passCorrected : Map Nat := []
  /-- slots; R60 slots with an uncorrectable error since the last warm reset; reset none -/
  badOnce : List Nat := []
  /-- (die × 64 + bank, row) pairs; R60 rows to replace at the next warm reset; reset none -/
  rowsToMap : List (Nat × Nat) := []
  /-- (die × 64 + bank, row) pairs; R60 rows mapped to spare rows, at most 8 a bank; reset none -/
  rowsMapped : List (Nat × Nat) := []
  /-- 14 bits; R61 next slot to scrub; reset 0 -/
  scrubNext : BitVec 14 := 0
  /-- tiles; R61 SCRUB requests sent to the store dies and not yet served; reset none -/
  scrubAsked : List TileIdx := []
  /-- counter; R61 FILLING slots skipped; reset 0 -/
  scrubSkips : Nat := 0
  /-- 8 dies; R62 dies that still zero-fill; reset none -/
  zeroFilling : List (BitVec 3) := []
deriving DecidableEq, Repr

end Sys2Proof.Machine
end

