-- ==== Sys2Proof/Machine/StateTier.lean ====
section
/-! DEFINITION. State of the memory tiers and of weight streaming (chapter 04), with the CXL.mem window (R84, R275). -/

namespace Sys2Proof.Machine

/-- A tile of tier L: its stored header (R79; SCALE_INDEX holds SCALE_REL), its payload and its dirty bit (R72). -/
structure LTile where
  hdr : TileHeader := {}
  payload : Bytes := []
  dirty : Bool := false
deriving DecidableEq, Repr

/-- A write that waits for its extent entry (R70). -/
structure PendWrite where
  rq : TierReq
  x : Nat
  t : BitVec 7
  tile : Tile
deriving DecidableEq, Repr

/-- A read that waits for its subchannel's retraining (R82). -/
structure PendRead where
  rq : TierReq
  x : Nat
  t : BitVec 7
  dest : LoadDest
  fault : BurstFault
deriving DecidableEq, Repr

/-- The mode registers of a package, by function (Table 4.7); MR4 stands apart. -/
structure PkgModes where
  /-- burst length and metadata mode: the 288-bit burst -/
  burst288 : Bool := false
  /-- on-die ECC control -/
  onDieEcc : Bool := false
  /-- drive strength, ODT and VREF for CA and DQ, as training finds them -/
  drive : BitVec 64 := 0
  odt : BitVec 64 := 0
  vref : BitVec 64 := 0
  /-- per-bank refresh only -/
  perBank : Bool := false
deriving DecidableEq, Repr

/-- Outcome of a tier access for its requester (R64, R68, R92). -/
inductive TierStatus where
  | ok | translation | worldFault | tenantFault | media | late | readOnly
deriving DecidableEq, Repr

/-- A tier agent's answer to its requester. -/
structure TierReply where
  part : BitVec 6
  x : Nat
  t : BitVec 7
  status : TierStatus
  tile : Option Tile
deriving DecidableEq, Repr

/-- Progress of a partition's stream plan (R86, R88). -/
structure StreamState where
  /-- pass number k; R86 -/
  pass : Nat := 0
  /-- tiles of the plan already written in this pass, in plan order; R88 -/
  pos : Nat := 0
  /-- consuming step; R88 -/
  epoch : Epoch := 0
  /-- the destination slot of the next tile was found not FREE; R88 -/
  polling : Bool := false
deriving DecidableEq, Repr

/-- An old location that drains after an RO switch (R73). -/
structure Drain where
  tier : BitVec 2
  loc : BitVec 25
  /-- (partition or 0x3E, step epoch or turn handle) in progress at the switch -/
  users : List (Nat × Nat)
deriving DecidableEq, Repr

/-- State of chapter 04. -/
structure TierState where
  /-- 8,192 entries of 11 bits; R64 directory; reset no entry valid (DESIGN CHOICE, no reset value given) -/
  dir : Map (BitVec 11) := []
  /-- 33,554,432 entries of 256 bits; R64, R65 extent entries by leaf × 16,384 + index; reset none valid -/
  leaves : Map ExtentEntry := []
  /-- 50,331,648 tiles; R67, R79 tier L; reset all zero (DESIGN CHOICE, none given but R85) -/
  lmem : Map LTile := []
  /-- L extents; R94 retired from use; reset none -/
  retiredL : List Nat := []
  /-- reads that wait for a retraining, oldest first; R82; reset none -/
  waitReads : List PendRead := []
  /-- device-range tiles that proved unreadable, until LOAD_EXTENT fills them again; R92, Table 4.8; reset none -/
  lostTiles : List Nat := []
  /-- by device-range tile: tiles refetched or recovered into tier L and not yet read back; R94; reset none -/
  refetched : Map Tile := []
  /-- mode registers by package; R81, Table 4.7; reset not set (no value given; training sets them) -/
  modes : Map PkgModes := []
  /-- (window byte offset, bytes) host writes that wait for a retraining, oldest first; R82; reset none -/
  hostWrites : List (Nat × Bytes) := []
  /-- writes that wait; R70; reset none -/
  waiting : List PendWrite := []
  /-- (partition or 0x3E, extent, entry); R69 cached RO translations; reset none -/
  cache : List (BitVec 6 × Nat × ExtentEntry) := []
  /-- 48 bits per tile; R71 when the tile was made dirty; reset none -/
  dirtyAt : Map (BitVec 48) := []
  /-- by extent; R73 old locations that drain; reset none -/
  drains : Map Drain := []
  /-- answers to requesters, oldest first; R68, R70; reset none -/
  replies : List TierReply := []
  /-- counter; R79 bursts corrected by a second read; reset 0 -/
  burstCorrected : Map Nat := []
  /-- 16 bits per package; R81 package temperature; reset 0 (DESIGN CHOICE) -/
  pkgTemp : Map (BitVec 16) := []
  /-- 8 bits per package; R81 refresh multiplier; reset 0 (DESIGN CHOICE) -/
  refresh : Map (BitVec 8) := []
  /-- packages; R82, R419 above the extended-refresh limit; reset none -/
  pkgHot : List Nat := []
  /-- subchannels; R82 in retraining; reset none -/
  retraining : List (BitVec 8) := []
  /-- by partition; R86 stream progress; reset none -/
  streams : Map StreamState := []
  /-- 16 bits; R76, HST_ID_RATE MTS; reset 0 (Table 20.5) -/
  mts : BitVec 16 := 0
  /-- 32 bits; TIR_WB WB_INTERVAL ms (R71); reset 1,000 (Table 20.11) -/
  wbInterval : BitVec 32 := 1000
  /-- 9 bits; TIR_WINDOW SIZE GiB (R84); reset 0 (Table 20.11) -/
  windowSize : BitVec 9 := 0
  /-- size being rebuilt; R470; reset none -/
  windowPending : Option (BitVec 9) := none
  /-- 9 bits per GiB; TIR_WINDOW_GIB TENANT (R470); reset 0 (Table 20.11) -/
  windowTenant : Map Tenant := []
  /-- 32 bits; TIR_CFG_ERR (Table 20.1); reset 0 -/
  cfgErr : BitVec 32 := 0
  /-- 64-byte window lines the host may hold; R276 directory; reset none -/
  hostLines : List Nat := []
  /-- (window byte offset, bytes within one line) result writes in order, the ready word last; R276, R277; reset none -/
  windowWrites : List (Nat × Bytes) := []
  /-- (window byte offset, whether the host keeps the line, what its burst shows) host reads that wait for a write of their line; R276; reset none -/
  windowReads : List (Nat × Bool × BurstFault) := []
deriving DecidableEq, Repr

end Sys2Proof.Machine
end

