-- ==== Sys2Proof/Machine/StateEngine.lean ====
section
/-! DEFINITION. State of a matrix engine with its vector engine and selection unit (chapters 05 and 06), and of merges. -/

namespace Sys2Proof.Machine

/-- Special state of an accumulator cell (R98). -/
inductive Special where
  | finite | nan | posInf | negInf
deriving DecidableEq, Repr

/-- An accumulator cell (R105): N, C, OVF, special state and the mod-127 residue (R114); and the output tile with its row that the program maps
the cell to, until it is read out (R106). -/
structure Cell where
  n : BitVec 96 := 0
  c : BitVec 24 := 0
  ovf : Bool := false
  special : Special := .finite
  residue : BitVec 7 := 0
  home : Option (TileIdx × Nat) := none
deriving DecidableEq, Repr

/-- A resident context's share (R131) with the partition and world it runs for (Table 14.7). -/
structure Share where
  part : PartId := 0
  world : Bool := false
  frame0 : Nat := 0
  frames : Nat := 0
  vr0 : Nat := 0
  vrs : Nat := 0
  row0 : Nat := 0
  rows : Nat := 0
deriving DecidableEq, Repr

/-- State of one matrix engine. -/
structure EngineState where
  /-- 8 bits; R123 RETIRED: 0 in service, 1 retired, 2 under in-field test; reset 0 -/
  retired : BitVec 8 := 0
  /-- 16 bits; R121, R125 groups whose spare was applied in the field, beside the fused ones; reset 0 -/
  spareApplied : BitVec 16 := 0
  /-- 16 bits; R123 groups lost in the field, beside the fused ones; reset 0 -/
  groupLost : BitVec 16 := 0
  /-- unit; R125 substitution recorded for the next warm reset; reset none -/
  sparePending : Option Nat := none
  /-- record times of retirements, newest first; R357; reset none (kept in secure flash) -/
  retiredAt : List (BitVec 48) := []
  /-- 1 bit; R357 stays retired across every reset; reset 0 -/
  permanent : Bool := false
  /-- record time; R357 last return to service after a retirement; reset none -/
  returnedAt : Option (BitVec 48) := none
  /-- 256 frames of 16 KiB; R129 operand cache; reset zero (DESIGN CHOICE, none given) -/
  frames : Map Bytes := []
  /-- frame to tile; R96, R129 the store tile that fills a frame, none where the vector engine wrote it; reset none -/
  origin : Map FrameTile := []
  /-- 32 registers of 1,024 words; R127 vector registers; reset zero (DESIGN CHOICE) -/
  vregs : Map (List Word) := []
  /-- 512 × 512 cells of 130 bits; R95, R105 accumulator array by 512 × row + column; reset zero, FINITE (R98) -/
  acc : Map Cell := []
  /-- rows; R95 live accumulator rows; reset none -/
  live : List Nat := []
  /-- 512 registers of 100 bytes; R95 active weight registers by unit; reset zero (DESIGN CHOICE) -/
  wActive : Map Bytes := []
  /-- 512 registers of 100 bytes; R95 shadow weight registers; reset zero (DESIGN CHOICE) -/
  wShadow : Map Bytes := []
  /-- two contexts; R131 shares, false the first; reset none resident -/
  ctx0 : Option Share := none
  ctx1 : Option Share := none
  /-- 1 bit; R328 which context runs; reset 0 -/
  running : Bool := false
  /-- 1 bit; R132 the running context is stopped; reset 0 -/
  stopped : Bool := false
  /-- R328 the seal of the outgoing context is done and its step has committed or not -/
  lendHolder : Option PartId := none
  /-- 0 to 16; R119 activity level; reset 0 -/
  level : Nat := 0
  /-- 0 to 16; R119 level the feeder moves to; reset 0 -/
  levelTarget : Nat := 0
  /-- 16 bits; R120 HOLD_GAP in effect at the engine; reset 3,000 -/
  holdGap : BitVec 16 := 0x0BB8
  /-- 16 bits; R120 HOLD_SLOPE in effect at the engine; reset 730 -/
  holdSlope : BitVec 16 := 0x02DA
  /-- tile to anchor; R111 anchors raised in the step; reset none -/
  raised : Map Int := []
  /-- tile to anchor; R106 anchor of the cells of an output tile; reset none -/
  anchors : Map Int := []
  /-- tile to operations; R111 what has been executed on an output tile's cells since they were initialised; reset none -/
  ops : Map (List RunOp) := []
  /-- tiles; R111 retry in progress; reset none -/
  retrying : List Nat := []
  /-- tiles; R112 saturated; reset none -/
  saturated : List Nat := []
  /-- (tile, row); R112 rows that hold a saturated cell; reset none -/
  satRows : List (Nat × Nat) := []
  /-- count; R345 faults of the step; reset 0 -/
  faults : Nat := 0
  /-- mechanism and location; R345 first fault of the step; reset none -/
  firstFault : Option (BitVec 8 × BitVec 16) := none
  /-- tile; R345 first tile that failed TILE_CRC or was POISONED; reset none -/
  badTile : Option TileIdx := none
  /-- tiles; R354 those whose lists a merge of the step found to differ; reset none -/
  dupTiles : List TileIdx := []
  /-- count; R345 ANCHOR_RETRIES of the step; reset 0 -/
  retries : Nat := 0
  /-- count; R345 CRC_CHECKED of the step; reset 0 -/
  crcChecked : Nat := 0
  /-- count; R354 steps the engine ran; reset 0 -/
  stepsRun : Nat := 0
  /-- (engine step, location), newest first, at most 2; R354; reset none -/
  lastFaults : List (Nat × BitVec 16) := []
  /-- 64-bit counters; CNT_ENGINE (Table 20.16): replays passed, ANCHOR_RAISED, NaN conversions, attributed faults; reset 0 -/
  cntReplays : Nat := 0
  cntRaised : Nat := 0
  cntNan : Nat := 0
  cntFaults : Nat := 0
  /-- counter; R130, R127 corrected words of operand cache and vector registers; reset 0 -/
  cntCorrected : Nat := 0
  /-- 48 bits; R363 record time of the last test or start-up self-test; reset 0 -/
  testedAt : BitVec 48 := 0
  /-- record time; R364 a due test waits from this time; reset none -/
  testDue : Option (BitVec 48) := none
deriving DecidableEq, Repr

/-- A merge: its owner's expected slots and what has arrived (R151 to R154). -/
structure MergeState where
  /-- expected store tiles by source; R151 -/
  expected : List (Nat × TileIdx) := []
  /-- sources that have arrived; R151 -/
  arrived : List Nat := []
  /-- 1 bit; R151 merge has started -/
  started : Bool := false
  /-- ready lines held Shared, pinned, by source; R153 -/
  lines : Map ReadyLine := []
  /-- sources whose ready line was invalidated and is to be re-read; R153 -/
  invalid : List Nat := []
  /-- sources whose partial is PROVISIONAL; R154, R361 -/
  provisional : List Nat := []
  /-- sources whose slot was re-read once after a CRC failure; R154 -/
  reread : List Nat := []
  /-- sources withdrawn; R362 -/
  withdrawn : List Nat := []
deriving DecidableEq, Repr

/-- State of chapters 05 and 06. -/
structure EnginesState where
  /-- 48 engines; reset as EngineState -/
  engine : Map EngineState := []
  /-- 16 bits each; PRT_HOLD (R120), written value: HOLD_GAP 0x0BB8, HOLD_SLOPE 0x02DA (Table 20.10) -/
  holdGap : BitVec 16 := 0x0BB8
  holdSlope : BitVec 16 := 0x02DA
  /-- by merge number; R151 merges; reset none -/
  merges : Map MergeState := []
  /-- by merge slot (owner pair side): SEQ last written by this module; R152; reset 0 -/
  published : Map ReadyLine := []
  /-- by merge slot; R153 order 2 partial lists whose header and payload lines are written; reset none -/
  slotLines : Map TileIdx := []
  /-- results of selections and merges written as SELECT payloads, newest first, by engine; R139; reset none -/
  selOut : Map SelList := []
deriving DecidableEq, Repr

end Sys2Proof.Machine
end

