-- ==== Sys2Proof/Machine/StateHost.lean ====
section
/-! DEFINITION. State at the host boundary (chapters 12, 13, 20): queue pairs, requests, completions, MSI-X, registers, outputs;
and what a request carries through retrieval, re-rank and packing (chapters 07 and 08). -/

namespace Sys2Proof.Machine

/-- Status codes (Table 13.8). -/
inductive Status where
  | ok | okDegraded | deadline | grammarDeadEnd | cancelled | redirectPartner
  | badDescriptor | noResources | accessTenant | accessWorld | mediaError | programMismatch
deriving DecidableEq, Repr

/-- Stop reasons (Table 9.5). -/
inductive StopReason where
  | none | stopToken | grammarAccept | stopString | maxTokens | deadline | cancelled | grammarDeadEnd | error
deriving DecidableEq, Repr

/-- Opcodes (Table 13.2). -/
inductive Opcode where
  | nop | turn | textAppend | embed | search | rerank | generate | tokenize | detokenize | indexInsert | indexDelete
  | rowLookup | rowUpdate | loadExtent | adapterLoad | grammarLoad | programLoad | cancel | fence
deriving DecidableEq, Repr

/-- Kind fields of a completion record (Tables 13.10 to 13.13, R311). -/
inductive CompBody where
  | final (outCount outBytes invalidText : Nat) (stop : StopReason) (seq : BitVec 4) (aux : BitVec 32)
  | tokens (byteOff byteCount idOff idCount : Nat) (seq : BitVec 4)
  | passages (packed promptTokens skippedEdges listsCut candDropped : Nat)
  | event (code : BitVec 16) (source : DieId) (severity : BitVec 2) (p0 p1 p2 : BitVec 32)
deriving DecidableEq, Repr

/-- A completion (Table 13.7), before the phase and SQ_HEAD that its write adds. -/
structure Completion where
  tag : BitVec 64
  body : CompBody
  flags : BitVec 16 := 0
  status : Status := .ok
  /-- payload bytes that the completion reports, by address (R284 order 1) -/
  payload : List (BitVec 64 × Bytes) := []
  /-- the request whose last FINAL this is (R292) -/
  closes : Option Nat := none
  /-- signals its vector at once (R287) -/
  urgent : Bool := false
deriving DecidableEq, Repr

/-- What the module emits: host writes and messages in order, flits, control messages, Settee traffic, replies. -/
inductive Output where
  | hostWrite (fn : Tenant) (addr : BitVec 64) (data : Bytes)
  | record (fn : Tenant) (qp : BitVec 3) (index : Nat) (addr : BitVec 64) (data : Bytes)
  | msix (fn : Tenant) (vector : BitVec 4)
  | flit (l : LinkId) (f : Flit)
  | ctrl (m : CtrlMsg)
  | snoop (line : Nat)
  | windowData (line : Nat) (data : Bytes) (poison : Bool)
  | sharedRead (fn : Tenant) (addr : BitVec 64)
  | frame (f : Frame)
  | leaseSwap (w : LeaseWord)
  | mergeSlot (slot : Nat) (data : Bytes)
  | mergeLine (slot : Nat) (l : ReadyLine)
  | mailboxReply (status : BitVec 8) (data : Bytes)
  | regRead (fn : Tenant) (offset : Nat) (value : BitVec 64)
  | mctp (data : Bytes)
deriving DecidableEq, Repr

/-- A descriptor fetched and not yet accepted (R282, R293): the host die's handle of it, and for a CANCEL whether a cancellable target was
outstanding when it was fetched (R313). -/
structure Fetched where
  handle : Nat
  desc : Descriptor
  hit : Bool := false
deriving DecidableEq, Repr

/-- Queue-pair states (Table 20.7). -/
inductive QpState where
  | disabled | enabled | error | disabling
deriving DecidableEq, Repr

/-- A queue pair (R280, Table 20.7). -/
structure QueuePair where
  /-- 64 bits; SQ_BASE; reset 0 -/
  sqBase : BitVec 64 := 0
  /-- 64 bits; CQ_BASE; reset 0 -/
  cqBase : BitVec 64 := 0
  /-- 64 bits; DB_ADDR; reset 0 -/
  dbAddr : BitVec 64 := 0
  /-- 1 bit; CTRL ENABLE; reset 0 -/
  enable : Bool := false
  /-- 1 bit; CTRL PASID_EN; reset 0 -/
  pasidEn : Bool := false
  /-- 20 bits; CTRL PASID; reset 0 -/
  pasid : BitVec 20 := 0
  /-- 4 bits; CTRL VECTOR; reset 0 -/
  vector : BitVec 4 := 0
  /-- 5 bits; SIZE CQ_LOG2; reset 6 -/
  cqLog2 : BitVec 5 := 6
  /-- 5 bits; SIZE SQ_LOG2; reset 6 -/
  sqLog2 : BitVec 5 := 6
  /-- 8 bits; STATUS ERR_CODE (Table 20.8); reset 0 -/
  errCode : BitVec 8 := 0
  /-- 2 bits; STATUS STATE; reset DISABLED -/
  state : QpState := .disabled
  /-- 32 bits; SQ_HEAD; reset 0 -/
  sqHead : BitVec 32 := 0
  /-- 32 bits; CQ_TAIL; reset 0 -/
  cqTail : BitVec 32 := 0
  /-- 64 bits; R285 completion records written since enable, for the pass number; reset 0 -/
  written : Nat := 0
  /-- 32 bits; R282 SQ_TAIL last read; reset 0 -/
  sqTail : BitVec 32 := 0
  /-- 32 bits; R282 CQ_HEAD last read; reset 0 -/
  cqHead : BitVec 32 := 0
  /-- 1 bit; R279 doorbell line pinned; reset 0 -/
  pinned : Bool := false
  /-- count; R282 re-reads in flight; reset 0 -/
  rereads : Nat := 0
  /-- descriptors fetched and not yet accepted; R282, R293; reset none -/
  fetched : List Fetched := []
  /-- completions that wait for a free slot; R286; reset none -/
  waiting : List Completion := []
  /-- request handle; R314 a FENCE with WAIT holds fetch; reset none -/
  fenced : Option Nat := none
deriving DecidableEq, Repr

/-- An entry of the translation cache (R273): the I/O virtual page of a function, with its PASID where it has one. -/
structure AtsEntry where
  fn : Tenant
  pasid : Option (BitVec 20)
  page : BitVec 64
deriving DecidableEq, Repr

/-- An MSI-X vector with its moderation (R287, Table 20.6). -/
structure Vector where
  /-- 16 bits; HST_MOD TIME; reset 0 -/
  time : BitVec 16 := 0
  /-- 8 bits; HST_MOD COUNT_M1; reset 0 -/
  countM1 : BitVec 8 := 0
  /-- 64 + 32 bits; MSI-X table entry address and data (R465); reset 0 -/
  msgAddr : BitVec 64 := 0
  msgData : BitVec 32 := 0
  /-- 1 bit; MSI-X vector mask; reset 1 (the PCIe standard's reset value, PRESUMED) -/
  masked : Bool := true
  /-- 1 bit; MSI-X pending bit; reset 0 -/
  pending : Bool := false
  /-- count; R287 completions since it last signalled; reset 0 -/
  since : Nat := 0
  /-- 48 bits; R287 request time of the oldest of them; reset none -/
  oldest : Option (BitVec 48) := none
deriving DecidableEq, Repr

/-- The turn block (Table 13.5) with its sections read out (R298). -/
structure TurnBlock where
  relDeadline : Bool := false
  noRetrieval : Bool := false
  embedPart : Nat := 0
  rerankPart : Nat := 255
  genPart : Nat := 0
  index : Nat := 0
  template : Nat := 0
  beam : Nat := 0
  nprobe : Nat := 0
  nprobeMin : Nat := 0
  candidates : Nat := 0
  rerankMin : Nat := 0
  readBudget : Nat := 2000
  softDeadline : Nat := 0
  firstDeadline : Nat := 0
  hardDeadline : Nat := 0
  textBuf : BitVec 64 := 0
  textSize : Nat := 0
  idBuf : BitVec 64 := 0
  reportBuf : BitVec 64 := 0
  reportSize : Nat := 0
  filterOff : Nat := 0
  filter : Option Bytes := none
  history : List (List Nat) := []
  stops : List Bytes := []
  bias : List (Nat × Word) := []
  temperature : Word := 0
  topP : Word := 0
  minP : Word := 0
  rep : Word := 0
  presence : Word := 0
  frequency : Word := 0
  topK : Nat := 0
  specDepth : Nat := 0
  penaltyScope : Bool := false
  maxTokens : Nat := 0
  seed : BitVec 64 := 0
  adapter : Nat := 0xFFFF
  grammar : Nat := 0xFFFF
  stopIds : List Nat := []
  inputOff : Nat := 0
  input : Bytes := []
  nSeq : Nat := 1
deriving DecidableEq, Repr

/-- A candidate passage (R178, R192, R197). -/
structure Cand where
  pid : BitVec 40
  score : Word
  /-- passage block once its unit arrived and was kept -/
  block : Option Bytes := none
  /-- store tile and 2 KiB slot of the block (R178) -/
  stored : Option (TileIdx × Nat) := none
  /-- not yet read -/
  waiting : Bool := true
  /-- re-rank score once its step committed -/
  rerank : Option Word := none
  /-- the pair's token ids (R192) and its length L -/
  tokens : List Nat := []
  pairLen : Nat := 0
  tokenized : Bool := false
  norm : Word := 0
deriving DecidableEq, Repr

/-- A probe record of a walk (R169) and its scan. -/
structure Probe where
  list : Nat
  score : Word
  baseScore : Word
  slice : List (BitVec 16)
  /-- base units not yet arrived (index within the base) -/
  units : List Nat := []
  /-- delta tiles and tombstone tiles not yet in the store, by address bits [47:14] in chain order -/
  deltas : List Nat := []
  tombTiles : List Nat := []
  /-- tombstones read: (pid, delEpoch) of valid records -/
  tombs : List (Nat × Nat) := []
  /-- entries that arrived before the tombstone chain was whole, held back, by position -/
  held : List (Nat × Bytes) := []
  lost : Bool := false
  gen : BitVec 8 := 0
  base : Nat := 0
  /-- shelf engine that takes the delta entries, and the tiles of the delta chain, as they stood when the scan was issued (R169, R173) -/
  deltaAt : Nat := 0
  chain : Nat := 0
deriving DecidableEq, Repr

/-- Retrieval, re-rank and packing state of a TURN, SEARCH or RERANK (chapters 07 and 08). -/
structure Retrieval where
  query : List Word := []
  snap : Option Epoch := none
  beam : List (Word × Nat) := []
  visited : List Nat := []
  expanded : List Nat := []
  round : Nat := 0
  probes : List Probe := []
  scanAt : Option (BitVec 48) := none
  /-- entries offered per shelf engine: (position, score, id) -/
  offered : Map (List (Nat × Word × BitVec 40)) := []
  /-- entries of another tenant skipped, and the first such tenant -/
  tenantSkips : Nat := 0
  firstSkip : Option Tenant := none
  /-- the scan was cut (R175), and the shelf engines that have acted on it -/
  cutSent : Bool := false
  cutDone : List Nat := []
  shelfOut : Map SelList := []
  merged : Option SelList := none
  fetchAt : Option (BitVec 48) := none
  cands : List Cand := []
  /-- store tiles of the turn conductor's pool that the request holds: probe records, chain copies and SELECT tiles until the candidate merge
  (R169, R173, R175), passage units by device-range tile (R178), the template (R201) -/
  scanTiles : List TileIdx := []
  unitTiles : Map TileIdx := []
  tplTile : List TileIdx := []
  /-- tiles of the prompt (R207), until a slot takes its tokens -/
  promptTiles : List TileIdx := []
  /-- the phase of the turn was rerun once (R348) -/
  rerun : Bool := false
  queryCut : Nat := 0
  ranked : List Nat := []
  noRerank : Bool := false
  reranked : Nat := 0
  plan : List (Nat × Nat × Nat) := []
  docSkips : Nat := 0
  budgetSkips : Nat := 0
  historyDropped : Nat := 0
  prompt : List Nat := []
  report : Bytes := []
deriving DecidableEq, Repr

/-- Where a request stands (R12, Table 13.16). -/
inductive Phase where
  | stream | embed | walk | scan | merge | fetch | rerank | pack | ready | waiting | slot | running | mutation | forwarded
  | ending | fenceWait | cancelWait
deriving DecidableEq, Repr

/-- A request: an accepted descriptor, outstanding until its last FINAL (R292). -/
structure Request where
  fn : Tenant
  qp : BitVec 3
  tag : BitVec 64
  op : Opcode
  desc : Descriptor := {}
  param : Bytes := []
  block : TurnBlock := {}
  phase : Phase := .running
  acceptedAt : BitVec 48 := 0
  /-- text stream (R243): bytes accepted so far, tokens by set, whether END was accepted -/
  text : Bytes := []
  streamOpen : Bool := false
  tokens : Map (List Nat) := []
  template : Option Bytes := none
  ret : Retrieval := {}
  flags : BitVec 16 := 0
  invalidText : Nat := 0
  special : Nat := 0
  nanLogits : Nat := 0
  skippedEdges : Nat := 0
  listsCut : Nat := 0
  candDropped : Nat := 0
  outCount : Nat := 0
  /-- GENERATE: sequences whose FINAL has been posted -/
  seqDone : List Nat := []
  /-- R232, R313 marked for cancelling at its phase end -/
  cancel : Bool := false
  /-- writes of a load that are not yet acknowledged (R303) -/
  writesLeft : Nat := 0
  /-- handles that wait for this request: FENCE's earlier descriptors, CANCEL's target -/
  waitsFor : List Nat := []
  /-- R468, R289, R288: its completions are no longer posted -/
  mute : Bool := false
  /-- R385: a re-run of the partner's turn, with the mirrored snapshot -/
  mirrorSnap : Option Epoch := none
  /-- R383: a turn whose TURN_DESC went to the partner -/
  mirrored : Bool := false
  /-- R379: a mutation that the partner forwarded; its FINAL goes back as FORWARD_DONE -/
  remote : Bool := false
  /-- R266: the table's BATCH_ID for the function before this batch took its place -/
  batchBefore : Option (BitVec 64) := none
deriving DecidableEq, Repr

/-- State of chapters 12, 13 and the host registers of chapter 20. -/
structure HostState where
  /-- 512 × 8 queue pairs by 8 × function + pair; Table 20.7; reset as QueuePair -/
  qps : Map QueuePair := []
  /-- 512 × 16 vectors by 16 × function + vector; R287; reset as Vector -/
  vectors : Map Vector := []
  /-- 3 bits per function; HST_FN EVENT_QP (R311); reset 0 -/
  eventQp : Map (BitVec 3) := []
  /-- by handle; R292 outstanding requests; reset none -/
  requests : Map Request := []
  /-- next handle; Table 9.1 REQUEST (the host die's handle); reset 1 (DESIGN CHOICE) -/
  nextHandle : Nat := 1
  /-- 8 bits; HST_STATUS LINK_WIDTH; reset 0 -/
  linkWidth : BitVec 8 := 0
  /-- 8 bits; HST_STATUS LINK_GTS; reset 0 -/
  linkGts : BitVec 8 := 0
  /-- 1 bit; R268 latency-optimised flit format in use; reset 0 -/
  latOpt : Bool := false
  /-- 1 bit; HST_STATUS CACHE_EN (R271); reset 0 -/
  cacheEn : Bool := false
  /-- 1 bit; R432 BOOT_OK reported; reset 0 -/
  bootOk : Bool := false
  /-- 1 bit; HST_STATUS CAUSE 0x03 warm reset in progress; reset 0 -/
  inWarmReset : Bool := false
  /-- 1 bit; HST_STATUS CAUSE 0x04 module failed (R21, R60); reset 0 -/
  failed : Bool := false
  /-- at most 8,192 entries; R273 translation cache; reset none -/
  ats : List AtsEntry := []
  /-- 64-bit counters by 8 × tenant + k; CNT_TENANT (Table 20.16), k 1 to 6; reset 0 -/
  cntTenant : Map Nat := []
  /-- 32 bits latched per (function, counter); R474; reset none -/
  latched : Map (BitVec 32) := []
  /-- 32 bits by 2^20 × function + offset; R462 low halves of 64-bit registers that wait for their high half; reset none -/
  halves : Map (BitVec 32) := []
  /-- 1 bit; activation: fetch stopped; R435; reset 0 -/
  fetchStopped : Bool := false
  /-- outputs, newest first; R284 order is the reverse; reset none -/
  out : List Output := []
deriving DecidableEq, Repr

end Sys2Proof.Machine
end

