-- ==== Sys2Proof/Machine/StateGen.lean ====
section
/-! DEFINITION. State of partitions, their programs, slots and steps (chapters 09, 14, 15), of the text die (chapter 10), of
indexes (chapter 07) and of embedding tables (chapter 11). -/

namespace Sys2Proof.Machine

/-- A mapping record (Table 14.14). -/
structure Mapping where
  excluded : Option Engine := none
  draft : Bool := false
  engines : BitVec 48 := 0
  spares : List (BitVec 16) := []
deriving DecidableEq, Repr

/-- A stream plan entry (Table 4.9). -/
structure PlanEntry where
  src : BitVec 34
  count : Nat
  dest : Nat
  group : Nat
  half : Bool
  releaser : Nat
deriving DecidableEq, Repr

/-- The fields of a stream plan's 32-byte header (R86). -/
structure PlanHeader where
  windowBase : Nat := 0
  windowTiles : Nat := 0
  /-- MODE: held or rolling -/
  rolling : Bool := false
  /-- entry count -/
  count : Nat := 1
  /-- group count -/
  groups : Nat := 0
  /-- the LPDDR6 rate assumed (R76), coded as in Table 14.4 -/
  rate : BitVec 8 := 0
deriving DecidableEq, Repr

/-- A stream plan: its header and its entries (R86, Table 4.9). -/
structure StreamPlan where
  head : PlanHeader := {}
  entries : List PlanEntry := []
deriving DecidableEq, Repr

/-- One entry of a floor-rate step-time table (R209, R332): the shape and its FIXED and RATE µs. -/
structure StepCost where
  mapping : Nat
  rows : Nat
  prefill : Nat
  depth : Nat
  fixed : Nat
  rate : Nat
deriving DecidableEq, Repr

/-- The contents of those sections of a program image whose layout the manual does not give (plan header, instruction
streams, anchors, allocations, step-time tables): an operand of PROGRAM_LOAD. -/
structure ImageSections where
  plan : PlanHeader := {}
  /-- most terms directed to one cell (R105) -/
  terms : Nat := 0
  /-- every merge's lists share one SUM_ANCHOR (R150) -/
  mergeAnchors : Bool := true
  /-- shares per engine (R131) -/
  shares : List (Engine × Share) := []
  /-- base of the store share -/
  storeBase : Nat := 0
  /-- floor-rate step times -/
  table : List StepCost := []
  /-- layers, KV heads and head size of the target and of the draft (R214, R215) -/
  layers : Nat := 0
  kvHeads : Nat := 1
  headDim : Nat := 1
  draftLayers : Nat := 0
  draftKvHeads : Nat := 1
  draftHeadDim : Nat := 1
  /-- producer map (R354): tile index to block kind × 65,536 + number -/
  producers : Map Nat := []
  /-- row-ownership map (R112, R337): tile index to the rows of the tile, each with the slot or place whose request owns it -/
  owners : Map (Map Nat) := []
  /-- engines of the N mapping that a step without prefill omits (R326) -/
  lentFree : List Engine := []
  /-- first store tile, counted from the share's base, of the draw-request tiles and the RECORD tiles of draws (R226), and of the RECORD
  tiles of stripe partials (R219) -/
  drawBase : Nat := 0
  recordBase : Nat := 0
  /-- first store tile, counted from the share's base, of the mask tiles (R254), of the check records (R345) and of the row images (R265) -/
  maskBase : Nat := 0
  checkBase : Nat := 0
  imageBase : Nat := 0
deriving DecidableEq, Repr

/-- Program kinds (Table 14.4). -/
inductive ProgKind where
  | general | encoder | rerank | generator
deriving DecidableEq, Repr

/-- A loaded partition program (Tables 14.4, 14.13, 14.14). -/
structure Program where
  addr : BitVec 48 := 0
  kind : ProgKind := .general
  imageTiles : Nat := 0
  home : BitVec 48 := 0
  borrow : BitVec 48 := 0
  lend : BitVec 48 := 0
  borrowFrom : Nat := 255
  lendTo : Nat := 255
  lpRate : BitVec 8 := 0
  storeTiles : Nat := 0
  lExtents : Nat := 0
  slots : Nat := 0
  lendWait : Nat := 0
  stepTarget : Nat := 0
  maps : List Mapping := []
  maxContext : Nat := 0
  prefillTokens : Nat := 0
  specMax : Nat := 0
  kvStripe : Nat := 1
  adapterPerStep : Nat := 0
  tokSet : Nat := 0
  vocab : Nat := 0
  pairTokens : Nat := 0
  queryMax : Nat := 0
  batch : Nat := 0
  pairPrefix : List Nat := []
  pairSep : List Nat := []
  pairSuffix : List Nat := []
  dim : Nat := 0
  kvPairs : Nat := 0
  /-- the stream plan: its header, and the entries that the image holds (R86) -/
  plan : StreamPlan := {}
  sec : ImageSections := {}
  digest : BitVec 512 := 0
deriving DecidableEq, Repr

/-- Slot states (Table 9.2). -/
inductive SlotState where
  | free | prefill | decode | ending
deriving DecidableEq, Repr

/-- A kept set with its exact terms in rank order (R224, R227): (token, term). -/
abbrev Kept := List (Nat × Nat)

/-- The slot record (Table 9.1), with the tokens of its positions and the current step's samples. -/
structure SlotRec where
  state : SlotState := .free
  tenant : Tenant := 0
  request : Nat := 0
  seq : BitVec 4 := 0
  promptLen : Nat := 0
  len : Nat := 0
  dlen : Nat := 0
  done : Nat := 0
  stepNo : BitVec 32 := 0
  specDepth : Nat := 0
  adapter : Option (BitVec 12) := none
  grammar : Option (BitVec 8) := none
  gstate : BitVec 20 := 0
  hardDeadline : Nat := 0
  maxTokens : Nat := 0
  cancel : Bool := false
  pages : BitVec 32 := 0
  /-- token of each position (prompt, then generated) -/
  toks : List Nat := []
  /-- (subchannel, L tile) pages reserved (R215) -/
  pageList : List (Nat × Nat) := []
  /-- this step: prefill positions granted (R213) -/
  chunk : Nat := 0
  /-- this step: proposals with the draft's kept set (R220), and that proposing has ended early -/
  props : List (Nat × Kept) := []
  propsEnd : Bool := false
  /-- this step: proposals accepted, NaN logits of each committed position, final token, dead end, invalid logits -/
  accepted : Nat := 0
  nanOf : List Nat := []
  /-- NAN_LOGITS of the sequence so far (R224) -/
  nanTotal : Nat := 0
  /-- place in admission order (R213) -/
  order : Nat := 0
  final : Option Nat := none
  verified : Bool := false
  deadEnd : Bool := false
  allInvalid : Bool := false
  approx : Bool := false
  /-- end condition found at commit and the status it gives -/
  reason : StopReason := .none
  status : Status := .ok
  /-- R112 has removed the slot from the step: it ends at order 5 of the boundary (R231) -/
  removed : Bool := false
  /-- tokens of the slot last sent to the text die, by position -/
  sentTo : Nat := 0
  /-- (step epoch, position after its tokens) per step that sent tokens to the text die, until MATCHED (R250) -/
  sent : List (Nat × Nat) := []
  /-- a buffer of the sequence failed translation: the offset of its address field (R274), and the text bytes that were not written -/
  badBuf : Option Nat := none
  lostBytes : Nat := 0
deriving DecidableEq, Repr

/-- Kinds of work in an admission ring (R330). -/
inductive ItemKind where
  | prompt | pair | input | lookup | update
deriving DecidableEq, Repr

/-- An item of an admission ring: the request, the sequence or candidate number. -/
structure Item where
  kind : ItemKind
  handle : Nat
  index : Nat := 0
deriving DecidableEq, Repr

/-- m, l and o of an attention partial, FP32 words (R218). -/
structure Partial3 where
  m : Word
  l : Word
  o : List Word
deriving DecidableEq, Repr

/-- A stripe partial of attention (R218): the slot, the query row as the program numbers it, the stripe member, the subchannel of its last
page, that page, and the partial itself; none while every page has been empty. -/
structure StripePartial where
  slot : Nat
  row : Nat
  member : Nat
  sub : Nat
  lastPage : Nat
  val : Option Partial3
deriving DecidableEq, Repr

/-- An attention row that the lead engine has formed from its stripe partials (R218): the slot, the row, out[d]. -/
structure AttnRow where
  slot : Nat
  row : Nat
  out : List Word
deriving DecidableEq, Repr

/-- The step in progress of a partition. -/
structure Step where
  running : Bool := false
  epoch : Epoch := 1
  /-- the pass of the stream plan that the step reads (R86) -/
  pass : Nat := 0
  attempt : Nat := 1
  /-- counted attempts made so far, this one included (R352, ATTEMPTS of Table 15.7) -/
  tries : Nat := 1
  startAt : BitVec 48 := 0
  startRate : Nat := 1100
  /-- pairs, inputs, lookups and updates in the step (R195, R259, R265) -/
  items : List Item := []
  /-- results produced: (handle, item index, FP32 values) -/
  outs : List (Nat × Nat × List Word) := []
  /-- stripe partials of attention rows (R218), those whose record has not travelled to the store yet, the RECORD tiles sent (R219), and the
  rows formed -/
  partials : List StripePartial := []
  recordsDue : List StripePartial := []
  recordTiles : Nat := 0
  attnRows : List AttnRow := []
  /-- KV positions that the step has written: slot, place in the slot's page list, position within the page (R216, R218) -/
  kvWritten : List (Nat × Nat × Nat) := []
  /-- the next step waits for a lent engine (R327) -/
  waits : Bool := false
  /-- engines of the mapping whose check record is awaited, and the records read -/
  checks : List CheckRecord := []
  /-- epochs of PROVISIONAL inputs that await COMMIT (partition, epoch) -/
  provisional : List (Nat × Epoch) := []
  /-- a retracted input: the step fails without counting (R351, R360) -/
  retracted : Bool := false
  /-- handles whose access was refused, with the status (R337), and whether no single request owns it -/
  refused : List (Nat × Status) := []
  refusedAll : Option Status := none
  /-- (tile, cause) of a refused store write (R351), and that the previous attempt had the same -/
  storeRefusal : Option (TileIdx × Nat) := none
  prevRefusal : Option (TileIdx × Nat) := none
  /-- source die and tag of the refused write (Table 15.5) -/
  refusalBy : Option (DieId × BitVec 16) := none
  /-- engines whose fault the previous attempt found -/
  prevSuspect : List Engine := []
  /-- saturated rows' requests on the previous attempt (R112) -/
  saturated : Bool := false
  /-- hung engines of the watchdog (R353) -/
  hung : List Engine := []
  /-- WATCHDOG, REFRESH and HOT_BUDGET as they stood at the boundary before the step: a later write waits for the next one (R469) -/
  watchdog : BitVec 32 := 1000
  refresh : BitVec 10 := 10
  hotBudget : BitVec 15 := 0
deriving DecidableEq, Repr

/-- A stop report of the text die (R234): slot and position. -/
structure StopReport where
  slot : Nat
  pos : Nat
  epoch : Epoch
deriving DecidableEq, Repr

/-- Partition states (Table 14.2). -/
inductive PartState where
  | empty | loading | running | paused | unloading | failed
deriving DecidableEq, Repr

/-- A partition (R318). -/
structure Partition where
  /-- 3 bits; PRT_PART STATE (Table 14.2); reset EMPTY -/
  state : PartState := .empty
  /-- 8 bits; PRT_PART MAPPING; reset 0 -/
  mapping : Nat := 0
  /-- 32 bits; PRT_PART STEP_LIMIT µs; reset 0 -/
  stepLimit : BitVec 32 := 0
  /-- 15 bits; PRT_PART HOT_BUDGET; reset 0 -/
  hotBudget : BitVec 15 := 0
  /-- 10 bits; PRT_PART REFRESH s; reset 10 -/
  refresh : BitVec 10 := 10
  /-- 32 bits; PRT_PART WATCHDOG ms; reset 1,000 -/
  watchdog : BitVec 32 := 1000
  /-- 32 bits; PRT_PART EPOCH: last committed step epoch; reset 0 -/
  committed : Epoch := 0
  /-- the loaded program; R321; reset none -/
  prog : Option Program := none
  /-- slots by number; R210; reset FREE -/
  slots : Map SlotRec := []
  /-- admission rings by tenant; R330; reset empty -/
  rings : Map (List Item) := []
  /-- credit per tenant; R330; reset 0 -/
  credit : Map Nat := []
  /-- 9 bits; R330 ptr; reset 0 -/
  ptr : Nat := 0
  /-- free L tiles by subchannel; R215 KV pool; reset none -/
  kvFree : Map (List Nat) := []
  /-- device extent of each L extent of the share: an SCR extent each; R215, Table 14.3; reset none -/
  pool : Map Nat := []
  /-- first tile and count; R319 store share; reset none -/
  storeBase : Nat := 0
  storeCount : Nat := 0
  /-- L extents of the partition's share; R319; reset none -/
  lShare : List Nat := []
  /-- the step in progress; R209; reset none -/
  step : Step := {}
  /-- draws requested and received for the next step (SHAKE256 input fields and value); R226; reset none -/
  drawsAsked : List (BitVec 64 × BitVec 32 × BitVec 32 × BitVec 16) := []
  draws : List ((BitVec 64 × BitVec 32 × BitVec 32 × BitVec 16) × BitVec 64) := []
  /-- next place in admission order; R213; reset 0 -/
  admitNext : Nat := 0
  /-- 1 bit; Table 15.8 the partition returns to its N mapping at its next boundary; reset 0 -/
  switchBack : Bool := false
  /-- stop reports received; R234; reset none -/
  reports : List StopReport := []
  /-- epoch of the last MATCHED received; R250; reset 0 -/
  matched : Epoch := 0
  /-- replacement in progress: handle and image; R323; reset none -/
  replacing : Option (Nat × Program) := none
  /-- unload in progress: handle; R324; reset none -/
  unloading : Option Nat := none
  /-- engine excluded for a test, N−1 switch due at the next boundary; R325, R364; reset none -/
  switchDue : List Engine := []
  /-- engine under a test that needs the partition PAUSED, from the end of its deferral to the test's end (Table 15.8); reset none -/
  pauseFor : Option Engine := none
  /-- a checked load that waits for an in-field test to end: handle and image; R477; reset none -/
  loadWait : Option (Nat × Program) := none
  /-- 1 bit; R132, R55 takes no further work until reloaded; reset 0 -/
  needReload : Bool := false
  /-- hot directory: (table, hot tile) to store tile; R258; reset none -/
  hotDir : Map TileIdx := []
  /-- hot copies of freed hot tiles, FREEd after the next commit; R263 -/
  hotOld : List TileIdx := []
  /-- counter; R111 anchors raised in the partition's steps; reset 0 -/
  anchorRaised : Nat := 0
  /-- count; R332 steps committed in the current interference window; reset 0 -/
  steps : Nat := 0
deriving DecidableEq, Repr

/-- Tenant parameters (Table 14.1, Table 20.10) and interference (R332, R333). -/
structure TenantState where
  /-- 7 bits; WEIGHT; reset 1 -/
  weight : BitVec 7 := 1
  /-- 11 bits; MAX_SLOTS; reset 0 -/
  maxSlots : BitVec 11 := 0
  /-- 32 bits; SERVE; reset 0 (tenant 0: 0x0000_0001, kept as an explicit entry at reset) -/
  serve : BitVec 32 := 0
  /-- 48 bits; TEMPLATE_BASE; reset 0 -/
  templateBase : BitVec 48 := 0
  /-- µs; R332 time that the tenant's work would have taken alone, in the current window; reset 0 -/
  soloUs : Rat := 0
  /-- µs; R332 time that it took; reset 0 -/
  actualUs : Nat := 0
  /-- 16 bits; RATIO; reset 1,024 -/
  ratio : Nat := 1024
  /-- windows above the threshold; R333; reset 0 -/
  slowRun : Nat := 0
  /-- 1 bit; R333 SLOWDOWN logged and not yet re-armed; reset 0 -/
  slowLogged : Bool := false
deriving DecidableEq, Repr

/-- An adapter version (R230). -/
structure AdapterVersion where
  tenant : Tenant
  number : BitVec 16
  part : PartId
  /-- its tiles, in the partition's tier-L share; the manual gives no place within it -/
  image : List Tile := []
  bindable : Bool := false
  refs : Nat := 0
  /-- place in load order: the newest is the greatest -/
  order : Nat := 0
deriving DecidableEq, Repr

/-- A loaded grammar (R252). -/
structure Grammar where
  tenant : Tenant
  world : Bool
  tokSet : BitVec 2
  vocab : Nat
  states : Nat
  intervals : Nat
  start : Nat
  base : BitVec 48
  stateOff : Nat
  intervalOff : Nat
deriving DecidableEq, Repr

/-- Tokenizer set states (Table 20.12). -/
inductive SetState where
  | empty | checking | installed | refused
deriving DecidableEq, Repr

/-- A tokenizer set (R238, R471). -/
structure TokSet where
  /-- 48 bits; TXT_SET BASE; reset 0 -/
  base : BitVec 48 := 0
  /-- 2 bits; TXT_SET STATE; reset EMPTY -/
  state : SetState := .empty
deriving DecidableEq, Repr

/-- Detokenizing and stop-string state of a slot (R247 to R251). -/
structure OutStream where
  /-- output bytes so far -/
  bytes : Bytes := []
  /-- (token, end offset in the output bytes, output length after it) per committed token -/
  marks : List (Nat × Nat) := []
  /-- first match: start and end offsets -/
  first : Option (Nat × Nat) := none
  firstPos : Option Nat := none
  /-- output bytes (before UTF-8 repair) released, bytes written to the text buffer, ids released -/
  released : Nat := 0
  written : Nat := 0
  ids : Nat := 0
  special : Nat := 0
  replaced : Nat := 0
  /-- a first mismatch of the two passes was seen since the last release (R342) -/
  mismatch : Bool := false
  /-- the request ended by a second mismatch, or by a table tile that no source gives (R237) -/
  failed : Bool := false
  media : Bool := false
  /-- first position of the stream -/
  pos0 : Nat := 0
deriving DecidableEq, Repr

/-- State of the text die (chapter 10). -/
structure TextState where
  /-- 4 sets; R238; reset EMPTY -/
  sets : Map TokSet := []
  /-- 32 bits; TXT_CFG_ERR (Table 20.1); reset 0 -/
  cfgErr : BitVec 32 := 0
  /-- 256 grammars; R252; reset none -/
  grammars : Map Grammar := []
  /-- by 1,024 × partition + slot; R247 output state; reset none -/
  streams : Map OutStream := []
  /-- 64-bit counters; CNT_TXT (Table 20.16): replacements, grapheme joiners, SPECIAL tokens; reset 0 -/
  cntReplaced : Nat := 0
  cntJoiners : Nat := 0
  cntSpecial : Nat := 0
  /-- RECORD tiles last written by the mask engine: state record and intervals, by 1,024 × partition + slot; R254; reset none -/
  masks : Map (List (BitVec 64)) := []
deriving DecidableEq, Repr

/-- A compaction in progress (R187). -/
structure Compaction where
  d0 : Nat
  t0 : Nat
  o : Epoch
deriving DecidableEq, Repr

/-- What a compaction or a centroid retirement left behind (R187): old base units, delta and tombstone tiles, passage ids whose blocks go
with them, and the turns in a retrieval phase at the switch. -/
structure Freeing where
  units : List Nat := []
  deltas : List Nat := []
  tombs : List Nat := []
  pids : List Nat := []
  users : List Nat := []
deriving DecidableEq, Repr

/-- An index (Table 7.1) with its module-written fields and its active work. -/
structure IndexRec where
  metricIp : Bool := false
  world : Bool := false
  tenant : Tenant := 0
  dim : Nat := 64
  pqM : Nat := 16
  entryBytes : Nat := 96
  beam : Nat := 1
  maxRounds : Nat := 1
  centroids : Nat := 1
  walkAnchor : Int := 0
  sumAnchor : Int := 0
  insertBeam : Nat := 1
  /-- 32 bits; module-written EPOCH; 1 at creation -/
  epoch : Epoch := 1
  /-- 32 bits; module-written OLDEST_SNAP; 1 at creation -/
  oldestSnap : Epoch := 1
  /-- 40 bits; module-written INSERT_NEXT; 0x80_0000_0000 at creation -/
  insertNext : BitVec 40 := 0x8000000000
  entryCount : Nat := 64
  centBase : Nat := 0
  recBase : Nat := 0
  graphBase : Nat := 0
  entryBase : Nat := 0
  codebookBase : Nat := 0
  listdirBase : Nat := 0
  passageBase : Nat := 0
  insertBase : Nat := 0
  deltaBase : Nat := 0
  deltaTiles : Nat := 0
  tombTiles : Nat := 0
  tombBase : Nat := 0
  /-- active snapshots with their counts (R184) -/
  snaps : Map Nat := []
  /-- pool tiles in use, delta and tombstone -/
  deltaUsed : Nat := 0
  tombUsed : Nat := 0
  /-- freed pool tiles -/
  deltaFree : List Nat := []
  tombFree : List Nat := []
  /-- batch written and not yet visible: handle, and what undoes it, newest first: device-range addresses with bytes (R182, R183) -/
  batch : Option Nat := none
  undo : List (Nat × Bytes) := []
  /-- pool tiles that the batch took, delta and tombstone -/
  newDeltas : List Nat := []
  newTombs : List Nat := []
  /-- handles of accepted batches that wait their turn, first in first out (R182) -/
  queue : List Nat := []
  /-- compactions by list (R187) -/
  compact : Map Compaction := []
  /-- old bases and chains to free, by list (R187) -/
  freeing : Map Freeing := []
deriving DecidableEq, Repr

/-- A migration batch of a table (R263). -/
structure MigBatch where
  toFill : List (Nat × BitVec 2) := []
  filled : List Nat := []
deriving DecidableEq, Repr

/-- A mirrored row batch that waits for the reader partition's next boundary (Table 11.4 order 4). -/
structure MirrorBatch where
  jseq : Nat
  seq : Nat
  images : List (Nat × List Word) := []
  maps : List (Nat × BitVec 64) := []
deriving DecidableEq, Repr

/-- An embedding table (Table 11.1). -/
structure TableRec where
  world : Bool := false
  ownerPos : Bool := false
  tenant : Tenant := 0
  cols : Nat := 32
  rows : Nat := 1
  defaultRow : Nat := 0
  part : PartId := 0
  sampleShift : Nat := 4
  warmPermille : Nat := 0
  hotTiles : Nat := 0
  /-- 64 bits; module-written UPDATE_SEQ; reset 0 at creation -/
  updateSeq : Nat := 0
  mapBase : Nat := 0
  hotBase : Nat := 0
  warmBase : Nat := 0
  coldBase : Nat := 0
  countBase : Nat := 0
  /-- 32 bits; R261 lookup counter; 0 at creation -/
  lookups : BitVec 32 := 0
  /-- R266 last BATCH_ID by function -/
  lastBatch : Map (BitVec 64) := []
  batch : Option MigBatch := none
  /-- R263 rows left out of a migration batch -/
  leftOut : Nat := 0
  /-- mirrored batches received and not yet written (Table 11.4 order 4) -/
  mirrorIn : List MirrorBatch := []
  /-- row slots written by a batch not yet acknowledged: handle, device-range address, old bytes, newest first (R373) -/
  undo : List (Nat × Nat × Bytes) := []
  /-- R262 rebuilds skipped -/
  skippedRebuilds : Nat := 0
  /-- 64-bit counters; CNT_TABLE (Table 20.16): invalid and missing indices -/
  cntInvalid : Nat := 0
  cntMissing : Nat := 0
  /-- R262 request time of the next rebuild's interval start -/
  refreshedAt : BitVec 48 := 0
deriving DecidableEq, Repr

/-- State of chapters 07 (objects), 09, 10, 11, 14 and 15. -/
structure GenState where
  /-- 32 partitions; R318; reset EMPTY -/
  parts : Map Partition := []
  /-- 512 tenants; Table 14.1; reset as TenantState, tenant 0 with SERVE 0x0000_0001 -/
  tenants : Map TenantState := [(0, { serve := 1 })]
  /-- 4,096 version slots; R230; reset none -/
  adapters : Map AdapterVersion := []
  /-- count; R230 versions loaded, for their order; reset 0 -/
  adapterNext : Nat := 0
  /-- count; R356 steps committed by the partitions; reset 0 -/
  stepCount : Nat := 0
  /-- up to two device-range addresses a shelf engine, last used first; R170 the codebooks in its 2 MiB buffer. What the buffer holds is what the
  codebooks' COPY holds: RO data of a created index does not change; reset none -/
  codebooks : Map (List Nat) := []
  /-- 256 indexes; R155; reset none -/
  indexes : Map IndexRec := []
  /-- 64 tables; R256; reset none -/
  tables : Map TableRec := []
  /-- 8 bits; PRT_TEST INTERVAL hours (R363); reset 24 -/
  testInterval : BitVec 8 := 24
  /-- 10 bits; PRT_SLOW WINDOWS; reset 10 -/
  slowWindows : BitVec 10 := 10
  /-- 16 bits; PRT_SLOW THRESHOLD; reset 0x0500 -/
  slowThreshold : BitVec 16 := 0x0500
  /-- 32 bits; PRT_CFG_ERR (Table 20.1); reset 0 -/
  cfgErr : BitVec 32 := 0
  /-- next turn conductor lead: walk controller, round robin over 256 channel units; ch 07; reset 0 -/
  walkNext : BitVec 8 := 0
  /-- (block kind × 65,536 + number) to steps of its faults; R356; reset none -/
  blockFaults : Map (List Nat) := []
  /-- CPER records, newest first, at most 256; R365; reset none (secure flash) -/
  faultRecords : List Bytes := []
  /-- record number; R365; reset 0 (DESIGN CHOICE) -/
  faultNext : Nat := 0
deriving DecidableEq, Repr

end Sys2Proof.Machine
end

