-- ==== Sys2Proof/Machine/StatePair.lean ====
section
/-! DEFINITION. State of pair operation over the Settee link (chapter 16) and of the pair registers (Table 20.13). -/

namespace Sys2Proof.Machine

/-- Link states (Table 16.2). -/
inductive PairLink where
  | down | training | sync | up
deriving DecidableEq, Repr

/-- Causes of PAIR_SPLIT (Table 16.8). -/
inductive SplitCause where
  | silence | realign | mirrorTimeout | takeover | relinquish
deriving DecidableEq, Repr

/-- The objects that MIRROR_CONFIG carries (Table 16.4): a created or removed index or table, or tenant parameters (Table 14.1). -/
inductive ConfigBody where
  | index (n : Nat) (rec : Option IndexRec)
  | table (n : Nat) (rec : Option TableRec)
  | tenant (weight : BitVec 7) (maxSlots : BitVec 11) (serve : BitVec 32)
deriving DecidableEq, Repr

/-- The contents of a message after its header (Table 16.4): the manual names them and gives no byte layout. -/
inductive MsgBody where
  | none
  /-- MIRROR_INDEX: entries by list, tombstone records (list, pid), blocks by passage id, patches (retired, replacement), INSERT_NEXT; in a
  full resynchronisation the tiles of the mirrored extents by device-range tile number. The new epoch is in the header -/
  | index (entries : List (Nat × Bytes)) (tombs : List (Nat × Nat)) (blocks : List (Nat × Bytes)) (patches : List (Nat × Nat))
      (writes : List (Nat × Tile)) (insertNext : BitVec 40)
  /-- MIRROR_ROWS: row images and row-map entries (row, 8 bytes) -/
  | rows (images : List (Nat × List Word)) (maps : List (Nat × BitVec 64))
  | adapter (part : PartId) (tiles : List Tile)
  | config (c : ConfigBody)
  /-- FORWARD, TURN_DESC: the descriptor and its parameter region -/
  | desc (d : Descriptor) (param : Bytes)
  /-- FORWARD_DONE: FINAL fields OUT_COUNT and AUX (the status is in the header) -/
  | final (outCount : Nat) (aux : BitVec 32)
  /-- TURN_TEXT: bytes, with END -/
  | text (data : Bytes) (last : Bool)
  | tile (t : Tile)
  | ident (i : Ident)
  /-- MIRROR_READ: the device-range address -/
  | addr (a : BitVec 48)
deriving DecidableEq, Repr

/-- A journal entry (R375): a sent journalled message that is not acknowledged. -/
structure JournalEntry where
  jseq : Nat
  hdr : MsgHdr
  body : MsgBody
  /-- request time at which it was sent while the link carried traffic; R374 -/
  sentAt : Option (BitVec 48) := none
  /-- the mutation that waits for it -/
  handle : Option Nat := none
deriving DecidableEq, Repr

/-- What the module knows of a tenant's lease word (R377, R378). -/
structure LeaseInfo where
  /-- the word as last read -/
  word : LeaseWord := {}
  /-- request time at which the word was last seen to change; R378 -/
  changedAt : BitVec 48 := 0
  /-- request time of the last successful renewal; R378 -/
  renewedAt : BitVec 48 := 0
  /-- 1 bit; the module acts as holder; R378 -/
  mine : Bool := false
  /-- 1 bit; R381 SOLO pending -/
  soloPending : Bool := false
  /-- 1 bit; R387 under full resynchronisation (as receiver) -/
  resync : Bool := false
  /-- JSEQ after which a handed-over lease is acted on; R382 -/
  holdFrom : Option Nat := none
  /-- 1 bit; R382 new mutations end REDIRECT_PARTNER while a hand-over runs -/
  handingOver : Bool := false
  /-- 1 bit; R381 SOLO_CLEAR discarded the other module's entries: full resynchronisation is due -/
  cleared : Bool := false
  /-- full resynchronisation is due because the partner's JOURNAL_GEN changed; R387 -/
  genChanged : Bool := false
  /-- last JSEQ journalled for the tenant; R382 -/
  lastJseq : Nat := 0
  /-- full resynchronisation is due because the journal dropped entries; R387 -/
  dropped : Bool := false
deriving DecidableEq, Repr

/-- A turn mirrored from the partner (R383). -/
structure MirrorTurn where
  tag : BitVec 64
  tenant : Tenant
  qp : BitVec 3
  desc : Descriptor
  param : Bytes
  text : Bytes := []
  ended : Bool := false
  snap : Option Epoch := none
  /-- handle of its re-run (R385) -/
  rerun : Option Nat := none
deriving DecidableEq, Repr

/-- A tile that came from the partner PROVISIONAL (R360, R372). -/
structure RemoteProv where
  part : Nat
  epoch : Epoch
  tile : TileIdx
  /-- it came over the Settee link, and not through a merge slot -/
  link : Bool := false
deriving DecidableEq, Repr

/-- State of chapter 16. -/
structure PairState where
  /-- 1 bit; PAI_CTRL ENABLE (Table 20.13); reset 0 -/
  enable : Bool := false
  /-- 1 bit; PAI_CTRL FAILBACK; reset 0 -/
  failback : Bool := false
  /-- 1 bit; PAI_CTRL POSITION; reset 0 -/
  position : Bool := false
  /-- 16 bits; PAI_ID; reset 0 -/
  pairId : BitVec 16 := 0
  /-- 7 bits; PAI_JOURNAL JOURNAL_GIB; reset 8 -/
  journalGib : BitVec 7 := 8
  /-- 7 bits; PAI_TIMEOUT MIRROR_TIMEOUT ms; reset 10 -/
  mirrorTimeout : BitVec 7 := 10
  /-- 64 bits; PAI_LEASE_BASE; reset 0 -/
  leaseBase : BitVec 64 := 0
  /-- 16 × 32 bits; PAI_PREFER; reset 0 -/
  prefer : Map (BitVec 32) := []
  /-- 16 × 32 bits and 1 bit; PREFER and FAILBACK in effect since the last renewal; R472; reset 0 -/
  preferUsed : Map (BitVec 32) := []
  failbackUsed : Bool := false
  /-- 4 bits; PAI_STATE LANES; reset 0 -/
  lanes : BitVec 4 := 0
  /-- 3 bits; PAI_STATE LINK (Table 16.2); reset DOWN -/
  link : PairLink := .down
  /-- 32 bits; PAI_CFG_ERR (Table 20.1); reset 0 -/
  cfgErr : BitVec 32 := 0
  /-- lanes; R366 failed lanes; reset none -/
  deadLanes : List (BitVec 3) := []
  /-- 12 bits; R368 next SEQ to send; reset 0 -/
  txSeq : BitVec 12 := 0
  /-- at most 1,024 frames; R368 replay buffer; reset empty -/
  replay : List Frame := []
  /-- frames of messages sent that wait for the replay buffer or for credit, oldest first; R368, R370; reset none -/
  txWait : List Frame := []
  /-- frames; R368 frames sent for which the partner returned no credit, at most 2,048; reset 0 -/
  owed : Nat := 0
  /-- 12 bits; R368, R20 SEQ the receiver expects; reset 0 -/
  expect : BitVec 12 := 0
  /-- 1 bit; R20 discarding until the resend; reset 0 -/
  discarding : Bool := false
  /-- 12 bits and a count; R368 run of negative acknowledges of one SEQ; reset 0 -/
  nakSeq : BitVec 12 := 0
  nakRun : Nat := 0
  /-- 12 bits and a count; R368 run of negative acknowledges of one SEQ received; reset 0 -/
  txNakSeq : BitVec 12 := 0
  txNakRun : Nat := 0
  /-- frames freed and not yet reported; R368; reset 0 -/
  credit : Nat := 0
  /-- 1 bit; an acknowledgement is due; reset 0 -/
  ackDue : Bool := false
  /-- 1 bit; R368 realigning its frames; reset 0 -/
  realigning : Bool := false
  /-- request times of the realignments of the last second; R369; reset none -/
  realignAt : List (BitVec 48) := []
  /-- 48 bits; R368 request time of the last frame sent; reset 0 -/
  sentAt : BitVec 48 := 0
  /-- 48 bits; R369 request time of the last valid frame; reset 0 -/
  validAt : BitVec 48 := 0
  /-- 48 bits; R369 request time of the last training attempt; reset 0 -/
  triedAt : BitVec 48 := 0
  /-- payload bytes of the message being received, oldest first; R370; reset none -/
  rxBytes : Bytes := []
  /-- 1 bit; R370 a message is being received; reset 0 -/
  rxOpen : Bool := false
  /-- messages received whole and not yet handled; R370; reset none -/
  rxMsgs : List Bytes := []
  /-- 64 bits; JOURNAL_GEN (R369); reset 0 until POWER_ON draws it -/
  journalGen : BitVec 64 := 0
  /-- the partner's IDENT at the last training; R369; reset none -/
  partner : Option Ident := none
  /-- messages sent, newest first; R370; reset none -/
  sent : List (MsgHdr × MsgBody) := []
  /-- next JSEQ to send; R374; reset 1 -/
  jNext : Nat := 1
  /-- last JSEQ acknowledged by the partner; R374; reset 0 -/
  jAcked : Nat := 0
  /-- last JSEQ applied from the partner; R374; reset 0 -/
  jApplied : Nat := 0
  /-- 1 bit; R386 the next journalled message of the partner starts its replay; reset 0 -/
  jFresh : Bool := false
  /-- entries, oldest first; R375 journal; reset none -/
  journal : List JournalEntry := []
  /-- parts held in tier L, oldest first; R371; reset none -/
  parts : List (MsgHdr × MsgBody) := []
  /-- last JSEQ of our journal that a replay must reach; R386; reset none (no replay outstanding) -/
  replayTo : Option Nat := none
  /-- first JSEQ replayed and start time; R386 (PAIR_JOINED); reset 0 -/
  replayFrom : Nat := 0
  syncAt : BitVec 48 := 0
  /-- 1 bit; the partner's JOURNAL_REQ has arrived in this SYNC; R386; reset 0 -/
  reqSeen : Bool := false
  /-- 512 lease words; R377, R378; reset HELD 0 -/
  leases : Map LeaseInfo := []
  /-- tenants whose pinned lease line was invalidated and is to be re-read; R377; reset none -/
  linesPinned : Bool := false
  /-- mutations by handle that wait for replay (SOLO pending); R379; reset none -/
  waitMut : List Nat := []
  /-- forwarded mutations by handle; R379; reset none -/
  forwards : List Nat := []
  /-- turns mirrored from the partner; R383; reset none -/
  turns : List MirrorTurn := []
  /-- PROVISIONAL tiles of the partner without COMMIT; R372; reset none -/
  provisional : List RemoteProv := []
  /-- request time at which the link reached UP; R382; reset none -/
  upAt : Option (BitVec 48) := none
  /-- tile recoveries awaiting MIRROR_DATA, by device-range address; R376; reset none -/
  reads : List (BitVec 48) := []
  /-- addresses whose recovery failed and whose reader has not yet asked again; R376; reset none -/
  failedReads : List (BitVec 48) := []
deriving DecidableEq, Repr

end Sys2Proof.Machine
end

