-- ==== Sys2Proof/Machine/StateFlash.lean ====
section
/-! DEFINITION. State of flash media management (chapter 17): NAND pages, blocks, map, journal, parity groups, health. -/

namespace Sys2Proof.Machine

/-- Place of a page: channel, die, block and page within the block (R388, R391). -/
structure PagePos where
  chan : Nat
  die : Nat
  block : Nat
  page : Nat
deriving DecidableEq, Repr

/-- A programmed page: its tag (Table 17.4) and payload. -/
structure NandPage where
  /-- tag KIND; Table 17.4 -/
  kind : BitVec 8 := 1
  unit : Nat := 0
  seq : BitVec 48 := 0
  group : Option Nat := none
  hdr : TileHeader := {}
  payload : Bytes := []
  /-- the tag decodes and its TAG_CRC passes; R393 -/
  tagValid : Bool := true
  /-- the page's codewords are beyond LDPC; R399 -/
  dead : Bool := false
deriving DecidableEq, Repr

/-- A block of a die. -/
structure FlashBlock where
  /-- program/erase count; R401 -/
  pe : Nat := 0
  /-- next page to program; R395, R397 -/
  wp : Nat := 0
  /-- pages by page number; R393 -/
  pages : Map NandPage := []
  group : Option Nat := none
  /-- retired; R402 -/
  retired : Bool := false
  /-- record time by which a rewrite is due; R400 -/
  rewriteBy : Option (BitVec 48) := none
  /-- an erase is in progress, with how often it was suspended; R392, R405 -/
  erasing : Option Nat := none
deriving DecidableEq, Repr

/-- A parity group (R397): a column's 32 blocks, one a channel, of one stream. -/
structure ParityGroup where
  col : Nat
  reloc : Bool
  /-- block of each channel -/
  members : List (Nat × Nat × Nat)
  closed : Bool := false
  verified : Bool := false
  /-- a power loss without a flush mark took the parity image (R406) -/
  parityGone : Bool := false
deriving DecidableEq, Repr

/-- Who waits for a page program's acknowledgement (R394). -/
inductive ProgWaiter where
  | nobody
  | load (handle : Nat)
  | writeBack (tile : Nat)
  | migrate (extent : Nat) (t : BitVec 7)
  | compaction (index list : Nat)
  | moved (src : PagePos)
deriving DecidableEq, Repr

/-- A page program in progress (R392, R394). -/
structure PageProgram where
  pos : PagePos
  page : NandPage
  waiter : ProgWaiter := .nobody
  suspends : Nat := 0
deriving DecidableEq, Repr

/-- A journal record (R395): TYPE 1 MAP, 2 TRIM, 3 BLOCK_RETIRED. -/
structure MapRecord where
  unit : Nat
  entry : BitVec 32
  seq : BitVec 48
  type : BitVec 8
deriving DecidableEq, Repr

/-- A member block of an open group with its write pointer (R395). -/
structure MemberPtr where
  chan : Nat
  die : Nat
  block : Nat
  wp : Nat
deriving DecidableEq, Repr

/-- A checkpoint page (R395): the open groups, each member's write pointer and the journal position. -/
structure Checkpoint where
  members : List MemberPtr := []
  groups : List Nat := []
  journalPos : Nat := 0
deriving DecidableEq, Repr

/-- A reply of the map port (R392). -/
structure PortReply where
  unit : Nat
  /-- translation fault, LOST, or the page's place -/
  lost : Bool := false
  pos : Option PagePos := none
deriving DecidableEq, Repr

/-- State of chapter 17. -/
structure FlashState where
  /-- 32-bit entries by logical unit; R391 map in tier L; reset UNMAPPED -/
  map : Map (BitVec 32) := []
  /-- blocks by (channel × 16 + die) × 2^23 + block; R388, R393 NAND contents; reset erased (DESIGN CHOICE: the module as manufactured) -/
  blocks : Map FlashBlock := []
  /-- pages per block and rated cycles by channel × 16 + die, from the parameter page; R389; reset none read -/
  params : Map (Nat × Nat) := []
  /-- 48 bits per flash-channel die; R394 SEQ counter (bits 47:46 the die number); reset die number, 0 (DESIGN CHOICE) -/
  seq : Map (BitVec 48) := []
  /-- records, oldest first; R395 journal ring in tier L; reset empty -/
  ring : List MapRecord := []
  /-- 48 bits; R395 request time of the previous flush; reset 0 -/
  flushedAt : BitVec 48 := 0
  /-- records, oldest first; R395 journal on flash; reset empty -/
  journal : List MapRecord := []
  /-- segment to (the four counters' SEQ, entries); R396 map image on flash; reset none -/
  image : Map (List (BitVec 48) × Map (BitVec 32)) := []
  /-- R396 next segment to write; reset 0 -/
  segNext : Nat := 0
  /-- last checkpoint; R395; reset none -/
  checkpoint : Option Checkpoint := none
  /-- by group number; R397 parity groups; reset none -/
  groups : Map ParityGroup := []
  /-- next group number; R397; reset 0 (DESIGN CHOICE) -/
  groupNext : Nat := 0
  /-- programs in progress, oldest first; R392, R394; reset none -/
  programs : List PageProgram := []
  /-- writes that wait for a group to be verified; R397; reset none -/
  stalled : List (Nat × NandPage × ProgWaiter) := []
  /-- groups whose parity was flushed and the flush mark naming the checkpoint; R408; reset none -/
  flushMark : Option (List Nat) := none
  /-- 1 bit; R406 rebuild in progress; reset 0 -/
  rebuilding : Bool := false
  /-- 1 bit; R408 no new program is accepted; reset 0 -/
  stopped : Bool := false
  /-- channels; R389 failed; reset none -/
  failedChans : List Nat := []
  /-- channels; R402 read-only; reset none -/
  readonly : List Nat := []
  /-- blocks retired by channel; R402; reset 0 -/
  retiredCount : Map Nat := []
  /-- warnings raised and not cleared: 2 × channel (level 10), 2 × channel + 1 (level 5), 64 wear, 65 uncorrectable rate; R403; reset none -/
  raised : List Nat := []
  /-- (record time, channel, die, unit) of uncorrectable codewords, newest first; R399, R403; reset none -/
  unc : List (BitVec 48 × Nat × Nat × Nat) := []
  /-- 16 bits; UNC_THRESHOLD (Table 17.5); reset 8 -/
  uncThreshold : BitVec 16 := 8
  /-- record time of the last levelling move, by channel × 16 + die; R401; reset none -/
  movedAt : Map (BitVec 48) := []
  /-- answers of the map port, oldest first; R392; reset none -/
  port : List PortReply := []
deriving DecidableEq, Repr

end Sys2Proof.Machine
end

