-- ==== Sys2Proof/Machine/StateBureau.lean ====
section
/-! DEFINITION. State of the Bureau (chapter 18) with its mailbox registers (Table 20.15), and of power and reset (chapter 19). -/

namespace Sys2Proof.Machine

/-- An event record (Table 18.5). -/
structure EventRec where
  code : BitVec 16
  source : DieId
  world : Bool := false
  severity : BitVec 2
  summary : Bool := false
  time : BitVec 48
  seq : BitVec 16
  params : List Word
deriving DecidableEq, Repr

/-- A code's bucket (R422). -/
structure Bucket where
  /-- 0 to 8 tokens; 8 at reset (a full bucket: DESIGN CHOICE) -/
  tokens : Nat := 8
  suppressed : Nat := 0
  first : BitVec 48 := 0
  last : BitVec 48 := 0
  source : DieId := 0
  severity : BitVec 2 := 0
deriving DecidableEq, Repr

/-- An interrupt source (R411 to R415, Table 18.2). -/
structure IcSource where
  /-- 8 bits; MERGED; reset 0 -/
  merged : BitVec 8 := 0
  /-- 8 bits; FILTER; reset 8 -/
  filter : BitVec 8 := 8
  /-- 4 bits; TARGETS; reset 0 -/
  targets : BitVec 4 := 0
  /-- 1 bit; LEVEL; reset 0 -/
  level : Bool := false
  /-- 1 bit; PENDING; reset 0 -/
  pending : Bool := false
  /-- 1 bit; ACTIVE; reset 0 -/
  active : Bool := false
  /-- 4 bits; PRIORITY; reset 0 -/
  priority : BitVec 4 := 0
  /-- 1 bit; R411 filtered line; reset 0 -/
  line : Bool := false
  /-- target; R412 assigned to; reset none -/
  assigned : Option (BitVec 2) := none
  /-- target; R412 last assigned to; reset none -/
  lastTarget : Option (BitVec 2) := none
  /-- target; R414 active on; reset none -/
  activeOn : Option (BitVec 2) := none
  /-- 1 bit; R414 an edge latched while the source is ACTIVE; reset 0 -/
  edgeWaits : Bool := false
deriving DecidableEq, Repr

/-- A bank image and the chunks held of it (R433). -/
structure BankImage where
  version : Bytes := []
  size : Nat := 0
  stamp : Word := 0
  svn : Nat := 0
  keySlot : BitVec 2 := 0
  /-- 4 KiB chunks held -/
  chunks : Map Bytes := []
  verified : Bool := false
deriving DecidableEq, Repr

/-- A background command (R426). -/
structure Background where
  ticket : Word
  fromMailbox : Bool
  /-- blocks of the quiesce awaited, or the object of the command -/
  die : DieId := 0
  block : BitVec 4 := 0
  code : BitVec 8 := 0
  sub : BitVec 8 := 0
deriving DecidableEq, Repr

/-- Limits set through the mailbox (R401, R417, R418). -/
structure LimitState where
  /-- handshakes per µs by domain; RATE_TARGET (R417); reset 1,500 -/
  rateTarget : Map Nat := []
  /-- °C; T_THROTTLE (R417); reset 95 -/
  tThrottle : Nat := 95
  /-- W; POWER_CAP (R418); reset 1,800 -/
  powerCap : Nat := 1800
  /-- WL_SPREAD (R401); reset 200 -/
  wlSpread : Nat := 200
deriving DecidableEq, Repr

/-- Fuses that are blown in the field (R431). -/
structure FuseState where
  /-- 0 to 64; R431 anti-rollback counter; reset 0 (DESIGN CHOICE: as manufactured) -/
  rollback : Nat := 0
  /-- 4 bits; R431 revoked key slots; reset none (DESIGN CHOICE: as manufactured) -/
  revoked : BitVec 4 := 0
deriving DecidableEq, Repr

/-- State of the Bureau. -/
structure BureauState where
  /-- 48 bits; R33 request timer µs; reset 0 -/
  reqTimer : BitVec 48 := 0
  /-- 48 bits; R34 record time µs; reset 0 -/
  recTime : BitVec 48 := 0
  /-- 1 bit; R33 REFCLK present; reset 1 (DESIGN CHOICE) -/
  refclk : Bool := true
  /-- 64 bits signed; R34 UTC offset µs; reset none -/
  utc : Option (BitVec 64) := none
  /-- record time of the last kick by core; R410; reset 0 -/
  kickAt : Map (BitVec 48) := []
  /-- record time of the last stage 1 by core; R410; reset none -/
  stage1At : Map (BitVec 48) := []
  /-- cores stopped, whose work has moved; R409; reset none -/
  stoppedCores : List (BitVec 2) := []
  /-- 256 sources; R411 to R414; reset as IcSource -/
  sources : Map IcSource := []
  /-- 4 × 4 bits; IC_THRESHOLD; reset 0 -/
  threshold : Map (BitVec 4) := []
  /-- 4 × 8 bits; IC_CLAIM BADCOMP; reset 0 -/
  badComp : Map (BitVec 8) := []
  /-- 4 × (VALID, SOURCE); IC_CLAIM as last read; reset VALID 0 -/
  claim : Map (Bool × BitVec 8) := []
  /-- 8 × 32 bits; IC_EDGE LATCH; reset 0 -/
  edge : Map (BitVec 32) := []
  /-- 8 × 8 bits; IC_OVR OVERRUN; reset 0 -/
  overrun : Map (BitVec 8) := []
  /-- 64 × 16 bits as difference from the reset value; WM_DIE SECURE (Table 18.3); reset 0xFFFD for BU, bit 1 for FC0 to FC3 -/
  secureXor : Map (BitVec 16) := []
  /-- 0.1 °C by die; Table 18.4 junction temperature; reset 0 (DESIGN CHOICE) -/
  junction : Map Int := []
  /-- 0.1 °C; Table 18.4 board thermistors; reset 0 (DESIGN CHOICE) -/
  boardTemp : Map Int := []
  /-- 0.1 °C; Table 18.4 coolant inlet, outlet; reset 0 (DESIGN CHOICE) -/
  coolantIn : Int := 0
  coolantOut : Int := 0
  /-- 0.1 °C by NAND package; Table 18.4; reset 0 (DESIGN CHOICE) -/
  nandTemp : Map Int := []
  /-- mA and mV of J1; Table 18.4; reset 0 -/
  j1Current : Nat := 0
  /-- mV by domain; R417, R441 set point; reset 600 (DESIGN CHOICE: lowest set point, none given) -/
  volt : Map Nat := []
  /-- mA by domain; Table 18.4; reset 0 (DESIGN CHOICE) -/
  current : Map Nat := []
  /-- R418 cap_cut; reset 0 -/
  capCut : Nat := 0
  /-- record time since which a condition holds, by kind × 64 + number; R417 to R419, R446; reset none -/
  since : Map (BitVec 48) := []
  /-- memory-channel dies whose targets are lowered; R419; reset none -/
  memHot : List DieId := []
  /-- by code; R422 buckets; reset 8 tokens -/
  buckets : Map Bucket := []
  /-- 16 bits; R421 SEQ; reset 0 (DESIGN CHOICE) -/
  evSeq : BitVec 16 := 0
  /-- records staged in SRAM, newest first; R424; reset none -/
  staged : List EventRec := []
  /-- at most 4,096 records, newest first; R423 first area; reset none (secure flash) -/
  firstArea : List EventRec := []
  /-- at most 16,384 records, newest first; R423 last area; reset none (secure flash) -/
  lastArea : List EventRec := []
  /-- 1 bit; a fatal event is unresolved; FAULT_N (Table 19.11); reset 0 -/
  fatalSeen : Bool := false
  /-- 8 bits; BUR_MB_CMD SUB; reset 0 -/
  mbSub : BitVec 8 := 0
  /-- 8 bits; BUR_MB_CMD CODE; reset 0 -/
  mbCode : BitVec 8 := 0
  /-- 13 bits; BUR_MB_LEN; reset 0 -/
  mbLen : BitVec 13 := 0
  /-- 1 bit; BUR_MB_STATUS EXEC; reset 0 -/
  mbExec : Bool := false
  /-- 1 bit; BUR_MB_STATUS BACKGROUND; reset 0 -/
  mbBackground : Bool := false
  /-- 4 bits; BUR_MB_STATUS DISCARDS; reset 0 -/
  mbDiscards : BitVec 4 := 0
  /-- 13 bits; BUR_MB_STATUS OUT_LEN; reset 0 -/
  mbOutLen : BitVec 13 := 0
  /-- 8 bits; BUR_MB_STATUS STATUS (Table 13.8); reset 0 -/
  mbStatus : BitVec 8 := 0
  /-- 32 bits; BUR_MB_TICKET; reset 0 -/
  mbTicket : Word := 0
  /-- 1 bit; BUR_MB_IRQ IRQ_EN; reset 0 -/
  mbIrqEn : Bool := false
  /-- 4 bits; BUR_MB_IRQ VECTOR; reset 0 -/
  mbVector : BitVec 4 := 0
  /-- 4,096 bytes; BUR_MB_DATA; reset 0 -/
  mbData : Map Byte := []
  /-- background commands; R426; reset none -/
  background : List Background := []
  /-- outcomes of background commands by ticket: status and output; R426; reset none -/
  outcomes : Map (BitVec 8 × Bytes) := []
  /-- next ticket; R426; reset 1 (DESIGN CHOICE) -/
  ticketNext : Nat := 1
  /-- 8 bits; MCTP dynamic address (R425), assigned endpoint identifier; reset 0 -/
  mctpEid : BitVec 8 := 0
  /-- 32 bits; REPORT_NO (R429); reset 0 -/
  reports : Word := 0
  /-- 1 bit; R430 bank selector: bank B active; reset 0 (secure flash; DESIGN CHOICE bank A) -/
  activeB : Bool := false
  /-- banks A (0) and B (1); R433; reset empty (secure flash) -/
  banks : Map BankImage := []
  /-- 1 bit; R433 a component is being transferred into the inactive bank; reset 0 -/
  session : Bool := false
  /-- 1 bit; R433 the inactive bank is pending (ActivateFirmware); reset 0 -/
  pendingBank : Bool := false
  /-- 64 bits; ACTIVATE_UTC µs (R434); reset 0 -/
  activateUtc : BitVec 64 := 0
  /-- 1 bit; R434 FW_PENDING sent; reset 0 -/
  pendingSent : Bool := false
  /-- 1 bit; R434, R436 activation waits for a new FW_SCHEDULE; reset 0 -/
  fwHeld : Bool := false
  /-- 1 bit; R436 position 1 waits for its link after the partner's activation; reset 0 -/
  fwWaitsPartner : Bool := false
  /-- 48 bits; R436 record time at which that wait began; reset 0 -/
  fwWaitAt : BitVec 48 := 0
  /-- record time at which the drain of an activation began; R435; reset none -/
  drainAt : Option (BitVec 48) := none
  /-- ms; DRAIN_MS (R435); reset 100 -/
  drainMs : Nat := 100
  /-- requests cancelled by the drain's end; R435; reset 0 -/
  drainCancelled : Nat := 0
  /-- 1 bit; R435 the restart is a firmware activation not yet confirmed by BOOT_OK; reset 0 -/
  activating : Bool := false
  /-- SVN of the running image; R431; reset 0 (DESIGN CHOICE) -/
  runningSvn : Nat := 0
  /-- 2 bits; KEY_SLOT that verified stage 1 (Table 18.8); reset 0 (DESIGN CHOICE) -/
  keySlot : BitVec 2 := 0
  /-- count; R432 consecutive boot failures (secure flash); reset 0 -/
  bootFails : Nat := 0
  /-- 1 bit; R432 stage 0 is booting and BOOT_OK is awaited; reset 0 -/
  booting : Bool := false
  /-- 48 bits; R432 record time of the release of PD00; reset 0 -/
  bootAt : BitVec 48 := 0
  /-- 1 bit; R437 recovery; reset 0 -/
  recovery : Bool := false
  /-- 1 bit; STATE bit 2 of Table 18.8, kept until the next BOOT_OK; reset 0 -/
  recoveryBit : Bool := false
  /-- 4 KiB chunks of the recovery image by offset; R437; reset none -/
  recoveryImage : Map Bytes := []
  /-- 1 bit; secure debug unlocked (Table 18.8 STATE bit 1); reset 0 (DESIGN CHOICE) -/
  debugUnlocked : Bool := false
deriving DecidableEq, Repr

/-- Kinds of reset (Table 19.4, R458), by reach. -/
inductive ResetKind where
  | powerOn | perst | warm
deriving DecidableEq, Repr

/-- A reset held until the release in progress ends (R458). -/
inductive HeldReset where
  | flr (fn : Tenant) | hot | block (d : DieId) (b : BitVec 4)
deriving DecidableEq, Repr

/-- State of power and reset (chapter 19). -/
structure PowerState where
  /-- mV; R439 J1 input voltage; reset 0 -/
  j1 : Nat := 0
  /-- 1 bit; R440 bus converter runs; reset 0 -/
  converter : Bool := false
  /-- 30 domains; R442 powered; reset none -/
  domains : List Nat := []
  /-- 1 bit; POWER_GOOD, PWR_GOOD of J5 (R459, Table 19.11); reset 0 -/
  powerGood : Bool := false
  /-- 1 bit; R443 power-loss protection armed; reset 0 -/
  armed : Bool := false
  /-- 1 bit; R445 a flush has run and power is to fail or return; reset 0 -/
  lost : Bool := false
  /-- 1 bit; R449 off after a trip or emergency off; reset 0 -/
  tripped : Bool := false
  /-- 1 bit; R459 signal pins configured; reset 0 -/
  pins : Bool := false
  /-- 1 bit; HOST_PERST_N level on J2 (R453); reset low (asserted) -/
  perstN : Bool := false
  /-- 1 bit; EMERG_OFF_N level on J5 (R448); reset high (pull-up) -/
  emergN : Bool := true
  /-- 1 bit; FLOW_OK level on J5 (R446); reset high (pull-up) -/
  flowOk : Bool := true
  /-- 1 bit; Bureau held in reset after HOST_PERST_N (R453); reset 1 -/
  bureauHeld : Bool := true
  /-- the reset whose release is in progress; R458; reset none -/
  resetting : Option ResetKind := none
  /-- order of Table 19.5 next to run in the release chain, 0 when none; R454; reset 0 -/
  releaseStep : Nat := 0
  /-- resets held until the release ends; R458; reset none -/
  held : List HeldReset := []
  /-- cause of the last warm reset (Table 19.14); R451; reset none -/
  warmCause : Option Nat := none
  /-- handles of the mutations that the Bureau completes, their FINALs due after release; R456; reset none -/
  finishing : List Nat := []
  /-- 1 bit; R455 configuration space and BAR0 ready; reset 0 -/
  configReady : Bool := false
  /-- 1 bit; R455 Memory_Active; reset 0 -/
  memoryActive : Bool := false
deriving DecidableEq, Repr

end Sys2Proof.Machine
end

