-- ==== Sys2Proof/Machine/TypesSys.lean ====
section
/-! DEFINITION. Operand records of commands whose types need those of the state: vector rows, attention pages, flash reads,
Bureau limits, image verdicts, release steps, trips, sensor samples. -/

namespace Sys2Proof.Machine

/-- A vector engine operation on a row of n elements in registers (chapter 06): source register, destination register. -/
structure VecRef where
  engine : Engine
  ctx : Bool
  part : PartId
  dst : Nat
  a : Nat
  n : Nat
  /-- rows of n elements, one below the other, that a reduction down the rows takes; 0 for one along the row (R136) -/
  rows : Nat := 0
  chk : OpChecks := {}
deriving DecidableEq, Repr

/-- A page partial (R218): partition, slot, the query row as the program numbers it, the query vector as FP32 words, layer, KV head, page,
query position j, SCALE, the anchors of the two exact sums, the draft's page table or the target's; and whether the channel unit's checks
found a fault. -/
structure AttentionOp where
  part : PartId
  slot : Nat
  row : Nat
  query : List Word
  draft : Bool
  layer : Nat
  head : Nat
  page : Nat
  pos : Nat
  scale : Word
  anchor : Int
  vAnchor : Int
  fault : Bool
  /-- what disturbs the page's bursts as they are read (R79) -/
  upsets : BurstFault := []
deriving DecidableEq, Repr

/-- New K and V rows of one page: the position within the page and its bytes; and what disturbs the page's bursts as they are read. -/
structure PageRows where
  rows : List (Nat × Bytes) := []
  upsets : BurstFault := []
deriving DecidableEq, Repr

/-- How a page read ended (R399, R400): corrected bits of the worst codeword, whether read retry was used, whether it decoded,
uncorrectable codewords. An operand: the disturbance comes from the medium. -/
structure FlashRead where
  bits : Nat
  retried : Bool
  ok : Bool
  uncw : Nat
deriving DecidableEq, Repr

/-- A limit of SET_LIMITS (R420, Table 18.6). -/
inductive Limits where
  | rateTarget (d : Nat) (v : Nat)
  | tThrottle (v : Nat)
  | powerCap (v : Nat)
  | wlSpread (v : Nat)
deriving DecidableEq, Repr

/-- Why an image failed verification (Table 18.10, FW_VERIFY_FAILED): component and cause. -/
structure Verdict where
  component : Word
  cause : Word
deriving DecidableEq, Repr

/-- What a die's parameter page declares (R389): ONFI version × 10, cells, user capacity in bits, page and spare bytes, pages per block, rated
program/erase cycles. -/
structure ParamPage where
  onfi : Nat := 51
  tlc : Bool := true
  bits : Nat := 2 ^ 40
  page : Nat := 16384
  spare : Nat := 2208
  blockPages : Nat
  rated : Nat
deriving DecidableEq, Repr

/-- What a release-chain step finds in the hardware: fused die kinds that do not match (R427), parameter pages by channel × 16 + die (R389),
channels that fail with cause and die, engines whose start-up self-test fails with its mechanism (R363). -/
structure ReleaseInfo where
  badDies : List (DieId × BitVec 8) := []
  params : List (Nat × ParamPage) := []
  failedChans : List (Nat × Nat × Nat) := []
  failedEngines : List (Engine × BitVec 8) := []
deriving DecidableEq, Repr

/-- Causes of a firmware trip (R446, Table 19.14). -/
inductive TripCause where
  | junction (d : DieId) (temp : Nat)
  | outlet (temp : Nat)
  | flow
  | rateFloor (temp : Nat)
deriving DecidableEq, Repr

/-- Sensors sampled every 100 ms, and NAND packages every 1 s (Table 18.4), in 0.1 °C. -/
structure BoardSample where
  board : List Nat
  coolantIn : Nat
  coolantOut : Nat
  nand : List (Nat × Nat)
deriving DecidableEq, Repr

/-- The readings of one pass of the control loop (Table 18.4, 1 ms): input power in W averaged over the last 10 ms, J1 voltage and current in
mV and mA, junction temperatures by die in 0.1 °C, domain currents in mA. -/
structure LoopSample where
  power : Nat
  j1Mv : Nat
  j1Ma : Nat
  junction : List (DieId × Int) := []
  current : List (Nat × Nat) := []
deriving DecidableEq, Repr

/-- A component offered by a PLDM update session (R433). -/
structure ComponentOffer where
  version : Bytes
  size : Nat
  stamp : Word
  svn : Nat
  keySlot : BitVec 2
deriving DecidableEq, Repr

end Sys2Proof.Machine
end

