-- ==== Sys2Proof/Syntax.lean ====
section
/-! DEFINITION. The commands of the block: one constructor per row of spec/opcode_table.json, with the row's operands. The table gives
no bits and no operands; the operands are what the governing rule names, and what comes from outside the module in that step. -/

namespace Sys2Proof

open Machine

/-- The commands (opcode_table.json). -/
inductive Instr where
  /-- DIE_LINK_FLIT_RECEIVE (R20). -/
  | dieLinkFlitReceive (l : LinkId) (f : Flit)
  /-- ACK_ONLY_FLIT (R20). -/
  | ackOnlyFlit (l : LinkId)
  /-- LINK_REINITIALISE (R21). -/
  | linkReinitialise (l : LinkId)
  /-- LINK_REINIT_DONE (R21). -/
  | linkReinitDone (l : LinkId)
  /-- LINK_FAILED (R21). -/
  | linkFailed (l : LinkId)
  /-- HUB_FLIT_GRANT (R23). -/
  | hubFlitGrant (hub : BitVec 2) (out : DieId)
  /-- CONTROL_RING_HOP (R26). -/
  | controlRingHop (hub : BitVec 2) (m : CtrlMsg) (crcOk : Bool)
  /-- SUBSCRIBE (R50). -/
  | subscribe (b : BlockId) (t : TileIdx)
  /-- UNSUBSCRIBE (R50). -/
  | unsubscribe (b : BlockId) (t : TileIdx)
  /-- READY_NOTICE (R50). -/
  | readyNotice (b : BlockId) (t : TileIdx)
  /-- FENCE_REQ (R31). -/
  | fenceReq (issuer : BlockId) (die : DieId)
  /-- FENCE_MARKER_ANSWER (R31). -/
  | fenceMarkerAnswer (issuer : BlockId) (die : DieId) (link : BitVec 2) (store : BitVec 3)
  /-- FENCE_DONE (R31). -/
  | fenceDone (issuer : BlockId) (die : DieId) (reset : Bool)
  /-- QUIESCE_REQ (R32). -/
  | quiesceReq (b : BlockId)
  /-- BLOCK_QUIET (R32). -/
  | blockQuiet (b : BlockId)
  /-- QUIESCE_DONE (R32). -/
  | quiesceDone (b : BlockId)
  /-- QUIESCE_TIMEOUT (R32). -/
  | quiesceTimeout (b : BlockId)
  /-- COMMIT_NOTICE (R53). -/
  | commitNotice (p : PartId) (e : Epoch)
  /-- RETRACT_NOTICE (R53). -/
  | retractNotice (p : PartId) (e : Epoch)
  /-- RESET_RELEASE (R452). -/
  | resetRelease (d : DieId) (quiet : Bool)
  /-- RATE_SAMPLE (R28). -/
  | rateSample (d : Nat) (readings : List (BitVec 16))
  /-- REFCLK_LOSS (R33). -/
  | refclkLoss
  /-- REFCLK_RETURN (R33). -/
  | refclkReturn
  /-- STORE_READ (R44). -/
  | storeRead (rq : StoreReq) (ups : List Upset)
  /-- STORE_READ_HEADER (R44). -/
  | storeReadHeader (rq : StoreReq) (ups : List Upset)
  /-- STORE_FREE (R47). -/
  | storeFree (rq : StoreReq)
  /-- STORE_SCRUB (R61). -/
  | storeScrub (t : TileIdx) (ups : List Upset)
  /-- STORE_WRITE_HEADER (R48). -/
  | storeWriteHeader (src : DieId) (tag : BitVec 16) (t : TileIdx) (hdr : TileHeader) (world : Bool)
  /-- STORE_WRITE_PAYLOAD (R49). -/
  | storeWritePayload (src : DieId) (tag : BitVec 16) (k : BitVec 6) (data : Bytes)
  /-- SCRUB_PACE_TICK (R61). -/
  | scrubPaceTick
  /-- STORE_ZERO_FILL_DONE (R62). -/
  | storeZeroFillDone (st : BitVec 3)
  /-- TIER_WRITE_TILE (R70). -/
  | tierWriteTile (rq : TierReq) (x : Nat) (t : BitVec 7) (tile : Tile)
  /-- TIER_WRITE_UNBLOCKED (R70). -/
  | tierWriteUnblocked (i : Nat)
  /-- TIER_READ_TILE (R70). -/
  | tierReadTile (rq : TierReq) (x : Nat) (t : BitVec 7) (dest : LoadDest) (fault : BurstFault)
  /-- WRITE_BACK (R71). -/
  | writeBack (x : Nat) (t : BitVec 7) (fault : BurstFault)
  /-- MIGRATE_RO_START (R73). -/
  | migrateRoStart (x : Nat) (tier : BitVec 2) (loc : BitVec 25)
  /-- MIGRATE_RO_SWITCH (R73). -/
  | migrateRoSwitch (x : Nat)
  /-- MIGRATE_RO_DRAIN_END (R73). -/
  | migrateRoDrainEnd (x : Nat)
  /-- MIGRATE_START (R74). -/
  | migrateStart (x : Nat) (tier : BitVec 2) (loc : BitVec 25)
  /-- MIGRATE_TILE_COPY (R74). -/
  | migrateTileCopy (x : Nat)
  /-- MR4_POLL (R81). -/
  | mr4Poll (pkg : BitVec 5) (temp : BitVec 16) (refresh : BitVec 8) (hot : Bool)
  /-- WCK_OSC_CHECK (R81). -/
  | wckOscCheck (sub : BitVec 8) (drift : Bool)
  /-- SUBCHANNEL_RETRAIN_DONE (R82). -/
  | subchannelRetrainDone (sub : BitVec 8)
  /-- LPDDR6_TRAINING_DONE (R82). -/
  | lpddr6TrainingDone (mts : BitVec 16)
  /-- STREAM_TILE_WRITE (R88). -/
  | streamTileWrite (p : PartId) (fault : BurstFault)
  /-- STREAM_SLOT_POLL (R88). -/
  | streamSlotPoll (p : PartId)
  /-- REFETCH_READBACK (R94). -/
  | refetchReadback (x : Nat) (t : BitVec 7) (ok : Bool)
  /-- DEEP_SHAPE_MATMUL (R99). -/
  | deepShapeMatmul (m : MatmulOp)
  /-- WIDE_SHAPE_MATMUL (R100). -/
  | wideShapeMatmul (m : MatmulOp)
  /-- CONVOLUTION (R102). -/
  | convolution (c : ConvOp)
  /-- CONVERSION_READ (R128). -/
  | conversionRead (c : ConvRead)
  /-- ANCHOR_RETRY_DONE (R111). -/
  | anchorRetryDone (c : ConvRead)
  /-- ACTIVITY_HOLD_EXPIRY (R119). -/
  | activityHoldExpiry (e : Engine) (target : HoldEvent)
  /-- ACTIVITY_LEVEL_STEP (R119). -/
  | activityLevelStep (e : Engine)
  /-- VECTOR_OP (R133). -/
  | vectorOp (v : VecOp)
  /-- MX_QUANTISE (R135). -/
  | mxQuantise (v : VecRef) (fmt : BitVec 8) (scaleDst : Nat)
  /-- REDUCTION (R136). -/
  | reduction (v : VecRef) (kind : RedKind)
  /-- ROTARY_ENCODING (R137). -/
  | rotaryEncoding (v : VecRef) (cosReg : RotTable) (sinReg : RotTable) (half : Bool)
  /-- NORMALISATION (R138). -/
  | normalisation (v : VecRef) (layer : Bool) (eps : Word) (gain : Nat) (bias : Nat)
  /-- SELECT_EXACT (R142). -/
  | selectExact (e : Engine) (p : SelParams) (input : SelInput) (out : TileIdx)
  /-- SELECT_BUCKET (R145). -/
  | selectBucket (e : Engine) (p : SelParams) (input : SelInput) (out : TileIdx)
  /-- SELECT_MERGE (R149). -/
  | selectMerge (e : Engine) (p : SelParams) (inputs : List TileIdx) (bucket : Bool) (out : TileIdx)
  /-- MERGE_START (R151). -/
  | mergeStart (m : Nat) (expected : MergeSet)
  /-- MERGE_SLOT_PUBLISH (R153). -/
  | mergeSlotPublish (slot : Nat) (line : MergePart) (visible : Bool)
  /-- READY_LINE_INVALIDATION (R153). -/
  | readyLineInvalidation (m : Nat) (src : Nat)
  /-- READY_LINE_REREAD (R154). -/
  | readyLineReread (m : Nat) (src : Nat) (owner : Engine) (t : TileIdx) (line : ReadyLine) (tile : Tile)
  /-- WALK_START (R168). -/
  | walkStart (h : Nat)
  /-- WALK_ROUND_END (R168). -/
  | walkRoundEnd (h : Nat)
  /-- SCAN_ISSUE (R173). -/
  | scanIssue (h : Nat)
  /-- SHELF_UNIT_ARRIVE (R173). -/
  | shelfUnitArrive (h : Nat) (probe : Nat) (unit : Nat) (ok : Bool)
  /-- CHAIN_TILE_ARRIVE (R175). -/
  | chainTileArrive (h : Nat) (probe : Nat) (tile : Nat)
  /-- SCAN_BUDGET_EXPIRED (R174). -/
  | scanBudgetExpired (h : Nat)
  /-- RETRIEVAL_SOFT_DEADLINE (R174). -/
  | retrievalSoftDeadline (h : Nat)
  /-- SCAN_CUT (R175). -/
  | scanCut (h : Nat) (shelf : Nat)
  /-- SHELF_SCAN_END (R173). -/
  | shelfScanEnd (h : Nat) (shelf : Nat)
  /-- CANDIDATE_MERGE (R177). -/
  | candidateMerge (h : Nat)
  /-- PASSAGE_FETCH (R178). -/
  | passageFetch (h : Nat)
  /-- PASSAGE_UNIT_ARRIVE (R179). -/
  | passageUnitArrive (h : Nat) (cand : Nat) (ok : Bool)
  /-- FETCH_BUDGET_EXPIRED (R178). -/
  | fetchBudgetExpired (h : Nat)
  /-- RERANK_START (R195). -/
  | rerankStart (h : Nat)
  /-- RERANK_END (R197). -/
  | rerankEnd (h : Nat)
  /-- PACK_START (R203). -/
  | packStart (h : Nat)
  /-- PROMPT_READY (R207). -/
  | promptReady (h : Nat) (ok : Bool)
  /-- CHECK_RECORD_WRITE (R345). -/
  | checkRecordWrite (c : CheckRecord) (outs : List (Nat × Nat × List Word))
  /-- STEP_BOUNDARY (R231). -/
  | stepBoundary (p : PartId) (lost : List Tenant)
  /-- ENGINE_CONTEXT_SWITCH (R328). -/
  | engineContextSwitch (e : Engine) (lend : Bool)
  /-- KV_PAGE_WRITE (R216). -/
  | kvPageWrite (p : PartId) (slot : Nat) (page : Nat) (rows : PageRows)
  /-- ATTENTION_PAGE_PARTIAL (R218). -/
  | attentionPagePartial (a : AttentionOp)
  /-- SAMPLE_TOKEN (R224). -/
  | sampleToken (p : PartId) (slot : Nat) (draft : Bool) (logits : List Word) (fault : Bool)
  /-- DRAW_PORT_SERVE (R226). -/
  | drawPortServe (p : PartId)
  /-- GRAMMAR_MASK_REQUEST (R254). -/
  | grammarMaskRequest (p : PartId) (slot : Nat)
  /-- STOP_REPORT (R234). -/
  | stopReport (p : PartId) (slot : Nat) (pos : Nat) (e : Epoch)
  /-- MATCHED (R250). -/
  | matched (p : PartId) (e : Epoch)
  /-- INTERFERENCE_WINDOW_CLOSE (R332). -/
  | interferenceWindowClose
  /-- TOKENIZER_INSTALL (R471). -/
  | tokenizerInstall (s : BitVec 2)
  /-- TOKENIZER_CHECK_DONE (R238). -/
  | tokenizerCheckDone (s : BitVec 2)
  /-- TOKENIZER_REMOVE (R471). -/
  | tokenizerRemove (s : BitVec 2)
  /-- COMMITTED_TOKENS_RECEIVE (R249). -/
  | committedTokensReceive (p : PartId) (slot : Nat) (mismatch : Nat)
  /-- SLOT_FINAL_RELEASE (R251). -/
  | slotFinalRelease (p : PartId) (slot : Nat)
  /-- TABLE_REFRESH (R262). -/
  | tableRefresh (t : BitVec 6)
  /-- HOST_LINK_TRAINING (R268). -/
  | hostLinkTraining (width : BitVec 8) (gts : BitVec 8) (latOpt : Bool)
  /-- DOORBELL_INVALIDATION (R282). -/
  | doorbellInvalidation (fn : Tenant) (q : BitVec 3)
  /-- DOORBELL_REREAD_RETURN (R282). -/
  | doorbellRereadReturn (fn : Tenant) (q : BitVec 3) (line : DoorbellLine) (descs : List Descriptor)
  /-- ATS_INVALIDATION (R273). -/
  | atsInvalidation (fn : Tenant) (page : BitVec 64)
  /-- HOST_WINDOW_READ (R275). -/
  | hostWindowRead (addr : Nat) (cached : Bool) (fault : BurstFault)
  /-- HOST_WINDOW_WRITE (R275). -/
  | hostWindowWrite (addr : Nat) (data : Bytes)
  /-- BACK_INVALIDATE_RESPONSE (R276). -/
  | backInvalidateResponse (line : Nat)
  /-- COMPLETION_POST (R284). -/
  | completionPost (fn : Tenant) (q : BitVec 3) (ringOk : Bool) (bad : Option Nat)
  /-- MSIX_TIME_EXPIRY (R287). -/
  | msixTimeExpiry (fn : Tenant) (v : BitVec 4)
  /-- CXL_HOT_RESET (R288). -/
  | cxlHotReset
  /-- FUNCTION_LEVEL_RESET (R289). -/
  | functionLevelReset (fn : Tenant)
  /-- NOP (R294). -/
  | nop (fn : Tenant) (q : BitVec 3) (v : HostView)
  /-- TURN (R296). -/
  | turn (fn : Tenant) (q : BitVec 3) (v : HostView)
  /-- TEXT_APPEND (R296). -/
  | textAppend (fn : Tenant) (q : BitVec 3) (v : HostView)
  /-- TURN_END_DEADLINE (R296). -/
  | turnEndDeadline (h : Nat)
  /-- EMBED (R300). -/
  | embed (fn : Tenant) (q : BitVec 3) (v : HostView)
  /-- SEARCH (R299). -/
  | search (fn : Tenant) (q : BitVec 3) (v : HostView)
  /-- RERANK (R300). -/
  | rerank (fn : Tenant) (q : BitVec 3) (v : HostView)
  /-- GENERATE (R299). -/
  | generate (fn : Tenant) (q : BitVec 3) (v : HostView)
  /-- TOKENIZE (R300). -/
  | tokenize (fn : Tenant) (q : BitVec 3) (v : HostView)
  /-- DETOKENIZE (R248). -/
  | detokenize (fn : Tenant) (q : BitVec 3) (v : HostView)
  /-- INDEX_INSERT (R180). -/
  | indexInsert (fn : Tenant) (q : BitVec 3) (v : HostView)
  /-- INDEX_PATCH (R188). -/
  | indexPatch (fn : Tenant) (q : BitVec 3) (v : HostView)
  /-- INDEX_DELETE (R181). -/
  | indexDelete (fn : Tenant) (q : BitVec 3) (v : HostView)
  /-- ROW_LOOKUP (R259). -/
  | rowLookup (fn : Tenant) (q : BitVec 3) (v : HostView)
  /-- ROW_UPDATE (R264). -/
  | rowUpdate (fn : Tenant) (q : BitVec 3) (v : HostView)
  /-- LOAD_EXTENT (R303). -/
  | loadExtent (fn : Tenant) (q : BitVec 3) (v : HostView)
  /-- ADAPTER_LOAD (R230). -/
  | adapterLoad (fn : Tenant) (q : BitVec 3) (v : HostView)
  /-- GRAMMAR_LOAD (R253). -/
  | grammarLoad (fn : Tenant) (q : BitVec 3) (v : HostView)
  /-- PROGRAM_LOAD (R322). -/
  | programLoad (fn : Tenant) (q : BitVec 3) (v : HostView) (sec : ImageSections)
  /-- PROGRAM_REPLACE_SWITCH (R323). -/
  | programReplaceSwitch (p : PartId)
  /-- PROGRAM_UNLOAD (R324). -/
  | programUnload (fn : Tenant) (q : BitVec 3) (v : HostView)
  /-- PARTITION_UNLOAD_DONE (R324). -/
  | partitionUnloadDone (p : PartId)
  /-- CANCEL (R313). -/
  | cancel (fn : Tenant) (q : BitVec 3) (v : HostView)
  /-- FENCE (R314). -/
  | fence (fn : Tenant) (q : BitVec 3) (v : HostView)
  /-- FENCE_COMPLETE (R314). -/
  | fenceComplete (h : Nat) (descs : List Descriptor)
  /-- WORLD_MAP_WRITE (R416). -/
  | worldMapWrite (b : BlockId) (secure : Bool)
  /-- STEP_WATCHDOG_EXPIRY (R353). -/
  | stepWatchdogExpiry (p : PartId) (hung : List Engine)
  /-- FIELD_TEST_DUE (R364). -/
  | fieldTestDue (e : Engine)
  /-- FIELD_TEST_DEFERRAL_END (R364). -/
  | fieldTestDeferralEnd (e : Engine)
  /-- FIELD_TEST_COMPLETE (R364). -/
  | fieldTestComplete (e : Engine) (mechanism : Option (BitVec 8))
  /-- SETTEE_FRAME_RECEIVE (R367). -/
  | setteeFrameReceive (f : Frame)
  /-- SETTEE_EMPTY_FRAME (R368). -/
  | setteeEmptyFrame
  /-- SETTEE_REALIGN (R368). -/
  | setteeRealign (swaps : List Tenant)
  /-- SETTEE_SILENCE (R369). -/
  | setteeSilence (swaps : List Tenant)
  /-- SETTEE_TRAIN_ATTEMPT (R369). -/
  | setteeTrainAttempt (ok : Bool)
  /-- IDENT (R369). -/
  | ident (i : Ident)
  /-- MIRROR_INDEX (R182). -/
  | mirrorIndex (m : MsgHdr) (body : MsgBody)
  /-- MIRROR_ROWS (R267). -/
  | mirrorRows (m : MsgHdr) (body : MsgBody)
  /-- MIRROR_ADAPTER (R374). -/
  | mirrorAdapter (m : MsgHdr) (body : MsgBody)
  /-- MIRROR_CONFIG (R373). -/
  | mirrorConfig (m : MsgHdr) (body : MsgBody)
  /-- MIRROR_ACK (R374). -/
  | mirrorAck (m : MsgHdr) (swaps : List Tenant)
  /-- MIRROR_TIMEOUT (R374). -/
  | mirrorTimeout (jseq : Nat) (swaps : List Tenant)
  /-- FORWARD (R379). -/
  | forward (m : MsgHdr) (body : MsgBody)
  /-- FORWARD_DONE (R379). -/
  | forwardDone (m : MsgHdr) (body : MsgBody)
  /-- TURN_DESC (R383). -/
  | turnDesc (m : MsgHdr) (body : MsgBody)
  /-- TURN_TEXT (R383). -/
  | turnText (m : MsgHdr) (body : MsgBody)
  /-- TURN_SNAP (R383). -/
  | turnSnap (m : MsgHdr)
  /-- TURN_DONE (R383). -/
  | turnDone (m : MsgHdr)
  /-- REMOTE_TILE (R372). -/
  | remoteTile (m : MsgHdr) (body : MsgBody) (t : TileIdx)
  /-- COMMIT (R360). -/
  | commit (m : MsgHdr)
  /-- RETRACT (R360). -/
  | retract (m : MsgHdr)
  /-- MIRROR_READ (R376). -/
  | mirrorRead (m : MsgHdr) (body : MsgBody)
  /-- MIRROR_DATA (R376). -/
  | mirrorData (m : MsgHdr) (addr : BitVec 48) (body : MsgBody)
  /-- JOURNAL_REQ (R386). -/
  | journalReq (m : MsgHdr) (swaps : List Tenant)
  /-- HANDOVER (R382). -/
  | handover (m : MsgHdr)
  /-- RELINQUISH (R384). -/
  | relinquish (m : MsgHdr) (swaps : List Tenant) (unmapped : List (BitVec 64))
  /-- LEASE_LINE_INVALIDATION (R377). -/
  | leaseLineInvalidation (n : Tenant) (word : LeaseWord)
  /-- LEASE_RENEW (R378). -/
  | leaseRenew (n : Tenant) (swapOk : Bool)
  /-- LEASE_EXPIRY_TAKE (R378). -/
  | leaseExpiryTake (n : Tenant) (swapOk : Bool) (unmapped : List (BitVec 64))
  /-- LEASE_RENEW_LAPSE (R378). -/
  | leaseRenewLapse (n : Tenant)
  /-- FAILBACK_HANDOVER (R382). -/
  | failbackHandover (n : Tenant) (swapOk : Bool)
  /-- MAP_PORT_LOOKUP (R392). -/
  | mapPortLookup (unit : Nat)
  /-- FLASH_PROGRAM_DONE (R394). -/
  | flashProgramDone (i : Nat) (ok : Bool)
  /-- FLASH_READ_DONE (R399). -/
  | flashReadDone (unit : Nat) (r : FlashRead)
  /-- JOURNAL_FLUSH (R395). -/
  | journalFlush
  /-- MAP_IMAGE_SEGMENT (R396). -/
  | mapImageSegment
  /-- GROUP_READBACK_DONE (R398). -/
  | groupReadbackDone (g : Nat) (bad : List PagePos)
  /-- BLOCK_REWRITE (R400). -/
  | blockRewrite (chan : Nat) (die : Nat) (block : Nat)
  /-- WEAR_LEVEL_MOVE (R401). -/
  | wearLevelMove (chan : Nat) (col : Nat)
  /-- GARBAGE_COLLECT (R404). -/
  | garbageCollect (chan : Nat) (die : Nat)
  /-- BLOCK_ERASE (R405). -/
  | blockErase (chan : Nat) (die : Nat) (block : Nat)
  /-- FTL_COLD_REBUILD (R406). -/
  | ftlColdRebuild (ms : Nat)
  /-- FTL_WARM_REBUILD (R407). -/
  | ftlWarmRebuild (bad : List Nat) (ms : Nat)
  /-- WATCHDOG_STAGE1 (R410). -/
  | watchdogStage1 (core : BitVec 2)
  /-- WATCHDOG_STAGE2 (R410). -/
  | watchdogStage2 (core : BitVec 2)
  /-- IC_SOURCE_FILTERED (R411). -/
  | icSourceFiltered (n : BitVec 8) (level : Bool)
  /-- IC_CLAIM_READ (R413). -/
  | icClaimRead (t : BitVec 2)
  /-- IC_COMPLETE (R414). -/
  | icComplete (t : BitVec 2) (n : BitVec 8)
  /-- CONTROL_LOOP_TICK (R417). -/
  | controlLoopTick (l : LoopSample)
  /-- RATE_FLOOR_UNHELD (R417). -/
  | rateFloorUnheld (d : Nat)
  /-- POWER_CAP_UNMET (R418). -/
  | powerCapUnmet (power : Nat)
  /-- THERMAL_LIMIT (R419). -/
  | thermalLimit (d : DieId) (temp : Nat)
  /-- EVENT_TOKEN_REFILL (R422). -/
  | eventTokenRefill (code : BitVec 16)
  /-- EVENT_STAGE_FLUSH (R424). -/
  | eventStageFlush
  /-- EXTENT_MAP (R65). -/
  | extentMap (x : Nat) (e : ExtentEntry)
  /-- EXTENT_UNMAP (R65). -/
  | extentUnmap (x : Nat)
  /-- EXTENT_SET (R65). -/
  | extentSet (x : Nat) (e : ExtentEntry)
  /-- INDEX_CREATE (R156). -/
  | indexCreate (n : Nat) (r : Bytes)
  /-- INDEX_DESTROY (R155). -/
  | indexDestroy (n : Nat)
  /-- TABLE_CREATE (R256). -/
  | tableCreate (n : Nat) (r : Bytes)
  /-- TABLE_DESTROY (R256). -/
  | tableDestroy (n : Nat)
  /-- TENANT_REMOVE (R315). -/
  | tenantRemove (n : Tenant)
  /-- QUIESCE (R32). -/
  | quiesce (b : BlockId)
  /-- BLOCK_RESET (R457). -/
  | blockReset (b : BlockId)
  /-- READ_COUNTERS (R35). -/
  | readCounters (mctp : Bool)
  /-- SET_UTC (R34). -/
  | setUtc (mctp : Bool) (off : BitVec 64)
  /-- READ_SLOT (R210). -/
  | readSlot (p : PartId) (slot : Nat)
  /-- READ_CAPABILITY (R123). -/
  | readCapability (e : Engine)
  /-- PAIR_TAKEOVER (R384). -/
  | pairTakeover (swaps : List Tenant) (unmapped : List (BitVec 64))
  /-- PAIR_HANDOVER (R382). -/
  | pairHandover (mask : List Tenant) (swaps : List Tenant)
  /-- SOLO_CLEAR (R381). -/
  | soloClear (n : Tenant)
  /-- SET_LIMITS (R420). -/
  | setLimits (mctp : Bool) (l : Limits)
  /-- EVENT_READ (R423). -/
  | eventRead (mctp : Bool) (first : Bool) (start : Nat) (count : Nat)
  /-- EVENT_CLEAR (R423). -/
  | eventClear (mctp : Bool)
  /-- FAULT_READ (R365). -/
  | faultRead (mctp : Bool) (start : Nat) (count : Nat)
  /-- ATTEST (R429). -/
  | attest (mctp : Bool) (nonce : BitVec 256)
  /-- CERT_READ (R428). -/
  | certRead (mctp : Bool)
  /-- FW_SCHEDULE (R434). -/
  | fwSchedule (mctp : Bool) (utc : BitVec 64)
  /-- FW_CANCEL (R434). -/
  | fwCancel (mctp : Bool)
  /-- FW_COMMIT (R431). -/
  | fwCommit (mctp : Bool)
  /-- STATUS (R426). -/
  | status (mctp : Bool) (ticket : Word)
  /-- MAILBOX_BACKGROUND_DONE (R426). -/
  | mailboxBackgroundDone (ticket : Word)
  /-- MCTP_CONTROL (R425). -/
  | mctpControl (req : Bytes)
  /-- PLDM_PLATFORM_REQUEST (R425). -/
  | pldmPlatformRequest (sensor : BitVec 16)
  /-- FW_DATA_CHUNK (R433). -/
  | fwDataChunk (k : Nat) (data : Bytes) (verdict : Option Verdict) (revoke : Option (BitVec 2 × BitVec 2))
  /-- ACTIVATE_FIRMWARE (R434). -/
  | activateFirmware
  /-- FW_PENDING (R434). -/
  | fwPending
  /-- FW_ACTIVATION (R435). -/
  | fwActivation
  /-- DRAIN_END (R435). -/
  | drainEnd
  /-- FW_PAIR_ACTIVATION (R436). -/
  | fwPairActivation
  /-- FW_ACTIVATION_HELD (R436). -/
  | fwActivationHeld
  /-- BOOT_OK (R432). -/
  | bootOk
  /-- BOOT_TIMEOUT (R432). -/
  | bootTimeout
  /-- RECOVERY_WRITE (R437). -/
  | recoveryWrite (mctp : Bool) (off : Nat) (data : Bytes)
  /-- RECOVERY_STATUS (R437). -/
  | recoveryStatus (mctp : Bool)
  /-- RECOVERY_BOOT (R437). -/
  | recoveryBoot (mctp : Bool) (svn : Nat) (keySlot : BitVec 2) (verdict : Option Verdict)
  /-- POWER_ON (R454). -/
  | powerOn (mv : Nat) (seed : BitVec 64)
  /-- DOMAIN_POWER_UP (R442). -/
  | domainPowerUp
  /-- PIN_CONFIGURE (R459). -/
  | pinConfigure
  /-- RELEASE_CHAIN_STEP (R454). -/
  | releaseChainStep (r : ReleaseInfo)
  /-- INPUT_LOW (R439). -/
  | inputLow (mv : Nat) (ms : Nat)
  /-- INPUT_HIGH (R439). -/
  | inputHigh (mv : Nat) (ms : Nat)
  /-- OVERVOLTAGE_STOP (R439). -/
  | overvoltageStop (mv : Nat)
  /-- POWER_LOSS (R408). -/
  | powerLoss (mv : Nat) (complete : Bool) (us : Nat)
  /-- HOLDUP_ARMED (R443). -/
  | holdupArmed (capUf : Nat) (ms : Nat)
  /-- INPUT_RETURN (R445). -/
  | inputReturn (seed : BitVec 64)
  /-- FIRMWARE_TRIP (R446). -/
  | firmwareTrip (cause : TripCause) (complete : Bool) (us : Nat)
  /-- HARDWARE_TRIP (R447). -/
  | hardwareTrip (d : DieId)
  /-- EMERGENCY_OFF (R448). -/
  | emergencyOff (mv : Nat) (complete : Bool) (us : Nat)
  /-- POWER_RESTART (R449). -/
  | powerRestart (mv : Nat) (emergN : Bool) (seed : BitVec 64)
  /-- HOST_PERST_N_ASSERT (R453). -/
  | hostPerstNAssert (seed : BitVec 64)
  /-- BUREAU_PERST_RELEASE (R453). -/
  | bureauPerstRelease
  /-- HOST_PERST_N_DEASSERT (R453). -/
  | hostPerstNDeassert
  /-- WARM_RESET (R451). -/
  | warmReset (cause : BitVec 3)
  /-- REGISTER_WRITE (R463). -/
  | registerWrite (fn : Tenant) (off : Nat) (size : Nat) (value : BitVec 64)
  /-- QP_ENABLE (R467). -/
  | qpEnable (fn : Tenant) (q : BitVec 3) (ctrl : Word) (line : DoorbellLine) (descs : List Descriptor)
  /-- QP_DISABLE (R468). -/
  | qpDisable (fn : Tenant) (q : BitVec 3)
  /-- QP_DISABLE_DONE (R468). -/
  | qpDisableDone (fn : Tenant) (q : BitVec 3)
  /-- WINDOW_RESIZE (R470). -/
  | windowResize (size : Word)
  /-- WINDOW_RESIZE_DONE (R470). -/
  | windowResizeDone
  /-- WINDOW_TENANT_SET (R470). -/
  | windowTenantSet (g : BitVec 8) (value : Word)
  /-- PAIR_ENABLE (R472). -/
  | pairEnable (value : Word)
  /-- PAIR_DISABLE (R472). -/
  | pairDisable (value : Word)
  /-- CNT_CLEAR (R474). -/
  | cntClear (group : Word)
  /-- COUNTER_LOW_READ (R474). -/
  | counterLowRead (fn : Tenant) (off : Nat) (size : Nat)
  /-- LIST_COMPACTION_SWITCH (R187). -/
  | listCompactionSwitch (i : Nat) (list : Nat) (base : Nat)
  /-- LIST_COMPACTION_FREE (R187). -/
  | listCompactionFree (i : Nat) (list : Nat)
  /-- FLASH_ERASE_DONE (R402). -/
  | flashEraseDone (chan : Nat) (die : Nat) (block : Nat) (ok : Bool)
  /-- SETTEE_REALIGN_DONE (R368). -/
  | setteeRealignDone
  /-- SETTEE_LANE_FAILED (R366). -/
  | setteeLaneFailed (lane : BitVec 3)
  /-- CXL_CACHE_ENABLE_WRITE (R271). -/
  | cxlCacheEnableWrite (on : Bool)
  /-- MSIX_VECTOR_UNMASK (R287). -/
  | msixVectorUnmask (fn : Tenant) (v : BitVec 4)
  /-- BOARD_SENSOR_SAMPLE (R419). -/
  | boardSensorSample (s : BoardSample)
  /-- PLDM_UPDATE_COMPONENT (R433). -/
  | pldmUpdateComponent (c : ComponentOffer)
deriving DecidableEq, Repr

end Sys2Proof
end

