-- ==== Sys2Proof/Decode.lean ====
section
/-! DEFINITION. Decoding of a command from table bits. The table gives no row any bits: no word spells a command. -/

namespace Sys2Proof

/-- The command that a word spells by the bits of spec/opcode_table.json, which gives none to any row. -/
def decodeTableWord (_nbits _w : Nat) : Option Instr := none

end Sys2Proof
end

