-- ==== Sys2Proof/Config.lean ====
section
/-! DEFINITION. What one implementation or one ordering code fixes, and the free values: constants with no body
for values that the manual leaves open (each is named in an assumption-log entry). -/

namespace Sys2Proof.Config

/-- Ordering code of Table 0.1: A (true) or B (false), read from HST_ID_PART (R3). A constant of one module. -/
opaque codeA : Bool

/-- Die columns per channel, NCOL (Table 17.1). -/
def ncol : Nat := if codeA then 16 else 8
/-- Tier-F extent locations, exclusive upper bound (Table 0.1, Table 4.2). -/
def tierFExtents : Nat := if codeA then 29360128 else 14680064
/-- LPDDR6 extents of 2 MiB, exclusive upper bound (Table 4.2). -/
def tierLExtents : Nat := 393216
/-- NAND packages of the module (Table 0.1). -/
def nandPackages : Nat := if codeA then 64 else 32
/-- User flash in TiB (Table 0.1). -/
def flashTib : Nat := if codeA then 56 else 28
/-- L extents of the flash map (Table 4.6): 14 or 7 GiB. -/
def flashMapExtents : Nat := if codeA then 7168 else 3584
/-- Partition pool in LPDDR6 extents of 2 MiB, before the CXL.mem window is taken out: what the listed reservations leave (Table 4.6; the
748.5 and 755.5 GiB of the tables are rounded: the tier table's 1,026 MiB are not a multiple of 0.5 GiB). -/
def poolExtents : Nat := if codeA then 383231 else 386815
/-- First L extent of the partition pool: the reservations of Table 4.6 lie below it (R83). -/
def poolBase : Nat := tierLExtents - poolExtents
/-- Passages of a module at most (Table 0.1, R155). -/
def passagesMax : Nat := if codeA then 16000000000 else 8000000000
/-- First tile of the turn conductor's pool of 8,192 tiles, and of the Bureau's of 1,024 behind it (R319). The manual gives the pools no place: the
model puts them at the top of the store (DESIGN CHOICE, log entry 140). -/
def conductorBase : Nat := 121856
def conductorTiles : Nat := 8192
/-- Open-block parity cap in bytes (Table 0.1, R397). -/
def parityCap : Nat := if codeA then 1073741824 else 536870912

/-- Module serial, 16 ASCII bytes fused on BU (R427): a fuse value. -/
opaque serial : BitVec 128
/-- Fused identity record fields of die d: lot, wafer, x, y (R427, Table 18.7). -/
opaque dieLot : DieId → BitVec 48
opaque dieWafer : DieId → BitVec 8
opaque dieX : DieId → BitVec 8
opaque dieY : DieId → BitVec 8
/-- Fused SPARE_USED and GROUP_LOST of an engine (R121, R123). -/
opaque fusedSpare : Engine → BitVec 16
opaque fusedGroupLost : Engine → BitVec 16
/-- Spare blocks of a channel at manufacture (R402). -/
opaque spareBlocks : Nat → Nat

/-- FREE VALUE. Receive buffers of a class at a hop beyond the first one (R19 gives no depth). -/
opaque moreBuffers : Nat → Nat
/-- Receive buffers of a traffic class at each hop (R19): at least one. -/
def linkBuffers (cls : Nat) : Nat := 1 + moreBuffers cls

/-- FREE VALUE. The bank of the operand cache that holds a word, by byte offset div 4: R129 gives a frame 4 KiB of each of 4 banks, and not which. -/
opaque cacheBank : Nat → Nat

/-- FREE VALUE. The n-th fresh value of a stream of values the manual leaves open; the state counts n. -/
opaque freeValue : Nat → BitVec 64
/-- FREE VALUE. A byte the manual calls undefined, by the counter and its position. -/
opaque freeByte : Nat → Nat → BitVec 8
/-- FREE VALUE. Code of an event that the text calls an event but no event table lists. -/
opaque unnamedCode : Nat → BitVec 16
/-- FREE VALUE. Severity (Table 18.5) of such an event. -/
opaque unnamedSeverity : Nat → BitVec 2
/-- FREE VALUE. Result of a composed vector function (sigmoid 0, tanh 1, SiLU 2, GELU 3, softplus 4): R133 fixes one
result for each operand but the manual does not give the sequence. -/
opaque composedFunction : Nat → BitVec 32 → BitVec 32
/-- FREE VALUE. The words that a vector compare gives for false and true (Table 6.2 names the operation, not its encoding). -/
opaque compareWord : Bool → BitVec 32
/-- FREE VALUE. A pair's score (R194): a fixed function of the loaded program, which its digest names, the pair's tokens and its length L. -/
opaque pairScore : BitVec 512 → List Nat → Nat → BitVec 32
/-- FREE VALUE. Falcon-1024 signature bytes of an attestation report (R429), by the report bytes. -/
opaque falconSignature : Bytes → Bytes
/-- FREE VALUE. The device identity certificate (R428). -/
opaque deviceCertificate : Bytes
/-- FREE VALUE. Measurement digests of the running images (R429, Table 18.8), by item. -/
opaque measurement : Nat → BitVec 512
/-- FREE VALUE. Floor-rate step-time table of a program (R321 names it, its format is not given): FIXED and RATE µs of a step,
by image address, mapping, rows in service (slots or pairs), prefill tokens and proposal depth. -/
opaque stepFixedUs : BitVec 48 → Nat → Nat → Nat → Nat → Nat
opaque stepRateUs : BitVec 48 → Nat → Nat → Nat → Nat → Nat

end Sys2Proof.Config
end

