-- ==== Sys2Proof/Machine/State.lean ====
section
/-! DEFINITION. The state of the module, its faults and refusals, and the state at reset. -/

namespace Sys2Proof.Machine

/-- State of the module: everything the manual gives it, and the queue of waiting commands. -/
structure State where
  /-- chapter 02; fabric -/
  fabric : FabricState := {}
  /-- chapter 03; central store -/
  store : StoreState := {}
  /-- chapter 04; memory tiers -/
  tier : TierState := {}
  /-- chapters 05 and 06; engines -/
  engines : EnginesState := {}
  /-- chapters 12, 13 and 20; host boundary -/
  host : HostState := {}
  /-- chapters 07, 09, 11, 14 and 15; objects, partitions and steps -/
  gen : GenState := {}
  /-- chapter 10; text die -/
  text : TextState := {}
  /-- chapter 16; pair operation -/
  pair : PairState := {}
  /-- chapter 17; flash -/
  flash : FlashState := {}
  /-- chapter 18; the Bureau -/
  bureau : BureauState := {}
  /-- chapter 19; power and reset -/
  power : PowerState := {}
  /-- limits of R420 and R401; chapters 17 and 18 -/
  limits : LimitState := {}
  /-- fuses; R431 -/
  fuses : FuseState := {}
  /-- 64-bit counters by shelf engine; CNT_SHELF tenant skips (R172, Table 20.16); reset 0 -/
  shelfSkips : Map Nat := []
  /-- 64-bit counters by shelf engine; CNT_SHELF cuts (R175, Table 20.16); reset 0 -/
  shelfCuts : Map Nat := []
  /-- the model's own counter of free values drawn (no state of the module); reset 0 (DESIGN CHOICE) -/
  free : Nat := 0
  /-- the model's queue of commands that wait, first in first out; reset empty -/
  pending : List Instr := []
deriving DecidableEq, Repr

/-- Faults: a command stops with one of these. -/
inductive Fault where
  /-- A broken obligation for which the manual names no consequence: behaviour is undefined (R10). Raised by the command named; safe:
  the model stops where the hardware may go on. -/
  | undefinedOperation (rule : Nat)
deriving DecidableEq, Repr

/-- Refusals: a command is turned away. -/
inductive Refusal where
  /-- The command has no meaning yet. Raised by Dispatch alone; safe. -/
  | notModelled (mnemonic : String)
deriving DecidableEq, Repr

/-- The module right after reset, as the manual says: every register at its reset value, J1 without power (R450). -/
def State.reset : State := {}

end Sys2Proof.Machine
end

