-- ==== Sys2Proof/Machine/Bits.lean ====
section
/-! DEFINITION. Byte order, sparse maps, CRC-32C (R42), CRC-16 (R78), the SECDED code (R56, R57), the tile header's bytes (R40). -/

namespace Sys2Proof.Machine

/-! ## Sparse maps -/

/-- The entry of key k. -/
def mfind {β : Type} : Map β → Nat → Option β
  | [], _ => none
  | (j, v) :: m, k => if j = k then some v else mfind m k

/-- The entry of key k, d where there is none. -/
def mget {β : Type} (d : β) (m : Map β) (k : Nat) : β := (mfind m k).getD d

/-- The map without key k. -/
def mdel {β : Type} : Map β → Nat → Map β
  | [], _ => []
  | (j, v) :: m, k => if j = k then mdel m k else (j, v) :: mdel m k

/-- Key k set to v in a sorted map. -/
def mins {β : Type} : Map β → Nat → β → Map β
  | [], k, v => [(k, v)]
  | (j, w) :: m, k, v =>
    if k < j then (k, v) :: (j, w) :: m else if k = j then (k, v) :: m else (j, w) :: mins m k v

/-- Key k set to v, where d is what an unlisted key reads as: no entry equals d. -/
def mput {β : Type} [DecidableEq β] (d : β) (m : Map β) (k : Nat) (v : β) : Map β :=
  if v = d then mdel m k else mins m k v

/-- Key k changed by f, where d is what an unlisted key reads as. -/
def mmod {β : Type} [DecidableEq β] (d : β) (m : Map β) (k : Nat) (f : β → β) : Map β :=
  mput d m k (f (mget d m k))

/-- Counter k raised by n. -/
def mcount (m : Map Nat) (k n : Nat) : Map Nat := mmod 0 m k (· + n)

/-- Every value changed by f (keys kept). -/
def mmap {β : Type} (f : Nat → β → β) (m : Map β) : Map β := m.map fun e => (e.1, f e.1 e.2)

/-- Keys strictly rising and no value equal to d: the canonical form. -/
def canonical {β : Type} [DecidableEq β] (d : β) : Map β → Bool
  | [] => true
  | [(_, v)] => decide (v ≠ d)
  | (j, v) :: (k, w) :: m => decide (j < k) && decide (v ≠ d) && canonical d ((k, w) :: m)

/-- The elements of a list without those equal to x. -/
def without {α : Type} [DecidableEq α] (x : α) (l : List α) : List α := l.filter fun y => decide (y ≠ x)

/-- The list with x at its end, once. -/
def withLast {α : Type} [DecidableEq α] (x : α) (l : List α) : List α := if x ∈ l then l else l ++ [x]

/-! ## Bytes -/

/-- The number whose little-endian bytes are given (R7). -/
def leNat : Bytes → Nat
  | [] => 0
  | b :: bs => b.toNat + 256 * leNat bs

/-- n little-endian bytes of v (R7). -/
def toLE : Nat → Nat → Bytes
  | 0, _ => []
  | n + 1, v => BitVec.ofNat 8 v :: toLE n (v / 256)

/-- The list as exactly n bytes, zero-filled. -/
def pad : Nat → Bytes → Bytes
  | 0, _ => []
  | n + 1, [] => 0 :: pad n []
  | n + 1, b :: bs => b :: pad n bs

/-- n bytes from offset off; bytes past the end read as zero. -/
def slice (bs : Bytes) (off n : Nat) : Bytes := pad n (bs.drop off)

/-- The little-endian number in n bytes at off. -/
def rd (bs : Bytes) (off n : Nat) : Nat := leNat ((bs.drop off).take n)

/-- Bytes at off replaced by data. -/
def splice (bs : Bytes) (off : Nat) (data : Bytes) : Bytes :=
  pad off bs ++ data ++ bs.drop (off + data.length)

/-- Bits [hi:lo] of a number. -/
def bits (v hi lo : Nat) : Nat := (v / 2 ^ lo) % 2 ^ (hi - lo + 1)

/-- Bit i of a number. -/
def bit (v i : Nat) : Bool := v.testBit i

/-- A two's-complement number of n bits as an integer. -/
def signed (n v : Nat) : Int := if v < 2 ^ (n - 1) then v else (v : Int) - 2 ^ n

/-- A word of a number. -/
def w32 (n : Nat) : Word := BitVec.ofNat 32 n

/-- A word of an integer (two's complement). -/
def w32i (n : Int) : Word := BitVec.ofInt 32 n

/-- The lesser of n and 2^32 − 1, as a word. -/
def w32sat (n : Nat) : Word := BitVec.ofNat 32 (min n 0xFFFFFFFF)

/-! ## CRC -/

/-- One bit of the reflected CRC-32C (R42). -/
def crcBit (c : Nat) : Nat := if c % 2 = 1 then (c / 2) ^^^ 0x82F63B78 else c / 2

/-- One byte of the reflected CRC-32C (R42). -/
def crcByte (c : Nat) (b : Byte) : Nat :=
  let c := c ^^^ b.toNat
  crcBit (crcBit (crcBit (crcBit (crcBit (crcBit (crcBit (crcBit c)))))))

/-- CRC-32C of bytes (R42). -/
def crc32c (bs : Bytes) : BitVec 32 := BitVec.ofNat 32 ((bs.foldl crcByte 0xFFFFFFFF) ^^^ 0xFFFFFFFF)

/-- One bit of CRC-16/CCITT, polynomial 0x1021 (R78). -/
def crc16Bit (c : Nat) : Nat := if c / 32768 % 2 = 1 then ((c * 2) % 65536) ^^^ 0x1021 else (c * 2) % 65536

/-- CRC-16/CCITT with initial value 0xFFFF (R78). -/
def crc16 (bs : Bytes) : BitVec 16 :=
  BitVec.ofNat 16 (bs.foldl (fun c b => let c := c ^^^ (b.toNat * 256)
    crc16Bit (crc16Bit (crc16Bit (crc16Bit (crc16Bit (crc16Bit (crc16Bit (crc16Bit c)))))))) 0xFFFF)

/-! ## SECDED (R56, R57) -/

/-- Columns of the data bits (Table 3.8). -/
def secdedColumns : List (BitVec 7) :=
  [0x0B, 0x0D, 0x0E, 0x13, 0x15, 0x16, 0x19, 0x1A, 0x1C, 0x23, 0x25, 0x26, 0x29, 0x2A, 0x2C, 0x31,
   0x32, 0x34, 0x45, 0x46, 0x49, 0x4A, 0x4C, 0x51, 0x52, 0x54, 0x58, 0x61, 0x62, 0x64, 0x68, 0x70]

/-- Check bits of a word: the exclusive or of the columns of its set bits (R56). -/
def checkBits (d : Word) : BitVec 7 :=
  ((List.range 32).zip secdedColumns).foldl (fun c x => if d.getLsbD x.1 then c ^^^ x.2 else c) 0

/-- What decoding a codeword finds (Table 3.9). -/
inductive Ecc where
  | clean | corrected | uncorrectable
deriving DecidableEq, Repr

/-- Decode of data bits d and check bits c: the outcome and the word after correction (R57). -/
def secdedDecode (d : Word) (c : BitVec 7) : Ecc × Word :=
  let s := c ^^^ checkBits d
  if s = 0 then (.clean, d)
  else if s ∈ [0x01, 0x02, 0x04, 0x08, 0x10, 0x20, 0x40] then (.corrected, d)
  else match secdedColumns.findIdx? (· = s) with
    | some j => (.corrected, d ^^^ BitVec.ofNat 32 (2 ^ j))
    | none => (.uncorrectable, d)

/-- What a read finds in a stored word d whose 39 code bits were disturbed by a mask (R56 to R58). -/
def secdedRead (d : Word) (mask : BitVec 39) : Ecc × Word :=
  secdedDecode (d ^^^ mask.setWidth 32) (checkBits d ^^^ (mask >>> 32).setWidth 7)

/-- A flag as a bit. -/
def b2n (b : Bool) : Nat := if b then 1 else 0

/-! ## The tile header (R40) -/

/-- STATE codes (Table 3.5). -/
def TileState.code : TileState → Nat
  | .free => 0 | .filling => 1 | .ready => 2 | .held => 3

/-- The state of a STATE code; the reserved codes 4 to 7, which only an error of 3 or more bits can leave, read as HELD. -/
def TileState.ofCode : Nat → TileState
  | 0 => .free | 1 => .filling | 2 => .ready | _ => .held

/-- The header as the number of Table 3.3 (REPLY zero). -/
def TileHeader.toNat (h : TileHeader) : Nat :=
  h.crc.toNat + h.epoch.toNat * 2 ^ 32 + h.prod.toNat * 2 ^ 64 + h.rows.toNat * 2 ^ 96 + h.cols.toNat * 2 ^ 112
  + h.anchor.toNat * 2 ^ 128 + h.format.toNat * 2 ^ 144 + h.state.code * 2 ^ 152 + b2n h.persist * 2 ^ 155
  + b2n h.out * 2 ^ 156 + h.cls.toNat * 2 ^ 157 + b2n h.world * 2 ^ 159 + h.tenant.toNat * 2 ^ 160
  + b2n h.poison * 2 ^ 169 + h.owner.toNat * 2 ^ 170 + h.srcTile.toNat * 2 ^ 176 + b2n h.shared * 2 ^ 214
  + b2n h.srcValid * 2 ^ 215 + h.scaleIndex.toNat * 2 ^ 216 + h.scaleSlot.toNat * 2 ^ 233 + b2n h.hasScale * 2 ^ 239

/-- The header of the number of Table 3.3; reserved bits are dropped (R8). -/
def TileHeader.ofNat (v : Nat) : TileHeader :=
  { crc := BitVec.ofNat 32 v
    epoch := BitVec.ofNat 32 (v / 2 ^ 32)
    prod := BitVec.ofNat 32 (v / 2 ^ 64)
    rows := BitVec.ofNat 16 (v / 2 ^ 96)
    cols := BitVec.ofNat 16 (v / 2 ^ 112)
    anchor := BitVec.ofNat 16 (v / 2 ^ 128)
    format := BitVec.ofNat 8 (v / 2 ^ 144)
    state := TileState.ofCode (bits v 154 152)
    persist := bit v 155
    out := bit v 156
    cls := BitVec.ofNat 2 (v / 2 ^ 157)
    world := bit v 159
    tenant := BitVec.ofNat 9 (v / 2 ^ 160)
    poison := bit v 169
    owner := BitVec.ofNat 6 (v / 2 ^ 170)
    srcTile := BitVec.ofNat 34 (v / 2 ^ 176)
    shared := bit v 214
    srcValid := bit v 215
    scaleIndex := BitVec.ofNat 17 (v / 2 ^ 216)
    scaleSlot := BitVec.ofNat 4 (v / 2 ^ 233)
    hasScale := bit v 239 }

/-- Bytes of a tile that its CRC covers (R42): payload, header bytes 12 to 18, TENANT. -/
def crcCover (h : TileHeader) (payload : Bytes) : Bytes :=
  pad 16384 payload ++ toLE 2 h.rows.toNat ++ toLE 2 h.cols.toNat ++ toLE 2 h.anchor.toNat ++ toLE 1 h.format.toNat
    ++ toLE 2 h.tenant.toNat

/-- The tile CRC (R42). -/
def tileCrc (h : TileHeader) (payload : Bytes) : BitVec 32 := crc32c (crcCover h payload)

/-- The tile with the CRC that its producer computes (R42, R43). -/
def Tile.sealed (t : Tile) : Tile := { t with hdr := { t.hdr with crc := tileCrc t.hdr t.payload } }

/-- A consumer's check of the CRC (R43). -/
def Tile.crcOk (t : Tile) : Bool := t.hdr.crc = tileCrc t.hdr t.payload

/-- A tile that its consumer may use: its CRC holds (R43). A tile that nothing has written has no CRC yet. -/
def Tile.good (t : Tile) : Bool := t = {} || t.crcOk

/-- A tile of raw bytes of a request's tenant, 16,384 in one row. -/
def rawTile (tn : Tenant) (b : Bytes) : Tile :=
  Tile.sealed { hdr := { format := 0x10, rows := 1, cols := 16384, tenant := tn, cls := 2 }, payload := pad 16384 b }

/-- Bytes as tiles of a tenant, 16,384 in each, with their CRCs. -/
def rawTiles (tn : Tenant) (b : Bytes) : List Tile := (List.range ((b.length + 16383) / 16384)).map fun k => rawTile tn (slice b (16384 * k) 16384)

/-! ## Tile formats (R38, Table 3.2) -/

/-- Bits of an element of a format that has elements; none for a reserved FORMAT. -/
def formatBits (f : BitVec 8) : Option Nat :=
  match f.toNat with
  | 0x00 => some 8 | 0x01 => some 32 | 0x02 => some 16 | 0x03 => some 16 | 0x04 => some 8 | 0x05 => some 8
  | 0x06 => some 8 | 0x07 => some 4 | 0x08 => some 8 | 0x09 => some 8 | 0x0A => some 8 | 0x0B => some 6
  | 0x0C => some 6 | 0x0D => some 4 | 0x0E => some 32 | 0x0F => some 8 | 0x10 => some 8 | 0x11 => some 0
  | _ => none

/-- Payload bytes a format allows (Table 3.2). -/
def formatBytes (f : BitVec 8) : Nat := if f = 0x0B || f = 0x0C then 16128 else 16384

/-- FORMAT in Table 3.2 and shape within the format's limit (R38, R48). -/
def shapeOk (f : BitVec 8) (rows cols : Nat) : Bool :=
  match formatBits f with
  | none => false
  | some b => rows * cols * b ≤ 8 * formatBytes f

end Sys2Proof.Machine
end

