-- ==== Sys2Proof/Machine/Flags.lean ====
section
/-! DEFINITION. Status codes, stop reasons, completion flags and the bytes of completion records (R305 to R311). -/

namespace Sys2Proof.Machine

/-- STATUS codes (Table 13.8). -/
def Status.code : Status → Nat
  | .ok => 0x00 | .okDegraded => 0x01 | .deadline => 0x02 | .grammarDeadEnd => 0x03 | .cancelled => 0x04
  | .redirectPartner => 0x05 | .badDescriptor => 0x10 | .noResources => 0x11 | .accessTenant => 0x12
  | .accessWorld => 0x13 | .mediaError => 0x14 | .programMismatch => 0x15

/-- The status of a STATUS code; reserved codes read as PROGRAM_MISMATCH (only a partner could send one). -/
def Status.ofCode : Nat → Status
  | 0x00 => .ok | 0x01 => .okDegraded | 0x02 => .deadline | 0x03 => .grammarDeadEnd | 0x04 => .cancelled
  | 0x05 => .redirectPartner | 0x10 => .badDescriptor | 0x11 => .noResources | 0x12 => .accessTenant
  | 0x13 => .accessWorld | 0x14 => .mediaError | _ => .programMismatch

/-- STOP_REASON codes (Table 9.5). -/
def StopReason.code : StopReason → Nat
  | .none => 0 | .stopToken => 1 | .grammarAccept => 2 | .stopString => 3 | .maxTokens => 4 | .deadline => 5
  | .cancelled => 6 | .grammarDeadEnd => 7 | .error => 8

/-! Completion flags (Table 13.9). -/

def flagFewerLists : BitVec 16 := 0x0001
def flagPartialProbe : BitVec 16 := 0x0002
def flagFewerCandidates : BitVec 16 := 0x0004
def flagNoRerank : BitVec 16 := 0x0008
def flagFewerPassages : BitVec 16 := 0x0010
def flagNoSpeculation : BitVec 16 := 0x0020
def flagApprox : BitVec 16 := 0x0100
def flagDupMismatch : BitVec 16 := 0x0200
def flagAnchorRaised : BitVec 16 := 0x0400

/-- The degradation flags: bits 0 to 5 (R191, R223, Table 13.9). -/
def degraded (f : BitVec 16) : Bool := decide (f &&& 0x003F ≠ 0)

/-- OK, or OK_DEGRADED when a degradation flag is set (R191, R306). -/
def okStatus (f : BitVec 16) : Status := if degraded f then .okDegraded else .ok

/-- Bytes 12 to 27 of a completion record (Tables 13.10 to 13.13, R311). -/
def CompBody.bytes : CompBody → Bytes
  | .final oc ob it stop seq aux =>
    toLE 4 oc ++ toLE 4 ob ++ toLE 2 (min it 65535) ++ [BitVec.ofNat 8 (stop.code + 16 * seq.toNat), 0] ++ toLE 4 aux.toNat
  | .tokens bo bc io ic seq => toLE 4 bo ++ toLE 4 bc ++ toLE 4 io ++ toLE 2 ic ++ [BitVec.ofNat 8 seq.toNat, 0]
  | .passages packed pt se lc cd => toLE 4 (32 + 32 * packed) ++ toLE 2 packed ++ toLE 2 pt ++ toLE 4 se ++ toLE 2 lc ++ toLE 2 cd
  | .event code src sev p0 p1 p2 =>
    toLE 2 code.toNat ++ [BitVec.ofNat 8 src.toNat, BitVec.ofNat 8 sev.toNat] ++ toLE 4 p0.toNat ++ toLE 4 p1.toNat ++ toLE 4 p2.toNat

/-- KIND of a completion (Table 13.7). -/
def CompBody.kind : CompBody → Nat
  | .final .. => 0 | .tokens .. => 1 | .passages .. => 2 | .event .. => 3

/-- A completion record (Table 13.7). -/
def Completion.record (c : Completion) (sqHead : BitVec 32) (phase : Bool) : Bytes :=
  toLE 8 c.tag.toNat ++ toLE 4 sqHead.toNat ++ c.body.bytes ++ toLE 2 c.flags.toNat
    ++ [BitVec.ofNat 8 c.status.code, BitVec.ofNat 8 (b2n phase + 2 * c.body.kind)]

end Sys2Proof.Machine
end

