-- ==== Sys2Proof/Machine/Events.lean ====
section
/-! DEFINITION. The events of the event tables, each with its code and severity (R421, Table 18.5), as records to be logged. -/

namespace Sys2Proof.Machine

/-- An event to be logged: code, severity (0 information, 1 warning, 2 error, 3 fatal), detecting die, the tenant it concerns (R311),
the descriptor's tag, and parameters. -/
structure Ev where
  code : BitVec 16
  sev : BitVec 2
  src : DieId := 0x3F
  tenant : Option Tenant := none
  world : Bool := false
  /-- posted to PF0 as well (R333, R339) -/
  also0 : Bool := false
  tag : BitVec 64 := 0
  p : List Word := []
deriving DecidableEq, Repr

/-- A parameter given as a die and a block (R421): block kind, die, block number. -/
def dieBlock (kind : Nat) (d : DieId) (block : Nat) : Word := w32 (kind * 2 ^ 24 + d.toNat * 2 ^ 16 + block)

/-- A parameter given as a block kind and number (R421). -/
def kindNumber (kind number : Nat) : Word := w32 (kind * 2 ^ 24 + number)

/-- An event that the text calls an event and no event table lists: code and severity are free values. -/
def Ev.unnamed (n : Nat) (src : DieId) (p : List Word) : Ev :=
  { code := Config.unnamedCode n, sev := Config.unnamedSeverity n, src := src, p := p }

/-! Table 5.5 -/
def Ev.anchorRaised (src : DieId) (part : PartId) (e : Epoch) (eng tile : Nat) (anchor : Int) : Ev :=
  { code := 0x0501, sev := 0, src := src, p := [w32 part.toNat, e, w32 eng, w32 tile, w32i anchor] }
def Ev.spareApplied (eng group unit : Nat) : Ev := { code := 0x0502, sev := 0, p := [w32 eng, w32 group, w32 unit] }

/-! Table 7.11 -/
def Ev.tenantSkip (t : Tenant) (idx n : Nat) (first : Tenant) : Ev :=
  { code := 0x0701, sev := 1, src := 0x3C, tenant := some t, p := [w32 t.toNat, w32 idx, w32 n, w32 first.toNat] }
def Ev.passageMismatch (t : Tenant) (idx : Nat) (pid : BitVec 40) (cause : Nat) : Ev :=
  { code := 0x0702, sev := 2, src := 0x3C, tenant := some t,
    p := [w32 t.toNat, w32 idx, w32 pid.toNat, w32 (pid.toNat / 2 ^ 32), w32 cause] }
def Ev.indexEpochLimit (idx : Nat) (e : Epoch) (t : Tenant) : Ev :=
  { code := 0x0703, sev := 1, src := 0x3C, tenant := some t, p := [w32 idx, e, w32 t.toNat] }

/-! Table 10.9 -/
def Ev.tokenizerRefused (set cause off : Nat) : Ev := { code := 0x0A01, sev := 2, src := 0x3E, p := [w32 set, w32 cause, w32 off] }
def Ev.textReplaced (t : Tenant) (tag : BitVec 64) (n : Nat) (output : Bool) : Ev :=
  { code := 0x0A02, sev := 0, src := 0x3E, tenant := some t, tag := tag, p := [w32 t.toNat, w32 tag.toNat, w32 n, w32 (b2n output)] }

/-! Table 12.4 -/
def Ev.qpError (fn : Tenant) (q err : Nat) (tail head : Word) : Ev :=
  { code := 0x0C01, sev := 2, src := 0x3C, tenant := some fn, p := [w32 fn.toNat, w32 q, w32 err, tail, head] }
def Ev.linkDegraded (width gts : Nat) : Ev := { code := 0x0C02, sev := 1, src := 0x3C, p := [w32 width, w32 gts] }
def Ev.windowRefused (gib : Nat) (t : Tenant) (write : Bool) (off : Nat) : Ev :=
  { code := 0x0C03, sev := 1, src := 0x3C, p := [w32 gib, w32 t.toNat, w32 (b2n write), w32 off] }
def Ev.windowPoison (off sub : Nat) : Ev :=
  { code := 0x0C04, sev := 2, src := 0x3C, p := [w32 off, w32 (off / 2 ^ 32), w32 sub] }

/-! Table 14.12 -/
/-- Block kind and number of block n of a die (R421, Table 15.7). -/
def listedBlock (d : DieId) (n : Nat) : Nat × Nat :=
  let k := d.toNat
  if k < 0x18 then (1, 2 * k + n) else if k < 0x20 then (4, 64 * (k - 0x18) + n) else if k < 0x30 then (2, 16 * (k - 0x20) + n)
  else if k < 0x34 then (3, 8 * (k - 0x30) + n) else if k = 0x3C then (8, 0) else if k = 0x3E then (7, 0) else (0, n)
def Ev.accessWorld (src : DieId) (block kind obj part : Nat) (e : Epoch) : Ev :=
  { code := 0x0E01, sev := 2, src := src
    p := [dieBlock (listedBlock src block).1 src (listedBlock src block).2, w32 kind, w32 obj, w32 part, e] }
def Ev.accessTenant (src : DieId) (t ot : Tenant) (kind obj : Nat) (e : Epoch) : Ev :=
  { code := 0x0E02, sev := 1, src := src, tenant := some t, also0 := true, p := [w32 t.toNat, w32 ot.toNat, w32 kind, w32 obj, e] }
def Ev.translationFault (x : Nat) (src : DieId) (part : Nat) (e : Epoch) : Ev :=
  { code := 0x0E03, sev := 1, src := src, p := [w32 x, w32 src.toNat, w32 part, e] }
def Ev.slowdown (t : Tenant) (ratio windows part : Nat) : Ev :=
  { code := 0x0E04, sev := 1, tenant := some t, also0 := true, p := [w32 t.toNat, w32 ratio, w32 windows, w32 part] }
def Ev.worldDrop (sd : DieId) (sb : Nat) (dd : DieId) (db type drops : Nat) : Ev :=
  { code := 0x0E05, sev := 2, src := sd, p := [dieBlock 0 sd sb, dieBlock 0 dd db, w32 type, w32sat drops] }
def Ev.partitionFailed (part : PartId) (eng : Nat) (mapping : Nat) (e : Epoch) : Ev :=
  { code := 0x0E06, sev := 2, p := [w32 part.toNat, w32 eng, w32 mapping, e] }

/-! Table 15.9 -/
def Ev.stepReplay (part : PartId) (e : Epoch) (attempt mech : Nat) (suspect : Word) : Ev :=
  { code := 0x0F01, sev := 0, p := [w32 part.toNat, e, w32 attempt, w32 mech, suspect] }
def Ev.engineRetired (eng loc mech part rec : Nat) : Ev :=
  { code := 0x0F02, sev := 1, p := [w32 eng, w32 loc, w32 mech, w32 part, w32 rec] }
def Ev.blockRepeat (kind number mech count part rec : Nat) : Ev :=
  { code := 0x0F03, sev := 2, p := [kindNumber kind number, w32 mech, w32 count, w32 part, w32 rec] }
def Ev.stepFailed (part : PartId) (e : Epoch) (ended mech rec : Nat) : Ev :=
  { code := 0x0F04, sev := 2, p := [w32 part.toNat, e, w32 ended, w32 mech, w32 rec] }
def Ev.fieldTestDone (eng : Nat) (fail : Bool) (us paused rec : Nat) : Ev :=
  { code := 0x0F05, sev := if fail then 2 else 0, p := [w32 eng, w32 (b2n fail), w32 us, w32 paused, w32 rec] }

/-! Table 16.8 -/
def Ev.pairSplit (cause sent acked : Nat) : Ev := { code := 0x1001, sev := 1, src := 0x3D, p := [w32 cause, w32 sent, w32 acked] }
def Ev.pairJoined (serial : Word) (first count us : Nat) : Ev :=
  { code := 0x1002, sev := 0, src := 0x3D, p := [serial, w32 first, w32 count, w32 us] }
def Ev.leaseAcquired (t : Tenant) (cause : Nat) (count : Word) (solo : Bool) : Ev :=
  { code := 0x1003, sev := 0, src := 0x3D, tenant := some t, p := [w32 t.toNat, w32 cause, count, w32 (b2n solo)] }
def Ev.leaseLost (t : Tenant) (cause : Nat) (count : Word) : Ev :=
  { code := 0x1004, sev := 1, src := 0x3D, tenant := some t, p := [w32 t.toNat, w32 cause, count] }
def Ev.failoverRerun (t : Tenant) (tag : BitVec 64) (q : Nat) : Ev :=
  { code := 0x1005, sev := 1, src := 0x3D, tenant := some t, tag := tag,
    p := [w32 t.toNat, w32 tag.toNat, w32 (tag.toNat / 2 ^ 32), w32 q] }
def Ev.soloCleared (t : Tenant) (count : Word) : Ev := { code := 0x1006, sev := 1, src := 0x3D, tenant := some t, p := [w32 t.toNat, count] }
def Ev.resyncFull (t : Tenant) (cause mib : Nat) : Ev :=
  { code := 0x1007, sev := 1, src := 0x3D, tenant := some t, p := [w32 t.toNat, w32 cause, w32 mib] }
def Ev.pairIdentMismatch (pos pid own : Nat) : Ev := { code := 0x1008, sev := 2, src := 0x3D, p := [w32 pos, w32 pid, w32 own] }

/-! Table 17.8 -/
def Ev.flashSpareLow (chan level permille good : Nat) : Ev :=
  { code := 0x1101, sev := if level = 5 then 2 else 1, p := [w32 chan, w32 level, w32 permille, w32 good] }
def Ev.flashWearHigh (avg hi rated : Nat) : Ev := { code := 0x1102, sev := 1, p := [w32 avg, w32 hi, w32 rated] }
def Ev.flashUncRate (n thr : Nat) (chanDie unit : Word) : Ev := { code := 0x1103, sev := 2, p := [w32 n, w32 thr, chanDie, unit] }
def Ev.flashBlockRetired (chan die block cause moved : Nat) : Ev :=
  { code := 0x1104, sev := 0, p := [w32 chan, w32 die, w32 block, w32 cause, w32 moved] }
def Ev.flashReadonly (chan good : Nat) : Ev := { code := 0x1105, sev := 3, p := [w32 chan, w32 good] }
def Ev.flashChannelFailed (chan cause die : Nat) : Ev := { code := 0x1106, sev := 3, p := [w32 chan, w32 cause, w32 die] }
def Ev.flashRebuild (cold : Bool) (ms scanned repaired lost : Nat) : Ev :=
  { code := 0x1107, sev := if lost = 0 then 0 else 2, p := [w32 (b2n cold), w32 ms, w32 scanned, w32 repaired, w32 lost] }
def Ev.powerLossFlush (us mib recs : Nat) (mark : Bool) : Ev :=
  { code := 0x1108, sev := if mark then 1 else 2, p := [w32 us, w32 mib, w32 recs, w32 (b2n mark)] }

/-! Table 18.10 -/
def Ev.rateFloor (d rate mv temp : Nat) : Ev := { code := 0x1201, sev := 1, p := [w32 d, w32 rate, w32 mv, w32 temp] }
def Ev.rateFloorUnheld (d rate mv temp : Nat) : Ev := { code := 0x1202, sev := 3, p := [w32 d, w32 rate, w32 mv, w32 temp] }
def Ev.thermalLimit (die : DieId) (temp d rate : Nat) : Ev :=
  { code := 0x1203, sev := 2, src := die, p := [w32 die.toNat, w32 temp, w32 d, w32 rate] }
def Ev.coolantHigh (inlet outlet : Nat) : Ev := { code := 0x1204, sev := 1, p := [w32 inlet, w32 outlet] }
def Ev.powerCapUnmet (w cap cut : Nat) : Ev := { code := 0x1205, sev := 1, p := [w32 w, w32 cap, w32 cut] }
def Ev.watchdog (core stage kick : Nat) : Ev := { code := 0x1206, sev := 2, p := [w32 core, w32 stage, w32 kick] }
def Ev.identityMismatch (die : DieId) (kind want : Nat) : Ev := { code := 0x1207, sev := 3, p := [w32 die.toNat, w32 kind, w32 want] }
def Ev.eventAreaCleared (n : Nat) : Ev := { code := 0x1208, sev := 0, p := [w32 n] }
def Ev.fwStaged (bank svn bytes slot : Nat) : Ev := { code := 0x1209, sev := 0, p := [w32 bank, w32 svn, w32 bytes, w32 slot] }
def Ev.fwVerifyFailed (bank : Nat) (comp cause : Word) : Ev := { code := 0x120A, sev := 2, p := [w32 bank, comp, cause] }
def Ev.fwPending (utc bank : Nat) : Ev := { code := 0x120B, sev := 0, p := [w32 utc, w32 (utc / 2 ^ 32 % 65536), w32 bank] }
def Ev.fwActivated (bank svn us cancelled : Nat) : Ev := { code := 0x120C, sev := 0, p := [w32 bank, w32 svn, w32 us, w32 cancelled] }
def Ev.fwActivationHeld (cause bank : Nat) : Ev := { code := 0x120D, sev := 1, p := [w32 cause, w32 bank] }
def Ev.fwDrainCancelled (n : Nat) : Ev := { code := 0x120E, sev := 1, p := [w32 n] }
def Ev.fwRolledBack (bank fails : Nat) : Ev := { code := 0x120F, sev := 2, p := [w32 bank, w32 fails] }
def Ev.bootBankFallback (bank : Nat) (cause : Word) : Ev := { code := 0x1210, sev := 2, p := [w32 bank, cause] }
def Ev.recoveryEntered (cause a b : Nat) : Ev := { code := 0x1211, sev := 3, p := [w32 cause, w32 a, w32 b] }
def Ev.rollbackRaised (old new : Nat) : Ev := { code := 0x1212, sev := 0, p := [w32 old, w32 new] }
def Ev.keySlotRevoked (slot signer : Nat) : Ev := { code := 0x1213, sev := 1, p := [w32 slot, w32 signer] }

/-! Table 19.14 -/
def Ev.inputLow (mv ms : Nat) : Ev := { code := 0x1301, sev := 1, p := [w32 mv, w32 ms] }
def Ev.inputHigh (mv ms : Nat) : Ev := { code := 0x1302, sev := 1, p := [w32 mv, w32 ms] }
def Ev.holdupDegraded (uf ms : Nat) : Ev := { code := 0x1303, sev := 2, p := [w32 uf, w32 ms] }
def Ev.thermalTrip (cause : Nat) (die : Nat) (temp : Nat) : Ev := { code := 0x1304, sev := 3, p := [w32 cause, w32 die, w32 temp] }
def Ev.emergencyOff (mv : Nat) : Ev := { code := 0x1305, sev := 3, p := [w32 mv] }
def Ev.warmReset (cause cancelled completed rolled : Nat) : Ev :=
  { code := 0x1306, sev := 1, p := [w32 cause, w32 cancelled, w32 completed, w32 rolled] }
def Ev.blockResetDone (d : DieId) (block : Nat) (quiet : Bool) : Ev :=
  { code := 0x1307, sev := 0, p := [w32 d.toNat, w32 block, w32 (b2n quiet)] }

end Sys2Proof.Machine
end

