-- ==== Sys2Proof/Machine/Ops.lean ====
section
/-! DEFINITION. Named operations on the state that many commands share: outputs, interrupts, completions (R284 to R287, R311, R312),
the event recorder (R421, R422), control messages (R26), Settee messages and the journal (R370, R374, R375), clocks, requests. -/

namespace Sys2Proof.Machine

/-- What a command answers. -/
abbrev Out := Host.Outcome State Fault Refusal

/-! ## Plain access -/

/-- Output o is sent. -/
def emit (s : State) (o : Output) : State := { s with host := { s.host with out := o :: s.host.out } }

/-- A fresh free value (no value is chosen: Config.freeValue has no body). -/
def drawFree (s : State) : BitVec 64 × State := (Config.freeValue s.free, { s with free := s.free + 1 })

def qpKey (fn : Tenant) (q : BitVec 3) : Nat := 8 * fn.toNat + q.toNat
def qpOf (s : State) (fn : Tenant) (q : BitVec 3) : QueuePair := mget {} s.host.qps (qpKey fn q)
def setQp (s : State) (fn : Tenant) (q : BitVec 3) (f : QueuePair → QueuePair) : State :=
  { s with host := { s.host with qps := mmod {} s.host.qps (qpKey fn q) f } }

def vecKey (fn : Tenant) (v : BitVec 4) : Nat := 16 * fn.toNat + v.toNat
def vecOf (s : State) (fn : Tenant) (v : BitVec 4) : Vector := mget {} s.host.vectors (vecKey fn v)
def setVec (s : State) (fn : Tenant) (v : BitVec 4) (f : Vector → Vector) : State :=
  { s with host := { s.host with vectors := mmod {} s.host.vectors (vecKey fn v) f } }

def engOf (s : State) (e : Engine) : EngineState := mget {} s.engines.engine e.val
def setEng (s : State) (e : Engine) (f : EngineState → EngineState) : State :=
  { s with engines := { s.engines with engine := mmod {} s.engines.engine e.val f } }

def partOf (s : State) (p : PartId) : Partition := mget {} s.gen.parts p.toNat
/-- REFRESH in effect (R469). -/
def Partition.refreshUsed (q : Partition) : BitVec 10 := if q.step.running then q.step.refresh else q.refresh

/-- HOT_BUDGET in effect (R469). -/
def Partition.hotBudgetUsed (q : Partition) : BitVec 15 := if q.step.running then q.step.hotBudget else q.hotBudget

def setPart (s : State) (p : PartId) (f : Partition → Partition) : State :=
  { s with gen := { s.gen with parts := mmod {} s.gen.parts p.toNat f } }

def tenOf (s : State) (n : Tenant) : TenantState := mget {} s.gen.tenants n.toNat
def setTen (s : State) (n : Tenant) (f : TenantState → TenantState) : State :=
  { s with gen := { s.gen with tenants := mmod {} s.gen.tenants n.toNat f } }

def leaseOf (s : State) (n : Tenant) : LeaseInfo := mget {} s.pair.leases n.toNat
def setLease (s : State) (n : Tenant) (f : LeaseInfo → LeaseInfo) : State :=
  { s with pair := { s.pair with leases := mmod {} s.pair.leases n.toNat f } }

def reqOf (s : State) (h : Nat) : Option Request := mfind s.host.requests h
def setReq (s : State) (h : Nat) (r : Request) : State := { s with host := { s.host with requests := mins s.host.requests h r } }
/-- Request h changed by f, where it is outstanding. -/
def modReq (s : State) (h : Nat) (f : Request → Request) : State :=
  match reqOf s h with
  | none => s
  | some r => setReq s h (f r)

/-- CNT_TENANT counter k of tenant n raised (Table 20.16): 1 ACCESS_TENANT, 2 ACCESS_WORLD, 3 translation faults,
4 descriptors fetched, 5 FINALs posted, 6 set-up writes discarded. -/
def countTenant (s : State) (n : Tenant) (k m : Nat) : State :=
  { s with host := { s.host with cntTenant := mcount s.host.cntTenant (8 * n.toNat + k) m } }

/-- Time passed on a 48-bit µs counter from a to b, modulo 2^48 (Table 2.9). -/
def since (a b : BitVec 48) : Nat := (b - a).toNat

/-- The request timer (R33). -/
def now (s : State) : BitVec 48 := s.bureau.reqTimer
/-- The record time (R34). -/
def recNow (s : State) : BitVec 48 := s.bureau.recTime

/-- A deadline of request-timer value d has passed; 0 means none (R297). -/
def passed (s : State) (d : Nat) : Bool := d ≠ 0 && d ≤ (now s).toNat

/-! ## Interrupts (R287) -/

/-- The vector signals: its message, or its pending bit when it is masked (R287). -/
def signalVector (s : State) (fn : Tenant) (v : BitVec 4) : State :=
  let x := vecOf s fn v
  let s := setVec s fn v fun x => { x with since := 0, oldest := none, pending := x.masked || x.pending }
  if x.masked then s else emit s (.msix fn v)

/-- One completion was posted to a pair of the vector (R287). -/
def countVector (s : State) (fn : Tenant) (v : BitVec 4) (urgent : Bool) : State :=
  let s := setVec s fn v fun x => { x with since := x.since + 1, oldest := x.oldest.orElse fun _ => some (now s) }
  let x := vecOf s fn v
  if urgent || x.countM1.toNat + 1 ≤ x.since then signalVector s fn v else s

/-! ## Settee messages (R370, R374, R375) -/

/-- The link carries messages (Table 16.2: SYNC and UP). -/
def linkLive (s : State) : Bool := s.pair.link = .sync || s.pair.link = .up

/-- Message bytes of a body, for the journal's size (R375); the manual gives no byte layout of bodies, so a tile counts its image,
16,416 bytes, and a number 8. -/
def MsgBody.bytes : MsgBody → Nat
  | .none => 0
  | .index es ts bs ps ws _ => (es.map fun e => 4 + e.2.length).sum + 12 * ts.length + 2056 * bs.length + 8 * ps.length + 16424 * ws.length + 8
  | .rows im mp => (im.map fun r => 8 + 4 * r.2.length).sum + 16 * mp.length
  | .adapter _ ts => 16416 * ts.length + 1
  | .config _ => 512
  | .desc _ p => 64 + p.length
  | .final _ _ => 8
  | .text d _ => d.length + 1
  | .tile _ => 16416
  | .ident _ => 32
  | .addr _ => 8

/-- The header of Table 16.3 for a message of len bytes. -/
def MsgHdr.bytes (m : MsgHdr) (len : Nat) : Bytes :=
  [m.type, BitVec.ofNat 8 (b2n m.provisional + 2 * b2n m.journal + 4 * b2n m.more)] ++ toLE 2 m.tenant.toNat ++ [m.partition, m.status]
    ++ toLE 2 m.object.toNat ++ toLE 4 len ++ toLE 4 m.epoch.toNat ++ toLE 8 m.jseq.toNat ++ toLE 8 m.ref.toNat

/-- A message's bytes as consecutive frames, FIRST to LAST (R370); k bounds them. -/
def cutFrames : Nat → Bool → Bytes → List Frame
  | 0, _, _ => []
  | k + 1, first, b =>
    { first := first, last := decide (b.length ≤ 256), used := BitVec.ofNat 8 (min b.length 256 - 1), payload := pad 256 (b.take 256) }
      :: if b.length ≤ 256 then [] else cutFrames k false (b.drop 256)

/-- Header bits [95:0] of a frame (Table 16.1). -/
def Frame.header (f : Frame) : Nat :=
  f.used.toNat * 2 ^ 48 + b2n f.last * 2 ^ 56 + b2n f.first * 2 ^ 57 + b2n f.empty * 2 ^ 58 + f.credit.toNat * 2 ^ 59 + f.seq.toNat * 2 ^ 71
    + f.ackSeq.toNat * 2 ^ 83 + b2n f.nak * 2 ^ 95

/-- CRC-32C over the 256 payload bytes and header bits [95:0] (Table 16.1). -/
def Frame.crcOf (f : Frame) : BitVec 32 := crc32c (pad 256 f.payload ++ toLE 12 f.header)

/-- A frame with the acknowledgement and credit that are due (R20, R368). -/
def dressFrame (s : State) (f : Frame) : Frame :=
  let f := { f with ackSeq := s.pair.expect - 1, nak := false, credit := BitVec.ofNat 12 (min s.pair.credit 4095), seq := s.pair.txSeq }
  { f with crc := f.crcOf }

/-- What a sent frame settles: credit and acknowledgement reported, the time of the last frame. -/
def frameSent (s : State) (f : Frame) : State :=
  emit { s with pair := { s.pair with credit := s.pair.credit - f.credit.toNat, ackDue := false, sentAt := now s } } (.frame f)

/-- Waiting frames are sent while the replay buffer of 1,024 frames and the partner's 2,048 take them (R368); k bounds them. -/
def pumpFrames : Nat → State → State
  | 0, s => s
  | k + 1, s =>
    match s.pair.txWait with
    | [] => s
    | f :: rest =>
      if s.pair.realigning || s.pair.link = .down || decide (1024 ≤ s.pair.replay.length) || decide (2048 ≤ s.pair.owed) then s
      else
        let f := dressFrame s f
        pumpFrames k (frameSent { s with pair := { s.pair with
          txWait := rest, txSeq := s.pair.txSeq + 1, replay := s.pair.replay ++ [f], owed := s.pair.owed + 1 } } f)

/-- A message is sent, while the link carries traffic or exchanges IDENT (R370, Table 16.2). The manual gives no byte layout of bodies: their
bytes are free values. -/
def sendMsg (s : State) (m : MsgHdr) (b : MsgBody) : State :=
  if !linkLive s && !(s.pair.link = .training && decide (m.type = 1)) then s
  else
    let data := m.bytes (32 + b.bytes) ++ (List.range b.bytes).map (Config.freeByte s.free)
    let fs := cutFrames (data.length / 256 + 1) true data
    let s := { s with
      free := s.free + (if b.bytes = 0 then 0 else 1)
      pair := { s.pair with sent := (m, b) :: s.pair.sent, txWait := s.pair.txWait ++ fs } }
    pumpFrames s.pair.txWait.length s

/-- A journal trimmed to its capacity, oldest entries first, with the tenants that lost entries (R387). -/
def trimJournal (cap : Nat) : List JournalEntry → List JournalEntry × List Nat
  | [] => ([], [])
  | e :: es =>
    let (k, d) := trimJournal cap es
    if ((e :: es).map fun x => 32 + x.body.bytes).sum ≤ cap then (e :: es, d) else (k, e.hdr.tenant.toNat :: d)

/-- Journalled messages are sent as they come: the link is UP, or in SYNC with its replay begun (R374, R386). -/
def journalLive (s : State) : Bool := s.pair.link = .up || (s.pair.link = .sync && s.pair.reqSeen)

/-- A journalled message takes the next JSEQ, enters the journal, and is sent while the link carries traffic (R374, R375). -/
def journalMsg (s : State) (m : MsgHdr) (b : MsgBody) (h : Option Nat) : State :=
  let j := s.pair.jNext
  let m := { m with journal := true, jseq := BitVec.ofNat 64 j }
  let live := journalLive s
  let e : JournalEntry := { jseq := j, hdr := m, body := b, sentAt := if live then some (now s) else none, handle := h }
  let (js, dropped) := trimJournal (s.pair.journalGib.toNat * 2 ^ 30) (s.pair.journal ++ [e])
  let s := setLease { s with pair := { s.pair with jNext := j + 1, journal := js } } m.tenant fun l => { l with lastJseq := j }
  let s := dropped.foldl (fun s n => setLease s (BitVec.ofNat 9 n) fun l => { l with dropped := true }) s
  if live then sendMsg s m b else s

/-! ## Completions (R284 to R286, R306, R311, R312) -/

/-- A pair posts completions only while it is enabled (R283, R468). -/
def pairPosts (p : QueuePair) : Bool := p.state = .enabled

/-- A TOKENS completion that a later one of the same request and sequence joins (R286, R309). -/
def mergeTokens (a b : Completion) : Option Completion :=
  match a.body, b.body with
  | .tokens bo bc io ic sq, .tokens _ bc' _ ic' sq' =>
    if a.tag = b.tag && sq = sq' then
      some { a with body := .tokens bo (bc + bc') io (ic + ic') sq, payload := a.payload ++ b.payload, flags := a.flags ||| b.flags }
    else none
  | _, _ => none

/-- The completion at the end of those that wait; while the ring has no free slot a TOKENS completion joins an earlier one of its
request (R286). -/
def enqueue (full : Bool) (c : Completion) : List Completion → List Completion
  | [] => [c]
  | a :: l =>
    match (if full then mergeTokens a c else none) with
    | some m => m :: l
    | none => a :: enqueue full c l

/-- Completion records of the pair that driver software has not consumed (R286). -/
def cqUsed (p : QueuePair) : Nat := (p.cqTail - p.cqHead).toNat
/-- Entries of the completion ring (R280). -/
def cqSize (p : QueuePair) : Nat := 2 ^ p.cqLog2.toNat
/-- Entries of the submission ring (R280). -/
def sqSize (p : QueuePair) : Nat := 2 ^ p.sqLog2.toNat

/-! ## Indexes and snapshots (R155, R184) -/

def indexOf (s : State) (i : Nat) : Option IndexRec := mfind s.gen.indexes i
def setIndex (s : State) (i : Nat) (f : IndexRec → IndexRec) : State :=
  match mfind s.gen.indexes i with
  | none => s
  | some r => { s with gen := { s.gen with indexes := mins s.gen.indexes i (f r) } }

/-- OLDEST_SNAP as R184 has it. -/
def IndexRec.withOldest (r : IndexRec) : IndexRec :=
  { r with oldestSnap := match r.snaps with
    | [] => r.epoch
    | (e, _) :: _ => BitVec.ofNat 32 e }

def takeSnap (s : State) (i : Nat) (e : Epoch) : State :=
  setIndex s i fun r => IndexRec.withOldest { r with snaps := mcount r.snaps e.toNat 1 }
def dropSnap (s : State) (i : Nat) (e : Epoch) : State :=
  setIndex s i fun r => IndexRec.withOldest { r with snaps := mmod 0 r.snaps e.toNat (· - 1) }

/-- The re-run of a mirrored turn has ended: the turn goes, and its snapshot (R383). -/
def endRerun (s : State) (h : Nat) : State :=
  (s.pair.turns.filter fun t => decide (t.rerun = some h)).foldl (fun s t =>
    let s := { s with pair := { s.pair with turns := without t s.pair.turns } }
    match t.snap with
    | some e => dropSnap s (rd t.param 11 1) e
    | none => s) s

/-- The request is no longer outstanding (R292). A TURN or GENERATE is reported to the partner (R383). -/
def dropRequest (s : State) (h : Nat) : State :=
  match reqOf s h with
  | none => s
  | some r =>
    let s := endRerun { s with host := { s.host with requests := mdel s.host.requests h } } h
    if r.mirrored && s.pair.link = .up then
      sendMsg s { type := 0x33, tenant := r.fn, ref := r.tag } .none
    else s

/-- The completion belongs to a request whose completions are no longer posted (R288, R289, R468). -/
def mutes (s : State) (fn : Tenant) (c : Completion) : Bool :=
  match c.body with
  | .event .. => false
  | _ => s.host.requests.any fun x => x.2.mute && !x.2.remote && decide (x.2.fn = fn ∧ x.2.tag = c.tag)

/-- A completion joins those of its pair that wait to be written; a pair that is not enabled posts none (R283, R468), and neither does a
muted request (R288, R289). Whether it was taken. -/
def tryPost (s : State) (fn : Tenant) (q : BitVec 3) (c : Completion) : State × Bool :=
  if pairPosts (qpOf s fn q) && !mutes s fn c then
    (setQp s fn q fun p => { p with waiting := enqueue (decide (cqSize p ≤ cqUsed p)) c p.waiting }, true)
  else (s, false)

/-- The FINAL of a CANCEL whose target h has posted its last FINAL (R313). -/
def releaseCancel (h : Nat) (s : State) (x : Nat × Request) : State :=
  if x.2.phase = .cancelWait && decide (x.2.waitsFor = [h]) then
    let s := setReq s x.1 { x.2 with phase := .ending }
    let c : Completion := { tag := x.2.tag, body := .final 0 0 0 .none 0 (w32 x.2.outCount), closes := some x.1 }
    let (s, taken) := tryPost s x.2.fn x.2.qp c
    if taken then s else dropRequest s x.1
  else s

/-- Request h has posted its last FINAL: a CANCEL that waits for it goes on (R292, R313). -/
def closeRequest (s : State) (h : Nat) : State :=
  let s := dropRequest s h
  s.host.requests.foldl (releaseCancel h) s

/-- The module posts a completion on a pair: it waits for COMPLETION_POST to write it (R284). A request whose last FINAL is not posted ends
all the same. -/
def post (s : State) (fn : Tenant) (q : BitVec 3) (c : Completion) : State :=
  let (s, taken) := tryPost s fn q c
  match taken, c.closes with
  | false, some h => closeRequest s h
  | _, _ => s

/-! ## The event recorder (R421, R422, R311) -/

/-- The event concerns this function: the tenant's, or PF0 (R311). -/
def evFunction (e : Ev) : Tenant := e.tenant.getD 0

/-- An EVENT completion of a stored record, on a function's event queue pair when that is enabled (R311). -/
def postEventTo (s : State) (e : Ev) (fn : Tenant) : State :=
  let q := mget 0 s.host.eventQp fn.toNat
  let w := fun i => if e.world then 0 else e.p.getD i 0
  post s fn q { tag := e.tag, body := .event e.code e.src e.sev (w 0) (w 1) (w 2), urgent := decide (e.sev = 3) }

/-- An EVENT completion for the function that the event concerns, and for PF0 where the rule names it as well (R311, R333, R339). -/
def postEvent (s : State) (e : Ev) : State :=
  let s := postEventTo s e (evFunction e)
  if e.also0 && decide (evFunction e ≠ 0) then postEventTo s e 0 else s

/-- A record is stored: it takes the next SEQ, is staged, and is posted (R421, R424, R311). -/
def storeRecord (s : State) (e : Ev) (summary : Bool) : State :=
  let b := s.bureau
  let r : EventRec := { code := e.code, source := e.src, world := e.world, severity := e.sev, summary := summary, time := b.recTime,
                        seq := b.evSeq, params := e.p }
  let s := { s with bureau := { b with evSeq := b.evSeq + 1, staged := r :: b.staged, fatalSeen := b.fatalSeen || decide (e.sev = 3) } }
  postEvent s e

/-- An event is logged, under the bucket of its code (R422). -/
def logEvent (s : State) (e : Ev) : State :=
  if e.sev = 3 then storeRecord s e false
  else
    let b := mget {} s.bureau.buckets e.code.toNat
    if 0 < b.tokens then
      storeRecord { s with bureau := { s.bureau with buckets := mput {} s.bureau.buckets e.code.toNat { b with tokens := b.tokens - 1 } } } e false
    else
      let b := { b with suppressed := b.suppressed + 1, first := if b.suppressed = 0 then recNow s else b.first, last := recNow s,
                        source := e.src, severity := e.sev }
      { s with bureau := { s.bureau with buckets := mput {} s.bureau.buckets e.code.toNat b } }

/-- Events logged in order. -/
def logEvents (s : State) (es : List Ev) : State := es.foldl logEvent s

/-! ## Control messages (Table 2.4, R26) -/

/-- The home hub of a die: the hub of its link 0 (Table 2.1); none for the hubs' own and the regulator dies, and for the store dies,
which reach every hub. -/
def homeHub (d : DieId) : Option (BitVec 2) :=
  let n := d.toNat
  if n < 0x18 then some (BitVec.ofNat 2 n)
  else if 0x20 ≤ n && n < 0x34 then some (BitVec.ofNat 2 n)
  else if n = 0x3C then some 0
  else if n = 0x3D then some 1
  else if n = 0x3E then some 3
  else if n = 0x3F then some 1
  else none

/-- Number of die links of a die (Table 2.1). -/
def dieLinks (d : DieId) : Nat :=
  let n := d.toNat
  if n < 0x18 then 2 else if n < 0x20 then 4 else if n < 0x30 then 2 else if n < 0x34 then 1
  else if n = 0x3C then 2 else if n = 0x3D then 1 else if n = 0x3E then 1 else if n = 0x3F then 1 else 0

def isStore (d : DieId) : Bool := 0x18 ≤ d.toNat && d.toNat < 0x20
def isCompute (d : DieId) : Bool := d.toNat < 0x18
def isMemory (d : DieId) : Bool := 0x20 ≤ d.toNat && d.toNat < 0x30
def isFlash (d : DieId) : Bool := 0x30 ≤ d.toNat && d.toNat < 0x34

/-- Messages delivered to a die, in order. -/
def deliver (s : State) (d : DieId) (m : CtrlMsg) : State :=
  { s with fabric := { s.fabric with inbox := mmod [] s.fabric.inbox d.toNat (· ++ [m]) } }

/-- A control message is sent: a store die sends straight to the receiver's home hub, every other die to its own (R26); there it waits in
the hub's stage of the ring. -/
def sendCtrl (s : State) (m : CtrlMsg) : State :=
  let h := ((if isStore m.src then homeHub m.dest else homeHub m.src).getD 0).toNat
  { s with fabric := { s.fabric with ring := mmod [] s.fabric.ring h (· ++ [m]) } }

/-! ## Requests -/

/-- The FINAL fields of a request so far (Table 13.10). -/
def finalBody (r : Request) (count obytes : Nat) (stop : StopReason) (seq : BitVec 4) (aux : BitVec 32) : CompBody :=
  .final count obytes r.invalidText stop seq aux

/-- The FINAL of a mutation that the partner forwarded goes back to it (R379). -/
def forwardDone (s : State) (h : Nat) (r : Request) (st : Status) : CompBody → State
  | .final count _ _ _ _ aux =>
    dropRequest (sendMsg s { type := 0x21, tenant := r.fn, status := BitVec.ofNat 8 st.code, ref := r.tag } (.final count aux)) h
  | _ => dropRequest s h

/-- The last FINAL of request h, with the fields given (R308). -/
def finish (s : State) (h : Nat) (st : Status) (body : CompBody) (payload : List (BitVec 64 × Bytes)) : State :=
  match reqOf s h with
  | none => s
  | some r =>
    if r.phase = .ending then s
    else if r.remote then forwardDone s h r st body
    else
      let s := setReq s h { r with phase := .ending }
      post s r.fn r.qp { tag := r.tag, body := body, flags := r.flags, status := st, payload := payload, closes := some h }

/-- A FINAL with only a status (and AUX). -/
def finishPlain (s : State) (h : Nat) (st : Status) (aux : BitVec 32) : State :=
  match reqOf s h with
  | none => s
  | some r => finish s h st (finalBody r 0 0 .none 0 aux) []

end Sys2Proof.Machine
end

