-- ==== Sys2Proof/Machine/Keccak.lean ====
section
/-! DEFINITION. SHAKE256 of the Keccak engine (R226, R322, R429), as FIPS 202 defines it. -/

namespace Sys2Proof.Machine

/-- One step of the round-constant register of FIPS 202, algorithm 5: x⁸ + x⁶ + x⁵ + x⁴ + 1. -/
def rcStep (r : BitVec 8) : BitVec 8 := r <<< 1 ^^^ (if r.msb then 0x71 else 0)

/-- The 64-bit round constant whose seven bits the register gives from r on (bit 2^j − 1 is the output after j steps), and the
register after them. -/
def rcFrom (r : BitVec 8) : Nat × BitVec 8 :=
  (List.range 7).foldl (fun p j => (p.1 + (if p.2.getLsbD 0 then 2 ^ (2 ^ j - 1) else 0), rcStep p.2)) (0, r)

/-- The constants of n rounds, the register standing at r. -/
def roundConsts : Nat → BitVec 8 → List (BitVec 64)
  | 0, _ => []
  | n + 1, r => BitVec.ofNat 64 (rcFrom r).1 :: roundConsts n (rcFrom r).2

/-- Round constants of Keccak-f[1600]: 24 rounds from the register's start. -/
def keccakRc : List (BitVec 64) := roundConsts 24 1

/-- ρ of FIPS 202, algorithm 2: the walk from lane (x, y), its step t turning that lane by (t + 1)(t + 2)/2. -/
def rhoWalk : Nat → Nat → Nat × Nat → List (Nat × Nat)
  | 0, _, _ => []
  | n + 1, t, (x, y) => (x + 5 * y, (t + 1) * (t + 2) / 2 % 64) :: rhoWalk n (t + 1) (y, (2 * x + 3 * y) % 5)

/-- Rotations of lanes 0 to 24 (lane x + 5y); lane 0 is not turned. -/
def keccakRot : List Nat :=
  (List.range 25).map fun i => ((rhoWalk 24 0 (1, 0)).find? (·.1 == i)).elim 0 (·.2)

def lane (a : List (BitVec 64)) (i : Nat) : BitVec 64 := a.getD i 0

/-- θ: each lane takes the parity of the column before it and that of the column after it, turned by one. -/
def theta (a : List (BitVec 64)) : List (BitVec 64) :=
  let col := fun x => (List.range 5).foldl (fun p y => p ^^^ lane a (x % 5 + 5 * y)) 0
  a.mapIdx fun i w => w ^^^ col (i + 4) ^^^ (col (i + 1)).rotateLeft 1

/-- ρ and π: lane (x, y) of the result is the turned lane (x + 3y, x). -/
def rhoPi (a : List (BitVec 64)) : List (BitVec 64) :=
  let turned := List.zipWith (fun w k => w.rotateLeft k) a keccakRot
  (List.range 25).map fun i => lane turned ((i % 5 + 3 * (i / 5)) % 5 + 5 * (i % 5))

/-- χ: along each row of five. -/
def chi (a : List (BitVec 64)) : List (BitVec 64) :=
  let next := fun i k => lane a (i - i % 5 + (i % 5 + k) % 5)
  a.mapIdx fun i w => w ^^^ (~~~ next i 1 &&& next i 2)

/-- One round on 25 lanes: θ, ρ, π, χ, and ι with the round's constant. -/
def keccakRound (a : List (BitVec 64)) (rc : BitVec 64) : List (BitVec 64) :=
  (chi (rhoPi (theta a))).modifyHead (· ^^^ rc)

/-- Keccak-f[1600]. -/
def keccakF (a : List (BitVec 64)) : List (BitVec 64) := keccakRc.foldl keccakRound a

/-- Lane i of a block's bytes. -/
def blockLane (b : Bytes) (i : Nat) : BitVec 64 := BitVec.ofNat 64 (rd b (8 * i) 8)

/-- Blocks of 136 bytes taken in (k bounds the blocks): a block's 17 lanes enter the first 17 lanes. -/
def absorb : Nat → List (BitVec 64) → Bytes → List (BitVec 64)
  | 0, a, _ => a
  | k + 1, a, bs =>
    let mixed := a.mapIdx fun i w => w ^^^ (if 8 * i < 136 then blockLane bs i else 0)
    absorb k (keccakF mixed) (bs.drop 136)

/-- SHAKE256's padding: 0x1F, zeros, 0x80 in the last byte of a block. -/
def shakePad (bs : Bytes) : Bytes :=
  let n := 136 - bs.length % 136
  if n = 1 then bs ++ [0x9F] else bs ++ [0x1F] ++ List.replicate (n - 2) 0 ++ [0x80]

/-- The first n bytes, at most 136, of SHAKE256 of bytes. -/
def shake256 (n : Nat) (bs : Bytes) : Bytes :=
  let p := shakePad bs
  ((absorb (p.length / 136) (List.replicate 25 0) p).flatMap fun x => toLE 8 x.toNat).take n

/-- U_n (R226): SEED, SEQ, STEP_NO and n, and the first 8 bytes of the output. -/
def drawOf (k : BitVec 64 × BitVec 32 × BitVec 32 × BitVec 16) : BitVec 64 :=
  BitVec.ofNat 64 (leNat (shake256 8 (toLE 8 k.1.toNat ++ toLE 4 k.2.1.toNat ++ toLE 4 k.2.2.1.toNat ++ toLE 2 k.2.2.2.toNat)))

/-- The 64-byte SHAKE256 digest as a number (R322, R429). -/
def digest (bs : Bytes) : BitVec 512 := BitVec.ofNat 512 (leNat (shake256 64 bs))

end Sys2Proof.Machine
end

