-- ==== Sys2Proof/Machine/Fabric.lean ====
section
/-! DEFINITION. Chapter 02: die links, hubs, the control ring, fences, quiescing, rates and the reference clock. -/

namespace Sys2Proof.Machine

/-! ## Die links (R18 to R21) -/

def linkKey (l : LinkId) : Nat := l.die.toNat * 8 + l.link.toNat * 2 + b2n l.down
def linkOf (s : State) (l : LinkId) : LinkState := mget {} s.fabric.links (linkKey l)
def setLink (s : State) (l : LinkId) (f : LinkState → LinkState) : State :=
  { s with fabric := { s.fabric with links := mmod {} s.fabric.links (linkKey l) f } }

/-- The other direction of a die link. -/
def LinkId.rev (l : LinkId) : LinkId := { l with down := !l.down }

/-- The hub that a die's link reaches (Table 2.1). -/
def linkHub (d : DieId) (k : BitVec 2) : BitVec 2 :=
  if isStore d then k
  else if d = 0x3C then (if k = 0 then 0 else 2)
  else match homeHub d with
    | some h => if k = 0 then h else h + 2
    | none => 0

/-- The die has a link of this number (Table 2.1). -/
def hasLink (l : LinkId) : Bool := l.link.toNat < dieLinks l.die

/-- Sideband bits [95:0] (Table 2.2). -/
def Flit.sideband (f : Flit) : Nat :=
  f.offset.toNat + f.tag.toNat * 2 ^ 32 + b2n f.last * 2 ^ 48 + f.cls.toNat * 2 ^ 49 + f.src.toNat * 2 ^ 51
  + f.dest.toNat * 2 ^ 57 + f.credits.toNat * 2 ^ 63 + f.creditClass.toNat * 2 ^ 69 + f.seq.toNat * 2 ^ 71
  + f.ackSeq.toNat * 2 ^ 83 + b2n f.nak * 2 ^ 95

/-- CRC-32C over the 256 payload bytes and sideband bits [95:0] (Table 2.2). -/
def Flit.crcOf (f : Flit) : BitVec 32 := crc32c (pad 256 f.payload ++ toLE 12 f.sideband)

/-- The up channel of a die link: it keeps what belongs to the link as a whole, both channels (R21). -/
def LinkId.pair (l : LinkId) : LinkId := { l with down := false }

/-- The link reinitialises or is declared failed (R21). -/
def linkStopped (s : State) (l : LinkId) : Bool := (linkOf s l.pair).reinit || (linkOf s l.pair).failed

/-- Acknowledgement and credit fields that ride in a flit sent on link l: what the receiver of the reverse direction owes (R20). -/
def ridesOn (s : State) (l : LinkId) (f : Flit) : Flit × State :=
  let r := linkOf s l.rev
  match r.credit with
  | [] => ({ f with nak := false, ackSeq := r.expect - 1 }, setLink s l.rev fun r => { r with ackDue := false })
  | (c, n) :: rest =>
    let k := min n 63
    ({ f with nak := false, ackSeq := r.expect - 1, creditClass := BitVec.ofNat 2 c, credits := BitVec.ofNat 6 k },
     setLink s l.rev fun r => { r with ackDue := false, credit := if n = k then rest else (c, n - k) :: rest })

/-- A flit is sent on link l: it takes the next SEQ, one credit of its class, and a place in the 128-flit replay buffer (R19, R20). -/
def sendFlit (s : State) (l : LinkId) (f : Flit) : State :=
  let (f, s) := ridesOn s l f
  let f := { f with seq := (linkOf s l).txSeq }
  let f := { f with crc := f.crcOf }
  let s := setLink s l fun k => { k with txSeq := k.txSeq + 1, replay := k.replay ++ [f], owed := mcount k.owed f.cls.toNat 1 }
  emit s (.flit l f)

/-- Link l takes a flit of class c: a credit of that class is left, the replay buffer has room, and the link carries traffic
(R19, R20, R21). -/
def linkReady (s : State) (l : LinkId) (c : BitVec 2) : Bool :=
  let k := linkOf s l
  decide (k.replay.length < 128) && decide (mget 0 k.owed c.toNat < Config.linkBuffers c.toNat) && !linkStopped s l

/-- Waiting flits of link l are sent while the link takes them: the first whose class has credit, so that no class waits for another
(R19); k bounds them. -/
def pumpLink : Nat → State → LinkId → State
  | 0, s, _ => s
  | k + 1, s, l =>
    match (linkOf s l).waiting.find? fun f => linkReady s l f.cls with
    | none => s
    | some f => pumpLink k (sendFlit (setLink s l fun x => { x with waiting := x.waiting.erase f }) l f) l

/-- Flits are put on link l, behind those that wait there (R20, R21). -/
def sendOn (s : State) (l : LinkId) (fs : List Flit) : State :=
  let s := setLink s l fun k => { k with waiting := k.waiting ++ fs }
  pumpLink (linkOf s l).waiting.length s l

/-- The transmitter sends its replay buffer from a sequence number on (R20). -/
def resendFrom (s : State) (l : LinkId) (seq : BitVec 12) : State :=
  ((linkOf s l).replay.dropWhile fun f => decide (f.seq ≠ seq)).foldl (fun s f => emit s (.flit l f)) s

/-- What a received flit's acknowledgement and credit do at the transmitter of the reverse direction: what they free goes on (R19, R20). -/
def takeAck (s : State) (l : LinkId) (f : Flit) : State :=
  let s := setLink s l.rev fun k =>
    { k with owed := mmod 0 k.owed f.creditClass.toNat (· - f.credits.toNat)
             replay := if f.nak then k.replay
                       else if k.replay.any fun g => decide (g.seq = f.ackSeq)
                       then (k.replay.dropWhile fun g => decide (g.seq ≠ f.ackSeq)).tail else k.replay }
  let s := if f.nak then resendFrom s l.rev f.ackSeq else s
  pumpLink (linkOf s l.rev).waiting.length s l.rev

/-- A control message as the number of Table 2.4. -/
def CtrlMsg.toNat (m : CtrlMsg) : Nat :=
  m.type.toNat + m.status.toNat * 2 ^ 8 + m.scope.toNat * 2 ^ 16 + m.block.toNat * 2 ^ 24 + m.src.toNat * 2 ^ 28 + m.dest.toNat * 2 ^ 34
  + b2n m.bcast * 2 ^ 47 + m.tag.toNat * 2 ^ 48 + m.paramA.toNat * 2 ^ 64 + m.paramB.toNat * 2 ^ 96

/-- The control message of a number of Table 2.4. -/
def ctrlOfNat (v : Nat) : CtrlMsg :=
  { paramB := BitVec.ofNat 32 (v / 2 ^ 96), paramA := BitVec.ofNat 32 (v / 2 ^ 64), tag := BitVec.ofNat 16 (v / 2 ^ 48),
    bcast := bit v 47, dest := BitVec.ofNat 6 (v / 2 ^ 34), src := BitVec.ofNat 6 (v / 2 ^ 28), block := BitVec.ofNat 4 (v / 2 ^ 24),
    scope := BitVec.ofNat 8 (v / 2 ^ 16), status := BitVec.ofNat 8 (v / 2 ^ 8), type := BitVec.ofNat 8 v }

/-- A CTRL flit of one message (Table 2.2, Table 2.3). -/
def ctrlFlit (dest : DieId) (m : CtrlMsg) : Flit :=
  { dest := dest, src := m.src, cls := 3, last := true, tag := m.tag, offset := 1, payload := toLE 16 m.toNat }

/-- Control messages of a CTRL flit: 16 bytes each, OFFSET of them (Table 2.2, Table 2.4). -/
def flitMsgs (f : Flit) : List CtrlMsg :=
  (List.range (min f.offset.toNat 16)).map fun i => ctrlOfNat (rd f.payload (16 * i) 16)

/-- A flit with an empty payload, which carries only acknowledgement and credits (R20): class CTRL with a message count of 0. It is in no
sequence: its SEQ is 0 and is not looked at (DESIGN CHOICE, log entry 119). -/
def Flit.ackOnly (f : Flit) : Bool := f.cls = 3 && f.offset = 0

/-- Negative acknowledge of the expected sequence number, in a flit with an empty payload (R20, R21; log entry 119). -/
def nakFlit (s : State) (l : LinkId) : State :=
  let k := linkOf s l
  let s := setLink s l fun k =>
    { k with discarding := true, nakSeq := k.expect, nakRun := if k.nakSeq = k.expect then k.nakRun + 1 else 1 }
  let f : Flit := { nak := true, ackSeq := k.expect, dest := l.die, src := l.die, cls := 3 }
  emit s (.flit l.rev { f with crc := f.crcOf })

/-- ACK_ONLY_FLIT (R20): a flit with an empty payload carries only acknowledgement and credits, where any is due (log entry 119). -/
def ackOnly (s : State) (l : LinkId) : State :=
  let k := linkOf s l
  if (k.ackDue || k.credit ≠ []) && !linkStopped s l then
    let (f, s) := ridesOn s l.rev { dest := l.die, src := l.die, cls := 3 }
    emit s (.flit l.rev { f with crc := f.crcOf })
  else s

def execAckOnlyFlit (l : LinkId) (s : State) : Out := .next (ackOnly s l)

/-- Record times within the last second (R21, R369). -/
def lastSecond (t : BitVec 48) (ts : List (BitVec 48)) : List (BitVec 48) := ts.filter fun u => decide (since u t < 1000000)

/-- LINK_REINITIALISE (R21): after 8 consecutive negative acknowledges of one sequence number, of either channel, the link reinitialises. -/
def reinitialise (s : State) (l : LinkId) : State :=
  if (linkOf s l).nakRun < 8 || linkStopped s l then s
  else
    let s := setLink s l fun k => { k with nakRun := 0 }
    let s := setLink s l.pair fun k => { k with reinit := true, reinitAt := recNow s :: lastSecond (recNow s) k.reinitAt }
    logEvent s (.unnamed 0 l.die [w32 l.die.toNat, w32 l.link.toNat])

def execLinkReinitialise (l : LinkId) (s : State) : Out := .next (reinitialise s l)

/-- One channel of a link that is ready again: what the receiver has not got is sent again, and what waited goes on (R20, R21). -/
def resumeLink (s : State) (l : LinkId) : State :=
  let s := resendFrom s l (linkOf s l).expect
  pumpLink (linkOf s l).waiting.length s l

/-- LINK_REINIT_DONE (R21): the waiting traffic of both channels goes on; nothing was lost. -/
def reinitDone (s : State) (l : LinkId) : State :=
  if !(linkOf s l.pair).reinit then s
  else resumeLink (resumeLink (setLink s l.pair fun k => { k with reinit := false }) l.pair) l.pair.rev

def execLinkReinitDone (l : LinkId) (s : State) : Out := .next (reinitDone s l)

/-! ## Hubs (R22, R23) -/

/-- The next input after p, in round-robin order, among those that wait. -/
def nextInput (p : Nat) (ins : List Nat) : Option Nat :=
  ((List.range 64).map fun i => (p + 1 + i) % 64).find? fun i => decide (i ∈ ins)

/-- The first waiting flit of input i that p takes, and the rest. -/
def takeFlit (p : Flit → Bool) (i : Nat) : List (DieId × Flit) → Option (Flit × List (DieId × Flit))
  | [] => none
  | (d, f) :: l =>
    if d.toNat = i ∧ p f then some (f, l)
    else match takeFlit p i l with
      | none => none
      | some (g, r) => some (g, (d, f) :: r)

/-- The link by which a hub reaches a die (Table 2.1). -/
def downLink (hub : BitVec 2) (d : DieId) : Option LinkId :=
  ((List.range (dieLinks d)).map fun k => ({ die := d, link := BitVec.ofNat 2 k, down := true } : LinkId)).find?
    fun l => decide (linkHub l.die l.link = hub)

/-- The links of a die that are not declared failed (R21). -/
def liveLinks (s : State) (d : DieId) : List (BitVec 2) :=
  ((List.range (dieLinks d)).map (BitVec.ofNat 2)).filter fun k => !(linkOf s { die := d, link := k, down := false }).failed

/-- The hub that carries traffic of hub h toward a die: h itself, or the hub of the die's remaining link where its link to h has
failed (R21). -/
def hubToward (s : State) (h : BitVec 2) (d : DieId) : BitVec 2 :=
  match downLink h d, liveLinks s d with
  | some l, k :: _ => if (linkOf s l.pair).failed then linkHub d k else h
  | _, _ => h

/-- A flit from input die d waits at a hub output (R23). -/
def hubQueue (s : State) (hub : BitVec 2) (out d : DieId) (f : Flit) : State :=
  { s with fabric := { s.fabric with hubWait := mmod [] s.fabric.hubWait (hub.toNat * 64 + out.toNat) (· ++ [(d, f)]) } }

/-- The die of a hub, under which the ring's messages are an input of its outputs (Table 2.1). -/
def hubDie (hub : BitVec 2) : DieId := 0x34 + hub.setWidth 6

/-- A flit of input die d, by its sequence number on that link, still waits at the hub (a fence marker waits at eight outputs). -/
def heldAtHub (s : State) (hub : BitVec 2) (d : DieId) (f : Flit) : Bool :=
  s.fabric.hubWait.any fun q => decide (q.1 / 64 = hub.toNat) && q.2.any fun x => decide (x.1 = d ∧ x.2.cls = f.cls ∧ x.2.seq = f.seq)

/-- The buffer of a granted flit is free: its credit goes back on the input's link (R19, R20). -/
def freeBuffer (s : State) (hub : BitVec 2) (d : DieId) (f : Flit) : State :=
  if heldAtHub s hub d f then s
  else match downLink hub d with
    | some l => setLink s l.pair fun k => { k with credit := mcount k.credit f.cls.toNat 1 }
    | none => s

/-- The engine of a compute die that a flit is for: bit 8 of the transfer's tag (log entry 51). -/
def Flit.engine (f : Flit) : Nat := b2n (f.tag.getLsbD 8)

/-- The flits that an output may take of class c: of a class RDATA toward a compute die whose two engines both draw, those of the engine
that the last one was not for (R22). -/
def hubTakes (s : State) (key : Nat) (out : DieId) (ws : List (DieId × Flit)) (c : BitVec 2) (f : Flit) : Bool :=
  let last := mget 0 s.fabric.hubEngine key
  f.cls = c && !(c = 2 && isCompute out && decide (f.engine = last) && ws.any fun w => w.2.cls = c && decide (w.2.engine ≠ last))

/-- HUB_FLIT_GRANT (R22, R23): one waiting flit of the output is granted: round robin over inputs within a class; a CTRL flit wins over
data flits, at most one for every four flits. A class without credit at the output's link waits alone (R19). Which data class goes first
is left open: a free value picks it. -/
def hubGrant (s : State) (hub : BitVec 2) (out : DieId) : State :=
  let key := hub.toNat * 64 + out.toNat
  let ws := mget [] s.fabric.hubWait key
  let run := mget 3 s.fabric.hubCtrl key
  match downLink hub out with
  | none => s
  | some l =>
    let goes := fun c : BitVec 2 => linkReady s l c && ws.any fun w => decide (w.2.cls = c)
    let classes := ([0, 1, 2] : List (BitVec 2)).filter goes
    if classes = [] && !goes 3 then s
    else
      let (v, s) := if classes.length ≤ 1 then (0, s) else drawFree s
      let c := if goes 3 && (classes.isEmpty || decide (3 ≤ run)) then 3 else classes.getD (v.toNat % max 1 classes.length) 0
      let p := hubTakes s key out ws c
      let ins := (ws.filter fun w => p w.2).map fun w => w.1.toNat
      match nextInput (mget 63 s.fabric.hubRr (key * 4 + c.toNat)) ins with
      | none => s
      | some i =>
        match takeFlit p i ws with
        | none => s
        | some (f, rest) =>
          let s := { s with fabric := { s.fabric with
            hubWait := mput [] s.fabric.hubWait key rest
            hubEngine := if c = 2 && isCompute out then mput 0 s.fabric.hubEngine key f.engine else s.fabric.hubEngine
            hubRr := mput 63 s.fabric.hubRr (key * 4 + c.toNat) i
            hubCtrl := mput 3 s.fabric.hubCtrl key (if c = 3 then 0 else min 3 (run + 1)) } }
          sendFlit (freeBuffer s hub (BitVec.ofNat 6 i) f) l f

def execHubFlitGrant (hub : BitVec 2) (out : DieId) (s : State) : Out := .next (hubGrant s hub out)

/-- The flits sent on link l that its receiver has not taken (R20). -/
def undelivered (s : State) (l : LinkId) : List Flit := (linkOf s l).replay.dropWhile fun f => decide (f.seq ≠ (linkOf s l).expect)

/-- What a failed link of a die with another one still had to carry goes over that one: flits upward that were not taken or not yet sent,
and flits that wait at the failed link's hub or were sent downward and not taken (R21). -/
def moveTraffic (s : State) (l : LinkId) : State :=
  match liveLinks s l.die with
  | [] => s
  | k :: _ =>
    let up := l.pair
    let hub := linkHub l.die l.link
    let other := linkHub l.die k
    let key := hub.toNat * 64 + l.die.toNat
    let sent := undelivered s up.rev ++ (linkOf s up.rev).waiting
    let held := sent.map (fun f => (hubDie hub, f)) ++ mget [] s.fabric.hubWait key
    let mine := undelivered s up ++ (linkOf s up).waiting
    let s := setLink (setLink s up fun x => { x with replay := [], waiting := [], owed := [] }) up.rev
      fun x => { x with replay := [], waiting := [], owed := [] }
    let s := { s with fabric := { s.fabric with
      hubWait := mmod [] (mput [] s.fabric.hubWait key []) (other.toNat * 64 + l.die.toNat) (· ++ held) } }
    sendOn s { die := l.die, link := k, down := false } mine

/-! ## The control ring (R26, R336) -/

/-- SECURE after every reset that reaches the Bureau (Table 18.3). -/
def secureReset (d : DieId) : BitVec 16 := if d = 0x3F then 0xFFFD else if isFlash d then 0x0002 else 0

/-- The world map: block b of die d is secure (R416, Table 18.3). -/
def secureBlock (s : State) (d : DieId) (b : BitVec 4) : Bool :=
  ((secureReset d) ^^^ (mget 0 s.bureau.secureXor d.toNat)).getLsbD b.toNat

/-- The block a control message is for: BLOCK of the destination in a request to a block, block 0 otherwise (Table 2.4). -/
def destBlock (m : CtrlMsg) : BitVec 4 := if m.type = 0x06 then m.block else 0

/-- The block that sends: BLOCK where the type does not name the receiver's block (Table 2.4). -/
def srcBlock (m : CtrlMsg) : BitVec 4 := if m.type = 0x06 then 0 else m.block

/-- A reply to a request that the secure destination sent (R336). -/
def permittedReply (s : State) (m : CtrlMsg) : Bool :=
  (m.type = 0x03 || m.type = 0x05 || m.type = 0x07) && s.fabric.secureReq.any fun r => decide (r = (m.dest, m.tag, m.src))

/-- A hub drops the message for its world (R336). -/
def worldDrops (s : State) (m : CtrlMsg) : Bool :=
  !secureBlock s m.src (srcBlock m) && secureBlock s m.dest (destBlock m) && !m.bcast && !permittedReply s m

/-- A request of a secure block, whose reply may pass (R336). -/
def noteSecure (s : State) (m : CtrlMsg) : State :=
  if secureBlock s m.src (srcBlock m) && (m.type = 0x01 || m.type = 0x04 || m.type = 0x06) then
    { s with fabric := { s.fabric with secureReq := withLast (m.src, m.tag, m.dest) s.fabric.secureReq } }
  else s

/-- The hub serves this die: it is its home hub, or the die is a store die, which every hub reaches (Table 2.1). -/
def hubServes (hub : BitVec 2) (d : DieId) : Bool := isStore d || decide (homeHub d = some hub)

/-- Every die identifier (Table 2.1). -/
def allDies : List DieId := (List.range 64).map (BitVec.ofNat 6)

/-- A message of a non-secure block to a secure one is dropped and counted, with an event (R336). -/
def dropForWorld (s : State) (m : CtrlMsg) (d : DieId) : State :=
  let s := { s with fabric := { s.fabric with worldDrops := s.fabric.worldDrops + 1 } }
  let s := countTenant s 0 2 1
  logEvent s (.worldDrop m.src (srcBlock m).toNat d (destBlock m).toNat m.type.toNat s.fabric.worldDrops)

/-- The die is in SCOPE of a broadcast (Table 2.4): every die for the module (0xFF); for a partition its compute dies, and the dies that
every partition uses (DESIGN CHOICE, log entry 120). -/
def inScope (s : State) (scope : BitVec 8) (d : DieId) : Bool :=
  scope = 0xFF || !isCompute d ||
    (decide (scope.toNat < 32) && match (partOf s (scope.setWidth 5)).prog with
      | some g => (g.home ||| g.borrow).getLsbD (2 * d.toNat) || (g.home ||| g.borrow).getLsbD (2 * d.toNat + 1)
      | none => false)

/-- A message goes from a hub down to die d: as a CTRL flit at the hub's output (R23, R26). -/
def sendDown (s : State) (hub : BitVec 2) (m : CtrlMsg) (d : DieId) : State := hubQueue s (hubToward s hub d) d (hubDie hub) (ctrlFlit d m)

/-- A broadcast reaches dies ds of this hub: those in SCOPE whose block its source may reach (R26, R336). -/
def sendDownAll (s : State) (hub : BitVec 2) (m : CtrlMsg) (ds : List DieId) : State :=
  (ds.filter fun d => inScope s m.scope d).foldl (fun s d =>
    if !secureBlock s m.src (srcBlock m) && secureBlock s d (destBlock m) then dropForWorld s m d else sendDown s hub m d) s

/-- Message m is the oldest in its stage from its source to its destination (R26). -/
def ringFirst (q : List CtrlMsg) (m : CtrlMsg) : Bool :=
  decide (q.find? (fun x => decide (x.src = m.src) && (x.bcast || m.bcast || decide (x.dest = m.dest))) = some m)

/-- CONTROL_RING_HOP (R26, R336): the hub takes message m, the oldest of its source and destination, from its ring stage; a failed CRC-16
is retried; a message of an unlisted type or of a world that may not reach its destination is dropped and counted; otherwise it goes
down at the receiver's home hub or passes to the next hub. A broadcast is sent down by each hub in turn. A message for a die without a
home hub (a hub or regulator die, which no link reaches) is removed, with no count: the manual does not say (DESIGN CHOICE, log entry 121). -/
def ringHop (s : State) (hub : BitVec 2) (m : CtrlMsg) (crcOk : Bool) : State :=
  let q := mget [] s.fabric.ring hub.toNat
  if !crcOk || !ringFirst q m then s
  else
    let s := { s with fabric := { s.fabric with ring := mput [] s.fabric.ring hub.toNat (q.erase m) } }
    if m.type.toNat < 1 || 10 < m.type.toNat then
      { s with fabric := { s.fabric with ringDrops := mcount s.fabric.ringDrops hub.toNat 1 } }
    else if worldDrops s m then dropForWorld s m m.dest
    else
      let s := noteSecure s m
      let next : BitVec 2 := hub + 1
      let pass := fun (s : State) =>
        { s with fabric := { s.fabric with ring := mmod [] s.fabric.ring next.toNat (· ++ [m]) } }
      if m.bcast then
        let s := sendDownAll s hub m (allDies.filter fun d => decide (homeHub d = some hub))
        if homeHub m.src = some next || (homeHub m.src = none && hub = 3) then sendDownAll s hub m (allDies.filter isStore)
        else pass s
      else if hubServes hub m.dest then
        let s := if permittedReply s m then { s with fabric := { s.fabric with secureReq := without (m.dest, m.tag, m.src) s.fabric.secureReq } } else s
        sendDown s hub m m.dest
      else if homeHub m.dest = none then s
      else pass s

def execControlRingHop (hub : BitVec 2) (m : CtrlMsg) (crcOk : Bool) (s : State) : Out := .next (ringHop s hub m crcOk)

/-! ## Blocks of a die -/

def blockKey (b : BlockId) : Nat := b.die.toNat * 16 + b.block.toNat

/-- The blocks of a die that are quiesced and fenced: two engines, 16 channel units, 8 shelf engines, one block elsewhere (Table 2.4,
Table 15.7). -/
def fencedBlocks (d : DieId) : List (BitVec 4) :=
  (List.range (if isCompute d then 2 else if isMemory d then 16 else if isFlash d then 8 else 1)).map (BitVec.ofNat 4)

/-- The block takes no new work: it drains, is quiet or hung (R32). -/
def notTaking (s : State) (b : BlockId) : Bool :=
  match mfind s.fabric.quiesce (blockKey b) with
  | some q => decide (q.stage ≠ .waiting)
  | none => false

/-- The block of an engine (R416). -/
def engineBlock (e : Engine) : BlockId := { die := BitVec.ofNat 6 (e.val / 2), block := BitVec.ofNat 4 (e.val % 2) }

/-- Tiles that a die is writing: FILLING, and not abandoned by a reset (R31, R49). -/
def tilesInFlight (s : State) (die : DieId) : List TileIdx :=
  (s.store.slots.filter fun e => e.2.hdr.state = .filling && e.2.src = die && !e.2.abandoned).map fun e => BitVec.ofNat 17 e.1

/-! ## Fences (R31) -/

def fenceKey (issuer : BlockId) (die : DieId) : Nat := blockKey issuer * 64 + die.toNat

/-- Every answer that a fence of a die awaits: 8 store dies on each of its links that carries traffic (R31, R21). -/
def fenceAnswers (s : State) (die : DieId) : List (BitVec 2 × BitVec 3) :=
  (liveLinks s die).flatMap fun l => (List.range 8).map fun st => (l, BitVec.ofNat 3 st)

/-- Every block of the die is quiet (R32): a fence that reaches it completes at once. -/
def dieQuiet (s : State) (die : DieId) : Bool :=
  (fencedBlocks die).all fun b => match mfind s.fabric.quiesce (blockKey { die := die, block := b }) with
    | some q => q.stage = .quiet || q.stage = .done
    | none => false

/-- A fence marker (R31): a WDATA flit; its TAG names the issuer, and an OFFSET of all ones, which is no tile index, marks it (DESIGN
CHOICE, log entry 122). -/
def fenceMarker (issuer : BlockId) (die : DieId) : Flit :=
  { src := die, cls := 1, last := true, tag := BitVec.ofNat 16 (blockKey issuer), offset := 0xFFFFFFFF }

/-- The flit is a fence marker. -/
def Flit.isMarker (f : Flit) : Bool := f.cls = 1 && f.offset = 0xFFFFFFFF

/-- FENCE_REQ (R31): the fenced die sends a marker on every one of its links that carries traffic, after the flits that wait there. -/
def fenceReq (s : State) (issuer : BlockId) (die : DieId) : State :=
  let f : Fence := { marked := liveLinks s die, earlier := tilesInFlight s die
                     answers := if dieQuiet s die then fenceAnswers s die else [] }
  let s := { s with fabric := { s.fabric with fences := mins s.fabric.fences (fenceKey issuer die) f } }
  (liveLinks s die).foldl (fun s k => sendOn s { die := die, link := k, down := false } [fenceMarker issuer die]) s

def execFenceReq (issuer : BlockId) (die : DieId) (s : State) : Out := .next (fenceReq s issuer die)

/-- Fence k of the state changed by f, where it is in progress. -/
def modFence (s : State) (k : Nat) (f : Fence → Fence) : State :=
  match mfind s.fabric.fences k with
  | none => s
  | some x => { s with fabric := { s.fabric with fences := mins s.fabric.fences k (f x) } }

/-- A marker of fence key k that came through link l's hub has reached store die st (R31). -/
def markerArrives (s : State) (k : Nat) (link : BitVec 2) (st : BitVec 3) : State :=
  modFence s k fun f => { f with arrived := withLast (link, st) f.arrived }

/-- Store die st may answer the marker of a link: the marker has reached it, and every tile that the die was writing there when the marker
was issued is written, freed or abandoned (R31). -/
def mayAnswer (s : State) (die : DieId) (f : Fence) (link : BitVec 2) (st : BitVec 3) : Bool :=
  decide ((link, st) ∈ f.arrived) && (f.earlier.filter fun t => decide (t.setWidth 3 = st)).all fun t => decide (t ∉ tilesInFlight s die)

/-- FENCE_MARKER_ANSWER (R31): store die st has written every earlier WDATA flit of that source on that link's hub input. -/
def fenceAnswer (s : State) (issuer : BlockId) (die : DieId) (link : BitVec 2) (st : BitVec 3) : State :=
  modFence s (fenceKey issuer die) fun f => if mayAnswer s die f link st then { f with answers := withLast (link, st) f.answers } else f

def execFenceMarkerAnswer (issuer : BlockId) (die : DieId) (link : BitVec 2) (st : BitVec 3) (s : State) : Out :=
  .next (fenceAnswer s issuer die link st)

/-- A fence in progress names the die (R32: a quiesce is handled after it). -/
def fenceOn (s : State) (die : DieId) : Bool := s.fabric.fences.any fun f => decide (f.1 % 64 = die.toNat)

/-- The block stops acknowledging new work and withdraws its subscriptions (Table 2.8, order 2); the 50 ms run from the request. -/
def startDrain (s : State) (b : BlockId) (at' : BitVec 48) : State :=
  { s with
    fabric := { s.fabric with quiesce := mins s.fabric.quiesce (blockKey b) { stage := .draining, since := at' } }
    store := { s.store with subs := s.store.subs.filter fun x => decide (x.1 ≠ b) } }

/-- Quiesces of a die that waited for its fences begin (R32). -/
def startWaiting (s : State) (die : DieId) : State :=
  if fenceOn s die then s
  else (fencedBlocks die).foldl (fun s b =>
    match mfind s.fabric.quiesce (blockKey { die := die, block := b }) with
    | some { stage := .waiting, since := t } => startDrain s { die := die, block := b } t
    | _ => s) s

/-- FENCE_DONE (R31): the fenced die sends FENCE_DONE: OK when it has answers from 8 store dies on each of its links, RESET when a fenced block was
reset before; otherwise not due. A quiesce that waited for the fence begins (R32). -/
def fenceDone (s : State) (issuer : BlockId) (die : DieId) (reset : Bool) : State :=
  let k := fenceKey issuer die
  match mfind s.fabric.fences k with
  | none => s
  | some f =>
    if f.reset = reset && (reset || f.marked.all fun l => (List.range 8).all fun st => decide ((l, BitVec.ofNat 3 st) ∈ f.answers)) then
      let s := { s with fabric := { s.fabric with fences := mdel s.fabric.fences k
                                                  fenceResult := mins s.fabric.fenceResult k (if reset then 1 else 0) } }
      startWaiting (sendCtrl s { src := die, dest := issuer.die, block := issuer.block, scope := 0xFF, type := 0x05,
                                 status := if reset then 1 else 0 }) die
    else s

def execFenceDone (issuer : BlockId) (die : DieId) (reset : Bool) (s : State) : Out := .next (fenceDone s issuer die reset)

/-- A block of the die is reset: its fences that have not completed end with RESET (R31). -/
def resetFences (s : State) (die : DieId) : State :=
  { s with fabric := { s.fabric with fences := mmap (fun k f => if k % 64 = die.toNat then { f with reset := true } else f) s.fabric.fences } }

/-! ## Quiescing (R32) -/

/-- QUIESCE_REQ (R32): the block stops acknowledging new work and withdraws its subscriptions; during a fence of its die it does so after that
fence. A hung block stays hung. -/
def quiesceReq (s : State) (b : BlockId) : State :=
  match mfind s.fabric.quiesce (blockKey b) with
  | some { stage := .hung, .. } => s
  | _ =>
    if fenceOn s b.die then
      { s with fabric := { s.fabric with quiesce := mins s.fabric.quiesce (blockKey b) { stage := .waiting, since := recNow s } } }
    else startDrain s b (recNow s)

def execQuiesceReq (b : BlockId) (s : State) : Out := .next (quiesceReq s b)

/-- BLOCK_QUIET (R32): its transfers are complete and its own writes fenced, that is, readable; the completion detector reports quiet and the
block sends QUIESCE_DONE with status OK. -/
def blockQuiet (s : State) (b : BlockId) : State :=
  match mfind s.fabric.quiesce (blockKey b) with
  | some { stage := .draining, since := t } =>
    if tilesInFlight s b.die ≠ [] then s
    else
      let s := { s with fabric := { s.fabric with quiesce := mins s.fabric.quiesce (blockKey b) { stage := .quiet, since := t } } }
      sendCtrl s { src := b.die, block := b.block, dest := 0x3F, scope := 0xFF, type := 0x07 }
  | _ => s

def execBlockQuiet (b : BlockId) (s : State) : Out := .next (blockQuiet s b)

/-- QUIESCE_DONE (R32): the Bureau has the block's answer. -/
def quiesceDone (s : State) (b : BlockId) : State :=
  match mfind s.fabric.quiesce (blockKey b) with
  | some { stage := .quiet, since := t } =>
    { s with fabric := { s.fabric with quiesce := mins s.fabric.quiesce (blockKey b) { stage := .done, since := t } } }
  | _ => s

def execQuiesceDone (b : BlockId) (s : State) : Out := .next (quiesceDone s b)

/-- 50 ms have passed without QUIESCE_DONE (R32). -/
def quiesceOverdue (s : State) (b : BlockId) : Bool :=
  match mfind s.fabric.quiesce (blockKey b) with
  | some q => (q.stage = .waiting || q.stage = .draining || q.stage = .quiet) && decide (50000 ≤ since q.since (recNow s))
  | none => false

/-- The block is recorded as hung, and an event is logged (R32); only a warm reset clears it. -/
def recordHung (s : State) (b : BlockId) : State :=
  let s := { s with fabric := { s.fabric with quiesce := mins s.fabric.quiesce (blockKey b) { stage := .hung, since := recNow s } } }
  logEvent s (.unnamed 5 b.die [w32 b.die.toNat, w32 b.block.toNat])

/-- A quiesce of the block that is not recorded as hung ends (a block reset). -/
def endQuiesce (s : State) (b : BlockId) : State :=
  match mfind s.fabric.quiesce (blockKey b) with
  | some { stage := .hung, .. } => s
  | _ => { s with fabric := { s.fabric with quiesce := mdel s.fabric.quiesce (blockKey b) } }

/-! ## Reset release, rates, the reference clock (R28, R33, R452) -/

/-- RESET_RELEASE (R452): a clockless domain is released once its completion detector reports quiet. -/
def resetRelease (s : State) (d : DieId) (quiet : Bool) : State :=
  if quiet then { s with fabric := { s.fabric with released := withLast d s.fabric.released } } else s

def execResetRelease (d : DieId) (quiet : Bool) (s : State) : Out := .next (resetRelease s d quiet)

/-- Dies of a power domain (Table 19.2). -/
def domainDies (d : Nat) : List DieId :=
  let two := fun b => [BitVec.ofNat 6 b, BitVec.ofNat 6 (b + 1)]
  if d = 0 then [0x3F] else if d = 1 then [0x3C] else if d = 2 then [0x3D] else if d = 3 then [0x3E]
  else if d = 4 then [0x34, 0x35, 0x36, 0x37]
  else if 6 ≤ d && d ≤ 13 then two (0x20 + 2 * (d - 6))
  else if d = 14 then [0x18, 0x19, 0x1A, 0x1B] else if d = 15 then [0x1C, 0x1D, 0x1E, 0x1F]
  else if 16 ≤ d && d ≤ 27 then two (2 * (d - 16))
  else if d = 28 then [0x30, 0x31] else if d = 29 then [0x32, 0x33] else []

/-- The domain of a die (Table 19.2); the regulator dies, which no domain lists, give none. -/
def dieDomain (d : DieId) : Option Nat := (List.range 30).find? fun n => decide (d ∈ domainDies n)

/-- Domains with a regulated voltage: every one but PD00 and PD05 (Table 18.4). -/
def regulated (d : Nat) : Bool := decide (d < 30) && decide (d ≠ 0) && decide (d ≠ 5)

/-- Published rate of a domain (R28). -/
def rateOf (s : State) (d : Nat) : Nat := (mget 0 s.fabric.rate d).toNat
/-- Voltage set point of a domain in mV (R417, R441). -/
def voltOf (s : State) (d : Nat) : Nat := mget 600 s.bureau.volt d
/-- Highest junction temperature of a domain's dies, in 0.1 °C (R417). -/
def domainTemp (s : State) (d : Nat) : Int :=
  match domainDies d with
  | [] => 0
  | x :: xs => xs.foldl (fun m y => max m (mget 0 s.bureau.junction y.toNat)) (mget 0 s.bureau.junction x.toNat)

/-- The least of a list of readings. -/
def leastOf : List (BitVec 16) → Nat
  | [] => 0
  | [x] => x.toNat
  | x :: xs => min x.toNat (leastOf xs)

/-- RATE_SAMPLE (R28): the rate is the minimum of the domain's four replica lines; it is published, and a reading at or below 1,100 is
logged. PD00 and PD05 report no rate. -/
def rateSample (s : State) (d : Nat) (rs : List (BitVec 16)) : State :=
  if !regulated d || rs = [] then s
  else
    let r := leastOf rs
    let s := { s with fabric := { s.fabric with rate := mput 0 s.fabric.rate d (BitVec.ofNat 16 r) } }
    if r ≤ 1100 then logEvent s (.rateFloor d r (voltOf s d) (domainTemp s d).toNat) else s

def execRateSample (d : Nat) (rs : List (BitVec 16)) (s : State) : Out := .next (rateSample s d rs)

/-- REFCLK_LOSS (R33): the request timer stops and an event is logged. -/
def refclkLoss (s : State) : State :=
  if s.bureau.refclk then logEvent { s with bureau := { s.bureau with refclk := false } } (.unnamed 4 0x3C []) else s

def execRefclkLoss (s : State) : Out := .next (refclkLoss s)

/-- REFCLK_RETURN (R33): the request timer resumes from the value at which it stopped. -/
def refclkReturn (s : State) : State := { s with bureau := { s.bureau with refclk := true } }

def execRefclkReturn (s : State) : Out := .next (refclkReturn s)

end Sys2Proof.Machine
end

