-- ==== Sys2Proof/Machine/FaultLog.lean ====
section
/-! DEFINITION. Fault signatures (R365, Table 15.7). The manual gives the Hexga section; the record kept here is that section. -/

namespace Sys2Proof.Machine

/-- What a fault record says beside what the module adds (Table 15.7). -/
structure FaultInfo where
  kind : Nat
  block : Nat
  loc : BitVec 16 := 0xFFFF
  mech : Nat := 0
  cls : Nat := 1
  outcome : Nat := 3
  part : Nat := 0xFF
  attempts : Nat := 0
  epoch : Nat := 0
  gap : Nat := 0xFFFFFFFF
deriving DecidableEq, Repr

/-- The die of a block (BLOCK_KIND and BLOCK of Table 15.7, Table 2.1). -/
def blockDie (kind block : Nat) : DieId :=
  BitVec.ofNat 6 (match kind with
    | 1 => block / 2 | 2 => 0x20 + block / 16 | 3 => 0x30 + block / 8 | 4 => 0x18 + block / 64 | 5 => 0x20 + block / 16
    | 6 => 0x30 + block / 8 | 7 => 0x3E | _ => 0x3C)

/-- DIE_KIND of a die as its fuses give it: one code for each kind of die (Table 2.1, Table 18.7). -/
def dieKind (d : DieId) : Nat :=
  if isCompute d then 1 else if isStore d then 2 else if isMemory d then 3 else if isFlash d then 4
  else if d = 0x3C then 7 else if d = 0x3D then 8 else if d = 0x3E then 9 else if d = 0x3F then 10 else if d.toNat < 0x38 then 5 else 6

/-- The section (Table 15.7); the details are what the mechanism's hardware gives: free values. -/
def faultSection (s : State) (f : FaultInfo) (a b : Nat) : Bytes :=
  let d := blockDie f.kind f.block
  let dom := (dieDomain d).getD 0
  toLE 2 1 ++ toLE 2 128 ++ toLE 16 Config.serial.toNat ++ toLE 6 (Config.dieLot d).toNat
    ++ [Config.dieWafer d, Config.dieX d, Config.dieY d, BitVec.ofNat 8 (dieKind d), 0xB0, d.setWidth 8, BitVec.ofNat 8 f.kind, 0]
    ++ toLE 2 f.block ++ toLE 2 f.loc.toNat ++ toLE 1 f.mech ++ toLE 1 f.cls ++ toLE 1 f.outcome ++ toLE 1 f.part ++ toLE 2 f.attempts
    ++ toLE 4 f.epoch ++ toLE 6 (recNow s).toNat ++ toLE 2 (rateOf s dom) ++ toLE 2 (voltOf s dom)
    ++ toLE 2 ((mget 0 s.bureau.junction d.toNat) % 65536).toNat ++ toLE 4 a ++ toLE 4 b ++ toLE 4 s.bureau.evSeq.toNat
    ++ toLE 4 f.gap ++ List.replicate 52 0

/-- A fault record is kept, the last 256 of them, and announced by an event that names its number (R365). -/
def recordFault (s : State) (f : FaultInfo) (ev : Nat → Ev) : State :=
  let (a, s) := drawFree s
  let (b, s) := drawFree s
  let n := s.gen.faultNext
  let r := faultSection s f (a.toNat % 2 ^ 32) (b.toNat % 2 ^ 32)
  logEvent { s with gen := { s.gen with faultRecords := (r :: s.gen.faultRecords).take 256, faultNext := n + 1 } } (ev n)

/-- A fault that ends a request, which no event table names: class 5 media, 6 arithmetic range, 1 otherwise (R365). -/
def faultEnds (s : State) (kind block mech cls part : Nat) : State :=
  recordFault s { kind := kind, block := block, mech := mech, cls := cls, part := part } fun n =>
    .unnamed 20 (blockDie kind block) [w32 part, w32 mech, w32 cls, w32 n]

end Sys2Proof.Machine
end

