-- ==== Sys2Proof/Machine/Store.lean ====
section
/-! DEFINITION. Chapter 03: the central store: tile slots, requests, writes, subscriptions, commit and retraction, SECDED, scrub. -/

namespace Sys2Proof.Machine

/-! ## Slots (R36, R37) -/

def slotOf (s : State) (t : TileIdx) : Slot := mget {} s.store.slots t.toNat
def setSlot (s : State) (t : TileIdx) (f : Slot → Slot) : State :=
  { s with store := { s.store with slots := mmod {} s.store.slots t.toNat f } }

/-- Every slot changed by f; a slot left as zero-fill leaves it is listed no more. -/
def mapSlots (s : State) (f : TileIdx → Slot → Slot) : State :=
  { s with store := { s.store with
      slots := (s.store.slots.map fun e => (e.1, f (BitVec.ofNat 17 e.1) e.2)).filter fun e => decide (e.2 ≠ {}) } }

/-- The store die of a tile index, and its slot (R36). -/
def storeDie (t : TileIdx) : BitVec 3 := t.setWidth 3
def storeSlot (t : TileIdx) : Nat := t.toNat / 8
def storeDieId (t : TileIdx) : DieId := 0x18 + (storeDie t).setWidth 6

/-- The die still writes zeros and serves no request (R62). -/
def zeroFilling (s : State) (t : TileIdx) : Bool := decide (storeDie t ∈ s.store.zeroFilling)

/-- Bank of payload word i of a tile: flit k lies in bank (k + slot) mod 64, 64 words a flit (R37). A header word (4,096 on) lies in the header
array, in no bank: the manual gives it no bank number and the model reports 64 (DESIGN CHOICE, log entry 123). -/
def wordBank (t : TileIdx) (i : Nat) : Nat := if i < 4096 then (i / 64 + storeSlot t) % 64 else 64

/-! ## Steps a refusal touches (R337) -/

/-- Fields of the step in progress of partition p changed. -/
def setStep (s : State) (p : PartId) (f : Step → Step) : State := setPart s p fun q => { q with step := f q.step }

/-- The partition number that a PART or OWNER field names, when it names one (Table 3.3). -/
def partField (f : BitVec 6) : Option PartId := if f.toNat < 32 then some (f.setWidth 5) else none

/-- The request in a place of the step: the slot's of a generator, the item's of other kinds (R337). -/
def placeRequest (q : Partition) (g : Program) (i : Nat) : Option Nat :=
  if g.kind = .generator then (mfind q.slots i).map (·.request) else (q.step.items[i]?).map (·.handle)

/-- The rows of a tile in the program's row-ownership map. -/
def ownedRows (q : Partition) (t : Nat) : Map Nat := (q.prog.map fun g => mget [] g.sec.owners t).getD []

/-- The request that owns a row of a tile of the step (R112). -/
def rowOwner (s : State) (p : PartId) (t r : Nat) : Option Nat :=
  let q := partOf s p
  q.prog.bind fun g => (mfind (ownedRows q t) r).bind (placeRequest q g)

/-- The requests that own rows of a tile of the step, each once. -/
def tileOwners (s : State) (p : PartId) (t : Nat) : List Nat :=
  ((ownedRows (partOf s p) t).filterMap fun x => rowOwner s p t x.1).dedup

/-- The single request that owns a tile of the step (R337). -/
def tileOwner (s : State) (p : PartId) (t : Nat) : Option Nat :=
  match tileOwners s p t with
  | [h] => some h
  | _ => none

/-- An access of partition p's step was refused: its owner, or every request of the step, is to end with the status (R337). -/
def refuseAccess (s : State) (p : PartId) (t : Nat) (st : Status) : State :=
  match tileOwner s p t with
  | some h => setStep s p fun x => { x with refused := x.refused ++ [(h, st)] }
  | none => setStep s p fun x => { x with refusedAll := x.refusedAll.orElse fun _ => some st }

/-- A share violation (R132, R320): the access is not performed, the event names engine, context and address, every request of the step
is to end with PROGRAM_MISMATCH, and the partition takes no further work until it is reloaded. -/
def shareViolation (s : State) (p : PartId) (eng ctx addr : Nat) : State :=
  let s := setPart s p fun q => { q with needReload := true, step := { q.step with refusedAll := some .programMismatch } }
  logEvent s (.unnamed 18 0x3F [w32 eng, w32 ctx, w32 addr])

/-! ## SECDED reads (R57 to R60) -/

/-- Word i of a slot: payload words 0 to 4,095, header words 4,096 to 4,103. -/
def slotWord (x : Slot) (i : Nat) : Word :=
  if i < 4096 then w32 (rd x.payload (4 * i) 4) else w32 (x.hdr.toNat / 2 ^ (32 * (i - 4096)))

/-- Word i of a slot replaced. -/
def setSlotWord (x : Slot) (i : Nat) (w : Word) : Slot :=
  if i < 4096 then { x with payload := splice x.payload (4 * i) (toLE 4 w.toNat) }
  else
    let k := i - 4096
    let h := x.hdr.toNat
    { x with hdr := .ofNat (h - bits h (32 * k + 31) (32 * k) * 2 ^ (32 * k) + w.toNat * 2 ^ (32 * k)) }

/-- The event that names the die, bank, slot and word of an uncorrectable word (R59). -/
def evUncorrectable (t : TileIdx) (i : Nat) : Ev :=
  .unnamed 8 (storeDieId t) [w32 (storeDie t).toNat, w32 (wordBank t i), w32 (storeSlot t), w32 i]

/-- A slot found with an uncorrectable error a second time since the last warm reset: its bank row is recorded (R60). The bank's rows are
counted by slot. A header word lies in no bank row (log entry 123). -/
def noteBadRow (s : State) (t : TileIdx) (i : Nat) : State :=
  if t.toNat ∉ s.store.badOnce then { s with store := { s.store with badOnce := t.toNat :: s.store.badOnce } }
  else if i < 4096 then
    { s with store := { s.store with rowsToMap := withLast ((storeDie t).toNat * 64 + wordBank t i, storeSlot t) s.store.rowsToMap } }
  else s

/-- The 39-bit mask by which word i of a slot, as stored, differs from the codeword of the word held (R56). -/
def wordFlips (x : Slot) (i : Nat) : BitVec 39 := mget 0 x.flips i

/-- Words i on of the given number stored as valid codewords. -/
def cleanWords (x : Slot) (is : List Nat) : Slot := { x with flips := is.foldl mdel x.flips }

/-- What an uncorrectable word does, by where it lies (R59); the store writes the header words that it changes. -/
def poisonWord (x : Slot) (i : Nat) : Slot :=
  if i = 4100 then cleanWords { x with hdr := { x.hdr with poison := true, state := .held, epoch := 0xFFFFFFFF } } [4097, 4100, 4101]
  else if 4096 ≤ i || x.hdr.state = .ready || x.hdr.state = .held then cleanWords { x with hdr := { x.hdr with poison := true } } [4101]
  else x

/-- A stored word is disturbed: the flipped bits of its codeword (R56). -/
def disturbWord (x : Slot) (u : Upset) : Slot :=
  if u.word < 4104 then { x with flips := mmod 0 x.flips u.word (· ^^^ u.mask) } else x

/-- Word i as an uncorrectable read finds it: the data bits stand as they are stored, and the check bits stay what they were. -/
def keepBad (x : Slot) (i : Nat) (w : Word) : Slot :=
  let m := wordFlips x i
  let check := checkBits (slotWord x i) ^^^ (m >>> 32).setWidth 7
  let y := setSlotWord x i w
  { y with flips := mput 0 y.flips i ((check ^^^ checkBits (slotWord y i)) ++ (w ^^^ slotWord y i)) }

/-- A read of one word: corrected, written back and counted, or uncorrectable (R57 to R60). A word that an ordinary read corrects counts
toward the 64 of the scrub pass as one that a SCRUB corrects (DESIGN CHOICE, log entry 124). -/
def eccWord (s : State) (t : TileIdx) (i : Nat) : State :=
  let x := slotOf s t
  let r := secdedRead (slotWord x i) (wordFlips x i)
  match r.1 with
  | .clean => setSlot s t fun x => cleanWords (setSlotWord x i r.2) [i]
  | .corrected =>
    let s := setSlot s t fun x => cleanWords (setSlotWord x i r.2) [i]
    let die := (storeDie t).toNat
    let s := { s with store := { s.store with
      corrected := if i < 4096 then mcount s.store.corrected (64 * die + wordBank t i) 1 else s.store.corrected
      passCorrected := mcount s.store.passCorrected die 1 } }
    if mget 0 s.store.passCorrected die = 65 then logEvent s (.unnamed 10 0x3F [w32 die]) else s
  | .uncorrectable =>
    let s := setSlot s t fun x => poisonWord (keepBad x i r.2) i
    logEvent (noteBadRow s t i) (evUncorrectable t i)

/-- A read of a slot's words, with the disturbances it finds (R57): of the whole slot, or of its header words. -/
def eccRead (s : State) (t : TileIdx) (ups : List Upset) (whole : Bool) : State :=
  let s := setSlot s t fun x => ups.foldl disturbWord x
  (((slotOf s t).flips.map (·.1)).filter fun i => whole || decide (4096 ≤ i)).foldl (fun s i => eccWord s t i) s

/-! ## Reads (R44 to R46) -/

/-- The Bureau's requests carry PART 0x3F (Table 3.4). -/
def fromBureau (f : BitVec 6) : Bool := f = 0x3F

/-- The reply code of a read (R45, Table 3.6). A slot without a tile denies nothing. -/
def readCode (rq : StoreReq) (h : TileHeader) : ReplyCode :=
  if h.state = .free then .notReady
  else if !fromBureau rq.part && !rq.world && h.world then .deniedWorld
  else if !fromBureau rq.part && decide (h.tenant ≠ rq.tenant) && !h.shared then .deniedTenant
  else if h.state = .filling then .notReady
  else if h.poison then .poisoned else .data

/-- A denial's effects: the event, the requester's counter, and the step that does not commit (R45, R337, R339). -/
def denyRead (s : State) (rq : StoreReq) (h : TileHeader) (c : ReplyCode) : State :=
  let part := rq.part.toNat
  let s := match c with
    | .deniedWorld => countTenant (logEvent s (.accessWorld rq.src (rq.rtag.toNat / 256 % 2) 1 rq.tile.toNat part rq.epoch)) rq.tenant 2 1
    | .deniedTenant => countTenant (logEvent s (.accessTenant rq.src rq.tenant h.tenant 1 rq.tile.toNat rq.epoch)) rq.tenant 1 1
    | _ => s
  match c, partField rq.part with
  | .deniedWorld, some p => refuseAccess s p rq.tile.toNat .accessWorld
  | .deniedTenant, some p => refuseAccess s p rq.tile.toNat .accessTenant
  | _, _ => s

/-- A fault detected in the running step of an engine: counted, and the first one kept with its location (R345). -/
def noteFault (s : State) (e : Engine) (f : BitVec 8 × BitVec 16) : State :=
  setEng s e fun x => { x with faults := x.faults + 1, firstFault := x.firstFault.orElse fun _ => some f }

/-- The frame of an engine that a read reply fills: the requester's tag names the engine of the die (bit 8) and the frame (bits 7 to 0). -/
def replyEngine (src : DieId) (rtag : BitVec 16) : Engine := ⟨(2 * src.toNat + b2n (rtag.getLsbD 8)) % 48, by omega⟩

/-- The share of the running context of an engine (R131). -/
def runningShare (x : EngineState) : Option Share := if x.running then x.ctx1 else x.ctx0

/-- An access outside the running context's share: the access is not performed and the context is stopped (R132). -/
def violate (s : State) (e : Engine) (sh : Share) (addr : Nat) : State :=
  let s := setEng s e fun x => { x with stopped := true }
  shareViolation s sh.part e.val (b2n (engOf s e).running) addr

/-- A tile that arrives at an engine from the store fills a frame of the running context's share; the engine checks its CRC, and a tile
that fails it or is POISONED is a fault of the step (R43, R59, R129, R132, R345). -/
def fillFrame (s : State) (rq : StoreReq) (c : ReplyCode) (h : TileHeader) (payload : Bytes) : State :=
  if !isCompute rq.src || !(c = .data || c = .poisoned) then s
  else
    let e := replyEngine rq.src rq.rtag
    let f := rq.rtag.toNat % 256
    match runningShare (engOf s e) with
    | none => s
    | some sh =>
      if f < sh.frame0 || sh.frame0 + sh.frames ≤ f then violate s e sh f
      else
        let s := setEng s e fun x =>
          { x with frames := mput [] x.frames f (pad 16384 payload), origin := mins x.origin f { tile := rq.tile, hdr := h }
                   crcChecked := x.crcChecked + 1 }
        if c = .poisoned || !(Tile.crcOk { hdr := h, payload := payload }) then
          noteFault (setEng s e fun x => { x with badTile := x.badTile.orElse fun _ => some rq.tile }) e (0x04, 0xFFFF)
        else s

/-- The header and payload of a read's reply (R44, R45). -/
def replyOf (rq : StoreReq) (x : Slot) (whole : Bool) : StoreReply :=
  let c := readCode rq x.hdr
  { rtag := rq.rtag, tile := rq.tile, code := c
    hdr := if c = .deniedWorld || c = .deniedTenant then { state := x.hdr.state } else x.hdr
    payload := if whole && (c = .data || c = .poisoned) then some x.payload else none }

/-- What a read does at the store beside its reply: a denial's effects, or a holding read's (R45, R46). -/
def readEffect (s : State) (rq : StoreReq) (h : TileHeader) (whole : Bool) : State :=
  let c := readCode rq h
  if c = .deniedWorld || c = .deniedTenant then denyRead s rq h c
  else if whole && rq.hold && rq.part = h.owner && (h.state = .ready || h.state = .held) then
    setSlot s rq.tile fun x =>
      { x with hdr := { x.hdr with state := .held, epoch := if x.hdr.epoch.toNat < rq.epoch.toNat then rq.epoch else x.hdr.epoch } }
  else s

/-- The store serves a READ or READ_HEADER: the reply is sent (R44 to R46). -/
def storeServe (s : State) (rq : StoreReq) (ups : List Upset) (whole : Bool) : State × StoreReply :=
  let s := eccRead s rq.tile ups whole
  let x := slotOf s rq.tile
  let r := replyOf rq x whole
  (readEffect { s with store := { s.store with replies := s.store.replies ++ [r] } } rq x.hdr whole, r)

/-- READ and READ_HEADER with their reply's arrival at the requester (R44 to R46). A store die that still writes zeros drops what arrives, with
no reply: the manual says only that it then resumes requests (DESIGN CHOICE, log entry 125). -/
def storeRead (s : State) (rq : StoreReq) (ups : List Upset) (whole : Bool) : State :=
  if zeroFilling s rq.tile then s
  else
    let x := slotOf (eccRead s rq.tile ups whole) rq.tile
    let s := (storeServe s rq ups whole).1
    if whole then fillFrame s rq (readCode rq x.hdr) x.hdr x.payload else s

def execStoreRead (rq : StoreReq) (ups : List Upset) (s : State) : Out := .next (storeRead s rq ups true)
def execStoreReadHeader (rq : StoreReq) (ups : List Upset) (s : State) : Out := .next (storeRead s rq ups false)

/-- STORE_FREE (R47). -/
def storeFree (s : State) (rq : StoreReq) : State :=
  if zeroFilling s rq.tile then s
  else
    let h := (slotOf s rq.tile).hdr
    if fromBureau rq.part || (rq.part = h.owner && h.state = .ready) then
      setSlot s rq.tile fun x => { x with hdr := { x.hdr with state := .free } }
    else logEvent s (.unnamed 6 (storeDieId rq.tile) [w32 rq.src.toNat, w32 rq.tile.toNat])

def execStoreFree (rq : StoreReq) (s : State) : Out := .next (storeFree s rq)

/-! ## Scrub (R61) -/

/-- STORE_SCRUB (R61): the slot's words are read under R57 to R59; a FILLING slot is skipped and counted. -/
def storeScrub (s : State) (t : TileIdx) (ups : List Upset) : State :=
  if zeroFilling s t then s
  else
    let s := { s with store := { s.store with scrubAsked := without t s.store.scrubAsked } }
    if (slotOf s t).hdr.state = .filling then { s with store := { s.store with scrubSkips := s.store.scrubSkips + 1 } }
    else eccRead s t ups true

def execStoreScrub (t : TileIdx) (ups : List Upset) (s : State) : Out := .next (storeScrub s t ups)

/-- SCRUB_PACE_TICK (R61): the Bureau sends each store die a SCRUB that names the next slot; a new pass starts after slot 16,383. -/
def scrubPace (s : State) : State :=
  let k := s.store.scrubNext.toNat
  let s := { s with store := { s.store with
    scrubAsked := s.store.scrubAsked ++ (List.range 8).map fun d => BitVec.ofNat 17 (8 * k + d)
    scrubNext := s.store.scrubNext + 1 } }
  if k = 16383 then { s with store := { s.store with passCorrected := [] } } else s

def execScrubPaceTick (s : State) : Out := .next (scrubPace s)

/-- STORE_ZERO_FILL_DONE (R62): the die resumes requests. -/
def zeroFillDone (s : State) (d : BitVec 3) : State :=
  { s with store := { s.store with zeroFilling := without d s.store.zeroFilling } }

def execStoreZeroFillDone (d : BitVec 3) (s : State) : Out := .next (zeroFillDone s d)

/-! ## Writes (R41, R48, R49, R25) -/

/-- SHARED is kept on writes of the tier machinery that load an RO extent and on writes of the Bureau; a matrix engine's is cleared (R41). How
the store knows such a load the manual does not say: a tile of CLASS RO that a memory, flash or host die writes is one (DESIGN CHOICE, log
entry 126). -/
def keepsShared (src : DieId) (h : TileHeader) : Bool :=
  h.shared && (src = 0x3F || ((isMemory src || isFlash src || src = 0x3C) && h.cls = 0))

/-- The header that the store records (R48, R41). -/
def acceptHeader (src : DieId) (h : TileHeader) (world : Bool) : TileHeader :=
  { h with world := world, shared := keepsShared src h, poison := false, state := .filling }

def xferKey (src : DieId) (tag : BitVec 16) : Nat := src.toNat * 65536 + tag.toNat

/-- A write is refused: an event names source, tag and tile, and the writing step does not commit (R48, R351). -/
def refuseWrite (s : State) (src : DieId) (tag : BitVec 16) (t : TileIdx) (h : TileHeader) (cause : Nat) : State :=
  let s := match partField h.owner with
    | some p => setStep s p fun x => { x with
        storeRefusal := x.storeRefusal.orElse fun _ => some (t, cause), refusalBy := x.refusalBy.orElse fun _ => some (src, tag) }
    | none => s
  logEvent s (.unnamed 7 (storeDieId t) [w32 src.toNat, w32 tag.toNat, w32 t.toNat])

/-- The 64 payload flits that follow a refused header under its tag are to be discarded (R48). -/
def discardFlits (s : State) (src : DieId) (tag : BitVec 16) : State :=
  { s with store := { s.store with refusing := mins s.store.refusing (xferKey src tag) 64 } }

/-- The tile lies in the partition's store share (R319, R320). -/
def inShare (q : Partition) (t : TileIdx) : Bool := q.storeBase ≤ t.toNat && t.toNat < q.storeBase + q.storeCount

/-- An engine of partition p writes outside the running context's store share (R320). -/
def outsideShare (s : State) (src : DieId) (h : TileHeader) (t : TileIdx) : Option PartId :=
  if isCompute src then
    match partField h.owner with
    | some p => if inShare (partOf s p) t then none else some p
    | none => none
  else none

/-- STORE_WRITE_HEADER (R48). -/
def writeHeader (s : State) (src : DieId) (tag : BitVec 16) (t : TileIdx) (h : TileHeader) (world : Bool) : State :=
  if zeroFilling s t then s
  else match outsideShare s src h t with
    | some p => shareViolation s p (2 * src.toNat) 0 t.toNat
    | none =>
      if !shapeOk h.format h.rows.toNat h.cols.toNat then refuseWrite (discardFlits s src tag) src tag t h 0
      else if (slotOf s t).hdr.state ≠ .free then refuseWrite (discardFlits s src tag) src tag t h 1
      else setSlot s t fun x => { hdr := acceptHeader src h world, src := src, tag := tag, flips := x.flips.filter fun e => decide (e.1 < 4096) }

def execStoreWriteHeader (src : DieId) (tag : BitVec 16) (t : TileIdx) (h : TileHeader) (world : Bool) (s : State) : Out :=
  .next (writeHeader s src tag t h world)

/-- The message that asks for a notice of tile t (Table 2.5). The tag that a block chooses for it is the tile's slot (DESIGN CHOICE, log entry
127). -/
def subscribeMsg (b : BlockId) (t : TileIdx) : CtrlMsg :=
  { src := b.die, block := b.block, dest := storeDieId t, scope := 0xFF, type := 0x01, paramA := t.setWidth 32, tag := BitVec.ofNat 16 (storeSlot t) }

/-- READY_NOTICE to a subscriber, with the tag of its SUBSCRIBE (Table 2.5). -/
def sendNotice (s : State) (t : TileIdx) (b : BlockId) : State :=
  sendCtrl s { src := storeDieId t, dest := b.die, block := b.block, scope := 0xFF, type := 0x03, paramA := t.setWidth 32,
               tag := BitVec.ofNat 16 (storeSlot t) }

/-- A tile becomes READY: pending subscriptions are answered and deleted (R49, R50, R25). -/
def announce (s : State) (t : TileIdx) : State :=
  let subs := s.store.subs.filter fun x => decide (x.2 = t)
  let s := { s with store := { s.store with
    subs := s.store.subs.filter fun x => decide (x.2 ≠ t)
    notices := s.store.notices ++ subs } }
  subs.foldl (fun s x => sendNotice s t x.1) s

/-- The slot that a source's transfer fills (R23: the receiver reassembles by tag); a transfer that its writer's reset cut off is not resumed
(R49). -/
def fillingSlot (s : State) (src : DieId) (tag : BitVec 16) : Option TileIdx :=
  (s.store.slots.find? fun e => e.2.hdr.state = .filling && e.2.src = src && e.2.tag = tag && !e.2.abandoned).map fun e => BitVec.ofNat 17 e.1

/-- The writer of a die is reset: its tiles that are FILLING stay so (R49). An engine's transfers are told from those of its die's other
engine by their tag (log entry 51). -/
def abandonWrites (s : State) (b : BlockId) : State :=
  mapSlots s fun _ x =>
    if x.hdr.state = .filling && x.src = b.die && (!isCompute b.die || decide (b2n (x.tag.getLsbD 8) = b.block.toNat)) then { x with abandoned := true }
    else x

/-- STORE_WRITE_PAYLOAD (R48, R49): a flit of a refused write is discarded; the 64th of an accepted one makes the tile READY. -/
def writePayload (s : State) (src : DieId) (tag : BitVec 16) (k : BitVec 6) (data : Bytes) : State :=
  let key := xferKey src tag
  match mfind s.store.refusing key with
  | some n =>
    { s with store := { s.store with refusing := if n ≤ 1 then mdel s.store.refusing key else mins s.store.refusing key (n - 1) } }
  | none =>
    match fillingSlot s src tag with
    | none => s
    | some t =>
      let s := setSlot s t fun x =>
        { x with payload := splice x.payload (256 * k.toNat) (pad 256 data), got := withLast k x.got
                 flips := x.flips.filter fun e => decide (e.1 / 64 ≠ k.toNat) }
      if (slotOf s t).got.length = 64 then
        announce (setSlot s t fun x => { x with hdr := { x.hdr with state := .ready } }) t
      else s

def execStoreWritePayload (src : DieId) (tag : BitVec 16) (k : BitVec 6) (data : Bytes) (s : State) : Out :=
  .next (writePayload s src tag k data)

/-- A whole tile written by a block of the module into a FREE slot: header flit, 64 payload flits, READY (R48, R49). A refused write
leaves the slot as it is. -/
def writeTile (s : State) (src : DieId) (t : TileIdx) (tile : Tile) (world : Bool) : State :=
  if !shapeOk tile.hdr.format tile.hdr.rows.toNat tile.hdr.cols.toNat then refuseWrite s src 0 t tile.hdr 0
  else if (slotOf s t).hdr.state ≠ .free then refuseWrite s src 0 t tile.hdr 1
  else announce (setSlot s t fun _ => { hdr := { acceptHeader src tile.hdr world with state := .ready }, payload := tile.payload, src := src }) t

/-! ## The turn conductor's pool (R46, R319) -/

/-- The lowest FREE tile of the turn conductor's pool (R319; which one it takes is left open: DESIGN CHOICE, log entry 140). -/
def freeConductor (s : State) : Option TileIdx :=
  ((List.range Config.conductorTiles).map fun k => BitVec.ofNat 17 (Config.conductorBase + k)).find? fun t => (slotOf s t).hdr.state = .free

/-- A tile that passes between blocks of the retrieval and re-rank phases: OWNER 0x3E, PERSIST 1 (R46). -/
def passing (t : Tile) : Tile := { t with hdr := { t.hdr with owner := 0x3E, persist := true, out := false } }

/-- Tiles written for the turn conductor into its pool; none where the pool has too few FREE tiles. -/
def conductorPut (src : DieId) (world : Bool) : List Tile → State → Option (List TileIdx × State)
  | [], s => some ([], s)
  | t :: l, s => (freeConductor s).bind fun i => (conductorPut src world l (writeTile s src i (passing t) world)).map fun r => (i :: r.1, r.2)

/-- The turn conductor frees tiles that every phase which reads them is done with (R46). -/
def freePassing (s : State) (ts : List TileIdx) : State :=
  ts.foldl (fun s t => setSlot s t fun x => { x with hdr := { x.hdr with state := .free } }) s

/-! ## Subscriptions (R50, R51) -/

/-- SUBSCRIBE (R50, R51): a notice at once when the tile is readable, otherwise the subscription is recorded. A block does not issue a
65th subscription. -/
def subscribe (s : State) (b : BlockId) (t : TileIdx) : State :=
  let s := noteSecure s (subscribeMsg b t)
  let x := slotOf s t
  let held := (s.store.subs.filter fun x => decide (x.1 = b)).length
  if (b, t) ∉ s.store.subs ∧ 64 ≤ held then s
  else if x.hdr.state = .ready || x.hdr.state = .held then
    let s := { s with store := { s.store with notices := s.store.notices ++ [(b, t)] } }
    sendNotice s t b
  else { s with store := { s.store with subs := withLast (b, t) s.store.subs } }

def execSubscribe (b : BlockId) (t : TileIdx) (s : State) : Out := .next (subscribe s b t)

/-- UNSUBSCRIBE (R50): the subscription is deleted, with no reply. -/
def unsubscribe (s : State) (b : BlockId) (t : TileIdx) : State :=
  { s with store := { s.store with subs := without (b, t) s.store.subs } }

def execUnsubscribe (b : BlockId) (t : TileIdx) (s : State) : Out := .next (unsubscribe s b t)

/-- READY_NOTICE (R50, R91): the subscriber may start on the tile. -/
def readyNotice (s : State) (b : BlockId) (t : TileIdx) : State :=
  if (b, t) ∈ s.store.notices then
    { s with store := { s.store with notices := s.store.notices.erase (b, t), known := withLast (b, t) s.store.known } }
  else s

def execReadyNotice (b : BlockId) (t : TileIdx) (s : State) : Out := .next (readyNotice s b t)

/-! ## Hold until commit (R52, R53, R69, R73) -/

/-- What commit_notice does to one slot (R53). -/
def commitSlot (p : PartId) (e : Epoch) (x : Slot) : Slot :=
  let h := x.hdr
  if h.owner = p.setWidth 6 && (h.state = .ready || h.state = .held) && decide (h.epoch.toNat ≤ e.toNat) then
    if !h.persist then { x with hdr := { h with state := .free } }
    else if h.state = .held then { x with hdr := { h with state := .ready } } else x
  else x

/-- What retract_notice does to one slot (R53). -/
def retractSlot (p : PartId) (e : Epoch) (x : Slot) : Slot :=
  let h := x.hdr
  if h.owner = p.setWidth 6 && (h.state = .ready || h.state = .held) && h.out && decide (e.toNat ≤ h.prod.toNat) then
    { x with hdr := { h with state := .free } }
  else x

/-- The tier agents discard translations tagged with the partition, and a migration's drain no longer waits for the step (R69, R73). -/
def dropTagged (s : State) (p : PartId) (e : Epoch) : State :=
  { s with tier := { s.tier with
    cache := s.tier.cache.filter fun c => decide (c.1 ≠ p.setWidth 6)
    drains := mmap (fun _ d => { d with users := d.users.filter fun u => !(decide (u.1 = p.toNat) && decide (u.2 ≤ e.toNat)) }) s.tier.drains } }

/-- COMMIT_NOTICE (R53, R69). -/
def commitNotice (s : State) (p : PartId) (e : Epoch) : State := dropTagged (mapSlots s fun _ => commitSlot p e) p e
def execCommitNotice (p : PartId) (e : Epoch) (s : State) : Out := .next (commitNotice s p e)

/-- RETRACT_NOTICE (R53, R69). -/
def retractNotice (s : State) (p : PartId) (e : Epoch) : State := dropTagged (mapSlots s fun _ => retractSlot p e) p e
def execRetractNotice (p : PartId) (e : Epoch) (s : State) : Out := .next (retractNotice s p e)

/-- Zero-fill (R62): every slot FREE and zero, no subscription, no transfer. -/
def clearStore (s : State) : State :=
  { s with store := { s.store with slots := [], refusing := [], subs := [], notices := [], known := [], badOnce := [], scrubAsked := []
                                   passCorrected := [], scrubNext := 0, zeroFilling := (List.range 8).map (BitVec.ofNat 3) } }

end Sys2Proof.Machine
end

