-- ==== Sys2Proof/Machine/Links.lean ====
section
/-! DEFINITION. Chapter 02: what a delivered flit does: requests and tile writes at a store die, tile replies at the other dies, waiting flits and
ring messages at a hub (R18 to R26, R44, R48). -/

namespace Sys2Proof.Machine

/-- REPLY codes (Table 3.6). -/
def ReplyCode.code : ReplyCode → Nat
  | .data => 0 | .notReady => 1 | .deniedTenant => 2 | .deniedWorld => 3 | .poisoned => 4

/-- The reply of a REPLY code. -/
def ReplyCode.ofCode : Nat → ReplyCode
  | 0 => .data | 1 => .notReady | 2 => .deniedTenant | 3 => .deniedWorld | _ => .poisoned

/-- A request of Table 3.4. -/
def StoreReq.ofNat (src : DieId) (v : Nat) : StoreReq :=
  { src := src, epoch := BitVec.ofNat 32 (v / 2 ^ 96), rtag := BitVec.ofNat 16 (v / 2 ^ 64), tile := BitVec.ofNat 17 (v / 2 ^ 32)
    tenant := BitVec.ofNat 9 (v / 2 ^ 16), world := bit v 15, hold := bit v 14, part := BitVec.ofNat 6 (v / 2 ^ 8), op := BitVec.ofNat 8 v }

/-- The requests of a REQ flit, 16 bytes each: places whose OP is reserved hold none (Table 2.3, Table 3.4). -/
def flitReqs (f : Flit) : List StoreReq :=
  ((List.range 16).map fun i => StoreReq.ofNat f.src (rd f.payload (16 * i) 16)).filter fun r => decide (1 ≤ r.op.toNat ∧ r.op.toNat ≤ 4)

/-- A transfer as flits: the 32-byte header in one flit, then 64 payload flits, LAST on the last one (R18, R44). -/
def transferFlits (src dest : DieId) (cls : BitVec 2) (tag : BitVec 16) (t : TileIdx) (hdr : Nat) (payload : Option Bytes) : List Flit :=
  let f : Flit := { src := src, dest := dest, cls := cls, tag := tag, offset := t.setWidth 32 }
  match payload with
  | none => [{ f with last := true, payload := toLE 32 hdr }]
  | some p => { f with payload := toLE 32 hdr } :: (List.range 64).map fun k =>
      { f with last := decide (k = 63), payload := slice p (256 * k) 256 }

/-- A reply as an RDATA transfer with TAG equal to RTAG (R44). -/
def replyFlits (t : TileIdx) (dest : DieId) (r : StoreReply) : List Flit :=
  transferFlits (storeDieId t) dest 2 r.rtag t (r.hdr.toNat + r.code.code * 2 ^ 248) r.payload

/-- A request that reaches a store die on the link of hub l (R44): a read's reply goes back over the hub that serves the requester. -/
def serveRequest (l : BitVec 2) (s : State) (rq : StoreReq) : State :=
  if zeroFilling s rq.tile then s
  else if rq.op = 3 then storeFree s rq
  else if rq.op = 4 then storeScrub s rq.tile []
  else
    let (s, r) := storeServe s rq [] (rq.op = 1)
    sendOn s { die := storeDieId rq.tile, link := hubToward s l rq.src, down := false } (replyFlits rq.tile rq.src r)

/-- A WDATA flit at a store die: a marker, a header flit, or the next payload flit of its transfer (R23, R31, R48, R49). -/
def storeFlit (s : State) (l : LinkId) (f : Flit) : State :=
  let st : BitVec 3 := l.die.setWidth 3
  if f.isMarker then
    match ((List.range (dieLinks f.src)).map (BitVec.ofNat 2)).find? fun k => decide (linkHub f.src k = linkHub l.die l.link) with
    | some k => markerArrives s (f.tag.toNat * 64 + f.src.toNat) k st
    | none => s
  else if (mfind s.store.refusing (xferKey f.src f.tag)).isSome then writePayload s f.src f.tag 0 f.payload
  else match fillingSlot s f.src f.tag with
    | some t => writePayload s f.src f.tag (BitVec.ofNat 6 (slotOf s t).got.length) f.payload
    | none =>
      let h := TileHeader.ofNat (rd f.payload 0 32)
      writeHeader s f.src f.tag (f.offset.setWidth 17) h h.world

/-- A transfer has come whole to a die (R18, R23): an engine's tile fills its frame; another die has the tile. -/
def arriveTile (s : State) (d : DieId) (fs : List Flit) : State :=
  match fs with
  | [] => s
  | f :: rest =>
    let v := rd f.payload 0 32
    let h := TileHeader.ofNat v
    let p := rest.flatMap fun g => pad 256 g.payload
    if isCompute d then fillFrame s { src := d, rtag := f.tag, tile := f.offset.setWidth 17 } (.ofCode (bits v 255 248)) h p
    else { s with fabric := { s.fabric with arrived := mmod [] s.fabric.arrived d.toNat (· ++ [{ hdr := h, payload := p }]) } }

/-- An RDATA flit at the die that asked: transfers are reassembled by source and tag (R23). -/
def takeData (s : State) (l : LinkId) (f : Flit) : State :=
  let same := fun g : Flit => decide (g.src = f.src ∧ g.tag = f.tag)
  let rx := (linkOf s l).rx
  if f.last then
    arriveTile (setLink s l fun k => { k with rx := rx.filter fun g => !same g }) l.die (rx.filter same ++ [f])
  else setLink s l fun k => { k with rx := rx ++ [f] }

/-- A flit that goes down is taken by its die at once (R23, R26). -/
def deliverDown (s : State) (l : LinkId) (f : Flit) : State :=
  if f.cls = 3 then (flitMsgs f).foldl (fun s m => deliver s l.die m) s
  else if isStore l.die then
    if f.cls = 0 then (flitReqs f).foldl (serveRequest (linkHub l.die l.link)) s
    else if f.cls = 1 then storeFlit s l f
    else s
  else if f.cls = 2 then takeData s l f
  else s

/-- A flit that comes up to a hub (R23, R26, R31): control messages enter the ring stage, of the receiver's home hub when a store die sends
them; a marker waits for all eight store links; data waits for its output. Hubs route only between dies and store dies. -/
def deliverUp (s : State) (l : LinkId) (f : Flit) : State :=
  let hub := linkHub l.die l.link
  if f.cls = 3 then { s with fabric := { s.fabric with ring := mmod [] s.fabric.ring hub.toNat (· ++ flitMsgs f) } }
  else if f.isMarker then
    (List.range 8).foldl (fun s k => hubQueue s hub (0x18 + BitVec.ofNat 6 k) l.die { f with dest := 0x18 + BitVec.ofNat 6 k }) s
  else if isStore l.die || isStore f.dest then hubQueue s (hubToward s hub f.dest) f.dest l.die f
  else s

/-- The flit leaves its receive buffer as it is delivered: the die takes it, or the ring stage; one that waits at a hub output keeps its
buffer until it is granted (R19, R23). -/
def takenAtOnce (s : State) (l : LinkId) (f : Flit) : Bool := l.down || !heldAtHub s (linkHub l.die l.link) l.die f

/-- A flit that passed its checks is delivered, and its credit is returned when its buffer is free (R19, R20). -/
def deliverFlit (s : State) (l : LinkId) (f : Flit) : State :=
  let s := if l.down then deliverDown s l f else deliverUp s l f
  if takenAtOnce s l f then setLink s l fun k => { k with credit := mcount k.credit f.cls.toNat 1 } else s

/-- DIE_LINK_FLIT_RECEIVE (R18 to R20): a flit whose CRC fails is discarded with every later one until its replacement arrives, and a
negative acknowledge is returned; a flit that passes is delivered in sequence order. -/
def flitReceive (s : State) (l : LinkId) (f : Flit) : State :=
  let k := linkOf s l
  if linkStopped s l || !hasLink l then s
  else if f.crc ≠ f.crcOf then nakFlit s l
  else
    let s := takeAck s l f
    if f.ackOnly || f.seq ≠ k.expect then s
    else
      let s := setLink s l fun k => { k with expect := k.expect + 1, discarding := false, nakRun := 0, ackDue := true }
      deliverFlit s l f

def execDieLinkFlitReceive (l : LinkId) (f : Flit) (s : State) : Out := .next (flitReceive s l f)

end Sys2Proof.Machine
end

