-- ==== Sys2Proof/Machine/Flash.lean ====
section
/-! DEFINITION. Chapter 17: flash media management: map, page programs, journal, parity groups, wear, collection, rebuilds. -/

namespace Sys2Proof.Machine

/-! ## Geometry (R388 to R391) -/

def fdieKey (c d : Nat) : Nat := c * 16 + d
def fblkKey (c d b : Nat) : Nat := fdieKey c d * 2 ^ 23 + b
def fblkOf (s : State) (c d b : Nat) : FlashBlock := mget {} s.flash.blocks (fblkKey c d b)
def setFblk (s : State) (c d b : Nat) (f : FlashBlock → FlashBlock) : State :=
  { s with flash := { s.flash with blocks := mmod {} s.flash.blocks (fblkKey c d b) f } }

/-- Pages per block of a die, from its parameter page (R389). -/
def ppb (s : State) (c d : Nat) : Nat := (mget (0, 0) s.flash.params (fdieKey c d)).1
/-- Rated program/erase cycles of a die (R389). -/
def ratedPe (s : State) (c d : Nat) : Nat := (mget (0, 0) s.flash.params (fdieKey c d)).2
/-- Blocks of a die: 1 Tbit of user capacity in 16,384-byte pages is 2^23 pages (R389). -/
def dieBlocks (s : State) (c d : Nat) : Nat := if ppb s c d = 0 then 0 else 2 ^ 23 / ppb s c d

def unitChan (u : Nat) : Nat := u % 32
/-- Column of a logical unit (R390). -/
def unitCol (u : Nat) : Nat := (u / 128) % Config.ncol
/-- The die of a column and SEL (Table 17.2). -/
def colDie (col : Nat) (sel : Bool) : Nat :=
  if !Config.codeA then col
  else if col < 8 then (if sel then 8 + col else col)
  else (if sel then 8 + (col - 7) % 8 else col - 8)
/-- SEL of a die within a column (Table 17.2). -/
def colSel (col die : Nat) : Bool := decide (die ≠ colDie col false)

/-- The map entry of a page (Table 17.3). -/
def mapEntry (s : State) (col : Nat) (p : PagePos) : BitVec 32 :=
  BitVec.ofNat 32 (2 ^ 30 + b2n (colSel col p.die) * 2 ^ 23 + (p.block * ppb s p.chan p.die + p.page))

def entryState (e : BitVec 32) : Nat := e.toNat / 2 ^ 30
/-- The page of a mapped entry of unit u (R390, R391). -/
def entryPos (s : State) (u : Nat) (e : BitVec 32) : PagePos :=
  let c := unitChan u
  let d := colDie (unitCol u) (e.getLsbD 23)
  let n := e.toNat % 2 ^ 23
  { chan := c, die := d, block := n / max 1 (ppb s c d), page := n % max 1 (ppb s c d) }

def mapOf (s : State) (u : Nat) : BitVec 32 := mget 0 s.flash.map u
def pageAt (s : State) (p : PagePos) : Option NandPage := mfind (fblkOf s p.chan p.die p.block).pages p.page

/-- What a read of a logical unit finds (R391). -/
inductive UnitRead where
  | unmapped | lost | tile (t : Tile)
deriving DecidableEq, Repr

/-- A read of logical unit u (R391, R399). -/
def readUnit (s : State) (u : Nat) : UnitRead :=
  if decide (unitChan u ∈ s.flash.failedChans) then .lost
  else match entryState (mapOf s u) with
    | 1 => match pageAt s (entryPos s u (mapOf s u)) with
      | some p => if p.dead then .lost else .tile { hdr := p.hdr, payload := p.payload }
      | none => .lost
    | 2 => .lost
    | _ => .unmapped

/-! ## Health (R402, R403) -/

/-- Spare reserve of a channel in 0.1 % of its value at manufacture (R402). -/
def spareLeft (s : State) (c : Nat) : Nat := Config.spareBlocks c - mget 0 s.flash.retiredCount c
def sparePermille (s : State) (c : Nat) : Nat := spareLeft s c * 1000 / max 1 (Config.spareBlocks c)

/-- A warning is raised once when its condition first holds, and again only after it has cleared (R403). -/
def raiseOnce (s : State) (k : Nat) (cond : Bool) (e : Ev) : State :=
  if cond then
    if k ∈ s.flash.raised then s
    else logEvent { s with flash := { s.flash with raised := k :: s.flash.raised } } e
  else { s with flash := { s.flash with raised := without k s.flash.raised } }

/-- Good blocks of a channel. -/
def goodBlocks (s : State) (c : Nat) : Nat :=
  ((List.range Config.ncol).map fun d => dieBlocks s c d).sum - mget 0 s.flash.retiredCount c

/-- Program/erase counts of the good blocks that have any. -/
def wearCounts (s : State) : List Nat := (s.flash.blocks.filter fun b => !b.2.retired).map fun b => b.2.pe

/-- Average wear of the good blocks in 0.1 % of the rated count (R403). -/
def averageWear (s : State) : Nat :=
  let good := ((List.range 32).map (goodBlocks s)).sum
  (wearCounts s).sum * 1000 / max 1 (good * ratedPe s 0 0)

/-- Uncorrectable codewords of the last 24 h of record time (R403). -/
def uncRecent (s : State) : Nat :=
  (s.flash.unc.filter fun u => decide (since u.1 (recNow s) ≤ 86400000000)).length

/-- The conditions of Table 17.5 and the read-only state of R402 are judged for a channel. -/
def checkHealth (s : State) (c : Nat) : State :=
  let pm := sparePermille s c
  let s := raiseOnce s (2 * c) (decide (pm ≤ 100)) (.flashSpareLow c 10 pm (goodBlocks s c))
  let s := raiseOnce s (2 * c + 1) (decide (pm ≤ 50)) (.flashSpareLow c 5 pm (goodBlocks s c))
  let s := if pm = 0 ∧ c ∉ s.flash.readonly then
      logEvent { s with flash := { s.flash with readonly := c :: s.flash.readonly } } (.flashReadonly c (goodBlocks s c)) else s
  let w := averageWear s
  let s := raiseOnce s 64 (decide (800 ≤ w)) (.flashWearHigh w ((wearCounts s).foldl max 0) (ratedPe s 0 0))
  let last := s.flash.unc.head?.getD (0, 0, 0, 0)
  raiseOnce s 65 (decide (s.flash.uncThreshold.toNat < uncRecent s))
    (.flashUncRate (uncRecent s) s.flash.uncThreshold.toNat (w32 (last.2.1 * 65536 + last.2.2.1)) (w32 last.2.2.2))

/-! ## Writing pages (R393, R394, R397) -/

/-- The SEQ counter of a flash-channel die: bits [47:46] hold the die number (R394). -/
def seqOf (s : State) (fc : Nat) : BitVec 48 := mget (BitVec.ofNat 48 (fc * 2 ^ 46)) s.flash.seq fc
/-- The next SEQ of a channel's die (R394). -/
def takeSeq (s : State) (chan : Nat) : BitVec 48 × State :=
  let fc := chan / 8
  let v := seqOf s fc + 1
  (v, { s with flash := { s.flash with seq := mins s.flash.seq fc v } })

/-- A block that can be opened: erased, good and not being erased. -/
def isFree (s : State) (c d b : Nat) : Bool :=
  let x := fblkOf s c d b
  x.wp = 0 && !x.retired && x.erasing.isNone && x.group.isNone
def freeBlocks (s : State) (c d : Nat) : List Nat := (List.range (dieBlocks s c d)).filter (isFree s c d)

/-- Parity bytes of the groups that are not verified (R397). -/
def parityInUse (s : State) : Nat :=
  (s.flash.groups.filter fun g => !g.2.verified).foldl (fun n g => match g.2.members with
    | (c, d, _) :: _ => n + ppb s c d * 16384
    | [] => n) 0

/-- One free block for each channel from c down, on a die of the column; which die and which block is the FTL's choice and left open: free
values pick them. `pref` names the block that wear levelling wants. -/
def pickMembers (s : State) (col : Nat) (pref : Option (Nat × Nat × Nat)) : Nat → Option (List (Nat × Nat × Nat) × State)
  | 0 => some ([], s)
  | c + 1 =>
    match pickMembers s col pref c with
    | none => none
    | some (ms, s) =>
      match pref with
      | some (pc, pd, pb) =>
        if pc = c then some (ms ++ [(pc, pd, pb)], s) else pickOne ms s c
      | none => pickOne ms s c
where
  pickOne (ms : List (Nat × Nat × Nat)) (s : State) (c : Nat) : Option (List (Nat × Nat × Nat) × State) :=
    let fs := (freeBlocks s c (colDie col false)).map (fun b => (c, colDie col false, b))
      ++ (if Config.codeA then (freeBlocks s c (colDie col true)).map fun b => (c, colDie col true, b) else [])
    let (v, s) := drawFree s
    match fs[v.toNat % max 1 fs.length]? with
    | none => none
    | some m => some (ms ++ [m], s)

/-- A new parity group of a column and stream, within PARITY_CAP (R397). -/
def openGroup (s : State) (col : Nat) (reloc : Bool) (pref : Option (Nat × Nat × Nat)) : Option (Nat × State) :=
  if Config.parityCap < parityInUse s + ppb s 0 (colDie col false) * 16384 then none
  else match pickMembers s col pref 32 with
    | none => none
    | some (ms, s) =>
      let g := s.flash.groupNext
      let s := { s with flash := { s.flash with groupNext := g + 1, groups := mins s.flash.groups g { col := col, reloc := reloc, members := ms } } }
      some (g, ms.foldl (fun s m => setFblk s m.1 m.2.1 m.2.2 fun b => { b with group := some g }) s)

/-- The member of a group on a channel that still has a page to program. -/
def groupMember (s : State) (g : ParityGroup) (chan : Nat) : Option (Nat × Nat × Nat) :=
  g.members.find? fun m => decide (m.1 = chan) && decide ((fblkOf s m.1 m.2.1 m.2.2).wp < ppb s m.1 m.2.1)

/-- An open group of the column and stream with room on the channel. -/
def openGroupOf (s : State) (col chan : Nat) (reloc : Bool) : Option Nat :=
  (s.flash.groups.find? fun g => decide (g.2.col = col) && g.2.reloc == reloc && !g.2.closed && (groupMember s g.2 chan).isSome).map (·.1)

/-- A page program is issued in group g (R394). -/
def issueProgram (s : State) (g chan : Nat) (pg : NandPage) (w : ProgWaiter) : State :=
  match mfind s.flash.groups g with
  | none => s
  | some gr =>
    match groupMember s gr chan with
    | none => s
    | some (c, d, b) =>
      let p : PagePos := { chan := c, die := d, block := b, page := (fblkOf s c d b).wp }
      let (q, s) := takeSeq s chan
      let s := setFblk s c d b fun x => { x with wp := x.wp + 1 }
      { s with flash := { s.flash with programs := s.flash.programs ++ [{ pos := p, page := { pg with seq := q, group := some g }, waiter := w }] } }

/-- Unit u is written: in the open group of its column, or in a new one; a write that needs a new group while the cap is reached waits
(R397). -/
def programUnit (s : State) (u : Nat) (pg : NandPage) (reloc : Bool) (w : ProgWaiter) : State :=
  match openGroupOf s (unitCol u) (unitChan u) reloc with
  | some g => issueProgram s g (unitChan u) pg w
  | none =>
    match openGroup s (unitCol u) reloc none with
    | some (g, s) => issueProgram s g (unitChan u) pg w
    | none => { s with flash := { s.flash with stalled := s.flash.stalled ++ [(u, pg, w)] } }

/-- The channel takes writes of the data plane (R389, R402, R408). -/
def takesWrites (s : State) (u : Nat) : Bool :=
  !s.flash.stopped && decide (unitChan u ∉ s.flash.failedChans) && decide (unitChan u ∉ s.flash.readonly)

/-- The page image of a tile (R393, R79). -/
def tilePage (u : Nat) (t : Tile) : NandPage := { kind := 1, unit := u, hdr := t.hdr, payload := t.payload }

/-- A tier agent's write of a unit (R394); refused by a read-only or failed channel (NO_RESOURCES) and while the FTL is stopped. -/
def writeUnit (s : State) (u : Nat) (t : Tile) (w : ProgWaiter) : State × Bool :=
  if takesWrites s u then (programUnit s u (tilePage u t) false w, true) else (s, false)

/-- Writes that waited for a group are tried again (R397). -/
def retryStalled (s : State) : State :=
  s.flash.stalled.foldl (fun s x => programUnit s x.1 x.2.1 (match x.2.2 with | .moved _ => true | _ => false) x.2.2)
    { s with flash := { s.flash with stalled := [] } }

/-- A journal record is appended to the ring (R395). -/
def appendRecord (s : State) (r : MapRecord) : State := { s with flash := { s.flash with ring := s.flash.ring ++ [r] } }

/-- The map entry of unit u changes, with its journal record (R395). -/
def setMap (s : State) (u : Nat) (e : BitVec 32) (q : BitVec 48) (type : BitVec 8) : State :=
  appendRecord { s with flash := { s.flash with map := mput 0 s.flash.map u e } } { unit := u, entry := e, seq := q, type := type }

/-- A TRIM record for a unit of an extent that the Bureau unmaps (R395). -/
def trimUnit (s : State) (u : Nat) : State := setMap s u 0 (seqOf s (unitChan u / 8)) 2

/-- Units whose current page lies in a block (page number, page). -/
def validPages (s : State) (c d b : Nat) : List (Nat × NandPage) :=
  (fblkOf s c d b).pages.filter fun p =>
    p.2.kind = 1 && p.2.tagValid && entryState (mapOf s p.2.unit) = 1
      && decide (entryPos s p.2.unit (mapOf s p.2.unit) = { chan := c, die := d, block := b, page := p.1 })

/-- The valid units of a block are copied to the relocation stream: header and CRC unchanged, a new SEQ (R404, R43). -/
def relocateBlock (s : State) (c d b : Nat) : State :=
  (validPages s c d b).foldl (fun s p =>
    programUnit s p.2.unit { p.2 with dead := false } true (.moved { chan := c, die := d, block := b, page := p.1 })) s

/-- A block is retired: its units relocated, the record journalled, the event logged, the reserve judged (R402). -/
def retireBlock (s : State) (c d b cause : Nat) : State :=
  let n := (validPages s c d b).length
  let s := setFblk s c d b fun x => { x with retired := true, erasing := none }
  let s := relocateBlock s c d b
  let s := appendRecord s { unit := fblkKey c d b, entry := 0, seq := seqOf s (c / 8), type := 3 }
  let s := { s with flash := { s.flash with retiredCount := mcount s.flash.retiredCount c 1 } }
  checkHealth (logEvent s (.flashBlockRetired c d b cause n)) c

/-- The FINAL of a load (R303): skippedEdges keeps how the writing ended: 0 whole, 1 a channel took no write, else the AUX of the tile that failed. -/
def loadFinal (s : State) (h : Nat) (r : Request) : State :=
  let st : Status := if r.skippedEdges = 0 then .ok else if r.skippedEdges = 1 then .noResources else .badDescriptor
  finish s h st (finalBody r r.outCount 0 .none 0 (w32 (if r.skippedEdges ≤ 1 then 0 else r.skippedEdges))) []

/-- One write of a load is acknowledged; the FINAL follows the last (R303, R304). -/
def loadAck (s : State) (h : Nat) : State :=
  match reqOf s h with
  | none => s
  | some r =>
    if r.writesLeft ≤ 1 then
      let r := { r with writesLeft := 0 }
      loadFinal (setReq s h r) h r
    else setReq s h { r with writesLeft := r.writesLeft - 1 }

/-- The writer of a page is told that its program and its map entry are done (R394). -/
def ackWaiter (s : State) : ProgWaiter → State
  | .load h => loadAck s h
  | _ => s

/-- A group is closed when every member is full and no program of it is in progress (R398). -/
def closeGroup (s : State) (g : Nat) : State :=
  match mfind s.flash.groups g with
  | none => s
  | some gr =>
    if gr.members.all (fun m => decide (ppb s m.1 m.2.1 ≤ (fblkOf s m.1 m.2.1 m.2.2).wp))
        && !(s.flash.programs.any fun p => decide (p.page.group = some g)) then
      { s with flash := { s.flash with groups := mins s.flash.groups g { gr with closed := true } } }
    else s

/-- The page is newer than what the unit's entry names (R394). -/
def newer (s : State) (u : Nat) (q : BitVec 48) : Bool :=
  match entryState (mapOf s u) with
  | 1 => match pageAt s (entryPos s u (mapOf s u)) with
    | some p => decide (p.seq.toNat < q.toNat)
    | none => true
  | _ => true

/-- A completed program: the page is there, the entry names it, the record is journalled, the write is acknowledged (R394, R395). -/
def programDone (s : State) (x : PageProgram) : State :=
  let p := x.pos
  let s := setFblk s p.chan p.die p.block fun b => { b with pages := mins b.pages p.page x.page }
  let s := if x.page.kind = 1 && newer s x.page.unit x.page.seq then
      setMap s x.page.unit (mapEntry s (unitCol x.page.unit) p) x.page.seq 1 else s
  let s := ackWaiter s x.waiter
  match x.page.group with
  | some g => closeGroup s g
  | none => s

/-- FLASH_PROGRAM_DONE (R393 to R395, R397, R398, R402): program i in progress ends, well or by failure of its block. -/
def flashProgramDone (s : State) (i : Nat) (good : Bool) : State :=
  match s.flash.programs[i]? with
  | none => s
  | some x =>
    let s := { s with flash := { s.flash with programs := s.flash.programs.eraseIdx i } }
    if good then programDone s x
    else
      let s := retireBlock s x.pos.chan x.pos.die x.pos.block 0
      programUnit s x.page.unit x.page (match x.waiter with | .moved _ => true | _ => false) x.waiter

def execFlashProgramDone (i : Nat) (good : Bool) (s : State) : Out := .next (flashProgramDone s i good)

/-! ## Reads (R392, R399, R400) -/

/-- MAP_PORT_LOOKUP (R391, R392): the die and page; a busy program or erase of that die is suspended, at most 4 times. -/
def mapPort (s : State) (u : Nat) : State :=
  let e := mapOf s u
  let pos := entryPos s u e
  let r : PortReply := match entryState e with
    | 1 => { unit := u, pos := some pos }
    | 2 => { unit := u, lost := true }
    | _ => { unit := u }
  let s := { s with flash := { s.flash with port := s.flash.port ++ [r] } }
  if entryState e ≠ 1 then s
  else
    let busy := fun (p : PageProgram) => decide (p.pos.chan = pos.chan) && decide (p.pos.die = pos.die)
    let s := { s with flash := { s.flash with
      programs := s.flash.programs.map fun p => if busy p && decide (p.suspends < 4) then { p with suspends := p.suspends + 1 } else p } }
    { s with flash := { s.flash with
      blocks := mmap (fun k b => if k / 2 ^ 23 = fdieKey pos.chan pos.die then
          { b with erasing := b.erasing.map fun n => min 4 (n + 1) } else b) s.flash.blocks } }

def execMapPortLookup (u : Nat) (s : State) : Out := .next (mapPort s u)

/-- The extent whose HOME holds unit u, with its leaf key. -/
def extentOfUnit (s : State) (u : Nat) : Option (Nat × ExtentEntry) :=
  s.tier.leaves.find? fun e => e.2.valid && e.2.homeTier = 3 && decide (e.2.homeLoc.toNat = u / 128)

/-- The page's group is verified or gone, or its parity image was lost: no parity covers it (R397, R398, R406). -/
def groupVerified (s : State) (pg : NandPage) : Bool :=
  match pg.group with
  | none => true
  | some g => match mfind s.flash.groups g with
    | none => true
    | some gr => gr.verified || gr.parityGone

/-- FLASH_READ_DONE (R399, R400, R403, Table 4.8): a good read with few corrected bits does nothing more; one that needed retry or more
than 196 bits schedules a rewrite; an unreadable page is rebuilt from parity while its group is not verified, and is lost otherwise. -/
def flashReadDone (s : State) (u : Nat) (r : FlashRead) : State :=
  if entryState (mapOf s u) ≠ 1 then s
  else
    let pos := entryPos s u (mapOf s u)
    let s := { s with flash := { s.flash with
      unc := (List.replicate r.uncw (recNow s, pos.chan, pos.die, u)) ++ s.flash.unc } }
    let s := if 0 < r.uncw then checkHealth s pos.chan else s
    match pageAt s pos with
    | none => s
    | some pg =>
      if r.ok then
        if r.retried || decide (196 < r.bits) then
          setFblk s pos.chan pos.die pos.block fun b => { b with rewriteBy := some (recNow s + 60000000) }
        else s
      else if !groupVerified s pg then
        programUnit s u pg true (.moved pos)
      else
        let s := setFblk s pos.chan pos.die pos.block fun b => { b with pages := mins b.pages pos.page { pg with dead := true } }
        match extentOfUnit s u with
        | none => setMap s u (BitVec.ofNat 32 (2 * 2 ^ 30)) pg.seq 1
        | some (k, e) =>
          let s := if e.copyTier = 0 then setMap s u (BitVec.ofNat 32 (2 * 2 ^ 30)) pg.seq 1 else s
          if e.cls = 0 then { s with tier := { s.tier with leaves := mins s.tier.leaves k { e with lost := true } } } else s

def execFlashReadDone (u : Nat) (r : FlashRead) (s : State) : Out := .next (flashReadDone s u r)

/-! ## Journal and image (R395, R396) -/

/-- Groups not yet verified: the open ones of a checkpoint (R395). -/
def openGroups (s : State) : List Nat := (s.flash.groups.filter fun g => !g.2.verified).map (·.1)

/-- The checkpoint that ends a flush (R395). -/
def checkpointOf (s : State) (journalPos : Nat) : Checkpoint :=
  { groups := openGroups s
    members := (s.flash.groups.filter fun g => !g.2.verified).flatMap fun g => g.2.members.map fun m =>
      { chan := m.1, die := m.2.1, block := m.2.2, wp := (fblkOf s m.1 m.2.1 m.2.2).wp }
    journalPos := journalPos }

/-- The ring's records are written to the journal area, with a checkpoint (R395). -/
def flushJournal (s : State) : State :=
  let j := s.flash.journal ++ s.flash.ring
  { s with flash := { s.flash with journal := j, ring := [], flushedAt := now s, checkpoint := some (checkpointOf s j.length) } }

/-- MAP records in the ring (R395). -/
def ringMaps (s : State) : Nat := (s.flash.ring.filter fun r => r.type = 1).length

/-- JOURNAL_FLUSH (R395): 256 ms after the previous flush, or at 4,096 MAP records. -/
def journalFlush (s : State) : State :=
  if 256000 ≤ since s.flash.flushedAt (now s) ∨ 4096 ≤ ringMaps s then flushJournal s else s

def execJournalFlush (s : State) : Out := .next (journalFlush s)

/-- Segments of the map image: 4,096 entries each (R396). -/
def imageSegments : Nat := Config.tierFExtents * 128 / 4096

/-- A journal record is newer than a segment's SEQ, judged on its own die's counter (R394, R396). -/
def newerThan (r : MapRecord) (qs : List (BitVec 48)) : Bool :=
  decide ((qs.getD (r.seq.toNat / 2 ^ 46) 0).toNat < r.seq.toNat)

/-- MAP_IMAGE_SEGMENT (R396): the next segment of the rotation is written; journal records older than every segment of the image are
released. -/
def mapImageSegment (s : State) : State :=
  let g := s.flash.segNext
  let qs := (List.range 4).map (seqOf s)
  let es := s.flash.map.filter fun e => decide (e.1 / 4096 = g)
  let image := mins s.flash.image g (qs, es)
  let whole := decide (imageSegments ≤ image.length)
  { s with flash := { s.flash with
      image := image
      segNext := if g + 1 < imageSegments then g + 1 else 0
      journal := if whole then s.flash.journal.filter fun r => image.any fun x => newerThan r x.2.1 else s.flash.journal } }

def execMapImageSegment (s : State) : Out := .next (mapImageSegment s)

/-! ## Groups, wear, collection, erase (R398, R400, R401, R404, R405) -/

/-- GROUP_READBACK_DONE (R398): the group is verified when every page decodes well; a failing page is rebuilt from parity and relocated,
and the group is read back again. -/
def groupReadback (s : State) (g : Nat) (bad : List PagePos) : State :=
  match mfind s.flash.groups g with
  | none => s
  | some gr =>
    if !gr.closed || gr.verified then s
    else if bad = [] then
      retryStalled { s with flash := { s.flash with groups := mins s.flash.groups g { gr with verified := true } } }
    else bad.foldl (fun s p => match pageAt s p with
      | some pg => if pg.group = some g then programUnit s pg.unit { pg with dead := false } true (.moved p) else s
      | none => s) s

def execGroupReadbackDone (g : Nat) (bad : List PagePos) (s : State) : Out := .next (groupReadback s g bad)

/-- BLOCK_REWRITE (R400): the valid units of a block scheduled after a marginal read are relocated. -/
def blockRewrite (s : State) (c d b : Nat) : State :=
  if (fblkOf s c d b).rewriteBy.isNone then s
  else relocateBlock (setFblk s c d b fun x => { x with rewriteBy := none }) c d b

def execBlockRewrite (c d b : Nat) (s : State) : Out := .next (blockRewrite s c d b)

/-- Blocks of a channel's dies of a column that hold data: (die, block, state). -/
def dataBlocks (s : State) (c col : Nat) : List (Nat × Nat × FlashBlock) :=
  (s.flash.blocks.map fun e => (e.1 / 2 ^ 23 % 16, e.1 % 2 ^ 23, e.2, e.1 / 2 ^ 23 / 16)).filterMap fun x =>
    if x.2.2.2 = c ∧ (x.1 = colDie col false ∨ (Config.codeA ∧ x.1 = colDie col true)) ∧ x.2.2.1.pages ≠ [] ∧ !x.2.2.1.retired then
      some (x.1, x.2.1, x.2.2.1) else none

/-- Oldest SEQ of a block's pages. -/
def oldestSeq (b : FlashBlock) : Nat := b.pages.foldl (fun m p => min m p.2.seq.toNat) (2 ^ 48)

/-- The youngest block that holds data, and among equals the one with the oldest SEQ (R401). -/
def youngest (bs : List (Nat × Nat × FlashBlock)) : Option (Nat × Nat × FlashBlock) :=
  bs.foldl (fun m x => match m with
    | none => some x
    | some y => if x.2.2.pe < y.2.2.pe ∨ (x.2.2.pe = y.2.2.pe ∧ oldestSeq x.2.2 < oldestSeq y.2.2) then some x else some y) none

/-- The free block of the highest count on the channel's dies of a column (R401). -/
def wornFree (s : State) (c col : Nat) : Option (Nat × Nat × Nat) :=
  let fs := (freeBlocks s c (colDie col false)).map (fun b => (c, colDie col false, b))
    ++ (if Config.codeA then (freeBlocks s c (colDie col true)).map fun b => (c, colDie col true, b) else [])
  fs.foldl (fun m x => match m with
    | none => some x
    | some y => if (fblkOf s y.1 y.2.1 y.2.2).pe < (fblkOf s x.1 x.2.1 x.2.2).pe then some x else some y) none

/-- WEAR_LEVEL_MOVE (R401): when the spread exceeds WL_SPREAD, the coldest data moves from the youngest block to a free block of the highest
count; each die makes at most one move every 10 s. -/
def wearLevel (s : State) (c col : Nat) : State :=
  let bs := dataBlocks s c col
  let hi := bs.foldl (fun m x => max m x.2.2.pe) 0
  match youngest bs, wornFree s c col with
  | some (d, b, x), some m =>
    let k := fdieKey c d
    let recent := match mfind s.flash.movedAt k with
      | some t => decide (since t (recNow s) < 10000000)
      | none => false
    if hi - x.pe ≤ s.limits.wlSpread || recent then s
    else match openGroup s col true (some m) with
      | none => s
      | some (g, s) =>
        let s := { s with flash := { s.flash with movedAt := mins s.flash.movedAt k (recNow s) } }
        (validPages s c d b).foldl (fun s p => issueProgram s g c p.2 (.moved { chan := c, die := d, block := b, page := p.1 })) s
  | _, _ => s

def execWearLevelMove (c col : Nat) (s : State) : Out := .next (wearLevel s c col)

/-- GARBAGE_COLLECT (R404): with fewer than 4 free blocks on the die, the block of the die with the fewest valid units is copied. -/
def garbageCollect (s : State) (c d : Nat) : State :=
  if 4 ≤ (freeBlocks s c d).length then s
  else
    let full := s.flash.blocks.filter fun e => decide (e.1 / 2 ^ 23 = fdieKey c d) && decide (ppb s c d ≤ e.2.wp) && !e.2.retired && e.2.erasing.isNone
    let best := full.foldl (fun (m : Option (Nat × Nat)) e =>
      let n := (validPages s c d (e.1 % 2 ^ 23)).length
      match m with
      | none => some (e.1 % 2 ^ 23, n)
      | some y => if n < y.2 then some (e.1 % 2 ^ 23, n) else some y) none
    match best with
    | none => s
    | some (b, _) => relocateBlock s c d b

def execGarbageCollect (c d : Nat) (s : State) : Out := .next (garbageCollect s c d)

/-- The erase fence: no valid unit is left, no program copies from the block, and the records of every unit moved from it are flushed (R405). -/
def eraseReady (s : State) (c d b : Nat) : Bool :=
  let x := fblkOf s c d b
  decide (0 < x.wp) && x.erasing.isNone && !x.retired && (validPages s c d b).isEmpty
    && !(s.flash.programs.any fun p => decide (p.pos.chan = c ∧ p.pos.die = d ∧ p.pos.block = b)
          || (match p.waiter with | .moved q => decide (q.chan = c ∧ q.die = d ∧ q.block = b) | _ => false))
    && !(s.flash.ring.any fun r => decide (r.type ≠ 3) && x.pages.any fun p => decide (p.2.unit = r.unit))

/-- BLOCK_ERASE (R405): the erase of a block starts behind the fence. -/
def blockErase (s : State) (c d b : Nat) : State :=
  if eraseReady s c d b then setFblk s c d b fun x => { x with erasing := some 0 } else s

def execBlockErase (c d b : Nat) (s : State) : Out := .next (blockErase s c d b)

/-- FLASH_ERASE_DONE (R402, R405): the block joins the free pool, or is retired when the erase failed. -/
def eraseDone (s : State) (c d b : Nat) (good : Bool) : State :=
  if (fblkOf s c d b).erasing.isNone then s
  else if good then
    let s := setFblk s c d b fun x => { pe := x.pe + 1 }
    retryStalled (checkHealth s c)
  else retireBlock s c d b 1

def execFlashEraseDone (c d b : Nat) (good : Bool) (s : State) : Out := .next (eraseDone s c d b good)

/-! ## Rebuild and flush (R406 to R408) -/

/-- The highest SEQ of a TRIM record of a unit in the flushed journal (R406). -/
def trimSeq (j : List MapRecord) (u : Nat) : Nat :=
  (j.filter fun r => r.type = 2 && decide (r.unit = u)).foldl (fun m r => max m r.seq.toNat) 0

/-- Records in SEQ order (insertion by SEQ). -/
def insRecord (r : MapRecord) : List MapRecord → List MapRecord
  | [] => [r]
  | x :: l => if r.seq.toNat < x.seq.toNat then r :: x :: l else x :: insRecord r l
def sortRecords (l : List MapRecord) : List MapRecord := l.foldl (fun a r => insRecord r a) []

/-- The map of the newest image with the flushed journal replayed (R406). -/
def mapFromFlash (s : State) : Map (BitVec 32) :=
  let base := s.flash.image.foldl (fun m g => g.2.2.foldl (fun m e => mput 0 m e.1 e.2) m) []
  let recs := s.flash.journal.filter fun r => decide (r.type ≠ 3) && (match mfind s.flash.image (r.unit / 4096) with
    | some g => newerThan r g.1
    | none => true)
  (sortRecords recs).foldl (fun m r => mput 0 m r.unit r.entry) base

/-- What a tag scan has found so far: the state, pages scanned, repaired, units lost (R406, Table 17.8). -/
structure ScanCount where
  scanned : Nat := 0
  repaired : Nat := 0
  lost : Nat := 0
deriving DecidableEq, Repr

/-- One page of the tag scan (R406). -/
def scanPage (repairable : Bool) (pos : PagePos) (pg : NandPage) (acc : State × ScanCount) : State × ScanCount :=
  let (s, n) := acc
  let n := { n with scanned := n.scanned + 1 }
  if pg.dead && !repairable then
    if pg.kind = 1 && newer s pg.unit pg.seq then
      ({ s with flash := { s.flash with map := mput 0 s.flash.map pg.unit (BitVec.ofNat 32 (2 * 2 ^ 30)) } }, { n with lost := n.lost + 1 })
    else (s, n)
  else
    let n := if pg.dead then { n with repaired := n.repaired + 1 } else n
    let s := if pg.dead then setFblk s pos.chan pos.die pos.block fun b => { b with pages := mins b.pages pos.page { pg with dead := false } } else s
    if !pg.tagValid || pg.kind ≠ 1 || decide (pg.seq.toNat < trimSeq s.flash.journal pg.unit) || !newer s pg.unit pg.seq then (s, n)
    else ({ s with flash := { s.flash with map := mput 0 s.flash.map pg.unit (mapEntry s (unitCol pg.unit) pos) } }, n)

/-- Pages of a member from its write pointer to the first erased page (R406). -/
def scanMember (flushed : Bool) (m : MemberPtr) (acc : State × ScanCount) : State × ScanCount :=
  ((fblkOf acc.1 m.chan m.die m.block).pages.filter fun p => decide (m.wp ≤ p.1)).foldl
    (fun acc p => scanPage flushed { chan := m.chan, die := m.die, block := m.block, page := p.1 } p.2 acc) acc

/-- Blocks with no valid tag are freed, partly erased blocks re-erased (R406). -/
def freeStale (s : State) : State :=
  { s with flash := { s.flash with blocks := (mmap (fun _ b =>
      if b.retired then b
      else if b.erasing.isSome || (b.pages ≠ [] && b.pages.all fun p => !p.2.tagValid) then { pe := b.pe + 1 }
      else if b.pages = [] then { b with wp := 0, group := none, erasing := none } else b) s.flash.blocks).filter fun e => decide (e.2 ≠ {}) } }

/-- The highest SEQ found on a die's channels (R394). -/
def highestSeq (s : State) (fc : Nat) : Nat :=
  s.flash.blocks.foldl (fun m b => if b.1 / 2 ^ 23 / 16 / 8 = fc then b.2.pages.foldl (fun m p => max m p.2.seq.toNat) m else m) (fc * 2 ^ 46)

/-- FTL_COLD_REBUILD (R394, R406): after power-on and HOST_PERST_N. -/
def coldRebuild (s : State) (ms : Nat) : State :=
  if !s.flash.rebuilding then s
  else
    let flushed := s.flash.flushMark.isSome
    let s := { s with flash := { s.flash with map := mapFromFlash s, ring := [], programs := [], stalled := [] } }
    let ms' := (s.flash.checkpoint.map (·.members)).getD []
    let (s, n) := ms'.foldl (fun acc m => scanMember flushed m acc) (s, {})
    let s := freeStale s
    let s := { s with flash := { s.flash with
      groups := if flushed then s.flash.groups else mmap (fun _ g => { g with parityGone := g.parityGone || !g.verified }) s.flash.groups
      seq := (List.range 4).foldl (fun m fc => mins m fc (BitVec.ofNat 48 (highestSeq s fc + 2 ^ 20))) s.flash.seq
      flushMark := none, rebuilding := false, stopped := false, flushedAt := now s } }
    logEvent s (.flashRebuild true ms n.scanned n.repaired n.lost)

def execFtlColdRebuild (ms : Nat) (s : State) : Out := .next (coldRebuild s ms)

/-- FTL_WARM_REBUILD (R407): map entries whose burst CRC fails are taken from image and journal again, the journal is flushed, the open
groups resume. -/
def warmRebuild (s : State) (bad : List Nat) (ms : Nat) : State :=
  let s := flushJournal s
  let m := mapFromFlash s
  let s := { s with flash := { s.flash with
    map := bad.foldl (fun a u => mput 0 a u (mget 0 m u)) s.flash.map, stopped := false, rebuilding := false } }
  logEvent s (.flashRebuild false ms bad.length bad.length 0)

def execFtlWarmRebuild (bad : List Nat) (ms : Nat) (s : State) : Out := .next (warmRebuild s bad ms)

/-- The hold-up flush (Table 17.7): programs in progress finish, erases are reset, the journal tail and a checkpoint are written, then the
parity images and the flush mark when the bank lasts; POWER_LOSS_FLUSH is logged. -/
def powerFlush (s : State) (complete : Bool) (us : Nat) : State :=
  let s := { s with flash := { s.flash with stopped := true } }
  let s := s.flash.programs.foldl programDone { s with flash := { s.flash with programs := [] } }
  let s := { s with flash := { s.flash with blocks := mmap (fun _ b => if b.erasing.isSome then
      { b with pages := mmap (fun _ p => { p with tagValid := false }) b.pages } else b) s.flash.blocks } }
  let recs := s.flash.ring.length
  let s := flushJournal s
  let s := { s with flash := { s.flash with flushMark := if complete then some (openGroups s) else none } }
  logEvent s (.powerLossFlush us (if complete then parityInUse s / 2 ^ 20 else 0) recs complete)

end Sys2Proof.Machine
end

