-- ==== Sys2Proof/Machine/Tier.lean ====
section
/-! DEFINITION. Chapter 04: the tier table, tier agents, write-back, migration, LPDDR6, weight streaming, late and failed data. -/

namespace Sys2Proof.Machine

/-! ## Extent entries (R63 to R68) -/

/-- Key of extent x in the leaves, through its directory entry (R64). -/
def entryKey (s : State) (x : Nat) : Option Nat := (mfind s.tier.dir (x / 16384)).map fun leaf => leaf.toNat * 16384 + x % 16384

/-- entry(x): none when the directory entry or the extent entry has VALID 0 (R64). -/
def entryOf (s : State) (x : Nat) : Option ExtentEntry :=
  match entryKey s x with
  | none => none
  | some k => match mfind s.tier.leaves k with
    | none => none
    | some e => if e.valid then some e else none

/-- The entry of extent x changed. -/
def setEntry (s : State) (x : Nat) (f : ExtentEntry → ExtentEntry) : State :=
  match entryKey s x with
  | none => s
  | some k => { s with tier := { s.tier with leaves := mmod {} s.tier.leaves k f } }

/-- Extent and tile of a device-range tile number (address bits [47:14], R63). -/
def devExtent (n : Nat) : Nat := n / 128
def devPos (n : Nat) : BitVec 7 := BitVec.ofNat 7 n

/-- place(e, t) of R70: tier and tile number within it. -/
def place (e : ExtentEntry) (t : BitVec 7) : BitVec 2 × Nat :=
  if e.mstate = 1 && decide (t.toNat < e.movePtr.toNat) then (e.newTier, 128 * e.newLoc.toNat + t.toNat)
  else (e.copyTier, 128 * e.copyLoc.toNat + t.toNat)

/-- Where a read of an entry goes: place, and HOME for an RO extent without a copy (R67). -/
def readPlace (e : ExtentEntry) (t : BitVec 7) : BitVec 2 × Nat :=
  if e.cls = 0 && e.copyTier = 0 then (e.homeTier, 128 * e.homeLoc.toNat + t.toNat) else place e t

/-- Header fields that tiers L and F keep (R79); SCALE_INDEX holds SCALE_REL. -/
def storedHeader (h : TileHeader) : TileHeader :=
  { hasScale := h.hasScale, scaleSlot := h.scaleSlot, tenant := h.tenant, world := h.world, cls := h.cls, format := h.format,
    anchor := h.anchor, cols := h.cols, rows := h.rows, crc := h.crc, scaleIndex := h.scaleIndex }

/-- The stored header of a tile in store slot n: SCALE_REL is the distance from the tile to its scale tile (R79). -/
def storedFrom (n : TileIdx) (h : TileHeader) : TileHeader := { storedHeader h with scaleIndex := h.scaleIndex - n }

/-- Tile n of tier L; memory that nothing has written reads as zero. -/
def lTile (s : State) (n : Nat) : LTile := mget {} s.tier.lmem n

/-- Tile n of tier L written, with dirty bit d (R72, R79). -/
def putL (s : State) (n : Nat) (t : Tile) (d : Bool) : State :=
  { s with tier := { s.tier with lmem := mput {} s.tier.lmem n { hdr := storedHeader t.hdr, payload := t.payload, dirty := d } } }

/-- The tile at a place, as far as there is one: a POISONED tile of tier S, an unreadable or unmapped unit of tier F gives none. -/
def tileAt (s : State) (p : BitVec 2 × Nat) : Option Tile :=
  match p.1.toNat with
  | 1 =>
    let x := slotOf s (BitVec.ofNat 17 p.2)
    if (x.hdr.state = .ready || x.hdr.state = .held) && !x.hdr.poison then
      some { hdr := storedFrom (BitVec.ofNat 17 p.2) x.hdr, payload := x.payload } else none
  | 2 => some { hdr := (lTile s p.2).hdr, payload := (lTile s p.2).payload }
  | 3 => match readUnit s p.2 with
    | .tile t => some t
    | _ => none
  | _ => none

/-- The tile of device-range tile n in store slot i, as the tier machinery places it there (R80). -/
def slotTile (t : Tile) (e : ExtentEntry) (n : Nat) (i : TileIdx) : Slot :=
  { hdr := { storedHeader t.hdr with
      scaleIndex := i + t.hdr.scaleIndex, srcValid := true, srcTile := BitVec.ofNat 34 n, shared := e.shared && e.cls = 0, owner := e.owner
      state := .ready, persist := true, world := e.world }
    payload := t.payload }

/-- Device-range tile n written at a place of tier S or L (R70, R80). A write to a tier-S slot that is not FREE is refused by the store
(R48, R52), but where the Bureau directs it, which frees the slot first. -/
def putAt (s : State) (p : BitVec 2 × Nat) (t : Tile) (e : ExtentEntry) (n : Nat) (bureau : Bool) : State :=
  match p.1.toNat with
  | 1 =>
    let i := BitVec.ofNat 17 p.2
    if bureau || (slotOf s i).hdr.state = .free then announce (setSlot s i fun _ => slotTile t e n i) i
    else refuseWrite s 0x3C 0 i { owner := e.owner } 1
  | 2 => putL s p.2 t (decide (e.cls = 1))
  | _ => s

/-! ## Device-range contents, as the module's own agents read and write them -/

/-- The tile of a device-range tile number; none when it is not mapped or cannot be read. -/
def devTile (s : State) (n : Nat) : Option Tile := (entryOf s (devExtent n)).bind fun e => tileAt s (readPlace e (devPos n))

/-- len bytes at a device-range byte address within one tile. -/
def devBytes (s : State) (addr len : Nat) : Bytes := slice (((devTile s (addr / 16384)).map (·.payload)).getD []) (addr % 16384) len

/-- len bytes from a device-range byte address on, over tile ends (k counts the tiles left). -/
def devSpan (s : State) : Nat → Nat → Nat → Bytes
  | 0, _, _ => []
  | k + 1, addr, len =>
    if len = 0 then []
    else
      let n := min len (16384 - addr % 16384)
      devBytes s addr n ++ devSpan s k (addr + n) (len - n)

/-- len bytes from a device-range byte address on. -/
def devRead (s : State) (addr len : Nat) : Bytes := devSpan s (len / 16384 + 2) addr len

/-- The little-endian number in len bytes at a device-range byte address. -/
def devNum (s : State) (addr len : Nat) : Nat := leNat (devRead s addr len)

/-- A tile of a WB or SCR extent written at its place, and marked dirty (R70, R72). -/
def devWrite (s : State) (n : Nat) (t : Tile) : State :=
  match entryOf s (devExtent n) with
  | none => s
  | some e =>
    let s := putAt s (place e (devPos n)) t e n false
    if e.cls = 1 then
      let s := setEntry s (devExtent n) fun e => { e with tilemap := e.tilemap ||| BitVec.ofNat 128 (2 ^ (devPos n).toNat) }
      { s with tier := { s.tier with dirtyAt := if (mfind s.tier.dirtyAt n).isSome then s.tier.dirtyAt else mins s.tier.dirtyAt n (recNow s) } }
    else s

/-- Bytes at a device-range byte address within one tile replaced: the writer verifies the CRC of the tile it changes, leaves a tile that fails
as it is, with an event, and computes the CRC of the result (R42, R43). A tile that nothing has written yet has no CRC to verify. -/
def devPatch (s : State) (addr : Nat) (data : Bytes) : State :=
  let n := addr / 16384
  match devTile s n with
  | none => s
  | some t =>
    if t.good then devWrite s n (Tile.sealed { t with payload := splice (pad 16384 t.payload) (addr % 16384) data })
    else logEvent s (.unnamed 16 0x3F [w32 n, w32 (addr % 16384)])

/-! ## Mirrored extents (R373) -/

/-- Extent x holds bytes of a region. -/
def overlaps (x base len : Nat) : Bool := 0 < len && base / 2 ^ 21 ≤ x && x ≤ (base + len - 1) / 2 ^ 21

/-- Bytes of a row slot of width w (Table 11.2). -/
def slotBytes (c w : Nat) : Nat :=
  let raw := if w = 0 then c / 2 + c / 32 else if w = 1 then c else 2 * c
  (raw + 63) / 64 * 64

/-- Row slots of width w in a tile (Table 11.2). -/
def slotsPerTile (c w : Nat) : Nat := 16384 / max 1 (slotBytes c w)

/-- Bytes of the region of width w of a table: its hot tiles, or tiles enough for every row. -/
def regionBytes (r : TableRec) (w : Nat) : Nat :=
  16384 * (if w = 2 then r.hotTiles else r.rows / max 1 (slotsPerTile r.cols w) + 1)

def IndexRec.mirrors (r : IndexRec) (x : Nat) : Bool :=
  overlaps x r.deltaBase (16384 * r.deltaTiles) || overlaps x r.tombBase (16384 * r.tombTiles)
    || overlaps x r.listdirBase (32 * r.centroids) || overlaps x r.insertBase (16384 * (r.insertNext.toNat % 2 ^ 39 / 8 + 1))

def TableRec.mirrors (r : TableRec) (x : Nat) : Bool :=
  overlaps x r.mapBase (8 * r.rows) || overlaps x r.hotBase (regionBytes r 2) || overlaps x r.warmBase (regionBytes r 1)
    || overlaps x r.coldBase (regionBytes r 0)

/-- Extent x is a mirrored extent (R373). -/
def mirrored (s : State) (x : Nat) : Bool :=
  (s.gen.indexes.any fun r => r.2.mirrors x) || (s.gen.tables.any fun r => r.2.mirrors x)

/-- Extent x holds access counters of a table (Table 4.8, R261). -/
def isCounter (s : State) (x : Nat) : Bool := s.gen.tables.any fun r => overlaps x r.2.countBase r.2.rows

/-! ## Access checks and replies (R64, R68, R337, R339) -/

/-- The check of R68. -/
def tierCheck (rq : TierReq) (e : ExtentEntry) : TierStatus :=
  if rq.bureau then .ok
  else if !rq.world && e.world then .worldFault
  else if decide (e.tenant ≠ rq.tenant) && !e.shared then .tenantFault
  else .ok

/-- Step epoch of the partition that asks; 0 for other requesters. -/
def askEpoch (s : State) (rq : TierReq) : Epoch := match partField rq.part with
  | some p => (partOf s p).step.epoch
  | none => 0

/-- The answer to a requester. -/
def tierReply (s : State) (rq : TierReq) (x : Nat) (t : BitVec 7) (st : TierStatus) (tile : Option Tile) : State :=
  { s with tier := { s.tier with replies := s.tier.replies ++ [{ part := rq.part, x := x, t := t, status := st, tile := tile }] } }

/-- The key of a device-range tile in a row-ownership map: store tiles come first. -/
def devOwnerKey (n : Nat) : Nat := 2 ^ 17 + n

/-- The status that a tier failure gives the requests that own the access (R337, Table 4.8). A data-plane write to an RO extent has no status
in the manual: the model gives PROGRAM_MISMATCH (DESIGN CHOICE, log entry 130). -/
def tierFailure : TierStatus → Option Status
  | .translation => some .programMismatch
  | .worldFault => some .accessWorld
  | .tenantFault => some .accessTenant
  | .media => some .mediaError
  | .readOnly => some .programMismatch
  | .ok => none
  | .late => none

/-- The event and the counter of a refused access (R339). -/
def tierEvent (s : State) (rq : TierReq) (x : Nat) (e : Option ExtentEntry) : TierStatus → State
  | .translation => countTenant (logEvent s (.translationFault x rq.die rq.part.toNat (askEpoch s rq))) rq.tenant 3 1
  | .worldFault => countTenant (logEvent s (.accessWorld rq.die 0 2 x rq.part.toNat (askEpoch s rq))) rq.tenant 2 1
  | .tenantFault =>
    countTenant (logEvent s (.accessTenant rq.die rq.tenant ((e.map (·.tenant)).getD 0) 2 x (askEpoch s rq))) rq.tenant 1 1
  | _ => s

/-- A failed access: answer, event, and the step that does not commit (R337, R92). -/
def tierFail (s : State) (rq : TierReq) (x : Nat) (t : BitVec 7) (e : Option ExtentEntry) (st : TierStatus) (key : Nat) : State :=
  let s := tierEvent (tierReply s rq x t st none) rq x e st
  match tierFailure st, partField rq.part with
  | some f, some p => refuseAccess s p key f
  | _, _ => s

/-! ## Reads (R69, R70, R79, R80, R92) -/

/-- The subchannel of an L tile, and the memory-channel die that holds its channel unit. -/
def subOf (n : Nat) : Nat := n % 256
def channelDie (n : Nat) : DieId := BitVec.ofNat 6 (0x20 + subOf n / 16)

/-- Tile t of extent x has proved unreadable: LOST of the extent is set (Table 4.8). -/
def setLost (s : State) (x : Nat) (t : BitVec 7) : State :=
  setEntry { s with tier := { s.tier with lostTiles := withLast (128 * x + t.toNat) s.tier.lostTiles } } x fun e => { e with lost := true }

/-- LOAD_EXTENT fills tile n again: LOST goes with the extent's last lost tile (Table 4.8). -/
def clearLost (s : State) (n : Nat) : State :=
  let s := { s with tier := { s.tier with lostTiles := without n s.tier.lostTiles } }
  if s.tier.lostTiles.any fun m => decide (devExtent m = devExtent n) then s else setEntry s (devExtent n) fun e => { e with lost := false }

/-- A tile put back into tier L from another source: it is to be read back (R94). -/
def putBack (s : State) (dev n : Nat) (tl : Tile) (dirty : Bool) : State :=
  let s := putL s n tl dirty
  { s with tier := { s.tier with refetched := mins s.tier.refetched dev tl } }

/-- Tile t refetched from HOME in tier F into L tile n (Table 4.8); none when HOME cannot give it. -/
def refetch (s : State) (x n : Nat) (e : ExtentEntry) (t : BitVec 7) : State × Option Tile :=
  if e.homeTier = 3 then
    match readUnit s (128 * e.homeLoc.toNat + t.toNat) with
    | .tile tl => (putBack s (128 * x + t.toNat) n tl false, some tl)
    | _ => (s, none)
  else (s, none)

/-- A WB tile that neither tier gives (Table 4.8): a counter tile becomes zeros; a tile of a mirrored extent is asked of the partner, and what it
answers is written as any write is, so that it reaches HOME again; any other is lost. -/
def recoverWb (s : State) (x n : Nat) (e : ExtentEntry) (t : BitVec 7) : State × Option Tile × Bool :=
  if isCounter s x then
    let z : Tile := Tile.sealed { hdr := (lTile s n).hdr, payload := List.replicate 16384 0 }
    (logEvent (putBack s (128 * x + t.toNat) n z true) (.unnamed 15 (channelDie n) [w32 x, w32 t.toNat]), some z, false)
  else
    let a := BitVec.ofNat 48 ((128 * x + t.toNat) * 16384)
    if mirrored s x && linkLive s && decide (a ∉ s.pair.failedReads) then
      let s := { s with pair := { s.pair with reads := withLast a s.pair.reads } }
      (sendMsg s { type := 0x50, tenant := e.tenant } (.addr a), none, true)
    else (setLost { s with pair := { s.pair with failedReads := without a s.pair.failedReads } } x t, none, false)

/-- A tile uncorrectable in tier L (Table 4.8): the tile if a source gives it, and whether the reader is to wait for the mirror. -/
def recoverL (s : State) (x n : Nat) (e : ExtentEntry) (t : BitVec 7) : State × Option Tile × Bool :=
  if e.cls = 0 then
    match refetch s x n e t with
    | (s, some tl) => (s, some tl, false)
    | (s, none) => (if e.homeTier = 3 then setLost s x t else s, none, false)
  else if e.cls = 1 then
    match (if e.tilemap.getLsbD t.toNat then (s, none) else refetch s x n e t) with
    | (s, some tl) => (s, some tl, false)
    | (s, none) => recoverWb s x n e t
  else (s, none, false)

/-! ## Bursts (R77 to R79) -/

/-- Burst bits [287:272] of a tile of an extent (Table 4.5): TAG is device-range address bits [25:14]. -/
def burstFields (e : ExtentEntry) (dev : Nat) (dirty : Bool) : Nat :=
  dev % 4096 + b2n (dirty && e.cls = 1) * 2 ^ 12 + b2n e.world * 2 ^ 13 + e.cls.toNat * 2 ^ 14

/-- BCRC over the 32 payload bytes, then burst bits [279:272], then bits [287:280] (R78). -/
def bcrcOf (b : BitVec 288) : BitVec 16 := crc16 (toLE 32 (b.toNat % 2 ^ 256) ++ toLE 2 (b.toNat / 2 ^ 272))

/-- Burst k of a payload, with its fields (Table 4.5). -/
def burstOf (fields : Nat) (payload : Bytes) (k : Nat) : BitVec 288 :=
  let b := BitVec.ofNat 288 (rd payload (32 * k) 32 + fields * 2 ^ 272)
  b ||| BitVec.ofNat 288 ((bcrcOf b).toNat * 2 ^ 256)

/-- The burst bits at the beats and DQs given: beat b, DQ d is burst bit 12b + d (R77). -/
def burstMask (l : List (BitVec 5 × BitVec 4)) : BitVec 288 :=
  l.foldl (fun m x => if x.1.toNat < 24 ∧ x.2.toNat < 12 then m ^^^ BitVec.ofNat 288 (2 ^ (12 * x.1.toNat + x.2.toNat)) else m) 0

/-- A burst passes: its BCRC holds and its TAG is that of the address read (R79). -/
def burstPasses (tag : Nat) (b : BitVec 288) : Bool :=
  decide (bits b.toNat 271 256 = (bcrcOf b).toNat) && decide (bits b.toNat 283 272 = tag)

/-- What reading a payload's bursts finds (R79). -/
structure BurstRead where
  payload : Bytes
  corrected : Nat := 0
  bad : Bool := false
  tagBad : Bool := false
deriving DecidableEq, Repr

/-- One disturbed burst is read, and read once more when it fails (R79). -/
def readBurst (fields : Nat) (r : BurstRead) (u : BurstUpset) : BurstRead :=
  let k := u.burst.toNat
  let tag := fields % 4096
  let b := burstOf fields r.payload k
  let one := b ^^^ burstMask u.first
  let two := b ^^^ burstMask u.second
  let take := fun (x : BitVec 288) => splice r.payload (32 * k) (toLE 32 (x.toNat % 2 ^ 256))
  if burstPasses tag one then { r with payload := take one }
  else if burstPasses tag two then { r with payload := take two, corrected := r.corrected + 1 }
  else { r with bad := true, tagBad := r.tagBad || decide (bits two.toNat 283 272 ≠ tag) }

/-- The bursts of a payload as a read finds them. -/
def readBursts (fields : Nat) (payload : Bytes) (f : BurstFault) : BurstRead := f.foldl (readBurst fields) { payload := payload }

/-- First failures that a second read cured are counted and logged as corrected; a TAG mismatch that persists is logged as an address fault (R79). -/
def noteBursts (s : State) (n : Nat) (r : BurstRead) : State :=
  let s := if r.corrected = 0 then s else
    logEvent { s with tier := { s.tier with burstCorrected := mcount s.tier.burstCorrected (subOf n) r.corrected } }
      (.unnamed 11 (channelDie n) [w32 (subOf n), w32 n, w32 r.corrected])
  if r.tagBad then logEvent s (.unnamed 12 (channelDie n) [w32 (subOf n), w32 n]) else s

/-- A read of L tile n, with what its bursts show (R79). -/
def readL (s : State) (x n : Nat) (e : ExtentEntry) (t : BitVec 7) (f : BurstFault) : State × Option Tile × Bool :=
  let l := lTile s n
  let r := readBursts (burstFields e (128 * x + t.toNat) l.dirty) l.payload f
  let s := noteBursts s n r
  if r.bad then recoverL s x n e t else (s, some { hdr := l.hdr, payload := r.payload }, false)

/-- The place of HOME of tile t. -/
def homePlace (e : ExtentEntry) (t : BitVec 7) : BitVec 2 × Nat := (e.homeTier, 128 * e.homeLoc.toNat + t.toNat)

/-- The tile was lost and is not filled again (Table 4.8); a copy of an RO extent is still used. -/
def isLost (s : State) (x : Nat) (e : ExtentEntry) (t : BitVec 7) : Bool :=
  decide (128 * x + t.toNat ∈ s.tier.lostTiles) && (e.cls ≠ 0 || decide (readPlace e t = homePlace e t))

/-- A tile of a tier-S place: a POISONED tile of an RO extent is filled again from HOME (Table 4.8). -/
def readS (s : State) (x : Nat) (e : ExtentEntry) (t : BitVec 7) (n : Nat) : State × Option Tile :=
  match tileAt s (1, n) with
  | some tl => (s, some tl)
  | none =>
    if e.cls = 0 && (slotOf s (BitVec.ofNat 17 n)).hdr.poison then
      match tileAt s (homePlace e t) with
      | some tl => (putAt s (1, n) tl e (128 * x + t.toNat) true, some tl)
      | none => (s, none)
    else (s, none)

/-- A tile read where the entry places it (R70), with its outcome. -/
def readEntry (s : State) (x : Nat) (e : ExtentEntry) (t : BitVec 7) (f : BurstFault) : State × TierStatus × Option Tile :=
  let p := readPlace e t
  if isLost s x e t then (s, .media, none)
  else match p.1.toNat with
  | 2 => match readL s x p.2 e t f with
    | (s, some tl, _) => (s, .ok, some tl)
    | (s, none, true) => (s, .late, none)
    | (s, none, false) => (s, .media, none)
  | 3 => match readUnit s p.2 with
    | .tile tl => (s, .ok, some tl)
    | .lost => (setLost s x t, .media, none)
    | .unmapped => (s, .translation, none)
  | _ => match readS s x e t p.2 with
    | (s, some tl) => (s, .ok, some tl)
    | (s, none) => (s, .media, none)

/-- The header that a load writes into the store (R80). -/
def loadHeader (h : TileHeader) (e : ExtentEntry) (n : Nat) (d : LoadDest) : TileHeader :=
  { storedHeader h with
    scaleIndex := d.tile + h.scaleIndex, srcValid := true, srcTile := BitVec.ofNat 34 n, shared := e.shared, owner := d.owner,
    epoch := d.epoch, prod := d.prod, out := d.out, persist := d.persist }

/-- The translation that a read uses: the agent's cached one of an RO extent, else the entry; WB and SCR extents always the entry (R69). -/
def translate (s : State) (rq : TierReq) (x : Nat) : Option ExtentEntry :=
  match entryOf s x with
  | some e =>
    if e.cls ≠ 0 then some e
    else match s.tier.cache.find? fun c => decide (c.1 = rq.part) && decide (c.2.1 = x) with
      | some c => some c.2.2
      | none => some e
  | none => none

/-- Cached translations of an extent go when its entry changes its attributes (R69). -/
def dropCached (s : State) (x : Nat) : State :=
  { s with tier := { s.tier with cache := s.tier.cache.filter fun c => decide (c.2.1 ≠ x) } }

/-- The extent is one of the CXL.mem window (R84). -/
def isWindow (s : State) (x : Nat) : Bool := decide (x < 512 * s.tier.windowSize.toNat)

/-- The data plane reaches window bytes only through a descriptor, by the host die (R85); the status of another access the manual does not
give: the model takes it as a translation fault (DESIGN CHOICE, log entry 131). -/
def windowBarred (s : State) (rq : TierReq) (x : Nat) : Bool := isWindow s x && decide (rq.die ≠ 0x3C) && !rq.bureau

/-- The place lies in a subchannel that retrains: requests to it wait (R82). -/
def retrains (s : State) (p : BitVec 2 × Nat) : Bool := p.1 = 2 && decide (BitVec.ofNat 8 p.2 ∈ s.tier.retraining)

/-- The block of a memory-channel die that serves L tile n (R84: channel unit and subchannel have one number). -/
def channelBlock (n : Nat) : BlockId := { die := channelDie n, block := BitVec.ofNat 4 (subOf n % 16) }

/-- A step of the partition, or a phase of the turn conductor, is in progress (R69). -/
def inProgress (s : State) (part : BitVec 6) : Bool :=
  match partField part with
  | some p => (partOf s p).step.running
  | none => part = 0x3E && s.host.requests.any fun r => r.2.phase ∈ [.walk, .scan, .merge, .fetch, .pack]

/-- The translation of an RO extent is kept for the step or phase in progress (R69). -/
def keepTranslation (s : State) (rq : TierReq) (x : Nat) (e : ExtentEntry) : State :=
  if e.cls = 0 && inProgress s rq.part then { s with tier := { s.tier with cache := withLast (rq.part, x, e) s.tier.cache } } else s

/-- The read itself, after its checks (R70, R79, R80, R92). -/
def tierReadGo (s : State) (rq : TierReq) (x : Nat) (t : BitVec 7) (e : ExtentEntry) (d : LoadDest) (f : BurstFault) : State :=
  match readEntry (keepTranslation s rq x e) x e t f with
  | (s, .ok, some tl) =>
    let h := loadHeader tl.hdr e (128 * x + t.toNat) d
    let s := writeTile s (channelDie (readPlace e t).2) d.tile { hdr := h, payload := tl.payload } e.world
    tierReply s rq x t .ok (some tl)
  | (s, .late, _) => tierReply s rq x t .late none
  | (s, st, _) => tierFail s rq x t (some e) st d.tile.toNat

/-- TIER_READ_TILE (R64, R68 to R70, R79, R80, R92): a read of a subchannel that retrains, or of a channel unit that drains, waits (R82, R32). -/
def tierRead (s : State) (rq : TierReq) (x : Nat) (t : BitVec 7) (d : LoadDest) (f : BurstFault) : State :=
  match (if windowBarred s rq x then none else translate s rq x) with
  | none => tierFail s rq x t none .translation d.tile.toNat
  | some e =>
    match tierCheck rq e with
    | .ok =>
      let p := readPlace e t
      if retrains s p || (p.1 = 2 && notTaking s (channelBlock p.2)) then
        { s with tier := { s.tier with waitReads := s.tier.waitReads ++ [{ rq := rq, x := x, t := t, dest := d, fault := f }] } }
      else tierReadGo s rq x t e d f
    | st => tierFail s rq x t (some e) st d.tile.toNat

def execTierReadTile (rq : TierReq) (x : Nat) (t : BitVec 7) (d : LoadDest) (f : BurstFault) (s : State) : Out :=
  .next (tierRead s rq x t d f)

/-! ## Writes and write-back (R70 to R72) -/

/-- A write to the extent must wait: a tile copy is in progress, INFLIGHT is full (R70), the tile's subchannel retrains (R82), or its channel
unit takes no new work (R32). -/
def writeWaits (s : State) (e : ExtentEntry) (t : BitVec 7) : Bool :=
  let p := place e t
  e.moveBusy || e.inflight = 255 || retrains s p || (p.1 = 2 && notTaking s (channelBlock p.2))

/-- write_tile of R70 after its checks. -/
def tierWriteGo (s : State) (w : PendWrite) (e : ExtentEntry) : State :=
  if writeWaits s e w.t then { s with tier := { s.tier with waiting := s.tier.waiting ++ [w] } }
  else tierReply (devWrite s (128 * w.x + w.t.toNat) w.tile) w.rq w.x w.t .ok none

/-- TIER_WRITE_TILE (R64, R67, R68, R70). -/
def tierWrite (s : State) (w : PendWrite) : State :=
  let key := devOwnerKey (128 * w.x + w.t.toNat)
  match (if windowBarred s w.rq w.x then none else entryOf s w.x) with
  | none => tierFail s w.rq w.x w.t none .translation key
  | some e =>
    match tierCheck w.rq e with
    | .ok => if e.cls = 0 then tierFail s w.rq w.x w.t (some e) .readOnly key else tierWriteGo s w e
    | st => tierFail s w.rq w.x w.t (some e) st key

/-- The tile comes from the requester's store slot: its stored header holds SCALE_REL (R79). -/
def execTierWriteTile (rq : TierReq) (x : Nat) (t : BitVec 7) (tile : Tile) (s : State) : Out :=
  .next (tierWrite s { rq := rq, x := x, t := t, tile := { tile with hdr := storedFrom rq.slot tile.hdr } })

/-- TIER_WRITE_UNBLOCKED (R70): waiting write i looks at its entry again. -/
def tierUnblocked (s : State) (i : Nat) : State :=
  match s.tier.waiting[i]? with
  | none => s
  | some w =>
    match entryOf s w.x with
    | none => tierWrite { s with tier := { s.tier with waiting := s.tier.waiting.eraseIdx i } } w
    | some e => if writeWaits s e w.t then s else tierWrite { s with tier := { s.tier with waiting := s.tier.waiting.eraseIdx i } } w

def execTierWriteUnblocked (i : Nat) (s : State) : Out := .next (tierUnblocked s i)

/-- write_back(x, t) of R70: a HOME write that is refused leaves the tile dirty; so does a subchannel that retrains (R82). -/
def writeBack (s : State) (x : Nat) (t : BitVec 7) (f : BurstFault) : State :=
  match entryOf s x with
  | none => s
  | some e =>
    if e.cls ≠ 1 || !e.tilemap.getLsbD t.toNat || retrains s (place e t) then s
    else
      let n := 128 * x + t.toNat
      match readEntry s x e t f with
      | (s, .ok, some tl) =>
        let (s, good) := writeUnit s (128 * e.homeLoc.toNat + t.toNat) { hdr := storedHeader tl.hdr, payload := tl.payload } (.writeBack n)
        if good then
          let s := setEntry s x fun e => { e with tilemap := e.tilemap &&& ~~~ BitVec.ofNat 128 (2 ^ t.toNat) }
          { s with tier := { s.tier with dirtyAt := mdel s.tier.dirtyAt n } }
        else s
      | (s, _, _) => s

def execWriteBack (x : Nat) (t : BitVec 7) (f : BurstFault) (s : State) : Out := .next (writeBack s x t f)

/-! ## Migration (R73, R74) -/

/-- A class permits a copy in a tier (Table 4.3). -/
def copyAllowed (e : ExtentEntry) (tier : BitVec 2) : Bool :=
  match e.cls.toNat with
  | 0 => tier = 1 || (tier = 2 && e.homeTier ≠ 1)
  | 1 => tier = 2
  | 2 => tier = 1 || tier = 2
  | _ => false

/-- A location lies in its tier's range (Table 4.2). -/
def locOk (tier : BitVec 2) (loc : BitVec 25) : Bool :=
  match tier.toNat with
  | 0 => loc = 0
  | 1 => loc.toNat < 1024
  | 2 => loc.toNat < Config.tierLExtents
  | _ => loc.toNat < Config.tierFExtents

/-- The regions of tier L in order, in L extents, with their world (R83, Table 4.6): flash map, map journal ring, open-block parity, tier table,
stored tile headers. They end where the partition pool begins, at Config.poolBase. -/
def lRegions : List (Nat × Bool) := [(Config.flashMapExtents, true), (512, true), (1024, true), (513, true), (768, true)]

/-- The CXL.mem window sits at the highest extents, and the partition pool ends where it begins (R83). -/
def poolEnd (s : State) : Nat := Config.tierLExtents - 512 * s.tier.windowSize.toNat

/-- The world of an L extent outside the pool: reservations secure, the window non-secure (Table 4.6); none in the pool, where each extent
entry says it. -/
def regionWorld (s : State) (l : Nat) : Option Bool := if l < Config.poolBase then some true else if poolEnd s ≤ l then some false else none

/-- A location that a migration may go to: in its tier's range, and in tier L in the partition pool (Table 4.2, R83). -/
def moveTo (s : State) (tier : BitVec 2) (loc : BitVec 25) : Bool := locOk tier loc && (tier ≠ 2 || (regionWorld s loc.toNat).isNone)

/-- A tile is in the place at all: written in tier L, mapped in tier F, present in tier S. -/
def written (s : State) (p : BitVec 2 × Nat) : Bool :=
  match p.1.toNat with
  | 2 => (mfind s.tier.lmem p.2).isSome
  | 3 => match readUnit s p.2 with
    | .unmapped => false
    | _ => true
  | 1 => (slotOf s (BitVec.ofNat 17 p.2)).hdr.state = .ready || (slotOf s (BitVec.ofNat 17 p.2)).hdr.state = .held
  | _ => false

/-- A place that holds no tile: tier L reads as memory that nothing has written, a tier-S slot is FREE. -/
def clearPlace (s : State) (p : BitVec 2 × Nat) : State :=
  match p.1.toNat with
  | 1 => setSlot s (BitVec.ofNat 17 p.2) fun x => { x with hdr := { x.hdr with state := .free } }
  | 2 => { s with tier := { s.tier with lmem := mdel s.tier.lmem p.2 } }
  | _ => s

/-- One tile of NEW filled from the current place, or from HOME when the first source fails its CRC (R43, R73): its TILEMAP bit is set. A
tile that nothing has written holds nothing at NEW either. -/
def fillTile (x : Nat) (tier : BitVec 2) (loc : BitVec 25) (s : State) (t : Nat) : State :=
  match entryOf s x with
  | none => s
  | some e =>
    let b := BitVec.ofNat 7 t
    let src := readPlace e b
    let dst := (tier, 128 * loc.toNat + t)
    let mark := fun s => setEntry s x fun e => { e with tilemap := e.tilemap ||| BitVec.ofNat 128 (2 ^ t) }
    let good := fun p => (tileAt s p).filter fun tl => tl.crcOk
    match (mfind s.tier.refetched (128 * x + t)).orElse fun _ => (good src).orElse fun _ => good (homePlace e b) with
    | some tl => mark (putAt s dst tl e (128 * x + t) true)
    | none => if written s src then s else mark (clearPlace s dst)

/-- MIGRATE_RO_START (R73 step 1). -/
def migrateRoStart (s : State) (x : Nat) (tier : BitVec 2) (loc : BitVec 25) : State :=
  match entryOf s x with
  | none => s
  | some e =>
    if e.cls ≠ 0 || e.mstate ≠ 0 || e.newTier ≠ 0 || !copyAllowed e tier || !moveTo s tier loc then s
    else
      let s := setEntry s x fun e => { e with newTier := tier, newLoc := loc, tilemap := 0 }
      (List.range 128).foldl (fillTile x tier loc) s

def execMigrateRoStart (x : Nat) (tier : BitVec 2) (loc : BitVec 25) (s : State) : Out := .next (migrateRoStart s x tier loc)

/-- Steps and turn-conductor phases in progress (R73). -/
def usersNow (s : State) : List (Nat × Nat) :=
  (s.gen.parts.filterMap fun p => if p.2.step.running then some (p.1, p.2.step.epoch.toNat) else none)
  ++ s.host.requests.filterMap fun r => if r.2.phase ∈ [.walk, .scan, .merge, .fetch, .pack] then some (0x3E, r.1) else none

/-- The entry after an RO switch (R73 step 2): HOME moves when the extent lives in tier L alone and moves within it, COPY otherwise. -/
def switchRo (e : ExtentEntry) : ExtentEntry :=
  let c := { e with newTier := 0, newLoc := 0, tilemap := 0, mstate := 2 }
  if e.homeTier = 2 && e.newTier = 2 then { c with homeLoc := e.newLoc } else { c with copyTier := e.newTier, copyLoc := e.newLoc }

/-- The location that an RO switch leaves. -/
def leftBy (e : ExtentEntry) : BitVec 2 × BitVec 25 :=
  if e.homeTier = 2 && e.newTier = 2 then (2, e.homeLoc) else (e.copyTier, e.copyLoc)

/-- MIGRATE_RO_SWITCH (R73 step 2), once NEW is filled. -/
def migrateRoSwitch (s : State) (x : Nat) : State :=
  match entryOf s x with
  | none => s
  | some e =>
    if e.cls ≠ 0 || e.mstate ≠ 0 || e.newTier = 0 || e.tilemap ≠ BitVec.allOnes 128 then s
    else
      let old := leftBy e
      let s := { s with tier := { s.tier with drains := mins s.tier.drains x { tier := old.1, loc := old.2, users := usersNow s } } }
      setEntry s x switchRo

def execMigrateRoSwitch (x : Nat) (s : State) : Out := .next (migrateRoSwitch s x)

/-- The event of an L extent that is retired once its data has moved (R94). -/
def noteRetired (s : State) (tier : BitVec 2) (loc : BitVec 25) : State :=
  if tier = 2 && decide (loc.toNat ∈ s.tier.retiredL) then logEvent s (.unnamed 14 0x3F [w32 loc.toNat]) else s

/-- A location is freed: tier-S slots become FREE; tier L keeps its bytes until they are written again. -/
def freeLoc (s : State) (tier : BitVec 2) (loc : BitVec 25) : State :=
  let s := noteRetired s tier loc
  if tier = 1 then
    (List.range 128).foldl (fun s t => setSlot s (BitVec.ofNat 17 (128 * loc.toNat + t)) fun x => { x with hdr := { x.hdr with state := .free } }) s
  else s

/-- MIGRATE_RO_DRAIN_END (R73 steps 3 and 4). -/
def migrateRoDrainEnd (s : State) (x : Nat) : State :=
  match mfind s.tier.drains x with
  | none => s
  | some d =>
    if d.users ≠ [] then s
    else
      let s := { s with tier := { s.tier with drains := mdel s.tier.drains x } }
      setEntry (freeLoc s d.tier d.loc) x fun e => { e with mstate := 0 }

def execMigrateRoDrainEnd (x : Nat) (s : State) : Out := .next (migrateRoDrainEnd s x)

/-- MIGRATE_START (R74). -/
def migrateStart (s : State) (x : Nat) (tier : BitVec 2) (loc : BitVec 25) : State :=
  match entryOf s x with
  | none => s
  | some e =>
    if e.cls = 0 || e.mstate ≠ 0 || !copyAllowed e tier || !moveTo s tier loc then s
    else setEntry s x fun e => { e with newTier := tier, newLoc := loc, movePtr := 0, mstate := 1 }

def execMigrateStart (x : Nat) (tier : BitVec 2) (loc : BitVec 25) (s : State) : Out := .next (migrateStart s x tier loc)

/-- Tile t copied from COPY to NEW, header and CRC unchanged (R74); a tile that failed its read-back is taken from the recovered data (R94). -/
def copyTile (s : State) (x : Nat) (e : ExtentEntry) (t : Nat) : State :=
  let src := (e.copyTier, 128 * e.copyLoc.toNat + t)
  let dst := 128 * e.newLoc.toNat + t
  match mfind s.tier.refetched (128 * x + t) with
  | some tl => putAt s (e.newTier, dst) tl e (128 * x + t) true
  | none =>
    if e.copyTier = 2 && e.newTier = 2 then { s with tier := { s.tier with lmem := mput {} s.tier.lmem dst (lTile s src.2) } }
    else match tileAt s src with
      | some tl => putAt s (e.newTier, dst) tl e (128 * x + t) true
      | none => clearPlace s (e.newTier, dst)

/-- MIGRATE_TILE_COPY (R74): one round of the loop; while writes are in flight MOVE_BUSY holds new writers off. -/
def migrateTileCopy (s : State) (x : Nat) : State :=
  match entryOf s x with
  | none => s
  | some e =>
    if e.cls = 0 || e.mstate ≠ 1 then s
    else if e.inflight ≠ 0 then setEntry s x fun e => { e with moveBusy := true }
    else
      let s := copyTile s x e e.movePtr.toNat
      if e.movePtr.toNat < 127 then setEntry s x fun e => { e with movePtr := e.movePtr + 1, moveBusy := false }
      else
        let s := setEntry s x fun e =>
          { e with copyTier := e.newTier, copyLoc := e.newLoc, newTier := 0, newLoc := 0, movePtr := 0, mstate := 0, moveBusy := false }
        freeLoc s e.copyTier e.copyLoc

def execMigrateTileCopy (x : Nat) (s : State) : Out := .next (migrateTileCopy s x)

/-! ## LPDDR6 (R76, R81, R82) -/

/-- MR4_POLL (R81, R82): the refresh multiplier follows MR4, the reading is the package temperature; above the extended-refresh limit an
event is logged. -/
def mr4Poll (s : State) (pkg : BitVec 5) (temp : BitVec 16) (refresh : BitVec 8) (hot : Bool) : State :=
  let k := pkg.toNat
  let was := decide (k ∈ s.tier.pkgHot)
  let s := { s with tier := { s.tier with
    pkgTemp := mput 0 s.tier.pkgTemp k temp, refresh := mput 0 s.tier.refresh k refresh
    pkgHot := if hot then withLast k s.tier.pkgHot else without k s.tier.pkgHot } }
  if hot && !was then logEvent s (.unnamed 13 (BitVec.ofNat 6 (0x20 + k / 2)) [w32 k, temp.setWidth 32]) else s

def execMr4Poll (pkg : BitVec 5) (temp : BitVec 16) (refresh : BitVec 8) (hot : Bool) (s : State) : Out :=
  .next (mr4Poll s pkg temp refresh hot)

/-- WCK_OSC_CHECK (R81): a drift beyond the trained window starts retraining of the subchannel. -/
def wckCheck (s : State) (sub : BitVec 8) (drift : Bool) : State :=
  if drift then { s with tier := { s.tier with retraining := withLast sub s.tier.retraining } } else s

def execWckOscCheck (sub : BitVec 8) (drift : Bool) (s : State) : Out := .next (wckCheck s sub drift)

/-- The subchannel is ready again (R82): the writes that waited and the reads that waited are tried again. All of them are tried, in the order in
which they began to wait, writes before reads: the manual gives no order (DESIGN CHOICE, log entry 132). -/
def retrainDone (s : State) (sub : BitVec 8) : State :=
  let ws := s.tier.waiting
  let rs := s.tier.waitReads
  let s := ws.foldl tierWrite { s with tier := { s.tier with retraining := without sub s.tier.retraining, waiting := [], waitReads := [] } }
  rs.foldl (fun s r => tierRead s r.rq r.x r.t r.dest r.fault) s

/-- The rates of Table 4.4, in MT/s. -/
def lpRates : List (BitVec 16) := [14400, 10667]

/-- Training sets the mode registers of a package (Table 4.7): the values that it finds are free values. -/
def trainPackage (s : State) (k : Nat) : State :=
  let (d, s) := drawFree s
  let (o, s) := drawFree s
  let (v, s) := drawFree s
  let m : PkgModes := { burst288 := true, onDieEcc := true, drive := d, odt := o, vref := v, perBank := true }
  { s with tier := { s.tier with modes := mins s.tier.modes k m } }

/-- LPDDR6_TRAINING_DONE (R76, R81, R82, R455): every package runs at the rate of Table 4.4 at which all of them train, with its mode registers
set, and Memory_Active is reported. Another rate is none the module supports. -/
def trainingDone (s : State) (mts : BitVec 16) : State :=
  if mts ∉ lpRates then s
  else
    let s := { s with tier := { s.tier with mts := mts }, power := { s.power with memoryActive := true } }
    (List.range 32).foldl trainPackage s

def execLpddr6TrainingDone (mts : BitVec 16) (s : State) : Out := .next (trainingDone s mts)

/-! ## Weight streaming (R86 to R90) -/

/-- Entries of a plan in group order (R86): stable by ascending group. -/
def insEntry (e : PlanEntry) : List PlanEntry → List PlanEntry
  | [] => [e]
  | x :: l => if e.group < x.group then e :: x :: l else x :: insEntry e l
def planOrder (p : StreamPlan) : List PlanEntry := p.entries.foldl (fun l e => insEntry e l) []

/-- Tiles of a plan. -/
def planTiles (p : StreamPlan) : Nat := (p.entries.map (·.count)).sum

/-- The entry of the i-th tile of a pass, and the tile's place within it. -/
def planTile : List PlanEntry → Nat → Option (PlanEntry × Nat)
  | [], _ => none
  | e :: l, i => if i < e.count then some (e, i) else planTile l (i - e.count)

/-- The half of an entry's group on pass k (R86). -/
def halfOn (p : StreamPlan) (e : PlanEntry) (k : Nat) : Bool := if p.head.groups % 2 = 1 then Bool.xor e.half (k % 2 = 1) else e.half

/-- Destination slot of tile i of an entry on pass k (R86). -/
def streamDest (p : StreamPlan) (e : PlanEntry) (i k : Nat) : TileIdx :=
  BitVec.ofNat 17 (p.head.windowBase + (if halfOn p e k then p.head.windowTiles / 2 else 0) + e.dest + i)

def streamOf (s : State) (p : PartId) : StreamState := mget {} s.tier.streams p.toNat
def setStream (s : State) (p : PartId) (f : StreamState → StreamState) : State :=
  { s with tier := { s.tier with streams := mmod {} s.tier.streams p.toNat f } }

/-- The next position of a stream: after the last tile of a pass, pass k + 1 for the next step (R86, R88). -/
def advanceStream (p : StreamPlan) (x : StreamState) : StreamState :=
  if x.pos + 1 < planTiles p then { x with pos := x.pos + 1, polling := false }
  else { pass := x.pass + 1, pos := 0, epoch := x.epoch + 1, polling := false }

/-- The plan, the entry and the source tile that a partition's stream is at. -/
def streamAt (s : State) (p : PartId) : Option (StreamPlan × PlanEntry × Nat) :=
  let q := partOf s p
  match q.prog with
  | none => none
  | some g => (planTile (planOrder g.plan) (streamOf s p).pos).map fun r => (g.plan, r.1, r.2)

/-- The tile is written into its free slot, and the stream goes on (R88). -/
def streamGo (s : State) (p : PartId) (plan : StreamPlan) (n : Nat) (x : ExtentEntry) (dest : TileIdx) (f : BurstFault) : State :=
  let st := streamOf s p
  match readEntry s (devExtent n) x (devPos n) f with
  | (s, .ok, some tl) =>
    let d : LoadDest := { tile := dest, owner := p.setWidth 6, epoch := st.epoch, prod := st.epoch, out := false, persist := false }
    let s := writeTile s (channelDie (readPlace x (devPos n)).2) dest { hdr := loadHeader tl.hdr x n d, payload := tl.payload } x.world
    setStream s p (advanceStream plan)
  | (s, r, _) => tierFail s { part := p.setWidth 6, die := channelDie n } (devExtent n) (devPos n) (some x) r dest.toNat

/-- STREAM_TILE_WRITE (R88): READ_HEADER first; a slot that is not FREE is polled and never written. The source is checked as any access of the
partition, which reads with tenant 0 (R68, R338); a subchannel that retrains is waited for (R82). -/
def streamWrite (s : State) (p : PartId) (f : BurstFault) : State :=
  match streamAt s p with
  | none => s
  | some (plan, e, i) =>
    let st := streamOf s p
    let dest := streamDest plan e i st.pass
    let n := e.src.toNat + i
    let rq : TierReq := { part := p.setWidth 6, die := channelDie n }
    if st.polling then s
    else if (slotOf s dest).hdr.state ≠ .free then setStream s p fun x => { x with polling := true }
    else match entryOf s (devExtent n) with
      | none => tierFail s rq (devExtent n) (devPos n) none .translation dest.toNat
      | some x =>
        match tierCheck rq x with
        | .ok => if retrains s (readPlace x (devPos n)) then s else streamGo s p plan n x dest f
        | st => tierFail s rq (devExtent n) (devPos n) (some x) st dest.toNat

def execStreamTileWrite (p : PartId) (f : BurstFault) (s : State) : Out := .next (streamWrite s p f)

/-- STREAM_SLOT_POLL (R88): READ_HEADER again after 64 handshakes. -/
def streamPoll (s : State) (p : PartId) : State :=
  match streamAt s p with
  | none => s
  | some (plan, e, i) =>
    let st := streamOf s p
    if st.polling && (slotOf s (streamDest plan e i st.pass)).hdr.state = .free then setStream s p fun x => { x with polling := false } else s

def execStreamSlotPoll (p : PartId) (s : State) : Out := .next (streamPoll s p)

/-! ## Refetch read-back (R94) -/

/-- L extents in use: places of valid entries, retired extents, partition shares. -/
def usedL (s : State) : List Nat :=
  (s.tier.leaves.flatMap fun e =>
    if e.2.valid then (if e.2.homeTier = 2 then [e.2.homeLoc.toNat] else []) ++ (if e.2.copyTier = 2 then [e.2.copyLoc.toNat] else [])
      ++ (if e.2.newTier = 2 then [e.2.newLoc.toNat] else []) else [])
    ++ s.tier.retiredL ++ s.gen.parts.flatMap fun p => p.2.lShare

/-- L extents of the partition pool that nothing uses. -/
def freeL (s : State) : List Nat :=
  ((List.range (poolEnd s - Config.poolBase)).map (· + Config.poolBase)).filter fun l => decide (l ∉ usedL s)

/-- The extent's copy leaves an L extent that failed: the Bureau starts its migration to another one, which a free value picks, and retires the
old one. While another migration of the extent is in progress it waits for its end (R94). -/
def leaveExtent (s : State) (x : Nat) (e : ExtentEntry) (old : Nat) : State :=
  let (v, s) := drawFree s
  let fs := freeL s
  match fs[v.toNat % max 1 fs.length]? with
  | none => s
  | some l =>
    if e.mstate ≠ 0 || e.newTier ≠ 0 then s
    else
      let s := { s with tier := { s.tier with retiredL := withLast old s.tier.retiredL } }
      if e.cls = 0 then migrateRoStart s x 2 (BitVec.ofNat 25 l) else migrateStart s x 2 (BitVec.ofNat 25 l)

/-- REFETCH_READBACK (R94): a tile put back into tier L is read back; when that fails again the extent leaves its place, with the failing tile
taken from the recovered data. -/
def refetchReadback (s : State) (x : Nat) (t : BitVec 7) (good : Bool) : State :=
  let n := 128 * x + t.toNat
  match entryOf s x, mfind s.tier.refetched n with
  | some e, some _ =>
    if good then { s with tier := { s.tier with refetched := mdel s.tier.refetched n } }
    else if (readPlace e t).1 = 2 then leaveExtent s x e ((readPlace e t).2 / 128) else s
  | _, _ => s

def execRefetchReadback (x : Nat) (t : BitVec 7) (good : Bool) (s : State) : Out := .next (refetchReadback s x t good)

/-! ## POISONED tiles of the store (R59, R92) -/

/-- A POISONED tile that a step of partition p, epoch e, read: a copy with SRC_VALID is filled again from COPY or HOME, its fields in the store kept;
a tile carried from a committed step, or one that cannot be filled, ends its slot's request with MEDIA_ERROR; an output of the step comes
again with the replay (Table 4.8). -/
def refillPoisoned (s : State) (p : PartId) (e : Epoch) (i : TileIdx) : State :=
  let h := (slotOf s i).hdr
  if !h.poison then s
  else if h.srcValid && h.cls ≠ 2 then
    let n := h.srcTile.toNat
    match entryOf s (devExtent n) with
    | none => refuseAccess s p i.toNat .mediaError
    | some x =>
      match readEntry s (devExtent n) x (devPos n) [] with
      | (s, .ok, some tl) => setSlot s i fun y => { y with
          hdr := { y.hdr with poison := false, crc := tl.hdr.crc }, payload := tl.payload, flips := y.flips.filter fun w => decide (4096 ≤ w.1) }
      | (s, _, _) => refuseAccess s p i.toNat .mediaError
  else if h.out && decide (e.toNat ≤ h.prod.toNat) then s
  else refuseAccess s p i.toNat .mediaError

end Sys2Proof.Machine
end

