-- ==== Sys2Proof/Machine/Num.lean ====
section
/-! DEFINITION. Numbers: the formats of Tables 3.2 and 5.1 with exact values, rounding to nearest with ties to even (R133, R134), the
correctly rounded functions of Table 6.2, MX scales (R135), reduction trees (R136). -/

namespace Sys2Proof.Machine

/-! ## Values -/

/-- The value of an encoded element: NaN, an infinity, or sign, magnitude and exponent: ±mag × 2^exp (mag 0 is a signed zero). -/
inductive Val where
  | nan (neg : Bool)
  | inf (neg : Bool)
  | fin (neg : Bool) (mag : Nat) (exp : Int)
deriving DecidableEq, Repr

/-- Which encodings of a floating format are special: all-ones exponent (IEEE), all-ones value (E4M3), none (MX elements). -/
inductive Specials where
  | ieee | nanOnly | finite
deriving DecidableEq, Repr

/-- A floating format: exponent bits, fraction bits, special encodings. -/
structure FloatFmt where
  ebits : Nat
  mbits : Nat
  sp : Specials
deriving DecidableEq, Repr

def fmtFp32 : FloatFmt := ⟨8, 23, .ieee⟩
def fmtBf16 : FloatFmt := ⟨8, 7, .ieee⟩
def fmtFp16 : FloatFmt := ⟨5, 10, .ieee⟩
def fmtE4m3 : FloatFmt := ⟨4, 3, .nanOnly⟩
def fmtE5m2 : FloatFmt := ⟨5, 2, .ieee⟩
def fmtE2m3 : FloatFmt := ⟨2, 3, .finite⟩
def fmtE3m2 : FloatFmt := ⟨3, 2, .finite⟩
def fmtE2m1 : FloatFmt := ⟨2, 1, .finite⟩

def FloatFmt.bias (f : FloatFmt) : Int := 2 ^ (f.ebits - 1) - 1
/-- Encoding of the largest finite magnitude. -/
def FloatFmt.top (f : FloatFmt) : Nat := match f.sp with
  | .ieee => (2 ^ f.ebits - 1) * 2 ^ f.mbits - 1
  | .nanOnly => 2 ^ (f.ebits + f.mbits) - 2
  | .finite => 2 ^ (f.ebits + f.mbits) - 1

/-- The value of an encoding (Table 5.1). -/
def FloatFmt.decode (f : FloatFmt) (v : Nat) : Val :=
  let neg := v.testBit (f.ebits + f.mbits)
  let m := v % 2 ^ (f.ebits + f.mbits)
  let ex := m / 2 ^ f.mbits
  let fr := m % 2 ^ f.mbits
  if f.top < m then (if f.sp = .ieee ∧ fr = 0 then .inf neg else .nan neg)
  else if ex = 0 then .fin neg fr (1 - f.bias - f.mbits)
  else .fin neg (fr + 2 ^ f.mbits) (ex - f.bias - f.mbits)

/-- Bit length. -/
def bitLen (n : Nat) : Nat := if n = 0 then 0 else Nat.log2 n + 1

/-- mag × 2^(−sh) rounded to nearest, ties to even; sticky says that the true value lies above mag by less than one unit. -/
def rneShift (mag : Nat) (sh : Int) (sticky : Bool) : Nat :=
  if sh ≤ 0 then mag * 2 ^ (-sh).toNat
  else
    let d := 2 ^ sh.toNat
    let q := mag / d
    let r := mag % d
    if 2 * r > d ∨ (2 * r = d ∧ (sticky ∨ q % 2 = 1)) then q + 1 else q

/-- The magnitude encoding nearest to mag × 2^exp, unbounded above (R133, R134). -/
def FloatFmt.roundMag (f : FloatFmt) (mag : Nat) (exp : Int) (sticky : Bool) : Nat :=
  if mag = 0 then 0
  else
    let emin := 1 - f.bias
    let e := max ((bitLen mag : Int) - 1 + exp) emin
    rneShift mag (e - f.mbits - exp) sticky + ((e - emin) * 2 ^ f.mbits).toNat

/-- Formats that overflow to infinity (R134). -/
def FloatFmt.overflowsToInf (f : FloatFmt) : Bool := decide (f.sp = .ieee ∧ 8 < f.ebits + f.mbits)

/-- Sign bit of an encoding. -/
def FloatFmt.signBit (f : FloatFmt) (neg : Bool) : Nat := if neg then 2 ^ (f.ebits + f.mbits) else 0

/-- The canonical NaN of a format (R133, R134): FP32 0x7FC0_0000, other IEEE formats the quiet NaN, E4M3 its NaN with the sign kept. -/
def FloatFmt.nanCode (f : FloatFmt) (neg : Bool) : Nat := match f.sp with
  | .ieee => (2 ^ f.ebits - 1) * 2 ^ f.mbits + 2 ^ (f.mbits - 1)
  | .nanOnly => f.signBit neg + 2 ^ (f.ebits + f.mbits) - 1
  | .finite => f.signBit neg + f.top

/-- Conversion of a value into a floating format (R134). -/
def FloatFmt.encode (f : FloatFmt) (v : Val) (sticky : Bool) : Nat :=
  match v with
  | .nan neg => f.nanCode neg
  | .inf neg => match f.sp with
    | .ieee => f.signBit neg + (2 ^ f.ebits - 1) * 2 ^ f.mbits
    | _ => f.nanCode neg
  | .fin neg mag exp =>
    let m := f.roundMag mag exp sticky
    f.signBit neg + (if f.top < m then (if f.overflowsToInf then f.top + 1 else f.top) else m)

/-- An FP32 word's value. -/
def fpVal (w : Word) : Val := fmtFp32.decode w.toNat
/-- The FP32 word of a value; every NaN is 0x7FC0_0000 (R133). -/
def fpOf (v : Val) (sticky : Bool) : Word := match v with
  | .nan _ => 0x7FC00000
  | v => w32 (fmtFp32.encode v sticky)
def fpNan : Word := 0x7FC00000
def fpNegInf : Word := 0xFF800000
def isNan (w : Word) : Bool := match fpVal w with | .nan _ => true | _ => false

/-- A signed magnitude. -/
def sgn (neg : Bool) (n : Nat) : Int := if neg then -(n : Int) else n

/-- An exact integer times a power of two as a value; zero is +0 unless said otherwise. -/
def valOf (n : Int) (exp : Int) (zeroNeg : Bool) : Val := if n = 0 then .fin zeroNeg 0 0 else .fin (decide (n < 0)) n.natAbs exp

/-! ## FP32 arithmetic (R133) -/

/-- The exact sum of two values; the sign of an exact zero follows IEEE 754. -/
def addVal (a b : Val) : Val :=
  match a, b with
  | .nan n, _ => .nan n
  | _, .nan n => .nan n
  | .inf x, .inf y => if x = y then .inf x else .nan false
  | .inf x, _ => .inf x
  | _, .inf y => .inf y
  | .fin s m e, .fin t n g =>
    let k := min e g
    let v := sgn s m * 2 ^ (e - k).toNat + sgn t n * 2 ^ (g - k).toNat
    valOf v k (s && t)

/-- The exact product of two values. -/
def mulVal (a b : Val) : Val :=
  match a, b with
  | .nan n, _ => .nan n
  | _, .nan n => .nan n
  | .inf x, .inf y => .inf (Bool.xor x y)
  | .inf x, .fin y m _ => if m = 0 then .nan false else .inf (Bool.xor x y)
  | .fin x m _, .inf y => if m = 0 then .nan false else .inf (Bool.xor x y)
  | .fin s m e, .fin t n g => .fin (Bool.xor s t) (m * n) (e + g)

def negVal : Val → Val
  | .nan n => .nan n
  | .inf n => .inf (!n)
  | .fin n m e => .fin (!n) m e

def fadd (a b : Word) : Word := fpOf (addVal (fpVal a) (fpVal b)) false
def fneg (a : Word) : Word := a ^^^ 0x80000000
def fsub (a b : Word) : Word := fpOf (addVal (fpVal a) (negVal (fpVal b))) false
def fmul (a b : Word) : Word := fpOf (mulVal (fpVal a) (fpVal b)) false
def ffma (a b c : Word) : Word := fpOf (addVal (mulVal (fpVal a) (fpVal b)) (fpVal c)) false

/-- a < b as numbers; false when either is a NaN. -/
def flt (a b : Word) : Bool :=
  match fpVal a, fpVal b with
  | .nan _, _ => false
  | _, .nan _ => false
  | .inf x, .inf y => x && !y
  | .inf x, _ => x
  | _, .inf y => !y
  | .fin s m e, .fin t n g =>
    let k := min e g
    decide (sgn s m * 2 ^ (e - k).toNat < sgn t n * 2 ^ (g - k).toNat)

/-- Equal as numbers (−0 equals +0). -/
def feq (a b : Word) : Bool := !isNan a && !isNan b && !flt a b && !flt b a

/-- The lesser (IEEE 754 minimum: a NaN gives the NaN, −0 lies below +0). -/
def fmin (a b : Word) : Word :=
  if isNan a || isNan b then fpNan else if flt a b then a else if flt b a then b else if a.msb then a else b
/-- The greater (IEEE 754 maximum). -/
def fmax (a b : Word) : Word :=
  if isNan a || isNan b then fpNan else if flt a b then b else if flt b a then a else if a.msb then b else a

/-- num / den rounded to FP32. -/
def divVal (neg : Bool) (num den : Nat) : Word :=
  if num = 0 then fpOf (.fin neg 0 0) false
  else
    let sh := bitLen den + 64
    fpOf (.fin neg (num * 2 ^ sh / den) (-(sh : Int))) (decide (num * 2 ^ sh % den ≠ 0))

/-- Correctly rounded quotient a / b of finite FP32 numbers and infinities (R133). -/
def fdiv (a b : Word) : Word :=
  match fpVal a, fpVal b with
  | .nan _, _ => fpNan
  | _, .nan _ => fpNan
  | .inf x, .inf _ => if x then fpNan else fpNan
  | .inf x, .fin y _ _ => fpOf (.inf (Bool.xor x y)) false
  | .fin x _ _, .inf y => fpOf (.fin (Bool.xor x y) 0 0) false
  | .fin x m e, .fin y n g =>
    if n = 0 then (if m = 0 then fpNan else fpOf (.inf (Bool.xor x y)) false)
    else if e ≤ g then divVal (Bool.xor x y) m (n * 2 ^ (g - e).toNat) else divVal (Bool.xor x y) (m * 2 ^ (e - g).toNat) n

/-- The reciprocal (Table 6.2). -/
def frecip (a : Word) : Word := fdiv 0x3F800000 a

/-- rne(1 / n) (R138). -/
def fRecipNat (n : Nat) : Word := divVal false 1 (max 1 n)

/-- The reciprocal square root (Table 6.2): 1 / √(m × 2^e). -/
def frsqrt (a : Word) : Word :=
  match fpVal a with
  | .nan _ => fpNan
  | .inf neg => if neg then fpNan else 0
  | .fin neg m e =>
    if m = 0 then (if neg then fpNegInf else 0x7F800000)
    else if neg then fpNan
    else
      let m2 := if e % 2 = 0 then m else 2 * m
      let e2 := if e % 2 = 0 then e else e - 1
      let q := 2 ^ 240 / m2
      let r := Nat.sqrt q
      fpOf (.fin false r (-120 - e2 / 2)) (decide (r * r * m2 ≠ 2 ^ 240))

/-! ## exp, exp2, log, log2 (Table 6.2): fixed point at 2^−320, then one rounding. The results are irrational but for the cases taken
apart, and no FP32 argument brings one within 2^−200 of a rounding boundary. -/

def fixP : Nat := 320
def fixOne : Int := 2 ^ fixP

/-- x^n / n! summed, k terms from n on. -/
def expTerms (r : Int) : Nat → Nat → Int → Int
  | 0, _, acc => acc
  | k + 1, n, acc => acc + expTerms r k (n + 1) (acc * r / fixOne / (n + 1))

/-- 2 Σ z^(2k+1) / (2k+1): k terms from d on, p the power so far. -/
def atanhTerms (z2 : Int) : Nat → Nat → Int → Int
  | 0, _, _ => 0
  | k + 1, d, p => 2 * p / (d : Int) + atanhTerms z2 k (d + 2) (p * z2 / fixOne)

/-- ln(num / den) for a quotient near 1. -/
def lnNear (num den : Int) : Int :=
  let z := (num - den) * fixOne / (num + den)
  atanhTerms (z * z / fixOne) 150 1 z

def ln2Fix : Int := lnNear 2 1

/-- e^x for x in fixed point. -/
def expFix (neg : Bool) (x : Int) : Val × Bool :=
  let k := x / ln2Fix
  let r := x - k * ln2Fix
  (.fin neg (expTerms r 100 0 fixOne).toNat (k - fixP), true)

/-- A finite value in fixed point (exact when its exponent is at least −320). -/
def toFix (s : Bool) (m : Nat) (e : Int) : Int :=
  if 0 ≤ e + fixP then sgn s m * 2 ^ (e + fixP).toNat else sgn s m / 2 ^ (-(e + fixP)).toNat

/-- exp (Table 6.2). -/
def fexp (a : Word) : Word :=
  match fpVal a with
  | .nan _ => fpNan
  | .inf neg => if neg then 0 else 0x7F800000
  | .fin s m e =>
    if m = 0 then 0x3F800000
    else if 2 ^ 7 * fixOne < toFix s m e then 0x7F800000
    else if toFix s m e < -(2 ^ 7 * fixOne) then 0
    else let r := expFix false (toFix s m e); fpOf r.1 r.2

/-- exp2 (Table 6.2). -/
def fexp2 (a : Word) : Word :=
  match fpVal a with
  | .nan _ => fpNan
  | .inf neg => if neg then 0 else 0x7F800000
  | .fin s m e =>
    let x := toFix s m e
    if m = 0 then 0x3F800000
    else if 2 ^ 8 * fixOne < x then 0x7F800000
    else if x < -(2 ^ 8 * fixOne) then 0
    else if x % fixOne = 0 then fpOf (.fin false 1 (x / fixOne)) false
    else
      let k := x / fixOne
      let r := expFix false ((x - k * fixOne) * ln2Fix / fixOne)
      match r.1 with
      | .fin n g h => fpOf (.fin n g (h + k)) r.2
      | v => fpOf v r.2

/-- ln of m × 2^e, m > 0, in fixed point: m is scaled into [0.75, 1.5). -/
def lnFix (m : Nat) (e : Int) : Int :=
  let l := bitLen m
  let up := decide (3 * 2 ^ (l - 1) ≤ 2 * m)
  let k : Int := (l : Int) - 1 + b2n up
  let den : Nat := 2 ^ (l - 1 + b2n up)
  (k + e) * ln2Fix + lnNear m den

/-- A fixed-point result rounded to FP32. -/
def fixToFp (x : Int) : Word :=
  if x < 0 then fpOf (.fin true (-x).toNat (-(fixP : Int))) true else fpOf (.fin false x.toNat (-(fixP : Int))) true

/-- log (Table 6.2). -/
def flog (a : Word) : Word :=
  match fpVal a with
  | .nan _ => fpNan
  | .inf neg => if neg then fpNan else 0x7F800000
  | .fin s m e =>
    if m = 0 then fpNegInf else if s then fpNan else if a = 0x3F800000 then 0 else fixToFp (lnFix m e)

/-- log2 (Table 6.2). -/
def flog2 (a : Word) : Word :=
  match fpVal a with
  | .nan _ => fpNan
  | .inf neg => if neg then fpNan else 0x7F800000
  | .fin s m e =>
    if m = 0 then fpNegInf else if s then fpNan
    else if m = 2 ^ (bitLen m - 1) then fpOf (valOf ((bitLen m : Int) - 1 + e) 0 false) false
    else fixToFp (lnFix m e * fixOne / ln2Fix)

/-! ## Elements of operand and tile formats (R97, R98, Table 5.1) -/

/-- The floating element format of a FORMAT. -/
def floatOf (f : BitVec 8) : Option FloatFmt :=
  match f.toNat with
  | 0x01 => some fmtFp32 | 0x02 => some fmtBf16 | 0x03 => some fmtFp16 | 0x04 => some fmtE4m3 | 0x05 => some fmtE5m2
  | 0x08 => some fmtE4m3 | 0x09 => some fmtE5m2 | 0x0B => some fmtE2m3 | 0x0C => some fmtE3m2 | 0x0D => some fmtE2m1 | _ => none

/-- MX formats have a scale for each block of 32 elements (R39). -/
def isMx (f : BitVec 8) : Bool := 0x08 ≤ f.toNat && f.toNat ≤ 0x0D

/-- Lanes of an operand format (Table 5.1); 0 for formats that are never operands. -/
def lanes (f : BitVec 8) : Nat :=
  match f.toNat with
  | 0x02 => 16 | 0x03 => 16 | 0x07 => 128 | 0x0B => 128 | 0x0C => 128 | 0x0D => 128
  | 0x04 => 64 | 0x05 => 64 | 0x06 => 64 | 0x08 => 64 | 0x09 => 64 | 0x0A => 64 | _ => 0

/-- Bits of element i of packed data. -/
def elemBits (data : Bytes) (bits i : Nat) : Nat := (rd data (bits * i / 8) 5 / 2 ^ (bits * i % 8)) % 2 ^ bits

/-- The value of an encoded element without its block scale: integer formats carry the tile's ANCHOR (R97), MXINT8 has 6 fraction bits
(Table 5.1). -/
def elemVal (f : BitVec 8) (anchor : Int) (v : Nat) : Val :=
  match floatOf f with
  | some g => g.decode v
  | none =>
    let b := (formatBits f).getD 8
    let n := signed b v
    if f = 0x0A then valOf n (-6) false else valOf n anchor false

/-- A block scale (E8M0): 2^(x − 127), NaN for 0xFF. -/
def scaleExp (x : Nat) : Option Int := if x = 255 then none else some ((x : Int) - 127)

/-- An element times its block scale. -/
def scaled (f : BitVec 8) (scale : Nat) (v : Val) : Val :=
  if !isMx f then v
  else match scaleExp scale with
    | none => .nan false
    | some x => match v with
      | .fin s m e => .fin s m (e + x)
      | w => w

/-- Element i of packed data with the scales of its blocks. -/
def element (f : BitVec 8) (anchor : Int) (data scales : Bytes) (i : Nat) : Val :=
  scaled f (rd scales (i / 32) 1) (elemVal f anchor (elemBits data ((formatBits f).getD 8) i))

/-- n elements of packed data as FP32 words (R134). -/
def toFp32 (f : BitVec 8) (anchor : Int) (data scales : Bytes) (n : Nat) : List Word :=
  (List.range n).map fun i => fpOf (element f anchor data scales i) false

/-- Conversion to an integer format: divided by 2^ANCHOR, rounded, saturated; NaN gives 0 (R134). -/
def toInteger (bits : Nat) (anchor : Int) (v : Val) (sticky : Bool) : Int :=
  let hi : Int := 2 ^ (bits - 1) - 1
  let lo : Int := -(2 ^ (bits - 1))
  match v with
  | .nan _ => 0
  | .inf neg => if neg then lo else hi
  | .fin s m e => max lo (min hi (sgn s (rneShift m (anchor - e) sticky)))

/-- Conversion of a value into an element of FORMAT f (R134): the encoding as a number. -/
def convert (f : BitVec 8) (anchor : Int) (v : Val) (sticky : Bool) : Nat :=
  match floatOf f with
  | some g =>
    if f = 0x01 then (fpOf v sticky).toNat
    else match v with
      | .inf neg => if isMx f then g.nanCode neg else g.encode v sticky
      | v => g.encode v sticky
  | none =>
    let b := (formatBits f).getD 8
    (BitVec.ofInt b (toInteger b (if f = 0x0A then -6 else anchor) v sticky)).toNat

/-- Packed elements of b bits each (b at most 32), as bytes. -/
def packBits (b : Nat) (vs : List Nat) : Bytes :=
  let n := (vs.foldr (fun v a => v + a * 2 ^ b) 0)
  toLE ((vs.length * b + 7) / 8) n

/-! ## MX quantisation (R135) -/

/-- emax of an MX element format (R135). -/
def mxEmax (f : BitVec 8) : Int :=
  match f.toNat with
  | 0x0D => 2 | 0x0B => 2 | 0x0C => 4 | 0x08 => 8 | 0x09 => 15 | _ => 0

/-- floor(log2 |v|) of a non-zero finite value. -/
def log2Floor : Val → Int
  | .fin _ m e => (bitLen m : Int) - 1 + e
  | _ => 0

/-- Scale byte and elements of one block of 32 values (R135). -/
def mxBlock (f : BitVec 8) (vs : List Val) : Nat × List Nat :=
  if vs.any fun v => match v with | .fin .. => false | _ => true then (255, vs.map fun _ => 0)
  else
    let nz := vs.filter fun v => match v with | .fin _ m _ => decide (m ≠ 0) | _ => false
    match nz with
    | [] => (127, vs.map fun _ => 0)
    | v :: l =>
      let x := (l.foldl (fun a w => max a (log2Floor w)) (log2Floor v)) - mxEmax f
      let x := max (-127) (min 127 x)
      ((x + 127).toNat, vs.map fun v => convert f 0 (match v with | .fin s m e => .fin s m (e - x) | w => w) false)

/-! ## Reductions (R136) -/

/-- One level of the tree: elements 2i and 2i + 1 combined. -/
def pairUp (f : Word → Word → Word) : List Word → List Word
  | a :: b :: l => f a b :: pairUp f l
  | l => l

/-- Levels of the tree. -/
def treeLevels (f : Word → Word → Word) : Nat → List Word → List Word
  | 0, l => l
  | n + 1, l => treeLevels f n (pairUp f l)

/-- The tree fixed by n alone: the row padded to the next power of two with the identity (R136). -/
def tree (f : Word → Word → Word) (unit : Word) (l : List Word) : Word :=
  let k := bitLen (l.length - 1)
  ((treeLevels f k (l ++ List.replicate (2 ^ k - l.length) unit)).head?).getD unit

def sumTree (l : List Word) : Word := tree fadd 0 l
def maxTree (l : List Word) : Word := tree fmax fpNegInf l
def minTree (l : List Word) : Word := tree fmin 0x7F800000 l

end Sys2Proof.Machine
end

