-- ==== Sys2Proof/Machine/Engine.lean ====
section
/-! DEFINITION. Chapter 05: matrix engines: products in the deep and the wide-and-shallow shape, convolution, exact accumulation, conversion
reads with the overflow retry, current hold. -/

namespace Sys2Proof.Machine

/-! ## Operand cache and shares (R129, R131, R132) -/

/-- n bytes of the operand cache from offset off on, over frame ends (k counts the frames left). -/
def cacheSpan (x : EngineState) : Nat → Nat → Nat → Bytes
  | 0, _, _ => []
  | k + 1, off, n =>
    if n = 0 then []
    else
      let m := min n (16384 - off % 16384)
      slice (mget [] x.frames (off / 16384)) (off % 16384) m ++ cacheSpan x k (off + m) (n - m)

/-- n bytes of the operand cache from offset off on. -/
def cacheRead (x : EngineState) (off n : Nat) : Bytes := cacheSpan x (n / 16384 + 2) off n

/-- Bytes [off, off + n) lie in the share's frames. -/
def inFrames (sh : Share) (off n : Nat) : Bool := sh.frame0 * 16384 ≤ off && off + n ≤ (sh.frame0 + sh.frames) * 16384
/-- Accumulator rows [r, r + n) lie in the share. -/
def inRows (sh : Share) (r n : Nat) : Bool := sh.row0 ≤ r && r + n ≤ sh.row0 + sh.rows
/-- Vector register r lies in the share. -/
def inVregs (sh : Share) (r : Nat) : Bool := sh.vr0 ≤ r && r < sh.vr0 + sh.vrs

/-- The share of the context that a command names, when that context runs and is not stopped (R131, R132). -/
def contextShare (x : EngineState) (ctx : Bool) : Option Share := if x.running = ctx && !x.stopped then runningShare x else none

/-! ## Words of the cache and the registers as they are read (R127, R130) -/

/-- Vector register r of an engine: 1,024 words. -/
def vregOf (x : EngineState) (r : Nat) : List Word :=
  let l := mget [] x.vregs r
  l ++ List.replicate (1024 - l.length) 0
/-- Words of vector register r from element 0 on replaced. -/
def putVreg (x : EngineState) (r : Nat) (ws : List Word) : EngineState :=
  { x with vregs := mput [] x.vregs r ((ws ++ (vregOf x r).drop ws.length).take 1024) }

/-- Word w of the vector registers (1,024 × register + element), or of the operand cache (byte offset div 4). -/
def storedWord (x : EngineState) (cache : Bool) (w : Nat) : Word :=
  if cache then w32 (rd (mget [] x.frames (w / 4096)) (4 * (w % 4096)) 4) else (vregOf x (w / 1024)).getD (w % 1024) 0

/-- That word written. -/
def putStoredWord (x : EngineState) (cache : Bool) (w : Nat) (v : Word) : EngineState :=
  if cache then { x with frames := mmod [] x.frames (w / 4096) fun b => splice (pad 16384 b) (4 * (w % 4096)) (toLE 4 v.toNat) }
  else { x with vregs := mput [] x.vregs (w / 1024) ((vregOf x (w / 1024)).set (w % 1024) v) }

/-- A disturbed word as it is read: corrected, written back and counted, or a fault with its bank or register (R57, R127, R130, Table 15.5). -/
def readUpset (cache : Bool) (a : EngineState × List (BitVec 8 × BitVec 16)) (u : Upset) : EngineState × List (BitVec 8 × BitVec 16) :=
  let r := secdedRead (storedWord a.1 cache u.word) u.mask
  match r.1 with
  | .clean => (putStoredWord a.1 cache u.word r.2, a.2)
  | .corrected => ({ putStoredWord a.1 cache u.word r.2 with cntCorrected := a.1.cntCorrected + 1 }, a.2)
  | .uncorrectable =>
    (a.1, a.2 ++ [if cache then (0x02, BitVec.ofNat 16 (Config.cacheBank u.word % 64)) else (0x03, BitVec.ofNat 16 (u.word / 1024))])

/-- What an operation finds in the words it reads: corrections made, and whether every word could be read; an operation with an uncorrectable
word writes no result (DESIGN CHOICE, log entry 138). -/
def readWords (s : State) (e : Engine) (k : OpChecks) (regs cache : Nat → Bool) : State × Bool :=
  let rs := k.regs.filter fun u => regs u.word
  let cs := k.cache.filter fun u => cache u.word
  if rs = [] ∧ cs = [] then (s, true)
  else
    let r := cs.foldl (readUpset true) (rs.foldl (readUpset false) (engOf s e, []))
    (r.2.foldl (fun s f => noteFault s e f) (setEng s e fun _ => r.1), decide (r.2 = []))

/-- Cache word w lies in one of the byte runs (offset, length). -/
def inRuns (l : List (Nat × Nat)) (w : Nat) : Bool := l.any fun r => decide (r.1 < 4 * w + 4 ∧ 4 * w < r.1 + r.2)

/-! ## Elements in the operand cache (R39, R96, R97, R129) -/

/-- Payload bytes that a full tile of the format uses (Table 3.2). -/
def tileBytes (f : BitVec 8) : Nat := if f = 0x0B ∨ f = 0x0C then 16128 else 16384
/-- Bits of an element. -/
def elemSize (f : BitVec 8) : Nat := (formatBits f).getD 8
/-- Elements of a full tile. -/
def tileElems (f : BitVec 8) : Nat := tileBytes f * 8 / elemSize f

/-- Frame and number within its tile of element i of a run that begins at a byte offset and goes from tile to tile. -/
def elemPlace (f : BitVec 8) (base i : Nat) : Nat × Nat :=
  let e := base % 16384 * 8 / elemSize f + i
  (base / 16384 + e / tileElems f, e % tileElems f)

/-- Byte offset of element i of the run. -/
def elemAddr (f : BitVec 8) (base i : Nat) : Nat :=
  let p := elemPlace f base i
  p.1 * 16384 + p.2 * elemSize f / 8

/-- The byte run (offset, length) of n elements. -/
def elemRun (f : BitVec 8) (base n : Nat) : Nat × Nat :=
  if n = 0 then (base, 0)
  else
    let p := elemPlace f base (n - 1)
    (base, p.1 * 16384 + ((p.2 + 1) * elemSize f + 7) / 8 - base)

/-- Frames that a byte run touches. -/
def runFrames (r : Nat × Nat) : List Nat :=
  if r.2 = 0 then [] else (List.range ((r.1 + r.2 - 1) / 16384 - r.1 / 16384 + 1)).map fun i => r.1 / 16384 + i

/-- The frame of the share that a tile fills. -/
def tileFrame (x : EngineState) (sh : Share) (t : TileIdx) : Option Nat :=
  (x.origin.find? fun e => decide (sh.frame0 ≤ e.1 ∧ e.1 < sh.frame0 + sh.frames) && decide (e.2.tile = t)).map (·.1)

/-- The frame that holds the scale tile which the tile in frame g names in its header (R39). -/
def scaleFrame (x : EngineState) (sh : Share) (g : Nat) : Option Nat :=
  (mfind x.origin g).bind fun o => if o.hdr.hasScale then tileFrame x sh o.hdr.scaleIndex else none

/-- The block scales of the tile in frame g: its slot of its scale tile, byte b for element block b (R39). -/
def scaleBytes (x : EngineState) (sh : Share) (g : Nat) : Bytes :=
  match scaleFrame x sh g, mfind x.origin g with
  | some h, some o => slice (mget [] x.frames h) (1024 * o.hdr.scaleSlot.toNat) 1024
  | _, _ => []

/-- ANCHOR of the tile in frame g. -/
def frameAnchor (x : EngineState) (g : Nat) : Int := ((mfind x.origin g).map (·.hdr.anchor.toInt)).getD 0

/-- Element i of a run: its value with its block's scale, or times 2^ANCHOR of its tile (R97). -/
def cacheElem (x : EngineState) (sh : Share) (f : BitVec 8) (base i : Nat) : Val :=
  let p := elemPlace f base i
  scaled f (rd (scaleBytes x sh p.1) (p.2 / 32) 1) (elemVal f (frameAnchor x p.1) (elemBits (mget [] x.frames p.1) (elemSize f) p.2))

/-- The frames of a run hold tiles of the store, and the scale tiles of MX tiles are there as well (R39, R96). -/
def runReady (x : EngineState) (sh : Share) (f : BitVec 8) (r : Nat × Nat) : Bool :=
  (runFrames r).all fun g => (mfind x.origin g).isSome && (!isMx f || (scaleFrame x sh g).isSome)

/-! ## Accumulator cells (R98, R104, R105, R108, R110, R114) -/

/-- floor(n × 2^sh). -/
def floorShift (n sh : Int) : Int := if 0 ≤ sh then n * 2 ^ sh.toNat else n / 2 ^ (-sh).toNat

/-- V = N + C × 2^96 (R105). -/
def Cell.value (c : Cell) : Int := c.n.toInt + c.c.toInt * 2 ^ 96

/-- A cell of value v: N, C and the residue of V (R105, R114). A value beyond N and C keeps its sign at the end of the range. -/
def cellOf (v : Int) (ovf : Bool) (sp : Special) : Cell :=
  let v := max (-(2 ^ 119)) (min (2 ^ 119 - 1) v)
  let n := BitVec.ofInt 96 v
  { n := n, c := BitVec.ofInt 24 ((v - n.toInt) / 2 ^ 96), ovf := ovf, special := sp, residue := BitVec.ofInt 7 (v % 127) }

/-- An infinite product enters a cell (R98). -/
def infSpecial (neg : Bool) : Special → Special
  | .finite => if neg then .negInf else .posInf
  | .posInf => if neg then .nan else .posInf
  | .negInf => if neg then .negInf else .nan
  | .nan => .nan

/-- The magnitude is 2^(A + 95) or more (R105). -/
def hugeTerm (a : Int) (m : Nat) (e : Int) : Bool := decide (m ≠ 0) && decide (95 ≤ (bitLen m : Int) - 1 + e - a)

/-- One exact term directed to a cell with anchor a (R98, R104, R105). -/
def addTerm (a : Int) (c : Cell) : Val → Cell
  | .nan _ => { c with special := .nan }
  | .inf neg => { c with special := infSpecial neg c.special }
  | .fin neg m e => cellOf (c.value + floorShift (sgn neg m) (e - a)) (c.ovf || hugeTerm a m e) c.special

/-- The codes of the special state in bits [1:0] of a spill record's byte 15: FINITE 0, NaN 1, +INF 2, −INF 3. The manual gives no codes
(DESIGN CHOICE, log entry 134). -/
def Special.code : Special → Nat
  | .finite => 0 | .nan => 1 | .posInf => 2 | .negInf => 3

/-- The special state of a code (DESIGN CHOICE, log entry 134). -/
def Special.ofCode : Nat → Special
  | 0 => .finite | 1 => .nan | 2 => .posInf | _ => .negInf

/-- A spill record read (R107): N, C, special state, OVF. -/
def spillCell (r : Bytes) : Cell :=
  let x := rd r 15 1
  cellOf (signed 96 (rd r 0 12) + signed 24 (rd r 12 3) * 2 ^ 96) (bit x 2) (Special.ofCode (x % 4))

/-- The spill record of a cell (R107). -/
def Cell.record (c : Cell) : Bytes := toLE 12 c.n.toNat ++ toLE 3 c.c.toNat ++ [BitVec.ofNat 8 (c.special.code + 4 * b2n c.ovf)]

/-- Two special states met in one cell: the manual states the rule for products only, and the model takes the same one: opposite infinities and
any NaN give NaN (DESIGN CHOICE, log entry 135). -/
def joinSpecial : Special → Special → Special
  | .finite, y => y
  | x, .finite => x
  | .posInf, .posInf => .posInf
  | .negInf, .negInf => .negInf
  | _, _ => .nan

/-- A spill record with anchor a enters a cell whose anchor is A: both at the larger anchor, the smaller side truncated (R108). -/
def joinSpill (big a b : Int) (c r : Cell) : Cell :=
  cellOf (floorShift c.value (b - big) + floorShift r.value (a - big)) (c.ovf || r.ovf) (joinSpecial c.special r.special)

/-- A cell brought from anchor a to a larger one (R108). -/
def Cell.rescale (a big : Int) (c : Cell) : Cell := { cellOf (floorShift c.value (a - big)) c.ovf c.special with home := c.home }

/-- A cell overflows (R110). -/
def Cell.overflows (c : Cell) : Bool :=
  c.special = .finite && (c.ovf || decide (c.value < -(2 ^ 95)) || decide (2 ^ 95 ≤ c.value))

/-- The saturated cell (R112). -/
def Cell.saturate (c : Cell) : Cell :=
  if c.overflows then { cellOf (if c.value < 0 then -(2 ^ 95) else 2 ^ 95 - 1) false c.special with home := c.home } else c

/-- The value that a conversion read converts: V × 2^A (R134). -/
def Cell.val (c : Cell) (a : Int) : Val :=
  match c.special with
  | .nan => .nan false
  | .posInf => .inf false
  | .negInf => .inf true
  | .finite => valOf c.value a false

/-- The cell belongs to the output tile. -/
def Cell.of (c : Cell) (t : TileIdx) : Bool := c.home.any fun h => decide (h.1 = t)

/-! ## Operations on cells (R97, R99, R100, R102, R106 to R108) -/

/-- Lanes of an operation: the smaller count of its two formats (R97). -/
def opLanes (m : MatmulOp) : Nat := min (lanes m.wFmt) (lanes m.aFmt)

/-- Vector k of a run: as many elements as there are lanes (R97). -/
def opVector (x : EngineState) (sh : Share) (f : BitVec 8) (base n k : Nat) : List Val := (List.range n).map fun i => cacheElem x sh f base (k * n + i)

def TileOp.mm : TileOp → MatmulOp
  | .deep m => m
  | .wide m => m
  | .conv c => c.mm

/-- Accumulator rows of an operation, and its cells. -/
def TileOp.rows : TileOp → Nat
  | .wide m => (m.rows + 15) / 16
  | op => op.mm.rows
def TileOp.cellCount : TileOp → Nat
  | .wide m => 32 * m.rows
  | op => 512 * op.mm.rows

/-- Elements of the input tile of a convolution (R102, R103). -/
def convElems (c : ConvOp) : Nat := (if c.oneD then 1 else c.height) * c.width * c.chans

/-- The runs that an operation reads: format, byte offset, elements (R99, R100, R102, R107). -/
def TileOp.reads (op : TileOp) : List (BitVec 8 × Nat × Nat) :=
  let m := op.mm
  let n := opLanes m
  (match op with
    | .deep m => [(m.wFmt, m.wAddr, 512 * n), (m.aFmt, m.aAddr, m.rows * n)]
    | .wide m => [(m.wFmt, m.wAddr, 512 * n), (m.aFmt, m.aAddr, 16 * m.rows * n)]
    | .conv c => [(m.wFmt, m.wAddr, 512 * c.chunks * n), (m.aFmt, m.aAddr, convElems c)])
  ++ match m.init with
    | .spill addr _ => [(0x10, addr, 16 * op.cellCount)]
    | .elems f addr => [(f, addr, op.cellCount)]
    | _ => []

/-- The byte runs of an operation. -/
def TileOp.runs (op : TileOp) : List (Nat × Nat) := op.reads.map fun r => elemRun r.1 r.2.1 r.2.2

/-- Every operand is in the operand cache, from the store, with its scale tile (R39, R91, R96). -/
def TileOp.ready (x : EngineState) (sh : Share) (op : TileOp) : Bool := op.reads.all fun r => runReady x sh r.1 (elemRun r.1 r.2.1 r.2.2)

/-- The first address of an operation that lies outside the share (R132). -/
def TileOp.outside (sh : Share) (op : TileOp) : Option Nat :=
  match op.runs.find? fun r => !inFrames sh r.1 r.2 with
  | some r => some r.1
  | none => if inRows sh op.mm.rowBase op.rows then none else some op.mm.rowBase

def cellIx (row col : Nat) : Nat := 512 * row + col
def accCell (x : EngineState) (row col : Nat) : Cell := mget {} x.acc (cellIx row col)
/-- The cells of accumulator row r. -/
def rowCells (x : EngineState) (r : Nat) : List Cell := (List.range 512).map (accCell x r)

/-- Some cell of the output tile is not read out. -/
def tileLive (x : EngineState) (t : TileIdx) : Bool := x.acc.any fun e => e.2.of t

/-- The anchor of the tile's cells before an operation: cells that stand keep theirs; otherwise a raise of this step stands in place of the
program's anchor (R106, R111). -/
def tileAnchor (x : EngineState) (m : MatmulOp) : Int :=
  let base := (mfind x.raised m.tile.toNat).getD m.anchor
  if tileLive x m.tile then (mfind x.anchors m.tile.toNat).getD base else base

/-- The anchor after it: spill records with a larger one raise it (R108). -/
def effAnchor (x : EngineState) (op : TileOp) : Int :=
  match op.mm.init with
  | .spill addr _ => (runFrames (elemRun 0x10 addr (16 * op.cellCount))).foldl (fun a g => max a (frameAnchor x g)) (tileAnchor x op.mm)
  | _ => tileAnchor x op.mm

/-- The cell as the operation starts on it (R107, R108); k counts the operation's cells from 0. -/
def startCell (x : EngineState) (sh : Share) (m : MatmulOp) (a : Int) (row col k : Nat) : Cell :=
  match m.init with
  | .keep => accCell x row col
  | .zero => {}
  | .spill addr onto =>
    joinSpill a (frameAnchor x ((addr + 16 * k) / 16384)) a (if onto then accCell x row col else {}) (spillCell (cacheRead x (addr + 16 * k) 16))
  | .elems f addr => addTerm a {} (cacheElem x sh f addr k)

/-- Products of the two vectors, lane by lane, added to a cell (R97, R104). -/
def accumulate (a : Int) (c : Cell) (w v : List Val) : Cell := (w.zip v).foldl (fun c p => addTerm a c (mulVal p.1 p.2)) c

/-- A cell of an operation: accumulator row and column, row of the output tile, and the pairs of vectors that it sums. -/
structure OpCell where
  row : Nat
  col : Nat
  tileRow : Nat
  sums : List (List Val × List Val)

/-- Deep shape (R99): row m of the activations and unit j give cell (rowBase + m, j). -/
def deepCells (m : MatmulOp) (x : EngineState) (sh : Share) : List OpCell :=
  let n := opLanes m
  let w := (List.range 512).map fun j => opVector x sh m.wFmt m.wAddr n j
  (List.range m.rows).flatMap fun r =>
    let a := opVector x sh m.aFmt m.aAddr n r
    (List.range 512).zip w |>.map fun jw => { row := m.rowBase + r, col := jw.1, tileRow := m.tileRow + r, sums := [(jw.2, a)] }

/-- Wide-and-shallow shape (R100): group g carries K slice g; row m, output c gives cell (rowBase + m div 16, 32 × (m mod 16) + c), the sum
over the 16 groups. -/
def wideCells (m : MatmulOp) (x : EngineState) (sh : Share) : List OpCell :=
  let n := opLanes m
  let w := (List.range 512).map fun j => opVector x sh m.wFmt m.wAddr n j
  (List.range m.rows).flatMap fun r =>
    let as := (List.range 16).map fun g => opVector x sh m.aFmt m.aAddr n (16 * r + g)
    (List.range 32).map fun c =>
      { row := m.rowBase + r / 16, col := 32 * (r % 16) + c, tileRow := m.tileRow + r
        sums := (List.range 16).map fun g => (w.getD (32 * g + c) [], as.getD g []) }

/-! ## Convolution (R102, R103) -/

/-- Channel chunk, kw and kh of K-chunk q in the feeder's order: channel chunk innermost, then kw, then kh (R102). -/
def chunkAt (c : ConvOp) (q : Nat) : Nat × Nat × Nat :=
  let n := c.chans / max 1 (opLanes c.mm)
  (q % n, q / n % c.kW, q / (n * c.kW))

/-- K-chunks of the convolution. -/
def convChunks (c : ConvOp) : Nat := c.chans / max 1 (opLanes c.mm) * c.kW * (if c.oneD then 1 else c.kH)

/-- Input row and column that an output position reads at a kernel position (R102). -/
def convInput (c : ConvOp) (pos kh kw : Nat) : Int × Int :=
  let oy := pos / c.outW
  let ox := pos % c.outW
  (if c.oneD then 0 else (oy : Int) * c.sh + kh * c.dh - c.ph, (ox : Int) * c.sw + kw * c.dw - c.pw)

/-- The broadcast vector of an output position at a K-chunk: the input's channels there, or zeros outside the input (R102). -/
def convVector (c : ConvOp) (x : EngineState) (sh : Share) (pos q : Nat) : List Val :=
  let n := opLanes c.mm
  let (cc, kw, kh) := chunkAt c q
  let (iy, ix) := convInput c pos kh kw
  if iy < 0 ∨ (if c.oneD then 1 else (c.height : Int)) ≤ iy ∨ ix < 0 ∨ (c.width : Int) ≤ ix then List.replicate n (.fin false 0 0)
  else opVector x sh c.mm.aFmt c.mm.aAddr n ((iy.toNat * c.width + ix.toNat) * (c.chans / n) + cc)

/-- The run's K-chunks in the feeder's order give cell (rowBase + r, j) for output position pos0 + r (R102). -/
def convCells (c : ConvOp) (x : EngineState) (sh : Share) : List OpCell :=
  let m := c.mm
  let n := opLanes m
  (List.range m.rows).flatMap fun r =>
    let vs := (List.range c.chunks).map fun q => convVector c x sh (c.pos0 + r) (c.chunk0 + q)
    (List.range 512).map fun j =>
      { row := m.rowBase + r, col := j, tileRow := m.tileRow + r
        sums := ((List.range c.chunks).zip vs).map fun p => (opVector x sh m.wFmt m.wAddr n (512 * p.1 + j), p.2) }

def TileOp.cells (op : TileOp) (x : EngineState) (sh : Share) : List OpCell :=
  match op with
  | .deep m => deepCells m x sh
  | .wide m => wideCells m x sh
  | .conv c => convCells c x sh

/-! ## Running an operation -/

/-- All cells of the tile at the anchor a (R106, R108). -/
def raiseCells (x : EngineState) (t : TileIdx) (old a : Int) : EngineState :=
  if old = a then x else { x with acc := x.acc.map fun e => if e.2.of t then (e.1, e.2.rescale old a) else e }

/-- The operation's cells take their initial values and their sums; the output tile's cells share one anchor (R104, R106 to R108). -/
def runCells (x : EngineState) (sh : Share) (op : TileOp) : EngineState :=
  let m := op.mm
  let a := effAnchor x op
  let x := raiseCells x m.tile (tileAnchor x m) a
  let cells := op.cells x sh
  let new := cells.map fun c =>
    let y := c.sums.foldl (fun y p => accumulate a y p.1 p.2) (startCell x sh m a c.row c.col (cellIx (c.row - m.rowBase) c.col))
    (cellIx c.row c.col, { y with home := some (m.tile, c.tileRow) })
  { x with
    acc := new.foldl (fun acc e => mput {} acc e.1 e.2) x.acc
    live := ((cells.map (·.row)).dedup).foldl (fun l r => withLast r l) x.live
    anchors := mins x.anchors m.tile.toNat a }

/-- The weight registers are loaded behind the active ones and swapped in (R95, R99): 96 bytes of elements and 4 of scales a unit; at the end
the last set of the operation is active. -/
def swapWeights (x : EngineState) (sh : Share) (m : MatmulOp) (set : Nat) : EngineState :=
  let n := opLanes m
  let reg := fun (j : Nat) =>
    let i := (512 * set + j) * n
    let p := elemPlace m.wFmt m.wAddr i
    pad 96 (cacheRead x (elemAddr m.wFmt m.wAddr i) ((n * elemSize m.wFmt + 7) / 8))
      ++ pad 4 (if isMx m.wFmt then slice (scaleBytes x sh p.1) (p.2 / 32) (max 1 (n / 32)) else [])
  { x with wShadow := x.wActive, wActive := (List.range 512).foldl (fun w j => mput [] w j (reg j)) x.wActive }

/-- The last weight set of an operation. -/
def TileOp.lastSet : TileOp → Nat
  | .conv c => c.chunks - 1
  | _ => 0

/-- An operation on the engine (R95 to R108). -/
def runOp (x : EngineState) (sh : Share) (op : TileOp) : EngineState := swapWeights (runCells x sh op) sh op.mm op.lastSet

/-- The frames that an operation reads, scale tiles among them, with their tiles. -/
def usedTiles (x : EngineState) (sh : Share) (op : TileOp) : List (Nat × FrameTile) :=
  let fs := op.runs.flatMap runFrames
  ((fs ++ fs.filterMap (scaleFrame x sh)).dedup).filterMap fun g => (mfind x.origin g).map fun o => (g, o)

/-- The operation joins those that the retry of its tile would run again (R111); a tile none of whose cells stands begins anew. -/
def noteOp (x : EngineState) (sh : Share) (op : TileOp) : EngineState :=
  let t := op.mm.tile
  let old := if tileLive x t then mget [] x.ops t.toNat else []
  { x with ops := mins x.ops t.toNat (old ++ [{ op := op, used := usedTiles x sh op }]) }

/-- What the checks found in a product's hardware is a fault of the step (R96, R115, R116). -/
def noteOpFault (s : State) (e : Engine) : Option (BitVec 8 × BitVec 16) → State
  | none => s
  | some f => noteFault s e f

/-- A product: it waits until its operands are there (R39, R91), its addresses are checked against the share (R132), its words are read
(R130), and its cells take their sums. -/
def product (s : State) (op : TileOp) : State :=
  let m := op.mm
  match contextShare (engOf s m.engine) m.ctx with
  | none => s
  | some sh =>
    match op.outside sh with
    | some a => violate s m.engine sh a
    | none =>
      if !op.ready (engOf s m.engine) sh then s
      else
        let (s, ok) := readWords s m.engine m.chk (fun _ => false) (inRuns op.runs)
        if ok then noteOpFault (setEng s m.engine fun x => runOp (noteOp x sh op) sh op) m.engine m.chk.fault else s

/-- An operation whose formats are not both operand formats is undefined (R10, R97). -/
def operandsOk (m : MatmulOp) : Bool := decide (0 < opLanes m)

/-- DEEP_SHAPE_MATMUL (R95 to R99, R104 to R108). -/
def execDeepShapeMatmul (m : MatmulOp) (s : State) : Out :=
  if operandsOk m then .next (product s (.deep m)) else .fault (.undefinedOperation 97)

/-- WIDE_SHAPE_MATMUL (R95 to R98, R100, R104 to R108). -/
def execWideShapeMatmul (m : MatmulOp) (s : State) : Out :=
  if operandsOk m then .next (product s (.wide m)) else .fault (.undefinedOperation 97)

/-- The obligations of R103 that the manual does not hand to a check, and the run's K-chunks are those of the convolution (R102). -/
def convOk (c : ConvOp) : Bool :=
  let k := fun n => decide (1 ≤ n ∧ n ≤ 7)
  let st := fun n => decide (1 ≤ n ∧ n ≤ 8)
  let n := opLanes c.mm
  decide (64 ≤ n) && k c.kW && st c.sw && st c.dw && decide (c.pw ≤ 6) && decide (0 < c.chans ∧ c.chans % n = 0)
    && decide (0 < c.chunks ∧ c.chunk0 + c.chunks ≤ convChunks c) && decide (0 < c.outW)
    && (c.oneD || (k c.kH && st c.sh && st c.dh && decide (c.ph ≤ 6)))

/-- CONVOLUTION (R102, R103). -/
def execConvolution (c : ConvOp) (s : State) : Out :=
  if !operandsOk c.mm then .fault (.undefinedOperation 97)
  else if !convOk c then .fault (.undefinedOperation 103)
  else .next (product s (.conv c))

/-! ## Conversion and retry (R110 to R113, R128, R134) -/

/-- Requests of the partition's step. -/
def stepHandles (q : Partition) : List Nat :=
  (q.slots.filter fun x => decide (x.2.state ≠ .free)).map (·.2.request) ++ q.step.items.map (·.handle)

/-- The FINAL of a request will carry a flag (Table 13.9). -/
def flagRequest (s : State) (f : BitVec 16) (h : Nat) : State := modReq s h fun r => { r with flags := r.flags ||| f }

/-- Every request that owns a row of the tile gets the flag (R111); where the program's map names no owner, every request of the step. -/
def flagOwners (s : State) (p : PartId) (t : Nat) (f : BitVec 16) : State :=
  let hs := tileOwners s p t
  (if hs = [] then stepHandles (partOf s p) else hs).foldl (fun s h => flagRequest s f h) s

/-- The accumulator rows that hold a cell not read out. -/
def liveRows (acc : Map Cell) (l : List Nat) : List Nat := l.filter fun r => acc.any fun e => decide (e.1 / 512 = r) && e.2.home.isSome

/-- The cells of an output tile are discarded (R111). -/
def discardTile (x : EngineState) (t : TileIdx) : EngineState :=
  let acc := x.acc.filter fun e => !e.2.of t
  { x with acc := acc, live := liveRows acc x.live, anchors := mdel x.anchors t.toNat }

/-- An operand tile of an operation is in the operand cache still, or readable in the store (R113). -/
def operandLeft (s : State) (x : EngineState) (u : Nat × FrameTile) : Bool :=
  let h := (slotOf s u.2.tile).hdr
  decide (mfind x.origin u.1 = some u.2)
    || (decide (h.state = .ready ∨ h.state = .held) && !h.poison && decide (h.crc = u.2.hdr.crc ∧ h.srcTile = u.2.hdr.srcTile))

/-- Some operand of the tile's operations is gone: a weight tile of a rolling plan that is FREE already (R113). -/
def operandsGone (s : State) (x : EngineState) (t : TileIdx) : Bool := (mget [] x.ops t.toNat).any fun r => r.used.any fun u => !operandLeft s x u

/-- The engine with the operand tiles of an operation in their frames, from the store where they are no longer there (R113). -/
def withOperands (s : State) (x : EngineState) (us : List (Nat × FrameTile)) : EngineState :=
  us.foldl (fun x u =>
    if mfind x.origin u.1 = some u.2 then x
    else { x with frames := mput [] x.frames u.1 (pad 16384 (slotOf s u.2.tile).payload), origin := mins x.origin u.1 u.2 }) x

/-- The retry of a tile (R111): every product and initial value once more, at the raised anchor. -/
def rerunTile (s : State) (e : Engine) (sh : Share) (t : TileIdx) : State :=
  setEng s e fun x => (mget [] x.ops t.toNat).foldl
    (fun y r => { runOp (withOperands s y r.used) sh r.op with frames := x.frames, origin := x.origin }) x

/-- The first overflow of a tile in a step (R111, R113). -/
def raiseAnchor (s : State) (e : Engine) (sh : Share) (t : TileIdx) : State :=
  let n := t.toNat
  let a := mget 0 (engOf s e).anchors n + 32
  let gone := operandsGone s (engOf s e) t
  let s := setEng s e fun x =>
    { discardTile x t with
      raised := mins x.raised n a, retrying := withLast n x.retrying, retries := x.retries + 1, cntRaised := x.cntRaised + 1 }
  let s := setPart s sh.part fun q => { q with anchorRaised := q.anchorRaised + 1 }
  let s := flagOwners s sh.part n flagAnchorRaised
  let s := if gone then setStep s sh.part fun x => { x with retracted := true } else s
  logEvent s (.anchorRaised (BitVec.ofNat 6 (e.val / 2)) sh.part (partOf s sh.part).step.epoch e.val n a)

/-- The row is read out: its cells belong to no output tile any more (R95, R128). -/
def releaseRow (x : EngineState) (r : Nat) : EngineState :=
  { x with acc := x.acc.map fun e => if e.1 / 512 = r then (e.1, { e.2 with home := none }) else e, live := without r x.live }

/-- The anchor of a cell: that of its output tile (R106). -/
def cellAnchor (x : EngineState) (c : Cell) : Int := (c.home.map fun h => mget 0 x.anchors h.1.toNat).getD 0

/-- The row converted into the vector register (R128, R134): elements 0 to 511 hold the converted encodings. -/
def convertRow (x : EngineState) (c : ConvRead) : EngineState :=
  let cells := rowCells x c.row
  let nans := if (floatOf c.fmt).isSome then 0 else (cells.filter fun k => decide (k.special = .nan)).length
  let y := putVreg x c.dst (cells.map fun k => w32 (convert c.fmt c.outAnchor (k.val (cellAnchor x k)) false))
  let y := { y with cntNan := x.cntNan + nans }
  if c.release then releaseRow y c.row else y

/-- Bytes of the operand cache written by the vector engine from an offset on (Table 6.1): the frames hold no tile of the store any more (k
bounds the frames). -/
def cacheWrite (x : EngineState) : Nat → Nat → Bytes → EngineState
  | 0, _, _ => x
  | k + 1, off, b =>
    if b = [] then x
    else
      let f := off / 16384
      let m := 16384 - off % 16384
      cacheWrite { x with frames := mmod [] x.frames f fun o => splice (pad 16384 o) (off % 16384) (b.take m), origin := mdel x.origin f }
        k (off + m) (b.drop m)

/-- The row's spill records written into the operand cache, with no overflow check (R107). -/
def spillRow (x : EngineState) (c : ConvRead) : EngineState :=
  let y := cacheWrite x 2 c.dst ((rowCells x c.row).flatMap Cell.record)
  if c.release then releaseRow y c.row else y

/-- The output tiles whose cells overflow in a row as it is read (R110, R128). -/
def overflowTiles (x : EngineState) (r : Nat) : List TileIdx :=
  ((rowCells x r).filterMap fun c => if c.overflows then c.home.map (·.1) else none).dedup

/-- A tile that overflows at the raised anchor (R112): its overflowed cells are saturated, the tile enters the fault log, and the step fails. -/
def saturateTile (s : State) (e : Engine) (t : TileIdx) : State :=
  let s := setEng s e fun x =>
    { x with
      acc := x.acc.map fun c => if c.2.of t then (c.1, c.2.saturate) else c
      saturated := withLast t.toNat x.saturated
      satRows := (x.acc.filterMap fun c => if c.2.of t && c.2.overflows then c.2.home.map fun h => (t.toNat, h.2) else none).foldl
        (fun l r => withLast r l) x.satRows }
  noteFault s e (0x13, 0xFFFF)

/-- A conversion read after its share check: an output tile overflows when any of its cells does (R110 to R112). -/
def conversion (s : State) (c : ConvRead) (sh : Share) : State :=
  let x := engOf s c.engine
  let ovf := overflowTiles x c.row
  let fresh := ovf.filter fun t => (mfind x.raised t.toNat).isNone
  if fresh ≠ [] then fresh.foldl (fun s t => raiseAnchor s c.engine sh t) s
  else
    let s := ovf.foldl (fun s t => saturateTile s c.engine t) s
    match c.chk.fault with
    | some f => noteFault s c.engine f
    | none => setEng s c.engine fun x => convertRow x c

/-- CONVERSION_READ with its share checks (R107, R126, R128, R132). -/
def conversionRead (s : State) (c : ConvRead) : State :=
  match contextShare (engOf s c.engine) c.ctx with
  | none => s
  | some sh =>
    if !inRows sh c.row 1 then violate s c.engine sh c.row
    else if c.fmt = 0x10 then
      if !inFrames sh c.dst 8192 then violate s c.engine sh c.dst
      else match c.chk.fault with
        | some f => noteFault s c.engine f
        | none => setEng s c.engine fun x => spillRow x c
    else if !inVregs sh c.dst then violate s c.engine sh c.dst
    else conversion s c sh

def execConversionRead (c : ConvRead) (s : State) : Out := .next (conversionRead s c)

/-- ANCHOR_RETRY_DONE (R111, R112): the tile is computed again at the raised anchor and is read for conversion. -/
def anchorRetryDone (s : State) (c : ConvRead) : State :=
  let n := c.tile.toNat
  if n ∈ (engOf s c.engine).retrying then
    let gone := operandsGone s (engOf s c.engine) c.tile
    let s := setEng s c.engine fun x => { x with retrying := without n x.retrying }
    match contextShare (engOf s c.engine) c.ctx with
    | none => s
    | some sh => if gone then s else conversionRead (rerunTile s c.engine sh c.tile) c
  else s

def execAnchorRetryDone (c : ConvRead) (s : State) : Out := .next (anchorRetryDone s c)

/-- At the start of a run of a partition's step no output tile has cells of the engine (R106). -/
def forgetTiles (x : EngineState) (p : PartId) : EngineState :=
  let mine := ([x.ctx0, x.ctx1].filterMap id).filter fun c => decide (c.part = p)
  { x with
    acc := x.acc.map fun e => if mine.any (fun c => inRows c (e.1 / 512) 1) then (e.1, { e.2 with home := none }) else e
    ops := [], anchors := [] }

/-! ## Current hold (R119, R120) -/

/-- The level that the feeder moves to (R119): it holds through a gap hinted below HOLD_GAP and through HOLD_GAP handshakes of a wait that has
no hint; a longer one lowers it to 0; the program's ramp raises it to 16. -/
def levelFor (x : EngineState) : HoldEvent → Nat
  | .gap n => if n < x.holdGap.toNat then x.level else 0
  | .wait n => if n < x.holdGap.toNat then x.level else 0
  | .ramp => 16

/-- ACTIVITY_HOLD_EXPIRY (R119). -/
def activityTarget (s : State) (e : Engine) (target : HoldEvent) : State := setEng s e fun x => { x with levelTarget := levelFor x target }

def execActivityHoldExpiry (e : Engine) (target : HoldEvent) (s : State) : Out := .next (activityTarget s e target)

/-- ACTIVITY_LEVEL_STEP (R119): one level toward the target every HOLD_SLOPE handshakes. -/
def activityStep (s : State) (e : Engine) : State :=
  setEng s e fun x =>
    { x with level := if x.level < x.levelTarget then x.level + 1 else if x.levelTarget < x.level then x.level - 1 else x.level }

def execActivityLevelStep (e : Engine) (s : State) : Out := .next (activityStep s e)

end Sys2Proof.Machine
end

