-- ==== Sys2Proof/Machine/Vector.lean ====
section
/-! DEFINITION. Chapter 06: vector engine operations: element-wise, MX quantisation, reductions, rotary encoding, normalisation. -/

namespace Sys2Proof.Machine

/-! ## Rows in vector registers (R127, R131, R136) -/

/-- Registers that a row of n elements spans. -/
def rowRegs (n : Nat) : Nat := (n + 1023) / 1024

/-- A row of n elements from register r on. -/
def vrow (x : EngineState) (r n : Nat) : List Word := ((List.range (rowRegs n)).flatMap fun i => vregOf x (r + i)).take n

/-- A row written from register r on (k counts the registers left). -/
def putRow (x : EngineState) (r : Nat) : Nat → List Word → EngineState
  | 0, _ => x
  | k + 1, ws => putRow (putVreg x r (ws.take 1024)) (r + 1) k (ws.drop 1024)

/-- Registers [r, r + n) lie in the share. -/
def regsIn (sh : Share) (r n : Nat) : Bool := sh.vr0 ≤ r && r + n ≤ sh.vr0 + sh.vrs

/-- Word w of the vector registers lies in one of the rows (register, elements). -/
def inRegs (l : List (Nat × Nat)) (w : Nat) : Bool := l.any fun r => decide (r.1 ≤ w / 1024 ∧ w / 1024 < r.1 + rowRegs r.2)

/-- What a vector operation touches: the rows (register, elements) and cache runs (offset, length) that it reads and writes. -/
structure Touch where
  srcs : List (Nat × Nat) := []
  dsts : List (Nat × Nat) := []
  reads : List (Nat × Nat) := []
  writes : List (Nat × Nat) := []

/-- The first register or address that lies outside the share (R132). -/
def Touch.outside (t : Touch) (sh : Share) : Option Nat :=
  ((t.srcs ++ t.dsts).find? fun r => !regsIn sh r.1 (rowRegs r.2)).map (·.1)
    |>.orElse fun _ => ((t.reads ++ t.writes).find? fun r => !inFrames sh r.1 r.2).map (·.1)

/-- A vector operation: share checks (R132), the words it reads (R127, R130), then the result, unless the lanes of a pair disagree: the results
are compared before either is written (R126). -/
def vectorOp (s : State) (e : Engine) (ctx : Bool) (k : OpChecks) (t : Touch) (f : Share → EngineState → EngineState) : State :=
  match contextShare (engOf s e) ctx with
  | none => s
  | some sh =>
    match t.outside sh with
    | some r => violate s e sh r
    | none =>
      let (s, ok) := readWords s e k (inRegs t.srcs) (inRuns t.reads)
      match k.fault with
      | some x => noteFault s e x
      | none => if ok then setEng s e (f sh) else s

/-! ## Element-wise operations (Table 6.2) -/

/-- A compare's result word. -/
def cmpWord (b : Bool) : Word := Config.compareWord b

/-- A composed function's result, a NaN in its canonical form (R133). -/
def composed (n : Nat) (a : Word) : Word := let w := Config.composedFunction n a; if isNan w then fpNan else w

/-- One element of an element-wise operation (R133, Table 6.2). -/
def vecElem (k : VecKind) (a b c : Word) : Word :=
  match k with
  | .add => fadd a b
  | .sub => fsub a b
  | .mul => fmul a b
  | .fma => ffma a b c
  | .min => fmin a b
  | .max => fmax a b
  | .cmpLt => cmpWord (flt a b)
  | .cmpEq => cmpWord (feq a b)
  | .select => if a = cmpWord true then b else c
  | .exp => fexp a
  | .exp2 => fexp2 a
  | .log => flog a
  | .log2 => flog2 a
  | .recip => frecip a
  | .rsqrt => frsqrt a
  | .sigmoid => composed 0 a
  | .tanh => composed 1 a
  | .silu => composed 2 a
  | .gelu => composed 3 a
  | .softplus => composed 4 a
  | .relu => fmax a 0
  | .leakyRelu => if flt a 0 then fmul a b else fadd a 0x80000000
  | .clamp => fmin (fmax a b) c
  | .convert f anchor => w32 (convert f anchor (fpVal a) false)
  | .widen f anchor => fpOf (elemVal f anchor a.toNat) false
  | .load .. => a
  | .store .. => a
  | .egress .. => a

/-- NaN operands of a conversion to an integer format (R134). -/
def nanCount (k : VecKind) (l : List Word) : Nat :=
  match k with
  | .convert f _ => if (floatOf f).isSome then 0 else (l.filter isNan).length
  | _ => 0

/-- Three rows combined element by element. -/
def zip3 (f : Word → Word → Word → Word) : List Word → List Word → List Word → List Word
  | a :: as, b :: bs, c :: cs => f a b c :: zip3 f as bs cs
  | _, _, _ => []

/-- Vector read (Table 6.1): n elements of the operand cache as a row of FP32 words. -/
def loadRow (x : EngineState) (sh : Share) (f : BitVec 8) (addr n : Nat) : List Word := (List.range n).map fun i => fpOf (cacheElem x sh f addr i) false

/-- Vector write (Table 6.1): a row as packed elements of a format in the operand cache (R134). -/
def storeRow (x : EngineState) (f : BitVec 8) (anchor : Int) (addr : Nat) (l : List Word) : EngineState :=
  let nans := if (floatOf f).isSome then 0 else (l.filter isNan).length
  let b := packBits (elemSize f) (l.map fun w => convert f anchor (fpVal w) false)
  cacheWrite { x with cntNan := x.cntNan + nans } (b.length / 16384 + 2) addr b

/-- What an element-wise operation, a vector read or a vector write touches. -/
def VecOp.touch (v : VecOp) : Touch :=
  match v.kind with
  | .load f addr => { dsts := [(v.dst, v.n)], reads := [elemRun f addr v.n] }
  | .store f _ addr => { srcs := [(v.a, v.n)], writes := [(addr, (v.n * elemSize f + 7) / 8)] }
  | .egress g _ _ => { reads := [(16384 * g, 16384)] }
  | _ => { srcs := [(v.a, v.n), (v.b, v.n), (v.c, v.n)], dsts := [(v.dst, v.n)] }

/-- The result of an element-wise operation, a vector read or a vector write. -/
def VecOp.result (v : VecOp) (sh : Share) (x : EngineState) : EngineState :=
  let a := vrow x v.a v.n
  match v.kind with
  | .load f addr => putRow x v.dst (rowRegs v.n) (loadRow x sh f addr v.n)
  | .store f anchor addr => storeRow x f anchor addr a
  | .egress .. => x
  | k =>
    putRow { x with cntNan := x.cntNan + nanCount k a } v.dst (rowRegs v.n) (zip3 (vecElem k) a (vrow x v.b v.n) (vrow x v.c v.n))

/-! ## Egress (Table 6.1, R42, R106, R107, R320, R344) -/

/-- The header of an output tile as the output writer closes it: partition, world and step of the running context; the ANCHOR of the cells for
floating-point tiles and spill tiles, and the program's for integer tiles (R106, R107); the CRC (R42). -/
def outTile (x : EngineState) (sh : Share) (ep : Epoch) (t : TileIdx) (h : TileHeader) (payload : Bytes) : Tile :=
  let cells := (floatOf h.format).isSome || decide (h.format = 0x10 ∧ h.cols = 16)
  let anchor := if cells then ((mfind x.anchors t.toNat).map (BitVec.ofInt 16)).getD h.anchor else h.anchor
  Tile.sealed { hdr := { h with owner := if h.owner = 0x3E then 0x3E else sh.part.setWidth 6, world := sh.world, anchor := anchor, epoch := ep
                                prod := ep, poison := false, state := .free }, payload := payload }

/-- A producer that has detected a fault in a tile it writes inverts its CRC and sends the Bureau an event (R344). -/
def faultyTile (s : State) (e : Engine) (t : TileIdx) (f : Option (BitVec 8 × BitVec 16)) (tile : Tile) : State × Tile :=
  match f with
  | none => (s, tile)
  | some m => (logEvent s (.unnamed 1 (BitVec.ofNat 6 (e.val / 2)) [w32 m.1.toNat, w32 e.val, w32 t.toNat]),
      { tile with hdr := { tile.hdr with crc := ~~~ tile.hdr.crc } })

/-- An output tile of an engine goes to the store: to its partition's share, or for another block with OWNER 0x3E (R46, R320). -/
def writeOut (s : State) (e : Engine) (sh : Share) (t : TileIdx) (h : TileHeader) (payload : Bytes) (f : Option (BitVec 8 × BitVec 16)) : State :=
  let q := partOf s sh.part
  if decide (h.owner ≠ 0x3E) && !inShare q t then violate s e sh t.toNat
  else
    let (s, tile) := faultyTile s e t f (outTile (engOf s e) sh q.step.epoch t h payload)
    writeTile s (BitVec.ofNat 6 (e.val / 2)) t tile sh.world

/-- A frame leaves as an output tile. -/
def egress (s : State) (v : VecOp) (g : Nat) (t : TileIdx) (h : TileHeader) : State :=
  match contextShare (engOf s v.engine) v.ctx with
  | none => s
  | some sh =>
    match v.touch.outside sh with
    | some r => violate s v.engine sh r
    | none =>
      let (s, ok) := readWords s v.engine v.chk (fun _ => false) (inRuns v.touch.reads)
      if ok then writeOut s v.engine sh t h (pad 16384 (mget [] (engOf s v.engine).frames g)) v.chk.fault else s

/-- VECTOR_OP (R126, R127, R129, R132 to R134). -/
def execVectorOp (v : VecOp) (s : State) : Out :=
  match v.kind with
  | .egress g t h => .next (egress s v g t h)
  | _ => .next (vectorOp s v.engine v.ctx v.chk v.touch v.result)

/-- MX blocks of a row (k bounds the blocks): scales and elements (R135). -/
def mxRow (f : BitVec 8) : Nat → List Word → List Nat × List Nat
  | 0, _ => ([], [])
  | k + 1, l =>
    if l = [] then ([], [])
    else
      let b := mxBlock f ((l.take 32).map fpVal)
      let r := mxRow f k (l.drop 32)
      (b.1 :: r.1, b.2 ++ r.2)

/-- MX_QUANTISE (R135): the row's packed elements go to the operand cache from byte offset dst on, its block scales from offset scaleDst on, in
the slot of the scale tile (R39). -/
def execMxQuantise (v : VecRef) (f : BitVec 8) (scaleDst : Nat) (s : State) : Out :=
  let blocks := (v.n + 31) / 32
  .next (vectorOp s v.engine v.ctx v.chk
    { srcs := [(v.a, v.n)], writes := [(v.dst, (v.n * elemSize f + 7) / 8), (scaleDst, blocks)] } fun _ x =>
    let r := mxRow f blocks (vrow x v.a v.n)
    let b := packBits (elemSize f) r.2
    cacheWrite (cacheWrite x (b.length / 16384 + 2) v.dst b) (blocks / 16384 + 2) scaleDst (r.1.map (BitVec.ofNat 8)))

/-- The reduction of a row (R136). -/
def reduce (k : RedKind) (l : List Word) : Word :=
  match k with
  | .sum => sumTree l
  | .max => maxTree l
  | .min => minTree l

/-- The reduction down rows: element by element, over rows in ascending order (R136). -/
def reduceDown (k : RedKind) (rows : List (List Word)) (n : Nat) : List Word := (List.range n).map fun i => reduce k (rows.map fun r => r.getD i 0)

/-- REDUCTION (R136): along a row the result is element 0 of the destination register; down the rows it is a row. -/
def execReduction (v : VecRef) (kind : RedKind) (s : State) : Out :=
  let rows := (List.range v.rows).map fun i => (v.a + i * rowRegs v.n, v.n)
  if v.rows = 0 then
    .next (vectorOp s v.engine v.ctx v.chk { srcs := [(v.a, v.n)], dsts := [(v.dst, 1)] } fun _ x => putVreg x v.dst [reduce kind (vrow x v.a v.n)])
  else
    .next (vectorOp s v.engine v.ctx v.chk { srcs := rows, dsts := [(v.dst, v.n)] } fun _ x =>
      putRow x v.dst (rowRegs v.n) (reduceDown kind (rows.map fun r => vrow x r.1 r.2) v.n))

/-- One rotated pair (R137). -/
def rotate (a b c s : Word) : Word × Word := (ffma a c (fneg (fmul b s)), ffma a s (fmul b c))

/-- Pairs (2i, 2i + 1) of a row. -/
def rotAdjacent : List Word → List Word → List Word → List Word
  | a :: b :: l, c :: cs, s :: ss => (rotate a b c s).1 :: (rotate a b c s).2 :: rotAdjacent l cs ss
  | _, _, _ => []

/-- Pairs (i, i + h) of a row of 2h elements. -/
def rotHalves (l cs ss : List Word) : List Word :=
  let h := l.length / 2
  let r := (List.range h).map fun i => rotate (l.getD i 0) (l.getD (h + i) 0) (cs.getD i 0) (ss.getD i 0)
  r.map (·.1) ++ r.map (·.2)

/-- The row of a table for its position: h values from the operand cache. -/
def tableRow (x : EngineState) (sh : Share) (t : RotTable) (h : Nat) : List Word :=
  (List.range h).map fun i => fpOf (cacheElem x sh t.fmt t.addr (t.pos * h + i)) false

/-- A position beyond its table is a program error under R132 (R137). -/
def beyondTable (ts : List RotTable) (h : Nat) : Option Nat := (ts.find? fun t => decide (t.positions ≤ t.pos)).map fun t => elemAddr t.fmt t.addr (t.pos * h)

/-- ROTARY_ENCODING (R137): the tables' values come from the cosine and sine tiles in the operand cache. -/
def rotary (s : State) (v : VecRef) (c t : RotTable) (half : Bool) : State :=
  let h := v.n / 2
  match contextShare (engOf s v.engine) v.ctx, beyondTable [c, t] h with
  | some sh, some a => violate s v.engine sh a
  | _, _ =>
    vectorOp s v.engine v.ctx v.chk
      { srcs := [(v.a, v.n)], dsts := [(v.dst, v.n)]
        reads := [c, t].map fun k => (elemAddr k.fmt k.addr (k.pos * h), (h * elemSize k.fmt + 7) / 8) } fun sh x =>
      let l := vrow x v.a v.n
      putRow x v.dst (rowRegs v.n) (if half then rotHalves l (tableRow x sh c h) (tableRow x sh t h)
        else rotAdjacent l (tableRow x sh c h) (tableRow x sh t h))

def execRotaryEncoding (v : VecRef) (cosReg sinReg : RotTable) (half : Bool) (s : State) : Out := .next (rotary s v cosReg sinReg half)

/-- RMS normalisation (R138). -/
def rmsNorm (l g : List Word) (eps : Word) : List Word :=
  let q := fmul (sumTree (l.map fun x => fmul x x)) (fRecipNat l.length)
  let r := frsqrt (fadd q eps)
  (l.zip g).map fun p => fmul (fmul p.1 r) p.2

/-- Layer normalisation (R138). -/
def layerNorm (l g b : List Word) (eps : Word) : List Word :=
  let inv := fRecipNat l.length
  let mu := fmul (sumTree l) inv
  let d := l.map fun x => fsub x mu
  let v := fmul (sumTree (d.map fun x => fmul x x)) inv
  let r := frsqrt (fadd v eps)
  zip3 (fun d g b => ffma (fmul d r) g b) d g b

/-- NORMALISATION (R138). -/
def execNormalisation (v : VecRef) (layer : Bool) (eps : Word) (gain bias : Nat) (s : State) : Out :=
  .next (vectorOp s v.engine v.ctx v.chk
    { srcs := [(v.a, v.n), (gain, v.n)] ++ (if layer then [(bias, v.n)] else []), dsts := [(v.dst, v.n)] } fun _ x =>
    let l := vrow x v.a v.n
    let g := vrow x gain v.n
    putRow x v.dst (rowRegs v.n) (if layer then layerNorm l g (vrow x bias v.n) eps else rmsNorm l g eps))

end Sys2Proof.Machine
end

