-- ==== Sys2Proof/Machine/Selection.lean ====
section
/-! DEFINITION. Chapter 06: the selection unit (exact, bucketed, merge), SELECT payloads, merges within and across modules. -/

namespace Sys2Proof.Machine

/-! ## Ranking (R140) -/

/-- key(s, order) (R140). -/
def selKey (asc : Bool) (s : Word) : Nat :=
  let s := if s = 0x80000000 then 0 else s
  let k := if s.msb then ~~~ s else s ^^^ 0x80000000
  (if asc then ~~~ k else k).toNat

/-- The score of a key (the inverse of key). -/
def keyScore (asc : Bool) (k : Nat) : Word :=
  let k := if asc then ~~~ w32 k else w32 k
  if k.msb then k ^^^ 0x80000000 else ~~~ k

def fillId : BitVec 40 := 0xFFFFFFFFFF

/-- An entry with its position. -/
structure PosEntry where
  pos : Nat
  score : Word
  id : BitVec 40
deriving DecidableEq, Repr

/-- An entry that selection skips (R140). -/
def invalidEntry (e : PosEntry) : Bool := isNan e.score || e.id = fillId

/-- ranks_before (R140). -/
def ranksBefore (asc : Bool) (a b : PosEntry) : Bool :=
  selKey asc b.score < selKey asc a.score || (selKey asc a.score = selKey asc b.score && a.pos < b.pos)

/-- An entry inserted by rank. -/
def rankInsert (asc : Bool) (e : PosEntry) : List PosEntry → List PosEntry
  | [] => [e]
  | x :: l => if ranksBefore asc e x then e :: x :: l else x :: rankInsert asc e l

/-- The best k of the entries, in rank order (R142). -/
def bestOf (asc : Bool) (k : Nat) (l : List PosEntry) : List PosEntry := l.foldl (fun best e => (rankInsert asc e best).take k) []

/-! ## Sums (R141 to R143, R150) -/

/-- A sum over a set of entries: finite part, infinities present, a term that was clamped. -/
structure SelSum where
  fin : Int := 0
  posInf : Bool := false
  negInf : Bool := false
  clamped : Bool := false
deriving DecidableEq, Repr

def SelSum.plus (a b : SelSum) : SelSum :=
  { fin := a.fin + b.fin, posInf := a.posInf || b.posInf, negInf := a.negInf || b.negInf, clamped := a.clamped || b.clamped }

/-- The anchor of sums (Table 6.3). -/
def sumAnchorOf (p : SelParams) : Int := if p.mass then -70 else p.sumAnchor

/-- exp(d) in the fixed-point sum of MASS mode (R142, R143). -/
def massOf (d : Word) : SelSum :=
  match fpVal (fexp d) with
  | .fin _ m e => let t := floorShift m (e + 70); if 2 ^ 95 ≤ t then { fin := 2 ^ 95 - 1, clamped := true } else { fin := t }
  | .inf _ => { fin := 2 ^ 95 - 1, clamped := true }
  | .nan _ => {}

/-- d of R142. -/
def massDiff (asc : Bool) (s m : Word) : Word := if asc then fsub m s else fsub s m

/-- term(e) (R142, R143); m is M in MASS mode. -/
def termOf (p : SelParams) (m : Option Word) (s : Word) : SelSum :=
  if p.mass then
    match m with
    | none => {}
    | some m => if selKey p.ascending s = selKey p.ascending m then { fin := 2 ^ 70 } else massOf (massDiff p.ascending s m)
  else match fpVal s with
    | .fin n g e => { fin := floorShift (sgn n g) (e - p.sumAnchor) }
    | .inf n => { posInf := !n, negInf := n }
    | .nan _ => {}

/-- The reported value of a sum and whether it sets SUM_OVF (R143). -/
def SelSum.report (x : SelSum) : Int × Bool :=
  if x.posInf || x.negInf then (if x.posInf && x.negInf then 0 else if x.posInf then 2 ^ 95 - 1 else -(2 ^ 95), true)
  else (max (-(2 ^ 95)) (min (2 ^ 95 - 1) x.fin), x.clamped || decide (x.fin < -(2 ^ 95)) || decide (2 ^ 95 ≤ x.fin))

def sumTerms (p : SelParams) (m : Option Word) (l : List PosEntry) : SelSum := l.foldl (fun a e => a.plus (termOf p m e.score)) {}

/-- M of a MASS selection: REF, or the first-ranked valid score (R143). -/
def massRef (p : SelParams) (valid : List PosEntry) : Option Word :=
  if isNan p.ref then (bestOf p.ascending 1 valid).head?.map (·.score) else some p.ref

/-- REF_USED (Table 6.5). -/
def refUsed (p : SelParams) (m : Option Word) : Word := if p.mass then m.getD fpNan else 0

/-! ## Selection (R142 to R146) -/

/-- What a method selects: the winners, the TIES count, the boundary score under APPROX. -/
structure Picked where
  out : List PosEntry
  ties : Nat
  boundary : Option Word := none
deriving DecidableEq, Repr

/-- TIES of R142. -/
def tiesOf (asc : Bool) (k : Nat) (valid out : List PosEntry) : Nat :=
  match out.getLast? with
  | none => 0
  | some l =>
    if out.length < k then 0
    else (valid.filter fun e => decide (selKey asc e.score = selKey asc l.score) && decide (l.pos < e.pos)).length

/-- METHOD EXACT (R142). -/
def pickExact (asc : Bool) (k : Nat) (valid : List PosEntry) : Picked :=
  let out := bestOf asc k valid
  { out := out, ties := tiesOf asc k valid out }

/-- Entries whose bucket is at least b. -/
def fromBucket (asc : Bool) (b : Nat) (l : List PosEntry) : Nat := (l.filter fun e => decide (b ≤ selKey asc e.score / 2 ^ 22)).length

/-- The boundary bucket: the first from the top at which the running count reaches k (R145). -/
def boundary (asc : Bool) (k : Nat) (l : List PosEntry) : Nat → Nat
  | 0 => 0
  | b + 1 => if k ≤ fromBucket asc (b + 1) l then b + 1 else boundary asc k l b

/-- METHOD BUCKET (R145, R146). -/
def pickBucket (asc : Bool) (k : Nat) (valid : List PosEntry) : Picked :=
  if valid.length < k then pickExact asc k valid
  else
    let b := boundary asc k valid 1023
    let above := valid.filter fun e => decide (b < selKey asc e.score / 2 ^ 22)
    let inB := valid.filter fun e => decide (selKey asc e.score / 2 ^ 22 = b)
    let out := bestOf asc k above ++ bestOf asc (k - above.length) (inB.take 4096)
    if 4096 < inB.length then { out := out, ties := inB.length - 4096, boundary := some (keyScore asc (b * 2 ^ 22)) }
    else { out := out, ties := tiesOf asc k valid out }

/-- The 96-bit sum as FP32 (Table 6.5). -/
def sumFp (v a : Int) : Word := fpOf (valOf v a false) false

/-- The list of a selection (R144, R147), given its sums. -/
def selList (p : SelParams) (x : Picked) (inputs invalid : Nat) (m : Option Word) (sel rest : Int) (ovf : Bool) : SelList :=
  { entries := x.out.map fun e => (BitVec.ofNat 24 e.pos, e.id, e.score)
    nValid := x.out.length, k := p.k
    kthScore := (x.boundary.orElse fun _ => x.out.getLast?.map (·.score)).getD fpNegInf
    ties := x.ties, inputCount := inputs, invalid := invalid, refUsed := refUsed p m, sumAnchor := sumAnchorOf p
    approx := x.boundary.isSome, mass := p.mass, sumOvf := ovf, ascending := p.ascending, source := p.source
    sumSel := sel, sumRest := rest, sumSelF := sumFp sel (sumAnchorOf p), sumRestF := sumFp rest (sumAnchorOf p) }

/-- A selection over scored entries in input order (R139 to R146). -/
def select (p : SelParams) (bucket : Bool) (input : List SelEntry) : SelList :=
  let pe := (List.range input.length).zip input |>.map fun x => ({ pos := x.1, score := x.2.score, id := x.2.id } : PosEntry)
  let valid := pe.filter fun e => !invalidEntry e
  let m := if p.mass then massRef p valid else none
  let x := if bucket then pickBucket p.ascending p.k valid else pickExact p.ascending p.k valid
  let selS := (sumTerms p m x.out).report
  let restS := (sumTerms p m (valid.filter fun e => decide (e ∉ x.out))).report
  let total := (sumTerms p m valid).report
  selList p x input.length (input.length - valid.length) m selS.1 restS.1 (selS.2 || restS.2 || total.2)

/-! ## SELECT payloads (R147) -/

/-- The 12,416 bytes of a SELECT payload; bytes between the entries and the summary are undefined: free values, by the counter. -/
def SelList.bytes (l : SelList) (n : Nat) : Bytes :=
  let e := l.entries.flatMap fun e => toLE 4 e.2.2.toNat ++ toLE 5 e.2.1.toNat ++ toLE 3 e.1.toNat
  let fill := (List.range (l.k - l.entries.length)).flatMap fun _ => toLE 4 0xFF800000 ++ toLE 5 0xFFFFFFFFFF ++ toLE 3 0xFFFFFF
  let body := e ++ fill
  let gap := (List.range (12288 - body.length)).map fun i => Config.freeByte n (body.length + i)
  let flags := b2n l.approx + 2 * b2n l.mass + 4 * b2n l.dupMismatch + 8 * b2n l.sumOvf + 16 * b2n l.ascending
  body ++ gap ++ toLE 4 l.nValid ++ toLE 4 l.k ++ toLE 4 l.kthScore.toNat ++ toLE 4 l.ties ++ toLE 4 l.inputCount ++ toLE 4 l.invalid
    ++ toLE 4 l.refUsed.toNat ++ toLE 2 (BitVec.ofInt 16 l.sumAnchor).toNat ++ toLE 1 flags ++ toLE 1 l.source
    ++ toLE 12 (BitVec.ofInt 96 l.sumSel).toNat ++ toLE 12 (BitVec.ofInt 96 l.sumRest).toNat
    ++ toLE 4 l.sumSelF.toNat ++ toLE 4 l.sumRestF.toNat ++ toLE 4 l.dupRemoved ++ List.replicate 60 0

/-- A SELECT payload read (R147). -/
def SelList.ofBytes (b : Bytes) : SelList :=
  let z := 12288
  let n := rd b z 4
  let f := rd b (z + 30) 1
  { entries := (List.range n).map fun i =>
      (BitVec.ofNat 24 (rd b (12 * i + 9) 3), BitVec.ofNat 40 (rd b (12 * i + 4) 5), w32 (rd b (12 * i) 4))
    nValid := n, k := rd b (z + 4) 4, kthScore := w32 (rd b (z + 8) 4), ties := rd b (z + 12) 4, inputCount := rd b (z + 16) 4
    invalid := rd b (z + 20) 4, refUsed := w32 (rd b (z + 24) 4), sumAnchor := signed 16 (rd b (z + 28) 2)
    approx := bit f 0, mass := bit f 1, dupMismatch := bit f 2, sumOvf := bit f 3, ascending := bit f 4, source := rd b (z + 31) 1
    sumSel := signed 96 (rd b (z + 32) 12), sumRest := signed 96 (rd b (z + 44) 12), sumSelF := w32 (rd b (z + 56) 4)
    sumRestF := w32 (rd b (z + 60) 4), dupRemoved := rd b (z + 64) 4 }

/-! ## Merging (R149, R150) -/

/-- Lists in ascending SOURCE. -/
def insSource (x : SelList) : List SelList → List SelList
  | [] => [x]
  | y :: l => if x.source < y.source then x :: y :: l else y :: insSource x l
def bySource (l : List SelList) : List SelList := l.foldl (fun a x => insSource x a) []

/-- Entries kept, entries removed as duplicates, and whether a removed copy's score differs (R149). -/
structure Dedup where
  kept : List PosEntry := []
  removed : List PosEntry := []
  mismatch : Bool := false
deriving DecidableEq, Repr

def dedupStep (d : Dedup) (e : PosEntry) : Dedup :=
  match d.kept.find? fun k => decide (k.id = e.id) with
  | none => { d with kept := d.kept ++ [e] }
  | some k => { d with removed := d.removed ++ [e], mismatch := d.mismatch || decide (k.score ≠ e.score) }

/-- exp(d) × sum, truncated toward −∞ (R150). -/
def scaleSum (asc : Bool) (r m : Word) (v : Int) : Int :=
  if selKey asc r = selKey asc m then v
  else match fpVal (fexp (massDiff asc r m)) with
    | .fin _ g e => floorShift (v * g) e
    | _ => 0

/-- A sum as it enters the combination of a merge: exact, and as it is reported where infinities decide it (R143, R150). -/
def SelSum.exact (x : SelSum) : Int := if x.posInf || x.negInf then x.report.1 else x.fin

/-- A merge of partial lists (R149, R150): the sums are combined exactly, and each reported one is saturated at the end. -/
def mergeLists (p : SelParams) (bucket : Bool) (ls : List SelList) : SelList :=
  let ls := bySource ls
  let all := ls.flatMap fun l => l.entries
  let pe := (List.range all.length).zip all |>.map fun x => ({ pos := x.1, score := x.2.2.2, id := x.2.2.1 } : PosEntry)
  let d := pe.foldl dedupStep {}
  let valid := d.kept.filter fun e => !invalidEntry e
  let some' := ls.filter fun l => decide (0 < l.nValid)
  let m := if p.mass then
      (bestOf p.ascending 1 (some'.map fun l => { pos := l.source, score := l.refUsed, id := 0 })).head?.map (·.score)
    else none
  let part := if p.mass then some' else ls
  let total := (part.map fun l => match m with
    | some w => scaleSum p.ascending l.refUsed w l.sumSel + scaleSum p.ascending l.refUsed w l.sumRest
    | none => if p.mass then 0 else l.sumSel + l.sumRest).sum
  let x := if bucket then pickBucket p.ascending p.k valid else pickExact p.ascending p.k valid
  let selS := sumTerms p m x.out
  let total := total - (sumTerms p m d.removed).exact
  let restS := ({ fin := max 0 (total - selS.exact) } : SelSum).report
  let totalS := ({ fin := total } : SelSum).report
  let r := selList p x all.length 0 m selS.report.1 restS.1 (selS.report.2 || restS.2 || totalS.2 || ls.any (·.sumOvf))
  { r with dupMismatch := d.mismatch, dupRemoved := d.removed.length, approx := r.approx || ls.any (·.approx) }

/-! ## Commands of the selection unit -/

/-- The header of a SELECT tile (R147): FORMAT SELECT, ROWS K, COLS 12; one that passes between blocks has OWNER 0x3E and PERSIST (R46, R151). -/
def selHeader (p : SelParams) : TileHeader :=
  { format := 0x11, rows := BitVec.ofNat 16 p.k, cols := 12, tenant := p.tenant, cls := 2, out := !p.persist, persist := p.persist
    owner := if p.persist then 0x3E else 0 }

/-- The result of an operation stays in the unit's record of its output tile, and is written as a SELECT payload (R139, R147); APPROX goes to
the requests that own it (R146). -/
def putList (s : State) (e : Engine) (sh : Share) (p : SelParams) (out : TileIdx) (l : SelList) : State :=
  let n := s.free
  let s := { s with engines := { s.engines with selOut := mins s.engines.selOut out.toNat l }, free := s.free + 1 }
  let s := if l.approx then flagOwners s sh.part out.toNat flagApprox else s
  writeOut s e sh out (selHeader p) (pad 16384 (l.bytes n)) none

/-- The limits of Table 6.3 and R139; an operation outside them is undefined (R10). -/
def selOk (p : SelParams) (n : Nat) : Bool :=
  1 ≤ p.k && p.k ≤ 1024 && n ≤ 16777216 && (p.mass || decide (-128 ≤ p.sumAnchor ∧ p.sumAnchor ≤ 127))

/-- The valid entries of a SELECT payload, in its order (R139, R144). -/
def SelList.input (l : SelList) : List SelEntry := l.entries.map fun e => { score := e.2.2, id := e.2.1 }

/-- The input of a selection in input order (R139): ids of a run of vector registers are ID_BASE + i. -/
def selEntries (s : State) (e : Engine) (p : SelParams) : SelInput → List SelEntry
  | .regs r n =>
    let l := vrow (engOf s e) r n
    ((List.range l.length).zip l).map fun x => { score := x.2, id := p.idBase + BitVec.ofNat 40 x.1 }
  | .cached as => as.flatMap fun a => (SelList.ofBytes (cacheRead (engOf s e) a 12416)).input
  | .stored ts => ts.flatMap fun t => (SelList.ofBytes (slotOf s t).payload).input

/-- What a selection reads of the engine (R132). -/
def SelInput.touch : SelInput → Touch
  | .regs r n => { srcs := [(r, n)] }
  | .cached as => { reads := as.map fun a => (a, 12416) }
  | .stored _ => {}

/-- A selection of a running context: share checks (R132), the words read (R127, R130), and the result, unless the unit's checks find a
fault. -/
def selectOp (s : State) (e : Engine) (p : SelParams) (input : SelInput) (out : TileIdx) (bucket : Bool) : State :=
  match contextShare (engOf s e) (engOf s e).running with
  | none => s
  | some sh =>
    match input.touch.outside sh with
    | some r => violate s e sh r
    | none =>
      let (s, ok) := readWords s e p.chk (inRegs input.touch.srcs) (inRuns input.touch.reads)
      match p.chk.fault with
      | some f => noteFault s e f
      | none => if ok then putList s e sh p out (select p bucket (selEntries s e p input)) else s

/-- SELECT_EXACT (R139 to R144). -/
def execSelectExact (e : Engine) (p : SelParams) (input : SelInput) (out : TileIdx) (s : State) : Out :=
  if selOk p (selEntries s e p input).length then .next (selectOp s e p input out false) else .fault (.undefinedOperation 141)

/-- SELECT_BUCKET (R139 to R141, R143 to R146). -/
def execSelectBucket (e : Engine) (p : SelParams) (input : SelInput) (out : TileIdx) (s : State) : Out :=
  if selOk p (selEntries s e p input).length then .next (selectOp s e p input out true) else .fault (.undefinedOperation 141)

/-- The partial list of a merge slot: the SELECT tile of the store (R151). -/
def listAt (s : State) (t : TileIdx) : SelList := .ofBytes (slotOf s t).payload

/-- The tiles whose lists hold differing copies of an id (R149). -/
def differing (ls : List (TileIdx × SelList)) : List TileIdx :=
  let all := ls.flatMap fun x => x.2.input.map fun e => (x.1, e)
  ((all.filter fun a => all.any fun b => decide (b.2.id = a.2.id ∧ b.2.score ≠ a.2.score)).map (·.1)).dedup

/-- A merge whose copies differ is a fault of the step (R149), its tiles noted for R354, and its requests carry the flag (Table 13.9). -/
def selectMerge (s : State) (e : Engine) (p : SelParams) (inputs : List TileIdx) (bucket : Bool) (out : TileIdx) : State :=
  match contextShare (engOf s e) (engOf s e).running with
  | none => s
  | some sh =>
    match p.chk.fault with
    | some f => noteFault s e f
    | none =>
      let l := mergeLists p bucket (inputs.map (listAt s))
      let ts := differing (inputs.map fun t => (t, listAt s t))
      let s := putList s e sh p out l
      if l.dupMismatch then
        let s := setEng s e fun x => { x with dupTiles := if x.dupTiles = [] then ts else x.dupTiles }
        noteFault (flagOwners s sh.part out.toNat flagDupMismatch) e (0x0C, 0xFFFF)
      else s

/-- SELECT_MERGE (R149, R150). -/
def execSelectMerge (e : Engine) (p : SelParams) (inputs : List TileIdx) (bucket : Bool) (out : TileIdx) (s : State) : Out :=
  if selOk p 0 then .next (selectMerge s e p inputs bucket out) else .fault (.undefinedOperation 141)

/-! ## Merge collective (R151 to R154) -/

def mergeOf (s : State) (m : Nat) : MergeState := mget {} s.engines.merges m
def setMerge (s : State) (m : Nat) (f : MergeState → MergeState) : State :=
  { s with engines := { s.engines with merges := mmod {} s.engines.merges m f } }

/-- A slot's tile can be read. -/
def readable (s : State) (t : TileIdx) : Bool := (slotOf s t).hdr.state = .ready || (slotOf s t).hdr.state = .held

/-- The budget of the request's reads has passed in its retrieval phase (R151, R174, R178). -/
def budgetPassed (s : State) (h : Nat) : Bool :=
  (reqOf s h).any fun q => match (match q.phase with | .fetch => q.ret.fetchAt | _ => q.ret.scanAt) with
    | some a => decide (q.block.readBudget ≤ since a (now s))
    | none => false

/-- MERGE_START (R151): when every expected slot has arrived, the owner reads the partial lists; a merge in a retrieval phase whose read budget
has passed runs on the slots present, with PARTIAL_PROBE where some are missing (R177). -/
def mergeStart (s : State) (m : Nat) (expected : MergeSet) : State :=
  let slots := expected.slots.filter fun x => decide (x.1 ∉ (mergeOf s m).withdrawn)
  let here := slots.filter fun x => readable s x.2
  let cut := expected.budgetOf.filter (budgetPassed s)
  let s := setMerge s m fun x =>
    { x with expected := slots, arrived := here.map (·.1), started := decide (here.length = slots.length) || cut.isSome }
  match cut with
  | some h => if here.length < slots.length then flagRequest s flagPartialProbe h else s
  | none => s

def execMergeStart (m : Nat) (expected : MergeSet) (s : State) : Out := .next (mergeStart s m expected)

/-- Bytes 0 to 16,447 of a merge slot: the tile header, 32 reserved bytes, the payload (R152). -/
def mergeSlotBytes (t : Tile) : Bytes := toLE 32 t.hdr.toNat ++ List.replicate 32 0 ++ pad 16384 t.payload

/-- The ready line's 64 bytes, at 16,448 of its slot (Table 6.7). -/
def ReadyLine.bytes (l : ReadyLine) : Bytes :=
  toLE 8 l.seq.toNat ++ toLE 4 l.epoch.toNat ++ [BitVec.ofNat 8 (b2n l.provisional), l.source] ++ List.replicate 2 0 ++ toLE 4 l.crc.toNat
    ++ toLE 4 l.writer.toNat ++ List.replicate 40 0

/-- The ready line of a partial list: EPOCH and CRC of its tile, the writer's die and pair position (Table 6.7). -/
def readyLineOf (s : State) (l : MergePart) (seq : BitVec 64) : ReadyLine :=
  let h := (slotOf s l.tile).hdr
  { seq := seq, epoch := h.prod, provisional := l.provisional, source := l.source, crc := h.crc
    writer := w32 (l.engine.val / 2 + 256 * b2n s.pair.position) }

/-- MERGE_SLOT_PUBLISH (R152, R153): the slot's header and payload lines are written (order 2), and once every one of them is globally visible
(order 3) the ready line is written with SEQ + 1 (order 4); a line rewritten for the partial that the slot holds is its COMMIT (R361). -/
def mergePublish (s : State) (slot : Nat) (l : MergePart) (visible : Bool) : State :=
  if !visible then
    if readable s l.tile then
      let x := slotOf s l.tile
      emit { s with engines := { s.engines with slotLines := mins s.engines.slotLines slot l.tile } }
        (.mergeSlot slot (mergeSlotBytes { hdr := x.hdr, payload := x.payload }))
    else s
  else if mfind s.engines.slotLines slot = some l.tile || decide ((mget {} s.engines.published slot).crc = (slotOf s l.tile).hdr.crc) then
    let r := readyLineOf s l ((mget {} s.engines.published slot).seq + 1)
    emit { s with engines := { s.engines with published := mins s.engines.published slot r, slotLines := mdel s.engines.slotLines slot } }
      (.mergeLine slot r)
  else s

def execMergeSlotPublish (slot : Nat) (l : MergePart) (visible : Bool) (s : State) : Out := .next (mergePublish s slot l visible)

/-- READY_LINE_INVALIDATION (R153 orders 4 and 5): the owner's copy of the pinned line is gone. -/
def lineInvalid (s : State) (m src : Nat) : State :=
  if (mfind (mergeOf s m).lines src).isSome then setMerge s m fun x => { x with invalid := withLast src x.invalid } else s

def execReadyLineInvalidation (m src : Nat) (s : State) : Out := .next (lineInvalid s m src)

/-- Ready lines held pinned by the module (R153). -/
def pinnedLines (s : State) : Nat := (s.engines.merges.map fun m => m.2.lines.length).sum

/-- The partition for which an engine's running context works. -/
def enginePart (s : State) (e : Engine) : Option PartId := (runningShare (engOf s e)).map (·.part)

/-- A withdrawn partial (R362): its source is absent. -/
def withdrawnList (l : ReadyLine) (tile : Tile) : Bool :=
  let x := SelList.ofBytes tile.payload
  !l.provisional && decide (x.nValid = 0 ∧ x.inputCount = 0xFFFFFFFF)

/-- The merge's work of partition p depends on a PROVISIONAL partial of an epoch, or no longer does (R360, R361). -/
def noteProvisional (s : State) (p : PartId) (e : Epoch) (t : TileIdx) (on : Bool) : State :=
  let s := { s with pair := { s.pair with
    provisional := s.pair.provisional.filter (fun x => decide (x.tile ≠ t)) ++ if on then [{ part := p.toNat, epoch := e, tile := t }] else [] } }
  setStep s p fun x => { x with provisional := without (p.toNat, e) x.provisional ++ if on then [(p.toNat, e)] else [] }

/-- A new partial list is accepted into its store slot (R153 order 6); one marked PROVISIONAL keeps the step from committing (R154, R360). A
line rewritten for a partial held PROVISIONAL says COMMIT, or RETRACT with a resend whose contents differ, which the merge starts anew on (R361). -/
def acceptLine (s : State) (m src : Nat) (owner : Engine) (t : TileIdx) (l : ReadyLine) (tile : Tile) : State :=
  let x := mergeOf s m
  let held := if src ∈ x.arrived then (mfind x.lines src).filter (·.provisional) else none
  let same := held.any fun h => decide (h.crc = l.crc)
  let s := if same then s
    else
      let s := if held.isSome then setSlot s t fun y => { y with hdr := { y.hdr with state := .free } } else s
      writeTile s 0x3C t { tile with hdr := { tile.hdr with persist := true, srcValid := false } } tile.hdr.world
  let s := setMerge s m fun x =>
    { x with
      lines := mins x.lines src l, invalid := without src x.invalid, reread := without src x.reread, arrived := withLast src x.arrived
      provisional := if l.provisional then withLast src x.provisional else without src x.provisional
      withdrawn := if withdrawnList l tile then withLast src x.withdrawn else without src x.withdrawn
      started := x.started && (held.isNone || same) }
  match enginePart s owner with
  | none => s
  | some p =>
    let s := if held.isSome && !same then setStep s p fun x => { x with retracted := true } else s
    if l.provisional || held.isSome then noteProvisional s p l.epoch t l.provisional else s

/-- READY_LINE_REREAD (R153 orders 1, 5 and 6, R154). -/
def lineReread (s : State) (m src : Nat) (owner : Engine) (t : TileIdx) (l : ReadyLine) (tile : Tile) : State :=
  match mfind (mergeOf s m).lines src with
  | none => if 1024 ≤ pinnedLines s then s else setMerge s m fun x => { x with lines := mins x.lines src l }
  | some old =>
    if src ∉ (mergeOf s m).invalid then s
    else if l.seq.toNat ≤ old.seq.toNat then setMerge s m fun x => { x with invalid := without src x.invalid }
    else if tile.crcOk && tile.hdr.crc = l.crc then acceptLine s m src owner t l tile
    else if src ∈ (mergeOf s m).reread then
      noteFault (setMerge s m fun x => { x with invalid := without src x.invalid, reread := without src x.reread, lines := mins x.lines src l })
        owner (0x04, 0xFFFF)
    else setMerge s m fun x => { x with reread := withLast src x.reread }

def execReadyLineReread (m src : Nat) (owner : Engine) (t : TileIdx) (l : ReadyLine) (tile : Tile) (s : State) : Out :=
  .next (lineReread s m src owner t l tile)

end Sys2Proof.Machine
end

