-- ==== Sys2Proof/Machine/Retrieval.lean ====
section
/-! DEFINITION. Chapter 07: the centroid walk, the flash scan, the candidate merge, the passage fetch, the degradation ladder. The turn
conductor's own records (beam, probes, candidates) are held with the request. What passes between blocks lies in tiles of its pool as well; the
blocks that the model does not split into their reads take it from the request (log entry 145). -/

namespace Sys2Proof.Machine

/-! ## Programs' times and the ladder's prediction (R189, R209) -/

def partId (n : Nat) : PartId := BitVec.ofNat 5 n
/-- The loaded program of a partition number; none for 0xFF. -/
def progOf (s : State) (n : Nat) : Option Program := if n < 32 then (partOf s (partId n)).prog else none

/-- FIXED and RATE µs of a step shape at floor rate, from the program's step-time table (R14, R209, R321). The manual gives the table no format
and no rule for a shape that it does not list exactly: the model takes the first listed entry of the mapping that covers rows, prefill tokens
and depth, and a free value where none does (DESIGN CHOICE, log entry 129). -/
def stepShape (g : Program) (mapping rows prefill depth : Nat) : Nat × Nat :=
  match g.sec.table.find? fun e => decide (e.mapping = mapping ∧ rows ≤ e.rows ∧ prefill ≤ e.prefill ∧ depth ≤ e.depth) with
  | some e => (e.fixed, e.rate)
  | none => (Config.stepFixedUs g.addr mapping rows prefill depth, Config.stepRateUs g.addr mapping rows prefill depth)

/-- Floor-rate µs of a step shape. -/
def stepUs (g : Program) (mapping rows prefill depth : Nat) : Nat :=
  (stepShape g mapping rows prefill depth).1 + (stepShape g mapping rows prefill depth).2

/-- rerank(n): the re-rank partition's floor-rate time for n pairs of one turn. -/
def rerankUs (s : State) (part n : Nat) : Nat :=
  match progOf s part with
  | none => 0
  | some g => ((n + g.batch - 1) / max 1 g.batch) * stepUs g (partOf s (partId part)).mapping g.batch 0 0

/-- The Lectern's floor-rate pack time for a prompt of p tokens: 27.3 µs plus 0.055 µs a token. -/
def packUs (p : Nat) : Nat := (27300 + 55 * p + 999) / 1000

/-- W: one full step of the generator partition. -/
def fullStepUs (s : State) (part : Nat) : Nat :=
  match progOf s part with
  | none => 0
  | some g => stepUs g (partOf s (partId part)).mapping g.slots g.prefillTokens 0

/-- prefill(P): the generator's floor-rate prefill time for P prompt tokens. -/
def prefillUs (s : State) (part p : Nat) : Nat :=
  match progOf s part with
  | none => 0
  | some g => ((p + g.prefillTokens - 1) / max 1 g.prefillTokens) * stepUs g (partOf s (partId part)).mapping 1 g.prefillTokens 0

/-- T_pred of R189, without the scan and re-rank terms. -/
def predTail (s : State) (r : Request) (p : Nat) : Nat := packUs p + fullStepUs s r.block.genPart + prefillUs s r.block.genPart p

/-- TOKEN_BUDGET of the turn's template (Table 8.1). -/
def templateBudget (r : Request) : Nat := match r.template with | some t => rd t 4 2 | none => 0

/-- A first-token miss is predicted (R189). -/
def missPredicted (s : State) (r : Request) (scan n p : Nat) : Bool :=
  r.block.firstDeadline ≠ 0
    && decide (r.block.firstDeadline < (now s).toNat + scan + rerankUs s r.block.rerankPart n + predTail s r p)

/-! ## Indexes and snapshots (R155, R184) -/

/-- The snapshot that a request holds is given back (R184). -/
def releaseSnap (s : State) (h : Nat) : State :=
  match reqOf s h with
  | none => s
  | some r => match r.ret.snap with
    | none => s
    | some e => modReq (dropSnap s r.block.index e) h fun r => { r with ret := { r.ret with snap := none } }

/-! ## Ends of requests -/

/-- Queued items of a request leave every admission ring (R196, R232). -/
def dequeueItems (s : State) (h : Nat) : State :=
  { s with gen := { s.gen with parts := mmap (fun _ q =>
      { q with rings := (mmap (fun _ l => l.filter fun i => decide (i.handle ≠ h)) q.rings).filter fun e => decide (e.2 ≠ []) }) s.gen.parts } }

/-- A phase of the turn conductor ends: its translations and the drains that wait for it go (R69, R73). -/
def phaseEnds (s : State) (h : Nat) : State :=
  { s with tier := { s.tier with
      cache := s.tier.cache.filter fun c => decide (c.1 ≠ 0x3E)
      drains := mmap (fun _ d => { d with users := without (0x3E, h) d.users }) s.tier.drains } }


/-- Store tiles of the turn conductor's pool that a request holds. -/
def heldTiles (q : Request) : List TileIdx := q.ret.scanTiles ++ q.ret.unitTiles.map (·.2) ++ q.ret.tplTile

/-- The turn conductor frees every tile of a request (R46, R207). -/
def freeHeld (s : State) (h : Nat) : State :=
  match reqOf s h with
  | none => s
  | some q => modReq (freePassing s (heldTiles q)) h fun q => { q with ret := { q.ret with scanTiles := [], unitTiles := [], tplTile := [] } }

/-- The tiles of a request's prompt are freed, once a slot has its tokens or the request ends. -/
def freePrompt (s : State) (h : Nat) : State :=
  match reqOf s h with
  | none => s
  | some q => modReq (freePassing s q.ret.promptTiles) h fun q => { q with ret := { q.ret with promptTiles := [] } }

/-- The tiles of the scan are freed, once the merge has read them (R46). -/
def freeScan (s : State) (h : Nat) : State :=
  match reqOf s h with
  | none => s
  | some q => modReq (freePassing s q.ret.scanTiles) h fun q => { q with ret := { q.ret with scanTiles := [] } }

/-- Tiles written into the turn conductor's pool for a request's scan; none where the pool is full. -/
def scanPut (s : State) (h : Nat) (src : DieId) (ts : List Tile) : Option State :=
  (reqOf s h).bind fun _ => (conductorPut src false ts s).map fun r =>
    modReq r.2 h fun q => { q with ret := { q.ret with scanTiles := q.ret.scanTiles ++ r.1 } }

/-- A request that has no output ends with a status and AUX; what it holds is given back (R184, R196). -/
def endRequest (s : State) (h : Nat) (st : Status) (aux : BitVec 32) : State :=
  let s := if st = .mediaError then faultEnds s 8 0 0x0E 5 0x3E else s
  finishPlain (dequeueItems (releaseSnap (freePrompt (freeHeld (phaseEnds s h) h) h) h) h) h st aux

/-- The next phase of a request; one marked by CANCEL ends with its phase (R313, Table 13.16). -/
def toPhase (s : State) (h : Nat) (p : Phase) : State :=
  if (reqOf s h).any (·.cancel) then endRequest s h .cancelled 0 else modReq (phaseEnds s h) h fun r => { r with phase := p }

/-- A phase found faulty is rerun once from its inputs; a second fault ends the turn with PROGRAM_MISMATCH (R348). -/
def rerunPhase (s : State) (h : Nat) (again : State → State) : State :=
  match reqOf s h with
  | none => s
  | some r =>
    if r.ret.rerun then endRequest (faultEnds s 8 0 0x04 1 0x3E) h .programMismatch 0
    else again (modReq s h fun r => { r with ret := { r.ret with rerun := true } })

/-! ## The walk (R157, R158, R167 to R169) -/

/-- STATE and FORWARD of a centroid record (R157). -/
def centRecord (s : State) (r : IndexRec) (c : Nat) : Nat × Nat :=
  let w := devNum s (r.recBase + 16 * c + 4) 4
  (w / 2 ^ 30, w % 2 ^ 25)

/-- resolve(n) of R158: the hops left. -/
def resolveHops (s : State) (r : IndexRec) : Nat → Nat → Option Nat
  | 0, _ => none
  | k + 1, n =>
    if n = 0xFFFFFFFF ∨ r.centroids ≤ n then none
    else match (centRecord s r n).1 with
      | 0 => some n
      | 2 => none
      | _ => resolveHops s r k (centRecord s r n).2
def resolve (s : State) (r : IndexRec) (n : Nat) : Option Nat := resolveHops s r 4 n

/-- The stored FP8 vector of a centroid. -/
def centVector (s : State) (r : IndexRec) (c : Nat) : Bytes := devRead s (r.centBase + c * r.dim) r.dim

/-- q8 (R167). -/
def toE4m3 (q : List Word) : List Nat := q.map fun w => convert 0x04 0 (fpVal w) false

/-- The walk's dot product: exact under R104 with WALK_ANCHOR, then converted to FP32 (R167). -/
def walkDot (anchor : Int) (q8 : List Nat) (c : Bytes) : Word :=
  let cell := accumulate anchor {} (q8.map fmtE4m3.decode) (c.map fun b => fmtE4m3.decode b.toNat)
  fpOf (cell.val anchor) false

/-- rne(2 × dot − NORM), or dot (R167). -/
def walkScore (s : State) (r : IndexRec) (q8 : List Nat) (c : Nat) : Word :=
  let dot := walkDot r.walkAnchor q8 (centVector s r c)
  if r.metricIp then dot else ffma 0x40000000 dot (fneg (w32 (devNum s (r.recBase + 16 * c) 4)))

/-- Walk scores rank descending, equal scores by the lower id (R167). -/
def beamBefore (a b : Word × Nat) : Bool :=
  selKey false b.1 < selKey false a.1 || (selKey false a.1 = selKey false b.1 && a.2 < b.2)
def beamInsert (x : Word × Nat) : List (Word × Nat) → List (Word × Nat)
  | [] => [x]
  | y :: l => if beamBefore x y then x :: y :: l else y :: beamInsert x l

/-- New ids scored into the beam; one with a NaN score is skipped and counted (R167, R168). -/
def scoreInto (s : State) (r : IndexRec) (q8 : List Nat) (width : Nat) (acc : List (Word × Nat) × Nat) (c : Nat) : List (Word × Nat) × Nat :=
  let w := walkScore s r q8 c
  if isNan w then (acc.1, acc.2 + 1) else ((beamInsert (w, c) acc.1).take width, acc.2)

/-- Ids resolved, new ones kept in order, the skipped counted. -/
def resolveNew (s : State) (r : IndexRec) (acc : List Nat × List Nat × Nat) (n : Nat) : List Nat × List Nat × Nat :=
  match resolve s r n with
  | none => (acc.1, acc.2.1, acc.2.2 + 1)
  | some c => if c ∈ acc.1 then acc else (c :: acc.1, acc.2.1 ++ [c], acc.2.2)

/-- The effective beam width (R168, R297). -/
def beamWidth (r : IndexRec) (b : TurnBlock) : Nat := if b.beam = 0 then r.beam else b.beam

/-- Ids of the entry set (R157). -/
def entrySet (s : State) (r : IndexRec) : List Nat := (List.range r.entryCount).map fun i => devNum s (r.entryBase + 4 * i) 4

/-- Neighbour ids of a centroid (R157). An empty place, 0xFFFF_FFFF, resolves to none as R158 has it, and is counted as every such id is. -/
def neighbours (s : State) (r : IndexRec) (c : Nat) : List Nat :=
  (List.range 32).map fun i => devNum s (r.graphBase + 128 * c + 4 * i) 4

/-- WALK_START (R167, R168, R184, R383): the snapshot, the entry set, the first beam. -/
def walkStart (s : State) (h : Nat) : State :=
  match reqOf s h with
  | none => s
  | some q =>
    if q.phase ≠ .walk then s
    else match indexOf s q.block.index with
      | none => endRequest s h .badDescriptor 0x0001000B
      | some r =>
        if q.ret.query.length ≠ r.dim then endRequest s h .programMismatch 0
        else
          let snap := q.mirrorSnap.getD r.epoch
          let s := takeSnap s q.block.index snap
          let (vis, new, sk) := (entrySet s r).foldl (resolveNew s r) ([], [], 0)
          let (beam, nan) := new.foldl (scoreInto s r (toE4m3 q.ret.query) (beamWidth r q.block)) ([], 0)
          let s := modReq s h fun q => { q with
            skippedEdges := q.skippedEdges + sk + nan
            ret := { q.ret with snap := some snap, beam := beam, visited := vis, expanded := [], round := 0 } }
          if q.mirrored && s.pair.link = .up then sendMsg s { type := 0x32, tenant := q.fn, ref := q.tag, epoch := snap } .none else s

def execWalkStart (h : Nat) (s : State) : Out := .next (walkStart s h)

/-- The query slice of a list (R169): BF16 elements. -/
def querySlice (s : State) (r : IndexRec) (q : List Word) (c : Nat) : List (BitVec 16) :=
  let bf := fun w => BitVec.ofNat 16 (convert 0x02 0 (fpVal w) false)
  if r.metricIp then q.map bf
  else (q.zip (centVector s r c)).map fun p => bf (fsub p.1 (fpOf (fmtE4m3.decode p.2.toNat) false))

/-- The probe record of a chosen centroid (R169). -/
def probeOf (s : State) (r : IndexRec) (q : List Word) (x : Word × Nat) : Probe :=
  { list := x.2, score := x.1
    baseScore := if r.metricIp then walkDot r.walkAnchor (toE4m3 q) (centVector s r x.2) else 0
    slice := querySlice s r q x.2 }

/-- The bytes of a probe record beside its slice: list number, walk score, base score. The manual gives the record no layout: the model takes 4
bytes for each, in that order (DESIGN CHOICE, log entry 144). -/
def Probe.bytes (p : Probe) : Bytes := toLE 4 p.list ++ toLE 4 p.score.toNat ++ toLE 4 p.baseScore.toNat

/-- The tiles that hold the probe records of a walk: one of list numbers and scores, then 2D bytes a slice (R169). -/
def probeTiles (tn : Tenant) (ps : List Probe) : List Tile :=
  let sl := ps.flatMap fun p => p.slice.flatMap fun w => toLE 2 w.toNat
  rawTile tn (ps.flatMap Probe.bytes) :: rawTiles tn sl

/-- The walk ends: rung 1, then the probe records, in the store (R168, R169, Table 7.9). While the pool has no room for them the walk waits. -/
def walkEnd (s : State) (h : Nat) (r : IndexRec) : State :=
  match reqOf s h with
  | none => s
  | some q =>
    let b := q.block
    let cond := passed s b.softDeadline || (q.op = .turn && missPredicted s q b.readBudget b.candidates (templateBudget q))
    let few := cond && decide (b.nprobeMin < b.nprobe)
    let n := if few then b.nprobeMin else b.nprobe
    let ps := (q.ret.beam.take n).map (probeOf s r q.ret.query)
    match scanPut s h 0x3C (probeTiles q.fn ps) with
    | none => s
    | some s => toPhase (modReq s h fun q => { q with
        flags := if few then q.flags ||| flagFewerLists else q.flags
        ret := { q.ret with probes := ps } }) h .scan

/-- One round of the walk (R168). -/
def walkRound (s : State) (h : Nat) (r : IndexRec) (q : Request) (frontier : List Nat) : State :=
  let (vis, new, sk) := (frontier.flatMap (neighbours s r)).foldl (resolveNew s r) (q.ret.visited, [], 0)
  let (beam, nan) := new.foldl (scoreInto s r (toE4m3 q.ret.query) (beamWidth r q.block)) (q.ret.beam, 0)
  modReq s h fun q => { q with
    skippedEdges := q.skippedEdges + sk + nan
    ret := { q.ret with beam := beam, visited := vis, expanded := q.ret.expanded ++ frontier, round := q.ret.round + 1 } }

/-- The centroids of the beam that are not expanded. -/
def frontierOf (q : Request) : List Nat := (q.ret.beam.map (·.2)).filter fun c => decide (c ∉ q.ret.expanded)

/-- The walk has ended: an empty frontier, the round limit, or the visited bound (R168). -/
def walkOver (r : IndexRec) (q : Request) : Bool :=
  (frontierOf q).isEmpty || decide (r.maxRounds ≤ q.ret.round) || decide (63488 ≤ q.ret.visited.length)

/-- WALK_ROUND_END (R168). -/
def walkRoundEnd (s : State) (h : Nat) : State :=
  match reqOf s h with
  | none => s
  | some q =>
    if q.phase ≠ .walk || q.ret.snap.isNone then s
    else match indexOf s q.block.index with
      | none => endRequest s h .programMismatch 0
      | some r =>
        if walkOver r q then walkEnd s h r
        else
          let s := walkRound s h r q (frontierOf q)
          match reqOf s h with
          | some q => if walkOver r q then walkEnd s h r else s
          | none => s

def execWalkRoundEnd (h : Nat) (s : State) : Out := .next (walkRoundEnd s h)

/-! ## Lists, entries, filters (R159 to R164, R170 to R173, R185) -/

/-- A list directory entry as a number (Table 7.2). -/
def dirEntry (s : State) (r : IndexRec) (l : Nat) : Nat := devNum s (r.listdirBase + 32 * l) 32
def dirBase (e : Nat) : Nat := bits e 255 222
def dirUnits (e : Nat) : Nat := bits e 221 206
def dirGen (e : Nat) : Nat := bits e 177 170
def dirDeltaHead (e : Nat) : Nat := bits e 169 136
def dirTombHead (e : Nat) : Nat := bits e 123 90

/-- Payload of a device-range tile. -/
def devPayload (s : State) (n : Nat) : Bytes := ((devTile s n).map (·.payload)).getD []

/-- The tiles of a chain: the link of a delta tile is in trailer bytes 16 to 23, that of a tombstone tile in trailer bytes 0 to 7. -/
def chainFrom (s : State) (linkAt : Nat) : Nat → Nat → List Nat
  | 0, _ => []
  | k + 1, t => if t = 0 then [] else t :: chainFrom s linkAt k (rd (devPayload s t) linkAt 8)
def deltaChain (s : State) (e : Nat) : List Nat := chainFrom s 16336 16 (dirDeltaHead e)
def tombChain (s : State) (e : Nat) : List Nat := chainFrom s 16368 4 (dirTombHead e)

/-- Tombstone records of a tile: (pid, DEL_EPOCH) of the valid ones (R164). -/
def tombRecords (b : Bytes) : List (Nat × Nat) :=
  ((List.range 1023).filter fun i => bit (rd b (16 * i + 9) 1) 0).map fun i => (rd b (16 * i) 5, rd b (16 * i + 5) 4)

/-- Entries of a unit or delta tile: the count is in trailer bytes 8 and 9 (R160). -/
def unitEntries (r : IndexRec) (b : Bytes) : List Bytes :=
  (List.range (min (rd b 16328 2) (16320 / r.entryBytes))).map fun i => slice b (r.entryBytes * i) r.entryBytes

/-- The value test of one filter term (R172, Table 7.5). -/
def termTrue (attr t : Nat) : Bool :=
  let v := (attr / 2 ^ bits t 13 8) % 2 ^ bits t 7 2
  match bits t 15 14 with
  | 0 => v = bits t 71 16
  | 1 => v ≠ bits t 71 16
  | _ => decide (bits t 71 16 ≤ v) && decide (v ≤ bits t 127 72)

/-- A filter term as a number. -/
def filterTerm (f : Bytes) (g t : Nat) : Nat := rd f (16 + 16 * (8 * g + t)) 16

/-- The groups of a filter, or no filter at all (R172). -/
def filterPasses (f : Option Bytes) (attr : Nat) : Bool :=
  match f with
  | none => true
  | some f =>
    let n := rd f 4 1
    n = 0 || (List.range n).any fun g => (List.range (rd f g 1)).all fun t => termTrue attr (filterTerm f g t)

/-- Offset of the first offending byte of one term (R171). -/
def termBad (f : Bytes) (g t : Nat) : Option Nat :=
  let o := 16 + 16 * (8 * g + t)
  let v := filterTerm f g t
  if g < rd f 4 1 ∧ t < rd f g 1 then
    if v % 4 ≠ 0 ∨ bits v 7 2 = 0 ∨ 64 < bits v 13 8 + bits v 7 2 then some o
    else if bits v 13 8 < 9 ∨ bits v 15 14 = 3 then some (o + 1) else none
  else ((List.range 16).find? fun i => decide (rd f (o + i) 1 ≠ 0)).map (· + o)

/-- The offset of the first offending byte of an invalid filter (R171). -/
def filterBad (f : Bytes) : Option Nat :=
  let n := rd f 4 1
  match (List.range 4).find? fun g => decide (8 < rd f g 1 ∨ (n ≤ g ∧ rd f g 1 ≠ 0)) with
  | some g => some g
  | none =>
    if 4 < n then some 4
    else match (List.range 11).find? fun i => decide (rd f (5 + i) 1 ≠ 0) with
      | some i => some (5 + i)
      | none => (List.range 32).findSome? fun k => termBad f (k / 8) (k % 8)

/-- visible(e, snap, tombs) (R185). -/
def visible (e : Bytes) (snap : Nat) (tombs : List (Nat × Nat)) : Bool :=
  if !bit (rd e 21 1) 0 then false
  else
    let del := rd e 17 4
    let del := match tombs.find? fun t => decide (t.1 = rd e 8 5) with
      | some t => min del t.2
      | none => del
    decide (rd e 13 4 ≤ snap) && decide (snap < del)

/-- Sub-centroid k of subspace j as FP32 values (R164). -/
def subCentroid (s : State) (r : IndexRec) (j k : Nat) : List Word :=
  let w := r.dim / r.pqM
  toFp32 0x02 0 (devRead s (r.codebookBase + 2 * ((256 * j + k) * w)) (2 * w)) [] w

/-- LUT[j][k] (R170). -/
def lutEntry (s : State) (r : IndexRec) (slc : List Word) (j k : Nat) : Word :=
  let w := r.dim / r.pqM
  let p := ((slc.drop (j * w)).take w).zip (subCentroid s r j k)
  if r.metricIp then sumTree (p.map fun x => fmul x.1 x.2)
  else fneg (sumTree (p.map fun x => let d := fsub x.1 x.2; fmul d d))

/-- The scan score of an entry (R170). -/
def scanScore (s : State) (r : IndexRec) (p : Probe) (e : Bytes) : Word :=
  let slc := p.slice.map fun b => fpOf (fmtBf16.decode b.toNat) false
  fadd p.baseScore (sumTree ((List.range r.pqM).map fun j => lutEntry s r slc j (rd e (24 + j) 1)))

/-! ## The scan (R162, R173 to R176) -/

/-- The probe's record as the scan is issued: directory entry, units, chains. The delta entries of a list go to the shelf engine of the channel
that holds its base's first unit; those of a list without base units to that of channel l mod 32. -/
def issueProbe (s : State) (r : IndexRec) (p : Probe) : Probe :=
  let e := dirEntry s r p.list
  { p with base := dirBase e, units := List.range (dirUnits e), gen := BitVec.ofNat 8 (dirGen e), deltas := deltaChain s e
           tombTiles := tombChain s e, deltaAt := if dirUnits e = 0 then p.list % 32 else dirBase e % 32, chain := (deltaChain s e).length }

/-- Channel of a base unit: logical unit u lies on channel u mod 32, and extents are aligned (R162). -/
def unitShelf (p : Probe) (u : Nat) : Nat := (p.base + u) % 32

/-- The shelf engines that serve a probe: those of its base units' channels, and that of its delta chain. -/
def servingShelves (p : Probe) : List Nat := p.units.map (unitShelf p) ++ if p.deltas = [] then [] else [p.deltaAt]

/-- The shelf engine of a channel: eight on each flash-channel die. -/
def shelfBlock (k : Nat) : BlockId := { die := BitVec.ofNat 6 (0x30 + k / 8), block := BitVec.ofNat 4 (k % 8) }

/-- A shelf engine keeps the last two codebooks that it used, and loads a missing one from the codebook's COPY (R170). -/
def useCodebook (a : Nat) (s : State) (k : Nat) : State :=
  { s with gen := { s.gen with codebooks := mmod [] s.gen.codebooks k fun l => (a :: without a l).take 2 } }

/-- SCAN_ISSUE (R169, R170, R174): a shelf engine that takes no new work keeps the scan waiting (R32). -/
def scanIssue (s : State) (h : Nat) : State :=
  match reqOf s h with
  | none => s
  | some q =>
    if q.phase ≠ .scan || q.ret.scanAt.isSome then s
    else match indexOf s q.block.index with
      | none => endRequest s h .programMismatch 0
      | some r =>
        let ps := q.ret.probes.map (issueProbe s r)
        let ks := (ps.flatMap servingShelves).foldl (fun a k => withLast k a) []
        if ks.any fun k => notTaking s (shelfBlock k) then s
        else modReq (ks.foldl (useCodebook r.codebookBase) s) h fun q => { q with ret := { q.ret with scanAt := some (now s), probes := ps } }

def execScanIssue (h : Nat) (s : State) : Out := .next (scanIssue s h)

/-- Input position: probe order, unit order within the base, entry order within a unit; delta entries follow (R173). -/
def entryPosKey (probe unit i : Nat) : Nat := (probe * 2 ^ 20 + unit) * 2 ^ 10 + i
def deltaUnit (i : Nat) : Nat := 2 ^ 17 + i

/-- An entry reaches its shelf engine (R172, R173, R185). -/
def offerEntry (s : State) (h shelf : Nat) (r : IndexRec) (p : Probe) (pos : Nat) (e : Bytes) : State :=
  match reqOf s h with
  | none => s
  | some q =>
    let attr := rd e 0 8
    if attr % 512 ≠ q.fn.toNat then
      let s := { s with shelfSkips := mcount s.shelfSkips shelf 1 }
      modReq s h fun q => { q with ret := { q.ret with
        tenantSkips := q.ret.tenantSkips + 1
        firstSkip := q.ret.firstSkip.orElse fun _ => some (BitVec.ofNat 9 attr) } }
    else if filterPasses q.block.filter attr && visible e ((q.ret.snap.getD 0).toNat) p.tombs then
      modReq s h fun q => { q with ret := { q.ret with
        offered := mmod [] q.ret.offered shelf (· ++ [(pos, scanScore s r p e, BitVec.ofNat 40 (rd e 8 5))]) } }
    else s

/-- Probe k of a request changed. -/
def modProbe (s : State) (h k : Nat) (f : Probe → Probe) : State :=
  modReq s h fun q => { q with ret := { q.ret with probes := q.ret.probes.modify k f } }

/-- Entries that arrive: offered when the list's tombstone chain is whole, held back otherwise (R175). -/
def arriveEntries (s : State) (h k : Nat) (r : IndexRec) (unit : Nat) (es : List Bytes) : State :=
  match (reqOf s h).bind fun q => q.ret.probes[k]? with
  | none => s
  | some p =>
    let xs := (List.range es.length).zip es |>.map fun x => (entryPosKey k unit x.1, x.2)
    if p.tombTiles ≠ [] then modProbe s h k fun p => { p with held := p.held ++ xs }
    else
      let shelf := if unit < 2 ^ 17 then unitShelf p unit else p.deltaAt
      xs.foldl (fun s x => offerEntry s h shelf r p x.1 x.2) s

/-- The shelf engine takes entries of the query still. -/
def shelfOpen (q : Request) (shelf : Nat) : Bool := decide (shelf ∉ q.ret.cutDone) && (mfind q.ret.shelfOut shelf).isNone

/-- The trailer check of R160, against the directory entry's list and GEN. -/
def trailerOk (list gen u : Nat) (b : Bytes) : Bool :=
  rd b 16320 4 % 2 ^ 25 = list && rd b 16324 2 = u && rd b 16326 1 = gen

/-- A copy of the tile in tier L or S (R176, Table 4.8). -/
def upperCopy (s : State) (n : Nat) : Option Tile :=
  match entryOf s (devExtent n) with
  | none => none
  | some e => if e.copyTier = 0 then none else tileAt s (place e (devPos n))

/-- The tile that a read of a device-range tile yields: as tier F gives it, or from an upper copy when that read failed; either way the reader
checks its CRC (R43) and what else it asks of it (R176, Table 4.8). -/
def readOrCopy (s : State) (n : Nat) (good : Bool) (ok : Tile → Bool) : Option Tile :=
  ((if good then devTile s n else none).filter fun t => t.good && ok t).orElse fun _ => (upperCopy s n).filter fun t => t.good && ok t

/-- An unreadable unit of an RO extent: LOST is set where HOME lies in tier F (Table 4.8). -/
def loseUnit (s : State) (n : Nat) : State :=
  if (entryOf s (devExtent n)).any fun e => e.cls = 0 && e.homeTier = 3 then setLost s (devExtent n) (devPos n) else s

/-- SHELF_UNIT_ARRIVE (R160, R173, R175, R176). -/
def unitArrive (s : State) (h k u : Nat) (good : Bool) : State :=
  match reqOf s h with
  | none => s
  | some q =>
    match q.ret.probes[k]?, indexOf s q.block.index with
    | some p, some r =>
      if q.phase ≠ .scan || u ∉ p.units || !shelfOpen q (unitShelf p u) then s
      else match readOrCopy s (p.base + u) good fun t => trailerOk p.list p.gen.toNat u t.payload with
        | some t => arriveEntries (modProbe s h k fun p => { p with units := without u p.units }) h k r u (unitEntries r t.payload)
        | none => endRequest (loseUnit s (p.base + u)) h .mediaError 0
    | _, _ => s

def execShelfUnitArrive (h k u : Nat) (good : Bool) (s : State) : Out := .next (unitArrive s h k u good)

/-- The tombstone chain is whole: what was held back is offered (R175). -/
def offerHeld (s : State) (h k : Nat) (r : IndexRec) : State :=
  match (reqOf s h).bind fun q => q.ret.probes[k]? with
  | none => s
  | some p =>
    let s := modProbe s h k fun p => { p with held := [] }
    p.held.foldl (fun s x =>
      let unit := x.1 / 2 ^ 10 % 2 ^ 20
      offerEntry s h (if unit < 2 ^ 17 then unitShelf p unit else p.deltaAt) r p x.1 x.2) s

/-- A tile of a delta or tombstone chain read from its COPY (R43, R176, Table 4.8): one whose CRC fails is recovered as an uncorrectable one. -/
def chainRead (s : State) (n : Nat) : State × TierStatus × Option (ExtentEntry × Tile) :=
  match entryOf s (devExtent n) with
  | none => (s, .translation, none)
  | some e =>
    match readEntry s (devExtent n) e (devPos n) [] with
    | (s, .ok, some tl) =>
      if tl.good then (s, .ok, some (e, tl))
      else match recoverWb s (devExtent n) (readPlace e (devPos n)).2 e (devPos n) with
        | (s, some tl, _) => (s, .ok, some (e, tl))
        | (s, none, true) => (s, .late, none)
        | (s, none, false) => (s, .media, none)
    | (s, st, _) => (s, st, none)

/-- A tile of a chain arrives in the store, copied by its channel unit with OWNER 0x3E and PERSIST 1, and its entries or records reach the shelf
engines (R164, R175). -/
def chainTaken (s : State) (h k : Nat) (p : Probe) (r : IndexRec) (b : Bytes) (tomb : Bool) : State :=
  if tomb then
    let s := modProbe s h k fun p => { p with tombTiles := p.tombTiles.tail, tombs := p.tombs ++ tombRecords b }
    if p.tombTiles.length = 1 then offerHeld s h k r else s
  else arriveEntries (modProbe s h k fun p => { p with deltas := p.deltas.tail }) h k r (deltaUnit (p.chain - p.deltas.length)) (unitEntries r b)

/-- CHAIN_TILE_ARRIVE (R164, R174 to R176): the next tile of the list's tombstone or delta chain. One that comes after the cut is discarded; while
an unreadable one is recovered from the partner's mirror, or while the pool has no room, it is still unread. -/
def chainArrive (s : State) (h k t : Nat) : State :=
  match reqOf s h with
  | none => s
  | some q =>
    match q.ret.probes[k]?, indexOf s q.block.index with
    | some p, some r =>
      let tomb := decide (p.tombTiles.head? = some t) && !q.ret.cutSent
      if q.phase ≠ .scan || !(tomb || (decide (p.deltas.head? = some t) && shelfOpen q p.deltaAt)) then s
      else match chainRead s t with
        | (s, .ok, some (e, tl)) =>
          match scanPut s h (channelDie (readPlace e (devPos t)).2) [{ tl with hdr := { storedHeader tl.hdr with srcValid := true, srcTile := BitVec.ofNat 34 t } }] with
          | some s => chainTaken s h k p r tl.payload tomb
          | none => s
        | (s, .late, _) => s
        | (s, .translation, _) => endRequest s h .programMismatch 0
        | (s, _, _) => endRequest s h .mediaError 0
    | _, _ => s

def execChainTileArrive (h k t : Nat) (s : State) : Out := .next (chainArrive s h k t)

/-- Reads of the probe not yet done. -/
def probeUnread (p : Probe) : Bool := p.units ≠ [] || p.deltas ≠ [] || p.tombTiles ≠ []
def scanUnread (q : Request) : Bool := q.ret.probes.any probeUnread

/-- The turn conductor sends each shelf engine a cut (R175). -/
def sendCut (s : State) (h : Nat) : State :=
  modReq s h fun q => { q with flags := q.flags ||| flagPartialProbe, ret := { q.ret with cutSent := true } }

/-- SCAN_BUDGET_EXPIRED (R174, R175). -/
def scanBudget (s : State) (h : Nat) : State :=
  match reqOf s h with
  | none => s
  | some q =>
    match q.ret.scanAt with
    | none => s
    | some t =>
      if q.phase = .scan && !q.ret.cutSent && scanUnread q && decide (q.block.readBudget ≤ since t (now s)) then sendCut s h else s

def execScanBudgetExpired (h : Nat) (s : State) : Out := .next (scanBudget s h)

/-- RETRIEVAL_SOFT_DEADLINE (R174, Table 7.9 rung 2): the deadline passes while the scan runs. -/
def softDeadline (s : State) (h : Nat) : State :=
  match reqOf s h with
  | none => s
  | some q =>
    match q.ret.scanAt with
    | none => s
    | some t =>
      if q.phase = .scan && !q.ret.cutSent && scanUnread q && passed s q.block.softDeadline && decide (t.toNat < q.block.softDeadline)
      then sendCut s h else s

def execRetrievalSoftDeadline (h : Nat) (s : State) : Out := .next (softDeadline s h)

/-- Entries in position order. -/
def insPos (e : Nat × Word × BitVec 40) : List (Nat × Word × BitVec 40) → List (Nat × Word × BitVec 40)
  | [] => [e]
  | x :: l => if e.1 < x.1 then e :: x :: l else x :: insPos e l

/-- The shelf engine's one selection of the query (R173): K 64, DESCENDING, EXACT, PLAIN. -/
def shelfList (r : IndexRec) (shelf : Nat) (es : List (Nat × Word × BitVec 40)) : SelList :=
  let sorted := es.foldl (fun l e => insPos e l) []
  select { k := 64, ascending := false, mass := false, sumAnchor := r.sumAnchor, ref := 0, source := shelf } false
    (sorted.map fun e => { score := e.2.1, id := e.2.2 })

/-- The SELECT tile of a list for the requesting tenant (R147). -/
def selectTile (tn : Tenant) (l : SelList) (n : Nat) : Tile :=
  Tile.sealed { hdr := selHeader { k := l.k, ascending := l.ascending, mass := l.mass, sumAnchor := l.sumAnchor, ref := 0, source := l.source, persist := true, tenant := tn }, payload := pad 16384 (l.bytes n) }

/-- The shelf engine writes its SELECT tile to the merge slot of its channel (R173); none while the pool has no room for it. -/
def shelfWrites (s : State) (h shelf : Nat) : Option State :=
  (reqOf s h).bind fun q => (indexOf s q.block.index).bind fun r =>
    let l := shelfList r shelf (mget [] q.ret.offered shelf)
    (scanPut { s with free := s.free + 1 } h (shelfBlock shelf).die [selectTile q.fn l s.free]).map fun s =>
      modReq s h fun q => { q with ret := { q.ret with shelfOut := mins q.ret.shelfOut shelf l } }

/-- SCAN_CUT (R175): the shelf engine stops taking entries and writes its tile. -/
def scanCut (s : State) (h shelf : Nat) : State :=
  match reqOf s h with
  | none => s
  | some q =>
    if q.phase = .scan && q.ret.cutSent && shelfOpen q shelf && decide (shelf < 32) then
      (shelfWrites s h shelf).elim s fun s =>
        modReq { s with shelfCuts := mcount s.shelfCuts shelf 1 } h fun q => { q with ret := { q.ret with cutDone := shelf :: q.ret.cutDone } }
    else s

def execScanCut (h shelf : Nat) (s : State) : Out := .next (scanCut s h shelf)

/-- The shelf engine has reads or held entries of the query outstanding. -/
def shelfBusy (q : Request) (shelf : Nat) : Bool :=
  q.ret.probes.any fun p =>
    (p.units.any fun u => decide (unitShelf p u = shelf)) || (p.deltas ≠ [] && decide (p.deltaAt = shelf))
      || (p.tombTiles ≠ [] && p.held.any fun x =>
            let unit := x.1 / 2 ^ 10 % 2 ^ 20
            decide ((if unit < 2 ^ 17 then unitShelf p unit else p.deltaAt) = shelf))

/-- SHELF_SCAN_END (R173): every read of the shelf engine's probes is done. -/
def shelfEnd (s : State) (h shelf : Nat) : State :=
  match reqOf s h with
  | none => s
  | some q =>
    if q.phase = .scan && q.ret.scanAt.isSome && shelfOpen q shelf && decide (shelf < 32) && !shelfBusy q shelf then
      (shelfWrites s h shelf).getD s
    else s

def execShelfScanEnd (h shelf : Nat) (s : State) : Out := .next (shelfEnd s h shelf)

/-! ## Candidate merge and passage fetch (R172, R177 to R179) -/

/-- The merge of the 32 SELECT tiles with K = CANDIDATES (R177). -/
def candidateMerge (q : Request) (r : IndexRec) : SelList :=
  mergeLists { k := q.block.candidates, ascending := false, mass := false, sumAnchor := r.sumAnchor, ref := 0, source := 0 } false
    (q.ret.shelfOut.map (·.2))

/-- FINAL of a SEARCH (R299, Table 13.11): the merged SELECT payload. -/
def searchFinal (s : State) (h : Nat) : State :=
  match reqOf s h with
  | none => s
  | some q =>
    if q.cancel then endRequest s h .cancelled 0 else
    let l := q.ret.merged.getD {}
    let b := l.bytes s.free
    let s := releaseSnap (freeHeld { s with free := s.free + 1 } h) h
    finish s h (okStatus q.flags) (.final l.nValid b.length q.invalidText .none 0 (w32sat q.skippedEdges)) [(q.desc.resultAddr, b)]

/-- The scan's end in the turn conductor: the event of R172, LISTS_CUT. -/
def scanOver (s : State) (h : Nat) : State :=
  match reqOf s h with
  | none => s
  | some q =>
    let s := if 0 < q.ret.tenantSkips then
        logEvent s (.tenantSkip q.fn q.block.index q.ret.tenantSkips (q.ret.firstSkip.getD 0)) else s
    modReq s h fun q => { q with listsCut := (q.ret.probes.filter probeUnread).length }

/-- The scan is run again from its probes (R348). -/
def rescan (s : State) (h : Nat) : State :=
  modReq (freeScan s h) h fun q => { q with ret := { q.ret with
    scanAt := none, offered := [], shelfOut := [], cutDone := [], cutSent := false
    probes := q.ret.probes.map fun p => { p with tombs := [], held := [] } } }

/-- CANDIDATE_MERGE (R177): waits on all 32 slots. -/
def mergeCandidates (s : State) (h : Nat) : State :=
  match reqOf s h with
  | none => s
  | some q => match indexOf s q.block.index with
    | none => s
    | some r =>
      if q.phase ≠ .scan || q.ret.shelfOut.length < 32 then s
      else
        let l := candidateMerge q r
        if l.dupMismatch then rerunPhase (flagRequest s flagDupMismatch h) h fun s => rescan s h
        else
          let s := freeScan (scanOver s h) h
          let s := modReq s h fun q => { q with
            flags := if l.approx then q.flags ||| flagApprox else q.flags
            ret := { q.ret with merged := some l, cands := l.entries.map fun e => { pid := e.2.1, score := e.2.2 } } }
          if q.op = .search then searchFinal (phaseEnds s h) h else toPhase s h .fetch

def execCandidateMerge (h : Nat) (s : State) : Out := .next (mergeCandidates s h)

/-- The device-range tile that holds a passage (R165). -/
def passageUnit (r : IndexRec) (pid : BitVec 40) : Nat :=
  (if pid.getLsbD 39 then r.insertBase else r.passageBase) / 16384 + pid.toNat % 2 ^ 39 / 8

/-- The passage fetch has ended: the snapshot is given back (R184) and re-rank follows. -/
def fetchEnds (s : State) (h : Nat) : State :=
  match reqOf s h with
  | none => s
  | some q => if q.ret.cands.any (·.waiting) then s else toPhase (releaseSnap s h) h .rerank

/-- PASSAGE_FETCH (R178). -/
def passageFetch (s : State) (h : Nat) : State :=
  match reqOf s h with
  | none => s
  | some q =>
    if q.phase ≠ .fetch || q.ret.fetchAt.isSome then s
    else fetchEnds (modReq s h fun q => { q with ret := { q.ret with fetchAt := some (now s) } }) h

def execPassageFetch (h : Nat) (s : State) : Out := .next (passageFetch s h)

/-- Candidate i is dropped, and the turn flagged (R179). -/
def dropCand (s : State) (h i : Nat) : State :=
  modReq s h fun q => { q with
    flags := q.flags ||| flagFewerCandidates, candDropped := q.candDropped + 1
    ret := { q.ret with cands := q.ret.cands.modify i fun c => { c with waiting := false, block := none, score := fpNan } } }

/-- Candidates still in the list: those waiting or with a block. -/
def heldCands (q : Request) : List Cand := q.ret.cands.filter fun c => c.waiting || c.block.isSome

/-- The block of a candidate is judged (R179). -/
def judgeBlock (s : State) (h i : Nat) (q : Request) (c : Cand) (b : Bytes) (t : TileIdx) : State :=
  if !bit (rd b 15 1) 0 then dropCand s h i
  else if rd b 8 5 ≠ c.pid.toNat then logEvent (dropCand s h i) (.passageMismatch q.fn q.block.index c.pid 0)
  else if rd b 13 2 % 512 ≠ q.fn.toNat then logEvent (dropCand s h i) (.passageMismatch q.fn q.block.index c.pid 1)
  else modReq s h fun q => { q with ret := { q.ret with cands := q.ret.cands.modify i fun c =>
    { c with waiting := false, block := some b, stored := some (t, c.pid.toNat % 8) } } }

/-- The unit is written unchanged, with its CRC, to a store tile of the turn conductor's pool, one for all candidates that share it (R178); none while
the pool is full. -/
def unitTile (s : State) (h n : Nat) (q : Request) (t : Tile) : Option (TileIdx × State) :=
  match mfind q.ret.unitTiles n with
  | some i => some (i, s)
  | none => (conductorPut 0x3C false [{ t with hdr := { storedHeader t.hdr with srcValid := true, srcTile := BitVec.ofNat 34 n } }] s).bind fun r =>
      r.1.head?.map fun i => (i, modReq r.2 h fun q => { q with ret := { q.ret with unitTiles := mins q.ret.unitTiles n i } })

/-- PASSAGE_UNIT_ARRIVE (R165, R178, R179, Table 4.8). -/
def passageArrive (s : State) (h i : Nat) (good : Bool) : State :=
  match reqOf s h with
  | none => s
  | some q =>
    match q.ret.cands[i]?, indexOf s q.block.index with
    | some c, some r =>
      if q.phase ≠ .fetch || !c.waiting || q.ret.fetchAt.isNone then s
      else
        let n := passageUnit r c.pid
        match readOrCopy s n good fun _ => true with
        | some u => match unitTile s h n q u with
          | some (j, s) => fetchEnds (judgeBlock s h i q c (slice u.payload (2048 * (c.pid.toNat % 8)) 2048) j) h
          | none => s
        | none =>
          if good && (devTile s n).isNone then fetchEnds (dropCand s h i) h
          else if c.pid.getLsbD 39 && linkLive s && decide (BitVec.ofNat 48 (n * 16384) ∉ s.pair.failedReads) then
            let a := BitVec.ofNat 48 (n * 16384)
            let s := { s with pair := { s.pair with reads := withLast a s.pair.reads } }
            sendMsg s { type := 0x50, tenant := q.fn } (.addr a)
          else
            let left := without (BitVec.ofNat 48 (n * 16384)) s.pair.failedReads
            endRequest (loseUnit { s with pair := { s.pair with failedReads := left } } n) h .mediaError 0
    | _, _ => s

def execPassageUnitArrive (h i : Nat) (good : Bool) (s : State) : Out := .next (passageArrive s h i good)

/-- FETCH_BUDGET_EXPIRED (R178, R179): READ_BUDGET from the start of the fetch; candidates not yet read are dropped. -/
def fetchBudget (s : State) (h : Nat) : State :=
  match reqOf s h with
  | none => s
  | some q =>
    match q.ret.fetchAt with
    | none => s
    | some t =>
      if q.phase ≠ .fetch || decide (since t (now s) < q.block.readBudget) then s
      else
        let late := (List.range q.ret.cands.length).filter fun i => (q.ret.cands[i]?).any (·.waiting)
        fetchEnds (late.foldl (fun s i => dropCand s h i) s) h

def execFetchBudgetExpired (h : Nat) (s : State) : Out := .next (fetchBudget s h)

end Sys2Proof.Machine
end

