-- ==== Sys2Proof/Machine/Text.lean ====
section
/-! DEFINITION. Chapter 10: tokenizer sets, normalisation, pieces, BPE, text streams, detokenizing, stop strings and release, grammars. -/

namespace Sys2Proof.Machine

/-! ## Configuration errors (R463, Table 20.1) -/

/-- CFG_ERR after a refused write: the first refusal is kept, later ones count. -/
def cfgError (old : BitVec 32) (cause offset : Nat) : BitVec 32 :=
  let v := old.toNat
  if bit v 31 then w32 (v + (if bits v 30 24 < 127 then 2 ^ 24 else 0))
  else w32 (2 ^ 31 + 2 ^ 24 + cause * 2 ^ 20 + offset % 2 ^ 20)

/-! ## UTF-8 (R245) -/

/-- Bytes that a leading byte asks for, and the range of the second byte (Unicode Standard, well-formed sequences). -/
def utf8Lead (b : Nat) : Option (Nat × Nat × Nat) :=
  if 0xC2 ≤ b ∧ b ≤ 0xDF then some (1, 0x80, 0xBF)
  else if b = 0xE0 then some (2, 0xA0, 0xBF)
  else if b = 0xED then some (2, 0x80, 0x9F)
  else if 0xE1 ≤ b ∧ b ≤ 0xEF then some (2, 0x80, 0xBF)
  else if b = 0xF0 then some (3, 0x90, 0xBF)
  else if b = 0xF4 then some (3, 0x80, 0x8F)
  else if 0xF1 ≤ b ∧ b ≤ 0xF3 then some (3, 0x80, 0xBF)
  else none

/-- One unit of text: a code point, an ill-formed maximal subpart, or an incomplete sequence at the end. -/
inductive TextUnit where
  | cp (c : Nat)
  | bad (bs : Bytes)
  | cut (bs : Bytes)
deriving DecidableEq, Repr

/-- Continuation bytes after the first: how many follow in range (up to n), the first within [lo, hi], the others within 80 to BF. -/
def contBytes : Nat → Nat → Nat → Bytes → Nat
  | 0, _, _, _ => 0
  | _ + 1, _, _, [] => 0
  | n + 1, lo, hi, b :: bs => if lo ≤ b.toNat ∧ b.toNat ≤ hi then 1 + contBytes n 0x80 0xBF bs else 0

/-- The code point of a well-formed sequence. -/
def cpOf (b : Nat) (n : Nat) (cont : Bytes) : Nat :=
  cont.foldl (fun a c => a * 64 + c.toNat % 64) (b % 2 ^ (6 - n))

/-- Text units of bytes (fuel bounds the units): each maximal subpart of an ill-formed sequence is one unit. -/
def textUnits : Nat → Bytes → List TextUnit
  | 0, _ => []
  | _ + 1, [] => []
  | k + 1, b :: bs =>
    if b.toNat < 0x80 then .cp b.toNat :: textUnits k bs
    else match utf8Lead b.toNat with
      | none => .bad [b] :: textUnits k bs
      | some (n, lo, hi) =>
        let m := contBytes n lo hi bs
        if m = n then .cp (cpOf b.toNat n (bs.take n)) :: textUnits k (bs.drop n)
        else if m = bs.length then [.cut (b :: bs)]
        else .bad (b :: bs.take m) :: textUnits k (bs.drop m)

def utf8Units (bs : Bytes) : List TextUnit := textUnits bs.length bs

/-- UTF-8 bytes of a code point. -/
def utf8Of (c : Nat) : Bytes :=
  let b := fun n => BitVec.ofNat 8 n
  if c < 0x80 then [b c]
  else if c < 0x800 then [b (0xC0 + c / 64), b (0x80 + c % 64)]
  else if c < 0x10000 then [b (0xE0 + c / 4096), b (0x80 + c / 64 % 64), b (0x80 + c % 64)]
  else [b (0xF0 + c / 262144), b (0x80 + c / 4096 % 64), b (0x80 + c / 64 % 64), b (0x80 + c % 64)]

/-! ## Set images (R238, R239, R475) -/

def setOf (s : State) (k : BitVec 2) : TokSet := mget {} s.text.sets k.toNat
def putSet (s : State) (k : BitVec 2) (x : TokSet) : State := { s with text := { s.text with sets := mput {} s.text.sets k.toNat x } }

/-- A number of n bytes in the image of set k. Every table tile is verified before a set is used (R237: verifySet). -/
def imgNum (s : State) (k : BitVec 2) (off n : Nat) : Nat := devNum s ((setOf s k).base.toNat + off) n

def setNorm (s : State) (k : BitVec 2) : Nat := imgNum s k 3 1
def setVocab (s : State) (k : BitVec 2) : Nat := imgNum s k 4 4
def setMerges (s : State) (k : BitVec 2) : Nat := imgNum s k 8 4
def setMaxPiece (s : State) (k : BitVec 2) : Nat := imgNum s k 15 1
def setPad (s : State) (k : BitVec 2) : Nat := imgNum s k 16 4
def setSlots (s : State) (k : BitVec 2) : Nat := imgNum s k 72 8

/-- Vocabulary entry i: its byte string and SPECIAL (R239). -/
def vocabEntry (s : State) (k : BitVec 2) (i : Nat) : Nat := imgNum s k (imgNum s k 24 8 + 8 * i) 8
def isSpecial (s : State) (k : BitVec 2) (i : Nat) : Bool := bit (vocabEntry s k i) 39
def tokenString (s : State) (k : BitVec 2) (i : Nat) : Bytes :=
  let e := vocabEntry s k i
  devRead s ((setOf s k).base.toNat + imgNum s k 32 8 + bits e 31 0) (bits e 38 32 + 1)
/-- BYTE[x]. -/
def byteToken (s : State) (k : BitVec 2) (x : Nat) : Nat := imgNum s k (imgNum s k 48 8 + 4 * x) 4 % 2 ^ 18
/-- Piece class of a code point (R475). -/
def pieceClass (s : State) (k : BitVec 2) (c : Nat) : Nat :=
  let b := imgNum s k (imgNum s k 56 8 + c / 2) 1
  if c % 2 = 0 then b % 16 else b / 16
/-- A piece boundary falls between classes a and b (Table 10.1). -/
def boundaryBit (s : State) (k : BitVec 2) (a b : Nat) : Bool := bit (imgNum s k (80 + (16 * a + b) / 8) 1) ((16 * a + b) % 8)

/-- A merge entry: LEFT, RIGHT, RESULT, RANK of slot i (R239). -/
def mergeSlot (s : State) (k : BitVec 2) (i : Nat) : Nat × Nat × Nat × Nat :=
  let o := imgNum s k 40 8 + 16 * i
  (imgNum s k o 4 % 2 ^ 18, imgNum s k (o + 4) 4 % 2 ^ 18, imgNum s k (o + 8) 4 % 2 ^ 18, imgNum s k (o + 12) 4 % 2 ^ 18)

/-- The probe of a merge: result and rank (R239). -/
def mergeProbe (s : State) (k : BitVec 2) (l r : Nat) : Nat → Nat → Option (Nat × Nat)
  | 0, _ => none
  | n + 1, i =>
    let e := mergeSlot s k i
    if e.1 = 0x3FFFF then none
    else if e.1 = l ∧ e.2.1 = r then some (e.2.2.1, e.2.2.2)
    else mergeProbe s k l r n ((i + 1) % max 1 (setSlots s k))

def mergeOfPair (s : State) (k : BitVec 2) (l r : Nat) : Option (Nat × Nat) :=
  mergeProbe s k l r (setSlots s k) ((l * 262147 + r) % max 1 (setSlots s k))

/-! ## Normalisation (R240, R241, R475) -/

def normMap (s : State) (k : BitVec 2) (c : Nat) : Nat := imgNum s k (imgNum s k (imgNum s k 64 8) 8 + 8 * c) 8
/-- CCC of a code point (Table 10.8). -/
def ccc (s : State) (k : BitVec 2) (c : Nat) : Nat := bits (normMap s k c) 7 0
/-- Step 1: the mapping of a code point. -/
def decompose (s : State) (k : BitVec 2) (c : Nat) : List Nat :=
  let e := normMap s k c
  let n := bits e 12 8
  if n = 0 then [c]
  else (List.range n).map fun i => imgNum s k (imgNum s k (imgNum s k 64 8 + 8) 8 + 4 * (bits e 63 32 + i)) 4

/-- U+034F goes before a 31st consecutive non-starter (R241): the run so far, and the insertions. -/
def streamSafe (s : State) (k : BitVec 2) : Nat → List Nat → List Nat × Nat
  | _, [] => ([], 0)
  | run, c :: l =>
    if ccc s k c = 0 then let r := streamSafe s k 0 l; (c :: r.1, r.2)
    else if run = 30 then let r := streamSafe s k 1 l; (0x34F :: c :: r.1, r.2 + 1)
    else let r := streamSafe s k (run + 1) l; (c :: r.1, r.2)

/-- A non-starter put into canonical order within its run, stably (R240 step 2). -/
def orderInsert (s : State) (k : BitVec 2) (c : Nat) : List Nat → List Nat
  | [] => [c]
  | d :: l => if ccc s k d ≠ 0 ∧ ccc s k c < ccc s k d then c :: d :: l else d :: orderInsert s k c l

/-- Runs of non-starters in canonical order; the run so far follows the result so far. -/
def canonOrder (s : State) (k : BitVec 2) : List Nat → List Nat → List Nat
  | run, [] => run
  | run, c :: l => if ccc s k c = 0 then run ++ canonOrder s k [c] l else canonOrder s k (orderInsert s k c run) l

/-- The composite of a starter and a code point (Table 10.7's composition list). -/
def composite (s : State) (k : BitVec 2) (a b : Nat) : Option Nat :=
  let n := imgNum s k 64 8
  let off := imgNum s k (n + 24) 8
  (List.range (imgNum s k (n + 20) 4)).findSome? fun i =>
    if imgNum s k (off + 12 * i) 4 = a ∧ imgNum s k (off + 12 * i + 4) 4 = b then some (imgNum s k (off + 12 * i + 8) 4) else none

/-- Canonical composition (R240 step 3): the starter held, the code points after it (last first), the class of the last of them. -/
def compose (s : State) (k : BitVec 2) : Option Nat → List Nat → List Nat → List Nat
  | st, after, [] => (match st with | some a => [a] | none => []) ++ after.reverse
  | none, after, c :: l => if ccc s k c = 0 then after.reverse ++ compose s k (some c) [] l else compose s k none (c :: after) l
  | some a, after, c :: l =>
    let blocked := match after with
      | [] => false
      | d :: _ => ccc s k d = 0 || decide (ccc s k c ≤ ccc s k d)
    match (if blocked then none else composite s k a c) with
    | some x => compose s k (some x) after l
    | none => if ccc s k c = 0 then a :: after.reverse ++ compose s k (some c) [] l else compose s k (some a) (c :: after) l

/-- Normalised code points, and the grapheme joiners inserted (R240, R241). -/
def normalise (s : State) (k : BitVec 2) (raw : Bool) (cs : List Nat) : List Nat × Nat :=
  if raw || setNorm s k % 4 = 0 then (cs, 0)
  else
    let d := streamSafe s k 0 (cs.flatMap (decompose s k))
    (compose s k none [] (canonOrder s k [] d.1), d.2)

/-! ## Pieces and BPE (R242) -/

/-- Code points divided into pieces: the current piece (last first), its bytes, the pieces. -/
def pieces (s : State) (k : BitVec 2) : List Nat → Nat → List Nat → List (List Nat)
  | cur, _, [] => if cur = [] then [] else [cur.reverse]
  | cur, n, c :: l =>
    let w := (utf8Of c).length
    match cur with
    | [] => pieces s k [c] w l
    | p :: _ =>
      if boundaryBit s k (pieceClass s k p) (pieceClass s k c) || decide (setMaxPiece s k < n + w) then
        cur.reverse :: pieces s k [c] w l
      else pieces s k (c :: cur) (n + w) l

/-- The leftmost merge of lowest rank: its place, result and rank. -/
def bestMerge (s : State) (k : BitVec 2) : Nat → List Nat → Option (Nat × Nat × Nat)
  | i, a :: b :: l =>
    let rest := bestMerge s k (i + 1) (b :: l)
    match mergeOfPair s k a b with
    | none => rest
    | some (res, rank) => match rest with
      | some (j, r, rk) => if rk < rank then some (j, r, rk) else some (i, res, rank)
      | none => some (i, res, rank)
  | _, _ => none

/-- bpe(piece): the rounds left (R242). -/
def bpeLoop (s : State) (k : BitVec 2) : Nat → List Nat → List Nat
  | 0, t => t
  | n + 1, t => match bestMerge s k 0 t with
    | none => t
    | some (i, r, _) => bpeLoop s k n (t.take i ++ r :: t.drop (i + 2))

def bpe (s : State) (k : BitVec 2) (piece : List Nat) : List Nat :=
  let t := (piece.flatMap utf8Of).map fun b => byteToken s k b.toNat
  bpeLoop s k t.length t

/-- Tokens with the replacements made and the joiners inserted. -/
structure Tokens where
  toks : List Nat := []
  replaced : Nat := 0
  joiners : Nat := 0
deriving DecidableEq, Repr

/-- Code points of text units, an ill-formed subpart or a cut sequence as U+FFFD (R245). -/
def repairUnits (us : List TextUnit) : List Nat × Nat :=
  us.foldr (fun u a => match u with
    | .cp c => (c :: a.1, a.2)
    | _ => (0xFFFD :: a.1, a.2 + 1)) ([], 0)

/-- Tokens of raw-mode text: each byte of an ill-formed subpart is BYTE[x], a piece of its own (R246). -/
def rawTokens (s : State) (k : BitVec 2) : List Nat → List TextUnit → List Nat
  | cur, [] => (pieces s k [] 0 cur.reverse).flatMap (bpe s k)
  | cur, .cp c :: l => rawTokens s k (c :: cur) l
  | cur, .bad bs :: l => (pieces s k [] 0 cur.reverse).flatMap (bpe s k) ++ bs.map (fun b => byteToken s k b.toNat) ++ rawTokens s k [] l
  | cur, .cut bs :: l => (pieces s k [] 0 cur.reverse).flatMap (bpe s k) ++ bs.map (fun b => byteToken s k b.toNat) ++ rawTokens s k [] l

/-- A text tokenized in one call (R242, R243, R245, R246). -/
def tokenize (s : State) (k : BitVec 2) (raw : Bool) (bs : Bytes) : Tokens :=
  let us := utf8Units bs
  if raw then { toks := rawTokens s k [] us }
  else
    let r := repairUnits us
    let n := normalise s k false r.1
    { toks := (pieces s k [] 0 n.1).flatMap (bpe s k), replaced := r.2, joiners := n.2 }

/-- A code point that the normalisation carry does not hold back behind: a starter, or the joiner that ends a run of 30 non-starters (R241). -/
def endsCarry (s : State) (k : BitVec 2) (c : Nat) : Bool := decide (ccc s k c = 0) || decide (c = 0x34F)

/-- Mapped code points before the last starter: those from it on are in the normalisation carry, at most 32 of them (R240, R241). -/
def beforeCarry (s : State) (k : BitVec 2) (cs : List Nat) : List Nat := ((cs.reverse.dropWhile fun c => !endsCarry s k c).drop 1).reverse

/-- Normalised code points of an open stream up to the normalisation carry; joiners are inserted as code points enter it. -/
def normaliseOpen (s : State) (k : BitVec 2) (cs : List Nat) : List Nat :=
  if setNorm s k % 4 = 0 then cs
  else compose s k none [] (canonOrder s k [] (beforeCarry s k (streamSafe s k 0 (cs.flatMap (decompose s k))).1))

/-- Tokens of an open stream past its three carries (R243, R244). -/
def tokenizeOpen (s : State) (k : BitVec 2) (bs : Bytes) : List Nat :=
  let us := (utf8Units bs).filter fun u => match u with | .cut _ => false | _ => true
  ((pieces s k [] 0 (normaliseOpen s k (repairUnits us).1)).dropLast).flatMap (bpe s k)

/-! ## Verified table tiles (R43, R237) -/

/-- A tile of a table passes its CRC. An unmapped tile is no tile. -/
def tableTileOk (s : State) (n : Nat) : Bool := (devTile s n).all Tile.good

/-- A table tile verified; one that fails is an RO fault: fetched again from HOME, or lost (Table 4.8). -/
def verifyTile (a : State × Bool) (n : Nat) : State × Bool :=
  let s := a.1
  if tableTileOk s n then a
  else match entryOf s (devExtent n) with
    | none => (s, false)
    | some e =>
      let p := readPlace e (devPos n)
      match (if p.1 = 2 then recoverL s (devExtent n) p.2 e (devPos n) else (setLost s (devExtent n) (devPos n), none, false)) with
      | (s, some t, _) => (s, a.2 && t.good)
      | (s, none, _) => (s, false)

/-- Table tiles verified before they are used: the state after what had to be fetched again, and whether every tile can be had. The tiles of a table
are verified together, whichever of them the work reads (DESIGN CHOICE, log entry 152). -/
def verifyTiles (s : State) (l : List Nat) : State × Bool := if l.all (tableTileOk s) then (s, true) else l.foldl verifyTile (s, true)

/-- Device-range tiles of len bytes from a byte address on. -/
def tilesOf (addr len : Nat) : List Nat :=
  if len = 0 then [] else (List.range ((addr + len - 1) / 16384 - addr / 16384 + 1)).map (· + addr / 16384)

/-- End of the token byte strings in the pool. -/
def poolSize (s : State) (k : BitVec 2) : Nat :=
  (List.range (setVocab s k)).foldl (fun m i => let e := vocabEntry s k i; max m (bits e 31 0 + bits e 38 32 + 1)) 0

/-- Tiles of a set's tables (Tables 10.1, 10.7). -/
def setTiles (s : State) (k : BitVec 2) : List Nat :=
  let base := (setOf s k).base.toNat
  let f := imgNum s k
  let n := f 64 8
  [(0, 128), (f 24 8, 8 * setVocab s k), (f 32 8, poolSize s k), (f 40 8, 16 * setSlots s k), (f 48 8, 1024), (f 56 8, 557056),
   (n, if n = 0 then 0 else 32), (f n 8, if n = 0 then 0 else 8 * 1114112), (f (n + 8) 8, if n = 0 then 0 else 4 * f (n + 16) 4),
   (f (n + 24) 8, if n = 0 then 0 else 12 * f (n + 20) 4)].flatMap fun x => tilesOf (base + x.1) x.2

/-- The tables of set k verified (R237). -/
def verifySet (s : State) (k : BitVec 2) : State × Bool := verifyTiles s (setTiles s k)

/-- Work that uses the sets given: on verified tables, or what is done where a tile of one cannot be had. -/
def useSets (s : State) (ks : List (BitVec 2)) (bad f : State → State) : State :=
  let r := ks.foldl (fun (a : State × Bool) k => let b := verifySet a.1 k; (b.1, a.2 && b.2)) (s, true)
  if r.2 then f r.1 else bad r.1

/-- Counters of tokenizing (R241, R245, Table 20.16), and the event of R245. -/
def countText (s : State) (tn : Tenant) (tag : BitVec 64) (t : Tokens) : State :=
  let s := { s with text := { s.text with cntReplaced := s.text.cntReplaced + t.replaced, cntJoiners := s.text.cntJoiners + t.joiners } }
  if 0 < t.replaced then logEvent s (.textReplaced tn tag t.replaced false) else s

/-! ## Installing a set (R238, R239, R471, R475) -/

/-- Whether any partition is loaded. -/
def anyLoaded (s : State) : Bool := s.gen.parts.any fun p => p.2.state ≠ .empty

/-- A byte of the image lies in a SHARED non-secure RO extent that is read in tier L (R237, R238). -/
def imageByte (s : State) (addr : Nat) : Bool :=
  match entryOf s (addr / 2 ^ 21) with
  | none => false
  | some e => e.cls = 0 && e.shared && !e.world && (readPlace e 0).1 = 2

/-- A run of bytes of set k's image lies in such extents; an empty run does. -/
def imageSpan (s : State) (k : BitVec 2) (off len : Nat) : Bool :=
  let a := (setOf s k).base.toNat + off
  decide (len = 0) || (List.range ((a + len - 1) / 2 ^ 21 - a / 2 ^ 21 + 1)).all fun i => imageByte s ((a / 2 ^ 21 + i) * 2 ^ 21)

/-- Offset of the first header field that breaks Table 10.1. -/
def badHeader (s : State) (k : BitVec 2) : Option Nat :=
  let f := imgNum s k
  let chk : List (Nat × Bool) :=
    [(0, f 0 2 = 1 && imageSpan s k 0 128), (2, f 2 1 = k.toNat),
     (3, f 3 1 < 8 && decide (f 3 1 % 4 ≠ 3) && (decide (f 3 1 % 4 ≠ 0) || f 3 1 = 0)),
     (4, 256 ≤ f 4 4 && f 4 4 ≤ 262144), (8, f 8 4 ≤ 262143), (15, 16 ≤ f 15 1), (16, f 16 4 < f 4 4), (20, f 20 4 = 0),
     (64, (f 64 8 = 0) == (f 3 1 % 4 = 0)),
     (72, 2 * f 8 4 ≤ f 72 8 && decide (0 < f 72 8) && f 72 8 = 2 ^ (bitLen (f 72 8) - 1)), (112, f 112 8 = 0 && f 120 8 = 0)]
  (chk.find? fun x => !x.2).map (·.1)

/-- Vocabulary, merge and byte tables that break R239: the offset of the first failure. -/
def badTables (s : State) (k : BitVec 2) : Option Nat :=
  let voc := setVocab s k
  let vocOff := imgNum s k 24 8
  let vocabBad := (List.range voc).find? fun i =>
    let e := vocabEntry s k i
    !(imageSpan s k (imgNum s k 32 8 + bits e 31 0) (bits e 38 32 + 1)) || decide (e / 2 ^ 40 ≠ 0)
  let byteBad := (List.range 256).find? fun x =>
    let t := byteToken s k x
    decide (voc ≤ t) || isSpecial s k t || decide (tokenString s k t ≠ [BitVec.ofNat 8 x])
  let slots := (List.range (setSlots s k)).map fun i => (i, mergeSlot s k i)
  let used := slots.filter fun e => decide (e.2.1 ≠ 0x3FFFF)
  let mergeBad := used.find? fun e =>
    let (l, r, res, _) := e.2
    !(decide (l < voc) && decide (r < voc) && decide (res < voc) && !isSpecial s k l && !isSpecial s k r && !isSpecial s k res
      && decide (tokenString s k res = tokenString s k l ++ tokenString s k r)
      && decide (mergeOfPair s k l r = some (res, e.2.2.2.2)))
  if !imageSpan s k vocOff (8 * voc) then some 24
  else if !imageSpan s k (imgNum s k 40 8) (16 * setSlots s k) then some 40
  else if !imageSpan s k (imgNum s k 48 8) 1024 then some 48
  else match vocabBad with
  | some i => some (vocOff + 8 * i)
  | none => match byteBad with
    | some x => some (imgNum s k 48 8 + 4 * x)
    | none => match mergeBad with
      | some e => some (imgNum s k 40 8 + 16 * e.1)
      | none =>
        if used.length ≠ setMerges s k then some 8
        else if !(used.map fun e => e.2.2.2.2).Nodup ∨ !(used.map fun e => (e.2.1, e.2.2.1)).Nodup then some (imgNum s k 40 8)
        else none

/-- Class and normalisation tables that break R475. -/
def badNorm (s : State) (k : BitVec 2) : Option Nat :=
  let n := imgNum s k 64 8
  if !imageSpan s k (imgNum s k 56 8) 557056 then some 56
  else if n = 0 then none
  else if !imageSpan s k n 32 then some 64
  else
    let mapOff := imgNum s k n 8
    let poolOff := imgNum s k (n + 8) 8
    let count := imgNum s k (n + 16) 4
    let comps := imgNum s k (n + 20) 4
    let compOff := imgNum s k (n + 24) 8
    if !imageSpan s k mapOff (8 * 1114112) then some n
    else if !imageSpan s k poolOff (4 * count) then some (n + 8)
    else if !imageSpan s k compOff (12 * comps) then some (n + 24)
    else match (List.range count).find? fun i => let c := imgNum s k (poolOff + 4 * i) 4; decide (0x10FFFF < c ∨ (0xD800 ≤ c ∧ c ≤ 0xDFFF)) with
      | some i => some (poolOff + 4 * i)
      | none => match (List.range 1114112).find? fun c => let e := normMap s k c; decide (count < bits e 63 32 + bits e 12 8) with
        | some c => some (mapOff + 8 * c)
        | none =>
          let key := fun i => imgNum s k (compOff + 12 * i) 4 * 2 ^ 32 + imgNum s k (compOff + 12 * i + 4) 4
          ((List.range (comps - 1)).find? fun i => decide (key (i + 1) ≤ key i)).map fun i => compOff + 12 * (i + 1)

/-- The install test text (R238). -/
def installText : Bytes :=
  (List.range 256).map (BitVec.ofNat 8) ++ ((List.range 96).map (0xA0 + ·) ++ (List.range 256).map (0x4E00 + ·)
    ++ (List.range 256).map (0x1F300 + ·)).flatMap utf8Of

/-- The install test: raw tokenizing and detokenizing, which drops SPECIAL tokens (R247), give the text again; else the offset of the first
difference. -/
def badTest (s : State) (k : BitVec 2) : Option Nat :=
  let back := ((tokenize s k true installText).toks.filter fun t => !isSpecial s k t).flatMap (tokenString s k)
  if back = installText then none
  else (List.range installText.length).find? fun i => decide (back[i]? ≠ installText[i]?)

/-- The first table tile that cannot be had fails the check of its table: the header's check 0, any other check 1, at the tile's offset (log entry
152). -/
def badTile (s : State) (k : BitVec 2) : Option (Nat × Nat) :=
  let base := (setOf s k).base.toNat
  ((setTiles s k).find? fun n => !tableTileOk s n).map fun n => (if n = base / 16384 then 0 else 1, 16384 * n - base)

/-- Every check of R238 in order: cause and offset of the first failure. -/
def setCheck (s : State) (k : BitVec 2) : Option (Nat × Nat) :=
  match badHeader s k with
  | some o => some (0, o)
  | none => match badTables s k with
    | some o => some (1, o)
    | none => match badNorm s k with
      | some o => some (2, o)
      | none => (badTest s k).map fun o => (3, o)

def refuseText (s : State) (off : Nat) : State := { s with text := { s.text with cfgErr := cfgError s.text.cfgErr 2 off } }

/-- Offset of a set's control register in BAR0 (Table 20.12). -/
def setCtrlOff (k : BitVec 2) : Nat := 0x50018 + 16 * k.toNat

/-- TOKENIZER_INSTALL (R238, R471): INSTALL written as 1. -/
def tokInstall (s : State) (k : BitVec 2) : State :=
  if (setOf s k).state = .checking || anyLoaded s then refuseText s (setCtrlOff k)
  else putSet s k { setOf s k with state := .checking }

def execTokenizerInstall (k : BitVec 2) (s : State) : Out := .next (tokInstall s k)

/-- TOKENIZER_CHECK_DONE (R237 to R239, R475). -/
def tokCheckDone (s : State) (k : BitVec 2) : State :=
  if (setOf s k).state ≠ .checking then s
  else
    let s := (verifySet s k).1
    match (badTile s k).orElse fun _ => setCheck s k with
    | none => putSet s k { setOf s k with state := .installed }
    | some (cause, off) => logEvent (putSet s k { setOf s k with state := .refused }) (.tokenizerRefused k.toNat cause off)

def execTokenizerCheckDone (k : BitVec 2) (s : State) : Out := .next (tokCheckDone s k)

/-- TOKENIZER_REMOVE (R238, R471). -/
def tokRemove (s : State) (k : BitVec 2) : State :=
  if (setOf s k).state = .checking || anyLoaded s then refuseText s (setCtrlOff k)
  else if (setOf s k).state = .installed then putSet s k { setOf s k with state := .empty } else s

def execTokenizerRemove (k : BitVec 2) (s : State) : Out := .next (tokRemove s k)

/-! ## Output: detokenizing, stop strings, release (R247 to R251, R309, R342) -/

def slotKey (p : PartId) (slot : Nat) : Nat := 1024 * p.toNat + slot
def streamRec (s : State) (p : PartId) (slot : Nat) : OutStream := mget {} s.text.streams (slotKey p slot)
def setStreamRec (s : State) (p : PartId) (slot : Nat) (f : OutStream → OutStream) : State :=
  { s with text := { s.text with streams := mmod {} s.text.streams (slotKey p slot) f } }
def slotRec (s : State) (p : PartId) (slot : Nat) : SlotRec := mget {} (partOf s p).slots slot
def setSlotRec (s : State) (p : PartId) (slot : Nat) (f : SlotRec → SlotRec) : State :=
  setPart s p fun q => { q with slots := mmod {} q.slots slot f }

/-- The match that ends at the end of the bytes, by its start: the lowest start among the stop strings (R249). -/
def matchEnding (stops : List Bytes) (bs : Bytes) : Option Nat :=
  let ls := (stops.filter fun w => decide (w.length ≤ bs.length ∧ bs.drop (bs.length - w.length) = w)).map (·.length)
  if ls = [] then none else some (bs.length - ls.foldl max 0)

/-- Bytes added one at a time; the first match is kept (R249). -/
def addBytes (stops : List Bytes) (pos : Nat) : OutStream → Bytes → OutStream
  | x, [] => x
  | x, b :: l =>
    let bs := x.bytes ++ [b]
    let x := { x with bytes := bs }
    match x.first, matchEnding stops bs with
    | none, some a => addBytes stops pos { x with first := some (a, bs.length), firstPos := some pos } l
    | _, _ => addBytes stops pos x l

/-- depth: the longest suffix of the output that is a prefix of a stop string (R249). -/
def stopDepth (stops : List Bytes) (bs : Bytes) : Nat :=
  ((List.range 64).filter fun n => decide (n ≤ bs.length) && stops.any fun w => decide (n < w.length ∧ w.take n = bs.drop (bs.length - n))).foldl max 0

/-- Length of the incomplete sequence at the end of the bytes: what the UTF-8 carry of the release holds back (R247, R249). -/
def cutTail (bs : Bytes) : Nat :=
  match (utf8Units bs).getLast? with
  | some (.cut t) => t.length
  | _ => 0

/-- The safe point in normal service (R249). -/
def safePoint (stops : List Bytes) (x : OutStream) : Nat :=
  let n := match x.first with
    | some (a, _) => a
    | none => x.bytes.length - stopDepth stops x.bytes
  n - cutTail (x.bytes.take n)

/-- Bytes with each maximal ill-formed subpart as U+FFFD, and the replacements (R247). -/
def repairBytes (bs : Bytes) : Bytes × Nat :=
  let r := repairUnits (utf8Units bs)
  (r.1.flatMap utf8Of, r.2)

/-- One committed token enters the slot's output (R247 to R250). -/
def addToken (s : State) (k : BitVec 2) (r : Request) (x : OutStream) (pos tok : Nat) : OutStream :=
  let stop := decide (tok ∈ r.block.stopIds)
  let special := !stop && isSpecial s k tok
  let x := if x.firstPos.isSome || stop || special then x else addBytes r.block.stops pos x (tokenString s k tok)
  { x with special := x.special + b2n special, marks := x.marks ++ [(tok, x.bytes.length)] }

/-- Ids whose bytes are wholly released at byte s (R236, R251). -/
def idsReleased (x : OutStream) (n : Nat) : List Nat := ((x.marks.takeWhile fun m => decide (m.2 ≤ n)).map (·.1)).drop x.ids

/-- Output up to byte n of a slot is released: text and ids go to the request's buffers with a TOKENS completion (R236, R247, R309). -/
def releaseTo (s : State) (p : PartId) (slot n : Nat) : State :=
  let x := streamRec s p slot
  let sl := slotRec s p slot
  match reqOf s sl.request with
  | none => s
  | some r =>
    let (text, rep) := repairBytes ((x.bytes.take n).drop x.released)
    let ids := idsReleased x n
    if text = [] ∧ ids = [] then s
    else
      let b := r.block
      let seq := sl.seq.toNat
      let s := setStreamRec s p slot fun x =>
        { x with released := max x.released n, written := x.written + text.length, ids := x.ids + ids.length, replaced := x.replaced + rep }
      let s := modReq s sl.request fun r => { r with invalidText := r.invalidText + rep }
      let s := { s with text := { s.text with cntReplaced := s.text.cntReplaced + rep } }
      let s := if 0 < rep then logEvent s (.textReplaced r.fn r.tag rep true) else s
      post s r.fn r.qp
        { tag := r.tag, body := .tokens x.written text.length x.ids ids.length sl.seq, flags := r.flags
          payload := [(b.textBuf + BitVec.ofNat 64 (seq * b.textSize + x.written), text)]
            ++ (if b.idBuf = 0 then [] else [(b.idBuf + BitVec.ofNat 64 (seq * 4 * b.maxTokens + 4 * x.ids), ids.flatMap (toLE 4))]) }

/-- Tokenizer set of a partition's program. -/
def partSet (s : State) (p : PartId) : BitVec 2 := BitVec.ofNat 2 (((partOf s p).prog.map (·.tokSet)).getD 0)

/-- Committed tokens of the slot that the text die has not yet taken: (position, token). -/
def newTokens (s : State) (p : PartId) (slot : Nat) : List (Nat × Nat) :=
  let x := streamRec s p slot
  let sl := slotRec s p slot
  let first := x.pos0 + x.marks.length
  (List.range (sl.sentTo - first)).map fun i => (first + i, sl.toks.getD (first + i) 0)

/-- The slot's request ends in the text die with what is released: a second mismatch of the passes, or a table tile that cannot be had. -/
def endStream (s : State) (p : PartId) (slot : Nat) (media : Bool) : State :=
  let s := setStreamRec s p slot fun x => { x with failed := true, media := media, mismatch := x.mismatch || !media }
  setSlotRec s p slot fun x => { x with reason := .error, status := if media then .mediaError else .programMismatch }

/-- Both passes agree on the slot's new tokens, or agree once they are reprocessed (R247 to R250, R342). -/
def takeTokens (p : PartId) (slot : Nat) (r : Request) (again : Bool) (s : State) : State :=
  let sl := slotRec s p slot
  let x := (newTokens s p slot).foldl (fun x t => addToken s (partSet s p) r x t.1 t.2) (streamRec s p slot)
  let before := (streamRec s p slot).special
  let s := setStreamRec s p slot fun _ => { x with mismatch := again }
  let s := { s with text := { s.text with cntSpecial := s.text.cntSpecial + (x.special - before) } }
  let s := modReq s sl.request fun r => { r with special := r.special + (x.special - before) }
  if x.failed then s else releaseTo s p slot (safePoint r.block.stops x)

/-- COMMITTED_TOKENS_RECEIVE (R237, R247 to R250, R342): both passes agree, or a mismatch is reprocessed once; a second one ends the request with
what is released, and so does a table tile that cannot be had. -/
def tokensReceive (s : State) (p : PartId) (slot mismatch : Nat) : State :=
  let sl := slotRec s p slot
  match reqOf s sl.request with
  | none => s
  | some r =>
    if 2 ≤ mismatch then
      recordFault (endStream s p slot false) { kind := 7, block := 0, mech := 0x10, part := p.toNat } fun n => .unnamed 19 0x3E [w32 p.toNat, w32 slot, w32 n]
    else useSets s [partSet s p] (endStream · p slot true) (takeTokens p slot r (decide (mismatch = 1)))

def execCommittedTokensReceive (p : PartId) (slot mismatch : Nat) (s : State) : Out := .next (tokensReceive s p slot mismatch)

/-- Where the final release of a slot ends (R251): the safe point of a match, or every output byte. -/
def finalPoint (stops : List Bytes) (x : OutStream) : Nat :=
  if x.first.isSome then safePoint stops x else x.bytes.length

/-! ## Grammars (R252 to R255) -/

def grammarNum (s : State) (g : Grammar) (off n : Nat) : Nat := devNum s (g.base.toNat + off) n
/-- State record i of a grammar (Table 10.5). -/
def grammarState (s : State) (g : Grammar) (i : Nat) : Nat := grammarNum s g (g.stateOff + 8 * i) 8
/-- Interval i of a grammar (Table 10.6). -/
def grammarInterval (s : State) (g : Grammar) (i : Nat) : Nat := grammarNum s g (g.intervalOff + 8 * i) 8
/-- Intervals of a state. -/
def stateIntervals (s : State) (g : Grammar) (i : Nat) : List Nat :=
  let r := grammarState s g i
  (List.range (bits r 44 32)).map fun j => grammarInterval s g (bits r 31 0 + j)

/-- ACCEPTING and FINAL both set (R255). -/
def grammarFinal (s : State) (g : Grammar) (i : Nat) : Bool := bit (grammarState s g i) 45 && bit (grammarState s g i) 46

/-- The interval that allows a token. -/
def intervalFor (l : List Nat) (tok : Nat) : Option Nat := l.find? fun v => decide (bits v 17 0 ≤ tok ∧ tok ≤ bits v 35 18)
/-- The state after a token (R254). -/
def grammarNext (s : State) (g : Grammar) (st tok : Nat) : Option Nat := (intervalFor (stateIntervals s g st) tok).map fun v => bits v 55 36

/-- The grammar a slot has bound. -/
def slotGrammar (s : State) (sl : SlotRec) : Option Grammar := sl.grammar.bind fun n => mfind s.text.grammars n.toNat

/-- The states after the proposals of a slot, the first being the slot's own (R254). -/
def statesAfter (s : State) (g : Grammar) : Nat → List Nat → List Nat
  | st, [] => [st]
  | st, t :: l => st :: (match grammarNext s g st t with | some n => statesAfter s g n l | none => [])

/-- Tiles of a grammar's tables. -/
def grammarTiles (g : Grammar) : List Nat :=
  tilesOf g.base.toNat 64 ++ tilesOf (g.base.toNat + g.stateOff) (8 * g.states) ++ tilesOf (g.base.toNat + g.intervalOff) (8 * g.intervals)

/-- The checks of R253 over an image at a base address: true when it is well formed for a grammar number and tenant. -/
def grammarOk (s : State) (g : Grammar) (number : Nat) (tn : Tenant) : Bool :=
  let f := grammarNum s g
  f 0 2 = 1 && f 2 1 = number && f 3 1 < 4 && 256 ≤ g.vocab && g.vocab ≤ 262144 && 1 ≤ g.states && g.states ≤ 1048576
    && g.intervals ≤ 67108864 && decide (g.start < g.states) && f 20 2 = tn.toNat && f 22 2 = 0 && f 40 8 = 0 && f 48 8 = 0 && f 56 8 = 0
    && (List.range g.states).all fun i =>
      let r := grammarState s g i
      let n := bits r 44 32
      let vs := stateIntervals s g i
      decide (r / 2 ^ 47 = 0) && decide (n ≤ 4096) && decide (bits r 31 0 + n ≤ g.intervals)
        && (decide (n ≠ 0) || !bit r 45 || bit r 46)
        && vs.all (fun v => decide (v / 2 ^ 56 = 0) && decide (bits v 17 0 ≤ bits v 35 18) && decide (bits v 35 18 < g.vocab)
            && decide (bits v 55 36 < g.states))
        && (vs.zip vs.tail).all fun x => decide (bits x.1 35 18 < bits x.2 17 0)

end Sys2Proof.Machine
end

