-- ==== Sys2Proof/Machine/Lectern.lean ====
section
/-! DEFINITION. Chapter 08: re-ranking, templates and the Lectern. -/

namespace Sys2Proof.Machine

/-! ## Templates (R200, R201) -/

def tplSet (t : Bytes) : Nat := bits (rd t 2 1) 1 0
def tplTruncate (t : Bytes) : Bool := bit (rd t 3 1) 0
def tplOrder (t : Bytes) : Nat := bits (rd t 3 1) 2 1
def tplCite (t : Bytes) : Bool := bit (rd t 3 1) 3
def tplBudget (t : Bytes) : Nat := rd t 4 2
def tplHistoryMax (t : Bytes) : Nat := rd t 6 2
def tplMaxPassages (t : Bytes) : Nat := rd t 8 2
def tplDocLimit (t : Bytes) : Nat := rd t 10 1
def tplSlots (t : Bytes) : Nat := rd t 11 1
def tplTruncMin (t : Bytes) : Nat := rd t 12 2
/-- The sentence-end token ids in use. -/
def tplSentEnd (t : Bytes) : List Nat := (List.range (rd t 14 1)).map fun i => rd t (16 + 4 * i) 4
/-- A run of the token pool. -/
def tplRun (t : Bytes) (off len : Nat) : List Nat := (List.range len).map fun i => rd t (384 + 4 * (off + i)) 4
def tplMarkPre (t : Bytes) : List Nat := tplRun t (rd t 88 2) (rd t 90 1)
def tplMarkSuf (t : Bytes) : List Nat := tplRun t (rd t 92 2) (rd t 91 1)
def tplPsgPre (t : Bytes) : List Nat := tplRun t (rd t 94 2) (rd t 96 1)
def tplPsgSuf (t : Bytes) : List Nat := tplRun t (rd t 98 2) (rd t 97 1)
/-- KIND, OFF and LEN of slot i (Table 8.2). -/
def tplSlot (t : Bytes) (i : Nat) : Nat × Nat × Nat := (rd t (128 + 8 * i) 1, rd t (130 + 8 * i) 2, rd t (132 + 8 * i) 2)
/-- The slots in entry order. -/
def tplSlotList (t : Bytes) : List (Nat × Nat × Nat) := (List.range (tplSlots t)).map (tplSlot t)
/-- Slots of a kind. -/
def kindCount (t : Bytes) (k : Nat) : Nat := ((tplSlotList t).filter fun x => decide (x.1 = k)).length
/-- A run lies within the pool of 4,000 ids. -/
def inPool (off len : Nat) : Bool := decide (off + len ≤ 4000)

/-- The fields of a template are valid (R201); reserved fields are ignored (R8). -/
def templateOk (t : Bytes) : Bool :=
  decide (rd t 0 2 = 1) && decide (tplOrder t ≠ 3) && decide (64 ≤ tplBudget t ∧ tplBudget t ≤ 32768)
    && decide (tplHistoryMax t ≤ 32768) && decide (tplMaxPassages t ≤ 1024)
    && decide (1 ≤ tplDocLimit t ∧ tplDocLimit t ≤ 8) && decide (1 ≤ tplSlots t ∧ tplSlots t ≤ 32)
    && decide (1 ≤ tplTruncMin t ∧ tplTruncMin t ≤ 4096) && decide (rd t 14 1 ≤ 8)
    && inPool (rd t 88 2) (rd t 90 1) && inPool (rd t 92 2) (rd t 91 1)
    && inPool (rd t 94 2) (rd t 96 1) && inPool (rd t 98 2) (rd t 97 1)
    && (tplSlotList t).all (fun x => decide (x.1 ≤ 3) && (decide (x.1 ≠ 0) || inPool x.2.1 x.2.2))
    && decide (kindCount t 2 = 1) && decide (kindCount t 3 = 1) && decide (kindCount t 1 ≤ 1)

/-- Template n of a tenant: the tile at TEMPLATE_BASE + n, when its extent entry matches the tenant and its world and the template is
valid (R201). -/
def templateTile (s : State) (tn : Tenant) (n : Nat) : Option Tile :=
  let tile := (tenOf s tn).templateBase.toNat / 16384 + n
  match entryOf s (devExtent tile) with
  | none => none
  | some e => if e.tenant = tn && !e.world then (devTile s tile).filter fun x => templateOk x.payload else none

/-- The bytes of that template. -/
def readTemplate (s : State) (tn : Tenant) (n : Nat) : Option Bytes := (templateTile s tn n).map (·.payload)

/-- The turn conductor reads the template into a store tile with OWNER 0x3E and PERSIST 1 (R201); none when the pool is full. -/
def copyTemplate (s : State) (h n : Nat) : Option State :=
  (reqOf s h).bind fun r => (templateTile s r.fn n).bind fun t => (conductorPut 0x3C false [{ t with hdr := storedHeader t.hdr }] s).map fun x =>
    modReq x.2 h fun r => { r with ret := { r.ret with tplTile := x.1 } }

/-! ## Pairs (R192, R193) -/

/-- A token stream of a passage block. -/
def blockStream (b : Bytes) (off count : Nat) : List Nat := (List.range count).map fun i => rd b (off + 4 * i) 4

/-- A passage's tokens in set k, and what tokenizing its text did when neither stream is in the set (R193). -/
def passageTokens (s : State) (k : BitVec 2) (b : Bytes) : List Nat × Option Tokens :=
  let f := rd b 15 1
  if bit f 1 && decide (rd b 28 1 = k.toNat) then (blockStream b (rd b 24 2) (rd b 26 2), none)
  else if bit f 2 && decide (rd b 29 1 = k.toNat) then (blockStream b (rd b 30 2) (rd b 32 2), none)
  else
    let t := tokenize s k false (slice b (rd b 20 2) (rd b 22 2))
    (t.toks, some t)

/-- The question of a request in set k. -/
def questionIn (q : Request) (k : BitVec 2) : List Nat := mget [] q.tokens k.toNat

/-- A pair's PAIR_TOKENS ids and its length L (R192). -/
def makePair (g : Program) (q psg : List Nat) (padId : Nat) : List Nat × Nat :=
  let head := g.pairPrefix ++ q.take g.queryMax ++ g.pairSep
  let body := psg.take (g.pairTokens - (head.length + g.pairSuffix.length))
  let ids := head ++ body ++ g.pairSuffix
  (ids ++ List.replicate (g.pairTokens - ids.length) padId, ids.length)

/-- An item at the end of a tenant's queue in partition p (R195, R330). -/
def queueItem (s : State) (p : PartId) (tn : Tenant) (i : Item) : State :=
  setPart s p fun x => { x with rings := mmod [] x.rings tn.toNat (· ++ [i]) }

/-- Candidate i of request h is made a pair and queued (R192, R193, R195). -/
def queuePair (h : Nat) (g : Program) (part : PartId) (s : State) (i : Nat) : State :=
  match reqOf s h with
  | none => s
  | some q =>
    match (q.ret.cands[i]?).bind (·.block) with
    | none => s
    | some b =>
      let k := BitVec.ofNat 2 g.tokSet
      let (toks, made) := passageTokens s k b
      let pr := makePair g (questionIn q k) toks (setPad s k)
      let s := match made with
        | some t => countText s q.fn q.tag t
        | none => s
      let s := modReq s h fun q => { q with
        invalidText := q.invalidText + (made.map (·.replaced)).getD 0
        ret := { q.ret with cands := q.ret.cands.modify i fun c => { c with
          tokens := pr.1, pairLen := pr.2, tokenized := c.tokenized || made.isSome } } }
      queueItem s part q.fn { kind := .pair, handle := h, index := i }

/-- How many candidates rungs 3 and 4 leave to re-rank: none for rung 4 (R190, Table 7.9). -/
def rungCount (s : State) (q : Request) (held : Nat) : Option Nat :=
  let p := templateBudget q
  let m := min q.block.rerankMin held
  if !missPredicted s q 0 held p then some held
  else if missPredicted s q 0 m p then none
  else (List.range held).reverse.find? fun n => decide (m ≤ n) && !missPredicted s q 0 n p

/-- Re-rank is skipped: the scan scores stand for re-rank scores (R199). -/
def scanScores (s : State) (h : Nat) : State :=
  modReq s h fun q => { q with ret := { q.ret with
    noRerank := true, cands := q.ret.cands.map fun c => { c with rerank := some c.score } } }

/-- The question in set k: a set that no program of the turn named at its start is tokenized now (R193). -/
def questionFor (s : State) (h : Nat) (k : BitVec 2) : State :=
  match reqOf s h with
  | none => s
  | some q =>
    if q.op ≠ .turn || (mfind q.tokens k.toNat).isSome then s
    else
      let t := tokenize s k false q.text
      modReq (countText s q.fn q.tag { joiners := t.joiners }) h fun q => { q with tokens := mins q.tokens k.toNat t.toks }

/-- RERANK_START (R190, R192, R193, R195, R199). -/
def rerankStart (s : State) (h : Nat) : State :=
  match reqOf s h with
  | none => s
  | some q =>
    if q.phase ≠ .rerank || q.ret.noRerank || q.ret.reranked ≠ 0 then s
    else
      let cands := heldCands q
      let s := modReq s h fun q => { q with ret := { q.ret with cands := cands } }
      if cands.isEmpty then (if q.op = .rerank then s else toPhase s h .pack)
      else match progOf s q.block.rerankPart with
        | none => if q.op = .rerank then endRequest s h .noResources 0 else scanScores s h
        | some g =>
          match (if q.op = .rerank then some cands.length else rungCount s q cands.length) with
          | none => modReq (scanScores s h) h fun q => { q with flags := q.flags ||| flagNoRerank }
          | some n => useSets s [BitVec.ofNat 2 g.tokSet] (fun s => endRequest s h .mediaError 0) fun s =>
            let s := questionFor s h (BitVec.ofNat 2 g.tokSet)
            let q := (reqOf s h).getD q
            let cut := (questionIn q (BitVec.ofNat 2 g.tokSet)).length - g.queryMax
            let s := modReq s h fun q => { q with
              flags := if n < cands.length then q.flags ||| flagFewerCandidates else q.flags
              ret := { q.ret with cands := q.ret.cands.take n, reranked := n, queryCut := cut } }
            (List.range n).foldl (queuePair h g (partId q.block.rerankPart)) s

def execRerankStart (h : Nat) (s : State) : Out := .next (rerankStart s h)

/-! ## Ranking (R197, R198, R300) -/

/-- The parameters of the re-rank selection over n scores (R197). -/
def rankParams (n : Nat) : SelParams := { k := n, ascending := false, mass := true, sumAnchor := -70, ref := fpNan, source := 0 }

/-- The selection of R197. -/
def rankList (cs : List Cand) : SelList :=
  select (rankParams cs.length) false (cs.map fun c => { score := c.rerank.getD fpNan, id := c.pid })

/-- NORM_i (R198). -/
def normOf (l : SelList) (score : Word) : Word :=
  fmul (sumFp (termOf (rankParams l.k) (some l.refUsed) score).fin (-70)) (frecip l.sumSelF)

/-- Candidates in rank order: the ranked, then those with a NaN score in merge order (R197). -/
def rankOrder (l : SelList) (n : Nat) : List Nat :=
  let r := l.entries.map fun e => e.1.toNat
  r ++ (List.range n).filter fun i => decide (i ∉ r)

/-- The candidates with their NORM values (R197, R198). -/
def withNorms (l : SelList) (cs : List Cand) : List Cand :=
  cs.map fun c => let w := c.rerank.getD fpNan
    { c with norm := if isNan w then 0 else normOf l w }

/-- The SELECT payload of a RERANK whose candidates were all dropped (R300). -/
def emptyList : SelList := { kthScore := fpNegInf, mass := true, refUsed := fpNan, sumAnchor := -70 }

/-- FINAL of a RERANK (R300, Table 13.11). -/
def rerankFinal (s : State) (h : Nat) : State :=
  match reqOf s h with
  | none => s
  | some q =>
    if q.cancel then endRequest s h .cancelled 0 else
    let cs := q.ret.cands
    let l := if cs.isEmpty then emptyList else rankList cs
    let norms := l.entries.flatMap fun e => toLE 4 (normOf l e.2.2).toNat
    let b := l.bytes s.free ++ norms
    let s := { s with free := s.free + 1 }
    finish (freeHeld (phaseEnds s h) h) h (okStatus q.flags) (.final cs.length b.length q.invalidText .none 0 (w32sat q.candDropped))
      [(q.desc.resultAddr, b)]

/-- RERANK_END (R197 to R199): every pair's score has come from a committed step. -/
def rerankEnd (s : State) (h : Nat) : State :=
  match reqOf s h with
  | none => s
  | some q =>
    if q.phase ≠ .rerank || q.ret.cands.any (fun c => c.rerank.isNone) then s
    else if q.op = .rerank then rerankFinal s h
    else if q.ret.cands.isEmpty then s
    else
      let l := rankList q.ret.cands
      let s := modReq s h fun q => { q with ret := { q.ret with
        ranked := rankOrder l q.ret.cands.length, cands := withNorms l q.ret.cands } }
      toPhase s h .pack

def execRerankEnd (h : Nat) (s : State) : Out := .next (rerankEnd s h)

/-! ## Packing (R202 to R206) -/

/-- Decimal digits of a passage number, most significant first. -/
def markDigits (n : Nat) : List Nat :=
  if n < 10 then [n] else if n < 100 then [n / 10, n % 10]
  else if n < 1000 then [n / 100, n / 10 % 10, n % 10] else [n / 1000, n / 100 % 10, n / 10 % 10, n % 10]

/-- The citation marker of passage number n (R202). -/
def marker (t : Bytes) (n : Nat) : List Nat :=
  if tplCite t then tplMarkPre t ++ (markDigits n).map (fun d => rd t (48 + 4 * d) 4) ++ tplMarkSuf t else []

/-- What passage number n costs beside its tokens (R202). -/
def passageFrame (t : Bytes) (n : Nat) : Nat := (tplPsgPre t).length + (marker t n).length + (tplPsgSuf t).length

/-- A candidate as the Lectern sees it: its index, source document and tokens in the template's set. -/
structure PackCand where
  idx : Nat
  doc : Nat
  toks : List Nat
deriving DecidableEq, Repr

/-- The plan so far (R204): passages taken (candidate index, tokens kept, document), the room left, the skips. -/
structure PackPlan where
  used : List (Nat × Nat × Nat) := []
  room : Nat
  docSkips : Nat := 0
  budgetSkips : Nat := 0
deriving DecidableEq, Repr

/-- The largest j ≤ top with token j − 1 a sentence end and j ≥ TRUNC_MIN (R204). -/
def cutPoint (t : Bytes) (toks : List Nat) (top : Nat) : Option Nat :=
  (List.range (min top toks.length + 1)).reverse.find? fun j =>
    decide (tplTruncMin t ≤ j) && decide (0 < j) && (toks[j - 1]?).any fun k => decide (k ∈ tplSentEnd t)

/-- One candidate of the plan (R204). -/
def planStep (t : Bytes) (p : PackPlan) (c : PackCand) : PackPlan :=
  if tplMaxPassages t ≤ p.used.length then p
  else if tplDocLimit t ≤ (p.used.filter fun u => decide (u.2.2 = c.doc)).length then { p with docSkips := p.docSkips + 1 }
  else
    let o := passageFrame t (p.used.length + 1)
    if o + c.toks.length ≤ p.room then { p with used := p.used ++ [(c.idx, c.toks.length, c.doc)], room := p.room - (o + c.toks.length) }
    else match (if tplTruncate t && decide (o ≤ p.room) then cutPoint t c.toks (p.room - o) else none) with
      | some k => { p with used := p.used ++ [(c.idx, k, c.doc)], room := p.room - (o + k) }
      | none => { p with budgetSkips := p.budgetSkips + 1 }

/-- The packing plan (R204). -/
def packPlan (t : Bytes) (cs : List PackCand) (room : Nat) : PackPlan := cs.foldl (planStep t) { room := room }

/-- History entries kept, newest first in, oldest first out, while their total stays within cap (R203). -/
def keepHistory : Nat → List (List Nat) → List (List Nat)
  | _, [] => []
  | cap, e :: l => if e.length ≤ cap then keepHistory (cap - e.length) l ++ [e] else []

/-- Tokens of the mandatory parts: LITERAL slots and the question (R203). -/
def mandatory (t : Bytes) (question : List Nat) : Nat :=
  ((tplSlotList t).filter fun x => decide (x.1 = 0)).foldl (fun a x => a + x.2.2) question.length

/-- The passages of the prompt, in prompt order: number within the kept, with its plan entry (R205, R206). -/
def placed (t : Bytes) (kept : List (Nat × Nat × Nat)) : List (Nat × (Nat × Nat × Nat)) :=
  let n := (List.range kept.length).zip kept |>.map fun x => (x.1 + 1, x.2)
  let kinds := (tplSlotList t).map (·.1)
  let first := if tplOrder t = 0 then decide (kinds.idxOf 3 < kinds.idxOf 2) else decide (tplOrder t = 1)
  if first then n else n.reverse

/-- A passage as emitted: prefix, marker, tokens, suffix (R202). -/
def emitPassage (t : Bytes) (n : Nat) (toks : List Nat) : List Nat := tplPsgPre t ++ marker t n ++ toks ++ tplPsgSuf t

/-- Report entry (Table 8.4). -/
def reportEntry (t : Bytes) (c : Cand) (full keep number : Nat) (scan tokenized : Bool) (pos : Nat) : Bytes :=
  let b := c.block.getD []
  slice b 0 8 ++ toLE 5 c.pid.toNat ++ toLE 1 (b2n (decide (keep < full)) + 2 * b2n scan + 4 * b2n tokenized)
    ++ toLE 2 (if tplCite t then number else 0) ++ toLE 4 (c.rerank.getD fpNan).toNat ++ toLE 4 c.norm.toNat
    ++ toLE 2 keep ++ slice b 34 2 ++ toLE 4 pos

/-- What the packing of a turn yields: prompt and report entries. -/
structure Packed where
  prompt : List Nat := []
  entries : Bytes := []
deriving DecidableEq, Repr

/-- The prompt, slot by slot in entry order (R200, R206), with the report entries in prompt order (R208). -/
def assemble (t : Bytes) (q : Request) (question : List Nat) (hist : List (List Nat)) (toksOf : Nat → List Nat × Bool)
    (kept : List (Nat × Nat × Nat)) : Packed :=
  (tplSlotList t).foldl (fun a x =>
    match x.1 with
    | 0 => { a with prompt := a.prompt ++ tplRun t x.2.1 x.2.2 }
    | 1 => { a with prompt := a.prompt ++ hist.flatten }
    | 3 => { a with prompt := a.prompt ++ question }
    | _ => (placed t kept).foldl (fun a y =>
        let c := (q.ret.cands[y.2.1]?).getD { pid := 0, score := 0 }
        let tk := toksOf y.2.1
        { prompt := a.prompt ++ emitPassage t y.1 (tk.1.take y.2.2.1)
          entries := a.entries ++ reportEntry t c tk.1.length y.2.2.1 y.1 q.ret.noRerank (c.tokenized || tk.2) a.prompt.length }) a) {}

/-- The plan entries that rung 5 leaves (R205, Table 7.9): used is what the prompt holds without passages. -/
def rungPassages (s : State) (q : Request) (t : Bytes) (used : Nat) (plan : List (Nat × Nat × Nat)) : Nat :=
  let cost := fun c => ((List.range c).zip plan).foldl (fun a x => a + passageFrame t (x.1 + 1) + x.2.2.1) used
  if missPredicted s q 0 0 (tplBudget t) then
    ((List.range (plan.length + 1)).reverse.find? fun c => decide (1 ≤ c) && !missPredicted s q 0 0 (cost c)).getD (min 1 plan.length)
  else plan.length

/-- A ranked candidate with its tokens in the template's set, and what tokenizing its text did (R193). -/
def packTokens (s : State) (k : BitVec 2) (q : Request) (i : Nat) : Nat × List Nat × Option Tokens :=
  (i, passageTokens s k (((q.ret.cands[i]?).bind (·.block)).getD []))

/-- The summary of the passage report (Table 8.3). -/
def reportSummary (q : Request) (packed prompt : Nat) : Bytes :=
  toLE 2 packed ++ toLE 2 (if q.ret.noRerank then 0 else q.ret.reranked) ++ toLE 2 q.ret.docSkips ++ toLE 2 q.ret.budgetSkips
    ++ toLE 2 q.ret.historyDropped ++ toLE 2 q.ret.queryCut ++ toLE 2 prompt ++ toLE 2 q.block.template ++ toLE 4 q.flags.toNat
    ++ List.replicate 12 0

/-- The tiles of a prompt: its token ids, 4 bytes each (R207). -/
def promptTilesOf (tn : Tenant) (toks : List Nat) : List Tile := rawTiles tn (toks.flatMap (toLE 4))

/-- The packing itself, once the mandatory parts fit (R203 to R206, R208). The prompt goes to store tiles; while the pool has no room for them the
packing waits. -/
def packTurn (s : State) (h : Nat) (q : Request) (t : Bytes) : State :=
  let s0 := s
  let k := BitVec.ofNat 2 (tplSet t)
  let question := questionIn q k
  let room := tplBudget t - mandatory t question
  let hist := if kindCount t 1 = 0 then [] else keepHistory (min (tplHistoryMax t) room) q.block.history.reverse
  let used := mandatory t question + (hist.map List.length).sum
  let cs := q.ret.ranked.map (packTokens s k q)
  let s := (cs.filterMap fun c => c.2.2).foldl (fun s m => countText s q.fn q.tag m) s
  let plan := packPlan t (cs.map fun c =>
    { idx := c.1, doc := rd (((q.ret.cands[c.1]?).bind (·.block)).getD []) 0 8, toks := c.2.1 }) (tplBudget t - used)
  let n := rungPassages s q t used plan.used
  let kept := plan.used.take n
  let toksOf := fun i => match cs.find? fun c => decide (c.1 = i) with
    | some c => (c.2.1, c.2.2.isSome)
    | none => ([], false)
  let out := assemble t q question hist toksOf kept
  let s := modReq s h fun q =>
    { q with
      flags := if n < plan.used.length then q.flags ||| flagFewerPassages else q.flags
      invalidText := q.invalidText + ((cs.filterMap fun c => c.2.2).map (·.replaced)).sum
      ret := { q.ret with
        plan := kept, docSkips := plan.docSkips, budgetSkips := plan.budgetSkips
        historyDropped := q.block.history.length - hist.length, prompt := out.prompt } }
  match conductorPut 0x3C false (promptTilesOf q.fn out.prompt) s with
  | none => s0
  | some (ts, s) => toPhase (modReq s h fun q => { q with ret := { q.ret with
      report := reportSummary q kept.length out.prompt.length ++ out.entries, promptTiles := ts } }) h .ready

/-- PACK_START (R203): the budget is filled, or the mandatory parts exceed it. -/
def packStart (s : State) (h : Nat) : State :=
  match reqOf s h with
  | none => s
  | some q =>
    if q.phase ≠ .pack then s
    else match q.template with
      | none => s
      | some t =>
        if tplBudget t < mandatory t (questionIn q (BitVec.ofNat 2 (tplSet t))) then endRequest s h .noResources 0
        else packTurn s h q t

def execPackStart (h : Nat) (s : State) : Out := .next (packStart s h)

/-- The PASSAGES completion (R310). -/
def passagesOf (q : Request) : Completion :=
  { tag := q.tag
    body := .passages q.ret.plan.length q.ret.prompt.length q.skippedEdges (min q.listsCut 65535) (min q.candDropped 65535)
    flags := q.flags, status := okStatus q.flags, payload := [(q.block.reportBuf, q.ret.report)] }

/-- PROMPT_READY (R207, R208, R310), once the prompt's tiles are READY: the report and the PASSAGES completion, the turn's passages and template copy are freed, and the prompt
goes to the generator partition. A prompt that failed verification is packed again once (R348). -/
def promptReady (s : State) (h : Nat) (good : Bool) : State :=
  match reqOf s h with
  | none => s
  | some q =>
    if q.phase ≠ .ready then s
    else if q.cancel then endRequest s h .cancelled 0
    else if !good then rerunPhase (freePrompt s h) h fun s => modReq s h fun r => { r with phase := .pack }
    else if !(q.ret.promptTiles.all (readable s)) then s
    else
      let s := post s q.fn q.qp (passagesOf q)
      let s := modReq (freeHeld s h) h fun q => { q with template := none, ret := { q.ret with cands := [], probes := [] } }
      let s := toPhase s h .waiting
      if (reqOf s h).any (fun r => decide (r.phase = .waiting)) then
        queueItem s (partId q.block.genPart) q.fn { kind := .prompt, handle := h }
      else s

def execPromptReady (h : Nat) (good : Bool) (s : State) : Out := .next (promptReady s h good)

end Sys2Proof.Machine
end

