-- ==== Sys2Proof/Machine/Mirror.lean ====
section
/-! DEFINITION. Primacy of mutations and their mirroring (chapter 16: R371, R374, R378 to R380, Table 16.6). -/

namespace Sys2Proof.Machine

/-- How a mutation of a tenant is served (Table 16.6). -/
inductive MutRole where
  | alone | mirrored | solo | replayWait | noResources | forward | redirect
deriving DecidableEq, Repr

/-- The role for a tenant's mutations; a table's owner is named by OWNER_POS while the link carries traffic (R379). -/
def mutRole (s : State) (tn : Tenant) (ownerPos : Option Bool) : MutRole :=
  let l := leaseOf s tn
  if !s.pair.enable then .alone
  else if l.resync then .noResources
  else if l.handingOver then .redirect
  else if linkLive s then
    match ownerPos with
    | some o => if o = s.pair.position then (if l.mine && l.soloPending then .replayWait else .mirrored) else .forward
    | none => if !l.mine then .forward else if l.soloPending then .replayWait else .mirrored
  else if !l.mine then .redirect
  else if l.soloPending then .noResources
  else .solo

/-! ## Parts (R371) -/

/-- A list in runs of n (k bounds the runs). -/
def chunksOf {α : Type} (n : Nat) : Nat → List α → List (List α)
  | 0, _ => []
  | k + 1, l => if l.length ≤ n then [l] else l.take n :: chunksOf n k (l.drop n)

/-- A body cut into parts that fit a message of 1,048,576 bytes. -/
def bodyParts : MsgBody → List MsgBody
  | .desc d p => (chunksOf 1048480 (p.length + 1) p).map fun c => .desc d c
  | .adapter part ts => (chunksOf 63 (ts.length + 1) ts).map fun c => .adapter part c
  | .index es ts bs ps ws n =>
    if ws.length ≤ 63 then [.index es ts bs ps ws n]
    else (chunksOf 63 (ws.length + 1) ws).map fun c => .index [] [] [] [] c n
  | .rows im mp =>
    let per := max 1 (1048000 / (8 + 4 * ((im.head?.map fun r => r.2.length).getD 1)))
    let a := (chunksOf per (im.length + 1) im).map fun c => MsgBody.rows c []
    let b := (chunksOf 65000 (mp.length + 1) mp).map fun c => MsgBody.rows [] c
    if im.length ≤ per && mp.length ≤ 65000 && (8 + 4 * ((im.head?.map fun r => r.2.length).getD 1)) * im.length + 16 * mp.length ≤ 1048000
    then [.rows im mp] else if mp = [] then a else if im = [] then b else a ++ b
  | b => [b]

/-- Parts with the byte offset of each; all but the last have MORE (R371). -/
def marked : Nat → List MsgBody → List (MsgBody × Bool × Nat)
  | _, [] => []
  | o, [b] => [(b, false, o)]
  | o, b :: l => (b, true, o) :: marked (o + b.bytes) l

/-- An object sent outside the journal: FORWARD holds the offset in EPOCH (R371). -/
def sendObject (s : State) (m : MsgHdr) (b : MsgBody) : State :=
  (marked 0 (bodyParts b)).foldl (fun s x => sendMsg s { m with more := x.2.1, epoch := BitVec.ofNat 32 x.2.2 } x.1) s

/-- An object journalled whole or in parts with consecutive JSEQ; the last part's entry holds the mutation that waits (R371, R374). -/
def journalObject (s : State) (m : MsgHdr) (b : MsgBody) (h : Option Nat) : State :=
  (marked 0 (bodyParts b)).foldl (fun s x =>
    journalMsg s { m with more := x.2.1, ref := BitVec.ofNat 64 x.2.2 } x.1 (if x.2.1 then none else h)) s

/-! ## Lease swaps (R378, R380) -/

/-- LEASE_LOST, and the module acts as secondary (R378). -/
def loseLease (s : State) (tn : Tenant) (cause : Nat) : State :=
  if (leaseOf s tn).mine then
    let s := setLease s tn fun l => { l with mine := false, soloPending := false, handingOver := false }
    logEvent s (.leaseLost tn cause (leaseOf s tn).word.count)
  else s

/-- A compare-and-swap on a tenant's lease word: COUNT rises by one; a swap that fails loses a lease held (R378). -/
def swapLease (s : State) (tn : Tenant) (ok : Bool) (f : LeaseWord → LeaseWord) : State :=
  if ok then
    let w := f { (leaseOf s tn).word with tenant := tn, pairId := s.pair.pairId, count := (leaseOf s tn).word.count + 1 }
    emit (setLease s tn fun l => { l with word := w, changedAt := now s, renewedAt := now s }) (.leaseSwap w)
  else loseLease s tn 0

/-- A mutation forwarded to the partner (R379, Table 16.6). -/
def forwardMut (s : State) (h : Nat) : State :=
  match reqOf s h with
  | none => s
  | some r =>
    let s := modReq s h fun r => { r with phase := .forwarded }
    let s := { s with pair := { s.pair with forwards := s.pair.forwards ++ [h] } }
    sendObject s { type := 0x20, tenant := r.fn, ref := r.tag, object := r.qp.setWidth 16 } (.desc r.desc r.param)

/-- A mutation that waits for replay while SOLO is pending (Table 16.6). -/
def waitReplay (s : State) (h : Nat) : State :=
  { s with pair := { s.pair with waitMut := withLast h s.pair.waitMut } }

end Sys2Proof.Machine
end

