-- ==== Sys2Proof/Machine/Mutation.lean ====
section
/-! DEFINITION. Chapter 07: index mutation batches, their commit and rollback, compaction (R180 to R188), as applied on either module. -/

namespace Sys2Proof.Machine

/-! ## Chains and directory entries (Table 7.2, R160, R164) -/

/-- A number with bits [hi:lo] replaced. -/
def withBits (v hi lo x : Nat) : Nat := v - bits v hi lo * 2 ^ lo + x % 2 ^ (hi - lo + 1) * 2 ^ lo

def deltaCount (e : Nat) : Nat := bits e 135 124
def tombCount (e : Nat) : Nat := bits e 89 77

/-- Entries of a delta tile (R160). -/
def entriesPerTile (r : IndexRec) : Nat := 16320 / max 1 r.entryBytes
/-- Entries of a list's delta chain at most: 16 tiles (R159). -/
def deltaLimit (r : IndexRec) : Nat := 16 * entriesPerTile r

/-- The batch in progress is undone by these patches, newest first (R183). -/
def noteUndo (s : State) (i : Nat) (us : List (Nat × Bytes)) : State := setIndex s i fun r => { r with undo := us ++ r.undo }

/-- Bytes of a mirrored extent replaced; u says whether the batch in progress can undo it. -/
def mutPatch (s : State) (i : Nat) (u : Bool) (addr : Nat) (data : Bytes) : State :=
  devPatch (if u then noteUndo s i [(addr, devRead s addr data.length)] else s) addr data

/-- List l's directory entry changed. -/
def setDir (s : State) (i : Nat) (u : Bool) (l : Nat) (f : Nat → Nat) : State :=
  match indexOf s i with
  | none => s
  | some r => mutPatch s i u (r.listdirBase + 32 * l) (toLE 32 (f (dirEntry s r l)))

/-- A tile of a pool written empty. -/
def freshTile (s : State) (r : IndexRec) (t : Nat) (trailer : Bytes) (off : Nat) : State :=
  devWrite s t (Tile.sealed { hdr := { tenant := r.tenant, world := r.world, cls := 1, format := 0x10, rows := 1, cols := 16384 }
                              payload := splice (List.replicate 16384 0) off trailer })

/-- A delta tile of the pool is taken (R159). -/
def takeDelta (s : State) (i : Nat) : Option (Nat × State) :=
  (indexOf s i).bind fun r => match r.deltaFree with
    | t :: l => some (t, setIndex s i fun r => { r with deltaFree := l, newDeltas := t :: r.newDeltas })
    | [] =>
      if r.deltaUsed < r.deltaTiles then
        let t := r.deltaBase / 16384 + r.deltaUsed
        some (t, setIndex s i fun r => { r with deltaUsed := r.deltaUsed + 1, newDeltas := t :: r.newDeltas })
      else none

/-- A tombstone tile of the pool is taken (R159). -/
def takeTomb (s : State) (i : Nat) : Option (Nat × State) :=
  (indexOf s i).bind fun r => match r.tombFree with
    | t :: l => some (t, setIndex s i fun r => { r with tombFree := l, newTombs := t :: r.newTombs })
    | [] =>
      if r.tombUsed < r.tombTiles then
        let t := r.tombBase / 16384 + r.tombUsed
        some (t, setIndex s i fun r => { r with tombUsed := r.tombUsed + 1, newTombs := t :: r.newTombs })
      else none

/-- The delta tile that takes list l's next entry, a new one at the chain's end where the last is full. -/
def deltaTail (s : State) (i : Nat) (u : Bool) (l : Nat) (r : IndexRec) : Option (Nat × State) :=
  let chain := deltaChain s (dirEntry s r l)
  let full := match chain.getLast? with
    | none => true
    | some t => decide (entriesPerTile r ≤ rd (devPayload s t) 16328 2)
  if !full then (chain.getLast?).map fun t => (t, s)
  else (takeDelta s i).map fun (t, s) =>
    let trailer := toLE 4 l ++ toLE 2 0xFFFF ++ toLE 1 (dirGen (dirEntry s r l))
    let s := freshTile s r t trailer 16320
    match chain.getLast? with
    | none => (t, setDir s i u l fun e => withBits e 169 136 t)
    | some p => (t, mutPatch s i u (16384 * p + 16336) (toLE 8 t))

/-- An entry appended to list l (Table 7.7 orders 2 and 3). -/
def appendEntry (s : State) (i : Nat) (u : Bool) (l : Nat) (e : Bytes) : State :=
  match indexOf s i with
  | none => s
  | some r => match deltaTail s i u l r with
    | none => s
    | some (t, s) =>
      let n := rd (devPayload s t) 16328 2
      let a := 16384 * t + r.entryBytes * n
      let s := if u then noteUndo s i [(a + 21, [(e.getD 21 0) &&& 0xFE])] else s
      let s := devPatch s a (pad r.entryBytes e)
      let s := mutPatch s i u (16384 * t + 16328) (toLE 2 (n + 1))
      setDir s i u l fun d => withBits d 135 124 (deltaCount d + 1)

/-- The tombstone tile that takes list l's next record. -/
def tombTail (s : State) (i : Nat) (u : Bool) (l : Nat) (r : IndexRec) : Option (Nat × State) :=
  let d := dirEntry s r l
  let chain := tombChain s d
  if tombCount d < 1023 * chain.length then (chain.getLast?).map fun t => (t, s)
  else (takeTomb s i).map fun (t, s) =>
    let s := freshTile s r t [] 0
    match chain.getLast? with
    | none => (t, setDir s i u l fun e => withBits e 123 90 t)
    | some p => (t, mutPatch s i u (16384 * p + 16368) (toLE 8 t))

/-- A tombstone record appended to list l's chain (R181). -/
def appendTomb (s : State) (i : Nat) (u : Bool) (l pid del : Nat) : State :=
  match indexOf s i with
  | none => s
  | some r => match tombTail s i u l r with
    | none => s
    | some (t, s) =>
      let a := 16384 * t + 16 * (tombCount (dirEntry s r l) % 1023)
      let s := if u then noteUndo s i [(a + 9, [0])] else s
      let s := devPatch s a (toLE 5 pid ++ toLE 4 del ++ [1] ++ List.replicate 6 0)
      setDir s i u l fun d => withBits d 89 77 (tombCount d + 1)

/-- Byte address of a passage's block (R165). -/
def blockAddr (r : IndexRec) (pid : Nat) : Nat := 16384 * passageUnit r (BitVec.ofNat 40 pid) + 2048 * (pid % 8)

/-- A passage block stored in its slot (R165, R180). -/
def putBlock (s : State) (i : Nat) (u : Bool) (pid : Nat) (b : Bytes) : State :=
  match indexOf s i with
  | none => s
  | some r =>
    let a := blockAddr r pid
    devPatch (if u then noteUndo s i [(a + 15, [(b.getD 15 0) &&& 0xFE])] else s) a (pad 2048 b)

/-! ## Entries of a list -/

/-- Base unit u of list l, read as R160 and R176 have it: with its trailer and CRC, else from an upper copy. -/
def baseUnitOf (s : State) (l d u : Nat) : Option Tile := readOrCopy s (dirBase d + u) true fun t => trailerOk l (dirGen d) u t.payload
/-- Base units of a list that cannot be read. -/
def badUnits (s : State) (l d : Nat) : List Nat := (List.range (dirUnits d)).filter fun u => (baseUnitOf s l d u).isNone
/-- Entries of the base of a list: its units are device-range tiles. -/
def baseEntries (s : State) (r : IndexRec) (l d : Nat) : List Bytes :=
  (List.range (dirUnits d)).flatMap fun u => (baseUnitOf s l d u).elim [] fun t => unitEntries r t.payload
/-- Every tile of a chain passes its CRC check (R43). -/
def chainGood (s : State) (ts : List Nat) : Bool := ts.all fun t => (devTile s t).any (·.good)
/-- Base and chains of list l can be read. -/
def listGood (s : State) (r : IndexRec) (l : Nat) : Bool :=
  let d := dirEntry s r l
  (badUnits s l d).isEmpty && chainGood s (deltaChain s d) && chainGood s (tombChain s d)
/-- Entries of the delta chain. -/
def deltaEntries (s : State) (r : IndexRec) (d : Nat) : List Bytes := (deltaChain s d).flatMap fun t => unitEntries r (devPayload s t)
/-- Tombstone records of the chain in order, valid or not, up to TOMB_COUNT: (PID, DEL_EPOCH, VALID). -/
def tombList (s : State) (d : Nat) : List (Nat × Nat × Bool) :=
  ((tombChain s d).flatMap fun t => let b := devPayload s t
    (List.range 1023).map fun k => (rd b (16 * k) 5, rd b (16 * k + 5) 4, bit (rd b (16 * k + 9) 1) 0)).take (tombCount d)

/-! ## The insert path (R168, R180) -/

/-- The rounds of an insert's walk (R168 with B = INSERT_BEAM). -/
def insertRounds (s : State) (r : IndexRec) (q8 : List Nat) : Nat → List (Word × Nat) → List Nat → List Nat → List (Word × Nat)
  | 0, beam, _, _ => beam
  | k + 1, beam, vis, expd =>
    let frontier := (beam.map (·.2)).filter fun c => decide (c ∉ expd)
    if frontier.isEmpty || decide (63488 ≤ vis.length) then beam
    else
      let (vis, new, _) := (frontier.flatMap (neighbours s r)).foldl (resolveNew s r) (vis, [], 0)
      let (beam, _) := new.foldl (scoreInto s r q8 r.insertBeam) (beam, 0)
      insertRounds s r q8 k beam vis (expd ++ frontier)

/-- The list of an insert: the best centroid of its walk (R180); none when every score is NaN. -/
def insertList (s : State) (r : IndexRec) (v : List Word) : Option Nat :=
  let q8 := toE4m3 v
  let (vis, new, _) := (entrySet s r).foldl (resolveNew s r) ([], [], 0)
  let (beam, _) := new.foldl (scoreInto s r q8 r.insertBeam) ([], 0)
  ((insertRounds s r q8 r.maxRounds beam vis []).head?).map (·.2)

/-- The residual of a vector from its list's centroid (R170, R180). -/
def residual (s : State) (r : IndexRec) (v : List Word) (c : Nat) : List Word :=
  (v.zip (centVector s r c)).map fun p =>
    fpOf (fmtBf16.decode (convert 0x02 0 (fpVal (fsub p.1 (fpOf (fmtE4m3.decode p.2.toNat) false))) false)) false

/-- CODE[j]: the k that maximises the squared-L2 table, equal values to the lower k (R180). -/
def insertCode (s : State) (r : IndexRec) (res : List Word) (j : Nat) : Nat :=
  let l2 := { r with metricIp := false }
  ((List.range 256).foldl (fun (a : Nat × Word) k =>
    let x := lutEntry s l2 res j k
    if k = 0 || flt a.2 x then (k, x) else a) (0, 0)).1

/-- The entry of an insert (R161, R180). -/
def insertEntry (r : IndexRec) (attr : Bytes) (pid ins : Nat) (code : Bytes) : Bytes :=
  pad r.entryBytes (attr ++ toLE 5 pid ++ toLE 4 ins ++ toLE 4 0xFFFFFFFF ++ [1, 0, 0] ++ code)

/-- The block image with what the module writes into it (R180). -/
def insertBlock (b : Bytes) (pid : Nat) (tn : Tenant) (list : Nat) : Bytes :=
  splice (splice (pad 2048 b) 8 (toLE 5 pid ++ toLE 2 tn.toNat ++ [(b.getD 15 0) ||| 1])) 16 (toLE 4 list)

/-! ## Batches: contents, checks, writes (R180 to R182, R188) -/

/-- What a batch is to write: entries by list, tombstone records, blocks, patches. -/
structure BatchWork where
  entries : List (Nat × Bytes) := []
  tombs : List (Nat × Nat) := []
  blocks : List (Nat × Bytes) := []
  patches : List (Nat × Nat) := []
  ids : List Nat := []
  next : BitVec 40 := 0
  notFound : Nat := 0
  already : Nat := 0
  /-- a block of another tenant is named -/
  foreign : Option Tenant := none
  /-- lists whose base and chains the batch reads -/
  reads : List Nat := []
deriving DecidableEq, Repr

def mutIndex (r : Request) : Nat := r.desc.argA.toNat % 256
def itemCount (r : Request) : Nat := bits r.desc.argA.toNat 16 8

/-- One insert item (R180, Table 13.6). A vector with no score at all goes to a list that a free value picks. -/
def insertItem (r : IndexRec) (tn : Tenant) (param : Bytes) (acc : BatchWork × State) (k : Nat) : BatchWork × State :=
  let (w, s) := acc
  let off := k * (2064 + 4 * r.dim)
  let v := (List.range r.dim).map fun j => w32 (rd param (off + 16 + 4 * j) 4)
  let (l, s) := match insertList s r v with
    | some l => (l, s)
    | none => let (x, s) := drawFree s; (x.toNat % max 1 r.centroids, s)
  let pid := w.next.toNat
  let code := (List.range r.pqM).map fun j => BitVec.ofNat 8 (insertCode s r (residual s r v l) j)
  let blk := slice param (off + 16 + 4 * r.dim) (rd param (off + 8) 2)
  ({ w with entries := w.entries ++ [(l, insertEntry r (slice param off 8) pid (r.epoch.toNat + 1) code)]
            blocks := w.blocks ++ [(pid, insertBlock blk pid tn l)], ids := w.ids ++ [pid], next := w.next + 1 }, s)

/-- The passage is deleted at EPOCH or earlier: a tombstone or the entry says so, or its list holds no entry of it (R181). -/
def alreadyDeleted (s : State) (r : IndexRec) (l pid : Nat) : Bool :=
  let d := dirEntry s r l
  let e := (baseEntries s r l d ++ deltaEntries s r d).find? fun e => decide (rd e 8 5 = pid ∧ bit (rd e 21 1) 0)
  ((tombList s d).any fun t => decide (t.1 = pid) && t.2.2 && decide (t.2.1 ≤ r.epoch.toNat))
    || (match e with
        | some e => decide (rd e 17 4 ≤ r.epoch.toNat)
        | none => true)

/-- The list that holds a passage's entry: the one that its block names, or the replacement that forwarded records lead to (R158: a forwarded
centroid's entries lie in its replacement's list; a block's LIST is not written again; DEDUCED, log entry 146). -/
def listOf (s : State) (r : IndexRec) (l : Nat) : Nat := (resolveHops s r r.centroids l).getD l

/-- One delete item (R181). -/
def deleteItem (s : State) (r : IndexRec) (tn : Tenant) (param : Bytes) (w : BatchWork) (k : Nat) : BatchWork :=
  let pid := rd param (8 * k) 5
  let inside := !(bit pid 39) || decide (pid < r.insertNext.toNat)
  match (devTile s (passageUnit r (BitVec.ofNat 40 pid))).filter fun _ => inside with
  | none => { w with notFound := w.notFound + 1 }
  | some t =>
    let b := slice t.payload (2048 * (pid % 8)) 2048
    if !bit (rd b 15 1) 0 then { w with notFound := w.notFound + 1 }
    else if rd b 13 2 % 512 ≠ tn.toNat then { w with foreign := w.foreign.orElse fun _ => some (BitVec.ofNat 9 (rd b 13 2)) }
    else
      let l := listOf s r (rd b 16 4 % 2 ^ 25)
      let w := { w with reads := withLast l w.reads }
      if alreadyDeleted s r l pid then { w with already := w.already + 1 } else { w with tombs := w.tombs ++ [(l, pid)] }

/-- The batch of a request (R180, R181, R301). -/
def batchWork (s : State) (r : IndexRec) (q : Request) : BatchWork × State :=
  let n := itemCount q
  match q.op with
  | .indexDelete => ((List.range n).foldl (deleteItem s r q.fn q.param) { next := r.insertNext }, s)
  | _ =>
    if bit q.desc.opflags.toNat 0 then
      ({ next := r.insertNext, patches := (List.range n).map fun k => (rd q.param (8 * k) 4, rd q.param (8 * k + 4) 4) }, s)
    else (List.range n).foldl (insertItem r q.fn q.param) ({ next := r.insertNext }, s)

/-- Entries and tombstone records that a patch moves (R188). -/
def patchEntries (s : State) (r : IndexRec) (l : Nat) : List Bytes :=
  let d := dirEntry s r l
  (baseEntries s r l d ++ deltaEntries s r d).filter fun e => bit (rd e 21 1) 0
def patchTombs (s : State) (r : IndexRec) (l : Nat) : List (Nat × Nat × Bool) := (tombList s (dirEntry s r l)).filter fun t => t.2.2

/-- Chain room and pool room for so many new entries and records by list (R182, R188). -/
def chainsFit (s : State) (r : IndexRec) (es ts : List Nat) : Bool :=
  let lists := (es ++ ts).foldl (fun a l => withLast l a) []
  let per := entriesPerTile r
  let need := fun (count n per len : Nat) => (count + n + per - 1) / max 1 per - len
  let adds := fun (x : List Nat) l => (x.filter fun y => decide (y = l)).length
  let d := fun l => dirEntry s r l
  (lists.all fun l => decide (adds es l = 0 ∨ deltaCount (d l) + adds es l ≤ deltaLimit r)
      && decide (adds ts l = 0 ∨ tombCount (d l) + adds ts l ≤ 4092))
    && decide ((lists.map fun l => if adds es l = 0 then 0 else need (deltaCount (d l)) (adds es l) per (deltaChain s (d l)).length).sum
        ≤ r.deltaFree.length + (r.deltaTiles - r.deltaUsed))
    && decide ((lists.map fun l => if adds ts l = 0 then 0 else need (tombCount (d l)) (adds ts l) 1023 (tombChain s (d l)).length).sum
        ≤ r.tombFree.length + (r.tombTiles - r.tombUsed))

/-- Passages that an index holds: the entries of its lists (DEDUCED, log entry 143). -/
def heldPassages (s : State) (r : IndexRec) : Nat :=
  ((List.range r.centroids).map fun l => bits (dirEntry s r l) 205 182 + deltaCount (dirEntry s r l)).sum

/-- The module has room for so many passages more (R155, Table 0.1). -/
def passageRoom (s : State) (n : Nat) : Bool :=
  decide ((s.gen.indexes.map fun x => heldPassages s x.2).sum + n ≤ Config.passagesMax)

/-- The whole check of a batch (R155, R182, R186, R188): none when it passes. A list of which the batch must read a unit or tile that cannot be read
gives MEDIA_ERROR (Table 4.8). -/
def batchCheck (s : State) (r : IndexRec) (w : BatchWork) : Option Status :=
  let es := w.entries.map (·.1) ++ w.patches.flatMap fun p => (patchEntries s r p.1).map fun _ => p.2
  let ts := w.tombs.map (·.1) ++ w.patches.flatMap fun p => (patchTombs s r p.1).map fun _ => p.2
  if w.foreign.isSome then some .accessTenant
  else if 0xFFFFFF00 ≤ r.epoch.toNat || !passageRoom s w.entries.length then some .noResources
  else if !((w.reads ++ w.patches.map (·.1)).all (listGood s r)) then some .mediaError
  else if !chainsFit s r es ts then some .noResources
  else if w.blocks.any fun b => (devTile s (passageUnit r (BitVec.ofNat 40 b.1))).isNone then some .noResources
  else none

/-- Entries, records and blocks written with epoch EPOCH + 1 (Table 7.7 orders 2 and 3). -/
def writeBatch (s : State) (i : Nat) (u : Bool) (epoch : Nat) (es : List (Nat × Bytes)) (ts : List (Nat × Nat)) (bs : List (Nat × Bytes)) : State :=
  let s := es.foldl (fun s e => appendEntry s i u e.1 e.2) s
  let s := ts.foldl (fun s t => appendTomb s i u t.1 t.2 epoch) s
  bs.foldl (fun s b => putBlock s i u b.1 b.2) s

/-- A tile of an RO extent rewritten by the module, at HOME and at COPY (R157, R188). -/
def roWrite (s : State) (n : Nat) (t : Tile) : State :=
  match entryOf s (devExtent n) with
  | none => s
  | some e =>
    let k := (devPos n).toNat
    let put := fun (s : State) (tier : BitVec 2) (loc : BitVec 25) =>
      if tier = 3 then
        let n := s.flash.programs.length
        let s := (writeUnit s (128 * loc.toNat + k) t .nobody).1
        if n < s.flash.programs.length then flashProgramDone s n true else s
      else if tier = 2 then putL s (128 * loc.toNat + k) t false
      else if tier = 1 then putAt s (1, 128 * loc.toNat + k) t e n true else s
    let s := put s e.homeTier e.homeLoc
    if e.copyTier = 0 then s else put s e.copyTier e.copyLoc

/-- A centroid record set to forwarded (R157, R188); its tile's CRC is verified first (R43). -/
def forwardCentroid (s : State) (r : IndexRec) (c new : Nat) : State :=
  let a := r.recBase + 16 * c + 4
  match devTile s (a / 16384) with
  | none => s
  | some t =>
    if t.crcOk then roWrite s (a / 16384) (Tile.sealed { t with payload := splice (pad 16384 t.payload) (a % 16384) (toLE 4 (2 ^ 30 + new % 2 ^ 25)) })
    else logEvent s (.unnamed 16 0x3F [w32 (a / 16384), w32 (a % 16384)])

/-- Turns in a retrieval phase now (R187). -/
def retrieving (s : State) : List Nat := s.host.requests.filterMap fun q => if q.2.phase ∈ [.walk, .scan, .merge, .fetch] then some q.1 else none

/-- What list l leaves is freed once those turns' phases have ended (R187). -/
def leaveFreeing (s : State) (i l : Nat) (f : Freeing) : State :=
  setIndex s i fun r => { r with freeing := mmod {} r.freeing l fun o =>
    { units := o.units ++ f.units, deltas := o.deltas ++ f.deltas, tombs := o.tombs ++ f.tombs, pids := o.pids ++ f.pids
      users := o.users ++ f.users } }

/-- A patch applied at its visibility (R188): the retired list's entries and tombstone records move, the record is forwarded, and the
retired list is left empty. -/
def applyPatch (i : Nat) (s : State) (p : Nat × Nat) : State :=
  match indexOf s i with
  | none => s
  | some r =>
    let d := dirEntry s r p.1
    let es := patchEntries s r p.1
    let ts := patchTombs s r p.1
    let s := es.foldl (fun s e => appendEntry s i false p.2 e) s
    let s := ts.foldl (fun s t => appendTomb s i false p.2 t.1 t.2.1) s
    let s := forwardCentroid s r p.1 p.2
    let s := leaveFreeing s i p.1 { units := (List.range (dirUnits d)).map (dirBase d + ·), deltas := deltaChain s d, tombs := tombChain s d
                                    users := retrieving s }
    setDir s i false p.1 fun e => withBits (withBits (withBits (withBits (withBits (withBits e 221 206 0) 205 182 0) 169 136 0) 135 124 0) 123 90 0) 89 77 0

/-! ## Compaction (R187) -/

/-- The compaction of list l starts: COMPACTING, the chain positions, and O (R187). -/
def startCompaction (i : Nat) (s : State) (l : Nat) : State :=
  match indexOf s i with
  | none => s
  | some r =>
    let d := dirEntry s r l
    if bit d 0 then s
    else
      let s := setDir s i false l fun d => withBits d 0 0 1
      setIndex s i fun r => { r with compact := mins r.compact l { d0 := deltaCount d, t0 := tombCount d, o := r.oldestSnap } }

/-- Lists whose chains have grown to the compaction limits (R187). -/
def dueLists (s : State) (r : IndexRec) (ls : List Nat) : List Nat :=
  ls.filter fun l => let d := dirEntry s r l
    decide (deltaLimit r / 2 ≤ deltaCount d) || decide (2048 ≤ tombCount d)

/-! ## Visibility and rollback (Table 7.7 orders 6 and 7, R183) -/

/-- The batch's work as its request keeps it: result ids and counts. -/
def keepWork (s : State) (h : Nat) (w : BatchWork) (count : Nat) : State :=
  modReq s h fun q => { q with outCount := count, skippedEdges := w.notFound, listsCut := w.already, ret := { q.ret with prompt := w.ids } }

/-- The FINAL of a batch (Table 13.11, R301). -/
def batchFinal (s : State) (h : Nat) (r : IndexRec) : State :=
  match reqOf s h with
  | none => s
  | some q =>
    let aux := if q.op = .indexDelete then w32 (min q.skippedEdges 65535 + 65536 * min q.listsCut 65535) else r.epoch
    let res := if q.ret.prompt = [] then [] else [(q.desc.resultAddr, q.ret.prompt.flatMap (toLE 8))]
    finish s h .ok (finalBody q q.outCount 0 .none 0 aux) res

/-- The batch becomes visible: EPOCH advances (R182 order 6), patches take effect, compactions due start (R187). An EPOCH that reaches its limit is
logged (R186). -/
def makeVisible (s : State) (i : Nat) (patches : List (Nat × Nat)) (epoch : Epoch) : State :=
  let s := patches.foldl (applyPatch i) s
  let s := setIndex s i fun r => IndexRec.withOldest { r with epoch := epoch, batch := none, undo := [], newDeltas := [], newTombs := [] }
  match indexOf s i with
  | none => s
  | some r =>
    let s := if epoch = 0xFFFFFF00 then logEvent s (.indexEpochLimit i epoch r.tenant) else s
    let all := (List.range r.centroids).filter fun l => decide (dirEntry s r l ≠ 0)
    (dueLists s r all ++ patches.map (·.1)).foldl (startCompaction i) s

/-- A batch that failed is taken back (R183): VALID cleared, block slots freed, counts restored; its epoch is reused, its ids are not. -/
def rollbackBatch (s : State) (i : Nat) : State :=
  match indexOf s i with
  | none => s
  | some r =>
    let s := r.undo.foldl (fun s u => devPatch s u.1 u.2) s
    setIndex s i fun r => { r with batch := none, undo := [], deltaFree := r.deltaFree ++ r.newDeltas, tombFree := r.tombFree ++ r.newTombs
                                   newDeltas := [], newTombs := [] }

/-- Patches that a request's batch carries. -/
def requestPatches (q : Request) : List (Nat × Nat) :=
  if q.op = .indexInsert && bit q.desc.opflags.toNat 0 then
    (List.range (itemCount q)).map fun k => (rd q.param (8 * k) 4, rd q.param (8 * k + 4) 4) else []

/-- A batch refused or rolled back ends with a status (R182, R183). -/
def batchFails (s : State) (h : Nat) (st : Status) (aux : BitVec 32) : State := finishPlain s h st aux

/-- The accepted batch of request h is checked and written, and committed as its role has it (Table 7.7, R380); swapOk is the lease swap of
a solo commit. -/
def runBatch (s : State) (h : Nat) (swapOk : Bool) : State :=
  match reqOf s h with
  | none => s
  | some q =>
    let i := mutIndex q
    match indexOf s i with
    | none => batchFails s h .badDescriptor 28
    | some r =>
      match mutRole s q.fn none with
      | .replayWait => waitReplay s h
      | .noResources => batchFails s h .noResources 0
      | .redirect => batchFails s h .redirectPartner 0
      | .forward => forwardMut s h
      | role =>
        let (w, s) := batchWork s r q
        match batchCheck s r w with
        | some st =>
          let s := match w.foreign with
            | some t => countTenant (logEvent s (.accessTenant 0x3C q.fn t 0x0A i r.epoch)) q.fn 1 1
            | none => s
          batchFails s h st 0
        | none =>
          let e := r.epoch + 1
          let s := setIndex s i fun r => { r with batch := some h, insertNext := w.next, newDeltas := [], newTombs := [], undo := [] }
          let s := writeBatch s i true e.toNat w.entries w.tombs w.blocks
          let s := keepWork s h w (w.entries.length + w.tombs.length + w.patches.length)
          let m : MsgHdr := { type := 0x10, tenant := q.fn, object := BitVec.ofNat 16 i, epoch := e }
          let body := MsgBody.index w.entries w.tombs w.blocks w.patches [] w.next
          if role = .mirrored then journalObject s m body (some h)
          else if role = .solo then
            let s := swapLease s q.fn swapOk fun l => { l with solo := true }
            if swapOk then
              let s := journalObject (makeVisible s i w.patches e) m body none
              batchFinal s h ((indexOf s i).getD r)
            else batchFails (rollbackBatch s i) h .redirectPartner 0
          else
            let s := makeVisible s i w.patches e
            batchFinal s h ((indexOf s i).getD r)

/-- Batches that wait for the index run, one at a time (R182); k bounds the batches that end at once. -/
def drainBatches (s : State) (i : Nat) (swapOk : Bool) : Nat → State
  | 0 => s
  | k + 1 => match indexOf s i with
    | none => s
    | some r => match r.batch, r.queue with
      | none, h :: l => drainBatches (runBatch (setIndex s i fun r => { r with queue := l }) h swapOk) i swapOk k
      | _, _ => s

/-- The index agent accepts a batch (R182). -/
def acceptBatch (s : State) (h i : Nat) (swapOk : Bool) : State :=
  let s := setIndex s i fun r => { r with queue := r.queue ++ [h] }
  drainBatches s i swapOk (((indexOf s i).map fun r => r.queue.length).getD 0)

/-- The partner has answered for the batch of request h, or it commits alone (R182, R183, R374). -/
def batchAnswered (s : State) (h : Nat) (st : Status) (swapOk : Bool) : State :=
  match reqOf s h with
  | none => s
  | some q =>
    let i := mutIndex q
    match indexOf s i with
    | none => s
    | some r =>
      if r.batch ≠ some h then s
      else
        let s := if st = .ok then
            let s := makeVisible s i (requestPatches q) (r.epoch + 1)
            batchFinal s h ((indexOf s i).getD r)
          else batchFails (rollbackBatch s i) h st 0
        drainBatches s i swapOk r.queue.length

/-- A mirrored batch applied on the partner at the same epoch (Table 7.7 order 5): its status. -/
def applyIndexBody (s : State) (i : Nat) (epoch : Epoch) (es : List (Nat × Bytes)) (ts : List (Nat × Nat)) (bs : List (Nat × Bytes))
    (ps : List (Nat × Nat)) (ws : List (Nat × Tile)) (next : BitVec 40) : State × Status :=
  match indexOf s i with
  | none => (s, .badDescriptor)
  | some r =>
    let w : BatchWork := { entries := es, tombs := ts, blocks := bs, patches := ps, next := next }
    match batchCheck s r w with
    | some st => (s, st)
    | none =>
      if ws.any fun x => (entryOf s (devExtent x.1)).isNone then (s, .programMismatch)
      else
        let s := ws.foldl (fun s x => devWrite s x.1 x.2) s
        let s := writeBatch s i false epoch.toNat es ts bs
        let s := setIndex s i fun r => { r with insertNext := next }
        (makeVisible s i ps epoch, .ok)

/-! ## Compaction's end (R187) -/

/-- An entry with its DEL_EPOCH folded with the tombstone records given. -/
def foldTomb (ts : List (Nat × Nat × Bool)) (e : Bytes) : Bytes :=
  match ts.find? fun t => t.2.2 && decide (t.1 = rd e 8 5) with
  | some t => if t.2.1 < rd e 17 4 then splice e 17 (toLE 4 t.2.1) else e
  | none => e

/-- A base unit's bytes (R160). -/
def baseUnit (r : IndexRec) (l u gen : Nat) (es : List Bytes) : Bytes :=
  pad 16320 (es.flatMap fun e => pad r.entryBytes e) ++ toLE 4 l ++ toLE 2 u ++ toLE 1 gen ++ [0] ++ toLE 2 es.length ++ List.replicate 54 0

/-- The die column of an extent: its tier-F location modulo NCOL (R66, R390). -/
def columnOf (e : ExtentEntry) : Nat := e.homeLoc.toNat % Config.ncol

/-- The new base lies in RO extents of the index's tenant and world with HOME in tier F, in the list's die column (R187, R390). -/
def baseFits (s : State) (r : IndexRec) (d base n : Nat) : Bool :=
  (List.range n).all fun k => match entryOf s (devExtent (base + k)) with
    | some e => e.cls = 0 && e.homeTier = 3 && e.tenant = r.tenant && e.world = r.world
        && (k ≠ 0 || dirUnits d = 0 || decide (columnOf e = bits d 181 178))
    | none => false

/-- The pools hold the fresh chains of so many entries and records (R187 step 4). -/
def chainRoom (r : IndexRec) (n m : Nat) : Bool :=
  let per := max 1 (entriesPerTile r)
  decide ((n + per - 1) / per ≤ r.deltaFree.length + (r.deltaTiles - r.deltaUsed))
    && decide ((m + 1022) / 1023 ≤ r.tombFree.length + (r.tombTiles - r.tombUsed))

/-- LIST_COMPACTION_SWITCH (R187 steps 3 and 4): the new base written at the device-range tile given, and the one atomic switch. While a
batch of the index is written and not yet visible, while the pools have no room for the entries and records to be carried, or while a unit or
tile of the list cannot be read, the switch waits (DESIGN CHOICE, log entry 147). -/
def compactionSwitch (s : State) (i l base : Nat) : State :=
  match indexOf s i with
  | none => s
  | some r => match mfind r.compact l with
    | none => s
    | some c =>
      let d := dirEntry s r l
      let ts := tombList s d
      let es := (baseEntries s r l d ++ (deltaEntries s r d).take c.d0).map (foldTomb (ts.take c.t0))
      let keep := es.filter fun e => bit (rd e 21 1) 0 && decide (c.o.toNat < rd e 17 4)
      let gone := (es.filter fun e => !(bit (rd e 21 1) 0 && decide (c.o.toNat < rd e 17 4))).map fun e => rd e 8 5
      let per := entriesPerTile r
      let units := chunksOf per (keep.length + 1) keep
      let units := if keep = [] then [] else units
      let gen := (dirGen d + 1) % 256
      let later := (deltaEntries s r d).drop c.d0
      let laterT := (ts.drop c.t0).filter fun t => t.2.2
      let col := ((entryOf s (devExtent base)).map columnOf).getD 0
      if r.batch.isSome || !listGood s r l || !baseFits s r d base units.length || !chainRoom r later.length laterT.length then s
      else
        let s := ((List.range units.length).zip units).foldl (fun s u =>
          roWrite s (base + u.1) (Tile.sealed { hdr := { tenant := r.tenant, world := r.world, cls := 0, format := 0x10, rows := 1, cols := 16384 }
                                                payload := baseUnit r l u.1 gen u.2 })) s
        let old : Freeing := { units := (List.range (dirUnits d)).map (dirBase d + ·), deltas := deltaChain s d, tombs := tombChain s d
                               pids := gone.filter fun p => bit p 39, users := retrieving s }
        let s := setDir s i false l fun e =>
          withBits (withBits (withBits (withBits (withBits (withBits (withBits (withBits (withBits (withBits e 255 222 (if units = [] then 0 else base))
            221 206 units.length) 205 182 keep.length) 181 178 col) 177 170 gen) 169 136 0) 135 124 0) 123 90 0) 89 77 0) 0 0 0
        let s := later.foldl (fun s e => appendEntry s i false l e) s
        let s := laterT.foldl (fun s t => appendTomb s i false l t.1 t.2.1) s
        let s := setIndex s i fun r => { r with compact := mdel r.compact l, newDeltas := [], newTombs := [] }
        leaveFreeing s i l old

def execListCompactionSwitch (i l base : Nat) (s : State) : Out := .next (compactionSwitch s i l base)

/-- LIST_COMPACTION_FREE (R187 step 5): old base, old chains, and insert-region blocks of the entries left out. -/
def compactionFree (s : State) (i l : Nat) : State :=
  match indexOf s i with
  | none => s
  | some r => match mfind r.freeing l with
    | none => s
    | some f =>
      if f.users.any fun h => decide (h ∈ retrieving s) then s
      else
        let s := f.units.foldl (fun s n => match entryOf s (devExtent n) with
          | some e => if e.homeTier = 3 then trimUnit s (128 * e.homeLoc.toNat + (devPos n).toNat) else s
          | none => s) s
        let s := f.pids.foldl (fun s p => devPatch s (blockAddr r p + 15) [0]) s
        setIndex s i fun r => { r with freeing := mdel r.freeing l, deltaFree := r.deltaFree ++ f.deltas, tombFree := r.tombFree ++ f.tombs }

def execListCompactionFree (i l : Nat) (s : State) : Out := .next (compactionFree s i l)

end Sys2Proof.Machine
end

