-- ==== Sys2Proof/Machine/Tables.lean ====
section
/-! DEFINITION. Chapter 11: embedding tables: lookups, popularity, migration, updates, mirroring of row batches. -/

namespace Sys2Proof.Machine

def tableOf (s : State) (t : Nat) : Option TableRec := mfind s.gen.tables t
def setTable (s : State) (t : Nat) (f : TableRec → TableRec) : State :=
  match mfind s.gen.tables t with
  | none => s
  | some r => { s with gen := { s.gen with tables := mins s.gen.tables t (f r) } }

/-! ## Row map entries and slots (R257, R258) -/

def rowEntry (s : State) (r : TableRec) (row : Nat) : Nat := devNum s (r.mapBase + 8 * row) 8
def entDual (e : Nat) : Bool := bits e 63 62 = 1
def entWidth (e : Nat) : Nat := bits e 61 60
def entNewWidth (e : Nat) : Nat := bits e 59 58
def entNewSlot (e : Nat) : Nat := bits e 57 32
def entSlot (e : Nat) : Nat := bits e 25 0
def stableEntry (w slot : Nat) : Nat := w * 2 ^ 60 + slot
def dualEntry (e w n : Nat) : Nat := 2 ^ 62 + entWidth e * 2 ^ 60 + w * 2 ^ 58 + n * 2 ^ 32 + entSlot e

def regionBase (r : TableRec) (w : Nat) : Nat := if w = 0 then r.coldBase else if w = 1 then r.warmBase else r.hotBase
/-- Byte address of a row slot (Table 11.2): a slot never crosses a tile. -/
def slotAddr (r : TableRec) (w n : Nat) : Nat :=
  let per := max 1 (slotsPerTile r.cols w)
  regionBase r w + 16384 * (n / per) + slotBytes r.cols w * (n % per)

/-- Slots of a region. -/
def regionSlots (r : TableRec) (w : Nat) : Nat := if w = 2 then r.hotTiles * slotsPerTile r.cols 2 else r.rows

/-- FP32 values of a row slot's bytes (R257). -/
def decodeRow (c w : Nat) (b : Bytes) : List Word :=
  if w = 0 then toFp32 0x0D 0 b (b.drop (c / 2)) c else if w = 1 then toFp32 0x04 0 b [] c else toFp32 0x02 0 b [] c

/-- E2M1 elements and scales of a row, block by block (R264). -/
def coldBlocks : Nat → List Word → List Nat × List Nat
  | 0, _ => ([], [])
  | k + 1, l =>
    if l = [] then ([], [])
    else
      let (x, es) := mxBlock 0x0D ((l.take 32).map fpVal)
      let (ds, xs) := coldBlocks k (l.drop 32)
      (es ++ ds, x :: xs)

/-- quantise(v, w) (R264). -/
def quantiseRow (w : Nat) (v : List Word) : Bytes :=
  if w = 0 then
    let (es, xs) := coldBlocks (v.length / 32 + 1) v
    packBits 4 es ++ xs.map (BitVec.ofNat 8)
  else if w = 1 then v.flatMap fun x => toLE 1 (convert 0x04 0 (fpVal x) false)
  else v.flatMap fun x => toLE 2 (convert 0x02 0 (fpVal x) false)

/-! ## Hot copies (R258, R265) -/

def hotKey (t k : Nat) : Nat := t * 65536 + k

/-- FREE tiles of a partition's store share. -/
def freeTiles (s : State) (p : PartId) : List TileIdx :=
  let q := partOf s p
  ((List.range q.storeCount).map fun i => BitVec.ofNat 17 (q.storeBase + i)).filter fun t => decide ((slotOf s t).hdr.state = .free)

/-- An old hot copy goes: FREE now where it is READY (R47), else, while a step holds it, after a later commit (R52, R263). -/
def dropHot (p : PartId) (s : State) (t : TileIdx) : State :=
  if (slotOf s t).hdr.state = .held then setPart s p fun q => { q with hotOld := withLast t q.hotOld }
  else setSlot s t fun x => { x with hdr := { x.hdr with state := .free } }

/-- The hot copy of hot tile k of a table, made from tier L in a FREE slot of the share that a free value picks; the directory switches and
the old copy goes (R258, R265). -/
def hotCopy (s : State) (t k : Nat) : State :=
  match tableOf s t with
  | none => s
  | some r =>
    let n := r.hotBase / 16384 + k
    let p := r.part
    let old := mfind (partOf s p).hotDir (hotKey t k)
    let (v, s) := drawFree s
    let fs := freeTiles s p
    match devTile s n, fs[v.toNat % max 1 fs.length]? with
    | some tl, some slot =>
      let h : TileHeader := { tl.hdr with scaleIndex := slot + tl.hdr.scaleIndex, srcValid := true, srcTile := BitVec.ofNat 34 n, owner := p.setWidth 6, persist := true, tenant := r.tenant }
      let s := writeTile s (channelDie n) slot { hdr := h, payload := tl.payload } r.world
      let s := setPart s p fun q => { q with hotDir := mins q.hotDir (hotKey t k) slot }
      match old with
      | some o => dropHot p s o
      | none => s
    | _, _ => s

/-- Every hot copy of a partition's tables, rebuilt from tier L (R258, R323). -/
def rebuildHot (s : State) (p : PartId) : State :=
  let s := setPart s p fun q => { q with hotDir := [] }
  (s.gen.tables.filter fun t => decide (t.2.part = p)).foldl (fun s t => (List.range t.2.hotTiles).foldl (fun s k => hotCopy s t.1 k) s) s

/-- Bytes of a row slot: a hot row's from its hot copy, where there is one (R258). -/
def slotData (s : State) (t : Nat) (r : TableRec) (w n : Nat) : Bytes :=
  let per := max 1 (slotsPerTile r.cols 2)
  let copy := if w = 2 then (mfind (partOf s r.part).hotDir (hotKey t (n / per))).filter fun x => readable s x else none
  match copy with
  | some x => slice (slotOf s x).payload (slotBytes r.cols 2 * (n % per)) (slotBytes r.cols 2)
  | none => devRead s (slotAddr r w n) (slotBytes r.cols w)

/-- fp32 value of row r from slot (WIDTH, SLOT). -/
def rowValue (s : State) (t : Nat) (r : TableRec) (row : Nat) : List Word :=
  let e := rowEntry s r row
  decodeRow r.cols (entWidth e) (slotData s t r (entWidth e) (entSlot e))

/-! ## Lookups (R259 to R261, R302) -/

/-- Indices of a ROW_LOOKUP. -/
def lookupIndices (q : Request) : List Nat := (List.range (q.param.length / 4)).map fun i => rd q.param (4 * i) 4
/-- The row read for an index (R260). -/
def rowFor (r : TableRec) (i : Nat) : Nat := if i < r.rows then i else r.defaultRow

/-- Bag size of a lookup (Table 13.3); 1 without SUM. -/
def bagSize (q : Request) : Nat := if bit q.desc.opflags.toNat 1 then max 1 (q.desc.argB.toNat % 512) else 1

/-- Element-wise sums of a bag of rows under sum_tree, in index order (R259). -/
def bagSum (c : Nat) (rows : List (List Word)) : List Word := (List.range c).map fun j => sumTree (rows.map fun r => r.getD j 0)

/-- Output values of a lookup. -/
def lookupRows (s : State) (t : Nat) (r : TableRec) (q : Request) : List (List Word) :=
  let vs := (lookupIndices q).map fun i => rowValue s t r (rowFor r i)
  if bit q.desc.opflags.toNat 1 then (chunksOf (bagSize q) (vs.length + 1) vs).map (bagSum r.cols) else vs

/-- Rows as bytes: FP32, or BF16 (R302). -/
def rowsBytes (bf : Bool) (vs : List (List Word)) : Bytes :=
  vs.flatMap fun v => v.flatMap fun x => if bf then toLE 2 (convert 0x02 0 (fpVal x) false) else toLE 4 x.toNat

/-- Tiles of tier L that the read of a row needs: of the row map, and of its slot unless a hot copy serves it (R257, R258). -/
def rowTiles (s : State) (t : Nat) (r : TableRec) (row : Nat) : List Nat :=
  let e := rowEntry s r row
  let hot := entWidth e = 2 && ((mfind (partOf s r.part).hotDir (hotKey t (entSlot e / max 1 (slotsPerTile r.cols 2)))).any fun x => readable s x)
  (r.mapBase + 8 * row) / 16384 :: if hot then [] else [slotAddr r (entWidth e) (entSlot e) / 16384]

/-- One row read is counted (R261). -/
def countRow (t : Nat) (s : State) (row : Nat) : State :=
  match tableOf s t with
  | none => s
  | some r =>
    let s := setTable s t fun r => { r with lookups := r.lookups + 1 }
    if (r.lookups + 1).toNat % 2 ^ r.sampleShift = 0 then
      let a := r.countBase + row
      devPatch s a (toLE 1 (min 255 (devNum s a 1 + 1)))
    else s

/-- Invalid and missing indices of a list (R260). -/
def invalidOf (r : TableRec) (is : List Nat) : Nat := (is.filter fun i => decide (r.rows ≤ i ∧ i ≠ 0xFFFFFFFF)).length
def missingOf (is : List Nat) : Nat := (is.filter fun i => decide (i = 0xFFFFFFFF)).length

/-- A ROW_LOOKUP's FINAL at its step's commit: the rows stand as at the boundary before, each tile verified (R43, R259, Table 4.8, Table 13.11). -/
def lookupDone (s : State) (h : Nat) : State :=
  match reqOf s h with
  | none => s
  | some q =>
    if q.cancel then finishPlain s h .cancelled 0
    else
      let t := q.desc.argA.toNat % 64
      match tableOf s t with
      | none => finishPlain s h .programMismatch 0
      | some r =>
        let is := lookupIndices q
        match verifyTiles s (is.flatMap fun i => rowTiles s t r (rowFor r i)).dedup with
        | (s, false) => finishPlain s h .mediaError 0
        | (s, true) =>
        let vs := lookupRows s t r q
        let b := rowsBytes (bit q.desc.opflags.toNat 0) vs
        let s := is.foldl (fun s i => countRow t s (rowFor r i)) s
        let s := setTable s t fun r => { r with cntInvalid := r.cntInvalid + invalidOf r is, cntMissing := r.cntMissing + missingOf is }
        finish s h (okStatus q.flags) (finalBody q vs.length b.length .none 0 (w32 (invalidOf r is + missingOf is))) [(q.desc.resultAddr, b)]

/-! ## Row images (R264, R265) -/

/-- A row's image written to its slot, and to the new slot in DUAL, each quantised to its width; the old bytes are kept for request h (R265,
R373). -/
def writeImage (s : State) (t : Nat) (row : Nat) (v : List Word) (h : Option Nat) : State :=
  match tableOf s t with
  | none => s
  | some r =>
    let e := rowEntry s r row
    let put := fun (s : State) (w n : Nat) =>
      let a := slotAddr r w n
      let b := pad (slotBytes r.cols w) (quantiseRow w v)
      let s := match h with
        | some h => setTable s t fun r => { r with undo := (h, a, devRead s a b.length) :: r.undo }
        | none => s
      let s := devPatch s a b
      if w = 2 then hotCopy s t (n / max 1 (slotsPerTile r.cols 2)) else s
    let s := put s (entWidth e) (entSlot e)
    if entDual e then put s (entNewWidth e) (entNewSlot e) else s

/-- A row map entry written; a fill writes the new slot from the old one, a switch leaves the old slot (R263). -/
def writeEntry (s : State) (t : Nat) (x : Nat × Nat) : State :=
  match tableOf s t with
  | none => s
  | some r =>
    let old := rowEntry s r x.1
    let s := if entDual x.2 && !entDual old then
        let v := rowValue s t r x.1
        let s := devPatch s (slotAddr r (entNewWidth x.2) (entNewSlot x.2)) (pad (slotBytes r.cols (entNewWidth x.2)) (quantiseRow (entNewWidth x.2) v))
        if entNewWidth x.2 = 2 then hotCopy s t (entNewSlot x.2 / max 1 (slotsPerTile r.cols 2)) else s
      else s
    devPatch s (r.mapBase + 8 * x.1) (toLE 8 x.2)

/-! ## Updates (R264 to R267) -/

/-- An update item: row, ADD, values. -/
def updateItem (c : Nat) (param : Bytes) (k : Nat) : Nat × Bool × List Word :=
  let o := k * (8 + 4 * c)
  (rd param o 4, rd param (o + 4) 1 = 1, (List.range c).map fun j => w32 (rd param (o + 8 + 4 * j) 4))

/-- apply(r, items) (R264). -/
def applyItems (v : List Word) (items : List (Nat × Bool × List Word)) : List Word :=
  items.foldl (fun v x => if x.2.1 then (v.zip x.2.2).map (fun p => fadd p.1 p.2) else x.2.2) v

/-- Row images of a batch, rows in order of first item (R264). -/
def updateImages (s : State) (t : Nat) (r : TableRec) (items : List (Nat × Bool × List Word)) : List (Nat × List Word) :=
  ((items.map (·.1)).foldl (fun a x => withLast x a) []).map fun row =>
    (row, applyItems (rowValue s t r row) (items.filter fun x => decide (x.1 = row)))

/-- The FINAL of a ROW_UPDATE (Table 13.11). -/
def updateFinal (s : State) (h : Nat) (st : Status) (repeated : Bool) : State :=
  match reqOf s h with
  | none => s
  | some q => finish s h st (finalBody q (if st = .ok && !repeated then q.outCount else 0) 0 .none 0
      (w32 (q.skippedEdges % 2 ^ 31 + 2 ^ 31 * b2n repeated))) []

/-- The row slots that request h wrote go back to what they held (R373). -/
def undoRows (s : State) (t h : Nat) : State :=
  match tableOf s t with
  | none => s
  | some r =>
    let mine := r.undo.filter fun u => decide (u.1 = h)
    let s := mine.foldl (fun s u => devPatch s u.2.1 u.2.2) s
    let s := setTable s t fun r => { r with undo := r.undo.filter fun u => decide (u.1 ≠ h) }
    let lo := r.hotBase / 16384
    mine.foldl (fun s u => let n := u.2.1 / 16384
      if lo ≤ n ∧ n < lo + r.hotTiles then hotCopy s t (n - lo) else s) s

/-- The batch of request h is applied for good: UPDATE_SEQ advances, and FINAL follows (Table 11.4 orders 5 and 6). -/
def updateOk (s : State) (t h : Nat) : State :=
  updateFinal (setTable s t fun r => { r with updateSeq := r.updateSeq + 1, undo := r.undo.filter fun u => decide (u.1 ≠ h) }) h .ok false

/-- The batch of request h is taken back, and the BATCH_ID before it stands again (R266, R373, R380). -/
def updateFails (s : State) (t h : Nat) (st : Status) : State :=
  let s := undoRows s t h
  let s := match reqOf s h with
    | some q => setTable s t fun r => { r with 
        lastBatch := if mfind r.lastBatch q.fn.toNat ≠ some q.desc.argC then r.lastBatch
          else match q.batchBefore with
            | some b => mins r.lastBatch q.fn.toNat b
            | none => mdel r.lastBatch q.fn.toNat }
    | none => s
  finishPlain s h st 0

/-- A ROW_UPDATE at its step's boundary, after COMMIT_NOTICE, its rows read from verified tiles (R43, R264 to R267, R380); lost says that the lease swap of a solo commit fails. -/
def updateCommit (lost : List Tenant) (s : State) (h : Nat) : State :=
  match reqOf s h with
  | none => s
  | some q =>
    let t := q.desc.argA.toNat % 64
    match tableOf s t with
    | none => finishPlain s h .programMismatch 0
    | some r =>
      let id := q.desc.argC
      if id ≠ 0 && mfind r.lastBatch q.fn.toNat = some id then updateFinal s h .ok true
      else
        let all := (List.range (itemCount q)).map (updateItem r.cols q.param)
        let items := all.filter fun x => decide (x.1 < r.rows)
        match mutRole s r.tenant (some r.ownerPos) with
        | .noResources => finishPlain s h .noResources 0
        | .redirect => finishPlain s h .redirectPartner 0
        | .forward => forwardMut s h
        | .replayWait => waitReplay s h
        | role =>
          match verifyTiles s (items.flatMap fun x => rowTiles s t r x.1).dedup with
          | (s, false) => finishPlain s h .mediaError 0
          | (s, true) =>
          let images := updateImages s t r items
          let s := setTable s t fun r => { r with
            cntInvalid := r.cntInvalid + invalidOf r (all.map (·.1)), cntMissing := r.cntMissing + missingOf (all.map (·.1))
            lastBatch := if id = 0 then r.lastBatch else mins r.lastBatch q.fn.toNat id }
          let s := modReq s h fun q => { q with
            outCount := items.length, skippedEdges := all.length - items.length, phase := .mutation, batchBefore := mfind r.lastBatch q.fn.toNat }
          let waiting := (r.undo.map (·.1)).foldl (fun a x => withLast x a) []
          let m : MsgHdr := { type := 0x11, tenant := r.tenant, object := BitVec.ofNat 16 t
                              epoch := BitVec.ofNat 32 (r.updateSeq + waiting.length + 1) }
          let go := fun (s : State) => images.foldl (fun s x => writeImage s t x.1 x.2 (some h)) s
          if role = .mirrored then journalObject (go s) m (.rows images []) (some h)
          else if role = .solo then
            let ok := decide (r.tenant ∉ lost)
            let s := swapLease s r.tenant ok fun l => { l with solo := true }
            if ok then updateOk (journalObject (go s) m (.rows images []) none) t h else updateFails s t h .redirectPartner
          else updateOk (go s) t h

/-- The partner has answered for the row batch of request h, or it commits alone (R374). -/
def updateAnswered (s : State) (h : Nat) (st : Status) : State :=
  match reqOf s h with
  | none => s
  | some q =>
    let t := q.desc.argA.toNat % 64
    if st = .ok then updateOk s t h else updateFails s t h st

/-- A mirrored batch is written at the boundary and acknowledged (Table 11.4 order 4, R374). -/
def writeMirrored (t : Nat) (s : State) (b : MirrorBatch) : State :=
  let s := b.images.foldl (fun s x => writeImage s t x.1 x.2 none) s
  let s := b.maps.foldl (fun s x => writeEntry s t (x.1, x.2.toNat)) s
  let tn := ((tableOf s t).map (·.tenant)).getD 0
  let s := setTable s t fun r => { r with updateSeq := max r.updateSeq b.seq }
  sendMsg s { type := 0x14, tenant := tn, ref := BitVec.ofNat 64 b.jseq } .none

/-- The mirrored batches of the tables that partition p reads. -/
def writeAllMirrored (s : State) (p : PartId) : State :=
  (s.gen.tables.filter fun t => decide (t.2.part = p)).foldl (fun s t =>
    t.2.mirrorIn.foldl (writeMirrored t.1) (setTable s t.1 fun r => { r with mirrorIn := [] })) s

/-! ## Migration (R262, R263) -/

/-- The module is the owner of the table now (R267, R379). -/
def ownsTable (s : State) (r : TableRec) : Bool :=
  match mutRole s r.tenant (some r.ownerPos) with
  | .alone => true
  | .mirrored => true
  | .solo => true
  | _ => false

/-- Access counters as they stand: one byte a row. -/
def rowCount (s : State) (r : TableRec) (row : Nat) : Nat := devNum s (r.countBase + row) 1

/-- Rows by counter, higher first, equal counts by row index (R262). -/
def rankRows (s : State) (r : TableRec) : List Nat :=
  (List.range 256).reverse.flatMap fun c => (List.range r.rows).filter fun i => decide (rowCount s r i = c)

/-- The widths of a rebuild: rows ranked, each with its width (R262). -/
def newWidths (s : State) (r : TableRec) : List (Nat × Nat) :=
  let l := rankRows s r
  let hot := min l.length (r.hotTiles * slotsPerTile r.cols 2)
  let warm := (l.length - hot) * r.warmPermille / 1000
  ((l.take hot).map fun i => (i, 2)) ++ (((l.drop hot).take warm).map fun i => (i, 1)) ++ ((l.drop (hot + warm)).map fun i => (i, 0))

/-- Every counter halved, a tile at a time (R262). -/
def halveCounters (s : State) (r : TableRec) : State :=
  (List.range ((r.rows + 16383) / 16384)).foldl (fun s k =>
    let a := r.countBase + 16384 * k
    let n := min 16384 (r.rows - 16384 * k)
    devPatch s a ((devRead s a n).map fun (b : Byte) => BitVec.ofNat 8 (b.toNat / 2))) s

/-- TABLE_REFRESH (R262): the widths are rebuilt once REFRESH has passed; a batch that has not switched makes it skip. -/
def tableRefresh (s : State) (t : Nat) : State :=
  match tableOf s t with
  | none => s
  | some r =>
    if !ownsTable s r || decide (since r.refreshedAt (now s) < (partOf s r.part).refreshUsed.toNat * 1000000) then s
    else
      let s := setTable s t fun r => { r with refreshedAt := now s }
      if r.batch.isSome then setTable s t fun r => { r with skippedRebuilds := r.skippedRebuilds + 1 }
      else
        let ch := (newWidths s r).filter fun x => decide (entWidth (rowEntry s r x.1) ≠ x.2)
        let go := ch.filter fun x => !entDual (rowEntry s r x.1)
        let s := halveCounters s r
        setTable s t fun r => { r with
          leftOut := r.leftOut + (ch.length - go.length)
          batch := if go = [] then none else some { toFill := go.map fun x => (x.1, BitVec.ofNat 2 x.2) } }

def execTableRefresh (t : BitVec 6) (s : State) : Out := .next (tableRefresh s t.toNat)

/-- Slots of a width in use, old or new (R263). -/
def usedSlots (s : State) (r : TableRec) (w : Nat) : List Nat :=
  (List.range r.rows).flatMap fun i =>
    let e := rowEntry s r i
    (if entWidth e = w then [entSlot e] else []) ++ (if entDual e && entNewWidth e = w then [entNewSlot e] else [])

/-- The row-map change of one fill (R263): the lowest slot of the region that is not in use. -/
def fillEntry (s : State) (r : TableRec) (row w : Nat) : Option Nat :=
  let used := usedSlots s r w
  ((List.range (regionSlots r w)).find? fun n => decide (n ∉ used)).map fun n => dualEntry (rowEntry s r row) w n

/-- Row-map changes of the owner go to the partner, or into its journal (R267, R373, R380). Whether they stand: a solo commit needs its swap. -/
def mirrorMaps (s : State) (t : Nat) (r : TableRec) (ok : Bool) (maps : List (Nat × Nat)) : State :=
  let m : MsgHdr := { type := 0x11, tenant := r.tenant, object := BitVec.ofNat 16 t, epoch := BitVec.ofNat 32 r.updateSeq }
  let body := MsgBody.rows [] (maps.map fun x => (x.1, BitVec.ofNat 64 x.2))
  match mutRole s r.tenant (some r.ownerPos) with
  | .mirrored => journalObject s m body none
  | .solo => journalObject (swapLease s r.tenant ok fun l => { l with solo := true }) m body none
  | _ => s

/-- One row of a batch filled; a row for which its region has no slot is left out. -/
def fillRow (t : Nat) (acc : State × List (Nat × Nat)) (x : Nat × BitVec 2) : State × List (Nat × Nat) :=
  match tableOf acc.1 t with
  | none => acc
  | some r => match fillEntry acc.1 r x.1 x.2.toNat with
    | none => (setTable acc.1 t fun r => { r with leftOut := r.leftOut + 1 }, acc.2)
    | some e => (writeEntry acc.1 t (x.1, e), acc.2 ++ [(x.1, e)])

/-- The switch of a batch (R263): every row STABLE in its new slot; hot copies of freed hot tiles go after the next commit. -/
def switchBatch (s : State) (t : Nat) (r : TableRec) (b : MigBatch) (ok : Bool) : State :=
  let maps := b.filled.map fun i => let e := rowEntry s r i; (i, stableEntry (entNewWidth e) (entNewSlot e))
  let s := maps.foldl (fun s x => writeEntry s t x) s
  let s := setTable s t fun r => { r with batch := none, updateSeq := r.updateSeq + 1 }
  let s := mirrorMaps s t { r with updateSeq := r.updateSeq + 1 } ok maps
  let used := usedSlots s r 2
  let per := max 1 (slotsPerTile r.cols 2)
  let gone := (List.range r.hotTiles).filter fun k => !(used.any fun n => decide (n / per = k))
  let q := partOf s r.part
  let old := gone.filterMap fun k => mfind q.hotDir (hotKey t k)
  setPart s r.part fun q => { q with hotOld := q.hotOld ++ old, hotDir := gone.foldl (fun d k => mdel d (hotKey t k)) q.hotDir }

/-- The migration work of one table at a boundary (R263): at most 256 fills; the switch follows the last fill. A solo owner whose swap fails
gives its batch up (R380). -/
def migrateTable (lost : List Tenant) (s : State) (t : Nat) : State :=
  match tableOf s t with
  | none => s
  | some r => match r.batch with
    | none => s
    | some b =>
      if !ownsTable s r then s
      else
        let ok := decide (r.tenant ∉ lost)
        if mutRole s r.tenant (some r.ownerPos) = .solo && !ok then
          let s := b.filled.foldl (fun s i => let e := rowEntry s r i
            writeEntry s t (i, stableEntry (entWidth e) (entSlot e))) s
          loseLease (setTable s t fun r => { r with batch := none }) r.tenant 0
        else if b.toFill = [] then switchBatch s t r b ok
        else
          let (s, maps) := (b.toFill.take 256).foldl (fillRow t) (s, [])
          let s := setTable s t fun r => { r with batch := some { toFill := b.toFill.drop 256, filled := b.filled ++ maps.map (·.1) } }
          mirrorMaps s t r ok maps

/-- Migration work of the tables that partition p reads. -/
def migrateTables (lost : List Tenant) (s : State) (p : PartId) : State :=
  (s.gen.tables.filter fun t => decide (t.2.part = p)).foldl (fun s t => migrateTable lost s t.1) s

/-- Hot copies whose hot tiles were freed are FREEd after the commit (R263); one that a step still holds stays on the list (R52). -/
def freeHotOld (s : State) (p : PartId) : State :=
  let old := (partOf s p).hotOld
  old.foldl (dropHot p) (setPart s p fun q => { q with hotOld := [] })

end Sys2Proof.Machine
end

