-- ==== Sys2Proof/Machine/Sampler.lean ====
section
/-! DEFINITION. Chapter 09: KV pages, decode attention, speculation and the sampler; check records (R214 to R227, R345). -/

namespace Sys2Proof.Machine

/-! ## Mappings and pages (R214, R215, R476) -/

/-- The mapping in use. -/
def mappingOf (q : Partition) : Mapping := ((q.prog.map (·.maps)).getD []).getD q.mapping {}
/-- Engines of a mapping. -/
def mappingEngines (m : Mapping) : List Engine := (List.finRange 48).filter fun e => m.engines.getLsbD e.val
/-- The lead engine of a partition: the lowest engine of its mapping (the manual names no other). -/
def leadEngine (q : Partition) : Engine := ((mappingEngines (mappingOf q)).head?).getD 0

/-- The greatest power of two that is at most n. -/
def pow2Floor (n : Nat) : Nat := if n = 0 then 0 else 2 ^ Nat.log2 n
/-- PAGE_TOKENS (R214). -/
def pageTokens (heads dim : Nat) : Nat := pow2Floor (16384 / max 1 (2 * heads * dim))
/-- Bytes of one position of a page (R214). -/
def posBytes (heads dim : Nat) : Nat := 2 * heads * dim

/-- Positions a sequence reserves (R212 order 4). -/
def kvPositions (prompt maxTokens depth : Nat) : Nat := prompt + maxTokens + depth + 1

/-- Pages of one layer. -/
def layerPages (heads dim positions : Nat) : Nat := (positions + pageTokens heads dim - 1) / max 1 (pageTokens heads dim)

/-- Subchannels of the pages of slot sl, layer by layer, page by page: the target's, then the draft's (R215). -/
def pageSubs (g : Program) (sl positions : Nat) : List Nat :=
  let table := fun (layers heads dim : Nat) => (List.range layers).flatMap fun l =>
    (List.range (layerPages heads dim positions)).map fun b => (sl + l * g.kvStripe + b % max 1 g.kvStripe) % 256
  table g.sec.layers g.sec.kvHeads g.sec.headDim
    ++ (if g.specMax = 0 then [] else table g.sec.draftLayers g.sec.draftKvHeads g.sec.draftHeadDim)

/-- Place of a page in a slot's page list. -/
def pageIndex (g : Program) (positions : Nat) (draft : Bool) (layer page : Nat) : Nat :=
  if draft then g.sec.layers * layerPages g.sec.kvHeads g.sec.headDim positions
      + layer * layerPages g.sec.draftKvHeads g.sec.draftHeadDim positions + page
  else layer * layerPages g.sec.kvHeads g.sec.headDim positions + page

def slotPositions (sl : SlotRec) : Nat := kvPositions sl.promptLen sl.maxTokens sl.specDepth

/-! ## The step's share of the slots (R112, R223, R226, R231) -/

/-- The slot holds a sequence that the step runs: one that R112 has removed is left out (R231). -/
def takesPart (sl : SlotRec) : Bool := (sl.state = .decode || sl.state = .prefill) && !sl.removed

/-- The slot takes part in the step. -/
def inStep (q : Partition) (sl : SlotRec) : Bool := q.step.running && takesPart sl

/-- A fault of the step that no engine's own check finds goes into the lead engine's record (R344). -/
def stepFault (s : State) (p : PartId) (mech : BitVec 8) (loc : BitVec 16) : State := noteFault s (leadEngine (partOf s p)) (mech, loc)

/-! ## Page tables (R215) -/

/-- Tiles that hold a page table of n numbers. -/
def tableTiles (n : Nat) : Nat := (4 * n + 16383) / 16384

/-- Tiles for the page tables of one slot: the target's and the draft's, each for MAX_CONTEXT positions. -/
def slotTables (g : Program) : Nat :=
  tableTiles (g.sec.layers * layerPages g.sec.kvHeads g.sec.headDim g.maxContext)
    + (if g.specMax = 0 then 0 else tableTiles (g.sec.draftLayers * layerPages g.sec.draftKvHeads g.sec.draftHeadDim g.maxContext))

/-- First L tile of slot n's page tables: they lie at the end of the share's extents outside the KV pool; none where these have no room
(DESIGN CHOICE, log entry 148). -/
def tablePlace (q : Partition) (g : Program) (n : Nat) : Option Nat :=
  let rest := q.lShare.drop (2 * g.kvPairs)
  let k := 128 / max 1 (slotTables g)
  if k = 0 ∨ rest.length ≤ n / k then none else (rest[rest.length - 1 - n / k]?).map fun x => 128 * x + slotTables g * (n % k)

/-- A page table as tiles of 4-byte L tile numbers. -/
def tableImage (tn : Tenant) (l : List (Nat × Nat)) : List Tile :=
  let b := l.flatMap fun x => toLE 4 x.2
  (List.range (tableTiles l.length)).map fun i =>
    let c := slice b (16384 * i) 16384
    Tile.sealed { hdr := { tenant := tn, cls := 2, format := 0x10, rows := BitVec.ofNat 16 (min 4096 (l.length - 4096 * i)), cols := 4 }, payload := pad 16384 c }

/-- The page tables of slot n, written at its admission: the target's first (R215). PAGES names the first tile; where the share has no room for
them it is a free value (log entry 148). -/
def writeTables (s : State) (p : PartId) (g : Program) (n : Nat) (tn : Tenant) (pages : List (Nat × Nat)) (positions : Nat) : BitVec 32 × State :=
  match tablePlace (partOf s p) g n with
  | none => let (v, s) := drawFree s; (v.setWidth 32, s)
  | some t =>
    let k := g.sec.layers * layerPages g.sec.kvHeads g.sec.headDim positions
    let tiles := tableImage tn (pages.take k) ++ tableImage tn (pages.drop k)
    (BitVec.ofNat 32 t, ((List.range tiles.length).zip tiles).foldl (fun s x => putL s (t + x.1) x.2 false) s)

/-! ## Pages in tier L (R43, R70, R215 to R217) -/

/-- The request of the step for KV pages: it names tenant 0, the tenant of the pool's extents; the tile's header carries the slot's (R338). -/
def pageReq (q : Partition) (p : PartId) : TierReq := { die := BitVec.ofNat 6 ((leadEngine q).val / 2), part := p.setWidth 6 }

/-- A page that cannot be had ends its slot's request (R217, R337, Table 4.8). -/
def losePage (s : State) (p : PartId) (sl : SlotRec) (st : TierStatus) : State :=
  match tierFailure st with
  | some f => setStep s p fun x => { x with refused := x.refused ++ [(sl.request, f)] }
  | none => s

/-- A write of the page that waits at its channel unit (R70). -/
def pageWrite (s : State) (x n : Nat) : Option PendWrite := s.tier.waiting.find? fun w => decide (w.x = x ∧ w.t = BitVec.ofNat 7 n)

/-- The page in L tile n as its reader finds it, with its extent and entry: what a waiting write holds, else the tile of tier L, its CRC verified
(R43, R79). A page that is lost, or whose CRC fails, is none. -/
def readPage (s : State) (p : PartId) (sl : SlotRec) (n : Nat) (f : BurstFault) : State × Option (Nat × ExtentEntry × Tile) :=
  let q := partOf s p
  let x := (mfind q.pool (n / 128)).getD 0
  match (if (mfind q.pool (n / 128)).isSome then entryOf s x else none) with
  | none => (losePage (tierEvent s (pageReq q p) x none .translation) p sl .translation, none)
  | some e =>
    match pageWrite s x n with
    | some w => (s, some (x, e, w.tile))
    | none =>
      match readEntry s x e (BitVec.ofNat 7 n) f with
      | (s, .ok, some t) => if t.good then (s, some (x, e, t)) else (losePage (stepFault s p 0x04 0xFFFF) p sl .media, none)
      | (s, st, _) => (losePage s p sl st, none)

/-- The first position whose KV is not committed: rewritten bytes below it stay (R216). -/
def kvCommitted (sl : SlotRec) (draft : Bool) : Nat := if sl.state = .prefill then sl.done else if draft then sl.dlen else sl.len - 1

/-- Shape of a page of a slot's list: KV heads, head size, and the page's number within its layer. -/
def pageShape (g : Program) (sl : SlotRec) (page : Nat) : Bool × Nat × Nat × Nat :=
  let perT := layerPages g.sec.kvHeads g.sec.headDim (slotPositions sl)
  if g.sec.layers * perT ≤ page then
    (true, g.sec.draftKvHeads, g.sec.draftHeadDim,
      (page - g.sec.layers * perT) % max 1 (layerPages g.sec.draftKvHeads g.sec.draftHeadDim (slotPositions sl)))
  else (false, g.sec.kvHeads, g.sec.headDim, page % max 1 perT)

/-- The page with the new rows placed: rows of committed positions stay as they are (R216). -/
def placeRows (sl : SlotRec) (draft : Bool) (h d b : Nat) (old : Tile) (rows : List (Nat × Bytes)) : Tile :=
  let w := posBytes h d
  let new := rows.foldl (fun pl r =>
    if r.1 < pageTokens h d ∧ kvCommitted sl draft ≤ b * pageTokens h d + r.1 then splice pl (r.1 * w) (pad w r.2) else pl) (pad 16384 old.payload)
  Tile.sealed { hdr := { old.hdr with tenant := sl.tenant, cls := 2, format := 0x04, rows := BitVec.ofNat 16 (pageTokens h d)
                                      cols := BitVec.ofNat 16 (min w 16384) }, payload := new }

/-- KV_PAGE_WRITE (R43, R70, R216, R217, R338): the whole page read and verified, new positions placed, the CRC computed, the page written back in
place. -/
def kvPageWrite (s : State) (p : PartId) (slot page : Nat) (rows : PageRows) : State :=
  let q := partOf s p
  let sl := slotRec s p slot
  match q.prog, sl.pageList[page]? with
  | some g, some (_, n) =>
    if !inStep q sl then s
    else match readPage s p sl n rows.upsets with
      | (s, none) => s
      | (s, some (x, e, t)) =>
        let (draft, h, d, b) := pageShape g sl page
        let w : PendWrite := { rq := pageReq q p, x := x, t := BitVec.ofNat 7 n, tile := placeRows sl draft h d b t rows.rows }
        let s := { s with tier := { s.tier with waiting := s.tier.waiting.filter fun y => !decide (y.x = x ∧ y.t = BitVec.ofNat 7 n) } }
        setStep (tierWriteGo s w e) p fun st => { st with kvWritten := st.kvWritten ++ rows.rows.map fun r => (slot, page, r.1) }
  | _, _ => s

def execKvPageWrite (p : PartId) (slot page : Nat) (rows : PageRows) (s : State) : Out := .next (kvPageWrite s p slot page rows)

/-! ## Decode attention (R218, R219) -/

/-- FP32 value of a BF16 rounding (R134). -/
def roundBf (w : Word) : Word := fpOf (fmtBf16.decode (convert 0x02 0 (fpVal w) false)) false

/-- page_partial(q, b, j): K and V rows of the page's valid positions i ≤ j (R218). -/
def pagePartial (a : AttentionOp) (dim : Nat) (ks vs : List Bytes) : Option Partial3 :=
  if ks = [] then none
  else
    let q8 := a.query.map fun w => fmtE4m3.decode (convert 0x04 0 (fpVal w) false)
    let el := fun (b : Bytes) => b.map fun x => fmtE4m3.decode x.toNat
    let ss := ks.map fun k => fmul (fpOf ((accumulate a.anchor {} q8 (el k)).val a.anchor) false) a.scale
    let m := match ss with
      | [] => fpNegInf
      | x :: xs => xs.foldl fmax x
    let ws := ss.map fun x => roundBf (fexp (fsub x m))
    let cols := (List.range dim).map fun d => vs.map fun v => fmtE4m3.decode (v.getD d 0).toNat
    some { m := m, l := sumTree ws
           o := cols.map fun c => fpOf ((accumulate a.vAnchor {} (ws.map fpVal) c).val a.vAnchor) false }

/-- combine(a, b) (R218). -/
def combinePartials (a b : Partial3) : Partial3 :=
  let m := fmax a.m b.m
  let x := fexp (fsub a.m m)
  let y := fexp (fsub b.m m)
  { m := m, l := ffma a.l x (fmul b.l y), o := (a.o.zip b.o).map fun p => ffma p.1 x (fmul p.2 y) }

/-- combine over a list that skips the empty ones (R218). -/
def joinPartials : Option Partial3 → Option Partial3 → Option Partial3
  | some a, some b => some (combinePartials a b)
  | some a, none => some a
  | none, b => b

/-- The lead engine's row: the stripe partials in ascending r, then out[d] = rne(o[d] × recip(l)) (R218). -/
def attentionRow (ps : List (Option Partial3)) : Option (List Word) :=
  (ps.foldl joinPartials none).map fun x => x.o.map fun w => fmul w (frecip x.l)

/-- The last page that stripe member r holds, of the pages 0 to n (R218). -/
def stripeLast (w n r : Nat) : Option Nat := if n < r then none else some (n - (n - r) % w)

/-- The stripe partial of member r of a row. -/
def stripeOf (ps : List StripePartial) (slot row r : Nat) : Option StripePartial :=
  ps.find? fun x => decide (x.slot = slot ∧ x.row = row ∧ x.member = r)

/-- Every stripe partial of a row over pages 0 to n is complete. -/
def rowComplete (ps : List StripePartial) (slot row w n : Nat) : Bool :=
  (List.range w).all fun r => (stripeLast w n r).all fun b => (stripeOf ps slot row r).any fun x => decide (x.lastPage = b)

/-- The 520 bytes of a stripe partial's record: m, l, o[0] to o[127] (R219); a shorter row leaves the rest zero. -/
def Partial3.bytes (x : Partial3) : Bytes := toLE 4 x.m.toNat ++ toLE 4 x.l.toNat ++ pad 512 (x.o.flatMap fun w => toLE 4 w.toNat)

/-- A RECORD tile of the step for the partition (R219, R226). -/
def recordTile (p : PartId) (epoch prod : Epoch) (out : Bool) (cols : Nat) (rs : List Bytes) : Tile :=
  Tile.sealed { hdr := { owner := p.setWidth 6, cls := 2, epoch := epoch, prod := prod, out := out, format := 0x10
                         rows := BitVec.ofNat 16 rs.length, cols := BitVec.ofNat 16 cols }
                payload := pad 16384 rs.flatten }

/-- The channel unit of a subchannel sends the records it holds as one RECORD tile to the store, where the program's allocation places it (R219,
R320; which records share a tile: DESIGN CHOICE, log entry 149). -/
def sendRecords (s : State) (p : PartId) (sub : Nat) : State :=
  let q := partOf s p
  match q.step.recordsDue.filter fun x => decide (x.sub = sub), q.prog with
  | [], _ => s
  | _, none => s
  | l, some g =>
    let t := recordTile p q.step.epoch q.step.epoch true 520 (l.filterMap fun x => x.val.map Partial3.bytes)
    let s := setStep s p fun st => { st with
      recordsDue := st.recordsDue.filter fun x => !decide (x.sub = sub), recordTiles := st.recordTiles + 1 }
    writeTile s (channelDie sub) (BitVec.ofNat 17 (q.storeBase + g.sec.recordBase + q.step.recordTiles)) t false

/-- A stripe partial after its page: complete, its record is to travel; 31 records fill a tile; and the lead engine forms the row from its
complete partials (R218, R219). -/
def finishStripe (s : State) (p : PartId) (w n : Nat) (y : StripePartial) : State :=
  if stripeLast w n y.member ≠ some y.lastPage then s
  else
    let s := if y.val.isSome then setStep s p fun st => { st with recordsDue := st.recordsDue ++ [y] } else s
    let s := if 31 ≤ ((partOf s p).step.recordsDue.filter fun x => decide (x.sub = y.sub)).length then sendRecords s p y.sub else s
    let ps := (partOf s p).step.partials
    if !rowComplete ps y.slot y.row w n then s
    else
      let mine := (List.range w).map fun r => stripeOf ps y.slot y.row r
      let s := mine.foldl (fun s x => match x with
        | some x => sendRecords s p x.sub
        | none => s) s
      match attentionRow (mine.map fun x => x.bind (·.val)) with
      | some o => setStep s p fun st => { st with attnRows := st.attnRows ++ [{ slot := y.slot, row := y.row, out := o }] }
      | none => s

/-- The page cannot be read now: its subchannel retrains (R82), its channel unit takes no new work (R32), or a write of it still waits (R216). -/
def pageWaits (s : State) (q : Partition) (n : Nat) : Bool :=
  (mfind q.pool (n / 128)).any fun x => (pageWrite s x n).isSome || (entryOf s x).any fun e =>
    let l := place e (BitVec.ofNat 7 n)
    retrains s l || (l.1 = 2 && notTaking s (channelBlock l.2))

/-- Positions of a page whose KV is valid, or was written by this step, up to position pos (R218). -/
def validRows (q : Partition) (sl : SlotRec) (draft : Bool) (slot place b pt pos : Nat) : List Nat :=
  (List.range (min pt (pos + 1 - b * pt))).filter fun i =>
    decide (b * pt + i < kvCommitted sl draft) || decide ((slot, place, i) ∈ q.step.kvWritten)

/-- The page is the next of its stripe member: pages are combined in ascending order (R218). -/
def nextPage (old : Option StripePartial) (w page : Nat) : Bool :=
  match old with
  | none => decide (page < w)
  | some x => decide (page = x.lastPage + w)

/-- ATTENTION_PAGE_PARTIAL (R43, R217 to R219): the channel unit verifies the page's CRC, forms its partial, and combines it into the stripe
partial of its member, pages in ascending order. -/
def attentionPage (s : State) (a : AttentionOp) : State :=
  let q := partOf s a.part
  let sl := slotRec s a.part a.slot
  match q.prog with
  | none => s
  | some g =>
    let (h, d) := if a.draft then (g.sec.draftKvHeads, g.sec.draftHeadDim) else (g.sec.kvHeads, g.sec.headDim)
    let place := pageIndex g (slotPositions sl) a.draft a.layer a.page
    match sl.pageList[place]? with
    | none => s
    | some (sub, n) =>
      let pt := pageTokens h d
      let w := max 1 g.kvStripe
      let old := stripeOf q.step.partials a.slot a.row (a.page % w)
      if !inStep q sl || h ≤ a.head || a.pos < a.page * pt || !nextPage old w a.page || pageWaits s q n then s
      else match readPage s a.part sl n a.upsets with
        | (s, none) => s
        | (s, some (_, _, t)) =>
          let row := fun (i off : Nat) => slice t.payload (i * posBytes h d + off) d
          let own := validRows q sl a.draft a.slot place a.page pt a.pos
          let ks := own.map fun i => row i (a.head * d)
          let vs := own.map fun i => row i (h * d + a.head * d)
          let s := if a.fault then stepFault s a.part 0x0F (BitVec.ofNat 16 sub) else s
          let y : StripePartial := { slot := a.slot, row := a.row, member := a.page % w, sub := sub, lastPage := a.page
                                     val := joinPartials (old.bind (·.val)) (pagePartial a d ks vs) }
          let s := setStep s a.part fun st => { st with
            partials := (st.partials.filter fun z => !decide (z.slot = a.slot ∧ z.row = a.row ∧ z.member = a.page % w)) ++ [y] }
          finishStripe s a.part w (a.pos / pt) y

def execAttentionPagePartial (a : AttentionOp) (s : State) : Out := .next (attentionPage s a)

/-! ## The sampler (R224 to R227) -/

/-- What orders 1 to 8 of Table 9.3 leave of a position's logits. -/
structure Dist where
  /-- the grammar allows some token (order 1) -/
  allowed : Bool := true
  /-- logits of allowed tokens that order 2 made NaN -/
  nan : Nat := 0
  /-- the kept set in rank order with its exact terms -/
  kept : Kept := []
  approx : Bool := false
deriving DecidableEq, Repr

/-- Places of an interval list as one flag a token: tokens that the grammar state allows (R254). -/
def allowedBy (is : List Nat) (tok : Nat) : Bool := (intervalFor is tok).isSome

/-- Order 4: penalties of a token that occurs n times in the window. -/
def penalise (b : TurnBlock) (z : Word) (n : Nat) : Word :=
  if n = 0 then z
  else
    let z := if flt 0 z then fmul z (frecip b.rep) else fmul z b.rep
    let z := fsub z b.presence
    fsub z (fmul b.frequency (fpOf (valOf n 0 false) false))

/-- The penalty window before a position: the last 1,024 tokens (R224). -/
def penaltyWindow (b : TurnBlock) (sl : SlotRec) (props : List Nat) : List Nat :=
  let l := (if b.penaltyScope then sl.toks else sl.toks.drop sl.promptLen) ++ props
  l.drop (l.length - 1024)

/-- Orders 1 to 4: the logits, with NaN for tokens that are out, and the NaN count. -/
def adjustLogits (b : TurnBlock) (mask : Option (List Nat)) (window : List Nat) (logits : List Word) : List Word × Nat × Bool :=
  let inSet := fun i => match mask with
    | none => true
    | some is => allowedBy is i
  let bad := fun (z : Word) => isNan z || z = 0x7F800000
  let z := ((List.range logits.length).zip logits).map fun x =>
    if !inSet x.1 || bad x.2 then fpNan
    else
      let z := (b.bias.filter fun e => decide (e.1 = x.1)).foldl (fun z e => fadd z e.2) x.2
      penalise b z ((window.filter fun t => decide (t = x.1)).length)
  let nan := (((List.range logits.length).zip logits).filter fun x => inSet x.1 && bad x.2).length
  (z, nan, (List.range logits.length).any inSet)

/-- Logits as selection input: ids are token ids. -/
def tokenEntries (z : List Word) : List SelEntry := ((List.range z.length).zip z).map fun x => { score := x.2, id := BitVec.ofNat 40 x.1 }

/-- An FP32 value in units of 2^−70, rounded down. -/
def units70 (w : Word) : Nat := match fpVal w with
  | .fin false m e => (floorShift m (e + 70)).toNat
  | _ => 0

/-- TOP_P × total, rounded up. -/
def topShare (w : Word) (total : Nat) : Nat := match fpVal w with
  | .fin false m e => (-(floorShift (-((m * total : Nat) : Int)) e)).toNat
  | _ => 0

/-- The shortest prefix whose terms sum to at least need; all when none does. -/
def prefixTo (need : Nat) : Nat → Kept → Kept
  | _, [] => []
  | c, x :: l => if need ≤ c + x.2 then [x] else x :: prefixTo need (c + x.2) l

/-- Selection parameters of order 6. -/
def topkParams (k : Nat) : SelParams := { k := if k = 0 then 1024 else k, ascending := false, mass := true, sumAnchor := -70, ref := fpNan, source := 0 }

/-- Orders 5 to 8 on adjusted logits; greedy keeps the argmax alone. -/
def keepTokens (b : TurnBlock) (z : List Word) : Kept × Bool :=
  if (fpVal b.temperature) = .fin false 0 0 ∨ b.temperature.toNat % 2 ^ 31 = 0 then
    let l := select { k := 1, ascending := false, mass := false, sumAnchor := 0, ref := 0, source := 0 } false (tokenEntries z)
    (l.entries.map fun e => (e.2.1.toNat, 1), false)
  else
    let s := z.map fun w => fmul w (frecip b.temperature)
    let p := topkParams b.topK
    let l := select p true (tokenEntries s)
    let ts := l.entries.map fun e => (e.2.1.toNat, (termOf p (some l.refUsed) e.2.2).fin.toNat)
    let ts := ts.filter fun x => decide (units70 b.minP ≤ x.2)
    (prefixTo (topShare b.topP (l.sumSel + l.sumRest).toNat) 0 ts, l.approx)

/-- Orders 1 to 8 (Table 9.3). -/
def distOf (b : TurnBlock) (mask : Option (List Nat)) (window : List Nat) (logits : List Word) : Dist :=
  let (z, nan, any) := adjustLogits b mask window logits
  if !any then { allowed := false }
  else
    let (k, ap) := keepTokens b z
    { nan := nan, kept := k, approx := ap }

/-- draw(entries, w, U) (R227): the running sum c. -/
def drawFrom (r : Nat) : Nat → Kept → Option Nat
  | _, [] => none
  | c, x :: l => if r < c + x.2 then some x.1 else drawFrom r (c + x.2) l

def keptSum (k : Kept) : Nat := (k.map (·.2)).sum
def drawToken (k : Kept) (u : BitVec 64) : Option Nat := drawFrom (u.toNat * keptSum k / 2 ^ 64) 0 k
/-- The term of a token in a kept set, 0 outside it. -/
def termIn (k : Kept) (t : Nat) : Nat := ((k.find? fun x => decide (x.1 = t)).map (·.2)).getD 0

/-- Greedy sampling (R225). -/
def greedy (b : TurnBlock) : Bool := decide (b.temperature.toNat % 2 ^ 31 = 0)

/-- Draw n of the slot's step, when the port has served it (R226). -/
def drawN (q : Partition) (b : TurnBlock) (sl : SlotRec) (n : Nat) : Option (BitVec 64) :=
  (q.draws.find? fun d => decide (d.1 = (b.seed, sl.seq.setWidth 32, sl.stepNo, BitVec.ofNat 16 n))).map (·.2)

/-- A token of a kept set: the argmax when greedy, else by draw n; none while the draw is not there. -/
def pickToken (q : Partition) (b : TurnBlock) (sl : SlotRec) (k : Kept) (n : Nat) : Option Nat :=
  if greedy b then (k.head?).map (·.1) else (drawN q b sl n).bind (drawToken k)

/-- Proposal d is accepted against p_i with the draft's kept set q_i and draw U_{8+i} (R221). -/
def acceptsProposal (b : TurnBlock) (p qk : Kept) (d : Nat) (u : BitVec 64) : Bool :=
  if greedy b then decide ((p.head?).map (·.1) = some d)
  else decide (u.toNat * termIn qk d * keptSum p < 2 ^ 64 * termIn p d * keptSum qk)

/-- Residual weights over p's kept set in its rank order (R221). -/
def residualKept (p qk : Kept) : Kept := p.map fun x => (x.1, x.2 * keptSum qk - termIn qk x.1 * keptSum p)

/-- Proposals the slot makes in this step (R220, R223). -/
def depthOf (q : Partition) (sl : SlotRec) : Nat := if (mappingOf q).draft then sl.specDepth else 0

/-- The grammar mask at a position that follows the proposals given (R254); none without a grammar. -/
def maskAfter (s : State) (sl : SlotRec) (props : List Nat) : Option (List Nat) :=
  (slotGrammar s sl).map fun g =>
    stateIntervals s g (((statesAfter s g sl.gstate.toNat props).getLast?).getD sl.gstate.toNat)

/-- The slot samples in this step: in DECODE, or with its final prefill chunk (R213). -/
def samples (q : Partition) (sl : SlotRec) : Bool :=
  q.step.running && takesPart sl && !sl.verified && (sl.state = .decode || (sl.state = .prefill && decide (sl.promptLen ≤ sl.done + sl.chunk)))

/-- A draft proposal (R220): it ends where no token is left. -/
def draftToken (s : State) (p : PartId) (slot : Nat) (b : TurnBlock) (logits : List Word) : State :=
  let q := partOf s p
  let sl := slotRec s p slot
  let i := sl.props.length
  if sl.state ≠ .decode || sl.propsEnd || depthOf q sl ≤ i then s
  else
    let props := sl.props.map (·.1)
    let d := distOf b (maskAfter s sl props) (penaltyWindow b sl props) logits
    if d.kept = [] then setSlotRec s p slot fun x => { x with propsEnd := true }
    else match pickToken q b sl d.kept i with
      | none => s
      | some t => setSlotRec s p slot fun x => { x with props := x.props ++ [(t, d.kept)], approx := x.approx || d.approx }

/-- A target distribution (R220, R221): the test of the next proposal, the residual, or the last token. -/
def targetToken (s : State) (p : PartId) (slot : Nat) (b : TurnBlock) (logits : List Word) : State :=
  let q := partOf s p
  let sl := slotRec s p slot
  let a := sl.accepted
  if sl.state = .decode && !sl.propsEnd && decide (sl.props.length < depthOf q sl) then s
  else
    let props := (sl.props.take a).map (·.1)
    let d := distOf b (maskAfter s sl props) (penaltyWindow b sl props) logits
    let done := fun (f : SlotRec → SlotRec) => setSlotRec s p slot fun x => f { x with verified := true, approx := x.approx || d.approx }
    if !d.allowed then done fun x => { x with deadEnd := true }
    else if d.kept = [] then done fun x => { x with allInvalid := true }
    else
      let finalTok := fun (k : Kept) => match pickToken q b sl k 16 with
        | none => s
        | some t => done fun x => { x with final := some t, nanOf := x.nanOf ++ [d.nan] }
      match sl.props[a]? with
      | none => finalTok d.kept
      | some (t, qk) =>
        match (if greedy b then some 0 else drawN q b sl (8 + a)) with
        | none => s
        | some u =>
          if acceptsProposal b d.kept qk t u then
            setSlotRec s p slot fun x => { x with accepted := a + 1, nanOf := x.nanOf ++ [d.nan], approx := x.approx || d.approx }
          else finalTok (if greedy b then d.kept else residualKept d.kept qk)

/-- SAMPLE_TOKEN (R220, R221, R224): the draft's or the target's logits of the slot's next position; a mismatch of the two copies is a fault
of the step. -/
def sampleToken (s : State) (p : PartId) (slot : Nat) (draft : Bool) (logits : List Word) (fault : Bool) : State :=
  let q := partOf s p
  let sl := slotRec s p slot
  match reqOf s sl.request with
  | none => s
  | some r =>
    if !samples q sl then s
    else
      let s := if fault then stepFault s p 0x0A 0xFFFF else s
      if draft then draftToken s p slot r.block logits else targetToken s p slot r.block logits

def execSampleToken (p : PartId) (slot : Nat) (draft : Bool) (logits : List Word) (fault : Bool) (s : State) : Out :=
  .next (sampleToken s p slot draft logits fault)

/-! ## Draws (R226) -/

/-- The 18 bytes of a draw: SEED, SEQ, STEP_NO, n. -/
def drawBytes (k : BitVec 64 × BitVec 32 × BitVec 32 × BitVec 16) : Bytes :=
  toLE 8 k.1.toNat ++ toLE 4 k.2.1.toNat ++ toLE 4 k.2.2.1.toNat ++ toLE 2 k.2.2.2.toNat

/-- A list in runs of k. -/
def runsOf {α : Type} (k : Nat) (l : List α) : List (List α) := (List.range ((l.length + k - 1) / max 1 k)).map fun i => (l.drop (k * i)).take k

/-- Tiles of records written to the store from a tile of the share on. -/
def putRecords (s : State) (src : DieId) (t : Nat) (ts : List Tile) : State :=
  ((List.range ts.length).zip ts).foldl (fun s x => writeTile s src (BitVec.ofNat 17 (t + x.1)) x.2 false) s

/-- First store tile of the partition's draw-request tiles. -/
def drawPlace (q : Partition) : Nat := q.storeBase + ((q.prog.map (·.sec.drawBase)).getD 0)

/-- Draw-request tiles of a step: 18-byte requests in order, 910 to a tile (DESIGN CHOICE, log entry 150). They are held for the step, whose
commit frees them, and a retraction leaves them. -/
def requestTiles (p : PartId) (e : Epoch) (ks : List (BitVec 64 × BitVec 32 × BitVec 32 × BitVec 16)) : List Tile :=
  (runsOf 910 (ks.map drawBytes)).map (recordTile p e (e - 1) false 18)

/-- RECORD tiles of the 8-byte draws in request order, 2,048 to a tile. -/
def drawTiles (p : PartId) (e : Epoch) (us : List (BitVec 64)) : List Tile :=
  (runsOf 2048 (us.map fun u => toLE 8 u.toNat)).map (recordTile p e (e - 1) false 8)

/-- DRAW_PORT_SERVE (R226): the draws asked for, in request order; the RECORD tiles follow the request tiles in the store. -/
def drawServe (s : State) (p : PartId) : State :=
  let q := partOf s p
  let us := q.drawsAsked.map drawOf
  let s := putRecords s 0x3F (drawPlace q + (runsOf 910 q.drawsAsked).length) (drawTiles p (q.committed + 1) us)
  setPart s p fun q => { q with draws := q.draws ++ q.drawsAsked.map fun k => (k, drawOf k), drawsAsked := [] }

def execDrawPortServe (p : PartId) (s : State) : Out := .next (drawServe s p)

/-! ## Masks (R254) -/

/-- First of the three tiles of the mask that slot n asks for behind k proposals (DESIGN CHOICE, log entry 158). -/
def maskPlace (q : Partition) (n k : Nat) : Nat := q.storeBase + ((q.prog.map (·.sec.maskBase)).getD 0) + 27 * n + 3 * k

/-- GRAMMAR_MASK_REQUEST (R237, R254): the state record and its intervals from verified tables, in one to three RECORD tiles of the step; a table
tile that cannot be had ends the slot's request with MEDIA_ERROR (Table 4.8). -/
def maskRequest (s : State) (p : PartId) (slot : Nat) : State :=
  let q := partOf s p
  let sl := slotRec s p slot
  match slotGrammar s sl with
  | none => s
  | some g =>
    match verifyTiles s (grammarTiles g) with
    | (s, false) => setStep s p fun x => { x with refused := x.refused ++ [(sl.request, .mediaError)] }
    | (s, true) =>
      let st := ((statesAfter s g sl.gstate.toNat (sl.props.map (·.1))).getLast?).getD sl.gstate.toNat
      let recs := (grammarState s g st :: stateIntervals s g st).map (BitVec.ofNat 64)
      let s := { s with text := { s.text with masks := mins s.text.masks (slotKey p slot) recs } }
      putRecords s 0x3E (maskPlace q slot sl.props.length)
        ((runsOf 2048 (recs.map fun r => toLE 8 r.toNat)).map (recordTile p q.step.epoch q.step.epoch true 8))

def execGrammarMaskRequest (p : PartId) (slot : Nat) (s : State) : Out := .next (maskRequest s p slot)

/-! ## Row images (R265) -/

/-- Row images as store output tiles of the step: FP32 rows in the order of the batch, as many to a tile as it holds (DESIGN CHOICE, log entry
158). -/
def imageTiles (p : PartId) (e : Epoch) (c : Nat) (vs : List (List Word)) : List Tile :=
  (runsOf (16384 / max 1 (4 * c)) (vs.map fun v => v.flatMap fun w => toLE 4 w.toNat)).map fun rs =>
    Tile.sealed { hdr := { owner := p.setWidth 6, cls := 2, epoch := e, prod := e, out := true, format := 0x01
                           rows := BitVec.ofNat 16 rs.length, cols := BitVec.ofNat 16 c }
                  payload := pad 16384 rs.flatten }

/-- The row images that an update item computes; a repeated batch, or one that the module does not apply, has none (R264 to R267). -/
def itemImages (s : State) (h : Nat) : Nat × List (List Word) :=
  match reqOf s h with
  | none => (0, [])
  | some q => match tableOf s (q.desc.argA.toNat % 64) with
    | none => (0, [])
    | some r =>
      if !ownsTable s r || (q.desc.argC ≠ 0 && mfind r.lastBatch q.fn.toNat = some q.desc.argC) then (0, [])
      else
        let items := ((List.range (itemCount q)).map (updateItem r.cols q.param)).filter fun x => decide (x.1 < r.rows)
        (r.cols, (updateImages s (q.desc.argA.toNat % 64) r items).map (·.2))

/-- The update part of the step: every row image goes to the store, with OUT 1 and SRC_VALID 0 (R265). -/
def writeImages (s : State) (p : PartId) (e : Engine) : State :=
  let q := partOf s p
  let ts := (q.step.items.filter fun i => decide (i.kind = .update)).flatMap fun i =>
    let x := itemImages s i.handle
    imageTiles p q.step.epoch x.1 x.2
  putRecords s (BitVec.ofNat 6 (e.val / 2)) (q.storeBase + ((q.prog.map (·.sec.imageBase)).getD 0)) ts

/-! ## Check records (R344, R345) -/

/-- The 64 bytes of a check record (Table 15.2). -/
def CheckRecord.bytes (c : CheckRecord) : Bytes :=
  toLE 4 c.epoch.toNat ++ [BitVec.ofNat 8 c.engine.val, c.partition.setWidth 8, c.result, c.faults, c.mechanism, 0] ++ toLE 2 c.location.toNat
    ++ toLE 4 c.tile.toNat ++ toLE 4 c.anchorRetries.toNat ++ toLE 4 c.crcChecked.toNat ++ List.replicate 40 0

/-- Store tile of the check record of an engine: the program's allocation has one place an engine (DESIGN CHOICE, log entry 158). -/
def checkPlace (q : Partition) (e : Engine) : Nat := q.storeBase + ((q.prog.map (·.sec.checkBase)).getD 0) + e.val

/-- The record of an engine: what its own checks found, and what the operand adds for hardware outside the model (Table 15.2). -/
def ownRecord (s : State) (c : CheckRecord) : CheckRecord :=
  let x := engOf s c.engine
  let q := partOf s c.partition
  let faults := x.faults + c.faults.toNat
  let hard := decide (x.saturated.length < x.faults) || decide (c.result = 1) || decide (c.faults ≠ 0)
  let first := x.firstFault.getD (c.mechanism, c.location)
  { c with
    epoch := q.step.epoch
    result := if hard then 1 else if x.saturated ≠ [] ∨ c.result = 2 then 2 else 0
    faults := BitVec.ofNat 8 (min 255 faults)
    mechanism := if hard ∨ x.saturated ≠ [] ∨ c.result = 2 then first.1 else 0
    location := if hard ∨ x.saturated ≠ [] ∨ c.result = 2 then first.2 else 0xFFFF
    tile := (x.badTile.map fun t => t.setWidth 32).getD c.tile
    anchorRetries := w32 (x.retries + c.anchorRetries.toNat)
    crcChecked := w32 (x.crcChecked + c.crcChecked.toNat) }

/-- The result belongs to an input of the step: a pair's score is no operand (R194). -/
def ofInput (st : Step) (o : Nat × Nat × List Word) : Bool := st.items.any fun i => i.kind = .input && decide (i.handle = o.1) && decide (i.index = o.2.1)

/-- CHECK_RECORD_WRITE (R265, R345): an engine of the step's mapping writes its one record of the attempt, as a tile of the store; the results of
inputs that its rows gave stand with it, and the lead engine's row images come before it. -/
def checkRecordWrite (s : State) (c : CheckRecord) (outs : List (Nat × Nat × List Word)) : State :=
  let q := partOf s c.partition
  if !q.step.running || c.engine ∉ mappingEngines (mappingOf q) || q.step.checks.any (fun r => decide (r.engine = c.engine)) then s
  else
    let r := ownRecord s c
    let s := if c.engine = leadEngine q then writeImages s c.partition c.engine else s
    let s := setStep s c.partition fun st => { st with checks := st.checks ++ [r], outs := st.outs ++ outs.filter (ofInput st) }
    putRecords s (BitVec.ofNat 6 (c.engine.val / 2)) (checkPlace q c.engine) [recordTile c.partition q.step.epoch q.step.epoch true 64 [r.bytes]]

def execCheckRecordWrite (c : CheckRecord) (outs : List (Nat × Nat × List Word)) (s : State) : Out := .next (checkRecordWrite s c outs)

end Sys2Proof.Machine
end

