-- ==== Sys2Proof/Machine/Slots.lean ====
section
/-! DEFINITION. Slots of a generator partition as they end (R215, R230, R231, R234, R235, R251), and the reports of the text die. -/

namespace Sys2Proof.Machine

/-! ## Pages and adapters (R215, R230) -/

/-- Pages go back to the pool: each to the end of its subchannel's free list. -/
def freePages (s : State) (p : PartId) (l : List (Nat × Nat)) : State :=
  setPart s p fun q => { q with kvFree := l.foldl (fun m x => mmod [] m x.1 (· ++ [x.2])) q.kvFree }

/-- Versions of an adapter number in a partition: (version slot, version). -/
def versionsOf (s : State) (p : PartId) (num : Nat) : List (Nat × AdapterVersion) :=
  s.gen.adapters.filter fun x => decide (x.2.part = p) && decide (x.2.number.toNat = num)

/-- The newest bindable version of an adapter number (R230). -/
def newestVersion (s : State) (p : PartId) (num : Nat) : Option (Nat × AdapterVersion) :=
  ((versionsOf s p num).filter fun x => x.2.bindable).foldl (fun a x => match a with
    | none => some x
    | some y => if y.2.order < x.2.order then some x else a) none

/-- Versions with no reference that are no longer the newest of their number are freed (R230). -/
def freeVersions (s : State) : State :=
  let keep := fun (x : Nat × AdapterVersion) => decide (0 < x.2.refs) || !x.2.bindable
    || decide ((newestVersion s x.2.part x.2.number.toNat).map (·.1) = some x.1)
  { s with gen := { s.gen with adapters := s.gen.adapters.filter keep } }

def setAdapter (s : State) (n : Nat) (f : AdapterVersion → AdapterVersion) : State :=
  match mfind s.gen.adapters n with
  | none => s
  | some v => { s with gen := { s.gen with adapters := mins s.gen.adapters n (f v) } }

/-- A bound version loses a reference (R230). -/
def unbindAdapter (s : State) (a : Option (BitVec 12)) : State :=
  match a with
  | none => s
  | some n => freeVersions (setAdapter s n.toNat fun v => { v with refs := v.refs - 1 })

/-! ## The end of a slot's place (R211, R231 orders 3 to 8) -/

/-- The samples of the step in progress leave a slot. -/
def clearSamples (x : SlotRec) : SlotRec :=
  { x with props := [], propsEnd := false, accepted := 0, nanOf := [], final := none, verified := false, deadEnd := false, allInvalid := false }

/-- A slot in PREFILL or DECODE. -/
def inService (x : SlotRec) : Bool := x.state = .prefill || x.state = .decode

/-- A slot ends with a reason and a status: pages and adapter reference go back, and it waits for the text die (R211, R235). -/
def endSlot (s : State) (p : PartId) (n : Nat) (why : StopReason) (st : Status) : State :=
  let x := slotRec s p n
  if !inService x then s
  else
    let s := unbindAdapter (freePages s p x.pageList) x.adapter
    setSlotRec s p n fun x => { clearSamples x with state := .ending, reason := why, status := st, pageList := [], adapter := none, chunk := 0
                                                    done := 0 }

/-- Slots of request h in a partition. -/
def slotsOf (q : Partition) (h : Nat) : List Nat := (q.slots.filter fun x => inService x.2 && decide (x.2.request = h)).map (·.1)

/-! ## FINAL of a sequence (R235, R308, R312) -/

/-- The FINAL of sequence k of request h; the last one ends the request. -/
def finalSeq (s : State) (h k : Nat) (c : Completion) : State :=
  match reqOf s h with
  | none => s
  | some r =>
    if k ∈ r.seqDone then s
    else
      let done := r.seqDone ++ [k]
      let last := decide (max 1 r.block.nSeq ≤ done.length)
      let s := setReq s h { r with seqDone := done, phase := if last then .ending else r.phase }
      post s r.fn r.qp { c with tag := r.tag, closes := if last then some h else none }

/-- A sequence that never entered a slot ends with no output (R212, R231, R232, R317, R331). -/
def endWaiting (s : State) (h k : Nat) (st : Status) (aux : BitVec 32) : State :=
  match reqOf s h with
  | none => s
  | some r => finalSeq (freePrompt s h) h k { tag := r.tag, body := .final 0 0 r.invalidText .none (BitVec.ofNat 4 k) aux, flags := r.flags, status := st }

/-- An item that leaves an admission ring unserved ends its sequence, or the request it belongs to (R317, R331, R337). -/
def endItem (s : State) (i : Item) (st : Status) (aux : BitVec 32) : State :=
  match i.kind with
  | .prompt => endWaiting s i.handle i.index st aux
  | _ => endRequest s i.handle st aux

/-- Items of request h in partition p's rings. -/
def itemsOf (q : Partition) (h : Nat) : List Item := (q.rings.flatMap (·.2)).filter fun i => decide (i.handle = h)

/-- What request h has in partition p outside the slots ends: its waiting items and its items of the step. -/
def removeItems (s : State) (p : PartId) (st : Status) (h : Nat) : State :=
  let q := partOf s p
  let mine := itemsOf q h ++ q.step.items.filter fun i => decide (i.handle = h)
  let s := setPart s p fun q => { q with
    rings := (mmap (fun _ l => l.filter fun i => decide (i.handle ≠ h)) q.rings).filter fun e => decide (e.2 ≠ [])
    step := { q.step with items := q.step.items.filter fun i => decide (i.handle ≠ h) } }
  mine.foldl (fun s i => endItem s i st 0) s

/-- Request h ends in partition p with its committed output: its slots, its waiting items and its items of the step (R337, R351). -/
def removeRequest (s : State) (p : PartId) (st : Status) (h : Nat) : State :=
  removeItems ((slotsOf (partOf s p) h).foldl (fun s n => endSlot s p n .error st) s) p st h

/-- The step runs on without request h; its slots end at order 5 of the boundary at which the step commits (R112, R231). -/
def leaveStep (s : State) (p : PartId) (h : Nat) : State :=
  removeItems ((slotsOf (partOf s p) h).foldl (fun s n => setSlotRec s p n fun x => { clearSamples x with removed := true }) s) p .programMismatch h

/-- Handles of the requests that hold a place in the partition's step. -/
def stepRequests (q : Partition) : List Nat :=
  ((q.slots.filter fun x => inService x.2).map (·.2.request) ++ q.step.items.map (·.handle)).foldl (fun a h => withLast h a) []

/-- The step has a request to run: one that R112 has removed does not count. -/
def stepWorks (q : Partition) : Bool := q.slots.any (fun x => takesPart x.2) || decide (q.step.items ≠ [])

/-- Every request of the partition, in a place or waiting, ends with a status (R324, R325, R352). -/
def endAll (s : State) (p : PartId) (st : Status) : State :=
  let q := partOf s p
  let hs := (stepRequests q ++ (q.rings.flatMap (·.2)).map (·.handle)).foldl (fun a h => withLast h a) []
  hs.foldl (removeRequest · p st) s

/-! ## The final release (R235, R236, R251) -/

/-- Rank of reasons at one position (R235). -/
def reasonRank : StopReason → Nat
  | .stopToken => 0 | .grammarAccept => 1 | .stopString => 2 | .maxTokens => 3 | _ => 4

/-- The reason found by the sequencer applies to committed tokens. -/
def reasonInTokens (r : StopReason) : Bool := r = .stopToken || r = .grammarAccept || r = .maxTokens || r = .stopString

/-- Reason and final LEN of a slot: the end condition at the lowest position (R234, R235). -/
def finalReason (sl : SlotRec) (x : OutStream) : StopReason × Nat :=
  let own := (sl.reason, sl.len)
  match x.firstPos with
  | none => own
  | some pos =>
    if sl.reason = .error ∨ sl.len ≤ pos then own
    else if reasonInTokens sl.reason && decide (pos = sl.len - 1) && decide (reasonRank sl.reason < 2) then own
    else (.stopString, pos + 1)

/-- The status a reason gives (R235, R306). -/
def reasonStatus (flags : BitVec 16) (st : Status) : StopReason → Status
  | .deadline => .deadline | .cancelled => .cancelled | .grammarDeadEnd => .grammarDeadEnd | .error => st
  | .none => st | _ => okStatus flags

/-- The text die has taken every committed token of the slot up to its final LEN (R235). -/
def tokensTaken (sl : SlotRec) (x : OutStream) : Bool := x.failed || decide (sl.len ≤ x.pos0 + x.marks.length)

/-- Flags of a sequence's FINAL: the request's, NO_SPECULATION among them, and its slot's (R146, R223, R307). -/
def slotFlags (r : Request) (sl : SlotRec) : BitVec 16 :=
  r.flags ||| (if sl.approx then flagApprox else 0)

/-- SLOT_FINAL_RELEASE (R235, R251): the text die releases what is left, and FINAL follows. -/
def slotFinal (s : State) (p : PartId) (n : Nat) : State :=
  let sl := slotRec s p n
  match reqOf s sl.request with
  | none => if sl.state = .ending then setSlotRec (setStreamRec s p n fun _ => {}) p n fun _ => {} else s
  | some r =>
    if sl.state ≠ .ending || !tokensTaken sl (streamRec s p n) then s
    else
      let x := streamRec s p n
      let s := if x.failed then s else releaseTo s p n (finalPoint r.block.stops x)
      let y := streamRec s p n
      let (why, len) := finalReason sl y
      let why := if sl.badBuf.isSome then .error else why
      let flags := slotFlags r sl
      let fin := ((reqOf s sl.request).map (·.invalidText)).getD 0
      let c : Completion :=
        { tag := r.tag
          body := .final (len - sl.promptLen) (y.written - sl.lostBytes) (if r.op = .turn then fin else y.replaced) why sl.seq
            (match sl.badBuf with
              | some o => w32 o
              | none => w32 (min sl.nanTotal 65535 + 65536 * min y.special 65535))
          flags := flags, status := if sl.badBuf.isSome then .badDescriptor else reasonStatus flags sl.status why }
      let s := setSlotRec (setStreamRec s p n fun _ => {}) p n fun _ => {}
      finalSeq { s with text := { s.text with masks := mdel s.text.masks (slotKey p n) } } sl.request sl.seq.toNat c

def execSlotFinalRelease (p : PartId) (slot : Nat) (s : State) : Out := .next (slotFinal s p slot)

/-! ## Reports of the text die (R234, R250) -/

/-- A first match of the slot that has not been reported. -/
def unreported (q : Partition) (x : OutStream) (n : Nat) : Option Nat :=
  if q.reports.any (fun r => decide (r.slot = n)) then none else x.firstPos

/-- STOP_REPORT (R234, R250): the slot and the position of the token that holds the match's last byte. -/
def stopReport (s : State) (p : PartId) (n pos : Nat) (e : Epoch) : State :=
  let q := partOf s p
  if inService (slotRec s p n) && decide (unreported q (streamRec s p n) n = some pos) then
    setPart s p fun q => { q with reports := q.reports ++ [{ slot := n, pos := pos, epoch := e }] }
  else s

def execStopReport (p : PartId) (slot pos : Nat) (e : Epoch) (s : State) : Out := .next (stopReport s p slot pos e)

/-- The text die has processed the slot's tokens of every step up to e (R250). -/
def processed (s : State) (p : PartId) (e : Nat) (x : Nat × SlotRec) : Bool :=
  let st := streamRec s p x.1
  !inService x.2 || st.failed || x.2.sent.all fun y => decide (e < y.1 ∨ y.2 ≤ st.pos0 + st.marks.length)

/-- MATCHED (R250): every report for the step comes with it. -/
def matchedStep (s : State) (p : PartId) (e : Epoch) : State :=
  let q := partOf s p
  if decide (q.committed.toNat < e.toNat) || decide (e.toNat ≤ q.matched.toNat) || !q.slots.all (processed s p e.toNat) then s
  else
    let s := q.slots.foldl (fun s x => match unreported q (streamRec s p x.1) x.1 with
      | some pos => stopReport s p x.1 pos e
      | none => s) s
    setPart s p fun q => { q with
      matched := e
      slots := mmap (fun _ x => { x with sent := x.sent.filter fun y => decide (e.toNat < y.1) }) q.slots }

def execMatched (p : PartId) (e : Epoch) (s : State) : Out := .next (matchedStep s p e)

end Sys2Proof.Machine
end

