-- ==== Sys2Proof/Machine/Integrity.lean ====
section
/-! DEFINITION. Chapter 15: attribution, engine retirement, replay, failed steps, the step watchdog, in-field tests (R346 to R358, R363,
R364), and the mappings of chapter 14 (R124, R325, R477). -/

namespace Sys2Proof.Machine

/-! ## Mappings (R124, R325, R477) -/

/-- SPARE_USED of an engine (R121, R123, R125). -/
def spareUsed (s : State) (e : Engine) : BitVec 16 := Config.fusedSpare e ||| (engOf s e).spareApplied
/-- GROUP_LOST of an engine (R123). -/
def groupLost (s : State) (e : Engine) : BitVec 16 := Config.fusedGroupLost e ||| (engOf s e).groupLost

/-- A mapping is usable: every engine is in service with the SPARE_USED value it was compiled for (R477); pass lists engines whose test does
not count. -/
def usableWith (s : State) (m : Mapping) (pass : BitVec 8 → Bool) : Bool :=
  (mappingEngines m).all fun e => pass (engOf s e).retired && decide (spareUsed s e = m.spares.getD e.val 0)
def usable (s : State) (m : Mapping) : Bool := usableWith s m fun r => r = 0

/-- The N mapping when it is usable, else the first usable N−1 mapping in image order (R477). -/
def selectMapping (s : State) (g : Program) : Option Nat := (List.range g.maps.length).find? fun i => (g.maps[i]?).any (usable s)

/-- The N−1 mapping that excludes an engine, for a partition on its N mapping (R325). -/
def minusFor (s : State) (q : Partition) (e : Engine) : Option Nat :=
  match q.prog with
  | none => none
  | some g =>
    if q.mapping ≠ 0 then none
    else (List.range g.maps.length).find? fun i => decide (0 < i) && (g.maps[i]?).any fun m => decide (m.excluded = some e) && usable s m

/-- Engines that the partition's current mapping uses. -/
def usesEngine (q : Partition) (e : Engine) : Bool := q.prog.isSome && decide (e ∈ mappingEngines (mappingOf q))

/-! ## Attribution (R354, R356, Table 15.5) -/

/-- A suspect block: its kind and number (Table 15.7), the mechanism and the location. -/
structure Suspect where
  kind : Nat
  number : Nat
  mech : Nat
  loc : BitVec 16 := 0xFFFF
deriving DecidableEq, Repr

/-- The producer that the program's map names for a tile (R354). -/
def producerOf (q : Partition) (t : Nat) : Option (Nat × Nat) :=
  (q.prog.bind fun g => mfind g.sec.producers t).map fun v => (v / 65536, v % 65536)

/-- A tile passes when it is read again from the store (Table 15.5). -/
def rereadPasses (s : State) (t : BitVec 32) : Bool :=
  let x := slotOf s (t.setWidth 17)
  decide (t.toNat < 131072) && !x.hdr.poison && Tile.crcOk { hdr := x.hdr, payload := x.payload }

/-- The tiles that a record's TILE_CRC or DUP_MISMATCH concerns: none when the tile passes on a re-read (Table 15.5). -/
def faultTiles (s : State) (r : CheckRecord) : List Nat :=
  if r.mechanism = 0x0C then (engOf s r.engine).dupTiles.map (·.toNat)
  else if rereadPasses s r.tile then [] else [r.tile.toNat]

/-- The suspect that a record names by itself: the block at its location, or the engine (Table 15.5). -/
def blockSuspect (r : CheckRecord) : Suspect :=
  let m := r.mechanism.toNat
  let l := r.location.toNat
  if m = 0x01 then { kind := 4, number := l, mech := m, loc := r.location }
  else if m = 0x0D then { kind := 5, number := l, mech := m, loc := r.location }
  else if m = 0x0E then { kind := 6, number := l, mech := m, loc := r.location }
  else if m = 0x0F then { kind := 2, number := l, mech := m, loc := r.location }
  else { kind := 1, number := r.engine.val, mech := m, loc := r.location }

/-- The suspects of a record that is not CLEAN (Table 15.5); tiles with no named producer leave the consumer's ingress. -/
def suspectsOf (s : State) (q : Partition) (r : CheckRecord) : List Suspect :=
  let m := r.mechanism.toNat
  if m = 0x04 ∨ m = 0x0C then
    match ((faultTiles s r).filterMap (producerOf q)).dedup with
    | [] => [{ kind := 1, number := r.engine.val, mech := m }]
    | xs => xs.map fun x => { kind := x.1, number := x.2, mech := m }
  else [blockSuspect r]

/-- The writing block of a refused store write (Table 15.5): for a compute die the engine that issued the tag. -/
def refusalSuspect (x : Option (DieId × BitVec 16)) : List Suspect :=
  match x with
  | none => []
  | some (d, tag) =>
    [if isCompute d then { kind := 1, number := (replyEngine d tag).val, mech := 0x11 }
     else if isMemory d then { kind := 2, number := 16 * (d.toNat - 0x20), mech := 0x11 }
     else if isFlash d then { kind := 3, number := 8 * (d.toNat - 0x30), mech := 0x11 }
     else if d = 0x3E then { kind := 7, number := 0, mech := 0x11 } else { kind := 8, number := 0, mech := 0x11 }]

/-- The engine of a suspect. -/
def Suspect.engine (x : Suspect) : Option Engine := if h : x.kind = 1 ∧ x.number < 48 then some ⟨x.number, h.2⟩ else none

/-- Steps the engine ran since its last fault at a location, when that is among its last two (R354); location 0xFFFF is none. -/
def repeatGap (x : EngineState) (loc : BitVec 16) : Option Nat :=
  if loc = 0xFFFF then none else (x.lastFaults.find? fun f => decide (f.2 = loc)).map fun f => x.stepsRun - f.1

/-- An attributed fault is kept with its engine (R354). -/
def keepFault (s : State) (e : Engine) (loc : BitVec 16) : State :=
  setEng s e fun x => { x with lastFaults := ((x.stepsRun, loc) :: x.lastFaults).take 2, cntFaults := x.cntFaults + 1 }

/-- A fault of a block that is never retired in service: the third within 1,000 steps is logged (R356). -/
def blockFault (s : State) (p : PartId) (x : Suspect) (f : FaultInfo) : State :=
  let key := x.kind * 65536 + x.number
  let t := s.gen.stepCount
  let ts := t :: (mget [] s.gen.blockFaults key).filter fun u => decide (t - u ≤ 1000)
  let s := { s with gen := { s.gen with blockFaults := mins s.gen.blockFaults key ts } }
  if 3 ≤ ts.length then recordFault s f fun n => .blockRepeat x.kind x.number x.mech ts.length p.toNat n else s

/-! ## Retirement (R125, R355, R357) -/

/-- The mechanism's location is a unit (Table 15.5). -/
def unitFault (mech : Nat) (loc : BitVec 16) : Bool := decide (0x06 ≤ mech ∧ mech ≤ 0x08 ∧ loc.toNat < 512)

/-- Retirement of an engine (R355): its record, the spare recorded for the next warm reset (R125) or the group lost, the signature, the event,
and a switch due in every other partition that uses it. -/
def retireEngine (s : State) (e : Engine) (f : FaultInfo) (p : Option PartId) : State :=
  let g := f.loc.toNat / 32
  let spare := unitFault f.mech f.loc && !(spareUsed s e).getLsbD g && !(groupLost s e).getLsbD g
  let s := setEng s e fun x => { x with
    retired := 1, testDue := none
    sparePending := if spare then some f.loc.toNat else x.sparePending
    groupLost := if unitFault f.mech f.loc && !spare then x.groupLost ||| BitVec.ofNat 16 (2 ^ g) else x.groupLost
    permanent := x.permanent || x.returnedAt.any fun t => decide (since t (recNow s) < 30 * 86400 * 1000000)
    retiredAt := recNow s :: x.retiredAt }
  let s := { s with gen := { s.gen with parts := mmap (fun n q =>
    { q with
      switchDue := if usesEngine q e && decide (p ≠ some (partId n)) then withLast e q.switchDue else q.switchDue
      pauseFor := if q.pauseFor = some e then none else q.pauseFor }) s.gen.parts } }
  recordFault s f fun n => .engineRetired e.val f.loc.toNat f.mech f.part n

/-! ## Failed partitions and steps (R325, R352) -/

/-- No step is in progress. -/
def stepIdle (s : State) (p : PartId) : State := setPart s p fun q => { q with step := {}, draws := [], drawsAsked := [] }

/-- The partition enters FAILED: its admitted and waiting work ends with PROGRAM_MISMATCH, and PARTITION_FAILED is logged (R325). -/
def failPartition (s : State) (p : PartId) (e : Nat) : State :=
  let q := partOf s p
  let s := logEvent s (.partitionFailed p e q.mapping (q.committed + 1))
  let s := endAll s p .programMismatch
  stepIdle (setPart s p fun q => { q with state := .failed, switchDue := [], pauseFor := none }) p

/-- STEP_FAILED: every request of the step ends with PROGRAM_MISMATCH and the partition enters FAILED (R351, R352). -/
def stepFailed (s : State) (p : PartId) (f : FaultInfo) : State :=
  let q := partOf s p
  let hs := stepRequests q
  let s := hs.foldl (removeRequest · p .programMismatch) s
  let s := stepIdle (setPart s p fun q => { q with state := .failed }) p
  recordFault s { f with outcome := 4 } fun n => .stepFailed p q.step.epoch hs.length f.mech n

/-! ## Replay (R346, R347, R349 to R352, R358) -/

/-- The step has a cause to fail (R346, R347, R351). -/
def stepFails (q : Partition) : Bool :=
  q.step.checks.any (fun r => decide (r.result ≠ 0)) || decide (q.step.refused ≠ []) || q.step.refusedAll.isSome
    || q.step.storeRefusal.isSome || q.step.retracted

/-- The store refusal of this attempt is the one of the attempt before (R351). -/
def refusalRecurs (q : Partition) : Bool := q.step.storeRefusal.isSome && decide (q.step.storeRefusal = q.step.prevRefusal)

/-- Engines that the step's mapping uses. -/
def stepEngines (q : Partition) : List Engine := mappingEngines (mappingOf q)

/-- Saturated tiles of the step (R112). -/
def saturatedTiles (s : State) (q : Partition) : List Nat := (stepEngines q).flatMap fun e => (engOf s e).saturated

/-- The owners of the step's saturated rows, each row with its request where it belongs to a single one (R112). -/
def saturatedOwners (s : State) (p : PartId) : List (Option Nat) :=
  ((stepEngines (partOf s p)).flatMap fun e => (engOf s e).satRows).map fun r => rowOwner s p r.1 r.2

/-- The step has a saturated tile (R112). -/
def stepSaturated (s : State) (q : Partition) : Bool := decide (saturatedTiles s q ≠ []) || q.step.checks.any fun r => decide (r.result = 2)

/-- Saturation has recurred on the replay with the raised anchor (R112). -/
def saturationRecurs (s : State) (q : Partition) : Bool := q.step.saturated && stepSaturated s q

/-- A detected fault counts as a hardware fault: a FAULT record, or the first refusal of a store write (R351). -/
def countedFault (q : Partition) : Bool :=
  q.step.checks.any (fun r => decide (r.result = 1)) || (q.step.storeRefusal.isSome && !refusalRecurs q)

/-- What went to the partner for the step: PROVISIONAL tiles and RETRACTs, newest first (R346 order 6, R359). -/
def sentProvisional (s : State) (p : PartId) (e : Epoch) : List MsgHdr :=
  (s.pair.sent.map (·.1)).filter fun m => decide ((m.type = 0x40 ∧ m.provisional ∨ m.type = 0x42) ∧ m.partition = p.setWidth 8 ∧ m.epoch = e)

/-- COMMIT (0x41) or RETRACT (0x42) for the PROVISIONAL outputs of a step that were sent; no COMMIT follows a RETRACT without a resend in
between (R359). -/
def settleSent (s : State) (p : PartId) (e : Epoch) (type : BitVec 8) : State :=
  match sentProvisional s p e with
  | [] => s
  | m :: _ =>
    if type = 0x41 ∧ m.type = 0x42 then s
    else sendMsg s { type := type, tenant := m.tenant, partition := m.partition, epoch := e } .none

/-- A notice of the sequencer is broadcast, and the store dies act on it (R53, Table 2.5). -/
def broadcast (s : State) (p : PartId) (e : Epoch) (type : BitVec 8) : State :=
  sendCtrl s { src := BitVec.ofNat 6 ((leadEngine (partOf s p)).val / 2), bcast := true, scope := p.setWidth 8, type := type, paramA := e }

/-- Requests of the step removed with a status; a lost KV page or row is a fault that ends its request (R337, R217, R365). -/
def refuse (p : PartId) (s : State) (x : Nat × Status) : State :=
  let s := if x.2 = .mediaError then faultEnds s 8 0 0x0E 5 p.toNat else s
  removeRequest s p x.2 x.1

/-- Removals of R337. -/
def removeRefused (s : State) (p : PartId) : State :=
  let st := (partOf s p).step
  let s := st.refused.foldl (refuse p) s
  match st.refusedAll with
  | none => s
  | some c => (stepRequests (partOf s p)).foldl (fun s h => refuse p s (h, c)) s

/-- Removals of a saturation that recurs (R112): the step goes on without the requests, whose slots end at order 5 (R231). -/
def removeSaturated (s : State) (p : PartId) : State :=
  let q := partOf s p
  if !saturationRecurs s q then s
  else
    let end1 := fun (s : State) h => leaveStep (faultEnds s 1 (leadEngine q).val 0x13 6 p.toNat) p h
    (saturatedOwners s p).foldl (fun s o => match o with
      | some h => end1 s h
      | none => (stepRequests (partOf s p)).foldl end1 s) s

/-- Every row and result of the attempt goes; slots keep their chunks, engines their raised anchors (R349, R350). -/
def clearAttempt (s : State) (p : PartId) : State :=
  let s := setPart s p fun q => { q with
    slots := mmap (fun _ x => if inService x then clearSamples x else x) q.slots
    step := { q.step with checks := [], outs := [], partials := [], recordsDue := [], recordTiles := 0, attnRows := [], kvWritten := [], refused := [], refusedAll := none, storeRefusal := none, refusalBy := none
                          hung := [], retracted := false } }
  (stepEngines (partOf s p)).foldl (fun s e => setEng s e fun x =>
    forgetTiles { x with retrying := [], saturated := [], satRows := [], faults := 0, firstFault := none, badTile := none, dupTiles := [], retries := 0
                         crcChecked := 0 } p) s

/-- A rolling plan streams again from group 0 in the next pass, which the replay reads (R86, R90). -/
def restartStream (s : State) (p : PartId) (e : Epoch) : State :=
  match (partOf s p).prog with
  | none => s
  | some g =>
    if g.plan.head.rolling then
      let s := setStream s p fun x => { pass := if x.pos = 0 then x.pass else x.pass + 1, pos := 0, epoch := e, polling := false }
      setStep s p fun x => { x with pass := (streamOf s p).pass }
    else s

/-- The step is reissued (Table 15.4 order 5); one that no request is left in is given up. -/
def reissue (s : State) (p : PartId) (f : Step → Step) (why : Option Suspect) : State :=
  if !stepWorks (partOf s p) then stepIdle s p
  else
    let s := setStep (clearAttempt s p) p f
    let st := (partOf s p).step
    let s := restartStream s p st.epoch
    let (m, w) := match why with
      | some x => (x.mech, dieBlock x.kind (blockDie x.kind x.number) x.number)
      | none => (0, 0)
    logEvent s (.stepReplay p st.epoch st.attempt m w)

/-- What is due for an engine suspect: class and gap when it is to be retired (R355). -/
def retirementDue (s : State) (q : Partition) (e : Engine) (loc : BitVec 16) : Option (Nat × Option Nat) :=
  let g := repeatGap (engOf s e) loc
  if g.any (fun n => decide (n ≤ 1000)) then some (2, g)
  else if q.step.attempt = 2 ∧ e ∈ q.step.prevSuspect then some (1, g) else none

/-- The fault record of a suspect in a step. -/
def stepInfo (p : PartId) (q : Partition) (x : Suspect) (cls : Nat) (gap : Option Nat) : FaultInfo :=
  { kind := x.kind, block := x.number, loc := x.loc, mech := x.mech, cls := cls, part := p.toNat, attempts := q.step.tries
    epoch := q.step.epoch.toNat, gap := gap.getD 0xFFFFFFFF }

/-- The mapping for the third attempt when engines are to be retired: the one in use when it does not use them, else the N−1 mapping that
excludes the one engine concerned; none when there is none (R325, R352). -/
def thirdMapping (s : State) (q : Partition) (es : List Engine) : Option Nat :=
  match es.filter (usesEngine q) with
  | [] => some q.mapping
  | [e] => minusFor s q e
  | _ => none

/-- Engine suspects, each engine once with its first suspicion. -/
def engineSuspects (sus : List Suspect) : List (Engine × Suspect) :=
  (sus.filterMap fun x => x.engine.map fun e => (e, x)).foldl
    (fun (a : List (Engine × Suspect)) y => if a.any (fun z => decide (z.1 = y.1)) then a else a ++ [y]) []

/-- Retirements due: engine, suspicion, class and gap (R353, R355). -/
def retirements (s : State) (q : Partition) (sus : List Suspect) (hung : List Engine) : List (Engine × Suspect × Nat × Option Nat) :=
  ((engineSuspects sus).filterMap fun y => (retirementDue s q y.1 y.2.loc).map fun d => (y.1, y.2, d.1, d.2))
    ++ hung.map fun e => (e, { kind := 1, number := e.val, mech := 0 }, 3, none)

/-- The step after a counted attempt a, next number n (R352). -/
def nextAttempt (old : Step) (engs : List Engine) (sat : Bool) (n : Nat) (st : Step) : Step :=
  { st with prevSuspect := engs, prevRefusal := old.storeRefusal, saturated := sat, tries := st.tries + 1, attempt := n }

/-- A counted attempt has failed with the suspects given; hung lists engines that did not answer (R352 to R358). -/
def countedFailure (s : State) (p : PartId) (sus : List Suspect) (hung : List Engine) (sat : Bool) : State :=
  let q := partOf s p
  let engs := engineSuspects sus
  let due := retirements s q sus hung
  let s := engs.foldl (fun s y => keepFault s y.1 y.2.loc) s
  let last := decide (3 ≤ q.step.attempt)
  let s := (sus.filter fun x => x.engine.isNone).foldl (fun s x =>
    blockFault s p x { stepInfo p q x 2 none with outcome := if last then 4 else 1 }) s
  let next := thirdMapping s q (due.map (·.1))
  let more := next.isSome && !last
  let s := due.foldl (fun s y =>
    let f := stepInfo p q y.2.1 y.2.2.1 y.2.2.2
    retireEngine s y.1 { f with outcome := if more then 2 else 4, attempts := q.step.tries + b2n more } (some p)) s
  let first := sus.head?
  let step := nextAttempt q.step (engs.map (·.1)) sat
  if last then stepFailed s p (stepInfo p q (first.getD { kind := 8, number := 0, mech := 0 }) 1 none)
  else match due, next with
    | [], _ => reissue s p (step (q.step.attempt + 1)) first
    | _, some m => reissue (setPart s p fun q => { q with mapping := m }) p (step 3) first
    | y :: _, none => failPartition s p y.1.val

/-- The suspects of a failed attempt. -/
def stepSuspects (s : State) (q : Partition) : List Suspect :=
  ((q.step.checks.filter fun r => decide (r.result = 1)).flatMap (suspectsOf s q))
    ++ (if q.step.storeRefusal.isSome && !refusalRecurs q then refusalSuspect q.step.refusalBy else [])

/-- The owner of a recurring refused write ends; whether no single request owns it (R351). -/
def removeRefusedWrite (s : State) (p : PartId) (q : Partition) : State × Bool :=
  match (if refusalRecurs q then q.step.storeRefusal else none) with
  | none => (s, false)
  | some (t, _) => match tileOwner s p t.toNat with
    | some h => (refuse p s (h, .programMismatch), false)
    | none => (s, true)

/-- The POISONED tiles that engines of the step hold in their operand caches (R59, R346). -/
def poisonedTiles (s : State) (q : Partition) : List TileIdx :=
  (((stepEngines q).flatMap fun e => (engOf s e).origin.map (·.2.tile)).filter fun t => (slotOf s t).hdr.poison).dedup

/-- A failed step (Table 15.4): the notice, RETRACT, the refill of POISONED tiles (R59, R92), the removals of R112, R337 and R351, then the next attempt; wd says that the step
watchdog found it. -/
def failStep (s : State) (p : PartId) (wd : Bool) (hung : List Engine) : State :=
  let q := partOf s p
  let e := q.step.epoch
  let sus := stepSuspects s q
  let s := settleSent (retractNotice (broadcast s p e 0x09) p e) p e 0x42
  let s := (poisonedTiles s q).foldl (fun s t => refillPoisoned s p e t) s
  let sat := stepSaturated s q && !saturationRecurs s q
  let s := removeSaturated (removeRefused s p) p
  let (s, dead) := removeRefusedWrite s p q
  if dead then stepFailed s p (stepInfo p q { kind := 8, number := 0, mech := 0x11 } 1 none)
  else if wd || countedFault q then countedFailure s p sus hung sat
  else reissue s p (fun st => { st with prevRefusal := q.step.storeRefusal, saturated := sat }) none

/-! ## The step watchdog (R353) -/

/-- Shape of a step: decode slots, prefill tokens, proposal depth of a generator; items of other kinds (R209, R331). The slots and items that
keep and item name count, with pre tokens of each PREFILL slot. -/
def shapeOf (q : Partition) (g : Program) (keep : SlotRec → Bool) (item : Item → Bool) (pre : SlotRec → Nat) : Nat × Nat × Nat :=
  if g.kind = .generator then
    let l := (q.slots.map (·.2)).filter keep
    let dec := l.filter fun x => decide (x.state = .decode)
    (dec.length, min g.prefillTokens ((l.filter fun x => decide (x.state = .prefill)).map pre).sum,
      if (mappingOf q).draft then (dec.map (·.specDepth)).foldl max 0 else 0)
  else ((q.step.items.filter item).length, 0, 0)

/-- Floor-rate time of the step in progress. -/
def stepTableUs (q : Partition) : Nat :=
  match q.prog with
  | none => 0
  | some g => let x := shapeOf q g (fun x => !x.removed) (fun _ => true) (·.chunk)
    stepUs g q.mapping x.1 x.2.1 x.2.2

/-- Every engine of the step has written its check record (Table 15.3 order 3). -/
def recordsIn (q : Partition) (es : List Engine) : Bool := es.all fun e => q.step.checks.any fun r => decide (r.engine = e)

/-- STEP_WATCHDOG_EXPIRY (R353): the partition's engines are quiesced; those that do not answer are hung and retired, and the step replays. -/
def stepWatchdog (s : State) (p : PartId) (hung : List Engine) : State :=
  let q := partOf s p
  if !q.step.running || recordsIn q (stepEngines q)
      || decide (since q.step.startAt (now s) ≤ stepTableUs q + q.step.watchdog.toNat * 1000) then s
  else
    let hung := hung.filter fun e => usesEngine q e
    let s := hung.foldl (fun s e => recordHung s { die := BitVec.ofNat 6 (e.val / 2), block := BitVec.ofNat 4 (e.val % 2) }) s
    failStep s p true hung

def execStepWatchdogExpiry (p : PartId) (hung : List Engine) (s : State) : Out := .next (stepWatchdog s p hung)

/-! ## Worlds of blocks (R334, R335, R416) -/

/-- The world of a block as the map holds it. -/
def setWorld (s : State) (b : BlockId) (secure : Bool) : State :=
  if secureBlock s b.die b.block = secure then s
  else { s with bureau := { s.bureau with secureXor := mmod 0 s.bureau.secureXor b.die.toNat fun w => w ^^^ BitVec.ofNat 16 (2 ^ b.block.toNat) } }

/-- Operand cache, vector registers, accumulator array and weight registers written to zero (R335). -/
def zeroEngine (x : EngineState) : EngineState :=
  { x with frames := [], vregs := [], acc := [], live := [], wActive := [], wShadow := [], anchors := [], ops := [], origin := [], raised := []
           retrying := [], saturated := [], satRows := [] }

/-! ## In-field tests (R363, R364) -/

/-- A test may start: no partition that could run a step uses the engine (Table 15.8 orders 2 to 5). -/
def testMayStart (s : State) (e : Engine) : Bool :=
  (engOf s e).testDue.isSome && decide ((engOf s e).retired = 0)
    && s.gen.parts.all fun x => !usesEngine x.2 e || decide (x.2.state = .paused) || decide (x.2.state = .failed)

/-- Order 5 of Table 15.8; testDue holds the start time from here on. -/
def startTest (s : State) (e : Engine) : State :=
  if testMayStart s e then
    setWorld (setEng s e fun x => { zeroEngine x with retired := 2, testDue := some (recNow s) }) (engineBlock e) true
  else s

/-- Every test that may start, starts. -/
def startTests (s : State) : State := (List.finRange 48).foldl startTest s

/-- An engine is under test or waits for one (R363). -/
def testing (x : EngineState) : Bool := x.testDue.isSome || decide (x.retired = 2)

/-- FIELD_TEST_DUE (R363, Table 15.8 orders 1 and 2). -/
def fieldTestDue (s : State) (e : Engine) : State :=
  let x := engOf s e
  if decide (x.retired ≠ 0) || (List.finRange 48).any (fun k => testing (engOf s k))
      || decide (since x.testedAt (recNow s) < s.gen.testInterval.toNat * 3600000000) then s
  else
    let s := setEng s e fun x => { x with testDue := some (recNow s) }
    let due := fun (q : Partition) => usesEngine q e && (minusFor s q e).isSome
    startTest { s with gen := { s.gen with parts := mmap (fun _ q => if due q then { q with switchDue := withLast e q.switchDue } else q) s.gen.parts } } e

def execFieldTestDue (e : Engine) (s : State) : Out := .next (fieldTestDue s e)

/-- FIELD_TEST_DEFERRAL_END (Table 15.8 order 4): 15 minutes from order 1. -/
def fieldTestDeferralEnd (s : State) (e : Engine) : State :=
  match (engOf s e).testDue with
  | none => s
  | some t =>
    if decide ((engOf s e).retired ≠ 0) || decide (since t (recNow s) < 900000000) then s
    else
      let due := fun (q : Partition) => usesEngine q e && decide (q.state = .running) && (minusFor s q e).isNone
      { s with gen := { s.gen with parts := mmap (fun _ q => if due q then { q with pauseFor := some e } else q) s.gen.parts } }

def execFieldTestDeferralEnd (e : Engine) (s : State) : Out := .next (fieldTestDeferralEnd s e)

/-- Order 6 of Table 15.8. -/
def endTest (s : State) (e : Engine) (mech : Option (BitVec 8)) : State :=
  let x := engOf s e
  if x.retired ≠ 2 then s
  else
    let us := (x.testDue.map fun t => since t (recNow s)).getD 0
    let paused := (s.gen.parts.filter fun y => decide (y.2.pauseFor = some e ∧ y.2.state = .paused)).length
    let s := setWorld (setEng s e fun x => { zeroEngine x with testDue := none, testedAt := recNow s }) (engineBlock e) false
    match mech with
    | none =>
      let back := fun (q : Partition) => decide ((mappingOf q).excluded = some e)
      let s := setEng s e fun x => { x with retired := 0 }
      let s := { s with gen := { s.gen with parts := mmap (fun _ q =>
        { q with pauseFor := if q.pauseFor = some e then none else q.pauseFor, switchBack := q.switchBack || back q }) s.gen.parts } }
      logEvent s (.fieldTestDone e.val false us paused 0)
    | some _ =>
      let n := s.gen.faultNext
      let s := retireEngine s e { kind := 1, block := e.val, mech := 0x12, cls := 4, outcome := 2 } none
      logEvent s (.fieldTestDone e.val true us paused n)

end Sys2Proof.Machine
end

