-- ==== Sys2Proof/Machine/Admission.lean ====
section
/-! DEFINITION. Admission to a partition's places (R212, R213, R215, R230, R316, R317, R330, R331). -/

namespace Sys2Proof.Machine

/-! ## Refusals by tenant (R337, R339) -/

/-- An ACCESS_TENANT refusal: the event and the requester's counter (R339). -/
def denyTenant (s : State) (tn ot : Tenant) (kind obj : Nat) : State :=
  countTenant (logEvent s (.accessTenant 0x3C tn ot kind obj 0)) tn 1 1

/-! ## Places (R330) -/

/-- Input rows of a program that is neither generator nor re-rank: the most rows its step-time table has. -/
def inputRows (g : Program) : Nat := max 1 ((g.sec.table.map (·.rows)).foldl max 0)

/-- Slots in use. -/
def usedSlotsOf (q : Partition) : List Nat := (q.slots.filter fun x => decide (x.2.state ≠ .free)).map (·.1)

/-- Free places of a partition (R330). -/
def freePlaces (q : Partition) (g : Program) : Nat :=
  match g.kind with
  | .generator => g.slots - (usedSlotsOf q).length
  | .rerank => g.batch - q.step.items.length
  | _ => inputRows g - q.step.items.length

/-! ## The checks of R212 -/

/-- A finite FP32 value within [lo, hi]. -/
def fpWithin (lo hi w : Word) : Bool := !isNan w && !flt w lo && !flt hi w

/-- The offset in the turn block of the first sampler parameter out of range (R225, order 1 of R212). -/
def samplerBad (g : Program) (r : Request) : Option Nat :=
  let b := r.block
  let bias := rd r.param 104 4
  let badBias := fun (e : Nat × Word) => decide (g.vocab ≤ e.1) || isNan e.2 || decide (e.2 = 0x7F800000)
  let chk : List (Nat × Bool) :=
    [(112, greedy b || fpWithin 0x3B800000 0x42800000 b.temperature), (116, fpWithin 0x00000001 0x3F800000 b.topP),
     (120, fpWithin 0 0x3F800000 b.minP), (124, fpWithin 0x3F800000 0x41000000 b.rep), (128, fpWithin 0xC1000000 0x41000000 b.presence),
     (132, fpWithin 0xC1000000 0x41000000 b.frequency), (136, decide (b.topK ≤ 1024)), (138, decide (b.specDepth ≤ g.specMax)),
     (140, decide (1 ≤ b.maxTokens ∧ b.maxTokens ≤ 65535))]
    ++ ((List.range b.stopIds.length).zip b.stopIds).map (fun x => (160 + 4 * x.1, decide (x.2 < g.vocab)))
    ++ ((List.range b.bias.length).zip b.bias).map (fun x => (bias + 8 * x.1, !badBias x.2))
  (chk.find? fun x => !x.2).map (·.1)

/-- The prompt of a TURN or a GENERATE. -/
def promptOf (r : Request) : List Nat :=
  if r.op = .turn then r.ret.prompt else (List.range (r.block.input.length / 4)).map fun i => rd r.block.input (4 * i) 4

/-- What order 3 of R212 finds: a status with AUX, or the version and grammar to bind; who owns the object refused is kept for the event. -/
inductive BindCheck where
  | bad (aux : Nat)
  | tenant (kind obj : Nat) (own : Tenant)
  | ok (version : Option Nat)
deriving DecidableEq, Repr

/-- Order 3 of R212: adapter and grammar loaded and of the request's tenant; the grammar's set and VOCAB those of the program (R253). -/
def bindCheck (s : State) (p : PartId) (g : Program) (r : Request) : BindCheck :=
  let ad : BindCheck :=
    if r.block.adapter = 0xFFFF then .ok none
    else match newestVersion s p r.block.adapter with
      | none => .bad 0x00010098
      | some x => if x.2.tenant = r.fn then .ok (some x.1) else .tenant 5 r.block.adapter x.2.tenant
  match ad with
  | .ok v =>
    if r.block.grammar = 0xFFFF then .ok v
    else match mfind s.text.grammars r.block.grammar with
      | none => .bad 0x0001009A
      | some m =>
        if m.tenant ≠ r.fn then .tenant 6 r.block.grammar m.tenant
        else if decide (m.tokSet.toNat ≠ g.tokSet) || decide (m.vocab ≠ g.vocab) then .bad 0x0001009A else .ok v
  | x => x

/-- Pages taken from the heads of the free lists, one a subchannel named (R215); none when a list runs out. -/
def takePages : Map (List Nat) → List Nat → Option (List (Nat × Nat) × Map (List Nat))
  | m, [] => some ([], m)
  | m, sub :: l =>
    match mget [] m sub with
    | [] => none
    | t :: ts => (takePages (mput [] m sub ts) l).map fun r => ((sub, t) :: r.1, r.2)

/-- The lowest FREE slot for which every page can be reserved, with the pages and what is left (R215). -/
def choosePages (q : Partition) (g : Program) (positions : Nat) : Option (Nat × List (Nat × Nat) × Map (List Nat)) :=
  let used := usedSlotsOf q
  ((List.range g.slots).filter fun n => decide (n ∉ used)).findSome? fun n =>
    (takePages q.kvFree (pageSubs g n positions)).map fun r => (n, r.1, r.2)

/-- Pages needed in the busiest subchannel: the same for every slot (R215). -/
def busiest (g : Program) (positions : Nat) : Nat :=
  let l := pageSubs g 0 positions
  ((List.range 256).map fun k => (l.filter fun x => decide (x = k)).length).foldl max 0

/-- The partition holds admitted work (R331). -/
def holdsWork (q : Partition) : Bool := q.slots.any (fun x => inService x.2) || decide (q.step.items ≠ [])

/-- STEP_LIMIT in effect: 0 uses the program's STEP_TARGET (R331, Table 20.10). -/
def stepLimitOf (q : Partition) (g : Program) : Nat := if q.stepLimit = 0 then g.stepTarget else q.stepLimit.toNat

/-- Order 5 for an item that is no prompt: the step with the item added (R331). -/
def itemFits (q : Partition) (g : Program) : Bool :=
  !holdsWork q || decide (stepUs g q.mapping (q.step.items.length + 1) 0 0 ≤ stepLimitOf q g)

/-- Distinct adapter versions of the slots in service with one more (R230). -/
def versionsWith (q : Partition) (v : Option Nat) : List Nat :=
  (((q.slots.filter fun x => inService x.2).filterMap fun x => x.2.adapter.map (·.toNat)) ++ v.toList).foldl (fun a x => withLast x a) []

/-- Order 5 for a prompt of n tokens (R230, R331). -/
def promptFits (q : Partition) (g : Program) (n : Nat) (v : Option Nat) : Bool :=
  let x := shapeOf q g inService (fun _ => true) fun y => y.promptLen - y.done
  let t := stepUs g q.mapping x.1 (min g.prefillTokens (x.2.1 + n)) x.2.2
  (!holdsWork q || decide (t ≤ stepLimitOf q g)) && (v.isNone || decide ((versionsWith q v).length ≤ g.adapterPerStep))

/-- What R212 and R330 decide for the head of a ring. -/
inductive Verdict330 where
  | stop (st : Status) (aux : BitVec 32) (deny : Option (Nat × Nat × Tenant))
  | wait
  | item
  | slot (n : Nat) (pages : List (Nat × Nat)) (left : Map (List Nat)) (version : Option Nat)
deriving DecidableEq, Repr

/-- The verdict on a prompt. -/
def judgePrompt (s : State) (p : PartId) (g : Program) (r : Request) : Verdict330 :=
  let q := partOf s p
  let n := (promptOf r).length
  let need := kvPositions n r.block.maxTokens r.block.specDepth
  match samplerBad g r with
  | some o => .stop .badDescriptor (w32 (0x00010000 + o)) none
  | none =>
    if g.maxContext < need then .stop .noResources 0 none
    else match bindCheck s p g r with
      | .bad aux => .stop .badDescriptor (w32 aux) none
      | .tenant k o own => .stop .accessTenant 0 (some (k, o, own))
      | .ok v =>
        let cap := (tenOf s r.fn).maxSlots.toNat
        let held := (q.slots.filter fun x => decide (x.2.state ≠ .free ∧ x.2.tenant = r.fn)).length
        if g.kvPairs < busiest g need then .stop .noResources 0 none
        else if 0 < cap ∧ cap ≤ held then .wait
        else match choosePages q g need with
          | none => .wait
          | some (slot, pages, left) => if promptFits q g n v then .slot slot pages left v else .wait

/-- The verdict on an item: one that the program's kind cannot serve ends with PROGRAM_MISMATCH. -/
def judge (s : State) (p : PartId) (g : Program) (i : Item) : Verdict330 :=
  match reqOf s i.handle with
  | none => .stop .cancelled 0 none
  | some r =>
    let q := partOf s p
    match i.kind, g.kind with
    | .prompt, .generator => judgePrompt s p g r
    | .pair, .rerank => if itemFits q g then .item else .wait
    | .input, .encoder => if itemFits q g then .item else .wait
    | .lookup, _ => if itemFits q g then .item else .wait
    | .update, _ => if itemFits q g then .item else .wait
    | _, _ => .stop .programMismatch 0 none

end Sys2Proof.Machine
end

