-- ==== Sys2Proof/Machine/Boundary.lean ====
section
/-! DEFINITION. The step boundary (R91, R209, R213, R222, R223, R229, R231 to R234, R250, R316, R317, R325 to R333, R346). -/

namespace Sys2Proof.Machine

/-! ## Orders 3 and 4 (R231, R234) -/

/-- Order 3 for one slot: a failed buffer (R274), the deadline, CANCEL; every slot of a partition that unloads (R324). -/
def judgeSlot (p : PartId) (tb : Nat) (unload : Bool) (s : State) (n : Nat) : State :=
  let x := slotRec s p n
  if !inService x then s
  else if x.badBuf.isSome then endSlot s p n .error .badDescriptor
  else if x.hardDeadline ≠ 0 ∧ x.hardDeadline ≤ tb then endSlot s p n .deadline .deadline
  else if x.cancel || unload then endSlot s p n .cancelled .cancelled else s

/-- Order 4 for one report (R234). -/
def applyReport (p : PartId) (s : State) (r : StopReport) : State :=
  let x := slotRec s p r.slot
  if inService x && decide (r.pos < x.len) then
    endSlot (setSlotRec s p r.slot fun x => { x with len := r.pos + 1, toks := x.toks.take (r.pos + 1) }) p r.slot .stopString .ok
  else s

/-- A slot whose output failed its second comparison (R342), or needs a table tile that is lost (R237), ends. -/
def endFailedStream (p : PartId) (s : State) (n : Nat) : State :=
  if (streamRec s p n).failed then endSlot s p n .error (if (streamRec s p n).media then .mediaError else .programMismatch) else s

/-- Slots of a partition by number. -/
def slotNumbers (q : Partition) : List Nat := q.slots.map (·.1)

/-- Orders 2 to 4. -/
def judgeSlots (s : State) (p : PartId) : State :=
  let q := partOf s p
  let s := (slotNumbers q).foldl (judgeSlot p (now s).toNat (q.state = .unloading)) s
  let s := q.reports.foldl (applyReport p) s
  let s := (slotNumbers q).foldl (endFailedStream p) s
  setPart s p fun q => { q with reports := [] }

/-! ## Order 5 (R213, R222, R229, R233) -/

/-- cut (R233): the tokens committed, the grammar state after them, the end condition; pos is the first token's position. -/
def cutTokens (s : State) (m : Option Grammar) (b : TurnBlock) (promptLen maxTokens : Nat) : Nat → Nat → List Nat → Nat × Nat × StopReason
  | _, gs, [] => (0, gs, .none)
  | pos, gs, t :: l =>
    let gs := match m with
      | some g => (grammarNext s g gs t).getD gs
      | none => gs
    if t ∈ b.stopIds then (1, gs, .stopToken)
    else if m.any fun g => grammarFinal s g gs then (1, gs, .grammarAccept)
    else if maxTokens ≤ pos + 1 - promptLen then (1, gs, .maxTokens)
    else
      let r := cutTokens s m b promptLen maxTokens (pos + 1) gs l
      (r.1 + 1, r.2.1, r.2.2)

/-- Tokens that the step gives a slot: the accepted proposals, then the final token. -/
def stepTokens (x : SlotRec) : List Nat := (x.props.take x.accepted).map (·.1) ++ x.final.toList

/-- How a slot ends that sampled no final token (R229). -/
def endUnsampled (s : State) (p : PartId) (n : Nat) (x : SlotRec) : State :=
  if x.deadEnd then endSlot s p n .grammarDeadEnd .grammarDeadEnd
  else if x.allInvalid then endSlot s p n .error .programMismatch else s

/-- The record of a slot after c committed tokens from position old on. -/
def committedSlot (x : SlotRec) (e old c gs : Nat) (toks : List Nat) : SlotRec :=
  { clearSamples x with
    len := old + c, toks := x.toks.take old ++ toks.take c, gstate := BitVec.ofNat 20 gs, stepNo := x.stepNo + 1
    nanTotal := x.nanTotal + (x.nanOf.take c).sum, sentTo := old + c
    sent := if c = 0 then x.sent else x.sent ++ [(e, old + c)] }

/-- apply_step for a slot in DECODE (R222), or the commit of a prefill chunk (R213); a slot that R112 removed ends here (R231). -/
def applySlot (p : PartId) (e : Nat) (s : State) (n : Nat) : State :=
  let x := slotRec s p n
  match reqOf s x.request with
  | none => s
  | some r =>
    if !inService x then s
    else if x.removed then endSlot s p n .error .programMismatch
    else if x.state = .prefill && decide (x.done + x.chunk < x.promptLen) then
      setSlotRec s p n fun x => { x with done := x.done + x.chunk, chunk := 0 }
    else
      let pre := decide (x.state = .prefill)
      let toks := stepTokens x
      let (c, gs, why) := cutTokens s (slotGrammar s x) r.block x.promptLen x.maxTokens x.len x.gstate.toNat toks
      let y := committedSlot x e x.len c gs toks
      let k := x.props.length
      let y := if pre then { y with state := .decode, done := x.promptLen, chunk := 0, dlen := x.promptLen }
        else { y with dlen := if 0 < k then min (x.len + x.accepted) (x.len - 1 + k) else x.dlen }
      let s := setSlotRec s p n fun _ => y
      if why ≠ .none then endSlot s p n why .ok else endUnsampled s p n x

/-! ## Results of items (R195, R196, R259, R264, R300) -/

/-- A pair place of a step: its item, its tokens and L; an empty place holds pad ids with L = 0 (R194, R195). -/
def pairPlaces (s : State) (st : Step) (g : Program) : List (Option Item × List Nat × Nat) :=
  let ps := (st.items.filter fun i => i.kind = .pair).map fun i =>
    let c := (reqOf s i.handle).bind fun r => r.ret.cands[i.index]?
    (some i, (c.map (·.tokens)).getD [], (c.map (·.pairLen)).getD 0)
  ps ++ List.replicate (g.batch - ps.length) (none, List.replicate g.pairTokens (setPad s (BitVec.ofNat 2 g.tokSet)), 0)

/-- The score of one place goes to its candidate; an empty place's is discarded (R194). -/
def takeScore (g : Program) (s : State) (x : Option Item × List Nat × Nat) : State :=
  let w := Config.pairScore g.digest x.2.1 x.2.2
  match x.1 with
  | none => s
  | some i => modReq s i.handle fun r => { r with ret := { r.ret with cands := r.ret.cands.modify i.index fun c => { c with rerank := some w } } }

/-- The scores of a committed step's pairs (R194, R196). -/
def takeScores (s : State) (p : PartId) (st : Step) : State :=
  match (partOf s p).prog with
  | none => s
  | some g => (pairPlaces s st g).foldl (takeScore g) s

/-- The result that the step gave an item. -/
def outOf (st : Step) (i : Item) : Option (List Word) := (st.outs.find? fun o => decide (o.1 = i.handle ∧ o.2.1 = i.index)).map (·.2.2)

/-- EMBED's result (R300), or a turn's query vector (R167). -/
def inputDone (s : State) (h : Nat) (v : List Word) : State :=
  match reqOf s h with
  | none => s
  | some r =>
    if r.cancel then endRequest s h .cancelled 0
    else if r.op = .embed then
      finish s h (okStatus r.flags) (finalBody r v.length (4 * v.length) .none 0 0) [(r.desc.resultAddr, v.flatMap fun w => toLE 4 w.toNat)]
    else toPhase (modReq s h fun r => { r with ret := { r.ret with query := v } }) h .walk

/-- A request in its re-rank phase with no pair left in a step or a ring ends when CANCEL has marked it (Table 13.16). -/
def endCancelledPairs (s : State) (h : Nat) : State :=
  match reqOf s h with
  | none => s
  | some r =>
    let pending := s.gen.parts.any fun q =>
      q.2.step.items.any (fun i => decide (i.handle = h)) || q.2.rings.any fun l => l.2.any fun i => decide (i.handle = h)
    if r.cancel && decide (r.phase = .rerank) && !pending then endRequest s h .cancelled 0 else s

/-- The commit of an input. -/
def itemDone (st : Step) (s : State) (i : Item) : State :=
  match i.kind, outOf st i with
  | .input, some v => inputDone s i.handle v
  | _, _ => s

/-- Every item of the step after COMMIT_NOTICE's place in the order: lookups first, then the other results (R259, R265). -/
def commitItems (s : State) (p : PartId) (st : Step) (unload : Bool) : State :=
  let s := setPart s p fun q => { q with step := { q.step with items := [] } }
  if unload then st.items.foldl (fun s i => endItem s i .cancelled 0) s
  else
    let s := (st.items.filter fun i => i.kind = .lookup).foldl (fun s i => lookupDone s i.handle) s
    let s := st.items.foldl (itemDone st) (takeScores s p st)
    (st.items.filter fun i => i.kind = .pair).foldl (fun s i => endCancelledPairs s i.handle) s

/-- Updates at the boundary (R264, R265). -/
def commitUpdates (s : State) (st : Step) (lost : List Tenant) (unload : Bool) : State :=
  if unload then s else (st.items.filter fun i => i.kind = .update).foldl (fun s i => updateCommit lost s i.handle) s

/-! ## Interference (R332) -/

/-- The lowest rate reading of the partition's domains (R332). -/
def partRate (s : State) (q : Partition) : Nat :=
  let rs := (mappingEngines (mappingOf q)).filterMap fun e => (dieDomain (BitVec.ofNat 6 (e.val / 2))).map (rateOf s)
  match rs with
  | [] => 0
  | r :: l => l.foldl min r

/-- Tenants with work in the step. -/
def stepTenants (s : State) (q : Partition) : List Tenant :=
  ((q.slots.filter fun x => inService x.2).map (·.2.tenant) ++ q.step.items.filterMap fun i => (reqOf s i.handle).map (·.fn)).foldl
    (fun a t => withLast t a) []

/-- A tenant's counters after the step (R332). -/
def addInterference (q : Partition) (g : Program) (us : Nat) (fnOf : Item → Option Tenant) (s : State) (t : Tenant) : State :=
  let x := shapeOf q g (fun y => decide (y.tenant = t)) (fun i => decide (fnOf i = some t)) (·.chunk)
  let c := stepShape g q.mapping x.1 x.2.1 x.2.2
  setTen s t fun y => { y with soloUs := y.soloUs + c.1 + (c.2 * 1100 : Nat) / (q.step.startRate : Rat), actualUs := y.actualUs + us }

/-- The sums of R332 for the step that commits. -/
def interference (s : State) (q : Partition) : State :=
  match q.prog with
  | none => s
  | some g => (stepTenants s q).foldl (addInterference q g (since q.step.startAt (now s)) fun i => (reqOf s i.handle).map (·.fn)) s

/-- The partition with most steps in which the tenant has work or had a slot: the partition number with most steps of the window. -/
def busiestPart (s : State) : Nat :=
  (s.gen.parts.foldl (fun (a : Nat × Nat) x => if a.2 < x.2.steps then (x.1, x.2.steps) else a) (0, 0)).1

/-- One tenant's window closes (R332, R333). -/
def closeWindow (s : State) (x : Nat × TenantState) : State :=
  let t : Tenant := BitVec.ofNat 9 x.1
  let ratio := if x.2.soloUs = 0 then 1024 else min 65535 (⌊(1024 * x.2.actualUs : Nat) / x.2.soloUs⌋).toNat
  let slow := decide (s.gen.slowThreshold.toNat < ratio)
  let run := if slow then x.2.slowRun + 1 else 0
  let log := slow && decide (s.gen.slowWindows.toNat ≤ run) && !x.2.slowLogged
  let s := setTen s t fun y => { y with soloUs := 0, actualUs := 0, ratio := ratio, slowRun := run, slowLogged := slow && (y.slowLogged || log) }
  if log then logEvent s (.slowdown t ratio run (busiestPart s)) else s

/-- INTERFERENCE_WINDOW_CLOSE (R332, R333). -/
def windowClose (s : State) : State :=
  let s := s.gen.tenants.foldl closeWindow s
  { s with gen := { s.gen with parts := mmap (fun _ q => { q with steps := 0 }) s.gen.parts } }

def execInterferenceWindowClose (s : State) : Out := .next (windowClose s)

/-! ## Mappings at a boundary (R325, R364) -/

/-- One engine that the partition is to run without. -/
def switchOne (p : PartId) (s : State) (e : Engine) : State :=
  let q := partOf s p
  if !usesEngine q e || decide (q.state = .failed) then s
  else match minusFor s q e with
    | some m => setPart s p fun q => { q with mapping := m }
    | none => if (engOf s e).retired = 1 then failPartition s p e.val else s

/-- The switches due, the return to the N mapping, the pause (R325, Table 15.8), and the tests that may start then. -/
def switchMappings (s : State) (p : PartId) : State :=
  let q := partOf s p
  let s := q.switchDue.foldl (switchOne p) (setPart s p fun q => { q with switchDue := [] })
  let back := q.switchBack && (q.prog.bind fun g => g.maps[0]?).any (usable s)
  let s := setPart s p fun q => { q with mapping := if back then 0 else q.mapping, switchBack := false }
  let s := setPart s p fun q => { q with state := if q.state = .running && q.pauseFor.isSome then .paused else q.state }
  startTests s

/-! ## Order 9: admission (R317, R330, R331) -/

/-- Why a waiting item leaves its ring before admission: SERVE or WEIGHT, then its deadline (R317, R331). -/
def purgeStatus (s : State) (p : PartId) (tn : Nat) (i : Item) : Option Status :=
  let t := tenOf s (BitVec.ofNat 9 tn)
  match reqOf s i.handle with
  | none => some .cancelled
  | some r =>
    if !t.serve.getLsbD p.toNat then some .accessTenant
    else if t.weight = 0 then some .noResources
    else if passed s r.block.hardDeadline then some .deadline else none

/-- Items that leave unserved, ended in ring order. -/
def purgeRings (s : State) (p : PartId) : State :=
  let q := partOf s p
  let gone := q.rings.flatMap fun l => l.2.filterMap fun i => (purgeStatus s p l.1 i).map fun st => (l.1, i, st)
  let keep := (mmap (fun tn l => l.filter fun i => (purgeStatus s p tn i).isNone) q.rings).filter fun e => decide (e.2 ≠ [])
  gone.foldl (fun s x =>
    let s := if x.2.2 = .accessTenant then denyTenant s (BitVec.ofNat 9 x.1) 0 7 p.toNat else s
    endItem s x.2.1 x.2.2 0) (setPart s p fun q => { q with rings := keep })

/-- The first tenant with credit, searching upward from ptr and wrapping (R330). -/
def nextTenant (q : Partition) (ws : List Nat) : Option Nat :=
  let c := ws.filter fun t => decide (0 < mget 0 q.credit t)
  (c.find? fun t => decide (q.ptr ≤ t)).orElse fun _ => c.head?

/-- The head of a tenant's ring leaves it. -/
def popHead (s : State) (p : PartId) (t : Nat) : State := setPart s p fun q => { q with rings := mmod [] q.rings t (·.drop 1) }

/-- A prompt enters a slot (R212, R230, R254). -/
def fillSlot (s : State) (p : PartId) (i : Item) (n : Nat) (pages : List (Nat × Nat)) (left : Map (List Nat)) (v : Option Nat) : State :=
  match reqOf s i.handle with
  | none => s
  | some r =>
    let toks := promptOf r
    let b := r.block
    let (a, s) := match (partOf s p).prog with
      | some g => writeTables s p g n r.fn pages (kvPositions toks.length b.maxTokens b.specDepth)
      | none => (0, s)
    let g := if b.grammar = 0xFFFF then none else some b.grammar
    let start := ((g.bind fun k => mfind s.text.grammars k).map (·.start)).getD 0
    let x : SlotRec :=
      { state := .prefill, tenant := r.fn, request := i.handle, seq := BitVec.ofNat 4 i.index, promptLen := toks.length, len := toks.length
        specDepth := b.specDepth, adapter := v.map (BitVec.ofNat 12), grammar := g.map (BitVec.ofNat 8), gstate := BitVec.ofNat 20 start
        hardDeadline := b.hardDeadline, maxTokens := b.maxTokens, pages := a, toks := toks, pageList := pages
        order := (partOf s p).admitNext, sentTo := toks.length }
    let s := setPart s p fun q => { q with kvFree := left, admitNext := q.admitNext + 1 }
    let s := match v with
      | some k => setAdapter s k fun y => { y with refs := y.refs + 1 }
      | none => s
    let s := modReq (freePrompt s i.handle) i.handle fun r => { r with phase := .slot }
    setStreamRec (setSlotRec s p n fun _ => x) p n fun _ => { pos0 := toks.length }

/-- Admission uses one credit (R330). -/
def useCredit (s : State) (p : PartId) (t : Nat) : State :=
  setPart s p fun q =>
    let c := mget 0 q.credit t - 1
    { q with credit := mput 0 q.credit t c, ptr := if c = 0 then (t + 1) % 512 else t }

/-- The head item of tenant t judged: the state, and whether the tenant is passed over (R330). -/
def admitHead (s : State) (p : PartId) (g : Program) (t : Nat) (i : Item) : State × Bool :=
  match judge s p g i with
  | .stop st aux deny =>
    let s := match deny with
      | some (k, o, own) => denyTenant s (BitVec.ofNat 9 t) own k o
      | none => s
    (endItem (popHead s p t) i st aux, false)
  | .wait => (s, true)
  | .item => (useCredit (setStep (popHead s p t) p fun st => { st with items := st.items ++ [i] }) p t, false)
  | .slot n pages left v => (useCredit (fillSlot (popHead s p t) p i n pages left v) p t, false)

/-- admitItems() (R330): the iterations left, the tenants passed over. -/
def admitLoop (p : PartId) : Nat → List Nat → State → State
  | 0, _, s => s
  | k + 1, blocked, s =>
    let q := partOf s p
    match q.prog with
    | none => s
    | some g =>
      let ws := (q.rings.map (·.1)).filter fun t => decide (t ∉ blocked)
      if freePlaces q g = 0 ∨ ws = [] then s
      else match nextTenant q ws with
        | none =>
          let weight := fun t => (tenOf s (BitVec.ofNat 9 t)).weight.toNat
          if ws.all fun t => weight t = 0 then s
          else admitLoop p k blocked (setPart s p fun q => { q with credit := ws.foldl (fun c t => mput 0 c t (weight t)) q.credit })
        | some t =>
          let s := setPart s p fun q => { q with ptr := t }
          match (mget [] q.rings t).head? with
          | none => s
          | some i =>
            let r := admitHead s p g t i
            admitLoop p k (if r.2 then t :: blocked else blocked) r.1

/-- Iterations that admitItems() can take: every item, every tenant passed over, and the rounds between. -/
def admitFuel (q : Partition) : Nat := 3 * (q.rings.map fun l => l.2.length + 2).sum + 4

/-- Order 9's admission; none while a replacement waits for the work admitted (R323), or an activation drains (R435). -/
def admitItems (s : State) (p : PartId) : State :=
  let s := purgeRings s p
  if (partOf s p).replacing.isSome || s.host.fetchStopped then s else admitLoop p (admitFuel (partOf s p)) [] s

/-! ## The next step: chunks, draws, start (R213, R226, R231 order 10, R327) -/

/-- Slots in PREFILL in admission order. -/
def prefillOrder (q : Partition) : List Nat :=
  let l := q.slots.filter fun x => decide (x.2.state = .prefill)
  (l.mergeSort fun a b => decide (a.2.order ≤ b.2.order)).map (·.1)

/-- Chunks of the next step (R213). -/
def grantChunks (s : State) (p : PartId) : State :=
  match (partOf s p).prog with
  | none => s
  | some g =>
    ((prefillOrder (partOf s p)).foldl (fun (a : State × Nat) n =>
      let x := slotRec a.1 p n
      let c := min (x.promptLen - x.done) a.2
      (setSlotRec a.1 p n fun x => { x with chunk := c }, a.2 - c)) (s, g.prefillTokens)).1

/-- Draws that a slot needs in the next step (R226). -/
def drawsOf (s : State) (q : Partition) (x : SlotRec) : List (BitVec 64 × BitVec 32 × BitVec 32 × BitVec 16) :=
  match reqOf s x.request with
  | none => []
  | some r =>
    let final := decide (x.promptLen ≤ x.done + x.chunk)
    if greedy r.block || x.removed || !(x.state = .decode || (x.state = .prefill && final)) then []
    else
      let k := if x.state = .decode then depthOf q x else 0
      (List.range k ++ (List.range k).map (8 + ·) ++ [16]).map fun n => (r.block.seed, x.seq.setWidth 32, x.stepNo, BitVec.ofNat 16 n)

/-- Every draw of the next step is requested, through request tiles in the store (R226). -/
def requestDraws (s : State) (p : PartId) : State :=
  let q := partOf s p
  let ks := q.slots.flatMap fun x => drawsOf s q x.2
  let s := setPart s p fun q => { q with drawsAsked := ks, draws := [] }
  putRecords s (BitVec.ofNat 6 ((leadEngine q).val / 2)) (drawPlace q) (requestTiles p (q.committed + 1) ks)

/-- Engines that the next step names: a generator's step without prefill omits those its image frees (R326). -/
def usedEngines (q : Partition) : List Engine :=
  let pre := q.slots.any fun x => decide (x.2.state = .prefill ∧ 0 < x.2.chunk)
  match q.prog with
  | none => []
  | some g => (stepEngines q).filter fun e => pre || decide (g.kind ≠ .generator) || decide (e ∉ g.sec.lentFree)

/-- The other partition of a lent engine (R326). -/
def sharedWith (q : Partition) (e : Engine) : Option PartId :=
  q.prog.bind fun g =>
    if g.lend.getLsbD e.val then some (partId g.lendTo) else if g.borrow.getLsbD e.val then some (partId g.borrowFrom) else none

/-- A lent engine is free for the partition's next step: the other's step does not use it, the other does not wait for it after the partition
held it last, and the partition's context runs (R327, R328). -/
def lentReady (s : State) (p : PartId) (e : Engine) : Bool :=
  match sharedWith (partOf s p) e with
  | none => true
  | some r =>
    let o := partOf s r
    let x := engOf s e
    let names := decide (e ∈ usedEngines o)
    !(o.step.running && names) && !(o.step.waits && names && decide (x.lendHolder = some p)) && (runningShare x).any fun c => decide (c.part = p)

/-- An engine at the start of a step: the counts of the record start anew, and a new hold setting takes effect (R120, R345). -/
def startEngine (p : PartId) (s : State) (e : Engine) : State :=
  let shared := (sharedWith (partOf s p) e).isSome
  setEng s e fun x => {
    forgetTiles x p with
    raised := [], retrying := [], saturated := [], satRows := [], faults := 0, firstFault := none, badTile := none, dupTiles := [], retries := 0, crcChecked := 0
    holdGap := s.engines.holdGap, holdSlope := s.engines.holdSlope, lendHolder := if shared then some p else x.lendHolder }

/-- The pass of the stream plan for the step of an epoch: the stream may be at a later step's (R86). -/
def passOf (s : State) (p : PartId) (e : Epoch) : Nat := (streamOf s p).pass - ((streamOf s p).epoch.toNat - e.toNat)

/-- Each request that takes part in a step without the draft model carries NO_SPECULATION; one submitted with SPEC_DEPTH 0 does not (R223). -/
def markNoSpec (s : State) (p : PartId) : State :=
  let q := partOf s p
  if (mappingOf q).draft then s
  else (q.slots.filter fun x => takesPart x.2 && decide (0 < x.2.specDepth) && (x.2.state = .decode || decide (0 < x.2.chunk))).foldl
    (fun s x => modReq s x.2.request fun r => { r with flags := r.flags ||| flagNoSpeculation }) s

/-- Order 10: the next step starts, or waits for a lent engine (R327) or for one that takes no new work (R32). -/
def startStep (s : State) (p : PartId) : State :=
  let q := partOf s p
  if !holdsWork q then s
  else if !(usedEngines q).all (fun e => lentReady s p e && !notTaking s (engineBlock e)) then setStep s p fun st => { st with waits := true }
  else
    let s := (usedEngines q).foldl (startEngine p) (markNoSpec s p)
    setStep s p fun st => { running := true, epoch := q.committed + 1, pass := passOf s p (q.committed + 1), startAt := now s, startRate := partRate s q, items := st.items,
                            watchdog := q.watchdog, refresh := q.refresh, hotBudget := q.hotBudget
                            provisional := (s.pair.provisional.filter fun x => decide (x.part = p.toNat)).map fun x => (x.part, x.epoch) }

/-- Orders 9 and 10, and what a partition that runs no further step does instead (R55, R132, R324). -/
def openStep (s : State) (p : PartId) : State :=
  let s := switchMappings s p
  let q := partOf s p
  if q.state ≠ .running then s
  else if q.needReload || decide (0xFFFFFFF0 ≤ q.committed.toNat + 1) then endAll (setPart s p fun q => { q with needReload := true }) p .programMismatch
  else
    let s := grantChunks (admitItems s p) p
    startStep (requestDraws s p) p

/-! ## The commit (Table 9.4, Table 15.3) -/

/-- Counts of a committed step: engine steps, passed replays, the partition's and the module's steps (R332, R354, R356, R365). -/
def countStep (s : State) (p : PartId) (q : Partition) : State :=
  let s := (usedEngines q).foldl (fun s e => setEng s e fun x => { x with stepsRun := x.stepsRun + 1 }) s
  let s := q.step.prevSuspect.foldl (fun s e => setEng s e fun x => { x with cntReplays := x.cntReplays + 1 }) s
  let s := setPart s p fun x => { x with committed := q.step.epoch, steps := x.steps + 1 }
  { s with gen := { s.gen with stepCount := s.gen.stepCount + 1 } }

/-- Orders 2 to 8 for a step that commits, with the table work of R263, R265 and R267 after COMMIT_NOTICE. -/
def commitStep (s : State) (p : PartId) (lost : List Tenant) : State :=
  let q := partOf s p
  let e := q.step.epoch
  let unload := decide (q.state = .unloading)
  let s := markNoSpec (interference s q) p
  let s := judgeSlots s p
  let s := (slotNumbers q).foldl (applySlot p e.toNat) s
  let s := settleSent (commitNotice (broadcast s p e 0x08) p e) p e 0x41
  let s := countStep s p q
  let s := commitItems s p q.step unload
  let s := setPart s p fun q => { q with step := {}, draws := [], drawsAsked := [] }
  let s := writeAllMirrored s p
  let s := commitUpdates s q.step lost unload
  freeHotOld (migrateTables lost s p) p

/-- The results of every row that the step samples or scores are there. -/
def resultsIn (s : State) (q : Partition) : Bool :=
  !(q.slots.any fun x => samples q x.2)
    && q.step.items.all fun i => i.kind ≠ .input || (reqOf s i.handle).isNone || (outOf q.step i).isSome

/-- MATCHED of the step two before is held (R250). -/
def matchedIn (q : Partition) : Bool :=
  (q.prog.map (·.kind)) ≠ some .generator || decide (q.step.epoch.toNat ≤ q.matched.toNat + 2)

/-- Order 5 for a slot that R112 removed from a step that was given up. -/
def endRemoved (p : PartId) (s : State) (n : Nat) : State :=
  if (slotRec s p n).removed then endSlot s p n .error .programMismatch else s

/-- A boundary with no step in progress: slots judged, table work done, then orders 9 and 10. -/
def idleBoundary (s : State) (p : PartId) (lost : List Tenant) : State :=
  let q := partOf s p
  let s := judgeSlots s p
  let s := (slotNumbers q).foldl (endRemoved p) s
  let s := if q.state = .unloading then commitItems s p q.step true else s
  let s := freeHotOld (migrateTables lost (writeAllMirrored s p) p) p
  openStep s p

/-- A WB write of the partition's step still waits at its channel unit: write-through comes before commit (R67, Table 4.3). -/
def writesWait (s : State) (p : PartId) : Bool := s.tier.waiting.any fun w => decide (w.rq.part = p.setWidth 6)

/-- A retracted input of the partition's step whose resend has not come, while the link can carry it (R360, R372). -/
def awaitsResend (s : State) (p : PartId) : Bool :=
  let q := partOf s p
  q.step.retracted && linkLive s && s.pair.provisional.any fun x =>
    x.link && decide ((x.part, x.epoch) ∈ q.step.provisional) && inShare q x.tile && decide ((slotOf s x.tile).hdr.state = .free)

/-- STEP_BOUNDARY (R231, R346, R349): lost names tenants whose lease swap for a solo commit fails at it. -/
def stepBoundary (s : State) (p : PartId) (lost : List Tenant) : State :=
  let q := partOf s p
  match q.state with
  | .empty => s
  | .loading => s
  | .failed => s
  | .paused =>
    if q.pauseFor.isSome then s else idleBoundary (setPart s p fun q => { q with state := .running }) p lost
  | _ =>
    if !q.step.running then idleBoundary s p lost
    else if !recordsIn q (usedEngines q) && !q.needReload then s
    else if stepFails q then if awaitsResend s p then s else failStep s p false []
    else if q.step.provisional ≠ [] || !resultsIn s q || !matchedIn q || writesWait s p then s
    else openStep (commitStep s p lost) p

def execStepBoundary (p : PartId) (lost : List Tenant) (s : State) : Out := .next (stepBoundary s p lost)

/-! ## Context switch (R328, Table 14.7) -/

/-- The seal: a live row of the context whose residue does not agree with its value (R114). -/
def sealFault (x : EngineState) (sh : Share) : Option (BitVec 16) :=
  (x.acc.find? fun c => decide (c.1 / 512 ∈ x.live) && inRows sh (c.1 / 512) 1
    && decide (c.2.residue ≠ (cellOf c.2.value c.2.ovf c.2.special).residue)).map fun c => BitVec.ofNat 16 (c.1 % 512)

/-- The partition borrows the engine. -/
def borrows (s : State) (p : PartId) (e : Engine) : Bool := (partOf s p).prog.any fun g => g.borrow.getLsbD e.val

/-- ENGINE_CONTEXT_SWITCH (R328): while the outgoing step runs on the engine, its work is sealed; once it has committed, the bounds, partition
and world of the incoming context are loaded. -/
def contextSwitch (s : State) (e : Engine) (lend : Bool) : State :=
  let x := engOf s e
  match runningShare x, (if x.running then x.ctx0 else x.ctx1) with
  | some out, some inc =>
    if borrows s inc.part e ≠ lend then s
    else if (partOf s out.part).step.running && decide (e ∈ usedEngines (partOf s out.part)) then
      match sealFault x out with
      | some u => noteFault s e (0x06, u)
      | none => s
    else setEng s e fun x => { x with running := !x.running, stopped := (partOf s inc.part).needReload }
  | _, _ => s

def execEngineContextSwitch (e : Engine) (lend : Bool) (s : State) : Out := .next (contextSwitch s e lend)

end Sys2Proof.Machine
end

