-- ==== Sys2Proof/Machine/Operands.lean ====
section
/-! DEFINITION. Operand forms of descriptors (chapter 13): opcodes, descriptor fields, parameter and result regions, the CXL.mem window as a
region, turn blocks and the other parameter blocks, each with its checks (R290 to R303). -/

namespace Sys2Proof.Machine

/-! ## Opcodes (Table 13.2) -/

def Opcode.ofByte (b : Nat) : Option Opcode :=
  match b with
  | 0x00 => some .nop | 0x01 => some .turn | 0x02 => some .textAppend | 0x03 => some .embed | 0x04 => some .search
  | 0x05 => some .rerank | 0x06 => some .generate | 0x07 => some .tokenize | 0x08 => some .detokenize
  | 0x10 => some .indexInsert | 0x11 => some .indexDelete | 0x12 => some .rowLookup | 0x13 => some .rowUpdate
  | 0x20 => some .loadExtent | 0x21 => some .adapterLoad | 0x22 => some .grammarLoad | 0x23 => some .programLoad
  | 0x30 => some .cancel | 0x31 => some .fence
  | _ => none

/-- The opcodes that a CANCEL acts on (R313). -/
def cancellable : Opcode → Bool
  | .turn | .embed | .search | .rerank | .generate | .tokenize | .detokenize | .rowLookup | .nop => true
  | .textAppend | .fence | .cancel | .indexInsert | .indexDelete | .rowUpdate | .loadExtent | .adapterLoad | .grammarLoad
  | .programLoad => false

/-- What a descriptor's fields may hold by opcode (Tables 13.2 and 13.3). -/
structure OpForm where
  flags : Nat := 0
  argA : Nat := 0
  argC : Bool := false
  param : Bool := false
  result : Bool := false
deriving DecidableEq, Repr

def opForm : Opcode → OpForm
  | .nop => {}
  | .turn => { param := true }
  | .textAppend => { flags := 1, argC := true, param := true }
  | .embed => { flags := 1, argA := 0x1F, param := true, result := true }
  | .search => { param := true, result := true }
  | .rerank => { argA := 0xFF1F, param := true, result := true }
  | .generate => { param := true }
  | .tokenize => { flags := 1, argA := 3, param := true, result := true }
  | .detokenize => { flags := 1, argA := 3, param := true, result := true }
  | .indexInsert => { flags := 1, argA := 0x1FFFF, param := true, result := true }
  | .indexDelete => { argA := 0x1FFFF, param := true }
  | .rowLookup => { flags := 3, argA := 0x3F, param := true, result := true }
  | .rowUpdate => { argA := 0x1FF3F, argC := true, param := true }
  | .loadExtent => { argA := 0x1FFF, argC := true, param := true }
  | .adapterLoad => { argA := 0x1FFFFF, param := true }
  | .grammarLoad => { argA := 0xFF, argC := true }
  | .programLoad => { argA := 0x1F, argC := true }
  | .cancel => { argC := true }
  | .fence => { flags := 1 }

/-! ## Regions (R273, R274, R291, R85) -/

/-- The address names the CXL.mem window (R291). -/
def inWindow (a : BitVec 64) : Bool := a.getLsbD 63

/-- Byte offset within the window (R291). -/
def windowOff (a : BitVec 64) : Nat := a.toNat % 2 ^ 38

/-- An address of a region: aligned, with bits [62:38] zero when it names the window (R291). -/
def regionAddr (a : BitVec 64) (align : Nat) : Bool :=
  decide (a.toNat % align = 0) && (!inWindow a || decide (bits a.toNat 62 38 = 0))

/-- Bytes of the window as the host sees it: none while it is rebuilt (R470) and none at 32 GT/s (R269). -/
def windowBytes (s : State) : Nat :=
  if s.tier.windowPending.isSome || decide (s.host.linkGts = 32) then 0 else s.tier.windowSize.toNat * 2 ^ 30

/-- L tile that holds the window's byte 0: the window lies at the highest L extents (R83). -/
def windowTile0 (s : State) : Nat := 128 * (Config.tierLExtents - 512 * s.tier.windowSize.toNat)

/-- Window bytes read (R85): no tile CRC covers them. -/
def windowRead (s : State) (off len : Nat) : Bytes :=
  let first := off / 16384
  let count := (off + len + 16383) / 16384 - first
  slice ((List.range count).flatMap fun i => pad 16384 (lTile s (windowTile0 s + first + i)).payload) (off % 16384) len

/-- Window bytes written within one tile. -/
def windowPut (s : State) (off : Nat) (data : Bytes) : State :=
  let n := windowTile0 s + off / 16384
  let t := lTile s n
  { s with tier := { s.tier with lmem := mput {} s.tier.lmem n { t with payload := splice (pad 16384 t.payload) (off % 16384) data } } }

/-- Bytes a result may occupy: RESULT_LEN, less the ready word in the window (R291). -/
def resultRoom (d : Descriptor) : Nat := if inWindow d.resultAddr then d.resultLen.toNat - 8 else d.resultLen.toNat

/-- The tiles that the host die forms from window bytes that a descriptor names: it is their producer and computes their CRCs (R42, R85). -/
def windowTiles (s : State) (tn : Tenant) (off len : Nat) : List Tile := rawTiles tn (windowRead s off len)

/-- The parameter region's bytes: host bytes, or window bytes, which the data plane reads from the tiles formed of them (R85). -/
def paramBytes (s : State) (d : Descriptor) (v : HostView) : Bytes :=
  if inWindow d.paramAddr then ((windowTiles s 0 (windowOff d.paramAddr) d.paramLen.toNat).flatMap (·.payload)).take d.paramLen.toNat
  else pad d.paramLen.toNat v.param

/-- GiB numbers of the window that a region touches. -/
def regionGibs (a : BitVec 64) (len : Nat) : List Nat :=
  if inWindow a && decide (0 < len) then
    (List.range (len / 2 ^ 30 + 2)).map (fun i => windowOff a / 2 ^ 30 + i) |>.filter fun g => decide (g * 2 ^ 30 < windowOff a + len)
  else []

/-- Order 4 of Table 13.4 for one region: it translates with the access needed, or lies within the window. -/
def regionMaps (s : State) (a : BitVec 64) (len : Nat) (host : Bool) : Bool :=
  decide (len = 0) || (if inWindow a then decide (windowOff a + len ≤ windowBytes s) else host)

/-! ## Field checks (orders 1 to 3 of Table 13.4) -/

/-- The lowest offset whose check fails (R293). -/
def firstBad (l : List (Nat × Bool)) : Option Nat := ((l.filter fun x => !x.2).map (·.1)).min?

/-- ARG_A names index n, table n, or items within range (Table 13.3). -/
def argARange (s : State) (op : Opcode) (a : Nat) : Bool :=
  match op with
  | .indexInsert | .indexDelete => decide (1 ≤ a / 256 ∧ a / 256 ≤ 256) && (indexOf s (a % 256)).isSome
  | .rerank => (indexOf s (a / 256)).isSome
  | .rowLookup => (tableOf s a).isSome
  | .rowUpdate => decide (1 ≤ a / 256 ∧ a / 256 ≤ 256) && (tableOf s (a % 64)).isSome
  | .loadExtent => decide (1 ≤ a ∧ a ≤ 4096)
  | .adapterLoad => decide (a % 65536 ≠ 0xFFFF)
  | _ => true

/-- PARAM_LEN of an opcode with a parameter region (R295): what Table 13.3 and the items' sizes imply. -/
def paramLenOk (s : State) (op : Opcode) (d : Descriptor) : Bool :=
  let n := d.paramLen.toNat
  let a := d.argA.toNat
  let flag := d.opflags.getLsbD 0
  match op with
  | .textAppend => decide (1 ≤ n ∧ n ≤ 65536)
  | .turn | .generate | .search => decide (256 ≤ n ∧ n ≤ 131072 ∧ n % 8 = 0)
  | .embed => decide (0 < n) && (!flag || decide (n % 4 = 0))
  | .tokenize => decide (0 < n)
  | .detokenize => decide (0 < n ∧ n % 4 = 0)
  | .rerank => decide (8 ≤ n)
  | .indexInsert =>
    if flag then decide (n = 8 * (a / 256))
    else match indexOf s (a % 256) with
      | some r => decide (n = (a / 256) * (2064 + 4 * r.dim))
      | none => true
  | .indexDelete => decide (n = 8 * (a / 256))
  | .rowLookup =>
    decide (4 ≤ n ∧ n ≤ 262144 ∧ n % 4 = 0) && (!d.opflags.getLsbD 1 || decide (d.argB = 0) || decide (n / 4 % d.argB.toNat = 0))
  | .rowUpdate =>
    match tableOf s (a % 64) with
    | some r => decide (n = (a / 256) * (8 + 4 * r.cols))
    | none => true
  | .loadExtent => decide (n = 16416 * a)
  | .adapterLoad => decide (0 < n ∧ n % 16416 = 0)
  | _ => decide (n = 0)

/-- ARG_C of an opcode that uses it: a device-range address for the loads. -/
def argCRange (op : Opcode) (c : Nat) : Bool :=
  match op with
  | .loadExtent => decide (c < 2 ^ 48 ∧ c % 16384 = 0)
  | .grammarLoad | .programLoad => decide (c < 2 ^ 48)
  | _ => true

/-- The descriptor's fields in byte order with their checks (order 3 of Table 13.4). -/
def fieldChecks (s : State) (op : Opcode) (d : Descriptor) : List (Nat × Bool) :=
  let f := opForm op
  let sum := decide (op = .rowLookup) && d.opflags.getLsbD 1
  [(1, decide (d.opflags.toNat &&& (255 - f.flags) = 0)), (2, decide (d.rsvd = 0)),
   (16, if f.param then regionAddr d.paramAddr 8 else decide (d.paramAddr = 0)),
   (24, if f.param then paramLenOk s op d else decide (d.paramLen = 0)),
   (28, decide (d.argA.toNat &&& (0xFFFFFFFF - f.argA) = 0) && argARange s op d.argA.toNat),
   (32, if f.result then regionAddr d.resultAddr 64 && (decide (d.resultAddr ≠ 0) || decide (d.resultLen = 0)) else decide (d.resultAddr = 0)),
   (40, if f.result then !inWindow d.resultAddr || decide (8 ≤ d.resultLen.toNat ∧ d.resultLen.toNat % 8 = 0) else decide (d.resultLen = 0)),
   (44, if sum then decide (1 ≤ d.argB.toNat ∧ d.argB.toNat ≤ 256) else decide (d.argB = 0)),
   (48, if f.argC then argCRange op d.argC.toNat else decide (d.argC = 0)), (56, decide (d.argD = 0))]

/-! ## Turn blocks (R297 to R299, Table 13.5) -/

/-- A turn block's fixed part read. -/
def blockFixed (p : Bytes) : TurnBlock :=
  let w := fun off => w32 (rd p off 4)
  { relDeadline := bit (rd p 2 2) 0
    noRetrieval := bit (rd p 2 2) 1
    embedPart := rd p 8 1
    rerankPart := rd p 9 1
    genPart := rd p 10 1
    index := rd p 11 1
    template := rd p 12 1
    beam := rd p 13 1
    nprobe := rd p 14 1
    nprobeMin := rd p 15 1
    candidates := rd p 16 2
    rerankMin := rd p 18 2
    readBudget := if rd p 20 4 = 0 then 2000 else rd p 20 4
    softDeadline := rd p 24 8
    firstDeadline := rd p 32 8
    hardDeadline := rd p 40 8
    textBuf := BitVec.ofNat 64 (rd p 48 8)
    textSize := rd p 56 4
    idBuf := BitVec.ofNat 64 (rd p 64 8)
    reportBuf := BitVec.ofNat 64 (rd p 72 8)
    reportSize := rd p 80 4
    filterOff := rd p 84 4
    temperature := w 112
    topP := w 116
    minP := w 120
    rep := w 124
    presence := w 128
    frequency := w 132
    topK := rd p 136 2
    specDepth := rd p 138 1
    penaltyScope := bit (rd p 139 1) 0
    maxTokens := rd p 140 4
    seed := BitVec.ofNat 64 (rd p 144 8)
    adapter := rd p 152 2
    grammar := rd p 154 2
    stopIds := (List.range (min 16 (rd p 101 1))).map fun i => rd p (160 + 4 * i) 4
    inputOff := rd p 224 4
    nSeq := max 1 (rd p 232 1) }

/-- A history entry at an offset: its ids and the bytes it takes; the entries left (R298). -/
def historyFrom (p : Bytes) : Nat → Nat → List (Nat × List Nat)
  | 0, _ => []
  | k + 1, off =>
    let c := min (rd p off 4) 32768
    let size := 8 + (4 * c + 7) / 8 * 8
    (off, (List.range c).map fun i => rd p (off + 8 + 4 * i) 4) :: (if off + size ≤ p.length then historyFrom p k (off + size) else [])

/-- Bytes of the history section. -/
def historyBytes (l : List (Nat × List Nat)) : Nat := (l.map fun e => 8 + (4 * e.2.length + 7) / 8 * 8).sum

/-- Sections of a block: start, length, alignment and the offset of the field that names them. -/
def blockSections (p : Bytes) (hist : List (Nat × List Nat)) : List (Nat × Nat × Nat × Nat) :=
  (if rd p 84 4 = 0 then [] else [(rd p 84 4, 528, 16, 84)])
    ++ (if rd p 92 2 = 0 then [] else [(rd p 88 4, historyBytes hist, 8, 88)])
    ++ (if rd p 100 1 = 0 then [] else [(rd p 96 4, 72 * rd p 100 1, 8, 96)])
    ++ (if rd p 102 1 = 0 then [] else [(rd p 104 4, 8 * rd p 102 1, 8, 104)])
    ++ (if rd p 228 4 = 0 then [] else [(rd p 224 4, rd p 228 4, 8, 224)])

/-- A section that meets a section named by an earlier field. -/
def sectionMeets (l : List (Nat × Nat × Nat × Nat)) (x : Nat × Nat × Nat × Nat) : Bool :=
  l.any fun y => decide (y.2.2.2 < x.2.2.2 ∧ x.1 < y.1 + y.2.1 ∧ y.1 < x.1 + x.2.1)

/-- Each section lies within BLOCK_LEN behind the fixed part, aligned, and meets no other; an absent one has offset 0 (R298). -/
def sectionChecks (p : Bytes) (hist : List (Nat × List Nat)) : List (Nat × Bool) :=
  let l := blockSections p hist
  [(88, decide (rd p 92 2 ≠ 0 ∨ rd p 88 4 = 0)), (96, decide (rd p 100 1 ≠ 0 ∨ rd p 96 4 = 0)),
   (104, decide (rd p 102 1 ≠ 0 ∨ rd p 104 4 = 0)), (224, decide (rd p 228 4 ≠ 0 ∨ rd p 224 4 = 0))]
    ++ l.map fun x => (x.2.2.2, decide (256 ≤ x.1 ∧ x.1 % x.2.2.1 = 0 ∧ x.1 + x.2.1 ≤ p.length) && !sectionMeets l x)

/-- All bytes of a range are zero. -/
def zeroBytes (p : Bytes) (off len : Nat) : Bool := (slice p off len).all fun b => decide (b = 0)

/-- Contents of the history section: counts, reserved bytes, padding; ids below the vocabulary of the template's set (R298). -/
def historyChecks (p : Bytes) (hist : List (Nat × List Nat)) (vocab : Option Nat) : List (Nat × Bool) :=
  hist.flatMap fun e =>
    let c := rd p e.1 4
    [(e.1, decide (1 ≤ c ∧ c ≤ 32768)), (e.1 + 4, zeroBytes p (e.1 + 4) 4),
     (e.1 + 8 + 4 * e.2.length, decide (e.2.length % 2 = 0) || zeroBytes p (e.1 + 8 + 4 * e.2.length) 4)]
    ++ match vocab with
      | some v => ((List.range e.2.length).zip e.2).map fun x => (e.1 + 8 + 4 * x.1, decide (x.2 < v))
      | none => []

/-- Contents of the stop-string section (R298). -/
def stopChecks (p : Bytes) : List (Nat × Bool) :=
  (List.range (min 8 (rd p 100 1))).flatMap fun i =>
    let o := rd p 96 4 + 72 * i
    let n := min 64 (rd p o 1)
    [(o, decide (1 ≤ rd p o 1 ∧ rd p o 1 ≤ 64)), (o + 1, zeroBytes p (o + 1) 7), (o + 8 + n, zeroBytes p (o + 8 + n) (64 - n))]

/-- Ids of STOP_IDS and the bias section below the vocabulary of GEN_PART's program (R298). -/
def idChecks (p : Bytes) (vocab : Nat) : List (Nat × Bool) :=
  ((List.range (min 16 (rd p 101 1))).map fun i => (160 + 4 * i, decide (rd p (160 + 4 * i) 4 < vocab)))
    ++ (List.range (min 64 (rd p 102 1))).map fun i => (rd p 104 4 + 8 * i, decide (rd p (rd p 104 4 + 8 * i) 4 < vocab))

/-- Ranges of the retrieval fields (Table 13.5). -/
def retrievalChecks (p : Bytes) : List (Nat × Bool) :=
  let beam := rd p 13 1
  let np := rd p 14 1
  let cand := rd p 16 2
  let rb := rd p 20 4
  [(13, decide (beam ≤ 64)), (14, decide (1 ≤ np ∧ np ≤ (if beam = 0 then 64 else beam))), (15, decide (1 ≤ rd p 15 1 ∧ rd p 15 1 ≤ np)),
   (16, decide (1 ≤ cand ∧ cand ≤ 1024)), (18, decide (1 ≤ rd p 18 2 ∧ rd p 18 2 ≤ cand)),
   (20, decide (rb = 0 ∨ (500 ≤ rb ∧ rb ≤ 50000)))]

/-- Fields that must be zero, by offset and length. -/
def zeroChecks (p : Bytes) (l : List (Nat × Nat)) : List (Nat × Bool) := l.map fun x => (x.1, decide (rd p x.1 x.2 = 0))

/-- The retrieval fields (R299). -/
def retrievalFields : List (Nat × Nat) := [(11, 1), (13, 1), (14, 1), (15, 1), (16, 2), (18, 2), (20, 4), (24, 8), (84, 4)]

/-- The generation and packing fields that a SEARCH leaves zero (R299). -/
def searchZeros : List (Nat × Nat) :=
  [(10, 1), (12, 1), (48, 8), (56, 4), (64, 8), (72, 8), (80, 4), (92, 2), (100, 1), (101, 1), (102, 1), (112, 4), (116, 4), (120, 4),
   (124, 4), (128, 4), (132, 4), (136, 2), (138, 1), (139, 1), (140, 4), (144, 8)]

/-- Order 5 of Table 13.4 on a turn block, apart from what other objects decide: the fields in range (R297 to R299). -/
def blockChecks (op : Opcode) (p : Bytes) : List (Nat × Bool) :=
  let noRet := bit (rd p 2 2) 1
  let retrieves := decide (op = .search) || (decide (op = .turn) && !noRet)
  [(0, decide (rd p 0 2 = 1)), (2, decide (rd p 2 2 < 4)), (4, decide (rd p 4 4 = p.length)), (8, decide (rd p 8 1 ≤ 31)),
   (9, decide (rd p 9 1 ≤ 31 ∨ rd p 9 1 = 0xFF)), (10, decide (rd p 10 1 ≤ 31))]
    ++ (if retrieves then retrievalChecks p else zeroChecks p retrievalFields)
    ++ [(24, decide (rd p 24 8 < 2 ^ 48)), (32, decide (rd p 32 8 < 2 ^ 48)), (40, decide (rd p 40 8 < 2 ^ 48)),
        (48, decide (rd p 48 8 < 2 ^ 63)), (64, decide (rd p 64 8 < 2 ^ 63)), (72, decide (rd p 72 8 < 2 ^ 63)),
        (92, decide (rd p 92 2 ≤ 256)), (100, decide (rd p 100 1 ≤ 8)), (101, decide (rd p 101 1 ≤ 16)), (102, decide (rd p 102 1 ≤ 64)),
        (139, decide (rd p 139 1 < 2)), (154, decide (rd p 154 2 ≤ 255 ∨ rd p 154 2 = 0xFFFF)), (232, decide (rd p 232 1 ≤ 16))]
    ++ zeroChecks p [(60, 4), (94, 2), (103, 1), (108, 4), (156, 4), (233, 23)]
    ++ ((List.range 16).map fun i => (160 + 4 * i, decide (i < rd p 101 1 ∨ rd p (160 + 4 * i) 4 = 0)))
    ++ (match op with
      | .search => zeroChecks p searchZeros ++ [(152, decide (rd p 152 2 = 0xFFFF)), (154, decide (rd p 154 2 = 0xFFFF)),
          (232, decide (rd p 232 1 ≤ 1))]
      | _ => [(56, decide (384 * rd p 140 4 ≤ rd p 56 4)), (140, decide (1 ≤ rd p 140 4 ∧ rd p 140 4 ≤ 65535))]
          ++ (if op = .generate then zeroChecks p [(12, 1), (72, 8), (80, 4), (92, 2)] ++ [(228, decide (0 < rd p 228 4 ∧ rd p 228 4 % 4 = 0))]
              else [(232, decide (rd p 232 1 ≤ 1))]))

/-- The block with its sections read out. -/
def readBlock (p : Bytes) : TurnBlock :=
  let b := blockFixed p
  { b with
    filter := if b.filterOff = 0 then none else some (slice p b.filterOff 528)
    history := (historyFrom p (min 256 (rd p 92 2)) (rd p 88 4)).map (·.2)
    stops := (List.range (min 8 (rd p 100 1))).map fun i => slice p (rd p 96 4 + 72 * i + 8) (min 64 (rd p (rd p 96 4 + 72 * i) 1))
    bias := (List.range (min 64 (rd p 102 1))).map fun i => (rd p (rd p 104 4 + 8 * i) 4, w32 (rd p (rd p 104 4 + 8 * i + 4) 4))
    input := slice p b.inputOff (rd p 228 4) }

/-! ## Programs and objects that a block names -/

/-- The loaded program of a partition, where it is of a kind. -/
def progKind (s : State) (n : Nat) (k : ProgKind) : Option Program := (progOf s n).filter fun g => decide (g.kind = k)

/-- The vocabulary of a tokenizer set that is installed. -/
def installedVocab (s : State) (k : Nat) : Option Nat :=
  if (setOf s (BitVec.ofNat 2 k)).state = .installed then some (setVocab s (BitVec.ofNat 2 k)) else none

/-- Order 5 of Table 13.4 for a turn block (R167, R171, R297 to R299). -/
def turnBlockChecks (s : State) (fn : Tenant) (op : Opcode) (p : Bytes) : List (Nat × Bool) :=
  let b := blockFixed p
  let retrieves := decide (op = .search) || (decide (op = .turn) && !b.noRetrieval)
  let hist := if rd p 92 2 = 0 then [] else historyFrom p (min 256 (rd p 92 2)) (rd p 88 4)
  let tpl := if op = .turn then readTemplate s fn b.template else none
  let gen := if op = .search then none else progKind s b.genPart .generator
  blockChecks op p ++ sectionChecks p hist ++ historyChecks p hist (tpl.bind fun t => installedVocab s (tplSet t)) ++ stopChecks p
    ++ (match gen with
      | some g => idChecks p g.vocab
          ++ (if op = .generate then [(228, decide (rd p 228 4 ≤ 4 * g.maxContext))]
              ++ (List.range (rd p 228 4 / 4)).map fun i => (b.inputOff + 4 * i, decide (rd p (b.inputOff + 4 * i) 4 < g.vocab)) else [])
      | none => [])
    ++ (match tpl with
      | some t => [(80, decide (32 + 32 * tplMaxPassages t ≤ b.reportSize))]
      | none => [])
    ++ (if retrieves then
        match indexOf s b.index with
        | none => [(11, false)]
        | some r =>
          [(14, decide (b.beam ≠ 0 ∨ b.nprobe ≤ r.beam))]
            ++ (if op = .search then [(228, decide (rd p 228 4 = 4 * r.dim))]
                else match progKind s b.embedPart .encoder with
                  | some g => [(11, decide (g.dim = r.dim))]
                  | none => [])
            ++ (if b.filterOff = 0 then [] else match filterBad (slice p b.filterOff 528) with
                | some o => [(b.filterOff + o, false)]
                | none => [])
      else [])

/-! ## Re-rank blocks (R300) -/

/-- Offset of the passage ids of a re-rank block. -/
def pidOff (p : Bytes) : Nat := (8 + 4 * rd p 0 4 + 7) / 8 * 8

/-- The re-rank block's checks: an offending offset within the region, or PARAM_LEN. -/
def rerankBlockBad (vocab : Option Nat) (p : Bytes) : Option Nat :=
  let qc := rd p 0 4
  let pc := rd p 4 4
  if qc = 0 ∨ 1024 < qc then some 0x10000
  else if pc = 0 ∨ 1024 < pc then some 0x10004
  else if p.length ≠ pidOff p + 8 * pc then some 24
  else (firstBad (((List.range qc).map fun i => (8 + 4 * i, vocab.all fun v => decide (rd p (8 + 4 * i) 4 < v)))
    ++ [(8 + 4 * qc, zeroBytes p (8 + 4 * qc) (pidOff p - (8 + 4 * qc)))]
    ++ (List.range pc).map fun i => (pidOff p + 8 * i, decide (rd p (pidOff p + 8 * i) 8 < 2 ^ 40)))).map (· + 0x10000)

/-! ## Items (R301, R302, Table 13.6) -/

/-- Insert items: ATTR's tenant, BLOCK_LEN, reserved bytes, and bytes beyond the image. -/
def insertChecks (tn : Tenant) (dim items : Nat) (p : Bytes) : List (Nat × Bool) :=
  (List.range items).flatMap fun i =>
    let o := i * (2064 + 4 * dim)
    let n := rd p (o + 8) 2
    [(o, decide (rd p o 8 % 512 = tn.toNat)), (o + 8, decide (64 ≤ n ∧ n ≤ 2048)), (o + 10, zeroBytes p (o + 10) 6),
     (o + 16 + 4 * dim + min n 2048, zeroBytes p (o + 16 + 4 * dim + min n 2048) (2048 - n))]

/-- Patch items: both centroids exist, the replacement is live, and no centroid replaces itself (R188, R301). -/
def patchChecks (s : State) (r : IndexRec) (items : Nat) (p : Bytes) : List (Nat × Bool) :=
  (List.range items).flatMap fun i =>
    let old := rd p (8 * i) 4
    let new := rd p (8 * i + 4) 4
    [(8 * i, decide (old < r.centroids)),
     (8 * i + 4, decide (new < r.centroids ∧ new ≠ old) && decide ((centRecord s r new).1 = 0))]

/-- Delete items: passage ids of 40 bits. -/
def deleteChecks (items : Nat) (p : Bytes) : List (Nat × Bool) :=
  (List.range items).map fun i => (8 * i, decide (rd p (8 * i) 8 < 2 ^ 40))

/-- Update items: OP and reserved bytes. -/
def updateChecks (cols items : Nat) (p : Bytes) : List (Nat × Bool) :=
  (List.range items).flatMap fun i =>
    let o := i * (8 + 4 * cols)
    [(o + 4, decide (rd p (o + 4) 1 < 2)), (o + 5, zeroBytes p (o + 5) 3)]

end Sys2Proof.Machine
end

