-- ==== Sys2Proof/Machine/Accept.lean ====
section
/-! DEFINITION. Acceptance of a fetched descriptor: the order of checks of Table 13.4, and what a failed check does (R292, R293, R317, R339). -/

namespace Sys2Proof.Machine

/-- A failed check: the status, AUX, and for an access refusal the object's kind, number and tenant (R293, R339). -/
structure Reject where
  st : Status
  aux : Nat := 0
  deny : Option (Nat × Nat × Option Tenant) := none
deriving DecidableEq, Repr

def badAt (off : Nat) : Reject := { st := .badDescriptor, aux := off }
def noRoom : Reject := { st := .noResources }

/-- The event and the counter of a refusal (R339); a partition has no tenant of its own, so what the event names is a free value. -/
def denyEvent (s : State) (tn : Tenant) (st : Status) (x : Nat × Nat × Option Tenant) : State :=
  match st with
  | .accessWorld => countTenant (logEvent s (.accessWorld 0x3C 0 x.1 x.2.1 0xFF 0)) tn 2 1
  | _ =>
    match x.2.2 with
    | some t => denyTenant s tn t x.1 x.2.1
    | none => let (w, s) := drawFree s; denyTenant s tn (w.setWidth 9) x.1 x.2.1

/-- Request h ends with the check's outcome; nothing is written to its result region (R293). -/
def applyReject (s : State) (h : Nat) (x : Reject) : State :=
  match reqOf s h with
  | none => s
  | some r =>
    let s := match x.deny with
      | some d => denyEvent s r.fn x.st d
      | none => s
    finishPlain s h x.st (w32 x.aux)

/-- The first check that fails decides (R293). -/
def checked (s : State) (h : Nat) (l : List (Option Reject)) (go : State → State) : State :=
  match l.findSome? id with
  | some x => applyReject s h x
  | none => go s

/-- A condition, and the outcome when it does not hold. -/
def require (c : Bool) (x : Reject) : Option Reject := if c then none else some x

/-! ## Order 6: worlds and tenants -/

/-- Objects that a descriptor names (Table 13.4 order 6). -/
inductive Named where
  | part (n : Nat)
  | index (n : Nat)
  | table (n : Nat)
  | grammar (n : Nat)
  | adapter (p n : Nat)
  | extent (x : Nat)
  | gib (g : Nat)
deriving DecidableEq, Repr

/-- The object is secure: the host's functions are non-secure requesters. -/
def namedWorld (s : State) : Named → Option Reject
  | .index n => if (indexOf s n).any (·.world) then some { st := .accessWorld, deny := some (3, n, none) } else none
  | .table n => if (tableOf s n).any (·.world) then some { st := .accessWorld, deny := some (4, n, none) } else none
  | .grammar n => if (mfind s.text.grammars n).any (·.world) then some { st := .accessWorld, deny := some (6, n, none) } else none
  | .extent x => if (entryOf s x).any (·.world) then some { st := .accessWorld, deny := some (2, x, none) } else none
  | _ => none

/-- A mismatch of the object's tenant with the requester's. -/
def otherTenant (kind n : Nat) (tn : Tenant) : Option Tenant → Option Reject
  | some t => if t = tn then none else some { st := .accessTenant, deny := some (kind, n, some t) }
  | none => none

/-- The object is another tenant's, or a partition that the tenant may not use (R317). -/
def namedTenant (s : State) (tn : Tenant) : Named → Option Reject
  | .part n => if (tenOf s tn).serve.getLsbD n then none else some { st := .accessTenant, deny := some (7, n, none) }
  | .index n => otherTenant 3 n tn ((indexOf s n).map (·.tenant))
  | .table n => otherTenant 4 n tn ((tableOf s n).map (·.tenant))
  | .grammar n => otherTenant 6 n tn ((mfind s.text.grammars n).map (·.tenant))
  | .adapter p n => otherTenant 5 n tn ((newestVersion s (partId p) n).map (·.2.tenant))
  | .extent x => otherTenant 2 x tn ((entryOf s x).map (·.tenant))
  | .gib g => otherTenant 8 g tn (some (mget 0 s.tier.windowTenant g))

/-- Order 6: every world check, then every tenant check. -/
def accessChecks (s : State) (tn : Tenant) (l : List Named) : List (Option Reject) :=
  l.map (namedWorld s) ++ l.map (namedTenant s tn)

/-- Window GiB that a descriptor's regions name. -/
def gibsOf (d : Descriptor) : List Named :=
  (regionGibs d.paramAddr d.paramLen.toNat ++ regionGibs d.resultAddr d.resultLen.toNat).map .gib

/-! ## Orders 7 and 8 -/

/-- The tenant is under full resynchronisation: its turns, lookups and mutations end NO_RESOURCES (Table 16.6). -/
def resyncing (s : State) (tn : Tenant) : Bool := s.pair.enable && (leaseOf s tn).resync

/-- Order 8 for work that needs admission: a WEIGHT, and no full resynchronisation (R317, Table 16.6). -/
def mayAdmit (s : State) (tn : Tenant) : Option Reject :=
  require (decide ((tenOf s tn).weight ≠ 0) && !resyncing s tn) noRoom

/-- The partition takes work of a program kind: it is loaded, or being loaded (Table 14.2); none asks for any kind. -/
def takesWork (s : State) (p : Nat) (k : Option ProgKind) : Option Reject :=
  let q := partOf s (partId p)
  let live := q.state = .running || q.state = .paused || q.state = .loading
  require (live && (match q.prog, k with
    | some g, some k => decide (g.kind = k)
    | some _, none => true
    | none, _ => decide (q.state = .loading))) noRoom

/-! ## Orders 1 to 4 and 5's read (R292, R293) -/

/-- TAG is non-zero and no descriptor of the function fetched earlier is outstanding with it (R292). -/
def tagFree (s : State) (fn : Tenant) (f : Fetched) : Bool :=
  decide (f.desc.tag ≠ 0)
    && !(s.host.requests.any fun x => decide (x.1 < f.handle ∧ x.2.fn = fn ∧ x.2.tag = f.desc.tag) && !x.2.remote)
    && !((List.range 8).any fun q => (qpOf s fn (BitVec.ofNat 3 q)).fetched.any fun g => decide (g.handle < f.handle ∧ g.desc.tag = f.desc.tag))

/-- Orders 1 to 4, and a window line of the parameter region that cannot be read (R278). -/
def firstChecks (s : State) (fn : Tenant) (op : Opcode) (f : Fetched) (v : HostView) : List (Option Reject) :=
  let d := f.desc
  let raw := (op = .tokenize || op = .detokenize) && d.opflags.getLsbD 0
  [require (decide (op ≠ .programLoad) || decide (fn = 0)) (badAt 0), require (!raw || decide (fn = 0)) (badAt 1), require (tagFree s fn f) (badAt 8),
   (firstBad (fieldChecks s op d)).map badAt, require (regionMaps s d.paramAddr d.paramLen.toNat v.paramOk) (badAt 16),
   require (regionMaps s d.resultAddr d.resultLen.toNat v.resultOk) (badAt 32),
   require (!(inWindow d.paramAddr && v.poison)) { st := .mediaError }]

/-- A new outstanding request of a descriptor. -/
def newRequest (s : State) (fn : Tenant) (q : BitVec 3) (op : Opcode) (d : Descriptor) (p : Bytes) : Request :=
  { fn := fn, qp := q, tag := d.tag, op := op, desc := d, param := p, acceptedAt := now s }

/-- The descriptor at the front of a pair's fetched ones, when it is of this opcode and form, is taken: it becomes a request, orders 1 to 4 are
checked, and `go` goes on with its handle and itself. -/
def acceptFront (s : State) (fn : Tenant) (q : BitVec 3) (op : Opcode) (form : Descriptor → Bool) (v : HostView)
    (go : State → Nat → Request → Fetched → State) : State :=
  match (qpOf s fn q).fetched with
  | [] => s
  | f :: rest =>
    if Opcode.ofByte f.desc.opcode.toNat ≠ some op || !form f.desc then s
    else
      let checks := firstChecks s fn op f v
      let r := newRequest s fn q op f.desc (paramBytes s f.desc v)
      let s := setReq (setQp s fn q fun x => { x with fetched := rest }) f.handle r
      checked s f.handle checks fun s => go s f.handle r f

/-- Any form of the opcode. -/
def anyForm : Descriptor → Bool := fun _ => true

/-- A descriptor of an opcode that does not exist fails order 1 as it is fetched (R294). -/
def rejectUnknown (s : State) (fn : Tenant) (q : BitVec 3) (f : Fetched) : State :=
  let s := setReq s f.handle (newRequest s fn q .nop f.desc [])
  finishPlain s f.handle .badDescriptor 0

end Sys2Proof.Machine
end

