-- ==== Sys2Proof/Machine/Program.lean ====
section
/-! DEFINITION. Partition programs: the image, the load checks, loading, replacing and unloading (R321 to R325, R476, R477, Tables 14.4 to
14.6, 14.13, 14.14), and the end of an in-field test (R364). -/

namespace Sys2Proof.Machine

/-! ## The image (Tables 14.4, 14.13, 14.14) -/

/-- A mapping record at a device-range address (Table 14.14). -/
def readMapping (s : State) (a : Nat) : Mapping :=
  let b := devRead s a 128
  { excluded := if h : rd b 0 1 < 48 then some ⟨rd b 0 1, h⟩ else none
    draft := bit (rd b 1 1) 0
    engines := BitVec.ofNat 48 (rd b 8 6)
    spares := (List.range 48).map fun e => BitVec.ofNat 16 (rd b (32 + 2 * e) 2) }

def kindOf : Nat → ProgKind
  | 1 => .encoder | 2 => .rerank | 3 => .generator | _ => .general

/-- Offset of a section within the image. -/
def sectionOff (hd : Bytes) (at_ : Nat) : Nat := rd hd at_ 8

/-- Entry i of the stream plan at a device-range address: 16 bytes (Table 4.9). -/
def planEntry (s : State) (a i : Nat) : PlanEntry :=
  let n := devNum s (a + 32 + 16 * i) 16
  { src := BitVec.ofNat 34 (bits n 127 94), count := bits n 93 82 + 1, dest := bits n 81 66, group := bits n 65 54, half := bit n 53
    releaser := bits n 47 32 }

/-- The stream plan at a device-range address: the header, whose layout the manual does not give, and the entries (R86). -/
def readPlan (s : State) (a : Nat) (hd : PlanHeader) : StreamPlan :=
  { head := hd, entries := (List.range (min 65536 hd.count)).map (planEntry s a) }

/-- The image at an address as a program, with the sections whose layout the manual does not give. -/
def readProgram (s : State) (addr : Nat) (sec : ImageSections) : Program :=
  let hd := devRead s addr 128
  let pa := devRead s (addr + sectionOff hd 104) 256
  let ids := fun off n => (List.range (min 8 n)).map fun i => rd pa (off + 4 * i) 4
  { addr := BitVec.ofNat 48 addr
    kind := kindOf (rd hd 2 1)
    imageTiles := rd hd 4 4
    home := BitVec.ofNat 48 (rd hd 8 8)
    borrow := BitVec.ofNat 48 (rd hd 16 8)
    lend := BitVec.ofNat 48 (rd hd 24 8)
    borrowFrom := rd hd 32 1
    lendTo := rd hd 33 1
    lpRate := BitVec.ofNat 8 (rd hd 34 1)
    storeTiles := rd hd 36 4
    lExtents := rd hd 40 4
    slots := rd hd 44 2
    lendWait := rd hd 48 4
    stepTarget := rd hd 52 4
    maps := (List.range (rd hd 3 1)).map fun i => readMapping s (addr + sectionOff hd 96 + 128 * i)
    maxContext := rd pa 0 4
    prefillTokens := rd pa 4 4
    specMax := rd pa 8 1
    kvStripe := rd pa 9 1
    adapterPerStep := rd pa 10 1
    tokSet := rd pa 11 1 % 4
    vocab := rd pa 12 4
    pairTokens := rd pa 16 2
    queryMax := rd pa 18 2
    batch := rd pa 20 2
    pairPrefix := ids 32 (rd pa 22 1)
    pairSep := ids 64 (rd pa 23 1)
    pairSuffix := ids 96 (rd pa 24 1)
    dim := rd pa 28 4
    kvPairs := rd pa 128 4
    plan := readPlan s (addr + sectionOff hd 64) sec.plan
    sec := sec
    digest := digest (devRead s addr (16384 * rd hd 4 4)) }

/-- A condition on a field that a program kind uses; a field that it does not use is zero (R476). -/
def usedBy (uses : Bool) (ok : Bool) (v : Nat) : Bool := if uses then ok else decide (v = 0)

/-- Fields of a token run of the parameter section: at most 8 used, the rest zero. -/
def runOk (pa : Bytes) (off len : Nat) : Bool := decide (len ≤ 8) && zeroBytes pa (off + 4 * min len 8) (32 - 4 * min len 8)

/-- Ranges of the parameter section (Table 13.14's fields as R476 has them: Table 14.13). -/
def paramsOk (k : Nat) (lext : Nat) (pa : Bytes) : Bool :=
  let gen := decide (k = 3)
  let enc := decide (k = 1)
  let rr := decide (k = 2)
  let u := fun (uses : Bool) (off n lo hi : Nat) => usedBy uses (decide (lo ≤ rd pa off n ∧ rd pa off n ≤ hi)) (rd pa off n)
  u gen 0 4 64 65536 && u gen 4 4 32 32768 && u gen 8 1 0 8 && usedBy gen (decide (rd pa 9 1 ∈ [1, 2, 4, 8])) (rd pa 9 1) && u gen 10 1 1 64
    && u (gen || enc || rr) 11 1 0 3 && usedBy (gen || enc || rr) true (rd pa 12 4)
    && usedBy rr (decide (64 ≤ rd pa 16 2 ∧ rd pa 16 2 ≤ 1024 ∧ rd pa 16 2 % 32 = 0)) (rd pa 16 2)
    && usedBy rr (decide (8 ≤ rd pa 18 2 ∧ 2 * rd pa 18 2 ≤ rd pa 16 2)) (rd pa 18 2) && u rr 20 2 1 256
    && u rr 22 1 0 8 && u rr 23 1 0 8 && u rr 24 1 0 8 && zeroBytes pa 25 3
    && usedBy enc (decide (64 ≤ rd pa 28 4 ∧ rd pa 28 4 ≤ 2048 ∧ rd pa 28 4 % 64 = 0)) (rd pa 28 4)
    && (if rr then runOk pa 32 (rd pa 22 1) && runOk pa 64 (rd pa 23 1) && runOk pa 96 (rd pa 24 1) else zeroBytes pa 32 96)
    && usedBy gen (decide (1 ≤ rd pa 128 4 ∧ 2 * rd pa 128 4 ≤ lext)) (rd pa 128 4) && zeroBytes pa 132 124

/-- A mapping record in range: the N mapping names no excluded engine, an N−1 mapping names one and does not use it (Table 14.14). -/
def mappingOk (b : Bytes) (first : Bool) : Bool :=
  let x := rd b 0 1
  let es := rd b 8 6
  (if first then decide (x = 0xFF) else decide (x < 48) && !bit es x) && decide (rd b 1 1 < 2) && zeroBytes b 2 6 && zeroBytes b 14 18
    && (List.range 48).all fun e => bit es e || decide (rd b (32 + 2 * e) 2 = 0)

/-- Ranges of the header (Table 14.4): every section 64-byte aligned within the image. -/
def headerOk (hd : Bytes) : Bool :=
  let k := rd hd 2 1
  let size := 16384 * rd hd 4 4
  decide (rd hd 0 2 = 1) && decide (k ≤ 3) && decide (1 ≤ rd hd 3 1 ∧ rd hd 3 1 ≤ 49) && decide (1 ≤ rd hd 4 4)
    && decide (rd hd 8 8 < 2 ^ 48) && decide (rd hd 16 8 < 2 ^ 48) && decide (rd hd 24 8 < 2 ^ 48)
    && decide (rd hd 32 1 ≤ 31 ∨ rd hd 32 1 = 0xFF) && decide (rd hd 33 1 ≤ 31 ∨ rd hd 33 1 = 0xFF) && decide (rd hd 34 1 ≤ 1)
    && zeroBytes hd 35 1 && decide (rd hd 36 4 % 128 = 0) && usedBy (decide (k = 3)) (decide (1 ≤ rd hd 44 2 ∧ rd hd 44 2 ≤ 1024)) (rd hd 44 2)
    && zeroBytes hd 46 2 && decide (1 ≤ rd hd 52 4 ∧ rd hd 52 4 ≤ 1000000)
    && [56, 64, 72, 80, 88, 96, 104].all (fun o => decide (rd hd o 8 % 64 = 0 ∧ rd hd o 8 < size))
    && decide (sectionOff hd 96 + 128 * rd hd 3 1 ≤ size) && decide (sectionOff hd 104 + 256 ≤ size) && zeroBytes hd 112 16

/-- The extents of n tiles from a device-range byte address on. -/
def extentsOf (addr n : Nat) : List Nat :=
  let a := addr / 16384
  (List.range ((a + n + 127) / 128 - a / 128)).map (· + a / 128)

/-- Every extent is RO, of tenant 0 and non-secure. -/
def imageExtentsOk (s : State) (addr n : Nat) : Bool :=
  (extentsOf addr n).all fun x => (entryOf s x).any fun e => e.cls = 0 && decide (e.tenant = 0) && !e.world

/-- Order 2 of Table 14.5. -/
def imageOk (s : State) (addr : Nat) : Bool :=
  let hd := devRead s addr 128
  decide (addr % 16384 = 0) && imageExtentsOk s addr 1 && headerOk hd && imageExtentsOk s addr (rd hd 4 4)
    && paramsOk (rd hd 2 1) (rd hd 40 4) (devRead s (addr + sectionOff hd 104) 256)
    && (List.range (rd hd 3 1)).all fun i => mappingOk (devRead s (addr + sectionOff hd 96 + 128 * i) 128) (decide (i = 0))

/-! ## Load checks (Table 14.5) -/

/-- A source extent of a plan: RO with a tier-L copy or home, of tenant 0 or SHARED, in the world of partitions (R87, R68). -/
def planExtentOk (s : State) (x : Nat) : Bool :=
  (entryOf s x).any fun e => e.cls = 0 && (e.copyTier = 2 || e.homeTier = 2) && (decide (e.tenant = 0) || e.shared) && !e.world

/-- Extents that a plan names. -/
def planExtents (p : StreamPlan) : List Nat :=
  (p.entries.flatMap fun e => extentsOf (16384 * e.src.toNat) e.count).foldl (fun a x => withLast x a) []

/-- Two runs meet. -/
def runsMeet (a n b m : Nat) : Bool := decide (a < b + m ∧ b < a + n)

/-- Two entries of a plan go together: of one group, they have one half and do not meet in it (R87). -/
def entriesAgree (d e : PlanEntry) : Bool :=
  decide (d.group ≠ e.group) || (decide (d.half = e.half) && !runsMeet d.dest d.count e.dest e.count)

/-- Every two entries of a plan go together. -/
def groupsFit : List PlanEntry → Bool
  | [] => true
  | e :: l => l.all (entriesAgree e) && groupsFit l

/-- Placement, halves and group sizes of a plan (R86, R87). -/
def planOk (s : State) (p : StreamPlan) : Bool :=
  let w := p.head.windowTiles
  decide (p.head.windowBase % 128 = 0) && decide (w % 256 = 0) && decide (4096 ≤ w ∧ w ≤ 65536) && decide (p.head.rate.toNat ≤ 1)
    && decide (1 ≤ p.head.count ∧ p.head.count ≤ 65536) && decide (p.entries.length = p.head.count) && (planExtents p).all (planExtentOk s)
    && groupsFit p.entries
    && p.entries.all fun e => decide (1 ≤ e.count ∧ e.count ≤ 4096) && decide (e.dest + e.count ≤ w / 2) && decide (e.group < p.head.groups)

/-- Two shares of one engine overlap (R131). -/
def sharesMeet (a b : Share) : Bool :=
  runsMeet a.frame0 a.frames b.frame0 b.frames || runsMeet a.vr0 a.vrs b.vr0 b.vrs || runsMeet a.row0 a.rows b.row0 b.rows

/-- A share is within the engine (R131). -/
def shareOk (a : Share) : Bool :=
  decide (1 ≤ a.frames ∧ a.frame0 + a.frames ≤ 256) && decide (1 ≤ a.vrs ∧ a.vr0 + a.vrs ≤ 32) && decide (1 ≤ a.rows ∧ a.row0 + a.rows ≤ 512)

/-- Contexts of other partitions resident in an engine. -/
def otherContexts (x : EngineState) (p : PartId) : List Share := (x.ctx0.toList ++ x.ctx1.toList).filter fun c => decide (c.part ≠ p)

/-- Share overlap (R131): at most two contexts an engine, in disjoint runs. -/
def contextsOk (s : State) (p : PartId) (g : Program) : Bool :=
  g.sec.shares.all fun x =>
    let os := otherContexts (engOf s x.1) p
    shareOk x.2 && decide (os.length ≤ 1) && os.all fun o => !sharesMeet o x.2

/-- Order 3 of Table 14.5. -/
def order3 (s : State) (p : PartId) (g : Program) : Bool :=
  planOk s g.plan && decide (g.sec.terms ≤ 4194304) && g.sec.mergeAnchors && contextsOk s p g

/-- The rate that a code of Table 14.4 names, in MT/s. -/
def lpRateOf (c : BitVec 8) : Nat := if c = 0 then 14400 else 10667

/-- Order 4 but for the mapping: the LPDDR6 rate that the program and its plan assume, and the tokenizer set (R76, R86, R476). -/
def order4 (s : State) (g : Program) : Bool :=
  decide (lpRateOf g.lpRate ≤ s.tier.mts.toNat) && decide (lpRateOf g.plan.head.rate ≤ s.tier.mts.toNat)
    && (decide (g.kind = .general) || decide (installedVocab s g.tokSet = some g.vocab))

/-- The longest entry of a program's step-time tables (R327). -/
def longestStep (g : Program) : Nat := (g.sec.table.map fun c => c.fixed + c.rate).foldl max 0

/-- Every engine of the first set is in the second. -/
def subEngines (a b : BitVec 48) : Bool := decide (a &&& b = a)

/-- Lender l and borrower b, with their partition numbers, agree (R326, R327). -/
def pairOk (pl : Nat) (l : Program) (pb : Nat) (b : Program) : Bool :=
  decide (l.lendTo = pb) && decide (b.borrowFrom = pl) && subEngines b.borrow l.lend && decide (longestStep b ≤ l.lendWait)
    && decide (longestStep l ≤ b.lendWait)

/-- Order 5 of Table 14.5: a borrower's lender is loaded and agrees; a lender agrees with a borrower that is loaded; lent engines are homes. -/
def order5 (s : State) (p : PartId) (g : Program) : Bool :=
  let n := p.toNat
  subEngines g.lend g.home && decide (g.borrow &&& g.home = 0) && (decide (g.lend = 0) || decide (g.lendTo ≤ 31))
    && (decide (g.borrow = 0) || (progOf s g.borrowFrom).any fun l => pairOk g.borrowFrom l n g)
    && (decide (g.lend = 0) || (progOf s g.lendTo).all fun b => decide (b.borrowFrom ≠ n) || pairOk n g g.lendTo b)

/-- Engines a partition owns on a mapping: those it does not borrow. -/
def ownEngines (g : Program) (m : Nat) : BitVec 48 := ((g.maps[m]?).map (·.engines)).getD 0 &&& ~~~g.borrow

/-- Store tiles of the entry sets: one tile of ids and the vectors of each index (R157, R319). -/
def entrySetTiles (s : State) : Nat :=
  (s.gen.indexes.map fun r => 1 + (r.2.entryCount * r.2.dim + 16383) / 16384).sum

/-- The store share is free, and the sum of shares, pools and entry sets stays within the store (R319). -/
def storeFits (s : State) (g : Program) : Bool :=
  let b := g.sec.storeBase
  decide (b % 128 = 0) && decide (b + g.storeTiles ≤ Config.conductorBase)
    && (s.gen.parts.all fun q => decide (q.2.storeCount = 0) || !runsMeet q.2.storeBase q.2.storeCount b g.storeTiles)
    && decide ((s.gen.parts.map fun q => q.2.storeCount).sum + g.storeTiles + 9216 + entrySetTiles s ≤ 131072)

/-- A list turned by n places. -/
def rotate_ {α : Type} (n : Nat) (l : List α) : List α :=
  let k := if l.length = 0 then 0 else n % l.length
  l.drop k ++ l.take k

/-- The leaf of extent x: the one its directory entry names, else the lowest unused one. -/
def leafFor (s : State) (x : Nat) : Option (BitVec 11) :=
  match mfind s.tier.dir (x / 16384) with
  | some l => some l
  | none => ((List.range 2048).find? fun l => s.tier.dir.all fun d => decide (d.2.toNat ≠ l)).map (BitVec.ofNat 11)

/-- An extent entry stored, with its directory entry. -/
def storeEntry (s : State) (x : Nat) (l : BitVec 11) (e : ExtentEntry) : State :=
  { s with tier := { s.tier with dir := mins s.tier.dir (x / 16384) l, leaves := mins s.tier.leaves (l.toNat * 16384 + x % 16384) e } }

/-- The highest unmapped extent numbers: the manual does not say which number an extent of an L share takes (DESIGN CHOICE, log entry 151). -/
def freeNumbers (s : State) (n : Nat) : List Nat :=
  (((List.range (s.tier.leaves.length + n)).map fun k => 134217727 - k).filter fun x => (entryOf s x).isNone).take n

/-- The entry of an extent of partition p's L share: SCR, in tier L, of tenant 0, non-secure (R215, Table 4.3). -/
def shareEntry (p : PartId) (l : Nat) : ExtentEntry :=
  { cls := 2, copyTier := 2, copyLoc := BitVec.ofNat 25 l, owner := p.setWidth 6, valid := true }

/-- L extent y.1 of the share mapped at extent number y.2. -/
def mapShare (p : PartId) (s : Option State) (y : Nat × Nat) : Option State :=
  s.bind fun s => (leafFor s y.2).map fun l => storeEntry s y.2 l (shareEntry p y.1)

/-- The SCR extents of a share (R215): what extent number each L extent has; none when the tier table has no leaf left. -/
def mapPool (s : State) (p : PartId) (ls : List Nat) : Option (Map Nat × State) :=
  let m := ls.zip (freeNumbers s ls.length)
  (m.foldl (mapShare p) (some s)).map fun s => (m.foldl (fun (a : Map Nat) y => mins a y.1 y.2) [], s)

/-- The extents of a share are unmapped. -/
def dropPool (s : State) (q : Partition) : State :=
  q.pool.foldl (fun s y => match entryKey s y.2 with
    | some k => { s with tier := { s.tier with leaves := mdel s.tier.leaves k } }
    | none => s) s

/-- The extent is one of a loaded partition's L share. -/
def inLShare (s : State) (x : Nat) : Bool := s.gen.parts.any fun q => q.2.pool.any fun y => decide (y.2 = x)

/-- The L share: KV_PAIRS aligned pairs, then single extents (R215, R319). Which free extents the Bureau takes is left open: a free value. -/
def takeL (s : State) (g : Program) : Option (List Nat × List Nat × State) :=
  let (v, s1) := drawFree s
  let fr := rotate_ v.toNat (freeL s)
  let pairs := (fr.filter fun x => decide (x % 2 = 0 ∧ x + 1 < poolEnd s ∧ x + 1 ∉ usedL s)).take g.kvPairs
  let kv := pairs.flatMap fun x => [x, x + 1]
  let rest := (fr.filter fun x => decide (x ∉ kv)).take (g.lExtents - 2 * g.kvPairs)
  if pairs.length = g.kvPairs ∧ rest.length = g.lExtents - 2 * g.kvPairs then some (kv, rest, s1) else none

/-- Order 6 of Table 14.5, on the state in which the partition holds nothing. -/
def order6 (s : State) (g : Program) (m : Nat) : Bool :=
  (s.gen.parts.all fun q => q.2.prog.all fun o => decide (ownEngines o q.2.mapping &&& ownEngines g m = 0)) && storeFits s g
    && ((takeL s g).bind fun x => mapPool x.2.2 0 (x.1 ++ x.2.1)).isSome

/-! ## Shares (Table 14.3) -/

/-- The context of a partition leaves an engine. -/
def dropContext (p : PartId) (x : EngineState) : EngineState :=
  let mine := fun (c : Option Share) => c.any fun c => decide (c.part = p)
  let ran := if x.running then mine x.ctx1 else mine x.ctx0
  let c0 := if mine x.ctx0 then none else x.ctx0
  let c1 := if mine x.ctx1 then none else x.ctx1
  { x with ctx0 := c0, ctx1 := c1, running := if c0.isNone && c1.isSome then true else if c1.isNone then false else x.running
           stopped := x.stopped && !ran }

/-- A context enters an engine. -/
def addContext (p : PartId) (s : State) (y : Engine × Share) : State :=
  let sh := { y.2 with part := p, world := false }
  setEng s y.1 fun x => if x.ctx0.isNone then { x with ctx0 := some sh, running := x.ctx1.isSome } else { x with ctx1 := some sh }

/-- Extents named by the stream plans of loaded partitions. -/
def plannedExtents (s : State) : List Nat := s.gen.parts.flatMap fun q => (q.2.prog.map fun g => planExtents g.plan).getD []

/-- PIN of the extents of a plan set, or cleared where no other loaded plan names the extent (R87). -/
def pinPlan (s : State) (g : Program) (on : Bool) : State :=
  (planExtents g.plan).foldl (fun s x => if on || decide (x ∉ plannedExtents s) then setEntry s x fun e => { e with pin := on } else s) s

/-- The partition gives up its shares: contexts, store tiles, L extents, plan pins, hot copies (R323, R324). -/
def releaseShares (s : State) (p : PartId) : State :=
  let q := partOf s p
  match q.prog with
  | none => s
  | some g =>
    let s := { s with engines := { s.engines with engine := (mmap (fun _ x => dropContext p x) s.engines.engine).filter fun e => decide (e.2 ≠ {}) } }
    let s := mapSlots s fun t x => if inShare q t then { x with hdr := { x.hdr with state := .free } } else x
    let s := dropPool (dropTagged s p 0xFFFFFFFF) q
    let s := setPart s p fun q => { q with
      prog := none, mapping := 0, kvFree := [], pool := [], storeBase := 0, storeCount := 0, lShare := [], hotDir := [], hotOld := [], step := {}
      draws := [], drawsAsked := [], reports := [], switchDue := [], switchBack := false, pauseFor := none, needReload := false }
    pinPlan (setStream s p fun _ => {}) g false

/-- Adapter versions of a partition are freed with its L share (R323). -/
def dropAdapters (s : State) (p : PartId) : State :=
  { s with gen := { s.gen with adapters := s.gen.adapters.filter fun a => decide (a.2.part ≠ p) } }

/-- Free lists of the KV pool: tile t of L lies in subchannel t mod 256, so each pair gives every subchannel one tile (R215). -/
def kvLists (pairs : List Nat) : Map (List Nat) :=
  if pairs = [] then [] else (List.range 256).map fun c => (c, (pairs.filter fun x => decide (x % 2 = 0)).map fun x => 128 * x + c)

/-- Orders 1 to 4 of Table 14.6, on a partition that holds nothing: shares, pins, the digest (kept in the program), contexts, epoch 1, RUNNING. -/
def placeProgram (s : State) (p : PartId) (g : Program) (m : Nat) : State :=
  match (takeL s g).bind fun x => (mapPool x.2.2 p (x.1 ++ x.2.1)).map fun y => (x.1, x.2.1, y) with
  | none => s
  | some (kv, rest, pool, s) =>
    let s := setPart s p fun q => { q with
      state := .running, mapping := m, prog := some g, kvFree := kvLists kv, pool := pool, lShare := kv ++ rest, storeBase := g.sec.storeBase
      storeCount := g.storeTiles, committed := 0, matched := 0, step := { epoch := 1 }, needReload := false }
    let s := g.sec.shares.foldl (addContext p) s
    let s := setStream (pinPlan s g true) p fun _ => { epoch := 1 }
    rebuildHot s p

/-! ## PROGRAM_LOAD (R322, R323, R477) -/

/-- What the module would be were the partition's shares free. -/
def without_ (s : State) (p : PartId) : State := releaseShares s p

/-- Orders 5 and 6 on a mapping, then the load, or the replacement that waits for the work admitted (R322, R323). -/
def loadOn (s : State) (p : PartId) (h : Nat) (g : Program) (m : Nat) : State :=
  if !order5 s p g then finishPlain s h .programMismatch 0
  else if !planOk s g.plan then finishPlain s h .programMismatch 0
  else if !order6 (without_ s p) g m then finishPlain s h .noResources 0
  else if (partOf s p).state = .running then setPart s p fun q => { q with replacing := some (h, g) }
  else finishPlain (placeProgram (dropAdapters (releaseShares s p) p) p g m) h .ok 0

/-- The mapping is selected (R477): a load waits while only an in-field test makes the N mapping unusable. -/
def loadSelect (s : State) (p : PartId) (h : Nat) (g : Program) : State :=
  let n := g.maps.head?
  if !n.any (usable s) && n.any (fun m => usableWith s m fun r => r = 0 || r = 2) then setPart s p fun q => { q with loadWait := some (h, g) }
  else match selectMapping s g with
    | some m => loadOn s p h g m
    | none => finishPlain s h .programMismatch 0

/-- A lent engine ties the partition to a loaded one (R326). -/
def lends (s : State) (p : PartId) : Bool :=
  (s.gen.parts.any fun q => q.2.prog.any fun b => decide (b.borrowFrom = p.toNat ∧ b.borrow ≠ 0))
def lendsOrBorrows (s : State) (p : PartId) : Bool := lends s p || (partOf s p).prog.any fun g => decide (g.borrow ≠ 0)

/-- A load, replacement or unload of the partition is in progress. -/
def partBusy (q : Partition) : Bool :=
  q.replacing.isSome || q.loadWait.isSome || q.unloading.isSome || q.state = .loading || q.state = .unloading

/-- An extent named at acceptance does not exist: the event and the counter (R339, Table 14.11). -/
def noExtent (s : State) (tn : Tenant) (x : Nat) : State := countTenant (logEvent s (.translationFault x 0x3C 0xFF 0)) tn 3 1

/-- PROGRAM_LOAD with a non-zero ARG_C (Table 14.5). -/
def programLoad (s : State) (h : Nat) (r : Request) (sec : ImageSections) : State :=
  let p := partId r.desc.argA.toNat
  let addr := r.desc.argC.toNat
  let q := partOf s p
  if !(q.state = .empty || q.state = .failed || (q.state = .running && !lendsOrBorrows s p)) || partBusy q then finishPlain s h .noResources 0
  else if (entryOf s (devExtent (addr / 16384))).isNone then finishPlain (noExtent s r.fn (devExtent (addr / 16384))) h .badDescriptor 48
  else if !imageOk s addr then finishPlain s h .badDescriptor 48
  else
    let g := readProgram s addr sec
    if !order3 s p g || !order4 s g then finishPlain s h .programMismatch 0 else loadSelect s p h g

/-- The partition named, and no other object (R317). -/
def loadChecks (s : State) (r : Request) : List (Option Reject) := accessChecks s r.fn [.part (r.desc.argA.toNat % 32)]

def execProgramLoad (fn : Tenant) (q : BitVec 3) (v : HostView) (sec : ImageSections) (s : State) : Out :=
  .next (acceptFront s fn q .programLoad (fun d => decide (d.argC ≠ 0)) v fun s h r _ =>
    checked s h (loadChecks s r) fun s => programLoad s h r sec)

/-- No slot or place holds admitted work (R323). -/
def partDrained (q : Partition) : Bool :=
  !q.step.running && q.step.items.isEmpty && q.slots.all fun x => decide (x.2.state = .free)

/-- PROGRAM_REPLACE_SWITCH (R323 orders 3 to 5): no usable mapping any more, or a plan whose extents are no longer placed as R87 has them, leaves
the partition FAILED (R325, R477; for the plan DESIGN CHOICE, log entry 141). -/
def replaceSwitch (s : State) (p : PartId) : State :=
  match (partOf s p).replacing with
  | none => s
  | some (h, g) =>
    if !partDrained (partOf s p) then s
    else
      let s := setPart s p fun q => { q with replacing := none }
      match (if planOk s g.plan then selectMapping s g else none) with
      | some m => finishPlain (placeProgram (dropAdapters (releaseShares s p) p) p g m) h .ok 0
      | none => finishPlain (failPartition s p 0xFF) h .programMismatch 0

def execProgramReplaceSwitch (p : PartId) (s : State) : Out := .next (replaceSwitch s p)

/-! ## Unloading (R324) -/

/-- Every waiting item of the partition ends CANCELLED. -/
def emptyRings (s : State) (p : PartId) : State :=
  let items := (partOf s p).rings.flatMap (·.2)
  items.foldl (fun s i => endItem s i .cancelled 0) (setPart s p fun q => { q with rings := [] })

/-- PROGRAM_UNLOAD: PROGRAM_LOAD with ARG_C 0 (R324). -/
def programUnload (s : State) (h : Nat) (r : Request) : State :=
  let p := partId r.desc.argA.toNat
  let q := partOf s p
  if q.state = .empty && !partBusy q then finishPlain s h .ok 0
  else if partBusy q || lends s p then finishPlain s h .noResources 0
  else emptyRings (setPart s p fun q => { q with state := .unloading, unloading := some h, pauseFor := none }) p

def execProgramUnload (fn : Tenant) (q : BitVec 3) (v : HostView) (s : State) : Out :=
  .next (acceptFront s fn q .programLoad (fun d => decide (d.argC = 0)) v fun s h r _ =>
    checked s h (loadChecks s r) fun s => programUnload s h r)

/-- PARTITION_UNLOAD_DONE (R324): every slot has left ENDING. -/
def unloadDone (s : State) (p : PartId) : State :=
  match (partOf s p).unloading with
  | none => s
  | some h =>
    if !partDrained (partOf s p) || !(partOf s p).rings.isEmpty then s
    else
      let s := dropAdapters (releaseShares s p) p
      let s := setPart s p fun q => { q with state := .empty, unloading := none, slots := [], credit := [], ptr := 0 }
      startTests (finishPlain s h .ok 0)

def execPartitionUnloadDone (p : PartId) (s : State) : Out := .next (unloadDone s p)

/-! ## The end of an in-field test (Table 15.8 order 6, R477) -/

/-- Loads that waited for a test select their mapping again. -/
def resumeLoads (s : State) : State :=
  s.gen.parts.foldl (fun s x => match x.2.loadWait with
    | some (h, g) => loadSelect (setPart s (partId x.1) fun q => { q with loadWait := none }) (partId x.1) h g
    | none => s) s

def execFieldTestComplete (e : Engine) (mechanism : Option (BitVec 8)) (s : State) : Out := .next (resumeLoads (endTest s e mechanism))

/-- The selection at the release of the compute dies after a warm reset (R325, R477): a partition without a usable mapping enters FAILED. -/
def reselect (s : State) (p : PartId) : State :=
  match (partOf s p).prog with
  | none => s
  | some g =>
    match selectMapping s g with
    | some m => setPart s p fun q => { q with mapping := m, switchBack := false, switchDue := [] }
    | none => if (partOf s p).state = .failed then s else failPartition s p 0xFF

end Sys2Proof.Machine
end

