-- ==== Sys2Proof/Machine/Host.lean ====
section
/-! DEFINITION. The host boundary: link training, doorbells and fetch, translation, the CXL.mem window, completion writes, interrupts, and the
resets at that boundary (chapter 12; R464, R468). -/

namespace Sys2Proof.Machine

/-! ## Link (R268, R271) -/

/-- HOST_LINK_TRAINING (R268, Table 12.1): a width below 16 lanes is logged. -/
def linkTraining (s : State) (width gts : BitVec 8) (latOpt : Bool) : State :=
  if !(decide (width.toNat ∈ [4, 8, 16]) && decide (gts.toNat ∈ [32, 64])) then s
  else
    let s := { s with host := { s.host with linkWidth := width, linkGts := gts, latOpt := latOpt && decide (gts.toNat = 64) } }
    if width.toNat < 16 then logEvent s (.linkDegraded width.toNat gts.toNat) else s

def execHostLinkTraining (width gts : BitVec 8) (latOpt : Bool) (s : State) : Out := .next (linkTraining s width gts latOpt)

/-- CXL_CACHE_ENABLE_WRITE (R271): HST_STATUS follows. -/
def cacheEnable (s : State) (on : Bool) : State := { s with host := { s.host with cacheEn := on } }

def execCxlCacheEnableWrite (on : Bool) (s : State) : Out := .next (cacheEnable s on)

/-! ## Translation (R273) -/

/-- The translation of an address is kept, at most 8,192 of them; which one leaves is left open: a free value picks it. -/
def noteAts (s : State) (fn : Tenant) (q : BitVec 3) (addr : BitVec 64) : State :=
  let p := qpOf s fn q
  let e : AtsEntry := { fn := fn, pasid := if p.pasidEn then some p.pasid else none, page := BitVec.ofNat 64 (addr.toNat / 4096) }
  if e ∈ s.host.ats then s
  else if s.host.ats.length < 8192 then { s with host := { s.host with ats := e :: s.host.ats } }
  else
    let (v, s) := drawFree s
    { s with host := { s.host with ats := e :: s.host.ats.eraseIdx (v.toNat % s.host.ats.length) } }

/-- ATS_INVALIDATION (R273): each command is whole, so every access that used the entries has completed. -/
def atsInvalidate (s : State) (fn : Tenant) (page : BitVec 64) : State :=
  { s with host := { s.host with ats := s.host.ats.filter fun e => decide (e.fn ≠ fn ∨ e.page ≠ page) } }

def execAtsInvalidation (fn : Tenant) (page : BitVec 64) (s : State) : Out := .next (atsInvalidate s fn page)

/-! ## Fetch (R281, R282, R286, R314) -/

/-- A cancellable descriptor of the function is outstanding with this tag (R313). -/
def cancelHit (s : State) (fn : Tenant) (tag : BitVec 64) : Bool :=
  (s.host.requests.any fun x => decide (x.2.fn = fn ∧ x.2.tag = tag) && !x.2.remote && cancellable x.2.op)
    || (List.range 8).any fun q => (qpOf s fn (BitVec.ofNat 3 q)).fetched.any fun f =>
        decide (f.desc.tag = tag) && (Opcode.ofByte f.desc.opcode.toNat).any cancellable

/-- A FENCE with WAIT holds the pair's fetch until its FINAL is posted (R314). -/
def heldByFence (s : State) (p : QueuePair) : Bool :=
  p.fenced.any fun h => (reqOf s h).isSome || p.fetched.any fun f => decide (f.handle = h)

/-- The pair may fetch: CXL.cache on, the pair enabled, not stopped or held, and at least 8 free completion slots (R271, R282, R283, R286, R314,
R435). -/
def mayFetch (s : State) (fn : Tenant) (q : BitVec 3) : Bool :=
  let p := qpOf s fn q
  s.host.cacheEn && decide (p.state = .enabled) && !s.host.fetchStopped && !heldByFence s p && decide (cqUsed p + 8 ≤ cqSize p)

/-- One descriptor is fetched: it takes a handle and is counted (R281, Table 20.16). -/
def fetchOne (s : State) (fn : Tenant) (q : BitVec 3) (d : Descriptor) : State :=
  let h := s.host.nextHandle
  let f : Fetched := { handle := h, desc := d, hit := decide (d.opcode = 0x30) && cancelHit s fn d.argC }
  let s := countTenant { s with host := { s.host with nextHandle := h + 1 } } fn 4 1
  let s := setQp s fn q fun p => { p with sqHead := p.sqHead + 1 }
  match Opcode.ofByte d.opcode.toNat with
  | none => rejectUnknown s fn q f
  | some op => setQp s fn q fun p => { p with
      fetched := p.fetched ++ [f], fenced := if op = .fence ∧ d.opflags.getLsbD 0 then some h else p.fenced }

/-- Descriptors fetched in order, up to SQ_TAIL. -/
def fetchAll (fn : Tenant) (q : BitVec 3) : List Descriptor → State → State
  | [], s => s
  | d :: l, s =>
    let p := qpOf s fn q
    if mayFetch s fn q && decide (p.sqHead ≠ p.sqTail) then fetchAll fn q l (fetchOne s fn q d) else s

/-! ## Pairs stopped (R283, R288, R289, R468) -/

/-- A pair's fetched descriptors and waiting completions are given up; requests whose last FINAL waited are no longer outstanding. -/
def stopPair (s : State) (fn : Tenant) (q : BitVec 3) (f : QueuePair → QueuePair) : State :=
  let w := (qpOf s fn q).waiting
  let s := setQp s fn q fun p => f { p with fetched := [], waiting := [], fenced := none }
  w.foldl (fun s c => match c.closes with
    | some h => closeRequest s h
    | none => s) s

/-- The error state (R283): the code, the vector once, the event. -/
def qpError (s : State) (fn : Tenant) (q : BitVec 3) (code : Nat) : State :=
  let s := stopPair s fn q fun p => { p with state := .error, errCode := BitVec.ofNat 8 code }
  let p := qpOf s fn q
  logEvent (signalVector s fn p.vector) (.qpError fn q.toNat code p.sqTail p.sqHead)

/-! ## Doorbells (R282, R283) -/

/-- DOORBELL_INVALIDATION (R282): a fresh shared read of the line. -/
def doorbellInvalidation (s : State) (fn : Tenant) (q : BitVec 3) : State :=
  let p := qpOf s fn q
  if !p.pinned then s
  else emit (setQp s fn q fun p => { p with rereads := p.rereads + 1 }) (.sharedRead fn p.dbAddr)

def execDoorbellInvalidation (fn : Tenant) (q : BitVec 3) (s : State) : Out := .next (doorbellInvalidation s fn q)

/-- What is wrong with a doorbell line (R283, Table 20.8). -/
def lineError (p : QueuePair) (l : DoorbellLine) : Option Nat :=
  if !l.translates then some 4
  else if sqSize p < (l.sqTail - p.sqHead).toNat then some 1
  else if (p.cqTail - p.cqHead).toNat < (l.cqHead - p.cqHead).toNat then some 2
  else if l.reserved then some 3 else none

/-- The values of a line are taken, and descriptors fetched (R281, R282). -/
def takeLine (s : State) (fn : Tenant) (q : BitVec 3) (l : DoorbellLine) (descs : List Descriptor) : State :=
  let s := if l.translates then setQp s fn q fun p => { p with sqTail := l.sqTail } else s
  match lineError (qpOf s fn q) l with
  | some e => qpError s fn q e
  | none =>
    let p := qpOf s fn q
    let s := noteAts (noteAts s fn q p.dbAddr) fn q p.sqBase
    fetchAll fn q descs (setQp s fn q fun p => { p with cqHead := l.cqHead })

/-- DOORBELL_REREAD_RETURN (R282, R283). -/
def doorbellReturn (s : State) (fn : Tenant) (q : BitVec 3) (l : DoorbellLine) (descs : List Descriptor) : State :=
  let p := qpOf s fn q
  if p.rereads = 0 then s
  else
    let s := setQp s fn q fun p => { p with rereads := p.rereads - 1 }
    if p.state = .enabled then takeLine s fn q l descs else s

def execDoorbellRereadReturn (fn : Tenant) (q : BitVec 3) (line : DoorbellLine) (descs : List Descriptor) (s : State) : Out :=
  .next (doorbellReturn s fn q line descs)

/-! ## The CXL.mem window (R275 to R278) -/

/-- The host, tenant 0 and non-secure, may access GiB g (R275, R68). -/
def hostMay (s : State) (g : Nat) : Bool := decide (mget 0 s.tier.windowTenant g = 0)

/-- The L tile of a window offset. -/
def windowTileOf (s : State) (addr : Nat) : Nat := windowTile0 s + addr / 16384

/-- The window line lies in a subchannel that retrains: the access waits (R82). -/
def windowRetrains (s : State) (addr : Nat) : Bool := retrains s (2, windowTileOf s addr)

/-- A window line answered, with poison when a burst of it fails BCRC twice (R278). -/
def serveWindow (s : State) (addr : Nat) (cached : Bool) (fault : BurstFault) : State :=
  let line := addr / 64
  let n := windowTileOf s (64 * line)
  let r := readBursts (64 * line / 16384 % 4096 + 2 ^ 15) (windowRead s (64 * line / 16384 * 16384) 16384)
    (fault.filter fun u => decide (u.burst.toNat / 2 = line % 256))
  let data := slice r.payload (64 * line % 16384) 64
  let s := if cached then { s with tier := { s.tier with hostLines := withLast line s.tier.hostLines } } else s
  let s := emit (noteBursts s n r) (.windowData line data r.bad)
  if r.bad then logEvent s (.windowPoison (64 * line) (subOf n)) else s

/-- HOST_WINDOW_READ (R275, R276, R278): a read that meets a write of its line waits for it. -/
def windowHostRead (s : State) (addr : Nat) (cached : Bool) (fault : BurstFault) : State :=
  let g := addr / 2 ^ 30
  if windowBytes s ≤ addr then s
  else if !hostMay s g then
    logEvent (emit s (.windowData (addr / 64) (List.replicate 64 0xFF) true)) (.windowRefused g (mget 0 s.tier.windowTenant g) false addr)
  else if (s.tier.windowWrites.any fun w => decide (w.1 / 64 = addr / 64)) || windowRetrains s addr then
    { s with tier := { s.tier with windowReads := s.tier.windowReads ++ [(addr, cached, fault)] } }
  else serveWindow s addr cached fault

def execHostWindowRead (addr : Nat) (cached : Bool) (fault : BurstFault) (s : State) : Out := .next (windowHostRead s addr cached fault)

/-- HOST_WINDOW_WRITE (R275, R85): bytes within one line. -/
def windowHostWrite (s : State) (addr : Nat) (data : Bytes) : State :=
  let g := addr / 2 ^ 30
  if windowBytes s ≤ addr then s
  else if !hostMay s g then logEvent s (.windowRefused g (mget 0 s.tier.windowTenant g) true addr)
  else
    let d := data.take (64 - addr % 64)
    if windowRetrains s addr then { s with tier := { s.tier with hostWrites := s.tier.hostWrites ++ [(addr, d)] } } else windowPut s addr d

def execHostWindowWrite (addr : Nat) (data : Bytes) (s : State) : Out := .next (windowHostWrite s addr data)

/-- Result writes in order, as far as the directory holds none of their lines (R276); k bounds them. -/
def drainWindow : Nat → State → State
  | 0, s => s
  | k + 1, s => match s.tier.windowWrites with
    | [] => s
    | (o, d) :: l =>
      if o / 64 ∈ s.tier.hostLines || windowRetrains s o then s
      else
        let s := { s with tier := { s.tier with windowWrites := l } }
        drainWindow k (if o < s.tier.windowSize.toNat * 2 ^ 30 then windowPut s o d else s)

/-- Host reads that no longer meet a write are served (R276). -/
def serveWaiting (s : State) : State :=
  let meets := fun (s : State) (r : Nat × Bool × BurstFault) =>
    (s.tier.windowWrites.any fun w => decide (w.1 / 64 = r.1 / 64)) || windowRetrains s r.1
  let ready := s.tier.windowReads.filter fun r => !meets s r
  let s := { s with tier := { s.tier with windowReads := s.tier.windowReads.filter (meets s) } }
  ready.foldl (fun s r => windowHostRead s r.1 r.2.1 r.2.2) s

/-- Every result write that can be made is made. -/
def settleWindow (s : State) : State := serveWaiting (drainWindow s.tier.windowWrites.length s)

/-- SUBCHANNEL_RETRAIN_DONE (R82): window accesses that waited for the subchannel go on with the others. -/
def windowResumes (s : State) (sub : BitVec 8) : State :=
  let s := retrainDone s sub
  let ws := s.tier.hostWrites
  let s := ws.foldl (fun s w => windowHostWrite s w.1 w.2) { s with tier := { s.tier with hostWrites := [] } }
  settleWindow s

def execSubchannelRetrainDone (sub : BitVec 8) (s : State) : Out := .next (windowResumes s sub)

/-- BACK_INVALIDATE_RESPONSE (R276, R277). -/
def snoopResponse (s : State) (line : Nat) : State :=
  settleWindow { s with tier := { s.tier with hostLines := without line s.tier.hostLines } }

def execBackInvalidateResponse (line : Nat) (s : State) : Out := .next (snoopResponse s line)

/-- Bytes at a window offset cut at line ends. -/
def cutLines (off : Nat) (data : Bytes) : List (Nat × Bytes) :=
  (List.range ((off + data.length + 63) / 64 - off / 64)).map fun i =>
    let a := max off (64 * (off / 64 + i))
    (a, (data.drop (a - off)).take (min (off + data.length) (64 * (off / 64 + i) + 64) - a))

/-- A result piece for the window: a snoop for each line that the host may hold, and the writes that follow (R276). -/
def windowResult (s : State) (off : Nat) (data : Bytes) : State :=
  (cutLines off data).foldl (fun s w =>
    let s := if w.1 / 64 ∈ s.tier.hostLines then emit s (.snoop (w.1 / 64)) else s
    { s with tier := { s.tier with windowWrites := s.tier.windowWrites ++ [w] } }) s

/-! ## Completion writes (R274, R277, R284 to R286) -/

/-- One payload piece is written to host memory, its address translated first, or given to the window (R273, R284 order 1). -/
def writePiece (fn : Tenant) (q : BitVec 3) (s : State) (x : BitVec 64 × Bytes) : State :=
  if inWindow x.1 then windowResult s (windowOff x.1) x.2 else if x.2 = [] then s else emit (noteAts s fn q x.1) (.hostWrite fn x.1 x.2)

/-- The ready word of a result window, last (R277). -/
def readyWord (s : State) (c : Completion) : State :=
  match c.closes.bind (reqOf s) with
  | none => s
  | some r =>
    if c.payload ≠ [] && inWindow r.desc.resultAddr && decide (8 ≤ r.desc.resultLen.toNat) then
      windowResult s (windowOff r.desc.resultAddr + r.desc.resultLen.toNat - 8) (toLE 8 c.tag.toNat)
    else s

/-- The completion record is written, counted and reported to the vector (R284 orders 2 and 3, R285, R287, Table 20.16). -/
def writeRecord (s : State) (fn : Tenant) (q : BitVec 3) (c : Completion) (rest : List Completion) : State :=
  let p := qpOf s fn q
  let slot := p.cqTail.toNat % cqSize p
  let addr := p.cqBase + BitVec.ofNat 64 (32 * slot)
  let s := emit (noteAts s fn q addr) (.record fn q slot addr (c.record p.sqHead (decide (p.written / cqSize p % 2 = 0))))
  let s := setQp s fn q fun p => { p with waiting := rest, cqTail := p.cqTail + 1, written := p.written + 1 }
  let s := if c.body.kind = 0 then countTenant s fn 5 1 else s
  let s := match c.closes with
    | some h => closeRequest s h
    | none => s
  countVector s fn p.vector c.urgent

/-- A FINAL of a request whose buffer could not be written (R274): status, AUX, stop reason ERROR for a generating request, and the bytes that
were not written taken off. -/
def badFinal (off lost : Nat) (gen : Bool) (c : Completion) : Completion :=
  match c.body with
  | .final oc ob it st seq _ => { c with
      status := .badDescriptor, payload := []
      body := .final oc (if gen then ob - lost else 0) it (if gen then .error else st) seq (w32 off) }
  | _ => c

/-- Sequence of a completion (Tables 13.10, 13.12). -/
def Completion.seq (c : Completion) : BitVec 4 :=
  match c.body with
  | .final _ _ _ _ q _ => q
  | .tokens _ _ _ _ q => q
  | _ => 0

/-- Text bytes that a TOKENS completion reports. -/
def Completion.textBytes (c : Completion) : Nat :=
  match c.body with
  | .tokens _ n _ _ _ => n
  | _ => 0

/-- The sequence of request h ends for a buffer that could not be written (R274): removed from its ring at once, or at its next boundary. -/
def endSequence (s : State) (h : Nat) (k : BitVec 4) (off lost : Nat) (text : Bool) : State :=
  s.gen.parts.foldl (fun s x =>
    let p := partId x.1
    let items := (itemsOf x.2 h).filter fun i => decide (i.index = k.toNat)
    let s := setPart s p fun q => { q with rings := (mmap (fun _ l => l.filter fun i => decide (i.handle ≠ h ∨ i.index ≠ k.toNat)) q.rings).filter fun e => decide (e.2 ≠ []) }
    let s := items.foldl (fun s i => match reqOf s h with
      | some r => finalSeq s h i.index { tag := r.tag, body := .final 0 0 r.invalidText .error k (w32 off), flags := r.flags, status := .badDescriptor }
      | none => s) s
    (x.2.slots.filter fun y => decide (y.2.state ≠ .free ∧ y.2.request = h ∧ y.2.seq = k)).foldl (fun s y =>
      let s := setSlotRec s p y.1 fun z => { z with badBuf := some (z.badBuf.getD off), lostBytes := z.lostBytes + lost }
      if text then setStreamRec s p y.1 fun z => { z with failed := true } else s) s) s

/-- A payload piece of a generating request could not be written (R274): later output of the sequence is dropped with it. -/
def badSequence (s : State) (fn : Tenant) (q : BitVec 3) (h : Nat) (off lost : Nat) (c : Completion) (rest : List Completion) : State :=
  let same := fun (d : Completion) => decide (d.tag = c.tag ∧ d.seq = c.seq)
  let text := decide (c.body.kind = 1)
  let lost := lost + ((rest.filter fun d => text && same d).map (·.textBytes)).sum
  let rest := (rest.filter fun d => !(text && same d && decide (d.body.kind = 1))).map fun d =>
    if same d && decide (d.body.kind = 0) then badFinal off lost true d else d
  endSequence (setQp s fn q fun p => { p with waiting := rest }) h c.seq off lost text

/-- A payload piece whose translation fails (R274): pieces before it stay written. -/
def badPayload (s : State) (fn : Tenant) (q : BitVec 3) (i : Nat) (c : Completion) (rest : List Completion) : State :=
  let s := (c.payload.take i).foldl (writePiece fn q) s
  let wrote := ((c.payload.take i).map fun x => x.2.length).sum
  match (s.host.requests.find? fun x => decide (x.2.fn = fn ∧ x.2.tag = c.tag) && !x.2.remote) with
  | none => setQp s fn q fun p => { p with waiting := rest }
  | some (h, r) =>
    let text := fun (a : BitVec 64) => decide ((a - r.block.textBuf).toNat < max 1 r.block.nSeq * r.block.textSize)
    match c.body with
    | .final .. =>
      let c := match badFinal 32 0 false c with
        | d => { d with body := match d.body with
            | .final _ _ it st sq aux => .final 0 wrote it st sq aux
            | b => b }
      setQp s fn q fun p => { p with waiting := c :: rest }
    | .tokens _ n _ _ _ =>
      let done := (((c.payload.take i).filter fun x => text x.1).map fun x => x.2.length).sum
      let off := if (c.payload[i]?).any fun x => text x.1 then 0x00010030 else 0x00010040
      badSequence s fn q h off (n - done) c rest
    | _ => badSequence s fn q h 0x00010048 0 c rest

/-- COMPLETION_POST (R274, R284 to R286): the first completion that waits, when a slot is free. bad names the payload piece in host memory whose
translation fails; a piece in the window has none. -/
def completionPost (s : State) (fn : Tenant) (q : BitVec 3) (ringOk : Bool) (bad : Option Nat) : State :=
  let p := qpOf s fn q
  match p.waiting with
  | [] => s
  | c :: rest =>
    if p.state ≠ .enabled || decide (cqSize p ≤ cqUsed p) then s
    else if !ringOk then qpError s fn q 4
    else match bad.filter (fun i => (c.payload[i]?).any fun x => !inWindow x.1) with
      | some i => badPayload s fn q i c rest
      | none =>
        let s := settleWindow (readyWord (c.payload.foldl (writePiece fn q) s) c)
        if s.tier.windowWrites = [] then writeRecord s fn q { c with payload := [] } rest
        else setQp s fn q fun p => { p with waiting := { c with payload := [] } :: rest }

def execCompletionPost (fn : Tenant) (q : BitVec 3) (ringOk : Bool) (bad : Option Nat) (s : State) : Out := .next (completionPost s fn q ringOk bad)

/-! ## Interrupts (R287) -/

/-- MSIX_TIME_EXPIRY (R287). -/
def vectorTime (s : State) (fn : Tenant) (v : BitVec 4) : State :=
  let x := vecOf s fn v
  if x.time ≠ 0 && x.oldest.any fun t => decide (x.time.toNat ≤ since t (now s)) then signalVector s fn v else s

def execMsixTimeExpiry (fn : Tenant) (v : BitVec 4) (s : State) : Out := .next (vectorTime s fn v)

/-- MSIX_VECTOR_UNMASK (R287): a pending message is sent. -/
def vectorUnmask (s : State) (fn : Tenant) (v : BitVec 4) : State :=
  let pend := (vecOf s fn v).pending
  let s := setVec s fn v fun x => { x with masked := false, pending := false }
  if pend then emit s (.msix fn v) else s

def execMsixVectorUnmask (fn : Tenant) (v : BitVec 4) (s : State) : Out := .next (vectorUnmask s fn v)

/-! ## Cancelling (R313, Table 13.16) and the resets that cancel (R288, R289, R468) -/

/-- An item of the request is in a step. -/
def inSomeStep (s : State) (h : Nat) : Bool := s.gen.parts.any fun q => q.2.step.items.any fun i => decide (i.handle = h)

/-- Sequences of a TURN or GENERATE: those that wait are removed at once, those in slots end at the next boundary. -/
def cancelSequences (s : State) (h : Nat) : State :=
  s.gen.parts.foldl (fun s x =>
    let p := partId x.1
    let s := (slotsOf x.2 h).foldl (fun s n => setSlotRec s p n fun y => { y with cancel := true }) s
    let s := setPart s p fun q => { q with rings := (mmap (fun _ l => l.filter fun i => decide (i.handle ≠ h)) q.rings).filter fun e => decide (e.2 ≠ []) }
    (itemsOf x.2 h).foldl (fun s i => endItem s i .cancelled 0) s) s

/-- A cancellable request is cancelled where it stands (Table 13.16). -/
def cancelAt (s : State) (h : Nat) : State :=
  match reqOf s h with
  | none => s
  | some r =>
    match r.phase with
    | .stream => endRequest s h .cancelled 0
    | .waiting | .slot => cancelSequences s h
    | .ending | .mutation | .forwarded | .fenceWait | .cancelWait => s
    | ph =>
      let s := dequeueItems (modReq s h fun r => { r with cancel := true }) h
      if (ph = .embed || ph = .rerank || ph = .running) && !inSomeStep s h then endRequest s h .cancelled 0 else s

/-- A reset reaches a request: it posts no more, and ends in the way CANCEL ends it; a waiting FENCE or CANCEL ends at once, and loads and
mutations run to their ends. -/
def resetRequest (s : State) (h : Nat) : State :=
  let s := modReq s h fun r => { r with mute := true }
  match reqOf s h with
  | none => s
  | some r =>
    if r.phase = .fenceWait || r.phase = .cancelWait then finishPlain s h .cancelled 0
    else if cancellable r.op || (r.op = .rowUpdate && r.phase = .running) then cancelAt s h else s

/-- Every request that a test names is reset. -/
def resetRequests (s : State) (which : Request → Bool) : State :=
  (s.host.requests.filter fun x => which x.2 && !x.2.remote).foldl (fun s x => resetRequest s x.1) s

/-- Pairs that a test names are disabled; f gives what is left of their registers. -/
def disablePairs (s : State) (which : Nat → Bool) (f : QueuePair → QueuePair) : State :=
  (s.host.qps.filter fun x => which x.1).foldl (fun s x => stopPair s (BitVec.ofNat 9 (x.1 / 8)) (BitVec.ofNat 3 x.1) fun p => f p) s

/-- CXL_HOT_RESET (R288, R458, R464): a hot reset or a link down. -/
def hotReset (s : State) : State :=
  let s := resetRequests s fun _ => true
  let s := disablePairs s (fun _ => true) fun p => { p with enable := false, state := .disabled, pinned := false, rereads := 0 }
  let s := { s with
    host := { s.host with ats := [] }
    tier := { s.tier with hostLines := [], windowReads := [] }
    pair := { s.pair with linesPinned := false }
    engines := { s.engines with merges := mmap (fun _ m => { m with lines := [] }) s.engines.merges } }
  settleWindow s

/-- A reset of narrower reach: held until a warm release ends, discarded when the reset in progress covers it (R458). -/
def orHold (s : State) (h : HeldReset) (go : State → State) : State :=
  match s.power.resetting with
  | none => go s
  | some .warm => { s with power := { s.power with held := s.power.held ++ [h] } }
  | some _ => s

def execCxlHotReset (s : State) : Out := .next (orHold s .hot hotReset)

/-- The mailbox takes its reset values; a command in progress ends with CANCELLED (Table 20.2). -/
def mailboxReset (s : State) : State :=
  let b := s.bureau
  let gone := b.background.filter (·.fromMailbox)
  { s with bureau := { b with
      mbSub := 0, mbCode := 0, mbLen := 0, mbExec := false, mbBackground := false, mbDiscards := 0, mbOutLen := 0, mbStatus := 0, mbTicket := 0
      mbIrqEn := false, mbVector := 0, mbData := [], background := b.background.filter fun x => !x.fromMailbox
      outcomes := gone.foldl (fun m x => mins m x.ticket.toNat (BitVec.ofNat 8 Status.cancelled.code, [])) b.outcomes } }

/-- FUNCTION_LEVEL_RESET (R289, R464): the function's pairs, moderation and MSI-X take their reset values. -/
def functionReset (s : State) (fn : Tenant) : State :=
  let s := resetRequests s fun r => decide (r.fn = fn)
  let s := disablePairs s (fun k => decide (k / 8 = fn.toNat)) fun _ => {}
  let s := { s with host := { s.host with
    vectors := s.host.vectors.filter fun v => decide (v.1 / 16 ≠ fn.toNat), eventQp := mdel s.host.eventQp fn.toNat
    halves := s.host.halves.filter fun h => decide (h.1 / 2 ^ 20 ≠ fn.toNat) || (decide (fn = 0) && decide (h.1 / 2 ^ 16 ≠ 1)) } }
  if fn = 0 then mailboxReset s else s

def execFunctionLevelReset (fn : Tenant) (s : State) : Out := .next (orHold s (.flr fn) fun s => functionReset s fn)

end Sys2Proof.Machine
end

