-- ==== Sys2Proof/Machine/Requests.lean ====
section
/-! DEFINITION. Descriptors of the data plane: NOP, turns and their text, EMBED, SEARCH, RERANK, GENERATE, TOKENIZE, DETOKENIZE, index and table
work, CANCEL and FENCE (R294 to R302, R313, R314). -/

namespace Sys2Proof.Machine

/-- A failed check inside the parameter region (R293). -/
def badParam (l : List (Nat × Bool)) : Option Reject := (firstBad l).map fun o => badAt (0x10000 + o)

/-- Order 8: the tenant is not suspended (R317). -/
def weighted (s : State) (tn : Tenant) : Option Reject := require (decide ((tenOf s tn).weight ≠ 0)) noRoom

/-- Order 8: the result region takes n bytes. -/
def roomFor (d : Descriptor) (n : Nat) : Option Reject := require (decide (n ≤ resultRoom d)) noRoom

/-- Order 7: the tenant's mutations are served or forwarded here (Table 16.6). -/
def primacy (s : State) (tn : Tenant) (own : Option Bool) : Option Reject := require (decide (mutRole s tn own ≠ .redirect)) { st := .redirectPartner }

/-- Order 8 for a mutation: the role does not refuse it (Table 16.6). -/
def mutRoom (s : State) (tn : Tenant) (own : Option Bool) : Option Reject := require (decide (mutRole s tn own ≠ .noResources)) noRoom

/-! ## NOP -/

def execNop (fn : Tenant) (q : BitVec 3) (v : HostView) (s : State) : Out :=
  .next (acceptFront s fn q .nop anyForm v fun s h r _ => checked s h (gibsOf r.desc |> accessChecks s fn) fun s => finishPlain s h .ok 0)

/-! ## Turns and their text (R13, R193, R201, R243, R244, R296 to R299, R383) -/

/-- Relative deadlines count from now on (R298). -/
def absolute (s : State) (b : TurnBlock) : TurnBlock :=
  let up := fun d => if d = 0 then 0 else d + (now s).toNat
  if b.relDeadline then { b with relDeadline := false, softDeadline := up b.softDeadline, firstDeadline := up b.firstDeadline, hardDeadline := up b.hardDeadline }
  else b

/-- Tokenizer sets that the turn's programs and its template name (R193). -/
def turnSets (s : State) (fn : Tenant) (b : TurnBlock) : List (BitVec 2) :=
  let progs := (progKind s b.genPart .generator).toList
    ++ (if b.noRetrieval then [] else (progKind s b.embedPart .encoder).toList ++ (progKind s b.rerankPart .rerank).toList)
  (progs.map (·.tokSet) ++ ((readTemplate s fn b.template).map tplSet).toList).foldl (fun a k => withLast (BitVec.ofNat 2 k) a) []

/-- The limit of a question in one set (R244). -/
def questionLimit : Nat := 16384

/-- A request that needs a lost table tile ends (R237, Table 4.8). -/
def lostTable (h : Nat) (s : State) : State := endRequest s h .mediaError 0

/-- Turn start on verified tables: the text is tokenized in every set, the template is copied, the deadlines stand, and the first phase begins. -/
def beginTurn (h : Nat) (r : Request) (b : TurnBlock) (tpl : Bytes) (s : State) : State :=
  let toks := (turnSets s r.fn b).map fun k => (k, tokenize s k false r.text)
  let first := (toks.head?.map (·.2.replaced)).getD 0
  let s := countText s r.fn r.tag { replaced := first, joiners := (toks.map (·.2.joiners)).sum }
  let s := setReq s h { r with
    block := b, streamOpen := false, template := some tpl, invalidText := r.invalidText + first
    tokens := toks.foldl (fun m x => mins m x.1.toNat x.2.toks) [] }
  if toks.any fun x => decide (questionLimit < x.2.toks.length) then endRequest s h .noResources 0
  else match copyTemplate s h b.template with
    | none => endRequest s h .noResources 0
    | some s =>
      if b.noRetrieval then toPhase s h .pack
      else queueItem (toPhase s h .embed) (partId b.embedPart) r.fn { kind := .input, handle := h }

/-- Turn start (R13): the template is read, and the turn begins. -/
def startTurn (s : State) (h : Nat) : State :=
  match reqOf s h with
  | none => s
  | some r =>
    let b := absolute s r.block
    match readTemplate s r.fn b.template with
    | none => endRequest s h .badDescriptor 0x0001000C
    | some tpl => useSets s (turnSets s r.fn b) (lostTable h) (beginTurn h r b tpl)

/-- Text streams open (R243). -/
def openStreams (s : State) : Nat := (s.host.requests.filter fun x => x.2.streamOpen && decide (x.2.phase = .stream)).length

/-- Partitions, index, grammar and adapter that a turn block names (Table 13.4 order 6, R317). -/
def blockNames (b : TurnBlock) : List Named :=
  [.part b.embedPart, .part b.genPart] ++ (if b.rerankPart = 0xFF then [] else [.part b.rerankPart])
    ++ (if b.noRetrieval then [] else [.index b.index]) ++ (if b.grammar = 0xFFFF then [] else [.grammar b.grammar])
    ++ (if b.adapter = 0xFFFF then [] else [.adapter b.genPart b.adapter])

/-- Orders 5 to 8 of a TURN. -/
def turnChecks (s : State) (r : Request) : List (Option Reject) :=
  let b := blockFixed r.param
  [badParam (turnBlockChecks s r.fn .turn r.param)] ++ accessChecks s r.fn (blockNames b ++ gibsOf r.desc)
    ++ [require (decide (openStreams s < 4096)) noRoom, takesWork s b.genPart (some .generator),
        (if b.noRetrieval then none else takesWork s b.embedPart (some .encoder)), mayAdmit s r.fn]

/-- An accepted TURN or GENERATE is mirrored while the link is UP (R383). -/
def mirrorDesc (s : State) (h : Nat) : State :=
  match reqOf s h with
  | none => s
  | some r =>
    if s.pair.link = .up then
      sendObject (setReq s h { r with mirrored := true }) { type := 0x30, tenant := r.fn, ref := r.tag, object := r.qp.setWidth 16 } (.desc r.desc r.param)
    else s

/-- An accepted TURN (R296): its stream opens; a question in the block closes it at once. -/
def openTurn (s : State) (h : Nat) : State :=
  match reqOf s h with
  | none => s
  | some r =>
    let b := readBlock r.param
    let s := mirrorDesc (setReq s h { r with block := b, phase := .stream, streamOpen := true, text := b.input }) h
    if b.input = [] then s else startTurn s h

def execTurn (fn : Tenant) (q : BitVec 3) (v : HostView) (s : State) : Out :=
  .next (acceptFront s fn q .turn anyForm v fun s h r _ => checked s h (turnChecks s r) fun s => openTurn s h)

/-- The open turn of the pair with a tag (R296). -/
def openTurnOf (s : State) (fn : Tenant) (q : BitVec 3) (tag : BitVec 64) : Option Nat :=
  (s.host.requests.find? fun x => decide (x.2.op = .turn ∧ x.2.fn = fn ∧ x.2.qp = q ∧ x.2.tag = tag ∧ x.2.phase = .stream) && x.2.streamOpen).map (·.1)

/-- Text joins a turn's stream; the last piece is turn start (R243, R244). -/
def addText (s : State) (t : Nat) (data : Bytes) (last : Bool) : State :=
  let s := modReq s t fun r => { r with text := r.text ++ data }
  if last then startTurn s t
  else match reqOf s t with
    | none => s
    | some r => useSets s (turnSets s r.fn r.block) (lostTable t) fun s =>
      if (turnSets s r.fn r.block).any fun k => decide (questionLimit < (tokenizeOpen s k r.text).length) then endRequest s t .noResources 0 else s

/-- TEXT_APPEND (R296, R312, R383): its FINAL precedes that of its turn. -/
def textAppend (s : State) (h : Nat) (r : Request) : State :=
  match openTurnOf s r.fn r.qp r.desc.argC with
  | none => finishPlain s h .badDescriptor 48
  | some t =>
    let last := r.desc.opflags.getLsbD 0
    let s := if (reqOf s t).any (·.mirrored) && s.pair.link = .up then
        sendMsg s { type := 0x31, tenant := r.fn, ref := r.desc.argC } (.text r.param last) else s
    addText (finish s h .ok (finalBody r r.param.length 0 .none 0 0) []) t r.param last

def execTextAppend (fn : Tenant) (q : BitVec 3) (v : HostView) (s : State) : Out :=
  .next (acceptFront s fn q .textAppend anyForm v fun s h r _ => checked s h (accessChecks s fn (gibsOf r.desc)) fun s => textAppend s h r)

/-- The time by which END is to be accepted has passed (R296). -/
def endOverdue (s : State) (r : Request) : Bool :=
  decide (r.block.hardDeadline ≠ 0)
    && (if r.block.relDeadline then decide (60000000 ≤ since r.acceptedAt (now s)) else passed s r.block.hardDeadline)

/-- TURN_END_DEADLINE (R296). -/
def turnEndDeadline (s : State) (h : Nat) : State :=
  match reqOf s h with
  | none => s
  | some r => if r.op = .turn && r.phase = .stream && r.streamOpen && endOverdue s r then endRequest s h .deadline 0 else s

def execTurnEndDeadline (h : Nat) (s : State) : Out := .next (turnEndDeadline s h)

/-! ## EMBED, SEARCH, RERANK, GENERATE (R299, R300) -/

/-- 4-byte numbers of a region. -/
def words (p : Bytes) (off n : Nat) : List Nat := (List.range n).map fun i => rd p (off + 4 * i) 4

/-- Ids of a list that are below a vocabulary, by offset. -/
def idsBelow (p : Bytes) (off n vocab : Nat) : List (Nat × Bool) := (List.range n).map fun i => (off + 4 * i, decide (rd p (off + 4 * i) 4 < vocab))

/-- Orders 5 to 8 of an EMBED. -/
def embedChecks (s : State) (r : Request) : List (Option Reject) :=
  let n := r.desc.argA.toNat % 32
  let g := progKind s n .encoder
  [(g.bind fun g => if r.desc.opflags.getLsbD 0 then badParam (idsBelow r.param 0 (r.param.length / 4) g.vocab) else none)]
    ++ accessChecks s r.fn (.part n :: gibsOf r.desc)
    ++ [takesWork s n (some .encoder), weighted s r.fn, (g.bind fun g => roomFor r.desc (4 * g.dim))]

/-- An EMBED's tokens stand, and it takes its place in the partition's ring (R300). -/
def queueEmbed (h : Nat) (r : Request) (k : BitVec 2) (t : Tokens) (s : State) : State :=
  let s := setReq (countText s r.fn r.tag t) h { r with phase := .embed, tokens := [(k.toNat, t.toks)], invalidText := t.replaced }
  queueItem s (partId (r.desc.argA.toNat % 32)) r.fn { kind := .input, handle := h }

/-- An accepted EMBED (R237, R300). -/
def startEmbed (s : State) (h : Nat) (r : Request) : State :=
  let k := BitVec.ofNat 2 (((progOf s (r.desc.argA.toNat % 32)).map (·.tokSet)).getD 0)
  if r.desc.opflags.getLsbD 0 then queueEmbed h r k { toks := words r.param 0 (r.param.length / 4) } s
  else useSets s [k] (lostTable h) fun s => queueEmbed h r k (tokenize s k false r.param) s

def execEmbed (fn : Tenant) (q : BitVec 3) (v : HostView) (s : State) : Out :=
  .next (acceptFront s fn q .embed anyForm v fun s h r _ => checked s h (embedChecks s r) fun s => startEmbed s h r)

/-- Orders 5 to 8 of a SEARCH. -/
def searchChecks (s : State) (r : Request) : List (Option Reject) :=
  [badParam (turnBlockChecks s r.fn .search r.param)] ++ accessChecks s r.fn (.index (blockFixed r.param).index :: gibsOf r.desc)
    ++ [roomFor r.desc 12416]

/-- An accepted SEARCH (R299): the walk begins on the query given. -/
def startSearch (s : State) (h : Nat) (r : Request) : State :=
  let b := absolute s (readBlock r.param)
  setReq s h { r with block := b, phase := .walk, ret := { query := (words b.input 0 (b.input.length / 4)).map w32 } }

def execSearch (fn : Tenant) (q : BitVec 3) (v : HostView) (s : State) : Out :=
  .next (acceptFront s fn q .search anyForm v fun s h r _ => checked s h (searchChecks s r) fun s => startSearch s h r)

/-- Orders 5 to 8 of a RERANK. -/
def rerankChecks (s : State) (r : Request) : List (Option Reject) :=
  let n := r.desc.argA.toNat % 32
  [(rerankBlockBad ((progKind s n .rerank).map (·.vocab)) r.param).map badAt]
    ++ accessChecks s r.fn (.part n :: .index (r.desc.argA.toNat / 256) :: gibsOf r.desc)
    ++ [takesWork s n (some .rerank), weighted s r.fn, roomFor r.desc (12416 + 4 * rd r.param 4 4)]

/-- An accepted RERANK (R300): the fetch of the passages named begins. -/
def startRerank (s : State) (h : Nat) (r : Request) : State :=
  let n := r.desc.argA.toNat % 32
  let k := ((progOf s n).map (·.tokSet)).getD 0
  let b : TurnBlock := { rerankPart := n, index := r.desc.argA.toNat / 256, candidates := rd r.param 4 4, rerankMin := rd r.param 4 4 }
  let cands := (List.range (rd r.param 4 4)).map fun i => ({ pid := BitVec.ofNat 40 (rd r.param (pidOff r.param + 8 * i) 8), score := fpNan } : Cand)
  setReq s h { r with block := b, phase := .fetch, tokens := [(k, words r.param 8 (rd r.param 0 4))], ret := { cands := cands } }

def execRerank (fn : Tenant) (q : BitVec 3) (v : HostView) (s : State) : Out :=
  .next (acceptFront s fn q .rerank anyForm v fun s h r _ => checked s h (rerankChecks s r) fun s => startRerank s h r)

/-- Partition, grammar and adapter that a GENERATE names. -/
def generateNames (b : TurnBlock) : List Named :=
  .part b.genPart :: ((if b.grammar = 0xFFFF then [] else [.grammar b.grammar]) ++ if b.adapter = 0xFFFF then [] else [.adapter b.genPart b.adapter])

/-- Orders 5 to 8 of a GENERATE. -/
def generateChecks (s : State) (r : Request) : List (Option Reject) :=
  let b := blockFixed r.param
  [badParam (turnBlockChecks s r.fn .generate r.param)] ++ accessChecks s r.fn (generateNames b ++ gibsOf r.desc)
    ++ [takesWork s b.genPart (some .generator), mayAdmit s r.fn]

/-- An accepted GENERATE (R299): N_SEQ sequences enter the tenant's ring. -/
def startGenerate (s : State) (h : Nat) (r : Request) : State :=
  let b := absolute s (readBlock r.param)
  let s := mirrorDesc (setReq s h { r with block := b, phase := .waiting }) h
  (List.range b.nSeq).foldl (fun s k => queueItem s (partId b.genPart) r.fn { kind := .prompt, handle := h, index := k }) s

def execGenerate (fn : Tenant) (q : BitVec 3) (v : HostView) (s : State) : Out :=
  .next (acceptFront s fn q .generate anyForm v fun s h r _ => checked s h (generateChecks s r) fun s => startGenerate s h r)

/-! ## TOKENIZE and DETOKENIZE (R242 to R248, R300) -/

/-- The set of ARG_A, and the checks that it is installed. -/
def setArg (r : Request) : BitVec 2 := BitVec.ofNat 2 r.desc.argA.toNat
def setChecks (s : State) (r : Request) : List (Option Reject) :=
  [require (decide ((setOf s (setArg r)).state = .installed)) (badAt 28)]

/-- An output that the result region does not take ends NO_RESOURCES with the count needed (R300). -/
def textResult (s : State) (h : Nat) (r : Request) (data : Bytes) (need count : Nat) (invalid : Nat) (aux : Nat) : State :=
  let r := { r with invalidText := invalid }
  let s := setReq s h r
  if resultRoom r.desc < data.length then finish s h .noResources (finalBody r need 0 .none 0 0) []
  else finish s h .ok (finalBody r count data.length .none 0 (w32 aux)) [(r.desc.resultAddr, data)]

/-- TOKENIZE (R242, R245, R246), on verified tables (R237). -/
def runTokenize (s : State) (h : Nat) (r : Request) : State := useSets s [setArg r] (lostTable h) fun s =>
  let t := tokenize s (setArg r) (r.desc.opflags.getLsbD 0) r.param
  textResult (countText s r.fn r.tag t) h r (t.toks.flatMap (toLE 4)) t.toks.length t.toks.length t.replaced 0

def execTokenize (fn : Tenant) (q : BitVec 3) (v : HostView) (s : State) : Out :=
  .next (acceptFront s fn q .tokenize anyForm v fun s h r _ =>
    checked s h (setChecks s r ++ accessChecks s fn (gibsOf r.desc)) fun s => runTokenize s h r)

/-- DETOKENIZE (R247, R248): SPECIAL tokens give no bytes; on verified tables (R237). -/
def runDetokenize (s : State) (h : Nat) (r : Request) : State := useSets s [setArg r] (lostTable h) fun s =>
  let k := setArg r
  let ids := words r.param 0 (r.param.length / 4)
  let special := (ids.filter (isSpecial s k)).length
  let raw := (ids.filter fun i => !isSpecial s k i).flatMap (tokenString s k)
  let out := if r.desc.opflags.getLsbD 0 then (raw, 0) else repairBytes raw
  let s := { s with text := { s.text with cntReplaced := s.text.cntReplaced + out.2, cntSpecial := s.text.cntSpecial + special } }
  let s := if 0 < out.2 then logEvent s (.textReplaced r.fn r.tag out.2 true) else s
  textResult s h r out.1 out.1.length ids.length out.2 special

def execDetokenize (fn : Tenant) (q : BitVec 3) (v : HostView) (s : State) : Out :=
  .next (acceptFront s fn q .detokenize anyForm v fun s h r _ =>
    checked s h (setChecks s r ++ [badParam (idsBelow r.param 0 (r.param.length / 4) (setVocab s (setArg r)))]
      ++ accessChecks s fn (gibsOf r.desc)) fun s => runDetokenize s h r)

/-! ## Index mutations (R180 to R188, R301) -/

/-- The index that a mutation names. -/
def indexArg (s : State) (r : Request) : IndexRec := (indexOf s (mutIndex r)).getD {}

/-- Orders 6 to 8 of an index mutation. -/
def batchChecks (s : State) (r : Request) : List (Option Reject) :=
  accessChecks s r.fn (.index (mutIndex r) :: gibsOf r.desc) ++ [primacy s r.fn none, mutRoom s r.fn none]

/-- An accepted batch goes to the index agent. -/
def startBatch (s : State) (h : Nat) (r : Request) (swapOk : Bool) : State :=
  acceptBatch (setReq s h { r with phase := .mutation }) h (mutIndex r) swapOk

def execIndexInsert (fn : Tenant) (q : BitVec 3) (v : HostView) (s : State) : Out :=
  .next (acceptFront s fn q .indexInsert (fun d => !d.opflags.getLsbD 0) v fun s h r _ =>
    checked s h ([badParam (insertChecks fn (indexArg s r).dim (itemCount r) r.param)] ++ batchChecks s r ++ [roomFor r.desc (8 * itemCount r)])
      fun s => startBatch s h r v.swapOk)

def execIndexPatch (fn : Tenant) (q : BitVec 3) (v : HostView) (s : State) : Out :=
  .next (acceptFront s fn q .indexInsert (fun d => d.opflags.getLsbD 0) v fun s h r _ =>
    checked s h ([badParam (patchChecks s (indexArg s r) (itemCount r) r.param)] ++ batchChecks s r) fun s => startBatch s h r v.swapOk)

def execIndexDelete (fn : Tenant) (q : BitVec 3) (v : HostView) (s : State) : Out :=
  .next (acceptFront s fn q .indexDelete anyForm v fun s h r _ =>
    checked s h ([badParam (deleteChecks (itemCount r) r.param)] ++ batchChecks s r) fun s => startBatch s h r v.swapOk)

/-! ## Tables (R259, R264, R302) -/

/-- The table that a descriptor names. -/
def tableArg (s : State) (r : Request) : TableRec := (tableOf s (r.desc.argA.toNat % 64)).getD {}

/-- Bytes of a lookup's result (R302). -/
def lookupBytes (t : TableRec) (r : Request) : Nat :=
  r.param.length / 4 / bagSize r * t.cols * (if r.desc.opflags.getLsbD 0 then 2 else 4)

def execRowLookup (fn : Tenant) (q : BitVec 3) (v : HostView) (s : State) : Out :=
  .next (acceptFront s fn q .rowLookup anyForm v fun s h r _ =>
    let t := tableArg s r
    checked s h (accessChecks s fn (.table (r.desc.argA.toNat % 64) :: gibsOf r.desc)
        ++ [mayAdmit s fn, takesWork s t.part.toNat none, roomFor r.desc (lookupBytes t r)])
      fun s => queueItem s t.part fn { kind := .lookup, handle := h })

/-- An accepted ROW_UPDATE: forwarded to the owner, or queued for a step of the reader partition (R265, R267, R379). -/
def startUpdate (s : State) (h : Nat) (r : Request) : State :=
  let t := tableArg s r
  if mutRole s r.fn (some t.ownerPos) = .forward then forwardMut s h else queueItem s t.part r.fn { kind := .update, handle := h }

def execRowUpdate (fn : Tenant) (q : BitVec 3) (v : HostView) (s : State) : Out :=
  .next (acceptFront s fn q .rowUpdate anyForm v fun s h r _ =>
    let t := tableArg s r
    let own := some t.ownerPos
    checked s h ([badParam (updateChecks t.cols (itemCount r) r.param)] ++ accessChecks s fn (.table (r.desc.argA.toNat % 64) :: gibsOf r.desc)
        ++ [primacy s fn own, mutRoom s fn own, mayAdmit s fn,
            (if mutRole s fn own = .forward then none else takesWork s t.part.toNat none)])
      fun s => startUpdate s h r)

/-! ## CANCEL and FENCE (R313, R314) -/

/-- The outstanding descriptor of the function with a tag, the one asking apart (R313). -/
def targetOf (s : State) (fn : Tenant) (tag : BitVec 64) (h : Nat) : Option (Nat × Request) :=
  s.host.requests.find? fun x => decide (x.2.fn = fn ∧ x.2.tag = tag ∧ x.1 ≠ h) && !x.2.remote

/-- A CANCEL's effect, and its own FINAL after that of its target; AUX is what its fetch found (R313). -/
def runCancel (s : State) (h : Nat) (r : Request) (hit : Bool) : State :=
  match targetOf s r.fn r.desc.argC h with
  | none => finishPlain s h .ok (w32 (b2n hit))
  | some (t, x) =>
    let s := setReq s h { r with phase := .cancelWait, waitsFor := [t], outCount := b2n hit }
    if cancellable x.op then cancelAt s t else s

/-- A descriptor fetched before is still to be judged (R292, R313): the CANCEL waits for it. -/
def targetFetched (s : State) (fn : Tenant) (f : Fetched) : Bool :=
  (List.range 8).any fun q => (qpOf s fn (BitVec.ofNat 3 q)).fetched.any fun g => decide (g.handle < f.handle ∧ g.desc.tag = f.desc.argC)

def execCancel (fn : Tenant) (q : BitVec 3) (v : HostView) (s : State) : Out :=
  .next (if ((qpOf s fn q).fetched.head?).any (targetFetched s fn) then s
    else acceptFront s fn q .cancel anyForm v fun s h r f => runCancel s h r f.hit)

/-- Earlier descriptors of the pair are outstanding (R314). -/
def earlierOpen (s : State) (fn : Tenant) (q : BitVec 3) (h : Nat) : Bool :=
  s.host.requests.any fun x => decide (x.1 < h ∧ x.2.fn = fn ∧ x.2.qp = q) && !x.2.remote

def execFence (fn : Tenant) (q : BitVec 3) (v : HostView) (s : State) : Out :=
  .next (acceptFront s fn q .fence anyForm v fun s h r _ => setReq s h { r with phase := .fenceWait })

/-- FENCE_COMPLETE (R314): the FINAL, and with WAIT the fetch goes on. -/
def fenceComplete (s : State) (h : Nat) (descs : List Descriptor) : State :=
  match reqOf s h with
  | none => s
  | some r =>
    if r.phase ≠ .fenceWait || earlierOpen s r.fn r.qp h then s
    else
      let s := finishPlain s h .ok 0
      if (qpOf s r.fn r.qp).fenced = some h then fetchAll r.fn r.qp descs (setQp s r.fn r.qp fun p => { p with fenced := none }) else s

def execFenceComplete (h : Nat) (descs : List Descriptor) (s : State) : Out := .next (fenceComplete s h descs)

end Sys2Proof.Machine
end

