-- ==== Sys2Proof/Machine/Loads.lean ====
section
/-! DEFINITION. Loads by descriptor: LOAD_EXTENT, ADAPTER_LOAD, GRAMMAR_LOAD (R230, R252, R253, R303, R304). -/

namespace Sys2Proof.Machine

/-! ## Tile images -/

/-- Tile image i of a parameter region (R303): the stored header of R79, then the payload. -/
def tileImage (p : Bytes) (i : Nat) : Tile :=
  { hdr := TileHeader.ofNat (rd p (16416 * i) 32), payload := slice p (16416 * i + 32) 16384 }

/-- Tiles of a region up to the first whose CRC fails, and that one's number (R303). -/
def goodImages (p : Bytes) (n : Nat) : List Tile × Option Nat :=
  match (List.range n).find? fun i => !(tileImage p i).crcOk with
  | some b => ((List.range b).map (tileImage p), some b)
  | none => ((List.range n).map (tileImage p), none)

/-- AUX of a tile image that fails (R293). -/
def imageAux (i : Nat) : Nat := 0x10000 + 16416 * i

/-! ## LOAD_EXTENT -/

/-- Extents that hold len bytes from a device-range address on. -/
def spanExtents (addr len : Nat) : List Nat :=
  (List.range ((addr + len - 1) / 2 ^ 21 + 1 - addr / 2 ^ 21)).map (· + addr / 2 ^ 21)

/-- Extent x holds a passage block of the built region or a base unit of a list of the index (R159, R165). -/
def listsHold (s : State) (r : IndexRec) (x : Nat) : Bool :=
  (List.range r.centroids).any fun l =>
    let d := dirEntry s r l
    overlaps x (16384 * dirBase d) (16384 * dirUnits d)
      || (baseEntries s r l d).any fun e => decide (rd e 8 5 < 2 ^ 39) && decide (devExtent (passageUnit r (BitVec.ofNat 40 (rd e 8 5))) = x)

/-- Extent x holds RO data of the index (R157, R159, R165). -/
def indexHolds (s : State) (r : IndexRec) (x : Nat) : Bool :=
  overlaps x r.centBase (r.centroids * r.dim) || overlaps x r.recBase (16 * r.centroids) || overlaps x r.graphBase (128 * r.centroids)
    || overlaps x r.entryBase (16384 + r.entryCount * r.dim) || overlaps x r.codebookBase (512 * r.dim) || listsHold s r x

/-- An extent that no load may change: named by the plan of a loaded partition, or by the RO data of a created index (R303). -/
def loadBarred (s : State) (x : Nat) : Bool := decide (x ∈ plannedExtents s) || s.gen.indexes.any fun i => indexHolds s i.2 x

/-- The tenant check of LOAD_EXTENT: PF0 may load extents of any tenant (R303). -/
def loadTenant (s : State) (fn : Tenant) (x : Nat) : Option Reject := if fn = 0 then none else namedTenant s fn (.extent x)

/-- The first extent that does not exist ends the descriptor (R339, Table 14.11). -/
def existing (s : State) (h : Nat) (fn : Tenant) (xs : List Nat) (go : State → State) : State :=
  match xs.find? fun x => (entryOf s x).isNone with
  | some x => finishPlain (noExtent s fn x) h .badDescriptor 48
  | none => go s

/-- Orders 3, 6 and 8 of a LOAD_EXTENT on its extents. -/
def extentChecks (s : State) (r : Request) (xs : List Nat) : List (Option Reject) :=
  (xs.map fun x => require ((entryOf s x).any fun e => e.cls = 0 || e.cls = 1) (badAt 48))
    ++ xs.map (fun x => namedWorld s (.extent x)) ++ accessChecks s r.fn (gibsOf r.desc) ++ xs.map (loadTenant s r.fn)
    ++ xs.map fun x => require (!loadBarred s x) noRoom

/-- A tile of an RO extent written at one of its places: the state, flash writes issued, and whether it was taken. -/
def loadPlace (h n : Nat) (t : Tile) (e : ExtentEntry) (tier : BitVec 2) (loc : BitVec 25) (s : State) : State × Nat × Bool :=
  let k := (devPos n).toNat
  if tier = 3 then
    let (s, good) := writeUnit s (128 * loc.toNat + k) t (.load h)
    (s, if good then 1 else 0, good)
  else (putAt s (tier, 128 * loc.toNat + k) t e n true, 0, true)

/-- One tile of a load (R303): an RO extent's to HOME, then to COPY where there is one; a WB extent's to COPY, dirty. A tile so filled is lost no
more (Table 4.8). -/
def loadTile (s : State) (h n : Nat) (t : Tile) : State × Nat × Bool :=
  match entryOf s (devExtent n) with
  | none => (s, 0, true)
  | some e =>
    if e.cls = 1 then (clearLost (devWrite s n t) n, 0, true)
    else
      let (s, w, good) := loadPlace h n t e e.homeTier e.homeLoc s
      if !good then (s, w, false)
      else if e.copyTier ≠ 0 then
        let (s, w2, _) := loadPlace h n t e e.copyTier e.copyLoc s
        (clearLost s n, w + w2, true)
      else (clearLost s n, w, true)

/-- Tiles written in order until one is not taken: flash writes issued, tiles written. -/
def loadTiles (h : Nat) : State → Nat → List Tile → State × Nat × Nat
  | s, _, [] => (s, 0, 0)
  | s, n, t :: l =>
    match loadTile s h n t with
    | (s, w, false) => (s, w, 0)
    | (s, w, true) => let (s, w2, k) := loadTiles h s (n + 1) l; (s, w + w2, k + 1)

/-- The tiles are checked and written (R303); FINAL follows the last acknowledgement. -/
def loadExtent (s : State) (h : Nat) (r : Request) : State :=
  let (tiles, bad) := goodImages r.param r.desc.argA.toNat
  let (s, w, k) := loadTiles h s (r.desc.argC.toNat / 16384) tiles
  let how := if k < tiles.length then 1 else match bad with
    | some i => imageAux i
    | none => 0
  let r := { r with writesLeft := w, outCount := k, skippedEdges := how }
  let s := setReq s h r
  if w = 0 then loadFinal s h r else s

def execLoadExtent (fn : Tenant) (q : BitVec 3) (v : HostView) (s : State) : Out :=
  .next (acceptFront s fn q .loadExtent anyForm v fun s h r _ =>
    let xs := extentsOf r.desc.argC.toNat r.desc.argA.toNat
    existing s h fn xs fun s => checked s h (extentChecks s r xs) fun s => loadExtent s h r)

/-! ## ADAPTER_LOAD (R230, R304) -/

/-- A free version slot takes a version; which one is left open: a free value picks it. -/
def takeVersion (s : State) (v : AdapterVersion) : Option (Nat × State) :=
  let fr := (List.range 4096).filter fun n => (mfind s.gen.adapters n).isNone
  let (x, s) := drawFree s
  (fr[x.toNat % max 1 fr.length]?).map fun n =>
    (n, { s with gen := { s.gen with adapters := mins s.gen.adapters n { v with order := s.gen.adapterNext }, adapterNext := s.gen.adapterNext + 1 } })

/-- The version becomes bindable, and older ones of its number that no slot uses are freed (R230). -/
def commitVersion (s : State) (n : Nat) : State := freeVersions (setAdapter s n fun v => { v with bindable := true })

/-- A version whose load did not commit leaves its slot. -/
def dropVersion (s : State) (n : Nat) : State := { s with gen := { s.gen with adapters := mdel s.gen.adapters n } }

/-- Adapter number and partition of an ADAPTER_LOAD (Table 13.3). -/
def adapterNumber (d : Descriptor) : BitVec 16 := BitVec.ofNat 16 d.argA.toNat
def adapterPart (d : Descriptor) : Nat := d.argA.toNat / 65536 % 32

/-- The load of request h commits; listsCut keeps its version slot. -/
def adapterDone (s : State) (h : Nat) : State :=
  match reqOf s h with
  | none => s
  | some r => finish (commitVersion s r.listsCut) h .ok (finalBody r r.outCount 0 .none 0 (w32 r.listsCut)) []

/-- The load of request h did not commit. -/
def adapterFails (s : State) (h : Nat) (st : Status) : State :=
  match reqOf s h with
  | none => s
  | some r => finishPlain (dropVersion s r.listsCut) h st 0

/-- The partner has answered for the load of request h, or it commits alone (R374). -/
def adapterAnswered (s : State) (h : Nat) (st : Status) : State := if st = .ok then adapterDone s h else adapterFails s h st

/-- The images are checked, placed in a version slot, and committed as the tenant's role has it (R230, R304, R380, Table 16.6). -/
def runAdapter (s : State) (h : Nat) (swapOk : Bool) : State :=
  match reqOf s h with
  | none => s
  | some r =>
    let p := partId (adapterPart r.desc)
    match mutRole s r.fn none with
    | .redirect => finishPlain s h .redirectPartner 0
    | .noResources => finishPlain s h .noResources 0
    | .forward => forwardMut s h
    | .replayWait => waitReplay s h
    | role =>
      let (tiles, bad) := goodImages r.param (r.param.length / 16416)
      if (progOf s p.toNat).isNone then finishPlain s h .noResources 0
      else match bad with
      | some i => finish s h .badDescriptor (finalBody r i 0 .none 0 (w32 (imageAux i))) []
      | none =>
        match takeVersion s { tenant := r.fn, number := adapterNumber r.desc, part := p, image := tiles } with
        | none => finishPlain s h .noResources 0
        | some (n, s) =>
          let s := setReq s h { r with phase := .mutation, outCount := tiles.length, listsCut := n }
          let m : MsgHdr := { type := 0x12, tenant := r.fn, partition := BitVec.ofNat 8 p.toNat, object := adapterNumber r.desc }
          if role = .mirrored then journalObject s m (.adapter p tiles) (some h)
          else if role = .solo then
            let s := swapLease s r.fn swapOk fun l => { l with solo := true }
            if swapOk then adapterDone (journalObject s m (.adapter p tiles) none) h else adapterFails s h .redirectPartner
          else adapterDone s h

/-- Orders 6 to 8 of an ADAPTER_LOAD. -/
def adapterChecks (s : State) (r : Request) : List (Option Reject) :=
  let p := adapterPart r.desc
  accessChecks s r.fn ([.part p, .adapter p (adapterNumber r.desc).toNat] ++ gibsOf r.desc)
    ++ [primacy s r.fn none, mutRoom s r.fn none,
        require ((progOf s p).isSome || decide (mutRole s r.fn none = .forward)) noRoom]

def execAdapterLoad (fn : Tenant) (q : BitVec 3) (v : HostView) (s : State) : Out :=
  .next (acceptFront s fn q .adapterLoad anyForm v fun s h r _ => checked s h (adapterChecks s r) fun s => runAdapter s h v.swapOk)

/-! ## GRAMMAR_LOAD (R252, R253) -/

/-- The grammar whose image lies at an address (Table 10.4). -/
def readGrammar (s : State) (addr : Nat) (tn : Tenant) : Grammar :=
  let hd := devRead s addr 64
  { tenant := tn, world := false, tokSet := BitVec.ofNat 2 (rd hd 3 1), vocab := rd hd 4 4, states := rd hd 8 4, intervals := rd hd 12 4
    start := rd hd 16 4, base := BitVec.ofNat 48 addr, stateOff := rd hd 24 8, intervalOff := rd hd 32 8 }

/-- Bytes of a grammar image. -/
def grammarBytes (g : Grammar) : Nat := max 64 (max (g.stateOff + 8 * g.states) (g.intervalOff + 8 * g.intervals))

/-- A slot in PREFILL, DECODE or ENDING has the grammar bound (R253). -/
def grammarBound (s : State) (n : Nat) : Bool :=
  s.gen.parts.any fun p => p.2.slots.any fun x => decide (x.2.state ≠ .free) && decide (x.2.grammar = some (BitVec.ofNat 8 n))

/-- Checks on the extents of an image: RO, non-secure, the requester's. -/
def grammarExtents (s : State) (fn : Tenant) (xs : List Nat) : List (Option Reject) :=
  (xs.map fun x => require ((entryOf s x).any fun e => e.cls = 0) (badAt 48)) ++ accessChecks s fn (xs.map .extent)

/-- The checks of R253, then the load under the number of ARG_A. -/
def grammarLoad (s : State) (h : Nat) (r : Request) : State :=
  let n := r.desc.argA.toNat % 256
  let addr := r.desc.argC.toNat
  let head := spanExtents addr 64
  existing s h r.fn head fun s => checked s h (grammarExtents s r.fn head) fun s =>
    let g := readGrammar s addr r.fn
    if g.states > 1048576 || g.intervals > 67108864 || addr + grammarBytes g > 2 ^ 48 then finishPlain s h .badDescriptor 48
    else
      let xs := spanExtents addr (grammarBytes g)
      existing s h r.fn xs fun s => checked s h (grammarExtents s r.fn xs ++ accessChecks s r.fn [.grammar n]
          ++ [require (grammarOk s g n r.fn) (badAt 48), require (!grammarBound s n) noRoom])
        fun s => finishPlain { s with text := { s.text with grammars := mins s.text.grammars n g } } h .ok 0

def execGrammarLoad (fn : Tenant) (q : BitVec 3) (v : HostView) (s : State) : Out :=
  .next (acceptFront s fn q .grammarLoad anyForm v fun s h r _ => grammarLoad s h r)

end Sys2Proof.Machine
end

