-- ==== Sys2Proof/Machine/Objects.lean ====
section
/-! DEFINITION. Indexes and tables as objects: the checks of their records, creation and removal (R155 to R157, R256). -/

namespace Sys2Proof.Machine

/-- An address field of a record: tile-aligned, in the device range (R156). -/
def fieldAddr (a : Nat) : Bool := decide (a % 16384 = 0 ∧ a < 2 ^ 48)

/-- Every extent of a region is valid, of the tenant and world, unshared, and passes a test of class and tiers. -/
def regionIs (s : State) (tn : Tenant) (world : Bool) (base len : Nat) (f : ExtentEntry → Bool) : Bool :=
  (spanExtents base (max 1 len)).all fun x => (entryOf s x).any fun e => decide (e.tenant = tn) && decide (e.world = world) && !e.shared && f e

def isRo (e : ExtentEntry) : Bool := e.cls = 0
/-- RO with its COPY or its HOME in tier L (R157). -/
def isRoL (e : ExtentEntry) : Bool := e.cls = 0 && (e.copyTier = 2 || e.homeTier = 2)
/-- WB, with HOME in tier F and COPY in tier L (R159, R256). -/
def isWb (e : ExtentEntry) : Bool := e.cls = 1 && e.homeTier = 3 && e.copyTier = 2

/-! ## Indexes -/

/-- An address field of a record, whole (Table 7.1: bits [63:48] zero). -/
def recAddr (b : Bytes) (off : Nat) : Nat := rd b off 8

/-- The record that 128 bytes lay out (Table 7.1). -/
def indexOfBytes (b : Bytes) : IndexRec :=
  { metricIp := bit (rd b 3 1) 0, world := bit (rd b 3 1) 1, tenant := BitVec.ofNat 9 (rd b 4 2), dim := rd b 6 2, pqM := rd b 8 1
    entryBytes := rd b 9 1, beam := rd b 10 1, maxRounds := rd b 11 1, centroids := rd b 12 4, walkAnchor := signed 16 (rd b 16 2)
    sumAnchor := signed 8 (rd b 18 1), insertBeam := rd b 19 1, epoch := w32 (rd b 20 4), oldestSnap := w32 (rd b 24 4)
    insertNext := BitVec.ofNat 40 (rd b 96 8), entryCount := rd b 28 2, centBase := recAddr b 32, recBase := recAddr b 40
    graphBase := recAddr b 48, entryBase := recAddr b 56, codebookBase := recAddr b 64, listdirBase := recAddr b 72
    passageBase := recAddr b 80, insertBase := recAddr b 88, deltaBase := recAddr b 104, deltaTiles := rd b 112 4, tombTiles := rd b 116 4
    tombBase := recAddr b 120 }

/-- What a record's bytes hold beside those fields: VERSION 0x0001, the number that the command names, reserved bits zero, INSERT_NEXT zero in
all its 8 bytes (R156, Table 7.1). A set reserved bit is taken as a field out of its range (DEDUCED, log entry 142). -/
def indexBytesOk (n : Nat) (b : Bytes) : Bool :=
  decide (b.length = 128 ∧ rd b 0 2 = 1 ∧ rd b 2 1 = n ∧ rd b 3 1 < 4 ∧ rd b 4 2 < 512 ∧ rd b 30 2 = 0 ∧ rd b 96 8 = 0)

/-- Fields in range (Table 7.1); the module-written ones zero. -/
def indexFieldsOk (r : IndexRec) : Bool :=
  decide (64 ≤ r.dim ∧ r.dim ≤ 2048 ∧ r.dim % 64 = 0) && decide (r.pqM ∈ [16, 32, 64, 96, 128]) && decide (r.dim % r.pqM = 0)
    && decide (r.entryBytes = if r.pqM ≤ 64 then 96 else 192) && decide (1 ≤ r.beam ∧ r.beam ≤ 64) && decide (1 ≤ r.maxRounds ∧ r.maxRounds ≤ 64)
    && decide (1 ≤ r.centroids ∧ r.centroids ≤ 33554432) && decide (-65 ≤ r.walkAnchor ∧ r.walkAnchor ≤ 127)
    && decide (-128 ≤ r.sumAnchor ∧ r.sumAnchor ≤ 127) && decide (1 ≤ r.insertBeam ∧ r.insertBeam ≤ 64)
    && decide (r.epoch = 0 ∧ r.oldestSnap = 0 ∧ r.insertNext = 0) && decide (64 ≤ r.entryCount ∧ r.entryCount ≤ 4096)
    && [r.centBase, r.recBase, r.graphBase, r.entryBase, r.codebookBase, r.listdirBase, r.passageBase, r.insertBase, r.deltaBase, r.tombBase].all fieldAddr
    && decide (r.deltaTiles < 2 ^ 32 ∧ r.tombTiles < 2 ^ 32)

/-- Every extent that a record names has its class, tenant and world (R156, R157, R159, R165). The entry set needs no place in tier L: the Bureau gives
it its COPY in tier S. -/
def indexExtentsOk (s : State) (r : IndexRec) : Bool :=
  let is := regionIs s r.tenant r.world
  is r.centBase (r.centroids * r.dim) isRoL && is r.recBase (16 * r.centroids) isRoL && is r.graphBase (128 * r.centroids) isRoL
    && is r.entryBase (16384 + r.entryCount * r.dim) isRo && is r.codebookBase (512 * r.dim) isRo && is r.passageBase 1 isRo
    && is r.listdirBase (32 * r.centroids) isWb && is r.insertBase 1 isWb && is r.deltaBase (16384 * r.deltaTiles) isWb
    && is r.tombBase (16384 * r.tombTiles) isWb

/-- Extents of an entry set (R157). -/
def entryExtents (r : IndexRec) : List Nat := spanExtents r.entryBase (16384 + r.entryCount * r.dim)

/-- A tier-S location that nothing uses: no store share, no extent, no tile. -/
def freeSLoc (s : State) (loc : Nat) : Bool :=
  (s.gen.parts.all fun q => decide (q.2.storeCount = 0) || !runsMeet q.2.storeBase q.2.storeCount (128 * loc) 128)
    && decide (128 * loc < Config.conductorBase) && (s.tier.leaves.all fun e => !e.2.valid || (!(e.2.copyTier = 1 && decide (e.2.copyLoc.toNat = loc)) && !(e.2.newTier = 1 && decide (e.2.newLoc.toNat = loc))))
    && (List.range 128).all fun t => decide ((slotOf s (BitVec.ofNat 17 (128 * loc + t))).hdr.state = .free)

/-- Extent x copied to a tier-S location by copy, switch and drain (R73); none when a tile fails its CRC in every source. -/
def moveToS (s : State) (x loc : Nat) : Option State :=
  let s := migrateRoStart s x 1 (BitVec.ofNat 25 loc)
  if (entryOf s x).any fun e => e.newTier = 1 && decide (e.tilemap = BitVec.allOnes 128) then
    some (migrateRoDrainEnd (migrateRoSwitch s x) x)
  else none

/-- Extent x of an entry set has its pinned tier-S COPY; the place is the Bureau's choice: a free value picks it (R157). The old copy drains
(R73). -/
def pinEntry (s : State) (x : Nat) : Option State :=
  match entryOf s x with
  | none => none
  | some e =>
    if e.copyTier = 1 then some (setEntry s x fun e => { e with pin := true })
    else
      let ls := (List.range 1024).filter (freeSLoc s)
      let (v, s) := drawFree s
      (ls[v.toNat % max 1 ls.length]?).bind fun l => (moveToS s x l).map fun s => setEntry s x fun e => { e with pin := true }

/-- Every extent of a list pinned; none when the store cannot hold one. -/
def pinAll : List Nat → State → Option State
  | [], s => some s
  | x :: l, s => (pinEntry s x).bind (pinAll l)

/-- The store holds every share, pool and entry set with n further tiles (R319). -/
def storeTakes (s : State) (n : Nat) : Bool :=
  decide ((s.gen.parts.map fun q => q.2.storeCount).sum + 9216 + entrySetTiles s + n ≤ 131072)

/-- INDEX_CREATE's checks and effect (R155 to R157): the module-written fields are set, the entry set pinned. -/
def createIndex (s : State) (n : Nat) (r : IndexRec) : State × Status :=
  if 256 ≤ n || !indexFieldsOk r || !indexExtentsOk s r then (s, .badDescriptor)
  else if (indexOf s n).isSome || decide (33554432 < (s.gen.indexes.map fun x => x.2.centroids).sum + r.centroids)
      || !storeTakes s (1 + (r.entryCount * r.dim + 16383) / 16384) || !passageRoom s (heldPassages s r) then (s, .noResources)
  else match pinAll (entryExtents r) s with
    | none => (s, .noResources)
    | some s =>
      let r := { r with epoch := 1, oldestSnap := 1, insertNext := 0x8000000000, snaps := [], deltaUsed := 0, tombUsed := 0, deltaFree := [], tombFree := []
                        batch := none, undo := [], newDeltas := [], newTombs := [], queue := [], compact := [], freeing := [] }
      ({ s with gen := { s.gen with indexes := mins s.gen.indexes n r } }, .ok)

/-- Work that uses an index: a snapshot, a batch, a compaction's leavings. -/
def indexBusy (s : State) (n : Nat) (r : IndexRec) : Bool :=
  !r.snaps.isEmpty || r.batch.isSome || !r.queue.isEmpty || !r.freeing.isEmpty
    || s.host.requests.any fun q => (q.2.op = .turn || q.2.op = .search || q.2.op = .rerank) && decide (q.2.block.index = n) && q.2.phase ≠ .ending

/-- INDEX_DESTROY (R155); an index in use is not removed. -/
def destroyIndex (s : State) (n : Nat) : State × Status :=
  match indexOf s n with
  | none => (s, .badDescriptor)
  | some r =>
    if indexBusy s n r then (s, .noResources)
    else
      let s := { s with gen := { s.gen with
        indexes := mdel s.gen.indexes n
        codebooks := (mmap (fun _ l => without r.codebookBase l) s.gen.codebooks).filter fun e => decide (e.2 ≠ []) } }
      let others : List Nat := s.gen.indexes.flatMap fun i => entryExtents i.2
      ((entryExtents r).foldl (fun (s : State) (x : Nat) => if x ∈ others ∨ x ∈ plannedExtents s then s else setEntry s x fun e => { e with pin := false }) s, .ok)

/-- After a reset every entry set has its pinned tier-S copies again (R75, R157, Table 18.9 order 7). -/
def refillEntrySets (s : State) : State :=
  (s.gen.indexes.flatMap fun i => entryExtents i.2).foldl (fun s x => (pinEntry s x).getD s) s

/-! ## Tables -/

/-- The record that 72 bytes lay out (Table 11.1). -/
def tableOfBytes (b : Bytes) : TableRec :=
  { world := bit (rd b 3 1) 0, ownerPos := bit (rd b 3 1) 1, tenant := BitVec.ofNat 9 (rd b 4 2), cols := rd b 6 2, rows := rd b 8 4
    defaultRow := rd b 12 4, part := BitVec.ofNat 5 (rd b 16 1), sampleShift := rd b 17 1, warmPermille := rd b 18 2, hotTiles := rd b 20 2
    updateSeq := rd b 24 8, mapBase := recAddr b 32, hotBase := recAddr b 40, warmBase := recAddr b 48, coldBase := recAddr b 56
    countBase := recAddr b 64 }

/-- What a table record's bytes hold beside those fields (R256, Table 11.1; reserved bits as in an index record). -/
def tableBytesOk (n : Nat) (b : Bytes) : Bool :=
  decide (b.length = 72 ∧ rd b 0 2 = 1 ∧ rd b 2 1 = n ∧ rd b 3 1 < 4 ∧ rd b 4 2 < 512 ∧ rd b 16 1 < 32 ∧ rd b 22 2 = 0)

/-- Fields in range (Table 11.1). -/
def tableFieldsOk (r : TableRec) : Bool :=
  decide (32 ≤ r.cols ∧ r.cols ≤ 8192 ∧ r.cols % 32 = 0) && decide (1 ≤ r.rows ∧ r.rows ≤ 67108864) && decide (r.defaultRow < r.rows)
    && decide (r.sampleShift ≤ 8) && decide (r.warmPermille ≤ 1000) && decide (r.hotTiles ≤ 16384) && decide (r.updateSeq = 0)
    && [r.mapBase, r.hotBase, r.warmBase, r.coldBase, r.countBase].all fieldAddr

/-- Every extent that a record names is WB, of its tenant and world (R256). -/
def tableExtentsOk (s : State) (r : TableRec) : Bool :=
  let is := fun b n => decide (n = 0) || regionIs s r.tenant r.world b n isWb
  is r.mapBase (8 * r.rows) && is r.hotBase (regionBytes r 2) && is r.warmBase (if r.warmPermille = 0 then 0 else 1) && is r.coldBase 1
    && is r.countBase r.rows

/-- HOT_TILES of the tables that a partition reads. -/
def hotTilesOf (s : State) (p : PartId) : Nat := ((s.gen.tables.filter fun t => decide (t.2.part = p)).map fun t => t.2.hotTiles).sum

/-- TABLE_CREATE's checks and effect (R256, R258). -/
def createTable (s : State) (n : Nat) (r : TableRec) : State × Status :=
  if 64 ≤ n || !tableFieldsOk r || !tableExtentsOk s r || decide (min 16384 (partOf s r.part).hotBudgetUsed.toNat < hotTilesOf s r.part + r.hotTiles)
  then (s, .badDescriptor)
  else if (tableOf s n).isSome then (s, .noResources)
  else
    let r := { r with updateSeq := 0, lookups := 0, lastBatch := [], batch := none, leftOut := 0, mirrorIn := [], undo := [], skippedRebuilds := 0
                      cntInvalid := 0, cntMissing := 0, refreshedAt := now s }
    let s := { s with gen := { s.gen with tables := mins s.gen.tables n r } }
    (if (partOf s r.part).prog.isSome then (List.range r.hotTiles).foldl (fun s k => hotCopy s n k) s else s, .ok)

/-- Work that uses a table. -/
def tableBusy (s : State) (n : Nat) (r : TableRec) : Bool :=
  r.batch.isSome || !r.undo.isEmpty || !r.mirrorIn.isEmpty
    || s.host.requests.any fun q => (q.2.op = .rowLookup || q.2.op = .rowUpdate) && decide (q.2.desc.argA.toNat % 64 = n) && q.2.phase ≠ .ending

/-- TABLE_DESTROY (R256); a table in use is not removed. Its hot copies go. -/
def destroyTable (s : State) (n : Nat) : State × Status :=
  match tableOf s n with
  | none => (s, .badDescriptor)
  | some r =>
    if tableBusy s n r then (s, .noResources)
    else
      let mine := (partOf s r.part).hotDir.filter fun x => decide (x.1 ∈ (List.range r.hotTiles).map (hotKey n))
      let s := mine.foldl (fun s x => setSlot s x.2 fun y => { y with hdr := { y.hdr with state := .free } }) s
      let s := setPart s r.part fun q => { q with hotDir := q.hotDir.filter fun x => decide (x ∉ mine) }
      ({ s with gen := { s.gen with tables := mdel s.gen.tables n } }, .ok)

end Sys2Proof.Machine
end

