-- ==== Sys2Proof/Machine/Settee.lean ====
section
/-! DEFINITION. The Settee link: frames, retry, states, and what entering DOWN does to mutations, tiles and reads (R366 to R372, R374, R376,
R379, R380). -/

namespace Sys2Proof.Machine

def setPair (s : State) (f : PairState → PairState) : State := { s with pair := f s.pair }

/-- Trained lanes (R366, Table 20.13). -/
def trainedLanes (s : State) : BitVec 4 := if s.pair.deadLanes = [] then 8 else 4

/-! ## Journal entries of a mutation (R371, R374) -/

/-- The journal without the object whose last part is entry j: the parts before it, and itself. -/
def dropObject (j : Nat) (l : List JournalEntry) : List JournalEntry :=
  let before := l.takeWhile fun e => decide (e.jseq < j)
  let parts := (before.reverse.takeWhile fun e => e.hdr.more).length
  before.take (before.length - parts) ++ l.filter fun e => decide (j < e.jseq)

/-- The entry's mutation waits no more. -/
def freeEntry (s : State) (j : Nat) : State :=
  setPair s fun p => { p with journal := p.journal.map fun e => if e.jseq = j then { e with handle := none } else e }

/-- The mutation of request h has its outcome: the partner's answer, or that of a solo commit (R374, R380). -/
def mutationAnswered (s : State) (h : Nat) (st : Status) (swapOk : Bool) : State :=
  match reqOf s h with
  | none => s
  | some r =>
    match r.op with
    | .indexInsert | .indexDelete => batchAnswered s h st swapOk
    | .rowUpdate => updateAnswered s h st
    | .adapterLoad => adapterAnswered s h st
    | _ => s

/-- A mutation that waits for an answer when the link is DOWN (Table 16.6, R374, R380): it commits alone, or it is taken back and its journal
entry goes. -/
def settleDown (swaps : List Tenant) (s : State) (e : JournalEntry) : State :=
  match e.handle with
  | none => s
  | some h =>
    let tn := e.hdr.tenant
    let ok := decide (tn ∈ swaps)
    let fail := fun s st => mutationAnswered (setPair s fun p => { p with journal := dropObject e.jseq p.journal }) h st ok
    match mutRole s tn none with
    | .alone => mutationAnswered (freeEntry s e.jseq) h .ok ok
    | .solo =>
      let s := swapLease s tn ok fun l => { l with solo := true }
      if ok then mutationAnswered (freeEntry s e.jseq) h .ok ok else fail s .redirectPartner
    | .noResources => fail s .noResources
    | _ => fail s .redirectPartner

/-- A mutation that waited for replay looks at its role again (Table 16.6). -/
def retryMutation (swaps : List Tenant) (s : State) (h : Nat) : State :=
  match reqOf s h with
  | none => s
  | some r =>
    let ok := decide (r.fn ∈ swaps)
    match r.op with
    | .indexInsert | .indexDelete => acceptBatch s h (mutIndex r) ok
    | .adapterLoad => runAdapter s h ok
    | .rowUpdate =>
      let t := tableArg s r
      match mutRole s t.tenant (some t.ownerPos) with
      | .mirrored | .solo | .alone => queueItem s t.part r.fn { kind := .update, handle := h }
      | _ => updateCommit [] s h
    | _ => s

/-- Every waiting mutation, in order. -/
def retryWaiting (s : State) (swaps : List Tenant) : State :=
  s.pair.waitMut.foldl (retryMutation swaps) (setPair s fun p => { p with waitMut := [] })

/-- A forwarded mutation whose answer cannot arrive any more (R379). -/
def loseForward (s : State) (h : Nat) : State := finishPlain s h .redirectPartner 1

/-! ## PROVISIONAL tiles (R360, R372) -/

/-- The step of a partition that depends on retracted data fails without counting (R351, R360). -/
def retractInput (s : State) (part : Nat) (e : Epoch) : State :=
  s.gen.parts.foldl (fun s q =>
    if (part, e) ∈ q.2.step.provisional then setStep s (partId q.1) fun x => { x with retracted := true } else s) s

/-- A PROVISIONAL tile of the link is retracted: its slot awaits the resend. -/
def retractTile (s : State) (x : RemoteProv) : State :=
  let s := setSlot s x.tile fun y => if y.hdr.state = .ready then { y with hdr := { y.hdr with state := .free } } else y
  retractInput s x.part x.epoch

/-! ## DOWN (R369) -/

def SplitCause.code : SplitCause → Nat
  | .silence => 0 | .realign => 1 | .mirrorTimeout => 2 | .takeover => 3 | .relinquish => 4

/-- PAIR_SPLIT (Table 16.8). -/
def logSplit (s : State) (c : SplitCause) : State := logEvent s (.pairSplit c.code (s.pair.jNext - 1) s.pair.jAcked)

/-- Link and frame state of a link that carries nothing. -/
def PairState.quietLink (p : PairState) : PairState :=
  { p with lanes := 0, txWait := [], txSeq := 0, replay := [], owed := 0, expect := 0, discarding := false, nakRun := 0, txNakRun := 0, credit := 0
           ackDue := false, realigning := false, rxBytes := [], rxOpen := false, rxMsgs := [], parts := [], replayTo := none, reqSeen := false
           upAt := none }

/-- The link enters DOWN (R369): the pair splits; parts held are discarded (R371), PROVISIONAL tiles retracted (R372), tile recoveries failed
(R376), forwarded mutations ended (R379), and mutations that wait for the partner settled (R374, R380). swaps names the tenants whose
compare-and-swaps succeed. -/
def enterDown (s : State) (c : SplitCause) (swaps : List Tenant) : State :=
  if s.pair.link = .down then s
  else
    let live := linkLive s
    let s := setPair s fun p => { p.quietLink with link := .down, triedAt := now s }
    let s := if live then logSplit s c else s
    let s := (s.pair.provisional.filter (·.link)).foldl retractTile s
    let s := setPair s fun p => { p with failedReads := p.reads.foldl (fun l a => withLast a l) p.failedReads, reads := [] }
    let s := s.pair.forwards.foldl loseForward (setPair s fun p => { p with forwards := [] })
    let s := s.pair.journal.foldl (settleDown swaps) s
    retryWaiting s swaps

/-- SETTEE_SILENCE (R369): no valid frame for 1 ms. -/
def setteeSilence (s : State) (swaps : List Tenant) : State :=
  if s.pair.link ≠ .down && decide (1000 ≤ since s.pair.validAt (now s)) then enterDown s .silence swaps else s

def execSetteeSilence (swaps : List Tenant) (s : State) : Out := .next (setteeSilence s swaps)

/-! ## Frames (R367, R368, R370) -/

/-- The replay buffer is sent again from a sequence number on (R20, R368). -/
def resendFrames (s : State) (q : BitVec 12) : State :=
  (s.pair.replay.dropWhile fun f => decide (f.seq ≠ q)).foldl (fun s f => emit s (.frame f)) s

/-- Acknowledgement and credit of a valid frame (R20, R368). -/
def takeFrameAck (s : State) (f : Frame) : State :=
  let s := setPair s fun p => { p with
    validAt := now s, owed := p.owed - f.credit.toNat
    txNakSeq := if f.nak then f.ackSeq else p.txNakSeq
    txNakRun := if f.nak then (if p.txNakRun ≠ 0 && p.txNakSeq = f.ackSeq then p.txNakRun + 1 else 1) else 0
    replay := if !f.nak && p.replay.any (fun g => decide (g.seq = f.ackSeq)) then (p.replay.dropWhile fun g => decide (g.seq ≠ f.ackSeq)).tail
              else p.replay }
  let s := if f.nak then resendFrames s f.ackSeq else s
  pumpFrames s.pair.txWait.length s

/-- A negative acknowledge of the SEQ expected (R20, R368). -/
def nakFrame (s : State) : State :=
  let e := s.pair.expect
  let s := setPair s fun p => { p with discarding := true, nakSeq := e, nakRun := if p.nakRun ≠ 0 && p.nakSeq = e then p.nakRun + 1 else 1 }
  let f : Frame := { nak := true, ackSeq := e, empty := true }
  emit (setPair s fun p => { p with sentAt := now s }) (.frame { f with crc := f.crcOf })

/-- A delivered frame's bytes join their message; its LAST frame makes it whole (R370). -/
def joinFrame (p : PairState) (f : Frame) : PairState :=
  let b := f.payload.take (f.used.toNat + 1)
  let b := if f.first then b else p.rxBytes ++ b
  if !f.first && !p.rxOpen then p
  else if f.last then
    { p with rxBytes := [], rxOpen := false, rxMsgs := if 32 ≤ b.length ∧ b.length ≤ 1048576 then p.rxMsgs ++ [b] else p.rxMsgs }
  else { p with rxBytes := b, rxOpen := true }

/-- SETTEE_FRAME_RECEIVE (R367, R368, R370). -/
def frameReceive (s : State) (f : Frame) : State :=
  if s.pair.link = .down || s.pair.realigning then s
  else if f.crc ≠ f.crcOf then nakFrame s
  else
    let e := s.pair.expect
    let s := takeFrameAck s f
    if f.empty || f.seq ≠ e then s
    else setPair s fun p => joinFrame { p with expect := e + 1, discarding := false, nakRun := 0, ackDue := true, credit := p.credit + 1 } f

def execSetteeFrameReceive (f : Frame) (s : State) : Out := .next (frameReceive s f)

/-- SETTEE_EMPTY_FRAME (R368): no frame sent for 10 µs. -/
def emptyFrame (s : State) : State :=
  if s.pair.link = .down || s.pair.realigning || decide (since s.pair.sentAt (now s) < 10) then s
  else
    let f := dressFrame s { empty := true }
    frameSent s f

def execSetteeEmptyFrame (s : State) : Out := .next (emptyFrame s)

/-- SETTEE_REALIGN (R368, R369): after 8 consecutive negative acknowledges of one SEQ; the third realignment within 1 s puts the link into DOWN. -/
def realign (s : State) (swaps : List Tenant) : State :=
  if s.pair.link = .down || s.pair.realigning || decide (s.pair.nakRun < 8 ∧ s.pair.txNakRun < 8) then s
  else
    let at_ := now s :: lastSecond (now s) s.pair.realignAt
    let s := setPair s fun p => { p with realignAt := at_, nakRun := 0, txNakRun := 0 }
    if 3 ≤ at_.length then enterDown s .realign swaps else setPair s fun p => { p with realigning := true }

def execSetteeRealign (swaps : List Tenant) (s : State) : Out := .next (realign s swaps)

/-- SETTEE_REALIGN_DONE (R368): what waited is sent, from the first frame that is not acknowledged. -/
def realignDone (s : State) : State :=
  if !s.pair.realigning then s
  else
    let s := setPair s fun p => { p with realigning := false }
    let s := match s.pair.replay with
      | [] => s
      | f :: _ => resendFrames s f.seq
    pumpFrames s.pair.txWait.length s

def execSetteeRealignDone (s : State) : Out := .next (realignDone s)

/-- SETTEE_LANE_FAILED (R366): 4 lanes from now on; the event has no code of its own. -/
def laneFailed (s : State) (l : BitVec 3) : State :=
  if l ∈ s.pair.deadLanes then s
  else
    let s := setPair s fun p => { p with deadLanes := withLast l p.deadLanes, lanes := if p.link = .down then 0 else 4 }
    logEvent s (.unnamed 21 0x3D [w32 l.toNat])

def execSetteeLaneFailed (lane : BitVec 3) (s : State) : Out := .next (laneFailed s lane)

/-- The module's IDENT (R369). -/
def ownIdent (s : State) : Ident :=
  { serial := Config.serial, position := s.pair.position, pairId := s.pair.pairId, journalGen := s.pair.journalGen }

/-- SETTEE_TRAIN_ATTEMPT (R369): every 100 ms while DOWN; a training that succeeds exchanges IDENT. -/
def trainAttempt (s : State) (ok : Bool) : State :=
  if s.pair.link ≠ .down || !s.pair.enable || s.bureau.recovery || decide (since s.pair.triedAt (now s) < 100000) then s
  else
    let s := setPair s fun p => { p with triedAt := now s }
    if ok then
      let s := setPair s fun p => { p.quietLink with link := .training, lanes := trainedLanes s, validAt := now s, sentAt := now s }
      sendMsg s { type := 0x01 } (.ident (ownIdent s))
    else s

def execSetteeTrainAttempt (ok : Bool) (s : State) : Out := .next (trainAttempt s ok)

/-! ## Messages received (R370, R371, R374) -/

/-- A message of a type arrives: the first whole one of that type leaves the received messages. -/
def popMsg (s : State) (type : BitVec 8) : State :=
  match s.pair.rxMsgs.find? fun b => decide (b.head? = some type) with
  | some b => setPair s fun p => { p with rxMsgs := p.rxMsgs.erase b }
  | none => s

/-- Parts of one object are of one TYPE, TENANT and OBJECT (R371). -/
def sameObject (a b : MsgHdr) : Bool := decide (a.type = b.type ∧ a.tenant = b.tenant ∧ a.object = b.object)

/-- Two parts of a body. -/
def joinBody : MsgBody → MsgBody → MsgBody
  | .index e t b p w _, .index e' t' b' p' w' n => .index (e ++ e') (t ++ t') (b ++ b') (p ++ p') (w ++ w') n
  | .rows i m, .rows i' m' => .rows (i ++ i') (m ++ m')
  | .adapter _ t, .adapter p t' => .adapter p (t ++ t')
  | .desc d p, .desc _ p' => .desc d (p ++ p')
  | _, b => b

/-- The object that a message completes, with the parts held (R371). -/
def wholeBody (s : State) (m : MsgHdr) (b : MsgBody) : MsgBody :=
  match (s.pair.parts.filter fun x => sameObject x.1 m).map (·.2) with
  | [] => b
  | p :: ps => joinBody (ps.foldl joinBody p) b

def dropParts (s : State) (m : MsgHdr) : State := setPair s fun p => { p with parts := p.parts.filter fun x => !sameObject x.1 m }
def keepPart (s : State) (m : MsgHdr) (b : MsgBody) : State := setPair s fun p => { p with parts := p.parts ++ [(m, b)] }

/-- MIRROR_ACK (Table 16.4). -/
def sendAck (s : State) (m : MsgHdr) (st : Status) : State :=
  sendMsg s { type := 0x14, tenant := m.tenant, status := BitVec.ofNat 8 st.code, ref := m.jseq } .none

/-- The lease handed over is acted on once its last JSEQ is applied and the word names the module (R382). -/
def tryHold (s : State) (n : Tenant) : State :=
  let l := leaseOf s n
  match l.holdFrom with
  | none => s
  | some j =>
    if s.pair.jApplied < j || !l.word.held || l.word.holder ≠ s.pair.position then s
    else
      let s := setLease s n fun l => { l with mine := true, holdFrom := none, soloPending := l.word.solo, renewedAt := now s }
      logEvent s (.leaseAcquired n 3 l.word.count l.word.solo)

/-- A journalled message (R374): applied in JSEQ order, acknowledged unless its effect is not yet visible (none); a part is only held; a gap asks
for the journal; one applied before is acknowledged again. A tenant whose SOLO was cleared takes nothing of the old journal (R381). -/
def journalled (s : State) (m : MsgHdr) (b : MsgBody) (apply : State → MsgBody → State × Option Status) : State :=
  if !linkLive s then s
  else
    let s := popMsg s m.type
    let j := m.jseq.toNat
    if j ≤ s.pair.jApplied then sendAck s m .ok
    else if !s.pair.jFresh && decide (j ≠ s.pair.jApplied + 1) then
      sendMsg s { type := 0x60, ref := BitVec.ofNat 64 s.pair.jApplied } .none
    else
      let s := setPair s fun p => { p with jApplied := j, jFresh := false }
      if m.more then keepPart s m b
      else
        let whole := wholeBody s m b
        let s := dropParts s m
        if (leaseOf s m.tenant).mine && (leaseOf s m.tenant).cleared then sendAck s m .redirectPartner
        else
          let s := match apply s whole with
            | (s, some st) => sendAck s m st
            | (s, none) => s
          tryHold s m.tenant

end Sys2Proof.Machine
end

