-- ==== Sys2Proof/Machine/Partner.lean ====
section
/-! DEFINITION. Messages of the partner: IDENT, mirrored state, acknowledgements, forwarded mutations, tile recovery, PROVISIONAL tiles, the
journal and full resynchronisation; leases and hand-over (R359, R360, R369 to R382, R386, R387). -/

namespace Sys2Proof.Machine

/-! ## Mirrored state (R373, R374) -/

def applyIndexMsg (m : MsgHdr) (s : State) : MsgBody → State × Option Status
  | .index es ts bs ps ws n => let (s, st) := applyIndexBody s m.object.toNat m.epoch es ts bs ps ws n; (s, some st)
  | _ => (s, some .badDescriptor)

/-- MIRROR_INDEX (R182, Table 7.7 order 5). -/
def execMirrorIndex (m : MsgHdr) (body : MsgBody) (s : State) : Out := .next (journalled s m body (applyIndexMsg m))

/-- A row batch waits for the reader partition's next boundary (Table 11.4 order 4); one with no program is written at once. -/
def applyRowsMsg (m : MsgHdr) (s : State) : MsgBody → State × Option Status
  | .rows images maps =>
    let t := m.object.toNat
    match tableOf s t with
    | none => (s, some .badDescriptor)
    | some r =>
      let b : MirrorBatch := { jseq := m.jseq.toNat, seq := m.epoch.toNat, images := images, maps := maps }
      if (partOf s r.part).prog.isSome then (setTable s t fun r => { r with mirrorIn := r.mirrorIn ++ [b] }, none)
      else (writeMirrored t s b, none)
  | _ => (s, some .badDescriptor)

/-- MIRROR_ROWS (R265, R267, R374). -/
def execMirrorRows (m : MsgHdr) (body : MsgBody) (s : State) : Out := .next (journalled s m body (applyRowsMsg m))

/-- An adapter version of the partner, bindable at once (R230, R374). -/
def applyAdapterMsg (m : MsgHdr) (s : State) : MsgBody → State × Option Status
  | .adapter p ts =>
    if (partOf s p).prog.isNone then (s, some .noResources)
    else match takeVersion s { tenant := m.tenant, number := m.object, part := p, image := ts } with
      | some (n, s) => (commitVersion s n, some .ok)
      | none => (s, some .noResources)
  | _ => (s, some .badDescriptor)

/-- MIRROR_ADAPTER (R371, R374). -/
def execMirrorAdapter (m : MsgHdr) (body : MsgBody) (s : State) : Out := .next (journalled s m body (applyAdapterMsg m))

/-- A created or removed object, or tenant parameters. A record that exists is replaced by what the partner sends (full resynchronisation). -/
def applyConfig (s : State) (tn : Tenant) : ConfigBody → State × Status
  | .index n none => destroyIndex s n
  | .index n (some r) =>
    match indexOf s n with
    | some o => if o.tenant = tn then (setIndex s n fun o => { r with snaps := o.snaps }, .ok) else (s, .badDescriptor)
    | none =>
      let (s, st) := createIndex s n { r with epoch := 0, oldestSnap := 0, insertNext := 0 }
      (if st = .ok then setIndex s n fun _ => { r with snaps := [], batch := none, queue := [], undo := [], compact := [], freeing := [] } else s, st)
  | .table n none => destroyTable s n
  | .table n (some r) =>
    match tableOf s n with
    | some o => if o.tenant = tn then (setTable s n fun o => { r with mirrorIn := o.mirrorIn, undo := [], batch := none }, .ok) else (s, .badDescriptor)
    | none =>
      let (s, st) := createTable s n { r with updateSeq := 0 }
      (if st = .ok then setTable s n fun o => { o with updateSeq := r.updateSeq, lastBatch := r.lastBatch } else s, st)
  | .tenant w m v => (setTen s tn fun t => { t with weight := w, maxSlots := m, serve := v }, .ok)

def applyConfigMsg (m : MsgHdr) (s : State) : MsgBody → State × Option Status
  | .config c => let (s, st) := applyConfig s m.tenant c; (s, some st)
  | _ => (s, some .badDescriptor)

/-- MIRROR_CONFIG (R373). -/
def execMirrorConfig (m : MsgHdr) (body : MsgBody) (s : State) : Out := .next (journalled s m body (applyConfigMsg m))

/-- A change of an object's record or of tenant parameters, made on this module, goes to the partner (R373). -/
def mirrorConfigOut (s : State) (tn : Tenant) (c : ConfigBody) : State :=
  if !s.pair.enable then s else journalMsg s { type := 0x13, tenant := tn } (.config c) none

/-! ## Full resynchronisation (R387) -/

/-- Device-range tiles of the mirrored extents of an index, as they stand. -/
def indexTiles (s : State) (r : IndexRec) : List (Nat × Tile) :=
  let run := fun base n => (List.range n).map (· + base / 16384)
  (run r.deltaBase r.deltaTiles ++ run r.tombBase r.tombTiles ++ run r.listdirBase ((32 * r.centroids + 16383) / 16384)
    ++ run r.insertBase (r.insertNext.toNat % 2 ^ 39 / 8 + 1)).filterMap fun n => (devTile s n).map fun t => (n, t)

/-- Every mirrored object of a tenant: header and body, in the order sent. -/
def tenantObjects (s : State) (n : Tenant) : List (MsgHdr × MsgBody) :=
  let t := tenOf s n
  [({ type := 0x13, tenant := n }, .config (.tenant t.weight t.maxSlots t.serve))]
    ++ ((s.gen.indexes.filter fun i => decide (i.2.tenant = n)).flatMap fun i =>
      [({ type := 0x13, tenant := n }, .config (.index i.1 (some i.2))),
       ({ type := 0x10, tenant := n, object := BitVec.ofNat 16 i.1, epoch := i.2.epoch }, .index [] [] [] [] (indexTiles s i.2) i.2.insertNext)])
    ++ ((s.gen.tables.filter fun t => decide (t.2.tenant = n)).flatMap fun t =>
      let rows := List.range t.2.rows
      let m : MsgHdr := { type := 0x11, tenant := n, object := BitVec.ofNat 16 t.1, epoch := BitVec.ofNat 32 t.2.updateSeq }
      [({ type := 0x13, tenant := n }, .config (.table t.1 (some t.2))),
       (m, .rows [] (rows.map fun r => (r, BitVec.ofNat 64 (rowEntry s t.2 r)))),
       (m, .rows (rows.map fun r => (r, rowValue s t.1 t.2 r)) [])])
    ++ ((s.gen.adapters.filter fun a => decide (a.2.tenant = n) && a.2.bindable).map fun a =>
      ({ type := 0x12, tenant := n, partition := BitVec.ofNat 8 a.2.part.toNat, object := a.2.number }, .adapter a.2.part a.2.image))

/-- Why a held tenant is to be copied in full (R387): the partner's generation changed, entries were dropped, SOLO was cleared. -/
def resyncCause (l : LeaseInfo) (changed : Bool) : Option Nat :=
  if !l.mine then none else if changed then some 0 else if l.dropped then some 1 else if l.cleared then some 2 else none

/-- The tenant's objects are journalled, then its journal entries anew (R387). -/
def resyncTenant (cause : Nat) (s : State) (n : Tenant) : State :=
  let objs := tenantObjects s n
  let mine := s.pair.journal.filter fun e => decide (e.hdr.tenant = n)
  let s := logEvent s (.resyncFull n cause (((objs.map fun o => o.2.bytes).sum) / 2 ^ 20))
  let s := setPair s fun p => { p with journal := p.journal.filter fun e => decide (e.hdr.tenant ≠ n) }
  let s := objs.foldl (fun s o => journalObject s o.1 o.2 none) s
  let s := mine.foldl (fun s e => journalMsg s e.hdr e.body e.handle) s
  setLease s n fun l => { l with dropped := false, cleared := false }

/-- Tenants whose lease words the module has seen held. -/
def leaseTenants (s : State) : List Tenant := s.pair.leases.map fun l => BitVec.ofNat 9 l.1

/-! ## Training ends (R369, R386) -/

/-- IDENT (R369, R386, R387): equal positions or different pair identifiers return the link to DOWN; else the link is in SYNC, and each module asks
for the partner's journal. A partner of another generation starts its journal anew, and the tenants it holds are copied in full to this module. -/
def ident (s : State) (i : Ident) : State :=
  if s.pair.link ≠ .training then s
  else
    let s := popMsg s 0x01
    if i.position = s.pair.position || i.pairId ≠ s.pair.pairId then
      let s := setPair s fun p => { p.quietLink with link := .down, triedAt := now s }
      logEvent s (.pairIdentMismatch (b2n i.position) i.pairId.toNat s.pair.pairId.toNat)
    else
      let changed := (s.pair.partner.map fun i => i.journalGen) ≠ some i.journalGen
      let s := setPair s fun p => { p with link := .sync, partner := some i, syncAt := now s, jFresh := true, jApplied := if changed then 0 else p.jApplied }
      let s := if changed then (leaseTenants s).foldl (fun s n =>
          let l := leaseOf s n
          if l.word.held && l.word.holder = i.position then setLease s n fun l => { l with resync := true }
          else if l.mine then setLease s n fun l => { l with genChanged := true } else s) s else s
      sendMsg s { type := 0x60, ref := BitVec.ofNat 64 s.pair.jApplied } .none

def execIdent (i : Ident) (s : State) : Out := .next (ident s i)

/-- SOLO is cleared once the partner has acknowledged every entry of the tenant (R380). -/
def clearSolo (swaps : List Tenant) (s : State) (n : Tenant) : State :=
  let l := leaseOf s n
  if l.mine && l.word.solo && !l.soloPending && linkLive s && (s.pair.journal.all fun e => decide (e.hdr.tenant ≠ n))
  then swapLease s n (decide (n ∈ swaps)) fun l => { l with solo := false }
  else s

/-- A mirrored turn is discarded with its snapshot, unless it is being re-run (R383, R385). -/
def discardTurn (s : State) (t : MirrorTurn) : State :=
  if t.rerun.isSome then s
  else
    let s := setPair s fun p => { p with turns := without t p.turns }
    match t.snap with
    | some e => dropSnap s (rd t.param 11 1) e
    | none => s

/-- The link enters UP (R386, PAIR_JOINED): SOLO pending and full resynchronisation end, SOLO is cleared where it may be, mirrored turns of a partner
that still runs them are discarded (R385), waiting mutations go on. -/
def enterUp (s : State) (swaps : List Tenant) : State :=
  let last := s.pair.jNext - 1
  let s := setPair s fun p => { p with link := .up, upAt := some (now s), replayTo := none, reqSeen := false }
  let s := logEvent s (.pairJoined (((s.pair.partner.map fun (i : Ident) => i.serial).getD 0).setWidth 32) s.pair.replayFrom (last + 1 - s.pair.replayFrom)
    (since s.pair.syncAt (now s)))
  let s := (leaseTenants s).foldl (fun s n => clearSolo swaps (setLease s n fun l => { l with soloPending := false, resync := false }) n) s
  let s := s.pair.turns.foldl discardTurn s
  retryWaiting s swaps

/-- The replay is acknowledged on this side and asked for on the other (R386). -/
def tryUp (s : State) (swaps : List Tenant) : State :=
  if s.pair.link = .sync && s.pair.reqSeen && (s.pair.replayTo.all fun j => s.pair.journal.all fun e => decide (j < e.jseq)) then enterUp s swaps else s

/-- Journal entries after a JSEQ are sent in order (R386). -/
def replayJournal (s : State) (after : Nat) : State :=
  (s.pair.journal.filter fun e => decide (after < e.jseq)).foldl (fun s e =>
    let s := setPair s fun p => { p with journal := p.journal.map fun x => if x.jseq = e.jseq then { x with sentAt := some (now s) } else x }
    sendMsg s e.hdr e.body) s

/-! ## Acknowledgements (R374) -/

/-- The last steps of a hand-over (R382): every sent message of the tenant is acknowledged, HANDOVER goes, the word names the partner. -/
def handoverStep (swaps : List Tenant) (s : State) (n : Tenant) : State :=
  let l := leaseOf s n
  if !l.handingOver || !l.mine || s.pair.link ≠ .up || (s.pair.journal.any fun e => decide (e.hdr.tenant = n)) then s
  else
    let s := sendMsg s { type := 0x61, tenant := n, ref := BitVec.ofNat 64 l.lastJseq } .none
    if n ∈ swaps then
      let s := swapLease s n true fun w => { w with held := true, holder := !s.pair.position }
      let s := setLease s n fun l => { l with mine := false, handingOver := false, soloPending := false }
      logEvent s (.leaseLost n 2 (leaseOf s n).word.count)
    else loseLease s n 0

/-- The entry of a JSEQ, with the parts before it, is acknowledged with a status (R371, R374). -/
def ackEntry (s : State) (j : Nat) (st : Status) (swapOk : Bool) : State :=
  match s.pair.journal.find? fun e => decide (e.jseq = j) with
  | none => s
  | some e =>
    let s := setPair s fun p => { p with journal := dropObject j p.journal, jAcked := max p.jAcked j }
    match e.handle with
    | some h => mutationAnswered s h st swapOk
    | none =>
      if st ≠ .ok && !(leaseOf s e.hdr.tenant).mine && s.pair.link = .sync then setLease s e.hdr.tenant fun l => { l with resync := true } else s

/-- MIRROR_ACK (R374, R380, R382, R386). -/
def mirrorAck (s : State) (m : MsgHdr) (swaps : List Tenant) : State :=
  if !linkLive s then s
  else
    let s := popMsg s 0x14
    match s.pair.journal.find? fun e => decide (e.jseq = m.ref.toNat) with
    | none => s
    | some e =>
      let n := e.hdr.tenant
      let s := ackEntry s m.ref.toNat (Status.ofCode m.status.toNat) (decide (n ∈ swaps))
      let s := clearSolo swaps s n
      tryUp (handoverStep swaps s n) swaps

def execMirrorAck (m : MsgHdr) (swaps : List Tenant) (s : State) : Out := .next (mirrorAck s m swaps)

/-- MIRROR_TIMEOUT (R374): no acknowledgement within MIRROR_TIMEOUT of sending. -/
def mirrorTimeout (s : State) (j : Nat) (swaps : List Tenant) : State :=
  if linkLive s && s.pair.journal.any fun e => decide (e.jseq = j) && e.sentAt.any fun t => decide (1000 * s.pair.mirrorTimeout.toNat ≤ since t (now s))
  then enterDown s .mirrorTimeout swaps else s

def execMirrorTimeout (jseq : Nat) (swaps : List Tenant) (s : State) : Out := .next (mirrorTimeout s jseq swaps)

/-- JOURNAL_REQ (R374, R386, R387): entries up to REF are applied; in SYNC the replay begins, followed by the copies that are due. -/
def journalReq (s : State) (m : MsgHdr) (swaps : List Tenant) : State :=
  if !linkLive s then s
  else
    let s := popMsg s 0x60
    let r := m.ref.toNat
    let s := (s.pair.journal.filter fun e => decide (e.jseq ≤ r)).foldl (fun s e => ackEntry s e.jseq .ok (decide (e.hdr.tenant ∈ swaps))) s
    if s.pair.link = .up || s.pair.reqSeen then replayJournal s r
    else
      let due := (leaseTenants s).filterMap fun n => (resyncCause (leaseOf s n) (leaseOf s n).genChanged).map fun c => (n, c)
      let copied : List Tenant := due.map (·.1)
      let first := ((s.pair.journal.map (·.jseq)).head?).getD s.pair.jNext
      let s := setPair s fun p => { p with replayFrom := first }
      let again := s.pair.journal.filter fun e => decide (e.hdr.tenant ∈ copied)
      let s := setPair s fun p => { p with journal := p.journal.filter fun e => decide (e.hdr.tenant ∉ copied) }
      let s := replayJournal s 0
      let s := setPair s fun p => { p with journal := p.journal ++ again, reqSeen := true }
      let s := due.foldl (fun s d => setLease (resyncTenant d.2 s d.1) d.1 fun l => { l with genChanged := false }) s
      let s := setPair s fun p => { p with replayTo := if p.journal = [] then none else some (p.jNext - 1) }
      tryUp s swaps

def execJournalReq (m : MsgHdr) (swaps : List Tenant) (s : State) : Out := .next (journalReq s m swaps)

/-! ## Forwarded mutations (R371, R379) -/

/-- A forwarded mutation runs here; its FINAL goes back as FORWARD_DONE. -/
def runForward (s : State) (m : MsgHdr) (d : Descriptor) (p : Bytes) : State :=
  match Opcode.ofByte d.opcode.toNat with
  | none => s
  | some op =>
    let h := s.host.nextHandle
    let s := { s with host := { s.host with nextHandle := h + 1 } }
    let r := { newRequest s m.tenant (m.object.setWidth 3) op { d with tag := m.ref } p with remote := true, phase := .mutation }
    let s := setReq s h r
    let ends := fun st => finishPlain s h st 0
    match op with
    | .indexInsert | .indexDelete =>
      if (indexOf s (mutIndex r)).isNone then ends .badDescriptor
      else match mutRole s m.tenant none with
        | .forward | .redirect => ends .redirectPartner
        | _ => acceptBatch s h (mutIndex r) false
    | .adapterLoad =>
      match mutRole s m.tenant none with
      | .forward | .redirect => ends .redirectPartner
      | _ => runAdapter s h false
    | .rowUpdate =>
      match tableOf s (d.argA.toNat % 64) with
      | none => ends .badDescriptor
      | some t =>
        match mutRole s m.tenant (some t.ownerPos) with
        | .forward | .redirect => ends .redirectPartner
        | .noResources => ends .noResources
        | _ =>
          if (takesWork s t.part.toNat none).isSome then ends .noResources
          else queueItem s t.part m.tenant { kind := .update, handle := h }
    | _ => ends .badDescriptor

/-- FORWARD (R371, R379). -/
def forward (s : State) (m : MsgHdr) (b : MsgBody) : State :=
  if !linkLive s then s
  else
    let s := popMsg s 0x20
    if m.more then keepPart s m b
    else
      let whole := wholeBody s m b
      let s := dropParts s m
      match whole with
      | .desc d p => runForward s m d p
      | _ => s

def execForward (m : MsgHdr) (body : MsgBody) (s : State) : Out := .next (forward s m body)

/-- n bytes that the manual leaves open: the ids of a forwarded INDEX_INSERT, which FORWARD_DONE does not carry. -/
def freeBytes (s : State) (n : Nat) : Bytes × State := ((List.range n).map (Config.freeByte s.free), { s with free := s.free + 1 })

/-- FORWARD_DONE (R379): the descriptor ends with the status and the FINAL fields returned. -/
def forwardDoneMsg (s : State) (m : MsgHdr) (b : MsgBody) : State :=
  if !linkLive s then s
  else
    let s := popMsg s 0x21
    match s.pair.forwards.find? fun h => (reqOf s h).any fun r => decide (r.fn = m.tenant ∧ r.tag = m.ref), b with
    | some h, .final count aux =>
      match reqOf s h with
      | none => s
      | some r =>
        let s := setPair s fun p => { p with forwards := without h p.forwards }
        let st := Status.ofCode m.status.toNat
        let ids := r.op = .indexInsert && !r.desc.opflags.getLsbD 0 && st = .ok
        let (data, s) := if ids then freeBytes s (8 * itemCount r) else ([], s)
        finish s h st (finalBody r count data.length .none 0 aux) (if ids then [(r.desc.resultAddr, data)] else [])
    | _, _ => s

def execForwardDone (m : MsgHdr) (body : MsgBody) (s : State) : Out := .next (forwardDoneMsg s m body)

/-! ## Mirrored turns (R383) -/

def sameTurn (m : MsgHdr) (t : MirrorTurn) : Bool := decide (t.tenant = m.tenant ∧ t.tag = m.ref) && t.rerun.isNone

def modTurn (s : State) (m : MsgHdr) (f : MirrorTurn → MirrorTurn) : State :=
  setPair s fun p => { p with turns := p.turns.map fun t => if sameTurn m t then f t else t }

/-- TURN_DESC. -/
def turnDesc (s : State) (m : MsgHdr) (b : MsgBody) : State :=
  if s.pair.link ≠ .up then s
  else
    let s := popMsg s 0x30
    match b with
    | .desc d p =>
      if s.pair.turns.any (sameTurn m) then
        modTurn s m fun t => { t with param := t.param ++ p }
      else setPair s fun x => { x with turns := x.turns ++ [{ tag := m.ref, tenant := m.tenant, qp := m.object.setWidth 3, desc := d, param := p }] }
    | _ => s

def execTurnDesc (m : MsgHdr) (body : MsgBody) (s : State) : Out := .next (turnDesc s m body)

/-- TURN_TEXT. -/
def turnText (s : State) (m : MsgHdr) (b : MsgBody) : State :=
  if s.pair.link ≠ .up then s
  else
    let s := popMsg s 0x31
    match b with
    | .text d last => modTurn s m fun t => { t with text := t.text ++ d, ended := t.ended || last }
    | _ => s

def execTurnText (m : MsgHdr) (body : MsgBody) (s : State) : Out := .next (turnText s m body)

/-- TURN_SNAP: the snapshot is registered among the index's active ones (R184). -/
def turnSnap (s : State) (m : MsgHdr) : State :=
  if s.pair.link ≠ .up then s
  else
    let s := popMsg s 0x32
    match s.pair.turns.find? (sameTurn m) with
    | some t => if t.snap.isSome then s else modTurn (takeSnap s (rd t.param 11 1) m.epoch) m fun t => { t with snap := some m.epoch }
    | none => s

def execTurnSnap (m : MsgHdr) (s : State) : Out := .next (turnSnap s m)

/-- TURN_DONE. -/
def turnDone (s : State) (m : MsgHdr) : State :=
  if s.pair.link ≠ .up then s
  else
    let s := popMsg s 0x33
    (s.pair.turns.filter (sameTurn m)).foldl discardTurn s

def execTurnDone (m : MsgHdr) (s : State) : Out := .next (turnDone s m)

/-! ## PROVISIONAL tiles (R359, R360, R372) -/

/-- The partition whose store share holds a tile: the step that depends on it. -/
def sharePart (s : State) (t : TileIdx) : Option PartId := (s.gen.parts.find? fun q => inShare q.2 t).map fun q => partId q.1

/-- REMOTE_TILE: the tile enters the store; one marked PROVISIONAL keeps the step that depends on it from committing. -/
def remoteTile (s : State) (m : MsgHdr) (b : MsgBody) (t : TileIdx) : State :=
  if !linkLive s then s
  else
    let s := popMsg s 0x40
    match b with
    | .tile tl =>
      let s := writeTile s 0x3D t tl tl.hdr.world
      if !m.provisional then s
      else
        let k := m.partition.toNat
        let s := setPair s fun p => { p with
          provisional := p.provisional.filter (fun x => decide (x.tile ≠ t)) ++ [{ part := k, epoch := m.epoch, tile := t, link := true }] }
        match sharePart s t with
        | some p => setStep s p fun x => { x with provisional := withLast (k, m.epoch) x.provisional }
        | none => s
    | _ => s

def execRemoteTile (m : MsgHdr) (body : MsgBody) (t : TileIdx) (s : State) : Out := .next (remoteTile s m body t)

/-- COMMIT: the data of a step of the partner is confirmed. -/
def remoteCommit (s : State) (m : MsgHdr) : State :=
  if !linkLive s then s
  else
    let s := popMsg s 0x41
    let k := (m.partition.toNat, m.epoch)
    let s := setPair s fun p => { p with provisional := p.provisional.filter fun x => !x.link || decide ((x.part, x.epoch) ≠ k) }
    s.gen.parts.foldl (fun s q => if k ∈ q.2.step.provisional then setStep s (partId q.1) fun x => { x with provisional := without k x.provisional } else s) s

def execCommit (m : MsgHdr) (s : State) : Out := .next (remoteCommit s m)

/-- RETRACT: the data of a step of the partner is withdrawn, and the resend awaited. -/
def remoteRetract (s : State) (m : MsgHdr) : State :=
  if !linkLive s then s
  else
    let s := popMsg s 0x42
    (s.pair.provisional.filter fun x => x.link && decide (x.part = m.partition.toNat ∧ x.epoch = m.epoch)).foldl retractTile s

def execRetract (m : MsgHdr) (s : State) : Out := .next (remoteRetract s m)

/-! ## Tile recovery (R376) -/

/-- MIRROR_READ: answered with the module's own copy. -/
def mirrorRead (s : State) (m : MsgHdr) (b : MsgBody) : State :=
  if !linkLive s then s
  else
    let s := popMsg s 0x50
    match b with
    | .addr a =>
      let n := a.toNat / 16384
      let r : MsgHdr := { type := 0x51, tenant := m.tenant, ref := a.setWidth 64 }
      match (if mirrored s (devExtent n) then devTile s n else none) with
      | some t => sendMsg s r (.tile t)
      | none => sendMsg s { r with status := BitVec.ofNat 8 Status.mediaError.code } .none
    | _ => s

def execMirrorRead (m : MsgHdr) (body : MsgBody) (s : State) : Out := .next (mirrorRead s m body)

/-- MIRROR_DATA: a tile that passes its CRC takes the place of the lost one; otherwise the recovery has failed. -/
def mirrorData (s : State) (m : MsgHdr) (a : BitVec 48) (b : MsgBody) : State :=
  if !linkLive s || a ∉ s.pair.reads then s
  else
    let s := popMsg s 0x51
    let s := setPair s fun p => { p with reads := without a p.reads }
    let fails := setPair s fun p => { p with failedReads := withLast a p.failedReads }
    match b with
    | .tile t =>
      let n := a.toNat / 16384
      if m.status = 0 && t.crcOk then
        let s := devWrite s n t
        { s with tier := { s.tier with refetched := mins s.tier.refetched n t } }
      else fails
    | _ => fails

def execMirrorData (m : MsgHdr) (addr : BitVec 48) (body : MsgBody) (s : State) : Out := .next (mirrorData s m addr body)

end Sys2Proof.Machine
end

