-- ==== Sys2Proof/Machine/Failover.lean ====
section
/-! DEFINITION. Leases, hand-over, failover and re-runs of mirrored turns (R377, R378, R381, R382, R384, R385). -/

namespace Sys2Proof.Machine

/-- Position 1 is preferred for the tenant, by the PREFER value in effect (R378, R472). -/
def prefers (s : State) (n : Tenant) : Bool := (mget 0 s.pair.preferUsed (n.toNat / 32)).getLsbD (n.toNat % 32)

/-- LEASE_LINE_INVALIDATION (R377): the line is read again; a changed word is noted with its time (R378). -/
def leaseLine (s : State) (n : Tenant) (w : LeaseWord) : State :=
  if !s.pair.enable then s
  else
    let s := emit s (.sharedRead 0 (s.pair.leaseBase + BitVec.ofNat 64 (8 * n.toNat)))
    let s := setLease s n fun l => { l with word := w, changedAt := if l.word = w then l.changedAt else now s }
    tryHold s n

def execLeaseLineInvalidation (n : Tenant) (word : LeaseWord) (s : State) : Out := .next (leaseLine s n word)

/-- LEASE_RENEW (R378): the holder, every 500 ms; a new PREFER or FAILBACK is in effect from now on (R472). -/
def leaseRenew (s : State) (n : Tenant) (ok : Bool) : State :=
  let l := leaseOf s n
  if !s.pair.enable || !l.mine || decide (since l.renewedAt (now s) < 500000) then s
  else
    let s := setPair s fun p => { p with preferUsed := p.prefer, failbackUsed := p.failback }
    swapLease s n ok fun w => w

def execLeaseRenew (n : Tenant) (swapOk : Bool) (s : State) : Out := .next (leaseRenew s n swapOk)

/-- LEASE_RENEW_LAPSE (R378): a holder that has not renewed for 1.5 s. -/
def leaseLapse (s : State) (n : Tenant) : State :=
  if (leaseOf s n).mine && decide (1500000 ≤ since (leaseOf s n).renewedAt (now s)) then loseLease s n 1 else s

def execLeaseRenewLapse (n : Tenant) (s : State) : Out := .next (leaseLapse s n)

/-- A lease is taken by compare-and-swap (R378, R381, R384): SOLO of another holder stays pending. -/
def takeLease (s : State) (n : Tenant) (ok : Bool) (cause : Nat) : State :=
  if !ok then s
  else
    let solo := (leaseOf s n).word.solo
    let s := swapLease s n true fun w => { w with held := true, holder := s.pair.position }
    let s := setLease s n fun l => { l with mine := true, soloPending := solo, holdFrom := none, handingOver := false }
    logEvent s (.leaseAcquired n cause (leaseOf s n).word.count solo)

/-! ## Re-runs (R385) -/

/-- A turn block whose deadlines stand at intervals from the start (R385 rule 4). An absolute deadline of the partner's timer is counted from the
original turn start on that timer, which no message carries: a free value. -/
def relativeBlock (p : Bytes) (start : Nat) : Bytes :=
  if bit (rd p 2 2) 0 then p
  else
    let rel := fun off => toLE 8 (if rd p off 8 = 0 then 0 else max 1 (rd p off 8 - start))
    splice (splice p 2 (toLE 2 (rd p 2 2 + 1))) 24 (rel 24 ++ rel 32 ++ rel 40)

/-- Buffer addresses of a turn that must translate (R385). -/
def turnBuffers (p : Bytes) : List (BitVec 64) :=
  let b := blockFixed p
  [b.textBuf, b.idBuf, b.reportBuf].filter fun a => decide (a ≠ 0)

/-- The re-run of a mirrored turn cannot be made: its pair, its addresses or its TAG (R385). -/
def rerunBarred (s : State) (t : MirrorTurn) (unmapped : List (BitVec 64)) : Bool :=
  decide ((qpOf s t.tenant t.qp).state ≠ .enabled) || (turnBuffers t.param).any (fun a => decide (a ∈ unmapped))
    || s.host.requests.any fun r => decide (r.2.fn = t.tenant ∧ r.2.tag = t.tag) && !r.2.remote

/-- The checks and the start of a re-run: the turn restarts from its descriptor (R385 rules 2 to 5). -/
def startRerun (s : State) (t : MirrorTurn) (h : Nat) (r : Request) : State :=
  match r.op with
  | .turn =>
    checked s h (turnChecks s r) fun s =>
      let s := openTurn s h
      if (reqOf s h).any (fun r => r.streamOpen) && (t.text ≠ [] || t.ended) then addText s h t.text t.ended else s
  | .generate => checked s h (generateChecks s r) fun s => startGenerate s h r
  | _ => s

/-- A mirrored turn of the partner that has no TURN_DONE is re-run, or only its event is posted (R385). -/
def rerunTurn (unmapped : List (BitVec 64)) (s : State) (t : MirrorTurn) : State :=
  if t.rerun.isSome then s
  else
    let s := logEvent s (.failoverRerun t.tenant t.tag t.qp.toNat)
    let op := Opcode.ofByte t.desc.opcode.toNat
    if rerunBarred s t unmapped || !(op = some .turn || op = some .generate) then discardTurn s t
    else
      let (v, s) := drawFree s
      let h := s.host.nextHandle
      let p := relativeBlock t.param (v.toNat % 2 ^ 48)
      let r := { newRequest s t.tenant t.qp (op.getD .turn) t.desc p with mirrorSnap := t.snap }
      let s := setReq { s with host := { s.host with nextHandle := h + 1 } } h r
      let s := setPair s fun x => { x with turns := x.turns.map fun y => if y = t then { y with rerun := some h } else y }
      startRerun s t h r

/-- Re-runs of the mirrored turns of tenants that a test names. -/
def rerunTurns (s : State) (unmapped : List (BitVec 64)) (which : Tenant → Bool) : State :=
  (s.pair.turns.filter fun t => which t.tenant).foldl (rerunTurn unmapped) s

/-! ## Expiry and takeover (R378, R384) -/

/-- LEASE_EXPIRY_TAKE (R378, R384): a free word, at once by the module that PREFER names and after 2.0 s by the other; a word of the partner seen
unchanged for 2.0 s, with the re-runs of that tenant. -/
def leaseExpiry (s : State) (n : Tenant) (ok : Bool) (unmapped : List (BitVec 64)) : State :=
  let l := leaseOf s n
  let old := decide (2000000 ≤ since l.changedAt (now s))
  if !s.pair.enable || l.mine then s
  else if !l.word.held then
    if prefers s n = s.pair.position then takeLease s n ok 0 else if old then takeLease s n ok 1 else s
  else if l.word.holder ≠ s.pair.position && old then
    let s := takeLease s n ok 1
    if ok then rerunTurns s unmapped fun t => decide (t = n) else s
  else s

def execLeaseExpiryTake (n : Tenant) (swapOk : Bool) (unmapped : List (BitVec 64)) (s : State) : Out := .next (leaseExpiry s n swapOk unmapped)

/-- Every word that the partner holds is taken, and the turns of tenants taken or held already are re-run (R384, R385). -/
def takeOver (s : State) (cause : Nat) (swaps : List Tenant) (unmapped : List (BitVec 64)) : State :=
  let theirs := (leaseTenants s).filter fun n => (leaseOf s n).word.held && decide ((leaseOf s n).word.holder ≠ s.pair.position) && !(leaseOf s n).mine
  let s := theirs.foldl (fun s n => takeLease s n (decide (n ∈ swaps)) cause) s
  rerunTurns s unmapped fun t => (leaseOf s t).mine

/-- RELINQUISH (R369, R384, R385). -/
def relinquish (s : State) (swaps : List Tenant) (unmapped : List (BitVec 64)) : State :=
  if !linkLive s then s else takeOver (enterDown s .relinquish swaps) 4 swaps unmapped

def execRelinquish (_m : MsgHdr) (swaps : List Tenant) (unmapped : List (BitVec 64)) (s : State) : Out := .next (relinquish s swaps unmapped)

/-- PAIR_TAKEOVER's effect (R384, R385). -/
def pairTakeover (s : State) (swaps : List Tenant) (unmapped : List (BitVec 64)) : State :=
  takeOver (enterDown s .takeover swaps) 2 swaps unmapped

/-- The module gives up every lease it holds, before it reports itself failed or when pairing ends (R384, R472). -/
def sendRelinquish (s : State) : State :=
  if s.pair.link = .up then sendMsg s { type := 0x62 } .none else s

/-! ## Hand-over (R382) -/

/-- A planned hand-over of a tenant begins. -/
def startHandover (swaps : List Tenant) (s : State) (n : Tenant) : State :=
  if (leaseOf s n).mine && s.pair.link = .up then handoverStep swaps (setLease s n fun l => { l with handingOver := true }) n else s

/-- HANDOVER: the partner gives the tenant; the module acts as holder once it has applied the JSEQ named. -/
def handover (s : State) (m : MsgHdr) : State :=
  if s.pair.link ≠ .up then s
  else tryHold (setLease (popMsg s 0x61) m.tenant fun l => { l with holdFrom := some m.ref.toNat }) m.tenant

def execHandover (m : MsgHdr) (s : State) : Out := .next (handover s m)

/-- FAILBACK_HANDOVER: 10 s after UP with FAILBACK set, for a tenant that PREFER assigns to the partner. -/
def failback (s : State) (n : Tenant) (ok : Bool) : State :=
  if s.pair.failbackUsed && s.pair.upAt.any (fun t => decide (10000000 ≤ since t (now s))) && decide (prefers s n ≠ s.pair.position)
      && !(leaseOf s n).handingOver
  then startHandover (if ok then [n] else []) s n else s

def execFailbackHandover (n : Tenant) (swapOk : Bool) (s : State) : Out := .next (failback s n swapOk)

/-- SOLO_CLEAR's effect (R381): SOLO pending ends; the old holder's entries are lost, and it takes the tenant by full resynchronisation. -/
def soloClear (s : State) (n : Tenant) : State :=
  if !(leaseOf s n).soloPending then s
  else
    let s := setLease s n fun l => { l with soloPending := false, cleared := true }
    retryWaiting (logEvent s (.soloCleared n (leaseOf s n).word.count)) []

end Sys2Proof.Machine
end

