-- ==== Sys2Proof/Machine/Reset.lean ====
section
/-! DEFINITION. Resets (R450, R451, R456, R75, R72, R60): what a reset of each reach leaves, stage 0 of the Bureau's boot (R430, R432), and
the module's work across a warm reset. -/

namespace Sys2Proof.Machine

/-! ## Events on their way to flash (R423, R424) -/

/-- A record enters the areas of secure flash: the last 16,384, and the first area while it has room. -/
def keepRecord (b : BureauState) (r : EventRec) : BureauState :=
  { b with
    lastArea := (r :: b.lastArea).take 16384
    firstArea := if b.firstArea.length < 4096 then r :: b.firstArea else b.firstArea }

/-- Staged records are written to flash (R424). -/
def flushEvents (s : State) : State :=
  { s with bureau := { s.bureau.staged.foldr (fun r b => keepRecord b r) s.bureau with staged := [] } }

/-! ## What power-on and HOST_PERST_N leave (Table 19.4) -/

/-- An extent entry once tier L has lost its contents: no copy of RO data, no migration (R71, R75). -/
def coldEntry (e : ExtentEntry) : ExtentEntry :=
  let e := { e with tilemap := 0, inflight := 0, moveBusy := false, movePtr := 0, mstate := 0, newTier := 0, newLoc := 0, pin := false }
  if e.cls = 0 then { e with copyTier := 0, copyLoc := 0 } else e

/-- What secure flash keeps of an engine (R125, R357). -/
def coldEngine (x : EngineState) : EngineState :=
  { retired := if x.retired = 1 then 1 else 0, spareApplied := x.spareApplied, groupLost := x.groupLost, sparePending := x.sparePending
    retiredAt := x.retiredAt, permanent := x.permanent, returnedAt := x.returnedAt }

/-- Leaf key k belongs to an extent of the CXL.mem window, which lies at extent numbers 0 and up. -/
def windowKey (s : State) (k : Nat) : Bool :=
  s.tier.dir.any fun d => decide (d.2.toNat = k / 16384) && decide (d.1 * 16384 + k % 16384 < 512 * s.tier.windowSize.toNat)

/-- Extent number of a leaf key. -/
def extentOfKey (s : State) (k : Nat) : Option Nat :=
  (s.tier.dir.find? fun d => decide (d.2.toNat = k / 16384)).map fun d => d.1 * 16384 + k % 16384

/-- An index with no work in progress. -/
def IndexRec.quiet (r : IndexRec) : IndexRec :=
  { r with snaps := [], batch := none, undo := [], newDeltas := [], newTombs := [], queue := [], compact := []
           freeing := mmap (fun _ f => { f with users := [] }) r.freeing }

/-- A table with no work in progress. -/
def TableRec.quiet (r : TableRec) : TableRec := { r with batch := none, undo := [], mirrorIn := [] }

/-- NAND contents and what firmware keeps of them; the map and the journal ring in tier L are gone (R406). -/
def coldFlash (f : FlashState) : FlashState :=
  { blocks := (mmap (fun _ b => { b with erasing := none }) f.blocks).filter fun e => decide (e.2 ≠ {})
    journal := f.journal, image := f.image, segNext := f.segNext
    checkpoint := f.checkpoint, groups := f.groups, groupNext := f.groupNext, flushMark := f.flushMark, readonly := f.readonly
    retiredCount := f.retiredCount, rebuilding := true, stopped := true }

/-- Secure flash of the Bureau: event areas, banks, boot selector and count, a pending activation. -/
def coldBureau (b : BureauState) : BureauState :=
  { firstArea := b.firstArea, lastArea := b.lastArea, evSeq := b.evSeq, activeB := b.activeB, banks := b.banks, pendingBank := b.pendingBank
    activateUtc := b.activateUtc, fwHeld := b.fwHeld, bootFails := b.bootFails, recoveryBit := b.recoveryBit, runningSvn := b.runningSvn
    keySlot := b.keySlot, recoveryImage := b.recoveryImage }

/-- What survives power-on and HOST_PERST_N: flash and secure flash, the fuses, the extents and objects whose data lies in flash (R71,
R315); all else is at its reset value. -/
def survivors (s : State) : State :=
  let s := s.gen.indexes.foldl (fun s i => if i.2.batch.isSome then rollbackBatch s i.1 else s) s
  { State.reset with
    store := { rowsToMap := s.store.rowsToMap, rowsMapped := s.store.rowsMapped }
    tier := { dir := s.tier.dir, leaves := mmap (fun _ e => coldEntry e) ((s.gen.parts.foldl (fun s q => dropPool s q.2) s).tier.leaves.filter fun x => !windowKey s x.1), retiredL := s.tier.retiredL }
    engines := { engine := (mmap (fun _ x => coldEngine x) s.engines.engine).filter fun x => decide (x.2 ≠ {}) }
    host := { out := s.host.out }
    gen := { indexes := mmap (fun _ r => (IndexRec.quiet r).withOldest) s.gen.indexes, tables := mmap (fun _ r => TableRec.quiet r) s.gen.tables
             faultRecords := s.gen.faultRecords, faultNext := s.gen.faultNext }
    flash := coldFlash s.flash
    bureau := coldBureau s.bureau
    fuses := s.fuses
    free := s.free
    pending := s.pending }

/-! ## Stage 0 (R430 to R432, R437) -/

/-- The image that a bank holds: bank A's is the factory image until one is written. -/
def bankImage (s : State) (b : Bool) : Option BankImage :=
  match mfind s.bureau.banks (b2n b) with
  | some i => some i
  | none => if b then none else some { verified := true }

/-- Why the bank's image does not verify: 1 revoked slot, 2 SVN, 3 digest (Table 18.10); none when it does. -/
def bankCause (s : State) (b : Bool) : Option Word :=
  match bankImage s b with
  | none => some 3
  | some i =>
    if s.fuses.revoked.getLsbD i.keySlot.toNat then some 1
    else if i.svn < s.fuses.rollback ∨ 64 < i.svn then some 2
    else if i.verified then none else some 3

/-- Recovery (R437): only PD00, PD01, PD05 and PD28 keep power, the link stays DOWN, the data plane stays in reset. What the event says of
the banks has no stated code: free values. -/
def enterRecovery (s : State) (cause : Nat) : State :=
  let (a, s) := drawFree s
  let (b, s) := drawFree s
  let s := { s with
    bureau := { s.bureau with recovery := true, recoveryBit := true, booting := false }
    power := { s.power with domains := s.power.domains.filter fun d => decide (d ∈ [0, 1, 5, 28]), releaseStep := 0, resetting := none }
    pair := { s.pair.quietLink with link := .down } }
  logEvent s (.recoveryEntered cause a.toNat b.toNat)

/-- The runtime of a bank starts. -/
def bootBank (s : State) (b : Bool) : State :=
  let i := (bankImage s b).getD {}
  { s with bureau := { s.bureau with activeB := b, runningSvn := i.svn, keySlot := i.keySlot, booting := true, recovery := false } }

/-- Stage 0 and stage 1 (R430): the active bank, else the other one; recovery after three failures or when neither verifies (R432). -/
def stage0 (s : State) : State :=
  let a := s.bureau.activeB
  if 3 ≤ s.bureau.bootFails then enterRecovery s 1
  else match bankCause s a with
  | none => bootBank s a
  | some c =>
    let s := logEvent (logEvent s (.fwVerifyFailed (b2n a) 1 c)) (.bootBankFallback (b2n a) c)
    match bankCause s !a with
    | none => bootBank s !a
    | some c' => enterRecovery (logEvent s (.fwVerifyFailed (b2n !a) 1 c')) 0

/-! ## Work across a warm reset (R456) -/

/-- Mutations whose mirrored message is in the journal. -/
def journalledMutations (s : State) : List Nat := s.pair.journal.filterMap fun e => e.handle.bind fun h => if (reqOf s h).isSome then some h else none

/-- The FINAL CANCELLED of one sequence: what its earlier completions reported. -/
def cancelSequence (h : Nat) (r : Request) (s : State) (k : Nat) : State :=
  let at_ : Option (Nat × Nat) := s.gen.parts.findSome? fun q =>
    (q.2.slots.find? fun x => decide (x.2.request = h) && decide (x.2.seq.toNat = k) && x.2.state ≠ .free).map fun x => (q.1, x.1)
  match at_ with
  | none => endWaiting s h k .cancelled 0
  | some (p, n) =>
    let x := streamRec s (BitVec.ofNat 5 p) n
    finalSeq s h k { tag := r.tag, body := .final x.ids x.written r.invalidText .cancelled (BitVec.ofNat 4 k) 0, flags := r.flags, status := .cancelled }

/-- An outstanding descriptor ends CANCELLED; a mutation's batch is taken back (R183). -/
def cancelForReset (s : State) (h : Nat) (r : Request) : State :=
  if r.phase = .ending then s
  else match r.op with
    | .turn | .generate => (List.range (max 1 r.block.nSeq)).foldl (cancelSequence h r) s
    | .indexInsert | .indexDelete =>
      if (indexOf s (mutIndex r)).any fun x => decide (x.batch = some h) then mutationAnswered s h .cancelled false else finishPlain s h .cancelled 0
    | .rowUpdate => finishPlain (updateAnswered s h .cancelled) h .cancelled 0
    | .adapterLoad => finishPlain (adapterAnswered s h .cancelled) h .cancelled 0
    | _ => finishPlain s h .cancelled 0

/-- Descriptors fetched and not accepted end CANCELLED too (R292). -/
def cancelFetched (s : State) : State :=
  s.host.qps.foldl (fun s x =>
    let fn := BitVec.ofNat 9 (x.1 / 8)
    let q := BitVec.ofNat 3 x.1
    let s := setQp s fn q fun p => { p with fetched := [] }
    x.2.fetched.foldl (fun s f => post s fn q
      { tag := f.desc.tag, body := .final 0 0 0 .none 0 0, status := .cancelled }) s) s

/-- Every batch queue is emptied: the batches that wait are cancelled with their requests. -/
def emptyQueues (s : State) : State :=
  { s with gen := { s.gen with indexes := mmap (fun _ r => { r with queue := [] }) s.gen.indexes } }

/-- The outstanding descriptors of the module, apart from those named: how many ended, and how many batches were rolled back. -/
def cancelOutstanding (s : State) (keep : List Nat) : State × Nat × Nat :=
  let open_ := s.host.requests.filter fun x => decide (x.1 ∉ keep) && decide (x.2.phase ≠ .ending)
  let fetched := (s.host.qps.map fun x => x.2.fetched.length).sum
  let muts := open_.filter fun x => x.2.op = .indexInsert || x.2.op = .indexDelete || x.2.op = .rowUpdate
  let s := open_.foldl (fun s x => cancelForReset s x.1 x.2) (emptyQueues s)
  (cancelFetched s, open_.length + fetched, muts.length)

/-! ## State of the data plane after a warm reset -/

/-- A partition keeps its program and shares; its work is gone. -/
def Partition.afterReset (q : Partition) : Partition :=
  { q with
    state := if q.state = .empty || q.state = .failed then q.state else if q.prog.isSome then .running else .empty
    slots := [], rings := [], credit := [], ptr := 0, step := {}, draws := [], drawsAsked := [], admitNext := 0, reports := []
    matched := q.committed, replacing := none, unloading := none, switchDue := [], switchBack := false, pauseFor := none, loadWait := none
    hotDir := [], hotOld := [] }

/-- An engine after a warm reset: its stores zero, its contexts as the loaded programs set them. -/
def EngineState.afterReset (gap slope : BitVec 16) (x : EngineState) : EngineState :=
  { coldEngine x with
    retired := x.retired, ctx0 := x.ctx0, ctx1 := x.ctx1, stepsRun := x.stepsRun, lastFaults := x.lastFaults, cntReplays := x.cntReplays
    cntRaised := x.cntRaised, cntNan := x.cntNan, cntFaults := x.cntFaults, cntCorrected := x.cntCorrected, testedAt := x.testedAt
    holdGap := gap, holdSlope := slope }

/-- Pages and adapter references of the slots go back; partitions and engines are as after reset. -/
def resetEngines (s : State) : State :=
  let s := s.gen.parts.foldl (fun s q => q.2.slots.foldl (fun s x => freePages s (BitVec.ofNat 5 q.1) x.2.pageList) s) s
  let s := { s with
    gen := { s.gen with
      parts := mmap (fun _ q => q.afterReset) s.gen.parts
      adapters := mmap (fun _ v => { v with refs := 0 }) s.gen.adapters
      codebooks := []
      indexes := mmap (fun _ r => IndexRec.withOldest { r with snaps := [], freeing := mmap (fun _ f => { f with users := [] }) r.freeing }) s.gen.indexes }
    engines := { s.engines with
      engine := mmap (fun _ x => x.afterReset s.engines.holdGap s.engines.holdSlope) s.engines.engine, merges := [], selOut := []
      slotLines := [] }
    text := { s.text with streams := [], masks := [] } }
  s.pair.turns.foldl (fun s t => match t.snap with
    | some e => takeSnap s (rd t.param 11 1) e
    | none => s) (freeVersions s)

/-- The copy that a migration of RO leaves: its COPY, or HOME where the extent lives in tier L alone (R73). -/
def currentTier (e : ExtentEntry) : BitVec 2 := if e.cls = 0 && e.copyTier = 0 then e.homeTier else e.copyTier

/-- NEW is discarded and COPY stays (R75). -/
def discardNew (s : State) (x : Nat) (e : ExtentEntry) : State :=
  setEntry (freeLoc s e.newTier e.newLoc) x fun e =>
    { e with mstate := 0, newTier := 0, newLoc := 0, movePtr := 0, tilemap := if e.cls = 0 then 0 else e.tilemap }

/-- An RO migration resumed: NEW filled to its end, switched and drained; a tile that no source gives ends it. -/
def resumeRo (s : State) (x : Nat) (e : ExtentEntry) : State :=
  let left := (List.range 128).filter fun t => !e.tilemap.getLsbD t
  let s := left.foldl (fillTile x e.newTier e.newLoc) s
  if (entryOf s x).any fun e => decide (e.tilemap = BitVec.allOnes 128) then migrateRoSwitch s x else discardNew s x e

/-- One migration is finished (R75): between tier-L places the copy resumes; in every other case NEW is discarded. -/
def finishMigration (s : State) (x : Nat) : State :=
  match entryOf s x with
  | none => s
  | some e =>
    let s := setEntry s x fun e => { e with inflight := 0, moveBusy := false }
    if e.newTier = 0 then s
    else if e.newTier = 2 && currentTier e = 2 then
      if e.cls = 0 then resumeRo s x e else (List.range 129).foldl (fun s _ => migrateTileCopy s x) s
    else discardNew s x e

/-- Dirty bits and TILEMAP of a WB extent are compared (R72): where they disagree, either way, the TILEMAP bit is set and an event logged. -/
def compareDirty (s : State) (x : Nat) : State :=
  match entryOf s x with
  | none => s
  | some e =>
    if e.cls ≠ 1 then s
    else (List.range 128).foldl (fun s t =>
      let n := (place e (BitVec.ofNat 7 t)).2
      if (lTile s n).dirty ≠ e.tilemap.getLsbD t then
        let s := setEntry s x fun e => { e with tilemap := e.tilemap ||| BitVec.ofNat 128 (2 ^ t) }
        let due := if e.tilemap.getLsbD t then s.tier.dirtyAt else mins s.tier.dirtyAt (128 * x + t) (recNow s)
        logEvent { s with tier := { s.tier with dirtyAt := due } } (.unnamed 23 (channelDie n) [w32 x, w32 t])
      else s) s

/-- The tiers after a warm reset (R75, R72): migrations finished, drains ended, tier-S copies of RO extents dropped. -/
def resetTiers (s : State) : State :=
  let xs := s.tier.leaves.filterMap fun l => extentOfKey s l.1
  let s := { s with tier := { s.tier with waiting := [], waitReads := [], hostWrites := [], cache := [], replies := [], retraining := [], streams := [] } }
  let s := xs.foldl finishMigration s
  let s := { s with tier := { s.tier with drains := mmap (fun _ d => { d with users := [] }) s.tier.drains } }
  let s := s.tier.drains.foldl (fun s d => migrateRoDrainEnd s d.1) s
  let s := xs.foldl (fun s x => setEntry s x fun e => if e.cls = 0 && e.copyTier = 1 then { e with copyTier := 0, copyLoc := 0, tilemap := 0 } else e) s
  xs.foldl compareDirty s

/-- Rows recorded for replacement get spare rows, 8 a bank; a bank without one is a fatal event and the module fails (R60). -/
def mapRows (s : State) : State :=
  s.store.rowsToMap.foldl (fun s r =>
    let used := (s.store.rowsMapped.filter fun m => decide (m.1 = r.1)).length
    if used < 8 then { s with store := { s.store with rowsMapped := s.store.rowsMapped ++ [r] } }
    else
      let s := logEvent s { Ev.unnamed 24 (BitVec.ofNat 6 (0x18 + r.1 / 64)) [w32 r.1, w32 r.2] with sev := 3 }
      { s with host := { s.host with failed := true } }) { s with store := { s.store with rowsToMap := [] } }

/-- The media cores are quiesced (R407): transfers in progress end, and nothing more is taken until the warm rebuild. -/
def quiesceMedia (s : State) : State :=
  let s := s.flash.programs.foldl programDone { s with flash := { s.flash with programs := [] } }
  let s := s.flash.blocks.foldl (fun s b => if b.2.erasing.isSome then
    eraseDone s (b.1 / 2 ^ 23 / 16) (b.1 / 2 ^ 23 % 16) (b.1 % 2 ^ 23) true else s) s
  { s with flash := { s.flash with stopped := true, stalled := [], port := [] } }

/-- The Bureau's registers take their values after warm reset (Table 18.2, Table 18.3, Table 20.2); secure flash, record time, the UTC
offset, sensor readings and regulator set points stay. -/
def resetBureau (s : State) : State :=
  let s := mailboxReset s
  { s with
    limits := {}
    bureau := { s.bureau with
      sources := [], threshold := [], badComp := [], claim := [], edge := [], overrun := [], secureXor := [], kickAt := [], stage1At := []
      stoppedCores := [], since := [], capCut := 0, memHot := [], background := [], session := false, bootAt := s.bureau.recTime } }

/-- The Settee link enters DOWN; JOURNAL_GEN and the journal stay (R375, Table 19.4). No split cause of Table 16.8 is a reset: none is logged. -/
def linkDownForReset (s : State) : State :=
  if s.pair.link = .down then s else enterDown { s with pair := { s.pair with link := .training } } .silence []

/-- A bank has fewer spare rows left than the rows to replace in it (R60). -/
def rowsFail (s : State) : Bool :=
  s.store.rowsToMap.any fun r => decide (8 < ((s.store.rowsMapped ++ s.store.rowsToMap).filter fun m => decide (m.1 = r.1)).length)

/-- A warm reset with its cause (Table 19.14): 0 command, 1 mailbox, 2 activation, 3 watchdog, 4 link failure. -/
def warmReset (s : State) (cause : Nat) : State :=
  let s := if rowsFail s then sendRelinquish s else s
  let js := s.power.finishing ++ journalledMutations s
  let s := { s with pair := { s.pair with journal := s.pair.journal.map fun e => { e with handle := none } } }
  let s := if s.pair.link = .down then s else { s with pair := { s.pair with link := .training } }
  let (s, cancelled, rolled) := cancelOutstanding s js
  let s := linkDownForReset s
  let s := resetTiers (resetEngines (quiesceMedia s))
  let s := mapRows (clearStore s)
  let s := { s with
    fabric := { rate := s.fabric.rate, linkReset := s.fabric.linkReset, released := [0x3C, 0x3D] }
    host := { s.host with
      bootOk := false, inWarmReset := true, fetchStopped := true, qps := mmap (fun _ p => { p with fenced := none }) s.host.qps }
    power := { s.power with resetting := some .warm, releaseStep := 8, warmCause := some cause, finishing := js } }
  let s := if cause = 2 then s else logEvent s { Ev.warmReset cause cancelled js.length rolled with tenant := some 0 }
  stage0 (resetBureau (flushEvents s))

/-- WARM_RESET: a reset in progress that reaches everything covers it (R458); a warm reset in progress starts anew. -/
def execWarmReset (cause : BitVec 3) (s : State) : Out :=
  .next (if !s.power.powerGood || s.bureau.recovery || s.power.resetting = some .powerOn || s.power.resetting = some .perst then s
         else warmReset s cause.toNat)

end Sys2Proof.Machine
end

