-- ==== Sys2Proof/Machine/Power.lean ====
section
/-! DEFINITION. Power and release (chapter 19): input, power domains, hold-up, trips, HOST_PERST_N, the release chain, and what link and
quiesce failures lead to (R21, R32). -/

namespace Sys2Proof.Machine

/-! ## Domains and the start of the release chain (R442, R453, R454) -/

/-- Regulated domains in the order of power-up (R442). -/
def domainOrder : List Nat := [1, 2, 3, 4] ++ (List.range 24).map (· + 6)

/-- Every regulated domain has power. -/
def allPowered (s : State) : Bool := domainOrder.all fun d => decide (d ∈ s.power.domains)

/-- Dies released by a step of Table 19.5; the pair-link die, which the table does not list, goes with the host die. -/
def chainDies : Nat → List DieId
  | 8 => [0x3C, 0x3D]
  | 9 => (List.range 4).map fun i => BitVec.ofNat 6 (0x34 + i)
  | 10 => (List.range 8).map fun i => BitVec.ofNat 6 (0x18 + i)
  | 11 => (List.range 16).map fun i => BitVec.ofNat 6 (0x20 + i)
  | 14 => (List.range 4).map fun i => BitVec.ofNat 6 (0x30 + i)
  | 15 => [0x3E]
  | 16 => (List.range 24).map fun i => BitVec.ofNat 6 i
  | _ => []

/-- Dies join those released. -/
def releaseDies (s : State) (n : Nat) : State :=
  { s with fabric := { s.fabric with released := (chainDies n).foldl (fun l d => withLast d l) s.fabric.released } }

/-- The release chain starts once HOST_PERST_N is high, the Bureau boots and every domain has power (R453, R454). -/
def startChain (s : State) : State :=
  let p := s.power
  if p.perstN && !p.bureauHeld && s.bureau.booting && !s.host.failed && decide (p.releaseStep = 0) && p.resetting.isSome && allPowered s then
    releaseDies { s with power := { p with releaseStep := 8 } } 8
  else s

/-- Orders 1 to 3 of Table 19.5: the converter runs, PD00 and PD05 are up, the Bureau is released. JOURNAL_GEN is drawn (R369). -/
def powerOn (s : State) (mv : Nat) (seed : BitVec 64) : State :=
  let p := s.power
  let s := survivors s
  { s with
    pair := { s.pair with journalGen := seed }
    power := { s.power with
      j1 := mv, converter := true, domains := [0, 5], powerGood := true, perstN := p.perstN, emergN := p.emergN, flowOk := p.flowOk
      bureauHeld := false, resetting := some .powerOn } }

/-- POWER_ON (R450, R454): J1 rises through 48 V. A module that a trip has switched off does not start (R449). -/
def execPowerOn (mv : Nat) (seed : BitVec 64) (s : State) : Out :=
  .next (if s.power.powerGood || s.power.tripped || !s.power.emergN || decide (mv < 48000) then s else powerOn s mv seed)

/-- DOMAIN_POWER_UP (R442): the next regulated domain; after the last one stage 0 reads stage 1 (order 5 of Table 19.5). -/
def domainUp (s : State) : State :=
  if !s.power.powerGood || s.power.bureauHeld || s.bureau.recovery then s
  else match domainOrder.find? fun d => decide (d ∉ s.power.domains) with
    | none => s
    | some d =>
      let s := { s with power := { s.power with domains := s.power.domains ++ [d] } }
      if allPowered s then startChain (if s.bureau.booting then s else stage0 s) else s

def execDomainPowerUp (s : State) : Out := .next (domainUp s)

/-- PIN_CONFIGURE (R459). -/
def execPinConfigure (s : State) : Out :=
  .next (if s.power.powerGood && !s.power.bureauHeld then { s with power := { s.power with pins := true } } else s)

/-! ## HOST_PERST_N (R453) -/

/-- HOST_PERST_N_ASSERT: everything but fuse sense is reset; the Bureau is held for 1 ms. The input, the hold-up bank and the trips are no
part of what it reaches. -/
def perstAssert (s : State) (seed : BitVec 64) : State :=
  let p := s.power
  let s := survivors s
  { s with
    pair := { s.pair with journalGen := seed }
    power := { s.power with
      j1 := p.j1, converter := p.converter, powerGood := p.powerGood, armed := p.armed, tripped := p.tripped, lost := p.lost, emergN := p.emergN
      flowOk := p.flowOk, perstN := false, domains := if p.powerGood then [0, 5] else [], bureauHeld := true
      resetting := if p.powerGood then some .perst else none } }

def execHostPerstNAssert (seed : BitVec 64) (s : State) : Out :=
  .next (if s.power.perstN then perstAssert s seed else s)

/-- BUREAU_PERST_RELEASE: 1 ms after the assertion, whatever the level of HOST_PERST_N. -/
def perstRelease (s : State) : State :=
  if s.power.bureauHeld && s.power.powerGood then
    { s with bureau := { s.bureau with bootAt := s.bureau.recTime }, power := { s.power with bureauHeld := false } }
  else s

def execBureauPerstRelease (s : State) : Out := .next (perstRelease s)

/-- HOST_PERST_N_DEASSERT: the host die and the later dies may be released; in recovery the host die alone (R437). Window contents are zero
(R85). -/
def perstDeassert (s : State) : State :=
  if s.power.perstN then s
  else
    let s := { s with power := { s.power with perstN := true } }
    if s.bureau.recovery then { s with fabric := { s.fabric with released := withLast 0x3C s.fabric.released } } else startChain s

def execHostPerstNDeassert (s : State) : Out := .next (perstDeassert s)

/-! ## The release chain (R454, R455, R427) -/

/-- What step n of the chain waits for has come about. -/
def chainEnds (s : State) (n : Nat) : Bool :=
  match n with
  | 10 => s.store.zeroFilling.isEmpty
  | 11 => s.power.resetting = some .warm || s.power.memoryActive
  | 14 => !s.flash.rebuilding && !s.flash.stopped
  | 0 | 17 => false
  | _ => true

/-- The step of the chain after n. -/
def chainNext : Nat → Nat
  | 8 => 9 | 9 => 10 | 10 => 11 | 11 => 14 | 14 => 15 | 15 => 16 | _ => 17

/-- The die is accepted (R389). -/
def ParamPage.accepted (g : ParamPage) : Bool :=
  51 ≤ g.onfi && g.tlc && g.bits = 2 ^ 40 && g.page = 16384 && 2208 ≤ g.spare && g.blockPages % 3 = 0

/-- Channels that fail, with cause and die: those found failed, and those with a refused die (R389, Table 17.8). -/
def failures (r : ReleaseInfo) : List (Nat × Nat × Nat) :=
  r.failedChans ++ (r.params.filter fun x => !x.2.accepted).map fun x => (x.1 / 16, 0, x.1 % 16)

/-- Parameter pages are read, channels that are not accepted fail (R389). -/
def readParameters (s : State) (r : ReleaseInfo) : State :=
  if s.power.resetting = some .warm then s
  else
    let s := { s with flash := { s.flash with
      params := r.params.foldl (fun m x => mins m x.1 (x.2.blockPages, x.2.rated)) s.flash.params
      failedChans := (failures r).foldl (fun l x => withLast x.1 l) s.flash.failedChans } }
    (failures r).foldl (fun s x => logEvent s (.flashChannelFailed x.1 x.2.1 x.2.2)) s

/-- A WB extent's COPY is filled again from HOME (R71). -/
def refillCopy (s : State) (x : Nat) : State :=
  match entryOf s x with
  | none => s
  | some e =>
    if e.cls ≠ 1 then s
    else (List.range 128).foldl (fun s t => match tileAt s (3, 128 * e.homeLoc.toNat + t) with
      | some tl => putL s (place e (BitVec.ofNat 7 t)).2 tl false
      | none => s) s

/-- After the cold rebuild the copies of WB extents return to what was last written back. -/
def refillCopies (s : State) : State :=
  if s.power.resetting = some .warm then s
  else (s.tier.leaves.filterMap fun l => extentOfKey s l.1).foldl refillCopy s

/-- The engine was retired in the previous 30 days of record time (R357). -/
def retiredLately (s : State) (x : EngineState) : Bool :=
  x.retiredAt.any fun t => decide (since t (recNow s) < 30 * 86400 * 1000000)

/-- The start-up self-test of an engine (R363): a failing engine is retired; one in which a group has lost two units has no full-width
configuration and is retired whatever its test (R122); a retired one that passes returns under R357, with the spare
recorded for it (R125). -/
def selfTest (r : ReleaseInfo) (s : State) (e : Engine) : State :=
  let x := engOf s e
  let s := setEng s e fun x => { x with testedAt := recNow s, testDue := none, retired := if x.retired = 2 then 0 else x.retired }
  if r.failedEngines.any fun y => decide (y.1 = e) then
    if x.retired = 1 then s else retireEngine s e { kind := 1, block := e.val, mech := 0x12, cls := 4, outcome := 2 } none
  else if groupLost s e ≠ 0 then setEng s e fun x => { x with retired := 1 }
  else if x.retired ≠ 1 || x.permanent then s
  else match x.sparePending with
    | some u =>
      let s := setEng s e fun x => { x with
        retired := 0, sparePending := none, returnedAt := some (recNow s), spareApplied := x.spareApplied ||| BitVec.ofNat 16 (2 ^ (u / 32)) }
      logEvent s (.spareApplied e.val (u / 32) u)
    | none => if retiredLately s x then s else setEng s e fun x => { x with retired := 0, returnedAt := some (recNow s) }

/-- The end of step 16: self-tests, the choice among mappings (R477), the entry sets (R157, Table 18.9 order 7). -/
def releaseEngines (s : State) (r : ReleaseInfo) : State :=
  let s := (List.finRange 48).foldl (selfTest r) s
  let s := s.gen.parts.foldl (fun s q => reselect s (BitVec.ofNat 5 q.1)) s
  refillEntrySets s

/-- Order 15: a tokenizer set that is installed is verified again (R238). -/
def recheckSets (s : State) : State :=
  [0, 1, 2, 3].foldl (fun s k =>
    if (setOf s k).state = .installed then tokCheckDone (putSet s k { setOf s k with state := .checking }) k else s) s

/-- What the end of a step does. -/
def chainEffect (s : State) (r : ReleaseInfo) (n : Nat) : State :=
  match n with
  | 8 => { s with power := { s.power with configReady := true } }
  | 14 => refillCopies s
  | 15 => recheckSets s
  | 16 => releaseEngines s r
  | _ => s

/-- What the start of a step does: zero-fill (R62), parameter pages (R389), hot copies before the compute dies (R258). -/
def chainStart (s : State) (r : ReleaseInfo) (n : Nat) : State :=
  match n with
  | 10 => { s with store := { s.store with zeroFilling := (List.range 8).map (BitVec.ofNat 3) } }
  | 14 => readParameters s r
  | 16 => s.gen.parts.foldl (fun s q => if q.2.prog.isSome then rebuildHot s (BitVec.ofNat 5 q.1) else s) s
  | _ => s

/-- Dies of the step whose fused identity does not match (R427). -/
def badIdentities (r : ReleaseInfo) (n : Nat) : List (DieId × BitVec 8) := r.badDies.filter fun x => decide (x.1 ∈ chainDies n)

/-- RELEASE_CHAIN_STEP: the step in progress ends and the next group of dies is released. A die of the wrong identity is reported, and the
module does not start its data plane (R427). -/
def chainStep (s : State) (r : ReleaseInfo) : State :=
  let n := s.power.releaseStep
  if !chainEnds s n then s
  else
    match badIdentities r n with
    | [] =>
      let s := chainEffect s r n
      releaseDies (chainStart { s with power := { s.power with releaseStep := chainNext n } } r (chainNext n)) (chainNext n)
    | bad =>
      let s := bad.foldl (fun s x => logEvent s (.identityMismatch x.1 x.2.toNat (dieKind x.1))) s
      { s with host := { s.host with failed := true }, power := { s.power with releaseStep := 0 } }

def execReleaseChainStep (r : ReleaseInfo) (s : State) : Out := .next (chainStep s r)

/-! ## The input (R439) -/

def noteInput (s : State) (mv : Nat) : State := { s with power := { s.power with j1 := mv } }

/-- INPUT_LOW: one excursion into 46 to 50 V, with its lowest voltage and duration. -/
def execInputLow (mv ms : Nat) (s : State) : Out :=
  .next (if s.power.powerGood && decide (46000 ≤ mv ∧ mv < 50000) then logEvent (noteInput s mv) (.inputLow mv ms) else s)

/-- INPUT_HIGH: one excursion into 63 to 66 V, with its highest voltage and duration. -/
def execInputHigh (mv ms : Nat) (s : State) : Out :=
  .next (if s.power.powerGood && decide (63000 < mv ∧ mv ≤ 66000) then logEvent (noteInput s mv) (.inputHigh mv ms) else s)

/-- OVERVOLTAGE_STOP: the bus converter stops; the module treats it as a power loss, which follows from the hold-up bank. -/
def execOvervoltageStop (mv : Nat) (s : State) : Out :=
  .next (if s.power.powerGood && decide (66000 < mv) then
           let s := noteInput s mv
           { s with power := { s.power with converter := false } }
         else s)

/-! ## Power loss, trips, emergency off (R408, R443 to R449) -/

/-- Power is off: what lies outside flash and secure flash is gone; the levels of J2 and J5 stay the integrator's. -/
def powerOff (s : State) (tripped : Bool) : State :=
  let p := s.power
  let s := survivors s
  { s with power := { s.power with
      j1 := p.j1, perstN := p.perstN, emergN := p.emergN, flowOk := p.flowOk, tripped := tripped, lost := true } }

/-- The flush of Table 17.7 while an FTL that is rebuilt runs, then the staged records (R445). -/
def flushAll (s : State) (complete : Bool) (us : Nat) : State :=
  flushEvents (if s.flash.rebuilding then s else powerFlush s complete us)

/-- POWER_LOSS (R408, R445): J1 below 46 V, or the converter stopped; no flush is written before the protection is armed. -/
def powerLoss (s : State) (mv : Nat) (complete : Bool) (us : Nat) (tripped : Bool) : State :=
  let s := noteInput s mv
  powerOff (if s.power.armed then flushAll s complete us else flushEvents s) tripped

def execPowerLoss (mv : Nat) (complete : Bool) (us : Nat) (s : State) : Out :=
  .next (if s.power.powerGood && (decide (mv < 46000) || !s.power.converter) then powerLoss s mv complete us false else s)

/-- HOLDUP_ARMED (R443): the bank reaches 58 V. -/
def execHoldupArmed (capUf ms : Nat) (s : State) : Out :=
  .next (if s.power.powerGood then
           let s := { s with power := { s.power with armed := true } }
           if capUf < 8200 then logEvent s (.holdupDegraded capUf ms) else s
         else s)

/-- INPUT_RETURN (R445): after a flush J1 has stayed at or above 50 V for 100 ms: a power-on reset. -/
def execInputReturn (seed : BitVec 64) (s : State) : Out :=
  .next (if s.power.lost && !s.power.tripped then powerOn s (max 50000 s.power.j1) seed else s)

/-- Cause code, die and temperature of a trip (Table 19.14). -/
def TripCause.params : TripCause → Nat × Nat × Nat
  | .junction d t => (0, d.toNat, t)
  | .outlet t => (1, 0, t)
  | .flow => (2, 0, 0)
  | .rateFloor t => (3, 0, t)

/-- The reading is one that causes a trip (R446). -/
def TripCause.holds : TripCause → Bool
  | .junction _ t => decide (1150 ≤ t)
  | .outlet t => decide (700 < t)
  | .flow => true
  | .rateFloor _ => true

/-- A firmware trip (R446): the event, the flush from the input, and power off until the input has been removed (R449). The die and the
temperature that a cause does not name are free values. -/
def firmwareTrip (s : State) (c : TripCause) (complete : Bool) (us : Nat) : State :=
  let (v, s) := drawFree s
  let (w, s) := drawFree s
  let (k, d, t) := c.params
  let d := if k = 0 then d else v.toNat
  let t := if k = 2 then w.toNat else t
  let s := logEvent s (.thermalTrip k d t)
  powerOff (flushAll { s with power := { s.power with flowOk := s.power.flowOk && decide (k ≠ 2) } } complete us) true

def execFirmwareTrip (cause : TripCause) (complete : Bool) (us : Nat) (s : State) : Out :=
  .next (if s.power.powerGood && cause.holds then firmwareTrip s cause complete us else s)

/-- HARDWARE_TRIP (R447): no flush runs; staged records are lost. -/
def execHardwareTrip (d : DieId) (s : State) : Out :=
  .next (if s.power.powerGood then
           powerOff { s with
             bureau := { s.bureau with junction := mput 0 s.bureau.junction d.toNat 1250 }, flash := { s.flash with flushMark := none } } true
         else s)

/-- EMERGENCY_OFF (R448): the event first, then as a power loss. -/
def execEmergencyOff (mv : Nat) (complete : Bool) (us : Nat) (s : State) : Out :=
  .next (if s.power.powerGood then
           powerLoss (logEvent { s with power := { s.power with emergN := false, converter := false } } (.emergencyOff mv)) mv complete us true
         else s)

/-- POWER_RESTART (R449): J1 has been below 10 V for 1 s and rises again, EMERG_OFF_N at the level given. -/
def execPowerRestart (mv : Nat) (emergN : Bool) (seed : BitVec 64) (s : State) : Out :=
  .next (if s.power.powerGood || decide (mv < 48000) then s
         else
           let s := { s with power := { s.power with emergN := emergN } }
           if emergN then powerOn s mv seed else s)

/-! ## Failed links and hung blocks (R21, R32) -/

/-- The module reports itself failed: the partner is told first (R384), and HST_STATUS and FAULT_N show it. -/
def moduleFails (s : State) : State :=
  let s := sendRelinquish s
  { s with host := { s.host with failed := true } }

/-- Both engines of a compute die. -/
def dieEngines (d : DieId) : List Engine := (List.finRange 48).filter fun e => decide (e.val / 2 = d.toNat)

/-- LINK_FAILED (R21): the third reinitialisation within 1 s: the link, with both its channels. -/
def linkFailed (s : State) (l : LinkId) : State :=
  if (linkOf s l.pair).failed || decide ((lastSecond (recNow s) (linkOf s l.pair).reinitAt).length < 3) then s
  else
    let s := setLink s l.pair fun x => { x with failed := true }
    if isCompute l.die then (dieEngines l.die).foldl (fun s e =>
      if (engOf s e).retired = 1 then s else retireEngine s e { kind := 1, block := e.val, mech := 0x05, cls := 3, outcome := 2 } none) s
    else if (isMemory l.die || l.die = 0x3C) && decide (l.die ∉ s.fabric.halfLink) then
      logEvent (moveTraffic { s with fabric := { s.fabric with halfLink := s.fabric.halfLink ++ [l.die] } } l)
        (.unnamed 25 l.die [w32 l.die.toNat, w32 l.link.toNat])
    else if linkKey l.pair ∈ s.fabric.linkReset then moduleFails s
    else warmReset { s with fabric := { s.fabric with linkReset := s.fabric.linkReset ++ [linkKey l.pair] } } 4

def execLinkFailed (l : LinkId) (s : State) : Out := .next (linkFailed s l)

/-- The engine of a block. -/
def engineOfBlock (b : BlockId) : Option Engine := (List.finRange 48).find? fun e => decide (engineBlock e = b)

/-- QUIESCE_TIMEOUT (R32): the block is hung; a hung engine is retired (R355). -/
def quiesceTimeout (s : State) (b : BlockId) : State :=
  if !quiesceOverdue s b then s
  else
    let s := recordHung s b
    match engineOfBlock b with
    | some e => if (engOf s e).retired = 1 then s else retireEngine s e { kind := 1, block := e.val, cls := 3, outcome := 2 } none
    | none => s

def execQuiesceTimeout (b : BlockId) (s : State) : Out := .next (quiesceTimeout s b)

end Sys2Proof.Machine
end

