-- ==== Sys2Proof/Machine/Bureau.lean ====
section
/-! DEFINITION. The Bureau's own work (chapter 18): interrupt controller, watchdogs, world map, control loop, sensors, event recorder; the
status outputs of J5 (Table 19.11). -/

namespace Sys2Proof.Machine

/-! ## Interrupt controller (R411 to R414, Table 18.2) -/

def icOf (s : State) (n : Nat) : IcSource := mget {} s.bureau.sources n

def setIc (s : State) (n : Nat) (x : IcSource) : State := { s with bureau := { s.bureau with sources := mput {} s.bureau.sources n x } }

/-- FILTER in effect: values below 4 act as 4 (Table 18.2). -/
def IcSource.cycles (x : IcSource) : Nat := max 4 x.filter.toNat

/-- Targets enabled, in the order in which the next assignment looks at them: after the last one, upward and wrapping (R412). -/
def IcSource.order (x : IcSource) : List (BitVec 2) :=
  let first := match x.lastTarget with
    | some t => t.toNat + 1
    | none => 0
  ((List.range 4).map fun i => BitVec.ofNat 2 (first + i)).filter fun t => x.targets.getLsbD t.toNat

/-- A pending source is assigned to one target (R412); one with TARGETS 0 or PRIORITY 0 stays pending. -/
def IcSource.assign (x : IcSource) : IcSource :=
  if !x.pending || x.active || x.assigned.isSome || x.priority = 0 then x
  else match x.order.head? with
    | none => x
    | some t => { x with assigned := some t, lastTarget := some t }

/-- Bit n of the IC_EDGE registers. -/
def setLatch (s : State) (n : Nat) (on : Bool) : State :=
  let w := mget 0 s.bureau.edge (n / 32)
  let m : BitVec 32 := BitVec.ofNat 32 (2 ^ (n % 32))
  { s with bureau := { s.bureau with edge := mput 0 s.bureau.edge (n / 32) (if on then w ||| m else w &&& ~~~m) } }

/-- IC_SOURCE_FILTERED (R411, R412, R414): the line has held a new level for FILTER cycles. -/
def sourceFiltered (s : State) (n : Nat) (level : Bool) : State :=
  let x := icOf s n
  if x.line = level then s
  else if x.level then
    setIc s n (if level then IcSource.assign { x with line := true, pending := true } else { x with line := false, pending := false, assigned := none })
  else if !level then setIc s n { x with line := false }
  else if x.pending || x.edgeWaits then
    setIc s n { x with line := true, merged := if x.merged = 255 then 255 else x.merged + 1 }
  else if x.active then setLatch (setIc s n { x with line := true, edgeWaits := true }) n true
  else setLatch (setIc s n (IcSource.assign { x with line := true, pending := true })) n true

def execIcSourceFiltered (n : BitVec 8) (level : Bool) (s : State) : Out := .next (sourceFiltered s n.toNat level)

/-- The source that a claim of target t returns (R413): of highest priority above THRESHOLD, and of equal ones the higher number. -/
def claimable (s : State) (t : BitVec 2) : Option Nat :=
  let th := mget 0 s.bureau.threshold t.toNat
  let mine := s.bureau.sources.filter fun x => decide (x.2.assigned = some t) && decide (th < x.2.priority)
  (mine.foldl (fun (best : Option (Nat × IcSource)) x => match best with
    | none => some x
    | some b => if b.2.priority ≤ x.2.priority then some x else some b) none).map (·.1)

/-- The request line of a target (R412). -/
def requestLine (s : State) (t : BitVec 2) : Bool := (claimable s t).isSome

/-- IC_CLAIM_READ (R413). -/
def claimRead (s : State) (t : BitVec 2) : State :=
  match claimable s t with
  | none => { s with bureau := { s.bureau with claim := mins s.bureau.claim t.toNat (false, 0) } }
  | some n =>
    let x := icOf s n
    let s := setIc s n { x with active := true, activeOn := some t, assigned := none, pending := x.level && x.pending }
    let s := if x.level then s else setLatch s n false
    { s with bureau := { s.bureau with claim := mins s.bureau.claim t.toNat (true, BitVec.ofNat 8 n) } }

def execIcClaimRead (t : BitVec 2) (s : State) : Out := .next (claimRead s t)

/-- IC_COMPLETE (R414): a completion of a source not ACTIVE on the target is ignored and counted. -/
def icComplete (s : State) (t : BitVec 2) (n : Nat) : State :=
  let x := icOf s n
  if x.active && decide (x.activeOn = some t) then
    let x := { x with active := false, activeOn := none }
    setIc s n (IcSource.assign (if x.level then { x with pending := x.line } else { x with pending := x.edgeWaits, edgeWaits := false }))
  else
    let c := mget 0 s.bureau.badComp t.toNat
    { s with bureau := { s.bureau with badComp := mput 0 s.bureau.badComp t.toNat (if c = 255 then 255 else c + 1) } }

def execIcComplete (t : BitVec 2) (n : BitVec 8) (s : State) : Out := .next (icComplete s t n.toNat)

/-! ## Registers of the interrupt controller written by the Bureau's cores (R9, R415, Table 18.2) -/

/-- An edge latch cleared by software (R415): what waits of that edge goes. -/
def IcSource.clearEdge (x : IcSource) : IcSource :=
  if x.level then x
  else if x.active then { x with edgeWaits := false } else { x with pending := false, assigned := none }

/-- IC_SRC[n] written: MERGED, FILTER, TARGETS, LEVEL and PRIORITY take their values; a source made a level one is pending while its line is
high, and one made an edge one while its edge is latched (Table 18.2); it is assigned when it is enabled (R412). -/
def writeSource (s : State) (n v : Nat) : State :=
  let x := icOf s n
  let level := bit v 7
  let latched := (mget 0 s.bureau.edge (n / 32)).getLsbD (n % 32)
  let pending := if level = x.level then x.pending else if level then x.line else latched && !x.active
  setIc s n (IcSource.assign { x with
    merged := BitVec.ofNat 8 (bits v 31 24), filter := BitVec.ofNat 8 (bits v 23 16), targets := BitVec.ofNat 4 (bits v 11 8), level := level
    priority := BitVec.ofNat 4 v, pending := pending, assigned := if pending then x.assigned else none })

/-- IC_EDGE[k] written: the bits of v are cleared, but for those of the sources whose edge comes in the same cycle (hw): they stay set, and the
overrun counter rises (R415). -/
def writeEdge (s : State) (k v hw : Nat) : State :=
  let on := fun (m : Nat) => (List.range 32).filter fun i => bit m i
  let s := (on hw).foldl (fun s i => if (icOf s (32 * k + i)).level then s else sourceFiltered (setIc s (32 * k + i) { icOf s (32 * k + i) with line := false })
    (32 * k + i) true) s
  let s := ((on v).filter fun i => !bit hw i).foldl (fun s i => setLatch (setIc s (32 * k + i) (icOf s (32 * k + i)).clearEdge) (32 * k + i) false) s
  let c := mget 0 s.bureau.overrun k
  if (on v).any fun i => bit hw i then
    { s with bureau := { s.bureau with overrun := mput 0 s.bureau.overrun k (if c = 255 then 255 else c + 1) } }
  else s

/-- Where the model places the interrupt controller's registers for a command that writes a register: the manual gives them no address
(DESIGN CHOICE, log entry 139). -/
def icBase : Nat := 2 ^ 32

/-- A word written to the interrupt controller: IC_SRC at 4n, IC_THRESHOLD at 0x400 + 4t, IC_CLAIM at 0x410 + 4t, IC_EDGE at 0x420 + 4k, IC_OVR
at 0x440 + 4k; hw holds the edges that come in the same cycle. -/
def writeIc (s : State) (off v hw : Nat) : State :=
  if off % 4 ≠ 0 then s
  else if off < 0x400 then writeSource s (off / 4) v
  else if off < 0x410 then
    { s with bureau := { s.bureau with threshold := mput 0 s.bureau.threshold ((off - 0x400) / 4) (BitVec.ofNat 4 v) } }
  else if off < 0x420 then icComplete s (BitVec.ofNat 2 ((off - 0x410) / 4)) (v % 256)
  else if off < 0x440 then writeEdge s ((off - 0x420) / 4) v hw
  else if off < 0x460 then
    { s with bureau := { s.bureau with overrun := mput 0 s.bureau.overrun ((off - 0x440) / 4) (BitVec.ofNat 8 v) } }
  else s

/-! ## Cores and watchdogs (R409, R410) -/

/-- The core that does the work of core c (R409): a stopped core's work is core 3's, and core 2's when core 3 has stopped. -/
def workCore (s : State) (c : BitVec 2) : BitVec 2 :=
  if c ∉ s.bureau.stoppedCores then c else if (3 : BitVec 2) ∉ s.bureau.stoppedCores then 3 else 2

/-- Stage 2: a warm reset (R410). -/
def watchdogTwo (s : State) (c : BitVec 2) : State :=
  warmReset (logEvent s (.watchdog c.toNat 2 (mget 0 s.bureau.kickAt c.toNat).toNat)) 3

/-- WATCHDOG_STAGE1 (R410): 1 s without a kick; the core alone is reset. A second one within 60 s is stage 2. -/
def watchdogOne (s : State) (c : BitVec 2) : State :=
  let k := c.toNat
  let s := { s with bureau := { s.bureau with kickAt := mput 0 s.bureau.kickAt k (recNow s - 1000000) } }
  if (mfind s.bureau.stage1At k).any fun t => decide (since t (recNow s) ≤ 60000000) then watchdogTwo s c
  else
    let s := { s with bureau := { s.bureau with stage1At := mins s.bureau.stage1At k (recNow s), stoppedCores := withLast c s.bureau.stoppedCores } }
    logEvent s (.watchdog k 1 (mget 0 s.bureau.kickAt k).toNat)

def execWatchdogStage1 (core : BitVec 2) (s : State) : Out := .next (watchdogOne s core)

/-- WATCHDOG_STAGE2 (R410): the core has not kicked within 1 s of its release. -/
def watchdogLate (s : State) (c : BitVec 2) : State :=
  match mfind s.bureau.stage1At c.toNat with
  | some t => if c ∈ s.bureau.stoppedCores ∧ 1000000 ≤ since t (recNow s) then watchdogTwo s c else s
  | none => s

def execWatchdogStage2 (core : BitVec 2) (s : State) : Out := .next (watchdogLate s core)

/-! ## World map (R334, R335, R416) -/

/-- The block's world can change (Table 14.10, FIXED of Table 18.3): matrix engines and the text die. -/
def worldChanges (b : BlockId) : Bool := (isCompute b.die && decide (b.block.toNat < 2)) || (b.die = 0x3E && decide (b.block = 0))

/-- The block belongs to a loaded partition. -/
def inPartition (s : State) (b : BlockId) : Bool :=
  match engineOfBlock b with
  | some e => s.gen.parts.any fun q => q.2.prog.any fun g => decide (e ∈ mapEngines g)
  | none => s.gen.parts.any fun q => q.2.prog.isSome
where
  /-- Engines that the mappings of a program name. -/
  mapEngines (g : Program) : List Engine := (List.finRange 48).filter fun e => g.maps.any fun m => m.engines.getLsbD e.val

/-- The block is quiet under R32. -/
def isQuiet (s : State) (b : BlockId) : Bool :=
  match mfind s.fabric.quiesce (blockKey b) with
  | some q => q.stage = .quiet || q.stage = .done
  | none => false

/-- WORLD_MAP_WRITE (R335, R416): the block is zeroed and its world changes, once the hubs' copies are acknowledged, which lies within the
step; refused with an event when the block is not quiesced, in a loaded partition, or of a fixed world. -/
def worldMapWrite (s : State) (b : BlockId) (secure : Bool) : State :=
  if !worldChanges b || inPartition s b || !isQuiet s b then logEvent s (.unnamed 22 b.die [w32 b.die.toNat, w32 b.block.toNat, w32 (b2n secure)])
  else
    let s := match engineOfBlock b with
      | some e => setEng s e zeroEngine
      | none => { s with text := { s.text with streams := [], masks := [] } }
    setWorld s b secure

def execWorldMapWrite (b : BlockId) (secure : Bool) (s : State) : Out := .next (worldMapWrite s b secure)

/-! ## Control loop (R417 to R419) -/

/-- Compute domains (Table 19.2). -/
def computeDomain (d : Nat) : Bool := decide (16 ≤ d ∧ d < 28)

/-- RATE_TARGET of a domain (R417). -/
def rateTargetOf (s : State) (d : Nat) : Nat := mget 1500 s.limits.rateTarget d

/-- tgt of R417, with the thermal response of R419: the targets of a hot package's memory-channel domain and of the compute domains. -/
def loopTarget (s : State) (d : Nat) : Nat :=
  let t := domainTemp s d
  let tgt : Int := rateTargetOf s d
  let lim : Int := 10 * s.limits.tThrottle
  let tgt := if lim < t then tgt - 40 * ((t - lim) / 10) else tgt
  let tgt := if computeDomain d then tgt - s.bureau.capCut else tgt
  let hot := s.bureau.memHot.any fun die => computeDomain d || decide (dieDomain die = some d)
  if hot then 1110 else (max tgt 1110).toNat

/-- v(d) after one pass (R417), in mV. -/
def loopVolt (s : State) (d : Nat) : Nat :=
  let v := voltOf s d
  let r := rateOf s d
  let tgt := loopTarget s d
  let v := if r ≤ 1100 then v + 10 else if r < tgt - 15 then v + 5 else if tgt + 15 < r then v - 5 else v
  max 600 (min 850 v)

/-- Key of a condition whose duration counts: kinds 0 floor at 0.85 V, 1 junction, 2 cap, 3 memory package cool. -/
def condKey (kind n : Nat) : Nat := 64 * kind + n

/-- The condition has held since some record time, or holds no more. -/
def noteCond (k : Nat) (holds : Bool) (s : State) : State :=
  { s with bureau := { s.bureau with since :=
      if holds then (if (mfind s.bureau.since k).isSome then s.bureau.since else mins s.bureau.since k (recNow s)) else mdel s.bureau.since k } }

/-- The condition has held for a time in µs. -/
def condHeld (s : State) (k us : Nat) : Bool := (mfind s.bureau.since k).any fun t => decide (us ≤ since t (recNow s))

/-- Its duration counts anew once it has been reported. -/
def condAgain (s : State) (k : Nat) : State := { s with bureau := { s.bureau with since := mins s.bureau.since k (recNow s) } }

/-- Readings taken. -/
def takeReadings (s : State) (l : LoopSample) : State :=
  { s with
    power := { s.power with j1 := l.j1Mv }
    bureau := { s.bureau with
      j1Current := l.j1Ma
      junction := l.junction.foldl (fun m x => mput 0 m x.1.toNat x.2) s.bureau.junction
      current := l.current.foldl (fun m x => mput 0 m x.1 x.2) s.bureau.current } }

/-- cap_cut of R418. -/
def stepCapCut (s : State) (power : Nat) : State :=
  let c := s.bureau.capCut
  let c := if s.limits.powerCap < power then c + 10 else if power + 50 < s.limits.powerCap then c - 5 else c
  { s with bureau := { s.bureau with capCut := c } }

/-- Memory-channel dies with a package above its limit, until all have been below it for 1 s (R419). -/
def stepMemHot (s : State) : State :=
  (List.range 16).foldl (fun s i =>
    let d : DieId := BitVec.ofNat 6 (0x20 + i)
    let hot := s.tier.pkgHot.any fun p => decide (p / 2 = i)
    let s := noteCond (condKey 3 i) (!hot && decide (d ∈ s.bureau.memHot)) s
    if hot then { s with bureau := { s.bureau with memHot := withLast d s.bureau.memHot } }
    else if condHeld s (condKey 3 i) 1000000 then noteCond (condKey 3 i) false { s with bureau := { s.bureau with memHot := without d s.bureau.memHot } }
    else s) s

/-- One pass for domain d. -/
def loopDomain (s : State) (d : Nat) : State :=
  if regulated d && decide (d ∈ s.power.domains) then
    let s := { s with bureau := { s.bureau with volt := mput 600 s.bureau.volt d (loopVolt s d) } }
    noteCond (condKey 0 d) (decide (voltOf s d = 850) && decide (rateOf s d ≤ 1100)) s
  else s

/-- Every compute domain with power is at its floor target (R418). -/
def atFloor (s : State) : Bool := (List.range 30).all fun d => !computeDomain d || decide (d ∉ s.power.domains) || decide (loopTarget s d = 1110)

/-- CONTROL_LOOP_TICK (R417 to R419): the pass of 1 ms. A core that has not come to stage 2 within 1 s of its stage 1 has returned (R409). -/
def controlLoop (s : State) (l : LoopSample) : State :=
  let s := stepMemHot (stepCapCut (takeReadings s l) l.power)
  let s := (List.range 30).foldl loopDomain s
  let s := allDies.foldl (fun s d => noteCond (condKey 1 d.toNat) (decide (1050 ≤ mget 0 s.bureau.junction d.toNat)) s) s
  let s := noteCond (condKey 2 0) (decide (s.limits.powerCap < l.power) && atFloor s) s
  { s with bureau := { s.bureau with
      stoppedCores := s.bureau.stoppedCores.filter fun c => (mfind s.bureau.stage1At c.toNat).any fun t => decide (since t (recNow s) ≤ 1000000) } }

def execControlLoopTick (l : LoopSample) (s : State) : Out := .next (controlLoop s l)

/-- RATE_FLOOR_UNHELD (R417): 10 ms at 0.85 V at or below the floor; the event, then the trip of R446. The flush's duration is a free value. -/
def rateFloorUnheld (s : State) (d : Nat) : State :=
  if condHeld s (condKey 0 d) 10000 && decide (voltOf s d = 850) && decide (rateOf s d ≤ 1100) then
    let t := (domainTemp s d).toNat
    let s := logEvent s (.rateFloorUnheld d (rateOf s d) (voltOf s d) t)
    let (us, s) := drawFree s
    firmwareTrip s (.rateFloor t) true us.toNat
  else s

def execRateFloorUnheld (d : Nat) (s : State) : Out := .next (rateFloorUnheld s d)

/-- POWER_CAP_UNMET (R418): exceeded for 1 s with every compute domain at 1,110. -/
def powerCapUnmet (s : State) (power : Nat) : State :=
  if condHeld s (condKey 2 0) 1000000 && decide (s.limits.powerCap < power) then
    logEvent (condAgain s (condKey 2 0)) (.powerCapUnmet power s.limits.powerCap s.bureau.capCut)
  else s

def execPowerCapUnmet (power : Nat) (s : State) : Out := .next (powerCapUnmet s power)

/-- THERMAL_LIMIT (R419): a junction at or above 105 °C for 100 ms. -/
def thermalLimit (s : State) (d : DieId) (temp : Nat) : State :=
  if condHeld s (condKey 1 d.toNat) 100000 && decide (1050 ≤ temp) then
    let dom := (dieDomain d).getD 0
    logEvent (condAgain s (condKey 1 d.toNat)) (.thermalLimit d temp dom (rateOf s dom))
  else s

def execThermalLimit (d : DieId) (temp : Nat) (s : State) : Out := .next (thermalLimit s d temp)

/-- BOARD_SENSOR_SAMPLE (Table 18.4, R419). -/
def boardSample (s : State) (x : BoardSample) : State :=
  let s := { s with bureau := { s.bureau with
    boardTemp := (x.board.zipIdx).foldl (fun m y => mput 0 m y.2 (y.1 : Int)) s.bureau.boardTemp
    coolantIn := x.coolantIn, coolantOut := x.coolantOut
    nandTemp := x.nand.foldl (fun m y => mput 0 m y.1 (y.2 : Int)) s.bureau.nandTemp } }
  if 450 < x.coolantIn then logEvent s (.coolantHigh x.coolantIn x.coolantOut) else s

def execBoardSensorSample (x : BoardSample) (s : State) : Out := .next (boardSample s x)

/-! ## Event recorder (R422 to R424) -/

/-- EVENT_TOKEN_REFILL (R422): one token more, at most 8; after suppression it goes to the summary record. -/
def tokenRefill (s : State) (code : BitVec 16) : State :=
  let k := code.toNat
  let b := mget {} s.bureau.buckets k
  if b.suppressed = 0 then { s with bureau := { s.bureau with buckets := mput {} s.bureau.buckets k { b with tokens := min 8 (b.tokens + 1) } } }
  else
    let e : Ev := { code := code, sev := b.severity, src := b.source, p := [w32 b.suppressed, w32 b.first.toNat, w32 b.last.toNat] }
    let b := { b with tokens := min 8 (b.tokens + 1) - 1, suppressed := 0, first := 0, last := 0, source := 0, severity := 0 }
    storeRecord { s with bureau := { s.bureau with buckets := mput {} s.bureau.buckets k b } } e true

def execEventTokenRefill (code : BitVec 16) (s : State) : Out := .next (tokenRefill s code)

/-- EVENT_STAGE_FLUSH (R424). -/
def execEventStageFlush (s : State) : Out := .next (flushEvents s)

/-! ## Status outputs of J5 (Table 19.11) -/

/-- The level of an output: high until the Bureau has configured the pins (R459). -/
def pinLevel (s : State) (level : Bool) : Bool := !s.power.pins || level
/-- FAULT_N: low while a fatal event is unresolved, the module has failed (R466) or is in recovery. -/
def faultN (s : State) : Bool := pinLevel s (!(s.bureau.fatalSeen || s.bureau.recovery || s.host.failed))
/-- THERM_ALERT_N: low while a junction is at or above T_THROTTLE. -/
def thermAlertN (s : State) : Bool := pinLevel s (!(s.bureau.junction.any fun j => decide ((10 * s.limits.tThrottle : Int) ≤ j.2)))
/-- PWR_GOOD. -/
def pwrGood (s : State) : Bool := s.power.powerGood
/-- LED_ACT: low while any partition is RUNNING. -/
def ledAct (s : State) : Bool := pinLevel s (!(s.gen.parts.any fun q => q.2.state = .running))
/-- LED_ATTN: low while a firmware update is pending or the link is DOWN. -/
def ledAttn (s : State) : Bool := pinLevel s (!(s.bureau.pendingBank || s.pair.link = .down))
/-- CLKREQ_N of J2: the board drives it low from POWER_GOOD to power-down (R459). -/
def clkreqN (s : State) : Bool := !s.power.powerGood

end Sys2Proof.Machine
end

