-- ==== Sys2Proof/Machine/Mailbox.lean ====
section
/-! DEFINITION. Commands of the Bureau mailbox and of the management vendor message (R426, R473, Table 18.6), with MCTP control and PLDM
platform monitoring (R425). -/

namespace Sys2Proof.Machine

/-! ## Replies (R425, R426, R473) -/

/-- Output bytes placed in BUR_MB_DATA, as many as it holds. -/
def putData (s : State) (data : Bytes) : State :=
  { s with bureau := { s.bureau with mbData := ((data.take 4096).zipIdx).foldl (fun m x => mput 0 m x.2 x.1) s.bureau.mbData } }

/-- Orders 4 and 5 of Table 20.14: output, OUT_LEN, STATUS, EXEC cleared, the vector signalled; MCTP never changes these registers. -/
def reply (s : State) (mctp : Bool) (st : BitVec 8) (data : Bytes) (ticket : Option Word) : State :=
  if mctp then emit s (.mctp (st :: data))
  else
    let s := putData s data
    let b := s.bureau
    let s := { s with bureau := { b with
      mbExec := false, mbStatus := st, mbOutLen := BitVec.ofNat 13 (min 4096 data.length), mbBackground := ticket.isSome, mbTicket := ticket.getD b.mbTicket } }
    let s := emit s (.mailboxReply st data)
    if b.mbIrqEn then signalVector s 0 b.mbVector else s

/-- A command with its status and output; in recovery only the recovery mailbox answers (R437). -/
def command (s : State) (mctp : Bool) (f : State → State × Status × Bytes) : State :=
  if s.bureau.recovery then reply s mctp (BitVec.ofNat 8 Status.badDescriptor.code) [] none
  else
    let (s, st, data) := f s
    reply s mctp (BitVec.ofNat 8 st.code) data none

/-- A command that goes on in the background (R426): the manual names the status BUSY and gives it no code, a free value. -/
def replyBusy (s : State) (mctp : Bool) (b : Background) : State :=
  let (v, s) := drawFree s
  let n := s.bureau.ticketNext
  let t := w32 n
  let s := { s with bureau := { s.bureau with ticketNext := n + 1, background := s.bureau.background ++ [{ b with ticket := t, fromMailbox := !mctp }] } }
  reply s mctp (v.setWidth 8) (if mctp then toLE 4 n else []) (some t)

/-! ## Extents (R65, R67, R71, R390) -/

/-- The entry is of a class and of tiers that Table 4.3 permits, its locations within Table 4.2, SHARED only on RO data. -/
def mappingAllowed (e : ExtentEntry) : Bool :=
  locOk e.homeTier e.homeLoc && locOk e.copyTier e.copyLoc && (!e.shared || e.cls = 0)
    && match e.cls.toNat with
      | 0 => (e.homeTier = 3 && (e.copyTier = 0 || e.copyTier = 1 || e.copyTier = 2)) || (e.homeTier = 2 && (e.copyTier = 0 || e.copyTier = 1))
      | 1 => e.homeTier = 3 && e.copyTier = 2
      | 2 => e.homeTier = 0 && (e.copyTier = 1 || e.copyTier = 2)
      | _ => false

/-- Some extent uses a location. -/
def locUsed (s : State) (tier : BitVec 2) (loc : BitVec 25) : Bool :=
  s.tier.leaves.any fun l => l.2.valid && ((decide (l.2.homeTier = tier) && decide (l.2.homeLoc = loc))
    || (decide (l.2.copyTier = tier) && decide (l.2.copyLoc = loc)) || (decide (l.2.newTier = tier) && decide (l.2.newLoc = loc)))

/-- A location can take an extent: nothing uses it, and no reservation or share covers it. -/
def locFree (s : State) (tier : BitVec 2) (loc : BitVec 25) : Bool :=
  match tier.toNat with
  | 0 => true
  | 1 => freeSLoc s loc.toNat
  | 2 => decide (loc.toNat ∈ freeL s)
  | _ => !locUsed s 3 loc

/-- The agent-written and migration fields of a new entry are zero. -/
def freshEntry (e : ExtentEntry) : ExtentEntry :=
  { e with tilemap := 0, inflight := 0, moveBusy := false, movePtr := 0, mstate := 0, newTier := 0, newLoc := 0, lost := false, valid := true }

/-- The stream plan of a loaded partition or an index names the extent (R65), or it is one of a loaded partition's L share (DESIGN CHOICE, log
entry 151). -/
def extentNamed (s : State) (x : Nat) : Bool :=
  decide (x ∈ plannedExtents s) || inLShare s x || s.gen.indexes.any fun i => indexHolds s i.2 x || IndexRec.mirrors i.2 x

/-- A created index or table names the extent (R155, R256). -/
def objectNames (s : State) (x : Nat) : Bool :=
  (s.gen.indexes.any fun i => indexHolds s i.2 x || IndexRec.mirrors i.2 x || overlaps x i.2.passageBase (2 ^ 21)) || s.gen.tables.any fun r =>
    TableRec.mirrors r.2 x || overlaps x r.2.countBase r.2.rows

/-- EXTENT_MAP: the locations are the Bureau's choice, which the command carries. An extent that an index or table names is not mapped with SHARED
set (R155). -/
def mapExtent (s : State) (x : Nat) (e : ExtentEntry) : State × Status :=
  if 134217728 ≤ x || !mappingAllowed e then (s, .badDescriptor)
  else if (entryOf s x).isSome || isWindow s x || (e.shared && objectNames s x) || !locFree s e.homeTier e.homeLoc || !locFree s e.copyTier e.copyLoc then (s, .noResources)
  else match leafFor s x with
    | none => (s, .noResources)
    | some l => (storeEntry s x l (freshEntry e), .ok)

def execExtentMap (x : Nat) (e : ExtentEntry) (s : State) : Out := .next (command s false fun s => let (s, st) := mapExtent s x e; (s, st, []))

/-- One dirty tile is written back and its program ended, before its COPY goes (R71). -/
def writeBackNow (s : State) (x : Nat) (t : Nat) : State :=
  let n := s.flash.programs.length
  let s := writeBack s x (BitVec.ofNat 7 t) []
  match s.flash.programs.drop n with
  | [] => s
  | l => l.foldl programDone { s with flash := { s.flash with programs := s.flash.programs.take n } }

/-- Every dirty tile of an extent is written back. -/
def writeBackAll (s : State) (x : Nat) : State := (List.range 128).foldl (fun s t => writeBackNow s x t) s

/-- The extent has no dirty tile. -/
def isClean (s : State) (x : Nat) : Bool := (entryOf s x).all fun e => e.cls ≠ 1 || decide (e.tilemap = 0)

/-- The entry is taken out, its units trimmed (R395), its locations freed. -/
def dropExtent (s : State) (x : Nat) : State :=
  match entryOf s x, entryKey s x with
  | some e, some k =>
    let s := freeLoc s e.copyTier e.copyLoc
    let s := if e.homeTier = 3 then (List.range 128).foldl (fun s t => trimUnit s (128 * e.homeLoc.toNat + t)) s else freeLoc s e.homeTier e.homeLoc
    { s with tier := { s.tier with leaves := mdel s.tier.leaves k, cache := s.tier.cache.filter fun c => decide (c.2.1 ≠ x) } }
  | _, _ => s

/-- EXTENT_UNMAP (R65, R71): refused while a plan or index names the extent, while it migrates or is written, and while a dirty tile cannot
be written back. -/
def unmapExtent (s : State) (x : Nat) : State × Status :=
  match entryOf s x with
  | none => (s, .badDescriptor)
  | some e =>
    if extentNamed s x || isWindow s x || e.mstate ≠ 0 || e.newTier ≠ 0 || e.inflight ≠ 0 || (mfind s.tier.drains x).isSome then (s, .noResources)
    else
      let s := writeBackAll s x
      if isClean s x then (dropExtent s x, .ok) else (s, .noResources)

def execExtentUnmap (x : Nat) (s : State) : Out := .next (command s false fun s => let (s, st) := unmapExtent s x; (s, st, []))

/-- The attributes that EXTENT_SET changes: class, tenant, world, SHARED, PIN, OWNER, and whether an RO extent keeps its COPY. -/
def setAttributes (old e : ExtentEntry) : ExtentEntry :=
  let drop := e.cls = 0 && e.copyTier = 0
  { old with
    cls := e.cls, tenant := e.tenant, world := e.world, shared := e.shared, pin := e.pin, owner := e.owner
    copyTier := if drop then 0 else old.copyTier, copyLoc := if drop then 0 else old.copyLoc }

/-- EXTENT_SET takes something from an extent that must keep it: its class while a plan or index names it (R65), the PIN of a planned extent while its
partition is loaded (R87), the unshared state of an extent that a created index or table names (R155, R256), a pinned COPY (Table 4.1). -/
def setBarred (s : State) (x : Nat) (old new : ExtentEntry) : Bool :=
  (new.cls ≠ old.cls && extentNamed s x) || (old.pin && !new.pin && decide (x ∈ plannedExtents s)) || (new.shared && !old.shared && objectNames s x)
    || (new.copyTier ≠ old.copyTier && (old.pin || decide (x ∈ plannedExtents s)))

/-- EXTENT_SET (R65, R67, R69, R71). -/
def setExtent (s : State) (x : Nat) (e : ExtentEntry) : State × Status :=
  match entryOf s x with
  | none => (s, .badDescriptor)
  | some old =>
    let new := setAttributes old e
    if !mappingAllowed new then (s, .badDescriptor)
    else if isWindow s x || old.mstate ≠ 0 || old.newTier ≠ 0 || old.inflight ≠ 0 || (mfind s.tier.drains x).isSome || setBarred s x old new then
      (s, .noResources)
    else
      let s := if new.cls ≠ old.cls then writeBackAll s x else s
      if !isClean s x && new.cls ≠ 1 then (s, .noResources)
      else
        let s := dropCached (setEntry s x fun y => setAttributes y e) x
        (if new.copyTier ≠ old.copyTier then freeLoc s old.copyTier old.copyLoc else s, .ok)

def execExtentSet (x : Nat) (e : ExtentEntry) (s : State) : Out := .next (command s false fun s => let (s, st) := setExtent s x e; (s, st, []))

/-! ## Objects (R155, R256, R315, R373) -/

/-- What the tenant's role makes of a change of its objects (Table 16.6): none when it may go on. -/
def objectRole (s : State) (tn : Tenant) : Option Status :=
  match mutRole s tn none with
  | .noResources | .replayWait => some .noResources
  | .redirect | .forward => some .redirectPartner
  | .alone | .mirrored | .solo => none

/-- A change of an object with its mirror message (R373). -/
def changeObject (s : State) (tn : Tenant) (f : State → State × Status) (c : State → ConfigBody) : State × Status × Bytes :=
  match objectRole s tn with
  | some st => (s, st, [])
  | none =>
    let (s, st) := f s
    if st = .ok then (mirrorConfigOut s tn (c s), st, []) else (s, st, [])

/-- INDEX_CREATE supplies the record's bytes (R155, R156). -/
def execIndexCreate (n : Nat) (r : Bytes) (s : State) : Out :=
  let x := indexOfBytes r
  .next (command s false fun s => changeObject s x.tenant (fun s => if indexBytesOk n r then createIndex s n x else (s, .badDescriptor))
    fun s => .index n (indexOf s n))

/-- Tenant of an index; one that does not exist gives tenant 0, and the command ends BAD_DESCRIPTOR. -/
def indexTenant (s : State) (n : Nat) : Tenant := ((indexOf s n).map (·.tenant)).getD 0

def execIndexDestroy (n : Nat) (s : State) : Out :=
  .next (command s false fun s => changeObject s (indexTenant s n) (fun s => destroyIndex s n) fun _ => .index n none)

/-- TABLE_CREATE supplies the record's bytes (R256). -/
def execTableCreate (n : Nat) (r : Bytes) (s : State) : Out :=
  let x := tableOfBytes r
  .next (command s false fun s => changeObject s x.tenant (fun s => if tableBytesOk n r then createTable s n x else (s, .badDescriptor))
    fun s => .table n (tableOf s n))

def tableTenant (s : State) (n : Nat) : Tenant := ((tableOf s n).map (·.tenant)).getD 0

def execTableDestroy (n : Nat) (s : State) : Out :=
  .next (command s false fun s => changeObject s (tableTenant s n) (fun s => destroyTable s n) fun _ => .table n none)

/-- A step of a removal, given up after the first failure. -/
def thenRemove {α : Type} (f : State → α → State × Status) (acc : State × Status) (a : α) : State × Status :=
  if acc.2 = .ok then f acc.1 a else acc

/-- Adapter versions of a tenant go, unless a slot uses one. -/
def removeAdapters (s : State) (n : Tenant) : State × Status :=
  if s.gen.adapters.any fun a => decide (a.2.tenant = n) && decide (a.2.refs ≠ 0) then (s, .noResources)
  else ({ s with gen := { s.gen with adapters := s.gen.adapters.filter fun a => decide (a.2.tenant ≠ n) } }, .ok)

/-- Grammars of a tenant go, unless a slot is bound to one. -/
def removeGrammars (s : State) (n : Tenant) : State × Status :=
  if s.text.grammars.any fun g => decide (g.2.tenant = n) && grammarBound s g.1 then (s, .noResources)
  else ({ s with text := { s.text with grammars := s.text.grammars.filter fun g => decide (g.2.tenant ≠ n) } }, .ok)

/-- TENANT_REMOVE (R315): indexes, tables, adapters, grammars and extents of a tenant; nothing goes unless all can. -/
def removeTenant (s : State) (n : Tenant) : State × Status :=
  let is := (s.gen.indexes.filter fun i => decide (i.2.tenant = n)).map (·.1)
  let ts := (s.gen.tables.filter fun t => decide (t.2.tenant = n)).map (·.1)
  let acc := is.foldl (thenRemove fun s i => let (s, st) := destroyIndex s i; (if st = .ok then mirrorConfigOut s n (.index i none) else s, st)) (s, .ok)
  let acc := ts.foldl (thenRemove fun s t => let (s, st) := destroyTable s t; (if st = .ok then mirrorConfigOut s n (.table t none) else s, st)) acc
  let acc := thenRemove (fun s _ => removeAdapters s n) acc ()
  let acc := thenRemove (fun s _ => removeGrammars s n) acc ()
  let xs := (acc.1.tier.leaves.filter fun l => l.2.valid && decide (l.2.tenant = n)).filterMap fun l => extentOfKey s l.1
  let acc := (xs.filter fun x => !isWindow s x).foldl (thenRemove unmapExtent) acc
  if acc.2 = .ok then acc else (s, acc.2)

def execTenantRemove (n : Tenant) (s : State) : Out :=
  .next (command s false fun s => match objectRole s n with
    | some st => (s, st, [])
    | none => let (s, st) := removeTenant s n; (s, st, []))

/-! ## Quiesce and block reset (R32, R457, R458) -/

/-- QUIESCE (R32): the request goes out, and the command continues in the background until the block answers. -/
def mailboxQuiesce (s : State) (b : BlockId) : State :=
  if s.bureau.recovery then reply s false (BitVec.ofNat 8 Status.badDescriptor.code) [] none
  else if isQuiet s b then reply s false (BitVec.ofNat 8 Status.ok.code) [] none
  else
    let s := if (mfind s.fabric.quiesce (blockKey b)).isSome then s else
      quiesceReq (sendCtrl s { src := 0x3F, dest := b.die, block := b.block, scope := 0xFF, type := 0x06 }) b
    replyBusy s false { ticket := 0, fromMailbox := true, die := b.die, block := b.block, code := 0x05, sub := 0 }

def execQuiesce (b : BlockId) (s : State) : Out := .next (mailboxQuiesce s b)

/-- Shelf engine of a flash-channel die's block. -/
def shelfOf (b : BlockId) : Nat := 8 * (b.die.toNat - 0x30) + b.block.toNat

/-- Every scan of a shelf engine ends as by a cut (R175, R457). -/
def endScans (s : State) (shelf : Nat) : State :=
  (s.host.requests.filter fun x => x.2.phase = .scan && shelfOpen x.2 shelf).foldl (fun s x =>
    (shelfWrites s x.1 shelf).elim s fun s =>
      modReq { s with shelfCuts := mcount s.shelfCuts shelf 1 } x.1 fun q => { q with
        flags := if shelfBusy q shelf then q.flags ||| flagPartialProbe else q.flags, ret := { q.ret with cutDone := shelf :: q.ret.cutDone } }) s

/-- The block's reset is refused (R457). -/
def resetRefused (s : State) (b : BlockId) : Bool :=
  match engineOfBlock b with
  | some e => s.gen.parts.any fun q => q.2.prog.isSome && usesEngine q.2 e
  | none => b.die = 0x3E && (decide (openStreams s ≠ 0) || s.gen.parts.any fun q => q.2.slots.any fun x => decide (x.2.state ≠ .free))

/-- The block is one that a block reset reaches (Table 19.4). -/
def resettable (b : BlockId) : Bool :=
  (isCompute b.die && decide (b.block.toNat < 2)) || isMemory b.die || (isFlash b.die && decide (b.block.toNat < 8)) || (b.die = 0x3E && decide (b.block = 0))

/-- The reset itself (R457): the block resumes non-secure, where its world is not fixed. -/
def resetBlock (s : State) (b : BlockId) : State :=
  let s := match engineOfBlock b with
    | some e => setEng s e fun x => { x.afterReset s.engines.holdGap s.engines.holdSlope with ctx0 := none, ctx1 := none }
    | none =>
      if isMemory b.die then { s with tier := { s.tier with cache := [] } }
      else if isFlash b.die then
        let s := endScans s (shelfOf b)
        { s with gen := { s.gen with codebooks := mdel s.gen.codebooks (shelfOf b) } }
      else { s with text := { s.text with streams := [], masks := [] } }
  let s := endQuiesce (resetFences (abandonWrites s b) b.die) b
  if worldChanges b then setWorld s b false else s

/-- BLOCK_RESET (R457): performed whether or not the block reported quiet, and the command says which. -/
def blockReset (s : State) (b : BlockId) : State × Status × Bytes :=
  if !resettable b then (s, .badDescriptor, [])
  else if resetRefused s b then (s, .noResources, [])
  else
    let quiet := isQuiet s b
    (logEvent (orHold s (.block b.die b.block) fun s => resetBlock s b) (.blockResetDone b.die b.block.toNat quiet), .ok, toLE 1 (b2n quiet))

def execBlockReset (b : BlockId) (s : State) : Out := .next (command s false fun s => blockReset s b)

/-! ## Clocks (R34, R35) -/

/-- READ_COUNTERS (R35). Table 18.6 gives it to PF0's mailbox alone; asked for over MCTP it is answered with a status that the manual does not
name (DESIGN CHOICE, log entry 159). -/
def execReadCounters (mctp : Bool) (s : State) : Out :=
  .next (command s mctp fun s => if mctp then (s, .badDescriptor, []) else (s, .ok, toLE 8 (now s).toNat ++ toLE 8 (recNow s).toNat))

def execSetUtc (mctp : Bool) (off : BitVec 64) (s : State) : Out :=
  .next (command s mctp fun s => ({ s with bureau := { s.bureau with utc := some off } }, .ok, []))

/-! ## Records (R123, R210) -/

/-- Fields of given widths packed from bit 0 on. -/
def packFields (l : List (Nat × Nat)) : Nat := (l.foldl (fun (acc : Nat × Nat) x => (acc.1 + x.2 % 2 ^ x.1 * 2 ^ acc.2, acc.2 + x.1)) (0, 0)).1

def SlotState.code : SlotState → Nat
  | .free => 0 | .prefill => 1 | .decode => 2 | .ending => 3

/-- The slot record's fields with their widths, in the order of Table 9.1, packed without gaps: the manual gives no byte layout. -/
def slotFields (x : SlotRec) : List (Nat × Nat) :=
  [(2, x.state.code), (9, x.tenant.toNat), (32, x.request), (4, x.seq.toNat), (17, x.promptLen), (17, x.len), (17, x.dlen), (17, x.done),
   (32, x.stepNo.toNat), (4, x.specDepth), (13, match x.adapter with | some a => 4096 + a.toNat | none => 0),
   (9, match x.grammar with | some g => 256 + g.toNat | none => 0), (20, x.gstate.toNat), (48, x.hardDeadline), (17, x.maxTokens),
   (1, b2n x.cancel), (32, x.pages.toNat)]

def readSlot (s : State) (p : PartId) (n : Nat) : State × Status × Bytes :=
  if n < ((partOf s p).prog.map (·.slots)).getD 0 then (s, .ok, toLE 37 (packFields (slotFields (slotRec s p n)))) else (s, .badDescriptor, [])

def execReadSlot (p : PartId) (slot : Nat) (s : State) : Out := .next (command s false fun s => readSlot s p slot)

/-- The capability record of Table 5.4. -/
def capRecord (s : State) (e : Engine) : Nat :=
  packFields [(32, 1), (10, 0), (6, e.val / 2), (8, e.val), (8, 0xB0), (8, (engOf s e).retired.toNat), (12, 512), (10, 528), (10, 512), (16, 0x3FFC),
    (8, 4), (8, 4), (8, 14), (16, (spareUsed s e).toNat), (16, (groupLost s e).toNat)]

def execReadCapability (e : Engine) (s : State) : Out := .next (command s false fun s => (s, .ok, toLE 32 (capRecord s e)))

/-! ## Pair operation (R381, R382, R384) -/

def execPairTakeover (swaps : List Tenant) (unmapped : List (BitVec 64)) (s : State) : Out :=
  .next (command s false fun s => if s.pair.enable then (pairTakeover s swaps unmapped, .ok, []) else (s, .noResources, []))

/-- PAIR_HANDOVER (R382): it needs the link UP; while a hand-over waits for acknowledgements the command continues in the background. -/
def mailboxHandover (s : State) (mask swaps : List Tenant) : State :=
  if s.bureau.recovery || s.pair.link ≠ .up then
    reply s false (BitVec.ofNat 8 (if s.bureau.recovery then Status.badDescriptor else Status.noResources).code) [] none
  else
    let s := mask.foldl (startHandover swaps) s
    if mask.any fun n => (leaseOf s n).handingOver then replyBusy s false { ticket := 0, fromMailbox := true, code := 0x09, sub := 1 }
    else reply s false (BitVec.ofNat 8 Status.ok.code) [] none

def execPairHandover (mask swaps : List Tenant) (s : State) : Out := .next (mailboxHandover s mask swaps)

def execSoloClear (n : Tenant) (s : State) : Out :=
  .next (command s false fun s => if (leaseOf s n).soloPending then (soloClear s n, .ok, []) else (s, .noResources, []))

/-! ## Limits (R401, R417, R418, R420) -/

/-- The value lies within its stated range. -/
def Limits.ok : Limits → Bool
  | .rateTarget d v => regulated d && decide (d < 30) && decide (1110 ≤ v ∧ v ≤ 1750)
  | .tThrottle v => decide (70 ≤ v ∧ v ≤ 100)
  | .powerCap v => decide (600 ≤ v ∧ v ≤ 1800)
  | .wlSpread v => decide (50 ≤ v ∧ v ≤ 1000)

/-- A limit set. -/
def setLimit (x : LimitState) : Limits → LimitState
  | .rateTarget d v => { x with rateTarget := mput 1500 x.rateTarget d v }
  | .tThrottle v => { x with tThrottle := v }
  | .powerCap v => { x with powerCap := v }
  | .wlSpread v => { x with wlSpread := v }

def execSetLimits (mctp : Bool) (l : Limits) (s : State) : Out :=
  .next (command s mctp fun s => if l.ok then ({ s with limits := setLimit s.limits l }, .ok, []) else (s, .badDescriptor, []))

/-! ## Records of events and faults (R365, R423, R424) -/

/-- A record's 32 bytes (Table 18.5), as a reader that is no secure firmware gets it: parameters of a secure record are zero (R424). -/
def EventRec.bytes (r : EventRec) : Bytes :=
  toLE 2 r.code.toNat ++ toLE 1 r.source.toNat ++ toLE 1 (b2n r.world + 2 * r.severity.toNat + 8 * b2n r.summary) ++ toLE 6 r.time.toNat
    ++ toLE 2 r.seq.toNat ++ pad 20 (if r.world then [] else r.params.flatMap fun w => toLE 4 w.toNat)

/-- Records of an area from the oldest on, as many as the mailbox holds. -/
def eventsFrom (s : State) (first : Bool) (start count : Nat) : List EventRec :=
  (((if first then s.bureau.firstArea else s.bureau.lastArea).reverse.drop start).take count).take 128

def execEventRead (mctp : Bool) (first : Bool) (start count : Nat) (s : State) : Out :=
  .next (command s mctp fun s => (s, .ok, (eventsFrom s first start count).flatMap EventRec.bytes))

/-- EVENT_CLEAR (R423): the first area is emptied, and EVENT_AREA_CLEARED is its first record. -/
def clearEvents (s : State) : State :=
  let s := flushEvents s
  let n := s.bureau.firstArea.length
  flushEvents (storeRecord { s with bureau := { s.bureau with firstArea := [] } } (.eventAreaCleared n) false)

def execEventClear (mctp : Bool) (s : State) : Out := .next (command s mctp fun s => (clearEvents s, .ok, []))

def execFaultRead (mctp : Bool) (start count : Nat) (s : State) : Out :=
  .next (command s mctp fun s => (s, .ok, (((s.gen.faultRecords.reverse.drop start).take count).flatMap id).take 4096))

/-! ## Identity (R427 to R429) -/

/-- The identity record of a die (Table 18.7). -/
def dieIdentity (d : DieId) : Bytes :=
  toLE 6 (Config.dieLot d).toNat ++ [Config.dieWafer d, Config.dieX d, Config.dieY d] ++ toLE 1 (dieKind d) ++ toLE 1 0xB0 ++ toLE 1 d.toNat

/-- Digests of Table 18.8: those of the partition programs, then four whose inputs have no stated form, free values. -/
def configDigests (s : State) : Bytes × State :=
  let (f, s) := freeBytes s 256
  ((List.range 32).flatMap (fun p => toLE 64 (((partOf s (BitVec.ofNat 5 p)).prog.map fun g => g.digest.toNat).getD 0)) ++ f, s)

/-- Bytes 0 to 3,667 of the attestation report (Table 18.8). -/
def reportBody (s : State) (nonce : BitVec 256) : Bytes × State :=
  let b := s.bureau
  let (digests, s) := configDigests s
  (toLE 2 1 ++ toLE 2 0 ++ toLE 4 5208 ++ toLE 4 b.reports.toNat ++ toLE 6 (recNow s).toNat ++ pad 14 [] ++ toLE 32 nonce.toNat
    ++ toLE 16 Config.serial.toNat ++ allDies.flatMap dieIdentity ++ (List.range 8).flatMap (fun i => toLE 64 (if i = 7 then 0 else (Config.measurement i).toNat))
    ++ digests ++ toLE 2 s.fuses.rollback ++ toLE 1 b.keySlot.toNat
    ++ toLE 1 (b2n b.activeB + 2 * b2n b.debugUnlocked + 4 * b2n b.recoveryBit), s)

/-- ATTEST (R429). -/
def attest (s : State) (nonce : BitVec 256) : State × Status × Bytes :=
  let s := { s with bureau := { s.bureau with reports := s.bureau.reports + 1 } }
  let (body, s) := reportBody s nonce
  let sig := (Config.falconSignature body).take 1536
  (s, .ok, body ++ toLE 2 sig.length ++ toLE 2 0 ++ pad 1536 sig)

def execAttest (mctp : Bool) (nonce : BitVec 256) (s : State) : Out := .next (command s mctp fun s => attest s nonce)

def execCertRead (mctp : Bool) (s : State) : Out := .next (command s mctp fun s => (s, .ok, Config.deviceCertificate))

/-! ## Background commands (R426) -/

/-- STATUS: the outcome of a command that returned BUSY; one still running answers BUSY again, a free value. -/
def statusCommand (s : State) (mctp : Bool) (t : Word) : State :=
  match mfind s.bureau.outcomes t.toNat with
  | some (st, data) => reply s mctp st data none
  | none =>
    if s.bureau.background.any fun b => decide (b.ticket = t) then
      let (v, s) := drawFree s
      reply s mctp (v.setWidth 8) [] (some t)
    else reply s mctp (BitVec.ofNat 8 Status.badDescriptor.code) [] none

def execStatus (mctp : Bool) (ticket : Word) (s : State) : Out := .next (statusCommand s mctp ticket)

/-- A background command has its outcome: a quiesce answered, or its block hung, whose status the manual leaves open; every hand-over ended. -/
def backgroundOutcome (s : State) (b : Background) : Option (Option Status) :=
  if b.code = 0x05 then
    match mfind s.fabric.quiesce (blockKey { die := b.die, block := b.block }) with
    | some q => if q.stage = .done then some (some .ok) else if q.stage = .hung then some none else none
    | none => some none
  else if s.pair.leases.any fun l => l.2.handingOver then none else some (some .ok)

/-- MAILBOX_BACKGROUND_DONE. -/
def backgroundDone (s : State) (t : Word) : State :=
  match s.bureau.background.find? fun b => decide (b.ticket = t) with
  | none => s
  | some b =>
    match backgroundOutcome s b with
    | none => s
    | some st =>
      let (v, s) := drawFree s
      let code : BitVec 8 := (st.map fun x => BitVec.ofNat 8 x.code).getD (v.setWidth 8)
      { s with bureau := { s.bureau with
          background := s.bureau.background.filter fun x => decide (x.ticket ≠ t), outcomes := mins s.bureau.outcomes t.toNat (code, [])
          mbBackground := s.bureau.mbBackground && !decide (s.bureau.mbTicket = t) } }

def execMailboxBackgroundDone (ticket : Word) (s : State) : Out := .next (backgroundDone s ticket)

/-! ## MCTP and PLDM (R425) -/

/-- MCTP_CONTROL: answered as the standard says, whose bytes the manual does not give: four free bytes stand for the answer. Command 1 sets the
endpoint identifier. -/
def mctpControl (s : State) (req : Bytes) : State :=
  let s := if rd req 1 1 = 1 then { s with bureau := { s.bureau with mctpEid := BitVec.ofNat 8 (rd req 3 1) } } else s
  let (f, s) := freeBytes s 4
  emit s (.mctp f)

def execMctpControl (req : Bytes) (s : State) : Out := .next (mctpControl s req)

/-- The reading of a PLDM sensor (Table 18.4). -/
def sensorReading (s : State) (id : Nat) : Option Int :=
  let b := s.bureau
  let leastSpare : Nat := ((List.range 32).map (sparePermille s)).foldl min 1000
  if 0x0100 ≤ id ∧ id < 0x0140 then some (mget 0 b.junction (id - 0x0100))
  else if 0x0140 ≤ id ∧ id < 0x0144 then some (mget 0 b.boardTemp (id - 0x0140))
  else if id = 0x0144 then some b.coolantIn
  else if id = 0x0145 then some b.coolantOut
  else if id = 0x0146 then some s.power.j1
  else if id = 0x0147 then some b.j1Current
  else if 0x0200 ≤ id ∧ id < 0x021E then some (if id = 0x0200 then 750 else voltOf s (id - 0x0200))
  else if 0x0220 ≤ id ∧ id < 0x023E then some (Int.ofNat (mget 0 b.current (id - 0x0220)))
  else if 0x0240 ≤ id ∧ id < 0x025E ∧ regulated (id - 0x0240) then some (rateOf s (id - 0x0240))
  else if 0x0300 ≤ id ∧ id < 0x0320 then some (mget 0 s.tier.pkgTemp (id - 0x0300)).toNat
  else if 0x0320 ≤ id ∧ id < 0x0320 + Config.nandPackages then some (mget 0 b.nandTemp (id - 0x0320))
  else if id = 0x0360 ∨ id = 0x0361 then some leastSpare
  else if id = 0x0362 then some (averageWear s)
  else if id = 0x0363 then some (uncRecent s)
  else none

/-- PLDM_PLATFORM_REQUEST: the reading as 4 bytes; a request for no listed sensor is answered with a free byte. -/
def pldmRequest (s : State) (sensor : BitVec 16) : State :=
  match sensorReading s sensor.toNat with
  | some v => emit s (.mctp (toLE 4 (w32i v).toNat))
  | none =>
    let (f, s) := freeBytes s 1
    emit s (.mctp f)

def execPldmPlatformRequest (sensor : BitVec 16) (s : State) : Out := .next (pldmRequest s sensor)

end Sys2Proof.Machine
end

