-- ==== Sys2Proof/Machine/Firmware.lean ====
section
/-! DEFINITION. Firmware: update, activation, boot outcome and recovery (R431 to R437, Table 18.9). -/

namespace Sys2Proof.Machine

/-! ## Images (R430, R431, R433) -/

/-- Bank that is not active: 0 A, 1 B. -/
def inactiveBank (s : State) : Nat := b2n !s.bureau.activeB

/-- The image of the inactive bank, where something has been written there. -/
def stagedImage (s : State) : Option BankImage := mfind s.bureau.banks (inactiveBank s)

/-- 4 KiB chunks of an image. -/
def chunkCount (size : Nat) : Nat := (size + 4095) / 4096

/-- Bytes of chunk k of an image. -/
def chunkBytes (size k : Nat) : Nat := min 4096 (size - 4096 * k)

/-- Chunks not yet held. -/
def missingChunks (i : BankImage) : List Nat := (List.range (chunkCount i.size)).filter fun k => (mfind i.chunks k).isNone

/-- Component and cause of a failure under R430; none when the image verifies. Stage 1 is component 1. -/
def imageCause (s : State) (svn : Nat) (slot : BitVec 2) (verdict : Option Verdict) : Option (Word × Word) :=
  if s.fuses.revoked.getLsbD slot.toNat then some (1, 1)
  else if svn < s.fuses.rollback ∨ 64 < svn then some (1, 2)
  else verdict.map fun v => (v.component, v.cause)

/-- A RequestFirmwareData for one chunk: offset and length. -/
def requestChunk (size : Nat) (s : State) (k : Nat) : State := emit s (.mctp (toLE 4 (4096 * k) ++ toLE 4 (chunkBytes size k)))

/-- The offered component is the one whose chunks are held (R433). -/
def sameComponent (i : BankImage) (c : ComponentOffer) : Bool :=
  decide (i.version = c.version) && decide (i.size = c.size) && decide (i.stamp = c.stamp)

/-- The image that an offer leaves in the inactive bank: the same with its chunks, or a new one with none. -/
def offeredImage (s : State) (c : ComponentOffer) : BankImage :=
  let fresh : BankImage := { version := c.version, size := c.size, stamp := c.stamp, svn := c.svn, keySlot := c.keySlot }
  match stagedImage s with
  | some i => if sameComponent i c then i else fresh
  | none => fresh

/-- The offer is refused: too large, an SVN above 64, the inactive bank pending or kept for a return to it. -/
def offerRefused (s : State) (c : ComponentOffer) : Bool :=
  s.bureau.recovery || s.bureau.pendingBank || s.bureau.activating || decide (33554432 < c.size) || decide (64 < c.svn)

/-- PLDM's answer, whose bytes the manual does not give. -/
def pldmAnswer (s : State) : State :=
  let (f, s) := freeBytes s 1
  emit s (.mctp f)

/-- PLDM_UPDATE_COMPONENT (R433). -/
def updateComponent (s : State) (c : ComponentOffer) : State :=
  let s := pldmAnswer s
  if offerRefused s c then s
  else
    let i := offeredImage s c
    let s := { s with bureau := { s.bureau with banks := mins s.bureau.banks (inactiveBank s) i, session := true } }
    (missingChunks i).foldl (requestChunk i.size) s

def execPldmUpdateComponent (c : ComponentOffer) (s : State) : Out := .next (updateComponent s c)

/-- A revocation record carried in a verified image (R431): signed under another slot, both not revoked; so it is never the last. -/
def revokeSlot (s : State) (slot signer : BitVec 2) : State :=
  if slot = signer || s.fuses.revoked.getLsbD slot.toNat || s.fuses.revoked.getLsbD signer.toNat then s
  else logEvent { s with fuses := { s.fuses with revoked := s.fuses.revoked ||| BitVec.ofNat 4 (2 ^ slot.toNat) } } (.keySlotRevoked slot.toNat signer.toNat)

/-- Every chunk is held: the image is verified as a whole, and staged or discarded (R433). -/
def verifyStaged (s : State) (i : BankImage) (verdict : Option Verdict) (revoke : Option (BitVec 2 × BitVec 2)) : State :=
  let b := inactiveBank s
  match imageCause s i.svn i.keySlot verdict with
  | some (comp, cause) => logEvent { s with bureau := { s.bureau with banks := mins s.bureau.banks b {} } } (.fwVerifyFailed b comp cause)
  | none =>
    let s := { s with bureau := { s.bureau with banks := mins s.bureau.banks b { i with verified := true } } }
    let s := logEvent s (.fwStaged b i.svn i.size i.keySlot.toNat)
    match revoke with
    | some (slot, signer) => revokeSlot s slot signer
    | none => s

/-- FW_DATA_CHUNK (R433): chunk k of the image in transfer. -/
def dataChunk (s : State) (k : Nat) (data : Bytes) (verdict : Option Verdict) (revoke : Option (BitVec 2 × BitVec 2)) : State :=
  match stagedImage s with
  | none => s
  | some i =>
    if !s.bureau.session || i.verified || decide (chunkCount i.size ≤ k) || decide (data.length ≠ chunkBytes i.size k) then s
    else
      let i := { i with chunks := mins i.chunks k data }
      let s := { s with bureau := { s.bureau with banks := mins s.bureau.banks (inactiveBank s) i } }
      if (missingChunks i).isEmpty then verifyStaged s i verdict revoke else s

def execFwDataChunk (k : Nat) (data : Bytes) (verdict : Option Verdict) (revoke : Option (BitVec 2 × BitVec 2)) (s : State) : Out :=
  .next (dataChunk s k data verdict revoke)

/-! ## Activation (R434 to R436, Table 18.9) -/

/-- UTC in µs, once an offset is set (R34). -/
def utcNow (s : State) : Option Nat := s.bureau.utc.map fun o => (o + (recNow s).setWidth 64).toNat

/-- ACTIVATE_UTC, less a lead in µs, has come. -/
def utcReached (s : State) (lead : Nat) : Bool := (utcNow s).any fun t => decide (s.bureau.activateUtc.toNat ≤ t + lead)

/-- Orders 1 and 2 of Table 18.9: fetch and admission stop, the drain begins. -/
def beginDrain (s : State) : State :=
  { s with
    host := { s.host with fetchStopped := true }
    bureau := { s.bureau with drainAt := some (recNow s), drainCancelled := 0, fwWaitsPartner := false } }

/-- A scheduled activation without a UTC offset waits, and says so (R434). -/
def noteNoUtc (s : State) : State :=
  if s.bureau.pendingBank && decide (s.bureau.activateUtc ≠ 0) && s.bureau.utc.isNone then logEvent s (.fwActivationHeld 0 (inactiveBank s)) else s

/-- ACTIVATE_FIRMWARE (R433, R434): the staged bank becomes pending. -/
def activateFirmware (s : State) : State :=
  let s := pldmAnswer s
  if s.bureau.session && !s.bureau.pendingBank && (stagedImage s).any (·.verified) then
    let s := { s with bureau := { s.bureau with session := false, pendingBank := true, pendingSent := false, fwHeld := false, fwWaitsPartner := false } }
    if s.bureau.activateUtc = 0 then beginDrain s else noteNoUtc s
  else s

def execActivateFirmware (s : State) : Out := .next (activateFirmware s)

/-- FW_SCHEDULE (R434, R436): a new ACTIVATE_UTC, also for an activation that is held. -/
def schedule (s : State) (utc : BitVec 64) : State × Status × Bytes :=
  if s.bureau.drainAt.isSome then (s, .noResources, [])
  else (noteNoUtc { s with bureau := { s.bureau with activateUtc := utc, pendingSent := false, fwHeld := false, fwWaitsPartner := false } }, .ok, [])

def execFwSchedule (mctp : Bool) (utc : BitVec 64) (s : State) : Out := .next (command s mctp fun s => schedule s utc)

/-- FW_CANCEL (R434): the bank stays staged. -/
def cancelActivation (s : State) : State × Status × Bytes :=
  if s.bureau.pendingBank && s.bureau.drainAt.isNone then
    ({ s with bureau := { s.bureau with pendingBank := false, pendingSent := false, fwHeld := false, fwWaitsPartner := false, session := true } }, .ok, [])
  else (s, .noResources, [])

def execFwCancel (mctp : Bool) (s : State) : Out := .next (command s mctp cancelActivation)

/-- A pending bank whose activation has neither begun nor been held. -/
def awaitsTime (s : State) : Bool := s.bureau.pendingBank && s.bureau.drainAt.isNone && !s.bureau.fwHeld && !s.bureau.fwWaitsPartner

/-- FW_PENDING (R434): 10 s before ACTIVATE_UTC, once. -/
def pendingNotice (s : State) : State :=
  if awaitsTime s && !s.bureau.pendingSent && utcReached s 10000000 then
    logEvent { s with bureau := { s.bureau with pendingSent := true } } (.fwPending s.bureau.activateUtc.toNat (inactiveBank s))
  else s

def execFwPending (s : State) : Out := .next (pendingNotice s)

/-- FW_ACTIVATION (R435, R436): at ACTIVATE_UTC; position 1 of a pair waits for its partner, or is held when its link is DOWN. -/
def activationTime (s : State) : State :=
  if !(awaitsTime s && (decide (s.bureau.activateUtc = 0) || utcReached s 0)) then s
  else if s.pair.enable && s.pair.position && decide (s.bureau.activateUtc ≠ 0) then
    if s.pair.link = .down then
      logEvent { s with bureau := { s.bureau with fwHeld := true } } (.fwActivationHeld 2 (inactiveBank s))
    else { s with bureau := { s.bureau with fwWaitsPartner := true, fwWaitAt := recNow s } }
  else beginDrain s

def execFwActivation (s : State) : Out := .next (activationTime s)

/-- The link has come UP since the wait for the partner began. -/
def partnerDone (s : State) : Bool :=
  s.pair.link = .up && s.pair.upAt.any fun t => decide (since t (now s) < since s.bureau.fwWaitAt (recNow s))

def execFwPairActivation (s : State) : Out :=
  .next (if s.bureau.pendingBank && s.bureau.fwWaitsPartner && partnerDone s then beginDrain s else s)

/-- FW_ACTIVATION_HELD (R436): 10 s have passed and the link is not UP. -/
def activationHeld (s : State) : State :=
  if s.bureau.pendingBank && s.bureau.fwWaitsPartner && decide (s.pair.link ≠ .up) && decide (10000000 ≤ since s.bureau.fwWaitAt (recNow s)) then
    logEvent { s with bureau := { s.bureau with fwHeld := true, fwWaitsPartner := false } } (.fwActivationHeld 1 (inactiveBank s))
  else s

def execFwActivationHeld (s : State) : Out := .next (activationHeld s)

/-- Nothing is outstanding, and nothing fetched waits. -/
def drained (s : State) : Bool := s.host.requests.isEmpty && s.host.qps.all fun q => q.2.fetched.isEmpty

/-- Mutations that the activation cancels leave the journal: the partner is not to apply them (R374). -/
def dropMutations (s : State) : State :=
  s.pair.journal.foldl (fun s e => if e.handle.isSome then setPair s fun p => { p with journal := dropObject e.jseq p.journal } else s) s

/-- DRAIN_END (R435): what still runs ends CANCELLED, and the warm reset starts the other bank. -/
def drainEnd (s : State) : State :=
  match s.bureau.drainAt with
  | none => s
  | some t =>
    if s.bureau.activating || !(drained s || decide (1000 * s.bureau.drainMs ≤ since t (recNow s))) then s
    else
      let (s, n, _) := cancelOutstanding (dropMutations s) []
      let s := if n = 0 then s else logEvent s (.fwDrainCancelled n)
      let new := !s.bureau.activeB
      let s := warmReset { s with bureau := { s.bureau with activeB := new, pendingBank := false, drainCancelled := n } } 2
      { s with bureau := { s.bureau with activating := s.bureau.booting && decide (s.bureau.activeB = new) } }

def execDrainEnd (s : State) : Out := .next (drainEnd s)

/-- FW_COMMIT (R431). -/
def commitFirmware (s : State) : State × Status × Bytes :=
  if !s.host.bootOk then (s, .noResources, [])
  else
    let old := s.fuses.rollback
    let new := min 64 s.bureau.runningSvn
    if old < new then (logEvent { s with fuses := { s.fuses with rollback := new } } (.rollbackRaised old new), .ok, []) else (s, .ok, [])

def execFwCommit (mctp : Bool) (s : State) : Out := .next (command s mctp commitFirmware)

/-! ## The boot's outcome (R432, R435, R456, R458) -/

/-- A reset that was held is applied. -/
def applyHeld (s : State) : HeldReset → State
  | .flr fn => functionReset s fn
  | .hot => hotReset s
  | .block d b => resetBlock s { die := d, block := b }

/-- Fetch resumes: the doorbell line of each enabled pair is read again. -/
def resumeFetch (s : State) : State :=
  s.host.qps.foldl (fun s x => if x.2.state = .enabled then doorbellInvalidation s (BitVec.ofNat 9 (x.1 / 8)) (BitVec.ofNat 3 x.1) else s)
    { s with host := { s.host with fetchStopped := false } }

/-- FW_ACTIVATED with the quiet, where the boot was an activation. -/
def activated (s : State) : State :=
  let b := s.bureau
  let s := if b.activating then logEvent s (.fwActivated (b2n b.activeB) b.runningSvn ((b.drainAt.map fun t => since t (recNow s)).getD 0) b.drainCancelled) else s
  { s with bureau := { s.bureau with activating := false, drainAt := none } }

/-- BOOT_OK (R432, order 17 of Table 19.5, order 8 of Table 18.9). -/
def bootOk (s : State) : State :=
  if !s.bureau.booting || decide (s.power.releaseStep ≠ 17) || s.host.failed then s
  else
    let held := s.power.held
    let done := s.power.finishing
    let s := { s with
      bureau := { s.bureau with booting := false, bootFails := 0, recoveryBit := false }
      host := { s.host with bootOk := true, inWarmReset := false }
      power := { s.power with resetting := none, releaseStep := 0, held := [], finishing := [] } }
    let s := done.foldl (fun s h => mutationAnswered s h .ok true) s
    resumeFetch (activated (held.foldl applyHeld s))

def execBootOk (s : State) : Out := .next (bootOk s)

/-- Stage 0 starts again, and the release chain with it. -/
def restartBoot (s : State) : State :=
  let first : List DieId := if s.power.resetting = some .warm then [0x3C, 0x3D] else []
  startChain (stage0 { s with
    fabric := { s.fabric with released := first }
    power := { s.power with releaseStep := 0 }
    bureau := { s.bureau with booting := false, bootAt := recNow s } })

/-- BOOT_TIMEOUT (R432): 30 s without BOOT_OK; a bank that was being activated is left for the old one (R435). -/
def bootTimeout (s : State) : State :=
  if !s.bureau.booting || decide (since s.bureau.bootAt (recNow s) < 30000000) then s
  else
    let fails := s.bureau.bootFails + 1
    let b := s.bureau
    let s := { s with bureau := { b with bootFails := fails } }
    if b.activating then
      restartBoot (logEvent { s with bureau := { s.bureau with activeB := !b.activeB, activating := false, drainAt := none } } (.fwRolledBack (b2n b.activeB) fails))
    else restartBoot s

def execBootTimeout (s : State) : Out := .next (bootTimeout s)

/-! ## Recovery (R437) -/

/-- A command that only the recovery mailbox accepts. -/
def recoveryCommand (s : State) (mctp : Bool) (f : State → State × Status × Bytes) : State :=
  if s.bureau.recovery then
    let (s, st, data) := f s
    reply s mctp (BitVec.ofNat 8 st.code) data none
  else reply s mctp (BitVec.ofNat 8 Status.badDescriptor.code) [] none

/-- RECOVERY_WRITE: bank A holds no verified image from then on. -/
def recoveryWrite (s : State) (off : Nat) (data : Bytes) : State × Status × Bytes :=
  if 4096 < data.length ∨ 33554432 < off + data.length then (s, .badDescriptor, [])
  else ({ s with bureau := { s.bureau with recoveryImage := mins s.bureau.recoveryImage off data, banks := mins s.bureau.banks 0 {} } }, .ok, [])

def execRecoveryWrite (mctp : Bool) (off : Nat) (data : Bytes) (s : State) : Out := .next (recoveryCommand s mctp fun s => recoveryWrite s off data)

/-- RECOVERY_STATUS: what it returns has no stated form: four free bytes. -/
def recoveryStatus (s : State) : State × Status × Bytes :=
  let (f, s) := freeBytes s 4
  (s, .ok, f)

def execRecoveryStatus (mctp : Bool) (s : State) : Out := .next (recoveryCommand s mctp recoveryStatus)

/-- What a normal boot out of recovery keeps beside flash: input and levels, record time and request timer. -/
def leaveRecovery (s : State) : State :=
  let p := s.power
  let b := s.bureau
  let g := s.pair.journalGen
  let s := survivors s
  { s with
    pair := { s.pair with journalGen := g }
    bureau := { s.bureau with reqTimer := b.reqTimer, recTime := b.recTime, refclk := b.refclk, utc := b.utc, bootAt := b.recTime }
    power := { p with domains := [0, 1, 5, 28], resetting := some .powerOn, releaseStep := 0, held := [], finishing := [], memoryActive := false } }

/-- RECOVERY_BOOT: a normal boot from bank A when its image verifies; else refused. -/
def recoveryBoot (s : State) (svn : Nat) (slot : BitVec 2) (verdict : Option Verdict) : State × Status × Bytes :=
  match imageCause s svn slot verdict with
  | some (comp, cause) => (logEvent s (.fwVerifyFailed 0 comp cause), .noResources, [])
  | none =>
    let image : BankImage := { svn := svn, keySlot := slot, chunks := s.bureau.recoveryImage, verified := true }
    (bootBank (leaveRecovery { s with bureau := { s.bureau with banks := mins s.bureau.banks 0 image, recoveryImage := [] } }) false, .ok, [])

def execRecoveryBoot (mctp : Bool) (svn : Nat) (keySlot : BitVec 2) (verdict : Option Verdict) (s : State) : Out :=
  .next (recoveryCommand s mctp fun s => recoveryBoot s svn keySlot verdict)

end Sys2Proof.Machine
end

