-- ==== Sys2Proof/Machine/Registers.lean ====
section
/-! DEFINITION. Set-up registers (chapter 20): reads, writes, refusals, and the writes that have an effect of their own. -/

namespace Sys2Proof.Machine

/-! ## Access (R455, R462, R463, R437) -/

/-- BAR0 answers: configuration is ready (R455), or in recovery the host die is released (R437). -/
def barReady (s : State) : Bool := if s.bureau.recovery then decide ((0x3C : DieId) ∈ s.fabric.released) else s.power.configReady

/-- Unnamed event 26: an access that a region without CFG_ERR only logs (R462). -/
def logAccess (s : State) (fn : Tenant) (off : Nat) : State := logEvent s { Ev.unnamed 26 0x3C [w32 off] with tenant := some fn }

/-- A refused write or a bad access at a PF0 offset: CFG_ERR of its region, or a log entry where the region has none (R462, R463). -/
def refuseAt (s : State) (cause off : Nat) : State :=
  match off / 2 ^ 16 with
  | 3 => if off < 0x34000 then { s with gen := { s.gen with cfgErr := cfgError s.gen.cfgErr cause off } } else logAccess s 0 off
  | 4 => if off < 0x41000 then { s with tier := { s.tier with cfgErr := cfgError s.tier.cfgErr cause off } } else logAccess s 0 off
  | 5 => if off < 0x51000 then { s with text := { s.text with cfgErr := cfgError s.text.cfgErr cause off } } else logAccess s 0 off
  | 6 => if off < 0x61000 then { s with pair := { s.pair with cfgErr := cfgError s.pair.cfgErr cause off } } else logAccess s 0 off
  | _ => logAccess s 0 off

/-- An access of a wrong size, alignment or offset (R462, cause 0x3). -/
def badAccess (s : State) (fn : Tenant) (off : Nat) : State := if fn = 0 then refuseAt s 3 off else logAccess s fn off

/-- CFG_ERR after a write: REFUSED is cleared by 1, and COUNT with it (Table 20.1). -/
def cfgClear (old v : Word) : Word := if bit v.toNat 31 then w32 (bits old.toNat 23 0) else old

/-- The offset within the function layout (Tables 20.3, 20.4): PF0's lies at 0x1_0000 of its BAR0. -/
def layoutOff (fn : Tenant) (off : Nat) : Option Nat :=
  if fn = 0 then (if 0x10000 ≤ off ∧ off < 0x20000 then some (off - 0x10000) else none)
  else if off < 0x10000 then some off else none

/-- Key of what a function has latched at an offset. -/
def latchKey (fn : Tenant) (off : Nat) : Nat := 2 ^ 20 * fn.toNat + off

/-! ## Values read (Tables 20.5 to 20.15) -/

def PartState.code : PartState → Nat
  | .empty => 0 | .loading => 1 | .running => 2 | .paused => 3 | .unloading => 4 | .failed => 5

def PairLink.code : PairLink → Nat
  | .down => 0 | .training => 1 | .sync => 2 | .up => 3

def QpState.code : QpState → Nat
  | .disabled => 0 | .enabled => 1 | .error => 2 | .disabling => 3

def SetState.code : SetState → Nat
  | .empty => 0 | .checking => 1 | .installed => 2 | .refused => 3

/-- Word k of a wide value. -/
def wordOf (v k : Nat) : Word := w32 (v / 2 ^ (32 * k) % 2 ^ 32)

/-- HST_STATUS CAUSE (Table 20.6). -/
def statusCause (s : State) : Nat :=
  if s.host.failed then 4 else if s.host.inWarmReset then 3 else if !s.host.bootOk then 1 else if !s.host.cacheEn then 2 else 0

/-- HST_STATUS READY (R466). -/
def dataReady (s : State) : Bool := s.host.bootOk && s.host.cacheEn && !s.host.failed

/-- HST_STATUS (Table 20.6). -/
def hostStatus (s : State) : Word :=
  w32 (2 ^ 31 * b2n (dataReady s) + 2 ^ 30 * b2n s.host.cacheEn + 2 ^ 16 * s.host.linkWidth.toNat + 2 ^ 8 * s.host.linkGts.toNat + statusCause s)

/-- CTRL (Table 20.7). -/
def ctrlWord (p : QueuePair) : Word := w32 (2 ^ 31 * b2n p.enable + 2 ^ 30 * b2n p.pasidEn + 16 * p.pasid.toNat + p.vector.toNat)

/-- Word at r of a queue pair's registers (Table 20.7). -/
def qpWord (p : QueuePair) (r : Nat) : Option Word :=
  match r with
  | 0x00 => some (wordOf p.sqBase.toNat 0) | 0x04 => some (wordOf p.sqBase.toNat 1)
  | 0x08 => some (wordOf p.cqBase.toNat 0) | 0x0C => some (wordOf p.cqBase.toNat 1)
  | 0x10 => some (wordOf p.dbAddr.toNat 0) | 0x14 => some (wordOf p.dbAddr.toNat 1)
  | 0x18 => some (ctrlWord p)
  | 0x1C => some (w32 (256 * p.cqLog2.toNat + p.sqLog2.toNat))
  | 0x20 => some (w32 (256 * p.errCode.toNat + p.state.code))
  | 0x24 => some p.sqHead
  | 0x28 => some p.cqTail
  | _ => none

/-- Word at r of an MSI-X table entry. -/
def msixWord (v : Vector) (r : Nat) : Word :=
  match r with
  | 0 => wordOf v.msgAddr.toNat 0
  | 4 => wordOf v.msgAddr.toNat 1
  | 8 => v.msgData
  | _ => w32 (b2n v.masked)

/-- A counter as read: it saturates at 2^64 − 1 (R474). -/
def saturated (n : Nat) : Nat := min n (2 ^ 64 - 1)

/-- The 8 bytes at k of a tenant's CNT_TENANT block (Table 20.16). -/
def tenantCounter (s : State) (n k : Nat) : Option Nat :=
  if k = 0 then some (tenOf s (BitVec.ofNat 9 n)).ratio
  else if k % 8 = 0 ∧ k ≤ 0x30 then some (saturated (mget 0 s.host.cntTenant (8 * n + k / 8))) else none

/-- Word at o of the function layout (Table 20.4). -/
def layoutWord (s : State) (fn : Tenant) (o : Nat) : Option Word :=
  if o < 0x200 then qpWord (qpOf s fn (BitVec.ofNat 3 (o / 0x40))) (o % 0x40)
  else if o = 0x200 then some (w32 (2 ^ 16 * (mget 0 s.host.eventQp fn.toNat).toNat + fn.toNat))
  else if 0x300 ≤ o ∧ o < 0x340 then
    let v := vecOf s fn (BitVec.ofNat 4 ((o - 0x300) / 4))
    some (w32 (2 ^ 16 * v.time.toNat + v.countM1.toNat))
  else if 0x1000 ≤ o ∧ o < 0x1100 then some (msixWord (vecOf s fn (BitVec.ofNat 4 ((o - 0x1000) / 16))) (o % 16))
  else if o = 0x1800 then some (w32 (((List.range 16).map fun v => b2n (vecOf s fn (BitVec.ofNat 4 v)).pending * 2 ^ v).sum))
  else if o = 0x1804 then some 0
  else if 0x2000 ≤ o ∧ o < 0x2040 then (tenantCounter s fn.toNat ((o - 0x2000) / 8 * 8)).map fun c => wordOf c (o % 8 / 4)
  else none

/-- Identity and capability (Table 20.5). -/
def identityWord (s : State) (off : Nat) : Option Word :=
  let built := decide ((0 : DieId) ∈ s.fabric.released)
  if off = 0 then some (w32 (2 ^ 24 * 3 + 2 ^ 16 * (if Config.codeA then 0x41 else 0x42) + 2 ^ 8 * 0x43 + 0xB0))
  else if off = 4 then some (w32 (2 ^ 16 * Config.flashTib + 768))
  else if off = 8 then some (w32 s.tier.mts.toNat)
  else if 0x10 ≤ off ∧ off < 0x20 then some (wordOf Config.serial.toNat ((off - 0x10) / 4))
  else if 0x1000 ≤ off ∧ off < 0x1600 then
    let e : Engine := Fin.ofNat 48 ((off - 0x1000) / 0x20)
    some (wordOf (if built then capRecord s e else 0) (off % 0x20 / 4))
  else if off = 0x1800 then
    let n := ((List.finRange 48).filter fun e => decide ((engOf s e).retired = 0)).length
    some (w32 (2 ^ 16 * 0x1000 + 2 ^ 8 * 0x20 + if built then n else 0))
  else none

/-- Partitions and tenants (Table 20.10). -/
def partWord (s : State) (off : Nat) : Option Word :=
  if off = 0x30000 then some s.gen.cfgErr
  else if off = 0x30008 then some (w32 (2 ^ 16 * s.engines.holdGap.toNat + s.engines.holdSlope.toNat))
  else if off = 0x3000C then some (w32 s.gen.testInterval.toNat)
  else if off = 0x30010 then some (w32 (2 ^ 16 * s.gen.slowWindows.toNat + s.gen.slowThreshold.toNat))
  else if 0x30100 ≤ off ∧ off < 0x30500 then
    let q := partOf s (BitVec.ofNat 5 ((off - 0x30100) / 0x20))
    match off % 0x20 with
    | 0x00 => some (w32 (256 * q.mapping + q.state.code))
    | 0x04 => some q.stepLimit
    | 0x08 => some (w32 q.hotBudget.toNat)
    | 0x0C => some (w32 q.refresh.toNat)
    | 0x10 => some q.watchdog
    | 0x14 => some q.committed
    | _ => none
  else if 0x31000 ≤ off ∧ off < 0x33000 then
    let t := tenOf s (BitVec.ofNat 9 ((off - 0x31000) / 0x10))
    match off % 0x10 with
    | 0 => some (w32 (2 ^ 16 * t.maxSlots.toNat + t.weight.toNat))
    | 4 => some t.serve
    | 8 => some (wordOf t.templateBase.toNat 0)
    | 12 => some (wordOf t.templateBase.toNat 1)
    | _ => none
  else none

/-- Tiers (Table 20.11): the window's extents are numbered from 0. -/
def tierWord (s : State) (off : Nat) : Option Word :=
  if off = 0x40000 then some s.tier.cfgErr
  else if off = 0x40008 then some s.tier.wbInterval
  else if off = 0x4000C then some (w32 (s.tier.windowPending.getD s.tier.windowSize).toNat)
  else if off = 0x40010 then some 0
  else if 0x40100 ≤ off ∧ off < 0x40500 then some (w32 (mget 0 s.tier.windowTenant ((off - 0x40100) / 4)).toNat)
  else none

/-- Text (Table 20.12). -/
def textWord (s : State) (off : Nat) : Option Word :=
  if off = 0x50000 then some s.text.cfgErr
  else if 0x50010 ≤ off ∧ off < 0x50050 then
    let t := setOf s (BitVec.ofNat 2 ((off - 0x50010) / 0x10))
    match off % 0x10 with
    | 0 => some (wordOf t.base.toNat 0)
    | 4 => some (wordOf t.base.toNat 1)
    | 8 => some (w32 t.state.code)
    | _ => none
  else none

/-- Pair (Table 20.13). -/
def pairWord (s : State) (off : Nat) : Option Word :=
  let p := s.pair
  if off = 0x60000 then some p.cfgErr
  else if off = 0x60008 then some (w32 (4 * b2n p.position + 2 * b2n p.failback + b2n p.enable))
  else if off = 0x6000C then some (w32 p.pairId.toNat)
  else if off = 0x60010 then some (w32 p.journalGib.toNat)
  else if off = 0x60014 then some (w32 p.mirrorTimeout.toNat)
  else if off = 0x60018 then some (wordOf p.leaseBase.toNat 0)
  else if off = 0x6001C then some (wordOf p.leaseBase.toNat 1)
  else if off = 0x60020 then some (w32 (16 * p.lanes.toNat + p.link.code))
  else if 0x60100 ≤ off ∧ off < 0x60140 then some (mget 0 p.prefer ((off - 0x60100) / 4))
  else none

/-- Bureau mailbox (Table 20.15); BUR_MB_DATA reads zero while EXEC is 1 (R473). -/
def mailboxWord (s : State) (off : Nat) : Option Word :=
  let b := s.bureau
  if off = 0x70000 then some (w32 (2 ^ 16 * b.mbSub.toNat + b.mbCode.toNat))
  else if off = 0x70004 then some (w32 b.mbLen.toNat)
  else if off = 0x70008 then some 0
  else if off = 0x7000C then
    some (w32 (2 ^ 31 * b2n b.mbExec + 2 ^ 30 * b2n b.mbBackground + 2 ^ 26 * b.mbDiscards.toNat + 2 ^ 13 * b.mbOutLen.toNat + b.mbStatus.toNat))
  else if off = 0x70010 then some b.mbTicket
  else if off = 0x70014 then some (w32 (128 * b2n b.mbIrqEn + b.mbVector.toNat))
  else if 0x71000 ≤ off ∧ off < 0x72000 then
    some (if b.mbExec then 0 else w32 (leNat ((List.range 4).map fun i => mget 0 b.mbData (off - 0x71000 + i))))
  else none

/-- The counter at an 8-byte offset of PF0's counter region (Table 20.16). -/
def counterAt (s : State) (off : Nat) : Option Nat :=
  if off % 8 ≠ 0 then none
  else if 0x81000 ≤ off ∧ off < 0x82000 then some (saturated (mget 0 s.store.corrected ((off - 0x81000) / 8)))
  else if 0x82000 ≤ off ∧ off < 0x82C00 then
    let x := engOf s (Fin.ofNat 48 ((off - 0x82000) / 0x40))
    match off % 0x40 with
    | 0x00 => some (saturated x.cntReplays) | 0x08 => some (saturated x.cntRaised)
    | 0x10 => some (saturated x.cntNan) | 0x18 => some (saturated x.cntFaults)
    | _ => none
  else if 0x83000 ≤ off ∧ off < 0x83400 then
    let t := tableOf s ((off - 0x83000) / 0x10)
    some (saturated ((t.map fun r => if off % 0x10 = 0 then r.cntInvalid else r.cntMissing).getD 0))
  else if 0x84000 ≤ off ∧ off < 0x84200 then
    let k := (off - 0x84000) / 0x10
    some (saturated (if off % 0x10 = 0 then mget 0 s.shelfSkips k else mget 0 s.shelfCuts k))
  else if 0x85000 ≤ off ∧ off < 0x85018 then
    some (saturated (if off = 0x85000 then s.text.cntReplaced else if off = 0x85008 then s.text.cntJoiners else s.text.cntSpecial))
  else if 0x90000 ≤ off ∧ off < 0x98000 then tenantCounter s ((off - 0x90000) / 0x40) (off % 0x40)
  else none

/-- CNT_RATE (Table 20.16): voltage and rate, 0 for PD00 and PD05. -/
def rateWord (s : State) (off : Nat) : Option Word :=
  if 0x80100 ≤ off ∧ off < 0x80178 then
    let d := (off - 0x80100) / 4
    some (if d = 0 ∨ d = 5 then 0 else w32 (2 ^ 16 * voltOf s d + rateOf s d))
  else none

/-- Word at a PF0 offset outside the function layout; none where no table lists one. -/
def moduleWord (s : State) (off : Nat) : Option Word :=
  match off / 2 ^ 16 with
  | 0 => identityWord s off
  | 2 => if off = 0x20000 then some (hostStatus s) else none
  | 3 => partWord s off
  | 4 => tierWord s off
  | 5 => textWord s off
  | 6 => pairWord s off
  | 7 => mailboxWord s off
  | 8 | 9 => (rateWord s off).orElse fun _ => (counterAt s (off / 8 * 8)).map fun c => wordOf c (off % 8 / 4)
  | _ => none

/-- The word that function fn reads at an aligned offset of its BAR0. -/
def readWord (s : State) (fn : Tenant) (off : Nat) : Option Word :=
  match layoutOff fn off with
  | some o => layoutWord s fn o
  | none => if fn = 0 then moduleWord s off else none

/-! ## Queue pairs (R467, R468, R281) -/

/-- Doorbell lines pinned (R279). -/
def doorbellLines (s : State) : Nat := (s.host.qps.filter fun x => x.2.pinned).length

/-- A base is 0, or a size outside 6 to 16. -/
def badSetup (p : QueuePair) : Bool :=
  decide (p.sqBase = 0 ∨ p.cqBase = 0 ∨ p.sqLog2.toNat < 6 ∨ 16 < p.sqLog2.toNat ∨ p.cqLog2.toNat < 6 ∨ 16 < p.cqLog2.toNat)

/-- The first error code that keeps a pair from being enabled (R467, Table 20.8). -/
def enableError (s : State) (p : QueuePair) : Option (BitVec 8) :=
  if !s.host.cacheEn then some 0x05
  else if !dataReady s then some 0x06
  else if badSetup p then some 0x07
  else if 4096 ≤ doorbellLines s then some 0x08 else none

/-- ENABLE 1 written to a DISABLED pair (R281, R467): the line is pinned and read; its values come with the command or with
DOORBELL_REREAD_RETURN. -/
def enablePair (s : State) (fn : Tenant) (q : BitVec 3) (line : Option (DoorbellLine × List Descriptor)) : State :=
  match enableError s (qpOf s fn q) with
  | some c => setQp s fn q fun p => { p with errCode := c }
  | none =>
    let s := setQp s fn q fun p => { p with
      enable := true, state := .enabled, errCode := 0, pinned := true, sqHead := 0, cqTail := 0, written := 0, sqTail := 0, cqHead := 0
      fetched := [], waiting := [], fenced := none, rereads := b2n line.isNone }
    let s := emit s (.sharedRead fn (qpOf s fn q).dbAddr)
    match line with
    | some (l, ds) => takeLine s fn q l ds
    | none => s

/-- ENABLE 0 written (R468): fetch stops, the pair's requests are cancelled and post no more. -/
def disablePair (s : State) (fn : Tenant) (q : BitVec 3) : State :=
  let p := qpOf s fn q
  if p.state = .enabled || p.state = .error then
    let s := stopPair s fn q fun p => { p with enable := false, state := .disabling, fenced := none }
    resetRequests s fun r => decide (r.fn = fn) && decide (r.qp = q)
  else s

/-- A write of set-up that R467 discards is counted. -/
def countDiscard (s : State) (fn : Tenant) : State := countTenant s fn 6 1

/-- A write of CTRL (R467, R468). -/
def writeCtrl (s : State) (fn : Tenant) (q : BitVec 3) (v : Word) (line : Option (DoorbellLine × List Descriptor)) : State :=
  let p := qpOf s fn q
  let en := bit v.toNat 31
  let pe := bit v.toNat 30
  let pasid := BitVec.ofNat 20 (bits v.toNat 23 4)
  if en && (p.state = .error || p.state = .disabling) then countDiscard s fn
  else
    let s := if p.state = .disabled then setQp s fn q fun p => { p with pasidEn := pe, pasid := pasid }
      else if pe = p.pasidEn ∧ pasid = p.pasid then s else countDiscard s fn
    let s := setQp s fn q fun p => { p with vector := BitVec.ofNat 4 v.toNat }
    if !en then disablePair s fn q
    else if p.state = .disabled then enablePair s fn q line else s

/-- A 64-bit register of a pair, while it is DISABLED (R467). -/
def writeQpWide (s : State) (fn : Tenant) (q : BitVec 3) (r : Nat) (v : Nat) : State :=
  if (qpOf s fn q).state ≠ .disabled then countDiscard s fn
  else setQp s fn q fun p =>
    if r = 0 then { p with sqBase := BitVec.ofNat 64 (v / 4096 * 4096) }
    else if r = 8 then { p with cqBase := BitVec.ofNat 64 (v / 4096 * 4096) }
    else { p with dbAddr := BitVec.ofNat 64 (v / 64 * 64) }

/-- SIZE, while the pair is DISABLED (R467); a size out of range shows at ENABLE (BAD_SETUP). -/
def writeQpSize (s : State) (fn : Tenant) (q : BitVec 3) (v : Nat) : State :=
  if (qpOf s fn q).state ≠ .disabled then countDiscard s fn
  else setQp s fn q fun p => { p with cqLog2 := BitVec.ofNat 5 (bits v 12 8), sqLog2 := BitVec.ofNat 5 (bits v 4 0) }

/-- A command that is a write of a PF0 or function register, while BAR0 answers and the module is not in recovery. -/
def whenReady (s : State) (f : State → State) : State := if barReady s && !s.bureau.recovery then f s else s

def execQpEnable (fn : Tenant) (q : BitVec 3) (ctrl : Word) (line : DoorbellLine) (descs : List Descriptor) (s : State) : Out :=
  .next (whenReady s fun s => writeCtrl s fn q (ctrl ||| 0x80000000) (some (line, descs)))

def execQpDisable (fn : Tenant) (q : BitVec 3) (s : State) : Out := .next (whenReady s fun s => disablePair s fn q)

/-- QP_DISABLE_DONE (R468): every request of the pair has ended; the line is released. -/
def disableDone (s : State) (fn : Tenant) (q : BitVec 3) : State :=
  if (qpOf s fn q).state = .disabling && !(s.host.requests.any fun x => decide (x.2.fn = fn) && decide (x.2.qp = q) && !x.2.remote) then
    setQp s fn q fun p => { p with state := .disabled, pinned := false, rereads := 0 }
  else s

def execQpDisableDone (fn : Tenant) (q : BitVec 3) (s : State) : Out := .next (disableDone s fn q)

/-! ## The CXL.mem window (R84, R470) -/

/-- TIR_WINDOW SIZE written: the window is rebuilt, and reports size zero to the host meanwhile. -/
def writeWindow (s : State) (v : Nat) : Except Nat State :=
  let n := bits v 8 0
  if 256 < n then .error 1
  else if anyLoaded s then .error 2
  else .ok { s with tier := { s.tier with windowPending := some (BitVec.ofNat 9 n) } }

def execWindowResize (size : Word) (s : State) : Out :=
  .next (whenReady s fun s => match writeWindow s size.toNat with
    | .ok t => t
    | .error c => refuseAt s c 0x4000C)

/-- Entry of window extent i for a window of n GiB: an SCR extent in the highest tier-L extents (R83, R84). -/
def windowEntry (s : State) (n i : Nat) : ExtentEntry :=
  { cls := 2, tenant := mget 0 s.tier.windowTenant (i / 512), copyTier := 2, copyLoc := BitVec.ofNat 25 (Config.tierLExtents - 512 * n + i), valid := true }

/-- The window's entries go. -/
def dropWindow (s : State) : State :=
  (List.range (512 * s.tier.windowSize.toNat)).foldl (fun s x => match entryKey s x with
    | some k => { s with tier := { s.tier with leaves := mdel s.tier.leaves k } }
    | none => s) s

/-- The highest tier-L extents that a window of n GiB takes are in no other use. -/
def windowFits (s : State) (n : Nat) : Bool :=
  !(s.tier.leaves.any fun l => l.2.valid && !windowKey s l.1
      && ((decide (l.2.homeTier = 2) && decide (Config.tierLExtents - 512 * n ≤ l.2.homeLoc.toNat))
        || (decide (l.2.copyTier = 2) && decide (Config.tierLExtents - 512 * n ≤ l.2.copyLoc.toNat))))

/-- WINDOW_RESIZE_DONE (R470): the window's extent entries are rebuilt, once no extent lies where it is to be. Entries of extents already mapped at
the extent numbers that a growing window takes are overwritten: the manual does not say (DESIGN CHOICE, log entry 133). -/
def windowDone (s : State) : State :=
  match s.tier.windowPending with
  | none => s
  | some w =>
    let n := w.toNat
    if !windowFits s n then s
    else
      let s := dropWindow s
      let s := (List.range (512 * n)).foldl (fun s x => match leafFor s x with
        | some l => storeEntry s x l (windowEntry s n x)
        | none => s) s
      { s with tier := { s.tier with windowSize := w, windowPending := none } }

def execWindowResizeDone (s : State) : Out := .next (windowDone s)

/-- TENANT of GiB g written (R470): its extent entries are rewritten. -/
def writeWindowTenant (s : State) (g v : Nat) : Except Nat State :=
  if s.tier.windowSize.toNat ≤ g then .error 2
  else
    let t := BitVec.ofNat 9 v
    let s := { s with tier := { s.tier with windowTenant := mput 0 s.tier.windowTenant g t } }
    .ok ((List.range 512).foldl (fun s i => setEntry s (512 * g + i) fun e => { e with tenant := t }) s)

def execWindowTenantSet (g : BitVec 8) (value : Word) (s : State) : Out :=
  .next (whenReady s fun s => match writeWindowTenant s g.toNat value.toNat with
    | .ok t => t
    | .error c => refuseAt s c (0x40100 + 4 * g.toNat))

/-! ## Pair (R472) -/

/-- ENABLE 0 to 1: training may start at once, every 100 ms (R369); PREFER and FAILBACK as they stand are in effect. -/
def startPairing (s : State) : State :=
  setPair s fun p => { p with enable := true, linesPinned := true, preferUsed := p.prefer, failbackUsed := p.failback, triedAt := now s - 100000 }

/-- ENABLE 1 to 0: RELINQUISH when UP, the link DOWN, PAIR_SPLIT with cause 0; the module holds no lease by word any more. -/
def endPairing (s : State) : State :=
  let s := setPair (sendRelinquish s) fun p => { p with enable := false, linesPinned := false }
  let s := if linkLive s then s else logSplit s .silence
  let s := enterDown s .silence []
  setPair s fun p => { p with leases := mmap (fun _ l => { l with mine := false, handingOver := false, holdFrom := none }) p.leases }

/-- PAI_CTRL written. -/
def writePairCtrl (s : State) (v : Nat) : Except Nat State :=
  if s.pair.enable && decide (bit v 2 ≠ s.pair.position) then .error 2
  else
    let was := s.pair.enable
    let s := setPair s fun p => { p with position := bit v 2, failback := bit v 1 }
    .ok (if bit v 0 && !was then startPairing s else if !bit v 0 && was then endPairing s else s)

def pairCtrl (s : State) (v : Nat) : State :=
  whenReady s fun s => match writePairCtrl s v with
    | .ok t => t
    | .error c => refuseAt s c 0x60008

def execPairEnable (value : Word) (s : State) : Out := .next (pairCtrl s (value ||| 1).toNat)

def execPairDisable (value : Word) (s : State) : Out := .next (pairCtrl s (value.toNat / 2 * 2))

/-! ## Counters (R474) -/

/-- CNT_CLEAR: every counter of a group. Rates, voltages and RATIO are no counters. -/
def clearGroup (s : State) (g : Nat) : State :=
  match g with
  | 2 => { s with store := { s.store with corrected := [] } }
  | 3 => { s with engines := { s.engines with
      engine := mmap (fun _ x => { x with cntReplays := 0, cntRaised := 0, cntNan := 0, cntFaults := 0 }) s.engines.engine } }
  | 4 => { s with gen := { s.gen with tables := mmap (fun _ r => { r with cntInvalid := 0, cntMissing := 0 }) s.gen.tables } }
  | 5 => { s with shelfSkips := [], shelfCuts := [] }
  | 6 => { s with text := { s.text with cntReplaced := 0, cntJoiners := 0, cntSpecial := 0 } }
  | 7 => { s with host := { s.host with cntTenant := [] } }
  | _ => s

def execCntClear (group : Word) (s : State) : Out := .next (whenReady s fun s => clearGroup s group.toNat)

/-- The counter that function fn reads at an offset aligned to 8: its own CNT_TENANT block, or for PF0 any. -/
def counterFor (s : State) (fn : Tenant) (off : Nat) : Option Nat :=
  match layoutOff fn off with
  | some o => if 0x2000 ≤ o ∧ o < 0x2040 then tenantCounter s fn.toNat (o - 0x2000) else none
  | none => if fn = 0 then counterAt s off else none

/-- A register read of 4 or 8 bytes. The low half of a counter latches its high half for the function (R474). An unlisted, unaligned or
wrongly sized read returns zero (R462). -/
def readRegister (s : State) (fn : Tenant) (off size : Nat) : State :=
  let answer := fun (s : State) (v : Nat) => emit s (.regRead fn off (BitVec.ofNat 64 v))
  if !barReady s then s
  else if (size ≠ 4 ∧ size ≠ 8) ∨ off % size ≠ 0 then answer (badAccess s fn off) 0
  else match counterFor s fn (off / 8 * 8) with
    | some c =>
      let k := latchKey fn (off / 8 * 8)
      if size = 8 then answer s c
      else if off % 8 = 0 then answer { s with host := { s.host with latched := mins s.host.latched k (wordOf c 1) } } (c % 2 ^ 32)
      else match mfind s.host.latched k with
        | some h => answer { s with host := { s.host with latched := mdel s.host.latched k } } h.toNat
        | none => answer s (c / 2 ^ 32)
    | none => match readWord s fn off, (if size = 8 then readWord s fn (off + 4) else some 0) with
      | some l, some h => answer s (l.toNat + 2 ^ 32 * h.toNat)
      | _, _ => answer (badAccess s fn off) 0

def execCounterLowRead (fn : Tenant) (off size : Nat) (s : State) : Out := .next (readRegister s fn off size)

/-! ## Writes of plain registers (R462, R463, R469, R471 to R473) -/

/-- Tenant parameters changed by the holder go to the partner (R373). -/
def mirrorTenant (s : State) (n : Tenant) : State :=
  let t := tenOf s n
  if (leaseOf s n).mine then mirrorConfigOut s n (.tenant t.weight t.maxSlots t.serve) else s

/-- A word of a partition's registers. -/
def writePartReg (s : State) (p : PartId) (r v : Nat) : Except Nat State :=
  match r with
  | 0x00 | 0x14 => .ok s
  | 0x04 => if v ≤ 1000000 then .ok (setPart s p fun q => { q with stepLimit := w32 v }) else .error 1
  | 0x08 =>
    let n := bits v 14 0
    if 16384 < n then .error 1
    else if n < hotTilesOf s p then .error 2
    else .ok (setPart s p fun q => { q with hotBudget := BitVec.ofNat 15 n })
  | 0x0C =>
    let n := bits v 9 0
    if 1 ≤ n ∧ n ≤ 600 then .ok (setPart s p fun q => { q with refresh := BitVec.ofNat 10 n }) else .error 1
  | 0x10 => if 10 ≤ v ∧ v ≤ 60000 then .ok (setPart s p fun q => { q with watchdog := w32 v }) else .error 1
  | _ => .error 3

/-- A word of a tenant's registers. -/
def writeTenReg (s : State) (n : Tenant) (r v : Nat) : Except Nat State :=
  match r with
  | 0 =>
    let m := bits v 26 16
    let w := bits v 6 0
    if 1024 < m ∨ 64 < w then .error 1
    else .ok (mirrorTenant (setTen s n fun t => { t with maxSlots := BitVec.ofNat 11 m, weight := BitVec.ofNat 7 w }) n)
  | 4 => .ok (mirrorTenant (setTen s n fun t => { t with serve := w32 v }) n)
  | _ => .error 3

/-- A word of the partition region. -/
def writePrt (s : State) (off v : Nat) : Except Nat State :=
  if off = 0x30000 then .ok { s with gen := { s.gen with cfgErr := cfgClear s.gen.cfgErr (w32 v) } }
  else if off = 0x30008 then
    if 256 ≤ bits v 15 0 ∧ bits v 15 0 ≤ 8192 then
      .ok { s with engines := { s.engines with holdGap := BitVec.ofNat 16 (bits v 31 16), holdSlope := BitVec.ofNat 16 (bits v 15 0) } }
    else .error 1
  else if off = 0x3000C then
    if 1 ≤ bits v 7 0 ∧ bits v 7 0 ≤ 168 then .ok { s with gen := { s.gen with testInterval := BitVec.ofNat 8 v } } else .error 1
  else if off = 0x30010 then
    if 1 ≤ bits v 25 16 ∧ bits v 25 16 ≤ 600 ∧ 1025 ≤ bits v 15 0 then
      .ok { s with gen := { s.gen with slowWindows := BitVec.ofNat 10 (bits v 25 16), slowThreshold := BitVec.ofNat 16 (bits v 15 0) } }
    else .error 1
  else if 0x30100 ≤ off ∧ off < 0x30500 then writePartReg s (BitVec.ofNat 5 ((off - 0x30100) / 0x20)) (off % 0x20) v
  else if 0x31000 ≤ off ∧ off < 0x33000 then writeTenReg s (BitVec.ofNat 9 ((off - 0x31000) / 0x10)) (off % 0x10) v
  else .error 3

/-- A word of the tier region. -/
def writeTir (s : State) (off v : Nat) : Except Nat State :=
  if off = 0x40000 then .ok { s with tier := { s.tier with cfgErr := cfgClear s.tier.cfgErr (w32 v) } }
  else if off = 0x40008 then
    if 100 ≤ v ∧ v ≤ 60000 then .ok { s with tier := { s.tier with wbInterval := w32 v } } else .error 1
  else if off = 0x4000C then writeWindow s v
  else if off = 0x40010 then .ok s
  else if 0x40100 ≤ off ∧ off < 0x40500 then writeWindowTenant s ((off - 0x40100) / 4) v
  else .error 3

/-- A word of the text region: REMOVE and INSTALL of one write act in this order. -/
def writeTxt (s : State) (off v : Nat) : Except Nat State :=
  if off = 0x50000 then .ok { s with text := { s.text with cfgErr := cfgClear s.text.cfgErr (w32 v) } }
  else if 0x50010 ≤ off ∧ off < 0x50050 ∧ off % 0x10 = 8 then
    let k := BitVec.ofNat 2 ((off - 0x50010) / 0x10)
    let s := if bit v 3 then tokRemove s k else s
    .ok (if bit v 2 then tokInstall s k else s)
  else .error 3

/-- A word of the pair region. -/
def writePai (s : State) (off v : Nat) : Except Nat State :=
  if off = 0x60000 then .ok { s with pair := { s.pair with cfgErr := cfgClear s.pair.cfgErr (w32 v) } }
  else if off = 0x60008 then writePairCtrl s v
  else if off = 0x6000C then if s.pair.enable then .error 2 else .ok (setPair s fun p => { p with pairId := BitVec.ofNat 16 v })
  else if off = 0x60010 then
    let n := bits v 6 0
    if n = 0 ∨ 64 < n then .error 1
    else if s.pair.enable || anyLoaded s then .error 2 else .ok (setPair s fun p => { p with journalGib := BitVec.ofNat 7 n })
  else if off = 0x60014 then
    let n := bits v 6 0
    if n = 0 ∨ 100 < n then .error 1 else .ok (setPair s fun p => { p with mirrorTimeout := BitVec.ofNat 7 n })
  else if off = 0x60020 then .ok s
  else if 0x60100 ≤ off ∧ off < 0x60140 then .ok (setPair s fun p => { p with prefer := mput 0 p.prefer ((off - 0x60100) / 4) (w32 v) })
  else .error 3

/-- The word at off is one that R473 discards while EXEC is 1. -/
def mailboxLocks (s : State) (off : Nat) : Bool :=
  s.bureau.mbExec && decide (off = 0x70000 ∨ off = 0x70004 ∨ off = 0x70008 ∨ (0x71000 ≤ off ∧ off < 0x72000))

/-- A word of the mailbox region (Table 20.15, R473). -/
def writeBur (s : State) (off v : Nat) : Except Nat State :=
  let b := s.bureau
  if off = 0x70000 then .ok { s with bureau := { b with mbSub := BitVec.ofNat 8 (bits v 23 16), mbCode := BitVec.ofNat 8 v } }
  else if off = 0x70004 then
    if bits v 12 0 ≤ 4096 then .ok { s with bureau := { b with mbLen := BitVec.ofNat 13 v } } else .error 1
  else if off = 0x70008 then .ok (if bit v 0 then { s with bureau := { b with mbExec := true, mbDiscards := 0 } } else s)
  else if off = 0x7000C ∨ off = 0x70010 then .ok s
  else if off = 0x70014 then .ok { s with bureau := { b with mbIrqEn := bit v 7, mbVector := BitVec.ofNat 4 v } }
  else if 0x71000 ≤ off ∧ off < 0x72000 then
    .ok { s with bureau := { b with mbData := ((toLE 4 v).zipIdx).foldl (fun m x => mput 0 m (off - 0x71000 + x.2) x.1) b.mbData } }
  else .error 3

/-- A word of an MSI-X table entry; clearing the mask sends a pending message (R287). -/
def writeMsix (s : State) (fn : Tenant) (v : BitVec 4) (r x : Nat) : State :=
  match r with
  | 0 => setVec s fn v fun y => { y with msgAddr := BitVec.ofNat 64 (y.msgAddr.toNat / 2 ^ 32 * 2 ^ 32 + x) }
  | 4 => setVec s fn v fun y => { y with msgAddr := BitVec.ofNat 64 (y.msgAddr.toNat % 2 ^ 32 + x * 2 ^ 32) }
  | 8 => setVec s fn v fun y => { y with msgData := w32 x }
  | _ => if bit x 0 then setVec s fn v fun y => { y with masked := true } else vectorUnmask s fn v

/-- A word of the function layout (Table 20.4). -/
def writeLayout (s : State) (fn : Tenant) (o v : Nat) : Except Nat State :=
  if o < 0x200 then
    let q := BitVec.ofNat 3 (o / 0x40)
    match o % 0x40 with
    | 0x18 => .ok (writeCtrl s fn q (w32 v) none)
    | 0x1C => .ok (writeQpSize s fn q v)
    | 0x20 | 0x24 | 0x28 => .ok s
    | _ => .error 3
  else if o = 0x200 then .ok { s with host := { s.host with eventQp := mput 0 s.host.eventQp fn.toNat (BitVec.ofNat 3 (bits v 18 16)) } }
  else if 0x300 ≤ o ∧ o < 0x340 then
    .ok (setVec s fn (BitVec.ofNat 4 ((o - 0x300) / 4)) fun y => { y with time := BitVec.ofNat 16 (bits v 31 16), countM1 := BitVec.ofNat 8 v })
  else if 0x1000 ≤ o ∧ o < 0x1100 then .ok (writeMsix s fn (BitVec.ofNat 4 ((o - 0x1000) / 16)) (o % 16) v)
  else if (0x1800 ≤ o ∧ o < 0x1808) ∨ (0x2000 ≤ o ∧ o < 0x2038) then .ok s
  else .error 3

/-- A word at a PF0 offset outside the function layout; identity, capability, host status and counters are read-only (R9). -/
def writeModule (s : State) (off v : Nat) : Except Nat State :=
  match off / 2 ^ 16 with
  | 3 => writePrt s off v
  | 4 => writeTir s off v
  | 5 => writeTxt s off v
  | 6 => writePai s off v
  | 7 => writeBur s off v
  | _ => if off = 0x80000 then .ok (clearGroup s v)
         else if (moduleWord s off).isSome ∨ (0x21000 ≤ off ∧ off < 0x30000) then .ok s else .error 3

/-- What a write leads to: its effect, or a refusal recorded (R463). -/
def settleWrite (s : State) (fn : Tenant) (off : Nat) : Except Nat State → State
  | .ok t => t
  | .error 3 => badAccess s fn off
  | .error c => if fn = 0 then refuseAt s c off else s

/-- A word written by function fn. -/
def writeWord (s : State) (fn : Tenant) (off v : Nat) : State :=
  settleWrite s fn off (match layoutOff fn off with
    | some o => writeLayout s fn o v
    | none => if fn = 0 then writeModule s off v else .error 3)

/-- A 64-bit register starts at the offset (R462). -/
def isWide (fn : Tenant) (off : Nat) : Bool :=
  match layoutOff fn off with
  | some o => decide (o < 0x200 ∧ (o % 0x40 = 0 ∨ o % 0x40 = 8 ∨ o % 0x40 = 0x10))
  | none => decide (fn = 0) && decide (off = 0x60018 ∨ (0x50010 ≤ off ∧ off < 0x50050 ∧ off % 0x10 = 0)
      ∨ (0x31000 ≤ off ∧ off < 0x33000 ∧ off % 0x10 = 8))

/-- A 64-bit register of PF0 outside the function layout. -/
def writeModuleWide (s : State) (off v : Nat) : Except Nat State :=
  if off = 0x60018 then
    if s.pair.enable then .error 2 else .ok (setPair s fun p => { p with leaseBase := BitVec.ofNat 64 (v / 4096 * 4096) })
  else if off < 0x50000 then
    let b := bits v 47 0
    if b % 2 ^ 14 ≠ 0 then .error 1
    else .ok (setTen s (BitVec.ofNat 9 ((off - 0x31000) / 0x10)) fun t => { t with templateBase := BitVec.ofNat 48 b })
  else
    let k := BitVec.ofNat 2 ((off - 0x50010) / 0x10)
    let t := setOf s k
    if t.state = .empty || t.state = .refused then .ok (putSet s k { t with base := BitVec.ofNat 48 v }) else .error 2

/-- A 64-bit register written whole. -/
def writeWide (s : State) (fn : Tenant) (off v : Nat) : State :=
  match layoutOff fn off with
  | some o => writeQpWide s fn (BitVec.ofNat 3 (o / 0x40)) (o % 0x40) v
  | none => settleWrite s fn off (writeModuleWide s off v)

/-- The high half of a 64-bit register, with the low half written before or, without one, as it stands (R462). -/
def writeHigh (s : State) (fn : Tenant) (off v : Nat) : State :=
  let k := latchKey fn off
  let low := ((mfind s.host.halves k).getD ((readWord s fn off).getD 0)).toNat
  writeWide { s with host := { s.host with halves := mdel s.host.halves k } } fn off (low + 2 ^ 32 * v)

/-- One word of a write: half of a 64-bit register, or a 32-bit register. -/
def writeHalf (s : State) (fn : Tenant) (off v : Nat) : State :=
  if isWide fn off then { s with host := { s.host with halves := mins s.host.halves (latchKey fn off) (w32 v) } }
  else if 4 ≤ off ∧ isWide fn (off - 4) then writeHigh s fn (off - 4) v
  else writeWord s fn off v

/-- In recovery BAR0 holds the recovery mailbox alone (R437). -/
def listedInRecovery (fn : Tenant) (off : Nat) : Bool := decide (fn = 0) && decide (0x70000 ≤ off ∧ off < 0x72000)

/-- REGISTER_WRITE (R462, R463, R473): a write of 4 or 8 bytes; 8 bytes over two 32-bit registers are two writes, low offset first. An offset of
the interrupt controller stands for a write by a core of the Bureau, and the value's upper half for the edges of the same cycle (R415, log
entry 139). -/
def registerWrite (s : State) (fn : Tenant) (off size : Nat) (value : BitVec 64) : State :=
  let lo := value.toNat % 2 ^ 32
  let hi := value.toNat / 2 ^ 32
  if icBase ≤ off then writeIc s (off - icBase) lo hi
  else if !barReady s then s
  else if (size ≠ 4 ∧ size ≠ 8) ∨ off % size ≠ 0 ∨ (s.bureau.recovery ∧ !listedInRecovery fn off) then badAccess s fn off
  else if fn = 0 ∧ (mailboxLocks s off ∨ (size = 8 ∧ mailboxLocks s (off + 4))) then
    { s with bureau := { s.bureau with mbDiscards := BitVec.ofNat 4 (min 15 (s.bureau.mbDiscards.toNat + 1)) } }
  else if size = 4 then writeHalf s fn off lo
  else if isWide fn off then writeWide s fn off value.toNat
  else writeHalf (writeHalf s fn off lo) fn (off + 4) hi

def execRegisterWrite (fn : Tenant) (off size : Nat) (value : BitVec 64) (s : State) : Out := .next (registerWrite s fn off size value)

end Sys2Proof.Machine
end

