-- ==== Sys2Proof/Machine/Dispatch.lean ====
section
/-! DEFINITION. What each command does: one arm per command, one meaning per arm. -/

namespace Sys2Proof.Machine

/-- The effect of a command on everything but the queue. -/
def exec (i : Instr) (s : State) : Host.Outcome State Fault Refusal :=
  match i with
  | .dieLinkFlitReceive l f => Sys2Proof.Machine.execDieLinkFlitReceive l f s
  | .ackOnlyFlit l => Sys2Proof.Machine.execAckOnlyFlit l s
  | .linkReinitialise l => Sys2Proof.Machine.execLinkReinitialise l s
  | .linkReinitDone l => Sys2Proof.Machine.execLinkReinitDone l s
  | .linkFailed l => Sys2Proof.Machine.execLinkFailed l s
  | .hubFlitGrant hub out => Sys2Proof.Machine.execHubFlitGrant hub out s
  | .controlRingHop hub m crcOk => Sys2Proof.Machine.execControlRingHop hub m crcOk s
  | .subscribe b t => Sys2Proof.Machine.execSubscribe b t s
  | .unsubscribe b t => Sys2Proof.Machine.execUnsubscribe b t s
  | .readyNotice b t => Sys2Proof.Machine.execReadyNotice b t s
  | .fenceReq issuer die => Sys2Proof.Machine.execFenceReq issuer die s
  | .fenceMarkerAnswer issuer die link store => Sys2Proof.Machine.execFenceMarkerAnswer issuer die link store s
  | .fenceDone issuer die reset => Sys2Proof.Machine.execFenceDone issuer die reset s
  | .quiesceReq b => Sys2Proof.Machine.execQuiesceReq b s
  | .blockQuiet b => Sys2Proof.Machine.execBlockQuiet b s
  | .quiesceDone b => Sys2Proof.Machine.execQuiesceDone b s
  | .quiesceTimeout b => Sys2Proof.Machine.execQuiesceTimeout b s
  | .commitNotice p e => Sys2Proof.Machine.execCommitNotice p e s
  | .retractNotice p e => Sys2Proof.Machine.execRetractNotice p e s
  | .resetRelease d quiet => Sys2Proof.Machine.execResetRelease d quiet s
  | .rateSample d readings => Sys2Proof.Machine.execRateSample d readings s
  | .refclkLoss => Sys2Proof.Machine.execRefclkLoss s
  | .refclkReturn => Sys2Proof.Machine.execRefclkReturn s
  | .storeRead rq ups => Sys2Proof.Machine.execStoreRead rq ups s
  | .storeReadHeader rq ups => Sys2Proof.Machine.execStoreReadHeader rq ups s
  | .storeFree rq => Sys2Proof.Machine.execStoreFree rq s
  | .storeScrub t ups => Sys2Proof.Machine.execStoreScrub t ups s
  | .storeWriteHeader src tag t hdr world => Sys2Proof.Machine.execStoreWriteHeader src tag t hdr world s
  | .storeWritePayload src tag k data => Sys2Proof.Machine.execStoreWritePayload src tag k data s
  | .scrubPaceTick => Sys2Proof.Machine.execScrubPaceTick s
  | .storeZeroFillDone st => Sys2Proof.Machine.execStoreZeroFillDone st s
  | .tierWriteTile rq x t tile => Sys2Proof.Machine.execTierWriteTile rq x t tile s
  | .tierWriteUnblocked j => Sys2Proof.Machine.execTierWriteUnblocked j s
  | .tierReadTile rq x t dest fault => Sys2Proof.Machine.execTierReadTile rq x t dest fault s
  | .writeBack x t fault => Sys2Proof.Machine.execWriteBack x t fault s
  | .migrateRoStart x tier loc => Sys2Proof.Machine.execMigrateRoStart x tier loc s
  | .migrateRoSwitch x => Sys2Proof.Machine.execMigrateRoSwitch x s
  | .migrateRoDrainEnd x => Sys2Proof.Machine.execMigrateRoDrainEnd x s
  | .migrateStart x tier loc => Sys2Proof.Machine.execMigrateStart x tier loc s
  | .migrateTileCopy x => Sys2Proof.Machine.execMigrateTileCopy x s
  | .mr4Poll pkg temp refresh hot => Sys2Proof.Machine.execMr4Poll pkg temp refresh hot s
  | .wckOscCheck sub drift => Sys2Proof.Machine.execWckOscCheck sub drift s
  | .subchannelRetrainDone sub => Sys2Proof.Machine.execSubchannelRetrainDone sub s
  | .lpddr6TrainingDone mts => Sys2Proof.Machine.execLpddr6TrainingDone mts s
  | .streamTileWrite p fault => Sys2Proof.Machine.execStreamTileWrite p fault s
  | .streamSlotPoll p => Sys2Proof.Machine.execStreamSlotPoll p s
  | .refetchReadback x t ok => Sys2Proof.Machine.execRefetchReadback x t ok s
  | .deepShapeMatmul m => Sys2Proof.Machine.execDeepShapeMatmul m s
  | .wideShapeMatmul m => Sys2Proof.Machine.execWideShapeMatmul m s
  | .convolution c => Sys2Proof.Machine.execConvolution c s
  | .conversionRead c => Sys2Proof.Machine.execConversionRead c s
  | .anchorRetryDone c => Sys2Proof.Machine.execAnchorRetryDone c s
  | .activityHoldExpiry e target => Sys2Proof.Machine.execActivityHoldExpiry e target s
  | .activityLevelStep e => Sys2Proof.Machine.execActivityLevelStep e s
  | .vectorOp v => Sys2Proof.Machine.execVectorOp v s
  | .mxQuantise v fmt scaleDst => Sys2Proof.Machine.execMxQuantise v fmt scaleDst s
  | .reduction v kind => Sys2Proof.Machine.execReduction v kind s
  | .rotaryEncoding v cosReg sinReg half => Sys2Proof.Machine.execRotaryEncoding v cosReg sinReg half s
  | .normalisation v layer eps gain bias => Sys2Proof.Machine.execNormalisation v layer eps gain bias s
  | .selectExact e p input out => Sys2Proof.Machine.execSelectExact e p input out s
  | .selectBucket e p input out => Sys2Proof.Machine.execSelectBucket e p input out s
  | .selectMerge e p inputs bucket out => Sys2Proof.Machine.execSelectMerge e p inputs bucket out s
  | .mergeStart m expected => Sys2Proof.Machine.execMergeStart m expected s
  | .mergeSlotPublish slot line visible => Sys2Proof.Machine.execMergeSlotPublish slot line visible s
  | .readyLineInvalidation m src => Sys2Proof.Machine.execReadyLineInvalidation m src s
  | .readyLineReread m src owner t line tile => Sys2Proof.Machine.execReadyLineReread m src owner t line tile s
  | .walkStart h => Sys2Proof.Machine.execWalkStart h s
  | .walkRoundEnd h => Sys2Proof.Machine.execWalkRoundEnd h s
  | .scanIssue h => Sys2Proof.Machine.execScanIssue h s
  | .shelfUnitArrive h probe unit ok => Sys2Proof.Machine.execShelfUnitArrive h probe unit ok s
  | .chainTileArrive h probe tile => Sys2Proof.Machine.execChainTileArrive h probe tile s
  | .scanBudgetExpired h => Sys2Proof.Machine.execScanBudgetExpired h s
  | .retrievalSoftDeadline h => Sys2Proof.Machine.execRetrievalSoftDeadline h s
  | .scanCut h shelf => Sys2Proof.Machine.execScanCut h shelf s
  | .shelfScanEnd h shelf => Sys2Proof.Machine.execShelfScanEnd h shelf s
  | .candidateMerge h => Sys2Proof.Machine.execCandidateMerge h s
  | .passageFetch h => Sys2Proof.Machine.execPassageFetch h s
  | .passageUnitArrive h cand ok => Sys2Proof.Machine.execPassageUnitArrive h cand ok s
  | .fetchBudgetExpired h => Sys2Proof.Machine.execFetchBudgetExpired h s
  | .rerankStart h => Sys2Proof.Machine.execRerankStart h s
  | .rerankEnd h => Sys2Proof.Machine.execRerankEnd h s
  | .packStart h => Sys2Proof.Machine.execPackStart h s
  | .promptReady h ok => Sys2Proof.Machine.execPromptReady h ok s
  | .checkRecordWrite c outs => Sys2Proof.Machine.execCheckRecordWrite c outs s
  | .stepBoundary p lost => Sys2Proof.Machine.execStepBoundary p lost s
  | .engineContextSwitch e lend => Sys2Proof.Machine.execEngineContextSwitch e lend s
  | .kvPageWrite p slot page rows => Sys2Proof.Machine.execKvPageWrite p slot page rows s
  | .attentionPagePartial a => Sys2Proof.Machine.execAttentionPagePartial a s
  | .sampleToken p slot draft logits fault => Sys2Proof.Machine.execSampleToken p slot draft logits fault s
  | .drawPortServe p => Sys2Proof.Machine.execDrawPortServe p s
  | .grammarMaskRequest p slot => Sys2Proof.Machine.execGrammarMaskRequest p slot s
  | .stopReport p slot pos e => Sys2Proof.Machine.execStopReport p slot pos e s
  | .matched p e => Sys2Proof.Machine.execMatched p e s
  | .interferenceWindowClose => Sys2Proof.Machine.execInterferenceWindowClose s
  | .tokenizerInstall k => Sys2Proof.Machine.execTokenizerInstall k s
  | .tokenizerCheckDone k => Sys2Proof.Machine.execTokenizerCheckDone k s
  | .tokenizerRemove k => Sys2Proof.Machine.execTokenizerRemove k s
  | .committedTokensReceive p slot mismatch => Sys2Proof.Machine.execCommittedTokensReceive p slot mismatch s
  | .slotFinalRelease p slot => Sys2Proof.Machine.execSlotFinalRelease p slot s
  | .tableRefresh t => Sys2Proof.Machine.execTableRefresh t s
  | .hostLinkTraining width gts latOpt => Sys2Proof.Machine.execHostLinkTraining width gts latOpt s
  | .doorbellInvalidation fn q => Sys2Proof.Machine.execDoorbellInvalidation fn q s
  | .doorbellRereadReturn fn q line descs => Sys2Proof.Machine.execDoorbellRereadReturn fn q line descs s
  | .atsInvalidation fn page => Sys2Proof.Machine.execAtsInvalidation fn page s
  | .hostWindowRead addr cached fault => Sys2Proof.Machine.execHostWindowRead addr cached fault s
  | .hostWindowWrite addr data => Sys2Proof.Machine.execHostWindowWrite addr data s
  | .backInvalidateResponse line => Sys2Proof.Machine.execBackInvalidateResponse line s
  | .completionPost fn q ringOk bad => Sys2Proof.Machine.execCompletionPost fn q ringOk bad s
  | .msixTimeExpiry fn v => Sys2Proof.Machine.execMsixTimeExpiry fn v s
  | .cxlHotReset => Sys2Proof.Machine.execCxlHotReset s
  | .functionLevelReset fn => Sys2Proof.Machine.execFunctionLevelReset fn s
  | .nop fn q v => Sys2Proof.Machine.execNop fn q v s
  | .turn fn q v => Sys2Proof.Machine.execTurn fn q v s
  | .textAppend fn q v => Sys2Proof.Machine.execTextAppend fn q v s
  | .turnEndDeadline h => Sys2Proof.Machine.execTurnEndDeadline h s
  | .embed fn q v => Sys2Proof.Machine.execEmbed fn q v s
  | .search fn q v => Sys2Proof.Machine.execSearch fn q v s
  | .rerank fn q v => Sys2Proof.Machine.execRerank fn q v s
  | .generate fn q v => Sys2Proof.Machine.execGenerate fn q v s
  | .tokenize fn q v => Sys2Proof.Machine.execTokenize fn q v s
  | .detokenize fn q v => Sys2Proof.Machine.execDetokenize fn q v s
  | .indexInsert fn q v => Sys2Proof.Machine.execIndexInsert fn q v s
  | .indexPatch fn q v => Sys2Proof.Machine.execIndexPatch fn q v s
  | .indexDelete fn q v => Sys2Proof.Machine.execIndexDelete fn q v s
  | .rowLookup fn q v => Sys2Proof.Machine.execRowLookup fn q v s
  | .rowUpdate fn q v => Sys2Proof.Machine.execRowUpdate fn q v s
  | .loadExtent fn q v => Sys2Proof.Machine.execLoadExtent fn q v s
  | .adapterLoad fn q v => Sys2Proof.Machine.execAdapterLoad fn q v s
  | .grammarLoad fn q v => Sys2Proof.Machine.execGrammarLoad fn q v s
  | .programLoad fn q v sec => Sys2Proof.Machine.execProgramLoad fn q v sec s
  | .programReplaceSwitch p => Sys2Proof.Machine.execProgramReplaceSwitch p s
  | .programUnload fn q v => Sys2Proof.Machine.execProgramUnload fn q v s
  | .partitionUnloadDone p => Sys2Proof.Machine.execPartitionUnloadDone p s
  | .cancel fn q v => Sys2Proof.Machine.execCancel fn q v s
  | .fence fn q v => Sys2Proof.Machine.execFence fn q v s
  | .fenceComplete h descs => Sys2Proof.Machine.execFenceComplete h descs s
  | .worldMapWrite b secure => Sys2Proof.Machine.execWorldMapWrite b secure s
  | .stepWatchdogExpiry p hung => Sys2Proof.Machine.execStepWatchdogExpiry p hung s
  | .fieldTestDue e => Sys2Proof.Machine.execFieldTestDue e s
  | .fieldTestDeferralEnd e => Sys2Proof.Machine.execFieldTestDeferralEnd e s
  | .fieldTestComplete e mechanism => Sys2Proof.Machine.execFieldTestComplete e mechanism s
  | .setteeFrameReceive f => Sys2Proof.Machine.execSetteeFrameReceive f s
  | .setteeEmptyFrame => Sys2Proof.Machine.execSetteeEmptyFrame s
  | .setteeRealign swaps => Sys2Proof.Machine.execSetteeRealign swaps s
  | .setteeSilence swaps => Sys2Proof.Machine.execSetteeSilence swaps s
  | .setteeTrainAttempt ok => Sys2Proof.Machine.execSetteeTrainAttempt ok s
  | .ident k => Sys2Proof.Machine.execIdent k s
  | .mirrorIndex m body => Sys2Proof.Machine.execMirrorIndex m body s
  | .mirrorRows m body => Sys2Proof.Machine.execMirrorRows m body s
  | .mirrorAdapter m body => Sys2Proof.Machine.execMirrorAdapter m body s
  | .mirrorConfig m body => Sys2Proof.Machine.execMirrorConfig m body s
  | .mirrorAck m swaps => Sys2Proof.Machine.execMirrorAck m swaps s
  | .mirrorTimeout jseq swaps => Sys2Proof.Machine.execMirrorTimeout jseq swaps s
  | .forward m body => Sys2Proof.Machine.execForward m body s
  | .forwardDone m body => Sys2Proof.Machine.execForwardDone m body s
  | .turnDesc m body => Sys2Proof.Machine.execTurnDesc m body s
  | .turnText m body => Sys2Proof.Machine.execTurnText m body s
  | .turnSnap m => Sys2Proof.Machine.execTurnSnap m s
  | .turnDone m => Sys2Proof.Machine.execTurnDone m s
  | .remoteTile m body t => Sys2Proof.Machine.execRemoteTile m body t s
  | .commit m => Sys2Proof.Machine.execCommit m s
  | .retract m => Sys2Proof.Machine.execRetract m s
  | .mirrorRead m body => Sys2Proof.Machine.execMirrorRead m body s
  | .mirrorData m addr body => Sys2Proof.Machine.execMirrorData m addr body s
  | .journalReq m swaps => Sys2Proof.Machine.execJournalReq m swaps s
  | .handover m => Sys2Proof.Machine.execHandover m s
  | .relinquish m swaps unmapped => Sys2Proof.Machine.execRelinquish m swaps unmapped s
  | .leaseLineInvalidation n word => Sys2Proof.Machine.execLeaseLineInvalidation n word s
  | .leaseRenew n swapOk => Sys2Proof.Machine.execLeaseRenew n swapOk s
  | .leaseExpiryTake n swapOk unmapped => Sys2Proof.Machine.execLeaseExpiryTake n swapOk unmapped s
  | .leaseRenewLapse n => Sys2Proof.Machine.execLeaseRenewLapse n s
  | .failbackHandover n swapOk => Sys2Proof.Machine.execFailbackHandover n swapOk s
  | .mapPortLookup unit => Sys2Proof.Machine.execMapPortLookup unit s
  | .flashProgramDone k ok => Sys2Proof.Machine.execFlashProgramDone k ok s
  | .flashReadDone unit r => Sys2Proof.Machine.execFlashReadDone unit r s
  | .journalFlush => Sys2Proof.Machine.execJournalFlush s
  | .mapImageSegment => Sys2Proof.Machine.execMapImageSegment s
  | .groupReadbackDone g bad => Sys2Proof.Machine.execGroupReadbackDone g bad s
  | .blockRewrite chan die block => Sys2Proof.Machine.execBlockRewrite chan die block s
  | .wearLevelMove chan col => Sys2Proof.Machine.execWearLevelMove chan col s
  | .garbageCollect chan die => Sys2Proof.Machine.execGarbageCollect chan die s
  | .blockErase chan die block => Sys2Proof.Machine.execBlockErase chan die block s
  | .ftlColdRebuild ms => Sys2Proof.Machine.execFtlColdRebuild ms s
  | .ftlWarmRebuild bad ms => Sys2Proof.Machine.execFtlWarmRebuild bad ms s
  | .watchdogStage1 core => Sys2Proof.Machine.execWatchdogStage1 core s
  | .watchdogStage2 core => Sys2Proof.Machine.execWatchdogStage2 core s
  | .icSourceFiltered n level => Sys2Proof.Machine.execIcSourceFiltered n level s
  | .icClaimRead t => Sys2Proof.Machine.execIcClaimRead t s
  | .icComplete t n => Sys2Proof.Machine.execIcComplete t n s
  | .controlLoopTick l => Sys2Proof.Machine.execControlLoopTick l s
  | .rateFloorUnheld d => Sys2Proof.Machine.execRateFloorUnheld d s
  | .powerCapUnmet power => Sys2Proof.Machine.execPowerCapUnmet power s
  | .thermalLimit d temp => Sys2Proof.Machine.execThermalLimit d temp s
  | .eventTokenRefill code => Sys2Proof.Machine.execEventTokenRefill code s
  | .eventStageFlush => Sys2Proof.Machine.execEventStageFlush s
  | .extentMap x e => Sys2Proof.Machine.execExtentMap x e s
  | .extentUnmap x => Sys2Proof.Machine.execExtentUnmap x s
  | .extentSet x e => Sys2Proof.Machine.execExtentSet x e s
  | .indexCreate n r => Sys2Proof.Machine.execIndexCreate n r s
  | .indexDestroy n => Sys2Proof.Machine.execIndexDestroy n s
  | .tableCreate n r => Sys2Proof.Machine.execTableCreate n r s
  | .tableDestroy n => Sys2Proof.Machine.execTableDestroy n s
  | .tenantRemove n => Sys2Proof.Machine.execTenantRemove n s
  | .quiesce b => Sys2Proof.Machine.execQuiesce b s
  | .blockReset b => Sys2Proof.Machine.execBlockReset b s
  | .readCounters mctp => Sys2Proof.Machine.execReadCounters mctp s
  | .setUtc mctp off => Sys2Proof.Machine.execSetUtc mctp off s
  | .readSlot p slot => Sys2Proof.Machine.execReadSlot p slot s
  | .readCapability e => Sys2Proof.Machine.execReadCapability e s
  | .pairTakeover swaps unmapped => Sys2Proof.Machine.execPairTakeover swaps unmapped s
  | .pairHandover mask swaps => Sys2Proof.Machine.execPairHandover mask swaps s
  | .soloClear n => Sys2Proof.Machine.execSoloClear n s
  | .setLimits mctp l => Sys2Proof.Machine.execSetLimits mctp l s
  | .eventRead mctp first start count => Sys2Proof.Machine.execEventRead mctp first start count s
  | .eventClear mctp => Sys2Proof.Machine.execEventClear mctp s
  | .faultRead mctp start count => Sys2Proof.Machine.execFaultRead mctp start count s
  | .attest mctp nonce => Sys2Proof.Machine.execAttest mctp nonce s
  | .certRead mctp => Sys2Proof.Machine.execCertRead mctp s
  | .fwSchedule mctp utc => Sys2Proof.Machine.execFwSchedule mctp utc s
  | .fwCancel mctp => Sys2Proof.Machine.execFwCancel mctp s
  | .fwCommit mctp => Sys2Proof.Machine.execFwCommit mctp s
  | .status mctp ticket => Sys2Proof.Machine.execStatus mctp ticket s
  | .mailboxBackgroundDone ticket => Sys2Proof.Machine.execMailboxBackgroundDone ticket s
  | .mctpControl req => Sys2Proof.Machine.execMctpControl req s
  | .pldmPlatformRequest sensor => Sys2Proof.Machine.execPldmPlatformRequest sensor s
  | .fwDataChunk k data verdict revoke => Sys2Proof.Machine.execFwDataChunk k data verdict revoke s
  | .activateFirmware => Sys2Proof.Machine.execActivateFirmware s
  | .fwPending => Sys2Proof.Machine.execFwPending s
  | .fwActivation => Sys2Proof.Machine.execFwActivation s
  | .drainEnd => Sys2Proof.Machine.execDrainEnd s
  | .fwPairActivation => Sys2Proof.Machine.execFwPairActivation s
  | .fwActivationHeld => Sys2Proof.Machine.execFwActivationHeld s
  | .bootOk => Sys2Proof.Machine.execBootOk s
  | .bootTimeout => Sys2Proof.Machine.execBootTimeout s
  | .recoveryWrite mctp off data => Sys2Proof.Machine.execRecoveryWrite mctp off data s
  | .recoveryStatus mctp => Sys2Proof.Machine.execRecoveryStatus mctp s
  | .recoveryBoot mctp svn keySlot verdict => Sys2Proof.Machine.execRecoveryBoot mctp svn keySlot verdict s
  | .powerOn mv seed => Sys2Proof.Machine.execPowerOn mv seed s
  | .domainPowerUp => Sys2Proof.Machine.execDomainPowerUp s
  | .pinConfigure => Sys2Proof.Machine.execPinConfigure s
  | .releaseChainStep r => Sys2Proof.Machine.execReleaseChainStep r s
  | .inputLow mv ms => Sys2Proof.Machine.execInputLow mv ms s
  | .inputHigh mv ms => Sys2Proof.Machine.execInputHigh mv ms s
  | .overvoltageStop mv => Sys2Proof.Machine.execOvervoltageStop mv s
  | .powerLoss mv complete us => Sys2Proof.Machine.execPowerLoss mv complete us s
  | .holdupArmed capUf ms => Sys2Proof.Machine.execHoldupArmed capUf ms s
  | .inputReturn seed => Sys2Proof.Machine.execInputReturn seed s
  | .firmwareTrip cause complete us => Sys2Proof.Machine.execFirmwareTrip cause complete us s
  | .hardwareTrip d => Sys2Proof.Machine.execHardwareTrip d s
  | .emergencyOff mv complete us => Sys2Proof.Machine.execEmergencyOff mv complete us s
  | .powerRestart mv emergN seed => Sys2Proof.Machine.execPowerRestart mv emergN seed s
  | .hostPerstNAssert seed => Sys2Proof.Machine.execHostPerstNAssert seed s
  | .bureauPerstRelease => Sys2Proof.Machine.execBureauPerstRelease s
  | .hostPerstNDeassert => Sys2Proof.Machine.execHostPerstNDeassert s
  | .warmReset cause => Sys2Proof.Machine.execWarmReset cause s
  | .registerWrite fn off size value => Sys2Proof.Machine.execRegisterWrite fn off size value s
  | .qpEnable fn q ctrl line descs => Sys2Proof.Machine.execQpEnable fn q ctrl line descs s
  | .qpDisable fn q => Sys2Proof.Machine.execQpDisable fn q s
  | .qpDisableDone fn q => Sys2Proof.Machine.execQpDisableDone fn q s
  | .windowResize size => Sys2Proof.Machine.execWindowResize size s
  | .windowResizeDone => Sys2Proof.Machine.execWindowResizeDone s
  | .windowTenantSet g value => Sys2Proof.Machine.execWindowTenantSet g value s
  | .pairEnable value => Sys2Proof.Machine.execPairEnable value s
  | .pairDisable value => Sys2Proof.Machine.execPairDisable value s
  | .cntClear group => Sys2Proof.Machine.execCntClear group s
  | .counterLowRead fn off size => Sys2Proof.Machine.execCounterLowRead fn off size s
  | .listCompactionSwitch k list base => Sys2Proof.Machine.execListCompactionSwitch k list base s
  | .listCompactionFree k list => Sys2Proof.Machine.execListCompactionFree k list s
  | .flashEraseDone chan die block ok => Sys2Proof.Machine.execFlashEraseDone chan die block ok s
  | .setteeRealignDone => Sys2Proof.Machine.execSetteeRealignDone s
  | .setteeLaneFailed lane => Sys2Proof.Machine.execSetteeLaneFailed lane s
  | .cxlCacheEnableWrite on => Sys2Proof.Machine.execCxlCacheEnableWrite on s
  | .msixVectorUnmask fn v => Sys2Proof.Machine.execMsixVectorUnmask fn v s
  | .boardSensorSample k => Sys2Proof.Machine.execBoardSensorSample k s
  | .pldmUpdateComponent c => Sys2Proof.Machine.execPldmUpdateComponent c s

end Sys2Proof.Machine
end

