-- ==== Sys2Proof/Machine/Time.lean ====
section
/-! DEFINITION. The queue of commands, and the time that passes while it is empty (R33, R34). -/

namespace Sys2Proof.Machine

/-- The command at the front of the queue, and the state with the queue's rest. -/
def takeCommand (s : State) : Option (Instr × State) :=
  match s.pending with
  | [] => none
  | c :: l => some (c, { s with pending := l })

/-- One µs passes: record time counts while the Bureau has power, the request timer while REFCLK is present too (R33, R34). -/
def passTime (s : State) : State :=
  if s.power.powerGood then
    { s with bureau := { s.bureau with recTime := s.bureau.recTime + 1, reqTimer := if s.bureau.refclk then s.bureau.reqTimer + 1 else s.bureau.reqTimer } }
  else s

/-- A command put at the front of the queue. -/
def enqueueFront (s : State) (c : Instr) : State := { s with pending := c :: s.pending }

end Sys2Proof.Machine
end

