-- ==== Sys2Proof/Machine/Step.lean ====
section
/-! DEFINITION. One step of the block: the command at the front of its queue, or 1 µs when the queue is empty. -/

namespace Sys2Proof.Machine

/-- A step takes the command at the front of the queue and executes it with the queue's rest; on an empty queue time passes. -/
def step (s : State) : Host.Outcome State Fault Refusal :=
  match takeCommand s with
  | some (c, t) => exec c t
  | none => .next (passTime s)

/-- The command that a word spells, put at the front of the queue; no word spells one. -/
def State.withFetchWord (s : State) (nbits w : Nat) : State :=
  match decodeTableWord nbits w with
  | some c => enqueueFront s c
  | none => s

end Sys2Proof.Machine
end

