-- ==== Sys2Proof/WellFormed.lean ====
section
/-! DEFINITION. Commands whose operands lie in the ranges that the manual states. The machine does not rely on it: a command that is not
well-formed has a meaning as well, mostly none at all. -/

namespace Sys2Proof

open Machine

/-- A power domain, PD00 to PD29 (R442). -/
def domainOk (d : Nat) : Bool := decide (d < 30)

/-- An extent of the device range: 2^48 bytes in extents of 2 MiB (R63, R64). -/
def extentOk (x : Nat) : Bool := decide (x < 134217728)

/-- A flash block: 32 channels, 16 dies a channel at most, 23 bits of block number (R388, Table 17.3). -/
def blockOk (c d b : Nat) : Bool := decide (c < 32) && decide (d < 16) && decide (b < 8388608)

/-- An index, 0 to 255 (R155). -/
def indexOk (n : Nat) : Bool := decide (n < 256)

/-- An embedding table, 0 to 63 (R256). -/
def tableOk (n : Nat) : Bool := decide (n < 64)

/-- A shelf engine, 0 to 31 (Table 20.16). -/
def shelfOk (n : Nat) : Bool := decide (n < 32)

/-- A trained width and speed (Table 12.1). -/
def linkModeOk (w g : BitVec 8) : Bool := decide (w = 16 ∨ w = 8 ∨ w = 4) && decide (g = 64 ∨ g = 32)

/-- Bytes within one 64-byte line (R276). -/
def lineDataOk (d : Bytes) : Bool := decide (d.length ≤ 64)

/-- A transfer of at most 4,096 bytes (R433, R437). -/
def chunkOk (d : Bytes) : Bool := decide (d.length ≤ 4096)

/-- A generator slot, 0 to 1,023 (R210). -/
def slotOk (n : Nat) : Bool := decide (n < 1024)

/-- A flit's 256 payload bytes at most (Table 2.2). -/
def flitDataOk (d : Bytes) : Bool := decide (d.length ≤ 256)

/-- A register access of 4 or 8 bytes (R462). -/
def accessOk (n : Nat) : Bool := decide (n = 4 ∨ n = 8)

/-- A bank image of at most 32 MiB (Firmware update, chapter 18). -/
def imageOk (c : ComponentOffer) : Bool := decide (c.size ≤ 33554432)

/-- The operands lie in their stated ranges. -/
def Instr.wellFormed : Instr → Bool
  | .dieLinkFlitReceive _ f => flitDataOk f.payload
  | .ackOnlyFlit .. => true
  | .linkReinitialise .. => true
  | .linkReinitDone .. => true
  | .linkFailed .. => true
  | .hubFlitGrant .. => true
  | .controlRingHop .. => true
  | .subscribe .. => true
  | .unsubscribe .. => true
  | .readyNotice .. => true
  | .fenceReq .. => true
  | .fenceMarkerAnswer .. => true
  | .fenceDone .. => true
  | .quiesceReq .. => true
  | .blockQuiet .. => true
  | .quiesceDone .. => true
  | .quiesceTimeout .. => true
  | .commitNotice .. => true
  | .retractNotice .. => true
  | .resetRelease .. => true
  | .rateSample d _ => domainOk d
  | .refclkLoss .. => true
  | .refclkReturn .. => true
  | .storeRead .. => true
  | .storeReadHeader .. => true
  | .storeFree .. => true
  | .storeScrub .. => true
  | .storeWriteHeader .. => true
  | .storeWritePayload _ _ _ data => flitDataOk data
  | .scrubPaceTick .. => true
  | .storeZeroFillDone .. => true
  | .tierWriteTile _ x _ _ => extentOk x
  | .tierWriteUnblocked .. => true
  | .tierReadTile _ x _ _ _ => extentOk x
  | .writeBack x _ _ => extentOk x
  | .migrateRoStart x _ _ => extentOk x
  | .migrateRoSwitch x => extentOk x
  | .migrateRoDrainEnd x => extentOk x
  | .migrateStart x _ _ => extentOk x
  | .migrateTileCopy x => extentOk x
  | .mr4Poll .. => true
  | .wckOscCheck .. => true
  | .subchannelRetrainDone .. => true
  | .lpddr6TrainingDone .. => true
  | .streamTileWrite .. => true
  | .streamSlotPoll .. => true
  | .refetchReadback x _ _ => extentOk x
  | .deepShapeMatmul .. => true
  | .wideShapeMatmul .. => true
  | .convolution .. => true
  | .conversionRead .. => true
  | .anchorRetryDone .. => true
  | .activityHoldExpiry .. => true
  | .activityLevelStep .. => true
  | .vectorOp .. => true
  | .mxQuantise .. => true
  | .reduction .. => true
  | .rotaryEncoding .. => true
  | .normalisation .. => true
  | .selectExact .. => true
  | .selectBucket .. => true
  | .selectMerge .. => true
  | .mergeStart .. => true
  | .mergeSlotPublish .. => true
  | .readyLineInvalidation .. => true
  | .readyLineReread .. => true
  | .walkStart .. => true
  | .walkRoundEnd .. => true
  | .scanIssue .. => true
  | .shelfUnitArrive .. => true
  | .chainTileArrive .. => true
  | .scanBudgetExpired .. => true
  | .retrievalSoftDeadline .. => true
  | .scanCut _ shelf => shelfOk shelf
  | .shelfScanEnd _ shelf => shelfOk shelf
  | .candidateMerge .. => true
  | .passageFetch .. => true
  | .passageUnitArrive .. => true
  | .fetchBudgetExpired .. => true
  | .rerankStart .. => true
  | .rerankEnd .. => true
  | .packStart .. => true
  | .promptReady .. => true
  | .checkRecordWrite .. => true
  | .stepBoundary .. => true
  | .engineContextSwitch .. => true
  | .kvPageWrite _ slot _ _ => slotOk slot
  | .attentionPagePartial .. => true
  | .sampleToken _ slot _ _ _ => slotOk slot
  | .drawPortServe .. => true
  | .grammarMaskRequest _ slot => slotOk slot
  | .stopReport _ slot _ _ => slotOk slot
  | .matched .. => true
  | .interferenceWindowClose .. => true
  | .tokenizerInstall .. => true
  | .tokenizerCheckDone .. => true
  | .tokenizerRemove .. => true
  | .committedTokensReceive _ slot _ => slotOk slot
  | .slotFinalRelease _ slot => slotOk slot
  | .tableRefresh .. => true
  | .hostLinkTraining w g _ => linkModeOk w g
  | .doorbellInvalidation .. => true
  | .doorbellRereadReturn .. => true
  | .atsInvalidation .. => true
  | .hostWindowRead .. => true
  | .hostWindowWrite _ data => lineDataOk data
  | .backInvalidateResponse .. => true
  | .completionPost .. => true
  | .msixTimeExpiry .. => true
  | .cxlHotReset .. => true
  | .functionLevelReset .. => true
  | .nop .. => true
  | .turn .. => true
  | .textAppend .. => true
  | .turnEndDeadline .. => true
  | .embed .. => true
  | .search .. => true
  | .rerank .. => true
  | .generate .. => true
  | .tokenize .. => true
  | .detokenize .. => true
  | .indexInsert .. => true
  | .indexPatch .. => true
  | .indexDelete .. => true
  | .rowLookup .. => true
  | .rowUpdate .. => true
  | .loadExtent .. => true
  | .adapterLoad .. => true
  | .grammarLoad .. => true
  | .programLoad .. => true
  | .programReplaceSwitch .. => true
  | .programUnload .. => true
  | .partitionUnloadDone .. => true
  | .cancel .. => true
  | .fence .. => true
  | .fenceComplete .. => true
  | .worldMapWrite .. => true
  | .stepWatchdogExpiry .. => true
  | .fieldTestDue .. => true
  | .fieldTestDeferralEnd .. => true
  | .fieldTestComplete .. => true
  | .setteeFrameReceive .. => true
  | .setteeEmptyFrame .. => true
  | .setteeRealign .. => true
  | .setteeSilence .. => true
  | .setteeTrainAttempt .. => true
  | .ident .. => true
  | .mirrorIndex .. => true
  | .mirrorRows .. => true
  | .mirrorAdapter .. => true
  | .mirrorConfig .. => true
  | .mirrorAck .. => true
  | .mirrorTimeout .. => true
  | .forward .. => true
  | .forwardDone .. => true
  | .turnDesc .. => true
  | .turnText .. => true
  | .turnSnap .. => true
  | .turnDone .. => true
  | .remoteTile .. => true
  | .commit .. => true
  | .retract .. => true
  | .mirrorRead .. => true
  | .mirrorData .. => true
  | .journalReq .. => true
  | .handover .. => true
  | .relinquish .. => true
  | .leaseLineInvalidation .. => true
  | .leaseRenew .. => true
  | .leaseExpiryTake .. => true
  | .leaseRenewLapse .. => true
  | .failbackHandover .. => true
  | .mapPortLookup .. => true
  | .flashProgramDone .. => true
  | .flashReadDone .. => true
  | .journalFlush .. => true
  | .mapImageSegment .. => true
  | .groupReadbackDone .. => true
  | .blockRewrite c d b => blockOk c d b
  | .wearLevelMove .. => true
  | .garbageCollect c d => blockOk c d 0
  | .blockErase c d b => blockOk c d b
  | .ftlColdRebuild .. => true
  | .ftlWarmRebuild .. => true
  | .watchdogStage1 .. => true
  | .watchdogStage2 .. => true
  | .icSourceFiltered .. => true
  | .icClaimRead .. => true
  | .icComplete .. => true
  | .controlLoopTick .. => true
  | .rateFloorUnheld d => domainOk d
  | .powerCapUnmet .. => true
  | .thermalLimit .. => true
  | .eventTokenRefill .. => true
  | .eventStageFlush .. => true
  | .extentMap x _ => extentOk x
  | .extentUnmap x => extentOk x
  | .extentSet x _ => extentOk x
  | .indexCreate n _ => indexOk n
  | .indexDestroy n => indexOk n
  | .tableCreate n _ => tableOk n
  | .tableDestroy n => tableOk n
  | .tenantRemove .. => true
  | .quiesce .. => true
  | .blockReset .. => true
  | .readCounters .. => true
  | .setUtc .. => true
  | .readSlot _ slot => slotOk slot
  | .readCapability .. => true
  | .pairTakeover .. => true
  | .pairHandover .. => true
  | .soloClear .. => true
  | .setLimits .. => true
  | .eventRead .. => true
  | .eventClear .. => true
  | .faultRead .. => true
  | .attest .. => true
  | .certRead .. => true
  | .fwSchedule .. => true
  | .fwCancel .. => true
  | .fwCommit .. => true
  | .status .. => true
  | .mailboxBackgroundDone .. => true
  | .mctpControl .. => true
  | .pldmPlatformRequest .. => true
  | .fwDataChunk _ data _ _ => chunkOk data
  | .activateFirmware .. => true
  | .fwPending .. => true
  | .fwActivation .. => true
  | .drainEnd .. => true
  | .fwPairActivation .. => true
  | .fwActivationHeld .. => true
  | .bootOk .. => true
  | .bootTimeout .. => true
  | .recoveryWrite _ _ data => chunkOk data
  | .recoveryStatus .. => true
  | .recoveryBoot .. => true
  | .powerOn .. => true
  | .domainPowerUp .. => true
  | .pinConfigure .. => true
  | .releaseChainStep .. => true
  | .inputLow .. => true
  | .inputHigh .. => true
  | .overvoltageStop .. => true
  | .powerLoss .. => true
  | .holdupArmed .. => true
  | .inputReturn .. => true
  | .firmwareTrip .. => true
  | .hardwareTrip .. => true
  | .emergencyOff .. => true
  | .powerRestart .. => true
  | .hostPerstNAssert .. => true
  | .bureauPerstRelease .. => true
  | .hostPerstNDeassert .. => true
  | .warmReset .. => true
  | .registerWrite _ _ size _ => accessOk size
  | .qpEnable .. => true
  | .qpDisable .. => true
  | .qpDisableDone .. => true
  | .windowResize .. => true
  | .windowResizeDone .. => true
  | .windowTenantSet .. => true
  | .pairEnable .. => true
  | .pairDisable .. => true
  | .cntClear .. => true
  | .counterLowRead _ _ size => accessOk size
  | .listCompactionSwitch i _ _ => indexOk i
  | .listCompactionFree i _ => indexOk i
  | .flashEraseDone c d b _ => blockOk c d b
  | .setteeRealignDone .. => true
  | .setteeLaneFailed .. => true
  | .cxlCacheEnableWrite .. => true
  | .msixVectorUnmask .. => true
  | .boardSensorSample .. => true
  | .pldmUpdateComponent c => imageOk c

end Sys2Proof
end

