-- ==== Sys2Proof/Safety.lean ====
section
/-! DEFINITION. What counts as a safe step and a sound state, in the terms that claims use. -/

namespace Sys2Proof.Machine

/-- The outcome is a next state: neither a fault nor a refusal. -/
def Completes (o : Host.Outcome State Fault Refusal) : Prop := ∃ t, o = .next t

/-- The command completes on the state, and the next state is as P says. -/
def Does (c : Instr) (s : State) (P : State → Prop) : Prop := ∃ t, exec c s = .next t ∧ P t

/-- Every tile of the turn conductor's pool is FREE (R319). -/
abbrev conductorFree (s : State) : Prop :=
  ∀ k < Config.conductorTiles, (slotOf s (BitVec.ofNat 17 (Config.conductorBase + k))).hdr.state = .free

/-- Every tile of a tokenizer set's tables passes its CRC (R237). -/
abbrev setVerified (s : State) (k : BitVec 2) : Prop := (setTiles s k).all (tableTileOk s) = true

/-- A completion posted on the pair joins those that wait: the pair is enabled, its ring has a free slot, no request is muted. -/
abbrev canPost (s : State) (fn : Tenant) (q : BitVec 3) : Prop :=
  (qpOf s fn q).state = .enabled ∧ cqUsed (qpOf s fn q) < cqSize (qpOf s fn q) ∧ ∀ x ∈ s.host.requests, x.2.mute = false

/-- The state in which descriptor f, the first of those fetched, has become a request under its handle. -/
def accepted (s : State) (fn : Tenant) (q : BitVec 3) (op : Opcode) (f : Fetched) (rest : List Fetched) (v : HostView) : State :=
  setReq (setQp s fn q fun x => { x with fetched := rest }) f.handle (newRequest s fn q op f.desc (paramBytes s f.desc v))

/-- No check of the list fails. -/
def passes (l : List (Option Reject)) : Prop := l.findSome? id = none

/-- Descriptor f, of opcode op, is the first of those fetched, and orders 1 to 4 of its acceptance pass. -/
def frontOk (s : State) (fn : Tenant) (q : BitVec 3) (op : Opcode) (f : Fetched) (rest : List Fetched) (v : HostView) : Prop :=
  (qpOf s fn q).fetched = f :: rest ∧ Opcode.ofByte f.desc.opcode.toNat = some op ∧ passes (firstChecks s fn op f v)

/-- The canonical form of the three addressed memories: tile slots of the central store, tiles of tier L, flash blocks. -/
abbrev Memory.wf (s : State) : Prop :=
  canonical {} s.store.slots = true ∧ canonical {} s.tier.lmem = true ∧ canonical {} s.flash.blocks = true

/-- The fuses as the module blows them (R431): a count of at most 64, and never every key slot revoked. -/
abbrev FuseState.sound (f : FuseState) : Prop := f.rollback ≤ 64 ∧ f.revoked ≠ 15

/-- What a command can reach of the fuses: the counter only rises, a revoked slot stays revoked. -/
abbrev FuseState.leadsTo (f g : FuseState) : Prop := f.rollback ≤ g.rollback ∧ f.revoked &&& g.revoked = f.revoked

/-- The parts of the state. -/
inductive Part where
  | fabric | store | tier | engines | host | gen | text | pair | flash | bureau | power | limits | fuses | shelfSkips | shelfCuts | free | pending
deriving DecidableEq, Repr

/-- Two states agree on a part. -/
def Part.same (s t : State) : Part → Prop
  | .fabric => t.fabric = s.fabric | .store => t.store = s.store | .tier => t.tier = s.tier | .engines => t.engines = s.engines
  | .host => t.host = s.host | .gen => t.gen = s.gen | .text => t.text = s.text | .pair => t.pair = s.pair | .flash => t.flash = s.flash
  | .bureau => t.bureau = s.bureau | .power => t.power = s.power | .limits => t.limits = s.limits | .fuses => t.fuses = s.fuses
  | .shelfSkips => t.shelfSkips = s.shelfSkips | .shelfCuts => t.shelfCuts = s.shelfCuts | .free => t.free = s.free
  | .pending => t.pending = s.pending

/-- The parts of the state that a command may change; every other part it leaves as it is. -/
def touches : Instr → List Part
  | .dieLinkFlitReceive .. | .vectorOp .. => [.fabric, .store, .engines, .host, .gen, .bureau]
  | .ackOnlyFlit .. | .linkReinitDone .. | .fenceReq .. => [.fabric, .host]
  | .linkReinitialise .. | .controlRingHop .. | .rateSample .. => [.fabric, .host, .bureau]
  | .linkFailed .. | .watchdogStage1 .. | .watchdogStage2 .. | .drainEnd | .warmReset .. => [.fabric, .store, .tier, .engines, .host, .gen, .text, .pair, .flash, .bureau, .power, .limits, .free]
  | .hubFlitGrant .. => [.fabric, .host, .free]
  | .subscribe .. | .quiesceReq .. | .storeWritePayload .. | .fenceDone .. => [.fabric, .store]
  | .unsubscribe .. | .readyNotice .. | .scrubPaceTick | .storeZeroFillDone .. => [.store]
  | .fenceMarkerAnswer .. | .blockQuiet .. | .quiesceDone .. | .resetRelease .. => [.fabric]
  | .quiesceTimeout .. => [.fabric, .engines, .host, .gen, .bureau, .free]
  | .commitNotice .. | .retractNotice .. => [.store, .tier]
  | .migrateRoStart .. | .tierWriteTile .. | .tierWriteUnblocked .. | .migrateTileCopy .. | .tableRefresh .. => [.fabric, .store, .tier, .host, .gen, .bureau]
  | .refclkLoss | .hostLinkTraining .. | .powerCapUnmet .. | .thermalLimit .. | .eventTokenRefill .. | .readCounters .. | .setUtc ..
  | .readSlot .. | .readCapability .. | .eventRead .. | .eventClear .. | .faultRead .. | .certRead .. | .fwSchedule .. | .fwCancel ..
  | .fwPending | .fwActivation | .fwPairActivation | .fwActivationHeld | .recoveryWrite .. | .boardSensorSample .. => [.host, .bureau]
  | .refclkReturn | .icSourceFiltered .. | .icClaimRead .. | .icComplete .. | .eventStageFlush => [.bureau]
  | .storeRead .. | .storeReadHeader .. => [.store, .engines, .host, .gen, .bureau]
  | .storeFree .. | .storeScrub .. => [.store, .host, .bureau]
  | .storeWriteHeader .. => [.store, .host, .gen, .bureau]
  | .subchannelRetrainDone .. | .tierReadTile .. | .streamTileWrite .. | .mirrorRows .. | .mirrorConfig .. | .walkRoundEnd ..
  | .passageUnitArrive .. | .indexCreate .. => [.fabric, .store, .tier, .host, .gen, .pair, .bureau, .free]
  | .writeBack .. | .indexInsert .. | .indexPatch .. | .indexDelete .. | .loadExtent .. | .mirrorIndex .. | .forward .. | .extentUnmap ..
  | .extentSet .. | .listCompactionSwitch .. | .setteeRealign .. | .setteeSilence .. | .mirrorAck .. | .mirrorTimeout .. | .journalReq ..
  | .soloClear .. => [.fabric, .store, .tier, .host, .gen, .pair, .flash, .bureau, .free]
  | .migrateRoSwitch .. | .migrateStart .. | .wckOscCheck .. | .streamSlotPoll .. | .windowResizeDone => [.tier]
  | .kvPageWrite .. | .attentionPagePartial .. | .programLoad .. | .programReplaceSwitch .. | .stepWatchdogExpiry .. | .fieldTestComplete .. => [.fabric, .store, .tier, .engines, .host, .gen, .pair, .bureau, .free]
  | .migrateRoDrainEnd .. => [.store, .tier, .host, .bureau]
  | .mr4Poll .. | .hostWindowRead .. | .hostWindowWrite .. | .backInvalidateResponse .. | .extentMap .. => [.tier, .host, .bureau]
  | .lpddr6TrainingDone .. => [.tier, .power, .free]
  | .refetchReadback .. => [.fabric, .store, .tier, .host, .gen, .bureau, .free]
  | .deepShapeMatmul .. | .wideShapeMatmul .. | .convolution .. | .conversionRead .. | .anchorRetryDone .. | .mxQuantise .. | .reduction ..
  | .rotaryEncoding .. | .normalisation .. => [.engines, .host, .gen, .bureau]
  | .activityHoldExpiry .. | .activityLevelStep .. | .readyLineInvalidation .. | .engineContextSwitch .. => [.engines]
  | .mergeStart .. | .mergeSlotPublish .. => [.engines, .host]
  | .selectExact .. | .selectBucket .. | .selectMerge .. => [.fabric, .store, .engines, .host, .gen, .bureau, .free]
  | .readyLineReread .. => [.fabric, .store, .engines, .host, .gen, .pair, .bureau]
  | .walkStart .. | .scanIssue .. | .candidateMerge .. | .passageFetch .. | .fetchBudgetExpired .. | .rerankEnd .. | .promptReady ..
  | .turnEndDeadline .. | .programUnload .. | .cancel .. | .qpEnable .. | .qpDisable .. => [.store, .tier, .host, .gen, .pair, .bureau, .free]
  | .indexDestroy .. => [.tier, .host, .gen, .pair, .bureau, .free]
  | .shelfUnitArrive .. => [.store, .tier, .host, .gen, .pair, .bureau, .shelfSkips, .free]
  | .chainTileArrive .. => [.fabric, .store, .tier, .host, .gen, .pair, .bureau, .shelfSkips, .free]
  | .scanBudgetExpired .. | .retrievalSoftDeadline .. | .doorbellInvalidation .. | .atsInvalidation .. | .msixTimeExpiry ..
  | .qpDisableDone .. | .cxlCacheEnableWrite .. | .msixVectorUnmask .. => [.host]
  | .shelfScanEnd .. => [.fabric, .store, .host, .gen, .bureau, .free]
  | .scanCut .. => [.fabric, .store, .host, .gen, .bureau, .shelfCuts, .free]
  | .rerankStart .. | .embed .. | .tokenize .. | .detokenize .. => [.store, .tier, .host, .gen, .text, .pair, .bureau, .free]
  | .packStart .. | .turn .. | .textAppend .. | .leaseExpiryTake .. | .grammarMaskRequest .. => [.fabric, .store, .tier, .host, .gen, .text, .pair, .bureau, .free]
  | .completionPost .. | .committedTokensReceive .. => [.tier, .host, .gen, .text, .pair, .bureau, .free]
  | .stopReport .. | .matched .. | .fieldTestDeferralEnd .. => [.gen]
  | .drawPortServe .. | .checkRecordWrite .. => [.fabric, .store, .host, .gen, .bureau]
  | .stepBoundary .. => [.fabric, .store, .tier, .engines, .host, .gen, .text, .pair, .bureau, .free]
  | .sampleToken .. => [.engines, .gen]
  | .tokenizerInstall .. | .tokenizerRemove .. => [.text]
  | .interferenceWindowClose => [.host, .gen, .bureau]
  | .tokenizerCheckDone .. => [.tier, .host, .text, .pair, .bureau, .free]
  | .slotFinalRelease .. | .grammarLoad .. => [.host, .gen, .text, .pair, .bureau, .free]
  | .doorbellRereadReturn .. | .nop .. | .search .. | .rerank .. | .generate .. | .rowLookup .. | .rowUpdate .. | .adapterLoad ..
  | .fence .. | .mirrorAdapter .. => [.host, .gen, .pair, .bureau, .free]
  | .cxlHotReset => [.store, .tier, .engines, .host, .gen, .pair, .bureau, .power, .free]
  | .functionLevelReset .. => [.store, .tier, .host, .gen, .pair, .bureau, .power, .free]
  | .partitionUnloadDone .. => [.store, .tier, .engines, .host, .gen, .pair, .bureau, .free]
  | .fenceComplete .. | .forwardDone .. => [.host, .gen, .pair, .free]
  | .worldMapWrite .. => [.engines, .host, .text, .bureau]
  | .fieldTestDue .. => [.engines, .gen, .bureau]
  | .setteeFrameReceive .. | .setteeEmptyFrame | .setteeRealignDone => [.host, .pair]
  | .setteeTrainAttempt .. | .mirrorRead .. => [.host, .pair, .free]
  | .ident .. | .failbackHandover .. | .pairHandover .. => [.host, .pair, .bureau, .free]
  | .turnDesc .. | .turnText .. => [.pair]
  | .turnSnap .. | .turnDone .. | .commit .. => [.gen, .pair]
  | .remoteTile .. => [.fabric, .store, .host, .gen, .pair, .bureau]
  | .retract .. => [.store, .gen, .pair]
  | .mirrorData .. => [.fabric, .store, .tier, .host, .gen, .pair, .bureau]
  | .handover .. | .leaseLineInvalidation .. | .leaseRenew .. | .leaseRenewLapse .. | .setteeLaneFailed .. => [.host, .pair, .bureau]
  | .relinquish .. | .pairTakeover .. | .pairEnable .. | .pairDisable .. | .tenantRemove .. => [.fabric, .store, .tier, .host, .gen, .text, .pair, .flash, .bureau, .free]
  | .mapPortLookup .. | .journalFlush | .mapImageSegment | .blockErase .. => [.flash]
  | .flashProgramDone .. => [.host, .gen, .pair, .flash, .bureau, .free]
  | .flashReadDone .. => [.tier, .host, .flash, .bureau, .free]
  | .groupReadbackDone .. | .blockRewrite .. | .wearLevelMove .. | .garbageCollect .. => [.flash, .free]
  | .ftlColdRebuild .. | .ftlWarmRebuild .. => [.host, .flash, .bureau]
  | .controlLoopTick .. | .bureauPerstRelease => [.bureau, .power]
  | .rateFloorUnheld .. | .recoveryBoot .. | .powerOn .. | .powerLoss .. | .inputReturn .. | .firmwareTrip .. | .hardwareTrip ..
  | .emergencyOff .. | .powerRestart .. | .hostPerstNAssert .. => [.fabric, .store, .tier, .engines, .host, .gen, .text, .pair, .flash, .bureau, .power, .limits, .shelfSkips, .shelfCuts, .free]
  | .tableCreate .. => [.fabric, .store, .host, .gen, .pair, .bureau, .free]
  | .tableDestroy .. => [.store, .host, .gen, .pair, .bureau, .free]
  | .quiesce .. => [.fabric, .store, .host, .bureau, .free]
  | .blockReset .. => [.fabric, .store, .tier, .engines, .host, .gen, .text, .bureau, .power, .shelfCuts, .free]
  | .setLimits .. => [.host, .bureau, .limits]
  | .attest .. | .status .. | .mctpControl .. | .activateFirmware | .recoveryStatus .. | .pldmUpdateComponent .. => [.host, .bureau, .free]
  | .fwCommit .. | .fwDataChunk .. => [.host, .bureau, .fuses]
  | .mailboxBackgroundDone .. => [.bureau, .free]
  | .pldmPlatformRequest .. => [.host, .free]
  | .bootOk => [.fabric, .store, .tier, .engines, .host, .gen, .text, .pair, .flash, .bureau, .power, .shelfCuts, .free]
  | .bootTimeout | .domainPowerUp => [.fabric, .host, .pair, .bureau, .power, .free]
  | .pinConfigure | .overvoltageStop .. => [.power]
  | .releaseChainStep .. => [.fabric, .store, .tier, .engines, .host, .gen, .text, .pair, .flash, .bureau, .power, .free]
  | .inputLow .. | .inputHigh .. | .holdupArmed .. => [.host, .bureau, .power]
  | .hostPerstNDeassert => [.fabric, .power]
  | .registerWrite .. => [.fabric, .store, .tier, .engines, .host, .gen, .text, .pair, .flash, .bureau, .shelfSkips, .shelfCuts, .free]
  | .windowResize .. | .windowTenantSet .. | .counterLowRead .. => [.tier, .host, .gen, .text, .pair, .bureau]
  | .cntClear .. => [.store, .engines, .host, .gen, .text, .shelfSkips, .shelfCuts]
  | .listCompactionFree .. => [.fabric, .store, .tier, .host, .gen, .flash, .bureau]
  | .flashEraseDone .. => [.host, .flash, .bureau, .free]

/-- A matrix, convolution or selection command within the limits that its obligations set; every other command has none (R10, R97, R103, R141). -/
def withinLimits (s : State) (c : Instr) : Prop :=
  (∀ m, c = .deepShapeMatmul m ∨ c = .wideShapeMatmul m → operandsOk m = true)
    ∧ (∀ x, c = .convolution x → operandsOk x.mm = true ∧ convOk x = true)
    ∧ (∀ e p i o, c = .selectExact e p i o ∨ c = .selectBucket e p i o → selOk p (selEntries s e p i).length = true)
    ∧ (∀ e p i b o, c = .selectMerge e p i b o → selOk p 0 = true)

end Sys2Proof.Machine
end

