-- ==== Sys2Proof/Certificates/Slice0/Obligations.lean ====
section
/-! DEFINITION. The statements for the provers, from the numbered rules of the manual. Every clause that begins with a command has as its
conclusion the next state of that command, under hypotheses on the state and the operands alone. -/

open Sys2Proof Sys2Proof.Machine

/-- R18 to R20: a flit that passes its checks and is the next in order is delivered, after what its acknowledgement frees; a flit that carries only
acknowledgement, or is out of order, is not; a flit that fails its CRC is discarded and negatively acknowledged. Where the manual leaves an outcome
open, the clause is the choice of the model: log entries 119, 137. -/
def Obligations.DieLinkDeliversInOrder : Prop :=
  ∀ (s : State) (l : LinkId) (f : Flit), hasLink l = true → linkStopped s l = false →
    (f.crc = f.crcOf → f.ackOnly = false → f.seq = (linkOf s l).expect →
      exec (.dieLinkFlitReceive l f) s = .next (deliverFlit (setLink (takeAck s l f) l fun k =>
        { k with expect := k.expect + 1, discarding := false, nakRun := 0, ackDue := true }) l f)
      ∧ (l.down = true → isStore l.die = false → f.cls = 2 → f.last = false → f.nak = false → (linkOf s l.rev).waiting = [] →
          ∃ t, exec (.dieLinkFlitReceive l f) s = .next t ∧
            linkOf t l = { linkOf s l with
              expect := f.seq + 1, discarding := false, nakRun := 0, ackDue := true, rx := (linkOf s l).rx ++ [f]
              credit := mcount (linkOf s l).credit 2 1 }
            ∧ (∀ m, m ≠ l → m ≠ l.rev → linkOf t m = linkOf s m)
            ∧ (linkOf t l.rev).owed = mmod 0 (linkOf s l.rev).owed f.creditClass.toNat (· - f.credits.toNat)
            ∧ t = { s with fabric := { s.fabric with links := t.fabric.links } }))
    ∧ (f.crc = f.crcOf → f.ackOnly = true ∨ f.seq ≠ (linkOf s l).expect → ∃ t, exec (.dieLinkFlitReceive l f) s = .next t ∧
      t = takeAck s l f ∧ (linkOf t l).expect = (linkOf s l).expect ∧ (linkOf t l).rx = (linkOf s l).rx
      ∧ ((linkOf s l.rev).waiting = [] → ∀ m, m ≠ l.rev → linkOf t m = linkOf s m)
      ∧ t.fabric.hubWait = s.fabric.hubWait ∧ t.fabric.ring = s.fabric.ring ∧ t.fabric.inbox = s.fabric.inbox ∧ t.store = s.store)
    ∧ (f.crc ≠ f.crcOf → ∃ t, exec (.dieLinkFlitReceive l f) s = .next t ∧
      linkOf t l = { linkOf s l with
        discarding := true, nakSeq := (linkOf s l).expect
        nakRun := if (linkOf s l).nakSeq = (linkOf s l).expect then (linkOf s l).nakRun + 1 else 1 }
      ∧ (∀ m, m ≠ l → linkOf t m = linkOf s m)
      ∧ (∃ g, t = emit (setLink s l fun _ => linkOf t l) (.flit l.rev g) ∧ g.nak = true ∧ g.ackSeq = (linkOf s l).expect ∧ g.crc = g.crcOf))

/-- R20, R21: a flit that carries only what is due; reinitialisation of a link after 8 negative acknowledges of one number; the traffic of both channels
resumes from the expected flit; the third reinitialisation within a second declares the link failed, and its traffic goes over the die's other link.
Where the manual leaves an outcome open, the clause is the choice of the model: log entries 13, 153. -/
def Obligations.DieLinkUpkeep : Prop :=
  ∀ (s : State) (l : LinkId),
    ((linkOf s l).ackDue = true ∨ (linkOf s l).credit ≠ [] → linkStopped s l = false →
      ∃ t, exec (.ackOnlyFlit l) s = .next t ∧ (linkOf t l).ackDue = false ∧ (∀ m, m ≠ l → linkOf t m = linkOf s m)
        ∧ ∃ g, t = emit (setLink s l fun _ => linkOf t l) (.flit l.rev g)
            ∧ g.ackOnly = true ∧ g.payload = [] ∧ g.nak = false ∧ g.ackSeq = (linkOf s l).expect - 1 ∧ g.crc = g.crcOf)
    ∧ (8 ≤ (linkOf s l).nakRun → linkStopped s l = false → ∃ t, exec (.linkReinitialise l) s = .next t ∧
        (linkOf t l).nakRun = 0 ∧ (linkOf t l.pair).reinit = true
        ∧ (linkOf t l.pair).reinitAt = recNow s :: lastSecond (recNow s) (linkOf s l.pair).reinitAt
        ∧ t = logEvent { s with fabric := { s.fabric with links := t.fabric.links } } (.unnamed 0 l.die [w32 l.die.toNat, w32 l.link.toNat]))
    ∧ ((linkOf s l.pair).reinit = true → exec (.linkReinitDone l) s = .next
        (resumeLink (resumeLink (setLink s l.pair fun k => { k with reinit := false }) l.pair) l.pair.rev)
      ∧ ((linkOf s l.pair).waiting = [] → (linkOf s l.pair.rev).waiting = [] → ∃ t, exec (.linkReinitDone l) s = .next t ∧
        (let again := fun m : LinkId => ((linkOf s m).replay.dropWhile fun f => decide (f.seq ≠ (linkOf s m).expect)).map fun f => Output.flit m f
        t = { setLink s l.pair fun k => { k with reinit := false } with host := { s.host with out :=
          (again l.pair.rev).reverse ++ (again l.pair).reverse ++ s.host.out } })))
    ∧ ((linkOf s l.pair).failed = false → 3 ≤ (lastSecond (recNow s) (linkOf s l.pair).reinitAt).length →
        (isMemory l.die = true ∨ l.die = 0x3C) → isCompute l.die = false → l.die ∉ s.fabric.halfLink →
        exec (.linkFailed l) s = .next (logEvent (moveTraffic
          (let u := setLink s l.pair fun k => { k with failed := true }
           { u with fabric := { u.fabric with halfLink := s.fabric.halfLink ++ [l.die] } }) l)
          (.unnamed 25 l.die [w32 l.die.toNat, w32 l.link.toNat])))

/-- R19, R22, R23: a hub output grants one waiting flit of a class that has credit: a CTRL flit goes before data flits, at most one for every four flits;
among the inputs of a class the output goes round robin; the RDATA flits of a compute die alternate between its two engines. Where the manual leaves
an outcome open, the clause is the choice of the model: log entry 11. -/
def Obligations.HubGrantsOneFlit : Prop :=
  ∀ (s : State) (hub : BitVec 2) (out : DieId) (l : LinkId), downLink hub out = some l →
    (let key := hub.toNat * 64 + out.toNat
     let ws := mget [] s.fabric.hubWait key
     let data := ws.any fun w => decide (w.2.cls ≠ 3) && linkReady s l w.2.cls
     let ctrl := linkReady s l 3 && ws.any fun w => decide (w.2.cls = 3)
     let run := mget 3 s.fabric.hubCtrl key
     let last := mget 0 s.fabric.hubEngine key
     ((∃ w ∈ ws, linkReady s l w.2.cls = true) → ∃ t, exec (.hubFlitGrant hub out) s = .next t ∧ ∃ w ∈ ws,
       mget [] t.fabric.hubWait key = ws.erase w ∧ (∀ k, k ≠ key → mget [] t.fabric.hubWait k = mget [] s.fabric.hubWait k)
       ∧ linkReady s l w.2.cls = true
       ∧ (∃ g, (linkOf t l).replay = (linkOf s l).replay ++ [g] ∧ g.payload = w.2.payload ∧ g.cls = w.2.cls ∧ g.src = w.2.src
            ∧ g.dest = w.2.dest ∧ g.tag = w.2.tag ∧ g.offset = w.2.offset ∧ g.seq = (linkOf s l).txSeq ∧ g.crc = g.crcOf
            ∧ t.host.out = .flit l g :: s.host.out)
       ∧ (linkOf t l).txSeq = (linkOf s l).txSeq + 1
       ∧ mget 0 (linkOf t l).owed w.2.cls.toNat = mget 0 (linkOf s l).owed w.2.cls.toNat + 1
       ∧ (ctrl = true → data = false ∨ 3 ≤ run → w.2.cls = 3) ∧ (data = true → run < 3 → w.2.cls ≠ 3)
       ∧ (w.2.cls = 2 → isCompute out = true → (∃ x ∈ ws, x.2.cls = 2 ∧ x.2.engine ≠ last) → w.2.engine ≠ last)
       ∧ (∀ x ∈ ws, hubTakes s key out ws w.2.cls x.2 = true →
            let rr := mget 63 s.fabric.hubRr (key * 4 + w.2.cls.toNat) % 64
            (w.1.toNat + 127 - rr) % 64 ≤ (x.1.toNat + 127 - rr) % 64)
       ∧ t.store = s.store ∧ t.tier = s.tier ∧ t.bureau = s.bureau)
     ∧ ((∀ w ∈ ws, linkReady s l w.2.cls = false) → exec (.hubFlitGrant hub out) s = .next s))

/-- R26, R336: the oldest message of its source and destination in a ring stage goes down at a hub that serves its destination, and passes on otherwise; a
broadcast goes down at every hub in turn; a failed CRC is retried; an unlisted type and a message of the wrong world are dropped and counted. Where
the manual leaves an outcome open, the clause is the choice of the model: log entries 8, 12, 120, 121. -/
def Obligations.ControlRingDelivers : Prop :=
  ∀ (s : State) (hub : BitVec 2) (m : CtrlMsg), ringFirst (mget [] s.fabric.ring hub.toNat) m = true →
    (let q := mget [] s.fabric.ring hub.toNat
     let taken : State := { s with fabric := { s.fabric with ring := mput [] s.fabric.ring hub.toNat (q.erase m) } }
     let listed := 1 ≤ m.type.toNat ∧ m.type.toNat ≤ 10
     exec (.controlRingHop hub m false) s = .next s
     ∧ ((m.type = 0 ∨ 10 < m.type.toNat) → ∃ t, exec (.controlRingHop hub m true) s = .next t ∧
         t = { taken with fabric := { taken.fabric with ringDrops := mcount s.fabric.ringDrops hub.toNat 1 } })
     ∧ (listed → worldDrops s m = false → m.bcast = false → hubServes hub m.dest = true → ∃ t, exec (.controlRingHop hub m true) s = .next t ∧
         (let key := (hubToward s hub m.dest).toNat * 64 + m.dest.toNat
         mget [] t.fabric.hubWait key = mget [] s.fabric.hubWait key ++ [(hubDie hub, ctrlFlit m.dest m)]
         ∧ (∀ k, k ≠ key → mget [] t.fabric.hubWait k = mget [] s.fabric.hubWait k)
         ∧ t = { taken with fabric := { taken.fabric with hubWait := t.fabric.hubWait, secureReq := t.fabric.secureReq } }))
     ∧ (listed → worldDrops s m = false → m.bcast = false → hubServes hub m.dest = false → homeHub m.dest ≠ none →
         ∃ t, exec (.controlRingHop hub m true) s = .next t ∧
           mget [] t.fabric.ring (hub + 1).toNat = mget [] s.fabric.ring (hub + 1).toNat ++ [m]
           ∧ mget [] t.fabric.ring hub.toNat = q.erase m ∧ t.fabric.inbox = s.fabric.inbox ∧ t.fabric.hubWait = s.fabric.hubWait
           ∧ t = { s with fabric := t.fabric })
     ∧ (listed → m.bcast = true → exec (.controlRingHop hub m true) s = .next
         (let u := sendDownAll (noteSecure taken m) hub m (allDies.filter fun d => decide (homeHub d = some hub))
          if homeHub m.src = some (hub + 1) ∨ (homeHub m.src = none ∧ hub = 3) then sendDownAll u hub m (allDies.filter isStore)
          else { u with fabric := { u.fabric with ring := mmod [] u.fabric.ring (hub + 1).toNat (· ++ [m]) } }))
     ∧ (listed → worldDrops s m = true → ∃ t, exec (.controlRingHop hub m true) s = .next t ∧
         t.fabric.inbox = s.fabric.inbox ∧ t.fabric.hubWait = s.fabric.hubWait ∧ t.fabric.worldDrops = s.fabric.worldDrops + 1
         ∧ t.fabric.ring = mput [] s.fabric.ring hub.toNat (q.erase m)
         ∧ mget 0 t.host.cntTenant 2 = mget 0 s.host.cntTenant 2 + 1))

/-- R31, R50, R51, R91: a fence sends a marker on each link, gathers the answers of the store dies, and ends when it has them all or its block was reset;
a subscription to a readable tile is answered at once, one to another tile is recorded unless its block already holds 64; a withdrawn one goes; a
notice is received once. Where the manual leaves an outcome open, the clause is the choice of the model: log entry 122. -/
def Obligations.FencesAndSubscriptionsAreAnswered : Prop :=
  (
    ∀ (s : State) (b : BlockId) (d : DieId) (k : BitVec 2) (st : BitVec 3) (f : Fence),
      (let g : Fence := { marked := liveLinks s d, earlier := tilesInFlight s d, answers := if dieQuiet s d then fenceAnswers s d else [] }
       ∃ t, exec (.fenceReq b d) s = .next t ∧
        t = (liveLinks s d).foldl (fun u k => sendOn u { die := d, link := k, down := false } [fenceMarker b d])
              { s with fabric := { s.fabric with fences := mins s.fabric.fences (fenceKey b d) g } }
        ∧ mfind t.fabric.fences (fenceKey b d) = some g
        ∧ t = { s with fabric := { s.fabric with fences := t.fabric.fences, links := t.fabric.links }, host := { s.host with out := t.host.out } })
      ∧ (mfind s.fabric.fences (fenceKey b d) = some f → (k, st) ∈ f.arrived →
          (∀ t ∈ f.earlier, t.setWidth 3 = st → t ∉ tilesInFlight s d) → exec (.fenceMarkerAnswer b d k st) s = .next
          { s with fabric := { s.fabric with
              fences := mins s.fabric.fences (fenceKey b d) { f with answers := withLast (k, st) f.answers } } })
      ∧ (mfind s.fabric.fences (fenceKey b d) = some f → (k, st) ∉ f.arrived ∨ (∃ t ∈ f.earlier, t.setWidth 3 = st ∧ t ∈ tilesInFlight s d) →
          ∃ t, exec (.fenceMarkerAnswer b d k st) s = .next t ∧ mfind t.fabric.fences (fenceKey b d) = some f)
      ∧ (mfind s.fabric.fences (fenceKey b d) = some f → f.reset = false → (∀ l ∈ f.marked, ∀ x, (l, x) ∈ f.answers) →
          exec (.fenceDone b d false) s = .next (startWaiting
            (sendCtrl { s with fabric := { s.fabric with
                fences := mdel s.fabric.fences (fenceKey b d), fenceResult := mins s.fabric.fenceResult (fenceKey b d) 0 } }
              { src := d, dest := b.die, block := b.block, scope := 0xFF, type := 0x05, status := 0 }) d))
      ∧ (mfind s.fabric.fences (fenceKey b d) = some f → f.reset = true → exec (.fenceDone b d true) s = .next (startWaiting
            (sendCtrl { s with fabric := { s.fabric with
                fences := mdel s.fabric.fences (fenceKey b d), fenceResult := mins s.fabric.fenceResult (fenceKey b d) 1 } }
              { src := d, dest := b.die, block := b.block, scope := 0xFF, type := 0x05, status := 1 }) d)))
  ∧ (
    ∀ (s : State) (b : BlockId) (t : TileIdx),
      (let asked := noteSecure s (subscribeMsg b t)
       ((s.store.subs.filter fun x => decide (x.1 = b)).length < 64 ∨ (b, t) ∈ s.store.subs →
        ((slotOf s t).hdr.state = .ready ∨ (slotOf s t).hdr.state = .held → exec (.subscribe b t) s = .next
          (sendCtrl { asked with store := { s.store with notices := s.store.notices ++ [(b, t)] } }
            { src := storeDieId t, dest := b.die, block := b.block, scope := 0xFF, type := 0x03, paramA := t.setWidth 32,
              tag := BitVec.ofNat 16 (storeSlot t) }))
        ∧ ((slotOf s t).hdr.state = .free ∨ (slotOf s t).hdr.state = .filling → exec (.subscribe b t) s = .next
          { asked with store := { s.store with subs := if (b, t) ∈ s.store.subs then s.store.subs else s.store.subs ++ [(b, t)] } }))
       ∧ (64 ≤ (s.store.subs.filter fun x => decide (x.1 = b)).length → (b, t) ∉ s.store.subs → exec (.subscribe b t) s = .next asked)
       ∧ asked = { s with fabric := { s.fabric with secureReq := asked.fabric.secureReq } })
      ∧ (∃ u, exec (.unsubscribe b t) s = .next u ∧ (b, t) ∉ u.store.subs ∧ (∀ x, x ≠ (b, t) → (x ∈ u.store.subs ↔ x ∈ s.store.subs))
          ∧ u = { s with store := { s.store with subs := u.store.subs } })
      ∧ ((b, t) ∈ s.store.notices → ∃ u, exec (.readyNotice b t) s = .next u ∧ (b, t) ∈ u.store.known
          ∧ u.store.notices = s.store.notices.erase (b, t)
          ∧ u = { s with store := { s.store with notices := u.store.notices, known := u.store.known } }))

/-- R53, R69: a commit frees the tiles of the partition's step that do not persist and releases the held ones; a retraction frees the outputs of the step.
Every other slot keeps its contents. Where the manual leaves an outcome open, the clause is the choice of the model: log entries 21, 44. -/
def Obligations.CommitAndRetractNotices : Prop :=
  ∀ (s : State) (p : PartId) (e : Epoch), canonical {} s.store.slots = true →
    (∃ t, exec (.commitNotice p e) s = .next t ∧ ∀ x : TileIdx,
      (let h := (slotOf s x).hdr
       let mine := h.owner = p.setWidth 6 ∧ (h.state = .ready ∨ h.state = .held) ∧ h.epoch.toNat ≤ e.toNat
       (mine → h.persist = false → (slotOf t x).hdr = { h with state := .free })
       ∧ (mine → h.persist = true → (slotOf t x).hdr = { h with state := .ready })
       ∧ (¬mine → slotOf t x = slotOf s x) ∧ (slotOf t x).payload = (slotOf s x).payload
       ∧ t = { s with store := { s.store with slots := t.store.slots }
                      tier := { s.tier with cache := t.tier.cache, drains := t.tier.drains } }
       ∧ (∀ c ∈ t.tier.cache, c.1 ≠ p.setWidth 6)))
    ∧ (∃ t, exec (.retractNotice p e) s = .next t ∧ ∀ x : TileIdx,
      (let h := (slotOf s x).hdr
       let mine := h.owner = p.setWidth 6 ∧ (h.state = .ready ∨ h.state = .held) ∧ h.out = true ∧ e.toNat ≤ h.prod.toNat
       (mine → slotOf t x = { slotOf s x with hdr := { h with state := .free } })
       ∧ (¬mine → slotOf t x = slotOf s x)
       ∧ t = { s with store := { s.store with slots := t.store.slots }
                      tier := { s.tier with cache := t.tier.cache, drains := t.tier.drains } }))

/-- R32: a block that is asked to be quiet withdraws its subscriptions, after a fence that its die has in progress; it answers once its writes are fenced,
and is recorded as hung 50 ms after the request without an answer, until a warm reset. -/
def Obligations.QuiesceHandshake : Prop :=
  ∀ (s : State) (b : BlockId) (q : Quiesce),
    ((∀ x, mfind s.fabric.quiesce (blockKey b) = some x → x.stage ≠ .hung) →
      (fenceOn s b.die = false → exec (.quiesceReq b) s = .next { s with
        fabric := { s.fabric with quiesce := mins s.fabric.quiesce (blockKey b) { stage := .draining, since := recNow s } }
        store := { s.store with subs := s.store.subs.filter fun x => decide (x.1 ≠ b) } })
      ∧ (fenceOn s b.die = true → exec (.quiesceReq b) s = .next { s with
        fabric := { s.fabric with quiesce := mins s.fabric.quiesce (blockKey b) { stage := .waiting, since := recNow s } } }))
    ∧ (mfind s.fabric.quiesce (blockKey b) = some q → q.stage = .hung → exec (.quiesceReq b) s = .next s)
    ∧ (mfind s.fabric.quiesce (blockKey b) = some q → q.stage = .draining → tilesInFlight s b.die = [] → exec (.blockQuiet b) s = .next
        (sendCtrl { s with fabric := { s.fabric with quiesce := mins s.fabric.quiesce (blockKey b) { q with stage := .quiet } } }
          { src := b.die, block := b.block, dest := 0x3F, scope := 0xFF, type := 0x07 }))
    ∧ (mfind s.fabric.quiesce (blockKey b) = some q → q.stage = .draining → tilesInFlight s b.die ≠ [] → exec (.blockQuiet b) s = .next s)
    ∧ (mfind s.fabric.quiesce (blockKey b) = some q → q.stage = .quiet → exec (.quiesceDone b) s = .next
        { s with fabric := { s.fabric with quiesce := mins s.fabric.quiesce (blockKey b) { q with stage := .done } } })
    ∧ (mfind s.fabric.quiesce (blockKey b) = some q → (q.stage = .waiting ∨ q.stage = .draining ∨ q.stage = .quiet) →
        50000 ≤ since q.since (recNow s) → engineOfBlock b = none → exec (.quiesceTimeout b) s = .next
          (logEvent { s with fabric := { s.fabric with quiesce := mins s.fabric.quiesce (blockKey b) { stage := .hung, since := recNow s } } }
            (.unnamed 5 b.die [w32 b.die.toNat, w32 b.block.toNat])))

/-- R28, R33, R452: a clockless domain is released once quiet; the published rate is the least of the replica lines' readings, logged at or below 1,100;
the reference clock's loss is logged and its return resumes the timer. Where the manual leaves an outcome open, the clause is the choice of the model:
log entry 8. -/
def Obligations.RatesAndReferenceClock : Prop :=
  ∀ (s : State) (die : DieId) (d : Nat) (r : BitVec 16) (rs : List (BitVec 16)),
    (∃ t, exec (.resetRelease die true) s = .next t ∧ die ∈ t.fabric.released ∧ (∀ x, x ≠ die → (x ∈ t.fabric.released ↔ x ∈ s.fabric.released))
        ∧ t = { s with fabric := { s.fabric with released := t.fabric.released } })
    ∧ exec (.resetRelease die false) s = .next s
    ∧ (regulated d = true → r ∈ rs → (∀ x ∈ rs, r.toNat ≤ x.toNat) →
        (1100 < r.toNat → exec (.rateSample d rs) s = .next { s with fabric := { s.fabric with rate := mput 0 s.fabric.rate d r } })
        ∧ (r.toNat ≤ 1100 → exec (.rateSample d rs) s = .next
            (logEvent { s with fabric := { s.fabric with rate := mput 0 s.fabric.rate d r } }
              (.rateFloor d r.toNat (voltOf s d) (domainTemp s d).toNat))))
    ∧ (s.bureau.refclk = true → exec .refclkLoss s = .next
        (logEvent { s with bureau := { s.bureau with refclk := false } } (.unnamed 4 0x3C [])))
    ∧ exec .refclkReturn s = .next { s with bureau := { s.bureau with refclk := true } }

/-- R44 to R47: a read of the central store, once its words are corrected, is answered with the code of Table 3.6, its payload only with DATA or POISONED;
a hold keeps the tile for its owner; the owner frees a READY tile, and the Bureau any; every other FREE is discarded and logged. Where the manual
leaves an outcome open, the clause is the choice of the model: log entries 8, 9, 15, 18, 123, 124, 125. -/
def Obligations.StoreReadsAndFrees : Prop :=
  ∀ (s : State) (rq : StoreReq) (ups : List Upset), zeroFilling s rq.tile = false →
    (let answer := fun (t : State) (x : Slot) (c : ReplyCode) (full : Bool) =>
       (let denied := c = .deniedWorld ∨ c = .deniedTenant
        let hdr : TileHeader := if denied then { state := x.hdr.state } else x.hdr
        let given := if full ∧ (c = .data ∨ c = .poisoned) then some x.payload else none
        t.store.replies = s.store.replies ++ [{ rtag := rq.rtag, tile := rq.tile, code := c, hdr := hdr, payload := given }])
     let replied := fun (t : State) (x : Slot) (full : Bool) =>
       (let world := rq.part ≠ 0x3F ∧ rq.world = false ∧ x.hdr.world = true
        let tenant := rq.part ≠ 0x3F ∧ x.hdr.tenant ≠ rq.tenant ∧ x.hdr.shared = false
        (x.hdr.state = .free → answer t x .notReady full)
        ∧ (x.hdr.state ≠ .free → world → answer t x .deniedWorld full)
        ∧ (x.hdr.state ≠ .free → ¬world → tenant → answer t x .deniedTenant full)
        ∧ (x.hdr.state = .filling → ¬world → ¬tenant → answer t x .notReady full)
        ∧ (x.hdr.state = .ready ∨ x.hdr.state = .held → ¬world → ¬tenant → answer t x (if x.hdr.poison then .poisoned else .data) full))
     (let x := slotOf (eccRead s rq.tile ups false) rq.tile
      ∃ t, exec (.storeReadHeader rq ups) s = .next t ∧ replied t x false ∧ slotOf t rq.tile = x
        ∧ (∀ y, y ≠ rq.tile → slotOf t y = slotOf s y) ∧ t.fabric = s.fabric ∧ t.tier = s.tier ∧ t.flash = s.flash)
     ∧ (let x := slotOf (eccRead s rq.tile ups true) rq.tile
        let world := rq.part ≠ 0x3F ∧ rq.world = false ∧ x.hdr.world = true
        let tenant := rq.part ≠ 0x3F ∧ x.hdr.tenant ≠ rq.tenant ∧ x.hdr.shared = false
        ∃ t, exec (.storeRead rq ups) s = .next t ∧ replied t x true
          ∧ (x.hdr.state = .ready ∨ x.hdr.state = .held → ¬world → ¬tenant → rq.hold = true → rq.part = x.hdr.owner →
              slotOf t rq.tile = { x with hdr := { x.hdr with
                state := .held, epoch := if x.hdr.epoch.toNat < rq.epoch.toNat then rq.epoch else x.hdr.epoch } })
          ∧ (rq.hold = false → slotOf t rq.tile = x)
          ∧ (∀ y, y ≠ rq.tile → slotOf t y = slotOf s y) ∧ t.fabric = s.fabric ∧ t.tier = s.tier ∧ t.flash = s.flash)
     ∧ (let x := slotOf s rq.tile
        (x.flips = [] → ∀ w, slotOf (eccRead s rq.tile [] w) rq.tile = x)
        ∧ (rq.part = 0x3F ∨ (rq.part = x.hdr.owner ∧ x.hdr.state = .ready) → exec (.storeFree rq) s = .next
          (setSlot s rq.tile fun y => { y with hdr := { y.hdr with state := .free } }))
        ∧ (rq.part ≠ 0x3F → (rq.part ≠ x.hdr.owner ∨ x.hdr.state ≠ .ready) → exec (.storeFree rq) s = .next
          (logEvent s (.unnamed 6 (storeDieId rq.tile) [w32 rq.src.toNat, w32 rq.tile.toNat])))))

/-- R48, R49, R25: a header of a whole shape opens a FREE slot and is refused otherwise; the 64th payload flit makes the tile READY and its subscribers
are told; flits of a refused write are discarded. Where the manual leaves an outcome open, the clause is the choice of the model: log entries 8, 19,
125, 126. -/
def Obligations.StoreWritesTiles : Prop :=
  ∀ (s : State) (src : DieId) (tag : BitVec 16) (t : TileIdx) (h : TileHeader) (w : Bool) (k : BitVec 6) (d : Bytes) (n : Nat),
    (zeroFilling s t = false → outsideShare s src h t = none →
      (shapeOk h.format h.rows.toNat h.cols.toNat = true → (slotOf s t).hdr.state = .free → ∃ u, exec (.storeWriteHeader src tag t h w) s = .next u ∧
        u = setSlot s t (fun _ => slotOf u t)
        ∧ (slotOf u t).hdr = { h with world := w, poison := false, state := .filling, shared := (slotOf u t).hdr.shared }
        ∧ (isCompute src = true → (slotOf u t).hdr.shared = false) ∧ (src = 0x3F → (slotOf u t).hdr.shared = h.shared)
        ∧ (slotOf u t).got = [] ∧ (slotOf u t).src = src ∧ (slotOf u t).tag = tag ∧ (slotOf u t).abandoned = false)
      ∧ (shapeOk h.format h.rows.toNat h.cols.toNat = false ∨ (slotOf s t).hdr.state ≠ .free → ∃ u, exec (.storeWriteHeader src tag t h w) s = .next u ∧
        u.store = { s.store with refusing := mins s.store.refusing (xferKey src tag) 64 } ∧ u.fabric = s.fabric ∧ u.tier = s.tier))
    ∧ (mfind s.store.refusing (xferKey src tag) = some n → exec (.storeWritePayload src tag k d) s = .next { s with store := { s.store with
        refusing := if n ≤ 1 then mdel s.store.refusing (xferKey src tag) else mins s.store.refusing (xferKey src tag) (n - 1) } })
    ∧ (mfind s.store.refusing (xferKey src tag) = none → fillingSlot s src tag = some t → (slotOf s t).hdr.state = .filling →
        k ∉ (slotOf s t).got →
        (let x := slotOf s t
         let y := { x with payload := splice x.payload (256 * k.toNat) (pad 256 d), got := x.got ++ [k]
                           flips := x.flips.filter fun e => decide (e.1 / 64 ≠ k.toNat) }
         (x.got.length < 63 → exec (.storeWritePayload src tag k d) s = .next (setSlot s t fun _ => y))
         ∧ (x.got.length = 63 → ∃ u, exec (.storeWritePayload src tag k d) s = .next u ∧
           slotOf u t = { y with hdr := { x.hdr with state := .ready } }
           ∧ (∀ z, z ≠ t → slotOf u z = slotOf s z) ∧ (∀ b, (b, t) ∉ u.store.subs)
           ∧ u.store.notices = s.store.notices ++ s.store.subs.filter (fun x => decide (x.2 = t))
           ∧ u = { s with store := u.store, fabric := { s.fabric with ring := u.fabric.ring } })))

/-- R57, R61, R62: the scrub asks each die for the next slot and starts a new pass after slot 16,383; it reads the slot's words as R57 says, and skips and
counts a FILLING slot; a die resumes requests once it has zero-filled. Where the manual leaves an outcome open, the clause is the choice of the model:
log entries 16, 18, 123, 124. -/
def Obligations.StoreScrubAndZeroFill : Prop :=
  ∀ (s : State) (t : TileIdx) (d : BitVec 3) (ups : List Upset),
    (∃ u, exec .scrubPaceTick s = .next u ∧ u.store.scrubNext = s.store.scrubNext + 1
      ∧ u.store.scrubAsked = s.store.scrubAsked ++ (List.range 8).map (fun i => BitVec.ofNat 17 (8 * s.store.scrubNext.toNat + i))
      ∧ (s.store.scrubNext = 16383 → u.store.passCorrected = []) ∧ (s.store.scrubNext ≠ 16383 → u.store.passCorrected = s.store.passCorrected)
      ∧ u.store.slots = s.store.slots ∧ u = { s with store := u.store })
    ∧ (zeroFilling s t = false → (slotOf s t).hdr.state = .filling → exec (.storeScrub t ups) s = .next
        { s with store := { s.store with scrubAsked := without t s.store.scrubAsked, scrubSkips := s.store.scrubSkips + 1 } })
    ∧ (zeroFilling s t = false → (slotOf s t).hdr.state ≠ .filling → exec (.storeScrub t ups) s = .next
        (eccRead { s with store := { s.store with scrubAsked := without t s.store.scrubAsked } } t ups true))
    ∧ (zeroFilling s t = false → (slotOf s t).hdr.state = .ready → (slotOf s t).flips = [] → ∀ u : Upset, u.word < 4096 →
        secdedRead (slotWord (slotOf s t) u.word) u.mask = (.corrected, slotWord (slotOf s t) u.word) → u.mask ≠ 0 →
        ∃ v, exec (.storeScrub t [u]) s = .next v ∧
          slotWord (slotOf v t) u.word = slotWord (slotOf s t) u.word ∧ (slotOf v t).hdr = (slotOf s t).hdr ∧ (slotOf v t).flips = []
          ∧ mget 0 v.store.corrected (64 * (storeDie t).toNat + wordBank t u.word)
              = mget 0 s.store.corrected (64 * (storeDie t).toNat + wordBank t u.word) + 1
          ∧ mget 0 v.store.passCorrected (storeDie t).toNat = mget 0 s.store.passCorrected (storeDie t).toNat + 1
          ∧ (∀ y, y ≠ t → slotOf v y = slotOf s y))
    ∧ (∃ u, exec (.storeZeroFillDone d) s = .next u ∧ d ∉ u.store.zeroFilling ∧ (∀ x, x ≠ d → (x ∈ u.store.zeroFilling ↔ x ∈ s.store.zeroFilling))
        ∧ u = { s with store := { s.store with zeroFilling := u.store.zeroFilling } })

/-- R64, R67 to R70, R79, R80, R92: reads and writes of extents in tier L. A read places the tile in the store with the fields the request gives; a write
stores it and, of a WB extent, sets its dirty bit; a write that must wait is queued; refusals answer with their status. Where the manual leaves an
outcome open, the clause is the choice of the model: log entries 19, 22, 130, 131. -/
def Obligations.TierReadsAndWrites : Prop :=
  ∀ (s : State) (rq : TierReq) (x : Nat) (t : BitVec 7) (d : LoadDest) (tile : Tile) (e : ExtentEntry),
    (let answer := fun (u : State) (st : TierStatus) (tl : Option Tile) =>
       u.tier.replies = s.tier.replies ++ [{ part := rq.part, x := x, t := t, status := st, tile := tl }]
     let n := (readPlace e t).2
     let m := (place e t).2
     let kept : Tile := { tile with hdr := storedFrom rq.slot tile.hdr }
     (translate s rq x = none ∨ windowBarred s rq x = true → ∃ u, exec (.tierReadTile rq x t d []) s = .next u ∧ answer u .translation none
        ∧ mget 0 u.host.cntTenant (8 * rq.tenant.toNat + 3) = mget 0 s.host.cntTenant (8 * rq.tenant.toNat + 3) + 1
        ∧ u.store = s.store ∧ u.fabric = s.fabric)
     ∧ (windowBarred s rq x = false → translate s rq x = some e → tierCheck rq e ≠ .ok → ∃ u, exec (.tierReadTile rq x t d []) s = .next u ∧
        answer u (tierCheck rq e) none ∧ u.store = s.store ∧ u.fabric = s.fabric)
     ∧ (windowBarred s rq x = false → translate s rq x = some e → tierCheck rq e = .ok → (readPlace e t).1 = 2 →
        (retrains s (readPlace e t) = true ∨ notTaking s (channelBlock n) = true → exec (.tierReadTile rq x t d []) s = .next
          { s with tier := { s.tier with waitReads := s.tier.waitReads ++ [{ rq := rq, x := x, t := t, dest := d, fault := [] }] } })
        ∧ (retrains s (readPlace e t) = false → notTaking s (channelBlock n) = false → isLost s x e t = false →
          ∃ u, exec (.tierReadTile rq x t d []) s = .next u ∧
            answer u .ok (some { hdr := (lTile s n).hdr, payload := (lTile s n).payload })
            ∧ u.tier.leaves = s.tier.leaves ∧ u.tier.lmem = s.tier.lmem
            ∧ ((slotOf s d.tile).hdr.state = .free → shapeOk (lTile s n).hdr.format (lTile s n).hdr.rows.toNat (lTile s n).hdr.cols.toNat = true →
                (slotOf u d.tile).payload = (lTile s n).payload ∧ (slotOf u d.tile).hdr.state = .ready
                ∧ (slotOf u d.tile).hdr.owner = d.owner ∧ (slotOf u d.tile).hdr.epoch = d.epoch ∧ (slotOf u d.tile).hdr.world = e.world
                ∧ (slotOf u d.tile).hdr.srcValid = true ∧ (slotOf u d.tile).hdr.srcTile = BitVec.ofNat 34 (128 * x + t.toNat)
                ∧ (slotOf u d.tile).hdr.scaleIndex = d.tile + (lTile s n).hdr.scaleIndex
                ∧ (slotOf u d.tile).hdr.crc = (lTile s n).hdr.crc ∧ (∀ y, y ≠ d.tile → slotOf u y = slotOf s y))))
     ∧ (windowBarred s rq x = false → entryOf s x = some e → tierCheck rq e = .ok →
        (e.cls = 0 → ∃ u, exec (.tierWriteTile rq x t tile) s = .next u ∧
          answer u .readOnly none ∧ u.tier.lmem = s.tier.lmem ∧ u.tier.leaves = s.tier.leaves ∧ u.store = s.store)
        ∧ (e.cls ≠ 0 → writeWaits s e t = true → exec (.tierWriteTile rq x t tile) s = .next
          { s with tier := { s.tier with waiting := s.tier.waiting ++ [{ rq := rq, x := x, t := t, tile := kept }] } })
        ∧ (e.cls ≠ 0 → writeWaits s e t = false → (place e t).1 = 2 → ∃ u, exec (.tierWriteTile rq x t tile) s = .next u ∧ answer u .ok none
          ∧ lTile u m = { hdr := kept.hdr, payload := tile.payload, dirty := decide (e.cls = 1) }
          ∧ (∀ k, k ≠ m → lTile u k = lTile s k)
          ∧ (e.cls = 1 → entryOf u x = some { e with tilemap := e.tilemap ||| BitVec.ofNat 128 (2 ^ t.toNat) })
          ∧ (e.cls ≠ 1 → u.tier.leaves = s.tier.leaves) ∧ u = { s with tier := u.tier })))

/-- R70, R71: a waiting write goes on once its entry lets it; a write-back of a dirty tile that its HOME takes clears the dirty bit. Where the manual
leaves an outcome open, the clause is the choice of the model: log entry 23. -/
def Obligations.WaitingWritesAndWriteBack : Prop :=
  ∀ (s : State) (i : Nat) (w : PendWrite) (x : Nat) (t : BitVec 7) (e : ExtentEntry),
    (s.tier.waiting[i]? = some w → entryOf s w.x = some e → windowBarred s w.rq w.x = false → tierCheck w.rq e = .ok → e.cls ≠ 0 →
      (writeWaits s e w.t = true → exec (.tierWriteUnblocked i) s = .next s)
      ∧ (writeWaits s e w.t = false → (place e w.t).1 = 2 → ∃ u, exec (.tierWriteUnblocked i) s = .next u ∧
          u.tier.waiting = s.tier.waiting.eraseIdx i
          ∧ lTile u (place e w.t).2 = { hdr := storedHeader w.tile.hdr, payload := w.tile.payload, dirty := decide (e.cls = 1) }
          ∧ (∀ k, k ≠ (place e w.t).2 → lTile u k = lTile s k) ∧ u = { s with tier := u.tier }))
    ∧ (entryOf s x = some e → e.cls = 1 → e.tilemap.getLsbD t.toNat = true → (readPlace e t).1 = 2 → retrains s (place e t) = false →
       isLost s x e t = false →
      (let l := lTile s (readPlace e t).2
       let home := writeUnit s (128 * e.homeLoc.toNat + t.toNat) { hdr := storedHeader l.hdr, payload := l.payload } (.writeBack (128 * x + t.toNat))
       (home.2 = true → ∃ u, exec (.writeBack x t []) s = .next u ∧
          entryOf u x = some { e with tilemap := e.tilemap &&& ~~~ BitVec.ofNat 128 (2 ^ t.toNat) }
          ∧ u.tier.dirtyAt = mdel s.tier.dirtyAt (128 * x + t.toNat) ∧ u.tier.lmem = s.tier.lmem ∧ u.flash = home.1.flash
          ∧ u.store = s.store)
       ∧ (home.2 = false → ∃ u, exec (.writeBack x t []) s = .next u ∧ u.tier.leaves = s.tier.leaves ∧ u.tier.dirtyAt = s.tier.dirtyAt)))
    ∧ (entryOf s x = some e → e.cls = 1 → e.tilemap.getLsbD t.toNat = false → exec (.writeBack x t []) s = .next s)

/-- R73, R74: the migration of an RO extent fills the new place, switches to it, and frees the old place once its readers are done; the migration of
another extent copies tile by tile and ends at the new place. Where the manual leaves an outcome open, the clause is the choice of the model: log
entries 21, 22. -/
def Obligations.MigrationMovesExtents : Prop :=
  ∀ (s : State) (x : Nat) (e : ExtentEntry) (tier : BitVec 2) (loc : BitVec 25) (d : Drain), entryOf s x = some e →
    (e.cls = 0 → e.mstate = 0 → e.newTier = 0 → copyAllowed e tier = true → moveTo s tier loc = true →
      ∃ u, exec (.migrateRoStart x tier loc) s = .next u ∧
        u = (List.range 128).foldl (fillTile x tier loc) (setEntry s x fun y => { y with newTier := tier, newLoc := loc, tilemap := 0 })
        ∧ ∃ m, entryOf u x = some { e with newTier := tier, newLoc := loc, tilemap := m })
    ∧ (e.cls = 0 → e.mstate = 0 → e.newTier ≠ 0 → e.tilemap = BitVec.allOnes 128 → ∃ u, exec (.migrateRoSwitch x) s = .next u ∧
      entryOf u x = some (if e.homeTier = 2 ∧ e.newTier = 2
        then { e with homeLoc := e.newLoc, newTier := 0, newLoc := 0, tilemap := 0, mstate := 2 }
        else { e with copyTier := e.newTier, copyLoc := e.newLoc, newTier := 0, newLoc := 0, tilemap := 0, mstate := 2 })
      ∧ (∃ g, mfind u.tier.drains x = some g ∧ g.users = usersNow s) ∧ u = { s with tier := u.tier })
    ∧ (mfind s.tier.drains x = some d → d.users = [] → ∃ u, exec (.migrateRoDrainEnd x) s = .next u ∧
      entryOf u x = some { e with mstate := 0 } ∧ mfind u.tier.drains x = none
      ∧ (d.tier = 1 → ∀ t < 128, (slotOf u (BitVec.ofNat 17 (128 * d.loc.toNat + t))).hdr.state = .free))
    ∧ (e.cls ≠ 0 → e.mstate = 0 → copyAllowed e tier = true → moveTo s tier loc = true → ∃ u, exec (.migrateStart x tier loc) s = .next u ∧
      entryOf u x = some { e with newTier := tier, newLoc := loc, movePtr := 0, mstate := 1 } ∧ u = { s with tier := u.tier })
    ∧ (e.cls ≠ 0 → e.mstate = 1 → e.inflight ≠ 0 → ∃ u, exec (.migrateTileCopy x) s = .next u ∧
      entryOf u x = some { e with moveBusy := true } ∧ u = { s with tier := u.tier })
    ∧ (e.cls ≠ 0 → e.mstate = 1 → e.inflight = 0 → e.copyTier = 2 → e.newTier = 2 →
       mfind s.tier.refetched (128 * x + e.movePtr.toNat) = none → ∃ u, exec (.migrateTileCopy x) s = .next u ∧
      lTile u (128 * e.newLoc.toNat + e.movePtr.toNat) = lTile s (128 * e.copyLoc.toNat + e.movePtr.toNat)
      ∧ (e.movePtr.toNat < 127 → entryOf u x = some { e with movePtr := e.movePtr + 1, moveBusy := false })
      ∧ (e.movePtr.toNat = 127 → entryOf u x = some
          { e with copyTier := 2, copyLoc := e.newLoc, newTier := 0, newLoc := 0, movePtr := 0, mstate := 0, moveBusy := false }))

/-- R76, R81, R82, R86, R88, R94: the LPDDR6 packages and subchannels, weight streaming, and a read-back that fails again. Where the manual leaves an
outcome open, the clause is the choice of the model: log entries 19, 132. -/
def Obligations.Lpddr6AndStreams : Prop :=
  ∀ (s : State) (k : BitVec 5) (temp mts : BitVec 16) (r sub : BitVec 8) (hot : Bool) (p : PartId)
    (plan : StreamPlan) (g : PlanEntry) (i x : Nat) (e : ExtentEntry) (t : BitVec 7) (tl : Tile),
    (∃ u, exec (.mr4Poll k temp r hot) s = .next u ∧
      mget 0 u.tier.pkgTemp k.toNat = temp ∧ mget 0 u.tier.refresh k.toNat = r ∧ (k.toNat ∈ u.tier.pkgHot ↔ hot = true)
      ∧ ((hot = false ∨ k.toNat ∈ s.tier.pkgHot) → u = { s with tier := u.tier })
      ∧ (hot = true → k.toNat ∉ s.tier.pkgHot → ∃ v, u = logEvent v (.unnamed 13 (BitVec.ofNat 6 (0x20 + k.toNat / 2)) [w32 k.toNat, temp.setWidth 32])
          ∧ v = { s with tier := v.tier }))
    ∧ (∃ u, exec (.wckOscCheck sub true) s = .next u ∧ sub ∈ u.tier.retraining ∧ u = { s with tier := { s.tier with retraining := u.tier.retraining } })
    ∧ exec (.wckOscCheck sub false) s = .next s
    ∧ (s.tier.waiting = [] → s.tier.waitReads = [] → exec (.subchannelRetrainDone sub) s = .next
        { s with tier := { s.tier with retraining := s.tier.retraining.filter fun y => decide (y ≠ sub) } })
    ∧ (mts = 14400 ∨ mts = 10667 → ∃ u, exec (.lpddr6TrainingDone mts) s = .next u ∧
        (∀ j < 32, ∃ m, mfind u.tier.modes j = some m ∧ m.burst288 = true ∧ m.onDieEcc = true ∧ m.perBank = true)
        ∧ u = { s with tier := { s.tier with mts := mts, modes := u.tier.modes }, power := { s.power with memoryActive := true }, free := u.free })
    ∧ (streamAt s p = some (plan, g, i) → (streamOf s p).polling = false →
        (let dest := streamDest plan g i (streamOf s p).pass
         let n := g.src.toNat + i
         ((slotOf s dest).hdr.state ≠ .free → exec (.streamTileWrite p []) s = .next (setStream s p fun y => { y with polling := true }))
         ∧ ((slotOf s dest).hdr.state = .free → entryOf s (devExtent n) = some e → (readPlace e (devPos n)).1 = 2 →
            tierCheck { part := p.setWidth 6, die := channelDie n } e = .ok → isLost s (devExtent n) e (devPos n) = false →
            retrains s (readPlace e (devPos n)) = false →
            shapeOk (lTile s (readPlace e (devPos n)).2).hdr.format (lTile s (readPlace e (devPos n)).2).hdr.rows.toNat
              (lTile s (readPlace e (devPos n)).2).hdr.cols.toNat = true →
            ∃ u, exec (.streamTileWrite p []) s = .next u ∧
              (slotOf u dest).payload = (lTile s (readPlace e (devPos n)).2).payload ∧ (slotOf u dest).hdr.state = .ready
              ∧ (slotOf u dest).hdr.epoch = (streamOf s p).epoch ∧ (slotOf u dest).hdr.owner = p.setWidth 6
              ∧ streamOf u p = advanceStream plan (streamOf s p) ∧ (∀ y, y ≠ dest → slotOf u y = slotOf s y))))
    ∧ (streamAt s p = some (plan, g, i) → (streamOf s p).polling = true →
        (slotOf s (streamDest plan g i (streamOf s p).pass)).hdr.state = .free →
        exec (.streamSlotPoll p) s = .next (setStream s p fun y => { y with polling := false }))
    ∧ (entryOf s x = some e → mfind s.tier.refetched (128 * x + t.toNat) = some tl →
        exec (.refetchReadback x t true) s = .next { s with tier := { s.tier with refetched := mdel s.tier.refetched (128 * x + t.toNat) } }
        ∧ ((readPlace e t).1 = 2 → e.mstate = 0 → e.newTier = 0 → freeL s ≠ [] → copyAllowed e 2 = true →
            ∃ u, exec (.refetchReadback x t false) s = .next u ∧ (readPlace e t).2 / 128 ∈ u.tier.retiredL
              ∧ (∃ y, entryOf u x = some y ∧ y.newTier = 2 ∧ y.newLoc.toNat ∈ freeL s) ∧ u.flash = s.flash ∧ u.fabric = s.fabric))

/-- R39, R91, R97 to R103, R104, R106 to R108, R132: each shape of a product adds the exact products of its vectors to the cells that the shape names, all
cells of the output tile at one anchor, and to no other cell; it waits for its operands; a product outside the context's share stops the context;
operands of no operand format are undefined. Where the manual leaves an outcome open, the clause is the choice of the model: log entries 7, 24, 25,
26, 134, 135, 138. -/
def Obligations.ProductsFillTheirCells : Prop :=
  ∀ (s : State) (m : MatmulOp) (c : ConvOp) (sh : Share),
    (let x := engOf s m.engine
     let n := opLanes m
     let w := fun j => opVector x sh m.wFmt m.wAddr n j
     let v := fun k => opVector x sh m.aFmt m.aAddr n k
     contextShare x m.ctx = some sh → m.chk = {} → 0 < n →
     ((let op : TileOp := .deep m
       let a := effAnchor x op
       let y := raiseCells x m.tile (tileAnchor x m) a
       op.outside sh = none → op.ready x sh = true → ∃ t, exec (.deepShapeMatmul m) s = .next t ∧
        (∀ r j, r < m.rows → j < 512 → accCell (engOf t m.engine) (m.rowBase + r) j =
          { accumulate a (startCell y sh m a (m.rowBase + r) j (cellIx r j)) (w j) (v r) with home := some (m.tile, m.tileRow + r) })
        ∧ (∀ r j, r < m.rowBase ∨ m.rowBase + m.rows ≤ r → j < 512 → accCell (engOf t m.engine) r j = accCell y r j)
        ∧ mget 0 (engOf t m.engine).anchors m.tile.toNat = a
        ∧ (∀ g, g ≠ m.engine → engOf t g = engOf s g) ∧ t = { s with engines := t.engines })
      ∧ (let op : TileOp := .wide m
         let a := effAnchor x op
         let y := raiseCells x m.tile (tileAnchor x m) a
         op.outside sh = none → op.ready x sh = true → ∃ t, exec (.wideShapeMatmul m) s = .next t ∧
        (∀ r k, r < m.rows → k < 32 → accCell (engOf t m.engine) (m.rowBase + r / 16) (32 * (r % 16) + k) =
          { (List.range 16).foldl (fun z g => accumulate a z (w (32 * g + k)) (v (16 * r + g)))
              (startCell y sh m a (m.rowBase + r / 16) (32 * (r % 16) + k) (cellIx (r / 16) (32 * (r % 16) + k)))
            with home := some (m.tile, m.tileRow + r) })
        ∧ mget 0 (engOf t m.engine).anchors m.tile.toNat = a
        ∧ (∀ g, g ≠ m.engine → engOf t g = engOf s g) ∧ t = { s with engines := t.engines })
      ∧ (∀ z, (TileOp.deep m).outside sh = some z → exec (.deepShapeMatmul m) s = .next (violate s m.engine sh z))
      ∧ (∀ z, (TileOp.wide m).outside sh = some z → exec (.wideShapeMatmul m) s = .next (violate s m.engine sh z))
      ∧ ((TileOp.deep m).outside sh = none → (TileOp.deep m).ready x sh = false → exec (.deepShapeMatmul m) s = .next s)
      ∧ ((TileOp.wide m).outside sh = none → (TileOp.wide m).ready x sh = false → exec (.wideShapeMatmul m) s = .next s)))
    ∧ (opLanes m = 0 → exec (.deepShapeMatmul m) s = .fault (.undefinedOperation 97)
        ∧ exec (.wideShapeMatmul m) s = .fault (.undefinedOperation 97))
    ∧ (let x := engOf s c.mm.engine
       let op : TileOp := .conv c
       let a := effAnchor x op
       let y := raiseCells x c.mm.tile (tileAnchor x c.mm) a
       contextShare x c.mm.ctx = some sh → c.mm.chk = {} → 0 < opLanes c.mm → convOk c = true →
       (op.outside sh = none → op.ready x sh = true → ∃ t, exec (.convolution c) s = .next t ∧
        (∀ r j, r < c.mm.rows → j < 512 → accCell (engOf t c.mm.engine) (c.mm.rowBase + r) j =
          { (List.range c.chunks).foldl (fun z q => accumulate a z (opVector x sh c.mm.wFmt c.mm.wAddr (opLanes c.mm) (512 * q + j))
                (convVector c x sh (c.pos0 + r) (c.chunk0 + q)))
              (startCell y sh c.mm a (c.mm.rowBase + r) j (cellIx r j)) with home := some (c.mm.tile, c.mm.tileRow + r) })
        ∧ mget 0 (engOf t c.mm.engine).anchors c.mm.tile.toNat = a
        ∧ (∀ g, g ≠ c.mm.engine → engOf t g = engOf s g) ∧ t = { s with engines := t.engines })
       ∧ (∀ z, op.outside sh = some z → exec (.convolution c) s = .next (violate s c.mm.engine sh z))
       ∧ (op.outside sh = none → op.ready x sh = false → exec (.convolution c) s = .next s))
    ∧ (0 < opLanes c.mm → convOk c = false → exec (.convolution c) s = .fault (.undefinedOperation 103))

/-- R107, R110 to R113, R119, R128, R134: a conversion read writes the row's converted cells, or its spill records; the first overflow of an output tile
raises its anchor by 32 and starts its retry, which computes the tile again; a second one saturates; the feeder moves one level at a time toward its
target. Where the manual leaves an outcome open, the clause is the choice of the model: log entries 24, 134. -/
def Obligations.ConversionReadsAndActivity : Prop :=
  ∀ (s : State) (c : ConvRead) (sh : Share) (e : Engine) (gap : Nat),
    (let x := engOf s c.engine
     let ovf := overflowTiles x c.row
     contextShare x c.ctx = some sh → inRows sh c.row 1 = true → c.chk = {} →
     (c.fmt ≠ 0x10 → inVregs sh c.dst = true →
       (ovf = [] → ∃ t, exec (.conversionRead c) s = .next t ∧
          (∀ i, i < 512 → (vregOf (engOf t c.engine) c.dst).getD i 0
            = w32 (convert c.fmt c.outAnchor ((accCell x c.row i).val (cellAnchor x (accCell x c.row i))) false))
          ∧ (∀ r, r ≠ c.dst → vregOf (engOf t c.engine) r = vregOf x r)
          ∧ (c.release = false → (engOf t c.engine).acc = x.acc) ∧ (c.release = true → c.row ∉ (engOf t c.engine).live)
          ∧ (∀ g, g ≠ c.engine → engOf t g = engOf s g) ∧ t = { s with engines := t.engines })
       ∧ ((∃ k ∈ ovf, mfind x.raised k.toNat = none) → ∃ t, exec (.conversionRead c) s = .next t ∧
          (∀ k ∈ ovf, mfind x.raised k.toNat = none → mfind (engOf t c.engine).raised k.toNat = some (mget 0 x.anchors k.toNat + 32)
            ∧ k.toNat ∈ (engOf t c.engine).retrying ∧ tileLive (engOf t c.engine) k = false)
          ∧ (engOf t c.engine).retries = x.retries + (ovf.filter fun k => (mfind x.raised k.toNat).isNone).length
          ∧ (engOf t c.engine).vregs = x.vregs)
       ∧ (ovf ≠ [] → (∀ k ∈ ovf, mfind x.raised k.toNat ≠ none) → ∃ t, exec (.conversionRead c) s = .next t ∧
          (∀ k ∈ ovf, k.toNat ∈ (engOf t c.engine).saturated) ∧ (engOf t c.engine).faults = x.faults + ovf.length
          ∧ (x.firstFault = none → (engOf t c.engine).firstFault = some (0x13, 0xFFFF))))
     ∧ (c.fmt = 0x10 → inFrames sh c.dst 8192 = true → ∃ t, exec (.conversionRead c) s = .next t ∧
          cacheRead (engOf t c.engine) c.dst 8192 = (rowCells x c.row).flatMap Cell.record
          ∧ (engOf t c.engine).vregs = x.vregs ∧ (∀ g, g ≠ c.engine → engOf t g = engOf s g) ∧ t = { s with engines := t.engines })
     ∧ (c.tile.toNat ∈ x.retrying →
        (let u := setEng s c.engine fun y => { y with retrying := y.retrying.filter fun z => decide (z ≠ c.tile.toNat) }
         (operandsGone s x c.tile = false → exec (.anchorRetryDone c) s = .next (conversionRead (rerunTile u c.engine sh c.tile) c))
         ∧ (operandsGone s x c.tile = true → exec (.anchorRetryDone c) s = .next u))))
    ∧ (exec (.activityHoldExpiry e (.gap gap)) s
        = .next (setEng s e fun y => { y with levelTarget := if gap < y.holdGap.toNat then y.level else 0 })
      ∧ exec (.activityHoldExpiry e (.wait gap)) s
        = .next (setEng s e fun y => { y with levelTarget := if gap < y.holdGap.toNat then y.level else 0 })
      ∧ exec (.activityHoldExpiry e .ramp) s = .next (setEng s e fun y => { y with levelTarget := 16 }))
    ∧ (∃ t, exec (.activityLevelStep e) s = .next t ∧
        ((engOf s e).level < (engOf s e).levelTarget → (engOf t e).level = (engOf s e).level + 1)
        ∧ ((engOf s e).levelTarget < (engOf s e).level → (engOf t e).level + 1 = (engOf s e).level)
        ∧ ((engOf s e).level = (engOf s e).levelTarget → (engOf t e).level = (engOf s e).level)
        ∧ t = setEng s e fun y => { y with level := (engOf t e).level })

/-- R126, R127, R129, R132 to R138: a vector operation inside its share writes its result and nothing else; with a fault it writes nothing and the step
notes the fault; outside its share it stops the context. Where the manual leaves an outcome open, the clause is the choice of the model: log entries
24, 27, 28, 138, 154. -/
def Obligations.VectorOperationsWriteTheirRow : Prop :=
  ∀ (s : State) (v : VecOp) (w : VecRef) (sh : Share) (f : BitVec 8) (d g b frame addr : Nat) (cs sn : RotTable) (half : Bool) (eps : Word)
    (k : RedKind) (x0 : BitVec 8 × BitVec 16) (an : Int) (ti : TileIdx) (h : TileHeader),
    (let x := engOf s v.engine
     let frameBytes := pad 16384 (mget [] x.frames frame)
     contextShare x v.ctx = some sh →
     (v.touch.outside sh = none → v.chk = {} →
       ((∀ f a l, v.kind ≠ .store f a l) → (∀ g t h, v.kind ≠ .egress g t h) → ∃ t, exec (.vectorOp v) s = .next t ∧
          vrow (engOf t v.engine) v.dst v.n = (match v.kind with
            | .load f addr => loadRow x sh f addr v.n
            | k => zip3 (vecElem k) (vrow x v.a v.n) (vrow x v.b v.n) (vrow x v.c v.n))
          ∧ (∀ r, r < v.dst ∨ v.dst + rowRegs v.n ≤ r → vregOf (engOf t v.engine) r = vregOf x r)
          ∧ (engOf t v.engine).acc = x.acc ∧ (∀ e, e ≠ v.engine → engOf t e = engOf s e) ∧ t = { s with engines := t.engines })
       ∧ (v.kind = .store f an addr → exec (.vectorOp v) s = .next (setEng s v.engine fun y => storeRow y f an addr (vrow x v.a v.n)))
       ∧ (v.kind = .egress frame ti h → exec (.vectorOp v) s = .next (writeOut s v.engine sh ti h frameBytes none)
          ∧ (h.owner = 0x3E ∨ inShare (partOf s sh.part) ti = true → shapeOk h.format h.rows.toNat h.cols.toNat = true →
             (slotOf s ti).hdr.state = .free → ∃ t, exec (.vectorOp v) s = .next t ∧
               (slotOf t ti).payload = frameBytes ∧ (slotOf t ti).hdr.state = .ready ∧ (slotOf t ti).hdr.world = sh.world
               ∧ (slotOf t ti).hdr.crc = (outTile x sh (partOf s sh.part).step.epoch ti h frameBytes).hdr.crc
               ∧ (h.owner ≠ 0x3E → (slotOf t ti).hdr.owner = sh.part.setWidth 6)
               ∧ (∀ y, y ≠ ti → slotOf t y = slotOf s y) ∧ t.engines = s.engines)))
     ∧ (v.touch.outside sh = none → v.chk = { fault := some x0 } → (∀ g t h, v.kind ≠ .egress g t h) →
        exec (.vectorOp v) s = .next (noteFault s v.engine x0))
     ∧ (∀ y, v.touch.outside sh = some y → exec (.vectorOp v) s = .next (violate s v.engine sh y)))
    ∧ (let x := engOf s w.engine
       let row := fun (t : State) (n : Nat) (l : List Word) => vrow (engOf t w.engine) w.dst n = l
         ∧ (∀ r, r < w.dst ∨ w.dst + rowRegs n ≤ r → vregOf (engOf t w.engine) r = vregOf x r)
         ∧ (engOf t w.engine).acc = x.acc ∧ (∀ e, e ≠ w.engine → engOf t e = engOf s e) ∧ t = { s with engines := t.engines }
       let inTable := fun (t : RotTable) => decide (t.pos < t.positions)
         && inFrames sh (elemAddr t.fmt t.addr (t.pos * (w.n / 2))) ((w.n / 2 * elemSize t.fmt + 7) / 8)
       contextShare x w.ctx = some sh → w.chk = {} → regsIn sh w.a (rowRegs w.n) = true →
       (w.rows = 0 → regsIn sh w.dst (rowRegs 1) = true → ∃ t, exec (.reduction w k) s = .next t ∧ row t 1 [reduce k (vrow x w.a w.n)])
       ∧ (0 < w.rows → (∀ i < w.rows, regsIn sh (w.a + i * rowRegs w.n) (rowRegs w.n) = true) → regsIn sh w.dst (rowRegs w.n) = true →
          ∃ t, exec (.reduction w k) s = .next t ∧ row t w.n (reduceDown k ((List.range w.rows).map fun i => vrow x (w.a + i * rowRegs w.n) w.n) w.n))
       ∧ (regsIn sh w.dst (rowRegs w.n) = true → w.n % 2 = 0 → inTable cs = true → inTable sn = true →
          ∃ t, exec (.rotaryEncoding w cs sn half) s = .next t ∧ row t w.n (if half = true
            then rotHalves (vrow x w.a w.n) (tableRow x sh cs (w.n / 2)) (tableRow x sh sn (w.n / 2))
            else rotAdjacent (vrow x w.a w.n) (tableRow x sh cs (w.n / 2)) (tableRow x sh sn (w.n / 2))))
       ∧ (cs.positions ≤ cs.pos → exec (.rotaryEncoding w cs sn half) s
            = .next (violate s w.engine sh (elemAddr cs.fmt cs.addr (cs.pos * (w.n / 2)))))
       ∧ (regsIn sh w.dst (rowRegs w.n) = true → regsIn sh g (rowRegs w.n) = true →
          (∃ t, exec (.normalisation w false eps g b) s = .next t ∧ row t w.n (rmsNorm (vrow x w.a w.n) (vrow x g w.n) eps))
          ∧ (regsIn sh b (rowRegs w.n) = true →
            ∃ t, exec (.normalisation w true eps g b) s = .next t ∧ row t w.n (layerNorm (vrow x w.a w.n) (vrow x g w.n) (vrow x b w.n) eps)))
       ∧ (let n := (w.n + 31) / 32
          let q := mxRow f n (vrow x w.a w.n)
          let el := packBits (elemSize f) q.2
          inFrames sh w.dst ((w.n * elemSize f + 7) / 8) = true → inFrames sh d n = true →
          exec (.mxQuantise w f d) s = .next (setEng s w.engine fun y =>
            cacheWrite (cacheWrite y (el.length / 16384 + 2) w.dst el) (n / 16384 + 2) d (q.1.map (BitVec.ofNat 8)))))

/-- R132, R139, R140, R142, R144 to R147, R149: an exact selection keeps the best K valid entries in rank order; a bucketed selection that is not
approximate keeps the same entries; a merge keeps at most K entries of its lists and each identifier once; each writes its list as a SELECT tile.
Where the manual leaves an outcome open, the clause is the choice of the model: log entries 7, 29, 30. -/
def Obligations.SelectionsKeepTheBest : Prop :=
  ∀ (s : State) (e : Engine) (p : SelParams) (inp : SelInput) (tiles : List TileIdx) (bucket : Bool) (out : TileIdx) (sh : Share),
    (let input := selEntries s e p inp
     let ok := fun i => ∃ x, input[i]? = some x ∧ isNan x.score = false ∧ x.id ≠ 0xFFFFFFFFFF
     let key := fun i => selKey p.ascending ((input[i]?.map (·.score)).getD 0)
     let before := fun i j => key j < key i ∨ (key i = key j ∧ i < j)
     let written := fun (t : State) (l : SelList) =>
       mfind t.engines.selOut out.toNat = some l ∧ (slotOf t out).payload = pad 16384 (l.bytes s.free) ∧ (slotOf t out).hdr.state = .ready
       ∧ (slotOf t out).hdr.format = 0x11 ∧ (slotOf t out).hdr.rows.toNat = p.k ∧ (slotOf t out).hdr.cols = 12
       ∧ (∀ y, y ≠ out → slotOf t y = slotOf s y) ∧ t.tier = s.tier ∧ t.flash = s.flash
     (selOk p input.length = false → exec (.selectExact e p inp out) s = .fault (.undefinedOperation 141)
        ∧ exec (.selectBucket e p inp out) s = .fault (.undefinedOperation 141))
     ∧ (contextShare (engOf s e) (engOf s e).running = some sh →
       (selOk p input.length = true → ∀ y, inp.touch.outside sh = some y → exec (.selectExact e p inp out) s = .next (violate s e sh y)
          ∧ exec (.selectBucket e p inp out) s = .next (violate s e sh y))
       ∧ (inp.touch.outside sh = none → p.chk = {} → selOk p input.length = true → (p.persist = true ∨ inShare (partOf s sh.part) out = true) →
          (slotOf s out).hdr.state = .free →
          (∃ t, exec (.selectExact e p inp out) s = .next t ∧ ∃ l, written t l
             ∧ l.entries.length = min p.k (input.countP fun x => !isNan x.score && x.id ≠ 0xFFFFFFFFFF)
             ∧ (∀ y ∈ l.entries, ok y.1.toNat ∧ input[y.1.toNat]? = some { score := y.2.2, id := y.2.1 })
             ∧ l.entries.Pairwise (fun a b => before a.1.toNat b.1.toNat)
             ∧ (∀ i, ok i → (∀ y ∈ l.entries, y.1.toNat ≠ i) → ∀ y ∈ l.entries, before y.1.toNat i)
             ∧ l.nValid = l.entries.length ∧ l.inputCount = input.length ∧ l.approx = false ∧ t.engines.engine = s.engines.engine)
          ∧ (∃ t, exec (.selectBucket e p inp out) s = .next t ∧ ∃ l, written t l
             ∧ (l.approx = false → l.entries = (select p false input).entries) ∧ t.engines.engine = s.engines.engine))
       ∧ (p.chk = {} → selOk p 0 = true → (p.persist = true ∨ inShare (partOf s sh.part) out = true) → (slotOf s out).hdr.state = .free →
          ∃ t, exec (.selectMerge e p tiles bucket out) s = .next t ∧ ∃ l, written t l
             ∧ l.entries.length ≤ p.k ∧ (l.entries.map (·.2.1)).Nodup
             ∧ (∀ y ∈ l.entries, ∃ m ∈ tiles, ∃ z ∈ (listAt s m).entries, y.2 = z.2)
             ∧ (l.dupMismatch = true → (engOf t e).faults = (engOf s e).faults + 1)
             ∧ (l.dupMismatch = false → t.engines.engine = s.engines.engine))))
    ∧ (selOk p 0 = false → exec (.selectMerge e p tiles bucket out) s = .fault (.undefinedOperation 141))

/-- R151 to R154, R177: the merge's owner starts when every expected slot can be read, or, in a retrieval phase, when the budget has passed; a slot's
lines are written first and its ready line, with the next sequence number, once they are visible; the owner re-reads an invalidated line, and takes
only a tile whose CRC the line names. -/
def Obligations.MergeCollectiveFollowsReadyLines : Prop :=
  ∀ (s : State) (m src slot h : Nat) (x : MergeSet) (e : Engine) (n : TileIdx) (part : MergePart) (l old : ReadyLine) (tile : Tile),
    ((mergeOf s m).withdrawn = [] →
      ((∀ y ∈ x.slots, readable s y.2 = true) → ∃ t, exec (.mergeStart m x) s = .next t ∧
        (mergeOf t m).started = true ∧ (mergeOf t m).expected = x.slots ∧ (mergeOf t m).arrived = x.slots.map (·.1)
        ∧ (∀ k, k ≠ m → mergeOf t k = mergeOf s k) ∧ t = { s with engines := t.engines })
      ∧ ((∃ y ∈ x.slots, readable s y.2 = false) →
        (let here := (x.slots.filter fun y => readable s y.2).map (·.1)
         (x.budgetOf = none ∨ (∃ k, x.budgetOf = some k ∧ budgetPassed s k = false) → exec (.mergeStart m x) s = .next
            (setMerge s m fun y => { y with expected := x.slots, arrived := here, started := false }))
         ∧ (x.budgetOf = some h → budgetPassed s h = true → exec (.mergeStart m x) s = .next
            (flagRequest (setMerge s m fun y => { y with expected := x.slots, arrived := here, started := true }) flagPartialProbe h)))))
    ∧ (readable s part.tile = true → ∃ t, exec (.mergeSlotPublish slot part false) s = .next t ∧
        mfind t.engines.slotLines slot = some part.tile
        ∧ t.host.out = .mergeSlot slot (mergeSlotBytes { hdr := (slotOf s part.tile).hdr, payload := (slotOf s part.tile).payload }) :: s.host.out
        ∧ t.engines.published = s.engines.published ∧ t.store = s.store)
    ∧ (let line := readyLineOf s part ((mget {} s.engines.published slot).seq + 1)
       mfind s.engines.slotLines slot = some part.tile → ∃ t, exec (.mergeSlotPublish slot part true) s = .next t ∧
        mfind t.engines.published slot = some line ∧ t.host.out = .mergeLine slot line :: s.host.out
        ∧ (∀ k, k ≠ slot → mfind t.engines.published k = mfind s.engines.published k) ∧ t.engines.merges = s.engines.merges)
    ∧ (mfind s.engines.slotLines slot ≠ some part.tile → (mget {} s.engines.published slot).crc ≠ (slotOf s part.tile).hdr.crc →
        exec (.mergeSlotPublish slot part true) s = .next s)
    ∧ (mfind (mergeOf s m).lines src = some old → exec (.readyLineInvalidation m src) s = .next
        (setMerge s m fun x => { x with invalid := withLast src x.invalid }))
    ∧ (mfind (mergeOf s m).lines src = none → pinnedLines s < 1024 → exec (.readyLineReread m src e n l tile) s = .next
        (setMerge s m fun x => { x with lines := mins x.lines src l }))
    ∧ (mfind (mergeOf s m).lines src = some old → src ∈ (mergeOf s m).invalid →
        (l.seq.toNat ≤ old.seq.toNat → exec (.readyLineReread m src e n l tile) s = .next
          (setMerge s m fun x => { x with invalid := without src x.invalid }))
        ∧ (old.seq.toNat < l.seq.toNat → tile.crcOk = true → tile.hdr.crc = l.crc → l.provisional = false → src ∉ (mergeOf s m).arrived →
            (slotOf s n).hdr.state = .free → shapeOk tile.hdr.format tile.hdr.rows.toNat tile.hdr.cols.toNat = true →
            ∃ t, exec (.readyLineReread m src e n l tile) s = .next t ∧
              (slotOf t n).payload = tile.payload ∧ (slotOf t n).hdr.state = .ready ∧ mfind (mergeOf t m).lines src = some l
              ∧ src ∉ (mergeOf t m).invalid ∧ src ∈ (mergeOf t m).arrived ∧ (∀ k, k ≠ n → slotOf t k = slotOf s k))
        ∧ (old.seq.toNat < l.seq.toNat → (tile.crcOk = false ∨ tile.hdr.crc ≠ l.crc) → src ∉ (mergeOf s m).reread →
            exec (.readyLineReread m src e n l tile) s = .next (setMerge s m fun x => { x with reread := withLast src x.reread }))
        ∧ (old.seq.toNat < l.seq.toNat → (tile.crcOk = false ∨ tile.hdr.crc ≠ l.crc) → src ∈ (mergeOf s m).reread →
            ∃ t, exec (.readyLineReread m src e n l tile) s = .next t ∧ (engOf t e).faults = (engOf s e).faults + 1
              ∧ src ∉ (mergeOf t m).invalid ∧ src ∉ (mergeOf t m).reread ∧ t.store = s.store))

/-- R157, R158, R167 to R170, R174, R184: a walk starts on a snapshot of its index with the entry set as its first beam, runs its rounds, and ends with
the probe records of its best centroids in the store; the scan is issued for every probe at once, to shelf engines that hold the codebook. Where the
manual leaves an outcome open, the clause is the choice of the model: log entries 32, 33, 140, 144, 145. -/
def Obligations.TheWalkChoosesProbes : Prop :=
  ∀ (s : State) (h : Nat) (q : Request) (r : IndexRec), reqOf s h = some q → indexOf s q.block.index = some r →
    (let probes := fun n => (q.ret.beam.take n).map (probeOf s r q.ret.query)
     let issued := q.ret.probes.map (issueProbe s r)
     let shelves := issued.flatMap servingShelves
     (q.phase = .walk → q.ret.query.length = r.dim → q.mirrored = false → ∃ t, exec (.walkStart h) s = .next t ∧ ∃ u, reqOf t h = some u
       ∧ u.phase = .walk ∧ u.ret.snap = some (q.mirrorSnap.getD r.epoch) ∧ u.ret.expanded = [] ∧ u.ret.round = 0
       ∧ u.ret.beam.length ≤ beamWidth r q.block ∧ u.ret.beam.Pairwise (fun a b => beamBefore a b = true)
       ∧ (∀ b ∈ u.ret.beam, b.2 ∈ u.ret.visited ∧ b.1 = walkScore s r (toE4m3 q.ret.query) b.2 ∧ isNan b.1 = false)
       ∧ (∀ c ∈ u.ret.visited, ∃ n ∈ entrySet s r, resolve s r n = some c) ∧ u.ret.visited.Nodup
       ∧ (∃ g, indexOf t q.block.index = some g ∧ mget 0 g.snaps (q.mirrorSnap.getD r.epoch).toNat
            = mget 0 r.snaps (q.mirrorSnap.getD r.epoch).toNat + 1)
       ∧ (∀ k, k ≠ h → reqOf t k = reqOf s k) ∧ t.store = s.store ∧ t.tier = s.tier ∧ t.flash = s.flash)
     ∧ (q.phase = .walk → q.ret.snap.isSome = true → q.cancel = false →
       (walkOver r q = true → (∀ n, n = q.block.nprobe ∨ n = q.block.nprobeMin → (scanPut s h 0x3C (probeTiles q.fn (probes n))).isSome = true) →
          ∃ t, exec (.walkRoundEnd h) s = .next t ∧ ∃ u n, reqOf t h = some u ∧ u.phase = .scan
          ∧ (n = q.block.nprobe ∧ u.flags = q.flags ∨ n = q.block.nprobeMin ∧ u.flags = q.flags ||| flagFewerLists)
          ∧ u.ret.probes = probes n ∧ u.ret.scanTiles.length = q.ret.scanTiles.length + (probeTiles q.fn (probes n)).length
          ∧ (∀ k, k ≠ h → reqOf t k = reqOf s k) ∧ t.flash = s.flash)
       ∧ (walkOver r q = false → ∃ t, exec (.walkRoundEnd h) s = .next t ∧ ∃ u, reqOf t h = some u ∧ u.ret.round = q.ret.round + 1
          ∧ u.ret.expanded = q.ret.expanded ++ frontierOf q ∧ (u.phase = .scan → walkOver r u = true)
          ∧ (walkOver r u = false → u.phase = .walk ∧ t.store = s.store)
          ∧ u.ret.beam.length ≤ max q.ret.beam.length (beamWidth r q.block)
          ∧ (∀ k, k ≠ h → reqOf t k = reqOf s k) ∧ t.flash = s.flash))
     ∧ (q.phase = .scan → q.ret.scanAt = none →
       ((∀ k ∈ shelves, notTaking s (shelfBlock k) = false) → ∃ t, exec (.scanIssue h) s = .next t ∧
          reqOf t h = some { q with ret := { q.ret with scanAt := some (now s), probes := issued } }
          ∧ (∀ k ∈ shelves, (mget [] t.gen.codebooks k).head? = some r.codebookBase ∧ (mget [] t.gen.codebooks k).length ≤ 2)
          ∧ (∀ k, k ≠ h → reqOf t k = reqOf s k) ∧ t.store = s.store ∧ t.tier = s.tier ∧ t.flash = s.flash)
       ∧ ((∃ k ∈ shelves, notTaking s (shelfBlock k) = true) → exec (.scanIssue h) s = .next s)))

/-- R160, R164, R172 to R177: what arrives of a probe is scored and offered, or held back until the tombstone chain is whole; budget and deadline cut the
scan; a shelf engine writes one list of its entries; the lists are merged once all 32 are there. Where the manual leaves an outcome open, the clause
is the choice of the model: log entries 32, 145. -/
def Obligations.TheScanOffersEntries : Prop :=
  ∀ (s : State) (h k u shelf n : Nat) (q : Request) (r : IndexRec) (p : Probe) (tl : Tile) (e : ExtentEntry) (at' : BitVec 48),
    reqOf s h = some q → indexOf s q.block.index = some r → q.phase = .scan → q.ret.scanAt = some at' →
    (q.ret.probes[k]? = some p → u ∈ p.units → u < 2 ^ 17 → shelfOpen q (unitShelf p u) = true →
       readOrCopy s (p.base + u) true (fun t => trailerOk p.list p.gen.toNat u t.payload) = some tl →
       ∃ t, exec (.shelfUnitArrive h k u true) s = .next t ∧ ∃ v y, reqOf t h = some v ∧ v.ret.probes[k]? = some y ∧ y.units = without u p.units
          ∧ (p.tombTiles ≠ [] → y.held.length = p.held.length + (unitEntries r tl.payload).length ∧ v.ret.offered = q.ret.offered)
          ∧ (p.tombTiles = [] → y.held = p.held ∧ v.ret.tenantSkips = q.ret.tenantSkips
              + ((unitEntries r tl.payload).filter fun e => decide (rd e 0 8 % 512 ≠ q.fn.toNat)).length
            ∧ mget [] v.ret.offered (unitShelf p u) = mget [] q.ret.offered (unitShelf p u)
              ++ (((List.range (unitEntries r tl.payload).length).zip (unitEntries r tl.payload)).filter fun x => decide (rd x.2 0 8 % 512 = q.fn.toNat)
                  && filterPasses q.block.filter (rd x.2 0 8) && visible x.2 (q.ret.snap.getD 0).toNat p.tombs).map
                    fun x => (entryPosKey k u x.1, scanScore s r p x.2, BitVec.ofNat 40 (rd x.2 8 5)))
          ∧ (∀ j, j ≠ h → reqOf t j = reqOf s j) ∧ t.store = s.store ∧ t.flash = s.flash ∧ t.tier = s.tier)
    ∧ (q.ret.probes[k]? = some p → p.tombTiles.head? = some n → 1 < p.tombTiles.length → q.ret.cutSent = false →
       chainRead s n = (s, .ok, some (e, tl)) → (freeConductor s).isSome = true → ∃ t, exec (.chainTileArrive h k n) s = .next t ∧ ∃ v y i,
        reqOf t h = some v ∧ v.ret.probes[k]? = some y ∧ y.tombTiles = p.tombTiles.tail ∧ y.tombs = p.tombs ++ tombRecords tl.payload
        ∧ y.held = p.held ∧ v.ret.offered = q.ret.offered ∧ freeConductor s = some i ∧ v.ret.scanTiles = q.ret.scanTiles ++ [i]
        ∧ (shapeOk tl.hdr.format tl.hdr.rows.toNat tl.hdr.cols.toNat = true → (slotOf t i).payload = tl.payload
            ∧ (slotOf t i).hdr.owner = 0x3E ∧ (slotOf t i).hdr.persist = true) ∧ t.flash = s.flash)
    ∧ (q.ret.cutSent = false → scanUnread q = true →
        (q.block.readBudget ≤ since at' (now s) → exec (.scanBudgetExpired h) s = .next (setReq s h { q with
          flags := q.flags ||| flagPartialProbe, ret := { q.ret with cutSent := true } }))
        ∧ (since at' (now s) < q.block.readBudget → exec (.scanBudgetExpired h) s = .next s)
        ∧ (passed s q.block.softDeadline = true → at'.toNat < q.block.softDeadline → exec (.retrievalSoftDeadline h) s = .next (setReq s h
          { q with flags := q.flags ||| flagPartialProbe, ret := { q.ret with cutSent := true } })))
    ∧ (shelfOpen q shelf = true → shelf < 32 → (freeConductor s).isSome = true →
        (q.ret.cutSent = true → ∃ t, exec (.scanCut h shelf) s = .next t ∧ ∃ v, reqOf t h = some v ∧ shelf ∈ v.ret.cutDone
          ∧ mfind v.ret.shelfOut shelf = some (shelfList r shelf (mget [] q.ret.offered shelf))
          ∧ mget 0 t.shelfCuts shelf = mget 0 s.shelfCuts shelf + 1 ∧ v.ret.scanTiles.length = q.ret.scanTiles.length + 1)
        ∧ (shelfBusy q shelf = false → ∃ t, exec (.shelfScanEnd h shelf) s = .next t ∧ ∃ v i, reqOf t h = some v ∧ freeConductor s = some i
          ∧ mfind v.ret.shelfOut shelf = some (shelfList r shelf (mget [] q.ret.offered shelf))
          ∧ v.ret.scanTiles = q.ret.scanTiles ++ [i] ∧ (slotOf t i).hdr.state = .ready ∧ (slotOf t i).hdr.format = 0x11
          ∧ (slotOf t i).payload = pad 16384 ((shelfList r shelf (mget [] q.ret.offered shelf)).bytes s.free)
          ∧ (∀ y, y ≠ i → slotOf t y = slotOf s y) ∧ t.shelfCuts = s.shelfCuts))
    ∧ (32 ≤ q.ret.shelfOut.length → (candidateMerge q r).dupMismatch = false → q.op = .turn → q.cancel = false →
        ∃ t, exec (.candidateMerge h) s = .next t ∧ ∃ v, reqOf t h = some v ∧ v.phase = .fetch ∧ v.ret.merged = some (candidateMerge q r)
          ∧ v.ret.cands = ((candidateMerge q r).entries.map fun e => { pid := e.2.1, score := e.2.2 })
          ∧ v.listsCut = (q.ret.probes.filter probeUnread).length ∧ v.ret.scanTiles = [] ∧ t.flash = s.flash)

/-- R165, R178, R179: the fetch reads every candidate's passage block once and keeps its unit in one store tile; a block that is not valid, or names
another passage or tenant, drops its candidate; the budget drops the candidates not yet read. Where the manual leaves an outcome open, the clause is
the choice of the model: log entries 31, 140. -/
def Obligations.PassageFetchJudgesBlocks : Prop :=
  ∀ (s : State) (h i : Nat) (j : TileIdx) (q : Request) (r : IndexRec) (c : Cand) (tl : Tile) (at' : BitVec 48),
    reqOf s h = some q → indexOf s q.block.index = some r → q.phase = .fetch → q.cancel = false →
    (let n := passageUnit r c.pid
     let b := slice tl.payload (2048 * (c.pid.toNat % 8)) 2048
     let taken := q.ret.cands.set i { c with waiting := false, block := some b, stored := some (j, c.pid.toNat % 8) }
     let dropped := q.ret.cands.set i { c with waiting := false, block := none, score := fpNan }
     let good := bit (rd b 15 1) 0 = true ∧ rd b 8 5 = c.pid.toNat ∧ rd b 13 2 % 512 = q.fn.toNat
     let drop : Request := { q with flags := q.flags ||| flagFewerCandidates, candDropped := q.candDropped + 1, ret := { q.ret with cands := dropped } }
     ((∃ x ∈ q.ret.cands, x.waiting = true) → q.ret.fetchAt = none → exec (.passageFetch h) s = .next
        (setReq s h { q with ret := { q.ret with fetchAt := some (now s) } }))
     ∧ (q.ret.fetchAt.isSome = true → q.ret.cands[i]? = some c → c.waiting = true → (∃ k x, k ≠ i ∧ q.ret.cands[k]? = some x ∧ x.waiting = true) →
        readOrCopy s n true (fun _ => true) = some tl →
        (mfind q.ret.unitTiles n = some j →
          (good → exec (.passageUnitArrive h i true) s = .next (setReq s h { q with ret := { q.ret with cands := taken } }))
          ∧ (bit (rd b 15 1) 0 = false → exec (.passageUnitArrive h i true) s = .next (setReq s h drop))
          ∧ (∀ k, bit (rd b 15 1) 0 = true → (rd b 8 5 ≠ c.pid.toNat ∧ k = 0 ∨ rd b 8 5 = c.pid.toNat ∧ rd b 13 2 % 512 ≠ q.fn.toNat ∧ k = 1) →
              exec (.passageUnitArrive h i true) s = .next (logEvent (setReq s h drop) (.passageMismatch q.fn q.block.index c.pid k))))
        ∧ (mfind q.ret.unitTiles n = none → freeConductor s = some j → ∃ t, exec (.passageUnitArrive h i true) s = .next t ∧ ∃ v, reqOf t h = some v
            ∧ v.ret.unitTiles = mins q.ret.unitTiles n j ∧ (good → v.ret.cands = taken ∧ v.candDropped = q.candDropped)
            ∧ (¬good → v.ret.cands = dropped ∧ v.candDropped = q.candDropped + 1 ∧ v.flags = q.flags ||| flagFewerCandidates)
            ∧ (shapeOk tl.hdr.format tl.hdr.rows.toNat tl.hdr.cols.toNat = true → (slotOf t j).payload = tl.payload
                ∧ (slotOf t j).hdr.state = .ready ∧ (slotOf t j).hdr.owner = 0x3E ∧ (slotOf t j).hdr.persist = true)
            ∧ (∀ y, y ≠ j → slotOf t y = slotOf s y) ∧ t.flash = s.flash)
        ∧ (mfind q.ret.unitTiles n = none → freeConductor s = none → exec (.passageUnitArrive h i true) s = .next s))
     ∧ (q.ret.fetchAt = some at' →
        (since at' (now s) < q.block.readBudget → exec (.fetchBudgetExpired h) s = .next s)
        ∧ (q.block.readBudget ≤ since at' (now s) → q.ret.snap = none → ∃ t, exec (.fetchBudgetExpired h) s = .next t ∧ ∃ v, reqOf t h = some v
            ∧ v.phase = .rerank ∧ v.candDropped = q.candDropped + (q.ret.cands.filter (·.waiting)).length
            ∧ (∀ x ∈ v.ret.cands, x.waiting = false) ∧ t.store = s.store ∧ t.flash = s.flash)))

/-- R190, R192, R195, R197 to R199, R203 to R208: pairs are queued for the candidates that are held, or the scan scores stand; the ranks are those of the
committed scores; the prompt that is packed never exceeds the template's TOKEN_BUDGET; then the PASSAGES completion is posted, the turn's tiles are
freed, and the prompt waits for its generator. Where the manual leaves an outcome open, the clause is the choice of the model: log entries 31, 53,
140, 152, 155. -/
def Obligations.RerankAndPackKeepTheBudget : Prop :=
  ∀ (s : State) (h : Nat) (q : Request) (g : Program) (tpl : Bytes), reqOf s h = some q → q.cancel = false →
    (q.phase = .rerank → q.ret.noRerank = false → q.ret.reranked = 0 →
       (heldCands q ≠ [] → progOf s q.block.rerankPart = some g → q.op = .rerank → (∀ c ∈ q.ret.cands, c.block.isSome = true) →
        setVerified s (BitVec.ofNat 2 g.tokSet) →
        (∀ c ∈ q.ret.cands, (passageTokens s (BitVec.ofNat 2 g.tokSet) (c.block.getD [])).2 = none) →
        ∃ t, exec (.rerankStart h) s = .next t ∧ ∃ v, reqOf t h = some v ∧ v.ret.reranked = q.ret.cands.length
          ∧ v.ret.cands.length = q.ret.cands.length
          ∧ mget [] (partOf t (partId q.block.rerankPart)).rings q.fn.toNat
            = mget [] (partOf s (partId q.block.rerankPart)).rings q.fn.toNat
              ++ ((List.range q.ret.cands.length).map fun i => { kind := .pair, handle := h, index := i })
          ∧ t.store = s.store ∧ t.engines = s.engines)
       ∧ (heldCands q ≠ [] → progOf s q.block.rerankPart = none → q.op = .turn → ∃ t, exec (.rerankStart h) s = .next t ∧ reqOf t h = some { q with ret :=
            { q.ret with noRerank := true, cands := (heldCands q).map fun c => { c with rerank := some c.score } } }
          ∧ t = { s with host := { s.host with requests := t.host.requests } }))
    ∧ (q.phase = .rerank → q.op = .turn → q.ret.cands ≠ [] → q.ret.cands.length ≤ 1024 →
        (∀ c ∈ q.ret.cands, c.rerank.isSome = true ∧ c.pid ≠ 0xFFFFFFFFFF) → ∃ t, exec (.rerankEnd h) s = .next t ∧ ∃ v,
        reqOf t h = some v ∧ v.phase = .pack ∧ v.ret.ranked.Perm (List.range q.ret.cands.length)
        ∧ v.ret.cands = withNorms (rankList q.ret.cands) q.ret.cands
        ∧ (∀ i, i + 1 < v.ret.ranked.length → ∀ a b, (v.ret.ranked[i]?).bind (fun j => (q.ret.cands[j]?).bind (·.rerank)) = some a →
            (v.ret.ranked[i + 1]?).bind (fun j => (q.ret.cands[j]?).bind (·.rerank)) = some b → isNan b = false → isNan a = false →
            selKey false b ≤ selKey false a) ∧ t.store = s.store)
    ∧ (q.phase = .pack → q.template = some tpl → templateOk tpl = true → conductorFree s →
        mandatory tpl (questionIn q (BitVec.ofNat 2 (tplSet tpl))) ≤ tplBudget tpl → ∃ t, exec (.packStart h) s = .next t ∧ ∃ v, reqOf t h = some v
          ∧ v.phase = .ready ∧ v.ret.prompt.length ≤ tplBudget tpl ∧ v.ret.plan.length ≤ tplMaxPassages tpl
          ∧ v.ret.promptTiles.length = (promptTilesOf q.fn v.ret.prompt).length
          ∧ (∀ d, (v.ret.plan.filter fun x => decide (x.2.2 = d)).length ≤ tplDocLimit tpl) ∧ t.engines = s.engines)
    ∧ (q.phase = .ready → (∀ i ∈ q.ret.promptTiles, readable s i = true) → ∃ t, exec (.promptReady h true) s = .next t ∧ ∃ v, reqOf t h = some v
        ∧ v.phase = .waiting ∧ v.template = none ∧ v.ret.cands = [] ∧ v.ret.prompt = q.ret.prompt
        ∧ (∀ i ∈ heldTiles q, (slotOf t i).hdr.state = .free) ∧ heldTiles v = []
        ∧ mget [] (partOf t (partId q.block.genPart)).rings q.fn.toNat
          = mget [] (partOf s (partId q.block.genPart)).rings q.fn.toNat ++ [{ kind := .prompt, handle := h }]
        ∧ (canPost s q.fn q.qp → (qpOf t q.fn q.qp).waiting = (qpOf s q.fn q.qp).waiting ++ [passagesOf q])
        ∧ (∀ k, k ≠ h → reqOf t k = reqOf s k) ∧ t.engines = s.engines)
    ∧ (q.phase = .ready → q.ret.rerun = false → ∃ t, exec (.promptReady h false) s = .next t ∧
        reqOf t h = some { q with phase := .pack, ret := { q.ret with rerun := true, promptTiles := [] } }
        ∧ (∀ i ∈ q.ret.promptTiles, (slotOf t i).hdr.state = .free))

/-- R53, R67, R194, R209, R231, R345, R346, R349 to R351, R360: each engine of the mapping writes one record of the attempt, a tile of the store; with
every record clean, and nothing outstanding, the boundary commits the step, and its store tiles with it; a step whose input is retracted waits for the
resend, and is then reissued under the same epoch, uncounted; an idle boundary starts the step for which items wait, with the next epoch. Where the
manual leaves an outcome open, the clause is the choice of the model: log entries 44, 45, 46, 150, 155, 158. -/
def Obligations.StepsCommitOrReplay : Prop :=
  ∀ (s : State) (p : PartId) (c : CheckRecord) (outs : List (Nat × Nat × List Word)) (g : Program) (lost : List Tenant),
    let q := partOf s p
    let place := BitVec.ofNat 17 (checkPlace q c.engine)
    let alone := s.gen.tables = [] ∧ q.slots = [] ∧ q.rings = [] ∧ q.reports = [] ∧ q.switchDue = [] ∧ q.switchBack = false ∧ q.pauseFor = none
      ∧ q.hotOld = [] ∧ q.replacing = none ∧ q.needReload = false ∧ (∀ e, (engOf s e).testDue = none)
      ∧ (∀ w ∈ s.tier.waiting, w.rq.part ≠ p.setWidth 6) ∧ q.step.epoch.toNat < 0xFFFFFFEF ∧ q.committed.toNat < 0xFFFFFFEF
    (c.partition = p → q.step.running = true → c.engine ∈ mappingEngines (mappingOf q) → (∀ r ∈ q.step.checks, r.engine ≠ c.engine) →
        (c.engine = leadEngine q → ∀ i ∈ q.step.items, i.kind ≠ .update) → (slotOf s place).hdr.state = .free →
        ∃ t, exec (.checkRecordWrite c outs) s = .next t ∧
          (partOf t p).step = { q.step with checks := q.step.checks ++ [ownRecord s c], outs := q.step.outs ++ outs.filter (ofInput q.step) }
          ∧ (let h := (slotOf t place).hdr
             h.state = .ready ∧ h.owner = p.setWidth 6 ∧ h.epoch = q.step.epoch ∧ h.prod = q.step.epoch ∧ h.out = true ∧ h.persist = false
             ∧ h.format = 0x10 ∧ h.rows = 1 ∧ h.cols = 64)
          ∧ (slotOf t place).payload.take 64 = (ownRecord s c).bytes
          ∧ (∀ k, k ≠ place → slotOf t k = slotOf s k) ∧ (∀ r, r ≠ p → partOf t r = partOf s r) ∧ t.engines = s.engines ∧ t.tier = s.tier)
    ∧ (c.partition = p → (∃ r ∈ q.step.checks, r.engine = c.engine) → exec (.checkRecordWrite c outs) s = .next s)
    ∧ ((q.state = .empty ∨ q.state = .loading ∨ q.state = .failed) → exec (.stepBoundary p lost) s = .next s)
    ∧ (q.state = .running → q.step.running = true → recordsIn q (usedEngines q) = false → q.needReload = false →
        exec (.stepBoundary p lost) s = .next s)
    ∧ (alone → q.state = .running → q.prog = some g → q.step.running = true → q.step.items = [] → recordsIn q (usedEngines q) = true →
        stepFails q = false → q.step.provisional = [] → matchedIn q = true → canonical {} s.store.slots = true →
        ∃ t, exec (.stepBoundary p lost) s = .next t ∧
          (partOf t p).committed = q.step.epoch ∧ (partOf t p).step.running = false ∧ (partOf t p).state = .running
          ∧ t.gen.stepCount = s.gen.stepCount + 1
          ∧ (∀ k, slotOf t k = commitSlot p q.step.epoch (slotOf s k))
          ∧ (∀ r, r ≠ p → partOf t r = partOf s r)
          ∧ (∀ e, e ∉ usedEngines q → e ∉ q.step.prevSuspect → engOf t e = engOf s e))
    ∧ (q.state = .running → q.step.running = true → awaitsResend s p = true → exec (.stepBoundary p lost) s = .next s)
    ∧ (q.state = .running → q.step.running = true → recordsIn q (usedEngines q) = true → (∀ r ∈ q.step.checks, r.result = 0) →
        q.step.refused = [] → q.step.refusedAll = none → q.step.storeRefusal = none → q.step.retracted = true → awaitsResend s p = false → saturatedTiles s q = [] →
        poisonedTiles s q = [] → stepWorks q = true → canonical {} s.store.slots = true → ∃ t, exec (.stepBoundary p lost) s = .next t ∧
          (partOf t p).committed = q.committed ∧ (partOf t p).step.running = true ∧ (partOf t p).step.epoch = q.step.epoch
          ∧ (partOf t p).step.attempt = q.step.attempt ∧ (partOf t p).step.checks = [] ∧ (partOf t p).step.items = q.step.items
          ∧ (∀ k, slotOf t k = retractSlot p q.step.epoch (slotOf s k)) ∧ (∀ r, r ≠ p → partOf t r = partOf s r))
    ∧ (alone → q.state = .running → q.prog = some g → g.kind ≠ .generator → q.step.running = false → q.step.items ≠ [] →
        (∀ e ∈ usedEngines q, lentReady s p e = true ∧ notTaking s (engineBlock e) = false) → ∃ t, exec (.stepBoundary p lost) s = .next t ∧
          (partOf t p).step.running = true ∧ (partOf t p).step.epoch = q.committed + 1 ∧ (partOf t p).step.items = q.step.items
          ∧ (partOf t p).step.startAt = now s ∧ (partOf t p).step.attempt = 1 ∧ (partOf t p).committed = q.committed
          ∧ t.store = s.store ∧ (∀ r, r ≠ p → partOf t r = partOf s r))

/-- R43, R70, R214 to R219, R328: an engine is lent once the outgoing step has committed; a KV page keeps its committed positions and takes the new ones;
the stripe partial takes the page's positions that are valid up to the row's own. Where the manual leaves an outcome open, the clause is the choice of
the model: log entries 51, 53, 148, 149, 156, 157. -/
def Obligations.ContextsAndPages : Prop :=
  ∀ (s : State) (e : Engine) (lend : Bool) (out inc : Share) (p : PartId) (slot page n i x : Nat) (sub : Nat) (b : Bytes) (g : Program)
    (a : AttentionOp) (ent : ExtentEntry) (t : Tile),
    (let x := engOf s e
     runningShare x = some out → (if x.running then x.ctx0 else x.ctx1) = some inc →
      (borrows s inc.part e ≠ lend → exec (.engineContextSwitch e lend) s = .next s)
      ∧ (borrows s inc.part e = lend → (partOf s out.part).step.running = false → exec (.engineContextSwitch e lend) s = .next
          (setEng s e fun x => { x with running := !x.running, stopped := (partOf s inc.part).needReload }))
      ∧ (∀ u, borrows s inc.part e = lend → (partOf s out.part).step.running = true → e ∈ usedEngines (partOf s out.part) →
          sealFault x out = some u → exec (.engineContextSwitch e lend) s = .next (noteFault s e (0x06, u))))
    ∧ (let q := partOf s p
       let sl := slotRec s p slot
       let old := lTile s n
       let at' := BitVec.ofNat 7 n
       ∀ draft h d c, q.prog = some g → sl.pageList[page]? = some (sub, n) → inStep q sl = true → pageShape g sl page = (draft, h, d, c) →
       i < pageTokens h d → mfind q.pool (n / 128) = some x → entryOf s x = some ent → ent.cls = 2 → place ent at' = (2, n) →
       pageWrite s x n = none → isLost s x ent at' = false → Tile.good { hdr := old.hdr, payload := old.payload } = true → writeWaits s ent at' = false →
       ∃ u, exec (.kvPageWrite p slot page { rows := [(i, b)] }) s = .next u ∧
         (kvCommitted sl draft ≤ c * pageTokens h d + i →
            (lTile u n).payload = splice (pad 16384 old.payload) (i * posBytes h d) (pad (posBytes h d) b))
         ∧ (c * pageTokens h d + i < kvCommitted sl draft → (lTile u n).payload = pad 16384 old.payload)
         ∧ (lTile u n).hdr.tenant = sl.tenant ∧ (lTile u n).hdr.cls = 2 ∧ (lTile u n).hdr.format = 0x04 ∧ (lTile u n).dirty = false
         ∧ (∀ k, k ≠ n → lTile u k = lTile s k) ∧ (partOf u p).step.kvWritten = q.step.kvWritten ++ [(slot, page, i)]
         ∧ u = { s with tier := u.tier, gen := u.gen })
    ∧ (let q := partOf s a.part
       let sl := slotRec s a.part a.slot
       let h := g.sec.kvHeads
       let d := g.sec.headDim
       let pt := pageTokens h d
       let w := max 1 g.kvStripe
       let place := pageIndex g (slotPositions sl) false a.layer a.page
       let own := validRows q sl false a.slot place a.page pt a.pos
       let row := fun (i off : Nat) => slice t.payload (i * posBytes h d + off) d
       let part := pagePartial a d (own.map fun i => row i (a.head * d)) (own.map fun i => row i (h * d + a.head * d))
       let y : StripePartial := { slot := a.slot, row := a.row, member := a.page % w, sub := sub, lastPage := a.page, val := part }
       q.prog = some g → a.draft = false → a.fault = false → sl.pageList[place]? = some (sub, n) → inStep q sl = true → a.head < h →
       a.page < w → a.page * pt ≤ a.pos → stripeOf q.step.partials a.slot a.row (a.page % w) = none → pageWaits s q n = false →
       readPage s a.part sl n a.upsets = (s, some (x, ent, t)) →
       (∃ u, exec (.attentionPagePartial a) s = .next u ∧ stripeOf (partOf u a.part).step.partials a.slot a.row (a.page % w) = some y
          ∧ (∀ z, part = some z → w = 1 → a.pos < pt → (partOf u a.part).step.attnRows
              = q.step.attnRows ++ [{ slot := a.slot, row := a.row, out := z.o.map fun o => fmul o (frecip z.l) }])
          ∧ u.tier = s.tier ∧ u.engines = s.engines)
       ∧ (stripeLast w (a.pos / pt) (a.page % w) ≠ some a.page → exec (.attentionPagePartial a) s = .next
            (setStep s a.part fun st => { st with partials := st.partials ++ [y] })))

/-- R220, R221, R224 to R227: the sampler takes the first token of the kept set when greedy, else the token its draw falls on; a proposal is accepted or
replaced as its draw says; a position with no allowed token ends in a dead end; the draw port writes the draws asked for, in request order, as RECORD
tiles (their place is the model's choice, log entry 150). Where the manual leaves an outcome open, the clause is the choice of the model: log entries
53, 54, 150. -/
def Obligations.SamplingPicksKeptTokens : Prop :=
  ∀ (s : State) (p : PartId) (n : Nat) (logits : List Word) (r : Request),
    let q := partOf s p
    let sl := slotRec s p n
    let b := r.block
    reqOf s sl.request = some r →
    (samples q sl = true → (sl.propsEnd = true ∨ depthOf q sl ≤ sl.props.length) → sl.state = .decode →
      let props := (sl.props.take sl.accepted).map (·.1)
      let d := distOf b (maskAfter s sl props) (penaltyWindow b sl props) logits
      (d.allowed = false → exec (.sampleToken p n false logits false) s = .next
          (setSlotRec s p n fun x => { x with verified := true, approx := x.approx || d.approx, deadEnd := true }))
      ∧ (d.allowed = true → d.kept = [] → exec (.sampleToken p n false logits false) s = .next
          (setSlotRec s p n fun x => { x with verified := true, approx := x.approx || d.approx, allInvalid := true }))
      ∧ (∀ t, d.allowed = true → sl.props[sl.accepted]? = none →
          (greedy b = true ∧ d.kept.head?.map (·.1) = some t ∨ greedy b = false ∧ ∃ u, drawN q b sl 16 = some u ∧ drawToken d.kept u = some t) →
          exec (.sampleToken p n false logits false) s = .next (setSlotRec s p n fun x =>
            { x with verified := true, approx := x.approx || d.approx, final := some t, nanOf := x.nanOf ++ [d.nan] })
          ∧ t ∈ d.kept.map (·.1))
      ∧ (∀ k qk u, d.kept ≠ [] → d.allowed = true → sl.props[sl.accepted]? = some (k, qk) → greedy b = false →
          drawN q b sl (8 + sl.accepted) = some u → u.toNat * termIn qk k * keptSum d.kept < 2 ^ 64 * termIn d.kept k * keptSum qk →
          exec (.sampleToken p n false logits false) s = .next (setSlotRec s p n fun x =>
            { x with accepted := sl.accepted + 1, nanOf := x.nanOf ++ [d.nan], approx := x.approx || d.approx })))
    ∧ (∀ draft fault, sl.verified = true → exec (.sampleToken p n draft logits fault) s = .next s)
    ∧ (samples q sl = true → sl.state = .decode → sl.propsEnd = false → sl.props.length < depthOf q sl →
        let props := sl.props.map (·.1)
        let d := distOf b (maskAfter s sl props) (penaltyWindow b sl props) logits
        ∀ t, d.kept ≠ [] → pickToken q b sl d.kept sl.props.length = some t → exec (.sampleToken p n true logits false) s = .next
          (setSlotRec s p n fun x => { x with props := x.props ++ [(t, d.kept)], approx := x.approx || d.approx }))
    ∧ exec (.drawPortServe p) s = .next
        (setPart (putRecords s 0x3F (drawPlace q + (runsOf 910 q.drawsAsked).length) (drawTiles p (q.committed + 1) (q.drawsAsked.map drawOf))) p
          fun q => { q with draws := q.draws ++ q.drawsAsked.map fun k => (k, drawOf k), drawsAsked := [] })
    ∧ (let place := BitVec.ofNat 17 (drawPlace q + (runsOf 910 q.drawsAsked).length)
       0 < q.drawsAsked.length → q.drawsAsked.length ≤ 2048 → canonical {} s.store.slots = true → (slotOf s place).hdr.state = .free →
         ∃ t, exec (.drawPortServe p) s = .next t ∧
           (slotOf t place).payload = pad 16384 ((q.drawsAsked.map fun k => toLE 8 (drawOf k).toNat).flatten)
           ∧ (slotOf t place).hdr.state = .ready ∧ (partOf t p).drawsAsked = [] ∧ t.tier = s.tier ∧ t.engines = s.engines ∧ t.host = s.host)

/-- R234, R250, R254, R332, R333: the mask of a slot's grammar state, a RECORD tile while it fits one, the reports of the text die, and the close of the
interference window. Where the manual leaves an outcome open, the clause is the choice of the model: log entries 46, 49, 152, 158. -/
def Obligations.ReportsMasksAndWindows : Prop :=
  ∀ (s : State) (p : PartId) (n pos : Nat) (e : Epoch) (g : Grammar),
    let q := partOf s p
    let sl := slotRec s p n
    let place := BitVec.ofNat 17 (maskPlace q n 0)
    (slotGrammar s sl = some g → (grammarTiles g).all (tableTileOk s) = true → sl.props = [] → ∃ t, exec (.grammarMaskRequest p n) s = .next t ∧
        mfind t.text.masks (slotKey p n) = some ((grammarState s g sl.gstate.toNat :: stateIntervals s g sl.gstate.toNat).map (BitVec.ofNat 64))
        ∧ (∀ k, k ≠ slotKey p n → mfind t.text.masks k = mfind s.text.masks k) ∧ t.engines = s.engines ∧ t.flash = s.flash
        ∧ (let recs := grammarState s g sl.gstate.toNat :: stateIntervals s g sl.gstate.toNat
           recs.length ≤ 2048 → (slotOf s place).hdr.state = .free →
             (slotOf t place).hdr.state = .ready ∧ (slotOf t place).hdr.format = 0x10 ∧ (slotOf t place).hdr.cols = 8
             ∧ (slotOf t place).hdr.rows.toNat = recs.length ∧ (slotOf t place).hdr.owner = p.setWidth 6
             ∧ (slotOf t place).payload.take (8 * recs.length) = recs.flatMap (fun r => toLE 8 (r % 2 ^ 64))
             ∧ (∀ k, k ≠ place → slotOf t k = slotOf s k) ∧ t.gen = s.gen ∧ t.tier = s.tier ∧ t.host = s.host))
    ∧ (inService sl = true → (∀ r ∈ q.reports, r.slot ≠ n) → (streamRec s p n).firstPos = some pos → exec (.stopReport p n pos e) s = .next
        (setPart s p fun q => { q with reports := q.reports ++ [{ slot := n, pos := pos, epoch := e }] }))
    ∧ ((∃ r ∈ q.reports, r.slot = n) → exec (.stopReport p n pos e) s = .next s)
    ∧ (e.toNat ≤ q.committed.toNat → q.matched.toNat < e.toNat → (∀ x ∈ q.slots, processed s p e.toNat x = true) →
        (∀ x ∈ q.slots, (streamRec s p x.1).firstPos = none) → ∃ t, exec (.matched p e) s = .next t ∧
          (partOf t p).matched = e ∧ (partOf t p).reports = q.reports
          ∧ (canonical {} q.slots = true → ∀ k, slotRec t p k = { slotRec s p k with sent := (slotRec s p k).sent.filter fun y => decide (e.toNat < y.1) })
          ∧ (∀ r, r ≠ p → partOf t r = partOf s r) ∧ t = { s with gen := { s.gen with parts := t.gen.parts } })
    ∧ ((q.committed.toNat < e.toNat ∨ e.toNat ≤ q.matched.toNat) → exec (.matched p e) s = .next s)
    ∧ (canonical {} s.gen.tenants = true → (∀ x ∈ s.gen.tenants, x.1 < 512) → canonical {} s.gen.parts = true → ∃ t, exec .interferenceWindowClose s = .next t ∧
        (∀ r, (partOf t r) = { partOf s r with steps := 0 })
        ∧ (∀ n, (tenOf t n).soloUs = 0 ∧ (tenOf t n).actualUs = 0)
        ∧ (∀ n, (tenOf s n).soloUs ≠ 0 → (tenOf t n).ratio = min 65535 (⌊(1024 * (tenOf s n).actualUs : Nat) / (tenOf s n).soloUs⌋).toNat)
        ∧ t.store = s.store ∧ t.flash = s.flash ∧ t.engines = s.engines)

/-- R238, R239, R471, R475: a tokenizer set is installed or removed only while no partition is loaded and it is not being checked; the check installs it,
or refuses it and names the first thing wrong, a table tile that cannot be had before all others (log entry 152). Where the manual leaves an outcome
open, the clause is the choice of the model: log entries 56, 152. -/
def Obligations.TokenizerSetsAreChecked : Prop :=
  ∀ (s : State) (k : BitVec 2),
    ((setOf s k).state ≠ .checking → anyLoaded s = false →
        exec (.tokenizerInstall k) s = .next (putSet s k { setOf s k with state := .checking })
        ∧ ((setOf s k).state = .installed → exec (.tokenizerRemove k) s = .next (putSet s k { setOf s k with state := .empty }))
        ∧ ((setOf s k).state ≠ .installed → exec (.tokenizerRemove k) s = .next s))
    ∧ (((setOf s k).state = .checking ∨ anyLoaded s = true) →
        exec (.tokenizerInstall k) s = .next { s with text := { s.text with cfgErr := cfgError s.text.cfgErr 2 (0x50018 + 16 * k.toNat) } }
        ∧ exec (.tokenizerRemove k) s = .next { s with text := { s.text with cfgErr := cfgError s.text.cfgErr 2 (0x50018 + 16 * k.toNat) } })
    ∧ ((setOf s k).state = .checking → setVerified s k → exec (.tokenizerCheckDone k) s = .next (match setCheck s k with
        | none => putSet s k { setOf s k with state := .installed }
        | some (cause, off) => logEvent (putSet s k { setOf s k with state := .refused }) (.tokenizerRefused k.toNat cause off)))
    ∧ ((setOf s k).state = .checking → ∀ cause off, badTile (verifySet s k).1 k = some (cause, off) →
        exec (.tokenizerCheckDone k) s = .next (logEvent (putSet (verifySet s k).1 k { setOf (verifySet s k).1 k with state := .refused })
          (.tokenizerRefused k.toNat cause off)))
    ∧ ((setOf s k).state ≠ .checking → exec (.tokenizerCheckDone k) s = .next s)

/-- R235, R236, R247 to R251, R309, R342: the tokens committed are detokenized in order, released up to the safe point, and at the end of the slot wholly;
a second mismatch of the two passes ends the output. Where the manual leaves an outcome open, the clause is the choice of the model: log entries 50,
152. -/
def Obligations.OutputIsReleasedToTheSafePoint : Prop :=
  ∀ (s : State) (p : PartId) (n m : Nat) (r : Request),
    let sl := slotRec s p n
    let x := (newTokens s p n).foldl (fun x t => addToken s (partSet s p) r x t.1 t.2) (streamRec s p n)
    let k := safePoint r.block.stops x
    reqOf s sl.request = some r →
    (m < 2 → setVerified s (partSet s p) → x.failed = false → ∃ t, exec (.committedTokensReceive p n m) s = .next t ∧
        (streamRec t p n).bytes = x.bytes ∧ (streamRec t p n).marks = x.marks
        ∧ (streamRec t p n).marks.length = (streamRec s p n).marks.length + (newTokens s p n).length
        ∧ (streamRec t p n).released = (if (repairBytes ((x.bytes.take k).drop x.released)).1 = [] ∧ idsReleased x k = [] then x.released
            else max x.released k)
        ∧ (canPost s r.fn r.qp → (repairBytes ((x.bytes.take k).drop x.released)).2 = 0 → (repairBytes ((x.bytes.take k).drop x.released)).1 ≠ [] →
            r.block.idBuf = 0 → (qpOf t r.fn r.qp).waiting = (qpOf s r.fn r.qp).waiting ++
              [{ tag := r.tag, flags := r.flags, payload := [(r.block.textBuf + BitVec.ofNat 64 (sl.seq.toNat * r.block.textSize + x.written),
                  (repairBytes ((x.bytes.take k).drop x.released)).1)]
                 body := .tokens x.written (repairBytes ((x.bytes.take k).drop x.released)).1.length x.ids (idsReleased x k).length sl.seq }])
        ∧ t.store = s.store ∧ t.gen = s.gen ∧ t.flash = s.flash)
    ∧ (2 ≤ m → ∃ t, exec (.committedTokensReceive p n m) s = .next t ∧ (streamRec t p n).failed = true ∧ (slotRec t p n).reason = .error
        ∧ (slotRec t p n).status = .programMismatch ∧ (streamRec t p n).bytes = (streamRec s p n).bytes ∧ t.store = s.store)
    ∧ (sl.state = .ending → tokensTaken sl (streamRec s p n) = true → 1 < r.block.nSeq → r.seqDone = [] → ∃ t, exec (.slotFinalRelease p n) s = .next t ∧
        slotRec t p n = {} ∧ streamRec t p n = {} ∧ mfind t.text.masks (slotKey p n) = none
        ∧ (∃ u, reqOf t sl.request = some u ∧ u.seqDone = [sl.seq.toNat] ∧ u.phase = r.phase)
        ∧ (∀ c, c ≠ n → slotRec t p c = slotRec s p c) ∧ t.store = s.store ∧ t.engines = s.engines)
    ∧ (sl.state ≠ .ending → exec (.slotFinalRelease p n) s = .next s)

/-- R268, R271, R273, R281 to R283, R286: link training, the doorbell line and the fetch of descriptors, the error states, and translations. Where the
manual leaves an outcome open, the clause is the choice of the model: log entries 68, 69, 73. -/
def Obligations.HostLinkAndDoorbells : Prop :=
  ∀ (s : State) (fn : Tenant) (q : BitVec 3) (w g : BitVec 8) (lat on : Bool) (l : DoorbellLine) (d : Descriptor) (page : BitVec 64) (op : Opcode),
    let p := qpOf s fn q
    (w.toNat ∈ [4, 8, 16] → g.toNat ∈ [32, 64] → ∃ t, exec (.hostLinkTraining w g lat) s = .next t ∧
        t.host.linkWidth = w ∧ t.host.linkGts = g ∧ t.host.latOpt = (lat && decide (g.toNat = 64))
        ∧ (w.toNat = 16 → t = { s with host := { s.host with linkWidth := w, linkGts := g, latOpt := t.host.latOpt } })
        ∧ (w.toNat < 16 → t = logEvent { s with host := { s.host with linkWidth := w, linkGts := g, latOpt := t.host.latOpt } }
            (.linkDegraded w.toNat g.toNat)))
    ∧ exec (.cxlCacheEnableWrite on) s = .next { s with host := { s.host with cacheEn := on } }
    ∧ (p.pinned = true → exec (.doorbellInvalidation fn q) s = .next
        (emit (setQp s fn q fun p => { p with rereads := p.rereads + 1 }) (.sharedRead fn p.dbAddr)))
    ∧ (p.pinned = false → exec (.doorbellInvalidation fn q) s = .next s)
    ∧ (p.rereads = 0 → exec (.doorbellRereadReturn fn q l [d]) s = .next s)
    ∧ (0 < p.rereads → p.state = .enabled →
        (∀ c, lineError (if l.translates then { p with sqTail := l.sqTail } else p) l = some c →
          (p.waiting = [] → ∃ t, exec (.doorbellRereadReturn fn q l [d]) s = .next t ∧ (qpOf t fn q).state = .error ∧ (qpOf t fn q).errCode = BitVec.ofNat 8 c
            ∧ (qpOf t fn q).fetched = [] ∧ (qpOf t fn q).waiting = [] ∧ (qpOf t fn q).sqHead = p.sqHead ∧ t.host.requests = s.host.requests
            ∧ t.store = s.store ∧ t.gen = s.gen))
        ∧ (lineError { p with sqTail := l.sqTail } l = none → l.translates = true → l.sqTail ≠ p.sqHead → s.host.cacheEn = true → s.host.fetchStopped = false →
            heldByFence s p = false → (p.cqTail - l.cqHead).toNat + 8 ≤ cqSize p → Opcode.ofByte d.opcode.toNat = some op →
            ∃ t, exec (.doorbellRereadReturn fn q l [d]) s = .next t ∧ (qpOf t fn q).sqTail = l.sqTail ∧ (qpOf t fn q).cqHead = l.cqHead
              ∧ (qpOf t fn q).sqHead = p.sqHead + 1 ∧ (∃ f, (qpOf t fn q).fetched = p.fetched ++ [f] ∧ f.desc = d ∧ f.handle = s.host.nextHandle)
              ∧ t.host.nextHandle = s.host.nextHandle + 1 ∧ t.host.requests = s.host.requests ∧ (qpOf t fn q).rereads = p.rereads - 1
              ∧ (∀ x y, (x, y) ≠ (fn, q) → qpOf t x y = qpOf s x y) ∧ t.gen = s.gen))
    ∧ exec (.atsInvalidation fn page) s = .next
        { s with host := { s.host with ats := s.host.ats.filter fun e => decide (e.fn ≠ fn ∨ e.page ≠ page) } }
    ∧ (0 < p.rereads → p.state = .enabled → l.translates = true → s.host.cacheEn = false → lineError { p with sqTail := l.sqTail } l = none →
        ∃ t, exec (.doorbellRereadReturn fn q l [d]) s = .next t ∧ (qpOf t fn q).sqTail = l.sqTail ∧ (qpOf t fn q).sqHead = p.sqHead
          ∧ (qpOf t fn q).fetched = p.fetched ∧ t.host.requests = s.host.requests ∧ t.host.nextHandle = s.host.nextHandle ∧ t.gen = s.gen)

/-- R275 to R278, R82, R85: host reads and writes of the CXL.mem window, which wait for a subchannel that retrains, and the answer to a snoop. Where the
manual leaves an outcome open, the clause is the choice of the model: log entry 70. -/
def Obligations.WindowAccessesOfTheHost : Prop :=
  ∀ (s : State) (a k : Nat) (data : Bytes) (cached : Bool),
    (windowBytes s ≤ a → exec (.hostWindowRead a cached []) s = .next s ∧ exec (.hostWindowWrite a data) s = .next s)
    ∧ (a < windowBytes s → hostMay s (a / 2 ^ 30) = false →
        exec (.hostWindowRead a cached []) s = .next (logEvent (emit s (.windowData (a / 64) (List.replicate 64 0xFF) true))
          (.windowRefused (a / 2 ^ 30) (mget 0 s.tier.windowTenant (a / 2 ^ 30)) false a))
        ∧ exec (.hostWindowWrite a data) s = .next (logEvent s
          (.windowRefused (a / 2 ^ 30) (mget 0 s.tier.windowTenant (a / 2 ^ 30)) true a)))
    ∧ (a < windowBytes s → hostMay s (a / 2 ^ 30) = true →
        ((∀ w ∈ s.tier.windowWrites, w.1 / 64 ≠ a / 64) → windowRetrains s a = false → ∃ t, exec (.hostWindowRead a cached []) s = .next t ∧
            t.host.out = .windowData (a / 64) (windowRead s (64 * (a / 64)) 64) false :: s.host.out
            ∧ (cached = true → a / 64 ∈ t.tier.hostLines) ∧ (cached = false → t.tier = s.tier) ∧ t.tier.lmem = s.tier.lmem)
        ∧ (((∃ w ∈ s.tier.windowWrites, w.1 / 64 = a / 64) ∨ windowRetrains s a = true) → exec (.hostWindowRead a cached []) s = .next
            { s with tier := { s.tier with windowReads := s.tier.windowReads ++ [(a, cached, [])] } })
        ∧ (windowRetrains s a = true → exec (.hostWindowWrite a data) s = .next
            { s with tier := { s.tier with hostWrites := s.tier.hostWrites ++ [(a, data.take (64 - a % 64))] } })
        ∧ (windowRetrains s a = false → exec (.hostWindowWrite a data) s = .next (windowPut s a (data.take (64 - a % 64))))
        ∧ (data.length = 64 → a % 64 = 0 → windowRetrains s a = false → ∃ t, exec (.hostWindowWrite a data) s = .next t ∧ windowRead t a 64 = data
            ∧ (∀ b, b + 64 ≤ a ∨ a + 64 ≤ b → windowRead t b 64 = windowRead s b 64) ∧ t = { s with tier := t.tier }))
    ∧ (s.tier.windowWrites = [] → s.tier.windowReads = [] → exec (.backInvalidateResponse k) s = .next
        { s with tier := { s.tier with hostLines := without k s.tier.hostLines } })
    ∧ (s.tier.windowWrites = [(a, data)] → s.tier.windowReads = [] → a / 64 = k → windowRetrains s a = false → a < s.tier.windowSize.toNat * 2 ^ 30 →
        ∃ t, exec (.backInvalidateResponse k) s = .next t ∧ t.tier.windowWrites = [] ∧ t.tier.hostLines = without k s.tier.hostLines
          ∧ t.tier.lmem = (windowPut s a data).tier.lmem)

/-- R284 to R289, R464, R468: the completion record is written after its payload, counted and reported to its vector; time and unmasking send the vector's
message; a hot reset or a function level reset disables the pairs. Where the manual leaves an outcome open, the clause is the choice of the model: log
entries 71, 72, 73, 74, 75. -/
def Obligations.CompletionsInterruptsAndResets : Prop :=
  ∀ (s : State) (fn : Tenant) (q : BitVec 3) (v : BitVec 4) (c : Completion) (rest : List Completion) (bad : Option Nat),
    let p := qpOf s fn q
    (p.waiting = [] ∨ p.state ≠ .enabled ∨ cqSize p ≤ cqUsed p → exec (.completionPost fn q true bad) s = .next s)
    ∧ (p.waiting = c :: rest → p.state = .enabled → cqUsed p < cqSize p →
        (c.payload = [] → c.closes = none → c.body.kind ≠ 0 → s.tier.windowWrites = [] → s.tier.windowReads = [] →
          ∃ t, exec (.completionPost fn q true none) s = .next t ∧
            (qpOf t fn q).waiting = rest ∧ (qpOf t fn q).cqTail = p.cqTail + 1 ∧ (qpOf t fn q).written = p.written + 1
            ∧ Output.record fn q (p.cqTail.toNat % cqSize p) (p.cqBase + BitVec.ofNat 64 (32 * (p.cqTail.toNat % cqSize p)))
                ({ c with payload := [] }.record p.sqHead (decide (p.written / cqSize p % 2 = 0))) ∈ t.host.out
            ∧ ((vecOf s fn p.vector).masked = false → (c.urgent = true ∨ (vecOf s fn p.vector).countM1.toNat ≤ (vecOf s fn p.vector).since) →
                t.host.out.head? = some (.msix fn p.vector) ∧ (vecOf t fn p.vector).since = 0)
            ∧ (c.urgent = false → (vecOf s fn p.vector).since < (vecOf s fn p.vector).countM1.toNat →
                (vecOf t fn p.vector).since = (vecOf s fn p.vector).since + 1)
            ∧ t.host.requests = s.host.requests ∧ t.store = s.store ∧ t.gen = s.gen)
        ∧ (rest = [] → c.closes = none → ∃ t, exec (.completionPost fn q false bad) s = .next t ∧ (qpOf t fn q).state = .error ∧ (qpOf t fn q).errCode = 4
            ∧ (qpOf t fn q).waiting = [] ∧ t.store = s.store))
    ∧ (let x := vecOf s fn v
       ((∀ t, x.oldest = some t → since t (now s) < x.time.toNat) → exec (.msixTimeExpiry fn v) s = .next s)
       ∧ (∀ t, x.oldest = some t → x.time ≠ 0 → x.time.toNat ≤ since t (now s) →
          exec (.msixTimeExpiry fn v) s = .next (signalVector s fn v)
          ∧ (x.masked = false → ∃ u, exec (.msixTimeExpiry fn v) s = .next u ∧ u.host.out = .msix fn v :: s.host.out ∧ vecOf u fn v = { x with since := 0, oldest := none })
          ∧ (x.masked = true → ∃ u, exec (.msixTimeExpiry fn v) s = .next u ∧ u.host.out = s.host.out
              ∧ vecOf u fn v = { x with since := 0, oldest := none, pending := true }))
       ∧ (∃ u, exec (.msixVectorUnmask fn v) s = .next u ∧ vecOf u fn v = { x with masked := false, pending := false }
          ∧ u.host.out = (if x.pending then .msix fn v :: s.host.out else s.host.out)))
    ∧ (s.power.resetting = none → s.host.requests = [] → s.tier.windowWrites = [] → (∀ k y, mfind s.host.qps k = some y → k < 4096 ∧ y.waiting = []) →
        (∃ t, exec .cxlHotReset s = .next t ∧ (∀ f x, (qpOf s f x).enable = true → (qpOf t f x).enable = false ∧ (qpOf t f x).state = .disabled
            ∧ (qpOf t f x).pinned = false ∧ (qpOf t f x).fetched = []) ∧ t.host.ats = [] ∧ t.tier.hostLines = [] ∧ t.tier.windowReads = []
            ∧ t.pair.linesPinned = false ∧ t.store = s.store ∧ t.gen = s.gen ∧ t.flash = s.flash)
        ∧ (∃ t, exec (.functionLevelReset fn) s = .next t ∧ (∀ x, qpOf t fn x = {}) ∧ (∀ x, vecOf t fn x = {}) ∧ mget 0 t.host.eventQp fn.toNat = 0
            ∧ (∀ f x y, f ≠ fn → qpOf t f x = qpOf s f x ∧ vecOf t f y = vecOf s f y) ∧ t.store = s.store ∧ t.gen = s.gen ∧ t.flash = s.flash))
    ∧ (s.power.resetting = some .warm → exec .cxlHotReset s = .next { s with power := { s.power with held := s.power.held ++ [.hot] } }
        ∧ exec (.functionLevelReset fn) s = .next { s with power := { s.power with held := s.power.held ++ [.flr fn] } })

/-- R292 to R294: each command of a descriptor takes the first one fetched when it is of its opcode; the first check that fails decides; a FINAL with a
status joins the completions that wait, and its request is ending. Where the manual leaves an outcome open, the clause is the choice of the model: log
entries 58, 59. -/
def Obligations.DescriptorsAreJudgedInOrder : Prop :=
  ∀ (s : State) (fn : Tenant) (q : BitVec 3) (v : HostView) (f : Fetched) (rest : List Fetched),
    (∀ c op, (c, op) ∈ [(Instr.nop fn q v, Opcode.nop), (.turn fn q v, .turn), (.textAppend fn q v, .textAppend), (.embed fn q v, .embed),
        (.search fn q v, .search), (.rerank fn q v, .rerank), (.generate fn q v, .generate), (.tokenize fn q v, .tokenize),
        (.detokenize fn q v, .detokenize), (.indexDelete fn q v, .indexDelete), (.rowLookup fn q v, .rowLookup), (.rowUpdate fn q v, .rowUpdate),
        (.loadExtent fn q v, .loadExtent), (.adapterLoad fn q v, .adapterLoad), (.grammarLoad fn q v, .grammarLoad),(.fence fn q v, .fence)] →
      ((qpOf s fn q).fetched = [] → exec c s = .next s)
      ∧ ((qpOf s fn q).fetched = f :: rest → Opcode.ofByte f.desc.opcode.toNat ≠ some op → exec c s = .next s)
      ∧ (∀ x, (qpOf s fn q).fetched = f :: rest → Opcode.ofByte f.desc.opcode.toNat = some op → (firstChecks s fn op f v).findSome? id = some x →
          exec c s = .next (applyReject (accepted s fn q op f rest v) f.handle x)))
    ∧ (let u := accepted s fn q .nop f rest v
       frontOk s fn q .nop f rest v → passes (accessChecks u fn (gibsOf f.desc)) → exec (.nop fn q v) s = .next (finishPlain u f.handle .ok 0)
        ∧ (canPost s fn q → ∃ t, exec (.nop fn q v) s = .next t ∧
            (qpOf t fn q).waiting = (qpOf s fn q).waiting ++
              [{ tag := f.desc.tag, body := .final 0 0 0 .none 0 0, flags := 0, status := .ok, closes := some f.handle }]
            ∧ (qpOf t fn q).fetched = rest ∧ (reqOf t f.handle).map (·.phase) = some .ending
            ∧ (∀ k, k ≠ f.handle → reqOf t k = reqOf s k) ∧ t.store = s.store ∧ t.gen = s.gen ∧ t.tier = s.tier))
    ∧ (∀ h r x, reqOf s h = some r → r.phase ≠ .ending → r.remote = false → x.deny = none → canPost s r.fn r.qp →
        reqOf (applyReject s h x) h = some { r with phase := .ending }
        ∧ (qpOf (applyReject s h x) r.fn r.qp).waiting = (qpOf s r.fn r.qp).waiting ++
            [{ tag := r.tag, body := finalBody r 0 0 .none 0 (w32 x.aux), flags := r.flags, status := x.st, closes := some h }]
        ∧ (∀ k, k ≠ h → reqOf (applyReject s h x) k = reqOf s k) ∧ (applyReject s h x).store = s.store ∧ (applyReject s h x).tier = s.tier)

/-- R13, R243, R244, R296 to R300: an accepted TURN opens its text stream; text joins it; a turn whose END comes too late ends with DEADLINE; EMBED,
SEARCH, RERANK and GENERATE start their first phase. Where the manual leaves an outcome open, the clause is the choice of the model: log entries 57,
59, 65, 66, 152. -/
def Obligations.DataPlaneRequestsStart : Prop :=
  ∀ (s : State) (fn : Tenant) (q : BitVec 3) (v : HostView) (f : Fetched) (rest : List Fetched) (h : Nat) (r : Request),
    let u := fun op => accepted s fn q op f rest v
    let r0 := fun op => newRequest s fn q op f.desc (paramBytes s f.desc v)
    let b := readBlock (paramBytes s f.desc v)
    (frontOk s fn q .turn f rest v → passes (turnChecks (u .turn) (r0 .turn)) → s.pair.link ≠ .up → b.input = [] → exec (.turn fn q v) s = .next
        (setReq (u .turn) f.handle { r0 .turn with block := b, phase := .stream, streamOpen := true }))
    ∧ (frontOk s fn q .textAppend f rest v → passes (accessChecks (u .textAppend) fn (gibsOf f.desc)) → s.pair.link ≠ .up → canPost s fn q →
        openTurnOf (u .textAppend) fn q f.desc.argC = some h → h ≠ f.handle → reqOf s h = some r → f.desc.opflags.getLsbD 0 = false →
        (∀ k ∈ turnSets s r.fn r.block, setVerified s k ∧ (tokenizeOpen s k (r.text ++ paramBytes s f.desc v)).length ≤ 16384) →
        ∃ t, exec (.textAppend fn q v) s = .next t ∧ reqOf t h = some { r with text := r.text ++ paramBytes s f.desc v }
          ∧ (reqOf t f.handle).map (·.phase) = some .ending ∧ (∀ k, k ≠ h → k ≠ f.handle → reqOf t k = reqOf s k) ∧ t.store = s.store)
    ∧ (reqOf s h = some r → r.op = .turn → r.phase = .stream → r.streamOpen = true → (endOverdue s r = false → exec (.turnEndDeadline h) s = .next s)
        ∧ (endOverdue s r = true → r.remote = false → r.ret.snap = none → canPost s r.fn r.qp → ∃ t, exec (.turnEndDeadline h) s = .next t ∧
            reqOf t h = some { r with phase := .ending } ∧ (qpOf t r.fn r.qp).waiting = (qpOf s r.fn r.qp).waiting ++
              [{ tag := r.tag, body := finalBody r 0 0 .none 0 0, flags := r.flags, status := .deadline, closes := some h }]
            ∧ (∀ k, k ≠ h → reqOf t k = reqOf s k) ∧ t.store = s.store))
    ∧ (let n := f.desc.argA.toNat % 32
       frontOk s fn q .embed f rest v → passes (embedChecks (u .embed) (r0 .embed)) → f.desc.opflags.getLsbD 0 = true → ∃ t, exec (.embed fn q v) s = .next t ∧
        reqOf t f.handle = some { r0 .embed with phase := .embed, tokens :=
          [((((progOf s n).map (·.tokSet)).getD 0) % 4, words (paramBytes s f.desc v) 0 ((paramBytes s f.desc v).length / 4))] }
        ∧ mget [] (partOf t (partId n)).rings fn.toNat = mget [] (partOf s (partId n)).rings fn.toNat ++ [{ kind := .input, handle := f.handle }]
        ∧ (∀ k, k ≠ f.handle → reqOf t k = reqOf s k) ∧ t.store = s.store)
    ∧ (let n := f.desc.argA.toNat % 32
       let k := BitVec.ofNat 2 (((progOf s n).map (·.tokSet)).getD 0)
       frontOk s fn q .embed f rest v → passes (embedChecks (u .embed) (r0 .embed)) → f.desc.opflags.getLsbD 0 = false → setVerified s k →
         ∃ t, exec (.embed fn q v) s = .next t ∧ ∃ y, reqOf t f.handle = some y ∧ y.phase = .embed
          ∧ y.tokens = [(k.toNat, (tokenize s k false (paramBytes s f.desc v)).toks)]
          ∧ mget [] (partOf t (partId n)).rings fn.toNat = mget [] (partOf s (partId n)).rings fn.toNat ++ [{ kind := .input, handle := f.handle }]
          ∧ (∀ k, k ≠ f.handle → reqOf t k = reqOf s k) ∧ t.store = s.store)
    ∧ (frontOk s fn q .search f rest v → passes (searchChecks (u .search) (r0 .search)) → exec (.search fn q v) s = .next
        (setReq (u .search) f.handle { r0 .search with block := absolute s b, phase := .walk
                                                       ret := { query := (words b.input 0 (b.input.length / 4)).map w32 } }))
    ∧ (frontOk s fn q .rerank f rest v → passes (rerankChecks (u .rerank) (r0 .rerank)) → ∃ t, exec (.rerank fn q v) s = .next t ∧ ∃ y,
        reqOf t f.handle = some y ∧ y.phase = .fetch ∧ y.ret.cands.length = rd (paramBytes s f.desc v) 4 4
        ∧ (∀ c ∈ y.ret.cands, c.waiting = true ∧ c.block = none ∧ c.score = fpNan) ∧ y.block.rerankPart = f.desc.argA.toNat % 32
        ∧ y.block.index = f.desc.argA.toNat / 256 ∧ t = setReq (u .rerank) f.handle y)
    ∧ (frontOk s fn q .generate f rest v → passes (generateChecks (u .generate) (r0 .generate)) → s.pair.link ≠ .up → ∃ t, exec (.generate fn q v) s = .next t ∧
        reqOf t f.handle = some { r0 .generate with block := absolute s b, phase := .waiting }
        ∧ mget [] (partOf t (partId b.genPart)).rings fn.toNat = mget [] (partOf s (partId b.genPart)).rings fn.toNat
            ++ (List.range b.nSeq).map (fun k => { kind := .prompt, handle := f.handle, index := k })
        ∧ (∀ k, k ≠ f.handle → reqOf t k = reqOf s k) ∧ t.store = s.store ∧ t.text = s.text)

/-- R242, R245 to R248, R300: TOKENIZE and DETOKENIZE answer with their result where the result region takes it, and otherwise with NO_RESOURCES and the
count needed, nothing written. Where the manual leaves an outcome open, the clause is the choice of the model: log entries 66, 67, 152. -/
def Obligations.TextIsAnsweredInPlace : Prop :=
  ∀ (s : State) (fn : Tenant) (q : BitVec 3) (v : HostView) (f : Fetched) (rest : List Fetched),
    let u := fun op => accepted s fn q op f rest v
    let r0 := fun op => newRequest s fn q op f.desc (paramBytes s f.desc v)
    let k := BitVec.ofNat 2 f.desc.argA.toNat
    let p := paramBytes s f.desc v
    let answer := fun (t : State) (op : Opcode) (count need invalid aux : Nat) (data : Bytes) =>
      (qpOf t fn q).waiting = (qpOf s fn q).waiting ++ [if data.length ≤ resultRoom f.desc
        then { tag := f.desc.tag, body := finalBody { r0 op with invalidText := invalid } count data.length .none 0 (w32 aux)
               payload := [(f.desc.resultAddr, data)], closes := some f.handle }
        else { tag := f.desc.tag, body := finalBody { r0 op with invalidText := invalid } need 0 .none 0 0, status := .noResources
               closes := some f.handle }]
      ∧ (∀ j, j ≠ f.handle → reqOf t j = reqOf s j) ∧ t.store = s.store ∧ t.gen = s.gen ∧ t.tier = s.tier
    canPost s fn q → setVerified s k →
    (let t := tokenize s k (f.desc.opflags.getLsbD 0) p
     frontOk s fn q .tokenize f rest v → passes (setChecks (u .tokenize) (r0 .tokenize) ++ accessChecks (u .tokenize) fn (gibsOf f.desc)) →
     t.replaced = 0 → ∃ y, exec (.tokenize fn q v) s = .next y ∧ answer y .tokenize t.toks.length t.toks.length 0 0 (t.toks.flatMap (toLE 4)))
    ∧ (let ids := words p 0 (p.length / 4)
       let raw := (ids.filter fun i => !isSpecial s k i).flatMap (tokenString s k)
       frontOk s fn q .detokenize f rest v → f.desc.opflags.getLsbD 0 = true →
       passes (setChecks (u .detokenize) (r0 .detokenize) ++ [badParam (idsBelow p 0 (p.length / 4) (setVocab s k))]
        ++ accessChecks (u .detokenize) fn (gibsOf f.desc)) →
       ∃ y, exec (.detokenize fn q v) s = .next y ∧ answer y .detokenize ids.length raw.length 0 (ids.filter (isSpecial s k)).length raw)

/-- R180 to R182, R187, R188, R301: a batch that passes its whole check becomes visible with the next EPOCH, one that does not leaves the index as it is;
a compaction's old list is freed when no turn that retrieved from it is left. Where the manual leaves an outcome open, the clause is the choice of the
model: log entries 35, 37, 39, 60, 143, 146, 147. -/
def Obligations.IndexBatchesAreWhole : Prop :=
  ∀ (s : State) (fn : Tenant) (q : BitVec 3) (v : HostView) (f : Fetched) (rest : List Fetched) (r : IndexRec) (i l base : Nat) (fr : Freeing),
    let u := fun op => accepted s fn q op f rest v
    let r0 := fun op => newRequest s fn q op f.desc (paramBytes s f.desc v)
    let w := fun op => (batchWork (u op) r { r0 op with phase := .mutation }).1
    let x := f.desc.argA.toNat % 256
    let n := itemCount (r0 .indexInsert)
    let p := paramBytes s f.desc v
    let free := indexOf s x = some r ∧ r.batch = none ∧ r.queue = [] ∧ mutRole s fn none = .alone ∧ canPost s fn q
    let seen := fun (t : State) (op : Opcode) => (∃ g, indexOf t x = some g ∧ g.epoch = r.epoch + 1 ∧ g.batch = none
      ∧ g.insertNext = (w op).next) ∧ (∀ j, j ≠ x → indexOf t j = indexOf s j)
    let refused := fun (t : State) => indexOf t x = some r ∧ (reqOf t f.handle).map (·.phase) = some .ending
      ∧ (∀ j, j ≠ f.handle → reqOf t j = reqOf s j) ∧ t.store = s.store ∧ t.tier = s.tier ∧ t.flash = s.flash
    let insertOk := passes ([badParam (insertChecks fn r.dim n p)] ++ batchChecks (u .indexInsert) (r0 .indexInsert) ++ [roomFor f.desc (8 * n)])
    let patchOk := passes ([badParam (patchChecks s r n p)] ++ batchChecks (u .indexInsert) (r0 .indexInsert))
    let deleteOk := passes ([badParam (deleteChecks n p)] ++ batchChecks (u .indexDelete) (r0 .indexDelete))
    (free → frontOk s fn q .indexInsert f rest v → f.desc.opflags.getLsbD 0 = false → insertOk →
        match batchCheck (u .indexInsert) r (w .indexInsert) with
        | none => ∃ t, exec (.indexInsert fn q v) s = .next t ∧ seen t .indexInsert
        | some _ => r.epoch.toNat < 0xFFFFFF00 → ∃ t, exec (.indexInsert fn q v) s = .next t ∧ refused t)
    ∧ (free → frontOk s fn q .indexInsert f rest v → f.desc.opflags.getLsbD 0 = true → patchOk →
        match batchCheck (u .indexInsert) r (w .indexInsert) with
        | none => ∃ t, exec (.indexPatch fn q v) s = .next t ∧ seen t .indexInsert
        | some _ => r.epoch.toNat < 0xFFFFFF00 → ∃ t, exec (.indexPatch fn q v) s = .next t ∧ refused t)
    ∧ (free → frontOk s fn q .indexDelete f rest v → deleteOk →
        match batchCheck (u .indexDelete) r (w .indexDelete) with
        | none => ∃ t, exec (.indexDelete fn q v) s = .next t ∧ seen t .indexDelete
        | some _ => (w .indexDelete).foreign = none → r.epoch.toNat < 0xFFFFFF00 → ∃ t, exec (.indexDelete fn q v) s = .next t ∧ refused t)
    ∧ (indexOf s i = some r → mfind r.compact l = none → exec (.listCompactionSwitch i l base) s = .next s)
    ∧ (∀ c, indexOf s i = some r → mfind r.compact l = some c → r.batch.isSome = true → exec (.listCompactionSwitch i l base) s = .next s)
    ∧ (∀ c, indexOf s i = some r → mfind r.compact l = some c → r.batch = none → dirUnits (dirEntry s r l) = 0 → deltaChain s (dirEntry s r l) = [] →
        tombChain s (dirEntry s r l) = [] → ∃ t, exec (.listCompactionSwitch i l base) s = .next t ∧ ∃ g, indexOf t i = some g ∧ mfind g.compact l = none
          ∧ g.epoch = r.epoch ∧ (mget {} g.freeing l).users = (mget {} r.freeing l).users ++ retrieving s
          ∧ (∀ k, k ≠ l → mfind g.compact k = mfind r.compact k) ∧ t.host = s.host)
    ∧ (indexOf s i = some r → mfind r.freeing l = some fr →
        ((∃ h ∈ fr.users, h ∈ retrieving s) → exec (.listCompactionFree i l) s = .next s)
        ∧ ((∀ h ∈ fr.users, h ∉ retrieving s) → ∃ t, exec (.listCompactionFree i l) s = .next t ∧ ∃ g, indexOf t i = some g ∧ mfind g.freeing l = none
            ∧ g.deltaFree = r.deltaFree ++ fr.deltas ∧ g.tombFree = r.tombFree ++ fr.tombs ∧ g.epoch = r.epoch
            ∧ (∀ j, j ≠ i → indexOf t j = indexOf s j) ∧ t.host = s.host))

/-- R259, R262, R264, R265, R302, R379: lookups and updates of a table wait for a step of its reader partition, or the update goes to the owner; once
REFRESH has passed, the owner halves the access counters and plans the new widths; a batch that has not switched skips it. Where the manual leaves an
outcome open, the clause is the choice of the model: log entries 41, 42, 43. -/
def Obligations.TablesTakeWorkAndAreRefreshed : Prop :=
  (
    ∀ (s : State) (fn : Tenant) (q : BitVec 3) (v : HostView) (f : Fetched) (rest : List Fetched),
      let u := fun op => accepted s fn q op f rest v
      let r0 := fun op => newRequest s fn q op f.desc (paramBytes s f.desc v)
      let t := (tableOf s (f.desc.argA.toNat % 64)).getD {}
      let own := some t.ownerPos
      (frontOk s fn q .rowLookup f rest v → passes (accessChecks (u .rowLookup) fn (.table (f.desc.argA.toNat % 64) :: gibsOf f.desc)
          ++ [mayAdmit s fn, takesWork s t.part.toNat none, roomFor f.desc (lookupBytes t (r0 .rowLookup))]) →
        exec (.rowLookup fn q v) s = .next (queueItem (u .rowLookup) t.part fn { kind := .lookup, handle := f.handle })
        ∧ ∃ x, exec (.rowLookup fn q v) s = .next x ∧ mget [] (partOf x t.part).rings fn.toNat
            = mget [] (partOf s t.part).rings fn.toNat ++ [{ kind := .lookup, handle := f.handle }]
          ∧ reqOf x f.handle = some (r0 .rowLookup) ∧ x.store = s.store ∧ x.tier = s.tier)
      ∧ (frontOk s fn q .rowUpdate f rest v → passes ([badParam (updateChecks t.cols (itemCount (r0 .rowUpdate)) (paramBytes s f.desc v))]
          ++ accessChecks (u .rowUpdate) fn (.table (f.desc.argA.toNat % 64) :: gibsOf f.desc) ++ [primacy s fn own, mutRoom s fn own, mayAdmit s fn,
            (if mutRole s fn own = .forward then none else takesWork s t.part.toNat none)]) →
        (mutRole s fn own ≠ .forward → ∃ x, exec (.rowUpdate fn q v) s = .next x ∧ mget [] (partOf x t.part).rings fn.toNat
            = mget [] (partOf s t.part).rings fn.toNat ++ [{ kind := .update, handle := f.handle }]
          ∧ reqOf x f.handle = some (r0 .rowUpdate) ∧ x.store = s.store ∧ x.tier = s.tier)
        ∧ (mutRole s fn own = .forward → ∃ x, exec (.rowUpdate fn q v) s = .next x ∧ (reqOf x f.handle).map (·.phase) = some .forwarded
            ∧ x.pair.forwards = s.pair.forwards ++ [f.handle] ∧ x.store = s.store ∧ x.tier = s.tier)))
  ∧ (
    ∀ (s : State) (n : BitVec 6) (r : TableRec), tableOf s n.toNat = some r →
      ((ownsTable s r = false ∨ since r.refreshedAt (now s) < (partOf s r.part).refreshUsed.toNat * 1000000) → exec (.tableRefresh n) s = .next s)
      ∧ (ownsTable s r = true → (partOf s r.part).refreshUsed.toNat * 1000000 ≤ since r.refreshedAt (now s) →
          (r.batch.isSome = true → exec (.tableRefresh n) s = .next
            (setTable s n.toNat fun _ => { r with refreshedAt := now s, skippedRebuilds := r.skippedRebuilds + 1 }))
          ∧ (r.batch = none → ∃ t, exec (.tableRefresh n) s = .next t ∧ ∃ u, tableOf t n.toNat = some u ∧ u.refreshedAt = now s
              ∧ (∀ b, u.batch = some b → ∀ y ∈ b.toFill, y.1 < r.rows) ∧ (∀ k, k ≠ n.toNat → tableOf t k = tableOf s k) ∧ t.host = s.host)))

/-- R230, R252, R253, R303, R304: LOAD_EXTENT writes its tiles, ADAPTER_LOAD commits a version, GRAMMAR_LOAD a grammar. Where the manual leaves an outcome
open, the clause is the choice of the model: log entries 51, 61. -/
def Obligations.LoadsTakeTheirImages : Prop :=
  ∀ (s : State) (fn : Tenant) (q : BitVec 3) (v : HostView) (f : Fetched) (rest : List Fetched) (e : ExtentEntry) (g : Program),
    let u := fun op => accepted s fn q op f rest v
    let r0 := fun op => newRequest s fn q op f.desc (paramBytes s f.desc v)
    let p := paramBytes s f.desc v
    let c := f.desc.argC.toNat
    canPost s fn q →
    (let xs := extentsOf c f.desc.argA.toNat
     let n := c / 16384
     let l := (place e (devPos n)).2
     frontOk s fn q .loadExtent f rest v → (∀ x ∈ xs, (entryOf s x).isSome = true) →
     passes (extentChecks (u .loadExtent) (r0 .loadExtent) xs) → f.desc.argA = 1 → entryOf s (devExtent n) = some e → e.cls = 1 →
     (place e (devPos n)).1 = 2 →
      ∃ t, exec (.loadExtent fn q v) s = .next t ∧ t.store = s.store ∧ t.flash = s.flash ∧ t.gen = s.gen ∧
        (if (tileImage p 0).crcOk then
          lTile t l = { hdr := storedHeader (tileImage p 0).hdr, payload := (tileImage p 0).payload, dirty := true }
          ∧ (∀ k, k ≠ l → lTile t k = lTile s k)
          ∧ (qpOf t fn q).waiting = (qpOf s fn q).waiting ++ [{ tag := f.desc.tag, body := finalBody (r0 .loadExtent) 1 0 .none 0 0, closes := some f.handle }]
        else t.tier = s.tier ∧ (qpOf t fn q).waiting = (qpOf s fn q).waiting ++ [
              { tag := f.desc.tag, body := finalBody (r0 .loadExtent) 0 0 .none 0 0x10000, status := .badDescriptor, closes := some f.handle }]))
    ∧ (let n := p.length / 16416
       frontOk s fn q .adapterLoad f rest v → passes (adapterChecks (u .adapterLoad) (r0 .adapterLoad)) → mutRole s fn none = .alone →
       progOf s (adapterPart f.desc) = some g → (∃ k, k < 4096 ∧ mfind s.gen.adapters k = none) →
       (∀ a ∈ s.gen.adapters, a.2.order < s.gen.adapterNext) →
       ∃ t, exec (.adapterLoad fn q v) s = .next t ∧ (reqOf t f.handle).map (·.phase) = some .ending ∧ t.store = s.store ∧ t.tier = s.tier ∧
        (match (List.range n).find? fun i => !(tileImage p i).crcOk with
        | some i => t.gen.adapters = s.gen.adapters ∧ (qpOf t fn q).waiting = (qpOf s fn q).waiting ++ [
            { tag := f.desc.tag, body := finalBody (r0 .adapterLoad) i 0 .none 0 (w32 (imageAux i)), status := .badDescriptor, closes := some f.handle }]
        | none => ∃ k a, k < 4096 ∧ mfind s.gen.adapters k = none ∧ mfind t.gen.adapters k = some a ∧ a.tenant = fn
            ∧ a.number = adapterNumber f.desc ∧ a.part = partId (adapterPart f.desc) ∧ a.image = (List.range n).map (tileImage p) ∧ a.bindable = true))
    ∧ (let n := f.desc.argA.toNat % 256
       let gr := readGrammar s c fn
       let own := fun x => (entryOf s x).any fun y => decide (y.cls = 0 ∧ y.tenant = fn ∧ y.world = false)
       frontOk s fn q .grammarLoad f rest v → (∀ x ∈ spanExtents c 64, own x = true) →
       gr.states ≤ 1048576 → gr.intervals ≤ 67108864 → c + grammarBytes gr ≤ 2 ^ 48 →
       (∀ x ∈ spanExtents c (grammarBytes gr), own x = true) →
       ((mfind s.text.grammars n).all fun y => decide (y.tenant = fn ∧ y.world = false)) = true →
       (grammarOk s gr n fn = true → grammarBound s n = false → ∃ t, exec (.grammarLoad fn q v) s = .next t ∧ mfind t.text.grammars n = some gr
          ∧ (∀ k, k ≠ n → mfind t.text.grammars k = mfind s.text.grammars k) ∧ (reqOf t f.handle).map (·.phase) = some .ending
          ∧ t.store = s.store ∧ t.tier = s.tier ∧ t.gen = s.gen)
       ∧ ((grammarOk s gr n fn = false ∨ grammarBound s n = true) → ∃ t, exec (.grammarLoad fn q v) s = .next t ∧ t.text = s.text
          ∧ (reqOf t f.handle).map (·.phase) = some .ending ∧ t.store = s.store ∧ t.tier = s.tier ∧ t.gen = s.gen))

/-- R321 to R324, R326, R477: PROGRAM_LOAD checks the image and the mappings and leaves the partition RUNNING at epoch 1, or has a running one replaced
when its work is done; an unload waits for the work too, and leaves the partition EMPTY. Where the manual leaves an outcome open, the clause is the
choice of the model: log entries 61, 62, 63, 141, 151. -/
def Obligations.ProgramsAreLoadedAndUnloaded : Prop :=
  ∀ (s : State) (fn : Tenant) (q : BitVec 3) (v : HostView) (f : Fetched) (rest : List Fetched) (sec : ImageSections) (p : PartId) (h m : Nat)
    (r : Request) (g : Program),
    let x := partOf s p
    (let u := accepted s fn q .programLoad f rest v
     let a := f.desc.argC.toNat
     let g := readProgram s a sec
     frontOk s fn q .programLoad f rest v → f.desc.argC ≠ 0 → passes (loadChecks u (newRequest s fn q .programLoad f.desc (paramBytes s f.desc v))) →
     partId f.desc.argA.toNat = p → partBusy x = false → canPost s fn q →
      ((x.state = .paused ∨ (x.state = .running ∧ lendsOrBorrows s p = true)) → exec (.programLoad fn q v sec) s = .next (finishPlain u f.handle .noResources 0))
      ∧ (x.state = .empty ∨ (x.state = .running ∧ lendsOrBorrows s p = false) → (entryOf s (devExtent (a / 16384))).isSome = true →
          (Machine.imageOk s a = false → exec (.programLoad fn q v sec) s = .next (finishPlain u f.handle .badDescriptor 48))
          ∧ (Machine.imageOk s a = true → order3 s p g = true → order4 s g = true → (g.maps.head?).any (usable s) = true → order5 s p g = true →
              order6 (releaseShares s p) g 0 = true →
              (x.state = .running → ∃ t, exec (.programLoad fn q v sec) s = .next t ∧ partOf t p = { x with replacing := some (f.handle, g) }
                  ∧ (∀ k, k ≠ p → partOf t k = partOf s k) ∧ t.store = s.store)
              ∧ (x.state = .empty → x.prog = none → ∃ t, exec (.programLoad fn q v sec) s = .next t ∧ (partOf t p).state = .running ∧ (partOf t p).prog = some g
                  ∧ (partOf t p).mapping = 0 ∧ (partOf t p).committed = 0 ∧ (partOf t p).step = { epoch := 1 }
                  ∧ (partOf t p).storeBase = g.sec.storeBase ∧ (partOf t p).storeCount = g.storeTiles ∧ (partOf t p).lShare.length = g.lExtents
                  ∧ (∀ k, k ≠ p → partOf t k = partOf s k) ∧ (reqOf t f.handle).map (·.phase) = some .ending))))
    ∧ (x.replacing = none → exec (.programReplaceSwitch p) s = .next s)
    ∧ (x.replacing = some (h, g) → partDrained x = false → exec (.programReplaceSwitch p) s = .next s)
    ∧ (x.replacing = some (h, g) → partDrained x = true → planOk s g.plan = true → selectMapping s g = some m →
        ((takeL (dropAdapters (releaseShares (setPart s p fun q => { q with replacing := none }) p) p) g).bind
          fun y => mapPool y.2.2 p (y.1 ++ y.2.1)).isSome = true →
        ∃ t, exec (.programReplaceSwitch p) s = .next t ∧ (partOf t p).prog = some g ∧ (partOf t p).mapping = m ∧ (partOf t p).state = .running
          ∧ (partOf t p).replacing = none ∧ (partOf t p).committed = 0 ∧ (∀ a ∈ t.gen.adapters, a.2.part ≠ p))
    ∧ (let u := accepted s fn q .programLoad f rest v
       frontOk s fn q .programLoad f rest v → f.desc.argC = 0 → passes (loadChecks u (newRequest s fn q .programLoad f.desc (paramBytes s f.desc v))) →
       partId f.desc.argA.toNat = p → partBusy x = false →
        (x.state = .empty → exec (.programUnload fn q v) s = .next (finishPlain u f.handle .ok 0))
        ∧ (x.state ≠ .empty → lends s p = true → exec (.programUnload fn q v) s = .next (finishPlain u f.handle .noResources 0))
        ∧ (x.state ≠ .empty → lends s p = false → x.rings = [] → ∃ t, exec (.programUnload fn q v) s = .next t ∧
            partOf t p = { x with state := .unloading, unloading := some f.handle, pauseFor := none } ∧ (∀ k, k ≠ p → partOf t k = partOf s k)
            ∧ t.store = s.store ∧ t.tier = s.tier))
    ∧ (x.unloading = none → exec (.partitionUnloadDone p) s = .next s)
    ∧ (x.unloading = some h → (partDrained x = false ∨ x.rings ≠ []) → exec (.partitionUnloadDone p) s = .next s)
    ∧ (x.unloading = some h → partDrained x = true → x.rings = [] → reqOf s h = some r → r.phase ≠ .ending → r.remote = false → canPost s r.fn r.qp →
        ∃ t, exec (.partitionUnloadDone p) s = .next t ∧ (partOf t p).state = .empty ∧ (partOf t p).prog = none
          ∧ (partOf t p).unloading = none ∧ (partOf t p).slots = [] ∧ (partOf t p).credit = [] ∧ reqOf t h = some { r with phase := .ending }
          ∧ (∀ a ∈ t.gen.adapters, a.2.part ≠ p))

/-- R313, R314: CANCEL finds its target by tag, ends an open text stream at once, and answers after its target; a FENCE answers when no earlier descriptor
of its pair is outstanding, and lets the fetch go on. Where the manual leaves an outcome open, the clause is the choice of the model: log entries 64,
65. -/
def Obligations.CancelAndFence : Prop :=
  ∀ (s : State) (fn : Tenant) (q : BitVec 3) (v : HostView) (f : Fetched) (rest : List Fetched) (t h : Nat) (r x : Request),
    let u := fun op => accepted s fn q op f rest v
    let r0 := fun op => newRequest s fn q op f.desc (paramBytes s f.desc v)
    (∀ g, (qpOf s fn q).fetched.head? = some g → targetFetched s fn g = true → exec (.cancel fn q v) s = .next s)
    ∧ (frontOk s fn q .cancel f rest v → targetFetched s fn f = false →
        (targetOf (u .cancel) fn f.desc.argC f.handle = none → exec (.cancel fn q v) s = .next (finishPlain (u .cancel) f.handle .ok (w32 (b2n f.hit))))
        ∧ (targetOf (u .cancel) fn f.desc.argC f.handle = some (t, x) →
            (cancellable x.op = false → exec (.cancel fn q v) s = .next
              (setReq (u .cancel) f.handle { r0 .cancel with phase := .cancelWait, waitsFor := [t], outCount := b2n f.hit }))
            ∧ (cancellable x.op = true → x.phase = .stream → reqOf s t = some x → t ≠ f.handle → x.ret.snap = none → canPost s fn q → canPost s x.fn x.qp →
                ∃ y, exec (.cancel fn q v) s = .next y ∧ reqOf y t = some { x with phase := .ending }
                  ∧ reqOf y f.handle = some { r0 .cancel with phase := .cancelWait, waitsFor := [t], outCount := b2n f.hit }
                  ∧ (∃ c, (qpOf y x.fn x.qp).waiting = (qpOf s x.fn x.qp).waiting ++ [c] ∧ c.status = .cancelled ∧ c.tag = x.tag ∧ c.closes = some t)
                  ∧ (∀ k, k ≠ t → k ≠ f.handle → reqOf y k = reqOf s k) ∧ y.store = s.store)))
    ∧ (frontOk s fn q .fence f rest v → exec (.fence fn q v) s = .next (setReq (u .fence) f.handle { r0 .fence with phase := .fenceWait }))
    ∧ (reqOf s h = some r → r.phase ≠ .fenceWait → exec (.fenceComplete h []) s = .next s)
    ∧ (reqOf s h = some r → r.phase = .fenceWait →
        (earlierOpen s r.fn r.qp h = true → exec (.fenceComplete h []) s = .next s)
        ∧ (earlierOpen s r.fn r.qp h = false → r.remote = false → canPost s r.fn r.qp → ∃ y, exec (.fenceComplete h []) s = .next y ∧
            reqOf y h = some { r with phase := .ending } ∧ ((qpOf s r.fn r.qp).fenced = some h → (qpOf y r.fn r.qp).fenced = none)
            ∧ (qpOf y r.fn r.qp).waiting = (qpOf s r.fn r.qp).waiting ++
                [{ tag := r.tag, body := finalBody r 0 0 .none 0 0, flags := r.flags, closes := some h }]
            ∧ (∀ k, k ≠ h → reqOf y k = reqOf s k) ∧ y.store = s.store ∧ y.gen = s.gen))

/-- R335, R349 to R355, R363, R416, Table 15.8: a step whose engines do not answer in time fails and is issued again, hung engines retired; a block
changes its world only when quiet and unused, and is zeroed; an engine due for a test is taken out of use, tested, and returns. Where the manual
leaves an outcome open, the clause is the choice of the model: log entries 47, 103. -/
def Obligations.WatchdogTestsAndWorlds : Prop :=
  ∀ (s : State) (p : PartId) (e : Engine) (b : BlockId) (sec : Bool) (m : Nat) (mech : Option (BitVec 8)),
    (let q := partOf s p
     let late := q.step.running = true ∧ recordsIn q (stepEngines q) = false ∧ q.step.checks = [] ∧ q.step.refused = [] ∧ q.step.refusedAll = none
       ∧ q.step.storeRefusal = none ∧ saturatedTiles s q = [] ∧ q.step.attempt < 3 ∧ stepWorks q = true ∧ poisonedTiles s q = [] ∧ canonical {} s.store.slots = true
       ∧ stepTableUs q + q.step.watchdog.toNat * 1000 < since q.step.startAt (now s)
     ((q.step.running = false ∨ recordsIn q (stepEngines q) = true ∨ since q.step.startAt (now s) ≤ stepTableUs q + q.step.watchdog.toNat * 1000) →
        exec (.stepWatchdogExpiry p [e]) s = .next s)
     ∧ (late → ∃ t, exec (.stepWatchdogExpiry p []) s = .next t ∧
          (partOf t p).step.running = true ∧ (partOf t p).step.epoch = q.step.epoch ∧ (partOf t p).step.items = q.step.items
          ∧ (partOf t p).step.attempt = q.step.attempt + 1 ∧ (partOf t p).step.tries = q.step.tries + 1 ∧ (partOf t p).committed = q.committed
          ∧ (∀ k, slotOf t k = retractSlot p q.step.epoch (slotOf s k)) ∧ (∀ r, r ≠ p → partOf t r = partOf s r))
     ∧ (late → usesEngine q e = true → thirdMapping s q [e] = some m → ∃ t, exec (.stepWatchdogExpiry p [e]) s = .next t ∧
          (partOf t p).mapping = m ∧ (partOf t p).step.attempt = 3 ∧ (partOf t p).step.epoch = q.step.epoch ∧ (engOf t e).retired = 1
          ∧ (engOf t e).retiredAt = recNow s :: (engOf s e).retiredAt
          ∧ (∀ r, r ≠ p → usesEngine (partOf s r) e = true → e ∈ (partOf t r).switchDue)))
    ∧ ((worldChanges b = false ∨ inPartition s b = true ∨ isQuiet s b = false) → exec (.worldMapWrite b sec) s = .next
        (logEvent s (.unnamed 22 b.die [w32 b.die.toNat, w32 b.block.toNat, w32 (b2n sec)])))
    ∧ (worldChanges b = true → inPartition s b = false → isQuiet s b = true → ∃ t, exec (.worldMapWrite b sec) s = .next t ∧
        secureBlock t b.die b.block = sec ∧ (∀ d k, (d, k) ≠ (b.die, b.block) → secureBlock t d k = secureBlock s d k)
        ∧ (∀ x, engineOfBlock b = some x → engOf t x = zeroEngine (engOf s x) ∧ t.text = s.text)
        ∧ (∀ x, engineOfBlock b ≠ some x → engOf t x = engOf s x)
        ∧ t.store = s.store ∧ t.tier = s.tier ∧ t.host = s.host)
    ∧ (let x := engOf s e
       let due := x.retired = 0 ∧ (∀ k, testing (engOf s k) = false) ∧ s.gen.testInterval.toNat * 3600000000 ≤ since x.testedAt (recNow s)
       (¬ due → exec (.fieldTestDue e) s = .next s)
       ∧ (due → (∀ y ∈ s.gen.parts, usesEngine y.2 e = false) → ∃ t, exec (.fieldTestDue e) s = .next t ∧
            engOf t e = { zeroEngine x with retired := 2, testDue := some (recNow s) } ∧ secureBlock t (engineBlock e).die (engineBlock e).block = true
            ∧ (∀ r, partOf t r = partOf s r) ∧ (∀ k, k ≠ e → engOf t k = engOf s k))
       ∧ (due → (partOf s p).state = .running → usesEngine (partOf s p) e = true → (minusFor s (partOf s p) e).isSome = true →
            ∃ t, exec (.fieldTestDue e) s = .next t ∧ engOf t e = { x with testDue := some (recNow s) }
              ∧ (partOf t p).switchDue = withLast e (partOf s p).switchDue ∧ t.bureau = s.bureau)
       ∧ (∀ a, x.testDue = some a → x.retired = 0 → 900000000 ≤ since a (recNow s) → ∃ t, exec (.fieldTestDeferralEnd e) s = .next t ∧
            (∀ r, partOf t r = if usesEngine (partOf s r) e = true ∧ (partOf s r).state = .running ∧ minusFor s (partOf s r) e = none
              then { partOf s r with pauseFor := some e } else partOf s r) ∧ t = { s with gen := { s.gen with parts := t.gen.parts } })
       ∧ (x.testDue = none → exec (.fieldTestDeferralEnd e) s = .next s)
       ∧ (x.retired = 2 → (∀ y ∈ s.gen.parts, y.2.loadWait = none) → ∃ t, exec (.fieldTestComplete e mech) s = .next t ∧
            (engOf t e).testDue = none ∧ (engOf t e).testedAt = recNow s ∧ (engOf t e).frames = [] ∧ (engOf t e).acc = []
            ∧ (engOf t e).retired = (if mech = none then 0 else 1) ∧ (∀ k, k ≠ e → engOf t k = engOf s k)
            ∧ secureBlock t (engineBlock e).die (engineBlock e).block = false
            ∧ ∃ u us n k, t = logEvent u (.fieldTestDone e.val mech.isSome us n k)))

/-- R366 to R370: frames over the Settee link are checked, acknowledged, joined to messages and sent again; the link realigns, falls, and trains. Where
the manual leaves an outcome open, the clause is the choice of the model: log entries 76, 77. -/
def Obligations.SetteeFramesAndLinkStates : Prop :=
  ∀ (s : State) (f : Frame) (swaps : List Tenant) (l : BitVec 3),
    let p := s.pair
    let calm := (∀ e ∈ p.journal, e.handle = none) ∧ p.forwards = [] ∧ p.waitMut = []
    let fell := fun (t : State) (c : SplitCause) => t.pair.link = .down ∧ t.pair.lanes = 0 ∧ t.pair.replay = [] ∧ t.pair.rxMsgs = [] ∧ t.pair.parts = []
      ∧ t.pair.reads = [] ∧ (∀ a ∈ p.reads, a ∈ t.pair.failedReads) ∧ t.pair.triedAt = now s ∧ t.pair.journal = p.journal ∧ t.pair.jNext = p.jNext
      ∧ (∀ x ∈ p.provisional, x.link = true → (slotOf t x.tile).hdr.state ≠ .ready)
      ∧ (linkLive s = true → p.provisional = [] → ∃ u, t.bureau = (logEvent u (.pairSplit c.code (p.jNext - 1) p.jAcked)).bureau)
    (p.link = .down ∨ p.realigning = true → exec (.setteeFrameReceive f) s = .next s ∧ exec .setteeEmptyFrame s = .next s)
    ∧ (p.link ≠ .down → p.realigning = false →
        (f.crc ≠ f.crcOf → ∃ t, exec (.setteeFrameReceive f) s = .next t ∧ t.pair.discarding = true ∧ t.pair.nakSeq = p.expect
          ∧ t.pair.nakRun = (if p.nakRun ≠ 0 ∧ p.nakSeq = p.expect then p.nakRun + 1 else 1) ∧ t.pair.rxMsgs = p.rxMsgs ∧ t.pair.rxBytes = p.rxBytes
          ∧ ∃ g : Frame, t.host.out = .frame g :: s.host.out ∧ g.nak = true ∧ g.ackSeq = p.expect ∧ g.empty = true ∧ g.crc = g.crcOf)
        ∧ (f.crc = f.crcOf → f.nak = false → p.txWait = [] → ∃ t, exec (.setteeFrameReceive f) s = .next t ∧
            t.pair.validAt = now s ∧ t.pair.owed = p.owed - f.credit.toNat
            ∧ t.pair.replay = (if p.replay.any (fun g => decide (g.seq = f.ackSeq)) then (p.replay.dropWhile fun g => decide (g.seq ≠ f.ackSeq)).tail
                else p.replay)
            ∧ ((f.empty = true ∨ f.seq ≠ p.expect) → t.pair.expect = p.expect ∧ t.pair.rxMsgs = p.rxMsgs ∧ t.pair.rxBytes = p.rxBytes)
            ∧ (f.empty = false → f.seq = p.expect → t.pair.expect = p.expect + 1 ∧ t.pair.ackDue = true ∧ t.pair.credit = p.credit + 1
                ∧ (f.first = true → f.last = true → 31 ≤ f.used.toNat → 31 < f.payload.length → t.pair.rxMsgs = p.rxMsgs ++ [f.payload.take (f.used.toNat + 1)])
                ∧ (f.first = true → f.last = false → t.pair.rxBytes = f.payload.take (f.used.toNat + 1) ∧ t.pair.rxOpen = true ∧ t.pair.rxMsgs = p.rxMsgs)
                ∧ (f.first = false → f.last = false → p.rxOpen = true → t.pair.rxBytes = p.rxBytes ++ f.payload.take (f.used.toNat + 1)))
            ∧ t.host = s.host ∧ t.store = s.store)
        ∧ (10 ≤ since p.sentAt (now s) → ∃ t, exec .setteeEmptyFrame s = .next t ∧ t.pair.sentAt = now s ∧ t.pair.ackDue = false ∧ t.pair.txSeq = p.txSeq
            ∧ t.pair.replay = p.replay ∧ ∃ g : Frame, t.host.out = .frame g :: s.host.out ∧ g.empty = true ∧ g.nak = false ∧ g.ackSeq = p.expect - 1
              ∧ g.credit = BitVec.ofNat 12 (min p.credit 4095) ∧ g.crc = g.crcOf)
        ∧ (8 ≤ p.nakRun ∨ 8 ≤ p.txNakRun → (lastSecond (now s) p.realignAt).length < 2 → exec (.setteeRealign swaps) s = .next { s with pair :=
            { p with realignAt := now s :: lastSecond (now s) p.realignAt, nakRun := 0, txNakRun := 0, realigning := true } })
        ∧ (8 ≤ p.nakRun ∨ 8 ≤ p.txNakRun → 2 ≤ (lastSecond (now s) p.realignAt).length → calm → ∃ t, exec (.setteeRealign swaps) s = .next t ∧ fell t .realign))
    ∧ (p.realigning = true → p.txWait = [] → exec .setteeRealignDone s = .next { s with
        pair := { p with realigning := false }, host := { s.host with out := (p.replay.map Output.frame).reverse ++ s.host.out } })
    ∧ (p.link ≠ .down → since p.validAt (now s) < 1000 → exec (.setteeSilence swaps) s = .next s)
    ∧ (p.link ≠ .down → 1000 ≤ since p.validAt (now s) → calm → ∃ t, exec (.setteeSilence swaps) s = .next t ∧ fell t .silence)
    ∧ (p.link = .down → p.enable = true → s.bureau.recovery = false → 100000 ≤ since p.triedAt (now s) →
        exec (.setteeTrainAttempt false) s = .next { s with pair := { p with triedAt := now s } }
        ∧ ∃ t, exec (.setteeTrainAttempt true) s = .next t ∧ t.pair.link = .training ∧ t.pair.lanes = trainedLanes s ∧ t.pair.triedAt = now s
          ∧ t.pair.sent = ({ type := 0x01 }, .ident (ownIdent s)) :: p.sent ∧ t.store = s.store ∧ t.gen = s.gen)
    ∧ (l ∈ p.deadLanes → exec (.setteeLaneFailed l) s = .next s)
    ∧ (l ∉ p.deadLanes → exec (.setteeLaneFailed l) s = .next (logEvent { s with pair :=
        { p with deadLanes := withLast l p.deadLanes, lanes := if p.link = .down then 0 else 4 } } (.unnamed 21 0x3D [w32 l.toNat])))

/-- R359, R360, R371 to R376, R379, R382, R383, R385 to R387: each message of the partner is applied, answered, or asked for again. Where the manual
leaves an outcome open, the clause is the choice of the model: log entries 76, 78, 79, 80, 81, 82, 83. -/
def Obligations.PartnerMessagesAreApplied : Prop :=
  ∀ (s : State) (m : MsgHdr) (b : MsgBody) (i : Ident) (swaps : List Tenant) (unmapped : List (BitVec 64)) (tile : TileIdx) (a : BitVec 48) (h : Nat),
    let p := s.pair
    let l := leaseOf s m.tenant
    let calm := (∀ e ∈ p.journal, e.handle = none) ∧ p.forwards = [] ∧ p.waitMut = []
    let said := fun (t : State) (x : MsgHdr) (y : MsgBody) => t.pair.sent = (x, y) :: p.sent
    let ack := fun (st : Status) => ({ type := 0x14, tenant := m.tenant, status := BitVec.ofNat 8 st.code, ref := m.jseq } : MsgHdr)
    let whole := p.jApplied < m.jseq.toNat ∧ (p.jFresh = true ∨ m.jseq.toNat = p.jApplied + 1) ∧ m.more = false
      ∧ (∀ x ∈ p.parts, sameObject x.1 m = false) ∧ (l.mine = true → l.cleared = false) ∧ l.holdFrom = none
    let journals := [Instr.mirrorIndex m b, .mirrorRows m b, .mirrorAdapter m b, .mirrorConfig m b]
    (p.link = .training →
      ((i.position = p.position ∨ i.pairId ≠ p.pairId) → ∃ t, exec (.ident i) s = .next t ∧ t.pair.link = .down ∧ t.pair.sent = p.sent
        ∧ ∃ u, t = logEvent u (.pairIdentMismatch (b2n (decide (i.position = p.position))) i.pairId.toNat p.pairId.toNat))
      ∧ (i.position ≠ p.position → i.pairId = p.pairId → ∃ t, exec (.ident i) s = .next t ∧ t.pair.link = .sync ∧ t.pair.partner = some i ∧ t.pair.syncAt = now s
        ∧ t.pair.jFresh = true ∧ t.pair.jApplied = (if p.partner.map (·.journalGen) = some i.journalGen then p.jApplied else 0)
        ∧ said t { type := 0x60, ref := BitVec.ofNat 64 t.pair.jApplied } .none))
    ∧ (linkLive s = false → ∀ c ∈ journals ++ [.mirrorAck m swaps, .journalReq m swaps, .forward m b, .forwardDone m b, .remoteTile m b tile, .commit m,
        .retract m, .mirrorRead m b, .mirrorData m a b, .relinquish m swaps unmapped], exec c s = .next s)
    ∧ (linkLive s = true →
        (∀ c ∈ journals, m.type ∈ [0x10, 0x11, 0x12, 0x13] →
          (m.jseq.toNat ≤ p.jApplied → ∃ t, exec c s = .next t ∧ said t (ack .ok) .none ∧ t.gen = s.gen ∧ t.store = s.store ∧ t.tier = s.tier)
          ∧ (p.jFresh = false → p.jApplied + 1 < m.jseq.toNat → ∃ t, exec c s = .next t ∧
              said t { type := 0x60, ref := BitVec.ofNat 64 p.jApplied } .none ∧ t.gen = s.gen ∧ t.pair.jApplied = p.jApplied)
          ∧ (p.jApplied < m.jseq.toNat → (p.jFresh = true ∨ m.jseq.toNat = p.jApplied + 1) → m.more = true → ∃ t, exec c s = .next t ∧
              t.pair.parts = p.parts ++ [(m, b)] ∧ t.pair.jApplied = m.jseq.toNat ∧ t.pair.sent = p.sent ∧ t.gen = s.gen))
        ∧ (whole → ∀ es ws n r, b = .index es [] [] [] ws n → indexOf s m.object.toNat = some r → batchCheck s r { entries := es, next := n } = none →
            ws = [] → es = [] → ∃ t, exec (.mirrorIndex m b) s = .next t ∧ said t (ack .ok) .none ∧ t.pair.jApplied = m.jseq.toNat
              ∧ (indexOf t m.object.toNat).map (fun r => (r.epoch, r.insertNext)) = some (m.epoch, n))
        ∧ (whole → ∀ im mp r, b = .rows im mp → tableOf s m.object.toNat = some r → (partOf s r.part).prog.isSome = true → ∃ t, exec (.mirrorRows m b) s = .next t ∧
            t.pair.sent = p.sent ∧ t.pair.jApplied = m.jseq.toNat ∧ (tableOf t m.object.toNat).map (·.mirrorIn) =
              some (r.mirrorIn ++ [{ jseq := m.jseq.toNat, seq := m.epoch.toNat, images := im, maps := mp }]))
        ∧ (whole → ∀ q ts, b = .adapter q ts → (partOf s q).prog.isSome = true → (∃ k, k < 4096 ∧ mfind s.gen.adapters k = none) →
            (∀ x ∈ s.gen.adapters, x.2.order < s.gen.adapterNext) → ∃ t, exec (.mirrorAdapter m b) s = .next t ∧ said t (ack .ok) .none ∧ ∃ k x, k < 4096
              ∧ mfind s.gen.adapters k = none ∧ mfind t.gen.adapters k = some x ∧ x.tenant = m.tenant ∧ x.number = m.object ∧ x.part = q ∧ x.image = ts
              ∧ x.bindable = true)
        ∧ (whole → ∀ w k v, b = .config (.tenant w k v) → ∃ t, exec (.mirrorConfig m b) s = .next t ∧ said t (ack .ok) .none ∧ t.pair.jApplied = m.jseq.toNat
            ∧ tenOf t m.tenant = { tenOf s m.tenant with weight := w, maxSlots := k, serve := v } ∧ (∀ n, n ≠ m.tenant → tenOf t n = tenOf s n))
        ∧ (∀ e, p.link = .up → p.journal.find? (fun x => decide (x.jseq = m.ref.toNat)) = some e → e.handle = none → (leaseOf s e.hdr.tenant).handingOver = false →
            (leaseOf s e.hdr.tenant).word.solo = false → ∃ t, exec (.mirrorAck m swaps) s = .next t ∧ t.pair.journal = dropObject m.ref.toNat p.journal
              ∧ t.pair.jAcked = max p.jAcked m.ref.toNat ∧ t.gen = s.gen ∧ t.host = s.host)
        ∧ (p.link = .up → calm → p.journal.Pairwise (fun x y => x.jseq < y.jseq) → ∃ t, exec (.journalReq m swaps) s = .next t ∧
            t.pair.journal.map (·.jseq) = (p.journal.map (·.jseq)).filter (fun j => decide (m.ref.toNat < j)) ∧ t.gen = s.gen ∧ t.store = s.store
            ∧ t.pair.sent = ((p.journal.filter fun e => decide (m.ref.toNat < e.jseq)).map fun e => (e.hdr, e.body)).reverse ++ p.sent)
        ∧ (∀ d x r, b = .desc d x → m.more = false → (∀ y ∈ p.parts, sameObject y.1 m = false) → Opcode.ofByte d.opcode.toNat = some .rowUpdate →
            tableOf s (d.argA.toNat % 64) = some r → mutRole s m.tenant (some r.ownerPos) = .mirrored → takesWork s r.part.toNat none = none →
            ∃ t, exec (.forward m b) s = .next t ∧ ∃ q, reqOf t s.host.nextHandle = some q ∧ q.remote = true ∧ q.tag = m.ref ∧ q.fn = m.tenant
              ∧ t.host.nextHandle = s.host.nextHandle + 1 ∧ mget [] (partOf t r.part).rings m.tenant.toNat
                = mget [] (partOf s r.part).rings m.tenant.toNat ++ [{ kind := .update, handle := s.host.nextHandle }])
        ∧ (∀ r n x, p.forwards.find? (fun h => (reqOf s h).any fun r => decide (r.fn = m.tenant ∧ r.tag = m.ref)) = some h → b = .final n x →
            reqOf s h = some r → r.op ≠ .indexInsert → r.phase ≠ .ending → r.remote = false → canPost s r.fn r.qp → ∃ t, exec (.forwardDone m b) s = .next t ∧
              t.pair.forwards = without h p.forwards ∧ (qpOf t r.fn r.qp).waiting = (qpOf s r.fn r.qp).waiting ++ [
                { tag := r.tag, body := finalBody r n 0 .none 0 x, flags := r.flags, status := Status.ofCode m.status.toNat, closes := some h }])
        ∧ (∀ y, b = .tile y → ∃ t, exec (.remoteTile m b tile) s = .next t ∧ (∃ u, t.store.slots = (writeTile { s with pair := u } 0x3D tile y y.hdr.world).store.slots)
            ∧ (m.provisional = true → { part := m.partition.toNat, epoch := m.epoch, tile := tile, link := true } ∈ t.pair.provisional
              ∧ ∀ q, sharePart s tile = some q → (m.partition.toNat, m.epoch) ∈ (partOf t q).step.provisional))
        ∧ (∃ t, exec (.commit m) s = .next t ∧ t.pair.provisional = p.provisional.filter (fun x => !x.link || decide ((x.part, x.epoch) ≠ (m.partition.toNat, m.epoch)))
            ∧ (∀ q, (m.partition.toNat, m.epoch) ∈ (partOf s q).step.provisional →
                (partOf t q).step.provisional = without (m.partition.toNat, m.epoch) (partOf s q).step.provisional)
            ∧ t.store = s.store)
        ∧ (∃ t, exec (.retract m) s = .next t ∧ t.pair.provisional = p.provisional ∧ (∀ x ∈ p.provisional, x.link = true → x.part = m.partition.toNat →
            x.epoch = m.epoch → (slotOf t x.tile).hdr.state ≠ .ready
              ∧ ∀ q, (x.part, x.epoch) ∈ (partOf s q).step.provisional → (partOf t q).step.retracted = true))
        ∧ (b = .addr a → ∀ y, mirrored s (devExtent (a.toNat / 16384)) = true → devTile s (a.toNat / 16384) = some y → ∃ t, exec (.mirrorRead m b) s = .next t ∧
            said t { type := 0x51, tenant := m.tenant, ref := a.setWidth 64 } (.tile y) ∧ t.tier = s.tier)
        ∧ (b = .addr a → mirrored s (devExtent (a.toNat / 16384)) = false → ∃ t, exec (.mirrorRead m b) s = .next t ∧
            said t { type := 0x51, tenant := m.tenant, ref := a.setWidth 64, status := BitVec.ofNat 8 Status.mediaError.code } .none)
        ∧ (a ∈ p.reads → ∀ y, b = .tile y →
            (m.status = 0 → y.crcOk = true → ∃ t, exec (.mirrorData m a b) s = .next t ∧ (∃ u d, d = (devWrite { s with pair := u } (a.toNat / 16384) y).tier
              ∧ t.tier = { d with refetched := mins d.refetched (a.toNat / 16384) y }) ∧ t.pair.reads = without a p.reads)
            ∧ (m.status ≠ 0 ∨ y.crcOk = false → ∃ t, exec (.mirrorData m a b) s = .next t ∧ t.tier = s.tier ∧ t.pair.reads = without a p.reads
                ∧ t.pair.failedReads = withLast a p.failedReads))
        ∧ (calm → p.turns = [] → p.provisional = [] → (∀ x ∈ p.leases, x.1 < 512) → ∃ t, exec (.relinquish m swaps unmapped) s = .next t ∧ (t.pair.link = .down
            ∧ ∀ n ∈ swaps, (leaseOf s n).word.held = true → (leaseOf s n).word.holder ≠ p.position → (leaseOf s n).mine = false →
              (leaseOf t n).mine = true ∧ (leaseOf t n).word.holder = p.position)))
    ∧ (p.link = .up → l.word.held = true → l.word.holder = p.position → m.ref.toNat ≤ p.jApplied → ∃ t, exec (.handover m) s = .next t ∧
        (leaseOf t m.tenant).mine = true ∧ (leaseOf t m.tenant).holdFrom = none ∧ ∃ u, t = logEvent u (.leaseAcquired m.tenant 3 l.word.count l.word.solo))
    ∧ (p.link = .up →
        (∀ d x, b = .desc d x → (∀ t ∈ p.turns, sameTurn m t = false) → ∃ t, exec (.turnDesc m b) s = .next t ∧ t.gen = s.gen ∧ t.host = s.host
          ∧ t.pair.turns = p.turns ++ [{ tag := m.ref, tenant := m.tenant, qp := m.object.setWidth 3, desc := d, param := x }])
        ∧ (∀ d e, b = .text d e → ∃ t, exec (.turnText m b) s = .next t ∧ t.gen = s.gen ∧ t.host = s.host
          ∧ t.pair.turns = p.turns.map (fun x => if sameTurn m x then { x with text := x.text ++ d, ended := x.ended || e } else x))
        ∧ (∀ x, p.turns.find? (sameTurn m) = some x → x.snap = none → ∃ t, exec (.turnSnap m) s = .next t ∧ (∃ u, t.gen = (takeSnap { s with pair := u } (rd x.param 11 1) m.epoch).gen)
          ∧ t.pair.turns = p.turns.map (fun x => if sameTurn m x then { x with snap := some m.epoch } else x))
        ∧ ((∀ x ∈ p.turns, sameTurn m x = true → x.snap = none) → ∃ t, exec (.turnDone m) s = .next t ∧ (t.gen = s.gen
          ∧ ∀ x, x ∈ t.pair.turns ↔ x ∈ p.turns ∧ sameTurn m x = false)))
    ∧ (∀ e ∈ p.journal, e.jseq = h → linkLive s = true → calm → (∃ x, e.sentAt = some x ∧ 1000 * p.mirrorTimeout.toNat ≤ since x (now s)) →
        ∃ t, exec (.mirrorTimeout h swaps) s = .next t ∧ t.pair.link = .down ∧ t.pair.journal = p.journal)
    ∧ ((∀ e ∈ p.journal, e.jseq = h → e.sentAt = none) → exec (.mirrorTimeout h swaps) s = .next s)

/-- R377, R378, R381, R382, R384, R472: the holder of a tenant renews its word and loses it, the other module takes it, gives it back, or takes all. Where
the manual leaves an outcome open, the clause is the choice of the model: log entries 78, 79, 81, 112. -/
def Obligations.LeasesAreRenewedTakenAndHandedOver : Prop :=
  ∀ (s : State) (n : Tenant) (w : LeaseWord) (ok : Bool) (swaps mask : List Tenant) (unmapped : List (BitVec 64)),
    let p := s.pair
    let l := leaseOf s n
    let calm := (∀ e ∈ p.journal, e.handle = none) ∧ p.forwards = [] ∧ p.waitMut = []
    let others := fun (t : State) => ∀ k, k ≠ n → leaseOf t k = leaseOf s k
    let own := { l.word with tenant := n, pairId := p.pairId, count := l.word.count + 1 }
    let taken := fun (t : State) (cause : Nat) => (leaseOf t n).mine = true ∧ (leaseOf t n).soloPending = l.word.solo ∧ (leaseOf t n).renewedAt = now s
      ∧ (leaseOf t n).word = { own with held := true, holder := p.position } ∧ others t
      ∧ ∃ u, t = logEvent u (.leaseAcquired n cause (l.word.count + 1) l.word.solo)
    let given := fun (t : State) => (leaseOf t n).mine = false ∧ (leaseOf t n).handingOver = false ∧ others t
      ∧ (leaseOf t n).word = { own with held := true, holder := !p.position }
      ∧ t.pair.sent = ({ type := 0x61, tenant := n, ref := BitVec.ofNat 64 l.lastJseq }, .none) :: p.sent
    (p.enable = false → exec (.leaseLineInvalidation n w) s = .next s ∧ exec (.leaseRenew n ok) s = .next s ∧ exec (.leaseExpiryTake n ok unmapped) s = .next s)
    ∧ (p.enable = true → l.holdFrom = none → ∃ t, exec (.leaseLineInvalidation n w) s = .next t ∧
        leaseOf t n = { l with word := w, changedAt := if l.word = w then l.changedAt else now s } ∧ others t
        ∧ t.host.out = .sharedRead 0 (p.leaseBase + BitVec.ofNat 64 (8 * n.toNat)) :: s.host.out)
    ∧ ((l.mine = false ∨ since l.renewedAt (now s) < 500000) → exec (.leaseRenew n ok) s = .next s)
    ∧ (p.enable = true → l.mine = true → 500000 ≤ since l.renewedAt (now s) →
        (∃ t, exec (.leaseRenew n true) s = .next t ∧ leaseOf t n = { l with word := own, changedAt := now s, renewedAt := now s } ∧ others t
          ∧ t.pair.preferUsed = p.prefer ∧ t.pair.failbackUsed = p.failback ∧ t.host.out = .leaseSwap own :: s.host.out)
        ∧ (∃ t, exec (.leaseRenew n false) s = .next t ∧ leaseOf t n = { l with mine := false, soloPending := false, handingOver := false } ∧ others t
          ∧ ∃ u, t = logEvent u (.leaseLost n 0 l.word.count)))
    ∧ (p.enable = true → l.mine = false → l.word.held = false → prefers s n = p.position → ∃ t, exec (.leaseExpiryTake n true unmapped) s = .next t ∧ taken t 0)
    ∧ (p.enable = true → l.mine = false → l.word.held = false → prefers s n ≠ p.position → 2000000 ≤ since l.changedAt (now s) →
        ∃ t, exec (.leaseExpiryTake n true unmapped) s = .next t ∧ taken t 1)
    ∧ (p.enable = true → l.mine = false → l.word.held = true → l.word.holder ≠ p.position → 2000000 ≤ since l.changedAt (now s) →
        (∀ x ∈ p.turns, x.tenant ≠ n) → ∃ t, exec (.leaseExpiryTake n true unmapped) s = .next t ∧ taken t 1)
    ∧ (l.mine = false → (l.word.held = true ∨ prefers s n ≠ p.position) → since l.changedAt (now s) < 2000000 →
        exec (.leaseExpiryTake n ok unmapped) s = .next s)
    ∧ (l.mine = true → 1500000 ≤ since l.renewedAt (now s) → ∃ t, exec (.leaseRenewLapse n) s = .next t ∧ others t
        ∧ leaseOf t n = { l with mine := false, soloPending := false, handingOver := false } ∧ ∃ u, t = logEvent u (.leaseLost n 1 l.word.count))
    ∧ ((l.mine = false ∨ since l.renewedAt (now s) < 1500000) → exec (.leaseRenewLapse n) s = .next s)
    ∧ (p.failbackUsed = true → (∃ u, p.upAt = some u ∧ 10000000 ≤ since u (now s)) → prefers s n ≠ p.position → l.handingOver = false → l.mine = true →
        p.link = .up → (∀ e ∈ p.journal, e.hdr.tenant ≠ n) → ∃ t, exec (.failbackHandover n true) s = .next t ∧ given t)
    ∧ (s.bureau.recovery = false → p.enable = true → calm → p.turns = [] → (∀ x ∈ p.leases, x.1 < 512) → ∃ t, exec (.pairTakeover swaps unmapped) s = .next t ∧
        (t.pair.link = .down ∧ t.bureau.mbStatus = 0 ∧ t.bureau.mbExec = false
        ∧ ∀ k ∈ swaps, (leaseOf s k).word.held = true → (leaseOf s k).word.holder ≠ p.position → (leaseOf s k).mine = false →
            (leaseOf t k).mine = true ∧ (leaseOf t k).word.holder = p.position))
    ∧ (s.bureau.recovery = false → p.link ≠ .up → ∃ t, exec (.pairHandover mask swaps) s = .next t ∧ t.pair = p ∧ t.bureau.mbExec = false
        ∧ t.bureau.mbStatus = BitVec.ofNat 8 Status.noResources.code)
    ∧ (s.bureau.recovery = false → p.link = .up → l.mine = true → (∀ e ∈ p.journal, e.hdr.tenant ≠ n) → ∃ t, exec (.pairHandover [n] [n]) s = .next t ∧
        given t ∧ t.bureau.mbExec = false ∧ t.bureau.mbStatus = 0)
    ∧ (s.bureau.recovery = false → l.soloPending = true → p.waitMut = [] → ∃ t, exec (.soloClear n) s = .next t ∧
        leaseOf t n = { l with soloPending := false, cleared := true } ∧ others t ∧ t.bureau.mbExec = false ∧ t.bureau.mbStatus = 0)
    ∧ (s.bureau.recovery = false → l.soloPending = false → ∃ t, exec (.soloClear n) s = .next t ∧ t.pair = p
        ∧ t.bureau.mbStatus = BitVec.ofNat 8 Status.noResources.code)

/-- R391 to R407: the map port, page programs and reads, the map's journal and image, verified groups, relocation, erases, and both rebuilds. Where the
manual leaves an outcome open, the clause is the choice of the model: log entries 38, 84. -/
def Obligations.FlashPagesMapAndBlocks : Prop :=
  ∀ (s : State) (u i c d b g ms : Nat) (r : FlashRead) (pos : PagePos) (pg : NandPage) (x : PageProgram) (bad : List Nat),
    let F := s.flash
    let blk := fblkOf s c d b
    let copied := fun (t : State) (b : Nat) => ∃ l m, t.flash.programs = F.programs ++ l ∧ t.flash.stalled = F.stalled ++ m ∧ t.flash.map = F.map
      ∧ (∀ c d b, (fblkOf t c d b).pages = (fblkOf s c d b).pages)
      ∧ ∀ y ∈ l, ∃ p ∈ validPages s c d b, y.page.payload = p.2.payload ∧ y.page.hdr = p.2.hdr ∧ y.page.unit = p.2.unit
        ∧ y.waiter = .moved { chan := c, die := d, block := b, page := p.1 }
    (entryState (mapOf s u) = 0 → exec (.mapPortLookup u) s = .next { s with flash := { F with port := F.port ++ [{ unit := u }] } })
    ∧ (entryState (mapOf s u) = 2 → exec (.mapPortLookup u) s = .next { s with flash := { F with port := F.port ++ [{ unit := u, lost := true }] } })
    ∧ (entryState (mapOf s u) = 1 → let e := entryPos s u (mapOf s u)
        ∃ t, exec (.mapPortLookup u) s = .next t ∧ t.flash.port = F.port ++ [{ unit := u, pos := some e }] ∧ t.flash.map = F.map
          ∧ t.flash.programs = F.programs.map (fun p => if p.pos.chan = e.chan ∧ p.pos.die = e.die ∧ p.suspends < 4 then { p with suspends := p.suspends + 1 } else p))
    ∧ (F.programs[i]? = some x →
        (x.page.kind = 1 → x.waiter = .nobody → x.page.group = none → entryState (mapOf s x.page.unit) ≠ 1 → ∃ t, exec (.flashProgramDone i true) s = .next t ∧
          mapOf t x.page.unit = mapEntry s (unitCol x.page.unit) x.pos ∧ (∀ k, k ≠ x.page.unit → mapOf t k = mapOf s k) ∧ pageAt t x.pos = some x.page
          ∧ t.flash.ring = F.ring ++ [{ unit := x.page.unit, entry := mapEntry s (unitCol x.page.unit) x.pos, seq := x.page.seq, type := 1 }]
          ∧ t.flash.programs = F.programs.eraseIdx i ∧ t.host = s.host ∧ t.tier = s.tier)
        ∧ (validPages s x.pos.chan x.pos.die x.pos.block = [] → (∀ y ∈ F.groups, mfind F.groups y.1 = some y.2) → ∃ t, exec (.flashProgramDone i false) s = .next t ∧
          (fblkOf t x.pos.chan x.pos.die x.pos.block).retired = true
          ∧ mget 0 t.flash.retiredCount x.pos.chan = mget 0 F.retiredCount x.pos.chan + 1 ∧ t.flash.map = F.map
          ∧ ((∃ y ∈ t.flash.programs, y.page.unit = x.page.unit ∧ y.page.payload = x.page.payload ∧ y.waiter = x.waiter)
            ∨ (x.page.unit, x.page, x.waiter) ∈ t.flash.stalled)))
    ∧ (F.programs[i]? = none → ∀ good, exec (.flashProgramDone i good) s = .next s)
    ∧ (entryState (mapOf s u) ≠ 1 → exec (.flashReadDone u r) s = .next s)
    ∧ (entryState (mapOf s u) = 1 → entryPos s u (mapOf s u) = pos → pageAt s pos = some pg → r.uncw = 0 →
        (r.ok = true → r.retried = false → r.bits ≤ 196 → exec (.flashReadDone u r) s = .next s)
        ∧ (r.ok = true → (r.retried = true ∨ 196 < r.bits) → exec (.flashReadDone u r) s = .next
            (setFblk s pos.chan pos.die pos.block fun b => { b with rewriteBy := some (recNow s + 60000000) }))
        ∧ (r.ok = false → groupVerified s pg = false → exec (.flashReadDone u r) s = .next (programUnit s u pg true (.moved pos)))
        ∧ (r.ok = false → groupVerified s pg = true → ∃ t, exec (.flashReadDone u r) s = .next t ∧ pageAt t pos = some { pg with dead := true }
            ∧ t.host = s.host ∧ (∀ k, k ≠ u → mapOf t k = mapOf s k)
            ∧ (extentOfUnit s u = none → entryState (mapOf t u) = 2 ∧ t.tier = s.tier)
            ∧ (∀ k e, extentOfUnit s u = some (k, e) → entryState (mapOf t u) = (if e.copyTier = 0 then 2 else 1)
                ∧ (e.cls = 0 → mfind t.tier.leaves k = some { e with lost := true }) ∧ (e.cls ≠ 0 → t.tier = s.tier))))
    ∧ (256000 ≤ since F.flushedAt (now s) ∨ 4096 ≤ ringMaps s → ∃ t, exec .journalFlush s = .next t ∧ t = { s with flash := { F with
        journal := F.journal ++ F.ring, ring := [], flushedAt := now s, checkpoint := t.flash.checkpoint } }
        ∧ ∃ y, t.flash.checkpoint = some y ∧ y.groups = openGroups s ∧ y.journalPos = F.journal.length + F.ring.length)
    ∧ (since F.flushedAt (now s) < 256000 → ringMaps s < 4096 → exec .journalFlush s = .next s)
    ∧ (∃ t, exec .mapImageSegment s = .next t ∧ mfind t.flash.image F.segNext = some ((List.range 4).map (seqOf s), F.map.filter fun e => decide (e.1 / 4096 = F.segNext))
        ∧ t.flash.segNext = (if F.segNext + 1 < imageSegments then F.segNext + 1 else 0) ∧ (∀ y ∈ t.flash.journal, y ∈ F.journal)
        ∧ (t.flash.image.length < imageSegments → t.flash.journal = F.journal) ∧ t.flash.map = F.map ∧ t.flash.blocks = F.blocks)
    ∧ (∀ y, mfind F.groups g = some y → y.closed = true → y.verified = false →
        (F.stalled = [] → exec (.groupReadbackDone g []) s = .next { s with flash := { F with groups := mins F.groups g { y with verified := true } } })
        ∧ (pageAt s pos = some pg → pg.group = some g → exec (.groupReadbackDone g [pos]) s = .next
            (programUnit s pg.unit { pg with dead := false } true (.moved pos))))
    ∧ (mfind F.groups g = none → exec (.groupReadbackDone g []) s = .next s)
    ∧ (blk.rewriteBy = none → exec (.blockRewrite c d b) s = .next s)
    ∧ (blk.rewriteBy ≠ none → ∃ t, exec (.blockRewrite c d b) s = .next t ∧ copied t b ∧ (fblkOf t c d b).rewriteBy = none)
    ∧ (4 ≤ (freeBlocks s c d).length → exec (.garbageCollect c d) s = .next s)
    ∧ (let full := fun (e : Nat × FlashBlock) => e.1 / 2 ^ 23 = fdieKey c d ∧ ppb s c d ≤ e.2.wp ∧ e.2.retired = false ∧ e.2.erasing = none
       (freeBlocks s c d).length < 4 → (∃ e ∈ F.blocks, full e) → ∃ t, exec (.garbageCollect c d) s = .next t ∧ ∃ e ∈ F.blocks, full e
         ∧ (∀ y ∈ F.blocks, full y → (validPages s c d (e.1 % 2 ^ 23)).length ≤ (validPages s c d (y.1 % 2 ^ 23)).length) ∧ copied t (e.1 % 2 ^ 23))
    ∧ (∀ col x m, youngest (dataBlocks s c col) = some (d, b, x) → wornFree s c col = some m →
        let spread := (dataBlocks s c col).foldl (fun n y => max n y.2.2.pe) 0 - x.pe
        (spread ≤ s.limits.wlSpread → exec (.wearLevelMove c col) s = .next s)
        ∧ (s.limits.wlSpread < spread → mfind F.movedAt (fdieKey c d) = none → ∃ t, exec (.wearLevelMove c col) s = .next t ∧
            (match openGroup s col true (some m) with
            | some _ => copied t b ∧ mfind t.flash.movedAt (fdieKey c d) = some (recNow s)
            | none => t = s)))
    ∧ (eraseReady s c d b = true → exec (.blockErase c d b) s = .next (setFblk s c d b fun x => { x with erasing := some 0 }))
    ∧ (eraseReady s c d b = false → exec (.blockErase c d b) s = .next s)
    ∧ (blk.erasing = none → ∀ good, exec (.flashEraseDone c d b good) s = .next s)
    ∧ (blk.erasing ≠ none → (F.stalled = [] → ∃ t, exec (.flashEraseDone c d b true) s = .next t ∧ fblkOf t c d b = { pe := blk.pe + 1 } ∧ t.flash.map = F.map)
        ∧ ∃ t, exec (.flashEraseDone c d b false) s = .next t ∧ (fblkOf t c d b).retired = true ∧ mget 0 t.flash.retiredCount c = mget 0 F.retiredCount c + 1)
    ∧ (F.rebuilding = false → exec (.ftlColdRebuild ms) s = .next s)
    ∧ (F.rebuilding = true → F.checkpoint = none → ∃ t, exec (.ftlColdRebuild ms) s = .next t ∧ t.flash.map = mapFromFlash s ∧ t.flash.ring = [] ∧ t.flash.programs = []
        ∧ t.flash.rebuilding = false ∧ t.flash.stopped = false ∧ t.flash.flushMark = none
        ∧ (F.flushMark = none → ∀ x ∈ t.flash.groups, x.2.verified = true ∨ x.2.parityGone = true) ∧ ∃ v, t = logEvent v (.flashRebuild true ms 0 0 0))
    ∧ (∃ t, exec (.ftlWarmRebuild bad ms) s = .next t ∧ (∀ u, mapOf t u = if u ∈ bad then mget 0 (mapFromFlash (flushJournal s)) u else mapOf s u)
        ∧ t.flash.ring = [] ∧ t.flash.journal = F.journal ++ F.ring ∧ t.flash.stopped = false ∧ ∃ v, t = logEvent v (.flashRebuild false ms bad.length bad.length 0))

/-- R409 to R414, R417 to R419, R422, R424: interrupt sources, claims and completions; watchdog stages; the control loop and its limits; the token buckets
and the staged records; board sensors. Where the manual leaves an outcome open, the clause is the choice of the model: log entries 94, 96, 97, 98. -/
def Obligations.BureauLoopsAndInterrupts : Prop :=
  ∀ (s : State) (n : BitVec 8) (k : BitVec 2) (d : Nat) (die : DieId) (temp power : Nat) (l : LoopSample) (x : BoardSample) (code : BitVec 16),
    let B := s.bureau
    let src := icOf s n.toNat
    let rest := fun (t : State) => ∀ m, m ≠ n.toNat → icOf t m = icOf s m
    (∀ level, src.line = level → exec (.icSourceFiltered n level) s = .next s)
    ∧ (src.line = false → src.level = true → exec (.icSourceFiltered n true) s = .next
        (setIc s n.toNat (IcSource.assign { src with line := true, pending := true })))
    ∧ (src.line = true → src.level = true → exec (.icSourceFiltered n false) s = .next
        (setIc s n.toNat { src with line := false, pending := false, assigned := none }))
    ∧ (src.line = true → src.level = false → exec (.icSourceFiltered n false) s = .next (setIc s n.toNat { src with line := false }))
    ∧ (src.line = false → src.level = false → ∃ t, exec (.icSourceFiltered n true) s = .next t ∧ rest t ∧ (icOf t n.toNat).line = true
        ∧ (src.pending = true ∨ src.edgeWaits = true → (icOf t n.toNat).merged.toNat = min 255 (src.merged.toNat + 1) ∧ t.bureau.edge = B.edge)
        ∧ (src.pending = false → src.edgeWaits = false → (mget 0 t.bureau.edge (n.toNat / 32)).getLsbD (n.toNat % 32) = true
          ∧ (icOf t n.toNat).merged = src.merged ∧ (src.active = true → (icOf t n.toNat).edgeWaits = true ∧ (icOf t n.toNat).pending = false)
          ∧ (src.active = false → (icOf t n.toNat).pending = true)))
    ∧ (src.pending = true → src.active = false → src.assigned = none → src.priority ≠ 0 → ∀ t, src.order.head? = some t →
        src.assign = { src with assigned := some t, lastTarget := some t })
    ∧ (claimable s k = none → exec (.icClaimRead k) s = .next { s with bureau := { B with claim := mins B.claim k.toNat (false, 0) } })
    ∧ (claimable s k = some n.toNat → ∃ t, exec (.icClaimRead k) s = .next t ∧ rest t ∧ mfind t.bureau.claim k.toNat = some (true, n)
        ∧ icOf t n.toNat = { src with active := true, activeOn := some k, assigned := none, pending := src.level && src.pending }
        ∧ (src.level = false → (mget 0 t.bureau.edge (n.toNat / 32)).getLsbD (n.toNat % 32) = false)
        ∧ (canonical {} B.sources = true → src.assigned = some k ∧ mget 0 B.threshold k.toNat < src.priority ∧ ∀ m, (icOf s m).assigned = some k →
            (icOf s m).priority ≤ mget 0 B.threshold k.toNat ∨ (icOf s m).priority < src.priority ∨ ((icOf s m).priority = src.priority ∧ m ≤ n.toNat)))
    ∧ (src.active = true → src.activeOn = some k → exec (.icComplete k n) s = .next (setIc s n.toNat (IcSource.assign
        { src with active := false, activeOn := none, pending := if src.level then src.line else src.edgeWaits, edgeWaits := src.level && src.edgeWaits })))
    ∧ ((src.active = false ∨ src.activeOn ≠ some k) → ∃ t, exec (.icComplete k n) s = .next t ∧ t.bureau.sources = B.sources
        ∧ (mget 0 t.bureau.badComp k.toNat).toNat = min 255 ((mget 0 B.badComp k.toNat).toNat + 1) ∧ t = { s with bureau := { B with badComp := t.bureau.badComp } })
    ∧ (let kicked := { s with bureau := { B with kickAt := mput 0 B.kickAt k.toNat (recNow s - 1000000) } }
       ((∀ t, mfind B.stage1At k.toNat = some t → 60000000 < since t (recNow s)) → ∃ t, exec (.watchdogStage1 k) s = .next t ∧
          t.bureau.stoppedCores = withLast k B.stoppedCores ∧ mfind t.bureau.stage1At k.toNat = some (recNow s) ∧ t.store = s.store ∧ t.power = s.power
          ∧ ∃ u, t = logEvent u (.watchdog k.toNat 1 (recNow s - 1000000).toNat))
       ∧ (∀ t, mfind B.stage1At k.toNat = some t → since t (recNow s) ≤ 60000000 → exec (.watchdogStage1 k) s = .next
          (warmReset (logEvent kicked (.watchdog k.toNat 2 (recNow s - 1000000).toNat)) 3))
       ∧ (∀ t, mfind B.stage1At k.toNat = some t → k ∈ B.stoppedCores → 1000000 ≤ since t (recNow s) → exec (.watchdogStage2 k) s = .next
          (warmReset (logEvent s (.watchdog k.toNat 2 (mget 0 B.kickAt k.toNat).toNat)) 3))
       ∧ (k ∉ B.stoppedCores → exec (.watchdogStage2 k) s = .next s))
    ∧ (∃ t, exec (.controlLoopTick l) s = .next t ∧ t.power.j1 = l.j1Mv ∧ t.bureau.j1Current = l.j1Ma
        ∧ t.bureau.capCut = (if s.limits.powerCap < l.power then B.capCut + 10 else if l.power + 50 < s.limits.powerCap then B.capCut - 5 else B.capCut)
        ∧ (∀ d, (regulated d = false ∨ d ∉ s.power.domains) → voltOf t d = voltOf s d)
        ∧ (∀ d, regulated d = true → d ∈ s.power.domains → computeDomain d = false → l.junction = [] → s.tier.pkgHot = [] → B.memHot = [] →
            domainTemp s d ≤ 10 * s.limits.tThrottle → let r := rateOf s d
            let tgt := max 1110 (rateTargetOf s d)
            voltOf t d = max 600 (min 850 (if r ≤ 1100 then voltOf s d + 10 else if r < tgt - 15 then voltOf s d + 5 else if tgt + 15 < r then voltOf s d - 5
              else voltOf s d)))
        ∧ t.fabric = s.fabric ∧ t.store = s.store ∧ t.host = s.host ∧ t.limits = s.limits)
    ∧ (condHeld s (condKey 0 d) 10000 = true → voltOf s d = 850 → rateOf s d ≤ 1100 →
        let u := logEvent s (.rateFloorUnheld d (rateOf s d) 850 (domainTemp s d).toNat)
        exec (.rateFloorUnheld d) s = .next (firmwareTrip (drawFree u).2 (.rateFloor (domainTemp s d).toNat) true (drawFree u).1.toNat))
    ∧ (condHeld s (condKey 0 d) 10000 = false → exec (.rateFloorUnheld d) s = .next s)
    ∧ (condHeld s (condKey 2 0) 1000000 = true → s.limits.powerCap < power → exec (.powerCapUnmet power) s = .next
        (logEvent (condAgain s (condKey 2 0)) (.powerCapUnmet power s.limits.powerCap B.capCut)))
    ∧ (power ≤ s.limits.powerCap → exec (.powerCapUnmet power) s = .next s)
    ∧ (condHeld s (condKey 1 die.toNat) 100000 = true → 1050 ≤ temp → exec (.thermalLimit die temp) s = .next
        (logEvent (condAgain s (condKey 1 die.toNat)) (.thermalLimit die temp ((dieDomain die).getD 0) (rateOf s ((dieDomain die).getD 0)))))
    ∧ (temp < 1050 → exec (.thermalLimit die temp) s = .next s)
    ∧ (let b := mget {} B.buckets code.toNat
       (b.suppressed = 0 → ∃ t, exec (.eventTokenRefill code) s = .next t ∧ t = { s with bureau := { B with buckets := t.bureau.buckets } }
          ∧ mget {} t.bureau.buckets code.toNat = { b with tokens := min 8 (b.tokens + 1) })
       ∧ (b.suppressed ≠ 0 → ∃ t, exec (.eventTokenRefill code) s = .next t ∧ t.bureau.evSeq = B.evSeq + 1
          ∧ mget {} t.bureau.buckets code.toNat = { tokens := min 8 (b.tokens + 1) - 1 } ∧ t.bureau.staged =
              { code := code, source := b.source, severity := b.severity, summary := true, time := B.recTime, seq := B.evSeq
                params := [w32 b.suppressed, w32 b.first.toNat, w32 b.last.toNat] } :: B.staged))
    ∧ (∃ t, exec .eventStageFlush s = .next t ∧ t.bureau.staged = [] ∧ t.host = s.host ∧ t.store = s.store
        ∧ (B.lastArea.length ≤ 16384 → t.bureau.lastArea = (B.staged ++ B.lastArea).take 16384))
    ∧ (∃ t, exec (.boardSensorSample x) s = .next t ∧ (∀ i v : Nat, x.board[i]? = some v → mget 0 t.bureau.boardTemp i = v) ∧ t.bureau.coolantIn = x.coolantIn
        ∧ t.bureau.coolantOut = x.coolantOut ∧ t.store = s.store ∧ t.tier = s.tier ∧ (x.coolantIn ≤ 450 → t.host = s.host)
        ∧ (450 < x.coolantIn → ∃ u, t = logEvent u (.coolantHigh x.coolantIn x.coolantOut)))

/-- R65, R67, R71, R155, R256, R315, R373: extents are mapped, changed and unmapped; indexes and tables come and go; a tenant is removed whole. Where the
manual leaves an outcome open, the clause is the choice of the model: log entries 20, 23, 34, 101, 142, 143, 151. -/
def Obligations.ObjectsAreMadeAndRemoved : Prop :=
  ∀ (s : State) (x n : Nat) (e old : ExtentEntry) (l : BitVec 11) (ib : Bytes) (v : State) (td : Bytes) (i : IndexRec)
    (tb : TableRec) (tn : Tenant),
    let done := fun (t : State) (st : Status) => t.bureau.mbExec = false ∧ t.bureau.mbStatus = BitVec.ofNat 8 st.code ∧ t.bureau.mbBackground = false
    let no := fun (st : Status) => reply s false (BitVec.ofNat 8 st.code) [] none
    let still := e.mstate = 0 ∧ e.newTier = 0 ∧ e.inflight = 0
    let ir := indexOfBytes ib
    let tr := tableOfBytes td
    s.bureau.recovery = false →
    (x < 134217728 → mappingAllowed e = true → entryOf s x = none → isWindow s x = false → (e.shared && objectNames s x) = false → locFree s e.homeTier e.homeLoc = true →
        locFree s e.copyTier e.copyLoc = true → leafFor s x = some l → ∃ t, exec (.extentMap x e) s = .next t ∧ done t .ok ∧ entryOf t x = some (freshEntry e)
          ∧ (mfind s.tier.dir (x / 16384) = some l → (∀ j k m, mfind s.tier.dir j = some m → mfind s.tier.dir k = some m → j = k) →
              ∀ y, y ≠ x → entryOf t y = entryOf s y)
          ∧ t.store = s.store ∧ t.flash = s.flash ∧ t.gen = s.gen)
    ∧ ((134217728 ≤ x ∨ mappingAllowed e = false) → exec (.extentMap x e) s = .next (no .badDescriptor))
    ∧ (x < 134217728 → mappingAllowed e = true → (entryOf s x).isSome = true → exec (.extentMap x e) s = .next (no .noResources))
    ∧ (entryOf s x = none → exec (.extentUnmap x) s = .next (no .badDescriptor) ∧ exec (.extentSet x e) s = .next (no .badDescriptor))
    ∧ (entryOf s x = some e → still → extentNamed s x = false → isWindow s x = false → mfind s.tier.drains x = none →
        isClean (writeBackAll s x) x = true → ∃ t, exec (.extentUnmap x) s = .next t ∧ done t .ok ∧ entryOf t x = none)
    ∧ (entryOf s x = some e → (extentNamed s x = true ∨ isWindow s x = true ∨ ¬ still) → exec (.extentUnmap x) s = .next (no .noResources))
    ∧ (entryOf s x = some old → mappingAllowed (setAttributes old e) = true → isWindow s x = false → old.mstate = 0 → old.newTier = 0 → old.inflight = 0 →
        mfind s.tier.drains x = none → setBarred s x old (setAttributes old e) = false → e.cls = old.cls → ¬ (e.cls = 0 ∧ e.copyTier = 0) → ∃ t, exec (.extentSet x e) s = .next t ∧ done t .ok
          ∧ entryOf t x = some { old with tenant := e.tenant, world := e.world, shared := e.shared, pin := e.pin, owner := e.owner }
          ∧ t.store = s.store ∧ t.flash = s.flash ∧ t.gen = s.gen)
    ∧ (entryOf s x = some old → mappingAllowed (setAttributes old e) = true → setBarred s x old (setAttributes old e) = true →
        exec (.extentSet x e) s = .next (no .noResources))
    ∧ (entryOf s x = some old → mappingAllowed (setAttributes old e) = false → exec (.extentSet x e) s = .next (no .badDescriptor))
    ∧ (s.pair.enable = false → indexBytesOk n ib = true → n < 256 → indexFieldsOk ir = true → indexExtentsOk s ir = true → indexOf s n = none →
        (s.gen.indexes.map fun x => x.2.centroids).sum + ir.centroids ≤ 33554432 → passageRoom s (heldPassages s ir) = true →
        storeTakes s (1 + (ir.entryCount * ir.dim + 16383) / 16384) = true → pinAll (entryExtents ir) s = some v → v.gen = s.gen →
        ∃ t, exec (.indexCreate n ib) s = .next t ∧ done t .ok ∧ t.tier = v.tier ∧ (∀ k, k ≠ n → indexOf t k = indexOf s k)
          ∧ ∃ r, indexOf t n = some r ∧ r.tenant = ir.tenant ∧ r.dim = ir.dim ∧ r.centroids = ir.centroids ∧ r.epoch = 1 ∧ r.oldestSnap = 1
            ∧ r.insertNext = 0x8000000000 ∧ r.snaps = [] ∧ r.batch = none)
    ∧ (s.pair.enable = false → (indexBytesOk n ib = false ∨ 256 ≤ n ∨ indexFieldsOk ir = false) → exec (.indexCreate n ib) s = .next (no .badDescriptor))
    ∧ (s.pair.enable = false → indexBytesOk n ib = true → n < 256 → indexFieldsOk ir = true → indexExtentsOk s ir = true →
        passageRoom s (heldPassages s ir) = false → exec (.indexCreate n ib) s = .next (no .noResources))
    ∧ (s.pair.enable = false → indexOf s n = none → exec (.indexDestroy n) s = .next (no .badDescriptor))
    ∧ (s.pair.enable = false → indexOf s n = some i →
        (indexBusy s n i = true → exec (.indexDestroy n) s = .next (no .noResources))
        ∧ (indexBusy s n i = false → ∃ t, exec (.indexDestroy n) s = .next t ∧ done t .ok ∧ indexOf t n = none ∧ (∀ k, k ≠ n → indexOf t k = indexOf s k)
            ∧ t.store = s.store ∧ t.flash = s.flash))
    ∧ (s.pair.enable = false → tableBytesOk n td = true → n < 64 → tableFieldsOk tr = true → tableExtentsOk s tr = true → tableOf s n = none →
        (partOf s tr.part).prog = none → hotTilesOf s tr.part + tr.hotTiles ≤ min 16384 (partOf s tr.part).hotBudgetUsed.toNat →
        ∃ t, exec (.tableCreate n td) s = .next t ∧ done t .ok
          ∧ (∀ k, k ≠ n → tableOf t k = tableOf s k) ∧ t.store = s.store ∧ t.tier = s.tier
          ∧ ∃ r, tableOf t n = some r ∧ r.rows = tr.rows ∧ r.cols = tr.cols ∧ r.updateSeq = 0 ∧ r.batch = none ∧ r.refreshedAt = now s)
    ∧ (s.pair.enable = false → (tableBytesOk n td = false ∨ 64 ≤ n ∨ tableFieldsOk tr = false) → exec (.tableCreate n td) s = .next (no .badDescriptor))
    ∧ (s.pair.enable = false → tableOf s n = none → exec (.tableDestroy n) s = .next (no .badDescriptor))
    ∧ (s.pair.enable = false → tableOf s n = some tb →
        (tableBusy s n tb = true → exec (.tableDestroy n) s = .next (no .noResources))
        ∧ (tableBusy s n tb = false → ∃ t, exec (.tableDestroy n) s = .next t ∧ done t .ok ∧ tableOf t n = none ∧ (∀ k, k ≠ n → tableOf t k = tableOf s k)
            ∧ (∀ y ∈ (partOf s tb.part).hotDir, y.1 ∈ (List.range tb.hotTiles).map (hotKey n) → (slotOf t y.2).hdr.state = .free ∧ y ∉ (partOf t tb.part).hotDir)
            ∧ t.tier = s.tier ∧ t.flash = s.flash))
    ∧ (objectRole s tn = some .redirectPartner → exec (.tenantRemove tn) s = .next (no .redirectPartner))
    ∧ (s.pair.enable = false → (∀ y ∈ s.gen.indexes, y.2.tenant ≠ tn) → (∀ y ∈ s.gen.tables, y.2.tenant ≠ tn) →
        ((∃ y ∈ s.gen.adapters, y.2.tenant = tn ∧ y.2.refs ≠ 0) → exec (.tenantRemove tn) s = .next (no .noResources))
        ∧ ((∀ y ∈ s.gen.adapters, y.2.tenant = tn → y.2.refs = 0) → (∀ y ∈ s.text.grammars, y.2.tenant = tn → grammarBound s y.1 = false) →
            (∀ y ∈ s.tier.leaves, y.2.valid = true → y.2.tenant ≠ tn) → ∃ t, exec (.tenantRemove tn) s = .next t ∧ done t .ok
              ∧ t.gen.adapters = s.gen.adapters.filter (fun a => decide (a.2.tenant ≠ tn))
              ∧ t.text.grammars = s.text.grammars.filter (fun g => decide (g.2.tenant ≠ tn)) ∧ t.tier = s.tier ∧ t.store = s.store))

/-- R32, R34, R35, R123, R210, R365, R401, R423 to R429, R457, R473: the mailbox answers every command with a status and output; in recovery none. Where
the manual leaves an outcome open, the clause is the choice of the model: log entries 99, 100, 101, 103, 159. -/
def Obligations.MailboxCommandsAreAnswered : Prop :=
  ∀ (s : State) (b : BlockId) (m first : Bool) (off : BitVec 64) (p : PartId) (slot a n : Nat) (e : Engine) (l : Limits) (nonce : BitVec 256) (tk : Word)
    (req : Bytes) (id : BitVec 16) (st : BitVec 8) (data : Bytes) (g : Program) (q : Background),
    let B := s.bureau
    let no := fun (m : Bool) (st : Status) => reply s m (BitVec.ofNat 8 st.code) [] none
    (let t := reply s m st data none
     (m = true → t = { s with host := { s.host with out := .mctp (st :: data) :: s.host.out } })
     ∧ (m = false → t.bureau.mbExec = false ∧ t.bureau.mbStatus = st ∧ t.bureau.mbOutLen.toNat = min 4096 data.length ∧ t.bureau.mbBackground = false
         ∧ (∀ i, i < 4096 → i < data.length → mget 0 t.bureau.mbData i = data.getD i 0) ∧ .mailboxReply st data ∈ t.host.out
         ∧ t.store = s.store ∧ t.gen = s.gen ∧ t.tier = s.tier ∧ t.fuses = s.fuses))
    ∧ (B.recovery = true →
        exec (.quiesce b) s = .next (no false .badDescriptor)
        ∧ ∀ c ∈ [Instr.readCounters m, .setUtc m off, .setLimits m l, .eventRead m first a n, .eventClear m, .faultRead m a n, .attest m nonce, .certRead m],
          exec c s = .next (no m .badDescriptor))
    ∧ (B.recovery = false →
        (isQuiet s b = true → exec (.quiesce b) s = .next (no false .ok))
        ∧ (isQuiet s b = false → ∃ t, exec (.quiesce b) s = .next t ∧ (mfind t.fabric.quiesce (blockKey b)).isSome = true ∧ t.bureau.ticketNext = B.ticketNext + 1
            ∧ t.bureau.mbBackground = true ∧ t.bureau.mbTicket = w32 B.ticketNext ∧ t.bureau.mbExec = false
            ∧ { ticket := w32 B.ticketNext, fromMailbox := true, die := b.die, block := b.block, code := 0x05 } ∈ t.bureau.background)
        ∧ (resettable b = false → exec (.blockReset b) s = .next (no false .badDescriptor))
        ∧ (resettable b = true → resetRefused s b = true → exec (.blockReset b) s = .next (no false .noResources))
        ∧ (resettable b = true → resetRefused s b = false → s.power.resetting = none → ∃ t, exec (.blockReset b) s = .next t ∧
            mfind t.fabric.quiesce (blockKey b) = (mfind s.fabric.quiesce (blockKey b)).filter (fun x => decide (x.stage = .hung))
            ∧ (∀ k f, mfind s.fabric.fences k = some f → k % 64 = b.die.toNat → mfind t.fabric.fences k = some { f with reset := true })
            ∧ (worldChanges b = true → secureBlock t b.die b.block = false)
            ∧ (∀ x, engineOfBlock b = some x → (engOf t x).frames = [] ∧ (engOf t x).acc = [] ∧ (engOf t x).vregs = [] ∧ (engOf t x).ctx0 = none
                ∧ (engOf t x).ctx1 = none ∧ (engOf t x).retired = (engOf s x).retired)
            ∧ (b.die = 0x3E → t.text.streams = []) ∧ t.bureau.mbStatus = 0 ∧ .mailboxReply 0 [BitVec.ofNat 8 (b2n (isQuiet s b))] ∈ t.host.out)
        ∧ exec (.readCounters m) s = .next
            (if m then no true .badDescriptor else reply s false 0 (toLE 8 (now s).toNat ++ toLE 8 (recNow s).toNat) none)
        ∧ exec (.setUtc m off) s = .next (reply { s with bureau := { B with utc := some off } } m 0 [] none)
        ∧ ((partOf s p).prog = some g →
            (slot < g.slots → exec (.readSlot p slot) s = .next (reply s false 0 (toLE 37 (packFields (slotFields (slotRec s p slot)))) none))
            ∧ (g.slots ≤ slot → exec (.readSlot p slot) s = .next (no false .badDescriptor)))
        ∧ exec (.readCapability e) s = .next (reply s false 0 (toLE 32 (capRecord s e)) none)
        ∧ (l.ok = false → exec (.setLimits m l) s = .next (no m .badDescriptor))
        ∧ (∀ v, 600 ≤ v → v ≤ 1800 → exec (.setLimits m (.powerCap v)) s = .next (reply { s with limits := { s.limits with powerCap := v } } m 0 [] none))
        ∧ (∀ v, 70 ≤ v → v ≤ 100 → exec (.setLimits m (.tThrottle v)) s = .next (reply { s with limits := { s.limits with tThrottle := v } } m 0 [] none))
        ∧ (∀ v, 50 ≤ v → v ≤ 1000 → exec (.setLimits m (.wlSpread v)) s = .next (reply { s with limits := { s.limits with wlSpread := v } } m 0 [] none))
        ∧ (∀ d v, regulated d = true → 1110 ≤ v → v ≤ 1750 → ∃ t, exec (.setLimits m (.rateTarget d v)) s = .next t ∧ (rateTargetOf t d = v ∧ t.limits.powerCap = s.limits.powerCap
            ∧ ∀ k, k ≠ d → rateTargetOf t k = rateTargetOf s k))
        ∧ exec (.eventRead m first a n) s = .next (reply s m 0 ((eventsFrom s first a n).flatMap EventRec.bytes) none)
        ∧ (B.staged = [] → ∃ t, exec (.eventClear m) s = .next t ∧ t.bureau.evSeq = B.evSeq + 1 ∧ t.bureau.staged = [] ∧ ∃ r, t.bureau.firstArea = [r] ∧ r.code = 0x1208
            ∧ r.seq = B.evSeq ∧ r.time = recNow s ∧ r.params = [w32 B.firstArea.length] ∧ t.bureau.lastArea = (r :: B.lastArea).take 16384)
        ∧ exec (.faultRead m a n) s = .next (reply s m 0 ((((s.gen.faultRecords.reverse.drop a).take n).flatMap (fun x => x)).take 4096) none)
        ∧ (∃ t, exec (.attest false nonce) s = .next t ∧ t.bureau.reports = B.reports + 1 ∧ t.bureau.mbOutLen = 4096 ∧ t.fuses = s.fuses
            ∧ ∃ d, d.length = 5208 ∧ .mailboxReply 0 d ∈ t.host.out ∧ (d.drop 32).take 32 = toLE 32 nonce.toNat ∧ (d.drop 64).take 16 = toLE 16 Config.serial.toNat
              ∧ (d.drop 3664).take 2 = toLE 2 s.fuses.rollback)
        ∧ exec (.certRead m) s = .next (reply s m 0 Config.deviceCertificate none))
    ∧ (∀ st d, mfind B.outcomes tk.toNat = some (st, d) → exec (.status m tk) s = .next (reply s m st d none))
    ∧ (mfind B.outcomes tk.toNat = none → (∀ x ∈ B.background, x.ticket ≠ tk) → exec (.status m tk) s = .next (no m .badDescriptor))
    ∧ ((∀ x ∈ B.background, x.ticket ≠ tk) → exec (.mailboxBackgroundDone tk) s = .next s)
    ∧ (B.background.find? (fun x => decide (x.ticket = tk)) = some q → q.code = 0x05 →
        (mfind s.fabric.quiesce (blockKey { die := q.die, block := q.block })).map (·.stage) = some .done → ∃ t, exec (.mailboxBackgroundDone tk) s = .next t ∧
          mfind t.bureau.outcomes tk.toNat = some (0, []) ∧ (∀ x ∈ t.bureau.background, x.ticket ≠ tk) ∧ (B.mbTicket = tk → t.bureau.mbBackground = false)
          ∧ t.host = s.host ∧ t.store = s.store)
    ∧ (∃ t, exec (.mctpControl req) s = .next t ∧ t.bureau = { B with mctpEid := if rd req 1 1 = 1 then BitVec.ofNat 8 (rd req 3 1) else B.mctpEid } ∧ t.store = s.store
        ∧ ∃ f, t.host.out = .mctp f :: s.host.out ∧ f.length = 4)
    ∧ (∀ v, sensorReading s id.toNat = some v → exec (.pldmPlatformRequest id) s = .next (emit s (.mctp (toLE 4 (w32i v).toNat))))
    ∧ (sensorReading s id.toNat = none → ∃ t, exec (.pldmPlatformRequest id) s = .next t ∧ t.store = s.store ∧ t.bureau = B
        ∧ ∃ f, t.host.out = .mctp f :: s.host.out ∧ f.length = 1)

/-- R430 to R437, Table 18.9: an image is offered, transferred, verified and staged; it is activated at its time, by a drain and a warm reset; the counter
follows a commit; a boot ends well or falls back; the recovery mailbox loads bank A. Where the manual leaves an outcome open, the clause is the choice
of the model: log entries 91, 104, 105, 106, 107, 108, 109. -/
def Obligations.FirmwareIsStagedActivatedAndBooted : Prop :=
  ∀ (s : State) (c : ComponentOffer) (k n svn : Nat) (data : Bytes) (verdict : Option Verdict) (i : BankImage) (m : Bool) (utc : BitVec 64)
    (slot signer : BitVec 2) (comp cause : Word) (start : BitVec 48),
    let B := s.bureau
    let bank := inactiveBank s
    let no := fun (st : Status) => reply s m (BitVec.ofNat 8 st.code) [] none
    let at_ := utcReached s
    (offerRefused s c = true → ∃ t, exec (.pldmUpdateComponent c) s = .next t ∧ t.bureau = B ∧ ∃ f, t.host.out = .mctp f :: s.host.out ∧ f.length = 1)
    ∧ (offerRefused s c = false → stagedImage s = none → ∃ t, exec (.pldmUpdateComponent c) s = .next t ∧ t.bureau.session = true
        ∧ stagedImage t = some { version := c.version, size := c.size, stamp := c.stamp, svn := c.svn, keySlot := c.keySlot }
        ∧ ∃ f, t.host.out = ((List.range (chunkCount c.size)).map fun k => Output.mctp (toLE 4 (4096 * k) ++ toLE 4 (chunkBytes c.size k))).reverse
            ++ .mctp f :: s.host.out)
    ∧ (offerRefused s c = false → stagedImage s = some i → sameComponent i c = true → ∃ t, exec (.pldmUpdateComponent c) s = .next t ∧ stagedImage t = some i
        ∧ t.bureau.session = true)
    ∧ (stagedImage s = some i → B.session = true → i.verified = false → k < chunkCount i.size → data.length = chunkBytes i.size k →
        let j := { i with chunks := mins i.chunks k data }
        (missingChunks j ≠ [] → exec (.fwDataChunk k data verdict none) s = .next { s with bureau := { B with banks := mins B.banks bank j } })
        ∧ (missingChunks j = [] → imageCause s i.svn i.keySlot verdict = some (comp, cause) → exec (.fwDataChunk k data verdict none) s = .next
            (logEvent { s with bureau := { B with banks := mins (mins B.banks bank j) bank {} } } (.fwVerifyFailed bank comp cause)))
        ∧ (missingChunks j = [] → imageCause s i.svn i.keySlot verdict = none →
            (∃ t, exec (.fwDataChunk k data verdict none) s = .next t ∧ stagedImage t = some { j with verified := true } ∧ t.fuses = s.fuses
              ∧ ∃ u, t = logEvent u (.fwStaged bank i.svn i.size i.keySlot.toNat))
            ∧ (slot ≠ signer → s.fuses.revoked.getLsbD slot.toNat = false → s.fuses.revoked.getLsbD signer.toNat = false →
                ∃ t, exec (.fwDataChunk k data verdict (some (slot, signer))) s = .next t ∧ t.fuses.rollback = s.fuses.rollback
                  ∧ t.fuses.revoked = s.fuses.revoked ||| BitVec.ofNat 4 (2 ^ slot.toNat) ∧ ∃ u, t = logEvent u (.keySlotRevoked slot.toNat signer.toNat))))
    ∧ ((B.session = false ∨ data.length ≠ chunkBytes i.size k) → stagedImage s = some i → exec (.fwDataChunk k data verdict none) s = .next s)
    ∧ (B.session = true → B.pendingBank = false → (stagedImage s).any (·.verified) = true → ∃ t, exec .activateFirmware s = .next t ∧ t.bureau.pendingBank = true
        ∧ t.bureau.session = false ∧ (B.activateUtc = 0 → t.bureau.drainAt = some (recNow s) ∧ t.host.fetchStopped = true)
        ∧ (B.activateUtc ≠ 0 → t.bureau.drainAt = B.drainAt ∧ (B.utc.isSome = true → t.host.fetchStopped = s.host.fetchStopped)
            ∧ (B.utc = none → ∃ u, t = logEvent u (.fwActivationHeld 0 bank))))
    ∧ (B.recovery = false →
        (B.drainAt = none → (B.pendingBank = false ∨ B.utc.isSome = true ∨ utc = 0) → exec (.fwSchedule m utc) s = .next (reply { s with bureau :=
          { B with activateUtc := utc, pendingSent := false, fwHeld := false, fwWaitsPartner := false } } m 0 [] none))
        ∧ (B.drainAt.isSome = true → exec (.fwSchedule m utc) s = .next (no .noResources))
        ∧ (B.pendingBank = true → B.drainAt = none → exec (.fwCancel m) s = .next (reply { s with bureau :=
          { B with pendingBank := false, pendingSent := false, fwHeld := false, fwWaitsPartner := false, session := true } } m 0 [] none))
        ∧ ((B.pendingBank = false ∨ B.drainAt.isSome = true) → exec (.fwCancel m) s = .next (no .noResources))
        ∧ (s.host.bootOk = false → exec (.fwCommit m) s = .next (no .noResources))
        ∧ (s.host.bootOk = true → ∃ t, exec (.fwCommit m) s = .next t ∧ t.fuses.revoked = s.fuses.revoked ∧ t.store = s.store
            ∧ t.fuses.rollback = max s.fuses.rollback (min 64 B.runningSvn)))
    ∧ (awaitsTime s = true → B.pendingSent = false → at_ 10000000 = true → exec .fwPending s = .next
        (logEvent { s with bureau := { B with pendingSent := true } } (.fwPending B.activateUtc.toNat bank)))
    ∧ (awaitsTime s = false ∨ B.pendingSent = true ∨ at_ 10000000 = false → exec .fwPending s = .next s)
    ∧ (awaitsTime s = true → (B.activateUtc = 0 ∨ at_ 0 = true) →
        let waits := s.pair.enable = true ∧ s.pair.position = true ∧ B.activateUtc ≠ 0
        (¬ waits → exec .fwActivation s = .next (beginDrain s))
        ∧ (waits → s.pair.link = .down → exec .fwActivation s = .next (logEvent { s with bureau := { B with fwHeld := true } } (.fwActivationHeld 2 bank)))
        ∧ (waits → s.pair.link ≠ .down → exec .fwActivation s = .next { s with bureau := { B with fwWaitsPartner := true, fwWaitAt := recNow s } }))
    ∧ (B.pendingBank = true → B.fwWaitsPartner = true → (partnerDone s = true → exec .fwPairActivation s = .next (beginDrain s))
        ∧ (partnerDone s = false → exec .fwPairActivation s = .next s)
        ∧ (s.pair.link ≠ .up → 10000000 ≤ since B.fwWaitAt (recNow s) → exec .fwActivationHeld s = .next
            (logEvent { s with bureau := { B with fwHeld := true, fwWaitsPartner := false } } (.fwActivationHeld 1 bank)))
        ∧ (s.pair.link = .up → exec .fwActivationHeld s = .next s))
    ∧ (B.drainAt = none → exec .drainEnd s = .next s)
    ∧ (B.drainAt = some start → B.activating = false → drained s = true → B.bootFails < 3 → bankCause s (!B.activeB) = none → ∃ t, exec .drainEnd s = .next t ∧
        t.bureau.activeB = !B.activeB ∧ t.bureau.activating = true ∧ t.bureau.booting = true ∧ t.bureau.pendingBank = false ∧ t.host.bootOk = false
        ∧ t.power.warmCause = some 2 ∧ t.power.releaseStep = 8 ∧ t.store.slots = [] ∧ t.fuses = s.fuses)
    ∧ ((B.booting = false ∨ s.power.releaseStep ≠ 17) → exec .bootOk s = .next s)
    ∧ (B.booting = true → s.power.releaseStep = 17 → s.host.failed = false → s.power.held = [] → s.power.finishing = [] → ∃ t, exec .bootOk s = .next t ∧
        t.host.bootOk = true ∧ t.host.fetchStopped = false ∧ t.host.inWarmReset = false ∧ t.power.resetting = none ∧ t.bureau.booting = false
        ∧ t.bureau.bootFails = 0 ∧ t.bureau.activating = false ∧ t.bureau.recoveryBit = false ∧ t.store = s.store ∧ t.gen = s.gen)
    ∧ ((B.booting = false ∨ since B.bootAt (recNow s) < 30000000) → exec .bootTimeout s = .next s)
    ∧ (B.booting = true → 30000000 ≤ since B.bootAt (recNow s) →
        (3 ≤ B.bootFails + 1 → ∃ t, exec .bootTimeout s = .next t ∧ t.bureau.recovery = true ∧ t.bureau.bootFails = B.bootFails + 1 ∧ t.power.releaseStep = 0
          ∧ (∀ d ∈ t.power.domains, d = 0 ∨ d = 1 ∨ d = 5 ∨ d = 28) ∧ (B.activating = true → t.bureau.activeB = !B.activeB))
        ∧ (B.bootFails + 1 < 3 → B.activating = true → bankCause s (!B.activeB) = none → ∃ t, exec .bootTimeout s = .next t ∧ t.bureau.activeB = !B.activeB
          ∧ t.bureau.booting = true ∧ t.bureau.activating = false ∧ t.bureau.bootFails = B.bootFails + 1 ∧ t.bureau.recovery = false))
    ∧ (B.recovery = false → ∀ o ∈ [Instr.recoveryWrite m n data, .recoveryStatus m, .recoveryBoot m svn slot verdict], exec o s = .next (no .badDescriptor))
    ∧ (B.recovery = true →
        (data.length ≤ 4096 → n + data.length ≤ 33554432 → exec (.recoveryWrite m n data) s = .next (reply { s with bureau :=
          { B with recoveryImage := mins B.recoveryImage n data, banks := mins B.banks 0 {} } } m 0 [] none))
        ∧ (4096 < data.length → exec (.recoveryWrite m n data) s = .next (no .badDescriptor))
        ∧ (∃ t, exec (.recoveryStatus false) s = .next t ∧ t.bureau.mbStatus = 0 ∧ t.bureau.mbOutLen = 4 ∧ t.bureau.recovery = true)
        ∧ (imageCause s svn slot verdict = some (comp, cause) → exec (.recoveryBoot m svn slot verdict) s = .next
            (reply (logEvent s (.fwVerifyFailed 0 comp cause)) m (BitVec.ofNat 8 Status.noResources.code) [] none))
        ∧ (imageCause s svn slot verdict = none → ∃ t, exec (.recoveryBoot m svn slot verdict) s = .next t ∧ t.bureau.recovery = false ∧ t.bureau.booting = true
            ∧ t.bureau.activeB = false ∧ t.bureau.runningSvn = svn ∧ t.bureau.keySlot = slot ∧ t.fuses = s.fuses ∧ t.power.resetting = some .powerOn
            ∧ t.power.domains = [0, 1, 5, 28] ∧ t.store.slots = [] ∧ t.pair.journalGen = s.pair.journalGen))

/-- R389, R439, R442 to R450, R453 to R456, R458, R459: power comes up domain by domain, dies are released in order; excursions, losses and trips; resets.
Where the manual leaves an outcome open, the clause is the choice of the model: log entries 85, 86, 92, 93, 94, 95, 162. -/
def Obligations.PowerReleaseAndResets : Prop :=
  ∀ (s : State) (mv ms cap us : Nat) (ok emerg : Bool) (seed : BitVec 64) (r : ReleaseInfo) (cause : TripCause) (d : DieId) (k : BitVec 3),
    let P := s.power
    let cold := fun (t : State) => t.store.slots = [] ∧ t.tier.lmem = [] ∧ t.host.requests = [] ∧ t.host.qps = [] ∧ t.gen.parts = [] ∧ t.engines.merges = []
      ∧ t.limits = {} ∧ t.flash.map = [] ∧ t.flash.ring = [] ∧ t.fabric.released = [] ∧ t.pair.link = .down ∧ t.pair.enable = false ∧ t.fuses = s.fuses
      ∧ t.pending = s.pending
    let started := fun (t : State) => cold t ∧ t.power.powerGood = true ∧ t.power.converter = true ∧ t.power.domains = [0, 5] ∧ t.power.armed = false
      ∧ t.power.resetting = some .powerOn ∧ t.power.bureauHeld = false ∧ t.pair.journalGen = seed
    let off := fun (t : State) (trip : Bool) => cold t ∧ t.power.powerGood = false ∧ t.power.domains = [] ∧ t.power.tripped = trip ∧ t.power.lost = true
    (P.powerGood = false → P.tripped = false → P.emergN = true → 48000 ≤ mv → ∃ y, exec (.powerOn mv seed) s = .next y ∧ started y)
    ∧ ((P.powerGood = true ∨ P.tripped = true ∨ mv < 48000) → exec (.powerOn mv seed) s = .next s)
    ∧ (P.powerGood = true → P.bureauHeld = false → s.bureau.recovery = false → ∀ n, domainOrder.find? (fun d => decide (d ∉ P.domains)) = some n →
        (allPowered { s with power := { P with domains := P.domains ++ [n] } } = false → exec .domainPowerUp s = .next
          { s with power := { P with domains := P.domains ++ [n] } })
        ∧ (allPowered { s with power := { P with domains := P.domains ++ [n] } } = true → s.bureau.booting = false → s.bureau.bootFails < 3 →
            bankCause s s.bureau.activeB = none → P.perstN = true → s.host.failed = false → P.releaseStep = 0 → P.resetting = some .powerOn →
            ∃ t, exec .domainPowerUp s = .next t ∧ t.bureau.booting = true ∧ t.power.releaseStep = 8 ∧ 0x3C ∈ t.fabric.released ∧ t.power.domains = P.domains ++ [n]))
    ∧ (allPowered s = true → exec .domainPowerUp s = .next s)
    ∧ (P.powerGood = true → P.bureauHeld = false → exec .pinConfigure s = .next { s with power := { P with pins := true } })
    ∧ (P.powerGood = false → exec .pinConfigure s = .next s)
    ∧ (chainEnds s P.releaseStep = false → exec (.releaseChainStep r) s = .next s)
    ∧ (P.releaseStep = 8 → badIdentities r 8 = [] → ∃ t, exec (.releaseChainStep r) s = .next t ∧ t.power.configReady = true ∧ t.power.releaseStep = 9
        ∧ (∀ x ∈ [0x34, 0x35, 0x36, 0x37], x ∈ t.fabric.released) ∧ t.store = s.store)
    ∧ (P.releaseStep = 9 → badIdentities r 9 = [] → ∃ t, exec (.releaseChainStep r) s = .next t ∧ t.power.releaseStep = 10
        ∧ t.store = { s.store with zeroFilling := (List.range 8).map (BitVec.ofNat 3) } ∧ ∀ x ∈ chainDies 10, x ∈ t.fabric.released)
    ∧ (chainEnds s P.releaseStep = true → badIdentities r P.releaseStep ≠ [] → ∃ t, exec (.releaseChainStep r) s = .next t ∧ t.host.failed = true
        ∧ t.power.releaseStep = 0 ∧ t.fabric = s.fabric)
    ∧ (P.powerGood = true → 46000 ≤ mv → mv < 50000 → exec (.inputLow mv ms) s = .next (logEvent { s with power := { P with j1 := mv } } (.inputLow mv ms)))
    ∧ (50000 ≤ mv → exec (.inputLow mv ms) s = .next s)
    ∧ (P.powerGood = true → 63000 < mv → mv ≤ 66000 → exec (.inputHigh mv ms) s = .next (logEvent { s with power := { P with j1 := mv } } (.inputHigh mv ms)))
    ∧ (mv ≤ 63000 → exec (.inputHigh mv ms) s = .next s)
    ∧ (P.powerGood = true → 66000 < mv → exec (.overvoltageStop mv) s = .next { s with power := { P with j1 := mv, converter := false } })
    ∧ (mv ≤ 66000 → exec (.overvoltageStop mv) s = .next s)
    ∧ (P.powerGood = true → (mv < 46000 ∨ P.converter = false) → ∃ t, exec (.powerLoss mv ok us) s = .next t ∧ off t false ∧ t.power.j1 = mv
        ∧ (P.armed = false → s.gen.indexes = [] → t.flash.journal = s.flash.journal)
        ∧ (P.armed = true → s.gen.indexes = [] → s.flash.rebuilding = false → s.flash.programs = [] → t.flash.journal = s.flash.journal ++ s.flash.ring
            ∧ t.flash.flushMark.isSome = ok))
    ∧ (46000 ≤ mv → P.converter = true → exec (.powerLoss mv ok us) s = .next s)
    ∧ (P.powerGood = true → (8200 ≤ cap → exec (.holdupArmed cap ms) s = .next { s with power := { P with armed := true } })
        ∧ (cap < 8200 → exec (.holdupArmed cap ms) s = .next (logEvent { s with power := { P with armed := true } } (.holdupDegraded cap ms))))
    ∧ (P.lost = true → P.tripped = false → ∃ t, exec (.inputReturn seed) s = .next t ∧ started t ∧ t.power.j1 = max 50000 P.j1)
    ∧ ((P.lost = false ∨ P.tripped = true) → exec (.inputReturn seed) s = .next s)
    ∧ (P.powerGood = true → cause.holds = true → ∃ t, exec (.firmwareTrip cause ok us) s = .next t ∧ off t true ∧ (cause = .flow → t.power.flowOk = false))
    ∧ (cause.holds = false → exec (.firmwareTrip cause ok us) s = .next s)
    ∧ (P.powerGood = true → ∃ t, exec (.hardwareTrip d) s = .next t ∧ off t true ∧ t.bureau.lastArea = s.bureau.lastArea
        ∧ (s.gen.indexes = [] → t.flash.journal = s.flash.journal ∧ t.flash.flushMark = none))
    ∧ (P.powerGood = true → ∃ t, exec (.emergencyOff mv ok us) s = .next t ∧ off t true ∧ t.power.emergN = false ∧ t.power.j1 = mv)
    ∧ (P.powerGood = false → 48000 ≤ mv → ∃ t, exec (.powerRestart mv true seed) s = .next t ∧ started t ∧ t.power.j1 = mv ∧ t.power.emergN = true)
    ∧ (P.powerGood = false → 48000 ≤ mv → exec (.powerRestart mv false seed) s = .next { s with power := { P with emergN := false } })
    ∧ (mv < 48000 → exec (.powerRestart mv emerg seed) s = .next s)
    ∧ (P.perstN = true → ∃ t, exec (.hostPerstNAssert seed) s = .next t ∧ cold t ∧ t.power.perstN = false ∧ t.power.bureauHeld = true ∧ t.power.armed = P.armed
        ∧ t.power.powerGood = P.powerGood ∧ t.power.domains = (if P.powerGood then [0, 5] else []) ∧ t.pair.journalGen = seed)
    ∧ (P.perstN = false → exec (.hostPerstNAssert seed) s = .next s)
    ∧ (P.bureauHeld = true → P.powerGood = true → exec .bureauPerstRelease s = .next
        { s with bureau := { s.bureau with bootAt := recNow s }, power := { P with bureauHeld := false } })
    ∧ (P.bureauHeld = false → exec .bureauPerstRelease s = .next s)
    ∧ (P.perstN = false → ∃ t, exec .hostPerstNDeassert s = .next t ∧ t.power.perstN = true ∧ t.store = s.store
        ∧ (s.bureau.recovery = true → t.fabric.released = withLast 0x3C s.fabric.released)
        ∧ (s.bureau.recovery = false → s.bureau.booting = true → P.bureauHeld = false → s.host.failed = false → P.releaseStep = 0 → P.resetting ≠ none →
            allPowered s = true → t.power.releaseStep = 8 ∧ 0x3C ∈ t.fabric.released ∧ 0x3D ∈ t.fabric.released))
    ∧ (P.perstN = true → exec .hostPerstNDeassert s = .next s)
    ∧ ((P.powerGood = false ∨ s.bureau.recovery = true ∨ P.resetting = some .powerOn ∨ P.resetting = some .perst) → exec (.warmReset k) s = .next s)
    ∧ (P.powerGood = true → s.bureau.recovery = false → P.resetting ≠ some .powerOn → P.resetting ≠ some .perst → ∃ t, exec (.warmReset k) s = .next t ∧
        t.store.slots = [] ∧ t.limits = {} ∧ t.bureau.sources = [] ∧ t.bureau.secureXor = [] ∧ t.host.bootOk = false ∧ t.host.fetchStopped = true
        ∧ t.fuses = s.fuses ∧ t.power.warmCause = some k.toNat ∧ t.pair.link = .down
        ∧ (s.bureau.bootFails < 3 → bankCause s s.bureau.activeB = none → t.bureau.booting = true ∧ t.power.resetting = some .warm ∧ t.power.releaseStep = 8
            ∧ t.fabric.released = [0x3C, 0x3D]))
    ∧ (P.releaseStep = 11 → P.resetting ≠ some .warm → P.memoryActive = true → badIdentities r 11 = [] → ∃ t, exec (.releaseChainStep r) s = .next t
        ∧ t.power.releaseStep = 14 ∧ (∀ x ∈ r.params, x.2.accepted = false → x.1 / 16 ∈ t.flash.failedChans)
        ∧ (∀ c ∈ t.flash.failedChans, c ∈ s.flash.failedChans ∨ ∃ x ∈ failures r, x.1 = c) ∧ t.store = s.store)

/-- R279, R281, R437, R455, R462, R463, R467 to R474: register writes and reads, queue pairs enabled and disabled, the window, pairing, counters. R9,
R415: the interrupt controller's registers take writes of the Bureau's cores, an edge that comes in the cycle of a clear stays (their offsets and the
edges' place in the value are the model's choice, log entry 139). Where the manual leaves an outcome open, the clause is the choice of the model: log
entries 110, 111, 112, 113, 114, 115, 133, 139. -/
def Obligations.RegistersTakeWritesAndAnswerReads : Prop :=
  ∀ (s : State) (fn : Tenant) (q : BitVec 3) (o size n : Nat) (x : BitVec 64) (v c : Word) (line : DoorbellLine) (g : BitVec 8),
    let p := qpOf s fn q
    let base := if fn = 0 then 0x10000 else 0
    let at_ := base + 0x40 * q.toNat
    let rest := fun (t : State) => ∀ f k, (f, k) ≠ (fn, q) → qpOf t f k = qpOf s f k
    let ready := barReady s = true ∧ s.bureau.recovery = false
    (barReady s = false → (o < icBase → exec (.registerWrite fn o size x) s = .next s) ∧ exec (.counterLowRead fn o size) s = .next s ∧ exec (.qpEnable fn q c line []) s = .next s
      ∧ exec (.qpDisable fn q) s = .next s ∧ exec (.windowResize v) s = .next s ∧ exec (.windowTenantSet g v) s = .next s ∧ exec (.pairEnable v) s = .next s
      ∧ exec (.pairDisable v) s = .next s ∧ exec (.cntClear v) s = .next s)
    ∧ (ready →
        (((size ≠ 4 ∧ size ≠ 8) ∨ o % size ≠ 0) → (o < icBase → exec (.registerWrite fn o size x) s = .next (badAccess s fn o))
          ∧ exec (.counterLowRead fn o size) s = .next (emit (badAccess s fn o) (.regRead fn o 0)))
        ∧ (p.state = .disabled →
            exec (.registerWrite fn at_ 8 x) s = .next (setQp s fn q fun p => { p with sqBase := BitVec.ofNat 64 (x.toNat / 4096 * 4096) })
            ∧ exec (.registerWrite fn (at_ + 8) 8 x) s = .next (setQp s fn q fun p => { p with cqBase := BitVec.ofNat 64 (x.toNat / 4096 * 4096) })
            ∧ exec (.registerWrite fn (at_ + 0x10) 8 x) s = .next (setQp s fn q fun p => { p with dbAddr := BitVec.ofNat 64 (x.toNat / 64 * 64) }))
        ∧ (p.state ≠ .disabled → exec (.registerWrite fn at_ 8 x) s = .next (countTenant s fn 6 1))
        ∧ (x.toNat < 2 ^ 32 → (100 ≤ x.toNat → x.toNat ≤ 60000 → exec (.registerWrite 0 0x40008 4 x) s = .next
              { s with tier := { s.tier with wbInterval := w32 x.toNat } })
            ∧ ((x.toNat < 100 ∨ 60000 < x.toNat) → exec (.registerWrite 0 0x40008 4 x) s = .next
              { s with tier := { s.tier with cfgErr := cfgError s.tier.cfgErr 1 0x40008 } }))
        ∧ (p.state = .disabled →
            (∀ e, enableError s { p with pasidEn := bit c.toNat 30, pasid := BitVec.ofNat 20 (bits c.toNat 23 4), vector := BitVec.ofNat 4 c.toNat } = some e →
              ∃ t, exec (.qpEnable fn q c line []) s = .next t ∧ qpOf t fn q =
                { p with pasidEn := bit c.toNat 30, pasid := BitVec.ofNat 20 (bits c.toNat 23 4), vector := BitVec.ofNat 4 c.toNat, errCode := e } ∧ rest t ∧ t.store = s.store)
            ∧ (s.host.cacheEn = true → dataReady s = true → badSetup p = false → doorbellLines s < 4096 → line.translates = true → line.cqHead = 0 →
                line.sqTail = 0 → lineError { p with sqTail := 0, cqTail := 0, cqHead := 0, sqHead := 0 } line = none → ∃ t, exec (.qpEnable fn q c line []) s = .next t ∧
                (qpOf t fn q).enable = true ∧ (qpOf t fn q).state = .enabled ∧ (qpOf t fn q).pinned = true ∧ (qpOf t fn q).sqHead = 0 ∧ (qpOf t fn q).cqTail = 0
                ∧ (qpOf t fn q).errCode = 0 ∧ (qpOf t fn q).fetched = [] ∧ rest t ∧ .sharedRead fn p.dbAddr ∈ t.host.out ∧ t.store = s.store))
        ∧ (p.state = .error → exec (.qpEnable fn q c line []) s = .next (countTenant s fn 6 1))
        ∧ (p.state = .enabled → (∀ y ∈ s.host.requests, y.2.fn = fn → y.2.qp ≠ q) → p.waiting = [] → ∃ t, exec (.qpDisable fn q) s = .next t ∧
            (qpOf t fn q).state = .disabling ∧ (qpOf t fn q).enable = false ∧ (qpOf t fn q).fetched = [] ∧ (qpOf t fn q).pinned = p.pinned ∧ rest t
            ∧ t.host.requests = s.host.requests)
        ∧ ((p.state = .disabled ∨ p.state = .disabling) → exec (.qpDisable fn q) s = .next s)
        ∧ (let w := bits v.toNat 8 0
           (256 < w → exec (.windowResize v) s = .next (refuseAt s 1 0x4000C))
           ∧ (w ≤ 256 → anyLoaded s = true → exec (.windowResize v) s = .next (refuseAt s 2 0x4000C))
           ∧ (w ≤ 256 → anyLoaded s = false → exec (.windowResize v) s = .next { s with tier := { s.tier with windowPending := some (BitVec.ofNat 9 w) } }))
        ∧ (s.tier.windowSize.toNat ≤ g.toNat → exec (.windowTenantSet g v) s = .next (refuseAt s 2 (0x40100 + 4 * g.toNat)))
        ∧ (g.toNat < s.tier.windowSize.toNat → ∃ t, exec (.windowTenantSet g v) s = .next t ∧ mget 0 t.tier.windowTenant g.toNat = BitVec.ofNat 9 v.toNat
            ∧ (∀ i < 512, ∀ e, entryOf s (512 * g.toNat + i) = some e → (entryOf t (512 * g.toNat + i)).map (·.tenant) = some (BitVec.ofNat 9 v.toNat))
            ∧ t.store = s.store)
        ∧ (s.pair.enable = false → exec (.pairEnable v) s = .next { s with pair :=
            { s.pair with position := bit v.toNat 2, failback := bit v.toNat 1, enable := true, linesPinned := true, preferUsed := s.pair.prefer, failbackUsed := bit v.toNat 1, triedAt := now s - 100000 } })
        ∧ (s.pair.enable = true → bit v.toNat 2 ≠ s.pair.position → exec (.pairDisable v) s = .next (refuseAt s 2 0x60008))
        ∧ (s.pair.enable = true → bit v.toNat 2 = s.pair.position → s.pair.link = .up → (∀ e ∈ s.pair.journal, e.handle = none) → s.pair.forwards = [] →
            s.pair.waitMut = [] → ∃ t, exec (.pairDisable v) s = .next t ∧ t.pair.enable = false ∧ t.pair.link = .down ∧ (∀ n, (leaseOf t n).mine = false)
              ∧ ({ type := 0x62 }, .none) ∈ t.pair.sent)
        ∧ exec (.cntClear 2) s = .next { s with store := { s.store with corrected := [] } }
        ∧ exec (.cntClear 5) s = .next { s with shelfSkips := [], shelfCuts := [] }
        ∧ exec (.cntClear 7) s = .next { s with host := { s.host with cntTenant := [] } }
        ∧ (n < 512 → let off := 0x81000 + 8 * n
            let a := min (mget 0 s.store.corrected n) (2 ^ 64 - 1)
            exec (.counterLowRead 0 off 8) s = .next (emit s (.regRead 0 off (BitVec.ofNat 64 a)))
            ∧ exec (.counterLowRead 0 off 4) s = .next (emit { s with host := { s.host with latched := mins s.host.latched off (w32 (a / 2 ^ 32)) } }
                (.regRead 0 off (BitVec.ofNat 64 (a % 2 ^ 32))))
            ∧ (∀ h, mfind s.host.latched off = some h → exec (.counterLowRead 0 (off + 4) 4) s = .next
                (emit { s with host := { s.host with latched := mdel s.host.latched off } } (.regRead 0 (off + 4) (BitVec.ofNat 64 h.toNat))))))
    ∧ (n < 256 → x.toNat < 2 ^ 32 → ∃ t, exec (.registerWrite fn (icBase + 4 * n) 4 x) s = .next t ∧ t.store = s.store ∧ (∀ m, m ≠ n → icOf t m = icOf s m)
        ∧ (icOf t n).merged = BitVec.ofNat 8 (bits x.toNat 31 24) ∧ (icOf t n).filter = BitVec.ofNat 8 (bits x.toNat 23 16)
        ∧ (icOf t n).targets = BitVec.ofNat 4 (bits x.toNat 11 8) ∧ (icOf t n).level = bit x.toNat 7 ∧ (icOf t n).priority = BitVec.ofNat 4 x.toNat
        ∧ (icOf t n).line = (icOf s n).line ∧ (icOf t n).active = (icOf s n).active)
    ∧ (n < 4 → x.toNat < 2 ^ 32 → exec (.registerWrite fn (icBase + 0x400 + 4 * n) 4 x) s = .next
        { s with bureau := { s.bureau with threshold := mput 0 s.bureau.threshold n (BitVec.ofNat 4 x.toNat) } })
    ∧ (n < 8 → exec (.registerWrite fn (icBase + 0x440 + 4 * n) 4 0) s = .next { s with bureau := { s.bureau with overrun := mput 0 s.bureau.overrun n 0 } })
    ∧ (n < 256 → (icOf s n).level = false → let k := n / 32; let m := 2 ^ (n % 32)
        (∃ t, exec (.registerWrite fn (icBase + 0x420 + 4 * k) 4 (BitVec.ofNat 64 m)) s = .next t ∧
          (mget 0 t.bureau.edge k).getLsbD (n % 32) = false ∧ t.bureau.overrun = s.bureau.overrun ∧ (∀ j, j ≠ n → icOf t j = icOf s j)
          ∧ ((icOf s n).active = false → (icOf t n).pending = false ∧ (icOf t n).assigned = none)
          ∧ ((icOf s n).active = true → (icOf t n).edgeWaits = false))
        ∧ (((mget 0 s.bureau.edge k).getLsbD (n % 32) = true ∨ ((icOf s n).pending = false ∧ (icOf s n).edgeWaits = false)) →
            ∃ t, exec (.registerWrite fn (icBase + 0x420 + 4 * k) 8 (BitVec.ofNat 64 (m + 2 ^ 32 * m))) s = .next t ∧
              (mget 0 t.bureau.edge k).getLsbD (n % 32) = true ∧ (mget 0 t.bureau.overrun k).toNat = min 255 ((mget 0 s.bureau.overrun k).toNat + 1)
              ∧ (∀ j, j ≠ n → icOf t j = icOf s j)))
    ∧ (p.state = .disabling → (∀ y ∈ s.host.requests, y.2.fn = fn → y.2.qp ≠ q) → exec (.qpDisableDone fn q) s = .next
        (setQp s fn q fun p => { p with state := .disabled, pinned := false, rereads := 0 }))
    ∧ (p.state ≠ .disabling → exec (.qpDisableDone fn q) s = .next s)
    ∧ (s.tier.windowPending = none → exec .windowResizeDone s = .next s)
    ∧ (s.tier.windowPending = some 0 → s.tier.windowSize = 0 → windowFits s 0 = true → exec .windowResizeDone s = .next
        { s with tier := { s.tier with windowSize := 0, windowPending := none } })
    ∧ (∀ w, s.tier.windowPending = some w → windowFits s w.toNat = true → ∃ t, exec .windowResizeDone s = .next t ∧ t.tier.windowSize = w ∧ t.tier.windowPending = none
        ∧ t.store = s.store ∧ t.gen = s.gen)

/-- The queue is first in, first out: a step takes the command at its front and executes it with the queue's rest; on an empty queue 1 µs passes, which is
the model's choice (assumption log, entry 2). -/
def Obligations.StepTakesTheFrontCommand : Prop :=
  ∀ (s : State) (c : Instr) (l : List Instr),
    step { s with pending := c :: l } = exec c { s with pending := l }
    ∧ (step { s with pending := [] } = .next (passTime { s with pending := [] })
      ∧ (s.power.powerGood = false → step { s with pending := [] } = .next { s with pending := [] }))

/-- What the register tables and the rules state for reset: limits, registers of chapter 20, interrupt sources, link state, empty queues. -/
def Obligations.ResetHoldsTheStatedValues : Prop :=
  let s := State.reset
  (s.limits.tThrottle = 95 ∧ s.limits.powerCap = 1800 ∧ s.limits.wlSpread = 200 ∧ ∀ d, rateTargetOf s d = 1500)
    ∧ (∀ fn q, let p := qpOf s fn q
        p.sqBase = 0 ∧ p.cqBase = 0 ∧ p.dbAddr = 0 ∧ p.enable = false ∧ p.sqLog2 = 6 ∧ p.cqLog2 = 6 ∧ p.state = .disabled ∧ p.errCode = 0 ∧ p.sqHead = 0
        ∧ p.cqTail = 0)
    ∧ (∀ n, (icOf s n).filter = 8 ∧ (icOf s n).targets = 0 ∧ (icOf s n).priority = 0 ∧ (icOf s n).pending = false ∧ (icOf s n).active = false)
    ∧ (s.pair.link = .down ∧ s.pair.enable = false ∧ s.pair.journalGib = 8 ∧ s.pair.mirrorTimeout = 10 ∧ s.pair.leaseBase = 0)
    ∧ (∀ p, (partOf s p).state = .empty ∧ (partOf s p).refresh = 10 ∧ (partOf s p).watchdog = 1000 ∧ (partOf s p).stepLimit = 0)
    ∧ (∀ n, (tenOf s n).weight = 1 ∧ (tenOf s n).maxSlots = 0 ∧ (tenOf s n).serve = if n = 0 then 1 else 0)
    ∧ (∀ x, entryOf s x = none) ∧ (s.host.bootOk = false ∧ s.host.requests = [] ∧ s.pending = [] ∧ s.power.powerGood = false)

/-- The fuses of a module as made, and the three memories, are sound and in canonical form at reset (R431). -/
def Obligations.ResetIsSound : Prop := FuseState.sound State.reset.fuses ∧ Memory.wf State.reset ∧ State.reset.pending = []

/-- R431: whatever command runs, the counter stays within 64 fuses and some key slot stays unrevoked. -/
def Obligations.EveryStepKeepsTheFusesSound : Prop :=
  ∀ s t : State, FuseState.sound s.fuses → step s = .next t → FuseState.sound t.fuses ∧ FuseState.leadsTo s.fuses t.fuses

/-- R431: only FW_COMMIT raises the counter, to the SVN of the running image once it has reported BOOT_OK; an image above 64 is refused; a slot is revoked
by a record of a bank image signed under another unrevoked slot, and never the last one. Where the manual leaves an outcome open, the clause is the
choice of the model: log entries 104, 105, 108. -/
def Obligations.OnlyACommitRaisesTheCounter : Prop :=
  ∀ (c : Instr) (s t : State), exec c s = .next t →
    (t.fuses.rollback ≠ s.fuses.rollback → (∃ m, c = .fwCommit m) ∧ s.host.bootOk = true ∧ s.fuses.rollback < t.fuses.rollback
      ∧ t.fuses.rollback = min 64 s.bureau.runningSvn)
    ∧ ((∃ m, c = .fwCommit m) → s.host.bootOk = true → s.bureau.recovery = false → s.fuses.rollback < s.bureau.runningSvn → s.bureau.runningSvn ≤ 64 →
        t.fuses.rollback = s.bureau.runningSvn)
    ∧ (∀ o : ComponentOffer, c = .pldmUpdateComponent o → 64 < o.svn → t.bureau = s.bureau)
    ∧ (∀ n, 64 < n → ∀ k v, imageCause s n k v ≠ none)
    ∧ (t.fuses.revoked ≠ s.fuses.revoked → ∃ k d v slot signer, c = .fwDataChunk k d v (some (slot, signer)) ∧ slot ≠ signer
        ∧ s.fuses.revoked.getLsbD slot.toNat = false ∧ s.fuses.revoked.getLsbD signer.toNat = false
        ∧ t.fuses.revoked = s.fuses.revoked ||| BitVec.ofNat 4 (2 ^ slot.toNat))
    ∧ (s.fuses.revoked ≠ 15 → t.fuses.revoked ≠ 15)

/-- R10: every command completes from every state, but a matrix, convolution or selection command outside the limits of R97, R103 or R141, of which the
manual states no effect. Where the manual leaves an outcome open, the clause is the choice of the model: log entries 6, 7. -/
def Obligations.EveryCommandCompletesWithinItsLimits : Prop :=
  ∀ (c : Instr) (s : State), (withinLimits s c → Completes (exec c s))
    ∧ (¬ withinLimits s c → ∃ n, (n = 97 ∨ n = 103 ∨ n = 141) ∧ exec c s = .fault (.undefinedOperation n))

/-- A command changes only the parts of the state that it has to do with; the queue of waiting commands it never changes. -/
def Obligations.CommandsChangeOnlyTheirParts : Prop :=
  ∀ (c : Instr) (s t : State), exec c s = .next t → ∀ p, p ∉ touches c → Part.same s t p

/-- The canonical form of the three addressed memories (slots of the central store, tiles of tier L, flash blocks) is kept by every step. -/
def Obligations.EveryStepKeepsMemoryCanonical : Prop :=
  ∀ s t : State, Memory.wf s → step s = .next t → Memory.wf t
end

