-- ==== Sys2Proof/Laws/Frame.lean ====
section
/-! SUPPORT. A part of the state through a choice and through a fold: what no branch and no element changes is unchanged. -/

namespace Sys2Proof.Machine

@[simp] theorem fst_ite {α β : Type} (c : Prop) [Decidable c] (a b : α × β) : (if c then a else b).1 = if c then a.1 else b.1 := by split <;> rfl
@[simp] theorem snd_ite {α β : Type} (c : Prop) [Decidable c] (a b : α × β) : (if c then a else b).2 = if c then a.2 else b.2 := by split <;> rfl
@[simp] theorem State.ite_fabric (c : Prop) [Decidable c] (a b : State) : (if c then a else b).fabric = if c then a.fabric else b.fabric := by split <;> rfl
@[simp] theorem State.foldl_fabric {α : Type} {f : State → α → State} (h : ∀ s a, (f s a).fabric = s.fabric) (l : List α) (s : State) :
    (l.foldl f s).fabric = s.fabric := by
  induction l generalizing s with
  | nil => rfl
  | cons a l ih => simp [ih, h]
@[simp] theorem State.foldl_fst_fabric {α β : Type} {f : State × β → α → State × β} (h : ∀ s a, (f s a).1.fabric = s.1.fabric) (l : List α)
    (s : State × β) : (l.foldl f s).1.fabric = s.1.fabric := by
  induction l generalizing s with
  | nil => rfl
  | cons a l ih => simp [ih, h]
@[simp] theorem State.foldl_snd_fabric {α β : Type} {f : β × State → α → β × State} (h : ∀ s a, (f s a).2.fabric = s.2.fabric) (l : List α)
    (s : β × State) : (l.foldl f s).2.fabric = s.2.fabric := by
  induction l generalizing s with
  | nil => rfl
  | cons a l ih => simp [ih, h]
@[simp] theorem State.foldr_fabric {α : Type} {f : α → State → State} (h : ∀ a s, (f a s).fabric = s.fabric) (l : List α) (s : State) :
    (l.foldr f s).fabric = s.fabric := by
  induction l generalizing s with
  | nil => rfl
  | cons a l ih => simp [ih, h]
@[simp] theorem State.ite_store (c : Prop) [Decidable c] (a b : State) : (if c then a else b).store = if c then a.store else b.store := by split <;> rfl
@[simp] theorem State.foldl_store {α : Type} {f : State → α → State} (h : ∀ s a, (f s a).store = s.store) (l : List α) (s : State) :
    (l.foldl f s).store = s.store := by
  induction l generalizing s with
  | nil => rfl
  | cons a l ih => simp [ih, h]
@[simp] theorem State.foldl_fst_store {α β : Type} {f : State × β → α → State × β} (h : ∀ s a, (f s a).1.store = s.1.store) (l : List α)
    (s : State × β) : (l.foldl f s).1.store = s.1.store := by
  induction l generalizing s with
  | nil => rfl
  | cons a l ih => simp [ih, h]
@[simp] theorem State.foldl_snd_store {α β : Type} {f : β × State → α → β × State} (h : ∀ s a, (f s a).2.store = s.2.store) (l : List α)
    (s : β × State) : (l.foldl f s).2.store = s.2.store := by
  induction l generalizing s with
  | nil => rfl
  | cons a l ih => simp [ih, h]
@[simp] theorem State.foldr_store {α : Type} {f : α → State → State} (h : ∀ a s, (f a s).store = s.store) (l : List α) (s : State) :
    (l.foldr f s).store = s.store := by
  induction l generalizing s with
  | nil => rfl
  | cons a l ih => simp [ih, h]
@[simp] theorem State.ite_tier (c : Prop) [Decidable c] (a b : State) : (if c then a else b).tier = if c then a.tier else b.tier := by split <;> rfl
@[simp] theorem State.foldl_tier {α : Type} {f : State → α → State} (h : ∀ s a, (f s a).tier = s.tier) (l : List α) (s : State) :
    (l.foldl f s).tier = s.tier := by
  induction l generalizing s with
  | nil => rfl
  | cons a l ih => simp [ih, h]
@[simp] theorem State.foldl_fst_tier {α β : Type} {f : State × β → α → State × β} (h : ∀ s a, (f s a).1.tier = s.1.tier) (l : List α)
    (s : State × β) : (l.foldl f s).1.tier = s.1.tier := by
  induction l generalizing s with
  | nil => rfl
  | cons a l ih => simp [ih, h]
@[simp] theorem State.foldl_snd_tier {α β : Type} {f : β × State → α → β × State} (h : ∀ s a, (f s a).2.tier = s.2.tier) (l : List α)
    (s : β × State) : (l.foldl f s).2.tier = s.2.tier := by
  induction l generalizing s with
  | nil => rfl
  | cons a l ih => simp [ih, h]
@[simp] theorem State.foldr_tier {α : Type} {f : α → State → State} (h : ∀ a s, (f a s).tier = s.tier) (l : List α) (s : State) :
    (l.foldr f s).tier = s.tier := by
  induction l generalizing s with
  | nil => rfl
  | cons a l ih => simp [ih, h]
@[simp] theorem State.ite_engines (c : Prop) [Decidable c] (a b : State) : (if c then a else b).engines = if c then a.engines else b.engines := by split <;> rfl
@[simp] theorem State.foldl_engines {α : Type} {f : State → α → State} (h : ∀ s a, (f s a).engines = s.engines) (l : List α) (s : State) :
    (l.foldl f s).engines = s.engines := by
  induction l generalizing s with
  | nil => rfl
  | cons a l ih => simp [ih, h]
@[simp] theorem State.foldl_fst_engines {α β : Type} {f : State × β → α → State × β} (h : ∀ s a, (f s a).1.engines = s.1.engines) (l : List α)
    (s : State × β) : (l.foldl f s).1.engines = s.1.engines := by
  induction l generalizing s with
  | nil => rfl
  | cons a l ih => simp [ih, h]
@[simp] theorem State.foldl_snd_engines {α β : Type} {f : β × State → α → β × State} (h : ∀ s a, (f s a).2.engines = s.2.engines) (l : List α)
    (s : β × State) : (l.foldl f s).2.engines = s.2.engines := by
  induction l generalizing s with
  | nil => rfl
  | cons a l ih => simp [ih, h]
@[simp] theorem State.foldr_engines {α : Type} {f : α → State → State} (h : ∀ a s, (f a s).engines = s.engines) (l : List α) (s : State) :
    (l.foldr f s).engines = s.engines := by
  induction l generalizing s with
  | nil => rfl
  | cons a l ih => simp [ih, h]
@[simp] theorem State.ite_host (c : Prop) [Decidable c] (a b : State) : (if c then a else b).host = if c then a.host else b.host := by split <;> rfl
@[simp] theorem State.foldl_host {α : Type} {f : State → α → State} (h : ∀ s a, (f s a).host = s.host) (l : List α) (s : State) :
    (l.foldl f s).host = s.host := by
  induction l generalizing s with
  | nil => rfl
  | cons a l ih => simp [ih, h]
@[simp] theorem State.foldl_fst_host {α β : Type} {f : State × β → α → State × β} (h : ∀ s a, (f s a).1.host = s.1.host) (l : List α)
    (s : State × β) : (l.foldl f s).1.host = s.1.host := by
  induction l generalizing s with
  | nil => rfl
  | cons a l ih => simp [ih, h]
@[simp] theorem State.foldl_snd_host {α β : Type} {f : β × State → α → β × State} (h : ∀ s a, (f s a).2.host = s.2.host) (l : List α)
    (s : β × State) : (l.foldl f s).2.host = s.2.host := by
  induction l generalizing s with
  | nil => rfl
  | cons a l ih => simp [ih, h]
@[simp] theorem State.foldr_host {α : Type} {f : α → State → State} (h : ∀ a s, (f a s).host = s.host) (l : List α) (s : State) :
    (l.foldr f s).host = s.host := by
  induction l generalizing s with
  | nil => rfl
  | cons a l ih => simp [ih, h]
@[simp] theorem State.ite_gen (c : Prop) [Decidable c] (a b : State) : (if c then a else b).gen = if c then a.gen else b.gen := by split <;> rfl
@[simp] theorem State.foldl_gen {α : Type} {f : State → α → State} (h : ∀ s a, (f s a).gen = s.gen) (l : List α) (s : State) :
    (l.foldl f s).gen = s.gen := by
  induction l generalizing s with
  | nil => rfl
  | cons a l ih => simp [ih, h]
@[simp] theorem State.foldl_fst_gen {α β : Type} {f : State × β → α → State × β} (h : ∀ s a, (f s a).1.gen = s.1.gen) (l : List α)
    (s : State × β) : (l.foldl f s).1.gen = s.1.gen := by
  induction l generalizing s with
  | nil => rfl
  | cons a l ih => simp [ih, h]
@[simp] theorem State.foldl_snd_gen {α β : Type} {f : β × State → α → β × State} (h : ∀ s a, (f s a).2.gen = s.2.gen) (l : List α)
    (s : β × State) : (l.foldl f s).2.gen = s.2.gen := by
  induction l generalizing s with
  | nil => rfl
  | cons a l ih => simp [ih, h]
@[simp] theorem State.foldr_gen {α : Type} {f : α → State → State} (h : ∀ a s, (f a s).gen = s.gen) (l : List α) (s : State) :
    (l.foldr f s).gen = s.gen := by
  induction l generalizing s with
  | nil => rfl
  | cons a l ih => simp [ih, h]
@[simp] theorem State.ite_text (c : Prop) [Decidable c] (a b : State) : (if c then a else b).text = if c then a.text else b.text := by split <;> rfl
@[simp] theorem State.foldl_text {α : Type} {f : State → α → State} (h : ∀ s a, (f s a).text = s.text) (l : List α) (s : State) :
    (l.foldl f s).text = s.text := by
  induction l generalizing s with
  | nil => rfl
  | cons a l ih => simp [ih, h]
@[simp] theorem State.foldl_fst_text {α β : Type} {f : State × β → α → State × β} (h : ∀ s a, (f s a).1.text = s.1.text) (l : List α)
    (s : State × β) : (l.foldl f s).1.text = s.1.text := by
  induction l generalizing s with
  | nil => rfl
  | cons a l ih => simp [ih, h]
@[simp] theorem State.foldl_snd_text {α β : Type} {f : β × State → α → β × State} (h : ∀ s a, (f s a).2.text = s.2.text) (l : List α)
    (s : β × State) : (l.foldl f s).2.text = s.2.text := by
  induction l generalizing s with
  | nil => rfl
  | cons a l ih => simp [ih, h]
@[simp] theorem State.foldr_text {α : Type} {f : α → State → State} (h : ∀ a s, (f a s).text = s.text) (l : List α) (s : State) :
    (l.foldr f s).text = s.text := by
  induction l generalizing s with
  | nil => rfl
  | cons a l ih => simp [ih, h]
@[simp] theorem State.ite_pair (c : Prop) [Decidable c] (a b : State) : (if c then a else b).pair = if c then a.pair else b.pair := by split <;> rfl
@[simp] theorem State.foldl_pair {α : Type} {f : State → α → State} (h : ∀ s a, (f s a).pair = s.pair) (l : List α) (s : State) :
    (l.foldl f s).pair = s.pair := by
  induction l generalizing s with
  | nil => rfl
  | cons a l ih => simp [ih, h]
@[simp] theorem State.foldl_fst_pair {α β : Type} {f : State × β → α → State × β} (h : ∀ s a, (f s a).1.pair = s.1.pair) (l : List α)
    (s : State × β) : (l.foldl f s).1.pair = s.1.pair := by
  induction l generalizing s with
  | nil => rfl
  | cons a l ih => simp [ih, h]
@[simp] theorem State.foldl_snd_pair {α β : Type} {f : β × State → α → β × State} (h : ∀ s a, (f s a).2.pair = s.2.pair) (l : List α)
    (s : β × State) : (l.foldl f s).2.pair = s.2.pair := by
  induction l generalizing s with
  | nil => rfl
  | cons a l ih => simp [ih, h]
@[simp] theorem State.foldr_pair {α : Type} {f : α → State → State} (h : ∀ a s, (f a s).pair = s.pair) (l : List α) (s : State) :
    (l.foldr f s).pair = s.pair := by
  induction l generalizing s with
  | nil => rfl
  | cons a l ih => simp [ih, h]
@[simp] theorem State.ite_flash (c : Prop) [Decidable c] (a b : State) : (if c then a else b).flash = if c then a.flash else b.flash := by split <;> rfl
@[simp] theorem State.foldl_flash {α : Type} {f : State → α → State} (h : ∀ s a, (f s a).flash = s.flash) (l : List α) (s : State) :
    (l.foldl f s).flash = s.flash := by
  induction l generalizing s with
  | nil => rfl
  | cons a l ih => simp [ih, h]
@[simp] theorem State.foldl_fst_flash {α β : Type} {f : State × β → α → State × β} (h : ∀ s a, (f s a).1.flash = s.1.flash) (l : List α)
    (s : State × β) : (l.foldl f s).1.flash = s.1.flash := by
  induction l generalizing s with
  | nil => rfl
  | cons a l ih => simp [ih, h]
@[simp] theorem State.foldl_snd_flash {α β : Type} {f : β × State → α → β × State} (h : ∀ s a, (f s a).2.flash = s.2.flash) (l : List α)
    (s : β × State) : (l.foldl f s).2.flash = s.2.flash := by
  induction l generalizing s with
  | nil => rfl
  | cons a l ih => simp [ih, h]
@[simp] theorem State.foldr_flash {α : Type} {f : α → State → State} (h : ∀ a s, (f a s).flash = s.flash) (l : List α) (s : State) :
    (l.foldr f s).flash = s.flash := by
  induction l generalizing s with
  | nil => rfl
  | cons a l ih => simp [ih, h]
@[simp] theorem State.ite_bureau (c : Prop) [Decidable c] (a b : State) : (if c then a else b).bureau = if c then a.bureau else b.bureau := by split <;> rfl
@[simp] theorem State.foldl_bureau {α : Type} {f : State → α → State} (h : ∀ s a, (f s a).bureau = s.bureau) (l : List α) (s : State) :
    (l.foldl f s).bureau = s.bureau := by
  induction l generalizing s with
  | nil => rfl
  | cons a l ih => simp [ih, h]
@[simp] theorem State.foldl_fst_bureau {α β : Type} {f : State × β → α → State × β} (h : ∀ s a, (f s a).1.bureau = s.1.bureau) (l : List α)
    (s : State × β) : (l.foldl f s).1.bureau = s.1.bureau := by
  induction l generalizing s with
  | nil => rfl
  | cons a l ih => simp [ih, h]
@[simp] theorem State.foldl_snd_bureau {α β : Type} {f : β × State → α → β × State} (h : ∀ s a, (f s a).2.bureau = s.2.bureau) (l : List α)
    (s : β × State) : (l.foldl f s).2.bureau = s.2.bureau := by
  induction l generalizing s with
  | nil => rfl
  | cons a l ih => simp [ih, h]
@[simp] theorem State.foldr_bureau {α : Type} {f : α → State → State} (h : ∀ a s, (f a s).bureau = s.bureau) (l : List α) (s : State) :
    (l.foldr f s).bureau = s.bureau := by
  induction l generalizing s with
  | nil => rfl
  | cons a l ih => simp [ih, h]
@[simp] theorem State.ite_power (c : Prop) [Decidable c] (a b : State) : (if c then a else b).power = if c then a.power else b.power := by split <;> rfl
@[simp] theorem State.foldl_power {α : Type} {f : State → α → State} (h : ∀ s a, (f s a).power = s.power) (l : List α) (s : State) :
    (l.foldl f s).power = s.power := by
  induction l generalizing s with
  | nil => rfl
  | cons a l ih => simp [ih, h]
@[simp] theorem State.foldl_fst_power {α β : Type} {f : State × β → α → State × β} (h : ∀ s a, (f s a).1.power = s.1.power) (l : List α)
    (s : State × β) : (l.foldl f s).1.power = s.1.power := by
  induction l generalizing s with
  | nil => rfl
  | cons a l ih => simp [ih, h]
@[simp] theorem State.foldl_snd_power {α β : Type} {f : β × State → α → β × State} (h : ∀ s a, (f s a).2.power = s.2.power) (l : List α)
    (s : β × State) : (l.foldl f s).2.power = s.2.power := by
  induction l generalizing s with
  | nil => rfl
  | cons a l ih => simp [ih, h]
@[simp] theorem State.foldr_power {α : Type} {f : α → State → State} (h : ∀ a s, (f a s).power = s.power) (l : List α) (s : State) :
    (l.foldr f s).power = s.power := by
  induction l generalizing s with
  | nil => rfl
  | cons a l ih => simp [ih, h]
@[simp] theorem State.ite_limits (c : Prop) [Decidable c] (a b : State) : (if c then a else b).limits = if c then a.limits else b.limits := by split <;> rfl
@[simp] theorem State.foldl_limits {α : Type} {f : State → α → State} (h : ∀ s a, (f s a).limits = s.limits) (l : List α) (s : State) :
    (l.foldl f s).limits = s.limits := by
  induction l generalizing s with
  | nil => rfl
  | cons a l ih => simp [ih, h]
@[simp] theorem State.foldl_fst_limits {α β : Type} {f : State × β → α → State × β} (h : ∀ s a, (f s a).1.limits = s.1.limits) (l : List α)
    (s : State × β) : (l.foldl f s).1.limits = s.1.limits := by
  induction l generalizing s with
  | nil => rfl
  | cons a l ih => simp [ih, h]
@[simp] theorem State.foldl_snd_limits {α β : Type} {f : β × State → α → β × State} (h : ∀ s a, (f s a).2.limits = s.2.limits) (l : List α)
    (s : β × State) : (l.foldl f s).2.limits = s.2.limits := by
  induction l generalizing s with
  | nil => rfl
  | cons a l ih => simp [ih, h]
@[simp] theorem State.foldr_limits {α : Type} {f : α → State → State} (h : ∀ a s, (f a s).limits = s.limits) (l : List α) (s : State) :
    (l.foldr f s).limits = s.limits := by
  induction l generalizing s with
  | nil => rfl
  | cons a l ih => simp [ih, h]
@[simp] theorem State.ite_fuses (c : Prop) [Decidable c] (a b : State) : (if c then a else b).fuses = if c then a.fuses else b.fuses := by split <;> rfl
@[simp] theorem State.foldl_fuses {α : Type} {f : State → α → State} (h : ∀ s a, (f s a).fuses = s.fuses) (l : List α) (s : State) :
    (l.foldl f s).fuses = s.fuses := by
  induction l generalizing s with
  | nil => rfl
  | cons a l ih => simp [ih, h]
@[simp] theorem State.foldl_fst_fuses {α β : Type} {f : State × β → α → State × β} (h : ∀ s a, (f s a).1.fuses = s.1.fuses) (l : List α)
    (s : State × β) : (l.foldl f s).1.fuses = s.1.fuses := by
  induction l generalizing s with
  | nil => rfl
  | cons a l ih => simp [ih, h]
@[simp] theorem State.foldl_snd_fuses {α β : Type} {f : β × State → α → β × State} (h : ∀ s a, (f s a).2.fuses = s.2.fuses) (l : List α)
    (s : β × State) : (l.foldl f s).2.fuses = s.2.fuses := by
  induction l generalizing s with
  | nil => rfl
  | cons a l ih => simp [ih, h]
@[simp] theorem State.foldr_fuses {α : Type} {f : α → State → State} (h : ∀ a s, (f a s).fuses = s.fuses) (l : List α) (s : State) :
    (l.foldr f s).fuses = s.fuses := by
  induction l generalizing s with
  | nil => rfl
  | cons a l ih => simp [ih, h]
@[simp] theorem State.ite_shelfSkips (c : Prop) [Decidable c] (a b : State) : (if c then a else b).shelfSkips = if c then a.shelfSkips else b.shelfSkips := by split <;> rfl
@[simp] theorem State.foldl_shelfSkips {α : Type} {f : State → α → State} (h : ∀ s a, (f s a).shelfSkips = s.shelfSkips) (l : List α) (s : State) :
    (l.foldl f s).shelfSkips = s.shelfSkips := by
  induction l generalizing s with
  | nil => rfl
  | cons a l ih => simp [ih, h]
@[simp] theorem State.foldl_fst_shelfSkips {α β : Type} {f : State × β → α → State × β} (h : ∀ s a, (f s a).1.shelfSkips = s.1.shelfSkips) (l : List α)
    (s : State × β) : (l.foldl f s).1.shelfSkips = s.1.shelfSkips := by
  induction l generalizing s with
  | nil => rfl
  | cons a l ih => simp [ih, h]
@[simp] theorem State.foldl_snd_shelfSkips {α β : Type} {f : β × State → α → β × State} (h : ∀ s a, (f s a).2.shelfSkips = s.2.shelfSkips) (l : List α)
    (s : β × State) : (l.foldl f s).2.shelfSkips = s.2.shelfSkips := by
  induction l generalizing s with
  | nil => rfl
  | cons a l ih => simp [ih, h]
@[simp] theorem State.foldr_shelfSkips {α : Type} {f : α → State → State} (h : ∀ a s, (f a s).shelfSkips = s.shelfSkips) (l : List α) (s : State) :
    (l.foldr f s).shelfSkips = s.shelfSkips := by
  induction l generalizing s with
  | nil => rfl
  | cons a l ih => simp [ih, h]
@[simp] theorem State.ite_shelfCuts (c : Prop) [Decidable c] (a b : State) : (if c then a else b).shelfCuts = if c then a.shelfCuts else b.shelfCuts := by split <;> rfl
@[simp] theorem State.foldl_shelfCuts {α : Type} {f : State → α → State} (h : ∀ s a, (f s a).shelfCuts = s.shelfCuts) (l : List α) (s : State) :
    (l.foldl f s).shelfCuts = s.shelfCuts := by
  induction l generalizing s with
  | nil => rfl
  | cons a l ih => simp [ih, h]
@[simp] theorem State.foldl_fst_shelfCuts {α β : Type} {f : State × β → α → State × β} (h : ∀ s a, (f s a).1.shelfCuts = s.1.shelfCuts) (l : List α)
    (s : State × β) : (l.foldl f s).1.shelfCuts = s.1.shelfCuts := by
  induction l generalizing s with
  | nil => rfl
  | cons a l ih => simp [ih, h]
@[simp] theorem State.foldl_snd_shelfCuts {α β : Type} {f : β × State → α → β × State} (h : ∀ s a, (f s a).2.shelfCuts = s.2.shelfCuts) (l : List α)
    (s : β × State) : (l.foldl f s).2.shelfCuts = s.2.shelfCuts := by
  induction l generalizing s with
  | nil => rfl
  | cons a l ih => simp [ih, h]
@[simp] theorem State.foldr_shelfCuts {α : Type} {f : α → State → State} (h : ∀ a s, (f a s).shelfCuts = s.shelfCuts) (l : List α) (s : State) :
    (l.foldr f s).shelfCuts = s.shelfCuts := by
  induction l generalizing s with
  | nil => rfl
  | cons a l ih => simp [ih, h]
@[simp] theorem State.ite_free (c : Prop) [Decidable c] (a b : State) : (if c then a else b).free = if c then a.free else b.free := by split <;> rfl
@[simp] theorem State.foldl_free {α : Type} {f : State → α → State} (h : ∀ s a, (f s a).free = s.free) (l : List α) (s : State) :
    (l.foldl f s).free = s.free := by
  induction l generalizing s with
  | nil => rfl
  | cons a l ih => simp [ih, h]
@[simp] theorem State.foldl_fst_free {α β : Type} {f : State × β → α → State × β} (h : ∀ s a, (f s a).1.free = s.1.free) (l : List α)
    (s : State × β) : (l.foldl f s).1.free = s.1.free := by
  induction l generalizing s with
  | nil => rfl
  | cons a l ih => simp [ih, h]
@[simp] theorem State.foldl_snd_free {α β : Type} {f : β × State → α → β × State} (h : ∀ s a, (f s a).2.free = s.2.free) (l : List α)
    (s : β × State) : (l.foldl f s).2.free = s.2.free := by
  induction l generalizing s with
  | nil => rfl
  | cons a l ih => simp [ih, h]
@[simp] theorem State.foldr_free {α : Type} {f : α → State → State} (h : ∀ a s, (f a s).free = s.free) (l : List α) (s : State) :
    (l.foldr f s).free = s.free := by
  induction l generalizing s with
  | nil => rfl
  | cons a l ih => simp [ih, h]
@[simp] theorem State.ite_pending (c : Prop) [Decidable c] (a b : State) : (if c then a else b).pending = if c then a.pending else b.pending := by split <;> rfl
@[simp] theorem State.foldl_pending {α : Type} {f : State → α → State} (h : ∀ s a, (f s a).pending = s.pending) (l : List α) (s : State) :
    (l.foldl f s).pending = s.pending := by
  induction l generalizing s with
  | nil => rfl
  | cons a l ih => simp [ih, h]
@[simp] theorem State.foldl_fst_pending {α β : Type} {f : State × β → α → State × β} (h : ∀ s a, (f s a).1.pending = s.1.pending) (l : List α)
    (s : State × β) : (l.foldl f s).1.pending = s.1.pending := by
  induction l generalizing s with
  | nil => rfl
  | cons a l ih => simp [ih, h]
@[simp] theorem State.foldl_snd_pending {α β : Type} {f : β × State → α → β × State} (h : ∀ s a, (f s a).2.pending = s.2.pending) (l : List α)
    (s : β × State) : (l.foldl f s).2.pending = s.2.pending := by
  induction l generalizing s with
  | nil => rfl
  | cons a l ih => simp [ih, h]
@[simp] theorem State.foldr_pending {α : Type} {f : α → State → State} (h : ∀ a s, (f a s).pending = s.pending) (l : List α) (s : State) :
    (l.foldr f s).pending = s.pending := by
  induction l generalizing s with
  | nil => rfl
  | cons a l ih => simp [ih, h]

end Sys2Proof.Machine
end

