-- ==== Sys2Proof/Laws/FrameStore.lean ====
section
/-! SUPPORT. Frames of the operations and meanings of fabric, store, tiers and flash: the parts of the state that each leaves as they are. -/

set_option linter.unusedSimpArgs false
set_option linter.unusedTactic false
set_option linter.unreachableTactic false
set_option linter.unnecessarySeqFocus false
set_option linter.unusedVariables false

namespace Sys2Proof.Machine

/-! ## Ops -/

@[simp] theorem emit_frame (x0 x1) : (emit x0 x1).fabric = x0.fabric ∧ (emit x0 x1).store = x0.store ∧ (emit x0 x1).tier = x0.tier ∧
    (emit x0 x1).engines = x0.engines ∧ (emit x0 x1).gen = x0.gen ∧ (emit x0 x1).text = x0.text ∧ (emit x0 x1).pair = x0.pair ∧
    (emit x0 x1).flash = x0.flash ∧ (emit x0 x1).bureau = x0.bureau ∧ (emit x0 x1).power = x0.power ∧ (emit x0 x1).limits = x0.limits ∧
    (emit x0 x1).fuses = x0.fuses ∧ (emit x0 x1).shelfSkips = x0.shelfSkips ∧ (emit x0 x1).shelfCuts = x0.shelfCuts ∧
    (emit x0 x1).free = x0.free ∧ (emit x0 x1).pending = x0.pending := by simp [emit]

@[simp] theorem drawFree_frame (x0) : ((drawFree x0)).2.fabric = x0.fabric ∧ ((drawFree x0)).2.store = x0.store ∧
    ((drawFree x0)).2.tier = x0.tier ∧ ((drawFree x0)).2.engines = x0.engines ∧ ((drawFree x0)).2.host = x0.host ∧
    ((drawFree x0)).2.gen = x0.gen ∧ ((drawFree x0)).2.text = x0.text ∧ ((drawFree x0)).2.pair = x0.pair ∧
    ((drawFree x0)).2.flash = x0.flash ∧ ((drawFree x0)).2.bureau = x0.bureau ∧ ((drawFree x0)).2.power = x0.power ∧
    ((drawFree x0)).2.limits = x0.limits ∧ ((drawFree x0)).2.fuses = x0.fuses ∧ ((drawFree x0)).2.shelfSkips = x0.shelfSkips ∧
    ((drawFree x0)).2.shelfCuts = x0.shelfCuts ∧ ((drawFree x0)).2.pending = x0.pending := by simp [drawFree]

@[simp] theorem setQp_frame (x0 x1 x2 x3) : (setQp x0 x1 x2 x3).fabric = x0.fabric ∧ (setQp x0 x1 x2 x3).store = x0.store ∧
    (setQp x0 x1 x2 x3).tier = x0.tier ∧ (setQp x0 x1 x2 x3).engines = x0.engines ∧ (setQp x0 x1 x2 x3).gen = x0.gen ∧
    (setQp x0 x1 x2 x3).text = x0.text ∧ (setQp x0 x1 x2 x3).pair = x0.pair ∧ (setQp x0 x1 x2 x3).flash = x0.flash ∧
    (setQp x0 x1 x2 x3).bureau = x0.bureau ∧ (setQp x0 x1 x2 x3).power = x0.power ∧ (setQp x0 x1 x2 x3).limits = x0.limits ∧
    (setQp x0 x1 x2 x3).fuses = x0.fuses ∧ (setQp x0 x1 x2 x3).shelfSkips = x0.shelfSkips ∧ (setQp x0 x1 x2 x3).shelfCuts = x0.shelfCuts ∧
    (setQp x0 x1 x2 x3).free = x0.free ∧ (setQp x0 x1 x2 x3).pending = x0.pending := by simp [setQp]

@[simp] theorem setVec_frame (x0 x1 x2 x3) : (setVec x0 x1 x2 x3).fabric = x0.fabric ∧ (setVec x0 x1 x2 x3).store = x0.store ∧
    (setVec x0 x1 x2 x3).tier = x0.tier ∧ (setVec x0 x1 x2 x3).engines = x0.engines ∧ (setVec x0 x1 x2 x3).gen = x0.gen ∧
    (setVec x0 x1 x2 x3).text = x0.text ∧ (setVec x0 x1 x2 x3).pair = x0.pair ∧ (setVec x0 x1 x2 x3).flash = x0.flash ∧
    (setVec x0 x1 x2 x3).bureau = x0.bureau ∧ (setVec x0 x1 x2 x3).power = x0.power ∧ (setVec x0 x1 x2 x3).limits = x0.limits ∧
    (setVec x0 x1 x2 x3).fuses = x0.fuses ∧ (setVec x0 x1 x2 x3).shelfSkips = x0.shelfSkips ∧ (setVec x0 x1 x2 x3).shelfCuts = x0.shelfCuts ∧
    (setVec x0 x1 x2 x3).free = x0.free ∧ (setVec x0 x1 x2 x3).pending = x0.pending := by simp [setVec]

@[simp] theorem setEng_frame (x0 x1 x2) : (setEng x0 x1 x2).fabric = x0.fabric ∧ (setEng x0 x1 x2).store = x0.store ∧
    (setEng x0 x1 x2).tier = x0.tier ∧ (setEng x0 x1 x2).host = x0.host ∧ (setEng x0 x1 x2).gen = x0.gen ∧ (setEng x0 x1 x2).text = x0.text ∧
    (setEng x0 x1 x2).pair = x0.pair ∧ (setEng x0 x1 x2).flash = x0.flash ∧ (setEng x0 x1 x2).bureau = x0.bureau ∧
    (setEng x0 x1 x2).power = x0.power ∧ (setEng x0 x1 x2).limits = x0.limits ∧ (setEng x0 x1 x2).fuses = x0.fuses ∧
    (setEng x0 x1 x2).shelfSkips = x0.shelfSkips ∧ (setEng x0 x1 x2).shelfCuts = x0.shelfCuts ∧ (setEng x0 x1 x2).free = x0.free ∧
    (setEng x0 x1 x2).pending = x0.pending := by simp [setEng]

@[simp] theorem setPart_frame (x0 x1 x2) : (setPart x0 x1 x2).fabric = x0.fabric ∧ (setPart x0 x1 x2).store = x0.store ∧
    (setPart x0 x1 x2).tier = x0.tier ∧ (setPart x0 x1 x2).engines = x0.engines ∧ (setPart x0 x1 x2).host = x0.host ∧
    (setPart x0 x1 x2).text = x0.text ∧ (setPart x0 x1 x2).pair = x0.pair ∧ (setPart x0 x1 x2).flash = x0.flash ∧
    (setPart x0 x1 x2).bureau = x0.bureau ∧ (setPart x0 x1 x2).power = x0.power ∧ (setPart x0 x1 x2).limits = x0.limits ∧
    (setPart x0 x1 x2).fuses = x0.fuses ∧ (setPart x0 x1 x2).shelfSkips = x0.shelfSkips ∧ (setPart x0 x1 x2).shelfCuts = x0.shelfCuts ∧
    (setPart x0 x1 x2).free = x0.free ∧ (setPart x0 x1 x2).pending = x0.pending := by simp [setPart]

@[simp] theorem setTen_frame (x0 x1 x2) : (setTen x0 x1 x2).fabric = x0.fabric ∧ (setTen x0 x1 x2).store = x0.store ∧
    (setTen x0 x1 x2).tier = x0.tier ∧ (setTen x0 x1 x2).engines = x0.engines ∧ (setTen x0 x1 x2).host = x0.host ∧
    (setTen x0 x1 x2).text = x0.text ∧ (setTen x0 x1 x2).pair = x0.pair ∧ (setTen x0 x1 x2).flash = x0.flash ∧
    (setTen x0 x1 x2).bureau = x0.bureau ∧ (setTen x0 x1 x2).power = x0.power ∧ (setTen x0 x1 x2).limits = x0.limits ∧
    (setTen x0 x1 x2).fuses = x0.fuses ∧ (setTen x0 x1 x2).shelfSkips = x0.shelfSkips ∧ (setTen x0 x1 x2).shelfCuts = x0.shelfCuts ∧
    (setTen x0 x1 x2).free = x0.free ∧ (setTen x0 x1 x2).pending = x0.pending := by simp [setTen]

@[simp] theorem setLease_frame (x0 x1 x2) : (setLease x0 x1 x2).fabric = x0.fabric ∧ (setLease x0 x1 x2).store = x0.store ∧
    (setLease x0 x1 x2).tier = x0.tier ∧ (setLease x0 x1 x2).engines = x0.engines ∧ (setLease x0 x1 x2).host = x0.host ∧
    (setLease x0 x1 x2).gen = x0.gen ∧ (setLease x0 x1 x2).text = x0.text ∧ (setLease x0 x1 x2).flash = x0.flash ∧
    (setLease x0 x1 x2).bureau = x0.bureau ∧ (setLease x0 x1 x2).power = x0.power ∧ (setLease x0 x1 x2).limits = x0.limits ∧
    (setLease x0 x1 x2).fuses = x0.fuses ∧ (setLease x0 x1 x2).shelfSkips = x0.shelfSkips ∧ (setLease x0 x1 x2).shelfCuts = x0.shelfCuts ∧
    (setLease x0 x1 x2).free = x0.free ∧ (setLease x0 x1 x2).pending = x0.pending := by simp [setLease]

@[simp] theorem setReq_frame (x0 x1 x2) : (setReq x0 x1 x2).fabric = x0.fabric ∧ (setReq x0 x1 x2).store = x0.store ∧
    (setReq x0 x1 x2).tier = x0.tier ∧ (setReq x0 x1 x2).engines = x0.engines ∧ (setReq x0 x1 x2).gen = x0.gen ∧
    (setReq x0 x1 x2).text = x0.text ∧ (setReq x0 x1 x2).pair = x0.pair ∧ (setReq x0 x1 x2).flash = x0.flash ∧
    (setReq x0 x1 x2).bureau = x0.bureau ∧ (setReq x0 x1 x2).power = x0.power ∧ (setReq x0 x1 x2).limits = x0.limits ∧
    (setReq x0 x1 x2).fuses = x0.fuses ∧ (setReq x0 x1 x2).shelfSkips = x0.shelfSkips ∧ (setReq x0 x1 x2).shelfCuts = x0.shelfCuts ∧
    (setReq x0 x1 x2).free = x0.free ∧ (setReq x0 x1 x2).pending = x0.pending := by simp [setReq]

@[simp] theorem modReq_frame (x0 x1 x2) : (modReq x0 x1 x2).fabric = x0.fabric ∧ (modReq x0 x1 x2).store = x0.store ∧
    (modReq x0 x1 x2).tier = x0.tier ∧ (modReq x0 x1 x2).engines = x0.engines ∧ (modReq x0 x1 x2).gen = x0.gen ∧
    (modReq x0 x1 x2).text = x0.text ∧ (modReq x0 x1 x2).pair = x0.pair ∧ (modReq x0 x1 x2).flash = x0.flash ∧
    (modReq x0 x1 x2).bureau = x0.bureau ∧ (modReq x0 x1 x2).power = x0.power ∧ (modReq x0 x1 x2).limits = x0.limits ∧
    (modReq x0 x1 x2).fuses = x0.fuses ∧ (modReq x0 x1 x2).shelfSkips = x0.shelfSkips ∧ (modReq x0 x1 x2).shelfCuts = x0.shelfCuts ∧
    (modReq x0 x1 x2).free = x0.free ∧ (modReq x0 x1 x2).pending = x0.pending := by unfold modReq; split <;> simp

@[simp] theorem countTenant_frame (x0 x1 x2 x3) : (countTenant x0 x1 x2 x3).fabric = x0.fabric ∧ (countTenant x0 x1 x2 x3).store = x0.store ∧
    (countTenant x0 x1 x2 x3).tier = x0.tier ∧ (countTenant x0 x1 x2 x3).engines = x0.engines ∧ (countTenant x0 x1 x2 x3).gen = x0.gen ∧
    (countTenant x0 x1 x2 x3).text = x0.text ∧ (countTenant x0 x1 x2 x3).pair = x0.pair ∧ (countTenant x0 x1 x2 x3).flash = x0.flash ∧
    (countTenant x0 x1 x2 x3).bureau = x0.bureau ∧ (countTenant x0 x1 x2 x3).power = x0.power ∧ (countTenant x0 x1 x2 x3).limits = x0.limits ∧
    (countTenant x0 x1 x2 x3).fuses = x0.fuses ∧ (countTenant x0 x1 x2 x3).shelfSkips = x0.shelfSkips ∧
    (countTenant x0 x1 x2 x3).shelfCuts = x0.shelfCuts ∧ (countTenant x0 x1 x2 x3).free = x0.free ∧
    (countTenant x0 x1 x2 x3).pending = x0.pending := by simp [countTenant]

@[simp] theorem signalVector_frame (x0 x1 x2) : (signalVector x0 x1 x2).fabric = x0.fabric ∧ (signalVector x0 x1 x2).store = x0.store ∧
    (signalVector x0 x1 x2).tier = x0.tier ∧ (signalVector x0 x1 x2).engines = x0.engines ∧ (signalVector x0 x1 x2).gen = x0.gen ∧
    (signalVector x0 x1 x2).text = x0.text ∧ (signalVector x0 x1 x2).pair = x0.pair ∧ (signalVector x0 x1 x2).flash = x0.flash ∧
    (signalVector x0 x1 x2).bureau = x0.bureau ∧ (signalVector x0 x1 x2).power = x0.power ∧ (signalVector x0 x1 x2).limits = x0.limits ∧
    (signalVector x0 x1 x2).fuses = x0.fuses ∧ (signalVector x0 x1 x2).shelfSkips = x0.shelfSkips ∧
    (signalVector x0 x1 x2).shelfCuts = x0.shelfCuts ∧ (signalVector x0 x1 x2).free = x0.free ∧ (signalVector x0 x1 x2).pending = x0.pending := by simp [signalVector]

@[simp] theorem countVector_frame (x0 x1 x2 x3) : (countVector x0 x1 x2 x3).fabric = x0.fabric ∧ (countVector x0 x1 x2 x3).store = x0.store ∧
    (countVector x0 x1 x2 x3).tier = x0.tier ∧ (countVector x0 x1 x2 x3).engines = x0.engines ∧ (countVector x0 x1 x2 x3).gen = x0.gen ∧
    (countVector x0 x1 x2 x3).text = x0.text ∧ (countVector x0 x1 x2 x3).pair = x0.pair ∧ (countVector x0 x1 x2 x3).flash = x0.flash ∧
    (countVector x0 x1 x2 x3).bureau = x0.bureau ∧ (countVector x0 x1 x2 x3).power = x0.power ∧ (countVector x0 x1 x2 x3).limits = x0.limits ∧
    (countVector x0 x1 x2 x3).fuses = x0.fuses ∧ (countVector x0 x1 x2 x3).shelfSkips = x0.shelfSkips ∧
    (countVector x0 x1 x2 x3).shelfCuts = x0.shelfCuts ∧ (countVector x0 x1 x2 x3).free = x0.free ∧
    (countVector x0 x1 x2 x3).pending = x0.pending := by simp [countVector]

@[simp] theorem frameSent_frame (x0 x1) : (frameSent x0 x1).fabric = x0.fabric ∧ (frameSent x0 x1).store = x0.store ∧
    (frameSent x0 x1).tier = x0.tier ∧ (frameSent x0 x1).engines = x0.engines ∧ (frameSent x0 x1).gen = x0.gen ∧
    (frameSent x0 x1).text = x0.text ∧ (frameSent x0 x1).flash = x0.flash ∧ (frameSent x0 x1).bureau = x0.bureau ∧
    (frameSent x0 x1).power = x0.power ∧ (frameSent x0 x1).limits = x0.limits ∧ (frameSent x0 x1).fuses = x0.fuses ∧
    (frameSent x0 x1).shelfSkips = x0.shelfSkips ∧ (frameSent x0 x1).shelfCuts = x0.shelfCuts ∧ (frameSent x0 x1).free = x0.free ∧
    (frameSent x0 x1).pending = x0.pending := by simp [frameSent]

@[simp] theorem pumpFrames_frame (x0 x1) : (pumpFrames x0 x1).fabric = x1.fabric ∧ (pumpFrames x0 x1).store = x1.store ∧
    (pumpFrames x0 x1).tier = x1.tier ∧ (pumpFrames x0 x1).engines = x1.engines ∧ (pumpFrames x0 x1).gen = x1.gen ∧
    (pumpFrames x0 x1).text = x1.text ∧ (pumpFrames x0 x1).flash = x1.flash ∧ (pumpFrames x0 x1).bureau = x1.bureau ∧
    (pumpFrames x0 x1).power = x1.power ∧ (pumpFrames x0 x1).limits = x1.limits ∧ (pumpFrames x0 x1).fuses = x1.fuses ∧
    (pumpFrames x0 x1).shelfSkips = x1.shelfSkips ∧ (pumpFrames x0 x1).shelfCuts = x1.shelfCuts ∧ (pumpFrames x0 x1).free = x1.free ∧
    (pumpFrames x0 x1).pending = x1.pending := by
  induction x0 generalizing x1 with
  | zero => simp [pumpFrames]
  | succ k ih =>
    unfold pumpFrames
    split
    · simp
    · split
      · simp
      · simp [ih]

@[simp] theorem sendMsg_frame (x0 x1 x2) : (sendMsg x0 x1 x2).fabric = x0.fabric ∧ (sendMsg x0 x1 x2).store = x0.store ∧
    (sendMsg x0 x1 x2).tier = x0.tier ∧ (sendMsg x0 x1 x2).engines = x0.engines ∧ (sendMsg x0 x1 x2).gen = x0.gen ∧
    (sendMsg x0 x1 x2).text = x0.text ∧ (sendMsg x0 x1 x2).flash = x0.flash ∧ (sendMsg x0 x1 x2).bureau = x0.bureau ∧
    (sendMsg x0 x1 x2).power = x0.power ∧ (sendMsg x0 x1 x2).limits = x0.limits ∧ (sendMsg x0 x1 x2).fuses = x0.fuses ∧
    (sendMsg x0 x1 x2).shelfSkips = x0.shelfSkips ∧ (sendMsg x0 x1 x2).shelfCuts = x0.shelfCuts ∧ (sendMsg x0 x1 x2).pending = x0.pending := by simp [sendMsg]

@[simp] theorem journalMsg_frame (x0 x1 x2 x3) : (journalMsg x0 x1 x2 x3).fabric = x0.fabric ∧ (journalMsg x0 x1 x2 x3).store = x0.store ∧
    (journalMsg x0 x1 x2 x3).tier = x0.tier ∧ (journalMsg x0 x1 x2 x3).engines = x0.engines ∧ (journalMsg x0 x1 x2 x3).gen = x0.gen ∧
    (journalMsg x0 x1 x2 x3).text = x0.text ∧ (journalMsg x0 x1 x2 x3).flash = x0.flash ∧ (journalMsg x0 x1 x2 x3).bureau = x0.bureau ∧
    (journalMsg x0 x1 x2 x3).power = x0.power ∧ (journalMsg x0 x1 x2 x3).limits = x0.limits ∧ (journalMsg x0 x1 x2 x3).fuses = x0.fuses ∧
    (journalMsg x0 x1 x2 x3).shelfSkips = x0.shelfSkips ∧ (journalMsg x0 x1 x2 x3).shelfCuts = x0.shelfCuts ∧
    (journalMsg x0 x1 x2 x3).pending = x0.pending := by simp [journalMsg]

@[simp] theorem setIndex_frame (x0 x1 x2) : (setIndex x0 x1 x2).fabric = x0.fabric ∧ (setIndex x0 x1 x2).store = x0.store ∧
    (setIndex x0 x1 x2).tier = x0.tier ∧ (setIndex x0 x1 x2).engines = x0.engines ∧ (setIndex x0 x1 x2).host = x0.host ∧
    (setIndex x0 x1 x2).text = x0.text ∧ (setIndex x0 x1 x2).pair = x0.pair ∧ (setIndex x0 x1 x2).flash = x0.flash ∧
    (setIndex x0 x1 x2).bureau = x0.bureau ∧ (setIndex x0 x1 x2).power = x0.power ∧ (setIndex x0 x1 x2).limits = x0.limits ∧
    (setIndex x0 x1 x2).fuses = x0.fuses ∧ (setIndex x0 x1 x2).shelfSkips = x0.shelfSkips ∧ (setIndex x0 x1 x2).shelfCuts = x0.shelfCuts ∧
    (setIndex x0 x1 x2).free = x0.free ∧ (setIndex x0 x1 x2).pending = x0.pending := by unfold setIndex; split <;> simp

@[simp] theorem takeSnap_frame (x0 x1 x2) : (takeSnap x0 x1 x2).fabric = x0.fabric ∧ (takeSnap x0 x1 x2).store = x0.store ∧
    (takeSnap x0 x1 x2).tier = x0.tier ∧ (takeSnap x0 x1 x2).engines = x0.engines ∧ (takeSnap x0 x1 x2).host = x0.host ∧
    (takeSnap x0 x1 x2).text = x0.text ∧ (takeSnap x0 x1 x2).pair = x0.pair ∧ (takeSnap x0 x1 x2).flash = x0.flash ∧
    (takeSnap x0 x1 x2).bureau = x0.bureau ∧ (takeSnap x0 x1 x2).power = x0.power ∧ (takeSnap x0 x1 x2).limits = x0.limits ∧
    (takeSnap x0 x1 x2).fuses = x0.fuses ∧ (takeSnap x0 x1 x2).shelfSkips = x0.shelfSkips ∧ (takeSnap x0 x1 x2).shelfCuts = x0.shelfCuts ∧
    (takeSnap x0 x1 x2).free = x0.free ∧ (takeSnap x0 x1 x2).pending = x0.pending := by simp [takeSnap]

@[simp] theorem dropSnap_frame (x0 x1 x2) : (dropSnap x0 x1 x2).fabric = x0.fabric ∧ (dropSnap x0 x1 x2).store = x0.store ∧
    (dropSnap x0 x1 x2).tier = x0.tier ∧ (dropSnap x0 x1 x2).engines = x0.engines ∧ (dropSnap x0 x1 x2).host = x0.host ∧
    (dropSnap x0 x1 x2).text = x0.text ∧ (dropSnap x0 x1 x2).pair = x0.pair ∧ (dropSnap x0 x1 x2).flash = x0.flash ∧
    (dropSnap x0 x1 x2).bureau = x0.bureau ∧ (dropSnap x0 x1 x2).power = x0.power ∧ (dropSnap x0 x1 x2).limits = x0.limits ∧
    (dropSnap x0 x1 x2).fuses = x0.fuses ∧ (dropSnap x0 x1 x2).shelfSkips = x0.shelfSkips ∧ (dropSnap x0 x1 x2).shelfCuts = x0.shelfCuts ∧
    (dropSnap x0 x1 x2).free = x0.free ∧ (dropSnap x0 x1 x2).pending = x0.pending := by simp [dropSnap]

@[simp] theorem endRerun_frame (x0 x1) : (endRerun x0 x1).fabric = x0.fabric ∧ (endRerun x0 x1).store = x0.store ∧
    (endRerun x0 x1).tier = x0.tier ∧ (endRerun x0 x1).engines = x0.engines ∧ (endRerun x0 x1).host = x0.host ∧
    (endRerun x0 x1).text = x0.text ∧ (endRerun x0 x1).flash = x0.flash ∧ (endRerun x0 x1).bureau = x0.bureau ∧
    (endRerun x0 x1).power = x0.power ∧ (endRerun x0 x1).limits = x0.limits ∧ (endRerun x0 x1).fuses = x0.fuses ∧
    (endRerun x0 x1).shelfSkips = x0.shelfSkips ∧ (endRerun x0 x1).shelfCuts = x0.shelfCuts ∧ (endRerun x0 x1).free = x0.free ∧
    (endRerun x0 x1).pending = x0.pending := by
  unfold endRerun
  repeat' split
  all_goals (refine ⟨?_, ?_, ?_, ?_, ?_, ?_, ?_, ?_, ?_, ?_, ?_, ?_, ?_, ?_, ?_⟩)
  all_goals (try (first | refine (State.foldl_fabric (fun _ _ => ?_) _ _).trans ?_ | refine (State.foldl_store (fun _ _ => ?_) _ _).trans ?_ | refine (State.foldl_tier (fun _ _ => ?_) _ _).trans ?_ | refine (State.foldl_engines (fun _ _ => ?_) _ _).trans ?_ | refine (State.foldl_host (fun _ _ => ?_) _ _).trans ?_ | refine (State.foldl_text (fun _ _ => ?_) _ _).trans ?_ | refine (State.foldl_flash (fun _ _ => ?_) _ _).trans ?_ | refine (State.foldl_bureau (fun _ _ => ?_) _ _).trans ?_ | refine (State.foldl_power (fun _ _ => ?_) _ _).trans ?_ | refine (State.foldl_limits (fun _ _ => ?_) _ _).trans ?_ | refine (State.foldl_fuses (fun _ _ => ?_) _ _).trans ?_ | refine (State.foldl_shelfSkips (fun _ _ => ?_) _ _).trans ?_ | refine (State.foldl_shelfCuts (fun _ _ => ?_) _ _).trans ?_ | refine (State.foldl_free (fun _ _ => ?_) _ _).trans ?_ | refine (State.foldl_pending (fun _ _ => ?_) _ _).trans ?_ ))
  all_goals (repeat' split)
  all_goals ((try simp only [Prod.ext_iff] at *); (try casesm* _ ∧ _); (try subst_vars); first | (simp; done) | (simp_all; done) | skip)

@[simp] theorem dropRequest_frame (x0 x1) : (dropRequest x0 x1).fabric = x0.fabric ∧ (dropRequest x0 x1).store = x0.store ∧
    (dropRequest x0 x1).tier = x0.tier ∧ (dropRequest x0 x1).engines = x0.engines ∧ (dropRequest x0 x1).text = x0.text ∧
    (dropRequest x0 x1).flash = x0.flash ∧ (dropRequest x0 x1).bureau = x0.bureau ∧ (dropRequest x0 x1).power = x0.power ∧
    (dropRequest x0 x1).limits = x0.limits ∧ (dropRequest x0 x1).fuses = x0.fuses ∧ (dropRequest x0 x1).shelfSkips = x0.shelfSkips ∧
    (dropRequest x0 x1).shelfCuts = x0.shelfCuts ∧ (dropRequest x0 x1).pending = x0.pending := by unfold dropRequest; split <;> simp

@[simp] theorem tryPost_frame (x0 x1 x2 x3) : ((tryPost x0 x1 x2 x3)).1.fabric = x0.fabric ∧ ((tryPost x0 x1 x2 x3)).1.store = x0.store ∧
    ((tryPost x0 x1 x2 x3)).1.tier = x0.tier ∧ ((tryPost x0 x1 x2 x3)).1.engines = x0.engines ∧ ((tryPost x0 x1 x2 x3)).1.gen = x0.gen ∧
    ((tryPost x0 x1 x2 x3)).1.text = x0.text ∧ ((tryPost x0 x1 x2 x3)).1.pair = x0.pair ∧ ((tryPost x0 x1 x2 x3)).1.flash = x0.flash ∧
    ((tryPost x0 x1 x2 x3)).1.bureau = x0.bureau ∧ ((tryPost x0 x1 x2 x3)).1.power = x0.power ∧ ((tryPost x0 x1 x2 x3)).1.limits = x0.limits ∧
    ((tryPost x0 x1 x2 x3)).1.fuses = x0.fuses ∧ ((tryPost x0 x1 x2 x3)).1.shelfSkips = x0.shelfSkips ∧
    ((tryPost x0 x1 x2 x3)).1.shelfCuts = x0.shelfCuts ∧ ((tryPost x0 x1 x2 x3)).1.free = x0.free ∧
    ((tryPost x0 x1 x2 x3)).1.pending = x0.pending := by simp [tryPost]

@[simp] theorem releaseCancel_frame (x0 x1 x2) : (releaseCancel x0 x1 x2).fabric = x1.fabric ∧ (releaseCancel x0 x1 x2).store = x1.store ∧
    (releaseCancel x0 x1 x2).tier = x1.tier ∧ (releaseCancel x0 x1 x2).engines = x1.engines ∧ (releaseCancel x0 x1 x2).text = x1.text ∧
    (releaseCancel x0 x1 x2).flash = x1.flash ∧ (releaseCancel x0 x1 x2).bureau = x1.bureau ∧ (releaseCancel x0 x1 x2).power = x1.power ∧
    (releaseCancel x0 x1 x2).limits = x1.limits ∧ (releaseCancel x0 x1 x2).fuses = x1.fuses ∧
    (releaseCancel x0 x1 x2).shelfSkips = x1.shelfSkips ∧ (releaseCancel x0 x1 x2).shelfCuts = x1.shelfCuts ∧
    (releaseCancel x0 x1 x2).pending = x1.pending := by simp [releaseCancel]

@[simp] theorem closeRequest_frame (x0 x1) : (closeRequest x0 x1).fabric = x0.fabric ∧ (closeRequest x0 x1).store = x0.store ∧
    (closeRequest x0 x1).tier = x0.tier ∧ (closeRequest x0 x1).engines = x0.engines ∧ (closeRequest x0 x1).text = x0.text ∧
    (closeRequest x0 x1).flash = x0.flash ∧ (closeRequest x0 x1).bureau = x0.bureau ∧ (closeRequest x0 x1).power = x0.power ∧
    (closeRequest x0 x1).limits = x0.limits ∧ (closeRequest x0 x1).fuses = x0.fuses ∧ (closeRequest x0 x1).shelfSkips = x0.shelfSkips ∧
    (closeRequest x0 x1).shelfCuts = x0.shelfCuts ∧ (closeRequest x0 x1).pending = x0.pending := by simp [closeRequest]

@[simp] theorem post_frame (x0 x1 x2 x3) : (post x0 x1 x2 x3).fabric = x0.fabric ∧ (post x0 x1 x2 x3).store = x0.store ∧
    (post x0 x1 x2 x3).tier = x0.tier ∧ (post x0 x1 x2 x3).engines = x0.engines ∧ (post x0 x1 x2 x3).text = x0.text ∧
    (post x0 x1 x2 x3).flash = x0.flash ∧ (post x0 x1 x2 x3).bureau = x0.bureau ∧ (post x0 x1 x2 x3).power = x0.power ∧
    (post x0 x1 x2 x3).limits = x0.limits ∧ (post x0 x1 x2 x3).fuses = x0.fuses ∧ (post x0 x1 x2 x3).shelfSkips = x0.shelfSkips ∧
    (post x0 x1 x2 x3).shelfCuts = x0.shelfCuts ∧ (post x0 x1 x2 x3).pending = x0.pending := by
  unfold post
  repeat' split
  all_goals ((try simp only [Prod.ext_iff] at *); (try casesm* _ ∧ _); (try subst_vars); (try simp))

@[simp] theorem postEventTo_frame (x0 x1 x2) : (postEventTo x0 x1 x2).fabric = x0.fabric ∧ (postEventTo x0 x1 x2).store = x0.store ∧
    (postEventTo x0 x1 x2).tier = x0.tier ∧ (postEventTo x0 x1 x2).engines = x0.engines ∧ (postEventTo x0 x1 x2).gen = x0.gen ∧
    (postEventTo x0 x1 x2).text = x0.text ∧ (postEventTo x0 x1 x2).pair = x0.pair ∧ (postEventTo x0 x1 x2).flash = x0.flash ∧
    (postEventTo x0 x1 x2).bureau = x0.bureau ∧ (postEventTo x0 x1 x2).power = x0.power ∧ (postEventTo x0 x1 x2).limits = x0.limits ∧
    (postEventTo x0 x1 x2).fuses = x0.fuses ∧ (postEventTo x0 x1 x2).shelfSkips = x0.shelfSkips ∧
    (postEventTo x0 x1 x2).shelfCuts = x0.shelfCuts ∧ (postEventTo x0 x1 x2).free = x0.free ∧ (postEventTo x0 x1 x2).pending = x0.pending := by
  unfold postEventTo post
  repeat' split
  all_goals ((try simp only [Prod.ext_iff] at *); (try casesm* _ ∧ _); (try subst_vars); first | (simp; done) | simp_all)

@[simp] theorem postEvent_frame (x0 x1) : (postEvent x0 x1).fabric = x0.fabric ∧ (postEvent x0 x1).store = x0.store ∧
    (postEvent x0 x1).tier = x0.tier ∧ (postEvent x0 x1).engines = x0.engines ∧ (postEvent x0 x1).gen = x0.gen ∧
    (postEvent x0 x1).text = x0.text ∧ (postEvent x0 x1).pair = x0.pair ∧ (postEvent x0 x1).flash = x0.flash ∧
    (postEvent x0 x1).bureau = x0.bureau ∧ (postEvent x0 x1).power = x0.power ∧ (postEvent x0 x1).limits = x0.limits ∧
    (postEvent x0 x1).fuses = x0.fuses ∧ (postEvent x0 x1).shelfSkips = x0.shelfSkips ∧ (postEvent x0 x1).shelfCuts = x0.shelfCuts ∧
    (postEvent x0 x1).free = x0.free ∧ (postEvent x0 x1).pending = x0.pending := by simp [postEvent]

@[simp] theorem storeRecord_frame (x0 x1 x2) : (storeRecord x0 x1 x2).fabric = x0.fabric ∧ (storeRecord x0 x1 x2).store = x0.store ∧
    (storeRecord x0 x1 x2).tier = x0.tier ∧ (storeRecord x0 x1 x2).engines = x0.engines ∧ (storeRecord x0 x1 x2).gen = x0.gen ∧
    (storeRecord x0 x1 x2).text = x0.text ∧ (storeRecord x0 x1 x2).pair = x0.pair ∧ (storeRecord x0 x1 x2).flash = x0.flash ∧
    (storeRecord x0 x1 x2).power = x0.power ∧ (storeRecord x0 x1 x2).limits = x0.limits ∧ (storeRecord x0 x1 x2).fuses = x0.fuses ∧
    (storeRecord x0 x1 x2).shelfSkips = x0.shelfSkips ∧ (storeRecord x0 x1 x2).shelfCuts = x0.shelfCuts ∧
    (storeRecord x0 x1 x2).free = x0.free ∧ (storeRecord x0 x1 x2).pending = x0.pending := by simp [storeRecord]

@[simp] theorem logEvent_frame (x0 x1) : (logEvent x0 x1).fabric = x0.fabric ∧ (logEvent x0 x1).store = x0.store ∧
    (logEvent x0 x1).tier = x0.tier ∧ (logEvent x0 x1).engines = x0.engines ∧ (logEvent x0 x1).gen = x0.gen ∧
    (logEvent x0 x1).text = x0.text ∧ (logEvent x0 x1).pair = x0.pair ∧ (logEvent x0 x1).flash = x0.flash ∧
    (logEvent x0 x1).power = x0.power ∧ (logEvent x0 x1).limits = x0.limits ∧ (logEvent x0 x1).fuses = x0.fuses ∧
    (logEvent x0 x1).shelfSkips = x0.shelfSkips ∧ (logEvent x0 x1).shelfCuts = x0.shelfCuts ∧ (logEvent x0 x1).free = x0.free ∧
    (logEvent x0 x1).pending = x0.pending := by simp [logEvent]

@[simp] theorem logEvents_frame (x0 x1) : (logEvents x0 x1).fabric = x0.fabric ∧ (logEvents x0 x1).store = x0.store ∧
    (logEvents x0 x1).tier = x0.tier ∧ (logEvents x0 x1).engines = x0.engines ∧ (logEvents x0 x1).gen = x0.gen ∧
    (logEvents x0 x1).text = x0.text ∧ (logEvents x0 x1).pair = x0.pair ∧ (logEvents x0 x1).flash = x0.flash ∧
    (logEvents x0 x1).power = x0.power ∧ (logEvents x0 x1).limits = x0.limits ∧ (logEvents x0 x1).fuses = x0.fuses ∧
    (logEvents x0 x1).shelfSkips = x0.shelfSkips ∧ (logEvents x0 x1).shelfCuts = x0.shelfCuts ∧ (logEvents x0 x1).free = x0.free ∧
    (logEvents x0 x1).pending = x0.pending := by simp [logEvents]

@[simp] theorem deliver_frame (x0 x1 x2) : (deliver x0 x1 x2).store = x0.store ∧ (deliver x0 x1 x2).tier = x0.tier ∧
    (deliver x0 x1 x2).engines = x0.engines ∧ (deliver x0 x1 x2).host = x0.host ∧ (deliver x0 x1 x2).gen = x0.gen ∧
    (deliver x0 x1 x2).text = x0.text ∧ (deliver x0 x1 x2).pair = x0.pair ∧ (deliver x0 x1 x2).flash = x0.flash ∧
    (deliver x0 x1 x2).bureau = x0.bureau ∧ (deliver x0 x1 x2).power = x0.power ∧ (deliver x0 x1 x2).limits = x0.limits ∧
    (deliver x0 x1 x2).fuses = x0.fuses ∧ (deliver x0 x1 x2).shelfSkips = x0.shelfSkips ∧ (deliver x0 x1 x2).shelfCuts = x0.shelfCuts ∧
    (deliver x0 x1 x2).free = x0.free ∧ (deliver x0 x1 x2).pending = x0.pending := by simp [deliver]

@[simp] theorem sendCtrl_frame (x0 x1) : (sendCtrl x0 x1).store = x0.store ∧ (sendCtrl x0 x1).tier = x0.tier ∧
    (sendCtrl x0 x1).engines = x0.engines ∧ (sendCtrl x0 x1).host = x0.host ∧ (sendCtrl x0 x1).gen = x0.gen ∧
    (sendCtrl x0 x1).text = x0.text ∧ (sendCtrl x0 x1).pair = x0.pair ∧ (sendCtrl x0 x1).flash = x0.flash ∧
    (sendCtrl x0 x1).bureau = x0.bureau ∧ (sendCtrl x0 x1).power = x0.power ∧ (sendCtrl x0 x1).limits = x0.limits ∧
    (sendCtrl x0 x1).fuses = x0.fuses ∧ (sendCtrl x0 x1).shelfSkips = x0.shelfSkips ∧ (sendCtrl x0 x1).shelfCuts = x0.shelfCuts ∧
    (sendCtrl x0 x1).free = x0.free ∧ (sendCtrl x0 x1).pending = x0.pending := by unfold sendCtrl; split <;> simp

@[simp] theorem forwardDone_frame (x0 x1 x2 x3 x4) : (forwardDone x0 x1 x2 x3 x4).fabric = x0.fabric ∧
    (forwardDone x0 x1 x2 x3 x4).store = x0.store ∧ (forwardDone x0 x1 x2 x3 x4).tier = x0.tier ∧
    (forwardDone x0 x1 x2 x3 x4).engines = x0.engines ∧ (forwardDone x0 x1 x2 x3 x4).text = x0.text ∧
    (forwardDone x0 x1 x2 x3 x4).flash = x0.flash ∧ (forwardDone x0 x1 x2 x3 x4).bureau = x0.bureau ∧
    (forwardDone x0 x1 x2 x3 x4).power = x0.power ∧ (forwardDone x0 x1 x2 x3 x4).limits = x0.limits ∧
    (forwardDone x0 x1 x2 x3 x4).fuses = x0.fuses ∧ (forwardDone x0 x1 x2 x3 x4).shelfSkips = x0.shelfSkips ∧
    (forwardDone x0 x1 x2 x3 x4).shelfCuts = x0.shelfCuts ∧ (forwardDone x0 x1 x2 x3 x4).pending = x0.pending := by unfold forwardDone; split <;> simp

@[simp] theorem finish_frame (x0 x1 x2 x3 x4) : (finish x0 x1 x2 x3 x4).fabric = x0.fabric ∧ (finish x0 x1 x2 x3 x4).store = x0.store ∧
    (finish x0 x1 x2 x3 x4).tier = x0.tier ∧ (finish x0 x1 x2 x3 x4).engines = x0.engines ∧ (finish x0 x1 x2 x3 x4).text = x0.text ∧
    (finish x0 x1 x2 x3 x4).flash = x0.flash ∧ (finish x0 x1 x2 x3 x4).bureau = x0.bureau ∧ (finish x0 x1 x2 x3 x4).power = x0.power ∧
    (finish x0 x1 x2 x3 x4).limits = x0.limits ∧ (finish x0 x1 x2 x3 x4).fuses = x0.fuses ∧
    (finish x0 x1 x2 x3 x4).shelfSkips = x0.shelfSkips ∧ (finish x0 x1 x2 x3 x4).shelfCuts = x0.shelfCuts ∧
    (finish x0 x1 x2 x3 x4).pending = x0.pending := by unfold finish; split <;> simp

@[simp] theorem finishPlain_frame (x0 x1 x2 x3) : (finishPlain x0 x1 x2 x3).fabric = x0.fabric ∧ (finishPlain x0 x1 x2 x3).store = x0.store ∧
    (finishPlain x0 x1 x2 x3).tier = x0.tier ∧ (finishPlain x0 x1 x2 x3).engines = x0.engines ∧ (finishPlain x0 x1 x2 x3).text = x0.text ∧
    (finishPlain x0 x1 x2 x3).flash = x0.flash ∧ (finishPlain x0 x1 x2 x3).bureau = x0.bureau ∧ (finishPlain x0 x1 x2 x3).power = x0.power ∧
    (finishPlain x0 x1 x2 x3).limits = x0.limits ∧ (finishPlain x0 x1 x2 x3).fuses = x0.fuses ∧
    (finishPlain x0 x1 x2 x3).shelfSkips = x0.shelfSkips ∧ (finishPlain x0 x1 x2 x3).shelfCuts = x0.shelfCuts ∧
    (finishPlain x0 x1 x2 x3).pending = x0.pending := by unfold finishPlain; split <;> simp

/-! ## Fabric -/

@[simp] theorem setLink_frame (x0 x1 x2) : (setLink x0 x1 x2).store = x0.store ∧ (setLink x0 x1 x2).tier = x0.tier ∧
    (setLink x0 x1 x2).engines = x0.engines ∧ (setLink x0 x1 x2).host = x0.host ∧ (setLink x0 x1 x2).gen = x0.gen ∧
    (setLink x0 x1 x2).text = x0.text ∧ (setLink x0 x1 x2).pair = x0.pair ∧ (setLink x0 x1 x2).flash = x0.flash ∧
    (setLink x0 x1 x2).bureau = x0.bureau ∧ (setLink x0 x1 x2).power = x0.power ∧ (setLink x0 x1 x2).limits = x0.limits ∧
    (setLink x0 x1 x2).fuses = x0.fuses ∧ (setLink x0 x1 x2).shelfSkips = x0.shelfSkips ∧ (setLink x0 x1 x2).shelfCuts = x0.shelfCuts ∧
    (setLink x0 x1 x2).free = x0.free ∧ (setLink x0 x1 x2).pending = x0.pending := by simp [setLink]

@[simp] theorem ridesOn_frame (x0 x1 x2) : ((ridesOn x0 x1 x2)).2.store = x0.store ∧ ((ridesOn x0 x1 x2)).2.tier = x0.tier ∧
    ((ridesOn x0 x1 x2)).2.engines = x0.engines ∧ ((ridesOn x0 x1 x2)).2.host = x0.host ∧ ((ridesOn x0 x1 x2)).2.gen = x0.gen ∧
    ((ridesOn x0 x1 x2)).2.text = x0.text ∧ ((ridesOn x0 x1 x2)).2.pair = x0.pair ∧ ((ridesOn x0 x1 x2)).2.flash = x0.flash ∧
    ((ridesOn x0 x1 x2)).2.bureau = x0.bureau ∧ ((ridesOn x0 x1 x2)).2.power = x0.power ∧ ((ridesOn x0 x1 x2)).2.limits = x0.limits ∧
    ((ridesOn x0 x1 x2)).2.fuses = x0.fuses ∧ ((ridesOn x0 x1 x2)).2.shelfSkips = x0.shelfSkips ∧
    ((ridesOn x0 x1 x2)).2.shelfCuts = x0.shelfCuts ∧ ((ridesOn x0 x1 x2)).2.free = x0.free ∧ ((ridesOn x0 x1 x2)).2.pending = x0.pending := by
  simp only [ridesOn]
  repeat' split
  all_goals ((try simp only [Prod.ext_iff] at *); (try casesm* _ ∧ _); (try subst_vars); (try simp))

@[simp] theorem sendFlit_frame (x0 x1 x2) : (sendFlit x0 x1 x2).store = x0.store ∧ (sendFlit x0 x1 x2).tier = x0.tier ∧
    (sendFlit x0 x1 x2).engines = x0.engines ∧ (sendFlit x0 x1 x2).gen = x0.gen ∧ (sendFlit x0 x1 x2).text = x0.text ∧
    (sendFlit x0 x1 x2).pair = x0.pair ∧ (sendFlit x0 x1 x2).flash = x0.flash ∧ (sendFlit x0 x1 x2).bureau = x0.bureau ∧
    (sendFlit x0 x1 x2).power = x0.power ∧ (sendFlit x0 x1 x2).limits = x0.limits ∧ (sendFlit x0 x1 x2).fuses = x0.fuses ∧
    (sendFlit x0 x1 x2).shelfSkips = x0.shelfSkips ∧ (sendFlit x0 x1 x2).shelfCuts = x0.shelfCuts ∧ (sendFlit x0 x1 x2).free = x0.free ∧
    (sendFlit x0 x1 x2).pending = x0.pending := by simp [sendFlit]

@[simp] theorem pumpLink_frame (x0 x1 x2) : (pumpLink x0 x1 x2).store = x1.store ∧ (pumpLink x0 x1 x2).tier = x1.tier ∧
    (pumpLink x0 x1 x2).engines = x1.engines ∧ (pumpLink x0 x1 x2).gen = x1.gen ∧ (pumpLink x0 x1 x2).text = x1.text ∧
    (pumpLink x0 x1 x2).pair = x1.pair ∧ (pumpLink x0 x1 x2).flash = x1.flash ∧ (pumpLink x0 x1 x2).bureau = x1.bureau ∧
    (pumpLink x0 x1 x2).power = x1.power ∧ (pumpLink x0 x1 x2).limits = x1.limits ∧ (pumpLink x0 x1 x2).fuses = x1.fuses ∧
    (pumpLink x0 x1 x2).shelfSkips = x1.shelfSkips ∧ (pumpLink x0 x1 x2).shelfCuts = x1.shelfCuts ∧ (pumpLink x0 x1 x2).free = x1.free ∧
    (pumpLink x0 x1 x2).pending = x1.pending := by
  induction x0 generalizing x1 with
  | zero => simp [pumpLink]
  | succ k ih =>
    unfold pumpLink
    split <;> simp [ih]

@[simp] theorem sendOn_frame (x0 x1 x2) : (sendOn x0 x1 x2).store = x0.store ∧ (sendOn x0 x1 x2).tier = x0.tier ∧
    (sendOn x0 x1 x2).engines = x0.engines ∧ (sendOn x0 x1 x2).gen = x0.gen ∧ (sendOn x0 x1 x2).text = x0.text ∧
    (sendOn x0 x1 x2).pair = x0.pair ∧ (sendOn x0 x1 x2).flash = x0.flash ∧ (sendOn x0 x1 x2).bureau = x0.bureau ∧
    (sendOn x0 x1 x2).power = x0.power ∧ (sendOn x0 x1 x2).limits = x0.limits ∧ (sendOn x0 x1 x2).fuses = x0.fuses ∧
    (sendOn x0 x1 x2).shelfSkips = x0.shelfSkips ∧ (sendOn x0 x1 x2).shelfCuts = x0.shelfCuts ∧ (sendOn x0 x1 x2).free = x0.free ∧
    (sendOn x0 x1 x2).pending = x0.pending := by simp [sendOn]

@[simp] theorem resendFrom_frame (x0 x1 x2) : (resendFrom x0 x1 x2).fabric = x0.fabric ∧ (resendFrom x0 x1 x2).store = x0.store ∧
    (resendFrom x0 x1 x2).tier = x0.tier ∧ (resendFrom x0 x1 x2).engines = x0.engines ∧ (resendFrom x0 x1 x2).gen = x0.gen ∧
    (resendFrom x0 x1 x2).text = x0.text ∧ (resendFrom x0 x1 x2).pair = x0.pair ∧ (resendFrom x0 x1 x2).flash = x0.flash ∧
    (resendFrom x0 x1 x2).bureau = x0.bureau ∧ (resendFrom x0 x1 x2).power = x0.power ∧ (resendFrom x0 x1 x2).limits = x0.limits ∧
    (resendFrom x0 x1 x2).fuses = x0.fuses ∧ (resendFrom x0 x1 x2).shelfSkips = x0.shelfSkips ∧
    (resendFrom x0 x1 x2).shelfCuts = x0.shelfCuts ∧ (resendFrom x0 x1 x2).free = x0.free ∧ (resendFrom x0 x1 x2).pending = x0.pending := by simp [resendFrom]

@[simp] theorem takeAck_frame (x0 x1 x2) : (takeAck x0 x1 x2).store = x0.store ∧ (takeAck x0 x1 x2).tier = x0.tier ∧
    (takeAck x0 x1 x2).engines = x0.engines ∧ (takeAck x0 x1 x2).gen = x0.gen ∧ (takeAck x0 x1 x2).text = x0.text ∧
    (takeAck x0 x1 x2).pair = x0.pair ∧ (takeAck x0 x1 x2).flash = x0.flash ∧ (takeAck x0 x1 x2).bureau = x0.bureau ∧
    (takeAck x0 x1 x2).power = x0.power ∧ (takeAck x0 x1 x2).limits = x0.limits ∧ (takeAck x0 x1 x2).fuses = x0.fuses ∧
    (takeAck x0 x1 x2).shelfSkips = x0.shelfSkips ∧ (takeAck x0 x1 x2).shelfCuts = x0.shelfCuts ∧ (takeAck x0 x1 x2).free = x0.free ∧
    (takeAck x0 x1 x2).pending = x0.pending := by simp [takeAck]

@[simp] theorem nakFlit_frame (x0 x1) : (nakFlit x0 x1).store = x0.store ∧ (nakFlit x0 x1).tier = x0.tier ∧
    (nakFlit x0 x1).engines = x0.engines ∧ (nakFlit x0 x1).gen = x0.gen ∧ (nakFlit x0 x1).text = x0.text ∧ (nakFlit x0 x1).pair = x0.pair ∧
    (nakFlit x0 x1).flash = x0.flash ∧ (nakFlit x0 x1).bureau = x0.bureau ∧ (nakFlit x0 x1).power = x0.power ∧
    (nakFlit x0 x1).limits = x0.limits ∧ (nakFlit x0 x1).fuses = x0.fuses ∧ (nakFlit x0 x1).shelfSkips = x0.shelfSkips ∧
    (nakFlit x0 x1).shelfCuts = x0.shelfCuts ∧ (nakFlit x0 x1).free = x0.free ∧ (nakFlit x0 x1).pending = x0.pending := by simp [nakFlit]

@[simp] theorem ackOnly_frame (x0 x1) : (ackOnly x0 x1).store = x0.store ∧ (ackOnly x0 x1).tier = x0.tier ∧
    (ackOnly x0 x1).engines = x0.engines ∧ (ackOnly x0 x1).gen = x0.gen ∧ (ackOnly x0 x1).text = x0.text ∧ (ackOnly x0 x1).pair = x0.pair ∧
    (ackOnly x0 x1).flash = x0.flash ∧ (ackOnly x0 x1).bureau = x0.bureau ∧ (ackOnly x0 x1).power = x0.power ∧
    (ackOnly x0 x1).limits = x0.limits ∧ (ackOnly x0 x1).fuses = x0.fuses ∧ (ackOnly x0 x1).shelfSkips = x0.shelfSkips ∧
    (ackOnly x0 x1).shelfCuts = x0.shelfCuts ∧ (ackOnly x0 x1).free = x0.free ∧ (ackOnly x0 x1).pending = x0.pending := by simp [ackOnly]

theorem execAckOnlyFlit_frame (x0 x1) : ∀ t, (execAckOnlyFlit x0 x1) = .next t → t.store = x1.store ∧ t.tier = x1.tier ∧
    t.engines = x1.engines ∧ t.gen = x1.gen ∧ t.text = x1.text ∧ t.pair = x1.pair ∧ t.flash = x1.flash ∧ t.bureau = x1.bureau ∧
    t.power = x1.power ∧ t.limits = x1.limits ∧ t.fuses = x1.fuses ∧ t.shelfSkips = x1.shelfSkips ∧ t.shelfCuts = x1.shelfCuts ∧
    t.free = x1.free ∧ t.pending = x1.pending := by simp [execAckOnlyFlit]

@[simp] theorem reinitialise_frame (x0 x1) : (reinitialise x0 x1).store = x0.store ∧ (reinitialise x0 x1).tier = x0.tier ∧
    (reinitialise x0 x1).engines = x0.engines ∧ (reinitialise x0 x1).gen = x0.gen ∧ (reinitialise x0 x1).text = x0.text ∧
    (reinitialise x0 x1).pair = x0.pair ∧ (reinitialise x0 x1).flash = x0.flash ∧ (reinitialise x0 x1).power = x0.power ∧
    (reinitialise x0 x1).limits = x0.limits ∧ (reinitialise x0 x1).fuses = x0.fuses ∧ (reinitialise x0 x1).shelfSkips = x0.shelfSkips ∧
    (reinitialise x0 x1).shelfCuts = x0.shelfCuts ∧ (reinitialise x0 x1).free = x0.free ∧ (reinitialise x0 x1).pending = x0.pending := by simp [reinitialise]

theorem execLinkReinitialise_frame (x0 x1) : ∀ t, (execLinkReinitialise x0 x1) = .next t → t.store = x1.store ∧ t.tier = x1.tier ∧
    t.engines = x1.engines ∧ t.gen = x1.gen ∧ t.text = x1.text ∧ t.pair = x1.pair ∧ t.flash = x1.flash ∧ t.power = x1.power ∧
    t.limits = x1.limits ∧ t.fuses = x1.fuses ∧ t.shelfSkips = x1.shelfSkips ∧ t.shelfCuts = x1.shelfCuts ∧ t.free = x1.free ∧
    t.pending = x1.pending := by simp [execLinkReinitialise]

@[simp] theorem resumeLink_frame (x0 x1) : (resumeLink x0 x1).store = x0.store ∧ (resumeLink x0 x1).tier = x0.tier ∧
    (resumeLink x0 x1).engines = x0.engines ∧ (resumeLink x0 x1).gen = x0.gen ∧ (resumeLink x0 x1).text = x0.text ∧
    (resumeLink x0 x1).pair = x0.pair ∧ (resumeLink x0 x1).flash = x0.flash ∧ (resumeLink x0 x1).bureau = x0.bureau ∧
    (resumeLink x0 x1).power = x0.power ∧ (resumeLink x0 x1).limits = x0.limits ∧ (resumeLink x0 x1).fuses = x0.fuses ∧
    (resumeLink x0 x1).shelfSkips = x0.shelfSkips ∧ (resumeLink x0 x1).shelfCuts = x0.shelfCuts ∧ (resumeLink x0 x1).free = x0.free ∧
    (resumeLink x0 x1).pending = x0.pending := by simp [resumeLink]

@[simp] theorem reinitDone_frame (x0 x1) : (reinitDone x0 x1).store = x0.store ∧ (reinitDone x0 x1).tier = x0.tier ∧
    (reinitDone x0 x1).engines = x0.engines ∧ (reinitDone x0 x1).gen = x0.gen ∧ (reinitDone x0 x1).text = x0.text ∧
    (reinitDone x0 x1).pair = x0.pair ∧ (reinitDone x0 x1).flash = x0.flash ∧ (reinitDone x0 x1).bureau = x0.bureau ∧
    (reinitDone x0 x1).power = x0.power ∧ (reinitDone x0 x1).limits = x0.limits ∧ (reinitDone x0 x1).fuses = x0.fuses ∧
    (reinitDone x0 x1).shelfSkips = x0.shelfSkips ∧ (reinitDone x0 x1).shelfCuts = x0.shelfCuts ∧ (reinitDone x0 x1).free = x0.free ∧
    (reinitDone x0 x1).pending = x0.pending := by simp [reinitDone]

theorem execLinkReinitDone_frame (x0 x1) : ∀ t, (execLinkReinitDone x0 x1) = .next t → t.store = x1.store ∧ t.tier = x1.tier ∧
    t.engines = x1.engines ∧ t.gen = x1.gen ∧ t.text = x1.text ∧ t.pair = x1.pair ∧ t.flash = x1.flash ∧ t.bureau = x1.bureau ∧
    t.power = x1.power ∧ t.limits = x1.limits ∧ t.fuses = x1.fuses ∧ t.shelfSkips = x1.shelfSkips ∧ t.shelfCuts = x1.shelfCuts ∧
    t.free = x1.free ∧ t.pending = x1.pending := by simp [execLinkReinitDone]

@[simp] theorem hubQueue_frame (x0 x1 x2 x3 x4) : (hubQueue x0 x1 x2 x3 x4).store = x0.store ∧ (hubQueue x0 x1 x2 x3 x4).tier = x0.tier ∧
    (hubQueue x0 x1 x2 x3 x4).engines = x0.engines ∧ (hubQueue x0 x1 x2 x3 x4).host = x0.host ∧ (hubQueue x0 x1 x2 x3 x4).gen = x0.gen ∧
    (hubQueue x0 x1 x2 x3 x4).text = x0.text ∧ (hubQueue x0 x1 x2 x3 x4).pair = x0.pair ∧ (hubQueue x0 x1 x2 x3 x4).flash = x0.flash ∧
    (hubQueue x0 x1 x2 x3 x4).bureau = x0.bureau ∧ (hubQueue x0 x1 x2 x3 x4).power = x0.power ∧ (hubQueue x0 x1 x2 x3 x4).limits = x0.limits ∧
    (hubQueue x0 x1 x2 x3 x4).fuses = x0.fuses ∧ (hubQueue x0 x1 x2 x3 x4).shelfSkips = x0.shelfSkips ∧
    (hubQueue x0 x1 x2 x3 x4).shelfCuts = x0.shelfCuts ∧ (hubQueue x0 x1 x2 x3 x4).free = x0.free ∧
    (hubQueue x0 x1 x2 x3 x4).pending = x0.pending := by simp [hubQueue]

@[simp] theorem freeBuffer_frame (x0 x1 x2 x3) : (freeBuffer x0 x1 x2 x3).store = x0.store ∧ (freeBuffer x0 x1 x2 x3).tier = x0.tier ∧
    (freeBuffer x0 x1 x2 x3).engines = x0.engines ∧ (freeBuffer x0 x1 x2 x3).host = x0.host ∧ (freeBuffer x0 x1 x2 x3).gen = x0.gen ∧
    (freeBuffer x0 x1 x2 x3).text = x0.text ∧ (freeBuffer x0 x1 x2 x3).pair = x0.pair ∧ (freeBuffer x0 x1 x2 x3).flash = x0.flash ∧
    (freeBuffer x0 x1 x2 x3).bureau = x0.bureau ∧ (freeBuffer x0 x1 x2 x3).power = x0.power ∧ (freeBuffer x0 x1 x2 x3).limits = x0.limits ∧
    (freeBuffer x0 x1 x2 x3).fuses = x0.fuses ∧ (freeBuffer x0 x1 x2 x3).shelfSkips = x0.shelfSkips ∧
    (freeBuffer x0 x1 x2 x3).shelfCuts = x0.shelfCuts ∧ (freeBuffer x0 x1 x2 x3).free = x0.free ∧
    (freeBuffer x0 x1 x2 x3).pending = x0.pending := by
  unfold freeBuffer
  repeat' split
  all_goals ((try simp only [Prod.ext_iff] at *); (try casesm* _ ∧ _); (try subst_vars); first | (simp; done) | (simp_all; done) | skip)

@[simp] theorem hubGrant_frame (x0 x1 x2) : (hubGrant x0 x1 x2).store = x0.store ∧ (hubGrant x0 x1 x2).tier = x0.tier ∧
    (hubGrant x0 x1 x2).engines = x0.engines ∧ (hubGrant x0 x1 x2).gen = x0.gen ∧ (hubGrant x0 x1 x2).text = x0.text ∧
    (hubGrant x0 x1 x2).pair = x0.pair ∧ (hubGrant x0 x1 x2).flash = x0.flash ∧ (hubGrant x0 x1 x2).bureau = x0.bureau ∧
    (hubGrant x0 x1 x2).power = x0.power ∧ (hubGrant x0 x1 x2).limits = x0.limits ∧ (hubGrant x0 x1 x2).fuses = x0.fuses ∧
    (hubGrant x0 x1 x2).shelfSkips = x0.shelfSkips ∧ (hubGrant x0 x1 x2).shelfCuts = x0.shelfCuts ∧ (hubGrant x0 x1 x2).pending = x0.pending := by
  simp only [hubGrant]
  repeat' split
  all_goals ((try simp only [Prod.ext_iff] at *); (try casesm* _ ∧ _); (try subst_vars); first | (simp; done) | (simp_all; done) | skip)

theorem execHubFlitGrant_frame (x0 x1 x2) : ∀ t, (execHubFlitGrant x0 x1 x2) = .next t → t.store = x2.store ∧ t.tier = x2.tier ∧
    t.engines = x2.engines ∧ t.gen = x2.gen ∧ t.text = x2.text ∧ t.pair = x2.pair ∧ t.flash = x2.flash ∧ t.bureau = x2.bureau ∧
    t.power = x2.power ∧ t.limits = x2.limits ∧ t.fuses = x2.fuses ∧ t.shelfSkips = x2.shelfSkips ∧ t.shelfCuts = x2.shelfCuts ∧
    t.pending = x2.pending := by simp [execHubFlitGrant]

@[simp] theorem moveTraffic_frame (x0 x1) : (moveTraffic x0 x1).store = x0.store ∧ (moveTraffic x0 x1).tier = x0.tier ∧
    (moveTraffic x0 x1).engines = x0.engines ∧ (moveTraffic x0 x1).gen = x0.gen ∧ (moveTraffic x0 x1).text = x0.text ∧
    (moveTraffic x0 x1).pair = x0.pair ∧ (moveTraffic x0 x1).flash = x0.flash ∧ (moveTraffic x0 x1).bureau = x0.bureau ∧
    (moveTraffic x0 x1).power = x0.power ∧ (moveTraffic x0 x1).limits = x0.limits ∧ (moveTraffic x0 x1).fuses = x0.fuses ∧
    (moveTraffic x0 x1).shelfSkips = x0.shelfSkips ∧ (moveTraffic x0 x1).shelfCuts = x0.shelfCuts ∧ (moveTraffic x0 x1).free = x0.free ∧
    (moveTraffic x0 x1).pending = x0.pending := by
  unfold moveTraffic
  repeat' split
  all_goals ((try simp only [Prod.ext_iff] at *); (try casesm* _ ∧ _); (try subst_vars); first | (simp; done) | (simp_all; done) | skip)

@[simp] theorem noteSecure_frame (x0 x1) : (noteSecure x0 x1).store = x0.store ∧ (noteSecure x0 x1).tier = x0.tier ∧
    (noteSecure x0 x1).engines = x0.engines ∧ (noteSecure x0 x1).host = x0.host ∧ (noteSecure x0 x1).gen = x0.gen ∧
    (noteSecure x0 x1).text = x0.text ∧ (noteSecure x0 x1).pair = x0.pair ∧ (noteSecure x0 x1).flash = x0.flash ∧
    (noteSecure x0 x1).bureau = x0.bureau ∧ (noteSecure x0 x1).power = x0.power ∧ (noteSecure x0 x1).limits = x0.limits ∧
    (noteSecure x0 x1).fuses = x0.fuses ∧ (noteSecure x0 x1).shelfSkips = x0.shelfSkips ∧ (noteSecure x0 x1).shelfCuts = x0.shelfCuts ∧
    (noteSecure x0 x1).free = x0.free ∧ (noteSecure x0 x1).pending = x0.pending := by simp [noteSecure]

@[simp] theorem dropForWorld_frame (x0 x1 x2) : (dropForWorld x0 x1 x2).store = x0.store ∧ (dropForWorld x0 x1 x2).tier = x0.tier ∧
    (dropForWorld x0 x1 x2).engines = x0.engines ∧ (dropForWorld x0 x1 x2).gen = x0.gen ∧ (dropForWorld x0 x1 x2).text = x0.text ∧
    (dropForWorld x0 x1 x2).pair = x0.pair ∧ (dropForWorld x0 x1 x2).flash = x0.flash ∧ (dropForWorld x0 x1 x2).power = x0.power ∧
    (dropForWorld x0 x1 x2).limits = x0.limits ∧ (dropForWorld x0 x1 x2).fuses = x0.fuses ∧
    (dropForWorld x0 x1 x2).shelfSkips = x0.shelfSkips ∧ (dropForWorld x0 x1 x2).shelfCuts = x0.shelfCuts ∧
    (dropForWorld x0 x1 x2).free = x0.free ∧ (dropForWorld x0 x1 x2).pending = x0.pending := by simp [dropForWorld]

@[simp] theorem sendDown_frame (x0 x1 x2 x3) : (sendDown x0 x1 x2 x3).store = x0.store ∧ (sendDown x0 x1 x2 x3).tier = x0.tier ∧
    (sendDown x0 x1 x2 x3).engines = x0.engines ∧ (sendDown x0 x1 x2 x3).host = x0.host ∧ (sendDown x0 x1 x2 x3).gen = x0.gen ∧
    (sendDown x0 x1 x2 x3).text = x0.text ∧ (sendDown x0 x1 x2 x3).pair = x0.pair ∧ (sendDown x0 x1 x2 x3).flash = x0.flash ∧
    (sendDown x0 x1 x2 x3).bureau = x0.bureau ∧ (sendDown x0 x1 x2 x3).power = x0.power ∧ (sendDown x0 x1 x2 x3).limits = x0.limits ∧
    (sendDown x0 x1 x2 x3).fuses = x0.fuses ∧ (sendDown x0 x1 x2 x3).shelfSkips = x0.shelfSkips ∧
    (sendDown x0 x1 x2 x3).shelfCuts = x0.shelfCuts ∧ (sendDown x0 x1 x2 x3).free = x0.free ∧ (sendDown x0 x1 x2 x3).pending = x0.pending := by simp [sendDown]

@[simp] theorem sendDownAll_frame (x0 x1 x2 x3) : (sendDownAll x0 x1 x2 x3).store = x0.store ∧ (sendDownAll x0 x1 x2 x3).tier = x0.tier ∧
    (sendDownAll x0 x1 x2 x3).engines = x0.engines ∧ (sendDownAll x0 x1 x2 x3).gen = x0.gen ∧ (sendDownAll x0 x1 x2 x3).text = x0.text ∧
    (sendDownAll x0 x1 x2 x3).pair = x0.pair ∧ (sendDownAll x0 x1 x2 x3).flash = x0.flash ∧ (sendDownAll x0 x1 x2 x3).power = x0.power ∧
    (sendDownAll x0 x1 x2 x3).limits = x0.limits ∧ (sendDownAll x0 x1 x2 x3).fuses = x0.fuses ∧
    (sendDownAll x0 x1 x2 x3).shelfSkips = x0.shelfSkips ∧ (sendDownAll x0 x1 x2 x3).shelfCuts = x0.shelfCuts ∧
    (sendDownAll x0 x1 x2 x3).free = x0.free ∧ (sendDownAll x0 x1 x2 x3).pending = x0.pending := by simp [sendDownAll]

@[simp] theorem ringHop_frame (x0 x1 x2 x3) : (ringHop x0 x1 x2 x3).store = x0.store ∧ (ringHop x0 x1 x2 x3).tier = x0.tier ∧
    (ringHop x0 x1 x2 x3).engines = x0.engines ∧ (ringHop x0 x1 x2 x3).gen = x0.gen ∧ (ringHop x0 x1 x2 x3).text = x0.text ∧
    (ringHop x0 x1 x2 x3).pair = x0.pair ∧ (ringHop x0 x1 x2 x3).flash = x0.flash ∧ (ringHop x0 x1 x2 x3).power = x0.power ∧
    (ringHop x0 x1 x2 x3).limits = x0.limits ∧ (ringHop x0 x1 x2 x3).fuses = x0.fuses ∧ (ringHop x0 x1 x2 x3).shelfSkips = x0.shelfSkips ∧
    (ringHop x0 x1 x2 x3).shelfCuts = x0.shelfCuts ∧ (ringHop x0 x1 x2 x3).free = x0.free ∧ (ringHop x0 x1 x2 x3).pending = x0.pending := by simp [ringHop]

theorem execControlRingHop_frame (x0 x1 x2 x3) : ∀ t, (execControlRingHop x0 x1 x2 x3) = .next t → t.store = x3.store ∧ t.tier = x3.tier ∧
    t.engines = x3.engines ∧ t.gen = x3.gen ∧ t.text = x3.text ∧ t.pair = x3.pair ∧ t.flash = x3.flash ∧ t.power = x3.power ∧
    t.limits = x3.limits ∧ t.fuses = x3.fuses ∧ t.shelfSkips = x3.shelfSkips ∧ t.shelfCuts = x3.shelfCuts ∧ t.free = x3.free ∧
    t.pending = x3.pending := by simp [execControlRingHop]

@[simp] theorem fenceReq_frame (x0 x1 x2) : (fenceReq x0 x1 x2).store = x0.store ∧ (fenceReq x0 x1 x2).tier = x0.tier ∧
    (fenceReq x0 x1 x2).engines = x0.engines ∧ (fenceReq x0 x1 x2).gen = x0.gen ∧ (fenceReq x0 x1 x2).text = x0.text ∧
    (fenceReq x0 x1 x2).pair = x0.pair ∧ (fenceReq x0 x1 x2).flash = x0.flash ∧ (fenceReq x0 x1 x2).bureau = x0.bureau ∧
    (fenceReq x0 x1 x2).power = x0.power ∧ (fenceReq x0 x1 x2).limits = x0.limits ∧ (fenceReq x0 x1 x2).fuses = x0.fuses ∧
    (fenceReq x0 x1 x2).shelfSkips = x0.shelfSkips ∧ (fenceReq x0 x1 x2).shelfCuts = x0.shelfCuts ∧ (fenceReq x0 x1 x2).free = x0.free ∧
    (fenceReq x0 x1 x2).pending = x0.pending := by simp [fenceReq]

theorem execFenceReq_frame (x0 x1 x2) : ∀ t, (execFenceReq x0 x1 x2) = .next t → t.store = x2.store ∧ t.tier = x2.tier ∧
    t.engines = x2.engines ∧ t.gen = x2.gen ∧ t.text = x2.text ∧ t.pair = x2.pair ∧ t.flash = x2.flash ∧ t.bureau = x2.bureau ∧
    t.power = x2.power ∧ t.limits = x2.limits ∧ t.fuses = x2.fuses ∧ t.shelfSkips = x2.shelfSkips ∧ t.shelfCuts = x2.shelfCuts ∧
    t.free = x2.free ∧ t.pending = x2.pending := by simp [execFenceReq]

@[simp] theorem modFence_frame (x0 x1 x2) : (modFence x0 x1 x2).store = x0.store ∧ (modFence x0 x1 x2).tier = x0.tier ∧
    (modFence x0 x1 x2).engines = x0.engines ∧ (modFence x0 x1 x2).host = x0.host ∧ (modFence x0 x1 x2).gen = x0.gen ∧
    (modFence x0 x1 x2).text = x0.text ∧ (modFence x0 x1 x2).pair = x0.pair ∧ (modFence x0 x1 x2).flash = x0.flash ∧
    (modFence x0 x1 x2).bureau = x0.bureau ∧ (modFence x0 x1 x2).power = x0.power ∧ (modFence x0 x1 x2).limits = x0.limits ∧
    (modFence x0 x1 x2).fuses = x0.fuses ∧ (modFence x0 x1 x2).shelfSkips = x0.shelfSkips ∧ (modFence x0 x1 x2).shelfCuts = x0.shelfCuts ∧
    (modFence x0 x1 x2).free = x0.free ∧ (modFence x0 x1 x2).pending = x0.pending := by
  unfold modFence
  repeat' split
  all_goals ((try simp only [Prod.ext_iff] at *); (try casesm* _ ∧ _); (try subst_vars); first | (simp; done) | (simp_all; done) | skip)

@[simp] theorem markerArrives_frame (x0 x1 x2 x3) : (markerArrives x0 x1 x2 x3).store = x0.store ∧
    (markerArrives x0 x1 x2 x3).tier = x0.tier ∧ (markerArrives x0 x1 x2 x3).engines = x0.engines ∧
    (markerArrives x0 x1 x2 x3).host = x0.host ∧ (markerArrives x0 x1 x2 x3).gen = x0.gen ∧ (markerArrives x0 x1 x2 x3).text = x0.text ∧
    (markerArrives x0 x1 x2 x3).pair = x0.pair ∧ (markerArrives x0 x1 x2 x3).flash = x0.flash ∧
    (markerArrives x0 x1 x2 x3).bureau = x0.bureau ∧ (markerArrives x0 x1 x2 x3).power = x0.power ∧
    (markerArrives x0 x1 x2 x3).limits = x0.limits ∧ (markerArrives x0 x1 x2 x3).fuses = x0.fuses ∧
    (markerArrives x0 x1 x2 x3).shelfSkips = x0.shelfSkips ∧ (markerArrives x0 x1 x2 x3).shelfCuts = x0.shelfCuts ∧
    (markerArrives x0 x1 x2 x3).free = x0.free ∧ (markerArrives x0 x1 x2 x3).pending = x0.pending := by simp [markerArrives]

@[simp] theorem fenceAnswer_frame (x0 x1 x2 x3 x4) : (fenceAnswer x0 x1 x2 x3 x4).store = x0.store ∧
    (fenceAnswer x0 x1 x2 x3 x4).tier = x0.tier ∧ (fenceAnswer x0 x1 x2 x3 x4).engines = x0.engines ∧
    (fenceAnswer x0 x1 x2 x3 x4).host = x0.host ∧ (fenceAnswer x0 x1 x2 x3 x4).gen = x0.gen ∧ (fenceAnswer x0 x1 x2 x3 x4).text = x0.text ∧
    (fenceAnswer x0 x1 x2 x3 x4).pair = x0.pair ∧ (fenceAnswer x0 x1 x2 x3 x4).flash = x0.flash ∧
    (fenceAnswer x0 x1 x2 x3 x4).bureau = x0.bureau ∧ (fenceAnswer x0 x1 x2 x3 x4).power = x0.power ∧
    (fenceAnswer x0 x1 x2 x3 x4).limits = x0.limits ∧ (fenceAnswer x0 x1 x2 x3 x4).fuses = x0.fuses ∧
    (fenceAnswer x0 x1 x2 x3 x4).shelfSkips = x0.shelfSkips ∧ (fenceAnswer x0 x1 x2 x3 x4).shelfCuts = x0.shelfCuts ∧
    (fenceAnswer x0 x1 x2 x3 x4).free = x0.free ∧ (fenceAnswer x0 x1 x2 x3 x4).pending = x0.pending := by simp [fenceAnswer]

theorem execFenceMarkerAnswer_frame (x0 x1 x2 x3 x4) : ∀ t, (execFenceMarkerAnswer x0 x1 x2 x3 x4) = .next t → t.store = x4.store ∧
    t.tier = x4.tier ∧ t.engines = x4.engines ∧ t.host = x4.host ∧ t.gen = x4.gen ∧ t.text = x4.text ∧ t.pair = x4.pair ∧ t.flash = x4.flash ∧
    t.bureau = x4.bureau ∧ t.power = x4.power ∧ t.limits = x4.limits ∧ t.fuses = x4.fuses ∧ t.shelfSkips = x4.shelfSkips ∧
    t.shelfCuts = x4.shelfCuts ∧ t.free = x4.free ∧ t.pending = x4.pending := by simp [execFenceMarkerAnswer]

@[simp] theorem startDrain_frame (x0 x1 x2) : (startDrain x0 x1 x2).tier = x0.tier ∧ (startDrain x0 x1 x2).engines = x0.engines ∧
    (startDrain x0 x1 x2).host = x0.host ∧ (startDrain x0 x1 x2).gen = x0.gen ∧ (startDrain x0 x1 x2).text = x0.text ∧
    (startDrain x0 x1 x2).pair = x0.pair ∧ (startDrain x0 x1 x2).flash = x0.flash ∧ (startDrain x0 x1 x2).bureau = x0.bureau ∧
    (startDrain x0 x1 x2).power = x0.power ∧ (startDrain x0 x1 x2).limits = x0.limits ∧ (startDrain x0 x1 x2).fuses = x0.fuses ∧
    (startDrain x0 x1 x2).shelfSkips = x0.shelfSkips ∧ (startDrain x0 x1 x2).shelfCuts = x0.shelfCuts ∧ (startDrain x0 x1 x2).free = x0.free ∧
    (startDrain x0 x1 x2).pending = x0.pending := by simp [startDrain]

@[simp] theorem startWaiting_frame (x0 x1) : (startWaiting x0 x1).tier = x0.tier ∧ (startWaiting x0 x1).engines = x0.engines ∧
    (startWaiting x0 x1).host = x0.host ∧ (startWaiting x0 x1).gen = x0.gen ∧ (startWaiting x0 x1).text = x0.text ∧
    (startWaiting x0 x1).pair = x0.pair ∧ (startWaiting x0 x1).flash = x0.flash ∧ (startWaiting x0 x1).bureau = x0.bureau ∧
    (startWaiting x0 x1).power = x0.power ∧ (startWaiting x0 x1).limits = x0.limits ∧ (startWaiting x0 x1).fuses = x0.fuses ∧
    (startWaiting x0 x1).shelfSkips = x0.shelfSkips ∧ (startWaiting x0 x1).shelfCuts = x0.shelfCuts ∧ (startWaiting x0 x1).free = x0.free ∧
    (startWaiting x0 x1).pending = x0.pending := by
  unfold startWaiting
  repeat' split
  all_goals (refine ⟨?_, ?_, ?_, ?_, ?_, ?_, ?_, ?_, ?_, ?_, ?_, ?_, ?_, ?_, ?_⟩)
  all_goals (try (first | refine (State.foldl_tier (fun _ _ => ?_) _ _).trans ?_ | refine (State.foldl_engines (fun _ _ => ?_) _ _).trans ?_ | refine (State.foldl_host (fun _ _ => ?_) _ _).trans ?_ | refine (State.foldl_gen (fun _ _ => ?_) _ _).trans ?_ | refine (State.foldl_text (fun _ _ => ?_) _ _).trans ?_ | refine (State.foldl_pair (fun _ _ => ?_) _ _).trans ?_ | refine (State.foldl_flash (fun _ _ => ?_) _ _).trans ?_ | refine (State.foldl_bureau (fun _ _ => ?_) _ _).trans ?_ | refine (State.foldl_power (fun _ _ => ?_) _ _).trans ?_ | refine (State.foldl_limits (fun _ _ => ?_) _ _).trans ?_ | refine (State.foldl_fuses (fun _ _ => ?_) _ _).trans ?_ | refine (State.foldl_shelfSkips (fun _ _ => ?_) _ _).trans ?_ | refine (State.foldl_shelfCuts (fun _ _ => ?_) _ _).trans ?_ | refine (State.foldl_free (fun _ _ => ?_) _ _).trans ?_ | refine (State.foldl_pending (fun _ _ => ?_) _ _).trans ?_ ))
  all_goals (repeat' split)
  all_goals ((try simp only [Prod.ext_iff] at *); (try casesm* _ ∧ _); (try subst_vars); first | (simp; done) | (simp_all; done) | skip)

@[simp] theorem fenceDone_frame (x0 x1 x2 x3) : (fenceDone x0 x1 x2 x3).tier = x0.tier ∧ (fenceDone x0 x1 x2 x3).engines = x0.engines ∧
    (fenceDone x0 x1 x2 x3).host = x0.host ∧ (fenceDone x0 x1 x2 x3).gen = x0.gen ∧ (fenceDone x0 x1 x2 x3).text = x0.text ∧
    (fenceDone x0 x1 x2 x3).pair = x0.pair ∧ (fenceDone x0 x1 x2 x3).flash = x0.flash ∧ (fenceDone x0 x1 x2 x3).bureau = x0.bureau ∧
    (fenceDone x0 x1 x2 x3).power = x0.power ∧ (fenceDone x0 x1 x2 x3).limits = x0.limits ∧ (fenceDone x0 x1 x2 x3).fuses = x0.fuses ∧
    (fenceDone x0 x1 x2 x3).shelfSkips = x0.shelfSkips ∧ (fenceDone x0 x1 x2 x3).shelfCuts = x0.shelfCuts ∧
    (fenceDone x0 x1 x2 x3).free = x0.free ∧ (fenceDone x0 x1 x2 x3).pending = x0.pending := by
  simp only [fenceDone]
  repeat' split
  all_goals ((try simp only [Prod.ext_iff] at *); (try casesm* _ ∧ _); (try subst_vars); (try simp))

theorem execFenceDone_frame (x0 x1 x2 x3) : ∀ t, (execFenceDone x0 x1 x2 x3) = .next t → t.tier = x3.tier ∧ t.engines = x3.engines ∧
    t.host = x3.host ∧ t.gen = x3.gen ∧ t.text = x3.text ∧ t.pair = x3.pair ∧ t.flash = x3.flash ∧ t.bureau = x3.bureau ∧ t.power = x3.power ∧
    t.limits = x3.limits ∧ t.fuses = x3.fuses ∧ t.shelfSkips = x3.shelfSkips ∧ t.shelfCuts = x3.shelfCuts ∧ t.free = x3.free ∧
    t.pending = x3.pending := by simp [execFenceDone]

@[simp] theorem resetFences_frame (x0 x1) : (resetFences x0 x1).store = x0.store ∧ (resetFences x0 x1).tier = x0.tier ∧
    (resetFences x0 x1).engines = x0.engines ∧ (resetFences x0 x1).host = x0.host ∧ (resetFences x0 x1).gen = x0.gen ∧
    (resetFences x0 x1).text = x0.text ∧ (resetFences x0 x1).pair = x0.pair ∧ (resetFences x0 x1).flash = x0.flash ∧
    (resetFences x0 x1).bureau = x0.bureau ∧ (resetFences x0 x1).power = x0.power ∧ (resetFences x0 x1).limits = x0.limits ∧
    (resetFences x0 x1).fuses = x0.fuses ∧ (resetFences x0 x1).shelfSkips = x0.shelfSkips ∧ (resetFences x0 x1).shelfCuts = x0.shelfCuts ∧
    (resetFences x0 x1).free = x0.free ∧ (resetFences x0 x1).pending = x0.pending := by simp [resetFences]

@[simp] theorem quiesceReq_frame (x0 x1) : (quiesceReq x0 x1).tier = x0.tier ∧ (quiesceReq x0 x1).engines = x0.engines ∧
    (quiesceReq x0 x1).host = x0.host ∧ (quiesceReq x0 x1).gen = x0.gen ∧ (quiesceReq x0 x1).text = x0.text ∧
    (quiesceReq x0 x1).pair = x0.pair ∧ (quiesceReq x0 x1).flash = x0.flash ∧ (quiesceReq x0 x1).bureau = x0.bureau ∧
    (quiesceReq x0 x1).power = x0.power ∧ (quiesceReq x0 x1).limits = x0.limits ∧ (quiesceReq x0 x1).fuses = x0.fuses ∧
    (quiesceReq x0 x1).shelfSkips = x0.shelfSkips ∧ (quiesceReq x0 x1).shelfCuts = x0.shelfCuts ∧ (quiesceReq x0 x1).free = x0.free ∧
    (quiesceReq x0 x1).pending = x0.pending := by
  unfold quiesceReq
  repeat' split
  all_goals ((try simp only [Prod.ext_iff] at *); (try casesm* _ ∧ _); (try subst_vars); first | (simp; done) | (simp_all; done) | skip)

theorem execQuiesceReq_frame (x0 x1) : ∀ t, (execQuiesceReq x0 x1) = .next t → t.tier = x1.tier ∧ t.engines = x1.engines ∧ t.host = x1.host ∧
    t.gen = x1.gen ∧ t.text = x1.text ∧ t.pair = x1.pair ∧ t.flash = x1.flash ∧ t.bureau = x1.bureau ∧ t.power = x1.power ∧
    t.limits = x1.limits ∧ t.fuses = x1.fuses ∧ t.shelfSkips = x1.shelfSkips ∧ t.shelfCuts = x1.shelfCuts ∧ t.free = x1.free ∧
    t.pending = x1.pending := by simp [execQuiesceReq]

@[simp] theorem blockQuiet_frame (x0 x1) : (blockQuiet x0 x1).store = x0.store ∧ (blockQuiet x0 x1).tier = x0.tier ∧
    (blockQuiet x0 x1).engines = x0.engines ∧ (blockQuiet x0 x1).host = x0.host ∧ (blockQuiet x0 x1).gen = x0.gen ∧
    (blockQuiet x0 x1).text = x0.text ∧ (blockQuiet x0 x1).pair = x0.pair ∧ (blockQuiet x0 x1).flash = x0.flash ∧
    (blockQuiet x0 x1).bureau = x0.bureau ∧ (blockQuiet x0 x1).power = x0.power ∧ (blockQuiet x0 x1).limits = x0.limits ∧
    (blockQuiet x0 x1).fuses = x0.fuses ∧ (blockQuiet x0 x1).shelfSkips = x0.shelfSkips ∧ (blockQuiet x0 x1).shelfCuts = x0.shelfCuts ∧
    (blockQuiet x0 x1).free = x0.free ∧ (blockQuiet x0 x1).pending = x0.pending := by unfold blockQuiet; split <;> simp

theorem execBlockQuiet_frame (x0 x1) : ∀ t, (execBlockQuiet x0 x1) = .next t → t.store = x1.store ∧ t.tier = x1.tier ∧
    t.engines = x1.engines ∧ t.host = x1.host ∧ t.gen = x1.gen ∧ t.text = x1.text ∧ t.pair = x1.pair ∧ t.flash = x1.flash ∧
    t.bureau = x1.bureau ∧ t.power = x1.power ∧ t.limits = x1.limits ∧ t.fuses = x1.fuses ∧ t.shelfSkips = x1.shelfSkips ∧
    t.shelfCuts = x1.shelfCuts ∧ t.free = x1.free ∧ t.pending = x1.pending := by simp [execBlockQuiet]

@[simp] theorem quiesceDone_frame (x0 x1) : (quiesceDone x0 x1).store = x0.store ∧ (quiesceDone x0 x1).tier = x0.tier ∧
    (quiesceDone x0 x1).engines = x0.engines ∧ (quiesceDone x0 x1).host = x0.host ∧ (quiesceDone x0 x1).gen = x0.gen ∧
    (quiesceDone x0 x1).text = x0.text ∧ (quiesceDone x0 x1).pair = x0.pair ∧ (quiesceDone x0 x1).flash = x0.flash ∧
    (quiesceDone x0 x1).bureau = x0.bureau ∧ (quiesceDone x0 x1).power = x0.power ∧ (quiesceDone x0 x1).limits = x0.limits ∧
    (quiesceDone x0 x1).fuses = x0.fuses ∧ (quiesceDone x0 x1).shelfSkips = x0.shelfSkips ∧ (quiesceDone x0 x1).shelfCuts = x0.shelfCuts ∧
    (quiesceDone x0 x1).free = x0.free ∧ (quiesceDone x0 x1).pending = x0.pending := by unfold quiesceDone; split <;> simp

theorem execQuiesceDone_frame (x0 x1) : ∀ t, (execQuiesceDone x0 x1) = .next t → t.store = x1.store ∧ t.tier = x1.tier ∧
    t.engines = x1.engines ∧ t.host = x1.host ∧ t.gen = x1.gen ∧ t.text = x1.text ∧ t.pair = x1.pair ∧ t.flash = x1.flash ∧
    t.bureau = x1.bureau ∧ t.power = x1.power ∧ t.limits = x1.limits ∧ t.fuses = x1.fuses ∧ t.shelfSkips = x1.shelfSkips ∧
    t.shelfCuts = x1.shelfCuts ∧ t.free = x1.free ∧ t.pending = x1.pending := by simp [execQuiesceDone]

@[simp] theorem recordHung_frame (x0 x1) : (recordHung x0 x1).store = x0.store ∧ (recordHung x0 x1).tier = x0.tier ∧
    (recordHung x0 x1).engines = x0.engines ∧ (recordHung x0 x1).gen = x0.gen ∧ (recordHung x0 x1).text = x0.text ∧
    (recordHung x0 x1).pair = x0.pair ∧ (recordHung x0 x1).flash = x0.flash ∧ (recordHung x0 x1).power = x0.power ∧
    (recordHung x0 x1).limits = x0.limits ∧ (recordHung x0 x1).fuses = x0.fuses ∧ (recordHung x0 x1).shelfSkips = x0.shelfSkips ∧
    (recordHung x0 x1).shelfCuts = x0.shelfCuts ∧ (recordHung x0 x1).free = x0.free ∧ (recordHung x0 x1).pending = x0.pending := by simp [recordHung]

@[simp] theorem endQuiesce_frame (x0 x1) : (endQuiesce x0 x1).store = x0.store ∧ (endQuiesce x0 x1).tier = x0.tier ∧
    (endQuiesce x0 x1).engines = x0.engines ∧ (endQuiesce x0 x1).host = x0.host ∧ (endQuiesce x0 x1).gen = x0.gen ∧
    (endQuiesce x0 x1).text = x0.text ∧ (endQuiesce x0 x1).pair = x0.pair ∧ (endQuiesce x0 x1).flash = x0.flash ∧
    (endQuiesce x0 x1).bureau = x0.bureau ∧ (endQuiesce x0 x1).power = x0.power ∧ (endQuiesce x0 x1).limits = x0.limits ∧
    (endQuiesce x0 x1).fuses = x0.fuses ∧ (endQuiesce x0 x1).shelfSkips = x0.shelfSkips ∧ (endQuiesce x0 x1).shelfCuts = x0.shelfCuts ∧
    (endQuiesce x0 x1).free = x0.free ∧ (endQuiesce x0 x1).pending = x0.pending := by
  unfold endQuiesce
  repeat' split
  all_goals ((try simp only [Prod.ext_iff] at *); (try casesm* _ ∧ _); (try subst_vars); first | (simp; done) | (simp_all; done) | skip)

@[simp] theorem resetRelease_frame (x0 x1 x2) : (resetRelease x0 x1 x2).store = x0.store ∧ (resetRelease x0 x1 x2).tier = x0.tier ∧
    (resetRelease x0 x1 x2).engines = x0.engines ∧ (resetRelease x0 x1 x2).host = x0.host ∧ (resetRelease x0 x1 x2).gen = x0.gen ∧
    (resetRelease x0 x1 x2).text = x0.text ∧ (resetRelease x0 x1 x2).pair = x0.pair ∧ (resetRelease x0 x1 x2).flash = x0.flash ∧
    (resetRelease x0 x1 x2).bureau = x0.bureau ∧ (resetRelease x0 x1 x2).power = x0.power ∧ (resetRelease x0 x1 x2).limits = x0.limits ∧
    (resetRelease x0 x1 x2).fuses = x0.fuses ∧ (resetRelease x0 x1 x2).shelfSkips = x0.shelfSkips ∧
    (resetRelease x0 x1 x2).shelfCuts = x0.shelfCuts ∧ (resetRelease x0 x1 x2).free = x0.free ∧ (resetRelease x0 x1 x2).pending = x0.pending := by simp [resetRelease]

theorem execResetRelease_frame (x0 x1 x2) : ∀ t, (execResetRelease x0 x1 x2) = .next t → t.store = x2.store ∧ t.tier = x2.tier ∧
    t.engines = x2.engines ∧ t.host = x2.host ∧ t.gen = x2.gen ∧ t.text = x2.text ∧ t.pair = x2.pair ∧ t.flash = x2.flash ∧
    t.bureau = x2.bureau ∧ t.power = x2.power ∧ t.limits = x2.limits ∧ t.fuses = x2.fuses ∧ t.shelfSkips = x2.shelfSkips ∧
    t.shelfCuts = x2.shelfCuts ∧ t.free = x2.free ∧ t.pending = x2.pending := by simp [execResetRelease]

@[simp] theorem rateSample_frame (x0 x1 x2) : (rateSample x0 x1 x2).store = x0.store ∧ (rateSample x0 x1 x2).tier = x0.tier ∧
    (rateSample x0 x1 x2).engines = x0.engines ∧ (rateSample x0 x1 x2).gen = x0.gen ∧ (rateSample x0 x1 x2).text = x0.text ∧
    (rateSample x0 x1 x2).pair = x0.pair ∧ (rateSample x0 x1 x2).flash = x0.flash ∧ (rateSample x0 x1 x2).power = x0.power ∧
    (rateSample x0 x1 x2).limits = x0.limits ∧ (rateSample x0 x1 x2).fuses = x0.fuses ∧ (rateSample x0 x1 x2).shelfSkips = x0.shelfSkips ∧
    (rateSample x0 x1 x2).shelfCuts = x0.shelfCuts ∧ (rateSample x0 x1 x2).free = x0.free ∧ (rateSample x0 x1 x2).pending = x0.pending := by simp [rateSample]

theorem execRateSample_frame (x0 x1 x2) : ∀ t, (execRateSample x0 x1 x2) = .next t → t.store = x2.store ∧ t.tier = x2.tier ∧
    t.engines = x2.engines ∧ t.gen = x2.gen ∧ t.text = x2.text ∧ t.pair = x2.pair ∧ t.flash = x2.flash ∧ t.power = x2.power ∧
    t.limits = x2.limits ∧ t.fuses = x2.fuses ∧ t.shelfSkips = x2.shelfSkips ∧ t.shelfCuts = x2.shelfCuts ∧ t.free = x2.free ∧
    t.pending = x2.pending := by simp [execRateSample]

@[simp] theorem refclkLoss_frame (x0) : (refclkLoss x0).fabric = x0.fabric ∧ (refclkLoss x0).store = x0.store ∧
    (refclkLoss x0).tier = x0.tier ∧ (refclkLoss x0).engines = x0.engines ∧ (refclkLoss x0).gen = x0.gen ∧ (refclkLoss x0).text = x0.text ∧
    (refclkLoss x0).pair = x0.pair ∧ (refclkLoss x0).flash = x0.flash ∧ (refclkLoss x0).power = x0.power ∧
    (refclkLoss x0).limits = x0.limits ∧ (refclkLoss x0).fuses = x0.fuses ∧ (refclkLoss x0).shelfSkips = x0.shelfSkips ∧
    (refclkLoss x0).shelfCuts = x0.shelfCuts ∧ (refclkLoss x0).free = x0.free ∧ (refclkLoss x0).pending = x0.pending := by simp [refclkLoss]

theorem execRefclkLoss_frame (x0) : ∀ t, (execRefclkLoss x0) = .next t → t.fabric = x0.fabric ∧ t.store = x0.store ∧ t.tier = x0.tier ∧
    t.engines = x0.engines ∧ t.gen = x0.gen ∧ t.text = x0.text ∧ t.pair = x0.pair ∧ t.flash = x0.flash ∧ t.power = x0.power ∧
    t.limits = x0.limits ∧ t.fuses = x0.fuses ∧ t.shelfSkips = x0.shelfSkips ∧ t.shelfCuts = x0.shelfCuts ∧ t.free = x0.free ∧
    t.pending = x0.pending := by simp [execRefclkLoss]

@[simp] theorem refclkReturn_frame (x0) : (refclkReturn x0).fabric = x0.fabric ∧ (refclkReturn x0).store = x0.store ∧
    (refclkReturn x0).tier = x0.tier ∧ (refclkReturn x0).engines = x0.engines ∧ (refclkReturn x0).host = x0.host ∧
    (refclkReturn x0).gen = x0.gen ∧ (refclkReturn x0).text = x0.text ∧ (refclkReturn x0).pair = x0.pair ∧
    (refclkReturn x0).flash = x0.flash ∧ (refclkReturn x0).power = x0.power ∧ (refclkReturn x0).limits = x0.limits ∧
    (refclkReturn x0).fuses = x0.fuses ∧ (refclkReturn x0).shelfSkips = x0.shelfSkips ∧ (refclkReturn x0).shelfCuts = x0.shelfCuts ∧
    (refclkReturn x0).free = x0.free ∧ (refclkReturn x0).pending = x0.pending := by simp [refclkReturn]

theorem execRefclkReturn_frame (x0) : ∀ t, (execRefclkReturn x0) = .next t → t.fabric = x0.fabric ∧ t.store = x0.store ∧ t.tier = x0.tier ∧
    t.engines = x0.engines ∧ t.host = x0.host ∧ t.gen = x0.gen ∧ t.text = x0.text ∧ t.pair = x0.pair ∧ t.flash = x0.flash ∧
    t.power = x0.power ∧ t.limits = x0.limits ∧ t.fuses = x0.fuses ∧ t.shelfSkips = x0.shelfSkips ∧ t.shelfCuts = x0.shelfCuts ∧
    t.free = x0.free ∧ t.pending = x0.pending := by simp [execRefclkReturn]

/-! ## FaultLog -/

@[simp] theorem recordFault_frame (x0 x1 x2) : (recordFault x0 x1 x2).fabric = x0.fabric ∧ (recordFault x0 x1 x2).store = x0.store ∧
    (recordFault x0 x1 x2).tier = x0.tier ∧ (recordFault x0 x1 x2).engines = x0.engines ∧ (recordFault x0 x1 x2).text = x0.text ∧
    (recordFault x0 x1 x2).pair = x0.pair ∧ (recordFault x0 x1 x2).flash = x0.flash ∧ (recordFault x0 x1 x2).power = x0.power ∧
    (recordFault x0 x1 x2).limits = x0.limits ∧ (recordFault x0 x1 x2).fuses = x0.fuses ∧ (recordFault x0 x1 x2).shelfSkips = x0.shelfSkips ∧
    (recordFault x0 x1 x2).shelfCuts = x0.shelfCuts ∧ (recordFault x0 x1 x2).pending = x0.pending := by simp [recordFault]

@[simp] theorem faultEnds_frame (x0 x1 x2 x3 x4 x5) : (faultEnds x0 x1 x2 x3 x4 x5).fabric = x0.fabric ∧
    (faultEnds x0 x1 x2 x3 x4 x5).store = x0.store ∧ (faultEnds x0 x1 x2 x3 x4 x5).tier = x0.tier ∧
    (faultEnds x0 x1 x2 x3 x4 x5).engines = x0.engines ∧ (faultEnds x0 x1 x2 x3 x4 x5).text = x0.text ∧
    (faultEnds x0 x1 x2 x3 x4 x5).pair = x0.pair ∧ (faultEnds x0 x1 x2 x3 x4 x5).flash = x0.flash ∧
    (faultEnds x0 x1 x2 x3 x4 x5).power = x0.power ∧ (faultEnds x0 x1 x2 x3 x4 x5).limits = x0.limits ∧
    (faultEnds x0 x1 x2 x3 x4 x5).fuses = x0.fuses ∧ (faultEnds x0 x1 x2 x3 x4 x5).shelfSkips = x0.shelfSkips ∧
    (faultEnds x0 x1 x2 x3 x4 x5).shelfCuts = x0.shelfCuts ∧ (faultEnds x0 x1 x2 x3 x4 x5).pending = x0.pending := by simp [faultEnds]

/-! ## Store -/

@[simp] theorem setSlot_frame (x0 x1 x2) : (setSlot x0 x1 x2).fabric = x0.fabric ∧ (setSlot x0 x1 x2).tier = x0.tier ∧
    (setSlot x0 x1 x2).engines = x0.engines ∧ (setSlot x0 x1 x2).host = x0.host ∧ (setSlot x0 x1 x2).gen = x0.gen ∧
    (setSlot x0 x1 x2).text = x0.text ∧ (setSlot x0 x1 x2).pair = x0.pair ∧ (setSlot x0 x1 x2).flash = x0.flash ∧
    (setSlot x0 x1 x2).bureau = x0.bureau ∧ (setSlot x0 x1 x2).power = x0.power ∧ (setSlot x0 x1 x2).limits = x0.limits ∧
    (setSlot x0 x1 x2).fuses = x0.fuses ∧ (setSlot x0 x1 x2).shelfSkips = x0.shelfSkips ∧ (setSlot x0 x1 x2).shelfCuts = x0.shelfCuts ∧
    (setSlot x0 x1 x2).free = x0.free ∧ (setSlot x0 x1 x2).pending = x0.pending := by simp [setSlot]

@[simp] theorem mapSlots_frame (x0 x1) : (mapSlots x0 x1).fabric = x0.fabric ∧ (mapSlots x0 x1).tier = x0.tier ∧
    (mapSlots x0 x1).engines = x0.engines ∧ (mapSlots x0 x1).host = x0.host ∧ (mapSlots x0 x1).gen = x0.gen ∧
    (mapSlots x0 x1).text = x0.text ∧ (mapSlots x0 x1).pair = x0.pair ∧ (mapSlots x0 x1).flash = x0.flash ∧
    (mapSlots x0 x1).bureau = x0.bureau ∧ (mapSlots x0 x1).power = x0.power ∧ (mapSlots x0 x1).limits = x0.limits ∧
    (mapSlots x0 x1).fuses = x0.fuses ∧ (mapSlots x0 x1).shelfSkips = x0.shelfSkips ∧ (mapSlots x0 x1).shelfCuts = x0.shelfCuts ∧
    (mapSlots x0 x1).free = x0.free ∧ (mapSlots x0 x1).pending = x0.pending := by simp [mapSlots]

@[simp] theorem setStep_frame (x0 x1 x2) : (setStep x0 x1 x2).fabric = x0.fabric ∧ (setStep x0 x1 x2).store = x0.store ∧
    (setStep x0 x1 x2).tier = x0.tier ∧ (setStep x0 x1 x2).engines = x0.engines ∧ (setStep x0 x1 x2).host = x0.host ∧
    (setStep x0 x1 x2).text = x0.text ∧ (setStep x0 x1 x2).pair = x0.pair ∧ (setStep x0 x1 x2).flash = x0.flash ∧
    (setStep x0 x1 x2).bureau = x0.bureau ∧ (setStep x0 x1 x2).power = x0.power ∧ (setStep x0 x1 x2).limits = x0.limits ∧
    (setStep x0 x1 x2).fuses = x0.fuses ∧ (setStep x0 x1 x2).shelfSkips = x0.shelfSkips ∧ (setStep x0 x1 x2).shelfCuts = x0.shelfCuts ∧
    (setStep x0 x1 x2).free = x0.free ∧ (setStep x0 x1 x2).pending = x0.pending := by simp [setStep]

@[simp] theorem refuseAccess_frame (x0 x1 x2 x3) : (refuseAccess x0 x1 x2 x3).fabric = x0.fabric ∧
    (refuseAccess x0 x1 x2 x3).store = x0.store ∧ (refuseAccess x0 x1 x2 x3).tier = x0.tier ∧
    (refuseAccess x0 x1 x2 x3).engines = x0.engines ∧ (refuseAccess x0 x1 x2 x3).host = x0.host ∧ (refuseAccess x0 x1 x2 x3).text = x0.text ∧
    (refuseAccess x0 x1 x2 x3).pair = x0.pair ∧ (refuseAccess x0 x1 x2 x3).flash = x0.flash ∧ (refuseAccess x0 x1 x2 x3).bureau = x0.bureau ∧
    (refuseAccess x0 x1 x2 x3).power = x0.power ∧ (refuseAccess x0 x1 x2 x3).limits = x0.limits ∧
    (refuseAccess x0 x1 x2 x3).fuses = x0.fuses ∧ (refuseAccess x0 x1 x2 x3).shelfSkips = x0.shelfSkips ∧
    (refuseAccess x0 x1 x2 x3).shelfCuts = x0.shelfCuts ∧ (refuseAccess x0 x1 x2 x3).free = x0.free ∧
    (refuseAccess x0 x1 x2 x3).pending = x0.pending := by unfold refuseAccess; split <;> simp

@[simp] theorem shareViolation_frame (x0 x1 x2 x3 x4) : (shareViolation x0 x1 x2 x3 x4).fabric = x0.fabric ∧
    (shareViolation x0 x1 x2 x3 x4).store = x0.store ∧ (shareViolation x0 x1 x2 x3 x4).tier = x0.tier ∧
    (shareViolation x0 x1 x2 x3 x4).engines = x0.engines ∧ (shareViolation x0 x1 x2 x3 x4).text = x0.text ∧
    (shareViolation x0 x1 x2 x3 x4).pair = x0.pair ∧ (shareViolation x0 x1 x2 x3 x4).flash = x0.flash ∧
    (shareViolation x0 x1 x2 x3 x4).power = x0.power ∧ (shareViolation x0 x1 x2 x3 x4).limits = x0.limits ∧
    (shareViolation x0 x1 x2 x3 x4).fuses = x0.fuses ∧ (shareViolation x0 x1 x2 x3 x4).shelfSkips = x0.shelfSkips ∧
    (shareViolation x0 x1 x2 x3 x4).shelfCuts = x0.shelfCuts ∧ (shareViolation x0 x1 x2 x3 x4).free = x0.free ∧
    (shareViolation x0 x1 x2 x3 x4).pending = x0.pending := by simp [shareViolation]

@[simp] theorem noteBadRow_frame (x0 x1 x2) : (noteBadRow x0 x1 x2).fabric = x0.fabric ∧ (noteBadRow x0 x1 x2).tier = x0.tier ∧
    (noteBadRow x0 x1 x2).engines = x0.engines ∧ (noteBadRow x0 x1 x2).host = x0.host ∧ (noteBadRow x0 x1 x2).gen = x0.gen ∧
    (noteBadRow x0 x1 x2).text = x0.text ∧ (noteBadRow x0 x1 x2).pair = x0.pair ∧ (noteBadRow x0 x1 x2).flash = x0.flash ∧
    (noteBadRow x0 x1 x2).bureau = x0.bureau ∧ (noteBadRow x0 x1 x2).power = x0.power ∧ (noteBadRow x0 x1 x2).limits = x0.limits ∧
    (noteBadRow x0 x1 x2).fuses = x0.fuses ∧ (noteBadRow x0 x1 x2).shelfSkips = x0.shelfSkips ∧
    (noteBadRow x0 x1 x2).shelfCuts = x0.shelfCuts ∧ (noteBadRow x0 x1 x2).free = x0.free ∧ (noteBadRow x0 x1 x2).pending = x0.pending := by simp [noteBadRow]

@[simp] theorem eccWord_frame (x0 x1 x2) : (eccWord x0 x1 x2).fabric = x0.fabric ∧ (eccWord x0 x1 x2).tier = x0.tier ∧
    (eccWord x0 x1 x2).engines = x0.engines ∧ (eccWord x0 x1 x2).gen = x0.gen ∧ (eccWord x0 x1 x2).text = x0.text ∧
    (eccWord x0 x1 x2).pair = x0.pair ∧ (eccWord x0 x1 x2).flash = x0.flash ∧ (eccWord x0 x1 x2).power = x0.power ∧
    (eccWord x0 x1 x2).limits = x0.limits ∧ (eccWord x0 x1 x2).fuses = x0.fuses ∧ (eccWord x0 x1 x2).shelfSkips = x0.shelfSkips ∧
    (eccWord x0 x1 x2).shelfCuts = x0.shelfCuts ∧ (eccWord x0 x1 x2).free = x0.free ∧ (eccWord x0 x1 x2).pending = x0.pending := by
  simp only [eccWord]
  repeat' split
  all_goals ((try simp only [Prod.ext_iff] at *); (try casesm* _ ∧ _); (try subst_vars); (try simp))

@[simp] theorem eccRead_frame (x0 x1 x2 x3) : (eccRead x0 x1 x2 x3).fabric = x0.fabric ∧ (eccRead x0 x1 x2 x3).tier = x0.tier ∧
    (eccRead x0 x1 x2 x3).engines = x0.engines ∧ (eccRead x0 x1 x2 x3).gen = x0.gen ∧ (eccRead x0 x1 x2 x3).text = x0.text ∧
    (eccRead x0 x1 x2 x3).pair = x0.pair ∧ (eccRead x0 x1 x2 x3).flash = x0.flash ∧ (eccRead x0 x1 x2 x3).power = x0.power ∧
    (eccRead x0 x1 x2 x3).limits = x0.limits ∧ (eccRead x0 x1 x2 x3).fuses = x0.fuses ∧ (eccRead x0 x1 x2 x3).shelfSkips = x0.shelfSkips ∧
    (eccRead x0 x1 x2 x3).shelfCuts = x0.shelfCuts ∧ (eccRead x0 x1 x2 x3).free = x0.free ∧ (eccRead x0 x1 x2 x3).pending = x0.pending := by simp [eccRead]

@[simp] theorem denyRead_frame (x0 x1 x2 x3) : (denyRead x0 x1 x2 x3).fabric = x0.fabric ∧ (denyRead x0 x1 x2 x3).store = x0.store ∧
    (denyRead x0 x1 x2 x3).tier = x0.tier ∧ (denyRead x0 x1 x2 x3).engines = x0.engines ∧ (denyRead x0 x1 x2 x3).text = x0.text ∧
    (denyRead x0 x1 x2 x3).pair = x0.pair ∧ (denyRead x0 x1 x2 x3).flash = x0.flash ∧ (denyRead x0 x1 x2 x3).power = x0.power ∧
    (denyRead x0 x1 x2 x3).limits = x0.limits ∧ (denyRead x0 x1 x2 x3).fuses = x0.fuses ∧ (denyRead x0 x1 x2 x3).shelfSkips = x0.shelfSkips ∧
    (denyRead x0 x1 x2 x3).shelfCuts = x0.shelfCuts ∧ (denyRead x0 x1 x2 x3).free = x0.free ∧ (denyRead x0 x1 x2 x3).pending = x0.pending := by
  unfold denyRead
  repeat' split
  all_goals ((try simp only [Prod.ext_iff] at *); (try casesm* _ ∧ _); (try subst_vars); (try simp))

@[simp] theorem noteFault_frame (x0 x1 x2) : (noteFault x0 x1 x2).fabric = x0.fabric ∧ (noteFault x0 x1 x2).store = x0.store ∧
    (noteFault x0 x1 x2).tier = x0.tier ∧ (noteFault x0 x1 x2).host = x0.host ∧ (noteFault x0 x1 x2).gen = x0.gen ∧
    (noteFault x0 x1 x2).text = x0.text ∧ (noteFault x0 x1 x2).pair = x0.pair ∧ (noteFault x0 x1 x2).flash = x0.flash ∧
    (noteFault x0 x1 x2).bureau = x0.bureau ∧ (noteFault x0 x1 x2).power = x0.power ∧ (noteFault x0 x1 x2).limits = x0.limits ∧
    (noteFault x0 x1 x2).fuses = x0.fuses ∧ (noteFault x0 x1 x2).shelfSkips = x0.shelfSkips ∧ (noteFault x0 x1 x2).shelfCuts = x0.shelfCuts ∧
    (noteFault x0 x1 x2).free = x0.free ∧ (noteFault x0 x1 x2).pending = x0.pending := by simp [noteFault]

@[simp] theorem violate_frame (x0 x1 x2 x3) : (violate x0 x1 x2 x3).fabric = x0.fabric ∧ (violate x0 x1 x2 x3).store = x0.store ∧
    (violate x0 x1 x2 x3).tier = x0.tier ∧ (violate x0 x1 x2 x3).text = x0.text ∧ (violate x0 x1 x2 x3).pair = x0.pair ∧
    (violate x0 x1 x2 x3).flash = x0.flash ∧ (violate x0 x1 x2 x3).power = x0.power ∧ (violate x0 x1 x2 x3).limits = x0.limits ∧
    (violate x0 x1 x2 x3).fuses = x0.fuses ∧ (violate x0 x1 x2 x3).shelfSkips = x0.shelfSkips ∧
    (violate x0 x1 x2 x3).shelfCuts = x0.shelfCuts ∧ (violate x0 x1 x2 x3).free = x0.free ∧ (violate x0 x1 x2 x3).pending = x0.pending := by simp [violate]

@[simp] theorem fillFrame_frame (x0 x1 x2 x3 x4) : (fillFrame x0 x1 x2 x3 x4).fabric = x0.fabric ∧
    (fillFrame x0 x1 x2 x3 x4).store = x0.store ∧ (fillFrame x0 x1 x2 x3 x4).tier = x0.tier ∧ (fillFrame x0 x1 x2 x3 x4).text = x0.text ∧
    (fillFrame x0 x1 x2 x3 x4).pair = x0.pair ∧ (fillFrame x0 x1 x2 x3 x4).flash = x0.flash ∧ (fillFrame x0 x1 x2 x3 x4).power = x0.power ∧
    (fillFrame x0 x1 x2 x3 x4).limits = x0.limits ∧ (fillFrame x0 x1 x2 x3 x4).fuses = x0.fuses ∧
    (fillFrame x0 x1 x2 x3 x4).shelfSkips = x0.shelfSkips ∧ (fillFrame x0 x1 x2 x3 x4).shelfCuts = x0.shelfCuts ∧
    (fillFrame x0 x1 x2 x3 x4).free = x0.free ∧ (fillFrame x0 x1 x2 x3 x4).pending = x0.pending := by
  simp only [fillFrame]
  repeat' split
  all_goals ((try simp only [Prod.ext_iff] at *); (try casesm* _ ∧ _); (try subst_vars); (try simp))

@[simp] theorem readEffect_frame (x0 x1 x2 x3) : (readEffect x0 x1 x2 x3).fabric = x0.fabric ∧ (readEffect x0 x1 x2 x3).tier = x0.tier ∧
    (readEffect x0 x1 x2 x3).engines = x0.engines ∧ (readEffect x0 x1 x2 x3).text = x0.text ∧ (readEffect x0 x1 x2 x3).pair = x0.pair ∧
    (readEffect x0 x1 x2 x3).flash = x0.flash ∧ (readEffect x0 x1 x2 x3).power = x0.power ∧ (readEffect x0 x1 x2 x3).limits = x0.limits ∧
    (readEffect x0 x1 x2 x3).fuses = x0.fuses ∧ (readEffect x0 x1 x2 x3).shelfSkips = x0.shelfSkips ∧
    (readEffect x0 x1 x2 x3).shelfCuts = x0.shelfCuts ∧ (readEffect x0 x1 x2 x3).free = x0.free ∧
    (readEffect x0 x1 x2 x3).pending = x0.pending := by simp [readEffect]

@[simp] theorem storeServe_frame (x0 x1 x2 x3) : ((storeServe x0 x1 x2 x3)).1.fabric = x0.fabric ∧
    ((storeServe x0 x1 x2 x3)).1.tier = x0.tier ∧ ((storeServe x0 x1 x2 x3)).1.engines = x0.engines ∧
    ((storeServe x0 x1 x2 x3)).1.text = x0.text ∧ ((storeServe x0 x1 x2 x3)).1.pair = x0.pair ∧
    ((storeServe x0 x1 x2 x3)).1.flash = x0.flash ∧ ((storeServe x0 x1 x2 x3)).1.power = x0.power ∧
    ((storeServe x0 x1 x2 x3)).1.limits = x0.limits ∧ ((storeServe x0 x1 x2 x3)).1.fuses = x0.fuses ∧
    ((storeServe x0 x1 x2 x3)).1.shelfSkips = x0.shelfSkips ∧ ((storeServe x0 x1 x2 x3)).1.shelfCuts = x0.shelfCuts ∧
    ((storeServe x0 x1 x2 x3)).1.free = x0.free ∧ ((storeServe x0 x1 x2 x3)).1.pending = x0.pending := by simp [storeServe]

@[simp] theorem storeRead_frame (x0 x1 x2 x3) : (storeRead x0 x1 x2 x3).fabric = x0.fabric ∧ (storeRead x0 x1 x2 x3).tier = x0.tier ∧
    (storeRead x0 x1 x2 x3).text = x0.text ∧ (storeRead x0 x1 x2 x3).pair = x0.pair ∧ (storeRead x0 x1 x2 x3).flash = x0.flash ∧
    (storeRead x0 x1 x2 x3).power = x0.power ∧ (storeRead x0 x1 x2 x3).limits = x0.limits ∧ (storeRead x0 x1 x2 x3).fuses = x0.fuses ∧
    (storeRead x0 x1 x2 x3).shelfSkips = x0.shelfSkips ∧ (storeRead x0 x1 x2 x3).shelfCuts = x0.shelfCuts ∧
    (storeRead x0 x1 x2 x3).free = x0.free ∧ (storeRead x0 x1 x2 x3).pending = x0.pending := by simp [storeRead]

theorem execStoreRead_frame (x0 x1 x2) : ∀ t, (execStoreRead x0 x1 x2) = .next t → t.fabric = x2.fabric ∧ t.tier = x2.tier ∧
    t.text = x2.text ∧ t.pair = x2.pair ∧ t.flash = x2.flash ∧ t.power = x2.power ∧ t.limits = x2.limits ∧ t.fuses = x2.fuses ∧
    t.shelfSkips = x2.shelfSkips ∧ t.shelfCuts = x2.shelfCuts ∧ t.free = x2.free ∧ t.pending = x2.pending := by simp [execStoreRead]

theorem execStoreReadHeader_frame (x0 x1 x2) : ∀ t, (execStoreReadHeader x0 x1 x2) = .next t → t.fabric = x2.fabric ∧ t.tier = x2.tier ∧
    t.text = x2.text ∧ t.pair = x2.pair ∧ t.flash = x2.flash ∧ t.power = x2.power ∧ t.limits = x2.limits ∧ t.fuses = x2.fuses ∧
    t.shelfSkips = x2.shelfSkips ∧ t.shelfCuts = x2.shelfCuts ∧ t.free = x2.free ∧ t.pending = x2.pending := by simp [execStoreReadHeader]

@[simp] theorem storeFree_frame (x0 x1) : (storeFree x0 x1).fabric = x0.fabric ∧ (storeFree x0 x1).tier = x0.tier ∧
    (storeFree x0 x1).engines = x0.engines ∧ (storeFree x0 x1).gen = x0.gen ∧ (storeFree x0 x1).text = x0.text ∧
    (storeFree x0 x1).pair = x0.pair ∧ (storeFree x0 x1).flash = x0.flash ∧ (storeFree x0 x1).power = x0.power ∧
    (storeFree x0 x1).limits = x0.limits ∧ (storeFree x0 x1).fuses = x0.fuses ∧ (storeFree x0 x1).shelfSkips = x0.shelfSkips ∧
    (storeFree x0 x1).shelfCuts = x0.shelfCuts ∧ (storeFree x0 x1).free = x0.free ∧ (storeFree x0 x1).pending = x0.pending := by simp [storeFree]

theorem execStoreFree_frame (x0 x1) : ∀ t, (execStoreFree x0 x1) = .next t → t.fabric = x1.fabric ∧ t.tier = x1.tier ∧
    t.engines = x1.engines ∧ t.gen = x1.gen ∧ t.text = x1.text ∧ t.pair = x1.pair ∧ t.flash = x1.flash ∧ t.power = x1.power ∧
    t.limits = x1.limits ∧ t.fuses = x1.fuses ∧ t.shelfSkips = x1.shelfSkips ∧ t.shelfCuts = x1.shelfCuts ∧ t.free = x1.free ∧
    t.pending = x1.pending := by simp [execStoreFree]

@[simp] theorem storeScrub_frame (x0 x1 x2) : (storeScrub x0 x1 x2).fabric = x0.fabric ∧ (storeScrub x0 x1 x2).tier = x0.tier ∧
    (storeScrub x0 x1 x2).engines = x0.engines ∧ (storeScrub x0 x1 x2).gen = x0.gen ∧ (storeScrub x0 x1 x2).text = x0.text ∧
    (storeScrub x0 x1 x2).pair = x0.pair ∧ (storeScrub x0 x1 x2).flash = x0.flash ∧ (storeScrub x0 x1 x2).power = x0.power ∧
    (storeScrub x0 x1 x2).limits = x0.limits ∧ (storeScrub x0 x1 x2).fuses = x0.fuses ∧ (storeScrub x0 x1 x2).shelfSkips = x0.shelfSkips ∧
    (storeScrub x0 x1 x2).shelfCuts = x0.shelfCuts ∧ (storeScrub x0 x1 x2).free = x0.free ∧ (storeScrub x0 x1 x2).pending = x0.pending := by simp [storeScrub]

theorem execStoreScrub_frame (x0 x1 x2) : ∀ t, (execStoreScrub x0 x1 x2) = .next t → t.fabric = x2.fabric ∧ t.tier = x2.tier ∧
    t.engines = x2.engines ∧ t.gen = x2.gen ∧ t.text = x2.text ∧ t.pair = x2.pair ∧ t.flash = x2.flash ∧ t.power = x2.power ∧
    t.limits = x2.limits ∧ t.fuses = x2.fuses ∧ t.shelfSkips = x2.shelfSkips ∧ t.shelfCuts = x2.shelfCuts ∧ t.free = x2.free ∧
    t.pending = x2.pending := by simp [execStoreScrub]

@[simp] theorem scrubPace_frame (x0) : (scrubPace x0).fabric = x0.fabric ∧ (scrubPace x0).tier = x0.tier ∧
    (scrubPace x0).engines = x0.engines ∧ (scrubPace x0).host = x0.host ∧ (scrubPace x0).gen = x0.gen ∧ (scrubPace x0).text = x0.text ∧
    (scrubPace x0).pair = x0.pair ∧ (scrubPace x0).flash = x0.flash ∧ (scrubPace x0).bureau = x0.bureau ∧ (scrubPace x0).power = x0.power ∧
    (scrubPace x0).limits = x0.limits ∧ (scrubPace x0).fuses = x0.fuses ∧ (scrubPace x0).shelfSkips = x0.shelfSkips ∧
    (scrubPace x0).shelfCuts = x0.shelfCuts ∧ (scrubPace x0).free = x0.free ∧ (scrubPace x0).pending = x0.pending := by simp [scrubPace]

theorem execScrubPaceTick_frame (x0) : ∀ t, (execScrubPaceTick x0) = .next t → t.fabric = x0.fabric ∧ t.tier = x0.tier ∧
    t.engines = x0.engines ∧ t.host = x0.host ∧ t.gen = x0.gen ∧ t.text = x0.text ∧ t.pair = x0.pair ∧ t.flash = x0.flash ∧
    t.bureau = x0.bureau ∧ t.power = x0.power ∧ t.limits = x0.limits ∧ t.fuses = x0.fuses ∧ t.shelfSkips = x0.shelfSkips ∧
    t.shelfCuts = x0.shelfCuts ∧ t.free = x0.free ∧ t.pending = x0.pending := by simp [execScrubPaceTick]

@[simp] theorem zeroFillDone_frame (x0 x1) : (zeroFillDone x0 x1).fabric = x0.fabric ∧ (zeroFillDone x0 x1).tier = x0.tier ∧
    (zeroFillDone x0 x1).engines = x0.engines ∧ (zeroFillDone x0 x1).host = x0.host ∧ (zeroFillDone x0 x1).gen = x0.gen ∧
    (zeroFillDone x0 x1).text = x0.text ∧ (zeroFillDone x0 x1).pair = x0.pair ∧ (zeroFillDone x0 x1).flash = x0.flash ∧
    (zeroFillDone x0 x1).bureau = x0.bureau ∧ (zeroFillDone x0 x1).power = x0.power ∧ (zeroFillDone x0 x1).limits = x0.limits ∧
    (zeroFillDone x0 x1).fuses = x0.fuses ∧ (zeroFillDone x0 x1).shelfSkips = x0.shelfSkips ∧ (zeroFillDone x0 x1).shelfCuts = x0.shelfCuts ∧
    (zeroFillDone x0 x1).free = x0.free ∧ (zeroFillDone x0 x1).pending = x0.pending := by simp [zeroFillDone]

theorem execStoreZeroFillDone_frame (x0 x1) : ∀ t, (execStoreZeroFillDone x0 x1) = .next t → t.fabric = x1.fabric ∧ t.tier = x1.tier ∧
    t.engines = x1.engines ∧ t.host = x1.host ∧ t.gen = x1.gen ∧ t.text = x1.text ∧ t.pair = x1.pair ∧ t.flash = x1.flash ∧
    t.bureau = x1.bureau ∧ t.power = x1.power ∧ t.limits = x1.limits ∧ t.fuses = x1.fuses ∧ t.shelfSkips = x1.shelfSkips ∧
    t.shelfCuts = x1.shelfCuts ∧ t.free = x1.free ∧ t.pending = x1.pending := by simp [execStoreZeroFillDone]

@[simp] theorem refuseWrite_frame (x0 x1 x2 x3 x4 x5) : (refuseWrite x0 x1 x2 x3 x4 x5).fabric = x0.fabric ∧
    (refuseWrite x0 x1 x2 x3 x4 x5).store = x0.store ∧ (refuseWrite x0 x1 x2 x3 x4 x5).tier = x0.tier ∧
    (refuseWrite x0 x1 x2 x3 x4 x5).engines = x0.engines ∧ (refuseWrite x0 x1 x2 x3 x4 x5).text = x0.text ∧
    (refuseWrite x0 x1 x2 x3 x4 x5).pair = x0.pair ∧ (refuseWrite x0 x1 x2 x3 x4 x5).flash = x0.flash ∧
    (refuseWrite x0 x1 x2 x3 x4 x5).power = x0.power ∧ (refuseWrite x0 x1 x2 x3 x4 x5).limits = x0.limits ∧
    (refuseWrite x0 x1 x2 x3 x4 x5).fuses = x0.fuses ∧ (refuseWrite x0 x1 x2 x3 x4 x5).shelfSkips = x0.shelfSkips ∧
    (refuseWrite x0 x1 x2 x3 x4 x5).shelfCuts = x0.shelfCuts ∧ (refuseWrite x0 x1 x2 x3 x4 x5).free = x0.free ∧
    (refuseWrite x0 x1 x2 x3 x4 x5).pending = x0.pending := by unfold refuseWrite; split <;> simp

@[simp] theorem discardFlits_frame (x0 x1 x2) : (discardFlits x0 x1 x2).fabric = x0.fabric ∧ (discardFlits x0 x1 x2).tier = x0.tier ∧
    (discardFlits x0 x1 x2).engines = x0.engines ∧ (discardFlits x0 x1 x2).host = x0.host ∧ (discardFlits x0 x1 x2).gen = x0.gen ∧
    (discardFlits x0 x1 x2).text = x0.text ∧ (discardFlits x0 x1 x2).pair = x0.pair ∧ (discardFlits x0 x1 x2).flash = x0.flash ∧
    (discardFlits x0 x1 x2).bureau = x0.bureau ∧ (discardFlits x0 x1 x2).power = x0.power ∧ (discardFlits x0 x1 x2).limits = x0.limits ∧
    (discardFlits x0 x1 x2).fuses = x0.fuses ∧ (discardFlits x0 x1 x2).shelfSkips = x0.shelfSkips ∧
    (discardFlits x0 x1 x2).shelfCuts = x0.shelfCuts ∧ (discardFlits x0 x1 x2).free = x0.free ∧ (discardFlits x0 x1 x2).pending = x0.pending := by simp [discardFlits]

@[simp] theorem writeHeader_frame (x0 x1 x2 x3 x4 x5) : (writeHeader x0 x1 x2 x3 x4 x5).fabric = x0.fabric ∧
    (writeHeader x0 x1 x2 x3 x4 x5).tier = x0.tier ∧ (writeHeader x0 x1 x2 x3 x4 x5).engines = x0.engines ∧
    (writeHeader x0 x1 x2 x3 x4 x5).text = x0.text ∧ (writeHeader x0 x1 x2 x3 x4 x5).pair = x0.pair ∧
    (writeHeader x0 x1 x2 x3 x4 x5).flash = x0.flash ∧ (writeHeader x0 x1 x2 x3 x4 x5).power = x0.power ∧
    (writeHeader x0 x1 x2 x3 x4 x5).limits = x0.limits ∧ (writeHeader x0 x1 x2 x3 x4 x5).fuses = x0.fuses ∧
    (writeHeader x0 x1 x2 x3 x4 x5).shelfSkips = x0.shelfSkips ∧ (writeHeader x0 x1 x2 x3 x4 x5).shelfCuts = x0.shelfCuts ∧
    (writeHeader x0 x1 x2 x3 x4 x5).free = x0.free ∧ (writeHeader x0 x1 x2 x3 x4 x5).pending = x0.pending := by
  unfold writeHeader
  repeat' split
  all_goals ((try simp only [Prod.ext_iff] at *); (try casesm* _ ∧ _); (try subst_vars); (try simp))

theorem execStoreWriteHeader_frame (x0 x1 x2 x3 x4 x5) : ∀ t, (execStoreWriteHeader x0 x1 x2 x3 x4 x5) = .next t → t.fabric = x5.fabric ∧
    t.tier = x5.tier ∧ t.engines = x5.engines ∧ t.text = x5.text ∧ t.pair = x5.pair ∧ t.flash = x5.flash ∧ t.power = x5.power ∧
    t.limits = x5.limits ∧ t.fuses = x5.fuses ∧ t.shelfSkips = x5.shelfSkips ∧ t.shelfCuts = x5.shelfCuts ∧ t.free = x5.free ∧
    t.pending = x5.pending := by simp [execStoreWriteHeader]

@[simp] theorem sendNotice_frame (x0 x1 x2) : (sendNotice x0 x1 x2).store = x0.store ∧ (sendNotice x0 x1 x2).tier = x0.tier ∧
    (sendNotice x0 x1 x2).engines = x0.engines ∧ (sendNotice x0 x1 x2).host = x0.host ∧ (sendNotice x0 x1 x2).gen = x0.gen ∧
    (sendNotice x0 x1 x2).text = x0.text ∧ (sendNotice x0 x1 x2).pair = x0.pair ∧ (sendNotice x0 x1 x2).flash = x0.flash ∧
    (sendNotice x0 x1 x2).bureau = x0.bureau ∧ (sendNotice x0 x1 x2).power = x0.power ∧ (sendNotice x0 x1 x2).limits = x0.limits ∧
    (sendNotice x0 x1 x2).fuses = x0.fuses ∧ (sendNotice x0 x1 x2).shelfSkips = x0.shelfSkips ∧
    (sendNotice x0 x1 x2).shelfCuts = x0.shelfCuts ∧ (sendNotice x0 x1 x2).free = x0.free ∧ (sendNotice x0 x1 x2).pending = x0.pending := by simp [sendNotice]

@[simp] theorem announce_frame (x0 x1) : (announce x0 x1).tier = x0.tier ∧ (announce x0 x1).engines = x0.engines ∧
    (announce x0 x1).host = x0.host ∧ (announce x0 x1).gen = x0.gen ∧ (announce x0 x1).text = x0.text ∧ (announce x0 x1).pair = x0.pair ∧
    (announce x0 x1).flash = x0.flash ∧ (announce x0 x1).bureau = x0.bureau ∧ (announce x0 x1).power = x0.power ∧
    (announce x0 x1).limits = x0.limits ∧ (announce x0 x1).fuses = x0.fuses ∧ (announce x0 x1).shelfSkips = x0.shelfSkips ∧
    (announce x0 x1).shelfCuts = x0.shelfCuts ∧ (announce x0 x1).free = x0.free ∧ (announce x0 x1).pending = x0.pending := by simp [announce]

@[simp] theorem abandonWrites_frame (x0 x1) : (abandonWrites x0 x1).fabric = x0.fabric ∧ (abandonWrites x0 x1).tier = x0.tier ∧
    (abandonWrites x0 x1).engines = x0.engines ∧ (abandonWrites x0 x1).host = x0.host ∧ (abandonWrites x0 x1).gen = x0.gen ∧
    (abandonWrites x0 x1).text = x0.text ∧ (abandonWrites x0 x1).pair = x0.pair ∧ (abandonWrites x0 x1).flash = x0.flash ∧
    (abandonWrites x0 x1).bureau = x0.bureau ∧ (abandonWrites x0 x1).power = x0.power ∧ (abandonWrites x0 x1).limits = x0.limits ∧
    (abandonWrites x0 x1).fuses = x0.fuses ∧ (abandonWrites x0 x1).shelfSkips = x0.shelfSkips ∧
    (abandonWrites x0 x1).shelfCuts = x0.shelfCuts ∧ (abandonWrites x0 x1).free = x0.free ∧ (abandonWrites x0 x1).pending = x0.pending := by simp [abandonWrites]

@[simp] theorem writePayload_frame (x0 x1 x2 x3 x4) : (writePayload x0 x1 x2 x3 x4).tier = x0.tier ∧
    (writePayload x0 x1 x2 x3 x4).engines = x0.engines ∧ (writePayload x0 x1 x2 x3 x4).host = x0.host ∧
    (writePayload x0 x1 x2 x3 x4).gen = x0.gen ∧ (writePayload x0 x1 x2 x3 x4).text = x0.text ∧ (writePayload x0 x1 x2 x3 x4).pair = x0.pair ∧
    (writePayload x0 x1 x2 x3 x4).flash = x0.flash ∧ (writePayload x0 x1 x2 x3 x4).bureau = x0.bureau ∧
    (writePayload x0 x1 x2 x3 x4).power = x0.power ∧ (writePayload x0 x1 x2 x3 x4).limits = x0.limits ∧
    (writePayload x0 x1 x2 x3 x4).fuses = x0.fuses ∧ (writePayload x0 x1 x2 x3 x4).shelfSkips = x0.shelfSkips ∧
    (writePayload x0 x1 x2 x3 x4).shelfCuts = x0.shelfCuts ∧ (writePayload x0 x1 x2 x3 x4).free = x0.free ∧
    (writePayload x0 x1 x2 x3 x4).pending = x0.pending := by
  simp only [writePayload]
  repeat' split
  all_goals ((try simp only [Prod.ext_iff] at *); (try casesm* _ ∧ _); (try subst_vars); (try simp))

theorem execStoreWritePayload_frame (x0 x1 x2 x3 x4) : ∀ t, (execStoreWritePayload x0 x1 x2 x3 x4) = .next t → t.tier = x4.tier ∧
    t.engines = x4.engines ∧ t.host = x4.host ∧ t.gen = x4.gen ∧ t.text = x4.text ∧ t.pair = x4.pair ∧ t.flash = x4.flash ∧
    t.bureau = x4.bureau ∧ t.power = x4.power ∧ t.limits = x4.limits ∧ t.fuses = x4.fuses ∧ t.shelfSkips = x4.shelfSkips ∧
    t.shelfCuts = x4.shelfCuts ∧ t.free = x4.free ∧ t.pending = x4.pending := by simp [execStoreWritePayload]

@[simp] theorem writeTile_frame (x0 x1 x2 x3 x4) : (writeTile x0 x1 x2 x3 x4).tier = x0.tier ∧
    (writeTile x0 x1 x2 x3 x4).engines = x0.engines ∧ (writeTile x0 x1 x2 x3 x4).text = x0.text ∧ (writeTile x0 x1 x2 x3 x4).pair = x0.pair ∧
    (writeTile x0 x1 x2 x3 x4).flash = x0.flash ∧ (writeTile x0 x1 x2 x3 x4).power = x0.power ∧
    (writeTile x0 x1 x2 x3 x4).limits = x0.limits ∧ (writeTile x0 x1 x2 x3 x4).fuses = x0.fuses ∧
    (writeTile x0 x1 x2 x3 x4).shelfSkips = x0.shelfSkips ∧ (writeTile x0 x1 x2 x3 x4).shelfCuts = x0.shelfCuts ∧
    (writeTile x0 x1 x2 x3 x4).free = x0.free ∧ (writeTile x0 x1 x2 x3 x4).pending = x0.pending := by simp [writeTile]

theorem conductorPut_frame (x0 x1 x2 x3) : ∀ t, (conductorPut x0 x1 x2 x3) = some t → (t).2.tier = x3.tier ∧ (t).2.engines = x3.engines ∧
    (t).2.text = x3.text ∧ (t).2.pair = x3.pair ∧ (t).2.flash = x3.flash ∧ (t).2.power = x3.power ∧ (t).2.limits = x3.limits ∧
    (t).2.fuses = x3.fuses ∧ (t).2.shelfSkips = x3.shelfSkips ∧ (t).2.shelfCuts = x3.shelfCuts ∧ (t).2.free = x3.free ∧
    (t).2.pending = x3.pending := by
  induction x2 generalizing x3 with
  | nil => intro t h; cases h; simp
  | cons a l ih =>
    intro t h
    simp only [conductorPut, Option.bind_eq_some_iff, Option.map_eq_some_iff] at h
    obtain ⟨i, -, r, h, rfl⟩ := h
    have := ih _ _ h
    simp_all

@[simp] theorem freePassing_frame (x0 x1) : (freePassing x0 x1).fabric = x0.fabric ∧ (freePassing x0 x1).tier = x0.tier ∧
    (freePassing x0 x1).engines = x0.engines ∧ (freePassing x0 x1).host = x0.host ∧ (freePassing x0 x1).gen = x0.gen ∧
    (freePassing x0 x1).text = x0.text ∧ (freePassing x0 x1).pair = x0.pair ∧ (freePassing x0 x1).flash = x0.flash ∧
    (freePassing x0 x1).bureau = x0.bureau ∧ (freePassing x0 x1).power = x0.power ∧ (freePassing x0 x1).limits = x0.limits ∧
    (freePassing x0 x1).fuses = x0.fuses ∧ (freePassing x0 x1).shelfSkips = x0.shelfSkips ∧ (freePassing x0 x1).shelfCuts = x0.shelfCuts ∧
    (freePassing x0 x1).free = x0.free ∧ (freePassing x0 x1).pending = x0.pending := by simp [freePassing]

@[simp] theorem subscribe_frame (x0 x1 x2) : (subscribe x0 x1 x2).tier = x0.tier ∧ (subscribe x0 x1 x2).engines = x0.engines ∧
    (subscribe x0 x1 x2).host = x0.host ∧ (subscribe x0 x1 x2).gen = x0.gen ∧ (subscribe x0 x1 x2).text = x0.text ∧
    (subscribe x0 x1 x2).pair = x0.pair ∧ (subscribe x0 x1 x2).flash = x0.flash ∧ (subscribe x0 x1 x2).bureau = x0.bureau ∧
    (subscribe x0 x1 x2).power = x0.power ∧ (subscribe x0 x1 x2).limits = x0.limits ∧ (subscribe x0 x1 x2).fuses = x0.fuses ∧
    (subscribe x0 x1 x2).shelfSkips = x0.shelfSkips ∧ (subscribe x0 x1 x2).shelfCuts = x0.shelfCuts ∧ (subscribe x0 x1 x2).free = x0.free ∧
    (subscribe x0 x1 x2).pending = x0.pending := by simp [subscribe]

theorem execSubscribe_frame (x0 x1 x2) : ∀ t, (execSubscribe x0 x1 x2) = .next t → t.tier = x2.tier ∧ t.engines = x2.engines ∧
    t.host = x2.host ∧ t.gen = x2.gen ∧ t.text = x2.text ∧ t.pair = x2.pair ∧ t.flash = x2.flash ∧ t.bureau = x2.bureau ∧ t.power = x2.power ∧
    t.limits = x2.limits ∧ t.fuses = x2.fuses ∧ t.shelfSkips = x2.shelfSkips ∧ t.shelfCuts = x2.shelfCuts ∧ t.free = x2.free ∧
    t.pending = x2.pending := by simp [execSubscribe]

@[simp] theorem unsubscribe_frame (x0 x1 x2) : (unsubscribe x0 x1 x2).fabric = x0.fabric ∧ (unsubscribe x0 x1 x2).tier = x0.tier ∧
    (unsubscribe x0 x1 x2).engines = x0.engines ∧ (unsubscribe x0 x1 x2).host = x0.host ∧ (unsubscribe x0 x1 x2).gen = x0.gen ∧
    (unsubscribe x0 x1 x2).text = x0.text ∧ (unsubscribe x0 x1 x2).pair = x0.pair ∧ (unsubscribe x0 x1 x2).flash = x0.flash ∧
    (unsubscribe x0 x1 x2).bureau = x0.bureau ∧ (unsubscribe x0 x1 x2).power = x0.power ∧ (unsubscribe x0 x1 x2).limits = x0.limits ∧
    (unsubscribe x0 x1 x2).fuses = x0.fuses ∧ (unsubscribe x0 x1 x2).shelfSkips = x0.shelfSkips ∧
    (unsubscribe x0 x1 x2).shelfCuts = x0.shelfCuts ∧ (unsubscribe x0 x1 x2).free = x0.free ∧ (unsubscribe x0 x1 x2).pending = x0.pending := by simp [unsubscribe]

theorem execUnsubscribe_frame (x0 x1 x2) : ∀ t, (execUnsubscribe x0 x1 x2) = .next t → t.fabric = x2.fabric ∧ t.tier = x2.tier ∧
    t.engines = x2.engines ∧ t.host = x2.host ∧ t.gen = x2.gen ∧ t.text = x2.text ∧ t.pair = x2.pair ∧ t.flash = x2.flash ∧
    t.bureau = x2.bureau ∧ t.power = x2.power ∧ t.limits = x2.limits ∧ t.fuses = x2.fuses ∧ t.shelfSkips = x2.shelfSkips ∧
    t.shelfCuts = x2.shelfCuts ∧ t.free = x2.free ∧ t.pending = x2.pending := by simp [execUnsubscribe]

@[simp] theorem readyNotice_frame (x0 x1 x2) : (readyNotice x0 x1 x2).fabric = x0.fabric ∧ (readyNotice x0 x1 x2).tier = x0.tier ∧
    (readyNotice x0 x1 x2).engines = x0.engines ∧ (readyNotice x0 x1 x2).host = x0.host ∧ (readyNotice x0 x1 x2).gen = x0.gen ∧
    (readyNotice x0 x1 x2).text = x0.text ∧ (readyNotice x0 x1 x2).pair = x0.pair ∧ (readyNotice x0 x1 x2).flash = x0.flash ∧
    (readyNotice x0 x1 x2).bureau = x0.bureau ∧ (readyNotice x0 x1 x2).power = x0.power ∧ (readyNotice x0 x1 x2).limits = x0.limits ∧
    (readyNotice x0 x1 x2).fuses = x0.fuses ∧ (readyNotice x0 x1 x2).shelfSkips = x0.shelfSkips ∧
    (readyNotice x0 x1 x2).shelfCuts = x0.shelfCuts ∧ (readyNotice x0 x1 x2).free = x0.free ∧ (readyNotice x0 x1 x2).pending = x0.pending := by simp [readyNotice]

theorem execReadyNotice_frame (x0 x1 x2) : ∀ t, (execReadyNotice x0 x1 x2) = .next t → t.fabric = x2.fabric ∧ t.tier = x2.tier ∧
    t.engines = x2.engines ∧ t.host = x2.host ∧ t.gen = x2.gen ∧ t.text = x2.text ∧ t.pair = x2.pair ∧ t.flash = x2.flash ∧
    t.bureau = x2.bureau ∧ t.power = x2.power ∧ t.limits = x2.limits ∧ t.fuses = x2.fuses ∧ t.shelfSkips = x2.shelfSkips ∧
    t.shelfCuts = x2.shelfCuts ∧ t.free = x2.free ∧ t.pending = x2.pending := by simp [execReadyNotice]

@[simp] theorem dropTagged_frame (x0 x1 x2) : (dropTagged x0 x1 x2).fabric = x0.fabric ∧ (dropTagged x0 x1 x2).store = x0.store ∧
    (dropTagged x0 x1 x2).engines = x0.engines ∧ (dropTagged x0 x1 x2).host = x0.host ∧ (dropTagged x0 x1 x2).gen = x0.gen ∧
    (dropTagged x0 x1 x2).text = x0.text ∧ (dropTagged x0 x1 x2).pair = x0.pair ∧ (dropTagged x0 x1 x2).flash = x0.flash ∧
    (dropTagged x0 x1 x2).bureau = x0.bureau ∧ (dropTagged x0 x1 x2).power = x0.power ∧ (dropTagged x0 x1 x2).limits = x0.limits ∧
    (dropTagged x0 x1 x2).fuses = x0.fuses ∧ (dropTagged x0 x1 x2).shelfSkips = x0.shelfSkips ∧
    (dropTagged x0 x1 x2).shelfCuts = x0.shelfCuts ∧ (dropTagged x0 x1 x2).free = x0.free ∧ (dropTagged x0 x1 x2).pending = x0.pending := by simp [dropTagged]

@[simp] theorem commitNotice_frame (x0 x1 x2) : (commitNotice x0 x1 x2).fabric = x0.fabric ∧ (commitNotice x0 x1 x2).engines = x0.engines ∧
    (commitNotice x0 x1 x2).host = x0.host ∧ (commitNotice x0 x1 x2).gen = x0.gen ∧ (commitNotice x0 x1 x2).text = x0.text ∧
    (commitNotice x0 x1 x2).pair = x0.pair ∧ (commitNotice x0 x1 x2).flash = x0.flash ∧ (commitNotice x0 x1 x2).bureau = x0.bureau ∧
    (commitNotice x0 x1 x2).power = x0.power ∧ (commitNotice x0 x1 x2).limits = x0.limits ∧ (commitNotice x0 x1 x2).fuses = x0.fuses ∧
    (commitNotice x0 x1 x2).shelfSkips = x0.shelfSkips ∧ (commitNotice x0 x1 x2).shelfCuts = x0.shelfCuts ∧
    (commitNotice x0 x1 x2).free = x0.free ∧ (commitNotice x0 x1 x2).pending = x0.pending := by simp [commitNotice]

theorem execCommitNotice_frame (x0 x1 x2) : ∀ t, (execCommitNotice x0 x1 x2) = .next t → t.fabric = x2.fabric ∧ t.engines = x2.engines ∧
    t.host = x2.host ∧ t.gen = x2.gen ∧ t.text = x2.text ∧ t.pair = x2.pair ∧ t.flash = x2.flash ∧ t.bureau = x2.bureau ∧ t.power = x2.power ∧
    t.limits = x2.limits ∧ t.fuses = x2.fuses ∧ t.shelfSkips = x2.shelfSkips ∧ t.shelfCuts = x2.shelfCuts ∧ t.free = x2.free ∧
    t.pending = x2.pending := by simp [execCommitNotice]

@[simp] theorem retractNotice_frame (x0 x1 x2) : (retractNotice x0 x1 x2).fabric = x0.fabric ∧ (retractNotice x0 x1 x2).engines = x0.engines ∧
    (retractNotice x0 x1 x2).host = x0.host ∧ (retractNotice x0 x1 x2).gen = x0.gen ∧ (retractNotice x0 x1 x2).text = x0.text ∧
    (retractNotice x0 x1 x2).pair = x0.pair ∧ (retractNotice x0 x1 x2).flash = x0.flash ∧ (retractNotice x0 x1 x2).bureau = x0.bureau ∧
    (retractNotice x0 x1 x2).power = x0.power ∧ (retractNotice x0 x1 x2).limits = x0.limits ∧ (retractNotice x0 x1 x2).fuses = x0.fuses ∧
    (retractNotice x0 x1 x2).shelfSkips = x0.shelfSkips ∧ (retractNotice x0 x1 x2).shelfCuts = x0.shelfCuts ∧
    (retractNotice x0 x1 x2).free = x0.free ∧ (retractNotice x0 x1 x2).pending = x0.pending := by simp [retractNotice]

theorem execRetractNotice_frame (x0 x1 x2) : ∀ t, (execRetractNotice x0 x1 x2) = .next t → t.fabric = x2.fabric ∧ t.engines = x2.engines ∧
    t.host = x2.host ∧ t.gen = x2.gen ∧ t.text = x2.text ∧ t.pair = x2.pair ∧ t.flash = x2.flash ∧ t.bureau = x2.bureau ∧ t.power = x2.power ∧
    t.limits = x2.limits ∧ t.fuses = x2.fuses ∧ t.shelfSkips = x2.shelfSkips ∧ t.shelfCuts = x2.shelfCuts ∧ t.free = x2.free ∧
    t.pending = x2.pending := by simp [execRetractNotice]

@[simp] theorem clearStore_frame (x0) : (clearStore x0).fabric = x0.fabric ∧ (clearStore x0).tier = x0.tier ∧
    (clearStore x0).engines = x0.engines ∧ (clearStore x0).host = x0.host ∧ (clearStore x0).gen = x0.gen ∧ (clearStore x0).text = x0.text ∧
    (clearStore x0).pair = x0.pair ∧ (clearStore x0).flash = x0.flash ∧ (clearStore x0).bureau = x0.bureau ∧
    (clearStore x0).power = x0.power ∧ (clearStore x0).limits = x0.limits ∧ (clearStore x0).fuses = x0.fuses ∧
    (clearStore x0).shelfSkips = x0.shelfSkips ∧ (clearStore x0).shelfCuts = x0.shelfCuts ∧ (clearStore x0).free = x0.free ∧
    (clearStore x0).pending = x0.pending := by simp [clearStore]

/-! ## Links -/

@[simp] theorem serveRequest_frame (x0 x1 x2) : (serveRequest x0 x1 x2).tier = x1.tier ∧ (serveRequest x0 x1 x2).engines = x1.engines ∧
    (serveRequest x0 x1 x2).text = x1.text ∧ (serveRequest x0 x1 x2).pair = x1.pair ∧ (serveRequest x0 x1 x2).flash = x1.flash ∧
    (serveRequest x0 x1 x2).power = x1.power ∧ (serveRequest x0 x1 x2).limits = x1.limits ∧ (serveRequest x0 x1 x2).fuses = x1.fuses ∧
    (serveRequest x0 x1 x2).shelfSkips = x1.shelfSkips ∧ (serveRequest x0 x1 x2).shelfCuts = x1.shelfCuts ∧
    (serveRequest x0 x1 x2).free = x1.free ∧ (serveRequest x0 x1 x2).pending = x1.pending := by simp [serveRequest]

@[simp] theorem storeFlit_frame (x0 x1 x2) : (storeFlit x0 x1 x2).tier = x0.tier ∧ (storeFlit x0 x1 x2).engines = x0.engines ∧
    (storeFlit x0 x1 x2).text = x0.text ∧ (storeFlit x0 x1 x2).pair = x0.pair ∧ (storeFlit x0 x1 x2).flash = x0.flash ∧
    (storeFlit x0 x1 x2).power = x0.power ∧ (storeFlit x0 x1 x2).limits = x0.limits ∧ (storeFlit x0 x1 x2).fuses = x0.fuses ∧
    (storeFlit x0 x1 x2).shelfSkips = x0.shelfSkips ∧ (storeFlit x0 x1 x2).shelfCuts = x0.shelfCuts ∧ (storeFlit x0 x1 x2).free = x0.free ∧
    (storeFlit x0 x1 x2).pending = x0.pending := by
  unfold storeFlit
  repeat' split
  all_goals ((try simp only [Prod.ext_iff] at *); (try casesm* _ ∧ _); (try subst_vars); first | (simp; done) | (simp_all; done) | skip)

@[simp] theorem arriveTile_frame (x0 x1 x2) : (arriveTile x0 x1 x2).store = x0.store ∧ (arriveTile x0 x1 x2).tier = x0.tier ∧
    (arriveTile x0 x1 x2).text = x0.text ∧ (arriveTile x0 x1 x2).pair = x0.pair ∧ (arriveTile x0 x1 x2).flash = x0.flash ∧
    (arriveTile x0 x1 x2).power = x0.power ∧ (arriveTile x0 x1 x2).limits = x0.limits ∧ (arriveTile x0 x1 x2).fuses = x0.fuses ∧
    (arriveTile x0 x1 x2).shelfSkips = x0.shelfSkips ∧ (arriveTile x0 x1 x2).shelfCuts = x0.shelfCuts ∧ (arriveTile x0 x1 x2).free = x0.free ∧
    (arriveTile x0 x1 x2).pending = x0.pending := by
  unfold arriveTile
  repeat' split
  all_goals ((try simp only [Prod.ext_iff] at *); (try casesm* _ ∧ _); (try subst_vars); first | (simp; done) | (simp_all; done) | skip)

@[simp] theorem takeData_frame (x0 x1 x2) : (takeData x0 x1 x2).store = x0.store ∧ (takeData x0 x1 x2).tier = x0.tier ∧
    (takeData x0 x1 x2).text = x0.text ∧ (takeData x0 x1 x2).pair = x0.pair ∧ (takeData x0 x1 x2).flash = x0.flash ∧
    (takeData x0 x1 x2).power = x0.power ∧ (takeData x0 x1 x2).limits = x0.limits ∧ (takeData x0 x1 x2).fuses = x0.fuses ∧
    (takeData x0 x1 x2).shelfSkips = x0.shelfSkips ∧ (takeData x0 x1 x2).shelfCuts = x0.shelfCuts ∧ (takeData x0 x1 x2).free = x0.free ∧
    (takeData x0 x1 x2).pending = x0.pending := by simp [takeData]

@[simp] theorem deliverDown_frame (x0 x1 x2) : (deliverDown x0 x1 x2).tier = x0.tier ∧ (deliverDown x0 x1 x2).text = x0.text ∧
    (deliverDown x0 x1 x2).pair = x0.pair ∧ (deliverDown x0 x1 x2).flash = x0.flash ∧ (deliverDown x0 x1 x2).power = x0.power ∧
    (deliverDown x0 x1 x2).limits = x0.limits ∧ (deliverDown x0 x1 x2).fuses = x0.fuses ∧ (deliverDown x0 x1 x2).shelfSkips = x0.shelfSkips ∧
    (deliverDown x0 x1 x2).shelfCuts = x0.shelfCuts ∧ (deliverDown x0 x1 x2).free = x0.free ∧ (deliverDown x0 x1 x2).pending = x0.pending := by simp [deliverDown]

@[simp] theorem deliverUp_frame (x0 x1 x2) : (deliverUp x0 x1 x2).store = x0.store ∧ (deliverUp x0 x1 x2).tier = x0.tier ∧
    (deliverUp x0 x1 x2).engines = x0.engines ∧ (deliverUp x0 x1 x2).host = x0.host ∧ (deliverUp x0 x1 x2).gen = x0.gen ∧
    (deliverUp x0 x1 x2).text = x0.text ∧ (deliverUp x0 x1 x2).pair = x0.pair ∧ (deliverUp x0 x1 x2).flash = x0.flash ∧
    (deliverUp x0 x1 x2).bureau = x0.bureau ∧ (deliverUp x0 x1 x2).power = x0.power ∧ (deliverUp x0 x1 x2).limits = x0.limits ∧
    (deliverUp x0 x1 x2).fuses = x0.fuses ∧ (deliverUp x0 x1 x2).shelfSkips = x0.shelfSkips ∧ (deliverUp x0 x1 x2).shelfCuts = x0.shelfCuts ∧
    (deliverUp x0 x1 x2).free = x0.free ∧ (deliverUp x0 x1 x2).pending = x0.pending := by simp [deliverUp]

@[simp] theorem deliverFlit_frame (x0 x1 x2) : (deliverFlit x0 x1 x2).tier = x0.tier ∧ (deliverFlit x0 x1 x2).text = x0.text ∧
    (deliverFlit x0 x1 x2).pair = x0.pair ∧ (deliverFlit x0 x1 x2).flash = x0.flash ∧ (deliverFlit x0 x1 x2).power = x0.power ∧
    (deliverFlit x0 x1 x2).limits = x0.limits ∧ (deliverFlit x0 x1 x2).fuses = x0.fuses ∧ (deliverFlit x0 x1 x2).shelfSkips = x0.shelfSkips ∧
    (deliverFlit x0 x1 x2).shelfCuts = x0.shelfCuts ∧ (deliverFlit x0 x1 x2).free = x0.free ∧ (deliverFlit x0 x1 x2).pending = x0.pending := by simp [deliverFlit]

@[simp] theorem flitReceive_frame (x0 x1 x2) : (flitReceive x0 x1 x2).tier = x0.tier ∧ (flitReceive x0 x1 x2).text = x0.text ∧
    (flitReceive x0 x1 x2).pair = x0.pair ∧ (flitReceive x0 x1 x2).flash = x0.flash ∧ (flitReceive x0 x1 x2).power = x0.power ∧
    (flitReceive x0 x1 x2).limits = x0.limits ∧ (flitReceive x0 x1 x2).fuses = x0.fuses ∧ (flitReceive x0 x1 x2).shelfSkips = x0.shelfSkips ∧
    (flitReceive x0 x1 x2).shelfCuts = x0.shelfCuts ∧ (flitReceive x0 x1 x2).free = x0.free ∧ (flitReceive x0 x1 x2).pending = x0.pending := by simp [flitReceive]

theorem execDieLinkFlitReceive_frame (x0 x1 x2) : ∀ t, (execDieLinkFlitReceive x0 x1 x2) = .next t → t.tier = x2.tier ∧ t.text = x2.text ∧
    t.pair = x2.pair ∧ t.flash = x2.flash ∧ t.power = x2.power ∧ t.limits = x2.limits ∧ t.fuses = x2.fuses ∧ t.shelfSkips = x2.shelfSkips ∧
    t.shelfCuts = x2.shelfCuts ∧ t.free = x2.free ∧ t.pending = x2.pending := by simp [execDieLinkFlitReceive]

/-! ## Flash -/

@[simp] theorem setFblk_frame (x0 x1 x2 x3 x4) : (setFblk x0 x1 x2 x3 x4).fabric = x0.fabric ∧ (setFblk x0 x1 x2 x3 x4).store = x0.store ∧
    (setFblk x0 x1 x2 x3 x4).tier = x0.tier ∧ (setFblk x0 x1 x2 x3 x4).engines = x0.engines ∧ (setFblk x0 x1 x2 x3 x4).host = x0.host ∧
    (setFblk x0 x1 x2 x3 x4).gen = x0.gen ∧ (setFblk x0 x1 x2 x3 x4).text = x0.text ∧ (setFblk x0 x1 x2 x3 x4).pair = x0.pair ∧
    (setFblk x0 x1 x2 x3 x4).bureau = x0.bureau ∧ (setFblk x0 x1 x2 x3 x4).power = x0.power ∧ (setFblk x0 x1 x2 x3 x4).limits = x0.limits ∧
    (setFblk x0 x1 x2 x3 x4).fuses = x0.fuses ∧ (setFblk x0 x1 x2 x3 x4).shelfSkips = x0.shelfSkips ∧
    (setFblk x0 x1 x2 x3 x4).shelfCuts = x0.shelfCuts ∧ (setFblk x0 x1 x2 x3 x4).free = x0.free ∧
    (setFblk x0 x1 x2 x3 x4).pending = x0.pending := by simp [setFblk]

@[simp] theorem raiseOnce_frame (x0 x1 x2 x3) : (raiseOnce x0 x1 x2 x3).fabric = x0.fabric ∧ (raiseOnce x0 x1 x2 x3).store = x0.store ∧
    (raiseOnce x0 x1 x2 x3).tier = x0.tier ∧ (raiseOnce x0 x1 x2 x3).engines = x0.engines ∧ (raiseOnce x0 x1 x2 x3).gen = x0.gen ∧
    (raiseOnce x0 x1 x2 x3).text = x0.text ∧ (raiseOnce x0 x1 x2 x3).pair = x0.pair ∧ (raiseOnce x0 x1 x2 x3).power = x0.power ∧
    (raiseOnce x0 x1 x2 x3).limits = x0.limits ∧ (raiseOnce x0 x1 x2 x3).fuses = x0.fuses ∧
    (raiseOnce x0 x1 x2 x3).shelfSkips = x0.shelfSkips ∧ (raiseOnce x0 x1 x2 x3).shelfCuts = x0.shelfCuts ∧
    (raiseOnce x0 x1 x2 x3).free = x0.free ∧ (raiseOnce x0 x1 x2 x3).pending = x0.pending := by simp [raiseOnce]

@[simp] theorem checkHealth_frame (x0 x1) : (checkHealth x0 x1).fabric = x0.fabric ∧ (checkHealth x0 x1).store = x0.store ∧
    (checkHealth x0 x1).tier = x0.tier ∧ (checkHealth x0 x1).engines = x0.engines ∧ (checkHealth x0 x1).gen = x0.gen ∧
    (checkHealth x0 x1).text = x0.text ∧ (checkHealth x0 x1).pair = x0.pair ∧ (checkHealth x0 x1).power = x0.power ∧
    (checkHealth x0 x1).limits = x0.limits ∧ (checkHealth x0 x1).fuses = x0.fuses ∧ (checkHealth x0 x1).shelfSkips = x0.shelfSkips ∧
    (checkHealth x0 x1).shelfCuts = x0.shelfCuts ∧ (checkHealth x0 x1).free = x0.free ∧ (checkHealth x0 x1).pending = x0.pending := by simp [checkHealth]

@[simp] theorem takeSeq_frame (x0 x1) : ((takeSeq x0 x1)).2.fabric = x0.fabric ∧ ((takeSeq x0 x1)).2.store = x0.store ∧
    ((takeSeq x0 x1)).2.tier = x0.tier ∧ ((takeSeq x0 x1)).2.engines = x0.engines ∧ ((takeSeq x0 x1)).2.host = x0.host ∧
    ((takeSeq x0 x1)).2.gen = x0.gen ∧ ((takeSeq x0 x1)).2.text = x0.text ∧ ((takeSeq x0 x1)).2.pair = x0.pair ∧
    ((takeSeq x0 x1)).2.bureau = x0.bureau ∧ ((takeSeq x0 x1)).2.power = x0.power ∧ ((takeSeq x0 x1)).2.limits = x0.limits ∧
    ((takeSeq x0 x1)).2.fuses = x0.fuses ∧ ((takeSeq x0 x1)).2.shelfSkips = x0.shelfSkips ∧ ((takeSeq x0 x1)).2.shelfCuts = x0.shelfCuts ∧
    ((takeSeq x0 x1)).2.free = x0.free ∧ ((takeSeq x0 x1)).2.pending = x0.pending := by simp [takeSeq]

theorem pickMembers.pickOne_frame (x0 x1 x2 x3) : ∀ t, (pickMembers.pickOne x0 x1 x2 x3) = some t → (t).2.fabric = x2.fabric ∧
    (t).2.store = x2.store ∧ (t).2.tier = x2.tier ∧ (t).2.engines = x2.engines ∧ (t).2.host = x2.host ∧ (t).2.gen = x2.gen ∧
    (t).2.text = x2.text ∧ (t).2.pair = x2.pair ∧ (t).2.flash = x2.flash ∧ (t).2.bureau = x2.bureau ∧ (t).2.power = x2.power ∧
    (t).2.limits = x2.limits ∧ (t).2.fuses = x2.fuses ∧ (t).2.shelfSkips = x2.shelfSkips ∧ (t).2.shelfCuts = x2.shelfCuts ∧
    (t).2.pending = x2.pending := by
  simp only [pickMembers.pickOne]
  repeat' split
  all_goals ((try simp only [Prod.ext_iff] at *); (try casesm* _ ∧ _); (try subst_vars); (try simp))

theorem pickMembers_frame (x0 x1 x2 x3) : ∀ t, (pickMembers x0 x1 x2 x3) = some t → (t).2.fabric = x0.fabric ∧ (t).2.store = x0.store ∧
    (t).2.tier = x0.tier ∧ (t).2.engines = x0.engines ∧ (t).2.host = x0.host ∧ (t).2.gen = x0.gen ∧ (t).2.text = x0.text ∧
    (t).2.pair = x0.pair ∧ (t).2.flash = x0.flash ∧ (t).2.bureau = x0.bureau ∧ (t).2.power = x0.power ∧ (t).2.limits = x0.limits ∧
    (t).2.fuses = x0.fuses ∧ (t).2.shelfSkips = x0.shelfSkips ∧ (t).2.shelfCuts = x0.shelfCuts ∧ (t).2.pending = x0.pending := by
  induction x3 with
  | zero => intro t h; simp [pickMembers] at h; subst h; simp
  | succ c ih =>
    intro t h
    simp only [pickMembers] at h
    split at h
    · cases h
    · rename_i heq; have hi := ih _ heq
      split at h
      · split at h
        · cases h; exact hi
        · have := pickMembers.pickOne_frame _ _ _ _ _ h; simp_all
      · have := pickMembers.pickOne_frame _ _ _ _ _ h; simp_all

theorem openGroup_frame (x0 x1 x2 x3) : ∀ t, (openGroup x0 x1 x2 x3) = some t → (t).2.fabric = x0.fabric ∧ (t).2.store = x0.store ∧
    (t).2.tier = x0.tier ∧ (t).2.engines = x0.engines ∧ (t).2.host = x0.host ∧ (t).2.gen = x0.gen ∧ (t).2.text = x0.text ∧
    (t).2.pair = x0.pair ∧ (t).2.bureau = x0.bureau ∧ (t).2.power = x0.power ∧ (t).2.limits = x0.limits ∧ (t).2.fuses = x0.fuses ∧
    (t).2.shelfSkips = x0.shelfSkips ∧ (t).2.shelfCuts = x0.shelfCuts ∧ (t).2.pending = x0.pending := by
  unfold openGroup
  repeat' split
  all_goals ((try simp only [Prod.ext_iff] at *); (try casesm* _ ∧ _); (try subst_vars); (try have hh_4 := pickMembers_frame _ _ _ _ _ (by assumption)); first | (simp; done) | (simp_all; done) | skip)

@[simp] theorem issueProgram_frame (x0 x1 x2 x3 x4) : (issueProgram x0 x1 x2 x3 x4).fabric = x0.fabric ∧
    (issueProgram x0 x1 x2 x3 x4).store = x0.store ∧ (issueProgram x0 x1 x2 x3 x4).tier = x0.tier ∧
    (issueProgram x0 x1 x2 x3 x4).engines = x0.engines ∧ (issueProgram x0 x1 x2 x3 x4).host = x0.host ∧
    (issueProgram x0 x1 x2 x3 x4).gen = x0.gen ∧ (issueProgram x0 x1 x2 x3 x4).text = x0.text ∧ (issueProgram x0 x1 x2 x3 x4).pair = x0.pair ∧
    (issueProgram x0 x1 x2 x3 x4).bureau = x0.bureau ∧ (issueProgram x0 x1 x2 x3 x4).power = x0.power ∧
    (issueProgram x0 x1 x2 x3 x4).limits = x0.limits ∧ (issueProgram x0 x1 x2 x3 x4).fuses = x0.fuses ∧
    (issueProgram x0 x1 x2 x3 x4).shelfSkips = x0.shelfSkips ∧ (issueProgram x0 x1 x2 x3 x4).shelfCuts = x0.shelfCuts ∧
    (issueProgram x0 x1 x2 x3 x4).free = x0.free ∧ (issueProgram x0 x1 x2 x3 x4).pending = x0.pending := by
  unfold issueProgram
  repeat' split
  all_goals ((try simp only [Prod.ext_iff] at *); (try casesm* _ ∧ _); (try subst_vars); (try simp))

@[simp] theorem programUnit_frame (x0 x1 x2 x3 x4) : (programUnit x0 x1 x2 x3 x4).fabric = x0.fabric ∧
    (programUnit x0 x1 x2 x3 x4).store = x0.store ∧ (programUnit x0 x1 x2 x3 x4).tier = x0.tier ∧
    (programUnit x0 x1 x2 x3 x4).engines = x0.engines ∧ (programUnit x0 x1 x2 x3 x4).host = x0.host ∧
    (programUnit x0 x1 x2 x3 x4).gen = x0.gen ∧ (programUnit x0 x1 x2 x3 x4).text = x0.text ∧ (programUnit x0 x1 x2 x3 x4).pair = x0.pair ∧
    (programUnit x0 x1 x2 x3 x4).bureau = x0.bureau ∧ (programUnit x0 x1 x2 x3 x4).power = x0.power ∧
    (programUnit x0 x1 x2 x3 x4).limits = x0.limits ∧ (programUnit x0 x1 x2 x3 x4).fuses = x0.fuses ∧
    (programUnit x0 x1 x2 x3 x4).shelfSkips = x0.shelfSkips ∧ (programUnit x0 x1 x2 x3 x4).shelfCuts = x0.shelfCuts ∧
    (programUnit x0 x1 x2 x3 x4).pending = x0.pending := by
  unfold programUnit
  repeat' split
  all_goals ((try simp only [Prod.ext_iff] at *); (try casesm* _ ∧ _); (try subst_vars); (try have hh_4 := openGroup_frame _ _ _ _ _ (by assumption)); first | (simp; done) | (simp_all; done) | skip)

@[simp] theorem writeUnit_frame (x0 x1 x2 x3) : ((writeUnit x0 x1 x2 x3)).1.fabric = x0.fabric ∧
    ((writeUnit x0 x1 x2 x3)).1.store = x0.store ∧ ((writeUnit x0 x1 x2 x3)).1.tier = x0.tier ∧
    ((writeUnit x0 x1 x2 x3)).1.engines = x0.engines ∧ ((writeUnit x0 x1 x2 x3)).1.host = x0.host ∧ ((writeUnit x0 x1 x2 x3)).1.gen = x0.gen ∧
    ((writeUnit x0 x1 x2 x3)).1.text = x0.text ∧ ((writeUnit x0 x1 x2 x3)).1.pair = x0.pair ∧ ((writeUnit x0 x1 x2 x3)).1.bureau = x0.bureau ∧
    ((writeUnit x0 x1 x2 x3)).1.power = x0.power ∧ ((writeUnit x0 x1 x2 x3)).1.limits = x0.limits ∧
    ((writeUnit x0 x1 x2 x3)).1.fuses = x0.fuses ∧ ((writeUnit x0 x1 x2 x3)).1.shelfSkips = x0.shelfSkips ∧
    ((writeUnit x0 x1 x2 x3)).1.shelfCuts = x0.shelfCuts ∧ ((writeUnit x0 x1 x2 x3)).1.pending = x0.pending := by simp [writeUnit]

@[simp] theorem retryStalled_frame (x0) : (retryStalled x0).fabric = x0.fabric ∧ (retryStalled x0).store = x0.store ∧
    (retryStalled x0).tier = x0.tier ∧ (retryStalled x0).engines = x0.engines ∧ (retryStalled x0).host = x0.host ∧
    (retryStalled x0).gen = x0.gen ∧ (retryStalled x0).text = x0.text ∧ (retryStalled x0).pair = x0.pair ∧
    (retryStalled x0).bureau = x0.bureau ∧ (retryStalled x0).power = x0.power ∧ (retryStalled x0).limits = x0.limits ∧
    (retryStalled x0).fuses = x0.fuses ∧ (retryStalled x0).shelfSkips = x0.shelfSkips ∧ (retryStalled x0).shelfCuts = x0.shelfCuts ∧
    (retryStalled x0).pending = x0.pending := by simp [retryStalled]

@[simp] theorem appendRecord_frame (x0 x1) : (appendRecord x0 x1).fabric = x0.fabric ∧ (appendRecord x0 x1).store = x0.store ∧
    (appendRecord x0 x1).tier = x0.tier ∧ (appendRecord x0 x1).engines = x0.engines ∧ (appendRecord x0 x1).host = x0.host ∧
    (appendRecord x0 x1).gen = x0.gen ∧ (appendRecord x0 x1).text = x0.text ∧ (appendRecord x0 x1).pair = x0.pair ∧
    (appendRecord x0 x1).bureau = x0.bureau ∧ (appendRecord x0 x1).power = x0.power ∧ (appendRecord x0 x1).limits = x0.limits ∧
    (appendRecord x0 x1).fuses = x0.fuses ∧ (appendRecord x0 x1).shelfSkips = x0.shelfSkips ∧ (appendRecord x0 x1).shelfCuts = x0.shelfCuts ∧
    (appendRecord x0 x1).free = x0.free ∧ (appendRecord x0 x1).pending = x0.pending := by simp [appendRecord]

@[simp] theorem setMap_frame (x0 x1 x2 x3 x4) : (setMap x0 x1 x2 x3 x4).fabric = x0.fabric ∧ (setMap x0 x1 x2 x3 x4).store = x0.store ∧
    (setMap x0 x1 x2 x3 x4).tier = x0.tier ∧ (setMap x0 x1 x2 x3 x4).engines = x0.engines ∧ (setMap x0 x1 x2 x3 x4).host = x0.host ∧
    (setMap x0 x1 x2 x3 x4).gen = x0.gen ∧ (setMap x0 x1 x2 x3 x4).text = x0.text ∧ (setMap x0 x1 x2 x3 x4).pair = x0.pair ∧
    (setMap x0 x1 x2 x3 x4).bureau = x0.bureau ∧ (setMap x0 x1 x2 x3 x4).power = x0.power ∧ (setMap x0 x1 x2 x3 x4).limits = x0.limits ∧
    (setMap x0 x1 x2 x3 x4).fuses = x0.fuses ∧ (setMap x0 x1 x2 x3 x4).shelfSkips = x0.shelfSkips ∧
    (setMap x0 x1 x2 x3 x4).shelfCuts = x0.shelfCuts ∧ (setMap x0 x1 x2 x3 x4).free = x0.free ∧ (setMap x0 x1 x2 x3 x4).pending = x0.pending := by simp [setMap]

@[simp] theorem trimUnit_frame (x0 x1) : (trimUnit x0 x1).fabric = x0.fabric ∧ (trimUnit x0 x1).store = x0.store ∧
    (trimUnit x0 x1).tier = x0.tier ∧ (trimUnit x0 x1).engines = x0.engines ∧ (trimUnit x0 x1).host = x0.host ∧
    (trimUnit x0 x1).gen = x0.gen ∧ (trimUnit x0 x1).text = x0.text ∧ (trimUnit x0 x1).pair = x0.pair ∧ (trimUnit x0 x1).bureau = x0.bureau ∧
    (trimUnit x0 x1).power = x0.power ∧ (trimUnit x0 x1).limits = x0.limits ∧ (trimUnit x0 x1).fuses = x0.fuses ∧
    (trimUnit x0 x1).shelfSkips = x0.shelfSkips ∧ (trimUnit x0 x1).shelfCuts = x0.shelfCuts ∧ (trimUnit x0 x1).free = x0.free ∧
    (trimUnit x0 x1).pending = x0.pending := by simp [trimUnit]

@[simp] theorem relocateBlock_frame (x0 x1 x2 x3) : (relocateBlock x0 x1 x2 x3).fabric = x0.fabric ∧
    (relocateBlock x0 x1 x2 x3).store = x0.store ∧ (relocateBlock x0 x1 x2 x3).tier = x0.tier ∧
    (relocateBlock x0 x1 x2 x3).engines = x0.engines ∧ (relocateBlock x0 x1 x2 x3).host = x0.host ∧ (relocateBlock x0 x1 x2 x3).gen = x0.gen ∧
    (relocateBlock x0 x1 x2 x3).text = x0.text ∧ (relocateBlock x0 x1 x2 x3).pair = x0.pair ∧ (relocateBlock x0 x1 x2 x3).bureau = x0.bureau ∧
    (relocateBlock x0 x1 x2 x3).power = x0.power ∧ (relocateBlock x0 x1 x2 x3).limits = x0.limits ∧
    (relocateBlock x0 x1 x2 x3).fuses = x0.fuses ∧ (relocateBlock x0 x1 x2 x3).shelfSkips = x0.shelfSkips ∧
    (relocateBlock x0 x1 x2 x3).shelfCuts = x0.shelfCuts ∧ (relocateBlock x0 x1 x2 x3).pending = x0.pending := by simp [relocateBlock]

@[simp] theorem retireBlock_frame (x0 x1 x2 x3 x4) : (retireBlock x0 x1 x2 x3 x4).fabric = x0.fabric ∧
    (retireBlock x0 x1 x2 x3 x4).store = x0.store ∧ (retireBlock x0 x1 x2 x3 x4).tier = x0.tier ∧
    (retireBlock x0 x1 x2 x3 x4).engines = x0.engines ∧ (retireBlock x0 x1 x2 x3 x4).gen = x0.gen ∧
    (retireBlock x0 x1 x2 x3 x4).text = x0.text ∧ (retireBlock x0 x1 x2 x3 x4).pair = x0.pair ∧
    (retireBlock x0 x1 x2 x3 x4).power = x0.power ∧ (retireBlock x0 x1 x2 x3 x4).limits = x0.limits ∧
    (retireBlock x0 x1 x2 x3 x4).fuses = x0.fuses ∧ (retireBlock x0 x1 x2 x3 x4).shelfSkips = x0.shelfSkips ∧
    (retireBlock x0 x1 x2 x3 x4).shelfCuts = x0.shelfCuts ∧ (retireBlock x0 x1 x2 x3 x4).pending = x0.pending := by simp [retireBlock]

@[simp] theorem loadFinal_frame (x0 x1 x2) : (loadFinal x0 x1 x2).fabric = x0.fabric ∧ (loadFinal x0 x1 x2).store = x0.store ∧
    (loadFinal x0 x1 x2).tier = x0.tier ∧ (loadFinal x0 x1 x2).engines = x0.engines ∧ (loadFinal x0 x1 x2).text = x0.text ∧
    (loadFinal x0 x1 x2).flash = x0.flash ∧ (loadFinal x0 x1 x2).bureau = x0.bureau ∧ (loadFinal x0 x1 x2).power = x0.power ∧
    (loadFinal x0 x1 x2).limits = x0.limits ∧ (loadFinal x0 x1 x2).fuses = x0.fuses ∧ (loadFinal x0 x1 x2).shelfSkips = x0.shelfSkips ∧
    (loadFinal x0 x1 x2).shelfCuts = x0.shelfCuts ∧ (loadFinal x0 x1 x2).pending = x0.pending := by simp [loadFinal]

@[simp] theorem loadAck_frame (x0 x1) : (loadAck x0 x1).fabric = x0.fabric ∧ (loadAck x0 x1).store = x0.store ∧
    (loadAck x0 x1).tier = x0.tier ∧ (loadAck x0 x1).engines = x0.engines ∧ (loadAck x0 x1).text = x0.text ∧
    (loadAck x0 x1).flash = x0.flash ∧ (loadAck x0 x1).bureau = x0.bureau ∧ (loadAck x0 x1).power = x0.power ∧
    (loadAck x0 x1).limits = x0.limits ∧ (loadAck x0 x1).fuses = x0.fuses ∧ (loadAck x0 x1).shelfSkips = x0.shelfSkips ∧
    (loadAck x0 x1).shelfCuts = x0.shelfCuts ∧ (loadAck x0 x1).pending = x0.pending := by unfold loadAck; split <;> simp

@[simp] theorem ackWaiter_frame (x0 x1) : (ackWaiter x0 x1).fabric = x0.fabric ∧ (ackWaiter x0 x1).store = x0.store ∧
    (ackWaiter x0 x1).tier = x0.tier ∧ (ackWaiter x0 x1).engines = x0.engines ∧ (ackWaiter x0 x1).text = x0.text ∧
    (ackWaiter x0 x1).flash = x0.flash ∧ (ackWaiter x0 x1).bureau = x0.bureau ∧ (ackWaiter x0 x1).power = x0.power ∧
    (ackWaiter x0 x1).limits = x0.limits ∧ (ackWaiter x0 x1).fuses = x0.fuses ∧ (ackWaiter x0 x1).shelfSkips = x0.shelfSkips ∧
    (ackWaiter x0 x1).shelfCuts = x0.shelfCuts ∧ (ackWaiter x0 x1).pending = x0.pending := by unfold ackWaiter; split <;> simp

@[simp] theorem closeGroup_frame (x0 x1) : (closeGroup x0 x1).fabric = x0.fabric ∧ (closeGroup x0 x1).store = x0.store ∧
    (closeGroup x0 x1).tier = x0.tier ∧ (closeGroup x0 x1).engines = x0.engines ∧ (closeGroup x0 x1).host = x0.host ∧
    (closeGroup x0 x1).gen = x0.gen ∧ (closeGroup x0 x1).text = x0.text ∧ (closeGroup x0 x1).pair = x0.pair ∧
    (closeGroup x0 x1).bureau = x0.bureau ∧ (closeGroup x0 x1).power = x0.power ∧ (closeGroup x0 x1).limits = x0.limits ∧
    (closeGroup x0 x1).fuses = x0.fuses ∧ (closeGroup x0 x1).shelfSkips = x0.shelfSkips ∧ (closeGroup x0 x1).shelfCuts = x0.shelfCuts ∧
    (closeGroup x0 x1).free = x0.free ∧ (closeGroup x0 x1).pending = x0.pending := by unfold closeGroup; split <;> simp

@[simp] theorem programDone_frame (x0 x1) : (programDone x0 x1).fabric = x0.fabric ∧ (programDone x0 x1).store = x0.store ∧
    (programDone x0 x1).tier = x0.tier ∧ (programDone x0 x1).engines = x0.engines ∧ (programDone x0 x1).text = x0.text ∧
    (programDone x0 x1).bureau = x0.bureau ∧ (programDone x0 x1).power = x0.power ∧ (programDone x0 x1).limits = x0.limits ∧
    (programDone x0 x1).fuses = x0.fuses ∧ (programDone x0 x1).shelfSkips = x0.shelfSkips ∧ (programDone x0 x1).shelfCuts = x0.shelfCuts ∧
    (programDone x0 x1).pending = x0.pending := by unfold programDone; split <;> simp

@[simp] theorem flashProgramDone_frame (x0 x1 x2) : (flashProgramDone x0 x1 x2).fabric = x0.fabric ∧
    (flashProgramDone x0 x1 x2).store = x0.store ∧ (flashProgramDone x0 x1 x2).tier = x0.tier ∧
    (flashProgramDone x0 x1 x2).engines = x0.engines ∧ (flashProgramDone x0 x1 x2).text = x0.text ∧
    (flashProgramDone x0 x1 x2).power = x0.power ∧ (flashProgramDone x0 x1 x2).limits = x0.limits ∧
    (flashProgramDone x0 x1 x2).fuses = x0.fuses ∧ (flashProgramDone x0 x1 x2).shelfSkips = x0.shelfSkips ∧
    (flashProgramDone x0 x1 x2).shelfCuts = x0.shelfCuts ∧ (flashProgramDone x0 x1 x2).pending = x0.pending := by unfold flashProgramDone; split <;> simp

theorem execFlashProgramDone_frame (x0 x1 x2) : ∀ t, (execFlashProgramDone x0 x1 x2) = .next t → t.fabric = x2.fabric ∧ t.store = x2.store ∧
    t.tier = x2.tier ∧ t.engines = x2.engines ∧ t.text = x2.text ∧ t.power = x2.power ∧ t.limits = x2.limits ∧ t.fuses = x2.fuses ∧
    t.shelfSkips = x2.shelfSkips ∧ t.shelfCuts = x2.shelfCuts ∧ t.pending = x2.pending := by simp [execFlashProgramDone]

@[simp] theorem mapPort_frame (x0 x1) : (mapPort x0 x1).fabric = x0.fabric ∧ (mapPort x0 x1).store = x0.store ∧
    (mapPort x0 x1).tier = x0.tier ∧ (mapPort x0 x1).engines = x0.engines ∧ (mapPort x0 x1).host = x0.host ∧ (mapPort x0 x1).gen = x0.gen ∧
    (mapPort x0 x1).text = x0.text ∧ (mapPort x0 x1).pair = x0.pair ∧ (mapPort x0 x1).bureau = x0.bureau ∧ (mapPort x0 x1).power = x0.power ∧
    (mapPort x0 x1).limits = x0.limits ∧ (mapPort x0 x1).fuses = x0.fuses ∧ (mapPort x0 x1).shelfSkips = x0.shelfSkips ∧
    (mapPort x0 x1).shelfCuts = x0.shelfCuts ∧ (mapPort x0 x1).free = x0.free ∧ (mapPort x0 x1).pending = x0.pending := by simp [mapPort]

theorem execMapPortLookup_frame (x0 x1) : ∀ t, (execMapPortLookup x0 x1) = .next t → t.fabric = x1.fabric ∧ t.store = x1.store ∧
    t.tier = x1.tier ∧ t.engines = x1.engines ∧ t.host = x1.host ∧ t.gen = x1.gen ∧ t.text = x1.text ∧ t.pair = x1.pair ∧
    t.bureau = x1.bureau ∧ t.power = x1.power ∧ t.limits = x1.limits ∧ t.fuses = x1.fuses ∧ t.shelfSkips = x1.shelfSkips ∧
    t.shelfCuts = x1.shelfCuts ∧ t.free = x1.free ∧ t.pending = x1.pending := by simp [execMapPortLookup]

@[simp] theorem flashReadDone_frame (x0 x1 x2) : (flashReadDone x0 x1 x2).fabric = x0.fabric ∧ (flashReadDone x0 x1 x2).store = x0.store ∧
    (flashReadDone x0 x1 x2).engines = x0.engines ∧ (flashReadDone x0 x1 x2).gen = x0.gen ∧ (flashReadDone x0 x1 x2).text = x0.text ∧
    (flashReadDone x0 x1 x2).pair = x0.pair ∧ (flashReadDone x0 x1 x2).power = x0.power ∧ (flashReadDone x0 x1 x2).limits = x0.limits ∧
    (flashReadDone x0 x1 x2).fuses = x0.fuses ∧ (flashReadDone x0 x1 x2).shelfSkips = x0.shelfSkips ∧
    (flashReadDone x0 x1 x2).shelfCuts = x0.shelfCuts ∧ (flashReadDone x0 x1 x2).pending = x0.pending := by
  simp only [flashReadDone]
  repeat' split
  all_goals ((try simp only [Prod.ext_iff] at *); (try casesm* _ ∧ _); (try subst_vars); (try simp))

theorem execFlashReadDone_frame (x0 x1 x2) : ∀ t, (execFlashReadDone x0 x1 x2) = .next t → t.fabric = x2.fabric ∧ t.store = x2.store ∧
    t.engines = x2.engines ∧ t.gen = x2.gen ∧ t.text = x2.text ∧ t.pair = x2.pair ∧ t.power = x2.power ∧ t.limits = x2.limits ∧
    t.fuses = x2.fuses ∧ t.shelfSkips = x2.shelfSkips ∧ t.shelfCuts = x2.shelfCuts ∧ t.pending = x2.pending := by simp [execFlashReadDone]

@[simp] theorem flushJournal_frame (x0) : (flushJournal x0).fabric = x0.fabric ∧ (flushJournal x0).store = x0.store ∧
    (flushJournal x0).tier = x0.tier ∧ (flushJournal x0).engines = x0.engines ∧ (flushJournal x0).host = x0.host ∧
    (flushJournal x0).gen = x0.gen ∧ (flushJournal x0).text = x0.text ∧ (flushJournal x0).pair = x0.pair ∧
    (flushJournal x0).bureau = x0.bureau ∧ (flushJournal x0).power = x0.power ∧ (flushJournal x0).limits = x0.limits ∧
    (flushJournal x0).fuses = x0.fuses ∧ (flushJournal x0).shelfSkips = x0.shelfSkips ∧ (flushJournal x0).shelfCuts = x0.shelfCuts ∧
    (flushJournal x0).free = x0.free ∧ (flushJournal x0).pending = x0.pending := by simp [flushJournal]

@[simp] theorem journalFlush_frame (x0) : (journalFlush x0).fabric = x0.fabric ∧ (journalFlush x0).store = x0.store ∧
    (journalFlush x0).tier = x0.tier ∧ (journalFlush x0).engines = x0.engines ∧ (journalFlush x0).host = x0.host ∧
    (journalFlush x0).gen = x0.gen ∧ (journalFlush x0).text = x0.text ∧ (journalFlush x0).pair = x0.pair ∧
    (journalFlush x0).bureau = x0.bureau ∧ (journalFlush x0).power = x0.power ∧ (journalFlush x0).limits = x0.limits ∧
    (journalFlush x0).fuses = x0.fuses ∧ (journalFlush x0).shelfSkips = x0.shelfSkips ∧ (journalFlush x0).shelfCuts = x0.shelfCuts ∧
    (journalFlush x0).free = x0.free ∧ (journalFlush x0).pending = x0.pending := by simp [journalFlush]

theorem execJournalFlush_frame (x0) : ∀ t, (execJournalFlush x0) = .next t → t.fabric = x0.fabric ∧ t.store = x0.store ∧ t.tier = x0.tier ∧
    t.engines = x0.engines ∧ t.host = x0.host ∧ t.gen = x0.gen ∧ t.text = x0.text ∧ t.pair = x0.pair ∧ t.bureau = x0.bureau ∧
    t.power = x0.power ∧ t.limits = x0.limits ∧ t.fuses = x0.fuses ∧ t.shelfSkips = x0.shelfSkips ∧ t.shelfCuts = x0.shelfCuts ∧
    t.free = x0.free ∧ t.pending = x0.pending := by simp [execJournalFlush]

@[simp] theorem mapImageSegment_frame (x0) : (mapImageSegment x0).fabric = x0.fabric ∧ (mapImageSegment x0).store = x0.store ∧
    (mapImageSegment x0).tier = x0.tier ∧ (mapImageSegment x0).engines = x0.engines ∧ (mapImageSegment x0).host = x0.host ∧
    (mapImageSegment x0).gen = x0.gen ∧ (mapImageSegment x0).text = x0.text ∧ (mapImageSegment x0).pair = x0.pair ∧
    (mapImageSegment x0).bureau = x0.bureau ∧ (mapImageSegment x0).power = x0.power ∧ (mapImageSegment x0).limits = x0.limits ∧
    (mapImageSegment x0).fuses = x0.fuses ∧ (mapImageSegment x0).shelfSkips = x0.shelfSkips ∧ (mapImageSegment x0).shelfCuts = x0.shelfCuts ∧
    (mapImageSegment x0).free = x0.free ∧ (mapImageSegment x0).pending = x0.pending := by simp [mapImageSegment]

theorem execMapImageSegment_frame (x0) : ∀ t, (execMapImageSegment x0) = .next t → t.fabric = x0.fabric ∧ t.store = x0.store ∧
    t.tier = x0.tier ∧ t.engines = x0.engines ∧ t.host = x0.host ∧ t.gen = x0.gen ∧ t.text = x0.text ∧ t.pair = x0.pair ∧
    t.bureau = x0.bureau ∧ t.power = x0.power ∧ t.limits = x0.limits ∧ t.fuses = x0.fuses ∧ t.shelfSkips = x0.shelfSkips ∧
    t.shelfCuts = x0.shelfCuts ∧ t.free = x0.free ∧ t.pending = x0.pending := by simp [execMapImageSegment]

@[simp] theorem groupReadback_frame (x0 x1 x2) : (groupReadback x0 x1 x2).fabric = x0.fabric ∧ (groupReadback x0 x1 x2).store = x0.store ∧
    (groupReadback x0 x1 x2).tier = x0.tier ∧ (groupReadback x0 x1 x2).engines = x0.engines ∧ (groupReadback x0 x1 x2).host = x0.host ∧
    (groupReadback x0 x1 x2).gen = x0.gen ∧ (groupReadback x0 x1 x2).text = x0.text ∧ (groupReadback x0 x1 x2).pair = x0.pair ∧
    (groupReadback x0 x1 x2).bureau = x0.bureau ∧ (groupReadback x0 x1 x2).power = x0.power ∧ (groupReadback x0 x1 x2).limits = x0.limits ∧
    (groupReadback x0 x1 x2).fuses = x0.fuses ∧ (groupReadback x0 x1 x2).shelfSkips = x0.shelfSkips ∧
    (groupReadback x0 x1 x2).shelfCuts = x0.shelfCuts ∧ (groupReadback x0 x1 x2).pending = x0.pending := by
  unfold groupReadback
  repeat' split
  all_goals (refine ⟨?_, ?_, ?_, ?_, ?_, ?_, ?_, ?_, ?_, ?_, ?_, ?_, ?_, ?_, ?_⟩)
  all_goals (try (first | refine (State.foldl_fabric (fun _ _ => ?_) _ _).trans ?_ | refine (State.foldl_store (fun _ _ => ?_) _ _).trans ?_ | refine (State.foldl_tier (fun _ _ => ?_) _ _).trans ?_ | refine (State.foldl_engines (fun _ _ => ?_) _ _).trans ?_ | refine (State.foldl_host (fun _ _ => ?_) _ _).trans ?_ | refine (State.foldl_gen (fun _ _ => ?_) _ _).trans ?_ | refine (State.foldl_text (fun _ _ => ?_) _ _).trans ?_ | refine (State.foldl_pair (fun _ _ => ?_) _ _).trans ?_ | refine (State.foldl_bureau (fun _ _ => ?_) _ _).trans ?_ | refine (State.foldl_power (fun _ _ => ?_) _ _).trans ?_ | refine (State.foldl_limits (fun _ _ => ?_) _ _).trans ?_ | refine (State.foldl_fuses (fun _ _ => ?_) _ _).trans ?_ | refine (State.foldl_shelfSkips (fun _ _ => ?_) _ _).trans ?_ | refine (State.foldl_shelfCuts (fun _ _ => ?_) _ _).trans ?_ | refine (State.foldl_pending (fun _ _ => ?_) _ _).trans ?_ ))
  all_goals (repeat' split)
  all_goals ((try simp only [Prod.ext_iff] at *); (try casesm* _ ∧ _); (try subst_vars); first | (simp; done) | (simp_all; done) | skip)

theorem execGroupReadbackDone_frame (x0 x1 x2) : ∀ t, (execGroupReadbackDone x0 x1 x2) = .next t → t.fabric = x2.fabric ∧ t.store = x2.store ∧
    t.tier = x2.tier ∧ t.engines = x2.engines ∧ t.host = x2.host ∧ t.gen = x2.gen ∧ t.text = x2.text ∧ t.pair = x2.pair ∧
    t.bureau = x2.bureau ∧ t.power = x2.power ∧ t.limits = x2.limits ∧ t.fuses = x2.fuses ∧ t.shelfSkips = x2.shelfSkips ∧
    t.shelfCuts = x2.shelfCuts ∧ t.pending = x2.pending := by simp [execGroupReadbackDone]

@[simp] theorem blockRewrite_frame (x0 x1 x2 x3) : (blockRewrite x0 x1 x2 x3).fabric = x0.fabric ∧
    (blockRewrite x0 x1 x2 x3).store = x0.store ∧ (blockRewrite x0 x1 x2 x3).tier = x0.tier ∧
    (blockRewrite x0 x1 x2 x3).engines = x0.engines ∧ (blockRewrite x0 x1 x2 x3).host = x0.host ∧ (blockRewrite x0 x1 x2 x3).gen = x0.gen ∧
    (blockRewrite x0 x1 x2 x3).text = x0.text ∧ (blockRewrite x0 x1 x2 x3).pair = x0.pair ∧ (blockRewrite x0 x1 x2 x3).bureau = x0.bureau ∧
    (blockRewrite x0 x1 x2 x3).power = x0.power ∧ (blockRewrite x0 x1 x2 x3).limits = x0.limits ∧
    (blockRewrite x0 x1 x2 x3).fuses = x0.fuses ∧ (blockRewrite x0 x1 x2 x3).shelfSkips = x0.shelfSkips ∧
    (blockRewrite x0 x1 x2 x3).shelfCuts = x0.shelfCuts ∧ (blockRewrite x0 x1 x2 x3).pending = x0.pending := by simp [blockRewrite]

theorem execBlockRewrite_frame (x0 x1 x2 x3) : ∀ t, (execBlockRewrite x0 x1 x2 x3) = .next t → t.fabric = x3.fabric ∧ t.store = x3.store ∧
    t.tier = x3.tier ∧ t.engines = x3.engines ∧ t.host = x3.host ∧ t.gen = x3.gen ∧ t.text = x3.text ∧ t.pair = x3.pair ∧
    t.bureau = x3.bureau ∧ t.power = x3.power ∧ t.limits = x3.limits ∧ t.fuses = x3.fuses ∧ t.shelfSkips = x3.shelfSkips ∧
    t.shelfCuts = x3.shelfCuts ∧ t.pending = x3.pending := by simp [execBlockRewrite]

@[simp] theorem wearLevel_frame (x0 x1 x2) : (wearLevel x0 x1 x2).fabric = x0.fabric ∧ (wearLevel x0 x1 x2).store = x0.store ∧
    (wearLevel x0 x1 x2).tier = x0.tier ∧ (wearLevel x0 x1 x2).engines = x0.engines ∧ (wearLevel x0 x1 x2).host = x0.host ∧
    (wearLevel x0 x1 x2).gen = x0.gen ∧ (wearLevel x0 x1 x2).text = x0.text ∧ (wearLevel x0 x1 x2).pair = x0.pair ∧
    (wearLevel x0 x1 x2).bureau = x0.bureau ∧ (wearLevel x0 x1 x2).power = x0.power ∧ (wearLevel x0 x1 x2).limits = x0.limits ∧
    (wearLevel x0 x1 x2).fuses = x0.fuses ∧ (wearLevel x0 x1 x2).shelfSkips = x0.shelfSkips ∧ (wearLevel x0 x1 x2).shelfCuts = x0.shelfCuts ∧
    (wearLevel x0 x1 x2).pending = x0.pending := by
  simp only [wearLevel]
  repeat' split
  all_goals ((try simp only [Prod.ext_iff] at *); (try casesm* _ ∧ _); (try subst_vars); (try have hh_4 := openGroup_frame _ _ _ _ _ (by assumption)); first | (simp; done) | (simp_all; done) | skip)

theorem execWearLevelMove_frame (x0 x1 x2) : ∀ t, (execWearLevelMove x0 x1 x2) = .next t → t.fabric = x2.fabric ∧ t.store = x2.store ∧
    t.tier = x2.tier ∧ t.engines = x2.engines ∧ t.host = x2.host ∧ t.gen = x2.gen ∧ t.text = x2.text ∧ t.pair = x2.pair ∧
    t.bureau = x2.bureau ∧ t.power = x2.power ∧ t.limits = x2.limits ∧ t.fuses = x2.fuses ∧ t.shelfSkips = x2.shelfSkips ∧
    t.shelfCuts = x2.shelfCuts ∧ t.pending = x2.pending := by simp [execWearLevelMove]

@[simp] theorem garbageCollect_frame (x0 x1 x2) : (garbageCollect x0 x1 x2).fabric = x0.fabric ∧ (garbageCollect x0 x1 x2).store = x0.store ∧
    (garbageCollect x0 x1 x2).tier = x0.tier ∧ (garbageCollect x0 x1 x2).engines = x0.engines ∧ (garbageCollect x0 x1 x2).host = x0.host ∧
    (garbageCollect x0 x1 x2).gen = x0.gen ∧ (garbageCollect x0 x1 x2).text = x0.text ∧ (garbageCollect x0 x1 x2).pair = x0.pair ∧
    (garbageCollect x0 x1 x2).bureau = x0.bureau ∧ (garbageCollect x0 x1 x2).power = x0.power ∧ (garbageCollect x0 x1 x2).limits = x0.limits ∧
    (garbageCollect x0 x1 x2).fuses = x0.fuses ∧ (garbageCollect x0 x1 x2).shelfSkips = x0.shelfSkips ∧
    (garbageCollect x0 x1 x2).shelfCuts = x0.shelfCuts ∧ (garbageCollect x0 x1 x2).pending = x0.pending := by
  simp only [garbageCollect]
  repeat' split
  all_goals ((try simp only [Prod.ext_iff] at *); (try casesm* _ ∧ _); (try subst_vars); (try simp))

theorem execGarbageCollect_frame (x0 x1 x2) : ∀ t, (execGarbageCollect x0 x1 x2) = .next t → t.fabric = x2.fabric ∧ t.store = x2.store ∧
    t.tier = x2.tier ∧ t.engines = x2.engines ∧ t.host = x2.host ∧ t.gen = x2.gen ∧ t.text = x2.text ∧ t.pair = x2.pair ∧
    t.bureau = x2.bureau ∧ t.power = x2.power ∧ t.limits = x2.limits ∧ t.fuses = x2.fuses ∧ t.shelfSkips = x2.shelfSkips ∧
    t.shelfCuts = x2.shelfCuts ∧ t.pending = x2.pending := by simp [execGarbageCollect]

@[simp] theorem blockErase_frame (x0 x1 x2 x3) : (blockErase x0 x1 x2 x3).fabric = x0.fabric ∧ (blockErase x0 x1 x2 x3).store = x0.store ∧
    (blockErase x0 x1 x2 x3).tier = x0.tier ∧ (blockErase x0 x1 x2 x3).engines = x0.engines ∧ (blockErase x0 x1 x2 x3).host = x0.host ∧
    (blockErase x0 x1 x2 x3).gen = x0.gen ∧ (blockErase x0 x1 x2 x3).text = x0.text ∧ (blockErase x0 x1 x2 x3).pair = x0.pair ∧
    (blockErase x0 x1 x2 x3).bureau = x0.bureau ∧ (blockErase x0 x1 x2 x3).power = x0.power ∧ (blockErase x0 x1 x2 x3).limits = x0.limits ∧
    (blockErase x0 x1 x2 x3).fuses = x0.fuses ∧ (blockErase x0 x1 x2 x3).shelfSkips = x0.shelfSkips ∧
    (blockErase x0 x1 x2 x3).shelfCuts = x0.shelfCuts ∧ (blockErase x0 x1 x2 x3).free = x0.free ∧
    (blockErase x0 x1 x2 x3).pending = x0.pending := by simp [blockErase]

theorem execBlockErase_frame (x0 x1 x2 x3) : ∀ t, (execBlockErase x0 x1 x2 x3) = .next t → t.fabric = x3.fabric ∧ t.store = x3.store ∧
    t.tier = x3.tier ∧ t.engines = x3.engines ∧ t.host = x3.host ∧ t.gen = x3.gen ∧ t.text = x3.text ∧ t.pair = x3.pair ∧
    t.bureau = x3.bureau ∧ t.power = x3.power ∧ t.limits = x3.limits ∧ t.fuses = x3.fuses ∧ t.shelfSkips = x3.shelfSkips ∧
    t.shelfCuts = x3.shelfCuts ∧ t.free = x3.free ∧ t.pending = x3.pending := by simp [execBlockErase]

@[simp] theorem eraseDone_frame (x0 x1 x2 x3 x4) : (eraseDone x0 x1 x2 x3 x4).fabric = x0.fabric ∧
    (eraseDone x0 x1 x2 x3 x4).store = x0.store ∧ (eraseDone x0 x1 x2 x3 x4).tier = x0.tier ∧
    (eraseDone x0 x1 x2 x3 x4).engines = x0.engines ∧ (eraseDone x0 x1 x2 x3 x4).gen = x0.gen ∧ (eraseDone x0 x1 x2 x3 x4).text = x0.text ∧
    (eraseDone x0 x1 x2 x3 x4).pair = x0.pair ∧ (eraseDone x0 x1 x2 x3 x4).power = x0.power ∧ (eraseDone x0 x1 x2 x3 x4).limits = x0.limits ∧
    (eraseDone x0 x1 x2 x3 x4).fuses = x0.fuses ∧ (eraseDone x0 x1 x2 x3 x4).shelfSkips = x0.shelfSkips ∧
    (eraseDone x0 x1 x2 x3 x4).shelfCuts = x0.shelfCuts ∧ (eraseDone x0 x1 x2 x3 x4).pending = x0.pending := by simp [eraseDone]

theorem execFlashEraseDone_frame (x0 x1 x2 x3 x4) : ∀ t, (execFlashEraseDone x0 x1 x2 x3 x4) = .next t → t.fabric = x4.fabric ∧
    t.store = x4.store ∧ t.tier = x4.tier ∧ t.engines = x4.engines ∧ t.gen = x4.gen ∧ t.text = x4.text ∧ t.pair = x4.pair ∧
    t.power = x4.power ∧ t.limits = x4.limits ∧ t.fuses = x4.fuses ∧ t.shelfSkips = x4.shelfSkips ∧ t.shelfCuts = x4.shelfCuts ∧
    t.pending = x4.pending := by simp [execFlashEraseDone]

@[simp] theorem scanPage_frame (x0 x1 x2 x3) : ((scanPage x0 x1 x2 x3)).1.fabric = (x3).1.fabric ∧
    ((scanPage x0 x1 x2 x3)).1.store = (x3).1.store ∧ ((scanPage x0 x1 x2 x3)).1.tier = (x3).1.tier ∧
    ((scanPage x0 x1 x2 x3)).1.engines = (x3).1.engines ∧ ((scanPage x0 x1 x2 x3)).1.host = (x3).1.host ∧
    ((scanPage x0 x1 x2 x3)).1.gen = (x3).1.gen ∧ ((scanPage x0 x1 x2 x3)).1.text = (x3).1.text ∧
    ((scanPage x0 x1 x2 x3)).1.pair = (x3).1.pair ∧ ((scanPage x0 x1 x2 x3)).1.bureau = (x3).1.bureau ∧
    ((scanPage x0 x1 x2 x3)).1.power = (x3).1.power ∧ ((scanPage x0 x1 x2 x3)).1.limits = (x3).1.limits ∧
    ((scanPage x0 x1 x2 x3)).1.fuses = (x3).1.fuses ∧ ((scanPage x0 x1 x2 x3)).1.shelfSkips = (x3).1.shelfSkips ∧
    ((scanPage x0 x1 x2 x3)).1.shelfCuts = (x3).1.shelfCuts ∧ ((scanPage x0 x1 x2 x3)).1.free = (x3).1.free ∧
    ((scanPage x0 x1 x2 x3)).1.pending = (x3).1.pending := by simp [scanPage]

@[simp] theorem scanMember_frame (x0 x1 x2) : ((scanMember x0 x1 x2)).1.fabric = (x2).1.fabric ∧
    ((scanMember x0 x1 x2)).1.store = (x2).1.store ∧ ((scanMember x0 x1 x2)).1.tier = (x2).1.tier ∧
    ((scanMember x0 x1 x2)).1.engines = (x2).1.engines ∧ ((scanMember x0 x1 x2)).1.host = (x2).1.host ∧
    ((scanMember x0 x1 x2)).1.gen = (x2).1.gen ∧ ((scanMember x0 x1 x2)).1.text = (x2).1.text ∧ ((scanMember x0 x1 x2)).1.pair = (x2).1.pair ∧
    ((scanMember x0 x1 x2)).1.bureau = (x2).1.bureau ∧ ((scanMember x0 x1 x2)).1.power = (x2).1.power ∧
    ((scanMember x0 x1 x2)).1.limits = (x2).1.limits ∧ ((scanMember x0 x1 x2)).1.fuses = (x2).1.fuses ∧
    ((scanMember x0 x1 x2)).1.shelfSkips = (x2).1.shelfSkips ∧ ((scanMember x0 x1 x2)).1.shelfCuts = (x2).1.shelfCuts ∧
    ((scanMember x0 x1 x2)).1.free = (x2).1.free ∧ ((scanMember x0 x1 x2)).1.pending = (x2).1.pending := by simp [scanMember]

@[simp] theorem freeStale_frame (x0) : (freeStale x0).fabric = x0.fabric ∧ (freeStale x0).store = x0.store ∧ (freeStale x0).tier = x0.tier ∧
    (freeStale x0).engines = x0.engines ∧ (freeStale x0).host = x0.host ∧ (freeStale x0).gen = x0.gen ∧ (freeStale x0).text = x0.text ∧
    (freeStale x0).pair = x0.pair ∧ (freeStale x0).bureau = x0.bureau ∧ (freeStale x0).power = x0.power ∧ (freeStale x0).limits = x0.limits ∧
    (freeStale x0).fuses = x0.fuses ∧ (freeStale x0).shelfSkips = x0.shelfSkips ∧ (freeStale x0).shelfCuts = x0.shelfCuts ∧
    (freeStale x0).free = x0.free ∧ (freeStale x0).pending = x0.pending := by simp [freeStale]

@[simp] theorem coldRebuild_frame (x0 x1) : (coldRebuild x0 x1).fabric = x0.fabric ∧ (coldRebuild x0 x1).store = x0.store ∧
    (coldRebuild x0 x1).tier = x0.tier ∧ (coldRebuild x0 x1).engines = x0.engines ∧ (coldRebuild x0 x1).gen = x0.gen ∧
    (coldRebuild x0 x1).text = x0.text ∧ (coldRebuild x0 x1).pair = x0.pair ∧ (coldRebuild x0 x1).power = x0.power ∧
    (coldRebuild x0 x1).limits = x0.limits ∧ (coldRebuild x0 x1).fuses = x0.fuses ∧ (coldRebuild x0 x1).shelfSkips = x0.shelfSkips ∧
    (coldRebuild x0 x1).shelfCuts = x0.shelfCuts ∧ (coldRebuild x0 x1).free = x0.free ∧ (coldRebuild x0 x1).pending = x0.pending := by simp [coldRebuild]

theorem execFtlColdRebuild_frame (x0 x1) : ∀ t, (execFtlColdRebuild x0 x1) = .next t → t.fabric = x1.fabric ∧ t.store = x1.store ∧
    t.tier = x1.tier ∧ t.engines = x1.engines ∧ t.gen = x1.gen ∧ t.text = x1.text ∧ t.pair = x1.pair ∧ t.power = x1.power ∧
    t.limits = x1.limits ∧ t.fuses = x1.fuses ∧ t.shelfSkips = x1.shelfSkips ∧ t.shelfCuts = x1.shelfCuts ∧ t.free = x1.free ∧
    t.pending = x1.pending := by simp [execFtlColdRebuild]

@[simp] theorem warmRebuild_frame (x0 x1 x2) : (warmRebuild x0 x1 x2).fabric = x0.fabric ∧ (warmRebuild x0 x1 x2).store = x0.store ∧
    (warmRebuild x0 x1 x2).tier = x0.tier ∧ (warmRebuild x0 x1 x2).engines = x0.engines ∧ (warmRebuild x0 x1 x2).gen = x0.gen ∧
    (warmRebuild x0 x1 x2).text = x0.text ∧ (warmRebuild x0 x1 x2).pair = x0.pair ∧ (warmRebuild x0 x1 x2).power = x0.power ∧
    (warmRebuild x0 x1 x2).limits = x0.limits ∧ (warmRebuild x0 x1 x2).fuses = x0.fuses ∧ (warmRebuild x0 x1 x2).shelfSkips = x0.shelfSkips ∧
    (warmRebuild x0 x1 x2).shelfCuts = x0.shelfCuts ∧ (warmRebuild x0 x1 x2).free = x0.free ∧ (warmRebuild x0 x1 x2).pending = x0.pending := by simp [warmRebuild]

theorem execFtlWarmRebuild_frame (x0 x1 x2) : ∀ t, (execFtlWarmRebuild x0 x1 x2) = .next t → t.fabric = x2.fabric ∧ t.store = x2.store ∧
    t.tier = x2.tier ∧ t.engines = x2.engines ∧ t.gen = x2.gen ∧ t.text = x2.text ∧ t.pair = x2.pair ∧ t.power = x2.power ∧
    t.limits = x2.limits ∧ t.fuses = x2.fuses ∧ t.shelfSkips = x2.shelfSkips ∧ t.shelfCuts = x2.shelfCuts ∧ t.free = x2.free ∧
    t.pending = x2.pending := by simp [execFtlWarmRebuild]

@[simp] theorem powerFlush_frame (x0 x1 x2) : (powerFlush x0 x1 x2).fabric = x0.fabric ∧ (powerFlush x0 x1 x2).store = x0.store ∧
    (powerFlush x0 x1 x2).tier = x0.tier ∧ (powerFlush x0 x1 x2).engines = x0.engines ∧ (powerFlush x0 x1 x2).text = x0.text ∧
    (powerFlush x0 x1 x2).power = x0.power ∧ (powerFlush x0 x1 x2).limits = x0.limits ∧ (powerFlush x0 x1 x2).fuses = x0.fuses ∧
    (powerFlush x0 x1 x2).shelfSkips = x0.shelfSkips ∧ (powerFlush x0 x1 x2).shelfCuts = x0.shelfCuts ∧
    (powerFlush x0 x1 x2).pending = x0.pending := by simp [powerFlush]

/-! ## Tier -/

@[simp] theorem setEntry_frame (x0 x1 x2) : (setEntry x0 x1 x2).fabric = x0.fabric ∧ (setEntry x0 x1 x2).store = x0.store ∧
    (setEntry x0 x1 x2).engines = x0.engines ∧ (setEntry x0 x1 x2).host = x0.host ∧ (setEntry x0 x1 x2).gen = x0.gen ∧
    (setEntry x0 x1 x2).text = x0.text ∧ (setEntry x0 x1 x2).pair = x0.pair ∧ (setEntry x0 x1 x2).flash = x0.flash ∧
    (setEntry x0 x1 x2).bureau = x0.bureau ∧ (setEntry x0 x1 x2).power = x0.power ∧ (setEntry x0 x1 x2).limits = x0.limits ∧
    (setEntry x0 x1 x2).fuses = x0.fuses ∧ (setEntry x0 x1 x2).shelfSkips = x0.shelfSkips ∧ (setEntry x0 x1 x2).shelfCuts = x0.shelfCuts ∧
    (setEntry x0 x1 x2).free = x0.free ∧ (setEntry x0 x1 x2).pending = x0.pending := by unfold setEntry; split <;> simp

@[simp] theorem putL_frame (x0 x1 x2 x3) : (putL x0 x1 x2 x3).fabric = x0.fabric ∧ (putL x0 x1 x2 x3).store = x0.store ∧
    (putL x0 x1 x2 x3).engines = x0.engines ∧ (putL x0 x1 x2 x3).host = x0.host ∧ (putL x0 x1 x2 x3).gen = x0.gen ∧
    (putL x0 x1 x2 x3).text = x0.text ∧ (putL x0 x1 x2 x3).pair = x0.pair ∧ (putL x0 x1 x2 x3).flash = x0.flash ∧
    (putL x0 x1 x2 x3).bureau = x0.bureau ∧ (putL x0 x1 x2 x3).power = x0.power ∧ (putL x0 x1 x2 x3).limits = x0.limits ∧
    (putL x0 x1 x2 x3).fuses = x0.fuses ∧ (putL x0 x1 x2 x3).shelfSkips = x0.shelfSkips ∧ (putL x0 x1 x2 x3).shelfCuts = x0.shelfCuts ∧
    (putL x0 x1 x2 x3).free = x0.free ∧ (putL x0 x1 x2 x3).pending = x0.pending := by simp [putL]

@[simp] theorem putAt_frame (x0 x1 x2 x3 x4 x5) : (putAt x0 x1 x2 x3 x4 x5).engines = x0.engines ∧ (putAt x0 x1 x2 x3 x4 x5).text = x0.text ∧
    (putAt x0 x1 x2 x3 x4 x5).pair = x0.pair ∧ (putAt x0 x1 x2 x3 x4 x5).flash = x0.flash ∧ (putAt x0 x1 x2 x3 x4 x5).power = x0.power ∧
    (putAt x0 x1 x2 x3 x4 x5).limits = x0.limits ∧ (putAt x0 x1 x2 x3 x4 x5).fuses = x0.fuses ∧
    (putAt x0 x1 x2 x3 x4 x5).shelfSkips = x0.shelfSkips ∧ (putAt x0 x1 x2 x3 x4 x5).shelfCuts = x0.shelfCuts ∧
    (putAt x0 x1 x2 x3 x4 x5).free = x0.free ∧ (putAt x0 x1 x2 x3 x4 x5).pending = x0.pending := by unfold putAt; split <;> simp

@[simp] theorem devWrite_frame (x0 x1 x2) : (devWrite x0 x1 x2).engines = x0.engines ∧ (devWrite x0 x1 x2).text = x0.text ∧
    (devWrite x0 x1 x2).pair = x0.pair ∧ (devWrite x0 x1 x2).flash = x0.flash ∧ (devWrite x0 x1 x2).power = x0.power ∧
    (devWrite x0 x1 x2).limits = x0.limits ∧ (devWrite x0 x1 x2).fuses = x0.fuses ∧ (devWrite x0 x1 x2).shelfSkips = x0.shelfSkips ∧
    (devWrite x0 x1 x2).shelfCuts = x0.shelfCuts ∧ (devWrite x0 x1 x2).free = x0.free ∧ (devWrite x0 x1 x2).pending = x0.pending := by unfold devWrite; split <;> simp

@[simp] theorem devPatch_frame (x0 x1 x2) : (devPatch x0 x1 x2).engines = x0.engines ∧ (devPatch x0 x1 x2).text = x0.text ∧
    (devPatch x0 x1 x2).pair = x0.pair ∧ (devPatch x0 x1 x2).flash = x0.flash ∧ (devPatch x0 x1 x2).power = x0.power ∧
    (devPatch x0 x1 x2).limits = x0.limits ∧ (devPatch x0 x1 x2).fuses = x0.fuses ∧ (devPatch x0 x1 x2).shelfSkips = x0.shelfSkips ∧
    (devPatch x0 x1 x2).shelfCuts = x0.shelfCuts ∧ (devPatch x0 x1 x2).free = x0.free ∧ (devPatch x0 x1 x2).pending = x0.pending := by
  simp only [devPatch]
  repeat' split
  all_goals ((try simp only [Prod.ext_iff] at *); (try casesm* _ ∧ _); (try subst_vars); first | (simp; done) | (simp_all; done) | skip)

@[simp] theorem tierReply_frame (x0 x1 x2 x3 x4 x5) : (tierReply x0 x1 x2 x3 x4 x5).fabric = x0.fabric ∧
    (tierReply x0 x1 x2 x3 x4 x5).store = x0.store ∧ (tierReply x0 x1 x2 x3 x4 x5).engines = x0.engines ∧
    (tierReply x0 x1 x2 x3 x4 x5).host = x0.host ∧ (tierReply x0 x1 x2 x3 x4 x5).gen = x0.gen ∧ (tierReply x0 x1 x2 x3 x4 x5).text = x0.text ∧
    (tierReply x0 x1 x2 x3 x4 x5).pair = x0.pair ∧ (tierReply x0 x1 x2 x3 x4 x5).flash = x0.flash ∧
    (tierReply x0 x1 x2 x3 x4 x5).bureau = x0.bureau ∧ (tierReply x0 x1 x2 x3 x4 x5).power = x0.power ∧
    (tierReply x0 x1 x2 x3 x4 x5).limits = x0.limits ∧ (tierReply x0 x1 x2 x3 x4 x5).fuses = x0.fuses ∧
    (tierReply x0 x1 x2 x3 x4 x5).shelfSkips = x0.shelfSkips ∧ (tierReply x0 x1 x2 x3 x4 x5).shelfCuts = x0.shelfCuts ∧
    (tierReply x0 x1 x2 x3 x4 x5).free = x0.free ∧ (tierReply x0 x1 x2 x3 x4 x5).pending = x0.pending := by simp [tierReply]

@[simp] theorem tierEvent_frame (x0 x1 x2 x3 x4) : (tierEvent x0 x1 x2 x3 x4).fabric = x0.fabric ∧
    (tierEvent x0 x1 x2 x3 x4).store = x0.store ∧ (tierEvent x0 x1 x2 x3 x4).tier = x0.tier ∧
    (tierEvent x0 x1 x2 x3 x4).engines = x0.engines ∧ (tierEvent x0 x1 x2 x3 x4).gen = x0.gen ∧ (tierEvent x0 x1 x2 x3 x4).text = x0.text ∧
    (tierEvent x0 x1 x2 x3 x4).pair = x0.pair ∧ (tierEvent x0 x1 x2 x3 x4).flash = x0.flash ∧ (tierEvent x0 x1 x2 x3 x4).power = x0.power ∧
    (tierEvent x0 x1 x2 x3 x4).limits = x0.limits ∧ (tierEvent x0 x1 x2 x3 x4).fuses = x0.fuses ∧
    (tierEvent x0 x1 x2 x3 x4).shelfSkips = x0.shelfSkips ∧ (tierEvent x0 x1 x2 x3 x4).shelfCuts = x0.shelfCuts ∧
    (tierEvent x0 x1 x2 x3 x4).free = x0.free ∧ (tierEvent x0 x1 x2 x3 x4).pending = x0.pending := by unfold tierEvent; split <;> simp

@[simp] theorem tierFail_frame (x0 x1 x2 x3 x4 x5 x6) : (tierFail x0 x1 x2 x3 x4 x5 x6).fabric = x0.fabric ∧
    (tierFail x0 x1 x2 x3 x4 x5 x6).store = x0.store ∧ (tierFail x0 x1 x2 x3 x4 x5 x6).engines = x0.engines ∧
    (tierFail x0 x1 x2 x3 x4 x5 x6).text = x0.text ∧ (tierFail x0 x1 x2 x3 x4 x5 x6).pair = x0.pair ∧
    (tierFail x0 x1 x2 x3 x4 x5 x6).flash = x0.flash ∧ (tierFail x0 x1 x2 x3 x4 x5 x6).power = x0.power ∧
    (tierFail x0 x1 x2 x3 x4 x5 x6).limits = x0.limits ∧ (tierFail x0 x1 x2 x3 x4 x5 x6).fuses = x0.fuses ∧
    (tierFail x0 x1 x2 x3 x4 x5 x6).shelfSkips = x0.shelfSkips ∧ (tierFail x0 x1 x2 x3 x4 x5 x6).shelfCuts = x0.shelfCuts ∧
    (tierFail x0 x1 x2 x3 x4 x5 x6).free = x0.free ∧ (tierFail x0 x1 x2 x3 x4 x5 x6).pending = x0.pending := by unfold tierFail; split <;> simp

@[simp] theorem setLost_frame (x0 x1 x2) : (setLost x0 x1 x2).fabric = x0.fabric ∧ (setLost x0 x1 x2).store = x0.store ∧
    (setLost x0 x1 x2).engines = x0.engines ∧ (setLost x0 x1 x2).host = x0.host ∧ (setLost x0 x1 x2).gen = x0.gen ∧
    (setLost x0 x1 x2).text = x0.text ∧ (setLost x0 x1 x2).pair = x0.pair ∧ (setLost x0 x1 x2).flash = x0.flash ∧
    (setLost x0 x1 x2).bureau = x0.bureau ∧ (setLost x0 x1 x2).power = x0.power ∧ (setLost x0 x1 x2).limits = x0.limits ∧
    (setLost x0 x1 x2).fuses = x0.fuses ∧ (setLost x0 x1 x2).shelfSkips = x0.shelfSkips ∧ (setLost x0 x1 x2).shelfCuts = x0.shelfCuts ∧
    (setLost x0 x1 x2).free = x0.free ∧ (setLost x0 x1 x2).pending = x0.pending := by simp [setLost]

@[simp] theorem clearLost_frame (x0 x1) : (clearLost x0 x1).fabric = x0.fabric ∧ (clearLost x0 x1).store = x0.store ∧
    (clearLost x0 x1).engines = x0.engines ∧ (clearLost x0 x1).host = x0.host ∧ (clearLost x0 x1).gen = x0.gen ∧
    (clearLost x0 x1).text = x0.text ∧ (clearLost x0 x1).pair = x0.pair ∧ (clearLost x0 x1).flash = x0.flash ∧
    (clearLost x0 x1).bureau = x0.bureau ∧ (clearLost x0 x1).power = x0.power ∧ (clearLost x0 x1).limits = x0.limits ∧
    (clearLost x0 x1).fuses = x0.fuses ∧ (clearLost x0 x1).shelfSkips = x0.shelfSkips ∧ (clearLost x0 x1).shelfCuts = x0.shelfCuts ∧
    (clearLost x0 x1).free = x0.free ∧ (clearLost x0 x1).pending = x0.pending := by simp [clearLost]

@[simp] theorem putBack_frame (x0 x1 x2 x3 x4) : (putBack x0 x1 x2 x3 x4).fabric = x0.fabric ∧ (putBack x0 x1 x2 x3 x4).store = x0.store ∧
    (putBack x0 x1 x2 x3 x4).engines = x0.engines ∧ (putBack x0 x1 x2 x3 x4).host = x0.host ∧ (putBack x0 x1 x2 x3 x4).gen = x0.gen ∧
    (putBack x0 x1 x2 x3 x4).text = x0.text ∧ (putBack x0 x1 x2 x3 x4).pair = x0.pair ∧ (putBack x0 x1 x2 x3 x4).flash = x0.flash ∧
    (putBack x0 x1 x2 x3 x4).bureau = x0.bureau ∧ (putBack x0 x1 x2 x3 x4).power = x0.power ∧ (putBack x0 x1 x2 x3 x4).limits = x0.limits ∧
    (putBack x0 x1 x2 x3 x4).fuses = x0.fuses ∧ (putBack x0 x1 x2 x3 x4).shelfSkips = x0.shelfSkips ∧
    (putBack x0 x1 x2 x3 x4).shelfCuts = x0.shelfCuts ∧ (putBack x0 x1 x2 x3 x4).free = x0.free ∧
    (putBack x0 x1 x2 x3 x4).pending = x0.pending := by simp [putBack]

@[simp] theorem refetch_frame (x0 x1 x2 x3 x4) : ((refetch x0 x1 x2 x3 x4)).1.fabric = x0.fabric ∧
    ((refetch x0 x1 x2 x3 x4)).1.store = x0.store ∧ ((refetch x0 x1 x2 x3 x4)).1.engines = x0.engines ∧
    ((refetch x0 x1 x2 x3 x4)).1.host = x0.host ∧ ((refetch x0 x1 x2 x3 x4)).1.gen = x0.gen ∧ ((refetch x0 x1 x2 x3 x4)).1.text = x0.text ∧
    ((refetch x0 x1 x2 x3 x4)).1.pair = x0.pair ∧ ((refetch x0 x1 x2 x3 x4)).1.flash = x0.flash ∧
    ((refetch x0 x1 x2 x3 x4)).1.bureau = x0.bureau ∧ ((refetch x0 x1 x2 x3 x4)).1.power = x0.power ∧
    ((refetch x0 x1 x2 x3 x4)).1.limits = x0.limits ∧ ((refetch x0 x1 x2 x3 x4)).1.fuses = x0.fuses ∧
    ((refetch x0 x1 x2 x3 x4)).1.shelfSkips = x0.shelfSkips ∧ ((refetch x0 x1 x2 x3 x4)).1.shelfCuts = x0.shelfCuts ∧
    ((refetch x0 x1 x2 x3 x4)).1.free = x0.free ∧ ((refetch x0 x1 x2 x3 x4)).1.pending = x0.pending := by
  unfold refetch
  repeat' split
  all_goals ((try simp only [Prod.ext_iff] at *); (try casesm* _ ∧ _); (try subst_vars); (try simp))

@[simp] theorem recoverWb_frame (x0 x1 x2 x3 x4) : ((recoverWb x0 x1 x2 x3 x4)).1.fabric = x0.fabric ∧
    ((recoverWb x0 x1 x2 x3 x4)).1.store = x0.store ∧ ((recoverWb x0 x1 x2 x3 x4)).1.engines = x0.engines ∧
    ((recoverWb x0 x1 x2 x3 x4)).1.gen = x0.gen ∧ ((recoverWb x0 x1 x2 x3 x4)).1.text = x0.text ∧
    ((recoverWb x0 x1 x2 x3 x4)).1.flash = x0.flash ∧ ((recoverWb x0 x1 x2 x3 x4)).1.power = x0.power ∧
    ((recoverWb x0 x1 x2 x3 x4)).1.limits = x0.limits ∧ ((recoverWb x0 x1 x2 x3 x4)).1.fuses = x0.fuses ∧
    ((recoverWb x0 x1 x2 x3 x4)).1.shelfSkips = x0.shelfSkips ∧ ((recoverWb x0 x1 x2 x3 x4)).1.shelfCuts = x0.shelfCuts ∧
    ((recoverWb x0 x1 x2 x3 x4)).1.pending = x0.pending := by
  unfold recoverWb
  simp only []
  split
  · generalize Tile.sealed _ = z
    simp
  · split <;> simp

@[simp] theorem recoverL_frame (x0 x1 x2 x3 x4) : ((recoverL x0 x1 x2 x3 x4)).1.fabric = x0.fabric ∧
    ((recoverL x0 x1 x2 x3 x4)).1.store = x0.store ∧ ((recoverL x0 x1 x2 x3 x4)).1.engines = x0.engines ∧
    ((recoverL x0 x1 x2 x3 x4)).1.gen = x0.gen ∧ ((recoverL x0 x1 x2 x3 x4)).1.text = x0.text ∧
    ((recoverL x0 x1 x2 x3 x4)).1.flash = x0.flash ∧ ((recoverL x0 x1 x2 x3 x4)).1.power = x0.power ∧
    ((recoverL x0 x1 x2 x3 x4)).1.limits = x0.limits ∧ ((recoverL x0 x1 x2 x3 x4)).1.fuses = x0.fuses ∧
    ((recoverL x0 x1 x2 x3 x4)).1.shelfSkips = x0.shelfSkips ∧ ((recoverL x0 x1 x2 x3 x4)).1.shelfCuts = x0.shelfCuts ∧
    ((recoverL x0 x1 x2 x3 x4)).1.pending = x0.pending := by
  unfold recoverL
  repeat' split
  all_goals ((try simp only [Prod.ext_iff] at *); (try casesm* _ ∧ _); (try subst_vars); first | (simp; done) | (simp_all; done) | skip)

@[simp] theorem noteBursts_frame (x0 x1 x2) : (noteBursts x0 x1 x2).fabric = x0.fabric ∧ (noteBursts x0 x1 x2).store = x0.store ∧
    (noteBursts x0 x1 x2).engines = x0.engines ∧ (noteBursts x0 x1 x2).gen = x0.gen ∧ (noteBursts x0 x1 x2).text = x0.text ∧
    (noteBursts x0 x1 x2).pair = x0.pair ∧ (noteBursts x0 x1 x2).flash = x0.flash ∧ (noteBursts x0 x1 x2).power = x0.power ∧
    (noteBursts x0 x1 x2).limits = x0.limits ∧ (noteBursts x0 x1 x2).fuses = x0.fuses ∧ (noteBursts x0 x1 x2).shelfSkips = x0.shelfSkips ∧
    (noteBursts x0 x1 x2).shelfCuts = x0.shelfCuts ∧ (noteBursts x0 x1 x2).free = x0.free ∧ (noteBursts x0 x1 x2).pending = x0.pending := by simp [noteBursts]

@[simp] theorem readL_frame (x0 x1 x2 x3 x4 x5) : ((readL x0 x1 x2 x3 x4 x5)).1.fabric = x0.fabric ∧
    ((readL x0 x1 x2 x3 x4 x5)).1.store = x0.store ∧ ((readL x0 x1 x2 x3 x4 x5)).1.engines = x0.engines ∧
    ((readL x0 x1 x2 x3 x4 x5)).1.gen = x0.gen ∧ ((readL x0 x1 x2 x3 x4 x5)).1.text = x0.text ∧
    ((readL x0 x1 x2 x3 x4 x5)).1.flash = x0.flash ∧ ((readL x0 x1 x2 x3 x4 x5)).1.power = x0.power ∧
    ((readL x0 x1 x2 x3 x4 x5)).1.limits = x0.limits ∧ ((readL x0 x1 x2 x3 x4 x5)).1.fuses = x0.fuses ∧
    ((readL x0 x1 x2 x3 x4 x5)).1.shelfSkips = x0.shelfSkips ∧ ((readL x0 x1 x2 x3 x4 x5)).1.shelfCuts = x0.shelfCuts ∧
    ((readL x0 x1 x2 x3 x4 x5)).1.pending = x0.pending := by simp [readL]

@[simp] theorem readS_frame (x0 x1 x2 x3 x4) : ((readS x0 x1 x2 x3 x4)).1.engines = x0.engines ∧ ((readS x0 x1 x2 x3 x4)).1.text = x0.text ∧
    ((readS x0 x1 x2 x3 x4)).1.pair = x0.pair ∧ ((readS x0 x1 x2 x3 x4)).1.flash = x0.flash ∧ ((readS x0 x1 x2 x3 x4)).1.power = x0.power ∧
    ((readS x0 x1 x2 x3 x4)).1.limits = x0.limits ∧ ((readS x0 x1 x2 x3 x4)).1.fuses = x0.fuses ∧
    ((readS x0 x1 x2 x3 x4)).1.shelfSkips = x0.shelfSkips ∧ ((readS x0 x1 x2 x3 x4)).1.shelfCuts = x0.shelfCuts ∧
    ((readS x0 x1 x2 x3 x4)).1.free = x0.free ∧ ((readS x0 x1 x2 x3 x4)).1.pending = x0.pending := by
  unfold readS
  repeat' split
  all_goals ((try simp only [Prod.ext_iff] at *); (try casesm* _ ∧ _); (try subst_vars); first | (simp; done) | (simp_all; done) | skip)

@[simp] theorem readEntry_frame (x0 x1 x2 x3 x4) : ((readEntry x0 x1 x2 x3 x4)).1.engines = x0.engines ∧
    ((readEntry x0 x1 x2 x3 x4)).1.text = x0.text ∧ ((readEntry x0 x1 x2 x3 x4)).1.flash = x0.flash ∧
    ((readEntry x0 x1 x2 x3 x4)).1.power = x0.power ∧ ((readEntry x0 x1 x2 x3 x4)).1.limits = x0.limits ∧
    ((readEntry x0 x1 x2 x3 x4)).1.fuses = x0.fuses ∧ ((readEntry x0 x1 x2 x3 x4)).1.shelfSkips = x0.shelfSkips ∧
    ((readEntry x0 x1 x2 x3 x4)).1.shelfCuts = x0.shelfCuts ∧ ((readEntry x0 x1 x2 x3 x4)).1.pending = x0.pending := by
  simp only [readEntry]
  repeat' split
  all_goals ((try simp only [Prod.ext_iff] at *); (try casesm* _ ∧ _); (try subst_vars); (try simp))

@[simp] theorem dropCached_frame (x0 x1) : (dropCached x0 x1).fabric = x0.fabric ∧ (dropCached x0 x1).store = x0.store ∧
    (dropCached x0 x1).engines = x0.engines ∧ (dropCached x0 x1).host = x0.host ∧ (dropCached x0 x1).gen = x0.gen ∧
    (dropCached x0 x1).text = x0.text ∧ (dropCached x0 x1).pair = x0.pair ∧ (dropCached x0 x1).flash = x0.flash ∧
    (dropCached x0 x1).bureau = x0.bureau ∧ (dropCached x0 x1).power = x0.power ∧ (dropCached x0 x1).limits = x0.limits ∧
    (dropCached x0 x1).fuses = x0.fuses ∧ (dropCached x0 x1).shelfSkips = x0.shelfSkips ∧ (dropCached x0 x1).shelfCuts = x0.shelfCuts ∧
    (dropCached x0 x1).free = x0.free ∧ (dropCached x0 x1).pending = x0.pending := by simp [dropCached]

@[simp] theorem keepTranslation_frame (x0 x1 x2 x3) : (keepTranslation x0 x1 x2 x3).fabric = x0.fabric ∧
    (keepTranslation x0 x1 x2 x3).store = x0.store ∧ (keepTranslation x0 x1 x2 x3).engines = x0.engines ∧
    (keepTranslation x0 x1 x2 x3).host = x0.host ∧ (keepTranslation x0 x1 x2 x3).gen = x0.gen ∧ (keepTranslation x0 x1 x2 x3).text = x0.text ∧
    (keepTranslation x0 x1 x2 x3).pair = x0.pair ∧ (keepTranslation x0 x1 x2 x3).flash = x0.flash ∧
    (keepTranslation x0 x1 x2 x3).bureau = x0.bureau ∧ (keepTranslation x0 x1 x2 x3).power = x0.power ∧
    (keepTranslation x0 x1 x2 x3).limits = x0.limits ∧ (keepTranslation x0 x1 x2 x3).fuses = x0.fuses ∧
    (keepTranslation x0 x1 x2 x3).shelfSkips = x0.shelfSkips ∧ (keepTranslation x0 x1 x2 x3).shelfCuts = x0.shelfCuts ∧
    (keepTranslation x0 x1 x2 x3).free = x0.free ∧ (keepTranslation x0 x1 x2 x3).pending = x0.pending := by simp [keepTranslation]

@[simp] theorem tierReadGo_frame (x0 x1 x2 x3 x4 x5 x6) : (tierReadGo x0 x1 x2 x3 x4 x5 x6).engines = x0.engines ∧
    (tierReadGo x0 x1 x2 x3 x4 x5 x6).text = x0.text ∧ (tierReadGo x0 x1 x2 x3 x4 x5 x6).flash = x0.flash ∧
    (tierReadGo x0 x1 x2 x3 x4 x5 x6).power = x0.power ∧ (tierReadGo x0 x1 x2 x3 x4 x5 x6).limits = x0.limits ∧
    (tierReadGo x0 x1 x2 x3 x4 x5 x6).fuses = x0.fuses ∧ (tierReadGo x0 x1 x2 x3 x4 x5 x6).shelfSkips = x0.shelfSkips ∧
    (tierReadGo x0 x1 x2 x3 x4 x5 x6).shelfCuts = x0.shelfCuts ∧ (tierReadGo x0 x1 x2 x3 x4 x5 x6).pending = x0.pending := by
  unfold tierReadGo
  repeat' split
  all_goals ((try simp only [Prod.ext_iff] at *); (try casesm* _ ∧ _); (try subst_vars); first | (simp; done) | (simp_all; done) | skip)

@[simp] theorem tierRead_frame (x0 x1 x2 x3 x4 x5) : (tierRead x0 x1 x2 x3 x4 x5).engines = x0.engines ∧
    (tierRead x0 x1 x2 x3 x4 x5).text = x0.text ∧ (tierRead x0 x1 x2 x3 x4 x5).flash = x0.flash ∧
    (tierRead x0 x1 x2 x3 x4 x5).power = x0.power ∧ (tierRead x0 x1 x2 x3 x4 x5).limits = x0.limits ∧
    (tierRead x0 x1 x2 x3 x4 x5).fuses = x0.fuses ∧ (tierRead x0 x1 x2 x3 x4 x5).shelfSkips = x0.shelfSkips ∧
    (tierRead x0 x1 x2 x3 x4 x5).shelfCuts = x0.shelfCuts ∧ (tierRead x0 x1 x2 x3 x4 x5).pending = x0.pending := by
  unfold tierRead
  repeat' split
  all_goals ((try simp only [Prod.ext_iff] at *); (try casesm* _ ∧ _); (try subst_vars); (try simp))

theorem execTierReadTile_frame (x0 x1 x2 x3 x4 x5) : ∀ t, (execTierReadTile x0 x1 x2 x3 x4 x5) = .next t → t.engines = x5.engines ∧
    t.text = x5.text ∧ t.flash = x5.flash ∧ t.power = x5.power ∧ t.limits = x5.limits ∧ t.fuses = x5.fuses ∧ t.shelfSkips = x5.shelfSkips ∧
    t.shelfCuts = x5.shelfCuts ∧ t.pending = x5.pending := by simp [execTierReadTile]

@[simp] theorem tierWriteGo_frame (x0 x1 x2) : (tierWriteGo x0 x1 x2).engines = x0.engines ∧ (tierWriteGo x0 x1 x2).text = x0.text ∧
    (tierWriteGo x0 x1 x2).pair = x0.pair ∧ (tierWriteGo x0 x1 x2).flash = x0.flash ∧ (tierWriteGo x0 x1 x2).power = x0.power ∧
    (tierWriteGo x0 x1 x2).limits = x0.limits ∧ (tierWriteGo x0 x1 x2).fuses = x0.fuses ∧ (tierWriteGo x0 x1 x2).shelfSkips = x0.shelfSkips ∧
    (tierWriteGo x0 x1 x2).shelfCuts = x0.shelfCuts ∧ (tierWriteGo x0 x1 x2).free = x0.free ∧ (tierWriteGo x0 x1 x2).pending = x0.pending := by simp [tierWriteGo]

@[simp] theorem tierWrite_frame (x0 x1) : (tierWrite x0 x1).engines = x0.engines ∧ (tierWrite x0 x1).text = x0.text ∧
    (tierWrite x0 x1).pair = x0.pair ∧ (tierWrite x0 x1).flash = x0.flash ∧ (tierWrite x0 x1).power = x0.power ∧
    (tierWrite x0 x1).limits = x0.limits ∧ (tierWrite x0 x1).fuses = x0.fuses ∧ (tierWrite x0 x1).shelfSkips = x0.shelfSkips ∧
    (tierWrite x0 x1).shelfCuts = x0.shelfCuts ∧ (tierWrite x0 x1).free = x0.free ∧ (tierWrite x0 x1).pending = x0.pending := by
  unfold tierWrite
  repeat' split
  all_goals ((try simp only [Prod.ext_iff] at *); (try casesm* _ ∧ _); (try subst_vars); (try simp))

theorem execTierWriteTile_frame (x0 x1 x2 x3 x4) : ∀ t, (execTierWriteTile x0 x1 x2 x3 x4) = .next t → t.engines = x4.engines ∧
    t.text = x4.text ∧ t.pair = x4.pair ∧ t.flash = x4.flash ∧ t.power = x4.power ∧ t.limits = x4.limits ∧ t.fuses = x4.fuses ∧
    t.shelfSkips = x4.shelfSkips ∧ t.shelfCuts = x4.shelfCuts ∧ t.free = x4.free ∧ t.pending = x4.pending := by simp [execTierWriteTile]

@[simp] theorem tierUnblocked_frame (x0 x1) : (tierUnblocked x0 x1).engines = x0.engines ∧ (tierUnblocked x0 x1).text = x0.text ∧
    (tierUnblocked x0 x1).pair = x0.pair ∧ (tierUnblocked x0 x1).flash = x0.flash ∧ (tierUnblocked x0 x1).power = x0.power ∧
    (tierUnblocked x0 x1).limits = x0.limits ∧ (tierUnblocked x0 x1).fuses = x0.fuses ∧ (tierUnblocked x0 x1).shelfSkips = x0.shelfSkips ∧
    (tierUnblocked x0 x1).shelfCuts = x0.shelfCuts ∧ (tierUnblocked x0 x1).free = x0.free ∧ (tierUnblocked x0 x1).pending = x0.pending := by
  unfold tierUnblocked
  repeat' split
  all_goals ((try simp only [Prod.ext_iff] at *); (try casesm* _ ∧ _); (try subst_vars); (try simp))

theorem execTierWriteUnblocked_frame (x0 x1) : ∀ t, (execTierWriteUnblocked x0 x1) = .next t → t.engines = x1.engines ∧ t.text = x1.text ∧
    t.pair = x1.pair ∧ t.flash = x1.flash ∧ t.power = x1.power ∧ t.limits = x1.limits ∧ t.fuses = x1.fuses ∧ t.shelfSkips = x1.shelfSkips ∧
    t.shelfCuts = x1.shelfCuts ∧ t.free = x1.free ∧ t.pending = x1.pending := by simp [execTierWriteUnblocked]

@[simp] theorem writeBack_frame (x0 x1 x2 x3) : (writeBack x0 x1 x2 x3).engines = x0.engines ∧ (writeBack x0 x1 x2 x3).text = x0.text ∧
    (writeBack x0 x1 x2 x3).power = x0.power ∧ (writeBack x0 x1 x2 x3).limits = x0.limits ∧ (writeBack x0 x1 x2 x3).fuses = x0.fuses ∧
    (writeBack x0 x1 x2 x3).shelfSkips = x0.shelfSkips ∧ (writeBack x0 x1 x2 x3).shelfCuts = x0.shelfCuts ∧
    (writeBack x0 x1 x2 x3).pending = x0.pending := by
  unfold writeBack
  repeat' split
  all_goals ((try simp only [Prod.ext_iff] at *); (try casesm* _ ∧ _); (try subst_vars); (try simp))

theorem execWriteBack_frame (x0 x1 x2 x3) : ∀ t, (execWriteBack x0 x1 x2 x3) = .next t → t.engines = x3.engines ∧ t.text = x3.text ∧
    t.power = x3.power ∧ t.limits = x3.limits ∧ t.fuses = x3.fuses ∧ t.shelfSkips = x3.shelfSkips ∧ t.shelfCuts = x3.shelfCuts ∧
    t.pending = x3.pending := by simp [execWriteBack]

@[simp] theorem clearPlace_frame (x0 x1) : (clearPlace x0 x1).fabric = x0.fabric ∧ (clearPlace x0 x1).engines = x0.engines ∧
    (clearPlace x0 x1).host = x0.host ∧ (clearPlace x0 x1).gen = x0.gen ∧ (clearPlace x0 x1).text = x0.text ∧
    (clearPlace x0 x1).pair = x0.pair ∧ (clearPlace x0 x1).flash = x0.flash ∧ (clearPlace x0 x1).bureau = x0.bureau ∧
    (clearPlace x0 x1).power = x0.power ∧ (clearPlace x0 x1).limits = x0.limits ∧ (clearPlace x0 x1).fuses = x0.fuses ∧
    (clearPlace x0 x1).shelfSkips = x0.shelfSkips ∧ (clearPlace x0 x1).shelfCuts = x0.shelfCuts ∧ (clearPlace x0 x1).free = x0.free ∧
    (clearPlace x0 x1).pending = x0.pending := by
  unfold clearPlace
  repeat' split
  all_goals ((try simp only [Prod.ext_iff] at *); (try casesm* _ ∧ _); (try subst_vars); first | (simp; done) | (simp_all; done) | skip)

@[simp] theorem fillTile_frame (x0 x1 x2 x3 x4) : (fillTile x0 x1 x2 x3 x4).engines = x3.engines ∧ (fillTile x0 x1 x2 x3 x4).text = x3.text ∧
    (fillTile x0 x1 x2 x3 x4).pair = x3.pair ∧ (fillTile x0 x1 x2 x3 x4).flash = x3.flash ∧ (fillTile x0 x1 x2 x3 x4).power = x3.power ∧
    (fillTile x0 x1 x2 x3 x4).limits = x3.limits ∧ (fillTile x0 x1 x2 x3 x4).fuses = x3.fuses ∧
    (fillTile x0 x1 x2 x3 x4).shelfSkips = x3.shelfSkips ∧ (fillTile x0 x1 x2 x3 x4).shelfCuts = x3.shelfCuts ∧
    (fillTile x0 x1 x2 x3 x4).free = x3.free ∧ (fillTile x0 x1 x2 x3 x4).pending = x3.pending := by
  simp only [fillTile]
  repeat' split
  all_goals ((try simp only [Prod.ext_iff] at *); (try casesm* _ ∧ _); (try subst_vars); (try simp))

@[simp] theorem migrateRoStart_frame (x0 x1 x2 x3) : (migrateRoStart x0 x1 x2 x3).engines = x0.engines ∧
    (migrateRoStart x0 x1 x2 x3).text = x0.text ∧ (migrateRoStart x0 x1 x2 x3).pair = x0.pair ∧
    (migrateRoStart x0 x1 x2 x3).flash = x0.flash ∧ (migrateRoStart x0 x1 x2 x3).power = x0.power ∧
    (migrateRoStart x0 x1 x2 x3).limits = x0.limits ∧ (migrateRoStart x0 x1 x2 x3).fuses = x0.fuses ∧
    (migrateRoStart x0 x1 x2 x3).shelfSkips = x0.shelfSkips ∧ (migrateRoStart x0 x1 x2 x3).shelfCuts = x0.shelfCuts ∧
    (migrateRoStart x0 x1 x2 x3).free = x0.free ∧ (migrateRoStart x0 x1 x2 x3).pending = x0.pending := by unfold migrateRoStart; split <;> simp

theorem execMigrateRoStart_frame (x0 x1 x2 x3) : ∀ t, (execMigrateRoStart x0 x1 x2 x3) = .next t → t.engines = x3.engines ∧ t.text = x3.text ∧
    t.pair = x3.pair ∧ t.flash = x3.flash ∧ t.power = x3.power ∧ t.limits = x3.limits ∧ t.fuses = x3.fuses ∧ t.shelfSkips = x3.shelfSkips ∧
    t.shelfCuts = x3.shelfCuts ∧ t.free = x3.free ∧ t.pending = x3.pending := by simp [execMigrateRoStart]

@[simp] theorem migrateRoSwitch_frame (x0 x1) : (migrateRoSwitch x0 x1).fabric = x0.fabric ∧ (migrateRoSwitch x0 x1).store = x0.store ∧
    (migrateRoSwitch x0 x1).engines = x0.engines ∧ (migrateRoSwitch x0 x1).host = x0.host ∧ (migrateRoSwitch x0 x1).gen = x0.gen ∧
    (migrateRoSwitch x0 x1).text = x0.text ∧ (migrateRoSwitch x0 x1).pair = x0.pair ∧ (migrateRoSwitch x0 x1).flash = x0.flash ∧
    (migrateRoSwitch x0 x1).bureau = x0.bureau ∧ (migrateRoSwitch x0 x1).power = x0.power ∧ (migrateRoSwitch x0 x1).limits = x0.limits ∧
    (migrateRoSwitch x0 x1).fuses = x0.fuses ∧ (migrateRoSwitch x0 x1).shelfSkips = x0.shelfSkips ∧
    (migrateRoSwitch x0 x1).shelfCuts = x0.shelfCuts ∧ (migrateRoSwitch x0 x1).free = x0.free ∧ (migrateRoSwitch x0 x1).pending = x0.pending := by unfold migrateRoSwitch; split <;> simp

theorem execMigrateRoSwitch_frame (x0 x1) : ∀ t, (execMigrateRoSwitch x0 x1) = .next t → t.fabric = x1.fabric ∧ t.store = x1.store ∧
    t.engines = x1.engines ∧ t.host = x1.host ∧ t.gen = x1.gen ∧ t.text = x1.text ∧ t.pair = x1.pair ∧ t.flash = x1.flash ∧
    t.bureau = x1.bureau ∧ t.power = x1.power ∧ t.limits = x1.limits ∧ t.fuses = x1.fuses ∧ t.shelfSkips = x1.shelfSkips ∧
    t.shelfCuts = x1.shelfCuts ∧ t.free = x1.free ∧ t.pending = x1.pending := by simp [execMigrateRoSwitch]

@[simp] theorem noteRetired_frame (x0 x1 x2) : (noteRetired x0 x1 x2).fabric = x0.fabric ∧ (noteRetired x0 x1 x2).store = x0.store ∧
    (noteRetired x0 x1 x2).tier = x0.tier ∧ (noteRetired x0 x1 x2).engines = x0.engines ∧ (noteRetired x0 x1 x2).gen = x0.gen ∧
    (noteRetired x0 x1 x2).text = x0.text ∧ (noteRetired x0 x1 x2).pair = x0.pair ∧ (noteRetired x0 x1 x2).flash = x0.flash ∧
    (noteRetired x0 x1 x2).power = x0.power ∧ (noteRetired x0 x1 x2).limits = x0.limits ∧ (noteRetired x0 x1 x2).fuses = x0.fuses ∧
    (noteRetired x0 x1 x2).shelfSkips = x0.shelfSkips ∧ (noteRetired x0 x1 x2).shelfCuts = x0.shelfCuts ∧
    (noteRetired x0 x1 x2).free = x0.free ∧ (noteRetired x0 x1 x2).pending = x0.pending := by simp [noteRetired]

@[simp] theorem freeLoc_frame (x0 x1 x2) : (freeLoc x0 x1 x2).fabric = x0.fabric ∧ (freeLoc x0 x1 x2).tier = x0.tier ∧
    (freeLoc x0 x1 x2).engines = x0.engines ∧ (freeLoc x0 x1 x2).gen = x0.gen ∧ (freeLoc x0 x1 x2).text = x0.text ∧
    (freeLoc x0 x1 x2).pair = x0.pair ∧ (freeLoc x0 x1 x2).flash = x0.flash ∧ (freeLoc x0 x1 x2).power = x0.power ∧
    (freeLoc x0 x1 x2).limits = x0.limits ∧ (freeLoc x0 x1 x2).fuses = x0.fuses ∧ (freeLoc x0 x1 x2).shelfSkips = x0.shelfSkips ∧
    (freeLoc x0 x1 x2).shelfCuts = x0.shelfCuts ∧ (freeLoc x0 x1 x2).free = x0.free ∧ (freeLoc x0 x1 x2).pending = x0.pending := by simp [freeLoc]

@[simp] theorem migrateRoDrainEnd_frame (x0 x1) : (migrateRoDrainEnd x0 x1).fabric = x0.fabric ∧
    (migrateRoDrainEnd x0 x1).engines = x0.engines ∧ (migrateRoDrainEnd x0 x1).gen = x0.gen ∧ (migrateRoDrainEnd x0 x1).text = x0.text ∧
    (migrateRoDrainEnd x0 x1).pair = x0.pair ∧ (migrateRoDrainEnd x0 x1).flash = x0.flash ∧ (migrateRoDrainEnd x0 x1).power = x0.power ∧
    (migrateRoDrainEnd x0 x1).limits = x0.limits ∧ (migrateRoDrainEnd x0 x1).fuses = x0.fuses ∧
    (migrateRoDrainEnd x0 x1).shelfSkips = x0.shelfSkips ∧ (migrateRoDrainEnd x0 x1).shelfCuts = x0.shelfCuts ∧
    (migrateRoDrainEnd x0 x1).free = x0.free ∧ (migrateRoDrainEnd x0 x1).pending = x0.pending := by unfold migrateRoDrainEnd; split <;> simp

theorem execMigrateRoDrainEnd_frame (x0 x1) : ∀ t, (execMigrateRoDrainEnd x0 x1) = .next t → t.fabric = x1.fabric ∧ t.engines = x1.engines ∧
    t.gen = x1.gen ∧ t.text = x1.text ∧ t.pair = x1.pair ∧ t.flash = x1.flash ∧ t.power = x1.power ∧ t.limits = x1.limits ∧
    t.fuses = x1.fuses ∧ t.shelfSkips = x1.shelfSkips ∧ t.shelfCuts = x1.shelfCuts ∧ t.free = x1.free ∧ t.pending = x1.pending := by simp [execMigrateRoDrainEnd]

@[simp] theorem migrateStart_frame (x0 x1 x2 x3) : (migrateStart x0 x1 x2 x3).fabric = x0.fabric ∧
    (migrateStart x0 x1 x2 x3).store = x0.store ∧ (migrateStart x0 x1 x2 x3).engines = x0.engines ∧
    (migrateStart x0 x1 x2 x3).host = x0.host ∧ (migrateStart x0 x1 x2 x3).gen = x0.gen ∧ (migrateStart x0 x1 x2 x3).text = x0.text ∧
    (migrateStart x0 x1 x2 x3).pair = x0.pair ∧ (migrateStart x0 x1 x2 x3).flash = x0.flash ∧ (migrateStart x0 x1 x2 x3).bureau = x0.bureau ∧
    (migrateStart x0 x1 x2 x3).power = x0.power ∧ (migrateStart x0 x1 x2 x3).limits = x0.limits ∧
    (migrateStart x0 x1 x2 x3).fuses = x0.fuses ∧ (migrateStart x0 x1 x2 x3).shelfSkips = x0.shelfSkips ∧
    (migrateStart x0 x1 x2 x3).shelfCuts = x0.shelfCuts ∧ (migrateStart x0 x1 x2 x3).free = x0.free ∧
    (migrateStart x0 x1 x2 x3).pending = x0.pending := by unfold migrateStart; split <;> simp

theorem execMigrateStart_frame (x0 x1 x2 x3) : ∀ t, (execMigrateStart x0 x1 x2 x3) = .next t → t.fabric = x3.fabric ∧ t.store = x3.store ∧
    t.engines = x3.engines ∧ t.host = x3.host ∧ t.gen = x3.gen ∧ t.text = x3.text ∧ t.pair = x3.pair ∧ t.flash = x3.flash ∧
    t.bureau = x3.bureau ∧ t.power = x3.power ∧ t.limits = x3.limits ∧ t.fuses = x3.fuses ∧ t.shelfSkips = x3.shelfSkips ∧
    t.shelfCuts = x3.shelfCuts ∧ t.free = x3.free ∧ t.pending = x3.pending := by simp [execMigrateStart]

@[simp] theorem copyTile_frame (x0 x1 x2 x3) : (copyTile x0 x1 x2 x3).engines = x0.engines ∧ (copyTile x0 x1 x2 x3).text = x0.text ∧
    (copyTile x0 x1 x2 x3).pair = x0.pair ∧ (copyTile x0 x1 x2 x3).flash = x0.flash ∧ (copyTile x0 x1 x2 x3).power = x0.power ∧
    (copyTile x0 x1 x2 x3).limits = x0.limits ∧ (copyTile x0 x1 x2 x3).fuses = x0.fuses ∧ (copyTile x0 x1 x2 x3).shelfSkips = x0.shelfSkips ∧
    (copyTile x0 x1 x2 x3).shelfCuts = x0.shelfCuts ∧ (copyTile x0 x1 x2 x3).free = x0.free ∧ (copyTile x0 x1 x2 x3).pending = x0.pending := by
  simp only [copyTile]
  repeat' split
  all_goals ((try simp only [Prod.ext_iff] at *); (try casesm* _ ∧ _); (try subst_vars); (try simp))

@[simp] theorem migrateTileCopy_frame (x0 x1) : (migrateTileCopy x0 x1).engines = x0.engines ∧ (migrateTileCopy x0 x1).text = x0.text ∧
    (migrateTileCopy x0 x1).pair = x0.pair ∧ (migrateTileCopy x0 x1).flash = x0.flash ∧ (migrateTileCopy x0 x1).power = x0.power ∧
    (migrateTileCopy x0 x1).limits = x0.limits ∧ (migrateTileCopy x0 x1).fuses = x0.fuses ∧
    (migrateTileCopy x0 x1).shelfSkips = x0.shelfSkips ∧ (migrateTileCopy x0 x1).shelfCuts = x0.shelfCuts ∧
    (migrateTileCopy x0 x1).free = x0.free ∧ (migrateTileCopy x0 x1).pending = x0.pending := by unfold migrateTileCopy; split <;> simp

theorem execMigrateTileCopy_frame (x0 x1) : ∀ t, (execMigrateTileCopy x0 x1) = .next t → t.engines = x1.engines ∧ t.text = x1.text ∧
    t.pair = x1.pair ∧ t.flash = x1.flash ∧ t.power = x1.power ∧ t.limits = x1.limits ∧ t.fuses = x1.fuses ∧ t.shelfSkips = x1.shelfSkips ∧
    t.shelfCuts = x1.shelfCuts ∧ t.free = x1.free ∧ t.pending = x1.pending := by simp [execMigrateTileCopy]

@[simp] theorem mr4Poll_frame (x0 x1 x2 x3 x4) : (mr4Poll x0 x1 x2 x3 x4).fabric = x0.fabric ∧ (mr4Poll x0 x1 x2 x3 x4).store = x0.store ∧
    (mr4Poll x0 x1 x2 x3 x4).engines = x0.engines ∧ (mr4Poll x0 x1 x2 x3 x4).gen = x0.gen ∧ (mr4Poll x0 x1 x2 x3 x4).text = x0.text ∧
    (mr4Poll x0 x1 x2 x3 x4).pair = x0.pair ∧ (mr4Poll x0 x1 x2 x3 x4).flash = x0.flash ∧ (mr4Poll x0 x1 x2 x3 x4).power = x0.power ∧
    (mr4Poll x0 x1 x2 x3 x4).limits = x0.limits ∧ (mr4Poll x0 x1 x2 x3 x4).fuses = x0.fuses ∧
    (mr4Poll x0 x1 x2 x3 x4).shelfSkips = x0.shelfSkips ∧ (mr4Poll x0 x1 x2 x3 x4).shelfCuts = x0.shelfCuts ∧
    (mr4Poll x0 x1 x2 x3 x4).free = x0.free ∧ (mr4Poll x0 x1 x2 x3 x4).pending = x0.pending := by simp [mr4Poll]

theorem execMr4Poll_frame (x0 x1 x2 x3 x4) : ∀ t, (execMr4Poll x0 x1 x2 x3 x4) = .next t → t.fabric = x4.fabric ∧ t.store = x4.store ∧
    t.engines = x4.engines ∧ t.gen = x4.gen ∧ t.text = x4.text ∧ t.pair = x4.pair ∧ t.flash = x4.flash ∧ t.power = x4.power ∧
    t.limits = x4.limits ∧ t.fuses = x4.fuses ∧ t.shelfSkips = x4.shelfSkips ∧ t.shelfCuts = x4.shelfCuts ∧ t.free = x4.free ∧
    t.pending = x4.pending := by simp [execMr4Poll]

@[simp] theorem wckCheck_frame (x0 x1 x2) : (wckCheck x0 x1 x2).fabric = x0.fabric ∧ (wckCheck x0 x1 x2).store = x0.store ∧
    (wckCheck x0 x1 x2).engines = x0.engines ∧ (wckCheck x0 x1 x2).host = x0.host ∧ (wckCheck x0 x1 x2).gen = x0.gen ∧
    (wckCheck x0 x1 x2).text = x0.text ∧ (wckCheck x0 x1 x2).pair = x0.pair ∧ (wckCheck x0 x1 x2).flash = x0.flash ∧
    (wckCheck x0 x1 x2).bureau = x0.bureau ∧ (wckCheck x0 x1 x2).power = x0.power ∧ (wckCheck x0 x1 x2).limits = x0.limits ∧
    (wckCheck x0 x1 x2).fuses = x0.fuses ∧ (wckCheck x0 x1 x2).shelfSkips = x0.shelfSkips ∧ (wckCheck x0 x1 x2).shelfCuts = x0.shelfCuts ∧
    (wckCheck x0 x1 x2).free = x0.free ∧ (wckCheck x0 x1 x2).pending = x0.pending := by simp [wckCheck]

theorem execWckOscCheck_frame (x0 x1 x2) : ∀ t, (execWckOscCheck x0 x1 x2) = .next t → t.fabric = x2.fabric ∧ t.store = x2.store ∧
    t.engines = x2.engines ∧ t.host = x2.host ∧ t.gen = x2.gen ∧ t.text = x2.text ∧ t.pair = x2.pair ∧ t.flash = x2.flash ∧
    t.bureau = x2.bureau ∧ t.power = x2.power ∧ t.limits = x2.limits ∧ t.fuses = x2.fuses ∧ t.shelfSkips = x2.shelfSkips ∧
    t.shelfCuts = x2.shelfCuts ∧ t.free = x2.free ∧ t.pending = x2.pending := by simp [execWckOscCheck]

@[simp] theorem retrainDone_frame (x0 x1) : (retrainDone x0 x1).engines = x0.engines ∧ (retrainDone x0 x1).text = x0.text ∧
    (retrainDone x0 x1).flash = x0.flash ∧ (retrainDone x0 x1).power = x0.power ∧ (retrainDone x0 x1).limits = x0.limits ∧
    (retrainDone x0 x1).fuses = x0.fuses ∧ (retrainDone x0 x1).shelfSkips = x0.shelfSkips ∧ (retrainDone x0 x1).shelfCuts = x0.shelfCuts ∧
    (retrainDone x0 x1).pending = x0.pending := by simp [retrainDone]

@[simp] theorem trainPackage_frame (x0 x1) : (trainPackage x0 x1).fabric = x0.fabric ∧ (trainPackage x0 x1).store = x0.store ∧
    (trainPackage x0 x1).engines = x0.engines ∧ (trainPackage x0 x1).host = x0.host ∧ (trainPackage x0 x1).gen = x0.gen ∧
    (trainPackage x0 x1).text = x0.text ∧ (trainPackage x0 x1).pair = x0.pair ∧ (trainPackage x0 x1).flash = x0.flash ∧
    (trainPackage x0 x1).bureau = x0.bureau ∧ (trainPackage x0 x1).power = x0.power ∧ (trainPackage x0 x1).limits = x0.limits ∧
    (trainPackage x0 x1).fuses = x0.fuses ∧ (trainPackage x0 x1).shelfSkips = x0.shelfSkips ∧ (trainPackage x0 x1).shelfCuts = x0.shelfCuts ∧
    (trainPackage x0 x1).pending = x0.pending := by simp [trainPackage]

@[simp] theorem trainingDone_frame (x0 x1) : (trainingDone x0 x1).fabric = x0.fabric ∧ (trainingDone x0 x1).store = x0.store ∧
    (trainingDone x0 x1).engines = x0.engines ∧ (trainingDone x0 x1).host = x0.host ∧ (trainingDone x0 x1).gen = x0.gen ∧
    (trainingDone x0 x1).text = x0.text ∧ (trainingDone x0 x1).pair = x0.pair ∧ (trainingDone x0 x1).flash = x0.flash ∧
    (trainingDone x0 x1).bureau = x0.bureau ∧ (trainingDone x0 x1).limits = x0.limits ∧ (trainingDone x0 x1).fuses = x0.fuses ∧
    (trainingDone x0 x1).shelfSkips = x0.shelfSkips ∧ (trainingDone x0 x1).shelfCuts = x0.shelfCuts ∧
    (trainingDone x0 x1).pending = x0.pending := by simp [trainingDone]

theorem execLpddr6TrainingDone_frame (x0 x1) : ∀ t, (execLpddr6TrainingDone x0 x1) = .next t → t.fabric = x1.fabric ∧ t.store = x1.store ∧
    t.engines = x1.engines ∧ t.host = x1.host ∧ t.gen = x1.gen ∧ t.text = x1.text ∧ t.pair = x1.pair ∧ t.flash = x1.flash ∧
    t.bureau = x1.bureau ∧ t.limits = x1.limits ∧ t.fuses = x1.fuses ∧ t.shelfSkips = x1.shelfSkips ∧ t.shelfCuts = x1.shelfCuts ∧
    t.pending = x1.pending := by simp [execLpddr6TrainingDone]

@[simp] theorem setStream_frame (x0 x1 x2) : (setStream x0 x1 x2).fabric = x0.fabric ∧ (setStream x0 x1 x2).store = x0.store ∧
    (setStream x0 x1 x2).engines = x0.engines ∧ (setStream x0 x1 x2).host = x0.host ∧ (setStream x0 x1 x2).gen = x0.gen ∧
    (setStream x0 x1 x2).text = x0.text ∧ (setStream x0 x1 x2).pair = x0.pair ∧ (setStream x0 x1 x2).flash = x0.flash ∧
    (setStream x0 x1 x2).bureau = x0.bureau ∧ (setStream x0 x1 x2).power = x0.power ∧ (setStream x0 x1 x2).limits = x0.limits ∧
    (setStream x0 x1 x2).fuses = x0.fuses ∧ (setStream x0 x1 x2).shelfSkips = x0.shelfSkips ∧ (setStream x0 x1 x2).shelfCuts = x0.shelfCuts ∧
    (setStream x0 x1 x2).free = x0.free ∧ (setStream x0 x1 x2).pending = x0.pending := by simp [setStream]

@[simp] theorem streamGo_frame (x0 x1 x2 x3 x4 x5 x6) : (streamGo x0 x1 x2 x3 x4 x5 x6).engines = x0.engines ∧
    (streamGo x0 x1 x2 x3 x4 x5 x6).text = x0.text ∧ (streamGo x0 x1 x2 x3 x4 x5 x6).flash = x0.flash ∧
    (streamGo x0 x1 x2 x3 x4 x5 x6).power = x0.power ∧ (streamGo x0 x1 x2 x3 x4 x5 x6).limits = x0.limits ∧
    (streamGo x0 x1 x2 x3 x4 x5 x6).fuses = x0.fuses ∧ (streamGo x0 x1 x2 x3 x4 x5 x6).shelfSkips = x0.shelfSkips ∧
    (streamGo x0 x1 x2 x3 x4 x5 x6).shelfCuts = x0.shelfCuts ∧ (streamGo x0 x1 x2 x3 x4 x5 x6).pending = x0.pending := by
  unfold streamGo
  repeat' split
  all_goals ((try simp only [Prod.ext_iff] at *); (try casesm* _ ∧ _); (try subst_vars); first | (simp; done) | (simp_all; done) | skip)

@[simp] theorem streamWrite_frame (x0 x1 x2) : (streamWrite x0 x1 x2).engines = x0.engines ∧ (streamWrite x0 x1 x2).text = x0.text ∧
    (streamWrite x0 x1 x2).flash = x0.flash ∧ (streamWrite x0 x1 x2).power = x0.power ∧ (streamWrite x0 x1 x2).limits = x0.limits ∧
    (streamWrite x0 x1 x2).fuses = x0.fuses ∧ (streamWrite x0 x1 x2).shelfSkips = x0.shelfSkips ∧
    (streamWrite x0 x1 x2).shelfCuts = x0.shelfCuts ∧ (streamWrite x0 x1 x2).pending = x0.pending := by
  simp only [streamWrite]
  repeat' split
  all_goals ((try simp only [Prod.ext_iff] at *); (try casesm* _ ∧ _); (try subst_vars); (try simp))

theorem execStreamTileWrite_frame (x0 x1 x2) : ∀ t, (execStreamTileWrite x0 x1 x2) = .next t → t.engines = x2.engines ∧ t.text = x2.text ∧
    t.flash = x2.flash ∧ t.power = x2.power ∧ t.limits = x2.limits ∧ t.fuses = x2.fuses ∧ t.shelfSkips = x2.shelfSkips ∧
    t.shelfCuts = x2.shelfCuts ∧ t.pending = x2.pending := by simp [execStreamTileWrite]

@[simp] theorem streamPoll_frame (x0 x1) : (streamPoll x0 x1).fabric = x0.fabric ∧ (streamPoll x0 x1).store = x0.store ∧
    (streamPoll x0 x1).engines = x0.engines ∧ (streamPoll x0 x1).host = x0.host ∧ (streamPoll x0 x1).gen = x0.gen ∧
    (streamPoll x0 x1).text = x0.text ∧ (streamPoll x0 x1).pair = x0.pair ∧ (streamPoll x0 x1).flash = x0.flash ∧
    (streamPoll x0 x1).bureau = x0.bureau ∧ (streamPoll x0 x1).power = x0.power ∧ (streamPoll x0 x1).limits = x0.limits ∧
    (streamPoll x0 x1).fuses = x0.fuses ∧ (streamPoll x0 x1).shelfSkips = x0.shelfSkips ∧ (streamPoll x0 x1).shelfCuts = x0.shelfCuts ∧
    (streamPoll x0 x1).free = x0.free ∧ (streamPoll x0 x1).pending = x0.pending := by unfold streamPoll; split <;> simp

theorem execStreamSlotPoll_frame (x0 x1) : ∀ t, (execStreamSlotPoll x0 x1) = .next t → t.fabric = x1.fabric ∧ t.store = x1.store ∧
    t.engines = x1.engines ∧ t.host = x1.host ∧ t.gen = x1.gen ∧ t.text = x1.text ∧ t.pair = x1.pair ∧ t.flash = x1.flash ∧
    t.bureau = x1.bureau ∧ t.power = x1.power ∧ t.limits = x1.limits ∧ t.fuses = x1.fuses ∧ t.shelfSkips = x1.shelfSkips ∧
    t.shelfCuts = x1.shelfCuts ∧ t.free = x1.free ∧ t.pending = x1.pending := by simp [execStreamSlotPoll]

@[simp] theorem leaveExtent_frame (x0 x1 x2 x3) : (leaveExtent x0 x1 x2 x3).engines = x0.engines ∧ (leaveExtent x0 x1 x2 x3).text = x0.text ∧
    (leaveExtent x0 x1 x2 x3).pair = x0.pair ∧ (leaveExtent x0 x1 x2 x3).flash = x0.flash ∧ (leaveExtent x0 x1 x2 x3).power = x0.power ∧
    (leaveExtent x0 x1 x2 x3).limits = x0.limits ∧ (leaveExtent x0 x1 x2 x3).fuses = x0.fuses ∧
    (leaveExtent x0 x1 x2 x3).shelfSkips = x0.shelfSkips ∧ (leaveExtent x0 x1 x2 x3).shelfCuts = x0.shelfCuts ∧
    (leaveExtent x0 x1 x2 x3).pending = x0.pending := by
  simp only [leaveExtent]
  repeat' split
  all_goals ((try simp only [Prod.ext_iff] at *); (try casesm* _ ∧ _); (try subst_vars); first | (simp; done) | (simp_all; done) | skip)

@[simp] theorem refetchReadback_frame (x0 x1 x2 x3) : (refetchReadback x0 x1 x2 x3).engines = x0.engines ∧
    (refetchReadback x0 x1 x2 x3).text = x0.text ∧ (refetchReadback x0 x1 x2 x3).pair = x0.pair ∧
    (refetchReadback x0 x1 x2 x3).flash = x0.flash ∧ (refetchReadback x0 x1 x2 x3).power = x0.power ∧
    (refetchReadback x0 x1 x2 x3).limits = x0.limits ∧ (refetchReadback x0 x1 x2 x3).fuses = x0.fuses ∧
    (refetchReadback x0 x1 x2 x3).shelfSkips = x0.shelfSkips ∧ (refetchReadback x0 x1 x2 x3).shelfCuts = x0.shelfCuts ∧
    (refetchReadback x0 x1 x2 x3).pending = x0.pending := by
  simp only [refetchReadback]
  repeat' split
  all_goals ((try simp only [Prod.ext_iff] at *); (try casesm* _ ∧ _); (try subst_vars); (try simp))

theorem execRefetchReadback_frame (x0 x1 x2 x3) : ∀ t, (execRefetchReadback x0 x1 x2 x3) = .next t → t.engines = x3.engines ∧
    t.text = x3.text ∧ t.pair = x3.pair ∧ t.flash = x3.flash ∧ t.power = x3.power ∧ t.limits = x3.limits ∧ t.fuses = x3.fuses ∧
    t.shelfSkips = x3.shelfSkips ∧ t.shelfCuts = x3.shelfCuts ∧ t.pending = x3.pending := by simp [execRefetchReadback]

@[simp] theorem refillPoisoned_frame (x0 x1 x2 x3) : (refillPoisoned x0 x1 x2 x3).engines = x0.engines ∧
    (refillPoisoned x0 x1 x2 x3).text = x0.text ∧ (refillPoisoned x0 x1 x2 x3).flash = x0.flash ∧
    (refillPoisoned x0 x1 x2 x3).power = x0.power ∧ (refillPoisoned x0 x1 x2 x3).limits = x0.limits ∧
    (refillPoisoned x0 x1 x2 x3).fuses = x0.fuses ∧ (refillPoisoned x0 x1 x2 x3).shelfSkips = x0.shelfSkips ∧
    (refillPoisoned x0 x1 x2 x3).shelfCuts = x0.shelfCuts ∧ (refillPoisoned x0 x1 x2 x3).pending = x0.pending := by
  simp only [refillPoisoned]
  repeat' split
  all_goals ((try simp only [Prod.ext_iff] at *); (try casesm* _ ∧ _); (try subst_vars); first | (simp; done) | (simp_all; done) | skip)

end Sys2Proof.Machine
end

