-- ==== Sys2Proof/Laws/FrameEngines.lean ====
section
/-! SUPPORT. Frames of the operations and meanings of engines, retrieval, text and tables: the parts of the state that each leaves as they are. -/

set_option linter.unusedSimpArgs false
set_option linter.unusedTactic false
set_option linter.unreachableTactic false
set_option linter.unnecessarySeqFocus false
set_option linter.unusedVariables false

namespace Sys2Proof.Machine

/-! ## Engine -/

@[simp] theorem readWords_frame (x0 x1 x2 x3 x4) : ((readWords x0 x1 x2 x3 x4)).1.fabric = x0.fabric ∧
    ((readWords x0 x1 x2 x3 x4)).1.store = x0.store ∧ ((readWords x0 x1 x2 x3 x4)).1.tier = x0.tier ∧
    ((readWords x0 x1 x2 x3 x4)).1.host = x0.host ∧ ((readWords x0 x1 x2 x3 x4)).1.gen = x0.gen ∧
    ((readWords x0 x1 x2 x3 x4)).1.text = x0.text ∧ ((readWords x0 x1 x2 x3 x4)).1.pair = x0.pair ∧
    ((readWords x0 x1 x2 x3 x4)).1.flash = x0.flash ∧ ((readWords x0 x1 x2 x3 x4)).1.bureau = x0.bureau ∧
    ((readWords x0 x1 x2 x3 x4)).1.power = x0.power ∧ ((readWords x0 x1 x2 x3 x4)).1.limits = x0.limits ∧
    ((readWords x0 x1 x2 x3 x4)).1.fuses = x0.fuses ∧ ((readWords x0 x1 x2 x3 x4)).1.shelfSkips = x0.shelfSkips ∧
    ((readWords x0 x1 x2 x3 x4)).1.shelfCuts = x0.shelfCuts ∧ ((readWords x0 x1 x2 x3 x4)).1.free = x0.free ∧
    ((readWords x0 x1 x2 x3 x4)).1.pending = x0.pending := by simp [readWords]

@[simp] theorem noteOpFault_frame (x0 x1 x2) : (noteOpFault x0 x1 x2).fabric = x0.fabric ∧ (noteOpFault x0 x1 x2).store = x0.store ∧
    (noteOpFault x0 x1 x2).tier = x0.tier ∧ (noteOpFault x0 x1 x2).host = x0.host ∧ (noteOpFault x0 x1 x2).gen = x0.gen ∧
    (noteOpFault x0 x1 x2).text = x0.text ∧ (noteOpFault x0 x1 x2).pair = x0.pair ∧ (noteOpFault x0 x1 x2).flash = x0.flash ∧
    (noteOpFault x0 x1 x2).bureau = x0.bureau ∧ (noteOpFault x0 x1 x2).power = x0.power ∧ (noteOpFault x0 x1 x2).limits = x0.limits ∧
    (noteOpFault x0 x1 x2).fuses = x0.fuses ∧ (noteOpFault x0 x1 x2).shelfSkips = x0.shelfSkips ∧
    (noteOpFault x0 x1 x2).shelfCuts = x0.shelfCuts ∧ (noteOpFault x0 x1 x2).free = x0.free ∧ (noteOpFault x0 x1 x2).pending = x0.pending := by unfold noteOpFault; split <;> simp

@[simp] theorem product_frame (x0 x1) : (product x0 x1).fabric = x0.fabric ∧ (product x0 x1).store = x0.store ∧
    (product x0 x1).tier = x0.tier ∧ (product x0 x1).text = x0.text ∧ (product x0 x1).pair = x0.pair ∧ (product x0 x1).flash = x0.flash ∧
    (product x0 x1).power = x0.power ∧ (product x0 x1).limits = x0.limits ∧ (product x0 x1).fuses = x0.fuses ∧
    (product x0 x1).shelfSkips = x0.shelfSkips ∧ (product x0 x1).shelfCuts = x0.shelfCuts ∧ (product x0 x1).free = x0.free ∧
    (product x0 x1).pending = x0.pending := by
  simp only [product]
  repeat' split
  all_goals ((try simp only [Prod.ext_iff] at *); (try casesm* _ ∧ _); (try subst_vars); (try simp))

theorem execDeepShapeMatmul_frame (x0 x1) : ∀ t, (execDeepShapeMatmul x0 x1) = .next t → t.fabric = x1.fabric ∧ t.store = x1.store ∧
    t.tier = x1.tier ∧ t.text = x1.text ∧ t.pair = x1.pair ∧ t.flash = x1.flash ∧ t.power = x1.power ∧ t.limits = x1.limits ∧
    t.fuses = x1.fuses ∧ t.shelfSkips = x1.shelfSkips ∧ t.shelfCuts = x1.shelfCuts ∧ t.free = x1.free ∧ t.pending = x1.pending := by unfold execDeepShapeMatmul; split <;> simp

theorem execWideShapeMatmul_frame (x0 x1) : ∀ t, (execWideShapeMatmul x0 x1) = .next t → t.fabric = x1.fabric ∧ t.store = x1.store ∧
    t.tier = x1.tier ∧ t.text = x1.text ∧ t.pair = x1.pair ∧ t.flash = x1.flash ∧ t.power = x1.power ∧ t.limits = x1.limits ∧
    t.fuses = x1.fuses ∧ t.shelfSkips = x1.shelfSkips ∧ t.shelfCuts = x1.shelfCuts ∧ t.free = x1.free ∧ t.pending = x1.pending := by unfold execWideShapeMatmul; split <;> simp

theorem execConvolution_frame (x0 x1) : ∀ t, (execConvolution x0 x1) = .next t → t.fabric = x1.fabric ∧ t.store = x1.store ∧
    t.tier = x1.tier ∧ t.text = x1.text ∧ t.pair = x1.pair ∧ t.flash = x1.flash ∧ t.power = x1.power ∧ t.limits = x1.limits ∧
    t.fuses = x1.fuses ∧ t.shelfSkips = x1.shelfSkips ∧ t.shelfCuts = x1.shelfCuts ∧ t.free = x1.free ∧ t.pending = x1.pending := by
  unfold execConvolution
  repeat' split
  all_goals ((try simp only [Prod.ext_iff] at *); (try casesm* _ ∧ _); (try subst_vars); (try simp))

@[simp] theorem flagRequest_frame (x0 x1 x2) : (flagRequest x0 x1 x2).fabric = x0.fabric ∧ (flagRequest x0 x1 x2).store = x0.store ∧
    (flagRequest x0 x1 x2).tier = x0.tier ∧ (flagRequest x0 x1 x2).engines = x0.engines ∧ (flagRequest x0 x1 x2).gen = x0.gen ∧
    (flagRequest x0 x1 x2).text = x0.text ∧ (flagRequest x0 x1 x2).pair = x0.pair ∧ (flagRequest x0 x1 x2).flash = x0.flash ∧
    (flagRequest x0 x1 x2).bureau = x0.bureau ∧ (flagRequest x0 x1 x2).power = x0.power ∧ (flagRequest x0 x1 x2).limits = x0.limits ∧
    (flagRequest x0 x1 x2).fuses = x0.fuses ∧ (flagRequest x0 x1 x2).shelfSkips = x0.shelfSkips ∧
    (flagRequest x0 x1 x2).shelfCuts = x0.shelfCuts ∧ (flagRequest x0 x1 x2).free = x0.free ∧ (flagRequest x0 x1 x2).pending = x0.pending := by simp [flagRequest]

@[simp] theorem flagOwners_frame (x0 x1 x2 x3) : (flagOwners x0 x1 x2 x3).fabric = x0.fabric ∧ (flagOwners x0 x1 x2 x3).store = x0.store ∧
    (flagOwners x0 x1 x2 x3).tier = x0.tier ∧ (flagOwners x0 x1 x2 x3).engines = x0.engines ∧ (flagOwners x0 x1 x2 x3).gen = x0.gen ∧
    (flagOwners x0 x1 x2 x3).text = x0.text ∧ (flagOwners x0 x1 x2 x3).pair = x0.pair ∧ (flagOwners x0 x1 x2 x3).flash = x0.flash ∧
    (flagOwners x0 x1 x2 x3).bureau = x0.bureau ∧ (flagOwners x0 x1 x2 x3).power = x0.power ∧ (flagOwners x0 x1 x2 x3).limits = x0.limits ∧
    (flagOwners x0 x1 x2 x3).fuses = x0.fuses ∧ (flagOwners x0 x1 x2 x3).shelfSkips = x0.shelfSkips ∧
    (flagOwners x0 x1 x2 x3).shelfCuts = x0.shelfCuts ∧ (flagOwners x0 x1 x2 x3).free = x0.free ∧
    (flagOwners x0 x1 x2 x3).pending = x0.pending := by simp [flagOwners]

@[simp] theorem rerunTile_frame (x0 x1 x2 x3) : (rerunTile x0 x1 x2 x3).fabric = x0.fabric ∧ (rerunTile x0 x1 x2 x3).store = x0.store ∧
    (rerunTile x0 x1 x2 x3).tier = x0.tier ∧ (rerunTile x0 x1 x2 x3).host = x0.host ∧ (rerunTile x0 x1 x2 x3).gen = x0.gen ∧
    (rerunTile x0 x1 x2 x3).text = x0.text ∧ (rerunTile x0 x1 x2 x3).pair = x0.pair ∧ (rerunTile x0 x1 x2 x3).flash = x0.flash ∧
    (rerunTile x0 x1 x2 x3).bureau = x0.bureau ∧ (rerunTile x0 x1 x2 x3).power = x0.power ∧ (rerunTile x0 x1 x2 x3).limits = x0.limits ∧
    (rerunTile x0 x1 x2 x3).fuses = x0.fuses ∧ (rerunTile x0 x1 x2 x3).shelfSkips = x0.shelfSkips ∧
    (rerunTile x0 x1 x2 x3).shelfCuts = x0.shelfCuts ∧ (rerunTile x0 x1 x2 x3).free = x0.free ∧ (rerunTile x0 x1 x2 x3).pending = x0.pending := by simp [rerunTile]

@[simp] theorem raiseAnchor_frame (x0 x1 x2 x3) : (raiseAnchor x0 x1 x2 x3).fabric = x0.fabric ∧ (raiseAnchor x0 x1 x2 x3).store = x0.store ∧
    (raiseAnchor x0 x1 x2 x3).tier = x0.tier ∧ (raiseAnchor x0 x1 x2 x3).text = x0.text ∧ (raiseAnchor x0 x1 x2 x3).pair = x0.pair ∧
    (raiseAnchor x0 x1 x2 x3).flash = x0.flash ∧ (raiseAnchor x0 x1 x2 x3).power = x0.power ∧ (raiseAnchor x0 x1 x2 x3).limits = x0.limits ∧
    (raiseAnchor x0 x1 x2 x3).fuses = x0.fuses ∧ (raiseAnchor x0 x1 x2 x3).shelfSkips = x0.shelfSkips ∧
    (raiseAnchor x0 x1 x2 x3).shelfCuts = x0.shelfCuts ∧ (raiseAnchor x0 x1 x2 x3).free = x0.free ∧
    (raiseAnchor x0 x1 x2 x3).pending = x0.pending := by simp [raiseAnchor]

@[simp] theorem saturateTile_frame (x0 x1 x2) : (saturateTile x0 x1 x2).fabric = x0.fabric ∧ (saturateTile x0 x1 x2).store = x0.store ∧
    (saturateTile x0 x1 x2).tier = x0.tier ∧ (saturateTile x0 x1 x2).host = x0.host ∧ (saturateTile x0 x1 x2).gen = x0.gen ∧
    (saturateTile x0 x1 x2).text = x0.text ∧ (saturateTile x0 x1 x2).pair = x0.pair ∧ (saturateTile x0 x1 x2).flash = x0.flash ∧
    (saturateTile x0 x1 x2).bureau = x0.bureau ∧ (saturateTile x0 x1 x2).power = x0.power ∧ (saturateTile x0 x1 x2).limits = x0.limits ∧
    (saturateTile x0 x1 x2).fuses = x0.fuses ∧ (saturateTile x0 x1 x2).shelfSkips = x0.shelfSkips ∧
    (saturateTile x0 x1 x2).shelfCuts = x0.shelfCuts ∧ (saturateTile x0 x1 x2).free = x0.free ∧ (saturateTile x0 x1 x2).pending = x0.pending := by simp [saturateTile]

@[simp] theorem conversion_frame (x0 x1 x2) : (conversion x0 x1 x2).fabric = x0.fabric ∧ (conversion x0 x1 x2).store = x0.store ∧
    (conversion x0 x1 x2).tier = x0.tier ∧ (conversion x0 x1 x2).text = x0.text ∧ (conversion x0 x1 x2).pair = x0.pair ∧
    (conversion x0 x1 x2).flash = x0.flash ∧ (conversion x0 x1 x2).power = x0.power ∧ (conversion x0 x1 x2).limits = x0.limits ∧
    (conversion x0 x1 x2).fuses = x0.fuses ∧ (conversion x0 x1 x2).shelfSkips = x0.shelfSkips ∧
    (conversion x0 x1 x2).shelfCuts = x0.shelfCuts ∧ (conversion x0 x1 x2).free = x0.free ∧ (conversion x0 x1 x2).pending = x0.pending := by
  unfold conversion
  repeat' split
  all_goals ((try simp only [Prod.ext_iff] at *); (try casesm* _ ∧ _); (try subst_vars); first | (simp; done) | (simp_all; done) | skip)

@[simp] theorem conversionRead_frame (x0 x1) : (conversionRead x0 x1).fabric = x0.fabric ∧ (conversionRead x0 x1).store = x0.store ∧
    (conversionRead x0 x1).tier = x0.tier ∧ (conversionRead x0 x1).text = x0.text ∧ (conversionRead x0 x1).pair = x0.pair ∧
    (conversionRead x0 x1).flash = x0.flash ∧ (conversionRead x0 x1).power = x0.power ∧ (conversionRead x0 x1).limits = x0.limits ∧
    (conversionRead x0 x1).fuses = x0.fuses ∧ (conversionRead x0 x1).shelfSkips = x0.shelfSkips ∧
    (conversionRead x0 x1).shelfCuts = x0.shelfCuts ∧ (conversionRead x0 x1).free = x0.free ∧ (conversionRead x0 x1).pending = x0.pending := by
  unfold conversionRead
  repeat' split
  all_goals ((try simp only [Prod.ext_iff] at *); (try casesm* _ ∧ _); (try subst_vars); first | (simp; done) | (simp_all; done) | skip)

theorem execConversionRead_frame (x0 x1) : ∀ t, (execConversionRead x0 x1) = .next t → t.fabric = x1.fabric ∧ t.store = x1.store ∧
    t.tier = x1.tier ∧ t.text = x1.text ∧ t.pair = x1.pair ∧ t.flash = x1.flash ∧ t.power = x1.power ∧ t.limits = x1.limits ∧
    t.fuses = x1.fuses ∧ t.shelfSkips = x1.shelfSkips ∧ t.shelfCuts = x1.shelfCuts ∧ t.free = x1.free ∧ t.pending = x1.pending := by simp [execConversionRead]

@[simp] theorem anchorRetryDone_frame (x0 x1) : (anchorRetryDone x0 x1).fabric = x0.fabric ∧ (anchorRetryDone x0 x1).store = x0.store ∧
    (anchorRetryDone x0 x1).tier = x0.tier ∧ (anchorRetryDone x0 x1).text = x0.text ∧ (anchorRetryDone x0 x1).pair = x0.pair ∧
    (anchorRetryDone x0 x1).flash = x0.flash ∧ (anchorRetryDone x0 x1).power = x0.power ∧ (anchorRetryDone x0 x1).limits = x0.limits ∧
    (anchorRetryDone x0 x1).fuses = x0.fuses ∧ (anchorRetryDone x0 x1).shelfSkips = x0.shelfSkips ∧
    (anchorRetryDone x0 x1).shelfCuts = x0.shelfCuts ∧ (anchorRetryDone x0 x1).free = x0.free ∧ (anchorRetryDone x0 x1).pending = x0.pending := by
  simp only [anchorRetryDone]
  repeat' split
  all_goals ((try simp only [Prod.ext_iff] at *); (try casesm* _ ∧ _); (try subst_vars); first | (simp; done) | (simp_all; done) | skip)

theorem execAnchorRetryDone_frame (x0 x1) : ∀ t, (execAnchorRetryDone x0 x1) = .next t → t.fabric = x1.fabric ∧ t.store = x1.store ∧
    t.tier = x1.tier ∧ t.text = x1.text ∧ t.pair = x1.pair ∧ t.flash = x1.flash ∧ t.power = x1.power ∧ t.limits = x1.limits ∧
    t.fuses = x1.fuses ∧ t.shelfSkips = x1.shelfSkips ∧ t.shelfCuts = x1.shelfCuts ∧ t.free = x1.free ∧ t.pending = x1.pending := by simp [execAnchorRetryDone]

@[simp] theorem activityTarget_frame (x0 x1 x2) : (activityTarget x0 x1 x2).fabric = x0.fabric ∧ (activityTarget x0 x1 x2).store = x0.store ∧
    (activityTarget x0 x1 x2).tier = x0.tier ∧ (activityTarget x0 x1 x2).host = x0.host ∧ (activityTarget x0 x1 x2).gen = x0.gen ∧
    (activityTarget x0 x1 x2).text = x0.text ∧ (activityTarget x0 x1 x2).pair = x0.pair ∧ (activityTarget x0 x1 x2).flash = x0.flash ∧
    (activityTarget x0 x1 x2).bureau = x0.bureau ∧ (activityTarget x0 x1 x2).power = x0.power ∧ (activityTarget x0 x1 x2).limits = x0.limits ∧
    (activityTarget x0 x1 x2).fuses = x0.fuses ∧ (activityTarget x0 x1 x2).shelfSkips = x0.shelfSkips ∧
    (activityTarget x0 x1 x2).shelfCuts = x0.shelfCuts ∧ (activityTarget x0 x1 x2).free = x0.free ∧
    (activityTarget x0 x1 x2).pending = x0.pending := by simp [activityTarget]

theorem execActivityHoldExpiry_frame (x0 x1 x2) : ∀ t, (execActivityHoldExpiry x0 x1 x2) = .next t → t.fabric = x2.fabric ∧
    t.store = x2.store ∧ t.tier = x2.tier ∧ t.host = x2.host ∧ t.gen = x2.gen ∧ t.text = x2.text ∧ t.pair = x2.pair ∧ t.flash = x2.flash ∧
    t.bureau = x2.bureau ∧ t.power = x2.power ∧ t.limits = x2.limits ∧ t.fuses = x2.fuses ∧ t.shelfSkips = x2.shelfSkips ∧
    t.shelfCuts = x2.shelfCuts ∧ t.free = x2.free ∧ t.pending = x2.pending := by simp [execActivityHoldExpiry]

@[simp] theorem activityStep_frame (x0 x1) : (activityStep x0 x1).fabric = x0.fabric ∧ (activityStep x0 x1).store = x0.store ∧
    (activityStep x0 x1).tier = x0.tier ∧ (activityStep x0 x1).host = x0.host ∧ (activityStep x0 x1).gen = x0.gen ∧
    (activityStep x0 x1).text = x0.text ∧ (activityStep x0 x1).pair = x0.pair ∧ (activityStep x0 x1).flash = x0.flash ∧
    (activityStep x0 x1).bureau = x0.bureau ∧ (activityStep x0 x1).power = x0.power ∧ (activityStep x0 x1).limits = x0.limits ∧
    (activityStep x0 x1).fuses = x0.fuses ∧ (activityStep x0 x1).shelfSkips = x0.shelfSkips ∧ (activityStep x0 x1).shelfCuts = x0.shelfCuts ∧
    (activityStep x0 x1).free = x0.free ∧ (activityStep x0 x1).pending = x0.pending := by simp [activityStep]

theorem execActivityLevelStep_frame (x0 x1) : ∀ t, (execActivityLevelStep x0 x1) = .next t → t.fabric = x1.fabric ∧ t.store = x1.store ∧
    t.tier = x1.tier ∧ t.host = x1.host ∧ t.gen = x1.gen ∧ t.text = x1.text ∧ t.pair = x1.pair ∧ t.flash = x1.flash ∧ t.bureau = x1.bureau ∧
    t.power = x1.power ∧ t.limits = x1.limits ∧ t.fuses = x1.fuses ∧ t.shelfSkips = x1.shelfSkips ∧ t.shelfCuts = x1.shelfCuts ∧
    t.free = x1.free ∧ t.pending = x1.pending := by simp [execActivityLevelStep]

/-! ## Vector -/

@[simp] theorem vectorOp_frame (x0 x1 x2 x3 x4 x5) : (vectorOp x0 x1 x2 x3 x4 x5).fabric = x0.fabric ∧
    (vectorOp x0 x1 x2 x3 x4 x5).store = x0.store ∧ (vectorOp x0 x1 x2 x3 x4 x5).tier = x0.tier ∧
    (vectorOp x0 x1 x2 x3 x4 x5).text = x0.text ∧ (vectorOp x0 x1 x2 x3 x4 x5).pair = x0.pair ∧
    (vectorOp x0 x1 x2 x3 x4 x5).flash = x0.flash ∧ (vectorOp x0 x1 x2 x3 x4 x5).power = x0.power ∧
    (vectorOp x0 x1 x2 x3 x4 x5).limits = x0.limits ∧ (vectorOp x0 x1 x2 x3 x4 x5).fuses = x0.fuses ∧
    (vectorOp x0 x1 x2 x3 x4 x5).shelfSkips = x0.shelfSkips ∧ (vectorOp x0 x1 x2 x3 x4 x5).shelfCuts = x0.shelfCuts ∧
    (vectorOp x0 x1 x2 x3 x4 x5).free = x0.free ∧ (vectorOp x0 x1 x2 x3 x4 x5).pending = x0.pending := by
  unfold vectorOp
  repeat' split
  all_goals ((try simp only [Prod.ext_iff] at *); (try casesm* _ ∧ _); (try subst_vars); (try simp))

@[simp] theorem faultyTile_frame (x0 x1 x2 x3 x4) : ((faultyTile x0 x1 x2 x3 x4)).1.fabric = x0.fabric ∧
    ((faultyTile x0 x1 x2 x3 x4)).1.store = x0.store ∧ ((faultyTile x0 x1 x2 x3 x4)).1.tier = x0.tier ∧
    ((faultyTile x0 x1 x2 x3 x4)).1.engines = x0.engines ∧ ((faultyTile x0 x1 x2 x3 x4)).1.gen = x0.gen ∧
    ((faultyTile x0 x1 x2 x3 x4)).1.text = x0.text ∧ ((faultyTile x0 x1 x2 x3 x4)).1.pair = x0.pair ∧
    ((faultyTile x0 x1 x2 x3 x4)).1.flash = x0.flash ∧ ((faultyTile x0 x1 x2 x3 x4)).1.power = x0.power ∧
    ((faultyTile x0 x1 x2 x3 x4)).1.limits = x0.limits ∧ ((faultyTile x0 x1 x2 x3 x4)).1.fuses = x0.fuses ∧
    ((faultyTile x0 x1 x2 x3 x4)).1.shelfSkips = x0.shelfSkips ∧ ((faultyTile x0 x1 x2 x3 x4)).1.shelfCuts = x0.shelfCuts ∧
    ((faultyTile x0 x1 x2 x3 x4)).1.free = x0.free ∧ ((faultyTile x0 x1 x2 x3 x4)).1.pending = x0.pending := by
  unfold faultyTile
  repeat' split
  all_goals ((try simp only [Prod.ext_iff] at *); (try casesm* _ ∧ _); (try subst_vars); first | (simp; done) | (simp_all; done) | skip)

@[simp] theorem writeOut_frame (x0 x1 x2 x3 x4 x5 x6) : (writeOut x0 x1 x2 x3 x4 x5 x6).tier = x0.tier ∧
    (writeOut x0 x1 x2 x3 x4 x5 x6).text = x0.text ∧ (writeOut x0 x1 x2 x3 x4 x5 x6).pair = x0.pair ∧
    (writeOut x0 x1 x2 x3 x4 x5 x6).flash = x0.flash ∧ (writeOut x0 x1 x2 x3 x4 x5 x6).power = x0.power ∧
    (writeOut x0 x1 x2 x3 x4 x5 x6).limits = x0.limits ∧ (writeOut x0 x1 x2 x3 x4 x5 x6).fuses = x0.fuses ∧
    (writeOut x0 x1 x2 x3 x4 x5 x6).shelfSkips = x0.shelfSkips ∧ (writeOut x0 x1 x2 x3 x4 x5 x6).shelfCuts = x0.shelfCuts ∧
    (writeOut x0 x1 x2 x3 x4 x5 x6).free = x0.free ∧ (writeOut x0 x1 x2 x3 x4 x5 x6).pending = x0.pending := by simp [writeOut]

@[simp] theorem egress_frame (x0 x1 x2 x3 x4) : (egress x0 x1 x2 x3 x4).tier = x0.tier ∧ (egress x0 x1 x2 x3 x4).text = x0.text ∧
    (egress x0 x1 x2 x3 x4).pair = x0.pair ∧ (egress x0 x1 x2 x3 x4).flash = x0.flash ∧ (egress x0 x1 x2 x3 x4).power = x0.power ∧
    (egress x0 x1 x2 x3 x4).limits = x0.limits ∧ (egress x0 x1 x2 x3 x4).fuses = x0.fuses ∧
    (egress x0 x1 x2 x3 x4).shelfSkips = x0.shelfSkips ∧ (egress x0 x1 x2 x3 x4).shelfCuts = x0.shelfCuts ∧
    (egress x0 x1 x2 x3 x4).free = x0.free ∧ (egress x0 x1 x2 x3 x4).pending = x0.pending := by
  unfold egress
  repeat' split
  all_goals ((try simp only [Prod.ext_iff] at *); (try casesm* _ ∧ _); (try subst_vars); first | (simp; done) | (simp_all; done) | skip)

theorem execVectorOp_frame (x0 x1) : ∀ t, (execVectorOp x0 x1) = .next t → t.tier = x1.tier ∧ t.text = x1.text ∧ t.pair = x1.pair ∧
    t.flash = x1.flash ∧ t.power = x1.power ∧ t.limits = x1.limits ∧ t.fuses = x1.fuses ∧ t.shelfSkips = x1.shelfSkips ∧
    t.shelfCuts = x1.shelfCuts ∧ t.free = x1.free ∧ t.pending = x1.pending := by
  unfold execVectorOp
  repeat' split
  all_goals ((try simp only [Prod.ext_iff] at *); (try casesm* _ ∧ _); (try subst_vars); first | (simp; done) | (simp_all; done) | skip)

theorem execMxQuantise_frame (x0 x1 x2 x3) : ∀ t, (execMxQuantise x0 x1 x2 x3) = .next t → t.fabric = x3.fabric ∧ t.store = x3.store ∧
    t.tier = x3.tier ∧ t.text = x3.text ∧ t.pair = x3.pair ∧ t.flash = x3.flash ∧ t.power = x3.power ∧ t.limits = x3.limits ∧
    t.fuses = x3.fuses ∧ t.shelfSkips = x3.shelfSkips ∧ t.shelfCuts = x3.shelfCuts ∧ t.free = x3.free ∧ t.pending = x3.pending := by simp [execMxQuantise]

theorem execReduction_frame (x0 x1 x2) : ∀ t, (execReduction x0 x1 x2) = .next t → t.fabric = x2.fabric ∧ t.store = x2.store ∧
    t.tier = x2.tier ∧ t.text = x2.text ∧ t.pair = x2.pair ∧ t.flash = x2.flash ∧ t.power = x2.power ∧ t.limits = x2.limits ∧
    t.fuses = x2.fuses ∧ t.shelfSkips = x2.shelfSkips ∧ t.shelfCuts = x2.shelfCuts ∧ t.free = x2.free ∧ t.pending = x2.pending := by
  unfold execReduction
  repeat' split
  all_goals ((try simp only [Prod.ext_iff] at *); (try casesm* _ ∧ _); (try subst_vars); first | (simp; done) | (simp_all; done) | skip)

@[simp] theorem rotary_frame (x0 x1 x2 x3 x4) : (rotary x0 x1 x2 x3 x4).fabric = x0.fabric ∧ (rotary x0 x1 x2 x3 x4).store = x0.store ∧
    (rotary x0 x1 x2 x3 x4).tier = x0.tier ∧ (rotary x0 x1 x2 x3 x4).text = x0.text ∧ (rotary x0 x1 x2 x3 x4).pair = x0.pair ∧
    (rotary x0 x1 x2 x3 x4).flash = x0.flash ∧ (rotary x0 x1 x2 x3 x4).power = x0.power ∧ (rotary x0 x1 x2 x3 x4).limits = x0.limits ∧
    (rotary x0 x1 x2 x3 x4).fuses = x0.fuses ∧ (rotary x0 x1 x2 x3 x4).shelfSkips = x0.shelfSkips ∧
    (rotary x0 x1 x2 x3 x4).shelfCuts = x0.shelfCuts ∧ (rotary x0 x1 x2 x3 x4).free = x0.free ∧ (rotary x0 x1 x2 x3 x4).pending = x0.pending := by
  simp only [rotary]
  repeat' split
  all_goals ((try simp only [Prod.ext_iff] at *); (try casesm* _ ∧ _); (try subst_vars); first | (simp; done) | (simp_all; done) | skip)

theorem execRotaryEncoding_frame (x0 x1 x2 x3 x4) : ∀ t, (execRotaryEncoding x0 x1 x2 x3 x4) = .next t → t.fabric = x4.fabric ∧
    t.store = x4.store ∧ t.tier = x4.tier ∧ t.text = x4.text ∧ t.pair = x4.pair ∧ t.flash = x4.flash ∧ t.power = x4.power ∧
    t.limits = x4.limits ∧ t.fuses = x4.fuses ∧ t.shelfSkips = x4.shelfSkips ∧ t.shelfCuts = x4.shelfCuts ∧ t.free = x4.free ∧
    t.pending = x4.pending := by simp [execRotaryEncoding]

theorem execNormalisation_frame (x0 x1 x2 x3 x4 x5) : ∀ t, (execNormalisation x0 x1 x2 x3 x4 x5) = .next t → t.fabric = x5.fabric ∧
    t.store = x5.store ∧ t.tier = x5.tier ∧ t.text = x5.text ∧ t.pair = x5.pair ∧ t.flash = x5.flash ∧ t.power = x5.power ∧
    t.limits = x5.limits ∧ t.fuses = x5.fuses ∧ t.shelfSkips = x5.shelfSkips ∧ t.shelfCuts = x5.shelfCuts ∧ t.free = x5.free ∧
    t.pending = x5.pending := by simp [execNormalisation]

/-! ## Selection -/

@[simp] theorem putList_frame (x0 x1 x2 x3 x4 x5) : (putList x0 x1 x2 x3 x4 x5).tier = x0.tier ∧ (putList x0 x1 x2 x3 x4 x5).text = x0.text ∧
    (putList x0 x1 x2 x3 x4 x5).pair = x0.pair ∧ (putList x0 x1 x2 x3 x4 x5).flash = x0.flash ∧ (putList x0 x1 x2 x3 x4 x5).power = x0.power ∧
    (putList x0 x1 x2 x3 x4 x5).limits = x0.limits ∧ (putList x0 x1 x2 x3 x4 x5).fuses = x0.fuses ∧
    (putList x0 x1 x2 x3 x4 x5).shelfSkips = x0.shelfSkips ∧ (putList x0 x1 x2 x3 x4 x5).shelfCuts = x0.shelfCuts ∧
    (putList x0 x1 x2 x3 x4 x5).pending = x0.pending := by
  simp only [putList]
  repeat' split
  all_goals ((try simp only [Prod.ext_iff] at *); (try casesm* _ ∧ _); (try subst_vars); (try simp))

@[simp] theorem selectOp_frame (x0 x1 x2 x3 x4 x5) : (selectOp x0 x1 x2 x3 x4 x5).tier = x0.tier ∧
    (selectOp x0 x1 x2 x3 x4 x5).text = x0.text ∧ (selectOp x0 x1 x2 x3 x4 x5).pair = x0.pair ∧
    (selectOp x0 x1 x2 x3 x4 x5).flash = x0.flash ∧ (selectOp x0 x1 x2 x3 x4 x5).power = x0.power ∧
    (selectOp x0 x1 x2 x3 x4 x5).limits = x0.limits ∧ (selectOp x0 x1 x2 x3 x4 x5).fuses = x0.fuses ∧
    (selectOp x0 x1 x2 x3 x4 x5).shelfSkips = x0.shelfSkips ∧ (selectOp x0 x1 x2 x3 x4 x5).shelfCuts = x0.shelfCuts ∧
    (selectOp x0 x1 x2 x3 x4 x5).pending = x0.pending := by
  unfold selectOp
  repeat' split
  all_goals ((try simp only [Prod.ext_iff] at *); (try casesm* _ ∧ _); (try subst_vars); first | (simp; done) | (simp_all; done) | skip)

theorem execSelectExact_frame (x0 x1 x2 x3 x4) : ∀ t, (execSelectExact x0 x1 x2 x3 x4) = .next t → t.tier = x4.tier ∧ t.text = x4.text ∧
    t.pair = x4.pair ∧ t.flash = x4.flash ∧ t.power = x4.power ∧ t.limits = x4.limits ∧ t.fuses = x4.fuses ∧ t.shelfSkips = x4.shelfSkips ∧
    t.shelfCuts = x4.shelfCuts ∧ t.pending = x4.pending := by unfold execSelectExact; split <;> simp

theorem execSelectBucket_frame (x0 x1 x2 x3 x4) : ∀ t, (execSelectBucket x0 x1 x2 x3 x4) = .next t → t.tier = x4.tier ∧ t.text = x4.text ∧
    t.pair = x4.pair ∧ t.flash = x4.flash ∧ t.power = x4.power ∧ t.limits = x4.limits ∧ t.fuses = x4.fuses ∧ t.shelfSkips = x4.shelfSkips ∧
    t.shelfCuts = x4.shelfCuts ∧ t.pending = x4.pending := by unfold execSelectBucket; split <;> simp

@[simp] theorem selectMerge_frame (x0 x1 x2 x3 x4 x5) : (selectMerge x0 x1 x2 x3 x4 x5).tier = x0.tier ∧
    (selectMerge x0 x1 x2 x3 x4 x5).text = x0.text ∧ (selectMerge x0 x1 x2 x3 x4 x5).pair = x0.pair ∧
    (selectMerge x0 x1 x2 x3 x4 x5).flash = x0.flash ∧ (selectMerge x0 x1 x2 x3 x4 x5).power = x0.power ∧
    (selectMerge x0 x1 x2 x3 x4 x5).limits = x0.limits ∧ (selectMerge x0 x1 x2 x3 x4 x5).fuses = x0.fuses ∧
    (selectMerge x0 x1 x2 x3 x4 x5).shelfSkips = x0.shelfSkips ∧ (selectMerge x0 x1 x2 x3 x4 x5).shelfCuts = x0.shelfCuts ∧
    (selectMerge x0 x1 x2 x3 x4 x5).pending = x0.pending := by
  simp only [selectMerge]
  repeat' split
  all_goals ((try simp only [Prod.ext_iff] at *); (try casesm* _ ∧ _); (try subst_vars); (try simp))

theorem execSelectMerge_frame (x0 x1 x2 x3 x4 x5) : ∀ t, (execSelectMerge x0 x1 x2 x3 x4 x5) = .next t → t.tier = x5.tier ∧ t.text = x5.text ∧
    t.pair = x5.pair ∧ t.flash = x5.flash ∧ t.power = x5.power ∧ t.limits = x5.limits ∧ t.fuses = x5.fuses ∧ t.shelfSkips = x5.shelfSkips ∧
    t.shelfCuts = x5.shelfCuts ∧ t.pending = x5.pending := by unfold execSelectMerge; split <;> simp

@[simp] theorem setMerge_frame (x0 x1 x2) : (setMerge x0 x1 x2).fabric = x0.fabric ∧ (setMerge x0 x1 x2).store = x0.store ∧
    (setMerge x0 x1 x2).tier = x0.tier ∧ (setMerge x0 x1 x2).host = x0.host ∧ (setMerge x0 x1 x2).gen = x0.gen ∧
    (setMerge x0 x1 x2).text = x0.text ∧ (setMerge x0 x1 x2).pair = x0.pair ∧ (setMerge x0 x1 x2).flash = x0.flash ∧
    (setMerge x0 x1 x2).bureau = x0.bureau ∧ (setMerge x0 x1 x2).power = x0.power ∧ (setMerge x0 x1 x2).limits = x0.limits ∧
    (setMerge x0 x1 x2).fuses = x0.fuses ∧ (setMerge x0 x1 x2).shelfSkips = x0.shelfSkips ∧ (setMerge x0 x1 x2).shelfCuts = x0.shelfCuts ∧
    (setMerge x0 x1 x2).free = x0.free ∧ (setMerge x0 x1 x2).pending = x0.pending := by simp [setMerge]

@[simp] theorem mergeStart_frame (x0 x1 x2) : (mergeStart x0 x1 x2).fabric = x0.fabric ∧ (mergeStart x0 x1 x2).store = x0.store ∧
    (mergeStart x0 x1 x2).tier = x0.tier ∧ (mergeStart x0 x1 x2).gen = x0.gen ∧ (mergeStart x0 x1 x2).text = x0.text ∧
    (mergeStart x0 x1 x2).pair = x0.pair ∧ (mergeStart x0 x1 x2).flash = x0.flash ∧ (mergeStart x0 x1 x2).bureau = x0.bureau ∧
    (mergeStart x0 x1 x2).power = x0.power ∧ (mergeStart x0 x1 x2).limits = x0.limits ∧ (mergeStart x0 x1 x2).fuses = x0.fuses ∧
    (mergeStart x0 x1 x2).shelfSkips = x0.shelfSkips ∧ (mergeStart x0 x1 x2).shelfCuts = x0.shelfCuts ∧ (mergeStart x0 x1 x2).free = x0.free ∧
    (mergeStart x0 x1 x2).pending = x0.pending := by
  simp only [mergeStart]
  repeat' split
  all_goals ((try simp only [Prod.ext_iff] at *); (try casesm* _ ∧ _); (try subst_vars); first | (simp; done) | (simp_all; done) | skip)

theorem execMergeStart_frame (x0 x1 x2) : ∀ t, (execMergeStart x0 x1 x2) = .next t → t.fabric = x2.fabric ∧ t.store = x2.store ∧
    t.tier = x2.tier ∧ t.gen = x2.gen ∧ t.text = x2.text ∧ t.pair = x2.pair ∧ t.flash = x2.flash ∧ t.bureau = x2.bureau ∧ t.power = x2.power ∧
    t.limits = x2.limits ∧ t.fuses = x2.fuses ∧ t.shelfSkips = x2.shelfSkips ∧ t.shelfCuts = x2.shelfCuts ∧ t.free = x2.free ∧
    t.pending = x2.pending := by simp [execMergeStart]

@[simp] theorem mergePublish_frame (x0 x1 x2 x3) : (mergePublish x0 x1 x2 x3).fabric = x0.fabric ∧
    (mergePublish x0 x1 x2 x3).store = x0.store ∧ (mergePublish x0 x1 x2 x3).tier = x0.tier ∧ (mergePublish x0 x1 x2 x3).gen = x0.gen ∧
    (mergePublish x0 x1 x2 x3).text = x0.text ∧ (mergePublish x0 x1 x2 x3).pair = x0.pair ∧ (mergePublish x0 x1 x2 x3).flash = x0.flash ∧
    (mergePublish x0 x1 x2 x3).bureau = x0.bureau ∧ (mergePublish x0 x1 x2 x3).power = x0.power ∧
    (mergePublish x0 x1 x2 x3).limits = x0.limits ∧ (mergePublish x0 x1 x2 x3).fuses = x0.fuses ∧
    (mergePublish x0 x1 x2 x3).shelfSkips = x0.shelfSkips ∧ (mergePublish x0 x1 x2 x3).shelfCuts = x0.shelfCuts ∧
    (mergePublish x0 x1 x2 x3).free = x0.free ∧ (mergePublish x0 x1 x2 x3).pending = x0.pending := by simp [mergePublish]

theorem execMergeSlotPublish_frame (x0 x1 x2 x3) : ∀ t, (execMergeSlotPublish x0 x1 x2 x3) = .next t → t.fabric = x3.fabric ∧
    t.store = x3.store ∧ t.tier = x3.tier ∧ t.gen = x3.gen ∧ t.text = x3.text ∧ t.pair = x3.pair ∧ t.flash = x3.flash ∧ t.bureau = x3.bureau ∧
    t.power = x3.power ∧ t.limits = x3.limits ∧ t.fuses = x3.fuses ∧ t.shelfSkips = x3.shelfSkips ∧ t.shelfCuts = x3.shelfCuts ∧
    t.free = x3.free ∧ t.pending = x3.pending := by simp [execMergeSlotPublish]

@[simp] theorem lineInvalid_frame (x0 x1 x2) : (lineInvalid x0 x1 x2).fabric = x0.fabric ∧ (lineInvalid x0 x1 x2).store = x0.store ∧
    (lineInvalid x0 x1 x2).tier = x0.tier ∧ (lineInvalid x0 x1 x2).host = x0.host ∧ (lineInvalid x0 x1 x2).gen = x0.gen ∧
    (lineInvalid x0 x1 x2).text = x0.text ∧ (lineInvalid x0 x1 x2).pair = x0.pair ∧ (lineInvalid x0 x1 x2).flash = x0.flash ∧
    (lineInvalid x0 x1 x2).bureau = x0.bureau ∧ (lineInvalid x0 x1 x2).power = x0.power ∧ (lineInvalid x0 x1 x2).limits = x0.limits ∧
    (lineInvalid x0 x1 x2).fuses = x0.fuses ∧ (lineInvalid x0 x1 x2).shelfSkips = x0.shelfSkips ∧
    (lineInvalid x0 x1 x2).shelfCuts = x0.shelfCuts ∧ (lineInvalid x0 x1 x2).free = x0.free ∧ (lineInvalid x0 x1 x2).pending = x0.pending := by simp [lineInvalid]

theorem execReadyLineInvalidation_frame (x0 x1 x2) : ∀ t, (execReadyLineInvalidation x0 x1 x2) = .next t → t.fabric = x2.fabric ∧
    t.store = x2.store ∧ t.tier = x2.tier ∧ t.host = x2.host ∧ t.gen = x2.gen ∧ t.text = x2.text ∧ t.pair = x2.pair ∧ t.flash = x2.flash ∧
    t.bureau = x2.bureau ∧ t.power = x2.power ∧ t.limits = x2.limits ∧ t.fuses = x2.fuses ∧ t.shelfSkips = x2.shelfSkips ∧
    t.shelfCuts = x2.shelfCuts ∧ t.free = x2.free ∧ t.pending = x2.pending := by simp [execReadyLineInvalidation]

@[simp] theorem noteProvisional_frame (x0 x1 x2 x3 x4) : (noteProvisional x0 x1 x2 x3 x4).fabric = x0.fabric ∧
    (noteProvisional x0 x1 x2 x3 x4).store = x0.store ∧ (noteProvisional x0 x1 x2 x3 x4).tier = x0.tier ∧
    (noteProvisional x0 x1 x2 x3 x4).engines = x0.engines ∧ (noteProvisional x0 x1 x2 x3 x4).host = x0.host ∧
    (noteProvisional x0 x1 x2 x3 x4).text = x0.text ∧ (noteProvisional x0 x1 x2 x3 x4).flash = x0.flash ∧
    (noteProvisional x0 x1 x2 x3 x4).bureau = x0.bureau ∧ (noteProvisional x0 x1 x2 x3 x4).power = x0.power ∧
    (noteProvisional x0 x1 x2 x3 x4).limits = x0.limits ∧ (noteProvisional x0 x1 x2 x3 x4).fuses = x0.fuses ∧
    (noteProvisional x0 x1 x2 x3 x4).shelfSkips = x0.shelfSkips ∧ (noteProvisional x0 x1 x2 x3 x4).shelfCuts = x0.shelfCuts ∧
    (noteProvisional x0 x1 x2 x3 x4).free = x0.free ∧ (noteProvisional x0 x1 x2 x3 x4).pending = x0.pending := by simp [noteProvisional]

@[simp] theorem acceptLine_frame (x0 x1 x2 x3 x4 x5 x6) : (acceptLine x0 x1 x2 x3 x4 x5 x6).tier = x0.tier ∧
    (acceptLine x0 x1 x2 x3 x4 x5 x6).text = x0.text ∧ (acceptLine x0 x1 x2 x3 x4 x5 x6).flash = x0.flash ∧
    (acceptLine x0 x1 x2 x3 x4 x5 x6).power = x0.power ∧ (acceptLine x0 x1 x2 x3 x4 x5 x6).limits = x0.limits ∧
    (acceptLine x0 x1 x2 x3 x4 x5 x6).fuses = x0.fuses ∧ (acceptLine x0 x1 x2 x3 x4 x5 x6).shelfSkips = x0.shelfSkips ∧
    (acceptLine x0 x1 x2 x3 x4 x5 x6).shelfCuts = x0.shelfCuts ∧ (acceptLine x0 x1 x2 x3 x4 x5 x6).free = x0.free ∧
    (acceptLine x0 x1 x2 x3 x4 x5 x6).pending = x0.pending := by
  simp only [acceptLine]
  generalize (if x2 ∈ (mergeOf x0 x1).arrived then Option.filter (fun x => x.provisional) (mfind (mergeOf x0 x1).lines x2) else none) = held
  repeat' split
  all_goals (repeat' split)
  all_goals simp

@[simp] theorem lineReread_frame (x0 x1 x2 x3 x4 x5 x6) : (lineReread x0 x1 x2 x3 x4 x5 x6).tier = x0.tier ∧
    (lineReread x0 x1 x2 x3 x4 x5 x6).text = x0.text ∧ (lineReread x0 x1 x2 x3 x4 x5 x6).flash = x0.flash ∧
    (lineReread x0 x1 x2 x3 x4 x5 x6).power = x0.power ∧ (lineReread x0 x1 x2 x3 x4 x5 x6).limits = x0.limits ∧
    (lineReread x0 x1 x2 x3 x4 x5 x6).fuses = x0.fuses ∧ (lineReread x0 x1 x2 x3 x4 x5 x6).shelfSkips = x0.shelfSkips ∧
    (lineReread x0 x1 x2 x3 x4 x5 x6).shelfCuts = x0.shelfCuts ∧ (lineReread x0 x1 x2 x3 x4 x5 x6).free = x0.free ∧
    (lineReread x0 x1 x2 x3 x4 x5 x6).pending = x0.pending := by unfold lineReread; split <;> simp

theorem execReadyLineReread_frame (x0 x1 x2 x3 x4 x5 x6) : ∀ t, (execReadyLineReread x0 x1 x2 x3 x4 x5 x6) = .next t → t.tier = x6.tier ∧
    t.text = x6.text ∧ t.flash = x6.flash ∧ t.power = x6.power ∧ t.limits = x6.limits ∧ t.fuses = x6.fuses ∧ t.shelfSkips = x6.shelfSkips ∧
    t.shelfCuts = x6.shelfCuts ∧ t.free = x6.free ∧ t.pending = x6.pending := by simp [execReadyLineReread]

/-! ## Retrieval -/

@[simp] theorem releaseSnap_frame (x0 x1) : (releaseSnap x0 x1).fabric = x0.fabric ∧ (releaseSnap x0 x1).store = x0.store ∧
    (releaseSnap x0 x1).tier = x0.tier ∧ (releaseSnap x0 x1).engines = x0.engines ∧ (releaseSnap x0 x1).text = x0.text ∧
    (releaseSnap x0 x1).pair = x0.pair ∧ (releaseSnap x0 x1).flash = x0.flash ∧ (releaseSnap x0 x1).bureau = x0.bureau ∧
    (releaseSnap x0 x1).power = x0.power ∧ (releaseSnap x0 x1).limits = x0.limits ∧ (releaseSnap x0 x1).fuses = x0.fuses ∧
    (releaseSnap x0 x1).shelfSkips = x0.shelfSkips ∧ (releaseSnap x0 x1).shelfCuts = x0.shelfCuts ∧ (releaseSnap x0 x1).free = x0.free ∧
    (releaseSnap x0 x1).pending = x0.pending := by
  unfold releaseSnap
  repeat' split
  all_goals ((try simp only [Prod.ext_iff] at *); (try casesm* _ ∧ _); (try subst_vars); (try simp))

@[simp] theorem dequeueItems_frame (x0 x1) : (dequeueItems x0 x1).fabric = x0.fabric ∧ (dequeueItems x0 x1).store = x0.store ∧
    (dequeueItems x0 x1).tier = x0.tier ∧ (dequeueItems x0 x1).engines = x0.engines ∧ (dequeueItems x0 x1).host = x0.host ∧
    (dequeueItems x0 x1).text = x0.text ∧ (dequeueItems x0 x1).pair = x0.pair ∧ (dequeueItems x0 x1).flash = x0.flash ∧
    (dequeueItems x0 x1).bureau = x0.bureau ∧ (dequeueItems x0 x1).power = x0.power ∧ (dequeueItems x0 x1).limits = x0.limits ∧
    (dequeueItems x0 x1).fuses = x0.fuses ∧ (dequeueItems x0 x1).shelfSkips = x0.shelfSkips ∧ (dequeueItems x0 x1).shelfCuts = x0.shelfCuts ∧
    (dequeueItems x0 x1).free = x0.free ∧ (dequeueItems x0 x1).pending = x0.pending := by simp [dequeueItems]

@[simp] theorem phaseEnds_frame (x0 x1) : (phaseEnds x0 x1).fabric = x0.fabric ∧ (phaseEnds x0 x1).store = x0.store ∧
    (phaseEnds x0 x1).engines = x0.engines ∧ (phaseEnds x0 x1).host = x0.host ∧ (phaseEnds x0 x1).gen = x0.gen ∧
    (phaseEnds x0 x1).text = x0.text ∧ (phaseEnds x0 x1).pair = x0.pair ∧ (phaseEnds x0 x1).flash = x0.flash ∧
    (phaseEnds x0 x1).bureau = x0.bureau ∧ (phaseEnds x0 x1).power = x0.power ∧ (phaseEnds x0 x1).limits = x0.limits ∧
    (phaseEnds x0 x1).fuses = x0.fuses ∧ (phaseEnds x0 x1).shelfSkips = x0.shelfSkips ∧ (phaseEnds x0 x1).shelfCuts = x0.shelfCuts ∧
    (phaseEnds x0 x1).free = x0.free ∧ (phaseEnds x0 x1).pending = x0.pending := by simp [phaseEnds]

@[simp] theorem freeHeld_frame (x0 x1) : (freeHeld x0 x1).fabric = x0.fabric ∧ (freeHeld x0 x1).tier = x0.tier ∧
    (freeHeld x0 x1).engines = x0.engines ∧ (freeHeld x0 x1).gen = x0.gen ∧ (freeHeld x0 x1).text = x0.text ∧
    (freeHeld x0 x1).pair = x0.pair ∧ (freeHeld x0 x1).flash = x0.flash ∧ (freeHeld x0 x1).bureau = x0.bureau ∧
    (freeHeld x0 x1).power = x0.power ∧ (freeHeld x0 x1).limits = x0.limits ∧ (freeHeld x0 x1).fuses = x0.fuses ∧
    (freeHeld x0 x1).shelfSkips = x0.shelfSkips ∧ (freeHeld x0 x1).shelfCuts = x0.shelfCuts ∧ (freeHeld x0 x1).free = x0.free ∧
    (freeHeld x0 x1).pending = x0.pending := by
  unfold freeHeld
  repeat' split
  all_goals ((try simp only [Prod.ext_iff] at *); (try casesm* _ ∧ _); (try subst_vars); first | (simp; done) | (simp_all; done) | skip)

@[simp] theorem freePrompt_frame (x0 x1) : (freePrompt x0 x1).fabric = x0.fabric ∧ (freePrompt x0 x1).tier = x0.tier ∧
    (freePrompt x0 x1).engines = x0.engines ∧ (freePrompt x0 x1).gen = x0.gen ∧ (freePrompt x0 x1).text = x0.text ∧
    (freePrompt x0 x1).pair = x0.pair ∧ (freePrompt x0 x1).flash = x0.flash ∧ (freePrompt x0 x1).bureau = x0.bureau ∧
    (freePrompt x0 x1).power = x0.power ∧ (freePrompt x0 x1).limits = x0.limits ∧ (freePrompt x0 x1).fuses = x0.fuses ∧
    (freePrompt x0 x1).shelfSkips = x0.shelfSkips ∧ (freePrompt x0 x1).shelfCuts = x0.shelfCuts ∧ (freePrompt x0 x1).free = x0.free ∧
    (freePrompt x0 x1).pending = x0.pending := by
  unfold freePrompt
  repeat' split
  all_goals ((try simp only [Prod.ext_iff] at *); (try casesm* _ ∧ _); (try subst_vars); first | (simp; done) | (simp_all; done) | skip)

@[simp] theorem freeScan_frame (x0 x1) : (freeScan x0 x1).fabric = x0.fabric ∧ (freeScan x0 x1).tier = x0.tier ∧
    (freeScan x0 x1).engines = x0.engines ∧ (freeScan x0 x1).gen = x0.gen ∧ (freeScan x0 x1).text = x0.text ∧
    (freeScan x0 x1).pair = x0.pair ∧ (freeScan x0 x1).flash = x0.flash ∧ (freeScan x0 x1).bureau = x0.bureau ∧
    (freeScan x0 x1).power = x0.power ∧ (freeScan x0 x1).limits = x0.limits ∧ (freeScan x0 x1).fuses = x0.fuses ∧
    (freeScan x0 x1).shelfSkips = x0.shelfSkips ∧ (freeScan x0 x1).shelfCuts = x0.shelfCuts ∧ (freeScan x0 x1).free = x0.free ∧
    (freeScan x0 x1).pending = x0.pending := by
  unfold freeScan
  repeat' split
  all_goals ((try simp only [Prod.ext_iff] at *); (try casesm* _ ∧ _); (try subst_vars); first | (simp; done) | (simp_all; done) | skip)

theorem scanPut_frame (x0 x1 x2 x3) : ∀ t, (scanPut x0 x1 x2 x3) = some t → t.tier = x0.tier ∧ t.engines = x0.engines ∧ t.text = x0.text ∧
    t.pair = x0.pair ∧ t.flash = x0.flash ∧ t.power = x0.power ∧ t.limits = x0.limits ∧ t.fuses = x0.fuses ∧ t.shelfSkips = x0.shelfSkips ∧
    t.shelfCuts = x0.shelfCuts ∧ t.free = x0.free ∧ t.pending = x0.pending := by
  intro t h
  simp only [scanPut, Option.bind_eq_some_iff, Option.map_eq_some_iff] at h
  obtain ⟨_, _, r, h, rfl⟩ := h
  have := conductorPut_frame _ _ _ _ _ h
  simp_all

@[simp] theorem endRequest_frame (x0 x1 x2 x3) : (endRequest x0 x1 x2 x3).fabric = x0.fabric ∧ (endRequest x0 x1 x2 x3).engines = x0.engines ∧
    (endRequest x0 x1 x2 x3).text = x0.text ∧ (endRequest x0 x1 x2 x3).flash = x0.flash ∧ (endRequest x0 x1 x2 x3).power = x0.power ∧
    (endRequest x0 x1 x2 x3).limits = x0.limits ∧ (endRequest x0 x1 x2 x3).fuses = x0.fuses ∧
    (endRequest x0 x1 x2 x3).shelfSkips = x0.shelfSkips ∧ (endRequest x0 x1 x2 x3).shelfCuts = x0.shelfCuts ∧
    (endRequest x0 x1 x2 x3).pending = x0.pending := by simp [endRequest]

@[simp] theorem toPhase_frame (x0 x1 x2) : (toPhase x0 x1 x2).fabric = x0.fabric ∧ (toPhase x0 x1 x2).engines = x0.engines ∧
    (toPhase x0 x1 x2).text = x0.text ∧ (toPhase x0 x1 x2).flash = x0.flash ∧ (toPhase x0 x1 x2).power = x0.power ∧
    (toPhase x0 x1 x2).limits = x0.limits ∧ (toPhase x0 x1 x2).fuses = x0.fuses ∧ (toPhase x0 x1 x2).shelfSkips = x0.shelfSkips ∧
    (toPhase x0 x1 x2).shelfCuts = x0.shelfCuts ∧ (toPhase x0 x1 x2).pending = x0.pending := by simp [toPhase]

@[simp] theorem rerunPhase_frame (x0 x1 x2) : ((∀ y0, ((x2 y0)).fabric = (y0).fabric) → (rerunPhase x0 x1 x2).fabric = x0.fabric) ∧
    ((∀ y0, ((x2 y0)).engines = (y0).engines) → (rerunPhase x0 x1 x2).engines = x0.engines) ∧
    ((∀ y0, ((x2 y0)).text = (y0).text) → (rerunPhase x0 x1 x2).text = x0.text) ∧
    ((∀ y0, ((x2 y0)).flash = (y0).flash) → (rerunPhase x0 x1 x2).flash = x0.flash) ∧
    ((∀ y0, ((x2 y0)).power = (y0).power) → (rerunPhase x0 x1 x2).power = x0.power) ∧
    ((∀ y0, ((x2 y0)).limits = (y0).limits) → (rerunPhase x0 x1 x2).limits = x0.limits) ∧
    ((∀ y0, ((x2 y0)).fuses = (y0).fuses) → (rerunPhase x0 x1 x2).fuses = x0.fuses) ∧
    ((∀ y0, ((x2 y0)).shelfSkips = (y0).shelfSkips) → (rerunPhase x0 x1 x2).shelfSkips = x0.shelfSkips) ∧
    ((∀ y0, ((x2 y0)).shelfCuts = (y0).shelfCuts) → (rerunPhase x0 x1 x2).shelfCuts = x0.shelfCuts) ∧
    ((∀ y0, ((x2 y0)).pending = (y0).pending) → (rerunPhase x0 x1 x2).pending = x0.pending) := by
  refine ⟨fun h0 => ?_, fun h0 => ?_, fun h0 => ?_, fun h0 => ?_, fun h0 => ?_, fun h0 => ?_, fun h0 => ?_, fun h0 => ?_, fun h0 => ?_, fun h0 => ?_⟩
  all_goals unfold rerunPhase
  all_goals (repeat' split)
  all_goals ((try simp only [Prod.ext_iff] at *); (try casesm* _ ∧ _); (try subst_vars); first | (simp [h0]; done) | (simp_all; done) | skip)

@[simp] theorem walkStart_frame (x0 x1) : (walkStart x0 x1).fabric = x0.fabric ∧ (walkStart x0 x1).engines = x0.engines ∧
    (walkStart x0 x1).text = x0.text ∧ (walkStart x0 x1).flash = x0.flash ∧ (walkStart x0 x1).power = x0.power ∧
    (walkStart x0 x1).limits = x0.limits ∧ (walkStart x0 x1).fuses = x0.fuses ∧ (walkStart x0 x1).shelfSkips = x0.shelfSkips ∧
    (walkStart x0 x1).shelfCuts = x0.shelfCuts ∧ (walkStart x0 x1).pending = x0.pending := by
  unfold walkStart
  repeat' split
  all_goals ((try simp only [Prod.ext_iff] at *); (try casesm* _ ∧ _); (try subst_vars); (try simp))

theorem execWalkStart_frame (x0 x1) : ∀ t, (execWalkStart x0 x1) = .next t → t.fabric = x1.fabric ∧ t.engines = x1.engines ∧
    t.text = x1.text ∧ t.flash = x1.flash ∧ t.power = x1.power ∧ t.limits = x1.limits ∧ t.fuses = x1.fuses ∧ t.shelfSkips = x1.shelfSkips ∧
    t.shelfCuts = x1.shelfCuts ∧ t.pending = x1.pending := by simp [execWalkStart]

@[simp] theorem walkEnd_frame (x0 x1 x2) : (walkEnd x0 x1 x2).engines = x0.engines ∧ (walkEnd x0 x1 x2).text = x0.text ∧
    (walkEnd x0 x1 x2).flash = x0.flash ∧ (walkEnd x0 x1 x2).power = x0.power ∧ (walkEnd x0 x1 x2).limits = x0.limits ∧
    (walkEnd x0 x1 x2).fuses = x0.fuses ∧ (walkEnd x0 x1 x2).shelfSkips = x0.shelfSkips ∧ (walkEnd x0 x1 x2).shelfCuts = x0.shelfCuts ∧
    (walkEnd x0 x1 x2).pending = x0.pending := by
  simp only [walkEnd]
  repeat' split
  all_goals ((try simp only [Prod.ext_iff] at *); (try casesm* _ ∧ _); (try subst_vars); (try have hh_4 := scanPut_frame _ _ _ _ _ (by assumption)); first | (simp; done) | (simp_all; done) | skip)

@[simp] theorem walkRound_frame (x0 x1 x2 x3 x4) : (walkRound x0 x1 x2 x3 x4).fabric = x0.fabric ∧
    (walkRound x0 x1 x2 x3 x4).store = x0.store ∧ (walkRound x0 x1 x2 x3 x4).tier = x0.tier ∧
    (walkRound x0 x1 x2 x3 x4).engines = x0.engines ∧ (walkRound x0 x1 x2 x3 x4).gen = x0.gen ∧ (walkRound x0 x1 x2 x3 x4).text = x0.text ∧
    (walkRound x0 x1 x2 x3 x4).pair = x0.pair ∧ (walkRound x0 x1 x2 x3 x4).flash = x0.flash ∧ (walkRound x0 x1 x2 x3 x4).bureau = x0.bureau ∧
    (walkRound x0 x1 x2 x3 x4).power = x0.power ∧ (walkRound x0 x1 x2 x3 x4).limits = x0.limits ∧
    (walkRound x0 x1 x2 x3 x4).fuses = x0.fuses ∧ (walkRound x0 x1 x2 x3 x4).shelfSkips = x0.shelfSkips ∧
    (walkRound x0 x1 x2 x3 x4).shelfCuts = x0.shelfCuts ∧ (walkRound x0 x1 x2 x3 x4).free = x0.free ∧
    (walkRound x0 x1 x2 x3 x4).pending = x0.pending := by simp [walkRound]

@[simp] theorem walkRoundEnd_frame (x0 x1) : (walkRoundEnd x0 x1).engines = x0.engines ∧ (walkRoundEnd x0 x1).text = x0.text ∧
    (walkRoundEnd x0 x1).flash = x0.flash ∧ (walkRoundEnd x0 x1).power = x0.power ∧ (walkRoundEnd x0 x1).limits = x0.limits ∧
    (walkRoundEnd x0 x1).fuses = x0.fuses ∧ (walkRoundEnd x0 x1).shelfSkips = x0.shelfSkips ∧ (walkRoundEnd x0 x1).shelfCuts = x0.shelfCuts ∧
    (walkRoundEnd x0 x1).pending = x0.pending := by
  simp only [walkRoundEnd]
  repeat' split
  all_goals ((try simp only [Prod.ext_iff] at *); (try casesm* _ ∧ _); (try subst_vars); (try simp))

theorem execWalkRoundEnd_frame (x0 x1) : ∀ t, (execWalkRoundEnd x0 x1) = .next t → t.engines = x1.engines ∧ t.text = x1.text ∧
    t.flash = x1.flash ∧ t.power = x1.power ∧ t.limits = x1.limits ∧ t.fuses = x1.fuses ∧ t.shelfSkips = x1.shelfSkips ∧
    t.shelfCuts = x1.shelfCuts ∧ t.pending = x1.pending := by simp [execWalkRoundEnd]

@[simp] theorem useCodebook_frame (x0 x1 x2) : (useCodebook x0 x1 x2).fabric = x1.fabric ∧ (useCodebook x0 x1 x2).store = x1.store ∧
    (useCodebook x0 x1 x2).tier = x1.tier ∧ (useCodebook x0 x1 x2).engines = x1.engines ∧ (useCodebook x0 x1 x2).host = x1.host ∧
    (useCodebook x0 x1 x2).text = x1.text ∧ (useCodebook x0 x1 x2).pair = x1.pair ∧ (useCodebook x0 x1 x2).flash = x1.flash ∧
    (useCodebook x0 x1 x2).bureau = x1.bureau ∧ (useCodebook x0 x1 x2).power = x1.power ∧ (useCodebook x0 x1 x2).limits = x1.limits ∧
    (useCodebook x0 x1 x2).fuses = x1.fuses ∧ (useCodebook x0 x1 x2).shelfSkips = x1.shelfSkips ∧
    (useCodebook x0 x1 x2).shelfCuts = x1.shelfCuts ∧ (useCodebook x0 x1 x2).free = x1.free ∧ (useCodebook x0 x1 x2).pending = x1.pending := by simp [useCodebook]

@[simp] theorem scanIssue_frame (x0 x1) : (scanIssue x0 x1).fabric = x0.fabric ∧ (scanIssue x0 x1).engines = x0.engines ∧
    (scanIssue x0 x1).text = x0.text ∧ (scanIssue x0 x1).flash = x0.flash ∧ (scanIssue x0 x1).power = x0.power ∧
    (scanIssue x0 x1).limits = x0.limits ∧ (scanIssue x0 x1).fuses = x0.fuses ∧ (scanIssue x0 x1).shelfSkips = x0.shelfSkips ∧
    (scanIssue x0 x1).shelfCuts = x0.shelfCuts ∧ (scanIssue x0 x1).pending = x0.pending := by
  unfold scanIssue
  repeat' split
  all_goals ((try simp only [Prod.ext_iff] at *); (try casesm* _ ∧ _); (try subst_vars); (try simp))

theorem execScanIssue_frame (x0 x1) : ∀ t, (execScanIssue x0 x1) = .next t → t.fabric = x1.fabric ∧ t.engines = x1.engines ∧
    t.text = x1.text ∧ t.flash = x1.flash ∧ t.power = x1.power ∧ t.limits = x1.limits ∧ t.fuses = x1.fuses ∧ t.shelfSkips = x1.shelfSkips ∧
    t.shelfCuts = x1.shelfCuts ∧ t.pending = x1.pending := by simp [execScanIssue]

@[simp] theorem offerEntry_frame (x0 x1 x2 x3 x4 x5 x6) : (offerEntry x0 x1 x2 x3 x4 x5 x6).fabric = x0.fabric ∧
    (offerEntry x0 x1 x2 x3 x4 x5 x6).store = x0.store ∧ (offerEntry x0 x1 x2 x3 x4 x5 x6).tier = x0.tier ∧
    (offerEntry x0 x1 x2 x3 x4 x5 x6).engines = x0.engines ∧ (offerEntry x0 x1 x2 x3 x4 x5 x6).gen = x0.gen ∧
    (offerEntry x0 x1 x2 x3 x4 x5 x6).text = x0.text ∧ (offerEntry x0 x1 x2 x3 x4 x5 x6).pair = x0.pair ∧
    (offerEntry x0 x1 x2 x3 x4 x5 x6).flash = x0.flash ∧ (offerEntry x0 x1 x2 x3 x4 x5 x6).bureau = x0.bureau ∧
    (offerEntry x0 x1 x2 x3 x4 x5 x6).power = x0.power ∧ (offerEntry x0 x1 x2 x3 x4 x5 x6).limits = x0.limits ∧
    (offerEntry x0 x1 x2 x3 x4 x5 x6).fuses = x0.fuses ∧ (offerEntry x0 x1 x2 x3 x4 x5 x6).shelfCuts = x0.shelfCuts ∧
    (offerEntry x0 x1 x2 x3 x4 x5 x6).free = x0.free ∧ (offerEntry x0 x1 x2 x3 x4 x5 x6).pending = x0.pending := by unfold offerEntry; split <;> simp

@[simp] theorem modProbe_frame (x0 x1 x2 x3) : (modProbe x0 x1 x2 x3).fabric = x0.fabric ∧ (modProbe x0 x1 x2 x3).store = x0.store ∧
    (modProbe x0 x1 x2 x3).tier = x0.tier ∧ (modProbe x0 x1 x2 x3).engines = x0.engines ∧ (modProbe x0 x1 x2 x3).gen = x0.gen ∧
    (modProbe x0 x1 x2 x3).text = x0.text ∧ (modProbe x0 x1 x2 x3).pair = x0.pair ∧ (modProbe x0 x1 x2 x3).flash = x0.flash ∧
    (modProbe x0 x1 x2 x3).bureau = x0.bureau ∧ (modProbe x0 x1 x2 x3).power = x0.power ∧ (modProbe x0 x1 x2 x3).limits = x0.limits ∧
    (modProbe x0 x1 x2 x3).fuses = x0.fuses ∧ (modProbe x0 x1 x2 x3).shelfSkips = x0.shelfSkips ∧
    (modProbe x0 x1 x2 x3).shelfCuts = x0.shelfCuts ∧ (modProbe x0 x1 x2 x3).free = x0.free ∧ (modProbe x0 x1 x2 x3).pending = x0.pending := by simp [modProbe]

@[simp] theorem arriveEntries_frame (x0 x1 x2 x3 x4 x5) : (arriveEntries x0 x1 x2 x3 x4 x5).fabric = x0.fabric ∧
    (arriveEntries x0 x1 x2 x3 x4 x5).store = x0.store ∧ (arriveEntries x0 x1 x2 x3 x4 x5).tier = x0.tier ∧
    (arriveEntries x0 x1 x2 x3 x4 x5).engines = x0.engines ∧ (arriveEntries x0 x1 x2 x3 x4 x5).gen = x0.gen ∧
    (arriveEntries x0 x1 x2 x3 x4 x5).text = x0.text ∧ (arriveEntries x0 x1 x2 x3 x4 x5).pair = x0.pair ∧
    (arriveEntries x0 x1 x2 x3 x4 x5).flash = x0.flash ∧ (arriveEntries x0 x1 x2 x3 x4 x5).bureau = x0.bureau ∧
    (arriveEntries x0 x1 x2 x3 x4 x5).power = x0.power ∧ (arriveEntries x0 x1 x2 x3 x4 x5).limits = x0.limits ∧
    (arriveEntries x0 x1 x2 x3 x4 x5).fuses = x0.fuses ∧ (arriveEntries x0 x1 x2 x3 x4 x5).shelfCuts = x0.shelfCuts ∧
    (arriveEntries x0 x1 x2 x3 x4 x5).free = x0.free ∧ (arriveEntries x0 x1 x2 x3 x4 x5).pending = x0.pending := by unfold arriveEntries; split <;> simp

@[simp] theorem loseUnit_frame (x0 x1) : (loseUnit x0 x1).fabric = x0.fabric ∧ (loseUnit x0 x1).store = x0.store ∧
    (loseUnit x0 x1).engines = x0.engines ∧ (loseUnit x0 x1).host = x0.host ∧ (loseUnit x0 x1).gen = x0.gen ∧
    (loseUnit x0 x1).text = x0.text ∧ (loseUnit x0 x1).pair = x0.pair ∧ (loseUnit x0 x1).flash = x0.flash ∧
    (loseUnit x0 x1).bureau = x0.bureau ∧ (loseUnit x0 x1).power = x0.power ∧ (loseUnit x0 x1).limits = x0.limits ∧
    (loseUnit x0 x1).fuses = x0.fuses ∧ (loseUnit x0 x1).shelfSkips = x0.shelfSkips ∧ (loseUnit x0 x1).shelfCuts = x0.shelfCuts ∧
    (loseUnit x0 x1).free = x0.free ∧ (loseUnit x0 x1).pending = x0.pending := by simp [loseUnit]

@[simp] theorem unitArrive_frame (x0 x1 x2 x3 x4) : (unitArrive x0 x1 x2 x3 x4).fabric = x0.fabric ∧
    (unitArrive x0 x1 x2 x3 x4).engines = x0.engines ∧ (unitArrive x0 x1 x2 x3 x4).text = x0.text ∧
    (unitArrive x0 x1 x2 x3 x4).flash = x0.flash ∧ (unitArrive x0 x1 x2 x3 x4).power = x0.power ∧
    (unitArrive x0 x1 x2 x3 x4).limits = x0.limits ∧ (unitArrive x0 x1 x2 x3 x4).fuses = x0.fuses ∧
    (unitArrive x0 x1 x2 x3 x4).shelfCuts = x0.shelfCuts ∧ (unitArrive x0 x1 x2 x3 x4).pending = x0.pending := by
  unfold unitArrive
  repeat' split
  all_goals ((try simp only [Prod.ext_iff] at *); (try casesm* _ ∧ _); (try subst_vars); (try simp))

theorem execShelfUnitArrive_frame (x0 x1 x2 x3 x4) : ∀ t, (execShelfUnitArrive x0 x1 x2 x3 x4) = .next t → t.fabric = x4.fabric ∧
    t.engines = x4.engines ∧ t.text = x4.text ∧ t.flash = x4.flash ∧ t.power = x4.power ∧ t.limits = x4.limits ∧ t.fuses = x4.fuses ∧
    t.shelfCuts = x4.shelfCuts ∧ t.pending = x4.pending := by simp [execShelfUnitArrive]

@[simp] theorem offerHeld_frame (x0 x1 x2 x3) : (offerHeld x0 x1 x2 x3).fabric = x0.fabric ∧ (offerHeld x0 x1 x2 x3).store = x0.store ∧
    (offerHeld x0 x1 x2 x3).tier = x0.tier ∧ (offerHeld x0 x1 x2 x3).engines = x0.engines ∧ (offerHeld x0 x1 x2 x3).gen = x0.gen ∧
    (offerHeld x0 x1 x2 x3).text = x0.text ∧ (offerHeld x0 x1 x2 x3).pair = x0.pair ∧ (offerHeld x0 x1 x2 x3).flash = x0.flash ∧
    (offerHeld x0 x1 x2 x3).bureau = x0.bureau ∧ (offerHeld x0 x1 x2 x3).power = x0.power ∧ (offerHeld x0 x1 x2 x3).limits = x0.limits ∧
    (offerHeld x0 x1 x2 x3).fuses = x0.fuses ∧ (offerHeld x0 x1 x2 x3).shelfCuts = x0.shelfCuts ∧ (offerHeld x0 x1 x2 x3).free = x0.free ∧
    (offerHeld x0 x1 x2 x3).pending = x0.pending := by unfold offerHeld; split <;> simp

@[simp] theorem chainRead_frame (x0 x1) : ((chainRead x0 x1)).1.engines = x0.engines ∧ ((chainRead x0 x1)).1.text = x0.text ∧
    ((chainRead x0 x1)).1.flash = x0.flash ∧ ((chainRead x0 x1)).1.power = x0.power ∧ ((chainRead x0 x1)).1.limits = x0.limits ∧
    ((chainRead x0 x1)).1.fuses = x0.fuses ∧ ((chainRead x0 x1)).1.shelfSkips = x0.shelfSkips ∧
    ((chainRead x0 x1)).1.shelfCuts = x0.shelfCuts ∧ ((chainRead x0 x1)).1.pending = x0.pending := by
  unfold chainRead
  repeat' split
  all_goals ((try simp only [Prod.ext_iff] at *); (try casesm* _ ∧ _); (try subst_vars); first | (simp; done) | (simp_all; done) | skip)

@[simp] theorem chainTaken_frame (x0 x1 x2 x3 x4 x5 x6) : (chainTaken x0 x1 x2 x3 x4 x5 x6).fabric = x0.fabric ∧
    (chainTaken x0 x1 x2 x3 x4 x5 x6).store = x0.store ∧ (chainTaken x0 x1 x2 x3 x4 x5 x6).tier = x0.tier ∧
    (chainTaken x0 x1 x2 x3 x4 x5 x6).engines = x0.engines ∧ (chainTaken x0 x1 x2 x3 x4 x5 x6).gen = x0.gen ∧
    (chainTaken x0 x1 x2 x3 x4 x5 x6).text = x0.text ∧ (chainTaken x0 x1 x2 x3 x4 x5 x6).pair = x0.pair ∧
    (chainTaken x0 x1 x2 x3 x4 x5 x6).flash = x0.flash ∧ (chainTaken x0 x1 x2 x3 x4 x5 x6).bureau = x0.bureau ∧
    (chainTaken x0 x1 x2 x3 x4 x5 x6).power = x0.power ∧ (chainTaken x0 x1 x2 x3 x4 x5 x6).limits = x0.limits ∧
    (chainTaken x0 x1 x2 x3 x4 x5 x6).fuses = x0.fuses ∧ (chainTaken x0 x1 x2 x3 x4 x5 x6).shelfCuts = x0.shelfCuts ∧
    (chainTaken x0 x1 x2 x3 x4 x5 x6).free = x0.free ∧ (chainTaken x0 x1 x2 x3 x4 x5 x6).pending = x0.pending := by simp [chainTaken]

@[simp] theorem chainArrive_frame (x0 x1 x2 x3) : (chainArrive x0 x1 x2 x3).engines = x0.engines ∧ (chainArrive x0 x1 x2 x3).text = x0.text ∧
    (chainArrive x0 x1 x2 x3).flash = x0.flash ∧ (chainArrive x0 x1 x2 x3).power = x0.power ∧ (chainArrive x0 x1 x2 x3).limits = x0.limits ∧
    (chainArrive x0 x1 x2 x3).fuses = x0.fuses ∧ (chainArrive x0 x1 x2 x3).shelfCuts = x0.shelfCuts ∧
    (chainArrive x0 x1 x2 x3).pending = x0.pending := by
  unfold chainArrive
  repeat' split
  all_goals ((try simp only [Prod.ext_iff] at *); (try casesm* _ ∧ _); (try subst_vars); (try have hh_4 := scanPut_frame _ _ _ _ _ (by assumption)); first | (simp; done) | (simp_all; done) | skip)

theorem execChainTileArrive_frame (x0 x1 x2 x3) : ∀ t, (execChainTileArrive x0 x1 x2 x3) = .next t → t.engines = x3.engines ∧
    t.text = x3.text ∧ t.flash = x3.flash ∧ t.power = x3.power ∧ t.limits = x3.limits ∧ t.fuses = x3.fuses ∧ t.shelfCuts = x3.shelfCuts ∧
    t.pending = x3.pending := by simp [execChainTileArrive]

@[simp] theorem sendCut_frame (x0 x1) : (sendCut x0 x1).fabric = x0.fabric ∧ (sendCut x0 x1).store = x0.store ∧
    (sendCut x0 x1).tier = x0.tier ∧ (sendCut x0 x1).engines = x0.engines ∧ (sendCut x0 x1).gen = x0.gen ∧ (sendCut x0 x1).text = x0.text ∧
    (sendCut x0 x1).pair = x0.pair ∧ (sendCut x0 x1).flash = x0.flash ∧ (sendCut x0 x1).bureau = x0.bureau ∧
    (sendCut x0 x1).power = x0.power ∧ (sendCut x0 x1).limits = x0.limits ∧ (sendCut x0 x1).fuses = x0.fuses ∧
    (sendCut x0 x1).shelfSkips = x0.shelfSkips ∧ (sendCut x0 x1).shelfCuts = x0.shelfCuts ∧ (sendCut x0 x1).free = x0.free ∧
    (sendCut x0 x1).pending = x0.pending := by simp [sendCut]

@[simp] theorem scanBudget_frame (x0 x1) : (scanBudget x0 x1).fabric = x0.fabric ∧ (scanBudget x0 x1).store = x0.store ∧
    (scanBudget x0 x1).tier = x0.tier ∧ (scanBudget x0 x1).engines = x0.engines ∧ (scanBudget x0 x1).gen = x0.gen ∧
    (scanBudget x0 x1).text = x0.text ∧ (scanBudget x0 x1).pair = x0.pair ∧ (scanBudget x0 x1).flash = x0.flash ∧
    (scanBudget x0 x1).bureau = x0.bureau ∧ (scanBudget x0 x1).power = x0.power ∧ (scanBudget x0 x1).limits = x0.limits ∧
    (scanBudget x0 x1).fuses = x0.fuses ∧ (scanBudget x0 x1).shelfSkips = x0.shelfSkips ∧ (scanBudget x0 x1).shelfCuts = x0.shelfCuts ∧
    (scanBudget x0 x1).free = x0.free ∧ (scanBudget x0 x1).pending = x0.pending := by
  unfold scanBudget
  repeat' split
  all_goals ((try simp only [Prod.ext_iff] at *); (try casesm* _ ∧ _); (try subst_vars); (try simp))

theorem execScanBudgetExpired_frame (x0 x1) : ∀ t, (execScanBudgetExpired x0 x1) = .next t → t.fabric = x1.fabric ∧ t.store = x1.store ∧
    t.tier = x1.tier ∧ t.engines = x1.engines ∧ t.gen = x1.gen ∧ t.text = x1.text ∧ t.pair = x1.pair ∧ t.flash = x1.flash ∧
    t.bureau = x1.bureau ∧ t.power = x1.power ∧ t.limits = x1.limits ∧ t.fuses = x1.fuses ∧ t.shelfSkips = x1.shelfSkips ∧
    t.shelfCuts = x1.shelfCuts ∧ t.free = x1.free ∧ t.pending = x1.pending := by simp [execScanBudgetExpired]

@[simp] theorem softDeadline_frame (x0 x1) : (softDeadline x0 x1).fabric = x0.fabric ∧ (softDeadline x0 x1).store = x0.store ∧
    (softDeadline x0 x1).tier = x0.tier ∧ (softDeadline x0 x1).engines = x0.engines ∧ (softDeadline x0 x1).gen = x0.gen ∧
    (softDeadline x0 x1).text = x0.text ∧ (softDeadline x0 x1).pair = x0.pair ∧ (softDeadline x0 x1).flash = x0.flash ∧
    (softDeadline x0 x1).bureau = x0.bureau ∧ (softDeadline x0 x1).power = x0.power ∧ (softDeadline x0 x1).limits = x0.limits ∧
    (softDeadline x0 x1).fuses = x0.fuses ∧ (softDeadline x0 x1).shelfSkips = x0.shelfSkips ∧ (softDeadline x0 x1).shelfCuts = x0.shelfCuts ∧
    (softDeadline x0 x1).free = x0.free ∧ (softDeadline x0 x1).pending = x0.pending := by
  unfold softDeadline
  repeat' split
  all_goals ((try simp only [Prod.ext_iff] at *); (try casesm* _ ∧ _); (try subst_vars); (try simp))

theorem execRetrievalSoftDeadline_frame (x0 x1) : ∀ t, (execRetrievalSoftDeadline x0 x1) = .next t → t.fabric = x1.fabric ∧
    t.store = x1.store ∧ t.tier = x1.tier ∧ t.engines = x1.engines ∧ t.gen = x1.gen ∧ t.text = x1.text ∧ t.pair = x1.pair ∧
    t.flash = x1.flash ∧ t.bureau = x1.bureau ∧ t.power = x1.power ∧ t.limits = x1.limits ∧ t.fuses = x1.fuses ∧
    t.shelfSkips = x1.shelfSkips ∧ t.shelfCuts = x1.shelfCuts ∧ t.free = x1.free ∧ t.pending = x1.pending := by simp [execRetrievalSoftDeadline]

theorem shelfWrites_frame (x0 x1 x2) : ∀ t, (shelfWrites x0 x1 x2) = some t → t.tier = x0.tier ∧ t.engines = x0.engines ∧ t.text = x0.text ∧
    t.pair = x0.pair ∧ t.flash = x0.flash ∧ t.power = x0.power ∧ t.limits = x0.limits ∧ t.fuses = x0.fuses ∧ t.shelfSkips = x0.shelfSkips ∧
    t.shelfCuts = x0.shelfCuts ∧ t.pending = x0.pending := by
  intro t h
  simp only [shelfWrites, Option.bind_eq_some_iff, Option.map_eq_some_iff] at h
  obtain ⟨_, _, _, _, r, h, rfl⟩ := h
  have := scanPut_frame _ _ _ _ _ h
  simp_all

@[simp] theorem scanCut_frame (x0 x1 x2) : (scanCut x0 x1 x2).tier = x0.tier ∧ (scanCut x0 x1 x2).engines = x0.engines ∧
    (scanCut x0 x1 x2).text = x0.text ∧ (scanCut x0 x1 x2).pair = x0.pair ∧ (scanCut x0 x1 x2).flash = x0.flash ∧
    (scanCut x0 x1 x2).power = x0.power ∧ (scanCut x0 x1 x2).limits = x0.limits ∧ (scanCut x0 x1 x2).fuses = x0.fuses ∧
    (scanCut x0 x1 x2).shelfSkips = x0.shelfSkips ∧ (scanCut x0 x1 x2).pending = x0.pending := by
  unfold scanCut
  split
  · simp
  · split
    · rcases hw : shelfWrites x0 x1 x2 with _ | t
      · simp
      · have := shelfWrites_frame _ _ _ _ hw
        simp_all
    · simp

theorem execScanCut_frame (x0 x1 x2) : ∀ t, (execScanCut x0 x1 x2) = .next t → t.tier = x2.tier ∧ t.engines = x2.engines ∧ t.text = x2.text ∧
    t.pair = x2.pair ∧ t.flash = x2.flash ∧ t.power = x2.power ∧ t.limits = x2.limits ∧ t.fuses = x2.fuses ∧ t.shelfSkips = x2.shelfSkips ∧
    t.pending = x2.pending := by simp [execScanCut]

@[simp] theorem shelfEnd_frame (x0 x1 x2) : (shelfEnd x0 x1 x2).tier = x0.tier ∧ (shelfEnd x0 x1 x2).engines = x0.engines ∧
    (shelfEnd x0 x1 x2).text = x0.text ∧ (shelfEnd x0 x1 x2).pair = x0.pair ∧ (shelfEnd x0 x1 x2).flash = x0.flash ∧
    (shelfEnd x0 x1 x2).power = x0.power ∧ (shelfEnd x0 x1 x2).limits = x0.limits ∧ (shelfEnd x0 x1 x2).fuses = x0.fuses ∧
    (shelfEnd x0 x1 x2).shelfSkips = x0.shelfSkips ∧ (shelfEnd x0 x1 x2).shelfCuts = x0.shelfCuts ∧ (shelfEnd x0 x1 x2).pending = x0.pending := by
  unfold shelfEnd
  split
  · simp
  · split
    · rcases hw : shelfWrites x0 x1 x2 with _ | t
      · simp
      · have := shelfWrites_frame _ _ _ _ hw
        simp_all
    · simp

theorem execShelfScanEnd_frame (x0 x1 x2) : ∀ t, (execShelfScanEnd x0 x1 x2) = .next t → t.tier = x2.tier ∧ t.engines = x2.engines ∧
    t.text = x2.text ∧ t.pair = x2.pair ∧ t.flash = x2.flash ∧ t.power = x2.power ∧ t.limits = x2.limits ∧ t.fuses = x2.fuses ∧
    t.shelfSkips = x2.shelfSkips ∧ t.shelfCuts = x2.shelfCuts ∧ t.pending = x2.pending := by simp [execShelfScanEnd]

@[simp] theorem searchFinal_frame (x0 x1) : (searchFinal x0 x1).fabric = x0.fabric ∧ (searchFinal x0 x1).engines = x0.engines ∧
    (searchFinal x0 x1).text = x0.text ∧ (searchFinal x0 x1).flash = x0.flash ∧ (searchFinal x0 x1).power = x0.power ∧
    (searchFinal x0 x1).limits = x0.limits ∧ (searchFinal x0 x1).fuses = x0.fuses ∧ (searchFinal x0 x1).shelfSkips = x0.shelfSkips ∧
    (searchFinal x0 x1).shelfCuts = x0.shelfCuts ∧ (searchFinal x0 x1).pending = x0.pending := by unfold searchFinal; split <;> simp

@[simp] theorem scanOver_frame (x0 x1) : (scanOver x0 x1).fabric = x0.fabric ∧ (scanOver x0 x1).store = x0.store ∧
    (scanOver x0 x1).tier = x0.tier ∧ (scanOver x0 x1).engines = x0.engines ∧ (scanOver x0 x1).gen = x0.gen ∧
    (scanOver x0 x1).text = x0.text ∧ (scanOver x0 x1).pair = x0.pair ∧ (scanOver x0 x1).flash = x0.flash ∧
    (scanOver x0 x1).power = x0.power ∧ (scanOver x0 x1).limits = x0.limits ∧ (scanOver x0 x1).fuses = x0.fuses ∧
    (scanOver x0 x1).shelfSkips = x0.shelfSkips ∧ (scanOver x0 x1).shelfCuts = x0.shelfCuts ∧ (scanOver x0 x1).free = x0.free ∧
    (scanOver x0 x1).pending = x0.pending := by unfold scanOver; split <;> simp

@[simp] theorem rescan_frame (x0 x1) : (rescan x0 x1).fabric = x0.fabric ∧ (rescan x0 x1).tier = x0.tier ∧
    (rescan x0 x1).engines = x0.engines ∧ (rescan x0 x1).gen = x0.gen ∧ (rescan x0 x1).text = x0.text ∧ (rescan x0 x1).pair = x0.pair ∧
    (rescan x0 x1).flash = x0.flash ∧ (rescan x0 x1).bureau = x0.bureau ∧ (rescan x0 x1).power = x0.power ∧
    (rescan x0 x1).limits = x0.limits ∧ (rescan x0 x1).fuses = x0.fuses ∧ (rescan x0 x1).shelfSkips = x0.shelfSkips ∧
    (rescan x0 x1).shelfCuts = x0.shelfCuts ∧ (rescan x0 x1).free = x0.free ∧ (rescan x0 x1).pending = x0.pending := by simp [rescan]

@[simp] theorem mergeCandidates_frame (x0 x1) : (mergeCandidates x0 x1).fabric = x0.fabric ∧ (mergeCandidates x0 x1).engines = x0.engines ∧
    (mergeCandidates x0 x1).text = x0.text ∧ (mergeCandidates x0 x1).flash = x0.flash ∧ (mergeCandidates x0 x1).power = x0.power ∧
    (mergeCandidates x0 x1).limits = x0.limits ∧ (mergeCandidates x0 x1).fuses = x0.fuses ∧
    (mergeCandidates x0 x1).shelfSkips = x0.shelfSkips ∧ (mergeCandidates x0 x1).shelfCuts = x0.shelfCuts ∧
    (mergeCandidates x0 x1).pending = x0.pending := by
  unfold mergeCandidates
  repeat' split
  all_goals ((try simp only [Prod.ext_iff] at *); (try casesm* _ ∧ _); (try subst_vars); (try simp))

theorem execCandidateMerge_frame (x0 x1) : ∀ t, (execCandidateMerge x0 x1) = .next t → t.fabric = x1.fabric ∧ t.engines = x1.engines ∧
    t.text = x1.text ∧ t.flash = x1.flash ∧ t.power = x1.power ∧ t.limits = x1.limits ∧ t.fuses = x1.fuses ∧ t.shelfSkips = x1.shelfSkips ∧
    t.shelfCuts = x1.shelfCuts ∧ t.pending = x1.pending := by simp [execCandidateMerge]

@[simp] theorem fetchEnds_frame (x0 x1) : (fetchEnds x0 x1).fabric = x0.fabric ∧ (fetchEnds x0 x1).engines = x0.engines ∧
    (fetchEnds x0 x1).text = x0.text ∧ (fetchEnds x0 x1).flash = x0.flash ∧ (fetchEnds x0 x1).power = x0.power ∧
    (fetchEnds x0 x1).limits = x0.limits ∧ (fetchEnds x0 x1).fuses = x0.fuses ∧ (fetchEnds x0 x1).shelfSkips = x0.shelfSkips ∧
    (fetchEnds x0 x1).shelfCuts = x0.shelfCuts ∧ (fetchEnds x0 x1).pending = x0.pending := by unfold fetchEnds; split <;> simp

@[simp] theorem passageFetch_frame (x0 x1) : (passageFetch x0 x1).fabric = x0.fabric ∧ (passageFetch x0 x1).engines = x0.engines ∧
    (passageFetch x0 x1).text = x0.text ∧ (passageFetch x0 x1).flash = x0.flash ∧ (passageFetch x0 x1).power = x0.power ∧
    (passageFetch x0 x1).limits = x0.limits ∧ (passageFetch x0 x1).fuses = x0.fuses ∧ (passageFetch x0 x1).shelfSkips = x0.shelfSkips ∧
    (passageFetch x0 x1).shelfCuts = x0.shelfCuts ∧ (passageFetch x0 x1).pending = x0.pending := by unfold passageFetch; split <;> simp

theorem execPassageFetch_frame (x0 x1) : ∀ t, (execPassageFetch x0 x1) = .next t → t.fabric = x1.fabric ∧ t.engines = x1.engines ∧
    t.text = x1.text ∧ t.flash = x1.flash ∧ t.power = x1.power ∧ t.limits = x1.limits ∧ t.fuses = x1.fuses ∧ t.shelfSkips = x1.shelfSkips ∧
    t.shelfCuts = x1.shelfCuts ∧ t.pending = x1.pending := by simp [execPassageFetch]

@[simp] theorem dropCand_frame (x0 x1 x2) : (dropCand x0 x1 x2).fabric = x0.fabric ∧ (dropCand x0 x1 x2).store = x0.store ∧
    (dropCand x0 x1 x2).tier = x0.tier ∧ (dropCand x0 x1 x2).engines = x0.engines ∧ (dropCand x0 x1 x2).gen = x0.gen ∧
    (dropCand x0 x1 x2).text = x0.text ∧ (dropCand x0 x1 x2).pair = x0.pair ∧ (dropCand x0 x1 x2).flash = x0.flash ∧
    (dropCand x0 x1 x2).bureau = x0.bureau ∧ (dropCand x0 x1 x2).power = x0.power ∧ (dropCand x0 x1 x2).limits = x0.limits ∧
    (dropCand x0 x1 x2).fuses = x0.fuses ∧ (dropCand x0 x1 x2).shelfSkips = x0.shelfSkips ∧ (dropCand x0 x1 x2).shelfCuts = x0.shelfCuts ∧
    (dropCand x0 x1 x2).free = x0.free ∧ (dropCand x0 x1 x2).pending = x0.pending := by simp [dropCand]

@[simp] theorem judgeBlock_frame (x0 x1 x2 x3 x4 x5 x6) : (judgeBlock x0 x1 x2 x3 x4 x5 x6).fabric = x0.fabric ∧
    (judgeBlock x0 x1 x2 x3 x4 x5 x6).store = x0.store ∧ (judgeBlock x0 x1 x2 x3 x4 x5 x6).tier = x0.tier ∧
    (judgeBlock x0 x1 x2 x3 x4 x5 x6).engines = x0.engines ∧ (judgeBlock x0 x1 x2 x3 x4 x5 x6).gen = x0.gen ∧
    (judgeBlock x0 x1 x2 x3 x4 x5 x6).text = x0.text ∧ (judgeBlock x0 x1 x2 x3 x4 x5 x6).pair = x0.pair ∧
    (judgeBlock x0 x1 x2 x3 x4 x5 x6).flash = x0.flash ∧ (judgeBlock x0 x1 x2 x3 x4 x5 x6).power = x0.power ∧
    (judgeBlock x0 x1 x2 x3 x4 x5 x6).limits = x0.limits ∧ (judgeBlock x0 x1 x2 x3 x4 x5 x6).fuses = x0.fuses ∧
    (judgeBlock x0 x1 x2 x3 x4 x5 x6).shelfSkips = x0.shelfSkips ∧ (judgeBlock x0 x1 x2 x3 x4 x5 x6).shelfCuts = x0.shelfCuts ∧
    (judgeBlock x0 x1 x2 x3 x4 x5 x6).free = x0.free ∧ (judgeBlock x0 x1 x2 x3 x4 x5 x6).pending = x0.pending := by simp [judgeBlock]

theorem unitTile_frame (x0 x1 x2 x3 x4) : ∀ t, (unitTile x0 x1 x2 x3 x4) = some t → (t).2.tier = x0.tier ∧ (t).2.engines = x0.engines ∧
    (t).2.text = x0.text ∧ (t).2.pair = x0.pair ∧ (t).2.flash = x0.flash ∧ (t).2.power = x0.power ∧ (t).2.limits = x0.limits ∧
    (t).2.fuses = x0.fuses ∧ (t).2.shelfSkips = x0.shelfSkips ∧ (t).2.shelfCuts = x0.shelfCuts ∧ (t).2.free = x0.free ∧
    (t).2.pending = x0.pending := by
  intro t h
  unfold unitTile at h
  split at h
  · cases h; simp
  · simp only [Option.bind_eq_some_iff, Option.map_eq_some_iff] at h
    obtain ⟨r, h, i, -, rfl⟩ := h
    have := conductorPut_frame _ _ _ _ _ h
    simp_all

@[simp] theorem passageArrive_frame (x0 x1 x2 x3) : (passageArrive x0 x1 x2 x3).engines = x0.engines ∧
    (passageArrive x0 x1 x2 x3).text = x0.text ∧ (passageArrive x0 x1 x2 x3).flash = x0.flash ∧ (passageArrive x0 x1 x2 x3).power = x0.power ∧
    (passageArrive x0 x1 x2 x3).limits = x0.limits ∧ (passageArrive x0 x1 x2 x3).fuses = x0.fuses ∧
    (passageArrive x0 x1 x2 x3).shelfSkips = x0.shelfSkips ∧ (passageArrive x0 x1 x2 x3).shelfCuts = x0.shelfCuts ∧
    (passageArrive x0 x1 x2 x3).pending = x0.pending := by
  simp only [passageArrive]
  repeat' split
  all_goals ((try simp only [Prod.ext_iff] at *); (try casesm* _ ∧ _); (try subst_vars); (try have hh_5 := unitTile_frame _ _ _ _ _ _ (by assumption)); first | (simp; done) | (simp_all; done) | skip)

theorem execPassageUnitArrive_frame (x0 x1 x2 x3) : ∀ t, (execPassageUnitArrive x0 x1 x2 x3) = .next t → t.engines = x3.engines ∧
    t.text = x3.text ∧ t.flash = x3.flash ∧ t.power = x3.power ∧ t.limits = x3.limits ∧ t.fuses = x3.fuses ∧ t.shelfSkips = x3.shelfSkips ∧
    t.shelfCuts = x3.shelfCuts ∧ t.pending = x3.pending := by simp [execPassageUnitArrive]

@[simp] theorem fetchBudget_frame (x0 x1) : (fetchBudget x0 x1).fabric = x0.fabric ∧ (fetchBudget x0 x1).engines = x0.engines ∧
    (fetchBudget x0 x1).text = x0.text ∧ (fetchBudget x0 x1).flash = x0.flash ∧ (fetchBudget x0 x1).power = x0.power ∧
    (fetchBudget x0 x1).limits = x0.limits ∧ (fetchBudget x0 x1).fuses = x0.fuses ∧ (fetchBudget x0 x1).shelfSkips = x0.shelfSkips ∧
    (fetchBudget x0 x1).shelfCuts = x0.shelfCuts ∧ (fetchBudget x0 x1).pending = x0.pending := by
  unfold fetchBudget
  repeat' split
  all_goals ((try simp only [Prod.ext_iff] at *); (try casesm* _ ∧ _); (try subst_vars); (try simp))

theorem execFetchBudgetExpired_frame (x0 x1) : ∀ t, (execFetchBudgetExpired x0 x1) = .next t → t.fabric = x1.fabric ∧ t.engines = x1.engines ∧
    t.text = x1.text ∧ t.flash = x1.flash ∧ t.power = x1.power ∧ t.limits = x1.limits ∧ t.fuses = x1.fuses ∧ t.shelfSkips = x1.shelfSkips ∧
    t.shelfCuts = x1.shelfCuts ∧ t.pending = x1.pending := by simp [execFetchBudgetExpired]

/-! ## Text -/

@[simp] theorem putSet_frame (x0 x1 x2) : (putSet x0 x1 x2).fabric = x0.fabric ∧ (putSet x0 x1 x2).store = x0.store ∧
    (putSet x0 x1 x2).tier = x0.tier ∧ (putSet x0 x1 x2).engines = x0.engines ∧ (putSet x0 x1 x2).host = x0.host ∧
    (putSet x0 x1 x2).gen = x0.gen ∧ (putSet x0 x1 x2).pair = x0.pair ∧ (putSet x0 x1 x2).flash = x0.flash ∧
    (putSet x0 x1 x2).bureau = x0.bureau ∧ (putSet x0 x1 x2).power = x0.power ∧ (putSet x0 x1 x2).limits = x0.limits ∧
    (putSet x0 x1 x2).fuses = x0.fuses ∧ (putSet x0 x1 x2).shelfSkips = x0.shelfSkips ∧ (putSet x0 x1 x2).shelfCuts = x0.shelfCuts ∧
    (putSet x0 x1 x2).free = x0.free ∧ (putSet x0 x1 x2).pending = x0.pending := by simp [putSet]

@[simp] theorem verifyTile_frame (x0 x1) : ((verifyTile x0 x1)).1.fabric = (x0).1.fabric ∧ ((verifyTile x0 x1)).1.store = (x0).1.store ∧
    ((verifyTile x0 x1)).1.engines = (x0).1.engines ∧ ((verifyTile x0 x1)).1.gen = (x0).1.gen ∧ ((verifyTile x0 x1)).1.text = (x0).1.text ∧
    ((verifyTile x0 x1)).1.flash = (x0).1.flash ∧ ((verifyTile x0 x1)).1.power = (x0).1.power ∧
    ((verifyTile x0 x1)).1.limits = (x0).1.limits ∧ ((verifyTile x0 x1)).1.fuses = (x0).1.fuses ∧
    ((verifyTile x0 x1)).1.shelfSkips = (x0).1.shelfSkips ∧ ((verifyTile x0 x1)).1.shelfCuts = (x0).1.shelfCuts ∧
    ((verifyTile x0 x1)).1.pending = (x0).1.pending := by
  simp only [verifyTile]
  repeat' split
  all_goals ((try simp only [Prod.ext_iff] at *); (try casesm* _ ∧ _); (try subst_vars); first | (simp; done) | (simp_all; done) | skip)

@[simp] theorem verifyTiles_frame (x0 x1) : ((verifyTiles x0 x1)).1.fabric = x0.fabric ∧ ((verifyTiles x0 x1)).1.store = x0.store ∧
    ((verifyTiles x0 x1)).1.engines = x0.engines ∧ ((verifyTiles x0 x1)).1.gen = x0.gen ∧ ((verifyTiles x0 x1)).1.text = x0.text ∧
    ((verifyTiles x0 x1)).1.flash = x0.flash ∧ ((verifyTiles x0 x1)).1.power = x0.power ∧ ((verifyTiles x0 x1)).1.limits = x0.limits ∧
    ((verifyTiles x0 x1)).1.fuses = x0.fuses ∧ ((verifyTiles x0 x1)).1.shelfSkips = x0.shelfSkips ∧
    ((verifyTiles x0 x1)).1.shelfCuts = x0.shelfCuts ∧ ((verifyTiles x0 x1)).1.pending = x0.pending := by simp [verifyTiles]

@[simp] theorem verifySet_frame (x0 x1) : ((verifySet x0 x1)).1.fabric = x0.fabric ∧ ((verifySet x0 x1)).1.store = x0.store ∧
    ((verifySet x0 x1)).1.engines = x0.engines ∧ ((verifySet x0 x1)).1.gen = x0.gen ∧ ((verifySet x0 x1)).1.text = x0.text ∧
    ((verifySet x0 x1)).1.flash = x0.flash ∧ ((verifySet x0 x1)).1.power = x0.power ∧ ((verifySet x0 x1)).1.limits = x0.limits ∧
    ((verifySet x0 x1)).1.fuses = x0.fuses ∧ ((verifySet x0 x1)).1.shelfSkips = x0.shelfSkips ∧
    ((verifySet x0 x1)).1.shelfCuts = x0.shelfCuts ∧ ((verifySet x0 x1)).1.pending = x0.pending := by simp [verifySet]

@[simp] theorem useSets_frame (x0 x1 x2 x3) : ((∀ y0, ((x2 y0)).fabric = (y0).fabric) → (∀ y0, ((x3 y0)).fabric = (y0).fabric) → (useSets x0 x1 x2 x3).fabric = x0.fabric) ∧
    ((∀ y0, ((x2 y0)).store = (y0).store) → (∀ y0, ((x3 y0)).store = (y0).store) → (useSets x0 x1 x2 x3).store = x0.store) ∧
    ((∀ y0, ((x2 y0)).engines = (y0).engines) → (∀ y0, ((x3 y0)).engines = (y0).engines) → (useSets x0 x1 x2 x3).engines = x0.engines) ∧
    ((∀ y0, ((x2 y0)).gen = (y0).gen) → (∀ y0, ((x3 y0)).gen = (y0).gen) → (useSets x0 x1 x2 x3).gen = x0.gen) ∧
    ((∀ y0, ((x2 y0)).text = (y0).text) → (∀ y0, ((x3 y0)).text = (y0).text) → (useSets x0 x1 x2 x3).text = x0.text) ∧
    ((∀ y0, ((x2 y0)).flash = (y0).flash) → (∀ y0, ((x3 y0)).flash = (y0).flash) → (useSets x0 x1 x2 x3).flash = x0.flash) ∧
    ((∀ y0, ((x2 y0)).power = (y0).power) → (∀ y0, ((x3 y0)).power = (y0).power) → (useSets x0 x1 x2 x3).power = x0.power) ∧
    ((∀ y0, ((x2 y0)).limits = (y0).limits) → (∀ y0, ((x3 y0)).limits = (y0).limits) → (useSets x0 x1 x2 x3).limits = x0.limits) ∧
    ((∀ y0, ((x2 y0)).fuses = (y0).fuses) → (∀ y0, ((x3 y0)).fuses = (y0).fuses) → (useSets x0 x1 x2 x3).fuses = x0.fuses) ∧
    ((∀ y0, ((x2 y0)).shelfSkips = (y0).shelfSkips) → (∀ y0, ((x3 y0)).shelfSkips = (y0).shelfSkips) → (useSets x0 x1 x2 x3).shelfSkips = x0.shelfSkips) ∧
    ((∀ y0, ((x2 y0)).shelfCuts = (y0).shelfCuts) → (∀ y0, ((x3 y0)).shelfCuts = (y0).shelfCuts) → (useSets x0 x1 x2 x3).shelfCuts = x0.shelfCuts) ∧
    ((∀ y0, ((x2 y0)).pending = (y0).pending) → (∀ y0, ((x3 y0)).pending = (y0).pending) → (useSets x0 x1 x2 x3).pending = x0.pending) := by
  refine ⟨fun h0 => fun h1 => ?_, fun h0 => fun h1 => ?_, fun h0 => fun h1 => ?_, fun h0 => fun h1 => ?_, fun h0 => fun h1 => ?_, fun h0 => fun h1 => ?_, fun h0 => fun h1 => ?_, fun h0 => fun h1 => ?_, fun h0 => fun h1 => ?_, fun h0 => fun h1 => ?_, fun h0 => fun h1 => ?_, fun h0 => fun h1 => ?_⟩
  all_goals unfold useSets
  all_goals (repeat' split)
  all_goals ((try simp only [Prod.ext_iff] at *); (try casesm* _ ∧ _); (try subst_vars); first | (simp [h0, h1]; done) | (simp_all; done) | skip)

@[simp] theorem countText_frame (x0 x1 x2 x3) : (countText x0 x1 x2 x3).fabric = x0.fabric ∧ (countText x0 x1 x2 x3).store = x0.store ∧
    (countText x0 x1 x2 x3).tier = x0.tier ∧ (countText x0 x1 x2 x3).engines = x0.engines ∧ (countText x0 x1 x2 x3).gen = x0.gen ∧
    (countText x0 x1 x2 x3).pair = x0.pair ∧ (countText x0 x1 x2 x3).flash = x0.flash ∧ (countText x0 x1 x2 x3).power = x0.power ∧
    (countText x0 x1 x2 x3).limits = x0.limits ∧ (countText x0 x1 x2 x3).fuses = x0.fuses ∧
    (countText x0 x1 x2 x3).shelfSkips = x0.shelfSkips ∧ (countText x0 x1 x2 x3).shelfCuts = x0.shelfCuts ∧
    (countText x0 x1 x2 x3).free = x0.free ∧ (countText x0 x1 x2 x3).pending = x0.pending := by simp [countText]

@[simp] theorem refuseText_frame (x0 x1) : (refuseText x0 x1).fabric = x0.fabric ∧ (refuseText x0 x1).store = x0.store ∧
    (refuseText x0 x1).tier = x0.tier ∧ (refuseText x0 x1).engines = x0.engines ∧ (refuseText x0 x1).host = x0.host ∧
    (refuseText x0 x1).gen = x0.gen ∧ (refuseText x0 x1).pair = x0.pair ∧ (refuseText x0 x1).flash = x0.flash ∧
    (refuseText x0 x1).bureau = x0.bureau ∧ (refuseText x0 x1).power = x0.power ∧ (refuseText x0 x1).limits = x0.limits ∧
    (refuseText x0 x1).fuses = x0.fuses ∧ (refuseText x0 x1).shelfSkips = x0.shelfSkips ∧ (refuseText x0 x1).shelfCuts = x0.shelfCuts ∧
    (refuseText x0 x1).free = x0.free ∧ (refuseText x0 x1).pending = x0.pending := by simp [refuseText]

@[simp] theorem tokInstall_frame (x0 x1) : (tokInstall x0 x1).fabric = x0.fabric ∧ (tokInstall x0 x1).store = x0.store ∧
    (tokInstall x0 x1).tier = x0.tier ∧ (tokInstall x0 x1).engines = x0.engines ∧ (tokInstall x0 x1).host = x0.host ∧
    (tokInstall x0 x1).gen = x0.gen ∧ (tokInstall x0 x1).pair = x0.pair ∧ (tokInstall x0 x1).flash = x0.flash ∧
    (tokInstall x0 x1).bureau = x0.bureau ∧ (tokInstall x0 x1).power = x0.power ∧ (tokInstall x0 x1).limits = x0.limits ∧
    (tokInstall x0 x1).fuses = x0.fuses ∧ (tokInstall x0 x1).shelfSkips = x0.shelfSkips ∧ (tokInstall x0 x1).shelfCuts = x0.shelfCuts ∧
    (tokInstall x0 x1).free = x0.free ∧ (tokInstall x0 x1).pending = x0.pending := by simp [tokInstall]

theorem execTokenizerInstall_frame (x0 x1) : ∀ t, (execTokenizerInstall x0 x1) = .next t → t.fabric = x1.fabric ∧ t.store = x1.store ∧
    t.tier = x1.tier ∧ t.engines = x1.engines ∧ t.host = x1.host ∧ t.gen = x1.gen ∧ t.pair = x1.pair ∧ t.flash = x1.flash ∧
    t.bureau = x1.bureau ∧ t.power = x1.power ∧ t.limits = x1.limits ∧ t.fuses = x1.fuses ∧ t.shelfSkips = x1.shelfSkips ∧
    t.shelfCuts = x1.shelfCuts ∧ t.free = x1.free ∧ t.pending = x1.pending := by simp [execTokenizerInstall]

@[simp] theorem tokCheckDone_frame (x0 x1) : (tokCheckDone x0 x1).fabric = x0.fabric ∧ (tokCheckDone x0 x1).store = x0.store ∧
    (tokCheckDone x0 x1).engines = x0.engines ∧ (tokCheckDone x0 x1).gen = x0.gen ∧ (tokCheckDone x0 x1).flash = x0.flash ∧
    (tokCheckDone x0 x1).power = x0.power ∧ (tokCheckDone x0 x1).limits = x0.limits ∧ (tokCheckDone x0 x1).fuses = x0.fuses ∧
    (tokCheckDone x0 x1).shelfSkips = x0.shelfSkips ∧ (tokCheckDone x0 x1).shelfCuts = x0.shelfCuts ∧
    (tokCheckDone x0 x1).pending = x0.pending := by
  simp only [tokCheckDone]
  repeat' split
  all_goals ((try simp only [Prod.ext_iff] at *); (try casesm* _ ∧ _); (try subst_vars); first | (simp; done) | (simp_all; done) | skip)

theorem execTokenizerCheckDone_frame (x0 x1) : ∀ t, (execTokenizerCheckDone x0 x1) = .next t → t.fabric = x1.fabric ∧ t.store = x1.store ∧
    t.engines = x1.engines ∧ t.gen = x1.gen ∧ t.flash = x1.flash ∧ t.power = x1.power ∧ t.limits = x1.limits ∧ t.fuses = x1.fuses ∧
    t.shelfSkips = x1.shelfSkips ∧ t.shelfCuts = x1.shelfCuts ∧ t.pending = x1.pending := by simp [execTokenizerCheckDone]

@[simp] theorem tokRemove_frame (x0 x1) : (tokRemove x0 x1).fabric = x0.fabric ∧ (tokRemove x0 x1).store = x0.store ∧
    (tokRemove x0 x1).tier = x0.tier ∧ (tokRemove x0 x1).engines = x0.engines ∧ (tokRemove x0 x1).host = x0.host ∧
    (tokRemove x0 x1).gen = x0.gen ∧ (tokRemove x0 x1).pair = x0.pair ∧ (tokRemove x0 x1).flash = x0.flash ∧
    (tokRemove x0 x1).bureau = x0.bureau ∧ (tokRemove x0 x1).power = x0.power ∧ (tokRemove x0 x1).limits = x0.limits ∧
    (tokRemove x0 x1).fuses = x0.fuses ∧ (tokRemove x0 x1).shelfSkips = x0.shelfSkips ∧ (tokRemove x0 x1).shelfCuts = x0.shelfCuts ∧
    (tokRemove x0 x1).free = x0.free ∧ (tokRemove x0 x1).pending = x0.pending := by simp [tokRemove]

theorem execTokenizerRemove_frame (x0 x1) : ∀ t, (execTokenizerRemove x0 x1) = .next t → t.fabric = x1.fabric ∧ t.store = x1.store ∧
    t.tier = x1.tier ∧ t.engines = x1.engines ∧ t.host = x1.host ∧ t.gen = x1.gen ∧ t.pair = x1.pair ∧ t.flash = x1.flash ∧
    t.bureau = x1.bureau ∧ t.power = x1.power ∧ t.limits = x1.limits ∧ t.fuses = x1.fuses ∧ t.shelfSkips = x1.shelfSkips ∧
    t.shelfCuts = x1.shelfCuts ∧ t.free = x1.free ∧ t.pending = x1.pending := by simp [execTokenizerRemove]

@[simp] theorem setStreamRec_frame (x0 x1 x2 x3) : (setStreamRec x0 x1 x2 x3).fabric = x0.fabric ∧
    (setStreamRec x0 x1 x2 x3).store = x0.store ∧ (setStreamRec x0 x1 x2 x3).tier = x0.tier ∧
    (setStreamRec x0 x1 x2 x3).engines = x0.engines ∧ (setStreamRec x0 x1 x2 x3).host = x0.host ∧ (setStreamRec x0 x1 x2 x3).gen = x0.gen ∧
    (setStreamRec x0 x1 x2 x3).pair = x0.pair ∧ (setStreamRec x0 x1 x2 x3).flash = x0.flash ∧ (setStreamRec x0 x1 x2 x3).bureau = x0.bureau ∧
    (setStreamRec x0 x1 x2 x3).power = x0.power ∧ (setStreamRec x0 x1 x2 x3).limits = x0.limits ∧
    (setStreamRec x0 x1 x2 x3).fuses = x0.fuses ∧ (setStreamRec x0 x1 x2 x3).shelfSkips = x0.shelfSkips ∧
    (setStreamRec x0 x1 x2 x3).shelfCuts = x0.shelfCuts ∧ (setStreamRec x0 x1 x2 x3).free = x0.free ∧
    (setStreamRec x0 x1 x2 x3).pending = x0.pending := by simp [setStreamRec]

@[simp] theorem setSlotRec_frame (x0 x1 x2 x3) : (setSlotRec x0 x1 x2 x3).fabric = x0.fabric ∧ (setSlotRec x0 x1 x2 x3).store = x0.store ∧
    (setSlotRec x0 x1 x2 x3).tier = x0.tier ∧ (setSlotRec x0 x1 x2 x3).engines = x0.engines ∧ (setSlotRec x0 x1 x2 x3).host = x0.host ∧
    (setSlotRec x0 x1 x2 x3).text = x0.text ∧ (setSlotRec x0 x1 x2 x3).pair = x0.pair ∧ (setSlotRec x0 x1 x2 x3).flash = x0.flash ∧
    (setSlotRec x0 x1 x2 x3).bureau = x0.bureau ∧ (setSlotRec x0 x1 x2 x3).power = x0.power ∧ (setSlotRec x0 x1 x2 x3).limits = x0.limits ∧
    (setSlotRec x0 x1 x2 x3).fuses = x0.fuses ∧ (setSlotRec x0 x1 x2 x3).shelfSkips = x0.shelfSkips ∧
    (setSlotRec x0 x1 x2 x3).shelfCuts = x0.shelfCuts ∧ (setSlotRec x0 x1 x2 x3).free = x0.free ∧
    (setSlotRec x0 x1 x2 x3).pending = x0.pending := by simp [setSlotRec]

@[simp] theorem releaseTo_frame (x0 x1 x2 x3) : (releaseTo x0 x1 x2 x3).fabric = x0.fabric ∧ (releaseTo x0 x1 x2 x3).store = x0.store ∧
    (releaseTo x0 x1 x2 x3).tier = x0.tier ∧ (releaseTo x0 x1 x2 x3).engines = x0.engines ∧ (releaseTo x0 x1 x2 x3).flash = x0.flash ∧
    (releaseTo x0 x1 x2 x3).power = x0.power ∧ (releaseTo x0 x1 x2 x3).limits = x0.limits ∧ (releaseTo x0 x1 x2 x3).fuses = x0.fuses ∧
    (releaseTo x0 x1 x2 x3).shelfSkips = x0.shelfSkips ∧ (releaseTo x0 x1 x2 x3).shelfCuts = x0.shelfCuts ∧
    (releaseTo x0 x1 x2 x3).pending = x0.pending := by
  simp only [releaseTo]
  repeat' split
  all_goals ((try simp only [Prod.ext_iff] at *); (try casesm* _ ∧ _); (try subst_vars); (try simp))

@[simp] theorem endStream_frame (x0 x1 x2 x3) : (endStream x0 x1 x2 x3).fabric = x0.fabric ∧ (endStream x0 x1 x2 x3).store = x0.store ∧
    (endStream x0 x1 x2 x3).tier = x0.tier ∧ (endStream x0 x1 x2 x3).engines = x0.engines ∧ (endStream x0 x1 x2 x3).host = x0.host ∧
    (endStream x0 x1 x2 x3).pair = x0.pair ∧ (endStream x0 x1 x2 x3).flash = x0.flash ∧ (endStream x0 x1 x2 x3).bureau = x0.bureau ∧
    (endStream x0 x1 x2 x3).power = x0.power ∧ (endStream x0 x1 x2 x3).limits = x0.limits ∧ (endStream x0 x1 x2 x3).fuses = x0.fuses ∧
    (endStream x0 x1 x2 x3).shelfSkips = x0.shelfSkips ∧ (endStream x0 x1 x2 x3).shelfCuts = x0.shelfCuts ∧
    (endStream x0 x1 x2 x3).free = x0.free ∧ (endStream x0 x1 x2 x3).pending = x0.pending := by simp [endStream]

@[simp] theorem takeTokens_frame (x0 x1 x2 x3 x4) : (takeTokens x0 x1 x2 x3 x4).fabric = x4.fabric ∧
    (takeTokens x0 x1 x2 x3 x4).store = x4.store ∧ (takeTokens x0 x1 x2 x3 x4).tier = x4.tier ∧
    (takeTokens x0 x1 x2 x3 x4).engines = x4.engines ∧ (takeTokens x0 x1 x2 x3 x4).flash = x4.flash ∧
    (takeTokens x0 x1 x2 x3 x4).power = x4.power ∧ (takeTokens x0 x1 x2 x3 x4).limits = x4.limits ∧
    (takeTokens x0 x1 x2 x3 x4).fuses = x4.fuses ∧ (takeTokens x0 x1 x2 x3 x4).shelfSkips = x4.shelfSkips ∧
    (takeTokens x0 x1 x2 x3 x4).shelfCuts = x4.shelfCuts ∧ (takeTokens x0 x1 x2 x3 x4).pending = x4.pending := by simp [takeTokens]

@[simp] theorem tokensReceive_frame (x0 x1 x2 x3) : (tokensReceive x0 x1 x2 x3).fabric = x0.fabric ∧
    (tokensReceive x0 x1 x2 x3).store = x0.store ∧ (tokensReceive x0 x1 x2 x3).engines = x0.engines ∧
    (tokensReceive x0 x1 x2 x3).flash = x0.flash ∧ (tokensReceive x0 x1 x2 x3).power = x0.power ∧
    (tokensReceive x0 x1 x2 x3).limits = x0.limits ∧ (tokensReceive x0 x1 x2 x3).fuses = x0.fuses ∧
    (tokensReceive x0 x1 x2 x3).shelfSkips = x0.shelfSkips ∧ (tokensReceive x0 x1 x2 x3).shelfCuts = x0.shelfCuts ∧
    (tokensReceive x0 x1 x2 x3).pending = x0.pending := by
  simp only [tokensReceive]
  repeat' split
  all_goals ((try simp only [Prod.ext_iff] at *); (try casesm* _ ∧ _); (try subst_vars); (try simp))

theorem execCommittedTokensReceive_frame (x0 x1 x2 x3) : ∀ t, (execCommittedTokensReceive x0 x1 x2 x3) = .next t → t.fabric = x3.fabric ∧
    t.store = x3.store ∧ t.engines = x3.engines ∧ t.flash = x3.flash ∧ t.power = x3.power ∧ t.limits = x3.limits ∧ t.fuses = x3.fuses ∧
    t.shelfSkips = x3.shelfSkips ∧ t.shelfCuts = x3.shelfCuts ∧ t.pending = x3.pending := by simp [execCommittedTokensReceive]

/-! ## Lectern -/

theorem copyTemplate_frame (x0 x1 x2) : ∀ t, (copyTemplate x0 x1 x2) = some t → t.tier = x0.tier ∧ t.engines = x0.engines ∧ t.text = x0.text ∧
    t.pair = x0.pair ∧ t.flash = x0.flash ∧ t.power = x0.power ∧ t.limits = x0.limits ∧ t.fuses = x0.fuses ∧ t.shelfSkips = x0.shelfSkips ∧
    t.shelfCuts = x0.shelfCuts ∧ t.free = x0.free ∧ t.pending = x0.pending := by
  intro t h
  simp only [copyTemplate, Option.bind_eq_some_iff, Option.map_eq_some_iff] at h
  obtain ⟨_, _, _, _, r, h, rfl⟩ := h
  have := conductorPut_frame _ _ _ _ _ h
  simp_all

@[simp] theorem queueItem_frame (x0 x1 x2 x3) : (queueItem x0 x1 x2 x3).fabric = x0.fabric ∧ (queueItem x0 x1 x2 x3).store = x0.store ∧
    (queueItem x0 x1 x2 x3).tier = x0.tier ∧ (queueItem x0 x1 x2 x3).engines = x0.engines ∧ (queueItem x0 x1 x2 x3).host = x0.host ∧
    (queueItem x0 x1 x2 x3).text = x0.text ∧ (queueItem x0 x1 x2 x3).pair = x0.pair ∧ (queueItem x0 x1 x2 x3).flash = x0.flash ∧
    (queueItem x0 x1 x2 x3).bureau = x0.bureau ∧ (queueItem x0 x1 x2 x3).power = x0.power ∧ (queueItem x0 x1 x2 x3).limits = x0.limits ∧
    (queueItem x0 x1 x2 x3).fuses = x0.fuses ∧ (queueItem x0 x1 x2 x3).shelfSkips = x0.shelfSkips ∧
    (queueItem x0 x1 x2 x3).shelfCuts = x0.shelfCuts ∧ (queueItem x0 x1 x2 x3).free = x0.free ∧ (queueItem x0 x1 x2 x3).pending = x0.pending := by simp [queueItem]

@[simp] theorem queuePair_frame (x0 x1 x2 x3 x4) : (queuePair x0 x1 x2 x3 x4).fabric = x3.fabric ∧
    (queuePair x0 x1 x2 x3 x4).store = x3.store ∧ (queuePair x0 x1 x2 x3 x4).tier = x3.tier ∧
    (queuePair x0 x1 x2 x3 x4).engines = x3.engines ∧ (queuePair x0 x1 x2 x3 x4).pair = x3.pair ∧
    (queuePair x0 x1 x2 x3 x4).flash = x3.flash ∧ (queuePair x0 x1 x2 x3 x4).power = x3.power ∧
    (queuePair x0 x1 x2 x3 x4).limits = x3.limits ∧ (queuePair x0 x1 x2 x3 x4).fuses = x3.fuses ∧
    (queuePair x0 x1 x2 x3 x4).shelfSkips = x3.shelfSkips ∧ (queuePair x0 x1 x2 x3 x4).shelfCuts = x3.shelfCuts ∧
    (queuePair x0 x1 x2 x3 x4).free = x3.free ∧ (queuePair x0 x1 x2 x3 x4).pending = x3.pending := by
  simp only [queuePair]
  repeat' split
  all_goals ((try simp only [Prod.ext_iff] at *); (try casesm* _ ∧ _); (try subst_vars); (try simp))

@[simp] theorem scanScores_frame (x0 x1) : (scanScores x0 x1).fabric = x0.fabric ∧ (scanScores x0 x1).store = x0.store ∧
    (scanScores x0 x1).tier = x0.tier ∧ (scanScores x0 x1).engines = x0.engines ∧ (scanScores x0 x1).gen = x0.gen ∧
    (scanScores x0 x1).text = x0.text ∧ (scanScores x0 x1).pair = x0.pair ∧ (scanScores x0 x1).flash = x0.flash ∧
    (scanScores x0 x1).bureau = x0.bureau ∧ (scanScores x0 x1).power = x0.power ∧ (scanScores x0 x1).limits = x0.limits ∧
    (scanScores x0 x1).fuses = x0.fuses ∧ (scanScores x0 x1).shelfSkips = x0.shelfSkips ∧ (scanScores x0 x1).shelfCuts = x0.shelfCuts ∧
    (scanScores x0 x1).free = x0.free ∧ (scanScores x0 x1).pending = x0.pending := by simp [scanScores]

@[simp] theorem questionFor_frame (x0 x1 x2) : (questionFor x0 x1 x2).fabric = x0.fabric ∧ (questionFor x0 x1 x2).store = x0.store ∧
    (questionFor x0 x1 x2).tier = x0.tier ∧ (questionFor x0 x1 x2).engines = x0.engines ∧ (questionFor x0 x1 x2).gen = x0.gen ∧
    (questionFor x0 x1 x2).pair = x0.pair ∧ (questionFor x0 x1 x2).flash = x0.flash ∧ (questionFor x0 x1 x2).power = x0.power ∧
    (questionFor x0 x1 x2).limits = x0.limits ∧ (questionFor x0 x1 x2).fuses = x0.fuses ∧ (questionFor x0 x1 x2).shelfSkips = x0.shelfSkips ∧
    (questionFor x0 x1 x2).shelfCuts = x0.shelfCuts ∧ (questionFor x0 x1 x2).free = x0.free ∧ (questionFor x0 x1 x2).pending = x0.pending := by
  unfold questionFor
  repeat' split
  all_goals ((try simp only [Prod.ext_iff] at *); (try casesm* _ ∧ _); (try subst_vars); first | (simp; done) | (simp_all; done) | skip)

@[simp] theorem rerankStart_frame (x0 x1) : (rerankStart x0 x1).fabric = x0.fabric ∧ (rerankStart x0 x1).engines = x0.engines ∧
    (rerankStart x0 x1).flash = x0.flash ∧ (rerankStart x0 x1).power = x0.power ∧ (rerankStart x0 x1).limits = x0.limits ∧
    (rerankStart x0 x1).fuses = x0.fuses ∧ (rerankStart x0 x1).shelfSkips = x0.shelfSkips ∧ (rerankStart x0 x1).shelfCuts = x0.shelfCuts ∧
    (rerankStart x0 x1).pending = x0.pending := by
  simp only [rerankStart]
  repeat' split
  all_goals ((try simp only [Prod.ext_iff] at *); (try casesm* _ ∧ _); (try subst_vars); (try simp))

theorem execRerankStart_frame (x0 x1) : ∀ t, (execRerankStart x0 x1) = .next t → t.fabric = x1.fabric ∧ t.engines = x1.engines ∧
    t.flash = x1.flash ∧ t.power = x1.power ∧ t.limits = x1.limits ∧ t.fuses = x1.fuses ∧ t.shelfSkips = x1.shelfSkips ∧
    t.shelfCuts = x1.shelfCuts ∧ t.pending = x1.pending := by simp [execRerankStart]

@[simp] theorem rerankFinal_frame (x0 x1) : (rerankFinal x0 x1).fabric = x0.fabric ∧ (rerankFinal x0 x1).engines = x0.engines ∧
    (rerankFinal x0 x1).text = x0.text ∧ (rerankFinal x0 x1).flash = x0.flash ∧ (rerankFinal x0 x1).power = x0.power ∧
    (rerankFinal x0 x1).limits = x0.limits ∧ (rerankFinal x0 x1).fuses = x0.fuses ∧ (rerankFinal x0 x1).shelfSkips = x0.shelfSkips ∧
    (rerankFinal x0 x1).shelfCuts = x0.shelfCuts ∧ (rerankFinal x0 x1).pending = x0.pending := by unfold rerankFinal; split <;> simp

@[simp] theorem rerankEnd_frame (x0 x1) : (rerankEnd x0 x1).fabric = x0.fabric ∧ (rerankEnd x0 x1).engines = x0.engines ∧
    (rerankEnd x0 x1).text = x0.text ∧ (rerankEnd x0 x1).flash = x0.flash ∧ (rerankEnd x0 x1).power = x0.power ∧
    (rerankEnd x0 x1).limits = x0.limits ∧ (rerankEnd x0 x1).fuses = x0.fuses ∧ (rerankEnd x0 x1).shelfSkips = x0.shelfSkips ∧
    (rerankEnd x0 x1).shelfCuts = x0.shelfCuts ∧ (rerankEnd x0 x1).pending = x0.pending := by unfold rerankEnd; split <;> simp

theorem execRerankEnd_frame (x0 x1) : ∀ t, (execRerankEnd x0 x1) = .next t → t.fabric = x1.fabric ∧ t.engines = x1.engines ∧
    t.text = x1.text ∧ t.flash = x1.flash ∧ t.power = x1.power ∧ t.limits = x1.limits ∧ t.fuses = x1.fuses ∧ t.shelfSkips = x1.shelfSkips ∧
    t.shelfCuts = x1.shelfCuts ∧ t.pending = x1.pending := by simp [execRerankEnd]

@[simp] theorem packTurn_frame (x0 x1 x2 x3) : (packTurn x0 x1 x2 x3).engines = x0.engines ∧ (packTurn x0 x1 x2 x3).flash = x0.flash ∧
    (packTurn x0 x1 x2 x3).power = x0.power ∧ (packTurn x0 x1 x2 x3).limits = x0.limits ∧ (packTurn x0 x1 x2 x3).fuses = x0.fuses ∧
    (packTurn x0 x1 x2 x3).shelfSkips = x0.shelfSkips ∧ (packTurn x0 x1 x2 x3).shelfCuts = x0.shelfCuts ∧
    (packTurn x0 x1 x2 x3).pending = x0.pending := by
  simp only [packTurn]
  repeat' split
  all_goals ((try simp only [Prod.ext_iff] at *); (try casesm* _ ∧ _); (try subst_vars); (try have hh_4 := conductorPut_frame _ _ _ _ _ (by assumption)); first | (simp; done) | (simp_all; done) | skip)

@[simp] theorem packStart_frame (x0 x1) : (packStart x0 x1).engines = x0.engines ∧ (packStart x0 x1).flash = x0.flash ∧
    (packStart x0 x1).power = x0.power ∧ (packStart x0 x1).limits = x0.limits ∧ (packStart x0 x1).fuses = x0.fuses ∧
    (packStart x0 x1).shelfSkips = x0.shelfSkips ∧ (packStart x0 x1).shelfCuts = x0.shelfCuts ∧ (packStart x0 x1).pending = x0.pending := by
  unfold packStart
  repeat' split
  all_goals ((try simp only [Prod.ext_iff] at *); (try casesm* _ ∧ _); (try subst_vars); (try simp))

theorem execPackStart_frame (x0 x1) : ∀ t, (execPackStart x0 x1) = .next t → t.engines = x1.engines ∧ t.flash = x1.flash ∧
    t.power = x1.power ∧ t.limits = x1.limits ∧ t.fuses = x1.fuses ∧ t.shelfSkips = x1.shelfSkips ∧ t.shelfCuts = x1.shelfCuts ∧
    t.pending = x1.pending := by simp [execPackStart]

@[simp] theorem promptReady_frame (x0 x1 x2) : (promptReady x0 x1 x2).fabric = x0.fabric ∧ (promptReady x0 x1 x2).engines = x0.engines ∧
    (promptReady x0 x1 x2).text = x0.text ∧ (promptReady x0 x1 x2).flash = x0.flash ∧ (promptReady x0 x1 x2).power = x0.power ∧
    (promptReady x0 x1 x2).limits = x0.limits ∧ (promptReady x0 x1 x2).fuses = x0.fuses ∧ (promptReady x0 x1 x2).shelfSkips = x0.shelfSkips ∧
    (promptReady x0 x1 x2).shelfCuts = x0.shelfCuts ∧ (promptReady x0 x1 x2).pending = x0.pending := by unfold promptReady; split <;> simp

theorem execPromptReady_frame (x0 x1 x2) : ∀ t, (execPromptReady x0 x1 x2) = .next t → t.fabric = x2.fabric ∧ t.engines = x2.engines ∧
    t.text = x2.text ∧ t.flash = x2.flash ∧ t.power = x2.power ∧ t.limits = x2.limits ∧ t.fuses = x2.fuses ∧ t.shelfSkips = x2.shelfSkips ∧
    t.shelfCuts = x2.shelfCuts ∧ t.pending = x2.pending := by simp [execPromptReady]

/-! ## Mirror -/

@[simp] theorem sendObject_frame (x0 x1 x2) : (sendObject x0 x1 x2).fabric = x0.fabric ∧ (sendObject x0 x1 x2).store = x0.store ∧
    (sendObject x0 x1 x2).tier = x0.tier ∧ (sendObject x0 x1 x2).engines = x0.engines ∧ (sendObject x0 x1 x2).gen = x0.gen ∧
    (sendObject x0 x1 x2).text = x0.text ∧ (sendObject x0 x1 x2).flash = x0.flash ∧ (sendObject x0 x1 x2).bureau = x0.bureau ∧
    (sendObject x0 x1 x2).power = x0.power ∧ (sendObject x0 x1 x2).limits = x0.limits ∧ (sendObject x0 x1 x2).fuses = x0.fuses ∧
    (sendObject x0 x1 x2).shelfSkips = x0.shelfSkips ∧ (sendObject x0 x1 x2).shelfCuts = x0.shelfCuts ∧
    (sendObject x0 x1 x2).pending = x0.pending := by simp [sendObject]

@[simp] theorem journalObject_frame (x0 x1 x2 x3) : (journalObject x0 x1 x2 x3).fabric = x0.fabric ∧
    (journalObject x0 x1 x2 x3).store = x0.store ∧ (journalObject x0 x1 x2 x3).tier = x0.tier ∧
    (journalObject x0 x1 x2 x3).engines = x0.engines ∧ (journalObject x0 x1 x2 x3).gen = x0.gen ∧ (journalObject x0 x1 x2 x3).text = x0.text ∧
    (journalObject x0 x1 x2 x3).flash = x0.flash ∧ (journalObject x0 x1 x2 x3).bureau = x0.bureau ∧
    (journalObject x0 x1 x2 x3).power = x0.power ∧ (journalObject x0 x1 x2 x3).limits = x0.limits ∧
    (journalObject x0 x1 x2 x3).fuses = x0.fuses ∧ (journalObject x0 x1 x2 x3).shelfSkips = x0.shelfSkips ∧
    (journalObject x0 x1 x2 x3).shelfCuts = x0.shelfCuts ∧ (journalObject x0 x1 x2 x3).pending = x0.pending := by simp [journalObject]

@[simp] theorem loseLease_frame (x0 x1 x2) : (loseLease x0 x1 x2).fabric = x0.fabric ∧ (loseLease x0 x1 x2).store = x0.store ∧
    (loseLease x0 x1 x2).tier = x0.tier ∧ (loseLease x0 x1 x2).engines = x0.engines ∧ (loseLease x0 x1 x2).gen = x0.gen ∧
    (loseLease x0 x1 x2).text = x0.text ∧ (loseLease x0 x1 x2).flash = x0.flash ∧ (loseLease x0 x1 x2).power = x0.power ∧
    (loseLease x0 x1 x2).limits = x0.limits ∧ (loseLease x0 x1 x2).fuses = x0.fuses ∧ (loseLease x0 x1 x2).shelfSkips = x0.shelfSkips ∧
    (loseLease x0 x1 x2).shelfCuts = x0.shelfCuts ∧ (loseLease x0 x1 x2).free = x0.free ∧ (loseLease x0 x1 x2).pending = x0.pending := by simp [loseLease]

@[simp] theorem swapLease_frame (x0 x1 x2 x3) : (swapLease x0 x1 x2 x3).fabric = x0.fabric ∧ (swapLease x0 x1 x2 x3).store = x0.store ∧
    (swapLease x0 x1 x2 x3).tier = x0.tier ∧ (swapLease x0 x1 x2 x3).engines = x0.engines ∧ (swapLease x0 x1 x2 x3).gen = x0.gen ∧
    (swapLease x0 x1 x2 x3).text = x0.text ∧ (swapLease x0 x1 x2 x3).flash = x0.flash ∧ (swapLease x0 x1 x2 x3).power = x0.power ∧
    (swapLease x0 x1 x2 x3).limits = x0.limits ∧ (swapLease x0 x1 x2 x3).fuses = x0.fuses ∧
    (swapLease x0 x1 x2 x3).shelfSkips = x0.shelfSkips ∧ (swapLease x0 x1 x2 x3).shelfCuts = x0.shelfCuts ∧
    (swapLease x0 x1 x2 x3).free = x0.free ∧ (swapLease x0 x1 x2 x3).pending = x0.pending := by simp [swapLease]

@[simp] theorem forwardMut_frame (x0 x1) : (forwardMut x0 x1).fabric = x0.fabric ∧ (forwardMut x0 x1).store = x0.store ∧
    (forwardMut x0 x1).tier = x0.tier ∧ (forwardMut x0 x1).engines = x0.engines ∧ (forwardMut x0 x1).gen = x0.gen ∧
    (forwardMut x0 x1).text = x0.text ∧ (forwardMut x0 x1).flash = x0.flash ∧ (forwardMut x0 x1).bureau = x0.bureau ∧
    (forwardMut x0 x1).power = x0.power ∧ (forwardMut x0 x1).limits = x0.limits ∧ (forwardMut x0 x1).fuses = x0.fuses ∧
    (forwardMut x0 x1).shelfSkips = x0.shelfSkips ∧ (forwardMut x0 x1).shelfCuts = x0.shelfCuts ∧ (forwardMut x0 x1).pending = x0.pending := by unfold forwardMut; split <;> simp

@[simp] theorem waitReplay_frame (x0 x1) : (waitReplay x0 x1).fabric = x0.fabric ∧ (waitReplay x0 x1).store = x0.store ∧
    (waitReplay x0 x1).tier = x0.tier ∧ (waitReplay x0 x1).engines = x0.engines ∧ (waitReplay x0 x1).host = x0.host ∧
    (waitReplay x0 x1).gen = x0.gen ∧ (waitReplay x0 x1).text = x0.text ∧ (waitReplay x0 x1).flash = x0.flash ∧
    (waitReplay x0 x1).bureau = x0.bureau ∧ (waitReplay x0 x1).power = x0.power ∧ (waitReplay x0 x1).limits = x0.limits ∧
    (waitReplay x0 x1).fuses = x0.fuses ∧ (waitReplay x0 x1).shelfSkips = x0.shelfSkips ∧ (waitReplay x0 x1).shelfCuts = x0.shelfCuts ∧
    (waitReplay x0 x1).free = x0.free ∧ (waitReplay x0 x1).pending = x0.pending := by simp [waitReplay]

/-! ## Mutation -/

@[simp] theorem noteUndo_frame (x0 x1 x2) : (noteUndo x0 x1 x2).fabric = x0.fabric ∧ (noteUndo x0 x1 x2).store = x0.store ∧
    (noteUndo x0 x1 x2).tier = x0.tier ∧ (noteUndo x0 x1 x2).engines = x0.engines ∧ (noteUndo x0 x1 x2).host = x0.host ∧
    (noteUndo x0 x1 x2).text = x0.text ∧ (noteUndo x0 x1 x2).pair = x0.pair ∧ (noteUndo x0 x1 x2).flash = x0.flash ∧
    (noteUndo x0 x1 x2).bureau = x0.bureau ∧ (noteUndo x0 x1 x2).power = x0.power ∧ (noteUndo x0 x1 x2).limits = x0.limits ∧
    (noteUndo x0 x1 x2).fuses = x0.fuses ∧ (noteUndo x0 x1 x2).shelfSkips = x0.shelfSkips ∧ (noteUndo x0 x1 x2).shelfCuts = x0.shelfCuts ∧
    (noteUndo x0 x1 x2).free = x0.free ∧ (noteUndo x0 x1 x2).pending = x0.pending := by simp [noteUndo]

@[simp] theorem mutPatch_frame (x0 x1 x2 x3 x4) : (mutPatch x0 x1 x2 x3 x4).engines = x0.engines ∧ (mutPatch x0 x1 x2 x3 x4).text = x0.text ∧
    (mutPatch x0 x1 x2 x3 x4).pair = x0.pair ∧ (mutPatch x0 x1 x2 x3 x4).flash = x0.flash ∧ (mutPatch x0 x1 x2 x3 x4).power = x0.power ∧
    (mutPatch x0 x1 x2 x3 x4).limits = x0.limits ∧ (mutPatch x0 x1 x2 x3 x4).fuses = x0.fuses ∧
    (mutPatch x0 x1 x2 x3 x4).shelfSkips = x0.shelfSkips ∧ (mutPatch x0 x1 x2 x3 x4).shelfCuts = x0.shelfCuts ∧
    (mutPatch x0 x1 x2 x3 x4).free = x0.free ∧ (mutPatch x0 x1 x2 x3 x4).pending = x0.pending := by simp [mutPatch]

@[simp] theorem setDir_frame (x0 x1 x2 x3 x4) : (setDir x0 x1 x2 x3 x4).engines = x0.engines ∧ (setDir x0 x1 x2 x3 x4).text = x0.text ∧
    (setDir x0 x1 x2 x3 x4).pair = x0.pair ∧ (setDir x0 x1 x2 x3 x4).flash = x0.flash ∧ (setDir x0 x1 x2 x3 x4).power = x0.power ∧
    (setDir x0 x1 x2 x3 x4).limits = x0.limits ∧ (setDir x0 x1 x2 x3 x4).fuses = x0.fuses ∧
    (setDir x0 x1 x2 x3 x4).shelfSkips = x0.shelfSkips ∧ (setDir x0 x1 x2 x3 x4).shelfCuts = x0.shelfCuts ∧
    (setDir x0 x1 x2 x3 x4).free = x0.free ∧ (setDir x0 x1 x2 x3 x4).pending = x0.pending := by unfold setDir; split <;> simp

@[simp] theorem freshTile_frame (x0 x1 x2 x3 x4) : (freshTile x0 x1 x2 x3 x4).engines = x0.engines ∧
    (freshTile x0 x1 x2 x3 x4).text = x0.text ∧ (freshTile x0 x1 x2 x3 x4).pair = x0.pair ∧ (freshTile x0 x1 x2 x3 x4).flash = x0.flash ∧
    (freshTile x0 x1 x2 x3 x4).power = x0.power ∧ (freshTile x0 x1 x2 x3 x4).limits = x0.limits ∧
    (freshTile x0 x1 x2 x3 x4).fuses = x0.fuses ∧ (freshTile x0 x1 x2 x3 x4).shelfSkips = x0.shelfSkips ∧
    (freshTile x0 x1 x2 x3 x4).shelfCuts = x0.shelfCuts ∧ (freshTile x0 x1 x2 x3 x4).free = x0.free ∧
    (freshTile x0 x1 x2 x3 x4).pending = x0.pending := by
  simp only [freshTile, devWrite_frame, and_self]

theorem takeDelta_frame (x0 x1) : ∀ t, (takeDelta x0 x1) = some t → (t).2.fabric = x0.fabric ∧ (t).2.store = x0.store ∧ (t).2.tier = x0.tier ∧
    (t).2.engines = x0.engines ∧ (t).2.host = x0.host ∧ (t).2.text = x0.text ∧ (t).2.pair = x0.pair ∧ (t).2.flash = x0.flash ∧
    (t).2.bureau = x0.bureau ∧ (t).2.power = x0.power ∧ (t).2.limits = x0.limits ∧ (t).2.fuses = x0.fuses ∧ (t).2.shelfSkips = x0.shelfSkips ∧
    (t).2.shelfCuts = x0.shelfCuts ∧ (t).2.free = x0.free ∧ (t).2.pending = x0.pending := by
  intro t h
  simp only [takeDelta, Option.bind_eq_some_iff] at h
  obtain ⟨r, -, h⟩ := h
  split at h
  · cases h; simp
  · split at h <;> cases h; simp

theorem takeTomb_frame (x0 x1) : ∀ t, (takeTomb x0 x1) = some t → (t).2.fabric = x0.fabric ∧ (t).2.store = x0.store ∧ (t).2.tier = x0.tier ∧
    (t).2.engines = x0.engines ∧ (t).2.host = x0.host ∧ (t).2.text = x0.text ∧ (t).2.pair = x0.pair ∧ (t).2.flash = x0.flash ∧
    (t).2.bureau = x0.bureau ∧ (t).2.power = x0.power ∧ (t).2.limits = x0.limits ∧ (t).2.fuses = x0.fuses ∧ (t).2.shelfSkips = x0.shelfSkips ∧
    (t).2.shelfCuts = x0.shelfCuts ∧ (t).2.free = x0.free ∧ (t).2.pending = x0.pending := by
  intro t h
  simp only [takeTomb, Option.bind_eq_some_iff] at h
  obtain ⟨r, -, h⟩ := h
  split at h
  · cases h; simp
  · split at h <;> cases h; simp

theorem deltaTail_frame (x0 x1 x2 x3 x4) : ∀ t, (deltaTail x0 x1 x2 x3 x4) = some t → (t).2.engines = x0.engines ∧ (t).2.text = x0.text ∧
    (t).2.pair = x0.pair ∧ (t).2.flash = x0.flash ∧ (t).2.power = x0.power ∧ (t).2.limits = x0.limits ∧ (t).2.fuses = x0.fuses ∧
    (t).2.shelfSkips = x0.shelfSkips ∧ (t).2.shelfCuts = x0.shelfCuts ∧ (t).2.free = x0.free ∧ (t).2.pending = x0.pending := by
  intro t h
  simp only [deltaTail] at h
  repeat' split at h
  all_goals first
    | (simp at h; obtain ⟨a, -, rfl⟩ := h; simp)
    | (simp at h; obtain ⟨a, w, h1, rfl⟩ := h; have := takeDelta_frame _ _ _ h1; simp_all)

@[simp] theorem appendEntry_frame (x0 x1 x2 x3 x4) : (appendEntry x0 x1 x2 x3 x4).engines = x0.engines ∧
    (appendEntry x0 x1 x2 x3 x4).text = x0.text ∧ (appendEntry x0 x1 x2 x3 x4).pair = x0.pair ∧
    (appendEntry x0 x1 x2 x3 x4).flash = x0.flash ∧ (appendEntry x0 x1 x2 x3 x4).power = x0.power ∧
    (appendEntry x0 x1 x2 x3 x4).limits = x0.limits ∧ (appendEntry x0 x1 x2 x3 x4).fuses = x0.fuses ∧
    (appendEntry x0 x1 x2 x3 x4).shelfSkips = x0.shelfSkips ∧ (appendEntry x0 x1 x2 x3 x4).shelfCuts = x0.shelfCuts ∧
    (appendEntry x0 x1 x2 x3 x4).free = x0.free ∧ (appendEntry x0 x1 x2 x3 x4).pending = x0.pending := by
  unfold appendEntry
  repeat' split
  all_goals ((try simp only [Prod.ext_iff] at *); (try casesm* _ ∧ _); (try subst_vars); (try have hh_5 := deltaTail_frame _ _ _ _ _ _ (by assumption)); first | (simp; done) | (simp_all; done) | skip)

theorem tombTail_frame (x0 x1 x2 x3 x4) : ∀ t, (tombTail x0 x1 x2 x3 x4) = some t → (t).2.engines = x0.engines ∧ (t).2.text = x0.text ∧
    (t).2.pair = x0.pair ∧ (t).2.flash = x0.flash ∧ (t).2.power = x0.power ∧ (t).2.limits = x0.limits ∧ (t).2.fuses = x0.fuses ∧
    (t).2.shelfSkips = x0.shelfSkips ∧ (t).2.shelfCuts = x0.shelfCuts ∧ (t).2.free = x0.free ∧ (t).2.pending = x0.pending := by
  intro t h
  simp only [tombTail] at h
  split at h
  · simp at h; obtain ⟨a, -, rfl⟩ := h; simp
  · simp at h; obtain ⟨a, b, h, rfl⟩ := h
    have := takeTomb_frame _ _ _ h
    split <;> simp_all

@[simp] theorem appendTomb_frame (x0 x1 x2 x3 x4 x5) : (appendTomb x0 x1 x2 x3 x4 x5).engines = x0.engines ∧
    (appendTomb x0 x1 x2 x3 x4 x5).text = x0.text ∧ (appendTomb x0 x1 x2 x3 x4 x5).pair = x0.pair ∧
    (appendTomb x0 x1 x2 x3 x4 x5).flash = x0.flash ∧ (appendTomb x0 x1 x2 x3 x4 x5).power = x0.power ∧
    (appendTomb x0 x1 x2 x3 x4 x5).limits = x0.limits ∧ (appendTomb x0 x1 x2 x3 x4 x5).fuses = x0.fuses ∧
    (appendTomb x0 x1 x2 x3 x4 x5).shelfSkips = x0.shelfSkips ∧ (appendTomb x0 x1 x2 x3 x4 x5).shelfCuts = x0.shelfCuts ∧
    (appendTomb x0 x1 x2 x3 x4 x5).free = x0.free ∧ (appendTomb x0 x1 x2 x3 x4 x5).pending = x0.pending := by
  unfold appendTomb
  repeat' split
  all_goals ((try simp only [Prod.ext_iff] at *); (try casesm* _ ∧ _); (try subst_vars); (try have hh_5 := tombTail_frame _ _ _ _ _ _ (by assumption)); first | (simp; done) | (simp_all; done) | skip)

@[simp] theorem putBlock_frame (x0 x1 x2 x3 x4) : (putBlock x0 x1 x2 x3 x4).engines = x0.engines ∧ (putBlock x0 x1 x2 x3 x4).text = x0.text ∧
    (putBlock x0 x1 x2 x3 x4).pair = x0.pair ∧ (putBlock x0 x1 x2 x3 x4).flash = x0.flash ∧ (putBlock x0 x1 x2 x3 x4).power = x0.power ∧
    (putBlock x0 x1 x2 x3 x4).limits = x0.limits ∧ (putBlock x0 x1 x2 x3 x4).fuses = x0.fuses ∧
    (putBlock x0 x1 x2 x3 x4).shelfSkips = x0.shelfSkips ∧ (putBlock x0 x1 x2 x3 x4).shelfCuts = x0.shelfCuts ∧
    (putBlock x0 x1 x2 x3 x4).free = x0.free ∧ (putBlock x0 x1 x2 x3 x4).pending = x0.pending := by unfold putBlock; split <;> simp

@[simp] theorem insertItem_frame (x0 x1 x2 x3 x4) : ((insertItem x0 x1 x2 x3 x4)).2.fabric = (x3).2.fabric ∧
    ((insertItem x0 x1 x2 x3 x4)).2.store = (x3).2.store ∧ ((insertItem x0 x1 x2 x3 x4)).2.tier = (x3).2.tier ∧
    ((insertItem x0 x1 x2 x3 x4)).2.engines = (x3).2.engines ∧ ((insertItem x0 x1 x2 x3 x4)).2.host = (x3).2.host ∧
    ((insertItem x0 x1 x2 x3 x4)).2.gen = (x3).2.gen ∧ ((insertItem x0 x1 x2 x3 x4)).2.text = (x3).2.text ∧
    ((insertItem x0 x1 x2 x3 x4)).2.pair = (x3).2.pair ∧ ((insertItem x0 x1 x2 x3 x4)).2.flash = (x3).2.flash ∧
    ((insertItem x0 x1 x2 x3 x4)).2.bureau = (x3).2.bureau ∧ ((insertItem x0 x1 x2 x3 x4)).2.power = (x3).2.power ∧
    ((insertItem x0 x1 x2 x3 x4)).2.limits = (x3).2.limits ∧ ((insertItem x0 x1 x2 x3 x4)).2.fuses = (x3).2.fuses ∧
    ((insertItem x0 x1 x2 x3 x4)).2.shelfSkips = (x3).2.shelfSkips ∧ ((insertItem x0 x1 x2 x3 x4)).2.shelfCuts = (x3).2.shelfCuts ∧
    ((insertItem x0 x1 x2 x3 x4)).2.pending = (x3).2.pending := by
  simp only [insertItem]
  repeat' split
  all_goals ((try simp only [Prod.ext_iff] at *); (try casesm* _ ∧ _); (try subst_vars); (try simp))

@[simp] theorem batchWork_frame (x0 x1 x2) : ((batchWork x0 x1 x2)).2.fabric = x0.fabric ∧ ((batchWork x0 x1 x2)).2.store = x0.store ∧
    ((batchWork x0 x1 x2)).2.tier = x0.tier ∧ ((batchWork x0 x1 x2)).2.engines = x0.engines ∧ ((batchWork x0 x1 x2)).2.host = x0.host ∧
    ((batchWork x0 x1 x2)).2.gen = x0.gen ∧ ((batchWork x0 x1 x2)).2.text = x0.text ∧ ((batchWork x0 x1 x2)).2.pair = x0.pair ∧
    ((batchWork x0 x1 x2)).2.flash = x0.flash ∧ ((batchWork x0 x1 x2)).2.bureau = x0.bureau ∧ ((batchWork x0 x1 x2)).2.power = x0.power ∧
    ((batchWork x0 x1 x2)).2.limits = x0.limits ∧ ((batchWork x0 x1 x2)).2.fuses = x0.fuses ∧
    ((batchWork x0 x1 x2)).2.shelfSkips = x0.shelfSkips ∧ ((batchWork x0 x1 x2)).2.shelfCuts = x0.shelfCuts ∧
    ((batchWork x0 x1 x2)).2.pending = x0.pending := by unfold batchWork; split <;> simp

@[simp] theorem writeBatch_frame (x0 x1 x2 x3 x4 x5 x6) : (writeBatch x0 x1 x2 x3 x4 x5 x6).engines = x0.engines ∧
    (writeBatch x0 x1 x2 x3 x4 x5 x6).text = x0.text ∧ (writeBatch x0 x1 x2 x3 x4 x5 x6).pair = x0.pair ∧
    (writeBatch x0 x1 x2 x3 x4 x5 x6).flash = x0.flash ∧ (writeBatch x0 x1 x2 x3 x4 x5 x6).power = x0.power ∧
    (writeBatch x0 x1 x2 x3 x4 x5 x6).limits = x0.limits ∧ (writeBatch x0 x1 x2 x3 x4 x5 x6).fuses = x0.fuses ∧
    (writeBatch x0 x1 x2 x3 x4 x5 x6).shelfSkips = x0.shelfSkips ∧ (writeBatch x0 x1 x2 x3 x4 x5 x6).shelfCuts = x0.shelfCuts ∧
    (writeBatch x0 x1 x2 x3 x4 x5 x6).free = x0.free ∧ (writeBatch x0 x1 x2 x3 x4 x5 x6).pending = x0.pending := by simp [writeBatch]

@[simp] theorem roWrite_frame (x0 x1 x2) : (roWrite x0 x1 x2).engines = x0.engines ∧ (roWrite x0 x1 x2).text = x0.text ∧
    (roWrite x0 x1 x2).power = x0.power ∧ (roWrite x0 x1 x2).limits = x0.limits ∧ (roWrite x0 x1 x2).fuses = x0.fuses ∧
    (roWrite x0 x1 x2).shelfSkips = x0.shelfSkips ∧ (roWrite x0 x1 x2).shelfCuts = x0.shelfCuts ∧ (roWrite x0 x1 x2).pending = x0.pending := by unfold roWrite; split <;> simp

@[simp] theorem forwardCentroid_frame (x0 x1 x2 x3) : (forwardCentroid x0 x1 x2 x3).engines = x0.engines ∧
    (forwardCentroid x0 x1 x2 x3).text = x0.text ∧ (forwardCentroid x0 x1 x2 x3).power = x0.power ∧
    (forwardCentroid x0 x1 x2 x3).limits = x0.limits ∧ (forwardCentroid x0 x1 x2 x3).fuses = x0.fuses ∧
    (forwardCentroid x0 x1 x2 x3).shelfSkips = x0.shelfSkips ∧ (forwardCentroid x0 x1 x2 x3).shelfCuts = x0.shelfCuts ∧
    (forwardCentroid x0 x1 x2 x3).pending = x0.pending := by
  simp only [forwardCentroid]
  repeat' split
  all_goals ((try simp only [Prod.ext_iff] at *); (try casesm* _ ∧ _); (try subst_vars); (try simp))

@[simp] theorem leaveFreeing_frame (x0 x1 x2 x3) : (leaveFreeing x0 x1 x2 x3).fabric = x0.fabric ∧
    (leaveFreeing x0 x1 x2 x3).store = x0.store ∧ (leaveFreeing x0 x1 x2 x3).tier = x0.tier ∧
    (leaveFreeing x0 x1 x2 x3).engines = x0.engines ∧ (leaveFreeing x0 x1 x2 x3).host = x0.host ∧ (leaveFreeing x0 x1 x2 x3).text = x0.text ∧
    (leaveFreeing x0 x1 x2 x3).pair = x0.pair ∧ (leaveFreeing x0 x1 x2 x3).flash = x0.flash ∧ (leaveFreeing x0 x1 x2 x3).bureau = x0.bureau ∧
    (leaveFreeing x0 x1 x2 x3).power = x0.power ∧ (leaveFreeing x0 x1 x2 x3).limits = x0.limits ∧
    (leaveFreeing x0 x1 x2 x3).fuses = x0.fuses ∧ (leaveFreeing x0 x1 x2 x3).shelfSkips = x0.shelfSkips ∧
    (leaveFreeing x0 x1 x2 x3).shelfCuts = x0.shelfCuts ∧ (leaveFreeing x0 x1 x2 x3).free = x0.free ∧
    (leaveFreeing x0 x1 x2 x3).pending = x0.pending := by simp [leaveFreeing]

@[simp] theorem applyPatch_frame (x0 x1 x2) : (applyPatch x0 x1 x2).engines = x1.engines ∧ (applyPatch x0 x1 x2).text = x1.text ∧
    (applyPatch x0 x1 x2).power = x1.power ∧ (applyPatch x0 x1 x2).limits = x1.limits ∧ (applyPatch x0 x1 x2).fuses = x1.fuses ∧
    (applyPatch x0 x1 x2).shelfSkips = x1.shelfSkips ∧ (applyPatch x0 x1 x2).shelfCuts = x1.shelfCuts ∧
    (applyPatch x0 x1 x2).pending = x1.pending := by unfold applyPatch; split <;> simp

@[simp] theorem startCompaction_frame (x0 x1 x2) : (startCompaction x0 x1 x2).engines = x1.engines ∧
    (startCompaction x0 x1 x2).text = x1.text ∧ (startCompaction x0 x1 x2).pair = x1.pair ∧ (startCompaction x0 x1 x2).flash = x1.flash ∧
    (startCompaction x0 x1 x2).power = x1.power ∧ (startCompaction x0 x1 x2).limits = x1.limits ∧
    (startCompaction x0 x1 x2).fuses = x1.fuses ∧ (startCompaction x0 x1 x2).shelfSkips = x1.shelfSkips ∧
    (startCompaction x0 x1 x2).shelfCuts = x1.shelfCuts ∧ (startCompaction x0 x1 x2).free = x1.free ∧
    (startCompaction x0 x1 x2).pending = x1.pending := by unfold startCompaction; split <;> simp

@[simp] theorem keepWork_frame (x0 x1 x2 x3) : (keepWork x0 x1 x2 x3).fabric = x0.fabric ∧ (keepWork x0 x1 x2 x3).store = x0.store ∧
    (keepWork x0 x1 x2 x3).tier = x0.tier ∧ (keepWork x0 x1 x2 x3).engines = x0.engines ∧ (keepWork x0 x1 x2 x3).gen = x0.gen ∧
    (keepWork x0 x1 x2 x3).text = x0.text ∧ (keepWork x0 x1 x2 x3).pair = x0.pair ∧ (keepWork x0 x1 x2 x3).flash = x0.flash ∧
    (keepWork x0 x1 x2 x3).bureau = x0.bureau ∧ (keepWork x0 x1 x2 x3).power = x0.power ∧ (keepWork x0 x1 x2 x3).limits = x0.limits ∧
    (keepWork x0 x1 x2 x3).fuses = x0.fuses ∧ (keepWork x0 x1 x2 x3).shelfSkips = x0.shelfSkips ∧
    (keepWork x0 x1 x2 x3).shelfCuts = x0.shelfCuts ∧ (keepWork x0 x1 x2 x3).free = x0.free ∧ (keepWork x0 x1 x2 x3).pending = x0.pending := by simp [keepWork]

@[simp] theorem batchFinal_frame (x0 x1 x2) : (batchFinal x0 x1 x2).fabric = x0.fabric ∧ (batchFinal x0 x1 x2).store = x0.store ∧
    (batchFinal x0 x1 x2).tier = x0.tier ∧ (batchFinal x0 x1 x2).engines = x0.engines ∧ (batchFinal x0 x1 x2).text = x0.text ∧
    (batchFinal x0 x1 x2).flash = x0.flash ∧ (batchFinal x0 x1 x2).bureau = x0.bureau ∧ (batchFinal x0 x1 x2).power = x0.power ∧
    (batchFinal x0 x1 x2).limits = x0.limits ∧ (batchFinal x0 x1 x2).fuses = x0.fuses ∧ (batchFinal x0 x1 x2).shelfSkips = x0.shelfSkips ∧
    (batchFinal x0 x1 x2).shelfCuts = x0.shelfCuts ∧ (batchFinal x0 x1 x2).pending = x0.pending := by unfold batchFinal; split <;> simp

@[simp] theorem makeVisible_frame (x0 x1 x2 x3) : (makeVisible x0 x1 x2 x3).engines = x0.engines ∧ (makeVisible x0 x1 x2 x3).text = x0.text ∧
    (makeVisible x0 x1 x2 x3).power = x0.power ∧ (makeVisible x0 x1 x2 x3).limits = x0.limits ∧ (makeVisible x0 x1 x2 x3).fuses = x0.fuses ∧
    (makeVisible x0 x1 x2 x3).shelfSkips = x0.shelfSkips ∧ (makeVisible x0 x1 x2 x3).shelfCuts = x0.shelfCuts ∧
    (makeVisible x0 x1 x2 x3).pending = x0.pending := by
  simp only [makeVisible]
  repeat' split
  all_goals ((try simp only [Prod.ext_iff] at *); (try casesm* _ ∧ _); (try subst_vars); (try simp))

@[simp] theorem rollbackBatch_frame (x0 x1) : (rollbackBatch x0 x1).engines = x0.engines ∧ (rollbackBatch x0 x1).text = x0.text ∧
    (rollbackBatch x0 x1).pair = x0.pair ∧ (rollbackBatch x0 x1).flash = x0.flash ∧ (rollbackBatch x0 x1).power = x0.power ∧
    (rollbackBatch x0 x1).limits = x0.limits ∧ (rollbackBatch x0 x1).fuses = x0.fuses ∧ (rollbackBatch x0 x1).shelfSkips = x0.shelfSkips ∧
    (rollbackBatch x0 x1).shelfCuts = x0.shelfCuts ∧ (rollbackBatch x0 x1).free = x0.free ∧ (rollbackBatch x0 x1).pending = x0.pending := by unfold rollbackBatch; split <;> simp

@[simp] theorem batchFails_frame (x0 x1 x2 x3) : (batchFails x0 x1 x2 x3).fabric = x0.fabric ∧ (batchFails x0 x1 x2 x3).store = x0.store ∧
    (batchFails x0 x1 x2 x3).tier = x0.tier ∧ (batchFails x0 x1 x2 x3).engines = x0.engines ∧ (batchFails x0 x1 x2 x3).text = x0.text ∧
    (batchFails x0 x1 x2 x3).flash = x0.flash ∧ (batchFails x0 x1 x2 x3).bureau = x0.bureau ∧ (batchFails x0 x1 x2 x3).power = x0.power ∧
    (batchFails x0 x1 x2 x3).limits = x0.limits ∧ (batchFails x0 x1 x2 x3).fuses = x0.fuses ∧
    (batchFails x0 x1 x2 x3).shelfSkips = x0.shelfSkips ∧ (batchFails x0 x1 x2 x3).shelfCuts = x0.shelfCuts ∧
    (batchFails x0 x1 x2 x3).pending = x0.pending := by simp [batchFails]

@[simp] theorem runBatch_frame (x0 x1 x2) : (runBatch x0 x1 x2).engines = x0.engines ∧ (runBatch x0 x1 x2).text = x0.text ∧
    (runBatch x0 x1 x2).power = x0.power ∧ (runBatch x0 x1 x2).limits = x0.limits ∧ (runBatch x0 x1 x2).fuses = x0.fuses ∧
    (runBatch x0 x1 x2).shelfSkips = x0.shelfSkips ∧ (runBatch x0 x1 x2).shelfCuts = x0.shelfCuts ∧ (runBatch x0 x1 x2).pending = x0.pending := by
  simp only [runBatch]
  repeat' split
  all_goals ((try simp only [Prod.ext_iff] at *); (try casesm* _ ∧ _); (try subst_vars); (try simp))

@[simp] theorem drainBatches_frame (x0 x1 x2 x3) : (drainBatches x0 x1 x2 x3).engines = x0.engines ∧
    (drainBatches x0 x1 x2 x3).text = x0.text ∧ (drainBatches x0 x1 x2 x3).power = x0.power ∧ (drainBatches x0 x1 x2 x3).limits = x0.limits ∧
    (drainBatches x0 x1 x2 x3).fuses = x0.fuses ∧ (drainBatches x0 x1 x2 x3).shelfSkips = x0.shelfSkips ∧
    (drainBatches x0 x1 x2 x3).shelfCuts = x0.shelfCuts ∧ (drainBatches x0 x1 x2 x3).pending = x0.pending := by
  induction x3 generalizing x0 with
  | zero => simp [drainBatches]
  | succ k ih =>
    unfold drainBatches
    repeat' split
    all_goals simp [ih]

@[simp] theorem acceptBatch_frame (x0 x1 x2 x3) : (acceptBatch x0 x1 x2 x3).engines = x0.engines ∧ (acceptBatch x0 x1 x2 x3).text = x0.text ∧
    (acceptBatch x0 x1 x2 x3).power = x0.power ∧ (acceptBatch x0 x1 x2 x3).limits = x0.limits ∧ (acceptBatch x0 x1 x2 x3).fuses = x0.fuses ∧
    (acceptBatch x0 x1 x2 x3).shelfSkips = x0.shelfSkips ∧ (acceptBatch x0 x1 x2 x3).shelfCuts = x0.shelfCuts ∧
    (acceptBatch x0 x1 x2 x3).pending = x0.pending := by simp [acceptBatch]

@[simp] theorem batchAnswered_frame (x0 x1 x2 x3) : (batchAnswered x0 x1 x2 x3).engines = x0.engines ∧
    (batchAnswered x0 x1 x2 x3).text = x0.text ∧ (batchAnswered x0 x1 x2 x3).power = x0.power ∧
    (batchAnswered x0 x1 x2 x3).limits = x0.limits ∧ (batchAnswered x0 x1 x2 x3).fuses = x0.fuses ∧
    (batchAnswered x0 x1 x2 x3).shelfSkips = x0.shelfSkips ∧ (batchAnswered x0 x1 x2 x3).shelfCuts = x0.shelfCuts ∧
    (batchAnswered x0 x1 x2 x3).pending = x0.pending := by
  simp only [batchAnswered]
  repeat' split
  all_goals ((try simp only [Prod.ext_iff] at *); (try casesm* _ ∧ _); (try subst_vars); (try simp))

@[simp] theorem applyIndexBody_frame (x0 x1 x2 x3 x4 x5 x6 x7 x8) : ((applyIndexBody x0 x1 x2 x3 x4 x5 x6 x7 x8)).1.engines = x0.engines ∧
    ((applyIndexBody x0 x1 x2 x3 x4 x5 x6 x7 x8)).1.text = x0.text ∧ ((applyIndexBody x0 x1 x2 x3 x4 x5 x6 x7 x8)).1.power = x0.power ∧
    ((applyIndexBody x0 x1 x2 x3 x4 x5 x6 x7 x8)).1.limits = x0.limits ∧ ((applyIndexBody x0 x1 x2 x3 x4 x5 x6 x7 x8)).1.fuses = x0.fuses ∧
    ((applyIndexBody x0 x1 x2 x3 x4 x5 x6 x7 x8)).1.shelfSkips = x0.shelfSkips ∧
    ((applyIndexBody x0 x1 x2 x3 x4 x5 x6 x7 x8)).1.shelfCuts = x0.shelfCuts ∧
    ((applyIndexBody x0 x1 x2 x3 x4 x5 x6 x7 x8)).1.pending = x0.pending := by
  simp only [applyIndexBody]
  repeat' split
  all_goals ((try simp only [Prod.ext_iff] at *); (try casesm* _ ∧ _); (try subst_vars); (try simp))

@[simp] theorem compactionSwitch_frame (x0 x1 x2 x3) : (compactionSwitch x0 x1 x2 x3).engines = x0.engines ∧
    (compactionSwitch x0 x1 x2 x3).text = x0.text ∧ (compactionSwitch x0 x1 x2 x3).power = x0.power ∧
    (compactionSwitch x0 x1 x2 x3).limits = x0.limits ∧ (compactionSwitch x0 x1 x2 x3).fuses = x0.fuses ∧
    (compactionSwitch x0 x1 x2 x3).shelfSkips = x0.shelfSkips ∧ (compactionSwitch x0 x1 x2 x3).shelfCuts = x0.shelfCuts ∧
    (compactionSwitch x0 x1 x2 x3).pending = x0.pending := by
  unfold compactionSwitch
  repeat' split
  all_goals ((try simp only [Prod.ext_iff] at *); (try casesm* _ ∧ _); (try subst_vars); (try simp))

theorem execListCompactionSwitch_frame (x0 x1 x2 x3) : ∀ t, (execListCompactionSwitch x0 x1 x2 x3) = .next t → t.engines = x3.engines ∧
    t.text = x3.text ∧ t.power = x3.power ∧ t.limits = x3.limits ∧ t.fuses = x3.fuses ∧ t.shelfSkips = x3.shelfSkips ∧
    t.shelfCuts = x3.shelfCuts ∧ t.pending = x3.pending := by simp [execListCompactionSwitch]

@[simp] theorem compactionFree_frame (x0 x1 x2) : (compactionFree x0 x1 x2).engines = x0.engines ∧ (compactionFree x0 x1 x2).text = x0.text ∧
    (compactionFree x0 x1 x2).pair = x0.pair ∧ (compactionFree x0 x1 x2).power = x0.power ∧ (compactionFree x0 x1 x2).limits = x0.limits ∧
    (compactionFree x0 x1 x2).fuses = x0.fuses ∧ (compactionFree x0 x1 x2).shelfSkips = x0.shelfSkips ∧
    (compactionFree x0 x1 x2).shelfCuts = x0.shelfCuts ∧ (compactionFree x0 x1 x2).free = x0.free ∧
    (compactionFree x0 x1 x2).pending = x0.pending := by
  simp only [compactionFree]
  split
  · simp
  · split
    · simp
    · split
      · simp
      · simp only [setIndex_frame]
        refine ⟨?_, ?_, ?_, ?_, ?_, ?_, ?_, ?_, ?_, ?_⟩
        all_goals (first | refine (State.foldl_engines (fun _ _ => ?_) _ _).trans ?_ | refine (State.foldl_text (fun _ _ => ?_) _ _).trans ?_ | refine (State.foldl_pair (fun _ _ => ?_) _ _).trans ?_ | refine (State.foldl_power (fun _ _ => ?_) _ _).trans ?_ | refine (State.foldl_limits (fun _ _ => ?_) _ _).trans ?_ | refine (State.foldl_fuses (fun _ _ => ?_) _ _).trans ?_ | refine (State.foldl_shelfSkips (fun _ _ => ?_) _ _).trans ?_ | refine (State.foldl_shelfCuts (fun _ _ => ?_) _ _).trans ?_ | refine (State.foldl_free (fun _ _ => ?_) _ _).trans ?_ | refine (State.foldl_pending (fun _ _ => ?_) _ _).trans ?_)
        all_goals try simp
        all_goals try (first | refine State.foldl_engines (fun _ _ => ?_) _ _ | refine State.foldl_text (fun _ _ => ?_) _ _ | refine State.foldl_pair (fun _ _ => ?_) _ _ | refine State.foldl_power (fun _ _ => ?_) _ _ | refine State.foldl_limits (fun _ _ => ?_) _ _ | refine State.foldl_fuses (fun _ _ => ?_) _ _ | refine State.foldl_shelfSkips (fun _ _ => ?_) _ _ | refine State.foldl_shelfCuts (fun _ _ => ?_) _ _ | refine State.foldl_free (fun _ _ => ?_) _ _ | refine State.foldl_pending (fun _ _ => ?_) _ _)
        all_goals (repeat' split)
        all_goals simp

theorem execListCompactionFree_frame (x0 x1 x2) : ∀ t, (execListCompactionFree x0 x1 x2) = .next t → t.engines = x2.engines ∧
    t.text = x2.text ∧ t.pair = x2.pair ∧ t.power = x2.power ∧ t.limits = x2.limits ∧ t.fuses = x2.fuses ∧ t.shelfSkips = x2.shelfSkips ∧
    t.shelfCuts = x2.shelfCuts ∧ t.free = x2.free ∧ t.pending = x2.pending := by simp [execListCompactionFree]

/-! ## Tables -/

@[simp] theorem setTable_frame (x0 x1 x2) : (setTable x0 x1 x2).fabric = x0.fabric ∧ (setTable x0 x1 x2).store = x0.store ∧
    (setTable x0 x1 x2).tier = x0.tier ∧ (setTable x0 x1 x2).engines = x0.engines ∧ (setTable x0 x1 x2).host = x0.host ∧
    (setTable x0 x1 x2).text = x0.text ∧ (setTable x0 x1 x2).pair = x0.pair ∧ (setTable x0 x1 x2).flash = x0.flash ∧
    (setTable x0 x1 x2).bureau = x0.bureau ∧ (setTable x0 x1 x2).power = x0.power ∧ (setTable x0 x1 x2).limits = x0.limits ∧
    (setTable x0 x1 x2).fuses = x0.fuses ∧ (setTable x0 x1 x2).shelfSkips = x0.shelfSkips ∧ (setTable x0 x1 x2).shelfCuts = x0.shelfCuts ∧
    (setTable x0 x1 x2).free = x0.free ∧ (setTable x0 x1 x2).pending = x0.pending := by unfold setTable; split <;> simp

@[simp] theorem dropHot_frame (x0 x1 x2) : (dropHot x0 x1 x2).fabric = x1.fabric ∧ (dropHot x0 x1 x2).tier = x1.tier ∧
    (dropHot x0 x1 x2).engines = x1.engines ∧ (dropHot x0 x1 x2).host = x1.host ∧ (dropHot x0 x1 x2).text = x1.text ∧
    (dropHot x0 x1 x2).pair = x1.pair ∧ (dropHot x0 x1 x2).flash = x1.flash ∧ (dropHot x0 x1 x2).bureau = x1.bureau ∧
    (dropHot x0 x1 x2).power = x1.power ∧ (dropHot x0 x1 x2).limits = x1.limits ∧ (dropHot x0 x1 x2).fuses = x1.fuses ∧
    (dropHot x0 x1 x2).shelfSkips = x1.shelfSkips ∧ (dropHot x0 x1 x2).shelfCuts = x1.shelfCuts ∧ (dropHot x0 x1 x2).free = x1.free ∧
    (dropHot x0 x1 x2).pending = x1.pending := by simp [dropHot]

@[simp] theorem hotCopy_frame (x0 x1 x2) : (hotCopy x0 x1 x2).tier = x0.tier ∧ (hotCopy x0 x1 x2).engines = x0.engines ∧
    (hotCopy x0 x1 x2).text = x0.text ∧ (hotCopy x0 x1 x2).pair = x0.pair ∧ (hotCopy x0 x1 x2).flash = x0.flash ∧
    (hotCopy x0 x1 x2).power = x0.power ∧ (hotCopy x0 x1 x2).limits = x0.limits ∧ (hotCopy x0 x1 x2).fuses = x0.fuses ∧
    (hotCopy x0 x1 x2).shelfSkips = x0.shelfSkips ∧ (hotCopy x0 x1 x2).shelfCuts = x0.shelfCuts ∧ (hotCopy x0 x1 x2).pending = x0.pending := by
  simp only [hotCopy]
  repeat' split
  all_goals ((try simp only [Prod.ext_iff] at *); (try casesm* _ ∧ _); (try subst_vars); first | (simp; done) | (simp_all; done) | skip)

@[simp] theorem rebuildHot_frame (x0 x1) : (rebuildHot x0 x1).tier = x0.tier ∧ (rebuildHot x0 x1).engines = x0.engines ∧
    (rebuildHot x0 x1).text = x0.text ∧ (rebuildHot x0 x1).pair = x0.pair ∧ (rebuildHot x0 x1).flash = x0.flash ∧
    (rebuildHot x0 x1).power = x0.power ∧ (rebuildHot x0 x1).limits = x0.limits ∧ (rebuildHot x0 x1).fuses = x0.fuses ∧
    (rebuildHot x0 x1).shelfSkips = x0.shelfSkips ∧ (rebuildHot x0 x1).shelfCuts = x0.shelfCuts ∧ (rebuildHot x0 x1).pending = x0.pending := by simp [rebuildHot]

@[simp] theorem countRow_frame (x0 x1 x2) : (countRow x0 x1 x2).engines = x1.engines ∧ (countRow x0 x1 x2).text = x1.text ∧
    (countRow x0 x1 x2).pair = x1.pair ∧ (countRow x0 x1 x2).flash = x1.flash ∧ (countRow x0 x1 x2).power = x1.power ∧
    (countRow x0 x1 x2).limits = x1.limits ∧ (countRow x0 x1 x2).fuses = x1.fuses ∧ (countRow x0 x1 x2).shelfSkips = x1.shelfSkips ∧
    (countRow x0 x1 x2).shelfCuts = x1.shelfCuts ∧ (countRow x0 x1 x2).free = x1.free ∧ (countRow x0 x1 x2).pending = x1.pending := by unfold countRow; split <;> simp

@[simp] theorem lookupDone_frame (x0 x1) : (lookupDone x0 x1).engines = x0.engines ∧ (lookupDone x0 x1).text = x0.text ∧
    (lookupDone x0 x1).flash = x0.flash ∧ (lookupDone x0 x1).power = x0.power ∧ (lookupDone x0 x1).limits = x0.limits ∧
    (lookupDone x0 x1).fuses = x0.fuses ∧ (lookupDone x0 x1).shelfSkips = x0.shelfSkips ∧ (lookupDone x0 x1).shelfCuts = x0.shelfCuts ∧
    (lookupDone x0 x1).pending = x0.pending := by
  simp only [lookupDone]
  repeat' split
  all_goals ((try simp only [Prod.ext_iff] at *); (try casesm* _ ∧ _); (try subst_vars); (try simp))

@[simp] theorem writeImage_frame (x0 x1 x2 x3 x4) : (writeImage x0 x1 x2 x3 x4).engines = x0.engines ∧
    (writeImage x0 x1 x2 x3 x4).text = x0.text ∧ (writeImage x0 x1 x2 x3 x4).pair = x0.pair ∧ (writeImage x0 x1 x2 x3 x4).flash = x0.flash ∧
    (writeImage x0 x1 x2 x3 x4).power = x0.power ∧ (writeImage x0 x1 x2 x3 x4).limits = x0.limits ∧
    (writeImage x0 x1 x2 x3 x4).fuses = x0.fuses ∧ (writeImage x0 x1 x2 x3 x4).shelfSkips = x0.shelfSkips ∧
    (writeImage x0 x1 x2 x3 x4).shelfCuts = x0.shelfCuts ∧ (writeImage x0 x1 x2 x3 x4).pending = x0.pending := by
  unfold writeImage
  repeat' split
  all_goals ((try simp only [Prod.ext_iff] at *); (try casesm* _ ∧ _); (try subst_vars); (try simp))

@[simp] theorem writeEntry_frame (x0 x1 x2) : (writeEntry x0 x1 x2).engines = x0.engines ∧ (writeEntry x0 x1 x2).text = x0.text ∧
    (writeEntry x0 x1 x2).pair = x0.pair ∧ (writeEntry x0 x1 x2).flash = x0.flash ∧ (writeEntry x0 x1 x2).power = x0.power ∧
    (writeEntry x0 x1 x2).limits = x0.limits ∧ (writeEntry x0 x1 x2).fuses = x0.fuses ∧ (writeEntry x0 x1 x2).shelfSkips = x0.shelfSkips ∧
    (writeEntry x0 x1 x2).shelfCuts = x0.shelfCuts ∧ (writeEntry x0 x1 x2).pending = x0.pending := by unfold writeEntry; split <;> simp

@[simp] theorem updateFinal_frame (x0 x1 x2 x3) : (updateFinal x0 x1 x2 x3).fabric = x0.fabric ∧ (updateFinal x0 x1 x2 x3).store = x0.store ∧
    (updateFinal x0 x1 x2 x3).tier = x0.tier ∧ (updateFinal x0 x1 x2 x3).engines = x0.engines ∧ (updateFinal x0 x1 x2 x3).text = x0.text ∧
    (updateFinal x0 x1 x2 x3).flash = x0.flash ∧ (updateFinal x0 x1 x2 x3).bureau = x0.bureau ∧ (updateFinal x0 x1 x2 x3).power = x0.power ∧
    (updateFinal x0 x1 x2 x3).limits = x0.limits ∧ (updateFinal x0 x1 x2 x3).fuses = x0.fuses ∧
    (updateFinal x0 x1 x2 x3).shelfSkips = x0.shelfSkips ∧ (updateFinal x0 x1 x2 x3).shelfCuts = x0.shelfCuts ∧
    (updateFinal x0 x1 x2 x3).pending = x0.pending := by unfold updateFinal; split <;> simp

@[simp] theorem undoRows_frame (x0 x1 x2) : (undoRows x0 x1 x2).engines = x0.engines ∧ (undoRows x0 x1 x2).text = x0.text ∧
    (undoRows x0 x1 x2).pair = x0.pair ∧ (undoRows x0 x1 x2).flash = x0.flash ∧ (undoRows x0 x1 x2).power = x0.power ∧
    (undoRows x0 x1 x2).limits = x0.limits ∧ (undoRows x0 x1 x2).fuses = x0.fuses ∧ (undoRows x0 x1 x2).shelfSkips = x0.shelfSkips ∧
    (undoRows x0 x1 x2).shelfCuts = x0.shelfCuts ∧ (undoRows x0 x1 x2).pending = x0.pending := by unfold undoRows; split <;> simp

@[simp] theorem updateOk_frame (x0 x1 x2) : (updateOk x0 x1 x2).fabric = x0.fabric ∧ (updateOk x0 x1 x2).store = x0.store ∧
    (updateOk x0 x1 x2).tier = x0.tier ∧ (updateOk x0 x1 x2).engines = x0.engines ∧ (updateOk x0 x1 x2).text = x0.text ∧
    (updateOk x0 x1 x2).flash = x0.flash ∧ (updateOk x0 x1 x2).bureau = x0.bureau ∧ (updateOk x0 x1 x2).power = x0.power ∧
    (updateOk x0 x1 x2).limits = x0.limits ∧ (updateOk x0 x1 x2).fuses = x0.fuses ∧ (updateOk x0 x1 x2).shelfSkips = x0.shelfSkips ∧
    (updateOk x0 x1 x2).shelfCuts = x0.shelfCuts ∧ (updateOk x0 x1 x2).pending = x0.pending := by simp [updateOk]

@[simp] theorem updateFails_frame (x0 x1 x2 x3) : (updateFails x0 x1 x2 x3).engines = x0.engines ∧ (updateFails x0 x1 x2 x3).text = x0.text ∧
    (updateFails x0 x1 x2 x3).flash = x0.flash ∧ (updateFails x0 x1 x2 x3).power = x0.power ∧ (updateFails x0 x1 x2 x3).limits = x0.limits ∧
    (updateFails x0 x1 x2 x3).fuses = x0.fuses ∧ (updateFails x0 x1 x2 x3).shelfSkips = x0.shelfSkips ∧
    (updateFails x0 x1 x2 x3).shelfCuts = x0.shelfCuts ∧ (updateFails x0 x1 x2 x3).pending = x0.pending := by
  simp only [updateFails]
  repeat' split
  all_goals ((try simp only [Prod.ext_iff] at *); (try casesm* _ ∧ _); (try subst_vars); (try simp))

@[simp] theorem updateCommit_frame (x0 x1 x2) : (updateCommit x0 x1 x2).engines = x1.engines ∧ (updateCommit x0 x1 x2).text = x1.text ∧
    (updateCommit x0 x1 x2).flash = x1.flash ∧ (updateCommit x0 x1 x2).power = x1.power ∧ (updateCommit x0 x1 x2).limits = x1.limits ∧
    (updateCommit x0 x1 x2).fuses = x1.fuses ∧ (updateCommit x0 x1 x2).shelfSkips = x1.shelfSkips ∧
    (updateCommit x0 x1 x2).shelfCuts = x1.shelfCuts ∧ (updateCommit x0 x1 x2).pending = x1.pending := by
  simp only [updateCommit]
  repeat' split
  all_goals ((try simp only [Prod.ext_iff] at *); (try casesm* _ ∧ _); (try subst_vars); (try simp))

@[simp] theorem updateAnswered_frame (x0 x1 x2) : (updateAnswered x0 x1 x2).engines = x0.engines ∧ (updateAnswered x0 x1 x2).text = x0.text ∧
    (updateAnswered x0 x1 x2).flash = x0.flash ∧ (updateAnswered x0 x1 x2).power = x0.power ∧ (updateAnswered x0 x1 x2).limits = x0.limits ∧
    (updateAnswered x0 x1 x2).fuses = x0.fuses ∧ (updateAnswered x0 x1 x2).shelfSkips = x0.shelfSkips ∧
    (updateAnswered x0 x1 x2).shelfCuts = x0.shelfCuts ∧ (updateAnswered x0 x1 x2).pending = x0.pending := by unfold updateAnswered; split <;> simp

@[simp] theorem writeMirrored_frame (x0 x1 x2) : (writeMirrored x0 x1 x2).engines = x1.engines ∧ (writeMirrored x0 x1 x2).text = x1.text ∧
    (writeMirrored x0 x1 x2).flash = x1.flash ∧ (writeMirrored x0 x1 x2).power = x1.power ∧ (writeMirrored x0 x1 x2).limits = x1.limits ∧
    (writeMirrored x0 x1 x2).fuses = x1.fuses ∧ (writeMirrored x0 x1 x2).shelfSkips = x1.shelfSkips ∧
    (writeMirrored x0 x1 x2).shelfCuts = x1.shelfCuts ∧ (writeMirrored x0 x1 x2).pending = x1.pending := by simp [writeMirrored]

@[simp] theorem writeAllMirrored_frame (x0 x1) : (writeAllMirrored x0 x1).engines = x0.engines ∧ (writeAllMirrored x0 x1).text = x0.text ∧
    (writeAllMirrored x0 x1).flash = x0.flash ∧ (writeAllMirrored x0 x1).power = x0.power ∧ (writeAllMirrored x0 x1).limits = x0.limits ∧
    (writeAllMirrored x0 x1).fuses = x0.fuses ∧ (writeAllMirrored x0 x1).shelfSkips = x0.shelfSkips ∧
    (writeAllMirrored x0 x1).shelfCuts = x0.shelfCuts ∧ (writeAllMirrored x0 x1).pending = x0.pending := by simp [writeAllMirrored]

@[simp] theorem halveCounters_frame (x0 x1) : (halveCounters x0 x1).engines = x0.engines ∧ (halveCounters x0 x1).text = x0.text ∧
    (halveCounters x0 x1).pair = x0.pair ∧ (halveCounters x0 x1).flash = x0.flash ∧ (halveCounters x0 x1).power = x0.power ∧
    (halveCounters x0 x1).limits = x0.limits ∧ (halveCounters x0 x1).fuses = x0.fuses ∧ (halveCounters x0 x1).shelfSkips = x0.shelfSkips ∧
    (halveCounters x0 x1).shelfCuts = x0.shelfCuts ∧ (halveCounters x0 x1).free = x0.free ∧ (halveCounters x0 x1).pending = x0.pending := by
  unfold halveCounters
  repeat' split
  all_goals ((try simp only [Prod.ext_iff] at *); (try casesm* _ ∧ _); (try subst_vars); first | (simp; done) | (simp_all; done) | skip)

@[simp] theorem tableRefresh_frame (x0 x1) : (tableRefresh x0 x1).engines = x0.engines ∧ (tableRefresh x0 x1).text = x0.text ∧
    (tableRefresh x0 x1).pair = x0.pair ∧ (tableRefresh x0 x1).flash = x0.flash ∧ (tableRefresh x0 x1).power = x0.power ∧
    (tableRefresh x0 x1).limits = x0.limits ∧ (tableRefresh x0 x1).fuses = x0.fuses ∧ (tableRefresh x0 x1).shelfSkips = x0.shelfSkips ∧
    (tableRefresh x0 x1).shelfCuts = x0.shelfCuts ∧ (tableRefresh x0 x1).free = x0.free ∧ (tableRefresh x0 x1).pending = x0.pending := by unfold tableRefresh; split <;> simp

theorem execTableRefresh_frame (x0 x1) : ∀ t, (execTableRefresh x0 x1) = .next t → t.engines = x1.engines ∧ t.text = x1.text ∧
    t.pair = x1.pair ∧ t.flash = x1.flash ∧ t.power = x1.power ∧ t.limits = x1.limits ∧ t.fuses = x1.fuses ∧ t.shelfSkips = x1.shelfSkips ∧
    t.shelfCuts = x1.shelfCuts ∧ t.free = x1.free ∧ t.pending = x1.pending := by simp [execTableRefresh]

@[simp] theorem mirrorMaps_frame (x0 x1 x2 x3 x4) : (mirrorMaps x0 x1 x2 x3 x4).fabric = x0.fabric ∧
    (mirrorMaps x0 x1 x2 x3 x4).store = x0.store ∧ (mirrorMaps x0 x1 x2 x3 x4).tier = x0.tier ∧
    (mirrorMaps x0 x1 x2 x3 x4).engines = x0.engines ∧ (mirrorMaps x0 x1 x2 x3 x4).gen = x0.gen ∧ (mirrorMaps x0 x1 x2 x3 x4).text = x0.text ∧
    (mirrorMaps x0 x1 x2 x3 x4).flash = x0.flash ∧ (mirrorMaps x0 x1 x2 x3 x4).power = x0.power ∧
    (mirrorMaps x0 x1 x2 x3 x4).limits = x0.limits ∧ (mirrorMaps x0 x1 x2 x3 x4).fuses = x0.fuses ∧
    (mirrorMaps x0 x1 x2 x3 x4).shelfSkips = x0.shelfSkips ∧ (mirrorMaps x0 x1 x2 x3 x4).shelfCuts = x0.shelfCuts ∧
    (mirrorMaps x0 x1 x2 x3 x4).pending = x0.pending := by unfold mirrorMaps; split <;> simp

@[simp] theorem fillRow_frame (x0 x1 x2) : ((fillRow x0 x1 x2)).1.engines = (x1).1.engines ∧ ((fillRow x0 x1 x2)).1.text = (x1).1.text ∧
    ((fillRow x0 x1 x2)).1.pair = (x1).1.pair ∧ ((fillRow x0 x1 x2)).1.flash = (x1).1.flash ∧ ((fillRow x0 x1 x2)).1.power = (x1).1.power ∧
    ((fillRow x0 x1 x2)).1.limits = (x1).1.limits ∧ ((fillRow x0 x1 x2)).1.fuses = (x1).1.fuses ∧
    ((fillRow x0 x1 x2)).1.shelfSkips = (x1).1.shelfSkips ∧ ((fillRow x0 x1 x2)).1.shelfCuts = (x1).1.shelfCuts ∧
    ((fillRow x0 x1 x2)).1.pending = (x1).1.pending := by
  unfold fillRow
  repeat' split
  all_goals ((try simp only [Prod.ext_iff] at *); (try casesm* _ ∧ _); (try subst_vars); (try simp))

@[simp] theorem switchBatch_frame (x0 x1 x2 x3 x4) : (switchBatch x0 x1 x2 x3 x4).engines = x0.engines ∧
    (switchBatch x0 x1 x2 x3 x4).text = x0.text ∧ (switchBatch x0 x1 x2 x3 x4).flash = x0.flash ∧
    (switchBatch x0 x1 x2 x3 x4).power = x0.power ∧ (switchBatch x0 x1 x2 x3 x4).limits = x0.limits ∧
    (switchBatch x0 x1 x2 x3 x4).fuses = x0.fuses ∧ (switchBatch x0 x1 x2 x3 x4).shelfSkips = x0.shelfSkips ∧
    (switchBatch x0 x1 x2 x3 x4).shelfCuts = x0.shelfCuts ∧ (switchBatch x0 x1 x2 x3 x4).pending = x0.pending := by simp [switchBatch]

@[simp] theorem migrateTable_frame (x0 x1 x2) : (migrateTable x0 x1 x2).engines = x1.engines ∧ (migrateTable x0 x1 x2).text = x1.text ∧
    (migrateTable x0 x1 x2).flash = x1.flash ∧ (migrateTable x0 x1 x2).power = x1.power ∧ (migrateTable x0 x1 x2).limits = x1.limits ∧
    (migrateTable x0 x1 x2).fuses = x1.fuses ∧ (migrateTable x0 x1 x2).shelfSkips = x1.shelfSkips ∧
    (migrateTable x0 x1 x2).shelfCuts = x1.shelfCuts ∧ (migrateTable x0 x1 x2).pending = x1.pending := by
  unfold migrateTable
  repeat' split
  all_goals ((try simp only [Prod.ext_iff] at *); (try casesm* _ ∧ _); (try subst_vars); (try simp))

@[simp] theorem migrateTables_frame (x0 x1 x2) : (migrateTables x0 x1 x2).engines = x1.engines ∧ (migrateTables x0 x1 x2).text = x1.text ∧
    (migrateTables x0 x1 x2).flash = x1.flash ∧ (migrateTables x0 x1 x2).power = x1.power ∧ (migrateTables x0 x1 x2).limits = x1.limits ∧
    (migrateTables x0 x1 x2).fuses = x1.fuses ∧ (migrateTables x0 x1 x2).shelfSkips = x1.shelfSkips ∧
    (migrateTables x0 x1 x2).shelfCuts = x1.shelfCuts ∧ (migrateTables x0 x1 x2).pending = x1.pending := by simp [migrateTables]

@[simp] theorem freeHotOld_frame (x0 x1) : (freeHotOld x0 x1).fabric = x0.fabric ∧ (freeHotOld x0 x1).tier = x0.tier ∧
    (freeHotOld x0 x1).engines = x0.engines ∧ (freeHotOld x0 x1).host = x0.host ∧ (freeHotOld x0 x1).text = x0.text ∧
    (freeHotOld x0 x1).pair = x0.pair ∧ (freeHotOld x0 x1).flash = x0.flash ∧ (freeHotOld x0 x1).bureau = x0.bureau ∧
    (freeHotOld x0 x1).power = x0.power ∧ (freeHotOld x0 x1).limits = x0.limits ∧ (freeHotOld x0 x1).fuses = x0.fuses ∧
    (freeHotOld x0 x1).shelfSkips = x0.shelfSkips ∧ (freeHotOld x0 x1).shelfCuts = x0.shelfCuts ∧ (freeHotOld x0 x1).free = x0.free ∧
    (freeHotOld x0 x1).pending = x0.pending := by simp [freeHotOld]

/-! ## Sampler -/

@[simp] theorem stepFault_frame (x0 x1 x2 x3) : (stepFault x0 x1 x2 x3).fabric = x0.fabric ∧ (stepFault x0 x1 x2 x3).store = x0.store ∧
    (stepFault x0 x1 x2 x3).tier = x0.tier ∧ (stepFault x0 x1 x2 x3).host = x0.host ∧ (stepFault x0 x1 x2 x3).gen = x0.gen ∧
    (stepFault x0 x1 x2 x3).text = x0.text ∧ (stepFault x0 x1 x2 x3).pair = x0.pair ∧ (stepFault x0 x1 x2 x3).flash = x0.flash ∧
    (stepFault x0 x1 x2 x3).bureau = x0.bureau ∧ (stepFault x0 x1 x2 x3).power = x0.power ∧ (stepFault x0 x1 x2 x3).limits = x0.limits ∧
    (stepFault x0 x1 x2 x3).fuses = x0.fuses ∧ (stepFault x0 x1 x2 x3).shelfSkips = x0.shelfSkips ∧
    (stepFault x0 x1 x2 x3).shelfCuts = x0.shelfCuts ∧ (stepFault x0 x1 x2 x3).free = x0.free ∧ (stepFault x0 x1 x2 x3).pending = x0.pending := by simp [stepFault]

@[simp] theorem writeTables_frame (x0 x1 x2 x3 x4 x5 x6) : ((writeTables x0 x1 x2 x3 x4 x5 x6)).2.fabric = x0.fabric ∧
    ((writeTables x0 x1 x2 x3 x4 x5 x6)).2.store = x0.store ∧ ((writeTables x0 x1 x2 x3 x4 x5 x6)).2.engines = x0.engines ∧
    ((writeTables x0 x1 x2 x3 x4 x5 x6)).2.host = x0.host ∧ ((writeTables x0 x1 x2 x3 x4 x5 x6)).2.gen = x0.gen ∧
    ((writeTables x0 x1 x2 x3 x4 x5 x6)).2.text = x0.text ∧ ((writeTables x0 x1 x2 x3 x4 x5 x6)).2.pair = x0.pair ∧
    ((writeTables x0 x1 x2 x3 x4 x5 x6)).2.flash = x0.flash ∧ ((writeTables x0 x1 x2 x3 x4 x5 x6)).2.bureau = x0.bureau ∧
    ((writeTables x0 x1 x2 x3 x4 x5 x6)).2.power = x0.power ∧ ((writeTables x0 x1 x2 x3 x4 x5 x6)).2.limits = x0.limits ∧
    ((writeTables x0 x1 x2 x3 x4 x5 x6)).2.fuses = x0.fuses ∧ ((writeTables x0 x1 x2 x3 x4 x5 x6)).2.shelfSkips = x0.shelfSkips ∧
    ((writeTables x0 x1 x2 x3 x4 x5 x6)).2.shelfCuts = x0.shelfCuts ∧ ((writeTables x0 x1 x2 x3 x4 x5 x6)).2.pending = x0.pending := by
  unfold writeTables
  repeat' split
  all_goals ((try simp only [Prod.ext_iff] at *); (try casesm* _ ∧ _); (try subst_vars); first | (simp; done) | (simp_all; done) | skip)

@[simp] theorem losePage_frame (x0 x1 x2 x3) : (losePage x0 x1 x2 x3).fabric = x0.fabric ∧ (losePage x0 x1 x2 x3).store = x0.store ∧
    (losePage x0 x1 x2 x3).tier = x0.tier ∧ (losePage x0 x1 x2 x3).engines = x0.engines ∧ (losePage x0 x1 x2 x3).host = x0.host ∧
    (losePage x0 x1 x2 x3).text = x0.text ∧ (losePage x0 x1 x2 x3).pair = x0.pair ∧ (losePage x0 x1 x2 x3).flash = x0.flash ∧
    (losePage x0 x1 x2 x3).bureau = x0.bureau ∧ (losePage x0 x1 x2 x3).power = x0.power ∧ (losePage x0 x1 x2 x3).limits = x0.limits ∧
    (losePage x0 x1 x2 x3).fuses = x0.fuses ∧ (losePage x0 x1 x2 x3).shelfSkips = x0.shelfSkips ∧
    (losePage x0 x1 x2 x3).shelfCuts = x0.shelfCuts ∧ (losePage x0 x1 x2 x3).free = x0.free ∧ (losePage x0 x1 x2 x3).pending = x0.pending := by
  unfold losePage
  repeat' split
  all_goals ((try simp only [Prod.ext_iff] at *); (try casesm* _ ∧ _); (try subst_vars); first | (simp; done) | (simp_all; done) | skip)

@[simp] theorem readPage_frame (x0 x1 x2 x3 x4) : ((readPage x0 x1 x2 x3 x4)).1.text = x0.text ∧
    ((readPage x0 x1 x2 x3 x4)).1.flash = x0.flash ∧ ((readPage x0 x1 x2 x3 x4)).1.power = x0.power ∧
    ((readPage x0 x1 x2 x3 x4)).1.limits = x0.limits ∧ ((readPage x0 x1 x2 x3 x4)).1.fuses = x0.fuses ∧
    ((readPage x0 x1 x2 x3 x4)).1.shelfSkips = x0.shelfSkips ∧ ((readPage x0 x1 x2 x3 x4)).1.shelfCuts = x0.shelfCuts ∧
    ((readPage x0 x1 x2 x3 x4)).1.pending = x0.pending := by
  simp only [readPage]
  repeat' split
  all_goals ((try simp only [Prod.ext_iff] at *); (try casesm* _ ∧ _); (try subst_vars); first | (simp; done) | (simp_all; done) | skip)

@[simp] theorem kvPageWrite_frame (x0 x1 x2 x3 x4) : (kvPageWrite x0 x1 x2 x3 x4).text = x0.text ∧
    (kvPageWrite x0 x1 x2 x3 x4).flash = x0.flash ∧ (kvPageWrite x0 x1 x2 x3 x4).power = x0.power ∧
    (kvPageWrite x0 x1 x2 x3 x4).limits = x0.limits ∧ (kvPageWrite x0 x1 x2 x3 x4).fuses = x0.fuses ∧
    (kvPageWrite x0 x1 x2 x3 x4).shelfSkips = x0.shelfSkips ∧ (kvPageWrite x0 x1 x2 x3 x4).shelfCuts = x0.shelfCuts ∧
    (kvPageWrite x0 x1 x2 x3 x4).pending = x0.pending := by
  simp only [kvPageWrite]
  repeat' split
  all_goals ((try simp only [Prod.ext_iff] at *); (try casesm* _ ∧ _); (try subst_vars); (try simp))

theorem execKvPageWrite_frame (x0 x1 x2 x3 x4) : ∀ t, (execKvPageWrite x0 x1 x2 x3 x4) = .next t → t.text = x4.text ∧ t.flash = x4.flash ∧
    t.power = x4.power ∧ t.limits = x4.limits ∧ t.fuses = x4.fuses ∧ t.shelfSkips = x4.shelfSkips ∧ t.shelfCuts = x4.shelfCuts ∧
    t.pending = x4.pending := by simp [execKvPageWrite]

@[simp] theorem sendRecords_frame (x0 x1 x2) : (sendRecords x0 x1 x2).tier = x0.tier ∧ (sendRecords x0 x1 x2).engines = x0.engines ∧
    (sendRecords x0 x1 x2).text = x0.text ∧ (sendRecords x0 x1 x2).pair = x0.pair ∧ (sendRecords x0 x1 x2).flash = x0.flash ∧
    (sendRecords x0 x1 x2).power = x0.power ∧ (sendRecords x0 x1 x2).limits = x0.limits ∧ (sendRecords x0 x1 x2).fuses = x0.fuses ∧
    (sendRecords x0 x1 x2).shelfSkips = x0.shelfSkips ∧ (sendRecords x0 x1 x2).shelfCuts = x0.shelfCuts ∧
    (sendRecords x0 x1 x2).free = x0.free ∧ (sendRecords x0 x1 x2).pending = x0.pending := by
  simp only [sendRecords]
  repeat' split
  all_goals ((try simp only [Prod.ext_iff] at *); (try casesm* _ ∧ _); (try subst_vars); first | (simp; done) | (simp_all; done) | skip)

@[simp] theorem finishStripe_frame (x0 x1 x2 x3 x4) : (finishStripe x0 x1 x2 x3 x4).tier = x0.tier ∧
    (finishStripe x0 x1 x2 x3 x4).engines = x0.engines ∧ (finishStripe x0 x1 x2 x3 x4).text = x0.text ∧
    (finishStripe x0 x1 x2 x3 x4).pair = x0.pair ∧ (finishStripe x0 x1 x2 x3 x4).flash = x0.flash ∧
    (finishStripe x0 x1 x2 x3 x4).power = x0.power ∧ (finishStripe x0 x1 x2 x3 x4).limits = x0.limits ∧
    (finishStripe x0 x1 x2 x3 x4).fuses = x0.fuses ∧ (finishStripe x0 x1 x2 x3 x4).shelfSkips = x0.shelfSkips ∧
    (finishStripe x0 x1 x2 x3 x4).shelfCuts = x0.shelfCuts ∧ (finishStripe x0 x1 x2 x3 x4).free = x0.free ∧
    (finishStripe x0 x1 x2 x3 x4).pending = x0.pending := by
  unfold finishStripe
  simp only []
  repeat' split
  all_goals try simp only [setStep_frame]
  all_goals first | (simp; done) | refine ⟨?_, ?_, ?_, ?_, ?_, ?_, ?_, ?_, ?_, ?_, ?_, ?_⟩
  all_goals (first | refine (State.foldl_tier (fun _ _ => ?_) _ _).trans ?_ | refine (State.foldl_engines (fun _ _ => ?_) _ _).trans ?_ | refine (State.foldl_text (fun _ _ => ?_) _ _).trans ?_ | refine (State.foldl_pair (fun _ _ => ?_) _ _).trans ?_ | refine (State.foldl_flash (fun _ _ => ?_) _ _).trans ?_ | refine (State.foldl_power (fun _ _ => ?_) _ _).trans ?_ | refine (State.foldl_limits (fun _ _ => ?_) _ _).trans ?_ | refine (State.foldl_fuses (fun _ _ => ?_) _ _).trans ?_ | refine (State.foldl_shelfSkips (fun _ _ => ?_) _ _).trans ?_ | refine (State.foldl_shelfCuts (fun _ _ => ?_) _ _).trans ?_ | refine (State.foldl_free (fun _ _ => ?_) _ _).trans ?_ | refine (State.foldl_pending (fun _ _ => ?_) _ _).trans ?_)
  all_goals first | (simp; done) | (split <;> simp)

@[simp] theorem attentionPage_frame (x0 x1) : (attentionPage x0 x1).text = x0.text ∧ (attentionPage x0 x1).flash = x0.flash ∧
    (attentionPage x0 x1).power = x0.power ∧ (attentionPage x0 x1).limits = x0.limits ∧ (attentionPage x0 x1).fuses = x0.fuses ∧
    (attentionPage x0 x1).shelfSkips = x0.shelfSkips ∧ (attentionPage x0 x1).shelfCuts = x0.shelfCuts ∧
    (attentionPage x0 x1).pending = x0.pending := by
  simp only [attentionPage]
  repeat' split
  all_goals ((try simp only [Prod.ext_iff] at *); (try casesm* _ ∧ _); (try subst_vars); (try simp))

theorem execAttentionPagePartial_frame (x0 x1) : ∀ t, (execAttentionPagePartial x0 x1) = .next t → t.text = x1.text ∧ t.flash = x1.flash ∧
    t.power = x1.power ∧ t.limits = x1.limits ∧ t.fuses = x1.fuses ∧ t.shelfSkips = x1.shelfSkips ∧ t.shelfCuts = x1.shelfCuts ∧
    t.pending = x1.pending := by simp [execAttentionPagePartial]

@[simp] theorem draftToken_frame (x0 x1 x2 x3 x4) : (draftToken x0 x1 x2 x3 x4).fabric = x0.fabric ∧
    (draftToken x0 x1 x2 x3 x4).store = x0.store ∧ (draftToken x0 x1 x2 x3 x4).tier = x0.tier ∧
    (draftToken x0 x1 x2 x3 x4).engines = x0.engines ∧ (draftToken x0 x1 x2 x3 x4).host = x0.host ∧
    (draftToken x0 x1 x2 x3 x4).text = x0.text ∧ (draftToken x0 x1 x2 x3 x4).pair = x0.pair ∧ (draftToken x0 x1 x2 x3 x4).flash = x0.flash ∧
    (draftToken x0 x1 x2 x3 x4).bureau = x0.bureau ∧ (draftToken x0 x1 x2 x3 x4).power = x0.power ∧
    (draftToken x0 x1 x2 x3 x4).limits = x0.limits ∧ (draftToken x0 x1 x2 x3 x4).fuses = x0.fuses ∧
    (draftToken x0 x1 x2 x3 x4).shelfSkips = x0.shelfSkips ∧ (draftToken x0 x1 x2 x3 x4).shelfCuts = x0.shelfCuts ∧
    (draftToken x0 x1 x2 x3 x4).free = x0.free ∧ (draftToken x0 x1 x2 x3 x4).pending = x0.pending := by
  simp only [draftToken]
  repeat' split
  all_goals ((try simp only [Prod.ext_iff] at *); (try casesm* _ ∧ _); (try subst_vars); (try simp))

@[simp] theorem targetToken_frame (x0 x1 x2 x3 x4) : (targetToken x0 x1 x2 x3 x4).fabric = x0.fabric ∧
    (targetToken x0 x1 x2 x3 x4).store = x0.store ∧ (targetToken x0 x1 x2 x3 x4).tier = x0.tier ∧
    (targetToken x0 x1 x2 x3 x4).engines = x0.engines ∧ (targetToken x0 x1 x2 x3 x4).host = x0.host ∧
    (targetToken x0 x1 x2 x3 x4).text = x0.text ∧ (targetToken x0 x1 x2 x3 x4).pair = x0.pair ∧
    (targetToken x0 x1 x2 x3 x4).flash = x0.flash ∧ (targetToken x0 x1 x2 x3 x4).bureau = x0.bureau ∧
    (targetToken x0 x1 x2 x3 x4).power = x0.power ∧ (targetToken x0 x1 x2 x3 x4).limits = x0.limits ∧
    (targetToken x0 x1 x2 x3 x4).fuses = x0.fuses ∧ (targetToken x0 x1 x2 x3 x4).shelfSkips = x0.shelfSkips ∧
    (targetToken x0 x1 x2 x3 x4).shelfCuts = x0.shelfCuts ∧ (targetToken x0 x1 x2 x3 x4).free = x0.free ∧
    (targetToken x0 x1 x2 x3 x4).pending = x0.pending := by
  simp only [targetToken]
  repeat' split
  all_goals ((try simp only [Prod.ext_iff] at *); (try casesm* _ ∧ _); (try subst_vars); (try simp))

@[simp] theorem sampleToken_frame (x0 x1 x2 x3 x4 x5) : (sampleToken x0 x1 x2 x3 x4 x5).fabric = x0.fabric ∧
    (sampleToken x0 x1 x2 x3 x4 x5).store = x0.store ∧ (sampleToken x0 x1 x2 x3 x4 x5).tier = x0.tier ∧
    (sampleToken x0 x1 x2 x3 x4 x5).host = x0.host ∧ (sampleToken x0 x1 x2 x3 x4 x5).text = x0.text ∧
    (sampleToken x0 x1 x2 x3 x4 x5).pair = x0.pair ∧ (sampleToken x0 x1 x2 x3 x4 x5).flash = x0.flash ∧
    (sampleToken x0 x1 x2 x3 x4 x5).bureau = x0.bureau ∧ (sampleToken x0 x1 x2 x3 x4 x5).power = x0.power ∧
    (sampleToken x0 x1 x2 x3 x4 x5).limits = x0.limits ∧ (sampleToken x0 x1 x2 x3 x4 x5).fuses = x0.fuses ∧
    (sampleToken x0 x1 x2 x3 x4 x5).shelfSkips = x0.shelfSkips ∧ (sampleToken x0 x1 x2 x3 x4 x5).shelfCuts = x0.shelfCuts ∧
    (sampleToken x0 x1 x2 x3 x4 x5).free = x0.free ∧ (sampleToken x0 x1 x2 x3 x4 x5).pending = x0.pending := by
  simp only [sampleToken]
  repeat' split
  all_goals ((try simp only [Prod.ext_iff] at *); (try casesm* _ ∧ _); (try subst_vars); (try simp))

theorem execSampleToken_frame (x0 x1 x2 x3 x4 x5) : ∀ t, (execSampleToken x0 x1 x2 x3 x4 x5) = .next t → t.fabric = x5.fabric ∧
    t.store = x5.store ∧ t.tier = x5.tier ∧ t.host = x5.host ∧ t.text = x5.text ∧ t.pair = x5.pair ∧ t.flash = x5.flash ∧
    t.bureau = x5.bureau ∧ t.power = x5.power ∧ t.limits = x5.limits ∧ t.fuses = x5.fuses ∧ t.shelfSkips = x5.shelfSkips ∧
    t.shelfCuts = x5.shelfCuts ∧ t.free = x5.free ∧ t.pending = x5.pending := by simp [execSampleToken]

@[simp] theorem putRecords_frame (x0 x1 x2 x3) : (putRecords x0 x1 x2 x3).tier = x0.tier ∧ (putRecords x0 x1 x2 x3).engines = x0.engines ∧
    (putRecords x0 x1 x2 x3).text = x0.text ∧ (putRecords x0 x1 x2 x3).pair = x0.pair ∧ (putRecords x0 x1 x2 x3).flash = x0.flash ∧
    (putRecords x0 x1 x2 x3).power = x0.power ∧ (putRecords x0 x1 x2 x3).limits = x0.limits ∧ (putRecords x0 x1 x2 x3).fuses = x0.fuses ∧
    (putRecords x0 x1 x2 x3).shelfSkips = x0.shelfSkips ∧ (putRecords x0 x1 x2 x3).shelfCuts = x0.shelfCuts ∧
    (putRecords x0 x1 x2 x3).free = x0.free ∧ (putRecords x0 x1 x2 x3).pending = x0.pending := by simp [putRecords]

@[simp] theorem drawServe_frame (x0 x1) : (drawServe x0 x1).tier = x0.tier ∧ (drawServe x0 x1).engines = x0.engines ∧
    (drawServe x0 x1).text = x0.text ∧ (drawServe x0 x1).pair = x0.pair ∧ (drawServe x0 x1).flash = x0.flash ∧
    (drawServe x0 x1).power = x0.power ∧ (drawServe x0 x1).limits = x0.limits ∧ (drawServe x0 x1).fuses = x0.fuses ∧
    (drawServe x0 x1).shelfSkips = x0.shelfSkips ∧ (drawServe x0 x1).shelfCuts = x0.shelfCuts ∧ (drawServe x0 x1).free = x0.free ∧
    (drawServe x0 x1).pending = x0.pending := by simp [drawServe]

theorem execDrawPortServe_frame (x0 x1) : ∀ t, (execDrawPortServe x0 x1) = .next t → t.tier = x1.tier ∧ t.engines = x1.engines ∧
    t.text = x1.text ∧ t.pair = x1.pair ∧ t.flash = x1.flash ∧ t.power = x1.power ∧ t.limits = x1.limits ∧ t.fuses = x1.fuses ∧
    t.shelfSkips = x1.shelfSkips ∧ t.shelfCuts = x1.shelfCuts ∧ t.free = x1.free ∧ t.pending = x1.pending := by simp [execDrawPortServe]

@[simp] theorem maskRequest_frame (x0 x1 x2) : (maskRequest x0 x1 x2).engines = x0.engines ∧ (maskRequest x0 x1 x2).flash = x0.flash ∧ (maskRequest x0 x1 x2).power = x0.power ∧
    (maskRequest x0 x1 x2).limits = x0.limits ∧ (maskRequest x0 x1 x2).fuses = x0.fuses ∧ (maskRequest x0 x1 x2).shelfSkips = x0.shelfSkips ∧
    (maskRequest x0 x1 x2).shelfCuts = x0.shelfCuts ∧ (maskRequest x0 x1 x2).pending = x0.pending := by
  simp only [maskRequest]
  repeat' split
  all_goals ((try simp only [Prod.ext_iff] at *); (try casesm* _ ∧ _); (try subst_vars); (try simp))

theorem execGrammarMaskRequest_frame (x0 x1 x2) : ∀ t, (execGrammarMaskRequest x0 x1 x2) = .next t → t.engines = x2.engines ∧ t.flash = x2.flash ∧ t.power = x2.power ∧ t.limits = x2.limits ∧ t.fuses = x2.fuses ∧ t.shelfSkips = x2.shelfSkips ∧
    t.shelfCuts = x2.shelfCuts ∧ t.pending = x2.pending := by simp [execGrammarMaskRequest]

@[simp] theorem writeImages_frame (x0 x1 x2) : (writeImages x0 x1 x2).tier = x0.tier ∧ (writeImages x0 x1 x2).engines = x0.engines ∧ (writeImages x0 x1 x2).text = x0.text ∧
    (writeImages x0 x1 x2).pair = x0.pair ∧ (writeImages x0 x1 x2).flash = x0.flash ∧ (writeImages x0 x1 x2).power = x0.power ∧
    (writeImages x0 x1 x2).limits = x0.limits ∧ (writeImages x0 x1 x2).fuses = x0.fuses ∧ (writeImages x0 x1 x2).shelfSkips = x0.shelfSkips ∧
    (writeImages x0 x1 x2).shelfCuts = x0.shelfCuts ∧ (writeImages x0 x1 x2).free = x0.free ∧ (writeImages x0 x1 x2).pending = x0.pending := by simp [writeImages]

@[simp] theorem checkRecordWrite_frame (x0 x1 x2) : (checkRecordWrite x0 x1 x2).tier = x0.tier ∧ (checkRecordWrite x0 x1 x2).engines = x0.engines ∧ (checkRecordWrite x0 x1 x2).text = x0.text ∧
    (checkRecordWrite x0 x1 x2).pair = x0.pair ∧ (checkRecordWrite x0 x1 x2).flash = x0.flash ∧ (checkRecordWrite x0 x1 x2).power = x0.power ∧
    (checkRecordWrite x0 x1 x2).limits = x0.limits ∧ (checkRecordWrite x0 x1 x2).fuses = x0.fuses ∧ (checkRecordWrite x0 x1 x2).shelfSkips = x0.shelfSkips ∧
    (checkRecordWrite x0 x1 x2).shelfCuts = x0.shelfCuts ∧ (checkRecordWrite x0 x1 x2).free = x0.free ∧ (checkRecordWrite x0 x1 x2).pending = x0.pending := by simp [checkRecordWrite]

theorem execCheckRecordWrite_frame (x0 x1 x2) : ∀ t, (execCheckRecordWrite x0 x1 x2) = .next t → t.tier = x2.tier ∧ t.engines = x2.engines ∧ t.text = x2.text ∧ t.pair = x2.pair ∧ t.flash = x2.flash ∧ t.power = x2.power ∧
    t.limits = x2.limits ∧ t.fuses = x2.fuses ∧ t.shelfSkips = x2.shelfSkips ∧ t.shelfCuts = x2.shelfCuts ∧ t.free = x2.free ∧ t.pending = x2.pending := by simp [execCheckRecordWrite]

end Sys2Proof.Machine
end

