-- ==== Sys2Proof/Laws/FrameSteps.lean ====
section
/-! SUPPORT. Frames of the operations and meanings of slots, integrity, boundaries and programs: the parts of the state that each leaves as they are. -/

set_option linter.unusedSimpArgs false
set_option linter.unusedTactic false
set_option linter.unreachableTactic false
set_option linter.unnecessarySeqFocus false
set_option linter.unusedVariables false

namespace Sys2Proof.Machine

/-! ## Slots -/

@[simp] theorem freePages_frame (x0 x1 x2) : (freePages x0 x1 x2).fabric = x0.fabric ∧ (freePages x0 x1 x2).store = x0.store ∧
    (freePages x0 x1 x2).tier = x0.tier ∧ (freePages x0 x1 x2).engines = x0.engines ∧ (freePages x0 x1 x2).host = x0.host ∧
    (freePages x0 x1 x2).text = x0.text ∧ (freePages x0 x1 x2).pair = x0.pair ∧ (freePages x0 x1 x2).flash = x0.flash ∧
    (freePages x0 x1 x2).bureau = x0.bureau ∧ (freePages x0 x1 x2).power = x0.power ∧ (freePages x0 x1 x2).limits = x0.limits ∧
    (freePages x0 x1 x2).fuses = x0.fuses ∧ (freePages x0 x1 x2).shelfSkips = x0.shelfSkips ∧ (freePages x0 x1 x2).shelfCuts = x0.shelfCuts ∧
    (freePages x0 x1 x2).free = x0.free ∧ (freePages x0 x1 x2).pending = x0.pending := by simp [freePages]

@[simp] theorem freeVersions_frame (x0) : (freeVersions x0).fabric = x0.fabric ∧ (freeVersions x0).store = x0.store ∧
    (freeVersions x0).tier = x0.tier ∧ (freeVersions x0).engines = x0.engines ∧ (freeVersions x0).host = x0.host ∧
    (freeVersions x0).text = x0.text ∧ (freeVersions x0).pair = x0.pair ∧ (freeVersions x0).flash = x0.flash ∧
    (freeVersions x0).bureau = x0.bureau ∧ (freeVersions x0).power = x0.power ∧ (freeVersions x0).limits = x0.limits ∧
    (freeVersions x0).fuses = x0.fuses ∧ (freeVersions x0).shelfSkips = x0.shelfSkips ∧ (freeVersions x0).shelfCuts = x0.shelfCuts ∧
    (freeVersions x0).free = x0.free ∧ (freeVersions x0).pending = x0.pending := by simp [freeVersions]

@[simp] theorem setAdapter_frame (x0 x1 x2) : (setAdapter x0 x1 x2).fabric = x0.fabric ∧ (setAdapter x0 x1 x2).store = x0.store ∧
    (setAdapter x0 x1 x2).tier = x0.tier ∧ (setAdapter x0 x1 x2).engines = x0.engines ∧ (setAdapter x0 x1 x2).host = x0.host ∧
    (setAdapter x0 x1 x2).text = x0.text ∧ (setAdapter x0 x1 x2).pair = x0.pair ∧ (setAdapter x0 x1 x2).flash = x0.flash ∧
    (setAdapter x0 x1 x2).bureau = x0.bureau ∧ (setAdapter x0 x1 x2).power = x0.power ∧ (setAdapter x0 x1 x2).limits = x0.limits ∧
    (setAdapter x0 x1 x2).fuses = x0.fuses ∧ (setAdapter x0 x1 x2).shelfSkips = x0.shelfSkips ∧
    (setAdapter x0 x1 x2).shelfCuts = x0.shelfCuts ∧ (setAdapter x0 x1 x2).free = x0.free ∧ (setAdapter x0 x1 x2).pending = x0.pending := by unfold setAdapter; split <;> simp

@[simp] theorem unbindAdapter_frame (x0 x1) : (unbindAdapter x0 x1).fabric = x0.fabric ∧ (unbindAdapter x0 x1).store = x0.store ∧
    (unbindAdapter x0 x1).tier = x0.tier ∧ (unbindAdapter x0 x1).engines = x0.engines ∧ (unbindAdapter x0 x1).host = x0.host ∧
    (unbindAdapter x0 x1).text = x0.text ∧ (unbindAdapter x0 x1).pair = x0.pair ∧ (unbindAdapter x0 x1).flash = x0.flash ∧
    (unbindAdapter x0 x1).bureau = x0.bureau ∧ (unbindAdapter x0 x1).power = x0.power ∧ (unbindAdapter x0 x1).limits = x0.limits ∧
    (unbindAdapter x0 x1).fuses = x0.fuses ∧ (unbindAdapter x0 x1).shelfSkips = x0.shelfSkips ∧
    (unbindAdapter x0 x1).shelfCuts = x0.shelfCuts ∧ (unbindAdapter x0 x1).free = x0.free ∧ (unbindAdapter x0 x1).pending = x0.pending := by unfold unbindAdapter; split <;> simp

@[simp] theorem endSlot_frame (x0 x1 x2 x3 x4) : (endSlot x0 x1 x2 x3 x4).fabric = x0.fabric ∧ (endSlot x0 x1 x2 x3 x4).store = x0.store ∧
    (endSlot x0 x1 x2 x3 x4).tier = x0.tier ∧ (endSlot x0 x1 x2 x3 x4).engines = x0.engines ∧ (endSlot x0 x1 x2 x3 x4).host = x0.host ∧
    (endSlot x0 x1 x2 x3 x4).text = x0.text ∧ (endSlot x0 x1 x2 x3 x4).pair = x0.pair ∧ (endSlot x0 x1 x2 x3 x4).flash = x0.flash ∧
    (endSlot x0 x1 x2 x3 x4).bureau = x0.bureau ∧ (endSlot x0 x1 x2 x3 x4).power = x0.power ∧ (endSlot x0 x1 x2 x3 x4).limits = x0.limits ∧
    (endSlot x0 x1 x2 x3 x4).fuses = x0.fuses ∧ (endSlot x0 x1 x2 x3 x4).shelfSkips = x0.shelfSkips ∧
    (endSlot x0 x1 x2 x3 x4).shelfCuts = x0.shelfCuts ∧ (endSlot x0 x1 x2 x3 x4).free = x0.free ∧
    (endSlot x0 x1 x2 x3 x4).pending = x0.pending := by simp [endSlot]

@[simp] theorem finalSeq_frame (x0 x1 x2 x3) : (finalSeq x0 x1 x2 x3).fabric = x0.fabric ∧ (finalSeq x0 x1 x2 x3).store = x0.store ∧
    (finalSeq x0 x1 x2 x3).tier = x0.tier ∧ (finalSeq x0 x1 x2 x3).engines = x0.engines ∧ (finalSeq x0 x1 x2 x3).text = x0.text ∧
    (finalSeq x0 x1 x2 x3).flash = x0.flash ∧ (finalSeq x0 x1 x2 x3).bureau = x0.bureau ∧ (finalSeq x0 x1 x2 x3).power = x0.power ∧
    (finalSeq x0 x1 x2 x3).limits = x0.limits ∧ (finalSeq x0 x1 x2 x3).fuses = x0.fuses ∧ (finalSeq x0 x1 x2 x3).shelfSkips = x0.shelfSkips ∧
    (finalSeq x0 x1 x2 x3).shelfCuts = x0.shelfCuts ∧ (finalSeq x0 x1 x2 x3).pending = x0.pending := by unfold finalSeq; split <;> simp

@[simp] theorem endWaiting_frame (x0 x1 x2 x3 x4) : (endWaiting x0 x1 x2 x3 x4).fabric = x0.fabric ∧
    (endWaiting x0 x1 x2 x3 x4).tier = x0.tier ∧ (endWaiting x0 x1 x2 x3 x4).engines = x0.engines ∧
    (endWaiting x0 x1 x2 x3 x4).text = x0.text ∧ (endWaiting x0 x1 x2 x3 x4).flash = x0.flash ∧
    (endWaiting x0 x1 x2 x3 x4).bureau = x0.bureau ∧ (endWaiting x0 x1 x2 x3 x4).power = x0.power ∧
    (endWaiting x0 x1 x2 x3 x4).limits = x0.limits ∧ (endWaiting x0 x1 x2 x3 x4).fuses = x0.fuses ∧
    (endWaiting x0 x1 x2 x3 x4).shelfSkips = x0.shelfSkips ∧ (endWaiting x0 x1 x2 x3 x4).shelfCuts = x0.shelfCuts ∧
    (endWaiting x0 x1 x2 x3 x4).pending = x0.pending := by unfold endWaiting; split <;> simp

@[simp] theorem endItem_frame (x0 x1 x2 x3) : (endItem x0 x1 x2 x3).fabric = x0.fabric ∧ (endItem x0 x1 x2 x3).engines = x0.engines ∧
    (endItem x0 x1 x2 x3).text = x0.text ∧ (endItem x0 x1 x2 x3).flash = x0.flash ∧ (endItem x0 x1 x2 x3).power = x0.power ∧
    (endItem x0 x1 x2 x3).limits = x0.limits ∧ (endItem x0 x1 x2 x3).fuses = x0.fuses ∧ (endItem x0 x1 x2 x3).shelfSkips = x0.shelfSkips ∧
    (endItem x0 x1 x2 x3).shelfCuts = x0.shelfCuts ∧ (endItem x0 x1 x2 x3).pending = x0.pending := by unfold endItem; split <;> simp

@[simp] theorem removeItems_frame (x0 x1 x2 x3) : (removeItems x0 x1 x2 x3).fabric = x0.fabric ∧
    (removeItems x0 x1 x2 x3).engines = x0.engines ∧ (removeItems x0 x1 x2 x3).text = x0.text ∧ (removeItems x0 x1 x2 x3).flash = x0.flash ∧
    (removeItems x0 x1 x2 x3).power = x0.power ∧ (removeItems x0 x1 x2 x3).limits = x0.limits ∧ (removeItems x0 x1 x2 x3).fuses = x0.fuses ∧
    (removeItems x0 x1 x2 x3).shelfSkips = x0.shelfSkips ∧ (removeItems x0 x1 x2 x3).shelfCuts = x0.shelfCuts ∧
    (removeItems x0 x1 x2 x3).pending = x0.pending := by simp [removeItems]

@[simp] theorem removeRequest_frame (x0 x1 x2 x3) : (removeRequest x0 x1 x2 x3).fabric = x0.fabric ∧
    (removeRequest x0 x1 x2 x3).engines = x0.engines ∧ (removeRequest x0 x1 x2 x3).text = x0.text ∧
    (removeRequest x0 x1 x2 x3).flash = x0.flash ∧ (removeRequest x0 x1 x2 x3).power = x0.power ∧
    (removeRequest x0 x1 x2 x3).limits = x0.limits ∧ (removeRequest x0 x1 x2 x3).fuses = x0.fuses ∧
    (removeRequest x0 x1 x2 x3).shelfSkips = x0.shelfSkips ∧ (removeRequest x0 x1 x2 x3).shelfCuts = x0.shelfCuts ∧
    (removeRequest x0 x1 x2 x3).pending = x0.pending := by simp [removeRequest]

@[simp] theorem leaveStep_frame (x0 x1 x2) : (leaveStep x0 x1 x2).fabric = x0.fabric ∧ (leaveStep x0 x1 x2).engines = x0.engines ∧
    (leaveStep x0 x1 x2).text = x0.text ∧ (leaveStep x0 x1 x2).flash = x0.flash ∧ (leaveStep x0 x1 x2).power = x0.power ∧
    (leaveStep x0 x1 x2).limits = x0.limits ∧ (leaveStep x0 x1 x2).fuses = x0.fuses ∧ (leaveStep x0 x1 x2).shelfSkips = x0.shelfSkips ∧
    (leaveStep x0 x1 x2).shelfCuts = x0.shelfCuts ∧ (leaveStep x0 x1 x2).pending = x0.pending := by simp [leaveStep]

@[simp] theorem endAll_frame (x0 x1 x2) : (endAll x0 x1 x2).fabric = x0.fabric ∧ (endAll x0 x1 x2).engines = x0.engines ∧
    (endAll x0 x1 x2).text = x0.text ∧ (endAll x0 x1 x2).flash = x0.flash ∧ (endAll x0 x1 x2).power = x0.power ∧
    (endAll x0 x1 x2).limits = x0.limits ∧ (endAll x0 x1 x2).fuses = x0.fuses ∧ (endAll x0 x1 x2).shelfSkips = x0.shelfSkips ∧
    (endAll x0 x1 x2).shelfCuts = x0.shelfCuts ∧ (endAll x0 x1 x2).pending = x0.pending := by simp [endAll]

@[simp] theorem slotFinal_frame (x0 x1 x2) : (slotFinal x0 x1 x2).fabric = x0.fabric ∧ (slotFinal x0 x1 x2).store = x0.store ∧
    (slotFinal x0 x1 x2).tier = x0.tier ∧ (slotFinal x0 x1 x2).engines = x0.engines ∧ (slotFinal x0 x1 x2).flash = x0.flash ∧
    (slotFinal x0 x1 x2).power = x0.power ∧ (slotFinal x0 x1 x2).limits = x0.limits ∧ (slotFinal x0 x1 x2).fuses = x0.fuses ∧
    (slotFinal x0 x1 x2).shelfSkips = x0.shelfSkips ∧ (slotFinal x0 x1 x2).shelfCuts = x0.shelfCuts ∧
    (slotFinal x0 x1 x2).pending = x0.pending := by
  simp only [slotFinal]
  repeat' split
  all_goals ((try simp only [Prod.ext_iff] at *); (try casesm* _ ∧ _); (try subst_vars); (try simp))

theorem execSlotFinalRelease_frame (x0 x1 x2) : ∀ t, (execSlotFinalRelease x0 x1 x2) = .next t → t.fabric = x2.fabric ∧ t.store = x2.store ∧
    t.tier = x2.tier ∧ t.engines = x2.engines ∧ t.flash = x2.flash ∧ t.power = x2.power ∧ t.limits = x2.limits ∧ t.fuses = x2.fuses ∧
    t.shelfSkips = x2.shelfSkips ∧ t.shelfCuts = x2.shelfCuts ∧ t.pending = x2.pending := by simp [execSlotFinalRelease]

@[simp] theorem stopReport_frame (x0 x1 x2 x3 x4) : (stopReport x0 x1 x2 x3 x4).fabric = x0.fabric ∧
    (stopReport x0 x1 x2 x3 x4).store = x0.store ∧ (stopReport x0 x1 x2 x3 x4).tier = x0.tier ∧
    (stopReport x0 x1 x2 x3 x4).engines = x0.engines ∧ (stopReport x0 x1 x2 x3 x4).host = x0.host ∧
    (stopReport x0 x1 x2 x3 x4).text = x0.text ∧ (stopReport x0 x1 x2 x3 x4).pair = x0.pair ∧ (stopReport x0 x1 x2 x3 x4).flash = x0.flash ∧
    (stopReport x0 x1 x2 x3 x4).bureau = x0.bureau ∧ (stopReport x0 x1 x2 x3 x4).power = x0.power ∧
    (stopReport x0 x1 x2 x3 x4).limits = x0.limits ∧ (stopReport x0 x1 x2 x3 x4).fuses = x0.fuses ∧
    (stopReport x0 x1 x2 x3 x4).shelfSkips = x0.shelfSkips ∧ (stopReport x0 x1 x2 x3 x4).shelfCuts = x0.shelfCuts ∧
    (stopReport x0 x1 x2 x3 x4).free = x0.free ∧ (stopReport x0 x1 x2 x3 x4).pending = x0.pending := by simp [stopReport]

theorem execStopReport_frame (x0 x1 x2 x3 x4) : ∀ t, (execStopReport x0 x1 x2 x3 x4) = .next t → t.fabric = x4.fabric ∧ t.store = x4.store ∧
    t.tier = x4.tier ∧ t.engines = x4.engines ∧ t.host = x4.host ∧ t.text = x4.text ∧ t.pair = x4.pair ∧ t.flash = x4.flash ∧
    t.bureau = x4.bureau ∧ t.power = x4.power ∧ t.limits = x4.limits ∧ t.fuses = x4.fuses ∧ t.shelfSkips = x4.shelfSkips ∧
    t.shelfCuts = x4.shelfCuts ∧ t.free = x4.free ∧ t.pending = x4.pending := by simp [execStopReport]

@[simp] theorem matchedStep_frame (x0 x1 x2) : (matchedStep x0 x1 x2).fabric = x0.fabric ∧ (matchedStep x0 x1 x2).store = x0.store ∧
    (matchedStep x0 x1 x2).tier = x0.tier ∧ (matchedStep x0 x1 x2).engines = x0.engines ∧ (matchedStep x0 x1 x2).host = x0.host ∧
    (matchedStep x0 x1 x2).text = x0.text ∧ (matchedStep x0 x1 x2).pair = x0.pair ∧ (matchedStep x0 x1 x2).flash = x0.flash ∧
    (matchedStep x0 x1 x2).bureau = x0.bureau ∧ (matchedStep x0 x1 x2).power = x0.power ∧ (matchedStep x0 x1 x2).limits = x0.limits ∧
    (matchedStep x0 x1 x2).fuses = x0.fuses ∧ (matchedStep x0 x1 x2).shelfSkips = x0.shelfSkips ∧
    (matchedStep x0 x1 x2).shelfCuts = x0.shelfCuts ∧ (matchedStep x0 x1 x2).free = x0.free ∧ (matchedStep x0 x1 x2).pending = x0.pending := by
  simp only [matchedStep]
  repeat' split
  all_goals (refine ⟨?_, ?_, ?_, ?_, ?_, ?_, ?_, ?_, ?_, ?_, ?_, ?_, ?_, ?_, ?_, ?_⟩)
  all_goals (try (first | refine (State.foldl_fabric (fun _ _ => ?_) _ _).trans ?_ | refine (State.foldl_store (fun _ _ => ?_) _ _).trans ?_ | refine (State.foldl_tier (fun _ _ => ?_) _ _).trans ?_ | refine (State.foldl_engines (fun _ _ => ?_) _ _).trans ?_ | refine (State.foldl_host (fun _ _ => ?_) _ _).trans ?_ | refine (State.foldl_text (fun _ _ => ?_) _ _).trans ?_ | refine (State.foldl_pair (fun _ _ => ?_) _ _).trans ?_ | refine (State.foldl_flash (fun _ _ => ?_) _ _).trans ?_ | refine (State.foldl_bureau (fun _ _ => ?_) _ _).trans ?_ | refine (State.foldl_power (fun _ _ => ?_) _ _).trans ?_ | refine (State.foldl_limits (fun _ _ => ?_) _ _).trans ?_ | refine (State.foldl_fuses (fun _ _ => ?_) _ _).trans ?_ | refine (State.foldl_shelfSkips (fun _ _ => ?_) _ _).trans ?_ | refine (State.foldl_shelfCuts (fun _ _ => ?_) _ _).trans ?_ | refine (State.foldl_free (fun _ _ => ?_) _ _).trans ?_ | refine (State.foldl_pending (fun _ _ => ?_) _ _).trans ?_ ))
  all_goals (repeat' split)
  all_goals ((try simp only [Prod.ext_iff] at *); (try casesm* _ ∧ _); (try subst_vars); first | (simp; done) | (simp_all; done) | skip)

theorem execMatched_frame (x0 x1 x2) : ∀ t, (execMatched x0 x1 x2) = .next t → t.fabric = x2.fabric ∧ t.store = x2.store ∧ t.tier = x2.tier ∧
    t.engines = x2.engines ∧ t.host = x2.host ∧ t.text = x2.text ∧ t.pair = x2.pair ∧ t.flash = x2.flash ∧ t.bureau = x2.bureau ∧
    t.power = x2.power ∧ t.limits = x2.limits ∧ t.fuses = x2.fuses ∧ t.shelfSkips = x2.shelfSkips ∧ t.shelfCuts = x2.shelfCuts ∧
    t.free = x2.free ∧ t.pending = x2.pending := by simp [execMatched]

/-! ## Integrity -/

@[simp] theorem keepFault_frame (x0 x1 x2) : (keepFault x0 x1 x2).fabric = x0.fabric ∧ (keepFault x0 x1 x2).store = x0.store ∧
    (keepFault x0 x1 x2).tier = x0.tier ∧ (keepFault x0 x1 x2).host = x0.host ∧ (keepFault x0 x1 x2).gen = x0.gen ∧
    (keepFault x0 x1 x2).text = x0.text ∧ (keepFault x0 x1 x2).pair = x0.pair ∧ (keepFault x0 x1 x2).flash = x0.flash ∧
    (keepFault x0 x1 x2).bureau = x0.bureau ∧ (keepFault x0 x1 x2).power = x0.power ∧ (keepFault x0 x1 x2).limits = x0.limits ∧
    (keepFault x0 x1 x2).fuses = x0.fuses ∧ (keepFault x0 x1 x2).shelfSkips = x0.shelfSkips ∧ (keepFault x0 x1 x2).shelfCuts = x0.shelfCuts ∧
    (keepFault x0 x1 x2).free = x0.free ∧ (keepFault x0 x1 x2).pending = x0.pending := by simp [keepFault]

@[simp] theorem blockFault_frame (x0 x1 x2 x3) : (blockFault x0 x1 x2 x3).fabric = x0.fabric ∧ (blockFault x0 x1 x2 x3).store = x0.store ∧
    (blockFault x0 x1 x2 x3).tier = x0.tier ∧ (blockFault x0 x1 x2 x3).engines = x0.engines ∧ (blockFault x0 x1 x2 x3).text = x0.text ∧
    (blockFault x0 x1 x2 x3).pair = x0.pair ∧ (blockFault x0 x1 x2 x3).flash = x0.flash ∧ (blockFault x0 x1 x2 x3).power = x0.power ∧
    (blockFault x0 x1 x2 x3).limits = x0.limits ∧ (blockFault x0 x1 x2 x3).fuses = x0.fuses ∧
    (blockFault x0 x1 x2 x3).shelfSkips = x0.shelfSkips ∧ (blockFault x0 x1 x2 x3).shelfCuts = x0.shelfCuts ∧
    (blockFault x0 x1 x2 x3).pending = x0.pending := by simp [blockFault]

@[simp] theorem retireEngine_frame (x0 x1 x2 x3) : (retireEngine x0 x1 x2 x3).fabric = x0.fabric ∧
    (retireEngine x0 x1 x2 x3).store = x0.store ∧ (retireEngine x0 x1 x2 x3).tier = x0.tier ∧ (retireEngine x0 x1 x2 x3).text = x0.text ∧
    (retireEngine x0 x1 x2 x3).pair = x0.pair ∧ (retireEngine x0 x1 x2 x3).flash = x0.flash ∧ (retireEngine x0 x1 x2 x3).power = x0.power ∧
    (retireEngine x0 x1 x2 x3).limits = x0.limits ∧ (retireEngine x0 x1 x2 x3).fuses = x0.fuses ∧
    (retireEngine x0 x1 x2 x3).shelfSkips = x0.shelfSkips ∧ (retireEngine x0 x1 x2 x3).shelfCuts = x0.shelfCuts ∧
    (retireEngine x0 x1 x2 x3).pending = x0.pending := by simp [retireEngine]

@[simp] theorem stepIdle_frame (x0 x1) : (stepIdle x0 x1).fabric = x0.fabric ∧ (stepIdle x0 x1).store = x0.store ∧
    (stepIdle x0 x1).tier = x0.tier ∧ (stepIdle x0 x1).engines = x0.engines ∧ (stepIdle x0 x1).host = x0.host ∧
    (stepIdle x0 x1).text = x0.text ∧ (stepIdle x0 x1).pair = x0.pair ∧ (stepIdle x0 x1).flash = x0.flash ∧
    (stepIdle x0 x1).bureau = x0.bureau ∧ (stepIdle x0 x1).power = x0.power ∧ (stepIdle x0 x1).limits = x0.limits ∧
    (stepIdle x0 x1).fuses = x0.fuses ∧ (stepIdle x0 x1).shelfSkips = x0.shelfSkips ∧ (stepIdle x0 x1).shelfCuts = x0.shelfCuts ∧
    (stepIdle x0 x1).free = x0.free ∧ (stepIdle x0 x1).pending = x0.pending := by simp [stepIdle]

@[simp] theorem failPartition_frame (x0 x1 x2) : (failPartition x0 x1 x2).fabric = x0.fabric ∧ (failPartition x0 x1 x2).engines = x0.engines ∧
    (failPartition x0 x1 x2).text = x0.text ∧ (failPartition x0 x1 x2).flash = x0.flash ∧ (failPartition x0 x1 x2).power = x0.power ∧
    (failPartition x0 x1 x2).limits = x0.limits ∧ (failPartition x0 x1 x2).fuses = x0.fuses ∧
    (failPartition x0 x1 x2).shelfSkips = x0.shelfSkips ∧ (failPartition x0 x1 x2).shelfCuts = x0.shelfCuts ∧
    (failPartition x0 x1 x2).pending = x0.pending := by simp [failPartition]

@[simp] theorem stepFailed_frame (x0 x1 x2) : (stepFailed x0 x1 x2).fabric = x0.fabric ∧ (stepFailed x0 x1 x2).engines = x0.engines ∧
    (stepFailed x0 x1 x2).text = x0.text ∧ (stepFailed x0 x1 x2).flash = x0.flash ∧ (stepFailed x0 x1 x2).power = x0.power ∧
    (stepFailed x0 x1 x2).limits = x0.limits ∧ (stepFailed x0 x1 x2).fuses = x0.fuses ∧ (stepFailed x0 x1 x2).shelfSkips = x0.shelfSkips ∧
    (stepFailed x0 x1 x2).shelfCuts = x0.shelfCuts ∧ (stepFailed x0 x1 x2).pending = x0.pending := by simp [stepFailed]

@[simp] theorem settleSent_frame (x0 x1 x2 x3) : (settleSent x0 x1 x2 x3).fabric = x0.fabric ∧ (settleSent x0 x1 x2 x3).store = x0.store ∧
    (settleSent x0 x1 x2 x3).tier = x0.tier ∧ (settleSent x0 x1 x2 x3).engines = x0.engines ∧ (settleSent x0 x1 x2 x3).gen = x0.gen ∧
    (settleSent x0 x1 x2 x3).text = x0.text ∧ (settleSent x0 x1 x2 x3).flash = x0.flash ∧ (settleSent x0 x1 x2 x3).bureau = x0.bureau ∧
    (settleSent x0 x1 x2 x3).power = x0.power ∧ (settleSent x0 x1 x2 x3).limits = x0.limits ∧ (settleSent x0 x1 x2 x3).fuses = x0.fuses ∧
    (settleSent x0 x1 x2 x3).shelfSkips = x0.shelfSkips ∧ (settleSent x0 x1 x2 x3).shelfCuts = x0.shelfCuts ∧
    (settleSent x0 x1 x2 x3).pending = x0.pending := by unfold settleSent; split <;> simp

@[simp] theorem broadcast_frame (x0 x1 x2 x3) : (broadcast x0 x1 x2 x3).store = x0.store ∧ (broadcast x0 x1 x2 x3).tier = x0.tier ∧
    (broadcast x0 x1 x2 x3).engines = x0.engines ∧ (broadcast x0 x1 x2 x3).host = x0.host ∧ (broadcast x0 x1 x2 x3).gen = x0.gen ∧
    (broadcast x0 x1 x2 x3).text = x0.text ∧ (broadcast x0 x1 x2 x3).pair = x0.pair ∧ (broadcast x0 x1 x2 x3).flash = x0.flash ∧
    (broadcast x0 x1 x2 x3).bureau = x0.bureau ∧ (broadcast x0 x1 x2 x3).power = x0.power ∧ (broadcast x0 x1 x2 x3).limits = x0.limits ∧
    (broadcast x0 x1 x2 x3).fuses = x0.fuses ∧ (broadcast x0 x1 x2 x3).shelfSkips = x0.shelfSkips ∧
    (broadcast x0 x1 x2 x3).shelfCuts = x0.shelfCuts ∧ (broadcast x0 x1 x2 x3).free = x0.free ∧ (broadcast x0 x1 x2 x3).pending = x0.pending := by simp [broadcast]

@[simp] theorem refuse_frame (x0 x1 x2) : (refuse x0 x1 x2).fabric = x1.fabric ∧ (refuse x0 x1 x2).engines = x1.engines ∧
    (refuse x0 x1 x2).text = x1.text ∧ (refuse x0 x1 x2).flash = x1.flash ∧ (refuse x0 x1 x2).power = x1.power ∧
    (refuse x0 x1 x2).limits = x1.limits ∧ (refuse x0 x1 x2).fuses = x1.fuses ∧ (refuse x0 x1 x2).shelfSkips = x1.shelfSkips ∧
    (refuse x0 x1 x2).shelfCuts = x1.shelfCuts ∧ (refuse x0 x1 x2).pending = x1.pending := by simp [refuse]

@[simp] theorem removeRefused_frame (x0 x1) : (removeRefused x0 x1).fabric = x0.fabric ∧ (removeRefused x0 x1).engines = x0.engines ∧
    (removeRefused x0 x1).text = x0.text ∧ (removeRefused x0 x1).flash = x0.flash ∧ (removeRefused x0 x1).power = x0.power ∧
    (removeRefused x0 x1).limits = x0.limits ∧ (removeRefused x0 x1).fuses = x0.fuses ∧ (removeRefused x0 x1).shelfSkips = x0.shelfSkips ∧
    (removeRefused x0 x1).shelfCuts = x0.shelfCuts ∧ (removeRefused x0 x1).pending = x0.pending := by
  simp only [removeRefused]
  repeat' split
  all_goals ((try simp only [Prod.ext_iff] at *); (try casesm* _ ∧ _); (try subst_vars); (try simp))

@[simp] theorem removeSaturated_frame (x0 x1) : (removeSaturated x0 x1).fabric = x0.fabric ∧ (removeSaturated x0 x1).engines = x0.engines ∧
    (removeSaturated x0 x1).text = x0.text ∧ (removeSaturated x0 x1).flash = x0.flash ∧ (removeSaturated x0 x1).power = x0.power ∧
    (removeSaturated x0 x1).limits = x0.limits ∧ (removeSaturated x0 x1).fuses = x0.fuses ∧
    (removeSaturated x0 x1).shelfSkips = x0.shelfSkips ∧ (removeSaturated x0 x1).shelfCuts = x0.shelfCuts ∧
    (removeSaturated x0 x1).pending = x0.pending := by
  simp only [removeSaturated]
  repeat' split
  all_goals (refine ⟨?_, ?_, ?_, ?_, ?_, ?_, ?_, ?_, ?_, ?_⟩)
  all_goals (try (first | refine (State.foldl_fabric (fun _ _ => ?_) _ _).trans ?_ | refine (State.foldl_engines (fun _ _ => ?_) _ _).trans ?_ | refine (State.foldl_text (fun _ _ => ?_) _ _).trans ?_ | refine (State.foldl_flash (fun _ _ => ?_) _ _).trans ?_ | refine (State.foldl_power (fun _ _ => ?_) _ _).trans ?_ | refine (State.foldl_limits (fun _ _ => ?_) _ _).trans ?_ | refine (State.foldl_fuses (fun _ _ => ?_) _ _).trans ?_ | refine (State.foldl_shelfSkips (fun _ _ => ?_) _ _).trans ?_ | refine (State.foldl_shelfCuts (fun _ _ => ?_) _ _).trans ?_ | refine (State.foldl_pending (fun _ _ => ?_) _ _).trans ?_ ))
  all_goals (repeat' split)
  all_goals ((try simp only [Prod.ext_iff] at *); (try casesm* _ ∧ _); (try subst_vars); first | (simp; done) | (simp_all; done) | skip)

@[simp] theorem clearAttempt_frame (x0 x1) : (clearAttempt x0 x1).fabric = x0.fabric ∧ (clearAttempt x0 x1).store = x0.store ∧
    (clearAttempt x0 x1).tier = x0.tier ∧ (clearAttempt x0 x1).host = x0.host ∧ (clearAttempt x0 x1).text = x0.text ∧
    (clearAttempt x0 x1).pair = x0.pair ∧ (clearAttempt x0 x1).flash = x0.flash ∧ (clearAttempt x0 x1).bureau = x0.bureau ∧
    (clearAttempt x0 x1).power = x0.power ∧ (clearAttempt x0 x1).limits = x0.limits ∧ (clearAttempt x0 x1).fuses = x0.fuses ∧
    (clearAttempt x0 x1).shelfSkips = x0.shelfSkips ∧ (clearAttempt x0 x1).shelfCuts = x0.shelfCuts ∧ (clearAttempt x0 x1).free = x0.free ∧
    (clearAttempt x0 x1).pending = x0.pending := by simp [clearAttempt]

@[simp] theorem restartStream_frame (x0 x1 x2) : (restartStream x0 x1 x2).fabric = x0.fabric ∧ (restartStream x0 x1 x2).store = x0.store ∧
    (restartStream x0 x1 x2).engines = x0.engines ∧ (restartStream x0 x1 x2).host = x0.host ∧ (restartStream x0 x1 x2).text = x0.text ∧
    (restartStream x0 x1 x2).pair = x0.pair ∧ (restartStream x0 x1 x2).flash = x0.flash ∧ (restartStream x0 x1 x2).bureau = x0.bureau ∧
    (restartStream x0 x1 x2).power = x0.power ∧ (restartStream x0 x1 x2).limits = x0.limits ∧ (restartStream x0 x1 x2).fuses = x0.fuses ∧
    (restartStream x0 x1 x2).shelfSkips = x0.shelfSkips ∧ (restartStream x0 x1 x2).shelfCuts = x0.shelfCuts ∧
    (restartStream x0 x1 x2).free = x0.free ∧ (restartStream x0 x1 x2).pending = x0.pending := by unfold restartStream; split <;> simp

@[simp] theorem reissue_frame (x0 x1 x2 x3) : (reissue x0 x1 x2 x3).fabric = x0.fabric ∧ (reissue x0 x1 x2 x3).store = x0.store ∧
    (reissue x0 x1 x2 x3).text = x0.text ∧ (reissue x0 x1 x2 x3).pair = x0.pair ∧ (reissue x0 x1 x2 x3).flash = x0.flash ∧
    (reissue x0 x1 x2 x3).power = x0.power ∧ (reissue x0 x1 x2 x3).limits = x0.limits ∧ (reissue x0 x1 x2 x3).fuses = x0.fuses ∧
    (reissue x0 x1 x2 x3).shelfSkips = x0.shelfSkips ∧ (reissue x0 x1 x2 x3).shelfCuts = x0.shelfCuts ∧ (reissue x0 x1 x2 x3).free = x0.free ∧
    (reissue x0 x1 x2 x3).pending = x0.pending := by simp [reissue]

@[simp] theorem countedFailure_frame (x0 x1 x2 x3 x4) : (countedFailure x0 x1 x2 x3 x4).fabric = x0.fabric ∧
    (countedFailure x0 x1 x2 x3 x4).text = x0.text ∧ (countedFailure x0 x1 x2 x3 x4).flash = x0.flash ∧
    (countedFailure x0 x1 x2 x3 x4).power = x0.power ∧ (countedFailure x0 x1 x2 x3 x4).limits = x0.limits ∧
    (countedFailure x0 x1 x2 x3 x4).fuses = x0.fuses ∧ (countedFailure x0 x1 x2 x3 x4).shelfSkips = x0.shelfSkips ∧
    (countedFailure x0 x1 x2 x3 x4).shelfCuts = x0.shelfCuts ∧ (countedFailure x0 x1 x2 x3 x4).pending = x0.pending := by
  simp only [countedFailure]
  repeat' split
  all_goals ((try simp only [Prod.ext_iff] at *); (try casesm* _ ∧ _); (try subst_vars); (try simp))

@[simp] theorem removeRefusedWrite_frame (x0 x1 x2) : ((removeRefusedWrite x0 x1 x2)).1.fabric = x0.fabric ∧
    ((removeRefusedWrite x0 x1 x2)).1.engines = x0.engines ∧ ((removeRefusedWrite x0 x1 x2)).1.text = x0.text ∧
    ((removeRefusedWrite x0 x1 x2)).1.flash = x0.flash ∧ ((removeRefusedWrite x0 x1 x2)).1.power = x0.power ∧
    ((removeRefusedWrite x0 x1 x2)).1.limits = x0.limits ∧ ((removeRefusedWrite x0 x1 x2)).1.fuses = x0.fuses ∧
    ((removeRefusedWrite x0 x1 x2)).1.shelfSkips = x0.shelfSkips ∧ ((removeRefusedWrite x0 x1 x2)).1.shelfCuts = x0.shelfCuts ∧
    ((removeRefusedWrite x0 x1 x2)).1.pending = x0.pending := by
  unfold removeRefusedWrite
  repeat' split
  all_goals ((try simp only [Prod.ext_iff] at *); (try casesm* _ ∧ _); (try subst_vars); (try simp))

@[simp] theorem failStep_frame (x0 x1 x2 x3) : (failStep x0 x1 x2 x3).text = x0.text ∧ (failStep x0 x1 x2 x3).flash = x0.flash ∧
    (failStep x0 x1 x2 x3).power = x0.power ∧ (failStep x0 x1 x2 x3).limits = x0.limits ∧ (failStep x0 x1 x2 x3).fuses = x0.fuses ∧
    (failStep x0 x1 x2 x3).shelfSkips = x0.shelfSkips ∧ (failStep x0 x1 x2 x3).shelfCuts = x0.shelfCuts ∧
    (failStep x0 x1 x2 x3).pending = x0.pending := by simp [failStep]

@[simp] theorem stepWatchdog_frame (x0 x1 x2) : (stepWatchdog x0 x1 x2).text = x0.text ∧ (stepWatchdog x0 x1 x2).flash = x0.flash ∧
    (stepWatchdog x0 x1 x2).power = x0.power ∧ (stepWatchdog x0 x1 x2).limits = x0.limits ∧ (stepWatchdog x0 x1 x2).fuses = x0.fuses ∧
    (stepWatchdog x0 x1 x2).shelfSkips = x0.shelfSkips ∧ (stepWatchdog x0 x1 x2).shelfCuts = x0.shelfCuts ∧
    (stepWatchdog x0 x1 x2).pending = x0.pending := by simp [stepWatchdog]

theorem execStepWatchdogExpiry_frame (x0 x1 x2) : ∀ t, (execStepWatchdogExpiry x0 x1 x2) = .next t → t.text = x2.text ∧ t.flash = x2.flash ∧
    t.power = x2.power ∧ t.limits = x2.limits ∧ t.fuses = x2.fuses ∧ t.shelfSkips = x2.shelfSkips ∧ t.shelfCuts = x2.shelfCuts ∧
    t.pending = x2.pending := by simp [execStepWatchdogExpiry]

@[simp] theorem setWorld_frame (x0 x1 x2) : (setWorld x0 x1 x2).fabric = x0.fabric ∧ (setWorld x0 x1 x2).store = x0.store ∧
    (setWorld x0 x1 x2).tier = x0.tier ∧ (setWorld x0 x1 x2).engines = x0.engines ∧ (setWorld x0 x1 x2).host = x0.host ∧
    (setWorld x0 x1 x2).gen = x0.gen ∧ (setWorld x0 x1 x2).text = x0.text ∧ (setWorld x0 x1 x2).pair = x0.pair ∧
    (setWorld x0 x1 x2).flash = x0.flash ∧ (setWorld x0 x1 x2).power = x0.power ∧ (setWorld x0 x1 x2).limits = x0.limits ∧
    (setWorld x0 x1 x2).fuses = x0.fuses ∧ (setWorld x0 x1 x2).shelfSkips = x0.shelfSkips ∧ (setWorld x0 x1 x2).shelfCuts = x0.shelfCuts ∧
    (setWorld x0 x1 x2).free = x0.free ∧ (setWorld x0 x1 x2).pending = x0.pending := by simp [setWorld]

@[simp] theorem startTest_frame (x0 x1) : (startTest x0 x1).fabric = x0.fabric ∧ (startTest x0 x1).store = x0.store ∧
    (startTest x0 x1).tier = x0.tier ∧ (startTest x0 x1).host = x0.host ∧ (startTest x0 x1).gen = x0.gen ∧ (startTest x0 x1).text = x0.text ∧
    (startTest x0 x1).pair = x0.pair ∧ (startTest x0 x1).flash = x0.flash ∧ (startTest x0 x1).power = x0.power ∧
    (startTest x0 x1).limits = x0.limits ∧ (startTest x0 x1).fuses = x0.fuses ∧ (startTest x0 x1).shelfSkips = x0.shelfSkips ∧
    (startTest x0 x1).shelfCuts = x0.shelfCuts ∧ (startTest x0 x1).free = x0.free ∧ (startTest x0 x1).pending = x0.pending := by simp [startTest]

@[simp] theorem startTests_frame (x0) : (startTests x0).fabric = x0.fabric ∧ (startTests x0).store = x0.store ∧
    (startTests x0).tier = x0.tier ∧ (startTests x0).host = x0.host ∧ (startTests x0).gen = x0.gen ∧ (startTests x0).text = x0.text ∧
    (startTests x0).pair = x0.pair ∧ (startTests x0).flash = x0.flash ∧ (startTests x0).power = x0.power ∧
    (startTests x0).limits = x0.limits ∧ (startTests x0).fuses = x0.fuses ∧ (startTests x0).shelfSkips = x0.shelfSkips ∧
    (startTests x0).shelfCuts = x0.shelfCuts ∧ (startTests x0).free = x0.free ∧ (startTests x0).pending = x0.pending := by simp [startTests]

@[simp] theorem fieldTestDue_frame (x0 x1) : (fieldTestDue x0 x1).fabric = x0.fabric ∧ (fieldTestDue x0 x1).store = x0.store ∧
    (fieldTestDue x0 x1).tier = x0.tier ∧ (fieldTestDue x0 x1).host = x0.host ∧ (fieldTestDue x0 x1).text = x0.text ∧
    (fieldTestDue x0 x1).pair = x0.pair ∧ (fieldTestDue x0 x1).flash = x0.flash ∧ (fieldTestDue x0 x1).power = x0.power ∧
    (fieldTestDue x0 x1).limits = x0.limits ∧ (fieldTestDue x0 x1).fuses = x0.fuses ∧ (fieldTestDue x0 x1).shelfSkips = x0.shelfSkips ∧
    (fieldTestDue x0 x1).shelfCuts = x0.shelfCuts ∧ (fieldTestDue x0 x1).free = x0.free ∧ (fieldTestDue x0 x1).pending = x0.pending := by simp [fieldTestDue]

theorem execFieldTestDue_frame (x0 x1) : ∀ t, (execFieldTestDue x0 x1) = .next t → t.fabric = x1.fabric ∧ t.store = x1.store ∧
    t.tier = x1.tier ∧ t.host = x1.host ∧ t.text = x1.text ∧ t.pair = x1.pair ∧ t.flash = x1.flash ∧ t.power = x1.power ∧
    t.limits = x1.limits ∧ t.fuses = x1.fuses ∧ t.shelfSkips = x1.shelfSkips ∧ t.shelfCuts = x1.shelfCuts ∧ t.free = x1.free ∧
    t.pending = x1.pending := by simp [execFieldTestDue]

@[simp] theorem fieldTestDeferralEnd_frame (x0 x1) : (fieldTestDeferralEnd x0 x1).fabric = x0.fabric ∧
    (fieldTestDeferralEnd x0 x1).store = x0.store ∧ (fieldTestDeferralEnd x0 x1).tier = x0.tier ∧
    (fieldTestDeferralEnd x0 x1).engines = x0.engines ∧ (fieldTestDeferralEnd x0 x1).host = x0.host ∧
    (fieldTestDeferralEnd x0 x1).text = x0.text ∧ (fieldTestDeferralEnd x0 x1).pair = x0.pair ∧
    (fieldTestDeferralEnd x0 x1).flash = x0.flash ∧ (fieldTestDeferralEnd x0 x1).bureau = x0.bureau ∧
    (fieldTestDeferralEnd x0 x1).power = x0.power ∧ (fieldTestDeferralEnd x0 x1).limits = x0.limits ∧
    (fieldTestDeferralEnd x0 x1).fuses = x0.fuses ∧ (fieldTestDeferralEnd x0 x1).shelfSkips = x0.shelfSkips ∧
    (fieldTestDeferralEnd x0 x1).shelfCuts = x0.shelfCuts ∧ (fieldTestDeferralEnd x0 x1).free = x0.free ∧
    (fieldTestDeferralEnd x0 x1).pending = x0.pending := by unfold fieldTestDeferralEnd; split <;> simp

theorem execFieldTestDeferralEnd_frame (x0 x1) : ∀ t, (execFieldTestDeferralEnd x0 x1) = .next t → t.fabric = x1.fabric ∧ t.store = x1.store ∧
    t.tier = x1.tier ∧ t.engines = x1.engines ∧ t.host = x1.host ∧ t.text = x1.text ∧ t.pair = x1.pair ∧ t.flash = x1.flash ∧
    t.bureau = x1.bureau ∧ t.power = x1.power ∧ t.limits = x1.limits ∧ t.fuses = x1.fuses ∧ t.shelfSkips = x1.shelfSkips ∧
    t.shelfCuts = x1.shelfCuts ∧ t.free = x1.free ∧ t.pending = x1.pending := by simp [execFieldTestDeferralEnd]

@[simp] theorem endTest_frame (x0 x1 x2) : (endTest x0 x1 x2).fabric = x0.fabric ∧ (endTest x0 x1 x2).store = x0.store ∧
    (endTest x0 x1 x2).tier = x0.tier ∧ (endTest x0 x1 x2).text = x0.text ∧ (endTest x0 x1 x2).pair = x0.pair ∧
    (endTest x0 x1 x2).flash = x0.flash ∧ (endTest x0 x1 x2).power = x0.power ∧ (endTest x0 x1 x2).limits = x0.limits ∧
    (endTest x0 x1 x2).fuses = x0.fuses ∧ (endTest x0 x1 x2).shelfSkips = x0.shelfSkips ∧ (endTest x0 x1 x2).shelfCuts = x0.shelfCuts ∧
    (endTest x0 x1 x2).pending = x0.pending := by unfold endTest; split <;> simp

/-! ## Admission -/

@[simp] theorem denyTenant_frame (x0 x1 x2 x3 x4) : (denyTenant x0 x1 x2 x3 x4).fabric = x0.fabric ∧
    (denyTenant x0 x1 x2 x3 x4).store = x0.store ∧ (denyTenant x0 x1 x2 x3 x4).tier = x0.tier ∧
    (denyTenant x0 x1 x2 x3 x4).engines = x0.engines ∧ (denyTenant x0 x1 x2 x3 x4).gen = x0.gen ∧ (denyTenant x0 x1 x2 x3 x4).text = x0.text ∧
    (denyTenant x0 x1 x2 x3 x4).pair = x0.pair ∧ (denyTenant x0 x1 x2 x3 x4).flash = x0.flash ∧ (denyTenant x0 x1 x2 x3 x4).power = x0.power ∧
    (denyTenant x0 x1 x2 x3 x4).limits = x0.limits ∧ (denyTenant x0 x1 x2 x3 x4).fuses = x0.fuses ∧
    (denyTenant x0 x1 x2 x3 x4).shelfSkips = x0.shelfSkips ∧ (denyTenant x0 x1 x2 x3 x4).shelfCuts = x0.shelfCuts ∧
    (denyTenant x0 x1 x2 x3 x4).free = x0.free ∧ (denyTenant x0 x1 x2 x3 x4).pending = x0.pending := by simp [denyTenant]

/-! ## Boundary -/

@[simp] theorem judgeSlot_frame (x0 x1 x2 x3 x4) : (judgeSlot x0 x1 x2 x3 x4).fabric = x3.fabric ∧
    (judgeSlot x0 x1 x2 x3 x4).store = x3.store ∧ (judgeSlot x0 x1 x2 x3 x4).tier = x3.tier ∧
    (judgeSlot x0 x1 x2 x3 x4).engines = x3.engines ∧ (judgeSlot x0 x1 x2 x3 x4).host = x3.host ∧ (judgeSlot x0 x1 x2 x3 x4).text = x3.text ∧
    (judgeSlot x0 x1 x2 x3 x4).pair = x3.pair ∧ (judgeSlot x0 x1 x2 x3 x4).flash = x3.flash ∧ (judgeSlot x0 x1 x2 x3 x4).bureau = x3.bureau ∧
    (judgeSlot x0 x1 x2 x3 x4).power = x3.power ∧ (judgeSlot x0 x1 x2 x3 x4).limits = x3.limits ∧
    (judgeSlot x0 x1 x2 x3 x4).fuses = x3.fuses ∧ (judgeSlot x0 x1 x2 x3 x4).shelfSkips = x3.shelfSkips ∧
    (judgeSlot x0 x1 x2 x3 x4).shelfCuts = x3.shelfCuts ∧ (judgeSlot x0 x1 x2 x3 x4).free = x3.free ∧
    (judgeSlot x0 x1 x2 x3 x4).pending = x3.pending := by simp [judgeSlot]

@[simp] theorem applyReport_frame (x0 x1 x2) : (applyReport x0 x1 x2).fabric = x1.fabric ∧ (applyReport x0 x1 x2).store = x1.store ∧
    (applyReport x0 x1 x2).tier = x1.tier ∧ (applyReport x0 x1 x2).engines = x1.engines ∧ (applyReport x0 x1 x2).host = x1.host ∧
    (applyReport x0 x1 x2).text = x1.text ∧ (applyReport x0 x1 x2).pair = x1.pair ∧ (applyReport x0 x1 x2).flash = x1.flash ∧
    (applyReport x0 x1 x2).bureau = x1.bureau ∧ (applyReport x0 x1 x2).power = x1.power ∧ (applyReport x0 x1 x2).limits = x1.limits ∧
    (applyReport x0 x1 x2).fuses = x1.fuses ∧ (applyReport x0 x1 x2).shelfSkips = x1.shelfSkips ∧
    (applyReport x0 x1 x2).shelfCuts = x1.shelfCuts ∧ (applyReport x0 x1 x2).free = x1.free ∧ (applyReport x0 x1 x2).pending = x1.pending := by simp [applyReport]

@[simp] theorem endFailedStream_frame (x0 x1 x2) : (endFailedStream x0 x1 x2).fabric = x1.fabric ∧
    (endFailedStream x0 x1 x2).store = x1.store ∧ (endFailedStream x0 x1 x2).tier = x1.tier ∧
    (endFailedStream x0 x1 x2).engines = x1.engines ∧ (endFailedStream x0 x1 x2).host = x1.host ∧ (endFailedStream x0 x1 x2).text = x1.text ∧
    (endFailedStream x0 x1 x2).pair = x1.pair ∧ (endFailedStream x0 x1 x2).flash = x1.flash ∧ (endFailedStream x0 x1 x2).bureau = x1.bureau ∧
    (endFailedStream x0 x1 x2).power = x1.power ∧ (endFailedStream x0 x1 x2).limits = x1.limits ∧
    (endFailedStream x0 x1 x2).fuses = x1.fuses ∧ (endFailedStream x0 x1 x2).shelfSkips = x1.shelfSkips ∧
    (endFailedStream x0 x1 x2).shelfCuts = x1.shelfCuts ∧ (endFailedStream x0 x1 x2).free = x1.free ∧
    (endFailedStream x0 x1 x2).pending = x1.pending := by simp [endFailedStream]

@[simp] theorem judgeSlots_frame (x0 x1) : (judgeSlots x0 x1).fabric = x0.fabric ∧ (judgeSlots x0 x1).store = x0.store ∧
    (judgeSlots x0 x1).tier = x0.tier ∧ (judgeSlots x0 x1).engines = x0.engines ∧ (judgeSlots x0 x1).host = x0.host ∧
    (judgeSlots x0 x1).text = x0.text ∧ (judgeSlots x0 x1).pair = x0.pair ∧ (judgeSlots x0 x1).flash = x0.flash ∧
    (judgeSlots x0 x1).bureau = x0.bureau ∧ (judgeSlots x0 x1).power = x0.power ∧ (judgeSlots x0 x1).limits = x0.limits ∧
    (judgeSlots x0 x1).fuses = x0.fuses ∧ (judgeSlots x0 x1).shelfSkips = x0.shelfSkips ∧ (judgeSlots x0 x1).shelfCuts = x0.shelfCuts ∧
    (judgeSlots x0 x1).free = x0.free ∧ (judgeSlots x0 x1).pending = x0.pending := by simp [judgeSlots]

@[simp] theorem endUnsampled_frame (x0 x1 x2 x3) : (endUnsampled x0 x1 x2 x3).fabric = x0.fabric ∧
    (endUnsampled x0 x1 x2 x3).store = x0.store ∧ (endUnsampled x0 x1 x2 x3).tier = x0.tier ∧
    (endUnsampled x0 x1 x2 x3).engines = x0.engines ∧ (endUnsampled x0 x1 x2 x3).host = x0.host ∧ (endUnsampled x0 x1 x2 x3).text = x0.text ∧
    (endUnsampled x0 x1 x2 x3).pair = x0.pair ∧ (endUnsampled x0 x1 x2 x3).flash = x0.flash ∧ (endUnsampled x0 x1 x2 x3).bureau = x0.bureau ∧
    (endUnsampled x0 x1 x2 x3).power = x0.power ∧ (endUnsampled x0 x1 x2 x3).limits = x0.limits ∧
    (endUnsampled x0 x1 x2 x3).fuses = x0.fuses ∧ (endUnsampled x0 x1 x2 x3).shelfSkips = x0.shelfSkips ∧
    (endUnsampled x0 x1 x2 x3).shelfCuts = x0.shelfCuts ∧ (endUnsampled x0 x1 x2 x3).free = x0.free ∧
    (endUnsampled x0 x1 x2 x3).pending = x0.pending := by simp [endUnsampled]

@[simp] theorem applySlot_frame (x0 x1 x2 x3) : (applySlot x0 x1 x2 x3).fabric = x2.fabric ∧ (applySlot x0 x1 x2 x3).store = x2.store ∧
    (applySlot x0 x1 x2 x3).tier = x2.tier ∧ (applySlot x0 x1 x2 x3).engines = x2.engines ∧ (applySlot x0 x1 x2 x3).host = x2.host ∧
    (applySlot x0 x1 x2 x3).text = x2.text ∧ (applySlot x0 x1 x2 x3).pair = x2.pair ∧ (applySlot x0 x1 x2 x3).flash = x2.flash ∧
    (applySlot x0 x1 x2 x3).bureau = x2.bureau ∧ (applySlot x0 x1 x2 x3).power = x2.power ∧ (applySlot x0 x1 x2 x3).limits = x2.limits ∧
    (applySlot x0 x1 x2 x3).fuses = x2.fuses ∧ (applySlot x0 x1 x2 x3).shelfSkips = x2.shelfSkips ∧
    (applySlot x0 x1 x2 x3).shelfCuts = x2.shelfCuts ∧ (applySlot x0 x1 x2 x3).free = x2.free ∧ (applySlot x0 x1 x2 x3).pending = x2.pending := by
  simp only [applySlot]
  repeat' split
  all_goals ((try simp only [Prod.ext_iff] at *); (try casesm* _ ∧ _); (try subst_vars); (try simp))

@[simp] theorem takeScore_frame (x0 x1 x2) : (takeScore x0 x1 x2).fabric = x1.fabric ∧ (takeScore x0 x1 x2).store = x1.store ∧
    (takeScore x0 x1 x2).tier = x1.tier ∧ (takeScore x0 x1 x2).engines = x1.engines ∧ (takeScore x0 x1 x2).gen = x1.gen ∧
    (takeScore x0 x1 x2).text = x1.text ∧ (takeScore x0 x1 x2).pair = x1.pair ∧ (takeScore x0 x1 x2).flash = x1.flash ∧
    (takeScore x0 x1 x2).bureau = x1.bureau ∧ (takeScore x0 x1 x2).power = x1.power ∧ (takeScore x0 x1 x2).limits = x1.limits ∧
    (takeScore x0 x1 x2).fuses = x1.fuses ∧ (takeScore x0 x1 x2).shelfSkips = x1.shelfSkips ∧ (takeScore x0 x1 x2).shelfCuts = x1.shelfCuts ∧
    (takeScore x0 x1 x2).free = x1.free ∧ (takeScore x0 x1 x2).pending = x1.pending := by
  unfold takeScore
  repeat' split
  all_goals ((try simp only [Prod.ext_iff] at *); (try casesm* _ ∧ _); (try subst_vars); first | (simp; done) | (simp_all; done) | skip)

@[simp] theorem takeScores_frame (x0 x1 x2) : (takeScores x0 x1 x2).fabric = x0.fabric ∧ (takeScores x0 x1 x2).store = x0.store ∧
    (takeScores x0 x1 x2).tier = x0.tier ∧ (takeScores x0 x1 x2).engines = x0.engines ∧ (takeScores x0 x1 x2).gen = x0.gen ∧
    (takeScores x0 x1 x2).text = x0.text ∧ (takeScores x0 x1 x2).pair = x0.pair ∧ (takeScores x0 x1 x2).flash = x0.flash ∧
    (takeScores x0 x1 x2).bureau = x0.bureau ∧ (takeScores x0 x1 x2).power = x0.power ∧ (takeScores x0 x1 x2).limits = x0.limits ∧
    (takeScores x0 x1 x2).fuses = x0.fuses ∧ (takeScores x0 x1 x2).shelfSkips = x0.shelfSkips ∧
    (takeScores x0 x1 x2).shelfCuts = x0.shelfCuts ∧ (takeScores x0 x1 x2).free = x0.free ∧ (takeScores x0 x1 x2).pending = x0.pending := by
  unfold takeScores
  repeat' split
  all_goals ((try simp only [Prod.ext_iff] at *); (try casesm* _ ∧ _); (try subst_vars); first | (simp; done) | (simp_all; done) | skip)

@[simp] theorem inputDone_frame (x0 x1 x2) : (inputDone x0 x1 x2).fabric = x0.fabric ∧ (inputDone x0 x1 x2).engines = x0.engines ∧
    (inputDone x0 x1 x2).text = x0.text ∧ (inputDone x0 x1 x2).flash = x0.flash ∧ (inputDone x0 x1 x2).power = x0.power ∧
    (inputDone x0 x1 x2).limits = x0.limits ∧ (inputDone x0 x1 x2).fuses = x0.fuses ∧ (inputDone x0 x1 x2).shelfSkips = x0.shelfSkips ∧
    (inputDone x0 x1 x2).shelfCuts = x0.shelfCuts ∧ (inputDone x0 x1 x2).pending = x0.pending := by unfold inputDone; split <;> simp

@[simp] theorem endCancelledPairs_frame (x0 x1) : (endCancelledPairs x0 x1).fabric = x0.fabric ∧
    (endCancelledPairs x0 x1).engines = x0.engines ∧ (endCancelledPairs x0 x1).text = x0.text ∧ (endCancelledPairs x0 x1).flash = x0.flash ∧
    (endCancelledPairs x0 x1).power = x0.power ∧ (endCancelledPairs x0 x1).limits = x0.limits ∧ (endCancelledPairs x0 x1).fuses = x0.fuses ∧
    (endCancelledPairs x0 x1).shelfSkips = x0.shelfSkips ∧ (endCancelledPairs x0 x1).shelfCuts = x0.shelfCuts ∧
    (endCancelledPairs x0 x1).pending = x0.pending := by unfold endCancelledPairs; split <;> simp

@[simp] theorem itemDone_frame (x0 x1 x2) : (itemDone x0 x1 x2).fabric = x1.fabric ∧ (itemDone x0 x1 x2).engines = x1.engines ∧
    (itemDone x0 x1 x2).text = x1.text ∧ (itemDone x0 x1 x2).flash = x1.flash ∧ (itemDone x0 x1 x2).power = x1.power ∧
    (itemDone x0 x1 x2).limits = x1.limits ∧ (itemDone x0 x1 x2).fuses = x1.fuses ∧ (itemDone x0 x1 x2).shelfSkips = x1.shelfSkips ∧
    (itemDone x0 x1 x2).shelfCuts = x1.shelfCuts ∧ (itemDone x0 x1 x2).pending = x1.pending := by unfold itemDone; split <;> simp

@[simp] theorem commitItems_frame (x0 x1 x2 x3) : (commitItems x0 x1 x2 x3).engines = x0.engines ∧ (commitItems x0 x1 x2 x3).text = x0.text ∧
    (commitItems x0 x1 x2 x3).flash = x0.flash ∧ (commitItems x0 x1 x2 x3).power = x0.power ∧ (commitItems x0 x1 x2 x3).limits = x0.limits ∧
    (commitItems x0 x1 x2 x3).fuses = x0.fuses ∧ (commitItems x0 x1 x2 x3).shelfSkips = x0.shelfSkips ∧
    (commitItems x0 x1 x2 x3).shelfCuts = x0.shelfCuts ∧ (commitItems x0 x1 x2 x3).pending = x0.pending := by simp [commitItems]

@[simp] theorem commitUpdates_frame (x0 x1 x2 x3) : (commitUpdates x0 x1 x2 x3).engines = x0.engines ∧
    (commitUpdates x0 x1 x2 x3).text = x0.text ∧ (commitUpdates x0 x1 x2 x3).flash = x0.flash ∧ (commitUpdates x0 x1 x2 x3).power = x0.power ∧
    (commitUpdates x0 x1 x2 x3).limits = x0.limits ∧ (commitUpdates x0 x1 x2 x3).fuses = x0.fuses ∧
    (commitUpdates x0 x1 x2 x3).shelfSkips = x0.shelfSkips ∧ (commitUpdates x0 x1 x2 x3).shelfCuts = x0.shelfCuts ∧
    (commitUpdates x0 x1 x2 x3).pending = x0.pending := by simp [commitUpdates]

@[simp] theorem addInterference_frame (x0 x1 x2 x3 x4 x5) : (addInterference x0 x1 x2 x3 x4 x5).fabric = x4.fabric ∧
    (addInterference x0 x1 x2 x3 x4 x5).store = x4.store ∧ (addInterference x0 x1 x2 x3 x4 x5).tier = x4.tier ∧
    (addInterference x0 x1 x2 x3 x4 x5).engines = x4.engines ∧ (addInterference x0 x1 x2 x3 x4 x5).host = x4.host ∧
    (addInterference x0 x1 x2 x3 x4 x5).text = x4.text ∧ (addInterference x0 x1 x2 x3 x4 x5).pair = x4.pair ∧
    (addInterference x0 x1 x2 x3 x4 x5).flash = x4.flash ∧ (addInterference x0 x1 x2 x3 x4 x5).bureau = x4.bureau ∧
    (addInterference x0 x1 x2 x3 x4 x5).power = x4.power ∧ (addInterference x0 x1 x2 x3 x4 x5).limits = x4.limits ∧
    (addInterference x0 x1 x2 x3 x4 x5).fuses = x4.fuses ∧ (addInterference x0 x1 x2 x3 x4 x5).shelfSkips = x4.shelfSkips ∧
    (addInterference x0 x1 x2 x3 x4 x5).shelfCuts = x4.shelfCuts ∧ (addInterference x0 x1 x2 x3 x4 x5).free = x4.free ∧
    (addInterference x0 x1 x2 x3 x4 x5).pending = x4.pending := by simp [addInterference]

@[simp] theorem interference_frame (x0 x1) : (interference x0 x1).fabric = x0.fabric ∧ (interference x0 x1).store = x0.store ∧
    (interference x0 x1).tier = x0.tier ∧ (interference x0 x1).engines = x0.engines ∧ (interference x0 x1).host = x0.host ∧
    (interference x0 x1).text = x0.text ∧ (interference x0 x1).pair = x0.pair ∧ (interference x0 x1).flash = x0.flash ∧
    (interference x0 x1).bureau = x0.bureau ∧ (interference x0 x1).power = x0.power ∧ (interference x0 x1).limits = x0.limits ∧
    (interference x0 x1).fuses = x0.fuses ∧ (interference x0 x1).shelfSkips = x0.shelfSkips ∧ (interference x0 x1).shelfCuts = x0.shelfCuts ∧
    (interference x0 x1).free = x0.free ∧ (interference x0 x1).pending = x0.pending := by unfold interference; split <;> simp

@[simp] theorem closeWindow_frame (x0 x1) : (closeWindow x0 x1).fabric = x0.fabric ∧ (closeWindow x0 x1).store = x0.store ∧
    (closeWindow x0 x1).tier = x0.tier ∧ (closeWindow x0 x1).engines = x0.engines ∧ (closeWindow x0 x1).text = x0.text ∧
    (closeWindow x0 x1).pair = x0.pair ∧ (closeWindow x0 x1).flash = x0.flash ∧ (closeWindow x0 x1).power = x0.power ∧
    (closeWindow x0 x1).limits = x0.limits ∧ (closeWindow x0 x1).fuses = x0.fuses ∧ (closeWindow x0 x1).shelfSkips = x0.shelfSkips ∧
    (closeWindow x0 x1).shelfCuts = x0.shelfCuts ∧ (closeWindow x0 x1).free = x0.free ∧ (closeWindow x0 x1).pending = x0.pending := by simp [closeWindow]

@[simp] theorem windowClose_frame (x0) : (windowClose x0).fabric = x0.fabric ∧ (windowClose x0).store = x0.store ∧
    (windowClose x0).tier = x0.tier ∧ (windowClose x0).engines = x0.engines ∧ (windowClose x0).text = x0.text ∧
    (windowClose x0).pair = x0.pair ∧ (windowClose x0).flash = x0.flash ∧ (windowClose x0).power = x0.power ∧
    (windowClose x0).limits = x0.limits ∧ (windowClose x0).fuses = x0.fuses ∧ (windowClose x0).shelfSkips = x0.shelfSkips ∧
    (windowClose x0).shelfCuts = x0.shelfCuts ∧ (windowClose x0).free = x0.free ∧ (windowClose x0).pending = x0.pending := by simp [windowClose]

theorem execInterferenceWindowClose_frame (x0) : ∀ t, (execInterferenceWindowClose x0) = .next t → t.fabric = x0.fabric ∧ t.store = x0.store ∧
    t.tier = x0.tier ∧ t.engines = x0.engines ∧ t.text = x0.text ∧ t.pair = x0.pair ∧ t.flash = x0.flash ∧ t.power = x0.power ∧
    t.limits = x0.limits ∧ t.fuses = x0.fuses ∧ t.shelfSkips = x0.shelfSkips ∧ t.shelfCuts = x0.shelfCuts ∧ t.free = x0.free ∧
    t.pending = x0.pending := by simp [execInterferenceWindowClose]

@[simp] theorem switchOne_frame (x0 x1 x2) : (switchOne x0 x1 x2).fabric = x1.fabric ∧ (switchOne x0 x1 x2).engines = x1.engines ∧
    (switchOne x0 x1 x2).text = x1.text ∧ (switchOne x0 x1 x2).flash = x1.flash ∧ (switchOne x0 x1 x2).power = x1.power ∧
    (switchOne x0 x1 x2).limits = x1.limits ∧ (switchOne x0 x1 x2).fuses = x1.fuses ∧ (switchOne x0 x1 x2).shelfSkips = x1.shelfSkips ∧
    (switchOne x0 x1 x2).shelfCuts = x1.shelfCuts ∧ (switchOne x0 x1 x2).pending = x1.pending := by
  simp only [switchOne]
  repeat' split
  all_goals ((try simp only [Prod.ext_iff] at *); (try casesm* _ ∧ _); (try subst_vars); (try simp))

@[simp] theorem switchMappings_frame (x0 x1) : (switchMappings x0 x1).fabric = x0.fabric ∧ (switchMappings x0 x1).text = x0.text ∧
    (switchMappings x0 x1).flash = x0.flash ∧ (switchMappings x0 x1).power = x0.power ∧ (switchMappings x0 x1).limits = x0.limits ∧
    (switchMappings x0 x1).fuses = x0.fuses ∧ (switchMappings x0 x1).shelfSkips = x0.shelfSkips ∧
    (switchMappings x0 x1).shelfCuts = x0.shelfCuts ∧ (switchMappings x0 x1).pending = x0.pending := by simp [switchMappings]

@[simp] theorem purgeRings_frame (x0 x1) : (purgeRings x0 x1).fabric = x0.fabric ∧ (purgeRings x0 x1).engines = x0.engines ∧
    (purgeRings x0 x1).text = x0.text ∧ (purgeRings x0 x1).flash = x0.flash ∧ (purgeRings x0 x1).power = x0.power ∧
    (purgeRings x0 x1).limits = x0.limits ∧ (purgeRings x0 x1).fuses = x0.fuses ∧ (purgeRings x0 x1).shelfSkips = x0.shelfSkips ∧
    (purgeRings x0 x1).shelfCuts = x0.shelfCuts ∧ (purgeRings x0 x1).pending = x0.pending := by simp [purgeRings]

@[simp] theorem popHead_frame (x0 x1 x2) : (popHead x0 x1 x2).fabric = x0.fabric ∧ (popHead x0 x1 x2).store = x0.store ∧
    (popHead x0 x1 x2).tier = x0.tier ∧ (popHead x0 x1 x2).engines = x0.engines ∧ (popHead x0 x1 x2).host = x0.host ∧
    (popHead x0 x1 x2).text = x0.text ∧ (popHead x0 x1 x2).pair = x0.pair ∧ (popHead x0 x1 x2).flash = x0.flash ∧
    (popHead x0 x1 x2).bureau = x0.bureau ∧ (popHead x0 x1 x2).power = x0.power ∧ (popHead x0 x1 x2).limits = x0.limits ∧
    (popHead x0 x1 x2).fuses = x0.fuses ∧ (popHead x0 x1 x2).shelfSkips = x0.shelfSkips ∧ (popHead x0 x1 x2).shelfCuts = x0.shelfCuts ∧
    (popHead x0 x1 x2).free = x0.free ∧ (popHead x0 x1 x2).pending = x0.pending := by simp [popHead]

@[simp] theorem fillSlot_frame (x0 x1 x2 x3 x4 x5 x6) : (fillSlot x0 x1 x2 x3 x4 x5 x6).fabric = x0.fabric ∧
    (fillSlot x0 x1 x2 x3 x4 x5 x6).engines = x0.engines ∧ (fillSlot x0 x1 x2 x3 x4 x5 x6).pair = x0.pair ∧
    (fillSlot x0 x1 x2 x3 x4 x5 x6).flash = x0.flash ∧ (fillSlot x0 x1 x2 x3 x4 x5 x6).bureau = x0.bureau ∧
    (fillSlot x0 x1 x2 x3 x4 x5 x6).power = x0.power ∧ (fillSlot x0 x1 x2 x3 x4 x5 x6).limits = x0.limits ∧
    (fillSlot x0 x1 x2 x3 x4 x5 x6).fuses = x0.fuses ∧ (fillSlot x0 x1 x2 x3 x4 x5 x6).shelfSkips = x0.shelfSkips ∧
    (fillSlot x0 x1 x2 x3 x4 x5 x6).shelfCuts = x0.shelfCuts ∧ (fillSlot x0 x1 x2 x3 x4 x5 x6).pending = x0.pending := by
  unfold fillSlot
  repeat' split
  all_goals ((try simp only [Prod.ext_iff] at *); (try casesm* _ ∧ _); (try subst_vars); (try simp))

@[simp] theorem useCredit_frame (x0 x1 x2) : (useCredit x0 x1 x2).fabric = x0.fabric ∧ (useCredit x0 x1 x2).store = x0.store ∧
    (useCredit x0 x1 x2).tier = x0.tier ∧ (useCredit x0 x1 x2).engines = x0.engines ∧ (useCredit x0 x1 x2).host = x0.host ∧
    (useCredit x0 x1 x2).text = x0.text ∧ (useCredit x0 x1 x2).pair = x0.pair ∧ (useCredit x0 x1 x2).flash = x0.flash ∧
    (useCredit x0 x1 x2).bureau = x0.bureau ∧ (useCredit x0 x1 x2).power = x0.power ∧ (useCredit x0 x1 x2).limits = x0.limits ∧
    (useCredit x0 x1 x2).fuses = x0.fuses ∧ (useCredit x0 x1 x2).shelfSkips = x0.shelfSkips ∧ (useCredit x0 x1 x2).shelfCuts = x0.shelfCuts ∧
    (useCredit x0 x1 x2).free = x0.free ∧ (useCredit x0 x1 x2).pending = x0.pending := by simp [useCredit]

@[simp] theorem admitHead_frame (x0 x1 x2 x3 x4) : ((admitHead x0 x1 x2 x3 x4)).1.fabric = x0.fabric ∧
    ((admitHead x0 x1 x2 x3 x4)).1.engines = x0.engines ∧ ((admitHead x0 x1 x2 x3 x4)).1.flash = x0.flash ∧
    ((admitHead x0 x1 x2 x3 x4)).1.power = x0.power ∧ ((admitHead x0 x1 x2 x3 x4)).1.limits = x0.limits ∧
    ((admitHead x0 x1 x2 x3 x4)).1.fuses = x0.fuses ∧ ((admitHead x0 x1 x2 x3 x4)).1.shelfSkips = x0.shelfSkips ∧
    ((admitHead x0 x1 x2 x3 x4)).1.shelfCuts = x0.shelfCuts ∧ ((admitHead x0 x1 x2 x3 x4)).1.pending = x0.pending := by
  unfold admitHead
  repeat' split
  all_goals ((try simp only [Prod.ext_iff] at *); (try casesm* _ ∧ _); (try subst_vars); (try simp))

@[simp] theorem admitLoop_frame (x0 x1 x2 x3) : (admitLoop x0 x1 x2 x3).fabric = x3.fabric ∧ (admitLoop x0 x1 x2 x3).engines = x3.engines ∧
    (admitLoop x0 x1 x2 x3).flash = x3.flash ∧ (admitLoop x0 x1 x2 x3).power = x3.power ∧ (admitLoop x0 x1 x2 x3).limits = x3.limits ∧
    (admitLoop x0 x1 x2 x3).fuses = x3.fuses ∧ (admitLoop x0 x1 x2 x3).shelfSkips = x3.shelfSkips ∧
    (admitLoop x0 x1 x2 x3).shelfCuts = x3.shelfCuts ∧ (admitLoop x0 x1 x2 x3).pending = x3.pending := by
  induction x1 generalizing x2 x3 with
  | zero => simp [admitLoop]
  | succ k ih =>
    unfold admitLoop
    simp only []
    repeat' split
    all_goals ((try simp only [Prod.ext_iff] at *); (try casesm* _ ∧ _); (try subst_vars); first | (simp [ih]; done) | simp_all)

@[simp] theorem admitItems_frame (x0 x1) : (admitItems x0 x1).fabric = x0.fabric ∧ (admitItems x0 x1).engines = x0.engines ∧
    (admitItems x0 x1).flash = x0.flash ∧ (admitItems x0 x1).power = x0.power ∧ (admitItems x0 x1).limits = x0.limits ∧
    (admitItems x0 x1).fuses = x0.fuses ∧ (admitItems x0 x1).shelfSkips = x0.shelfSkips ∧ (admitItems x0 x1).shelfCuts = x0.shelfCuts ∧
    (admitItems x0 x1).pending = x0.pending := by simp [admitItems]

@[simp] theorem grantChunks_frame (x0 x1) : (grantChunks x0 x1).fabric = x0.fabric ∧ (grantChunks x0 x1).store = x0.store ∧
    (grantChunks x0 x1).tier = x0.tier ∧ (grantChunks x0 x1).engines = x0.engines ∧ (grantChunks x0 x1).host = x0.host ∧
    (grantChunks x0 x1).text = x0.text ∧ (grantChunks x0 x1).pair = x0.pair ∧ (grantChunks x0 x1).flash = x0.flash ∧
    (grantChunks x0 x1).bureau = x0.bureau ∧ (grantChunks x0 x1).power = x0.power ∧ (grantChunks x0 x1).limits = x0.limits ∧
    (grantChunks x0 x1).fuses = x0.fuses ∧ (grantChunks x0 x1).shelfSkips = x0.shelfSkips ∧ (grantChunks x0 x1).shelfCuts = x0.shelfCuts ∧
    (grantChunks x0 x1).free = x0.free ∧ (grantChunks x0 x1).pending = x0.pending := by unfold grantChunks; split <;> simp

@[simp] theorem requestDraws_frame (x0 x1) : (requestDraws x0 x1).tier = x0.tier ∧ (requestDraws x0 x1).engines = x0.engines ∧
    (requestDraws x0 x1).text = x0.text ∧ (requestDraws x0 x1).pair = x0.pair ∧ (requestDraws x0 x1).flash = x0.flash ∧
    (requestDraws x0 x1).power = x0.power ∧ (requestDraws x0 x1).limits = x0.limits ∧ (requestDraws x0 x1).fuses = x0.fuses ∧
    (requestDraws x0 x1).shelfSkips = x0.shelfSkips ∧ (requestDraws x0 x1).shelfCuts = x0.shelfCuts ∧ (requestDraws x0 x1).free = x0.free ∧
    (requestDraws x0 x1).pending = x0.pending := by simp [requestDraws]

@[simp] theorem startEngine_frame (x0 x1 x2) : (startEngine x0 x1 x2).fabric = x1.fabric ∧ (startEngine x0 x1 x2).store = x1.store ∧
    (startEngine x0 x1 x2).tier = x1.tier ∧ (startEngine x0 x1 x2).host = x1.host ∧ (startEngine x0 x1 x2).gen = x1.gen ∧
    (startEngine x0 x1 x2).text = x1.text ∧ (startEngine x0 x1 x2).pair = x1.pair ∧ (startEngine x0 x1 x2).flash = x1.flash ∧
    (startEngine x0 x1 x2).bureau = x1.bureau ∧ (startEngine x0 x1 x2).power = x1.power ∧ (startEngine x0 x1 x2).limits = x1.limits ∧
    (startEngine x0 x1 x2).fuses = x1.fuses ∧ (startEngine x0 x1 x2).shelfSkips = x1.shelfSkips ∧
    (startEngine x0 x1 x2).shelfCuts = x1.shelfCuts ∧ (startEngine x0 x1 x2).free = x1.free ∧ (startEngine x0 x1 x2).pending = x1.pending := by simp [startEngine]

@[simp] theorem markNoSpec_frame (x0 x1) : (markNoSpec x0 x1).fabric = x0.fabric ∧ (markNoSpec x0 x1).store = x0.store ∧
    (markNoSpec x0 x1).tier = x0.tier ∧ (markNoSpec x0 x1).engines = x0.engines ∧ (markNoSpec x0 x1).gen = x0.gen ∧
    (markNoSpec x0 x1).text = x0.text ∧ (markNoSpec x0 x1).pair = x0.pair ∧ (markNoSpec x0 x1).flash = x0.flash ∧
    (markNoSpec x0 x1).bureau = x0.bureau ∧ (markNoSpec x0 x1).power = x0.power ∧ (markNoSpec x0 x1).limits = x0.limits ∧
    (markNoSpec x0 x1).fuses = x0.fuses ∧ (markNoSpec x0 x1).shelfSkips = x0.shelfSkips ∧ (markNoSpec x0 x1).shelfCuts = x0.shelfCuts ∧
    (markNoSpec x0 x1).free = x0.free ∧ (markNoSpec x0 x1).pending = x0.pending := by simp [markNoSpec]

@[simp] theorem startStep_frame (x0 x1) : (startStep x0 x1).fabric = x0.fabric ∧ (startStep x0 x1).store = x0.store ∧
    (startStep x0 x1).tier = x0.tier ∧ (startStep x0 x1).text = x0.text ∧ (startStep x0 x1).pair = x0.pair ∧
    (startStep x0 x1).flash = x0.flash ∧ (startStep x0 x1).bureau = x0.bureau ∧ (startStep x0 x1).power = x0.power ∧
    (startStep x0 x1).limits = x0.limits ∧ (startStep x0 x1).fuses = x0.fuses ∧ (startStep x0 x1).shelfSkips = x0.shelfSkips ∧
    (startStep x0 x1).shelfCuts = x0.shelfCuts ∧ (startStep x0 x1).free = x0.free ∧ (startStep x0 x1).pending = x0.pending := by simp [startStep]

@[simp] theorem openStep_frame (x0 x1) : (openStep x0 x1).flash = x0.flash ∧ (openStep x0 x1).power = x0.power ∧
    (openStep x0 x1).limits = x0.limits ∧ (openStep x0 x1).fuses = x0.fuses ∧ (openStep x0 x1).shelfSkips = x0.shelfSkips ∧
    (openStep x0 x1).shelfCuts = x0.shelfCuts ∧ (openStep x0 x1).pending = x0.pending := by simp [openStep]

@[simp] theorem countStep_frame (x0 x1 x2) : (countStep x0 x1 x2).fabric = x0.fabric ∧ (countStep x0 x1 x2).store = x0.store ∧
    (countStep x0 x1 x2).tier = x0.tier ∧ (countStep x0 x1 x2).host = x0.host ∧ (countStep x0 x1 x2).text = x0.text ∧
    (countStep x0 x1 x2).pair = x0.pair ∧ (countStep x0 x1 x2).flash = x0.flash ∧ (countStep x0 x1 x2).bureau = x0.bureau ∧
    (countStep x0 x1 x2).power = x0.power ∧ (countStep x0 x1 x2).limits = x0.limits ∧ (countStep x0 x1 x2).fuses = x0.fuses ∧
    (countStep x0 x1 x2).shelfSkips = x0.shelfSkips ∧ (countStep x0 x1 x2).shelfCuts = x0.shelfCuts ∧ (countStep x0 x1 x2).free = x0.free ∧
    (countStep x0 x1 x2).pending = x0.pending := by simp [countStep]

@[simp] theorem commitStep_frame (x0 x1 x2) : (commitStep x0 x1 x2).text = x0.text ∧ (commitStep x0 x1 x2).flash = x0.flash ∧
    (commitStep x0 x1 x2).power = x0.power ∧ (commitStep x0 x1 x2).limits = x0.limits ∧ (commitStep x0 x1 x2).fuses = x0.fuses ∧
    (commitStep x0 x1 x2).shelfSkips = x0.shelfSkips ∧ (commitStep x0 x1 x2).shelfCuts = x0.shelfCuts ∧
    (commitStep x0 x1 x2).pending = x0.pending := by simp [commitStep]

@[simp] theorem endRemoved_frame (x0 x1 x2) : (endRemoved x0 x1 x2).fabric = x1.fabric ∧ (endRemoved x0 x1 x2).store = x1.store ∧
    (endRemoved x0 x1 x2).tier = x1.tier ∧ (endRemoved x0 x1 x2).engines = x1.engines ∧ (endRemoved x0 x1 x2).host = x1.host ∧
    (endRemoved x0 x1 x2).text = x1.text ∧ (endRemoved x0 x1 x2).pair = x1.pair ∧ (endRemoved x0 x1 x2).flash = x1.flash ∧
    (endRemoved x0 x1 x2).bureau = x1.bureau ∧ (endRemoved x0 x1 x2).power = x1.power ∧ (endRemoved x0 x1 x2).limits = x1.limits ∧
    (endRemoved x0 x1 x2).fuses = x1.fuses ∧ (endRemoved x0 x1 x2).shelfSkips = x1.shelfSkips ∧
    (endRemoved x0 x1 x2).shelfCuts = x1.shelfCuts ∧ (endRemoved x0 x1 x2).free = x1.free ∧ (endRemoved x0 x1 x2).pending = x1.pending := by simp [endRemoved]

@[simp] theorem idleBoundary_frame (x0 x1 x2) : (idleBoundary x0 x1 x2).flash = x0.flash ∧ (idleBoundary x0 x1 x2).power = x0.power ∧
    (idleBoundary x0 x1 x2).limits = x0.limits ∧ (idleBoundary x0 x1 x2).fuses = x0.fuses ∧
    (idleBoundary x0 x1 x2).shelfSkips = x0.shelfSkips ∧ (idleBoundary x0 x1 x2).shelfCuts = x0.shelfCuts ∧
    (idleBoundary x0 x1 x2).pending = x0.pending := by simp [idleBoundary]

@[simp] theorem stepBoundary_frame (x0 x1 x2) : (stepBoundary x0 x1 x2).flash = x0.flash ∧ (stepBoundary x0 x1 x2).power = x0.power ∧
    (stepBoundary x0 x1 x2).limits = x0.limits ∧ (stepBoundary x0 x1 x2).fuses = x0.fuses ∧
    (stepBoundary x0 x1 x2).shelfSkips = x0.shelfSkips ∧ (stepBoundary x0 x1 x2).shelfCuts = x0.shelfCuts ∧
    (stepBoundary x0 x1 x2).pending = x0.pending := by
  simp only [stepBoundary]
  repeat' split
  all_goals ((try simp only [Prod.ext_iff] at *); (try casesm* _ ∧ _); (try subst_vars); (try simp))

theorem execStepBoundary_frame (x0 x1 x2) : ∀ t, (execStepBoundary x0 x1 x2) = .next t → t.flash = x2.flash ∧ t.power = x2.power ∧
    t.limits = x2.limits ∧ t.fuses = x2.fuses ∧ t.shelfSkips = x2.shelfSkips ∧ t.shelfCuts = x2.shelfCuts ∧ t.pending = x2.pending := by simp [execStepBoundary]

@[simp] theorem contextSwitch_frame (x0 x1 x2) : (contextSwitch x0 x1 x2).fabric = x0.fabric ∧ (contextSwitch x0 x1 x2).store = x0.store ∧
    (contextSwitch x0 x1 x2).tier = x0.tier ∧ (contextSwitch x0 x1 x2).host = x0.host ∧ (contextSwitch x0 x1 x2).gen = x0.gen ∧
    (contextSwitch x0 x1 x2).text = x0.text ∧ (contextSwitch x0 x1 x2).pair = x0.pair ∧ (contextSwitch x0 x1 x2).flash = x0.flash ∧
    (contextSwitch x0 x1 x2).bureau = x0.bureau ∧ (contextSwitch x0 x1 x2).power = x0.power ∧ (contextSwitch x0 x1 x2).limits = x0.limits ∧
    (contextSwitch x0 x1 x2).fuses = x0.fuses ∧ (contextSwitch x0 x1 x2).shelfSkips = x0.shelfSkips ∧
    (contextSwitch x0 x1 x2).shelfCuts = x0.shelfCuts ∧ (contextSwitch x0 x1 x2).free = x0.free ∧
    (contextSwitch x0 x1 x2).pending = x0.pending := by
  simp only [contextSwitch]
  repeat' split
  all_goals ((try simp only [Prod.ext_iff] at *); (try casesm* _ ∧ _); (try subst_vars); (try simp))

theorem execEngineContextSwitch_frame (x0 x1 x2) : ∀ t, (execEngineContextSwitch x0 x1 x2) = .next t → t.fabric = x2.fabric ∧
    t.store = x2.store ∧ t.tier = x2.tier ∧ t.host = x2.host ∧ t.gen = x2.gen ∧ t.text = x2.text ∧ t.pair = x2.pair ∧ t.flash = x2.flash ∧
    t.bureau = x2.bureau ∧ t.power = x2.power ∧ t.limits = x2.limits ∧ t.fuses = x2.fuses ∧ t.shelfSkips = x2.shelfSkips ∧
    t.shelfCuts = x2.shelfCuts ∧ t.free = x2.free ∧ t.pending = x2.pending := by simp [execEngineContextSwitch]

/-! ## Operands -/

@[simp] theorem windowPut_frame (x0 x1 x2) : (windowPut x0 x1 x2).fabric = x0.fabric ∧ (windowPut x0 x1 x2).store = x0.store ∧
    (windowPut x0 x1 x2).engines = x0.engines ∧ (windowPut x0 x1 x2).host = x0.host ∧ (windowPut x0 x1 x2).gen = x0.gen ∧
    (windowPut x0 x1 x2).text = x0.text ∧ (windowPut x0 x1 x2).pair = x0.pair ∧ (windowPut x0 x1 x2).flash = x0.flash ∧
    (windowPut x0 x1 x2).bureau = x0.bureau ∧ (windowPut x0 x1 x2).power = x0.power ∧ (windowPut x0 x1 x2).limits = x0.limits ∧
    (windowPut x0 x1 x2).fuses = x0.fuses ∧ (windowPut x0 x1 x2).shelfSkips = x0.shelfSkips ∧ (windowPut x0 x1 x2).shelfCuts = x0.shelfCuts ∧
    (windowPut x0 x1 x2).free = x0.free ∧ (windowPut x0 x1 x2).pending = x0.pending := by simp [windowPut]

/-! ## Accept -/

@[simp] theorem denyEvent_frame (x0 x1 x2 x3) : (denyEvent x0 x1 x2 x3).fabric = x0.fabric ∧ (denyEvent x0 x1 x2 x3).store = x0.store ∧
    (denyEvent x0 x1 x2 x3).tier = x0.tier ∧ (denyEvent x0 x1 x2 x3).engines = x0.engines ∧ (denyEvent x0 x1 x2 x3).gen = x0.gen ∧
    (denyEvent x0 x1 x2 x3).text = x0.text ∧ (denyEvent x0 x1 x2 x3).pair = x0.pair ∧ (denyEvent x0 x1 x2 x3).flash = x0.flash ∧
    (denyEvent x0 x1 x2 x3).power = x0.power ∧ (denyEvent x0 x1 x2 x3).limits = x0.limits ∧ (denyEvent x0 x1 x2 x3).fuses = x0.fuses ∧
    (denyEvent x0 x1 x2 x3).shelfSkips = x0.shelfSkips ∧ (denyEvent x0 x1 x2 x3).shelfCuts = x0.shelfCuts ∧
    (denyEvent x0 x1 x2 x3).pending = x0.pending := by
  unfold denyEvent
  repeat' split
  all_goals ((try simp only [Prod.ext_iff] at *); (try casesm* _ ∧ _); (try subst_vars); (try simp))

@[simp] theorem applyReject_frame (x0 x1 x2) : (applyReject x0 x1 x2).fabric = x0.fabric ∧ (applyReject x0 x1 x2).store = x0.store ∧
    (applyReject x0 x1 x2).tier = x0.tier ∧ (applyReject x0 x1 x2).engines = x0.engines ∧ (applyReject x0 x1 x2).text = x0.text ∧
    (applyReject x0 x1 x2).flash = x0.flash ∧ (applyReject x0 x1 x2).power = x0.power ∧ (applyReject x0 x1 x2).limits = x0.limits ∧
    (applyReject x0 x1 x2).fuses = x0.fuses ∧ (applyReject x0 x1 x2).shelfSkips = x0.shelfSkips ∧
    (applyReject x0 x1 x2).shelfCuts = x0.shelfCuts ∧ (applyReject x0 x1 x2).pending = x0.pending := by
  unfold applyReject
  repeat' split
  all_goals ((try simp only [Prod.ext_iff] at *); (try casesm* _ ∧ _); (try subst_vars); (try simp))

@[simp] theorem checked_frame (x0 x1 x2 x3) : ((∀ y0, ((x3 y0)).fabric = (y0).fabric) → (checked x0 x1 x2 x3).fabric = x0.fabric) ∧
    ((∀ y0, ((x3 y0)).store = (y0).store) → (checked x0 x1 x2 x3).store = x0.store) ∧
    ((∀ y0, ((x3 y0)).tier = (y0).tier) → (checked x0 x1 x2 x3).tier = x0.tier) ∧
    ((∀ y0, ((x3 y0)).engines = (y0).engines) → (checked x0 x1 x2 x3).engines = x0.engines) ∧
    ((∀ y0, ((x3 y0)).text = (y0).text) → (checked x0 x1 x2 x3).text = x0.text) ∧
    ((∀ y0, ((x3 y0)).flash = (y0).flash) → (checked x0 x1 x2 x3).flash = x0.flash) ∧
    ((∀ y0, ((x3 y0)).power = (y0).power) → (checked x0 x1 x2 x3).power = x0.power) ∧
    ((∀ y0, ((x3 y0)).limits = (y0).limits) → (checked x0 x1 x2 x3).limits = x0.limits) ∧
    ((∀ y0, ((x3 y0)).fuses = (y0).fuses) → (checked x0 x1 x2 x3).fuses = x0.fuses) ∧
    ((∀ y0, ((x3 y0)).shelfSkips = (y0).shelfSkips) → (checked x0 x1 x2 x3).shelfSkips = x0.shelfSkips) ∧
    ((∀ y0, ((x3 y0)).shelfCuts = (y0).shelfCuts) → (checked x0 x1 x2 x3).shelfCuts = x0.shelfCuts) ∧
    ((∀ y0, ((x3 y0)).pending = (y0).pending) → (checked x0 x1 x2 x3).pending = x0.pending) := by
  refine ⟨fun h0 => ?_, fun h0 => ?_, fun h0 => ?_, fun h0 => ?_, fun h0 => ?_, fun h0 => ?_, fun h0 => ?_, fun h0 => ?_, fun h0 => ?_, fun h0 => ?_, fun h0 => ?_, fun h0 => ?_⟩
  all_goals unfold checked
  all_goals (repeat' split)
  all_goals ((try simp only [Prod.ext_iff] at *); (try casesm* _ ∧ _); (try subst_vars); first | (simp [h0]; done) | (simp_all; done) | skip)

@[simp] theorem acceptFront_frame (x0 x1 x2 x3 x4 x5 x6) : ((∀ y0 y1 y2 y3, ((x6 y0 y1 y2 y3)).fabric = (y0).fabric) → (acceptFront x0 x1 x2 x3 x4 x5 x6).fabric = x0.fabric) ∧
    ((∀ y0 y1 y2 y3, ((x6 y0 y1 y2 y3)).store = (y0).store) → (acceptFront x0 x1 x2 x3 x4 x5 x6).store = x0.store) ∧
    ((∀ y0 y1 y2 y3, ((x6 y0 y1 y2 y3)).tier = (y0).tier) → (acceptFront x0 x1 x2 x3 x4 x5 x6).tier = x0.tier) ∧
    ((∀ y0 y1 y2 y3, ((x6 y0 y1 y2 y3)).engines = (y0).engines) → (acceptFront x0 x1 x2 x3 x4 x5 x6).engines = x0.engines) ∧
    ((∀ y0 y1 y2 y3, ((x6 y0 y1 y2 y3)).text = (y0).text) → (acceptFront x0 x1 x2 x3 x4 x5 x6).text = x0.text) ∧
    ((∀ y0 y1 y2 y3, ((x6 y0 y1 y2 y3)).flash = (y0).flash) → (acceptFront x0 x1 x2 x3 x4 x5 x6).flash = x0.flash) ∧
    ((∀ y0 y1 y2 y3, ((x6 y0 y1 y2 y3)).power = (y0).power) → (acceptFront x0 x1 x2 x3 x4 x5 x6).power = x0.power) ∧
    ((∀ y0 y1 y2 y3, ((x6 y0 y1 y2 y3)).limits = (y0).limits) → (acceptFront x0 x1 x2 x3 x4 x5 x6).limits = x0.limits) ∧
    ((∀ y0 y1 y2 y3, ((x6 y0 y1 y2 y3)).fuses = (y0).fuses) → (acceptFront x0 x1 x2 x3 x4 x5 x6).fuses = x0.fuses) ∧
    ((∀ y0 y1 y2 y3, ((x6 y0 y1 y2 y3)).shelfSkips = (y0).shelfSkips) → (acceptFront x0 x1 x2 x3 x4 x5 x6).shelfSkips = x0.shelfSkips) ∧
    ((∀ y0 y1 y2 y3, ((x6 y0 y1 y2 y3)).shelfCuts = (y0).shelfCuts) → (acceptFront x0 x1 x2 x3 x4 x5 x6).shelfCuts = x0.shelfCuts) ∧
    ((∀ y0 y1 y2 y3, ((x6 y0 y1 y2 y3)).pending = (y0).pending) → (acceptFront x0 x1 x2 x3 x4 x5 x6).pending = x0.pending) := by
  refine ⟨fun h0 => ?_, fun h0 => ?_, fun h0 => ?_, fun h0 => ?_, fun h0 => ?_, fun h0 => ?_, fun h0 => ?_, fun h0 => ?_, fun h0 => ?_, fun h0 => ?_, fun h0 => ?_, fun h0 => ?_⟩
  all_goals unfold acceptFront
  all_goals (repeat' split)
  all_goals ((try simp only [Prod.ext_iff] at *); (try casesm* _ ∧ _); (try subst_vars); first | (simp [h0]; done) | (simp_all; done) | skip)

@[simp] theorem rejectUnknown_frame (x0 x1 x2 x3) : (rejectUnknown x0 x1 x2 x3).fabric = x0.fabric ∧
    (rejectUnknown x0 x1 x2 x3).store = x0.store ∧ (rejectUnknown x0 x1 x2 x3).tier = x0.tier ∧
    (rejectUnknown x0 x1 x2 x3).engines = x0.engines ∧ (rejectUnknown x0 x1 x2 x3).text = x0.text ∧
    (rejectUnknown x0 x1 x2 x3).flash = x0.flash ∧ (rejectUnknown x0 x1 x2 x3).bureau = x0.bureau ∧
    (rejectUnknown x0 x1 x2 x3).power = x0.power ∧ (rejectUnknown x0 x1 x2 x3).limits = x0.limits ∧
    (rejectUnknown x0 x1 x2 x3).fuses = x0.fuses ∧ (rejectUnknown x0 x1 x2 x3).shelfSkips = x0.shelfSkips ∧
    (rejectUnknown x0 x1 x2 x3).shelfCuts = x0.shelfCuts ∧ (rejectUnknown x0 x1 x2 x3).pending = x0.pending := by simp [rejectUnknown]

/-! ## Program -/

@[simp] theorem storeEntry_frame (x0 x1 x2 x3) : (storeEntry x0 x1 x2 x3).fabric = x0.fabric ∧ (storeEntry x0 x1 x2 x3).store = x0.store ∧
    (storeEntry x0 x1 x2 x3).engines = x0.engines ∧ (storeEntry x0 x1 x2 x3).host = x0.host ∧ (storeEntry x0 x1 x2 x3).gen = x0.gen ∧
    (storeEntry x0 x1 x2 x3).text = x0.text ∧ (storeEntry x0 x1 x2 x3).pair = x0.pair ∧ (storeEntry x0 x1 x2 x3).flash = x0.flash ∧
    (storeEntry x0 x1 x2 x3).bureau = x0.bureau ∧ (storeEntry x0 x1 x2 x3).power = x0.power ∧ (storeEntry x0 x1 x2 x3).limits = x0.limits ∧
    (storeEntry x0 x1 x2 x3).fuses = x0.fuses ∧ (storeEntry x0 x1 x2 x3).shelfSkips = x0.shelfSkips ∧
    (storeEntry x0 x1 x2 x3).shelfCuts = x0.shelfCuts ∧ (storeEntry x0 x1 x2 x3).free = x0.free ∧
    (storeEntry x0 x1 x2 x3).pending = x0.pending := by simp [storeEntry]

theorem mapPool_frame (x0 x1 x2) : ∀ t, (mapPool x0 x1 x2) = some t → (t).2.fabric = x0.fabric ∧ (t).2.store = x0.store ∧
    (t).2.engines = x0.engines ∧ (t).2.host = x0.host ∧ (t).2.gen = x0.gen ∧ (t).2.text = x0.text ∧ (t).2.pair = x0.pair ∧
    (t).2.flash = x0.flash ∧ (t).2.bureau = x0.bureau ∧ (t).2.power = x0.power ∧ (t).2.limits = x0.limits ∧ (t).2.fuses = x0.fuses ∧
    (t).2.shelfSkips = x0.shelfSkips ∧ (t).2.shelfCuts = x0.shelfCuts ∧ (t).2.free = x0.free ∧ (t).2.pending = x0.pending := by
  intro t h
  simp only [mapPool, Option.map_eq_some_iff] at h
  obtain ⟨s, h, rfl⟩ := h
  simp only []
  generalize x2.zip (freeNumbers x0 x2.length) = m at h
  have key : ∀ (m : List (Nat × Nat)) (a : State), m.foldl (mapShare x1) (some a) = some s → s.fabric = a.fabric ∧ s.store = a.store ∧ s.engines = a.engines ∧ s.host = a.host ∧ s.gen = a.gen ∧ s.text = a.text ∧ s.pair = a.pair ∧ s.flash = a.flash ∧ s.bureau = a.bureau ∧ s.power = a.power ∧ s.limits = a.limits ∧ s.fuses = a.fuses ∧ s.shelfSkips = a.shelfSkips ∧ s.shelfCuts = a.shelfCuts ∧ s.free = a.free ∧ s.pending = a.pending := by
    intro m
    induction m with
    | nil => intro a h; cases h; simp
    | cons y m ih =>
      intro a h
      rw [List.foldl_cons] at h
      rcases hb : mapShare x1 (some a) y with _ | b
      · rw [hb] at h
        have : ∀ l : List (Nat × Nat), l.foldl (mapShare x1) none = none := by
          intro l; induction l with
          | nil => rfl
          | cons z l ih => rw [List.foldl_cons]; exact ih
        rw [this] at h; cases h
      · rw [hb] at h
        have h1 := ih _ h
        simp only [mapShare, Option.bind_some, Option.map_eq_some_iff] at hb
        obtain ⟨k, -, rfl⟩ := hb
        simp_all
  exact key _ _ h

@[simp] theorem dropPool_frame (x0 x1) : (dropPool x0 x1).fabric = x0.fabric ∧ (dropPool x0 x1).store = x0.store ∧
    (dropPool x0 x1).engines = x0.engines ∧ (dropPool x0 x1).host = x0.host ∧ (dropPool x0 x1).gen = x0.gen ∧
    (dropPool x0 x1).text = x0.text ∧ (dropPool x0 x1).pair = x0.pair ∧ (dropPool x0 x1).flash = x0.flash ∧
    (dropPool x0 x1).bureau = x0.bureau ∧ (dropPool x0 x1).power = x0.power ∧ (dropPool x0 x1).limits = x0.limits ∧
    (dropPool x0 x1).fuses = x0.fuses ∧ (dropPool x0 x1).shelfSkips = x0.shelfSkips ∧ (dropPool x0 x1).shelfCuts = x0.shelfCuts ∧
    (dropPool x0 x1).free = x0.free ∧ (dropPool x0 x1).pending = x0.pending := by
  unfold dropPool
  repeat' split
  all_goals (refine ⟨?_, ?_, ?_, ?_, ?_, ?_, ?_, ?_, ?_, ?_, ?_, ?_, ?_, ?_, ?_, ?_⟩)
  all_goals (try (first | refine (State.foldl_fabric (fun _ _ => ?_) _ _).trans ?_ | refine (State.foldl_store (fun _ _ => ?_) _ _).trans ?_ | refine (State.foldl_engines (fun _ _ => ?_) _ _).trans ?_ | refine (State.foldl_host (fun _ _ => ?_) _ _).trans ?_ | refine (State.foldl_gen (fun _ _ => ?_) _ _).trans ?_ | refine (State.foldl_text (fun _ _ => ?_) _ _).trans ?_ | refine (State.foldl_pair (fun _ _ => ?_) _ _).trans ?_ | refine (State.foldl_flash (fun _ _ => ?_) _ _).trans ?_ | refine (State.foldl_bureau (fun _ _ => ?_) _ _).trans ?_ | refine (State.foldl_power (fun _ _ => ?_) _ _).trans ?_ | refine (State.foldl_limits (fun _ _ => ?_) _ _).trans ?_ | refine (State.foldl_fuses (fun _ _ => ?_) _ _).trans ?_ | refine (State.foldl_shelfSkips (fun _ _ => ?_) _ _).trans ?_ | refine (State.foldl_shelfCuts (fun _ _ => ?_) _ _).trans ?_ | refine (State.foldl_free (fun _ _ => ?_) _ _).trans ?_ | refine (State.foldl_pending (fun _ _ => ?_) _ _).trans ?_ ))
  all_goals (repeat' split)
  all_goals ((try simp only [Prod.ext_iff] at *); (try casesm* _ ∧ _); (try subst_vars); first | (simp; done) | (simp_all; done) | skip)

theorem takeL_frame (x0 x1) : ∀ t, (takeL x0 x1) = some t → ((t).2).2.fabric = x0.fabric ∧ ((t).2).2.store = x0.store ∧
    ((t).2).2.tier = x0.tier ∧ ((t).2).2.engines = x0.engines ∧ ((t).2).2.host = x0.host ∧ ((t).2).2.gen = x0.gen ∧ ((t).2).2.text = x0.text ∧
    ((t).2).2.pair = x0.pair ∧ ((t).2).2.flash = x0.flash ∧ ((t).2).2.bureau = x0.bureau ∧ ((t).2).2.power = x0.power ∧
    ((t).2).2.limits = x0.limits ∧ ((t).2).2.fuses = x0.fuses ∧ ((t).2).2.shelfSkips = x0.shelfSkips ∧ ((t).2).2.shelfCuts = x0.shelfCuts ∧
    ((t).2).2.pending = x0.pending := by simp [takeL]

@[simp] theorem addContext_frame (x0 x1 x2) : (addContext x0 x1 x2).fabric = x1.fabric ∧ (addContext x0 x1 x2).store = x1.store ∧
    (addContext x0 x1 x2).tier = x1.tier ∧ (addContext x0 x1 x2).host = x1.host ∧ (addContext x0 x1 x2).gen = x1.gen ∧
    (addContext x0 x1 x2).text = x1.text ∧ (addContext x0 x1 x2).pair = x1.pair ∧ (addContext x0 x1 x2).flash = x1.flash ∧
    (addContext x0 x1 x2).bureau = x1.bureau ∧ (addContext x0 x1 x2).power = x1.power ∧ (addContext x0 x1 x2).limits = x1.limits ∧
    (addContext x0 x1 x2).fuses = x1.fuses ∧ (addContext x0 x1 x2).shelfSkips = x1.shelfSkips ∧
    (addContext x0 x1 x2).shelfCuts = x1.shelfCuts ∧ (addContext x0 x1 x2).free = x1.free ∧ (addContext x0 x1 x2).pending = x1.pending := by simp [addContext]

@[simp] theorem pinPlan_frame (x0 x1 x2) : (pinPlan x0 x1 x2).fabric = x0.fabric ∧ (pinPlan x0 x1 x2).store = x0.store ∧
    (pinPlan x0 x1 x2).engines = x0.engines ∧ (pinPlan x0 x1 x2).host = x0.host ∧ (pinPlan x0 x1 x2).gen = x0.gen ∧
    (pinPlan x0 x1 x2).text = x0.text ∧ (pinPlan x0 x1 x2).pair = x0.pair ∧ (pinPlan x0 x1 x2).flash = x0.flash ∧
    (pinPlan x0 x1 x2).bureau = x0.bureau ∧ (pinPlan x0 x1 x2).power = x0.power ∧ (pinPlan x0 x1 x2).limits = x0.limits ∧
    (pinPlan x0 x1 x2).fuses = x0.fuses ∧ (pinPlan x0 x1 x2).shelfSkips = x0.shelfSkips ∧ (pinPlan x0 x1 x2).shelfCuts = x0.shelfCuts ∧
    (pinPlan x0 x1 x2).free = x0.free ∧ (pinPlan x0 x1 x2).pending = x0.pending := by simp [pinPlan]

@[simp] theorem releaseShares_frame (x0 x1) : (releaseShares x0 x1).fabric = x0.fabric ∧ (releaseShares x0 x1).host = x0.host ∧
    (releaseShares x0 x1).text = x0.text ∧ (releaseShares x0 x1).pair = x0.pair ∧ (releaseShares x0 x1).flash = x0.flash ∧
    (releaseShares x0 x1).bureau = x0.bureau ∧ (releaseShares x0 x1).power = x0.power ∧ (releaseShares x0 x1).limits = x0.limits ∧
    (releaseShares x0 x1).fuses = x0.fuses ∧ (releaseShares x0 x1).shelfSkips = x0.shelfSkips ∧
    (releaseShares x0 x1).shelfCuts = x0.shelfCuts ∧ (releaseShares x0 x1).free = x0.free ∧ (releaseShares x0 x1).pending = x0.pending := by
  simp only [releaseShares]
  repeat' split
  all_goals ((try simp only [Prod.ext_iff] at *); (try casesm* _ ∧ _); (try subst_vars); (try simp))

@[simp] theorem dropAdapters_frame (x0 x1) : (dropAdapters x0 x1).fabric = x0.fabric ∧ (dropAdapters x0 x1).store = x0.store ∧
    (dropAdapters x0 x1).tier = x0.tier ∧ (dropAdapters x0 x1).engines = x0.engines ∧ (dropAdapters x0 x1).host = x0.host ∧
    (dropAdapters x0 x1).text = x0.text ∧ (dropAdapters x0 x1).pair = x0.pair ∧ (dropAdapters x0 x1).flash = x0.flash ∧
    (dropAdapters x0 x1).bureau = x0.bureau ∧ (dropAdapters x0 x1).power = x0.power ∧ (dropAdapters x0 x1).limits = x0.limits ∧
    (dropAdapters x0 x1).fuses = x0.fuses ∧ (dropAdapters x0 x1).shelfSkips = x0.shelfSkips ∧ (dropAdapters x0 x1).shelfCuts = x0.shelfCuts ∧
    (dropAdapters x0 x1).free = x0.free ∧ (dropAdapters x0 x1).pending = x0.pending := by simp [dropAdapters]

@[simp] theorem placeProgram_frame (x0 x1 x2 x3) : (placeProgram x0 x1 x2 x3).text = x0.text ∧ (placeProgram x0 x1 x2 x3).pair = x0.pair ∧
    (placeProgram x0 x1 x2 x3).flash = x0.flash ∧ (placeProgram x0 x1 x2 x3).power = x0.power ∧
    (placeProgram x0 x1 x2 x3).limits = x0.limits ∧ (placeProgram x0 x1 x2 x3).fuses = x0.fuses ∧
    (placeProgram x0 x1 x2 x3).shelfSkips = x0.shelfSkips ∧ (placeProgram x0 x1 x2 x3).shelfCuts = x0.shelfCuts ∧
    (placeProgram x0 x1 x2 x3).pending = x0.pending := by
  unfold placeProgram
  split
  · simp
  · rename_i heq
    simp only [Option.bind_eq_some_iff, Option.map_eq_some_iff] at heq
    obtain ⟨a, h1, b, h2, h3⟩ := heq
    have h1 := takeL_frame _ _ _ h1
    have h2 := mapPool_frame _ _ _ _ h2
    simp only [Prod.ext_iff] at h3
    casesm* _ ∧ _
    subst_vars
    simp_all

@[simp] theorem without__frame (x0 x1) : (without_ x0 x1).fabric = x0.fabric ∧ (without_ x0 x1).host = x0.host ∧
    (without_ x0 x1).text = x0.text ∧ (without_ x0 x1).pair = x0.pair ∧ (without_ x0 x1).flash = x0.flash ∧
    (without_ x0 x1).bureau = x0.bureau ∧ (without_ x0 x1).power = x0.power ∧ (without_ x0 x1).limits = x0.limits ∧
    (without_ x0 x1).fuses = x0.fuses ∧ (without_ x0 x1).shelfSkips = x0.shelfSkips ∧ (without_ x0 x1).shelfCuts = x0.shelfCuts ∧
    (without_ x0 x1).free = x0.free ∧ (without_ x0 x1).pending = x0.pending := by simp [without_]

@[simp] theorem loadOn_frame (x0 x1 x2 x3 x4) : (loadOn x0 x1 x2 x3 x4).text = x0.text ∧ (loadOn x0 x1 x2 x3 x4).flash = x0.flash ∧
    (loadOn x0 x1 x2 x3 x4).power = x0.power ∧ (loadOn x0 x1 x2 x3 x4).limits = x0.limits ∧ (loadOn x0 x1 x2 x3 x4).fuses = x0.fuses ∧
    (loadOn x0 x1 x2 x3 x4).shelfSkips = x0.shelfSkips ∧ (loadOn x0 x1 x2 x3 x4).shelfCuts = x0.shelfCuts ∧
    (loadOn x0 x1 x2 x3 x4).pending = x0.pending := by simp [loadOn]

@[simp] theorem loadSelect_frame (x0 x1 x2 x3) : (loadSelect x0 x1 x2 x3).text = x0.text ∧ (loadSelect x0 x1 x2 x3).flash = x0.flash ∧
    (loadSelect x0 x1 x2 x3).power = x0.power ∧ (loadSelect x0 x1 x2 x3).limits = x0.limits ∧ (loadSelect x0 x1 x2 x3).fuses = x0.fuses ∧
    (loadSelect x0 x1 x2 x3).shelfSkips = x0.shelfSkips ∧ (loadSelect x0 x1 x2 x3).shelfCuts = x0.shelfCuts ∧
    (loadSelect x0 x1 x2 x3).pending = x0.pending := by unfold loadSelect; split <;> simp

@[simp] theorem noExtent_frame (x0 x1 x2) : (noExtent x0 x1 x2).fabric = x0.fabric ∧ (noExtent x0 x1 x2).store = x0.store ∧
    (noExtent x0 x1 x2).tier = x0.tier ∧ (noExtent x0 x1 x2).engines = x0.engines ∧ (noExtent x0 x1 x2).gen = x0.gen ∧
    (noExtent x0 x1 x2).text = x0.text ∧ (noExtent x0 x1 x2).pair = x0.pair ∧ (noExtent x0 x1 x2).flash = x0.flash ∧
    (noExtent x0 x1 x2).power = x0.power ∧ (noExtent x0 x1 x2).limits = x0.limits ∧ (noExtent x0 x1 x2).fuses = x0.fuses ∧
    (noExtent x0 x1 x2).shelfSkips = x0.shelfSkips ∧ (noExtent x0 x1 x2).shelfCuts = x0.shelfCuts ∧ (noExtent x0 x1 x2).free = x0.free ∧
    (noExtent x0 x1 x2).pending = x0.pending := by simp [noExtent]

@[simp] theorem programLoad_frame (x0 x1 x2 x3) : (programLoad x0 x1 x2 x3).text = x0.text ∧ (programLoad x0 x1 x2 x3).flash = x0.flash ∧
    (programLoad x0 x1 x2 x3).power = x0.power ∧ (programLoad x0 x1 x2 x3).limits = x0.limits ∧ (programLoad x0 x1 x2 x3).fuses = x0.fuses ∧
    (programLoad x0 x1 x2 x3).shelfSkips = x0.shelfSkips ∧ (programLoad x0 x1 x2 x3).shelfCuts = x0.shelfCuts ∧
    (programLoad x0 x1 x2 x3).pending = x0.pending := by simp [programLoad]

theorem execProgramLoad_frame (x0 x1 x2 x3 x4) : ∀ t, (execProgramLoad x0 x1 x2 x3 x4) = .next t → t.text = x4.text ∧ t.flash = x4.flash ∧
    t.power = x4.power ∧ t.limits = x4.limits ∧ t.fuses = x4.fuses ∧ t.shelfSkips = x4.shelfSkips ∧ t.shelfCuts = x4.shelfCuts ∧
    t.pending = x4.pending := by
  unfold execProgramLoad
  repeat' split
  all_goals ((try simp only [Prod.ext_iff] at *); (try casesm* _ ∧ _); (try subst_vars); first | (simp; done) | (simp_all; done) | skip)

@[simp] theorem replaceSwitch_frame (x0 x1) : (replaceSwitch x0 x1).text = x0.text ∧ (replaceSwitch x0 x1).flash = x0.flash ∧
    (replaceSwitch x0 x1).power = x0.power ∧ (replaceSwitch x0 x1).limits = x0.limits ∧ (replaceSwitch x0 x1).fuses = x0.fuses ∧
    (replaceSwitch x0 x1).shelfSkips = x0.shelfSkips ∧ (replaceSwitch x0 x1).shelfCuts = x0.shelfCuts ∧
    (replaceSwitch x0 x1).pending = x0.pending := by
  simp only [replaceSwitch]
  repeat' split
  all_goals ((try simp only [Prod.ext_iff] at *); (try casesm* _ ∧ _); (try subst_vars); (try simp))

theorem execProgramReplaceSwitch_frame (x0 x1) : ∀ t, (execProgramReplaceSwitch x0 x1) = .next t → t.text = x1.text ∧ t.flash = x1.flash ∧
    t.power = x1.power ∧ t.limits = x1.limits ∧ t.fuses = x1.fuses ∧ t.shelfSkips = x1.shelfSkips ∧ t.shelfCuts = x1.shelfCuts ∧
    t.pending = x1.pending := by simp [execProgramReplaceSwitch]

@[simp] theorem emptyRings_frame (x0 x1) : (emptyRings x0 x1).fabric = x0.fabric ∧ (emptyRings x0 x1).engines = x0.engines ∧
    (emptyRings x0 x1).text = x0.text ∧ (emptyRings x0 x1).flash = x0.flash ∧ (emptyRings x0 x1).power = x0.power ∧
    (emptyRings x0 x1).limits = x0.limits ∧ (emptyRings x0 x1).fuses = x0.fuses ∧ (emptyRings x0 x1).shelfSkips = x0.shelfSkips ∧
    (emptyRings x0 x1).shelfCuts = x0.shelfCuts ∧ (emptyRings x0 x1).pending = x0.pending := by simp [emptyRings]

@[simp] theorem programUnload_frame (x0 x1 x2) : (programUnload x0 x1 x2).fabric = x0.fabric ∧ (programUnload x0 x1 x2).engines = x0.engines ∧
    (programUnload x0 x1 x2).text = x0.text ∧ (programUnload x0 x1 x2).flash = x0.flash ∧ (programUnload x0 x1 x2).power = x0.power ∧
    (programUnload x0 x1 x2).limits = x0.limits ∧ (programUnload x0 x1 x2).fuses = x0.fuses ∧
    (programUnload x0 x1 x2).shelfSkips = x0.shelfSkips ∧ (programUnload x0 x1 x2).shelfCuts = x0.shelfCuts ∧
    (programUnload x0 x1 x2).pending = x0.pending := by simp [programUnload]

theorem execProgramUnload_frame (x0 x1 x2 x3) : ∀ t, (execProgramUnload x0 x1 x2 x3) = .next t → t.fabric = x3.fabric ∧
    t.engines = x3.engines ∧ t.text = x3.text ∧ t.flash = x3.flash ∧ t.power = x3.power ∧ t.limits = x3.limits ∧ t.fuses = x3.fuses ∧
    t.shelfSkips = x3.shelfSkips ∧ t.shelfCuts = x3.shelfCuts ∧ t.pending = x3.pending := by
  unfold execProgramUnload
  repeat' split
  all_goals ((try simp only [Prod.ext_iff] at *); (try casesm* _ ∧ _); (try subst_vars); first | (simp; done) | (simp_all; done) | skip)

@[simp] theorem unloadDone_frame (x0 x1) : (unloadDone x0 x1).fabric = x0.fabric ∧ (unloadDone x0 x1).text = x0.text ∧
    (unloadDone x0 x1).flash = x0.flash ∧ (unloadDone x0 x1).power = x0.power ∧ (unloadDone x0 x1).limits = x0.limits ∧
    (unloadDone x0 x1).fuses = x0.fuses ∧ (unloadDone x0 x1).shelfSkips = x0.shelfSkips ∧ (unloadDone x0 x1).shelfCuts = x0.shelfCuts ∧
    (unloadDone x0 x1).pending = x0.pending := by unfold unloadDone; split <;> simp

theorem execPartitionUnloadDone_frame (x0 x1) : ∀ t, (execPartitionUnloadDone x0 x1) = .next t → t.fabric = x1.fabric ∧ t.text = x1.text ∧
    t.flash = x1.flash ∧ t.power = x1.power ∧ t.limits = x1.limits ∧ t.fuses = x1.fuses ∧ t.shelfSkips = x1.shelfSkips ∧
    t.shelfCuts = x1.shelfCuts ∧ t.pending = x1.pending := by simp [execPartitionUnloadDone]

@[simp] theorem resumeLoads_frame (x0) : (resumeLoads x0).text = x0.text ∧ (resumeLoads x0).flash = x0.flash ∧
    (resumeLoads x0).power = x0.power ∧ (resumeLoads x0).limits = x0.limits ∧ (resumeLoads x0).fuses = x0.fuses ∧
    (resumeLoads x0).shelfSkips = x0.shelfSkips ∧ (resumeLoads x0).shelfCuts = x0.shelfCuts ∧ (resumeLoads x0).pending = x0.pending := by
  unfold resumeLoads
  repeat' split
  all_goals (refine ⟨?_, ?_, ?_, ?_, ?_, ?_, ?_, ?_⟩)
  all_goals (try (first | refine (State.foldl_text (fun _ _ => ?_) _ _).trans ?_ | refine (State.foldl_flash (fun _ _ => ?_) _ _).trans ?_ | refine (State.foldl_power (fun _ _ => ?_) _ _).trans ?_ | refine (State.foldl_limits (fun _ _ => ?_) _ _).trans ?_ | refine (State.foldl_fuses (fun _ _ => ?_) _ _).trans ?_ | refine (State.foldl_shelfSkips (fun _ _ => ?_) _ _).trans ?_ | refine (State.foldl_shelfCuts (fun _ _ => ?_) _ _).trans ?_ | refine (State.foldl_pending (fun _ _ => ?_) _ _).trans ?_ ))
  all_goals (repeat' split)
  all_goals ((try simp only [Prod.ext_iff] at *); (try casesm* _ ∧ _); (try subst_vars); first | (simp; done) | (simp_all; done) | skip)

theorem execFieldTestComplete_frame (x0 x1 x2) : ∀ t, (execFieldTestComplete x0 x1 x2) = .next t → t.text = x2.text ∧ t.flash = x2.flash ∧
    t.power = x2.power ∧ t.limits = x2.limits ∧ t.fuses = x2.fuses ∧ t.shelfSkips = x2.shelfSkips ∧ t.shelfCuts = x2.shelfCuts ∧
    t.pending = x2.pending := by simp [execFieldTestComplete]

@[simp] theorem reselect_frame (x0 x1) : (reselect x0 x1).fabric = x0.fabric ∧ (reselect x0 x1).engines = x0.engines ∧
    (reselect x0 x1).text = x0.text ∧ (reselect x0 x1).flash = x0.flash ∧ (reselect x0 x1).power = x0.power ∧
    (reselect x0 x1).limits = x0.limits ∧ (reselect x0 x1).fuses = x0.fuses ∧ (reselect x0 x1).shelfSkips = x0.shelfSkips ∧
    (reselect x0 x1).shelfCuts = x0.shelfCuts ∧ (reselect x0 x1).pending = x0.pending := by
  unfold reselect
  repeat' split
  all_goals ((try simp only [Prod.ext_iff] at *); (try casesm* _ ∧ _); (try subst_vars); (try simp))

end Sys2Proof.Machine
end

