-- ==== Sys2Proof/Laws/FrameHost.lean ====
section
/-! SUPPORT. Frames of the operations and meanings of host boundary, requests, objects and the pair: the parts of the state that each leaves as they are. -/

set_option linter.unusedSimpArgs false
set_option linter.unusedTactic false
set_option linter.unreachableTactic false
set_option linter.unnecessarySeqFocus false
set_option linter.unusedVariables false

namespace Sys2Proof.Machine

/-! ## Host -/

@[simp] theorem linkTraining_frame (x0 x1 x2 x3) : (linkTraining x0 x1 x2 x3).fabric = x0.fabric ∧
    (linkTraining x0 x1 x2 x3).store = x0.store ∧ (linkTraining x0 x1 x2 x3).tier = x0.tier ∧
    (linkTraining x0 x1 x2 x3).engines = x0.engines ∧ (linkTraining x0 x1 x2 x3).gen = x0.gen ∧ (linkTraining x0 x1 x2 x3).text = x0.text ∧
    (linkTraining x0 x1 x2 x3).pair = x0.pair ∧ (linkTraining x0 x1 x2 x3).flash = x0.flash ∧ (linkTraining x0 x1 x2 x3).power = x0.power ∧
    (linkTraining x0 x1 x2 x3).limits = x0.limits ∧ (linkTraining x0 x1 x2 x3).fuses = x0.fuses ∧
    (linkTraining x0 x1 x2 x3).shelfSkips = x0.shelfSkips ∧ (linkTraining x0 x1 x2 x3).shelfCuts = x0.shelfCuts ∧
    (linkTraining x0 x1 x2 x3).free = x0.free ∧ (linkTraining x0 x1 x2 x3).pending = x0.pending := by simp [linkTraining]

theorem execHostLinkTraining_frame (x0 x1 x2 x3) : ∀ t, (execHostLinkTraining x0 x1 x2 x3) = .next t → t.fabric = x3.fabric ∧
    t.store = x3.store ∧ t.tier = x3.tier ∧ t.engines = x3.engines ∧ t.gen = x3.gen ∧ t.text = x3.text ∧ t.pair = x3.pair ∧
    t.flash = x3.flash ∧ t.power = x3.power ∧ t.limits = x3.limits ∧ t.fuses = x3.fuses ∧ t.shelfSkips = x3.shelfSkips ∧
    t.shelfCuts = x3.shelfCuts ∧ t.free = x3.free ∧ t.pending = x3.pending := by simp [execHostLinkTraining]

@[simp] theorem cacheEnable_frame (x0 x1) : (cacheEnable x0 x1).fabric = x0.fabric ∧ (cacheEnable x0 x1).store = x0.store ∧
    (cacheEnable x0 x1).tier = x0.tier ∧ (cacheEnable x0 x1).engines = x0.engines ∧ (cacheEnable x0 x1).gen = x0.gen ∧
    (cacheEnable x0 x1).text = x0.text ∧ (cacheEnable x0 x1).pair = x0.pair ∧ (cacheEnable x0 x1).flash = x0.flash ∧
    (cacheEnable x0 x1).bureau = x0.bureau ∧ (cacheEnable x0 x1).power = x0.power ∧ (cacheEnable x0 x1).limits = x0.limits ∧
    (cacheEnable x0 x1).fuses = x0.fuses ∧ (cacheEnable x0 x1).shelfSkips = x0.shelfSkips ∧ (cacheEnable x0 x1).shelfCuts = x0.shelfCuts ∧
    (cacheEnable x0 x1).free = x0.free ∧ (cacheEnable x0 x1).pending = x0.pending := by simp [cacheEnable]

theorem execCxlCacheEnableWrite_frame (x0 x1) : ∀ t, (execCxlCacheEnableWrite x0 x1) = .next t → t.fabric = x1.fabric ∧ t.store = x1.store ∧
    t.tier = x1.tier ∧ t.engines = x1.engines ∧ t.gen = x1.gen ∧ t.text = x1.text ∧ t.pair = x1.pair ∧ t.flash = x1.flash ∧
    t.bureau = x1.bureau ∧ t.power = x1.power ∧ t.limits = x1.limits ∧ t.fuses = x1.fuses ∧ t.shelfSkips = x1.shelfSkips ∧
    t.shelfCuts = x1.shelfCuts ∧ t.free = x1.free ∧ t.pending = x1.pending := by simp [execCxlCacheEnableWrite]

@[simp] theorem noteAts_frame (x0 x1 x2 x3) : (noteAts x0 x1 x2 x3).fabric = x0.fabric ∧ (noteAts x0 x1 x2 x3).store = x0.store ∧
    (noteAts x0 x1 x2 x3).tier = x0.tier ∧ (noteAts x0 x1 x2 x3).engines = x0.engines ∧ (noteAts x0 x1 x2 x3).gen = x0.gen ∧
    (noteAts x0 x1 x2 x3).text = x0.text ∧ (noteAts x0 x1 x2 x3).pair = x0.pair ∧ (noteAts x0 x1 x2 x3).flash = x0.flash ∧
    (noteAts x0 x1 x2 x3).bureau = x0.bureau ∧ (noteAts x0 x1 x2 x3).power = x0.power ∧ (noteAts x0 x1 x2 x3).limits = x0.limits ∧
    (noteAts x0 x1 x2 x3).fuses = x0.fuses ∧ (noteAts x0 x1 x2 x3).shelfSkips = x0.shelfSkips ∧
    (noteAts x0 x1 x2 x3).shelfCuts = x0.shelfCuts ∧ (noteAts x0 x1 x2 x3).pending = x0.pending := by simp [noteAts]

@[simp] theorem atsInvalidate_frame (x0 x1 x2) : (atsInvalidate x0 x1 x2).fabric = x0.fabric ∧ (atsInvalidate x0 x1 x2).store = x0.store ∧
    (atsInvalidate x0 x1 x2).tier = x0.tier ∧ (atsInvalidate x0 x1 x2).engines = x0.engines ∧ (atsInvalidate x0 x1 x2).gen = x0.gen ∧
    (atsInvalidate x0 x1 x2).text = x0.text ∧ (atsInvalidate x0 x1 x2).pair = x0.pair ∧ (atsInvalidate x0 x1 x2).flash = x0.flash ∧
    (atsInvalidate x0 x1 x2).bureau = x0.bureau ∧ (atsInvalidate x0 x1 x2).power = x0.power ∧ (atsInvalidate x0 x1 x2).limits = x0.limits ∧
    (atsInvalidate x0 x1 x2).fuses = x0.fuses ∧ (atsInvalidate x0 x1 x2).shelfSkips = x0.shelfSkips ∧
    (atsInvalidate x0 x1 x2).shelfCuts = x0.shelfCuts ∧ (atsInvalidate x0 x1 x2).free = x0.free ∧
    (atsInvalidate x0 x1 x2).pending = x0.pending := by simp [atsInvalidate]

theorem execAtsInvalidation_frame (x0 x1 x2) : ∀ t, (execAtsInvalidation x0 x1 x2) = .next t → t.fabric = x2.fabric ∧ t.store = x2.store ∧
    t.tier = x2.tier ∧ t.engines = x2.engines ∧ t.gen = x2.gen ∧ t.text = x2.text ∧ t.pair = x2.pair ∧ t.flash = x2.flash ∧
    t.bureau = x2.bureau ∧ t.power = x2.power ∧ t.limits = x2.limits ∧ t.fuses = x2.fuses ∧ t.shelfSkips = x2.shelfSkips ∧
    t.shelfCuts = x2.shelfCuts ∧ t.free = x2.free ∧ t.pending = x2.pending := by simp [execAtsInvalidation]

@[simp] theorem fetchOne_frame (x0 x1 x2 x3) : (fetchOne x0 x1 x2 x3).fabric = x0.fabric ∧ (fetchOne x0 x1 x2 x3).store = x0.store ∧
    (fetchOne x0 x1 x2 x3).tier = x0.tier ∧ (fetchOne x0 x1 x2 x3).engines = x0.engines ∧ (fetchOne x0 x1 x2 x3).text = x0.text ∧
    (fetchOne x0 x1 x2 x3).flash = x0.flash ∧ (fetchOne x0 x1 x2 x3).bureau = x0.bureau ∧ (fetchOne x0 x1 x2 x3).power = x0.power ∧
    (fetchOne x0 x1 x2 x3).limits = x0.limits ∧ (fetchOne x0 x1 x2 x3).fuses = x0.fuses ∧ (fetchOne x0 x1 x2 x3).shelfSkips = x0.shelfSkips ∧
    (fetchOne x0 x1 x2 x3).shelfCuts = x0.shelfCuts ∧ (fetchOne x0 x1 x2 x3).pending = x0.pending := by unfold fetchOne; split <;> simp

@[simp] theorem fetchAll_frame (x0 x1 x2 x3) : (fetchAll x0 x1 x2 x3).fabric = x3.fabric ∧ (fetchAll x0 x1 x2 x3).store = x3.store ∧
    (fetchAll x0 x1 x2 x3).tier = x3.tier ∧ (fetchAll x0 x1 x2 x3).engines = x3.engines ∧ (fetchAll x0 x1 x2 x3).text = x3.text ∧
    (fetchAll x0 x1 x2 x3).flash = x3.flash ∧ (fetchAll x0 x1 x2 x3).bureau = x3.bureau ∧ (fetchAll x0 x1 x2 x3).power = x3.power ∧
    (fetchAll x0 x1 x2 x3).limits = x3.limits ∧ (fetchAll x0 x1 x2 x3).fuses = x3.fuses ∧ (fetchAll x0 x1 x2 x3).shelfSkips = x3.shelfSkips ∧
    (fetchAll x0 x1 x2 x3).shelfCuts = x3.shelfCuts ∧ (fetchAll x0 x1 x2 x3).pending = x3.pending := by
  induction x2 generalizing x3 with
  | nil => simp [fetchAll]
  | cons d l ih =>
    unfold fetchAll
    simp only []
    split <;> simp [ih]

@[simp] theorem stopPair_frame (x0 x1 x2 x3) : (stopPair x0 x1 x2 x3).fabric = x0.fabric ∧ (stopPair x0 x1 x2 x3).store = x0.store ∧
    (stopPair x0 x1 x2 x3).tier = x0.tier ∧ (stopPair x0 x1 x2 x3).engines = x0.engines ∧ (stopPair x0 x1 x2 x3).text = x0.text ∧
    (stopPair x0 x1 x2 x3).flash = x0.flash ∧ (stopPair x0 x1 x2 x3).bureau = x0.bureau ∧ (stopPair x0 x1 x2 x3).power = x0.power ∧
    (stopPair x0 x1 x2 x3).limits = x0.limits ∧ (stopPair x0 x1 x2 x3).fuses = x0.fuses ∧ (stopPair x0 x1 x2 x3).shelfSkips = x0.shelfSkips ∧
    (stopPair x0 x1 x2 x3).shelfCuts = x0.shelfCuts ∧ (stopPair x0 x1 x2 x3).pending = x0.pending := by
  unfold stopPair
  repeat' split
  all_goals (refine ⟨?_, ?_, ?_, ?_, ?_, ?_, ?_, ?_, ?_, ?_, ?_, ?_, ?_⟩)
  all_goals (try (first | refine (State.foldl_fabric (fun _ _ => ?_) _ _).trans ?_ | refine (State.foldl_store (fun _ _ => ?_) _ _).trans ?_ | refine (State.foldl_tier (fun _ _ => ?_) _ _).trans ?_ | refine (State.foldl_engines (fun _ _ => ?_) _ _).trans ?_ | refine (State.foldl_text (fun _ _ => ?_) _ _).trans ?_ | refine (State.foldl_flash (fun _ _ => ?_) _ _).trans ?_ | refine (State.foldl_bureau (fun _ _ => ?_) _ _).trans ?_ | refine (State.foldl_power (fun _ _ => ?_) _ _).trans ?_ | refine (State.foldl_limits (fun _ _ => ?_) _ _).trans ?_ | refine (State.foldl_fuses (fun _ _ => ?_) _ _).trans ?_ | refine (State.foldl_shelfSkips (fun _ _ => ?_) _ _).trans ?_ | refine (State.foldl_shelfCuts (fun _ _ => ?_) _ _).trans ?_ | refine (State.foldl_pending (fun _ _ => ?_) _ _).trans ?_ ))
  all_goals (repeat' split)
  all_goals ((try simp only [Prod.ext_iff] at *); (try casesm* _ ∧ _); (try subst_vars); first | (simp; done) | (simp_all; done) | skip)

@[simp] theorem qpError_frame (x0 x1 x2 x3) : (qpError x0 x1 x2 x3).fabric = x0.fabric ∧ (qpError x0 x1 x2 x3).store = x0.store ∧
    (qpError x0 x1 x2 x3).tier = x0.tier ∧ (qpError x0 x1 x2 x3).engines = x0.engines ∧ (qpError x0 x1 x2 x3).text = x0.text ∧
    (qpError x0 x1 x2 x3).flash = x0.flash ∧ (qpError x0 x1 x2 x3).power = x0.power ∧ (qpError x0 x1 x2 x3).limits = x0.limits ∧
    (qpError x0 x1 x2 x3).fuses = x0.fuses ∧ (qpError x0 x1 x2 x3).shelfSkips = x0.shelfSkips ∧
    (qpError x0 x1 x2 x3).shelfCuts = x0.shelfCuts ∧ (qpError x0 x1 x2 x3).pending = x0.pending := by simp [qpError]

@[simp] theorem doorbellInvalidation_frame (x0 x1 x2) : (doorbellInvalidation x0 x1 x2).fabric = x0.fabric ∧
    (doorbellInvalidation x0 x1 x2).store = x0.store ∧ (doorbellInvalidation x0 x1 x2).tier = x0.tier ∧
    (doorbellInvalidation x0 x1 x2).engines = x0.engines ∧ (doorbellInvalidation x0 x1 x2).gen = x0.gen ∧
    (doorbellInvalidation x0 x1 x2).text = x0.text ∧ (doorbellInvalidation x0 x1 x2).pair = x0.pair ∧
    (doorbellInvalidation x0 x1 x2).flash = x0.flash ∧ (doorbellInvalidation x0 x1 x2).bureau = x0.bureau ∧
    (doorbellInvalidation x0 x1 x2).power = x0.power ∧ (doorbellInvalidation x0 x1 x2).limits = x0.limits ∧
    (doorbellInvalidation x0 x1 x2).fuses = x0.fuses ∧ (doorbellInvalidation x0 x1 x2).shelfSkips = x0.shelfSkips ∧
    (doorbellInvalidation x0 x1 x2).shelfCuts = x0.shelfCuts ∧ (doorbellInvalidation x0 x1 x2).free = x0.free ∧
    (doorbellInvalidation x0 x1 x2).pending = x0.pending := by simp [doorbellInvalidation]

theorem execDoorbellInvalidation_frame (x0 x1 x2) : ∀ t, (execDoorbellInvalidation x0 x1 x2) = .next t → t.fabric = x2.fabric ∧
    t.store = x2.store ∧ t.tier = x2.tier ∧ t.engines = x2.engines ∧ t.gen = x2.gen ∧ t.text = x2.text ∧ t.pair = x2.pair ∧
    t.flash = x2.flash ∧ t.bureau = x2.bureau ∧ t.power = x2.power ∧ t.limits = x2.limits ∧ t.fuses = x2.fuses ∧
    t.shelfSkips = x2.shelfSkips ∧ t.shelfCuts = x2.shelfCuts ∧ t.free = x2.free ∧ t.pending = x2.pending := by simp [execDoorbellInvalidation]

@[simp] theorem takeLine_frame (x0 x1 x2 x3 x4) : (takeLine x0 x1 x2 x3 x4).fabric = x0.fabric ∧ (takeLine x0 x1 x2 x3 x4).store = x0.store ∧
    (takeLine x0 x1 x2 x3 x4).tier = x0.tier ∧ (takeLine x0 x1 x2 x3 x4).engines = x0.engines ∧ (takeLine x0 x1 x2 x3 x4).text = x0.text ∧
    (takeLine x0 x1 x2 x3 x4).flash = x0.flash ∧ (takeLine x0 x1 x2 x3 x4).power = x0.power ∧ (takeLine x0 x1 x2 x3 x4).limits = x0.limits ∧
    (takeLine x0 x1 x2 x3 x4).fuses = x0.fuses ∧ (takeLine x0 x1 x2 x3 x4).shelfSkips = x0.shelfSkips ∧
    (takeLine x0 x1 x2 x3 x4).shelfCuts = x0.shelfCuts ∧ (takeLine x0 x1 x2 x3 x4).pending = x0.pending := by
  simp only [takeLine]
  repeat' split
  all_goals ((try simp only [Prod.ext_iff] at *); (try casesm* _ ∧ _); (try subst_vars); (try simp))

@[simp] theorem doorbellReturn_frame (x0 x1 x2 x3 x4) : (doorbellReturn x0 x1 x2 x3 x4).fabric = x0.fabric ∧
    (doorbellReturn x0 x1 x2 x3 x4).store = x0.store ∧ (doorbellReturn x0 x1 x2 x3 x4).tier = x0.tier ∧
    (doorbellReturn x0 x1 x2 x3 x4).engines = x0.engines ∧ (doorbellReturn x0 x1 x2 x3 x4).text = x0.text ∧
    (doorbellReturn x0 x1 x2 x3 x4).flash = x0.flash ∧ (doorbellReturn x0 x1 x2 x3 x4).power = x0.power ∧
    (doorbellReturn x0 x1 x2 x3 x4).limits = x0.limits ∧ (doorbellReturn x0 x1 x2 x3 x4).fuses = x0.fuses ∧
    (doorbellReturn x0 x1 x2 x3 x4).shelfSkips = x0.shelfSkips ∧ (doorbellReturn x0 x1 x2 x3 x4).shelfCuts = x0.shelfCuts ∧
    (doorbellReturn x0 x1 x2 x3 x4).pending = x0.pending := by simp [doorbellReturn]

theorem execDoorbellRereadReturn_frame (x0 x1 x2 x3 x4) : ∀ t, (execDoorbellRereadReturn x0 x1 x2 x3 x4) = .next t → t.fabric = x4.fabric ∧
    t.store = x4.store ∧ t.tier = x4.tier ∧ t.engines = x4.engines ∧ t.text = x4.text ∧ t.flash = x4.flash ∧ t.power = x4.power ∧
    t.limits = x4.limits ∧ t.fuses = x4.fuses ∧ t.shelfSkips = x4.shelfSkips ∧ t.shelfCuts = x4.shelfCuts ∧ t.pending = x4.pending := by simp [execDoorbellRereadReturn]

@[simp] theorem serveWindow_frame (x0 x1 x2 x3) : (serveWindow x0 x1 x2 x3).fabric = x0.fabric ∧ (serveWindow x0 x1 x2 x3).store = x0.store ∧
    (serveWindow x0 x1 x2 x3).engines = x0.engines ∧ (serveWindow x0 x1 x2 x3).gen = x0.gen ∧ (serveWindow x0 x1 x2 x3).text = x0.text ∧
    (serveWindow x0 x1 x2 x3).pair = x0.pair ∧ (serveWindow x0 x1 x2 x3).flash = x0.flash ∧ (serveWindow x0 x1 x2 x3).power = x0.power ∧
    (serveWindow x0 x1 x2 x3).limits = x0.limits ∧ (serveWindow x0 x1 x2 x3).fuses = x0.fuses ∧
    (serveWindow x0 x1 x2 x3).shelfSkips = x0.shelfSkips ∧ (serveWindow x0 x1 x2 x3).shelfCuts = x0.shelfCuts ∧
    (serveWindow x0 x1 x2 x3).free = x0.free ∧ (serveWindow x0 x1 x2 x3).pending = x0.pending := by
  unfold serveWindow
  repeat' split
  all_goals ((try simp only [Prod.ext_iff] at *); (try casesm* _ ∧ _); (try subst_vars); (try simp))

@[simp] theorem windowHostRead_frame (x0 x1 x2 x3) : (windowHostRead x0 x1 x2 x3).fabric = x0.fabric ∧
    (windowHostRead x0 x1 x2 x3).store = x0.store ∧ (windowHostRead x0 x1 x2 x3).engines = x0.engines ∧
    (windowHostRead x0 x1 x2 x3).gen = x0.gen ∧ (windowHostRead x0 x1 x2 x3).text = x0.text ∧ (windowHostRead x0 x1 x2 x3).pair = x0.pair ∧
    (windowHostRead x0 x1 x2 x3).flash = x0.flash ∧ (windowHostRead x0 x1 x2 x3).power = x0.power ∧
    (windowHostRead x0 x1 x2 x3).limits = x0.limits ∧ (windowHostRead x0 x1 x2 x3).fuses = x0.fuses ∧
    (windowHostRead x0 x1 x2 x3).shelfSkips = x0.shelfSkips ∧ (windowHostRead x0 x1 x2 x3).shelfCuts = x0.shelfCuts ∧
    (windowHostRead x0 x1 x2 x3).free = x0.free ∧ (windowHostRead x0 x1 x2 x3).pending = x0.pending := by simp [windowHostRead]

theorem execHostWindowRead_frame (x0 x1 x2 x3) : ∀ t, (execHostWindowRead x0 x1 x2 x3) = .next t → t.fabric = x3.fabric ∧ t.store = x3.store ∧
    t.engines = x3.engines ∧ t.gen = x3.gen ∧ t.text = x3.text ∧ t.pair = x3.pair ∧ t.flash = x3.flash ∧ t.power = x3.power ∧
    t.limits = x3.limits ∧ t.fuses = x3.fuses ∧ t.shelfSkips = x3.shelfSkips ∧ t.shelfCuts = x3.shelfCuts ∧ t.free = x3.free ∧
    t.pending = x3.pending := by simp [execHostWindowRead]

@[simp] theorem windowHostWrite_frame (x0 x1 x2) : (windowHostWrite x0 x1 x2).fabric = x0.fabric ∧
    (windowHostWrite x0 x1 x2).store = x0.store ∧ (windowHostWrite x0 x1 x2).engines = x0.engines ∧ (windowHostWrite x0 x1 x2).gen = x0.gen ∧
    (windowHostWrite x0 x1 x2).text = x0.text ∧ (windowHostWrite x0 x1 x2).pair = x0.pair ∧ (windowHostWrite x0 x1 x2).flash = x0.flash ∧
    (windowHostWrite x0 x1 x2).power = x0.power ∧ (windowHostWrite x0 x1 x2).limits = x0.limits ∧
    (windowHostWrite x0 x1 x2).fuses = x0.fuses ∧ (windowHostWrite x0 x1 x2).shelfSkips = x0.shelfSkips ∧
    (windowHostWrite x0 x1 x2).shelfCuts = x0.shelfCuts ∧ (windowHostWrite x0 x1 x2).free = x0.free ∧
    (windowHostWrite x0 x1 x2).pending = x0.pending := by simp [windowHostWrite]

theorem execHostWindowWrite_frame (x0 x1 x2) : ∀ t, (execHostWindowWrite x0 x1 x2) = .next t → t.fabric = x2.fabric ∧ t.store = x2.store ∧
    t.engines = x2.engines ∧ t.gen = x2.gen ∧ t.text = x2.text ∧ t.pair = x2.pair ∧ t.flash = x2.flash ∧ t.power = x2.power ∧
    t.limits = x2.limits ∧ t.fuses = x2.fuses ∧ t.shelfSkips = x2.shelfSkips ∧ t.shelfCuts = x2.shelfCuts ∧ t.free = x2.free ∧
    t.pending = x2.pending := by simp [execHostWindowWrite]

@[simp] theorem drainWindow_frame (x0 x1) : (drainWindow x0 x1).fabric = x1.fabric ∧ (drainWindow x0 x1).store = x1.store ∧
    (drainWindow x0 x1).engines = x1.engines ∧ (drainWindow x0 x1).host = x1.host ∧ (drainWindow x0 x1).gen = x1.gen ∧
    (drainWindow x0 x1).text = x1.text ∧ (drainWindow x0 x1).pair = x1.pair ∧ (drainWindow x0 x1).flash = x1.flash ∧
    (drainWindow x0 x1).bureau = x1.bureau ∧ (drainWindow x0 x1).power = x1.power ∧ (drainWindow x0 x1).limits = x1.limits ∧
    (drainWindow x0 x1).fuses = x1.fuses ∧ (drainWindow x0 x1).shelfSkips = x1.shelfSkips ∧ (drainWindow x0 x1).shelfCuts = x1.shelfCuts ∧
    (drainWindow x0 x1).free = x1.free ∧ (drainWindow x0 x1).pending = x1.pending := by
  induction x0 generalizing x1 with
  | zero => simp [drainWindow]
  | succ k ih =>
    unfold drainWindow
    repeat' split
    all_goals simp [ih]

@[simp] theorem serveWaiting_frame (x0) : (serveWaiting x0).fabric = x0.fabric ∧ (serveWaiting x0).store = x0.store ∧
    (serveWaiting x0).engines = x0.engines ∧ (serveWaiting x0).gen = x0.gen ∧ (serveWaiting x0).text = x0.text ∧
    (serveWaiting x0).pair = x0.pair ∧ (serveWaiting x0).flash = x0.flash ∧ (serveWaiting x0).power = x0.power ∧
    (serveWaiting x0).limits = x0.limits ∧ (serveWaiting x0).fuses = x0.fuses ∧ (serveWaiting x0).shelfSkips = x0.shelfSkips ∧
    (serveWaiting x0).shelfCuts = x0.shelfCuts ∧ (serveWaiting x0).free = x0.free ∧ (serveWaiting x0).pending = x0.pending := by simp [serveWaiting]

@[simp] theorem settleWindow_frame (x0) : (settleWindow x0).fabric = x0.fabric ∧ (settleWindow x0).store = x0.store ∧
    (settleWindow x0).engines = x0.engines ∧ (settleWindow x0).gen = x0.gen ∧ (settleWindow x0).text = x0.text ∧
    (settleWindow x0).pair = x0.pair ∧ (settleWindow x0).flash = x0.flash ∧ (settleWindow x0).power = x0.power ∧
    (settleWindow x0).limits = x0.limits ∧ (settleWindow x0).fuses = x0.fuses ∧ (settleWindow x0).shelfSkips = x0.shelfSkips ∧
    (settleWindow x0).shelfCuts = x0.shelfCuts ∧ (settleWindow x0).free = x0.free ∧ (settleWindow x0).pending = x0.pending := by simp [settleWindow]

@[simp] theorem windowResumes_frame (x0 x1) : (windowResumes x0 x1).engines = x0.engines ∧ (windowResumes x0 x1).text = x0.text ∧
    (windowResumes x0 x1).flash = x0.flash ∧ (windowResumes x0 x1).power = x0.power ∧ (windowResumes x0 x1).limits = x0.limits ∧
    (windowResumes x0 x1).fuses = x0.fuses ∧ (windowResumes x0 x1).shelfSkips = x0.shelfSkips ∧
    (windowResumes x0 x1).shelfCuts = x0.shelfCuts ∧ (windowResumes x0 x1).pending = x0.pending := by simp [windowResumes]

theorem execSubchannelRetrainDone_frame (x0 x1) : ∀ t, (execSubchannelRetrainDone x0 x1) = .next t → t.engines = x1.engines ∧
    t.text = x1.text ∧ t.flash = x1.flash ∧ t.power = x1.power ∧ t.limits = x1.limits ∧ t.fuses = x1.fuses ∧ t.shelfSkips = x1.shelfSkips ∧
    t.shelfCuts = x1.shelfCuts ∧ t.pending = x1.pending := by simp [execSubchannelRetrainDone]

@[simp] theorem snoopResponse_frame (x0 x1) : (snoopResponse x0 x1).fabric = x0.fabric ∧ (snoopResponse x0 x1).store = x0.store ∧
    (snoopResponse x0 x1).engines = x0.engines ∧ (snoopResponse x0 x1).gen = x0.gen ∧ (snoopResponse x0 x1).text = x0.text ∧
    (snoopResponse x0 x1).pair = x0.pair ∧ (snoopResponse x0 x1).flash = x0.flash ∧ (snoopResponse x0 x1).power = x0.power ∧
    (snoopResponse x0 x1).limits = x0.limits ∧ (snoopResponse x0 x1).fuses = x0.fuses ∧ (snoopResponse x0 x1).shelfSkips = x0.shelfSkips ∧
    (snoopResponse x0 x1).shelfCuts = x0.shelfCuts ∧ (snoopResponse x0 x1).free = x0.free ∧ (snoopResponse x0 x1).pending = x0.pending := by simp [snoopResponse]

theorem execBackInvalidateResponse_frame (x0 x1) : ∀ t, (execBackInvalidateResponse x0 x1) = .next t → t.fabric = x1.fabric ∧
    t.store = x1.store ∧ t.engines = x1.engines ∧ t.gen = x1.gen ∧ t.text = x1.text ∧ t.pair = x1.pair ∧ t.flash = x1.flash ∧
    t.power = x1.power ∧ t.limits = x1.limits ∧ t.fuses = x1.fuses ∧ t.shelfSkips = x1.shelfSkips ∧ t.shelfCuts = x1.shelfCuts ∧
    t.free = x1.free ∧ t.pending = x1.pending := by simp [execBackInvalidateResponse]

@[simp] theorem windowResult_frame (x0 x1 x2) : (windowResult x0 x1 x2).fabric = x0.fabric ∧ (windowResult x0 x1 x2).store = x0.store ∧
    (windowResult x0 x1 x2).engines = x0.engines ∧ (windowResult x0 x1 x2).gen = x0.gen ∧ (windowResult x0 x1 x2).text = x0.text ∧
    (windowResult x0 x1 x2).pair = x0.pair ∧ (windowResult x0 x1 x2).flash = x0.flash ∧ (windowResult x0 x1 x2).bureau = x0.bureau ∧
    (windowResult x0 x1 x2).power = x0.power ∧ (windowResult x0 x1 x2).limits = x0.limits ∧ (windowResult x0 x1 x2).fuses = x0.fuses ∧
    (windowResult x0 x1 x2).shelfSkips = x0.shelfSkips ∧ (windowResult x0 x1 x2).shelfCuts = x0.shelfCuts ∧
    (windowResult x0 x1 x2).free = x0.free ∧ (windowResult x0 x1 x2).pending = x0.pending := by simp [windowResult]

@[simp] theorem writePiece_frame (x0 x1 x2 x3) : (writePiece x0 x1 x2 x3).fabric = x2.fabric ∧ (writePiece x0 x1 x2 x3).store = x2.store ∧
    (writePiece x0 x1 x2 x3).engines = x2.engines ∧ (writePiece x0 x1 x2 x3).gen = x2.gen ∧ (writePiece x0 x1 x2 x3).text = x2.text ∧
    (writePiece x0 x1 x2 x3).pair = x2.pair ∧ (writePiece x0 x1 x2 x3).flash = x2.flash ∧ (writePiece x0 x1 x2 x3).bureau = x2.bureau ∧
    (writePiece x0 x1 x2 x3).power = x2.power ∧ (writePiece x0 x1 x2 x3).limits = x2.limits ∧ (writePiece x0 x1 x2 x3).fuses = x2.fuses ∧
    (writePiece x0 x1 x2 x3).shelfSkips = x2.shelfSkips ∧ (writePiece x0 x1 x2 x3).shelfCuts = x2.shelfCuts ∧ 
    (writePiece x0 x1 x2 x3).pending = x2.pending := by simp [writePiece]

@[simp] theorem readyWord_frame (x0 x1) : (readyWord x0 x1).fabric = x0.fabric ∧ (readyWord x0 x1).store = x0.store ∧
    (readyWord x0 x1).engines = x0.engines ∧ (readyWord x0 x1).gen = x0.gen ∧ (readyWord x0 x1).text = x0.text ∧
    (readyWord x0 x1).pair = x0.pair ∧ (readyWord x0 x1).flash = x0.flash ∧ (readyWord x0 x1).bureau = x0.bureau ∧
    (readyWord x0 x1).power = x0.power ∧ (readyWord x0 x1).limits = x0.limits ∧ (readyWord x0 x1).fuses = x0.fuses ∧
    (readyWord x0 x1).shelfSkips = x0.shelfSkips ∧ (readyWord x0 x1).shelfCuts = x0.shelfCuts ∧ (readyWord x0 x1).free = x0.free ∧
    (readyWord x0 x1).pending = x0.pending := by unfold readyWord; split <;> simp

@[simp] theorem writeRecord_frame (x0 x1 x2 x3 x4) : (writeRecord x0 x1 x2 x3 x4).fabric = x0.fabric ∧
    (writeRecord x0 x1 x2 x3 x4).store = x0.store ∧ (writeRecord x0 x1 x2 x3 x4).tier = x0.tier ∧
    (writeRecord x0 x1 x2 x3 x4).engines = x0.engines ∧ (writeRecord x0 x1 x2 x3 x4).text = x0.text ∧
    (writeRecord x0 x1 x2 x3 x4).flash = x0.flash ∧ (writeRecord x0 x1 x2 x3 x4).bureau = x0.bureau ∧
    (writeRecord x0 x1 x2 x3 x4).power = x0.power ∧ (writeRecord x0 x1 x2 x3 x4).limits = x0.limits ∧
    (writeRecord x0 x1 x2 x3 x4).fuses = x0.fuses ∧ (writeRecord x0 x1 x2 x3 x4).shelfSkips = x0.shelfSkips ∧
    (writeRecord x0 x1 x2 x3 x4).shelfCuts = x0.shelfCuts ∧ (writeRecord x0 x1 x2 x3 x4).pending = x0.pending := by
  unfold writeRecord
  repeat' split
  all_goals ((try simp only [Prod.ext_iff] at *); (try casesm* _ ∧ _); (try subst_vars); (try simp))

@[simp] theorem endSequence_frame (x0 x1 x2 x3 x4 x5) : (endSequence x0 x1 x2 x3 x4 x5).fabric = x0.fabric ∧
    (endSequence x0 x1 x2 x3 x4 x5).store = x0.store ∧ (endSequence x0 x1 x2 x3 x4 x5).tier = x0.tier ∧
    (endSequence x0 x1 x2 x3 x4 x5).engines = x0.engines ∧ (endSequence x0 x1 x2 x3 x4 x5).flash = x0.flash ∧
    (endSequence x0 x1 x2 x3 x4 x5).bureau = x0.bureau ∧ (endSequence x0 x1 x2 x3 x4 x5).power = x0.power ∧
    (endSequence x0 x1 x2 x3 x4 x5).limits = x0.limits ∧ (endSequence x0 x1 x2 x3 x4 x5).fuses = x0.fuses ∧
    (endSequence x0 x1 x2 x3 x4 x5).shelfSkips = x0.shelfSkips ∧ (endSequence x0 x1 x2 x3 x4 x5).shelfCuts = x0.shelfCuts ∧
    (endSequence x0 x1 x2 x3 x4 x5).pending = x0.pending := by
  simp only [endSequence]
  refine ⟨?_, ?_, ?_, ?_, ?_, ?_, ?_, ?_, ?_, ?_, ?_, ?_⟩
  all_goals (first | refine (State.foldl_fabric (fun _ _ => ?_) _ _).trans ?_ | refine (State.foldl_store (fun _ _ => ?_) _ _).trans ?_ | refine (State.foldl_tier (fun _ _ => ?_) _ _).trans ?_ | refine (State.foldl_engines (fun _ _ => ?_) _ _).trans ?_ | refine (State.foldl_flash (fun _ _ => ?_) _ _).trans ?_ | refine (State.foldl_bureau (fun _ _ => ?_) _ _).trans ?_ | refine (State.foldl_power (fun _ _ => ?_) _ _).trans ?_ | refine (State.foldl_limits (fun _ _ => ?_) _ _).trans ?_ | refine (State.foldl_fuses (fun _ _ => ?_) _ _).trans ?_ | refine (State.foldl_shelfSkips (fun _ _ => ?_) _ _).trans ?_ | refine (State.foldl_shelfCuts (fun _ _ => ?_) _ _).trans ?_ | refine (State.foldl_pending (fun _ _ => ?_) _ _).trans ?_)
  all_goals (try rfl)
  all_goals (first | refine (State.foldl_fabric (fun _ _ => ?_) _ _).trans ?_ | refine (State.foldl_store (fun _ _ => ?_) _ _).trans ?_ | refine (State.foldl_tier (fun _ _ => ?_) _ _).trans ?_ | refine (State.foldl_engines (fun _ _ => ?_) _ _).trans ?_ | refine (State.foldl_flash (fun _ _ => ?_) _ _).trans ?_ | refine (State.foldl_bureau (fun _ _ => ?_) _ _).trans ?_ | refine (State.foldl_power (fun _ _ => ?_) _ _).trans ?_ | refine (State.foldl_limits (fun _ _ => ?_) _ _).trans ?_ | refine (State.foldl_fuses (fun _ _ => ?_) _ _).trans ?_ | refine (State.foldl_shelfSkips (fun _ _ => ?_) _ _).trans ?_ | refine (State.foldl_shelfCuts (fun _ _ => ?_) _ _).trans ?_ | refine (State.foldl_pending (fun _ _ => ?_) _ _).trans ?_)
  all_goals (try (split <;> simp; done))
  all_goals (try (first | refine (State.foldl_fabric (fun _ _ => ?_) _ _).trans ?_ | refine (State.foldl_store (fun _ _ => ?_) _ _).trans ?_ | refine (State.foldl_tier (fun _ _ => ?_) _ _).trans ?_ | refine (State.foldl_engines (fun _ _ => ?_) _ _).trans ?_ | refine (State.foldl_flash (fun _ _ => ?_) _ _).trans ?_ | refine (State.foldl_bureau (fun _ _ => ?_) _ _).trans ?_ | refine (State.foldl_power (fun _ _ => ?_) _ _).trans ?_ | refine (State.foldl_limits (fun _ _ => ?_) _ _).trans ?_ | refine (State.foldl_fuses (fun _ _ => ?_) _ _).trans ?_ | refine (State.foldl_shelfSkips (fun _ _ => ?_) _ _).trans ?_ | refine (State.foldl_shelfCuts (fun _ _ => ?_) _ _).trans ?_ | refine (State.foldl_pending (fun _ _ => ?_) _ _).trans ?_))
  all_goals (repeat' split)
  all_goals simp

@[simp] theorem badSequence_frame (x0 x1 x2 x3 x4 x5 x6 x7) : (badSequence x0 x1 x2 x3 x4 x5 x6 x7).fabric = x0.fabric ∧
    (badSequence x0 x1 x2 x3 x4 x5 x6 x7).store = x0.store ∧ (badSequence x0 x1 x2 x3 x4 x5 x6 x7).tier = x0.tier ∧
    (badSequence x0 x1 x2 x3 x4 x5 x6 x7).engines = x0.engines ∧ (badSequence x0 x1 x2 x3 x4 x5 x6 x7).flash = x0.flash ∧
    (badSequence x0 x1 x2 x3 x4 x5 x6 x7).bureau = x0.bureau ∧ (badSequence x0 x1 x2 x3 x4 x5 x6 x7).power = x0.power ∧
    (badSequence x0 x1 x2 x3 x4 x5 x6 x7).limits = x0.limits ∧ (badSequence x0 x1 x2 x3 x4 x5 x6 x7).fuses = x0.fuses ∧
    (badSequence x0 x1 x2 x3 x4 x5 x6 x7).shelfSkips = x0.shelfSkips ∧ (badSequence x0 x1 x2 x3 x4 x5 x6 x7).shelfCuts = x0.shelfCuts ∧
    (badSequence x0 x1 x2 x3 x4 x5 x6 x7).pending = x0.pending := by simp [badSequence]

@[simp] theorem badPayload_frame (x0 x1 x2 x3 x4 x5) : (badPayload x0 x1 x2 x3 x4 x5).fabric = x0.fabric ∧
    (badPayload x0 x1 x2 x3 x4 x5).store = x0.store ∧ (badPayload x0 x1 x2 x3 x4 x5).engines = x0.engines ∧
    (badPayload x0 x1 x2 x3 x4 x5).flash = x0.flash ∧ (badPayload x0 x1 x2 x3 x4 x5).bureau = x0.bureau ∧
    (badPayload x0 x1 x2 x3 x4 x5).power = x0.power ∧ (badPayload x0 x1 x2 x3 x4 x5).limits = x0.limits ∧
    (badPayload x0 x1 x2 x3 x4 x5).fuses = x0.fuses ∧ (badPayload x0 x1 x2 x3 x4 x5).shelfSkips = x0.shelfSkips ∧
    (badPayload x0 x1 x2 x3 x4 x5).shelfCuts = x0.shelfCuts ∧ (badPayload x0 x1 x2 x3 x4 x5).pending = x0.pending := by
  simp only [badPayload]
  repeat' split
  all_goals ((try simp only [Prod.ext_iff] at *); (try casesm* _ ∧ _); (try subst_vars); (try simp))

@[simp] theorem completionPost_frame (x0 x1 x2 x3 x4) : (completionPost x0 x1 x2 x3 x4).fabric = x0.fabric ∧
    (completionPost x0 x1 x2 x3 x4).store = x0.store ∧ (completionPost x0 x1 x2 x3 x4).engines = x0.engines ∧
    (completionPost x0 x1 x2 x3 x4).flash = x0.flash ∧ (completionPost x0 x1 x2 x3 x4).power = x0.power ∧
    (completionPost x0 x1 x2 x3 x4).limits = x0.limits ∧ (completionPost x0 x1 x2 x3 x4).fuses = x0.fuses ∧
    (completionPost x0 x1 x2 x3 x4).shelfSkips = x0.shelfSkips ∧ (completionPost x0 x1 x2 x3 x4).shelfCuts = x0.shelfCuts ∧
    (completionPost x0 x1 x2 x3 x4).pending = x0.pending := by
  simp only [completionPost]
  repeat' split
  all_goals ((try simp only [Prod.ext_iff] at *); (try casesm* _ ∧ _); (try subst_vars); (try simp))

theorem execCompletionPost_frame (x0 x1 x2 x3 x4) : ∀ t, (execCompletionPost x0 x1 x2 x3 x4) = .next t → t.fabric = x4.fabric ∧
    t.store = x4.store ∧ t.engines = x4.engines ∧ t.flash = x4.flash ∧ t.power = x4.power ∧ t.limits = x4.limits ∧ t.fuses = x4.fuses ∧
    t.shelfSkips = x4.shelfSkips ∧ t.shelfCuts = x4.shelfCuts ∧ t.pending = x4.pending := by simp [execCompletionPost]

@[simp] theorem vectorTime_frame (x0 x1 x2) : (vectorTime x0 x1 x2).fabric = x0.fabric ∧ (vectorTime x0 x1 x2).store = x0.store ∧
    (vectorTime x0 x1 x2).tier = x0.tier ∧ (vectorTime x0 x1 x2).engines = x0.engines ∧ (vectorTime x0 x1 x2).gen = x0.gen ∧
    (vectorTime x0 x1 x2).text = x0.text ∧ (vectorTime x0 x1 x2).pair = x0.pair ∧ (vectorTime x0 x1 x2).flash = x0.flash ∧
    (vectorTime x0 x1 x2).bureau = x0.bureau ∧ (vectorTime x0 x1 x2).power = x0.power ∧ (vectorTime x0 x1 x2).limits = x0.limits ∧
    (vectorTime x0 x1 x2).fuses = x0.fuses ∧ (vectorTime x0 x1 x2).shelfSkips = x0.shelfSkips ∧
    (vectorTime x0 x1 x2).shelfCuts = x0.shelfCuts ∧ (vectorTime x0 x1 x2).free = x0.free ∧ (vectorTime x0 x1 x2).pending = x0.pending := by simp [vectorTime]

theorem execMsixTimeExpiry_frame (x0 x1 x2) : ∀ t, (execMsixTimeExpiry x0 x1 x2) = .next t → t.fabric = x2.fabric ∧ t.store = x2.store ∧
    t.tier = x2.tier ∧ t.engines = x2.engines ∧ t.gen = x2.gen ∧ t.text = x2.text ∧ t.pair = x2.pair ∧ t.flash = x2.flash ∧
    t.bureau = x2.bureau ∧ t.power = x2.power ∧ t.limits = x2.limits ∧ t.fuses = x2.fuses ∧ t.shelfSkips = x2.shelfSkips ∧
    t.shelfCuts = x2.shelfCuts ∧ t.free = x2.free ∧ t.pending = x2.pending := by simp [execMsixTimeExpiry]

@[simp] theorem vectorUnmask_frame (x0 x1 x2) : (vectorUnmask x0 x1 x2).fabric = x0.fabric ∧ (vectorUnmask x0 x1 x2).store = x0.store ∧
    (vectorUnmask x0 x1 x2).tier = x0.tier ∧ (vectorUnmask x0 x1 x2).engines = x0.engines ∧ (vectorUnmask x0 x1 x2).gen = x0.gen ∧
    (vectorUnmask x0 x1 x2).text = x0.text ∧ (vectorUnmask x0 x1 x2).pair = x0.pair ∧ (vectorUnmask x0 x1 x2).flash = x0.flash ∧
    (vectorUnmask x0 x1 x2).bureau = x0.bureau ∧ (vectorUnmask x0 x1 x2).power = x0.power ∧ (vectorUnmask x0 x1 x2).limits = x0.limits ∧
    (vectorUnmask x0 x1 x2).fuses = x0.fuses ∧ (vectorUnmask x0 x1 x2).shelfSkips = x0.shelfSkips ∧
    (vectorUnmask x0 x1 x2).shelfCuts = x0.shelfCuts ∧ (vectorUnmask x0 x1 x2).free = x0.free ∧ (vectorUnmask x0 x1 x2).pending = x0.pending := by simp [vectorUnmask]

theorem execMsixVectorUnmask_frame (x0 x1 x2) : ∀ t, (execMsixVectorUnmask x0 x1 x2) = .next t → t.fabric = x2.fabric ∧ t.store = x2.store ∧
    t.tier = x2.tier ∧ t.engines = x2.engines ∧ t.gen = x2.gen ∧ t.text = x2.text ∧ t.pair = x2.pair ∧ t.flash = x2.flash ∧
    t.bureau = x2.bureau ∧ t.power = x2.power ∧ t.limits = x2.limits ∧ t.fuses = x2.fuses ∧ t.shelfSkips = x2.shelfSkips ∧
    t.shelfCuts = x2.shelfCuts ∧ t.free = x2.free ∧ t.pending = x2.pending := by simp [execMsixVectorUnmask]

@[simp] theorem cancelSequences_frame (x0 x1) : (cancelSequences x0 x1).fabric = x0.fabric ∧ (cancelSequences x0 x1).engines = x0.engines ∧
    (cancelSequences x0 x1).text = x0.text ∧ (cancelSequences x0 x1).flash = x0.flash ∧ (cancelSequences x0 x1).power = x0.power ∧
    (cancelSequences x0 x1).limits = x0.limits ∧ (cancelSequences x0 x1).fuses = x0.fuses ∧
    (cancelSequences x0 x1).shelfSkips = x0.shelfSkips ∧ (cancelSequences x0 x1).shelfCuts = x0.shelfCuts ∧
    (cancelSequences x0 x1).pending = x0.pending := by simp [cancelSequences]

@[simp] theorem cancelAt_frame (x0 x1) : (cancelAt x0 x1).fabric = x0.fabric ∧ (cancelAt x0 x1).engines = x0.engines ∧
    (cancelAt x0 x1).text = x0.text ∧ (cancelAt x0 x1).flash = x0.flash ∧ (cancelAt x0 x1).power = x0.power ∧
    (cancelAt x0 x1).limits = x0.limits ∧ (cancelAt x0 x1).fuses = x0.fuses ∧ (cancelAt x0 x1).shelfSkips = x0.shelfSkips ∧
    (cancelAt x0 x1).shelfCuts = x0.shelfCuts ∧ (cancelAt x0 x1).pending = x0.pending := by
  unfold cancelAt
  repeat' split
  all_goals ((try simp only [Prod.ext_iff] at *); (try casesm* _ ∧ _); (try subst_vars); (try simp))

@[simp] theorem resetRequest_frame (x0 x1) : (resetRequest x0 x1).fabric = x0.fabric ∧ (resetRequest x0 x1).engines = x0.engines ∧
    (resetRequest x0 x1).text = x0.text ∧ (resetRequest x0 x1).flash = x0.flash ∧ (resetRequest x0 x1).power = x0.power ∧
    (resetRequest x0 x1).limits = x0.limits ∧ (resetRequest x0 x1).fuses = x0.fuses ∧ (resetRequest x0 x1).shelfSkips = x0.shelfSkips ∧
    (resetRequest x0 x1).shelfCuts = x0.shelfCuts ∧ (resetRequest x0 x1).pending = x0.pending := by
  simp only [resetRequest]
  repeat' split
  all_goals ((try simp only [Prod.ext_iff] at *); (try casesm* _ ∧ _); (try subst_vars); (try simp))

@[simp] theorem resetRequests_frame (x0 x1) : (resetRequests x0 x1).fabric = x0.fabric ∧ (resetRequests x0 x1).engines = x0.engines ∧
    (resetRequests x0 x1).text = x0.text ∧ (resetRequests x0 x1).flash = x0.flash ∧ (resetRequests x0 x1).power = x0.power ∧
    (resetRequests x0 x1).limits = x0.limits ∧ (resetRequests x0 x1).fuses = x0.fuses ∧ (resetRequests x0 x1).shelfSkips = x0.shelfSkips ∧
    (resetRequests x0 x1).shelfCuts = x0.shelfCuts ∧ (resetRequests x0 x1).pending = x0.pending := by simp [resetRequests]

@[simp] theorem disablePairs_frame (x0 x1 x2) : (disablePairs x0 x1 x2).fabric = x0.fabric ∧ (disablePairs x0 x1 x2).store = x0.store ∧
    (disablePairs x0 x1 x2).tier = x0.tier ∧ (disablePairs x0 x1 x2).engines = x0.engines ∧ (disablePairs x0 x1 x2).text = x0.text ∧
    (disablePairs x0 x1 x2).flash = x0.flash ∧ (disablePairs x0 x1 x2).bureau = x0.bureau ∧ (disablePairs x0 x1 x2).power = x0.power ∧
    (disablePairs x0 x1 x2).limits = x0.limits ∧ (disablePairs x0 x1 x2).fuses = x0.fuses ∧
    (disablePairs x0 x1 x2).shelfSkips = x0.shelfSkips ∧ (disablePairs x0 x1 x2).shelfCuts = x0.shelfCuts ∧
    (disablePairs x0 x1 x2).pending = x0.pending := by simp [disablePairs]

@[simp] theorem hotReset_frame (x0) : (hotReset x0).fabric = x0.fabric ∧ (hotReset x0).text = x0.text ∧ (hotReset x0).flash = x0.flash ∧
    (hotReset x0).power = x0.power ∧ (hotReset x0).limits = x0.limits ∧ (hotReset x0).fuses = x0.fuses ∧
    (hotReset x0).shelfSkips = x0.shelfSkips ∧ (hotReset x0).shelfCuts = x0.shelfCuts ∧ (hotReset x0).pending = x0.pending := by
  unfold hotReset
  repeat' split
  all_goals ((try simp only [Prod.ext_iff] at *); (try casesm* _ ∧ _); (try subst_vars); first | (simp; done) | (simp_all; done) | skip)

@[simp] theorem orHold_frame (x0 x1 x2) : ((∀ y0, ((x2 y0)).fabric = (y0).fabric) → (orHold x0 x1 x2).fabric = x0.fabric) ∧
    ((∀ y0, ((x2 y0)).store = (y0).store) → (orHold x0 x1 x2).store = x0.store) ∧
    ((∀ y0, ((x2 y0)).tier = (y0).tier) → (orHold x0 x1 x2).tier = x0.tier) ∧
    ((∀ y0, ((x2 y0)).engines = (y0).engines) → (orHold x0 x1 x2).engines = x0.engines) ∧
    ((∀ y0, ((x2 y0)).host = (y0).host) → (orHold x0 x1 x2).host = x0.host) ∧
    ((∀ y0, ((x2 y0)).gen = (y0).gen) → (orHold x0 x1 x2).gen = x0.gen) ∧
    ((∀ y0, ((x2 y0)).text = (y0).text) → (orHold x0 x1 x2).text = x0.text) ∧
    ((∀ y0, ((x2 y0)).pair = (y0).pair) → (orHold x0 x1 x2).pair = x0.pair) ∧
    ((∀ y0, ((x2 y0)).flash = (y0).flash) → (orHold x0 x1 x2).flash = x0.flash) ∧
    ((∀ y0, ((x2 y0)).bureau = (y0).bureau) → (orHold x0 x1 x2).bureau = x0.bureau) ∧
    ((∀ y0, ((x2 y0)).limits = (y0).limits) → (orHold x0 x1 x2).limits = x0.limits) ∧
    ((∀ y0, ((x2 y0)).fuses = (y0).fuses) → (orHold x0 x1 x2).fuses = x0.fuses) ∧
    ((∀ y0, ((x2 y0)).shelfSkips = (y0).shelfSkips) → (orHold x0 x1 x2).shelfSkips = x0.shelfSkips) ∧
    ((∀ y0, ((x2 y0)).shelfCuts = (y0).shelfCuts) → (orHold x0 x1 x2).shelfCuts = x0.shelfCuts) ∧
    ((∀ y0, ((x2 y0)).free = (y0).free) → (orHold x0 x1 x2).free = x0.free) ∧
    ((∀ y0, ((x2 y0)).pending = (y0).pending) → (orHold x0 x1 x2).pending = x0.pending) := by
  refine ⟨fun h0 => ?_, fun h0 => ?_, fun h0 => ?_, fun h0 => ?_, fun h0 => ?_, fun h0 => ?_, fun h0 => ?_, fun h0 => ?_, fun h0 => ?_, fun h0 => ?_, fun h0 => ?_, fun h0 => ?_, fun h0 => ?_, fun h0 => ?_, fun h0 => ?_, fun h0 => ?_⟩
  all_goals unfold orHold
  all_goals (repeat' split)
  all_goals ((try simp only [Prod.ext_iff] at *); (try casesm* _ ∧ _); (try subst_vars); first | (simp [h0]; done) | (simp_all; done) | skip)

theorem execCxlHotReset_frame (x0) : ∀ t, (execCxlHotReset x0) = .next t → t.fabric = x0.fabric ∧ t.text = x0.text ∧ t.flash = x0.flash ∧
    t.limits = x0.limits ∧ t.fuses = x0.fuses ∧ t.shelfSkips = x0.shelfSkips ∧ t.shelfCuts = x0.shelfCuts ∧ t.pending = x0.pending := by
  unfold execCxlHotReset
  repeat' split
  all_goals ((try simp only [Prod.ext_iff] at *); (try casesm* _ ∧ _); (try subst_vars); first | (simp; done) | (simp_all; done) | skip)

@[simp] theorem mailboxReset_frame (x0) : (mailboxReset x0).fabric = x0.fabric ∧ (mailboxReset x0).store = x0.store ∧
    (mailboxReset x0).tier = x0.tier ∧ (mailboxReset x0).engines = x0.engines ∧ (mailboxReset x0).host = x0.host ∧
    (mailboxReset x0).gen = x0.gen ∧ (mailboxReset x0).text = x0.text ∧ (mailboxReset x0).pair = x0.pair ∧
    (mailboxReset x0).flash = x0.flash ∧ (mailboxReset x0).power = x0.power ∧ (mailboxReset x0).limits = x0.limits ∧
    (mailboxReset x0).fuses = x0.fuses ∧ (mailboxReset x0).shelfSkips = x0.shelfSkips ∧ (mailboxReset x0).shelfCuts = x0.shelfCuts ∧
    (mailboxReset x0).free = x0.free ∧ (mailboxReset x0).pending = x0.pending := by simp [mailboxReset]

@[simp] theorem functionReset_frame (x0 x1) : (functionReset x0 x1).fabric = x0.fabric ∧ (functionReset x0 x1).engines = x0.engines ∧
    (functionReset x0 x1).text = x0.text ∧ (functionReset x0 x1).flash = x0.flash ∧ (functionReset x0 x1).power = x0.power ∧
    (functionReset x0 x1).limits = x0.limits ∧ (functionReset x0 x1).fuses = x0.fuses ∧ (functionReset x0 x1).shelfSkips = x0.shelfSkips ∧
    (functionReset x0 x1).shelfCuts = x0.shelfCuts ∧ (functionReset x0 x1).pending = x0.pending := by simp [functionReset]

theorem execFunctionLevelReset_frame (x0 x1) : ∀ t, (execFunctionLevelReset x0 x1) = .next t → t.fabric = x1.fabric ∧ t.engines = x1.engines ∧
    t.text = x1.text ∧ t.flash = x1.flash ∧ t.limits = x1.limits ∧ t.fuses = x1.fuses ∧ t.shelfSkips = x1.shelfSkips ∧
    t.shelfCuts = x1.shelfCuts ∧ t.pending = x1.pending := by
  unfold execFunctionLevelReset
  repeat' split
  all_goals ((try simp only [Prod.ext_iff] at *); (try casesm* _ ∧ _); (try subst_vars); first | (simp; done) | (simp_all; done) | skip)

/-! ## Requests -/

theorem execNop_frame (x0 x1 x2 x3) : ∀ t, (execNop x0 x1 x2 x3) = .next t → t.fabric = x3.fabric ∧ t.store = x3.store ∧ t.tier = x3.tier ∧
    t.engines = x3.engines ∧ t.text = x3.text ∧ t.flash = x3.flash ∧ t.power = x3.power ∧ t.limits = x3.limits ∧ t.fuses = x3.fuses ∧
    t.shelfSkips = x3.shelfSkips ∧ t.shelfCuts = x3.shelfCuts ∧ t.pending = x3.pending := by simp [execNop]

@[simp] theorem lostTable_frame (x0 x1) : (lostTable x0 x1).fabric = x1.fabric ∧ (lostTable x0 x1).engines = x1.engines ∧
    (lostTable x0 x1).text = x1.text ∧ (lostTable x0 x1).flash = x1.flash ∧ (lostTable x0 x1).power = x1.power ∧
    (lostTable x0 x1).limits = x1.limits ∧ (lostTable x0 x1).fuses = x1.fuses ∧ (lostTable x0 x1).shelfSkips = x1.shelfSkips ∧
    (lostTable x0 x1).shelfCuts = x1.shelfCuts ∧ (lostTable x0 x1).pending = x1.pending := by simp [lostTable]

@[simp] theorem beginTurn_frame (x0 x1 x2 x3 x4) : (beginTurn x0 x1 x2 x3 x4).engines = x4.engines ∧
    (beginTurn x0 x1 x2 x3 x4).flash = x4.flash ∧ (beginTurn x0 x1 x2 x3 x4).power = x4.power ∧
    (beginTurn x0 x1 x2 x3 x4).limits = x4.limits ∧ (beginTurn x0 x1 x2 x3 x4).fuses = x4.fuses ∧
    (beginTurn x0 x1 x2 x3 x4).shelfSkips = x4.shelfSkips ∧ (beginTurn x0 x1 x2 x3 x4).shelfCuts = x4.shelfCuts ∧
    (beginTurn x0 x1 x2 x3 x4).pending = x4.pending := by
  simp only [beginTurn]
  repeat' split
  all_goals ((try simp only [Prod.ext_iff] at *); (try casesm* _ ∧ _); (try subst_vars); (try have hh_3 := copyTemplate_frame _ _ _ _ (by assumption)); first | (simp; done) | (simp_all; done) | skip)

@[simp] theorem startTurn_frame (x0 x1) : (startTurn x0 x1).engines = x0.engines ∧ (startTurn x0 x1).flash = x0.flash ∧
    (startTurn x0 x1).power = x0.power ∧ (startTurn x0 x1).limits = x0.limits ∧ (startTurn x0 x1).fuses = x0.fuses ∧
    (startTurn x0 x1).shelfSkips = x0.shelfSkips ∧ (startTurn x0 x1).shelfCuts = x0.shelfCuts ∧ (startTurn x0 x1).pending = x0.pending := by
  simp only [startTurn]
  repeat' split
  all_goals ((try simp only [Prod.ext_iff] at *); (try casesm* _ ∧ _); (try subst_vars); (try simp))

@[simp] theorem mirrorDesc_frame (x0 x1) : (mirrorDesc x0 x1).fabric = x0.fabric ∧ (mirrorDesc x0 x1).store = x0.store ∧
    (mirrorDesc x0 x1).tier = x0.tier ∧ (mirrorDesc x0 x1).engines = x0.engines ∧ (mirrorDesc x0 x1).gen = x0.gen ∧
    (mirrorDesc x0 x1).text = x0.text ∧ (mirrorDesc x0 x1).flash = x0.flash ∧ (mirrorDesc x0 x1).bureau = x0.bureau ∧
    (mirrorDesc x0 x1).power = x0.power ∧ (mirrorDesc x0 x1).limits = x0.limits ∧ (mirrorDesc x0 x1).fuses = x0.fuses ∧
    (mirrorDesc x0 x1).shelfSkips = x0.shelfSkips ∧ (mirrorDesc x0 x1).shelfCuts = x0.shelfCuts ∧ (mirrorDesc x0 x1).pending = x0.pending := by unfold mirrorDesc; split <;> simp

@[simp] theorem openTurn_frame (x0 x1) : (openTurn x0 x1).engines = x0.engines ∧ (openTurn x0 x1).flash = x0.flash ∧
    (openTurn x0 x1).power = x0.power ∧ (openTurn x0 x1).limits = x0.limits ∧ (openTurn x0 x1).fuses = x0.fuses ∧
    (openTurn x0 x1).shelfSkips = x0.shelfSkips ∧ (openTurn x0 x1).shelfCuts = x0.shelfCuts ∧ (openTurn x0 x1).pending = x0.pending := by unfold openTurn; split <;> simp

theorem execTurn_frame (x0 x1 x2 x3) : ∀ t, (execTurn x0 x1 x2 x3) = .next t → t.engines = x3.engines ∧ t.flash = x3.flash ∧
    t.power = x3.power ∧ t.limits = x3.limits ∧ t.fuses = x3.fuses ∧ t.shelfSkips = x3.shelfSkips ∧ t.shelfCuts = x3.shelfCuts ∧
    t.pending = x3.pending := by
  unfold execTurn
  repeat' split
  all_goals ((try simp only [Prod.ext_iff] at *); (try casesm* _ ∧ _); (try subst_vars); first | (simp; done) | (simp_all; done) | skip)

@[simp] theorem addText_frame (x0 x1 x2 x3) : (addText x0 x1 x2 x3).engines = x0.engines ∧ (addText x0 x1 x2 x3).flash = x0.flash ∧
    (addText x0 x1 x2 x3).power = x0.power ∧ (addText x0 x1 x2 x3).limits = x0.limits ∧ (addText x0 x1 x2 x3).fuses = x0.fuses ∧
    (addText x0 x1 x2 x3).shelfSkips = x0.shelfSkips ∧ (addText x0 x1 x2 x3).shelfCuts = x0.shelfCuts ∧
    (addText x0 x1 x2 x3).pending = x0.pending := by
  simp only [addText]
  repeat' split
  all_goals ((try simp only [Prod.ext_iff] at *); (try casesm* _ ∧ _); (try subst_vars); (try simp))

@[simp] theorem textAppend_frame (x0 x1 x2) : (textAppend x0 x1 x2).engines = x0.engines ∧ (textAppend x0 x1 x2).flash = x0.flash ∧
    (textAppend x0 x1 x2).power = x0.power ∧ (textAppend x0 x1 x2).limits = x0.limits ∧ (textAppend x0 x1 x2).fuses = x0.fuses ∧
    (textAppend x0 x1 x2).shelfSkips = x0.shelfSkips ∧ (textAppend x0 x1 x2).shelfCuts = x0.shelfCuts ∧
    (textAppend x0 x1 x2).pending = x0.pending := by unfold textAppend; split <;> simp

theorem execTextAppend_frame (x0 x1 x2 x3) : ∀ t, (execTextAppend x0 x1 x2 x3) = .next t → t.engines = x3.engines ∧ t.flash = x3.flash ∧
    t.power = x3.power ∧ t.limits = x3.limits ∧ t.fuses = x3.fuses ∧ t.shelfSkips = x3.shelfSkips ∧ t.shelfCuts = x3.shelfCuts ∧
    t.pending = x3.pending := by
  unfold execTextAppend
  repeat' split
  all_goals ((try simp only [Prod.ext_iff] at *); (try casesm* _ ∧ _); (try subst_vars); first | (simp; done) | (simp_all; done) | skip)

@[simp] theorem turnEndDeadline_frame (x0 x1) : (turnEndDeadline x0 x1).fabric = x0.fabric ∧ (turnEndDeadline x0 x1).engines = x0.engines ∧
    (turnEndDeadline x0 x1).text = x0.text ∧ (turnEndDeadline x0 x1).flash = x0.flash ∧ (turnEndDeadline x0 x1).power = x0.power ∧
    (turnEndDeadline x0 x1).limits = x0.limits ∧ (turnEndDeadline x0 x1).fuses = x0.fuses ∧
    (turnEndDeadline x0 x1).shelfSkips = x0.shelfSkips ∧ (turnEndDeadline x0 x1).shelfCuts = x0.shelfCuts ∧
    (turnEndDeadline x0 x1).pending = x0.pending := by unfold turnEndDeadline; split <;> simp

theorem execTurnEndDeadline_frame (x0 x1) : ∀ t, (execTurnEndDeadline x0 x1) = .next t → t.fabric = x1.fabric ∧ t.engines = x1.engines ∧
    t.text = x1.text ∧ t.flash = x1.flash ∧ t.power = x1.power ∧ t.limits = x1.limits ∧ t.fuses = x1.fuses ∧ t.shelfSkips = x1.shelfSkips ∧
    t.shelfCuts = x1.shelfCuts ∧ t.pending = x1.pending := by simp [execTurnEndDeadline]

@[simp] theorem queueEmbed_frame (x0 x1 x2 x3 x4) : (queueEmbed x0 x1 x2 x3 x4).fabric = x4.fabric ∧
    (queueEmbed x0 x1 x2 x3 x4).store = x4.store ∧ (queueEmbed x0 x1 x2 x3 x4).tier = x4.tier ∧
    (queueEmbed x0 x1 x2 x3 x4).engines = x4.engines ∧ (queueEmbed x0 x1 x2 x3 x4).pair = x4.pair ∧
    (queueEmbed x0 x1 x2 x3 x4).flash = x4.flash ∧ (queueEmbed x0 x1 x2 x3 x4).power = x4.power ∧
    (queueEmbed x0 x1 x2 x3 x4).limits = x4.limits ∧ (queueEmbed x0 x1 x2 x3 x4).fuses = x4.fuses ∧
    (queueEmbed x0 x1 x2 x3 x4).shelfSkips = x4.shelfSkips ∧ (queueEmbed x0 x1 x2 x3 x4).shelfCuts = x4.shelfCuts ∧
    (queueEmbed x0 x1 x2 x3 x4).free = x4.free ∧ (queueEmbed x0 x1 x2 x3 x4).pending = x4.pending := by simp [queueEmbed]

@[simp] theorem startEmbed_frame (x0 x1 x2) : (startEmbed x0 x1 x2).fabric = x0.fabric ∧ (startEmbed x0 x1 x2).engines = x0.engines ∧
    (startEmbed x0 x1 x2).flash = x0.flash ∧ (startEmbed x0 x1 x2).power = x0.power ∧ (startEmbed x0 x1 x2).limits = x0.limits ∧
    (startEmbed x0 x1 x2).fuses = x0.fuses ∧ (startEmbed x0 x1 x2).shelfSkips = x0.shelfSkips ∧
    (startEmbed x0 x1 x2).shelfCuts = x0.shelfCuts ∧ (startEmbed x0 x1 x2).pending = x0.pending := by simp [startEmbed]

theorem execEmbed_frame (x0 x1 x2 x3) : ∀ t, (execEmbed x0 x1 x2 x3) = .next t → t.fabric = x3.fabric ∧ t.engines = x3.engines ∧
    t.flash = x3.flash ∧ t.power = x3.power ∧ t.limits = x3.limits ∧ t.fuses = x3.fuses ∧ t.shelfSkips = x3.shelfSkips ∧
    t.shelfCuts = x3.shelfCuts ∧ t.pending = x3.pending := by
  unfold execEmbed
  repeat' split
  all_goals ((try simp only [Prod.ext_iff] at *); (try casesm* _ ∧ _); (try subst_vars); first | (simp; done) | (simp_all; done) | skip)

@[simp] theorem startSearch_frame (x0 x1 x2) : (startSearch x0 x1 x2).fabric = x0.fabric ∧ (startSearch x0 x1 x2).store = x0.store ∧
    (startSearch x0 x1 x2).tier = x0.tier ∧ (startSearch x0 x1 x2).engines = x0.engines ∧ (startSearch x0 x1 x2).gen = x0.gen ∧
    (startSearch x0 x1 x2).text = x0.text ∧ (startSearch x0 x1 x2).pair = x0.pair ∧ (startSearch x0 x1 x2).flash = x0.flash ∧
    (startSearch x0 x1 x2).bureau = x0.bureau ∧ (startSearch x0 x1 x2).power = x0.power ∧ (startSearch x0 x1 x2).limits = x0.limits ∧
    (startSearch x0 x1 x2).fuses = x0.fuses ∧ (startSearch x0 x1 x2).shelfSkips = x0.shelfSkips ∧
    (startSearch x0 x1 x2).shelfCuts = x0.shelfCuts ∧ (startSearch x0 x1 x2).free = x0.free ∧ (startSearch x0 x1 x2).pending = x0.pending := by simp [startSearch]

theorem execSearch_frame (x0 x1 x2 x3) : ∀ t, (execSearch x0 x1 x2 x3) = .next t → t.fabric = x3.fabric ∧ t.store = x3.store ∧
    t.tier = x3.tier ∧ t.engines = x3.engines ∧ t.text = x3.text ∧ t.flash = x3.flash ∧ t.power = x3.power ∧ t.limits = x3.limits ∧
    t.fuses = x3.fuses ∧ t.shelfSkips = x3.shelfSkips ∧ t.shelfCuts = x3.shelfCuts ∧ t.pending = x3.pending := by simp [execSearch]

@[simp] theorem startRerank_frame (x0 x1 x2) : (startRerank x0 x1 x2).fabric = x0.fabric ∧ (startRerank x0 x1 x2).store = x0.store ∧
    (startRerank x0 x1 x2).tier = x0.tier ∧ (startRerank x0 x1 x2).engines = x0.engines ∧ (startRerank x0 x1 x2).gen = x0.gen ∧
    (startRerank x0 x1 x2).text = x0.text ∧ (startRerank x0 x1 x2).pair = x0.pair ∧ (startRerank x0 x1 x2).flash = x0.flash ∧
    (startRerank x0 x1 x2).bureau = x0.bureau ∧ (startRerank x0 x1 x2).power = x0.power ∧ (startRerank x0 x1 x2).limits = x0.limits ∧
    (startRerank x0 x1 x2).fuses = x0.fuses ∧ (startRerank x0 x1 x2).shelfSkips = x0.shelfSkips ∧
    (startRerank x0 x1 x2).shelfCuts = x0.shelfCuts ∧ (startRerank x0 x1 x2).free = x0.free ∧ (startRerank x0 x1 x2).pending = x0.pending := by simp [startRerank]

theorem execRerank_frame (x0 x1 x2 x3) : ∀ t, (execRerank x0 x1 x2 x3) = .next t → t.fabric = x3.fabric ∧ t.store = x3.store ∧
    t.tier = x3.tier ∧ t.engines = x3.engines ∧ t.text = x3.text ∧ t.flash = x3.flash ∧ t.power = x3.power ∧ t.limits = x3.limits ∧
    t.fuses = x3.fuses ∧ t.shelfSkips = x3.shelfSkips ∧ t.shelfCuts = x3.shelfCuts ∧ t.pending = x3.pending := by simp [execRerank]

@[simp] theorem startGenerate_frame (x0 x1 x2) : (startGenerate x0 x1 x2).fabric = x0.fabric ∧ (startGenerate x0 x1 x2).store = x0.store ∧
    (startGenerate x0 x1 x2).tier = x0.tier ∧ (startGenerate x0 x1 x2).engines = x0.engines ∧ (startGenerate x0 x1 x2).text = x0.text ∧
    (startGenerate x0 x1 x2).flash = x0.flash ∧ (startGenerate x0 x1 x2).bureau = x0.bureau ∧ (startGenerate x0 x1 x2).power = x0.power ∧
    (startGenerate x0 x1 x2).limits = x0.limits ∧ (startGenerate x0 x1 x2).fuses = x0.fuses ∧
    (startGenerate x0 x1 x2).shelfSkips = x0.shelfSkips ∧ (startGenerate x0 x1 x2).shelfCuts = x0.shelfCuts ∧
    (startGenerate x0 x1 x2).pending = x0.pending := by simp [startGenerate]

theorem execGenerate_frame (x0 x1 x2 x3) : ∀ t, (execGenerate x0 x1 x2 x3) = .next t → t.fabric = x3.fabric ∧ t.store = x3.store ∧
    t.tier = x3.tier ∧ t.engines = x3.engines ∧ t.text = x3.text ∧ t.flash = x3.flash ∧ t.power = x3.power ∧ t.limits = x3.limits ∧
    t.fuses = x3.fuses ∧ t.shelfSkips = x3.shelfSkips ∧ t.shelfCuts = x3.shelfCuts ∧ t.pending = x3.pending := by simp [execGenerate]

@[simp] theorem textResult_frame (x0 x1 x2 x3 x4 x5 x6 x7) : (textResult x0 x1 x2 x3 x4 x5 x6 x7).fabric = x0.fabric ∧
    (textResult x0 x1 x2 x3 x4 x5 x6 x7).store = x0.store ∧ (textResult x0 x1 x2 x3 x4 x5 x6 x7).tier = x0.tier ∧
    (textResult x0 x1 x2 x3 x4 x5 x6 x7).engines = x0.engines ∧ (textResult x0 x1 x2 x3 x4 x5 x6 x7).text = x0.text ∧
    (textResult x0 x1 x2 x3 x4 x5 x6 x7).flash = x0.flash ∧ (textResult x0 x1 x2 x3 x4 x5 x6 x7).bureau = x0.bureau ∧
    (textResult x0 x1 x2 x3 x4 x5 x6 x7).power = x0.power ∧ (textResult x0 x1 x2 x3 x4 x5 x6 x7).limits = x0.limits ∧
    (textResult x0 x1 x2 x3 x4 x5 x6 x7).fuses = x0.fuses ∧ (textResult x0 x1 x2 x3 x4 x5 x6 x7).shelfSkips = x0.shelfSkips ∧
    (textResult x0 x1 x2 x3 x4 x5 x6 x7).shelfCuts = x0.shelfCuts ∧ (textResult x0 x1 x2 x3 x4 x5 x6 x7).pending = x0.pending := by simp [textResult]

@[simp] theorem runTokenize_frame (x0 x1 x2) : (runTokenize x0 x1 x2).fabric = x0.fabric ∧ (runTokenize x0 x1 x2).engines = x0.engines ∧
    (runTokenize x0 x1 x2).flash = x0.flash ∧ (runTokenize x0 x1 x2).power = x0.power ∧ (runTokenize x0 x1 x2).limits = x0.limits ∧
    (runTokenize x0 x1 x2).fuses = x0.fuses ∧ (runTokenize x0 x1 x2).shelfSkips = x0.shelfSkips ∧
    (runTokenize x0 x1 x2).shelfCuts = x0.shelfCuts ∧ (runTokenize x0 x1 x2).pending = x0.pending := by simp [runTokenize]

theorem execTokenize_frame (x0 x1 x2 x3) : ∀ t, (execTokenize x0 x1 x2 x3) = .next t → t.fabric = x3.fabric ∧ t.engines = x3.engines ∧
    t.flash = x3.flash ∧ t.power = x3.power ∧ t.limits = x3.limits ∧ t.fuses = x3.fuses ∧ t.shelfSkips = x3.shelfSkips ∧
    t.shelfCuts = x3.shelfCuts ∧ t.pending = x3.pending := by
  unfold execTokenize
  repeat' split
  all_goals ((try simp only [Prod.ext_iff] at *); (try casesm* _ ∧ _); (try subst_vars); first | (simp; done) | (simp_all; done) | skip)

@[simp] theorem runDetokenize_frame (x0 x1 x2) : (runDetokenize x0 x1 x2).fabric = x0.fabric ∧ (runDetokenize x0 x1 x2).engines = x0.engines ∧
    (runDetokenize x0 x1 x2).flash = x0.flash ∧ (runDetokenize x0 x1 x2).power = x0.power ∧ (runDetokenize x0 x1 x2).limits = x0.limits ∧
    (runDetokenize x0 x1 x2).fuses = x0.fuses ∧ (runDetokenize x0 x1 x2).shelfSkips = x0.shelfSkips ∧
    (runDetokenize x0 x1 x2).shelfCuts = x0.shelfCuts ∧ (runDetokenize x0 x1 x2).pending = x0.pending := by simp [runDetokenize]

theorem execDetokenize_frame (x0 x1 x2 x3) : ∀ t, (execDetokenize x0 x1 x2 x3) = .next t → t.fabric = x3.fabric ∧ t.engines = x3.engines ∧
    t.flash = x3.flash ∧ t.power = x3.power ∧ t.limits = x3.limits ∧ t.fuses = x3.fuses ∧ t.shelfSkips = x3.shelfSkips ∧
    t.shelfCuts = x3.shelfCuts ∧ t.pending = x3.pending := by
  unfold execDetokenize
  repeat' split
  all_goals ((try simp only [Prod.ext_iff] at *); (try casesm* _ ∧ _); (try subst_vars); first | (simp; done) | (simp_all; done) | skip)

@[simp] theorem startBatch_frame (x0 x1 x2 x3) : (startBatch x0 x1 x2 x3).engines = x0.engines ∧ (startBatch x0 x1 x2 x3).text = x0.text ∧
    (startBatch x0 x1 x2 x3).power = x0.power ∧ (startBatch x0 x1 x2 x3).limits = x0.limits ∧ (startBatch x0 x1 x2 x3).fuses = x0.fuses ∧
    (startBatch x0 x1 x2 x3).shelfSkips = x0.shelfSkips ∧ (startBatch x0 x1 x2 x3).shelfCuts = x0.shelfCuts ∧
    (startBatch x0 x1 x2 x3).pending = x0.pending := by simp [startBatch]

theorem execIndexInsert_frame (x0 x1 x2 x3) : ∀ t, (execIndexInsert x0 x1 x2 x3) = .next t → t.engines = x3.engines ∧ t.text = x3.text ∧
    t.power = x3.power ∧ t.limits = x3.limits ∧ t.fuses = x3.fuses ∧ t.shelfSkips = x3.shelfSkips ∧ t.shelfCuts = x3.shelfCuts ∧
    t.pending = x3.pending := by
  unfold execIndexInsert
  repeat' split
  all_goals ((try simp only [Prod.ext_iff] at *); (try casesm* _ ∧ _); (try subst_vars); first | (simp; done) | (simp_all; done) | skip)

theorem execIndexPatch_frame (x0 x1 x2 x3) : ∀ t, (execIndexPatch x0 x1 x2 x3) = .next t → t.engines = x3.engines ∧ t.text = x3.text ∧
    t.power = x3.power ∧ t.limits = x3.limits ∧ t.fuses = x3.fuses ∧ t.shelfSkips = x3.shelfSkips ∧ t.shelfCuts = x3.shelfCuts ∧
    t.pending = x3.pending := by
  unfold execIndexPatch
  repeat' split
  all_goals ((try simp only [Prod.ext_iff] at *); (try casesm* _ ∧ _); (try subst_vars); first | (simp; done) | (simp_all; done) | skip)

theorem execIndexDelete_frame (x0 x1 x2 x3) : ∀ t, (execIndexDelete x0 x1 x2 x3) = .next t → t.engines = x3.engines ∧ t.text = x3.text ∧
    t.power = x3.power ∧ t.limits = x3.limits ∧ t.fuses = x3.fuses ∧ t.shelfSkips = x3.shelfSkips ∧ t.shelfCuts = x3.shelfCuts ∧
    t.pending = x3.pending := by
  unfold execIndexDelete
  repeat' split
  all_goals ((try simp only [Prod.ext_iff] at *); (try casesm* _ ∧ _); (try subst_vars); first | (simp; done) | (simp_all; done) | skip)

theorem execRowLookup_frame (x0 x1 x2 x3) : ∀ t, (execRowLookup x0 x1 x2 x3) = .next t → t.fabric = x3.fabric ∧ t.store = x3.store ∧
    t.tier = x3.tier ∧ t.engines = x3.engines ∧ t.text = x3.text ∧ t.flash = x3.flash ∧ t.power = x3.power ∧ t.limits = x3.limits ∧
    t.fuses = x3.fuses ∧ t.shelfSkips = x3.shelfSkips ∧ t.shelfCuts = x3.shelfCuts ∧ t.pending = x3.pending := by simp [execRowLookup]

@[simp] theorem startUpdate_frame (x0 x1 x2) : (startUpdate x0 x1 x2).fabric = x0.fabric ∧ (startUpdate x0 x1 x2).store = x0.store ∧
    (startUpdate x0 x1 x2).tier = x0.tier ∧ (startUpdate x0 x1 x2).engines = x0.engines ∧ (startUpdate x0 x1 x2).text = x0.text ∧
    (startUpdate x0 x1 x2).flash = x0.flash ∧ (startUpdate x0 x1 x2).bureau = x0.bureau ∧ (startUpdate x0 x1 x2).power = x0.power ∧
    (startUpdate x0 x1 x2).limits = x0.limits ∧ (startUpdate x0 x1 x2).fuses = x0.fuses ∧ (startUpdate x0 x1 x2).shelfSkips = x0.shelfSkips ∧
    (startUpdate x0 x1 x2).shelfCuts = x0.shelfCuts ∧ (startUpdate x0 x1 x2).pending = x0.pending := by simp [startUpdate]

theorem execRowUpdate_frame (x0 x1 x2 x3) : ∀ t, (execRowUpdate x0 x1 x2 x3) = .next t → t.fabric = x3.fabric ∧ t.store = x3.store ∧
    t.tier = x3.tier ∧ t.engines = x3.engines ∧ t.text = x3.text ∧ t.flash = x3.flash ∧ t.power = x3.power ∧ t.limits = x3.limits ∧
    t.fuses = x3.fuses ∧ t.shelfSkips = x3.shelfSkips ∧ t.shelfCuts = x3.shelfCuts ∧ t.pending = x3.pending := by simp [execRowUpdate]

@[simp] theorem runCancel_frame (x0 x1 x2 x3) : (runCancel x0 x1 x2 x3).fabric = x0.fabric ∧ (runCancel x0 x1 x2 x3).engines = x0.engines ∧
    (runCancel x0 x1 x2 x3).text = x0.text ∧ (runCancel x0 x1 x2 x3).flash = x0.flash ∧ (runCancel x0 x1 x2 x3).power = x0.power ∧
    (runCancel x0 x1 x2 x3).limits = x0.limits ∧ (runCancel x0 x1 x2 x3).fuses = x0.fuses ∧
    (runCancel x0 x1 x2 x3).shelfSkips = x0.shelfSkips ∧ (runCancel x0 x1 x2 x3).shelfCuts = x0.shelfCuts ∧
    (runCancel x0 x1 x2 x3).pending = x0.pending := by unfold runCancel; split <;> simp

theorem execCancel_frame (x0 x1 x2 x3) : ∀ t, (execCancel x0 x1 x2 x3) = .next t → t.fabric = x3.fabric ∧ t.engines = x3.engines ∧
    t.text = x3.text ∧ t.flash = x3.flash ∧ t.power = x3.power ∧ t.limits = x3.limits ∧ t.fuses = x3.fuses ∧ t.shelfSkips = x3.shelfSkips ∧
    t.shelfCuts = x3.shelfCuts ∧ t.pending = x3.pending := by
  unfold execCancel
  repeat' split
  all_goals ((try simp only [Prod.ext_iff] at *); (try casesm* _ ∧ _); (try subst_vars); first | (simp; done) | (simp_all; done) | skip)

theorem execFence_frame (x0 x1 x2 x3) : ∀ t, (execFence x0 x1 x2 x3) = .next t → t.fabric = x3.fabric ∧ t.store = x3.store ∧
    t.tier = x3.tier ∧ t.engines = x3.engines ∧ t.text = x3.text ∧ t.flash = x3.flash ∧ t.power = x3.power ∧ t.limits = x3.limits ∧
    t.fuses = x3.fuses ∧ t.shelfSkips = x3.shelfSkips ∧ t.shelfCuts = x3.shelfCuts ∧ t.pending = x3.pending := by simp [execFence]

@[simp] theorem fenceComplete_frame (x0 x1 x2) : (fenceComplete x0 x1 x2).fabric = x0.fabric ∧ (fenceComplete x0 x1 x2).store = x0.store ∧
    (fenceComplete x0 x1 x2).tier = x0.tier ∧ (fenceComplete x0 x1 x2).engines = x0.engines ∧ (fenceComplete x0 x1 x2).text = x0.text ∧
    (fenceComplete x0 x1 x2).flash = x0.flash ∧ (fenceComplete x0 x1 x2).bureau = x0.bureau ∧ (fenceComplete x0 x1 x2).power = x0.power ∧
    (fenceComplete x0 x1 x2).limits = x0.limits ∧ (fenceComplete x0 x1 x2).fuses = x0.fuses ∧
    (fenceComplete x0 x1 x2).shelfSkips = x0.shelfSkips ∧ (fenceComplete x0 x1 x2).shelfCuts = x0.shelfCuts ∧
    (fenceComplete x0 x1 x2).pending = x0.pending := by unfold fenceComplete; split <;> simp

theorem execFenceComplete_frame (x0 x1 x2) : ∀ t, (execFenceComplete x0 x1 x2) = .next t → t.fabric = x2.fabric ∧ t.store = x2.store ∧
    t.tier = x2.tier ∧ t.engines = x2.engines ∧ t.text = x2.text ∧ t.flash = x2.flash ∧ t.bureau = x2.bureau ∧ t.power = x2.power ∧
    t.limits = x2.limits ∧ t.fuses = x2.fuses ∧ t.shelfSkips = x2.shelfSkips ∧ t.shelfCuts = x2.shelfCuts ∧ t.pending = x2.pending := by simp [execFenceComplete]

/-! ## Loads -/

@[simp] theorem existing_frame (x0 x1 x2 x3 x4) : ((∀ y0, ((x4 y0)).fabric = (y0).fabric) → (existing x0 x1 x2 x3 x4).fabric = x0.fabric) ∧
    ((∀ y0, ((x4 y0)).store = (y0).store) → (existing x0 x1 x2 x3 x4).store = x0.store) ∧
    ((∀ y0, ((x4 y0)).tier = (y0).tier) → (existing x0 x1 x2 x3 x4).tier = x0.tier) ∧
    ((∀ y0, ((x4 y0)).engines = (y0).engines) → (existing x0 x1 x2 x3 x4).engines = x0.engines) ∧
    ((∀ y0, ((x4 y0)).text = (y0).text) → (existing x0 x1 x2 x3 x4).text = x0.text) ∧
    ((∀ y0, ((x4 y0)).flash = (y0).flash) → (existing x0 x1 x2 x3 x4).flash = x0.flash) ∧
    ((∀ y0, ((x4 y0)).power = (y0).power) → (existing x0 x1 x2 x3 x4).power = x0.power) ∧
    ((∀ y0, ((x4 y0)).limits = (y0).limits) → (existing x0 x1 x2 x3 x4).limits = x0.limits) ∧
    ((∀ y0, ((x4 y0)).fuses = (y0).fuses) → (existing x0 x1 x2 x3 x4).fuses = x0.fuses) ∧
    ((∀ y0, ((x4 y0)).shelfSkips = (y0).shelfSkips) → (existing x0 x1 x2 x3 x4).shelfSkips = x0.shelfSkips) ∧
    ((∀ y0, ((x4 y0)).shelfCuts = (y0).shelfCuts) → (existing x0 x1 x2 x3 x4).shelfCuts = x0.shelfCuts) ∧
    ((∀ y0, ((x4 y0)).pending = (y0).pending) → (existing x0 x1 x2 x3 x4).pending = x0.pending) := by
  refine ⟨fun h0 => ?_, fun h0 => ?_, fun h0 => ?_, fun h0 => ?_, fun h0 => ?_, fun h0 => ?_, fun h0 => ?_, fun h0 => ?_, fun h0 => ?_, fun h0 => ?_, fun h0 => ?_, fun h0 => ?_⟩
  all_goals unfold existing
  all_goals (repeat' split)
  all_goals ((try simp only [Prod.ext_iff] at *); (try casesm* _ ∧ _); (try subst_vars); first | (simp [h0]; done) | (simp_all; done) | skip)

@[simp] theorem loadPlace_frame (x0 x1 x2 x3 x4 x5 x6) : ((loadPlace x0 x1 x2 x3 x4 x5 x6)).1.engines = x6.engines ∧
    ((loadPlace x0 x1 x2 x3 x4 x5 x6)).1.text = x6.text ∧ ((loadPlace x0 x1 x2 x3 x4 x5 x6)).1.pair = x6.pair ∧
    ((loadPlace x0 x1 x2 x3 x4 x5 x6)).1.power = x6.power ∧ ((loadPlace x0 x1 x2 x3 x4 x5 x6)).1.limits = x6.limits ∧
    ((loadPlace x0 x1 x2 x3 x4 x5 x6)).1.fuses = x6.fuses ∧ ((loadPlace x0 x1 x2 x3 x4 x5 x6)).1.shelfSkips = x6.shelfSkips ∧
    ((loadPlace x0 x1 x2 x3 x4 x5 x6)).1.shelfCuts = x6.shelfCuts ∧ ((loadPlace x0 x1 x2 x3 x4 x5 x6)).1.pending = x6.pending := by simp [loadPlace]

@[simp] theorem loadTile_frame (x0 x1 x2 x3) : ((loadTile x0 x1 x2 x3)).1.engines = x0.engines ∧ ((loadTile x0 x1 x2 x3)).1.text = x0.text ∧
    ((loadTile x0 x1 x2 x3)).1.pair = x0.pair ∧ ((loadTile x0 x1 x2 x3)).1.power = x0.power ∧ ((loadTile x0 x1 x2 x3)).1.limits = x0.limits ∧
    ((loadTile x0 x1 x2 x3)).1.fuses = x0.fuses ∧ ((loadTile x0 x1 x2 x3)).1.shelfSkips = x0.shelfSkips ∧
    ((loadTile x0 x1 x2 x3)).1.shelfCuts = x0.shelfCuts ∧ ((loadTile x0 x1 x2 x3)).1.pending = x0.pending := by unfold loadTile; split <;> simp

@[simp] theorem loadTiles_frame (x0 x1 x2 x3) : ((loadTiles x0 x1 x2 x3)).1.engines = x1.engines ∧
    ((loadTiles x0 x1 x2 x3)).1.text = x1.text ∧ ((loadTiles x0 x1 x2 x3)).1.pair = x1.pair ∧ ((loadTiles x0 x1 x2 x3)).1.power = x1.power ∧
    ((loadTiles x0 x1 x2 x3)).1.limits = x1.limits ∧ ((loadTiles x0 x1 x2 x3)).1.fuses = x1.fuses ∧
    ((loadTiles x0 x1 x2 x3)).1.shelfSkips = x1.shelfSkips ∧ ((loadTiles x0 x1 x2 x3)).1.shelfCuts = x1.shelfCuts ∧
    ((loadTiles x0 x1 x2 x3)).1.pending = x1.pending := by
  induction x3 generalizing x1 x2 with
  | nil => simp [loadTiles]
  | cons d l ih =>
    unfold loadTiles
    repeat' split
    all_goals ((try simp only [Prod.ext_iff] at *); (try casesm* _ ∧ _); (try subst_vars); first | (simp [ih]; done) | simp_all)

@[simp] theorem loadExtent_frame (x0 x1 x2) : (loadExtent x0 x1 x2).engines = x0.engines ∧ (loadExtent x0 x1 x2).text = x0.text ∧
    (loadExtent x0 x1 x2).power = x0.power ∧ (loadExtent x0 x1 x2).limits = x0.limits ∧ (loadExtent x0 x1 x2).fuses = x0.fuses ∧
    (loadExtent x0 x1 x2).shelfSkips = x0.shelfSkips ∧ (loadExtent x0 x1 x2).shelfCuts = x0.shelfCuts ∧
    (loadExtent x0 x1 x2).pending = x0.pending := by simp [loadExtent]

theorem execLoadExtent_frame (x0 x1 x2 x3) : ∀ t, (execLoadExtent x0 x1 x2 x3) = .next t → t.engines = x3.engines ∧ t.text = x3.text ∧
    t.power = x3.power ∧ t.limits = x3.limits ∧ t.fuses = x3.fuses ∧ t.shelfSkips = x3.shelfSkips ∧ t.shelfCuts = x3.shelfCuts ∧
    t.pending = x3.pending := by
  intro t h
  cases h
  simp (maxDischargeDepth := 9)

theorem takeVersion_frame (x0 x1) : ∀ t, (takeVersion x0 x1) = some t → (t).2.fabric = x0.fabric ∧ (t).2.store = x0.store ∧
    (t).2.tier = x0.tier ∧ (t).2.engines = x0.engines ∧ (t).2.host = x0.host ∧ (t).2.text = x0.text ∧ (t).2.pair = x0.pair ∧
    (t).2.flash = x0.flash ∧ (t).2.bureau = x0.bureau ∧ (t).2.power = x0.power ∧ (t).2.limits = x0.limits ∧ (t).2.fuses = x0.fuses ∧
    (t).2.shelfSkips = x0.shelfSkips ∧ (t).2.shelfCuts = x0.shelfCuts ∧ (t).2.pending = x0.pending := by simp [takeVersion]

@[simp] theorem commitVersion_frame (x0 x1) : (commitVersion x0 x1).fabric = x0.fabric ∧ (commitVersion x0 x1).store = x0.store ∧
    (commitVersion x0 x1).tier = x0.tier ∧ (commitVersion x0 x1).engines = x0.engines ∧ (commitVersion x0 x1).host = x0.host ∧
    (commitVersion x0 x1).text = x0.text ∧ (commitVersion x0 x1).pair = x0.pair ∧ (commitVersion x0 x1).flash = x0.flash ∧
    (commitVersion x0 x1).bureau = x0.bureau ∧ (commitVersion x0 x1).power = x0.power ∧ (commitVersion x0 x1).limits = x0.limits ∧
    (commitVersion x0 x1).fuses = x0.fuses ∧ (commitVersion x0 x1).shelfSkips = x0.shelfSkips ∧
    (commitVersion x0 x1).shelfCuts = x0.shelfCuts ∧ (commitVersion x0 x1).free = x0.free ∧ (commitVersion x0 x1).pending = x0.pending := by simp [commitVersion]

@[simp] theorem dropVersion_frame (x0 x1) : (dropVersion x0 x1).fabric = x0.fabric ∧ (dropVersion x0 x1).store = x0.store ∧
    (dropVersion x0 x1).tier = x0.tier ∧ (dropVersion x0 x1).engines = x0.engines ∧ (dropVersion x0 x1).host = x0.host ∧
    (dropVersion x0 x1).text = x0.text ∧ (dropVersion x0 x1).pair = x0.pair ∧ (dropVersion x0 x1).flash = x0.flash ∧
    (dropVersion x0 x1).bureau = x0.bureau ∧ (dropVersion x0 x1).power = x0.power ∧ (dropVersion x0 x1).limits = x0.limits ∧
    (dropVersion x0 x1).fuses = x0.fuses ∧ (dropVersion x0 x1).shelfSkips = x0.shelfSkips ∧ (dropVersion x0 x1).shelfCuts = x0.shelfCuts ∧
    (dropVersion x0 x1).free = x0.free ∧ (dropVersion x0 x1).pending = x0.pending := by simp [dropVersion]

@[simp] theorem adapterDone_frame (x0 x1) : (adapterDone x0 x1).fabric = x0.fabric ∧ (adapterDone x0 x1).store = x0.store ∧
    (adapterDone x0 x1).tier = x0.tier ∧ (adapterDone x0 x1).engines = x0.engines ∧ (adapterDone x0 x1).text = x0.text ∧
    (adapterDone x0 x1).flash = x0.flash ∧ (adapterDone x0 x1).bureau = x0.bureau ∧ (adapterDone x0 x1).power = x0.power ∧
    (adapterDone x0 x1).limits = x0.limits ∧ (adapterDone x0 x1).fuses = x0.fuses ∧ (adapterDone x0 x1).shelfSkips = x0.shelfSkips ∧
    (adapterDone x0 x1).shelfCuts = x0.shelfCuts ∧ (adapterDone x0 x1).pending = x0.pending := by unfold adapterDone; split <;> simp

@[simp] theorem adapterFails_frame (x0 x1 x2) : (adapterFails x0 x1 x2).fabric = x0.fabric ∧ (adapterFails x0 x1 x2).store = x0.store ∧
    (adapterFails x0 x1 x2).tier = x0.tier ∧ (adapterFails x0 x1 x2).engines = x0.engines ∧ (adapterFails x0 x1 x2).text = x0.text ∧
    (adapterFails x0 x1 x2).flash = x0.flash ∧ (adapterFails x0 x1 x2).bureau = x0.bureau ∧ (adapterFails x0 x1 x2).power = x0.power ∧
    (adapterFails x0 x1 x2).limits = x0.limits ∧ (adapterFails x0 x1 x2).fuses = x0.fuses ∧
    (adapterFails x0 x1 x2).shelfSkips = x0.shelfSkips ∧ (adapterFails x0 x1 x2).shelfCuts = x0.shelfCuts ∧
    (adapterFails x0 x1 x2).pending = x0.pending := by unfold adapterFails; split <;> simp

@[simp] theorem adapterAnswered_frame (x0 x1 x2) : (adapterAnswered x0 x1 x2).fabric = x0.fabric ∧
    (adapterAnswered x0 x1 x2).store = x0.store ∧ (adapterAnswered x0 x1 x2).tier = x0.tier ∧
    (adapterAnswered x0 x1 x2).engines = x0.engines ∧ (adapterAnswered x0 x1 x2).text = x0.text ∧
    (adapterAnswered x0 x1 x2).flash = x0.flash ∧ (adapterAnswered x0 x1 x2).bureau = x0.bureau ∧
    (adapterAnswered x0 x1 x2).power = x0.power ∧ (adapterAnswered x0 x1 x2).limits = x0.limits ∧
    (adapterAnswered x0 x1 x2).fuses = x0.fuses ∧ (adapterAnswered x0 x1 x2).shelfSkips = x0.shelfSkips ∧
    (adapterAnswered x0 x1 x2).shelfCuts = x0.shelfCuts ∧ (adapterAnswered x0 x1 x2).pending = x0.pending := by simp [adapterAnswered]

@[simp] theorem runAdapter_frame (x0 x1 x2) : (runAdapter x0 x1 x2).fabric = x0.fabric ∧ (runAdapter x0 x1 x2).store = x0.store ∧
    (runAdapter x0 x1 x2).tier = x0.tier ∧ (runAdapter x0 x1 x2).engines = x0.engines ∧ (runAdapter x0 x1 x2).text = x0.text ∧
    (runAdapter x0 x1 x2).flash = x0.flash ∧ (runAdapter x0 x1 x2).power = x0.power ∧ (runAdapter x0 x1 x2).limits = x0.limits ∧
    (runAdapter x0 x1 x2).fuses = x0.fuses ∧ (runAdapter x0 x1 x2).shelfSkips = x0.shelfSkips ∧
    (runAdapter x0 x1 x2).shelfCuts = x0.shelfCuts ∧ (runAdapter x0 x1 x2).pending = x0.pending := by
  simp only [runAdapter]
  split
  · simp
  · split
    · simp
    · simp
    · simp
    · simp
    · split
      · simp
      · split
        · simp
        · split
          · simp
          · rename_i h
            have := takeVersion_frame _ _ _ h
            repeat' split
            all_goals simp_all

theorem execAdapterLoad_frame (x0 x1 x2 x3) : ∀ t, (execAdapterLoad x0 x1 x2 x3) = .next t → t.fabric = x3.fabric ∧ t.store = x3.store ∧
    t.tier = x3.tier ∧ t.engines = x3.engines ∧ t.text = x3.text ∧ t.flash = x3.flash ∧ t.power = x3.power ∧ t.limits = x3.limits ∧
    t.fuses = x3.fuses ∧ t.shelfSkips = x3.shelfSkips ∧ t.shelfCuts = x3.shelfCuts ∧ t.pending = x3.pending := by simp [execAdapterLoad]

@[simp] theorem grammarLoad_frame (x0 x1 x2) : (grammarLoad x0 x1 x2).fabric = x0.fabric ∧ (grammarLoad x0 x1 x2).store = x0.store ∧
    (grammarLoad x0 x1 x2).tier = x0.tier ∧ (grammarLoad x0 x1 x2).engines = x0.engines ∧ (grammarLoad x0 x1 x2).flash = x0.flash ∧
    (grammarLoad x0 x1 x2).power = x0.power ∧ (grammarLoad x0 x1 x2).limits = x0.limits ∧ (grammarLoad x0 x1 x2).fuses = x0.fuses ∧
    (grammarLoad x0 x1 x2).shelfSkips = x0.shelfSkips ∧ (grammarLoad x0 x1 x2).shelfCuts = x0.shelfCuts ∧
    (grammarLoad x0 x1 x2).pending = x0.pending := by
  simp (maxDischargeDepth := 9) [grammarLoad]

theorem execGrammarLoad_frame (x0 x1 x2 x3) : ∀ t, (execGrammarLoad x0 x1 x2 x3) = .next t → t.fabric = x3.fabric ∧ t.store = x3.store ∧
    t.tier = x3.tier ∧ t.engines = x3.engines ∧ t.flash = x3.flash ∧ t.power = x3.power ∧ t.limits = x3.limits ∧ t.fuses = x3.fuses ∧
    t.shelfSkips = x3.shelfSkips ∧ t.shelfCuts = x3.shelfCuts ∧ t.pending = x3.pending := by
  unfold execGrammarLoad
  repeat' split
  all_goals ((try simp only [Prod.ext_iff] at *); (try casesm* _ ∧ _); (try subst_vars); first | (simp; done) | (simp_all; done) | skip)

/-! ## Objects -/

theorem moveToS_frame (x0 x1 x2) : ∀ t, (moveToS x0 x1 x2) = some t → t.engines = x0.engines ∧ t.text = x0.text ∧ t.pair = x0.pair ∧
    t.flash = x0.flash ∧ t.power = x0.power ∧ t.limits = x0.limits ∧ t.fuses = x0.fuses ∧ t.shelfSkips = x0.shelfSkips ∧
    t.shelfCuts = x0.shelfCuts ∧ t.free = x0.free ∧ t.pending = x0.pending := by simp [moveToS]

theorem pinEntry_frame (x0 x1) : ∀ t, (pinEntry x0 x1) = some t → t.engines = x0.engines ∧ t.text = x0.text ∧ t.pair = x0.pair ∧
    t.flash = x0.flash ∧ t.power = x0.power ∧ t.limits = x0.limits ∧ t.fuses = x0.fuses ∧ t.shelfSkips = x0.shelfSkips ∧
    t.shelfCuts = x0.shelfCuts ∧ t.pending = x0.pending := by
  intro t h
  unfold pinEntry at h
  split at h
  · cases h
  · split at h
    · cases h; simp
    · simp only [Option.bind_eq_some_iff, Option.map_eq_some_iff] at h
      obtain ⟨a, -, b, h, rfl⟩ := h
      have := moveToS_frame _ _ _ _ h
      simp_all

theorem pinAll_frame (x0 x1) : ∀ t, (pinAll x0 x1) = some t → t.engines = x1.engines ∧ t.text = x1.text ∧ t.pair = x1.pair ∧
    t.flash = x1.flash ∧ t.power = x1.power ∧ t.limits = x1.limits ∧ t.fuses = x1.fuses ∧ t.shelfSkips = x1.shelfSkips ∧
    t.shelfCuts = x1.shelfCuts ∧ t.pending = x1.pending := by
  induction x0 generalizing x1 with
  | nil => intro t h; simp [pinAll] at h; subst h; simp
  | cons d l ih =>
    intro t h
    simp only [pinAll, Option.bind_eq_some_iff] at h
    obtain ⟨a, h1, h2⟩ := h
    have := pinEntry_frame _ _ _ h1
    have := ih _ _ h2
    simp_all

@[simp] theorem createIndex_frame (x0 x1 x2) : ((createIndex x0 x1 x2)).1.engines = x0.engines ∧ ((createIndex x0 x1 x2)).1.text = x0.text ∧
    ((createIndex x0 x1 x2)).1.pair = x0.pair ∧ ((createIndex x0 x1 x2)).1.flash = x0.flash ∧ ((createIndex x0 x1 x2)).1.power = x0.power ∧
    ((createIndex x0 x1 x2)).1.limits = x0.limits ∧ ((createIndex x0 x1 x2)).1.fuses = x0.fuses ∧
    ((createIndex x0 x1 x2)).1.shelfSkips = x0.shelfSkips ∧ ((createIndex x0 x1 x2)).1.shelfCuts = x0.shelfCuts ∧
    ((createIndex x0 x1 x2)).1.pending = x0.pending := by
  unfold createIndex
  repeat' split
  all_goals ((try simp only [Prod.ext_iff] at *); (try casesm* _ ∧ _); (try subst_vars); (try have hh_2 := pinAll_frame _ _ _ (by assumption)); first | (simp; done) | (simp_all; done) | skip)

@[simp] theorem destroyIndex_frame (x0 x1) : ((destroyIndex x0 x1)).1.fabric = x0.fabric ∧ ((destroyIndex x0 x1)).1.store = x0.store ∧
    ((destroyIndex x0 x1)).1.engines = x0.engines ∧ ((destroyIndex x0 x1)).1.host = x0.host ∧ ((destroyIndex x0 x1)).1.text = x0.text ∧
    ((destroyIndex x0 x1)).1.pair = x0.pair ∧ ((destroyIndex x0 x1)).1.flash = x0.flash ∧ ((destroyIndex x0 x1)).1.bureau = x0.bureau ∧
    ((destroyIndex x0 x1)).1.power = x0.power ∧ ((destroyIndex x0 x1)).1.limits = x0.limits ∧ ((destroyIndex x0 x1)).1.fuses = x0.fuses ∧
    ((destroyIndex x0 x1)).1.shelfSkips = x0.shelfSkips ∧ ((destroyIndex x0 x1)).1.shelfCuts = x0.shelfCuts ∧
    ((destroyIndex x0 x1)).1.free = x0.free ∧ ((destroyIndex x0 x1)).1.pending = x0.pending := by unfold destroyIndex; split <;> simp

@[simp] theorem refillEntrySets_frame (x0) : (refillEntrySets x0).engines = x0.engines ∧ (refillEntrySets x0).text = x0.text ∧
    (refillEntrySets x0).pair = x0.pair ∧ (refillEntrySets x0).flash = x0.flash ∧ (refillEntrySets x0).power = x0.power ∧
    (refillEntrySets x0).limits = x0.limits ∧ (refillEntrySets x0).fuses = x0.fuses ∧ (refillEntrySets x0).shelfSkips = x0.shelfSkips ∧
    (refillEntrySets x0).shelfCuts = x0.shelfCuts ∧ (refillEntrySets x0).pending = x0.pending := by
  simp only [refillEntrySets]
  refine ⟨?_, ?_, ?_, ?_, ?_, ?_, ?_, ?_, ?_, ?_⟩
  all_goals (first | refine State.foldl_engines (fun _ _ => ?_) _ _ | refine State.foldl_text (fun _ _ => ?_) _ _ | refine State.foldl_pair (fun _ _ => ?_) _ _ | refine State.foldl_flash (fun _ _ => ?_) _ _ | refine State.foldl_power (fun _ _ => ?_) _ _ | refine State.foldl_limits (fun _ _ => ?_) _ _ | refine State.foldl_fuses (fun _ _ => ?_) _ _ | refine State.foldl_shelfSkips (fun _ _ => ?_) _ _ | refine State.foldl_shelfCuts (fun _ _ => ?_) _ _ | refine State.foldl_pending (fun _ _ => ?_) _ _)
  all_goals (rename_i s x; rcases h : pinEntry s x with _ | t)
  all_goals first | rfl | simp [pinEntry_frame _ _ _ h]

@[simp] theorem createTable_frame (x0 x1 x2) : ((createTable x0 x1 x2)).1.tier = x0.tier ∧ ((createTable x0 x1 x2)).1.engines = x0.engines ∧
    ((createTable x0 x1 x2)).1.text = x0.text ∧ ((createTable x0 x1 x2)).1.pair = x0.pair ∧ ((createTable x0 x1 x2)).1.flash = x0.flash ∧
    ((createTable x0 x1 x2)).1.power = x0.power ∧ ((createTable x0 x1 x2)).1.limits = x0.limits ∧
    ((createTable x0 x1 x2)).1.fuses = x0.fuses ∧ ((createTable x0 x1 x2)).1.shelfSkips = x0.shelfSkips ∧
    ((createTable x0 x1 x2)).1.shelfCuts = x0.shelfCuts ∧ ((createTable x0 x1 x2)).1.pending = x0.pending := by simp [createTable]

@[simp] theorem destroyTable_frame (x0 x1) : ((destroyTable x0 x1)).1.fabric = x0.fabric ∧ ((destroyTable x0 x1)).1.tier = x0.tier ∧
    ((destroyTable x0 x1)).1.engines = x0.engines ∧ ((destroyTable x0 x1)).1.host = x0.host ∧ ((destroyTable x0 x1)).1.text = x0.text ∧
    ((destroyTable x0 x1)).1.pair = x0.pair ∧ ((destroyTable x0 x1)).1.flash = x0.flash ∧ ((destroyTable x0 x1)).1.bureau = x0.bureau ∧
    ((destroyTable x0 x1)).1.power = x0.power ∧ ((destroyTable x0 x1)).1.limits = x0.limits ∧ ((destroyTable x0 x1)).1.fuses = x0.fuses ∧
    ((destroyTable x0 x1)).1.shelfSkips = x0.shelfSkips ∧ ((destroyTable x0 x1)).1.shelfCuts = x0.shelfCuts ∧
    ((destroyTable x0 x1)).1.free = x0.free ∧ ((destroyTable x0 x1)).1.pending = x0.pending := by unfold destroyTable; split <;> simp

/-! ## Settee -/

@[simp] theorem setPair_frame (x0 x1) : (setPair x0 x1).fabric = x0.fabric ∧ (setPair x0 x1).store = x0.store ∧
    (setPair x0 x1).tier = x0.tier ∧ (setPair x0 x1).engines = x0.engines ∧ (setPair x0 x1).host = x0.host ∧ (setPair x0 x1).gen = x0.gen ∧
    (setPair x0 x1).text = x0.text ∧ (setPair x0 x1).flash = x0.flash ∧ (setPair x0 x1).bureau = x0.bureau ∧
    (setPair x0 x1).power = x0.power ∧ (setPair x0 x1).limits = x0.limits ∧ (setPair x0 x1).fuses = x0.fuses ∧
    (setPair x0 x1).shelfSkips = x0.shelfSkips ∧ (setPair x0 x1).shelfCuts = x0.shelfCuts ∧ (setPair x0 x1).free = x0.free ∧
    (setPair x0 x1).pending = x0.pending := by simp [setPair]

@[simp] theorem freeEntry_frame (x0 x1) : (freeEntry x0 x1).fabric = x0.fabric ∧ (freeEntry x0 x1).store = x0.store ∧
    (freeEntry x0 x1).tier = x0.tier ∧ (freeEntry x0 x1).engines = x0.engines ∧ (freeEntry x0 x1).host = x0.host ∧
    (freeEntry x0 x1).gen = x0.gen ∧ (freeEntry x0 x1).text = x0.text ∧ (freeEntry x0 x1).flash = x0.flash ∧
    (freeEntry x0 x1).bureau = x0.bureau ∧ (freeEntry x0 x1).power = x0.power ∧ (freeEntry x0 x1).limits = x0.limits ∧
    (freeEntry x0 x1).fuses = x0.fuses ∧ (freeEntry x0 x1).shelfSkips = x0.shelfSkips ∧ (freeEntry x0 x1).shelfCuts = x0.shelfCuts ∧
    (freeEntry x0 x1).free = x0.free ∧ (freeEntry x0 x1).pending = x0.pending := by simp [freeEntry]

@[simp] theorem mutationAnswered_frame (x0 x1 x2 x3) : (mutationAnswered x0 x1 x2 x3).engines = x0.engines ∧
    (mutationAnswered x0 x1 x2 x3).text = x0.text ∧ (mutationAnswered x0 x1 x2 x3).power = x0.power ∧
    (mutationAnswered x0 x1 x2 x3).limits = x0.limits ∧ (mutationAnswered x0 x1 x2 x3).fuses = x0.fuses ∧
    (mutationAnswered x0 x1 x2 x3).shelfSkips = x0.shelfSkips ∧ (mutationAnswered x0 x1 x2 x3).shelfCuts = x0.shelfCuts ∧
    (mutationAnswered x0 x1 x2 x3).pending = x0.pending := by
  unfold mutationAnswered
  repeat' split
  all_goals ((try simp only [Prod.ext_iff] at *); (try casesm* _ ∧ _); (try subst_vars); (try simp))

@[simp] theorem settleDown_frame (x0 x1 x2) : (settleDown x0 x1 x2).engines = x1.engines ∧ (settleDown x0 x1 x2).text = x1.text ∧
    (settleDown x0 x1 x2).power = x1.power ∧ (settleDown x0 x1 x2).limits = x1.limits ∧ (settleDown x0 x1 x2).fuses = x1.fuses ∧
    (settleDown x0 x1 x2).shelfSkips = x1.shelfSkips ∧ (settleDown x0 x1 x2).shelfCuts = x1.shelfCuts ∧
    (settleDown x0 x1 x2).pending = x1.pending := by
  simp only [settleDown]
  repeat' split
  all_goals ((try simp only [Prod.ext_iff] at *); (try casesm* _ ∧ _); (try subst_vars); (try simp))

@[simp] theorem retryMutation_frame (x0 x1 x2) : (retryMutation x0 x1 x2).engines = x1.engines ∧ (retryMutation x0 x1 x2).text = x1.text ∧
    (retryMutation x0 x1 x2).power = x1.power ∧ (retryMutation x0 x1 x2).limits = x1.limits ∧ (retryMutation x0 x1 x2).fuses = x1.fuses ∧
    (retryMutation x0 x1 x2).shelfSkips = x1.shelfSkips ∧ (retryMutation x0 x1 x2).shelfCuts = x1.shelfCuts ∧
    (retryMutation x0 x1 x2).pending = x1.pending := by
  simp only [retryMutation]
  repeat' split
  all_goals ((try simp only [Prod.ext_iff] at *); (try casesm* _ ∧ _); (try subst_vars); (try simp))

@[simp] theorem retryWaiting_frame (x0 x1) : (retryWaiting x0 x1).engines = x0.engines ∧ (retryWaiting x0 x1).text = x0.text ∧
    (retryWaiting x0 x1).power = x0.power ∧ (retryWaiting x0 x1).limits = x0.limits ∧ (retryWaiting x0 x1).fuses = x0.fuses ∧
    (retryWaiting x0 x1).shelfSkips = x0.shelfSkips ∧ (retryWaiting x0 x1).shelfCuts = x0.shelfCuts ∧
    (retryWaiting x0 x1).pending = x0.pending := by simp [retryWaiting]

@[simp] theorem loseForward_frame (x0 x1) : (loseForward x0 x1).fabric = x0.fabric ∧ (loseForward x0 x1).store = x0.store ∧
    (loseForward x0 x1).tier = x0.tier ∧ (loseForward x0 x1).engines = x0.engines ∧ (loseForward x0 x1).text = x0.text ∧
    (loseForward x0 x1).flash = x0.flash ∧ (loseForward x0 x1).bureau = x0.bureau ∧ (loseForward x0 x1).power = x0.power ∧
    (loseForward x0 x1).limits = x0.limits ∧ (loseForward x0 x1).fuses = x0.fuses ∧ (loseForward x0 x1).shelfSkips = x0.shelfSkips ∧
    (loseForward x0 x1).shelfCuts = x0.shelfCuts ∧ (loseForward x0 x1).pending = x0.pending := by simp [loseForward]

@[simp] theorem retractInput_frame (x0 x1 x2) : (retractInput x0 x1 x2).fabric = x0.fabric ∧ (retractInput x0 x1 x2).store = x0.store ∧
    (retractInput x0 x1 x2).tier = x0.tier ∧ (retractInput x0 x1 x2).engines = x0.engines ∧ (retractInput x0 x1 x2).host = x0.host ∧
    (retractInput x0 x1 x2).text = x0.text ∧ (retractInput x0 x1 x2).pair = x0.pair ∧ (retractInput x0 x1 x2).flash = x0.flash ∧
    (retractInput x0 x1 x2).bureau = x0.bureau ∧ (retractInput x0 x1 x2).power = x0.power ∧ (retractInput x0 x1 x2).limits = x0.limits ∧
    (retractInput x0 x1 x2).fuses = x0.fuses ∧ (retractInput x0 x1 x2).shelfSkips = x0.shelfSkips ∧
    (retractInput x0 x1 x2).shelfCuts = x0.shelfCuts ∧ (retractInput x0 x1 x2).free = x0.free ∧ (retractInput x0 x1 x2).pending = x0.pending := by simp [retractInput]

@[simp] theorem retractTile_frame (x0 x1) : (retractTile x0 x1).fabric = x0.fabric ∧ (retractTile x0 x1).tier = x0.tier ∧
    (retractTile x0 x1).engines = x0.engines ∧ (retractTile x0 x1).host = x0.host ∧ (retractTile x0 x1).text = x0.text ∧
    (retractTile x0 x1).pair = x0.pair ∧ (retractTile x0 x1).flash = x0.flash ∧ (retractTile x0 x1).bureau = x0.bureau ∧
    (retractTile x0 x1).power = x0.power ∧ (retractTile x0 x1).limits = x0.limits ∧ (retractTile x0 x1).fuses = x0.fuses ∧
    (retractTile x0 x1).shelfSkips = x0.shelfSkips ∧ (retractTile x0 x1).shelfCuts = x0.shelfCuts ∧ (retractTile x0 x1).free = x0.free ∧
    (retractTile x0 x1).pending = x0.pending := by simp [retractTile]

@[simp] theorem logSplit_frame (x0 x1) : (logSplit x0 x1).fabric = x0.fabric ∧ (logSplit x0 x1).store = x0.store ∧
    (logSplit x0 x1).tier = x0.tier ∧ (logSplit x0 x1).engines = x0.engines ∧ (logSplit x0 x1).gen = x0.gen ∧
    (logSplit x0 x1).text = x0.text ∧ (logSplit x0 x1).pair = x0.pair ∧ (logSplit x0 x1).flash = x0.flash ∧
    (logSplit x0 x1).power = x0.power ∧ (logSplit x0 x1).limits = x0.limits ∧ (logSplit x0 x1).fuses = x0.fuses ∧
    (logSplit x0 x1).shelfSkips = x0.shelfSkips ∧ (logSplit x0 x1).shelfCuts = x0.shelfCuts ∧ (logSplit x0 x1).free = x0.free ∧
    (logSplit x0 x1).pending = x0.pending := by simp [logSplit]

@[simp] theorem enterDown_frame (x0 x1 x2) : (enterDown x0 x1 x2).engines = x0.engines ∧ (enterDown x0 x1 x2).text = x0.text ∧
    (enterDown x0 x1 x2).power = x0.power ∧ (enterDown x0 x1 x2).limits = x0.limits ∧ (enterDown x0 x1 x2).fuses = x0.fuses ∧
    (enterDown x0 x1 x2).shelfSkips = x0.shelfSkips ∧ (enterDown x0 x1 x2).shelfCuts = x0.shelfCuts ∧
    (enterDown x0 x1 x2).pending = x0.pending := by simp [enterDown]

@[simp] theorem setteeSilence_frame (x0 x1) : (setteeSilence x0 x1).engines = x0.engines ∧ (setteeSilence x0 x1).text = x0.text ∧
    (setteeSilence x0 x1).power = x0.power ∧ (setteeSilence x0 x1).limits = x0.limits ∧ (setteeSilence x0 x1).fuses = x0.fuses ∧
    (setteeSilence x0 x1).shelfSkips = x0.shelfSkips ∧ (setteeSilence x0 x1).shelfCuts = x0.shelfCuts ∧
    (setteeSilence x0 x1).pending = x0.pending := by simp [setteeSilence]

theorem execSetteeSilence_frame (x0 x1) : ∀ t, (execSetteeSilence x0 x1) = .next t → t.engines = x1.engines ∧ t.text = x1.text ∧
    t.power = x1.power ∧ t.limits = x1.limits ∧ t.fuses = x1.fuses ∧ t.shelfSkips = x1.shelfSkips ∧ t.shelfCuts = x1.shelfCuts ∧
    t.pending = x1.pending := by simp [execSetteeSilence]

@[simp] theorem resendFrames_frame (x0 x1) : (resendFrames x0 x1).fabric = x0.fabric ∧ (resendFrames x0 x1).store = x0.store ∧
    (resendFrames x0 x1).tier = x0.tier ∧ (resendFrames x0 x1).engines = x0.engines ∧ (resendFrames x0 x1).gen = x0.gen ∧
    (resendFrames x0 x1).text = x0.text ∧ (resendFrames x0 x1).pair = x0.pair ∧ (resendFrames x0 x1).flash = x0.flash ∧
    (resendFrames x0 x1).bureau = x0.bureau ∧ (resendFrames x0 x1).power = x0.power ∧ (resendFrames x0 x1).limits = x0.limits ∧
    (resendFrames x0 x1).fuses = x0.fuses ∧ (resendFrames x0 x1).shelfSkips = x0.shelfSkips ∧ (resendFrames x0 x1).shelfCuts = x0.shelfCuts ∧
    (resendFrames x0 x1).free = x0.free ∧ (resendFrames x0 x1).pending = x0.pending := by simp [resendFrames]

@[simp] theorem takeFrameAck_frame (x0 x1) : (takeFrameAck x0 x1).fabric = x0.fabric ∧ (takeFrameAck x0 x1).store = x0.store ∧
    (takeFrameAck x0 x1).tier = x0.tier ∧ (takeFrameAck x0 x1).engines = x0.engines ∧ (takeFrameAck x0 x1).gen = x0.gen ∧
    (takeFrameAck x0 x1).text = x0.text ∧ (takeFrameAck x0 x1).flash = x0.flash ∧ (takeFrameAck x0 x1).bureau = x0.bureau ∧
    (takeFrameAck x0 x1).power = x0.power ∧ (takeFrameAck x0 x1).limits = x0.limits ∧ (takeFrameAck x0 x1).fuses = x0.fuses ∧
    (takeFrameAck x0 x1).shelfSkips = x0.shelfSkips ∧ (takeFrameAck x0 x1).shelfCuts = x0.shelfCuts ∧ (takeFrameAck x0 x1).free = x0.free ∧
    (takeFrameAck x0 x1).pending = x0.pending := by simp [takeFrameAck]

@[simp] theorem nakFrame_frame (x0) : (nakFrame x0).fabric = x0.fabric ∧ (nakFrame x0).store = x0.store ∧ (nakFrame x0).tier = x0.tier ∧
    (nakFrame x0).engines = x0.engines ∧ (nakFrame x0).gen = x0.gen ∧ (nakFrame x0).text = x0.text ∧ (nakFrame x0).flash = x0.flash ∧
    (nakFrame x0).bureau = x0.bureau ∧ (nakFrame x0).power = x0.power ∧ (nakFrame x0).limits = x0.limits ∧ (nakFrame x0).fuses = x0.fuses ∧
    (nakFrame x0).shelfSkips = x0.shelfSkips ∧ (nakFrame x0).shelfCuts = x0.shelfCuts ∧ (nakFrame x0).free = x0.free ∧
    (nakFrame x0).pending = x0.pending := by simp [nakFrame]

@[simp] theorem frameReceive_frame (x0 x1) : (frameReceive x0 x1).fabric = x0.fabric ∧ (frameReceive x0 x1).store = x0.store ∧
    (frameReceive x0 x1).tier = x0.tier ∧ (frameReceive x0 x1).engines = x0.engines ∧ (frameReceive x0 x1).gen = x0.gen ∧
    (frameReceive x0 x1).text = x0.text ∧ (frameReceive x0 x1).flash = x0.flash ∧ (frameReceive x0 x1).bureau = x0.bureau ∧
    (frameReceive x0 x1).power = x0.power ∧ (frameReceive x0 x1).limits = x0.limits ∧ (frameReceive x0 x1).fuses = x0.fuses ∧
    (frameReceive x0 x1).shelfSkips = x0.shelfSkips ∧ (frameReceive x0 x1).shelfCuts = x0.shelfCuts ∧ (frameReceive x0 x1).free = x0.free ∧
    (frameReceive x0 x1).pending = x0.pending := by simp [frameReceive]

theorem execSetteeFrameReceive_frame (x0 x1) : ∀ t, (execSetteeFrameReceive x0 x1) = .next t → t.fabric = x1.fabric ∧ t.store = x1.store ∧
    t.tier = x1.tier ∧ t.engines = x1.engines ∧ t.gen = x1.gen ∧ t.text = x1.text ∧ t.flash = x1.flash ∧ t.bureau = x1.bureau ∧
    t.power = x1.power ∧ t.limits = x1.limits ∧ t.fuses = x1.fuses ∧ t.shelfSkips = x1.shelfSkips ∧ t.shelfCuts = x1.shelfCuts ∧
    t.free = x1.free ∧ t.pending = x1.pending := by simp [execSetteeFrameReceive]

@[simp] theorem emptyFrame_frame (x0) : (emptyFrame x0).fabric = x0.fabric ∧ (emptyFrame x0).store = x0.store ∧
    (emptyFrame x0).tier = x0.tier ∧ (emptyFrame x0).engines = x0.engines ∧ (emptyFrame x0).gen = x0.gen ∧ (emptyFrame x0).text = x0.text ∧
    (emptyFrame x0).flash = x0.flash ∧ (emptyFrame x0).bureau = x0.bureau ∧ (emptyFrame x0).power = x0.power ∧
    (emptyFrame x0).limits = x0.limits ∧ (emptyFrame x0).fuses = x0.fuses ∧ (emptyFrame x0).shelfSkips = x0.shelfSkips ∧
    (emptyFrame x0).shelfCuts = x0.shelfCuts ∧ (emptyFrame x0).free = x0.free ∧ (emptyFrame x0).pending = x0.pending := by simp [emptyFrame]

theorem execSetteeEmptyFrame_frame (x0) : ∀ t, (execSetteeEmptyFrame x0) = .next t → t.fabric = x0.fabric ∧ t.store = x0.store ∧
    t.tier = x0.tier ∧ t.engines = x0.engines ∧ t.gen = x0.gen ∧ t.text = x0.text ∧ t.flash = x0.flash ∧ t.bureau = x0.bureau ∧
    t.power = x0.power ∧ t.limits = x0.limits ∧ t.fuses = x0.fuses ∧ t.shelfSkips = x0.shelfSkips ∧ t.shelfCuts = x0.shelfCuts ∧
    t.free = x0.free ∧ t.pending = x0.pending := by simp [execSetteeEmptyFrame]

@[simp] theorem realign_frame (x0 x1) : (realign x0 x1).engines = x0.engines ∧ (realign x0 x1).text = x0.text ∧
    (realign x0 x1).power = x0.power ∧ (realign x0 x1).limits = x0.limits ∧ (realign x0 x1).fuses = x0.fuses ∧
    (realign x0 x1).shelfSkips = x0.shelfSkips ∧ (realign x0 x1).shelfCuts = x0.shelfCuts ∧ (realign x0 x1).pending = x0.pending := by simp [realign]

theorem execSetteeRealign_frame (x0 x1) : ∀ t, (execSetteeRealign x0 x1) = .next t → t.engines = x1.engines ∧ t.text = x1.text ∧
    t.power = x1.power ∧ t.limits = x1.limits ∧ t.fuses = x1.fuses ∧ t.shelfSkips = x1.shelfSkips ∧ t.shelfCuts = x1.shelfCuts ∧
    t.pending = x1.pending := by simp [execSetteeRealign]

@[simp] theorem realignDone_frame (x0) : (realignDone x0).fabric = x0.fabric ∧ (realignDone x0).store = x0.store ∧
    (realignDone x0).tier = x0.tier ∧ (realignDone x0).engines = x0.engines ∧ (realignDone x0).gen = x0.gen ∧
    (realignDone x0).text = x0.text ∧ (realignDone x0).flash = x0.flash ∧ (realignDone x0).bureau = x0.bureau ∧
    (realignDone x0).power = x0.power ∧ (realignDone x0).limits = x0.limits ∧ (realignDone x0).fuses = x0.fuses ∧
    (realignDone x0).shelfSkips = x0.shelfSkips ∧ (realignDone x0).shelfCuts = x0.shelfCuts ∧ (realignDone x0).free = x0.free ∧
    (realignDone x0).pending = x0.pending := by
  simp only [realignDone]
  repeat' split
  all_goals ((try simp only [Prod.ext_iff] at *); (try casesm* _ ∧ _); (try subst_vars); (try simp))

theorem execSetteeRealignDone_frame (x0) : ∀ t, (execSetteeRealignDone x0) = .next t → t.fabric = x0.fabric ∧ t.store = x0.store ∧
    t.tier = x0.tier ∧ t.engines = x0.engines ∧ t.gen = x0.gen ∧ t.text = x0.text ∧ t.flash = x0.flash ∧ t.bureau = x0.bureau ∧
    t.power = x0.power ∧ t.limits = x0.limits ∧ t.fuses = x0.fuses ∧ t.shelfSkips = x0.shelfSkips ∧ t.shelfCuts = x0.shelfCuts ∧
    t.free = x0.free ∧ t.pending = x0.pending := by simp [execSetteeRealignDone]

@[simp] theorem laneFailed_frame (x0 x1) : (laneFailed x0 x1).fabric = x0.fabric ∧ (laneFailed x0 x1).store = x0.store ∧
    (laneFailed x0 x1).tier = x0.tier ∧ (laneFailed x0 x1).engines = x0.engines ∧ (laneFailed x0 x1).gen = x0.gen ∧
    (laneFailed x0 x1).text = x0.text ∧ (laneFailed x0 x1).flash = x0.flash ∧ (laneFailed x0 x1).power = x0.power ∧
    (laneFailed x0 x1).limits = x0.limits ∧ (laneFailed x0 x1).fuses = x0.fuses ∧ (laneFailed x0 x1).shelfSkips = x0.shelfSkips ∧
    (laneFailed x0 x1).shelfCuts = x0.shelfCuts ∧ (laneFailed x0 x1).free = x0.free ∧ (laneFailed x0 x1).pending = x0.pending := by simp [laneFailed]

theorem execSetteeLaneFailed_frame (x0 x1) : ∀ t, (execSetteeLaneFailed x0 x1) = .next t → t.fabric = x1.fabric ∧ t.store = x1.store ∧
    t.tier = x1.tier ∧ t.engines = x1.engines ∧ t.gen = x1.gen ∧ t.text = x1.text ∧ t.flash = x1.flash ∧ t.power = x1.power ∧
    t.limits = x1.limits ∧ t.fuses = x1.fuses ∧ t.shelfSkips = x1.shelfSkips ∧ t.shelfCuts = x1.shelfCuts ∧ t.free = x1.free ∧
    t.pending = x1.pending := by simp [execSetteeLaneFailed]

@[simp] theorem trainAttempt_frame (x0 x1) : (trainAttempt x0 x1).fabric = x0.fabric ∧ (trainAttempt x0 x1).store = x0.store ∧
    (trainAttempt x0 x1).tier = x0.tier ∧ (trainAttempt x0 x1).engines = x0.engines ∧ (trainAttempt x0 x1).gen = x0.gen ∧
    (trainAttempt x0 x1).text = x0.text ∧ (trainAttempt x0 x1).flash = x0.flash ∧ (trainAttempt x0 x1).bureau = x0.bureau ∧
    (trainAttempt x0 x1).power = x0.power ∧ (trainAttempt x0 x1).limits = x0.limits ∧ (trainAttempt x0 x1).fuses = x0.fuses ∧
    (trainAttempt x0 x1).shelfSkips = x0.shelfSkips ∧ (trainAttempt x0 x1).shelfCuts = x0.shelfCuts ∧
    (trainAttempt x0 x1).pending = x0.pending := by simp [trainAttempt]

theorem execSetteeTrainAttempt_frame (x0 x1) : ∀ t, (execSetteeTrainAttempt x0 x1) = .next t → t.fabric = x1.fabric ∧ t.store = x1.store ∧
    t.tier = x1.tier ∧ t.engines = x1.engines ∧ t.gen = x1.gen ∧ t.text = x1.text ∧ t.flash = x1.flash ∧ t.bureau = x1.bureau ∧
    t.power = x1.power ∧ t.limits = x1.limits ∧ t.fuses = x1.fuses ∧ t.shelfSkips = x1.shelfSkips ∧ t.shelfCuts = x1.shelfCuts ∧
    t.pending = x1.pending := by simp [execSetteeTrainAttempt]

@[simp] theorem popMsg_frame (x0 x1) : (popMsg x0 x1).fabric = x0.fabric ∧ (popMsg x0 x1).store = x0.store ∧ (popMsg x0 x1).tier = x0.tier ∧
    (popMsg x0 x1).engines = x0.engines ∧ (popMsg x0 x1).host = x0.host ∧ (popMsg x0 x1).gen = x0.gen ∧ (popMsg x0 x1).text = x0.text ∧
    (popMsg x0 x1).flash = x0.flash ∧ (popMsg x0 x1).bureau = x0.bureau ∧ (popMsg x0 x1).power = x0.power ∧
    (popMsg x0 x1).limits = x0.limits ∧ (popMsg x0 x1).fuses = x0.fuses ∧ (popMsg x0 x1).shelfSkips = x0.shelfSkips ∧
    (popMsg x0 x1).shelfCuts = x0.shelfCuts ∧ (popMsg x0 x1).free = x0.free ∧ (popMsg x0 x1).pending = x0.pending := by unfold popMsg; split <;> simp

@[simp] theorem dropParts_frame (x0 x1) : (dropParts x0 x1).fabric = x0.fabric ∧ (dropParts x0 x1).store = x0.store ∧
    (dropParts x0 x1).tier = x0.tier ∧ (dropParts x0 x1).engines = x0.engines ∧ (dropParts x0 x1).host = x0.host ∧
    (dropParts x0 x1).gen = x0.gen ∧ (dropParts x0 x1).text = x0.text ∧ (dropParts x0 x1).flash = x0.flash ∧
    (dropParts x0 x1).bureau = x0.bureau ∧ (dropParts x0 x1).power = x0.power ∧ (dropParts x0 x1).limits = x0.limits ∧
    (dropParts x0 x1).fuses = x0.fuses ∧ (dropParts x0 x1).shelfSkips = x0.shelfSkips ∧ (dropParts x0 x1).shelfCuts = x0.shelfCuts ∧
    (dropParts x0 x1).free = x0.free ∧ (dropParts x0 x1).pending = x0.pending := by simp [dropParts]

@[simp] theorem keepPart_frame (x0 x1 x2) : (keepPart x0 x1 x2).fabric = x0.fabric ∧ (keepPart x0 x1 x2).store = x0.store ∧
    (keepPart x0 x1 x2).tier = x0.tier ∧ (keepPart x0 x1 x2).engines = x0.engines ∧ (keepPart x0 x1 x2).host = x0.host ∧
    (keepPart x0 x1 x2).gen = x0.gen ∧ (keepPart x0 x1 x2).text = x0.text ∧ (keepPart x0 x1 x2).flash = x0.flash ∧
    (keepPart x0 x1 x2).bureau = x0.bureau ∧ (keepPart x0 x1 x2).power = x0.power ∧ (keepPart x0 x1 x2).limits = x0.limits ∧
    (keepPart x0 x1 x2).fuses = x0.fuses ∧ (keepPart x0 x1 x2).shelfSkips = x0.shelfSkips ∧ (keepPart x0 x1 x2).shelfCuts = x0.shelfCuts ∧
    (keepPart x0 x1 x2).free = x0.free ∧ (keepPart x0 x1 x2).pending = x0.pending := by simp [keepPart]

@[simp] theorem sendAck_frame (x0 x1 x2) : (sendAck x0 x1 x2).fabric = x0.fabric ∧ (sendAck x0 x1 x2).store = x0.store ∧
    (sendAck x0 x1 x2).tier = x0.tier ∧ (sendAck x0 x1 x2).engines = x0.engines ∧ (sendAck x0 x1 x2).gen = x0.gen ∧
    (sendAck x0 x1 x2).text = x0.text ∧ (sendAck x0 x1 x2).flash = x0.flash ∧ (sendAck x0 x1 x2).bureau = x0.bureau ∧
    (sendAck x0 x1 x2).power = x0.power ∧ (sendAck x0 x1 x2).limits = x0.limits ∧ (sendAck x0 x1 x2).fuses = x0.fuses ∧
    (sendAck x0 x1 x2).shelfSkips = x0.shelfSkips ∧ (sendAck x0 x1 x2).shelfCuts = x0.shelfCuts ∧ (sendAck x0 x1 x2).pending = x0.pending := by simp [sendAck]

@[simp] theorem tryHold_frame (x0 x1) : (tryHold x0 x1).fabric = x0.fabric ∧ (tryHold x0 x1).store = x0.store ∧
    (tryHold x0 x1).tier = x0.tier ∧ (tryHold x0 x1).engines = x0.engines ∧ (tryHold x0 x1).gen = x0.gen ∧ (tryHold x0 x1).text = x0.text ∧
    (tryHold x0 x1).flash = x0.flash ∧ (tryHold x0 x1).power = x0.power ∧ (tryHold x0 x1).limits = x0.limits ∧
    (tryHold x0 x1).fuses = x0.fuses ∧ (tryHold x0 x1).shelfSkips = x0.shelfSkips ∧ (tryHold x0 x1).shelfCuts = x0.shelfCuts ∧
    (tryHold x0 x1).free = x0.free ∧ (tryHold x0 x1).pending = x0.pending := by
  simp only [tryHold]
  repeat' split
  all_goals ((try simp only [Prod.ext_iff] at *); (try casesm* _ ∧ _); (try subst_vars); (try simp))

@[simp] theorem journalled_frame (x0 x1 x2 x3) : ((∀ y0 y1, (((x3 y0 y1)).1).fabric = (y0).fabric) → (journalled x0 x1 x2 x3).fabric = x0.fabric) ∧
    ((∀ y0 y1, (((x3 y0 y1)).1).store = (y0).store) → (journalled x0 x1 x2 x3).store = x0.store) ∧
    ((∀ y0 y1, (((x3 y0 y1)).1).tier = (y0).tier) → (journalled x0 x1 x2 x3).tier = x0.tier) ∧
    ((∀ y0 y1, (((x3 y0 y1)).1).engines = (y0).engines) → (journalled x0 x1 x2 x3).engines = x0.engines) ∧
    ((∀ y0 y1, (((x3 y0 y1)).1).gen = (y0).gen) → (journalled x0 x1 x2 x3).gen = x0.gen) ∧
    ((∀ y0 y1, (((x3 y0 y1)).1).text = (y0).text) → (journalled x0 x1 x2 x3).text = x0.text) ∧
    ((∀ y0 y1, (((x3 y0 y1)).1).flash = (y0).flash) → (journalled x0 x1 x2 x3).flash = x0.flash) ∧
    ((∀ y0 y1, (((x3 y0 y1)).1).power = (y0).power) → (journalled x0 x1 x2 x3).power = x0.power) ∧
    ((∀ y0 y1, (((x3 y0 y1)).1).limits = (y0).limits) → (journalled x0 x1 x2 x3).limits = x0.limits) ∧
    ((∀ y0 y1, (((x3 y0 y1)).1).fuses = (y0).fuses) → (journalled x0 x1 x2 x3).fuses = x0.fuses) ∧
    ((∀ y0 y1, (((x3 y0 y1)).1).shelfSkips = (y0).shelfSkips) → (journalled x0 x1 x2 x3).shelfSkips = x0.shelfSkips) ∧
    ((∀ y0 y1, (((x3 y0 y1)).1).shelfCuts = (y0).shelfCuts) → (journalled x0 x1 x2 x3).shelfCuts = x0.shelfCuts) ∧
    ((∀ y0 y1, (((x3 y0 y1)).1).pending = (y0).pending) → (journalled x0 x1 x2 x3).pending = x0.pending) := by
  refine ⟨?_, ?_, ?_, ?_, ?_, ?_, ?_, ?_, ?_, ?_, ?_, ?_, ?_⟩
  all_goals (intro h; simp only [journalled])
  all_goals (repeat' split)
  all_goals ((try simp only [Prod.ext_iff] at *); (try casesm* _ ∧ _); (try subst_vars); (try simp [h]))

/-! ## Partner -/

@[simp] theorem applyIndexMsg_frame (x0 x1 x2) : ((applyIndexMsg x0 x1 x2)).1.engines = x1.engines ∧
    ((applyIndexMsg x0 x1 x2)).1.text = x1.text ∧ ((applyIndexMsg x0 x1 x2)).1.power = x1.power ∧
    ((applyIndexMsg x0 x1 x2)).1.limits = x1.limits ∧ ((applyIndexMsg x0 x1 x2)).1.fuses = x1.fuses ∧
    ((applyIndexMsg x0 x1 x2)).1.shelfSkips = x1.shelfSkips ∧ ((applyIndexMsg x0 x1 x2)).1.shelfCuts = x1.shelfCuts ∧
    ((applyIndexMsg x0 x1 x2)).1.pending = x1.pending := by unfold applyIndexMsg; split <;> simp

theorem execMirrorIndex_frame (x0 x1 x2) : ∀ t, (execMirrorIndex x0 x1 x2) = .next t → t.engines = x2.engines ∧ t.text = x2.text ∧
    t.power = x2.power ∧ t.limits = x2.limits ∧ t.fuses = x2.fuses ∧ t.shelfSkips = x2.shelfSkips ∧ t.shelfCuts = x2.shelfCuts ∧
    t.pending = x2.pending := by
  unfold execMirrorIndex
  repeat' split
  all_goals ((try simp only [Prod.ext_iff] at *); (try casesm* _ ∧ _); (try subst_vars); first | (simp; done) | (simp_all; done) | skip)

@[simp] theorem applyRowsMsg_frame (x0 x1 x2) : ((applyRowsMsg x0 x1 x2)).1.engines = x1.engines ∧
    ((applyRowsMsg x0 x1 x2)).1.text = x1.text ∧ ((applyRowsMsg x0 x1 x2)).1.flash = x1.flash ∧ ((applyRowsMsg x0 x1 x2)).1.power = x1.power ∧
    ((applyRowsMsg x0 x1 x2)).1.limits = x1.limits ∧ ((applyRowsMsg x0 x1 x2)).1.fuses = x1.fuses ∧
    ((applyRowsMsg x0 x1 x2)).1.shelfSkips = x1.shelfSkips ∧ ((applyRowsMsg x0 x1 x2)).1.shelfCuts = x1.shelfCuts ∧
    ((applyRowsMsg x0 x1 x2)).1.pending = x1.pending := by
  simp only [applyRowsMsg]
  repeat' split
  all_goals ((try simp only [Prod.ext_iff] at *); (try casesm* _ ∧ _); (try subst_vars); (try simp))

theorem execMirrorRows_frame (x0 x1 x2) : ∀ t, (execMirrorRows x0 x1 x2) = .next t → t.engines = x2.engines ∧ t.text = x2.text ∧
    t.flash = x2.flash ∧ t.power = x2.power ∧ t.limits = x2.limits ∧ t.fuses = x2.fuses ∧ t.shelfSkips = x2.shelfSkips ∧
    t.shelfCuts = x2.shelfCuts ∧ t.pending = x2.pending := by
  unfold execMirrorRows
  repeat' split
  all_goals ((try simp only [Prod.ext_iff] at *); (try casesm* _ ∧ _); (try subst_vars); first | (simp; done) | (simp_all; done) | skip)

@[simp] theorem applyAdapterMsg_frame (x0 x1 x2) : ((applyAdapterMsg x0 x1 x2)).1.fabric = x1.fabric ∧
    ((applyAdapterMsg x0 x1 x2)).1.store = x1.store ∧ ((applyAdapterMsg x0 x1 x2)).1.tier = x1.tier ∧
    ((applyAdapterMsg x0 x1 x2)).1.engines = x1.engines ∧ ((applyAdapterMsg x0 x1 x2)).1.host = x1.host ∧
    ((applyAdapterMsg x0 x1 x2)).1.text = x1.text ∧ ((applyAdapterMsg x0 x1 x2)).1.pair = x1.pair ∧
    ((applyAdapterMsg x0 x1 x2)).1.flash = x1.flash ∧ ((applyAdapterMsg x0 x1 x2)).1.bureau = x1.bureau ∧
    ((applyAdapterMsg x0 x1 x2)).1.power = x1.power ∧ ((applyAdapterMsg x0 x1 x2)).1.limits = x1.limits ∧
    ((applyAdapterMsg x0 x1 x2)).1.fuses = x1.fuses ∧ ((applyAdapterMsg x0 x1 x2)).1.shelfSkips = x1.shelfSkips ∧
    ((applyAdapterMsg x0 x1 x2)).1.shelfCuts = x1.shelfCuts ∧ ((applyAdapterMsg x0 x1 x2)).1.pending = x1.pending := by
  unfold applyAdapterMsg
  split
  · split
    · simp
    · split
      · rename_i h; have := takeVersion_frame _ _ _ h; simp_all
      · simp
  · simp

theorem execMirrorAdapter_frame (x0 x1 x2) : ∀ t, (execMirrorAdapter x0 x1 x2) = .next t → t.fabric = x2.fabric ∧ t.store = x2.store ∧
    t.tier = x2.tier ∧ t.engines = x2.engines ∧ t.text = x2.text ∧ t.flash = x2.flash ∧ t.power = x2.power ∧ t.limits = x2.limits ∧
    t.fuses = x2.fuses ∧ t.shelfSkips = x2.shelfSkips ∧ t.shelfCuts = x2.shelfCuts ∧ t.pending = x2.pending := by
  unfold execMirrorAdapter
  repeat' split
  all_goals ((try simp only [Prod.ext_iff] at *); (try casesm* _ ∧ _); (try subst_vars); first | (simp; done) | (simp_all; done) | skip)

@[simp] theorem applyConfig_frame (x0 x1 x2) : ((applyConfig x0 x1 x2)).1.engines = x0.engines ∧ ((applyConfig x0 x1 x2)).1.text = x0.text ∧
    ((applyConfig x0 x1 x2)).1.pair = x0.pair ∧ ((applyConfig x0 x1 x2)).1.flash = x0.flash ∧ ((applyConfig x0 x1 x2)).1.power = x0.power ∧
    ((applyConfig x0 x1 x2)).1.limits = x0.limits ∧ ((applyConfig x0 x1 x2)).1.fuses = x0.fuses ∧
    ((applyConfig x0 x1 x2)).1.shelfSkips = x0.shelfSkips ∧ ((applyConfig x0 x1 x2)).1.shelfCuts = x0.shelfCuts ∧
    ((applyConfig x0 x1 x2)).1.pending = x0.pending := by
  unfold applyConfig
  repeat' split
  all_goals ((try simp only [Prod.ext_iff] at *); (try casesm* _ ∧ _); (try subst_vars); (try simp))

@[simp] theorem applyConfigMsg_frame (x0 x1 x2) : ((applyConfigMsg x0 x1 x2)).1.engines = x1.engines ∧
    ((applyConfigMsg x0 x1 x2)).1.text = x1.text ∧ ((applyConfigMsg x0 x1 x2)).1.pair = x1.pair ∧
    ((applyConfigMsg x0 x1 x2)).1.flash = x1.flash ∧ ((applyConfigMsg x0 x1 x2)).1.power = x1.power ∧
    ((applyConfigMsg x0 x1 x2)).1.limits = x1.limits ∧ ((applyConfigMsg x0 x1 x2)).1.fuses = x1.fuses ∧
    ((applyConfigMsg x0 x1 x2)).1.shelfSkips = x1.shelfSkips ∧ ((applyConfigMsg x0 x1 x2)).1.shelfCuts = x1.shelfCuts ∧
    ((applyConfigMsg x0 x1 x2)).1.pending = x1.pending := by unfold applyConfigMsg; split <;> simp

theorem execMirrorConfig_frame (x0 x1 x2) : ∀ t, (execMirrorConfig x0 x1 x2) = .next t → t.engines = x2.engines ∧ t.text = x2.text ∧
    t.flash = x2.flash ∧ t.power = x2.power ∧ t.limits = x2.limits ∧ t.fuses = x2.fuses ∧ t.shelfSkips = x2.shelfSkips ∧
    t.shelfCuts = x2.shelfCuts ∧ t.pending = x2.pending := by
  unfold execMirrorConfig
  repeat' split
  all_goals ((try simp only [Prod.ext_iff] at *); (try casesm* _ ∧ _); (try subst_vars); first | (simp; done) | (simp_all; done) | skip)

@[simp] theorem mirrorConfigOut_frame (x0 x1 x2) : (mirrorConfigOut x0 x1 x2).fabric = x0.fabric ∧
    (mirrorConfigOut x0 x1 x2).store = x0.store ∧ (mirrorConfigOut x0 x1 x2).tier = x0.tier ∧
    (mirrorConfigOut x0 x1 x2).engines = x0.engines ∧ (mirrorConfigOut x0 x1 x2).gen = x0.gen ∧ (mirrorConfigOut x0 x1 x2).text = x0.text ∧
    (mirrorConfigOut x0 x1 x2).flash = x0.flash ∧ (mirrorConfigOut x0 x1 x2).bureau = x0.bureau ∧
    (mirrorConfigOut x0 x1 x2).power = x0.power ∧ (mirrorConfigOut x0 x1 x2).limits = x0.limits ∧
    (mirrorConfigOut x0 x1 x2).fuses = x0.fuses ∧ (mirrorConfigOut x0 x1 x2).shelfSkips = x0.shelfSkips ∧
    (mirrorConfigOut x0 x1 x2).shelfCuts = x0.shelfCuts ∧ (mirrorConfigOut x0 x1 x2).pending = x0.pending := by simp [mirrorConfigOut]

@[simp] theorem resyncTenant_frame (x0 x1 x2) : (resyncTenant x0 x1 x2).fabric = x1.fabric ∧ (resyncTenant x0 x1 x2).store = x1.store ∧
    (resyncTenant x0 x1 x2).tier = x1.tier ∧ (resyncTenant x0 x1 x2).engines = x1.engines ∧ (resyncTenant x0 x1 x2).gen = x1.gen ∧
    (resyncTenant x0 x1 x2).text = x1.text ∧ (resyncTenant x0 x1 x2).flash = x1.flash ∧ (resyncTenant x0 x1 x2).power = x1.power ∧
    (resyncTenant x0 x1 x2).limits = x1.limits ∧ (resyncTenant x0 x1 x2).fuses = x1.fuses ∧
    (resyncTenant x0 x1 x2).shelfSkips = x1.shelfSkips ∧ (resyncTenant x0 x1 x2).shelfCuts = x1.shelfCuts ∧
    (resyncTenant x0 x1 x2).pending = x1.pending := by simp [resyncTenant]

@[simp] theorem ident_frame (x0 x1) : (ident x0 x1).fabric = x0.fabric ∧ (ident x0 x1).store = x0.store ∧ (ident x0 x1).tier = x0.tier ∧
    (ident x0 x1).engines = x0.engines ∧ (ident x0 x1).gen = x0.gen ∧ (ident x0 x1).text = x0.text ∧ (ident x0 x1).flash = x0.flash ∧
    (ident x0 x1).power = x0.power ∧ (ident x0 x1).limits = x0.limits ∧ (ident x0 x1).fuses = x0.fuses ∧
    (ident x0 x1).shelfSkips = x0.shelfSkips ∧ (ident x0 x1).shelfCuts = x0.shelfCuts ∧ (ident x0 x1).pending = x0.pending := by simp [ident]

theorem execIdent_frame (x0 x1) : ∀ t, (execIdent x0 x1) = .next t → t.fabric = x1.fabric ∧ t.store = x1.store ∧ t.tier = x1.tier ∧
    t.engines = x1.engines ∧ t.gen = x1.gen ∧ t.text = x1.text ∧ t.flash = x1.flash ∧ t.power = x1.power ∧ t.limits = x1.limits ∧
    t.fuses = x1.fuses ∧ t.shelfSkips = x1.shelfSkips ∧ t.shelfCuts = x1.shelfCuts ∧ t.pending = x1.pending := by simp [execIdent]

@[simp] theorem clearSolo_frame (x0 x1 x2) : (clearSolo x0 x1 x2).fabric = x1.fabric ∧ (clearSolo x0 x1 x2).store = x1.store ∧
    (clearSolo x0 x1 x2).tier = x1.tier ∧ (clearSolo x0 x1 x2).engines = x1.engines ∧ (clearSolo x0 x1 x2).gen = x1.gen ∧
    (clearSolo x0 x1 x2).text = x1.text ∧ (clearSolo x0 x1 x2).flash = x1.flash ∧ (clearSolo x0 x1 x2).power = x1.power ∧
    (clearSolo x0 x1 x2).limits = x1.limits ∧ (clearSolo x0 x1 x2).fuses = x1.fuses ∧ (clearSolo x0 x1 x2).shelfSkips = x1.shelfSkips ∧
    (clearSolo x0 x1 x2).shelfCuts = x1.shelfCuts ∧ (clearSolo x0 x1 x2).free = x1.free ∧ (clearSolo x0 x1 x2).pending = x1.pending := by simp [clearSolo]

@[simp] theorem discardTurn_frame (x0 x1) : (discardTurn x0 x1).fabric = x0.fabric ∧ (discardTurn x0 x1).store = x0.store ∧
    (discardTurn x0 x1).tier = x0.tier ∧ (discardTurn x0 x1).engines = x0.engines ∧ (discardTurn x0 x1).host = x0.host ∧
    (discardTurn x0 x1).text = x0.text ∧ (discardTurn x0 x1).flash = x0.flash ∧ (discardTurn x0 x1).bureau = x0.bureau ∧
    (discardTurn x0 x1).power = x0.power ∧ (discardTurn x0 x1).limits = x0.limits ∧ (discardTurn x0 x1).fuses = x0.fuses ∧
    (discardTurn x0 x1).shelfSkips = x0.shelfSkips ∧ (discardTurn x0 x1).shelfCuts = x0.shelfCuts ∧ (discardTurn x0 x1).free = x0.free ∧
    (discardTurn x0 x1).pending = x0.pending := by
  unfold discardTurn
  repeat' split
  all_goals ((try simp only [Prod.ext_iff] at *); (try casesm* _ ∧ _); (try subst_vars); (try simp))

@[simp] theorem enterUp_frame (x0 x1) : (enterUp x0 x1).engines = x0.engines ∧ (enterUp x0 x1).text = x0.text ∧
    (enterUp x0 x1).power = x0.power ∧ (enterUp x0 x1).limits = x0.limits ∧ (enterUp x0 x1).fuses = x0.fuses ∧
    (enterUp x0 x1).shelfSkips = x0.shelfSkips ∧ (enterUp x0 x1).shelfCuts = x0.shelfCuts ∧ (enterUp x0 x1).pending = x0.pending := by simp [enterUp]

@[simp] theorem tryUp_frame (x0 x1) : (tryUp x0 x1).engines = x0.engines ∧ (tryUp x0 x1).text = x0.text ∧ (tryUp x0 x1).power = x0.power ∧
    (tryUp x0 x1).limits = x0.limits ∧ (tryUp x0 x1).fuses = x0.fuses ∧ (tryUp x0 x1).shelfSkips = x0.shelfSkips ∧
    (tryUp x0 x1).shelfCuts = x0.shelfCuts ∧ (tryUp x0 x1).pending = x0.pending := by simp [tryUp]

@[simp] theorem replayJournal_frame (x0 x1) : (replayJournal x0 x1).fabric = x0.fabric ∧ (replayJournal x0 x1).store = x0.store ∧
    (replayJournal x0 x1).tier = x0.tier ∧ (replayJournal x0 x1).engines = x0.engines ∧ (replayJournal x0 x1).gen = x0.gen ∧
    (replayJournal x0 x1).text = x0.text ∧ (replayJournal x0 x1).flash = x0.flash ∧ (replayJournal x0 x1).bureau = x0.bureau ∧
    (replayJournal x0 x1).power = x0.power ∧ (replayJournal x0 x1).limits = x0.limits ∧ (replayJournal x0 x1).fuses = x0.fuses ∧
    (replayJournal x0 x1).shelfSkips = x0.shelfSkips ∧ (replayJournal x0 x1).shelfCuts = x0.shelfCuts ∧
    (replayJournal x0 x1).pending = x0.pending := by simp [replayJournal]

@[simp] theorem handoverStep_frame (x0 x1 x2) : (handoverStep x0 x1 x2).fabric = x1.fabric ∧ (handoverStep x0 x1 x2).store = x1.store ∧
    (handoverStep x0 x1 x2).tier = x1.tier ∧ (handoverStep x0 x1 x2).engines = x1.engines ∧ (handoverStep x0 x1 x2).gen = x1.gen ∧
    (handoverStep x0 x1 x2).text = x1.text ∧ (handoverStep x0 x1 x2).flash = x1.flash ∧ (handoverStep x0 x1 x2).power = x1.power ∧
    (handoverStep x0 x1 x2).limits = x1.limits ∧ (handoverStep x0 x1 x2).fuses = x1.fuses ∧
    (handoverStep x0 x1 x2).shelfSkips = x1.shelfSkips ∧ (handoverStep x0 x1 x2).shelfCuts = x1.shelfCuts ∧
    (handoverStep x0 x1 x2).pending = x1.pending := by
  unfold handoverStep
  repeat' split
  all_goals ((try simp only [Prod.ext_iff] at *); (try casesm* _ ∧ _); (try subst_vars); first | (simp; done) | (simp_all; done) | skip)

@[simp] theorem ackEntry_frame (x0 x1 x2 x3) : (ackEntry x0 x1 x2 x3).engines = x0.engines ∧ (ackEntry x0 x1 x2 x3).text = x0.text ∧
    (ackEntry x0 x1 x2 x3).power = x0.power ∧ (ackEntry x0 x1 x2 x3).limits = x0.limits ∧ (ackEntry x0 x1 x2 x3).fuses = x0.fuses ∧
    (ackEntry x0 x1 x2 x3).shelfSkips = x0.shelfSkips ∧ (ackEntry x0 x1 x2 x3).shelfCuts = x0.shelfCuts ∧
    (ackEntry x0 x1 x2 x3).pending = x0.pending := by
  unfold ackEntry
  repeat' split
  all_goals ((try simp only [Prod.ext_iff] at *); (try casesm* _ ∧ _); (try subst_vars); (try simp))

@[simp] theorem mirrorAck_frame (x0 x1 x2) : (mirrorAck x0 x1 x2).engines = x0.engines ∧ (mirrorAck x0 x1 x2).text = x0.text ∧
    (mirrorAck x0 x1 x2).power = x0.power ∧ (mirrorAck x0 x1 x2).limits = x0.limits ∧ (mirrorAck x0 x1 x2).fuses = x0.fuses ∧
    (mirrorAck x0 x1 x2).shelfSkips = x0.shelfSkips ∧ (mirrorAck x0 x1 x2).shelfCuts = x0.shelfCuts ∧
    (mirrorAck x0 x1 x2).pending = x0.pending := by
  simp only [mirrorAck]
  repeat' split
  all_goals ((try simp only [Prod.ext_iff] at *); (try casesm* _ ∧ _); (try subst_vars); (try simp))

theorem execMirrorAck_frame (x0 x1 x2) : ∀ t, (execMirrorAck x0 x1 x2) = .next t → t.engines = x2.engines ∧ t.text = x2.text ∧
    t.power = x2.power ∧ t.limits = x2.limits ∧ t.fuses = x2.fuses ∧ t.shelfSkips = x2.shelfSkips ∧ t.shelfCuts = x2.shelfCuts ∧
    t.pending = x2.pending := by simp [execMirrorAck]

@[simp] theorem mirrorTimeout_frame (x0 x1 x2) : (mirrorTimeout x0 x1 x2).engines = x0.engines ∧ (mirrorTimeout x0 x1 x2).text = x0.text ∧
    (mirrorTimeout x0 x1 x2).power = x0.power ∧ (mirrorTimeout x0 x1 x2).limits = x0.limits ∧ (mirrorTimeout x0 x1 x2).fuses = x0.fuses ∧
    (mirrorTimeout x0 x1 x2).shelfSkips = x0.shelfSkips ∧ (mirrorTimeout x0 x1 x2).shelfCuts = x0.shelfCuts ∧
    (mirrorTimeout x0 x1 x2).pending = x0.pending := by simp [mirrorTimeout]

theorem execMirrorTimeout_frame (x0 x1 x2) : ∀ t, (execMirrorTimeout x0 x1 x2) = .next t → t.engines = x2.engines ∧ t.text = x2.text ∧
    t.power = x2.power ∧ t.limits = x2.limits ∧ t.fuses = x2.fuses ∧ t.shelfSkips = x2.shelfSkips ∧ t.shelfCuts = x2.shelfCuts ∧
    t.pending = x2.pending := by simp [execMirrorTimeout]

@[simp] theorem journalReq_frame (x0 x1 x2) : (journalReq x0 x1 x2).engines = x0.engines ∧ (journalReq x0 x1 x2).text = x0.text ∧
    (journalReq x0 x1 x2).power = x0.power ∧ (journalReq x0 x1 x2).limits = x0.limits ∧ (journalReq x0 x1 x2).fuses = x0.fuses ∧
    (journalReq x0 x1 x2).shelfSkips = x0.shelfSkips ∧ (journalReq x0 x1 x2).shelfCuts = x0.shelfCuts ∧
    (journalReq x0 x1 x2).pending = x0.pending := by simp [journalReq]

theorem execJournalReq_frame (x0 x1 x2) : ∀ t, (execJournalReq x0 x1 x2) = .next t → t.engines = x2.engines ∧ t.text = x2.text ∧
    t.power = x2.power ∧ t.limits = x2.limits ∧ t.fuses = x2.fuses ∧ t.shelfSkips = x2.shelfSkips ∧ t.shelfCuts = x2.shelfCuts ∧
    t.pending = x2.pending := by simp [execJournalReq]

@[simp] theorem runForward_frame (x0 x1 x2 x3) : (runForward x0 x1 x2 x3).engines = x0.engines ∧ (runForward x0 x1 x2 x3).text = x0.text ∧
    (runForward x0 x1 x2 x3).power = x0.power ∧ (runForward x0 x1 x2 x3).limits = x0.limits ∧ (runForward x0 x1 x2 x3).fuses = x0.fuses ∧
    (runForward x0 x1 x2 x3).shelfSkips = x0.shelfSkips ∧ (runForward x0 x1 x2 x3).shelfCuts = x0.shelfCuts ∧
    (runForward x0 x1 x2 x3).pending = x0.pending := by
  simp only [runForward]
  repeat' split
  all_goals ((try simp only [Prod.ext_iff] at *); (try casesm* _ ∧ _); (try subst_vars); (try simp))

@[simp] theorem forward_frame (x0 x1 x2) : (forward x0 x1 x2).engines = x0.engines ∧ (forward x0 x1 x2).text = x0.text ∧
    (forward x0 x1 x2).power = x0.power ∧ (forward x0 x1 x2).limits = x0.limits ∧ (forward x0 x1 x2).fuses = x0.fuses ∧
    (forward x0 x1 x2).shelfSkips = x0.shelfSkips ∧ (forward x0 x1 x2).shelfCuts = x0.shelfCuts ∧ (forward x0 x1 x2).pending = x0.pending := by
  simp only [forward]
  repeat' split
  all_goals ((try simp only [Prod.ext_iff] at *); (try casesm* _ ∧ _); (try subst_vars); (try simp))

theorem execForward_frame (x0 x1 x2) : ∀ t, (execForward x0 x1 x2) = .next t → t.engines = x2.engines ∧ t.text = x2.text ∧
    t.power = x2.power ∧ t.limits = x2.limits ∧ t.fuses = x2.fuses ∧ t.shelfSkips = x2.shelfSkips ∧ t.shelfCuts = x2.shelfCuts ∧
    t.pending = x2.pending := by simp [execForward]

@[simp] theorem freeBytes_frame (x0 x1) : ((freeBytes x0 x1)).2.fabric = x0.fabric ∧ ((freeBytes x0 x1)).2.store = x0.store ∧
    ((freeBytes x0 x1)).2.tier = x0.tier ∧ ((freeBytes x0 x1)).2.engines = x0.engines ∧ ((freeBytes x0 x1)).2.host = x0.host ∧
    ((freeBytes x0 x1)).2.gen = x0.gen ∧ ((freeBytes x0 x1)).2.text = x0.text ∧ ((freeBytes x0 x1)).2.pair = x0.pair ∧
    ((freeBytes x0 x1)).2.flash = x0.flash ∧ ((freeBytes x0 x1)).2.bureau = x0.bureau ∧ ((freeBytes x0 x1)).2.power = x0.power ∧
    ((freeBytes x0 x1)).2.limits = x0.limits ∧ ((freeBytes x0 x1)).2.fuses = x0.fuses ∧ ((freeBytes x0 x1)).2.shelfSkips = x0.shelfSkips ∧
    ((freeBytes x0 x1)).2.shelfCuts = x0.shelfCuts ∧ ((freeBytes x0 x1)).2.pending = x0.pending := by simp [freeBytes]

@[simp] theorem forwardDoneMsg_frame (x0 x1 x2) : (forwardDoneMsg x0 x1 x2).fabric = x0.fabric ∧ (forwardDoneMsg x0 x1 x2).store = x0.store ∧
    (forwardDoneMsg x0 x1 x2).tier = x0.tier ∧ (forwardDoneMsg x0 x1 x2).engines = x0.engines ∧ (forwardDoneMsg x0 x1 x2).text = x0.text ∧
    (forwardDoneMsg x0 x1 x2).flash = x0.flash ∧ (forwardDoneMsg x0 x1 x2).bureau = x0.bureau ∧ (forwardDoneMsg x0 x1 x2).power = x0.power ∧
    (forwardDoneMsg x0 x1 x2).limits = x0.limits ∧ (forwardDoneMsg x0 x1 x2).fuses = x0.fuses ∧
    (forwardDoneMsg x0 x1 x2).shelfSkips = x0.shelfSkips ∧ (forwardDoneMsg x0 x1 x2).shelfCuts = x0.shelfCuts ∧
    (forwardDoneMsg x0 x1 x2).pending = x0.pending := by
  simp only [forwardDoneMsg]
  repeat' split
  all_goals ((try simp only [Prod.ext_iff] at *); (try casesm* _ ∧ _); (try subst_vars); (try simp))

theorem execForwardDone_frame (x0 x1 x2) : ∀ t, (execForwardDone x0 x1 x2) = .next t → t.fabric = x2.fabric ∧ t.store = x2.store ∧
    t.tier = x2.tier ∧ t.engines = x2.engines ∧ t.text = x2.text ∧ t.flash = x2.flash ∧ t.bureau = x2.bureau ∧ t.power = x2.power ∧
    t.limits = x2.limits ∧ t.fuses = x2.fuses ∧ t.shelfSkips = x2.shelfSkips ∧ t.shelfCuts = x2.shelfCuts ∧ t.pending = x2.pending := by simp [execForwardDone]

@[simp] theorem modTurn_frame (x0 x1 x2) : (modTurn x0 x1 x2).fabric = x0.fabric ∧ (modTurn x0 x1 x2).store = x0.store ∧
    (modTurn x0 x1 x2).tier = x0.tier ∧ (modTurn x0 x1 x2).engines = x0.engines ∧ (modTurn x0 x1 x2).host = x0.host ∧
    (modTurn x0 x1 x2).gen = x0.gen ∧ (modTurn x0 x1 x2).text = x0.text ∧ (modTurn x0 x1 x2).flash = x0.flash ∧
    (modTurn x0 x1 x2).bureau = x0.bureau ∧ (modTurn x0 x1 x2).power = x0.power ∧ (modTurn x0 x1 x2).limits = x0.limits ∧
    (modTurn x0 x1 x2).fuses = x0.fuses ∧ (modTurn x0 x1 x2).shelfSkips = x0.shelfSkips ∧ (modTurn x0 x1 x2).shelfCuts = x0.shelfCuts ∧
    (modTurn x0 x1 x2).free = x0.free ∧ (modTurn x0 x1 x2).pending = x0.pending := by simp [modTurn]

@[simp] theorem turnDesc_frame (x0 x1 x2) : (turnDesc x0 x1 x2).fabric = x0.fabric ∧ (turnDesc x0 x1 x2).store = x0.store ∧
    (turnDesc x0 x1 x2).tier = x0.tier ∧ (turnDesc x0 x1 x2).engines = x0.engines ∧ (turnDesc x0 x1 x2).host = x0.host ∧
    (turnDesc x0 x1 x2).gen = x0.gen ∧ (turnDesc x0 x1 x2).text = x0.text ∧ (turnDesc x0 x1 x2).flash = x0.flash ∧
    (turnDesc x0 x1 x2).bureau = x0.bureau ∧ (turnDesc x0 x1 x2).power = x0.power ∧ (turnDesc x0 x1 x2).limits = x0.limits ∧
    (turnDesc x0 x1 x2).fuses = x0.fuses ∧ (turnDesc x0 x1 x2).shelfSkips = x0.shelfSkips ∧ (turnDesc x0 x1 x2).shelfCuts = x0.shelfCuts ∧
    (turnDesc x0 x1 x2).free = x0.free ∧ (turnDesc x0 x1 x2).pending = x0.pending := by
  unfold turnDesc
  repeat' split
  all_goals ((try simp only [Prod.ext_iff] at *); (try casesm* _ ∧ _); (try subst_vars); (try simp))

theorem execTurnDesc_frame (x0 x1 x2) : ∀ t, (execTurnDesc x0 x1 x2) = .next t → t.fabric = x2.fabric ∧ t.store = x2.store ∧
    t.tier = x2.tier ∧ t.engines = x2.engines ∧ t.host = x2.host ∧ t.gen = x2.gen ∧ t.text = x2.text ∧ t.flash = x2.flash ∧
    t.bureau = x2.bureau ∧ t.power = x2.power ∧ t.limits = x2.limits ∧ t.fuses = x2.fuses ∧ t.shelfSkips = x2.shelfSkips ∧
    t.shelfCuts = x2.shelfCuts ∧ t.free = x2.free ∧ t.pending = x2.pending := by simp [execTurnDesc]

@[simp] theorem turnText_frame (x0 x1 x2) : (turnText x0 x1 x2).fabric = x0.fabric ∧ (turnText x0 x1 x2).store = x0.store ∧
    (turnText x0 x1 x2).tier = x0.tier ∧ (turnText x0 x1 x2).engines = x0.engines ∧ (turnText x0 x1 x2).host = x0.host ∧
    (turnText x0 x1 x2).gen = x0.gen ∧ (turnText x0 x1 x2).text = x0.text ∧ (turnText x0 x1 x2).flash = x0.flash ∧
    (turnText x0 x1 x2).bureau = x0.bureau ∧ (turnText x0 x1 x2).power = x0.power ∧ (turnText x0 x1 x2).limits = x0.limits ∧
    (turnText x0 x1 x2).fuses = x0.fuses ∧ (turnText x0 x1 x2).shelfSkips = x0.shelfSkips ∧ (turnText x0 x1 x2).shelfCuts = x0.shelfCuts ∧
    (turnText x0 x1 x2).free = x0.free ∧ (turnText x0 x1 x2).pending = x0.pending := by
  unfold turnText
  repeat' split
  all_goals ((try simp only [Prod.ext_iff] at *); (try casesm* _ ∧ _); (try subst_vars); (try simp))

theorem execTurnText_frame (x0 x1 x2) : ∀ t, (execTurnText x0 x1 x2) = .next t → t.fabric = x2.fabric ∧ t.store = x2.store ∧
    t.tier = x2.tier ∧ t.engines = x2.engines ∧ t.host = x2.host ∧ t.gen = x2.gen ∧ t.text = x2.text ∧ t.flash = x2.flash ∧
    t.bureau = x2.bureau ∧ t.power = x2.power ∧ t.limits = x2.limits ∧ t.fuses = x2.fuses ∧ t.shelfSkips = x2.shelfSkips ∧
    t.shelfCuts = x2.shelfCuts ∧ t.free = x2.free ∧ t.pending = x2.pending := by simp [execTurnText]

@[simp] theorem turnSnap_frame (x0 x1) : (turnSnap x0 x1).fabric = x0.fabric ∧ (turnSnap x0 x1).store = x0.store ∧
    (turnSnap x0 x1).tier = x0.tier ∧ (turnSnap x0 x1).engines = x0.engines ∧ (turnSnap x0 x1).host = x0.host ∧
    (turnSnap x0 x1).text = x0.text ∧ (turnSnap x0 x1).flash = x0.flash ∧ (turnSnap x0 x1).bureau = x0.bureau ∧
    (turnSnap x0 x1).power = x0.power ∧ (turnSnap x0 x1).limits = x0.limits ∧ (turnSnap x0 x1).fuses = x0.fuses ∧
    (turnSnap x0 x1).shelfSkips = x0.shelfSkips ∧ (turnSnap x0 x1).shelfCuts = x0.shelfCuts ∧ (turnSnap x0 x1).free = x0.free ∧
    (turnSnap x0 x1).pending = x0.pending := by
  simp only [turnSnap]
  repeat' split
  all_goals ((try simp only [Prod.ext_iff] at *); (try casesm* _ ∧ _); (try subst_vars); (try simp))

theorem execTurnSnap_frame (x0 x1) : ∀ t, (execTurnSnap x0 x1) = .next t → t.fabric = x1.fabric ∧ t.store = x1.store ∧ t.tier = x1.tier ∧
    t.engines = x1.engines ∧ t.host = x1.host ∧ t.text = x1.text ∧ t.flash = x1.flash ∧ t.bureau = x1.bureau ∧ t.power = x1.power ∧
    t.limits = x1.limits ∧ t.fuses = x1.fuses ∧ t.shelfSkips = x1.shelfSkips ∧ t.shelfCuts = x1.shelfCuts ∧ t.free = x1.free ∧
    t.pending = x1.pending := by simp [execTurnSnap]

@[simp] theorem turnDone_frame (x0 x1) : (turnDone x0 x1).fabric = x0.fabric ∧ (turnDone x0 x1).store = x0.store ∧
    (turnDone x0 x1).tier = x0.tier ∧ (turnDone x0 x1).engines = x0.engines ∧ (turnDone x0 x1).host = x0.host ∧
    (turnDone x0 x1).text = x0.text ∧ (turnDone x0 x1).flash = x0.flash ∧ (turnDone x0 x1).bureau = x0.bureau ∧
    (turnDone x0 x1).power = x0.power ∧ (turnDone x0 x1).limits = x0.limits ∧ (turnDone x0 x1).fuses = x0.fuses ∧
    (turnDone x0 x1).shelfSkips = x0.shelfSkips ∧ (turnDone x0 x1).shelfCuts = x0.shelfCuts ∧ (turnDone x0 x1).free = x0.free ∧
    (turnDone x0 x1).pending = x0.pending := by simp [turnDone]

theorem execTurnDone_frame (x0 x1) : ∀ t, (execTurnDone x0 x1) = .next t → t.fabric = x1.fabric ∧ t.store = x1.store ∧ t.tier = x1.tier ∧
    t.engines = x1.engines ∧ t.host = x1.host ∧ t.text = x1.text ∧ t.flash = x1.flash ∧ t.bureau = x1.bureau ∧ t.power = x1.power ∧
    t.limits = x1.limits ∧ t.fuses = x1.fuses ∧ t.shelfSkips = x1.shelfSkips ∧ t.shelfCuts = x1.shelfCuts ∧ t.free = x1.free ∧
    t.pending = x1.pending := by simp [execTurnDone]

@[simp] theorem remoteTile_frame (x0 x1 x2 x3) : (remoteTile x0 x1 x2 x3).tier = x0.tier ∧ (remoteTile x0 x1 x2 x3).engines = x0.engines ∧
    (remoteTile x0 x1 x2 x3).text = x0.text ∧ (remoteTile x0 x1 x2 x3).flash = x0.flash ∧ (remoteTile x0 x1 x2 x3).power = x0.power ∧
    (remoteTile x0 x1 x2 x3).limits = x0.limits ∧ (remoteTile x0 x1 x2 x3).fuses = x0.fuses ∧
    (remoteTile x0 x1 x2 x3).shelfSkips = x0.shelfSkips ∧ (remoteTile x0 x1 x2 x3).shelfCuts = x0.shelfCuts ∧
    (remoteTile x0 x1 x2 x3).free = x0.free ∧ (remoteTile x0 x1 x2 x3).pending = x0.pending := by
  simp only [remoteTile]
  repeat' split
  all_goals ((try simp only [Prod.ext_iff] at *); (try casesm* _ ∧ _); (try subst_vars); (try simp))

theorem execRemoteTile_frame (x0 x1 x2 x3) : ∀ t, (execRemoteTile x0 x1 x2 x3) = .next t → t.tier = x3.tier ∧ t.engines = x3.engines ∧
    t.text = x3.text ∧ t.flash = x3.flash ∧ t.power = x3.power ∧ t.limits = x3.limits ∧ t.fuses = x3.fuses ∧ t.shelfSkips = x3.shelfSkips ∧
    t.shelfCuts = x3.shelfCuts ∧ t.free = x3.free ∧ t.pending = x3.pending := by simp [execRemoteTile]

@[simp] theorem remoteCommit_frame (x0 x1) : (remoteCommit x0 x1).fabric = x0.fabric ∧ (remoteCommit x0 x1).store = x0.store ∧
    (remoteCommit x0 x1).tier = x0.tier ∧ (remoteCommit x0 x1).engines = x0.engines ∧ (remoteCommit x0 x1).host = x0.host ∧
    (remoteCommit x0 x1).text = x0.text ∧ (remoteCommit x0 x1).flash = x0.flash ∧ (remoteCommit x0 x1).bureau = x0.bureau ∧
    (remoteCommit x0 x1).power = x0.power ∧ (remoteCommit x0 x1).limits = x0.limits ∧ (remoteCommit x0 x1).fuses = x0.fuses ∧
    (remoteCommit x0 x1).shelfSkips = x0.shelfSkips ∧ (remoteCommit x0 x1).shelfCuts = x0.shelfCuts ∧ (remoteCommit x0 x1).free = x0.free ∧
    (remoteCommit x0 x1).pending = x0.pending := by simp [remoteCommit]

theorem execCommit_frame (x0 x1) : ∀ t, (execCommit x0 x1) = .next t → t.fabric = x1.fabric ∧ t.store = x1.store ∧ t.tier = x1.tier ∧
    t.engines = x1.engines ∧ t.host = x1.host ∧ t.text = x1.text ∧ t.flash = x1.flash ∧ t.bureau = x1.bureau ∧ t.power = x1.power ∧
    t.limits = x1.limits ∧ t.fuses = x1.fuses ∧ t.shelfSkips = x1.shelfSkips ∧ t.shelfCuts = x1.shelfCuts ∧ t.free = x1.free ∧
    t.pending = x1.pending := by simp [execCommit]

@[simp] theorem remoteRetract_frame (x0 x1) : (remoteRetract x0 x1).fabric = x0.fabric ∧ (remoteRetract x0 x1).tier = x0.tier ∧
    (remoteRetract x0 x1).engines = x0.engines ∧ (remoteRetract x0 x1).host = x0.host ∧ (remoteRetract x0 x1).text = x0.text ∧
    (remoteRetract x0 x1).flash = x0.flash ∧ (remoteRetract x0 x1).bureau = x0.bureau ∧ (remoteRetract x0 x1).power = x0.power ∧
    (remoteRetract x0 x1).limits = x0.limits ∧ (remoteRetract x0 x1).fuses = x0.fuses ∧ (remoteRetract x0 x1).shelfSkips = x0.shelfSkips ∧
    (remoteRetract x0 x1).shelfCuts = x0.shelfCuts ∧ (remoteRetract x0 x1).free = x0.free ∧ (remoteRetract x0 x1).pending = x0.pending := by simp [remoteRetract]

theorem execRetract_frame (x0 x1) : ∀ t, (execRetract x0 x1) = .next t → t.fabric = x1.fabric ∧ t.tier = x1.tier ∧ t.engines = x1.engines ∧
    t.host = x1.host ∧ t.text = x1.text ∧ t.flash = x1.flash ∧ t.bureau = x1.bureau ∧ t.power = x1.power ∧ t.limits = x1.limits ∧
    t.fuses = x1.fuses ∧ t.shelfSkips = x1.shelfSkips ∧ t.shelfCuts = x1.shelfCuts ∧ t.free = x1.free ∧ t.pending = x1.pending := by simp [execRetract]

@[simp] theorem mirrorRead_frame (x0 x1 x2) : (mirrorRead x0 x1 x2).fabric = x0.fabric ∧ (mirrorRead x0 x1 x2).store = x0.store ∧
    (mirrorRead x0 x1 x2).tier = x0.tier ∧ (mirrorRead x0 x1 x2).engines = x0.engines ∧ (mirrorRead x0 x1 x2).gen = x0.gen ∧
    (mirrorRead x0 x1 x2).text = x0.text ∧ (mirrorRead x0 x1 x2).flash = x0.flash ∧ (mirrorRead x0 x1 x2).bureau = x0.bureau ∧
    (mirrorRead x0 x1 x2).power = x0.power ∧ (mirrorRead x0 x1 x2).limits = x0.limits ∧ (mirrorRead x0 x1 x2).fuses = x0.fuses ∧
    (mirrorRead x0 x1 x2).shelfSkips = x0.shelfSkips ∧ (mirrorRead x0 x1 x2).shelfCuts = x0.shelfCuts ∧
    (mirrorRead x0 x1 x2).pending = x0.pending := by
  simp only [mirrorRead]
  repeat' split
  all_goals ((try simp only [Prod.ext_iff] at *); (try casesm* _ ∧ _); (try subst_vars); (try simp))

theorem execMirrorRead_frame (x0 x1 x2) : ∀ t, (execMirrorRead x0 x1 x2) = .next t → t.fabric = x2.fabric ∧ t.store = x2.store ∧
    t.tier = x2.tier ∧ t.engines = x2.engines ∧ t.gen = x2.gen ∧ t.text = x2.text ∧ t.flash = x2.flash ∧ t.bureau = x2.bureau ∧
    t.power = x2.power ∧ t.limits = x2.limits ∧ t.fuses = x2.fuses ∧ t.shelfSkips = x2.shelfSkips ∧ t.shelfCuts = x2.shelfCuts ∧
    t.pending = x2.pending := by simp [execMirrorRead]

@[simp] theorem mirrorData_frame (x0 x1 x2 x3) : (mirrorData x0 x1 x2 x3).engines = x0.engines ∧ (mirrorData x0 x1 x2 x3).text = x0.text ∧
    (mirrorData x0 x1 x2 x3).flash = x0.flash ∧ (mirrorData x0 x1 x2 x3).power = x0.power ∧ (mirrorData x0 x1 x2 x3).limits = x0.limits ∧
    (mirrorData x0 x1 x2 x3).fuses = x0.fuses ∧ (mirrorData x0 x1 x2 x3).shelfSkips = x0.shelfSkips ∧
    (mirrorData x0 x1 x2 x3).shelfCuts = x0.shelfCuts ∧ (mirrorData x0 x1 x2 x3).free = x0.free ∧
    (mirrorData x0 x1 x2 x3).pending = x0.pending := by
  unfold mirrorData
  repeat' split
  all_goals ((try simp only [Prod.ext_iff] at *); (try casesm* _ ∧ _); (try subst_vars); (try simp))

theorem execMirrorData_frame (x0 x1 x2 x3) : ∀ t, (execMirrorData x0 x1 x2 x3) = .next t → t.engines = x3.engines ∧ t.text = x3.text ∧
    t.flash = x3.flash ∧ t.power = x3.power ∧ t.limits = x3.limits ∧ t.fuses = x3.fuses ∧ t.shelfSkips = x3.shelfSkips ∧
    t.shelfCuts = x3.shelfCuts ∧ t.free = x3.free ∧ t.pending = x3.pending := by simp [execMirrorData]

/-! ## Failover -/

@[simp] theorem leaseLine_frame (x0 x1 x2) : (leaseLine x0 x1 x2).fabric = x0.fabric ∧ (leaseLine x0 x1 x2).store = x0.store ∧
    (leaseLine x0 x1 x2).tier = x0.tier ∧ (leaseLine x0 x1 x2).engines = x0.engines ∧ (leaseLine x0 x1 x2).gen = x0.gen ∧
    (leaseLine x0 x1 x2).text = x0.text ∧ (leaseLine x0 x1 x2).flash = x0.flash ∧ (leaseLine x0 x1 x2).power = x0.power ∧
    (leaseLine x0 x1 x2).limits = x0.limits ∧ (leaseLine x0 x1 x2).fuses = x0.fuses ∧ (leaseLine x0 x1 x2).shelfSkips = x0.shelfSkips ∧
    (leaseLine x0 x1 x2).shelfCuts = x0.shelfCuts ∧ (leaseLine x0 x1 x2).free = x0.free ∧ (leaseLine x0 x1 x2).pending = x0.pending := by simp [leaseLine]

theorem execLeaseLineInvalidation_frame (x0 x1 x2) : ∀ t, (execLeaseLineInvalidation x0 x1 x2) = .next t → t.fabric = x2.fabric ∧
    t.store = x2.store ∧ t.tier = x2.tier ∧ t.engines = x2.engines ∧ t.gen = x2.gen ∧ t.text = x2.text ∧ t.flash = x2.flash ∧
    t.power = x2.power ∧ t.limits = x2.limits ∧ t.fuses = x2.fuses ∧ t.shelfSkips = x2.shelfSkips ∧ t.shelfCuts = x2.shelfCuts ∧
    t.free = x2.free ∧ t.pending = x2.pending := by simp [execLeaseLineInvalidation]

@[simp] theorem leaseRenew_frame (x0 x1 x2) : (leaseRenew x0 x1 x2).fabric = x0.fabric ∧ (leaseRenew x0 x1 x2).store = x0.store ∧
    (leaseRenew x0 x1 x2).tier = x0.tier ∧ (leaseRenew x0 x1 x2).engines = x0.engines ∧ (leaseRenew x0 x1 x2).gen = x0.gen ∧
    (leaseRenew x0 x1 x2).text = x0.text ∧ (leaseRenew x0 x1 x2).flash = x0.flash ∧ (leaseRenew x0 x1 x2).power = x0.power ∧
    (leaseRenew x0 x1 x2).limits = x0.limits ∧ (leaseRenew x0 x1 x2).fuses = x0.fuses ∧ (leaseRenew x0 x1 x2).shelfSkips = x0.shelfSkips ∧
    (leaseRenew x0 x1 x2).shelfCuts = x0.shelfCuts ∧ (leaseRenew x0 x1 x2).free = x0.free ∧ (leaseRenew x0 x1 x2).pending = x0.pending := by simp [leaseRenew]

theorem execLeaseRenew_frame (x0 x1 x2) : ∀ t, (execLeaseRenew x0 x1 x2) = .next t → t.fabric = x2.fabric ∧ t.store = x2.store ∧
    t.tier = x2.tier ∧ t.engines = x2.engines ∧ t.gen = x2.gen ∧ t.text = x2.text ∧ t.flash = x2.flash ∧ t.power = x2.power ∧
    t.limits = x2.limits ∧ t.fuses = x2.fuses ∧ t.shelfSkips = x2.shelfSkips ∧ t.shelfCuts = x2.shelfCuts ∧ t.free = x2.free ∧
    t.pending = x2.pending := by simp [execLeaseRenew]

@[simp] theorem leaseLapse_frame (x0 x1) : (leaseLapse x0 x1).fabric = x0.fabric ∧ (leaseLapse x0 x1).store = x0.store ∧
    (leaseLapse x0 x1).tier = x0.tier ∧ (leaseLapse x0 x1).engines = x0.engines ∧ (leaseLapse x0 x1).gen = x0.gen ∧
    (leaseLapse x0 x1).text = x0.text ∧ (leaseLapse x0 x1).flash = x0.flash ∧ (leaseLapse x0 x1).power = x0.power ∧
    (leaseLapse x0 x1).limits = x0.limits ∧ (leaseLapse x0 x1).fuses = x0.fuses ∧ (leaseLapse x0 x1).shelfSkips = x0.shelfSkips ∧
    (leaseLapse x0 x1).shelfCuts = x0.shelfCuts ∧ (leaseLapse x0 x1).free = x0.free ∧ (leaseLapse x0 x1).pending = x0.pending := by simp [leaseLapse]

theorem execLeaseRenewLapse_frame (x0 x1) : ∀ t, (execLeaseRenewLapse x0 x1) = .next t → t.fabric = x1.fabric ∧ t.store = x1.store ∧
    t.tier = x1.tier ∧ t.engines = x1.engines ∧ t.gen = x1.gen ∧ t.text = x1.text ∧ t.flash = x1.flash ∧ t.power = x1.power ∧
    t.limits = x1.limits ∧ t.fuses = x1.fuses ∧ t.shelfSkips = x1.shelfSkips ∧ t.shelfCuts = x1.shelfCuts ∧ t.free = x1.free ∧
    t.pending = x1.pending := by simp [execLeaseRenewLapse]

@[simp] theorem takeLease_frame (x0 x1 x2 x3) : (takeLease x0 x1 x2 x3).fabric = x0.fabric ∧ (takeLease x0 x1 x2 x3).store = x0.store ∧
    (takeLease x0 x1 x2 x3).tier = x0.tier ∧ (takeLease x0 x1 x2 x3).engines = x0.engines ∧ (takeLease x0 x1 x2 x3).gen = x0.gen ∧
    (takeLease x0 x1 x2 x3).text = x0.text ∧ (takeLease x0 x1 x2 x3).flash = x0.flash ∧ (takeLease x0 x1 x2 x3).power = x0.power ∧
    (takeLease x0 x1 x2 x3).limits = x0.limits ∧ (takeLease x0 x1 x2 x3).fuses = x0.fuses ∧
    (takeLease x0 x1 x2 x3).shelfSkips = x0.shelfSkips ∧ (takeLease x0 x1 x2 x3).shelfCuts = x0.shelfCuts ∧
    (takeLease x0 x1 x2 x3).free = x0.free ∧ (takeLease x0 x1 x2 x3).pending = x0.pending := by simp [takeLease]

@[simp] theorem startRerun_frame (x0 x1 x2 x3) : (startRerun x0 x1 x2 x3).engines = x0.engines ∧ (startRerun x0 x1 x2 x3).flash = x0.flash ∧
    (startRerun x0 x1 x2 x3).power = x0.power ∧ (startRerun x0 x1 x2 x3).limits = x0.limits ∧ (startRerun x0 x1 x2 x3).fuses = x0.fuses ∧
    (startRerun x0 x1 x2 x3).shelfSkips = x0.shelfSkips ∧ (startRerun x0 x1 x2 x3).shelfCuts = x0.shelfCuts ∧
    (startRerun x0 x1 x2 x3).pending = x0.pending := by
  unfold startRerun
  repeat' split
  all_goals ((try simp only [Prod.ext_iff] at *); (try casesm* _ ∧ _); (try subst_vars); first | (simp; done) | (simp_all; done) | skip)

@[simp] theorem rerunTurn_frame (x0 x1 x2) : (rerunTurn x0 x1 x2).engines = x1.engines ∧ (rerunTurn x0 x1 x2).flash = x1.flash ∧
    (rerunTurn x0 x1 x2).power = x1.power ∧ (rerunTurn x0 x1 x2).limits = x1.limits ∧ (rerunTurn x0 x1 x2).fuses = x1.fuses ∧
    (rerunTurn x0 x1 x2).shelfSkips = x1.shelfSkips ∧ (rerunTurn x0 x1 x2).shelfCuts = x1.shelfCuts ∧
    (rerunTurn x0 x1 x2).pending = x1.pending := by simp [rerunTurn]

@[simp] theorem rerunTurns_frame (x0 x1 x2) : (rerunTurns x0 x1 x2).engines = x0.engines ∧ (rerunTurns x0 x1 x2).flash = x0.flash ∧
    (rerunTurns x0 x1 x2).power = x0.power ∧ (rerunTurns x0 x1 x2).limits = x0.limits ∧ (rerunTurns x0 x1 x2).fuses = x0.fuses ∧
    (rerunTurns x0 x1 x2).shelfSkips = x0.shelfSkips ∧ (rerunTurns x0 x1 x2).shelfCuts = x0.shelfCuts ∧
    (rerunTurns x0 x1 x2).pending = x0.pending := by simp [rerunTurns]

@[simp] theorem leaseExpiry_frame (x0 x1 x2 x3) : (leaseExpiry x0 x1 x2 x3).engines = x0.engines ∧
    (leaseExpiry x0 x1 x2 x3).flash = x0.flash ∧ (leaseExpiry x0 x1 x2 x3).power = x0.power ∧ (leaseExpiry x0 x1 x2 x3).limits = x0.limits ∧
    (leaseExpiry x0 x1 x2 x3).fuses = x0.fuses ∧ (leaseExpiry x0 x1 x2 x3).shelfSkips = x0.shelfSkips ∧
    (leaseExpiry x0 x1 x2 x3).shelfCuts = x0.shelfCuts ∧ (leaseExpiry x0 x1 x2 x3).pending = x0.pending := by simp [leaseExpiry]

theorem execLeaseExpiryTake_frame (x0 x1 x2 x3) : ∀ t, (execLeaseExpiryTake x0 x1 x2 x3) = .next t → t.engines = x3.engines ∧
    t.flash = x3.flash ∧ t.power = x3.power ∧ t.limits = x3.limits ∧ t.fuses = x3.fuses ∧ t.shelfSkips = x3.shelfSkips ∧
    t.shelfCuts = x3.shelfCuts ∧ t.pending = x3.pending := by simp [execLeaseExpiryTake]

@[simp] theorem takeOver_frame (x0 x1 x2 x3) : (takeOver x0 x1 x2 x3).engines = x0.engines ∧ (takeOver x0 x1 x2 x3).flash = x0.flash ∧
    (takeOver x0 x1 x2 x3).power = x0.power ∧ (takeOver x0 x1 x2 x3).limits = x0.limits ∧ (takeOver x0 x1 x2 x3).fuses = x0.fuses ∧
    (takeOver x0 x1 x2 x3).shelfSkips = x0.shelfSkips ∧ (takeOver x0 x1 x2 x3).shelfCuts = x0.shelfCuts ∧
    (takeOver x0 x1 x2 x3).pending = x0.pending := by simp [takeOver]

@[simp] theorem relinquish_frame (x0 x1 x2) : (relinquish x0 x1 x2).engines = x0.engines ∧ (relinquish x0 x1 x2).power = x0.power ∧
    (relinquish x0 x1 x2).limits = x0.limits ∧ (relinquish x0 x1 x2).fuses = x0.fuses ∧ (relinquish x0 x1 x2).shelfSkips = x0.shelfSkips ∧
    (relinquish x0 x1 x2).shelfCuts = x0.shelfCuts ∧ (relinquish x0 x1 x2).pending = x0.pending := by simp [relinquish]

theorem execRelinquish_frame (x0 x1 x2 x3) : ∀ t, (execRelinquish x0 x1 x2 x3) = .next t → t.engines = x3.engines ∧ t.power = x3.power ∧
    t.limits = x3.limits ∧ t.fuses = x3.fuses ∧ t.shelfSkips = x3.shelfSkips ∧ t.shelfCuts = x3.shelfCuts ∧ t.pending = x3.pending := by simp [execRelinquish]

@[simp] theorem pairTakeover_frame (x0 x1 x2) : (pairTakeover x0 x1 x2).engines = x0.engines ∧ (pairTakeover x0 x1 x2).power = x0.power ∧
    (pairTakeover x0 x1 x2).limits = x0.limits ∧ (pairTakeover x0 x1 x2).fuses = x0.fuses ∧
    (pairTakeover x0 x1 x2).shelfSkips = x0.shelfSkips ∧ (pairTakeover x0 x1 x2).shelfCuts = x0.shelfCuts ∧
    (pairTakeover x0 x1 x2).pending = x0.pending := by simp [pairTakeover]

@[simp] theorem sendRelinquish_frame (x0) : (sendRelinquish x0).fabric = x0.fabric ∧ (sendRelinquish x0).store = x0.store ∧
    (sendRelinquish x0).tier = x0.tier ∧ (sendRelinquish x0).engines = x0.engines ∧ (sendRelinquish x0).gen = x0.gen ∧
    (sendRelinquish x0).text = x0.text ∧ (sendRelinquish x0).flash = x0.flash ∧ (sendRelinquish x0).bureau = x0.bureau ∧
    (sendRelinquish x0).power = x0.power ∧ (sendRelinquish x0).limits = x0.limits ∧ (sendRelinquish x0).fuses = x0.fuses ∧
    (sendRelinquish x0).shelfSkips = x0.shelfSkips ∧ (sendRelinquish x0).shelfCuts = x0.shelfCuts ∧ (sendRelinquish x0).pending = x0.pending := by simp [sendRelinquish]

@[simp] theorem startHandover_frame (x0 x1 x2) : (startHandover x0 x1 x2).fabric = x1.fabric ∧ (startHandover x0 x1 x2).store = x1.store ∧
    (startHandover x0 x1 x2).tier = x1.tier ∧ (startHandover x0 x1 x2).engines = x1.engines ∧ (startHandover x0 x1 x2).gen = x1.gen ∧
    (startHandover x0 x1 x2).text = x1.text ∧ (startHandover x0 x1 x2).flash = x1.flash ∧ (startHandover x0 x1 x2).power = x1.power ∧
    (startHandover x0 x1 x2).limits = x1.limits ∧ (startHandover x0 x1 x2).fuses = x1.fuses ∧
    (startHandover x0 x1 x2).shelfSkips = x1.shelfSkips ∧ (startHandover x0 x1 x2).shelfCuts = x1.shelfCuts ∧
    (startHandover x0 x1 x2).pending = x1.pending := by simp [startHandover]

@[simp] theorem handover_frame (x0 x1) : (handover x0 x1).fabric = x0.fabric ∧ (handover x0 x1).store = x0.store ∧
    (handover x0 x1).tier = x0.tier ∧ (handover x0 x1).engines = x0.engines ∧ (handover x0 x1).gen = x0.gen ∧
    (handover x0 x1).text = x0.text ∧ (handover x0 x1).flash = x0.flash ∧ (handover x0 x1).power = x0.power ∧
    (handover x0 x1).limits = x0.limits ∧ (handover x0 x1).fuses = x0.fuses ∧ (handover x0 x1).shelfSkips = x0.shelfSkips ∧
    (handover x0 x1).shelfCuts = x0.shelfCuts ∧ (handover x0 x1).free = x0.free ∧ (handover x0 x1).pending = x0.pending := by
  unfold handover
  repeat' split
  all_goals ((try simp only [Prod.ext_iff] at *); (try casesm* _ ∧ _); (try subst_vars); first | (simp; done) | (simp_all; done) | skip)

theorem execHandover_frame (x0 x1) : ∀ t, (execHandover x0 x1) = .next t → t.fabric = x1.fabric ∧ t.store = x1.store ∧ t.tier = x1.tier ∧
    t.engines = x1.engines ∧ t.gen = x1.gen ∧ t.text = x1.text ∧ t.flash = x1.flash ∧ t.power = x1.power ∧ t.limits = x1.limits ∧
    t.fuses = x1.fuses ∧ t.shelfSkips = x1.shelfSkips ∧ t.shelfCuts = x1.shelfCuts ∧ t.free = x1.free ∧ t.pending = x1.pending := by simp [execHandover]

@[simp] theorem failback_frame (x0 x1 x2) : (failback x0 x1 x2).fabric = x0.fabric ∧ (failback x0 x1 x2).store = x0.store ∧
    (failback x0 x1 x2).tier = x0.tier ∧ (failback x0 x1 x2).engines = x0.engines ∧ (failback x0 x1 x2).gen = x0.gen ∧
    (failback x0 x1 x2).text = x0.text ∧ (failback x0 x1 x2).flash = x0.flash ∧ (failback x0 x1 x2).power = x0.power ∧
    (failback x0 x1 x2).limits = x0.limits ∧ (failback x0 x1 x2).fuses = x0.fuses ∧ (failback x0 x1 x2).shelfSkips = x0.shelfSkips ∧
    (failback x0 x1 x2).shelfCuts = x0.shelfCuts ∧ (failback x0 x1 x2).pending = x0.pending := by simp [failback]

theorem execFailbackHandover_frame (x0 x1 x2) : ∀ t, (execFailbackHandover x0 x1 x2) = .next t → t.fabric = x2.fabric ∧ t.store = x2.store ∧
    t.tier = x2.tier ∧ t.engines = x2.engines ∧ t.gen = x2.gen ∧ t.text = x2.text ∧ t.flash = x2.flash ∧ t.power = x2.power ∧
    t.limits = x2.limits ∧ t.fuses = x2.fuses ∧ t.shelfSkips = x2.shelfSkips ∧ t.shelfCuts = x2.shelfCuts ∧ t.pending = x2.pending := by simp [execFailbackHandover]

@[simp] theorem soloClear_frame (x0 x1) : (soloClear x0 x1).engines = x0.engines ∧ (soloClear x0 x1).text = x0.text ∧
    (soloClear x0 x1).power = x0.power ∧ (soloClear x0 x1).limits = x0.limits ∧ (soloClear x0 x1).fuses = x0.fuses ∧
    (soloClear x0 x1).shelfSkips = x0.shelfSkips ∧ (soloClear x0 x1).shelfCuts = x0.shelfCuts ∧ (soloClear x0 x1).pending = x0.pending := by simp [soloClear]

/-! ## Reset -/

@[simp] theorem flushEvents_frame (x0) : (flushEvents x0).fabric = x0.fabric ∧ (flushEvents x0).store = x0.store ∧
    (flushEvents x0).tier = x0.tier ∧ (flushEvents x0).engines = x0.engines ∧ (flushEvents x0).host = x0.host ∧
    (flushEvents x0).gen = x0.gen ∧ (flushEvents x0).text = x0.text ∧ (flushEvents x0).pair = x0.pair ∧ (flushEvents x0).flash = x0.flash ∧
    (flushEvents x0).power = x0.power ∧ (flushEvents x0).limits = x0.limits ∧ (flushEvents x0).fuses = x0.fuses ∧
    (flushEvents x0).shelfSkips = x0.shelfSkips ∧ (flushEvents x0).shelfCuts = x0.shelfCuts ∧ (flushEvents x0).free = x0.free ∧
    (flushEvents x0).pending = x0.pending := by simp [flushEvents]

@[simp] theorem enterRecovery_frame (x0 x1) : (enterRecovery x0 x1).fabric = x0.fabric ∧ (enterRecovery x0 x1).store = x0.store ∧
    (enterRecovery x0 x1).tier = x0.tier ∧ (enterRecovery x0 x1).engines = x0.engines ∧ (enterRecovery x0 x1).gen = x0.gen ∧
    (enterRecovery x0 x1).text = x0.text ∧ (enterRecovery x0 x1).flash = x0.flash ∧ (enterRecovery x0 x1).limits = x0.limits ∧
    (enterRecovery x0 x1).fuses = x0.fuses ∧ (enterRecovery x0 x1).shelfSkips = x0.shelfSkips ∧
    (enterRecovery x0 x1).shelfCuts = x0.shelfCuts ∧ (enterRecovery x0 x1).pending = x0.pending := by simp [enterRecovery]

@[simp] theorem bootBank_frame (x0 x1) : (bootBank x0 x1).fabric = x0.fabric ∧ (bootBank x0 x1).store = x0.store ∧
    (bootBank x0 x1).tier = x0.tier ∧ (bootBank x0 x1).engines = x0.engines ∧ (bootBank x0 x1).host = x0.host ∧
    (bootBank x0 x1).gen = x0.gen ∧ (bootBank x0 x1).text = x0.text ∧ (bootBank x0 x1).pair = x0.pair ∧ (bootBank x0 x1).flash = x0.flash ∧
    (bootBank x0 x1).power = x0.power ∧ (bootBank x0 x1).limits = x0.limits ∧ (bootBank x0 x1).fuses = x0.fuses ∧
    (bootBank x0 x1).shelfSkips = x0.shelfSkips ∧ (bootBank x0 x1).shelfCuts = x0.shelfCuts ∧ (bootBank x0 x1).free = x0.free ∧
    (bootBank x0 x1).pending = x0.pending := by simp [bootBank]

@[simp] theorem stage0_frame (x0) : (stage0 x0).fabric = x0.fabric ∧ (stage0 x0).store = x0.store ∧ (stage0 x0).tier = x0.tier ∧
    (stage0 x0).engines = x0.engines ∧ (stage0 x0).gen = x0.gen ∧ (stage0 x0).text = x0.text ∧ (stage0 x0).flash = x0.flash ∧
    (stage0 x0).limits = x0.limits ∧ (stage0 x0).fuses = x0.fuses ∧ (stage0 x0).shelfSkips = x0.shelfSkips ∧
    (stage0 x0).shelfCuts = x0.shelfCuts ∧ (stage0 x0).pending = x0.pending := by
  simp only [stage0]
  repeat' split
  all_goals ((try simp only [Prod.ext_iff] at *); (try casesm* _ ∧ _); (try subst_vars); (try simp))

@[simp] theorem cancelSequence_frame (x0 x1 x2 x3) : (cancelSequence x0 x1 x2 x3).fabric = x2.fabric ∧
    (cancelSequence x0 x1 x2 x3).tier = x2.tier ∧ (cancelSequence x0 x1 x2 x3).engines = x2.engines ∧
    (cancelSequence x0 x1 x2 x3).text = x2.text ∧ (cancelSequence x0 x1 x2 x3).flash = x2.flash ∧
    (cancelSequence x0 x1 x2 x3).bureau = x2.bureau ∧ (cancelSequence x0 x1 x2 x3).power = x2.power ∧
    (cancelSequence x0 x1 x2 x3).limits = x2.limits ∧ (cancelSequence x0 x1 x2 x3).fuses = x2.fuses ∧
    (cancelSequence x0 x1 x2 x3).shelfSkips = x2.shelfSkips ∧ (cancelSequence x0 x1 x2 x3).shelfCuts = x2.shelfCuts ∧
    (cancelSequence x0 x1 x2 x3).pending = x2.pending := by
  simp only [cancelSequence]
  repeat' split
  all_goals ((try simp only [Prod.ext_iff] at *); (try casesm* _ ∧ _); (try subst_vars); (try simp))

@[simp] theorem cancelForReset_frame (x0 x1 x2) : (cancelForReset x0 x1 x2).engines = x0.engines ∧ (cancelForReset x0 x1 x2).text = x0.text ∧
    (cancelForReset x0 x1 x2).power = x0.power ∧ (cancelForReset x0 x1 x2).limits = x0.limits ∧ (cancelForReset x0 x1 x2).fuses = x0.fuses ∧
    (cancelForReset x0 x1 x2).shelfSkips = x0.shelfSkips ∧ (cancelForReset x0 x1 x2).shelfCuts = x0.shelfCuts ∧
    (cancelForReset x0 x1 x2).pending = x0.pending := by
  unfold cancelForReset
  repeat' split
  all_goals ((try simp only [Prod.ext_iff] at *); (try casesm* _ ∧ _); (try subst_vars); (try simp))

@[simp] theorem cancelFetched_frame (x0) : (cancelFetched x0).fabric = x0.fabric ∧ (cancelFetched x0).store = x0.store ∧
    (cancelFetched x0).tier = x0.tier ∧ (cancelFetched x0).engines = x0.engines ∧ (cancelFetched x0).text = x0.text ∧
    (cancelFetched x0).flash = x0.flash ∧ (cancelFetched x0).bureau = x0.bureau ∧ (cancelFetched x0).power = x0.power ∧
    (cancelFetched x0).limits = x0.limits ∧ (cancelFetched x0).fuses = x0.fuses ∧ (cancelFetched x0).shelfSkips = x0.shelfSkips ∧
    (cancelFetched x0).shelfCuts = x0.shelfCuts ∧ (cancelFetched x0).pending = x0.pending := by simp [cancelFetched]

@[simp] theorem emptyQueues_frame (x0) : (emptyQueues x0).fabric = x0.fabric ∧ (emptyQueues x0).store = x0.store ∧
    (emptyQueues x0).tier = x0.tier ∧ (emptyQueues x0).engines = x0.engines ∧ (emptyQueues x0).host = x0.host ∧
    (emptyQueues x0).text = x0.text ∧ (emptyQueues x0).pair = x0.pair ∧ (emptyQueues x0).flash = x0.flash ∧
    (emptyQueues x0).bureau = x0.bureau ∧ (emptyQueues x0).power = x0.power ∧ (emptyQueues x0).limits = x0.limits ∧
    (emptyQueues x0).fuses = x0.fuses ∧ (emptyQueues x0).shelfSkips = x0.shelfSkips ∧ (emptyQueues x0).shelfCuts = x0.shelfCuts ∧
    (emptyQueues x0).free = x0.free ∧ (emptyQueues x0).pending = x0.pending := by simp [emptyQueues]

@[simp] theorem cancelOutstanding_frame (x0 x1) : ((cancelOutstanding x0 x1)).1.engines = x0.engines ∧
    ((cancelOutstanding x0 x1)).1.text = x0.text ∧ ((cancelOutstanding x0 x1)).1.power = x0.power ∧
    ((cancelOutstanding x0 x1)).1.limits = x0.limits ∧ ((cancelOutstanding x0 x1)).1.fuses = x0.fuses ∧
    ((cancelOutstanding x0 x1)).1.shelfSkips = x0.shelfSkips ∧ ((cancelOutstanding x0 x1)).1.shelfCuts = x0.shelfCuts ∧
    ((cancelOutstanding x0 x1)).1.pending = x0.pending := by simp [cancelOutstanding]

@[simp] theorem resetEngines_frame (x0) : (resetEngines x0).fabric = x0.fabric ∧ (resetEngines x0).store = x0.store ∧
    (resetEngines x0).tier = x0.tier ∧ (resetEngines x0).host = x0.host ∧ (resetEngines x0).pair = x0.pair ∧
    (resetEngines x0).flash = x0.flash ∧ (resetEngines x0).bureau = x0.bureau ∧ (resetEngines x0).power = x0.power ∧
    (resetEngines x0).limits = x0.limits ∧ (resetEngines x0).fuses = x0.fuses ∧ (resetEngines x0).shelfSkips = x0.shelfSkips ∧
    (resetEngines x0).shelfCuts = x0.shelfCuts ∧ (resetEngines x0).free = x0.free ∧ (resetEngines x0).pending = x0.pending := by
  unfold resetEngines
  repeat' split
  all_goals (refine ⟨?_, ?_, ?_, ?_, ?_, ?_, ?_, ?_, ?_, ?_, ?_, ?_, ?_, ?_⟩)
  all_goals (try (first | refine (State.foldl_fabric (fun _ _ => ?_) _ _).trans ?_ | refine (State.foldl_store (fun _ _ => ?_) _ _).trans ?_ | refine (State.foldl_tier (fun _ _ => ?_) _ _).trans ?_ | refine (State.foldl_host (fun _ _ => ?_) _ _).trans ?_ | refine (State.foldl_pair (fun _ _ => ?_) _ _).trans ?_ | refine (State.foldl_flash (fun _ _ => ?_) _ _).trans ?_ | refine (State.foldl_bureau (fun _ _ => ?_) _ _).trans ?_ | refine (State.foldl_power (fun _ _ => ?_) _ _).trans ?_ | refine (State.foldl_limits (fun _ _ => ?_) _ _).trans ?_ | refine (State.foldl_fuses (fun _ _ => ?_) _ _).trans ?_ | refine (State.foldl_shelfSkips (fun _ _ => ?_) _ _).trans ?_ | refine (State.foldl_shelfCuts (fun _ _ => ?_) _ _).trans ?_ | refine (State.foldl_free (fun _ _ => ?_) _ _).trans ?_ | refine (State.foldl_pending (fun _ _ => ?_) _ _).trans ?_ ))
  all_goals (repeat' split)
  all_goals ((try simp only [Prod.ext_iff] at *); (try casesm* _ ∧ _); (try subst_vars); first | (simp; done) | (simp_all; done) | skip)

@[simp] theorem discardNew_frame (x0 x1 x2) : (discardNew x0 x1 x2).fabric = x0.fabric ∧ (discardNew x0 x1 x2).engines = x0.engines ∧
    (discardNew x0 x1 x2).gen = x0.gen ∧ (discardNew x0 x1 x2).text = x0.text ∧ (discardNew x0 x1 x2).pair = x0.pair ∧
    (discardNew x0 x1 x2).flash = x0.flash ∧ (discardNew x0 x1 x2).power = x0.power ∧ (discardNew x0 x1 x2).limits = x0.limits ∧
    (discardNew x0 x1 x2).fuses = x0.fuses ∧ (discardNew x0 x1 x2).shelfSkips = x0.shelfSkips ∧
    (discardNew x0 x1 x2).shelfCuts = x0.shelfCuts ∧ (discardNew x0 x1 x2).free = x0.free ∧ (discardNew x0 x1 x2).pending = x0.pending := by simp [discardNew]

@[simp] theorem resumeRo_frame (x0 x1 x2) : (resumeRo x0 x1 x2).engines = x0.engines ∧ (resumeRo x0 x1 x2).text = x0.text ∧
    (resumeRo x0 x1 x2).pair = x0.pair ∧ (resumeRo x0 x1 x2).flash = x0.flash ∧ (resumeRo x0 x1 x2).power = x0.power ∧
    (resumeRo x0 x1 x2).limits = x0.limits ∧ (resumeRo x0 x1 x2).fuses = x0.fuses ∧ (resumeRo x0 x1 x2).shelfSkips = x0.shelfSkips ∧
    (resumeRo x0 x1 x2).shelfCuts = x0.shelfCuts ∧ (resumeRo x0 x1 x2).free = x0.free ∧ (resumeRo x0 x1 x2).pending = x0.pending := by simp [resumeRo]

@[simp] theorem finishMigration_frame (x0 x1) : (finishMigration x0 x1).engines = x0.engines ∧ (finishMigration x0 x1).text = x0.text ∧
    (finishMigration x0 x1).pair = x0.pair ∧ (finishMigration x0 x1).flash = x0.flash ∧ (finishMigration x0 x1).power = x0.power ∧
    (finishMigration x0 x1).limits = x0.limits ∧ (finishMigration x0 x1).fuses = x0.fuses ∧
    (finishMigration x0 x1).shelfSkips = x0.shelfSkips ∧ (finishMigration x0 x1).shelfCuts = x0.shelfCuts ∧
    (finishMigration x0 x1).free = x0.free ∧ (finishMigration x0 x1).pending = x0.pending := by unfold finishMigration; split <;> simp

@[simp] theorem compareDirty_frame (x0 x1) : (compareDirty x0 x1).fabric = x0.fabric ∧ (compareDirty x0 x1).store = x0.store ∧
    (compareDirty x0 x1).engines = x0.engines ∧ (compareDirty x0 x1).gen = x0.gen ∧ (compareDirty x0 x1).text = x0.text ∧
    (compareDirty x0 x1).pair = x0.pair ∧ (compareDirty x0 x1).flash = x0.flash ∧ (compareDirty x0 x1).power = x0.power ∧
    (compareDirty x0 x1).limits = x0.limits ∧ (compareDirty x0 x1).fuses = x0.fuses ∧ (compareDirty x0 x1).shelfSkips = x0.shelfSkips ∧
    (compareDirty x0 x1).shelfCuts = x0.shelfCuts ∧ (compareDirty x0 x1).free = x0.free ∧ (compareDirty x0 x1).pending = x0.pending := by unfold compareDirty; split <;> simp

@[simp] theorem resetTiers_frame (x0) : (resetTiers x0).engines = x0.engines ∧ (resetTiers x0).text = x0.text ∧
    (resetTiers x0).pair = x0.pair ∧ (resetTiers x0).flash = x0.flash ∧ (resetTiers x0).power = x0.power ∧
    (resetTiers x0).limits = x0.limits ∧ (resetTiers x0).fuses = x0.fuses ∧ (resetTiers x0).shelfSkips = x0.shelfSkips ∧
    (resetTiers x0).shelfCuts = x0.shelfCuts ∧ (resetTiers x0).free = x0.free ∧ (resetTiers x0).pending = x0.pending := by simp [resetTiers]

@[simp] theorem mapRows_frame (x0) : (mapRows x0).fabric = x0.fabric ∧ (mapRows x0).tier = x0.tier ∧ (mapRows x0).engines = x0.engines ∧
    (mapRows x0).gen = x0.gen ∧ (mapRows x0).text = x0.text ∧ (mapRows x0).pair = x0.pair ∧ (mapRows x0).flash = x0.flash ∧
    (mapRows x0).power = x0.power ∧ (mapRows x0).limits = x0.limits ∧ (mapRows x0).fuses = x0.fuses ∧
    (mapRows x0).shelfSkips = x0.shelfSkips ∧ (mapRows x0).shelfCuts = x0.shelfCuts ∧ (mapRows x0).free = x0.free ∧
    (mapRows x0).pending = x0.pending := by simp [mapRows]

@[simp] theorem quiesceMedia_frame (x0) : (quiesceMedia x0).fabric = x0.fabric ∧ (quiesceMedia x0).store = x0.store ∧
    (quiesceMedia x0).tier = x0.tier ∧ (quiesceMedia x0).engines = x0.engines ∧ (quiesceMedia x0).text = x0.text ∧
    (quiesceMedia x0).power = x0.power ∧ (quiesceMedia x0).limits = x0.limits ∧ (quiesceMedia x0).fuses = x0.fuses ∧
    (quiesceMedia x0).shelfSkips = x0.shelfSkips ∧ (quiesceMedia x0).shelfCuts = x0.shelfCuts ∧ (quiesceMedia x0).pending = x0.pending := by simp [quiesceMedia]

@[simp] theorem resetBureau_frame (x0) : (resetBureau x0).fabric = x0.fabric ∧ (resetBureau x0).store = x0.store ∧
    (resetBureau x0).tier = x0.tier ∧ (resetBureau x0).engines = x0.engines ∧ (resetBureau x0).host = x0.host ∧
    (resetBureau x0).gen = x0.gen ∧ (resetBureau x0).text = x0.text ∧ (resetBureau x0).pair = x0.pair ∧ (resetBureau x0).flash = x0.flash ∧
    (resetBureau x0).power = x0.power ∧ (resetBureau x0).fuses = x0.fuses ∧ (resetBureau x0).shelfSkips = x0.shelfSkips ∧
    (resetBureau x0).shelfCuts = x0.shelfCuts ∧ (resetBureau x0).free = x0.free ∧ (resetBureau x0).pending = x0.pending := by simp [resetBureau]

@[simp] theorem linkDownForReset_frame (x0) : (linkDownForReset x0).engines = x0.engines ∧ (linkDownForReset x0).text = x0.text ∧
    (linkDownForReset x0).power = x0.power ∧ (linkDownForReset x0).limits = x0.limits ∧ (linkDownForReset x0).fuses = x0.fuses ∧
    (linkDownForReset x0).shelfSkips = x0.shelfSkips ∧ (linkDownForReset x0).shelfCuts = x0.shelfCuts ∧
    (linkDownForReset x0).pending = x0.pending := by simp [linkDownForReset]

@[simp] theorem warmReset_frame (x0 x1) : (warmReset x0 x1).fuses = x0.fuses ∧ (warmReset x0 x1).shelfSkips = x0.shelfSkips ∧
    (warmReset x0 x1).shelfCuts = x0.shelfCuts ∧ (warmReset x0 x1).pending = x0.pending := by simp [warmReset]

theorem execWarmReset_frame (x0 x1) : ∀ t, (execWarmReset x0 x1) = .next t → t.fuses = x1.fuses ∧ t.shelfSkips = x1.shelfSkips ∧
    t.shelfCuts = x1.shelfCuts ∧ t.pending = x1.pending := by simp [execWarmReset]

end Sys2Proof.Machine
end

