-- ==== Sys2Proof/Laws/FrameSystem.lean ====
section
/-! SUPPORT. Frames of the operations and meanings of power, the Bureau, firmware and registers: the parts of the state that each leaves as they are. -/

set_option linter.unusedSimpArgs false
set_option linter.unusedTactic false
set_option linter.unreachableTactic false
set_option linter.unnecessarySeqFocus false
set_option linter.unusedVariables false

namespace Sys2Proof.Machine

/-! ## Power -/

@[simp] theorem releaseDies_frame (x0 x1) : (releaseDies x0 x1).store = x0.store ∧ (releaseDies x0 x1).tier = x0.tier ∧
    (releaseDies x0 x1).engines = x0.engines ∧ (releaseDies x0 x1).host = x0.host ∧ (releaseDies x0 x1).gen = x0.gen ∧
    (releaseDies x0 x1).text = x0.text ∧ (releaseDies x0 x1).pair = x0.pair ∧ (releaseDies x0 x1).flash = x0.flash ∧
    (releaseDies x0 x1).bureau = x0.bureau ∧ (releaseDies x0 x1).power = x0.power ∧ (releaseDies x0 x1).limits = x0.limits ∧
    (releaseDies x0 x1).fuses = x0.fuses ∧ (releaseDies x0 x1).shelfSkips = x0.shelfSkips ∧ (releaseDies x0 x1).shelfCuts = x0.shelfCuts ∧
    (releaseDies x0 x1).free = x0.free ∧ (releaseDies x0 x1).pending = x0.pending := by simp [releaseDies]

@[simp] theorem startChain_frame (x0) : (startChain x0).store = x0.store ∧ (startChain x0).tier = x0.tier ∧
    (startChain x0).engines = x0.engines ∧ (startChain x0).host = x0.host ∧ (startChain x0).gen = x0.gen ∧ (startChain x0).text = x0.text ∧
    (startChain x0).pair = x0.pair ∧ (startChain x0).flash = x0.flash ∧ (startChain x0).bureau = x0.bureau ∧
    (startChain x0).limits = x0.limits ∧ (startChain x0).fuses = x0.fuses ∧ (startChain x0).shelfSkips = x0.shelfSkips ∧
    (startChain x0).shelfCuts = x0.shelfCuts ∧ (startChain x0).free = x0.free ∧ (startChain x0).pending = x0.pending := by simp [startChain]

@[simp] theorem domainUp_frame (x0) : (domainUp x0).store = x0.store ∧ (domainUp x0).tier = x0.tier ∧ (domainUp x0).engines = x0.engines ∧
    (domainUp x0).gen = x0.gen ∧ (domainUp x0).text = x0.text ∧ (domainUp x0).flash = x0.flash ∧ (domainUp x0).limits = x0.limits ∧
    (domainUp x0).fuses = x0.fuses ∧ (domainUp x0).shelfSkips = x0.shelfSkips ∧ (domainUp x0).shelfCuts = x0.shelfCuts ∧
    (domainUp x0).pending = x0.pending := by
  unfold domainUp
  repeat' split
  all_goals ((try simp only [Prod.ext_iff] at *); (try casesm* _ ∧ _); (try subst_vars); (try simp))

theorem execDomainPowerUp_frame (x0) : ∀ t, (execDomainPowerUp x0) = .next t → t.store = x0.store ∧ t.tier = x0.tier ∧
    t.engines = x0.engines ∧ t.gen = x0.gen ∧ t.text = x0.text ∧ t.flash = x0.flash ∧ t.limits = x0.limits ∧ t.fuses = x0.fuses ∧
    t.shelfSkips = x0.shelfSkips ∧ t.shelfCuts = x0.shelfCuts ∧ t.pending = x0.pending := by simp [execDomainPowerUp]

theorem execPinConfigure_frame (x0) : ∀ t, (execPinConfigure x0) = .next t → t.fabric = x0.fabric ∧ t.store = x0.store ∧ t.tier = x0.tier ∧
    t.engines = x0.engines ∧ t.host = x0.host ∧ t.gen = x0.gen ∧ t.text = x0.text ∧ t.pair = x0.pair ∧ t.flash = x0.flash ∧
    t.bureau = x0.bureau ∧ t.limits = x0.limits ∧ t.fuses = x0.fuses ∧ t.shelfSkips = x0.shelfSkips ∧ t.shelfCuts = x0.shelfCuts ∧
    t.free = x0.free ∧ t.pending = x0.pending := by simp [execPinConfigure]

@[simp] theorem perstRelease_frame (x0) : (perstRelease x0).fabric = x0.fabric ∧ (perstRelease x0).store = x0.store ∧
    (perstRelease x0).tier = x0.tier ∧ (perstRelease x0).engines = x0.engines ∧ (perstRelease x0).host = x0.host ∧
    (perstRelease x0).gen = x0.gen ∧ (perstRelease x0).text = x0.text ∧ (perstRelease x0).pair = x0.pair ∧
    (perstRelease x0).flash = x0.flash ∧ (perstRelease x0).limits = x0.limits ∧ (perstRelease x0).fuses = x0.fuses ∧
    (perstRelease x0).shelfSkips = x0.shelfSkips ∧ (perstRelease x0).shelfCuts = x0.shelfCuts ∧ (perstRelease x0).free = x0.free ∧
    (perstRelease x0).pending = x0.pending := by simp [perstRelease]

theorem execBureauPerstRelease_frame (x0) : ∀ t, (execBureauPerstRelease x0) = .next t → t.fabric = x0.fabric ∧ t.store = x0.store ∧
    t.tier = x0.tier ∧ t.engines = x0.engines ∧ t.host = x0.host ∧ t.gen = x0.gen ∧ t.text = x0.text ∧ t.pair = x0.pair ∧ t.flash = x0.flash ∧
    t.limits = x0.limits ∧ t.fuses = x0.fuses ∧ t.shelfSkips = x0.shelfSkips ∧ t.shelfCuts = x0.shelfCuts ∧ t.free = x0.free ∧
    t.pending = x0.pending := by simp [execBureauPerstRelease]

@[simp] theorem perstDeassert_frame (x0) : (perstDeassert x0).store = x0.store ∧ (perstDeassert x0).tier = x0.tier ∧
    (perstDeassert x0).engines = x0.engines ∧ (perstDeassert x0).host = x0.host ∧ (perstDeassert x0).gen = x0.gen ∧
    (perstDeassert x0).text = x0.text ∧ (perstDeassert x0).pair = x0.pair ∧ (perstDeassert x0).flash = x0.flash ∧
    (perstDeassert x0).bureau = x0.bureau ∧ (perstDeassert x0).limits = x0.limits ∧ (perstDeassert x0).fuses = x0.fuses ∧
    (perstDeassert x0).shelfSkips = x0.shelfSkips ∧ (perstDeassert x0).shelfCuts = x0.shelfCuts ∧ (perstDeassert x0).free = x0.free ∧
    (perstDeassert x0).pending = x0.pending := by simp [perstDeassert]

theorem execHostPerstNDeassert_frame (x0) : ∀ t, (execHostPerstNDeassert x0) = .next t → t.store = x0.store ∧ t.tier = x0.tier ∧
    t.engines = x0.engines ∧ t.host = x0.host ∧ t.gen = x0.gen ∧ t.text = x0.text ∧ t.pair = x0.pair ∧ t.flash = x0.flash ∧
    t.bureau = x0.bureau ∧ t.limits = x0.limits ∧ t.fuses = x0.fuses ∧ t.shelfSkips = x0.shelfSkips ∧ t.shelfCuts = x0.shelfCuts ∧
    t.free = x0.free ∧ t.pending = x0.pending := by simp [execHostPerstNDeassert]

@[simp] theorem readParameters_frame (x0 x1) : (readParameters x0 x1).fabric = x0.fabric ∧ (readParameters x0 x1).store = x0.store ∧
    (readParameters x0 x1).tier = x0.tier ∧ (readParameters x0 x1).engines = x0.engines ∧ (readParameters x0 x1).gen = x0.gen ∧
    (readParameters x0 x1).text = x0.text ∧ (readParameters x0 x1).pair = x0.pair ∧ (readParameters x0 x1).power = x0.power ∧
    (readParameters x0 x1).limits = x0.limits ∧ (readParameters x0 x1).fuses = x0.fuses ∧ (readParameters x0 x1).shelfSkips = x0.shelfSkips ∧
    (readParameters x0 x1).shelfCuts = x0.shelfCuts ∧ (readParameters x0 x1).free = x0.free ∧ (readParameters x0 x1).pending = x0.pending := by simp [readParameters]

@[simp] theorem refillCopy_frame (x0 x1) : (refillCopy x0 x1).fabric = x0.fabric ∧ (refillCopy x0 x1).store = x0.store ∧
    (refillCopy x0 x1).engines = x0.engines ∧ (refillCopy x0 x1).host = x0.host ∧ (refillCopy x0 x1).gen = x0.gen ∧
    (refillCopy x0 x1).text = x0.text ∧ (refillCopy x0 x1).pair = x0.pair ∧ (refillCopy x0 x1).flash = x0.flash ∧
    (refillCopy x0 x1).bureau = x0.bureau ∧ (refillCopy x0 x1).power = x0.power ∧ (refillCopy x0 x1).limits = x0.limits ∧
    (refillCopy x0 x1).fuses = x0.fuses ∧ (refillCopy x0 x1).shelfSkips = x0.shelfSkips ∧ (refillCopy x0 x1).shelfCuts = x0.shelfCuts ∧
    (refillCopy x0 x1).free = x0.free ∧ (refillCopy x0 x1).pending = x0.pending := by
  simp only [refillCopy]
  split
  · simp
  · split
    · simp
    · refine ⟨?_, ?_, ?_, ?_, ?_, ?_, ?_, ?_, ?_, ?_, ?_, ?_, ?_, ?_, ?_, ?_⟩
      · refine State.foldl_fabric (fun s t => ?_) _ _
        split <;> simp only [putL_frame]
      · refine State.foldl_store (fun s t => ?_) _ _
        split <;> simp only [putL_frame]
      · refine State.foldl_engines (fun s t => ?_) _ _
        split <;> simp only [putL_frame]
      · refine State.foldl_host (fun s t => ?_) _ _
        split <;> simp only [putL_frame]
      · refine State.foldl_gen (fun s t => ?_) _ _
        split <;> simp only [putL_frame]
      · refine State.foldl_text (fun s t => ?_) _ _
        split <;> simp only [putL_frame]
      · refine State.foldl_pair (fun s t => ?_) _ _
        split <;> simp only [putL_frame]
      · refine State.foldl_flash (fun s t => ?_) _ _
        split <;> simp only [putL_frame]
      · refine State.foldl_bureau (fun s t => ?_) _ _
        split <;> simp only [putL_frame]
      · refine State.foldl_power (fun s t => ?_) _ _
        split <;> simp only [putL_frame]
      · refine State.foldl_limits (fun s t => ?_) _ _
        split <;> simp only [putL_frame]
      · refine State.foldl_fuses (fun s t => ?_) _ _
        split <;> simp only [putL_frame]
      · refine State.foldl_shelfSkips (fun s t => ?_) _ _
        split <;> simp only [putL_frame]
      · refine State.foldl_shelfCuts (fun s t => ?_) _ _
        split <;> simp only [putL_frame]
      · refine State.foldl_free (fun s t => ?_) _ _
        split <;> simp only [putL_frame]
      · refine State.foldl_pending (fun s t => ?_) _ _
        split <;> simp only [putL_frame]

@[simp] theorem refillCopies_frame (x0) : (refillCopies x0).fabric = x0.fabric ∧ (refillCopies x0).store = x0.store ∧
    (refillCopies x0).engines = x0.engines ∧ (refillCopies x0).host = x0.host ∧ (refillCopies x0).gen = x0.gen ∧
    (refillCopies x0).text = x0.text ∧ (refillCopies x0).pair = x0.pair ∧ (refillCopies x0).flash = x0.flash ∧
    (refillCopies x0).bureau = x0.bureau ∧ (refillCopies x0).power = x0.power ∧ (refillCopies x0).limits = x0.limits ∧
    (refillCopies x0).fuses = x0.fuses ∧ (refillCopies x0).shelfSkips = x0.shelfSkips ∧ (refillCopies x0).shelfCuts = x0.shelfCuts ∧
    (refillCopies x0).free = x0.free ∧ (refillCopies x0).pending = x0.pending := by simp [refillCopies]

@[simp] theorem selfTest_frame (x0 x1 x2) : (selfTest x0 x1 x2).fabric = x1.fabric ∧ (selfTest x0 x1 x2).store = x1.store ∧
    (selfTest x0 x1 x2).tier = x1.tier ∧ (selfTest x0 x1 x2).text = x1.text ∧ (selfTest x0 x1 x2).pair = x1.pair ∧
    (selfTest x0 x1 x2).flash = x1.flash ∧ (selfTest x0 x1 x2).power = x1.power ∧ (selfTest x0 x1 x2).limits = x1.limits ∧
    (selfTest x0 x1 x2).fuses = x1.fuses ∧ (selfTest x0 x1 x2).shelfSkips = x1.shelfSkips ∧ (selfTest x0 x1 x2).shelfCuts = x1.shelfCuts ∧
    (selfTest x0 x1 x2).pending = x1.pending := by
  simp only [selfTest]
  repeat' split
  all_goals ((try simp only [Prod.ext_iff] at *); (try casesm* _ ∧ _); (try subst_vars); (try simp))

@[simp] theorem releaseEngines_frame (x0 x1) : (releaseEngines x0 x1).text = x0.text ∧ (releaseEngines x0 x1).flash = x0.flash ∧
    (releaseEngines x0 x1).power = x0.power ∧ (releaseEngines x0 x1).limits = x0.limits ∧ (releaseEngines x0 x1).fuses = x0.fuses ∧
    (releaseEngines x0 x1).shelfSkips = x0.shelfSkips ∧ (releaseEngines x0 x1).shelfCuts = x0.shelfCuts ∧
    (releaseEngines x0 x1).pending = x0.pending := by simp [releaseEngines]

@[simp] theorem recheckSets_frame (x0) : (recheckSets x0).fabric = x0.fabric ∧ (recheckSets x0).store = x0.store ∧
    (recheckSets x0).engines = x0.engines ∧ (recheckSets x0).gen = x0.gen ∧ (recheckSets x0).flash = x0.flash ∧
    (recheckSets x0).power = x0.power ∧ (recheckSets x0).limits = x0.limits ∧ (recheckSets x0).fuses = x0.fuses ∧
    (recheckSets x0).shelfSkips = x0.shelfSkips ∧ (recheckSets x0).shelfCuts = x0.shelfCuts ∧
    (recheckSets x0).pending = x0.pending := by simp [recheckSets]

@[simp] theorem chainEffect_frame (x0 x1 x2) : (chainEffect x0 x1 x2).flash = x0.flash ∧
    (chainEffect x0 x1 x2).limits = x0.limits ∧ (chainEffect x0 x1 x2).fuses = x0.fuses ∧ (chainEffect x0 x1 x2).shelfSkips = x0.shelfSkips ∧
    (chainEffect x0 x1 x2).shelfCuts = x0.shelfCuts ∧ (chainEffect x0 x1 x2).pending = x0.pending := by unfold chainEffect; split <;> simp

@[simp] theorem chainStart_frame (x0 x1 x2) : (chainStart x0 x1 x2).tier = x0.tier ∧ (chainStart x0 x1 x2).engines = x0.engines ∧
    (chainStart x0 x1 x2).text = x0.text ∧ (chainStart x0 x1 x2).pair = x0.pair ∧ (chainStart x0 x1 x2).power = x0.power ∧
    (chainStart x0 x1 x2).limits = x0.limits ∧ (chainStart x0 x1 x2).fuses = x0.fuses ∧ (chainStart x0 x1 x2).shelfSkips = x0.shelfSkips ∧
    (chainStart x0 x1 x2).shelfCuts = x0.shelfCuts ∧ (chainStart x0 x1 x2).pending = x0.pending := by unfold chainStart; split <;> simp

@[simp] theorem chainStep_frame (x0 x1) : (chainStep x0 x1).limits = x0.limits ∧
    (chainStep x0 x1).fuses = x0.fuses ∧ (chainStep x0 x1).shelfSkips = x0.shelfSkips ∧ (chainStep x0 x1).shelfCuts = x0.shelfCuts ∧
    (chainStep x0 x1).pending = x0.pending := by
  simp only [chainStep]
  repeat' split
  all_goals ((try simp only [Prod.ext_iff] at *); (try casesm* _ ∧ _); (try subst_vars); (try simp))

theorem execReleaseChainStep_frame (x0 x1) : ∀ t, (execReleaseChainStep x0 x1) = .next t → t.limits = x1.limits ∧
    t.fuses = x1.fuses ∧ t.shelfSkips = x1.shelfSkips ∧ t.shelfCuts = x1.shelfCuts ∧ t.pending = x1.pending := by simp [execReleaseChainStep]

@[simp] theorem noteInput_frame (x0 x1) : (noteInput x0 x1).fabric = x0.fabric ∧ (noteInput x0 x1).store = x0.store ∧
    (noteInput x0 x1).tier = x0.tier ∧ (noteInput x0 x1).engines = x0.engines ∧ (noteInput x0 x1).host = x0.host ∧
    (noteInput x0 x1).gen = x0.gen ∧ (noteInput x0 x1).text = x0.text ∧ (noteInput x0 x1).pair = x0.pair ∧
    (noteInput x0 x1).flash = x0.flash ∧ (noteInput x0 x1).bureau = x0.bureau ∧ (noteInput x0 x1).limits = x0.limits ∧
    (noteInput x0 x1).fuses = x0.fuses ∧ (noteInput x0 x1).shelfSkips = x0.shelfSkips ∧ (noteInput x0 x1).shelfCuts = x0.shelfCuts ∧
    (noteInput x0 x1).free = x0.free ∧ (noteInput x0 x1).pending = x0.pending := by simp [noteInput]

theorem execInputLow_frame (x0 x1 x2) : ∀ t, (execInputLow x0 x1 x2) = .next t → t.fabric = x2.fabric ∧ t.store = x2.store ∧
    t.tier = x2.tier ∧ t.engines = x2.engines ∧ t.gen = x2.gen ∧ t.text = x2.text ∧ t.pair = x2.pair ∧ t.flash = x2.flash ∧
    t.limits = x2.limits ∧ t.fuses = x2.fuses ∧ t.shelfSkips = x2.shelfSkips ∧ t.shelfCuts = x2.shelfCuts ∧ t.free = x2.free ∧
    t.pending = x2.pending := by simp [execInputLow]

theorem execInputHigh_frame (x0 x1 x2) : ∀ t, (execInputHigh x0 x1 x2) = .next t → t.fabric = x2.fabric ∧ t.store = x2.store ∧
    t.tier = x2.tier ∧ t.engines = x2.engines ∧ t.gen = x2.gen ∧ t.text = x2.text ∧ t.pair = x2.pair ∧ t.flash = x2.flash ∧
    t.limits = x2.limits ∧ t.fuses = x2.fuses ∧ t.shelfSkips = x2.shelfSkips ∧ t.shelfCuts = x2.shelfCuts ∧ t.free = x2.free ∧
    t.pending = x2.pending := by simp [execInputHigh]

theorem execOvervoltageStop_frame (x0 x1) : ∀ t, (execOvervoltageStop x0 x1) = .next t → t.fabric = x1.fabric ∧ t.store = x1.store ∧
    t.tier = x1.tier ∧ t.engines = x1.engines ∧ t.host = x1.host ∧ t.gen = x1.gen ∧ t.text = x1.text ∧ t.pair = x1.pair ∧ t.flash = x1.flash ∧
    t.bureau = x1.bureau ∧ t.limits = x1.limits ∧ t.fuses = x1.fuses ∧ t.shelfSkips = x1.shelfSkips ∧ t.shelfCuts = x1.shelfCuts ∧
    t.free = x1.free ∧ t.pending = x1.pending := by simp [execOvervoltageStop]

@[simp] theorem flushAll_frame (x0 x1 x2) : (flushAll x0 x1 x2).fabric = x0.fabric ∧ (flushAll x0 x1 x2).store = x0.store ∧
    (flushAll x0 x1 x2).tier = x0.tier ∧ (flushAll x0 x1 x2).engines = x0.engines ∧ (flushAll x0 x1 x2).text = x0.text ∧
    (flushAll x0 x1 x2).power = x0.power ∧ (flushAll x0 x1 x2).limits = x0.limits ∧ (flushAll x0 x1 x2).fuses = x0.fuses ∧
    (flushAll x0 x1 x2).shelfSkips = x0.shelfSkips ∧ (flushAll x0 x1 x2).shelfCuts = x0.shelfCuts ∧ (flushAll x0 x1 x2).pending = x0.pending := by simp [flushAll]

theorem execHoldupArmed_frame (x0 x1 x2) : ∀ t, (execHoldupArmed x0 x1 x2) = .next t → t.fabric = x2.fabric ∧ t.store = x2.store ∧
    t.tier = x2.tier ∧ t.engines = x2.engines ∧ t.gen = x2.gen ∧ t.text = x2.text ∧ t.pair = x2.pair ∧ t.flash = x2.flash ∧
    t.limits = x2.limits ∧ t.fuses = x2.fuses ∧ t.shelfSkips = x2.shelfSkips ∧ t.shelfCuts = x2.shelfCuts ∧ t.free = x2.free ∧
    t.pending = x2.pending := by simp [execHoldupArmed]

@[simp] theorem moduleFails_frame (x0) : (moduleFails x0).fabric = x0.fabric ∧ (moduleFails x0).store = x0.store ∧
    (moduleFails x0).tier = x0.tier ∧ (moduleFails x0).engines = x0.engines ∧ (moduleFails x0).gen = x0.gen ∧
    (moduleFails x0).text = x0.text ∧ (moduleFails x0).flash = x0.flash ∧ (moduleFails x0).bureau = x0.bureau ∧
    (moduleFails x0).power = x0.power ∧ (moduleFails x0).limits = x0.limits ∧ (moduleFails x0).fuses = x0.fuses ∧
    (moduleFails x0).shelfSkips = x0.shelfSkips ∧ (moduleFails x0).shelfCuts = x0.shelfCuts ∧ (moduleFails x0).pending = x0.pending := by simp [moduleFails]

@[simp] theorem linkFailed_frame (x0 x1) : (linkFailed x0 x1).fuses = x0.fuses ∧ (linkFailed x0 x1).shelfSkips = x0.shelfSkips ∧
    (linkFailed x0 x1).shelfCuts = x0.shelfCuts ∧ (linkFailed x0 x1).pending = x0.pending := by simp [linkFailed]

theorem execLinkFailed_frame (x0 x1) : ∀ t, (execLinkFailed x0 x1) = .next t → t.fuses = x1.fuses ∧ t.shelfSkips = x1.shelfSkips ∧
    t.shelfCuts = x1.shelfCuts ∧ t.pending = x1.pending := by simp [execLinkFailed]

@[simp] theorem quiesceTimeout_frame (x0 x1) : (quiesceTimeout x0 x1).store = x0.store ∧ (quiesceTimeout x0 x1).tier = x0.tier ∧
    (quiesceTimeout x0 x1).text = x0.text ∧ (quiesceTimeout x0 x1).pair = x0.pair ∧ (quiesceTimeout x0 x1).flash = x0.flash ∧
    (quiesceTimeout x0 x1).power = x0.power ∧ (quiesceTimeout x0 x1).limits = x0.limits ∧ (quiesceTimeout x0 x1).fuses = x0.fuses ∧
    (quiesceTimeout x0 x1).shelfSkips = x0.shelfSkips ∧ (quiesceTimeout x0 x1).shelfCuts = x0.shelfCuts ∧
    (quiesceTimeout x0 x1).pending = x0.pending := by
  unfold quiesceTimeout
  repeat' split
  all_goals ((try simp only [Prod.ext_iff] at *); (try casesm* _ ∧ _); (try subst_vars); (try simp))

theorem execQuiesceTimeout_frame (x0 x1) : ∀ t, (execQuiesceTimeout x0 x1) = .next t → t.store = x1.store ∧ t.tier = x1.tier ∧
    t.text = x1.text ∧ t.pair = x1.pair ∧ t.flash = x1.flash ∧ t.power = x1.power ∧ t.limits = x1.limits ∧ t.fuses = x1.fuses ∧
    t.shelfSkips = x1.shelfSkips ∧ t.shelfCuts = x1.shelfCuts ∧ t.pending = x1.pending := by simp [execQuiesceTimeout]

/-! ## Bureau -/

@[simp] theorem setIc_frame (x0 x1 x2) : (setIc x0 x1 x2).fabric = x0.fabric ∧ (setIc x0 x1 x2).store = x0.store ∧
    (setIc x0 x1 x2).tier = x0.tier ∧ (setIc x0 x1 x2).engines = x0.engines ∧ (setIc x0 x1 x2).host = x0.host ∧
    (setIc x0 x1 x2).gen = x0.gen ∧ (setIc x0 x1 x2).text = x0.text ∧ (setIc x0 x1 x2).pair = x0.pair ∧ (setIc x0 x1 x2).flash = x0.flash ∧
    (setIc x0 x1 x2).power = x0.power ∧ (setIc x0 x1 x2).limits = x0.limits ∧ (setIc x0 x1 x2).fuses = x0.fuses ∧
    (setIc x0 x1 x2).shelfSkips = x0.shelfSkips ∧ (setIc x0 x1 x2).shelfCuts = x0.shelfCuts ∧ (setIc x0 x1 x2).free = x0.free ∧
    (setIc x0 x1 x2).pending = x0.pending := by simp [setIc]

@[simp] theorem setLatch_frame (x0 x1 x2) : (setLatch x0 x1 x2).fabric = x0.fabric ∧ (setLatch x0 x1 x2).store = x0.store ∧
    (setLatch x0 x1 x2).tier = x0.tier ∧ (setLatch x0 x1 x2).engines = x0.engines ∧ (setLatch x0 x1 x2).host = x0.host ∧
    (setLatch x0 x1 x2).gen = x0.gen ∧ (setLatch x0 x1 x2).text = x0.text ∧ (setLatch x0 x1 x2).pair = x0.pair ∧
    (setLatch x0 x1 x2).flash = x0.flash ∧ (setLatch x0 x1 x2).power = x0.power ∧ (setLatch x0 x1 x2).limits = x0.limits ∧
    (setLatch x0 x1 x2).fuses = x0.fuses ∧ (setLatch x0 x1 x2).shelfSkips = x0.shelfSkips ∧ (setLatch x0 x1 x2).shelfCuts = x0.shelfCuts ∧
    (setLatch x0 x1 x2).free = x0.free ∧ (setLatch x0 x1 x2).pending = x0.pending := by simp [setLatch]

@[simp] theorem sourceFiltered_frame (x0 x1 x2) : (sourceFiltered x0 x1 x2).fabric = x0.fabric ∧ (sourceFiltered x0 x1 x2).store = x0.store ∧
    (sourceFiltered x0 x1 x2).tier = x0.tier ∧ (sourceFiltered x0 x1 x2).engines = x0.engines ∧ (sourceFiltered x0 x1 x2).host = x0.host ∧
    (sourceFiltered x0 x1 x2).gen = x0.gen ∧ (sourceFiltered x0 x1 x2).text = x0.text ∧ (sourceFiltered x0 x1 x2).pair = x0.pair ∧
    (sourceFiltered x0 x1 x2).flash = x0.flash ∧ (sourceFiltered x0 x1 x2).power = x0.power ∧ (sourceFiltered x0 x1 x2).limits = x0.limits ∧
    (sourceFiltered x0 x1 x2).fuses = x0.fuses ∧ (sourceFiltered x0 x1 x2).shelfSkips = x0.shelfSkips ∧
    (sourceFiltered x0 x1 x2).shelfCuts = x0.shelfCuts ∧ (sourceFiltered x0 x1 x2).free = x0.free ∧
    (sourceFiltered x0 x1 x2).pending = x0.pending := by simp [sourceFiltered]

theorem execIcSourceFiltered_frame (x0 x1 x2) : ∀ t, (execIcSourceFiltered x0 x1 x2) = .next t → t.fabric = x2.fabric ∧ t.store = x2.store ∧
    t.tier = x2.tier ∧ t.engines = x2.engines ∧ t.host = x2.host ∧ t.gen = x2.gen ∧ t.text = x2.text ∧ t.pair = x2.pair ∧ t.flash = x2.flash ∧
    t.power = x2.power ∧ t.limits = x2.limits ∧ t.fuses = x2.fuses ∧ t.shelfSkips = x2.shelfSkips ∧ t.shelfCuts = x2.shelfCuts ∧
    t.free = x2.free ∧ t.pending = x2.pending := by simp [execIcSourceFiltered]

@[simp] theorem claimRead_frame (x0 x1) : (claimRead x0 x1).fabric = x0.fabric ∧ (claimRead x0 x1).store = x0.store ∧
    (claimRead x0 x1).tier = x0.tier ∧ (claimRead x0 x1).engines = x0.engines ∧ (claimRead x0 x1).host = x0.host ∧
    (claimRead x0 x1).gen = x0.gen ∧ (claimRead x0 x1).text = x0.text ∧ (claimRead x0 x1).pair = x0.pair ∧
    (claimRead x0 x1).flash = x0.flash ∧ (claimRead x0 x1).power = x0.power ∧ (claimRead x0 x1).limits = x0.limits ∧
    (claimRead x0 x1).fuses = x0.fuses ∧ (claimRead x0 x1).shelfSkips = x0.shelfSkips ∧ (claimRead x0 x1).shelfCuts = x0.shelfCuts ∧
    (claimRead x0 x1).free = x0.free ∧ (claimRead x0 x1).pending = x0.pending := by unfold claimRead; split <;> simp

theorem execIcClaimRead_frame (x0 x1) : ∀ t, (execIcClaimRead x0 x1) = .next t → t.fabric = x1.fabric ∧ t.store = x1.store ∧
    t.tier = x1.tier ∧ t.engines = x1.engines ∧ t.host = x1.host ∧ t.gen = x1.gen ∧ t.text = x1.text ∧ t.pair = x1.pair ∧ t.flash = x1.flash ∧
    t.power = x1.power ∧ t.limits = x1.limits ∧ t.fuses = x1.fuses ∧ t.shelfSkips = x1.shelfSkips ∧ t.shelfCuts = x1.shelfCuts ∧
    t.free = x1.free ∧ t.pending = x1.pending := by simp [execIcClaimRead]

@[simp] theorem icComplete_frame (x0 x1 x2) : (icComplete x0 x1 x2).fabric = x0.fabric ∧ (icComplete x0 x1 x2).store = x0.store ∧
    (icComplete x0 x1 x2).tier = x0.tier ∧ (icComplete x0 x1 x2).engines = x0.engines ∧ (icComplete x0 x1 x2).host = x0.host ∧
    (icComplete x0 x1 x2).gen = x0.gen ∧ (icComplete x0 x1 x2).text = x0.text ∧ (icComplete x0 x1 x2).pair = x0.pair ∧
    (icComplete x0 x1 x2).flash = x0.flash ∧ (icComplete x0 x1 x2).power = x0.power ∧ (icComplete x0 x1 x2).limits = x0.limits ∧
    (icComplete x0 x1 x2).fuses = x0.fuses ∧ (icComplete x0 x1 x2).shelfSkips = x0.shelfSkips ∧
    (icComplete x0 x1 x2).shelfCuts = x0.shelfCuts ∧ (icComplete x0 x1 x2).free = x0.free ∧ (icComplete x0 x1 x2).pending = x0.pending := by simp [icComplete]

theorem execIcComplete_frame (x0 x1 x2) : ∀ t, (execIcComplete x0 x1 x2) = .next t → t.fabric = x2.fabric ∧ t.store = x2.store ∧
    t.tier = x2.tier ∧ t.engines = x2.engines ∧ t.host = x2.host ∧ t.gen = x2.gen ∧ t.text = x2.text ∧ t.pair = x2.pair ∧ t.flash = x2.flash ∧
    t.power = x2.power ∧ t.limits = x2.limits ∧ t.fuses = x2.fuses ∧ t.shelfSkips = x2.shelfSkips ∧ t.shelfCuts = x2.shelfCuts ∧
    t.free = x2.free ∧ t.pending = x2.pending := by simp [execIcComplete]

@[simp] theorem writeSource_frame (x0 x1 x2) : (writeSource x0 x1 x2).fabric = x0.fabric ∧ (writeSource x0 x1 x2).store = x0.store ∧
    (writeSource x0 x1 x2).tier = x0.tier ∧ (writeSource x0 x1 x2).engines = x0.engines ∧ (writeSource x0 x1 x2).host = x0.host ∧
    (writeSource x0 x1 x2).gen = x0.gen ∧ (writeSource x0 x1 x2).text = x0.text ∧ (writeSource x0 x1 x2).pair = x0.pair ∧
    (writeSource x0 x1 x2).flash = x0.flash ∧ (writeSource x0 x1 x2).power = x0.power ∧ (writeSource x0 x1 x2).limits = x0.limits ∧
    (writeSource x0 x1 x2).fuses = x0.fuses ∧ (writeSource x0 x1 x2).shelfSkips = x0.shelfSkips ∧
    (writeSource x0 x1 x2).shelfCuts = x0.shelfCuts ∧ (writeSource x0 x1 x2).free = x0.free ∧ (writeSource x0 x1 x2).pending = x0.pending := by simp [writeSource]

@[simp] theorem writeEdge_frame (x0 x1 x2 x3) : (writeEdge x0 x1 x2 x3).fabric = x0.fabric ∧ (writeEdge x0 x1 x2 x3).store = x0.store ∧
    (writeEdge x0 x1 x2 x3).tier = x0.tier ∧ (writeEdge x0 x1 x2 x3).engines = x0.engines ∧ (writeEdge x0 x1 x2 x3).host = x0.host ∧
    (writeEdge x0 x1 x2 x3).gen = x0.gen ∧ (writeEdge x0 x1 x2 x3).text = x0.text ∧ (writeEdge x0 x1 x2 x3).pair = x0.pair ∧
    (writeEdge x0 x1 x2 x3).flash = x0.flash ∧ (writeEdge x0 x1 x2 x3).power = x0.power ∧ (writeEdge x0 x1 x2 x3).limits = x0.limits ∧
    (writeEdge x0 x1 x2 x3).fuses = x0.fuses ∧ (writeEdge x0 x1 x2 x3).shelfSkips = x0.shelfSkips ∧
    (writeEdge x0 x1 x2 x3).shelfCuts = x0.shelfCuts ∧ (writeEdge x0 x1 x2 x3).free = x0.free ∧ (writeEdge x0 x1 x2 x3).pending = x0.pending := by simp [writeEdge]

@[simp] theorem writeIc_frame (x0 x1 x2 x3) : (writeIc x0 x1 x2 x3).fabric = x0.fabric ∧ (writeIc x0 x1 x2 x3).store = x0.store ∧
    (writeIc x0 x1 x2 x3).tier = x0.tier ∧ (writeIc x0 x1 x2 x3).engines = x0.engines ∧ (writeIc x0 x1 x2 x3).host = x0.host ∧
    (writeIc x0 x1 x2 x3).gen = x0.gen ∧ (writeIc x0 x1 x2 x3).text = x0.text ∧ (writeIc x0 x1 x2 x3).pair = x0.pair ∧
    (writeIc x0 x1 x2 x3).flash = x0.flash ∧ (writeIc x0 x1 x2 x3).power = x0.power ∧ (writeIc x0 x1 x2 x3).limits = x0.limits ∧
    (writeIc x0 x1 x2 x3).fuses = x0.fuses ∧ (writeIc x0 x1 x2 x3).shelfSkips = x0.shelfSkips ∧
    (writeIc x0 x1 x2 x3).shelfCuts = x0.shelfCuts ∧ (writeIc x0 x1 x2 x3).free = x0.free ∧ (writeIc x0 x1 x2 x3).pending = x0.pending := by simp [writeIc]

@[simp] theorem watchdogTwo_frame (x0 x1) : (watchdogTwo x0 x1).fuses = x0.fuses ∧ (watchdogTwo x0 x1).shelfSkips = x0.shelfSkips ∧
    (watchdogTwo x0 x1).shelfCuts = x0.shelfCuts ∧ (watchdogTwo x0 x1).pending = x0.pending := by simp [watchdogTwo]

@[simp] theorem watchdogOne_frame (x0 x1) : (watchdogOne x0 x1).fuses = x0.fuses ∧ (watchdogOne x0 x1).shelfSkips = x0.shelfSkips ∧
    (watchdogOne x0 x1).shelfCuts = x0.shelfCuts ∧ (watchdogOne x0 x1).pending = x0.pending := by simp [watchdogOne]

theorem execWatchdogStage1_frame (x0 x1) : ∀ t, (execWatchdogStage1 x0 x1) = .next t → t.fuses = x1.fuses ∧ t.shelfSkips = x1.shelfSkips ∧
    t.shelfCuts = x1.shelfCuts ∧ t.pending = x1.pending := by simp [execWatchdogStage1]

@[simp] theorem watchdogLate_frame (x0 x1) : (watchdogLate x0 x1).fuses = x0.fuses ∧ (watchdogLate x0 x1).shelfSkips = x0.shelfSkips ∧
    (watchdogLate x0 x1).shelfCuts = x0.shelfCuts ∧ (watchdogLate x0 x1).pending = x0.pending := by unfold watchdogLate; split <;> simp

theorem execWatchdogStage2_frame (x0 x1) : ∀ t, (execWatchdogStage2 x0 x1) = .next t → t.fuses = x1.fuses ∧ t.shelfSkips = x1.shelfSkips ∧
    t.shelfCuts = x1.shelfCuts ∧ t.pending = x1.pending := by simp [execWatchdogStage2]

@[simp] theorem worldMapWrite_frame (x0 x1 x2) : (worldMapWrite x0 x1 x2).fabric = x0.fabric ∧ (worldMapWrite x0 x1 x2).store = x0.store ∧
    (worldMapWrite x0 x1 x2).tier = x0.tier ∧ (worldMapWrite x0 x1 x2).gen = x0.gen ∧ (worldMapWrite x0 x1 x2).pair = x0.pair ∧
    (worldMapWrite x0 x1 x2).flash = x0.flash ∧ (worldMapWrite x0 x1 x2).power = x0.power ∧ (worldMapWrite x0 x1 x2).limits = x0.limits ∧
    (worldMapWrite x0 x1 x2).fuses = x0.fuses ∧ (worldMapWrite x0 x1 x2).shelfSkips = x0.shelfSkips ∧
    (worldMapWrite x0 x1 x2).shelfCuts = x0.shelfCuts ∧ (worldMapWrite x0 x1 x2).free = x0.free ∧
    (worldMapWrite x0 x1 x2).pending = x0.pending := by
  unfold worldMapWrite
  repeat' split
  all_goals ((try simp only [Prod.ext_iff] at *); (try casesm* _ ∧ _); (try subst_vars); (try simp))

theorem execWorldMapWrite_frame (x0 x1 x2) : ∀ t, (execWorldMapWrite x0 x1 x2) = .next t → t.fabric = x2.fabric ∧ t.store = x2.store ∧
    t.tier = x2.tier ∧ t.gen = x2.gen ∧ t.pair = x2.pair ∧ t.flash = x2.flash ∧ t.power = x2.power ∧ t.limits = x2.limits ∧
    t.fuses = x2.fuses ∧ t.shelfSkips = x2.shelfSkips ∧ t.shelfCuts = x2.shelfCuts ∧ t.free = x2.free ∧ t.pending = x2.pending := by simp [execWorldMapWrite]

@[simp] theorem noteCond_frame (x0 x1 x2) : (noteCond x0 x1 x2).fabric = x2.fabric ∧ (noteCond x0 x1 x2).store = x2.store ∧
    (noteCond x0 x1 x2).tier = x2.tier ∧ (noteCond x0 x1 x2).engines = x2.engines ∧ (noteCond x0 x1 x2).host = x2.host ∧
    (noteCond x0 x1 x2).gen = x2.gen ∧ (noteCond x0 x1 x2).text = x2.text ∧ (noteCond x0 x1 x2).pair = x2.pair ∧
    (noteCond x0 x1 x2).flash = x2.flash ∧ (noteCond x0 x1 x2).power = x2.power ∧ (noteCond x0 x1 x2).limits = x2.limits ∧
    (noteCond x0 x1 x2).fuses = x2.fuses ∧ (noteCond x0 x1 x2).shelfSkips = x2.shelfSkips ∧ (noteCond x0 x1 x2).shelfCuts = x2.shelfCuts ∧
    (noteCond x0 x1 x2).free = x2.free ∧ (noteCond x0 x1 x2).pending = x2.pending := by simp [noteCond]

@[simp] theorem condAgain_frame (x0 x1) : (condAgain x0 x1).fabric = x0.fabric ∧ (condAgain x0 x1).store = x0.store ∧
    (condAgain x0 x1).tier = x0.tier ∧ (condAgain x0 x1).engines = x0.engines ∧ (condAgain x0 x1).host = x0.host ∧
    (condAgain x0 x1).gen = x0.gen ∧ (condAgain x0 x1).text = x0.text ∧ (condAgain x0 x1).pair = x0.pair ∧
    (condAgain x0 x1).flash = x0.flash ∧ (condAgain x0 x1).power = x0.power ∧ (condAgain x0 x1).limits = x0.limits ∧
    (condAgain x0 x1).fuses = x0.fuses ∧ (condAgain x0 x1).shelfSkips = x0.shelfSkips ∧ (condAgain x0 x1).shelfCuts = x0.shelfCuts ∧
    (condAgain x0 x1).free = x0.free ∧ (condAgain x0 x1).pending = x0.pending := by simp [condAgain]

@[simp] theorem takeReadings_frame (x0 x1) : (takeReadings x0 x1).fabric = x0.fabric ∧ (takeReadings x0 x1).store = x0.store ∧
    (takeReadings x0 x1).tier = x0.tier ∧ (takeReadings x0 x1).engines = x0.engines ∧ (takeReadings x0 x1).host = x0.host ∧
    (takeReadings x0 x1).gen = x0.gen ∧ (takeReadings x0 x1).text = x0.text ∧ (takeReadings x0 x1).pair = x0.pair ∧
    (takeReadings x0 x1).flash = x0.flash ∧ (takeReadings x0 x1).limits = x0.limits ∧ (takeReadings x0 x1).fuses = x0.fuses ∧
    (takeReadings x0 x1).shelfSkips = x0.shelfSkips ∧ (takeReadings x0 x1).shelfCuts = x0.shelfCuts ∧ (takeReadings x0 x1).free = x0.free ∧
    (takeReadings x0 x1).pending = x0.pending := by simp [takeReadings]

@[simp] theorem stepCapCut_frame (x0 x1) : (stepCapCut x0 x1).fabric = x0.fabric ∧ (stepCapCut x0 x1).store = x0.store ∧
    (stepCapCut x0 x1).tier = x0.tier ∧ (stepCapCut x0 x1).engines = x0.engines ∧ (stepCapCut x0 x1).host = x0.host ∧
    (stepCapCut x0 x1).gen = x0.gen ∧ (stepCapCut x0 x1).text = x0.text ∧ (stepCapCut x0 x1).pair = x0.pair ∧
    (stepCapCut x0 x1).flash = x0.flash ∧ (stepCapCut x0 x1).power = x0.power ∧ (stepCapCut x0 x1).limits = x0.limits ∧
    (stepCapCut x0 x1).fuses = x0.fuses ∧ (stepCapCut x0 x1).shelfSkips = x0.shelfSkips ∧ (stepCapCut x0 x1).shelfCuts = x0.shelfCuts ∧
    (stepCapCut x0 x1).free = x0.free ∧ (stepCapCut x0 x1).pending = x0.pending := by simp [stepCapCut]

@[simp] theorem stepMemHot_frame (x0) : (stepMemHot x0).fabric = x0.fabric ∧ (stepMemHot x0).store = x0.store ∧
    (stepMemHot x0).tier = x0.tier ∧ (stepMemHot x0).engines = x0.engines ∧ (stepMemHot x0).host = x0.host ∧ (stepMemHot x0).gen = x0.gen ∧
    (stepMemHot x0).text = x0.text ∧ (stepMemHot x0).pair = x0.pair ∧ (stepMemHot x0).flash = x0.flash ∧ (stepMemHot x0).power = x0.power ∧
    (stepMemHot x0).limits = x0.limits ∧ (stepMemHot x0).fuses = x0.fuses ∧ (stepMemHot x0).shelfSkips = x0.shelfSkips ∧
    (stepMemHot x0).shelfCuts = x0.shelfCuts ∧ (stepMemHot x0).free = x0.free ∧ (stepMemHot x0).pending = x0.pending := by simp [stepMemHot]

@[simp] theorem loopDomain_frame (x0 x1) : (loopDomain x0 x1).fabric = x0.fabric ∧ (loopDomain x0 x1).store = x0.store ∧
    (loopDomain x0 x1).tier = x0.tier ∧ (loopDomain x0 x1).engines = x0.engines ∧ (loopDomain x0 x1).host = x0.host ∧
    (loopDomain x0 x1).gen = x0.gen ∧ (loopDomain x0 x1).text = x0.text ∧ (loopDomain x0 x1).pair = x0.pair ∧
    (loopDomain x0 x1).flash = x0.flash ∧ (loopDomain x0 x1).power = x0.power ∧ (loopDomain x0 x1).limits = x0.limits ∧
    (loopDomain x0 x1).fuses = x0.fuses ∧ (loopDomain x0 x1).shelfSkips = x0.shelfSkips ∧ (loopDomain x0 x1).shelfCuts = x0.shelfCuts ∧
    (loopDomain x0 x1).free = x0.free ∧ (loopDomain x0 x1).pending = x0.pending := by simp [loopDomain]

@[simp] theorem controlLoop_frame (x0 x1) : (controlLoop x0 x1).fabric = x0.fabric ∧ (controlLoop x0 x1).store = x0.store ∧
    (controlLoop x0 x1).tier = x0.tier ∧ (controlLoop x0 x1).engines = x0.engines ∧ (controlLoop x0 x1).host = x0.host ∧
    (controlLoop x0 x1).gen = x0.gen ∧ (controlLoop x0 x1).text = x0.text ∧ (controlLoop x0 x1).pair = x0.pair ∧
    (controlLoop x0 x1).flash = x0.flash ∧ (controlLoop x0 x1).limits = x0.limits ∧ (controlLoop x0 x1).fuses = x0.fuses ∧
    (controlLoop x0 x1).shelfSkips = x0.shelfSkips ∧ (controlLoop x0 x1).shelfCuts = x0.shelfCuts ∧ (controlLoop x0 x1).free = x0.free ∧
    (controlLoop x0 x1).pending = x0.pending := by simp [controlLoop]

theorem execControlLoopTick_frame (x0 x1) : ∀ t, (execControlLoopTick x0 x1) = .next t → t.fabric = x1.fabric ∧ t.store = x1.store ∧
    t.tier = x1.tier ∧ t.engines = x1.engines ∧ t.host = x1.host ∧ t.gen = x1.gen ∧ t.text = x1.text ∧ t.pair = x1.pair ∧ t.flash = x1.flash ∧
    t.limits = x1.limits ∧ t.fuses = x1.fuses ∧ t.shelfSkips = x1.shelfSkips ∧ t.shelfCuts = x1.shelfCuts ∧ t.free = x1.free ∧
    t.pending = x1.pending := by simp [execControlLoopTick]

@[simp] theorem powerCapUnmet_frame (x0 x1) : (powerCapUnmet x0 x1).fabric = x0.fabric ∧ (powerCapUnmet x0 x1).store = x0.store ∧
    (powerCapUnmet x0 x1).tier = x0.tier ∧ (powerCapUnmet x0 x1).engines = x0.engines ∧ (powerCapUnmet x0 x1).gen = x0.gen ∧
    (powerCapUnmet x0 x1).text = x0.text ∧ (powerCapUnmet x0 x1).pair = x0.pair ∧ (powerCapUnmet x0 x1).flash = x0.flash ∧
    (powerCapUnmet x0 x1).power = x0.power ∧ (powerCapUnmet x0 x1).limits = x0.limits ∧ (powerCapUnmet x0 x1).fuses = x0.fuses ∧
    (powerCapUnmet x0 x1).shelfSkips = x0.shelfSkips ∧ (powerCapUnmet x0 x1).shelfCuts = x0.shelfCuts ∧ (powerCapUnmet x0 x1).free = x0.free ∧
    (powerCapUnmet x0 x1).pending = x0.pending := by simp [powerCapUnmet]

theorem execPowerCapUnmet_frame (x0 x1) : ∀ t, (execPowerCapUnmet x0 x1) = .next t → t.fabric = x1.fabric ∧ t.store = x1.store ∧
    t.tier = x1.tier ∧ t.engines = x1.engines ∧ t.gen = x1.gen ∧ t.text = x1.text ∧ t.pair = x1.pair ∧ t.flash = x1.flash ∧
    t.power = x1.power ∧ t.limits = x1.limits ∧ t.fuses = x1.fuses ∧ t.shelfSkips = x1.shelfSkips ∧ t.shelfCuts = x1.shelfCuts ∧
    t.free = x1.free ∧ t.pending = x1.pending := by simp [execPowerCapUnmet]

@[simp] theorem thermalLimit_frame (x0 x1 x2) : (thermalLimit x0 x1 x2).fabric = x0.fabric ∧ (thermalLimit x0 x1 x2).store = x0.store ∧
    (thermalLimit x0 x1 x2).tier = x0.tier ∧ (thermalLimit x0 x1 x2).engines = x0.engines ∧ (thermalLimit x0 x1 x2).gen = x0.gen ∧
    (thermalLimit x0 x1 x2).text = x0.text ∧ (thermalLimit x0 x1 x2).pair = x0.pair ∧ (thermalLimit x0 x1 x2).flash = x0.flash ∧
    (thermalLimit x0 x1 x2).power = x0.power ∧ (thermalLimit x0 x1 x2).limits = x0.limits ∧ (thermalLimit x0 x1 x2).fuses = x0.fuses ∧
    (thermalLimit x0 x1 x2).shelfSkips = x0.shelfSkips ∧ (thermalLimit x0 x1 x2).shelfCuts = x0.shelfCuts ∧
    (thermalLimit x0 x1 x2).free = x0.free ∧ (thermalLimit x0 x1 x2).pending = x0.pending := by simp [thermalLimit]

theorem execThermalLimit_frame (x0 x1 x2) : ∀ t, (execThermalLimit x0 x1 x2) = .next t → t.fabric = x2.fabric ∧ t.store = x2.store ∧
    t.tier = x2.tier ∧ t.engines = x2.engines ∧ t.gen = x2.gen ∧ t.text = x2.text ∧ t.pair = x2.pair ∧ t.flash = x2.flash ∧
    t.power = x2.power ∧ t.limits = x2.limits ∧ t.fuses = x2.fuses ∧ t.shelfSkips = x2.shelfSkips ∧ t.shelfCuts = x2.shelfCuts ∧
    t.free = x2.free ∧ t.pending = x2.pending := by simp [execThermalLimit]

@[simp] theorem boardSample_frame (x0 x1) : (boardSample x0 x1).fabric = x0.fabric ∧ (boardSample x0 x1).store = x0.store ∧
    (boardSample x0 x1).tier = x0.tier ∧ (boardSample x0 x1).engines = x0.engines ∧ (boardSample x0 x1).gen = x0.gen ∧
    (boardSample x0 x1).text = x0.text ∧ (boardSample x0 x1).pair = x0.pair ∧ (boardSample x0 x1).flash = x0.flash ∧
    (boardSample x0 x1).power = x0.power ∧ (boardSample x0 x1).limits = x0.limits ∧ (boardSample x0 x1).fuses = x0.fuses ∧
    (boardSample x0 x1).shelfSkips = x0.shelfSkips ∧ (boardSample x0 x1).shelfCuts = x0.shelfCuts ∧ (boardSample x0 x1).free = x0.free ∧
    (boardSample x0 x1).pending = x0.pending := by simp [boardSample]

theorem execBoardSensorSample_frame (x0 x1) : ∀ t, (execBoardSensorSample x0 x1) = .next t → t.fabric = x1.fabric ∧ t.store = x1.store ∧
    t.tier = x1.tier ∧ t.engines = x1.engines ∧ t.gen = x1.gen ∧ t.text = x1.text ∧ t.pair = x1.pair ∧ t.flash = x1.flash ∧
    t.power = x1.power ∧ t.limits = x1.limits ∧ t.fuses = x1.fuses ∧ t.shelfSkips = x1.shelfSkips ∧ t.shelfCuts = x1.shelfCuts ∧
    t.free = x1.free ∧ t.pending = x1.pending := by simp [execBoardSensorSample]

@[simp] theorem tokenRefill_frame (x0 x1) : (tokenRefill x0 x1).fabric = x0.fabric ∧ (tokenRefill x0 x1).store = x0.store ∧
    (tokenRefill x0 x1).tier = x0.tier ∧ (tokenRefill x0 x1).engines = x0.engines ∧ (tokenRefill x0 x1).gen = x0.gen ∧
    (tokenRefill x0 x1).text = x0.text ∧ (tokenRefill x0 x1).pair = x0.pair ∧ (tokenRefill x0 x1).flash = x0.flash ∧
    (tokenRefill x0 x1).power = x0.power ∧ (tokenRefill x0 x1).limits = x0.limits ∧ (tokenRefill x0 x1).fuses = x0.fuses ∧
    (tokenRefill x0 x1).shelfSkips = x0.shelfSkips ∧ (tokenRefill x0 x1).shelfCuts = x0.shelfCuts ∧ (tokenRefill x0 x1).free = x0.free ∧
    (tokenRefill x0 x1).pending = x0.pending := by simp [tokenRefill]

theorem execEventTokenRefill_frame (x0 x1) : ∀ t, (execEventTokenRefill x0 x1) = .next t → t.fabric = x1.fabric ∧ t.store = x1.store ∧
    t.tier = x1.tier ∧ t.engines = x1.engines ∧ t.gen = x1.gen ∧ t.text = x1.text ∧ t.pair = x1.pair ∧ t.flash = x1.flash ∧
    t.power = x1.power ∧ t.limits = x1.limits ∧ t.fuses = x1.fuses ∧ t.shelfSkips = x1.shelfSkips ∧ t.shelfCuts = x1.shelfCuts ∧
    t.free = x1.free ∧ t.pending = x1.pending := by simp [execEventTokenRefill]

theorem execEventStageFlush_frame (x0) : ∀ t, (execEventStageFlush x0) = .next t → t.fabric = x0.fabric ∧ t.store = x0.store ∧
    t.tier = x0.tier ∧ t.engines = x0.engines ∧ t.host = x0.host ∧ t.gen = x0.gen ∧ t.text = x0.text ∧ t.pair = x0.pair ∧ t.flash = x0.flash ∧
    t.power = x0.power ∧ t.limits = x0.limits ∧ t.fuses = x0.fuses ∧ t.shelfSkips = x0.shelfSkips ∧ t.shelfCuts = x0.shelfCuts ∧
    t.free = x0.free ∧ t.pending = x0.pending := by simp [execEventStageFlush]

/-! ## Mailbox -/

@[simp] theorem putData_frame (x0 x1) : (putData x0 x1).fabric = x0.fabric ∧ (putData x0 x1).store = x0.store ∧
    (putData x0 x1).tier = x0.tier ∧ (putData x0 x1).engines = x0.engines ∧ (putData x0 x1).host = x0.host ∧ (putData x0 x1).gen = x0.gen ∧
    (putData x0 x1).text = x0.text ∧ (putData x0 x1).pair = x0.pair ∧ (putData x0 x1).flash = x0.flash ∧ (putData x0 x1).power = x0.power ∧
    (putData x0 x1).limits = x0.limits ∧ (putData x0 x1).fuses = x0.fuses ∧ (putData x0 x1).shelfSkips = x0.shelfSkips ∧
    (putData x0 x1).shelfCuts = x0.shelfCuts ∧ (putData x0 x1).free = x0.free ∧ (putData x0 x1).pending = x0.pending := by simp [putData]

@[simp] theorem reply_frame (x0 x1 x2 x3 x4) : (reply x0 x1 x2 x3 x4).fabric = x0.fabric ∧ (reply x0 x1 x2 x3 x4).store = x0.store ∧
    (reply x0 x1 x2 x3 x4).tier = x0.tier ∧ (reply x0 x1 x2 x3 x4).engines = x0.engines ∧ (reply x0 x1 x2 x3 x4).gen = x0.gen ∧
    (reply x0 x1 x2 x3 x4).text = x0.text ∧ (reply x0 x1 x2 x3 x4).pair = x0.pair ∧ (reply x0 x1 x2 x3 x4).flash = x0.flash ∧
    (reply x0 x1 x2 x3 x4).power = x0.power ∧ (reply x0 x1 x2 x3 x4).limits = x0.limits ∧ (reply x0 x1 x2 x3 x4).fuses = x0.fuses ∧
    (reply x0 x1 x2 x3 x4).shelfSkips = x0.shelfSkips ∧ (reply x0 x1 x2 x3 x4).shelfCuts = x0.shelfCuts ∧
    (reply x0 x1 x2 x3 x4).free = x0.free ∧ (reply x0 x1 x2 x3 x4).pending = x0.pending := by simp [reply]

@[simp] theorem command_frame (x0 x1 x2) : ((∀ y0, (((x2 y0)).1).fabric = (y0).fabric) → (command x0 x1 x2).fabric = x0.fabric) ∧
    ((∀ y0, (((x2 y0)).1).store = (y0).store) → (command x0 x1 x2).store = x0.store) ∧
    ((∀ y0, (((x2 y0)).1).tier = (y0).tier) → (command x0 x1 x2).tier = x0.tier) ∧
    ((∀ y0, (((x2 y0)).1).engines = (y0).engines) → (command x0 x1 x2).engines = x0.engines) ∧
    ((∀ y0, (((x2 y0)).1).gen = (y0).gen) → (command x0 x1 x2).gen = x0.gen) ∧
    ((∀ y0, (((x2 y0)).1).text = (y0).text) → (command x0 x1 x2).text = x0.text) ∧
    ((∀ y0, (((x2 y0)).1).pair = (y0).pair) → (command x0 x1 x2).pair = x0.pair) ∧
    ((∀ y0, (((x2 y0)).1).flash = (y0).flash) → (command x0 x1 x2).flash = x0.flash) ∧
    ((∀ y0, (((x2 y0)).1).power = (y0).power) → (command x0 x1 x2).power = x0.power) ∧
    ((∀ y0, (((x2 y0)).1).limits = (y0).limits) → (command x0 x1 x2).limits = x0.limits) ∧
    ((∀ y0, (((x2 y0)).1).fuses = (y0).fuses) → (command x0 x1 x2).fuses = x0.fuses) ∧
    ((∀ y0, (((x2 y0)).1).shelfSkips = (y0).shelfSkips) → (command x0 x1 x2).shelfSkips = x0.shelfSkips) ∧
    ((∀ y0, (((x2 y0)).1).shelfCuts = (y0).shelfCuts) → (command x0 x1 x2).shelfCuts = x0.shelfCuts) ∧
    ((∀ y0, (((x2 y0)).1).free = (y0).free) → (command x0 x1 x2).free = x0.free) ∧
    ((∀ y0, (((x2 y0)).1).pending = (y0).pending) → (command x0 x1 x2).pending = x0.pending) := by
  refine ⟨fun h0 => ?_, fun h0 => ?_, fun h0 => ?_, fun h0 => ?_, fun h0 => ?_, fun h0 => ?_, fun h0 => ?_, fun h0 => ?_, fun h0 => ?_, fun h0 => ?_, fun h0 => ?_, fun h0 => ?_, fun h0 => ?_, fun h0 => ?_, fun h0 => ?_⟩
  all_goals unfold command
  all_goals (repeat' split)
  all_goals ((try simp only [Prod.ext_iff] at *); (try casesm* _ ∧ _); (try subst_vars); first | (simp [h0]; done) | (simp_all; done) | skip)

@[simp] theorem replyBusy_frame (x0 x1 x2) : (replyBusy x0 x1 x2).fabric = x0.fabric ∧ (replyBusy x0 x1 x2).store = x0.store ∧
    (replyBusy x0 x1 x2).tier = x0.tier ∧ (replyBusy x0 x1 x2).engines = x0.engines ∧ (replyBusy x0 x1 x2).gen = x0.gen ∧
    (replyBusy x0 x1 x2).text = x0.text ∧ (replyBusy x0 x1 x2).pair = x0.pair ∧ (replyBusy x0 x1 x2).flash = x0.flash ∧
    (replyBusy x0 x1 x2).power = x0.power ∧ (replyBusy x0 x1 x2).limits = x0.limits ∧ (replyBusy x0 x1 x2).fuses = x0.fuses ∧
    (replyBusy x0 x1 x2).shelfSkips = x0.shelfSkips ∧ (replyBusy x0 x1 x2).shelfCuts = x0.shelfCuts ∧
    (replyBusy x0 x1 x2).pending = x0.pending := by simp [replyBusy]

@[simp] theorem mapExtent_frame (x0 x1 x2) : ((mapExtent x0 x1 x2)).1.fabric = x0.fabric ∧ ((mapExtent x0 x1 x2)).1.store = x0.store ∧
    ((mapExtent x0 x1 x2)).1.engines = x0.engines ∧ ((mapExtent x0 x1 x2)).1.host = x0.host ∧ ((mapExtent x0 x1 x2)).1.gen = x0.gen ∧
    ((mapExtent x0 x1 x2)).1.text = x0.text ∧ ((mapExtent x0 x1 x2)).1.pair = x0.pair ∧ ((mapExtent x0 x1 x2)).1.flash = x0.flash ∧
    ((mapExtent x0 x1 x2)).1.bureau = x0.bureau ∧ ((mapExtent x0 x1 x2)).1.power = x0.power ∧ ((mapExtent x0 x1 x2)).1.limits = x0.limits ∧
    ((mapExtent x0 x1 x2)).1.fuses = x0.fuses ∧ ((mapExtent x0 x1 x2)).1.shelfSkips = x0.shelfSkips ∧
    ((mapExtent x0 x1 x2)).1.shelfCuts = x0.shelfCuts ∧ ((mapExtent x0 x1 x2)).1.free = x0.free ∧
    ((mapExtent x0 x1 x2)).1.pending = x0.pending := by
  unfold mapExtent
  repeat' split
  all_goals ((try simp only [Prod.ext_iff] at *); (try casesm* _ ∧ _); (try subst_vars); (try simp))

theorem execExtentMap_frame (x0 x1 x2) : ∀ t, (execExtentMap x0 x1 x2) = .next t → t.fabric = x2.fabric ∧ t.store = x2.store ∧
    t.engines = x2.engines ∧ t.gen = x2.gen ∧ t.text = x2.text ∧ t.pair = x2.pair ∧ t.flash = x2.flash ∧ t.power = x2.power ∧
    t.limits = x2.limits ∧ t.fuses = x2.fuses ∧ t.shelfSkips = x2.shelfSkips ∧ t.shelfCuts = x2.shelfCuts ∧ t.free = x2.free ∧
    t.pending = x2.pending := by
  unfold execExtentMap
  repeat' split
  all_goals ((try simp only [Prod.ext_iff] at *); (try casesm* _ ∧ _); (try subst_vars); first | (simp; done) | (simp_all; done) | skip)

@[simp] theorem writeBackNow_frame (x0 x1 x2) : (writeBackNow x0 x1 x2).engines = x0.engines ∧ (writeBackNow x0 x1 x2).text = x0.text ∧
    (writeBackNow x0 x1 x2).power = x0.power ∧ (writeBackNow x0 x1 x2).limits = x0.limits ∧ (writeBackNow x0 x1 x2).fuses = x0.fuses ∧
    (writeBackNow x0 x1 x2).shelfSkips = x0.shelfSkips ∧ (writeBackNow x0 x1 x2).shelfCuts = x0.shelfCuts ∧
    (writeBackNow x0 x1 x2).pending = x0.pending := by
  simp only [writeBackNow]
  repeat' split
  all_goals ((try simp only [Prod.ext_iff] at *); (try casesm* _ ∧ _); (try subst_vars); (try simp))

@[simp] theorem writeBackAll_frame (x0 x1) : (writeBackAll x0 x1).engines = x0.engines ∧ (writeBackAll x0 x1).text = x0.text ∧
    (writeBackAll x0 x1).power = x0.power ∧ (writeBackAll x0 x1).limits = x0.limits ∧ (writeBackAll x0 x1).fuses = x0.fuses ∧
    (writeBackAll x0 x1).shelfSkips = x0.shelfSkips ∧ (writeBackAll x0 x1).shelfCuts = x0.shelfCuts ∧
    (writeBackAll x0 x1).pending = x0.pending := by simp [writeBackAll]

@[simp] theorem dropExtent_frame (x0 x1) : (dropExtent x0 x1).fabric = x0.fabric ∧ (dropExtent x0 x1).engines = x0.engines ∧
    (dropExtent x0 x1).gen = x0.gen ∧ (dropExtent x0 x1).text = x0.text ∧ (dropExtent x0 x1).pair = x0.pair ∧
    (dropExtent x0 x1).power = x0.power ∧ (dropExtent x0 x1).limits = x0.limits ∧ (dropExtent x0 x1).fuses = x0.fuses ∧
    (dropExtent x0 x1).shelfSkips = x0.shelfSkips ∧ (dropExtent x0 x1).shelfCuts = x0.shelfCuts ∧ (dropExtent x0 x1).free = x0.free ∧
    (dropExtent x0 x1).pending = x0.pending := by unfold dropExtent; split <;> simp

@[simp] theorem unmapExtent_frame (x0 x1) : ((unmapExtent x0 x1)).1.engines = x0.engines ∧ ((unmapExtent x0 x1)).1.text = x0.text ∧
    ((unmapExtent x0 x1)).1.power = x0.power ∧ ((unmapExtent x0 x1)).1.limits = x0.limits ∧ ((unmapExtent x0 x1)).1.fuses = x0.fuses ∧
    ((unmapExtent x0 x1)).1.shelfSkips = x0.shelfSkips ∧ ((unmapExtent x0 x1)).1.shelfCuts = x0.shelfCuts ∧
    ((unmapExtent x0 x1)).1.pending = x0.pending := by unfold unmapExtent; split <;> simp

theorem execExtentUnmap_frame (x0 x1) : ∀ t, (execExtentUnmap x0 x1) = .next t → t.engines = x1.engines ∧ t.text = x1.text ∧
    t.power = x1.power ∧ t.limits = x1.limits ∧ t.fuses = x1.fuses ∧ t.shelfSkips = x1.shelfSkips ∧ t.shelfCuts = x1.shelfCuts ∧
    t.pending = x1.pending := by
  unfold execExtentUnmap
  repeat' split
  all_goals ((try simp only [Prod.ext_iff] at *); (try casesm* _ ∧ _); (try subst_vars); first | (simp; done) | (simp_all; done) | skip)

@[simp] theorem setExtent_frame (x0 x1 x2) : ((setExtent x0 x1 x2)).1.engines = x0.engines ∧ ((setExtent x0 x1 x2)).1.text = x0.text ∧
    ((setExtent x0 x1 x2)).1.power = x0.power ∧ ((setExtent x0 x1 x2)).1.limits = x0.limits ∧ ((setExtent x0 x1 x2)).1.fuses = x0.fuses ∧
    ((setExtent x0 x1 x2)).1.shelfSkips = x0.shelfSkips ∧ ((setExtent x0 x1 x2)).1.shelfCuts = x0.shelfCuts ∧
    ((setExtent x0 x1 x2)).1.pending = x0.pending := by unfold setExtent; split <;> simp

theorem execExtentSet_frame (x0 x1 x2) : ∀ t, (execExtentSet x0 x1 x2) = .next t → t.engines = x2.engines ∧ t.text = x2.text ∧
    t.power = x2.power ∧ t.limits = x2.limits ∧ t.fuses = x2.fuses ∧ t.shelfSkips = x2.shelfSkips ∧ t.shelfCuts = x2.shelfCuts ∧
    t.pending = x2.pending := by
  unfold execExtentSet
  repeat' split
  all_goals ((try simp only [Prod.ext_iff] at *); (try casesm* _ ∧ _); (try subst_vars); first | (simp; done) | (simp_all; done) | skip)

@[simp] theorem changeObject_frame (x0 x1 x2 x3) : ((∀ y0, (((x2 y0)).1).fabric = (y0).fabric) → ((changeObject x0 x1 x2 x3)).1.fabric = x0.fabric) ∧
    ((∀ y0, (((x2 y0)).1).store = (y0).store) → ((changeObject x0 x1 x2 x3)).1.store = x0.store) ∧
    ((∀ y0, (((x2 y0)).1).tier = (y0).tier) → ((changeObject x0 x1 x2 x3)).1.tier = x0.tier) ∧
    ((∀ y0, (((x2 y0)).1).engines = (y0).engines) → ((changeObject x0 x1 x2 x3)).1.engines = x0.engines) ∧
    ((∀ y0, (((x2 y0)).1).gen = (y0).gen) → ((changeObject x0 x1 x2 x3)).1.gen = x0.gen) ∧
    ((∀ y0, (((x2 y0)).1).text = (y0).text) → ((changeObject x0 x1 x2 x3)).1.text = x0.text) ∧
    ((∀ y0, (((x2 y0)).1).flash = (y0).flash) → ((changeObject x0 x1 x2 x3)).1.flash = x0.flash) ∧
    ((∀ y0, (((x2 y0)).1).bureau = (y0).bureau) → ((changeObject x0 x1 x2 x3)).1.bureau = x0.bureau) ∧
    ((∀ y0, (((x2 y0)).1).power = (y0).power) → ((changeObject x0 x1 x2 x3)).1.power = x0.power) ∧
    ((∀ y0, (((x2 y0)).1).limits = (y0).limits) → ((changeObject x0 x1 x2 x3)).1.limits = x0.limits) ∧
    ((∀ y0, (((x2 y0)).1).fuses = (y0).fuses) → ((changeObject x0 x1 x2 x3)).1.fuses = x0.fuses) ∧
    ((∀ y0, (((x2 y0)).1).shelfSkips = (y0).shelfSkips) → ((changeObject x0 x1 x2 x3)).1.shelfSkips = x0.shelfSkips) ∧
    ((∀ y0, (((x2 y0)).1).shelfCuts = (y0).shelfCuts) → ((changeObject x0 x1 x2 x3)).1.shelfCuts = x0.shelfCuts) ∧
    ((∀ y0, (((x2 y0)).1).pending = (y0).pending) → ((changeObject x0 x1 x2 x3)).1.pending = x0.pending) := by
  refine ⟨fun h0 => ?_, fun h0 => ?_, fun h0 => ?_, fun h0 => ?_, fun h0 => ?_, fun h0 => ?_, fun h0 => ?_, fun h0 => ?_, fun h0 => ?_, fun h0 => ?_, fun h0 => ?_, fun h0 => ?_, fun h0 => ?_, fun h0 => ?_⟩
  all_goals unfold changeObject
  all_goals (repeat' split)
  all_goals ((try simp only [Prod.ext_iff] at *); (try casesm* _ ∧ _); (try subst_vars); first | (simp [h0]; done) | (simp_all; done) | skip)

theorem execIndexCreate_frame (x0 x1 x2) : ∀ t, (execIndexCreate x0 x1 x2) = .next t → t.engines = x2.engines ∧ t.text = x2.text ∧
    t.flash = x2.flash ∧ t.power = x2.power ∧ t.limits = x2.limits ∧ t.fuses = x2.fuses ∧ t.shelfSkips = x2.shelfSkips ∧
    t.shelfCuts = x2.shelfCuts ∧ t.pending = x2.pending := by
  unfold execIndexCreate
  repeat' split
  all_goals ((try simp only [Prod.ext_iff] at *); (try casesm* _ ∧ _); (try subst_vars); first | (simp; done) | (simp_all; done) | skip)

theorem execIndexDestroy_frame (x0 x1) : ∀ t, (execIndexDestroy x0 x1) = .next t → t.fabric = x1.fabric ∧ t.store = x1.store ∧
    t.engines = x1.engines ∧ t.text = x1.text ∧ t.flash = x1.flash ∧ t.power = x1.power ∧ t.limits = x1.limits ∧ t.fuses = x1.fuses ∧
    t.shelfSkips = x1.shelfSkips ∧ t.shelfCuts = x1.shelfCuts ∧ t.pending = x1.pending := by
  unfold execIndexDestroy
  repeat' split
  all_goals ((try simp only [Prod.ext_iff] at *); (try casesm* _ ∧ _); (try subst_vars); first | (simp; done) | (simp_all; done) | skip)

theorem execTableCreate_frame (x0 x1 x2) : ∀ t, (execTableCreate x0 x1 x2) = .next t → t.tier = x2.tier ∧ t.engines = x2.engines ∧
    t.text = x2.text ∧ t.flash = x2.flash ∧ t.power = x2.power ∧ t.limits = x2.limits ∧ t.fuses = x2.fuses ∧ t.shelfSkips = x2.shelfSkips ∧
    t.shelfCuts = x2.shelfCuts ∧ t.pending = x2.pending := by
  unfold execTableCreate
  repeat' split
  all_goals ((try simp only [Prod.ext_iff] at *); (try casesm* _ ∧ _); (try subst_vars); first | (simp; done) | (simp_all; done) | skip)

theorem execTableDestroy_frame (x0 x1) : ∀ t, (execTableDestroy x0 x1) = .next t → t.fabric = x1.fabric ∧ t.tier = x1.tier ∧
    t.engines = x1.engines ∧ t.text = x1.text ∧ t.flash = x1.flash ∧ t.power = x1.power ∧ t.limits = x1.limits ∧ t.fuses = x1.fuses ∧
    t.shelfSkips = x1.shelfSkips ∧ t.shelfCuts = x1.shelfCuts ∧ t.pending = x1.pending := by
  unfold execTableDestroy
  repeat' split
  all_goals ((try simp only [Prod.ext_iff] at *); (try casesm* _ ∧ _); (try subst_vars); first | (simp; done) | (simp_all; done) | skip)

@[simp] theorem thenRemove_frame {α : Type} (f : State → α → State × Status) (acc : State × Status) (a : α) :
    ((∀ y a, (f y a).1.fabric = y.fabric) → (thenRemove f acc a).1.fabric = acc.1.fabric) ∧
    ((∀ y a, (f y a).1.store = y.store) → (thenRemove f acc a).1.store = acc.1.store) ∧
    ((∀ y a, (f y a).1.tier = y.tier) → (thenRemove f acc a).1.tier = acc.1.tier) ∧
    ((∀ y a, (f y a).1.engines = y.engines) → (thenRemove f acc a).1.engines = acc.1.engines) ∧
    ((∀ y a, (f y a).1.host = y.host) → (thenRemove f acc a).1.host = acc.1.host) ∧
    ((∀ y a, (f y a).1.gen = y.gen) → (thenRemove f acc a).1.gen = acc.1.gen) ∧
    ((∀ y a, (f y a).1.text = y.text) → (thenRemove f acc a).1.text = acc.1.text) ∧
    ((∀ y a, (f y a).1.pair = y.pair) → (thenRemove f acc a).1.pair = acc.1.pair) ∧
    ((∀ y a, (f y a).1.flash = y.flash) → (thenRemove f acc a).1.flash = acc.1.flash) ∧
    ((∀ y a, (f y a).1.bureau = y.bureau) → (thenRemove f acc a).1.bureau = acc.1.bureau) ∧
    ((∀ y a, (f y a).1.power = y.power) → (thenRemove f acc a).1.power = acc.1.power) ∧
    ((∀ y a, (f y a).1.limits = y.limits) → (thenRemove f acc a).1.limits = acc.1.limits) ∧
    ((∀ y a, (f y a).1.fuses = y.fuses) → (thenRemove f acc a).1.fuses = acc.1.fuses) ∧
    ((∀ y a, (f y a).1.shelfSkips = y.shelfSkips) → (thenRemove f acc a).1.shelfSkips = acc.1.shelfSkips) ∧
    ((∀ y a, (f y a).1.shelfCuts = y.shelfCuts) → (thenRemove f acc a).1.shelfCuts = acc.1.shelfCuts) ∧
    ((∀ y a, (f y a).1.free = y.free) → (thenRemove f acc a).1.free = acc.1.free) ∧
    ((∀ y a, (f y a).1.pending = y.pending) → (thenRemove f acc a).1.pending = acc.1.pending) := by
  refine ⟨fun h => ?_, fun h => ?_, fun h => ?_, fun h => ?_, fun h => ?_, fun h => ?_, fun h => ?_, fun h => ?_, fun h => ?_, fun h => ?_, fun h => ?_, fun h => ?_, fun h => ?_, fun h => ?_, fun h => ?_, fun h => ?_, fun h => ?_⟩
  all_goals (unfold thenRemove; split <;> simp [h])

@[simp] theorem removeAdapters_frame (x0 x1) : ((removeAdapters x0 x1)).1.fabric = x0.fabric ∧ ((removeAdapters x0 x1)).1.store = x0.store ∧
    ((removeAdapters x0 x1)).1.tier = x0.tier ∧ ((removeAdapters x0 x1)).1.engines = x0.engines ∧ ((removeAdapters x0 x1)).1.host = x0.host ∧
    ((removeAdapters x0 x1)).1.text = x0.text ∧ ((removeAdapters x0 x1)).1.pair = x0.pair ∧ ((removeAdapters x0 x1)).1.flash = x0.flash ∧
    ((removeAdapters x0 x1)).1.bureau = x0.bureau ∧ ((removeAdapters x0 x1)).1.power = x0.power ∧
    ((removeAdapters x0 x1)).1.limits = x0.limits ∧ ((removeAdapters x0 x1)).1.fuses = x0.fuses ∧
    ((removeAdapters x0 x1)).1.shelfSkips = x0.shelfSkips ∧ ((removeAdapters x0 x1)).1.shelfCuts = x0.shelfCuts ∧
    ((removeAdapters x0 x1)).1.free = x0.free ∧ ((removeAdapters x0 x1)).1.pending = x0.pending := by simp [removeAdapters]

@[simp] theorem removeGrammars_frame (x0 x1) : ((removeGrammars x0 x1)).1.fabric = x0.fabric ∧ ((removeGrammars x0 x1)).1.store = x0.store ∧
    ((removeGrammars x0 x1)).1.tier = x0.tier ∧ ((removeGrammars x0 x1)).1.engines = x0.engines ∧ ((removeGrammars x0 x1)).1.host = x0.host ∧
    ((removeGrammars x0 x1)).1.gen = x0.gen ∧ ((removeGrammars x0 x1)).1.pair = x0.pair ∧ ((removeGrammars x0 x1)).1.flash = x0.flash ∧
    ((removeGrammars x0 x1)).1.bureau = x0.bureau ∧ ((removeGrammars x0 x1)).1.power = x0.power ∧
    ((removeGrammars x0 x1)).1.limits = x0.limits ∧ ((removeGrammars x0 x1)).1.fuses = x0.fuses ∧
    ((removeGrammars x0 x1)).1.shelfSkips = x0.shelfSkips ∧ ((removeGrammars x0 x1)).1.shelfCuts = x0.shelfCuts ∧
    ((removeGrammars x0 x1)).1.free = x0.free ∧ ((removeGrammars x0 x1)).1.pending = x0.pending := by simp [removeGrammars]

@[simp] theorem removeTenant_frame (x0 x1) : ((removeTenant x0 x1)).1.engines = x0.engines ∧ ((removeTenant x0 x1)).1.power = x0.power ∧
    ((removeTenant x0 x1)).1.limits = x0.limits ∧ ((removeTenant x0 x1)).1.fuses = x0.fuses ∧
    ((removeTenant x0 x1)).1.shelfSkips = x0.shelfSkips ∧ ((removeTenant x0 x1)).1.shelfCuts = x0.shelfCuts ∧
    ((removeTenant x0 x1)).1.pending = x0.pending := by
  unfold removeTenant
  simp (maxDischargeDepth := 9)

theorem execTenantRemove_frame (x0 x1) : ∀ t, (execTenantRemove x0 x1) = .next t → t.engines = x1.engines ∧ t.power = x1.power ∧
    t.limits = x1.limits ∧ t.fuses = x1.fuses ∧ t.shelfSkips = x1.shelfSkips ∧ t.shelfCuts = x1.shelfCuts ∧ t.pending = x1.pending := by
  intro t h
  cases h
  unfold command
  split
  · simp
  · rcases h : objectRole x1 x0 with _ | st <;> simp [h]

@[simp] theorem mailboxQuiesce_frame (x0 x1) : (mailboxQuiesce x0 x1).tier = x0.tier ∧ (mailboxQuiesce x0 x1).engines = x0.engines ∧
    (mailboxQuiesce x0 x1).gen = x0.gen ∧ (mailboxQuiesce x0 x1).text = x0.text ∧ (mailboxQuiesce x0 x1).pair = x0.pair ∧
    (mailboxQuiesce x0 x1).flash = x0.flash ∧ (mailboxQuiesce x0 x1).power = x0.power ∧ (mailboxQuiesce x0 x1).limits = x0.limits ∧
    (mailboxQuiesce x0 x1).fuses = x0.fuses ∧ (mailboxQuiesce x0 x1).shelfSkips = x0.shelfSkips ∧
    (mailboxQuiesce x0 x1).shelfCuts = x0.shelfCuts ∧ (mailboxQuiesce x0 x1).pending = x0.pending := by simp [mailboxQuiesce]

theorem execQuiesce_frame (x0 x1) : ∀ t, (execQuiesce x0 x1) = .next t → t.tier = x1.tier ∧ t.engines = x1.engines ∧ t.gen = x1.gen ∧
    t.text = x1.text ∧ t.pair = x1.pair ∧ t.flash = x1.flash ∧ t.power = x1.power ∧ t.limits = x1.limits ∧ t.fuses = x1.fuses ∧
    t.shelfSkips = x1.shelfSkips ∧ t.shelfCuts = x1.shelfCuts ∧ t.pending = x1.pending := by simp [execQuiesce]

@[simp] theorem endScans_frame (x0 x1) : (endScans x0 x1).tier = x0.tier ∧ (endScans x0 x1).engines = x0.engines ∧
    (endScans x0 x1).text = x0.text ∧ (endScans x0 x1).pair = x0.pair ∧ (endScans x0 x1).flash = x0.flash ∧
    (endScans x0 x1).power = x0.power ∧ (endScans x0 x1).limits = x0.limits ∧ (endScans x0 x1).fuses = x0.fuses ∧
    (endScans x0 x1).shelfSkips = x0.shelfSkips ∧ (endScans x0 x1).pending = x0.pending := by
  unfold endScans
  refine ⟨?_, ?_, ?_, ?_, ?_, ?_, ?_, ?_, ?_, ?_⟩
  all_goals
    (first | refine State.foldl_tier (fun _ _ => ?_) _ _ | refine State.foldl_engines (fun _ _ => ?_) _ _ | refine State.foldl_text (fun _ _ => ?_) _ _ | refine State.foldl_pair (fun _ _ => ?_) _ _ | refine State.foldl_flash (fun _ _ => ?_) _ _ | refine State.foldl_power (fun _ _ => ?_) _ _ | refine State.foldl_limits (fun _ _ => ?_) _ _ | refine State.foldl_fuses (fun _ _ => ?_) _ _ | refine State.foldl_shelfSkips (fun _ _ => ?_) _ _ | refine State.foldl_pending (fun _ _ => ?_) _ _)
    rename_i s x
    rcases hw : shelfWrites s x.1 x1 with _ | t
    · simp
    · have := shelfWrites_frame _ _ _ _ hw
      simp_all

@[simp] theorem resetBlock_frame (x0 x1) : (resetBlock x0 x1).pair = x0.pair ∧ (resetBlock x0 x1).flash = x0.flash ∧
    (resetBlock x0 x1).power = x0.power ∧ (resetBlock x0 x1).limits = x0.limits ∧ (resetBlock x0 x1).fuses = x0.fuses ∧
    (resetBlock x0 x1).shelfSkips = x0.shelfSkips ∧ (resetBlock x0 x1).pending = x0.pending := by unfold resetBlock; split <;> simp

@[simp] theorem blockReset_frame (x0 x1) : ((blockReset x0 x1)).1.pair = x0.pair ∧ ((blockReset x0 x1)).1.flash = x0.flash ∧
    ((blockReset x0 x1)).1.limits = x0.limits ∧ ((blockReset x0 x1)).1.fuses = x0.fuses ∧ ((blockReset x0 x1)).1.shelfSkips = x0.shelfSkips ∧
    ((blockReset x0 x1)).1.pending = x0.pending := by
  unfold blockReset
  repeat' split
  all_goals ((try simp only [Prod.ext_iff] at *); (try casesm* _ ∧ _); (try subst_vars); first | (simp; done) | (simp_all; done) | skip)

theorem execBlockReset_frame (x0 x1) : ∀ t, (execBlockReset x0 x1) = .next t → t.pair = x1.pair ∧ t.flash = x1.flash ∧ t.limits = x1.limits ∧
    t.fuses = x1.fuses ∧ t.shelfSkips = x1.shelfSkips ∧ t.pending = x1.pending := by
  unfold execBlockReset
  repeat' split
  all_goals ((try simp only [Prod.ext_iff] at *); (try casesm* _ ∧ _); (try subst_vars); first | (simp; done) | (simp_all; done) | skip)

theorem execReadCounters_frame (x0 x1) : ∀ t, (execReadCounters x0 x1) = .next t → t.fabric = x1.fabric ∧ t.store = x1.store ∧
    t.tier = x1.tier ∧ t.engines = x1.engines ∧ t.gen = x1.gen ∧ t.text = x1.text ∧ t.pair = x1.pair ∧ t.flash = x1.flash ∧
    t.power = x1.power ∧ t.limits = x1.limits ∧ t.fuses = x1.fuses ∧ t.shelfSkips = x1.shelfSkips ∧ t.shelfCuts = x1.shelfCuts ∧
    t.free = x1.free ∧ t.pending = x1.pending := by simp [execReadCounters]

theorem execSetUtc_frame (x0 x1 x2) : ∀ t, (execSetUtc x0 x1 x2) = .next t → t.fabric = x2.fabric ∧ t.store = x2.store ∧ t.tier = x2.tier ∧
    t.engines = x2.engines ∧ t.gen = x2.gen ∧ t.text = x2.text ∧ t.pair = x2.pair ∧ t.flash = x2.flash ∧ t.power = x2.power ∧
    t.limits = x2.limits ∧ t.fuses = x2.fuses ∧ t.shelfSkips = x2.shelfSkips ∧ t.shelfCuts = x2.shelfCuts ∧ t.free = x2.free ∧
    t.pending = x2.pending := by simp [execSetUtc]

@[simp] theorem readSlot_frame (x0 x1 x2) : ((readSlot x0 x1 x2)).1.fabric = x0.fabric ∧ ((readSlot x0 x1 x2)).1.store = x0.store ∧
    ((readSlot x0 x1 x2)).1.tier = x0.tier ∧ ((readSlot x0 x1 x2)).1.engines = x0.engines ∧ ((readSlot x0 x1 x2)).1.host = x0.host ∧
    ((readSlot x0 x1 x2)).1.gen = x0.gen ∧ ((readSlot x0 x1 x2)).1.text = x0.text ∧ ((readSlot x0 x1 x2)).1.pair = x0.pair ∧
    ((readSlot x0 x1 x2)).1.flash = x0.flash ∧ ((readSlot x0 x1 x2)).1.bureau = x0.bureau ∧ ((readSlot x0 x1 x2)).1.power = x0.power ∧
    ((readSlot x0 x1 x2)).1.limits = x0.limits ∧ ((readSlot x0 x1 x2)).1.fuses = x0.fuses ∧
    ((readSlot x0 x1 x2)).1.shelfSkips = x0.shelfSkips ∧ ((readSlot x0 x1 x2)).1.shelfCuts = x0.shelfCuts ∧
    ((readSlot x0 x1 x2)).1.free = x0.free ∧ ((readSlot x0 x1 x2)).1.pending = x0.pending := by simp [readSlot]

theorem execReadSlot_frame (x0 x1 x2) : ∀ t, (execReadSlot x0 x1 x2) = .next t → t.fabric = x2.fabric ∧ t.store = x2.store ∧
    t.tier = x2.tier ∧ t.engines = x2.engines ∧ t.gen = x2.gen ∧ t.text = x2.text ∧ t.pair = x2.pair ∧ t.flash = x2.flash ∧
    t.power = x2.power ∧ t.limits = x2.limits ∧ t.fuses = x2.fuses ∧ t.shelfSkips = x2.shelfSkips ∧ t.shelfCuts = x2.shelfCuts ∧
    t.free = x2.free ∧ t.pending = x2.pending := by simp [execReadSlot]

theorem execReadCapability_frame (x0 x1) : ∀ t, (execReadCapability x0 x1) = .next t → t.fabric = x1.fabric ∧ t.store = x1.store ∧
    t.tier = x1.tier ∧ t.engines = x1.engines ∧ t.gen = x1.gen ∧ t.text = x1.text ∧ t.pair = x1.pair ∧ t.flash = x1.flash ∧
    t.power = x1.power ∧ t.limits = x1.limits ∧ t.fuses = x1.fuses ∧ t.shelfSkips = x1.shelfSkips ∧ t.shelfCuts = x1.shelfCuts ∧
    t.free = x1.free ∧ t.pending = x1.pending := by simp [execReadCapability]

theorem execPairTakeover_frame (x0 x1 x2) : ∀ t, (execPairTakeover x0 x1 x2) = .next t → t.engines = x2.engines ∧ t.power = x2.power ∧
    t.limits = x2.limits ∧ t.fuses = x2.fuses ∧ t.shelfSkips = x2.shelfSkips ∧ t.shelfCuts = x2.shelfCuts ∧ t.pending = x2.pending := by
  unfold execPairTakeover
  repeat' split
  all_goals ((try simp only [Prod.ext_iff] at *); (try casesm* _ ∧ _); (try subst_vars); first | (simp; done) | (simp_all; done) | skip)

@[simp] theorem mailboxHandover_frame (x0 x1 x2) : (mailboxHandover x0 x1 x2).fabric = x0.fabric ∧
    (mailboxHandover x0 x1 x2).store = x0.store ∧ (mailboxHandover x0 x1 x2).tier = x0.tier ∧
    (mailboxHandover x0 x1 x2).engines = x0.engines ∧ (mailboxHandover x0 x1 x2).gen = x0.gen ∧ (mailboxHandover x0 x1 x2).text = x0.text ∧
    (mailboxHandover x0 x1 x2).flash = x0.flash ∧ (mailboxHandover x0 x1 x2).power = x0.power ∧
    (mailboxHandover x0 x1 x2).limits = x0.limits ∧ (mailboxHandover x0 x1 x2).fuses = x0.fuses ∧
    (mailboxHandover x0 x1 x2).shelfSkips = x0.shelfSkips ∧ (mailboxHandover x0 x1 x2).shelfCuts = x0.shelfCuts ∧
    (mailboxHandover x0 x1 x2).pending = x0.pending := by simp [mailboxHandover]

theorem execPairHandover_frame (x0 x1 x2) : ∀ t, (execPairHandover x0 x1 x2) = .next t → t.fabric = x2.fabric ∧ t.store = x2.store ∧
    t.tier = x2.tier ∧ t.engines = x2.engines ∧ t.gen = x2.gen ∧ t.text = x2.text ∧ t.flash = x2.flash ∧ t.power = x2.power ∧
    t.limits = x2.limits ∧ t.fuses = x2.fuses ∧ t.shelfSkips = x2.shelfSkips ∧ t.shelfCuts = x2.shelfCuts ∧ t.pending = x2.pending := by simp [execPairHandover]

theorem execSoloClear_frame (x0 x1) : ∀ t, (execSoloClear x0 x1) = .next t → t.engines = x1.engines ∧ t.text = x1.text ∧ t.power = x1.power ∧
    t.limits = x1.limits ∧ t.fuses = x1.fuses ∧ t.shelfSkips = x1.shelfSkips ∧ t.shelfCuts = x1.shelfCuts ∧ t.pending = x1.pending := by
  unfold execSoloClear
  repeat' split
  all_goals ((try simp only [Prod.ext_iff] at *); (try casesm* _ ∧ _); (try subst_vars); first | (simp; done) | (simp_all; done) | skip)

theorem execSetLimits_frame (x0 x1 x2) : ∀ t, (execSetLimits x0 x1 x2) = .next t → t.fabric = x2.fabric ∧ t.store = x2.store ∧
    t.tier = x2.tier ∧ t.engines = x2.engines ∧ t.gen = x2.gen ∧ t.text = x2.text ∧ t.pair = x2.pair ∧ t.flash = x2.flash ∧
    t.power = x2.power ∧ t.fuses = x2.fuses ∧ t.shelfSkips = x2.shelfSkips ∧ t.shelfCuts = x2.shelfCuts ∧ t.free = x2.free ∧
    t.pending = x2.pending := by
  unfold execSetLimits
  repeat' split
  all_goals ((try simp only [Prod.ext_iff] at *); (try casesm* _ ∧ _); (try subst_vars); first | (simp; done) | (simp_all; done) | skip)

theorem execEventRead_frame (x0 x1 x2 x3 x4) : ∀ t, (execEventRead x0 x1 x2 x3 x4) = .next t → t.fabric = x4.fabric ∧ t.store = x4.store ∧
    t.tier = x4.tier ∧ t.engines = x4.engines ∧ t.gen = x4.gen ∧ t.text = x4.text ∧ t.pair = x4.pair ∧ t.flash = x4.flash ∧
    t.power = x4.power ∧ t.limits = x4.limits ∧ t.fuses = x4.fuses ∧ t.shelfSkips = x4.shelfSkips ∧ t.shelfCuts = x4.shelfCuts ∧
    t.free = x4.free ∧ t.pending = x4.pending := by simp [execEventRead]

@[simp] theorem clearEvents_frame (x0) : (clearEvents x0).fabric = x0.fabric ∧ (clearEvents x0).store = x0.store ∧
    (clearEvents x0).tier = x0.tier ∧ (clearEvents x0).engines = x0.engines ∧ (clearEvents x0).gen = x0.gen ∧
    (clearEvents x0).text = x0.text ∧ (clearEvents x0).pair = x0.pair ∧ (clearEvents x0).flash = x0.flash ∧
    (clearEvents x0).power = x0.power ∧ (clearEvents x0).limits = x0.limits ∧ (clearEvents x0).fuses = x0.fuses ∧
    (clearEvents x0).shelfSkips = x0.shelfSkips ∧ (clearEvents x0).shelfCuts = x0.shelfCuts ∧ (clearEvents x0).free = x0.free ∧
    (clearEvents x0).pending = x0.pending := by simp [clearEvents]

theorem execEventClear_frame (x0 x1) : ∀ t, (execEventClear x0 x1) = .next t → t.fabric = x1.fabric ∧ t.store = x1.store ∧ t.tier = x1.tier ∧
    t.engines = x1.engines ∧ t.gen = x1.gen ∧ t.text = x1.text ∧ t.pair = x1.pair ∧ t.flash = x1.flash ∧ t.power = x1.power ∧
    t.limits = x1.limits ∧ t.fuses = x1.fuses ∧ t.shelfSkips = x1.shelfSkips ∧ t.shelfCuts = x1.shelfCuts ∧ t.free = x1.free ∧
    t.pending = x1.pending := by simp [execEventClear]

theorem execFaultRead_frame (x0 x1 x2 x3) : ∀ t, (execFaultRead x0 x1 x2 x3) = .next t → t.fabric = x3.fabric ∧ t.store = x3.store ∧
    t.tier = x3.tier ∧ t.engines = x3.engines ∧ t.gen = x3.gen ∧ t.text = x3.text ∧ t.pair = x3.pair ∧ t.flash = x3.flash ∧
    t.power = x3.power ∧ t.limits = x3.limits ∧ t.fuses = x3.fuses ∧ t.shelfSkips = x3.shelfSkips ∧ t.shelfCuts = x3.shelfCuts ∧
    t.free = x3.free ∧ t.pending = x3.pending := by simp [execFaultRead]

@[simp] theorem configDigests_frame (x0) : ((configDigests x0)).2.fabric = x0.fabric ∧ ((configDigests x0)).2.store = x0.store ∧
    ((configDigests x0)).2.tier = x0.tier ∧ ((configDigests x0)).2.engines = x0.engines ∧ ((configDigests x0)).2.host = x0.host ∧
    ((configDigests x0)).2.gen = x0.gen ∧ ((configDigests x0)).2.text = x0.text ∧ ((configDigests x0)).2.pair = x0.pair ∧
    ((configDigests x0)).2.flash = x0.flash ∧ ((configDigests x0)).2.bureau = x0.bureau ∧ ((configDigests x0)).2.power = x0.power ∧
    ((configDigests x0)).2.limits = x0.limits ∧ ((configDigests x0)).2.fuses = x0.fuses ∧ ((configDigests x0)).2.shelfSkips = x0.shelfSkips ∧
    ((configDigests x0)).2.shelfCuts = x0.shelfCuts ∧ ((configDigests x0)).2.pending = x0.pending := by simp [configDigests]

@[simp] theorem reportBody_frame (x0 x1) : ((reportBody x0 x1)).2.fabric = x0.fabric ∧ ((reportBody x0 x1)).2.store = x0.store ∧
    ((reportBody x0 x1)).2.tier = x0.tier ∧ ((reportBody x0 x1)).2.engines = x0.engines ∧ ((reportBody x0 x1)).2.host = x0.host ∧
    ((reportBody x0 x1)).2.gen = x0.gen ∧ ((reportBody x0 x1)).2.text = x0.text ∧ ((reportBody x0 x1)).2.pair = x0.pair ∧
    ((reportBody x0 x1)).2.flash = x0.flash ∧ ((reportBody x0 x1)).2.bureau = x0.bureau ∧ ((reportBody x0 x1)).2.power = x0.power ∧
    ((reportBody x0 x1)).2.limits = x0.limits ∧ ((reportBody x0 x1)).2.fuses = x0.fuses ∧ ((reportBody x0 x1)).2.shelfSkips = x0.shelfSkips ∧
    ((reportBody x0 x1)).2.shelfCuts = x0.shelfCuts ∧ ((reportBody x0 x1)).2.pending = x0.pending := by simp [reportBody]

@[simp] theorem attest_frame (x0 x1) : ((attest x0 x1)).1.fabric = x0.fabric ∧ ((attest x0 x1)).1.store = x0.store ∧
    ((attest x0 x1)).1.tier = x0.tier ∧ ((attest x0 x1)).1.engines = x0.engines ∧ ((attest x0 x1)).1.host = x0.host ∧
    ((attest x0 x1)).1.gen = x0.gen ∧ ((attest x0 x1)).1.text = x0.text ∧ ((attest x0 x1)).1.pair = x0.pair ∧
    ((attest x0 x1)).1.flash = x0.flash ∧ ((attest x0 x1)).1.power = x0.power ∧ ((attest x0 x1)).1.limits = x0.limits ∧
    ((attest x0 x1)).1.fuses = x0.fuses ∧ ((attest x0 x1)).1.shelfSkips = x0.shelfSkips ∧ ((attest x0 x1)).1.shelfCuts = x0.shelfCuts ∧
    ((attest x0 x1)).1.pending = x0.pending := by simp [attest]

theorem execAttest_frame (x0 x1 x2) : ∀ t, (execAttest x0 x1 x2) = .next t → t.fabric = x2.fabric ∧ t.store = x2.store ∧ t.tier = x2.tier ∧
    t.engines = x2.engines ∧ t.gen = x2.gen ∧ t.text = x2.text ∧ t.pair = x2.pair ∧ t.flash = x2.flash ∧ t.power = x2.power ∧
    t.limits = x2.limits ∧ t.fuses = x2.fuses ∧ t.shelfSkips = x2.shelfSkips ∧ t.shelfCuts = x2.shelfCuts ∧ t.pending = x2.pending := by
  unfold execAttest
  repeat' split
  all_goals ((try simp only [Prod.ext_iff] at *); (try casesm* _ ∧ _); (try subst_vars); first | (simp; done) | (simp_all; done) | skip)

theorem execCertRead_frame (x0 x1) : ∀ t, (execCertRead x0 x1) = .next t → t.fabric = x1.fabric ∧ t.store = x1.store ∧ t.tier = x1.tier ∧
    t.engines = x1.engines ∧ t.gen = x1.gen ∧ t.text = x1.text ∧ t.pair = x1.pair ∧ t.flash = x1.flash ∧ t.power = x1.power ∧
    t.limits = x1.limits ∧ t.fuses = x1.fuses ∧ t.shelfSkips = x1.shelfSkips ∧ t.shelfCuts = x1.shelfCuts ∧ t.free = x1.free ∧
    t.pending = x1.pending := by simp [execCertRead]

@[simp] theorem statusCommand_frame (x0 x1 x2) : (statusCommand x0 x1 x2).fabric = x0.fabric ∧ (statusCommand x0 x1 x2).store = x0.store ∧
    (statusCommand x0 x1 x2).tier = x0.tier ∧ (statusCommand x0 x1 x2).engines = x0.engines ∧ (statusCommand x0 x1 x2).gen = x0.gen ∧
    (statusCommand x0 x1 x2).text = x0.text ∧ (statusCommand x0 x1 x2).pair = x0.pair ∧ (statusCommand x0 x1 x2).flash = x0.flash ∧
    (statusCommand x0 x1 x2).power = x0.power ∧ (statusCommand x0 x1 x2).limits = x0.limits ∧ (statusCommand x0 x1 x2).fuses = x0.fuses ∧
    (statusCommand x0 x1 x2).shelfSkips = x0.shelfSkips ∧ (statusCommand x0 x1 x2).shelfCuts = x0.shelfCuts ∧
    (statusCommand x0 x1 x2).pending = x0.pending := by unfold statusCommand; split <;> simp

theorem execStatus_frame (x0 x1 x2) : ∀ t, (execStatus x0 x1 x2) = .next t → t.fabric = x2.fabric ∧ t.store = x2.store ∧ t.tier = x2.tier ∧
    t.engines = x2.engines ∧ t.gen = x2.gen ∧ t.text = x2.text ∧ t.pair = x2.pair ∧ t.flash = x2.flash ∧ t.power = x2.power ∧
    t.limits = x2.limits ∧ t.fuses = x2.fuses ∧ t.shelfSkips = x2.shelfSkips ∧ t.shelfCuts = x2.shelfCuts ∧ t.pending = x2.pending := by simp [execStatus]

@[simp] theorem backgroundDone_frame (x0 x1) : (backgroundDone x0 x1).fabric = x0.fabric ∧ (backgroundDone x0 x1).store = x0.store ∧
    (backgroundDone x0 x1).tier = x0.tier ∧ (backgroundDone x0 x1).engines = x0.engines ∧ (backgroundDone x0 x1).host = x0.host ∧
    (backgroundDone x0 x1).gen = x0.gen ∧ (backgroundDone x0 x1).text = x0.text ∧ (backgroundDone x0 x1).pair = x0.pair ∧
    (backgroundDone x0 x1).flash = x0.flash ∧ (backgroundDone x0 x1).power = x0.power ∧ (backgroundDone x0 x1).limits = x0.limits ∧
    (backgroundDone x0 x1).fuses = x0.fuses ∧ (backgroundDone x0 x1).shelfSkips = x0.shelfSkips ∧
    (backgroundDone x0 x1).shelfCuts = x0.shelfCuts ∧ (backgroundDone x0 x1).pending = x0.pending := by
  unfold backgroundDone
  repeat' split
  all_goals ((try simp only [Prod.ext_iff] at *); (try casesm* _ ∧ _); (try subst_vars); (try simp))

theorem execMailboxBackgroundDone_frame (x0 x1) : ∀ t, (execMailboxBackgroundDone x0 x1) = .next t → t.fabric = x1.fabric ∧
    t.store = x1.store ∧ t.tier = x1.tier ∧ t.engines = x1.engines ∧ t.host = x1.host ∧ t.gen = x1.gen ∧ t.text = x1.text ∧ t.pair = x1.pair ∧
    t.flash = x1.flash ∧ t.power = x1.power ∧ t.limits = x1.limits ∧ t.fuses = x1.fuses ∧ t.shelfSkips = x1.shelfSkips ∧
    t.shelfCuts = x1.shelfCuts ∧ t.pending = x1.pending := by simp [execMailboxBackgroundDone]

@[simp] theorem mctpControl_frame (x0 x1) : (mctpControl x0 x1).fabric = x0.fabric ∧ (mctpControl x0 x1).store = x0.store ∧
    (mctpControl x0 x1).tier = x0.tier ∧ (mctpControl x0 x1).engines = x0.engines ∧ (mctpControl x0 x1).gen = x0.gen ∧
    (mctpControl x0 x1).text = x0.text ∧ (mctpControl x0 x1).pair = x0.pair ∧ (mctpControl x0 x1).flash = x0.flash ∧
    (mctpControl x0 x1).power = x0.power ∧ (mctpControl x0 x1).limits = x0.limits ∧ (mctpControl x0 x1).fuses = x0.fuses ∧
    (mctpControl x0 x1).shelfSkips = x0.shelfSkips ∧ (mctpControl x0 x1).shelfCuts = x0.shelfCuts ∧ (mctpControl x0 x1).pending = x0.pending := by simp [mctpControl]

theorem execMctpControl_frame (x0 x1) : ∀ t, (execMctpControl x0 x1) = .next t → t.fabric = x1.fabric ∧ t.store = x1.store ∧
    t.tier = x1.tier ∧ t.engines = x1.engines ∧ t.gen = x1.gen ∧ t.text = x1.text ∧ t.pair = x1.pair ∧ t.flash = x1.flash ∧
    t.power = x1.power ∧ t.limits = x1.limits ∧ t.fuses = x1.fuses ∧ t.shelfSkips = x1.shelfSkips ∧ t.shelfCuts = x1.shelfCuts ∧
    t.pending = x1.pending := by simp [execMctpControl]

@[simp] theorem pldmRequest_frame (x0 x1) : (pldmRequest x0 x1).fabric = x0.fabric ∧ (pldmRequest x0 x1).store = x0.store ∧
    (pldmRequest x0 x1).tier = x0.tier ∧ (pldmRequest x0 x1).engines = x0.engines ∧ (pldmRequest x0 x1).gen = x0.gen ∧
    (pldmRequest x0 x1).text = x0.text ∧ (pldmRequest x0 x1).pair = x0.pair ∧ (pldmRequest x0 x1).flash = x0.flash ∧
    (pldmRequest x0 x1).bureau = x0.bureau ∧ (pldmRequest x0 x1).power = x0.power ∧ (pldmRequest x0 x1).limits = x0.limits ∧
    (pldmRequest x0 x1).fuses = x0.fuses ∧ (pldmRequest x0 x1).shelfSkips = x0.shelfSkips ∧ (pldmRequest x0 x1).shelfCuts = x0.shelfCuts ∧
    (pldmRequest x0 x1).pending = x0.pending := by unfold pldmRequest; split <;> simp

theorem execPldmPlatformRequest_frame (x0 x1) : ∀ t, (execPldmPlatformRequest x0 x1) = .next t → t.fabric = x1.fabric ∧ t.store = x1.store ∧
    t.tier = x1.tier ∧ t.engines = x1.engines ∧ t.gen = x1.gen ∧ t.text = x1.text ∧ t.pair = x1.pair ∧ t.flash = x1.flash ∧
    t.bureau = x1.bureau ∧ t.power = x1.power ∧ t.limits = x1.limits ∧ t.fuses = x1.fuses ∧ t.shelfSkips = x1.shelfSkips ∧
    t.shelfCuts = x1.shelfCuts ∧ t.pending = x1.pending := by simp [execPldmPlatformRequest]

/-! ## Firmware -/

@[simp] theorem requestChunk_frame (x0 x1 x2) : (requestChunk x0 x1 x2).fabric = x1.fabric ∧ (requestChunk x0 x1 x2).store = x1.store ∧
    (requestChunk x0 x1 x2).tier = x1.tier ∧ (requestChunk x0 x1 x2).engines = x1.engines ∧ (requestChunk x0 x1 x2).gen = x1.gen ∧
    (requestChunk x0 x1 x2).text = x1.text ∧ (requestChunk x0 x1 x2).pair = x1.pair ∧ (requestChunk x0 x1 x2).flash = x1.flash ∧
    (requestChunk x0 x1 x2).bureau = x1.bureau ∧ (requestChunk x0 x1 x2).power = x1.power ∧ (requestChunk x0 x1 x2).limits = x1.limits ∧
    (requestChunk x0 x1 x2).fuses = x1.fuses ∧ (requestChunk x0 x1 x2).shelfSkips = x1.shelfSkips ∧
    (requestChunk x0 x1 x2).shelfCuts = x1.shelfCuts ∧ (requestChunk x0 x1 x2).free = x1.free ∧ (requestChunk x0 x1 x2).pending = x1.pending := by simp [requestChunk]

@[simp] theorem pldmAnswer_frame (x0) : (pldmAnswer x0).fabric = x0.fabric ∧ (pldmAnswer x0).store = x0.store ∧
    (pldmAnswer x0).tier = x0.tier ∧ (pldmAnswer x0).engines = x0.engines ∧ (pldmAnswer x0).gen = x0.gen ∧ (pldmAnswer x0).text = x0.text ∧
    (pldmAnswer x0).pair = x0.pair ∧ (pldmAnswer x0).flash = x0.flash ∧ (pldmAnswer x0).bureau = x0.bureau ∧
    (pldmAnswer x0).power = x0.power ∧ (pldmAnswer x0).limits = x0.limits ∧ (pldmAnswer x0).fuses = x0.fuses ∧
    (pldmAnswer x0).shelfSkips = x0.shelfSkips ∧ (pldmAnswer x0).shelfCuts = x0.shelfCuts ∧ (pldmAnswer x0).pending = x0.pending := by simp [pldmAnswer]

@[simp] theorem updateComponent_frame (x0 x1) : (updateComponent x0 x1).fabric = x0.fabric ∧ (updateComponent x0 x1).store = x0.store ∧
    (updateComponent x0 x1).tier = x0.tier ∧ (updateComponent x0 x1).engines = x0.engines ∧ (updateComponent x0 x1).gen = x0.gen ∧
    (updateComponent x0 x1).text = x0.text ∧ (updateComponent x0 x1).pair = x0.pair ∧ (updateComponent x0 x1).flash = x0.flash ∧
    (updateComponent x0 x1).power = x0.power ∧ (updateComponent x0 x1).limits = x0.limits ∧ (updateComponent x0 x1).fuses = x0.fuses ∧
    (updateComponent x0 x1).shelfSkips = x0.shelfSkips ∧ (updateComponent x0 x1).shelfCuts = x0.shelfCuts ∧
    (updateComponent x0 x1).pending = x0.pending := by simp [updateComponent]

theorem execPldmUpdateComponent_frame (x0 x1) : ∀ t, (execPldmUpdateComponent x0 x1) = .next t → t.fabric = x1.fabric ∧ t.store = x1.store ∧
    t.tier = x1.tier ∧ t.engines = x1.engines ∧ t.gen = x1.gen ∧ t.text = x1.text ∧ t.pair = x1.pair ∧ t.flash = x1.flash ∧
    t.power = x1.power ∧ t.limits = x1.limits ∧ t.fuses = x1.fuses ∧ t.shelfSkips = x1.shelfSkips ∧ t.shelfCuts = x1.shelfCuts ∧
    t.pending = x1.pending := by simp [execPldmUpdateComponent]

@[simp] theorem revokeSlot_frame (x0 x1 x2) : (revokeSlot x0 x1 x2).fabric = x0.fabric ∧ (revokeSlot x0 x1 x2).store = x0.store ∧
    (revokeSlot x0 x1 x2).tier = x0.tier ∧ (revokeSlot x0 x1 x2).engines = x0.engines ∧ (revokeSlot x0 x1 x2).gen = x0.gen ∧
    (revokeSlot x0 x1 x2).text = x0.text ∧ (revokeSlot x0 x1 x2).pair = x0.pair ∧ (revokeSlot x0 x1 x2).flash = x0.flash ∧
    (revokeSlot x0 x1 x2).power = x0.power ∧ (revokeSlot x0 x1 x2).limits = x0.limits ∧ (revokeSlot x0 x1 x2).shelfSkips = x0.shelfSkips ∧
    (revokeSlot x0 x1 x2).shelfCuts = x0.shelfCuts ∧ (revokeSlot x0 x1 x2).free = x0.free ∧ (revokeSlot x0 x1 x2).pending = x0.pending := by simp [revokeSlot]

@[simp] theorem verifyStaged_frame (x0 x1 x2 x3) : (verifyStaged x0 x1 x2 x3).fabric = x0.fabric ∧
    (verifyStaged x0 x1 x2 x3).store = x0.store ∧ (verifyStaged x0 x1 x2 x3).tier = x0.tier ∧
    (verifyStaged x0 x1 x2 x3).engines = x0.engines ∧ (verifyStaged x0 x1 x2 x3).gen = x0.gen ∧ (verifyStaged x0 x1 x2 x3).text = x0.text ∧
    (verifyStaged x0 x1 x2 x3).pair = x0.pair ∧ (verifyStaged x0 x1 x2 x3).flash = x0.flash ∧ (verifyStaged x0 x1 x2 x3).power = x0.power ∧
    (verifyStaged x0 x1 x2 x3).limits = x0.limits ∧ (verifyStaged x0 x1 x2 x3).shelfSkips = x0.shelfSkips ∧
    (verifyStaged x0 x1 x2 x3).shelfCuts = x0.shelfCuts ∧ (verifyStaged x0 x1 x2 x3).free = x0.free ∧
    (verifyStaged x0 x1 x2 x3).pending = x0.pending := by
  unfold verifyStaged
  repeat' split
  all_goals ((try simp only [Prod.ext_iff] at *); (try casesm* _ ∧ _); (try subst_vars); (try simp))

@[simp] theorem dataChunk_frame (x0 x1 x2 x3 x4) : (dataChunk x0 x1 x2 x3 x4).fabric = x0.fabric ∧
    (dataChunk x0 x1 x2 x3 x4).store = x0.store ∧ (dataChunk x0 x1 x2 x3 x4).tier = x0.tier ∧
    (dataChunk x0 x1 x2 x3 x4).engines = x0.engines ∧ (dataChunk x0 x1 x2 x3 x4).gen = x0.gen ∧ (dataChunk x0 x1 x2 x3 x4).text = x0.text ∧
    (dataChunk x0 x1 x2 x3 x4).pair = x0.pair ∧ (dataChunk x0 x1 x2 x3 x4).flash = x0.flash ∧ (dataChunk x0 x1 x2 x3 x4).power = x0.power ∧
    (dataChunk x0 x1 x2 x3 x4).limits = x0.limits ∧ (dataChunk x0 x1 x2 x3 x4).shelfSkips = x0.shelfSkips ∧
    (dataChunk x0 x1 x2 x3 x4).shelfCuts = x0.shelfCuts ∧ (dataChunk x0 x1 x2 x3 x4).free = x0.free ∧
    (dataChunk x0 x1 x2 x3 x4).pending = x0.pending := by unfold dataChunk; split <;> simp

theorem execFwDataChunk_frame (x0 x1 x2 x3 x4) : ∀ t, (execFwDataChunk x0 x1 x2 x3 x4) = .next t → t.fabric = x4.fabric ∧ t.store = x4.store ∧
    t.tier = x4.tier ∧ t.engines = x4.engines ∧ t.gen = x4.gen ∧ t.text = x4.text ∧ t.pair = x4.pair ∧ t.flash = x4.flash ∧
    t.power = x4.power ∧ t.limits = x4.limits ∧ t.shelfSkips = x4.shelfSkips ∧ t.shelfCuts = x4.shelfCuts ∧ t.free = x4.free ∧
    t.pending = x4.pending := by simp [execFwDataChunk]

@[simp] theorem beginDrain_frame (x0) : (beginDrain x0).fabric = x0.fabric ∧ (beginDrain x0).store = x0.store ∧
    (beginDrain x0).tier = x0.tier ∧ (beginDrain x0).engines = x0.engines ∧ (beginDrain x0).gen = x0.gen ∧ (beginDrain x0).text = x0.text ∧
    (beginDrain x0).pair = x0.pair ∧ (beginDrain x0).flash = x0.flash ∧ (beginDrain x0).power = x0.power ∧
    (beginDrain x0).limits = x0.limits ∧ (beginDrain x0).fuses = x0.fuses ∧ (beginDrain x0).shelfSkips = x0.shelfSkips ∧
    (beginDrain x0).shelfCuts = x0.shelfCuts ∧ (beginDrain x0).free = x0.free ∧ (beginDrain x0).pending = x0.pending := by simp [beginDrain]

@[simp] theorem noteNoUtc_frame (x0) : (noteNoUtc x0).fabric = x0.fabric ∧ (noteNoUtc x0).store = x0.store ∧ (noteNoUtc x0).tier = x0.tier ∧
    (noteNoUtc x0).engines = x0.engines ∧ (noteNoUtc x0).gen = x0.gen ∧ (noteNoUtc x0).text = x0.text ∧ (noteNoUtc x0).pair = x0.pair ∧
    (noteNoUtc x0).flash = x0.flash ∧ (noteNoUtc x0).power = x0.power ∧ (noteNoUtc x0).limits = x0.limits ∧ (noteNoUtc x0).fuses = x0.fuses ∧
    (noteNoUtc x0).shelfSkips = x0.shelfSkips ∧ (noteNoUtc x0).shelfCuts = x0.shelfCuts ∧ (noteNoUtc x0).free = x0.free ∧
    (noteNoUtc x0).pending = x0.pending := by simp [noteNoUtc]

@[simp] theorem activateFirmware_frame (x0) : (activateFirmware x0).fabric = x0.fabric ∧ (activateFirmware x0).store = x0.store ∧
    (activateFirmware x0).tier = x0.tier ∧ (activateFirmware x0).engines = x0.engines ∧ (activateFirmware x0).gen = x0.gen ∧
    (activateFirmware x0).text = x0.text ∧ (activateFirmware x0).pair = x0.pair ∧ (activateFirmware x0).flash = x0.flash ∧
    (activateFirmware x0).power = x0.power ∧ (activateFirmware x0).limits = x0.limits ∧ (activateFirmware x0).fuses = x0.fuses ∧
    (activateFirmware x0).shelfSkips = x0.shelfSkips ∧ (activateFirmware x0).shelfCuts = x0.shelfCuts ∧
    (activateFirmware x0).pending = x0.pending := by simp [activateFirmware]

theorem execActivateFirmware_frame (x0) : ∀ t, (execActivateFirmware x0) = .next t → t.fabric = x0.fabric ∧ t.store = x0.store ∧
    t.tier = x0.tier ∧ t.engines = x0.engines ∧ t.gen = x0.gen ∧ t.text = x0.text ∧ t.pair = x0.pair ∧ t.flash = x0.flash ∧
    t.power = x0.power ∧ t.limits = x0.limits ∧ t.fuses = x0.fuses ∧ t.shelfSkips = x0.shelfSkips ∧ t.shelfCuts = x0.shelfCuts ∧
    t.pending = x0.pending := by simp [execActivateFirmware]

@[simp] theorem schedule_frame (x0 x1) : ((schedule x0 x1)).1.fabric = x0.fabric ∧ ((schedule x0 x1)).1.store = x0.store ∧
    ((schedule x0 x1)).1.tier = x0.tier ∧ ((schedule x0 x1)).1.engines = x0.engines ∧ ((schedule x0 x1)).1.gen = x0.gen ∧
    ((schedule x0 x1)).1.text = x0.text ∧ ((schedule x0 x1)).1.pair = x0.pair ∧ ((schedule x0 x1)).1.flash = x0.flash ∧
    ((schedule x0 x1)).1.power = x0.power ∧ ((schedule x0 x1)).1.limits = x0.limits ∧ ((schedule x0 x1)).1.fuses = x0.fuses ∧
    ((schedule x0 x1)).1.shelfSkips = x0.shelfSkips ∧ ((schedule x0 x1)).1.shelfCuts = x0.shelfCuts ∧ ((schedule x0 x1)).1.free = x0.free ∧
    ((schedule x0 x1)).1.pending = x0.pending := by simp [schedule]

theorem execFwSchedule_frame (x0 x1 x2) : ∀ t, (execFwSchedule x0 x1 x2) = .next t → t.fabric = x2.fabric ∧ t.store = x2.store ∧
    t.tier = x2.tier ∧ t.engines = x2.engines ∧ t.gen = x2.gen ∧ t.text = x2.text ∧ t.pair = x2.pair ∧ t.flash = x2.flash ∧
    t.power = x2.power ∧ t.limits = x2.limits ∧ t.fuses = x2.fuses ∧ t.shelfSkips = x2.shelfSkips ∧ t.shelfCuts = x2.shelfCuts ∧
    t.free = x2.free ∧ t.pending = x2.pending := by simp [execFwSchedule]

@[simp] theorem cancelActivation_frame (x0) : ((cancelActivation x0)).1.fabric = x0.fabric ∧ ((cancelActivation x0)).1.store = x0.store ∧
    ((cancelActivation x0)).1.tier = x0.tier ∧ ((cancelActivation x0)).1.engines = x0.engines ∧ ((cancelActivation x0)).1.host = x0.host ∧
    ((cancelActivation x0)).1.gen = x0.gen ∧ ((cancelActivation x0)).1.text = x0.text ∧ ((cancelActivation x0)).1.pair = x0.pair ∧
    ((cancelActivation x0)).1.flash = x0.flash ∧ ((cancelActivation x0)).1.power = x0.power ∧ ((cancelActivation x0)).1.limits = x0.limits ∧
    ((cancelActivation x0)).1.fuses = x0.fuses ∧ ((cancelActivation x0)).1.shelfSkips = x0.shelfSkips ∧
    ((cancelActivation x0)).1.shelfCuts = x0.shelfCuts ∧ ((cancelActivation x0)).1.free = x0.free ∧
    ((cancelActivation x0)).1.pending = x0.pending := by simp [cancelActivation]

theorem execFwCancel_frame (x0 x1) : ∀ t, (execFwCancel x0 x1) = .next t → t.fabric = x1.fabric ∧ t.store = x1.store ∧ t.tier = x1.tier ∧
    t.engines = x1.engines ∧ t.gen = x1.gen ∧ t.text = x1.text ∧ t.pair = x1.pair ∧ t.flash = x1.flash ∧ t.power = x1.power ∧
    t.limits = x1.limits ∧ t.fuses = x1.fuses ∧ t.shelfSkips = x1.shelfSkips ∧ t.shelfCuts = x1.shelfCuts ∧ t.free = x1.free ∧
    t.pending = x1.pending := by simp [execFwCancel]

@[simp] theorem pendingNotice_frame (x0) : (pendingNotice x0).fabric = x0.fabric ∧ (pendingNotice x0).store = x0.store ∧
    (pendingNotice x0).tier = x0.tier ∧ (pendingNotice x0).engines = x0.engines ∧ (pendingNotice x0).gen = x0.gen ∧
    (pendingNotice x0).text = x0.text ∧ (pendingNotice x0).pair = x0.pair ∧ (pendingNotice x0).flash = x0.flash ∧
    (pendingNotice x0).power = x0.power ∧ (pendingNotice x0).limits = x0.limits ∧ (pendingNotice x0).fuses = x0.fuses ∧
    (pendingNotice x0).shelfSkips = x0.shelfSkips ∧ (pendingNotice x0).shelfCuts = x0.shelfCuts ∧ (pendingNotice x0).free = x0.free ∧
    (pendingNotice x0).pending = x0.pending := by simp [pendingNotice]

theorem execFwPending_frame (x0) : ∀ t, (execFwPending x0) = .next t → t.fabric = x0.fabric ∧ t.store = x0.store ∧ t.tier = x0.tier ∧
    t.engines = x0.engines ∧ t.gen = x0.gen ∧ t.text = x0.text ∧ t.pair = x0.pair ∧ t.flash = x0.flash ∧ t.power = x0.power ∧
    t.limits = x0.limits ∧ t.fuses = x0.fuses ∧ t.shelfSkips = x0.shelfSkips ∧ t.shelfCuts = x0.shelfCuts ∧ t.free = x0.free ∧
    t.pending = x0.pending := by simp [execFwPending]

@[simp] theorem activationTime_frame (x0) : (activationTime x0).fabric = x0.fabric ∧ (activationTime x0).store = x0.store ∧
    (activationTime x0).tier = x0.tier ∧ (activationTime x0).engines = x0.engines ∧ (activationTime x0).gen = x0.gen ∧
    (activationTime x0).text = x0.text ∧ (activationTime x0).pair = x0.pair ∧ (activationTime x0).flash = x0.flash ∧
    (activationTime x0).power = x0.power ∧ (activationTime x0).limits = x0.limits ∧ (activationTime x0).fuses = x0.fuses ∧
    (activationTime x0).shelfSkips = x0.shelfSkips ∧ (activationTime x0).shelfCuts = x0.shelfCuts ∧ (activationTime x0).free = x0.free ∧
    (activationTime x0).pending = x0.pending := by simp [activationTime]

theorem execFwActivation_frame (x0) : ∀ t, (execFwActivation x0) = .next t → t.fabric = x0.fabric ∧ t.store = x0.store ∧ t.tier = x0.tier ∧
    t.engines = x0.engines ∧ t.gen = x0.gen ∧ t.text = x0.text ∧ t.pair = x0.pair ∧ t.flash = x0.flash ∧ t.power = x0.power ∧
    t.limits = x0.limits ∧ t.fuses = x0.fuses ∧ t.shelfSkips = x0.shelfSkips ∧ t.shelfCuts = x0.shelfCuts ∧ t.free = x0.free ∧
    t.pending = x0.pending := by simp [execFwActivation]

theorem execFwPairActivation_frame (x0) : ∀ t, (execFwPairActivation x0) = .next t → t.fabric = x0.fabric ∧ t.store = x0.store ∧
    t.tier = x0.tier ∧ t.engines = x0.engines ∧ t.gen = x0.gen ∧ t.text = x0.text ∧ t.pair = x0.pair ∧ t.flash = x0.flash ∧
    t.power = x0.power ∧ t.limits = x0.limits ∧ t.fuses = x0.fuses ∧ t.shelfSkips = x0.shelfSkips ∧ t.shelfCuts = x0.shelfCuts ∧
    t.free = x0.free ∧ t.pending = x0.pending := by simp [execFwPairActivation]

@[simp] theorem activationHeld_frame (x0) : (activationHeld x0).fabric = x0.fabric ∧ (activationHeld x0).store = x0.store ∧
    (activationHeld x0).tier = x0.tier ∧ (activationHeld x0).engines = x0.engines ∧ (activationHeld x0).gen = x0.gen ∧
    (activationHeld x0).text = x0.text ∧ (activationHeld x0).pair = x0.pair ∧ (activationHeld x0).flash = x0.flash ∧
    (activationHeld x0).power = x0.power ∧ (activationHeld x0).limits = x0.limits ∧ (activationHeld x0).fuses = x0.fuses ∧
    (activationHeld x0).shelfSkips = x0.shelfSkips ∧ (activationHeld x0).shelfCuts = x0.shelfCuts ∧ (activationHeld x0).free = x0.free ∧
    (activationHeld x0).pending = x0.pending := by simp [activationHeld]

theorem execFwActivationHeld_frame (x0) : ∀ t, (execFwActivationHeld x0) = .next t → t.fabric = x0.fabric ∧ t.store = x0.store ∧
    t.tier = x0.tier ∧ t.engines = x0.engines ∧ t.gen = x0.gen ∧ t.text = x0.text ∧ t.pair = x0.pair ∧ t.flash = x0.flash ∧
    t.power = x0.power ∧ t.limits = x0.limits ∧ t.fuses = x0.fuses ∧ t.shelfSkips = x0.shelfSkips ∧ t.shelfCuts = x0.shelfCuts ∧
    t.free = x0.free ∧ t.pending = x0.pending := by simp [execFwActivationHeld]

@[simp] theorem dropMutations_frame (x0) : (dropMutations x0).fabric = x0.fabric ∧ (dropMutations x0).store = x0.store ∧
    (dropMutations x0).tier = x0.tier ∧ (dropMutations x0).engines = x0.engines ∧ (dropMutations x0).host = x0.host ∧
    (dropMutations x0).gen = x0.gen ∧ (dropMutations x0).text = x0.text ∧ (dropMutations x0).flash = x0.flash ∧
    (dropMutations x0).bureau = x0.bureau ∧ (dropMutations x0).power = x0.power ∧ (dropMutations x0).limits = x0.limits ∧
    (dropMutations x0).fuses = x0.fuses ∧ (dropMutations x0).shelfSkips = x0.shelfSkips ∧ (dropMutations x0).shelfCuts = x0.shelfCuts ∧
    (dropMutations x0).free = x0.free ∧ (dropMutations x0).pending = x0.pending := by simp [dropMutations]

@[simp] theorem drainEnd_frame (x0) : (drainEnd x0).fuses = x0.fuses ∧ (drainEnd x0).shelfSkips = x0.shelfSkips ∧
    (drainEnd x0).shelfCuts = x0.shelfCuts ∧ (drainEnd x0).pending = x0.pending := by unfold drainEnd; split <;> simp

theorem execDrainEnd_frame (x0) : ∀ t, (execDrainEnd x0) = .next t → t.fuses = x0.fuses ∧ t.shelfSkips = x0.shelfSkips ∧
    t.shelfCuts = x0.shelfCuts ∧ t.pending = x0.pending := by simp [execDrainEnd]

@[simp] theorem commitFirmware_frame (x0) : ((commitFirmware x0)).1.fabric = x0.fabric ∧ ((commitFirmware x0)).1.store = x0.store ∧
    ((commitFirmware x0)).1.tier = x0.tier ∧ ((commitFirmware x0)).1.engines = x0.engines ∧ ((commitFirmware x0)).1.gen = x0.gen ∧
    ((commitFirmware x0)).1.text = x0.text ∧ ((commitFirmware x0)).1.pair = x0.pair ∧ ((commitFirmware x0)).1.flash = x0.flash ∧
    ((commitFirmware x0)).1.power = x0.power ∧ ((commitFirmware x0)).1.limits = x0.limits ∧
    ((commitFirmware x0)).1.shelfSkips = x0.shelfSkips ∧ ((commitFirmware x0)).1.shelfCuts = x0.shelfCuts ∧
    ((commitFirmware x0)).1.free = x0.free ∧ ((commitFirmware x0)).1.pending = x0.pending := by simp [commitFirmware]

theorem execFwCommit_frame (x0 x1) : ∀ t, (execFwCommit x0 x1) = .next t → t.fabric = x1.fabric ∧ t.store = x1.store ∧ t.tier = x1.tier ∧
    t.engines = x1.engines ∧ t.gen = x1.gen ∧ t.text = x1.text ∧ t.pair = x1.pair ∧ t.flash = x1.flash ∧ t.power = x1.power ∧
    t.limits = x1.limits ∧ t.shelfSkips = x1.shelfSkips ∧ t.shelfCuts = x1.shelfCuts ∧ t.free = x1.free ∧ t.pending = x1.pending := by
  unfold execFwCommit
  repeat' split
  all_goals ((try simp only [Prod.ext_iff] at *); (try casesm* _ ∧ _); (try subst_vars); first | (simp; done) | (simp_all; done) | skip)

@[simp] theorem applyHeld_frame (x0 x1) : (applyHeld x0 x1).flash = x0.flash ∧ (applyHeld x0 x1).power = x0.power ∧
    (applyHeld x0 x1).limits = x0.limits ∧ (applyHeld x0 x1).fuses = x0.fuses ∧ (applyHeld x0 x1).shelfSkips = x0.shelfSkips ∧
    (applyHeld x0 x1).pending = x0.pending := by unfold applyHeld; split <;> simp

@[simp] theorem resumeFetch_frame (x0) : (resumeFetch x0).fabric = x0.fabric ∧ (resumeFetch x0).store = x0.store ∧
    (resumeFetch x0).tier = x0.tier ∧ (resumeFetch x0).engines = x0.engines ∧ (resumeFetch x0).gen = x0.gen ∧
    (resumeFetch x0).text = x0.text ∧ (resumeFetch x0).pair = x0.pair ∧ (resumeFetch x0).flash = x0.flash ∧
    (resumeFetch x0).bureau = x0.bureau ∧ (resumeFetch x0).power = x0.power ∧ (resumeFetch x0).limits = x0.limits ∧
    (resumeFetch x0).fuses = x0.fuses ∧ (resumeFetch x0).shelfSkips = x0.shelfSkips ∧ (resumeFetch x0).shelfCuts = x0.shelfCuts ∧
    (resumeFetch x0).free = x0.free ∧ (resumeFetch x0).pending = x0.pending := by simp [resumeFetch]

@[simp] theorem activated_frame (x0) : (activated x0).fabric = x0.fabric ∧ (activated x0).store = x0.store ∧ (activated x0).tier = x0.tier ∧
    (activated x0).engines = x0.engines ∧ (activated x0).gen = x0.gen ∧ (activated x0).text = x0.text ∧ (activated x0).pair = x0.pair ∧
    (activated x0).flash = x0.flash ∧ (activated x0).power = x0.power ∧ (activated x0).limits = x0.limits ∧ (activated x0).fuses = x0.fuses ∧
    (activated x0).shelfSkips = x0.shelfSkips ∧ (activated x0).shelfCuts = x0.shelfCuts ∧ (activated x0).free = x0.free ∧
    (activated x0).pending = x0.pending := by simp [activated]

@[simp] theorem bootOk_frame (x0) : (bootOk x0).limits = x0.limits ∧ (bootOk x0).fuses = x0.fuses ∧ (bootOk x0).shelfSkips = x0.shelfSkips ∧
    (bootOk x0).pending = x0.pending := by simp [bootOk]

theorem execBootOk_frame (x0) : ∀ t, (execBootOk x0) = .next t → t.limits = x0.limits ∧ t.fuses = x0.fuses ∧ t.shelfSkips = x0.shelfSkips ∧
    t.pending = x0.pending := by simp [execBootOk]

@[simp] theorem restartBoot_frame (x0) : (restartBoot x0).store = x0.store ∧ (restartBoot x0).tier = x0.tier ∧
    (restartBoot x0).engines = x0.engines ∧ (restartBoot x0).gen = x0.gen ∧ (restartBoot x0).text = x0.text ∧
    (restartBoot x0).flash = x0.flash ∧ (restartBoot x0).limits = x0.limits ∧ (restartBoot x0).fuses = x0.fuses ∧
    (restartBoot x0).shelfSkips = x0.shelfSkips ∧ (restartBoot x0).shelfCuts = x0.shelfCuts ∧ (restartBoot x0).pending = x0.pending := by simp [restartBoot]

@[simp] theorem bootTimeout_frame (x0) : (bootTimeout x0).store = x0.store ∧ (bootTimeout x0).tier = x0.tier ∧
    (bootTimeout x0).engines = x0.engines ∧ (bootTimeout x0).gen = x0.gen ∧ (bootTimeout x0).text = x0.text ∧
    (bootTimeout x0).flash = x0.flash ∧ (bootTimeout x0).limits = x0.limits ∧ (bootTimeout x0).fuses = x0.fuses ∧
    (bootTimeout x0).shelfSkips = x0.shelfSkips ∧ (bootTimeout x0).shelfCuts = x0.shelfCuts ∧ (bootTimeout x0).pending = x0.pending := by simp [bootTimeout]

theorem execBootTimeout_frame (x0) : ∀ t, (execBootTimeout x0) = .next t → t.store = x0.store ∧ t.tier = x0.tier ∧ t.engines = x0.engines ∧
    t.gen = x0.gen ∧ t.text = x0.text ∧ t.flash = x0.flash ∧ t.limits = x0.limits ∧ t.fuses = x0.fuses ∧ t.shelfSkips = x0.shelfSkips ∧
    t.shelfCuts = x0.shelfCuts ∧ t.pending = x0.pending := by simp [execBootTimeout]

@[simp] theorem recoveryCommand_frame (x0 x1 x2) : ((∀ y0, (((x2 y0)).1).fabric = (y0).fabric) → (recoveryCommand x0 x1 x2).fabric = x0.fabric) ∧
    ((∀ y0, (((x2 y0)).1).store = (y0).store) → (recoveryCommand x0 x1 x2).store = x0.store) ∧
    ((∀ y0, (((x2 y0)).1).tier = (y0).tier) → (recoveryCommand x0 x1 x2).tier = x0.tier) ∧
    ((∀ y0, (((x2 y0)).1).engines = (y0).engines) → (recoveryCommand x0 x1 x2).engines = x0.engines) ∧
    ((∀ y0, (((x2 y0)).1).gen = (y0).gen) → (recoveryCommand x0 x1 x2).gen = x0.gen) ∧
    ((∀ y0, (((x2 y0)).1).text = (y0).text) → (recoveryCommand x0 x1 x2).text = x0.text) ∧
    ((∀ y0, (((x2 y0)).1).pair = (y0).pair) → (recoveryCommand x0 x1 x2).pair = x0.pair) ∧
    ((∀ y0, (((x2 y0)).1).flash = (y0).flash) → (recoveryCommand x0 x1 x2).flash = x0.flash) ∧
    ((∀ y0, (((x2 y0)).1).power = (y0).power) → (recoveryCommand x0 x1 x2).power = x0.power) ∧
    ((∀ y0, (((x2 y0)).1).limits = (y0).limits) → (recoveryCommand x0 x1 x2).limits = x0.limits) ∧
    ((∀ y0, (((x2 y0)).1).fuses = (y0).fuses) → (recoveryCommand x0 x1 x2).fuses = x0.fuses) ∧
    ((∀ y0, (((x2 y0)).1).shelfSkips = (y0).shelfSkips) → (recoveryCommand x0 x1 x2).shelfSkips = x0.shelfSkips) ∧
    ((∀ y0, (((x2 y0)).1).shelfCuts = (y0).shelfCuts) → (recoveryCommand x0 x1 x2).shelfCuts = x0.shelfCuts) ∧
    ((∀ y0, (((x2 y0)).1).free = (y0).free) → (recoveryCommand x0 x1 x2).free = x0.free) ∧
    ((∀ y0, (((x2 y0)).1).pending = (y0).pending) → (recoveryCommand x0 x1 x2).pending = x0.pending) := by
  refine ⟨fun h0 => ?_, fun h0 => ?_, fun h0 => ?_, fun h0 => ?_, fun h0 => ?_, fun h0 => ?_, fun h0 => ?_, fun h0 => ?_, fun h0 => ?_, fun h0 => ?_, fun h0 => ?_, fun h0 => ?_, fun h0 => ?_, fun h0 => ?_, fun h0 => ?_⟩
  all_goals unfold recoveryCommand
  all_goals (repeat' split)
  all_goals ((try simp only [Prod.ext_iff] at *); (try casesm* _ ∧ _); (try subst_vars); first | (simp [h0]; done) | (simp_all; done) | skip)

@[simp] theorem recoveryWrite_frame (x0 x1 x2) : ((recoveryWrite x0 x1 x2)).1.fabric = x0.fabric ∧
    ((recoveryWrite x0 x1 x2)).1.store = x0.store ∧ ((recoveryWrite x0 x1 x2)).1.tier = x0.tier ∧
    ((recoveryWrite x0 x1 x2)).1.engines = x0.engines ∧ ((recoveryWrite x0 x1 x2)).1.host = x0.host ∧
    ((recoveryWrite x0 x1 x2)).1.gen = x0.gen ∧ ((recoveryWrite x0 x1 x2)).1.text = x0.text ∧ ((recoveryWrite x0 x1 x2)).1.pair = x0.pair ∧
    ((recoveryWrite x0 x1 x2)).1.flash = x0.flash ∧ ((recoveryWrite x0 x1 x2)).1.power = x0.power ∧
    ((recoveryWrite x0 x1 x2)).1.limits = x0.limits ∧ ((recoveryWrite x0 x1 x2)).1.fuses = x0.fuses ∧
    ((recoveryWrite x0 x1 x2)).1.shelfSkips = x0.shelfSkips ∧ ((recoveryWrite x0 x1 x2)).1.shelfCuts = x0.shelfCuts ∧
    ((recoveryWrite x0 x1 x2)).1.free = x0.free ∧ ((recoveryWrite x0 x1 x2)).1.pending = x0.pending := by simp [recoveryWrite]

theorem execRecoveryWrite_frame (x0 x1 x2 x3) : ∀ t, (execRecoveryWrite x0 x1 x2 x3) = .next t → t.fabric = x3.fabric ∧ t.store = x3.store ∧
    t.tier = x3.tier ∧ t.engines = x3.engines ∧ t.gen = x3.gen ∧ t.text = x3.text ∧ t.pair = x3.pair ∧ t.flash = x3.flash ∧
    t.power = x3.power ∧ t.limits = x3.limits ∧ t.fuses = x3.fuses ∧ t.shelfSkips = x3.shelfSkips ∧ t.shelfCuts = x3.shelfCuts ∧
    t.free = x3.free ∧ t.pending = x3.pending := by simp [execRecoveryWrite]

@[simp] theorem recoveryStatus_frame (x0) : ((recoveryStatus x0)).1.fabric = x0.fabric ∧ ((recoveryStatus x0)).1.store = x0.store ∧
    ((recoveryStatus x0)).1.tier = x0.tier ∧ ((recoveryStatus x0)).1.engines = x0.engines ∧ ((recoveryStatus x0)).1.host = x0.host ∧
    ((recoveryStatus x0)).1.gen = x0.gen ∧ ((recoveryStatus x0)).1.text = x0.text ∧ ((recoveryStatus x0)).1.pair = x0.pair ∧
    ((recoveryStatus x0)).1.flash = x0.flash ∧ ((recoveryStatus x0)).1.bureau = x0.bureau ∧ ((recoveryStatus x0)).1.power = x0.power ∧
    ((recoveryStatus x0)).1.limits = x0.limits ∧ ((recoveryStatus x0)).1.fuses = x0.fuses ∧
    ((recoveryStatus x0)).1.shelfSkips = x0.shelfSkips ∧ ((recoveryStatus x0)).1.shelfCuts = x0.shelfCuts ∧
    ((recoveryStatus x0)).1.pending = x0.pending := by simp [recoveryStatus]

theorem execRecoveryStatus_frame (x0 x1) : ∀ t, (execRecoveryStatus x0 x1) = .next t → t.fabric = x1.fabric ∧ t.store = x1.store ∧
    t.tier = x1.tier ∧ t.engines = x1.engines ∧ t.gen = x1.gen ∧ t.text = x1.text ∧ t.pair = x1.pair ∧ t.flash = x1.flash ∧
    t.power = x1.power ∧ t.limits = x1.limits ∧ t.fuses = x1.fuses ∧ t.shelfSkips = x1.shelfSkips ∧ t.shelfCuts = x1.shelfCuts ∧
    t.pending = x1.pending := by
  unfold execRecoveryStatus
  repeat' split
  all_goals ((try simp only [Prod.ext_iff] at *); (try casesm* _ ∧ _); (try subst_vars); first | (simp; done) | (simp_all; done) | skip)

/-! ## Registers -/

@[simp] theorem logAccess_frame (x0 x1 x2) : (logAccess x0 x1 x2).fabric = x0.fabric ∧ (logAccess x0 x1 x2).store = x0.store ∧
    (logAccess x0 x1 x2).tier = x0.tier ∧ (logAccess x0 x1 x2).engines = x0.engines ∧ (logAccess x0 x1 x2).gen = x0.gen ∧
    (logAccess x0 x1 x2).text = x0.text ∧ (logAccess x0 x1 x2).pair = x0.pair ∧ (logAccess x0 x1 x2).flash = x0.flash ∧
    (logAccess x0 x1 x2).power = x0.power ∧ (logAccess x0 x1 x2).limits = x0.limits ∧ (logAccess x0 x1 x2).fuses = x0.fuses ∧
    (logAccess x0 x1 x2).shelfSkips = x0.shelfSkips ∧ (logAccess x0 x1 x2).shelfCuts = x0.shelfCuts ∧ (logAccess x0 x1 x2).free = x0.free ∧
    (logAccess x0 x1 x2).pending = x0.pending := by simp [logAccess]

@[simp] theorem refuseAt_frame (x0 x1 x2) : (refuseAt x0 x1 x2).fabric = x0.fabric ∧ (refuseAt x0 x1 x2).store = x0.store ∧
    (refuseAt x0 x1 x2).engines = x0.engines ∧ (refuseAt x0 x1 x2).flash = x0.flash ∧ (refuseAt x0 x1 x2).power = x0.power ∧
    (refuseAt x0 x1 x2).limits = x0.limits ∧ (refuseAt x0 x1 x2).fuses = x0.fuses ∧ (refuseAt x0 x1 x2).shelfSkips = x0.shelfSkips ∧
    (refuseAt x0 x1 x2).shelfCuts = x0.shelfCuts ∧ (refuseAt x0 x1 x2).free = x0.free ∧ (refuseAt x0 x1 x2).pending = x0.pending := by unfold refuseAt; split <;> simp

@[simp] theorem badAccess_frame (x0 x1 x2) : (badAccess x0 x1 x2).fabric = x0.fabric ∧ (badAccess x0 x1 x2).store = x0.store ∧
    (badAccess x0 x1 x2).engines = x0.engines ∧ (badAccess x0 x1 x2).flash = x0.flash ∧ (badAccess x0 x1 x2).power = x0.power ∧
    (badAccess x0 x1 x2).limits = x0.limits ∧ (badAccess x0 x1 x2).fuses = x0.fuses ∧ (badAccess x0 x1 x2).shelfSkips = x0.shelfSkips ∧
    (badAccess x0 x1 x2).shelfCuts = x0.shelfCuts ∧ (badAccess x0 x1 x2).free = x0.free ∧ (badAccess x0 x1 x2).pending = x0.pending := by simp [badAccess]

@[simp] theorem enablePair_frame (x0 x1 x2 x3) : (enablePair x0 x1 x2 x3).fabric = x0.fabric ∧ (enablePair x0 x1 x2 x3).store = x0.store ∧
    (enablePair x0 x1 x2 x3).tier = x0.tier ∧ (enablePair x0 x1 x2 x3).engines = x0.engines ∧ (enablePair x0 x1 x2 x3).text = x0.text ∧
    (enablePair x0 x1 x2 x3).flash = x0.flash ∧ (enablePair x0 x1 x2 x3).power = x0.power ∧ (enablePair x0 x1 x2 x3).limits = x0.limits ∧
    (enablePair x0 x1 x2 x3).fuses = x0.fuses ∧ (enablePair x0 x1 x2 x3).shelfSkips = x0.shelfSkips ∧
    (enablePair x0 x1 x2 x3).shelfCuts = x0.shelfCuts ∧ (enablePair x0 x1 x2 x3).pending = x0.pending := by
  unfold enablePair
  repeat' split
  all_goals ((try simp only [Prod.ext_iff] at *); (try casesm* _ ∧ _); (try subst_vars); (try simp))

@[simp] theorem disablePair_frame (x0 x1 x2) : (disablePair x0 x1 x2).fabric = x0.fabric ∧ (disablePair x0 x1 x2).engines = x0.engines ∧
    (disablePair x0 x1 x2).text = x0.text ∧ (disablePair x0 x1 x2).flash = x0.flash ∧ (disablePair x0 x1 x2).power = x0.power ∧
    (disablePair x0 x1 x2).limits = x0.limits ∧ (disablePair x0 x1 x2).fuses = x0.fuses ∧ (disablePair x0 x1 x2).shelfSkips = x0.shelfSkips ∧
    (disablePair x0 x1 x2).shelfCuts = x0.shelfCuts ∧ (disablePair x0 x1 x2).pending = x0.pending := by simp [disablePair]

@[simp] theorem countDiscard_frame (x0 x1) : (countDiscard x0 x1).fabric = x0.fabric ∧ (countDiscard x0 x1).store = x0.store ∧
    (countDiscard x0 x1).tier = x0.tier ∧ (countDiscard x0 x1).engines = x0.engines ∧ (countDiscard x0 x1).gen = x0.gen ∧
    (countDiscard x0 x1).text = x0.text ∧ (countDiscard x0 x1).pair = x0.pair ∧ (countDiscard x0 x1).flash = x0.flash ∧
    (countDiscard x0 x1).bureau = x0.bureau ∧ (countDiscard x0 x1).power = x0.power ∧ (countDiscard x0 x1).limits = x0.limits ∧
    (countDiscard x0 x1).fuses = x0.fuses ∧ (countDiscard x0 x1).shelfSkips = x0.shelfSkips ∧ (countDiscard x0 x1).shelfCuts = x0.shelfCuts ∧
    (countDiscard x0 x1).free = x0.free ∧ (countDiscard x0 x1).pending = x0.pending := by simp [countDiscard]

@[simp] theorem writeCtrl_frame (x0 x1 x2 x3 x4) : (writeCtrl x0 x1 x2 x3 x4).fabric = x0.fabric ∧
    (writeCtrl x0 x1 x2 x3 x4).engines = x0.engines ∧ (writeCtrl x0 x1 x2 x3 x4).text = x0.text ∧
    (writeCtrl x0 x1 x2 x3 x4).flash = x0.flash ∧ (writeCtrl x0 x1 x2 x3 x4).power = x0.power ∧
    (writeCtrl x0 x1 x2 x3 x4).limits = x0.limits ∧ (writeCtrl x0 x1 x2 x3 x4).fuses = x0.fuses ∧
    (writeCtrl x0 x1 x2 x3 x4).shelfSkips = x0.shelfSkips ∧ (writeCtrl x0 x1 x2 x3 x4).shelfCuts = x0.shelfCuts ∧
    (writeCtrl x0 x1 x2 x3 x4).pending = x0.pending := by simp [writeCtrl]

@[simp] theorem writeQpWide_frame (x0 x1 x2 x3 x4) : (writeQpWide x0 x1 x2 x3 x4).fabric = x0.fabric ∧
    (writeQpWide x0 x1 x2 x3 x4).store = x0.store ∧ (writeQpWide x0 x1 x2 x3 x4).tier = x0.tier ∧
    (writeQpWide x0 x1 x2 x3 x4).engines = x0.engines ∧ (writeQpWide x0 x1 x2 x3 x4).gen = x0.gen ∧
    (writeQpWide x0 x1 x2 x3 x4).text = x0.text ∧ (writeQpWide x0 x1 x2 x3 x4).pair = x0.pair ∧
    (writeQpWide x0 x1 x2 x3 x4).flash = x0.flash ∧ (writeQpWide x0 x1 x2 x3 x4).bureau = x0.bureau ∧
    (writeQpWide x0 x1 x2 x3 x4).power = x0.power ∧ (writeQpWide x0 x1 x2 x3 x4).limits = x0.limits ∧
    (writeQpWide x0 x1 x2 x3 x4).fuses = x0.fuses ∧ (writeQpWide x0 x1 x2 x3 x4).shelfSkips = x0.shelfSkips ∧
    (writeQpWide x0 x1 x2 x3 x4).shelfCuts = x0.shelfCuts ∧ (writeQpWide x0 x1 x2 x3 x4).free = x0.free ∧
    (writeQpWide x0 x1 x2 x3 x4).pending = x0.pending := by simp [writeQpWide]

@[simp] theorem writeQpSize_frame (x0 x1 x2 x3) : (writeQpSize x0 x1 x2 x3).fabric = x0.fabric ∧ (writeQpSize x0 x1 x2 x3).store = x0.store ∧
    (writeQpSize x0 x1 x2 x3).tier = x0.tier ∧ (writeQpSize x0 x1 x2 x3).engines = x0.engines ∧ (writeQpSize x0 x1 x2 x3).gen = x0.gen ∧
    (writeQpSize x0 x1 x2 x3).text = x0.text ∧ (writeQpSize x0 x1 x2 x3).pair = x0.pair ∧ (writeQpSize x0 x1 x2 x3).flash = x0.flash ∧
    (writeQpSize x0 x1 x2 x3).bureau = x0.bureau ∧ (writeQpSize x0 x1 x2 x3).power = x0.power ∧ (writeQpSize x0 x1 x2 x3).limits = x0.limits ∧
    (writeQpSize x0 x1 x2 x3).fuses = x0.fuses ∧ (writeQpSize x0 x1 x2 x3).shelfSkips = x0.shelfSkips ∧
    (writeQpSize x0 x1 x2 x3).shelfCuts = x0.shelfCuts ∧ (writeQpSize x0 x1 x2 x3).free = x0.free ∧
    (writeQpSize x0 x1 x2 x3).pending = x0.pending := by simp [writeQpSize]

@[simp] theorem whenReady_frame (x0 x1) : ((∀ y0, ((x1 y0)).fabric = (y0).fabric) → (whenReady x0 x1).fabric = x0.fabric) ∧
    ((∀ y0, ((x1 y0)).store = (y0).store) → (whenReady x0 x1).store = x0.store) ∧
    ((∀ y0, ((x1 y0)).tier = (y0).tier) → (whenReady x0 x1).tier = x0.tier) ∧
    ((∀ y0, ((x1 y0)).engines = (y0).engines) → (whenReady x0 x1).engines = x0.engines) ∧
    ((∀ y0, ((x1 y0)).host = (y0).host) → (whenReady x0 x1).host = x0.host) ∧
    ((∀ y0, ((x1 y0)).gen = (y0).gen) → (whenReady x0 x1).gen = x0.gen) ∧
    ((∀ y0, ((x1 y0)).text = (y0).text) → (whenReady x0 x1).text = x0.text) ∧
    ((∀ y0, ((x1 y0)).pair = (y0).pair) → (whenReady x0 x1).pair = x0.pair) ∧
    ((∀ y0, ((x1 y0)).flash = (y0).flash) → (whenReady x0 x1).flash = x0.flash) ∧
    ((∀ y0, ((x1 y0)).bureau = (y0).bureau) → (whenReady x0 x1).bureau = x0.bureau) ∧
    ((∀ y0, ((x1 y0)).power = (y0).power) → (whenReady x0 x1).power = x0.power) ∧
    ((∀ y0, ((x1 y0)).limits = (y0).limits) → (whenReady x0 x1).limits = x0.limits) ∧
    ((∀ y0, ((x1 y0)).fuses = (y0).fuses) → (whenReady x0 x1).fuses = x0.fuses) ∧
    ((∀ y0, ((x1 y0)).shelfSkips = (y0).shelfSkips) → (whenReady x0 x1).shelfSkips = x0.shelfSkips) ∧
    ((∀ y0, ((x1 y0)).shelfCuts = (y0).shelfCuts) → (whenReady x0 x1).shelfCuts = x0.shelfCuts) ∧
    ((∀ y0, ((x1 y0)).free = (y0).free) → (whenReady x0 x1).free = x0.free) ∧
    ((∀ y0, ((x1 y0)).pending = (y0).pending) → (whenReady x0 x1).pending = x0.pending) := by
  refine ⟨fun h0 => ?_, fun h0 => ?_, fun h0 => ?_, fun h0 => ?_, fun h0 => ?_, fun h0 => ?_, fun h0 => ?_, fun h0 => ?_, fun h0 => ?_, fun h0 => ?_, fun h0 => ?_, fun h0 => ?_, fun h0 => ?_, fun h0 => ?_, fun h0 => ?_, fun h0 => ?_, fun h0 => ?_⟩
  all_goals unfold whenReady
  all_goals (repeat' split)
  all_goals ((try simp only [Prod.ext_iff] at *); (try casesm* _ ∧ _); (try subst_vars); first | (simp [h0]; done) | (simp_all; done) | skip)

theorem execQpEnable_frame (x0 x1 x2 x3 x4 x5) : ∀ t, (execQpEnable x0 x1 x2 x3 x4 x5) = .next t → t.fabric = x5.fabric ∧
    t.engines = x5.engines ∧ t.text = x5.text ∧ t.flash = x5.flash ∧ t.power = x5.power ∧ t.limits = x5.limits ∧ t.fuses = x5.fuses ∧
    t.shelfSkips = x5.shelfSkips ∧ t.shelfCuts = x5.shelfCuts ∧ t.pending = x5.pending := by
  unfold execQpEnable
  repeat' split
  all_goals ((try simp only [Prod.ext_iff] at *); (try casesm* _ ∧ _); (try subst_vars); first | (simp; done) | (simp_all; done) | skip)

theorem execQpDisable_frame (x0 x1 x2) : ∀ t, (execQpDisable x0 x1 x2) = .next t → t.fabric = x2.fabric ∧ t.engines = x2.engines ∧
    t.text = x2.text ∧ t.flash = x2.flash ∧ t.power = x2.power ∧ t.limits = x2.limits ∧ t.fuses = x2.fuses ∧ t.shelfSkips = x2.shelfSkips ∧
    t.shelfCuts = x2.shelfCuts ∧ t.pending = x2.pending := by
  unfold execQpDisable
  repeat' split
  all_goals ((try simp only [Prod.ext_iff] at *); (try casesm* _ ∧ _); (try subst_vars); first | (simp; done) | (simp_all; done) | skip)

@[simp] theorem disableDone_frame (x0 x1 x2) : (disableDone x0 x1 x2).fabric = x0.fabric ∧ (disableDone x0 x1 x2).store = x0.store ∧
    (disableDone x0 x1 x2).tier = x0.tier ∧ (disableDone x0 x1 x2).engines = x0.engines ∧ (disableDone x0 x1 x2).gen = x0.gen ∧
    (disableDone x0 x1 x2).text = x0.text ∧ (disableDone x0 x1 x2).pair = x0.pair ∧ (disableDone x0 x1 x2).flash = x0.flash ∧
    (disableDone x0 x1 x2).bureau = x0.bureau ∧ (disableDone x0 x1 x2).power = x0.power ∧ (disableDone x0 x1 x2).limits = x0.limits ∧
    (disableDone x0 x1 x2).fuses = x0.fuses ∧ (disableDone x0 x1 x2).shelfSkips = x0.shelfSkips ∧
    (disableDone x0 x1 x2).shelfCuts = x0.shelfCuts ∧ (disableDone x0 x1 x2).free = x0.free ∧ (disableDone x0 x1 x2).pending = x0.pending := by simp [disableDone]

theorem execQpDisableDone_frame (x0 x1 x2) : ∀ t, (execQpDisableDone x0 x1 x2) = .next t → t.fabric = x2.fabric ∧ t.store = x2.store ∧
    t.tier = x2.tier ∧ t.engines = x2.engines ∧ t.gen = x2.gen ∧ t.text = x2.text ∧ t.pair = x2.pair ∧ t.flash = x2.flash ∧
    t.bureau = x2.bureau ∧ t.power = x2.power ∧ t.limits = x2.limits ∧ t.fuses = x2.fuses ∧ t.shelfSkips = x2.shelfSkips ∧
    t.shelfCuts = x2.shelfCuts ∧ t.free = x2.free ∧ t.pending = x2.pending := by simp [execQpDisableDone]

theorem writeWindow_frame (x0 x1) : ∀ t, (writeWindow x0 x1) = .ok t → t.fabric = x0.fabric ∧ t.store = x0.store ∧ t.engines = x0.engines ∧
    t.host = x0.host ∧ t.gen = x0.gen ∧ t.text = x0.text ∧ t.pair = x0.pair ∧ t.flash = x0.flash ∧ t.bureau = x0.bureau ∧ t.power = x0.power ∧
    t.limits = x0.limits ∧ t.fuses = x0.fuses ∧ t.shelfSkips = x0.shelfSkips ∧ t.shelfCuts = x0.shelfCuts ∧ t.free = x0.free ∧
    t.pending = x0.pending := by
  simp only [writeWindow]
  repeat' split
  all_goals ((try simp only [Prod.ext_iff] at *); (try casesm* _ ∧ _); (try subst_vars); (try simp))

theorem execWindowResize_frame (x0 x1) : ∀ t, (execWindowResize x0 x1) = .next t → t.fabric = x1.fabric ∧ t.store = x1.store ∧
    t.engines = x1.engines ∧ t.flash = x1.flash ∧ t.power = x1.power ∧ t.limits = x1.limits ∧ t.fuses = x1.fuses ∧
    t.shelfSkips = x1.shelfSkips ∧ t.shelfCuts = x1.shelfCuts ∧ t.free = x1.free ∧ t.pending = x1.pending := by
  intro t h
  cases h
  unfold whenReady
  split
  · rcases h : writeWindow x1 x0.toNat with c | t
    · simp [h]
    · simp [h, writeWindow_frame _ _ _ h]
  · simp

@[simp] theorem dropWindow_frame (x0) : (dropWindow x0).fabric = x0.fabric ∧ (dropWindow x0).store = x0.store ∧
    (dropWindow x0).engines = x0.engines ∧ (dropWindow x0).host = x0.host ∧ (dropWindow x0).gen = x0.gen ∧ (dropWindow x0).text = x0.text ∧
    (dropWindow x0).pair = x0.pair ∧ (dropWindow x0).flash = x0.flash ∧ (dropWindow x0).bureau = x0.bureau ∧
    (dropWindow x0).power = x0.power ∧ (dropWindow x0).limits = x0.limits ∧ (dropWindow x0).fuses = x0.fuses ∧
    (dropWindow x0).shelfSkips = x0.shelfSkips ∧ (dropWindow x0).shelfCuts = x0.shelfCuts ∧ (dropWindow x0).free = x0.free ∧
    (dropWindow x0).pending = x0.pending := by
  unfold dropWindow
  repeat' split
  all_goals (refine ⟨?_, ?_, ?_, ?_, ?_, ?_, ?_, ?_, ?_, ?_, ?_, ?_, ?_, ?_, ?_, ?_⟩)
  all_goals (try (first | refine (State.foldl_fabric (fun _ _ => ?_) _ _).trans ?_ | refine (State.foldl_store (fun _ _ => ?_) _ _).trans ?_ | refine (State.foldl_engines (fun _ _ => ?_) _ _).trans ?_ | refine (State.foldl_host (fun _ _ => ?_) _ _).trans ?_ | refine (State.foldl_gen (fun _ _ => ?_) _ _).trans ?_ | refine (State.foldl_text (fun _ _ => ?_) _ _).trans ?_ | refine (State.foldl_pair (fun _ _ => ?_) _ _).trans ?_ | refine (State.foldl_flash (fun _ _ => ?_) _ _).trans ?_ | refine (State.foldl_bureau (fun _ _ => ?_) _ _).trans ?_ | refine (State.foldl_power (fun _ _ => ?_) _ _).trans ?_ | refine (State.foldl_limits (fun _ _ => ?_) _ _).trans ?_ | refine (State.foldl_fuses (fun _ _ => ?_) _ _).trans ?_ | refine (State.foldl_shelfSkips (fun _ _ => ?_) _ _).trans ?_ | refine (State.foldl_shelfCuts (fun _ _ => ?_) _ _).trans ?_ | refine (State.foldl_free (fun _ _ => ?_) _ _).trans ?_ | refine (State.foldl_pending (fun _ _ => ?_) _ _).trans ?_ ))
  all_goals (repeat' split)
  all_goals ((try simp only [Prod.ext_iff] at *); (try casesm* _ ∧ _); (try subst_vars); first | (simp; done) | (simp_all; done) | skip)

@[simp] theorem windowDone_frame (x0) : (windowDone x0).fabric = x0.fabric ∧ (windowDone x0).store = x0.store ∧
    (windowDone x0).engines = x0.engines ∧ (windowDone x0).host = x0.host ∧ (windowDone x0).gen = x0.gen ∧ (windowDone x0).text = x0.text ∧
    (windowDone x0).pair = x0.pair ∧ (windowDone x0).flash = x0.flash ∧ (windowDone x0).bureau = x0.bureau ∧
    (windowDone x0).power = x0.power ∧ (windowDone x0).limits = x0.limits ∧ (windowDone x0).fuses = x0.fuses ∧
    (windowDone x0).shelfSkips = x0.shelfSkips ∧ (windowDone x0).shelfCuts = x0.shelfCuts ∧ (windowDone x0).free = x0.free ∧
    (windowDone x0).pending = x0.pending := by
  simp only [windowDone]
  repeat' split
  all_goals (refine ⟨?_, ?_, ?_, ?_, ?_, ?_, ?_, ?_, ?_, ?_, ?_, ?_, ?_, ?_, ?_, ?_⟩)
  all_goals (try (first | refine (State.foldl_fabric (fun _ _ => ?_) _ _).trans ?_ | refine (State.foldl_store (fun _ _ => ?_) _ _).trans ?_ | refine (State.foldl_engines (fun _ _ => ?_) _ _).trans ?_ | refine (State.foldl_host (fun _ _ => ?_) _ _).trans ?_ | refine (State.foldl_gen (fun _ _ => ?_) _ _).trans ?_ | refine (State.foldl_text (fun _ _ => ?_) _ _).trans ?_ | refine (State.foldl_pair (fun _ _ => ?_) _ _).trans ?_ | refine (State.foldl_flash (fun _ _ => ?_) _ _).trans ?_ | refine (State.foldl_bureau (fun _ _ => ?_) _ _).trans ?_ | refine (State.foldl_power (fun _ _ => ?_) _ _).trans ?_ | refine (State.foldl_limits (fun _ _ => ?_) _ _).trans ?_ | refine (State.foldl_fuses (fun _ _ => ?_) _ _).trans ?_ | refine (State.foldl_shelfSkips (fun _ _ => ?_) _ _).trans ?_ | refine (State.foldl_shelfCuts (fun _ _ => ?_) _ _).trans ?_ | refine (State.foldl_free (fun _ _ => ?_) _ _).trans ?_ | refine (State.foldl_pending (fun _ _ => ?_) _ _).trans ?_ ))
  all_goals (repeat' split)
  all_goals ((try simp only [Prod.ext_iff] at *); (try casesm* _ ∧ _); (try subst_vars); first | (simp; done) | (simp_all; done) | skip)

theorem execWindowResizeDone_frame (x0) : ∀ t, (execWindowResizeDone x0) = .next t → t.fabric = x0.fabric ∧ t.store = x0.store ∧
    t.engines = x0.engines ∧ t.host = x0.host ∧ t.gen = x0.gen ∧ t.text = x0.text ∧ t.pair = x0.pair ∧ t.flash = x0.flash ∧
    t.bureau = x0.bureau ∧ t.power = x0.power ∧ t.limits = x0.limits ∧ t.fuses = x0.fuses ∧ t.shelfSkips = x0.shelfSkips ∧
    t.shelfCuts = x0.shelfCuts ∧ t.free = x0.free ∧ t.pending = x0.pending := by simp [execWindowResizeDone]

theorem writeWindowTenant_frame (x0 x1 x2) : ∀ t, (writeWindowTenant x0 x1 x2) = .ok t → t.fabric = x0.fabric ∧ t.store = x0.store ∧
    t.engines = x0.engines ∧ t.host = x0.host ∧ t.gen = x0.gen ∧ t.text = x0.text ∧ t.pair = x0.pair ∧ t.flash = x0.flash ∧
    t.bureau = x0.bureau ∧ t.power = x0.power ∧ t.limits = x0.limits ∧ t.fuses = x0.fuses ∧ t.shelfSkips = x0.shelfSkips ∧
    t.shelfCuts = x0.shelfCuts ∧ t.free = x0.free ∧ t.pending = x0.pending := by unfold writeWindowTenant; split <;> simp

theorem execWindowTenantSet_frame (x0 x1 x2) : ∀ t, (execWindowTenantSet x0 x1 x2) = .next t → t.fabric = x2.fabric ∧ t.store = x2.store ∧
    t.engines = x2.engines ∧ t.flash = x2.flash ∧ t.power = x2.power ∧ t.limits = x2.limits ∧ t.fuses = x2.fuses ∧
    t.shelfSkips = x2.shelfSkips ∧ t.shelfCuts = x2.shelfCuts ∧ t.free = x2.free ∧ t.pending = x2.pending := by
  intro t h
  cases h
  unfold whenReady
  split
  · rcases h : writeWindowTenant x2 x0.toNat x1.toNat with c | t
    · simp [h]
    · simp [h, writeWindowTenant_frame _ _ _ _ h]
  · simp

@[simp] theorem startPairing_frame (x0) : (startPairing x0).fabric = x0.fabric ∧ (startPairing x0).store = x0.store ∧
    (startPairing x0).tier = x0.tier ∧ (startPairing x0).engines = x0.engines ∧ (startPairing x0).host = x0.host ∧
    (startPairing x0).gen = x0.gen ∧ (startPairing x0).text = x0.text ∧ (startPairing x0).flash = x0.flash ∧
    (startPairing x0).bureau = x0.bureau ∧ (startPairing x0).power = x0.power ∧ (startPairing x0).limits = x0.limits ∧
    (startPairing x0).fuses = x0.fuses ∧ (startPairing x0).shelfSkips = x0.shelfSkips ∧ (startPairing x0).shelfCuts = x0.shelfCuts ∧
    (startPairing x0).free = x0.free ∧ (startPairing x0).pending = x0.pending := by simp [startPairing]

@[simp] theorem endPairing_frame (x0) : (endPairing x0).engines = x0.engines ∧ (endPairing x0).text = x0.text ∧
    (endPairing x0).power = x0.power ∧ (endPairing x0).limits = x0.limits ∧ (endPairing x0).fuses = x0.fuses ∧
    (endPairing x0).shelfSkips = x0.shelfSkips ∧ (endPairing x0).shelfCuts = x0.shelfCuts ∧ (endPairing x0).pending = x0.pending := by simp [endPairing]

theorem writePairCtrl_frame (x0 x1) : ∀ t, (writePairCtrl x0 x1) = .ok t → t.engines = x0.engines ∧ t.text = x0.text ∧ t.power = x0.power ∧
    t.limits = x0.limits ∧ t.fuses = x0.fuses ∧ t.shelfSkips = x0.shelfSkips ∧ t.shelfCuts = x0.shelfCuts ∧ t.pending = x0.pending := by unfold writePairCtrl; split <;> simp

@[simp] theorem pairCtrl_frame (x0 x1) : (pairCtrl x0 x1).engines = x0.engines ∧ (pairCtrl x0 x1).power = x0.power ∧
    (pairCtrl x0 x1).limits = x0.limits ∧ (pairCtrl x0 x1).fuses = x0.fuses ∧ (pairCtrl x0 x1).shelfSkips = x0.shelfSkips ∧
    (pairCtrl x0 x1).shelfCuts = x0.shelfCuts ∧ (pairCtrl x0 x1).pending = x0.pending := by
  unfold pairCtrl whenReady
  split
  · rcases h : writePairCtrl x0 x1 with c | t
    · simp [h]
    · simp [h, writePairCtrl_frame _ _ _ h]
  · simp

theorem execPairEnable_frame (x0 x1) : ∀ t, (execPairEnable x0 x1) = .next t → t.engines = x1.engines ∧ t.power = x1.power ∧
    t.limits = x1.limits ∧ t.fuses = x1.fuses ∧ t.shelfSkips = x1.shelfSkips ∧ t.shelfCuts = x1.shelfCuts ∧ t.pending = x1.pending := by simp [execPairEnable]

theorem execPairDisable_frame (x0 x1) : ∀ t, (execPairDisable x0 x1) = .next t → t.engines = x1.engines ∧ t.power = x1.power ∧
    t.limits = x1.limits ∧ t.fuses = x1.fuses ∧ t.shelfSkips = x1.shelfSkips ∧ t.shelfCuts = x1.shelfCuts ∧ t.pending = x1.pending := by simp [execPairDisable]

@[simp] theorem clearGroup_frame (x0 x1) : (clearGroup x0 x1).fabric = x0.fabric ∧ (clearGroup x0 x1).tier = x0.tier ∧
    (clearGroup x0 x1).pair = x0.pair ∧ (clearGroup x0 x1).flash = x0.flash ∧ (clearGroup x0 x1).bureau = x0.bureau ∧
    (clearGroup x0 x1).power = x0.power ∧ (clearGroup x0 x1).limits = x0.limits ∧ (clearGroup x0 x1).fuses = x0.fuses ∧
    (clearGroup x0 x1).free = x0.free ∧ (clearGroup x0 x1).pending = x0.pending := by unfold clearGroup; split <;> simp

theorem execCntClear_frame (x0 x1) : ∀ t, (execCntClear x0 x1) = .next t → t.fabric = x1.fabric ∧ t.tier = x1.tier ∧ t.pair = x1.pair ∧
    t.flash = x1.flash ∧ t.bureau = x1.bureau ∧ t.power = x1.power ∧ t.limits = x1.limits ∧ t.fuses = x1.fuses ∧ t.free = x1.free ∧
    t.pending = x1.pending := by
  unfold execCntClear
  repeat' split
  all_goals ((try simp only [Prod.ext_iff] at *); (try casesm* _ ∧ _); (try subst_vars); first | (simp; done) | (simp_all; done) | skip)

@[simp] theorem readRegister_frame (x0 x1 x2 x3) : (readRegister x0 x1 x2 x3).fabric = x0.fabric ∧
    (readRegister x0 x1 x2 x3).store = x0.store ∧ (readRegister x0 x1 x2 x3).engines = x0.engines ∧
    (readRegister x0 x1 x2 x3).flash = x0.flash ∧ (readRegister x0 x1 x2 x3).power = x0.power ∧
    (readRegister x0 x1 x2 x3).limits = x0.limits ∧ (readRegister x0 x1 x2 x3).fuses = x0.fuses ∧
    (readRegister x0 x1 x2 x3).shelfSkips = x0.shelfSkips ∧ (readRegister x0 x1 x2 x3).shelfCuts = x0.shelfCuts ∧
    (readRegister x0 x1 x2 x3).free = x0.free ∧ (readRegister x0 x1 x2 x3).pending = x0.pending := by
  simp only [readRegister]
  repeat' split
  all_goals ((try simp only [Prod.ext_iff] at *); (try casesm* _ ∧ _); (try subst_vars); (try simp))

theorem execCounterLowRead_frame (x0 x1 x2 x3) : ∀ t, (execCounterLowRead x0 x1 x2 x3) = .next t → t.fabric = x3.fabric ∧ t.store = x3.store ∧
    t.engines = x3.engines ∧ t.flash = x3.flash ∧ t.power = x3.power ∧ t.limits = x3.limits ∧ t.fuses = x3.fuses ∧
    t.shelfSkips = x3.shelfSkips ∧ t.shelfCuts = x3.shelfCuts ∧ t.free = x3.free ∧ t.pending = x3.pending := by simp [execCounterLowRead]

@[simp] theorem mirrorTenant_frame (x0 x1) : (mirrorTenant x0 x1).fabric = x0.fabric ∧ (mirrorTenant x0 x1).store = x0.store ∧
    (mirrorTenant x0 x1).tier = x0.tier ∧ (mirrorTenant x0 x1).engines = x0.engines ∧ (mirrorTenant x0 x1).gen = x0.gen ∧
    (mirrorTenant x0 x1).text = x0.text ∧ (mirrorTenant x0 x1).flash = x0.flash ∧ (mirrorTenant x0 x1).bureau = x0.bureau ∧
    (mirrorTenant x0 x1).power = x0.power ∧ (mirrorTenant x0 x1).limits = x0.limits ∧ (mirrorTenant x0 x1).fuses = x0.fuses ∧
    (mirrorTenant x0 x1).shelfSkips = x0.shelfSkips ∧ (mirrorTenant x0 x1).shelfCuts = x0.shelfCuts ∧
    (mirrorTenant x0 x1).pending = x0.pending := by simp [mirrorTenant]

theorem writePartReg_frame (x0 x1 x2 x3) : ∀ t, (writePartReg x0 x1 x2 x3) = .ok t → t.fabric = x0.fabric ∧ t.store = x0.store ∧
    t.tier = x0.tier ∧ t.engines = x0.engines ∧ t.host = x0.host ∧ t.text = x0.text ∧ t.pair = x0.pair ∧ t.flash = x0.flash ∧
    t.bureau = x0.bureau ∧ t.power = x0.power ∧ t.limits = x0.limits ∧ t.fuses = x0.fuses ∧ t.shelfSkips = x0.shelfSkips ∧
    t.shelfCuts = x0.shelfCuts ∧ t.free = x0.free ∧ t.pending = x0.pending := by
  simp only [writePartReg]
  repeat' split
  all_goals ((try simp only [Prod.ext_iff] at *); (try casesm* _ ∧ _); (try subst_vars); (try simp))

theorem writeTenReg_frame (x0 x1 x2 x3) : ∀ t, (writeTenReg x0 x1 x2 x3) = .ok t → t.fabric = x0.fabric ∧ t.store = x0.store ∧
    t.tier = x0.tier ∧ t.engines = x0.engines ∧ t.text = x0.text ∧ t.flash = x0.flash ∧ t.bureau = x0.bureau ∧ t.power = x0.power ∧
    t.limits = x0.limits ∧ t.fuses = x0.fuses ∧ t.shelfSkips = x0.shelfSkips ∧ t.shelfCuts = x0.shelfCuts ∧ t.pending = x0.pending := by
  simp only [writeTenReg]
  repeat' split
  all_goals ((try simp only [Prod.ext_iff] at *); (try casesm* _ ∧ _); (try subst_vars); (try simp))

theorem writePrt_frame (x0 x1 x2) : ∀ t, (writePrt x0 x1 x2) = .ok t → t.fabric = x0.fabric ∧ t.store = x0.store ∧ t.tier = x0.tier ∧
    t.text = x0.text ∧ t.flash = x0.flash ∧ t.bureau = x0.bureau ∧ t.power = x0.power ∧ t.limits = x0.limits ∧ t.fuses = x0.fuses ∧
    t.shelfSkips = x0.shelfSkips ∧ t.shelfCuts = x0.shelfCuts ∧ t.pending = x0.pending := by
  intro t h
  simp only [writePrt] at h
  repeat' split at h
  all_goals (try cases h)
  all_goals ((try simp only [Prod.ext_iff] at *); (try casesm* _ ∧ _); (try subst_vars); (try have hh_4 := writeTenReg_frame _ _ _ _ _ (by assumption)); (try have hh_4 := writePartReg_frame _ _ _ _ _ (by assumption)); first | (simp; done) | (simp_all; done) | skip)

theorem writeTir_frame (x0 x1 x2) : ∀ t, (writeTir x0 x1 x2) = .ok t → t.fabric = x0.fabric ∧ t.store = x0.store ∧ t.engines = x0.engines ∧
    t.host = x0.host ∧ t.gen = x0.gen ∧ t.text = x0.text ∧ t.pair = x0.pair ∧ t.flash = x0.flash ∧ t.bureau = x0.bureau ∧ t.power = x0.power ∧
    t.limits = x0.limits ∧ t.fuses = x0.fuses ∧ t.shelfSkips = x0.shelfSkips ∧ t.shelfCuts = x0.shelfCuts ∧ t.free = x0.free ∧
    t.pending = x0.pending := by
  intro t h
  simp only [writeTir] at h
  repeat' split at h
  all_goals (try cases h)
  all_goals ((try simp only [Prod.ext_iff] at *); (try casesm* _ ∧ _); (try subst_vars); (try have hh_3 := writeWindowTenant_frame _ _ _ _ (by assumption)); (try have hh_2 := writeWindow_frame _ _ _ (by assumption)); first | (simp; done) | (simp_all; done) | skip)

theorem writeTxt_frame (x0 x1 x2) : ∀ t, (writeTxt x0 x1 x2) = .ok t → t.fabric = x0.fabric ∧ t.store = x0.store ∧ t.tier = x0.tier ∧
    t.engines = x0.engines ∧ t.host = x0.host ∧ t.gen = x0.gen ∧ t.pair = x0.pair ∧ t.flash = x0.flash ∧ t.bureau = x0.bureau ∧
    t.power = x0.power ∧ t.limits = x0.limits ∧ t.fuses = x0.fuses ∧ t.shelfSkips = x0.shelfSkips ∧ t.shelfCuts = x0.shelfCuts ∧
    t.free = x0.free ∧ t.pending = x0.pending := by
  unfold writeTxt
  repeat' split
  all_goals ((try simp only [Prod.ext_iff] at *); (try casesm* _ ∧ _); (try subst_vars); (try simp))

theorem writePai_frame (x0 x1 x2) : ∀ t, (writePai x0 x1 x2) = .ok t → t.engines = x0.engines ∧ t.text = x0.text ∧ t.power = x0.power ∧
    t.limits = x0.limits ∧ t.fuses = x0.fuses ∧ t.shelfSkips = x0.shelfSkips ∧ t.shelfCuts = x0.shelfCuts ∧ t.pending = x0.pending := by
  intro t h
  simp only [writePai] at h
  repeat' split at h
  all_goals (try cases h)
  all_goals ((try simp only [Prod.ext_iff] at *); (try casesm* _ ∧ _); (try subst_vars); (try have hh_2 := writePairCtrl_frame _ _ _ (by assumption)); first | (simp; done) | (simp_all; done) | skip)

theorem writeBur_frame (x0 x1 x2) : ∀ t, (writeBur x0 x1 x2) = .ok t → t.fabric = x0.fabric ∧ t.store = x0.store ∧ t.tier = x0.tier ∧
    t.engines = x0.engines ∧ t.host = x0.host ∧ t.gen = x0.gen ∧ t.text = x0.text ∧ t.pair = x0.pair ∧ t.flash = x0.flash ∧
    t.power = x0.power ∧ t.limits = x0.limits ∧ t.fuses = x0.fuses ∧ t.shelfSkips = x0.shelfSkips ∧ t.shelfCuts = x0.shelfCuts ∧
    t.free = x0.free ∧ t.pending = x0.pending := by
  unfold writeBur
  repeat' split
  all_goals ((try simp only [Prod.ext_iff] at *); (try casesm* _ ∧ _); (try subst_vars); (try simp))

@[simp] theorem writeMsix_frame (x0 x1 x2 x3 x4) : (writeMsix x0 x1 x2 x3 x4).fabric = x0.fabric ∧
    (writeMsix x0 x1 x2 x3 x4).store = x0.store ∧ (writeMsix x0 x1 x2 x3 x4).tier = x0.tier ∧
    (writeMsix x0 x1 x2 x3 x4).engines = x0.engines ∧ (writeMsix x0 x1 x2 x3 x4).gen = x0.gen ∧ (writeMsix x0 x1 x2 x3 x4).text = x0.text ∧
    (writeMsix x0 x1 x2 x3 x4).pair = x0.pair ∧ (writeMsix x0 x1 x2 x3 x4).flash = x0.flash ∧ (writeMsix x0 x1 x2 x3 x4).bureau = x0.bureau ∧
    (writeMsix x0 x1 x2 x3 x4).power = x0.power ∧ (writeMsix x0 x1 x2 x3 x4).limits = x0.limits ∧
    (writeMsix x0 x1 x2 x3 x4).fuses = x0.fuses ∧ (writeMsix x0 x1 x2 x3 x4).shelfSkips = x0.shelfSkips ∧
    (writeMsix x0 x1 x2 x3 x4).shelfCuts = x0.shelfCuts ∧ (writeMsix x0 x1 x2 x3 x4).free = x0.free ∧
    (writeMsix x0 x1 x2 x3 x4).pending = x0.pending := by unfold writeMsix; split <;> simp

theorem writeLayout_frame (x0 x1 x2 x3) : ∀ t, (writeLayout x0 x1 x2 x3) = .ok t → t.fabric = x0.fabric ∧ t.engines = x0.engines ∧
    t.text = x0.text ∧ t.flash = x0.flash ∧ t.power = x0.power ∧ t.limits = x0.limits ∧ t.fuses = x0.fuses ∧ t.shelfSkips = x0.shelfSkips ∧
    t.shelfCuts = x0.shelfCuts ∧ t.pending = x0.pending := by
  unfold writeLayout
  repeat' split
  all_goals ((try simp only [Prod.ext_iff] at *); (try casesm* _ ∧ _); (try subst_vars); (try simp))

theorem writeModule_frame (x0 x1 x2) : ∀ t, (writeModule x0 x1 x2) = .ok t → t.power = x0.power ∧ t.limits = x0.limits ∧ t.fuses = x0.fuses ∧
    t.pending = x0.pending := by
  intro t h
  simp only [writeModule] at h
  repeat' split at h
  all_goals (try cases h)
  all_goals ((try simp only [Prod.ext_iff] at *); (try casesm* _ ∧ _); (try subst_vars); (try have hh_3 := writeBur_frame _ _ _ _ (by assumption)); (try have hh_3 := writePai_frame _ _ _ _ (by assumption)); (try have hh_3 := writeTxt_frame _ _ _ _ (by assumption)); (try have hh_3 := writeTir_frame _ _ _ _ (by assumption)); (try have hh_3 := writePrt_frame _ _ _ _ (by assumption)); first | (simp; done) | (simp_all; done) | skip)

theorem settleWrite_frame (x0 x1 x2 x3) :
    ((∀ t, x3 = .ok t → t.fabric = x0.fabric) → (settleWrite x0 x1 x2 x3).fabric = x0.fabric) ∧
    ((∀ t, x3 = .ok t → t.store = x0.store) → (settleWrite x0 x1 x2 x3).store = x0.store) ∧
    ((∀ t, x3 = .ok t → t.engines = x0.engines) → (settleWrite x0 x1 x2 x3).engines = x0.engines) ∧
    ((∀ t, x3 = .ok t → t.flash = x0.flash) → (settleWrite x0 x1 x2 x3).flash = x0.flash) ∧
    ((∀ t, x3 = .ok t → t.power = x0.power) → (settleWrite x0 x1 x2 x3).power = x0.power) ∧
    ((∀ t, x3 = .ok t → t.limits = x0.limits) → (settleWrite x0 x1 x2 x3).limits = x0.limits) ∧
    ((∀ t, x3 = .ok t → t.fuses = x0.fuses) → (settleWrite x0 x1 x2 x3).fuses = x0.fuses) ∧
    ((∀ t, x3 = .ok t → t.shelfSkips = x0.shelfSkips) → (settleWrite x0 x1 x2 x3).shelfSkips = x0.shelfSkips) ∧
    ((∀ t, x3 = .ok t → t.shelfCuts = x0.shelfCuts) → (settleWrite x0 x1 x2 x3).shelfCuts = x0.shelfCuts) ∧
    ((∀ t, x3 = .ok t → t.free = x0.free) → (settleWrite x0 x1 x2 x3).free = x0.free) ∧
    ((∀ t, x3 = .ok t → t.pending = x0.pending) → (settleWrite x0 x1 x2 x3).pending = x0.pending) := by
  unfold settleWrite
  split
  · exact ⟨fun h => h _ rfl, fun h => h _ rfl, fun h => h _ rfl, fun h => h _ rfl, fun h => h _ rfl, fun h => h _ rfl, fun h => h _ rfl, fun h => h _ rfl, fun h => h _ rfl, fun h => h _ rfl, fun h => h _ rfl⟩
  · simp
  · split <;> simp

@[simp] theorem writeWord_frame (x0 x1 x2 x3) : (writeWord x0 x1 x2 x3).power = x0.power ∧ (writeWord x0 x1 x2 x3).limits = x0.limits ∧
    (writeWord x0 x1 x2 x3).fuses = x0.fuses ∧ (writeWord x0 x1 x2 x3).pending = x0.pending := by
  unfold writeWord
  refine ⟨(settleWrite_frame _ _ _ _).2.2.2.2.1 fun t h => ?_, (settleWrite_frame _ _ _ _).2.2.2.2.2.1 fun t h => ?_, (settleWrite_frame _ _ _ _).2.2.2.2.2.2.1 fun t h => ?_, (settleWrite_frame _ _ _ _).2.2.2.2.2.2.2.2.2.2 fun t h => ?_⟩
  all_goals (repeat' split at h)
  all_goals first
    | simp [writeLayout_frame _ _ _ _ _ h]
    | simp [writeModule_frame _ _ _ _ h]
    | cases h

theorem writeModuleWide_frame (x0 x1 x2) : ∀ t, (writeModuleWide x0 x1 x2) = .ok t → t.fabric = x0.fabric ∧ t.store = x0.store ∧
    t.tier = x0.tier ∧ t.engines = x0.engines ∧ t.host = x0.host ∧ t.flash = x0.flash ∧ t.bureau = x0.bureau ∧ t.power = x0.power ∧
    t.limits = x0.limits ∧ t.fuses = x0.fuses ∧ t.shelfSkips = x0.shelfSkips ∧ t.shelfCuts = x0.shelfCuts ∧ t.free = x0.free ∧
    t.pending = x0.pending := by
  simp only [writeModuleWide]
  repeat' split
  all_goals ((try simp only [Prod.ext_iff] at *); (try casesm* _ ∧ _); (try subst_vars); (try simp))

@[simp] theorem writeWide_frame (x0 x1 x2 x3) : (writeWide x0 x1 x2 x3).fabric = x0.fabric ∧ (writeWide x0 x1 x2 x3).store = x0.store ∧
    (writeWide x0 x1 x2 x3).engines = x0.engines ∧ (writeWide x0 x1 x2 x3).flash = x0.flash ∧ (writeWide x0 x1 x2 x3).power = x0.power ∧
    (writeWide x0 x1 x2 x3).limits = x0.limits ∧ (writeWide x0 x1 x2 x3).fuses = x0.fuses ∧
    (writeWide x0 x1 x2 x3).shelfSkips = x0.shelfSkips ∧ (writeWide x0 x1 x2 x3).shelfCuts = x0.shelfCuts ∧
    (writeWide x0 x1 x2 x3).free = x0.free ∧ (writeWide x0 x1 x2 x3).pending = x0.pending := by
  unfold writeWide
  split
  · simp
  · refine ⟨(settleWrite_frame _ _ _ _).1 fun t h => ?_, (settleWrite_frame _ _ _ _).2.1 fun t h => ?_, (settleWrite_frame _ _ _ _).2.2.1 fun t h => ?_, (settleWrite_frame _ _ _ _).2.2.2.1 fun t h => ?_, (settleWrite_frame _ _ _ _).2.2.2.2.1 fun t h => ?_, (settleWrite_frame _ _ _ _).2.2.2.2.2.1 fun t h => ?_, (settleWrite_frame _ _ _ _).2.2.2.2.2.2.1 fun t h => ?_, (settleWrite_frame _ _ _ _).2.2.2.2.2.2.2.1 fun t h => ?_, (settleWrite_frame _ _ _ _).2.2.2.2.2.2.2.2.1 fun t h => ?_, (settleWrite_frame _ _ _ _).2.2.2.2.2.2.2.2.2.1 fun t h => ?_, (settleWrite_frame _ _ _ _).2.2.2.2.2.2.2.2.2.2 fun t h => ?_⟩
    all_goals simp [writeModuleWide_frame _ _ _ _ h]

@[simp] theorem writeHigh_frame (x0 x1 x2 x3) : (writeHigh x0 x1 x2 x3).fabric = x0.fabric ∧ (writeHigh x0 x1 x2 x3).store = x0.store ∧
    (writeHigh x0 x1 x2 x3).engines = x0.engines ∧ (writeHigh x0 x1 x2 x3).flash = x0.flash ∧ (writeHigh x0 x1 x2 x3).power = x0.power ∧
    (writeHigh x0 x1 x2 x3).limits = x0.limits ∧ (writeHigh x0 x1 x2 x3).fuses = x0.fuses ∧
    (writeHigh x0 x1 x2 x3).shelfSkips = x0.shelfSkips ∧ (writeHigh x0 x1 x2 x3).shelfCuts = x0.shelfCuts ∧
    (writeHigh x0 x1 x2 x3).free = x0.free ∧ (writeHigh x0 x1 x2 x3).pending = x0.pending := by simp [writeHigh]

@[simp] theorem writeHalf_frame (x0 x1 x2 x3) : (writeHalf x0 x1 x2 x3).power = x0.power ∧ (writeHalf x0 x1 x2 x3).limits = x0.limits ∧
    (writeHalf x0 x1 x2 x3).fuses = x0.fuses ∧ (writeHalf x0 x1 x2 x3).pending = x0.pending := by simp [writeHalf]

@[simp] theorem registerWrite_frame (x0 x1 x2 x3 x4) : (registerWrite x0 x1 x2 x3 x4).power = x0.power ∧
    (registerWrite x0 x1 x2 x3 x4).limits = x0.limits ∧ (registerWrite x0 x1 x2 x3 x4).fuses = x0.fuses ∧
    (registerWrite x0 x1 x2 x3 x4).pending = x0.pending := by simp [registerWrite]

theorem execRegisterWrite_frame (x0 x1 x2 x3 x4) : ∀ t, (execRegisterWrite x0 x1 x2 x3 x4) = .next t → t.power = x4.power ∧
    t.limits = x4.limits ∧ t.fuses = x4.fuses ∧ t.pending = x4.pending := by simp [execRegisterWrite]

/-! ## Time -/

@[simp] theorem passTime_frame (x0) : (passTime x0).fabric = x0.fabric ∧ (passTime x0).store = x0.store ∧ (passTime x0).tier = x0.tier ∧
    (passTime x0).engines = x0.engines ∧ (passTime x0).host = x0.host ∧ (passTime x0).gen = x0.gen ∧ (passTime x0).text = x0.text ∧
    (passTime x0).pair = x0.pair ∧ (passTime x0).flash = x0.flash ∧ (passTime x0).power = x0.power ∧ (passTime x0).limits = x0.limits ∧
    (passTime x0).fuses = x0.fuses ∧ (passTime x0).shelfSkips = x0.shelfSkips ∧ (passTime x0).shelfCuts = x0.shelfCuts ∧
    (passTime x0).free = x0.free ∧ (passTime x0).pending = x0.pending := by simp [passTime]

theorem pumpLink_frame' (x0 x1 x2)  : (pumpLink x0 x1 x2).store = x1.store ∧ (pumpLink x0 x1 x2).tier = x1.tier ∧ (pumpLink x0 x1 x2).engines = x1.engines ∧ (pumpLink x0 x1 x2).gen = x1.gen ∧ (pumpLink x0 x1 x2).text = x1.text ∧ (pumpLink x0 x1 x2).pair = x1.pair ∧ (pumpLink x0 x1 x2).flash = x1.flash ∧ (pumpLink x0 x1 x2).bureau = x1.bureau ∧ (pumpLink x0 x1 x2).power = x1.power ∧ (pumpLink x0 x1 x2).limits = x1.limits ∧ (pumpLink x0 x1 x2).fuses = x1.fuses ∧ (pumpLink x0 x1 x2).shelfSkips = x1.shelfSkips ∧ (pumpLink x0 x1 x2).shelfCuts = x1.shelfCuts ∧ (pumpLink x0 x1 x2).free = x1.free ∧ (pumpLink x0 x1 x2).pending = x1.pending := by
  induction x0 generalizing x1 with
  | zero => simp [pumpLink]
  | succ k ih =>
    unfold pumpLink
    split <;> simp [ih]

theorem conductorPut_frame' (x0 x1 x2 x3)  : ∀ t, (conductorPut x0 x1 x2 x3) = some t → (t).2.tier = x3.tier ∧ (t).2.engines = x3.engines ∧ (t).2.text = x3.text ∧ (t).2.pair = x3.pair ∧ (t).2.flash = x3.flash ∧ (t).2.power = x3.power ∧ (t).2.limits = x3.limits ∧ (t).2.fuses = x3.fuses ∧ (t).2.shelfSkips = x3.shelfSkips ∧ (t).2.shelfCuts = x3.shelfCuts ∧ (t).2.free = x3.free ∧ (t).2.pending = x3.pending := by
  induction x2 generalizing x3 with
  | nil => intro t h; cases h; simp
  | cons a l ih =>
    intro t h
    simp only [conductorPut, Option.bind_eq_some_iff, Option.map_eq_some_iff] at h
    obtain ⟨i, -, r, h, rfl⟩ := h
    have := ih _ _ h
    simp_all

theorem recoverWb_frame' (x0 x1 x2 x3 x4)  : ((recoverWb x0 x1 x2 x3 x4)).1.fabric = x0.fabric ∧ ((recoverWb x0 x1 x2 x3 x4)).1.store = x0.store ∧ ((recoverWb x0 x1 x2 x3 x4)).1.engines = x0.engines ∧ ((recoverWb x0 x1 x2 x3 x4)).1.gen = x0.gen ∧ ((recoverWb x0 x1 x2 x3 x4)).1.text = x0.text ∧ ((recoverWb x0 x1 x2 x3 x4)).1.flash = x0.flash ∧ ((recoverWb x0 x1 x2 x3 x4)).1.power = x0.power ∧ ((recoverWb x0 x1 x2 x3 x4)).1.limits = x0.limits ∧ ((recoverWb x0 x1 x2 x3 x4)).1.fuses = x0.fuses ∧ ((recoverWb x0 x1 x2 x3 x4)).1.shelfSkips = x0.shelfSkips ∧ ((recoverWb x0 x1 x2 x3 x4)).1.shelfCuts = x0.shelfCuts ∧ ((recoverWb x0 x1 x2 x3 x4)).1.pending = x0.pending := by
  unfold recoverWb
  simp only []
  split
  · generalize Tile.sealed _ = z
    simp
  · split <;> simp

theorem scanPut_frame' (x0 x1 x2 x3)  : ∀ t, (scanPut x0 x1 x2 x3) = some t → t.tier = x0.tier ∧ t.engines = x0.engines ∧ t.text = x0.text ∧ t.pair = x0.pair ∧ t.flash = x0.flash ∧ t.power = x0.power ∧ t.limits = x0.limits ∧ t.fuses = x0.fuses ∧ t.shelfSkips = x0.shelfSkips ∧ t.shelfCuts = x0.shelfCuts ∧ t.free = x0.free ∧ t.pending = x0.pending := by
  intro t h
  simp only [scanPut, Option.bind_eq_some_iff, Option.map_eq_some_iff] at h
  obtain ⟨_, _, r, h, rfl⟩ := h
  have := conductorPut_frame _ _ _ _ _ h
  simp_all

theorem shelfWrites_frame' (x0 x1 x2)  : ∀ t, (shelfWrites x0 x1 x2) = some t → t.tier = x0.tier ∧ t.engines = x0.engines ∧ t.text = x0.text ∧ t.pair = x0.pair ∧ t.flash = x0.flash ∧ t.power = x0.power ∧ t.limits = x0.limits ∧ t.fuses = x0.fuses ∧ t.shelfSkips = x0.shelfSkips ∧ t.shelfCuts = x0.shelfCuts ∧ t.pending = x0.pending := by
  intro t h
  simp only [shelfWrites, Option.bind_eq_some_iff, Option.map_eq_some_iff] at h
  obtain ⟨_, _, _, _, r, h, rfl⟩ := h
  have := scanPut_frame _ _ _ _ _ h
  simp_all

theorem scanCut_frame' (x0 x1 x2)  : (scanCut x0 x1 x2).tier = x0.tier ∧ (scanCut x0 x1 x2).engines = x0.engines ∧ (scanCut x0 x1 x2).text = x0.text ∧ (scanCut x0 x1 x2).pair = x0.pair ∧ (scanCut x0 x1 x2).flash = x0.flash ∧ (scanCut x0 x1 x2).power = x0.power ∧ (scanCut x0 x1 x2).limits = x0.limits ∧ (scanCut x0 x1 x2).fuses = x0.fuses ∧ (scanCut x0 x1 x2).shelfSkips = x0.shelfSkips ∧ (scanCut x0 x1 x2).pending = x0.pending := by
  unfold scanCut
  split
  · simp
  · split
    · rcases hw : shelfWrites x0 x1 x2 with _ | t
      · simp
      · have := shelfWrites_frame _ _ _ _ hw
        simp_all
    · simp

theorem shelfEnd_frame' (x0 x1 x2)  : (shelfEnd x0 x1 x2).tier = x0.tier ∧ (shelfEnd x0 x1 x2).engines = x0.engines ∧ (shelfEnd x0 x1 x2).text = x0.text ∧ (shelfEnd x0 x1 x2).pair = x0.pair ∧ (shelfEnd x0 x1 x2).flash = x0.flash ∧ (shelfEnd x0 x1 x2).power = x0.power ∧ (shelfEnd x0 x1 x2).limits = x0.limits ∧ (shelfEnd x0 x1 x2).fuses = x0.fuses ∧ (shelfEnd x0 x1 x2).shelfSkips = x0.shelfSkips ∧ (shelfEnd x0 x1 x2).shelfCuts = x0.shelfCuts ∧ (shelfEnd x0 x1 x2).pending = x0.pending := by
  unfold shelfEnd
  split
  · simp
  · split
    · rcases hw : shelfWrites x0 x1 x2 with _ | t
      · simp
      · have := shelfWrites_frame _ _ _ _ hw
        simp_all
    · simp

theorem unitTile_frame' (x0 x1 x2 x3 x4)  : ∀ t, (unitTile x0 x1 x2 x3 x4) = some t → (t).2.tier = x0.tier ∧ (t).2.engines = x0.engines ∧ (t).2.text = x0.text ∧ (t).2.pair = x0.pair ∧ (t).2.flash = x0.flash ∧ (t).2.power = x0.power ∧ (t).2.limits = x0.limits ∧ (t).2.fuses = x0.fuses ∧ (t).2.shelfSkips = x0.shelfSkips ∧ (t).2.shelfCuts = x0.shelfCuts ∧ (t).2.free = x0.free ∧ (t).2.pending = x0.pending := by
  intro t h
  unfold unitTile at h
  split at h
  · cases h; simp
  · simp only [Option.bind_eq_some_iff, Option.map_eq_some_iff] at h
    obtain ⟨r, h, i, -, rfl⟩ := h
    have := conductorPut_frame _ _ _ _ _ h
    simp_all

theorem copyTemplate_frame' (x0 x1 x2)  : ∀ t, (copyTemplate x0 x1 x2) = some t → t.tier = x0.tier ∧ t.engines = x0.engines ∧ t.text = x0.text ∧ t.pair = x0.pair ∧ t.flash = x0.flash ∧ t.power = x0.power ∧ t.limits = x0.limits ∧ t.fuses = x0.fuses ∧ t.shelfSkips = x0.shelfSkips ∧ t.shelfCuts = x0.shelfCuts ∧ t.free = x0.free ∧ t.pending = x0.pending := by
  intro t h
  simp only [copyTemplate, Option.bind_eq_some_iff, Option.map_eq_some_iff] at h
  obtain ⟨_, _, _, _, r, h, rfl⟩ := h
  have := conductorPut_frame _ _ _ _ _ h
  simp_all

theorem finishStripe_frame' (x0 x1 x2 x3 x4)  : (finishStripe x0 x1 x2 x3 x4).tier = x0.tier ∧ (finishStripe x0 x1 x2 x3 x4).engines = x0.engines ∧ (finishStripe x0 x1 x2 x3 x4).text = x0.text ∧ (finishStripe x0 x1 x2 x3 x4).pair = x0.pair ∧ (finishStripe x0 x1 x2 x3 x4).flash = x0.flash ∧ (finishStripe x0 x1 x2 x3 x4).power = x0.power ∧ (finishStripe x0 x1 x2 x3 x4).limits = x0.limits ∧ (finishStripe x0 x1 x2 x3 x4).fuses = x0.fuses ∧ (finishStripe x0 x1 x2 x3 x4).shelfSkips = x0.shelfSkips ∧ (finishStripe x0 x1 x2 x3 x4).shelfCuts = x0.shelfCuts ∧ (finishStripe x0 x1 x2 x3 x4).free = x0.free ∧ (finishStripe x0 x1 x2 x3 x4).pending = x0.pending := by
  unfold finishStripe
  simp only []
  repeat' split
  all_goals try simp only [setStep_frame]
  all_goals first | (simp; done) | refine ⟨?_, ?_, ?_, ?_, ?_, ?_, ?_, ?_, ?_, ?_, ?_, ?_⟩
  all_goals (first | refine (State.foldl_tier (fun _ _ => ?_) _ _).trans ?_ | refine (State.foldl_engines (fun _ _ => ?_) _ _).trans ?_ | refine (State.foldl_text (fun _ _ => ?_) _ _).trans ?_ | refine (State.foldl_pair (fun _ _ => ?_) _ _).trans ?_ | refine (State.foldl_flash (fun _ _ => ?_) _ _).trans ?_ | refine (State.foldl_power (fun _ _ => ?_) _ _).trans ?_ | refine (State.foldl_limits (fun _ _ => ?_) _ _).trans ?_ | refine (State.foldl_fuses (fun _ _ => ?_) _ _).trans ?_ | refine (State.foldl_shelfSkips (fun _ _ => ?_) _ _).trans ?_ | refine (State.foldl_shelfCuts (fun _ _ => ?_) _ _).trans ?_ | refine (State.foldl_free (fun _ _ => ?_) _ _).trans ?_ | refine (State.foldl_pending (fun _ _ => ?_) _ _).trans ?_)
  all_goals first | (simp; done) | (split <;> simp)

theorem mapPool_frame' (x0 x1 x2)  : ∀ t, (mapPool x0 x1 x2) = some t → (t).2.fabric = x0.fabric ∧ (t).2.store = x0.store ∧ (t).2.engines = x0.engines ∧ (t).2.host = x0.host ∧ (t).2.gen = x0.gen ∧ (t).2.text = x0.text ∧ (t).2.pair = x0.pair ∧ (t).2.flash = x0.flash ∧ (t).2.bureau = x0.bureau ∧ (t).2.power = x0.power ∧ (t).2.limits = x0.limits ∧ (t).2.fuses = x0.fuses ∧ (t).2.shelfSkips = x0.shelfSkips ∧ (t).2.shelfCuts = x0.shelfCuts ∧ (t).2.free = x0.free ∧ (t).2.pending = x0.pending := by
  intro t h
  simp only [mapPool, Option.map_eq_some_iff] at h
  obtain ⟨s, h, rfl⟩ := h
  simp only []
  generalize x2.zip (freeNumbers x0 x2.length) = m at h
  have key : ∀ (m : List (Nat × Nat)) (a : State), m.foldl (mapShare x1) (some a) = some s → s.fabric = a.fabric ∧ s.store = a.store ∧ s.engines = a.engines ∧ s.host = a.host ∧ s.gen = a.gen ∧ s.text = a.text ∧ s.pair = a.pair ∧ s.flash = a.flash ∧ s.bureau = a.bureau ∧ s.power = a.power ∧ s.limits = a.limits ∧ s.fuses = a.fuses ∧ s.shelfSkips = a.shelfSkips ∧ s.shelfCuts = a.shelfCuts ∧ s.free = a.free ∧ s.pending = a.pending := by
    intro m
    induction m with
    | nil => intro a h; cases h; simp
    | cons y m ih =>
      intro a h
      rw [List.foldl_cons] at h
      rcases hb : mapShare x1 (some a) y with _ | b
      · rw [hb] at h
        have : ∀ l : List (Nat × Nat), l.foldl (mapShare x1) none = none := by
          intro l; induction l with
          | nil => rfl
          | cons z l ih => rw [List.foldl_cons]; exact ih
        rw [this] at h; cases h
      · rw [hb] at h
        have h1 := ih _ h
        simp only [mapShare, Option.bind_some, Option.map_eq_some_iff] at hb
        obtain ⟨k, -, rfl⟩ := hb
        simp_all
  exact key _ _ h

theorem placeProgram_frame' (x0 x1 x2 x3)  : (placeProgram x0 x1 x2 x3).text = x0.text ∧ (placeProgram x0 x1 x2 x3).pair = x0.pair ∧ (placeProgram x0 x1 x2 x3).flash = x0.flash ∧ (placeProgram x0 x1 x2 x3).power = x0.power ∧ (placeProgram x0 x1 x2 x3).limits = x0.limits ∧ (placeProgram x0 x1 x2 x3).fuses = x0.fuses ∧ (placeProgram x0 x1 x2 x3).shelfSkips = x0.shelfSkips ∧ (placeProgram x0 x1 x2 x3).shelfCuts = x0.shelfCuts ∧ (placeProgram x0 x1 x2 x3).pending = x0.pending := by
  unfold placeProgram
  split
  · simp
  · rename_i heq
    simp only [Option.bind_eq_some_iff, Option.map_eq_some_iff] at heq
    obtain ⟨a, h1, b, h2, h3⟩ := heq
    have h1 := takeL_frame _ _ _ h1
    have h2 := mapPool_frame _ _ _ _ h2
    simp only [Prod.ext_iff] at h3
    casesm* _ ∧ _
    subst_vars
    simp_all

theorem pinEntry_frame' (x0 x1)  : ∀ t, (pinEntry x0 x1) = some t → t.engines = x0.engines ∧ t.text = x0.text ∧ t.pair = x0.pair ∧ t.flash = x0.flash ∧ t.power = x0.power ∧ t.limits = x0.limits ∧ t.fuses = x0.fuses ∧ t.shelfSkips = x0.shelfSkips ∧ t.shelfCuts = x0.shelfCuts ∧ t.pending = x0.pending := by
  intro t h
  unfold pinEntry at h
  split at h
  · cases h
  · split at h
    · cases h; simp
    · simp only [Option.bind_eq_some_iff, Option.map_eq_some_iff] at h
      obtain ⟨a, -, b, h, rfl⟩ := h
      have := moveToS_frame _ _ _ _ h
      simp_all

theorem endScans_frame' (x0 x1)  : (endScans x0 x1).tier = x0.tier ∧ (endScans x0 x1).engines = x0.engines ∧ (endScans x0 x1).text = x0.text ∧ (endScans x0 x1).pair = x0.pair ∧ (endScans x0 x1).flash = x0.flash ∧ (endScans x0 x1).power = x0.power ∧ (endScans x0 x1).limits = x0.limits ∧ (endScans x0 x1).fuses = x0.fuses ∧ (endScans x0 x1).shelfSkips = x0.shelfSkips ∧ (endScans x0 x1).pending = x0.pending := by
  unfold endScans
  refine ⟨?_, ?_, ?_, ?_, ?_, ?_, ?_, ?_, ?_, ?_⟩
  all_goals
    (first | refine State.foldl_tier (fun _ _ => ?_) _ _ | refine State.foldl_engines (fun _ _ => ?_) _ _ | refine State.foldl_text (fun _ _ => ?_) _ _ | refine State.foldl_pair (fun _ _ => ?_) _ _ | refine State.foldl_flash (fun _ _ => ?_) _ _ | refine State.foldl_power (fun _ _ => ?_) _ _ | refine State.foldl_limits (fun _ _ => ?_) _ _ | refine State.foldl_fuses (fun _ _ => ?_) _ _ | refine State.foldl_shelfSkips (fun _ _ => ?_) _ _ | refine State.foldl_pending (fun _ _ => ?_) _ _)
    rename_i s x
    rcases hw : shelfWrites s x.1 x1 with _ | t
    · simp
    · have := shelfWrites_frame _ _ _ _ hw
      simp_all

theorem refillEntrySets_frame' (x0)  : (refillEntrySets x0).engines = x0.engines ∧ (refillEntrySets x0).text = x0.text ∧ (refillEntrySets x0).pair = x0.pair ∧ (refillEntrySets x0).flash = x0.flash ∧ (refillEntrySets x0).power = x0.power ∧ (refillEntrySets x0).limits = x0.limits ∧ (refillEntrySets x0).fuses = x0.fuses ∧ (refillEntrySets x0).shelfSkips = x0.shelfSkips ∧ (refillEntrySets x0).shelfCuts = x0.shelfCuts ∧ (refillEntrySets x0).pending = x0.pending := by
  simp only [refillEntrySets]
  refine ⟨?_, ?_, ?_, ?_, ?_, ?_, ?_, ?_, ?_, ?_⟩
  all_goals (first | refine State.foldl_engines (fun _ _ => ?_) _ _ | refine State.foldl_text (fun _ _ => ?_) _ _ | refine State.foldl_pair (fun _ _ => ?_) _ _ | refine State.foldl_flash (fun _ _ => ?_) _ _ | refine State.foldl_power (fun _ _ => ?_) _ _ | refine State.foldl_limits (fun _ _ => ?_) _ _ | refine State.foldl_fuses (fun _ _ => ?_) _ _ | refine State.foldl_shelfSkips (fun _ _ => ?_) _ _ | refine State.foldl_shelfCuts (fun _ _ => ?_) _ _ | refine State.foldl_pending (fun _ _ => ?_) _ _)
  all_goals (rename_i s x; rcases h : pinEntry s x with _ | t)
  all_goals first | rfl | simp [pinEntry_frame _ _ _ h]

theorem compactionFree_frame' (x0 x1 x2)  : (compactionFree x0 x1 x2).engines = x0.engines ∧ (compactionFree x0 x1 x2).text = x0.text ∧ (compactionFree x0 x1 x2).pair = x0.pair ∧ (compactionFree x0 x1 x2).power = x0.power ∧ (compactionFree x0 x1 x2).limits = x0.limits ∧ (compactionFree x0 x1 x2).fuses = x0.fuses ∧ (compactionFree x0 x1 x2).shelfSkips = x0.shelfSkips ∧ (compactionFree x0 x1 x2).shelfCuts = x0.shelfCuts ∧ (compactionFree x0 x1 x2).free = x0.free ∧ (compactionFree x0 x1 x2).pending = x0.pending := by
  simp only [compactionFree]
  split
  · simp
  · split
    · simp
    · split
      · simp
      · simp only [setIndex_frame]
        refine ⟨?_, ?_, ?_, ?_, ?_, ?_, ?_, ?_, ?_, ?_⟩
        all_goals (first | refine (State.foldl_engines (fun _ _ => ?_) _ _).trans ?_ | refine (State.foldl_text (fun _ _ => ?_) _ _).trans ?_ | refine (State.foldl_pair (fun _ _ => ?_) _ _).trans ?_ | refine (State.foldl_power (fun _ _ => ?_) _ _).trans ?_ | refine (State.foldl_limits (fun _ _ => ?_) _ _).trans ?_ | refine (State.foldl_fuses (fun _ _ => ?_) _ _).trans ?_ | refine (State.foldl_shelfSkips (fun _ _ => ?_) _ _).trans ?_ | refine (State.foldl_shelfCuts (fun _ _ => ?_) _ _).trans ?_ | refine (State.foldl_free (fun _ _ => ?_) _ _).trans ?_ | refine (State.foldl_pending (fun _ _ => ?_) _ _).trans ?_)
        all_goals try simp
        all_goals try (first | refine State.foldl_engines (fun _ _ => ?_) _ _ | refine State.foldl_text (fun _ _ => ?_) _ _ | refine State.foldl_pair (fun _ _ => ?_) _ _ | refine State.foldl_power (fun _ _ => ?_) _ _ | refine State.foldl_limits (fun _ _ => ?_) _ _ | refine State.foldl_fuses (fun _ _ => ?_) _ _ | refine State.foldl_shelfSkips (fun _ _ => ?_) _ _ | refine State.foldl_shelfCuts (fun _ _ => ?_) _ _ | refine State.foldl_free (fun _ _ => ?_) _ _ | refine State.foldl_pending (fun _ _ => ?_) _ _)
        all_goals (repeat' split)
        all_goals simp

end Sys2Proof.Machine
end

