-- ==== Sys2Proof/Laws/Maps.lean ====
section
/-! SUPPORT. Laws of the sparse maps: a read after a write, and the canonical form that every operation keeps. -/

namespace Sys2Proof.Machine

variable {β : Type}

@[simp] theorem mfind_nil (k : Nat) : mfind ([] : Map β) k = none := rfl

@[simp] theorem mfind_mdel (m : Map β) (k j : Nat) : mfind (mdel m k) j = if j = k then none else mfind m j := by
  induction m with
  | nil => simp [mdel]
  | cons e m ih =>
    obtain ⟨i, v⟩ := e
    by_cases h : i = k
    · subst h
      by_cases hj : j = i
      · subst hj; simpa [mdel] using ih
      · simp [mdel, ih, mfind, hj, Ne.symm hj]
    · by_cases hj : i = j
      · subst hj; simp [mdel, h, mfind]
      · simp [mdel, h, mfind, hj, ih]

@[simp] theorem mfind_mins (m : Map β) (k j : Nat) (v : β) : mfind (mins m k v) j = if j = k then some v else mfind m j := by
  induction m with
  | nil => simp [mins, mfind, eq_comm]
  | cons e m ih =>
    obtain ⟨i, w⟩ := e
    unfold mins
    split
    · simp [mfind, eq_comm]
    · split
      · rename_i h; subst h; by_cases hj : k = j
        · simp [mfind, hj]
        · simp [mfind, hj, Ne.symm hj]
      · rename_i h; by_cases hj : i = j
        · subst hj; simp [mfind, Ne.symm h]
        · simp [mfind, hj, ih]

@[simp] theorem mget_nil (d : β) (k : Nat) : mget d [] k = d := rfl

theorem mget_of_mfind {d v : β} {m : Map β} {k : Nat} (h : mfind m k = some v) : mget d m k = v := by simp [mget, h]

@[simp] theorem mget_mins (d : β) (m : Map β) (k j : Nat) (v : β) : mget d (mins m k v) j = if j = k then v else mget d m j := by
  unfold mget; rw [mfind_mins]; split <;> rfl

@[simp] theorem mget_mdel (d : β) (m : Map β) (k j : Nat) : mget d (mdel m k) j = if j = k then d else mget d m j := by
  unfold mget; rw [mfind_mdel]; split <;> rfl

/-- A read after a write gives the value written, and a write leaves every other key alone. -/
@[simp] theorem mget_mput [DecidableEq β] (d : β) (m : Map β) (k j : Nat) (v : β) :
    mget d (mput d m k v) j = if j = k then v else mget d m j := by
  unfold mput; split
  · rename_i h; rw [mget_mdel, h]
  · rw [mget_mins]

@[simp] theorem mget_mmod [DecidableEq β] (d : β) (m : Map β) (k j : Nat) (f : β → β) :
    mget d (mmod d m k f) j = if j = k then f (mget d m k) else mget d m j := by
  unfold mmod; rw [mget_mput]

@[simp] theorem mget_mcount (m : Map Nat) (k j n : Nat) : mget 0 (mcount m k n) j = if j = k then mget 0 m k + n else mget 0 m j := by
  unfold mcount; rw [mget_mmod]

theorem mfind_mmap (f : Nat → β → β) (m : Map β) (k : Nat) : mfind (mmap f m) k = (mfind m k).map (f k) := by
  induction m with
  | nil => rfl
  | cons e m ih =>
    obtain ⟨i, v⟩ := e
    by_cases h : i = k
    · subst h; simp [mmap, mfind]
    · have := ih; unfold mmap at this; simp [mmap, mfind, h, this]

/-! ## The canonical form -/

/-- Every key of the map is above k, and no value is d. -/
def aboveOk (d : β) (k : Nat) (m : Map β) : Prop := ∀ e ∈ m, k < e.1 ∧ e.2 ≠ d

theorem canonical_cons [DecidableEq β] (d : β) (j : Nat) (v : β) (m : Map β) :
    canonical d ((j, v) :: m) = true ↔ v ≠ d ∧ canonical d m = true ∧ ∀ e ∈ m, j < e.1 := by
  induction m generalizing j v with
  | nil => simp [canonical]
  | cons e m ih =>
    obtain ⟨i, w⟩ := e
    simp only [canonical, Bool.and_eq_true, decide_eq_true_eq, List.mem_cons, forall_eq_or_imp]
    constructor
    · rintro ⟨⟨h1, h2⟩, h3⟩
      refine ⟨h2, h3, h1, fun e he => ?_⟩
      exact Nat.lt_trans h1 (((ih i w).1 h3).2.2 e he)
    · rintro ⟨h2, h3, h1, -⟩
      exact ⟨⟨h1, h2⟩, h3⟩

@[simp] theorem canonical_nil [DecidableEq β] (d : β) : canonical d ([] : Map β) = true := rfl

theorem mem_mdel {m : Map β} {k : Nat} {e : Nat × β} (h : e ∈ mdel m k) : e ∈ m := by
  induction m with
  | nil => simp [mdel] at h
  | cons a m ih =>
    obtain ⟨i, v⟩ := a
    unfold mdel at h
    split at h
    · exact List.mem_cons_of_mem _ (ih h)
    · rcases List.mem_cons.1 h with h | h
      · exact h ▸ List.mem_cons_self
      · exact List.mem_cons_of_mem _ (ih h)

theorem mem_mins {m : Map β} {k : Nat} {v : β} {e : Nat × β} (h : e ∈ mins m k v) : e = (k, v) ∨ e ∈ m := by
  induction m with
  | nil => simpa [mins] using h
  | cons a m ih =>
    obtain ⟨i, w⟩ := a
    unfold mins at h
    split at h
    · rcases List.mem_cons.1 h with h | h
      · exact .inl h
      · exact .inr h
    · split at h
      · rcases List.mem_cons.1 h with h | h
        · exact .inl h
        · exact .inr (List.mem_cons_of_mem _ h)
      · rcases List.mem_cons.1 h with h | h
        · exact .inr (h ▸ List.mem_cons_self)
        · rcases ih h with h | h
          · exact .inl h
          · exact .inr (List.mem_cons_of_mem _ h)

theorem canonical_mdel [DecidableEq β] {d : β} {m : Map β} (k : Nat) (h : canonical d m = true) : canonical d (mdel m k) = true := by
  induction m with
  | nil => rfl
  | cons a m ih =>
    obtain ⟨i, v⟩ := a
    obtain ⟨h1, h2, h3⟩ := (canonical_cons d i v m).1 h
    unfold mdel; split
    · exact ih h2
    · exact (canonical_cons d i v _).2 ⟨h1, ih h2, fun e he => h3 e (mem_mdel he)⟩

theorem canonical_mins [DecidableEq β] {d v : β} {m : Map β} (k : Nat) (hv : v ≠ d) (h : canonical d m = true) :
    canonical d (mins m k v) = true := by
  induction m with
  | nil => simpa [mins, canonical] using hv
  | cons a m ih =>
    obtain ⟨i, w⟩ := a
    obtain ⟨h1, h2, h3⟩ := (canonical_cons d i w m).1 h
    unfold mins; split
    · rename_i hk
      refine (canonical_cons d k v _).2 ⟨hv, h, fun e he => ?_⟩
      rcases List.mem_cons.1 he with he | he
      · exact he ▸ hk
      · exact Nat.lt_trans hk (h3 e he)
    · split
      · rename_i hk; subst hk
        exact (canonical_cons d k v _).2 ⟨hv, h2, h3⟩
      · rename_i hk hk'
        refine (canonical_cons d i w _).2 ⟨h1, ih h2, fun e he => ?_⟩
        rcases mem_mins he with he | he
        · subst he; simp only; omega
        · exact h3 e he

/-- A write keeps the canonical form: the value an unlisted key reads as removes the entry. -/
theorem canonical_mput [DecidableEq β] {d : β} {m : Map β} (k : Nat) (v : β) (h : canonical d m = true) :
    canonical d (mput d m k v) = true := by
  unfold mput; split
  · exact canonical_mdel k h
  · rename_i hv; exact canonical_mins k hv h

theorem canonical_mmod [DecidableEq β] {d : β} {m : Map β} (k : Nat) (f : β → β) (h : canonical d m = true) :
    canonical d (mmod d m k f) = true := canonical_mput k _ h

theorem canonical_filter [DecidableEq β] {d : β} {m : Map β} (p : Nat × β → Bool) (h : canonical d m = true) :
    canonical d (m.filter p) = true := by
  induction m with
  | nil => rfl
  | cons a m ih =>
    obtain ⟨i, v⟩ := a
    obtain ⟨h1, h2, h3⟩ := (canonical_cons d i v m).1 h
    simp only [List.filter_cons]; split
    · exact (canonical_cons d i v _).2 ⟨h1, ih h2, fun e he => h3 e (List.mem_filter.1 he).1⟩
    · exact ih h2

theorem canonical_mmap [DecidableEq β] {d : β} {m : Map β} (f : Nat → β → β) (hf : ∀ k v, v ≠ d → f k v ≠ d) (h : canonical d m = true) :
    canonical d (mmap f m) = true := by
  induction m with
  | nil => rfl
  | cons a m ih =>
    obtain ⟨i, v⟩ := a
    obtain ⟨h1, h2, h3⟩ := (canonical_cons d i v m).1 h
    refine (canonical_cons d i (f i v) _).2 ⟨hf i v h1, ih h2, fun e he => ?_⟩
    obtain ⟨x, hx, rfl⟩ := List.mem_map.1 he
    exact h3 x hx

/-- A key below every key of the map reads as an unlisted key. -/
theorem mget_of_all_above (d : β) (m : Map β) (k : Nat) (h : ∀ e ∈ m, k < e.1) : mget d m k = d := by
  induction m with
  | nil => rfl
  | cons a m ih =>
    obtain ⟨i, v⟩ := a
    have hi := h (i, v) List.mem_cons_self
    have : i ≠ k := by simp only at hi; omega
    simp only [mget, mfind, this, if_false]
    exact ih fun e he => h e (List.mem_cons_of_mem _ he)

end Sys2Proof.Machine
end

