-- ==== Sys2Proof/Laws/Memory.lean ====
section
/-! SUPPORT. Laws of the addressed memories: every operation that writes one keeps its canonical form, and a write leaves every other place
as it was. -/

namespace Sys2Proof.Machine

theorem canonical_map_filter {β : Type} [DecidableEq β] (d : β) (f : Nat → β → β) (m : Map β) (h : canonical d m = true) :
    canonical d ((m.map fun e => (e.1, f e.1 e.2)).filter fun e => decide (e.2 ≠ d)) = true := by
  induction m with
  | nil => rfl
  | cons e m ih =>
    obtain ⟨i, v⟩ := e
    obtain ⟨-, h2, h3⟩ := (canonical_cons d i v m).1 h
    have hm := ih h2
    by_cases hv : f i v = d
    · simpa [hv] using hm
    · have : ((((i, v) :: m).map fun e => (e.1, f e.1 e.2)).filter fun e => decide (e.2 ≠ d))
          = (i, f i v) :: ((m.map fun e => (e.1, f e.1 e.2)).filter fun e => decide (e.2 ≠ d)) := by simp [hv]
      rw [this]
      refine (canonical_cons d i _ _).2 ⟨hv, hm, fun e he => ?_⟩
      obtain ⟨x, hx, rfl⟩ := List.mem_map.1 (List.mem_filter.1 he).1
      exact h3 x hx

/-! ## Slots of the central store -/

theorem setSlot_wf (s : State) (t : TileIdx) (f : Slot → Slot) (h : Memory.wf s) : Memory.wf (setSlot s t f) :=
  ⟨canonical_mmod _ _ h.1, h.2⟩

theorem mapSlots_wf (s : State) (f : TileIdx → Slot → Slot) (h : Memory.wf s) : Memory.wf (mapSlots s f) :=
  ⟨canonical_map_filter _ (fun k => f (BitVec.ofNat 17 k)) _ h.1, h.2⟩

theorem clearStore_wf (s : State) (h : Memory.wf s) : Memory.wf (clearStore s) := ⟨rfl, h.2⟩

theorem slotOf_setSlot_other (s : State) (t u : TileIdx) (f : Slot → Slot) (h : u ≠ t) : slotOf (setSlot s t f) u = slotOf s u := by
  have : u.toNat ≠ t.toNat := fun e => h (BitVec.eq_of_toNat_eq e)
  simp [slotOf, setSlot, mget_mmod, this]

/-! ## Tiles of tier L -/

theorem putL_wf (s : State) (n : Nat) (t : Tile) (d : Bool) (h : Memory.wf s) : Memory.wf (putL s n t d) :=
  ⟨h.1, canonical_mput _ _ h.2.1, h.2.2⟩

theorem windowPut_wf (s : State) (off : Nat) (data : Bytes) (h : Memory.wf s) : Memory.wf (windowPut s off data) :=
  ⟨h.1, canonical_mput _ _ h.2.1, h.2.2⟩

theorem lTile_putL_other (s : State) (n k : Nat) (t : Tile) (d : Bool) (h : k ≠ n) : lTile (putL s n t d) k = lTile s k := by
  simp [lTile, putL, mget_mput, h]

/-! ## Flash blocks -/

theorem setFblk_wf (s : State) (c d b : Nat) (f : FlashBlock → FlashBlock) (h : Memory.wf s) : Memory.wf (setFblk s c d b f) :=
  ⟨h.1, h.2.1, canonical_mmod _ _ h.2.2⟩

theorem coldFlash_canonical (f : FlashState) (h : canonical {} f.blocks = true) : canonical {} (coldFlash f).blocks = true :=
  canonical_map_filter {} (fun _ b => { b with erasing := none }) f.blocks h

theorem freeStale_wf (s : State) (h : Memory.wf s) : Memory.wf (freeStale s) :=
  ⟨h.1, h.2.1, canonical_map_filter {} (fun _ (b : FlashBlock) => if b.retired then b
    else if b.erasing.isSome || (b.pages ≠ [] && b.pages.all fun p => !p.2.tagValid) then { pe := b.pe + 1 }
    else if b.pages = [] then { b with wp := 0, group := none, erasing := none } else b) _ h.2.2⟩

end Sys2Proof.Machine
end

