-- ==== Sys2Proof/Laws/State.lean ====
section
/-! SUPPORT. Laws of the state's accessors: what each update leaves in the part it writes, and a read after an update. The parts that an
update leaves as they are stand in the frame lemmas. -/

namespace Sys2Proof.Machine

/-! ## Keys -/

theorem qpKey_inj {fn gn : Tenant} {q r : BitVec 3} : qpKey fn q = qpKey gn r ↔ fn = gn ∧ q = r := by
  unfold qpKey
  constructor
  · intro h
    have h1 := q.isLt; have h2 := r.isLt
    exact ⟨BitVec.eq_of_toNat_eq (by omega), BitVec.eq_of_toNat_eq (by omega)⟩
  · rintro ⟨rfl, rfl⟩; rfl

theorem vecKey_inj {fn gn : Tenant} {q r : BitVec 4} : vecKey fn q = vecKey gn r ↔ fn = gn ∧ q = r := by
  unfold vecKey
  constructor
  · intro h
    have h1 := q.isLt; have h2 := r.isLt
    exact ⟨BitVec.eq_of_toNat_eq (by omega), BitVec.eq_of_toNat_eq (by omega)⟩
  · rintro ⟨rfl, rfl⟩; rfl

theorem linkKey_inj {l m : LinkId} : linkKey l = linkKey m ↔ l = m := by
  constructor
  · intro h
    obtain ⟨d, k, w⟩ := l
    obtain ⟨d', k', w'⟩ := m
    unfold linkKey b2n at h
    have h1 := k.isLt; have h2 := k'.isLt
    have hd : d = d' := BitVec.eq_of_toNat_eq (by cases w <;> cases w' <;> simp at h <;> omega)
    have hk : k = k' := BitVec.eq_of_toNat_eq (by cases w <;> cases w' <;> simp at h <;> omega)
    have hw : w = w' := by cases w <;> cases w' <;> simp_all
    rw [hd, hk, hw]
  · rintro rfl; rfl

@[simp] theorem LinkId.rev_rev (l : LinkId) : l.rev.rev = l := by simp [LinkId.rev]

@[simp] theorem LinkId.rev_ne (l : LinkId) : l.rev ≠ l := by
  intro h; have := congrArg LinkId.down h; cases h2 : l.down <;> simp [LinkId.rev, h2] at this

/-! ## What an update leaves -/

@[simp] theorem setQp_host (s : State) (fn : Tenant) (q : BitVec 3) (f : QueuePair → QueuePair) :
    (setQp s fn q f).host = { s.host with qps := mmod {} s.host.qps (qpKey fn q) f } := rfl
@[simp] theorem setVec_host (s : State) (fn : Tenant) (q : BitVec 4) (f : Vector → Vector) :
    (setVec s fn q f).host = { s.host with vectors := mmod {} s.host.vectors (vecKey fn q) f } := rfl
@[simp] theorem setEng_engines (s : State) (e : Engine) (f : EngineState → EngineState) :
    (setEng s e f).engines = { s.engines with engine := mmod {} s.engines.engine e.val f } := rfl
@[simp] theorem setPart_gen (s : State) (p : PartId) (f : Partition → Partition) :
    (setPart s p f).gen = { s.gen with parts := mmod {} s.gen.parts p.toNat f } := rfl
@[simp] theorem setTen_gen (s : State) (p : Tenant) (f : TenantState → TenantState) :
    (setTen s p f).gen = { s.gen with tenants := mmod {} s.gen.tenants p.toNat f } := rfl
@[simp] theorem setLease_pair (s : State) (p : Tenant) (f : LeaseInfo → LeaseInfo) :
    (setLease s p f).pair = { s.pair with leases := mmod {} s.pair.leases p.toNat f } := rfl
@[simp] theorem setLink_fabric (s : State) (l : LinkId) (f : LinkState → LinkState) :
    (setLink s l f).fabric = { s.fabric with links := mmod {} s.fabric.links (linkKey l) f } := rfl
@[simp] theorem setSlot_store (s : State) (l : TileIdx) (f : Slot → Slot) :
    (setSlot s l f).store = { s.store with slots := mmod {} s.store.slots l.toNat f } := rfl
@[simp] theorem setFblk_flash (s : State) (c d b : Nat) (f : FlashBlock → FlashBlock) :
    (setFblk s c d b f).flash = { s.flash with blocks := mmod {} s.flash.blocks (fblkKey c d b) f } := rfl
@[simp] theorem setMerge_engines (s : State) (m : Nat) (f : MergeState → MergeState) :
    (setMerge s m f).engines = { s.engines with merges := mmod {} s.engines.merges m f } := rfl
@[simp] theorem setReq_host (s : State) (h : Nat) (r : Request) :
    (setReq s h r).host = { s.host with requests := mins s.host.requests h r } := rfl
@[simp] theorem emit_host (s : State) (o : Output) : (emit s o).host = { s.host with out := o :: s.host.out } := rfl
@[simp] theorem drawFree_fst (s : State) : (drawFree s).1 = Config.freeValue s.free := rfl
@[simp] theorem drawFree_free (s : State) : (drawFree s).2.free = s.free + 1 := rfl
@[simp] theorem countTenant_host (s : State) (n : Tenant) (k m : Nat) :
    (countTenant s n k m).host = { s.host with cntTenant := mcount s.host.cntTenant (8 * n.toNat + k) m } := rfl

/-! ## A read after an update -/

@[simp] theorem qpOf_setQp (s : State) (fn : Tenant) (q : BitVec 3) (f : QueuePair → QueuePair) (gn : Tenant) (r : BitVec 3) :
    qpOf (setQp s fn q f) gn r = if gn = fn ∧ r = q then f (qpOf s fn q) else qpOf s gn r := by
  simp [qpOf, setQp, qpKey_inj]
@[simp] theorem vecOf_setVec (s : State) (fn : Tenant) (q : BitVec 4) (f : Vector → Vector) (gn : Tenant) (r : BitVec 4) :
    vecOf (setVec s fn q f) gn r = if gn = fn ∧ r = q then f (vecOf s fn q) else vecOf s gn r := by
  simp [vecOf, setVec, vecKey_inj]
@[simp] theorem engOf_setEng (s : State) (e : Engine) (f : EngineState → EngineState) (d : Engine) :
    engOf (setEng s e f) d = if d = e then f (engOf s e) else engOf s d := by
  simp [engOf, setEng, Fin.ext_iff]
@[simp] theorem partOf_setPart (s : State) (p : PartId) (f : Partition → Partition) (r : PartId) :
    partOf (setPart s p f) r = if r = p then f (partOf s p) else partOf s r := by
  simp [partOf, setPart, BitVec.toNat_inj]
@[simp] theorem tenOf_setTen (s : State) (p : Tenant) (f : TenantState → TenantState) (r : Tenant) :
    tenOf (setTen s p f) r = if r = p then f (tenOf s p) else tenOf s r := by
  simp [tenOf, setTen, BitVec.toNat_inj]
@[simp] theorem leaseOf_setLease (s : State) (p : Tenant) (f : LeaseInfo → LeaseInfo) (r : Tenant) :
    leaseOf (setLease s p f) r = if r = p then f (leaseOf s p) else leaseOf s r := by
  simp [leaseOf, setLease, BitVec.toNat_inj]
@[simp] theorem linkOf_setLink (s : State) (l : LinkId) (f : LinkState → LinkState) (m : LinkId) :
    linkOf (setLink s l f) m = if m = l then f (linkOf s l) else linkOf s m := by
  simp [linkOf, setLink, linkKey_inj]
@[simp] theorem slotOf_setSlot (s : State) (l : TileIdx) (f : Slot → Slot) (m : TileIdx) :
    slotOf (setSlot s l f) m = if m = l then f (slotOf s l) else slotOf s m := by
  simp [slotOf, setSlot, BitVec.toNat_inj]
@[simp] theorem fblkOf_setFblk (s : State) (c d b : Nat) (f : FlashBlock → FlashBlock) (c' d' b' : Nat) :
    fblkOf (setFblk s c d b f) c' d' b' = if fblkKey c' d' b' = fblkKey c d b then f (fblkOf s c d b) else fblkOf s c' d' b' := by
  simp [fblkOf, setFblk]
@[simp] theorem mergeOf_setMerge (s : State) (m : Nat) (f : MergeState → MergeState) (n : Nat) :
    mergeOf (setMerge s m f) n = if n = m then f (mergeOf s m) else mergeOf s n := by
  simp [mergeOf, setMerge]
@[simp] theorem reqOf_setReq (s : State) (h k : Nat) (r : Request) :
    reqOf (setReq s h r) k = if k = h then some r else reqOf s k := by
  simp [reqOf, setReq]
@[simp] theorem linkOf_emit (s : State) (o : Output) (l : LinkId) : linkOf (emit s o) l = linkOf s l := rfl
@[simp] theorem recNow_emit (s : State) (o : Output) : recNow (emit s o) = recNow s := rfl
@[simp] theorem now_emit (s : State) (o : Output) : now (emit s o) = now s := rfl

end Sys2Proof.Machine
end

