-- ==== Sys2Proof/Tests/Slice0.lean ====
section
/-! SUPPORT. Tests: an ill-formed command for each check of WellFormed, small checks of single commands on states built here, and for every
statement that has hypotheses named witnesses (wit_<statement>_<clause>): a state and operands that meet the hypotheses of the clause. -/

set_option Elab.async false
set_option linter.unusedVariables false

open Sys2Proof Sys2Proof.Machine

namespace Sys2Proof.Tests

/-! ## WellFormed refuses -/

theorem test_domain_30_is_ill_formed : (Instr.rateSample 30 []).wellFormed = false := by decide
theorem test_domain_29_is_well_formed : (Instr.rateSample 29 []).wellFormed = true := by decide
theorem test_extent_past_the_range_is_ill_formed : (Instr.extentUnmap 134217728).wellFormed = false := by decide
theorem test_flash_channel_32_is_ill_formed : (Instr.blockErase 32 0 0).wellFormed = false := by decide
theorem test_flash_die_16_is_ill_formed : (Instr.blockErase 0 16 0).wellFormed = false := by decide
theorem test_index_256_is_ill_formed : (Instr.indexDestroy 256).wellFormed = false := by decide
theorem test_table_64_is_ill_formed : (Instr.tableDestroy 64).wellFormed = false := by decide
theorem test_shelf_32_is_ill_formed : (Instr.scanCut 1 32).wellFormed = false := by decide
theorem test_link_width_2_is_ill_formed : (Instr.hostLinkTraining 2 64 false).wellFormed = false := by decide
theorem test_line_of_65_bytes_is_ill_formed : (Instr.hostWindowWrite 0 (List.replicate 65 0)).wellFormed = false := by decide
theorem test_chunk_of_4097_bytes_is_ill_formed : (Instr.recoveryWrite false 0 (List.replicate 4097 0)).wellFormed = false := by decide +kernel
theorem test_slot_1024_is_ill_formed : (Instr.readSlot 0 1024).wellFormed = false := by decide
theorem test_flit_of_257_bytes_is_ill_formed : (Instr.storeWritePayload 0 0 0 (List.replicate 257 0)).wellFormed = false := by decide +kernel
theorem test_access_of_2_bytes_is_ill_formed : (Instr.registerWrite 0 0 2 0).wellFormed = false := by decide
theorem test_image_above_32_mib_is_ill_formed :
    (Instr.pldmUpdateComponent { version := [], size := 33554433, stamp := 0, svn := 0, keySlot := 0 }).wellFormed = false := by decide

/-! ## Small checks, each from the manual's text -/

/-- What a test reads of the next state. -/
def see {α : Type} (o : Host.Outcome State Fault Refusal) (f : State → α) : Option α := match o with | .next t => some (f t) | _ => none

/-- The check value of R42: the CRC-32C of the ASCII string 123456789. -/
theorem test_crc_check_value : crc32c [0x31, 0x32, 0x33, 0x34, 0x35, 0x36, 0x37, 0x38, 0x39] = 0xE3069283 := by decide +kernel

/-- A reading of 1,100 is logged, one of 1,101 is not (R28). -/
theorem test_floor_rate_is_logged :
    see (exec (.rateSample 3 [1500, 1100, 1400, 1300]) {}) (fun t => t.bureau.staged.length) = some 1
    ∧ see (exec (.rateSample 3 [1500, 1101, 1400, 1300]) {}) (fun t => t.bureau.staged.length) = some 0 := by decide +kernel

/-- The owner frees its READY tile (R47). -/
theorem test_owner_frees :
    see (exec (.storeFree { src := 0, part := 2, tile := 5 }) (setSlot {} 5 fun x => { x with hdr := { state := .ready, owner := 2 } }))
      (fun t => (slotOf t 5).hdr.state) = some .free := by decide +kernel

/-- A counter of 3 becomes the SVN 5 of the image that runs (R431). -/
theorem test_commit_raises_the_counter :
    see (exec (.fwCommit false) { host := { bootOk := true }, bureau := { runningSvn := 5 }, fuses := { rollback := 3 } }) (·.fuses.rollback) = some 5 := by
  decide +kernel

/-- A window of 257 GiB is out of range: CFG_ERR with cause 1 (R463, Table 20.11). -/
theorem test_window_of_257_is_refused :
    see (exec (.windowResize 257) { power := { configReady := true } }) (fun t => t.tier.windowPending) = some none := by decide +kernel

/-- The host link at 8 lanes and 32 GT/s (Table 12.1). -/
theorem test_link_training : see (exec (.hostLinkTraining 8 32 true) {}) (fun t => (t.host.linkWidth, t.host.latOpt)) = some (8, false) := by decide +kernel

/-- Of equal priorities the higher source number is claimed (R413). -/
theorem test_claim_takes_the_higher_number :
    see (exec (.icClaimRead 1) { bureau := { sources := [(3, { pending := true, priority := 2, assigned := some 1 }),
      (7, { pending := true, priority := 2, assigned := some 1 })] } }) (fun t => mfind t.bureau.claim 1) = some (some (true, 7)) := by decide +kernel

/-- PD00 and PD05 come up first, and PD01 is the first regulated domain (R442). -/
theorem test_domains_in_order :
    see (exec (.powerOn 48000 7) {}) (·.power.domains) = some [0, 5]
    ∧ see (exec .domainPowerUp { power := { powerGood := true, bureauHeld := false, domains := [0, 5] } }) (·.power.domains) = some [0, 5, 1] := by
  decide +kernel

/-- An exact selection of two of three scores in a register, the NaN left out; ids count on from ID_BASE (R139 to R141). -/
theorem test_select_exact :
    let p : SelParams := { k := 2, ascending := false, mass := false, sumAnchor := 0, ref := 0, idBase := 10, source := 0 }
    let s := setEng {} 3 fun x => { x with vregs := [(0, [0x3F800000, 0x7FC00000, 0x40000000])] }
    (select p false (selEntries s 3 p (.regs 0 3))).entries.map (·.2.1) = [12, 10] := by decide +kernel

/-! ## Helpers of the witnesses -/

/-- The flit with its own CRC. -/
def sealFlit (f : Flit) : Flit := { f with crc := f.crcOf }

theorem sealFlit_ok (f : Flit) : (sealFlit f).crc = (sealFlit f).crcOf := rfl

theorem sealFlit_bad (f : Flit) (c : BitVec 32) (h : c ≠ 0) :
    ({ sealFlit f with crc := f.crcOf + c } : Flit).crc ≠ ({ sealFlit f with crc := f.crcOf + c } : Flit).crcOf := by
  show f.crcOf + c ≠ f.crcOf
  generalize f.crcOf = x at *; intro e; apply h; bv_omega

/-- The state with the entry of extent x. -/
def withExt (s : State) (x : Nat) (e : ExtentEntry) : State :=
  { s with tier := { s.tier with
      dir := mins s.tier.dir (x / 16384) (BitVec.ofNat 11 (x / 16384)), leaves := mins s.tier.leaves x { e with valid := true } } }

theorem sealed_ok (t : Tile) : t.sealed.crcOk = true := decide_eq_true rfl

/-- A tile of these bytes with its CRC. -/
def goodTile (b : Bytes) : Tile := Tile.sealed { payload := b }

theorem goodTile_good (b : Bytes) : (goodTile b).good = true := by
  unfold Tile.good; rw [Bool.or_eq_true]; exact .inr (sealed_ok _)

/-- Tile n of the device range, mapped read-only to the same place of tier L, holds the bytes. -/
def withTile (s : State) (n : Nat) (b : Bytes) : State :=
  putL (withExt s (n / 128) { cls := 0, homeTier := 2, homeLoc := BitVec.ofNat 25 (n / 128) }) n { payload := b } false

/-- The same with the CRC of its bytes. -/
def withGood (s : State) (n : Nat) (b : Bytes) : State :=
  putL (withExt s (n / 128) { cls := 0, homeTier := 2, homeLoc := BitVec.ofNat 25 (n / 128) }) n (goodTile b) false

theorem devTile_put (s : State) (n m : Nat) (t : Tile) (d : Bool) (e : ExtentEntry) (h : entryOf s (devExtent n) = some e)
    (hp : readPlace e (devPos n) = (2, m)) : devTile (putL s m t d) n = some { hdr := storedHeader t.hdr, payload := t.payload } := by
  have he : entryOf (putL s m t d) (devExtent n) = some e := h
  simp only [devTile, he, Option.bind_some, hp]
  simp [tileAt, lTile, putL, mget_mput]

theorem devTile_withGood (s : State) (n : Nat) (b : Bytes) (e : ExtentEntry)
    (h : entryOf (withExt s (n / 128) { cls := 0, homeTier := 2, homeLoc := BitVec.ofNat 25 (n / 128) }) (devExtent n) = some e)
    (hp : readPlace e (devPos n) = (2, n)) : devTile (withGood s n b) n = some (goodTile b) := by
  unfold withGood; rw [devTile_put _ _ _ _ _ _ h hp]; rfl

theorem tableOk_withGood (s : State) (n : Nat) (b : Bytes) (e : ExtentEntry)
    (h : entryOf (withExt s (n / 128) { cls := 0, homeTier := 2, homeLoc := BitVec.ofNat 25 (n / 128) }) (devExtent n) = some e)
    (hp : readPlace e (devPos n) = (2, n)) : tableTileOk (withGood s n b) n = true := by
  simp [tableTileOk, devTile_withGood s n b e h hp, goodTile_good]

theorem readOrCopy_some (s : State) (n : Nat) (ok : Tile → Bool) (t : Tile) (h : devTile s n = some t) (g : t.good = true) (k : ok t = true) :
    readOrCopy s n true ok = some t := by
  simp [readOrCopy, h, Option.filter, g, k]

theorem stored_ok (t : Tile) : Tile.crcOk { hdr := storedHeader t.sealed.hdr, payload := t.payload } = true := decide_eq_true rfl


/-- Every class has a buffer at least. -/
theorem buffer_pos (c : Nat) : decide (0 < Config.linkBuffers c) = true := by simp [Config.linkBuffers]

/-- Every tile of the turn conductor's pool is HELD. -/
@[irreducible] def fullPool : Map Slot := (List.range 8192).map fun k => (121856 + k, { hdr := { state := .held } })

theorem mfind_run (b n k : Nat) (v : Slot) (h : k < n) : mfind ((List.range n).map fun k => (b + k, v)) (b + k) = some v := by
  have key : ∀ (l : List Nat), k ∈ l → mfind (l.map fun k => (b + k, v)) (b + k) = some v := by
    intro l
    induction l with
    | nil => intro h; simp at h
    | cons a l ih =>
      intro h
      by_cases e : a = k
      · subst e; simp [mfind]
      · have e' : k ∈ l := by simpa [Ne.symm e] using h
        simp [mfind, e, ih e']
  exact key _ (List.mem_range.2 h)

theorem mfind_full (k : Nat) (hk : k < 8192) : mfind fullPool (121856 + k) = some { hdr := { state := .held } } := by
  unfold fullPool
  exact mfind_run 121856 8192 k _ hk

theorem full_none (s : State) (h : s.store.slots = fullPool) : freeConductor s = none := by
  unfold freeConductor
  rw [List.find?_eq_none]
  intro t ht
  obtain ⟨k, hk, rfl⟩ := List.mem_map.1 ht
  have hk := List.mem_range.1 hk
  have e : (BitVec.ofNat 17 (Config.conductorBase + k)).toNat = 121856 + k := by
    rw [BitVec.toNat_ofNat]; unfold Config.conductorBase Config.conductorTiles at *; omega
  have hs : slotOf s (BitVec.ofNat 17 (Config.conductorBase + k)) = { hdr := { state := .held } } := by
    unfold slotOf; rw [h, e]; exact mget_of_mfind (mfind_full k hk)
  rw [hs]; decide

theorem devTile_of (s : State) (n m : Nat) (e : ExtentEntry) (x : LTile) (h : entryOf s (devExtent n) = some e)
    (hp : readPlace e (devPos n) = (2, m)) (hl : lTile s m = x) : devTile s n = some { hdr := x.hdr, payload := x.payload } := by
  subst hl; simp only [devTile, h, Option.bind_some, hp]; rfl

theorem ok_of (s : State) (n : Nat) (t : Tile) (h : devTile s n = some t) : tableTileOk s n = t.good := by
  unfold tableTileOk; rw [h]; rfl

/-- A set whose tiles other than tile 0 pass. -/
theorem verified_but0 (s : State) (k : BitVec 2) (h0 : tableTileOk s 0 = true)
    (h : ((setTiles s k).all fun n => n == 0 || tableTileOk s n) = true) : setVerified s k := by
  unfold setVerified
  rw [List.all_eq_true] at h ⊢
  intro n hn
  have := h n hn
  rw [Bool.or_eq_true] at this
  rcases this with e | e
  · rw [beq_iff_eq] at e; subst e; exact h0
  · exact e

/-! ## Witnesses: die links -/

namespace A1

/-- A link of memory die 0 that the hub sends on. -/
def L0 : LinkId := { die := 0x20, link := 0, down := true }
/-- What a flit that passes carries. -/
def F0 : Flit := { seq := 5, cls := 1 }


theorem wit_DieLinkDeliversInOrder_1 :
    let s : State := setLink {} L0 fun k => { k with expect := 5, discarding := true, nakRun := 2, nakSeq := 5 }
    let l : LinkId := L0
    let f : Flit := sealFlit F0
    hasLink l = true
    ∧ linkStopped s l = false
    ∧ f.crc = f.crcOf
    ∧ f.ackOnly = false
    ∧ f.seq = (linkOf s l).expect := by exact ⟨by decide, by decide, sealFlit_ok F0, by decide, by decide⟩

theorem wit_DieLinkDeliversInOrder_2 :
    let s : State := setLink {} L0 fun k => { k with expect := 5, discarding := true, nakRun := 2, nakSeq := 5 }
    let l : LinkId := L0
    let f : Flit := sealFlit { F0 with cls := 2 }
    hasLink l = true
    ∧ linkStopped s l = false
    ∧ f.crc = f.crcOf
    ∧ f.ackOnly = false
    ∧ f.seq = (linkOf s l).expect
    ∧ l.down = true
    ∧ isStore l.die = false
    ∧ f.cls = 2
    ∧ f.last = false
    ∧ f.nak = false
    ∧ (linkOf s l.rev).waiting = [] := by exact ⟨by decide, by decide, sealFlit_ok { F0 with cls := 2 }, by decide, by decide, by decide, by decide, by decide, by decide, by decide, by decide⟩

theorem wit_DieLinkDeliversInOrder_3 :
    let s : State := setLink {} L0.pair fun k => { k with expect := 6 }
    let l : LinkId := L0
    let f : Flit := sealFlit F0
    hasLink l = true
    ∧ linkStopped s l = false
    ∧ f.crc = f.crcOf
    ∧ (f.ackOnly = true ∨ f.seq ≠ (linkOf s l).expect) := by exact ⟨by decide, by decide, sealFlit_ok F0, by decide⟩

theorem wit_DieLinkDeliversInOrder_4 :
    let s : State := setLink {} L0 fun k => { k with expect := 5, discarding := true, nakRun := 2, nakSeq := 5 }
    let l : LinkId := L0
    let f : Flit := { sealFlit F0 with crc := F0.crcOf + 1 }
    hasLink l = true
    ∧ linkStopped s l = false
    ∧ f.crc ≠ f.crcOf := by exact ⟨by decide, by decide, sealFlit_bad F0 1 (by decide)⟩

theorem wit_DieLinkUpkeep_1 :
    let s : State := setLink {} L0 fun k => { k with ackDue := true, expect := 9 }
    let l : LinkId := L0
    (linkOf s l).ackDue = true ∨ (linkOf s l).credit ≠ []
    ∧ linkStopped s l = false := by decide +kernel

theorem wit_DieLinkUpkeep_2 :
    let s : State := setLink {} L0 fun k => { k with nakRun := 8 }
    let l : LinkId := L0
    8 ≤ (linkOf s l).nakRun
    ∧ linkStopped s l = false := by decide +kernel

theorem wit_DieLinkUpkeep_3 :
    let s : State := setLink {} L0.pair fun k => { k with reinit := true, expect := 5, replay := [{ F0 with seq := 4 }, F0] }
    let l : LinkId := L0
    (linkOf s l.pair).reinit = true := by decide +kernel

theorem wit_DieLinkUpkeep_4 :
    let s : State := setLink {} L0.pair fun k => { k with reinit := true, expect := 5, replay := [{ F0 with seq := 4 }, F0] }
    let l : LinkId := L0
    (linkOf s l.pair).reinit = true
    ∧ (linkOf s l.pair).waiting = []
    ∧ (linkOf s l.pair.rev).waiting = [] := by decide +kernel

theorem wit_DieLinkUpkeep_5 :
    let s : State := { setLink {} L0.pair (fun k => { k with reinitAt := [10, 5, 2] }) with bureau := { recTime := 12 } }
    let l : LinkId := L0
    (linkOf s l.pair).failed = false
    ∧ 3 ≤ (lastSecond (recNow s) (linkOf s l.pair).reinitAt).length
    ∧ (isMemory l.die = true ∨ l.die = 0x3C)
    ∧ isCompute l.die = false
    ∧ l.die ∉ s.fabric.halfLink := by decide +kernel

end A1

/-! ## Witnesses: fabric and notices -/

namespace A2

/-- A message of a compute die for hub 0's store dies. -/
def M0 : CtrlMsg := { dest := 0x18, src := 0x20, type := 0x03, tag := 7 }
/-- A state in which hub 0's ring stage holds message m. -/
def ringWith (m : CtrlMsg) : State := { fabric := { ring := [(0, [m])] } }
/-- A block of memory die 0. -/
def B0 : BlockId := { die := 0x20 }
/-- A state with one fence of B0 on die 0x20. -/
def fenced (f : Fence) : State := { fabric := { fences := [(fenceKey B0 0x20, f)] } }
/-- A state in which tile 5 of the store has a header. -/
def tileIs (h : TileHeader) : State := setSlot {} 5 fun x => { x with hdr := h }
/-- A state with one quiesce of block b. -/
def quiescing (b : BlockId) (q : Quiesce) : State := { fabric := { quiesce := [(blockKey b, q)] } }


theorem wit_HubGrantsOneFlit_1 :
    let s : State := { fabric := { hubWait := [(0x20, [(1, { cls := 1 }), (2, { cls := 3 })])] } }
    let hub : BitVec 2 := 0
    let out : DieId := 0x20
    let l : LinkId := (downLink 0 0x20).getD { die := 0, link := 0, down := true }
    let key := hub.toNat * 64 + out.toNat
    let ws := mget [] s.fabric.hubWait key
    downLink hub out = some l
    ∧ (∃ w ∈ ws, linkReady s l w.2.cls = true) := by exact ⟨by decide, (1, { cls := 1 }), by decide, (by show (true && decide (0 < Config.linkBuffers 1) && true) = true; rw [buffer_pos]; rfl)⟩

theorem wit_HubGrantsOneFlit_2 :
    let s : State := {}
    let hub : BitVec 2 := 0
    let out : DieId := 0x20
    let l : LinkId := (downLink 0 0x20).getD { die := 0, link := 0, down := true }
    let key := hub.toNat * 64 + out.toNat
    let ws := mget [] s.fabric.hubWait key
    downLink hub out = some l
    ∧ (∀ w ∈ ws, linkReady s l w.2.cls = false) := by decide +kernel

theorem wit_ControlRingDelivers_1 :
    let s : State := ringWith M0
    let hub : BitVec 2 := 0
    let m : CtrlMsg := M0
    ringFirst (mget [] s.fabric.ring hub.toNat) m = true := by decide +kernel

theorem wit_ControlRingDelivers_2 :
    let s : State := ringWith { M0 with type := 11 }
    let hub : BitVec 2 := 0
    let m : CtrlMsg := { M0 with type := 11 }
    ringFirst (mget [] s.fabric.ring hub.toNat) m = true
    ∧ (m.type = 0 ∨ 10 < m.type.toNat) := by decide +kernel

theorem wit_ControlRingDelivers_3 :
    let s : State := ringWith M0
    let hub : BitVec 2 := 0
    let m : CtrlMsg := M0
    let listed := 1 ≤ m.type.toNat ∧ m.type.toNat ≤ 10
    ringFirst (mget [] s.fabric.ring hub.toNat) m = true
    ∧ listed
    ∧ worldDrops s m = false
    ∧ m.bcast = false
    ∧ hubServes hub m.dest = true := by decide +kernel

theorem wit_ControlRingDelivers_4 :
    let s : State := ringWith { M0 with dest := 0x21 }
    let hub : BitVec 2 := 0
    let m : CtrlMsg := { M0 with dest := 0x21 }
    let listed := 1 ≤ m.type.toNat ∧ m.type.toNat ≤ 10
    ringFirst (mget [] s.fabric.ring hub.toNat) m = true
    ∧ listed
    ∧ worldDrops s m = false
    ∧ m.bcast = false
    ∧ hubServes hub m.dest = false
    ∧ homeHub m.dest ≠ none := by decide +kernel

theorem wit_ControlRingDelivers_5 :
    let s : State := ringWith { M0 with bcast := true }
    let hub : BitVec 2 := 0
    let m : CtrlMsg := { M0 with bcast := true }
    let listed := 1 ≤ m.type.toNat ∧ m.type.toNat ≤ 10
    ringFirst (mget [] s.fabric.ring hub.toNat) m = true
    ∧ listed
    ∧ m.bcast = true := by decide +kernel

theorem wit_ControlRingDelivers_6 :
    let s : State := { ringWith M0 with bureau := { secureXor := [(0x18, 1)] } }
    let hub : BitVec 2 := 0
    let m : CtrlMsg := M0
    let listed := 1 ≤ m.type.toNat ∧ m.type.toNat ≤ 10
    ringFirst (mget [] s.fabric.ring hub.toNat) m = true
    ∧ listed
    ∧ worldDrops s m = true := by decide +kernel

theorem wit_FencesAndSubscriptionsAreAnswered_2 :
    let s : State := fenced { marked := [0, 1], arrived := [(0, 5)], answers := [(0, 1)], earlier := [5] }
    let b : BlockId := B0
    let d : DieId := 0x20
    let k : BitVec 2 := 0
    let st : BitVec 3 := 5
    let f : Fence := { marked := [0, 1], arrived := [(0, 5)], answers := [(0, 1)], earlier := [5] }
    mfind s.fabric.fences (fenceKey b d) = some f
    ∧ (k, st) ∈ f.arrived
    ∧ (∀ t ∈ f.earlier, t.setWidth 3 = st → t ∉ tilesInFlight s d) := by exact ⟨by decide, by decide, by intro t _ _; show t ∉ (tilesInFlight (fenced _) 0x20); simp [tilesInFlight, fenced]⟩

theorem wit_FencesAndSubscriptionsAreAnswered_3 :
    let s : State := fenced { marked := [0, 1] }
    let b : BlockId := B0
    let d : DieId := 0x20
    let k : BitVec 2 := 0
    let st : BitVec 3 := 5
    let f : Fence := { marked := [0, 1] }
    mfind s.fabric.fences (fenceKey b d) = some f
    ∧ (k, st) ∉ f.arrived ∨ (∃ t ∈ f.earlier, t.setWidth 3 = st ∧ t ∈ tilesInFlight s d) := by decide +kernel

theorem wit_FencesAndSubscriptionsAreAnswered_4 :
    let s : State := fenced { marked := [0], arrived := fenceAnswers {} 0x20, answers := (List.range 8).map fun i => (0, BitVec.ofNat 3 i) }
    let b : BlockId := B0
    let d : DieId := 0x20
    let f : Fence := { marked := [0], arrived := fenceAnswers {} 0x20, answers := (List.range 8).map fun i => (0, BitVec.ofNat 3 i) }
    mfind s.fabric.fences (fenceKey b d) = some f
    ∧ f.reset = false
    ∧ (∀ l ∈ f.marked, ∀ x, (l, x) ∈ f.answers) := by decide +kernel

theorem wit_FencesAndSubscriptionsAreAnswered_5 :
    let s : State := fenced { marked := [0], reset := true }
    let b : BlockId := B0
    let d : DieId := 0x20
    let f : Fence := { marked := [0], reset := true }
    mfind s.fabric.fences (fenceKey b d) = some f
    ∧ f.reset = true := by decide +kernel

theorem wit_FencesAndSubscriptionsAreAnswered_21 :
    let s : State := tileIs { state := .ready }
    let b : BlockId := B0
    let t : TileIdx := 5
    (s.store.subs.filter fun x => decide (x.1 = b)).length < 64 ∨ (b, t) ∈ s.store.subs
    ∧ (slotOf s t).hdr.state = .ready ∨ (slotOf s t).hdr.state = .held := by decide +kernel

theorem wit_FencesAndSubscriptionsAreAnswered_22 :
    let s : State := tileIs { state := .filling }
    let b : BlockId := B0
    let t : TileIdx := 5
    (s.store.subs.filter fun x => decide (x.1 = b)).length < 64 ∨ (b, t) ∈ s.store.subs
    ∧ (slotOf s t).hdr.state = .free ∨ (slotOf s t).hdr.state = .filling := by decide +kernel

theorem wit_FencesAndSubscriptionsAreAnswered_23 :
    let s : State := { store := { subs := (List.range 64).map fun i => (B0, BitVec.ofNat 17 (i + 6)) } }
    let b : BlockId := B0
    let t : TileIdx := 5
    64 ≤ (s.store.subs.filter fun x => decide (x.1 = b)).length
    ∧ (b, t) ∉ s.store.subs := by decide +kernel

theorem wit_FencesAndSubscriptionsAreAnswered_26 :
    let s : State := { store := { notices := [(B0, 6), (B0, 5), (B0, 5)] } }
    let b : BlockId := B0
    let t : TileIdx := 5
    (b, t) ∈ s.store.notices := by decide +kernel

theorem wit_CommitAndRetractNotices_1 :
    let s : State := setSlot (setSlot (tileIs { state := .ready, owner := 3, epoch := 9, prod := 9, out := true }) 0 fun x => { x with hdr := { state := .held, owner := 3, epoch := 8, persist := true } }) 1 fun x => { x with hdr := { state := .ready, owner := 2 } }
    canonical {} s.store.slots = true := by decide +kernel

theorem wit_QuiesceHandshake_1 :
    let s : State := quiescing B0 { stage := .draining, since := 100 }
    let b : BlockId := B0
    (∀ x, mfind s.fabric.quiesce (blockKey b) = some x → x.stage ≠ .hung)
    ∧ fenceOn s b.die = false := by decide +kernel

theorem wit_QuiesceHandshake_2 :
    let s : State := { quiescing B0 { stage := .draining, since := 100 } with fabric := { fences := [(fenceKey { die := 0x21 } 0x20, {})], quiesce := [(blockKey B0, { stage := .draining, since := 100 })] } }
    let b : BlockId := B0
    (∀ x, mfind s.fabric.quiesce (blockKey b) = some x → x.stage ≠ .hung)
    ∧ fenceOn s b.die = true := by decide +kernel

theorem wit_QuiesceHandshake_3 :
    let s : State := quiescing B0 { stage := .hung }
    let b : BlockId := B0
    let q : Quiesce := { stage := .hung }
    mfind s.fabric.quiesce (blockKey b) = some q
    ∧ q.stage = .hung := by decide +kernel

theorem wit_QuiesceHandshake_4 :
    let s : State := quiescing B0 { stage := .draining, since := 100 }
    let b : BlockId := B0
    let q : Quiesce := { stage := .draining, since := 100 }
    mfind s.fabric.quiesce (blockKey b) = some q
    ∧ q.stage = .draining
    ∧ tilesInFlight s b.die = [] := by decide +kernel

theorem wit_QuiesceHandshake_5 :
    let s : State := setSlot (quiescing B0 { stage := .draining, since := 100 }) 5 fun x => { x with hdr := { state := .filling }, src := 0x20 }
    let b : BlockId := B0
    let q : Quiesce := { stage := .draining, since := 100 }
    mfind s.fabric.quiesce (blockKey b) = some q
    ∧ q.stage = .draining
    ∧ tilesInFlight s b.die ≠ [] := by decide +kernel

theorem wit_QuiesceHandshake_6 :
    let s : State := quiescing B0 { stage := .quiet }
    let b : BlockId := B0
    let q : Quiesce := { stage := .quiet }
    mfind s.fabric.quiesce (blockKey b) = some q
    ∧ q.stage = .quiet := by decide +kernel

theorem wit_QuiesceHandshake_7 :
    let s : State := { quiescing { die := 0x30 } { stage := .draining, since := 100 } with bureau := { recTime := 50100 } }
    let b : BlockId := { die := 0x30 }
    let q : Quiesce := { stage := .draining, since := 100 }
    mfind s.fabric.quiesce (blockKey b) = some q
    ∧ (q.stage = .waiting ∨ q.stage = .draining ∨ q.stage = .quiet)
    ∧ 50000 ≤ since q.since (recNow s)
    ∧ engineOfBlock b = none := by decide +kernel

theorem wit_RatesAndReferenceClock_2 :
    let d : Nat := 1
    let r : BitVec 16 := 1200
    let rs : List (BitVec 16) := [1300, 1200]
    regulated d = true
    ∧ r ∈ rs
    ∧ (∀ x ∈ rs, r.toNat ≤ x.toNat)
    ∧ 1100 < r.toNat := by exact ⟨by decide, by decide, by simp, by decide⟩

theorem wit_RatesAndReferenceClock_3 :
    let d : Nat := 1
    let r : BitVec 16 := 1100
    let rs : List (BitVec 16) := [1100, 1300]
    regulated d = true
    ∧ r ∈ rs
    ∧ (∀ x ∈ rs, r.toNat ≤ x.toNat)
    ∧ r.toNat ≤ 1100 := by exact ⟨by decide, by decide, by simp, by decide⟩

theorem wit_RatesAndReferenceClock_4 :
    let s : State := { fabric := { released := [0x21, 0x20, 0x18] } }
    s.bureau.refclk = true := by decide +kernel

end A2

/-! ## Witnesses: central store -/

namespace A3

/-- A state in which tile 5 of the store has a header and a payload. -/
def tile5 (h : TileHeader) (p : Bytes) : State := setSlot {} 5 fun x => { x with hdr := h, payload := p }
/-- A state in which tile 5 fills from die 0x20 under tag 9, the given flits having arrived. -/
def filling5 (got : List (BitVec 6)) : State := { setSlot {} 5 (fun x => { x with hdr := { state := .filling }, got := got, src := 0x20, tag := 9 }) with fabric := { released := [0x20] } }


theorem wit_StoreReadsAndFrees_1 :
    let s : State := tile5 { state := .ready, owner := 3 } [1, 2]
    let rq : StoreReq := { tile := 5, part := 3, hold := true, epoch := 7 }
    zeroFilling s rq.tile = false := by decide +kernel

theorem wit_StoreReadsAndFrees_2 :
    let s : State := tile5 { state := .ready, owner := 3 } [1, 2]
    let rq : StoreReq := { tile := 5, part := 3, hold := true, epoch := 7 }
    zeroFilling s rq.tile = false := by decide +kernel

theorem wit_StoreReadsAndFrees_3 :
    let s : State := tile5 { state := .ready, owner := 3 } [1, 2]
    let rq : StoreReq := { tile := 5, part := 3, hold := true, epoch := 7 }
    let x := slotOf s rq.tile
    zeroFilling s rq.tile = false
    ∧ x.flips = [] := by decide +kernel

theorem wit_StoreReadsAndFrees_4 :
    let s : State := tile5 { state := .ready, owner := 3 } [1, 2]
    let rq : StoreReq := { tile := 5, part := 3, hold := true, epoch := 7 }
    let x := slotOf s rq.tile
    zeroFilling s rq.tile = false
    ∧ (rq.part = 0x3F ∨ (rq.part = x.hdr.owner ∧ x.hdr.state = .ready)) := by decide +kernel

theorem wit_StoreReadsAndFrees_5 :
    let s : State := tile5 { state := .ready, owner := 3 } [1, 2]
    let rq : StoreReq := { tile := 5, part := 2 }
    let x := slotOf s rq.tile
    zeroFilling s rq.tile = false
    ∧ rq.part ≠ 0x3F
    ∧ (rq.part ≠ x.hdr.owner ∨ x.hdr.state ≠ .ready) := by decide +kernel

theorem wit_StoreWritesTiles_1 :
    let s : State := {}
    let src : DieId := 0x20
    let t : TileIdx := 5
    let h : TileHeader := { format := 0x04, rows := 4, cols := 32, owner := 0x3E }
    zeroFilling s t = false
    ∧ outsideShare s src h t = none
    ∧ shapeOk h.format h.rows.toNat h.cols.toNat = true
    ∧ (slotOf s t).hdr.state = .free := by decide +kernel

theorem wit_StoreWritesTiles_2 :
    let s : State := tile5 { state := .ready } []
    let src : DieId := 0x20
    let t : TileIdx := 5
    let h : TileHeader := { format := 0x04, rows := 4, cols := 32, owner := 0x3E }
    zeroFilling s t = false
    ∧ outsideShare s src h t = none
    ∧ (shapeOk h.format h.rows.toNat h.cols.toNat = false ∨ (slotOf s t).hdr.state ≠ .free) := by decide +kernel

theorem wit_StoreWritesTiles_3 :
    let s : State := { store := { refusing := [(xferKey 0x20 9, 1)] } }
    let src : DieId := 0x20
    let tag : BitVec 16 := 9
    let n : Nat := 1
    mfind s.store.refusing (xferKey src tag) = some n := by decide +kernel

theorem wit_StoreWritesTiles_4 :
    let s : State := filling5 [0, 1]
    let src : DieId := 0x20
    let tag : BitVec 16 := 9
    let t : TileIdx := 5
    let k : BitVec 6 := 63
    let x := slotOf s t
    mfind s.store.refusing (xferKey src tag) = none
    ∧ fillingSlot s src tag = some t
    ∧ (slotOf s t).hdr.state = .filling
    ∧ k ∉ (slotOf s t).got
    ∧ x.got.length < 63 := by decide +kernel

theorem wit_StoreWritesTiles_5 :
    let s : State := let s := filling5 ((List.range 63).map (BitVec.ofNat 6)); { s with store := { s.store with subs := [({ die := 0x20 }, 5), ({ die := 0x21 }, 6)] } }
    let src : DieId := 0x20
    let tag : BitVec 16 := 9
    let t : TileIdx := 5
    let k : BitVec 6 := 63
    let x := slotOf s t
    mfind s.store.refusing (xferKey src tag) = none
    ∧ fillingSlot s src tag = some t
    ∧ (slotOf s t).hdr.state = .filling
    ∧ k ∉ (slotOf s t).got
    ∧ x.got.length = 63 := by decide +kernel

theorem wit_StoreScrubAndZeroFill_2 :
    let s : State := filling5 []
    let t : TileIdx := 5
    zeroFilling s t = false
    ∧ (slotOf s t).hdr.state = .filling := by decide +kernel

theorem wit_StoreScrubAndZeroFill_3 :
    let s : State := tile5 { state := .ready } [4]
    let t : TileIdx := 5
    zeroFilling s t = false
    ∧ (slotOf s t).hdr.state ≠ .filling := by decide +kernel

theorem wit_StoreScrubAndZeroFill_4 :
    let s : State := tile5 { state := .ready } [4]
    let t : TileIdx := 5
    let u : Upset := { word := 1, mask := 4 }
    zeroFilling s t = false
    ∧ (slotOf s t).hdr.state = .ready
    ∧ (slotOf s t).flips = []
    ∧ u.word < 4096
    ∧ secdedRead (slotWord (slotOf s t) u.word) u.mask = (.corrected, slotWord (slotOf s t) u.word)
    ∧ u.mask ≠ 0 := by decide +kernel

end A3

/-! ## Witnesses: tiers -/

namespace B1

/-- An entry of tenant 0 in tier L, its copy at extent 7. -/
def E0 : ExtentEntry := { cls := 1, homeTier := 3, homeLoc := 4, copyTier := 2, copyLoc := 7, valid := true }
/-- A tile of 4 rows of 32 FP32 columns. -/
def T0 : Tile := { hdr := { format := 0x04, rows := 4, cols := 32, crc := 0x1234 }, payload := [1, 2, 3] }
/-- Extent 3 is e; tile 900 of tier L (tile 4 of its extent 7) holds T0. -/
def extL (e : ExtentEntry) : State := putL (withExt {} 3 e) 900 T0 false
/-- A plan of one entry that takes device-range tile 388 (tile 4 of extent 3) to the first slot of the window. -/
def plan0 : StreamPlan := { head := { windowBase := 64, windowTiles := 4, groups := 1 }, entries := [{ src := 388, count := 2, dest := 0, group := 0, half := false, releaser := 0 }] }
/-- A program that streams that plan. -/
def streamer (s : State) : State := setPart s 2 fun q => { q with prog := some { plan := plan0 } }

/-- L extent 12000 lies in the partition pool of both codes. -/
theorem pool_move (s : State) (h : s.tier.windowSize = 0) : moveTo s 2 12000 = true := by
  unfold moveTo regionWorld poolEnd Config.poolBase Config.poolExtents
  rw [h]; split <;> decide

theorem wit_TierReadsAndWrites_1 :
    let s : State := {}
    let rq : TierReq := {}
    let x : Nat := 3
    (translate s rq x = none ∨ windowBarred s rq x = true) := by decide +kernel

theorem wit_TierReadsAndWrites_2 :
    let s : State := extL { E0 with tenant := 6 }
    let rq : TierReq := {}
    let x : Nat := 3
    let e : ExtentEntry := { E0 with tenant := 6 }
    windowBarred s rq x = false
    ∧ translate s rq x = some e
    ∧ tierCheck rq e ≠ .ok := by decide +kernel

theorem wit_TierReadsAndWrites_3 :
    let s : State := { extL E0 with tier := { (extL E0).tier with retraining := [BitVec.ofNat 8 900] } }
    let rq : TierReq := {}
    let x : Nat := 3
    let t : BitVec 7 := 4
    let e : ExtentEntry := E0
    let n := (readPlace e t).2
    windowBarred s rq x = false
    ∧ translate s rq x = some e
    ∧ tierCheck rq e = .ok
    ∧ (readPlace e t).1 = 2
    ∧ (retrains s (readPlace e t) = true ∨ notTaking s (channelBlock n) = true) := by decide +kernel

theorem wit_TierReadsAndWrites_4 :
    let s : State := extL E0
    let rq : TierReq := {}
    let x : Nat := 3
    let t : BitVec 7 := 4
    let e : ExtentEntry := E0
    let n := (readPlace e t).2
    windowBarred s rq x = false
    ∧ translate s rq x = some e
    ∧ tierCheck rq e = .ok
    ∧ (readPlace e t).1 = 2
    ∧ retrains s (readPlace e t) = false
    ∧ notTaking s (channelBlock n) = false
    ∧ isLost s x e t = false := by decide +kernel

theorem wit_TierReadsAndWrites_5 :
    let s : State := extL { E0 with cls := 0 }
    let rq : TierReq := {}
    let x : Nat := 3
    let e : ExtentEntry := { E0 with cls := 0 }
    windowBarred s rq x = false
    ∧ entryOf s x = some e
    ∧ tierCheck rq e = .ok
    ∧ e.cls = 0 := by decide +kernel

theorem wit_TierReadsAndWrites_6 :
    let s : State := extL { E0 with moveBusy := true }
    let rq : TierReq := {}
    let x : Nat := 3
    let t : BitVec 7 := 4
    let e : ExtentEntry := { E0 with moveBusy := true }
    windowBarred s rq x = false
    ∧ entryOf s x = some e
    ∧ tierCheck rq e = .ok
    ∧ e.cls ≠ 0
    ∧ writeWaits s e t = true := by decide +kernel

theorem wit_TierReadsAndWrites_7 :
    let s : State := extL E0
    let rq : TierReq := {}
    let x : Nat := 3
    let t : BitVec 7 := 4
    let e : ExtentEntry := E0
    windowBarred s rq x = false
    ∧ entryOf s x = some e
    ∧ tierCheck rq e = .ok
    ∧ e.cls ≠ 0
    ∧ writeWaits s e t = false
    ∧ (place e t).1 = 2 := by decide +kernel

theorem wit_WaitingWritesAndWriteBack_1 :
    let x : Nat := 3
    let t : BitVec 7 := 4
    let s : State := { extL E0 with tier := { (extL { E0 with moveBusy := true }).tier with waiting := [{ rq := {}, x := 3, t := 4, tile := T0 }] } }
    let i : Nat := 0
    let w : PendWrite := { rq := {}, x := 3, t := 4, tile := T0 }
    let e : ExtentEntry := { E0 with moveBusy := true }
    s.tier.waiting[i]? = some w
    ∧ entryOf s w.x = some e
    ∧ windowBarred s w.rq w.x = false
    ∧ tierCheck w.rq e = .ok
    ∧ e.cls ≠ 0
    ∧ writeWaits s e w.t = true := by decide +kernel

theorem wit_WaitingWritesAndWriteBack_2 :
    let x : Nat := 3
    let t : BitVec 7 := 4
    let s : State := { extL E0 with tier := { (extL E0).tier with waiting := [{ rq := {}, x := 3, t := 4, tile := T0 }] } }
    let i : Nat := 0
    let w : PendWrite := { rq := {}, x := 3, t := 4, tile := T0 }
    let e : ExtentEntry := E0
    s.tier.waiting[i]? = some w
    ∧ entryOf s w.x = some e
    ∧ windowBarred s w.rq w.x = false
    ∧ tierCheck w.rq e = .ok
    ∧ e.cls ≠ 0
    ∧ writeWaits s e w.t = false
    ∧ (place e w.t).1 = 2 := by decide +kernel

theorem wit_WaitingWritesAndWriteBack_3 :
    let s : State := extL { E0 with tilemap := 16 }
    let x : Nat := 3
    let t : BitVec 7 := 4
    let e : ExtentEntry := { E0 with tilemap := 16 }
    let l := lTile s (readPlace e t).2
    let home := writeUnit s (128 * e.homeLoc.toNat + t.toNat) { hdr := storedHeader l.hdr, payload := l.payload } (.writeBack (128 * x + t.toNat))
    entryOf s x = some e
    ∧ e.cls = 1
    ∧ e.tilemap.getLsbD t.toNat = true
    ∧ (readPlace e t).1 = 2
    ∧ retrains s (place e t) = false
    ∧ isLost s x e t = false
    ∧ home.2 = true := by decide +kernel

theorem wit_WaitingWritesAndWriteBack_4 :
    let s : State := { extL { E0 with tilemap := 16 } with flash := { stopped := true } }
    let x : Nat := 3
    let t : BitVec 7 := 4
    let e : ExtentEntry := { E0 with tilemap := 16 }
    let l := lTile s (readPlace e t).2
    let home := writeUnit s (128 * e.homeLoc.toNat + t.toNat) { hdr := storedHeader l.hdr, payload := l.payload } (.writeBack (128 * x + t.toNat))
    entryOf s x = some e
    ∧ e.cls = 1
    ∧ e.tilemap.getLsbD t.toNat = true
    ∧ (readPlace e t).1 = 2
    ∧ retrains s (place e t) = false
    ∧ isLost s x e t = false
    ∧ home.2 = false := by decide +kernel

theorem wit_WaitingWritesAndWriteBack_5 :
    let x : Nat := 3
    let t : BitVec 7 := 4
    let s : State := { extL E0 with tier := { (extL E0).tier with waiting := [{ rq := {}, x := 3, t := 4, tile := T0 }] } }
    let e : ExtentEntry := E0
    entryOf s x = some e
    ∧ e.cls = 1
    ∧ e.tilemap.getLsbD t.toNat = false := by decide +kernel

theorem wit_MigrationMovesExtents_1 :
    let s : State := extL { cls := 0, homeTier := 3, homeLoc := 4, valid := true }
    let x : Nat := 3
    let e : ExtentEntry := { cls := 0, homeTier := 3, homeLoc := 4, valid := true }
    let tier : BitVec 2 := 2
    let loc : BitVec 25 := 12000
    entryOf s x = some e
    ∧ e.cls = 0
    ∧ e.mstate = 0
    ∧ e.newTier = 0
    ∧ copyAllowed e tier = true
    ∧ moveTo s tier loc = true := by exact ⟨by decide, by decide, by decide, by decide, by decide, pool_move _ rfl⟩

theorem wit_MigrationMovesExtents_2 :
    let s : State := extL { cls := 0, homeTier := 3, homeLoc := 4, newTier := 2, newLoc := 8, tilemap := BitVec.allOnes 128, valid := true }
    let x : Nat := 3
    let e : ExtentEntry := { cls := 0, homeTier := 3, homeLoc := 4, newTier := 2, newLoc := 8, tilemap := BitVec.allOnes 128, valid := true }
    entryOf s x = some e
    ∧ e.cls = 0
    ∧ e.mstate = 0
    ∧ e.newTier ≠ 0
    ∧ e.tilemap = BitVec.allOnes 128 := by decide +kernel

theorem wit_MigrationMovesExtents_3 :
    let tier : BitVec 2 := 2
    let loc : BitVec 25 := 12000
    let s : State := { extL E0 with tier := { (extL { cls := 0, homeTier := 3, homeLoc := 4, mstate := 2, valid := true }).tier with drains := [(3, { tier := 2, loc := 7, users := [] })] } }
    let x : Nat := 3
    let e : ExtentEntry := { cls := 0, homeTier := 3, homeLoc := 4, mstate := 2, valid := true }
    let d : Drain := { tier := 2, loc := 7, users := [] }
    entryOf s x = some e
    ∧ mfind s.tier.drains x = some d
    ∧ d.users = [] := by decide +kernel

theorem wit_MigrationMovesExtents_4 :
    let s : State := extL E0
    let x : Nat := 3
    let e : ExtentEntry := E0
    let tier : BitVec 2 := 2
    let loc : BitVec 25 := 12000
    entryOf s x = some e
    ∧ e.cls ≠ 0
    ∧ e.mstate = 0
    ∧ copyAllowed e tier = true
    ∧ moveTo s tier loc = true := by exact ⟨by decide, by decide, by decide, by decide, pool_move _ rfl⟩

theorem wit_MigrationMovesExtents_5 :
    let s : State := extL { E0 with mstate := 1, inflight := 1, newTier := 2, newLoc := 8 }
    let x : Nat := 3
    let e : ExtentEntry := { E0 with mstate := 1, inflight := 1, newTier := 2, newLoc := 8 }
    entryOf s x = some e
    ∧ e.cls ≠ 0
    ∧ e.mstate = 1
    ∧ e.inflight ≠ 0 := by decide +kernel

theorem wit_MigrationMovesExtents_6 :
    let s : State := extL { E0 with mstate := 1, movePtr := 4, newTier := 2, newLoc := 8 }
    let x : Nat := 3
    let e : ExtentEntry := { E0 with mstate := 1, movePtr := 4, newTier := 2, newLoc := 8 }
    let tier : BitVec 2 := 2
    entryOf s x = some e
    ∧ e.cls ≠ 0
    ∧ e.mstate = 1
    ∧ e.inflight = 0
    ∧ e.copyTier = 2
    ∧ e.newTier = 2
    ∧ mfind s.tier.refetched (128 * x + e.movePtr.toNat) = none := by decide +kernel

theorem wit_Lpddr6AndStreams_2 :
    let s : State := streamer (extL E0)
    s.tier.waiting = []
    ∧ s.tier.waitReads = [] := by decide +kernel

theorem wit_Lpddr6AndStreams_3 :
    let mts : BitVec 16 := 10667
    (mts = 14400 ∨ mts = 10667) := by decide +kernel

theorem wit_Lpddr6AndStreams_4 :
    let s : State := setSlot (streamer (extL E0)) 64 fun y => { y with hdr := { state := .held } }
    let p : PartId := 2
    let plan : StreamPlan := plan0
    let g : PlanEntry := { src := 388, count := 2, dest := 0, group := 0, half := false, releaser := 0 }
    let i : Nat := 0
    let dest := streamDest plan g i (streamOf s p).pass
    streamAt s p = some (plan, g, i)
    ∧ (streamOf s p).polling = false
    ∧ (slotOf s dest).hdr.state ≠ .free := by decide +kernel

theorem wit_Lpddr6AndStreams_5 :
    let s : State := streamer (extL E0)
    let p : PartId := 2
    let plan : StreamPlan := plan0
    let g : PlanEntry := { src := 388, count := 2, dest := 0, group := 0, half := false, releaser := 0 }
    let i : Nat := 0
    let e : ExtentEntry := E0
    let dest := streamDest plan g i (streamOf s p).pass
    let n := g.src.toNat + i
    streamAt s p = some (plan, g, i)
    ∧ (streamOf s p).polling = false
    ∧ (slotOf s dest).hdr.state = .free
    ∧ entryOf s (devExtent n) = some e
    ∧ (readPlace e (devPos n)).1 = 2
    ∧ tierCheck { part := p.setWidth 6, die := channelDie n } e = .ok
    ∧ isLost s (devExtent n) e (devPos n) = false
    ∧ retrains s (readPlace e (devPos n)) = false
    ∧ shapeOk (lTile s (readPlace e (devPos n)).2).hdr.format (lTile s (readPlace e (devPos n)).2).hdr.rows.toNat (lTile s (readPlace e (devPos n)).2).hdr.cols.toNat = true := by decide +kernel

theorem wit_Lpddr6AndStreams_6 :
    let s : State := setStream (streamer (extL E0)) 2 fun y => { y with polling := true }
    let p : PartId := 2
    let plan : StreamPlan := plan0
    let g : PlanEntry := { src := 388, count := 2, dest := 0, group := 0, half := false, releaser := 0 }
    let i : Nat := 0
    streamAt s p = some (plan, g, i)
    ∧ (streamOf s p).polling = true
    ∧ (slotOf s (streamDest plan g i (streamOf s p).pass)).hdr.state = .free := by decide +kernel

theorem wit_Lpddr6AndStreams_7 :
    let s : State := { extL E0 with tier := { (extL E0).tier with refetched := [(388, T0)] } }
    let x : Nat := 3
    let e : ExtentEntry := E0
    let t : BitVec 7 := 4
    let tl : Tile := T0
    entryOf s x = some e
    ∧ mfind s.tier.refetched (128 * x + t.toNat) = some tl := by decide +kernel

theorem wit_Lpddr6AndStreams_8 :
    let s : State := { extL E0 with tier := { (extL E0).tier with refetched := [(388, T0)] } }
    let x : Nat := 3
    let e : ExtentEntry := E0
    let t : BitVec 7 := 4
    let tl : Tile := T0
    entryOf s x = some e
    ∧ mfind s.tier.refetched (128 * x + t.toNat) = some tl
    ∧ (readPlace e t).1 = 2
    ∧ e.mstate = 0
    ∧ e.newTier = 0
    ∧ freeL s ≠ []
    ∧ copyAllowed e 2 = true := by refine ⟨by decide +kernel, by decide +kernel, by decide, by decide, by decide, ?_, by decide⟩; exact List.ne_nil_of_mem (List.mem_filter.2 ⟨List.mem_map.2 ⟨0, List.mem_range.2 (by unfold poolEnd Config.poolBase Config.poolExtents; split <;> decide +kernel), rfl⟩, by unfold Config.poolBase Config.poolExtents; split <;> decide +kernel⟩)

end B1

/-! ## Witnesses: matrix and vector engines -/

namespace C1

/-- The whole engine as the share of partition 2. -/
def sh0 : Share := { part := 2, frames := 56, vrs := 40, rows := 16 }
/-- A context of partition 2 runs on engine 3. -/
def running3 (f : EngineState → EngineState) : State := setEng {} 3 fun x => f { x with ctx0 := some sh0 }
/-- A product of E4M3 operands: weights in frames 0 to 2, activations in frame 4. -/
def mm0 : MatmulOp := { engine := 3, ctx := false, tile := 5, init := .zero, wFmt := 0x04, aFmt := 0x04, wAddr := 0, aAddr := 65536, rows := 1, rowBase := 2, anchor := -20 }
/-- A convolution of one position over those operands. -/
def conv0 : ConvOp := { mm := mm0, pos0 := 0, height := 1, width := 4, chans := 64, chunk0 := 0, chunks := 1, kH := 1, kW := 3, sh := 1, sw := 1, dh := 1, dw := 1, ph := 0, pw := 1, outW := 4, oneD := true }
/-- A conversion read of row 2 of that tile. -/
def read0 : ConvRead := { engine := 3, ctx := false, row := 2, part := 2, tile := 5, fmt := 0x01, outAnchor := 0, dst := 7, release := true }
/-- A vector operation on rows of 3 elements. -/
def vec0 : VecOp := { engine := 3, ctx := false, part := 2, kind := .fma, dst := 7, a := 0, b := 1, c := 2, n := 3 }
def ref0 : VecRef := { engine := 3, ctx := false, part := 2, dst := 7, a := 0, n := 32 }
/-- A table of 4 positions at frame 6. -/
def rot0 : RotTable := { fmt := 0x01, addr := 98304, positions := 4, pos := 1 }
/-- The tiles of the operands are in their frames. -/
def operands : Map FrameTile := [(0, { tile := 100 }), (1, { tile := 101 }), (4, { tile := 104 })]
/-- Registers 0 to 2 hold small numbers. -/
def withRegs : State := running3 fun x => { x with vregs := [(0, [0x3F800000, 0x40000000, 0xBF800000]), (1, [0x40400000]), (2, [0x3F000000, 0x3F000000])] }

/-- A cell of row 2 of tile 5 has overflowed, before and after the tile's anchor was raised. -/
def overOnce : State := running3 fun x => { x with acc := [(1025, { ovf := true, home := some (5, 0) })] }
def overAgain : State := running3 fun x => { x with acc := [(1025, { ovf := true, home := some (5, 0) })], raised := [(5, 12)] }
theorem overAgain_tiles : overflowTiles (engOf overAgain 3) 2 = [5] := by decide +kernel


theorem wit_ProductsFillTheirCells_1 :
    let s : State := running3 fun x => { x with origin := operands, frames := [(0, (List.range 200).map (BitVec.ofNat 8)), (4, (List.range 200).map (BitVec.ofNat 8))] }
    let m : MatmulOp := mm0
    let sh : Share := sh0
    let x := engOf s m.engine
    let n := opLanes m
    let op : TileOp := .deep m
    contextShare x m.ctx = some sh
    ∧ m.chk = {}
    ∧ 0 < n
    ∧ op.outside sh = none
    ∧ op.ready x sh = true := by decide +kernel

theorem wit_ProductsFillTheirCells_2 :
    let s : State := running3 fun x => { x with origin := operands, frames := [(0, (List.range 200).map (BitVec.ofNat 8)), (4, (List.range 200).map (BitVec.ofNat 8))] }
    let m : MatmulOp := mm0
    let sh : Share := sh0
    let x := engOf s m.engine
    let n := opLanes m
    let op : TileOp := .wide m
    contextShare x m.ctx = some sh
    ∧ m.chk = {}
    ∧ 0 < n
    ∧ op.outside sh = none
    ∧ op.ready x sh = true := by decide +kernel

theorem wit_ProductsFillTheirCells_3 :
    let s : State := running3 fun x => { x with origin := operands, frames := [(0, (List.range 200).map (BitVec.ofNat 8)), (4, (List.range 200).map (BitVec.ofNat 8))] }
    let m : MatmulOp := { mm0 with aAddr := 1600000 }
    let sh : Share := sh0
    let x := engOf s m.engine
    let n := opLanes m
    let z : Nat := 1600000
    contextShare x m.ctx = some sh
    ∧ m.chk = {}
    ∧ 0 < n
    ∧ (TileOp.deep m).outside sh = some z := by decide +kernel

theorem wit_ProductsFillTheirCells_4 :
    let s : State := running3 fun x => { x with origin := operands, frames := [(0, (List.range 200).map (BitVec.ofNat 8)), (4, (List.range 200).map (BitVec.ofNat 8))] }
    let m : MatmulOp := { mm0 with aAddr := 1600000 }
    let sh : Share := sh0
    let x := engOf s m.engine
    let n := opLanes m
    let z : Nat := 1600000
    contextShare x m.ctx = some sh
    ∧ m.chk = {}
    ∧ 0 < n
    ∧ (TileOp.wide m).outside sh = some z := by decide +kernel

theorem wit_ProductsFillTheirCells_5 :
    let s : State := running3 id
    let m : MatmulOp := mm0
    let sh : Share := sh0
    let x := engOf s m.engine
    let n := opLanes m
    contextShare x m.ctx = some sh
    ∧ m.chk = {}
    ∧ 0 < n
    ∧ (TileOp.deep m).outside sh = none
    ∧ (TileOp.deep m).ready x sh = false := by decide +kernel

theorem wit_ProductsFillTheirCells_6 :
    let s : State := running3 id
    let m : MatmulOp := mm0
    let sh : Share := sh0
    let x := engOf s m.engine
    let n := opLanes m
    contextShare x m.ctx = some sh
    ∧ m.chk = {}
    ∧ 0 < n
    ∧ (TileOp.wide m).outside sh = none
    ∧ (TileOp.wide m).ready x sh = false := by decide +kernel

theorem wit_ProductsFillTheirCells_7 :
    let m : MatmulOp := { mm0 with wFmt := 0x01 }
    opLanes m = 0 := by decide +kernel

theorem wit_ProductsFillTheirCells_8 :
    let s : State := running3 fun x => { x with origin := operands, frames := [(0, (List.range 200).map (BitVec.ofNat 8)), (4, (List.range 200).map (BitVec.ofNat 8))] }
    let c : ConvOp := conv0
    let sh : Share := sh0
    let x := engOf s c.mm.engine
    let op : TileOp := .conv c
    contextShare x c.mm.ctx = some sh
    ∧ c.mm.chk = {}
    ∧ 0 < opLanes c.mm
    ∧ convOk c = true
    ∧ op.outside sh = none
    ∧ op.ready x sh = true := by decide +kernel

theorem wit_ProductsFillTheirCells_9 :
    let s : State := running3 fun x => { x with origin := operands, frames := [(0, (List.range 200).map (BitVec.ofNat 8)), (4, (List.range 200).map (BitVec.ofNat 8))] }
    let c : ConvOp := { conv0 with mm := { mm0 with aAddr := 1600000 } }
    let sh : Share := sh0
    let x := engOf s c.mm.engine
    let op : TileOp := .conv c
    let z : Nat := 1600000
    contextShare x c.mm.ctx = some sh
    ∧ c.mm.chk = {}
    ∧ 0 < opLanes c.mm
    ∧ convOk c = true
    ∧ op.outside sh = some z := by decide +kernel

theorem wit_ProductsFillTheirCells_10 :
    let s : State := running3 id
    let c : ConvOp := conv0
    let sh : Share := sh0
    let x := engOf s c.mm.engine
    let op : TileOp := .conv c
    contextShare x c.mm.ctx = some sh
    ∧ c.mm.chk = {}
    ∧ 0 < opLanes c.mm
    ∧ convOk c = true
    ∧ op.outside sh = none
    ∧ op.ready x sh = false := by decide +kernel

theorem wit_ProductsFillTheirCells_11 :
    let c : ConvOp := { conv0 with chunks := 4 }
    0 < opLanes c.mm
    ∧ convOk c = false := by decide +kernel

theorem wit_ConversionReadsAndActivity_1 :
    let s : State := running3 fun x => { x with acc := [(1024, { n := 3, home := some (5, 0) })], live := [2], level := 4, levelTarget := 2 }
    let c : ConvRead := read0
    let sh : Share := sh0
    let x := engOf s c.engine
    let ovf := overflowTiles x c.row
    contextShare x c.ctx = some sh
    ∧ inRows sh c.row 1 = true
    ∧ c.chk = {}
    ∧ c.fmt ≠ 0x10
    ∧ inVregs sh c.dst = true
    ∧ ovf = [] := by decide +kernel

theorem wit_ConversionReadsAndActivity_2 :
    let s : State := overOnce
    let c : ConvRead := read0
    let sh : Share := sh0
    let x := engOf s c.engine
    let ovf := overflowTiles x c.row
    contextShare x c.ctx = some sh
    ∧ inRows sh c.row 1 = true
    ∧ c.chk = {}
    ∧ c.fmt ≠ 0x10
    ∧ inVregs sh c.dst = true
    ∧ (∃ k ∈ ovf, mfind x.raised k.toNat = none) := by exact ⟨by decide +kernel, by decide, by decide, by decide, by decide, 5, by decide +kernel, by decide +kernel⟩

theorem wit_ConversionReadsAndActivity_3 :
    let s : State := overAgain
    let c : ConvRead := read0
    let sh : Share := sh0
    let x := engOf s c.engine
    let ovf := overflowTiles x c.row
    contextShare x c.ctx = some sh
    ∧ inRows sh c.row 1 = true
    ∧ c.chk = {}
    ∧ c.fmt ≠ 0x10
    ∧ inVregs sh c.dst = true
    ∧ ovf ≠ []
    ∧ (∀ k ∈ ovf, mfind x.raised k.toNat ≠ none) := by intro s c sh x ovf; have e : ovf = [5] := overAgain_tiles; rw [e]; exact ⟨by decide +kernel, by decide, by decide, by decide, by decide, by decide, by intro k hk; rw [List.mem_singleton] at hk; subst hk; decide +kernel⟩

theorem wit_ConversionReadsAndActivity_4 :
    let s : State := running3 fun x => { x with acc := [(1024, { n := 3, home := some (5, 0) })], live := [2], level := 4, levelTarget := 2 }
    let c : ConvRead := { read0 with fmt := 0x10, dst := 8192 }
    let sh : Share := sh0
    let x := engOf s c.engine
    contextShare x c.ctx = some sh
    ∧ inRows sh c.row 1 = true
    ∧ c.chk = {}
    ∧ c.fmt = 0x10
    ∧ inFrames sh c.dst 8192 = true := by decide +kernel

theorem wit_ConversionReadsAndActivity_5 :
    let s : State := running3 fun x => { x with retrying := [4, 5] }
    let c : ConvRead := read0
    let sh : Share := sh0
    let x := engOf s c.engine
    contextShare x c.ctx = some sh
    ∧ inRows sh c.row 1 = true
    ∧ c.chk = {}
    ∧ c.tile.toNat ∈ x.retrying
    ∧ operandsGone s x c.tile = false := by decide +kernel

theorem wit_ConversionReadsAndActivity_6 :
    let s : State := running3 fun x => { x with retrying := [4, 5], ops := [(5, [{ op := .deep mm0, used := [(0, { tile := 100 })] }])] }
    let c : ConvRead := read0
    let sh : Share := sh0
    let x := engOf s c.engine
    contextShare x c.ctx = some sh
    ∧ inRows sh c.row 1 = true
    ∧ c.chk = {}
    ∧ c.tile.toNat ∈ x.retrying
    ∧ operandsGone s x c.tile = true := by decide +kernel

theorem wit_VectorOperationsWriteTheirRow_1 :
    let s : State := withRegs
    let v : VecOp := vec0
    let sh : Share := sh0
    let f : BitVec 8 := 0x09
    let g : Nat := 1
    let h : TileHeader := { format := 0x04, rows := 4, cols := 32, owner := 0x3E }
    let x := engOf s v.engine
    contextShare x v.ctx = some sh
    ∧ v.touch.outside sh = none
    ∧ v.chk = {}
    ∧ (∀ f a l, v.kind ≠ .store f a l)
    ∧ (∀ g t h, v.kind ≠ .egress g t h) := by exact ⟨by decide, by decide, by decide, (by intro f a l h; cases h), (by intro g t h e; cases e)⟩

theorem wit_VectorOperationsWriteTheirRow_2 :
    let s : State := withRegs
    let v : VecOp := { vec0 with kind := .store 0x01 0 32768 }
    let sh : Share := sh0
    let f : BitVec 8 := 0x01
    let addr : Nat := 32768
    let an : Int := 0
    let x := engOf s v.engine
    contextShare x v.ctx = some sh
    ∧ v.touch.outside sh = none
    ∧ v.chk = {}
    ∧ v.kind = .store f an addr := by decide +kernel

theorem wit_VectorOperationsWriteTheirRow_3 :
    let s : State := withRegs
    let v : VecOp := { vec0 with kind := .egress 3 9 { format := 0x04, rows := 4, cols := 32, owner := 0x3E } }
    let sh : Share := sh0
    let frame : Nat := 3
    let ti : TileIdx := 9
    let h : TileHeader := { format := 0x04, rows := 4, cols := 32, owner := 0x3E }
    let x := engOf s v.engine
    contextShare x v.ctx = some sh
    ∧ v.touch.outside sh = none
    ∧ v.chk = {}
    ∧ v.kind = .egress frame ti h := by decide +kernel

theorem wit_VectorOperationsWriteTheirRow_4 :
    let s : State := withRegs
    let v : VecOp := { vec0 with kind := .egress 3 9 { format := 0x04, rows := 4, cols := 32, owner := 0x3E } }
    let sh : Share := sh0
    let frame : Nat := 3
    let ti : TileIdx := 9
    let h : TileHeader := { format := 0x04, rows := 4, cols := 32, owner := 0x3E }
    let x := engOf s v.engine
    contextShare x v.ctx = some sh
    ∧ v.touch.outside sh = none
    ∧ v.chk = {}
    ∧ v.kind = .egress frame ti h
    ∧ (h.owner = 0x3E ∨ inShare (partOf s sh.part) ti = true)
    ∧ shapeOk h.format h.rows.toNat h.cols.toNat = true
    ∧ (slotOf s ti).hdr.state = .free := by decide +kernel

theorem wit_VectorOperationsWriteTheirRow_5 :
    let s : State := withRegs
    let v : VecOp := { vec0 with chk := { fault := some (0x09, 5) } }
    let sh : Share := sh0
    let g : Nat := 1
    let x0 : BitVec 8 × BitVec 16 := (0x09, 5)
    let h : TileHeader := { format := 0x04, rows := 4, cols := 32, owner := 0x3E }
    let x := engOf s v.engine
    contextShare x v.ctx = some sh
    ∧ v.touch.outside sh = none
    ∧ v.chk = { fault := some x0 }
    ∧ (∀ g t h, v.kind ≠ .egress g t h) := by exact ⟨by decide, by decide, by decide, (by intro g t h e; cases e)⟩

theorem wit_VectorOperationsWriteTheirRow_6 :
    let s : State := withRegs
    let v : VecOp := { vec0 with dst := 40 }
    let sh : Share := sh0
    let x := engOf s v.engine
    let y := 40
    contextShare x v.ctx = some sh
    ∧ v.touch.outside sh = some y := by decide +kernel

theorem wit_VectorOperationsWriteTheirRow_7 :
    let s : State := withRegs
    let w : VecRef := ref0
    let sh : Share := sh0
    let x := engOf s w.engine
    contextShare x w.ctx = some sh
    ∧ w.chk = {}
    ∧ regsIn sh w.a (rowRegs w.n) = true
    ∧ w.rows = 0
    ∧ regsIn sh w.dst (rowRegs 1) = true := by decide +kernel

theorem wit_VectorOperationsWriteTheirRow_8 :
    let s : State := withRegs
    let w : VecRef := { ref0 with rows := 2 }
    let sh : Share := sh0
    let x := engOf s w.engine
    contextShare x w.ctx = some sh
    ∧ w.chk = {}
    ∧ regsIn sh w.a (rowRegs w.n) = true
    ∧ 0 < w.rows
    ∧ (∀ i < w.rows, regsIn sh (w.a + i * rowRegs w.n) (rowRegs w.n) = true)
    ∧ regsIn sh w.dst (rowRegs w.n) = true := by decide +kernel

theorem wit_VectorOperationsWriteTheirRow_9 :
    let s : State := withRegs
    let w : VecRef := ref0
    let sh : Share := sh0
    let addr : Nat := 32768
    let cs : RotTable := rot0
    let sn : RotTable := rot0
    let x := engOf s w.engine
    let inTable := fun (t : RotTable) => decide (t.pos < t.positions)
    && inFrames sh (elemAddr t.fmt t.addr (t.pos * (w.n / 2))) ((w.n / 2 * elemSize t.fmt + 7) / 8)
    contextShare x w.ctx = some sh
    ∧ w.chk = {}
    ∧ regsIn sh w.a (rowRegs w.n) = true
    ∧ regsIn sh w.dst (rowRegs w.n) = true
    ∧ w.n % 2 = 0
    ∧ inTable cs = true
    ∧ inTable sn = true := by decide +kernel

theorem wit_VectorOperationsWriteTheirRow_10 :
    let s : State := withRegs
    let w : VecRef := ref0
    let sh : Share := sh0
    let cs : RotTable := { rot0 with pos := 4 }
    let x := engOf s w.engine
    contextShare x w.ctx = some sh
    ∧ w.chk = {}
    ∧ regsIn sh w.a (rowRegs w.n) = true
    ∧ cs.positions ≤ cs.pos := by decide +kernel

theorem wit_VectorOperationsWriteTheirRow_11 :
    let s : State := withRegs
    let w : VecRef := ref0
    let sh : Share := sh0
    let g : Nat := 1
    let x := engOf s w.engine
    contextShare x w.ctx = some sh
    ∧ w.chk = {}
    ∧ regsIn sh w.a (rowRegs w.n) = true
    ∧ regsIn sh w.dst (rowRegs w.n) = true
    ∧ regsIn sh g (rowRegs w.n) = true := by decide +kernel

theorem wit_VectorOperationsWriteTheirRow_12 :
    let s : State := withRegs
    let w : VecRef := ref0
    let sh : Share := sh0
    let g : Nat := 1
    let b : Nat := 2
    let x := engOf s w.engine
    contextShare x w.ctx = some sh
    ∧ w.chk = {}
    ∧ regsIn sh w.a (rowRegs w.n) = true
    ∧ regsIn sh w.dst (rowRegs w.n) = true
    ∧ regsIn sh g (rowRegs w.n) = true
    ∧ regsIn sh b (rowRegs w.n) = true := by decide +kernel

theorem wit_VectorOperationsWriteTheirRow_13 :
    let s : State := withRegs
    let w : VecRef := ref0
    let sh : Share := sh0
    let f : BitVec 8 := 0x09
    let d : Nat := 16384
    let x := engOf s w.engine
    let n := (w.n + 31) / 32
    contextShare x w.ctx = some sh
    ∧ w.chk = {}
    ∧ regsIn sh w.a (rowRegs w.n) = true
    ∧ inFrames sh w.dst ((w.n * elemSize f + 7) / 8) = true
    ∧ inFrames sh d n = true := by decide +kernel

end C1

/-! ## Witnesses: selection -/

namespace D1

/-- Parameters that keep the best two. -/
def sel2 : SelParams := { k := 2, ascending := false, mass := false, sumAnchor := 0, ref := 0, source := 1, persist := true }
/-- The whole engine as the share of partition 2, which runs on engine 3; register 0 holds a NaN, a tie, and the best last. -/
def sh0 : Share := { part := 2, frames := 56, vrs := 40, rows := 16 }
def selRun : State := setEng {} 3 fun x => { x with ctx0 := some sh0, vregs := [(0, [0x7FC00000, 0x3F800000, 0x3F800000, 0x40000000])] }
/-- A tile with its own CRC, and the ready line that names it. -/
def T1 : Tile := { hdr := { format := 0x04, rows := 4, cols := 32 }, payload := [1, 2, 3] }
def line1 : ReadyLine := { seq := 3, crc := T1.sealed.hdr.crc }
/-- Merge 4 knows a line of source 1. -/
def knows (f : MergeState → MergeState) : State := setMerge {} 4 fun x => f { x with lines := [(1, { seq := 2 })] }


theorem wit_SelectionsKeepTheBest_1 :
    let s : State := { selRun with engines := { selRun.engines with selOut := [(5, { entries := [(0, 7, 0x40000000), (1, 8, 0x3F800000)] }), (6, { entries := [(0, 8, 0x3F800000), (1, 9, 0x3F000000)] })] } }
    let e : Engine := 3
    let p : SelParams := { sel2 with k := 1025 }
    let inp : SelInput := .regs 0 4
    let input := selEntries s e p inp
    selOk p input.length = false := by decide +kernel

theorem wit_SelectionsKeepTheBest_2 :
    let s : State := { selRun with engines := { selRun.engines with selOut := [(5, { entries := [(0, 7, 0x40000000), (1, 8, 0x3F800000)] }), (6, { entries := [(0, 8, 0x3F800000), (1, 9, 0x3F000000)] })] } }
    let e : Engine := 3
    let p : SelParams := sel2
    let inp : SelInput := .regs 40 4
    let sh : Share := sh0
    let input := selEntries s e p inp
    let y := 40
    contextShare (engOf s e) (engOf s e).running = some sh
    ∧ selOk p input.length = true
    ∧ inp.touch.outside sh = some y := by decide +kernel

theorem wit_SelectionsKeepTheBest_3 :
    let s : State := { selRun with engines := { selRun.engines with selOut := [(5, { entries := [(0, 7, 0x40000000), (1, 8, 0x3F800000)] }), (6, { entries := [(0, 8, 0x3F800000), (1, 9, 0x3F000000)] })] } }
    let e : Engine := 3
    let p : SelParams := sel2
    let inp : SelInput := .regs 0 4
    let out : TileIdx := 9
    let sh : Share := sh0
    let input := selEntries s e p inp
    contextShare (engOf s e) (engOf s e).running = some sh
    ∧ inp.touch.outside sh = none
    ∧ p.chk = {}
    ∧ selOk p input.length = true
    ∧ (p.persist = true ∨ inShare (partOf s sh.part) out = true)
    ∧ (slotOf s out).hdr.state = .free := by decide +kernel

theorem wit_SelectionsKeepTheBest_4 :
    let s : State := { selRun with engines := { selRun.engines with selOut := [(5, { entries := [(0, 7, 0x40000000), (1, 8, 0x3F800000)] }), (6, { entries := [(0, 8, 0x3F800000), (1, 9, 0x3F000000)] })] } }
    let e : Engine := 3
    let p : SelParams := sel2
    let out : TileIdx := 9
    let sh : Share := sh0
    contextShare (engOf s e) (engOf s e).running = some sh
    ∧ p.chk = {}
    ∧ selOk p 0 = true
    ∧ (p.persist = true ∨ inShare (partOf s sh.part) out = true)
    ∧ (slotOf s out).hdr.state = .free := by decide +kernel

theorem wit_SelectionsKeepTheBest_5 :
    let p : SelParams := { sel2 with k := 1025 }
    selOk p 0 = false := by decide +kernel

theorem wit_MergeCollectiveFollowsReadyLines_1 :
    let x : MergeSet := { slots := [(1, 5), (2, 6)] }
    let s : State := setSlot (setSlot {} 5 fun x => { x with hdr := { state := .ready } }) 6 fun x => { x with hdr := { state := .held } }
    let m : Nat := 4
    (mergeOf s m).withdrawn = []
    ∧ (∀ y ∈ x.slots, readable s y.2 = true) := by decide +kernel

theorem wit_MergeCollectiveFollowsReadyLines_2 :
    let x : MergeSet := { slots := [(1, 5), (2, 6)] }
    let s : State := setSlot {} 5 fun x => { x with hdr := { state := .ready } }
    let m : Nat := 4
    (mergeOf s m).withdrawn = []
    ∧ (∃ y ∈ x.slots, readable s y.2 = false)
    ∧ (x.budgetOf = none ∨ (∃ k, x.budgetOf = some k ∧ budgetPassed s k = false)) := by decide +kernel

theorem wit_MergeCollectiveFollowsReadyLines_3 :
    let x : MergeSet := { slots := [(1, 5), (2, 6)], budgetOf := some 0 }
    let s : State := setReq (setSlot {} 5 fun x => { x with hdr := { state := .ready } }) 0 { fn := 0, qp := 0, tag := 0, op := .turn, phase := .scan, block := { readBudget := 0 }, ret := { scanAt := some 0 } }
    let m : Nat := 4
    let h : Nat := 0
    (mergeOf s m).withdrawn = []
    ∧ (∃ y ∈ x.slots, readable s y.2 = false)
    ∧ x.budgetOf = some h
    ∧ budgetPassed s h = true := by decide +kernel

theorem wit_MergeCollectiveFollowsReadyLines_4 :
    let s : State := setSlot (setSlot {} 5 fun x => { x with hdr := { state := .ready } }) 6 fun x => { x with hdr := { state := .held } }
    let tile : Tile := T1.sealed
    let part : MergePart := { engine := 3, tile := 5, source := 1, provisional := false }
    readable s part.tile = true := by decide +kernel

theorem wit_MergeCollectiveFollowsReadyLines_5 :
    let s : State := { setSlot {} 5 (fun x => { x with hdr := { state := .ready, crc := 7 } }) with engines := { slotLines := [(6, 5)] } }
    let slot : Nat := 6
    let tile : Tile := T1.sealed
    let part : MergePart := { engine := 3, tile := 5, source := 1, provisional := false }
    mfind s.engines.slotLines slot = some part.tile := by decide +kernel

theorem wit_MergeCollectiveFollowsReadyLines_6 :
    let s : State := setSlot {} 5 fun x => { x with hdr := { state := .ready, crc := 7 } }
    let slot : Nat := 6
    let tile : Tile := T1.sealed
    let part : MergePart := { engine := 3, tile := 5, source := 1, provisional := false }
    mfind s.engines.slotLines slot ≠ some part.tile
    ∧ (mget {} s.engines.published slot).crc ≠ (slotOf s part.tile).hdr.crc := by decide +kernel

theorem wit_MergeCollectiveFollowsReadyLines_7 :
    let s : State := knows id
    let m : Nat := 4
    let src : Nat := 1
    let old : ReadyLine := { seq := 2 }
    mfind (mergeOf s m).lines src = some old := by decide +kernel

theorem wit_MergeCollectiveFollowsReadyLines_8 :
    let s : State := {}
    let m : Nat := 4
    let src : Nat := 1
    mfind (mergeOf s m).lines src = none
    ∧ pinnedLines s < 1024 := by decide +kernel

theorem wit_MergeCollectiveFollowsReadyLines_9 :
    let s : State := knows fun x => { x with invalid := [1] }
    let m : Nat := 4
    let src : Nat := 1
    let l : ReadyLine := { seq := 2 }
    let old : ReadyLine := { seq := 2 }
    mfind (mergeOf s m).lines src = some old
    ∧ src ∈ (mergeOf s m).invalid
    ∧ l.seq.toNat ≤ old.seq.toNat := by decide +kernel

theorem wit_MergeCollectiveFollowsReadyLines_10 :
    let s : State := knows fun x => { x with invalid := [1] }
    let m : Nat := 4
    let src : Nat := 1
    let n : TileIdx := 9
    let l : ReadyLine := line1
    let old : ReadyLine := { seq := 2 }
    let tile : Tile := T1.sealed
    mfind (mergeOf s m).lines src = some old
    ∧ src ∈ (mergeOf s m).invalid
    ∧ old.seq.toNat < l.seq.toNat
    ∧ tile.crcOk = true
    ∧ tile.hdr.crc = l.crc
    ∧ l.provisional = false
    ∧ src ∉ (mergeOf s m).arrived
    ∧ (slotOf s n).hdr.state = .free
    ∧ shapeOk tile.hdr.format tile.hdr.rows.toNat tile.hdr.cols.toNat = true := by exact ⟨by decide, by decide, by decide, sealed_ok T1, rfl, rfl, by decide, by decide, by decide⟩

theorem wit_MergeCollectiveFollowsReadyLines_11 :
    let s : State := knows fun x => { x with invalid := [1] }
    let m : Nat := 4
    let src : Nat := 1
    let l : ReadyLine := { seq := 3, crc := 1 }
    let old : ReadyLine := { seq := 2 }
    let tile : Tile := { hdr := { crc := 2 } }
    mfind (mergeOf s m).lines src = some old
    ∧ src ∈ (mergeOf s m).invalid
    ∧ old.seq.toNat < l.seq.toNat
    ∧ (tile.crcOk = false ∨ tile.hdr.crc ≠ l.crc)
    ∧ src ∉ (mergeOf s m).reread := by exact ⟨by decide, by decide, by decide, .inr (by decide), by decide⟩

theorem wit_MergeCollectiveFollowsReadyLines_12 :
    let s : State := knows fun x => { x with invalid := [1], reread := [1] }
    let m : Nat := 4
    let src : Nat := 1
    let l : ReadyLine := { seq := 3, crc := 1 }
    let old : ReadyLine := { seq := 2 }
    let tile : Tile := { hdr := { crc := 2 } }
    mfind (mergeOf s m).lines src = some old
    ∧ src ∈ (mergeOf s m).invalid
    ∧ old.seq.toNat < l.seq.toNat
    ∧ (tile.crcOk = false ∨ tile.hdr.crc ≠ l.crc)
    ∧ src ∈ (mergeOf s m).reread := by exact ⟨by decide, by decide, by decide, .inr (by decide), by decide⟩

end D1

/-! ## Witnesses: retrieval -/

namespace D2

/-- An index with its vectors in tile 0, its records in tile 1, its entry set in tile 2, its directory in tile 3. -/
def ix0 : IndexRec := { recBase := 16384, entryBase := 32768, listdirBase := 49152, centroids := 9, graphBase := 65536, codebookBase := 81920, maxRounds := 4, beam := 2, entryCount := 3, metricIp := true }
/-- Tiles 0 to 5 are readable; entry set and vectors are not all zero. -/
def indexMem : State :=
  let s := (List.range 6).foldl (fun s n => withTile s n []) {}
  let s := withTile s 0 (List.replicate 64 0x38 ++ List.replicate 64 0x40 ++ List.replicate 64 0x30)
  let s := withTile s 2 [0, 0, 0, 0, 1, 0, 0, 0, 2, 0, 0, 0]
  { s with gen := { s.gen with indexes := [(0, ix0)] } }
/-- A turn in its walk. -/
def walker (f : Retrieval → Retrieval) : Request :=
  { fn := 3, qp := 1, tag := 77, op := .turn, phase := .walk, block := { nprobe := 2, nprobeMin := 1, candidates := 16 }, ret := f { query := List.replicate 64 0x3F800000 } }
def walking (q : Request) : State := setReq indexMem 9 q
/-- A turn in its scan, started at 100. -/
def scanner (f : Retrieval → Retrieval) : Request := { walker f with phase := .scan }
def scanning (q : Request) : State := { walking q with bureau := { reqTimer := 2100 } }
/-- A probe of list 0 whose unit 4 is outstanding. -/
def probe0 : Probe := { list := 0, score := 0x3F800000, baseScore := 0, slice := List.replicate 1024 0x3F80, units := [4] }
def started (f : Retrieval → Retrieval) : Retrieval → Retrieval := fun r => f { r with scanAt := some 100 }

/-- A unit of list 0 of three empty entries. -/ @[irreducible] def unit2 : Bytes := List.replicate 16324 0 ++ [2, 0, 0, 0, 3, 0]
/-- The scan of a probe whose base begins at tile 5: its unit 2 is outstanding. -/
def probe2 : Probe := { probe0 with base := 5, units := [2] }
def scan2 : Request := scanner (started fun r => { r with probes := [probe2] })
theorem unit2_there : readOrCopy (withGood (scanning scan2) 7 unit2) 7 true (fun t => trailerOk 0 0 2 t.payload) = some (goodTile unit2) :=
  readOrCopy_some _ _ _ _ (devTile_withGood _ 7 unit2 { cls := 0, homeTier := 2, homeLoc := 0, valid := true } (by decide +kernel) (by decide))
    (goodTile_good _) (by decide +kernel)


theorem wit_TheWalkChoosesProbes_1 :
    let s : State := walking (walker id)
    let h : Nat := 9
    let q : Request := walker id
    let r : IndexRec := ix0
    reqOf s h = some q
    ∧ indexOf s q.block.index = some r
    ∧ q.phase = .walk
    ∧ q.ret.query.length = r.dim
    ∧ q.mirrored = false := by decide +kernel

theorem wit_TheWalkChoosesProbes_2 :
    let r : IndexRec := ix0
    let s : State := walking (walker fun r => { r with snap := some 1, beam := [(0x40000000, 1), (0x3F800000, 0)], expanded := [0, 1], visited := [0, 1] })
    let h : Nat := 9
    let q : Request := walker fun r => { r with snap := some 1, beam := [(0x40000000, 1), (0x3F800000, 0)], expanded := [0, 1], visited := [0, 1] }
    let probes := fun n => (q.ret.beam.take n).map (probeOf s r q.ret.query)
    reqOf s h = some q
    ∧ indexOf s q.block.index = some r
    ∧ q.phase = .walk
    ∧ q.ret.snap.isSome = true
    ∧ q.cancel = false
    ∧ walkOver r q = true
    ∧ (∀ n, n = q.block.nprobe ∨ n = q.block.nprobeMin → (scanPut s h 0x3C (probeTiles q.fn (probes n))).isSome = true) := by refine ⟨by decide +kernel, by decide +kernel, by decide +kernel, by decide +kernel, by decide +kernel, by decide +kernel, ?_⟩; intro n hn; rcases hn with rfl | rfl <;> decide +kernel

theorem wit_TheWalkChoosesProbes_3 :
    let r : IndexRec := ix0
    let s : State := walking (walker fun r => { r with snap := some 1, beam := [(0x40000000, 1), (0x3F800000, 0)], visited := [0, 1] })
    let h : Nat := 9
    let q : Request := walker fun r => { r with snap := some 1, beam := [(0x40000000, 1), (0x3F800000, 0)], visited := [0, 1] }
    reqOf s h = some q
    ∧ indexOf s q.block.index = some r
    ∧ q.phase = .walk
    ∧ q.ret.snap.isSome = true
    ∧ q.cancel = false
    ∧ walkOver r q = false := by decide +kernel

theorem wit_TheWalkChoosesProbes_4 :
    let r : IndexRec := ix0
    let s : State := walking (scanner fun r => { r with probes := [probe0] })
    let h : Nat := 9
    let q : Request := scanner fun r => { r with probes := [probe0] }
    let probes := fun n => (q.ret.beam.take n).map (probeOf s r q.ret.query)
    let issued := q.ret.probes.map (issueProbe s r)
    let shelves := issued.flatMap servingShelves
    reqOf s h = some q
    ∧ indexOf s q.block.index = some r
    ∧ q.phase = .scan
    ∧ q.ret.scanAt = none
    ∧ (∀ k ∈ shelves, notTaking s (shelfBlock k) = false) := by decide +kernel

theorem wit_TheWalkChoosesProbes_5 :
    let r : IndexRec := ix0
    let s : State := { withTile (walking (scanner fun r => { r with probes := [probe0] })) 3 (List.replicate 25 0 ++ [0x40, 0, 0, 1]) with fabric := { quiesce := [(blockKey (shelfBlock 4), { stage := .draining })] } }
    let h : Nat := 9
    let q : Request := scanner fun r => { r with probes := [probe0] }
    let probes := fun n => (q.ret.beam.take n).map (probeOf s r q.ret.query)
    let issued := q.ret.probes.map (issueProbe s r)
    let shelves := issued.flatMap servingShelves
    reqOf s h = some q
    ∧ indexOf s q.block.index = some r
    ∧ q.phase = .scan
    ∧ q.ret.scanAt = none
    ∧ (∃ k ∈ shelves, notTaking s (shelfBlock k) = true) := by decide +kernel

theorem wit_TheScanOffersEntries_1 :
    let s : State := withGood (scanning scan2) 7 unit2
    let h : Nat := 9
    let k : Nat := 0
    let u : Nat := 2
    let q : Request := scan2
    let r : IndexRec := ix0
    let p : Probe := probe2
    let tl : Tile := goodTile unit2
    let at' : BitVec 48 := 100
    reqOf s h = some q
    ∧ indexOf s q.block.index = some r
    ∧ q.phase = .scan
    ∧ q.ret.scanAt = some at'
    ∧ q.ret.probes[k]? = some p
    ∧ u ∈ p.units
    ∧ u < 2 ^ 17
    ∧ shelfOpen q (unitShelf p u) = true
    ∧ readOrCopy s (p.base + u) true (fun t => trailerOk p.list p.gen.toNat u t.payload) = some tl := by exact ⟨by decide +kernel, by decide +kernel, by decide, by decide, by decide +kernel, by decide, by decide, by decide +kernel, unit2_there⟩

theorem wit_TheScanOffersEntries_2 :
    let r : IndexRec := ix0
    let s : State := scanning (scanner (started fun r => { r with probes := [{ probe0 with tombTiles := [4, 5] }] }))
    let h : Nat := 9
    let k : Nat := 0
    let n : Nat := 4
    let q : Request := scanner (started fun r => { r with probes := [{ probe0 with tombTiles := [4, 5] }] })
    let p : Probe := { probe0 with tombTiles := [4, 5] }
    let tl : Tile := {}
    let e : ExtentEntry := { cls := 0, homeTier := 2, homeLoc := 0, valid := true }
    let at' : BitVec 48 := 100
    reqOf s h = some q
    ∧ indexOf s q.block.index = some r
    ∧ q.phase = .scan
    ∧ q.ret.scanAt = some at'
    ∧ q.ret.probes[k]? = some p
    ∧ p.tombTiles.head? = some n
    ∧ 1 < p.tombTiles.length
    ∧ q.ret.cutSent = false
    ∧ chainRead s n = (s, .ok, some (e, tl))
    ∧ (freeConductor s).isSome = true := by decide +kernel

theorem wit_TheScanOffersEntries_3 :
    let r : IndexRec := ix0
    let s : State := scanning (scanner (started fun r => { r with probes := [probe0] }))
    let h : Nat := 9
    let q : Request := scanner (started fun r => { r with probes := [probe0] })
    let at' : BitVec 48 := 100
    reqOf s h = some q
    ∧ indexOf s q.block.index = some r
    ∧ q.phase = .scan
    ∧ q.ret.scanAt = some at'
    ∧ q.ret.cutSent = false
    ∧ scanUnread q = true
    ∧ q.block.readBudget ≤ since at' (now s) := by decide +kernel

theorem wit_TheScanOffersEntries_4 :
    let r : IndexRec := ix0
    let s : State := { scanning (scanner (started fun r => { r with probes := [probe0] })) with bureau := { reqTimer := 2099 } }
    let h : Nat := 9
    let q : Request := scanner (started fun r => { r with probes := [probe0] })
    let at' : BitVec 48 := 100
    reqOf s h = some q
    ∧ indexOf s q.block.index = some r
    ∧ q.phase = .scan
    ∧ q.ret.scanAt = some at'
    ∧ q.ret.cutSent = false
    ∧ scanUnread q = true
    ∧ since at' (now s) < q.block.readBudget := by decide +kernel

theorem wit_TheScanOffersEntries_5 :
    let r : IndexRec := ix0
    let q : Request := let q := scanner (started fun r => { r with probes := [probe0] }); { q with block := { q.block with softDeadline := 2100 } }
    let s : State := scanning (let q := scanner (started fun r => { r with probes := [probe0] }); { q with block := { q.block with softDeadline := 2100 } })
    let h : Nat := 9
    let at' : BitVec 48 := 100
    reqOf s h = some q
    ∧ indexOf s q.block.index = some r
    ∧ q.phase = .scan
    ∧ q.ret.scanAt = some at'
    ∧ q.ret.cutSent = false
    ∧ scanUnread q = true
    ∧ passed s q.block.softDeadline = true
    ∧ at'.toNat < q.block.softDeadline := by decide +kernel

theorem wit_TheScanOffersEntries_6 :
    let r : IndexRec := ix0
    let s : State := scanning (scanner (started fun r => { r with probes := [probe0], cutSent := true, offered := [(6, [(0, 0x3F800000, 5), (1, 0x40000000, 8)])] }))
    let h : Nat := 9
    let shelf : Nat := 6
    let q : Request := scanner (started fun r => { r with probes := [probe0], cutSent := true, offered := [(6, [(0, 0x3F800000, 5), (1, 0x40000000, 8)])] })
    let at' : BitVec 48 := 100
    reqOf s h = some q
    ∧ indexOf s q.block.index = some r
    ∧ q.phase = .scan
    ∧ q.ret.scanAt = some at'
    ∧ shelfOpen q shelf = true
    ∧ shelf < 32
    ∧ (freeConductor s).isSome = true
    ∧ q.ret.cutSent = true := by decide +kernel

theorem wit_TheScanOffersEntries_7 :
    let r : IndexRec := ix0
    let s : State := scanning (scanner (started fun r => { r with probes := [probe0] }))
    let h : Nat := 9
    let shelf : Nat := 6
    let q : Request := scanner (started fun r => { r with probes := [probe0] })
    let at' : BitVec 48 := 100
    reqOf s h = some q
    ∧ indexOf s q.block.index = some r
    ∧ q.phase = .scan
    ∧ q.ret.scanAt = some at'
    ∧ shelfOpen q shelf = true
    ∧ shelf < 32
    ∧ (freeConductor s).isSome = true
    ∧ shelfBusy q shelf = false := by decide +kernel

theorem wit_TheScanOffersEntries_8 :
    let r : IndexRec := ix0
    let s : State := scanning (scanner (started fun r => { r with shelfOut := (List.range 32).map fun i => (i, if i = 6 then shelfList ix0 6 [(0, 0x3F800000, 5), (1, 0x40000000, 8)] else {}) }))
    let h : Nat := 9
    let q : Request := scanner (started fun r => { r with shelfOut := (List.range 32).map fun i => (i, if i = 6 then shelfList ix0 6 [(0, 0x3F800000, 5), (1, 0x40000000, 8)] else {}) })
    let at' : BitVec 48 := 100
    reqOf s h = some q
    ∧ indexOf s q.block.index = some r
    ∧ q.phase = .scan
    ∧ q.ret.scanAt = some at'
    ∧ 32 ≤ q.ret.shelfOut.length
    ∧ (candidateMerge q r).dupMismatch = false
    ∧ q.op = .turn
    ∧ q.cancel = false := by decide +kernel

end D2

/-! ## Witnesses: passages and re-ranking -/

namespace D3

/-- An index whose passages begin at tile 8. -/
def ixp : IndexRec := { passageBase := 131072 }
/-- A passage block: passage 3 of tenant 4, valid. -/
def block3 (pid tn flags : Nat) : Bytes := List.replicate 8 0 ++ toLE 5 pid ++ toLE 2 tn ++ toLE 1 flags
/-- Candidates 0 and 3 (unit 0 and block 3 of unit 0). -/
def cands : List Cand := [{ pid := 0, score := 0x40000000 }, { pid := 9, score := 0x3F800000 }]
def fetcher (f : Retrieval → Retrieval) : Request :=
  { fn := 4, qp := 1, tag := 77, op := .turn, phase := .fetch, ret := f { cands := cands } }
def fetchIn (x : StoreState) (q : Request) (b : Bytes) : State :=
  withGood { setReq { bureau := { reqTimer := 2100 }, store := x } 9 q with gen := { ({} : GenState) with indexes := [(0, ixp)] } } 8 b
def fetching (q : Request) (b : Bytes) : State := fetchIn {} q b
theorem fetch_tile (x : StoreState) (q : Request) (b : Bytes) : readOrCopy (fetchIn x q b) 8 true (fun _ => true) = some (goodTile b) :=
  readOrCopy_some _ _ _ _ (devTile_withGood _ 8 b { cls := 0, homeTier := 2, homeLoc := 0, valid := true } rfl (by decide)) (goodTile_good b) rfl
def since100 : Retrieval → Retrieval := fun r => { r with fetchAt := some 100 }
/-- A request whose candidates have their blocks, in a phase. -/
def ranked (op : Opcode) (p : Phase) : Request :=
  { fn := 4, qp := 1, tag := 77, op := op, phase := p, block := { rerankPart := 2, genPart := 3 }
    ret := { cands := [{ pid := 1, score := 0x40000000, waiting := false, block := some (List.replicate 15 0 ++ [2]), rerank := some 0x3F800000 },
      { pid := 2, score := 0x3F800000, waiting := false, block := some (List.replicate 15 0 ++ [2, 0]), rerank := some 0x40000000 }] } }
/-- A template with a question and a passage slot, its budget 64. -/
def tpl64 : Bytes :=
  splice (splice (splice (pad 400 []) 0 [1, 0, 0, 0, 64, 0, 0, 0, 4, 0, 2, 2, 1, 0]) 128 [2]) 136 [3]
def reranker : Program := { kind := .rerank, pairTokens := 512 }
def open4 : QueuePair := { enable := true, state := .enabled, cqLog2 := 8 }
def withQp (s : State) : State := setQp s 4 1 fun _ => open4


theorem wit_PassageFetchJudgesBlocks_1 :
    let s : State := fetching (fetcher id) []
    let h : Nat := 9
    let q : Request := fetcher id
    let r : IndexRec := ixp
    reqOf s h = some q
    ∧ indexOf s q.block.index = some r
    ∧ q.phase = .fetch
    ∧ q.cancel = false
    ∧ (∃ x ∈ q.ret.cands, x.waiting = true)
    ∧ q.ret.fetchAt = none := by decide +kernel

theorem wit_PassageFetchJudgesBlocks_2 :
    let r : IndexRec := ixp
    let s : State := fetching (fetcher fun r => since100 { r with unitTiles := [(8, 121856)] }) (block3 0 4 1)
    let h : Nat := 9
    let i : Nat := 0
    let j : TileIdx := 121856
    let q : Request := fetcher fun r => since100 { r with unitTiles := [(8, 121856)] }
    let c : Cand := { pid := 0, score := 0x40000000 }
    let tl : Tile := goodTile (block3 0 4 1)
    let n := passageUnit r c.pid
    let b := slice tl.payload (2048 * (c.pid.toNat % 8)) 2048
    let good := bit (rd b 15 1) 0 = true ∧ rd b 8 5 = c.pid.toNat ∧ rd b 13 2 % 512 = q.fn.toNat
    reqOf s h = some q
    ∧ indexOf s q.block.index = some r
    ∧ q.phase = .fetch
    ∧ q.cancel = false
    ∧ q.ret.fetchAt.isSome = true
    ∧ q.ret.cands[i]? = some c
    ∧ c.waiting = true
    ∧ (∃ k x, k ≠ i ∧ q.ret.cands[k]? = some x ∧ x.waiting = true)
    ∧ readOrCopy s n true (fun _ => true) = some tl
    ∧ mfind q.ret.unitTiles n = some j
    ∧ good := by exact ⟨by decide +kernel, by decide +kernel, by decide, by decide, by decide, rfl, rfl, ⟨1, _, by decide, rfl, rfl⟩, fetch_tile _ _ _, by decide, by decide +kernel⟩

theorem wit_PassageFetchJudgesBlocks_3 :
    let r : IndexRec := ixp
    let s : State := fetching (fetcher fun r => since100 { r with unitTiles := [(8, 121856)] }) (block3 0 4 0)
    let h : Nat := 9
    let i : Nat := 0
    let j : TileIdx := 121856
    let q : Request := fetcher fun r => since100 { r with unitTiles := [(8, 121856)] }
    let c : Cand := { pid := 0, score := 0x40000000 }
    let tl : Tile := goodTile (block3 0 4 0)
    let n := passageUnit r c.pid
    let b := slice tl.payload (2048 * (c.pid.toNat % 8)) 2048
    reqOf s h = some q
    ∧ indexOf s q.block.index = some r
    ∧ q.phase = .fetch
    ∧ q.cancel = false
    ∧ q.ret.fetchAt.isSome = true
    ∧ q.ret.cands[i]? = some c
    ∧ c.waiting = true
    ∧ (∃ k x, k ≠ i ∧ q.ret.cands[k]? = some x ∧ x.waiting = true)
    ∧ readOrCopy s n true (fun _ => true) = some tl
    ∧ mfind q.ret.unitTiles n = some j
    ∧ bit (rd b 15 1) 0 = false := by exact ⟨by decide +kernel, by decide +kernel, by decide, by decide, by decide, rfl, rfl, ⟨1, _, by decide, rfl, rfl⟩, fetch_tile _ _ _, by decide, by decide +kernel⟩

theorem wit_PassageFetchJudgesBlocks_4 :
    let r : IndexRec := ixp
    let s : State := fetching (fetcher fun r => since100 { r with unitTiles := [(8, 121856)] }) (block3 0 5 1)
    let h : Nat := 9
    let i : Nat := 0
    let j : TileIdx := 121856
    let q : Request := fetcher fun r => since100 { r with unitTiles := [(8, 121856)] }
    let c : Cand := { pid := 0, score := 0x40000000 }
    let tl : Tile := goodTile (block3 0 5 1)
    let n := passageUnit r c.pid
    let b := slice tl.payload (2048 * (c.pid.toNat % 8)) 2048
    let k : Nat := 1
    reqOf s h = some q
    ∧ indexOf s q.block.index = some r
    ∧ q.phase = .fetch
    ∧ q.cancel = false
    ∧ q.ret.fetchAt.isSome = true
    ∧ q.ret.cands[i]? = some c
    ∧ c.waiting = true
    ∧ (∃ k x, k ≠ i ∧ q.ret.cands[k]? = some x ∧ x.waiting = true)
    ∧ readOrCopy s n true (fun _ => true) = some tl
    ∧ mfind q.ret.unitTiles n = some j
    ∧ bit (rd b 15 1) 0 = true
    ∧ (rd b 8 5 ≠ c.pid.toNat ∧ k = 0 ∨ rd b 8 5 = c.pid.toNat ∧ rd b 13 2 % 512 ≠ q.fn.toNat ∧ k = 1) := by exact ⟨by decide +kernel, by decide +kernel, by decide, by decide, by decide, rfl, rfl, ⟨1, _, by decide, rfl, rfl⟩, fetch_tile _ _ _, by decide, by decide +kernel, by decide +kernel⟩

theorem wit_PassageFetchJudgesBlocks_5 :
    let s : State := fetching (fetcher since100) (block3 0 4 1)
    let h : Nat := 9
    let i : Nat := 0
    let j : TileIdx := 121856
    let q : Request := fetcher since100
    let r : IndexRec := ixp
    let c : Cand := { pid := 0, score := 0x40000000 }
    let tl : Tile := goodTile (block3 0 4 1)
    let n := passageUnit r c.pid
    reqOf s h = some q
    ∧ indexOf s q.block.index = some r
    ∧ q.phase = .fetch
    ∧ q.cancel = false
    ∧ q.ret.fetchAt.isSome = true
    ∧ q.ret.cands[i]? = some c
    ∧ c.waiting = true
    ∧ (∃ k x, k ≠ i ∧ q.ret.cands[k]? = some x ∧ x.waiting = true)
    ∧ readOrCopy s n true (fun _ => true) = some tl
    ∧ mfind q.ret.unitTiles n = none
    ∧ freeConductor s = some j := by exact ⟨by decide +kernel, by decide +kernel, by decide, by decide, by decide, rfl, rfl, ⟨1, _, by decide, rfl, rfl⟩, fetch_tile _ _ _, by decide, by decide +kernel⟩

theorem wit_PassageFetchJudgesBlocks_6 :
    let s : State := fetchIn { slots := fullPool } (fetcher since100) (block3 0 4 1)
    let h : Nat := 9
    let i : Nat := 0
    let q : Request := fetcher since100
    let r : IndexRec := ixp
    let c : Cand := { pid := 0, score := 0x40000000 }
    let tl : Tile := goodTile (block3 0 4 1)
    let n := passageUnit r c.pid
    reqOf s h = some q
    ∧ indexOf s q.block.index = some r
    ∧ q.phase = .fetch
    ∧ q.cancel = false
    ∧ q.ret.fetchAt.isSome = true
    ∧ q.ret.cands[i]? = some c
    ∧ c.waiting = true
    ∧ (∃ k x, k ≠ i ∧ q.ret.cands[k]? = some x ∧ x.waiting = true)
    ∧ readOrCopy s n true (fun _ => true) = some tl
    ∧ mfind q.ret.unitTiles n = none
    ∧ freeConductor s = none := by exact ⟨by decide +kernel, by decide +kernel, by decide, by decide, by decide, rfl, rfl, ⟨1, _, by decide, rfl, rfl⟩, fetch_tile _ _ _, by decide, full_none _ rfl⟩

theorem wit_PassageFetchJudgesBlocks_7 :
    let s : State := { fetching (fetcher since100) [] with bureau := { reqTimer := 2099 } }
    let h : Nat := 9
    let q : Request := fetcher since100
    let r : IndexRec := ixp
    let at' : BitVec 48 := 100
    reqOf s h = some q
    ∧ indexOf s q.block.index = some r
    ∧ q.phase = .fetch
    ∧ q.cancel = false
    ∧ q.ret.fetchAt = some at'
    ∧ since at' (now s) < q.block.readBudget := by decide +kernel

theorem wit_PassageFetchJudgesBlocks_8 :
    let s : State := fetching (fetcher since100) []
    let h : Nat := 9
    let q : Request := fetcher since100
    let r : IndexRec := ixp
    let at' : BitVec 48 := 100
    reqOf s h = some q
    ∧ indexOf s q.block.index = some r
    ∧ q.phase = .fetch
    ∧ q.cancel = false
    ∧ q.ret.fetchAt = some at'
    ∧ q.block.readBudget ≤ since at' (now s)
    ∧ q.ret.snap = none := by decide +kernel

theorem wit_RerankAndPackKeepTheBudget_1 :
    let s : State := setPart (setReq {} 9 (ranked .rerank .rerank)) 2 fun p => { p with prog := some reranker }
    let h : Nat := 9
    let q : Request := ranked .rerank .rerank
    let g : Program := reranker
    reqOf s h = some q
    ∧ q.cancel = false
    ∧ q.phase = .rerank
    ∧ q.ret.noRerank = false
    ∧ q.ret.reranked = 0
    ∧ heldCands q ≠ []
    ∧ progOf s q.block.rerankPart = some g
    ∧ q.op = .rerank
    ∧ (∀ c ∈ q.ret.cands, c.block.isSome = true)
    ∧ setVerified s (BitVec.ofNat 2 g.tokSet)
    ∧ (∀ c ∈ q.ret.cands, (passageTokens s (BitVec.ofNat 2 g.tokSet) (c.block.getD [])).2 = none) := by decide +kernel

theorem wit_RerankAndPackKeepTheBudget_2 :
    let s : State := setReq {} 9 (ranked .turn .rerank)
    let h : Nat := 9
    let q : Request := ranked .turn .rerank
    reqOf s h = some q
    ∧ q.cancel = false
    ∧ q.phase = .rerank
    ∧ q.ret.noRerank = false
    ∧ q.ret.reranked = 0
    ∧ heldCands q ≠ []
    ∧ progOf s q.block.rerankPart = none
    ∧ q.op = .turn := by decide +kernel

theorem wit_RerankAndPackKeepTheBudget_3 :
    let s : State := setReq {} 9 (ranked .turn .rerank)
    let h : Nat := 9
    let q : Request := ranked .turn .rerank
    reqOf s h = some q
    ∧ q.cancel = false
    ∧ q.phase = .rerank
    ∧ q.op = .turn
    ∧ q.ret.cands ≠ []
    ∧ q.ret.cands.length ≤ 1024
    ∧ (∀ c ∈ q.ret.cands, c.rerank.isSome = true ∧ c.pid ≠ 0xFFFFFFFFFF) := by decide +kernel

theorem wit_RerankAndPackKeepTheBudget_4 :
    let s : State := setReq {} 9 { ranked .turn .pack with template := some tpl64 }
    let h : Nat := 9
    let q : Request := { ranked .turn .pack with template := some tpl64 }
    let tpl : Bytes := tpl64
    reqOf s h = some q
    ∧ q.cancel = false
    ∧ q.phase = .pack
    ∧ q.template = some tpl
    ∧ templateOk tpl = true
    ∧ conductorFree s
    ∧ mandatory tpl (questionIn q (BitVec.ofNat 2 (tplSet tpl))) ≤ tplBudget tpl := by exact ⟨by decide +kernel, by decide, by decide, by decide +kernel, by decide +kernel, (by intro k _; rfl), by decide +kernel⟩

theorem wit_RerankAndPackKeepTheBudget_5 :
    let s : State := withQp (setReq {} 9 (ranked .turn .ready))
    let h : Nat := 9
    let q : Request := ranked .turn .ready
    reqOf s h = some q
    ∧ q.cancel = false
    ∧ q.phase = .ready
    ∧ (∀ i ∈ q.ret.promptTiles, readable s i = true) := by exact ⟨by decide +kernel, rfl, rfl, by intro i hi; cases hi⟩

theorem wit_RerankAndPackKeepTheBudget_6 :
    let s : State := withQp (setReq {} 9 (ranked .turn .ready))
    let h : Nat := 9
    let q : Request := ranked .turn .ready
    reqOf s h = some q
    ∧ q.cancel = false
    ∧ q.phase = .ready
    ∧ q.ret.rerun = false := by decide +kernel

end D3

/-! ## Witnesses: steps -/

namespace E1

/-- A program of one mapping on engine 3. -/
def prog3 : Program := { kind := .general, maps := [{ engines := 8 }] }
/-- Partition 2 runs that program. -/
def part2 (f : Partition → Partition) : State := setPart {} 2 fun q => f { q with state := .running, prog := some prog3 }
/-- Its step of epoch 5 runs, with the record of engine 3 written. -/
def check3 : CheckRecord := { engine := 3, partition := 2 }
def recorded : Step := { running := true, epoch := 5, checks := [check3] }
/-- Tile 5 of the store is an output of epoch 5 of partition 2. -/
def withOut (s : State) : State := setSlot s 5 fun x => { x with hdr := { state := .ready, owner := 2, epoch := 5, prod := 5, out := true } }
/-- Engine 3 runs a context of partition 2 and holds one of partition 4, which borrows it. -/
def lentEngine (x : EngineState) (f : Partition → Partition) : State :=
  setPart (setEng (part2 f) 3 fun _ => { x with ctx0 := some { part := 2, rows := 8 }, ctx1 := some { part := 4 } }) 4 fun q => { q with prog := some { borrow := 8 } }
/-- A generator with 2 heads of 32 and one layer; slot 0 is in service with one page. -/
def gen2 : Program := { kind := .generator, maps := [{ engines := 8 }], slots := 4, sec := { layers := 1, kvHeads := 2, headDim := 32 } }
def sl0 : SlotRec := { state := .decode, tenant := 4, request := 9, promptLen := 3, maxTokens := 20, len := 4, pageList := [(0, 900)] }
def slot0 (f : SlotRec → SlotRec) (g : Partition → Partition) : State :=
  setPart {} 2 fun q => g { q with state := .running, prog := some gen2, slots := [(0, f sl0)], step := { running := true, epoch := 5 } }
/-- A page of committed keys and values with its own CRC. -/
def page9 : Tile := { hdr := { format := 0x04, rows := 128, cols := 128 }, payload := (List.range 300).map fun i => BitVec.ofNat 8 (i % 96) }
def att0 : AttentionOp := { part := 2, slot := 0, row := 0, query := List.replicate 32 0x3F800000, draft := false, layer := 0, head := 1, page := 0, pos := 2, scale := 0x3E800000, anchor := -20, vAnchor := -20, fault := false }
/-- The pool's extent 7 is mapped as extent 20, and its tile 900 holds the page. -/
def kvEnt : ExtentEntry := { cls := 2, copyTier := 2, copyLoc := 7, owner := 2, valid := true }
def paged (f : SlotRec → SlotRec) (l : LTile) : State :=
  { slot0 f (fun q => { q with pool := [(7, 20)] }) with
    tier := { ({} : State).tier with dir := [(0, 0)], leaves := [(20, kvEnt)], lmem := [(900, l)] } }
def page9l : LTile := { hdr := storedHeader page9.sealed.hdr, payload := page9.payload }
theorem paged_read (f : SlotRec → SlotRec) (sl : SlotRec) : readPage (paged f page9l) 2 sl 900 [] = (paged f page9l, 
    some (20, kvEnt, { hdr := storedHeader page9.sealed.hdr, payload := page9.payload })) := by
  have g : Tile.good { hdr := storedHeader page9.sealed.hdr, payload := page9.payload } = true := by
    unfold Tile.good; rw [Bool.or_eq_true]; exact .inr (stored_ok page9)
  have r : readEntry (paged f page9l) 20 kvEnt (BitVec.ofNat 7 900) []
      = (paged f page9l, .ok, some { hdr := storedHeader page9.sealed.hdr, payload := page9.payload }) := rfl
  have x : mfind (partOf (paged f page9l) 2).pool (900 / 128) = some 20 := rfl
  have e : entryOf (paged f page9l) 20 = some kvEnt := rfl
  have w : pageWrite (paged f page9l) 20 900 = none := rfl
  simp only [readPage, x, Option.getD_some, Option.isSome_some, if_true, e, w, r, g]


theorem wit_StepsCommitOrReplay_1 :
    let s : State := part2 fun q => { q with step := { running := true, epoch := 5 } }
    let p : PartId := 2
    let c : CheckRecord := check3
    let q := partOf s p
    let place := BitVec.ofNat 17 (checkPlace q c.engine)
    c.partition = p
    ∧ q.step.running = true
    ∧ c.engine ∈ mappingEngines (mappingOf q)
    ∧ (∀ r ∈ q.step.checks, r.engine ≠ c.engine)
    ∧ (c.engine = leadEngine q → ∀ i ∈ q.step.items, i.kind ≠ .update)
    ∧ (slotOf s place).hdr.state = .free := by decide +kernel

theorem wit_StepsCommitOrReplay_2 :
    let s : State := part2 fun q => { q with step := recorded }
    let p : PartId := 2
    let c : CheckRecord := check3
    let q := partOf s p
    c.partition = p
    ∧ (∃ r ∈ q.step.checks, r.engine = c.engine) := by decide +kernel

theorem wit_StepsCommitOrReplay_3 :
    let s : State := {}
    let p : PartId := 2
    let q := partOf s p
    (q.state = .empty ∨ q.state = .loading ∨ q.state = .failed) := by decide +kernel

theorem wit_StepsCommitOrReplay_4 :
    let s : State := part2 fun q => { q with step := { running := true, epoch := 5 } }
    let p : PartId := 2
    let q := partOf s p
    q.state = .running
    ∧ q.step.running = true
    ∧ recordsIn q (usedEngines q) = false
    ∧ q.needReload = false := by decide +kernel

theorem wit_StepsCommitOrReplay_5 :
    let s : State := withOut (part2 fun q => { q with step := recorded })
    let p : PartId := 2
    let g : Program := prog3
    let q := partOf s p
    let alone := s.gen.tables = [] ∧ q.slots = [] ∧ q.rings = [] ∧ q.reports = [] ∧ q.switchDue = [] ∧ q.switchBack = false ∧ q.pauseFor = none
    ∧ q.hotOld = [] ∧ q.replacing = none ∧ q.needReload = false ∧ (∀ e, (engOf s e).testDue = none)
    ∧ (∀ w ∈ s.tier.waiting, w.rq.part ≠ p.setWidth 6) ∧ q.step.epoch.toNat < 0xFFFFFFEF ∧ q.committed.toNat < 0xFFFFFFEF
    alone
    ∧ q.state = .running
    ∧ q.prog = some g
    ∧ q.step.running = true
    ∧ q.step.items = []
    ∧ recordsIn q (usedEngines q) = true
    ∧ stepFails q = false
    ∧ q.step.provisional = []
    ∧ matchedIn q = true
    ∧ canonical {} s.store.slots = true := by decide +kernel

theorem wit_StepsCommitOrReplay_6 :
    let s : State := { part2 fun q => { q with storeCount := 128, step := { recorded with retracted := true, provisional := [(1, 9)] } } with pair := { ({} : PairState) with link := .up, provisional := [{ part := 1, epoch := 9, tile := 5, link := true }] } }
    let p : PartId := 2
    let q := partOf s p
    q.state = .running
    ∧ q.step.running = true
    ∧ awaitsResend s p = true := by decide +kernel

theorem wit_StepsCommitOrReplay_7 :
    let s : State := withOut (part2 fun q => { q with step := { recorded with retracted := true, items := [{ kind := .input, handle := 9 }] } })
    let p : PartId := 2
    let q := partOf s p
    q.state = .running
    ∧ q.step.running = true
    ∧ recordsIn q (usedEngines q) = true
    ∧ (∀ r ∈ q.step.checks, r.result = 0)
    ∧ q.step.refused = []
    ∧ q.step.refusedAll = none
    ∧ q.step.storeRefusal = none
    ∧ q.step.retracted = true
    ∧ awaitsResend s p = false
    ∧ saturatedTiles s q = []
    ∧ poisonedTiles s q = []
    ∧ stepWorks q = true
    ∧ canonical {} s.store.slots = true := by decide +kernel

theorem wit_StepsCommitOrReplay_8 :
    let s : State := withOut (part2 fun q => { q with step := { items := [{ kind := .input, handle := 9 }], waits := true }, committed := 4 })
    let p : PartId := 2
    let g : Program := prog3
    let q := partOf s p
    let alone := s.gen.tables = [] ∧ q.slots = [] ∧ q.rings = [] ∧ q.reports = [] ∧ q.switchDue = [] ∧ q.switchBack = false ∧ q.pauseFor = none
    ∧ q.hotOld = [] ∧ q.replacing = none ∧ q.needReload = false ∧ (∀ e, (engOf s e).testDue = none)
    ∧ (∀ w ∈ s.tier.waiting, w.rq.part ≠ p.setWidth 6) ∧ q.step.epoch.toNat < 0xFFFFFFEF ∧ q.committed.toNat < 0xFFFFFFEF
    alone
    ∧ q.state = .running
    ∧ q.prog = some g
    ∧ g.kind ≠ .generator
    ∧ q.step.running = false
    ∧ q.step.items ≠ []
    ∧ (∀ e ∈ usedEngines q, lentReady s p e = true ∧ notTaking s (engineBlock e) = false) := by decide +kernel

theorem wit_ContextsAndPages_1 :
    let s : State := lentEngine {} id
    let e : Engine := 3
    let lend : Bool := false
    let out : Share := { part := 2, rows := 8 }
    let inc : Share := { part := 4 }
    let x : Nat := 20
    let x := engOf s e
    runningShare x = some out
    ∧ (if x.running then x.ctx0 else x.ctx1) = some inc
    ∧ borrows s inc.part e ≠ lend := by decide +kernel

theorem wit_ContextsAndPages_2 :
    let s : State := lentEngine {} id
    let e : Engine := 3
    let lend : Bool := true
    let out : Share := { part := 2, rows := 8 }
    let inc : Share := { part := 4 }
    let x : Nat := 20
    let x := engOf s e
    runningShare x = some out
    ∧ (if x.running then x.ctx0 else x.ctx1) = some inc
    ∧ borrows s inc.part e = lend
    ∧ (partOf s out.part).step.running = false := by decide +kernel

theorem wit_ContextsAndPages_3 :
    let s : State := lentEngine { live := [2], acc := [(1025, { n := 5 })] } fun q => { q with step := recorded }
    let e : Engine := 3
    let lend : Bool := true
    let out : Share := { part := 2, rows := 8 }
    let inc : Share := { part := 4 }
    let x : Nat := 20
    let x := engOf s e
    let u : BitVec 16 := 1
    runningShare x = some out
    ∧ (if x.running then x.ctx0 else x.ctx1) = some inc
    ∧ borrows s inc.part e = lend
    ∧ (partOf s out.part).step.running = true
    ∧ e ∈ usedEngines (partOf s out.part)
    ∧ sealFault x out = some u := by decide +kernel

theorem wit_ContextsAndPages_4 :
    let s : State := paged id {}
    let p : PartId := 2
    let slot : Nat := 0
    let page : Nat := 0
    let n : Nat := 900
    let i : Nat := 5
    let x : Nat := 20
    let sub : Nat := 0
    let g : Program := gen2
    let ent : ExtentEntry := kvEnt
    let q := partOf s p
    let sl := slotRec s p slot
    let old := lTile s n
    let at' := BitVec.ofNat 7 n
    let draft := false
    let h : Nat := 2
    let d : Nat := 32
    let c : Nat := 0
    q.prog = some g
    ∧ sl.pageList[page]? = some (sub, n)
    ∧ inStep q sl = true
    ∧ pageShape g sl page = (draft, h, d, c)
    ∧ i < pageTokens h d
    ∧ mfind q.pool (n / 128) = some x
    ∧ entryOf s x = some ent
    ∧ ent.cls = 2
    ∧ place ent at' = (2, n)
    ∧ pageWrite s x n = none
    ∧ isLost s x ent at' = false
    ∧ Tile.good { hdr := old.hdr, payload := old.payload } = true
    ∧ writeWaits s ent at' = false := by decide +kernel

theorem wit_ContextsAndPages_5 :
    let s : State := paged id page9l
    let slot : Nat := 0
    let page : Nat := 0
    let n : Nat := 900
    let i : Nat := 5
    let x : Nat := 20
    let sub : Nat := 0
    let g : Program := gen2
    let a : AttentionOp := att0
    let ent : ExtentEntry := kvEnt
    let t : Tile := { hdr := storedHeader page9.sealed.hdr, payload := page9.payload }
    let q := partOf s a.part
    let sl := slotRec s a.part a.slot
    let h := g.sec.kvHeads
    let d := g.sec.headDim
    let pt := pageTokens h d
    let w := max 1 g.kvStripe
    let place := pageIndex g (slotPositions sl) false a.layer a.page
    let own := validRows q sl false a.slot place a.page pt a.pos
    let row := fun (i off : Nat) => slice t.payload (i * posBytes h d + off) d
    let part := pagePartial a d (own.map fun i => row i (a.head * d)) (own.map fun i => row i (h * d + a.head * d))
    q.prog = some g
    ∧ a.draft = false
    ∧ a.fault = false
    ∧ sl.pageList[place]? = some (sub, n)
    ∧ inStep q sl = true
    ∧ a.head < h
    ∧ a.page < w
    ∧ a.page * pt ≤ a.pos
    ∧ stripeOf q.step.partials a.slot a.row (a.page % w) = none
    ∧ pageWaits s q n = false
    ∧ readPage s a.part sl n a.upsets = (s, some (x, ent, t)) := by exact ⟨rfl, rfl, rfl, rfl, by decide +kernel, by decide +kernel, by decide +kernel, by decide +kernel, by decide +kernel, by decide +kernel, paged_read _ _⟩

theorem wit_ContextsAndPages_6 :
    let s : State := paged (fun r => { r with len := 300 }) page9l
    let slot : Nat := 0
    let page : Nat := 0
    let n : Nat := 900
    let i : Nat := 5
    let x : Nat := 20
    let sub : Nat := 0
    let g : Program := gen2
    let a : AttentionOp := { att0 with pos := 200 }
    let ent : ExtentEntry := kvEnt
    let t : Tile := { hdr := storedHeader page9.sealed.hdr, payload := page9.payload }
    let q := partOf s a.part
    let sl := slotRec s a.part a.slot
    let h := g.sec.kvHeads
    let d := g.sec.headDim
    let pt := pageTokens h d
    let w := max 1 g.kvStripe
    let place := pageIndex g (slotPositions sl) false a.layer a.page
    let own := validRows q sl false a.slot place a.page pt a.pos
    let row := fun (i off : Nat) => slice t.payload (i * posBytes h d + off) d
    let part := pagePartial a d (own.map fun i => row i (a.head * d)) (own.map fun i => row i (h * d + a.head * d))
    q.prog = some g
    ∧ a.draft = false
    ∧ a.fault = false
    ∧ sl.pageList[place]? = some (sub, n)
    ∧ inStep q sl = true
    ∧ a.head < h
    ∧ a.page < w
    ∧ a.page * pt ≤ a.pos
    ∧ stripeOf q.step.partials a.slot a.row (a.page % w) = none
    ∧ pageWaits s q n = false
    ∧ readPage s a.part sl n a.upsets = (s, some (x, ent, t))
    ∧ stripeLast w (a.pos / pt) (a.page % w) ≠ some a.page := by exact ⟨rfl, rfl, rfl, rfl, by decide +kernel, by decide +kernel, by decide +kernel, by decide +kernel, by decide +kernel, by decide +kernel, paged_read _ _, by decide +kernel⟩

end E1

/-! ## Witnesses: sampling and reports -/

namespace E2

/-- A generator of one mapping on engine 3; its step of epoch 5 runs with slot 0 in service. -/
def genP : Program := { kind := .generator, maps := [{ engines := 8, draft := true }], slots := 4, specMax := 4 }
def decoding (f : SlotRec → SlotRec) (g : Partition → Partition) : State :=
  setPart {} 2 fun q => g { q with
    state := .running, prog := some genP, step := { running := true, epoch := 5 }
    slots := [(0, f { state := .decode, tenant := 4, request := 9, promptLen := 3, maxTokens := 20, len := 4, propsEnd := true, stepNo := 1 })] }
/-- Its request, greedy or drawn. -/
def reqT (t : Word) : Request := { fn := 4, qp := 1, tag := 77, op := .generate, phase := .slot, block := { temperature := t, topK := 8, topP := 0x3F800000, seed := 7 } }
def sampling (t : Word) (f : SlotRec → SlotRec) (g : Partition → Partition) : State := setReq (decoding f g) 9 (reqT t)
/-- Logits of three tokens, the second the largest. -/
def logits3 : List Word := [0x3F800000, 0x40000000, 0x00000000]
/-- A grammar whose states and intervals lie in tile 8; slot 0 is bound to it. -/
def gram : Grammar := { tenant := 4, world := false, tokSet := 0, vocab := 8, states := 2, intervals := 1, start := 0, base := 131072, stateOff := 0, intervalOff := 64 }
def bound : State :=
  let s := decoding (fun x => { x with grammar := some 6 }) id
  withGood { s with text := { s.text with grammars := [(6, gram)] } } 8 [0, 0, 0, 0, 1, 0, 0, 0, 0, 0, 0, 0, 0, 0, 0, 0]
theorem bound_ok : (grammarTiles gram).all (tableTileOk bound) = true := by
  have e : grammarTiles gram = [8, 8, 8] := by decide +kernel
  have g : tableTileOk bound 8 = true :=
    tableOk_withGood _ 8 _ { cls := 0, homeTier := 2, homeLoc := 0, valid := true } (by decide +kernel) (by decide)
  rw [e]; simp [g]
def stream0 (s : State) (x : OutStream) : State := { s with text := { s.text with streams := [(slotKey 2 0, x)] } }


theorem wit_SamplingPicksKeptTokens_1 :
    let s : State := sampling 0 id id
    let p : PartId := 2
    let n : Nat := 0
    let logits : List Word := []
    let r : Request := reqT 0
    let q := partOf s p
    let sl := slotRec s p n
    let b := r.block
    let props := (sl.props.take sl.accepted).map (·.1)
    let d := distOf b (maskAfter s sl props) (penaltyWindow b sl props) logits
    reqOf s sl.request = some r
    ∧ samples q sl = true
    ∧ (sl.propsEnd = true ∨ depthOf q sl ≤ sl.props.length)
    ∧ sl.state = .decode
    ∧ d.allowed = false := by decide +kernel

theorem wit_SamplingPicksKeptTokens_2 :
    let s : State := sampling 0 id id
    let p : PartId := 2
    let n : Nat := 0
    let logits : List Word := [0x7FC00000, 0x7F800000]
    let r : Request := reqT 0
    let q := partOf s p
    let sl := slotRec s p n
    let b := r.block
    let props := (sl.props.take sl.accepted).map (·.1)
    let d := distOf b (maskAfter s sl props) (penaltyWindow b sl props) logits
    reqOf s sl.request = some r
    ∧ samples q sl = true
    ∧ (sl.propsEnd = true ∨ depthOf q sl ≤ sl.props.length)
    ∧ sl.state = .decode
    ∧ d.allowed = true
    ∧ d.kept = [] := by decide +kernel

theorem wit_SamplingPicksKeptTokens_3 :
    let s : State := sampling 0 id id
    let p : PartId := 2
    let n : Nat := 0
    let logits : List Word := logits3
    let r : Request := reqT 0
    let q := partOf s p
    let sl := slotRec s p n
    let b := r.block
    let props := (sl.props.take sl.accepted).map (·.1)
    let d := distOf b (maskAfter s sl props) (penaltyWindow b sl props) logits
    let t : Nat := 1
    reqOf s sl.request = some r
    ∧ samples q sl = true
    ∧ (sl.propsEnd = true ∨ depthOf q sl ≤ sl.props.length)
    ∧ sl.state = .decode
    ∧ d.allowed = true
    ∧ sl.props[sl.accepted]? = none
    ∧ (greedy b = true ∧ d.kept.head?.map (·.1) = some t ∨ greedy b = false ∧ ∃ u, drawN q b sl 16 = some u ∧ drawToken d.kept u = some t) := by exact ⟨by decide +kernel, by decide +kernel, .inl rfl, by decide, by decide +kernel, by decide, .inl (by decide +kernel)⟩

theorem wit_SamplingPicksKeptTokens_4 :
    let s : State := sampling 0x3F800000 (fun x => { x with props := [(1, [(1, 5), (0, 3)])] }) (fun q => { q with draws := [((7, 0, 1, 8), 12345)] })
    let p : PartId := 2
    let n : Nat := 0
    let logits : List Word := logits3
    let r : Request := reqT 0x3F800000
    let q := partOf s p
    let sl := slotRec s p n
    let b := r.block
    let props := (sl.props.take sl.accepted).map (·.1)
    let d := distOf b (maskAfter s sl props) (penaltyWindow b sl props) logits
    let k : Nat := 1
    let qk : Kept := [(1, 5), (0, 3)]
    let u : BitVec 64 := 12345
    reqOf s sl.request = some r
    ∧ samples q sl = true
    ∧ (sl.propsEnd = true ∨ depthOf q sl ≤ sl.props.length)
    ∧ sl.state = .decode
    ∧ d.kept ≠ []
    ∧ d.allowed = true
    ∧ sl.props[sl.accepted]? = some (k, qk)
    ∧ greedy b = false
    ∧ drawN q b sl (8 + sl.accepted) = some u
    ∧ u.toNat * termIn qk k * keptSum d.kept < 2 ^ 64 * termIn d.kept k * keptSum qk := by decide +kernel

theorem wit_SamplingPicksKeptTokens_5 :
    let s : State := sampling 0 (fun x => { x with verified := true }) id
    let p : PartId := 2
    let n : Nat := 0
    let r : Request := reqT 0
    let sl := slotRec s p n
    reqOf s sl.request = some r
    ∧ sl.verified = true := by decide +kernel

theorem wit_SamplingPicksKeptTokens_6 :
    let s : State := sampling 0 (fun x => { x with propsEnd := false, specDepth := 2 }) id
    let p : PartId := 2
    let n : Nat := 0
    let logits : List Word := logits3
    let r : Request := reqT 0
    let q := partOf s p
    let sl := slotRec s p n
    let b := r.block
    let props := sl.props.map (·.1)
    let d := distOf b (maskAfter s sl props) (penaltyWindow b sl props) logits
    let t : Nat := 1
    reqOf s sl.request = some r
    ∧ samples q sl = true
    ∧ sl.state = .decode
    ∧ sl.propsEnd = false
    ∧ sl.props.length < depthOf q sl
    ∧ d.kept ≠ []
    ∧ pickToken q b sl d.kept sl.props.length = some t := by decide +kernel

theorem wit_SamplingPicksKeptTokens_7 :
    let s : State := sampling 0 id fun q => { q with drawsAsked := [(7, 0, 1, 8)] }
    let p : PartId := 2
    let n : Nat := 0
    let r : Request := reqT 0
    let sl := slotRec s p n
    reqOf s sl.request = some r := by decide +kernel

theorem wit_SamplingPicksKeptTokens_8 :
    let s : State := sampling 0 id fun q => { q with drawsAsked := [(7, 0, 1, 8)] }
    let p : PartId := 2
    let n : Nat := 0
    let r : Request := reqT 0
    let q := partOf s p
    let sl := slotRec s p n
    let place := BitVec.ofNat 17 (drawPlace q + (runsOf 910 q.drawsAsked).length)
    reqOf s sl.request = some r
    ∧ 0 < q.drawsAsked.length
    ∧ q.drawsAsked.length ≤ 2048
    ∧ canonical {} s.store.slots = true
    ∧ (slotOf s place).hdr.state = .free := by decide +kernel

theorem wit_ReportsMasksAndWindows_1 :
    let s : State := bound
    let p : PartId := 2
    let n : Nat := 0
    let g : Grammar := gram
    let sl := slotRec s p n
    slotGrammar s sl = some g
    ∧ (grammarTiles g).all (tableTileOk s) = true
    ∧ sl.props = [] := by exact ⟨by decide +kernel, bound_ok, by decide +kernel⟩

theorem wit_ReportsMasksAndWindows_2 :
    let s : State := stream0 (decoding id id) { firstPos := some 3 }
    let p : PartId := 2
    let n : Nat := 0
    let pos : Nat := 3
    let q := partOf s p
    let sl := slotRec s p n
    inService sl = true
    ∧ (∀ r ∈ q.reports, r.slot ≠ n)
    ∧ (streamRec s p n).firstPos = some pos := by decide +kernel

theorem wit_ReportsMasksAndWindows_3 :
    let s : State := decoding id fun q => { q with reports := [{ slot := 0, pos := 3, epoch := 5 }] }
    let p : PartId := 2
    let n : Nat := 0
    let q := partOf s p
    (∃ r ∈ q.reports, r.slot = n) := by decide +kernel

theorem wit_ReportsMasksAndWindows_4 :
    let s : State := stream0 (decoding (fun x => { x with sent := [(5, 2), (6, 3)] }) fun q => { q with committed := 6, matched := 3 }) { marks := [(1, 1), (2, 2)] }
    let p : PartId := 2
    let e : Epoch := 5
    let q := partOf s p
    e.toNat ≤ q.committed.toNat
    ∧ q.matched.toNat < e.toNat
    ∧ (∀ x ∈ q.slots, processed s p e.toNat x = true)
    ∧ (∀ x ∈ q.slots, (streamRec s p x.1).firstPos = none) := by decide +kernel

theorem wit_ReportsMasksAndWindows_5 :
    let s : State := decoding id fun q => { q with committed := 4 }
    let p : PartId := 2
    let e : Epoch := 5
    let q := partOf s p
    (q.committed.toNat < e.toNat ∨ e.toNat ≤ q.matched.toNat) := by decide +kernel

theorem wit_ReportsMasksAndWindows_6 :
    let s : State := setTen (setPart (setPart {} 2 fun q => { q with steps := 3 }) 4 fun q => { q with steps := 9 }) 5 fun t => { t with soloUs := 100, actualUs := 250 }
    canonical {} s.gen.tenants = true
    ∧ (∀ x ∈ s.gen.tenants, x.1 < 512)
    ∧ canonical {} s.gen.parts = true := by decide +kernel

end E2

/-! ## Witnesses: text sets, release, tables -/

namespace E3

/-- Tile 0 holds a set of four tokens: a, b, c and the special d. -/ @[irreducible] def setTile : Bytes :=
  splice (splice (splice (splice (pad 300 []) 4 [4]) 24 [128]) 32 [200]) 128 ([0, 0, 0, 0, 0, 0, 0, 0, 1, 0, 0, 0, 0, 0, 0, 0, 2, 0, 0, 0, 0, 0, 0, 0, 3, 0, 0, 0, 128, 0, 0, 0] ++ List.replicate 40 0 ++ [97, 98, 99, 100])
def reqO : Request := { fn := 4, qp := 1, tag := 77, op := .generate, phase := .slot, block := { textBuf := 4096, textSize := 100, nSeq := 2 } }
/-- A generator's slot 0 with request 9. Its set lies in tile 0. -/
def slotG (h : TileHeader) (f : SlotRec → SlotRec) : State :=
  let s := setReq { ({} : State) with tier := { ({} : State).tier with
      dir := [(0, 0)], leaves := [(0, { cls := 0, homeTier := 2, valid := true })]
      lmem := [(0, { hdr := h, payload := setTile })] } } 9 reqO
  let s := setQp s 4 1 fun _ => { enable := true, state := .enabled, cqLog2 := 8 }
  setPart s 2 fun q => { q with state := .running, prog := some { kind := .generator }, slots := [(0, f { state := .decode, tenant := 4, request := 9, seq := 1 })] }
/-- Its header. -/ @[irreducible] def goodHdr : TileHeader := (goodTile setTile).hdr
def slotS (f : SlotRec → SlotRec) : State := slotG goodHdr f
def slotF (x : SlotRec) : SlotRec := { x with toks := [0, 1, 2, 3], sentTo := 4, len := 4 }
theorem bad_of (s : State) (k : BitVec 2) (l : List Nat) (e : setTiles s k = 0 :: l) (b : (setOf s k).base.toNat = 0)
    (h0 : tableTileOk s 0 = false) : badTile s k = some (0, 0) := by
  simp [badTile, e, h0, b]
theorem verify_of (s : State) (e : ExtentEntry) (h : entryOf s (devExtent 0) = some e) (hp : (readPlace e (devPos 0)).1 = 2) (hc : e.cls = 2)
    (h0 : tableTileOk s 0 = false) (b : Bool) : (verifyTile (s, b) 0).1 = s := by
  simp [verifyTile, h0, h, hp, recoverL, hc]
/-- A tile of these bytes with a wrong CRC. -/
def badCrc (b : Bytes) : Tile := { payload := b, hdr := { crc := tileCrc {} b + 1 } }
theorem badCrc_bad (b : Bytes) (h : b ≠ []) : (badCrc b).good = false := by
  unfold Tile.good; rw [Bool.or_eq_false_iff]
  refine ⟨decide_eq_false fun e => h (congrArg Tile.payload e), decide_eq_false ?_⟩
  show tileCrc {} b + 1 ≠ tileCrc {} b
  generalize tileCrc {} b = x; intro e; bv_omega
/-- Set 1 lies in tile 0, in a place without recovery and with a wrong CRC. -/ @[irreducible] def badBytes : Bytes := splice (splice (pad 200 []) 48 [0, 0, 32]) 56 [0, 0, 32]
def badSetG (h : TileHeader) : State :=
  putSet { ({} : State) with tier := { ({} : State).tier with
      dir := [(0, 0)], leaves := [(0, { cls := 2, copyTier := 2, valid := true })]
      lmem := [(0, { hdr := h, payload := badBytes })] } } 1 { state := .checking }
/-- Its header. -/ @[irreducible] def badHdr : TileHeader := (badCrc badBytes).hdr
def badSet : State := badSetG badHdr
theorem badSet_entry : entryOf badSet (devExtent 0) = some { cls := 2, copyTier := 2, valid := true } := by decide +kernel
theorem badSet_0 : tableTileOk badSet 0 = false := by
  rw [ok_of _ _ _ (devTile_of badSet 0 0 _ { hdr := badHdr, payload := badBytes } badSet_entry (by decide) rfl)]
  unfold badHdr; exact badCrc_bad badBytes (by decide +kernel)
theorem badSet_verify (b : Bool) : (verifyTile (badSet, b) 0).1 = badSet := verify_of _ _ badSet_entry (by decide) rfl badSet_0 b
theorem foldl_keeps (s : State) (l : List Nat) (h0 : ∀ b, (verifyTile (s, b) 0).1 = s) (h : (l.all fun n => n == 0 || tableTileOk s n) = true) :
    ∀ b, (l.foldl verifyTile (s, b)).1 = s := by
  induction l with
  | nil => intro b; rfl
  | cons n l ih =>
    intro b
    rw [List.all_cons, Bool.and_eq_true] at h
    have e : verifyTile (s, b) n = (s, (verifyTile (s, b) n).2) := by
      rcases (Bool.or_eq_true _ _).mp h.1 with e | e
      · rw [beq_iff_eq] at e; subst e; exact Prod.ext (h0 b) rfl
      · simp [verifyTile, e]
    rw [List.foldl_cons, e]; exact ih h.2 _
theorem badSet_state : (verifySet badSet 1).1 = badSet := by
  unfold verifySet verifyTiles
  split
  · rfl
  · exact foldl_keeps _ _ badSet_verify (by decide +kernel) _
theorem badSet_at : badTile (verifySet badSet 1).1 1 = some (0, 0) := by
  rw [badSet_state]
  exact bad_of badSet 1 (setTiles badSet 1).tail (by decide +kernel) (by decide +kernel) badSet_0
theorem slotS_ok : tableTileOk (slotS slotF) 0 = true := by
  rw [ok_of _ _ _ (devTile_of (slotS slotF) 0 0 { cls := 0, homeTier := 2, valid := true } { hdr := goodHdr, payload := setTile } (by decide +kernel) (by decide) rfl)]
  unfold goodHdr; exact goodTile_good setTile
/-- A table that partition 2 reads. -/
def tab0 (f : TableRec → TableRec) : TableRec := f { part := 2, rows := 4, refreshedAt := 100 }
def tabled (f : TableRec → TableRec) : State :=
  { setPart {} 2 (fun q => { q with refresh := 1 }) with gen := { (setPart {} 2 fun q => { q with refresh := 1 }).gen with tables := [(3, tab0 f)] }, bureau := { reqTimer := 1000100 } }


theorem wit_TokenizerSetsAreChecked_1 :
    let s : State := {}
    let k : BitVec 2 := 1
    (setOf s k).state ≠ .checking
    ∧ anyLoaded s = false := by decide +kernel

theorem wit_TokenizerSetsAreChecked_2 :
    let s : State := putSet {} 1 { state := .installed }
    let k : BitVec 2 := 1
    (setOf s k).state ≠ .checking
    ∧ anyLoaded s = false
    ∧ (setOf s k).state = .installed := by decide +kernel

theorem wit_TokenizerSetsAreChecked_3 :
    let s : State := {}
    let k : BitVec 2 := 1
    (setOf s k).state ≠ .checking
    ∧ anyLoaded s = false
    ∧ (setOf s k).state ≠ .installed := by decide +kernel

theorem wit_TokenizerSetsAreChecked_4 :
    let s : State := putSet {} 1 { state := .checking }
    let k : BitVec 2 := 1
    ((setOf s k).state = .checking ∨ anyLoaded s = true) := by decide +kernel

theorem wit_TokenizerSetsAreChecked_5 :
    let s : State := putSet {} 1 { state := .checking }
    let k : BitVec 2 := 1
    (setOf s k).state = .checking
    ∧ setVerified s k := by decide +kernel

theorem wit_TokenizerSetsAreChecked_6 :
    let s : State := badSet
    let k : BitVec 2 := 1
    let cause : Nat := 0
    let off : Nat := 0
    (setOf s k).state = .checking
    ∧ badTile (verifySet s k).1 k = some (cause, off) := by exact ⟨rfl, badSet_at⟩

theorem wit_TokenizerSetsAreChecked_7 :
    let s : State := {}
    let k : BitVec 2 := 1
    (setOf s k).state ≠ .checking := by decide +kernel

theorem wit_OutputIsReleasedToTheSafePoint_1 :
    let s : State := slotS slotF
    let p : PartId := 2
    let n : Nat := 0
    let m : Nat := 1
    let r : Request := reqO
    let sl := slotRec s p n
    let x := (newTokens s p n).foldl (fun x t => addToken s (partSet s p) r x t.1 t.2) (streamRec s p n)
    reqOf s sl.request = some r
    ∧ m < 2
    ∧ setVerified s (partSet s p)
    ∧ x.failed = false := by exact ⟨by decide +kernel, by decide, verified_but0 _ _ slotS_ok (by decide +kernel), by decide +kernel⟩

theorem wit_OutputIsReleasedToTheSafePoint_2 :
    let s : State := slotS slotF
    let p : PartId := 2
    let n : Nat := 0
    let m : Nat := 2
    let r : Request := reqO
    let sl := slotRec s p n
    reqOf s sl.request = some r
    ∧ 2 ≤ m := by decide +kernel

theorem wit_OutputIsReleasedToTheSafePoint_3 :
    let s : State := slotS fun x => { x with state := .ending }
    let p : PartId := 2
    let n : Nat := 0
    let r : Request := reqO
    let sl := slotRec s p n
    reqOf s sl.request = some r
    ∧ sl.state = .ending
    ∧ tokensTaken sl (streamRec s p n) = true
    ∧ 1 < r.block.nSeq
    ∧ r.seqDone = [] := by decide +kernel

theorem wit_OutputIsReleasedToTheSafePoint_4 :
    let s : State := slotS slotF
    let p : PartId := 2
    let n : Nat := 0
    let r : Request := reqO
    let sl := slotRec s p n
    reqOf s sl.request = some r
    ∧ sl.state ≠ .ending := by decide +kernel

theorem wit_TablesTakeWorkAndAreRefreshed_21 :
    let s : State := { tabled id with bureau := { reqTimer := 1000099 } }
    let n : BitVec 6 := 3
    let r : TableRec := tab0 id
    tableOf s n.toNat = some r
    ∧ (ownsTable s r = false ∨ since r.refreshedAt (now s) < (partOf s r.part).refreshUsed.toNat * 1000000) := by decide +kernel

theorem wit_TablesTakeWorkAndAreRefreshed_22 :
    let r : TableRec := tab0 fun r => { r with batch := some {} }
    let s : State := tabled fun r => { r with batch := some {} }
    let n : BitVec 6 := 3
    tableOf s n.toNat = some r
    ∧ ownsTable s r = true
    ∧ (partOf s r.part).refreshUsed.toNat * 1000000 ≤ since r.refreshedAt (now s)
    ∧ r.batch.isSome = true := by decide +kernel

theorem wit_TablesTakeWorkAndAreRefreshed_23 :
    let s : State := tabled id
    let n : BitVec 6 := 3
    let r : TableRec := tab0 id
    tableOf s n.toNat = some r
    ∧ ownsTable s r = true
    ∧ (partOf s r.part).refreshUsed.toNat * 1000000 ≤ since r.refreshedAt (now s)
    ∧ r.batch = none := by decide +kernel

end E3

/-! ## Witnesses: host attachment -/

namespace F1

/-- Queue pair 1 of function 4. -/
def qp41 (f : QueuePair → QueuePair) : State := setQp {} 4 1 fun p => f { p with enable := true, state := .enabled, cqLog2 := 8, dbAddr := 64 }
/-- A window of 2 GiB, the host in GiB 0 and tenant 5 in GiB 1. -/
def windowed : State := { tier := { windowSize := 2, windowTenant := [(1, 5)] } }
/-- Vector 3 of function 4. -/
def vec43 (f : Vector → Vector) : State := { setVec {} 4 3 f with bureau := { reqTimer := 1000 } }
/-- A completion without payload. -/
def tok0 : Completion := { tag := 9, body := .tokens 0 1 0 0 0, urgent := true }


theorem wit_HostLinkAndDoorbells_1 :
    let w : BitVec 8 := 8
    let g : BitVec 8 := 64
    w.toNat ∈ [4, 8, 16]
    ∧ g.toNat ∈ [32, 64] := by decide +kernel

theorem wit_HostLinkAndDoorbells_3 :
    let fn : Tenant := 4
    let s : State := { qp41 (fun p => { p with pinned := true }) with host := { (qp41 fun p => { p with pinned := true }).host with ats := [{ fn := 4, pasid := none, page := 5 }, { fn := 4, pasid := none, page := 6 }] } }
    let q : BitVec 3 := 1
    let p := qpOf s fn q
    p.pinned = true := by decide +kernel

theorem wit_HostLinkAndDoorbells_4 :
    let s : State := qp41 id
    let fn : Tenant := 4
    let q : BitVec 3 := 1
    let p := qpOf s fn q
    p.pinned = false := by decide +kernel

theorem wit_HostLinkAndDoorbells_5 :
    let s : State := qp41 id
    let fn : Tenant := 4
    let q : BitVec 3 := 1
    let p := qpOf s fn q
    p.rereads = 0 := by decide +kernel

theorem wit_HostLinkAndDoorbells_6 :
    let s : State := qp41 fun p => { p with rereads := 1, fetched := [{ handle := 7, desc := {} }] }
    let fn : Tenant := 4
    let q : BitVec 3 := 1
    let l : DoorbellLine := { sqTail := 100 }
    let p := qpOf s fn q
    let c : Nat := 1
    0 < p.rereads
    ∧ p.state = .enabled
    ∧ lineError (if l.translates then { p with sqTail := l.sqTail } else p) l = some c
    ∧ p.waiting = [] := by decide +kernel

theorem wit_HostLinkAndDoorbells_7 :
    let s : State := { qp41 (fun p => { p with rereads := 1 }) with host := { (qp41 fun p => { p with rereads := 1 }).host with cacheEn := true } }
    let fn : Tenant := 4
    let q : BitVec 3 := 1
    let l : DoorbellLine := { sqTail := 1, cqHead := 0 }
    let d : Descriptor := { opcode := 0 }
    let op : Opcode := (Opcode.ofByte 0).getD .turn
    let p := qpOf s fn q
    0 < p.rereads
    ∧ p.state = .enabled
    ∧ lineError { p with sqTail := l.sqTail } l = none
    ∧ l.translates = true
    ∧ l.sqTail ≠ p.sqHead
    ∧ s.host.cacheEn = true
    ∧ s.host.fetchStopped = false
    ∧ heldByFence s p = false
    ∧ (p.cqTail - l.cqHead).toNat + 8 ≤ cqSize p
    ∧ Opcode.ofByte d.opcode.toNat = some op := by decide +kernel

theorem wit_HostLinkAndDoorbells_8 :
    let s : State := qp41 fun p => { p with rereads := 1 }
    let fn : Tenant := 4
    let q : BitVec 3 := 1
    let l : DoorbellLine := { sqTail := 1, cqHead := 0 }
    let p := qpOf s fn q
    0 < p.rereads
    ∧ p.state = .enabled
    ∧ l.translates = true
    ∧ s.host.cacheEn = false
    ∧ lineError { p with sqTail := l.sqTail } l = none := by decide +kernel

theorem wit_WindowAccessesOfTheHost_1 :
    let s : State := { windowed with tier := { windowed.tier with hostLines := [2, 3] } }
    let a : Nat := 2 ^ 31
    windowBytes s ≤ a := by decide +kernel

theorem wit_WindowAccessesOfTheHost_2 :
    let s : State := { windowed with tier := { windowed.tier with hostLines := [2, 3] } }
    let a : Nat := 2 ^ 30
    a < windowBytes s
    ∧ hostMay s (a / 2 ^ 30) = false := by decide +kernel

theorem wit_WindowAccessesOfTheHost_3 :
    let s : State := { windowed with tier := { windowed.tier with hostLines := [2, 3] } }
    let a : Nat := 128
    a < windowBytes s
    ∧ hostMay s (a / 2 ^ 30) = true
    ∧ (∀ w ∈ s.tier.windowWrites, w.1 / 64 ≠ a / 64)
    ∧ windowRetrains s a = false := by decide +kernel

theorem wit_WindowAccessesOfTheHost_4 :
    let s : State := { windowed with tier := { windowed.tier with windowWrites := [(130, [1])] } }
    let a : Nat := 128
    a < windowBytes s
    ∧ hostMay s (a / 2 ^ 30) = true
    ∧ ((∃ w ∈ s.tier.windowWrites, w.1 / 64 = a / 64) ∨ windowRetrains s a = true) := by decide +kernel

theorem wit_WindowAccessesOfTheHost_5 :
    let s : State := { windowed with tier := { windowed.tier with retraining := (List.range 64).map (BitVec.ofNat 8) } }
    let a : Nat := 128
    a < windowBytes s
    ∧ hostMay s (a / 2 ^ 30) = true
    ∧ windowRetrains s a = true := by decide +kernel

theorem wit_WindowAccessesOfTheHost_6 :
    let s : State := { windowed with tier := { windowed.tier with hostLines := [2, 3] } }
    let a : Nat := 128
    a < windowBytes s
    ∧ hostMay s (a / 2 ^ 30) = true
    ∧ windowRetrains s a = false := by decide +kernel

theorem wit_WindowAccessesOfTheHost_7 :
    let s : State := { windowed with tier := { windowed.tier with hostLines := [2, 3] } }
    let a : Nat := 128
    let data : Bytes := (List.range 64).map fun i => BitVec.ofNat 8 (i + 1)
    a < windowBytes s
    ∧ hostMay s (a / 2 ^ 30) = true
    ∧ data.length = 64
    ∧ a % 64 = 0
    ∧ windowRetrains s a = false := by decide +kernel

theorem wit_WindowAccessesOfTheHost_8 :
    let s : State := { windowed with tier := { windowed.tier with hostLines := [2, 3] } }
    s.tier.windowWrites = []
    ∧ s.tier.windowReads = [] := by decide +kernel

theorem wit_WindowAccessesOfTheHost_9 :
    let s : State := { windowed with tier := { windowed.tier with windowWrites := [(128, (List.range 64).map fun i => BitVec.ofNat 8 (i + 1))] } }
    let a : Nat := 128
    let k : Nat := 2
    let data : Bytes := (List.range 64).map fun i => BitVec.ofNat 8 (i + 1)
    s.tier.windowWrites = [(a, data)]
    ∧ s.tier.windowReads = []
    ∧ a / 64 = k
    ∧ windowRetrains s a = false
    ∧ a < s.tier.windowSize.toNat * 2 ^ 30 := by decide +kernel

theorem wit_CompletionsInterruptsAndResets_1 :
    let s : State := qp41 id
    let fn : Tenant := 4
    let q : BitVec 3 := 1
    let p := qpOf s fn q
    (p.waiting = [] ∨ p.state ≠ .enabled ∨ cqSize p ≤ cqUsed p) := by decide +kernel

theorem wit_CompletionsInterruptsAndResets_2 :
    let s : State := qp41 fun p => { p with waiting := [tok0] }
    let fn : Tenant := 4
    let q : BitVec 3 := 1
    let c : Completion := tok0
    let rest : List Completion := []
    let p := qpOf s fn q
    p.waiting = c :: rest
    ∧ p.state = .enabled
    ∧ cqUsed p < cqSize p
    ∧ c.payload = []
    ∧ c.closes = none
    ∧ c.body.kind ≠ 0
    ∧ s.tier.windowWrites = []
    ∧ s.tier.windowReads = [] := by decide +kernel

theorem wit_CompletionsInterruptsAndResets_3 :
    let s : State := qp41 fun p => { p with waiting := [tok0] }
    let fn : Tenant := 4
    let q : BitVec 3 := 1
    let c : Completion := tok0
    let rest : List Completion := []
    let p := qpOf s fn q
    p.waiting = c :: rest
    ∧ p.state = .enabled
    ∧ cqUsed p < cqSize p
    ∧ rest = []
    ∧ c.closes = none := by decide +kernel

theorem wit_CompletionsInterruptsAndResets_4 :
    let s : State := vec43 fun x => { x with time := 100, oldest := some 901 }
    let fn : Tenant := 4
    let v : BitVec 4 := 3
    let x := vecOf s fn v
    (∀ t, x.oldest = some t → since t (now s) < x.time.toNat) := by intro s fn v x t h; have e : x.oldest = some 901 := (by decide +kernel); rw [e] at h; obtain rfl := Option.some.inj h; decide +kernel

theorem wit_CompletionsInterruptsAndResets_5 :
    let s : State := vec43 fun x => { x with time := 100, oldest := some 900, masked := false }
    let fn : Tenant := 4
    let v : BitVec 4 := 3
    let x := vecOf s fn v
    let t : BitVec 48 := 900
    x.oldest = some t
    ∧ x.time ≠ 0
    ∧ x.time.toNat ≤ since t (now s) := by decide +kernel

theorem wit_CompletionsInterruptsAndResets_6 :
    let s : State := vec43 fun x => { x with time := 100, oldest := some 900, masked := false }
    let fn : Tenant := 4
    let v : BitVec 4 := 3
    let x := vecOf s fn v
    let t : BitVec 48 := 900
    x.oldest = some t
    ∧ x.time ≠ 0
    ∧ x.time.toNat ≤ since t (now s)
    ∧ x.masked = false := by decide +kernel

theorem wit_CompletionsInterruptsAndResets_7 :
    let s : State := vec43 fun x => { x with time := 100, oldest := some 900 }
    let fn : Tenant := 4
    let v : BitVec 4 := 3
    let x := vecOf s fn v
    let t : BitVec 48 := 900
    x.oldest = some t
    ∧ x.time ≠ 0
    ∧ x.time.toNat ≤ since t (now s)
    ∧ x.masked = true := by decide +kernel

theorem wit_CompletionsInterruptsAndResets_9 :
    let s : State := { qp41 id with tier := { hostLines := [3] } }
    s.power.resetting = none
    ∧ s.host.requests = []
    ∧ s.tier.windowWrites = []
    ∧ (∀ k y, mfind s.host.qps k = some y → k < 4096 ∧ y.waiting = []) := by refine ⟨rfl, rfl, rfl, fun k y h => ?_⟩; have e : (qp41 id).host.qps = [(qpKey 4 1, { enable := true, state := .enabled, cqLog2 := 8, dbAddr := 64 })] := (by decide +kernel); rw [show State.host _ = (qp41 id).host from rfl, e] at h; simp only [mfind] at h; by_cases hk : k = qpKey 4 1; (subst hk; simp only [if_true] at h; obtain rfl := Option.some.inj h; exact ⟨by decide +kernel, rfl⟩); (rw [if_neg (fun hh => hk (by simpa using hh.symm))] at h; cases h)

theorem wit_CompletionsInterruptsAndResets_10 :
    let s : State := { power := { resetting := some .warm } }
    s.power.resetting = some .warm := by decide +kernel

end F1

/-! ## Witnesses: descriptors -/

namespace G1

/-- Queue pair 1 of function 4 with fetched descriptors; tenant 4 may use partitions 2 to 4 and owns index 5. -/
def front (l : List Fetched) : State :=
  let s := setQp {} 4 1 fun p => { p with enable := true, state := .enabled, cqLog2 := 8, dbAddr := 64, fetched := l }
  let s := setTen s 4 fun t => { t with serve := 0x1C }
  let s := setPart s 2 fun q => { q with state := .running, prog := some { kind := .generator, vocab := 100, maxContext := 100, tokSet := 1 } }
  let s := setPart s 3 fun q => { q with state := .running, prog := some { kind := .encoder, vocab := 100, dim := 4 } }
  let s := setPart s 4 fun q => { q with state := .running, prog := some { kind := .rerank, vocab := 100 } }
  { s with gen := { s.gen with indexes := [(5, { tenant := 4, dim := 4, beam := 8 })] } }
/-- A descriptor with handle 7. -/
def fd (d : Descriptor) : Fetched := { handle := 7, desc := { d with tag := 77 } }
/-- A block of 256 bytes and more with fields set. -/
def block (n : Nat) (l : List (Nat × List (BitVec 8))) : Bytes :=
  l.foldl (fun b x => splice b x.1 x.2) (splice (splice (pad n []) 0 [1]) 4 (toLE 4 n) |> fun b => splice b 152 [255, 255, 255, 255])
/-- A turn without retrieval: 2 tokens at most, TEXT_SIZE 768. -/
def turnB : Bytes := block 256 [(2, [2]), (8, [3]), (9, [255]), (10, [2]), (56, [0, 3]), (140, [2])]
def genB : Bytes := block 264 [(10, [2]), (56, [0, 3]), (140, [2]), (224, [0, 1, 0, 0, 8]), (256, [3, 0, 0, 0, 4]), (232, [2])]
def searchB : Bytes := block 272 [(9, [255]), (11, [5]), (13, [8]), (14, [2]), (15, [1]), (16, [4]), (18, [2]), (224, [0, 1, 0, 0, 16])]
def rerankB : Bytes := [1, 0, 0, 0, 1, 0, 0, 0, 5, 0, 0, 0, 0, 0, 0, 0, 9, 0, 0, 0, 0, 0, 0, 0]
def openTurn9 (b : TurnBlock) : Request := { fn := 4, qp := 1, tag := 55, op := .turn, phase := .stream, streamOpen := true, block := b }
def withReq (s : State) (h : Nat) (r : Request) : State := setReq s h r


theorem wit_DescriptorsAreJudgedInOrder_1 :
    let s : State := front []
    let fn : Tenant := 4
    let q : BitVec 3 := 1
    let v : HostView := {}
    let c := Instr.nop fn q v
    let op : Opcode := .nop
    (c, op) ∈ [(Instr.nop fn q v, Opcode.nop), (.turn fn q v, .turn), (.textAppend fn q v, .textAppend), (.embed fn q v, .embed), (.search fn q v, .search), (.rerank fn q v, .rerank), (.generate fn q v, .generate), (.tokenize fn q v, .tokenize), (.detokenize fn q v, .detokenize), (.indexDelete fn q v, .indexDelete), (.rowLookup fn q v, .rowLookup), (.rowUpdate fn q v, .rowUpdate), (.loadExtent fn q v, .loadExtent), (.adapterLoad fn q v, .adapterLoad), (.grammarLoad fn q v, .grammarLoad),(.fence fn q v, .fence)]
    ∧ (qpOf s fn q).fetched = [] := by decide +kernel

theorem wit_DescriptorsAreJudgedInOrder_2 :
    let f : Fetched := fd { opcode := 6 }
    let s : State := front [f]
    let fn : Tenant := 4
    let q : BitVec 3 := 1
    let v : HostView := {}
    let rest : List Fetched := []
    let c := Instr.nop fn q v
    let op : Opcode := .nop
    (c, op) ∈ [(Instr.nop fn q v, Opcode.nop), (.turn fn q v, .turn), (.textAppend fn q v, .textAppend), (.embed fn q v, .embed), (.search fn q v, .search), (.rerank fn q v, .rerank), (.generate fn q v, .generate), (.tokenize fn q v, .tokenize), (.detokenize fn q v, .detokenize), (.indexDelete fn q v, .indexDelete), (.rowLookup fn q v, .rowLookup), (.rowUpdate fn q v, .rowUpdate), (.loadExtent fn q v, .loadExtent), (.adapterLoad fn q v, .adapterLoad), (.grammarLoad fn q v, .grammarLoad),(.fence fn q v, .fence)]
    ∧ (qpOf s fn q).fetched = f :: rest
    ∧ Opcode.ofByte f.desc.opcode.toNat ≠ some op := by decide +kernel

theorem wit_DescriptorsAreJudgedInOrder_3 :
    let f : Fetched := fd { rsvd := 1 }
    let s : State := front [f]
    let fn : Tenant := 4
    let q : BitVec 3 := 1
    let v : HostView := {}
    let rest : List Fetched := []
    let c := Instr.nop fn q v
    let op : Opcode := .nop
    let x : Reject := badAt 2
    (c, op) ∈ [(Instr.nop fn q v, Opcode.nop), (.turn fn q v, .turn), (.textAppend fn q v, .textAppend), (.embed fn q v, .embed), (.search fn q v, .search), (.rerank fn q v, .rerank), (.generate fn q v, .generate), (.tokenize fn q v, .tokenize), (.detokenize fn q v, .detokenize), (.indexDelete fn q v, .indexDelete), (.rowLookup fn q v, .rowLookup), (.rowUpdate fn q v, .rowUpdate), (.loadExtent fn q v, .loadExtent), (.adapterLoad fn q v, .adapterLoad), (.grammarLoad fn q v, .grammarLoad),(.fence fn q v, .fence)]
    ∧ (qpOf s fn q).fetched = f :: rest
    ∧ Opcode.ofByte f.desc.opcode.toNat = some op
    ∧ (firstChecks s fn op f v).findSome? id = some x := by decide +kernel

theorem wit_DescriptorsAreJudgedInOrder_4 :
    let f : Fetched := fd {}
    let s : State := front [f]
    let fn : Tenant := 4
    let q : BitVec 3 := 1
    let v : HostView := {}
    let rest : List Fetched := []
    let u := accepted s fn q .nop f rest v
    frontOk s fn q .nop f rest v
    ∧ passes (accessChecks u fn (gibsOf f.desc)) := by unfold frontOk passes; decide +kernel

theorem wit_DescriptorsAreJudgedInOrder_5 :
    let f : Fetched := fd {}
    let s : State := front [f]
    let fn : Tenant := 4
    let q : BitVec 3 := 1
    let v : HostView := {}
    let rest : List Fetched := []
    let u := accepted s fn q .nop f rest v
    frontOk s fn q .nop f rest v
    ∧ passes (accessChecks u fn (gibsOf f.desc))
    ∧ canPost s fn q := by unfold frontOk passes; decide +kernel

theorem wit_DescriptorsAreJudgedInOrder_6 :
    let r : Request := openTurn9 {}
    let s : State := withReq (front []) 9 r
    let fn : Tenant := 4
    let h : Nat := 9
    let x : Reject := badAt 2
    reqOf s h = some r
    ∧ r.phase ≠ .ending
    ∧ r.remote = false
    ∧ x.deny = none
    ∧ canPost s r.fn r.qp := by decide +kernel

theorem wit_DescriptorsAreJudgedInOrder_7 :
    let r : Request := openTurn9 {}
    let s : State := withReq (front []) 9 r
    let fn : Tenant := 4
    let h : Nat := 9
    let x : Reject := badAt 2
    let k : Nat := 8
    reqOf s h = some r
    ∧ r.phase ≠ .ending
    ∧ r.remote = false
    ∧ x.deny = none
    ∧ canPost s r.fn r.qp
    ∧ k ≠ h := by decide +kernel

theorem wit_DataPlaneRequestsStart_1 :
    let f : Fetched := fd { opcode := 1, paramLen := 256 }
    let s : State := front [f]
    let fn : Tenant := 4
    let q : BitVec 3 := 1
    let v : HostView := { param := turnB }
    let rest : List Fetched := []
    let u := fun op => accepted s fn q op f rest v
    let r0 := fun op => newRequest s fn q op f.desc (paramBytes s f.desc v)
    let b := readBlock (paramBytes s f.desc v)
    frontOk s fn q .turn f rest v
    ∧ passes (turnChecks (u .turn) (r0 .turn))
    ∧ s.pair.link ≠ .up
    ∧ b.input = [] := by unfold frontOk passes; decide +kernel

theorem wit_DataPlaneRequestsStart_2 :
    let f : Fetched := fd { opcode := 2, paramLen := 1, argC := 55 }
    let r : Request := openTurn9 { genPart := 2 }
    let s : State := withReq (front [f]) 9 r
    let fn : Tenant := 4
    let q : BitVec 3 := 1
    let v : HostView := { param := [97] }
    let rest : List Fetched := []
    let h : Nat := 9
    let u := fun op => accepted s fn q op f rest v
    frontOk s fn q .textAppend f rest v
    ∧ passes (accessChecks (u .textAppend) fn (gibsOf f.desc))
    ∧ s.pair.link ≠ .up
    ∧ canPost s fn q
    ∧ openTurnOf (u .textAppend) fn q f.desc.argC = some h
    ∧ h ≠ f.handle
    ∧ reqOf s h = some r
    ∧ f.desc.opflags.getLsbD 0 = false
    ∧ (∀ k ∈ turnSets s r.fn r.block, setVerified s k ∧ (tokenizeOpen s k (r.text ++ paramBytes s f.desc v)).length ≤ 16384) := by refine ⟨by unfold frontOk passes; decide +kernel, by unfold passes; decide +kernel, ?_⟩; decide +kernel

theorem wit_DataPlaneRequestsStart_3 :
    let r : Request := openTurn9 { hardDeadline := 100 }
    let s : State := withReq (front []) 9 r
    let h : Nat := 9
    reqOf s h = some r
    ∧ r.op = .turn
    ∧ r.phase = .stream
    ∧ r.streamOpen = true
    ∧ endOverdue s r = false := by decide +kernel

theorem wit_DataPlaneRequestsStart_4 :
    let r : Request := openTurn9 { hardDeadline := 100 }
    let s : State := { withReq (front []) 9 r with bureau := { reqTimer := 200 } }
    let fn : Tenant := 4
    let h : Nat := 9
    reqOf s h = some r
    ∧ r.op = .turn
    ∧ r.phase = .stream
    ∧ r.streamOpen = true
    ∧ endOverdue s r = true
    ∧ r.remote = false
    ∧ r.ret.snap = none
    ∧ canPost s r.fn r.qp := by decide +kernel

theorem wit_DataPlaneRequestsStart_5 :
    let f : Fetched := fd { opcode := 3, paramLen := 8, argA := 3, opflags := 1, resultAddr := 4096, resultLen := 4096 }
    let s : State := front [f]
    let fn : Tenant := 4
    let q : BitVec 3 := 1
    let v : HostView := { param := [1, 0, 0, 0, 2, 0, 0, 0] }
    let rest : List Fetched := []
    let u := fun op => accepted s fn q op f rest v
    let r0 := fun op => newRequest s fn q op f.desc (paramBytes s f.desc v)
    frontOk s fn q .embed f rest v
    ∧ passes (embedChecks (u .embed) (r0 .embed))
    ∧ f.desc.opflags.getLsbD 0 = true := by unfold frontOk passes; decide +kernel

theorem wit_DataPlaneRequestsStart_6 :
    let f : Fetched := fd { opcode := 3, paramLen := 1, argA := 3, resultAddr := 4096, resultLen := 4096 }
    let s : State := front [f]
    let fn : Tenant := 4
    let q : BitVec 3 := 1
    let v : HostView := { param := [97] }
    let rest : List Fetched := []
    let u := fun op => accepted s fn q op f rest v
    let r0 := fun op => newRequest s fn q op f.desc (paramBytes s f.desc v)
    let n := f.desc.argA.toNat % 32
    let k := BitVec.ofNat 2 (((progOf s n).map (·.tokSet)).getD 0)
    frontOk s fn q .embed f rest v
    ∧ passes (embedChecks (u .embed) (r0 .embed))
    ∧ f.desc.opflags.getLsbD 0 = false
    ∧ setVerified s k := by unfold frontOk passes; decide +kernel

theorem wit_DataPlaneRequestsStart_7 :
    let f : Fetched := fd { opcode := 4, paramLen := 272, resultAddr := 4096, resultLen := 16384 }
    let s : State := front [f]
    let fn : Tenant := 4
    let q : BitVec 3 := 1
    let v : HostView := { param := searchB }
    let rest : List Fetched := []
    let u := fun op => accepted s fn q op f rest v
    let r0 := fun op => newRequest s fn q op f.desc (paramBytes s f.desc v)
    frontOk s fn q .search f rest v
    ∧ passes (searchChecks (u .search) (r0 .search)) := by unfold frontOk passes; decide +kernel

theorem wit_DataPlaneRequestsStart_8 :
    let f : Fetched := fd { opcode := 5, paramLen := 24, argA := 0x504, resultAddr := 4096, resultLen := 16384 }
    let s : State := front [f]
    let fn : Tenant := 4
    let q : BitVec 3 := 1
    let v : HostView := { param := rerankB }
    let rest : List Fetched := []
    let u := fun op => accepted s fn q op f rest v
    let r0 := fun op => newRequest s fn q op f.desc (paramBytes s f.desc v)
    frontOk s fn q .rerank f rest v
    ∧ passes (rerankChecks (u .rerank) (r0 .rerank)) := by unfold frontOk passes; decide +kernel

theorem wit_DataPlaneRequestsStart_9 :
    let f : Fetched := fd { opcode := 6, paramLen := 264 }
    let s : State := front [f]
    let fn : Tenant := 4
    let q : BitVec 3 := 1
    let v : HostView := { param := genB }
    let rest : List Fetched := []
    let u := fun op => accepted s fn q op f rest v
    let r0 := fun op => newRequest s fn q op f.desc (paramBytes s f.desc v)
    frontOk s fn q .generate f rest v
    ∧ passes (generateChecks (u .generate) (r0 .generate))
    ∧ s.pair.link ≠ .up := by unfold frontOk passes; decide +kernel

end G1

/-! ## Witnesses: text, index and table descriptors -/

namespace G2

/-- Tile 0 holds a set of four tokens: a, b, c and the special d. -/ @[irreducible] def setTile : Bytes :=
  splice (splice (splice (splice (pad 300 []) 4 [4]) 24 [128]) 32 [200]) 128 ([0, 0, 0, 0, 0, 0, 0, 0, 1, 0, 0, 0, 0, 0, 0, 0, 2, 0, 0, 0, 0, 0, 0, 0, 3, 0, 0, 0, 128, 0, 0, 0] ++ List.replicate 40 0 ++ [97, 98, 99, 100])
/-- Queue pair 1 of a function with a fetched descriptor. -/
def front (fn : Tenant) (l : List Fetched) (s : State) : State := setQp s fn 1 fun p => { p with enable := true, state := .enabled, cqLog2 := 8, dbAddr := 64, fetched := l }
/-- The header of its tile. -/ @[irreducible] def goodHdr : TileHeader := (goodTile setTile).hdr
def sets : State :=
  putSet { ({} : State) with tier := { ({} : State).tier with
      dir := [(0, 0)], leaves := [(0, { cls := 0, homeTier := 2, valid := true })]
      lmem := [(0, { hdr := goodHdr, payload := setTile })] } } 1 { state := .installed }
theorem front_ok (l : List Fetched) (hs : entryOf (front 0 l sets) (devExtent 0) = some { cls := 0, homeTier := 2, valid := true }) :
    tableTileOk (front 0 l sets) 0 = true := by
  rw [ok_of _ _ _ (devTile_of (front 0 l sets) 0 0 { cls := 0, homeTier := 2, valid := true } { hdr := goodHdr, payload := setTile } hs (by decide) rfl)]
  unfold goodHdr; exact goodTile_good setTile
/-- A descriptor with handle 7. -/
def fd (d : Descriptor) : Fetched := { handle := 7, desc := { d with tag := 77 } }
/-- Index 5 of tenant 4: one centroid, one dimension; its data lie in tiles 16 to 22. -/
def ix (f : IndexRec → IndexRec) : IndexRec := f { tenant := 4, dim := 1, pqM := 0, beam := 8, centroids := 2, entryCount := 1, centBase := 16384 * 16, recBase := 16384 * 17, graphBase := 16384 * 18, entryBase := 16384 * 19, listdirBase := 16384 * 20, passageBase := 16384 * 21, insertBase := 16384 * 22, deltaBase := 16384 * 128, tombBase := 16384 * 129, deltaTiles := 1, tombTiles := 1, entryBytes := 24 }
def indexed (f : IndexRec → IndexRec) (s : State) : State := { s with gen := { s.gen with indexes := [(5, ix f)] } }
/-- Tile 22 is mapped, with a passage block of tenant 4. -/
def blk22 : State := withTile (withTile {} 16 []) 22 (splice (pad 64 []) 8 [0, 0, 0, 0, 128, 4, 0, 1])
/-- An insert item of one dimension and a block of 64 bytes. -/
def item1 : Bytes := splice (splice (pad 2068 []) 0 [4]) 8 [64]
/-- A turn in its walk. -/
def walking (s : State) : State := setReq s 9 { fn := 4, qp := 1, tag := 55, op := .turn, phase := .walk }
/-- Table 3 of tenant 4, read by partition 2. -/
def tabled (own : Bool) (s : State) : State :=
  let s := setPart (setTen s 4 fun t => { t with serve := 0x1C }) 2 fun q => { q with state := .running, prog := some { kind := .generator } }
  { s with gen := { s.gen with tables := [(3, { tenant := 4, part := 2, cols := 32, rows := 4, ownerPos := own })] } }
/-- Paired with a link that carries traffic. -/
def paired (s : State) : State := { s with pair := { s.pair with enable := true, link := .up } }


theorem wit_TextIsAnsweredInPlace_1 :
    let f : Fetched := fd { opcode := 7, paramLen := 2, argA := 1, resultAddr := 4096, resultLen := 64 }
    let s : State := front 0 [f] sets
    let fn : Tenant := 0
    let q : BitVec 3 := 1
    let v : HostView := { param := [97, 98] }
    let rest : List Fetched := []
    let u := fun op => accepted s fn q op f rest v
    let r0 := fun op => newRequest s fn q op f.desc (paramBytes s f.desc v)
    let k := BitVec.ofNat 2 f.desc.argA.toNat
    let p := paramBytes s f.desc v
    let t := tokenize s k (f.desc.opflags.getLsbD 0) p
    canPost s fn q
    ∧ setVerified s k
    ∧ frontOk s fn q .tokenize f rest v
    ∧ passes (setChecks (u .tokenize) (r0 .tokenize) ++ accessChecks (u .tokenize) fn (gibsOf f.desc))
    ∧ t.replaced = 0 := by exact ⟨by decide +kernel, verified_but0 _ _ (front_ok _ (by decide +kernel)) (by decide +kernel), by unfold frontOk passes; decide +kernel⟩

theorem wit_TextIsAnsweredInPlace_2 :
    let f : Fetched := fd { opcode := 8, opflags := 1, paramLen := 8, argA := 1, resultAddr := 4096, resultLen := 0 }
    let s : State := front 0 [f] sets
    let fn : Tenant := 0
    let q : BitVec 3 := 1
    let v : HostView := { param := [0, 0, 0, 0, 3, 0, 0, 0] }
    let rest : List Fetched := []
    let u := fun op => accepted s fn q op f rest v
    let r0 := fun op => newRequest s fn q op f.desc (paramBytes s f.desc v)
    let k := BitVec.ofNat 2 f.desc.argA.toNat
    let p := paramBytes s f.desc v
    canPost s fn q
    ∧ setVerified s k
    ∧ frontOk s fn q .detokenize f rest v
    ∧ f.desc.opflags.getLsbD 0 = true
    ∧ passes (setChecks (u .detokenize) (r0 .detokenize) ++ [badParam (idsBelow p 0 (p.length / 4) (setVocab s k))] ++ accessChecks (u .detokenize) fn (gibsOf f.desc)) := by exact ⟨by decide +kernel, verified_but0 _ _ (front_ok _ (by decide +kernel)) (by decide +kernel), by unfold frontOk passes; decide +kernel⟩

theorem wit_IndexBatchesAreWhole_1 :
    let f : Fetched := fd { opcode := 0x10, argA := 0x105, paramLen := 2068, resultAddr := 4096, resultLen := 64 }
    let s : State := indexed id (front 4 [f] blk22)
    let fn : Tenant := 4
    let q : BitVec 3 := 1
    let v : HostView := { param := item1 }
    let rest : List Fetched := []
    let r : IndexRec := ix id
    let u := fun op => accepted s fn q op f rest v
    let r0 := fun op => newRequest s fn q op f.desc (paramBytes s f.desc v)
    let x := f.desc.argA.toNat % 256
    let n := itemCount (r0 .indexInsert)
    let p := paramBytes s f.desc v
    let free := indexOf s x = some r ∧ r.batch = none ∧ r.queue = [] ∧ mutRole s fn none = .alone ∧ canPost s fn q
    let insertOk := passes ([badParam (insertChecks fn r.dim n p)] ++ batchChecks (u .indexInsert) (r0 .indexInsert) ++ [roomFor f.desc (8 * n)])
    free
    ∧ frontOk s fn q .indexInsert f rest v
    ∧ f.desc.opflags.getLsbD 0 = false
    ∧ insertOk := by unfold frontOk passes; decide +kernel

theorem wit_IndexBatchesAreWhole_2 :
    let f : Fetched := fd { opcode := 0x10, opflags := 1, argA := 0x105, paramLen := 8 }
    let s : State := indexed id (front 4 [f] blk22)
    let fn : Tenant := 4
    let q : BitVec 3 := 1
    let v : HostView := { param := [1, 0, 0, 0, 0, 0, 0, 0] }
    let rest : List Fetched := []
    let r : IndexRec := ix id
    let u := fun op => accepted s fn q op f rest v
    let r0 := fun op => newRequest s fn q op f.desc (paramBytes s f.desc v)
    let x := f.desc.argA.toNat % 256
    let n := itemCount (r0 .indexInsert)
    let p := paramBytes s f.desc v
    let free := indexOf s x = some r ∧ r.batch = none ∧ r.queue = [] ∧ mutRole s fn none = .alone ∧ canPost s fn q
    let patchOk := passes ([badParam (patchChecks s r n p)] ++ batchChecks (u .indexInsert) (r0 .indexInsert))
    free
    ∧ frontOk s fn q .indexInsert f rest v
    ∧ f.desc.opflags.getLsbD 0 = true
    ∧ patchOk := by unfold frontOk passes; decide +kernel

theorem wit_IndexBatchesAreWhole_3 :
    let f : Fetched := fd { opcode := 0x11, argA := 0x105, paramLen := 8 }
    let s : State := indexed id (front 4 [f] blk22)
    let fn : Tenant := 4
    let q : BitVec 3 := 1
    let v : HostView := { param := [8, 0, 0, 0, 128, 0, 0, 0] }
    let rest : List Fetched := []
    let r : IndexRec := ix id
    let u := fun op => accepted s fn q op f rest v
    let r0 := fun op => newRequest s fn q op f.desc (paramBytes s f.desc v)
    let x := f.desc.argA.toNat % 256
    let n := itemCount (r0 .indexInsert)
    let p := paramBytes s f.desc v
    let free := indexOf s x = some r ∧ r.batch = none ∧ r.queue = [] ∧ mutRole s fn none = .alone ∧ canPost s fn q
    let deleteOk := passes ([badParam (deleteChecks n p)] ++ batchChecks (u .indexDelete) (r0 .indexDelete))
    free
    ∧ frontOk s fn q .indexDelete f rest v
    ∧ deleteOk := by unfold frontOk passes; decide +kernel

theorem wit_IndexBatchesAreWhole_4 :
    let s : State := indexed id {}
    let r : IndexRec := ix id
    let i : Nat := 5
    let l : Nat := 1
    indexOf s i = some r
    ∧ mfind r.compact l = none := by decide +kernel

theorem wit_IndexBatchesAreWhole_5 :
    let r : IndexRec := ix fun r => { r with compact := [(1, { d0 := 1, t0 := 0, o := 1 })], batch := some 7 }
    let s : State := indexed (fun r => { r with compact := [(1, { d0 := 1, t0 := 0, o := 1 })], batch := some 7 }) {}
    let i : Nat := 5
    let l : Nat := 1
    let c : Compaction := { d0 := 1, t0 := 0, o := 1 }
    indexOf s i = some r
    ∧ mfind r.compact l = some c
    ∧ r.batch.isSome = true := by decide +kernel

theorem wit_IndexBatchesAreWhole_6 :
    let r : IndexRec := ix fun r => { r with compact := [(1, { d0 := 1, t0 := 0, o := 1 })] }
    let s : State := walking (indexed (fun r => { r with compact := [(1, { d0 := 1, t0 := 0, o := 1 })] }) {})
    let i : Nat := 5
    let l : Nat := 1
    let c : Compaction := { d0 := 1, t0 := 0, o := 1 }
    indexOf s i = some r
    ∧ mfind r.compact l = some c
    ∧ r.batch = none
    ∧ dirUnits (dirEntry s r l) = 0
    ∧ deltaChain s (dirEntry s r l) = []
    ∧ tombChain s (dirEntry s r l) = [] := by decide +kernel

theorem wit_IndexBatchesAreWhole_7 :
    let r : IndexRec := ix fun r => { r with freeing := [(1, { deltas := [3], tombs := [4], users := [9] })] }
    let s : State := walking (indexed (fun r => { r with freeing := [(1, { deltas := [3], tombs := [4], users := [9] })] }) {})
    let i : Nat := 5
    let l : Nat := 1
    let fr : Freeing := { deltas := [3], tombs := [4], users := [9] }
    indexOf s i = some r
    ∧ mfind r.freeing l = some fr
    ∧ (∃ h ∈ fr.users, h ∈ retrieving s) := by decide +kernel

theorem wit_IndexBatchesAreWhole_8 :
    let r : IndexRec := ix fun r => { r with freeing := [(1, { deltas := [3], tombs := [4], users := [9] })] }
    let s : State := indexed (fun r => { r with freeing := [(1, { deltas := [3], tombs := [4], users := [9] })] }) {}
    let i : Nat := 5
    let l : Nat := 1
    let fr : Freeing := { deltas := [3], tombs := [4], users := [9] }
    indexOf s i = some r
    ∧ mfind r.freeing l = some fr
    ∧ (∀ h ∈ fr.users, h ∉ retrieving s) := by decide +kernel

theorem wit_TablesTakeWorkAndAreRefreshed_1 :
    let f : Fetched := fd { opcode := 0x12, argA := 3, paramLen := 4, resultAddr := 4096, resultLen := 128 }
    let s : State := tabled false (front 4 [f] {})
    let fn : Tenant := 4
    let q : BitVec 3 := 1
    let v : HostView := { param := [1, 0, 0, 0] }
    let rest : List Fetched := []
    let u := fun op => accepted s fn q op f rest v
    let r0 := fun op => newRequest s fn q op f.desc (paramBytes s f.desc v)
    let t := (tableOf s (f.desc.argA.toNat % 64)).getD {}
    frontOk s fn q .rowLookup f rest v
    ∧ passes (accessChecks (u .rowLookup) fn (.table (f.desc.argA.toNat % 64) :: gibsOf f.desc) ++ [mayAdmit s fn, takesWork s t.part.toNat none, roomFor f.desc (lookupBytes t (r0 .rowLookup))]) := by unfold frontOk passes; decide +kernel

theorem wit_TablesTakeWorkAndAreRefreshed_2 :
    let f : Fetched := fd { opcode := 0x13, argA := 0x103, paramLen := 136 }
    let s : State := tabled false (front 4 [f] {})
    let fn : Tenant := 4
    let q : BitVec 3 := 1
    let v : HostView := {}
    let rest : List Fetched := []
    let u := fun op => accepted s fn q op f rest v
    let r0 := fun op => newRequest s fn q op f.desc (paramBytes s f.desc v)
    let t := (tableOf s (f.desc.argA.toNat % 64)).getD {}
    let own := some t.ownerPos
    frontOk s fn q .rowUpdate f rest v
    ∧ passes ([badParam (updateChecks t.cols (itemCount (r0 .rowUpdate)) (paramBytes s f.desc v))] ++ accessChecks (u .rowUpdate) fn (.table (f.desc.argA.toNat % 64) :: gibsOf f.desc) ++ [primacy s fn own, mutRoom s fn own, mayAdmit s fn, (if mutRole s fn own = .forward then none else takesWork s t.part.toNat none)])
    ∧ mutRole s fn own ≠ .forward := by unfold frontOk passes; decide +kernel

theorem wit_TablesTakeWorkAndAreRefreshed_3 :
    let f : Fetched := fd { opcode := 0x13, argA := 0x103, paramLen := 136 }
    let s : State := paired (tabled true (front 4 [f] {}))
    let fn : Tenant := 4
    let q : BitVec 3 := 1
    let v : HostView := {}
    let rest : List Fetched := []
    let u := fun op => accepted s fn q op f rest v
    let r0 := fun op => newRequest s fn q op f.desc (paramBytes s f.desc v)
    let t := (tableOf s (f.desc.argA.toNat % 64)).getD {}
    let own := some t.ownerPos
    frontOk s fn q .rowUpdate f rest v
    ∧ passes ([badParam (updateChecks t.cols (itemCount (r0 .rowUpdate)) (paramBytes s f.desc v))] ++ accessChecks (u .rowUpdate) fn (.table (f.desc.argA.toNat % 64) :: gibsOf f.desc) ++ [primacy s fn own, mutRoom s fn own, mayAdmit s fn, (if mutRole s fn own = .forward then none else takesWork s t.part.toNat none)])
    ∧ mutRole s fn own = .forward := by unfold frontOk passes; decide +kernel

end G2

/-! ## Witnesses: loads and programs -/

namespace G3

/-- Queue pair 1 of a function with a fetched descriptor. -/
def front (fn : Tenant) (l : List Fetched) (s : State) : State := setQp s fn 1 fun p => { p with enable := true, state := .enabled, cqLog2 := 8, dbAddr := 64, fetched := l }
/-- A descriptor with handle 7. -/
def fd (d : Descriptor) : Fetched := { handle := 7, desc := { d with tag := 77 } }
/-- A write-back extent of tenant 4, its copy in extent 1 of tier L. -/
def wb (d : Bool) : ExtentEntry := { valid := true, cls := 1, tenant := 4, homeTier := 3, homeLoc := 5, copyTier := 2, copyLoc := 1 }
def serving (s : State) : State := setTen s 4 fun t => { t with serve := 0x1C }
/-- A running general program in partition 2. -/
def running (f : Partition → Partition) (s : State) : State := setPart s 2 fun q => f { q with state := .running, prog := some {} }
/-- Tile 8 holds a grammar of one state and no interval, for tenant 4 and number 6. -/
def gramTile : Bytes := splice (splice (splice (splice (splice (pad 128 []) 0 [1, 0, 6, 1]) 4 [0, 1]) 8 [1]) 20 [4]) 24 [64] |> fun b => splice b 32 [64]
def gramS : State := { withTile {} 8 gramTile with tier := { (withTile {} 8 gramTile).tier with leaves := (withTile {} 8 gramTile).tier.leaves.map fun x => (x.1, { x.2 with tenant := 4 }) } }
def grammar6 : Grammar := { tenant := 4, world := false, tokSet := 0, vocab := 8, states := 2, intervals := 1, start := 0, base := 131072, stateOff := 0, intervalOff := 64 }
/-- Tile 8 holds a general program of one tile: one mapping on engine 0, parameters and a plan of one entry behind it. -/
def imageTile : Bytes := splice (splice (splice (splice (splice (splice (splice (splice (splice (pad 1024 []) 64 [0, 3]) 800 (toLE 16 (8 * 2 ^ 94))) 0 [1, 0, 0, 1, 1]) 8 [1]) 32 [255, 255, 0, 0]) 52 [1]) 96 [0, 1]) 104 [0, 2]) 256 [255]
def imageS : State := let s := setTen (withTile {} 8 imageTile) 0 (fun t => { t with serve := 4 }); { s with tier := { s.tier with mts := 14400 } }
/-- A partition in use by request 9. -/
def part2 (f : Partition → Partition) : State := setPart {} 2 fun q => f { q with state := .running, prog := some {} }
def step1 : Partition → Partition := fun q => { q with step := { running := true } }
/-- A program of one mapping and a plan of one entry. -/
def planned : Program := { maps := [{}], plan := { head := { windowTiles := 4096, groups := 1 }, entries := [{ src := 8, count := 1, dest := 0, group := 0, half := false, releaser := 0 }] } }


theorem wit_LoadsTakeTheirImages_1 :
    let f : Fetched := fd { opcode := 0x20, argA := 1, argC := 2097152, paramLen := 16416 }
    let s : State := front 4 [f] (withExt {} 1 (wb false))
    let fn : Tenant := 4
    let q : BitVec 3 := 1
    let v : HostView := {}
    let rest : List Fetched := []
    let e : ExtentEntry := wb false
    let u := fun op => accepted s fn q op f rest v
    let r0 := fun op => newRequest s fn q op f.desc (paramBytes s f.desc v)
    let c := f.desc.argC.toNat
    let xs := extentsOf c f.desc.argA.toNat
    let n := c / 16384
    canPost s fn q
    ∧ frontOk s fn q .loadExtent f rest v
    ∧ (∀ x ∈ xs, (entryOf s x).isSome = true)
    ∧ passes (extentChecks (u .loadExtent) (r0 .loadExtent) xs)
    ∧ f.desc.argA = 1
    ∧ entryOf s (devExtent n) = some e
    ∧ e.cls = 1
    ∧ (place e (devPos n)).1 = 2 := by unfold frontOk passes; decide +kernel

theorem wit_LoadsTakeTheirImages_2 :
    let f : Fetched := fd { opcode := 0x21, argA := 0x20007, paramLen := 16416 }
    let s : State := serving (running id (front 4 [f] {}))
    let fn : Tenant := 4
    let q : BitVec 3 := 1
    let v : HostView := {}
    let rest : List Fetched := []
    let g : Program := {}
    let u := fun op => accepted s fn q op f rest v
    let r0 := fun op => newRequest s fn q op f.desc (paramBytes s f.desc v)
    canPost s fn q
    ∧ frontOk s fn q .adapterLoad f rest v
    ∧ passes (adapterChecks (u .adapterLoad) (r0 .adapterLoad))
    ∧ mutRole s fn none = .alone
    ∧ progOf s (adapterPart f.desc) = some g
    ∧ (∃ k, k < 4096 ∧ mfind s.gen.adapters k = none)
    ∧ (∀ a ∈ s.gen.adapters, a.2.order < s.gen.adapterNext) := by exact ⟨by decide +kernel, by unfold frontOk passes; decide +kernel, by unfold passes; decide +kernel, by decide +kernel, by decide +kernel, ⟨0, by decide, by decide +kernel⟩, by decide +kernel⟩

theorem wit_LoadsTakeTheirImages_3 :
    let f : Fetched := fd { opcode := 0x22, argA := 6, argC := 131072 }
    let s : State := front 4 [f] gramS
    let fn : Tenant := 4
    let q : BitVec 3 := 1
    let v : HostView := {}
    let rest : List Fetched := []
    let c := f.desc.argC.toNat
    let n := f.desc.argA.toNat % 256
    let gr := readGrammar s c fn
    let own := fun x => (entryOf s x).any fun y => decide (y.cls = 0 ∧ y.tenant = fn ∧ y.world = false)
    canPost s fn q
    ∧ frontOk s fn q .grammarLoad f rest v
    ∧ (∀ x ∈ spanExtents c 64, own x = true)
    ∧ gr.states ≤ 1048576
    ∧ gr.intervals ≤ 67108864
    ∧ c + grammarBytes gr ≤ 2 ^ 48
    ∧ (∀ x ∈ spanExtents c (grammarBytes gr), own x = true)
    ∧ ((mfind s.text.grammars n).all fun y => decide (y.tenant = fn ∧ y.world = false)) = true
    ∧ grammarOk s gr n fn = true
    ∧ grammarBound s n = false := by unfold frontOk passes; decide +kernel

theorem wit_LoadsTakeTheirImages_4 :
    let f : Fetched := fd { opcode := 0x22, argA := 6, argC := 131072 }
    let s : State := { front 4 [f] gramS with gen := { (front 4 [f] gramS).gen with parts := [(2, { slots := [(0, { state := .decode, grammar := some 6 })] })] } }
    let fn : Tenant := 4
    let q : BitVec 3 := 1
    let v : HostView := {}
    let rest : List Fetched := []
    let c := f.desc.argC.toNat
    let n := f.desc.argA.toNat % 256
    let gr := readGrammar s c fn
    let own := fun x => (entryOf s x).any fun y => decide (y.cls = 0 ∧ y.tenant = fn ∧ y.world = false)
    canPost s fn q
    ∧ frontOk s fn q .grammarLoad f rest v
    ∧ (∀ x ∈ spanExtents c 64, own x = true)
    ∧ gr.states ≤ 1048576
    ∧ gr.intervals ≤ 67108864
    ∧ c + grammarBytes gr ≤ 2 ^ 48
    ∧ (∀ x ∈ spanExtents c (grammarBytes gr), own x = true)
    ∧ ((mfind s.text.grammars n).all fun y => decide (y.tenant = fn ∧ y.world = false)) = true
    ∧ (grammarOk s gr n fn = false ∨ grammarBound s n = true) := by unfold frontOk passes; decide +kernel

theorem wit_ProgramsAreLoadedAndUnloaded_1 :
    let q : BitVec 3 := 1
    let f : Fetched := fd { opcode := 0x23, argA := 2, argC := 131072 }
    let s : State := setPart (front 0 [f] imageS) 2 fun q => { q with state := .paused }
    let fn : Tenant := 0
    let v : HostView := {}
    let rest : List Fetched := []
    let p : PartId := 2
    let x := partOf s p
    let u := accepted s fn q .programLoad f rest v
    frontOk s fn q .programLoad f rest v
    ∧ f.desc.argC ≠ 0
    ∧ passes (loadChecks u (newRequest s fn q .programLoad f.desc (paramBytes s f.desc v)))
    ∧ partId f.desc.argA.toNat = p
    ∧ partBusy x = false
    ∧ canPost s fn q
    ∧ (x.state = .paused ∨ (x.state = .running ∧ lendsOrBorrows s p = true)) := by unfold frontOk passes; decide +kernel

theorem wit_ProgramsAreLoadedAndUnloaded_2 :
    let f : Fetched := fd { opcode := 0x23, argA := 2, argC := 147456 }
    let s : State := front 0 [f] imageS
    let fn : Tenant := 0
    let q : BitVec 3 := 1
    let v : HostView := {}
    let rest : List Fetched := []
    let p : PartId := 2
    let x := partOf s p
    let u := accepted s fn q .programLoad f rest v
    let a := f.desc.argC.toNat
    frontOk s fn q .programLoad f rest v
    ∧ f.desc.argC ≠ 0
    ∧ passes (loadChecks u (newRequest s fn q .programLoad f.desc (paramBytes s f.desc v)))
    ∧ partId f.desc.argA.toNat = p
    ∧ partBusy x = false
    ∧ canPost s fn q
    ∧ (x.state = .empty ∨ (x.state = .running ∧ lendsOrBorrows s p = false))
    ∧ (entryOf s (devExtent (a / 16384))).isSome = true
    ∧ Machine.imageOk s a = false := by unfold frontOk passes; decide +kernel

theorem wit_ProgramsAreLoadedAndUnloaded_3 :
    let f : Fetched := fd { opcode := 0x23, argA := 2, argC := 131072 }
    let s : State := running id (front 0 [f] imageS)
    let fn : Tenant := 0
    let q : BitVec 3 := 1
    let v : HostView := {}
    let rest : List Fetched := []
    let sec : ImageSections := { plan := { windowTiles := 4096, groups := 1 } }
    let p : PartId := 2
    let g : Program := { maps := [{}] }
    let x := partOf s p
    let u := accepted s fn q .programLoad f rest v
    let a := f.desc.argC.toNat
    let g := readProgram s a sec
    frontOk s fn q .programLoad f rest v
    ∧ f.desc.argC ≠ 0
    ∧ passes (loadChecks u (newRequest s fn q .programLoad f.desc (paramBytes s f.desc v)))
    ∧ partId f.desc.argA.toNat = p
    ∧ partBusy x = false
    ∧ canPost s fn q
    ∧ (x.state = .empty ∨ (x.state = .running ∧ lendsOrBorrows s p = false))
    ∧ (entryOf s (devExtent (a / 16384))).isSome = true
    ∧ Machine.imageOk s a = true
    ∧ order3 s p g = true
    ∧ order4 s g = true
    ∧ (g.maps.head?).any (usable s) = true
    ∧ order5 s p g = true
    ∧ order6 (releaseShares s p) g 0 = true
    ∧ x.state = .running := by unfold frontOk passes; decide +kernel

theorem wit_ProgramsAreLoadedAndUnloaded_4 :
    let f : Fetched := fd { opcode := 0x23, argA := 2, argC := 131072 }
    let s : State := front 0 [f] imageS
    let fn : Tenant := 0
    let q : BitVec 3 := 1
    let v : HostView := {}
    let rest : List Fetched := []
    let sec : ImageSections := { plan := { windowTiles := 4096, groups := 1 } }
    let p : PartId := 2
    let g : Program := { maps := [{}] }
    let x := partOf s p
    let u := accepted s fn q .programLoad f rest v
    let a := f.desc.argC.toNat
    let g := readProgram s a sec
    frontOk s fn q .programLoad f rest v
    ∧ f.desc.argC ≠ 0
    ∧ passes (loadChecks u (newRequest s fn q .programLoad f.desc (paramBytes s f.desc v)))
    ∧ partId f.desc.argA.toNat = p
    ∧ partBusy x = false
    ∧ canPost s fn q
    ∧ (x.state = .empty ∨ (x.state = .running ∧ lendsOrBorrows s p = false))
    ∧ (entryOf s (devExtent (a / 16384))).isSome = true
    ∧ Machine.imageOk s a = true
    ∧ order3 s p g = true
    ∧ order4 s g = true
    ∧ (g.maps.head?).any (usable s) = true
    ∧ order5 s p g = true
    ∧ order6 (releaseShares s p) g 0 = true
    ∧ x.state = .empty
    ∧ x.prog = none := by unfold frontOk passes; decide +kernel

theorem wit_ProgramsAreLoadedAndUnloaded_5 :
    let s : State := {}
    let p : PartId := 2
    let x := partOf s p
    x.replacing = none := by decide +kernel

theorem wit_ProgramsAreLoadedAndUnloaded_6 :
    let s : State := part2 fun q => { step1 q with replacing := some (9, { maps := [{}] }) }
    let p : PartId := 2
    let h : Nat := 9
    let g : Program := { maps := [{}] }
    let x := partOf s p
    x.replacing = some (h, g)
    ∧ partDrained x = false := by decide +kernel

theorem wit_ProgramsAreLoadedAndUnloaded_7 :
    let q : BitVec 3 := 1
    let s : State := withExt (part2 fun q => { q with replacing := some (9, planned) }) 0 { cls := 0, homeTier := 2 }
    let p : PartId := 2
    let h : Nat := 9
    let m : Nat := 0
    let g : Program := planned
    let x := partOf s p
    x.replacing = some (h, g)
    ∧ partDrained x = true
    ∧ planOk s g.plan = true
    ∧ selectMapping s g = some m
    ∧ ((takeL (dropAdapters (releaseShares (setPart s p fun q => { q with replacing := none }) p) p) g).bind fun y => mapPool y.2.2 p (y.1 ++ y.2.1)).isSome = true := by decide +kernel

theorem wit_ProgramsAreLoadedAndUnloaded_8 :
    let f : Fetched := fd { opcode := 0x23, argA := 2 }
    let s : State := front 0 [f] imageS
    let fn : Tenant := 0
    let q : BitVec 3 := 1
    let v : HostView := {}
    let rest : List Fetched := []
    let p : PartId := 2
    let x := partOf s p
    let u := accepted s fn q .programLoad f rest v
    frontOk s fn q .programLoad f rest v
    ∧ f.desc.argC = 0
    ∧ passes (loadChecks u (newRequest s fn q .programLoad f.desc (paramBytes s f.desc v)))
    ∧ partId f.desc.argA.toNat = p
    ∧ partBusy x = false
    ∧ x.state = .empty := by unfold frontOk passes; decide +kernel

theorem wit_ProgramsAreLoadedAndUnloaded_9 :
    let q : BitVec 3 := 1
    let f : Fetched := fd { opcode := 0x23, argA := 2 }
    let s : State := setPart (running id (front 0 [f] imageS)) 3 fun q => { q with prog := some { borrow := 1, borrowFrom := 2 } }
    let fn : Tenant := 0
    let v : HostView := {}
    let rest : List Fetched := []
    let p : PartId := 2
    let x := partOf s p
    let u := accepted s fn q .programLoad f rest v
    frontOk s fn q .programLoad f rest v
    ∧ f.desc.argC = 0
    ∧ passes (loadChecks u (newRequest s fn q .programLoad f.desc (paramBytes s f.desc v)))
    ∧ partId f.desc.argA.toNat = p
    ∧ partBusy x = false
    ∧ x.state ≠ .empty
    ∧ lends s p = true := by unfold frontOk passes; decide +kernel

theorem wit_ProgramsAreLoadedAndUnloaded_10 :
    let f : Fetched := fd { opcode := 0x23, argA := 2 }
    let s : State := running id (front 0 [f] imageS)
    let fn : Tenant := 0
    let q : BitVec 3 := 1
    let v : HostView := {}
    let rest : List Fetched := []
    let p : PartId := 2
    let x := partOf s p
    let u := accepted s fn q .programLoad f rest v
    frontOk s fn q .programLoad f rest v
    ∧ f.desc.argC = 0
    ∧ passes (loadChecks u (newRequest s fn q .programLoad f.desc (paramBytes s f.desc v)))
    ∧ partId f.desc.argA.toNat = p
    ∧ partBusy x = false
    ∧ x.state ≠ .empty
    ∧ lends s p = false
    ∧ x.rings = [] := by unfold frontOk passes; decide +kernel

theorem wit_ProgramsAreLoadedAndUnloaded_11 :
    let s : State := {}
    let p : PartId := 2
    let x := partOf s p
    x.unloading = none := by decide +kernel

theorem wit_ProgramsAreLoadedAndUnloaded_12 :
    let s : State := part2 fun q => { step1 q with unloading := some 9 }
    let p : PartId := 2
    let h : Nat := 9
    let x := partOf s p
    x.unloading = some h
    ∧ (partDrained x = false ∨ x.rings ≠ []) := by decide +kernel

theorem wit_ProgramsAreLoadedAndUnloaded_13 :
    let fn : Tenant := 0
    let p : PartId := 2
    let s : State := setQp (setReq (part2 fun q => { q with unloading := some 9, state := .unloading }) 9 { fn := 4, qp := 1, tag := 55, op := .programLoad }) 4 1 fun p => { p with enable := true, state := .enabled, cqLog2 := 8 }
    let h : Nat := 9
    let r : Request := { fn := 4, qp := 1, tag := 55, op := .programLoad }
    let x := partOf s p
    x.unloading = some h
    ∧ partDrained x = true
    ∧ x.rings = []
    ∧ reqOf s h = some r
    ∧ r.phase ≠ .ending
    ∧ r.remote = false
    ∧ canPost s r.fn r.qp := by decide +kernel

end G3

/-! ## Witnesses: cancel and fence -/

namespace G4

/-- Queue pair 1 of function 4 with a fetched descriptor. -/
def front (l : List Fetched) : State := setQp {} 4 1 fun p => { p with enable := true, state := .enabled, cqLog2 := 8, dbAddr := 64, fetched := l }
/-- A descriptor with handle 7. -/
def fd (d : Descriptor) : Fetched := { handle := 7, desc := { d with tag := 77 } }
/-- A request of tag 55. -/
def req55 (op : Opcode) (ph : Phase) : Request := { fn := 4, qp := 1, tag := 55, op := op, phase := ph }
def withReq (h : Nat) (r : Request) (s : State) : State := setReq s h r


theorem wit_CancelAndFence_1 :
    let f : Fetched := fd { opcode := 0x30, argC := 55 }
    let s : State := setQp (front [f]) 4 2 fun p => { p with fetched := [{ handle := 6, desc := { tag := 55 } }] }
    let fn : Tenant := 4
    let q : BitVec 3 := 1
    let g := f
    (qpOf s fn q).fetched.head? = some g
    ∧ targetFetched s fn g = true := by decide +kernel

theorem wit_CancelAndFence_2 :
    let f : Fetched := fd { opcode := 0x30, argC := 55 }
    let s : State := front [f]
    let fn : Tenant := 4
    let q : BitVec 3 := 1
    let v : HostView := {}
    let rest : List Fetched := []
    let u := fun op => accepted s fn q op f rest v
    frontOk s fn q .cancel f rest v
    ∧ targetFetched s fn f = false
    ∧ targetOf (u .cancel) fn f.desc.argC f.handle = none := by unfold frontOk passes; decide +kernel

theorem wit_CancelAndFence_3 :
    let f : Fetched := fd { opcode := 0x30, argC := 55 }
    let s : State := withReq 5 (req55 .fence .fenceWait) (front [f])
    let fn : Tenant := 4
    let q : BitVec 3 := 1
    let v : HostView := {}
    let rest : List Fetched := []
    let t : Nat := 5
    let x : Request := req55 .fence .fenceWait
    let u := fun op => accepted s fn q op f rest v
    frontOk s fn q .cancel f rest v
    ∧ targetFetched s fn f = false
    ∧ targetOf (u .cancel) fn f.desc.argC f.handle = some (t, x)
    ∧ cancellable x.op = false := by unfold frontOk passes; decide +kernel

theorem wit_CancelAndFence_4 :
    let f : Fetched := fd { opcode := 0x30, argC := 55 }
    let s : State := withReq 5 (req55 .turn .stream) (front [f])
    let fn : Tenant := 4
    let q : BitVec 3 := 1
    let v : HostView := {}
    let rest : List Fetched := []
    let t : Nat := 5
    let x : Request := req55 .turn .stream
    let u := fun op => accepted s fn q op f rest v
    frontOk s fn q .cancel f rest v
    ∧ targetFetched s fn f = false
    ∧ targetOf (u .cancel) fn f.desc.argC f.handle = some (t, x)
    ∧ cancellable x.op = true
    ∧ x.phase = .stream
    ∧ reqOf s t = some x
    ∧ t ≠ f.handle
    ∧ x.ret.snap = none
    ∧ canPost s fn q
    ∧ canPost s x.fn x.qp := by unfold frontOk passes; decide +kernel

theorem wit_CancelAndFence_5 :
    let f : Fetched := fd { opcode := 0x31 }
    let s : State := front [f]
    let fn : Tenant := 4
    let q : BitVec 3 := 1
    let v : HostView := {}
    let rest : List Fetched := []
    frontOk s fn q .fence f rest v := by unfold frontOk passes; decide +kernel

theorem wit_CancelAndFence_6 :
    let s : State := withReq 9 (req55 .fence .waiting) (front [])
    let h : Nat := 9
    let r : Request := req55 .fence .waiting
    reqOf s h = some r
    ∧ r.phase ≠ .fenceWait := by decide +kernel

theorem wit_CancelAndFence_7 :
    let s : State := withReq 5 (req55 .turn .stream) (withReq 9 (req55 .fence .fenceWait) (front []))
    let fn : Tenant := 4
    let h : Nat := 9
    let r : Request := req55 .fence .fenceWait
    reqOf s h = some r
    ∧ r.phase = .fenceWait
    ∧ earlierOpen s r.fn r.qp h = true := by decide +kernel

theorem wit_CancelAndFence_8 :
    let s : State := setQp (withReq 9 (req55 .fence .fenceWait) (front [])) 4 1 fun p => { p with fenced := some 9 }
    let fn : Tenant := 4
    let h : Nat := 9
    let r : Request := req55 .fence .fenceWait
    reqOf s h = some r
    ∧ r.phase = .fenceWait
    ∧ earlierOpen s r.fn r.qp h = false
    ∧ r.remote = false
    ∧ canPost s r.fn r.qp := by decide +kernel

end G4

/-! ## Witnesses: watchdogs, tests, worlds -/

namespace H1

/-- Two mappings: the first on engine 3, the second without engines, for the case that engine 3 is excluded. -/
def prog3 : Program := { maps := [{ engines := 8 }, { excluded := some 3 }], sec := { table := [{ mapping := 0, rows := 1, prefill := 0, depth := 0, fixed := 100, rate := 0 }] } }
/-- Partition 2 in its step of epoch 5, with one item, since time 0. -/
def stepping (f : Partition → Partition) : State :=
  setPart {} 2 fun q => f { q with state := .running, prog := some prog3, step := { running := true, epoch := 5, items := [{ kind := .update, handle := 9 }] } }
def at_ (t : BitVec 48) (s : State) : State := { s with bureau := { s.bureau with reqTimer := t, recTime := t } }
/-- The block of engine 3 has fallen quiet. -/
def quiet3 : State := { fabric := { quiesce := [(blockKey (engineBlock 3), { stage := .quiet })] } }
def eng3 (f : EngineState → EngineState) (s : State) : State := setEng s 3 f


theorem wit_WatchdogTestsAndWorlds_1 :
    let s : State := at_ 1000 (stepping id)
    let p : PartId := 2
    let q := partOf s p
    (q.step.running = false ∨ recordsIn q (stepEngines q) = true ∨ since q.step.startAt (now s) ≤ stepTableUs q + q.step.watchdog.toNat * 1000) := by decide +kernel

theorem wit_WatchdogTestsAndWorlds_2 :
    let s : State := at_ 2000000 (stepping id)
    let p : PartId := 2
    let q := partOf s p
    let late := q.step.running = true ∧ recordsIn q (stepEngines q) = false ∧ q.step.checks = [] ∧ q.step.refused = [] ∧ q.step.refusedAll = none
    ∧ q.step.storeRefusal = none ∧ saturatedTiles s q = [] ∧ q.step.attempt < 3 ∧ stepWorks q = true ∧ poisonedTiles s q = [] ∧ canonical {} s.store.slots = true
    ∧ stepTableUs q + q.step.watchdog.toNat * 1000 < since q.step.startAt (now s)
    late := by decide +kernel

theorem wit_WatchdogTestsAndWorlds_3 :
    let s : State := at_ 2000000 (stepping id)
    let p : PartId := 2
    let e : Engine := 3
    let m : Nat := 1
    let q := partOf s p
    let late := q.step.running = true ∧ recordsIn q (stepEngines q) = false ∧ q.step.checks = [] ∧ q.step.refused = [] ∧ q.step.refusedAll = none
    ∧ q.step.storeRefusal = none ∧ saturatedTiles s q = [] ∧ q.step.attempt < 3 ∧ stepWorks q = true ∧ poisonedTiles s q = [] ∧ canonical {} s.store.slots = true
    ∧ stepTableUs q + q.step.watchdog.toNat * 1000 < since q.step.startAt (now s)
    late
    ∧ usesEngine q e = true
    ∧ thirdMapping s q [e] = some m := by decide +kernel

theorem wit_WatchdogTestsAndWorlds_4 :
    let s : State := {}
    let b : BlockId := engineBlock 3
    (worldChanges b = false ∨ inPartition s b = true ∨ isQuiet s b = false) := by decide +kernel

theorem wit_WatchdogTestsAndWorlds_5 :
    let s : State := quiet3
    let b : BlockId := engineBlock 3
    worldChanges b = true
    ∧ inPartition s b = false
    ∧ isQuiet s b = true := by decide +kernel

theorem wit_WatchdogTestsAndWorlds_6 :
    let s : State := at_ 0 {}
    let e : Engine := 3
    let x := engOf s e
    let due := x.retired = 0 ∧ (∀ k, testing (engOf s k) = false) ∧ s.gen.testInterval.toNat * 3600000000 ≤ since x.testedAt (recNow s)
    ¬ due := by decide +kernel

theorem wit_WatchdogTestsAndWorlds_7 :
    let s : State := at_ 90000000000 {}
    let e : Engine := 3
    let x := engOf s e
    let due := x.retired = 0 ∧ (∀ k, testing (engOf s k) = false) ∧ s.gen.testInterval.toNat * 3600000000 ≤ since x.testedAt (recNow s)
    due
    ∧ (∀ y ∈ s.gen.parts, usesEngine y.2 e = false) := by intro s e x due; exact ⟨by unfold due; decide +kernel, by decide +kernel⟩

theorem wit_WatchdogTestsAndWorlds_8 :
    let s : State := at_ 90000000000 (stepping id)
    let p : PartId := 2
    let e : Engine := 3
    let x := engOf s e
    let due := x.retired = 0 ∧ (∀ k, testing (engOf s k) = false) ∧ s.gen.testInterval.toNat * 3600000000 ≤ since x.testedAt (recNow s)
    due
    ∧ (partOf s p).state = .running
    ∧ usesEngine (partOf s p) e = true
    ∧ (minusFor s (partOf s p) e).isSome = true := by decide +kernel

theorem wit_WatchdogTestsAndWorlds_9 :
    let s : State := at_ 900000005 (eng3 (fun x => { x with testDue := some 5 }) (stepping id))
    let e : Engine := 3
    let x := engOf s e
    let a := (5 : BitVec 48)
    x.testDue = some a
    ∧ x.retired = 0
    ∧ 900000000 ≤ since a (recNow s) := by decide +kernel

theorem wit_WatchdogTestsAndWorlds_10 :
    let s : State := {}
    let e : Engine := 3
    let x := engOf s e
    x.testDue = none := by decide +kernel

theorem wit_WatchdogTestsAndWorlds_11 :
    let s : State := eng3 (fun x => { x with retired := 2, testDue := some 5 }) (stepping id)
    let e : Engine := 3
    let x := engOf s e
    x.retired = 2
    ∧ (∀ y ∈ s.gen.parts, y.2.loadWait = none) := by decide +kernel

end H1

/-! ## Witnesses: Settee frames -/

namespace I1

/-- A frame with its own CRC. -/
def sealFrame (f : Frame) : Frame := { f with crc := f.crcOf }
theorem sealFrame_ok (f : Frame) : (sealFrame f).crc = (sealFrame f).crcOf := rfl
theorem sealFrame_bad (f : Frame) (c : BitVec 32) (h : c ≠ 0) : ({ sealFrame f with crc := (sealFrame f).crc + c } : Frame).crc ≠ ({ sealFrame f with crc := (sealFrame f).crc + c } : Frame).crcOf := by
  show f.crcOf + c ≠ f.crcOf
  generalize f.crcOf = x at *; intro e; apply h; bv_omega
/-- The link carries traffic; the journal waits for no request. -/
def linked (f : PairState → PairState) (t : BitVec 48) : State := { pair := f { enable := true, link := .up, lanes := 8, expect := 5, owed := 3 }, bureau := { reqTimer := t } }
/-- A frame of 32 bytes with the sequence number expected, whole in itself. -/
def bare32 : Frame := { seq := 5, ackSeq := 8, credit := 2, first := true, last := true, used := 31, payload := List.replicate 32 7 }
def fr32 : Frame := sealFrame bare32
/-- Frames 7 and 8 wait for their acknowledgement. -/
def sent78 : List Frame := [{ seq := 7 }, { seq := 8 }, { seq := 9 }]
def jn : List JournalEntry := [{ jseq := 3, hdr := {}, body := .none }]


theorem wit_SetteeFramesAndLinkStates_1 :
    let s : State := {}
    let p := s.pair
    (p.link = .down ∨ p.realigning = true) := by decide +kernel

theorem wit_SetteeFramesAndLinkStates_2 :
    let s : State := linked (fun p => { p with replay := sent78 }) 5000
    let f : Frame := { sealFrame bare32 with crc := (sealFrame bare32).crc + 1 }
    let p := s.pair
    p.link ≠ .down
    ∧ p.realigning = false
    ∧ f.crc ≠ f.crcOf := by exact ⟨by decide, rfl, sealFrame_bad bare32 1 (by decide)⟩

theorem wit_SetteeFramesAndLinkStates_3 :
    let s : State := linked (fun p => { p with replay := sent78 }) 5000
    let f : Frame := fr32
    let p := s.pair
    p.link ≠ .down
    ∧ p.realigning = false
    ∧ f.crc = f.crcOf
    ∧ f.nak = false
    ∧ p.txWait = [] := by exact ⟨by decide, rfl, sealFrame_ok bare32, rfl, rfl⟩

theorem wit_SetteeFramesAndLinkStates_4 :
    let s : State := linked (fun p => { p with replay := sent78 }) 5000
    let p := s.pair
    p.link ≠ .down
    ∧ p.realigning = false
    ∧ 10 ≤ since p.sentAt (now s) := by decide +kernel

theorem wit_SetteeFramesAndLinkStates_5 :
    let s : State := linked (fun p => { p with nakRun := 8, realignAt := [4000] }) 5000
    let p := s.pair
    p.link ≠ .down
    ∧ p.realigning = false
    ∧ (8 ≤ p.nakRun ∨ 8 ≤ p.txNakRun)
    ∧ (lastSecond (now s) p.realignAt).length < 2 := by decide +kernel

theorem wit_SetteeFramesAndLinkStates_6 :
    let s : State := linked (fun p => { p with nakRun := 8, realignAt := [4500, 4000], journal := jn, reads := [16], replay := sent78 }) 5000
    let p := s.pair
    let calm := (∀ e ∈ p.journal, e.handle = none) ∧ p.forwards = [] ∧ p.waitMut = []
    p.link ≠ .down
    ∧ p.realigning = false
    ∧ (8 ≤ p.nakRun ∨ 8 ≤ p.txNakRun)
    ∧ 2 ≤ (lastSecond (now s) p.realignAt).length
    ∧ calm := by decide +kernel

theorem wit_SetteeFramesAndLinkStates_7 :
    let s : State := linked (fun p => { p with realigning := true, replay := sent78 }) 5000
    let p := s.pair
    p.realigning = true
    ∧ p.txWait = [] := by decide +kernel

theorem wit_SetteeFramesAndLinkStates_8 :
    let s : State := linked (fun p => { p with validAt := 4001 }) 5000
    let p := s.pair
    p.link ≠ .down
    ∧ since p.validAt (now s) < 1000 := by decide +kernel

theorem wit_SetteeFramesAndLinkStates_9 :
    let s : State := linked (fun p => { p with validAt := 4000, journal := jn, reads := [16] }) 5000
    let p := s.pair
    let calm := (∀ e ∈ p.journal, e.handle = none) ∧ p.forwards = [] ∧ p.waitMut = []
    p.link ≠ .down
    ∧ 1000 ≤ since p.validAt (now s)
    ∧ calm := by decide +kernel

theorem wit_SetteeFramesAndLinkStates_10 :
    let s : State := { pair := { enable := true }, bureau := { reqTimer := 100000 } }
    let p := s.pair
    p.link = .down
    ∧ p.enable = true
    ∧ s.bureau.recovery = false
    ∧ 100000 ≤ since p.triedAt (now s) := by decide +kernel

theorem wit_SetteeFramesAndLinkStates_11 :
    let s : State := linked (fun p => { p with deadLanes := [2] }) 0
    let l : BitVec 3 := 2
    let p := s.pair
    l ∈ p.deadLanes := by decide +kernel

theorem wit_SetteeFramesAndLinkStates_12 :
    let s : State := linked (fun p => { p with replay := sent78 }) 5000
    let l : BitVec 3 := 2
    let p := s.pair
    l ∉ p.deadLanes := by decide +kernel

end I1

/-! ## Witnesses: partner messages -/

namespace I2

/-- The module paired, at position 0 with pair id 3, and its link at a state. -/
def live (l : PairLink) (f : PairState → PairState) : State := { pair := f { enable := true, link := l, lanes := 8, pairId := 3, jApplied := 4 } }
def hd (ty : BitVec 8) (j : BitVec 64) : MsgHdr := { type := ty, tenant := 7, object := 5, epoch := 9, jseq := j, partition := 2, ref := 6 }
/-- Tenant 7's lease. -/
def lease7 (f : LeaseInfo → LeaseInfo) (p : PairState) : PairState := { p with leases := [(7, f {})] }
def ix (s : State) : State := { s with gen := { s.gen with indexes := [(5, { tenant := 7 })] } }
def tb (s : State) : State := { setPart s 2 (fun q => { q with state := .running, prog := some {} }) with gen := { (setPart s 2 fun q => { q with state := .running, prog := some {} }).gen with tables := [(5, { tenant := 7, part := 2 })] } }
def J (j : Nat) (t : Option (BitVec 48)) : JournalEntry := { jseq := j, hdr := { tenant := 7 }, body := .none, sentAt := t }
/-- A forwarded update of request 9. -/
def fwd : State := setQp (setReq (live .up fun p => { p with forwards := [9] }) 9 { fn := 7, qp := 1, tag := 6, op := .rowUpdate, phase := .forwarded }) 7 1 fun p => { p with enable := true, state := .enabled, cqLog2 := 8 }
def T1 : Tile := Tile.sealed { hdr := { format := 0x04, rows := 4, cols := 32 }, payload := [1, 2, 3] }
/-- A write-back extent of tier L, with a tile. -/
def wbTile (s : State) : State := putL (withExt s 0 { cls := 1, tenant := 7, homeTier := 2, homeLoc := 0, copyTier := 2, copyLoc := 3 }) 388 { payload := [1, 2] } false
def turnM : MirrorTurn := { tag := 6, tenant := 7, qp := 5, desc := {}, param := List.replicate 16 5 }


theorem wit_PartnerMessagesAreApplied_1 :
    let s : State := live .training id
    let i : Ident := { position := true, pairId := 4 }
    let p := s.pair
    p.link = .training
    ∧ (i.position = p.position ∨ i.pairId ≠ p.pairId) := by decide +kernel

theorem wit_PartnerMessagesAreApplied_2 :
    let s : State := live .training id
    let i : Ident := { position := true, pairId := 3, journalGen := 8 }
    let p := s.pair
    p.link = .training
    ∧ i.position ≠ p.position
    ∧ i.pairId = p.pairId := by decide +kernel

theorem wit_PartnerMessagesAreApplied_3 :
    let s : State := live .training id
    let m : MsgHdr := hd 0x10 5
    let b : MsgBody := .none
    let swaps : List Tenant := [7]
    let unmapped : List (BitVec 64) := []
    let tile : TileIdx := 40
    let a : BitVec 48 := 65536
    let journals := [Instr.mirrorIndex m b, .mirrorRows m b, .mirrorAdapter m b, .mirrorConfig m b]
    let c := Instr.commit m
    linkLive s = false
    ∧ c ∈ journals ++ [.mirrorAck m swaps, .journalReq m swaps, .forward m b, .forwardDone m b, .remoteTile m b tile, .commit m, .retract m, .mirrorRead m b, .mirrorData m a b, .relinquish m swaps unmapped] := by decide +kernel

theorem wit_PartnerMessagesAreApplied_4 :
    let s : State := live .up id
    let m : MsgHdr := hd 0x11 4
    let b : MsgBody := .none
    let p := s.pair
    let journals := [Instr.mirrorIndex m b, .mirrorRows m b, .mirrorAdapter m b, .mirrorConfig m b]
    let c := Instr.mirrorRows m b
    linkLive s = true
    ∧ c ∈ journals
    ∧ m.type ∈ [0x10, 0x11, 0x12, 0x13]
    ∧ m.jseq.toNat ≤ p.jApplied := by decide +kernel

theorem wit_PartnerMessagesAreApplied_5 :
    let s : State := live .up id
    let m : MsgHdr := hd 0x11 6
    let b : MsgBody := .none
    let p := s.pair
    let journals := [Instr.mirrorIndex m b, .mirrorRows m b, .mirrorAdapter m b, .mirrorConfig m b]
    let c := Instr.mirrorRows m b
    linkLive s = true
    ∧ c ∈ journals
    ∧ m.type ∈ [0x10, 0x11, 0x12, 0x13]
    ∧ p.jFresh = false
    ∧ p.jApplied + 1 < m.jseq.toNat := by decide +kernel

theorem wit_PartnerMessagesAreApplied_6 :
    let s : State := live .up id
    let m : MsgHdr := { hd 0x11 5 with more := true }
    let b : MsgBody := .none
    let p := s.pair
    let journals := [Instr.mirrorIndex m b, .mirrorRows m b, .mirrorAdapter m b, .mirrorConfig m b]
    let c := Instr.mirrorRows m b
    linkLive s = true
    ∧ c ∈ journals
    ∧ m.type ∈ [0x10, 0x11, 0x12, 0x13]
    ∧ p.jApplied < m.jseq.toNat
    ∧ (p.jFresh = true ∨ m.jseq.toNat = p.jApplied + 1)
    ∧ m.more = true := by decide +kernel

theorem wit_PartnerMessagesAreApplied_7 :
    let s : State := ix (live .up id)
    let m : MsgHdr := hd 0x10 5
    let es : List (Nat × Bytes) := []
    let ws : List (Nat × Tile) := []
    let n : BitVec 40 := 0x8000000003
    let b : MsgBody := .index es [] [] [] ws n
    let p := s.pair
    let l := leaseOf s m.tenant
    let whole := p.jApplied < m.jseq.toNat ∧ (p.jFresh = true ∨ m.jseq.toNat = p.jApplied + 1) ∧ m.more = false
    ∧ (∀ x ∈ p.parts, sameObject x.1 m = false) ∧ (l.mine = true → l.cleared = false) ∧ l.holdFrom = none
    let r : IndexRec := { tenant := 7 }
    linkLive s = true
    ∧ whole
    ∧ b = .index es [] [] [] ws n
    ∧ indexOf s m.object.toNat = some r
    ∧ batchCheck s r { entries := es, next := n } = none
    ∧ ws = []
    ∧ es = [] := by decide +kernel

theorem wit_PartnerMessagesAreApplied_8 :
    let s : State := tb (live .up id)
    let m : MsgHdr := hd 0x11 5
    let im : List (Nat × List Word) := [(3, [1])]
    let mp : List (Nat × BitVec 64) := []
    let b : MsgBody := .rows im mp
    let p := s.pair
    let l := leaseOf s m.tenant
    let whole := p.jApplied < m.jseq.toNat ∧ (p.jFresh = true ∨ m.jseq.toNat = p.jApplied + 1) ∧ m.more = false
    ∧ (∀ x ∈ p.parts, sameObject x.1 m = false) ∧ (l.mine = true → l.cleared = false) ∧ l.holdFrom = none
    let r : TableRec := { tenant := 7, part := 2 }
    linkLive s = true
    ∧ whole
    ∧ b = .rows im mp
    ∧ tableOf s m.object.toNat = some r
    ∧ (partOf s r.part).prog.isSome = true := by decide +kernel

theorem wit_PartnerMessagesAreApplied_9 :
    let s : State := tb (live .up id)
    let m : MsgHdr := hd 0x12 5
    let q : PartId := 2
    let ts : List Tile := [{}]
    let b : MsgBody := .adapter q ts
    let p := s.pair
    let l := leaseOf s m.tenant
    let whole := p.jApplied < m.jseq.toNat ∧ (p.jFresh = true ∨ m.jseq.toNat = p.jApplied + 1) ∧ m.more = false
    ∧ (∀ x ∈ p.parts, sameObject x.1 m = false) ∧ (l.mine = true → l.cleared = false) ∧ l.holdFrom = none
    linkLive s = true
    ∧ whole
    ∧ b = .adapter q ts
    ∧ (partOf s q).prog.isSome = true
    ∧ (∃ k, k < 4096 ∧ mfind s.gen.adapters k = none)
    ∧ (∀ x ∈ s.gen.adapters, x.2.order < s.gen.adapterNext) := by exact ⟨by decide, by decide +kernel, rfl, by decide +kernel, ⟨0, by decide, by decide +kernel⟩, by decide +kernel⟩

theorem wit_PartnerMessagesAreApplied_10 :
    let s : State := live .up id
    let m : MsgHdr := hd 0x13 5
    let w : BitVec 7 := 3
    let k : BitVec 11 := 4
    let v : BitVec 32 := 5
    let b : MsgBody := .config (.tenant w k v)
    let p := s.pair
    let l := leaseOf s m.tenant
    let whole := p.jApplied < m.jseq.toNat ∧ (p.jFresh = true ∨ m.jseq.toNat = p.jApplied + 1) ∧ m.more = false
    ∧ (∀ x ∈ p.parts, sameObject x.1 m = false) ∧ (l.mine = true → l.cleared = false) ∧ l.holdFrom = none
    linkLive s = true
    ∧ whole
    ∧ b = .config (.tenant w k v) := by decide +kernel

theorem wit_PartnerMessagesAreApplied_11 :
    let s : State := live .up fun p => { p with journal := [J 5 none, J 6 none, J 7 none] }
    let m : MsgHdr := hd 0x10 5
    let p := s.pair
    let e : JournalEntry := J 6 none
    linkLive s = true
    ∧ p.link = .up
    ∧ p.journal.find? (fun x => decide (x.jseq = m.ref.toNat)) = some e
    ∧ e.handle = none
    ∧ (leaseOf s e.hdr.tenant).handingOver = false
    ∧ (leaseOf s e.hdr.tenant).word.solo = false := by decide +kernel

theorem wit_PartnerMessagesAreApplied_12 :
    let s : State := live .up fun p => { p with journal := [J 5 none, J 6 none, J 7 none] }
    let p := s.pair
    let calm := (∀ e ∈ p.journal, e.handle = none) ∧ p.forwards = [] ∧ p.waitMut = []
    linkLive s = true
    ∧ p.link = .up
    ∧ calm
    ∧ p.journal.Pairwise (fun x y => x.jseq < y.jseq) := by decide +kernel

theorem wit_PartnerMessagesAreApplied_13 :
    let s : State := tb (live .up id)
    let m : MsgHdr := hd 0x10 5
    let d : Descriptor := { opcode := 0x13, argA := 0x105 }
    let x : Bytes := [1, 2]
    let b : MsgBody := .desc d x
    let p := s.pair
    let r : TableRec := { tenant := 7, part := 2 }
    linkLive s = true
    ∧ b = .desc d x
    ∧ m.more = false
    ∧ (∀ y ∈ p.parts, sameObject y.1 m = false)
    ∧ Opcode.ofByte d.opcode.toNat = some .rowUpdate
    ∧ tableOf s (d.argA.toNat % 64) = some r
    ∧ mutRole s m.tenant (some r.ownerPos) = .mirrored
    ∧ takesWork s r.part.toNat none = none := by decide +kernel

theorem wit_PartnerMessagesAreApplied_14 :
    let s : State := fwd
    let m : MsgHdr := hd 0x10 5
    let n : Nat := 3
    let x : BitVec 32 := 4
    let b : MsgBody := .final n x
    let h : Nat := 9
    let p := s.pair
    let r : Request := { fn := 7, qp := 1, tag := 6, op := .rowUpdate, phase := .forwarded }
    linkLive s = true
    ∧ p.forwards.find? (fun h => (reqOf s h).any fun r => decide (r.fn = m.tenant ∧ r.tag = m.ref)) = some h
    ∧ b = .final n x
    ∧ reqOf s h = some r
    ∧ r.op ≠ .indexInsert
    ∧ r.phase ≠ .ending
    ∧ r.remote = false
    ∧ canPost s r.fn r.qp := by decide +kernel

theorem wit_PartnerMessagesAreApplied_15 :
    let s : State := setPart (live .up id) 2 fun q => { q with prog := some {}, storeBase := 0, storeCount := 128 }
    let tile : TileIdx := 40
    let y : Tile := T1
    let b : MsgBody := .tile y
    linkLive s = true
    ∧ b = .tile y := by exact ⟨rfl, rfl⟩

theorem wit_PartnerMessagesAreApplied_16 :
    let s : State := setPart (live .up fun p => { p with provisional := [{ part := 2, epoch := 9, tile := 40, link := true }, { part := 2, epoch := 10, tile := 41, link := true }] }) 3 fun q => { q with step := { provisional := [(2, 9), (2, 10)] } }
    linkLive s = true := by decide +kernel

theorem wit_PartnerMessagesAreApplied_17 :
    let s : State := ix <| wbTile (live .up id)
    let a : BitVec 48 := 65536
    let b : MsgBody := .addr a
    let y : Tile := { payload := [1, 2] }
    linkLive s = true
    ∧ b = .addr a
    ∧ mirrored s (devExtent (a.toNat / 16384)) = true
    ∧ devTile s (a.toNat / 16384) = some y := by decide +kernel

theorem wit_PartnerMessagesAreApplied_18 :
    let s : State := live .up id
    let a : BitVec 48 := 65536
    let b : MsgBody := .addr a
    linkLive s = true
    ∧ b = .addr a
    ∧ mirrored s (devExtent (a.toNat / 16384)) = false := by decide +kernel

theorem wit_PartnerMessagesAreApplied_19 :
    let s : State := wbTile (live .up fun p => { p with reads := [65536] })
    let m : MsgHdr := hd 0x51 0
    let tile : TileIdx := 40
    let y : Tile := T1
    let b : MsgBody := .tile y
    let a : BitVec 48 := 65536
    let p := s.pair
    linkLive s = true
    ∧ a ∈ p.reads
    ∧ b = .tile y
    ∧ m.status = 0
    ∧ y.crcOk = true := by exact ⟨by decide +kernel, by decide +kernel, rfl, rfl, sealed_ok _⟩

theorem wit_PartnerMessagesAreApplied_20 :
    let s : State := wbTile (live .up fun p => { p with reads := [65536] })
    let m : MsgHdr := { hd 0x51 0 with status := 9 }
    let tile : TileIdx := 40
    let y : Tile := T1
    let b : MsgBody := .tile y
    let a : BitVec 48 := 65536
    let p := s.pair
    linkLive s = true
    ∧ a ∈ p.reads
    ∧ b = .tile y
    ∧ (m.status ≠ 0 ∨ y.crcOk = false) := by exact ⟨by decide +kernel, by decide +kernel, rfl, .inl (by decide)⟩

theorem wit_PartnerMessagesAreApplied_21 :
    let s : State := live .up fun p => { lease7 (fun l => { l with word := { held := true, holder := true, tenant := 7 } }) p with journal := [J 3 none] }
    let p := s.pair
    let calm := (∀ e ∈ p.journal, e.handle = none) ∧ p.forwards = [] ∧ p.waitMut = []
    linkLive s = true
    ∧ calm
    ∧ p.turns = []
    ∧ p.provisional = []
    ∧ (∀ x ∈ p.leases, x.1 < 512) := by decide +kernel

theorem wit_PartnerMessagesAreApplied_22 :
    let s : State := live .up (lease7 fun l => { l with word := { held := true, holder := false, tenant := 7, count := 4 } })
    let m : MsgHdr := { hd 0x61 0 with ref := 4 }
    let p := s.pair
    let l := leaseOf s m.tenant
    p.link = .up
    ∧ l.word.held = true
    ∧ l.word.holder = p.position
    ∧ m.ref.toNat ≤ p.jApplied := by decide +kernel

theorem wit_PartnerMessagesAreApplied_23 :
    let s : State := live .up fun p => { p with turns := [{ turnM with tag := 8 }] }
    let m : MsgHdr := hd 0x10 5
    let d : Descriptor := {}
    let x : Bytes := [1]
    let b : MsgBody := .desc d x
    let p := s.pair
    p.link = .up
    ∧ b = .desc d x
    ∧ (∀ t ∈ p.turns, sameTurn m t = false) := by decide +kernel

theorem wit_PartnerMessagesAreApplied_24 :
    let s : State := live .up fun p => { p with turns := [{ turnM with tag := 8 }, turnM] }
    let d : Bytes := [97]
    let e : Bool := true
    let b : MsgBody := .text d e
    let p := s.pair
    p.link = .up
    ∧ b = .text d e := by decide +kernel

theorem wit_PartnerMessagesAreApplied_25 :
    let s : State := ix (live .up fun p => { p with turns := [{ turnM with tag := 8 }, turnM] })
    let m : MsgHdr := hd 0x10 5
    let p := s.pair
    let x : MirrorTurn := turnM
    p.link = .up
    ∧ p.turns.find? (sameTurn m) = some x
    ∧ x.snap = none := by decide +kernel

theorem wit_PartnerMessagesAreApplied_26 :
    let s : State := live .up fun p => { p with turns := [{ turnM with tag := 8 }, turnM] }
    let m : MsgHdr := hd 0x10 5
    let p := s.pair
    p.link = .up
    ∧ (∀ x ∈ p.turns, sameTurn m x = true → x.snap = none) := by decide +kernel

theorem wit_PartnerMessagesAreApplied_27 :
    let s : State := { live .up (fun p => { p with journal := [J 8 none, J 9 (some 5)] }) with bureau := { reqTimer := 10005 } }
    let h : Nat := 9
    let p := s.pair
    let e : JournalEntry := J 9 (some 5)
    let calm := (∀ e ∈ p.journal, e.handle = none) ∧ p.forwards = [] ∧ p.waitMut = []
    e ∈ p.journal
    ∧ e.jseq = h
    ∧ linkLive s = true
    ∧ calm
    ∧ (∃ x, e.sentAt = some x ∧ 1000 * p.mirrorTimeout.toNat ≤ since x (now s)) := by exact ⟨by decide, rfl, by decide +kernel, by decide +kernel, ⟨5, rfl, by decide +kernel⟩⟩

theorem wit_PartnerMessagesAreApplied_28 :
    let s : State := live .up fun p => { p with journal := [J 8 (some 5), J 9 none] }
    let h : Nat := 9
    let p := s.pair
    (∀ e ∈ p.journal, e.jseq = h → e.sentAt = none) := by decide +kernel

end I2

/-! ## Witnesses: leases -/

namespace I3

/-- Tenant 7's lease as module 0 sees it, the module paired and its link UP, at a time. -/
def leased (f : LeaseInfo → LeaseInfo) (g : PairState → PairState) (t : BitVec 48) : State := { pair := g { enable := true, link := .up, lanes := 8, pairId := 3, leases := [(7, f {})] }, bureau := { reqTimer := t } }
/-- The other module holds it. -/
def theirs (l : LeaseInfo) : LeaseInfo := { l with word := { held := true, holder := true, tenant := 7, count := 4, solo := true } }
def ours (l : LeaseInfo) : LeaseInfo := { l with mine := true, word := { held := true, holder := false, tenant := 7, count := 4 } }


theorem wit_LeasesAreRenewedTakenAndHandedOver_1 :
    let s : State := { leased theirs id 100 with pair := { (leased theirs id 100).pair with enable := false } }
    let p := s.pair
    p.enable = false := by decide +kernel

theorem wit_LeasesAreRenewedTakenAndHandedOver_2 :
    let s : State := leased theirs id 100
    let n : Tenant := 7
    let p := s.pair
    let l := leaseOf s n
    p.enable = true
    ∧ l.holdFrom = none := by decide +kernel

theorem wit_LeasesAreRenewedTakenAndHandedOver_3 :
    let s : State := leased ours id 499999
    let n : Tenant := 7
    let l := leaseOf s n
    (l.mine = false ∨ since l.renewedAt (now s) < 500000) := by decide +kernel

theorem wit_LeasesAreRenewedTakenAndHandedOver_4 :
    let s : State := leased ours id 500000
    let n : Tenant := 7
    let p := s.pair
    let l := leaseOf s n
    p.enable = true
    ∧ l.mine = true
    ∧ 500000 ≤ since l.renewedAt (now s) := by decide +kernel

theorem wit_LeasesAreRenewedTakenAndHandedOver_5 :
    let s : State := leased id id 0
    let n : Tenant := 7
    let p := s.pair
    let l := leaseOf s n
    p.enable = true
    ∧ l.mine = false
    ∧ l.word.held = false
    ∧ prefers s n = p.position := by decide +kernel

theorem wit_LeasesAreRenewedTakenAndHandedOver_6 :
    let s : State := leased id (fun p => { p with position := true }) 2000000
    let n : Tenant := 7
    let p := s.pair
    let l := leaseOf s n
    p.enable = true
    ∧ l.mine = false
    ∧ l.word.held = false
    ∧ prefers s n ≠ p.position
    ∧ 2000000 ≤ since l.changedAt (now s) := by decide +kernel

theorem wit_LeasesAreRenewedTakenAndHandedOver_7 :
    let s : State := leased theirs id 2000000
    let n : Tenant := 7
    let p := s.pair
    let l := leaseOf s n
    p.enable = true
    ∧ l.mine = false
    ∧ l.word.held = true
    ∧ l.word.holder ≠ p.position
    ∧ 2000000 ≤ since l.changedAt (now s)
    ∧ (∀ x ∈ p.turns, x.tenant ≠ n) := by decide +kernel

theorem wit_LeasesAreRenewedTakenAndHandedOver_8 :
    let s : State := leased theirs id 1999999
    let n : Tenant := 7
    let p := s.pair
    let l := leaseOf s n
    l.mine = false
    ∧ (l.word.held = true ∨ prefers s n ≠ p.position)
    ∧ since l.changedAt (now s) < 2000000 := by decide +kernel

theorem wit_LeasesAreRenewedTakenAndHandedOver_9 :
    let s : State := leased ours id 1500000
    let n : Tenant := 7
    let l := leaseOf s n
    l.mine = true
    ∧ 1500000 ≤ since l.renewedAt (now s) := by decide +kernel

theorem wit_LeasesAreRenewedTakenAndHandedOver_10 :
    let s : State := leased ours id 1499999
    let n : Tenant := 7
    let l := leaseOf s n
    (l.mine = false ∨ since l.renewedAt (now s) < 1500000) := by decide +kernel

theorem wit_LeasesAreRenewedTakenAndHandedOver_11 :
    let s : State := leased ours (fun p => { p with failbackUsed := true, upAt := some 5, prefer := [(0, 0x80)], preferUsed := [(0, 0x80)] }) 10000005
    let n : Tenant := 7
    let p := s.pair
    let l := leaseOf s n
    p.failbackUsed = true
    ∧ (∃ u, p.upAt = some u ∧ 10000000 ≤ since u (now s))
    ∧ prefers s n ≠ p.position
    ∧ l.handingOver = false
    ∧ l.mine = true
    ∧ p.link = .up
    ∧ (∀ e ∈ p.journal, e.hdr.tenant ≠ n) := by exact ⟨rfl, ⟨5, rfl, by decide +kernel⟩, by decide +kernel, by decide +kernel, by decide +kernel, rfl, by decide +kernel⟩

theorem wit_LeasesAreRenewedTakenAndHandedOver_12 :
    let s : State := leased theirs id 100
    let p := s.pair
    let calm := (∀ e ∈ p.journal, e.handle = none) ∧ p.forwards = [] ∧ p.waitMut = []
    s.bureau.recovery = false
    ∧ p.enable = true
    ∧ calm
    ∧ p.turns = []
    ∧ (∀ x ∈ p.leases, x.1 < 512) := by decide +kernel

theorem wit_LeasesAreRenewedTakenAndHandedOver_13 :
    let s : State := leased ours (fun p => { p with link := .sync }) 0
    let p := s.pair
    s.bureau.recovery = false
    ∧ p.link ≠ .up := by decide +kernel

theorem wit_LeasesAreRenewedTakenAndHandedOver_14 :
    let s : State := leased ours id 0
    let n : Tenant := 7
    let p := s.pair
    let l := leaseOf s n
    s.bureau.recovery = false
    ∧ p.link = .up
    ∧ l.mine = true
    ∧ (∀ e ∈ p.journal, e.hdr.tenant ≠ n) := by decide +kernel

theorem wit_LeasesAreRenewedTakenAndHandedOver_15 :
    let s : State := leased (fun l => { ours l with soloPending := true }) id 0
    let n : Tenant := 7
    let p := s.pair
    let l := leaseOf s n
    s.bureau.recovery = false
    ∧ l.soloPending = true
    ∧ p.waitMut = [] := by decide +kernel

theorem wit_LeasesAreRenewedTakenAndHandedOver_16 :
    let s : State := leased theirs id 100
    let n : Tenant := 7
    let l := leaseOf s n
    s.bureau.recovery = false
    ∧ l.soloPending = false := by decide +kernel

end I3

/-! ## Witnesses: flash -/

namespace J1

/-- Channel 1, die 0 with 2^20 pages a block: 8 blocks. Unit 1 is mapped to page 3 of block 5. -/
def at5 : PagePos := { chan := 1, die := 0, block := 5, page := 3 }
def pgm : NandPage := { unit := 1, seq := 9, payload := [1, 2], group := some 4 }
def e5 : BitVec 32 := BitVec.ofNat 32 (2 ^ 30 + 5 * 2 ^ 20 + 3)
def blk5 (f : FlashBlock → FlashBlock) : FlashBlock := f { pe := 2, wp := 10, pages := [(3, pgm)], group := some 4 }
def fl (f : FlashState → FlashState) : State := { flash := f { map := [(1, e5)], params := [(16, (1048576, 1000))], blocks := [(fblkKey 1 0 5, blk5 id)] }, bureau := { reqTimer := 256000, recTime := 500 } }
def grp (v : Bool) : ParityGroup := { col := 0, reloc := false, members := [(1, 0, 5)], closed := true, verified := v }
def prg : PageProgram := { pos := { at5 with page := 4 }, page := { unit := 33, seq := 12, payload := [7] } }
/-- Only two blocks a die, one of them written whole. -/
def small : State := fl fun F => { F with params := [(16, (4194304, 1000))], blocks := [(fblkKey 1 0 0, blk5 fun b => { b with wp := 4194304, pages := [], group := none })] }
/-- Block 5 is young, block 6 is old, block 7 is free. -/
def worn : State := fl fun F => { F with blocks := [(fblkKey 1 0 5, blk5 id), (fblkKey 1 0 6, blk5 fun b => { b with pe := 500 })] }


theorem wit_FlashPagesMapAndBlocks_1 :
    let s : State := {}
    let u : Nat := 1
    entryState (mapOf s u) = 0 := by decide +kernel

theorem wit_FlashPagesMapAndBlocks_2 :
    let s : State := fl fun F => { F with map := [(1, BitVec.ofNat 32 (2 * 2 ^ 30))] }
    let u : Nat := 1
    entryState (mapOf s u) = 2 := by decide +kernel

theorem wit_FlashPagesMapAndBlocks_3 :
    let s : State := fl fun F => { F with programs := [prg, { prg with suspends := 4 }], blocks := [(fblkKey 1 0 5, blk5 id), (fblkKey 1 0 6, blk5 fun b => { b with erasing := some 1 })] }
    let u : Nat := 1
    entryState (mapOf s u) = 1 := by decide +kernel

theorem wit_FlashPagesMapAndBlocks_4 :
    let s : State := fl fun F => { F with programs := [prg] }
    let i : Nat := 0
    let x : PageProgram := prg
    let F := s.flash
    F.programs[i]? = some x
    ∧ x.page.kind = 1
    ∧ x.waiter = .nobody
    ∧ x.page.group = none
    ∧ entryState (mapOf s x.page.unit) ≠ 1 := by decide +kernel

theorem wit_FlashPagesMapAndBlocks_5 :
    let pos : PagePos := at5
    let s : State := fl fun F => { F with programs := [{ prg with pos := { at5 with block := 6 } }], blocks := [(fblkKey 1 0 5, blk5 id), (fblkKey 1 0 6, blk5 fun b => { b with pages := [] })] }
    let i : Nat := 0
    let x : PageProgram := { prg with pos := { at5 with block := 6 } }
    let F := s.flash
    F.programs[i]? = some x
    ∧ validPages s x.pos.chan x.pos.die x.pos.block = []
    ∧ (∀ y ∈ F.groups, mfind F.groups y.1 = some y.2) := by decide +kernel

theorem wit_FlashPagesMapAndBlocks_6 :
    let s : State := fl id
    let i : Nat := 0
    let F := s.flash
    F.programs[i]? = none := by decide +kernel

theorem wit_FlashPagesMapAndBlocks_7 :
    let s : State := {}
    let u : Nat := 1
    entryState (mapOf s u) ≠ 1 := by decide +kernel

theorem wit_FlashPagesMapAndBlocks_8 :
    let s : State := fl id
    let u : Nat := 1
    let r : FlashRead := { bits := 10, retried := false, ok := true, uncw := 0 }
    let pos : PagePos := at5
    let pg : NandPage := pgm
    entryState (mapOf s u) = 1
    ∧ entryPos s u (mapOf s u) = pos
    ∧ pageAt s pos = some pg
    ∧ r.uncw = 0
    ∧ r.ok = true
    ∧ r.retried = false
    ∧ r.bits ≤ 196 := by intro s; unfold entryPos unitCol colDie Config.ncol; generalize Config.codeA = a; cases a <;> decide +kernel

theorem wit_FlashPagesMapAndBlocks_9 :
    let s : State := fl id
    let u : Nat := 1
    let r : FlashRead := { bits := 197, retried := false, ok := true, uncw := 0 }
    let pos : PagePos := at5
    let pg : NandPage := pgm
    entryState (mapOf s u) = 1
    ∧ entryPos s u (mapOf s u) = pos
    ∧ pageAt s pos = some pg
    ∧ r.uncw = 0
    ∧ r.ok = true
    ∧ (r.retried = true ∨ 196 < r.bits) := by intro s; unfold entryPos unitCol colDie Config.ncol; generalize Config.codeA = a; cases a <;> decide +kernel

theorem wit_FlashPagesMapAndBlocks_10 :
    let s : State := fl fun F => { F with groups := [(4, grp false)] }
    let u : Nat := 1
    let r : FlashRead := { bits := 10, retried := true, ok := false, uncw := 0 }
    let pos : PagePos := at5
    let pg : NandPage := pgm
    entryState (mapOf s u) = 1
    ∧ entryPos s u (mapOf s u) = pos
    ∧ pageAt s pos = some pg
    ∧ r.uncw = 0
    ∧ r.ok = false
    ∧ groupVerified s pg = false := by intro s; unfold entryPos unitCol colDie Config.ncol; generalize Config.codeA = a; cases a <;> decide +kernel

theorem wit_FlashPagesMapAndBlocks_11 :
    let s : State := { fl (fun F => { F with groups := [(4, grp true)] }) with tier := { leaves := [(3, { valid := true, homeTier := 3, homeLoc := 0, cls := 0 })] } }
    let u : Nat := 1
    let r : FlashRead := { bits := 10, retried := true, ok := false, uncw := 0 }
    let pos : PagePos := at5
    let pg : NandPage := pgm
    entryState (mapOf s u) = 1
    ∧ entryPos s u (mapOf s u) = pos
    ∧ pageAt s pos = some pg
    ∧ r.uncw = 0
    ∧ r.ok = false
    ∧ groupVerified s pg = true := by intro s; unfold entryPos unitCol colDie Config.ncol; generalize Config.codeA = a; cases a <;> decide +kernel

theorem wit_FlashPagesMapAndBlocks_12 :
    let s : State := fl fun F => { F with ring := [{ unit := 1, entry := 5, seq := 3, type := 1 }], groups := [(4, grp false), (5, grp true)] }
    let F := s.flash
    (256000 ≤ since F.flushedAt (now s) ∨ 4096 ≤ ringMaps s) := by decide +kernel

theorem wit_FlashPagesMapAndBlocks_13 :
    let s : State := { fl id with bureau := { reqTimer := 255999 } }
    let F := s.flash
    since F.flushedAt (now s) < 256000
    ∧ ringMaps s < 4096 := by decide +kernel

theorem wit_FlashPagesMapAndBlocks_15 :
    let s : State := fl fun F => { F with groups := [(4, grp false)] }
    let g : Nat := 4
    let F := s.flash
    let y := grp false
    mfind F.groups g = some y
    ∧ y.closed = true
    ∧ y.verified = false
    ∧ F.stalled = [] := by decide +kernel

theorem wit_FlashPagesMapAndBlocks_16 :
    let s : State := fl fun F => { F with groups := [(4, grp false)] }
    let g : Nat := 4
    let pos : PagePos := at5
    let pg : NandPage := pgm
    let F := s.flash
    let y := grp false
    mfind F.groups g = some y
    ∧ y.closed = true
    ∧ y.verified = false
    ∧ pageAt s pos = some pg
    ∧ pg.group = some g := by decide +kernel

theorem wit_FlashPagesMapAndBlocks_17 :
    let s : State := fl id
    let g : Nat := 4
    let F := s.flash
    mfind F.groups g = none := by decide +kernel

theorem wit_FlashPagesMapAndBlocks_18 :
    let s : State := fl id
    let c : Nat := 1
    let d : Nat := 0
    let b : Nat := 5
    let blk := fblkOf s c d b
    blk.rewriteBy = none := by decide +kernel

theorem wit_FlashPagesMapAndBlocks_19 :
    let b : Nat := 5
    let s : State := fl fun F => { F with blocks := [(fblkKey 1 0 5, blk5 fun b => { b with rewriteBy := some 7 })] }
    let c : Nat := 1
    let d : Nat := 0
    let blk := fblkOf s c d b
    blk.rewriteBy ≠ none := by decide +kernel

theorem wit_FlashPagesMapAndBlocks_20 :
    let s : State := fl id
    let c : Nat := 1
    let d : Nat := 0
    4 ≤ (freeBlocks s c d).length := by decide +kernel

theorem wit_FlashPagesMapAndBlocks_21 :
    let s : State := small
    let c : Nat := 1
    let d : Nat := 0
    let F := s.flash
    let full := fun (e : Nat × FlashBlock) => e.1 / 2 ^ 23 = fdieKey c d ∧ ppb s c d ≤ e.2.wp ∧ e.2.retired = false ∧ e.2.erasing = none
    (freeBlocks s c d).length < 4
    ∧ (∃ e ∈ F.blocks, full e) := by decide +kernel

theorem wit_FlashPagesMapAndBlocks_22 :
    let s : State := fl id
    let c : Nat := 1
    let d : Nat := 0
    let b : Nat := 5
    let x : FlashBlock := blk5 id
    let col := 0
    let x : FlashBlock := blk5 id
    let m := (1, 0, 0)
    let spread := (dataBlocks s c col).foldl (fun n y => max n y.2.2.pe) 0 - x.pe
    youngest (dataBlocks s c col) = some (d, b, x)
    ∧ wornFree s c col = some m
    ∧ spread ≤ s.limits.wlSpread := by intro s; unfold dataBlocks wornFree colDie; generalize Config.codeA = a; cases a <;> decide +kernel

theorem wit_FlashPagesMapAndBlocks_23 :
    let s : State := worn
    let c : Nat := 1
    let d : Nat := 0
    let b : Nat := 5
    let x : FlashBlock := blk5 id
    let F := s.flash
    let col := 0
    let x : FlashBlock := blk5 id
    let m := (1, 0, 0)
    let spread := (dataBlocks s c col).foldl (fun n y => max n y.2.2.pe) 0 - x.pe
    youngest (dataBlocks s c col) = some (d, b, x)
    ∧ wornFree s c col = some m
    ∧ s.limits.wlSpread < spread
    ∧ mfind F.movedAt (fdieKey c d) = none := by intro s; unfold dataBlocks wornFree colDie; generalize Config.codeA = a; cases a <;> decide +kernel

theorem wit_FlashPagesMapAndBlocks_24 :
    let s : State := fl fun F => { F with map := [] }
    let c : Nat := 1
    let d : Nat := 0
    let b : Nat := 5
    eraseReady s c d b = true := by decide +kernel

theorem wit_FlashPagesMapAndBlocks_25 :
    let s : State := fl fun F => { F with map := [], ring := [{ unit := 1, entry := 5, seq := 3, type := 1 }] }
    let c : Nat := 1
    let d : Nat := 0
    let b : Nat := 5
    eraseReady s c d b = false := by decide +kernel

theorem wit_FlashPagesMapAndBlocks_26 :
    let s : State := fl id
    let c : Nat := 1
    let d : Nat := 0
    let b : Nat := 5
    let blk := fblkOf s c d b
    blk.erasing = none := by decide +kernel

theorem wit_FlashPagesMapAndBlocks_27 :
    let b : Nat := 5
    let s : State := fl fun F => { F with blocks := [(fblkKey 1 0 5, blk5 fun b => { b with erasing := some 2 })] }
    let c : Nat := 1
    let d : Nat := 0
    let F := s.flash
    let blk := fblkOf s c d b
    blk.erasing ≠ none
    ∧ F.stalled = [] := by decide +kernel

theorem wit_FlashPagesMapAndBlocks_28 :
    let b : Nat := 5
    let s : State := fl fun F => { F with blocks := [(fblkKey 1 0 5, blk5 fun b => { b with erasing := some 2 })] }
    let c : Nat := 1
    let d : Nat := 0
    let blk := fblkOf s c d b
    blk.erasing ≠ none := by decide +kernel

theorem wit_FlashPagesMapAndBlocks_29 :
    let s : State := fl id
    let F := s.flash
    F.rebuilding = false := by decide +kernel

theorem wit_FlashPagesMapAndBlocks_30 :
    let s : State := fl fun F => { F with rebuilding := true, journal := [{ unit := 1, entry := 5, seq := 3, type := 1 }] }
    let F := s.flash
    F.rebuilding = true
    ∧ F.checkpoint = none := by decide +kernel

end J1

/-! ## Witnesses: the Bureau -/

namespace J2

/-- Source 9 of the interrupt controller; record time t. -/
def ic (x : IcSource) (t : BitVec 48) : State := { bureau := { recTime := t, reqTimer := t, sources := [(9, x)] } }
def src9 : IcSource := { targets := 5, priority := 3 }
/-- Source 9 pending and given to target 2, source 8 at the same priority, source 7 below the threshold. -/
def claims : State := { bureau := { sources := [(7, { src9 with pending := true, assigned := some 2, priority := 1 }), (8, { src9 with pending := true, assigned := some 2 }), (9, { src9 with pending := true, assigned := some 2 })], threshold := [(2, 1)], edge := [(0, 0x200)] } }
/-- Core 2 entered stage 1 at time 5 and is stopped. -/
def stage1 (t : BitVec 48) : State := { bureau := { recTime := t, stage1At := [(2, 5)], stoppedCores := [2], kickAt := [(2, 3)] } }
def tick : LoopSample := { power := 500, j1Mv := 12000, j1Ma := 3 }
def looping : State := { power := { domains := [0, 1, 6, 7, 8, 9, 10] }, fabric := { rate := [(0, 1100), (6, 1100), (7, 1200)] }, limits := { ({} : State).limits with powerCap := 460 }, bureau := { recTime := 20000, since := [(condKey 0 6, 10000)], volt := [(6, 850)] } }


theorem wit_BureauLoopsAndInterrupts_1 :
    let level : Bool := false
    let s : State := ic { src9 with level := true } 0
    let n : BitVec 8 := 9
    let src := icOf s n.toNat
    src.line = level := by decide +kernel

theorem wit_BureauLoopsAndInterrupts_2 :
    let s : State := ic { src9 with level := true } 0
    let n : BitVec 8 := 9
    let src := icOf s n.toNat
    src.line = false
    ∧ src.level = true := by decide +kernel

theorem wit_BureauLoopsAndInterrupts_3 :
    let s : State := ic { src9 with level := true, line := true, pending := true, assigned := some 0 } 0
    let n : BitVec 8 := 9
    let src := icOf s n.toNat
    src.line = true
    ∧ src.level = true := by decide +kernel

theorem wit_BureauLoopsAndInterrupts_4 :
    let s : State := ic { src9 with line := true, pending := true } 0
    let n : BitVec 8 := 9
    let src := icOf s n.toNat
    src.line = true
    ∧ src.level = false := by decide +kernel

theorem wit_BureauLoopsAndInterrupts_5 :
    let s : State := ic { src9 with pending := true } 0
    let n : BitVec 8 := 9
    let src := icOf s n.toNat
    src.line = false
    ∧ src.level = false := by decide +kernel

theorem wit_BureauLoopsAndInterrupts_6 :
    let s : State := ic { src9 with pending := true } 0
    let n : BitVec 8 := 9
    let src := icOf s n.toNat
    let t : BitVec 2 := 0
    src.pending = true
    ∧ src.active = false
    ∧ src.assigned = none
    ∧ src.priority ≠ 0
    ∧ src.order.head? = some t := by decide +kernel

theorem wit_BureauLoopsAndInterrupts_7 :
    let s : State := {}
    let k : BitVec 2 := 2
    claimable s k = none := by decide +kernel

theorem wit_BureauLoopsAndInterrupts_8 :
    let s : State := claims
    let n : BitVec 8 := 9
    let k : BitVec 2 := 2
    claimable s k = some n.toNat := by decide +kernel

theorem wit_BureauLoopsAndInterrupts_9 :
    let s : State := ic { src9 with active := true, activeOn := some 2, edgeWaits := true } 0
    let n : BitVec 8 := 9
    let k : BitVec 2 := 2
    let src := icOf s n.toNat
    src.active = true
    ∧ src.activeOn = some k := by decide +kernel

theorem wit_BureauLoopsAndInterrupts_10 :
    let s : State := ic { src9 with active := true, activeOn := some 1 } 0
    let n : BitVec 8 := 9
    let k : BitVec 2 := 2
    let src := icOf s n.toNat
    (src.active = false ∨ src.activeOn ≠ some k) := by decide +kernel

theorem wit_BureauLoopsAndInterrupts_11 :
    let s : State := stage1 60000006
    let k : BitVec 2 := 2
    let B := s.bureau
    (∀ t, mfind B.stage1At k.toNat = some t → 60000000 < since t (recNow s)) := by intro s k B t h; have e : mfind B.stage1At k.toNat = some 5 := (by decide +kernel); rw [e] at h; obtain rfl := Option.some.inj h; decide +kernel

theorem wit_BureauLoopsAndInterrupts_12 :
    let s : State := stage1 60000005
    let k : BitVec 2 := 2
    let B := s.bureau
    let t : BitVec 48 := 5
    mfind B.stage1At k.toNat = some t
    ∧ since t (recNow s) ≤ 60000000 := by decide +kernel

theorem wit_BureauLoopsAndInterrupts_13 :
    let s : State := stage1 1000005
    let k : BitVec 2 := 2
    let B := s.bureau
    let t : BitVec 48 := 5
    mfind B.stage1At k.toNat = some t
    ∧ k ∈ B.stoppedCores
    ∧ 1000000 ≤ since t (recNow s) := by decide +kernel

theorem wit_BureauLoopsAndInterrupts_14 :
    let s : State := {}
    let k : BitVec 2 := 2
    let B := s.bureau
    k ∉ B.stoppedCores := by decide +kernel

theorem wit_BureauLoopsAndInterrupts_16 :
    let s : State := looping
    let d : Nat := 6
    condHeld s (condKey 0 d) 10000 = true
    ∧ voltOf s d = 850
    ∧ rateOf s d ≤ 1100 := by decide +kernel

theorem wit_BureauLoopsAndInterrupts_17 :
    let s : State := { looping with bureau := { looping.bureau with recTime := 19999 } }
    let d : Nat := 6
    condHeld s (condKey 0 d) 10000 = false := by decide +kernel

theorem wit_BureauLoopsAndInterrupts_18 :
    let s : State := { looping with bureau := { looping.bureau with since := [(condKey 2 0, 5)], recTime := 1000005 } }
    let power : Nat := 500
    condHeld s (condKey 2 0) 1000000 = true
    ∧ s.limits.powerCap < power := by decide +kernel

theorem wit_BureauLoopsAndInterrupts_19 :
    let s : State := looping
    let power : Nat := 460
    power ≤ s.limits.powerCap := by decide +kernel

theorem wit_BureauLoopsAndInterrupts_20 :
    let s : State := { looping with bureau := { looping.bureau with since := [(condKey 1 3, 5)], recTime := 100005 } }
    let die : DieId := 3
    let temp : Nat := 1050
    condHeld s (condKey 1 die.toNat) 100000 = true
    ∧ 1050 ≤ temp := by decide +kernel

theorem wit_BureauLoopsAndInterrupts_21 :
    let temp : Nat := 1049
    temp < 1050 := by decide +kernel

theorem wit_BureauLoopsAndInterrupts_22 :
    let s : State := { bureau := { buckets := [(0x0101, { tokens := 7 })] } }
    let code : BitVec 16 := 0x0101
    let B := s.bureau
    let b := mget {} B.buckets code.toNat
    b.suppressed = 0 := by decide +kernel

theorem wit_BureauLoopsAndInterrupts_23 :
    let s : State := { bureau := { buckets := [(0x0101, { tokens := 0, suppressed := 3, first := 5, last := 8, source := 0x3C })] } }
    let code : BitVec 16 := 0x0101
    let B := s.bureau
    let b := mget {} B.buckets code.toNat
    b.suppressed ≠ 0 := by decide +kernel

end J2

/-! ## Witnesses: objects -/

namespace K1

/-- Scratch extent of tenant 4 in the store. -/
def scr (loc : BitVec 25) : ExtentEntry := { valid := true, cls := 2, tenant := 4, copyTier := 1, copyLoc := loc }
/-- Extent 0 read-only with its store copy, extent 1 write-back. -/
def world2 : State := withExt (withExt {} 0 { cls := 0, tenant := 4, homeTier := 2, homeLoc := 0, copyTier := 1, copyLoc := 7 }) 1 { cls := 1, tenant := 4, homeTier := 3, homeLoc := 0, copyTier := 2, copyLoc := 3 }
def ix4 : IndexRec := { tenant := 4, epoch := 0, oldestSnap := 0, insertNext := 0, centBase := 0, recBase := 16384, graphBase := 32768, entryBase := 49152, codebookBase := 16384 * 10, passageBase := 16384 * 20, listdirBase := 2097152, insertBase := 2097152 + 16384, deltaBase := 2097152 + 32768, tombBase := 2097152 + 49152 }
/-- The bytes of a new index 5 of one list and dimension 64, as ix4 places it. -/
def ixBytes : Bytes :=
  [(0, [1]), (2, [5]), (4, [4]), (6, [64]), (8, [16, 96, 1, 1, 1]), (19, [1]), (28, [64]), (40, [0, 64]), (48, [0, 128]), (56, [0, 192]), (64, [0, 128, 2]),
   (72, [0, 0, 32]), (80, [0, 0, 5]), (88, [0, 64, 32]), (104, [0, 128, 32]), (112, [1]), (116, [1]), (120, [0, 192, 32])].foldl (fun b x => splice b x.1 x.2) (pad 128 [])
/-- The bytes of a new table 5 of 4 rows and 32 columns. -/
def tbBytes (cols : Byte) : Bytes :=
  [(0, [1]), (2, [5]), (4, [4]), (6, [cols]), (8, [4]), (16, [2]), (34, [32]), (42, [32]), (50, [32]), (57, [64, 32]), (65, [128, 32])].foldl
    (fun b x => splice b x.1 x.2) (pad 72 [])
def tb4 : TableRec := { tenant := 4, cols := 32, rows := 4, part := 2, mapBase := 2097152, hotBase := 2097152, warmBase := 2097152, coldBase := 2097152 + 16384, countBase := 2097152 + 32768 }
def withIx (i : IndexRec) (s : State) : State := { s with gen := { s.gen with indexes := [(5, i)] } }
def withTb (t : TableRec) (s : State) : State := { s with gen := { s.gen with tables := [(5, t)] } }
def adapters (n : Nat) : State := { gen := { adapters := [(1, { tenant := 4, number := 1, part := 2, refs := n }), (2, { tenant := 5, number := 1, part := 2, refs := 3 })] } }

/-- Many indexes over one list directory whose first list is full. -/
def fullDir : State :=
  withTile world2 128 (List.replicate 32 255) |> fun s => withExt s 1 { cls := 1, tenant := 4, homeTier := 3, homeLoc := 0, copyTier := 2, copyLoc := 1 }
def ixFull : IndexRec := { tenant := 4, centroids := 1, listdirBase := 2097152 }
def crowded : State := { fullDir with gen := { fullDir.gen with indexes := List.replicate 1000 (9, ixFull) } }
theorem room_of (s : State) (n : Nat) (h : (s.gen.indexes.map fun x => heldPassages s x.2).sum + n ≤ 8000000000) : passageRoom s n = true := by
  unfold passageRoom Config.passagesMax; refine decide_eq_true ?_; split <;> omega
theorem sum_replicate (f : Nat × IndexRec → Nat) (n : Nat) (r : Nat × IndexRec) : ((List.replicate n r).map f).sum = n * f r := by simp
theorem crowded_full (n : Nat) : passageRoom crowded n = false := by
  have e : (crowded.gen.indexes.map fun x => heldPassages crowded x.2).sum = 1000 * heldPassages crowded ixFull :=
    sum_replicate (fun x => heldPassages crowded x.2) 1000 (9, ixFull)
  have v : heldPassages crowded ixFull = 16781310 := by decide +kernel
  unfold passageRoom Config.passagesMax; rw [e, v]; refine decide_eq_false ?_; split <;> omega
theorem crowded_extents : indexExtentsOk crowded (indexOfBytes ixBytes) = true := by decide +kernel


theorem wit_ObjectsAreMadeAndRemoved_1 :
    let s : State := withExt {} 4 (scr 6)
    let x : Nat := 5
    let e : ExtentEntry := scr 5
    let l : BitVec 11 := 0
    s.bureau.recovery = false
    ∧ x < 134217728
    ∧ mappingAllowed e = true
    ∧ entryOf s x = none
    ∧ isWindow s x = false
    ∧ (e.shared && objectNames s x) = false
    ∧ locFree s e.homeTier e.homeLoc = true
    ∧ locFree s e.copyTier e.copyLoc = true
    ∧ leafFor s x = some l := by decide +kernel

theorem wit_ObjectsAreMadeAndRemoved_2 :
    let s : State := withExt {} 4 (scr 6)
    let x : Nat := 5
    let e : ExtentEntry := { scr 5 with cls := 3 }
    s.bureau.recovery = false
    ∧ (134217728 ≤ x ∨ mappingAllowed e = false) := by decide +kernel

theorem wit_ObjectsAreMadeAndRemoved_3 :
    let s : State := withExt {} 5 (scr 6)
    let x : Nat := 5
    let e : ExtentEntry := scr 5
    s.bureau.recovery = false
    ∧ x < 134217728
    ∧ mappingAllowed e = true
    ∧ (entryOf s x).isSome = true := by decide +kernel

theorem wit_ObjectsAreMadeAndRemoved_4 :
    let s : State := withExt {} 4 (scr 6)
    let x : Nat := 5
    s.bureau.recovery = false
    ∧ entryOf s x = none := by decide +kernel

theorem wit_ObjectsAreMadeAndRemoved_5 :
    let s : State := withExt (withExt {} 4 (scr 6)) 5 (scr 5)
    let x : Nat := 5
    let e : ExtentEntry := scr 5
    let still := e.mstate = 0 ∧ e.newTier = 0 ∧ e.inflight = 0
    s.bureau.recovery = false
    ∧ entryOf s x = some e
    ∧ still
    ∧ extentNamed s x = false
    ∧ isWindow s x = false
    ∧ mfind s.tier.drains x = none
    ∧ isClean (writeBackAll s x) x = true := by decide +kernel

theorem wit_ObjectsAreMadeAndRemoved_6 :
    let s : State := withExt {} 5 { scr 5 with mstate := 1 }
    let x : Nat := 5
    let e : ExtentEntry := { scr 5 with mstate := 1 }
    let still := e.mstate = 0 ∧ e.newTier = 0 ∧ e.inflight = 0
    s.bureau.recovery = false
    ∧ entryOf s x = some e
    ∧ (extentNamed s x = true ∨ isWindow s x = true ∨ ¬ still) := by decide +kernel

theorem wit_ObjectsAreMadeAndRemoved_7 :
    let s : State := withExt (withExt {} 4 (scr 6)) 5 (scr 5)
    let x : Nat := 5
    let e : ExtentEntry := { scr 5 with tenant := 9, world := true, owner := 3, pin := true }
    let old : ExtentEntry := scr 5
    s.bureau.recovery = false
    ∧ entryOf s x = some old
    ∧ mappingAllowed (setAttributes old e) = true
    ∧ isWindow s x = false
    ∧ old.mstate = 0
    ∧ old.newTier = 0
    ∧ old.inflight = 0
    ∧ mfind s.tier.drains x = none
    ∧ setBarred s x old (setAttributes old e) = false
    ∧ e.cls = old.cls
    ∧ ¬ (e.cls = 0 ∧ e.copyTier = 0) := by decide +kernel

theorem wit_ObjectsAreMadeAndRemoved_8 :
    let s : State := withExt {} 5 { cls := 0, tenant := 4, homeTier := 2, homeLoc := 9, copyTier := 1, copyLoc := 7, pin := true }
    let x : Nat := 5
    let e : ExtentEntry := { cls := 0, tenant := 4, homeTier := 2, homeLoc := 9 }
    let old : ExtentEntry := { cls := 0, tenant := 4, homeTier := 2, homeLoc := 9, copyTier := 1, copyLoc := 7, pin := true, valid := true }
    s.bureau.recovery = false
    ∧ entryOf s x = some old
    ∧ mappingAllowed (setAttributes old e) = true
    ∧ setBarred s x old (setAttributes old e) = true := by decide +kernel

theorem wit_ObjectsAreMadeAndRemoved_9 :
    let s : State := withExt (withExt {} 4 (scr 6)) 5 (scr 5)
    let x : Nat := 5
    let e : ExtentEntry := { scr 5 with cls := 3 }
    let old : ExtentEntry := scr 5
    s.bureau.recovery = false
    ∧ entryOf s x = some old
    ∧ mappingAllowed (setAttributes old e) = false := by decide +kernel

theorem wit_ObjectsAreMadeAndRemoved_10 :
    let s : State := world2
    let x : Nat := 5
    let n : Nat := 5
    let ib : Bytes := ixBytes
    let v : State := (pinAll (entryExtents (indexOfBytes ixBytes)) world2).getD {}
    let ir := indexOfBytes ib
    s.bureau.recovery = false
    ∧ s.pair.enable = false
    ∧ indexBytesOk n ib = true
    ∧ n < 256
    ∧ indexFieldsOk ir = true
    ∧ indexExtentsOk s ir = true
    ∧ indexOf s n = none
    ∧ (s.gen.indexes.map fun x => x.2.centroids).sum + ir.centroids ≤ 33554432
    ∧ passageRoom s (heldPassages s ir) = true
    ∧ storeTakes s (1 + (ir.entryCount * ir.dim + 16383) / 16384) = true
    ∧ pinAll (entryExtents ir) s = some v
    ∧ v.gen = s.gen := by exact ⟨rfl, rfl, by decide +kernel, by decide, by decide +kernel, by decide +kernel, by decide +kernel, by decide +kernel, room_of _ _ (by decide +kernel), by decide +kernel, (by have h : (pinAll (entryExtents (indexOfBytes ixBytes)) world2).isSome = true := (by decide +kernel); obtain ⟨w, hw⟩ := Option.isSome_iff_exists.1 h; show pinAll (entryExtents (indexOfBytes ixBytes)) world2 = some ((pinAll (entryExtents (indexOfBytes ixBytes)) world2).getD {}); rw [hw]; rfl), by decide +kernel⟩

theorem wit_ObjectsAreMadeAndRemoved_11 :
    let s : State := withExt {} 4 (scr 6)
    let n : Nat := 256
    let ib : Bytes := ixBytes
    let ir := indexOfBytes ib
    s.bureau.recovery = false
    ∧ s.pair.enable = false
    ∧ (indexBytesOk n ib = false ∨ 256 ≤ n ∨ indexFieldsOk ir = false) := by decide +kernel

theorem wit_ObjectsAreMadeAndRemoved_12 :
    let s : State := crowded
    let n : Nat := 5
    let ib : Bytes := ixBytes
    let ir := indexOfBytes ib
    s.bureau.recovery = false
    ∧ s.pair.enable = false
    ∧ indexBytesOk n ib = true
    ∧ n < 256
    ∧ indexFieldsOk ir = true
    ∧ indexExtentsOk s ir = true
    ∧ passageRoom s (heldPassages s ir) = false := by exact ⟨rfl, rfl, by decide +kernel, by decide, by decide +kernel, crowded_extents, crowded_full _⟩

theorem wit_ObjectsAreMadeAndRemoved_13 :
    let s : State := withExt {} 4 (scr 6)
    let n : Nat := 5
    s.bureau.recovery = false
    ∧ s.pair.enable = false
    ∧ indexOf s n = none := by decide +kernel

theorem wit_ObjectsAreMadeAndRemoved_14 :
    let s : State := withIx { ix4 with queue := [3] } world2
    let n : Nat := 5
    let i : IndexRec := { ix4 with queue := [3] }
    s.bureau.recovery = false
    ∧ s.pair.enable = false
    ∧ indexOf s n = some i
    ∧ indexBusy s n i = true := by decide +kernel

theorem wit_ObjectsAreMadeAndRemoved_15 :
    let s : State := withIx ix4 world2
    let n : Nat := 5
    let i : IndexRec := ix4
    s.bureau.recovery = false
    ∧ s.pair.enable = false
    ∧ indexOf s n = some i
    ∧ indexBusy s n i = false := by decide +kernel

theorem wit_ObjectsAreMadeAndRemoved_16 :
    let s : State := world2
    let n : Nat := 5
    let td : Bytes := tbBytes 32
    let tr := tableOfBytes td
    s.bureau.recovery = false
    ∧ s.pair.enable = false
    ∧ tableBytesOk n td = true
    ∧ n < 64
    ∧ tableFieldsOk tr = true
    ∧ tableExtentsOk s tr = true
    ∧ tableOf s n = none
    ∧ (partOf s tr.part).prog = none
    ∧ hotTilesOf s tr.part + tr.hotTiles ≤ min 16384 (partOf s tr.part).hotBudgetUsed.toNat := by decide +kernel

theorem wit_ObjectsAreMadeAndRemoved_17 :
    let s : State := withExt {} 4 (scr 6)
    let n : Nat := 5
    let td : Bytes := tbBytes 33
    let tr := tableOfBytes td
    s.bureau.recovery = false
    ∧ s.pair.enable = false
    ∧ (tableBytesOk n td = false ∨ 64 ≤ n ∨ tableFieldsOk tr = false) := by decide +kernel

theorem wit_ObjectsAreMadeAndRemoved_18 :
    let s : State := world2
    let n : Nat := 5
    s.bureau.recovery = false
    ∧ s.pair.enable = false
    ∧ tableOf s n = none := by decide +kernel

theorem wit_ObjectsAreMadeAndRemoved_19 :
    let s : State := withTb { tb4 with mirrorIn := [{ jseq := 1, seq := 1 }] } world2
    let n : Nat := 5
    let tb : TableRec := { tb4 with mirrorIn := [{ jseq := 1, seq := 1 }] }
    s.bureau.recovery = false
    ∧ s.pair.enable = false
    ∧ tableOf s n = some tb
    ∧ tableBusy s n tb = true := by decide +kernel

theorem wit_ObjectsAreMadeAndRemoved_20 :
    let s : State := setSlot (setPart (withTb { tb4 with hotTiles := 1 } world2) 2 fun q => { q with hotDir := [(hotKey 5 0, 40), (hotKey 6 0, 41)] }) 40 fun y => { y with hdr := { y.hdr with state := .ready } }
    let n : Nat := 5
    let tb : TableRec := { tb4 with hotTiles := 1 }
    s.bureau.recovery = false
    ∧ s.pair.enable = false
    ∧ tableOf s n = some tb
    ∧ tableBusy s n tb = false := by decide +kernel

theorem wit_ObjectsAreMadeAndRemoved_21 :
    let s : State := { pair := { enable := true, link := .down, leases := [(4, {})] } }
    let tn : Tenant := 4
    s.bureau.recovery = false
    ∧ objectRole s tn = some .redirectPartner := by decide +kernel

theorem wit_ObjectsAreMadeAndRemoved_22 :
    let s : State := adapters 2
    let tn : Tenant := 4
    s.bureau.recovery = false
    ∧ s.pair.enable = false
    ∧ (∀ y ∈ s.gen.indexes, y.2.tenant ≠ tn)
    ∧ (∀ y ∈ s.gen.tables, y.2.tenant ≠ tn)
    ∧ (∃ y ∈ s.gen.adapters, y.2.tenant = tn ∧ y.2.refs ≠ 0) := by decide +kernel

theorem wit_ObjectsAreMadeAndRemoved_23 :
    let s : State := adapters 0
    let tn : Tenant := 4
    s.bureau.recovery = false
    ∧ s.pair.enable = false
    ∧ (∀ y ∈ s.gen.indexes, y.2.tenant ≠ tn)
    ∧ (∀ y ∈ s.gen.tables, y.2.tenant ≠ tn)
    ∧ (∀ y ∈ s.gen.adapters, y.2.tenant = tn → y.2.refs = 0)
    ∧ (∀ y ∈ s.text.grammars, y.2.tenant = tn → grammarBound s y.1 = false)
    ∧ (∀ y ∈ s.tier.leaves, y.2.valid = true → y.2.tenant ≠ tn) := by decide +kernel

end K1

/-! ## Witnesses: the mailbox -/

namespace K2

/-- Block 0 of a compute die is quiet. -/
def quietB : State := { fabric := { quiesce := [(blockKey { die := 3 }, { stage := .quiet })] }, bureau := { mbExec := true } }
def recovering : State := { bureau := { recovery := true } }
def part2 (f : Partition → Partition) : State := setPart {} 2 fun q => f { q with state := .running, prog := some { slots := 4, maps := [{ engines := 64 }] }, slots := [(1, { state := .decode, tenant := 4, request := 9 })] }
def bg : Background := { ticket := 6, fromMailbox := true, die := 3, block := 0, code := 0x05 }
def waiting : State := { bureau := { background := [{ bg with ticket := 5 }, bg], mbTicket := 6, mbBackground := true }, fabric := { quiesce := [(blockKey { die := 3 }, { stage := .done })] } }


theorem wit_MailboxCommandsAreAnswered_1 :
    let m : Bool := true
    m = true := by decide +kernel

theorem wit_MailboxCommandsAreAnswered_2 :
    let m : Bool := false
    m = false := by decide +kernel

theorem wit_MailboxCommandsAreAnswered_3 :
    let m : Bool := false
    let data : Bytes := [1, 2, 3]
    let i : Nat := 2
    m = false
    ∧ i < 4096
    ∧ i < data.length := by decide +kernel

theorem wit_MailboxCommandsAreAnswered_4 :
    let s : State := recovering
    let B := s.bureau
    B.recovery = true := by decide +kernel

theorem wit_MailboxCommandsAreAnswered_5 :
    let s : State := recovering
    let m : Bool := false
    let first : Bool := false
    let off : BitVec 64 := 77
    let a : Nat := 0
    let n : Nat := 4
    let l : Limits := .powerCap 1500
    let nonce : BitVec 256 := 5
    let B := s.bureau
    let c := Instr.readCounters m
    B.recovery = true
    ∧ c ∈ [Instr.readCounters m, .setUtc m off, .setLimits m l, .eventRead m first a n, .eventClear m, .faultRead m a n, .attest m nonce, .certRead m] := by decide +kernel

theorem wit_MailboxCommandsAreAnswered_6 :
    let s : State := quietB
    let b : BlockId := { die := 3 }
    let B := s.bureau
    B.recovery = false
    ∧ isQuiet s b = true := by decide +kernel

theorem wit_MailboxCommandsAreAnswered_7 :
    let s : State := { bureau := { mbExec := true } }
    let b : BlockId := { die := 3 }
    let B := s.bureau
    B.recovery = false
    ∧ isQuiet s b = false := by decide +kernel

theorem wit_MailboxCommandsAreAnswered_8 :
    let s : State := { bureau := { mbExec := true } }
    let b : BlockId := { die := 0x3C }
    let B := s.bureau
    B.recovery = false
    ∧ resettable b = false := by decide +kernel

theorem wit_MailboxCommandsAreAnswered_9 :
    let s : State := part2 id
    let b : BlockId := { die := 3 }
    let B := s.bureau
    B.recovery = false
    ∧ resettable b = true
    ∧ resetRefused s b = true := by decide +kernel

theorem wit_MailboxCommandsAreAnswered_10 :
    let s : State := quietB
    let b : BlockId := { die := 3 }
    let B := s.bureau
    B.recovery = false
    ∧ resettable b = true
    ∧ resetRefused s b = false
    ∧ s.power.resetting = none := by decide +kernel

theorem wit_MailboxCommandsAreAnswered_11 :
    let s : State := { bureau := { mbExec := true } }
    let B := s.bureau
    B.recovery = false := by decide +kernel

theorem wit_MailboxCommandsAreAnswered_12 :
    let s : State := part2 id
    let p : PartId := 2
    let slot : Nat := 1
    let g : Program := { slots := 4, maps := [{ engines := 64 }] }
    let B := s.bureau
    B.recovery = false
    ∧ (partOf s p).prog = some g
    ∧ slot < g.slots := by decide +kernel

theorem wit_MailboxCommandsAreAnswered_13 :
    let s : State := part2 id
    let p : PartId := 2
    let slot : Nat := 4
    let g : Program := { slots := 4, maps := [{ engines := 64 }] }
    let B := s.bureau
    B.recovery = false
    ∧ (partOf s p).prog = some g
    ∧ g.slots ≤ slot := by decide +kernel

theorem wit_MailboxCommandsAreAnswered_14 :
    let s : State := { bureau := { mbExec := true } }
    let l : Limits := .powerCap 1801
    let B := s.bureau
    B.recovery = false
    ∧ l.ok = false := by decide +kernel

theorem wit_MailboxCommandsAreAnswered_15 :
    let s : State := { bureau := { mbExec := true } }
    let B := s.bureau
    let v : Nat := 600
    B.recovery = false
    ∧ 600 ≤ v
    ∧ v ≤ 1800 := by decide +kernel

theorem wit_MailboxCommandsAreAnswered_16 :
    let s : State := { bureau := { mbExec := true } }
    let B := s.bureau
    let v : Nat := 100
    B.recovery = false
    ∧ 70 ≤ v
    ∧ v ≤ 100 := by decide +kernel

theorem wit_MailboxCommandsAreAnswered_17 :
    let s : State := { bureau := { mbExec := true } }
    let B := s.bureau
    let v : Nat := 50
    B.recovery = false
    ∧ 50 ≤ v
    ∧ v ≤ 1000 := by decide +kernel

theorem wit_MailboxCommandsAreAnswered_18 :
    let s : State := { bureau := { mbExec := true } }
    let B := s.bureau
    let d : Nat := 6
    let v : Nat := 1750
    B.recovery = false
    ∧ regulated d = true
    ∧ 1110 ≤ v
    ∧ v ≤ 1750 := by decide +kernel

theorem wit_MailboxCommandsAreAnswered_19 :
    let s : State := { bureau := { mbExec := true } }
    let B := s.bureau
    B.recovery = false
    ∧ B.staged = [] := by decide +kernel

theorem wit_MailboxCommandsAreAnswered_20 :
    let s : State := { bureau := { outcomes := [(6, (3, [9]))] } }
    let tk : Word := 6
    let st : BitVec 8 := 3
    let B := s.bureau
    let st : BitVec 8 := 3
    let d : Bytes := [9]
    mfind B.outcomes tk.toNat = some (st, d) := by decide +kernel

theorem wit_MailboxCommandsAreAnswered_21 :
    let s : State := { bureau := { mbExec := true } }
    let tk : Word := 6
    let B := s.bureau
    mfind B.outcomes tk.toNat = none
    ∧ (∀ x ∈ B.background, x.ticket ≠ tk) := by decide +kernel

theorem wit_MailboxCommandsAreAnswered_22 :
    let s : State := { bureau := { mbExec := true } }
    let tk : Word := 6
    let B := s.bureau
    (∀ x ∈ B.background, x.ticket ≠ tk) := by decide +kernel

theorem wit_MailboxCommandsAreAnswered_23 :
    let s : State := waiting
    let tk : Word := 6
    let q : Background := bg
    let B := s.bureau
    B.background.find? (fun x => decide (x.ticket = tk)) = some q
    ∧ q.code = 0x05
    ∧ (mfind s.fabric.quiesce (blockKey { die := q.die, block := q.block })).map (·.stage) = some .done := by decide +kernel

theorem wit_MailboxCommandsAreAnswered_25 :
    let s : State := { bureau := { mbExec := true } }
    let id : BitVec 16 := 0x0144
    let v : Int := 0
    sensorReading s id.toNat = some v := by decide +kernel

theorem wit_MailboxCommandsAreAnswered_26 :
    let s : State := { bureau := { mbExec := true } }
    let id : BitVec 16 := 0
    sensorReading s id.toNat = none := by decide +kernel

end K2

/-! ## Witnesses: firmware -/

namespace L1

def offer : ComponentOffer := { version := [1, 2], size := 5, stamp := 77, svn := 3, keySlot := 1 }
/-- The image of the offer, its chunk not yet held, in the bank that is not active. -/
def image : BankImage := { version := [1, 2], size := 5, stamp := 77, svn := 3, keySlot := 1 }
def inTransfer (i : BankImage) (f : BureauState → BureauState) : State := { bureau := f { ({} : BureauState) with banks := [(1, i)], session := true } }
def staged (f : BureauState → BureauState) : State := inTransfer { image with verified := true } f
/-- A pending bank 9 s before its time, by UTC. -/
def scheduled (f : BureauState → BureauState) : State := staged fun b => f { b with pendingBank := true, activateUtc := 9000000, utc := some 0 }
def position1 (link : PairLink) (f : BureauState → BureauState) : State :=
  let s := scheduled fun b => f { b with recTime := 20000000, reqTimer := 20000000, session := false }
  { s with pair := { s.pair with enable := true, position := true, link := link, upAt := some 19000000 } }
/-- The release chain has ended, or the boot takes too long. -/
def booting (f : BureauState → BureauState) : State :=
  let s := staged fun b => f { b with booting := true, bootAt := 0, recTime := 30000000 }
  { s with host := { s.host with qps := [(8, { state := .enabled, enable := true })] }, power := { s.power with releaseStep := 17, powerGood := true, domains := [0, 1, 2, 5, 28] } }
def recovering : State := { bureau := { recovery := true } }


theorem wit_FirmwareIsStagedActivatedAndBooted_1 :
    let s : State := inTransfer image id
    let c : ComponentOffer := { offer with svn := 65 }
    offerRefused s c = true := by decide +kernel

theorem wit_FirmwareIsStagedActivatedAndBooted_2 :
    let s : State := {}
    let c : ComponentOffer := offer
    offerRefused s c = false
    ∧ stagedImage s = none := by decide +kernel

theorem wit_FirmwareIsStagedActivatedAndBooted_3 :
    let s : State := inTransfer image id
    let c : ComponentOffer := offer
    let i : BankImage := image
    offerRefused s c = false
    ∧ stagedImage s = some i
    ∧ sameComponent i c = true := by decide +kernel

theorem wit_FirmwareIsStagedActivatedAndBooted_4 :
    let s : State := inTransfer { image with size := 4101 } id
    let k : Nat := 1
    let data : Bytes := [1, 2, 3, 4, 5]
    let i : BankImage := { image with size := 4101 }
    let B := s.bureau
    let j := { i with chunks := mins i.chunks k data }
    stagedImage s = some i
    ∧ B.session = true
    ∧ i.verified = false
    ∧ k < chunkCount i.size
    ∧ data.length = chunkBytes i.size k
    ∧ missingChunks j ≠ [] := by decide +kernel

theorem wit_FirmwareIsStagedActivatedAndBooted_5 :
    let svn : Nat := 3
    let s : State := inTransfer { image with svn := 65 } id
    let k : Nat := 0
    let data : Bytes := [1, 2, 3, 4, 5]
    let verdict : Option Verdict := none
    let i : BankImage := { image with svn := 65 }
    let comp : Word := 1
    let cause : Word := 2
    let B := s.bureau
    let j := { i with chunks := mins i.chunks k data }
    stagedImage s = some i
    ∧ B.session = true
    ∧ i.verified = false
    ∧ k < chunkCount i.size
    ∧ data.length = chunkBytes i.size k
    ∧ missingChunks j = []
    ∧ imageCause s i.svn i.keySlot verdict = some (comp, cause) := by decide +kernel

theorem wit_FirmwareIsStagedActivatedAndBooted_6 :
    let s : State := inTransfer image id
    let k : Nat := 0
    let svn : Nat := 3
    let data : Bytes := [1, 2, 3, 4, 5]
    let verdict : Option Verdict := none
    let i : BankImage := image
    let B := s.bureau
    let j := { i with chunks := mins i.chunks k data }
    stagedImage s = some i
    ∧ B.session = true
    ∧ i.verified = false
    ∧ k < chunkCount i.size
    ∧ data.length = chunkBytes i.size k
    ∧ missingChunks j = []
    ∧ imageCause s i.svn i.keySlot verdict = none := by decide +kernel

theorem wit_FirmwareIsStagedActivatedAndBooted_7 :
    let s : State := inTransfer image id
    let k : Nat := 0
    let svn : Nat := 3
    let data : Bytes := [1, 2, 3, 4, 5]
    let verdict : Option Verdict := none
    let i : BankImage := image
    let slot : BitVec 2 := 1
    let signer : BitVec 2 := 0
    let B := s.bureau
    let j := { i with chunks := mins i.chunks k data }
    stagedImage s = some i
    ∧ B.session = true
    ∧ i.verified = false
    ∧ k < chunkCount i.size
    ∧ data.length = chunkBytes i.size k
    ∧ missingChunks j = []
    ∧ imageCause s i.svn i.keySlot verdict = none
    ∧ slot ≠ signer
    ∧ s.fuses.revoked.getLsbD slot.toNat = false
    ∧ s.fuses.revoked.getLsbD signer.toNat = false := by decide +kernel

theorem wit_FirmwareIsStagedActivatedAndBooted_8 :
    let s : State := inTransfer image id
    let k : Nat := 0
    let data : Bytes := [1]
    let i : BankImage := image
    let B := s.bureau
    (B.session = false ∨ data.length ≠ chunkBytes i.size k)
    ∧ stagedImage s = some i := by decide +kernel

theorem wit_FirmwareIsStagedActivatedAndBooted_9 :
    let s : State := staged id
    let B := s.bureau
    B.session = true
    ∧ B.pendingBank = false
    ∧ (stagedImage s).any (·.verified) = true := by decide +kernel

theorem wit_FirmwareIsStagedActivatedAndBooted_10 :
    let s : State := scheduled id
    let utc : BitVec 64 := 7
    let B := s.bureau
    B.recovery = false
    ∧ B.drainAt = none
    ∧ (B.pendingBank = false ∨ B.utc.isSome = true ∨ utc = 0) := by decide +kernel

theorem wit_FirmwareIsStagedActivatedAndBooted_11 :
    let s : State := staged fun b => { b with drainAt := some 4 }
    let B := s.bureau
    B.recovery = false
    ∧ B.drainAt.isSome = true := by decide +kernel

theorem wit_FirmwareIsStagedActivatedAndBooted_12 :
    let s : State := scheduled id
    let B := s.bureau
    B.recovery = false
    ∧ B.pendingBank = true
    ∧ B.drainAt = none := by decide +kernel

theorem wit_FirmwareIsStagedActivatedAndBooted_13 :
    let s : State := staged id
    let B := s.bureau
    B.recovery = false
    ∧ (B.pendingBank = false ∨ B.drainAt.isSome = true) := by decide +kernel

theorem wit_FirmwareIsStagedActivatedAndBooted_14 :
    let s : State := {}
    let B := s.bureau
    B.recovery = false
    ∧ s.host.bootOk = false := by decide +kernel

theorem wit_FirmwareIsStagedActivatedAndBooted_15 :
    let s : State := { host := { bootOk := true }, bureau := { runningSvn := 64 }, fuses := { rollback := 63 } }
    let B := s.bureau
    B.recovery = false
    ∧ s.host.bootOk = true := by decide +kernel

theorem wit_FirmwareIsStagedActivatedAndBooted_16 :
    let s : State := scheduled id
    let B := s.bureau
    let at_ := utcReached s
    awaitsTime s = true
    ∧ B.pendingSent = false
    ∧ at_ 10000000 = true := by decide +kernel

theorem wit_FirmwareIsStagedActivatedAndBooted_17 :
    let s : State := scheduled fun b => { b with pendingSent := true }
    let B := s.bureau
    let at_ := utcReached s
    (awaitsTime s = false ∨ B.pendingSent = true ∨ at_ 10000000 = false) := by decide +kernel

theorem wit_FirmwareIsStagedActivatedAndBooted_18 :
    let s : State := scheduled fun b => { b with activateUtc := 0 }
    let B := s.bureau
    let at_ := utcReached s
    let waits := s.pair.enable = true ∧ s.pair.position = true ∧ B.activateUtc ≠ 0
    awaitsTime s = true
    ∧ (B.activateUtc = 0 ∨ at_ 0 = true)
    ∧ ¬ waits := by decide +kernel

theorem wit_FirmwareIsStagedActivatedAndBooted_19 :
    let s : State := position1 .down id
    let B := s.bureau
    let at_ := utcReached s
    let waits := s.pair.enable = true ∧ s.pair.position = true ∧ B.activateUtc ≠ 0
    awaitsTime s = true
    ∧ (B.activateUtc = 0 ∨ at_ 0 = true)
    ∧ waits
    ∧ s.pair.link = .down := by decide +kernel

theorem wit_FirmwareIsStagedActivatedAndBooted_20 :
    let s : State := position1 .up id
    let B := s.bureau
    let at_ := utcReached s
    let waits := s.pair.enable = true ∧ s.pair.position = true ∧ B.activateUtc ≠ 0
    awaitsTime s = true
    ∧ (B.activateUtc = 0 ∨ at_ 0 = true)
    ∧ waits
    ∧ s.pair.link ≠ .down := by decide +kernel

theorem wit_FirmwareIsStagedActivatedAndBooted_21 :
    let s : State := position1 .up fun b => { b with fwWaitsPartner := true, fwWaitAt := 18000000 }
    let B := s.bureau
    B.pendingBank = true
    ∧ B.fwWaitsPartner = true
    ∧ partnerDone s = true := by decide +kernel

theorem wit_FirmwareIsStagedActivatedAndBooted_22 :
    let s : State := position1 .up fun b => { b with fwWaitsPartner := true, fwWaitAt := 19500000 }
    let B := s.bureau
    B.pendingBank = true
    ∧ B.fwWaitsPartner = true
    ∧ partnerDone s = false := by decide +kernel

theorem wit_FirmwareIsStagedActivatedAndBooted_23 :
    let s : State := position1 .training fun b => { b with fwWaitsPartner := true }
    let B := s.bureau
    B.pendingBank = true
    ∧ B.fwWaitsPartner = true
    ∧ s.pair.link ≠ .up
    ∧ 10000000 ≤ since B.fwWaitAt (recNow s) := by decide +kernel

theorem wit_FirmwareIsStagedActivatedAndBooted_24 :
    let s : State := position1 .up fun b => { b with fwWaitsPartner := true }
    let B := s.bureau
    B.pendingBank = true
    ∧ B.fwWaitsPartner = true
    ∧ s.pair.link = .up := by decide +kernel

theorem wit_FirmwareIsStagedActivatedAndBooted_25 :
    let s : State := staged id
    let B := s.bureau
    B.drainAt = none := by decide +kernel

theorem wit_FirmwareIsStagedActivatedAndBooted_26 :
    let s : State := staged fun b => { b with drainAt := some 0, pendingBank := true, activateUtc := 0 }
    let start : BitVec 48 := 0
    let B := s.bureau
    B.drainAt = some start
    ∧ B.activating = false
    ∧ drained s = true
    ∧ B.bootFails < 3
    ∧ bankCause s (!B.activeB) = none := by decide +kernel

theorem wit_FirmwareIsStagedActivatedAndBooted_27 :
    let s : State := {}
    let B := s.bureau
    (B.booting = false ∨ s.power.releaseStep ≠ 17) := by decide +kernel

theorem wit_FirmwareIsStagedActivatedAndBooted_28 :
    let s : State := booting id
    let B := s.bureau
    B.booting = true
    ∧ s.power.releaseStep = 17
    ∧ s.host.failed = false
    ∧ s.power.held = []
    ∧ s.power.finishing = [] := by decide +kernel

theorem wit_FirmwareIsStagedActivatedAndBooted_29 :
    let s : State := {}
    let B := s.bureau
    (B.booting = false ∨ since B.bootAt (recNow s) < 30000000) := by decide +kernel

theorem wit_FirmwareIsStagedActivatedAndBooted_30 :
    let s : State := booting fun b => { b with bootFails := 2 }
    let B := s.bureau
    B.booting = true
    ∧ 30000000 ≤ since B.bootAt (recNow s)
    ∧ 3 ≤ B.bootFails + 1 := by decide +kernel

theorem wit_FirmwareIsStagedActivatedAndBooted_31 :
    let s : State := booting fun b => { b with activating := true, activeB := true, banks := [(0, { verified := true })] }
    let B := s.bureau
    B.booting = true
    ∧ 30000000 ≤ since B.bootAt (recNow s)
    ∧ B.bootFails + 1 < 3
    ∧ B.activating = true
    ∧ bankCause s (!B.activeB) = none := by decide +kernel

theorem wit_FirmwareIsStagedActivatedAndBooted_32 :
    let s : State := {}
    let n : Nat := 4096
    let svn : Nat := 3
    let data : Bytes := [1, 2, 3, 4, 5]
    let verdict : Option Verdict := none
    let m : Bool := false
    let slot : BitVec 2 := 1
    let B := s.bureau
    let o := Instr.recoveryStatus m
    B.recovery = false
    ∧ o ∈ [Instr.recoveryWrite m n data, .recoveryStatus m, .recoveryBoot m svn slot verdict] := by decide +kernel

theorem wit_FirmwareIsStagedActivatedAndBooted_33 :
    let s : State := recovering
    let n : Nat := 4096
    let data : Bytes := [1, 2, 3, 4, 5]
    let B := s.bureau
    B.recovery = true
    ∧ data.length ≤ 4096
    ∧ n + data.length ≤ 33554432 := by decide +kernel

theorem wit_FirmwareIsStagedActivatedAndBooted_34 :
    let s : State := recovering
    let data : Bytes := List.replicate 4097 0
    let B := s.bureau
    B.recovery = true
    ∧ 4096 < data.length := by decide +kernel

theorem wit_FirmwareIsStagedActivatedAndBooted_35 :
    let s : State := recovering
    let B := s.bureau
    B.recovery = true := by decide +kernel

theorem wit_FirmwareIsStagedActivatedAndBooted_36 :
    let s : State := recovering
    let svn : Nat := 65
    let verdict : Option Verdict := none
    let slot : BitVec 2 := 1
    let comp : Word := 1
    let cause : Word := 2
    let B := s.bureau
    B.recovery = true
    ∧ imageCause s svn slot verdict = some (comp, cause) := by decide +kernel

theorem wit_FirmwareIsStagedActivatedAndBooted_37 :
    let s : State := recovering
    let svn : Nat := 3
    let verdict : Option Verdict := none
    let slot : BitVec 2 := 1
    let B := s.bureau
    B.recovery = true
    ∧ imageCause s svn slot verdict = none := by decide +kernel

end L1

/-! ## Witnesses: power and resets -/

namespace L2

def powered (f : PowerState → PowerState) : State :=
  { power := f { ({} : PowerState) with powerGood := true, converter := true, bureauHeld := false, perstN := true, domains := [0, 5] } }
/-- Every domain but the last has power, and bank A verifies. -/
def nearlyUp (f : PowerState → PowerState) : State :=
  let s := powered fun p => f { p with domains := [0, 5] ++ domainOrder.dropLast, resetting := some .powerOn }
  { s with bureau := { s.bureau with banks := [(0, { verified := true })] } }
def warmed : State :=
  let s := powered fun p => { p with domains := [0, 5] ++ domainOrder }
  { s with
    bureau := { s.bureau with banks := [(0, { verified := true })] }
    host := { s.host with bootOk := true }
    store := { s.store with slots := [(5, {})] } }


theorem wit_PowerReleaseAndResets_1 :
    let s : State := {}
    let mv : Nat := 48000
    let P := s.power
    P.powerGood = false
    ∧ P.tripped = false
    ∧ P.emergN = true
    ∧ 48000 ≤ mv := by decide +kernel

theorem wit_PowerReleaseAndResets_2 :
    let s : State := powered id
    let mv : Nat := 48000
    let P := s.power
    (P.powerGood = true ∨ P.tripped = true ∨ mv < 48000) := by decide +kernel

theorem wit_PowerReleaseAndResets_3 :
    let s : State := powered fun p => { p with domains := [0, 5, 1] }
    let d : DieId := 3
    let P := s.power
    let n : Nat := 2
    P.powerGood = true
    ∧ P.bureauHeld = false
    ∧ s.bureau.recovery = false
    ∧ domainOrder.find? (fun d => decide (d ∉ P.domains)) = some n
    ∧ allPowered { s with power := { P with domains := P.domains ++ [n] } } = false := by decide +kernel

theorem wit_PowerReleaseAndResets_4 :
    let s : State := nearlyUp id
    let d : DieId := 3
    let P := s.power
    let n : Nat := 29
    P.powerGood = true
    ∧ P.bureauHeld = false
    ∧ s.bureau.recovery = false
    ∧ domainOrder.find? (fun d => decide (d ∉ P.domains)) = some n
    ∧ allPowered { s with power := { P with domains := P.domains ++ [n] } } = true
    ∧ s.bureau.booting = false
    ∧ s.bureau.bootFails < 3
    ∧ bankCause s s.bureau.activeB = none
    ∧ P.perstN = true
    ∧ s.host.failed = false
    ∧ P.releaseStep = 0
    ∧ P.resetting = some .powerOn := by decide +kernel

theorem wit_PowerReleaseAndResets_5 :
    let s : State := powered fun p => { p with domains := [0, 5] ++ domainOrder }
    allPowered s = true := by decide +kernel

theorem wit_PowerReleaseAndResets_6 :
    let s : State := powered id
    let P := s.power
    P.powerGood = true
    ∧ P.bureauHeld = false := by decide +kernel

theorem wit_PowerReleaseAndResets_7 :
    let s : State := {}
    let P := s.power
    P.powerGood = false := by decide +kernel

theorem wit_PowerReleaseAndResets_8 :
    let s : State := { store := { zeroFilling := [3] }, power := { releaseStep := 10 } }
    let P := s.power
    chainEnds s P.releaseStep = false := by decide +kernel

theorem wit_PowerReleaseAndResets_9 :
    let s : State := { power := { releaseStep := 8 } }
    let r : ReleaseInfo := {}
    let P := s.power
    P.releaseStep = 8
    ∧ badIdentities r 8 = [] := by decide +kernel

theorem wit_PowerReleaseAndResets_10 :
    let s : State := { power := { releaseStep := 9 } }
    let r : ReleaseInfo := {}
    let P := s.power
    P.releaseStep = 9
    ∧ badIdentities r 9 = [] := by decide +kernel

theorem wit_PowerReleaseAndResets_11 :
    let s : State := { power := { releaseStep := 8 } }
    let r : ReleaseInfo := { badDies := [(0x3C, 7)] }
    let P := s.power
    chainEnds s P.releaseStep = true
    ∧ badIdentities r P.releaseStep ≠ [] := by decide +kernel

theorem wit_PowerReleaseAndResets_12 :
    let s : State := powered id
    let mv : Nat := 49999
    let P := s.power
    P.powerGood = true
    ∧ 46000 ≤ mv
    ∧ mv < 50000 := by decide +kernel

theorem wit_PowerReleaseAndResets_13 :
    let mv : Nat := 50000
    50000 ≤ mv := by decide +kernel

theorem wit_PowerReleaseAndResets_14 :
    let s : State := powered id
    let mv : Nat := 66000
    let P := s.power
    P.powerGood = true
    ∧ 63000 < mv
    ∧ mv ≤ 66000 := by decide +kernel

theorem wit_PowerReleaseAndResets_15 :
    let mv : Nat := 63000
    mv ≤ 63000 := by decide +kernel

theorem wit_PowerReleaseAndResets_16 :
    let s : State := powered id
    let mv : Nat := 66001
    let P := s.power
    P.powerGood = true
    ∧ 66000 < mv := by decide +kernel

theorem wit_PowerReleaseAndResets_17 :
    let mv : Nat := 66000
    mv ≤ 66000 := by decide +kernel

theorem wit_PowerReleaseAndResets_18 :
    let s : State := powered fun p => { p with armed := true }
    let mv : Nat := 45999
    let P := s.power
    P.powerGood = true
    ∧ (mv < 46000 ∨ P.converter = false) := by decide +kernel

theorem wit_PowerReleaseAndResets_19 :
    let s : State := powered id
    let mv : Nat := 46000
    let P := s.power
    46000 ≤ mv
    ∧ P.converter = true := by decide +kernel

theorem wit_PowerReleaseAndResets_20 :
    let s : State := powered id
    let cap : Nat := 8200
    let P := s.power
    P.powerGood = true
    ∧ 8200 ≤ cap := by decide +kernel

theorem wit_PowerReleaseAndResets_21 :
    let s : State := powered id
    let cap : Nat := 8199
    let P := s.power
    P.powerGood = true
    ∧ cap < 8200 := by decide +kernel

theorem wit_PowerReleaseAndResets_22 :
    let s : State := { power := { lost := true, j1 := 51000 } }
    let P := s.power
    P.lost = true
    ∧ P.tripped = false := by decide +kernel

theorem wit_PowerReleaseAndResets_23 :
    let s : State := powered id
    let P := s.power
    (P.lost = false ∨ P.tripped = true) := by decide +kernel

theorem wit_PowerReleaseAndResets_24 :
    let s : State := powered id
    let cause : TripCause := .junction 3 1150
    let P := s.power
    P.powerGood = true
    ∧ cause.holds = true := by decide +kernel

theorem wit_PowerReleaseAndResets_25 :
    let cause : TripCause := .outlet 700
    cause.holds = false := by decide +kernel

theorem wit_PowerReleaseAndResets_26 :
    let s : State := powered id
    let P := s.power
    P.powerGood = true := by decide +kernel

theorem wit_PowerReleaseAndResets_27 :
    let s : State := { power := { emergN := false, tripped := true } }
    let mv : Nat := 48000
    let P := s.power
    P.powerGood = false
    ∧ 48000 ≤ mv := by decide +kernel

theorem wit_PowerReleaseAndResets_28 :
    let mv : Nat := 47999
    mv < 48000 := by decide +kernel

theorem wit_PowerReleaseAndResets_29 :
    let s : State := powered id
    let P := s.power
    P.perstN = true := by decide +kernel

theorem wit_PowerReleaseAndResets_30 :
    let s : State := { bureau := { recovery := true } }
    let P := s.power
    P.perstN = false := by decide +kernel

theorem wit_PowerReleaseAndResets_31 :
    let s : State := powered fun p => { p with bureauHeld := true }
    let P := s.power
    P.bureauHeld = true
    ∧ P.powerGood = true := by decide +kernel

theorem wit_PowerReleaseAndResets_32 :
    let s : State := powered id
    let P := s.power
    P.bureauHeld = false := by decide +kernel

theorem wit_PowerReleaseAndResets_33 :
    let s : State := powered fun p => { p with resetting := some .perst }
    let P := s.power
    (P.powerGood = false ∨ s.bureau.recovery = true ∨ P.resetting = some .powerOn ∨ P.resetting = some .perst) := by decide +kernel

theorem wit_PowerReleaseAndResets_34 :
    let s : State := warmed
    let P := s.power
    P.powerGood = true
    ∧ s.bureau.recovery = false
    ∧ P.resetting ≠ some .powerOn
    ∧ P.resetting ≠ some .perst := by decide +kernel

theorem wit_PowerReleaseAndResets_35 :
    let s : State := { power := { releaseStep := 11, memoryActive := true } }
    let r : ReleaseInfo := { params := [(16, { onfi := 50, blockPages := 3, rated := 1000 }), (32, { blockPages := 1536, rated := 3000 })] }
    let P := s.power
    P.releaseStep = 11
    ∧ P.resetting ≠ some .warm
    ∧ P.memoryActive = true
    ∧ badIdentities r 11 = [] := by decide +kernel

end L2

/-! ## Witnesses: registers -/

namespace M1

/-- Configuration space answers, and the data plane is ready. -/
def ready1 (f : State → State) : State :=
  f { host := { bootOk := true, cacheEn := true }, power := { configReady := true, powerGood := true } }
def withPair (p : QueuePair) (s : State) : State := setQp s 1 2 fun _ => p
def setUp : QueuePair := { sqBase := 4096, cqBase := 8192, dbAddr := 64 }
def paired (f : PairState → PairState) : State := ready1 fun s => { s with pair := f { s.pair with enable := true, link := .up } }
/-- A window of 1 GiB whose first two extents have entries. -/
def windowed : State := ready1 fun s => withExt (withExt { s with tier := { s.tier with windowSize := 1 } } 0 (windowEntry s 1 0)) 1 (windowEntry s 1 1)


theorem wit_RegistersTakeWritesAndAnswerReads_1 :
    let s : State := {}
    let o : Nat := 2
    barReady s = false
    ∧ o < icBase := by decide +kernel

theorem wit_RegistersTakeWritesAndAnswerReads_2 :
    let s : State := {}
    barReady s = false := by decide +kernel

theorem wit_RegistersTakeWritesAndAnswerReads_3 :
    let s : State := ready1 id
    let o : Nat := 2
    let size : Nat := 4
    let ready := barReady s = true ∧ s.bureau.recovery = false
    ready
    ∧ ((size ≠ 4 ∧ size ≠ 8) ∨ o % size ≠ 0)
    ∧ o < icBase := by decide +kernel

theorem wit_RegistersTakeWritesAndAnswerReads_4 :
    let s : State := ready1 id
    let o : Nat := 2
    let size : Nat := 4
    let ready := barReady s = true ∧ s.bureau.recovery = false
    ready
    ∧ ((size ≠ 4 ∧ size ≠ 8) ∨ o % size ≠ 0) := by decide +kernel

theorem wit_RegistersTakeWritesAndAnswerReads_5 :
    let s : State := ready1 (withPair setUp)
    let fn : Tenant := 1
    let q : BitVec 3 := 2
    let p := qpOf s fn q
    let ready := barReady s = true ∧ s.bureau.recovery = false
    ready
    ∧ p.state = .disabled := by decide +kernel

theorem wit_RegistersTakeWritesAndAnswerReads_6 :
    let s : State := ready1 (withPair { setUp with state := .enabled })
    let fn : Tenant := 1
    let q : BitVec 3 := 2
    let p := qpOf s fn q
    let ready := barReady s = true ∧ s.bureau.recovery = false
    ready
    ∧ p.state ≠ .disabled := by decide +kernel

theorem wit_RegistersTakeWritesAndAnswerReads_7 :
    let s : State := ready1 id
    let x : BitVec 64 := 60000
    let ready := barReady s = true ∧ s.bureau.recovery = false
    ready
    ∧ x.toNat < 2 ^ 32
    ∧ 100 ≤ x.toNat
    ∧ x.toNat ≤ 60000 := by decide +kernel

theorem wit_RegistersTakeWritesAndAnswerReads_8 :
    let s : State := ready1 id
    let x : BitVec 64 := 60001
    let ready := barReady s = true ∧ s.bureau.recovery = false
    ready
    ∧ x.toNat < 2 ^ 32
    ∧ (x.toNat < 100 ∨ 60000 < x.toNat) := by decide +kernel

theorem wit_RegistersTakeWritesAndAnswerReads_9 :
    let s : State := ready1 id
    let fn : Tenant := 1
    let q : BitVec 3 := 2
    let c : Word := 0x80000003
    let p := qpOf s fn q
    let ready := barReady s = true ∧ s.bureau.recovery = false
    let e := 7
    ready
    ∧ p.state = .disabled
    ∧ enableError s { p with pasidEn := bit c.toNat 30, pasid := BitVec.ofNat 20 (bits c.toNat 23 4), vector := BitVec.ofNat 4 c.toNat } = some e := by decide +kernel

theorem wit_RegistersTakeWritesAndAnswerReads_10 :
    let s : State := ready1 (withPair setUp)
    let fn : Tenant := 1
    let q : BitVec 3 := 2
    let line : DoorbellLine := {}
    let p := qpOf s fn q
    let ready := barReady s = true ∧ s.bureau.recovery = false
    ready
    ∧ p.state = .disabled
    ∧ s.host.cacheEn = true
    ∧ dataReady s = true
    ∧ badSetup p = false
    ∧ doorbellLines s < 4096
    ∧ line.translates = true
    ∧ line.cqHead = 0
    ∧ line.sqTail = 0
    ∧ lineError { p with sqTail := 0, cqTail := 0, cqHead := 0, sqHead := 0 } line = none := by decide +kernel

theorem wit_RegistersTakeWritesAndAnswerReads_11 :
    let s : State := ready1 (withPair { setUp with state := .error })
    let fn : Tenant := 1
    let q : BitVec 3 := 2
    let p := qpOf s fn q
    let ready := barReady s = true ∧ s.bureau.recovery = false
    ready
    ∧ p.state = .error := by decide +kernel

theorem wit_RegistersTakeWritesAndAnswerReads_12 :
    let s : State := ready1 (withPair { setUp with state := .enabled, enable := true, pinned := true })
    let fn : Tenant := 1
    let q : BitVec 3 := 2
    let p := qpOf s fn q
    let ready := barReady s = true ∧ s.bureau.recovery = false
    ready
    ∧ p.state = .enabled
    ∧ (∀ y ∈ s.host.requests, y.2.fn = fn → y.2.qp ≠ q)
    ∧ p.waiting = [] := by decide +kernel

theorem wit_RegistersTakeWritesAndAnswerReads_13 :
    let s : State := ready1 id
    let fn : Tenant := 1
    let q : BitVec 3 := 2
    let p := qpOf s fn q
    let ready := barReady s = true ∧ s.bureau.recovery = false
    ready
    ∧ (p.state = .disabled ∨ p.state = .disabling) := by decide +kernel

theorem wit_RegistersTakeWritesAndAnswerReads_14 :
    let s : State := ready1 id
    let v : Word := 257
    let ready := barReady s = true ∧ s.bureau.recovery = false
    let w := bits v.toNat 8 0
    ready
    ∧ 256 < w := by decide +kernel

theorem wit_RegistersTakeWritesAndAnswerReads_15 :
    let s : State := ready1 fun s => setPart s 3 fun q => { q with state := .loading }
    let v : Word := 2
    let ready := barReady s = true ∧ s.bureau.recovery = false
    let w := bits v.toNat 8 0
    ready
    ∧ w ≤ 256
    ∧ anyLoaded s = true := by decide +kernel

theorem wit_RegistersTakeWritesAndAnswerReads_16 :
    let s : State := ready1 id
    let v : Word := 2
    let ready := barReady s = true ∧ s.bureau.recovery = false
    let w := bits v.toNat 8 0
    ready
    ∧ w ≤ 256
    ∧ anyLoaded s = false := by decide +kernel

theorem wit_RegistersTakeWritesAndAnswerReads_17 :
    let s : State := ready1 id
    let g : BitVec 8 := 0
    let ready := barReady s = true ∧ s.bureau.recovery = false
    ready
    ∧ s.tier.windowSize.toNat ≤ g.toNat := by decide +kernel

theorem wit_RegistersTakeWritesAndAnswerReads_18 :
    let s : State := windowed
    let g : BitVec 8 := 0
    let ready := barReady s = true ∧ s.bureau.recovery = false
    ready
    ∧ g.toNat < s.tier.windowSize.toNat := by decide +kernel

theorem wit_RegistersTakeWritesAndAnswerReads_19 :
    let s : State := ready1 id
    let ready := barReady s = true ∧ s.bureau.recovery = false
    ready
    ∧ s.pair.enable = false := by decide +kernel

theorem wit_RegistersTakeWritesAndAnswerReads_20 :
    let s : State := paired id
    let v : Word := 4
    let ready := barReady s = true ∧ s.bureau.recovery = false
    ready
    ∧ s.pair.enable = true
    ∧ bit v.toNat 2 ≠ s.pair.position := by decide +kernel

theorem wit_RegistersTakeWritesAndAnswerReads_21 :
    let s : State := paired id
    let v : Word := 2
    let ready := barReady s = true ∧ s.bureau.recovery = false
    ready
    ∧ s.pair.enable = true
    ∧ bit v.toNat 2 = s.pair.position
    ∧ s.pair.link = .up
    ∧ (∀ e ∈ s.pair.journal, e.handle = none)
    ∧ s.pair.forwards = []
    ∧ s.pair.waitMut = [] := by decide +kernel

theorem wit_RegistersTakeWritesAndAnswerReads_22 :
    let s : State := ready1 id
    let ready := barReady s = true ∧ s.bureau.recovery = false
    ready := by decide +kernel

theorem wit_RegistersTakeWritesAndAnswerReads_23 :
    let s : State := ready1 id
    let n : Nat := 0
    let ready := barReady s = true ∧ s.bureau.recovery = false
    ready
    ∧ n < 512 := by decide +kernel

theorem wit_RegistersTakeWritesAndAnswerReads_24 :
    let s : State := ready1 fun s => { s with host := { s.host with latched := [(0x81000, 5)] } }
    let n : Nat := 0
    let ready := barReady s = true ∧ s.bureau.recovery = false
    let off := 0x81000 + 8 * n
    let h := 5
    ready
    ∧ n < 512
    ∧ mfind s.host.latched off = some h := by decide +kernel

theorem wit_RegistersTakeWritesAndAnswerReads_25 :
    let n : Nat := 0
    let x : BitVec 64 := 8192
    n < 256
    ∧ x.toNat < 2 ^ 32 := by decide +kernel

theorem wit_RegistersTakeWritesAndAnswerReads_26 :
    let n : Nat := 0
    let x : BitVec 64 := 8192
    n < 4
    ∧ x.toNat < 2 ^ 32 := by decide +kernel

theorem wit_RegistersTakeWritesAndAnswerReads_27 :
    let n : Nat := 0
    n < 8 := by decide +kernel

theorem wit_RegistersTakeWritesAndAnswerReads_28 :
    let s : State := ready1 id
    let n : Nat := 0
    n < 256
    ∧ (icOf s n).level = false := by decide +kernel

theorem wit_RegistersTakeWritesAndAnswerReads_29 :
    let s : State := ready1 id
    let n : Nat := 0
    let k := n / 32; let m := 2 ^ (n % 32)
    n < 256
    ∧ (icOf s n).level = false
    ∧ ((mget 0 s.bureau.edge k).getLsbD (n % 32) = true ∨ ((icOf s n).pending = false ∧ (icOf s n).edgeWaits = false)) := by decide +kernel

theorem wit_RegistersTakeWritesAndAnswerReads_30 :
    let s : State := withPair { setUp with state := .disabling, pinned := true } {}
    let fn : Tenant := 1
    let q : BitVec 3 := 2
    let p := qpOf s fn q
    p.state = .disabling
    ∧ (∀ y ∈ s.host.requests, y.2.fn = fn → y.2.qp ≠ q) := by decide +kernel

theorem wit_RegistersTakeWritesAndAnswerReads_31 :
    let s : State := {}
    let fn : Tenant := 1
    let q : BitVec 3 := 2
    let p := qpOf s fn q
    p.state ≠ .disabling := by decide +kernel

theorem wit_RegistersTakeWritesAndAnswerReads_32 :
    let s : State := {}
    s.tier.windowPending = none := by decide +kernel

theorem wit_RegistersTakeWritesAndAnswerReads_33 :
    let s : State := { tier := { windowPending := some 0 } }
    s.tier.windowPending = some 0
    ∧ s.tier.windowSize = 0
    ∧ windowFits s 0 = true := by decide +kernel

theorem wit_RegistersTakeWritesAndAnswerReads_34 :
    let s : State := { tier := { windowPending := some 1 } }
    let w : BitVec 9 := 1
    s.tier.windowPending = some w
    ∧ windowFits s w.toNat = true := by decide +kernel

end M1

/-! ## Witnesses: the step and the invariants -/

namespace S1

/-- The next state of an outcome. -/
def after (o : Host.Outcome State Fault Refusal) : State := match o with | .next t => t | _ => {}

/-- BOOT_OK has come, the counter is 2 and the running image has SVN 5. -/
def booted : State := { host := { bootOk := true }, bureau := { runningSvn := 5 }, fuses := { rollback := 2 } }
def commitStep : State := { booted with pending := [.fwCommit false] }
/-- The last chunk of an image is due, which revokes slot 2 under slot 1. -/
def revoking : State := { bureau := { banks := [(1, { size := 1 })], session := true } }

theorem wit_StepTakesTheFrontCommand_2 : State.reset.power.powerGood = false := rfl

theorem wit_EveryStepKeepsTheFusesSound_1 : FuseState.sound commitStep.fuses ∧ step commitStep = .next (after (step commitStep)) :=
  ⟨by decide, rfl⟩

theorem wit_OnlyACommitRaisesTheCounter_1 :
    let t := after (exec (.fwCommit false) booted)
    exec (.fwCommit false) booted = .next t ∧ t.fuses.rollback ≠ booted.fuses.rollback := ⟨rfl, by decide +kernel⟩

theorem wit_OnlyACommitRaisesTheCounter_2 :
    let t := after (exec (.fwCommit false) booted)
    exec (.fwCommit false) booted = .next t ∧ (∃ m, Instr.fwCommit false = .fwCommit m) ∧ booted.host.bootOk = true ∧ booted.bureau.recovery = false
    ∧ booted.fuses.rollback < booted.bureau.runningSvn ∧ booted.bureau.runningSvn ≤ 64 ∧ booted.fuses.revoked ≠ 15 :=
  ⟨rfl, ⟨false, rfl⟩, by decide +kernel⟩

theorem wit_OnlyACommitRaisesTheCounter_3 :
    let o : ComponentOffer := { version := [], size := 0, stamp := 0, svn := 65, keySlot := 0 }
    exec (.pldmUpdateComponent o) booted = .next (after (exec (.pldmUpdateComponent o) booted)) ∧ 64 < o.svn := ⟨rfl, by decide⟩

theorem wit_OnlyACommitRaisesTheCounter_5 :
    let c : Instr := .fwDataChunk 0 [7] none (some (2, 1))
    let t := after (exec c revoking)
    exec c revoking = .next t ∧ t.fuses.revoked ≠ revoking.fuses.revoked := ⟨rfl, by decide +kernel⟩

def pick (k : Nat) : Instr := .selectExact 3 { k := k, ascending := false, mass := false, sumAnchor := 0, ref := 0, source := 0 } (.regs 0 1) 9

theorem wit_EveryCommandCompletesWithinItsLimits_1 : withinLimits {} (pick 1024) := by
  refine ⟨?_, ?_, ?_, ?_⟩ <;> intros <;> simp_all [pick]
  rename_i h; obtain ⟨rfl, rfl, rfl, -⟩ := h; decide +kernel

theorem wit_EveryCommandCompletesWithinItsLimits_2 : ¬ withinLimits {} (pick 1025) :=
  fun h => absurd (h.2.2.1 3 _ (.regs 0 1) 9 (.inl rfl)) (by decide +kernel)

theorem wit_CommandsChangeOnlyTheirParts_1 :
    let c : Instr := .fwCommit true
    exec c booted = .next (after (exec c booted)) ∧ Part.store ∉ touches c := ⟨rfl, by decide⟩

theorem wit_EveryStepKeepsMemoryCanonical_1 : Memory.wf commitStep ∧ step commitStep = .next (after (step commitStep)) := ⟨by decide, rfl⟩

end S1

end Sys2Proof.Tests
end

/-!
# Store reads and frees (O9)

A read of the central store corrects the words it finds (`eccRead`), sends one reply, and then has its effect at the slot (`readEffect`); the
requester's frame, filled last, is no part of the store. The laws below follow that order, and the obligation is assembled from them.
-/

namespace Sys2Proof.Machine

/-! ## The commands -/

theorem exec_storeRead (rq : StoreReq) (ups : List Upset) (s : State) :
    exec (.storeRead rq ups) s = .next (storeRead s rq ups true) := rfl

theorem exec_storeReadHeader (rq : StoreReq) (ups : List Upset) (s : State) :
    exec (.storeReadHeader rq ups) s = .next (storeRead s rq ups false) := rfl

theorem exec_storeFree (rq : StoreReq) (s : State) : exec (.storeFree rq) s = .next (storeFree s rq) := rfl

/-! ## Slots and replies under the corrections of a read -/

/-- A fold whose every step keeps the view `p` of its state keeps that view. -/
theorem foldl_keeps {σ α β : Type} (p : σ → β) {f : σ → α → σ} (h : ∀ s a, p (f s a) = p s) (l : List α) (s : σ) :
    p (l.foldl f s) = p s := by
  induction l generalizing s with
  | nil => rfl
  | cons a l ih => rw [List.foldl_cons, ih, h]

theorem slotOf_congr {s t : State} (h : t.store.slots = s.store.slots) (u : TileIdx) : slotOf t u = slotOf s u := by
  simp only [slotOf, h]

@[simp] theorem slotOf_logEvent (s : State) (e : Ev) (u : TileIdx) : slotOf (logEvent s e) u = slotOf s u := slotOf_congr (by simp) u

@[simp] theorem noteBadRow_slots (s : State) (t : TileIdx) (i : Nat) : (noteBadRow s t i).store.slots = s.store.slots := by
  unfold noteBadRow; repeat' split
  all_goals rfl

@[simp] theorem noteBadRow_replies (s : State) (t : TileIdx) (i : Nat) : (noteBadRow s t i).store.replies = s.store.replies := by
  unfold noteBadRow; repeat' split
  all_goals rfl

@[simp] theorem slotOf_noteBadRow (s : State) (t u : TileIdx) (i : Nat) : slotOf (noteBadRow s t i) u = slotOf s u := slotOf_congr (by simp) u

/-- A read of one word sends nothing: it writes the slot, and counts or logs (R57 to R60). -/
@[simp] theorem eccWord_replies (s : State) (t : TileIdx) (i : Nat) : (eccWord s t i).store.replies = s.store.replies := by
  simp only [eccWord]
  split
  case h_1 => simp
  case h_2 => split <;> simp
  case h_3 => simp

theorem slotOf_eccWord_other (s : State) {t u : TileIdx} (i : Nat) (h : u ≠ t) : slotOf (eccWord s t i) u = slotOf s u := by
  have hne : u.toNat ≠ t.toNat := fun e => h (BitVec.eq_of_toNat_eq e)
  simp only [eccWord]
  split
  case h_1 => simp [h]
  case h_2 => split <;> simp [slotOf, hne]
  case h_3 => simp [h]

@[simp] theorem eccRead_replies (s : State) (t : TileIdx) (ups : List Upset) (whole : Bool) :
    (eccRead s t ups whole).store.replies = s.store.replies :=
  foldl_keeps (fun s : State => s.store.replies) (fun s i => eccWord_replies s t i) _ _

theorem slotOf_eccRead_other (s : State) {t u : TileIdx} (ups : List Upset) (whole : Bool) (h : u ≠ t) :
    slotOf (eccRead s t ups whole) u = slotOf s u :=
  (foldl_keeps (fun s => slotOf s u) (fun s i => slotOf_eccWord_other s i h) _ _).trans (slotOf_setSlot_other _ _ _ _ h)

/-- A read that finds a slot's words as they were written changes nothing in the slot. -/
theorem slotOf_eccRead_of_no_flips (s : State) (t : TileIdx) (whole : Bool) (h : (slotOf s t).flips = []) :
    slotOf (eccRead s t [] whole) t = slotOf s t := by
  simp [eccRead, h]

/-! ## The code of a read (R45, Table 3.6) -/

/-- A non-secure requester other than the Bureau asks for a tile of the secure world. -/
abbrev worldBars (rq : StoreReq) (h : TileHeader) : Prop := rq.part ≠ 0x3F ∧ rq.world = false ∧ h.world = true

/-- A requester other than the Bureau asks for another tenant's tile that is not shared. -/
abbrev tenantBars (rq : StoreReq) (h : TileHeader) : Prop := rq.part ≠ 0x3F ∧ h.tenant ≠ rq.tenant ∧ h.shared = false

/-- The tests of `readCode`, in its order. -/
theorem readCode_eq (rq : StoreReq) (h : TileHeader) :
    readCode rq h = if h.state = .free then .notReady else if worldBars rq h then .deniedWorld else if tenantBars rq h then .deniedTenant
      else if h.state = .filling then .notReady else if h.poison then .poisoned else .data := by
  simp only [readCode, worldBars, tenantBars, fromBureau, Bool.and_eq_true, Bool.not_eq_true', decide_eq_true_eq, decide_eq_false_iff_not,
    and_assoc, ne_eq]

section
variable {rq : StoreReq} {h : TileHeader}

theorem readCode_of_free (hs : h.state = .free) : readCode rq h = .notReady := by rw [readCode_eq, if_pos hs]

theorem readCode_of_worldBars (hs : h.state ≠ .free) (hw : worldBars rq h) : readCode rq h = .deniedWorld := by
  rw [readCode_eq, if_neg hs, if_pos hw]

theorem readCode_of_tenantBars (hs : h.state ≠ .free) (hw : ¬worldBars rq h) (ht : tenantBars rq h) : readCode rq h = .deniedTenant := by
  rw [readCode_eq, if_neg hs, if_neg hw, if_pos ht]

theorem readCode_of_filling (hs : h.state = .filling) (hw : ¬worldBars rq h) (ht : ¬tenantBars rq h) : readCode rq h = .notReady := by
  simp [readCode_eq, hs, hw, ht]

theorem readCode_of_readable (hs : h.state = .ready ∨ h.state = .held) (hw : ¬worldBars rq h) (ht : ¬tenantBars rq h) :
    readCode rq h = if h.poison then .poisoned else .data := by
  rcases hs with hs | hs <;> simp [readCode_eq, hs, hw, ht]

end

/-! ## What a read does at the slot (R45, R46) -/

@[simp] theorem readEffect_replies (s : State) (rq : StoreReq) (h : TileHeader) (whole : Bool) :
    (readEffect s rq h whole).store.replies = s.store.replies := by
  simp only [readEffect]
  repeat' split
  all_goals simp

theorem slotOf_readEffect_other (s : State) (rq : StoreReq) (h : TileHeader) (whole : Bool) {u : TileIdx} (hu : u ≠ rq.tile) :
    slotOf (readEffect s rq h whole) u = slotOf s u := by
  simp only [readEffect]
  split
  · exact slotOf_congr (by simp) u
  · split
    · exact slotOf_setSlot_other _ _ _ _ hu
    · rfl

/-- Only a READ with HOLD can change a slot. -/
theorem slotOf_readEffect_of_not_hold (s : State) (rq : StoreReq) (h : TileHeader) (whole : Bool) (hn : whole = false ∨ rq.hold = false)
    (u : TileIdx) : slotOf (readEffect s rq h whole) u = slotOf s u := by
  have hn : (whole && rq.hold) = false := by rcases hn with hn | hn <;> simp [hn]
  simp only [readEffect, hn, Bool.false_and]
  split
  · exact slotOf_congr (by simp) u
  · rfl

/-- The slot as a holding read of its owner leaves it (R46). -/
def heldFor (rq : StoreReq) (x : Slot) : Slot :=
  { x with hdr := { x.hdr with state := .held, epoch := if x.hdr.epoch.toNat < rq.epoch.toNat then rq.epoch else x.hdr.epoch } }

theorem slotOf_readEffect_of_hold (s : State) {rq : StoreReq} {h : TileHeader} (hs : h.state = .ready ∨ h.state = .held)
    (hw : ¬worldBars rq h) (ht : ¬tenantBars rq h) (hh : rq.hold = true) (ho : rq.part = h.owner) :
    slotOf (readEffect s rq h true) rq.tile = heldFor rq (slotOf s rq.tile) := by
  have hc : ¬(readCode rq h = .deniedWorld ∨ readCode rq h = .deniedTenant) := by
    rw [readCode_of_readable hs hw ht]; cases h.poison <;> simp
  simp [readEffect, hc, hh, ho, hs, heldFor]

/-! ## READ and READ_HEADER -/

/-- The state in which a read for the corrected slot `x` has sent its reply, its effect at the slot still to come. -/
def afterReply (s : State) (rq : StoreReq) (ups : List Upset) (whole : Bool) (x : Slot) : State :=
  let u := eccRead s rq.tile ups whole
  { u with store := { u.store with replies := u.store.replies ++ [replyOf rq x whole] } }

@[simp] theorem slotOf_afterReply (s : State) (rq : StoreReq) (ups : List Upset) (whole : Bool) (x : Slot) (u : TileIdx) :
    slotOf (afterReply s rq ups whole x) u = slotOf (eccRead s rq.tile ups whole) u := rfl

section
variable {s : State} {rq : StoreReq} {ups : List Upset} {whole : Bool} {x : Slot}

/-- The frame that the reply fills at an engine is no part of the store. -/
theorem storeRead_store (hz : zeroFilling s rq.tile = false) (hx : slotOf (eccRead s rq.tile ups whole) rq.tile = x) :
    (storeRead s rq ups whole).store = (readEffect (afterReply s rq ups whole x) rq x.hdr whole).store := by
  simp only [storeRead, storeServe, hz, hx, Bool.false_eq_true, if_false]
  split
  · rw [(fillFrame_frame ..).2.1]; rfl
  · rfl

theorem storeRead_replies (hz : zeroFilling s rq.tile = false) (hx : slotOf (eccRead s rq.tile ups whole) rq.tile = x) :
    (storeRead s rq ups whole).store.replies = s.store.replies ++ [replyOf rq x whole] := by
  rw [storeRead_store hz hx, readEffect_replies, afterReply, eccRead_replies]

theorem slotOf_storeRead (hz : zeroFilling s rq.tile = false) (hx : slotOf (eccRead s rq.tile ups whole) rq.tile = x) (u : TileIdx) :
    slotOf (storeRead s rq ups whole) u = slotOf (readEffect (afterReply s rq ups whole x) rq x.hdr whole) u :=
  slotOf_congr (congrArg StoreState.slots (storeRead_store hz hx)) u

theorem slotOf_storeRead_other (hz : zeroFilling s rq.tile = false) {u : TileIdx} (hu : u ≠ rq.tile) :
    slotOf (storeRead s rq ups whole) u = slotOf s u := by
  rw [slotOf_storeRead hz rfl, slotOf_readEffect_other _ _ _ _ hu, slotOf_afterReply, slotOf_eccRead_other s ups whole hu]

theorem slotOf_storeRead_of_not_hold (hz : zeroFilling s rq.tile = false) (hx : slotOf (eccRead s rq.tile ups whole) rq.tile = x)
    (hn : whole = false ∨ rq.hold = false) : slotOf (storeRead s rq ups whole) rq.tile = x := by
  rw [slotOf_storeRead hz hx, slotOf_readEffect_of_not_hold _ _ _ _ hn, slotOf_afterReply, hx]

theorem slotOf_storeRead_of_hold (hz : zeroFilling s rq.tile = false) (hx : slotOf (eccRead s rq.tile ups true) rq.tile = x)
    (hs : x.hdr.state = .ready ∨ x.hdr.state = .held) (hw : ¬worldBars rq x.hdr) (ht : ¬tenantBars rq x.hdr)
    (hh : rq.hold = true) (ho : rq.part = x.hdr.owner) : slotOf (storeRead s rq ups true) rq.tile = heldFor rq x := by
  rw [slotOf_storeRead hz hx, slotOf_readEffect_of_hold _ hs hw ht hh ho, slotOf_afterReply, hx]

end

/-! ## The reply (R44, R45) -/

/-- Between the states `s` and `t` the store has sent one reply: code `c` for the slot `x`, the header but for a denial, the payload of a whole
tile only with DATA or POISONED. -/
def Answered (s t : State) (rq : StoreReq) (x : Slot) (full : Bool) (c : ReplyCode) : Prop :=
  t.store.replies = s.store.replies ++
    [{ rtag := rq.rtag, tile := rq.tile, code := c
       hdr := if c = .deniedWorld ∨ c = .deniedTenant then { state := x.hdr.state } else x.hdr
       payload := if full ∧ (c = .data ∨ c = .poisoned) then some x.payload else none }]

/-- The code that each state of a slot and each bar calls for. -/
def AnsweredByTable (s t : State) (rq : StoreReq) (x : Slot) (full : Bool) : Prop :=
  (x.hdr.state = .free → Answered s t rq x full .notReady)
  ∧ (x.hdr.state ≠ .free → worldBars rq x.hdr → Answered s t rq x full .deniedWorld)
  ∧ (x.hdr.state ≠ .free → ¬worldBars rq x.hdr → tenantBars rq x.hdr → Answered s t rq x full .deniedTenant)
  ∧ (x.hdr.state = .filling → ¬worldBars rq x.hdr → ¬tenantBars rq x.hdr → Answered s t rq x full .notReady)
  ∧ (x.hdr.state = .ready ∨ x.hdr.state = .held → ¬worldBars rq x.hdr → ¬tenantBars rq x.hdr →
      Answered s t rq x full (if x.hdr.poison then .poisoned else .data))

section
variable {s : State} {rq : StoreReq} {ups : List Upset} {whole : Bool} {x : Slot}

theorem storeRead_answered (hz : zeroFilling s rq.tile = false) (hx : slotOf (eccRead s rq.tile ups whole) rq.tile = x) {c : ReplyCode}
    (hc : readCode rq x.hdr = c) : Answered s (storeRead s rq ups whole) rq x whole c := by
  subst hc
  rw [Answered, storeRead_replies hz hx]
  simp [replyOf]

theorem storeRead_answeredByTable (hz : zeroFilling s rq.tile = false) (hx : slotOf (eccRead s rq.tile ups whole) rq.tile = x) :
    AnsweredByTable s (storeRead s rq ups whole) rq x whole :=
  have answered {c : ReplyCode} := storeRead_answered (c := c) hz hx
  ⟨fun hs => answered (readCode_of_free hs), fun hs hw => answered (readCode_of_worldBars hs hw),
    fun hs hw ht => answered (readCode_of_tenantBars hs hw ht), fun hs hw ht => answered (readCode_of_filling hs hw ht),
    fun hs hw ht => answered (readCode_of_readable hs hw ht)⟩

end

/-! ## FREE (R47) -/

/-- The Bureau frees any tile, the owner a READY one. -/
theorem storeFree_of_allowed {s : State} {rq : StoreReq} (hz : zeroFilling s rq.tile = false)
    (ha : rq.part = 0x3F ∨ (rq.part = (slotOf s rq.tile).hdr.owner ∧ (slotOf s rq.tile).hdr.state = .ready)) :
    storeFree s rq = setSlot s rq.tile fun x => { x with hdr := { x.hdr with state := .free } } := by
  simp only [storeFree, hz, Bool.false_eq_true, if_false, fromBureau, Bool.or_eq_true, Bool.and_eq_true, decide_eq_true_eq]
  exact if_pos ha

/-- Every other FREE is discarded and logged. -/
theorem storeFree_of_not_allowed {s : State} {rq : StoreReq} (hz : zeroFilling s rq.tile = false) (hb : rq.part ≠ 0x3F)
    (hn : rq.part ≠ (slotOf s rq.tile).hdr.owner ∨ (slotOf s rq.tile).hdr.state ≠ .ready) :
    storeFree s rq = logEvent s (.unnamed 6 (storeDieId rq.tile) [w32 rq.src.toNat, w32 rq.tile.toNat]) := by
  simp only [storeFree, hz, Bool.false_eq_true, if_false, fromBureau, Bool.or_eq_true, Bool.and_eq_true, decide_eq_true_eq]
  exact if_neg (not_or.2 ⟨hb, not_and_or.2 hn⟩)

/-! ## The obligation -/

/-- Settles O9: the reply by the code of the corrected slot, the slot by the read's effect, and FREE by its two cases. -/
theorem storeReadsAndFrees : Obligations.StoreReadsAndFrees := by
  unfold Obligations.StoreReadsAndFrees
  intro s rq ups hz
  refine ⟨?readHeader, ?read, fun hx w => slotOf_eccRead_of_no_flips s rq.tile w hx, ?free, ?logged⟩
  case readHeader =>
    obtain ⟨fabric, tier, -, -, flash, -⟩ := storeRead_frame s rq ups false
    generalize hx : slotOf (eccRead s rq.tile ups false) rq.tile = x
    exact ⟨_, exec_storeReadHeader rq ups s, storeRead_answeredByTable hz hx, slotOf_storeRead_of_not_hold hz hx (.inl rfl),
      fun y hy => slotOf_storeRead_other hz hy, fabric, tier, flash⟩
  case read =>
    obtain ⟨fabric, tier, -, -, flash, -⟩ := storeRead_frame s rq ups true
    generalize hx : slotOf (eccRead s rq.tile ups true) rq.tile = x
    exact ⟨_, exec_storeRead rq ups s, storeRead_answeredByTable hz hx,
      fun hs hw ht hh ho => slotOf_storeRead_of_hold hz hx hs hw ht hh ho,
      fun hh => slotOf_storeRead_of_not_hold hz hx (.inr hh), fun y hy => slotOf_storeRead_other hz hy, fabric, tier, flash⟩
  case free =>
    intro ha
    rw [exec_storeFree, storeFree_of_allowed hz ha]
  case logged =>
    intro hb hn
    rw [exec_storeFree, storeFree_of_not_allowed hz hb hn]

end Sys2Proof.Machine

/-!
# The fuses (O57)

Two commands reach the fuses: `fwCommit` raises the counter and `fwDataChunk` revokes a key slot (R431). `exec_fuses_cases` says once what a
command can do to them, and the obligation is read off it.
-/

namespace Sys2Proof.Machine

/-! ## What keeps the fuses -/

/-- What power-on, HOST_PERST_N and power-off leave of the module includes its fuses. -/
@[simp] theorem survivors_fuses (s : State) : (survivors s).fuses = s.fuses := by
  show (s.gen.indexes.foldl (fun s i => if i.2.batch.isSome then rollbackBatch s i.1 else s) s).fuses = s.fuses
  exact State.foldl_fuses (fun s i => by split <;> simp) _ _

@[simp] theorem powerOn_fuses (s : State) (mv : Nat) (seed : BitVec 64) : (powerOn s mv seed).fuses = s.fuses := survivors_fuses s

@[simp] theorem perstAssert_fuses (s : State) (seed : BitVec 64) : (perstAssert s seed).fuses = s.fuses := survivors_fuses s

@[simp] theorem powerOff_fuses (s : State) (tripped : Bool) : (powerOff s tripped).fuses = s.fuses := survivors_fuses s

@[simp] theorem leaveRecovery_fuses (s : State) : (leaveRecovery s).fuses = s.fuses := survivors_fuses s

@[simp] theorem powerLoss_fuses (s : State) (mv : Nat) (complete : Bool) (us : Nat) (tripped : Bool) :
    (powerLoss s mv complete us tripped).fuses = s.fuses := by simp [powerLoss]

@[simp] theorem firmwareTrip_fuses (s : State) (c : TripCause) (complete : Bool) (us : Nat) :
    (firmwareTrip s c complete us).fuses = s.fuses := by simp [firmwareTrip]

@[simp] theorem rateFloorUnheld_fuses (s : State) (d : Nat) : (rateFloorUnheld s d).fuses = s.fuses := by simp [rateFloorUnheld]

@[simp] theorem recoveryBoot_fuses (s : State) (svn : Nat) (slot : BitVec 2) (verdict : Option Verdict) :
    (recoveryBoot s svn slot verdict).1.fuses = s.fuses := by
  unfold recoveryBoot
  split <;> simp

/-- Every command but the two that R431 names keeps the fuses: the frame of each meaning. -/
theorem exec_fuses_eq {c : Instr} {s t : State} (h : exec c s = .next t) (hc : ∀ m, c ≠ .fwCommit m)
    (hd : ∀ k d v r, c ≠ .fwDataChunk k d v r) : t.fuses = s.fuses := by
  cases c
  case fwCommit m => exact absurd rfl (hc m)
  case fwDataChunk k d v r => exact absurd rfl (hd k d v r)
  case rateFloorUnheld => cases h; simp
  case recoveryBoot => cases h; simp
  case powerOn => cases h; simp
  case powerLoss => cases h; simp
  case inputReturn => cases h; simp
  case firmwareTrip => cases h; simp
  case hardwareTrip => cases h; simp
  case emergencyOff => cases h; simp
  case powerRestart => cases h; simp
  case hostPerstNAssert => cases h; simp
  case dieLinkFlitReceive => simp only [execDieLinkFlitReceive_frame _ _ _ t h]
  case ackOnlyFlit => simp only [execAckOnlyFlit_frame _ _ t h]
  case linkReinitialise => simp only [execLinkReinitialise_frame _ _ t h]
  case linkReinitDone => simp only [execLinkReinitDone_frame _ _ t h]
  case linkFailed => simp only [execLinkFailed_frame _ _ t h]
  case hubFlitGrant => simp only [execHubFlitGrant_frame _ _ _ t h]
  case controlRingHop => simp only [execControlRingHop_frame _ _ _ _ t h]
  case subscribe => simp only [execSubscribe_frame _ _ _ t h]
  case unsubscribe => simp only [execUnsubscribe_frame _ _ _ t h]
  case readyNotice => simp only [execReadyNotice_frame _ _ _ t h]
  case fenceReq => simp only [execFenceReq_frame _ _ _ t h]
  case fenceMarkerAnswer => simp only [execFenceMarkerAnswer_frame _ _ _ _ _ t h]
  case fenceDone => simp only [execFenceDone_frame _ _ _ _ t h]
  case quiesceReq => simp only [execQuiesceReq_frame _ _ t h]
  case blockQuiet => simp only [execBlockQuiet_frame _ _ t h]
  case quiesceDone => simp only [execQuiesceDone_frame _ _ t h]
  case quiesceTimeout => simp only [execQuiesceTimeout_frame _ _ t h]
  case commitNotice => simp only [execCommitNotice_frame _ _ _ t h]
  case retractNotice => simp only [execRetractNotice_frame _ _ _ t h]
  case resetRelease => simp only [execResetRelease_frame _ _ _ t h]
  case rateSample => simp only [execRateSample_frame _ _ _ t h]
  case refclkLoss => simp only [execRefclkLoss_frame _ t h]
  case refclkReturn => simp only [execRefclkReturn_frame _ t h]
  case storeRead => simp only [execStoreRead_frame _ _ _ t h]
  case storeReadHeader => simp only [execStoreReadHeader_frame _ _ _ t h]
  case storeFree => simp only [execStoreFree_frame _ _ t h]
  case storeScrub => simp only [execStoreScrub_frame _ _ _ t h]
  case storeWriteHeader => simp only [execStoreWriteHeader_frame _ _ _ _ _ _ t h]
  case storeWritePayload => simp only [execStoreWritePayload_frame _ _ _ _ _ t h]
  case scrubPaceTick => simp only [execScrubPaceTick_frame _ t h]
  case storeZeroFillDone => simp only [execStoreZeroFillDone_frame _ _ t h]
  case tierWriteTile => simp only [execTierWriteTile_frame _ _ _ _ _ t h]
  case tierWriteUnblocked => simp only [execTierWriteUnblocked_frame _ _ t h]
  case tierReadTile => simp only [execTierReadTile_frame _ _ _ _ _ _ t h]
  case writeBack => simp only [execWriteBack_frame _ _ _ _ t h]
  case migrateRoStart => simp only [execMigrateRoStart_frame _ _ _ _ t h]
  case migrateRoSwitch => simp only [execMigrateRoSwitch_frame _ _ t h]
  case migrateRoDrainEnd => simp only [execMigrateRoDrainEnd_frame _ _ t h]
  case migrateStart => simp only [execMigrateStart_frame _ _ _ _ t h]
  case migrateTileCopy => simp only [execMigrateTileCopy_frame _ _ t h]
  case mr4Poll => simp only [execMr4Poll_frame _ _ _ _ _ t h]
  case wckOscCheck => simp only [execWckOscCheck_frame _ _ _ t h]
  case subchannelRetrainDone => simp only [execSubchannelRetrainDone_frame _ _ t h]
  case lpddr6TrainingDone => simp only [execLpddr6TrainingDone_frame _ _ t h]
  case streamTileWrite => simp only [execStreamTileWrite_frame _ _ _ t h]
  case streamSlotPoll => simp only [execStreamSlotPoll_frame _ _ t h]
  case refetchReadback => simp only [execRefetchReadback_frame _ _ _ _ t h]
  case deepShapeMatmul => simp only [execDeepShapeMatmul_frame _ _ t h]
  case wideShapeMatmul => simp only [execWideShapeMatmul_frame _ _ t h]
  case convolution => simp only [execConvolution_frame _ _ t h]
  case conversionRead => simp only [execConversionRead_frame _ _ t h]
  case anchorRetryDone => simp only [execAnchorRetryDone_frame _ _ t h]
  case activityHoldExpiry => simp only [execActivityHoldExpiry_frame _ _ _ t h]
  case activityLevelStep => simp only [execActivityLevelStep_frame _ _ t h]
  case vectorOp => simp only [execVectorOp_frame _ _ t h]
  case mxQuantise => simp only [execMxQuantise_frame _ _ _ _ t h]
  case reduction => simp only [execReduction_frame _ _ _ t h]
  case rotaryEncoding => simp only [execRotaryEncoding_frame _ _ _ _ _ t h]
  case normalisation => simp only [execNormalisation_frame _ _ _ _ _ _ t h]
  case selectExact => simp only [execSelectExact_frame _ _ _ _ _ t h]
  case selectBucket => simp only [execSelectBucket_frame _ _ _ _ _ t h]
  case selectMerge => simp only [execSelectMerge_frame _ _ _ _ _ _ t h]
  case mergeStart => simp only [execMergeStart_frame _ _ _ t h]
  case mergeSlotPublish => simp only [execMergeSlotPublish_frame _ _ _ _ t h]
  case readyLineInvalidation => simp only [execReadyLineInvalidation_frame _ _ _ t h]
  case readyLineReread => simp only [execReadyLineReread_frame _ _ _ _ _ _ _ t h]
  case walkStart => simp only [execWalkStart_frame _ _ t h]
  case walkRoundEnd => simp only [execWalkRoundEnd_frame _ _ t h]
  case scanIssue => simp only [execScanIssue_frame _ _ t h]
  case shelfUnitArrive => simp only [execShelfUnitArrive_frame _ _ _ _ _ t h]
  case chainTileArrive => simp only [execChainTileArrive_frame _ _ _ _ t h]
  case scanBudgetExpired => simp only [execScanBudgetExpired_frame _ _ t h]
  case retrievalSoftDeadline => simp only [execRetrievalSoftDeadline_frame _ _ t h]
  case scanCut => simp only [execScanCut_frame _ _ _ t h]
  case shelfScanEnd => simp only [execShelfScanEnd_frame _ _ _ t h]
  case candidateMerge => simp only [execCandidateMerge_frame _ _ t h]
  case passageFetch => simp only [execPassageFetch_frame _ _ t h]
  case passageUnitArrive => simp only [execPassageUnitArrive_frame _ _ _ _ t h]
  case fetchBudgetExpired => simp only [execFetchBudgetExpired_frame _ _ t h]
  case rerankStart => simp only [execRerankStart_frame _ _ t h]
  case rerankEnd => simp only [execRerankEnd_frame _ _ t h]
  case packStart => simp only [execPackStart_frame _ _ t h]
  case promptReady => simp only [execPromptReady_frame _ _ _ t h]
  case checkRecordWrite => simp only [execCheckRecordWrite_frame _ _ _ t h]
  case stepBoundary => simp only [execStepBoundary_frame _ _ _ t h]
  case engineContextSwitch => simp only [execEngineContextSwitch_frame _ _ _ t h]
  case kvPageWrite => simp only [execKvPageWrite_frame _ _ _ _ _ t h]
  case attentionPagePartial => simp only [execAttentionPagePartial_frame _ _ t h]
  case sampleToken => simp only [execSampleToken_frame _ _ _ _ _ _ t h]
  case drawPortServe => simp only [execDrawPortServe_frame _ _ t h]
  case grammarMaskRequest => simp only [execGrammarMaskRequest_frame _ _ _ t h]
  case stopReport => simp only [execStopReport_frame _ _ _ _ _ t h]
  case matched => simp only [execMatched_frame _ _ _ t h]
  case interferenceWindowClose => simp only [execInterferenceWindowClose_frame _ t h]
  case tokenizerInstall => simp only [execTokenizerInstall_frame _ _ t h]
  case tokenizerCheckDone => simp only [execTokenizerCheckDone_frame _ _ t h]
  case tokenizerRemove => simp only [execTokenizerRemove_frame _ _ t h]
  case committedTokensReceive => simp only [execCommittedTokensReceive_frame _ _ _ _ t h]
  case slotFinalRelease => simp only [execSlotFinalRelease_frame _ _ _ t h]
  case tableRefresh => simp only [execTableRefresh_frame _ _ t h]
  case hostLinkTraining => simp only [execHostLinkTraining_frame _ _ _ _ t h]
  case doorbellInvalidation => simp only [execDoorbellInvalidation_frame _ _ _ t h]
  case doorbellRereadReturn => simp only [execDoorbellRereadReturn_frame _ _ _ _ _ t h]
  case atsInvalidation => simp only [execAtsInvalidation_frame _ _ _ t h]
  case hostWindowRead => simp only [execHostWindowRead_frame _ _ _ _ t h]
  case hostWindowWrite => simp only [execHostWindowWrite_frame _ _ _ t h]
  case backInvalidateResponse => simp only [execBackInvalidateResponse_frame _ _ t h]
  case completionPost => simp only [execCompletionPost_frame _ _ _ _ _ t h]
  case msixTimeExpiry => simp only [execMsixTimeExpiry_frame _ _ _ t h]
  case cxlHotReset => simp only [execCxlHotReset_frame _ t h]
  case functionLevelReset => simp only [execFunctionLevelReset_frame _ _ t h]
  case nop => simp only [execNop_frame _ _ _ _ t h]
  case turn => simp only [execTurn_frame _ _ _ _ t h]
  case textAppend => simp only [execTextAppend_frame _ _ _ _ t h]
  case turnEndDeadline => simp only [execTurnEndDeadline_frame _ _ t h]
  case embed => simp only [execEmbed_frame _ _ _ _ t h]
  case search => simp only [execSearch_frame _ _ _ _ t h]
  case rerank => simp only [execRerank_frame _ _ _ _ t h]
  case generate => simp only [execGenerate_frame _ _ _ _ t h]
  case tokenize => simp only [execTokenize_frame _ _ _ _ t h]
  case detokenize => simp only [execDetokenize_frame _ _ _ _ t h]
  case indexInsert => simp only [execIndexInsert_frame _ _ _ _ t h]
  case indexPatch => simp only [execIndexPatch_frame _ _ _ _ t h]
  case indexDelete => simp only [execIndexDelete_frame _ _ _ _ t h]
  case rowLookup => simp only [execRowLookup_frame _ _ _ _ t h]
  case rowUpdate => simp only [execRowUpdate_frame _ _ _ _ t h]
  case loadExtent => simp only [execLoadExtent_frame _ _ _ _ t h]
  case adapterLoad => simp only [execAdapterLoad_frame _ _ _ _ t h]
  case grammarLoad => simp only [execGrammarLoad_frame _ _ _ _ t h]
  case programLoad => simp only [execProgramLoad_frame _ _ _ _ _ t h]
  case programReplaceSwitch => simp only [execProgramReplaceSwitch_frame _ _ t h]
  case programUnload => simp only [execProgramUnload_frame _ _ _ _ t h]
  case partitionUnloadDone => simp only [execPartitionUnloadDone_frame _ _ t h]
  case cancel => simp only [execCancel_frame _ _ _ _ t h]
  case fence => simp only [execFence_frame _ _ _ _ t h]
  case fenceComplete => simp only [execFenceComplete_frame _ _ _ t h]
  case worldMapWrite => simp only [execWorldMapWrite_frame _ _ _ t h]
  case stepWatchdogExpiry => simp only [execStepWatchdogExpiry_frame _ _ _ t h]
  case fieldTestDue => simp only [execFieldTestDue_frame _ _ t h]
  case fieldTestDeferralEnd => simp only [execFieldTestDeferralEnd_frame _ _ t h]
  case fieldTestComplete => simp only [execFieldTestComplete_frame _ _ _ t h]
  case setteeFrameReceive => simp only [execSetteeFrameReceive_frame _ _ t h]
  case setteeEmptyFrame => simp only [execSetteeEmptyFrame_frame _ t h]
  case setteeRealign => simp only [execSetteeRealign_frame _ _ t h]
  case setteeSilence => simp only [execSetteeSilence_frame _ _ t h]
  case setteeTrainAttempt => simp only [execSetteeTrainAttempt_frame _ _ t h]
  case ident => simp only [execIdent_frame _ _ t h]
  case mirrorIndex => simp only [execMirrorIndex_frame _ _ _ t h]
  case mirrorRows => simp only [execMirrorRows_frame _ _ _ t h]
  case mirrorAdapter => simp only [execMirrorAdapter_frame _ _ _ t h]
  case mirrorConfig => simp only [execMirrorConfig_frame _ _ _ t h]
  case mirrorAck => simp only [execMirrorAck_frame _ _ _ t h]
  case mirrorTimeout => simp only [execMirrorTimeout_frame _ _ _ t h]
  case forward => simp only [execForward_frame _ _ _ t h]
  case forwardDone => simp only [execForwardDone_frame _ _ _ t h]
  case turnDesc => simp only [execTurnDesc_frame _ _ _ t h]
  case turnText => simp only [execTurnText_frame _ _ _ t h]
  case turnSnap => simp only [execTurnSnap_frame _ _ t h]
  case turnDone => simp only [execTurnDone_frame _ _ t h]
  case remoteTile => simp only [execRemoteTile_frame _ _ _ _ t h]
  case commit => simp only [execCommit_frame _ _ t h]
  case retract => simp only [execRetract_frame _ _ t h]
  case mirrorRead => simp only [execMirrorRead_frame _ _ _ t h]
  case mirrorData => simp only [execMirrorData_frame _ _ _ _ t h]
  case journalReq => simp only [execJournalReq_frame _ _ _ t h]
  case handover => simp only [execHandover_frame _ _ t h]
  case relinquish m swaps unmapped => simp only [execRelinquish_frame m _ _ _ t h]
  case leaseLineInvalidation => simp only [execLeaseLineInvalidation_frame _ _ _ t h]
  case leaseRenew => simp only [execLeaseRenew_frame _ _ _ t h]
  case leaseExpiryTake => simp only [execLeaseExpiryTake_frame _ _ _ _ t h]
  case leaseRenewLapse => simp only [execLeaseRenewLapse_frame _ _ t h]
  case failbackHandover => simp only [execFailbackHandover_frame _ _ _ t h]
  case mapPortLookup => simp only [execMapPortLookup_frame _ _ t h]
  case flashProgramDone => simp only [execFlashProgramDone_frame _ _ _ t h]
  case flashReadDone => simp only [execFlashReadDone_frame _ _ _ t h]
  case journalFlush => simp only [execJournalFlush_frame _ t h]
  case mapImageSegment => simp only [execMapImageSegment_frame _ t h]
  case groupReadbackDone => simp only [execGroupReadbackDone_frame _ _ _ t h]
  case blockRewrite => simp only [execBlockRewrite_frame _ _ _ _ t h]
  case wearLevelMove => simp only [execWearLevelMove_frame _ _ _ t h]
  case garbageCollect => simp only [execGarbageCollect_frame _ _ _ t h]
  case blockErase => simp only [execBlockErase_frame _ _ _ _ t h]
  case ftlColdRebuild => simp only [execFtlColdRebuild_frame _ _ t h]
  case ftlWarmRebuild => simp only [execFtlWarmRebuild_frame _ _ _ t h]
  case watchdogStage1 => simp only [execWatchdogStage1_frame _ _ t h]
  case watchdogStage2 => simp only [execWatchdogStage2_frame _ _ t h]
  case icSourceFiltered => simp only [execIcSourceFiltered_frame _ _ _ t h]
  case icClaimRead => simp only [execIcClaimRead_frame _ _ t h]
  case icComplete => simp only [execIcComplete_frame _ _ _ t h]
  case controlLoopTick => simp only [execControlLoopTick_frame _ _ t h]
  case powerCapUnmet => simp only [execPowerCapUnmet_frame _ _ t h]
  case thermalLimit => simp only [execThermalLimit_frame _ _ _ t h]
  case eventTokenRefill => simp only [execEventTokenRefill_frame _ _ t h]
  case eventStageFlush => simp only [execEventStageFlush_frame _ t h]
  case extentMap => simp only [execExtentMap_frame _ _ _ t h]
  case extentUnmap => simp only [execExtentUnmap_frame _ _ t h]
  case extentSet => simp only [execExtentSet_frame _ _ _ t h]
  case indexCreate => simp only [execIndexCreate_frame _ _ _ t h]
  case indexDestroy => simp only [execIndexDestroy_frame _ _ t h]
  case tableCreate => simp only [execTableCreate_frame _ _ _ t h]
  case tableDestroy => simp only [execTableDestroy_frame _ _ t h]
  case tenantRemove => simp only [execTenantRemove_frame _ _ t h]
  case quiesce => simp only [execQuiesce_frame _ _ t h]
  case blockReset => simp only [execBlockReset_frame _ _ t h]
  case readCounters => simp only [execReadCounters_frame _ _ t h]
  case setUtc => simp only [execSetUtc_frame _ _ _ t h]
  case readSlot => simp only [execReadSlot_frame _ _ _ t h]
  case readCapability => simp only [execReadCapability_frame _ _ t h]
  case pairTakeover => simp only [execPairTakeover_frame _ _ _ t h]
  case pairHandover => simp only [execPairHandover_frame _ _ _ t h]
  case soloClear => simp only [execSoloClear_frame _ _ t h]
  case setLimits => simp only [execSetLimits_frame _ _ _ t h]
  case eventRead => simp only [execEventRead_frame _ _ _ _ _ t h]
  case eventClear => simp only [execEventClear_frame _ _ t h]
  case faultRead => simp only [execFaultRead_frame _ _ _ _ t h]
  case attest => simp only [execAttest_frame _ _ _ t h]
  case certRead => simp only [execCertRead_frame _ _ t h]
  case fwSchedule => simp only [execFwSchedule_frame _ _ _ t h]
  case fwCancel => simp only [execFwCancel_frame _ _ t h]
  case status => simp only [execStatus_frame _ _ _ t h]
  case mailboxBackgroundDone => simp only [execMailboxBackgroundDone_frame _ _ t h]
  case mctpControl => simp only [execMctpControl_frame _ _ t h]
  case pldmPlatformRequest => simp only [execPldmPlatformRequest_frame _ _ t h]
  case activateFirmware => simp only [execActivateFirmware_frame _ t h]
  case fwPending => simp only [execFwPending_frame _ t h]
  case fwActivation => simp only [execFwActivation_frame _ t h]
  case drainEnd => simp only [execDrainEnd_frame _ t h]
  case fwPairActivation => simp only [execFwPairActivation_frame _ t h]
  case fwActivationHeld => simp only [execFwActivationHeld_frame _ t h]
  case bootOk => simp only [execBootOk_frame _ t h]
  case bootTimeout => simp only [execBootTimeout_frame _ t h]
  case recoveryWrite => simp only [execRecoveryWrite_frame _ _ _ _ t h]
  case recoveryStatus => simp only [execRecoveryStatus_frame _ _ t h]
  case domainPowerUp => simp only [execDomainPowerUp_frame _ t h]
  case pinConfigure => simp only [execPinConfigure_frame _ t h]
  case releaseChainStep => simp only [execReleaseChainStep_frame _ _ t h]
  case inputLow => simp only [execInputLow_frame _ _ _ t h]
  case inputHigh => simp only [execInputHigh_frame _ _ _ t h]
  case overvoltageStop => simp only [execOvervoltageStop_frame _ _ t h]
  case holdupArmed => simp only [execHoldupArmed_frame _ _ _ t h]
  case bureauPerstRelease => simp only [execBureauPerstRelease_frame _ t h]
  case hostPerstNDeassert => simp only [execHostPerstNDeassert_frame _ t h]
  case warmReset => simp only [execWarmReset_frame _ _ t h]
  case registerWrite => simp only [execRegisterWrite_frame _ _ _ _ _ t h]
  case qpEnable => simp only [execQpEnable_frame _ _ _ _ _ _ t h]
  case qpDisable => simp only [execQpDisable_frame _ _ _ t h]
  case qpDisableDone => simp only [execQpDisableDone_frame _ _ _ t h]
  case windowResize => simp only [execWindowResize_frame _ _ t h]
  case windowResizeDone => simp only [execWindowResizeDone_frame _ t h]
  case windowTenantSet => simp only [execWindowTenantSet_frame _ _ _ t h]
  case pairEnable => simp only [execPairEnable_frame _ _ t h]
  case pairDisable => simp only [execPairDisable_frame _ _ t h]
  case cntClear => simp only [execCntClear_frame _ _ t h]
  case counterLowRead => simp only [execCounterLowRead_frame _ _ _ _ t h]
  case listCompactionSwitch => simp only [execListCompactionSwitch_frame _ _ _ _ t h]
  case listCompactionFree => simp only [execListCompactionFree_frame _ _ _ t h]
  case flashEraseDone => simp only [execFlashEraseDone_frame _ _ _ _ _ t h]
  case setteeRealignDone => simp only [execSetteeRealignDone_frame _ t h]
  case setteeLaneFailed => simp only [execSetteeLaneFailed_frame _ _ t h]
  case cxlCacheEnableWrite => simp only [execCxlCacheEnableWrite_frame _ _ t h]
  case msixVectorUnmask => simp only [execMsixVectorUnmask_frame _ _ _ t h]
  case boardSensorSample => simp only [execBoardSensorSample_frame _ _ t h]
  case pldmUpdateComponent => simp only [execPldmUpdateComponent_frame _ _ t h]

/-! ## The counter: FW_COMMIT -/

/-- A command of the mailbox has its effect outside recovery alone; the reply reaches no fuse. -/
theorem command_fuses (s : State) (m : Bool) (f : State → State × Status × Bytes) :
    (command s m f).fuses = if s.bureau.recovery then s.fuses else (f s).1.fuses := by
  unfold command
  split <;> simp

theorem commitFirmware_fuses (s : State) : (commitFirmware s).1.fuses =
    if s.host.bootOk = true ∧ s.fuses.rollback < min 64 s.bureau.runningSvn then { s.fuses with rollback := min 64 s.bureau.runningSvn }
    else s.fuses := by
  unfold commitFirmware
  cases s.host.bootOk
  · simp
  · simp only [Bool.not_true, Bool.false_eq_true, if_false, true_and]
    split <;> simp

/-- The commit is effective: BOOT_OK has come outside recovery, and the running image has a higher SVN than the counter. -/
abbrev CommitRaises (s : State) : Prop :=
  s.bureau.recovery = false ∧ s.host.bootOk = true ∧ s.fuses.rollback < min 64 s.bureau.runningSvn

theorem exec_fwCommit_fuses {m : Bool} {s t : State} (h : exec (.fwCommit m) s = .next t) :
    t.fuses = if CommitRaises s then { s.fuses with rollback := min 64 s.bureau.runningSvn } else s.fuses := by
  cases h
  rw [command_fuses, commitFirmware_fuses]
  by_cases hr : s.bureau.recovery = true <;> simp [CommitRaises, hr]

/-! ## The key slots: a revocation record of a staged image -/

/-- The record revokes its slot: another slot has signed it, and neither is revoked. -/
abbrev FuseState.Revokes (f : FuseState) (slot signer : BitVec 2) : Prop :=
  slot ≠ signer ∧ f.revoked.getLsbD slot.toNat = false ∧ f.revoked.getLsbD signer.toNat = false

/-- The fuses once a slot is revoked. -/
abbrev FuseState.withRevoked (f : FuseState) (slot : BitVec 2) : FuseState :=
  { f with revoked := f.revoked ||| BitVec.ofNat 4 (2 ^ slot.toNat) }

theorem revokeSlot_fuses (s : State) (slot signer : BitVec 2) :
    (revokeSlot s slot signer).fuses = if s.fuses.Revokes slot signer then s.fuses.withRevoked slot else s.fuses := by
  unfold revokeSlot
  split
  case isTrue h =>
    rw [if_neg]
    rintro ⟨h1, h2, h3⟩
    simp [h1, h2, h3] at h
  case isFalse h => rw [if_pos (by simpa [and_assoc] using h)]; simp

/-- Staging reaches the fuses through the image's revocation record alone. -/
theorem verifyStaged_fuses (s : State) (i : BankImage) (verdict : Option Verdict) (revoke : Option (BitVec 2 × BitVec 2)) :
    (verifyStaged s i verdict revoke).fuses = s.fuses ∨ ∃ slot signer, revoke = some (slot, signer) ∧ s.fuses.Revokes slot signer
      ∧ (verifyStaged s i verdict revoke).fuses = s.fuses.withRevoked slot := by
  unfold verifyStaged
  split
  · left; simp
  · split
    case h_1 slot signer =>
      simp only [revokeSlot_fuses, logEvent_frame]
      split
      case isTrue h => exact .inr ⟨slot, signer, rfl, h, rfl⟩
      case isFalse => exact .inl rfl
    case h_2 => left; simp

theorem dataChunk_fuses (s : State) (k : Nat) (data : Bytes) (verdict : Option Verdict) (revoke : Option (BitVec 2 × BitVec 2)) :
    (dataChunk s k data verdict revoke).fuses = s.fuses ∨ ∃ slot signer, revoke = some (slot, signer) ∧ s.fuses.Revokes slot signer
      ∧ (dataChunk s k data verdict revoke).fuses = s.fuses.withRevoked slot := by
  unfold dataChunk
  split
  · exact .inl rfl
  · split
    · exact .inl rfl
    · dsimp only
      split
      · exact verifyStaged_fuses _ _ verdict revoke
      · exact .inl rfl

/-- The slot that has signed the record stays unrevoked, so never the last slot is revoked. -/
theorem withRevoked_ne_all {f : FuseState} {slot signer : BitVec 2} (hne : slot ≠ signer) (hs : f.revoked.getLsbD signer.toNat = false) :
    (f.withRevoked slot).revoked ≠ 15 := by
  intro h
  have hbit := congrArg (·.getLsbD signer.toNat) h
  simp only [BitVec.getLsbD_or, hs, Bool.false_or] at hbit
  clear h hs
  revert slot signer
  decide

/-! ## What a command can do to the fuses -/

theorem exec_fuses_cases {c : Instr} {s t : State} (h : exec c s = .next t) :
    t.fuses = s.fuses
    ∨ (∃ m, c = .fwCommit m) ∧ CommitRaises s ∧ t.fuses = { s.fuses with rollback := min 64 s.bureau.runningSvn }
    ∨ ∃ k d v slot signer, c = .fwDataChunk k d v (some (slot, signer)) ∧ s.fuses.Revokes slot signer ∧ t.fuses = s.fuses.withRevoked slot := by
  by_cases hc : ∃ m, c = .fwCommit m
  · obtain ⟨m, rfl⟩ := hc
    have hf := exec_fwCommit_fuses h
    split at hf
    · exact .inr (.inl ⟨⟨m, rfl⟩, ‹_›, hf⟩)
    · exact .inl hf
  by_cases hd : ∃ k d v r, c = .fwDataChunk k d v r
  · obtain ⟨k, d, v, r, rfl⟩ := hd
    cases h
    rcases dataChunk_fuses s k d v r with hf | ⟨slot, signer, rfl, hr, hf⟩
    · exact .inl hf
    · exact .inr (.inr ⟨k, d, v, slot, signer, rfl, hr, hf⟩)
  push Not at hc hd
  exact .inl (exec_fuses_eq h hc hd)

/-! ## An SVN above 64 (R431) -/

/-- The offer is refused, and PLDM's answer is all that comes of it. -/
theorem updateComponent_bureau_of_svn {s : State} {o : ComponentOffer} (h : 64 < o.svn) : (updateComponent s o).bureau = s.bureau := by
  simp [updateComponent, offerRefused, h]

theorem imageCause_ne_none_of_svn (s : State) {svn : Nat} (h : 64 < svn) (slot : BitVec 2) (verdict : Option Verdict) :
    imageCause s svn slot verdict ≠ none := by
  unfold imageCause
  split
  · simp
  · simp [h]

/-! ## The obligation -/

/-- Settles O57: by the three cases of `exec_fuses_cases`; the equation of FW_COMMIT gives the counter's new value. -/
theorem onlyACommitRaisesTheCounter : Obligations.OnlyACommitRaisesTheCounter := by
  unfold Obligations.OnlyACommitRaisesTheCounter
  intro c s t h
  refine ⟨?raised, ?commit, ?offer, fun n hn k v => imageCause_ne_none_of_svn s hn k v, ?revoked, ?last⟩
  case raised =>
    intro hne
    rcases exec_fuses_cases h with hf | ⟨hc, ⟨-, hboot, hlt⟩, hf⟩ | ⟨k, d, v, slot, signer, -, -, hf⟩
    · exact absurd (by rw [hf]) hne
    · rw [hf]; exact ⟨hc, hboot, hlt, rfl⟩
    · exact absurd (by rw [hf]) hne
  case commit =>
    rintro ⟨m, rfl⟩ hboot hrec hlt hle
    rw [exec_fwCommit_fuses h, if_pos ⟨hrec, hboot, by omega⟩]
    exact Nat.min_eq_right hle
  case offer =>
    rintro o rfl ho
    cases h
    exact updateComponent_bureau_of_svn ho
  case revoked =>
    intro hne
    rcases exec_fuses_cases h with hf | ⟨-, -, hf⟩ | ⟨k, d, v, slot, signer, hc, ⟨hss, h1, h2⟩, hf⟩
    · exact absurd (by rw [hf]) hne
    · exact absurd (by rw [hf]) hne
    · exact ⟨k, d, v, slot, signer, hc, hss, h1, h2, by rw [hf]⟩
  case last =>
    intro hs
    rcases exec_fuses_cases h with hf | ⟨-, -, hf⟩ | ⟨k, d, v, slot, signer, -, ⟨hss, -, h2⟩, hf⟩
    · rwa [hf]
    · rwa [hf]
    · rw [hf]; exact withRevoked_ne_all hss h2

end Sys2Proof.Machine

/-!
# The Bureau's loops and interrupts (O47)

The laws follow the Bureau's own work: the interrupt controller, the watchdogs, the event recorder, the control loop and the sensors. Each
says once what one meaning does; the obligation is assembled from them.
-/

namespace Sys2Proof.Machine

/-! ## Sources of the interrupt controller (R411, R412, R414) -/

@[simp] theorem icOf_setIc (s : State) (n m : Nat) (x : IcSource) : icOf (setIc s n x) m = if m = n then x else icOf s m := by
  simp [icOf, setIc]

@[simp] theorem icOf_setLatch (s : State) (n m : Nat) (on : Bool) : icOf (setLatch s n on) m = icOf s m := rfl

/-- The latch of source n reads as it was set. -/
theorem setLatch_bit (s : State) (n : Nat) (on : Bool) : (mget 0 (setLatch s n on).bureau.edge (n / 32)).getLsbD (n % 32) = on := by
  have hn : n % 32 < 32 := Nat.mod_lt _ (by decide)
  cases on
  · simp only [setLatch, Bool.false_eq_true, if_false, mget_mput, if_true, BitVec.getLsbD_and, BitVec.getLsbD_not, BitVec.getLsbD_ofNat,
      hn, Nat.testBit_two_pow_self, decide_true, Bool.and_true, Bool.not_true, Bool.and_false]
  · simp only [setLatch, if_true, mget_mput, BitVec.getLsbD_or, BitVec.getLsbD_ofNat, hn, Nat.testBit_two_pow_self, decide_true,
      Bool.and_true, Bool.or_true]

/-- An assignment writes the target and nothing else of the source. -/
theorem IcSource.assign_cases (x : IcSource) : x.assign = x ∨ ∃ t, x.assign = { x with assigned := some t, lastTarget := some t } := by
  unfold IcSource.assign
  split
  · exact .inl rfl
  · split
    · exact .inl rfl
    · exact .inr ⟨_, rfl⟩

@[simp] theorem IcSource.assign_line (x : IcSource) : x.assign.line = x.line := by
  rcases x.assign_cases with h | ⟨t, h⟩ <;> rw [h]

@[simp] theorem IcSource.assign_pending (x : IcSource) : x.assign.pending = x.pending := by
  rcases x.assign_cases with h | ⟨t, h⟩ <;> rw [h]

@[simp] theorem IcSource.assign_merged (x : IcSource) : x.assign.merged = x.merged := by
  rcases x.assign_cases with h | ⟨t, h⟩ <;> rw [h]

theorem IcSource.assign_of_free {x : IcSource} {t : BitVec 2} (hp : x.pending = true) (ha : x.active = false) (hn : x.assigned = none)
    (h0 : x.priority ≠ 0) (ht : x.order.head? = some t) : x.assign = { x with assigned := some t, lastTarget := some t } := by
  simp only [IcSource.assign, hp, ha, hn, h0, ht, Bool.not_true, Option.isSome_none, Bool.or_false, decide_false, Bool.false_eq_true,
    if_false]

/-- An 8-bit counter that stays at 255. -/
theorem toNat_countTo255 (c : BitVec 8) : (if c = 255 then 255 else c + 1).toNat = min 255 (c.toNat + 1) := by
  split
  case isTrue h => subst h; rfl
  case isFalse h => bv_omega

section
variable {s : State} {n : Nat}

theorem sourceFiltered_of_same {level : Bool} (h : (icOf s n).line = level) : sourceFiltered s n level = s := by
  simp [sourceFiltered, h]

theorem sourceFiltered_level_high (hl : (icOf s n).line = false) (hv : (icOf s n).level = true) :
    sourceFiltered s n true = setIc s n (IcSource.assign { icOf s n with line := true, pending := true }) := by
  simp [sourceFiltered, hl, hv]

theorem sourceFiltered_level_low (hl : (icOf s n).line = true) (hv : (icOf s n).level = true) :
    sourceFiltered s n false = setIc s n { icOf s n with line := false, pending := false, assigned := none } := by
  simp [sourceFiltered, hl, hv]

theorem sourceFiltered_edge_low (hl : (icOf s n).line = true) (hv : (icOf s n).level = false) :
    sourceFiltered s n false = setIc s n { icOf s n with line := false } := by
  simp [sourceFiltered, hl, hv]

/-- An edge while one is pending or waits is merged into it. -/
theorem sourceFiltered_edge_merged (hl : (icOf s n).line = false) (hv : (icOf s n).level = false)
    (hw : (icOf s n).pending = true ∨ (icOf s n).edgeWaits = true) : sourceFiltered s n true =
      setIc s n { icOf s n with line := true, merged := if (icOf s n).merged = 255 then 255 else (icOf s n).merged + 1 } := by
  simp [sourceFiltered, hl, hv, hw]

/-- An edge while the source is ACTIVE is latched and waits (log entry 96). -/
theorem sourceFiltered_edge_active (hl : (icOf s n).line = false) (hv : (icOf s n).level = false) (hp : (icOf s n).pending = false)
    (he : (icOf s n).edgeWaits = false) (ha : (icOf s n).active = true) :
    sourceFiltered s n true = setLatch (setIc s n { icOf s n with line := true, edgeWaits := true }) n true := by
  simp [sourceFiltered, hl, hv, hp, he, ha]

theorem sourceFiltered_edge_idle (hl : (icOf s n).line = false) (hv : (icOf s n).level = false) (hp : (icOf s n).pending = false)
    (he : (icOf s n).edgeWaits = false) (ha : (icOf s n).active = false) :
    sourceFiltered s n true = setLatch (setIc s n (IcSource.assign { icOf s n with line := true, pending := true })) n true := by
  simp [sourceFiltered, hl, hv, hp, he, ha]

/-- A new level is written to the source alone, and an edge to its latch as well. -/
theorem sourceFiltered_cases (level : Bool) :
    ((icOf s n).line = level ∧ sourceFiltered s n level = s) ∨ ∃ x : IcSource, x.line = level ∧
      (sourceFiltered s n level = setIc s n x ∨ sourceFiltered s n level = setLatch (setIc s n x) n true) := by
  by_cases hl : (icOf s n).line = level
  · exact .inl ⟨hl, sourceFiltered_of_same hl⟩
  right
  cases level with
  | false =>
    rw [Bool.not_eq_false] at hl
    cases hv : (icOf s n).level with
    | true => exact ⟨_, rfl, .inl (sourceFiltered_level_low hl hv)⟩
    | false => exact ⟨_, rfl, .inl (sourceFiltered_edge_low hl hv)⟩
  | true =>
    rw [Bool.not_eq_true] at hl
    cases hv : (icOf s n).level with
    | true => exact ⟨_, by simp, .inl (sourceFiltered_level_high hl hv)⟩
    | false =>
      by_cases hw : (icOf s n).pending = true ∨ (icOf s n).edgeWaits = true
      · exact ⟨_, rfl, .inl (sourceFiltered_edge_merged hl hv hw)⟩
      obtain ⟨hp, he⟩ := not_or.1 hw
      rw [Bool.not_eq_true] at hp he
      cases ha : (icOf s n).active with
      | true => exact ⟨_, rfl, .inr (sourceFiltered_edge_active hl hv hp he ha)⟩
      | false => exact ⟨_, by simp, .inr (sourceFiltered_edge_idle hl hv hp he ha)⟩

theorem icOf_sourceFiltered_other {level : Bool} {m : Nat} (hm : m ≠ n) : icOf (sourceFiltered s n level) m = icOf s m := by
  rcases sourceFiltered_cases (s := s) (n := n) level with ⟨-, h⟩ | ⟨x, -, h | h⟩ <;> simp [h, hm]

theorem icOf_sourceFiltered_line (level : Bool) : (icOf (sourceFiltered s n level) n).line = level := by
  rcases sourceFiltered_cases (s := s) (n := n) level with ⟨hl, h⟩ | ⟨x, hl, h | h⟩ <;> simp [h, hl]

end

/-! ## Claims and completions (R413, R414) -/

/-- A source is outranked by another, or is that one: by its priority, and at an equal priority by the higher number. -/
abbrev Outranked (x b : Nat × IcSource) : Prop :=
  x.2.priority < b.2.priority ∨ (x.2.priority = b.2.priority ∧ x.1 ≤ b.1)

theorem Outranked.trans {x y z : Nat × IcSource} (h : Outranked x y) (h' : Outranked y z) : Outranked x z := by
  rcases h with h | ⟨h, hn⟩ <;> rcases h' with h' | ⟨h', hn'⟩
  · exact .inl (BitVec.lt_trans h h')
  · exact .inl (h' ▸ h)
  · exact .inl (h ▸ h')
  · exact .inr ⟨h.trans h', hn.trans hn'⟩

/-- The fold of a claim over sources in rising order of number keeps one that outranks all it has seen. -/
theorem foldl_best {f : Option (Nat × IcSource) → Nat × IcSource → Option (Nat × IcSource)}
    (hf : ∀ b x, f (some b) x = if b.2.priority ≤ x.2.priority then some x else some b) {l : List (Nat × IcSource)} {a b : Nat × IcSource}
    (hl : (a :: l).Pairwise (·.1 < ·.1)) (h : l.foldl f (some a) = some b) : b ∈ a :: l ∧ ∀ x ∈ a :: l, Outranked x b := by
  induction l generalizing a with
  | nil => cases h; exact ⟨List.mem_cons_self, fun x hx => List.mem_singleton.1 hx ▸ .inr ⟨rfl, le_rfl⟩⟩
  | cons y l ih =>
    obtain ⟨ha, hy⟩ := List.pairwise_cons.1 hl
    rw [List.foldl_cons, hf] at h
    split at h
    case isTrue hle =>
      obtain ⟨hb, hall⟩ := ih hy h
      have hay : Outranked a y := by
        rcases Nat.lt_or_eq_of_le (BitVec.le_def.1 hle) with hlt | heq
        · exact .inl (BitVec.lt_def.2 hlt)
        · exact .inr ⟨BitVec.eq_of_toNat_eq heq, (ha y List.mem_cons_self).le⟩
      refine ⟨List.mem_cons_of_mem _ hb, fun x hx => ?_⟩
      rcases List.mem_cons.1 hx with rfl | hx
      · exact hay.trans (hall y List.mem_cons_self)
      · exact hall x hx
    case isFalse hle =>
      have hsub : (a :: l).Sublist (a :: y :: l) := (List.sublist_cons_self y l).cons_cons a
      obtain ⟨hb, hall⟩ := ih (hl.sublist hsub) h
      have hya : Outranked y a := .inl (BitVec.not_le.1 hle)
      have hab := hall a List.mem_cons_self
      refine ⟨hsub.subset hb, fun x hx => ?_⟩
      rcases List.mem_cons.1 hx with rfl | hx
      · exact hab
      rcases List.mem_cons.1 hx with rfl | hx
      · exact hya.trans hab
      · exact hall x (List.mem_cons_of_mem _ hx)

theorem mem_of_mfind {β : Type} {m : Map β} {k : Nat} {v : β} (h : mfind m k = some v) : (k, v) ∈ m := by
  induction m with
  | nil => simp at h
  | cons e m ih =>
    obtain ⟨j, w⟩ := e
    unfold mfind at h
    split at h
    case isTrue hj => subst hj; cases h; exact List.mem_cons_self
    case isFalse => exact List.mem_cons_of_mem _ (ih h)

section
variable {β : Type} [DecidableEq β] {d : β} {m : Map β}

theorem pairwise_of_canonical (h : canonical d m = true) : m.Pairwise (·.1 < ·.1) := by
  induction m with
  | nil => exact List.Pairwise.nil
  | cons e m ih =>
    obtain ⟨-, hm, hlt⟩ := (canonical_cons d e.1 e.2 m).1 h
    exact List.pairwise_cons.2 ⟨hlt, ih hm⟩

theorem mfind_of_mem_canonical (h : canonical d m = true) {k : Nat} {v : β} (hk : (k, v) ∈ m) : mfind m k = some v := by
  induction m with
  | nil => simp at hk
  | cons e m ih =>
    obtain ⟨j, w⟩ := e
    obtain ⟨-, hm, hlt⟩ := (canonical_cons d j w m).1 h
    rcases List.mem_cons.1 hk with hk | hk
    · cases hk; simp [mfind]
    · have : j ≠ k := (hlt _ hk).ne
      simp [mfind, this, ih hm hk]

end

/-- A source that is assigned is listed. -/
theorem mem_sources_of_assigned {s : State} {m : Nat} {t : BitVec 2} (h : (icOf s m).assigned = some t) : (m, icOf s m) ∈ s.bureau.sources := by
  unfold icOf mget at h ⊢
  cases hm : mfind s.bureau.sources m with
  | none => simp [hm] at h
  | some x => exact mem_of_mfind hm

/-- What a claim returns: a source assigned to the target above its THRESHOLD, which outranks the others that are (R413). -/
theorem claimable_spec {s : State} {k : BitVec 2} {n : Nat} (hcan : canonical {} s.bureau.sources = true) (h : claimable s k = some n) :
    (icOf s n).assigned = some k ∧ mget 0 s.bureau.threshold k.toNat < (icOf s n).priority ∧ ∀ m, (icOf s m).assigned = some k →
      mget 0 s.bureau.threshold k.toNat < (icOf s m).priority → Outranked (m, icOf s m) (n, icOf s n) := by
  unfold claimable at h
  simp only [Option.map_eq_some_iff] at h
  obtain ⟨⟨n', x⟩, h, rfl⟩ := h
  generalize hl : s.bureau.sources.filter _ = l at h
  cases l with
  | nil => cases h
  | cons a l =>
    have hsorted : (a :: l).Pairwise (·.1 < ·.1) := hl ▸ (pairwise_of_canonical hcan).filter _
    obtain ⟨hb, hall⟩ := foldl_best (fun _ _ => rfl) hsorted h
    rw [← hl] at hb hall
    obtain ⟨hmem, hcond⟩ := List.mem_filter.1 hb
    have hx : icOf s n' = x := mget_of_mfind (mfind_of_mem_canonical hcan hmem)
    simp only [Bool.and_eq_true, decide_eq_true_eq] at hcond
    rw [hx]
    refine ⟨hcond.1, hcond.2, fun m hm hp => hall _ (List.mem_filter.2 ⟨mem_sources_of_assigned hm, ?_⟩)⟩
    simpa [hm] using hp

section
variable {s : State} {k : BitVec 2}

theorem claimRead_of_none (h : claimable s k = none) :
    claimRead s k = { s with bureau := { s.bureau with claim := mins s.bureau.claim k.toNat (false, 0) } } := by
  simp only [claimRead, h]

variable {n : Nat} (h : claimable s k = some n)
include h

theorem icOf_claimRead_same : icOf (claimRead s k) n =
    { icOf s n with active := true, activeOn := some k, assigned := none, pending := (icOf s n).level && (icOf s n).pending } := by
  simp only [claimRead, h]
  cases hv : (icOf s n).level <;> simp [icOf, setIc, setLatch]

theorem icOf_claimRead_other {m : Nat} (hm : m ≠ n) : icOf (claimRead s k) m = icOf s m := by
  simp only [claimRead, h]
  cases hv : (icOf s n).level <;> simp [icOf, setIc, setLatch, hm]

theorem claimRead_claim : mfind (claimRead s k).bureau.claim k.toNat = some (true, BitVec.ofNat 8 n) := by
  simp only [claimRead, h]
  simp

theorem claimRead_latch (hv : (icOf s n).level = false) : (mget 0 (claimRead s k).bureau.edge (n / 32)).getLsbD (n % 32) = false := by
  simp only [claimRead, h, hv]
  exact setLatch_bit _ n false

end

section
variable {s : State} {k : BitVec 2} {n : Nat}

theorem icComplete_of_active (ha : (icOf s n).active = true) (hk : (icOf s n).activeOn = some k) : icComplete s k n =
    setIc s n (IcSource.assign { icOf s n with
      active := false, activeOn := none, pending := if (icOf s n).level then (icOf s n).line else (icOf s n).edgeWaits
      edgeWaits := (icOf s n).level && (icOf s n).edgeWaits }) := by
  simp only [icComplete, ha, hk]
  cases (icOf s n).level <;> simp

/-- A completion of a source that is not ACTIVE on the target is counted in BADCOMP, and changes nothing else. -/
theorem icComplete_of_not_active (h : (icOf s n).active = false ∨ (icOf s n).activeOn ≠ some k) : icComplete s k n =
    let c := mget 0 s.bureau.badComp k.toNat
    { s with bureau := { s.bureau with badComp := mput 0 s.bureau.badComp k.toNat (if c = 255 then 255 else c + 1) } } := by
  simp only [icComplete]
  rw [if_neg]
  rcases h with h | h <;> simp [h]

end

/-! ## The event recorder (R421 to R424) -/

/-- The Bureau's state apart from the event recorder's. -/
def BureauState.outsideRecorder (b : BureauState) : BureauState := { b with buckets := [], evSeq := 0, staged := [], fatalSeen := false }

theorem storeRecord_bureau (s : State) (e : Ev) (summary : Bool) : (storeRecord s e summary).bureau =
    { s.bureau with
      evSeq := s.bureau.evSeq + 1
      staged := { code := e.code, source := e.src, world := e.world, severity := e.sev, summary := summary, time := s.bureau.recTime
                  seq := s.bureau.evSeq, params := e.p } :: s.bureau.staged
      fatalSeen := s.bureau.fatalSeen || decide (e.sev = 3) } := by
  simp [storeRecord]

/-- An event reaches no part of the Bureau but its recorder. -/
theorem logEvent_outsideRecorder (s : State) (e : Ev) : (logEvent s e).bureau.outsideRecorder = s.bureau.outsideRecorder := by
  unfold logEvent
  split
  · rw [storeRecord_bureau]; rfl
  · dsimp only
    split
    · rw [storeRecord_bureau]; rfl
    · rfl

@[simp] theorem logEvent_stoppedCores (s : State) (e : Ev) : (logEvent s e).bureau.stoppedCores = s.bureau.stoppedCores :=
  (congrArg BureauState.stoppedCores (logEvent_outsideRecorder s e) :)

@[simp] theorem logEvent_stage1At (s : State) (e : Ev) : (logEvent s e).bureau.stage1At = s.bureau.stage1At :=
  (congrArg BureauState.stage1At (logEvent_outsideRecorder s e) :)

@[simp] theorem logEvent_boardTemp (s : State) (e : Ev) : (logEvent s e).bureau.boardTemp = s.bureau.boardTemp :=
  (congrArg BureauState.boardTemp (logEvent_outsideRecorder s e) :)

@[simp] theorem logEvent_coolantIn (s : State) (e : Ev) : (logEvent s e).bureau.coolantIn = s.bureau.coolantIn :=
  (congrArg BureauState.coolantIn (logEvent_outsideRecorder s e) :)

@[simp] theorem logEvent_coolantOut (s : State) (e : Ev) : (logEvent s e).bureau.coolantOut = s.bureau.coolantOut :=
  (congrArg BureauState.coolantOut (logEvent_outsideRecorder s e) :)

section
variable {s : State} {code : BitVec 16}

theorem tokenRefill_of_none_suppressed (h : (mget {} s.bureau.buckets code.toNat).suppressed = 0) : tokenRefill s code =
    let b := mget {} s.bureau.buckets code.toNat
    { s with bureau := { s.bureau with buckets := mput {} s.bureau.buckets code.toNat { b with tokens := min 8 (b.tokens + 1) } } } := by
  simp only [tokenRefill, h, if_true]

/-- The token that comes after suppression pays for the summary record. -/
theorem tokenRefill_bureau_of_suppressed (h : (mget {} s.bureau.buckets code.toNat).suppressed ≠ 0) :
    let b := mget {} s.bureau.buckets code.toNat
    (tokenRefill s code).bureau = { s.bureau with
      buckets := mput {} s.bureau.buckets code.toNat { tokens := min 8 (b.tokens + 1) - 1 }
      evSeq := s.bureau.evSeq + 1
      staged := { code := code, source := b.source, severity := b.severity, summary := true, time := s.bureau.recTime, seq := s.bureau.evSeq
                  params := [w32 b.suppressed, w32 b.first.toNat, w32 b.last.toNat] } :: s.bureau.staged
      fatalSeen := s.bureau.fatalSeen || decide (b.severity = 3) } := by
  simp only [tokenRefill, h, if_false, storeRecord_bureau]

end

/-- The last area keeps the newest 16,384 records. -/
theorem lastArea_foldr_keepRecord (l : List EventRec) {b : BureauState} (hb : b.lastArea.length ≤ 16384) :
    (l.foldr (fun r b => keepRecord b r) b).lastArea = (l ++ b.lastArea).take 16384 := by
  induction l with
  | nil => exact (List.take_of_length_le hb).symm
  | cons r l ih =>
    have hstep : ∀ b : BureauState, (keepRecord b r).lastArea = (r :: b.lastArea).take 16384 := fun _ => rfl
    rw [List.foldr_cons, hstep, ih, List.cons_append, List.take_succ_cons, List.take_succ_cons, List.take_take]
    rfl

/-! ## Watchdogs (R410) -/

/-- The state in which the core has last kicked 1 s ago (log entry 97). -/
def watchdogKicked (s : State) (k : BitVec 2) : State :=
  { s with bureau := { s.bureau with kickAt := mput 0 s.bureau.kickAt k.toNat (recNow s - 1000000) } }

/-- The first stage stops the core. -/
def coreStopped (s : State) (k : BitVec 2) : State :=
  { watchdogKicked s k with bureau := { (watchdogKicked s k).bureau with
      stage1At := mins s.bureau.stage1At k.toNat (recNow s), stoppedCores := withLast k s.bureau.stoppedCores } }

theorem watchdogKicked_kick (s : State) (k : BitVec 2) :
    mget 0 (watchdogKicked s k).bureau.kickAt k.toNat = recNow s - 1000000 := by simp [watchdogKicked]

theorem watchdogOne_eq (s : State) (k : BitVec 2) : watchdogOne s k =
    if (mfind s.bureau.stage1At k.toNat).any (fun t => decide (since t (recNow s) ≤ 60000000)) then watchdogTwo (watchdogKicked s k) k
    else logEvent (coreStopped s k) (.watchdog k.toNat 1 (mget 0 (watchdogKicked s k).bureau.kickAt k.toNat).toNat) := rfl

section
variable {s : State} {k : BitVec 2}

theorem watchdogOne_first (h : ∀ t, mfind s.bureau.stage1At k.toNat = some t → 60000000 < since t (recNow s)) :
    watchdogOne s k = logEvent (coreStopped s k) (.watchdog k.toNat 1 (recNow s - 1000000).toNat) := by
  rw [watchdogOne_eq, watchdogKicked_kick, if_neg]
  simpa [Option.any_eq_true] using h

theorem watchdogOne_again {t : BitVec 48} (h : mfind s.bureau.stage1At k.toNat = some t) (ht : since t (recNow s) ≤ 60000000) :
    watchdogOne s k = warmReset (logEvent (watchdogKicked s k) (.watchdog k.toNat 2 (recNow s - 1000000).toNat)) 3 := by
  rw [watchdogOne_eq, if_pos (by simpa [h] using ht), watchdogTwo, watchdogKicked_kick]

theorem watchdogLate_of_stopped {t : BitVec 48} (h : mfind s.bureau.stage1At k.toNat = some t) (hk : k ∈ s.bureau.stoppedCores)
    (ht : 1000000 ≤ since t (recNow s)) : watchdogLate s k = watchdogTwo s k := by
  simp [watchdogLate, h, hk, ht]

theorem watchdogLate_of_running (hk : k ∉ s.bureau.stoppedCores) : watchdogLate s k = s := by
  unfold watchdogLate
  split
  · exact if_neg fun h => hk h.1
  · rfl

end

/-! ## The control loop (R417 to R419) -/

/-- The Bureau's state apart from what the passes of the loop write: set points, conditions and the hot memory dies. -/
def BureauState.outsidePasses (b : BureauState) : BureauState := { b with since := [], memHot := [], volt := [] }

/-- Memory-channel die i has a package above its limit (R419). -/
def memDieHot (s : State) (i : Nat) : Bool := s.tier.pkgHot.any fun p => decide (p / 2 = i)

/-- A memory-channel die joins the hot ones, or leaves them once it has been cool for 1 s. -/
def setMemHot (s : State) (i : Nat) (hot : Bool) : State :=
  if hot then { s with bureau := { s.bureau with memHot := withLast (BitVec.ofNat 6 (0x20 + i)) s.bureau.memHot } }
  else if condHeld s (condKey 3 i) 1000000 then
    noteCond (condKey 3 i) false { s with bureau := { s.bureau with memHot := without (BitVec.ofNat 6 (0x20 + i)) s.bureau.memHot } }
  else s

/-- The thermal response for one memory-channel die. -/
def memHotStep (s : State) (i : Nat) : State :=
  setMemHot (noteCond (condKey 3 i) (!memDieHot s i && decide (BitVec.ofNat 6 (0x20 + i) ∈ s.bureau.memHot)) s) i (memDieHot s i)

theorem stepMemHot_eq (s : State) : stepMemHot s = (List.range 16).foldl memHotStep s := rfl

theorem setMemHot_outsidePasses (s : State) (i : Nat) (hot : Bool) : (setMemHot s i hot).bureau.outsidePasses = s.bureau.outsidePasses := by
  unfold setMemHot
  split
  · rfl
  · split <;> rfl

theorem setMemHot_volt (s : State) (i : Nat) (hot : Bool) : (setMemHot s i hot).bureau.volt = s.bureau.volt := by
  unfold setMemHot
  split
  · rfl
  · split <;> rfl

theorem memHotStep_outsidePasses (s : State) (i : Nat) : (memHotStep s i).bureau.outsidePasses = s.bureau.outsidePasses :=
  setMemHot_outsidePasses _ i _

theorem memHotStep_volt (s : State) (i : Nat) : (memHotStep s i).bureau.volt = s.bureau.volt := setMemHot_volt _ i _

theorem foldl_memHotStep_outsidePasses (ds : List Nat) (s : State) : (ds.foldl memHotStep s).bureau.outsidePasses = s.bureau.outsidePasses :=
  foldl_keeps (fun s : State => s.bureau.outsidePasses) memHotStep_outsidePasses ds s

theorem foldl_memHotStep_volt (ds : List Nat) (s : State) : (ds.foldl memHotStep s).bureau.volt = s.bureau.volt :=
  foldl_keeps (fun s : State => s.bureau.volt) memHotStep_volt ds s

theorem stepMemHot_outsidePasses (s : State) : (stepMemHot s).bureau.outsidePasses = s.bureau.outsidePasses := by
  rw [stepMemHot_eq, foldl_memHotStep_outsidePasses]

theorem stepMemHot_volt (s : State) : (stepMemHot s).bureau.volt = s.bureau.volt := by
  rw [stepMemHot_eq, foldl_memHotStep_volt]

/-- With no package above its limit and no die hot, the step leaves them so. -/
theorem memHotStep_of_cool {s : State} (hp : s.tier.pkgHot = []) (hm : s.bureau.memHot = []) (i : Nat) :
    (memHotStep s i).tier.pkgHot = [] ∧ (memHotStep s i).bureau.memHot = [] := by
  simp [memHotStep, memDieHot, setMemHot, noteCond, condHeld, hp, hm]

theorem stepMemHot_of_cool {s : State} (hp : s.tier.pkgHot = []) (hm : s.bureau.memHot = []) : (stepMemHot s).bureau.memHot = [] := by
  have hinv : (stepMemHot s).tier.pkgHot = [] ∧ (stepMemHot s).bureau.memHot = [] := by
    rw [stepMemHot_eq]
    exact List.foldlRecOn (motive := fun s : State => s.tier.pkgHot = [] ∧ s.bureau.memHot = []) _ memHotStep ⟨hp, hm⟩
      fun _ h i _ => memHotStep_of_cool h.1 h.2 i
  exact hinv.2

theorem loopDomain_outsidePasses (s : State) (d : Nat) : (loopDomain s d).bureau.outsidePasses = s.bureau.outsidePasses := by
  unfold loopDomain
  split <;> rfl

theorem loopDomain_memHot (s : State) (d : Nat) : (loopDomain s d).bureau.memHot = s.bureau.memHot := by
  unfold loopDomain
  split <;> rfl

theorem voltOf_loopDomain (s : State) (e d : Nat) : voltOf (loopDomain s e) d =
    if d = e ∧ regulated e = true ∧ e ∈ s.power.domains then loopVolt s e else voltOf s d := by
  by_cases he : regulated e = true ∧ e ∈ s.power.domains
  · simp [loopDomain, he, voltOf, noteCond]
  · have : (regulated e && decide (e ∈ s.power.domains)) = false := by simpa using he
    simp [loopDomain, this, he]

/-- What a pass reads: rates, limits, temperatures, the cut, the hot dies, and the domain's own set point. -/
theorem loopVolt_congr {s t : State} {d : Nat} (hf : t.fabric = s.fabric) (hl : t.limits = s.limits)
    (hb : t.bureau.outsidePasses = s.bureau.outsidePasses) (hm : t.bureau.memHot = s.bureau.memHot) (hv : voltOf t d = voltOf s d) :
    loopVolt t d = loopVolt s d := by
  have hj : t.bureau.junction = s.bureau.junction := (congrArg BureauState.junction hb :)
  have hc : t.bureau.capCut = s.bureau.capCut := (congrArg BureauState.capCut hb :)
  have hr : rateOf t d = rateOf s d := by simp only [rateOf, hf]
  have hdt : domainTemp t d = domainTemp s d := by simp only [domainTemp, hj]
  have hrt : rateTargetOf t d = rateTargetOf s d := by simp only [rateTargetOf, hl]
  have ht : loopTarget t d = loopTarget s d := by simp only [loopTarget, hdt, hrt, hl, hc, hm]
  simp only [loopVolt, hr, ht, hv]

/-- The passes of the domains do not meet: each sets its own domain's voltage, from the state before them all. -/
theorem voltOf_foldl_loopDomain {ds : List Nat} (hds : ds.Nodup) (s : State) (d : Nat) : voltOf (ds.foldl loopDomain s) d =
    if d ∈ ds ∧ regulated d = true ∧ d ∈ s.power.domains then loopVolt s d else voltOf s d := by
  induction ds generalizing s with
  | nil => simp
  | cons e ds ih =>
    obtain ⟨hne, hds⟩ := List.nodup_cons.1 hds
    rw [List.foldl_cons, ih hds, voltOf_loopDomain]
    by_cases hd : d = e
    · subst hd; simp [hne]
    · have hv : voltOf (loopDomain s e) d = voltOf s d := by simp [voltOf_loopDomain, hd]
      have hkeep : loopVolt (loopDomain s e) d = loopVolt s d :=
        loopVolt_congr (by simp) (by simp) (loopDomain_outsidePasses s e) (loopDomain_memHot s e) hv
      simp [hd, hkeep]

/-- The state from which the passes of the domains start. -/
def loopStart (s : State) (l : LoopSample) : State := stepMemHot (stepCapCut (takeReadings s l) l.power)

theorem loopStart_outsidePasses (s : State) (l : LoopSample) :
    (loopStart s l).bureau.outsidePasses = (stepCapCut (takeReadings s l) l.power).bureau.outsidePasses := by
  rw [loopStart, stepMemHot_outsidePasses]

theorem voltOf_loopStart (s : State) (l : LoopSample) (d : Nat) : voltOf (loopStart s l) d = voltOf s d := by
  rw [voltOf, loopStart, stepMemHot_volt]
  rfl

/-- The end of the loop: conditions that count, and the cores that have returned. -/
def loopEnd (s : State) (l : LoopSample) : State :=
  let s := noteCond (condKey 2 0) (decide (s.limits.powerCap < l.power) && atFloor s) s
  { s with bureau := { s.bureau with
      stoppedCores := s.bureau.stoppedCores.filter fun c => (mfind s.bureau.stage1At c.toNat).any fun t => decide (since t (recNow s) ≤ 1000000) } }

/-- The condition of a hot junction. -/
def noteJunction (s : State) (d : DieId) : State := noteCond (condKey 1 d.toNat) (decide (1050 ≤ mget 0 s.bureau.junction d.toNat)) s

theorem controlLoop_eq (s : State) (l : LoopSample) :
    controlLoop s l = loopEnd (allDies.foldl noteJunction ((List.range 30).foldl loopDomain (loopStart s l))) l := by
  delta controlLoop loopEnd loopStart noteJunction
  dsimp only

/-- A view that no pass and no condition is part of stands after the loop as before its passes. -/
theorem controlLoop_keeps {β : Type} (p : State → β) (hd : ∀ s d, p (loopDomain s d) = p s) (hj : ∀ s d, p (noteJunction s d) = p s)
    (he : ∀ s l, p (loopEnd s l) = p s) (s : State) (l : LoopSample) : p (controlLoop s l) = p (loopStart s l) := by
  rw [controlLoop_eq, he, foldl_keeps p hj, foldl_keeps p hd]

theorem controlLoop_outsidePasses (s : State) (l : LoopSample) :
    { (controlLoop s l).bureau.outsidePasses with stoppedCores := [] } =
      { (stepCapCut (takeReadings s l) l.power).bureau.outsidePasses with stoppedCores := [] } := by
  rw [← loopStart_outsidePasses]
  exact controlLoop_keeps (fun s => { s.bureau.outsidePasses with stoppedCores := [] })
    (fun s d => congrArg (fun b => { b with stoppedCores := [] }) (loopDomain_outsidePasses s d)) (fun _ _ => rfl) (fun _ _ => rfl) s l

theorem controlLoop_j1Current (s : State) (l : LoopSample) : (controlLoop s l).bureau.j1Current = l.j1Ma := by
  have h := congrArg BureauState.j1Current (controlLoop_outsidePasses s l)
  dsimp only [BureauState.outsidePasses] at h
  rw [h]
  rfl

theorem controlLoop_capCut (s : State) (l : LoopSample) : (controlLoop s l).bureau.capCut =
    if s.limits.powerCap < l.power then s.bureau.capCut + 10 else if l.power + 50 < s.limits.powerCap then s.bureau.capCut - 5
    else s.bureau.capCut := by
  have h := congrArg BureauState.capCut (controlLoop_outsidePasses s l)
  dsimp only [BureauState.outsidePasses] at h
  rw [h]
  rfl

theorem controlLoop_j1 (s : State) (l : LoopSample) : (controlLoop s l).power.j1 = l.j1Mv := by
  rw [controlLoop_keeps (fun s => s.power.j1) (by simp) (fun _ _ => rfl) (fun _ _ => rfl)]
  simp [loopStart, takeReadings]

theorem foldl_noteJunction_volt (ds : List DieId) (s : State) : (ds.foldl noteJunction s).bureau.volt = s.bureau.volt :=
  foldl_keeps (f := noteJunction) (fun s : State => s.bureau.volt) (fun _ _ => rfl) ds s

theorem loopEnd_volt (s : State) (l : LoopSample) : (loopEnd s l).bureau.volt = s.bureau.volt := rfl

/-- After the passes no voltage changes. -/
theorem controlLoop_volt (s : State) (l : LoopSample) :
    (controlLoop s l).bureau.volt = ((List.range 30).foldl loopDomain (loopStart s l)).bureau.volt := by
  rw [controlLoop_eq, loopEnd_volt, foldl_noteJunction_volt]

/-- Each regulated domain with power takes the voltage of its pass; every other keeps its own. -/
theorem voltOf_controlLoop (s : State) (l : LoopSample) (d : Nat) : voltOf (controlLoop s l) d =
    if d < 30 ∧ regulated d = true ∧ d ∈ s.power.domains then loopVolt (loopStart s l) d else voltOf s d := by
  have hdom : (loopStart s l).power.domains = s.power.domains := by simp [loopStart, takeReadings]
  rw [voltOf, controlLoop_volt, ← voltOf, voltOf_foldl_loopDomain List.nodup_range, voltOf_loopStart, hdom]
  simp only [List.mem_range]

/-! ### A domain out of every thermal response -/

theorem loopTarget_of_cool {s : State} {d : Nat} (hc : computeDomain d = false) (hm : s.bureau.memHot = [])
    (ht : domainTemp s d ≤ 10 * s.limits.tThrottle) : loopTarget s d = max 1110 (rateTargetOf s d) := by
  have hlim : ¬ (10 * (s.limits.tThrottle : Int) < domainTemp s d) := Int.not_lt.2 ht
  simp only [loopTarget, hc, hm, hlim, List.any_nil, Bool.false_eq_true, if_false]
  omega

theorem domainTemp_loopStart {s : State} {l : LoopSample} (hl : l.junction = []) (d : Nat) :
    domainTemp (loopStart s l) d = domainTemp s d := by
  have h := congrArg BureauState.junction (loopStart_outsidePasses s l)
  simp only [BureauState.outsidePasses, stepCapCut, takeReadings, hl, List.foldl_nil] at h
  simp only [domainTemp, h]

theorem loopVolt_loopStart_of_cool {s : State} {l : LoopSample} {d : Nat} (hc : computeDomain d = false) (hl : l.junction = [])
    (hp : s.tier.pkgHot = []) (hm : s.bureau.memHot = []) (ht : domainTemp s d ≤ 10 * s.limits.tThrottle) :
    let r := rateOf s d
    let tgt := max 1110 (rateTargetOf s d)
    loopVolt (loopStart s l) d = max 600 (min 850 (if r ≤ 1100 then voltOf s d + 10 else if r < tgt - 15 then voltOf s d + 5
      else if tgt + 15 < r then voltOf s d - 5 else voltOf s d)) := by
  have hfabric : (loopStart s l).fabric = s.fabric := by simp [loopStart]
  have hlimits : (loopStart s l).limits = s.limits := by simp [loopStart]
  have hread : (stepCapCut (takeReadings s l) l.power).bureau.memHot = [] := hm
  have hcool : (loopStart s l).bureau.memHot = [] := by rw [loopStart, stepMemHot_of_cool (by simpa using hp) hread]
  have htgt : loopTarget (loopStart s l) d = max 1110 (rateTargetOf s d) := by
    rw [loopTarget_of_cool hc hcool (by rwa [domainTemp_loopStart hl, hlimits]), rateTargetOf, hlimits, ← rateTargetOf]
  have hrate : rateOf (loopStart s l) d = rateOf s d := by simp only [rateOf, hfabric]
  simp only [loopVolt, htgt, hrate, voltOf_loopStart]

/-! ### The limits that the loop reports (R417 to R419) -/

section
variable {s : State}

theorem rateFloorUnheld_of_held {d : Nat} (hc : condHeld s (condKey 0 d) 10000 = true) (hv : voltOf s d = 850) (hr : rateOf s d ≤ 1100) :
    rateFloorUnheld s d =
      let u := logEvent s (.rateFloorUnheld d (rateOf s d) 850 (domainTemp s d).toNat)
      firmwareTrip (drawFree u).2 (.rateFloor (domainTemp s d).toNat) true (drawFree u).1.toNat := by
  simp only [rateFloorUnheld, hc, hv, hr, decide_true, Bool.and_true, if_true]

theorem rateFloorUnheld_of_not_held {d : Nat} (hc : condHeld s (condKey 0 d) 10000 = false) : rateFloorUnheld s d = s := by
  simp [rateFloorUnheld, hc]

theorem powerCapUnmet_of_held {power : Nat} (hc : condHeld s (condKey 2 0) 1000000 = true) (hp : s.limits.powerCap < power) :
    powerCapUnmet s power = logEvent (condAgain s (condKey 2 0)) (.powerCapUnmet power s.limits.powerCap s.bureau.capCut) := by
  simp [powerCapUnmet, hc, hp]

theorem powerCapUnmet_of_met {power : Nat} (hp : power ≤ s.limits.powerCap) : powerCapUnmet s power = s := by
  simp [powerCapUnmet, Nat.not_lt.2 hp]

theorem thermalLimit_of_held {die : DieId} {temp : Nat} (hc : condHeld s (condKey 1 die.toNat) 100000 = true) (ht : 1050 ≤ temp) :
    thermalLimit s die temp = logEvent (condAgain s (condKey 1 die.toNat))
      (.thermalLimit die temp ((dieDomain die).getD 0) (rateOf s ((dieDomain die).getD 0))) := by
  simp [thermalLimit, hc, ht]

theorem thermalLimit_of_below {die : DieId} {temp : Nat} (ht : temp < 1050) : thermalLimit s die temp = s := by
  simp [thermalLimit, Nat.not_le.2 ht]

end

/-! ## Board sensors (Table 18.4) -/

/-- Readings numbered from k leave the places below k as they are. -/
theorem mget_foldl_readings_below (l : List Nat) (k : Nat) (m : Map Int) {i : Nat} (hi : i < k) :
    mget 0 ((l.zipIdx k).foldl (fun m y => mput 0 m y.2 (y.1 : Int)) m) i = mget 0 m i := by
  induction l generalizing k m with
  | nil => rfl
  | cons a l ih => rw [List.zipIdx_cons, List.foldl_cons, ih (k + 1) _ (by omega), mget_mput, if_neg (by omega)]

/-- The reading in place i is number k + i's. -/
theorem mget_foldl_readings {l : List Nat} {i v : Nat} (h : l[i]? = some v) (k : Nat) (m : Map Int) :
    mget 0 ((l.zipIdx k).foldl (fun m y => mput 0 m y.2 (y.1 : Int)) m) (k + i) = v := by
  induction l generalizing i k m with
  | nil => simp at h
  | cons a l ih =>
    rw [List.zipIdx_cons, List.foldl_cons]
    cases i with
    | zero =>
      obtain rfl : a = v := by simpa using h
      simpa using mget_foldl_readings_below l (k + 1) (mput 0 m k (a : Int)) (Nat.lt_succ_self k)
    | succ i => rw [show k + (i + 1) = k + 1 + i by omega, ih (by simpa using h)]

/-- The readings of a sample are taken. -/
def boardTaken (s : State) (x : BoardSample) : State :=
  { s with bureau := { s.bureau with
    boardTemp := (x.board.zipIdx).foldl (fun m y => mput 0 m y.2 (y.1 : Int)) s.bureau.boardTemp
    coolantIn := x.coolantIn, coolantOut := x.coolantOut
    nandTemp := x.nand.foldl (fun m y => mput 0 m y.1 (y.2 : Int)) s.bureau.nandTemp } }

theorem boardSample_eq (s : State) (x : BoardSample) : boardSample s x =
    if 450 < x.coolantIn then logEvent (boardTaken s x) (.coolantHigh x.coolantIn x.coolantOut) else boardTaken s x := rfl

theorem boardSample_readings (s : State) (x : BoardSample) : (boardSample s x).bureau.boardTemp = (boardTaken s x).bureau.boardTemp
    ∧ (boardSample s x).bureau.coolantIn = x.coolantIn ∧ (boardSample s x).bureau.coolantOut = x.coolantOut := by
  rw [boardSample_eq]
  split <;> simp [boardTaken]

theorem boardSample_host_of_cool {s : State} {x : BoardSample} (h : x.coolantIn ≤ 450) : (boardSample s x).host = s.host := by
  rw [boardSample_eq, if_neg (by omega)]
  rfl

/-! ## The obligation -/

/-- Settles O47: clause by clause, from the law of the meaning that the clause is about. -/
theorem bureauLoopsAndInterrupts : Obligations.BureauLoopsAndInterrupts := by
  unfold Obligations.BureauLoopsAndInterrupts
  intro s n k d die temp power l x code B src rest
  have next {t u : State} (h : t = u) : (Host.Outcome.next t : Host.Outcome State Fault Refusal) = .next u := congrArg _ h
  refine ⟨fun level h => next (sourceFiltered_of_same h), fun hl hv => next (sourceFiltered_level_high hl hv),
    fun hl hv => next (sourceFiltered_level_low hl hv), fun hl hv => next (sourceFiltered_edge_low hl hv), ?edge,
    fun hp ha hn h0 t ht => IcSource.assign_of_free hp ha hn h0 ht, fun h => next (claimRead_of_none h), ?claim,
    fun ha hk => next (icComplete_of_active ha hk), ?badComp, ⟨?stage1, ?stage1Again, ?stage2, fun hk => next (watchdogLate_of_running hk)⟩,
    ?loop, fun hc hv hr => next (rateFloorUnheld_of_held hc hv hr), fun hc => next (rateFloorUnheld_of_not_held hc),
    fun hc hp => next (powerCapUnmet_of_held hc hp), fun hp => next (powerCapUnmet_of_met hp),
    fun hc ht => next (thermalLimit_of_held hc ht), fun ht => next (thermalLimit_of_below ht), ⟨?refill, ?summary⟩, ?flush, ?board⟩
  case edge =>
    intro hl hv
    refine ⟨sourceFiltered s n.toNat true, rfl, fun m hm => icOf_sourceFiltered_other hm, icOf_sourceFiltered_line true, ?merged, ?latched⟩
    case merged =>
      intro hw
      rw [sourceFiltered_edge_merged hl hv hw]
      exact ⟨by simpa using toNat_countTo255 src.merged, rfl⟩
    case latched =>
      intro hp he
      cases ha : src.active with
      | true =>
        rw [sourceFiltered_edge_active hl hv hp he ha]
        exact ⟨setLatch_bit _ _ true, by simp [src], by simpa [src] using hp, by simp⟩
      | false =>
        rw [sourceFiltered_edge_idle hl hv hp he ha]
        exact ⟨setLatch_bit _ _ true, by simp [src], by simp, by simp⟩
  case claim =>
    intro h
    refine ⟨claimRead s k, rfl, fun m hm => icOf_claimRead_other h hm, ?_, icOf_claimRead_same h, claimRead_latch h, fun hcan => ?_⟩
    · simpa using claimRead_claim h
    · obtain ⟨ha, hp, hbest⟩ := claimable_spec hcan h
      refine ⟨ha, hp, fun m hm => ?_⟩
      by_cases hm' : mget 0 B.threshold k.toNat < (icOf s m).priority
      · exact .inr (hbest m hm hm')
      · exact .inl (BitVec.not_lt.1 hm')
  case badComp =>
    intro h
    refine ⟨icComplete s k n.toNat, rfl, ?_⟩
    rw [icComplete_of_not_active h]
    exact ⟨rfl, by simpa using toNat_countTo255 (mget 0 B.badComp k.toNat), rfl⟩
  case stage1 =>
    intro h
    refine ⟨watchdogOne s k, rfl, ?_⟩
    rw [watchdogOne_first h]
    exact ⟨by simp [coreStopped, B], by simp [coreStopped], by simp [coreStopped, watchdogKicked], by simp [coreStopped, watchdogKicked], _, rfl⟩
  case stage1Again => exact fun t h ht => next (watchdogOne_again h ht)
  case stage2 => exact fun t h hk ht => next (watchdogLate_of_stopped h hk ht)
  case loop =>
    refine ⟨controlLoop s l, rfl, controlLoop_j1 s l, controlLoop_j1Current s l, controlLoop_capCut s l, fun d h => ?kept, ?passed,
      by simp, by simp, by simp, by simp⟩
    case kept =>
      rw [voltOf_controlLoop, if_neg]
      rintro ⟨-, hr, hd⟩
      rcases h with h | h
      · simp [h] at hr
      · exact h hd
    case passed =>
      intro d hr hd hc hl hp hm ht
      have hlt : d < 30 := by
        simp only [regulated, Bool.and_eq_true, decide_eq_true_eq] at hr
        exact hr.1.1
      dsimp only
      rw [voltOf_controlLoop, if_pos ⟨hlt, hr, hd⟩]
      exact loopVolt_loopStart_of_cool hc hl hp hm ht
  case refill =>
    intro h
    refine ⟨tokenRefill s code, rfl, ?_⟩
    rw [tokenRefill_of_none_suppressed h]
    exact ⟨rfl, by simp [B]⟩
  case summary =>
    intro h
    refine ⟨tokenRefill s code, rfl, ?_⟩
    rw [tokenRefill_bureau_of_suppressed h]
    exact ⟨rfl, by simp [B], rfl⟩
  case flush => exact ⟨flushEvents s, rfl, rfl, rfl, rfl, fun h => lastArea_foldr_keepRecord B.staged h⟩
  case board =>
    obtain ⟨hboard, hin, hout⟩ := boardSample_readings s x
    refine ⟨boardSample s x, rfl, fun i v h => ?_, hin, hout, by simp, by simp, boardSample_host_of_cool, fun h => ?_⟩
    · rw [hboard]
      simpa [boardTaken] using mget_foldl_readings h 0 s.bureau.boardTemp
    · exact ⟨boardTaken s x, by rw [boardSample_eq, if_pos h]⟩

end Sys2Proof.Machine

/-!
# The step, reset, and the fuses (O53 to O56)
-/

namespace Sys2Proof.Machine

/-- Settles O53: `takeCommand` takes the front of the queue, and on an empty queue `passTime` passes. -/
theorem stepTakesTheFrontCommand : Obligations.StepTakesTheFrontCommand := by
  unfold Obligations.StepTakesTheFrontCommand
  intro s c l
  refine ⟨rfl, rfl, fun hp => ?_⟩
  simp [step, takeCommand, passTime, hp]

/-! ## Reset -/

/-- Every tenant but tenant 0 is unlisted at reset. -/
theorem tenOf_reset_of_ne_zero {n : Tenant} (hn : n ≠ 0) : tenOf State.reset n = {} := by
  have h0 : 0 ≠ n.toNat := fun h => hn (BitVec.eq_of_toNat_eq h.symm)
  show mget ({} : TenantState) [(0, { serve := 1 })] n.toNat = _
  simp [mget, mfind, h0]

/-- Settles O54: but for tenant 0's entry, every map of the reset state is empty, so each record reads as its default. -/
theorem resetHoldsTheStatedValues : Obligations.ResetHoldsTheStatedValues := by
  unfold Obligations.ResetHoldsTheStatedValues
  dsimp only
  refine ⟨⟨rfl, rfl, rfl, fun d => rfl⟩, fun fn q => ?pairs, fun n => ?sources, ⟨rfl, rfl, rfl, rfl, rfl⟩, fun p => ⟨rfl, rfl, rfl, rfl⟩,
    fun n => ?tenants, fun x => rfl, rfl, rfl, rfl, rfl⟩
  case pairs => exact ⟨rfl, rfl, rfl, rfl, rfl, rfl, rfl, rfl, rfl, rfl⟩
  case sources => exact ⟨rfl, rfl, rfl, rfl, rfl⟩
  case tenants =>
    by_cases hn : n = 0
    · subst hn; exact ⟨rfl, rfl, rfl⟩
    · rw [tenOf_reset_of_ne_zero hn]; exact ⟨rfl, rfl, (if_neg hn).symm⟩

/-- Settles O55: at reset no memory lists a place, and no fuse is blown. -/
theorem resetIsSound : Obligations.ResetIsSound := by
  unfold Obligations.ResetIsSound
  exact ⟨⟨Nat.zero_le 64, by decide⟩, ⟨rfl, rfl, rfl⟩, rfl⟩

/-! ## The fuses (R431) -/

/-- A slot that is revoked stays revoked when another one is. -/
theorem FuseState.leadsTo_withRevoked (f : FuseState) (slot : BitVec 2) : f.leadsTo (f.withRevoked slot) :=
  ⟨le_rfl, by ext i; simp; tauto⟩

theorem FuseState.leadsTo_refl (f : FuseState) : f.leadsTo f := ⟨le_rfl, BitVec.and_self⟩

/-- A command keeps the fuses sound, and neither lowers the counter nor clears a revocation: by its three cases. -/
theorem exec_fuses_sound {c : Instr} {s t : State} (hs : s.fuses.sound) (h : exec c s = .next t) :
    t.fuses.sound ∧ s.fuses.leadsTo t.fuses := by
  rcases exec_fuses_cases h with hf | ⟨-, ⟨-, -, hlt⟩, hf⟩ | ⟨k, d, v, slot, signer, -, ⟨hne, -, hsigner⟩, hf⟩
  · rw [hf]
    exact ⟨hs, FuseState.leadsTo_refl _⟩
  · rw [hf]
    exact ⟨⟨Nat.min_le_left 64 _, hs.2⟩, hlt.le, BitVec.and_self⟩
  · rw [hf]
    exact ⟨⟨hs.1, withRevoked_ne_all hne hsigner⟩, FuseState.leadsTo_withRevoked _ slot⟩

@[simp] theorem passTime_fuses (s : State) : (passTime s).fuses = s.fuses := by
  unfold passTime
  split <;> rfl

/-- Settles O56: on an empty queue only time passes; the command at the front keeps the fuses sound. -/
theorem everyStepKeepsTheFusesSound : Obligations.EveryStepKeepsTheFusesSound := by
  unfold Obligations.EveryStepKeepsTheFusesSound
  intro s t hs h
  unfold step takeCommand at h
  cases hp : s.pending with
  | nil =>
    simp only [hp] at h
    cases h
    rw [passTime_fuses]
    exact ⟨hs, FuseState.leadsTo_refl _⟩
  | cons c l =>
    simp only [hp] at h
    exact exec_fuses_sound (s := { s with pending := l }) hs h

end Sys2Proof.Machine

/-!
# The parts of the state that a command changes (O59)

The frame of each meaning says what it leaves. The commands that start the module anew leave the fuses and the queue alone.
-/

namespace Sys2Proof.Machine

/-! ## The queue under power-on, reset and power-off -/

@[simp] theorem survivors_pending (s : State) : (survivors s).pending = s.pending := by
  show (s.gen.indexes.foldl (fun s i => if i.2.batch.isSome then rollbackBatch s i.1 else s) s).pending = s.pending
  exact State.foldl_pending (fun s i => by split <;> simp) _ _

@[simp] theorem powerOn_pending (s : State) (mv : Nat) (seed : BitVec 64) : (powerOn s mv seed).pending = s.pending := survivors_pending s

@[simp] theorem perstAssert_pending (s : State) (seed : BitVec 64) : (perstAssert s seed).pending = s.pending := survivors_pending s

@[simp] theorem powerOff_pending (s : State) (tripped : Bool) : (powerOff s tripped).pending = s.pending := survivors_pending s

@[simp] theorem leaveRecovery_pending (s : State) : (leaveRecovery s).pending = s.pending := survivors_pending s

@[simp] theorem powerLoss_pending (s : State) (mv : Nat) (complete : Bool) (us : Nat) (tripped : Bool) :
    (powerLoss s mv complete us tripped).pending = s.pending := by simp [powerLoss]

@[simp] theorem firmwareTrip_pending (s : State) (c : TripCause) (complete : Bool) (us : Nat) :
    (firmwareTrip s c complete us).pending = s.pending := by simp [firmwareTrip]

@[simp] theorem rateFloorUnheld_pending (s : State) (d : Nat) : (rateFloorUnheld s d).pending = s.pending := by simp [rateFloorUnheld]

@[simp] theorem recoveryBoot_pending (s : State) (svn : Nat) (slot : BitVec 2) (verdict : Option Verdict) :
    (recoveryBoot s svn slot verdict).1.pending = s.pending := by
  unfold recoveryBoot
  split <;> simp

/-! ## Agreement on the parts outside a list -/

/-- The states agree on every part of the list. -/
def AllSame (s t : State) : List Part → Prop
  | [] => True
  | [p] => Part.same s t p
  | p :: q :: l => Part.same s t p ∧ AllSame s t (q :: l)

theorem same_of_allSame {s t : State} {l : List Part} (h : AllSame s t l) {p : Part} (hp : p ∈ l) : Part.same s t p := by
  induction l with
  | nil => simp at hp
  | cons q l ih =>
    cases l with
    | nil =>
      obtain rfl := List.mem_singleton.1 hp
      exact h
    | cons r l =>
      rcases List.mem_cons.1 hp with rfl | hp
      · exact h.1
      · exact ih h.2 hp

/-- The parts that a list does not name, in the order in which a state holds them. -/
def Part.others (l : List Part) : List Part :=
  [.fabric, .store, .tier, .engines, .host, .gen, .text, .pair, .flash, .bureau, .power, .limits, .fuses, .shelfSkips, .shelfCuts, .free,
    .pending].filter fun p => decide (p ∉ l)

theorem Part.mem_others {l : List Part} {p : Part} (hp : p ∉ l) : p ∈ Part.others l := by
  cases p <;> simp [Part.others, hp]

/-- On the parts that it does not touch, a command leaves the state as it is: the frame of its meaning. -/
theorem exec_allSame {c : Instr} {s t : State} (h : exec c s = .next t) : AllSame s t (Part.others (touches c)) := by
  cases c <;> simp only [touches]
  case rateFloorUnheld => cases h; exact ⟨by simp [Part.same], by simp [AllSame, Part.same]⟩
  case recoveryBoot => cases h; exact ⟨by simp [Part.same], by simp [AllSame, Part.same]⟩
  case powerOn => cases h; exact ⟨by simp [Part.same], by simp [AllSame, Part.same]⟩
  case powerLoss => cases h; exact ⟨by simp [Part.same], by simp [AllSame, Part.same]⟩
  case inputReturn => cases h; exact ⟨by simp [Part.same], by simp [AllSame, Part.same]⟩
  case firmwareTrip => cases h; exact ⟨by simp [Part.same], by simp [AllSame, Part.same]⟩
  case hardwareTrip => cases h; exact ⟨by simp [Part.same], by simp [AllSame, Part.same]⟩
  case emergencyOff => cases h; exact ⟨by simp [Part.same], by simp [AllSame, Part.same]⟩
  case powerRestart => cases h; exact ⟨by simp [Part.same], by simp [AllSame, Part.same]⟩
  case hostPerstNAssert => cases h; exact ⟨by simp [Part.same], by simp [AllSame, Part.same]⟩
  case fwCommit => exact execFwCommit_frame _ _ t h
  case fwDataChunk => exact execFwDataChunk_frame _ _ _ _ _ t h
  case dieLinkFlitReceive => exact execDieLinkFlitReceive_frame _ _ _ t h
  case ackOnlyFlit => exact execAckOnlyFlit_frame _ _ t h
  case linkReinitialise => exact execLinkReinitialise_frame _ _ t h
  case linkReinitDone => exact execLinkReinitDone_frame _ _ t h
  case linkFailed => exact execLinkFailed_frame _ _ t h
  case hubFlitGrant => exact execHubFlitGrant_frame _ _ _ t h
  case controlRingHop => exact execControlRingHop_frame _ _ _ _ t h
  case subscribe => exact execSubscribe_frame _ _ _ t h
  case unsubscribe => exact execUnsubscribe_frame _ _ _ t h
  case readyNotice => exact execReadyNotice_frame _ _ _ t h
  case fenceReq => exact execFenceReq_frame _ _ _ t h
  case fenceMarkerAnswer => exact execFenceMarkerAnswer_frame _ _ _ _ _ t h
  case fenceDone => exact execFenceDone_frame _ _ _ _ t h
  case quiesceReq => exact execQuiesceReq_frame _ _ t h
  case blockQuiet => exact execBlockQuiet_frame _ _ t h
  case quiesceDone => exact execQuiesceDone_frame _ _ t h
  case quiesceTimeout => exact execQuiesceTimeout_frame _ _ t h
  case commitNotice => exact execCommitNotice_frame _ _ _ t h
  case retractNotice => exact execRetractNotice_frame _ _ _ t h
  case resetRelease => exact execResetRelease_frame _ _ _ t h
  case rateSample => exact execRateSample_frame _ _ _ t h
  case refclkLoss => exact execRefclkLoss_frame _ t h
  case refclkReturn => exact execRefclkReturn_frame _ t h
  case storeRead => exact execStoreRead_frame _ _ _ t h
  case storeReadHeader => exact execStoreReadHeader_frame _ _ _ t h
  case storeFree => exact execStoreFree_frame _ _ t h
  case storeScrub => exact execStoreScrub_frame _ _ _ t h
  case storeWriteHeader => exact execStoreWriteHeader_frame _ _ _ _ _ _ t h
  case storeWritePayload => exact execStoreWritePayload_frame _ _ _ _ _ t h
  case scrubPaceTick => exact execScrubPaceTick_frame _ t h
  case storeZeroFillDone => exact execStoreZeroFillDone_frame _ _ t h
  case tierWriteTile => exact execTierWriteTile_frame _ _ _ _ _ t h
  case tierWriteUnblocked => exact execTierWriteUnblocked_frame _ _ t h
  case tierReadTile => exact execTierReadTile_frame _ _ _ _ _ _ t h
  case writeBack => exact execWriteBack_frame _ _ _ _ t h
  case migrateRoStart => exact execMigrateRoStart_frame _ _ _ _ t h
  case migrateRoSwitch => exact execMigrateRoSwitch_frame _ _ t h
  case migrateRoDrainEnd => exact execMigrateRoDrainEnd_frame _ _ t h
  case migrateStart => exact execMigrateStart_frame _ _ _ _ t h
  case migrateTileCopy => exact execMigrateTileCopy_frame _ _ t h
  case mr4Poll => exact execMr4Poll_frame _ _ _ _ _ t h
  case wckOscCheck => exact execWckOscCheck_frame _ _ _ t h
  case subchannelRetrainDone => exact execSubchannelRetrainDone_frame _ _ t h
  case lpddr6TrainingDone => exact execLpddr6TrainingDone_frame _ _ t h
  case streamTileWrite => exact execStreamTileWrite_frame _ _ _ t h
  case streamSlotPoll => exact execStreamSlotPoll_frame _ _ t h
  case refetchReadback => exact execRefetchReadback_frame _ _ _ _ t h
  case deepShapeMatmul => exact execDeepShapeMatmul_frame _ _ t h
  case wideShapeMatmul => exact execWideShapeMatmul_frame _ _ t h
  case convolution => exact execConvolution_frame _ _ t h
  case conversionRead => exact execConversionRead_frame _ _ t h
  case anchorRetryDone => exact execAnchorRetryDone_frame _ _ t h
  case activityHoldExpiry => exact execActivityHoldExpiry_frame _ _ _ t h
  case activityLevelStep => exact execActivityLevelStep_frame _ _ t h
  case vectorOp => exact execVectorOp_frame _ _ t h
  case mxQuantise => exact execMxQuantise_frame _ _ _ _ t h
  case reduction => exact execReduction_frame _ _ _ t h
  case rotaryEncoding => exact execRotaryEncoding_frame _ _ _ _ _ t h
  case normalisation => exact execNormalisation_frame _ _ _ _ _ _ t h
  case selectExact => exact execSelectExact_frame _ _ _ _ _ t h
  case selectBucket => exact execSelectBucket_frame _ _ _ _ _ t h
  case selectMerge => exact execSelectMerge_frame _ _ _ _ _ _ t h
  case mergeStart => exact execMergeStart_frame _ _ _ t h
  case mergeSlotPublish => exact execMergeSlotPublish_frame _ _ _ _ t h
  case readyLineInvalidation => exact execReadyLineInvalidation_frame _ _ _ t h
  case readyLineReread => exact execReadyLineReread_frame _ _ _ _ _ _ _ t h
  case walkStart => exact execWalkStart_frame _ _ t h
  case walkRoundEnd => exact execWalkRoundEnd_frame _ _ t h
  case scanIssue => exact execScanIssue_frame _ _ t h
  case shelfUnitArrive => exact execShelfUnitArrive_frame _ _ _ _ _ t h
  case chainTileArrive => exact execChainTileArrive_frame _ _ _ _ t h
  case scanBudgetExpired => exact execScanBudgetExpired_frame _ _ t h
  case retrievalSoftDeadline => exact execRetrievalSoftDeadline_frame _ _ t h
  case scanCut => exact execScanCut_frame _ _ _ t h
  case shelfScanEnd => exact execShelfScanEnd_frame _ _ _ t h
  case candidateMerge => exact execCandidateMerge_frame _ _ t h
  case passageFetch => exact execPassageFetch_frame _ _ t h
  case passageUnitArrive => exact execPassageUnitArrive_frame _ _ _ _ t h
  case fetchBudgetExpired => exact execFetchBudgetExpired_frame _ _ t h
  case rerankStart => exact execRerankStart_frame _ _ t h
  case rerankEnd => exact execRerankEnd_frame _ _ t h
  case packStart => exact execPackStart_frame _ _ t h
  case promptReady => exact execPromptReady_frame _ _ _ t h
  case checkRecordWrite => exact execCheckRecordWrite_frame _ _ _ t h
  case stepBoundary => exact execStepBoundary_frame _ _ _ t h
  case engineContextSwitch => exact execEngineContextSwitch_frame _ _ _ t h
  case kvPageWrite => exact execKvPageWrite_frame _ _ _ _ _ t h
  case attentionPagePartial => exact execAttentionPagePartial_frame _ _ t h
  case sampleToken => exact execSampleToken_frame _ _ _ _ _ _ t h
  case drawPortServe => exact execDrawPortServe_frame _ _ t h
  case grammarMaskRequest => exact execGrammarMaskRequest_frame _ _ _ t h
  case stopReport => exact execStopReport_frame _ _ _ _ _ t h
  case matched => exact execMatched_frame _ _ _ t h
  case interferenceWindowClose => exact execInterferenceWindowClose_frame _ t h
  case tokenizerInstall => exact execTokenizerInstall_frame _ _ t h
  case tokenizerCheckDone => exact execTokenizerCheckDone_frame _ _ t h
  case tokenizerRemove => exact execTokenizerRemove_frame _ _ t h
  case committedTokensReceive => exact execCommittedTokensReceive_frame _ _ _ _ t h
  case slotFinalRelease => exact execSlotFinalRelease_frame _ _ _ t h
  case tableRefresh => exact execTableRefresh_frame _ _ t h
  case hostLinkTraining => exact execHostLinkTraining_frame _ _ _ _ t h
  case doorbellInvalidation => exact execDoorbellInvalidation_frame _ _ _ t h
  case doorbellRereadReturn => exact execDoorbellRereadReturn_frame _ _ _ _ _ t h
  case atsInvalidation => exact execAtsInvalidation_frame _ _ _ t h
  case hostWindowRead => exact execHostWindowRead_frame _ _ _ _ t h
  case hostWindowWrite => exact execHostWindowWrite_frame _ _ _ t h
  case backInvalidateResponse => exact execBackInvalidateResponse_frame _ _ t h
  case completionPost => exact execCompletionPost_frame _ _ _ _ _ t h
  case msixTimeExpiry => exact execMsixTimeExpiry_frame _ _ _ t h
  case cxlHotReset => exact execCxlHotReset_frame _ t h
  case functionLevelReset => exact execFunctionLevelReset_frame _ _ t h
  case nop => exact execNop_frame _ _ _ _ t h
  case turn => exact execTurn_frame _ _ _ _ t h
  case textAppend => exact execTextAppend_frame _ _ _ _ t h
  case turnEndDeadline => exact execTurnEndDeadline_frame _ _ t h
  case embed => exact execEmbed_frame _ _ _ _ t h
  case search => exact execSearch_frame _ _ _ _ t h
  case rerank => exact execRerank_frame _ _ _ _ t h
  case generate => exact execGenerate_frame _ _ _ _ t h
  case tokenize => exact execTokenize_frame _ _ _ _ t h
  case detokenize => exact execDetokenize_frame _ _ _ _ t h
  case indexInsert => exact execIndexInsert_frame _ _ _ _ t h
  case indexPatch => exact execIndexPatch_frame _ _ _ _ t h
  case indexDelete => exact execIndexDelete_frame _ _ _ _ t h
  case rowLookup => exact execRowLookup_frame _ _ _ _ t h
  case rowUpdate => exact execRowUpdate_frame _ _ _ _ t h
  case loadExtent => exact execLoadExtent_frame _ _ _ _ t h
  case adapterLoad => exact execAdapterLoad_frame _ _ _ _ t h
  case grammarLoad => exact execGrammarLoad_frame _ _ _ _ t h
  case programLoad => exact execProgramLoad_frame _ _ _ _ _ t h
  case programReplaceSwitch => exact execProgramReplaceSwitch_frame _ _ t h
  case programUnload => exact execProgramUnload_frame _ _ _ _ t h
  case partitionUnloadDone => exact execPartitionUnloadDone_frame _ _ t h
  case cancel => exact execCancel_frame _ _ _ _ t h
  case fence => exact execFence_frame _ _ _ _ t h
  case fenceComplete => exact execFenceComplete_frame _ _ _ t h
  case worldMapWrite => exact execWorldMapWrite_frame _ _ _ t h
  case stepWatchdogExpiry => exact execStepWatchdogExpiry_frame _ _ _ t h
  case fieldTestDue => exact execFieldTestDue_frame _ _ t h
  case fieldTestDeferralEnd => exact execFieldTestDeferralEnd_frame _ _ t h
  case fieldTestComplete => exact execFieldTestComplete_frame _ _ _ t h
  case setteeFrameReceive => exact execSetteeFrameReceive_frame _ _ t h
  case setteeEmptyFrame => exact execSetteeEmptyFrame_frame _ t h
  case setteeRealign => exact execSetteeRealign_frame _ _ t h
  case setteeSilence => exact execSetteeSilence_frame _ _ t h
  case setteeTrainAttempt => exact execSetteeTrainAttempt_frame _ _ t h
  case ident => exact execIdent_frame _ _ t h
  case mirrorIndex => exact execMirrorIndex_frame _ _ _ t h
  case mirrorRows => exact execMirrorRows_frame _ _ _ t h
  case mirrorAdapter => exact execMirrorAdapter_frame _ _ _ t h
  case mirrorConfig => exact execMirrorConfig_frame _ _ _ t h
  case mirrorAck => exact execMirrorAck_frame _ _ _ t h
  case mirrorTimeout => exact execMirrorTimeout_frame _ _ _ t h
  case forward => exact execForward_frame _ _ _ t h
  case forwardDone => exact execForwardDone_frame _ _ _ t h
  case turnDesc => exact execTurnDesc_frame _ _ _ t h
  case turnText => exact execTurnText_frame _ _ _ t h
  case turnSnap => exact execTurnSnap_frame _ _ t h
  case turnDone => exact execTurnDone_frame _ _ t h
  case remoteTile => exact execRemoteTile_frame _ _ _ _ t h
  case commit => exact execCommit_frame _ _ t h
  case retract => exact execRetract_frame _ _ t h
  case mirrorRead => exact execMirrorRead_frame _ _ _ t h
  case mirrorData => exact execMirrorData_frame _ _ _ _ t h
  case journalReq => exact execJournalReq_frame _ _ _ t h
  case handover => exact execHandover_frame _ _ t h
  case relinquish m swaps unmapped => exact execRelinquish_frame m _ _ _ t h
  case leaseLineInvalidation => exact execLeaseLineInvalidation_frame _ _ _ t h
  case leaseRenew => exact execLeaseRenew_frame _ _ _ t h
  case leaseExpiryTake => exact execLeaseExpiryTake_frame _ _ _ _ t h
  case leaseRenewLapse => exact execLeaseRenewLapse_frame _ _ t h
  case failbackHandover => exact execFailbackHandover_frame _ _ _ t h
  case mapPortLookup => exact execMapPortLookup_frame _ _ t h
  case flashProgramDone => exact execFlashProgramDone_frame _ _ _ t h
  case flashReadDone => exact execFlashReadDone_frame _ _ _ t h
  case journalFlush => exact execJournalFlush_frame _ t h
  case mapImageSegment => exact execMapImageSegment_frame _ t h
  case groupReadbackDone => exact execGroupReadbackDone_frame _ _ _ t h
  case blockRewrite => exact execBlockRewrite_frame _ _ _ _ t h
  case wearLevelMove => exact execWearLevelMove_frame _ _ _ t h
  case garbageCollect => exact execGarbageCollect_frame _ _ _ t h
  case blockErase => exact execBlockErase_frame _ _ _ _ t h
  case ftlColdRebuild => exact execFtlColdRebuild_frame _ _ t h
  case ftlWarmRebuild => exact execFtlWarmRebuild_frame _ _ _ t h
  case watchdogStage1 => exact execWatchdogStage1_frame _ _ t h
  case watchdogStage2 => exact execWatchdogStage2_frame _ _ t h
  case icSourceFiltered => exact execIcSourceFiltered_frame _ _ _ t h
  case icClaimRead => exact execIcClaimRead_frame _ _ t h
  case icComplete => exact execIcComplete_frame _ _ _ t h
  case controlLoopTick => exact execControlLoopTick_frame _ _ t h
  case powerCapUnmet => exact execPowerCapUnmet_frame _ _ t h
  case thermalLimit => exact execThermalLimit_frame _ _ _ t h
  case eventTokenRefill => exact execEventTokenRefill_frame _ _ t h
  case eventStageFlush => exact execEventStageFlush_frame _ t h
  case extentMap => exact execExtentMap_frame _ _ _ t h
  case extentUnmap => exact execExtentUnmap_frame _ _ t h
  case extentSet => exact execExtentSet_frame _ _ _ t h
  case indexCreate => exact execIndexCreate_frame _ _ _ t h
  case indexDestroy => exact execIndexDestroy_frame _ _ t h
  case tableCreate => exact execTableCreate_frame _ _ _ t h
  case tableDestroy => exact execTableDestroy_frame _ _ t h
  case tenantRemove => exact execTenantRemove_frame _ _ t h
  case quiesce => exact execQuiesce_frame _ _ t h
  case blockReset => exact execBlockReset_frame _ _ t h
  case readCounters => exact execReadCounters_frame _ _ t h
  case setUtc => exact execSetUtc_frame _ _ _ t h
  case readSlot => exact execReadSlot_frame _ _ _ t h
  case readCapability => exact execReadCapability_frame _ _ t h
  case pairTakeover => exact execPairTakeover_frame _ _ _ t h
  case pairHandover => exact execPairHandover_frame _ _ _ t h
  case soloClear => exact execSoloClear_frame _ _ t h
  case setLimits => exact execSetLimits_frame _ _ _ t h
  case eventRead => exact execEventRead_frame _ _ _ _ _ t h
  case eventClear => exact execEventClear_frame _ _ t h
  case faultRead => exact execFaultRead_frame _ _ _ _ t h
  case attest => exact execAttest_frame _ _ _ t h
  case certRead => exact execCertRead_frame _ _ t h
  case fwSchedule => exact execFwSchedule_frame _ _ _ t h
  case fwCancel => exact execFwCancel_frame _ _ t h
  case status => exact execStatus_frame _ _ _ t h
  case mailboxBackgroundDone => exact execMailboxBackgroundDone_frame _ _ t h
  case mctpControl => exact execMctpControl_frame _ _ t h
  case pldmPlatformRequest => exact execPldmPlatformRequest_frame _ _ t h
  case activateFirmware => exact execActivateFirmware_frame _ t h
  case fwPending => exact execFwPending_frame _ t h
  case fwActivation => exact execFwActivation_frame _ t h
  case drainEnd => exact execDrainEnd_frame _ t h
  case fwPairActivation => exact execFwPairActivation_frame _ t h
  case fwActivationHeld => exact execFwActivationHeld_frame _ t h
  case bootOk => exact execBootOk_frame _ t h
  case bootTimeout => exact execBootTimeout_frame _ t h
  case recoveryWrite => exact execRecoveryWrite_frame _ _ _ _ t h
  case recoveryStatus => exact execRecoveryStatus_frame _ _ t h
  case domainPowerUp => exact execDomainPowerUp_frame _ t h
  case pinConfigure => exact execPinConfigure_frame _ t h
  case releaseChainStep => exact execReleaseChainStep_frame _ _ t h
  case inputLow => exact execInputLow_frame _ _ _ t h
  case inputHigh => exact execInputHigh_frame _ _ _ t h
  case overvoltageStop => exact execOvervoltageStop_frame _ _ t h
  case holdupArmed => exact execHoldupArmed_frame _ _ _ t h
  case bureauPerstRelease => exact execBureauPerstRelease_frame _ t h
  case hostPerstNDeassert => exact execHostPerstNDeassert_frame _ t h
  case warmReset => exact execWarmReset_frame _ _ t h
  case registerWrite => exact execRegisterWrite_frame _ _ _ _ _ t h
  case qpEnable => exact execQpEnable_frame _ _ _ _ _ _ t h
  case qpDisable => exact execQpDisable_frame _ _ _ t h
  case qpDisableDone => exact execQpDisableDone_frame _ _ _ t h
  case windowResize => exact execWindowResize_frame _ _ t h
  case windowResizeDone => exact execWindowResizeDone_frame _ t h
  case windowTenantSet => exact execWindowTenantSet_frame _ _ _ t h
  case pairEnable => exact execPairEnable_frame _ _ t h
  case pairDisable => exact execPairDisable_frame _ _ t h
  case cntClear => exact execCntClear_frame _ _ t h
  case counterLowRead => exact execCounterLowRead_frame _ _ _ _ t h
  case listCompactionSwitch => exact execListCompactionSwitch_frame _ _ _ _ t h
  case listCompactionFree => exact execListCompactionFree_frame _ _ _ t h
  case flashEraseDone => exact execFlashEraseDone_frame _ _ _ _ _ t h
  case setteeRealignDone => exact execSetteeRealignDone_frame _ t h
  case setteeLaneFailed => exact execSetteeLaneFailed_frame _ _ t h
  case cxlCacheEnableWrite => exact execCxlCacheEnableWrite_frame _ _ t h
  case msixVectorUnmask => exact execMsixVectorUnmask_frame _ _ _ t h
  case boardSensorSample => exact execBoardSensorSample_frame _ _ t h
  case pldmUpdateComponent => exact execPldmUpdateComponent_frame _ _ t h

/-- Settles O59: a command agrees with the state before it on the parts that it does not touch. -/
theorem commandsChangeOnlyTheirParts : Obligations.CommandsChangeOnlyTheirParts := by
  unfold Obligations.CommandsChangeOnlyTheirParts
  intro c s t h p hp
  exact same_of_allSame (exec_allSame h) (Part.mem_others hp)

end Sys2Proof.Machine

/-!
# Every command completes within its limits (O58)
-/

namespace Sys2Proof.Machine

/-! ## What the limits say of a command -/

theorem withinLimits_deep {s : State} {m : MatmulOp} : withinLimits s (.deepShapeMatmul m) ↔ operandsOk m = true := by
  simp [withinLimits]

theorem withinLimits_wide {s : State} {m : MatmulOp} : withinLimits s (.wideShapeMatmul m) ↔ operandsOk m = true := by
  simp [withinLimits]

theorem withinLimits_conv {s : State} {c : ConvOp} : withinLimits s (.convolution c) ↔ operandsOk c.mm = true ∧ convOk c = true := by
  simp [withinLimits]

section
variable {s : State} {e : Engine} {p : SelParams} {i : SelInput} {o : TileIdx}

theorem withinLimits_exact : withinLimits s (.selectExact e p i o) ↔ selOk p (selEntries s e p i).length = true := by
  constructor
  · exact fun h => h.2.2.1 e p i o (.inl rfl)
  · intro h
    refine ⟨by simp, by simp, ?_, by simp⟩
    rintro _ _ _ _ (h' | h') <;> cases h'
    exact h

theorem withinLimits_bucket : withinLimits s (.selectBucket e p i o) ↔ selOk p (selEntries s e p i).length = true := by
  constructor
  · exact fun h => h.2.2.1 e p i o (.inr rfl)
  · intro h
    refine ⟨by simp, by simp, ?_, by simp⟩
    rintro _ _ _ _ (h' | h') <;> cases h'
    exact h

theorem withinLimits_merge {l : List TileIdx} {b : Bool} : withinLimits s (.selectMerge e p l b o) ↔ selOk p 0 = true := by
  constructor
  · exact fun h => h.2.2.2 e p l b o rfl
  · intro h
    refine ⟨by simp, by simp, by simp, ?_⟩
    rintro _ _ _ _ _ h'
    cases h'
    exact h

end

/-! ## The outcome of a command -/

theorem execVectorOp_completes (v : VecOp) (s : State) : Completes (execVectorOp v s) := by
  unfold execVectorOp
  split <;> exact ⟨_, rfl⟩

theorem execReduction_completes (v : VecRef) (k : RedKind) (s : State) : Completes (execReduction v k s) := by
  unfold execReduction
  dsimp only
  split <;> exact ⟨_, rfl⟩

/-- A command completes, or its limit decides: R97 and R103 of a product, R141 of a selection. -/
theorem exec_completes_or_limit (c : Instr) (s : State) : Completes (exec c s) ∧ withinLimits s c
    ∨ ¬withinLimits s c ∧ ∃ n, (n = 97 ∨ n = 103 ∨ n = 141) ∧ exec c s = .fault (.undefinedOperation n) := by
  cases c
  case deepShapeMatmul m =>
    rw [withinLimits_deep]
    by_cases h : operandsOk m = true
    · exact .inl ⟨⟨_, if_pos h⟩, h⟩
    · exact .inr ⟨h, 97, .inl rfl, if_neg h⟩
  case wideShapeMatmul m =>
    rw [withinLimits_wide]
    by_cases h : operandsOk m = true
    · exact .inl ⟨⟨_, if_pos h⟩, h⟩
    · exact .inr ⟨h, 97, .inl rfl, if_neg h⟩
  case convolution x =>
    rw [withinLimits_conv]
    show Completes (execConvolution x s) ∧ _ ∨ _ ∧ ∃ n, _ ∧ execConvolution x s = _
    cases h : operandsOk x.mm with
    | false => exact .inr ⟨by simp, 97, .inl rfl, by simp [execConvolution, h]⟩
    | true =>
      cases h' : convOk x with
      | false => exact .inr ⟨by simp, 103, .inr (.inl rfl), by simp [execConvolution, h, h']⟩
      | true => exact .inl ⟨⟨_, by simp [execConvolution, h, h']; rfl⟩, rfl, rfl⟩
  case selectExact e p i o =>
    rw [withinLimits_exact]
    by_cases h : selOk p (selEntries s e p i).length = true
    · exact .inl ⟨⟨_, if_pos h⟩, h⟩
    · exact .inr ⟨h, 141, .inr (.inr rfl), if_neg h⟩
  case selectBucket e p i o =>
    rw [withinLimits_bucket]
    by_cases h : selOk p (selEntries s e p i).length = true
    · exact .inl ⟨⟨_, if_pos h⟩, h⟩
    · exact .inr ⟨h, 141, .inr (.inr rfl), if_neg h⟩
  case selectMerge e p l b o =>
    rw [withinLimits_merge]
    by_cases h : selOk p 0 = true
    · exact .inl ⟨⟨_, if_pos h⟩, h⟩
    · exact .inr ⟨h, 141, .inr (.inr rfl), if_neg h⟩
  case vectorOp v => exact .inl ⟨execVectorOp_completes v s, by simp [withinLimits]⟩
  case reduction v k => exact .inl ⟨execReduction_completes v k s, by simp [withinLimits]⟩
  all_goals exact .inl ⟨⟨_, rfl⟩, by simp [withinLimits]⟩

/-- Settles O58: only the six commands with a limit look at one, and each of them stops outside its own. -/
theorem everyCommandCompletesWithinItsLimits : Obligations.EveryCommandCompletesWithinItsLimits := by
  unfold Obligations.EveryCommandCompletesWithinItsLimits
  intro c s
  rcases exec_completes_or_limit c s with ⟨hc, hl⟩ | ⟨hl, hf⟩
  · exact ⟨fun _ => hc, fun h => absurd hl h⟩
  · exact ⟨fun h => absurd h hl, fun _ => hf⟩

end Sys2Proof.Machine

/-! # The canonical form of the three addressed memories (O60)

One law per operation of the model that can change the slots of the store, the tiles of tier L or the flash blocks: what was in canonical form
before it is so after it. The law of a command is then that of its meaning, and a command that touches none of the three keeps them by its
frame. -/

namespace Sys2Proof.Machine

/-! Each theorem is checked before the next is read: several hundred short proofs in flight at once would each hold a thread. -/

set_option Elab.async false

/-! ## The three maps, and what keeps them -/

/-- The slots of the central store are in canonical form. -/
def slotsOk (m : Map Slot) : Prop := canonical {} m = true

/-- The tiles of tier L are in canonical form. -/
def tilesOk (m : Map LTile) : Prop := canonical {} m = true

/-- The flash blocks are in canonical form. -/
def blocksOk (m : Map FlashBlock) : Prop := canonical {} m = true

/-! Copies of the three under other names, of which `simp` knows nothing. -/

def slotsOk' (m : Map Slot) : Prop := slotsOk m
def tilesOk' (m : Map LTile) : Prop := tilesOk m
def blocksOk' (m : Map FlashBlock) : Prop := blocksOk m

/-- Each of the three memories is in canonical form in `t` if it is in `s` (`KeepsMemory.intro`). It is said as equivalences, so that `simp`
goes back from `t` to `s` without a side condition, and so through a chain of operations of any length. -/
abbrev KeepsMemory (s t : State) : Prop :=
  (slotsOk t.store.slots ↔ slotsOk s.store.slots ∨ slotsOk' t.store.slots)
    ∧ (tilesOk t.tier.lmem ↔ tilesOk s.tier.lmem ∨ tilesOk' t.tier.lmem)
    ∧ (blocksOk t.flash.blocks ↔ blocksOk s.flash.blocks ∨ blocksOk' t.flash.blocks)

theorem iff_or_self {p q : Prop} (h : p → q) : q ↔ p ∨ q := ⟨.inr, fun h' => h'.elim h id⟩

theorem imp_of_iff_or_self {p q : Prop} (h : q ↔ p ∨ q) (hp : p) : q := h.2 (.inl hp)

theorem KeepsMemory.intro {s t : State} (hs : slotsOk s.store.slots → slotsOk t.store.slots) (hl : tilesOk s.tier.lmem → tilesOk t.tier.lmem)
    (hb : blocksOk s.flash.blocks → blocksOk t.flash.blocks) : KeepsMemory s t :=
  ⟨iff_or_self hs, iff_or_self hl, iff_or_self hb⟩

theorem KeepsMemory.slots {s t : State} (h : KeepsMemory s t) : slotsOk s.store.slots → slotsOk t.store.slots := imp_of_iff_or_self h.1

theorem KeepsMemory.tiles {s t : State} (h : KeepsMemory s t) : tilesOk s.tier.lmem → tilesOk t.tier.lmem := imp_of_iff_or_self h.2.1

theorem KeepsMemory.blocks {s t : State} (h : KeepsMemory s t) : blocksOk s.flash.blocks → blocksOk t.flash.blocks := imp_of_iff_or_self h.2.2

theorem KeepsMemory.wf {s t : State} (h : KeepsMemory s t) (hs : Memory.wf s) : Memory.wf t :=
  ⟨h.slots hs.1, h.tiles hs.2.1, h.blocks hs.2.2⟩

theorem KeepsMemory.refl (s : State) : KeepsMemory s s := .intro id id id

theorem KeepsMemory.trans {s t u : State} (h : KeepsMemory s t) (h' : KeepsMemory t u) : KeepsMemory s u :=
  .intro (h'.slots ∘ h.slots) (h'.tiles ∘ h.tiles) (h'.blocks ∘ h.blocks)

theorem KeepsMemory.of_eq {s t : State} (hs : t.store.slots = s.store.slots := by simp) (hl : t.tier.lmem = s.tier.lmem := by simp)
    (hb : t.flash.blocks = s.flash.blocks := by simp) : KeepsMemory s t :=
  .intro (hs ▸ id) (hl ▸ id) (hb ▸ id)

theorem KeepsMemory.ite {s t u : State} {c : Prop} [Decidable c] (h : KeepsMemory s t) (h' : KeepsMemory s u) :
    KeepsMemory s (if c then t else u) := by
  split <;> assumption

/-- What every step of a fold keeps, the fold keeps. -/
theorem KeepsMemory.foldl {α : Type} {f : State → α → State} (hf : ∀ s a, KeepsMemory s (f s a)) (l : List α) (s : State) :
    KeepsMemory s (l.foldl f s) := by
  induction l generalizing s with
  | nil => exact .refl s
  | cons a l ih => exact (hf s a).trans (ih _)

@[simp] theorem slotsOk_mmod {d : Slot} (hd : d = {}) (m : Map Slot) (k : Nat) (f : Slot → Slot) :
    slotsOk (mmod d m k f) ↔ slotsOk m ∨ slotsOk' ((mmod d m k f)) :=
  iff_or_self fun h => by subst hd; exact canonical_mmod k f h

@[simp] theorem slotsOk_nil : slotsOk [] := rfl

@[simp] theorem tilesOk_mput {d : LTile} (hd : d = {}) (m : Map LTile) (k : Nat) (v : LTile) :
    tilesOk (mput d m k v) ↔ tilesOk m ∨ tilesOk' ((mput d m k v)) :=
  iff_or_self fun h => by subst hd; exact canonical_mput k v h

@[simp] theorem tilesOk_mdel (m : Map LTile) (k : Nat) : tilesOk (mdel m k) ↔ tilesOk m ∨ tilesOk' ((mdel m k)) :=
  iff_or_self (canonical_mdel k)

@[simp] theorem tilesOk_nil : tilesOk [] := rfl

@[simp] theorem blocksOk_mmod {d : FlashBlock} (hd : d = {}) (m : Map FlashBlock) (k : Nat) (f : FlashBlock → FlashBlock) :
    blocksOk (mmod d m k f) ↔ blocksOk m ∨ blocksOk' ((mmod d m k f)) :=
  iff_or_self fun h => by subst hd; exact canonical_mmod k f h

/-- An update of every block keeps the form if it leaves no block as one that is not listed reads. -/
@[simp] theorem blocksOk_mmap {f : Nat → FlashBlock → FlashBlock} (hf : ∀ k b, b ≠ {} → f k b ≠ {}) (m : Map FlashBlock) :
    blocksOk (mmap f m) ↔ blocksOk m ∨ blocksOk' ((mmap f m)) :=
  iff_or_self (canonical_mmap f hf)

/-! ## A choice and a fold -/

@[simp] theorem StoreState.ite_slots (c : Prop) [Decidable c] (a b : StoreState) : (if c then a else b).slots = if c then a.slots else b.slots := by
  split <;> rfl

@[simp] theorem TierState.ite_lmem (c : Prop) [Decidable c] (a b : TierState) : (if c then a else b).lmem = if c then a.lmem else b.lmem := by
  split <;> rfl

@[simp] theorem FlashState.ite_blocks (c : Prop) [Decidable c] (a b : FlashState) :
    (if c then a else b).blocks = if c then a.blocks else b.blocks := by
  split <;> rfl

@[simp] theorem slotsOk_ite (c : Prop) [Decidable c] (a b : Map Slot) : slotsOk (if c then a else b) ↔ (c → slotsOk a) ∧ (¬c → slotsOk b) := by
  split <;> simp [*]

@[simp] theorem tilesOk_ite (c : Prop) [Decidable c] (a b : Map LTile) : tilesOk (if c then a else b) ↔ (c → tilesOk a) ∧ (¬c → tilesOk b) := by
  split <;> simp [*]

@[simp] theorem blocksOk_ite (c : Prop) [Decidable c] (a b : Map FlashBlock) :
    blocksOk (if c then a else b) ↔ (c → blocksOk a) ∧ (¬c → blocksOk b) := by
  split <;> simp [*]

/-- What every step of a fold keeps, the fold keeps. -/
theorem foldl_of_step {α σ : Type} {P : σ → Prop} {f : σ → α → σ} (hf : ∀ s a, P s → P (f s a)) (l : List α) {s : σ} (hs : P s) : P (l.foldl f s) := by
  induction l generalizing s with
  | nil => exact hs
  | cons a l ih => exact ih (hf s a hs)

section
variable {α β : Type} (l : List α)

@[simp] theorem foldl_slotsOk {f : State → α → State} (hf : ∀ s a, slotsOk s.store.slots → slotsOk (f s a).store.slots) (s : State) :
    slotsOk (l.foldl f s).store.slots ↔ slotsOk s.store.slots ∨ slotsOk' ((l.foldl f s).store.slots) :=
  iff_or_self (foldl_of_step (P := fun s : State => slotsOk s.store.slots) hf l)

@[simp] theorem foldl_tilesOk {f : State → α → State} (hf : ∀ s a, tilesOk s.tier.lmem → tilesOk (f s a).tier.lmem) (s : State) :
    tilesOk (l.foldl f s).tier.lmem ↔ tilesOk s.tier.lmem ∨ tilesOk' ((l.foldl f s).tier.lmem) :=
  iff_or_self (foldl_of_step (P := fun s : State => tilesOk s.tier.lmem) hf l)

@[simp] theorem foldl_blocksOk {f : State → α → State} (hf : ∀ s a, blocksOk s.flash.blocks → blocksOk (f s a).flash.blocks) (s : State) :
    blocksOk (l.foldl f s).flash.blocks ↔ blocksOk s.flash.blocks ∨ blocksOk' ((l.foldl f s).flash.blocks) :=
  iff_or_self (foldl_of_step (P := fun s : State => blocksOk s.flash.blocks) hf l)

@[simp] theorem foldl_fst_slotsOk {f : State × β → α → State × β} (hf : ∀ s a, slotsOk s.1.store.slots → slotsOk (f s a).1.store.slots) (s : State × β) :
    slotsOk (l.foldl f s).1.store.slots ↔ slotsOk s.1.store.slots ∨ slotsOk' ((l.foldl f s).1.store.slots) :=
  iff_or_self (foldl_of_step (P := fun s : State × β => slotsOk s.1.store.slots) hf l)

@[simp] theorem foldl_fst_tilesOk {f : State × β → α → State × β} (hf : ∀ s a, tilesOk s.1.tier.lmem → tilesOk (f s a).1.tier.lmem) (s : State × β) :
    tilesOk (l.foldl f s).1.tier.lmem ↔ tilesOk s.1.tier.lmem ∨ tilesOk' ((l.foldl f s).1.tier.lmem) :=
  iff_or_self (foldl_of_step (P := fun s : State × β => tilesOk s.1.tier.lmem) hf l)

@[simp] theorem foldl_fst_blocksOk {f : State × β → α → State × β} (hf : ∀ s a, blocksOk s.1.flash.blocks → blocksOk (f s a).1.flash.blocks) (s : State × β) :
    blocksOk (l.foldl f s).1.flash.blocks ↔ blocksOk s.1.flash.blocks ∨ blocksOk' ((l.foldl f s).1.flash.blocks) :=
  iff_or_self (foldl_of_step (P := fun s : State × β => blocksOk s.1.flash.blocks) hf l)

@[simp] theorem foldl_snd_slotsOk {f : β × State → α → β × State} (hf : ∀ s a, slotsOk s.2.store.slots → slotsOk (f s a).2.store.slots) (s : β × State) :
    slotsOk (l.foldl f s).2.store.slots ↔ slotsOk s.2.store.slots ∨ slotsOk' ((l.foldl f s).2.store.slots) :=
  iff_or_self (foldl_of_step (P := fun s : β × State => slotsOk s.2.store.slots) hf l)

@[simp] theorem foldl_snd_tilesOk {f : β × State → α → β × State} (hf : ∀ s a, tilesOk s.2.tier.lmem → tilesOk (f s a).2.tier.lmem) (s : β × State) :
    tilesOk (l.foldl f s).2.tier.lmem ↔ tilesOk s.2.tier.lmem ∨ tilesOk' ((l.foldl f s).2.tier.lmem) :=
  iff_or_self (foldl_of_step (P := fun s : β × State => tilesOk s.2.tier.lmem) hf l)

@[simp] theorem foldl_snd_blocksOk {f : β × State → α → β × State} (hf : ∀ s a, blocksOk s.2.flash.blocks → blocksOk (f s a).2.flash.blocks) (s : β × State) :
    blocksOk (l.foldl f s).2.flash.blocks ↔ blocksOk s.2.flash.blocks ∨ blocksOk' ((l.foldl f s).2.flash.blocks) :=
  iff_or_self (foldl_of_step (P := fun s : β × State => blocksOk s.2.flash.blocks) hf l)

end

@[simp] theorem startDrain_memory (s : State) (b : BlockId) (at' : BitVec 48) : KeepsMemory s (startDrain s b at') := by
  apply KeepsMemory.intro <;> simp +contextual [startDrain]

@[simp] theorem startWaiting_memory (s : State) (die : DieId) : KeepsMemory s (startWaiting s die) := by
  unfold startWaiting
  split
  · exact .refl s
  · refine .foldl (fun s b => ?_) _ _
    split
    · exact startDrain_memory ..
    · exact .refl s

@[simp] theorem fenceDone_memory (s : State) (issuer : BlockId) (die : DieId) (reset : Bool) :
    KeepsMemory s (fenceDone s issuer die reset) := by
  simp only [fenceDone]
  repeat' split
  all_goals apply KeepsMemory.intro <;> simp +contextual

@[simp] theorem quiesceReq_memory (s : State) (b : BlockId) : KeepsMemory s (quiesceReq s b) := by
  simp only [quiesceReq]
  repeat' split
  all_goals apply KeepsMemory.intro <;> simp +contextual

@[simp] theorem setSlot_memory (s : State) (t : TileIdx) (f : Slot → Slot) : KeepsMemory s (setSlot s t f) := by
  apply KeepsMemory.intro <;> simp +contextual [setSlot]

@[simp] theorem mapSlots_memory (s : State) (f : TileIdx → Slot → Slot) : KeepsMemory s (mapSlots s f) :=
  .intro (canonical_map_filter _ (fun k => f (BitVec.ofNat 17 k)) _) id id

@[simp] theorem noteBadRow_memory (s : State) (t : TileIdx) (i : Nat) : KeepsMemory s (noteBadRow s t i) := by
  apply KeepsMemory.intro <;> simp +contextual [noteBadRow]

@[simp] theorem eccWord_memory (s : State) (t : TileIdx) (i : Nat) : KeepsMemory s (eccWord s t i) := by
  simp only [eccWord]
  repeat' split
  all_goals apply KeepsMemory.intro <;> simp +contextual

@[simp] theorem eccRead_memory (s : State) (t : TileIdx) (ups : List Upset) (whole : Bool) : KeepsMemory s (eccRead s t ups whole) := by
  apply KeepsMemory.intro <;> simp +contextual [eccRead]

@[simp] theorem readEffect_memory (s : State) (rq : StoreReq) (h : TileHeader) (whole : Bool) : KeepsMemory s (readEffect s rq h whole) := by
  apply KeepsMemory.intro <;> simp +contextual [readEffect]

@[simp] theorem storeServe_memory (s : State) (rq : StoreReq) (ups : List Upset) (whole : Bool) :
    KeepsMemory s (storeServe s rq ups whole).1 := by
  apply KeepsMemory.intro <;> simp +contextual [storeServe]

@[simp] theorem storeRead_memory (s : State) (rq : StoreReq) (ups : List Upset) (whole : Bool) :
    KeepsMemory s (storeRead s rq ups whole) := by
  apply KeepsMemory.intro <;> simp +contextual [storeRead]

@[simp] theorem storeFree_memory (s : State) (rq : StoreReq) : KeepsMemory s (storeFree s rq) := by
  apply KeepsMemory.intro <;> simp +contextual [storeFree]

@[simp] theorem storeScrub_memory (s : State) (t : TileIdx) (ups : List Upset) : KeepsMemory s (storeScrub s t ups) := by
  apply KeepsMemory.intro <;> simp +contextual [storeScrub]

@[simp] theorem scrubPace_memory (s : State) : KeepsMemory s (scrubPace s) := by
  apply KeepsMemory.intro <;> simp +contextual [scrubPace]

@[simp] theorem zeroFillDone_memory (s : State) (d : BitVec 3) : KeepsMemory s (zeroFillDone s d) := by
  apply KeepsMemory.intro <;> simp +contextual [zeroFillDone]

@[simp] theorem discardFlits_memory (s : State) (src : DieId) (tag : BitVec 16) : KeepsMemory s (discardFlits s src tag) := by
  apply KeepsMemory.intro <;> simp +contextual [discardFlits]

@[simp] theorem writeHeader_memory (s : State) (src : DieId) (tag : BitVec 16) (t : TileIdx) (h : TileHeader) (world : Bool) :
    KeepsMemory s (writeHeader s src tag t h world) := by
  simp only [writeHeader]
  repeat' split
  all_goals apply KeepsMemory.intro <;> simp +contextual

@[simp] theorem announce_memory (s : State) (t : TileIdx) : KeepsMemory s (announce s t) := by
  apply KeepsMemory.intro <;> simp +contextual [announce]

@[simp] theorem abandonWrites_memory (s : State) (b : BlockId) : KeepsMemory s (abandonWrites s b) := by
  apply KeepsMemory.intro <;> simp +contextual [abandonWrites]

@[simp] theorem writePayload_memory (s : State) (src : DieId) (tag : BitVec 16) (k : BitVec 6) (data : Bytes) :
    KeepsMemory s (writePayload s src tag k data) := by
  simp only [writePayload]
  repeat' split
  all_goals apply KeepsMemory.intro <;> simp +contextual

@[simp] theorem writeTile_memory (s : State) (src : DieId) (t : TileIdx) (tile : Tile) (world : Bool) :
    KeepsMemory s (writeTile s src t tile world) := by
  apply KeepsMemory.intro <;> simp +contextual [writeTile]

theorem conductorPut_memory (src : DieId) (world : Bool) (l : List Tile) (s : State) :
    ∀ t, conductorPut src world l s = some t → KeepsMemory s t.2 := by
  induction l generalizing s with
  | nil => intro t h; cases h; exact .refl s
  | cons a l ih =>
    intro t h
    simp only [conductorPut, Option.bind_eq_some_iff, Option.map_eq_some_iff] at h
    obtain ⟨i, -, r, hr, rfl⟩ := h
    exact (writeTile_memory s src i _ world).trans (ih _ r hr)

@[simp] theorem freePassing_memory (s : State) (ts : List TileIdx) : KeepsMemory s (freePassing s ts) :=
  .foldl (fun s t => setSlot_memory s t _) _ _

@[simp] theorem subscribe_memory (s : State) (b : BlockId) (t : TileIdx) : KeepsMemory s (subscribe s b t) := by
  apply KeepsMemory.intro <;> simp +contextual [subscribe]

@[simp] theorem unsubscribe_memory (s : State) (b : BlockId) (t : TileIdx) : KeepsMemory s (unsubscribe s b t) := by
  apply KeepsMemory.intro <;> simp +contextual [unsubscribe]

@[simp] theorem readyNotice_memory (s : State) (b : BlockId) (t : TileIdx) : KeepsMemory s (readyNotice s b t) := by
  apply KeepsMemory.intro <;> simp +contextual [readyNotice]

@[simp] theorem dropTagged_memory (s : State) (p : PartId) (e : Epoch) : KeepsMemory s (dropTagged s p e) := by
  apply KeepsMemory.intro <;> simp +contextual [dropTagged]

@[simp] theorem commitNotice_memory (s : State) (p : PartId) (e : Epoch) : KeepsMemory s (commitNotice s p e) := by
  apply KeepsMemory.intro <;> simp +contextual [commitNotice]

@[simp] theorem retractNotice_memory (s : State) (p : PartId) (e : Epoch) : KeepsMemory s (retractNotice s p e) := by
  apply KeepsMemory.intro <;> simp +contextual [retractNotice]

@[simp] theorem clearStore_memory (s : State) : KeepsMemory s (clearStore s) := by
  apply KeepsMemory.intro <;> simp +contextual [clearStore]

@[simp] theorem serveRequest_memory (l : BitVec 2) (s : State) (rq : StoreReq) : KeepsMemory s (serveRequest l s rq) := by
  apply KeepsMemory.intro <;> simp +contextual [serveRequest]

@[simp] theorem storeFlit_memory (s : State) (l : LinkId) (f : Flit) : KeepsMemory s (storeFlit s l f) := by
  simp only [storeFlit]
  repeat' split
  all_goals apply KeepsMemory.intro <;> simp +contextual

@[simp] theorem deliverDown_memory (s : State) (l : LinkId) (f : Flit) : KeepsMemory s (deliverDown s l f) := by
  apply KeepsMemory.intro <;> simp +contextual [deliverDown]

@[simp] theorem deliverFlit_memory (s : State) (l : LinkId) (f : Flit) : KeepsMemory s (deliverFlit s l f) := by
  apply KeepsMemory.intro <;> simp +contextual [deliverFlit]

@[simp] theorem flitReceive_memory (s : State) (l : LinkId) (f : Flit) : KeepsMemory s (flitReceive s l f) := by
  apply KeepsMemory.intro <;> simp +contextual [flitReceive]

@[simp] theorem setFblk_memory (s : State) (c d b : Nat) (f : FlashBlock → FlashBlock) : KeepsMemory s (setFblk s c d b f) := by
  apply KeepsMemory.intro <;> simp +contextual [setFblk]

@[simp] theorem raiseOnce_memory (s : State) (k : Nat) (cond : Bool) (e : Ev) : KeepsMemory s (raiseOnce s k cond e) := by
  apply KeepsMemory.intro <;> simp +contextual [raiseOnce]

@[simp] theorem checkHealth_memory (s : State) (c : Nat) : KeepsMemory s (checkHealth s c) := by
  apply KeepsMemory.intro <;> simp +contextual [checkHealth]

@[simp] theorem takeSeq_memory (s : State) (chan : Nat) : KeepsMemory s (takeSeq s chan).2 := by
  apply KeepsMemory.intro <;> simp +contextual [takeSeq]

theorem pickMembers_memory (s : State) (col : Nat) (pref : Option (Nat × Nat × Nat)) (n : Nat) :
    ∀ t, pickMembers s col pref n = some t → KeepsMemory s t.2 := fun t h => by
  have frame := pickMembers_frame _ _ _ _ t h
  exact .of_eq (by simp only [frame]) (by simp only [frame]) (by simp only [frame])

theorem openGroup_memory (s : State) (col : Nat) (reloc : Bool) (pref : Option (Nat × Nat × Nat)) :
    ∀ t, openGroup s col reloc pref = some t → KeepsMemory s t.2 := by
  intro t h
  simp only [openGroup] at h
  split at h
  · cases h
  · split at h
    · cases h
    · cases h
      exact (pickMembers_memory _ _ _ _ _ ‹_›).trans (.trans .of_eq (.foldl (fun s m => setFblk_memory ..) _ _))

@[simp] theorem issueProgram_memory (s : State) (g chan : Nat) (pg : NandPage) (w : ProgWaiter) :
    KeepsMemory s (issueProgram s g chan pg w) := by
  simp only [issueProgram]
  repeat' split
  all_goals apply KeepsMemory.intro <;> simp +contextual

@[simp] theorem programUnit_memory (s : State) (u : Nat) (pg : NandPage) (reloc : Bool) (w : ProgWaiter) :
    KeepsMemory s (programUnit s u pg reloc w) := by
  unfold programUnit
  split
  · exact issueProgram_memory ..
  · split
    · exact (openGroup_memory _ _ _ _ _ ‹_›).trans (issueProgram_memory ..)
    · exact .of_eq

@[simp] theorem writeUnit_memory (s : State) (u : Nat) (t : Tile) (w : ProgWaiter) : KeepsMemory s (writeUnit s u t w).1 := by
  apply KeepsMemory.intro <;> simp +contextual [writeUnit]

@[simp] theorem retryStalled_memory (s : State) : KeepsMemory s (retryStalled s) := by
  apply KeepsMemory.intro <;> simp +contextual [retryStalled]

@[simp] theorem appendRecord_memory (s : State) (r : MapRecord) : KeepsMemory s (appendRecord s r) := by
  apply KeepsMemory.intro <;> simp +contextual [appendRecord]

@[simp] theorem setMap_memory (s : State) (u : Nat) (e : BitVec 32) (q : BitVec 48) (type : BitVec 8) :
    KeepsMemory s (setMap s u e q type) := by
  apply KeepsMemory.intro <;> simp +contextual [setMap]

@[simp] theorem trimUnit_memory (s : State) (u : Nat) : KeepsMemory s (trimUnit s u) := by
  apply KeepsMemory.intro <;> simp +contextual [trimUnit]

@[simp] theorem relocateBlock_memory (s : State) (c d b : Nat) : KeepsMemory s (relocateBlock s c d b) := by
  apply KeepsMemory.intro <;> simp +contextual [relocateBlock]

@[simp] theorem retireBlock_memory (s : State) (c d b cause : Nat) : KeepsMemory s (retireBlock s c d b cause) := by
  apply KeepsMemory.intro <;> simp +contextual [retireBlock]

@[simp] theorem closeGroup_memory (s : State) (g : Nat) : KeepsMemory s (closeGroup s g) := by
  simp only [closeGroup]
  repeat' split
  all_goals apply KeepsMemory.intro <;> simp +contextual

@[simp] theorem programDone_memory (s : State) (x : PageProgram) : KeepsMemory s (programDone s x) := by
  simp only [programDone]
  repeat' split
  all_goals apply KeepsMemory.intro <;> simp +contextual

@[simp] theorem flashProgramDone_memory (s : State) (i : Nat) (good : Bool) : KeepsMemory s (flashProgramDone s i good) := by
  simp only [flashProgramDone]
  repeat' split
  all_goals apply KeepsMemory.intro <;> simp +contextual

/-- A block that is being suspended in its erase still reads otherwise than one that is not listed. -/
@[simp] theorem mapPort_memory (s : State) (u : Nat) : KeepsMemory s (mapPort s u) := by
  have suspended {b : FlashBlock} (hb : b ≠ {}) : ({ b with erasing := b.erasing.map fun n => min 4 (n + 1) } : FlashBlock) ≠ {} := by
    intro h
    apply hb
    cases b
    simp_all
  unfold mapPort
  dsimp only
  split
  · exact .of_eq
  · refine .intro id id fun h => ?_
    dsimp only
    refine canonical_mmap (m := s.flash.blocks) _ (fun k b hb => ?_) h
    split
    · exact suspended hb
    · exact hb

@[simp] theorem flashReadDone_memory (s : State) (u : Nat) (r : FlashRead) : KeepsMemory s (flashReadDone s u r) := by
  simp only [flashReadDone]
  repeat' split
  all_goals apply KeepsMemory.intro <;> simp +contextual

@[simp] theorem flushJournal_memory (s : State) : KeepsMemory s (flushJournal s) := by
  apply KeepsMemory.intro <;> simp +contextual [flushJournal]

@[simp] theorem journalFlush_memory (s : State) : KeepsMemory s (journalFlush s) := by
  apply KeepsMemory.intro <;> simp +contextual [journalFlush]

@[simp] theorem mapImageSegment_memory (s : State) : KeepsMemory s (mapImageSegment s) := by
  apply KeepsMemory.intro <;> simp +contextual [mapImageSegment]

@[simp] theorem groupReadback_memory (s : State) (g : Nat) (bad : List PagePos) : KeepsMemory s (groupReadback s g bad) := by
  unfold groupReadback
  split
  · exact .refl s
  · split
    · exact .refl s
    · split
      · exact .trans .of_eq (retryStalled_memory _)
      · refine .foldl (fun s p => ?_) _ _
        split
        · exact .ite (programUnit_memory ..) (.refl _)
        · exact .refl _

@[simp] theorem blockRewrite_memory (s : State) (c d b : Nat) : KeepsMemory s (blockRewrite s c d b) := by
  apply KeepsMemory.intro <;> simp +contextual [blockRewrite]

@[simp] theorem wearLevel_memory (s : State) (c col : Nat) : KeepsMemory s (wearLevel s c col) := by
  unfold wearLevel
  dsimp only
  split
  · refine .ite (.refl s) ?_
    split
    · exact .refl s
    · exact (openGroup_memory _ _ _ _ _ ‹_›).trans (.trans .of_eq (.foldl (fun s p => issueProgram_memory ..) _ _))
  · exact .refl s

@[simp] theorem garbageCollect_memory (s : State) (c d : Nat) : KeepsMemory s (garbageCollect s c d) := by
  simp only [garbageCollect]
  repeat' split
  all_goals apply KeepsMemory.intro <;> simp +contextual

@[simp] theorem blockErase_memory (s : State) (c d b : Nat) : KeepsMemory s (blockErase s c d b) := by
  apply KeepsMemory.intro <;> simp +contextual [blockErase]

@[simp] theorem eraseDone_memory (s : State) (c d b : Nat) (good : Bool) : KeepsMemory s (eraseDone s c d b good) := by
  apply KeepsMemory.intro <;> simp +contextual [eraseDone]

@[simp] theorem scanPage_memory (repairable : Bool) (pos : PagePos) (pg : NandPage) (acc : State × ScanCount) :
    KeepsMemory (acc).1 (scanPage repairable pos pg acc).1 := by
  apply KeepsMemory.intro <;> simp +contextual [scanPage]

@[simp] theorem scanMember_memory (flushed : Bool) (m : MemberPtr) (acc : State × ScanCount) :
    KeepsMemory (acc).1 (scanMember flushed m acc).1 := by
  apply KeepsMemory.intro <;> simp +contextual [scanMember]

@[simp] theorem freeStale_memory (s : State) : KeepsMemory s (freeStale s) :=
  .intro id id fun h => (freeStale_wf { s with store := { s.store with slots := [] }, tier := { s.tier with lmem := [] } } ⟨rfl, rfl, h⟩).2.2

@[simp] theorem coldRebuild_memory (s : State) (ms : Nat) : KeepsMemory s (coldRebuild s ms) := by
  apply KeepsMemory.intro <;> simp +contextual [coldRebuild]

@[simp] theorem warmRebuild_memory (s : State) (bad : List Nat) (ms : Nat) : KeepsMemory s (warmRebuild s bad ms) := by
  apply KeepsMemory.intro <;> simp +contextual [warmRebuild]

/-- A block whose pages lose their tags still reads otherwise than one that is not listed, for it is being erased. -/
@[simp] theorem powerFlush_memory (s : State) (complete : Bool) (us : Nat) : KeepsMemory s (powerFlush s complete us) := by
  have torn : ∀ s : State, KeepsMemory s { s with flash := { s.flash with blocks := mmap (fun _ b => if b.erasing.isSome then
      { b with pages := mmap (fun _ p => { p with tagValid := false }) b.pages } else b) s.flash.blocks } } := fun s => by
    refine .intro id id fun h => ?_
    dsimp only
    refine canonical_mmap (m := s.flash.blocks) _ (fun k b hb => ?_) h
    split
    · rename_i he
      intro h
      rw [FlashBlock.mk.injEq] at h
      simp_all
    · exact hb
  have done : KeepsMemory s (s.flash.programs.foldl programDone { s with flash := { s.flash with stopped := true, programs := [] } }) :=
    .trans .of_eq (.foldl (fun s x => programDone_memory s x) _ _)
  unfold powerFlush
  exact ((done.trans (torn _)).trans (flushJournal_memory _)).trans .of_eq

@[simp] theorem setEntry_memory (s : State) (x : Nat) (f : ExtentEntry → ExtentEntry) : KeepsMemory s (setEntry s x f) := by
  simp only [setEntry]
  repeat' split
  all_goals apply KeepsMemory.intro <;> simp +contextual

@[simp] theorem putL_memory (s : State) (n : Nat) (t : Tile) (d : Bool) : KeepsMemory s (putL s n t d) := by
  apply KeepsMemory.intro <;> simp +contextual [putL]

@[simp] theorem putAt_memory (s : State) (p : BitVec 2 × Nat) (t : Tile) (e : ExtentEntry) (n : Nat) (bureau : Bool) :
    KeepsMemory s (putAt s p t e n bureau) := by
  simp only [putAt]
  repeat' split
  all_goals apply KeepsMemory.intro <;> simp +contextual

@[simp] theorem devWrite_memory (s : State) (n : Nat) (t : Tile) : KeepsMemory s (devWrite s n t) := by
  simp only [devWrite]
  repeat' split
  all_goals apply KeepsMemory.intro <;> simp +contextual

@[simp] theorem devPatch_memory (s : State) (addr : Nat) (data : Bytes) : KeepsMemory s (devPatch s addr data) := by
  simp only [devPatch]
  repeat' split
  all_goals apply KeepsMemory.intro <;> simp +contextual

@[simp] theorem tierReply_memory (s : State) (rq : TierReq) (x : Nat) (t : BitVec 7) (st : TierStatus) (tile : Option Tile) :
    KeepsMemory s (tierReply s rq x t st tile) := by
  apply KeepsMemory.intro <;> simp +contextual [tierReply]

@[simp] theorem tierFail_memory (s : State) (rq : TierReq) (x : Nat) (t : BitVec 7) (e : Option ExtentEntry) (st : TierStatus) (key : Nat) :
    KeepsMemory s (tierFail s rq x t e st key) := by
  simp only [tierFail]
  repeat' split
  all_goals apply KeepsMemory.intro <;> simp +contextual

@[simp] theorem setLost_memory (s : State) (x : Nat) (t : BitVec 7) : KeepsMemory s (setLost s x t) := by
  apply KeepsMemory.intro <;> simp +contextual [setLost]

@[simp] theorem clearLost_memory (s : State) (n : Nat) : KeepsMemory s (clearLost s n) := by
  apply KeepsMemory.intro <;> simp +contextual [clearLost]

@[simp] theorem putBack_memory (s : State) (dev n : Nat) (tl : Tile) (dirty : Bool) : KeepsMemory s (putBack s dev n tl dirty) := by
  apply KeepsMemory.intro <;> simp +contextual [putBack]

@[simp] theorem refetch_memory (s : State) (x n : Nat) (e : ExtentEntry) (t : BitVec 7) : KeepsMemory s (refetch s x n e t).1 := by
  simp only [refetch]
  repeat' split
  all_goals apply KeepsMemory.intro <;> simp +contextual

@[simp] theorem recoverWb_memory (s : State) (x n : Nat) (e : ExtentEntry) (t : BitVec 7) : KeepsMemory s (recoverWb s x n e t).1 := by
  have putBack_keeps := putBack_memory s (128 * x + t.toNat) n (Tile.sealed { hdr := (lTile s n).hdr, payload := List.replicate 16384 0 }) true
  have setLost_keeps := setLost_memory { s with pair := { s.pair with failedReads := without (BitVec.ofNat 48 ((128 * x + t.toNat) * 16384)) s.pair.failedReads } } x t
  unfold recoverWb
  dsimp only
  split
  · exact putBack_keeps.trans (.of_eq (by simp only [logEvent_frame]) (by simp only [logEvent_frame]) (by simp only [logEvent_frame]))
  · split
    · exact .of_eq
    · exact .trans .of_eq setLost_keeps

@[simp] theorem recoverL_memory (s : State) (x n : Nat) (e : ExtentEntry) (t : BitVec 7) : KeepsMemory s (recoverL s x n e t).1 := by
  simp only [recoverL]
  repeat' split
  all_goals ((try simp only [Prod.ext_iff] at *); (try casesm* _ ∧ _); (try subst_vars); apply KeepsMemory.intro <;> simp +contextual)

@[simp] theorem noteBursts_memory (s : State) (n : Nat) (r : BurstRead) : KeepsMemory s (noteBursts s n r) := by
  apply KeepsMemory.intro <;> simp +contextual [noteBursts]

@[simp] theorem readL_memory (s : State) (x n : Nat) (e : ExtentEntry) (t : BitVec 7) (f : BurstFault) :
    KeepsMemory s (readL s x n e t f).1 := by
  apply KeepsMemory.intro <;> simp +contextual [readL]

@[simp] theorem readS_memory (s : State) (x : Nat) (e : ExtentEntry) (t : BitVec 7) (n : Nat) : KeepsMemory s (readS s x e t n).1 := by
  simp only [readS]
  repeat' split
  all_goals apply KeepsMemory.intro <;> simp +contextual

@[simp] theorem readEntry_memory (s : State) (x : Nat) (e : ExtentEntry) (t : BitVec 7) (f : BurstFault) :
    KeepsMemory s (readEntry s x e t f).1 := by
  simp only [readEntry]
  repeat' split
  all_goals ((try simp only [Prod.ext_iff] at *); (try casesm* _ ∧ _); (try subst_vars); apply KeepsMemory.intro <;> simp +contextual)

@[simp] theorem dropCached_memory (s : State) (x : Nat) : KeepsMemory s (dropCached s x) := by
  apply KeepsMemory.intro <;> simp +contextual [dropCached]

@[simp] theorem keepTranslation_memory (s : State) (rq : TierReq) (x : Nat) (e : ExtentEntry) : KeepsMemory s (keepTranslation s rq x e) := by
  apply KeepsMemory.intro <;> simp +contextual [keepTranslation]

@[simp] theorem tierReadGo_memory (s : State) (rq : TierReq) (x : Nat) (t : BitVec 7) (e : ExtentEntry) (d : LoadDest) (f : BurstFault) :
    KeepsMemory s (tierReadGo s rq x t e d f) := by
  simp only [tierReadGo]
  repeat' split
  all_goals ((try simp only [Prod.ext_iff] at *); (try casesm* _ ∧ _); (try subst_vars); apply KeepsMemory.intro <;> simp +contextual)

@[simp] theorem tierRead_memory (s : State) (rq : TierReq) (x : Nat) (t : BitVec 7) (d : LoadDest) (f : BurstFault) :
    KeepsMemory s (tierRead s rq x t d f) := by
  simp only [tierRead]
  repeat' split
  all_goals apply KeepsMemory.intro <;> simp +contextual

@[simp] theorem tierWriteGo_memory (s : State) (w : PendWrite) (e : ExtentEntry) : KeepsMemory s (tierWriteGo s w e) := by
  apply KeepsMemory.intro <;> simp +contextual [tierWriteGo]

@[simp] theorem tierWrite_memory (s : State) (w : PendWrite) : KeepsMemory s (tierWrite s w) := by
  simp only [tierWrite]
  repeat' split
  all_goals apply KeepsMemory.intro <;> simp +contextual

@[simp] theorem tierUnblocked_memory (s : State) (i : Nat) : KeepsMemory s (tierUnblocked s i) := by
  simp only [tierUnblocked]
  repeat' split
  all_goals apply KeepsMemory.intro <;> simp +contextual

@[simp] theorem writeBack_memory (s : State) (x : Nat) (t : BitVec 7) (f : BurstFault) : KeepsMemory s (writeBack s x t f) := by
  simp only [writeBack]
  repeat' split
  all_goals ((try simp only [Prod.ext_iff] at *); (try casesm* _ ∧ _); (try subst_vars); apply KeepsMemory.intro <;> simp +contextual)

@[simp] theorem clearPlace_memory (s : State) (p : BitVec 2 × Nat) : KeepsMemory s (clearPlace s p) := by
  simp only [clearPlace]
  repeat' split
  all_goals apply KeepsMemory.intro <;> simp +contextual

@[simp] theorem fillTile_memory (x : Nat) (tier : BitVec 2) (loc : BitVec 25) (s : State) (t : Nat) :
    KeepsMemory s (fillTile x tier loc s t) := by
  simp only [fillTile]
  repeat' split
  all_goals apply KeepsMemory.intro <;> simp +contextual

@[simp] theorem migrateRoStart_memory (s : State) (x : Nat) (tier : BitVec 2) (loc : BitVec 25) :
    KeepsMemory s (migrateRoStart s x tier loc) := by
  simp only [migrateRoStart]
  repeat' split
  all_goals apply KeepsMemory.intro <;> simp +contextual

@[simp] theorem migrateRoSwitch_memory (s : State) (x : Nat) : KeepsMemory s (migrateRoSwitch s x) := by
  simp only [migrateRoSwitch]
  repeat' split
  all_goals apply KeepsMemory.intro <;> simp +contextual

@[simp] theorem freeLoc_memory (s : State) (tier : BitVec 2) (loc : BitVec 25) : KeepsMemory s (freeLoc s tier loc) := by
  apply KeepsMemory.intro <;> simp +contextual [freeLoc]

@[simp] theorem migrateRoDrainEnd_memory (s : State) (x : Nat) : KeepsMemory s (migrateRoDrainEnd s x) := by
  simp only [migrateRoDrainEnd]
  repeat' split
  all_goals apply KeepsMemory.intro <;> simp +contextual

@[simp] theorem migrateStart_memory (s : State) (x : Nat) (tier : BitVec 2) (loc : BitVec 25) :
    KeepsMemory s (migrateStart s x tier loc) := by
  simp only [migrateStart]
  repeat' split
  all_goals apply KeepsMemory.intro <;> simp +contextual

@[simp] theorem copyTile_memory (s : State) (x : Nat) (e : ExtentEntry) (t : Nat) : KeepsMemory s (copyTile s x e t) := by
  simp only [copyTile]
  repeat' split
  all_goals apply KeepsMemory.intro <;> simp +contextual

@[simp] theorem migrateTileCopy_memory (s : State) (x : Nat) : KeepsMemory s (migrateTileCopy s x) := by
  simp only [migrateTileCopy]
  repeat' split
  all_goals apply KeepsMemory.intro <;> simp +contextual

@[simp] theorem mr4Poll_memory (s : State) (pkg : BitVec 5) (temp : BitVec 16) (refresh : BitVec 8) (hot : Bool) :
    KeepsMemory s (mr4Poll s pkg temp refresh hot) := by
  apply KeepsMemory.intro <;> simp +contextual [mr4Poll]

@[simp] theorem wckCheck_memory (s : State) (sub : BitVec 8) (drift : Bool) : KeepsMemory s (wckCheck s sub drift) := by
  apply KeepsMemory.intro <;> simp +contextual [wckCheck]

@[simp] theorem retrainDone_memory (s : State) (sub : BitVec 8) : KeepsMemory s (retrainDone s sub) := by
  apply KeepsMemory.intro <;> simp +contextual [retrainDone]

@[simp] theorem trainPackage_memory (s : State) (k : Nat) : KeepsMemory s (trainPackage s k) := by
  apply KeepsMemory.intro <;> simp +contextual [trainPackage]

@[simp] theorem trainingDone_memory (s : State) (mts : BitVec 16) : KeepsMemory s (trainingDone s mts) := by
  apply KeepsMemory.intro <;> simp +contextual [trainingDone]

@[simp] theorem setStream_memory (s : State) (p : PartId) (f : StreamState → StreamState) : KeepsMemory s (setStream s p f) := by
  apply KeepsMemory.intro <;> simp +contextual [setStream]

@[simp] theorem streamGo_memory (s : State) (p : PartId) (plan : StreamPlan) (n : Nat) (x : ExtentEntry) (dest : TileIdx) (f : BurstFault) :
    KeepsMemory s (streamGo s p plan n x dest f) := by
  simp only [streamGo]
  repeat' split
  all_goals ((try simp only [Prod.ext_iff] at *); (try casesm* _ ∧ _); (try subst_vars); apply KeepsMemory.intro <;> simp +contextual)

@[simp] theorem streamWrite_memory (s : State) (p : PartId) (f : BurstFault) : KeepsMemory s (streamWrite s p f) := by
  simp only [streamWrite]
  repeat' split
  all_goals apply KeepsMemory.intro <;> simp +contextual

@[simp] theorem streamPoll_memory (s : State) (p : PartId) : KeepsMemory s (streamPoll s p) := by
  simp only [streamPoll]
  repeat' split
  all_goals apply KeepsMemory.intro <;> simp +contextual

@[simp] theorem leaveExtent_memory (s : State) (x : Nat) (e : ExtentEntry) (old : Nat) : KeepsMemory s (leaveExtent s x e old) := by
  simp only [leaveExtent]
  repeat' split
  all_goals apply KeepsMemory.intro <;> simp +contextual

@[simp] theorem refetchReadback_memory (s : State) (x : Nat) (t : BitVec 7) (good : Bool) : KeepsMemory s (refetchReadback s x t good) := by
  simp only [refetchReadback]
  repeat' split
  all_goals apply KeepsMemory.intro <;> simp +contextual

@[simp] theorem refillPoisoned_memory (s : State) (p : PartId) (e : Epoch) (i : TileIdx) : KeepsMemory s (refillPoisoned s p e i) := by
  simp only [refillPoisoned]
  repeat' split
  all_goals ((try simp only [Prod.ext_iff] at *); (try casesm* _ ∧ _); (try subst_vars); apply KeepsMemory.intro <;> simp +contextual)

@[simp] theorem writeOut_memory (s : State) (e : Engine) (sh : Share) (t : TileIdx) (h : TileHeader) (payload : Bytes) (f : Option (BitVec 8 × BitVec 16)) :
    KeepsMemory s (writeOut s e sh t h payload f) := by
  apply KeepsMemory.intro <;> simp +contextual [writeOut]

@[simp] theorem egress_memory (s : State) (v : VecOp) (g : Nat) (t : TileIdx) (h : TileHeader) : KeepsMemory s (egress s v g t h) := by
  simp only [egress]
  repeat' split
  all_goals apply KeepsMemory.intro <;> simp +contextual

@[simp] theorem putList_memory (s : State) (e : Engine) (sh : Share) (p : SelParams) (out : TileIdx) (l : SelList) :
    KeepsMemory s (putList s e sh p out l) := by
  apply KeepsMemory.intro <;> simp +contextual [putList]

@[simp] theorem selectOp_memory (s : State) (e : Engine) (p : SelParams) (input : SelInput) (out : TileIdx) (bucket : Bool) :
    KeepsMemory s (selectOp s e p input out bucket) := by
  simp only [selectOp]
  repeat' split
  all_goals apply KeepsMemory.intro <;> simp +contextual

@[simp] theorem selectMerge_memory (s : State) (e : Engine) (p : SelParams) (inputs : List TileIdx) (bucket : Bool) (out : TileIdx) :
    KeepsMemory s (selectMerge s e p inputs bucket out) := by
  simp only [selectMerge]
  repeat' split
  all_goals apply KeepsMemory.intro <;> simp +contextual

@[simp] theorem acceptLine_memory (s : State) (m src : Nat) (owner : Engine) (t : TileIdx) (l : ReadyLine) (tile : Tile) :
    KeepsMemory s (acceptLine s m src owner t l tile) := by
  simp only [acceptLine]
  repeat' split
  all_goals apply KeepsMemory.intro <;> simp +contextual

@[simp] theorem lineReread_memory (s : State) (m src : Nat) (owner : Engine) (t : TileIdx) (l : ReadyLine) (tile : Tile) :
    KeepsMemory s (lineReread s m src owner t l tile) := by
  simp only [lineReread]
  repeat' split
  all_goals apply KeepsMemory.intro <;> simp +contextual

@[simp] theorem phaseEnds_memory (s : State) (h : Nat) : KeepsMemory s (phaseEnds s h) := by
  apply KeepsMemory.intro <;> simp +contextual [phaseEnds]

@[simp] theorem freeHeld_memory (s : State) (h : Nat) : KeepsMemory s (freeHeld s h) := by
  simp only [freeHeld]
  repeat' split
  all_goals apply KeepsMemory.intro <;> simp +contextual

@[simp] theorem freePrompt_memory (s : State) (h : Nat) : KeepsMemory s (freePrompt s h) := by
  simp only [freePrompt]
  repeat' split
  all_goals apply KeepsMemory.intro <;> simp +contextual

@[simp] theorem freeScan_memory (s : State) (h : Nat) : KeepsMemory s (freeScan s h) := by
  simp only [freeScan]
  repeat' split
  all_goals apply KeepsMemory.intro <;> simp +contextual

theorem scanPut_memory (s : State) (h : Nat) (src : DieId) (ts : List Tile) : ∀ t, scanPut s h src ts = some t → KeepsMemory s t := by
  intro t ht
  simp only [scanPut, Option.bind_eq_some_iff, Option.map_eq_some_iff] at ht
  obtain ⟨-, -, r, hr, rfl⟩ := ht
  exact (conductorPut_memory _ _ _ _ _ hr).trans .of_eq

@[simp] theorem endRequest_memory (s : State) (h : Nat) (st : Status) (aux : BitVec 32) : KeepsMemory s (endRequest s h st aux) := by
  apply KeepsMemory.intro <;> simp +contextual [endRequest]

@[simp] theorem toPhase_memory (s : State) (h : Nat) (p : Phase) : KeepsMemory s (toPhase s h p) := by
  apply KeepsMemory.intro <;> simp +contextual [toPhase]

theorem rerunPhase_memory (s : State) (h : Nat) {again : State → State} (ha : ∀ s, KeepsMemory s (again s)) : KeepsMemory s (rerunPhase s h again) := by
  unfold rerunPhase
  split
  · exact .refl s
  · exact .ite (.trans .of_eq (endRequest_memory ..)) (.trans .of_eq (ha _))

@[simp] theorem walkStart_memory (s : State) (h : Nat) : KeepsMemory s (walkStart s h) := by
  simp only [walkStart]
  repeat' split
  all_goals apply KeepsMemory.intro <;> simp +contextual

@[simp] theorem walkEnd_memory (s : State) (h : Nat) (r : IndexRec) : KeepsMemory s (walkEnd s h r) := by
  unfold walkEnd
  split
  · exact .refl s
  · dsimp only
    split
    · exact .refl s
    · exact (scanPut_memory _ _ _ _ _ ‹_›).trans (.trans .of_eq (toPhase_memory ..))

@[simp] theorem walkRoundEnd_memory (s : State) (h : Nat) : KeepsMemory s (walkRoundEnd s h) := by
  simp only [walkRoundEnd]
  repeat' split
  all_goals apply KeepsMemory.intro <;> simp +contextual

@[simp] theorem scanIssue_memory (s : State) (h : Nat) : KeepsMemory s (scanIssue s h) := by
  simp only [scanIssue]
  repeat' split
  all_goals apply KeepsMemory.intro <;> simp +contextual

@[simp] theorem loseUnit_memory (s : State) (n : Nat) : KeepsMemory s (loseUnit s n) := by
  apply KeepsMemory.intro <;> simp +contextual [loseUnit]

@[simp] theorem unitArrive_memory (s : State) (h k u : Nat) (good : Bool) : KeepsMemory s (unitArrive s h k u good) := by
  simp only [unitArrive]
  repeat' split
  all_goals apply KeepsMemory.intro <;> simp +contextual

@[simp] theorem chainRead_memory (s : State) (n : Nat) : KeepsMemory s (chainRead s n).1 := by
  simp only [chainRead]
  repeat' split
  all_goals ((try simp only [Prod.ext_iff] at *); (try casesm* _ ∧ _); (try subst_vars); apply KeepsMemory.intro <;> simp +contextual)

@[simp] theorem chainArrive_memory (s : State) (h k t : Nat) : KeepsMemory s (chainArrive s h k t) := by
  have read {s u : State} {t : Nat} {x} (hx : chainRead s t = (u, x)) : KeepsMemory s u := by
    simpa only [hx] using chainRead_memory s t
  unfold chainArrive
  split
  · exact .refl s
  · split
    · dsimp only
      refine .ite (.refl s) ?_
      split
      · split
        · exact ((read ‹_›).trans (scanPut_memory _ _ _ _ _ ‹_›)).trans .of_eq
        · exact read ‹_›
      · exact read ‹_›
      · exact (read ‹_›).trans (endRequest_memory ..)
      · exact (read ‹_›).trans (endRequest_memory ..)
    · exact .refl s

theorem shelfWrites_memory (s : State) (h shelf : Nat) : ∀ t, shelfWrites s h shelf = some t → KeepsMemory s t := by
  intro t ht
  simp only [shelfWrites, Option.bind_eq_some_iff, Option.map_eq_some_iff] at ht
  obtain ⟨q, -, r, -, u, hu, rfl⟩ := ht
  exact .trans (.trans .of_eq (scanPut_memory _ _ _ _ _ hu)) .of_eq

/-- What goes on from the list a shelf engine wrote. -/
theorem shelfWrites_elim_memory (s : State) (h shelf : Nat) {f : State → State} (hf : ∀ s, KeepsMemory s (f s)) :
    KeepsMemory s ((shelfWrites s h shelf).elim s f) := by
  cases hw : shelfWrites s h shelf with
  | none => exact .refl s
  | some t => exact (shelfWrites_memory _ _ _ _ hw).trans (hf t)

@[simp] theorem scanCut_memory (s : State) (h shelf : Nat) : KeepsMemory s (scanCut s h shelf) := by
  unfold scanCut
  split
  · exact .refl s
  · exact .ite (shelfWrites_elim_memory _ _ _ fun s => .of_eq) (.refl s)

@[simp] theorem shelfEnd_memory (s : State) (h shelf : Nat) : KeepsMemory s (shelfEnd s h shelf) := by
  unfold shelfEnd
  split
  · exact .refl s
  · refine .ite ?_ (.refl s)
    cases hw : shelfWrites s h shelf with
    | none => exact .refl s
    | some t => exact shelfWrites_memory _ _ _ _ hw

@[simp] theorem searchFinal_memory (s : State) (h : Nat) : KeepsMemory s (searchFinal s h) := by
  simp only [searchFinal]
  repeat' split
  all_goals apply KeepsMemory.intro <;> simp +contextual

@[simp] theorem rescan_memory (s : State) (h : Nat) : KeepsMemory s (rescan s h) := by
  apply KeepsMemory.intro <;> simp +contextual [rescan]

@[simp] theorem mergeCandidates_memory (s : State) (h : Nat) : KeepsMemory s (mergeCandidates s h) := by
  unfold mergeCandidates
  split
  · exact .refl s
  · split
    · exact .refl s
    · dsimp only
      refine .ite (.refl s) (.ite (.trans (t := flagRequest s flagDupMismatch h) .of_eq (rerunPhase_memory _ _ fun s => rescan_memory s h)) ?_)
      split <;> apply KeepsMemory.intro <;> simp +contextual

@[simp] theorem fetchEnds_memory (s : State) (h : Nat) : KeepsMemory s (fetchEnds s h) := by
  simp only [fetchEnds]
  repeat' split
  all_goals apply KeepsMemory.intro <;> simp +contextual

@[simp] theorem passageFetch_memory (s : State) (h : Nat) : KeepsMemory s (passageFetch s h) := by
  simp only [passageFetch]
  repeat' split
  all_goals apply KeepsMemory.intro <;> simp +contextual

theorem unitTile_memory (s : State) (h n : Nat) (q : Request) (tl : Tile) : ∀ t, unitTile s h n q tl = some t → KeepsMemory s t.2 := by
  intro t ht
  unfold unitTile at ht
  split at ht
  · cases ht
    exact .refl s
  · simp only [Option.bind_eq_some_iff, Option.map_eq_some_iff] at ht
    obtain ⟨r, hr, i, -, rfl⟩ := ht
    exact (conductorPut_memory _ _ _ _ _ hr).trans .of_eq

@[simp] theorem passageArrive_memory (s : State) (h i : Nat) (good : Bool) : KeepsMemory s (passageArrive s h i good) := by
  unfold passageArrive
  split
  · exact .refl s
  · split
    · dsimp only
      refine .ite (.refl s) ?_
      split
      · split
        · exact (unitTile_memory _ _ _ _ _ _ ‹_›).trans (.trans .of_eq (fetchEnds_memory ..))
        · exact .refl s
      · exact .ite (.trans .of_eq (fetchEnds_memory ..)) (.ite (.of_eq)
          ((KeepsMemory.trans .of_eq (loseUnit_memory ..)).trans (endRequest_memory ..)))
    · exact .refl s

@[simp] theorem fetchBudget_memory (s : State) (h : Nat) : KeepsMemory s (fetchBudget s h) := by
  simp only [fetchBudget]
  repeat' split
  all_goals apply KeepsMemory.intro <;> simp +contextual

@[simp] theorem verifyTile_memory (a : State × Bool) (n : Nat) : KeepsMemory (a).1 (verifyTile a n).1 := by
  simp only [verifyTile]
  repeat' split
  all_goals ((try simp only [Prod.ext_iff] at *); (try casesm* _ ∧ _); (try subst_vars); apply KeepsMemory.intro <;> simp +contextual)

@[simp] theorem verifyTiles_memory (s : State) (l : List Nat) : KeepsMemory s (verifyTiles s l).1 := by
  apply KeepsMemory.intro <;> simp +contextual [verifyTiles]

@[simp] theorem verifySet_memory (s : State) (k : BitVec 2) : KeepsMemory s (verifySet s k).1 := by
  apply KeepsMemory.intro <;> simp +contextual [verifySet]

/-- What every way on keeps, the check of the sets before it keeps. -/
theorem useSets_memory (s : State) (ks : List (BitVec 2)) {bad f : State → State} (hb : ∀ s, KeepsMemory s (bad s)) (hf : ∀ s, KeepsMemory s (f s)) :
    KeepsMemory s (useSets s ks bad f) := by
  have sets (a : State × Bool) : KeepsMemory a.1
      (ks.foldl (fun (a : State × Bool) k => let b := verifySet a.1 k; (b.1, a.2 && b.2)) a).1 := by
    induction ks generalizing a with
    | nil => exact .refl _
    | cons k ks ih => exact (verifySet_memory a.1 k).trans (ih _)
  unfold useSets
  exact .ite ((sets (s, true)).trans (hf _)) ((sets (s, true)).trans (hb _))

@[simp] theorem tokCheckDone_memory (s : State) (k : BitVec 2) : KeepsMemory s (tokCheckDone s k) := by
  simp only [tokCheckDone]
  repeat' split
  all_goals apply KeepsMemory.intro <;> simp +contextual

@[simp] theorem tokensReceive_memory (s : State) (p : PartId) (slot mismatch : Nat) : KeepsMemory s (tokensReceive s p slot mismatch) := by
  unfold tokensReceive
  dsimp only
  split
  · exact .refl s
  · split
    · apply KeepsMemory.intro <;> simp +contextual
    · exact useSets_memory _ _ (fun s => .of_eq) (fun s => .of_eq)

theorem copyTemplate_memory (s : State) (h n : Nat) : ∀ t, copyTemplate s h n = some t → KeepsMemory s t := by
  intro t ht
  simp only [copyTemplate, Option.bind_eq_some_iff, Option.map_eq_some_iff] at ht
  obtain ⟨r, -, tl, -, x, hx, rfl⟩ := ht
  exact (conductorPut_memory _ _ _ _ _ hx).trans .of_eq

@[simp] theorem rerankStart_memory (s : State) (h : Nat) : KeepsMemory s (rerankStart s h) := by
  unfold rerankStart
  split
  · exact .refl s
  · rename_i q _
    dsimp only
    refine .ite (.refl s) (.trans (t := modReq s h fun q' => { q' with ret := { q'.ret with cands := heldCands q } }) .of_eq ?_)
    refine .ite (.ite (.refl _) (toPhase_memory ..)) ?_
    split
    · exact .ite (endRequest_memory ..) .of_eq
    · split
      · exact .of_eq
      · refine useSets_memory _ _ (fun s => endRequest_memory ..) fun s => ?_
        apply KeepsMemory.intro <;> simp +contextual

@[simp] theorem rerankFinal_memory (s : State) (h : Nat) : KeepsMemory s (rerankFinal s h) := by
  simp only [rerankFinal]
  repeat' split
  all_goals apply KeepsMemory.intro <;> simp +contextual

@[simp] theorem rerankEnd_memory (s : State) (h : Nat) : KeepsMemory s (rerankEnd s h) := by
  simp only [rerankEnd]
  repeat' split
  all_goals apply KeepsMemory.intro <;> simp +contextual

@[simp] theorem packTurn_memory (s : State) (h : Nat) (q : Request) (t : Bytes) : KeepsMemory s (packTurn s h q t) := by
  unfold packTurn
  dsimp only
  split
  · exact .refl s
  · refine .trans (.trans ?_ (conductorPut_memory _ _ _ _ _ ‹_›)) (.trans ?_ (toPhase_memory ..))
    · exact .of_eq
    · exact .of_eq

@[simp] theorem packStart_memory (s : State) (h : Nat) : KeepsMemory s (packStart s h) := by
  simp only [packStart]
  repeat' split
  all_goals apply KeepsMemory.intro <;> simp +contextual

@[simp] theorem promptReady_memory (s : State) (h : Nat) (good : Bool) : KeepsMemory s (promptReady s h good) := by
  unfold promptReady
  split
  · exact .refl s
  · refine .ite (.refl s) (.ite (endRequest_memory ..) (.ite ((freePrompt_memory ..).trans (rerunPhase_memory _ _ fun s => .of_eq)) (.ite (.refl s) ?_)))
    dsimp only
    split <;> apply KeepsMemory.intro <;> simp +contextual

@[simp] theorem mutPatch_memory (s : State) (i : Nat) (u : Bool) (addr : Nat) (data : Bytes) : KeepsMemory s (mutPatch s i u addr data) := by
  apply KeepsMemory.intro <;> simp +contextual [mutPatch]

@[simp] theorem setDir_memory (s : State) (i : Nat) (u : Bool) (l : Nat) (f : Nat → Nat) : KeepsMemory s (setDir s i u l f) := by
  simp only [setDir]
  repeat' split
  all_goals apply KeepsMemory.intro <;> simp +contextual

@[simp] theorem freshTile_memory (s : State) (r : IndexRec) (t : Nat) (trailer : Bytes) (off : Nat) : KeepsMemory s (freshTile s r t trailer off) :=
  devWrite_memory s t _

theorem takeDelta_memory (s : State) (i : Nat) : ∀ t, takeDelta s i = some t → KeepsMemory s t.2 := fun t h => by
  obtain ⟨-, hs, ht, -, -, -, -, hf, -⟩ := takeDelta_frame _ _ t h
  exact .of_eq (by rw [hs]) (by rw [ht]) (by rw [hf])

theorem deltaTail_memory (s : State) (i : Nat) (u : Bool) (l : Nat) (r : IndexRec) : ∀ t, deltaTail s i u l r = some t → KeepsMemory s t.2 := by
  intro t ht
  unfold deltaTail at ht
  cases hl : (deltaChain s (dirEntry s r l)).getLast? with
  | none =>
    simp only [hl, Bool.not_true, Bool.false_eq_true, if_false, Option.map_eq_some_iff] at ht
    obtain ⟨⟨n, s'⟩, hx, rfl⟩ := ht
    refine .trans (takeDelta_memory _ _ _ hx) ?_
    apply KeepsMemory.intro <;> simp +contextual
  | some c =>
    simp only [hl] at ht
    split at ht
    · cases ht
      exact .refl s
    · simp only [Option.map_eq_some_iff] at ht
      obtain ⟨⟨n, s'⟩, hx, rfl⟩ := ht
      refine .trans (takeDelta_memory _ _ _ hx) ?_
      apply KeepsMemory.intro <;> simp +contextual

@[simp] theorem appendEntry_memory (s : State) (i : Nat) (u : Bool) (l : Nat) (e : Bytes) : KeepsMemory s (appendEntry s i u l e) := by
  unfold appendEntry
  split
  · exact .refl s
  · split
    · exact .refl s
    · refine (deltaTail_memory _ _ _ _ _ _ ‹_›).trans ?_
      dsimp only
      split <;> apply KeepsMemory.intro <;> simp +contextual

theorem takeTomb_memory (s : State) (i : Nat) : ∀ t, takeTomb s i = some t → KeepsMemory s t.2 := fun t h => by
  obtain ⟨-, hs, ht, -, -, -, -, hf, -⟩ := takeTomb_frame _ _ t h
  exact .of_eq (by rw [hs]) (by rw [ht]) (by rw [hf])

theorem tombTail_memory (s : State) (i : Nat) (u : Bool) (l : Nat) (r : IndexRec) : ∀ t, tombTail s i u l r = some t → KeepsMemory s t.2 := by
  intro t ht
  unfold tombTail at ht
  dsimp only at ht
  split at ht
  · simp only [Option.map_eq_some_iff] at ht
    obtain ⟨-, -, rfl⟩ := ht
    exact .refl s
  · simp only [Option.map_eq_some_iff] at ht
    obtain ⟨⟨n, s'⟩, hx, rfl⟩ := ht
    refine .trans (takeTomb_memory _ _ _ hx) ?_
    split <;> apply KeepsMemory.intro <;> simp +contextual

@[simp] theorem appendTomb_memory (s : State) (i : Nat) (u : Bool) (l pid del : Nat) : KeepsMemory s (appendTomb s i u l pid del) := by
  unfold appendTomb
  split
  · exact .refl s
  · split
    · exact .refl s
    · refine (tombTail_memory _ _ _ _ _ _ ‹_›).trans ?_
      dsimp only
      split <;> apply KeepsMemory.intro <;> simp +contextual

@[simp] theorem putBlock_memory (s : State) (i : Nat) (u : Bool) (pid : Nat) (b : Bytes) : KeepsMemory s (putBlock s i u pid b) := by
  simp only [putBlock]
  repeat' split
  all_goals apply KeepsMemory.intro <;> simp +contextual

@[simp] theorem writeBatch_memory (s : State) (i : Nat) (u : Bool) (epoch : Nat) (es : List (Nat × Bytes)) (ts : List (Nat × Nat)) (bs : List (Nat × Bytes)) :
    KeepsMemory s (writeBatch s i u epoch es ts bs) := by
  apply KeepsMemory.intro <;> simp +contextual [writeBatch]

@[simp] theorem roWrite_memory (s : State) (n : Nat) (t : Tile) : KeepsMemory s (roWrite s n t) := by
  simp only [roWrite]
  repeat' split
  all_goals apply KeepsMemory.intro <;> simp +contextual

@[simp] theorem forwardCentroid_memory (s : State) (r : IndexRec) (c new : Nat) : KeepsMemory s (forwardCentroid s r c new) := by
  simp only [forwardCentroid]
  repeat' split
  all_goals apply KeepsMemory.intro <;> simp +contextual

@[simp] theorem applyPatch_memory (i : Nat) (s : State) (p : Nat × Nat) : KeepsMemory s (applyPatch i s p) := by
  simp only [applyPatch]
  repeat' split
  all_goals apply KeepsMemory.intro <;> simp +contextual

@[simp] theorem startCompaction_memory (i : Nat) (s : State) (l : Nat) : KeepsMemory s (startCompaction i s l) := by
  simp only [startCompaction]
  repeat' split
  all_goals apply KeepsMemory.intro <;> simp +contextual

@[simp] theorem makeVisible_memory (s : State) (i : Nat) (patches : List (Nat × Nat)) (epoch : Epoch) :
    KeepsMemory s (makeVisible s i patches epoch) := by
  simp only [makeVisible]
  repeat' split
  all_goals apply KeepsMemory.intro <;> simp +contextual

@[simp] theorem rollbackBatch_memory (s : State) (i : Nat) : KeepsMemory s (rollbackBatch s i) := by
  simp only [rollbackBatch]
  repeat' split
  all_goals apply KeepsMemory.intro <;> simp +contextual

@[simp] theorem runBatch_memory (s : State) (h : Nat) (swapOk : Bool) : KeepsMemory s (runBatch s h swapOk) := by
  simp only [runBatch]
  repeat' split
  all_goals apply KeepsMemory.intro <;> simp +contextual

@[simp] theorem drainBatches_memory (s : State) (i : Nat) (swapOk : Bool) (k : Nat) : KeepsMemory s (drainBatches s i swapOk k) := by
  induction k generalizing s with
  | zero => exact .refl s
  | succ k ih =>
    unfold drainBatches
    split
    · exact .refl s
    · split
      · exact .trans (.trans .of_eq (runBatch_memory ..)) (ih _)
      · exact .refl s

@[simp] theorem acceptBatch_memory (s : State) (h i : Nat) (swapOk : Bool) : KeepsMemory s (acceptBatch s h i swapOk) := by
  apply KeepsMemory.intro <;> simp +contextual [acceptBatch]

@[simp] theorem batchAnswered_memory (s : State) (h : Nat) (st : Status) (swapOk : Bool) : KeepsMemory s (batchAnswered s h st swapOk) := by
  simp only [batchAnswered]
  repeat' split
  all_goals apply KeepsMemory.intro <;> simp +contextual

@[simp] theorem applyIndexBody_memory (s : State) (i : Nat) (epoch : Epoch) (es : List (Nat × Bytes)) (ts : List (Nat × Nat)) (bs : List (Nat × Bytes)) (ps : List (Nat × Nat)) (ws : List (Nat × Tile)) (next : BitVec 40) :
    KeepsMemory s (applyIndexBody s i epoch es ts bs ps ws next).1 := by
  simp only [applyIndexBody]
  repeat' split
  all_goals apply KeepsMemory.intro <;> simp +contextual

@[simp] theorem compactionSwitch_memory (s : State) (i l base : Nat) : KeepsMemory s (compactionSwitch s i l base) := by
  simp only [compactionSwitch]
  repeat' split
  all_goals apply KeepsMemory.intro <;> simp +contextual

theorem KeepsMemory.setIndex {s t : State} {i : Nat} {f : IndexRec → IndexRec} (h : KeepsMemory s t) : KeepsMemory s (setIndex t i f) := h.trans .of_eq

@[simp] theorem compactionFree_memory (s : State) (i l : Nat) : KeepsMemory s (compactionFree s i l) := by
  unfold compactionFree
  split
  · exact .refl s
  · split
    · exact .refl s
    · refine .ite (.refl s) (.setIndex (.trans (.foldl (fun s n => ?_) _ _) (.foldl (fun s p => devPatch_memory ..) _ _)))
      split
      · exact .ite (trimUnit_memory ..) (.refl _)
      · exact .refl _

@[simp] theorem dropHot_memory (p : PartId) (s : State) (t : TileIdx) : KeepsMemory s (dropHot p s t) := by
  apply KeepsMemory.intro <;> simp +contextual [dropHot]

@[simp] theorem hotCopy_memory (s : State) (t k : Nat) : KeepsMemory s (hotCopy s t k) := by
  simp only [hotCopy]
  repeat' split
  all_goals apply KeepsMemory.intro <;> simp +contextual

@[simp] theorem rebuildHot_memory (s : State) (p : PartId) : KeepsMemory s (rebuildHot s p) := by
  apply KeepsMemory.intro <;> simp +contextual [rebuildHot]

@[simp] theorem countRow_memory (t : Nat) (s : State) (row : Nat) : KeepsMemory s (countRow t s row) := by
  simp only [countRow]
  repeat' split
  all_goals apply KeepsMemory.intro <;> simp +contextual

@[simp] theorem lookupDone_memory (s : State) (h : Nat) : KeepsMemory s (lookupDone s h) := by
  simp only [lookupDone]
  repeat' split
  all_goals ((try simp only [Prod.ext_iff] at *); (try casesm* _ ∧ _); (try subst_vars); apply KeepsMemory.intro <;> simp +contextual)

@[simp] theorem writeImage_memory (s : State) (t : Nat) (row : Nat) (v : List Word) (h : Option Nat) :
    KeepsMemory s (writeImage s t row v h) := by
  simp only [writeImage]
  repeat' split
  all_goals apply KeepsMemory.intro <;> simp +contextual

@[simp] theorem writeEntry_memory (s : State) (t : Nat) (x : Nat × Nat) : KeepsMemory s (writeEntry s t x) := by
  simp only [writeEntry]
  repeat' split
  all_goals apply KeepsMemory.intro <;> simp +contextual

@[simp] theorem undoRows_memory (s : State) (t h : Nat) : KeepsMemory s (undoRows s t h) := by
  simp only [undoRows]
  repeat' split
  all_goals apply KeepsMemory.intro <;> simp +contextual

@[simp] theorem updateFails_memory (s : State) (t h : Nat) (st : Status) : KeepsMemory s (updateFails s t h st) := by
  simp only [updateFails]
  repeat' split
  all_goals apply KeepsMemory.intro <;> simp +contextual

@[simp] theorem updateCommit_memory (lost : List Tenant) (s : State) (h : Nat) : KeepsMemory s (updateCommit lost s h) := by
  simp only [updateCommit]
  repeat' split
  all_goals ((try simp only [Prod.ext_iff] at *); (try casesm* _ ∧ _); (try subst_vars); apply KeepsMemory.intro <;> simp +contextual)

@[simp] theorem updateAnswered_memory (s : State) (h : Nat) (st : Status) : KeepsMemory s (updateAnswered s h st) := by
  simp only [updateAnswered]
  repeat' split
  all_goals apply KeepsMemory.intro <;> simp +contextual

@[simp] theorem writeMirrored_memory (t : Nat) (s : State) (b : MirrorBatch) : KeepsMemory s (writeMirrored t s b) := by
  apply KeepsMemory.intro <;> simp +contextual [writeMirrored]

@[simp] theorem writeAllMirrored_memory (s : State) (p : PartId) : KeepsMemory s (writeAllMirrored s p) := by
  apply KeepsMemory.intro <;> simp +contextual [writeAllMirrored]

@[simp] theorem halveCounters_memory (s : State) (r : TableRec) : KeepsMemory s (halveCounters s r) := by
  apply KeepsMemory.intro <;> simp +contextual [halveCounters]

@[simp] theorem tableRefresh_memory (s : State) (t : Nat) : KeepsMemory s (tableRefresh s t) := by
  simp only [tableRefresh]
  repeat' split
  all_goals apply KeepsMemory.intro <;> simp +contextual

@[simp] theorem fillRow_memory (t : Nat) (acc : State × List (Nat × Nat)) (x : Nat × BitVec 2) : KeepsMemory (acc).1 (fillRow t acc x).1 := by
  simp only [fillRow]
  repeat' split
  all_goals apply KeepsMemory.intro <;> simp +contextual

@[simp] theorem switchBatch_memory (s : State) (t : Nat) (r : TableRec) (b : MigBatch) (ok : Bool) :
    KeepsMemory s (switchBatch s t r b ok) := by
  apply KeepsMemory.intro <;> simp +contextual [switchBatch]

@[simp] theorem migrateTable_memory (lost : List Tenant) (s : State) (t : Nat) : KeepsMemory s (migrateTable lost s t) := by
  simp only [migrateTable]
  repeat' split
  all_goals apply KeepsMemory.intro <;> simp +contextual

@[simp] theorem migrateTables_memory (lost : List Tenant) (s : State) (p : PartId) : KeepsMemory s (migrateTables lost s p) := by
  apply KeepsMemory.intro <;> simp +contextual [migrateTables]

@[simp] theorem freeHotOld_memory (s : State) (p : PartId) : KeepsMemory s (freeHotOld s p) := by
  apply KeepsMemory.intro <;> simp +contextual [freeHotOld]

@[simp] theorem writeTables_memory (s : State) (p : PartId) (g : Program) (n : Nat) (tn : Tenant) (pages : List (Nat × Nat)) (positions : Nat) :
    KeepsMemory s (writeTables s p g n tn pages positions).2 := by
  simp only [writeTables]
  repeat' split
  all_goals apply KeepsMemory.intro <;> simp +contextual

@[simp] theorem readPage_memory (s : State) (p : PartId) (sl : SlotRec) (n : Nat) (f : BurstFault) :
    KeepsMemory s (readPage s p sl n f).1 := by
  simp only [readPage]
  repeat' split
  all_goals ((try simp only [Prod.ext_iff] at *); (try casesm* _ ∧ _); (try subst_vars); apply KeepsMemory.intro <;> simp +contextual)

@[simp] theorem kvPageWrite_memory (s : State) (p : PartId) (slot page : Nat) (rows : PageRows) :
    KeepsMemory s (kvPageWrite s p slot page rows) := by
  simp only [kvPageWrite]
  repeat' split
  all_goals ((try simp only [Prod.ext_iff] at *); (try casesm* _ ∧ _); (try subst_vars); apply KeepsMemory.intro <;> simp +contextual)

@[simp] theorem sendRecords_memory (s : State) (p : PartId) (sub : Nat) : KeepsMemory s (sendRecords s p sub) := by
  simp only [sendRecords]
  repeat' split
  all_goals apply KeepsMemory.intro <;> simp +contextual

theorem KeepsMemory.setStep {s t : State} {p : PartId} {f : Step → Step} (h : KeepsMemory s t) : KeepsMemory s (setStep t p f) := h.trans .of_eq

@[simp] theorem finishStripe_memory (s : State) (p : PartId) (w n : Nat) (y : StripePartial) : KeepsMemory s (finishStripe s p w n y) := by
  have sent {s t : State} {c : Prop} [Decidable c] (h : KeepsMemory s t) : KeepsMemory s (if c then sendRecords t p y.sub else t) :=
    h.trans (.ite (sendRecords_memory ..) (.refl t))
  have due {s : State} : KeepsMemory s (if y.val.isSome then Machine.setStep s p fun st => { st with recordsDue := st.recordsDue ++ [y] } else s) :=
    .ite .of_eq (.refl s)
  have rows {s t : State} {l : List (Option StripePartial)} (h : KeepsMemory s t) : KeepsMemory s
      (l.foldl (fun s x => match x with | some x => sendRecords s p x.sub | none => s) t) :=
    h.trans (.foldl (fun s x => by cases x with | none => exact .refl s | some x => exact sendRecords_memory ..) _ _)
  unfold finishStripe
  dsimp only
  refine .ite (.refl s) (.ite (sent due) ?_)
  split
  · exact .setStep (rows (sent due))
  · exact rows (sent due)

@[simp] theorem attentionPage_memory (s : State) (a : AttentionOp) : KeepsMemory s (attentionPage s a) := by
  simp only [attentionPage]
  repeat' split
  all_goals ((try simp only [Prod.ext_iff] at *); (try casesm* _ ∧ _); (try subst_vars); apply KeepsMemory.intro <;> simp +contextual)

@[simp] theorem putRecords_memory (s : State) (src : DieId) (t : Nat) (ts : List Tile) : KeepsMemory s (putRecords s src t ts) := by
  apply KeepsMemory.intro <;> simp +contextual [putRecords]

@[simp] theorem drawServe_memory (s : State) (p : PartId) : KeepsMemory s (drawServe s p) := by
  apply KeepsMemory.intro <;> simp +contextual [drawServe]

@[simp] theorem maskRequest_memory (s : State) (p : PartId) (slot : Nat) : KeepsMemory s (maskRequest s p slot) := by
  simp only [maskRequest]
  repeat' split
  all_goals ((try simp only [Prod.ext_iff] at *); (try casesm* _ ∧ _); (try subst_vars); apply KeepsMemory.intro <;> simp +contextual)

@[simp] theorem writeImages_memory (s : State) (p : PartId) (e : Engine) : KeepsMemory s (writeImages s p e) := by
  apply KeepsMemory.intro <;> simp +contextual [writeImages]

@[simp] theorem checkRecordWrite_memory (s : State) (c : CheckRecord) (outs : List (Nat × Nat × List Word)) :
    KeepsMemory s (checkRecordWrite s c outs) := by
  apply KeepsMemory.intro <;> simp +contextual [checkRecordWrite]

@[simp] theorem endWaiting_memory (s : State) (h k : Nat) (st : Status) (aux : BitVec 32) : KeepsMemory s (endWaiting s h k st aux) := by
  simp only [endWaiting]
  repeat' split
  all_goals apply KeepsMemory.intro <;> simp +contextual

@[simp] theorem endItem_memory (s : State) (i : Item) (st : Status) (aux : BitVec 32) : KeepsMemory s (endItem s i st aux) := by
  simp only [endItem]
  repeat' split
  all_goals apply KeepsMemory.intro <;> simp +contextual

@[simp] theorem removeItems_memory (s : State) (p : PartId) (st : Status) (h : Nat) : KeepsMemory s (removeItems s p st h) := by
  apply KeepsMemory.intro <;> simp +contextual [removeItems]

@[simp] theorem removeRequest_memory (s : State) (p : PartId) (st : Status) (h : Nat) : KeepsMemory s (removeRequest s p st h) := by
  apply KeepsMemory.intro <;> simp +contextual [removeRequest]

@[simp] theorem leaveStep_memory (s : State) (p : PartId) (h : Nat) : KeepsMemory s (leaveStep s p h) := by
  apply KeepsMemory.intro <;> simp +contextual [leaveStep]

@[simp] theorem endAll_memory (s : State) (p : PartId) (st : Status) : KeepsMemory s (endAll s p st) := by
  apply KeepsMemory.intro <;> simp +contextual [endAll]

@[simp] theorem failPartition_memory (s : State) (p : PartId) (e : Nat) : KeepsMemory s (failPartition s p e) := by
  apply KeepsMemory.intro <;> simp +contextual [failPartition]

@[simp] theorem stepFailed_memory (s : State) (p : PartId) (f : FaultInfo) : KeepsMemory s (stepFailed s p f) := by
  apply KeepsMemory.intro <;> simp +contextual [stepFailed]

@[simp] theorem refuse_memory (p : PartId) (s : State) (x : Nat × Status) : KeepsMemory s (refuse p s x) := by
  apply KeepsMemory.intro <;> simp +contextual [refuse]

@[simp] theorem removeRefused_memory (s : State) (p : PartId) : KeepsMemory s (removeRefused s p) := by
  simp only [removeRefused]
  repeat' split
  all_goals apply KeepsMemory.intro <;> simp +contextual

@[simp] theorem removeSaturated_memory (s : State) (p : PartId) : KeepsMemory s (removeSaturated s p) := by
  have end1 (q : Partition) (s : State) (h : Nat) : KeepsMemory s (leaveStep (faultEnds s 1 (leadEngine q).val 0x13 6 p.toNat) p h) := by
    apply KeepsMemory.intro <;> simp +contextual
  unfold removeSaturated
  dsimp only
  refine .ite (.refl s) (.foldl (fun s o => ?_) _ _)
  split
  · exact end1 ..
  · exact .foldl (end1 _) _ _

@[simp] theorem restartStream_memory (s : State) (p : PartId) (e : Epoch) : KeepsMemory s (restartStream s p e) := by
  simp only [restartStream]
  repeat' split
  all_goals apply KeepsMemory.intro <;> simp +contextual

@[simp] theorem reissue_memory (s : State) (p : PartId) (f : Step → Step) (why : Option Suspect) : KeepsMemory s (reissue s p f why) := by
  apply KeepsMemory.intro <;> simp +contextual [reissue]

@[simp] theorem countedFailure_memory (s : State) (p : PartId) (sus : List Suspect) (hung : List Engine) (sat : Bool) :
    KeepsMemory s (countedFailure s p sus hung sat) := by
  simp only [countedFailure]
  repeat' split
  all_goals apply KeepsMemory.intro <;> simp +contextual

@[simp] theorem removeRefusedWrite_memory (s : State) (p : PartId) (q : Partition) : KeepsMemory s (removeRefusedWrite s p q).1 := by
  simp only [removeRefusedWrite]
  repeat' split
  all_goals apply KeepsMemory.intro <;> simp +contextual

@[simp] theorem failStep_memory (s : State) (p : PartId) (wd : Bool) (hung : List Engine) : KeepsMemory s (failStep s p wd hung) := by
  apply KeepsMemory.intro <;> simp +contextual [failStep]

@[simp] theorem stepWatchdog_memory (s : State) (p : PartId) (hung : List Engine) : KeepsMemory s (stepWatchdog s p hung) := by
  apply KeepsMemory.intro <;> simp +contextual [stepWatchdog]

@[simp] theorem inputDone_memory (s : State) (h : Nat) (v : List Word) : KeepsMemory s (inputDone s h v) := by
  simp only [inputDone]
  repeat' split
  all_goals apply KeepsMemory.intro <;> simp +contextual

@[simp] theorem endCancelledPairs_memory (s : State) (h : Nat) : KeepsMemory s (endCancelledPairs s h) := by
  simp only [endCancelledPairs]
  repeat' split
  all_goals apply KeepsMemory.intro <;> simp +contextual

@[simp] theorem itemDone_memory (st : Step) (s : State) (i : Item) : KeepsMemory s (itemDone st s i) := by
  simp only [itemDone]
  repeat' split
  all_goals apply KeepsMemory.intro <;> simp +contextual

@[simp] theorem commitItems_memory (s : State) (p : PartId) (st : Step) (unload : Bool) : KeepsMemory s (commitItems s p st unload) := by
  apply KeepsMemory.intro <;> simp +contextual [commitItems]

@[simp] theorem commitUpdates_memory (s : State) (st : Step) (lost : List Tenant) (unload : Bool) :
    KeepsMemory s (commitUpdates s st lost unload) := by
  apply KeepsMemory.intro <;> simp +contextual [commitUpdates]

@[simp] theorem switchOne_memory (p : PartId) (s : State) (e : Engine) : KeepsMemory s (switchOne p s e) := by
  simp only [switchOne]
  repeat' split
  all_goals apply KeepsMemory.intro <;> simp +contextual

@[simp] theorem switchMappings_memory (s : State) (p : PartId) : KeepsMemory s (switchMappings s p) := by
  apply KeepsMemory.intro <;> simp +contextual [switchMappings]

@[simp] theorem purgeRings_memory (s : State) (p : PartId) : KeepsMemory s (purgeRings s p) := by
  apply KeepsMemory.intro <;> simp +contextual [purgeRings]

@[simp] theorem fillSlot_memory (s : State) (p : PartId) (i : Item) (n : Nat) (pages : List (Nat × Nat)) (left : Map (List Nat)) (v : Option Nat) :
    KeepsMemory s (fillSlot s p i n pages left v) := by
  simp only [fillSlot]
  repeat' split
  all_goals apply KeepsMemory.intro <;> simp +contextual

@[simp] theorem admitHead_memory (s : State) (p : PartId) (g : Program) (t : Nat) (i : Item) : KeepsMemory s (admitHead s p g t i).1 := by
  simp only [admitHead]
  repeat' split
  all_goals apply KeepsMemory.intro <;> simp +contextual

@[simp] theorem admitLoop_memory (p : PartId) (k : Nat) (blocked : List Nat) (s : State) : KeepsMemory s (admitLoop p k blocked s) := by
  induction k generalizing blocked s with
  | zero => exact .refl s
  | succ k ih =>
    unfold admitLoop
    dsimp only
    split
    · exact .refl s
    · refine .ite (.refl s) ?_
      split
      · exact .ite (.refl s) (.trans .of_eq (ih _ _))
      · split
        · exact .of_eq
        · exact .trans (.trans .of_eq (admitHead_memory ..)) (ih _ _)

@[simp] theorem admitItems_memory (s : State) (p : PartId) : KeepsMemory s (admitItems s p) := by
  apply KeepsMemory.intro <;> simp +contextual [admitItems]

@[simp] theorem requestDraws_memory (s : State) (p : PartId) : KeepsMemory s (requestDraws s p) := by
  apply KeepsMemory.intro <;> simp +contextual [requestDraws]

@[simp] theorem openStep_memory (s : State) (p : PartId) : KeepsMemory s (openStep s p) := by
  apply KeepsMemory.intro <;> simp +contextual [openStep]

@[simp] theorem commitStep_memory (s : State) (p : PartId) (lost : List Tenant) : KeepsMemory s (commitStep s p lost) := by
  apply KeepsMemory.intro <;> simp +contextual [commitStep]

@[simp] theorem idleBoundary_memory (s : State) (p : PartId) (lost : List Tenant) : KeepsMemory s (idleBoundary s p lost) := by
  apply KeepsMemory.intro <;> simp +contextual [idleBoundary]

@[simp] theorem stepBoundary_memory (s : State) (p : PartId) (lost : List Tenant) : KeepsMemory s (stepBoundary s p lost) := by
  simp only [stepBoundary]
  repeat' split
  all_goals apply KeepsMemory.intro <;> simp +contextual

@[simp] theorem windowPut_memory (s : State) (off : Nat) (data : Bytes) : KeepsMemory s (windowPut s off data) := by
  apply KeepsMemory.intro <;> simp +contextual [windowPut]

@[simp] theorem storeEntry_memory (s : State) (x : Nat) (l : BitVec 11) (e : ExtentEntry) : KeepsMemory s (storeEntry s x l e) := by
  apply KeepsMemory.intro <;> simp +contextual [storeEntry]

theorem mapPool_memory (s : State) (p : PartId) (ls : List Nat) : ∀ t, mapPool s p ls = some t → KeepsMemory s t.2 := by
  have shares (m : List (Nat × Nat)) (o : Option State) : ∀ t, m.foldl (mapShare p) o = some t → ∃ u, o = some u ∧ KeepsMemory u t := by
    induction m generalizing o with
    | nil => exact fun t h => ⟨t, h, .refl t⟩
    | cons y m ih =>
      intro t h
      obtain ⟨u, hu, hk⟩ := ih _ t h
      simp only [mapShare, Option.bind_eq_some_iff, Option.map_eq_some_iff] at hu
      obtain ⟨v, rfl, l, -, rfl⟩ := hu
      exact ⟨v, rfl, .trans (storeEntry_memory ..) hk⟩
  intro t h
  simp only [mapPool, Option.map_eq_some_iff] at h
  obtain ⟨u, hu, rfl⟩ := h
  obtain ⟨v, hv, hk⟩ := shares _ _ _ hu
  cases hv
  exact hk

@[simp] theorem dropPool_memory (s : State) (q : Partition) : KeepsMemory s (dropPool s q) := by
  refine .foldl (fun s y => ?_) _ _
  split
  · exact .of_eq
  · exact .refl _

@[simp] theorem pinPlan_memory (s : State) (g : Program) (on : Bool) : KeepsMemory s (pinPlan s g on) := by
  apply KeepsMemory.intro <;> simp +contextual [pinPlan]

@[simp] theorem releaseShares_memory (s : State) (p : PartId) : KeepsMemory s (releaseShares s p) := by
  simp only [releaseShares]
  repeat' split
  all_goals apply KeepsMemory.intro <;> simp +contextual

theorem takeL_memory (s : State) (g : Program) {x : List Nat × List Nat × State} (h : takeL s g = some x) : KeepsMemory s x.2.2 := by
  unfold takeL at h
  dsimp only at h
  split at h
  · cases h
    exact .of_eq
  · cases h

@[simp] theorem placeProgram_memory (s : State) (p : PartId) (g : Program) (m : Nat) : KeepsMemory s (placeProgram s p g m) := by
  unfold placeProgram
  split
  · exact .refl s
  · rename_i h
    simp only [Option.bind_eq_some_iff, Option.map_eq_some_iff] at h
    obtain ⟨x, ht, y, hm, hx⟩ := h
    cases hx
    refine ((takeL_memory s g ht).trans (mapPool_memory _ _ _ _ hm)).trans ?_
    apply KeepsMemory.intro <;> simp +contextual

@[simp] theorem withoutShares_memory (s : State) (p : PartId) : KeepsMemory s (without_ s p) := by
  apply KeepsMemory.intro <;> simp +contextual [without_]

@[simp] theorem loadOn_memory (s : State) (p : PartId) (h : Nat) (g : Program) (m : Nat) : KeepsMemory s (loadOn s p h g m) := by
  apply KeepsMemory.intro <;> simp +contextual [loadOn]

@[simp] theorem loadSelect_memory (s : State) (p : PartId) (h : Nat) (g : Program) : KeepsMemory s (loadSelect s p h g) := by
  simp only [loadSelect]
  repeat' split
  all_goals apply KeepsMemory.intro <;> simp +contextual

@[simp] theorem programLoad_memory (s : State) (h : Nat) (r : Request) (sec : ImageSections) : KeepsMemory s (programLoad s h r sec) := by
  apply KeepsMemory.intro <;> simp +contextual [programLoad]

@[simp] theorem replaceSwitch_memory (s : State) (p : PartId) : KeepsMemory s (replaceSwitch s p) := by
  simp only [replaceSwitch]
  repeat' split
  all_goals apply KeepsMemory.intro <;> simp +contextual

@[simp] theorem emptyRings_memory (s : State) (p : PartId) : KeepsMemory s (emptyRings s p) := by
  apply KeepsMemory.intro <;> simp +contextual [emptyRings]

@[simp] theorem programUnload_memory (s : State) (h : Nat) (r : Request) : KeepsMemory s (programUnload s h r) := by
  apply KeepsMemory.intro <;> simp +contextual [programUnload]

@[simp] theorem unloadDone_memory (s : State) (p : PartId) : KeepsMemory s (unloadDone s p) := by
  simp only [unloadDone]
  repeat' split
  all_goals apply KeepsMemory.intro <;> simp +contextual

@[simp] theorem resumeLoads_memory (s : State) : KeepsMemory s (resumeLoads s) := by
  refine .foldl (fun s x => ?_) _ _
  split
  · exact .trans .of_eq (loadSelect_memory ..)
  · exact .refl _

@[simp] theorem reselect_memory (s : State) (p : PartId) : KeepsMemory s (reselect s p) := by
  simp only [reselect]
  repeat' split
  all_goals apply KeepsMemory.intro <;> simp +contextual

@[simp] theorem serveWindow_memory (s : State) (addr : Nat) (cached : Bool) (fault : BurstFault) :
    KeepsMemory s (serveWindow s addr cached fault) := by
  apply KeepsMemory.intro <;> simp +contextual [serveWindow]

@[simp] theorem windowHostRead_memory (s : State) (addr : Nat) (cached : Bool) (fault : BurstFault) :
    KeepsMemory s (windowHostRead s addr cached fault) := by
  apply KeepsMemory.intro <;> simp +contextual [windowHostRead]

@[simp] theorem windowHostWrite_memory (s : State) (addr : Nat) (data : Bytes) : KeepsMemory s (windowHostWrite s addr data) := by
  apply KeepsMemory.intro <;> simp +contextual [windowHostWrite]

@[simp] theorem drainWindow_memory (k : Nat) (s : State) : KeepsMemory s (drainWindow k s) := by
  induction k generalizing s with
  | zero => exact .refl s
  | succ k ih =>
    unfold drainWindow
    split
    · exact .refl s
    · exact .ite (.refl s) (.trans (.ite (.trans .of_eq (windowPut_memory ..)) .of_eq) (ih _))

@[simp] theorem serveWaiting_memory (s : State) : KeepsMemory s (serveWaiting s) := by
  apply KeepsMemory.intro <;> simp +contextual [serveWaiting]

@[simp] theorem settleWindow_memory (s : State) : KeepsMemory s (settleWindow s) := by
  apply KeepsMemory.intro <;> simp +contextual [settleWindow]

@[simp] theorem windowResumes_memory (s : State) (sub : BitVec 8) : KeepsMemory s (windowResumes s sub) := by
  apply KeepsMemory.intro <;> simp +contextual [windowResumes]

@[simp] theorem snoopResponse_memory (s : State) (line : Nat) : KeepsMemory s (snoopResponse s line) := by
  apply KeepsMemory.intro <;> simp +contextual [snoopResponse]

@[simp] theorem windowResult_memory (s : State) (off : Nat) (data : Bytes) : KeepsMemory s (windowResult s off data) := by
  apply KeepsMemory.intro <;> simp +contextual [windowResult]

@[simp] theorem writePiece_memory (fn : Tenant) (q : BitVec 3) (s : State) (x : BitVec 64 × Bytes) : KeepsMemory s (writePiece fn q s x) := by
  apply KeepsMemory.intro <;> simp +contextual [writePiece]

@[simp] theorem readyWord_memory (s : State) (c : Completion) : KeepsMemory s (readyWord s c) := by
  simp only [readyWord]
  repeat' split
  all_goals apply KeepsMemory.intro <;> simp +contextual

@[simp] theorem badPayload_memory (s : State) (fn : Tenant) (q : BitVec 3) (i : Nat) (c : Completion) (rest : List Completion) :
    KeepsMemory s (badPayload s fn q i c rest) := by
  simp only [badPayload]
  repeat' split
  all_goals apply KeepsMemory.intro <;> simp +contextual

@[simp] theorem completionPost_memory (s : State) (fn : Tenant) (q : BitVec 3) (ringOk : Bool) (bad : Option Nat) :
    KeepsMemory s (completionPost s fn q ringOk bad) := by
  simp only [completionPost]
  repeat' split
  all_goals apply KeepsMemory.intro <;> simp +contextual

@[simp] theorem cancelSequences_memory (s : State) (h : Nat) : KeepsMemory s (cancelSequences s h) := by
  apply KeepsMemory.intro <;> simp +contextual [cancelSequences]

@[simp] theorem cancelAt_memory (s : State) (h : Nat) : KeepsMemory s (cancelAt s h) := by
  simp only [cancelAt]
  repeat' split
  all_goals apply KeepsMemory.intro <;> simp +contextual

@[simp] theorem resetRequest_memory (s : State) (h : Nat) : KeepsMemory s (resetRequest s h) := by
  simp only [resetRequest]
  repeat' split
  all_goals apply KeepsMemory.intro <;> simp +contextual

@[simp] theorem resetRequests_memory (s : State) (which : Request → Bool) : KeepsMemory s (resetRequests s which) := by
  apply KeepsMemory.intro <;> simp +contextual [resetRequests]

@[simp] theorem hotReset_memory (s : State) : KeepsMemory s (hotReset s) := by
  apply KeepsMemory.intro <;> simp +contextual [hotReset]

@[simp] theorem functionReset_memory (s : State) (fn : Tenant) : KeepsMemory s (functionReset s fn) := by
  apply KeepsMemory.intro <;> simp +contextual [functionReset]

@[simp] theorem lostTable_memory (h : Nat) (s : State) : KeepsMemory s (lostTable h s) := by
  apply KeepsMemory.intro <;> simp +contextual [lostTable]

@[simp] theorem beginTurn_memory (h : Nat) (r : Request) (b : TurnBlock) (tpl : Bytes) (s : State) : KeepsMemory s (beginTurn h r b tpl s) := by
  unfold beginTurn
  dsimp only
  split
  · apply KeepsMemory.intro <;> simp +contextual
  · split
    · apply KeepsMemory.intro <;> simp +contextual
    · refine .trans (.trans ?_ (copyTemplate_memory _ _ _ _ ‹_›)) ?_
      · exact .of_eq
      · split <;> apply KeepsMemory.intro <;> simp +contextual

@[simp] theorem startTurn_memory (s : State) (h : Nat) : KeepsMemory s (startTurn s h) := by
  unfold startTurn
  split
  · exact .refl s
  · dsimp only
    split
    · exact endRequest_memory ..
    · exact useSets_memory _ _ (fun s => lostTable_memory ..) fun s => beginTurn_memory ..

@[simp] theorem openTurn_memory (s : State) (h : Nat) : KeepsMemory s (openTurn s h) := by
  simp only [openTurn]
  repeat' split
  all_goals apply KeepsMemory.intro <;> simp +contextual

@[simp] theorem addText_memory (s : State) (t : Nat) (data : Bytes) (last : Bool) : KeepsMemory s (addText s t data last) := by
  have joined : KeepsMemory s (modReq s t fun r => { r with text := r.text ++ data }) := .of_eq
  unfold addText
  refine .ite (joined.trans (startTurn_memory ..)) ?_
  split
  · exact joined
  · exact joined.trans (useSets_memory _ _ (fun s => lostTable_memory ..) fun s => .ite (endRequest_memory ..) (.refl _))

@[simp] theorem textAppend_memory (s : State) (h : Nat) (r : Request) : KeepsMemory s (textAppend s h r) := by
  simp only [textAppend]
  repeat' split
  all_goals apply KeepsMemory.intro <;> simp +contextual

@[simp] theorem turnEndDeadline_memory (s : State) (h : Nat) : KeepsMemory s (turnEndDeadline s h) := by
  simp only [turnEndDeadline]
  repeat' split
  all_goals apply KeepsMemory.intro <;> simp +contextual

@[simp] theorem startEmbed_memory (s : State) (h : Nat) (r : Request) : KeepsMemory s (startEmbed s h r) :=
  .ite .of_eq (useSets_memory _ _ (fun s => lostTable_memory ..) fun s => .of_eq)

@[simp] theorem runTokenize_memory (s : State) (h : Nat) (r : Request) : KeepsMemory s (runTokenize s h r) :=
  useSets_memory _ _ (fun s => lostTable_memory ..) fun s => by apply KeepsMemory.intro <;> simp +contextual

@[simp] theorem runDetokenize_memory (s : State) (h : Nat) (r : Request) : KeepsMemory s (runDetokenize s h r) :=
  useSets_memory _ _ (fun s => lostTable_memory ..) fun s => by apply KeepsMemory.intro <;> simp +contextual

@[simp] theorem startBatch_memory (s : State) (h : Nat) (r : Request) (swapOk : Bool) : KeepsMemory s (startBatch s h r swapOk) := by
  apply KeepsMemory.intro <;> simp +contextual [startBatch]

@[simp] theorem runCancel_memory (s : State) (h : Nat) (r : Request) (hit : Bool) : KeepsMemory s (runCancel s h r hit) := by
  simp only [runCancel]
  repeat' split
  all_goals apply KeepsMemory.intro <;> simp +contextual

@[simp] theorem loadPlace_memory (h n : Nat) (t : Tile) (e : ExtentEntry) (tier : BitVec 2) (loc : BitVec 25) (s : State) :
    KeepsMemory s (loadPlace h n t e tier loc s).1 := by
  apply KeepsMemory.intro <;> simp +contextual [loadPlace]

@[simp] theorem loadTile_memory (s : State) (h n : Nat) (t : Tile) : KeepsMemory s (loadTile s h n t).1 := by
  simp only [loadTile]
  repeat' split
  all_goals apply KeepsMemory.intro <;> simp +contextual

@[simp] theorem loadTiles_memory (h : Nat) (s : State) (n : Nat) (l : List Tile) : KeepsMemory s (loadTiles h s n l).1 := by
  induction l generalizing s n with
  | nil => exact .refl s
  | cons t l ih =>
    have first := loadTile_memory s h n t
    unfold loadTiles
    split
    · rename_i heq
      simpa only [heq] using first
    · rename_i heq
      simp only [heq] at first
      exact first.trans (ih _ _)

@[simp] theorem loadExtent_memory (s : State) (h : Nat) (r : Request) : KeepsMemory s (loadExtent s h r) := by
  apply KeepsMemory.intro <;> simp +contextual [loadExtent]

@[simp] theorem moveToS_memory (x0 x1 x2) : ∀ t, moveToS x0 x1 x2 = some t → KeepsMemory x0 t := by
  intro t h
  simp only [moveToS] at h
  repeat' split at h
  all_goals (try cases h)
  all_goals apply KeepsMemory.intro <;> simp +contextual

theorem pinEntry_memory (s : State) (x : Nat) : ∀ t, pinEntry s x = some t → KeepsMemory s t := by
  intro t ht
  unfold pinEntry at ht
  split at ht
  · cases ht
  · split at ht
    · cases ht
      exact setEntry_memory ..
    · simp only [Option.bind_eq_some_iff, Option.map_eq_some_iff] at ht
      obtain ⟨l, -, u, hu, rfl⟩ := ht
      exact .trans (.trans .of_eq (moveToS_memory _ _ _ _ hu)) (setEntry_memory ..)

theorem pinAll_memory (l : List Nat) (s : State) : ∀ t, pinAll l s = some t → KeepsMemory s t := by
  induction l generalizing s with
  | nil => intro t h; cases h; exact .refl s
  | cons x l ih =>
    intro t h
    simp only [pinAll, Option.bind_eq_some_iff] at h
    obtain ⟨u, hu, ht⟩ := h
    exact (pinEntry_memory _ _ _ hu).trans (ih _ _ ht)

@[simp] theorem createIndex_memory (s : State) (n : Nat) (r : IndexRec) : KeepsMemory s (createIndex s n r).1 := by
  unfold createIndex
  split
  · exact .refl s
  · split
    · exact .refl s
    · split
      · exact .refl s
      · exact (pinAll_memory _ _ _ ‹_›).trans .of_eq

@[simp] theorem destroyIndex_memory (s : State) (n : Nat) : KeepsMemory s (destroyIndex s n).1 := by
  simp only [destroyIndex]
  repeat' split
  all_goals apply KeepsMemory.intro <;> simp +contextual

@[simp] theorem refillEntrySets_memory (s : State) : KeepsMemory s (refillEntrySets s) := by
  refine .foldl (fun s x => ?_) _ _
  cases h : pinEntry s x with
  | none => exact .refl s
  | some t => exact pinEntry_memory _ _ _ h

@[simp] theorem createTable_memory (s : State) (n : Nat) (r : TableRec) : KeepsMemory s (createTable s n r).1 := by
  apply KeepsMemory.intro <;> simp +contextual [createTable]

theorem KeepsMemory.setPart {s t : State} {p : PartId} {f : Partition → Partition} (h : KeepsMemory s t) : KeepsMemory s (setPart t p f) := h.trans .of_eq

theorem KeepsMemory.gen {s t : State} {g : GenState} (h : KeepsMemory s t) : KeepsMemory s { t with gen := g } := h

@[simp] theorem destroyTable_memory (s : State) (n : Nat) : KeepsMemory s (destroyTable s n).1 := by
  have freed (l : List (Nat × TileIdx)) : KeepsMemory s
      (l.foldl (fun s x => setSlot s x.2 fun y => { y with hdr := { y.hdr with state := .free } }) s) :=
    .foldl (fun s x => setSlot_memory ..) _ _
  unfold destroyTable
  split
  · exact .refl s
  · split
    · exact .refl s
    · exact .gen (.setPart (freed _))

@[simp] theorem mutationAnswered_memory (s : State) (h : Nat) (st : Status) (swapOk : Bool) :
    KeepsMemory s (mutationAnswered s h st swapOk) := by
  simp only [mutationAnswered]
  repeat' split
  all_goals apply KeepsMemory.intro <;> simp +contextual

@[simp] theorem settleDown_memory (swaps : List Tenant) (s : State) (e : JournalEntry) : KeepsMemory s (settleDown swaps s e) := by
  simp only [settleDown]
  repeat' split
  all_goals apply KeepsMemory.intro <;> simp +contextual

@[simp] theorem retryMutation_memory (swaps : List Tenant) (s : State) (h : Nat) : KeepsMemory s (retryMutation swaps s h) := by
  simp only [retryMutation]
  repeat' split
  all_goals apply KeepsMemory.intro <;> simp +contextual

@[simp] theorem retryWaiting_memory (s : State) (swaps : List Tenant) : KeepsMemory s (retryWaiting s swaps) := by
  apply KeepsMemory.intro <;> simp +contextual [retryWaiting]

@[simp] theorem retractTile_memory (s : State) (x : RemoteProv) : KeepsMemory s (retractTile s x) := by
  apply KeepsMemory.intro <;> simp +contextual [retractTile]

@[simp] theorem enterDown_memory (s : State) (c : SplitCause) (swaps : List Tenant) : KeepsMemory s (enterDown s c swaps) := by
  apply KeepsMemory.intro <;> simp +contextual [enterDown]

@[simp] theorem setteeSilence_memory (s : State) (swaps : List Tenant) : KeepsMemory s (setteeSilence s swaps) := by
  apply KeepsMemory.intro <;> simp +contextual [setteeSilence]

@[simp] theorem realign_memory (s : State) (swaps : List Tenant) : KeepsMemory s (realign s swaps) := by
  apply KeepsMemory.intro <;> simp +contextual [realign]

@[simp] theorem applyIndexMsg_memory (x0 x1 x2) : KeepsMemory x1 (applyIndexMsg x0 x1 x2).1 := by
  simp only [applyIndexMsg]
  repeat' split
  all_goals apply KeepsMemory.intro <;> simp +contextual

@[simp] theorem applyRowsMsg_memory (x0 x1 x2) : KeepsMemory x1 (applyRowsMsg x0 x1 x2).1 := by
  simp only [applyRowsMsg]
  repeat' split
  all_goals apply KeepsMemory.intro <;> simp +contextual

@[simp] theorem applyConfig_memory (x0 x1 x2) : KeepsMemory x0 (applyConfig x0 x1 x2).1 := by
  simp only [applyConfig]
  repeat' split
  all_goals apply KeepsMemory.intro <;> simp +contextual

@[simp] theorem applyConfigMsg_memory (x0 x1 x2) : KeepsMemory x1 (applyConfigMsg x0 x1 x2).1 := by
  simp only [applyConfigMsg]
  repeat' split
  all_goals apply KeepsMemory.intro <;> simp +contextual

@[simp] theorem enterUp_memory (s : State) (swaps : List Tenant) : KeepsMemory s (enterUp s swaps) := by
  apply KeepsMemory.intro <;> simp +contextual [enterUp]

@[simp] theorem tryUp_memory (s : State) (swaps : List Tenant) : KeepsMemory s (tryUp s swaps) := by
  apply KeepsMemory.intro <;> simp +contextual [tryUp]

@[simp] theorem ackEntry_memory (s : State) (j : Nat) (st : Status) (swapOk : Bool) : KeepsMemory s (ackEntry s j st swapOk) := by
  simp only [ackEntry]
  repeat' split
  all_goals apply KeepsMemory.intro <;> simp +contextual

@[simp] theorem mirrorAck_memory (s : State) (m : MsgHdr) (swaps : List Tenant) : KeepsMemory s (mirrorAck s m swaps) := by
  simp only [mirrorAck]
  repeat' split
  all_goals apply KeepsMemory.intro <;> simp +contextual

@[simp] theorem mirrorTimeout_memory (s : State) (j : Nat) (swaps : List Tenant) : KeepsMemory s (mirrorTimeout s j swaps) := by
  apply KeepsMemory.intro <;> simp +contextual [mirrorTimeout]

@[simp] theorem journalReq_memory (s : State) (m : MsgHdr) (swaps : List Tenant) : KeepsMemory s (journalReq s m swaps) := by
  simp only [journalReq]
  repeat' split
  all_goals apply KeepsMemory.intro <;> simp +contextual

@[simp] theorem runForward_memory (s : State) (m : MsgHdr) (d : Descriptor) (p : Bytes) : KeepsMemory s (runForward s m d p) := by
  simp only [runForward]
  repeat' split
  all_goals apply KeepsMemory.intro <;> simp +contextual

@[simp] theorem forward_memory (s : State) (m : MsgHdr) (b : MsgBody) : KeepsMemory s (forward s m b) := by
  simp only [forward]
  repeat' split
  all_goals apply KeepsMemory.intro <;> simp +contextual

@[simp] theorem remoteTile_memory (s : State) (m : MsgHdr) (b : MsgBody) (t : TileIdx) : KeepsMemory s (remoteTile s m b t) := by
  simp only [remoteTile]
  repeat' split
  all_goals apply KeepsMemory.intro <;> simp +contextual

@[simp] theorem remoteRetract_memory (s : State) (m : MsgHdr) : KeepsMemory s (remoteRetract s m) := by
  apply KeepsMemory.intro <;> simp +contextual [remoteRetract]

@[simp] theorem mirrorData_memory (s : State) (m : MsgHdr) (a : BitVec 48) (b : MsgBody) : KeepsMemory s (mirrorData s m a b) := by
  simp only [mirrorData]
  repeat' split
  all_goals apply KeepsMemory.intro <;> simp +contextual

@[simp] theorem startRerun_memory (s : State) (t : MirrorTurn) (h : Nat) (r : Request) : KeepsMemory s (startRerun s t h r) := by
  unfold startRerun checked
  split
  · split
    · exact .of_eq
    · exact .ite (.trans (openTurn_memory ..) (addText_memory ..)) (openTurn_memory ..)
  · split
    · exact .of_eq
    · exact .of_eq
  · exact .refl s

@[simp] theorem rerunTurn_memory (unmapped : List (BitVec 64)) (s : State) (t : MirrorTurn) : KeepsMemory s (rerunTurn unmapped s t) := by
  apply KeepsMemory.intro <;> simp +contextual [rerunTurn]

@[simp] theorem rerunTurns_memory (s : State) (unmapped : List (BitVec 64)) (which : Tenant → Bool) :
    KeepsMemory s (rerunTurns s unmapped which) := by
  apply KeepsMemory.intro <;> simp +contextual [rerunTurns]

@[simp] theorem leaseExpiry_memory (s : State) (n : Tenant) (ok : Bool) (unmapped : List (BitVec 64)) :
    KeepsMemory s (leaseExpiry s n ok unmapped) := by
  apply KeepsMemory.intro <;> simp +contextual [leaseExpiry]

@[simp] theorem takeOver_memory (s : State) (cause : Nat) (swaps : List Tenant) (unmapped : List (BitVec 64)) :
    KeepsMemory s (takeOver s cause swaps unmapped) := by
  apply KeepsMemory.intro <;> simp +contextual [takeOver]

@[simp] theorem relinquish_memory (s : State) (swaps : List Tenant) (unmapped : List (BitVec 64)) :
    KeepsMemory s (relinquish s swaps unmapped) := by
  apply KeepsMemory.intro <;> simp +contextual [relinquish]

@[simp] theorem pairTakeover_memory (s : State) (swaps : List Tenant) (unmapped : List (BitVec 64)) :
    KeepsMemory s (pairTakeover s swaps unmapped) := by
  apply KeepsMemory.intro <;> simp +contextual [pairTakeover]

@[simp] theorem soloClear_memory (s : State) (n : Tenant) : KeepsMemory s (soloClear s n) := by
  apply KeepsMemory.intro <;> simp +contextual [soloClear]

@[simp] theorem cancelSequence_memory (h : Nat) (r : Request) (s : State) (k : Nat) : KeepsMemory s (cancelSequence h r s k) := by
  simp only [cancelSequence]
  repeat' split
  all_goals apply KeepsMemory.intro <;> simp +contextual

@[simp] theorem cancelForReset_memory (s : State) (h : Nat) (r : Request) : KeepsMemory s (cancelForReset s h r) := by
  simp only [cancelForReset]
  repeat' split
  all_goals apply KeepsMemory.intro <;> simp +contextual

@[simp] theorem cancelOutstanding_memory (s : State) (keep : List Nat) : KeepsMemory s (cancelOutstanding s keep).1 := by
  apply KeepsMemory.intro <;> simp +contextual [cancelOutstanding]

@[simp] theorem discardNew_memory (s : State) (x : Nat) (e : ExtentEntry) : KeepsMemory s (discardNew s x e) := by
  apply KeepsMemory.intro <;> simp +contextual [discardNew]

@[simp] theorem resumeRo_memory (s : State) (x : Nat) (e : ExtentEntry) : KeepsMemory s (resumeRo s x e) := by
  apply KeepsMemory.intro <;> simp +contextual [resumeRo]

@[simp] theorem finishMigration_memory (s : State) (x : Nat) : KeepsMemory s (finishMigration s x) := by
  simp only [finishMigration]
  repeat' split
  all_goals apply KeepsMemory.intro <;> simp +contextual

@[simp] theorem compareDirty_memory (s : State) (x : Nat) : KeepsMemory s (compareDirty s x) := by
  simp only [compareDirty]
  repeat' split
  all_goals apply KeepsMemory.intro <;> simp +contextual

@[simp] theorem resetTiers_memory (s : State) : KeepsMemory s (resetTiers s) := by
  apply KeepsMemory.intro <;> simp +contextual [resetTiers]

@[simp] theorem mapRows_memory (s : State) : KeepsMemory s (mapRows s) := by
  apply KeepsMemory.intro <;> simp +contextual [mapRows]

@[simp] theorem quiesceMedia_memory (s : State) : KeepsMemory s (quiesceMedia s) := by
  apply KeepsMemory.intro <;> simp +contextual [quiesceMedia]

@[simp] theorem linkDownForReset_memory (s : State) : KeepsMemory s (linkDownForReset s) := by
  apply KeepsMemory.intro <;> simp +contextual [linkDownForReset]

@[simp] theorem warmReset_memory (s : State) (cause : Nat) : KeepsMemory s (warmReset s cause) := by
  apply KeepsMemory.intro <;> simp +contextual [warmReset]

@[simp] theorem readParameters_memory (s : State) (r : ReleaseInfo) : KeepsMemory s (readParameters s r) := by
  apply KeepsMemory.intro <;> simp +contextual [readParameters]

@[simp] theorem refillCopy_memory (s : State) (x : Nat) : KeepsMemory s (refillCopy s x) := by
  unfold refillCopy
  split
  · exact .refl s
  · refine .ite (.refl s) (.foldl (fun s t => ?_) _ _)
    split
    · exact putL_memory ..
    · exact .refl _

@[simp] theorem refillCopies_memory (s : State) : KeepsMemory s (refillCopies s) := by
  apply KeepsMemory.intro <;> simp +contextual [refillCopies]

@[simp] theorem releaseEngines_memory (s : State) (r : ReleaseInfo) : KeepsMemory s (releaseEngines s r) := by
  apply KeepsMemory.intro <;> simp +contextual [releaseEngines]

@[simp] theorem recheckSets_memory (s : State) : KeepsMemory s (recheckSets s) := by
  apply KeepsMemory.intro <;> simp +contextual [recheckSets]

@[simp] theorem chainEffect_memory (s : State) (r : ReleaseInfo) (n : Nat) : KeepsMemory s (chainEffect s r n) := by
  simp only [chainEffect]
  repeat' split
  all_goals apply KeepsMemory.intro <;> simp +contextual

@[simp] theorem chainStart_memory (s : State) (r : ReleaseInfo) (n : Nat) : KeepsMemory s (chainStart s r n) := by
  simp only [chainStart]
  repeat' split
  all_goals apply KeepsMemory.intro <;> simp +contextual

@[simp] theorem chainStep_memory (s : State) (r : ReleaseInfo) : KeepsMemory s (chainStep s r) := by
  simp only [chainStep]
  repeat' split
  all_goals apply KeepsMemory.intro <;> simp +contextual

@[simp] theorem flushAll_memory (s : State) (complete : Bool) (us : Nat) : KeepsMemory s (flushAll s complete us) := by
  apply KeepsMemory.intro <;> simp +contextual [flushAll]

@[simp] theorem linkFailed_memory (s : State) (l : LinkId) : KeepsMemory s (linkFailed s l) := by
  apply KeepsMemory.intro <;> simp +contextual [linkFailed]

@[simp] theorem watchdogTwo_memory (s : State) (c : BitVec 2) : KeepsMemory s (watchdogTwo s c) := by
  apply KeepsMemory.intro <;> simp +contextual [watchdogTwo]

@[simp] theorem watchdogOne_memory (s : State) (c : BitVec 2) : KeepsMemory s (watchdogOne s c) := by
  apply KeepsMemory.intro <;> simp +contextual [watchdogOne]

@[simp] theorem watchdogLate_memory (s : State) (c : BitVec 2) : KeepsMemory s (watchdogLate s c) := by
  simp only [watchdogLate]
  repeat' split
  all_goals apply KeepsMemory.intro <;> simp +contextual

@[simp] theorem mapExtent_memory (s : State) (x : Nat) (e : ExtentEntry) : KeepsMemory s (mapExtent s x e).1 := by
  simp only [mapExtent]
  repeat' split
  all_goals apply KeepsMemory.intro <;> simp +contextual

@[simp] theorem writeBackNow_memory (s : State) (x : Nat) (t : Nat) : KeepsMemory s (writeBackNow s x t) := by
  simp only [writeBackNow]
  repeat' split
  all_goals apply KeepsMemory.intro <;> simp +contextual

@[simp] theorem writeBackAll_memory (s : State) (x : Nat) : KeepsMemory s (writeBackAll s x) := by
  apply KeepsMemory.intro <;> simp +contextual [writeBackAll]

@[simp] theorem dropExtent_memory (s : State) (x : Nat) : KeepsMemory s (dropExtent s x) := by
  simp only [dropExtent]
  repeat' split
  all_goals apply KeepsMemory.intro <;> simp +contextual

@[simp] theorem unmapExtent_memory (s : State) (x : Nat) : KeepsMemory s (unmapExtent s x).1 := by
  simp only [unmapExtent]
  repeat' split
  all_goals apply KeepsMemory.intro <;> simp +contextual

@[simp] theorem setExtent_memory (s : State) (x : Nat) (e : ExtentEntry) : KeepsMemory s (setExtent s x e).1 := by
  simp only [setExtent]
  repeat' split
  all_goals apply KeepsMemory.intro <;> simp +contextual

theorem KeepsMemory.thenRemove {α : Type} {s : State} {f : State → α → State × Status} {acc : State × Status} (h : KeepsMemory s acc.1)
    (hf : ∀ s a, KeepsMemory s (f s a).1) (a : α) : KeepsMemory s (thenRemove f acc a).1 := by
  unfold Machine.thenRemove
  split
  · exact h.trans (hf ..)
  · exact h

/-- What a removal keeps, the removals that stop at the first failure keep. -/
theorem KeepsMemory.removeAll {α : Type} {s : State} {f : State → α → State × Status} {acc : State × Status} (h : KeepsMemory s acc.1)
    (hf : ∀ s a, KeepsMemory s (f s a).1) (l : List α) : KeepsMemory s (l.foldl (Machine.thenRemove f) acc).1 := by
  induction l generalizing acc with
  | nil => exact h
  | cons a l ih => exact ih (h.thenRemove hf a)

@[simp] theorem removeTenant_memory (s : State) (n : Tenant) : KeepsMemory s (removeTenant s n).1 := by
  have index (s : State) (i : Nat) :
      KeepsMemory s (let (s, st) := destroyIndex s i; (if st = Status.ok then mirrorConfigOut s n (.index i none) else s, st)).1 :=
    .ite (.trans (destroyIndex_memory s i) (.of_eq)) (destroyIndex_memory ..)
  have table (s : State) (t : Nat) :
      KeepsMemory s (let (s, st) := destroyTable s t; (if st = Status.ok then mirrorConfigOut s n (.table t none) else s, st)).1 :=
    .ite (.trans (destroyTable_memory s t) (.of_eq)) (destroyTable_memory ..)
  have adapters (s : State) (_ : Unit) : KeepsMemory s (removeAdapters s n).1 := .of_eq
  have grammars (s : State) (_ : Unit) : KeepsMemory s (removeGrammars s n).1 := .of_eq
  unfold removeTenant
  dsimp only
  split
  · exact .removeAll (.thenRemove (.thenRemove (.removeAll (.removeAll (.refl s) index _) table _) adapters ()) grammars ()) unmapExtent_memory _
  · exact .refl s

@[simp] theorem mailboxQuiesce_memory (s : State) (b : BlockId) : KeepsMemory s (mailboxQuiesce s b) := by
  apply KeepsMemory.intro <;> simp +contextual [mailboxQuiesce]

@[simp] theorem endScans_memory (s : State) (shelf : Nat) : KeepsMemory s (endScans s shelf) :=
  .foldl (fun s x => shelfWrites_elim_memory _ _ _ fun s => .of_eq) _ _

@[simp] theorem resetBlock_memory (s : State) (b : BlockId) : KeepsMemory s (resetBlock s b) := by
  simp only [resetBlock]
  repeat' split
  all_goals apply KeepsMemory.intro <;> simp +contextual

theorem KeepsMemory.logEvent {s t : State} {e : Ev} (h : KeepsMemory s t) : KeepsMemory s (logEvent t e) := h.trans .of_eq

theorem orHold_memory (s : State) (h : HeldReset) {go : State → State} (hg : ∀ s, KeepsMemory s (go s)) : KeepsMemory s (orHold s h go) := by
  unfold orHold
  split
  · exact hg s
  · exact .of_eq
  · exact .refl s

@[simp] theorem blockReset_memory (s : State) (b : BlockId) : KeepsMemory s (blockReset s b).1 := by
  unfold blockReset
  split
  · exact .refl s
  · split
    · exact .refl s
    · exact .logEvent (orHold_memory _ _ fun s => resetBlock_memory s b)

@[simp] theorem drainEnd_memory (s : State) : KeepsMemory s (drainEnd s) := by
  unfold drainEnd
  split
  · exact .refl s
  · refine .ite (.refl s) ?_
    dsimp only
    split <;> apply KeepsMemory.intro <;> simp +contextual

@[simp] theorem applyHeld_memory (x0 x1) : KeepsMemory x0 (applyHeld x0 x1) := by
  simp only [applyHeld]
  repeat' split
  all_goals apply KeepsMemory.intro <;> simp +contextual

@[simp] theorem bootOk_memory (s : State) : KeepsMemory s (bootOk s) := by
  apply KeepsMemory.intro <;> simp +contextual [bootOk]

@[simp] theorem refuseAt_memory (s : State) (cause off : Nat) : KeepsMemory s (refuseAt s cause off) := by
  simp only [refuseAt]
  repeat' split
  all_goals apply KeepsMemory.intro <;> simp +contextual

@[simp] theorem badAccess_memory (s : State) (fn : Tenant) (off : Nat) : KeepsMemory s (badAccess s fn off) := by
  apply KeepsMemory.intro <;> simp +contextual [badAccess]

@[simp] theorem disablePair_memory (s : State) (fn : Tenant) (q : BitVec 3) : KeepsMemory s (disablePair s fn q) := by
  apply KeepsMemory.intro <;> simp +contextual [disablePair]

@[simp] theorem writeCtrl_memory (s : State) (fn : Tenant) (q : BitVec 3) (v : Word) (line : Option (DoorbellLine × List Descriptor)) :
    KeepsMemory s (writeCtrl s fn q v line) := by
  apply KeepsMemory.intro <;> simp +contextual [writeCtrl]

@[simp] theorem writeWindow_memory (x0 x1) : ∀ t, writeWindow x0 x1 = .ok t → KeepsMemory x0 t := by
  intro t h
  simp only [writeWindow] at h
  repeat' split at h
  all_goals (try cases h)
  all_goals apply KeepsMemory.intro <;> simp +contextual

@[simp] theorem dropWindow_memory (s : State) : KeepsMemory s (dropWindow s) := by
  refine .foldl (fun s y => ?_) _ _
  split
  · exact .of_eq
  · exact .refl _

@[simp] theorem windowDone_memory (s : State) : KeepsMemory s (windowDone s) := by
  have entries (s : State) (n : Nat) (l : List Nat) : KeepsMemory s (l.foldl (fun s x => match leafFor s x with
      | some l => storeEntry s x l (windowEntry s n x)
      | none => s) s) :=
    .foldl (fun s x => by cases leafFor s x with | none => exact .refl s | some l => exact storeEntry_memory ..) _ _
  unfold windowDone
  split
  · exact .refl s
  · refine .ite (.refl s) ?_
    exact .trans ((dropWindow_memory s).trans (entries _ _ _)) (.of_eq rfl rfl rfl)

theorem writeWindowTenant_memory (s : State) (g v : Nat) : ∀ t, writeWindowTenant s g v = .ok t → KeepsMemory s t := by
  have owned (w : Tenant) (l : List Nat) (s : State) : KeepsMemory s (l.foldl (fun s i => setEntry s (512 * g + i) fun e => { e with tenant := w }) s) :=
    .foldl (fun s i => setEntry_memory ..) _ _
  intro t h
  unfold writeWindowTenant at h
  generalize List.range 512 = l at h
  simp only at h
  split at h
  · cases h
  · cases h
    exact .trans (t := { s with tier := { s.tier with windowTenant := mput 0 s.tier.windowTenant g (BitVec.ofNat 9 v) } }) .of_eq (owned _ _ _)

@[simp] theorem endPairing_memory (s : State) : KeepsMemory s (endPairing s) := by
  apply KeepsMemory.intro <;> simp +contextual [endPairing]

@[simp] theorem writePairCtrl_memory (x0 x1) : ∀ t, writePairCtrl x0 x1 = .ok t → KeepsMemory x0 t := by
  intro t h
  simp only [writePairCtrl] at h
  repeat' split at h
  all_goals (try cases h)
  all_goals apply KeepsMemory.intro <;> simp +contextual

@[simp] theorem pairCtrl_memory (s : State) (v : Nat) : KeepsMemory s (pairCtrl s v) := by
  unfold pairCtrl whenReady
  dsimp only
  split
  · split
    · exact writePairCtrl_memory _ _ _ ‹_›
    · exact refuseAt_memory ..
  · exact .refl s

@[simp] theorem clearGroup_memory (s : State) (g : Nat) : KeepsMemory s (clearGroup s g) := by
  simp only [clearGroup]
  repeat' split
  all_goals apply KeepsMemory.intro <;> simp +contextual

@[simp] theorem readRegister_memory (s : State) (fn : Tenant) (off size : Nat) : KeepsMemory s (readRegister s fn off size) := by
  simp only [readRegister]
  repeat' split
  all_goals apply KeepsMemory.intro <;> simp +contextual

theorem writeTir_memory (s : State) (off v : Nat) : ∀ t, writeTir s off v = .ok t → KeepsMemory s t := by
  intro t h
  unfold writeTir at h
  split_ifs at h <;> try (cases h; exact .of_eq)
  · exact writeWindow_memory _ _ _ h
  · exact writeWindowTenant_memory _ _ _ _ h

theorem writePai_memory (s : State) (off v : Nat) : ∀ t, writePai s off v = .ok t → KeepsMemory s t := by
  intro t h
  unfold writePai at h
  dsimp only at h
  split_ifs at h <;> try (cases h; exact .of_eq)
  exact writePairCtrl_memory _ _ _ h

@[simp] theorem writeLayout_memory (x0 x1 x2 x3) : ∀ t, writeLayout x0 x1 x2 x3 = .ok t → KeepsMemory x0 t := by
  intro t h
  simp only [writeLayout] at h
  repeat' split at h
  all_goals (try cases h)
  all_goals apply KeepsMemory.intro <;> simp +contextual

theorem writePrt_memory (s : State) (off v : Nat) : ∀ t, writePrt s off v = .ok t → KeepsMemory s t := fun t h => by
  have frame := writePrt_frame s off v t h
  exact .of_eq (by simp only [frame]) (by simp only [frame]) (by simp only [frame])

theorem writeTxt_memory (s : State) (off v : Nat) : ∀ t, writeTxt s off v = .ok t → KeepsMemory s t := fun t h => by
  have frame := writeTxt_frame s off v t h
  exact .of_eq (by simp only [frame]) (by simp only [frame]) (by simp only [frame])

theorem writeBur_memory (s : State) (off v : Nat) : ∀ t, writeBur s off v = .ok t → KeepsMemory s t := fun t h => by
  have frame := writeBur_frame s off v t h
  exact .of_eq (by simp only [frame]) (by simp only [frame]) (by simp only [frame])

theorem writeModule_memory (s : State) (off v : Nat) : ∀ t, writeModule s off v = .ok t → KeepsMemory s t := by
  intro t h
  unfold writeModule at h
  split at h
  · exact writePrt_memory _ _ _ _ h
  · exact writeTir_memory _ _ _ _ h
  · exact writeTxt_memory _ _ _ _ h
  · exact writePai_memory _ _ _ _ h
  · exact writeBur_memory _ _ _ _ h
  · split_ifs at h
    · cases h
      exact clearGroup_memory ..
    · cases h
      exact .refl s

/-- What a write that is taken keeps, the settled write keeps. -/
theorem settleWrite_memory (s : State) (fn : Tenant) (off : Nat) {r : Except Nat State} (hr : ∀ t, r = .ok t → KeepsMemory s t) :
    KeepsMemory s (settleWrite s fn off r) := by
  unfold settleWrite
  split
  · exact hr _ rfl
  · exact badAccess_memory ..
  · exact .ite (refuseAt_memory ..) (.refl s)

@[simp] theorem writeWord_memory (s : State) (fn : Tenant) (off v : Nat) : KeepsMemory s (writeWord s fn off v) := by
  refine settleWrite_memory _ _ _ fun t h => ?_
  split at h
  · exact writeLayout_memory _ _ _ _ _ h
  · split at h
    · exact writeModule_memory _ _ _ _ h
    · cases h

theorem writeModuleWide_memory (s : State) (off v : Nat) : ∀ t, writeModuleWide s off v = .ok t → KeepsMemory s t := fun t h => by
  have frame := writeModuleWide_frame s off v t h
  exact .of_eq (by simp only [frame]) (by simp only [frame]) (by simp only [frame])

@[simp] theorem writeWide_memory (s : State) (fn : Tenant) (off v : Nat) : KeepsMemory s (writeWide s fn off v) := by
  unfold writeWide
  split
  · exact .of_eq
  · exact settleWrite_memory _ _ _ fun t h => writeModuleWide_memory _ _ _ _ h

@[simp] theorem writeHigh_memory (s : State) (fn : Tenant) (off v : Nat) : KeepsMemory s (writeHigh s fn off v) := by
  apply KeepsMemory.intro <;> simp +contextual [writeHigh]

@[simp] theorem writeHalf_memory (s : State) (fn : Tenant) (off v : Nat) : KeepsMemory s (writeHalf s fn off v) := by
  apply KeepsMemory.intro <;> simp +contextual [writeHalf]

@[simp] theorem registerWrite_memory (s : State) (fn : Tenant) (off size : Nat) (value : BitVec 64) :
    KeepsMemory s (registerWrite s fn off size value) := by
  apply KeepsMemory.intro <;> simp +contextual [registerWrite]

end Sys2Proof.Machine

namespace Sys2Proof.Machine

/-! ## What a command is given to do -/

theorem command_memory (s : State) (mctp : Bool) {f : State → State × Status × Bytes} (hf : ∀ s, KeepsMemory s (f s).1) :
    KeepsMemory s (command s mctp f) :=
  .ite .of_eq ((hf s).trans .of_eq)

theorem recoveryCommand_memory (s : State) (mctp : Bool) {f : State → State × Status × Bytes} (hf : ∀ s, KeepsMemory s (f s).1) :
    KeepsMemory s (recoveryCommand s mctp f) :=
  .ite ((hf s).trans .of_eq) .of_eq

theorem changeObject_memory (s : State) (n : Tenant) {f : State → State × Status} (c : State → ConfigBody) (hf : ∀ s, KeepsMemory s (f s).1) :
    KeepsMemory s (changeObject s n f c).1 := by
  unfold changeObject
  split
  · exact .refl s
  · dsimp only
    split
    · exact (hf s).trans .of_eq
    · exact hf s

theorem checked_memory (s : State) (h : Nat) (l : List (Option Reject)) {go : State → State} (hg : ∀ s, KeepsMemory s (go s)) :
    KeepsMemory s (checked s h l go) := by
  unfold checked
  split
  · exact .of_eq
  · exact hg s

theorem existing_memory (s : State) (h : Nat) (fn : Tenant) (xs : List Nat) {go : State → State} (hg : ∀ s, KeepsMemory s (go s)) :
    KeepsMemory s (existing s h fn xs go) := by
  unfold existing
  split
  · exact .of_eq
  · exact hg s

theorem acceptFront_memory (s : State) (fn : Tenant) (q : BitVec 3) (op : Opcode) (form : Descriptor → Bool) (v : HostView)
    {go : State → Nat → Request → Fetched → State} (hg : ∀ s h r f, KeepsMemory s (go s h r f)) : KeepsMemory s (acceptFront s fn q op form v go) := by
  unfold acceptFront
  split
  · exact .refl s
  · exact .ite (.refl s) (.trans .of_eq (checked_memory _ _ _ fun s => hg ..))

theorem whenReady_memory (s : State) {f : State → State} (hf : ∀ s, KeepsMemory s (f s)) : KeepsMemory s (whenReady s f) := .ite (hf s) (.refl s)

theorem journalled_memory (s : State) (m : MsgHdr) (b : MsgBody) {apply : State → MsgBody → State × Option Status}
    (ha : ∀ s b, KeepsMemory s (apply s b).1) : KeepsMemory s (journalled s m b apply) := by
  have answered {s t : State} {b : MsgBody} (h : KeepsMemory s t) : KeepsMemory s (tryHold (match apply t b with
      | (s, some st) => sendAck s m st
      | (s, none) => s) m.tenant) := by
    have applied := h.trans (ha t b)
    revert applied
    rcases apply t b with ⟨u, st | st⟩ <;> exact fun applied => applied.trans .of_eq
  unfold journalled
  refine .ite (.refl s) ?_
  dsimp only
  exact .ite .of_eq (.ite .of_eq (.ite .of_eq (.ite .of_eq (answered .of_eq))))

/-! ## What outlives the loss of power -/

/-- The store and tier L lose what they held; of the flash each erase under way is lost. -/
@[simp] theorem survivors_memory (s : State) : KeepsMemory s (survivors s) := by
  have rolled : KeepsMemory s (s.gen.indexes.foldl (fun s i => if i.2.batch.isSome then rollbackBatch s i.1 else s) s) :=
    .foldl (fun s i => .ite (rollbackBatch_memory ..) (.refl s)) _ _
  exact .intro (fun _ => slotsOk_nil) (fun _ => tilesOk_nil) fun h => coldFlash_canonical _ (rolled.blocks h)

@[simp] theorem powerOn_memory (s : State) (mv : Nat) (seed : BitVec 64) : KeepsMemory s (powerOn s mv seed) := survivors_memory s

@[simp] theorem powerOff_memory (s : State) (tripped : Bool) : KeepsMemory s (powerOff s tripped) := survivors_memory s

@[simp] theorem perstAssert_memory (s : State) (seed : BitVec 64) : KeepsMemory s (perstAssert s seed) := survivors_memory s

@[simp] theorem leaveRecovery_memory (s : State) : KeepsMemory s (leaveRecovery s) := survivors_memory s

@[simp] theorem powerLoss_memory (s : State) (mv : Nat) (complete : Bool) (us : Nat) (tripped : Bool) :
    KeepsMemory s (powerLoss s mv complete us tripped) := by
  unfold powerLoss
  dsimp only
  split <;> apply KeepsMemory.intro <;> simp +contextual

@[simp] theorem firmwareTrip_memory (s : State) (c : TripCause) (complete : Bool) (us : Nat) : KeepsMemory s (firmwareTrip s c complete us) := by
  apply KeepsMemory.intro <;> simp +contextual [firmwareTrip]

@[simp] theorem rateFloorUnheld_memory (s : State) (d : Nat) : KeepsMemory s (rateFloorUnheld s d) := by
  unfold rateFloorUnheld
  split <;> apply KeepsMemory.intro <;> simp +contextual

@[simp] theorem recoveryBoot_memory (s : State) (svn : Nat) (slot : BitVec 2) (verdict : Option Verdict) :
    KeepsMemory s (recoveryBoot s svn slot verdict).1 := by
  unfold recoveryBoot
  split <;> apply KeepsMemory.intro <;> simp +contextual

end Sys2Proof.Machine

namespace Sys2Proof.Machine

theorem execVectorOp_memory {v : VecOp} {s : State} {t : State} (h : execVectorOp v s = .next t) : KeepsMemory s t := by
  simp only [execVectorOp] at h
  split at h <;> cases h
  · exact egress_memory ..
  · exact .of_eq

theorem execSelectExact_memory {e : Engine} {p : SelParams} {input : SelInput} {out : TileIdx} {s : State} {t : State} (h : execSelectExact e p input out s = .next t) : KeepsMemory s t := by
  simp only [execSelectExact] at h
  split at h <;> cases h
  exact selectOp_memory ..

theorem execSelectBucket_memory {e : Engine} {p : SelParams} {input : SelInput} {out : TileIdx} {s : State} {t : State} (h : execSelectBucket e p input out s = .next t) : KeepsMemory s t := by
  simp only [execSelectBucket] at h
  split at h <;> cases h
  exact selectOp_memory ..

theorem execSelectMerge_memory {e : Engine} {p : SelParams} {inputs : List TileIdx} {bucket : Bool} {out : TileIdx} {s : State} {t : State} (h : execSelectMerge e p inputs bucket out s = .next t) : KeepsMemory s t := by
  simp only [execSelectMerge] at h
  split at h <;> cases h
  exact selectMerge_memory ..

theorem execCxlHotReset_memory {s : State} {t : State} (h : execCxlHotReset s = .next t) : KeepsMemory s t := by
  cases h
  exact orHold_memory _ _ fun s => hotReset_memory s

theorem execFunctionLevelReset_memory {fn : Tenant} {s : State} {t : State} (h : execFunctionLevelReset fn s = .next t) : KeepsMemory s t := by
  cases h
  exact orHold_memory _ _ fun s => functionReset_memory ..

theorem execTurn_memory {fn : Tenant} {q : BitVec 3} {v : HostView} {s : State} {t : State} (h : execTurn fn q v s = .next t) : KeepsMemory s t := by
  cases h
  exact acceptFront_memory _ _ _ _ _ _ fun s h r f => checked_memory _ _ _ fun s => openTurn_memory ..

theorem execTextAppend_memory {fn : Tenant} {q : BitVec 3} {v : HostView} {s : State} {t : State} (h : execTextAppend fn q v s = .next t) : KeepsMemory s t := by
  cases h
  exact acceptFront_memory _ _ _ _ _ _ fun s h r f => checked_memory _ _ _ fun s => textAppend_memory ..

theorem execEmbed_memory {fn : Tenant} {q : BitVec 3} {v : HostView} {s : State} {t : State} (h : execEmbed fn q v s = .next t) : KeepsMemory s t := by
  cases h
  exact acceptFront_memory _ _ _ _ _ _ fun s h r f => checked_memory _ _ _ fun s => startEmbed_memory ..

theorem execTokenize_memory {fn : Tenant} {q : BitVec 3} {v : HostView} {s : State} {t : State} (h : execTokenize fn q v s = .next t) : KeepsMemory s t := by
  cases h
  exact acceptFront_memory _ _ _ _ _ _ fun s h r f => checked_memory _ _ _ fun s => runTokenize_memory ..

theorem execDetokenize_memory {fn : Tenant} {q : BitVec 3} {v : HostView} {s : State} {t : State} (h : execDetokenize fn q v s = .next t) : KeepsMemory s t := by
  cases h
  exact acceptFront_memory _ _ _ _ _ _ fun s h r f => checked_memory _ _ _ fun s => runDetokenize_memory ..

theorem execIndexInsert_memory {fn : Tenant} {q : BitVec 3} {v : HostView} {s : State} {t : State} (h : execIndexInsert fn q v s = .next t) : KeepsMemory s t := by
  cases h
  exact acceptFront_memory _ _ _ _ _ _ fun s h r f => checked_memory _ _ _ fun s => startBatch_memory ..

theorem execIndexPatch_memory {fn : Tenant} {q : BitVec 3} {v : HostView} {s : State} {t : State} (h : execIndexPatch fn q v s = .next t) : KeepsMemory s t := by
  cases h
  exact acceptFront_memory _ _ _ _ _ _ fun s h r f => checked_memory _ _ _ fun s => startBatch_memory ..

theorem execIndexDelete_memory {fn : Tenant} {q : BitVec 3} {v : HostView} {s : State} {t : State} (h : execIndexDelete fn q v s = .next t) : KeepsMemory s t := by
  cases h
  exact acceptFront_memory _ _ _ _ _ _ fun s h r f => checked_memory _ _ _ fun s => startBatch_memory ..

theorem execLoadExtent_memory {fn : Tenant} {q : BitVec 3} {v : HostView} {s : State} {t : State} (h : execLoadExtent fn q v s = .next t) : KeepsMemory s t := by
  cases h
  exact acceptFront_memory _ _ _ _ _ _ fun s h r f => existing_memory _ _ _ _ fun s => checked_memory _ _ _ fun s => loadExtent_memory ..

theorem execProgramLoad_memory {fn : Tenant} {q : BitVec 3} {v : HostView} {sec : ImageSections} {s : State} {t : State} (h : execProgramLoad fn q v sec s = .next t) : KeepsMemory s t := by
  cases h
  exact acceptFront_memory _ _ _ _ _ _ fun s h r f => checked_memory _ _ _ fun s => programLoad_memory ..

theorem execProgramUnload_memory {fn : Tenant} {q : BitVec 3} {v : HostView} {s : State} {t : State} (h : execProgramUnload fn q v s = .next t) : KeepsMemory s t := by
  cases h
  exact acceptFront_memory _ _ _ _ _ _ fun s h r f => checked_memory _ _ _ fun s => programUnload_memory ..

theorem execCancel_memory {fn : Tenant} {q : BitVec 3} {v : HostView} {s : State} {t : State} (h : execCancel fn q v s = .next t) : KeepsMemory s t := by
  cases h
  exact .ite (.refl s) (acceptFront_memory _ _ _ _ _ _ fun s h r f => runCancel_memory ..)

theorem execFieldTestComplete_memory {e : Engine} {mechanism : Option (BitVec 8)} {s : State} {t : State} (h : execFieldTestComplete e mechanism s = .next t) : KeepsMemory s t := by
  cases h
  exact .trans .of_eq (resumeLoads_memory _)

theorem execMirrorIndex_memory {m : MsgHdr} {body : MsgBody} {s : State} {t : State} (h : execMirrorIndex m body s = .next t) : KeepsMemory s t := by
  cases h
  exact journalled_memory _ _ _ fun s b => applyIndexMsg_memory ..

theorem execMirrorRows_memory {m : MsgHdr} {body : MsgBody} {s : State} {t : State} (h : execMirrorRows m body s = .next t) : KeepsMemory s t := by
  cases h
  exact journalled_memory _ _ _ fun s b => applyRowsMsg_memory ..

theorem execMirrorConfig_memory {m : MsgHdr} {body : MsgBody} {s : State} {t : State} (h : execMirrorConfig m body s = .next t) : KeepsMemory s t := by
  cases h
  exact journalled_memory _ _ _ fun s b => applyConfigMsg_memory ..

theorem execExtentMap_memory {x : Nat} {e : ExtentEntry} {s : State} {t : State} (h : execExtentMap x e s = .next t) : KeepsMemory s t := by
  cases h
  exact command_memory _ _ fun s => mapExtent_memory ..

theorem execExtentUnmap_memory {x : Nat} {s : State} {t : State} (h : execExtentUnmap x s = .next t) : KeepsMemory s t := by
  cases h
  exact command_memory _ _ fun s => unmapExtent_memory ..

theorem execExtentSet_memory {x : Nat} {e : ExtentEntry} {s : State} {t : State} (h : execExtentSet x e s = .next t) : KeepsMemory s t := by
  cases h
  exact command_memory _ _ fun s => setExtent_memory ..

theorem execIndexCreate_memory {n : Nat} {r : Bytes} {s : State} {t : State} (h : execIndexCreate n r s = .next t) : KeepsMemory s t := by
  cases h
  exact command_memory _ _ fun s => changeObject_memory _ _ _ fun s => by
    split
    · exact createIndex_memory ..
    · exact .refl s

theorem execIndexDestroy_memory {n : Nat} {s : State} {t : State} (h : execIndexDestroy n s = .next t) : KeepsMemory s t := by
  cases h
  exact command_memory _ _ fun s => changeObject_memory _ _ _ fun s => destroyIndex_memory ..

theorem execTableCreate_memory {n : Nat} {r : Bytes} {s : State} {t : State} (h : execTableCreate n r s = .next t) : KeepsMemory s t := by
  cases h
  exact command_memory _ _ fun s => changeObject_memory _ _ _ fun s => by
    split
    · exact createTable_memory ..
    · exact .refl s

theorem execTableDestroy_memory {n : Nat} {s : State} {t : State} (h : execTableDestroy n s = .next t) : KeepsMemory s t := by
  cases h
  exact command_memory _ _ fun s => changeObject_memory _ _ _ fun s => destroyTable_memory ..

theorem execTenantRemove_memory {n : Tenant} {s : State} {t : State} (h : execTenantRemove n s = .next t) : KeepsMemory s t := by
  cases h
  refine command_memory _ _ fun s => ?_
  split
  · exact .refl s
  · have removed := removeTenant_memory s n
    generalize removeTenant s n = r at removed ⊢
    exact removed

theorem execBlockReset_memory {b : BlockId} {s : State} {t : State} (h : execBlockReset b s = .next t) : KeepsMemory s t := by
  cases h
  exact command_memory _ _ fun s => blockReset_memory ..

theorem execPairTakeover_memory {swaps : List Tenant} {unmapped : List (BitVec 64)} {s : State} {t : State} (h : execPairTakeover swaps unmapped s = .next t) : KeepsMemory s t := by
  cases h
  refine command_memory _ _ fun s => ?_
  split
  · exact pairTakeover_memory ..
  · exact .refl s

theorem execSoloClear_memory {n : Tenant} {s : State} {t : State} (h : execSoloClear n s = .next t) : KeepsMemory s t := by
  cases h
  refine command_memory _ _ fun s => ?_
  split
  · exact soloClear_memory ..
  · exact .refl s

theorem execRecoveryBoot_memory {mctp : Bool} {svn : Nat} {keySlot : BitVec 2} {verdict : Option Verdict} {s : State} {t : State} (h : execRecoveryBoot mctp svn keySlot verdict s = .next t) : KeepsMemory s t := by
  cases h
  exact recoveryCommand_memory _ _ fun s => recoveryBoot_memory ..

theorem execPowerOn_memory {mv : Nat} {seed : BitVec 64} {s : State} {t : State} (h : execPowerOn mv seed s = .next t) : KeepsMemory s t := by
  cases h
  exact .ite (.refl s) (powerOn_memory ..)

theorem execPowerLoss_memory {mv : Nat} {complete : Bool} {us : Nat} {s : State} {t : State} (h : execPowerLoss mv complete us s = .next t) : KeepsMemory s t := by
  cases h
  exact .ite (powerLoss_memory ..) (.refl s)

theorem execInputReturn_memory {seed : BitVec 64} {s : State} {t : State} (h : execInputReturn seed s = .next t) : KeepsMemory s t := by
  cases h
  exact .ite (powerOn_memory ..) (.refl s)

theorem execFirmwareTrip_memory {cause : TripCause} {complete : Bool} {us : Nat} {s : State} {t : State} (h : execFirmwareTrip cause complete us s = .next t) : KeepsMemory s t := by
  cases h
  exact .ite (firmwareTrip_memory ..) (.refl s)

theorem execHardwareTrip_memory {d : DieId} {s : State} {t : State} (h : execHardwareTrip d s = .next t) : KeepsMemory s t := by
  cases h
  exact .ite (.trans .of_eq (powerOff_memory ..)) (.refl s)

theorem execEmergencyOff_memory {mv : Nat} {complete : Bool} {us : Nat} {s : State} {t : State} (h : execEmergencyOff mv complete us s = .next t) : KeepsMemory s t := by
  cases h
  exact .ite (.trans .of_eq (powerLoss_memory ..)) (.refl s)

theorem execPowerRestart_memory {mv : Nat} {emergN : Bool} {seed : BitVec 64} {s : State} {t : State} (h : execPowerRestart mv emergN seed s = .next t) : KeepsMemory s t := by
  cases h
  exact .ite (.refl s) (.ite (.trans .of_eq (powerOn_memory ..)) .of_eq)

theorem execHostPerstNAssert_memory {seed : BitVec 64} {s : State} {t : State} (h : execHostPerstNAssert seed s = .next t) : KeepsMemory s t := by
  cases h
  exact .ite (perstAssert_memory ..) (.refl s)

theorem execWarmReset_memory {cause : BitVec 3} {s : State} {t : State} (h : execWarmReset cause s = .next t) : KeepsMemory s t := by
  cases h
  exact .ite (.refl s) (warmReset_memory ..)

theorem execQpEnable_memory {fn : Tenant} {q : BitVec 3} {ctrl : Word} {line : DoorbellLine} {descs : List Descriptor} {s : State} {t : State} (h : execQpEnable fn q ctrl line descs s = .next t) : KeepsMemory s t := by
  cases h
  exact whenReady_memory _ fun s => writeCtrl_memory ..

theorem execQpDisable_memory {fn : Tenant} {q : BitVec 3} {s : State} {t : State} (h : execQpDisable fn q s = .next t) : KeepsMemory s t := by
  cases h
  exact whenReady_memory _ fun s => disablePair_memory ..

theorem execWindowResize_memory {size : Word} {s : State} {t : State} (h : execWindowResize size s = .next t) : KeepsMemory s t := by
  cases h
  refine whenReady_memory _ fun s => ?_
  split
  · exact writeWindow_memory _ _ _ ‹_›
  · exact refuseAt_memory ..

theorem execWindowTenantSet_memory {g : BitVec 8} {value : Word} {s : State} {t : State} (h : execWindowTenantSet g value s = .next t) : KeepsMemory s t := by
  cases h
  refine whenReady_memory _ fun s => ?_
  split
  · exact writeWindowTenant_memory _ _ _ _ ‹_›
  · exact refuseAt_memory ..

theorem execCntClear_memory {group : Word} {s : State} {t : State} (h : execCntClear group s = .next t) : KeepsMemory s t := by
  cases h
  exact whenReady_memory _ fun s => clearGroup_memory ..

theorem keepsMemory_of_untouched {c : Instr} {s t : State} (hc : [Part.store, Part.tier, Part.flash].all (· ∉ touches c)) (h : exec c s = .next t) :
    KeepsMemory s t := by
  have same (p : Part) (hp : p ∈ [Part.store, Part.tier, Part.flash]) : Part.same s t p :=
    same_of_allSame (exec_allSame h) (Part.mem_others (by simpa using List.all_eq_true.1 hc p hp))
  have store : t.store = s.store := same .store (by simp)
  have tier : t.tier = s.tier := same .tier (by simp)
  have flash : t.flash = s.flash := same .flash (by simp)
  exact .of_eq (by rw [store]) (by rw [tier]) (by rw [flash])

/-- A command keeps the three memories in canonical form: those that touch one of them by the law of what they do, the others by what they touch. -/
theorem exec_keepsMemory {c : Instr} {s t : State} (h : exec c s = .next t) : KeepsMemory s t := by
  cases c
  case dieLinkFlitReceive => cases h; exact flitReceive_memory ..
  case linkFailed => cases h; exact linkFailed_memory ..
  case subscribe => cases h; exact subscribe_memory ..
  case unsubscribe => cases h; exact unsubscribe_memory ..
  case readyNotice => cases h; exact readyNotice_memory ..
  case fenceDone => cases h; exact fenceDone_memory ..
  case quiesceReq => cases h; exact quiesceReq_memory ..
  case commitNotice => cases h; exact commitNotice_memory ..
  case retractNotice => cases h; exact retractNotice_memory ..
  case storeRead => cases h; exact storeRead_memory ..
  case storeReadHeader => cases h; exact storeRead_memory ..
  case storeFree => cases h; exact storeFree_memory ..
  case storeScrub => cases h; exact storeScrub_memory ..
  case storeWriteHeader => cases h; exact writeHeader_memory ..
  case storeWritePayload => cases h; exact writePayload_memory ..
  case scrubPaceTick => cases h; exact scrubPace_memory ..
  case storeZeroFillDone => cases h; exact zeroFillDone_memory ..
  case tierWriteTile => cases h; exact tierWrite_memory ..
  case tierWriteUnblocked => cases h; exact tierUnblocked_memory ..
  case tierReadTile => cases h; exact tierRead_memory ..
  case writeBack => cases h; exact writeBack_memory ..
  case migrateRoStart => cases h; exact migrateRoStart_memory ..
  case migrateRoSwitch => cases h; exact migrateRoSwitch_memory ..
  case migrateRoDrainEnd => cases h; exact migrateRoDrainEnd_memory ..
  case migrateStart => cases h; exact migrateStart_memory ..
  case migrateTileCopy => cases h; exact migrateTileCopy_memory ..
  case mr4Poll => cases h; exact mr4Poll_memory ..
  case wckOscCheck => cases h; exact wckCheck_memory ..
  case subchannelRetrainDone => cases h; exact windowResumes_memory ..
  case lpddr6TrainingDone => cases h; exact trainingDone_memory ..
  case streamTileWrite => cases h; exact streamWrite_memory ..
  case streamSlotPoll => cases h; exact streamPoll_memory ..
  case refetchReadback => cases h; exact refetchReadback_memory ..
  case vectorOp => exact execVectorOp_memory h
  case selectExact => exact execSelectExact_memory h
  case selectBucket => exact execSelectBucket_memory h
  case selectMerge => exact execSelectMerge_memory h
  case readyLineReread => cases h; exact lineReread_memory ..
  case walkStart => cases h; exact walkStart_memory ..
  case walkRoundEnd => cases h; exact walkRoundEnd_memory ..
  case scanIssue => cases h; exact scanIssue_memory ..
  case shelfUnitArrive => cases h; exact unitArrive_memory ..
  case chainTileArrive => cases h; exact chainArrive_memory ..
  case scanCut => cases h; exact scanCut_memory ..
  case shelfScanEnd => cases h; exact shelfEnd_memory ..
  case candidateMerge => cases h; exact mergeCandidates_memory ..
  case passageFetch => cases h; exact passageFetch_memory ..
  case passageUnitArrive => cases h; exact passageArrive_memory ..
  case fetchBudgetExpired => cases h; exact fetchBudget_memory ..
  case rerankStart => cases h; exact rerankStart_memory ..
  case rerankEnd => cases h; exact rerankEnd_memory ..
  case packStart => cases h; exact packStart_memory ..
  case promptReady => cases h; exact promptReady_memory ..
  case checkRecordWrite => cases h; exact checkRecordWrite_memory ..
  case stepBoundary => cases h; exact stepBoundary_memory ..
  case kvPageWrite => cases h; exact kvPageWrite_memory ..
  case attentionPagePartial => cases h; exact attentionPage_memory ..
  case drawPortServe => cases h; exact drawServe_memory ..
  case grammarMaskRequest => cases h; exact maskRequest_memory ..
  case tokenizerCheckDone => cases h; exact tokCheckDone_memory ..
  case committedTokensReceive => cases h; exact tokensReceive_memory ..
  case tableRefresh => cases h; exact tableRefresh_memory ..
  case hostWindowRead => cases h; exact windowHostRead_memory ..
  case hostWindowWrite => cases h; exact windowHostWrite_memory ..
  case backInvalidateResponse => cases h; exact snoopResponse_memory ..
  case completionPost => cases h; exact completionPost_memory ..
  case cxlHotReset => exact execCxlHotReset_memory h
  case functionLevelReset => exact execFunctionLevelReset_memory h
  case turn => exact execTurn_memory h
  case textAppend => exact execTextAppend_memory h
  case turnEndDeadline => cases h; exact turnEndDeadline_memory ..
  case embed => exact execEmbed_memory h
  case tokenize => exact execTokenize_memory h
  case detokenize => exact execDetokenize_memory h
  case indexInsert => exact execIndexInsert_memory h
  case indexPatch => exact execIndexPatch_memory h
  case indexDelete => exact execIndexDelete_memory h
  case loadExtent => exact execLoadExtent_memory h
  case programLoad => exact execProgramLoad_memory h
  case programReplaceSwitch => cases h; exact replaceSwitch_memory ..
  case programUnload => exact execProgramUnload_memory h
  case partitionUnloadDone => cases h; exact unloadDone_memory ..
  case cancel => exact execCancel_memory h
  case stepWatchdogExpiry => cases h; exact stepWatchdog_memory ..
  case fieldTestComplete => exact execFieldTestComplete_memory h
  case setteeRealign => cases h; exact realign_memory ..
  case setteeSilence => cases h; exact setteeSilence_memory ..
  case mirrorIndex => exact execMirrorIndex_memory h
  case mirrorRows => exact execMirrorRows_memory h
  case mirrorConfig => exact execMirrorConfig_memory h
  case mirrorAck => cases h; exact mirrorAck_memory ..
  case mirrorTimeout => cases h; exact mirrorTimeout_memory ..
  case forward => cases h; exact forward_memory ..
  case remoteTile => cases h; exact remoteTile_memory ..
  case retract => cases h; exact remoteRetract_memory ..
  case mirrorData => cases h; exact mirrorData_memory ..
  case journalReq => cases h; exact journalReq_memory ..
  case relinquish => cases h; exact relinquish_memory ..
  case leaseExpiryTake => cases h; exact leaseExpiry_memory ..
  case mapPortLookup => cases h; exact mapPort_memory ..
  case flashProgramDone => cases h; exact flashProgramDone_memory ..
  case flashReadDone => cases h; exact flashReadDone_memory ..
  case journalFlush => cases h; exact journalFlush_memory ..
  case mapImageSegment => cases h; exact mapImageSegment_memory ..
  case groupReadbackDone => cases h; exact groupReadback_memory ..
  case blockRewrite => cases h; exact blockRewrite_memory ..
  case wearLevelMove => cases h; exact wearLevel_memory ..
  case garbageCollect => cases h; exact garbageCollect_memory ..
  case blockErase => cases h; exact blockErase_memory ..
  case ftlColdRebuild => cases h; exact coldRebuild_memory ..
  case ftlWarmRebuild => cases h; exact warmRebuild_memory ..
  case watchdogStage1 => cases h; exact watchdogOne_memory ..
  case watchdogStage2 => cases h; exact watchdogLate_memory ..
  case rateFloorUnheld => cases h; exact rateFloorUnheld_memory ..
  case extentMap => exact execExtentMap_memory h
  case extentUnmap => exact execExtentUnmap_memory h
  case extentSet => exact execExtentSet_memory h
  case indexCreate => exact execIndexCreate_memory h
  case indexDestroy => exact execIndexDestroy_memory h
  case tableCreate => exact execTableCreate_memory h
  case tableDestroy => exact execTableDestroy_memory h
  case tenantRemove => exact execTenantRemove_memory h
  case quiesce => cases h; exact mailboxQuiesce_memory ..
  case blockReset => exact execBlockReset_memory h
  case pairTakeover => exact execPairTakeover_memory h
  case soloClear => exact execSoloClear_memory h
  case drainEnd => cases h; exact drainEnd_memory ..
  case bootOk => cases h; exact bootOk_memory ..
  case recoveryBoot => exact execRecoveryBoot_memory h
  case powerOn => exact execPowerOn_memory h
  case releaseChainStep => cases h; exact chainStep_memory ..
  case powerLoss => exact execPowerLoss_memory h
  case inputReturn => exact execInputReturn_memory h
  case firmwareTrip => exact execFirmwareTrip_memory h
  case hardwareTrip => exact execHardwareTrip_memory h
  case emergencyOff => exact execEmergencyOff_memory h
  case powerRestart => exact execPowerRestart_memory h
  case hostPerstNAssert => exact execHostPerstNAssert_memory h
  case warmReset => exact execWarmReset_memory h
  case registerWrite => cases h; exact registerWrite_memory ..
  case qpEnable => exact execQpEnable_memory h
  case qpDisable => exact execQpDisable_memory h
  case windowResize => exact execWindowResize_memory h
  case windowResizeDone => cases h; exact windowDone_memory ..
  case windowTenantSet => exact execWindowTenantSet_memory h
  case pairEnable => cases h; exact pairCtrl_memory ..
  case pairDisable => cases h; exact pairCtrl_memory ..
  case cntClear => exact execCntClear_memory h
  case counterLowRead => cases h; exact readRegister_memory ..
  case listCompactionSwitch => cases h; exact compactionSwitch_memory ..
  case listCompactionFree => cases h; exact compactionFree_memory ..
  case flashEraseDone => cases h; exact eraseDone_memory ..
  all_goals exact keepsMemory_of_untouched rfl h

/-- Settles O60: on an empty queue only time passes; the command at the front keeps the three memories. -/
theorem everyStepKeepsMemoryCanonical : Obligations.EveryStepKeepsMemoryCanonical := by
  unfold Obligations.EveryStepKeepsMemoryCanonical
  intro s t hs h
  unfold step takeCommand at h
  cases hp : s.pending with
  | nil =>
    simp only [hp] at h
    cases h
    exact (KeepsMemory.of_eq (s := s)).wf hs
  | cons c l =>
    simp only [hp] at h
    exact (exec_keepsMemory (s := { s with pending := l }) h).wf hs

end Sys2Proof.Machine

/-!
# Quiesce, rates and the reference clock, tokenizer sets, step notices (O6, O7, O8, O29)
-/

namespace Sys2Proof.Machine

/-! ## The quiesce handshake (R32) -/

section
variable {s : State} {b : BlockId} {q : Quiesce}

theorem quiesceReq_of_hung (h : mfind s.fabric.quiesce (blockKey b) = some q) (hq : q.stage = .hung) : quiesceReq s b = s := by
  obtain ⟨_, _⟩ := q
  cases hq
  simp [quiesceReq, h]

theorem quiesceReq_of_not_hung (h : ∀ x, mfind s.fabric.quiesce (blockKey b) = some x → x.stage ≠ .hung) : quiesceReq s b =
    if fenceOn s b.die then
      { s with fabric := { s.fabric with quiesce := mins s.fabric.quiesce (blockKey b) { stage := .waiting, since := recNow s } } }
    else startDrain s b (recNow s) := by
  unfold quiesceReq
  split
  case h_1 hf => exact absurd rfl (h _ hf)
  case h_2 => rfl

theorem blockQuiet_of_draining (h : mfind s.fabric.quiesce (blockKey b) = some q) (hq : q.stage = .draining) : blockQuiet s b =
    if tilesInFlight s b.die ≠ [] then s
    else sendCtrl { s with fabric := { s.fabric with quiesce := mins s.fabric.quiesce (blockKey b) { q with stage := .quiet } } }
      { src := b.die, block := b.block, dest := 0x3F, scope := 0xFF, type := 0x07 } := by
  obtain ⟨_, _⟩ := q
  cases hq
  simp only [blockQuiet, h]

theorem quiesceDone_of_quiet (h : mfind s.fabric.quiesce (blockKey b) = some q) (hq : q.stage = .quiet) : quiesceDone s b =
    { s with fabric := { s.fabric with quiesce := mins s.fabric.quiesce (blockKey b) { q with stage := .done } } } := by
  obtain ⟨_, _⟩ := q
  cases hq
  simp only [quiesceDone, h]

theorem quiesceOverdue_of_late (h : mfind s.fabric.quiesce (blockKey b) = some q) (hq : q.stage = .waiting ∨ q.stage = .draining ∨ q.stage = .quiet)
    (ht : 50000 ≤ since q.since (recNow s)) : quiesceOverdue s b = true := by
  simpa [quiesceOverdue, h, ht, or_assoc] using hq

/-- A block that is no engine is recorded as hung and nothing more. -/
theorem quiesceTimeout_of_overdue (h : quiesceOverdue s b = true) (he : engineOfBlock b = none) : quiesceTimeout s b = recordHung s b := by
  simp [quiesceTimeout, h, he]

end

/-- Settles O7: each answer of the handshake, from the stage in which the block is recorded. -/
theorem quiesceHandshake : Obligations.QuiesceHandshake := by
  unfold Obligations.QuiesceHandshake
  intro s b q
  refine ⟨fun h => ⟨fun hf => ?_, fun hf => ?_⟩, fun h hq => ?_, fun h hq ht => ?_, fun h hq ht => ?_, fun h hq => ?_, fun h hq ht he => ?_⟩
  · exact congrArg Host.Outcome.next ((quiesceReq_of_not_hung h).trans (by simp [hf, startDrain]))
  · exact congrArg Host.Outcome.next ((quiesceReq_of_not_hung h).trans (if_pos hf))
  · exact congrArg Host.Outcome.next (quiesceReq_of_hung h hq)
  · exact congrArg Host.Outcome.next ((blockQuiet_of_draining h hq).trans (if_neg (not_not_intro ht)))
  · exact congrArg Host.Outcome.next ((blockQuiet_of_draining h hq).trans (if_pos ht))
  · exact congrArg Host.Outcome.next (quiesceDone_of_quiet h hq)
  · exact congrArg Host.Outcome.next (quiesceTimeout_of_overdue (quiesceOverdue_of_late h hq ht) he)

/-! ## Rates and the reference clock (R28, R33, R452) -/

theorem mem_withLast {α : Type} [DecidableEq α] {x y : α} {l : List α} : x ∈ withLast y l ↔ x = y ∨ x ∈ l := by
  unfold withLast
  split
  · exact ⟨.inr, fun h => h.elim (· ▸ ‹_›) id⟩
  · simp [or_comm]

/-- The least of readings of which `r` is one and below which none lies is `r`. -/
theorem leastOf_eq {r : BitVec 16} {l : List (BitVec 16)} (hr : r ∈ l) (hl : ∀ x ∈ l, r.toNat ≤ x.toNat) : leastOf l = r.toNat := by
  induction l with
  | nil => cases hr
  | cons x l ih =>
    have hx := hl x List.mem_cons_self
    have hle : ∀ y ∈ l, r.toNat ≤ y.toNat := fun y hy => hl y (List.mem_cons_of_mem x hy)
    have lower : ∀ {l : List (BitVec 16)}, l ≠ [] → (∀ y ∈ l, r.toNat ≤ y.toNat) → r.toNat ≤ leastOf l := by
      intro l
      induction l with
      | nil => exact fun h => absurd rfl h
      | cons y l ih =>
        intro _ h
        cases l with
        | nil => exact h y List.mem_cons_self
        | cons z l => exact le_min (h y List.mem_cons_self) (ih (by simp) fun w hw => h w (List.mem_cons_of_mem y hw))
    cases l with
    | nil => simp_all [leastOf]
    | cons y l =>
      show min x.toNat (leastOf (y :: l)) = r.toNat
      rcases List.mem_cons.1 hr with rfl | hr
      · exact min_eq_left (lower (by simp) hle)
      · rw [ih hr hle]
        exact min_eq_right hx

theorem rateSample_of_least {s : State} {d : Nat} {r : BitVec 16} {rs : List (BitVec 16)} (hd : regulated d = true) (hr : r ∈ rs)
    (hl : ∀ x ∈ rs, r.toNat ≤ x.toNat) : rateSample s d rs =
      if r.toNat ≤ 1100 then
        logEvent { s with fabric := { s.fabric with rate := mput 0 s.fabric.rate d r } } (.rateFloor d r.toNat (voltOf s d) (domainTemp s d).toNat)
      else { s with fabric := { s.fabric with rate := mput 0 s.fabric.rate d r } } := by
  have hne : rs ≠ [] := List.ne_nil_of_mem hr
  simp only [rateSample, hd, hne, Bool.not_true, Bool.false_or, decide_false, Bool.false_eq_true, if_false, leastOf_eq hr hl, BitVec.ofNat_toNat,
    BitVec.setWidth_eq]
  rfl

/-- Settles O8: the least of the readings decides whether the event is logged. -/
theorem ratesAndReferenceClock : Obligations.RatesAndReferenceClock := by
  unfold Obligations.RatesAndReferenceClock
  intro s die d r rs
  refine ⟨⟨_, rfl, ?_, fun x hx => ?_, rfl⟩, rfl, fun hd hr hl => ⟨fun hlt => ?_, fun hle => ?_⟩, fun hc => ?_, rfl⟩
  · exact mem_withLast.2 (.inl rfl)
  · exact mem_withLast.trans (or_iff_right hx)
  · exact congrArg Host.Outcome.next ((rateSample_of_least hd hr hl).trans (if_neg (by omega)))
  · exact congrArg Host.Outcome.next ((rateSample_of_least hd hr hl).trans (if_pos hle))
  · exact congrArg Host.Outcome.next (if_pos hc)

/-! ## Tokenizer sets (R238, R239) -/

section
variable {s : State} {k : BitVec 2}

theorem verifySet_of_verified (h : setVerified s k) : verifySet s k = (s, true) := if_pos h

theorem badTile_of_verified (h : setVerified s k) : badTile s k = none := by
  have none_bad : (setTiles s k).find? (fun n => !tableTileOk s n) = none :=
    List.find?_eq_none.2 fun n hn => by simpa using List.all_eq_true.1 h n hn
  simp [badTile, none_bad]

theorem tokCheckDone_of_not_checking (h : (setOf s k).state ≠ .checking) : tokCheckDone s k = s := if_pos h

theorem tokCheckDone_of_badTile {cause off : Nat} (h : (setOf s k).state = .checking) (hb : badTile (verifySet s k).1 k = some (cause, off)) :
    tokCheckDone s k = logEvent (putSet (verifySet s k).1 k { setOf (verifySet s k).1 k with state := .refused })
      (.tokenizerRefused k.toNat cause off) := by
  simp only [tokCheckDone, h, hb, Option.orElse, ne_eq, not_true_eq_false, if_false]

theorem tokCheckDone_of_verified (h : (setOf s k).state = .checking) (hv : setVerified s k) : tokCheckDone s k = match setCheck s k with
    | none => putSet s k { setOf s k with state := .installed }
    | some (cause, off) => logEvent (putSet s k { setOf s k with state := .refused }) (.tokenizerRefused k.toNat cause off) := by
  simp only [tokCheckDone, h, verifySet_of_verified hv, badTile_of_verified hv, Option.orElse, ne_eq, not_true_eq_false, if_false] <;> rfl

end

/-- Settles O29: the register refuses while the set is checked or a partition is loaded, and the check names the first thing wrong. -/
theorem tokenizerSetsAreChecked : Obligations.TokenizerSetsAreChecked := by
  unfold Obligations.TokenizerSetsAreChecked
  intro s k
  refine ⟨fun hc hl => ⟨?_, fun hi => ?_, fun hi => ?_⟩, fun h => ?_, fun h hv => ?_, fun h cause off hb => ?_, fun h => ?_⟩
  · exact congrArg Host.Outcome.next (if_neg (by simp [hc, hl]))
  · exact congrArg Host.Outcome.next ((if_neg (by simp [hc, hl])).trans (if_pos hi))
  · exact congrArg Host.Outcome.next ((if_neg (by simp [hc, hl])).trans (if_neg hi))
  · have refused : (decide ((setOf s k).state = .checking) || anyLoaded s) = true := by simpa using h
    exact ⟨congrArg Host.Outcome.next (if_pos refused), congrArg Host.Outcome.next (if_pos refused)⟩
  · exact congrArg Host.Outcome.next (tokCheckDone_of_verified h hv)
  · exact congrArg Host.Outcome.next (tokCheckDone_of_badTile h hb)
  · exact congrArg Host.Outcome.next (tokCheckDone_of_not_checking h)

/-! ## Commit and retract notices (R53, R69) -/

section
variable {β : Type} [DecidableEq β] {d : β} {m : Map β}

theorem mfind_eq_some_iff (h : canonical d m = true) {k : Nat} {v : β} : mfind m k = some v ↔ (k, v) ∈ m :=
  ⟨mem_of_mfind, mfind_of_mem_canonical h⟩

omit [DecidableEq β] in
/-- A map that lists, at `k`, the update of what `m` lists there unless it is the default, reads so. -/
theorem mget_of_found {m' : Map β} {k : Nat} {g : β → β} (hg : g d = d)
    (h : ∀ w, mfind m' k = some w ↔ ∃ v, mfind m k = some v ∧ g v = w ∧ w ≠ d) : mget d m' k = g (mget d m k) := by
  unfold mget
  cases hv : mfind m k with
  | none =>
    have hn : mfind m' k = none := Option.eq_none_iff_forall_ne_some.2 fun w hw => by simp [hv] at h; exact h w hw
    simp [hn, hg]
  | some v =>
    by_cases hd : g v = d
    · have hn : mfind m' k = none := Option.eq_none_iff_forall_ne_some.2 fun w hw => by
        obtain ⟨v', hv', rfl, hne⟩ := (h w).1 hw
        cases hv.symm.trans hv'
        exact hne hd
      simp [hn, hd]
    · simp [(h _).2 ⟨v, hv, rfl, hd⟩]

/-- An update of every entry that leaves the default as it is, the defaults dropped, is read entry by entry. -/
theorem mget_map_filter (h : canonical d m = true) {f : Nat → β → β} (hf : ∀ k, f k d = d) (k : Nat) :
    mget d ((m.map fun e => (e.1, f e.1 e.2)).filter fun e => decide (e.2 ≠ d)) k = f k (mget d m k) := by
  refine mget_of_found (hf k) fun w => ?_
  rw [mfind_eq_some_iff (canonical_map_filter d f m h)]
  simp only [List.mem_filter, List.mem_map, Prod.exists, Prod.mk.injEq, decide_eq_true_eq, mfind_eq_some_iff h]
  constructor
  · rintro ⟨⟨j, v, hv, rfl, rfl⟩, hd⟩
    exact ⟨v, hv, rfl, hd⟩
  · rintro ⟨v, hv, rfl, hd⟩
    exact ⟨⟨k, v, hv, rfl, rfl⟩, hd⟩

end

theorem slotOf_mapSlots {s : State} {f : TileIdx → Slot → Slot} (h : canonical {} s.store.slots = true) (hf : ∀ t, f t {} = {}) (t : TileIdx) :
    slotOf (mapSlots s f) t = f t (slotOf s t) := by
  have read := mget_map_filter h (f := fun k => f (BitVec.ofNat 17 k)) (fun k => hf _) t.toNat
  simpa [slotOf, mapSlots] using read

/-- The slots that a commit of step `e` of partition `p` takes (R53). -/
def CommitTakes (p : PartId) (e : Epoch) (h : TileHeader) : Prop :=
  h.owner = p.setWidth 6 ∧ (h.state = .ready ∨ h.state = .held) ∧ h.epoch.toNat ≤ e.toNat

/-- The slots that a retraction of step `e` of partition `p` takes. -/
def RetractTakes (p : PartId) (e : Epoch) (h : TileHeader) : Prop :=
  h.owner = p.setWidth 6 ∧ (h.state = .ready ∨ h.state = .held) ∧ h.out = true ∧ e.toNat ≤ h.prod.toNat

section
variable {p : PartId} {e : Epoch} {x : Slot}

theorem commitSlot_eq : commitSlot p e x = if (decide (x.hdr.owner = p.setWidth 6) && (decide (x.hdr.state = .ready) || decide (x.hdr.state = .held))
    && decide (x.hdr.epoch.toNat ≤ e.toNat)) = true then
      if x.hdr.persist = false then { x with hdr := { x.hdr with state := .free } }
      else if x.hdr.state = .held then { x with hdr := { x.hdr with state := .ready } } else x
    else x := by
  cases hp : x.hdr.persist <;> simp [commitSlot, hp]

theorem commitSlot_of_not_taken (h : ¬CommitTakes p e x.hdr) : commitSlot p e x = x := by
  rw [commitSlot_eq, if_neg]
  simpa [CommitTakes, and_assoc] using h

theorem commitSlot_of_taken (h : CommitTakes p e x.hdr) : commitSlot p e x =
    if x.hdr.persist = false then { x with hdr := { x.hdr with state := .free } } else { x with hdr := { x.hdr with state := .ready } } := by
  rw [commitSlot_eq, if_pos (by simpa [CommitTakes, and_assoc] using h)]
  obtain ⟨-, hs, -⟩ := h
  refine if_congr Iff.rfl rfl ?_
  rcases hs with hs | hs
  · rw [if_neg (by simp [hs]), ← hs]
  · rw [if_pos hs]

theorem commitSlot_payload : (commitSlot p e x).payload = x.payload := by
  by_cases h : CommitTakes p e x.hdr
  · rw [commitSlot_of_taken h]
    split <;> rfl
  · rw [commitSlot_of_not_taken h]

theorem retractSlot_of_taken (h : RetractTakes p e x.hdr) : retractSlot p e x = { x with hdr := { x.hdr with state := .free } } := by
  refine if_pos ?_
  simpa [RetractTakes, and_assoc] using h

theorem retractSlot_of_not_taken (h : ¬RetractTakes p e x.hdr) : retractSlot p e x = x := by
  refine if_neg ?_
  simpa [RetractTakes, and_assoc] using h

end

theorem slotOf_commitNotice {s : State} (h : canonical {} s.store.slots = true) (p : PartId) (e : Epoch) (t : TileIdx) :
    slotOf (commitNotice s p e) t = commitSlot p e (slotOf s t) :=
  slotOf_mapSlots h (fun _ => commitSlot_of_not_taken (by rintro ⟨-, hs | hs, -⟩ <;> cases hs)) t

theorem slotOf_retractNotice {s : State} (h : canonical {} s.store.slots = true) (p : PartId) (e : Epoch) (t : TileIdx) :
    slotOf (retractNotice s p e) t = retractSlot p e (slotOf s t) :=
  slotOf_mapSlots h (fun _ => retractSlot_of_not_taken (by rintro ⟨-, hs | hs, -⟩ <;> cases hs)) t

/-- Settles O6: by the law of one slot under each of the two notices. -/
theorem commitAndRetractNotices : Obligations.CommitAndRetractNotices := by
  unfold Obligations.CommitAndRetractNotices
  intro s p e hc
  refine ⟨⟨_, rfl, fun x => ?_⟩, ⟨_, rfl, fun x => ?_⟩⟩
  · have law := slotOf_commitNotice hc p e x
    refine ⟨fun hm hp => ?_, fun hm hp => ?_, fun hm => ?_, ?_, rfl, fun c hc => ?_⟩
    · rw [law, commitSlot_of_taken hm, if_pos hp]
    · rw [law, commitSlot_of_taken hm, if_neg (by simp [hp])]
    · rw [law, commitSlot_of_not_taken hm]
    · rw [law, commitSlot_payload]
    · exact of_decide_eq_true (List.mem_filter.1 hc).2
  · have law := slotOf_retractNotice hc p e x
    exact ⟨fun hm => law.trans (retractSlot_of_taken hm), fun hm => law.trans (retractSlot_of_not_taken hm), rfl⟩

end Sys2Proof.Machine

/-!
# Die links (O1, O2)
-/

namespace Sys2Proof.Machine

/-! ## What the traffic of a link changes -/

/-- Only the links differ, and what has been put out. -/
def OnlyLinks (s t : State) : Prop :=
  ∃ ls out, t = { s with fabric := { s.fabric with links := ls }, host := { s.host with out := out } }

theorem OnlyLinks.refl (s : State) : OnlyLinks s s := ⟨_, _, rfl⟩

theorem OnlyLinks.trans {s t u : State} (h : OnlyLinks s t) (h' : OnlyLinks t u) : OnlyLinks s u := by
  obtain ⟨_, _, rfl⟩ := h
  obtain ⟨_, _, rfl⟩ := h'
  exact ⟨_, _, rfl⟩

theorem OnlyLinks.eq {s t : State} (h : OnlyLinks s t) :
    t = { s with fabric := { s.fabric with links := t.fabric.links }, host := { s.host with out := t.host.out } } := by
  obtain ⟨_, _, rfl⟩ := h
  rfl

theorem OnlyLinks.foldl {α : Type} {f : State → α → State} (hf : ∀ s a, OnlyLinks s (f s a)) (l : List α) (s : State) : OnlyLinks s (l.foldl f s) := by
  induction l generalizing s with
  | nil => exact .refl s
  | cons a l ih => exact (hf s a).trans (ih _)

theorem setLink_onlyLinks (s : State) (l : LinkId) (f : LinkState → LinkState) : OnlyLinks s (setLink s l f) := ⟨_, _, rfl⟩

theorem emit_onlyLinks (s : State) (o : Output) : OnlyLinks s (emit s o) := ⟨s.fabric.links, _, rfl⟩

theorem setLink_congr {s : State} {l : LinkId} {f g : LinkState → LinkState} (h : f (linkOf s l) = g (linkOf s l)) : setLink s l f = setLink s l g := by
  unfold linkOf at h
  simp only [setLink, mmod, h]

/-- An update of a link is the setting of what is then read there. -/
theorem setLink_eq_set (s : State) (l : LinkId) (f : LinkState → LinkState) : setLink s l f = setLink s l fun _ => linkOf (setLink s l f) l :=
  setLink_congr (by simp)

/-- The acknowledgement that rides in a flit on link `l`, and what the reverse link then no longer owes (R20). -/
theorem ridesOn_eq (s : State) (l : LinkId) (f : Flit) : ∃ c n cr, ridesOn s l f =
    ({ f with nak := false, ackSeq := (linkOf s l.rev).expect - 1, creditClass := c, credits := n },
      setLink s l.rev fun r => { r with ackDue := false, credit := cr }) := by
  unfold ridesOn
  dsimp only
  split
  case h_1 hc => exact ⟨f.creditClass, f.credits, [], by rw [setLink_congr]; rw [hc]⟩
  case h_2 => exact ⟨_, _, _, rfl⟩

/-- A flit that goes out keeps its link and the reverse one as to what each has received, and every other link. -/
theorem linkOf_sendFlit (s : State) (l : LinkId) (f : Flit) (m : LinkId) :
    (linkOf (sendFlit s l f) m).expect = (linkOf s m).expect ∧ (linkOf (sendFlit s l f) m).rx = (linkOf s m).rx := by
  obtain ⟨c, n, cr, h⟩ := ridesOn_eq s l f
  simp only [sendFlit, h, linkOf_emit, linkOf_setLink]
  constructor
  all_goals
    split
    · subst m
      simp only
      split
      · rename_i hl
        rw [← hl]
      · rfl
    · split
      · subst m
        rfl
      · rfl

theorem sendFlit_onlyLinks (s : State) (l : LinkId) (f : Flit) : OnlyLinks s (sendFlit s l f) := by
  obtain ⟨c, n, cr, h⟩ := ridesOn_eq s l f
  simp only [sendFlit, h]
  exact ((setLink_onlyLinks ..).trans (setLink_onlyLinks ..)).trans (emit_onlyLinks ..)

/-- What the sending of the waiting flits keeps, one flit at a time. -/
theorem pumpLink_induct {P : State → Prop} {l : LinkId}
    (step : ∀ s f, P s → P (sendFlit (setLink s l fun x => { x with waiting := x.waiting.erase f }) l f)) (k : Nat) {s : State} (h : P s) :
    P (pumpLink k s l) := by
  induction k generalizing s with
  | zero => exact h
  | succ k ih =>
    unfold pumpLink
    split
    · exact h
    · exact ih (step _ _ h)

theorem pumpLink_onlyLinks (k : Nat) (s : State) (l : LinkId) : OnlyLinks s (pumpLink k s l) :=
  pumpLink_induct (P := OnlyLinks s) (fun _ _ h => (h.trans (setLink_onlyLinks ..)).trans (sendFlit_onlyLinks ..)) k (.refl s)

theorem linkOf_pumpLink (k : Nat) (s : State) (l m : LinkId) :
    (linkOf (pumpLink k s l) m).expect = (linkOf s m).expect ∧ (linkOf (pumpLink k s l) m).rx = (linkOf s m).rx := by
  refine pumpLink_induct (P := fun u => (linkOf u m).expect = (linkOf s m).expect ∧ (linkOf u m).rx = (linkOf s m).rx) (fun u f h => ?_) k ⟨rfl, rfl⟩
  obtain ⟨he, hr⟩ := linkOf_sendFlit (setLink u l fun x => { x with waiting := x.waiting.erase f }) l f m
  rw [he, hr, linkOf_setLink]
  split
  · subst m
    exact h
  · exact h

theorem sendOn_onlyLinks (s : State) (l : LinkId) (fs : List Flit) : OnlyLinks s (sendOn s l fs) :=
  (setLink_onlyLinks ..).trans (pumpLink_onlyLinks ..)

/-- With nothing waiting, nothing goes out. -/
theorem pumpLink_of_no_waiting {s t : State} {l : LinkId} (h : (linkOf s l).waiting = []) : pumpLink (linkOf s l).waiting.length t l = t := by
  rw [h]
  rfl

theorem foldl_emit (f : Flit → Output) (fs : List Flit) (s : State) :
    fs.foldl (fun s x => emit s (f x)) s = { s with host := { s.host with out := (fs.map f).reverse ++ s.host.out } } := by
  induction fs generalizing s with
  | nil => rfl
  | cons x fs ih =>
    rw [List.foldl_cons, ih]
    simp only [List.map_cons, List.reverse_cons, List.append_assoc, List.singleton_append]
    rfl

theorem resendFrom_eq (s : State) (l : LinkId) (seq : BitVec 12) : resendFrom s l seq =
    { s with host := { s.host with out :=
        (((linkOf s l).replay.dropWhile fun f => decide (f.seq ≠ seq)).map (Output.flit l)).reverse ++ s.host.out } } :=
  foldl_emit _ _ _

theorem resendFrom_onlyLinks (s : State) (l : LinkId) (seq : BitVec 12) : OnlyLinks s (resendFrom s l seq) :=
  ⟨s.fabric.links, _, resendFrom_eq ..⟩

theorem linkOf_congr {s t : State} (h : t.fabric = s.fabric) (m : LinkId) : linkOf t m = linkOf s m := by simp only [linkOf, h]

@[simp] theorem linkOf_resendFrom (s : State) (l : LinkId) (seq : BitVec 12) (m : LinkId) : linkOf (resendFrom s l seq) m = linkOf s m :=
  linkOf_congr (by simp) m

/-! ## What an acknowledgement frees (R20) -/

/-- What the transmitter on `l` keeps of a flit that the receiver has acknowledged. -/
def acked (f : Flit) (k : LinkState) : LinkState :=
  { k with owed := mmod 0 k.owed f.creditClass.toNat (· - f.credits.toNat)
           replay := if f.nak then k.replay
                     else if k.replay.any fun g => decide (g.seq = f.ackSeq)
                     then (k.replay.dropWhile fun g => decide (g.seq ≠ f.ackSeq)).tail else k.replay }

theorem takeAck_eq (s : State) (l : LinkId) (f : Flit) : takeAck s l f =
    let u := setLink s l.rev (acked f)
    pumpLink (linkOf s l.rev).waiting.length (if f.nak then resendFrom u l.rev f.ackSeq else u) l.rev := by
  have waiting : (linkOf (if f.nak then resendFrom (setLink s l.rev (acked f)) l.rev f.ackSeq else setLink s l.rev (acked f)) l.rev).waiting
      = (linkOf s l.rev).waiting := by
    split <;> simp [acked]
  show pumpLink (linkOf (if f.nak then resendFrom (setLink s l.rev (acked f)) l.rev f.ackSeq else setLink s l.rev (acked f)) l.rev).waiting.length _ _ = _
  rw [waiting]
  rfl

theorem takeAck_onlyLinks (s : State) (l : LinkId) (f : Flit) : OnlyLinks s (takeAck s l f) := by
  rw [takeAck_eq]
  refine .trans (setLink_onlyLinks s l.rev (acked f)) (.trans ?_ (pumpLink_onlyLinks ..))
  split
  · exact resendFrom_onlyLinks ..
  · exact .refl _

/-- An acknowledgement leaves what the link `l` itself has received. -/
theorem linkOf_takeAck (s : State) (l : LinkId) (f : Flit) :
    (linkOf (takeAck s l f) l).expect = (linkOf s l).expect ∧ (linkOf (takeAck s l f) l).rx = (linkOf s l).rx := by
  rw [takeAck_eq]
  obtain ⟨he, hr⟩ := linkOf_pumpLink (linkOf s l.rev).waiting.length
    (if f.nak then resendFrom (setLink s l.rev (acked f)) l.rev f.ackSeq else setLink s l.rev (acked f)) l.rev l
  dsimp only
  rw [he, hr]
  split <;> simp [(LinkId.rev_ne l).symm]

theorem takeAck_of_no_waiting {s : State} {l : LinkId} (h : (linkOf s l.rev).waiting = []) (f : Flit) : takeAck s l f =
    if f.nak then resendFrom (setLink s l.rev (acked f)) l.rev f.ackSeq else setLink s l.rev (acked f) := by
  rw [takeAck_eq]
  exact pumpLink_of_no_waiting h

/-! ## A flit arrives (R18 to R20) -/

section
variable {s : State} {l : LinkId} {f : Flit}

/-- What the receiver notes of the flit that is the next in order. -/
def taken (k : LinkState) : LinkState := { k with expect := k.expect + 1, discarding := false, nakRun := 0, ackDue := true }

theorem flitReceive_of_bad_crc (hl : hasLink l = true) (hr : linkStopped s l = false) (hc : f.crc ≠ f.crcOf) : flitReceive s l f = nakFlit s l := by
  simp [flitReceive, hl, hr, hc]

theorem flitReceive_of_not_next (hl : hasLink l = true) (hr : linkStopped s l = false) (hc : f.crc = f.crcOf)
    (hn : f.ackOnly = true ∨ f.seq ≠ (linkOf s l).expect) : flitReceive s l f = takeAck s l f := by
  simp only [flitReceive, hl, hr, ← hc, Bool.not_true, Bool.or_self, Bool.false_eq_true, ne_eq, not_true_eq_false, if_false]
  exact if_pos (by simpa using hn)

theorem flitReceive_of_next (hl : hasLink l = true) (hr : linkStopped s l = false) (hc : f.crc = f.crcOf) (ha : f.ackOnly = false)
    (hs : f.seq = (linkOf s l).expect) : flitReceive s l f = deliverFlit (setLink (takeAck s l f) l taken) l f := by
  simp only [flitReceive, hl, hr, ← hc, Bool.not_true, Bool.or_self, Bool.false_eq_true, ne_eq, not_true_eq_false, if_false, ha, hs, decide_false]
  rfl

/-- A data flit to a die other than a store one, of a transfer that has more to come, is kept and credited at once. -/
theorem deliverFlit_of_part (s : State) (hd : l.down = true) (hst : isStore l.die = false) (hc : f.cls = 2) (hl : f.last = false) :
    deliverFlit s l f = setLink (setLink s l fun k => { k with rx := (linkOf s l).rx ++ [f] }) l
      fun k => { k with credit := mcount k.credit f.cls.toNat 1 } := by
  simp [deliverFlit, deliverDown, takeData, takenAtOnce, hd, hst, hc, hl]

/-- The CRC covers no bit of itself. -/
theorem Flit.crcOf_sealed (f : Flit) (c : BitVec 32) : ({ f with crc := c } : Flit).crcOf = f.crcOf := by
  simp only [Flit.crcOf, Flit.sideband]

theorem nakFlit_eq (s : State) (l : LinkId) : ∃ g : Flit, nakFlit s l = emit (setLink s l fun k =>
      { k with discarding := true, nakSeq := k.expect, nakRun := if k.nakSeq = k.expect then k.nakRun + 1 else 1 }) (.flit l.rev g)
    ∧ g.nak = true ∧ g.ackSeq = (linkOf s l).expect ∧ g.crc = g.crcOf :=
  ⟨_, rfl, rfl, rfl, (Flit.crcOf_sealed ..).symm⟩

end

/-- Settles O1: the three ends of a flit by its CRC, its kind and its number. -/
theorem dieLinkDeliversInOrder : Obligations.DieLinkDeliversInOrder := by
  unfold Obligations.DieLinkDeliversInOrder
  intro s l f hl hr
  refine ⟨fun hc ha hs => ⟨congrArg Host.Outcome.next (flitReceive_of_next hl hr hc ha hs), fun hd hst hcls hlast hn hw => ?_⟩, fun hc hn => ?_, fun hc => ?_⟩
  · have acknowledged : takeAck s l f = setLink s l.rev (acked f) := by rw [takeAck_of_no_waiting hw, hn]; rfl
    refine ⟨_, congrArg Host.Outcome.next ((flitReceive_of_next hl hr hc ha hs).trans (deliverFlit_of_part _ hd hst hcls hlast)), ?_, fun m hm hm' => ?_, ?_, ?_⟩
    · simp [acknowledged, taken, (LinkId.rev_ne l).symm, hs, hcls]
    · simp [acknowledged, hm, hm']
    · simp [acknowledged, acked]
    · simp only [acknowledged, setLink]
  · have same := takeAck_onlyLinks s l f
    obtain ⟨he, hx⟩ := linkOf_takeAck s l f
    refine ⟨_, congrArg Host.Outcome.next (flitReceive_of_not_next hl hr hc hn), rfl, he, hx, fun hw m hm => ?_, ?_⟩
    · rw [takeAck_of_no_waiting hw]
      split <;> simp [hm]
    · obtain ⟨_, _, h⟩ := same
      rw [h]
      exact ⟨rfl, rfl, rfl, rfl⟩
  · obtain ⟨g, hg, hnak, hack, hcrc⟩ := nakFlit_eq s l
    refine ⟨_, congrArg Host.Outcome.next (flitReceive_of_bad_crc hl hr hc), ?_, fun m hm => ?_, g, ?_, hnak, hack, hcrc⟩
    · simp [hg]
    · simp [hg, hm]
    · rw [hg, linkOf_emit, ← setLink_eq_set]

/-! ## The upkeep of a link (R20, R21) -/

section
variable {s : State} {l : LinkId}

theorem ackOnly_of_due (hd : (linkOf s l).ackDue = true ∨ (linkOf s l).credit ≠ []) (hr : linkStopped s l = false) : ∃ (g : Flit) (cr : Map Nat),
    ackOnly s l = emit (setLink s l fun k => { k with ackDue := false, credit := cr }) (.flit l.rev g)
      ∧ g.ackOnly = true ∧ g.payload = [] ∧ g.nak = false ∧ g.ackSeq = (linkOf s l).expect - 1 ∧ g.crc = g.crcOf := by
  obtain ⟨c, n, cr, h⟩ := ridesOn_eq s l.rev { dest := l.die, src := l.die, cls := 3 }
  rw [LinkId.rev_rev] at h
  have sent : ackOnly s l = emit (ridesOn s l.rev { dest := l.die, src := l.die, cls := 3 }).2
      (.flit l.rev { (ridesOn s l.rev { dest := l.die, src := l.die, cls := 3 }).1 with
        crc := (ridesOn s l.rev { dest := l.die, src := l.die, cls := 3 }).1.crcOf }) :=
    if_pos (by simpa [hr] using hd)
  rw [h] at sent
  exact ⟨_, cr, sent, rfl, rfl, rfl, rfl, (Flit.crcOf_sealed ..).symm⟩

theorem reinitialise_of_run (hn : 8 ≤ (linkOf s l).nakRun) (hr : linkStopped s l = false) : reinitialise s l =
    logEvent (setLink (setLink s l fun k => { k with nakRun := 0 }) l.pair fun k =>
      { k with reinit := true, reinitAt := recNow s :: lastSecond (recNow s) k.reinitAt }) (.unnamed 0 l.die [w32 l.die.toNat, w32 l.link.toNat]) := by
  unfold reinitialise
  rw [if_neg (by simp [hr, Nat.not_lt.2 hn])]
  rfl

theorem linkOf_logEvent (s : State) (e : Ev) (m : LinkId) : linkOf (logEvent s e) m = linkOf s m := linkOf_congr (by simp) m

theorem reinitDone_of_reinit (h : (linkOf s l.pair).reinit = true) : reinitDone s l =
    resumeLink (resumeLink (setLink s l.pair fun k => { k with reinit := false }) l.pair) l.pair.rev :=
  if_neg (by simp [h])

/-- With nothing waiting, what resumes is what the receiver has not yet taken. -/
theorem resumeLink_of_no_waiting (h : (linkOf s l).waiting = []) : resumeLink s l = resendFrom s l (linkOf s l).expect := by
  unfold resumeLink
  exact pumpLink_of_no_waiting (by simpa using h)

theorem linkFailed_of_memory (hf : (linkOf s l.pair).failed = false) (h3 : 3 ≤ (lastSecond (recNow s) (linkOf s l.pair).reinitAt).length)
    (hd : isMemory l.die = true ∨ l.die = 0x3C) (hc : isCompute l.die = false) (hh : l.die ∉ s.fabric.halfLink) : linkFailed s l =
      logEvent (moveTraffic (let u := setLink s l.pair fun k => { k with failed := true }
          { u with fabric := { u.fabric with halfLink := s.fabric.halfLink ++ [l.die] } }) l) (.unnamed 25 l.die [w32 l.die.toNat, w32 l.link.toNat]) := by
  unfold linkFailed
  rw [if_neg (by simp [hf, Nat.not_lt.2 h3])]
  dsimp only
  rw [if_neg (by simp [hc]), if_pos (by simpa [hh, setLink] using hd)]
  rfl

end

/-- Settles O2: each command of the upkeep, from the law of what it does. -/
theorem dieLinkUpkeep : Obligations.DieLinkUpkeep := by
  unfold Obligations.DieLinkUpkeep
  intro s l
  refine ⟨fun hd hr => ?_, fun hn hr => ?_, fun hi => ⟨congrArg Host.Outcome.next (reinitDone_of_reinit hi), fun hw hw' => ?_⟩, fun hf h3 hd hc hh =>
    congrArg Host.Outcome.next (linkFailed_of_memory hf h3 hd hc hh)⟩
  · obtain ⟨g, cr, h, hg⟩ := ackOnly_of_due hd hr
    refine ⟨_, congrArg Host.Outcome.next h, by simp, fun m hm => by simp [hm], g, ?_, hg⟩
    rw [linkOf_emit, ← setLink_eq_set]
  · refine ⟨_, congrArg Host.Outcome.next (reinitialise_of_run hn hr), ?_, ?_, ?_, ?_⟩
    · rw [linkOf_logEvent, linkOf_setLink]
      split
      · rename_i hp
        rw [← hp, linkOf_setLink]
        simp
      · simp
    · simp [linkOf_logEvent]
    · rw [linkOf_logEvent, linkOf_setLink, if_pos rfl, linkOf_setLink]
      split
      · rename_i hp
        rw [hp]
      · rfl
    · simp only [logEvent_frame]
      rfl
  · refine ⟨_, congrArg Host.Outcome.next (reinitDone_of_reinit hi), ?_⟩
    have up : (linkOf (setLink s l.pair fun k => { k with reinit := false }) l.pair).waiting = [] := by simpa using hw
    rw [resumeLink_of_no_waiting up, resumeLink_of_no_waiting (by simpa using hw'), linkOf_resendFrom, resendFrom_eq _ l.pair.rev,
      linkOf_resendFrom, resendFrom_eq]
    simp

end Sys2Proof.Machine

/-!
# What an event leaves of the host's part, and what a post does

An event is posted on the queue pair of its function: of `host` only the queue pairs change, and each keeps all but what waits on it.
-/

namespace Sys2Proof.Machine

/-- A queue pair but for the completions that wait on it. -/
def QueuePair.outsideWaiting (p : QueuePair) : QueuePair := { p with waiting := [] }

/-- Only completions that wait on queue pairs differ. -/
structure OnlyPosts (s t : State) : Prop where
  state : ∃ qps, t = { s with host := { s.host with qps := qps } }
  qp : ∀ fn q, (qpOf t fn q).outsideWaiting = (qpOf s fn q).outsideWaiting

theorem OnlyPosts.refl (s : State) : OnlyPosts s s := ⟨⟨s.host.qps, rfl⟩, fun _ _ => rfl⟩

theorem OnlyPosts.trans {s t u : State} (h : OnlyPosts s t) (h' : OnlyPosts t u) : OnlyPosts s u := by
  obtain ⟨⟨_, rfl⟩, hq⟩ := h
  obtain ⟨⟨_, rfl⟩, hq'⟩ := h'
  exact ⟨⟨_, rfl⟩, fun fn q => (hq' fn q).trans (hq fn q)⟩

theorem setQp_waiting_onlyPosts (s : State) (fn : Tenant) (q : BitVec 3) (f : List Completion → List Completion) :
    OnlyPosts s (setQp s fn q fun p => { p with waiting := f p.waiting }) := by
  refine ⟨⟨_, rfl⟩, fun gn r => ?_⟩
  rw [qpOf_setQp]
  split
  · rename_i h
    rw [h.1, h.2]
    rfl
  · rfl

theorem tryPost_onlyPosts (s : State) (fn : Tenant) (q : BitVec 3) (c : Completion) : OnlyPosts s (tryPost s fn q c).1 := by
  unfold tryPost
  split
  · exact setQp_waiting_onlyPosts ..
  · exact .refl s

/-- A completion that closes no request only joins those that wait. -/
theorem post_of_closes_none (s : State) (fn : Tenant) (q : BitVec 3) {c : Completion} (h : c.closes = none) : post s fn q c = (tryPost s fn q c).1 := by
  unfold post
  rw [h]
  rcases tryPost s fn q c with ⟨t, _ | _⟩ <;> rfl

theorem postEventTo_onlyPosts (s : State) (e : Ev) (fn : Tenant) : OnlyPosts s (postEventTo s e fn) := by
  unfold postEventTo
  rw [post_of_closes_none _ _ _ rfl]
  exact tryPost_onlyPosts ..

theorem postEvent_onlyPosts (s : State) (e : Ev) : OnlyPosts s (postEvent s e) := by
  unfold postEvent
  dsimp only
  split
  · exact (postEventTo_onlyPosts ..).trans (postEventTo_onlyPosts ..)
  · exact postEventTo_onlyPosts ..

theorem storeRecord_host (s : State) (e : Ev) (summary : Bool) : ∃ qps, (storeRecord s e summary).host = { s.host with qps := qps }
    ∧ ∀ fn q, (qpOf (storeRecord s e summary) fn q).outsideWaiting = (qpOf s fn q).outsideWaiting := by
  obtain ⟨⟨qps, h⟩, hq⟩ := postEvent_onlyPosts { s with bureau := { s.bureau with
    evSeq := s.bureau.evSeq + 1, fatalSeen := s.bureau.fatalSeen || decide (e.sev = 3), staged :=
      { code := e.code, source := e.src, world := e.world, severity := e.sev, summary := summary, time := s.bureau.recTime,
        seq := s.bureau.evSeq, params := e.p } :: s.bureau.staged } } e
  exact ⟨qps, congrArg State.host h, hq⟩

/-- Of the host's part an event changes what waits on queue pairs, and nothing else. -/
theorem logEvent_host_spec (s : State) (e : Ev) : ∃ qps, (logEvent s e).host = { s.host with qps := qps }
    ∧ ∀ fn q, (qpOf (logEvent s e) fn q).outsideWaiting = (qpOf s fn q).outsideWaiting := by
  unfold logEvent
  split
  · exact storeRecord_host ..
  · dsimp only
    split
    · exact storeRecord_host ..
    · exact ⟨s.host.qps, rfl, fun _ _ => rfl⟩

section
variable (s : State) (e : Ev)

theorem logEvent_host : (logEvent s e).host = { s.host with qps := (logEvent s e).host.qps } := by
  obtain ⟨qps, h, -⟩ := logEvent_host_spec s e
  rw [h]

@[simp] theorem logEvent_requests : (logEvent s e).host.requests = s.host.requests := by rw [logEvent_host]

@[simp] theorem logEvent_cntTenant : (logEvent s e).host.cntTenant = s.host.cntTenant := by rw [logEvent_host]

@[simp] theorem logEvent_out : (logEvent s e).host.out = s.host.out := by rw [logEvent_host]

@[simp] theorem reqOf_logEvent (h : Nat) : reqOf (logEvent s e) h = reqOf s h := by
  unfold reqOf
  rw [logEvent_requests]

end

end Sys2Proof.Machine

/-!
# Fences and subscriptions (O5)
-/

namespace Sys2Proof.Machine

/-! ## Fences (R31) -/

section
variable {s : State} {b : BlockId} {d : DieId} {k : BitVec 2} {st : BitVec 3} {f : Fence}

theorem mayAnswer_iff : mayAnswer s d f k st = true ↔ (k, st) ∈ f.arrived ∧ ∀ t ∈ f.earlier, t.setWidth 3 = st → t ∉ tilesInFlight s d := by
  simp [mayAnswer, imp_iff_not_or]

theorem fenceAnswer_of_found (h : mfind s.fabric.fences (fenceKey b d) = some f) : fenceAnswer s b d k st =
    { s with fabric := { s.fabric with
        fences := mins s.fabric.fences (fenceKey b d) (if mayAnswer s d f k st then { f with answers := withLast (k, st) f.answers } else f) } } := by
  simp only [fenceAnswer, modFence, h]

/-- A fence as it is issued. -/
def issuedFence (s : State) (d : DieId) : Fence :=
  { marked := liveLinks s d, earlier := tilesInFlight s d, answers := if dieQuiet s d then fenceAnswers s d else [] }

/-- A fence sends its markers, and is noted. -/
theorem fenceReq_eq (s : State) (b : BlockId) (d : DieId) : ∃ ls out, fenceReq s b d = { s with
    fabric := { s.fabric with fences := mins s.fabric.fences (fenceKey b d) (issuedFence s d), links := ls }, host := { s.host with out := out } } :=
  OnlyLinks.foldl (fun s k => sendOn_onlyLinks s { die := d, link := k, down := false } [fenceMarker b d]) (liveLinks s d)
    { s with fabric := { s.fabric with fences := mins s.fabric.fences (fenceKey b d) (issuedFence s d) } }

/-- The fence is over: its result is kept, the issuer told, and the blocks that waited for it drain (R31, R32). -/
def fenceOver (s : State) (b : BlockId) (d : DieId) (result : Nat) (status : BitVec 8) : State :=
  startWaiting (sendCtrl { s with fabric := { s.fabric with
      fences := mdel s.fabric.fences (fenceKey b d), fenceResult := mins s.fabric.fenceResult (fenceKey b d) result } }
    { src := d, dest := b.die, block := b.block, scope := 0xFF, type := 0x05, status := status }) d

theorem fenceDone_of_answered (h : mfind s.fabric.fences (fenceKey b d) = some f) (hr : f.reset = false)
    (ha : ∀ l ∈ f.marked, ∀ x, (l, x) ∈ f.answers) : fenceDone s b d false = fenceOver s b d 0 0 := by
  have all : f.marked.all (fun l => (List.range 8).all fun n => decide ((l, BitVec.ofNat 3 n) ∈ f.answers)) = true := by
    simpa using fun l hl n _ => ha l hl (BitVec.ofNat 3 n)
  simp only [fenceDone, h, hr, all, decide_true, Bool.or_true, Bool.and_self, if_true]
  rfl

theorem fenceDone_of_reset (h : mfind s.fabric.fences (fenceKey b d) = some f) (hr : f.reset = true) :
    fenceDone s b d true = fenceOver s b d 1 1 := by
  simp only [fenceDone, h, hr, decide_true, Bool.true_or, Bool.and_self, if_true]
  rfl

end

/-! ## Subscriptions (R50, R51) -/

/-- `withLast` by any decision of the membership. -/
theorem withLast_eq {α : Type} [DecidableEq α] (x : α) (l : List α) [Decidable (x ∈ l)] : withLast x l = if x ∈ l then l else l ++ [x] := by
  unfold withLast
  congr

section
variable {s : State} {b : BlockId} {t : TileIdx}

@[simp] theorem noteSecure_store (s : State) (m : CtrlMsg) : (noteSecure s m).store = s.store := by simp

theorem noteSecure_eq (s : State) (m : CtrlMsg) :
    noteSecure s m = { s with fabric := { s.fabric with secureReq := (noteSecure s m).fabric.secureReq } } := by
  unfold noteSecure
  split <;> rfl

theorem slotOf_noteSecure (s : State) (m : CtrlMsg) (u : TileIdx) : slotOf (noteSecure s m) u = slotOf s u := slotOf_congr (by simp) u

theorem subscribe_of_full (h : 64 ≤ (s.store.subs.filter fun x => decide (x.1 = b)).length) (hn : (b, t) ∉ s.store.subs) :
    subscribe s b t = noteSecure s (subscribeMsg b t) := by
  unfold subscribe
  exact if_pos (by simpa [hn] using h)

/-- A subscription that the block may hold is answered at once or recorded. -/
theorem subscribe_of_room (h : (s.store.subs.filter fun x => decide (x.1 = b)).length < 64 ∨ (b, t) ∈ s.store.subs) : subscribe s b t =
    if (slotOf s t).hdr.state = .ready ∨ (slotOf s t).hdr.state = .held then
      sendNotice { noteSecure s (subscribeMsg b t) with store := { s.store with notices := s.store.notices ++ [(b, t)] } } t b
    else { noteSecure s (subscribeMsg b t) with store := { s.store with subs := withLast (b, t) s.store.subs } } := by
  have room : ¬((b, t) ∉ s.store.subs ∧ 64 ≤ (s.store.subs.filter fun x => decide (x.1 = b)).length) := fun ⟨hn, hle⟩ =>
    h.elim (fun hlt => by omega) hn
  unfold subscribe
  simp only [slotOf_noteSecure, noteSecure_store]
  rw [if_neg room]
  simp

theorem readyNotice_of_noticed (h : (b, t) ∈ s.store.notices) : readyNotice s b t =
    { s with store := { s.store with notices := s.store.notices.erase (b, t), known := withLast (b, t) s.store.known } } :=
  if_pos h

end

/-- Settles O5: the marker goes out on every live link; an answer and an end by what the fence has gathered; a subscription by its tile. -/
theorem fencesAndSubscriptionsAreAnswered : Obligations.FencesAndSubscriptionsAreAnswered := by
  unfold Obligations.FencesAndSubscriptionsAreAnswered
  refine ⟨fun s b d k st f => ⟨?_, fun h ha hq => ?_, fun h hn => ?_, fun h hr ha => ?_, fun h hr => ?_⟩, fun s b t => ⟨⟨fun h => ⟨fun hs => ?_, fun hs => ?_⟩,
    fun h hn => ?_, noteSecure_eq ..⟩, ⟨_, rfl, ?_, fun x hx => ?_, rfl⟩, fun h => ?_⟩⟩
  · refine ⟨_, rfl, rfl, ?_⟩
    obtain ⟨ls, out, sent⟩ := fenceReq_eq s b d
    rw [sent]
    exact ⟨by simp [issuedFence], rfl⟩
  · exact congrArg Host.Outcome.next ((fenceAnswer_of_found h).trans (by rw [if_pos (mayAnswer_iff.2 ⟨ha, hq⟩)]))
  · refine ⟨_, congrArg Host.Outcome.next (fenceAnswer_of_found h), ?_⟩
    have refused : ¬mayAnswer s d f k st = true := fun hm => by
      obtain ⟨ha, hq⟩ := mayAnswer_iff.1 hm
      rcases hn with hn | ⟨t, ht, hst, hin⟩
      · exact hn ha
      · exact hq t ht hst hin
    simp [refused]
  · exact congrArg Host.Outcome.next (fenceDone_of_answered h hr ha)
  · exact congrArg Host.Outcome.next (fenceDone_of_reset h hr)
  · exact congrArg Host.Outcome.next ((subscribe_of_room h).trans (if_pos hs))
  · have unreadable : ¬((slotOf s t).hdr.state = .ready ∨ (slotOf s t).hdr.state = .held) := by rcases hs with hs | hs <;> simp [hs]
    refine congrArg Host.Outcome.next ((subscribe_of_room h).trans ?_)
    rw [if_neg unreadable, withLast_eq]
  · exact congrArg Host.Outcome.next (subscribe_of_full h hn)
  · simp [unsubscribe, without]
  · simp [unsubscribe, without, hx]
  · exact ⟨_, congrArg Host.Outcome.next (readyNotice_of_noticed h), mem_withLast.2 (.inl rfl), rfl, rfl⟩

end Sys2Proof.Machine

/-!
# The control ring and the hub (O3, O4)
-/

namespace Sys2Proof.Machine

/-! ## The control ring (R26, R336) -/

section
variable {s : State} {hub : BitVec 2} {m : CtrlMsg}

/-- The ring stage of a hub without the message. -/
def offRing (s : State) (hub : BitVec 2) (m : CtrlMsg) : State :=
  { s with fabric := { s.fabric with ring := mput [] s.fabric.ring hub.toNat ((mget [] s.fabric.ring hub.toNat).erase m) } }

/-- The message passes on to the next hub. -/
def passOn (s : State) (hub : BitVec 2) (m : CtrlMsg) : State :=
  { s with fabric := { s.fabric with ring := mmod [] s.fabric.ring (hub + 1).toNat (· ++ [m]) } }

/-- The answer to a request of the secure world is no longer due. -/
def answered (s : State) (m : CtrlMsg) : State :=
  if permittedReply s m then { s with fabric := { s.fabric with secureReq := without (m.dest, m.tag, m.src) s.fabric.secureReq } } else s

theorem ringHop_of_bad_crc : ringHop s hub m false = s := by simp [ringHop]

theorem ringHop_of_unlisted (hf : ringFirst (mget [] s.fabric.ring hub.toNat) m = true) (ht : m.type = 0 ∨ 10 < m.type.toNat) :
    ringHop s hub m true = { offRing s hub m with fabric := { (offRing s hub m).fabric with ringDrops := mcount s.fabric.ringDrops hub.toNat 1 } } := by
  have unlisted : (decide (m.type.toNat < 1) || decide (10 < m.type.toNat)) = true := by
    rcases ht with ht | ht <;> simp [ht]
  unfold ringHop
  simp only [hf, unlisted, Bool.not_true, Bool.or_self, Bool.false_eq_true, if_false, if_true]
  rfl

theorem ringHop_of_listed (hf : ringFirst (mget [] s.fabric.ring hub.toNat) m = true) (ht : 1 ≤ m.type.toNat ∧ m.type.toNat ≤ 10) :
    ringHop s hub m true =
      if worldDrops (offRing s hub m) m then dropForWorld (offRing s hub m) m m.dest
      else
        let u := noteSecure (offRing s hub m) m
        if m.bcast then
          let v := sendDownAll u hub m (allDies.filter fun d => decide (homeHub d = some hub))
          if homeHub m.src = some (hub + 1) || (homeHub m.src = none && hub = 3) then sendDownAll v hub m (allDies.filter isStore) else passOn v hub m
        else if hubServes hub m.dest then sendDown (answered u m) hub m m.dest
        else if homeHub m.dest = none then u
        else passOn u hub m := by
  have listed : (decide (m.type.toNat < 1) || decide (10 < m.type.toNat)) = false := by
    simp only [Bool.or_eq_false_iff, decide_eq_false_iff_not]
    omega
  unfold ringHop
  simp only [hf, listed, Bool.not_true, Bool.or_self, Bool.false_eq_true, if_false]
  rfl

@[simp] theorem worldDrops_offRing : worldDrops (offRing s hub m) m = worldDrops s m := rfl

/-- A broadcast is never dropped whole for its world: it is at each die that it is judged. -/
theorem worldDrops_of_bcast (h : m.bcast = true) : worldDrops s m = false := by simp [worldDrops, h]

theorem noteSecure_secureReq (s : State) (m : CtrlMsg) : ∃ l, noteSecure s m = { s with fabric := { s.fabric with secureReq := l } } :=
  ⟨_, noteSecure_eq s m⟩

theorem answered_secureReq (s : State) (m : CtrlMsg) : ∃ l, answered s m = { s with fabric := { s.fabric with secureReq := l } } := by
  unfold answered
  split
  · exact ⟨_, rfl⟩
  · exact ⟨s.fabric.secureReq, rfl⟩

/-- The hub that a die is reached by depends on the links alone. -/
theorem hubToward_congr {s t : State} (h : t.fabric.links = s.fabric.links) (hub : BitVec 2) (d : DieId) : hubToward t hub d = hubToward s hub d := by
  simp only [hubToward, liveLinks, linkOf, h]
  rfl

theorem hub_ne_next (hub : BitVec 2) : (hub + 1).toNat ≠ hub.toNat := by
  revert hub
  decide

end

/-- Settles O4: by the cases of one hop of the ring. -/
theorem controlRingDelivers : Obligations.ControlRingDelivers := by
  unfold Obligations.ControlRingDelivers
  intro s hub m hf
  refine ⟨congrArg Host.Outcome.next ringHop_of_bad_crc, fun ht => ⟨_, congrArg Host.Outcome.next (ringHop_of_unlisted hf ht), rfl⟩, fun ht hw hb hs => ?_,
    fun ht hw hb hs hh => ?_, fun ht hb => ?_, fun ht hw => ?_⟩
  · refine ⟨_, congrArg Host.Outcome.next (ringHop_of_listed hf ht), ?_⟩
    obtain ⟨l, hl⟩ := noteSecure_secureReq (offRing s hub m) m
    obtain ⟨l', hl'⟩ := answered_secureReq { offRing s hub m with fabric := { (offRing s hub m).fabric with secureReq := l } } m
    simp only [worldDrops_offRing, hw, hb, hs, hl, hl', Bool.false_eq_true, if_false, if_true]
    refine ⟨?_, fun k hk => ?_, rfl⟩
    · simp only [sendDown, hubQueue, mget_mmod, hubToward_congr (s := s) (t := { offRing s hub m with
        fabric := { (offRing s hub m).fabric with secureReq := l' } }) rfl, if_pos]
      rfl
    · simp only [sendDown, hubQueue, mget_mmod, hubToward_congr (s := s) (t := { offRing s hub m with
        fabric := { (offRing s hub m).fabric with secureReq := l' } }) rfl, if_neg hk]
      rfl
  · refine ⟨_, congrArg Host.Outcome.next (ringHop_of_listed hf ht), ?_⟩
    obtain ⟨l, hl⟩ := noteSecure_secureReq (offRing s hub m) m
    simp only [worldDrops_offRing, hw, hb, hs, hl, hh, Bool.false_eq_true, if_false]
    refine ⟨?_, ?_, rfl, rfl, rfl⟩
    · simp only [passOn, offRing, mget_mmod, mget_mput, if_neg (hub_ne_next hub), if_pos]
    · simp only [passOn, offRing, mget_mmod, mget_mput, if_neg (hub_ne_next hub).symm, if_pos]
  · refine congrArg Host.Outcome.next ((ringHop_of_listed hf ht).trans ?_)
    simp only [worldDrops_of_bcast hb, hb, Bool.false_eq_true, if_false, if_true]
    simp only [Bool.or_eq_true, Bool.and_eq_true, decide_eq_true_eq]
    rfl
  · refine ⟨_, congrArg Host.Outcome.next ((ringHop_of_listed hf ht).trans (if_pos hw)), ?_⟩
    simp only [dropForWorld, logEvent_frame, logEvent_cntTenant, countTenant, mget_mcount]
    simp [offRing]

/-! ## A flit goes out (R18 to R20) -/

/-- What goes out on `l` for the flit `f`, in state `s`. -/
structure SentAs (s : State) (l : LinkId) (f g : Flit) : Prop where
  payload : g.payload = f.payload
  cls : g.cls = f.cls
  src : g.src = f.src
  dest : g.dest = f.dest
  tag : g.tag = f.tag
  offset : g.offset = f.offset
  seq : g.seq = (linkOf s l).txSeq
  crc : g.crc = g.crcOf

theorem sendFlit_sent (s : State) (l : LinkId) (f : Flit) : ∃ g, SentAs s l f g ∧
    linkOf (sendFlit s l f) l = { linkOf s l with
      txSeq := (linkOf s l).txSeq + 1, replay := (linkOf s l).replay ++ [g], owed := mcount (linkOf s l).owed f.cls.toNat 1 }
    ∧ (sendFlit s l f).host.out = .flit l g :: s.host.out ∧ (sendFlit s l f).fabric.hubWait = s.fabric.hubWait := by
  obtain ⟨c, n, cr, h⟩ := ridesOn_eq s l f
  let sent : Flit := { f with nak := false, ackSeq := (linkOf s l.rev).expect - 1, creditClass := c, credits := n, seq := (linkOf s l).txSeq }
  have same : linkOf (setLink s l.rev fun r => { r with ackDue := false, credit := cr }) l = linkOf s l := by simp [(LinkId.rev_ne l).symm]
  refine ⟨{ sent with crc := sent.crcOf }, ⟨rfl, rfl, rfl, rfl, rfl, rfl, rfl, (Flit.crcOf_sealed ..).symm⟩, ?_, ?_, ?_⟩
  all_goals simp only [sendFlit, h, linkOf_emit, linkOf_setLink, if_true, same]
  all_goals rfl

/-! ## The choice of the hub (R19, R22, R23) -/

theorem downLink_down {hub : BitVec 2} {out : DieId} {l : LinkId} (h : downLink hub out = some l) : l.down = true := by
  obtain ⟨k, -, rfl⟩ := List.mem_map.1 (List.mem_of_find?_eq_some h)
  rfl

theorem linkOf_freeBuffer (s : State) (hub : BitVec 2) (d : DieId) (f : Flit) {l : LinkId} (hl : l.down = true) :
    linkOf (freeBuffer s hub d f) l = linkOf s l := by
  unfold freeBuffer
  split
  · rfl
  · split
    · refine (linkOf_setLink ..).trans (if_neg fun h => ?_)
      simp [h, LinkId.pair] at hl
    · rfl

theorem freeBuffer_onlyLinks (s : State) (hub : BitVec 2) (d : DieId) (f : Flit) : OnlyLinks s (freeBuffer s hub d f) := by
  unfold freeBuffer
  split
  · exact .refl s
  · split
    · exact setLink_onlyLinks ..
    · exact .refl s

/-- Round robin: of the inputs, the next one after `p`. -/
theorem nextInput_spec {p : Nat} {ins : List Nat} (hb : ∀ j ∈ ins, j < 64) (hne : ins ≠ []) : ∃ i, nextInput p ins = some i ∧ i ∈ ins
    ∧ ∀ j ∈ ins, (i + 127 - p % 64) % 64 ≤ (j + 127 - p % 64) % 64 := by
  obtain ⟨j₀, hj₀⟩ := List.exists_mem_of_ne_nil ins hne
  have reach : ∀ j ∈ ins, (p + 1 + (j + 127 - p % 64) % 64) % 64 = j := fun j hj => by
    have := hb j hj
    omega
  cases hn : nextInput p ins with
  | none =>
    have absent := List.find?_eq_none.1 hn _ (List.mem_map.2 ⟨(j₀ + 127 - p % 64) % 64, List.mem_range.2 (Nat.mod_lt _ (by decide)), rfl⟩)
    rw [reach j₀ hj₀] at absent
    simp [hj₀] at absent
  | some i =>
    obtain ⟨hi, l₁, l₂, hl, before⟩ := List.find?_eq_some_iff_append.1 hn
    have hi : i ∈ ins := of_decide_eq_true hi
    refine ⟨i, rfl, hi, fun j hj => ?_⟩
    by_contra hlt
    obtain ⟨hi64, hj64⟩ := And.intro (hb i hi) (hb j hj)
    have len : l₁.length = (i + 127 - p % 64) % 64 := by
      have at' := congrArg (·[l₁.length]?) hl
      have hlen := congrArg List.length hl
      simp at at' hlen
      rw [List.getElem?_range (by omega)] at at'
      simp at at'
      have := reach i hi
      omega
    have mem : j ∈ l₁ := by
      have at' := congrArg (·[(j + 127 - p % 64) % 64]?) hl
      simp only [List.getElem?_map, List.getElem?_range (Nat.mod_lt _ (by decide : 0 < 64)), Option.map_some, reach j hj] at at'
      rw [List.getElem?_append_left (by omega)] at at'
      exact List.mem_of_getElem? at'.symm
    have := before j mem
    simp [hj] at this

theorem takeFlit_spec {p : Flit → Bool} {i : Nat} {ws : List (DieId × Flit)} (h : ∃ x ∈ ws, x.1.toNat = i ∧ p x.2 = true) :
    ∃ w ∈ ws, w.1.toNat = i ∧ p w.2 = true ∧ takeFlit p i ws = some (w.2, ws.erase w) := by
  induction ws with
  | nil => simp at h
  | cons e ws ih =>
    obtain ⟨d, f⟩ := e
    by_cases hd : d.toNat = i ∧ p f = true
    · exact ⟨(d, f), List.mem_cons_self, hd.1, hd.2, by simp [takeFlit, hd]⟩
    · obtain ⟨x, hx, hxi, hxp⟩ := h
      have hx : x ∈ ws := (List.mem_cons.1 hx).resolve_left fun he => hd (by subst he; exact ⟨hxi, hxp⟩)
      obtain ⟨w, hw, hwi, hwp, ht⟩ := ih ⟨x, hx, hxi, hxp⟩
      have hne : (d, f) ≠ w := fun he => hd (by subst he; exact ⟨hwi, hwp⟩)
      refine ⟨w, List.mem_cons_of_mem _ hw, hwi, hwp, ?_⟩
      rw [takeFlit, if_neg hd, ht, List.erase_cons_tail (by simpa using hne)]

section
variable (s : State) (l : LinkId) (ws : List (DieId × Flit))

/-- A flit of the class waits, and the link takes it. -/
def classGoes (c : BitVec 2) : Bool := linkReady s l c && ws.any fun w => decide (w.2.cls = c)

/-- The data classes of which one goes. -/
def dataGoes : List (BitVec 2) := [0, 1, 2].filter (classGoes s l ws)

/-- The value that the manual leaves free decides between data classes. -/
def classDraw : BitVec 64 × State := if (dataGoes s l ws).length ≤ 1 then (0, s) else drawFree s

/-- The class that is granted. -/
def grantClass (run : Nat) : BitVec 2 :=
  if classGoes s l ws 3 && ((dataGoes s l ws).isEmpty || decide (3 ≤ run)) then 3
  else (dataGoes s l ws).getD ((classDraw s l ws).1.toNat % max 1 (dataGoes s l ws).length) 0

theorem classDraw_state : ∃ n, (classDraw s l ws).2 = { s with free := n } := by
  unfold classDraw
  split
  · exact ⟨s.free, rfl⟩
  · exact ⟨_, rfl⟩

variable {s l ws}

theorem mem_dataGoes {c : BitVec 2} : c ∈ dataGoes s l ws ↔ c ≠ 3 ∧ classGoes s l ws c = true := by
  have data : c ∈ ([0, 1, 2] : List (BitVec 2)) ↔ c ≠ 3 := by
    revert c
    decide
  simp only [dataGoes, List.mem_filter, data]

theorem classGoes_iff {c : BitVec 2} : classGoes s l ws c = true ↔ linkReady s l c = true ∧ ∃ w ∈ ws, w.2.cls = c := by
  simp [classGoes]

theorem grantClass_data {run : Nat} (hd : dataGoes s l ws ≠ []) (h : ¬(classGoes s l ws 3 = true ∧ 3 ≤ run)) :
    grantClass s l ws run ∈ dataGoes s l ws := by
  have pos : 0 < (dataGoes s l ws).length := List.length_pos_iff.2 hd
  unfold grantClass
  rw [if_neg (by simpa [hd] using h), List.getD_eq_getElem _ _ (Nat.lt_of_lt_of_eq (Nat.mod_lt _ (by omega)) (by omega))]
  exact List.getElem_mem _

theorem grantClass_ctrl {run : Nat} (hc : classGoes s l ws 3 = true) (h : dataGoes s l ws = [] ∨ 3 ≤ run) : grantClass s l ws run = 3 :=
  if_pos (by rw [hc]; rcases h with h | h <;> simp [h])

theorem grantClass_goes {run : Nat} (h : ∃ w ∈ ws, linkReady s l w.2.cls = true) : classGoes s l ws (grantClass s l ws run) = true := by
  by_cases hc : classGoes s l ws 3 = true ∧ (dataGoes s l ws = [] ∨ 3 ≤ run)
  · rw [grantClass_ctrl hc.1 hc.2]
    exact hc.1
  · by_cases hd : dataGoes s l ws = []
    · obtain ⟨w, hw, hr⟩ := h
      have goes : classGoes s l ws w.2.cls = true := classGoes_iff.2 ⟨hr, w, hw, rfl⟩
      have h3 : w.2.cls = 3 := by
        by_contra hne
        exact List.not_mem_nil (hd ▸ mem_dataGoes.2 ⟨hne, goes⟩)
      exact absurd ⟨h3 ▸ goes, .inl hd⟩ hc
    · exact (mem_dataGoes.1 (grantClass_data hd fun h => hc ⟨h.1, .inr h.2⟩)).2

end

theorem hubTakes_iff {s : State} {key : Nat} {out : DieId} {ws : List (DieId × Flit)} {c : BitVec 2} {f : Flit} : hubTakes s key out ws c f = true ↔
    f.cls = c ∧ (c = 2 → isCompute out = true → (∃ x ∈ ws, x.2.cls = 2 ∧ x.2.engine ≠ mget 0 s.fabric.hubEngine key) →
      f.engine ≠ mget 0 s.fabric.hubEngine key) := by
  have other : (ws.any fun w => decide (w.2.cls = c) && decide (w.2.engine ≠ mget 0 s.fabric.hubEngine key)) = true ↔
      ∃ x ∈ ws, x.2.cls = c ∧ x.2.engine ≠ mget 0 s.fabric.hubEngine key := by simp
  unfold hubTakes
  dsimp only
  rw [Bool.and_eq_true, Bool.not_eq_true', ← Bool.not_eq_true, Bool.and_eq_true, other]
  simp only [Bool.and_eq_true, decide_eq_true_eq, and_congr_right_iff]
  intro _
  constructor
  · rintro h rfl ho hx he
    exact h ⟨⟨⟨rfl, ho⟩, he⟩, hx⟩
  · rintro h ⟨⟨⟨rfl, ho⟩, he⟩, hx⟩
    exact h rfl ho hx he

/-- Of a class of which a flit waits the output may take one. -/
theorem exists_hubTakes {s : State} {key : Nat} {out : DieId} {ws : List (DieId × Flit)} {c : BitVec 2} (h : ∃ w ∈ ws, w.2.cls = c) :
    ∃ w ∈ ws, hubTakes s key out ws c w.2 = true := by
  by_cases hx : ∃ x ∈ ws, x.2.cls = c ∧ x.2.engine ≠ mget 0 s.fabric.hubEngine key
  · obtain ⟨x, hx, hc, he⟩ := hx
    exact ⟨x, hx, hubTakes_iff.2 ⟨hc, fun _ _ _ => he⟩⟩
  · obtain ⟨w, hw, hc⟩ := h
    exact ⟨w, hw, hubTakes_iff.2 ⟨hc, fun h2 _ h => absurd (h2 ▸ h) hx⟩⟩

/-! ## A grant -/

section
variable {s : State} {hub : BitVec 2} {out : DieId} {l : LinkId}

/-- The key of an output of a hub. -/
def outKey (hub : BitVec 2) (out : DieId) : Nat := hub.toNat * 64 + out.toNat

/-- What waits for an output of a hub. -/
def outWaits (s : State) (hub : BitVec 2) (out : DieId) : List (DieId × Flit) := mget [] s.fabric.hubWait (outKey hub out)

/-- The class that an output of a hub grants. -/
def outClass (s : State) (hub : BitVec 2) (out : DieId) (l : LinkId) : BitVec 2 :=
  grantClass s l (outWaits s hub out) (mget 3 s.fabric.hubCtrl (outKey hub out))

/-- What the hub notes of the grant of flit `f`, of class `c`, from input `i`. -/
def noteGrant (u : State) (hub : BitVec 2) (out : DieId) (c : BitVec 2) (run i : Nat) (f : Flit) (rest : List (DieId × Flit)) : State :=
  { u with fabric := { u.fabric with
    hubWait := mput [] u.fabric.hubWait (outKey hub out) rest
    hubEngine := if c = 2 && isCompute out then mput 0 u.fabric.hubEngine (outKey hub out) f.engine else u.fabric.hubEngine
    hubRr := mput 63 u.fabric.hubRr (outKey hub out * 4 + c.toNat) i
    hubCtrl := mput 3 u.fabric.hubCtrl (outKey hub out) (if c = 3 then 0 else min 3 (run + 1)) } }

theorem hubGrant_of_none (hl : downLink hub out = some l) (h : ∀ w ∈ outWaits s hub out, linkReady s l w.2.cls = false) : hubGrant s hub out = s := by
  have none_goes (c : BitVec 2) : classGoes s l (outWaits s hub out) c = false := Bool.eq_false_iff.2 fun hg => by
    obtain ⟨hr, w, hw, rfl⟩ := classGoes_iff.1 hg
    simp [h w hw] at hr
  have no_data : dataGoes s l (outWaits s hub out) = [] := by simp [dataGoes, none_goes]
  have idle : (decide (dataGoes s l (outWaits s hub out) = []) && !classGoes s l (outWaits s hub out) 3) = true := by simp [no_data, none_goes]
  unfold hubGrant
  simp only [hl]
  exact if_pos idle

theorem hubGrant_of_some (hl : downLink hub out = some l) (h : ∃ w ∈ outWaits s hub out, linkReady s l w.2.cls = true) {i : Nat} {f : Flit}
    {rest : List (DieId × Flit)}
    (hi : nextInput (mget 63 s.fabric.hubRr (outKey hub out * 4 + (outClass s hub out l).toNat))
      (((outWaits s hub out).filter fun w => hubTakes s (outKey hub out) out (outWaits s hub out) (outClass s hub out l) w.2).map fun w => w.1.toNat)
        = some i)
    (ht : takeFlit (hubTakes s (outKey hub out) out (outWaits s hub out) (outClass s hub out l)) i (outWaits s hub out) = some (f, rest)) :
    hubGrant s hub out =
      sendFlit (freeBuffer (noteGrant (classDraw s l (outWaits s hub out)).2 hub out (outClass s hub out l)
        (mget 3 s.fabric.hubCtrl (outKey hub out)) i f rest) hub (BitVec.ofNat 6 i) f) l f := by
  have goes : classGoes s l (outWaits s hub out) (outClass s hub out l) = true := grantClass_goes h
  have busy : ¬(decide (dataGoes s l (outWaits s hub out) = []) && !classGoes s l (outWaits s hub out) 3) = true := by
    by_cases h3 : outClass s hub out l = 3
    · rw [h3] at goes
      rw [goes]
      simp
    · simp [List.ne_nil_of_mem (mem_dataGoes.2 ⟨h3, goes⟩)]
  let ws := outWaits s hub out
  let c := outClass s hub out l
  let u := (classDraw s l ws).2
  obtain ⟨n, hn⟩ : ∃ n, u = { s with free := n } := classDraw_state s l ws
  have unfolded : hubGrant s hub out = if decide (dataGoes s l ws = []) && !classGoes s l ws 3 then s else
      match nextInput (mget 63 u.fabric.hubRr (outKey hub out * 4 + c.toNat))
        ((ws.filter fun w => hubTakes u (outKey hub out) out ws c w.2).map fun w => w.1.toNat) with
      | none => u
      | some i => match takeFlit (hubTakes u (outKey hub out) out ws c) i ws with
        | none => u
        | some (f, rest) => sendFlit (freeBuffer (noteGrant u hub out c (mget 3 s.fabric.hubCtrl (outKey hub out)) i f rest) hub (BitVec.ofNat 6 i) f) l f := by
    unfold hubGrant
    simp only [hl] <;> rfl
  rw [unfolded, if_neg busy]
  have hi' : nextInput (mget 63 u.fabric.hubRr (outKey hub out * 4 + c.toNat))
      ((ws.filter fun w => hubTakes u (outKey hub out) out ws c w.2).map fun w => w.1.toNat) = some i := by
    rw [hn]
    exact hi
  have ht' : takeFlit (hubTakes u (outKey hub out) out ws c) i ws = some (f, rest) := by
    rw [hn]
    exact ht
  simp only [hi', ht'] <;> rfl

/-- With a flit that the link takes, one is chosen: the next input of the class that is granted, and its first flit there (R19, R22, R23). -/
theorem hubGrant_chooses (hl : downLink hub out = some l) (h : ∃ w ∈ outWaits s hub out, linkReady s l w.2.cls = true) :
    ∃ w ∈ outWaits s hub out, hubTakes s (outKey hub out) out (outWaits s hub out) (outClass s hub out l) w.2 = true
      ∧ (∀ x ∈ outWaits s hub out, hubTakes s (outKey hub out) out (outWaits s hub out) (outClass s hub out l) x.2 = true →
          let rr := mget 63 s.fabric.hubRr (outKey hub out * 4 + (outClass s hub out l).toNat) % 64
          (w.1.toNat + 127 - rr) % 64 ≤ (x.1.toNat + 127 - rr) % 64)
      ∧ ∃ n, hubGrant s hub out = sendFlit (freeBuffer (noteGrant { s with free := n } hub out (outClass s hub out l)
          (mget 3 s.fabric.hubCtrl (outKey hub out)) w.1.toNat w.2 ((outWaits s hub out).erase w)) hub (BitVec.ofNat 6 w.1.toNat) w.2) l w.2 := by
  have goes : classGoes s l (outWaits s hub out) (outClass s hub out l) = true := grantClass_goes h
  obtain ⟨w₀, hw₀, ht₀⟩ := exists_hubTakes (s := s) (key := outKey hub out) (out := out) (classGoes_iff.1 goes).2
  have inputs {j : Nat} : j ∈ ((outWaits s hub out).filter fun w =>
      hubTakes s (outKey hub out) out (outWaits s hub out) (outClass s hub out l) w.2).map (fun w => w.1.toNat) ↔
      ∃ x ∈ outWaits s hub out, x.1.toNat = j ∧ hubTakes s (outKey hub out) out (outWaits s hub out) (outClass s hub out l) x.2 = true := by
    simp only [List.mem_map, List.mem_filter]
    exact ⟨fun ⟨x, ⟨hx, ht⟩, hj⟩ => ⟨x, hx, hj, ht⟩, fun ⟨x, hx, hj, ht⟩ => ⟨x, ⟨hx, ht⟩, hj⟩⟩
  obtain ⟨i, hi, hmem, hleast⟩ := nextInput_spec (p := mget 63 s.fabric.hubRr (outKey hub out * 4 + (outClass s hub out l).toNat))
    (fun j hj => by obtain ⟨x, -, rfl, -⟩ := inputs.1 hj; exact x.1.isLt) (List.ne_nil_of_mem (inputs.2 ⟨w₀, hw₀, rfl, ht₀⟩))
  obtain ⟨w, hw, rfl, ht, htake⟩ := takeFlit_spec (inputs.1 hmem)
  obtain ⟨n, hn⟩ := classDraw_state s l (outWaits s hub out)
  exact ⟨w, hw, ht, fun x hx hxt => hleast _ (inputs.2 ⟨x, hx, rfl, hxt⟩), n, hn ▸ hubGrant_of_some hl h hi htake⟩

/-- A grant of the flit `w`: it leaves the waiting list, goes out on the link, and no other waiting list changes. -/
theorem grant_spec {n run i : Nat} {c : BitVec 2} {w : DieId × Flit} {t : State} (hl : downLink hub out = some l)
    (ht : t = sendFlit (freeBuffer (noteGrant { s with free := n } hub out c run i w.2 ((outWaits s hub out).erase w)) hub (BitVec.ofNat 6 i) w.2) l w.2) :
    mget [] t.fabric.hubWait (outKey hub out) = (outWaits s hub out).erase w
      ∧ (∀ k, k ≠ outKey hub out → mget [] t.fabric.hubWait k = mget [] s.fabric.hubWait k)
      ∧ (∃ g, (linkOf t l).replay = (linkOf s l).replay ++ [g] ∧ SentAs s l w.2 g ∧ t.host.out = .flit l g :: s.host.out)
      ∧ (linkOf t l).txSeq = (linkOf s l).txSeq + 1
      ∧ mget 0 (linkOf t l).owed w.2.cls.toNat = mget 0 (linkOf s l).owed w.2.cls.toNat + 1
      ∧ t.store = s.store ∧ t.tier = s.tier ∧ t.bureau = s.bureau := by
  let noted := noteGrant { s with free := n } hub out c run i w.2 ((outWaits s hub out).erase w)
  have same : linkOf (freeBuffer noted hub (BitVec.ofNat 6 i) w.2) l = linkOf s l := linkOf_freeBuffer _ _ _ _ (downLink_down hl)
  obtain ⟨ls, out', hfree⟩ := freeBuffer_onlyLinks noted hub (BitVec.ofNat 6 i) w.2
  have outs : (freeBuffer noted hub (BitVec.ofNat 6 i) w.2).host.out = s.host.out := by simp [noted, noteGrant]
  have waits : (freeBuffer noted hub (BitVec.ofNat 6 i) w.2).fabric.hubWait = mput [] s.fabric.hubWait (outKey hub out) ((outWaits s hub out).erase w) := by
    rw [hfree]
    rfl
  obtain ⟨g, hg, hlink, hout, hwait⟩ := sendFlit_sent (freeBuffer noted hub (BitVec.ofNat 6 i) w.2) l w.2
  rw [same] at hlink
  rw [outs] at hout
  rw [waits] at hwait
  subst ht
  refine ⟨by rw [hwait]; simp, fun k hk => by rw [hwait]; simp [hk], ⟨g, by rw [hlink], ?_, hout⟩, by rw [hlink], by rw [hlink]; simp, ?_, ?_, ?_⟩
  · obtain ⟨hp, hc, hs, hd, htag, ho, hseq, hcrc⟩ := hg
    exact ⟨hp, hc, hs, hd, htag, ho, by rw [hseq, same], hcrc⟩
  all_goals simp [noteGrant]

end

/-- Settles O3: the class that is granted, the input that is next, and the flit that goes. -/
theorem hubGrantsOneFlit : Obligations.HubGrantsOneFlit := by
  unfold Obligations.HubGrantsOneFlit
  intro s hub out l hl
  refine ⟨fun h => ?_, fun h => congrArg Host.Outcome.next (hubGrant_of_none hl h)⟩
  obtain ⟨w, hw, htakes, hleast, n, hgrant⟩ := hubGrant_chooses hl h
  obtain ⟨hcls, halt⟩ := hubTakes_iff.1 htakes
  obtain ⟨hwait, hother, ⟨g, hreplay, hg, hout⟩, hseq, howed, hstore, htier, hbureau⟩ := grant_spec hl hgrant
  obtain ⟨hp, hc, hs, hd, htag, ho, hgseq, hcrc⟩ := hg
  have goes : classGoes s l (outWaits s hub out) (outClass s hub out l) = true := grantClass_goes h
  have data : ((outWaits s hub out).any fun w => decide (w.2.cls ≠ 3) && linkReady s l w.2.cls) = true ↔ dataGoes s l (outWaits s hub out) ≠ [] := by
    rw [ne_eq, List.eq_nil_iff_forall_not_mem]
    simp only [List.any_eq_true, Bool.and_eq_true, decide_eq_true_eq, not_forall, not_not, mem_dataGoes, classGoes_iff]
    exact ⟨fun ⟨x, hx, h3, hr⟩ => ⟨_, h3, hr, x, hx, rfl⟩, fun ⟨_, h3, hr, x, hx, hxc⟩ => ⟨x, hx, hxc ▸ h3, hxc ▸ hr⟩⟩
  refine ⟨_, congrArg Host.Outcome.next hgrant, w, hw, hgrant ▸ hwait, fun k hk => hgrant ▸ hother k hk, ?_, ⟨g, hgrant ▸ hreplay, hp, hc, hs, hd, htag,
    ho, hgseq, hcrc, hgrant ▸ hout⟩, hgrant ▸ hseq, hgrant ▸ howed, fun hctrl hdr => ?_, fun hdata hrun h3 => ?_, fun h2 ho hx => ?_, fun x hx hxt => ?_,
    hgrant ▸ hstore, hgrant ▸ htier, hgrant ▸ hbureau⟩
  · rw [hcls]
    exact (classGoes_iff.1 goes).1
  · rw [hcls]
    refine grantClass_ctrl hctrl (hdr.imp_left fun hno => ?_)
    by_contra hne
    exact Bool.false_ne_true (hno.symm.trans (data.2 hne))
  · rw [hcls] at h3
    exact (mem_dataGoes.1 (grantClass_data (data.1 hdata) fun hrun' => absurd hrun'.2 (Nat.not_le.2 hrun))).1 h3
  · exact halt (hcls.symm.trans h2) ho hx
  · rw [hcls] at hxt ⊢
    exact hleast x hx hxt

end Sys2Proof.Machine

/-!
# The store takes writes, scrubs and zero-fills (O10, O11)
-/

namespace Sys2Proof.Machine

/-! ## Bytes -/

@[simp] theorem length_pad (n : Nat) (bs : Bytes) : (pad n bs).length = n := by
  induction n generalizing bs with
  | zero => rfl
  | succ n ih => cases bs <;> simp [pad, ih]

@[simp] theorem length_toLE (n v : Nat) : (toLE n v).length = n := by
  induction n generalizing v with
  | zero => rfl
  | succ n ih => simp [toLE, ih]

theorem leNat_toLE (n v : Nat) : leNat (toLE n v) = v % 256 ^ n := by
  induction n generalizing v with
  | zero => simp [toLE, leNat, Nat.mod_one]
  | succ n ih =>
    rw [pow_succ', Nat.mod_mul (x := v) (a := 256) (b := 256 ^ n), toLE, leNat, ih, BitVec.toNat_ofNat]

/-- What was written at an offset is read there. -/
theorem rd_splice_same (bs : Bytes) (off n v : Nat) : rd (splice bs off (toLE n v)) off n = v % 256 ^ n := by
  rw [← leNat_toLE]
  unfold rd splice
  rw [List.append_assoc, List.drop_left' (length_pad off bs), List.take_left' (length_toLE n v)]

/-! ## A header opens a slot (R48) -/

section
variable {s : State} {src : DieId} {tag : BitVec 16} {t : TileIdx} {h : TileHeader} {w : Bool}

/-- The slot that an accepted header opens. -/
def openedSlot (src : DieId) (tag : BitVec 16) (h : TileHeader) (w : Bool) (x : Slot) : Slot :=
  { hdr := acceptHeader src h w, src := src, tag := tag, flips := x.flips.filter fun e => decide (e.1 < 4096) }

theorem writeHeader_of_accepted (hz : zeroFilling s t = false) (ho : outsideShare s src h t = none)
    (hs : shapeOk h.format h.rows.toNat h.cols.toNat = true) (hf : (slotOf s t).hdr.state = .free) :
    writeHeader s src tag t h w = setSlot s t (openedSlot src tag h w) := by
  unfold writeHeader
  rw [if_neg (by simp [hz]), ho]
  dsimp only
  rw [if_neg (by simp [hs]), if_neg (by simp [hf])]
  rfl

theorem writeHeader_of_refused (hz : zeroFilling s t = false) (ho : outsideShare s src h t = none)
    (hr : shapeOk h.format h.rows.toNat h.cols.toNat = false ∨ (slotOf s t).hdr.state ≠ .free) :
    ∃ cause, writeHeader s src tag t h w = refuseWrite (discardFlits s src tag) src tag t h cause := by
  unfold writeHeader
  rw [if_neg (by simp [hz]), ho]
  dsimp only
  split
  · exact ⟨_, rfl⟩
  · rename_i hs
    rw [if_pos (hr.resolve_left (by simpa using hs))]
    exact ⟨_, rfl⟩

theorem setSlot_eq_set (s : State) (t : TileIdx) (f : Slot → Slot) : setSlot s t f = setSlot s t fun _ => f (slotOf s t) := rfl

/-- A compute die never writes a shared tile. -/
theorem keepsShared_of_compute (hc : isCompute src = true) (h : TileHeader) : keepsShared src h = false := by
  have low : src.toNat < 24 := of_decide_eq_true hc
  have other : (decide (src = 0x3F) || ((isMemory src || isFlash src || decide (src = 0x3C)) && decide (h.cls = 0))) = false := by
    have far {n : BitVec 6} (hn : 24 ≤ n.toNat) : src ≠ n := by rintro rfl; omega
    have hm : isMemory src = false := by simp [isMemory]; omega
    have hf : isFlash src = false := by simp [isFlash]; omega
    have hb : src ≠ 0x3F := far (by decide)
    have ht : src ≠ 0x3C := far (by decide)
    rw [hm, hf, decide_eq_false hb, decide_eq_false ht]
    rfl
  unfold keepsShared
  rw [other, Bool.and_false]

/-! ## The payload (R49) -/

theorem announce_eq (s : State) (t : TileIdx) : ∃ ring, announce s t = { s with
    store := { s.store with
      subs := s.store.subs.filter fun x => decide (x.2 ≠ t), notices := s.store.notices ++ s.store.subs.filter fun x => decide (x.2 = t) }
    fabric := { s.fabric with ring := ring } } := by
  have sent (l : List (BlockId × TileIdx)) (s : State) :
      ∃ ring, l.foldl (fun s x => sendNotice s t x.1) s = { s with fabric := { s.fabric with ring := ring } } := by
    induction l generalizing s with
    | nil => exact ⟨s.fabric.ring, rfl⟩
    | cons x l ih =>
      obtain ⟨ring, hr⟩ := ih (sendNotice s t x.1)
      exact ⟨ring, hr⟩
  exact sent _ { s with store := { s.store with
    subs := s.store.subs.filter fun x => decide (x.2 ≠ t), notices := s.store.notices ++ s.store.subs.filter fun x => decide (x.2 = t) } }

theorem slotOf_announce (s : State) (t u : TileIdx) : slotOf (announce s t) u = slotOf s u := by
  obtain ⟨ring, h⟩ := announce_eq s t
  exact slotOf_congr (by rw [h]) u

variable {k : BitVec 6} {d : Bytes}

theorem writePayload_of_refusing {n : Nat} (h : mfind s.store.refusing (xferKey src tag) = some n) : writePayload s src tag k d =
    { s with store := { s.store with
      refusing := if n ≤ 1 then mdel s.store.refusing (xferKey src tag) else mins s.store.refusing (xferKey src tag) (n - 1) } } := by
  simp only [writePayload, h]

/-- The slot with one more flit of its payload. -/
def withFlit (x : Slot) (k : BitVec 6) (d : Bytes) : Slot :=
  { x with payload := splice x.payload (256 * k.toNat) (pad 256 d), got := x.got ++ [k]
           flips := x.flips.filter fun e => decide (e.1 / 64 ≠ k.toNat) }

theorem writePayload_of_new (hr : mfind s.store.refusing (xferKey src tag) = none) (hf : fillingSlot s src tag = some t)
    (hk : k ∉ (slotOf s t).got) : writePayload s src tag k d =
      if (slotOf s t).got.length = 63 then
        announce (setSlot (setSlot s t fun _ => withFlit (slotOf s t) k d) t fun x => { x with hdr := { x.hdr with state := .ready } }) t
      else setSlot s t fun _ => withFlit (slotOf s t) k d := by
  have noted : setSlot s t (fun x => { x with payload := splice x.payload (256 * k.toNat) (pad 256 d), got := withLast k x.got
                                              flips := x.flips.filter fun e => decide (e.1 / 64 ≠ k.toNat) })
      = setSlot s t fun _ => withFlit (slotOf s t) k d := by
    rw [setSlot_eq_set]
    simp [withFlit, withLast, hk]
  simp only [writePayload, hr, hf, noted, slotOf_setSlot, if_true]
  refine if_congr ?_ rfl rfl
  simp [withFlit]

end

/-- Settles O10: a header by the slot and the shape, a flit by how many the slot has got. -/
theorem storeWritesTiles : Obligations.StoreWritesTiles := by
  unfold Obligations.StoreWritesTiles
  intro s src tag t h w k d n
  refine ⟨fun hz ho => ⟨fun hs hf => ?_, fun hr => ?_⟩, fun hr => congrArg Host.Outcome.next (writePayload_of_refusing hr), fun hr hfill _ hk => ⟨fun hlt => ?_, fun he => ?_⟩⟩
  · refine ⟨_, congrArg Host.Outcome.next (writeHeader_of_accepted hz ho hs hf), ?_⟩
    have opened : slotOf (setSlot s t (openedSlot src tag h w)) t = openedSlot src tag h w (slotOf s t) := by simp
    rw [opened]
    refine ⟨rfl, rfl, fun hc => ?_, fun hb => ?_, rfl, rfl, rfl, rfl⟩
    · exact keepsShared_of_compute hc h
    · simp [openedSlot, acceptHeader, keepsShared, hb]
  · obtain ⟨cause, hc⟩ := writeHeader_of_refused (tag := tag) (w := w) hz ho hr
    refine ⟨_, congrArg Host.Outcome.next hc, ?_⟩
    unfold refuseWrite discardFlits
    simp only [logEvent_frame]
    split <;> simp
  · exact congrArg Host.Outcome.next ((writePayload_of_new hr hfill hk).trans (if_neg hlt.ne))
  · let ready := setSlot (setSlot s t fun _ => withFlit (slotOf s t) k d) t fun x => { x with hdr := { x.hdr with state := .ready } }
    have law : writePayload s src tag k d = announce ready t := (writePayload_of_new hr hfill hk).trans (if_pos he)
    obtain ⟨ring, ha⟩ := announce_eq ready t
    refine ⟨_, congrArg Host.Outcome.next law, ?_, fun z hz => ?_, fun b => ?_, ?_, ?_⟩
    · simp [slotOf_announce, ready, withFlit]
    · simp [slotOf_announce, ready, hz]
    all_goals rw [ha]
    · simp
    · rfl
    · rfl

/-! ## The scrub (R57) and the zero fill (R62) -/

section
variable {s : State} {t : TileIdx}

theorem scrubPace_eq (s : State) : scrubPace s = { s with store := { s.store with
    scrubAsked := s.store.scrubAsked ++ (List.range 8).map fun d => BitVec.ofNat 17 (8 * s.store.scrubNext.toNat + d)
    scrubNext := s.store.scrubNext + 1
    passCorrected := if s.store.scrubNext = 16383 then [] else s.store.passCorrected } } := by
  have last : s.store.scrubNext.toNat = 16383 ↔ s.store.scrubNext = 16383 := by
    rw [← BitVec.toNat_inj]
    rfl
  unfold scrubPace
  by_cases h : s.store.scrubNext = 16383
  · rw [if_pos h]
    exact if_pos (last.2 h)
  · rw [if_neg h]
    exact if_neg (mt last.1 h)

theorem storeScrub_of_filling (hz : zeroFilling s t = false) (hf : (slotOf s t).hdr.state = .filling) (ups : List Upset) : storeScrub s t ups =
    { s with store := { s.store with scrubAsked := without t s.store.scrubAsked, scrubSkips := s.store.scrubSkips + 1 } } := by
  unfold storeScrub
  rw [if_neg (by simp [hz])]
  exact if_pos hf

theorem storeScrub_of_not_filling (hz : zeroFilling s t = false) (hf : (slotOf s t).hdr.state ≠ .filling) (ups : List Upset) : storeScrub s t ups =
    eccRead { s with store := { s.store with scrubAsked := without t s.store.scrubAsked } } t ups true := by
  unfold storeScrub
  rw [if_neg (by simp [hz])]
  exact if_neg hf

/-- A word written back as it read reads as it did. -/
theorem slotWord_setSlotWord_same (x : Slot) {i : Nat} (hi : i < 4096) : slotWord (setSlotWord x i (slotWord x i)) i = slotWord x i := by
  have word (x : Slot) : slotWord x i = w32 (rd x.payload (4 * i) 4) := if_pos hi
  have set : setSlotWord x i (slotWord x i) = { x with payload := splice x.payload (4 * i) (toLE 4 (slotWord x i).toNat) } := if_pos hi
  have lt : (slotWord x i).toNat < 256 ^ 4 := (slotWord x i).isLt
  rw [set, word, rd_splice_same, Nat.mod_eq_of_lt lt]
  exact (BitVec.ofNat_toNat ..).trans (BitVec.setWidth_eq ..)

/-- The slot of a word that was disturbed and corrected. -/
def correctedSlot (x : Slot) (u : Upset) : Slot := cleanWords (setSlotWord (disturbWord x u) u.word (slotWord x u.word)) [u.word]

theorem correctedSlot_eq {x : Slot} {u : Upset} (hfl : x.flips = []) (hw : u.word < 4096) :
    slotWord (correctedSlot x u) u.word = slotWord x u.word ∧ (correctedSlot x u).hdr = x.hdr ∧ (correctedSlot x u).flips = [] := by
  have disturbed : ∃ f, disturbWord x u = { x with flips := f } ∧ mdel f u.word = [] := by
    unfold disturbWord
    rw [if_pos (by omega), hfl]
    refine ⟨_, rfl, ?_⟩
    simp only [mmod, mput]
    split <;> simp [mins, mdel]
  obtain ⟨f, hd, hf⟩ := disturbed
  have set : setSlotWord (disturbWord x u) u.word (slotWord x u.word) =
      { setSlotWord x u.word (slotWord x u.word) with flips := f } := by
    rw [hd]
    simp [setSlotWord, hw]
  unfold correctedSlot
  rw [set]
  refine ⟨slotWord_setSlotWord_same x hw, ?_, hf⟩
  simp [cleanWords, setSlotWord, hw]

/-- A single disturbed word that its check bits correct: it is written back, and counted for its bank and its pass. -/
theorem eccRead_of_corrected {u : Upset} (hfl : (slotOf s t).flips = []) (hw : u.word < 4096)
    (hc : secdedRead (slotWord (slotOf s t) u.word) u.mask = (.corrected, slotWord (slotOf s t) u.word)) (hm : u.mask ≠ 0) :
    let v := eccRead s t [u] true
    slotOf v t = correctedSlot (slotOf s t) u
      ∧ v.store.corrected = mcount s.store.corrected (64 * (storeDie t).toNat + wordBank t u.word) 1
      ∧ v.store.passCorrected = mcount s.store.passCorrected (storeDie t).toNat 1 := by
  have disturbed : disturbWord (slotOf s t) u = { slotOf s t with flips := [(u.word, u.mask)] } := by
    unfold disturbWord
    rw [if_pos (by omega), hfl]
    have set : mmod 0 [] u.word (· ^^^ u.mask) = [(u.word, u.mask)] := by
      have hm : ¬u.mask = 0#39 := hm
      simp [mmod, mput, mins, hm]
    rw [set]
  have word : slotWord (disturbWord (slotOf s t) u) u.word = slotWord (slotOf s t) u.word := by
    rw [disturbed]
    rfl
  have read : slotOf (setSlot s t fun x => [u].foldl disturbWord x) t = disturbWord (slotOf s t) u := by simp
  have one : eccRead s t [u] true = eccWord (setSlot s t fun x => disturbWord x u) t u.word := by
    unfold eccRead
    dsimp only
    rw [read, disturbed]
    rfl
  have corrected : eccWord (setSlot s t fun x => disturbWord x u) t u.word =
      let v := setSlot (setSlot s t fun x => disturbWord x u) t fun x => cleanWords (setSlotWord x u.word (slotWord (slotOf s t) u.word)) [u.word]
      let v := { v with store := { v.store with
        corrected := mcount v.store.corrected (64 * (storeDie t).toNat + wordBank t u.word) 1
        passCorrected := mcount v.store.passCorrected (storeDie t).toNat 1 } }
      if mget 0 v.store.passCorrected (storeDie t).toNat = 65 then logEvent v (.unnamed 10 0x3F [w32 (storeDie t).toNat]) else v := by
    have flips : wordFlips (disturbWord (slotOf s t) u) u.word = u.mask := by
      rw [disturbed]
      simp [wordFlips, mget, mfind]
    unfold eccWord
    simp only [slotOf_setSlot, if_true, word, flips, hc, hw]
  have read' : slotOf (setSlot (setSlot s t fun x => disturbWord x u) t fun x =>
      cleanWords (setSlotWord x u.word (slotWord (slotOf s t) u.word)) [u.word]) t = correctedSlot (slotOf s t) u := by simp [correctedSlot]
  dsimp only
  rw [one, corrected]
  dsimp only
  split
  · simp only [slotOf_logEvent, logEvent_frame]
    exact ⟨read', rfl, rfl⟩
  · exact ⟨read', rfl, rfl⟩

end

/-- Settles O11: by the state of the slot that the scrub reaches, and for a corrected word by the law of its reading. -/
theorem storeScrubAndZeroFill : Obligations.StoreScrubAndZeroFill := by
  unfold Obligations.StoreScrubAndZeroFill
  intro s t d ups
  refine ⟨⟨_, congrArg Host.Outcome.next (scrubPace_eq s), rfl, rfl, fun h => if_pos h, fun h => if_neg h, rfl, rfl⟩,
    fun hz hf => congrArg Host.Outcome.next (storeScrub_of_filling hz hf ups), fun hz hf => congrArg Host.Outcome.next (storeScrub_of_not_filling hz hf ups),
    fun hz hr hfl u hw hc hm => ?_, ⟨_, rfl, ?_, fun x hx => ?_, rfl⟩⟩
  · have hnf : (slotOf s t).hdr.state ≠ .filling := by simp [hr]
    let asked : State := { s with store := { s.store with scrubAsked := without t s.store.scrubAsked } }
    obtain ⟨hslot, hcorr, hpass⟩ := eccRead_of_corrected (s := asked) (t := t) (u := u) hfl hw hc hm
    obtain ⟨hword, hhdr, hflips⟩ := correctedSlot_eq (x := slotOf s t) (u := u) hfl hw
    refine ⟨_, congrArg Host.Outcome.next (storeScrub_of_not_filling hz hnf [u]), ?_, ?_, ?_, ?_, ?_, fun y hy => slotOf_eccRead_other _ _ _ hy⟩
    all_goals rw [show eccRead _ t [u] true = eccRead asked t [u] true from rfl]
    · rw [hslot]
      exact hword
    · rw [hslot]
      exact hhdr
    · rw [hslot]
      exact hflips
    · rw [hcorr]
      exact (mget_mcount ..).trans (if_pos rfl)
    · rw [hpass]
      exact (mget_mcount ..).trans (if_pos rfl)
  · simp [zeroFillDone, without]
  · simp [zeroFillDone, without, hx]

end Sys2Proof.Machine

/-! Extents: how entries are read and changed; waiting writes, write-back and migration. -/

namespace Sys2Proof.Machine

/-! ## The tier table -/

/-- An entry depends on the directory and the leaves alone. -/
theorem entryOf_congr {s u : State} (hd : u.tier.dir = s.tier.dir) (hl : u.tier.leaves = s.tier.leaves) (x : Nat) :
    entryOf u x = entryOf s x := by
  simp only [entryOf, entryKey, hd, hl]

theorem entryOf_tier {s u : State} (h : u.tier = s.tier) (x : Nat) : entryOf u x = entryOf s x :=
  entryOf_congr (by rw [h]) (by rw [h]) x

/-- An entry that is there stands in the leaf its directory entry names. -/
theorem exists_key {s : State} {x : Nat} {e : ExtentEntry} (h : entryOf s x = some e) :
    ∃ k, entryKey s x = some k ∧ mfind s.tier.leaves k = some e ∧ e.valid = true := by
  unfold entryOf at h
  split at h
  · cases h
  · next k hk =>
    split at h
    · cases h
    · next y hy =>
      split at h
      · next hv => cases h; exact ⟨k, hk, hy, hv⟩
      · cases h

/-- A changed entry that is still valid reads back as changed. -/
theorem entryOf_setEntry {s : State} {x : Nat} {e : ExtentEntry} (f : ExtentEntry → ExtentEntry) (h : entryOf s x = some e)
    (hv : (f e).valid = true) : entryOf (setEntry s x f) x = some (f e) := by
  obtain ⟨k, hk, hl, -⟩ := exists_key h
  have hne : f e ≠ {} := fun hz => by rw [hz] at hv; cases hv
  have hset : setEntry s x f = { s with tier := { s.tier with leaves := mins s.tier.leaves k (f e) } } := by
    unfold setEntry
    rw [hk]
    show { s with tier := { s.tier with leaves := mmod {} s.tier.leaves k f } } = _
    rw [mmod, mget_of_mfind hl, mput, if_neg hne]
  rw [hset]
  unfold entryOf
  rw [show entryKey { s with tier := { s.tier with leaves := mins s.tier.leaves k (f e) } } x = some k from hk]
  simp only [mfind_mins, if_true, hv]

/-- Of the tier part a changed entry changes the leaves alone. -/
theorem setEntry_eq (s : State) (x : Nat) (f : ExtentEntry → ExtentEntry) :
    ∃ l, setEntry s x f = { s with tier := { s.tier with leaves := l } } := by
  unfold setEntry
  split
  · exact ⟨_, rfl⟩
  · exact ⟨_, rfl⟩

@[simp] theorem lTile_setEntry (s : State) (x : Nat) (f : ExtentEntry → ExtentEntry) (n : Nat) : lTile (setEntry s x f) n = lTile s n := by
  obtain ⟨l, hl⟩ := setEntry_eq s x f
  rw [hl]
  rfl

theorem lTile_congr {s u : State} (h : u.tier.lmem = s.tier.lmem) (n : Nat) : lTile u n = lTile s n := by
  simp only [lTile, h]

theorem lTile_putL_same (s : State) (n : Nat) (t : Tile) (d : Bool) :
    lTile (putL s n t d) n = { hdr := storedHeader t.hdr, payload := t.payload, dirty := d } := by
  simp [lTile, putL]

@[simp] theorem devExtent_tile (x : Nat) (t : BitVec 7) : devExtent (128 * x + t.toNat) = x := by
  unfold devExtent
  omega

@[simp] theorem devPos_tile (x : Nat) (t : BitVec 7) : devPos (128 * x + t.toNat) = t := by
  apply BitVec.eq_of_toNat_eq
  rw [devPos, BitVec.toNat_ofNat]
  omega

/-! ## Writes that waited -/

/-- A write placed in tier L, with the dirty bit of a WB extent (R70, R72). -/
theorem devWrite_tierL {s : State} {x : Nat} {t : BitVec 7} {e : ExtentEntry} (tl : Tile) (he : entryOf s x = some e)
    (hp : (place e t).1 = 2) :
    ∃ l d, devWrite s (128 * x + t.toNat) tl =
      { putL s (place e t).2 tl (decide (e.cls = 1)) with
        tier := { (putL s (place e t).2 tl (decide (e.cls = 1))).tier with leaves := l, dirtyAt := d } } := by
  have hput : putAt s (place e t) tl e (128 * x + t.toNat) false = putL s (place e t).2 tl (decide (e.cls = 1)) := by
    unfold putAt
    rw [hp]
    rfl
  unfold devWrite
  rw [devExtent_tile, he]
  dsimp only
  rw [devPos_tile, hput]
  split
  · obtain ⟨l, hl⟩ := setEntry_eq (putL s (place e t).2 tl (decide (e.cls = 1))) x
      fun e => { e with tilemap := e.tilemap ||| BitVec.ofNat 128 (2 ^ t.toNat) }
    rw [hl]
    exact ⟨l, _, rfl⟩
  · exact ⟨s.tier.leaves, s.tier.dirtyAt, rfl⟩

/-- A data-plane write that passes its checks goes on to its place. -/
theorem tierWrite_of_ok {s : State} {w : PendWrite} {e : ExtentEntry} (he : entryOf s w.x = some e) (hb : windowBarred s w.rq w.x = false)
    (hc : tierCheck w.rq e = .ok) (h0 : e.cls ≠ 0) : tierWrite s w = tierWriteGo s w e := by
  unfold tierWrite
  rw [hb]
  simp only [Bool.false_eq_true, if_false, he, hc, if_neg h0]

theorem tierWriteGo_of_free {s : State} {w : PendWrite} {e : ExtentEntry} (h : writeWaits s e w.t = false) :
    tierWriteGo s w e = tierReply (devWrite s (128 * w.x + w.t.toNat) w.tile) w.rq w.x w.t .ok none := by
  simp only [tierWriteGo, h, Bool.false_eq_true, if_false]

theorem tierUnblocked_of_waits {s : State} {i : Nat} {w : PendWrite} {e : ExtentEntry} (hw : s.tier.waiting[i]? = some w)
    (he : entryOf s w.x = some e) (h : writeWaits s e w.t = true) : tierUnblocked s i = s := by
  simp only [tierUnblocked, hw, he, h, if_true]

theorem tierUnblocked_of_free {s : State} {i : Nat} {w : PendWrite} {e : ExtentEntry} (hw : s.tier.waiting[i]? = some w)
    (he : entryOf s w.x = some e) (h : writeWaits s e w.t = false) :
    tierUnblocked s i = tierWrite { s with tier := { s.tier with waiting := s.tier.waiting.eraseIdx i } } w := by
  simp only [tierUnblocked, hw, he, h, Bool.false_eq_true, if_false]

/-! ## Write-back -/

/-- A read of a tile in tier L whose bursts are undisturbed changes nothing (R70, R79). -/
theorem readEntry_tierL {s : State} {x : Nat} {t : BitVec 7} {e : ExtentEntry} (hp : (readPlace e t).1 = 2) (hl : isLost s x e t = false) :
    readEntry s x e t [] =
      (s, .ok, some { hdr := (lTile s (readPlace e t).2).hdr, payload := (lTile s (readPlace e t).2).payload }) := by
  simp only [readEntry, hl, hp]
  rfl

theorem writeUnit_tier (s : State) (u : Nat) (t : Tile) (w : ProgWaiter) : (writeUnit s u t w).1.tier = s.tier := by
  unfold writeUnit
  split
  · simp only [programUnit_frame]
  · rfl

theorem writeUnit_store (s : State) (u : Nat) (t : Tile) (w : ProgWaiter) : (writeUnit s u t w).1.store = s.store := by
  unfold writeUnit
  split
  · simp only [programUnit_frame]
  · rfl

/-- The HOME write of a write-back of tile t, from where it lies in tier L (R70). -/
def homeWrite (s : State) (x : Nat) (e : ExtentEntry) (t : BitVec 7) : State × Bool :=
  writeUnit s (128 * e.homeLoc.toNat + t.toNat)
    { hdr := storedHeader (lTile s (readPlace e t).2).hdr, payload := (lTile s (readPlace e t).2).payload } (.writeBack (128 * x + t.toNat))

/-- A write-back of a dirty tile of tier L: HOME takes it and its dirty bit goes, or it stays dirty. -/
theorem writeBack_of_dirty {s : State} {x : Nat} {t : BitVec 7} {e : ExtentEntry} (he : entryOf s x = some e) (hc : e.cls = 1)
    (hd : e.tilemap.getLsbD t.toNat = true) (hp : (readPlace e t).1 = 2) (hr : retrains s (place e t) = false)
    (hl : isLost s x e t = false) :
    writeBack s x t [] =
      let home := homeWrite s x e t
      if home.2 then
        let u := setEntry home.1 x fun e => { e with tilemap := e.tilemap &&& ~~~ BitVec.ofNat 128 (2 ^ t.toNat) }
        { u with tier := { u.tier with dirtyAt := mdel u.tier.dirtyAt (128 * x + t.toNat) } }
      else home.1 := by
  unfold writeBack
  rw [he]
  dsimp only
  rw [if_neg (by simp [hc, hd, hr]), readEntry_tierL hp hl]
  rfl

theorem writeBack_of_clean {s : State} {x : Nat} {t : BitVec 7} {e : ExtentEntry} (he : entryOf s x = some e)
    (hd : e.tilemap.getLsbD t.toNat = false) : writeBack s x t [] = s := by
  unfold writeBack
  rw [he]
  exact if_pos (by simp [hd])

/-- Settles O13: a waiting write looks at its entry again, and a write-back goes through the HOME write. -/
theorem waitingWritesAndWriteBack : Obligations.WaitingWritesAndWriteBack := by
  unfold Obligations.WaitingWritesAndWriteBack
  intro s i w x t e
  refine ⟨fun hw he hb hc h0 => ⟨fun hwait => ?_, fun hfree hp => ?_⟩, fun he hc hd hp hr hl => ?_, fun he _ hd => ?_⟩
  · exact congrArg Host.Outcome.next (tierUnblocked_of_waits hw he hwait)
  · let s' : State := { s with tier := { s.tier with waiting := s.tier.waiting.eraseIdx i } }
    obtain ⟨l, d, hdev⟩ := devWrite_tierL (s := s') w.tile he hp
    have hgo : tierUnblocked s i = tierReply (devWrite s' (128 * w.x + w.t.toNat) w.tile) w.rq w.x w.t .ok none :=
      (tierUnblocked_of_free hw he hfree).trans
        ((tierWrite_of_ok (s := s') he hb hc h0).trans (tierWriteGo_of_free (s := s') hfree))
    rw [hdev] at hgo
    refine ⟨_, congrArg Host.Outcome.next hgo, rfl, ?_, fun k hk => ?_, rfl⟩
    · exact lTile_putL_same s' _ _ _
    · exact lTile_putL_other s' _ k _ _ hk
  · have hwb := writeBack_of_dirty he hc hd hp hr hl
    have htier : (homeWrite s x e t).1.tier = s.tier := writeUnit_tier _ _ _ _
    have hstore : (homeWrite s x e t).1.store = s.store := writeUnit_store _ _ _ _
    obtain ⟨-, -, -, hvalid⟩ := exists_key he
    refine ⟨fun hgood => ?_, fun hbad => ?_⟩
    · have hgood' : (homeWrite s x e t).2 = true := hgood
      dsimp only at hwb
      rw [if_pos hgood'] at hwb
      let clean : ExtentEntry → ExtentEntry := fun e => { e with tilemap := e.tilemap &&& ~~~ BitVec.ofNat 128 (2 ^ t.toNat) }
      obtain ⟨l, hl⟩ := setEntry_eq (homeWrite s x e t).1 x clean
      refine ⟨_, congrArg Host.Outcome.next hwb, ?_, ?_, ?_, ?_, ?_⟩
      · exact (entryOf_congr rfl rfl x).trans (entryOf_setEntry clean ((entryOf_tier htier x).trans he) hvalid)
      · show mdel (setEntry (homeWrite s x e t).1 x clean).tier.dirtyAt _ = _
        rw [hl, ← htier]
      · show (setEntry (homeWrite s x e t).1 x clean).tier.lmem = _
        rw [hl, ← htier]
      · exact (setEntry_frame _ _ _).2.2.2.2.2.2.2.1
      · exact ((setEntry_frame _ _ _).2.1).trans hstore
    · have hbad' : (homeWrite s x e t).2 = false := hbad
      dsimp only at hwb
      rw [if_neg (by rw [hbad']; exact Bool.false_ne_true)] at hwb
      exact ⟨_, congrArg Host.Outcome.next hwb, by rw [htier], by rw [htier]⟩
  · exact congrArg Host.Outcome.next (writeBack_of_clean he hd)

end Sys2Proof.Machine

/-! Migration of extents (R73, R74). -/

namespace Sys2Proof.Machine

/-! ## Entries through the steps of a migration -/

theorem setEntry_onlyTier (s : State) (x : Nat) (f : ExtentEntry → ExtentEntry) :
    setEntry s x f = { s with tier := (setEntry s x f).tier } := by
  obtain ⟨l, hl⟩ := setEntry_eq s x f
  rw [hl]

@[simp] theorem slotOf_setEntry (s : State) (x : Nat) (f : ExtentEntry → ExtentEntry) (i : TileIdx) :
    slotOf (setEntry s x f) i = slotOf s i := by
  obtain ⟨l, hl⟩ := setEntry_eq s x f
  rw [hl]
  rfl

/-- Writing a tile at a place leaves the tier table alone. -/
theorem putAt_table (s : State) (p : BitVec 2 × Nat) (t : Tile) (e : ExtentEntry) (n : Nat) (b : Bool) :
    (putAt s p t e n b).tier.dir = s.tier.dir ∧ (putAt s p t e n b).tier.leaves = s.tier.leaves := by
  unfold putAt
  split
  · dsimp only
    split
    · rw [(announce_frame _ _).1]
      exact ⟨rfl, rfl⟩
    · rw [(refuseWrite_frame _ _ _ _ _ _).2.2.1]
      exact ⟨rfl, rfl⟩
  · exact ⟨rfl, rfl⟩
  · exact ⟨rfl, rfl⟩

theorem clearPlace_table (s : State) (p : BitVec 2 × Nat) :
    (clearPlace s p).tier.dir = s.tier.dir ∧ (clearPlace s p).tier.leaves = s.tier.leaves := by
  unfold clearPlace
  split <;> exact ⟨rfl, rfl⟩

theorem entryOf_putAt (s : State) (p : BitVec 2 × Nat) (t : Tile) (e : ExtentEntry) (n : Nat) (b : Bool) (x : Nat) :
    entryOf (putAt s p t e n b) x = entryOf s x :=
  entryOf_congr (putAt_table s p t e n b).1 (putAt_table s p t e n b).2 x

theorem entryOf_clearPlace (s : State) (p : BitVec 2 × Nat) (x : Nat) : entryOf (clearPlace s p) x = entryOf s x :=
  entryOf_congr (clearPlace_table s p).1 (clearPlace_table s p).2 x

/-- Filling one tile changes the entry's TILEMAP at most. -/
theorem fillTile_entry {s : State} {x : Nat} {e : ExtentEntry} (tier : BitVec 2) (loc : BitVec 25) (t : Nat) (h : entryOf s x = some e) :
    ∃ m, entryOf (fillTile x tier loc s t) x = some { e with tilemap := m } := by
  obtain ⟨-, -, -, hv⟩ := exists_key h
  have marked {u : State} (hu : entryOf u x = some e) :
      ∃ m, entryOf (setEntry u x fun e => { e with tilemap := e.tilemap ||| BitVec.ofNat 128 (2 ^ t) }) x = some { e with tilemap := m } :=
    ⟨_, entryOf_setEntry (fun e => { e with tilemap := e.tilemap ||| BitVec.ofNat 128 (2 ^ t) }) hu hv⟩
  unfold fillTile
  rw [h]
  dsimp only
  split
  · exact marked ((entryOf_putAt _ _ _ _ _ _ x).trans h)
  · split
    · exact ⟨_, h⟩
    · exact marked ((entryOf_clearPlace _ _ x).trans h)

theorem fillTiles_entry {s : State} {x : Nat} {e : ExtentEntry} (tier : BitVec 2) (loc : BitVec 25) (l : List Nat)
    (h : entryOf s x = some e) : ∃ m, entryOf (l.foldl (fillTile x tier loc) s) x = some { e with tilemap := m } := by
  induction l generalizing s e with
  | nil => exact ⟨_, h⟩
  | cons t l ih =>
    obtain ⟨m, hm⟩ := fillTile_entry tier loc t h
    obtain ⟨m', hm'⟩ := ih hm
    exact ⟨m', hm'⟩

/-! ## A location freed -/

theorem noteRetired_tier (s : State) (tier : BitVec 2) (loc : BitVec 25) : (noteRetired s tier loc).tier = s.tier := by
  unfold noteRetired
  split
  · exact (logEvent_frame _ _).2.2.1
  · rfl

/-- Freeing a tile's slot. -/
def freeTile (base : Nat) (s : State) (t : Nat) : State :=
  setSlot s (BitVec.ofNat 17 (base + t)) fun x => { x with hdr := { x.hdr with state := .free } }

theorem freeTiles_tier (base : Nat) (l : List Nat) (s : State) : (l.foldl (freeTile base) s).tier = s.tier := by
  induction l generalizing s with
  | nil => rfl
  | cons t l ih => exact ih (freeTile base s t)

theorem freeTile_free_mono (base t : Nat) (s : State) (i : TileIdx) (h : (slotOf s i).hdr.state = .free) :
    (slotOf (freeTile base s t) i).hdr.state = .free := by
  unfold freeTile
  by_cases hi : i = BitVec.ofNat 17 (base + t)
  · subst hi
    rw [slotOf_setSlot, if_pos rfl]
  · rw [slotOf_setSlot_other _ _ _ _ hi, h]

theorem freeTiles_free (base : Nat) (l : List Nat) (s : State) (i : TileIdx)
    (h : (slotOf s i).hdr.state = .free ∨ ∃ t ∈ l, i = BitVec.ofNat 17 (base + t)) :
    (slotOf (l.foldl (freeTile base) s) i).hdr.state = .free := by
  induction l generalizing s with
  | nil => simpa using h
  | cons t l ih =>
    refine ih (freeTile base s t) ?_
    rcases h with h | ⟨j, hj, rfl⟩
    · exact .inl (freeTile_free_mono base t s i h)
    · rcases List.mem_cons.1 hj with rfl | hj
      · refine .inl ?_
        unfold freeTile
        rw [slotOf_setSlot, if_pos rfl]
      · exact .inr ⟨j, hj, rfl⟩

theorem freeLoc_eq (s : State) (tier : BitVec 2) (loc : BitVec 25) :
    freeLoc s tier loc =
      if tier = 1 then (List.range 128).foldl (freeTile (128 * loc.toNat)) (noteRetired s tier loc) else noteRetired s tier loc := rfl

theorem freeLoc_tier (s : State) (tier : BitVec 2) (loc : BitVec 25) : (freeLoc s tier loc).tier = s.tier := by
  rw [freeLoc_eq]
  split
  · exact (freeTiles_tier _ _ _).trans (noteRetired_tier s tier loc)
  · exact noteRetired_tier s tier loc

/-! ## The commands of a migration -/

theorem migrateRoStart_of_ok {s : State} {x : Nat} {e : ExtentEntry} {tier : BitVec 2} {loc : BitVec 25} (he : entryOf s x = some e)
    (hc : e.cls = 0) (hm : e.mstate = 0) (hn : e.newTier = 0) (ha : copyAllowed e tier = true) (hl : moveTo s tier loc = true) :
    migrateRoStart s x tier loc =
      (List.range 128).foldl (fillTile x tier loc) (setEntry s x fun e => { e with newTier := tier, newLoc := loc, tilemap := 0 }) := by
  unfold migrateRoStart
  rw [he]
  exact if_neg (by simp [hc, hm, hn, ha, hl])

theorem migrateRoSwitch_of_full {s : State} {x : Nat} {e : ExtentEntry} (he : entryOf s x = some e) (hc : e.cls = 0) (hm : e.mstate = 0)
    (hn : e.newTier ≠ 0) (hf : e.tilemap = BitVec.allOnes 128) :
    migrateRoSwitch s x =
      setEntry { s with tier := { s.tier with
        drains := mins s.tier.drains x { tier := (leftBy e).1, loc := (leftBy e).2, users := usersNow s } } } x switchRo := by
  unfold migrateRoSwitch
  rw [he]
  exact if_neg (by simpa [hc, hm, hf] using hn)

theorem switchRo_eq (e : ExtentEntry) : switchRo e =
    if e.homeTier = 2 ∧ e.newTier = 2 then { e with homeLoc := e.newLoc, newTier := 0, newLoc := 0, tilemap := 0, mstate := 2 }
    else { e with copyTier := e.newTier, copyLoc := e.newLoc, newTier := 0, newLoc := 0, tilemap := 0, mstate := 2 } := by
  simp only [switchRo, Bool.and_eq_true, decide_eq_true_eq]

theorem switchRo_valid (e : ExtentEntry) : (switchRo e).valid = e.valid := by
  rw [switchRo_eq]
  split <;> rfl

theorem migrateRoDrainEnd_of_done {s : State} {x : Nat} {d : Drain} (hd : mfind s.tier.drains x = some d) (hu : d.users = []) :
    migrateRoDrainEnd s x =
      setEntry (freeLoc { s with tier := { s.tier with drains := mdel s.tier.drains x } } d.tier d.loc) x
        fun e => { e with mstate := 0 } := by
  unfold migrateRoDrainEnd
  rw [hd]
  exact if_neg (not_not_intro hu)

theorem migrateStart_of_ok {s : State} {x : Nat} {e : ExtentEntry} {tier : BitVec 2} {loc : BitVec 25} (he : entryOf s x = some e)
    (hc : e.cls ≠ 0) (hm : e.mstate = 0) (ha : copyAllowed e tier = true) (hl : moveTo s tier loc = true) :
    migrateStart s x tier loc = setEntry s x fun e => { e with newTier := tier, newLoc := loc, movePtr := 0, mstate := 1 } := by
  unfold migrateStart
  rw [he]
  exact if_neg (by simpa [hm, ha, hl] using hc)

theorem migrateTileCopy_of_inflight {s : State} {x : Nat} {e : ExtentEntry} (he : entryOf s x = some e) (hc : e.cls ≠ 0)
    (hm : e.mstate = 1) (hf : e.inflight ≠ 0) : migrateTileCopy s x = setEntry s x fun e => { e with moveBusy := true } := by
  unfold migrateTileCopy
  rw [he]
  exact (if_neg (by simpa [hm] using hc)).trans (if_pos hf)

/-- The entry once its last tile is copied (R74). -/
def arrived (e : ExtentEntry) : ExtentEntry :=
  { e with copyTier := e.newTier, copyLoc := e.newLoc, newTier := 0, newLoc := 0, movePtr := 0, mstate := 0, moveBusy := false }

theorem migrateTileCopy_of_quiet {s : State} {x : Nat} {e : ExtentEntry} (he : entryOf s x = some e) (hc : e.cls ≠ 0)
    (hm : e.mstate = 1) (hf : e.inflight = 0) :
    migrateTileCopy s x =
      if e.movePtr.toNat < 127 then
        setEntry (copyTile s x e e.movePtr.toNat) x fun e => { e with movePtr := e.movePtr + 1, moveBusy := false }
      else freeLoc (setEntry (copyTile s x e e.movePtr.toNat) x arrived) e.copyTier e.copyLoc := by
  unfold migrateTileCopy
  rw [he]
  exact (if_neg (by simpa [hm] using hc)).trans (if_neg (not_not_intro hf))

/-- A copy within tier L takes the tile as it lies there (R74). -/
theorem copyTile_tierL {s : State} {x : Nat} {e : ExtentEntry} {t : Nat} (hr : mfind s.tier.refetched (128 * x + t) = none)
    (hc : e.copyTier = 2) (hn : e.newTier = 2) :
    copyTile s x e t = { s with tier := { s.tier with
      lmem := mput {} s.tier.lmem (128 * e.newLoc.toNat + t) (lTile s (128 * e.copyLoc.toNat + t)) } } := by
  unfold copyTile
  simp only [hr, hc, hn, decide_true, Bool.and_true, if_true]

theorem migrateTileCopy_tierL {s : State} {x : Nat} {e : ExtentEntry} (he : entryOf s x = some e) (hc : e.cls ≠ 0) (hm : e.mstate = 1)
    (hf : e.inflight = 0) (hct : e.copyTier = 2) (hnt : e.newTier = 2)
    (hr : mfind s.tier.refetched (128 * x + e.movePtr.toNat) = none) :
    lTile (migrateTileCopy s x) (128 * e.newLoc.toNat + e.movePtr.toNat) = lTile s (128 * e.copyLoc.toNat + e.movePtr.toNat)
    ∧ (e.movePtr.toNat < 127 →
        entryOf (migrateTileCopy s x) x = some { e with movePtr := e.movePtr + 1, moveBusy := false })
    ∧ (e.movePtr.toNat = 127 → entryOf (migrateTileCopy s x) x = some (arrived e)) := by
  obtain ⟨-, -, -, hv⟩ := exists_key he
  have hcopy := copyTile_tierL hr hct hnt
  have hentry : entryOf (copyTile s x e e.movePtr.toNat) x = some e := by
    rw [hcopy]
    exact he
  have hl : lTile (copyTile s x e e.movePtr.toNat) (128 * e.newLoc.toNat + e.movePtr.toNat) =
      lTile s (128 * e.copyLoc.toNat + e.movePtr.toNat) := by
    rw [hcopy]
    simp only [lTile, mget_mput, if_true]
  rw [migrateTileCopy_of_quiet he hc hm hf]
  refine ⟨?_, fun hlt => ?_, fun heq => ?_⟩
  · split
    · rw [lTile_setEntry, hl]
    · exact (lTile_congr (by rw [freeLoc_tier]) _).trans ((lTile_setEntry _ _ _ _).trans hl)
  · rw [if_pos hlt]
    exact entryOf_setEntry _ hentry hv
  · rw [if_neg (by omega), entryOf_tier (freeLoc_tier _ _ _)]
    exact entryOf_setEntry arrived hentry hv

/-- Settles O14: every command of a migration leaves the entry it should, and the tiles where R73 and R74 put them. -/
theorem migrationMovesExtents : Obligations.MigrationMovesExtents := by
  unfold Obligations.MigrationMovesExtents
  intro s x e tier loc d he
  obtain ⟨-, -, -, hv⟩ := exists_key he
  refine ⟨fun hc hm hn ha hl => ?_, fun hc hm hn hf => ?_, fun hd hu => ?_, fun hc hm ha hl => ?_, fun hc hm hf => ?_,
    fun hc hm hf hct hnt hr => ?_⟩
  · have hs := entryOf_setEntry (fun e => { e with newTier := tier, newLoc := loc, tilemap := 0 }) he hv
    exact ⟨_, congrArg Host.Outcome.next (migrateRoStart_of_ok he hc hm hn ha hl), rfl, fillTiles_entry tier loc _ hs⟩
  · let s' : State := { s with tier := { s.tier with
      drains := mins s.tier.drains x { tier := (leftBy e).1, loc := (leftBy e).2, users := usersNow s } } }
    refine ⟨_, congrArg Host.Outcome.next (migrateRoSwitch_of_full he hc hm hn hf), ?_, ?_, setEntry_onlyTier s' x switchRo⟩
    · have he' : entryOf s' x = some e := he
      refine (entryOf_setEntry switchRo he' ((switchRo_valid e).trans hv)).trans ?_
      rw [switchRo_eq]
    · obtain ⟨l, hl⟩ := setEntry_eq s' x switchRo
      refine ⟨{ tier := (leftBy e).1, loc := (leftBy e).2, users := usersNow s }, ?_, rfl⟩
      rw [hl]
      exact (mfind_mins _ _ _ _).trans (if_pos rfl)
  · let s' : State := { s with tier := { s.tier with drains := mdel s.tier.drains x } }
    have ht : (freeLoc s' d.tier d.loc).tier = s'.tier := freeLoc_tier _ _ _
    refine ⟨_, congrArg Host.Outcome.next (migrateRoDrainEnd_of_done hd hu), ?_, ?_, fun h1 t hlt => ?_⟩
    · exact entryOf_setEntry _ ((entryOf_tier ht x).trans he) hv
    · obtain ⟨l, hl⟩ := setEntry_eq (freeLoc s' d.tier d.loc) x fun e => { e with mstate := 0 }
      rw [hl]
      show mfind (freeLoc s' d.tier d.loc).tier.drains x = none
      rw [ht]
      exact (mfind_mdel _ _ _).trans (if_pos rfl)
    · rw [slotOf_setEntry, freeLoc_eq, if_pos h1]
      exact freeTiles_free _ _ _ _ (.inr ⟨t, List.mem_range.2 hlt, rfl⟩)
  · exact ⟨_, congrArg Host.Outcome.next (migrateStart_of_ok he hc hm ha hl), entryOf_setEntry _ he hv, setEntry_onlyTier _ _ _⟩
  · exact ⟨_, congrArg Host.Outcome.next (migrateTileCopy_of_inflight he hc hm hf), entryOf_setEntry _ he hv, setEntry_onlyTier _ _ _⟩
  · obtain ⟨hcopy, hnext, hlast⟩ := migrateTileCopy_tierL he hc hm hf hct hnt hr
    refine ⟨_, rfl, hcopy, hnext, fun h => (hlast h).trans ?_⟩
    rw [arrived, hnt]

end Sys2Proof.Machine

/-! Reads and writes of extents in tier L (R64, R67 to R70, R79, R80, R92). -/

namespace Sys2Proof.Machine

section
variable (s : State) (rq : TierReq) (x : Nat) (t : BitVec 7)

/-! ## Accesses that fail -/

/-- Of the tier part a failed access changes the answers alone. -/
theorem tierFail_tier (e : Option ExtentEntry) (st : TierStatus) (key : Nat) :
    (tierFail s rq x t e st key).tier = (tierReply s rq x t st none).tier := by
  unfold tierFail
  dsimp only
  split
  · rw [(refuseAccess_frame _ _ _ _).2.2.1, (tierEvent_frame _ _ _ _ _).2.2.1]
  · rw [(tierEvent_frame _ _ _ _ _).2.2.1]

/-- A translation fault is counted with its tenant (R339). -/
theorem tierFail_translation_counts (e : Option ExtentEntry) (key : Nat) :
    mget 0 (tierFail s rq x t e .translation key).host.cntTenant (8 * rq.tenant.toNat + 3) =
      mget 0 s.host.cntTenant (8 * rq.tenant.toNat + 3) + 1 := by
  have hev : mget 0 (tierEvent (tierReply s rq x t .translation none) rq x e .translation).host.cntTenant (8 * rq.tenant.toNat + 3) =
      mget 0 s.host.cntTenant (8 * rq.tenant.toNat + 3) + 1 := by
    simp only [tierEvent, countTenant, mget_mcount, if_true, logEvent_cntTenant]
    rfl
  rw [← hev]
  unfold tierFail
  dsimp only
  split
  · rw [(refuseAccess_frame _ _ _ _).2.2.2.2.1]
  · rfl

/-! ## Reads -/

theorem tierRead_of_barred (d : LoadDest) (f : BurstFault) (h : translate s rq x = none ∨ windowBarred s rq x = true) :
    tierRead s rq x t d f = tierFail s rq x t none .translation d.tile.toNat := by
  have hx : (if windowBarred s rq x then none else translate s rq x) = none := by
    rcases h with h | h
    · rw [h, ite_self]
    · rw [if_pos h]
  unfold tierRead
  rw [hx]

variable {s rq x t} {e : ExtentEntry} {d : LoadDest}

theorem tierRead_of_check (hb : windowBarred s rq x = false) (ht : translate s rq x = some e) (hc : tierCheck rq e ≠ .ok) (f : BurstFault) :
    tierRead s rq x t d f = tierFail s rq x t (some e) (tierCheck rq e) d.tile.toNat := by
  unfold tierRead
  rw [hb, if_neg Bool.false_ne_true, ht]
  dsimp only
  split
  · next h => exact absurd h hc
  · rfl

theorem tierRead_of_ok (hb : windowBarred s rq x = false) (ht : translate s rq x = some e) (hc : tierCheck rq e = .ok) (f : BurstFault) :
    tierRead s rq x t d f =
      if retrains s (readPlace e t) || ((readPlace e t).1 = 2 && notTaking s (channelBlock (readPlace e t).2)) then
        { s with tier := { s.tier with waitReads := s.tier.waitReads ++ [{ rq := rq, x := x, t := t, dest := d, fault := f }] } }
      else tierReadGo s rq x t e d f := by
  unfold tierRead
  rw [hb, if_neg Bool.false_ne_true, ht]
  dsimp only
  rw [hc]

theorem keepTranslation_eq (s : State) (rq : TierReq) (x : Nat) (e : ExtentEntry) :
    ∃ c, keepTranslation s rq x e = { s with tier := { s.tier with cache := c } } := by
  unfold keepTranslation
  split
  · exact ⟨_, rfl⟩
  · exact ⟨_, rfl⟩

/-- A read from tier L writes the loaded tile into the store and answers with it. -/
theorem tierReadGo_tierL (hp : (readPlace e t).1 = 2) (hl : isLost s x e t = false) :
    ∃ c, tierReadGo s rq x t e d [] =
      let l := lTile s (readPlace e t).2
      tierReply (writeTile { s with tier := { s.tier with cache := c } } (channelDie (readPlace e t).2) d.tile
        { hdr := loadHeader l.hdr e (128 * x + t.toNat) d, payload := l.payload } e.world) rq x t .ok
        (some { hdr := l.hdr, payload := l.payload }) := by
  obtain ⟨c, hc⟩ := keepTranslation_eq s rq x e
  refine ⟨c, ?_⟩
  unfold tierReadGo
  rw [hc, readEntry_tierL (s := { s with tier := { s.tier with cache := c } }) hp hl]
  rfl

end

/-! ## Tiles written into the store -/

/-- A tile of a whole shape fills a FREE slot. -/
theorem writeTile_of_free {s : State} {i : TileIdx} {tl : Tile} (src : DieId) (w : Bool)
    (hs : shapeOk tl.hdr.format tl.hdr.rows.toNat tl.hdr.cols.toNat = true) (hf : (slotOf s i).hdr.state = .free) :
    writeTile s src i tl w =
      announce (setSlot s i fun _ => { hdr := { acceptHeader src tl.hdr w with state := .ready }, payload := tl.payload, src := src }) i := by
  unfold writeTile
  rw [hs]
  exact (if_neg Bool.false_ne_true).trans (if_neg (not_not_intro hf))

theorem slotOf_writeTile_same {s : State} {i : TileIdx} {tl : Tile} (src : DieId) (w : Bool)
    (hs : shapeOk tl.hdr.format tl.hdr.rows.toNat tl.hdr.cols.toNat = true) (hf : (slotOf s i).hdr.state = .free) :
    slotOf (writeTile s src i tl w) i = { hdr := { acceptHeader src tl.hdr w with state := .ready }, payload := tl.payload, src := src } := by
  rw [writeTile_of_free src w hs hf, slotOf_announce, slotOf_setSlot, if_pos rfl]

theorem slotOf_writeTile_other {s : State} {i y : TileIdx} {tl : Tile} (src : DieId) (w : Bool)
    (hs : shapeOk tl.hdr.format tl.hdr.rows.toNat tl.hdr.cols.toNat = true) (hf : (slotOf s i).hdr.state = .free) (hy : y ≠ i) :
    slotOf (writeTile s src i tl w) y = slotOf s y := by
  rw [writeTile_of_free src w hs hf, slotOf_announce, slotOf_setSlot_other _ _ _ _ hy]

/-! ## Writes -/

theorem tierWrite_of_readOnly {s : State} {w : PendWrite} {e : ExtentEntry} (he : entryOf s w.x = some e)
    (hb : windowBarred s w.rq w.x = false) (hc : tierCheck w.rq e = .ok) (h0 : e.cls = 0) :
    tierWrite s w = tierFail s w.rq w.x w.t (some e) .readOnly (devOwnerKey (128 * w.x + w.t.toNat)) := by
  unfold tierWrite
  rw [hb]
  simp only [Bool.false_eq_true, if_false, he, hc, if_pos h0]

theorem tierWriteGo_of_waits {s : State} {w : PendWrite} {e : ExtentEntry} (h : writeWaits s e w.t = true) :
    tierWriteGo s w e = { s with tier := { s.tier with waiting := s.tier.waiting ++ [w] } } := if_pos h

/-- A write of a WB extent sets the tile's dirty bit (R70). -/
theorem devWrite_wb {s : State} {x : Nat} {t : BitVec 7} {e : ExtentEntry} (tl : Tile) (he : entryOf s x = some e) (hc : e.cls = 1) :
    entryOf (devWrite s (128 * x + t.toNat) tl) x = some { e with tilemap := e.tilemap ||| BitVec.ofNat 128 (2 ^ t.toNat) } := by
  obtain ⟨-, -, -, hv⟩ := exists_key he
  unfold devWrite
  rw [devExtent_tile, he]
  dsimp only
  rw [devPos_tile, if_pos hc]
  exact entryOf_setEntry (s := putAt s (place e t) tl e (128 * x + t.toNat) false)
    (fun e => { e with tilemap := e.tilemap ||| BitVec.ofNat 128 (2 ^ t.toNat) })
    ((entryOf_congr (putAt_table _ _ _ _ _ _).1 (putAt_table _ _ _ _ _ _).2 x).trans he) hv

/-- A write of another extent leaves the tier table alone. -/
theorem devWrite_not_wb {s : State} {x : Nat} {t : BitVec 7} {e : ExtentEntry} (tl : Tile) (he : entryOf s x = some e) (hc : e.cls ≠ 1) :
    (devWrite s (128 * x + t.toNat) tl).tier.leaves = s.tier.leaves := by
  unfold devWrite
  rw [devExtent_tile, he]
  dsimp only
  rw [if_neg hc]
  exact (putAt_table _ _ _ _ _ _).2

/-- Settles O12: reads and writes of tier L, case by case. -/
theorem tierReadsAndWrites : Obligations.TierReadsAndWrites := by
  unfold Obligations.TierReadsAndWrites
  intro s rq x t d tile e
  dsimp only
  refine ⟨fun h => ?_, fun hb ht hc => ?_, fun hb ht hc hp => ⟨fun h => ?_, fun hr hq hl => ?_⟩,
    fun hb he hc => ⟨fun h0 => ?_, fun h0 hw => ?_, fun h0 hw hp => ?_⟩⟩
  · refine ⟨_, congrArg Host.Outcome.next (tierRead_of_barred s rq x t d [] h), ?_, tierFail_translation_counts s rq x t _ _,
      (tierFail_frame _ _ _ _ _ _ _).2.1, (tierFail_frame _ _ _ _ _ _ _).1⟩
    rw [tierFail_tier]
    rfl
  · refine ⟨_, congrArg Host.Outcome.next (tierRead_of_check hb ht hc []), ?_,
      (tierFail_frame _ _ _ _ _ _ _).2.1, (tierFail_frame _ _ _ _ _ _ _).1⟩
    rw [tierFail_tier]
    rfl
  · refine congrArg Host.Outcome.next ((tierRead_of_ok hb ht hc []).trans (if_pos ?_))
    simpa [hp] using h
  · obtain ⟨c, hgo⟩ := tierReadGo_tierL (rq := rq) (d := d) hp hl
    have hread := (tierRead_of_ok (t := t) (d := d) hb ht hc []).trans (if_neg (by simp [hr, hq]))
    let s' : State := { s with tier := { s.tier with cache := c } }
    let l := lTile s (readPlace e t).2
    let tl : Tile := { hdr := loadHeader l.hdr e (128 * x + t.toNat) d, payload := l.payload }
    let src := channelDie (readPlace e t).2
    have htier : (writeTile s' src d.tile tl e.world).tier = s'.tier := (writeTile_frame _ _ _ _ _).1
    refine ⟨_, congrArg Host.Outcome.next (hread.trans hgo), ?_, ?_, ?_, fun hf hs => ?_⟩
    · exact congrArg (fun a => a.replies ++ _) htier
    · exact (congrArg TierState.leaves htier :)
    · exact (congrArg TierState.lmem htier :)
    · have hsame : slotOf (writeTile s' src d.tile tl e.world) d.tile = _ := slotOf_writeTile_same src e.world hs hf
      have hother : ∀ y, y ≠ d.tile → slotOf (writeTile s' src d.tile tl e.world) y = slotOf s y :=
        fun y hy => slotOf_writeTile_other src e.world hs hf hy
      refine ⟨?_, ?_, ?_, ?_, ?_, ?_, ?_, ?_, ?_, hother⟩
      · exact congrArg Slot.payload hsame
      · exact congrArg (fun z => z.hdr.state) hsame
      · exact congrArg (fun z => z.hdr.owner) hsame
      · exact congrArg (fun z => z.hdr.epoch) hsame
      · exact congrArg (fun z => z.hdr.world) hsame
      · exact congrArg (fun z => z.hdr.srcValid) hsame
      · exact congrArg (fun z => z.hdr.srcTile) hsame
      · exact congrArg (fun z => z.hdr.scaleIndex) hsame
      · exact congrArg (fun z => z.hdr.crc) hsame
  · let w : PendWrite := { rq := rq, x := x, t := t, tile := { tile with hdr := storedFrom rq.slot tile.hdr } }
    have hfail := tierWrite_of_readOnly (w := w) he hb hc h0
    refine ⟨_, congrArg Host.Outcome.next hfail, ?_, ?_, ?_, (tierFail_frame _ _ _ _ _ _ _).2.1⟩
    · rw [tierFail_tier]
      rfl
    · rw [tierFail_tier]
      rfl
    · rw [tierFail_tier]
      rfl
  · exact congrArg Host.Outcome.next ((tierWrite_of_ok he hb hc h0).trans (tierWriteGo_of_waits hw))
  · let w : PendWrite := { rq := rq, x := x, t := t, tile := { tile with hdr := storedFrom rq.slot tile.hdr } }
    have hgo : tierWrite s w = tierReply (devWrite s (128 * x + t.toNat) w.tile) rq x t .ok none :=
      (tierWrite_of_ok he hb hc h0).trans (tierWriteGo_of_free hw)
    obtain ⟨l, dd, hdev⟩ := devWrite_tierL w.tile he hp
    refine ⟨_, congrArg Host.Outcome.next hgo, ?_, ?_, fun k hk => ?_, fun h1 => ?_, fun h1 => ?_, ?_⟩
    · rw [hdev]
      rfl
    · rw [hdev]
      exact lTile_putL_same s _ _ _
    · rw [hdev]
      exact lTile_putL_other s _ k _ _ hk
    · exact devWrite_wb w.tile he h1
    · exact devWrite_not_wb w.tile he h1
    · rw [hdev]
      rfl

end Sys2Proof.Machine

/-! LPDDR6 subchannels (R82): a retrain that ends resumes the window's own accesses as well. -/

namespace Sys2Proof.Machine

/-- A result write of the window waits, and no other write or read does. -/
def windowWaits : State := { tier := { windowWrites := [(0, [])] } }

/-- The end of a retrain makes the window's result write, which is then no longer waiting (R276). -/
theorem windowResumes_windowWaits : (windowResumes windowWaits 0).tier.windowWrites = [] := by decide +kernel

/-- Refutes O15: with no tier write and no tier read waiting, the end of a retrain still makes the result writes of the window that wait
(R82, R276), so more than the list of retraining subchannels changes. -/
theorem not_lpddr6AndStreams : ¬ Obligations.Lpddr6AndStreams := by
  unfold Obligations.Lpddr6AndStreams
  intro h
  obtain ⟨-, -, -, hretrain, -⟩ := h windowWaits 0 0 0 0 0 false 0 {} ⟨0, 0, 0, 0, false, 0⟩ 0 0 {} 0 {}
  have hnext := Host.Outcome.next.inj (hretrain rfl rfl)
  have hwrites : (windowResumes windowWaits 0).tier.windowWrites = [(0, [])] := congrArg (fun u : State => u.tier.windowWrites) hnext
  rw [windowResumes_windowWaits] at hwrites
  cases hwrites

end Sys2Proof.Machine

/-! CANCEL (R313): the end of a text stream frees what the request holds as well. -/

namespace Sys2Proof.Machine

/-- A turn of tag 55 in its text stream that still names a scan tile. -/
def heldTurn : Request := { fn := 4, qp := 1, tag := 55, op := .turn, phase := .stream, ret := { scanTiles := [0] } }

/-- The CANCEL of that turn. -/
def cancelOfTurn : Fetched := { handle := 7, desc := { opcode := 0x30, argC := 55, tag := 77 } }

/-- The CANCEL stands first on queue pair 1 of function 4, and the turn is request 5. -/
def cancelsHeldTurn : State :=
  setReq (setQp {} 4 1 fun p => { p with enable := true, state := .enabled, cqLog2 := 8, dbAddr := 64, fetched := [cancelOfTurn] }) 5 heldTurn

/-- The CANCEL and its target are as the clause asks. -/
theorem cancelsHeldTurn_applies :
    frontOk cancelsHeldTurn 4 1 .cancel cancelOfTurn [] {} ∧ targetFetched cancelsHeldTurn 4 cancelOfTurn = false
    ∧ targetOf (accepted cancelsHeldTurn 4 1 .cancel cancelOfTurn [] {}) 4 cancelOfTurn.desc.argC cancelOfTurn.handle = some (5, heldTurn)
    ∧ reqOf cancelsHeldTurn 5 = some heldTurn ∧ canPost cancelsHeldTurn 4 1 := by
  unfold frontOk passes
  decide +kernel

/-- What the turn names of tiles once CANCEL has run. -/
theorem scanTiles_of_cancelled {y : State} (h : exec (.cancel 4 1 {}) cancelsHeldTurn = .next y) :
    (reqOf y 5).map (·.ret.scanTiles) = some [] := by
  obtain rfl := Host.Outcome.next.inj h
  decide +kernel

/-- Refutes O41: a turn in its text stream may name tiles of the turn conductor, which the end of the request frees and forgets; so more of the
request changes than its phase. -/
theorem not_cancelAndFence : ¬ Obligations.CancelAndFence := by
  unfold Obligations.CancelAndFence
  intro h
  obtain ⟨hfront, hfetched, htarget, hreq, hpost⟩ := cancelsHeldTurn_applies
  obtain ⟨-, hcancel, -⟩ := h cancelsHeldTurn 4 1 {} cancelOfTurn [] 5 0 heldTurn heldTurn
  obtain ⟨-, hsome⟩ := hcancel hfront hfetched
  obtain ⟨-, hstream⟩ := hsome htarget
  obtain ⟨y, hy, hreq', -⟩ := hstream rfl rfl hreq (by decide) rfl hpost hpost
  have hkept : (reqOf y 5).map (·.ret.scanTiles) = some [0] := by
    rw [hreq']
    rfl
  rw [scanTiles_of_cancelled hy] at hkept
  cases hkept

end Sys2Proof.Machine

/-! The host link, doorbells, and the fetch of descriptors (R268, R271, R273, R281 to R283, R286). -/

namespace Sys2Proof.Machine

/-! ## A pair that takes no completion -/

section
variable {s : State} {fn : Tenant} {q : BitVec 3}

theorem qpOf_congr {s t : State} (h : t.host.qps = s.host.qps) (fn : Tenant) (q : BitVec 3) : qpOf t fn q = qpOf s fn q := by
  simp only [qpOf, h]

theorem qpOf_setQp_same (s : State) (fn : Tenant) (q : BitVec 3) (f : QueuePair → QueuePair) : qpOf (setQp s fn q f) fn q = f (qpOf s fn q) := by
  rw [qpOf_setQp, if_pos ⟨rfl, rfl⟩]

theorem qpOf_setQp_other (s : State) {fn gn : Tenant} {q r : BitVec 3} (f : QueuePair → QueuePair) (h : (gn, r) ≠ (fn, q)) :
    qpOf (setQp s fn q f) gn r = qpOf s gn r := by
  rw [qpOf_setQp, if_neg fun e => h (by rw [e.1, e.2])]

/-- What is posted elsewhere leaves a pair that does not post as it is. -/
theorem qpOf_tryPost_of_closed (h : pairPosts (qpOf s fn q) = false) (gn : Tenant) (r : BitVec 3) (c : Completion) :
    qpOf (tryPost s gn r c).1 fn q = qpOf s fn q := by
  unfold tryPost
  split
  · next hp =>
    refine qpOf_setQp_other _ _ fun e => ?_
    obtain ⟨rfl, rfl⟩ := Prod.mk.inj e
    rw [h] at hp
    cases hp
  · rfl

theorem qpOf_postEvent_of_closed (h : pairPosts (qpOf s fn q) = false) (e : Ev) : qpOf (postEvent s e) fn q = qpOf s fn q := by
  have one (u : State) (hu : pairPosts (qpOf u fn q) = false) (gn : Tenant) : qpOf (postEventTo u e gn) fn q = qpOf u fn q := by
    unfold postEventTo
    rw [post_of_closes_none _ _ _ rfl]
    exact qpOf_tryPost_of_closed hu ..
  unfold postEvent
  dsimp only
  split
  · rw [one _ (by rw [one _ h]; exact h), one _ h]
  · exact one _ h _

theorem qpOf_storeRecord_of_closed (h : pairPosts (qpOf s fn q) = false) (e : Ev) (b : Bool) :
    qpOf (storeRecord s e b) fn q = qpOf s fn q := by
  unfold storeRecord
  refine (qpOf_postEvent_of_closed ?_ e).trans rfl
  exact h

/-- An event reaches no pair that does not post. -/
theorem qpOf_logEvent_of_closed (h : pairPosts (qpOf s fn q) = false) (e : Ev) : qpOf (logEvent s e) fn q = qpOf s fn q := by
  unfold logEvent
  split
  · exact qpOf_storeRecord_of_closed h e _
  · dsimp only
    split
    · refine (qpOf_storeRecord_of_closed ?_ e _).trans rfl
      exact h
    · rfl

end

/-! ## The link -/

theorem linkTraining_of_rate {s : State} {w g : BitVec 8} (lat : Bool) (hw : w.toNat ∈ [4, 8, 16]) (hg : g.toNat ∈ [32, 64]) :
    linkTraining s w g lat =
      let u : State := { s with host := { s.host with linkWidth := w, linkGts := g, latOpt := lat && decide (g.toNat = 64) } }
      if w.toNat < 16 then logEvent u (.linkDegraded w.toNat g.toNat) else u := by
  unfold linkTraining
  rw [decide_eq_true hw, decide_eq_true hg]
  exact if_neg (by decide)

/-- Of the host's part an event leaves all but what waits on the pairs. -/
theorem logEvent_link (s : State) (e : Ev) : (logEvent s e).host.linkWidth = s.host.linkWidth ∧ (logEvent s e).host.linkGts = s.host.linkGts
    ∧ (logEvent s e).host.latOpt = s.host.latOpt := by
  rw [logEvent_host]
  exact ⟨rfl, rfl, rfl⟩

/-! ## Doorbells -/

section
variable {s : State} {fn : Tenant} {q : BitVec 3} {l : DoorbellLine} {d : Descriptor}

theorem doorbellInvalidation_of_pinned (h : (qpOf s fn q).pinned = true) : doorbellInvalidation s fn q =
    emit (setQp s fn q fun p => { p with rereads := p.rereads + 1 }) (.sharedRead fn (qpOf s fn q).dbAddr) := by
  unfold doorbellInvalidation
  exact if_neg (by rw [h]; decide)

theorem doorbellInvalidation_of_unpinned (h : (qpOf s fn q).pinned = false) : doorbellInvalidation s fn q = s := by
  unfold doorbellInvalidation
  exact if_pos (by rw [h]; decide)

theorem doorbellReturn_of_none (h : (qpOf s fn q).rereads = 0) (ds : List Descriptor) : doorbellReturn s fn q l ds = s := if_pos h

theorem doorbellReturn_of_enabled (h : 0 < (qpOf s fn q).rereads) (he : (qpOf s fn q).state = .enabled) (ds : List Descriptor) :
    doorbellReturn s fn q l ds = takeLine (setQp s fn q fun p => { p with rereads := p.rereads - 1 }) fn q l ds := by
  unfold doorbellReturn
  exact (if_neg (Nat.pos_iff_ne_zero.1 h)).trans (if_pos he)

/-- The doorbell's tail is taken where its line translates (R281). -/
def tailTaken (s : State) (fn : Tenant) (q : BitVec 3) (l : DoorbellLine) : State :=
  let u := setQp s fn q fun p => { p with rereads := p.rereads - 1 }
  if l.translates then setQp u fn q fun p => { p with sqTail := l.sqTail } else u

theorem qpOf_tailTaken : qpOf (tailTaken s fn q l) fn q =
    { (if l.translates then { qpOf s fn q with sqTail := l.sqTail } else qpOf s fn q) with rereads := (qpOf s fn q).rereads - 1 } := by
  unfold tailTaken
  dsimp only
  split
  · rw [qpOf_setQp_same, qpOf_setQp_same]
  · rw [qpOf_setQp_same]

theorem qpOf_tailTaken_other {gn : Tenant} {r : BitVec 3} (h : (gn, r) ≠ (fn, q)) : qpOf (tailTaken s fn q l) gn r = qpOf s gn r := by
  unfold tailTaken
  dsimp only
  split
  · rw [qpOf_setQp_other _ _ h, qpOf_setQp_other _ _ h]
  · rw [qpOf_setQp_other _ _ h]

theorem tailTaken_eq (s : State) (fn : Tenant) (q : BitVec 3) (l : DoorbellLine) :
    ∃ qps, tailTaken s fn q l = { s with host := { s.host with qps := qps } } := by
  unfold tailTaken
  dsimp only
  split
  · exact ⟨_, rfl⟩
  · exact ⟨_, rfl⟩

/-- What is wrong with a line does not depend on the rereads that are due. -/
theorem lineError_tailTaken : lineError (qpOf (tailTaken s fn q l) fn q) l =
    lineError (if l.translates then { qpOf s fn q with sqTail := l.sqTail } else qpOf s fn q) l := by
  rw [qpOf_tailTaken]
  rfl

theorem takeLine_eq (ds : List Descriptor) : takeLine (setQp s fn q fun p => { p with rereads := p.rereads - 1 }) fn q l ds =
    match lineError (qpOf (tailTaken s fn q l) fn q) l with
    | some e => qpError (tailTaken s fn q l) fn q e
    | none => fetchAll fn q ds (setQp (noteAts (noteAts (tailTaken s fn q l) fn q (qpOf (tailTaken s fn q l) fn q).dbAddr) fn q
        (qpOf (tailTaken s fn q l) fn q).sqBase) fn q fun p => { p with cqHead := l.cqHead }) := rfl

/-! ### The error state -/

/-- The pair as an error leaves it. -/
def stopped (p : QueuePair) (c : Nat) : QueuePair :=
  { p with fetched := [], waiting := [], fenced := none, state := .error, errCode := BitVec.ofNat 8 c }

theorem stopPair_of_idle (h : (qpOf s fn q).waiting = []) (f : QueuePair → QueuePair) :
    stopPair s fn q f = setQp s fn q fun p => f { p with fetched := [], waiting := [], fenced := none } := by
  unfold stopPair
  rw [h]
  rfl

theorem signalVector_host (s : State) (fn : Tenant) (v : BitVec 4) :
    (signalVector s fn v).host.qps = s.host.qps ∧ (signalVector s fn v).host.requests = s.host.requests := by
  unfold signalVector
  dsimp only
  split <;> exact ⟨rfl, rfl⟩

theorem qpError_of_idle (h : (qpOf s fn q).waiting = []) (c : Nat) :
    qpOf (qpError s fn q c) fn q = stopped (qpOf s fn q) c ∧ (qpError s fn q c).host.requests = s.host.requests
    ∧ (qpError s fn q c).store = s.store ∧ (qpError s fn q c).gen = s.gen := by
  let u := setQp s fn q (stopped · c)
  have hu : qpOf u fn q = stopped (qpOf s fn q) c := qpOf_setQp_same ..
  have hv : qpOf (signalVector u fn (qpOf u fn q).vector) fn q = stopped (qpOf s fn q) c :=
    (qpOf_congr (signalVector_host _ _ _).1 fn q).trans hu
  have herr : qpError s fn q c = logEvent (signalVector u fn (qpOf u fn q).vector)
      (.qpError fn q.toNat c (qpOf u fn q).sqTail (qpOf u fn q).sqHead) := by
    unfold qpError
    rw [stopPair_of_idle h]
    rfl
  rw [herr]
  refine ⟨?_, ?_, ?_, ?_⟩
  · rw [qpOf_logEvent_of_closed (by rw [hv]; rfl), hv]
  · rw [logEvent_requests, (signalVector_host _ _ _).2]
    rfl
  · rw [(logEvent_frame _ _).2.1, (signalVector_frame _ _ _).2.1]
    rfl
  · rw [(logEvent_frame _ _).2.2.2.2.1, (signalVector_frame _ _ _).2.2.2.2.1]
    rfl

/-! ### The fetch -/

/-- A translation noted changes the translation cache alone, and may take a free value. -/
theorem noteAts_eq (s : State) (fn : Tenant) (q : BitVec 3) (a : BitVec 64) :
    ∃ ats n, noteAts s fn q a = { s with host := { s.host with ats := ats }, free := n } := by
  unfold noteAts
  dsimp only
  split_ifs <;> exact ⟨_, _, rfl⟩

/-- The state that a good line leaves before the fetch. -/
def headTaken (s : State) (fn : Tenant) (q : BitVec 3) (l : DoorbellLine) (ats : List AtsEntry) (n : Nat) : State :=
  setQp { tailTaken s fn q l with host := { (tailTaken s fn q l).host with ats := ats }, free := n } fn q fun p => { p with cqHead := l.cqHead }

theorem takeLine_of_good (h : lineError (qpOf (tailTaken s fn q l) fn q) l = none) (ds : List Descriptor) :
    ∃ ats n, takeLine (setQp s fn q fun p => { p with rereads := p.rereads - 1 }) fn q l ds = fetchAll fn q ds (headTaken s fn q l ats n) := by
  obtain ⟨a, m, ha⟩ := noteAts_eq (tailTaken s fn q l) fn q (qpOf (tailTaken s fn q l) fn q).dbAddr
  obtain ⟨a', m', ha'⟩ := noteAts_eq { tailTaken s fn q l with host := { (tailTaken s fn q l).host with ats := a }, free := m } fn q
    (qpOf (tailTaken s fn q l) fn q).sqBase
  refine ⟨a', m', ?_⟩
  rw [takeLine_eq, h, ha]
  dsimp only
  rw [ha']
  rfl

theorem qpOf_headTaken (ht : l.translates = true) (ats : List AtsEntry) (n : Nat) : qpOf (headTaken s fn q l ats n) fn q =
    { qpOf s fn q with sqTail := l.sqTail, rereads := (qpOf s fn q).rereads - 1, cqHead := l.cqHead } := by
  have h := qpOf_tailTaken (s := s) (fn := fn) (q := q) (l := l)
  rw [if_pos ht] at h
  exact (qpOf_setQp_same ..).trans (congrArg (fun p : QueuePair => { p with cqHead := l.cqHead }) h)

theorem qpOf_headTaken_other {gn : Tenant} {r : BitVec 3} (h : (gn, r) ≠ (fn, q)) (ats : List AtsEntry) (n : Nat) :
    qpOf (headTaken s fn q l ats n) gn r = qpOf s gn r :=
  (qpOf_setQp_other _ _ h).trans (qpOf_tailTaken_other h)

theorem headTaken_eq (s : State) (fn : Tenant) (q : BitVec 3) (l : DoorbellLine) (ats : List AtsEntry) (n : Nat) :
    ∃ qps, headTaken s fn q l ats n = { s with host := { s.host with qps := qps, ats := ats }, free := n } := by
  obtain ⟨qps, h⟩ := tailTaken_eq s fn q l
  unfold headTaken
  rw [h]
  exact ⟨_, rfl⟩

theorem fetchAll_one_of_may (h : mayFetch s fn q = true) (hne : (qpOf s fn q).sqHead ≠ (qpOf s fn q).sqTail) :
    fetchAll fn q [d] s = fetchOne s fn q d := by
  unfold fetchAll
  dsimp only
  rw [if_pos (by rw [h, decide_eq_true hne]; rfl)]
  rfl

theorem fetchAll_of_stopped (h : mayFetch s fn q = false) : fetchAll fn q [d] s = s := by
  unfold fetchAll
  dsimp only
  exact if_neg (by rw [h]; exact Bool.false_ne_true)

/-- A fetched descriptor of a known opcode joins those fetched, under the next handle. -/
theorem fetchOne_of_known {op : Opcode} (h : Opcode.ofByte d.opcode.toNat = some op) :
    ∃ (f : Fetched) (qps : Map QueuePair) (cnt : Map Nat) (fence : Option Nat), f.desc = d ∧ f.handle = s.host.nextHandle
      ∧ fetchOne s fn q d = { s with host := { s.host with nextHandle := s.host.nextHandle + 1, cntTenant := cnt, qps := qps } }
      ∧ qpOf (fetchOne s fn q d) fn q =
          { qpOf s fn q with sqHead := (qpOf s fn q).sqHead + 1, fetched := (qpOf s fn q).fetched ++ [f], fenced := fence }
      ∧ ∀ x y, (x, y) ≠ (fn, q) → qpOf (fetchOne s fn q d) x y = qpOf s x y := by
  let f : Fetched := { handle := s.host.nextHandle, desc := d, hit := decide (d.opcode = 0x30) && cancelHit s fn d.argC }
  let add := fun p : QueuePair => { p with
    fetched := p.fetched ++ [f], fenced := if op = Opcode.fence ∧ d.opflags.getLsbD 0 then some s.host.nextHandle else p.fenced }
  let v := setQp (countTenant { s with host := { s.host with nextHandle := s.host.nextHandle + 1 } } fn 4 1) fn q
    fun p => { p with sqHead := p.sqHead + 1 }
  have hfetch : fetchOne s fn q d = setQp v fn q add := by
    unfold fetchOne
    rw [h]
  have hv : qpOf v fn q = { qpOf s fn q with sqHead := (qpOf s fn q).sqHead + 1 } := qpOf_setQp_same ..
  rw [hfetch]
  refine ⟨f, _, _, if op = Opcode.fence ∧ d.opflags.getLsbD 0 then some s.host.nextHandle else (qpOf s fn q).fenced, rfl, rfl, rfl, ?_,
    fun x y hxy => ?_⟩
  · rw [qpOf_setQp_same, hv]
  · rw [qpOf_setQp_other _ _ hxy, qpOf_setQp_other _ _ hxy]
    rfl

end

section
variable {s : State} {fn : Tenant} {q : BitVec 3} {l : DoorbellLine} {d : Descriptor}

/-- A good line with a descriptor to fetch, and room for its completions: the descriptor is fetched (R281, R282). -/
theorem doorbellReturn_fetches {op : Opcode} (hr : 0 < (qpOf s fn q).rereads) (he : (qpOf s fn q).state = .enabled)
    (hl : lineError { qpOf s fn q with sqTail := l.sqTail } l = none) (ht : l.translates = true) (hn : l.sqTail ≠ (qpOf s fn q).sqHead)
    (hc : s.host.cacheEn = true) (hs : s.host.fetchStopped = false) (hf : heldByFence s (qpOf s fn q) = false)
    (hroom : ((qpOf s fn q).cqTail - l.cqHead).toNat + 8 ≤ cqSize (qpOf s fn q)) (hop : Opcode.ofByte d.opcode.toNat = some op) :
    ∃ t, doorbellReturn s fn q l [d] = t ∧ (qpOf t fn q).sqTail = l.sqTail ∧ (qpOf t fn q).cqHead = l.cqHead
      ∧ (qpOf t fn q).sqHead = (qpOf s fn q).sqHead + 1
      ∧ (∃ f, (qpOf t fn q).fetched = (qpOf s fn q).fetched ++ [f] ∧ f.desc = d ∧ f.handle = s.host.nextHandle)
      ∧ t.host.nextHandle = s.host.nextHandle + 1 ∧ t.host.requests = s.host.requests ∧ (qpOf t fn q).rereads = (qpOf s fn q).rereads - 1
      ∧ (∀ x y, (x, y) ≠ (fn, q) → qpOf t x y = qpOf s x y) ∧ t.gen = s.gen := by
  have hgood : lineError (qpOf (tailTaken s fn q l) fn q) l = none := by
    rw [lineError_tailTaken, if_pos ht]
    exact hl
  obtain ⟨ats, n, htake⟩ := takeLine_of_good hgood [d]
  have hqp := qpOf_headTaken (s := s) (fn := fn) (q := q) ht ats n
  obtain ⟨qps, hstate⟩ := headTaken_eq s fn q l ats n
  have hmay : mayFetch (headTaken s fn q l ats n) fn q = true := by
    have hheld : heldByFence (headTaken s fn q l ats n) (qpOf (headTaken s fn q l ats n) fn q) = false := by
      rw [hqp]
      unfold heldByFence
      rw [hstate]
      exact hf
    unfold mayFetch
    dsimp only
    rw [hheld, hqp, hstate]
    simp only [hc, he, hs, cqUsed, decide_true, Bool.not_false, Bool.and_true]
    exact decide_eq_true hroom
  have hone := fetchAll_one_of_may (d := d) hmay (by rw [hqp]; exact Ne.symm hn)
  obtain ⟨f, qps', cnt, fence, hfd, hfh, heq, hq, hother⟩ := fetchOne_of_known (s := headTaken s fn q l ats n) (fn := fn) (q := q) hop
  rw [hqp] at hq
  refine ⟨fetchOne (headTaken s fn q l ats n) fn q d, ?_, ?_, ?_, ?_, ⟨f, ?_, hfd, ?_⟩, ?_, ?_, ?_, fun x y hxy => ?_, ?_⟩
  · rw [doorbellReturn_of_enabled hr he, htake, hone]
  · rw [hq]
  · rw [hq]
  · rw [hq]
  · rw [hq]
  · rw [hfh, hstate]
  · rw [heq, hstate]
  · rw [heq, hstate]
  · rw [hq]
  · rw [hother x y hxy, qpOf_headTaken_other hxy]
  · rw [heq, hstate]

/-- A good line while the cache is off: its values are taken and nothing is fetched (R286). -/
theorem doorbellReturn_uncached (hr : 0 < (qpOf s fn q).rereads) (he : (qpOf s fn q).state = .enabled) (ht : l.translates = true)
    (hc : s.host.cacheEn = false) (hl : lineError { qpOf s fn q with sqTail := l.sqTail } l = none) :
    ∃ t, doorbellReturn s fn q l [d] = t ∧ (qpOf t fn q).sqTail = l.sqTail ∧ (qpOf t fn q).sqHead = (qpOf s fn q).sqHead
      ∧ (qpOf t fn q).fetched = (qpOf s fn q).fetched ∧ t.host.requests = s.host.requests ∧ t.host.nextHandle = s.host.nextHandle
      ∧ t.gen = s.gen := by
  have hgood : lineError (qpOf (tailTaken s fn q l) fn q) l = none := by
    rw [lineError_tailTaken, if_pos ht]
    exact hl
  obtain ⟨ats, n, htake⟩ := takeLine_of_good hgood [d]
  have hqp := qpOf_headTaken (s := s) (fn := fn) (q := q) ht ats n
  obtain ⟨qps, hstate⟩ := headTaken_eq s fn q l ats n
  have hmay : mayFetch (headTaken s fn q l ats n) fn q = false := by
    unfold mayFetch
    dsimp only
    rw [hstate]
    simp only [hc, Bool.false_and]
  refine ⟨headTaken s fn q l ats n, ?_, ?_, ?_, ?_, ?_, ?_, ?_⟩
  · rw [doorbellReturn_of_enabled hr he, htake, fetchAll_of_stopped hmay]
  · rw [hqp]
  · rw [hqp]
  · rw [hqp]
  · rw [hstate]
  · rw [hstate]
  · rw [hstate]

/-- A bad line of a pair with nothing waiting: the error state (R283). -/
theorem doorbellReturn_bad {c : Nat} (hr : 0 < (qpOf s fn q).rereads) (he : (qpOf s fn q).state = .enabled)
    (hl : lineError (if l.translates then { qpOf s fn q with sqTail := l.sqTail } else qpOf s fn q) l = some c)
    (ds : List Descriptor) : doorbellReturn s fn q l ds = qpError (tailTaken s fn q l) fn q c := by
  rw [doorbellReturn_of_enabled hr he, takeLine_eq, lineError_tailTaken, hl]

end

/-- Settles O31: link training, the doorbell line and its errors, the fetch, and translations. -/
theorem hostLinkAndDoorbells : Obligations.HostLinkAndDoorbells := by
  unfold Obligations.HostLinkAndDoorbells
  intro s fn q w g lat on l d page op
  dsimp only
  refine ⟨fun hw hg => ?_, rfl, fun h => ?_, fun h => ?_, fun h => ?_, fun hr he => ⟨fun c hl hi => ?_, fun hl ht hn hc hs hf hroom hop => ?_⟩,
    rfl, fun hr he ht hc hl => ?_⟩
  · have htrain := linkTraining_of_rate (s := s) lat hw hg
    let u : State := { s with host := { s.host with linkWidth := w, linkGts := g, latOpt := lat && decide (g.toNat = 64) } }
    by_cases h16 : w.toNat < 16
    · have ht : linkTraining s w g lat = logEvent u (.linkDegraded w.toNat g.toNat) := htrain.trans (if_pos h16)
      obtain ⟨hlw, hlg, hll⟩ := logEvent_link u (.linkDegraded w.toNat g.toNat)
      refine ⟨_, congrArg Host.Outcome.next ht, hlw, hlg, hll, fun h => absurd h (Nat.ne_of_lt h16), fun _ => ?_⟩
      rw [hll]
    · have ht : linkTraining s w g lat = u := htrain.trans (if_neg h16)
      exact ⟨_, congrArg Host.Outcome.next ht, rfl, rfl, rfl, fun _ => rfl, fun h => absurd h h16⟩
  · exact congrArg Host.Outcome.next (doorbellInvalidation_of_pinned h)
  · exact congrArg Host.Outcome.next (doorbellInvalidation_of_unpinned h)
  · exact congrArg Host.Outcome.next (doorbellReturn_of_none h [d])
  · have hidle : (qpOf (tailTaken s fn q l) fn q).waiting = [] := by
      rw [qpOf_tailTaken]
      split
      · exact hi
      · exact hi
    have hhead : (qpOf (tailTaken s fn q l) fn q).sqHead = (qpOf s fn q).sqHead := by
      rw [qpOf_tailTaken]
      split <;> rfl
    obtain ⟨hq, hreq, hstore, hgen⟩ := qpError_of_idle hidle c
    obtain ⟨qps, hstate⟩ := tailTaken_eq s fn q l
    refine ⟨_, congrArg Host.Outcome.next (doorbellReturn_bad hr he hl [d]), ?_, ?_, ?_, ?_, ?_, ?_, ?_, ?_⟩
    · rw [hq]
      rfl
    · rw [hq]
      rfl
    · rw [hq]
      rfl
    · rw [hq]
      rfl
    · rw [hq]
      exact hhead
    · rw [hreq, hstate]
    · rw [hstore, hstate]
    · rw [hgen, hstate]
  · obtain ⟨t, rfl, h⟩ := doorbellReturn_fetches hr he hl ht hn hc hs hf hroom hop
    exact ⟨_, rfl, h⟩
  · obtain ⟨t, rfl, h⟩ := doorbellReturn_uncached (d := d) hr he ht hc hl
    exact ⟨_, rfl, h⟩

end Sys2Proof.Machine

/-! Host accesses of the CXL.mem window (R275 to R278, R82, R85). -/

namespace Sys2Proof.Machine

/-! ## Bytes -/

/-- Byte strings of one length agree where their bytes do. -/
theorem bytes_ext {a b : Bytes} (h : a.length = b.length) (hk : ∀ k < a.length, a.getD k 0 = b.getD k 0) : a = b := by
  refine List.ext_getElem h fun k ha hb => ?_
  have := hk k ha
  rwa [List.getD_eq_getElem _ _ ha, List.getD_eq_getElem _ _ hb] at this

theorem getD_pad {n k : Nat} (bs : Bytes) (h : k < n) : (pad n bs).getD k 0 = bs.getD k 0 := by
  induction n generalizing k bs with
  | zero => cases h
  | succ n ih =>
    cases bs with
    | nil =>
      cases k with
      | zero => rfl
      | succ k =>
        rw [pad, List.getD_cons_succ, ih [] (Nat.lt_of_succ_lt_succ h)]
        rfl
    | cons b bs =>
      cases k with
      | zero => rfl
      | succ k =>
        rw [pad, List.getD_cons_succ, ih bs (Nat.lt_of_succ_lt_succ h)]
        rfl

/-- The bytes of a row of blocks of m bytes each. -/
theorem getD_blocks {m : Nat} (f : Nat → Bytes) (hf : ∀ i, (f i).length = m) {c j : Nat} (h : j < c * m) :
    ((List.range c).flatMap f).getD j 0 = (f (j / m)).getD (j % m) 0 := by
  have hm : 0 < m := Nat.pos_of_ne_zero fun e => by rw [e] at h; omega
  have length (c : Nat) : ((List.range c).flatMap f).length = c * m := by
    induction c with
    | zero => simp
    | succ c ih => rw [List.range_succ, List.flatMap_append, List.length_append, ih]; simp [hf, Nat.succ_mul]
  induction c with
  | zero => omega
  | succ c ih =>
    rw [List.range_succ, List.flatMap_append]
    by_cases hj : j < c * m
    · rw [List.getD_append _ _ _ _ (by rw [length]; exact hj), ih hj]
    · have hlo : c * m ≤ j := Nat.le_of_not_lt hj
      have hdiv : j / m = c := Nat.div_eq_of_lt_le hlo h
      have hmod : j % m = j - c * m := by
        have := Nat.div_add_mod j m
        rw [hdiv, Nat.mul_comm] at this
        omega
      rw [List.getD_append_right _ _ _ _ (by rw [length]; exact hlo), length, hdiv, hmod]
      simp

theorem getD_drop (bs : Bytes) (n k : Nat) : (bs.drop n).getD k 0 = bs.getD (n + k) 0 := by
  simp [List.getD_eq_getElem?_getD, List.getElem?_drop]

/-- What a splice within a byte string leaves and what it replaces. -/
theorem getD_splice {bs data : Bytes} {off : Nat} (k : Nat) :
    (splice bs off data).getD k 0 = if off ≤ k ∧ k < off + data.length then data.getD (k - off) 0 else bs.getD k 0 := by
  unfold splice
  rw [List.append_assoc]
  by_cases hlo : off ≤ k
  · rw [List.getD_append_right _ _ _ _ (by rw [length_pad]; exact hlo), length_pad]
    by_cases hhi : k < off + data.length
    · rw [if_pos ⟨hlo, hhi⟩, List.getD_append _ _ _ _ (by omega)]
    · rw [if_neg (fun h => hhi h.2), List.getD_append_right _ _ _ _ (by omega), getD_drop]
      congr 1
      omega
  · rw [if_neg (fun h => hlo h.1), List.getD_append _ _ _ _ (by rw [length_pad]; omega), getD_pad _ (by omega)]

/-! ## The window's bytes -/

/-- Byte i of the window. -/
def windowByte (s : State) (i : Nat) : BitVec 8 := (lTile s (windowTile0 s + i / 16384)).payload.getD (i % 16384) 0

theorem length_windowRead (s : State) (off len : Nat) : (windowRead s off len).length = len := length_pad ..

/-- A read of the window gives its bytes in order. -/
theorem getD_windowRead (s : State) {off len k : Nat} (h : k < len) : (windowRead s off len).getD k 0 = windowByte s (off + k) := by
  unfold windowRead slice
  dsimp only
  rw [getD_pad _ h, getD_drop, getD_blocks (m := 16384) _ (fun i => length_pad ..) (by omega), getD_pad _ (Nat.mod_lt _ (by decide))]
  unfold windowByte
  have hdiv : off / 16384 + (off % 16384 + k) / 16384 = (off + k) / 16384 := by omega
  have hmod : (off % 16384 + k) % 16384 = (off + k) % 16384 := by omega
  rw [Nat.add_assoc, hdiv, hmod]

/-- Reads that see the same bytes agree. -/
theorem windowRead_congr {s t : State} {off len : Nat} (h : ∀ k < len, windowByte t (off + k) = windowByte s (off + k)) :
    windowRead t off len = windowRead s off len := by
  refine bytes_ext (by rw [length_windowRead, length_windowRead]) fun k hk => ?_
  rw [length_windowRead] at hk
  rw [getD_windowRead _ hk, getD_windowRead _ hk, h k hk]

/-- A part of what a longer read gives is what a read of that part gives. -/
theorem slice_windowRead (s : State) {base n off len : Nat} (h : off + len ≤ n) :
    slice (windowRead s base n) off len = windowRead s (base + off) len := by
  refine bytes_ext (by rw [length_windowRead]; exact length_pad ..) fun k hk => ?_
  have hk : k < len := by rwa [show (slice (windowRead s base n) off len).length = len from length_pad ..] at hk
  unfold slice
  rw [getD_pad _ hk, getD_drop, getD_windowRead _ (by omega), getD_windowRead _ hk, Nat.add_assoc]

/-- A write within one tile of the window changes those bytes. -/
theorem windowByte_windowPut (s : State) {off : Nat} {data : Bytes} (h : off % 16384 + data.length ≤ 16384) (i : Nat) :
    windowByte (windowPut s off data) i = if off ≤ i ∧ i < off + data.length then data.getD (i - off) 0 else windowByte s i := by
  have hbase : windowTile0 (windowPut s off data) = windowTile0 s := rfl
  unfold windowByte
  rw [hbase]
  by_cases hn : i / 16384 = off / 16384
  · have htile : (lTile (windowPut s off data) (windowTile0 s + i / 16384)).payload =
        splice (pad 16384 (lTile s (windowTile0 s + i / 16384)).payload) (off % 16384) data := by
      rw [hn]
      simp only [lTile, windowPut, mget_mput, if_true]
    rw [htile, getD_splice, getD_pad _ (Nat.mod_lt _ (by decide))]
    by_cases hin : off ≤ i ∧ i < off + data.length
    · rw [if_pos hin, if_pos (by omega)]
      congr 1
      omega
    · rw [if_neg hin, if_neg (by omega)]
  · have htile : lTile (windowPut s off data) (windowTile0 s + i / 16384) = lTile s (windowTile0 s + i / 16384) := by
      simp only [lTile, windowPut, mget_mput]
      exact if_neg (by omega)
    rw [htile, if_neg (by omega)]

/-! ## The accesses -/

section
variable {s : State} {a : Nat}

theorem windowHostRead_of_outside (h : windowBytes s ≤ a) (c : Bool) (f : BurstFault) : windowHostRead s a c f = s := if_pos h

theorem windowHostWrite_of_outside (h : windowBytes s ≤ a) (data : Bytes) : windowHostWrite s a data = s := if_pos h

theorem windowHostRead_of_refused (h : a < windowBytes s) (hm : hostMay s (a / 2 ^ 30) = false) (c : Bool) (f : BurstFault) :
    windowHostRead s a c f = logEvent (emit s (.windowData (a / 64) (List.replicate 64 0xFF) true))
      (.windowRefused (a / 2 ^ 30) (mget 0 s.tier.windowTenant (a / 2 ^ 30)) false a) := by
  unfold windowHostRead
  exact (if_neg (Nat.not_le.2 h)).trans (if_pos (by rw [hm]; rfl))

theorem windowHostWrite_of_refused (h : a < windowBytes s) (hm : hostMay s (a / 2 ^ 30) = false) (data : Bytes) :
    windowHostWrite s a data = logEvent s (.windowRefused (a / 2 ^ 30) (mget 0 s.tier.windowTenant (a / 2 ^ 30)) true a) := by
  unfold windowHostWrite
  exact (if_neg (Nat.not_le.2 h)).trans (if_pos (by rw [hm]; rfl))

/-- A permitted read waits for a write of its line and for a subchannel that retrains, and is served otherwise (R276, R82). -/
theorem windowHostRead_of_may (h : a < windowBytes s) (hm : hostMay s (a / 2 ^ 30) = true) (c : Bool) (f : BurstFault) :
    windowHostRead s a c f =
      if (s.tier.windowWrites.any fun w => decide (w.1 / 64 = a / 64)) || windowRetrains s a then
        { s with tier := { s.tier with windowReads := s.tier.windowReads ++ [(a, c, f)] } }
      else serveWindow s a c f := by
  unfold windowHostRead
  exact (if_neg (Nat.not_le.2 h)).trans (if_neg (by rw [hm]; decide))

theorem windowHostWrite_of_may (h : a < windowBytes s) (hm : hostMay s (a / 2 ^ 30) = true) (data : Bytes) :
    windowHostWrite s a data =
      if windowRetrains s a then { s with tier := { s.tier with hostWrites := s.tier.hostWrites ++ [(a, data.take (64 - a % 64))] } }
      else windowPut s a (data.take (64 - a % 64)) := by
  unfold windowHostWrite
  exact (if_neg (Nat.not_le.2 h)).trans (if_neg (by rw [hm]; decide))

/-- A line whose bursts are undisturbed is answered as it is. -/
theorem serveWindow_eq (s : State) (a : Nat) (c : Bool) :
    serveWindow s a c [] =
      emit (if c then { s with tier := { s.tier with hostLines := withLast (a / 64) s.tier.hostLines } } else s)
        (.windowData (a / 64) (windowRead s (64 * (a / 64)) 64) false) := by
  have hline : slice (windowRead s (64 * (a / 64) / 16384 * 16384) 16384) (64 * (a / 64) % 16384) 64 = windowRead s (64 * (a / 64)) 64 := by
    rw [slice_windowRead s (by omega)]
    congr 1
    omega
  rw [← hline]
  cases c <;> rfl

/-! ## Writes that waited for a snoop -/

theorem snoopResponse_of_idle (hw : s.tier.windowWrites = []) (hr : s.tier.windowReads = []) (k : Nat) :
    snoopResponse s k = { s with tier := { s.tier with hostLines := without k s.tier.hostLines } } := by
  unfold snoopResponse settleWindow serveWaiting
  simp only [hw, hr, List.length_nil, drainWindow, List.filter_nil, List.foldl_nil]

theorem serveWaiting_of_none (hr : s.tier.windowReads = []) : serveWaiting s = s := by
  unfold serveWaiting
  simp only [hr, List.filter_nil, List.foldl_nil]
  rw [← hr]

/-- The only write that waits is made once the host has given up its line. -/
theorem snoopResponse_of_one {data : Bytes} (hw : s.tier.windowWrites = [(a, data)]) (hr : s.tier.windowReads = [])
    (hret : windowRetrains s a = false) (hsize : a < s.tier.windowSize.toNat * 2 ^ 30) :
    snoopResponse s (a / 64) = windowPut { s with tier := { s.tier with hostLines := without (a / 64) s.tier.hostLines, windowWrites := [] } } a data := by
  let u : State := { s with tier := { s.tier with hostLines := without (a / 64) s.tier.hostLines } }
  have hdrain : drainWindow u.tier.windowWrites.length u = windowPut { u with tier := { u.tier with windowWrites := [] } } a data := by
    have hgone : ¬ ((decide (a / 64 ∈ u.tier.hostLines) || windowRetrains u a) = true) := by
      have hline : a / 64 ∉ u.tier.hostLines := fun h => by simp [u, without] at h
      have hret' : windowRetrains u a = false := hret
      simp [hline, hret']
    have hlen : u.tier.windowWrites.length = 1 := congrArg List.length hw
    rw [hlen, drainWindow]
    rw [show u.tier.windowWrites = [(a, data)] from hw]
    dsimp only
    rw [if_neg hgone, drainWindow]
    exact if_pos hsize
  unfold snoopResponse settleWindow
  exact (congrArg serveWaiting hdrain).trans (serveWaiting_of_none hr)

end

/-- Settles O32: who may access the window, what waits, and the bytes that are read and written. -/
theorem windowAccessesOfTheHost : Obligations.WindowAccessesOfTheHost := by
  unfold Obligations.WindowAccessesOfTheHost
  intro s a k data cached
  refine ⟨fun h => ⟨?_, ?_⟩, fun h hm => ⟨?_, ?_⟩, fun h hm => ⟨fun hw hr => ?_, fun hwait => ?_, fun hr => ?_, fun hr => ?_,
    fun hlen hal hr => ?_⟩, fun hw hr => ?_, fun hw hr hk hret hsize => ?_⟩
  · exact congrArg Host.Outcome.next (windowHostRead_of_outside h cached [])
  · exact congrArg Host.Outcome.next (windowHostWrite_of_outside h data)
  · exact congrArg Host.Outcome.next (windowHostRead_of_refused h hm cached [])
  · exact congrArg Host.Outcome.next (windowHostWrite_of_refused h hm data)
  · have hfree : ¬ (((s.tier.windowWrites.any fun w => decide (w.1 / 64 = a / 64)) || windowRetrains s a) = true) := by
      simpa [hr] using hw
    have hserve := ((windowHostRead_of_may h hm cached []).trans (if_neg hfree)).trans (serveWindow_eq s a cached)
    refine ⟨_, congrArg Host.Outcome.next hserve, ?_, fun hc => ?_, fun hc => ?_, ?_⟩
    · cases cached <;> rfl
    · subst hc
      exact mem_withLast.2 (.inl rfl)
    · subst hc
      rfl
    · cases cached <;> rfl
  · refine congrArg Host.Outcome.next ((windowHostRead_of_may h hm cached []).trans (if_pos ?_))
    simpa using hwait
  · exact congrArg Host.Outcome.next ((windowHostWrite_of_may h hm data).trans (if_pos hr))
  · exact congrArg Host.Outcome.next ((windowHostWrite_of_may h hm data).trans (if_neg (by rw [hr]; exact Bool.false_ne_true)))
  · have hwrite : windowHostWrite s a data = windowPut s a data := by
      rw [windowHostWrite_of_may h hm data, hr, hal, List.take_of_length_le (by omega)]
      rfl
    have hfits : a % 16384 + data.length ≤ 16384 := by omega
    refine ⟨_, congrArg Host.Outcome.next hwrite, ?_, fun b hb => windowRead_congr fun k hk => ?_, rfl⟩
    · refine bytes_ext (by rw [length_windowRead, hlen]) fun k hk => ?_
      rw [length_windowRead] at hk
      rw [getD_windowRead _ hk, windowByte_windowPut s hfits, if_pos (by omega), Nat.add_sub_cancel_left]
    · rw [windowByte_windowPut s hfits, if_neg (by omega)]
  · exact congrArg Host.Outcome.next (snoopResponse_of_idle hw hr k)
  · subst hk
    exact ⟨_, congrArg Host.Outcome.next (snoopResponse_of_one hw hr hret hsize), rfl, rfl, rfl⟩

end Sys2Proof.Machine

/-! The Settee link: what sending leaves, frames received, and the link's states (R366 to R370). -/

namespace Sys2Proof.Machine

/-! ## Sending -/

/-- The pair's part but for what carrying a message uses. -/
def PairState.outsideFrames (p : PairState) : PairState :=
  { p with txWait := [], txSeq := 0, replay := [], owed := 0, credit := 0, ackDue := false, sentAt := 0 }

/-- Frames that go out change the frame state of the link and the output, nothing else. -/
theorem pumpFrames_eq (k : Nat) (s : State) : ∃ p out, pumpFrames k s = { s with pair := p, host := { s.host with out := out } }
    ∧ p.outsideFrames = s.pair.outsideFrames := by
  induction k generalizing s with
  | zero => exact ⟨s.pair, s.host.out, rfl, rfl⟩
  | succ k ih =>
    unfold pumpFrames
    split
    · exact ⟨s.pair, s.host.out, rfl, rfl⟩
    · split
      · exact ⟨s.pair, s.host.out, rfl, rfl⟩
      · next f rest _ _ =>
        obtain ⟨p, out, h, hp⟩ := ih (frameSent { s with pair := { s.pair with
          txWait := rest, txSeq := s.pair.txSeq + 1, replay := s.pair.replay ++ [dressFrame s f], owed := s.pair.owed + 1 } } (dressFrame s f))
        exact ⟨p, out, h, hp⟩

/-- A message queued, and what of it goes out at once. -/
theorem pumpFrames_queued (s : State) (m : MsgHdr) (b : MsgBody) (fs : List Frame) (n k : Nat) : ∃ p out n',
    pumpFrames k { s with free := n, pair := { s.pair with sent := (m, b) :: s.pair.sent, txWait := s.pair.txWait ++ fs } } =
      { s with pair := p, host := { s.host with out := out }, free := n' }
    ∧ p.outsideFrames = ({ s.pair with sent := (m, b) :: s.pair.sent } : PairState).outsideFrames := by
  obtain ⟨p, out, h, hp⟩ := pumpFrames_eq k
    { s with free := n, pair := { s.pair with sent := (m, b) :: s.pair.sent, txWait := s.pair.txWait ++ fs } }
  exact ⟨p, out, n, h, hp⟩

/-- A message is sent when the link is live, and IDENT in training as well. -/
theorem sendMsg_eq {s : State} {m : MsgHdr} (h : linkLive s = true ∨ (s.pair.link = .training ∧ m.type = 1)) (b : MsgBody) :
    ∃ p out n, sendMsg s m b = { s with pair := p, host := { s.host with out := out }, free := n }
      ∧ p.outsideFrames = ({ s.pair with sent := (m, b) :: s.pair.sent } : PairState).outsideFrames := by
  have hgo : ¬ ((!linkLive s && !(s.pair.link = .training && decide (m.type = 1))) = true) := by
    rcases h with h | ⟨h1, h2⟩
    · simp [h]
    · simp [h1, h2]
  unfold sendMsg
  rw [if_neg hgo]
  exact pumpFrames_queued ..

theorem sendMsg_of_dead {s : State} {m : MsgHdr} (h : linkLive s = false) (ht : s.pair.link ≠ .training ∨ m.type ≠ 1) (b : MsgBody) :
    sendMsg s m b = s := by
  unfold sendMsg
  exact if_pos (by simpa [h] using ht)

/-! ## Frames -/

/-- The CRC covers no bit of itself. -/
theorem Frame.crcOf_sealed (f : Frame) (c : BitVec 32) : ({ f with crc := c } : Frame).crcOf = f.crcOf := rfl

section
variable {s : State} {f : Frame}

theorem frameReceive_of_stopped (h : s.pair.link = .down ∨ s.pair.realigning = true) (f : Frame) : frameReceive s f = s :=
  if_pos (by simpa using h)

theorem emptyFrame_of_stopped (h : s.pair.link = .down ∨ s.pair.realigning = true) : emptyFrame s = s :=
  if_pos (by rcases h with h | h <;> simp [h])

/-- The pair's part once a frame has failed its CRC. -/
def naked (s : State) : PairState :=
  { s.pair with discarding := true, nakSeq := s.pair.expect, sentAt := now s
                nakRun := if s.pair.nakRun ≠ 0 && s.pair.nakSeq = s.pair.expect then s.pair.nakRun + 1 else 1 }

theorem nakFrame_eq (s : State) : ∃ g : Frame, nakFrame s = { s with pair := naked s, host := { s.host with out := .frame g :: s.host.out } }
    ∧ g.nak = true ∧ g.ackSeq = s.pair.expect ∧ g.empty = true ∧ g.crc = g.crcOf :=
  ⟨_, rfl, rfl, rfl, rfl, (Frame.crcOf_sealed ..).symm⟩

/-- The pair's part after the acknowledgement and credit of a frame that is no negative acknowledge. -/
def frameAcked (s : State) (f : Frame) : PairState :=
  { s.pair with
    validAt := now s, owed := s.pair.owed - f.credit.toNat, txNakRun := 0
    replay := if s.pair.replay.any (fun g => decide (g.seq = f.ackSeq)) then (s.pair.replay.dropWhile fun g => decide (g.seq ≠ f.ackSeq)).tail
              else s.pair.replay }

theorem takeFrameAck_of_ack (hn : f.nak = false) (hw : s.pair.txWait = []) : takeFrameAck s f = { s with pair := frameAcked s f } := by
  let u : State := { s with pair := frameAcked s f }
  have hack : takeFrameAck s f = pumpFrames u.pair.txWait.length u := by
    unfold takeFrameAck
    simp only [setPair, hn, Bool.false_eq_true, if_false, Bool.not_false, Bool.true_and]
    rfl
  have hidle : u.pair.txWait.length = 0 := congrArg List.length hw
  rw [hack, hidle]
  rfl

theorem frameReceive_of_bad (hl : s.pair.link ≠ .down) (hr : s.pair.realigning = false) (hc : f.crc ≠ f.crcOf) :
    frameReceive s f = nakFrame s := by
  unfold frameReceive
  rw [if_neg (by simp [hl, hr]), if_pos hc]

theorem frameReceive_of_good (hl : s.pair.link ≠ .down) (hr : s.pair.realigning = false) (hc : f.crc = f.crcOf) (hn : f.nak = false)
    (hw : s.pair.txWait = []) : frameReceive s f =
      if f.empty || f.seq ≠ s.pair.expect then { s with pair := frameAcked s f }
      else { s with pair := joinFrame { frameAcked s f with
        expect := s.pair.expect + 1, discarding := false, nakRun := 0, ackDue := true, credit := s.pair.credit + 1 } f } := by
  unfold frameReceive
  rw [if_neg (by simp [hl, hr]), if_neg (not_not_intro hc)]
  dsimp only
  rw [takeFrameAck_of_ack hn hw]
  rfl

/-- Joining a frame's bytes changes the message that is being received, and nothing else. -/
theorem joinFrame_eq (p : PairState) (f : Frame) : ∃ b o m, joinFrame p f = { p with rxBytes := b, rxOpen := o, rxMsgs := m } := by
  unfold joinFrame
  dsimp only
  split_ifs <;> exact ⟨_, _, _, rfl⟩

theorem joinFrame_of_single (p : PairState) (hf : f.first = true) (hl : f.last = true) (hu : 31 ≤ f.used.toNat) (hp : 31 < f.payload.length) :
    (joinFrame p f).rxMsgs = p.rxMsgs ++ [f.payload.take (f.used.toNat + 1)] := by
  have hlen : 32 ≤ (f.payload.take (f.used.toNat + 1)).length ∧ (f.payload.take (f.used.toNat + 1)).length ≤ 1048576 := by
    rw [List.length_take]
    have := f.used.isLt
    omega
  unfold joinFrame
  simp only [hf, hl, Bool.not_true, Bool.false_and, Bool.false_eq_true, if_false, if_true, if_pos hlen]

theorem joinFrame_of_first (p : PairState) (hf : f.first = true) (hl : f.last = false) :
    joinFrame p f = { p with rxBytes := f.payload.take (f.used.toNat + 1), rxOpen := true } := by
  unfold joinFrame
  simp only [hf, hl, Bool.not_true, Bool.false_and, Bool.false_eq_true, if_false, if_true]

theorem joinFrame_of_middle {p : PairState} (hf : f.first = false) (hl : f.last = false) (ho : p.rxOpen = true) :
    joinFrame p f = { p with rxBytes := p.rxBytes ++ f.payload.take (f.used.toNat + 1), rxOpen := true } := by
  unfold joinFrame
  simp only [hf, hl, ho, Bool.not_true, Bool.and_false, Bool.false_eq_true, if_false]

theorem emptyFrame_of_due (hl : s.pair.link ≠ .down) (hr : s.pair.realigning = false) (hd : 10 ≤ since s.pair.sentAt (now s)) :
    emptyFrame s = frameSent s (dressFrame s { empty := true }) := by
  unfold emptyFrame
  exact if_neg (by simpa [hl, hr] using hd)

/-! ## Realignment -/

/-- The state of a realignment before its outcome. -/
def realignNoted (s : State) : State :=
  setPair s fun p => { p with realignAt := now s :: lastSecond (now s) s.pair.realignAt, nakRun := 0, txNakRun := 0 }

theorem realign_of_run (hl : s.pair.link ≠ .down) (hr : s.pair.realigning = false) (hn : 8 ≤ s.pair.nakRun ∨ 8 ≤ s.pair.txNakRun)
    (swaps : List Tenant) : realign s swaps =
      if 3 ≤ (lastSecond (now s) s.pair.realignAt).length + 1 then enterDown (realignNoted s) .realign swaps
      else setPair (realignNoted s) fun p => { p with realigning := true } := by
  unfold realign
  exact if_neg (by simp [hl, hr]; omega)

/-- Frames sent again join the output in order. -/
theorem emitFrames_eq (l : List Frame) (s : State) : l.foldl (fun s f => emit s (.frame f)) s =
    { s with host := { s.host with out := (l.map Output.frame).reverse ++ s.host.out } } := by
  induction l generalizing s with
  | nil => rfl
  | cons f l ih =>
    rw [List.foldl_cons, ih, List.map_cons, List.reverse_cons, List.append_assoc]
    rfl

theorem realignDone_of_idle (hr : s.pair.realigning = true) (hw : s.pair.txWait = []) : realignDone s = { s with
    pair := { s.pair with realigning := false }, host := { s.host with out := (s.pair.replay.map Output.frame).reverse ++ s.host.out } } := by
  unfold realignDone
  rw [if_neg (by simp [hr])]
  cases hp : s.pair.replay with
  | nil =>
    simp only [setPair, hp, hw, List.length_nil, pumpFrames]
    rfl
  | cons f l =>
    have hdrop : (f :: l).dropWhile (fun g => decide (g.seq ≠ f.seq)) = f :: l := List.dropWhile_cons_of_neg (by simp)
    simp only [setPair, hp, resendFrames, hdrop, emitFrames_eq, hw, List.length_nil, pumpFrames]

/-! ## Training -/

theorem trainAttempt_of_due (hl : s.pair.link = .down) (he : s.pair.enable = true) (hb : s.bureau.recovery = false)
    (hd : 100000 ≤ since s.pair.triedAt (now s)) (ok : Bool) : trainAttempt s ok =
      if ok then
        sendMsg (setPair s fun p => { ({ p with triedAt := now s } : PairState).quietLink with
          link := .training, lanes := trainedLanes s, validAt := now s, sentAt := now s }) { type := 0x01 } (.ident (ownIdent s))
      else { s with pair := { s.pair with triedAt := now s } } := by
  unfold trainAttempt
  rw [if_neg (by simpa [hl, he, hb] using hd)]
  rfl

theorem laneFailed_of_dead {l : BitVec 3} (h : l ∈ s.pair.deadLanes) : laneFailed s l = s := if_pos h

theorem laneFailed_of_alive {l : BitVec 3} (h : l ∉ s.pair.deadLanes) : laneFailed s l = logEvent { s with pair :=
    { s.pair with deadLanes := withLast l s.pair.deadLanes, lanes := if s.pair.link = .down then 0 else 4 } } (.unnamed 21 0x3D [w32 l.toNat]) :=
  if_neg h

end

/-! ## DOWN (R369) -/

theorem retractTiles_frame (l : List RemoteProv) (s : State) :
    (l.foldl retractTile s).pair = s.pair ∧ (l.foldl retractTile s).bureau = s.bureau := by
  induction l generalizing s with
  | nil => exact ⟨rfl, rfl⟩
  | cons x l ih =>
    obtain ⟨-, -, -, -, -, hp, -, hb, -⟩ := retractTile_frame s x
    obtain ⟨h1, h2⟩ := ih (retractTile s x)
    exact ⟨h1.trans hp, h2.trans hb⟩

theorem slotOf_retractTile (s : State) (x : RemoteProv) (i : TileIdx) : slotOf (retractTile s x) i =
    slotOf (setSlot s x.tile fun y => if y.hdr.state = .ready then { y with hdr := { y.hdr with state := .free } } else y) i := by
  unfold retractTile
  exact slotOf_congr (congrArg StoreState.slots (retractInput_frame _ _ _).2.1) i

/-- A retracted tile is not READY, and no tile becomes READY. -/
theorem retractTile_not_ready {s : State} {x : RemoteProv} {i : TileIdx} (h : i = x.tile ∨ (slotOf s i).hdr.state ≠ .ready) :
    (slotOf (retractTile s x) i).hdr.state ≠ .ready := by
  rw [slotOf_retractTile, slotOf_setSlot]
  by_cases hi : i = x.tile
  · rw [if_pos hi]
    by_cases hr : (slotOf s x.tile).hdr.state = .ready
    · rw [if_pos hr]
      exact fun h => by cases h
    · rw [if_neg hr]
      exact hr
  · rw [if_neg hi]
    exact h.resolve_left hi

theorem retractTiles_not_ready (l : List RemoteProv) (s : State) (i : TileIdx)
    (h : (∃ x ∈ l, i = x.tile) ∨ (slotOf s i).hdr.state ≠ .ready) : (slotOf (l.foldl retractTile s) i).hdr.state ≠ .ready := by
  induction l generalizing s with
  | nil => exact h.resolve_left fun ⟨_, hx, _⟩ => List.not_mem_nil hx
  | cons x l ih =>
    refine ih (retractTile s x) ?_
    rcases h with ⟨y, hy, rfl⟩ | h
    · rcases List.mem_cons.1 hy with rfl | hy
      · exact .inr (retractTile_not_ready (.inl rfl))
      · exact .inl ⟨y, hy, rfl⟩
    · exact .inr (retractTile_not_ready (.inr h))

theorem settleDown_of_calm (swaps : List Tenant) {l : List JournalEntry} (h : ∀ e ∈ l, e.handle = none) (s : State) :
    l.foldl (settleDown swaps) s = s := by
  induction l with
  | nil => rfl
  | cons e l ih =>
    have he : settleDown swaps s e = s := by
      unfold settleDown
      rw [h e List.mem_cons_self]
    rw [List.foldl_cons, he]
    exact ih fun x hx => h x (List.mem_cons_of_mem _ hx)

/-- No mutation of the module waits for the partner. -/
def PairState.calm (p : PairState) : Prop := (∀ e ∈ p.journal, e.handle = none) ∧ p.forwards = [] ∧ p.waitMut = []

/-- The state in which the link has entered DOWN, its PROVISIONAL tiles retracted. -/
def downRetracted (s : State) (c : SplitCause) : State :=
  let u := setPair s fun p => { p.quietLink with link := .down, triedAt := now s }
  (s.pair.provisional.filter (·.link)).foldl retractTile (if linkLive s then logSplit u c else u)

/-- The reads that failed, once every outstanding one has. -/
def readsFailed (p : PairState) : List (BitVec 48) := p.reads.foldl (fun l a => withLast a l) p.failedReads

theorem mem_readsFailed {p : PairState} {a : BitVec 48} (h : a ∈ p.reads) : a ∈ readsFailed p := by
  have key (l acc : List (BitVec 48)) (h : a ∈ l ∨ a ∈ acc) : a ∈ l.foldl (fun l a => withLast a l) acc := by
    induction l generalizing acc with
    | nil => exact h.resolve_left List.not_mem_nil
    | cons b l ih =>
      refine ih _ ?_
      rcases h with h | h
      · rcases List.mem_cons.1 h with rfl | h
        · exact .inr (mem_withLast.2 (.inl rfl))
        · exact .inl h
      · exact .inr (mem_withLast.2 (.inr h))
  exact key _ _ (.inl h)

theorem downRetracted_pair (s : State) (c : SplitCause) :
    (downRetracted s c).pair = { s.pair.quietLink with link := .down, triedAt := now s } := by
  unfold downRetracted
  dsimp only
  rw [(retractTiles_frame _ _).1]
  split
  · exact (logSplit_frame _ _).2.2.2.2.2.2.1
  · rfl

/-- A calm link enters DOWN: nothing but its own state, its reads and its PROVISIONAL tiles changes. -/
theorem enterDown_of_calm {s : State} (hl : s.pair.link ≠ .down) (hc : s.pair.calm) (c : SplitCause) (swaps : List Tenant) :
    enterDown s c swaps = setPair (downRetracted s c) fun p => { p with failedReads := readsFailed s.pair, reads := [], forwards := [], waitMut := [] } := by
  obtain ⟨hj, hf, hw⟩ := hc
  have hp := downRetracted_pair s c
  have hprov : (downRetracted s c).pair.provisional = s.pair.provisional := by rw [hp]; rfl
  have hstart : enterDown s c swaps =
      (let s1 := downRetracted s c
       let s2 := setPair s1 fun p => { p with failedReads := p.reads.foldl (fun l a => withLast a l) p.failedReads, reads := [] }
       let s3 := s2.pair.forwards.foldl loseForward (setPair s2 fun p => { p with forwards := [] })
       let s4 := s3.pair.journal.foldl (settleDown swaps) s3
       retryWaiting s4 swaps) := by
    have hlist : (if linkLive s then logSplit (setPair s fun p => { p.quietLink with link := .down, triedAt := now s }) c
        else setPair s fun p => { p.quietLink with link := .down, triedAt := now s }).pair.provisional = s.pair.provisional := by
      split
      · rw [(logSplit_frame _ _).2.2.2.2.2.2.1]
        rfl
      · rfl
    unfold enterDown
    rw [if_neg hl]
    dsimp only
    rw [hlist]
    rfl
  rw [hstart]
  generalize downRetracted s c = u at hp
  have hjournal : u.pair.journal = s.pair.journal := by rw [hp]; rfl
  have hforwards : u.pair.forwards = [] := by rw [hp]; exact hf
  have hwait : u.pair.waitMut = [] := by rw [hp]; exact hw
  have hreads : u.pair.reads.foldl (fun l a => withLast a l) u.pair.failedReads = readsFailed s.pair := by rw [hp]; rfl
  simp only [setPair, hforwards, List.foldl_nil]
  rw [settleDown_of_calm swaps (hjournal ▸ hj), retryWaiting]
  simp only [setPair, hwait, List.foldl_nil, hreads]

/-- What the statement says of a link that has fallen. -/
theorem fell_of_calm {s : State} (hl : s.pair.link ≠ .down) (hc : s.pair.calm) (c : SplitCause) (swaps : List Tenant) :
    let t := enterDown s c swaps
    t.pair.link = .down ∧ t.pair.lanes = 0 ∧ t.pair.replay = [] ∧ t.pair.rxMsgs = [] ∧ t.pair.parts = []
      ∧ t.pair.reads = [] ∧ (∀ a ∈ s.pair.reads, a ∈ t.pair.failedReads) ∧ t.pair.triedAt = now s ∧ t.pair.journal = s.pair.journal
      ∧ t.pair.jNext = s.pair.jNext
      ∧ (∀ x ∈ s.pair.provisional, x.link = true → (slotOf t x.tile).hdr.state ≠ .ready)
      ∧ (linkLive s = true → s.pair.provisional = [] →
          ∃ u, t.bureau = (logEvent u (.pairSplit c.code (s.pair.jNext - 1) s.pair.jAcked)).bureau) := by
  have hp := downRetracted_pair s c
  dsimp only
  rw [enterDown_of_calm hl hc]
  have hpair : ∀ f : PairState → PairState, (setPair (downRetracted s c) f).pair = f { s.pair.quietLink with link := .down, triedAt := now s } :=
    fun f => congrArg f hp
  rw [hpair]
  refine ⟨rfl, rfl, rfl, rfl, rfl, rfl, fun a ha => mem_readsFailed ha, rfl, rfl, rfl, fun x hx hlink => ?_, fun hlive hnone => ?_⟩
  · exact retractTiles_not_ready _ _ x.tile (.inl ⟨x, List.mem_filter.2 ⟨hx, hlink⟩, rfl⟩)
  · refine ⟨setPair s fun p => { p.quietLink with link := .down, triedAt := now s }, ?_⟩
    show (downRetracted s c).bureau = _
    unfold downRetracted
    dsimp only
    rw [(retractTiles_frame _ _).2, if_pos hlive]
    rfl

theorem setteeSilence_of_recent {s : State} (h : since s.pair.validAt (now s) < 1000) (swaps : List Tenant) : setteeSilence s swaps = s := by
  unfold setteeSilence
  exact if_neg (by simpa using fun _ => h)

theorem setteeSilence_of_late {s : State} (hl : s.pair.link ≠ .down) (h : 1000 ≤ since s.pair.validAt (now s)) (swaps : List Tenant) :
    setteeSilence s swaps = enterDown s .silence swaps := by
  unfold setteeSilence
  exact if_pos (by simpa [hl] using h)

/-- Settles O43: frames by their checks, realignment, silence, training and lanes. -/
theorem setteeFramesAndLinkStates : Obligations.SetteeFramesAndLinkStates := by
  unfold Obligations.SetteeFramesAndLinkStates
  intro s f swaps l
  dsimp only
  refine ⟨fun h => ⟨?_, ?_⟩, fun hl hr => ⟨fun hc => ?_, fun hc hn hw => ?_, fun hd => ?_, fun hn hlt => ?_, fun hn hge hc => ?_⟩, fun hr hw => ?_,
    fun _ h => ?_, fun hl h hc => ?_, fun hl he hb hd => ⟨?_, ?_⟩, fun h => ?_, fun h => ?_⟩
  · exact congrArg Host.Outcome.next (frameReceive_of_stopped h f)
  · exact congrArg Host.Outcome.next (emptyFrame_of_stopped h)
  · obtain ⟨g, hg, hnak, hack, hempty, hcrc⟩ := nakFrame_eq s
    have hrun : (naked s).nakRun = if s.pair.nakRun ≠ 0 ∧ s.pair.nakSeq = s.pair.expect then s.pair.nakRun + 1 else 1 := by
      simp only [naked, Bool.and_eq_true, decide_eq_true_eq]
    exact ⟨_, congrArg Host.Outcome.next ((frameReceive_of_bad hl hr hc).trans hg), rfl, rfl, hrun, rfl, rfl, g, rfl, hnak, hack, hempty, hcrc⟩
  · have hgood := frameReceive_of_good hl hr hc hn hw
    by_cases hskip : f.empty = true ∨ f.seq ≠ s.pair.expect
    · rw [if_pos (by simpa using hskip)] at hgood
      refine ⟨_, congrArg Host.Outcome.next hgood, rfl, rfl, rfl, fun _ => ⟨rfl, rfl, rfl⟩, fun he hq => ?_, rfl, rfl⟩
      rcases hskip with h | h
      · rw [he] at h
        cases h
      · exact absurd hq h
    · rw [if_neg (by simpa using hskip)] at hgood
      let p' : PairState := { frameAcked s f with
        expect := s.pair.expect + 1, discarding := false, nakRun := 0, ackDue := true, credit := s.pair.credit + 1 }
      obtain ⟨b, o, m, hjoin⟩ := joinFrame_eq p' f
      refine ⟨_, congrArg Host.Outcome.next hgood, ?_, ?_, ?_, fun h => absurd h hskip,
        fun _ _ => ⟨?_, ?_, ?_, fun hf hl hu hp => ?_, fun hf hl => ?_, fun hf hl ho => ?_⟩, rfl, rfl⟩
      · exact congrArg PairState.validAt hjoin
      · exact congrArg PairState.owed hjoin
      · exact congrArg PairState.replay hjoin
      · exact congrArg PairState.expect hjoin
      · exact congrArg PairState.ackDue hjoin
      · exact congrArg PairState.credit hjoin
      · exact joinFrame_of_single p' hf hl hu hp
      · have hfirst := joinFrame_of_first p' hf hl
        exact ⟨(congrArg PairState.rxBytes hfirst :), (congrArg PairState.rxOpen hfirst :), (congrArg PairState.rxMsgs hfirst :)⟩
      · exact congrArg PairState.rxBytes (joinFrame_of_middle (p := p') hf hl ho)
  · exact ⟨_, congrArg Host.Outcome.next (emptyFrame_of_due hl hr hd), rfl, rfl, rfl, rfl, _, rfl, rfl, rfl, rfl, rfl,
      (Frame.crcOf_sealed ..).symm⟩
  · exact congrArg Host.Outcome.next ((realign_of_run hl hr hn swaps).trans (if_neg (by omega)))
  · exact ⟨_, congrArg Host.Outcome.next ((realign_of_run hl hr hn swaps).trans (if_pos (by omega))), fell_of_calm (s := realignNoted s) hl hc .realign swaps⟩
  · exact congrArg Host.Outcome.next (realignDone_of_idle hr hw)
  · exact congrArg Host.Outcome.next (setteeSilence_of_recent h swaps)
  · exact ⟨_, congrArg Host.Outcome.next (setteeSilence_of_late hl h swaps), fell_of_calm hl hc .silence swaps⟩
  · exact congrArg Host.Outcome.next (trainAttempt_of_due hl he hb hd false)
  · obtain ⟨p, out, n, hsend, hp⟩ := sendMsg_eq (s := setPair s fun p => { ({ p with triedAt := now s } : PairState).quietLink with
      link := .training, lanes := trainedLanes s, validAt := now s, sentAt := now s }) (m := { type := 0x01 }) (.inr ⟨rfl, rfl⟩) (.ident (ownIdent s))
    refine ⟨_, congrArg Host.Outcome.next ((trainAttempt_of_due hl he hb hd true).trans hsend), ?_, ?_, ?_, ?_, rfl, rfl⟩
    · exact (congrArg PairState.link hp :)
    · exact (congrArg PairState.lanes hp :)
    · exact (congrArg PairState.triedAt hp :)
    · exact (congrArg PairState.sent hp :)
  · exact congrArg Host.Outcome.next (laneFailed_of_dead h)
  · exact congrArg Host.Outcome.next (laneFailed_of_alive h)

end Sys2Proof.Machine

/-! The mailbox's answers, and leases: renewal, expiry, takeover, hand-over (R377, R378, R381, R382, R384, R425). -/

namespace Sys2Proof.Machine

/-! ## The mailbox -/

section
variable {s : State} {m : Bool}

theorem command_of_recovery (h : s.bureau.recovery = true) (f : State → State × Status × Bytes) :
    command s m f = reply s m (BitVec.ofNat 8 Status.badDescriptor.code) [] none := if_pos h

theorem command_of_running (h : s.bureau.recovery = false) (f : State → State × Status × Bytes) :
    command s m f = reply (f s).1 m (BitVec.ofNat 8 (f s).2.1.code) (f s).2.2 none := if_neg (by rw [h]; exact Bool.false_ne_true)

/-- What the mailbox's registers hold after an answer (R425). -/
theorem reply_bureau (s : State) (st : BitVec 8) (data : Bytes) (tk : Option Word) : (reply s false st data tk).bureau =
    { (putData s data).bureau with
      mbExec := false, mbStatus := st, mbOutLen := BitVec.ofNat 13 (min 4096 data.length), mbBackground := tk.isSome
      mbTicket := tk.getD s.bureau.mbTicket } := by
  unfold reply
  simp only [Bool.false_eq_true, if_false]
  split
  · unfold signalVector
    dsimp only
    split <;> rfl
  · rfl

theorem reply_mbExec (s : State) (st : BitVec 8) (data : Bytes) (tk : Option Word) : (reply s false st data tk).bureau.mbExec = false :=
  congrArg BureauState.mbExec (reply_bureau s st data tk)

theorem reply_mbStatus (s : State) (st : BitVec 8) (data : Bytes) (tk : Option Word) : (reply s false st data tk).bureau.mbStatus = st :=
  congrArg BureauState.mbStatus (reply_bureau s st data tk)

theorem reply_pair (s : State) (m : Bool) (st : BitVec 8) (data : Bytes) (tk : Option Word) : (reply s m st data tk).pair = s.pair := by
  simp only [reply_frame]

end

/-! ## Lease words -/

section
variable {s : State} {n : Tenant}

theorem leaseOf_congr {s t : State} (h : t.pair.leases = s.pair.leases) (k : Tenant) : leaseOf t k = leaseOf s k := by
  simp only [leaseOf, h]

theorem leaseOf_pair {s t : State} (h : t.pair = s.pair) (k : Tenant) : leaseOf t k = leaseOf s k := leaseOf_congr (by rw [h]) k

@[simp] theorem logEvent_pair (s : State) (e : Ev) : (logEvent s e).pair = s.pair := (logEvent_frame s e).2.2.2.2.2.2.1

@[simp] theorem leaseOf_logEvent (s : State) (e : Ev) (k : Tenant) : leaseOf (logEvent s e) k = leaseOf s k := leaseOf_pair (logEvent_pair s e) k

theorem leaseOf_setLease_same (s : State) (n : Tenant) (f : LeaseInfo → LeaseInfo) : leaseOf (setLease s n f) n = f (leaseOf s n) := by
  rw [leaseOf_setLease, if_pos rfl]

theorem leaseOf_setLease_other (s : State) {n k : Tenant} (f : LeaseInfo → LeaseInfo) (h : k ≠ n) :
    leaseOf (setLease s n f) k = leaseOf s k := by
  rw [leaseOf_setLease, if_neg h]

/-- The word with which the module renews the lease of n. -/
def renewedWord (s : State) (n : Tenant) : LeaseWord :=
  { (leaseOf s n).word with tenant := n, pairId := s.pair.pairId, count := (leaseOf s n).word.count + 1 }

theorem swapLease_of_ok (s : State) (n : Tenant) (f : LeaseWord → LeaseWord) : swapLease s n true f =
    emit (setLease s n fun l => { l with word := f (renewedWord s n), changedAt := now s, renewedAt := now s }) (.leaseSwap (f (renewedWord s n))) :=
  rfl

theorem loseLease_of_mine (h : (leaseOf s n).mine = true) (c : Nat) : loseLease s n c =
    logEvent (setLease s n fun l => { l with mine := false, soloPending := false, handingOver := false })
      (.leaseLost n c (leaseOf s n).word.count) := by
  unfold loseLease
  rw [if_pos h]
  dsimp only
  rw [leaseOf_setLease_same]

theorem leaseOf_loseLease (h : (leaseOf s n).mine = true) (c : Nat) :
    leaseOf (loseLease s n c) n = { leaseOf s n with mine := false, soloPending := false, handingOver := false }
    ∧ ∀ k, k ≠ n → leaseOf (loseLease s n c) k = leaseOf s k := by
  rw [loseLease_of_mine h]
  refine ⟨?_, fun k hk => ?_⟩
  · rw [leaseOf_logEvent, leaseOf_setLease_same]
  · rw [leaseOf_logEvent, leaseOf_setLease_other _ _ hk]

theorem tryHold_of_none (h : (leaseOf s n).holdFrom = none) : tryHold s n = s := by
  unfold tryHold
  dsimp only
  rw [h]

/-- The line of a lease is read again. -/
theorem leaseLine_of_enabled (he : s.pair.enable = true) (hh : (leaseOf s n).holdFrom = none) (w : LeaseWord) : leaseLine s n w =
    setLease (emit s (.sharedRead 0 (s.pair.leaseBase + BitVec.ofNat 64 (8 * n.toNat)))) n fun l =>
      { l with word := w, changedAt := if l.word = w then l.changedAt else now s } := by
  unfold leaseLine
  rw [if_neg (by rw [he]; decide)]
  refine tryHold_of_none ?_
  rw [leaseOf_setLease_same]
  exact hh

theorem leaseRenew_of_early (h : (leaseOf s n).mine = false ∨ since (leaseOf s n).renewedAt (now s) < 500000) (ok : Bool) :
    leaseRenew s n ok = s := by
  unfold leaseRenew
  refine if_pos ?_
  rcases h with h | h
  · simp [h]
  · simp [h]

/-- The state in which PREFER and FAILBACK have taken effect (R472). -/
def preferTaken (s : State) : State := setPair s fun p => { p with preferUsed := p.prefer, failbackUsed := p.failback }

theorem leaseRenew_of_due (he : s.pair.enable = true) (hm : (leaseOf s n).mine = true) (h : 500000 ≤ since (leaseOf s n).renewedAt (now s))
    (ok : Bool) : leaseRenew s n ok = swapLease (preferTaken s) n ok fun w => w := by
  unfold leaseRenew
  exact if_neg (by simpa [he, hm] using h)

theorem leaseLapse_of_late (hm : (leaseOf s n).mine = true) (h : 1500000 ≤ since (leaseOf s n).renewedAt (now s)) :
    leaseLapse s n = loseLease s n 1 := if_pos (by simpa [hm] using h)

theorem leaseLapse_of_early (h : (leaseOf s n).mine = false ∨ since (leaseOf s n).renewedAt (now s) < 1500000) : leaseLapse s n = s := by
  refine if_neg ?_
  rcases h with h | h
  · simp [h]
  · simp [h]

/-! ## A lease taken -/

/-- The lease of n once the module has taken it (R378). -/
def takenLease (s : State) (n : Tenant) : LeaseInfo :=
  { leaseOf s n with
    word := { renewedWord s n with held := true, holder := s.pair.position }, changedAt := now s, renewedAt := now s, mine := true
    soloPending := (leaseOf s n).word.solo, holdFrom := none, handingOver := false }

/-- The state of a taken lease before its event. -/
def leaseTaken (s : State) (n : Tenant) : State :=
  setLease (emit (setLease s n fun l => { l with
      word := { renewedWord s n with held := true, holder := s.pair.position }, changedAt := now s, renewedAt := now s })
    (.leaseSwap { renewedWord s n with held := true, holder := s.pair.position })) n
    fun l => { l with mine := true, soloPending := (leaseOf s n).word.solo, holdFrom := none, handingOver := false }

theorem leaseOf_emit (s : State) (o : Output) (k : Tenant) : leaseOf (emit s o) k = leaseOf s k := rfl

theorem leaseOf_leaseTaken (s : State) (n : Tenant) : leaseOf (leaseTaken s n) n = takenLease s n := by
  unfold leaseTaken
  rw [leaseOf_setLease_same, leaseOf_emit, leaseOf_setLease_same]
  rfl

theorem leaseOf_leaseTaken_other (s : State) {n k : Tenant} (h : k ≠ n) : leaseOf (leaseTaken s n) k = leaseOf s k := by
  unfold leaseTaken
  rw [leaseOf_setLease_other _ _ h, leaseOf_emit, leaseOf_setLease_other _ _ h]

theorem takeLease_of_ok (s : State) (n : Tenant) (cause : Nat) : takeLease s n true cause =
    logEvent (leaseTaken s n) (.leaseAcquired n cause ((leaseOf s n).word.count + 1) (leaseOf s n).word.solo) := by
  have h : takeLease s n true cause =
      logEvent (leaseTaken s n) (.leaseAcquired n cause (leaseOf (leaseTaken s n) n).word.count (leaseOf s n).word.solo) := rfl
  rw [h, leaseOf_leaseTaken]
  rfl

/-- Taking a lease changes the leases alone of the pair's part. -/
theorem takeLease_pair (s : State) (n : Tenant) (ok : Bool) (cause : Nat) :
    ∃ l, (takeLease s n ok cause).pair = { s.pair with leases := l } := by
  cases ok with
  | false => exact ⟨s.pair.leases, rfl⟩
  | true =>
    rw [takeLease_of_ok, logEvent_pair]
    exact ⟨_, rfl⟩

theorem leaseOf_takeLease (s : State) (n : Tenant) (cause : Nat) : leaseOf (takeLease s n true cause) n = takenLease s n := by
  rw [takeLease_of_ok, leaseOf_logEvent, leaseOf_leaseTaken]

theorem leaseOf_takeLease_other (s : State) {n k : Tenant} (h : k ≠ n) (ok : Bool) (cause : Nat) :
    leaseOf (takeLease s n ok cause) k = leaseOf s k := by
  cases ok with
  | false => rfl
  | true => rw [takeLease_of_ok, leaseOf_logEvent, leaseOf_leaseTaken_other _ h]

/-- Turns of other tenants alone: none is run again. -/
theorem rerunTurns_of_none {which : Tenant → Bool} (h : ∀ x ∈ s.pair.turns, which x.tenant = false) (unmapped : List (BitVec 64)) :
    rerunTurns s unmapped which = s := by
  unfold rerunTurns
  rw [List.filter_eq_nil_iff.2 fun x hx => by rw [h x hx]; exact Bool.false_ne_true]
  rfl

/-! ## Expiry -/

section
variable (unmapped : List (BitVec 64))

theorem leaseExpiry_of_free (he : s.pair.enable = true) (hm : (leaseOf s n).mine = false) (hf : (leaseOf s n).word.held = false) (ok : Bool) :
    leaseExpiry s n ok unmapped =
      if prefers s n = s.pair.position then takeLease s n ok 0
      else if decide (2000000 ≤ since (leaseOf s n).changedAt (now s)) then takeLease s n ok 1 else s := by
  unfold leaseExpiry
  dsimp only
  rw [if_neg (by simp [he, hm]), if_pos (by rw [hf]; rfl)]

theorem leaseExpiry_of_partner (he : s.pair.enable = true) (hm : (leaseOf s n).mine = false) (hf : (leaseOf s n).word.held = true)
    (hh : (leaseOf s n).word.holder ≠ s.pair.position) (ho : 2000000 ≤ since (leaseOf s n).changedAt (now s))
    (ht : ∀ x ∈ s.pair.turns, x.tenant ≠ n) : leaseExpiry s n true unmapped = takeLease s n true 1 := by
  unfold leaseExpiry
  dsimp only
  rw [if_neg (by simp [he, hm]), if_neg (by rw [hf]; decide), if_pos (by simpa [ho] using hh), if_pos rfl]
  refine rerunTurns_of_none (fun x hx => decide_eq_false (ht x ?_)) unmapped
  obtain ⟨l, hl⟩ := takeLease_pair s n true 1
  rw [hl] at hx
  exact hx

theorem leaseExpiry_of_recent (hm : (leaseOf s n).mine = false) (hw : (leaseOf s n).word.held = true ∨ prefers s n ≠ s.pair.position)
    (h : since (leaseOf s n).changedAt (now s) < 2000000) (ok : Bool) : leaseExpiry s n ok unmapped = s := by
  have hold : decide (2000000 ≤ since (leaseOf s n).changedAt (now s)) = false := decide_eq_false (Nat.not_le.2 h)
  by_cases he : s.pair.enable = true
  · cases hf : (leaseOf s n).word.held with
    | false =>
      have hp := hw.resolve_left (by rw [hf]; exact Bool.false_ne_true)
      rw [leaseExpiry_of_free unmapped he hm hf, if_neg hp, hold]
      rfl
    | true =>
      unfold leaseExpiry
      dsimp only
      rw [if_neg (by simp [he, hm]), if_neg (by rw [hf]; decide), hold, Bool.and_false]
      rfl
  · exact if_pos (by simp [he])

end

/-! ## Hand-over -/

/-- The state of a lease handed to the partner, before its event. -/
theorem handoverStep_of_due {swaps : List Tenant} (hh : (leaseOf s n).handingOver = true) (hm : (leaseOf s n).mine = true) (hl : s.pair.link = .up)
    (hj : ∀ e ∈ s.pair.journal, e.hdr.tenant ≠ n) (hs : n ∈ swaps) : ∃ e,
    handoverStep swaps s n = logEvent (setLease (swapLease
      (sendMsg s { type := 0x61, tenant := n, ref := BitVec.ofNat 64 (leaseOf s n).lastJseq } .none) n true
        fun w => { w with held := true, holder := !s.pair.position }) n
        fun l => { l with mine := false, handingOver := false, soloPending := false }) e := by
  obtain ⟨p, out, m, hsend, hp⟩ := sendMsg_eq (s := s) (m := { type := 0x61, tenant := n, ref := BitVec.ofNat 64 (leaseOf s n).lastJseq })
    (.inl (by simp [linkLive, hl])) .none
  have hpos : (sendMsg s { type := 0x61, tenant := n, ref := BitVec.ofNat 64 (leaseOf s n).lastJseq } .none).pair.position = s.pair.position := by
    rw [hsend]
    exact (congrArg PairState.position hp :)
  unfold handoverStep
  have hgo : ¬ ((!(leaseOf s n).handingOver || !(leaseOf s n).mine || decide (s.pair.link ≠ .up) ||
      s.pair.journal.any fun e => decide (e.hdr.tenant = n)) = true) := by
    simpa [hh, hm, hl] using hj
  dsimp only
  rw [if_neg hgo, if_pos hs, hpos]
  exact ⟨_, rfl⟩

/-- A tenant handed over: what the other module reads, and what is sent. -/
theorem startHandover_gives {swaps : List Tenant} (hm : (leaseOf s n).mine = true) (hl : s.pair.link = .up)
    (hj : ∀ e ∈ s.pair.journal, e.hdr.tenant ≠ n) (hs : n ∈ swaps) :
    let t := startHandover swaps s n
    (leaseOf t n).mine = false ∧ (leaseOf t n).handingOver = false ∧ (∀ k, k ≠ n → leaseOf t k = leaseOf s k)
      ∧ (leaseOf t n).word = { renewedWord s n with held := true, holder := !s.pair.position }
      ∧ t.pair.sent = ({ type := 0x61, tenant := n, ref := BitVec.ofNat 64 (leaseOf s n).lastJseq }, .none) :: s.pair.sent := by
  let u := setLease s n fun l => { l with handingOver := true }
  have hu : leaseOf u n = { leaseOf s n with handingOver := true } := leaseOf_setLease_same ..
  have hother : ∀ k, k ≠ n → leaseOf u k = leaseOf s k := fun k hk => leaseOf_setLease_other _ _ hk
  have hstart : startHandover swaps s n = handoverStep swaps u n := if_pos (by simp [hm, hl])
  obtain ⟨e, he⟩ := handoverStep_of_due (s := u) (n := n) (swaps := swaps) (by rw [hu]) (by rw [hu]; exact hm) hl hj hs
  have hseq : (leaseOf u n).lastJseq = (leaseOf s n).lastJseq := by rw [hu]
  rw [hseq] at he
  obtain ⟨p, out, m, hsend, hp⟩ := sendMsg_eq (s := u) (m := { type := 0x61, tenant := n, ref := BitVec.ofNat 64 (leaseOf s n).lastJseq })
    (.inl (by show linkLive s = true; simp [linkLive, hl])) .none
  generalize hv : sendMsg u { type := 0x61, tenant := n, ref := BitVec.ofNat 64 (leaseOf s n).lastJseq } .none = v at he hsend
  have hvp : v.pair.outsideFrames = ({ u.pair with
      sent := ({ type := 0x61, tenant := n, ref := BitVec.ofNat 64 (leaseOf s n).lastJseq }, .none) :: u.pair.sent } : PairState).outsideFrames := by
    rw [hsend]
    exact hp
  have hvl : ∀ k, leaseOf v k = leaseOf u k := fun k => leaseOf_congr (congrArg PairState.leases hvp :) k
  have hword : renewedWord v n = renewedWord s n := by
    unfold renewedWord
    rw [hvl n, hu, show v.pair.pairId = s.pair.pairId from (congrArg PairState.pairId hvp :)]
  dsimp only
  rw [hstart, he, swapLease_of_ok, hword]
  refine ⟨?_, ?_, fun k hk => ?_, ?_, ?_⟩
  · rw [leaseOf_logEvent, leaseOf_setLease_same]
  · rw [leaseOf_logEvent, leaseOf_setLease_same]
  · rw [leaseOf_logEvent, leaseOf_setLease_other _ _ hk, leaseOf_emit, leaseOf_setLease_other _ _ hk, hvl k, hother k hk]
  · rw [leaseOf_logEvent, leaseOf_setLease_same, leaseOf_emit, leaseOf_setLease_same]
    rfl
  · rw [logEvent_pair]
    exact (congrArg PairState.sent hvp :)

theorem failback_of_due (hf : s.pair.failbackUsed = true) (hu : ∃ u, s.pair.upAt = some u ∧ 10000000 ≤ since u (now s))
    (hp : prefers s n ≠ s.pair.position) (hh : (leaseOf s n).handingOver = false) : failback s n true = startHandover [n] s n := by
  obtain ⟨u, hu, hd⟩ := hu
  unfold failback
  refine (if_pos ?_).trans rfl
  simpa [hf, hu, hd, hh] using hp

/-! ## Takeover -/

/-- A lease with which the module acts as holder. -/
def HeldHere (s : State) (k : Tenant) : Prop := (leaseOf s k).mine = true ∧ (leaseOf s k).word.holder = s.pair.position

theorem takeLease_position (s : State) (n : Tenant) (ok : Bool) (cause : Nat) : (takeLease s n ok cause).pair.position = s.pair.position := by
  obtain ⟨l, hl⟩ := takeLease_pair s n ok cause
  rw [hl]

theorem heldHere_takeLease {k : Tenant} (cause : Nat) (ok : Bool) (h : HeldHere s k ∨ (k = n ∧ ok = true)) :
    HeldHere (takeLease s n ok cause) k := by
  unfold HeldHere
  rw [takeLease_position]
  by_cases hk : k = n
  · subst hk
    cases ok with
    | false => exact h.resolve_right fun h => Bool.false_ne_true h.2
    | true =>
      rw [leaseOf_takeLease]
      exact ⟨rfl, rfl⟩
  · rw [leaseOf_takeLease_other _ hk]
    exact h.resolve_right fun h => hk h.1

/-- Taking leases in turn: those of the list whose compare-and-swap succeeds are held here. -/
theorem takeLeases_spec (swaps : List Tenant) (cause : Nat) (l : List Tenant) (s : State) :
    (∃ leases, (l.foldl (fun s n => takeLease s n (decide (n ∈ swaps)) cause) s).pair = { s.pair with leases := leases })
    ∧ ∀ k ∈ swaps, (HeldHere s k ∨ k ∈ l) → HeldHere (l.foldl (fun s n => takeLease s n (decide (n ∈ swaps)) cause) s) k := by
  induction l generalizing s with
  | nil => exact ⟨⟨s.pair.leases, rfl⟩, fun k _ h => h.resolve_right List.not_mem_nil⟩
  | cons n l ih =>
    obtain ⟨a, ha⟩ := takeLease_pair s n (decide (n ∈ swaps)) cause
    obtain ⟨⟨b, hb⟩, hheld⟩ := ih (takeLease s n (decide (n ∈ swaps)) cause)
    refine ⟨⟨b, ?_⟩, fun k hk h => hheld k hk ?_⟩
    · rw [List.foldl_cons, hb, ha]
    · rcases h with h | h
      · exact .inl (heldHere_takeLease cause _ (.inl h))
      · rcases List.mem_cons.1 h with rfl | h
        · exact .inl (heldHere_takeLease cause _ (.inr ⟨rfl, decide_eq_true hk⟩))
        · exact .inr h

theorem mem_of_mfind_some {β : Type} {m : Map β} {k : Nat} {v : β} (h : mfind m k = some v) : ∃ e ∈ m, e.1 = k := by
  induction m with
  | nil => cases h
  | cons e m ih =>
    obtain ⟨j, w⟩ := e
    by_cases hj : j = k
    · exact ⟨_, List.mem_cons_self, hj⟩
    · rw [mfind, if_neg hj] at h
      obtain ⟨e, he, hk⟩ := ih h
      exact ⟨e, List.mem_cons_of_mem _ he, hk⟩

/-- A tenant whose word is held is one of those with a lease. -/
theorem mem_leaseTenants (h : (leaseOf s n).word.held = true) : n ∈ leaseTenants s := by
  unfold leaseOf mget at h
  cases hm : mfind s.pair.leases n.toNat with
  | none =>
    rw [hm] at h
    cases h
  | some l =>
    obtain ⟨e, he, hk⟩ := mem_of_mfind_some hm
    refine List.mem_map.2 ⟨e, he, ?_⟩
    rw [hk]
    exact BitVec.eq_of_toNat_eq (by rw [BitVec.toNat_ofNat]; exact Nat.mod_eq_of_lt n.isLt)

/-- Without turns to run again a takeover takes the partner's words. -/
theorem takeOver_holds (ht : s.pair.turns = []) (cause : Nat) (swaps : List Tenant) (unmapped : List (BitVec 64)) :
    (takeOver s cause swaps unmapped).pair.link = s.pair.link
    ∧ (takeOver s cause swaps unmapped).pair.position = s.pair.position
    ∧ ∀ k ∈ swaps, (leaseOf s k).word.held = true → (leaseOf s k).word.holder ≠ s.pair.position → (leaseOf s k).mine = false →
        HeldHere (takeOver s cause swaps unmapped) k := by
  let theirs := (leaseTenants s).filter fun n =>
    (leaseOf s n).word.held && decide ((leaseOf s n).word.holder ≠ s.pair.position) && !(leaseOf s n).mine
  let t := theirs.foldl (fun s n => takeLease s n (decide (n ∈ swaps)) cause) s
  obtain ⟨⟨leases, hl⟩, hheld⟩ := takeLeases_spec swaps cause theirs s
  have hl' : t.pair = { s.pair with leases := leases } := hl
  have htake : takeOver s cause swaps unmapped = t := by
    refine rerunTurns_of_none (s := t) (which := fun x => (leaseOf t x).mine) (fun x hx => ?_) unmapped
    rw [hl', show ({ s.pair with leases := leases } : PairState).turns = [] from ht] at hx
    exact absurd hx List.not_mem_nil
  rw [htake]
  refine ⟨by rw [hl'], by rw [hl'], fun k hk h1 h2 h3 => hheld k hk (.inr (List.mem_filter.2 ⟨mem_leaseTenants h1, ?_⟩))⟩
  simp [h1, h2, h3]

/-- A link that falls calmly keeps the leases and the turns. -/
theorem enterDown_keeps (hc : s.pair.calm) (c : SplitCause) (swaps : List Tenant) :
    (enterDown s c swaps).pair.link = .down ∧ (enterDown s c swaps).pair.leases = s.pair.leases
    ∧ (enterDown s c swaps).pair.turns = s.pair.turns ∧ (enterDown s c swaps).pair.position = s.pair.position := by
  by_cases hl : s.pair.link = .down
  · have h : enterDown s c swaps = s := if_pos hl
    rw [h]
    exact ⟨hl, rfl, rfl, rfl⟩
  · rw [enterDown_of_calm hl hc]
    have hp := downRetracted_pair s c
    exact ⟨(congrArg PairState.link hp :), (congrArg PairState.leases hp :), (congrArg PairState.turns hp :), (congrArg PairState.position hp :)⟩

theorem pairTakeover_holds (hc : s.pair.calm) (ht : s.pair.turns = []) (swaps : List Tenant) (unmapped : List (BitVec 64)) :
    (pairTakeover s swaps unmapped).pair.link = .down
    ∧ ∀ k ∈ swaps, (leaseOf s k).word.held = true → (leaseOf s k).word.holder ≠ s.pair.position → (leaseOf s k).mine = false →
        (leaseOf (pairTakeover s swaps unmapped) k).mine = true
        ∧ (leaseOf (pairTakeover s swaps unmapped) k).word.holder = s.pair.position := by
  obtain ⟨hlink, hleases, hturns, hpos⟩ := enterDown_keeps hc .takeover swaps
  obtain ⟨h1, h2, h3⟩ := takeOver_holds (hturns.trans ht) 2 swaps unmapped
  refine ⟨h1.trans hlink, fun k hk hheld hholder hmine => ?_⟩
  have hk' := leaseOf_congr hleases k
  obtain ⟨hm, hp⟩ := h3 k hk (by rw [hk']; exact hheld) (by rw [hk', hpos]; exact hholder) (by rw [hk']; exact hmine)
  exact ⟨hm, hp.trans (h2.trans hpos)⟩

/-! ## SOLO -/

theorem soloClear_of_pending (h : (leaseOf s n).soloPending = true) (hw : s.pair.waitMut = []) : ∃ e,
    soloClear s n = setPair (logEvent (setLease s n fun l => { l with soloPending := false, cleared := true }) e)
      fun p => { p with waitMut := [] } := by
  unfold soloClear
  rw [if_neg (by rw [h]; decide)]
  dsimp only
  unfold retryWaiting
  rw [logEvent_pair]
  rw [show (setLease s n fun l => { l with soloPending := false, cleared := true }).pair.waitMut = [] from hw]
  exact ⟨_, rfl⟩

end

/-- Settles O45: each command on a lease, with what the word then says and what is logged and sent. -/
theorem leasesAreRenewedTakenAndHandedOver : Obligations.LeasesAreRenewedTakenAndHandedOver := by
  unfold Obligations.LeasesAreRenewedTakenAndHandedOver
  intro s n w ok swaps mask unmapped
  dsimp only
  have taken (cause : Nat) (h : leaseExpiry s n true unmapped = takeLease s n true cause) :
      ∃ t, exec (.leaseExpiryTake n true unmapped) s = .next t ∧ (leaseOf t n).mine = true ∧ (leaseOf t n).soloPending = (leaseOf s n).word.solo
        ∧ (leaseOf t n).renewedAt = now s
        ∧ (leaseOf t n).word = { renewedWord s n with held := true, holder := s.pair.position } ∧ (∀ k, k ≠ n → leaseOf t k = leaseOf s k)
        ∧ ∃ u, t = logEvent u (.leaseAcquired n cause ((leaseOf s n).word.count + 1) (leaseOf s n).word.solo) := by
    have hn := leaseOf_takeLease s n cause
    exact ⟨_, congrArg Host.Outcome.next h, by rw [hn]; rfl, by rw [hn]; rfl, by rw [hn]; rfl, by rw [hn]; rfl,
      fun k hk => leaseOf_takeLease_other s hk true cause, _, takeLease_of_ok s n cause⟩
  refine ⟨fun he => ⟨?_, ?_, ?_⟩, fun he hh => ?_, fun h => ?_, fun he hm h => ⟨?_, ?_⟩, fun he hm hf hp => ?_, fun he hm hf hp ho => ?_,
    fun he hm hf hh ho ht => ?_, fun hm hw h => ?_, fun hm h => ?_, fun h => ?_, fun hf hu hp hh hm hl hj => ?_, fun hr he hc ht _ => ?_,
    fun hr hl => ?_, fun hr hl hm hj => ?_, fun hr hs hw => ?_, fun hr hs => ?_⟩
  · exact congrArg Host.Outcome.next (if_pos (by rw [he]; rfl) : leaseLine s n w = s)
  · exact congrArg Host.Outcome.next (if_pos (by simp [he]) : leaseRenew s n ok = s)
  · exact congrArg Host.Outcome.next (if_pos (by simp [he]) : leaseExpiry s n ok unmapped = s)
  · exact ⟨_, congrArg Host.Outcome.next (leaseLine_of_enabled he hh w), leaseOf_setLease_same .., fun k hk => leaseOf_setLease_other _ _ hk, rfl⟩
  · exact congrArg Host.Outcome.next (leaseRenew_of_early h ok)
  · refine ⟨_, congrArg Host.Outcome.next ((leaseRenew_of_due he hm h true).trans (swapLease_of_ok ..)), ?_, fun k hk => ?_, rfl, rfl, rfl⟩
    · exact (leaseOf_setLease_same (preferTaken s) n _ :)
    · exact (leaseOf_setLease_other (preferTaken s) _ hk :)
  · have hm' : (leaseOf (preferTaken s) n).mine = true := hm
    obtain ⟨h1, h2⟩ := leaseOf_loseLease hm' 0
    exact ⟨_, congrArg Host.Outcome.next (leaseRenew_of_due he hm h false), h1, h2, _, loseLease_of_mine hm' 0⟩
  · exact taken 0 ((leaseExpiry_of_free unmapped he hm hf true).trans (if_pos hp))
  · exact taken 1 ((leaseExpiry_of_free unmapped he hm hf true).trans ((if_neg hp).trans (if_pos (decide_eq_true ho))))
  · exact taken 1 (leaseExpiry_of_partner unmapped he hm hf hh ho ht)
  · exact congrArg Host.Outcome.next (leaseExpiry_of_recent unmapped hm hw h ok)
  · obtain ⟨h1, h2⟩ := leaseOf_loseLease hm 1
    exact ⟨_, congrArg Host.Outcome.next (leaseLapse_of_late hm h), h2, h1, _, loseLease_of_mine hm 1⟩
  · exact congrArg Host.Outcome.next (leaseLapse_of_early h)
  · exact ⟨_, congrArg Host.Outcome.next (failback_of_due hf hu hp hh), startHandover_gives hm hl hj List.mem_cons_self⟩
  · obtain ⟨h1, h2⟩ := pairTakeover_holds hc ht swaps unmapped
    have hcmd := command_of_running (m := false) hr fun s => if s.pair.enable then (pairTakeover s swaps unmapped, .ok, []) else (s, .noResources, [])
    simp only [he, if_true] at hcmd
    have hpair := reply_pair (pairTakeover s swaps unmapped) false (BitVec.ofNat 8 Status.ok.code) [] none
    refine ⟨_, congrArg Host.Outcome.next hcmd, ?_, reply_mbStatus .., reply_mbExec .., fun k hk hheld hholder hmine => ?_⟩
    · rw [hpair]
      exact h1
    · rw [leaseOf_pair hpair]
      exact h2 k hk hheld hholder hmine
  · have hreply : mailboxHandover s mask swaps = reply s false (BitVec.ofNat 8 Status.noResources.code) [] none := by
      unfold mailboxHandover
      rw [if_pos (by simp [hl])]
      simp only [hr, Bool.false_eq_true, if_false]
    exact ⟨_, congrArg Host.Outcome.next hreply, reply_pair .., reply_mbExec .., reply_mbStatus ..⟩
  · have hgiven := startHandover_gives hm hl hj (List.mem_cons_self (l := []))
    obtain ⟨g1, g2, g3, g4, g5⟩ := hgiven
    have hreply : mailboxHandover s [n] [n] = reply (startHandover [n] s n) false (BitVec.ofNat 8 Status.ok.code) [] none := by
      unfold mailboxHandover
      rw [if_neg (by simp [hr, hl])]
      dsimp only [List.foldl_cons, List.foldl_nil]
      exact if_neg (by simp [g2])
    have hpair := reply_pair (startHandover [n] s n) false (BitVec.ofNat 8 Status.ok.code) [] none
    refine ⟨_, congrArg Host.Outcome.next hreply, ⟨?_, ?_, fun k hk => ?_, ?_, ?_⟩, reply_mbExec .., reply_mbStatus ..⟩
    · rw [leaseOf_pair hpair]
      exact g1
    · rw [leaseOf_pair hpair]
      exact g2
    · rw [leaseOf_pair hpair]
      exact g3 k hk
    · rw [leaseOf_pair hpair]
      exact g4
    · rw [hpair]
      exact g5
  · obtain ⟨e, hclear⟩ := soloClear_of_pending hs hw
    have hcmd := command_of_running (m := false) hr fun s => if (leaseOf s n).soloPending then (soloClear s n, .ok, []) else (s, .noResources, [])
    simp only [hs, if_true, hclear] at hcmd
    refine ⟨_, congrArg Host.Outcome.next hcmd, ?_, fun k hk => ?_, reply_mbExec .., reply_mbStatus ..⟩
    · rw [leaseOf_pair (reply_pair ..)]
      exact (leaseOf_logEvent _ e n).trans (leaseOf_setLease_same ..)
    · rw [leaseOf_pair (reply_pair ..)]
      exact (leaseOf_logEvent _ e k).trans (leaseOf_setLease_other _ _ hk)
  · have hcmd := command_of_running (m := false) hr fun s => if (leaseOf s n).soloPending then (soloClear s n, .ok, []) else (s, .noResources, [])
    simp only [hs, Bool.false_eq_true, if_false] at hcmd
    exact ⟨_, congrArg Host.Outcome.next hcmd, reply_pair .., reply_mbStatus ..⟩

end Sys2Proof.Machine

/-! Descriptors: acceptance in order, and a request's end (R292 to R294); TOKENIZE and DETOKENIZE (R242, R245 to R248, R300). -/

namespace Sys2Proof.Machine

/-! ## Acceptance -/

section
variable {s : State} {fn : Tenant} {q : BitVec 3} {op : Opcode} {form : Descriptor → Bool} {v : HostView} {f : Fetched} {rest : List Fetched}
  (go : State → Nat → Request → Fetched → State)

theorem checked_of_passes {l : List (Option Reject)} (h : passes l) (s : State) (k : Nat) (run : State → State) : checked s k l run = run s := by
  unfold checked
  rw [h]

theorem checked_of_fails {l : List (Option Reject)} {x : Reject} (h : l.findSome? id = some x) (s : State) (k : Nat) (run : State → State) :
    checked s k l run = applyReject s k x := by
  unfold checked
  rw [h]

theorem acceptFront_of_none (h : (qpOf s fn q).fetched = []) : acceptFront s fn q op form v go = s := by
  unfold acceptFront
  rw [h]

theorem acceptFront_of_other (h : (qpOf s fn q).fetched = f :: rest) (ho : Opcode.ofByte f.desc.opcode.toNat ≠ some op) :
    acceptFront s fn q op form v go = s := by
  unfold acceptFront
  rw [h]
  exact if_pos (by simp [ho])

/-- The first descriptor fetched becomes a request, and its checks are judged in order. -/
theorem acceptFront_eq (h : (qpOf s fn q).fetched = f :: rest) (ho : Opcode.ofByte f.desc.opcode.toNat = some op) (hf : form f.desc = true) :
    acceptFront s fn q op form v go = checked (accepted s fn q op f rest v) f.handle (firstChecks s fn op f v)
      fun s' => go s' f.handle (newRequest s fn q op f.desc (paramBytes s f.desc v)) f := by
  unfold acceptFront
  rw [h]
  exact if_neg (by simp [ho, hf])

theorem acceptFront_of_reject {x : Reject} (h : (qpOf s fn q).fetched = f :: rest) (ho : Opcode.ofByte f.desc.opcode.toNat = some op)
    (hf : form f.desc = true) (hx : (firstChecks s fn op f v).findSome? id = some x) :
    acceptFront s fn q op form v go = applyReject (accepted s fn q op f rest v) f.handle x := by
  rw [acceptFront_eq go h ho hf, checked_of_fails hx]

theorem acceptFront_of_ok (h : frontOk s fn q op f rest v) (hf : form f.desc = true) :
    acceptFront s fn q op form v go = go (accepted s fn q op f rest v) f.handle (newRequest s fn q op f.desc (paramBytes s f.desc v)) f := by
  obtain ⟨hq, ho, hp⟩ := h
  rw [acceptFront_eq go hq ho hf, checked_of_passes hp]

end

/-! ## Posts -/

section
variable {s : State} {fn : Tenant} {q : BitVec 3}

/-- The state in which a completion has joined those that wait. -/
def posted (s : State) (fn : Tenant) (q : BitVec 3) (c : Completion) : State := setQp s fn q fun p => { p with waiting := p.waiting ++ [c] }

theorem enqueue_of_room (c : Completion) (l : List Completion) : enqueue false c l = l ++ [c] := by
  induction l with
  | nil => rfl
  | cons a l ih => rw [enqueue, ih]; rfl

theorem mutes_of_none (h : ∀ x ∈ s.host.requests, x.2.mute = false) (fn : Tenant) (c : Completion) : mutes s fn c = false := by
  unfold mutes
  split
  · rfl
  · exact List.any_eq_false.2 fun x hx => by rw [h x hx]; exact Bool.false_ne_true

theorem setQp_congr {f g : QueuePair → QueuePair} (h : f (qpOf s fn q) = g (qpOf s fn q)) : setQp s fn q f = setQp s fn q g := by
  unfold setQp mmod
  rw [show f (mget {} s.host.qps (qpKey fn q)) = g (mget {} s.host.qps (qpKey fn q)) from h]

theorem tryPost_of_canPost (h : canPost s fn q) (c : Completion) : tryPost s fn q c = (posted s fn q c, true) := by
  obtain ⟨he, hroom, hm⟩ := h
  unfold tryPost
  rw [if_pos (by rw [mutes_of_none hm, pairPosts, decide_eq_true he]; rfl)]
  refine congrArg (·, true) (setQp_congr ?_)
  rw [decide_eq_false (Nat.not_le.2 hroom), enqueue_of_room]

theorem post_of_canPost (h : canPost s fn q) (c : Completion) : post s fn q c = posted s fn q c := by
  unfold post
  rw [tryPost_of_canPost h]

@[simp] theorem reqOf_posted (c : Completion) (k : Nat) : reqOf (posted s fn q c) k = reqOf s k := rfl

theorem qpOf_posted (c : Completion) : qpOf (posted s fn q c) fn q = { qpOf s fn q with waiting := (qpOf s fn q).waiting ++ [c] } :=
  qpOf_setQp_same ..

theorem waiting_posted (c : Completion) : (qpOf (posted s fn q c) fn q).waiting = (qpOf s fn q).waiting ++ [c] := by
  rw [qpOf_posted]

/-- A post stays possible while the pair's state and ring do, and no request is muted. -/
theorem canPost_of_pair {t : State} (h : canPost s fn q) (he : (qpOf t fn q).state = (qpOf s fn q).state)
    (hu : cqUsed (qpOf t fn q) = cqUsed (qpOf s fn q)) (hz : cqSize (qpOf t fn q) = cqSize (qpOf s fn q))
    (hr : ∀ x ∈ t.host.requests, x.2.mute = false) : canPost t fn q := by
  obtain ⟨hs, hroom, -⟩ := h
  exact ⟨he.trans hs, by rw [hu, hz]; exact hroom, hr⟩

theorem mute_of_reqOf {h : Nat} {r : Request} (hm : ∀ x ∈ s.host.requests, x.2.mute = false) (hr : reqOf s h = some r) : r.mute = false :=
  hm _ (mem_of_mfind hr)

/-- An unmuted request takes its place among the others. -/
theorem canPost_setReq {h : Nat} {r : Request} (hc : canPost s fn q) (hr : r.mute = false) : canPost (setReq s h r) fn q := by
  refine canPost_of_pair hc rfl rfl rfl fun x hx => ?_
  rcases mem_mins hx with rfl | hx
  · exact hr
  · exact hc.2.2 x hx

end

/-! ## The end of a request -/

section
variable {s : State} {h : Nat} {r : Request}

/-- The state in which request h is ending and its completion waits. -/
def ended (s : State) (h : Nat) (r : Request) (c : Completion) : State := posted (setReq s h { r with phase := .ending }) r.fn r.qp c

theorem finish_of_open (hr : reqOf s h = some r) (hp : r.phase ≠ .ending) (hm : r.remote = false) (hc : canPost s r.fn r.qp) (st : Status)
    (b : CompBody) (pl : List (BitVec 64 × Bytes)) : finish s h st b pl =
      ended s h r { tag := r.tag, body := b, flags := r.flags, status := st, payload := pl, closes := some h } := by
  unfold finish
  rw [hr]
  dsimp only
  rw [if_neg hp, if_neg (by rw [hm]; exact Bool.false_ne_true)]
  have hmute : r.mute = false := mute_of_reqOf hc.2.2 hr
  exact post_of_canPost (canPost_setReq (r := { r with phase := .ending }) hc hmute) _

theorem finishPlain_of_open (hr : reqOf s h = some r) (hp : r.phase ≠ .ending) (hm : r.remote = false) (hc : canPost s r.fn r.qp) (st : Status)
    (aux : BitVec 32) : finishPlain s h st aux =
      ended s h r { tag := r.tag, body := finalBody r 0 0 .none 0 aux, flags := r.flags, status := st, closes := some h } := by
  unfold finishPlain
  rw [hr]
  exact finish_of_open hr hp hm hc ..

theorem applyReject_of_open {x : Reject} (hr : reqOf s h = some r) (hp : r.phase ≠ .ending) (hm : r.remote = false) (hx : x.deny = none)
    (hc : canPost s r.fn r.qp) : applyReject s h x =
      ended s h r { tag := r.tag, body := finalBody r 0 0 .none 0 (w32 x.aux), flags := r.flags, status := x.st, closes := some h } := by
  unfold applyReject
  rw [hr]
  dsimp only
  rw [hx]
  exact finishPlain_of_open hr hp hm hc ..

theorem reqOf_ended_same (s : State) (h : Nat) (r : Request) (c : Completion) : reqOf (ended s h r c) h = some { r with phase := .ending } :=
  (reqOf_setReq ..).trans (if_pos rfl)

theorem reqOf_ended_other (s : State) (r : Request) (c : Completion) {h k : Nat} (hk : k ≠ h) : reqOf (ended s h r c) k = reqOf s k :=
  (reqOf_setReq ..).trans (if_neg hk)

theorem waiting_ended (s : State) (h : Nat) (r : Request) (c : Completion) :
    (qpOf (ended s h r c) r.fn r.qp).waiting = (qpOf s r.fn r.qp).waiting ++ [c] := waiting_posted c

theorem fetched_ended (s : State) (h : Nat) (r : Request) (c : Completion) :
    (qpOf (ended s h r c) r.fn r.qp).fetched = (qpOf s r.fn r.qp).fetched :=
  (congrArg QueuePair.fetched (qpOf_posted (s := setReq s h { r with phase := .ending }) (fn := r.fn) (q := r.qp) c) :)

end

/-! ## The accepted descriptor -/

section
variable {s : State} {fn : Tenant} {q : BitVec 3} {op : Opcode} {f : Fetched} {rest : List Fetched} {v : HostView}

theorem accepted_host (s : State) (fn : Tenant) (q : BitVec 3) (op : Opcode) (f : Fetched) (rest : List Fetched) (v : HostView) :
    ∃ h, accepted s fn q op f rest v = { s with host := h } := ⟨_, rfl⟩

theorem reqOf_accepted_same : reqOf (accepted s fn q op f rest v) f.handle = some (newRequest s fn q op f.desc (paramBytes s f.desc v)) :=
  (reqOf_setReq ..).trans (if_pos rfl)

theorem reqOf_accepted_other {k : Nat} (h : k ≠ f.handle) : reqOf (accepted s fn q op f rest v) k = reqOf s k :=
  (reqOf_setReq ..).trans (if_neg h)

theorem qpOf_accepted : qpOf (accepted s fn q op f rest v) fn q = { qpOf s fn q with fetched := rest } :=
  (qpOf_setQp_same s fn q fun x => { x with fetched := rest } :)

theorem newRequest_phase (s : State) (fn : Tenant) (q : BitVec 3) (op : Opcode) (d : Descriptor) (p : Bytes) :
    (newRequest s fn q op d p).phase ≠ .ending := by
  intro h
  cases h

theorem waiting_accepted : (qpOf (accepted s fn q op f rest v) fn q).waiting = (qpOf s fn q).waiting := by rw [qpOf_accepted]

theorem canPost_accepted (h : canPost s fn q) : canPost (accepted s fn q op f rest v) fn q := by
  refine canPost_setReq (canPost_of_pair h ?_ ?_ ?_ h.2.2) rfl
  · rw [qpOf_setQp_same]
  · rw [qpOf_setQp_same]; rfl
  · rw [qpOf_setQp_same]; rfl

end

/-- Settles O34: the descriptor that comes first is judged, in the order of its checks, and its request ends or goes on. -/
theorem descriptorsAreJudgedInOrder : Obligations.DescriptorsAreJudgedInOrder := by
  unfold Obligations.DescriptorsAreJudgedInOrder
  intro s fn q v f rest
  refine ⟨fun c op hc => ?_, fun hok hpass => ⟨?_, fun hpost => ?_⟩, fun h r x hr hp hm hx hpost => ?_⟩
  · obtain ⟨go, hgo⟩ : ∃ go, exec c s = .next (acceptFront s fn q op anyForm v go) := by
      simp only [List.mem_cons, List.not_mem_nil, or_false, Prod.mk.injEq] at hc
      rcases hc with ⟨rfl, rfl⟩ | ⟨rfl, rfl⟩ | ⟨rfl, rfl⟩ | ⟨rfl, rfl⟩ | ⟨rfl, rfl⟩ | ⟨rfl, rfl⟩ | ⟨rfl, rfl⟩ | ⟨rfl, rfl⟩ | ⟨rfl, rfl⟩
        | ⟨rfl, rfl⟩ | ⟨rfl, rfl⟩ | ⟨rfl, rfl⟩ | ⟨rfl, rfl⟩ | ⟨rfl, rfl⟩ | ⟨rfl, rfl⟩ | ⟨rfl, rfl⟩ <;> exact ⟨_, rfl⟩
    rw [hgo]
    refine ⟨fun h => ?_, fun h ho => ?_, fun x h ho hx => ?_⟩
    · rw [acceptFront_of_none go h]
    · rw [acceptFront_of_other go h ho]
    · rw [acceptFront_of_reject go h ho rfl hx]
  · exact congrArg Host.Outcome.next ((acceptFront_of_ok _ hok rfl).trans (checked_of_passes hpass _ _ _))
  · have hend : finishPlain (accepted s fn q .nop f rest v) f.handle .ok 0 = _ :=
      finishPlain_of_open reqOf_accepted_same (newRequest_phase s fn q .nop f.desc (paramBytes s f.desc v)) rfl (canPost_accepted hpost) .ok 0
    refine ⟨_, congrArg Host.Outcome.next ((acceptFront_of_ok _ hok rfl).trans ((checked_of_passes hpass _ _ _).trans hend)), ?_, ?_, ?_,
      fun k hk => ?_, rfl, rfl, rfl⟩
    · exact (waiting_ended ..).trans (congrArg (· ++ _) waiting_accepted)
    · exact (fetched_ended ..).trans (congrArg QueuePair.fetched qpOf_accepted)
    · rw [reqOf_ended_same]
      rfl
    · rw [reqOf_ended_other _ _ _ hk, reqOf_accepted_other hk]
  · rw [applyReject_of_open hr hp hm hx hpost]
    exact ⟨reqOf_ended_same .., waiting_ended .., fun k hk => reqOf_ended_other _ _ _ hk, rfl, rfl⟩

end Sys2Proof.Machine

/-! TOKENIZE and DETOKENIZE (R242, R245 to R248, R300): what the tokenizer reads, and the answer in place. -/

namespace Sys2Proof.Machine

/-! ## What the tokenizer reads of the state -/

/-- Two states show the tokenizer the same: the device range, and where the sets lie. -/
structure SameTables (s t : State) : Prop where
  tile : ∀ n, devTile t n = devTile s n
  sets : t.text.sets = s.text.sets

section
variable {s t : State} (h : SameTables s t)
include h

theorem SameTables.setOf_eq (k : BitVec 2) : setOf t k = setOf s k := by simp only [setOf, h.sets]

theorem SameTables.devBytes_eq (a n : Nat) : devBytes t a n = devBytes s a n := by simp only [devBytes, h.tile]

theorem SameTables.devSpan_eq (k a n : Nat) : devSpan t k a n = devSpan s k a n := by
  induction k generalizing a n with
  | zero => rfl
  | succ k ih =>
    unfold devSpan
    simp only [h.devBytes_eq, ih]

theorem SameTables.devRead_eq (a n : Nat) : devRead t a n = devRead s a n := h.devSpan_eq ..

theorem SameTables.imgNum_eq (k : BitVec 2) : imgNum t k = imgNum s k := by
  funext off n
  simp only [imgNum, devNum, h.setOf_eq, h.devRead_eq]

theorem SameTables.vocabEntry_eq (k : BitVec 2) : vocabEntry t k = vocabEntry s k := by
  unfold vocabEntry
  rw [h.imgNum_eq]

theorem SameTables.isSpecial_eq (k : BitVec 2) : isSpecial t k = isSpecial s k := by
  unfold isSpecial
  rw [h.vocabEntry_eq]

theorem SameTables.tokenString_eq (k : BitVec 2) : tokenString t k = tokenString s k := by
  funext i
  simp only [tokenString, h.vocabEntry_eq, h.imgNum_eq, h.setOf_eq, h.devRead_eq]

theorem SameTables.byteToken_eq (k : BitVec 2) : byteToken t k = byteToken s k := by
  unfold byteToken
  rw [h.imgNum_eq]

theorem SameTables.setSlots_eq (k : BitVec 2) : setSlots t k = setSlots s k := by
  unfold setSlots
  rw [h.imgNum_eq]

/-! ### Normalisation -/

theorem SameTables.normMap_eq (k : BitVec 2) : normMap t k = normMap s k := by
  unfold normMap
  rw [h.imgNum_eq]

theorem SameTables.ccc_eq (k : BitVec 2) : ccc t k = ccc s k := by
  unfold ccc
  rw [h.normMap_eq]

theorem SameTables.decompose_eq (k : BitVec 2) : decompose t k = decompose s k := by
  unfold decompose
  rw [h.normMap_eq, h.imgNum_eq]

theorem SameTables.streamSafe_eq (k : BitVec 2) : streamSafe t k = streamSafe s k := by
  funext run l
  induction l generalizing run with
  | nil => rfl
  | cons c l ih =>
    unfold streamSafe
    rw [h.ccc_eq]
    simp only [ih]

theorem SameTables.orderInsert_eq (k : BitVec 2) : orderInsert t k = orderInsert s k := by
  funext c l
  induction l with
  | nil => rfl
  | cons d l ih =>
    unfold orderInsert
    rw [h.ccc_eq, ih]

theorem SameTables.canonOrder_eq (k : BitVec 2) : canonOrder t k = canonOrder s k := by
  funext run l
  induction l generalizing run with
  | nil => rfl
  | cons c l ih =>
    unfold canonOrder
    rw [h.ccc_eq, h.orderInsert_eq, ih, ih]

theorem SameTables.composite_eq (k : BitVec 2) : composite t k = composite s k := by
  unfold composite
  rw [h.imgNum_eq]

theorem SameTables.compose_eq (k : BitVec 2) : compose t k = compose s k := by
  funext st after l
  induction l generalizing st after with
  | nil => cases st <;> rfl
  | cons c l ih =>
    cases st with
    | none =>
      unfold compose
      rw [h.ccc_eq, ih, ih]
    | some a =>
      unfold compose
      rw [h.ccc_eq, h.composite_eq]
      simp only [ih]

theorem SameTables.normalise_eq (k : BitVec 2) : normalise t k = normalise s k := by
  unfold normalise setNorm
  rw [h.imgNum_eq, h.decompose_eq, h.streamSafe_eq, h.canonOrder_eq, h.compose_eq]

/-! ### Pieces and merges -/

theorem SameTables.pieceClass_eq (k : BitVec 2) : pieceClass t k = pieceClass s k := by
  unfold pieceClass
  rw [h.imgNum_eq]

theorem SameTables.boundaryBit_eq (k : BitVec 2) : boundaryBit t k = boundaryBit s k := by
  unfold boundaryBit
  rw [h.imgNum_eq]

theorem SameTables.setMaxPiece_eq (k : BitVec 2) : setMaxPiece t k = setMaxPiece s k := by
  unfold setMaxPiece
  rw [h.imgNum_eq]

theorem SameTables.pieces_eq (k : BitVec 2) : pieces t k = pieces s k := by
  funext cur n l
  induction l generalizing cur n with
  | nil => rfl
  | cons c l ih =>
    unfold pieces
    rw [h.boundaryBit_eq, h.pieceClass_eq, h.setMaxPiece_eq]
    simp only [ih]

theorem SameTables.mergeSlot_eq (k : BitVec 2) : mergeSlot t k = mergeSlot s k := by
  unfold mergeSlot
  rw [h.imgNum_eq]

theorem SameTables.mergeProbe_eq (k : BitVec 2) : mergeProbe t k = mergeProbe s k := by
  funext l r n i
  induction n generalizing i with
  | zero => rfl
  | succ n ih =>
    unfold mergeProbe
    rw [h.mergeSlot_eq, h.setSlots_eq, ih]

theorem SameTables.mergeOfPair_eq (k : BitVec 2) : mergeOfPair t k = mergeOfPair s k := by
  unfold mergeOfPair
  rw [h.setSlots_eq, h.mergeProbe_eq]

theorem SameTables.bestMerge_eq (k : BitVec 2) : bestMerge t k = bestMerge s k := by
  funext i l
  induction l generalizing i with
  | nil => rfl
  | cons a l ih =>
    cases l with
    | nil => rfl
    | cons b l =>
      unfold bestMerge
      rw [h.mergeOfPair_eq, ih]

theorem SameTables.bpeLoop_eq (k : BitVec 2) : bpeLoop t k = bpeLoop s k := by
  funext n l
  induction n generalizing l with
  | zero => rfl
  | succ n ih =>
    unfold bpeLoop
    rw [h.bestMerge_eq]
    simp only [ih]

theorem SameTables.bpe_eq (k : BitVec 2) : bpe t k = bpe s k := by
  unfold bpe
  rw [h.byteToken_eq, h.bpeLoop_eq]

theorem SameTables.rawTokens_eq (k : BitVec 2) : rawTokens t k = rawTokens s k := by
  funext cur us
  induction us generalizing cur with
  | nil => simp only [rawTokens, h.pieces_eq, h.bpe_eq]
  | cons u us ih => cases u <;> simp only [rawTokens, h.pieces_eq, h.bpe_eq, h.byteToken_eq, ih]

/-- The tokens of a text depend on the tables alone. -/
theorem SameTables.tokenize_eq (k : BitVec 2) (raw : Bool) (b : Bytes) : tokenize t k raw b = tokenize s k raw b := by
  unfold tokenize
  rw [h.rawTokens_eq, h.normalise_eq, h.pieces_eq, h.bpe_eq]

theorem SameTables.setTiles_eq (k : BitVec 2) : setTiles t k = setTiles s k := by
  simp only [setTiles, setVocab, poolSize, setSlots, isSpecial, vocabEntry, h.imgNum_eq, h.setOf_eq]

theorem SameTables.verified {k : BitVec 2} (hv : setVerified s k) : setVerified t k := by
  have ht : tableTileOk t = tableTileOk s := by
    funext n
    simp only [tableTileOk, h.tile]
  unfold setVerified
  rw [h.setTiles_eq, ht]
  exact hv

end

/-- The host's part shows the tokenizer nothing. -/
theorem sameTables_host (s : State) (hs : HostState) : SameTables s { s with host := hs } := ⟨fun _ => rfl, rfl⟩

theorem sameTables_accepted (s : State) (fn : Tenant) (q : BitVec 3) (op : Opcode) (f : Fetched) (rest : List Fetched) (v : HostView) :
    SameTables s (accepted s fn q op f rest v) := sameTables_host ..

/-! ## Verified sets -/

/-- A verified set is used as it is. -/
theorem useSets_of_verified {s : State} {k : BitVec 2} (h : setVerified s k) (bad f : State → State) : useSets s [k] bad f = f s := by
  unfold useSets
  simp only [List.foldl_cons, List.foldl_nil, verifySet_of_verified h]
  rfl

/-! ## The answer -/

/-- The completion of a text command: its result where the region takes it, otherwise the count needed (R300). -/
def textCompletion (r : Request) (h : Nat) (data : Bytes) (need count aux : Nat) : Completion :=
  if data.length ≤ resultRoom r.desc then
    { tag := r.tag, body := finalBody r count data.length .none 0 (w32 aux), flags := r.flags, payload := [(r.desc.resultAddr, data)], closes := some h }
  else { tag := r.tag, body := finalBody r need 0 .none 0 0, flags := r.flags, status := .noResources, closes := some h }

theorem textResult_of_open {s : State} {h : Nat} {r : Request} (hp : r.phase ≠ .ending) (hm : r.remote = false) (hu : r.mute = false)
    (hc : canPost s r.fn r.qp) (data : Bytes) (need count invalid aux : Nat) : textResult s h r data need count invalid aux =
      ended (setReq s h { r with invalidText := invalid }) h { r with invalidText := invalid }
        (textCompletion { r with invalidText := invalid } h data need count aux) := by
  let r' : Request := { r with invalidText := invalid }
  have hr : reqOf (setReq s h r') h = some r' := (reqOf_setReq ..).trans (if_pos rfl)
  have hc' : canPost (setReq s h r') r'.fn r'.qp := canPost_setReq (r := r') hc hu
  unfold textResult textCompletion
  dsimp only
  by_cases hlen : resultRoom r.desc < data.length
  · rw [if_pos hlen, if_neg (Nat.not_le.2 hlen)]
    exact finish_of_open hr hp hm hc' ..
  · rw [if_neg hlen, if_pos (Nat.le_of_not_lt hlen)]
    exact finish_of_open hr hp hm hc' ..

/-- A text counted that has no replacement is no event. -/
theorem countText_of_clean {s : State} {t : Tokens} (h : t.replaced = 0) (tn : Tenant) (tag : BitVec 64) :
    ∃ x, countText s tn tag t = { s with text := x } := by
  unfold countText
  dsimp only
  rw [if_neg (by omega)]
  exact ⟨_, rfl⟩

/-- What an answered text command leaves. -/
theorem textResult_spec {s : State} {h : Nat} {r : Request} (hp : r.phase ≠ .ending) (hm : r.remote = false) (hu : r.mute = false)
    (hc : canPost s r.fn r.qp) (data : Bytes) (need count invalid aux : Nat) :
    (qpOf (textResult s h r data need count invalid aux) r.fn r.qp).waiting =
      (qpOf s r.fn r.qp).waiting ++ [textCompletion { r with invalidText := invalid } h data need count aux]
    ∧ (∀ j, j ≠ h → reqOf (textResult s h r data need count invalid aux) j = reqOf s j)
    ∧ (textResult s h r data need count invalid aux).store = s.store ∧ (textResult s h r data need count invalid aux).gen = s.gen
    ∧ (textResult s h r data need count invalid aux).tier = s.tier := by
  rw [textResult_of_open hp hm hu hc]
  refine ⟨waiting_ended .., fun j hj => ?_, rfl, rfl, rfl⟩
  rw [reqOf_ended_other _ _ _ hj]
  exact (reqOf_setReq ..).trans (if_neg hj)

/-- The same where the request is the descriptor just accepted and only the text part has counted. -/
theorem textResult_of_accepted {s : State} {fn : Tenant} {q : BitVec 3} {op : Opcode} {f : Fetched} {rest : List Fetched} {v : HostView}
    {u : State} {r : Request} (hr : r = newRequest s fn q op f.desc (paramBytes s f.desc v)) (hpost : canPost s fn q)
    (hu : ∃ x, u = { accepted s fn q op f rest v with text := x }) (data : Bytes) (need count invalid aux : Nat) :
    (qpOf (textResult u f.handle r data need count invalid aux) fn q).waiting =
      (qpOf s fn q).waiting ++ [textCompletion { r with invalidText := invalid } f.handle data need count aux]
    ∧ (∀ j, j ≠ f.handle → reqOf (textResult u f.handle r data need count invalid aux) j = reqOf s j)
    ∧ (textResult u f.handle r data need count invalid aux).store = s.store
    ∧ (textResult u f.handle r data need count invalid aux).gen = s.gen
    ∧ (textResult u f.handle r data need count invalid aux).tier = s.tier := by
  have hfn : r.fn = fn := by rw [hr]; rfl
  have hqp : r.qp = q := by rw [hr]; rfl
  have hphase : r.phase ≠ .ending := by rw [hr]; exact newRequest_phase s fn q op f.desc (paramBytes s f.desc v)
  have hremote : r.remote = false := by rw [hr]; rfl
  have hmute : r.mute = false := by rw [hr]; rfl
  have hc0 := canPost_accepted (op := op) (f := f) (rest := rest) (v := v) hpost
  have hwait := waiting_accepted (s := s) (fn := fn) (q := q) (op := op) (f := f) (rest := rest) (v := v)
  have hother : ∀ k, k ≠ f.handle → reqOf (accepted s fn q op f rest v) k = reqOf s k := fun k hk => reqOf_accepted_other hk
  obtain ⟨hs, ha⟩ := accepted_host s fn q op f rest v
  obtain ⟨x, rfl⟩ := hu
  rw [ha] at hc0 hwait hother ⊢
  obtain ⟨h1, h2, h3, h4, h5⟩ := textResult_spec (s := { s with host := hs, text := x }) (h := f.handle) hphase hremote hmute
    (by rw [hfn, hqp]; exact hc0) data need count invalid aux
  rw [hfn, hqp] at h1
  exact ⟨h1.trans (congrArg (· ++ _) hwait), fun j hj => (h2 j hj).trans (hother j hj), h3, h4, h5⟩

/-- Settles O36: the tokens, or the bytes, of the parameter region are answered in place. -/
theorem textIsAnsweredInPlace : Obligations.TextIsAnsweredInPlace := by
  unfold Obligations.TextIsAnsweredInPlace
  intro s fn q v f rest
  dsimp only
  intro hpost hver
  refine ⟨fun hok hpass hclean => ?_, fun hok hraw hpass => ?_⟩
  · have hsame := sameTables_accepted s fn q .tokenize f rest v
    let u := accepted s fn q .tokenize f rest v
    let r := newRequest s fn q .tokenize f.desc (paramBytes s f.desc v)
    let tk := tokenize s (BitVec.ofNat 2 f.desc.argA.toNat) (f.desc.opflags.getLsbD 0) (paramBytes s f.desc v)
    have hrun : runTokenize u f.handle r =
        textResult (countText u fn f.desc.tag tk) f.handle r (tk.toks.flatMap (toLE 4)) tk.toks.length tk.toks.length tk.replaced 0 := by
      refine (useSets_of_verified (hsame.verified hver) _ _).trans ?_
      dsimp only
      rw [hsame.tokenize_eq]
      rfl
    rw [show tk.replaced = 0 from hclean] at hrun
    exact ⟨_, congrArg Host.Outcome.next ((acceptFront_of_ok _ hok rfl).trans ((checked_of_passes hpass _ _ _).trans hrun)),
      textResult_of_accepted (r := r) rfl hpost (countText_of_clean hclean _ _) _ _ _ _ _⟩
  · have hsame := sameTables_accepted s fn q .detokenize f rest v
    let u := accepted s fn q .detokenize f rest v
    let r := newRequest s fn q .detokenize f.desc (paramBytes s f.desc v)
    have hrun : runDetokenize u f.handle r = _ := useSets_of_verified (hsame.verified hver) _ _
    have hbit : r.desc.opflags.getLsbD 0 = true := hraw
    simp only [hsame.isSpecial_eq, hsame.tokenString_eq, hbit, if_true, Nat.lt_irrefl, if_false] at hrun
    exact ⟨_, congrArg Host.Outcome.next ((acceptFront_of_ok _ hok rfl).trans ((checked_of_passes hpass _ _ _).trans hrun)),
      textResult_of_accepted (r := r) rfl hpost ⟨_, rfl⟩ _ _ _ _ _⟩

end Sys2Proof.Machine

/-! TURN_END_DEADLINE (R296): the end of a turn whose END came too late frees what the request holds as well. -/

namespace Sys2Proof.Machine

/-- A turn whose text stream is still open past its deadline, and which still names a scan tile. -/
def overdueTurn : Request :=
  { fn := 4, qp := 1, tag := 55, op := .turn, phase := .stream, streamOpen := true, block := { hardDeadline := 1 }, ret := { scanTiles := [0] } }

/-- That turn as request 5, at request time 2, its queue pair ready for a completion. -/
def holdsOverdueTurn : State :=
  { setReq (setQp {} 4 1 fun p => { p with enable := true, state := .enabled, cqLog2 := 8 }) 5 overdueTurn with bureau := { reqTimer := 2 } }

theorem holdsOverdueTurn_applies : reqOf holdsOverdueTurn 5 = some overdueTurn ∧ endOverdue holdsOverdueTurn overdueTurn = true
    ∧ canPost holdsOverdueTurn 4 1 := by decide +kernel

/-- What the turn names of tiles once its deadline has ended it. -/
theorem scanTiles_of_overdue {y : State} (h : exec (.turnEndDeadline 5) holdsOverdueTurn = .next y) :
    (reqOf y 5).map (·.ret.scanTiles) = some [] := by
  obtain rfl := Host.Outcome.next.inj h
  decide +kernel

/-- Refutes O35: a turn whose stream is open may name tiles of the turn conductor, which its end frees and forgets; so more of the request
changes than its phase. -/
theorem not_dataPlaneRequestsStart : ¬ Obligations.DataPlaneRequestsStart := by
  unfold Obligations.DataPlaneRequestsStart
  intro h
  obtain ⟨hreq, hlate, hpost⟩ := holdsOverdueTurn_applies
  obtain ⟨-, -, hdeadline, -⟩ := h holdsOverdueTurn 4 1 {} { handle := 7, desc := {} } [] 5 overdueTurn
  obtain ⟨-, hended⟩ := hdeadline hreq rfl rfl rfl
  obtain ⟨y, hy, hreq', -⟩ := hended hlate rfl rfl hpost
  have hkept : (reqOf y 5).map (·.ret.scanTiles) = some [0] := by
    rw [hreq']
    rfl
  rw [scanTiles_of_overdue hy] at hkept
  cases hkept

end Sys2Proof.Machine

/-!
# Masks, reports of the text die and the interference window (O28)
-/

namespace Sys2Proof.Machine

/-! ## A tile of records in the store -/

theorem length_flatten_of_all {l : List Bytes} {k : Nat} (h : ∀ b ∈ l, b.length = k) : l.flatten.length = k * l.length := by
  induction l with
  | nil => rfl
  | cons b l ih =>
    rw [List.flatten_cons, List.length_append, h b List.mem_cons_self, ih fun c hc => h c (List.mem_cons_of_mem b hc), List.length_cons]
    ring

theorem take_pad_of_le {bs : Bytes} {n : Nat} (h : bs.length ≤ n) : (pad n bs).take bs.length = bs := by
  induction n generalizing bs with
  | zero => simp [List.eq_nil_of_length_eq_zero (Nat.le_zero.1 h)]
  | succ n ih =>
    cases bs with
    | nil => rfl
    | cons b bs => simp [pad, ih (Nat.le_of_succ_le_succ h)]

theorem runsOf_of_le {α : Type} {l : List α} {k : Nat} (h0 : l ≠ []) (hk : l.length ≤ k) : runsOf k l = [l] := by
  have h1 : 0 < l.length := List.length_pos_iff.2 h0
  have : (l.length + k - 1) / max 1 k = 1 := by
    rw [Nat.max_eq_right (by omega)]
    exact Nat.div_eq_of_lt_le (by omega) (by omega)
  simp [runsOf, this, List.take_of_length_le hk]

/-- Of a record tile that fits the format: its header's fields and its payload. -/
theorem recordTile_spec (p : PartId) (e f : Epoch) (o : Bool) (rs : List Bytes) (h8 : ∀ b ∈ rs, b.length = 8) (hn : rs.length ≤ 2048) :
    let tl := recordTile p e f o 8 rs
    shapeOk tl.hdr.format tl.hdr.rows.toNat tl.hdr.cols.toNat = true ∧ tl.hdr.format = 0x10 ∧ tl.hdr.cols = 8 ∧ tl.hdr.rows.toNat = rs.length
      ∧ tl.hdr.owner = p.setWidth 6 ∧ tl.payload.take (8 * rs.length) = rs.flatten := by
  have hrows : (BitVec.ofNat 16 rs.length).toNat = rs.length := by rw [BitVec.toNat_ofNat]; omega
  refine ⟨?_, rfl, rfl, hrows, rfl, ?_⟩
  · show decide ((BitVec.ofNat 16 rs.length).toNat * 8 * 8 ≤ 131072) = true
    rw [hrows]
    exact decide_eq_true (by omega)
  · have hl := length_flatten_of_all h8
    show (pad 16384 rs.flatten).take _ = _
    rw [← hl]
    exact take_pad_of_le (by omega)

/-- A tile written to a FREE slot changes the store and the control ring alone. -/
theorem writeTile_outside {s : State} {i : TileIdx} {tl : Tile} (src : DieId) (w : Bool)
    (hs : shapeOk tl.hdr.format tl.hdr.rows.toNat tl.hdr.cols.toNat = true) (hf : (slotOf s i).hdr.state = .free) :
    (writeTile s src i tl w).gen = s.gen ∧ (writeTile s src i tl w).tier = s.tier ∧ (writeTile s src i tl w).host = s.host := by
  rw [writeTile_of_free src w hs hf]
  simp

/-! ## The mask of a slot's grammar state (R254) -/

/-- The records of a mask: a state's record and its intervals. -/
def maskRecords (s : State) (g : Grammar) (i : Nat) : List Nat := grammarState s g i :: stateIntervals s g i

section
variable {s : State} {p : PartId} {n : Nat} {g : Grammar}

theorem maskRequest_of_verified (hg : slotGrammar s (slotRec s p n) = some g) (ht : (grammarTiles g).all (tableTileOk s) = true)
    (hp : (slotRec s p n).props = []) :
    maskRequest s p n =
      let recs := (maskRecords s g (slotRec s p n).gstate.toNat).map (BitVec.ofNat 64)
      putRecords { s with text := { s.text with masks := mins s.text.masks (slotKey p n) recs } } 0x3E (maskPlace (partOf s p) n 0)
        ((runsOf 2048 (recs.map fun r => toLE 8 r.toNat)).map (recordTile p (partOf s p).step.epoch (partOf s p).step.epoch true 8)) := by
  have hv : verifyTiles s (grammarTiles g) = (s, true) := if_pos ht
  unfold maskRequest
  dsimp only
  rw [hg]
  dsimp only
  rw [hv]
  dsimp only
  rw [hp]
  rfl

/-- The bytes of a mask's records. -/
theorem maskBytes_eq (l : List Nat) : ((l.map (BitVec.ofNat 64)).map fun r => toLE 8 r.toNat) = l.map fun r => toLE 8 (r % 2 ^ 64) := by
  rw [List.map_map]
  exact List.map_congr_left fun r _ => by rw [Function.comp_apply, BitVec.toNat_ofNat]

theorem putRecords_single (s : State) (src : DieId) (t : Nat) (tl : Tile) : putRecords s src t [tl] = writeTile s src (BitVec.ofNat 17 t) tl false := rfl

end

/-! ## Reports (R234, R250) -/

section
variable {s : State} {p : PartId} {n pos : Nat} {e : Epoch}

theorem unreported_of_reported {q : Partition} {x : OutStream} (h : ∃ r ∈ q.reports, r.slot = n) : unreported q x n = none :=
  if_pos (by simpa using h)

theorem unreported_of_new {q : Partition} {x : OutStream} (h : ∀ r ∈ q.reports, r.slot ≠ n) : unreported q x n = x.firstPos :=
  if_neg (by simpa using h)

theorem unreported_of_none {q : Partition} {x : OutStream} (h : x.firstPos = none) : unreported q x n = none := by
  simp [unreported, h]

theorem stopReport_of_new (hs : inService (slotRec s p n) = true) (hr : ∀ r ∈ (partOf s p).reports, r.slot ≠ n)
    (hf : (streamRec s p n).firstPos = some pos) :
    stopReport s p n pos e = setPart s p fun q => { q with reports := q.reports ++ [{ slot := n, pos := pos, epoch := e }] } :=
  if_pos (by simp [hs, unreported_of_new hr, hf])

theorem stopReport_of_reported (hr : ∃ r ∈ (partOf s p).reports, r.slot = n) : stopReport s p n pos e = s :=
  if_neg (by simp [unreported_of_reported hr])

theorem matchedStep_of_barred (h : (partOf s p).committed.toNat < e.toNat ∨ e.toNat ≤ (partOf s p).matched.toNat) : matchedStep s p e = s :=
  if_pos (by simp [h])

/-- MATCHED with every token processed and no match pending. -/
theorem matchedStep_of_clean (hc : e.toNat ≤ (partOf s p).committed.toNat) (hm : (partOf s p).matched.toNat < e.toNat)
    (hp : ∀ x ∈ (partOf s p).slots, processed s p e.toNat x = true) (hn : ∀ x ∈ (partOf s p).slots, (streamRec s p x.1).firstPos = none) :
    matchedStep s p e = setPart s p fun q => { q with
      matched := e
      slots := mmap (fun _ x => { x with sent := x.sent.filter fun y => decide (e.toNat < y.1) }) (partOf s p).slots } := by
  have skip (l : List (Nat × SlotRec)) (hl : ∀ x ∈ l, (streamRec s p x.1).firstPos = none) :
      l.foldl (fun t x => match unreported (partOf s p) (streamRec t p x.1) x.1 with
        | some pos => stopReport t p x.1 pos e
        | none => t) s = s := by
    induction l with
    | nil => rfl
    | cons x l ih =>
      rw [List.foldl_cons, unreported_of_none (hl x List.mem_cons_self)]
      exact ih fun y hy => hl y (List.mem_cons_of_mem x hy)
  refine (if_neg ?_).trans (congrArg (fun u : State => setPart u p _) (skip _ hn))
  simpa [hc, hm] using hp

theorem slotRec_of_mmap {f : SlotRec → SlotRec} (hf : f {} = {}) {t : State} (h : (partOf t p).slots = mmap (fun _ => f) (partOf s p).slots) (k : Nat) :
    slotRec t p k = f (slotRec s p k) := by
  unfold slotRec mget
  rw [h, mfind_mmap]
  cases mfind (partOf s p).slots k with
  | none => exact hf.symm
  | some v => rfl

end

/-! ## The interference window (R332) -/

/-- A tenant's ratio as its window closes. -/
def windowRatio (x : TenantState) : Nat := if x.soloUs = 0 then 1024 else min 65535 (⌊(1024 * x.actualUs : Nat) / x.soloUs⌋).toNat

theorem tenOf_congr {s t : State} (h : t.gen.tenants = s.gen.tenants) (n : Tenant) : tenOf t n = tenOf s n := by
  unfold tenOf
  rw [h]

theorem tenOf_logEvent (s : State) (e : Ev) (n : Tenant) : tenOf (logEvent s e) n = tenOf s n := tenOf_congr (by simp) n

/-- The close of a tenant's window: a new record of it, and perhaps an event. -/
theorem closeWindow_eq (s : State) (x : Nat × TenantState) : ∃ f : TenantState → TenantState,
    (∀ y, (f y).soloUs = 0 ∧ (f y).actualUs = 0 ∧ (f y).ratio = windowRatio x.2)
    ∧ (closeWindow s x = setTen s (BitVec.ofNat 9 x.1) f ∨ ∃ e, closeWindow s x = logEvent (setTen s (BitVec.ofNat 9 x.1) f) e) := by
  let slow := decide (s.gen.slowThreshold.toNat < windowRatio x.2)
  let run := if slow then x.2.slowRun + 1 else 0
  let log := slow && decide (s.gen.slowWindows.toNat ≤ run) && !x.2.slowLogged
  let f := fun y : TenantState => { y with
    soloUs := 0, actualUs := 0, ratio := windowRatio x.2, slowRun := run, slowLogged := slow && (y.slowLogged || log) }
  let t := setTen s (BitVec.ofNat 9 x.1) f
  have law : closeWindow s x = if log then logEvent t (.slowdown (BitVec.ofNat 9 x.1) (windowRatio x.2) run (busiestPart t)) else t := rfl
  refine ⟨f, fun y => ⟨rfl, rfl, rfl⟩, ?_⟩
  by_cases h : log = true
  · exact .inr ⟨_, law.trans (if_pos h)⟩
  · exact .inl (law.trans (if_neg h))

/-- A tenant's window closes: its times start again, its ratio is that of its times, and every other tenant stays. -/
theorem tenOf_closeWindow (s : State) (x : Nat × TenantState) (n : Tenant) :
    (n = BitVec.ofNat 9 x.1 → (tenOf (closeWindow s x) n).soloUs = 0 ∧ (tenOf (closeWindow s x) n).actualUs = 0
      ∧ (tenOf (closeWindow s x) n).ratio = windowRatio x.2)
    ∧ (n ≠ BitVec.ofNat 9 x.1 → tenOf (closeWindow s x) n = tenOf s n) := by
  obtain ⟨f, hf, he⟩ := closeWindow_eq s x
  have law : tenOf (closeWindow s x) n = tenOf (setTen s (BitVec.ofNat 9 x.1) f) n := by
    rcases he with he | ⟨e, he⟩ <;> rw [he]
    exact tenOf_logEvent ..
  rw [law, tenOf_setTen]
  refine ⟨fun h => ?_, fun h => if_neg h⟩
  rw [if_pos h]
  exact hf _

@[simp] theorem closeWindow_parts (s : State) (x : Nat × TenantState) : (closeWindow s x).gen.parts = s.gen.parts := by
  obtain ⟨f, -, he | ⟨e, he⟩⟩ := closeWindow_eq s x <;> simp [he]

/-- After the windows of a list of tenants have closed: a tenant of the list stands at its closed window, one outside it is as it was. -/
theorem tenOf_closeWindows (n : Tenant) (l : List (Nat × TenantState)) (s : State)
    (hu : ∀ x ∈ l, ∀ y ∈ l, n = BitVec.ofNat 9 x.1 → n = BitVec.ofNat 9 y.1 → x = y) :
    (∀ x ∈ l, n = BitVec.ofNat 9 x.1 → (tenOf (l.foldl closeWindow s) n).soloUs = 0 ∧ (tenOf (l.foldl closeWindow s) n).actualUs = 0
      ∧ (tenOf (l.foldl closeWindow s) n).ratio = windowRatio x.2)
    ∧ ((∀ x ∈ l, n ≠ BitVec.ofNat 9 x.1) → tenOf (l.foldl closeWindow s) n = tenOf s n) := by
  induction l generalizing s with
  | nil => exact ⟨fun x hx => absurd hx List.not_mem_nil, fun _ => rfl⟩
  | cons y l ih =>
    obtain ⟨hin, hout⟩ := ih (closeWindow s y) fun a ha b hb => hu a (List.mem_cons_of_mem y ha) b (List.mem_cons_of_mem y hb)
    rw [List.foldl_cons]
    refine ⟨fun x hx hn => ?_, fun h => ?_⟩
    · by_cases hl : x ∈ l
      · exact hin x hl hn
      · obtain rfl := (List.mem_cons.1 hx).resolve_right hl
        have others : ∀ z ∈ l, n ≠ BitVec.ofNat 9 z.1 := fun z hz he =>
          hl ((hu x List.mem_cons_self z (List.mem_cons_of_mem x hz) hn he) ▸ hz)
        rw [hout others]
        exact (tenOf_closeWindow s x n).1 hn
    · rw [hout fun x hx => h x (List.mem_cons_of_mem y hx)]
      exact (tenOf_closeWindow s y n).2 (h y List.mem_cons_self)

/-- After the window has closed: no time is left, and a tenant that had some stands at its ratio. -/
theorem tenOf_closedWindow {s : State} (hc : canonical {} s.gen.tenants = true) (hk : ∀ x ∈ s.gen.tenants, x.1 < 512) (n : Tenant) :
    let t := s.gen.tenants.foldl closeWindow s
    (tenOf t n).soloUs = 0 ∧ (tenOf t n).actualUs = 0 ∧ ((tenOf s n).soloUs ≠ 0 → (tenOf t n).ratio = windowRatio (tenOf s n)) := by
  have key : ∀ x ∈ s.gen.tenants, n = BitVec.ofNat 9 x.1 → x.1 = n.toNat := fun x hx he => by
    rw [he, BitVec.toNat_ofNat, Nat.mod_eq_of_lt (hk x hx)]
  have entry : ∀ x ∈ s.gen.tenants, n = BitVec.ofNat 9 x.1 → x = (n.toNat, tenOf s n) := fun x hx he => by
    obtain ⟨k, v⟩ := x
    obtain rfl := key _ hx he
    rw [show tenOf s n = v from mget_of_mfind (mfind_of_mem_canonical hc hx)]
  obtain ⟨hin, hout⟩ := tenOf_closeWindows n s.gen.tenants s fun x hx y hy he hf => (entry x hx he).trans (entry y hy hf).symm
  by_cases h : ∃ x ∈ s.gen.tenants, n = BitVec.ofNat 9 x.1
  · obtain ⟨x, hx, he⟩ := h
    obtain ⟨h1, h2, h3⟩ := hin x hx he
    rw [entry x hx he] at h3
    exact ⟨h1, h2, fun _ => h3⟩
  · have hnone : tenOf s n = {} := by
      unfold tenOf mget
      cases hm : mfind s.gen.tenants n.toNat with
      | none => rfl
      | some v => exact absurd ⟨_, mem_of_mfind hm, by simp⟩ h
    dsimp only
    rw [hout fun x hx he => h ⟨x, hx, he⟩, hnone]
    exact ⟨rfl, rfl, fun h => absurd rfl h⟩

/-- Settles O28: the mask from verified tables, the text die's reports, and the close of the interference window. -/
theorem reportsMasksAndWindows : Obligations.ReportsMasksAndWindows := by
  unfold Obligations.ReportsMasksAndWindows
  intro s p n pos e g q sl place
  refine ⟨fun hg ht hp => ?_, fun hs hr hf => ?_, fun hr => ?_, fun hc hm hpr hn => ?_, fun h => ?_, fun hc hk hcp => ?_⟩
  · have law := maskRequest_of_verified hg ht hp
    refine ⟨_, congrArg Host.Outcome.next law, ?_, fun k hk => ?_, ?_, ?_, fun hlen hfree => ?_⟩
    · simp [maskRecords, sl]
    · simp [hk]
    · simp
    · simp
    · have hb : (maskRecords s g sl.gstate.toNat).length ≤ 2048 := hlen
      obtain ⟨hshape, hfmt, hcols, hrows, howner, hpay⟩ := recordTile_spec p q.step.epoch q.step.epoch true
        ((maskRecords s g sl.gstate.toNat).map fun r => toLE 8 (r % 2 ^ 64)) (by simp) (by simpa using hb)
      simp only [List.length_map] at hrows hpay
      dsimp only
      rw [maskBytes_eq, runsOf_of_le (by simp [maskRecords]) (by simpa using hb), List.map_cons, List.map_nil, putRecords_single]
      generalize hm : ({ s with text := { s.text with
        masks := mins s.text.masks (slotKey p n) ((maskRecords s g sl.gstate.toNat).map (BitVec.ofNat 64)) } } : State) = m
      have hslots (k : TileIdx) : slotOf m k = slotOf s k := slotOf_congr (by rw [← hm]) k
      have hfree : (slotOf m place).hdr.state = .free := (congrArg (fun x : Slot => x.hdr.state) (hslots place)).trans hfree
      have hsame := slotOf_writeTile_same 0x3E false hshape hfree
      obtain ⟨hgen, htier, hhost⟩ := writeTile_outside 0x3E false hshape hfree
      refine ⟨congrArg (fun x : Slot => x.hdr.state) hsame, (congrArg (fun x : Slot => x.hdr.format) hsame).trans hfmt,
        (congrArg (fun x : Slot => x.hdr.cols) hsame).trans hcols, (congrArg (fun x : Slot => x.hdr.rows.toNat) hsame).trans hrows,
        (congrArg (fun x : Slot => x.hdr.owner) hsame).trans howner, ?_, fun k hk => ?_, hgen.trans (by rw [← hm]),
        htier.trans (by rw [← hm]), hhost.trans (by rw [← hm])⟩
      · exact (congrArg (fun x : Slot => x.payload.take _) hsame).trans (hpay.trans List.flatMap_def.symm)
      · exact (slotOf_writeTile_other 0x3E false hshape hfree hk).trans (hslots k)
  · exact congrArg Host.Outcome.next (stopReport_of_new hs hr hf)
  · exact congrArg Host.Outcome.next (stopReport_of_reported hr)
  · have law := matchedStep_of_clean hc hm hpr hn
    refine ⟨_, congrArg Host.Outcome.next law, ?_, ?_, fun _ k => ?_, fun r hr => ?_, rfl⟩
    · rw [partOf_setPart, if_pos rfl]
    · rw [partOf_setPart, if_pos rfl]
    · exact slotRec_of_mmap (f := fun x => { x with sent := x.sent.filter fun y => decide (e.toNat < y.1) }) rfl
        (by rw [partOf_setPart, if_pos rfl]) k
    · rw [partOf_setPart, if_neg hr]
  · exact congrArg Host.Outcome.next (matchedStep_of_barred h)
  · refine ⟨_, rfl, fun r => ?_, fun n => ?_, fun n h => ?_, by simp, by simp, by simp⟩
    · unfold partOf mget
      dsimp only [windowClose]
      rw [mfind_mmap, foldl_keeps (fun s : State => s.gen.parts) closeWindow_parts]
      cases mfind s.gen.parts r.toNat <;> rfl
    · obtain ⟨h1, h2, -⟩ := tenOf_closedWindow hc hk n
      exact ⟨h1, h2⟩
    · obtain ⟨-, -, h3⟩ := tenOf_closedWindow hc hk n
      exact (h3 h).trans (if_neg h)

end Sys2Proof.Machine

/-!
# The merge collective follows ready lines (O20)
-/

namespace Sys2Proof.Machine

theorem mem_without {α : Type} [DecidableEq α] {x y : α} {l : List α} : x ∈ without y l ↔ x ∈ l ∧ x ≠ y := by
  simp [without]

section
variable {s : State} {m src : Nat}

/-! ## The start of a merge (R151, R177) -/

/-- A merge from which no partial was withdrawn starts on the slots that can be read. -/
theorem mergeStart_of_whole {x : MergeSet} (hw : (mergeOf s m).withdrawn = []) : mergeStart s m x =
    let here := x.slots.filter fun y => readable s y.2
    let cut := x.budgetOf.filter (budgetPassed s)
    let t := setMerge s m fun y => { y with
      expected := x.slots, arrived := here.map (·.1), started := decide (here.length = x.slots.length) || cut.isSome }
    match cut with
    | some h => if here.length < x.slots.length then flagRequest t flagPartialProbe h else t
    | none => t := by
  have hs : (x.slots.filter fun y => decide (y.1 ∉ (mergeOf s m).withdrawn)) = x.slots := by simp [hw]
  unfold mergeStart
  rw [hs] <;> rfl

theorem readable_all {x : MergeSet} (h : ∀ y ∈ x.slots, readable s y.2 = true) : (x.slots.filter fun y => readable s y.2) = x.slots :=
  List.filter_eq_self.2 h

theorem readable_some {x : MergeSet} (h : ∃ y ∈ x.slots, readable s y.2 = false) :
    (x.slots.filter fun y => readable s y.2).length < x.slots.length := by
  obtain ⟨y, hy, hr⟩ := h
  exact List.length_filter_lt_length_iff_exists.2 ⟨y, hy, by simp [hr]⟩

theorem mergeStart_of_all {x : MergeSet} (hw : (mergeOf s m).withdrawn = []) (h : ∀ y ∈ x.slots, readable s y.2 = true) :
    mergeStart s m x = setMerge s m fun y => { y with expected := x.slots, arrived := x.slots.map (·.1), started := true } := by
  rw [mergeStart_of_whole hw, readable_all h]
  dsimp only
  rw [decide_eq_true rfl, Bool.true_or]
  split
  · exact if_neg (lt_irrefl _)
  · rfl

theorem mergeStart_of_missing {x : MergeSet} (hw : (mergeOf s m).withdrawn = []) (h : ∃ y ∈ x.slots, readable s y.2 = false) :
    (x.budgetOf.filter (budgetPassed s) = none → mergeStart s m x = setMerge s m fun y => { y with
      expected := x.slots, arrived := (x.slots.filter fun y => readable s y.2).map (·.1), started := false })
    ∧ ∀ k, x.budgetOf.filter (budgetPassed s) = some k → mergeStart s m x = flagRequest (setMerge s m fun y => { y with
      expected := x.slots, arrived := (x.slots.filter fun y => readable s y.2).map (·.1), started := true }) flagPartialProbe k := by
  have hlt := readable_some h
  refine ⟨fun hc => ?_, fun k hc => ?_⟩
  · rw [mergeStart_of_whole hw, hc]
    dsimp only
    rw [decide_eq_false hlt.ne]
    rfl
  · rw [mergeStart_of_whole hw, hc]
    dsimp only
    rw [if_pos hlt, Option.isSome_some, Bool.or_true]

/-! ## What a slot's writer publishes (R152, R153) -/

section
variable {slot : Nat} {l : MergePart}

theorem mergePublish_lines (h : readable s l.tile = true) : mergePublish s slot l false =
    emit { s with engines := { s.engines with slotLines := mins s.engines.slotLines slot l.tile } }
      (.mergeSlot slot (mergeSlotBytes { hdr := (slotOf s l.tile).hdr, payload := (slotOf s l.tile).payload })) := if_pos h

theorem mergePublish_readyLine (h : mfind s.engines.slotLines slot = some l.tile) : mergePublish s slot l true =
    emit { s with engines := { s.engines with
      published := mins s.engines.published slot (readyLineOf s l ((mget {} s.engines.published slot).seq + 1))
      slotLines := mdel s.engines.slotLines slot } }
      (.mergeLine slot (readyLineOf s l ((mget {} s.engines.published slot).seq + 1))) := by
  unfold mergePublish
  rw [Bool.not_true, if_neg Bool.false_ne_true]
  exact if_pos (by simp [h])

theorem mergePublish_of_unwritten (h : mfind s.engines.slotLines slot ≠ some l.tile)
    (hc : (mget {} s.engines.published slot).crc ≠ (slotOf s l.tile).hdr.crc) : mergePublish s slot l true = s := by
  unfold mergePublish
  rw [Bool.not_true, if_neg Bool.false_ne_true]
  exact if_neg (by simpa [h] using hc)

end

/-! ## What the owner rereads (R153) -/

section
variable {e : Engine} {n : TileIdx} {l old : ReadyLine} {tile : Tile}

theorem lineReread_of_new (h : mfind (mergeOf s m).lines src = none) (hp : pinnedLines s < 1024) :
    lineReread s m src e n l tile = setMerge s m fun x => { x with lines := mins x.lines src l } := by
  unfold lineReread
  rw [h]
  exact if_neg (Nat.not_le.2 hp)

/-- A reread of a pinned line whose copy is gone. -/
theorem lineReread_of_invalid (h : mfind (mergeOf s m).lines src = some old) (hi : src ∈ (mergeOf s m).invalid) :
    lineReread s m src e n l tile =
      if l.seq.toNat ≤ old.seq.toNat then setMerge s m fun x => { x with invalid := without src x.invalid }
      else if tile.crcOk && tile.hdr.crc = l.crc then acceptLine s m src e n l tile
      else if src ∈ (mergeOf s m).reread then
        noteFault (setMerge s m fun x => { x with invalid := without src x.invalid, reread := without src x.reread, lines := mins x.lines src l })
          e (0x04, 0xFFFF)
      else setMerge s m fun x => { x with reread := withLast src x.reread } := by
  unfold lineReread
  rw [h]
  exact if_neg (not_not_intro hi)

theorem lineReread_of_mismatch (h : mfind (mergeOf s m).lines src = some old) (hi : src ∈ (mergeOf s m).invalid)
    (hq : old.seq.toNat < l.seq.toNat) (hc : tile.crcOk = false ∨ tile.hdr.crc ≠ l.crc) :
    lineReread s m src e n l tile =
      if src ∈ (mergeOf s m).reread then
        noteFault (setMerge s m fun x => { x with invalid := without src x.invalid, reread := without src x.reread, lines := mins x.lines src l })
          e (0x04, 0xFFFF)
      else setMerge s m fun x => { x with reread := withLast src x.reread } := by
  rw [lineReread_of_invalid h hi, if_neg (Nat.not_le.2 hq)]
  refine if_neg ?_
  rcases hc with hc | hc <;> simp [hc]

/-- A COMMITTED partial of a source that has not arrived fills its store slot and its place in the merge. -/
theorem acceptLine_of_fresh (ha : src ∉ (mergeOf s m).arrived) (hp : l.provisional = false) : acceptLine s m src e n l tile =
    setMerge (writeTile s 0x3C n { tile with hdr := { tile.hdr with persist := true, srcValid := false } } tile.hdr.world) m fun x => { x with
      lines := mins x.lines src l, invalid := without src x.invalid, reread := without src x.reread, arrived := withLast src x.arrived
      provisional := without src x.provisional
      withdrawn := if withdrawnList l tile then withLast src x.withdrawn else without src x.withdrawn
      started := x.started && (true || false) } := by
  unfold acceptLine
  simp only [if_neg ha, hp]
  split <;> rfl

end

end

/-- Settles O20: the start of a merge, the writes of a slot's writer, and the owner's rereads, case by case. -/
theorem mergeCollectiveFollowsReadyLines : Obligations.MergeCollectiveFollowsReadyLines := by
  unfold Obligations.MergeCollectiveFollowsReadyLines
  intro s m src slot h x e n part l old tile
  refine ⟨fun hw => ⟨fun hr => ?_, fun hr => ⟨fun hb => ?_, fun hb hp => ?_⟩⟩, fun hr => ?_, fun hl => ?_, fun hl hc => ?_, fun hl => ?_,
    fun hl hp => ?_, fun hl hi => ⟨fun hq => ?_, fun hq hc he hp ha hf hs => ?_, fun hq hc hn => ?_, fun hq hc hn => ?_⟩⟩
  · refine ⟨_, congrArg Host.Outcome.next (mergeStart_of_all hw hr), ?_, ?_, ?_, fun k hk => ?_, rfl⟩
    · simp
    · simp
    · simp
    · simp [hk]
  · refine congrArg Host.Outcome.next ((mergeStart_of_missing hw hr).1 ?_)
    rcases hb with hb | ⟨k, hb, hk⟩
    · simp [hb]
    · simp [hb, hk]
  · exact congrArg Host.Outcome.next ((mergeStart_of_missing hw hr).2 h (by simp [hb, hp]))
  · exact ⟨_, congrArg Host.Outcome.next (mergePublish_lines hr), by simp, rfl, rfl, rfl⟩
  · refine ⟨_, congrArg Host.Outcome.next (mergePublish_readyLine hl), ?_, rfl, fun k hk => ?_, rfl⟩
    · simp
    · simp [hk]
  · exact congrArg Host.Outcome.next (mergePublish_of_unwritten hl hc)
  · exact congrArg Host.Outcome.next (if_pos (by simp [hl]))
  · exact congrArg Host.Outcome.next (lineReread_of_new hl hp)
  · exact congrArg Host.Outcome.next ((lineReread_of_invalid hl hi).trans (if_pos hq))
  · have same := slotOf_writeTile_same (tl := { tile with hdr := { tile.hdr with persist := true, srcValid := false } }) 0x3C tile.hdr.world hs hf
    have law : lineReread s m src e n l tile = acceptLine s m src e n l tile := by
      rw [lineReread_of_invalid hl hi, if_neg (Nat.not_le.2 hq)]
      exact if_pos (by simp [hc, he])
    have slots (u : State) (f : MergeState → MergeState) (k : TileIdx) : slotOf (setMerge u m f) k = slotOf u k := slotOf_congr rfl k
    refine ⟨_, congrArg Host.Outcome.next (law.trans (acceptLine_of_fresh ha hp)), ?_, ?_, ?_, ?_, ?_, fun k hk => ?_⟩
    · rw [slots]
      exact congrArg Slot.payload same
    · rw [slots]
      exact congrArg (fun x : Slot => x.hdr.state) same
    · simp
    · simp [mem_without]
    · simp [mem_withLast]
    · rw [slots]
      exact slotOf_writeTile_other (tl := { tile with hdr := { tile.hdr with persist := true, srcValid := false } }) 0x3C tile.hdr.world hs hf hk
  · exact congrArg Host.Outcome.next ((lineReread_of_mismatch hl hi hq hc).trans (if_neg hn))
  · refine ⟨_, congrArg Host.Outcome.next ((lineReread_of_mismatch hl hi hq hc).trans (if_pos hn)), ?_, ?_, ?_, ?_⟩
    · simp [noteFault, engOf, setEng, setMerge]
    · simp [noteFault, mergeOf, setEng, setMerge, mem_without]
    · simp [noteFault, mergeOf, setEng, setMerge, mem_without]
    · simp [setMerge]

end Sys2Proof.Machine

/-!
# Context switches, KV pages and stripe partials (O26)
-/

namespace Sys2Proof.Machine

/-! ## The context switch (R328) -/

section
variable {s : State} {e : Engine} {lend : Bool} {out inc : Share}

theorem contextSwitch_of_contexts (ho : runningShare (engOf s e) = some out)
    (hi : (if (engOf s e).running then (engOf s e).ctx0 else (engOf s e).ctx1) = some inc) :
    contextSwitch s e lend =
      if borrows s inc.part e ≠ lend then s
      else if (partOf s out.part).step.running && decide (e ∈ usedEngines (partOf s out.part)) then
        match sealFault (engOf s e) out with
        | some u => noteFault s e (0x06, u)
        | none => s
      else setEng s e fun x => { x with running := !x.running, stopped := (partOf s inc.part).needReload } := by
  unfold contextSwitch
  dsimp only
  rw [ho, hi] <;> rfl

end

/-! ## A tile stored in tier L by the step (R70) -/

/-- A write to a place in tier L that takes it at once changes that tile, its map, and the answers, all of them in the tier. -/
theorem tierWriteGo_tierL {s : State} {w : PendWrite} {e : ExtentEntry} (he : entryOf s w.x = some e) (hp : (place e w.t).1 = 2)
    (hw : writeWaits s e w.t = false) : ∃ u, tierWriteGo s w e = { s with tier := u }
      ∧ u.lmem = (putL s (place e w.t).2 w.tile (decide (e.cls = 1))).tier.lmem := by
  obtain ⟨l, d, h⟩ := devWrite_tierL w.tile he hp
  rw [tierWriteGo_of_free hw, h]
  exact ⟨_, rfl, rfl⟩

/-! ## KV pages (R70, R214 to R217) -/

section
variable {s : State} {p : PartId} {slot page sub n x : Nat} {g : Program} {ent : ExtentEntry}

/-- A page that lies in tier L, whole and not waiting to be written, is read as it stands there. -/
theorem readPage_tierL {sl : SlotRec} (hx : mfind (partOf s p).pool (n / 128) = some x) (he : entryOf s x = some ent) (hc : ent.cls = 2)
    (hp : place ent (BitVec.ofNat 7 n) = (2, n)) (hw : pageWrite s x n = none) (hl : isLost s x ent (BitVec.ofNat 7 n) = false)
    (hg : Tile.good { hdr := (lTile s n).hdr, payload := (lTile s n).payload } = true) :
    readPage s p sl n [] = (s, some (x, ent, { hdr := (lTile s n).hdr, payload := (lTile s n).payload })) := by
  have hr : readPlace ent (BitVec.ofNat 7 n) = (2, n) := by
    rw [← hp]
    exact if_neg (by simp [hc])
  have read : readEntry s x ent (BitVec.ofNat 7 n) [] = (s, .ok, some { hdr := (lTile s n).hdr, payload := (lTile s n).payload }) := by
    rw [readEntry_tierL (by rw [hr]) hl, hr]
  unfold readPage
  simp only [hx, Option.isSome_some, if_true, Option.getD_some, he, hw, read, hg]

theorem waiting_filter_of_none (h : pageWrite s x n = none) :
    (s.tier.waiting.filter fun y => !decide (y.x = x ∧ y.t = BitVec.ofNat 7 n)) = s.tier.waiting := by
  refine List.filter_eq_self.2 fun w hw => ?_
  rw [Bool.not_eq_true']
  exact Bool.eq_false_iff.2 (List.find?_eq_none.1 h w hw)

/-- A write of rows to a page that was read and that takes no other write. -/
theorem kvPageWrite_of_read {rows : PageRows} {t : Tile} (hq : (partOf s p).prog = some g) (hn : (slotRec s p slot).pageList[page]? = some (sub, n))
    (hi : inStep (partOf s p) (slotRec s p slot) = true) (hw : pageWrite s x n = none)
    (hr : readPage s p (slotRec s p slot) n rows.upsets = (s, some (x, ent, t))) :
    kvPageWrite s p slot page rows =
      let sh := pageShape g (slotRec s p slot) page
      setStep (tierWriteGo s { rq := pageReq (partOf s p) p, x := x, t := BitVec.ofNat 7 n
                               tile := placeRows (slotRec s p slot) sh.1 sh.2.1 sh.2.2.1 sh.2.2.2 t rows.rows } ent) p
        fun st => { st with kvWritten := st.kvWritten ++ rows.rows.map fun r => (slot, page, r.1) } := by
  unfold kvPageWrite
  simp only [hq, hn, hi, Bool.not_true, Bool.false_eq_true, if_false, hr, waiting_filter_of_none hw]

/-- One row placed in a page: a position below the committed ones keeps its bytes. -/
theorem placeRows_payload (sl : SlotRec) (draft : Bool) (h d c i : Nat) (old : Tile) (b : Bytes) (hi : i < pageTokens h d) :
    (placeRows sl draft h d c old [(i, b)]).payload =
      if kvCommitted sl draft ≤ c * pageTokens h d + i then splice (pad 16384 old.payload) (i * posBytes h d) (pad (posBytes h d) b)
      else pad 16384 old.payload := by
  simp only [placeRows, Tile.sealed, List.foldl_cons, List.foldl_nil, hi, true_and]

end

/-! ## Stripe partials (R218, R219) -/

theorem setStep_congr {s : State} {p : PartId} {f h : Step → Step} (he : f (partOf s p).step = h (partOf s p).step) : setStep s p f = setStep s p h := by
  exact congrArg (fun x => { s with gen := { s.gen with parts := mput {} s.gen.parts p.toNat { partOf s p with step := x } } }) he

@[simp] theorem partOf_setStep (s : State) (p q : PartId) (f : Step → Step) :
    partOf (setStep s p f) q = if q = p then { partOf s p with step := f (partOf s p).step } else partOf s q := partOf_setPart ..

theorem partOf_congr {s t : State} (h : t.gen.parts = s.gen.parts) (p : PartId) : partOf t p = partOf s p := by
  unfold partOf
  rw [h]

/-- What a step has of decode attention: its stripe partials and its rows. -/
def attnOf (s : State) (p : PartId) : List StripePartial × List AttnRow := ((partOf s p).step.partials, (partOf s p).step.attnRows)

theorem attnOf_setStep {s : State} {p : PartId} {f : Step → Step}
    (h : ∀ x : Step, (f x).partials = x.partials ∧ (f x).attnRows = x.attnRows) (q : PartId) : attnOf (setStep s p f) q = attnOf s q := by
  obtain ⟨h1, h2⟩ := h (partOf s p).step
  unfold attnOf
  rw [partOf_setStep]
  split
  case isTrue hq => rw [hq]; exact Prod.ext h1 h2
  case isFalse => rfl

theorem attnOf_congr {s t : State} (h : t.gen.parts = s.gen.parts) (q : PartId) : attnOf t q = attnOf s q := by
  unfold attnOf
  rw [partOf_congr h]

/-- A tile written to the store leaves the attention of every step. -/
theorem attnOf_writeTile (s : State) (src : DieId) (i : TileIdx) (tl : Tile) (w : Bool) (q : PartId) :
    attnOf (writeTile s src i tl w) q = attnOf s q := by
  have refused (cause : Nat) : attnOf (refuseWrite s src 0 i tl.hdr cause) q = attnOf s q := by
    unfold refuseWrite
    refine (attnOf_congr (congrArg GenState.parts (logEvent_frame _ _).2.2.2.2.1) q).trans ?_
    cases partField tl.hdr.owner with
    | none => rfl
    | some r =>
      refine attnOf_setStep ?_ q
      exact fun x => ⟨rfl, rfl⟩
  unfold writeTile
  split
  · exact refused 0
  · split
    · exact refused 1
    · exact attnOf_congr (by simp) q

theorem attnOf_sendRecords (s : State) (p : PartId) (sub : Nat) (q : PartId) : attnOf (sendRecords s p sub) q = attnOf s q := by
  unfold sendRecords
  dsimp only
  split
  · rfl
  · rfl
  · refine (attnOf_writeTile ..).trans (attnOf_setStep ?_ q)
    exact fun x => ⟨rfl, rfl⟩

/-- The record of a stripe partial is to travel. -/
def recordDue (s : State) (p : PartId) (y : StripePartial) : State :=
  if y.val.isSome then setStep s p fun st => { st with recordsDue := st.recordsDue ++ [y] } else s

/-- 31 records of a subchannel travel as a tile. -/
def recordsFull (s : State) (p : PartId) (sub : Nat) : State :=
  if 31 ≤ ((partOf s p).step.recordsDue.filter fun x => decide (x.sub = sub)).length then sendRecords s p sub else s

theorem attnOf_recordDue (s : State) (p : PartId) (y : StripePartial) (q : PartId) : attnOf (recordDue s p y) q = attnOf s q := by
  unfold recordDue
  split
  · refine attnOf_setStep ?_ q
    exact fun x => ⟨rfl, rfl⟩
  · rfl

theorem attnOf_recordsFull (s : State) (p : PartId) (sub : Nat) (q : PartId) : attnOf (recordsFull s p sub) q = attnOf s q := by
  unfold recordsFull
  split
  · exact attnOf_sendRecords ..
  · rfl

/-- The records that the members of a row hold travel. -/
def sendMembers (s : State) (p : PartId) (mine : List (Option StripePartial)) : State :=
  mine.foldl (fun s x => match x with
    | some x => sendRecords s p x.sub
    | none => s) s

theorem attnOf_sendMembers (s : State) (p : PartId) (mine : List (Option StripePartial)) (q : PartId) :
    attnOf (sendMembers s p mine) q = attnOf s q := by
  refine foldl_keeps (fun s => attnOf s q) (fun s x => ?_) mine s
  cases x with
  | none => rfl
  | some x => exact attnOf_sendRecords ..

theorem finishStripe_of_open {s : State} {p : PartId} {w n : Nat} {y : StripePartial} (h : stripeLast w n y.member ≠ some y.lastPage) :
    finishStripe s p w n y = s := if_pos h

/-- The end of a stripe partial: a row whose partials are not complete waits, a complete one is formed. -/
theorem finishStripe_of_last {s : State} {p : PartId} {w n : Nat} {y : StripePartial} (h : stripeLast w n y.member = some y.lastPage) :
    finishStripe s p w n y =
      let u := recordsFull (recordDue s p y) p y.sub
      let ps := (attnOf s p).1
      let mine := (List.range w).map fun r => stripeOf ps y.slot y.row r
      if !rowComplete ps y.slot y.row w n then u
      else match attentionRow (mine.map fun x => x.bind (·.val)) with
        | some o => setStep (sendMembers u p mine) p fun st => { st with attnRows := st.attnRows ++ [{ slot := y.slot, row := y.row, out := o }] }
        | none => sendMembers u p mine := by
  have hps : (attnOf s p).1 = (partOf (recordsFull (recordDue s p y) p y.sub) p).step.partials :=
    (congrArg Prod.fst ((attnOf_recordsFull _ p y.sub p).trans (attnOf_recordDue s p y p))).symm
  dsimp only
  rw [hps]
  exact if_neg (not_not_intro h)

/-- The end of a stripe partial leaves the partials. -/
theorem finishStripe_partials (s : State) (p : PartId) (w n : Nat) (y : StripePartial) :
    (partOf (finishStripe s p w n y) p).step.partials = (partOf s p).step.partials := by
  by_cases h : stripeLast w n y.member = some y.lastPage
  · have hu : attnOf (recordsFull (recordDue s p y) p y.sub) p = attnOf s p := (attnOf_recordsFull _ p y.sub p).trans (attnOf_recordDue s p y p)
    rw [finishStripe_of_last h]
    dsimp only
    split
    · exact congrArg Prod.fst hu
    · split
      · rw [partOf_setStep, if_pos rfl]
        exact congrArg Prod.fst ((attnOf_sendMembers ..).trans hu)
      · exact congrArg Prod.fst ((attnOf_sendMembers ..).trans hu)
  · rw [finishStripe_of_open h]

/-- A row of one stripe and one page: its partial forms it. -/
theorem finishStripe_single {s : State} {p : PartId} {y : StripePartial} {z : Partial3} (hm : y.member = 0) (hl : y.lastPage = 0) (hv : y.val = some z)
    (hy : stripeOf (partOf s p).step.partials y.slot y.row y.member = some y) :
    (partOf (finishStripe s p 1 0 y) p).step.attnRows
      = (partOf s p).step.attnRows ++ [{ slot := y.slot, row := y.row, out := z.o.map fun o => fmul o (frecip z.l) }] := by
  have hps : stripeOf (attnOf s p).1 y.slot y.row 0 = some y := by rw [← hm]; exact hy
  have hdone : rowComplete (attnOf s p).1 y.slot y.row 1 0 = true := by
    simp [rowComplete, List.range_succ, stripeLast, hps, hl]
  have hmine : (List.range 1).map (fun r => stripeOf (attnOf s p).1 y.slot y.row r) = [some y] := by
    simp [List.range_succ, hps]
  have hrow : attentionRow ([some y].map fun x => x.bind (·.val)) = some (z.o.map fun o => fmul o (frecip z.l)) := by
    simp [attentionRow, hv, joinPartials]
  have hu : attnOf (sendMembers (recordsFull (recordDue s p y) p y.sub) p [some y]) p = attnOf s p :=
    (attnOf_sendMembers ..).trans ((attnOf_recordsFull _ p y.sub p).trans (attnOf_recordDue s p y p))
  rw [finishStripe_of_last (by rw [hm, hl]; rfl)]
  dsimp only
  rw [hdone, hmine, hrow, Bool.not_true, if_neg Bool.false_ne_true]
  dsimp only
  rw [partOf_setStep, if_pos rfl]
  exact congrArg (· ++ _) (congrArg Prod.snd hu)

section
variable {s : State} {a : AttentionOp} {g : Program} {sub n x : Nat} {ent : ExtentEntry} {t : Tile}

/-- The stripe partial that the first page of a member gives. -/
def firstPartial (s : State) (a : AttentionOp) (g : Program) (sub : Nat) (t : Tile) : StripePartial :=
  let h := g.sec.kvHeads
  let d := g.sec.headDim
  let sl := slotRec s a.part a.slot
  let place := pageIndex g (slotPositions sl) false a.layer a.page
  let own := validRows (partOf s a.part) sl false a.slot place a.page (pageTokens h d) a.pos
  let row := fun (i off : Nat) => slice t.payload (i * posBytes h d + off) d
  { slot := a.slot, row := a.row, member := a.page % max 1 g.kvStripe, sub := sub, lastPage := a.page
    val := pagePartial a d (own.map fun i => row i (a.head * d)) (own.map fun i => row i (h * d + a.head * d)) }

theorem filter_of_stripe_none {ps : List StripePartial} {slot row r : Nat} (h : stripeOf ps slot row r = none) :
    (ps.filter fun z => !decide (z.slot = slot ∧ z.row = row ∧ z.member = r)) = ps := by
  refine List.filter_eq_self.2 fun z hz => ?_
  rw [Bool.not_eq_true']
  exact Bool.eq_false_iff.2 (List.find?_eq_none.1 h z hz)

theorem stripeOf_append_new {ps : List StripePartial} {y : StripePartial} (h : stripeOf ps y.slot y.row y.member = none) :
    stripeOf (ps ++ [y]) y.slot y.row y.member = some y := by
  rw [stripeOf, List.find?_append, show ps.find? _ = none from h]
  simp

/-- The first page of a stripe member: its partial joins those of the step. -/
theorem attentionPage_of_first (hq : (partOf s a.part).prog = some g) (hd : a.draft = false) (hf : a.fault = false)
    (hn : (slotRec s a.part a.slot).pageList[pageIndex g (slotPositions (slotRec s a.part a.slot)) false a.layer a.page]? = some (sub, n))
    (hi : inStep (partOf s a.part) (slotRec s a.part a.slot) = true) (hh : a.head < g.sec.kvHeads) (hw : a.page < max 1 g.kvStripe)
    (hp : a.page * pageTokens g.sec.kvHeads g.sec.headDim ≤ a.pos)
    (ho : stripeOf (partOf s a.part).step.partials a.slot a.row (a.page % max 1 g.kvStripe) = none)
    (hwait : pageWaits s (partOf s a.part) n = false)
    (hr : readPage s a.part (slotRec s a.part a.slot) n a.upsets = (s, some (x, ent, t))) :
    attentionPage s a = finishStripe (setStep s a.part fun st => { st with partials := st.partials ++ [firstPartial s a g sub t] })
      a.part (max 1 g.kvStripe) (a.pos / pageTokens g.sec.kvHeads g.sec.headDim) (firstPartial s a g sub t) := by
  have hnext : nextPage none (max 1 g.kvStripe) a.page = true := decide_eq_true hw
  have joined (v : Option Partial3) : joinPartials none v = v := by cases v <;> rfl
  unfold attentionPage
  simp only [hq, hd, hn, ho, hi, hnext, hwait, hr, hf, Nat.not_le.2 hh, Nat.not_lt.2 hp, Bool.not_true, Bool.false_eq_true, or_self,
    if_false, Option.bind_none, joined]
  refine congrArg (fun u => finishStripe u a.part _ _ _) (setStep_congr ?_)
  exact congrArg (fun l => { (partOf s a.part).step with partials := l ++ [firstPartial s a g sub t] }) (filter_of_stripe_none ho)

/-- The first page's partial among those of the step. -/
theorem stripeOf_firstPartial (ho : stripeOf (partOf s a.part).step.partials a.slot a.row (a.page % max 1 g.kvStripe) = none) :
    stripeOf (partOf (setStep s a.part fun st => { st with partials := st.partials ++ [firstPartial s a g sub t] }) a.part).step.partials
      a.slot a.row (a.page % max 1 g.kvStripe) = some (firstPartial s a g sub t) := by
  rw [partOf_setStep, if_pos rfl]
  exact stripeOf_append_new (y := firstPartial s a g sub t) ho

end

/-- Settles O26: the context switch, a page with one new row, and the first page of a stripe member. -/
theorem contextsAndPages : Obligations.ContextsAndPages := by
  unfold Obligations.ContextsAndPages
  intro s e lend out inc p slot page n i x sub b g a ent t
  refine ⟨?_, ?_, ?_⟩
  · intro _ ho hi
    refine ⟨fun hb => ?_, fun hb hr => ?_, fun u hb hr hu hs => ?_⟩
    · exact congrArg Host.Outcome.next ((contextSwitch_of_contexts ho hi).trans (if_pos hb))
    · exact congrArg Host.Outcome.next ((contextSwitch_of_contexts ho hi).trans ((if_neg (not_not_intro hb)).trans (if_neg (by simp [hr]))))
    · refine congrArg Host.Outcome.next ((contextSwitch_of_contexts ho hi).trans ((if_neg (not_not_intro hb)).trans ((if_pos (by simp [hr, hu])).trans ?_)))
      rw [hs]
  · intro q sl old at' draft h d c hq hn hi hsh hit hx he hc hp hpw hl hg hw
    have law := kvPageWrite_of_read (rows := { rows := [(i, b)] }) hq hn hi hpw (readPage_tierL hx he hc hp hpw hl hg)
    rw [hsh] at law
    dsimp only at law
    obtain ⟨u, hu, hmem⟩ := tierWriteGo_tierL (s := s) (w := { rq := pageReq q p, x := x, t := at'
                                                               tile := placeRows sl draft h d c { hdr := old.hdr, payload := old.payload } [(i, b)] })
      he (congrArg Prod.fst hp) hw
    rw [hu] at law
    have hpay := placeRows_payload sl draft h d c i { hdr := old.hdr, payload := old.payload } b hit
    rw [hp, hc] at hmem
    refine ⟨_, congrArg Host.Outcome.next law, ?_⟩
    have hnew := (lTile_congr (u := setStep { s with tier := u } p fun st => { st with
      kvWritten := st.kvWritten ++ [(i, b)].map fun r => (slot, page, r.1) }) hmem n).trans (lTile_putL_same ..)
    refine ⟨fun hk => ?_, fun hk => ?_, ?_, ?_, ?_, ?_, fun k hk => ?_, ?_, rfl⟩
    · exact (congrArg LTile.payload hnew).trans (hpay.trans (if_pos hk))
    · exact (congrArg LTile.payload hnew).trans (hpay.trans (if_neg (Nat.not_le.2 hk)))
    · exact congrArg (fun y : LTile => y.hdr.tenant) hnew
    · exact congrArg (fun y : LTile => y.hdr.cls) hnew
    · exact congrArg (fun y : LTile => y.hdr.format) hnew
    · exact congrArg LTile.dirty hnew
    · exact (lTile_congr (u := setStep { s with tier := u } p _) hmem k).trans (lTile_putL_other _ _ _ _ _ hk)
    · rw [partOf_setStep, if_pos rfl]
      rfl
  · intro q sl h d pt w place own row part y hq hd hf hn hi hh hwp hp ho hwait hr
    have law := attentionPage_of_first hq hd hf hn hi hh hwp hp ho hwait hr
    refine ⟨⟨_, congrArg Host.Outcome.next law, ?_, fun z hz hw1 hpos => ?_, ?_, ?_⟩, fun hlast => ?_⟩
    · rw [finishStripe_partials]
      exact stripeOf_firstPartial ho
    · have hpage : a.page = 0 := by
        have : a.page < 1 := hw1 ▸ hwp
        omega
      have hmem : a.page % max 1 g.kvStripe = 0 := by rw [hpage, Nat.zero_mod]
      have hn0 : a.pos / pageTokens g.sec.kvHeads g.sec.headDim = 0 := Nat.div_eq_of_lt hpos
      rw [show max 1 g.kvStripe = 1 from hw1, hn0, finishStripe_single (z := z) hmem hpage hz (stripeOf_firstPartial ho), partOf_setStep, if_pos rfl]
      rfl
    · simp
    · simp
    · exact congrArg Host.Outcome.next (law.trans (finishStripe_of_open hlast))

end Sys2Proof.Machine

/-!
# Conversion reads, anchor retries and the activity level (O17)
-/

namespace Sys2Proof.Machine

/-! ## Bytes of the operand cache -/

theorem pad_append (d r : Bytes) : pad d.length (d ++ r) = d := by
  induction d with
  | nil => rfl
  | cons b d ih => rw [List.cons_append, List.length_cons, pad, ih]

/-- What was spliced in is sliced out. -/
theorem slice_splice_same (bs d : Bytes) (off : Nat) : slice (splice bs off d) off d.length = d := by
  unfold slice splice
  rw [List.append_assoc, List.drop_left' (length_pad off bs), pad_append]

section
variable {x : EngineState} {k off n : Nat} {b : Bytes}

/-- Bytes written into the frame of one offset; the frame holds no tile of the store then. -/
def writeFrame (x : EngineState) (off : Nat) (b : Bytes) : EngineState :=
  { x with
    frames := mmod [] x.frames (off / 16384) fun o => splice (pad 16384 o) (off % 16384) b
    origin := mdel x.origin (off / 16384) }

theorem cacheWrite_nil : cacheWrite x k off [] = x := by cases k <;> rfl

theorem cacheWrite_succ (h : b ≠ []) : cacheWrite x (k + 1) off b =
    cacheWrite (writeFrame x off (b.take (16384 - off % 16384))) k (off + (16384 - off % 16384)) (b.drop (16384 - off % 16384)) := if_neg h

theorem cacheSpan_zero : cacheSpan x k off 0 = [] := by cases k <;> rfl

theorem cacheSpan_succ (h : n ≠ 0) : cacheSpan x (k + 1) off n =
    slice (mget [] x.frames (off / 16384)) (off % 16384) (min n (16384 - off % 16384))
      ++ cacheSpan x k (off + min n (16384 - off % 16384)) (n - min n (16384 - off % 16384)) := if_neg h

theorem slice_writeFrame : slice (mget [] (writeFrame x off b).frames (off / 16384)) (off % 16384) b.length = b := by
  rw [show mget [] (writeFrame x off b).frames (off / 16384) = splice (pad 16384 (mget [] x.frames (off / 16384))) (off % 16384) b from by
    simp [writeFrame]]
  exact slice_splice_same ..

theorem frame_writeFrame_other {f : Nat} (h : f ≠ off / 16384) : mget [] (writeFrame x off b).frames f = mget [] x.frames f := by
  simp [writeFrame, h]

theorem cacheSpan_congr {x y : EngineState} (h : y.frames = x.frames) (k off n : Nat) : cacheSpan y k off n = cacheSpan x k off n := by
  induction k generalizing off n with
  | zero => rfl
  | succ k ih =>
    by_cases hn : n = 0
    · rw [hn, cacheSpan_zero, cacheSpan_zero]
    · rw [cacheSpan_succ hn, cacheSpan_succ hn, h, ih]

/-- Of an engine, bytes written into the cache change its frames and their origin alone. -/
theorem cacheWrite_vregs (x : EngineState) (k off : Nat) (b : Bytes) : (cacheWrite x k off b).vregs = x.vregs := by
  induction k generalizing x off b with
  | zero => rfl
  | succ k ih =>
    by_cases h : b = []
    · rw [h, cacheWrite_nil]
    · rw [cacheWrite_succ h, ih]
      rfl

/-- A run of at most a frame's length lies in at most two frames, and is read as it was written. -/
theorem cacheSpan_cacheWrite (h0 : b ≠ []) (h1 : b.length ≤ 16384) : cacheSpan (cacheWrite x 2 off b) 2 off b.length = b := by
  have hpos : b.length ≠ 0 := fun h => h0 (List.eq_nil_of_length_eq_zero h)
  have hmod : off % 16384 < 16384 := Nat.mod_lt _ (by decide)
  rw [cacheWrite_succ h0, cacheSpan_succ hpos]
  by_cases hm : b.length ≤ 16384 - off % 16384
  · rw [List.drop_eq_nil_of_le hm, cacheWrite_nil, List.take_of_length_le hm, min_eq_left hm, slice_writeFrame, Nat.sub_self, cacheSpan_zero,
      List.append_nil]
  · have hlt : 16384 - off % 16384 ≤ b.length := Nat.le_of_not_le hm
    have hrest : b.drop (16384 - off % 16384) ≠ [] := fun h => hm (List.drop_eq_nil_iff.1 h)
    have hlen : (b.drop (16384 - off % 16384)).length = b.length - (16384 - off % 16384) := List.length_drop
    have hnext : (off + (16384 - off % 16384)) % 16384 = 0 := by omega
    have hframe : off / 16384 ≠ (off + (16384 - off % 16384)) / 16384 := by omega
    have hfirst := slice_writeFrame (x := x) (off := off) (b := b.take (16384 - off % 16384))
    have hsecond := slice_writeFrame (x := writeFrame x off (b.take (16384 - off % 16384))) (off := off + (16384 - off % 16384))
      (b := b.drop (16384 - off % 16384))
    rw [List.length_take_of_le hlt] at hfirst
    rw [hlen] at hsecond
    have htake : (b.drop (16384 - off % 16384)).take (16384 - (off + (16384 - off % 16384)) % 16384) = b.drop (16384 - off % 16384) :=
      List.take_of_length_le (by rw [hnext, hlen]; omega)
    have hdrop : (b.drop (16384 - off % 16384)).drop (16384 - (off + (16384 - off % 16384)) % 16384) = [] :=
      List.drop_eq_nil_of_le (by rw [hnext, hlen]; omega)
    rw [cacheWrite_succ hrest, htake, hdrop, cacheWrite_nil, min_eq_right hlt, frame_writeFrame_other hframe, hfirst, cacheSpan_succ (by omega), min_eq_left (by rw [hnext]; omega),
      hsecond, Nat.sub_self, cacheSpan_zero, List.append_nil, List.take_append_drop]

end

theorem length_cellRecord (c : Cell) : c.record.length = 16 := by
  simp [Cell.record, length_toLE]

@[simp] theorem length_rowCells (x : EngineState) (r : Nat) : (rowCells x r).length = 512 := by
  rw [rowCells, List.length_map, List.length_range]

theorem length_rowRecords (x : EngineState) (r : Nat) : ((rowCells x r).flatMap Cell.record).length = 8192 := by
  rw [List.length_flatMap, List.map_congr_left fun c _ => length_cellRecord c, List.map_const', List.sum_replicate, length_rowCells]
  rfl

/-! ## A read of a row (R107, R128, R134) -/

section
variable {s : State} {c : ConvRead} {sh : Share}

theorem conversionRead_of_float (hc : contextShare (engOf s c.engine) c.ctx = some sh) (hr : inRows sh c.row 1 = true) (hf : c.fmt ≠ 0x10)
    (hv : inVregs sh c.dst = true) : conversionRead s c = conversion s c sh := by
  unfold conversionRead
  rw [hc]
  dsimp only
  rw [hr, hv, if_neg hf, Bool.not_true, if_neg Bool.false_ne_true, if_neg Bool.false_ne_true]

theorem conversionRead_of_spill (hc : contextShare (engOf s c.engine) c.ctx = some sh) (hr : inRows sh c.row 1 = true) (hk : c.chk = {})
    (hf : c.fmt = 0x10) (hv : inFrames sh c.dst 8192 = true) : conversionRead s c = setEng s c.engine fun x => spillRow x c := by
  have hnone : c.chk.fault = none := by rw [hk]
  unfold conversionRead
  rw [hc]
  dsimp only
  rw [hr, hv, if_pos hf, hnone, Bool.not_true, if_neg Bool.false_ne_true, if_neg Bool.false_ne_true]

/-- The output tiles of a row that overflow for the first time in the step. -/
def freshTiles (x : EngineState) (r : Nat) : List TileIdx := (overflowTiles x r).filter fun t => (mfind x.raised t.toNat).isNone

theorem conversion_of_fresh (h : freshTiles (engOf s c.engine) c.row ≠ []) :
    conversion s c sh = (freshTiles (engOf s c.engine) c.row).foldl (fun s t => raiseAnchor s c.engine sh t) s := by
  unfold freshTiles at h
  unfold conversion freshTiles
  exact if_pos h

theorem conversion_of_old (hk : c.chk = {}) (h : freshTiles (engOf s c.engine) c.row = []) : conversion s c sh =
    setEng ((overflowTiles (engOf s c.engine) c.row).foldl (fun s t => saturateTile s c.engine t) s) c.engine fun x => convertRow x c := by
  have hnone : c.chk.fault = none := by rw [hk]
  unfold freshTiles at h
  unfold conversion
  dsimp only
  rw [if_neg (not_not_intro h), hnone]

theorem convertRow_vregs (x : EngineState) (c : ConvRead) : (convertRow x c).vregs =
    (putVreg x c.dst ((rowCells x c.row).map fun k => w32 (convert c.fmt c.outAnchor (k.val (cellAnchor x k)) false))).vregs := by
  unfold convertRow
  dsimp only
  generalize (rowCells x c.row) = l
  split <;> rfl

/-- The faults that a conversion finds are those found before it. -/
theorem convertRow_faults (x : EngineState) (c : ConvRead) : (convertRow x c).saturated = x.saturated ∧ (convertRow x c).faults = x.faults
    ∧ (convertRow x c).firstFault = x.firstFault := by
  unfold convertRow
  dsimp only
  generalize (rowCells x c.row) = l
  split <;> exact ⟨rfl, rfl, rfl⟩

/-- Whether the read releases the row: its cells stay, or the row is no longer live. -/
theorem convertRow_release (x : EngineState) (c : ConvRead) : (c.release = false → (convertRow x c).acc = x.acc)
    ∧ (c.release = true → c.row ∉ (convertRow x c).live) := by
  unfold convertRow
  dsimp only
  generalize (rowCells x c.row) = l
  refine ⟨fun h => ?_, fun h => ?_⟩
  · rw [h]
    rfl
  · rw [h]
    exact fun hm => (mem_without.1 hm).2 rfl

theorem spillRow_parts (x : EngineState) (c : ConvRead) :
    (spillRow x c).frames = (cacheWrite x 2 c.dst ((rowCells x c.row).flatMap Cell.record)).frames ∧ (spillRow x c).vregs = x.vregs := by
  unfold spillRow
  generalize ((rowCells x c.row).flatMap Cell.record) = b
  refine ⟨?_, Eq.trans ?_ (cacheWrite_vregs x 2 c.dst b)⟩
  · dsimp only
    split <;> rfl
  · dsimp only
    split <;> rfl

theorem vregOf_congr {x y : EngineState} (h : y.vregs = x.vregs) (r : Nat) : vregOf y r = vregOf x r := by
  unfold vregOf
  rw [h]

theorem vregOf_putVreg_other {x : EngineState} {r d : Nat} (ws : List Word) (h : r ≠ d) : vregOf (putVreg x d ws) r = vregOf x r := by
  simp [vregOf, putVreg, h]

/-- The words written to a register are read there. -/
theorem getD_vregOf_putVreg {x : EngineState} {d i : Nat} (ws : List Word) (h : i < ws.length) (hw : ws.length ≤ 1024) :
    (vregOf (putVreg x d ws) d).getD i 0 = ws.getD i 0 := by
  have hi : i < ((ws ++ (vregOf x d).drop ws.length).take 1024).length := by
    rw [List.length_take, List.length_append]
    omega
  have hv : vregOf (putVreg x d ws) d = (ws ++ (vregOf x d).drop ws.length).take 1024
      ++ List.replicate (1024 - ((ws ++ (vregOf x d).drop ws.length).take 1024).length) 0 := by
    show mget [] (mput [] x.vregs d _) d ++ List.replicate (1024 - (mget [] (mput [] x.vregs d _) d).length) 0 = _
    rw [mget_mput, if_pos rfl]
  rw [hv, List.getD_append _ _ _ _ hi, List.getD_eq_getElem?_getD, List.getElem?_take_of_lt (by omega), List.getElem?_append_left h,
    List.getD_eq_getElem?_getD]

theorem getD_rowCells (x : EngineState) (r : Nat) (f : Cell → Word) {i : Nat} (h : i < 512) :
    ((rowCells x r).map f).getD i 0 = f (accCell x r i) := by
  simp [rowCells, List.getD_eq_getElem?_getD, h]

end

/-! ## The first overflow of a tile (R110, R111) -/

/-- The engine after an output tile's first overflow of the step. -/
def raisedEngine (x : EngineState) (t : TileIdx) : EngineState :=
  { discardTile x t with
    raised := mins x.raised t.toNat (mget 0 x.anchors t.toNat + 32), retrying := withLast t.toNat x.retrying
    retries := x.retries + 1, cntRaised := x.cntRaised + 1 }

theorem engOf_congr {s t : State} (h : t.engines = s.engines) (e : Engine) : engOf t e = engOf s e := by
  unfold engOf
  rw [h]

theorem engOf_raiseAnchor (s : State) (e : Engine) (sh : Share) (t : TileIdx) : engOf (raiseAnchor s e sh t) e = raisedEngine (engOf s e) t := by
  have law : (raiseAnchor s e sh t).engines = (setEng s e fun x => { discardTile x t with
      raised := mins x.raised t.toNat (mget 0 (engOf s e).anchors t.toNat + 32), retrying := withLast t.toNat x.retrying
      retries := x.retries + 1, cntRaised := x.cntRaised + 1 }).engines := by
    unfold raiseAnchor
    dsimp only
    rw [(logEvent_frame _ _).2.2.2.1]
    split <;> simp
  rw [engOf_congr law, engOf_setEng, if_pos rfl]
  rfl

theorem engOf_raiseAnchors (e : Engine) (sh : Share) (l : List TileIdx) (s : State) :
    engOf (l.foldl (fun s t => raiseAnchor s e sh t) s) e = l.foldl raisedEngine (engOf s e) := by
  induction l generalizing s with
  | nil => rfl
  | cons t l ih => rw [List.foldl_cons, ih, engOf_raiseAnchor, List.foldl_cons]

section
variable {x : EngineState} {l : List TileIdx} {k : TileIdx}

theorem raisedEngines_vregs : (l.foldl raisedEngine x).vregs = x.vregs :=
  foldl_keeps (f := raisedEngine) EngineState.vregs (fun _ _ => rfl) l x

theorem raisedEngines_retries : (l.foldl raisedEngine x).retries = x.retries + l.length := by
  induction l generalizing x with
  | nil => rfl
  | cons t l ih =>
    rw [List.foldl_cons, ih, List.length_cons, show (raisedEngine x t).retries = x.retries + 1 from rfl]
    omega

theorem raisedEngines_raised_other (h : k ∉ l) : mfind (l.foldl raisedEngine x).raised k.toNat = mfind x.raised k.toNat := by
  induction l generalizing x with
  | nil => rfl
  | cons t l ih =>
    obtain ⟨ht, hl⟩ := not_or.1 (mt List.mem_cons.2 h)
    rw [List.foldl_cons, ih hl]
    simp [raisedEngine, BitVec.toNat_inj, ht]

/-- Each tile of the list stands at its raised anchor. -/
theorem raisedEngines_raised (hn : l.Nodup) (h : k ∈ l) : mfind (l.foldl raisedEngine x).raised k.toNat = some (mget 0 x.anchors k.toNat + 32) := by
  induction l generalizing x with
  | nil => cases h
  | cons t l ih =>
    obtain ⟨ht, hl⟩ := List.nodup_cons.1 hn
    rw [List.foldl_cons]
    by_cases he : k = t
    · rw [he, raisedEngines_raised_other ht]
      simp [raisedEngine]
    · rw [ih hl ((List.mem_cons.1 h).resolve_left he)]
      simp [raisedEngine, discardTile, BitVec.toNat_inj, he]

theorem raisedEngines_retrying (h : k ∈ l ∨ k.toNat ∈ x.retrying) : k.toNat ∈ (l.foldl raisedEngine x).retrying := by
  induction l generalizing x with
  | nil => exact h.resolve_left List.not_mem_nil
  | cons t l ih =>
    refine ih ?_
    rcases h with h | h
    · rcases List.mem_cons.1 h with h | h
      · exact .inr (mem_withLast.2 (.inl (congrArg BitVec.toNat h)))
      · exact .inl h
    · exact .inr (mem_withLast.2 (.inr h))

theorem tileLive_discardTile (x : EngineState) (t k : TileIdx) (h : k = t ∨ tileLive x k = false) : tileLive (discardTile x t) k = false := by
  refine List.any_eq_false.2 fun e he => ?_
  obtain ⟨hm, ht⟩ := List.mem_filter.1 he
  rcases h with rfl | h
  · simpa using ht
  · exact List.any_eq_false.1 h e hm

/-- No cell of a tile of the list is left. -/
theorem raisedEngines_dead (h : k ∈ l ∨ tileLive x k = false) : tileLive (l.foldl raisedEngine x) k = false := by
  induction l generalizing x with
  | nil => exact h.resolve_left List.not_mem_nil
  | cons t l ih =>
    refine ih ?_
    rcases h with h | h
    · rcases List.mem_cons.1 h with h | h
      · exact .inr (tileLive_discardTile x t k (.inl h))
      · exact .inl h
    · exact .inr (tileLive_discardTile x t k (.inr h))

end

/-! ## A further overflow (R112) -/

/-- The engine after a tile that overflows at its raised anchor. -/
def saturatedEngine (x : EngineState) (t : TileIdx) : EngineState :=
  { x with
    acc := x.acc.map fun c => if c.2.of t then (c.1, c.2.saturate) else c
    saturated := withLast t.toNat x.saturated
    satRows := (x.acc.filterMap fun c => if c.2.of t && c.2.overflows then c.2.home.map fun h => (t.toNat, h.2) else none).foldl
      (fun l r => withLast r l) x.satRows
    faults := x.faults + 1
    firstFault := x.firstFault.orElse fun _ => some (0x13, 0xFFFF) }

theorem engOf_saturateTile (s : State) (e : Engine) (t : TileIdx) : engOf (saturateTile s e t) e = saturatedEngine (engOf s e) t := by
  simp [saturateTile, noteFault, saturatedEngine]

theorem engOf_saturateTiles (e : Engine) (l : List TileIdx) (s : State) :
    engOf (l.foldl (fun s t => saturateTile s e t) s) e = l.foldl saturatedEngine (engOf s e) := by
  induction l generalizing s with
  | nil => rfl
  | cons t l ih => rw [List.foldl_cons, ih, engOf_saturateTile, List.foldl_cons]

section
variable {x : EngineState} {l : List TileIdx} {k : TileIdx}

theorem saturatedEngines_saturated (h : k ∈ l ∨ k.toNat ∈ x.saturated) : k.toNat ∈ (l.foldl saturatedEngine x).saturated := by
  induction l generalizing x with
  | nil => exact h.resolve_left List.not_mem_nil
  | cons t l ih =>
    refine ih ?_
    rcases h with h | h
    · rcases List.mem_cons.1 h with h | h
      · exact .inr (mem_withLast.2 (.inl (congrArg BitVec.toNat h)))
      · exact .inl h
    · exact .inr (mem_withLast.2 (.inr h))

theorem saturatedEngines_faults : (l.foldl saturatedEngine x).faults = x.faults + l.length := by
  induction l generalizing x with
  | nil => rfl
  | cons t l ih =>
    rw [List.foldl_cons, ih, List.length_cons, show (saturatedEngine x t).faults = x.faults + 1 from rfl]
    omega

theorem saturatedEngines_firstFault_some {f : BitVec 8 × BitVec 16} (h : x.firstFault = some f) : (l.foldl saturatedEngine x).firstFault = some f := by
  induction l generalizing x with
  | nil => exact h
  | cons t l ih => exact ih (by simp [saturatedEngine, h])

theorem saturatedEngines_firstFault (hl : l ≠ []) (h : x.firstFault = none) : (l.foldl saturatedEngine x).firstFault = some (0x13, 0xFFFF) := by
  cases l with
  | nil => exact absurd rfl hl
  | cons t l =>
    have first : (saturatedEngine x t).firstFault = some (0x13, 0xFFFF) := by simp [saturatedEngine, h]
    rw [List.foldl_cons]
    exact saturatedEngines_firstFault_some first

end

/-! ## The retry of a tile (R111) -/

theorem anchorRetryDone_of_retrying {s : State} {c : ConvRead} {sh : Share} (h : c.tile.toNat ∈ (engOf s c.engine).retrying)
    (hc : contextShare (engOf s c.engine) c.ctx = some sh) : anchorRetryDone s c =
      let u := setEng s c.engine fun y => { y with retrying := y.retrying.filter fun z => decide (z ≠ c.tile.toNat) }
      if operandsGone s (engOf s c.engine) c.tile = true then u else conversionRead (rerunTile u c.engine sh c.tile) c := by
  have hu : contextShare (engOf (setEng s c.engine fun y => { y with retrying := without c.tile.toNat y.retrying }) c.engine) c.ctx = some sh := by
    rw [engOf_setEng, if_pos rfl]
    exact hc
  refine (if_pos h).trans ?_
  dsimp only
  rw [hu]
  rfl

/-- Settles O17: the converted row, the spill records, the first overflow, the further one, the retry, and the level of the feeder. -/
theorem conversionReadsAndActivity : Obligations.ConversionReadsAndActivity := by
  unfold Obligations.ConversionReadsAndActivity
  intro s c sh e gap
  refine ⟨?_, ⟨rfl, rfl, rfl⟩, ?_⟩
  · intro x ovf hc hr hk
    refine ⟨fun hf hv => ⟨fun ho => ?_, fun ho => ?_, fun ho hold => ?_⟩, fun hf hv => ?_, fun hret => ⟨fun hg => ?_, fun hg => ?_⟩⟩
    · have hfresh : freshTiles x c.row = [] := by
        unfold freshTiles
        rw [show overflowTiles x c.row = [] from ho]
        rfl
      have law : conversionRead s c = setEng s c.engine fun x => convertRow x c := by
        rw [conversionRead_of_float hc hr hf hv, conversion_of_old hk hfresh, show overflowTiles (engOf s c.engine) c.row = [] from ho]
        rfl
      have hx : engOf (setEng s c.engine fun x => convertRow x c) c.engine = convertRow x c := by rw [engOf_setEng, if_pos rfl]
      refine ⟨_, congrArg Host.Outcome.next law, fun i hi => ?_, fun r hd => ?_, fun hrel => ?_, fun hrel => ?_, fun g hg => ?_, rfl⟩
      · rw [hx, vregOf_congr (convertRow_vregs x c), getD_vregOf_putVreg _ (by rw [List.length_map, length_rowCells]; exact hi)
          (by rw [List.length_map, length_rowCells]; decide), getD_rowCells _ _ _ hi]
      · rw [hx, vregOf_congr (convertRow_vregs x c), vregOf_putVreg_other _ hd]
      · rw [hx]
        exact (convertRow_release x c).1 hrel
      · rw [hx]
        exact (convertRow_release x c).2 hrel
      · rw [engOf_setEng, if_neg hg]
    · have hfresh : freshTiles x c.row ≠ [] := by
        obtain ⟨k, hk, hn⟩ := ho
        exact List.ne_nil_of_mem (List.mem_filter.2 ⟨hk, by simp [hn]⟩)
      have mem {k : TileIdx} (hk : k ∈ ovf) (hn : mfind x.raised k.toNat = none) : k ∈ freshTiles x c.row := List.mem_filter.2 ⟨hk, by simp [hn]⟩
      have law := (conversionRead_of_float hc hr hf hv).trans (conversion_of_fresh hfresh)
      have hx := engOf_raiseAnchors c.engine sh (freshTiles x c.row) s
      refine ⟨_, congrArg Host.Outcome.next law, fun k hk hn => ⟨?_, ?_, ?_⟩, ?_, ?_⟩
      · exact (congrArg (fun y : EngineState => mfind y.raised k.toNat) hx).trans (raisedEngines_raised ((List.nodup_dedup _).filter _) (mem hk hn))
      · exact (congrArg (fun y : EngineState => k.toNat ∈ y.retrying) hx).mpr (raisedEngines_retrying (.inl (mem hk hn)))
      · exact (congrArg (fun y : EngineState => tileLive y k) hx).trans (raisedEngines_dead (.inl (mem hk hn)))
      · exact (congrArg EngineState.retries hx).trans raisedEngines_retries
      · exact (congrArg EngineState.vregs hx).trans raisedEngines_vregs
    · have hfresh : freshTiles x c.row = [] := List.filter_eq_nil_iff.2 fun k hk => by simpa using hold k hk
      have law := (conversionRead_of_float hc hr hf hv).trans (conversion_of_old hk hfresh)
      obtain ⟨hs, hfl, hff⟩ := convertRow_faults (ovf.foldl saturatedEngine x) c
      have hx : engOf (setEng (ovf.foldl (fun s t => saturateTile s c.engine t) s) c.engine fun x => convertRow x c) c.engine
          = convertRow (ovf.foldl saturatedEngine x) c := by
        rw [engOf_setEng, if_pos rfl, engOf_saturateTiles]
      refine ⟨_, congrArg Host.Outcome.next law, fun k hk => ?_, ?_, fun hn => ?_⟩
      · exact (congrArg (fun y : EngineState => k.toNat ∈ y.saturated) hx).mpr
          ((congrArg (k.toNat ∈ ·) hs).mpr (saturatedEngines_saturated (.inl hk)))
      · exact (congrArg EngineState.faults hx).trans (hfl.trans saturatedEngines_faults)
      · exact (congrArg EngineState.firstFault hx).trans (hff.trans (saturatedEngines_firstFault ho hn))
    · have hx : engOf (setEng s c.engine fun x => spillRow x c) c.engine = spillRow x c := by rw [engOf_setEng, if_pos rfl]
      have hlen := length_rowRecords x c.row
      have hread := cacheSpan_cacheWrite (x := x) (off := c.dst) (List.ne_nil_of_length_pos (by omega)) (hlen.le.trans (by decide))
      rw [hlen] at hread
      refine ⟨_, congrArg Host.Outcome.next (conversionRead_of_spill hc hr hk hf hv), ?_, ?_, fun g hg => ?_, rfl⟩
      · rw [hx]
        exact (cacheSpan_congr (spillRow_parts x c).1 2 c.dst 8192).trans hread
      · rw [hx]
        exact (spillRow_parts x c).2
      · rw [engOf_setEng, if_neg hg]
    · exact congrArg Host.Outcome.next ((anchorRetryDone_of_retrying hret hc).trans (if_neg (Bool.eq_false_iff.1 hg)))
    · exact congrArg Host.Outcome.next ((anchorRetryDone_of_retrying hret hc).trans (if_pos hg))
  · have hx : engOf (activityStep s e) e = { engOf s e with
        level := if (engOf s e).level < (engOf s e).levelTarget then (engOf s e).level + 1
          else if (engOf s e).levelTarget < (engOf s e).level then (engOf s e).level - 1 else (engOf s e).level } := by
      rw [activityStep, engOf_setEng, if_pos rfl]
    refine ⟨_, rfl, fun h => ?_, fun h => ?_, fun h => ?_, ?_⟩
    · rw [hx, if_pos h]
    · rw [hx, if_neg (Nat.lt_asymm h), if_pos h]
      exact Nat.succ_pred_eq_of_pos (Nat.lt_of_le_of_lt (Nat.zero_le _) h)
    · rw [hx, if_neg (by omega), if_neg (by omega)]
    · rw [hx]
      exact congrArg (fun v => { s with engines := { s.engines with engine := mput {} s.engines.engine e.val v } }) rfl

end Sys2Proof.Machine

/-!
# Vector operations write their row (O18)
-/

namespace Sys2Proof.Machine

/-! ## Rows in vector registers (R127) -/

section
variable {x : EngineState}

theorem length_vregOf (x : EngineState) (r : Nat) : 1024 ≤ (vregOf x r).length := by
  unfold vregOf
  rw [List.length_append, List.length_replicate]
  omega

/-- A register after words were written to it from element 0 on. -/
theorem vregOf_putVreg_same (x : EngineState) (r : Nat) (ws : List Word) :
    vregOf (putVreg x r ws) r = (ws ++ (vregOf x r).drop ws.length).take 1024 := by
  have hlen := length_vregOf x r
  have full : ((ws ++ (vregOf x r).drop ws.length).take 1024).length = 1024 := by
    rw [List.length_take, List.length_append, List.length_drop]
    omega
  show mget [] (mput [] x.vregs r _) r ++ List.replicate (1024 - (mget [] (mput [] x.vregs r _) r).length) 0 = _
  rw [mget_mput, if_pos rfl, full]
  exact List.append_nil _

theorem vregOf_putRow_other {r k q : Nat} (ws : List Word) (h : q < r ∨ r + k ≤ q) : vregOf (putRow x r k ws) q = vregOf x q := by
  induction k generalizing x r ws with
  | zero => rfl
  | succ k ih =>
    rw [putRow, ih _ (by omega)]
    exact vregOf_putVreg_other _ (by omega)

theorem putRow_acc (x : EngineState) (r k : Nat) (ws : List Word) : (putRow x r k ws).acc = x.acc := by
  induction k generalizing x r ws with
  | zero => rfl
  | succ k ih => exact ih ..

/-- A row that fits its registers is read from them as it was written. -/
theorem take_putRow {r k : Nat} {ws : List Word} (h : ws.length ≤ 1024 * k) :
    ((List.range k).flatMap fun i => vregOf (putRow x r k ws) (r + i)).take ws.length = ws := by
  induction k generalizing x r ws with
  | zero => simp [List.eq_nil_of_length_eq_zero (Nat.le_zero.1 h)]
  | succ k ih =>
    have rest := ih (x := putVreg x r (ws.take 1024)) (r := r + 1) (ws := ws.drop 1024) (by rw [List.length_drop]; omega)
    have first : vregOf (putRow x r (k + 1) ws) (r + 0) = (ws.take 1024 ++ (vregOf x r).drop (ws.take 1024).length).take 1024 := by
      rw [putRow, vregOf_putRow_other _ (.inl (by omega))]
      exact vregOf_putVreg_same ..
    have shift : ((List.range k).map Nat.succ).flatMap (fun i => vregOf (putRow x r (k + 1) ws) (r + i))
        = (List.range k).flatMap fun i => vregOf (putRow (putVreg x r (ws.take 1024)) (r + 1) k (ws.drop 1024)) (r + 1 + i) := by
      rw [List.flatMap_map]
      exact List.flatMap_congr fun i _ => by rw [show r + 1 + i = r + i.succ by omega, putRow]
    rw [List.range_succ_eq_map, List.flatMap_cons, first, shift]
    by_cases hw : ws.length ≤ 1024
    · rw [List.take_of_length_le hw, List.take_append_of_le_length (by rw [List.length_take, List.length_append]; omega),
        List.take_take, min_eq_left hw, List.take_left']
      rfl
    · have hfull : (ws.take 1024).length = 1024 := List.length_take_of_le (by omega)
      rw [List.take_left' hfull, List.take_append, hfull, List.take_of_length_le (by omega), ← List.length_drop, rest, List.take_append_drop]

theorem length_vrow (x : EngineState) (r n : Nat) : (vrow x r n).length = n := by
  have regs (k : Nat) : 1024 * k ≤ ((List.range k).flatMap fun i => vregOf x (r + i)).length := by
    induction k with
    | zero => exact Nat.zero_le _
    | succ k ih =>
      have := length_vregOf x (r + k)
      rw [List.range_succ, List.flatMap_append, List.length_append, List.flatMap_singleton]
      omega
  have := regs (rowRegs n)
  unfold vrow rowRegs at *
  rw [List.length_take]
  omega

theorem vrow_putRow {r n : Nat} {ws : List Word} (h : ws.length = n) : vrow (putRow x r (rowRegs n) ws) r n = ws := by
  subst h
  exact take_putRow (by unfold rowRegs; omega)

theorem length_zip3 (f : Word → Word → Word → Word) {a b c : List Word} {n : Nat} (ha : a.length = n) (hb : b.length = n) (hc : c.length = n) :
    (zip3 f a b c).length = n := by
  induction n generalizing a b c with
  | zero => rw [List.eq_nil_of_length_eq_zero ha]; rfl
  | succ n ih =>
    obtain ⟨x, a, rfl⟩ := List.exists_cons_of_length_eq_add_one ha
    obtain ⟨y, b, rfl⟩ := List.exists_cons_of_length_eq_add_one hb
    obtain ⟨z, c, rfl⟩ := List.exists_cons_of_length_eq_add_one hc
    exact congrArg Nat.succ (ih (Nat.succ.inj ha) (Nat.succ.inj hb) (Nat.succ.inj hc))

end

/-! ## An operation inside its share (R126, R132) -/

section
variable {s : State} {e : Engine} {ctx : Bool} {sh : Share} {t : Touch} {f : Share → EngineState → EngineState}

/-- Words that no upset has touched are read as they are. -/
theorem readWords_of_clean {k : OpChecks} (regs cache : Nat → Bool) (hr : k.regs = []) (hc : k.cache = []) : readWords s e k regs cache = (s, true) :=
  if_pos (by simp [hr, hc])

theorem vectorOp_of_inside (hc : contextShare (engOf s e) ctx = some sh) (ht : t.outside sh = none) :
    vectorOp s e ctx {} t f = setEng s e (f sh) := by
  unfold vectorOp
  rw [hc]
  dsimp only
  rw [ht]
  rfl

theorem vectorOp_of_fault {x : BitVec 8 × BitVec 16} (hc : contextShare (engOf s e) ctx = some sh) (ht : t.outside sh = none) :
    vectorOp s e ctx { fault := some x } t f = noteFault s e x := by
  unfold vectorOp
  rw [hc]
  dsimp only
  rw [ht]
  rfl

theorem vectorOp_of_outside {k : OpChecks} {y : Nat} (hc : contextShare (engOf s e) ctx = some sh) (ht : t.outside sh = some y) :
    vectorOp s e ctx k t f = violate s e sh y := by
  unfold vectorOp
  rw [hc]
  dsimp only
  rw [ht]

/-- What an operation touches lies in the share. -/
theorem outside_eq_none (hr : ∀ r ∈ t.srcs ++ t.dsts, regsIn sh r.1 (rowRegs r.2) = true) (hm : ∀ r ∈ t.reads ++ t.writes, inFrames sh r.1 r.2 = true) :
    t.outside sh = none := by
  have h1 : ((t.srcs ++ t.dsts).find? fun r => !regsIn sh r.1 (rowRegs r.2)) = none :=
    List.find?_eq_none.2 fun r h => by simp [hr r h]
  have h2 : ((t.reads ++ t.writes).find? fun r => !inFrames sh r.1 r.2) = none :=
    List.find?_eq_none.2 fun r h => by simp [hm r h]
  unfold Touch.outside
  rw [h1, h2]
  rfl

/-- Engine e alone has changed, and of its registers and accumulator the row of n elements from register d on, which is l. -/
def WroteRow (s : State) (e : Engine) (d n : Nat) (l : List Word) (t : State) : Prop :=
  vrow (engOf t e) d n = l ∧ (∀ r, r < d ∨ d + rowRegs n ≤ r → vregOf (engOf t e) r = vregOf (engOf s e) r)
    ∧ (engOf t e).acc = (engOf s e).acc ∧ (∀ e', e' ≠ e → engOf t e' = engOf s e') ∧ t = { s with engines := t.engines }

theorem wroteRow_of_putRow {g : EngineState → EngineState} {y : EngineState} {d n : Nat} {l : List Word}
    (hg : g (engOf s e) = putRow y d (rowRegs n) l) (hv : y.vregs = (engOf s e).vregs) (ha : y.acc = (engOf s e).acc) (hl : l.length = n) :
    WroteRow s e d n l (setEng s e g) := by
  have hx : engOf (setEng s e g) e = putRow y d (rowRegs n) l := by rw [engOf_setEng, if_pos rfl, hg]
  refine ⟨?_, fun r hr => ?_, ?_, fun e' he => ?_, rfl⟩
  · rw [hx, vrow_putRow hl]
  · rw [hx, vregOf_putRow_other _ hr, vregOf_congr hv]
  · rw [hx, putRow_acc, ha]
  · rw [engOf_setEng, if_neg he]

/-- An operation inside its share that writes a row. -/
theorem vectorOp_wroteRow {d n : Nat} {l : List Word} (hc : contextShare (engOf s e) ctx = some sh) (ht : t.outside sh = none)
    (hg : f sh (engOf s e) = putRow (engOf s e) d (rowRegs n) l) (hl : l.length = n) : WroteRow s e d n l (vectorOp s e ctx {} t f) := by
  rw [vectorOp_of_inside hc ht]
  exact wroteRow_of_putRow hg rfl rfl hl

end

/-! ## Element-wise operations and egress (Tables 6.1 and 6.2) -/

/-- The row that an operation other than a store and an egress gives. -/
def VecOp.row (v : VecOp) (sh : Share) (x : EngineState) : List Word :=
  match v.kind with
  | .load f addr => loadRow x sh f addr v.n
  | k => zip3 (vecElem k) (vrow x v.a v.n) (vrow x v.b v.n) (vrow x v.c v.n)

section
variable {s : State} {v : VecOp} {sh : Share}

theorem VecOp.length_row (v : VecOp) (sh : Share) (x : EngineState) : (v.row sh x).length = v.n := by
  unfold VecOp.row
  split
  · simp [loadRow]
  · exact length_zip3 _ (length_vrow ..) (length_vrow ..) (length_vrow ..)

theorem VecOp.row_load {f : BitVec 8} {addr : Nat} (h : v.kind = .load f addr) (x : EngineState) : v.row sh x = loadRow x sh f addr v.n := by
  unfold VecOp.row
  rw [h]

theorem VecOp.row_of_not_load (h : ∀ f addr, v.kind ≠ .load f addr) (x : EngineState) :
    v.row sh x = zip3 (vecElem v.kind) (vrow x v.a v.n) (vrow x v.b v.n) (vrow x v.c v.n) := by
  unfold VecOp.row
  split
  · exact absurd ‹_› (h _ _)
  · rfl

/-- The result of such an operation is its row. -/
theorem VecOp.result_eq (hs : ∀ f a l, v.kind ≠ .store f a l) (hg : ∀ g t h, v.kind ≠ .egress g t h) (sh : Share) (x : EngineState) :
    ∃ y : EngineState, v.result sh x = putRow y v.dst (rowRegs v.n) (v.row sh x) ∧ y.vregs = x.vregs ∧ y.acc = x.acc := by
  unfold VecOp.result
  split
  · rw [VecOp.row_load ‹_›]
    exact ⟨x, rfl, rfl, rfl⟩
  · exact absurd ‹_› (hs _ _ _)
  · exact absurd ‹_› (hg _ _ _)
  · next h _ _ =>
    rw [VecOp.row_of_not_load h]
    exact ⟨_, rfl, rfl, rfl⟩

theorem execVectorOp_of_not_egress (hg : ∀ g t h, v.kind ≠ .egress g t h) :
    execVectorOp v s = .next (vectorOp s v.engine v.ctx v.chk v.touch v.result) := by
  unfold execVectorOp
  split
  · exact absurd ‹_› (hg _ _ _)
  · rfl

theorem VecOp.result_store {f : BitVec 8} {an : Int} {addr : Nat} (h : v.kind = .store f an addr) (sh : Share) (x : EngineState) :
    v.result sh x = storeRow x f an addr (vrow x v.a v.n) := by
  unfold VecOp.result
  rw [h]

section
variable {g : Nat} {ti : TileIdx} {h : TileHeader}

theorem execVectorOp_of_egress (hk : v.kind = .egress g ti h) : execVectorOp v s = .next (egress s v g ti h) := by
  unfold execVectorOp
  rw [hk]

theorem egress_of_inside (hc : contextShare (engOf s v.engine) v.ctx = some sh) (ht : v.touch.outside sh = none) (hk : v.chk = {}) :
    egress s v g ti h = writeOut s v.engine sh ti h (pad 16384 (mget [] (engOf s v.engine).frames g)) none := by
  unfold egress
  rw [hc]
  dsimp only
  rw [ht, hk]
  rfl

theorem egress_of_outside {y : Nat} (hc : contextShare (engOf s v.engine) v.ctx = some sh) (ht : v.touch.outside sh = some y) :
    egress s v g ti h = violate s v.engine sh y := by
  unfold egress
  rw [hc]
  dsimp only
  rw [ht]

/-- An output tile that its partition's share takes. -/
theorem writeOut_of_taken {e : Engine} {p : Bytes} (hi : h.owner = 0x3E ∨ inShare (partOf s sh.part) ti = true) :
    writeOut s e sh ti h p none =
      writeTile s (BitVec.ofNat 6 (e.val / 2)) ti (outTile (engOf s e) sh (partOf s sh.part).step.epoch ti h p) sh.world :=
  if_neg (by rcases hi with hi | hi <;> simp [hi])

end

end

/-! ## The other operations -/

theorem length_rotHalves {l cs sn : List Word} (h : l.length % 2 = 0) : (rotHalves l cs sn).length = l.length := by
  unfold rotHalves
  simp only [List.length_append, List.length_map, List.length_range]
  omega

theorem length_rotAdjacent {k : Nat} {l cs sn : List Word} (hl : l.length = 2 * k) (hc : cs.length = k) (hs : sn.length = k) :
    (rotAdjacent l cs sn).length = 2 * k := by
  induction k generalizing l cs sn with
  | zero => rw [List.eq_nil_of_length_eq_zero hl]; rfl
  | succ k ih =>
    obtain ⟨a, l, rfl⟩ := List.exists_cons_of_length_eq_add_one (n := 2 * k + 1) hl
    obtain ⟨b, l, rfl⟩ := List.exists_cons_of_length_eq_add_one (n := 2 * k) (Nat.succ.inj hl)
    obtain ⟨c, cs, rfl⟩ := List.exists_cons_of_length_eq_add_one hc
    obtain ⟨d, sn, rfl⟩ := List.exists_cons_of_length_eq_add_one hs
    have := ih (l := l) (cs := cs) (sn := sn) (by simpa [Nat.mul_succ] using hl) (Nat.succ.inj hc) (Nat.succ.inj hs)
    simp only [rotAdjacent, List.length_cons, this]
    omega

theorem length_tableRow (x : EngineState) (sh : Share) (t : RotTable) (h : Nat) : (tableRow x sh t h).length = h := by
  simp [tableRow]

theorem rotary_of_beyond {s : State} {w : VecRef} {c t : RotTable} {half : Bool} {sh : Share} (hc : contextShare (engOf s w.engine) w.ctx = some sh)
    (h : c.positions ≤ c.pos) : rotary s w c t half = violate s w.engine sh (elemAddr c.fmt c.addr (c.pos * (w.n / 2))) := by
  have hb : beyondTable [c, t] (w.n / 2) = some (elemAddr c.fmt c.addr (c.pos * (w.n / 2))) := by simp [beyondTable, h]
  unfold rotary
  dsimp only
  rw [hc, hb]

/-- The row with both its tables' rows applied. -/
def rotated (x : EngineState) (sh : Share) (w : VecRef) (c t : RotTable) (half : Bool) : List Word :=
  if half then rotHalves (vrow x w.a w.n) (tableRow x sh c (w.n / 2)) (tableRow x sh t (w.n / 2))
  else rotAdjacent (vrow x w.a w.n) (tableRow x sh c (w.n / 2)) (tableRow x sh t (w.n / 2))

theorem length_rotated {x : EngineState} {sh : Share} {w : VecRef} {c t : RotTable} {half : Bool} (h : w.n % 2 = 0) :
    (rotated x sh w c t half).length = w.n := by
  unfold rotated
  split
  · rw [length_rotHalves (by rw [length_vrow]; exact h), length_vrow]
  · rw [length_rotAdjacent (k := w.n / 2) (by rw [length_vrow]; omega) (length_tableRow ..) (length_tableRow ..)]
    omega

theorem rotary_of_within {s : State} {w : VecRef} {c t : RotTable} {half : Bool} (hc : c.pos < c.positions) (ht : t.pos < t.positions) :
    rotary s w c t half = vectorOp s w.engine w.ctx w.chk
      { srcs := [(w.a, w.n)], dsts := [(w.dst, w.n)]
        reads := [c, t].map fun k => (elemAddr k.fmt k.addr (k.pos * (w.n / 2)), (w.n / 2 * elemSize k.fmt + 7) / 8) }
      fun sh x => putRow x w.dst (rowRegs w.n) (rotated x sh w c t half) := by
  have hb : beyondTable [c, t] (w.n / 2) = none := by simp [beyondTable, Nat.not_le.2 hc, Nat.not_le.2 ht]
  unfold rotary
  dsimp only
  rw [hb]
  cases contextShare (engOf s w.engine) w.ctx <;> rfl

/-- Settles O18: each operation inside its share by what it writes, with a fault by the note, outside by the stop. -/
theorem vectorOperationsWriteTheirRow : Obligations.VectorOperationsWriteTheirRow := by
  unfold Obligations.VectorOperationsWriteTheirRow
  intro s v w sh f d g b frame addr cs sn half eps k x0 an ti h
  refine ⟨?_, ?_⟩
  · intro x frameBytes hc
    refine ⟨fun ht hk => ⟨fun hs hg => ?_, fun hs => ?_, fun hg => ⟨?_, fun hi hshape hfree => ?_⟩⟩, fun ht hk hg => ?_, fun y ht => ?_⟩
    · obtain ⟨y, hy, hv, ha⟩ := VecOp.result_eq hs hg sh x
      have law : execVectorOp v s = .next (setEng s v.engine (v.result sh)) := by
        rw [execVectorOp_of_not_egress hg, hk, vectorOp_of_inside hc ht]
      exact ⟨_, law, wroteRow_of_putRow hy hv ha (VecOp.length_row ..)⟩
    · have hg : ∀ g t h, v.kind ≠ .egress g t h := fun g t h he => by rw [hs] at he; cases he
      have law : execVectorOp v s = .next (setEng s v.engine (v.result sh)) := by
        rw [execVectorOp_of_not_egress hg, hk, vectorOp_of_inside hc ht]
      have res : v.result sh x = storeRow x f an addr (vrow x v.a v.n) := VecOp.result_store hs sh x
      exact law.trans (congrArg (fun y => Host.Outcome.next { s with engines := { s.engines with engine := mput {} s.engines.engine v.engine.val y } }) res)
    · exact (execVectorOp_of_egress hg).trans (congrArg Host.Outcome.next (egress_of_inside hc ht hk))
    · have law := (execVectorOp_of_egress hg).trans (congrArg Host.Outcome.next ((egress_of_inside hc ht hk).trans (writeOut_of_taken hi)))
      have hs : shapeOk (outTile x sh (partOf s sh.part).step.epoch ti h frameBytes).hdr.format
          (outTile x sh (partOf s sh.part).step.epoch ti h frameBytes).hdr.rows.toNat
          (outTile x sh (partOf s sh.part).step.epoch ti h frameBytes).hdr.cols.toNat = true := hshape
      have same := slotOf_writeTile_same (BitVec.ofNat 6 (v.engine.val / 2)) sh.world hs hfree
      refine ⟨_, law, congrArg Slot.payload same, congrArg (fun y : Slot => y.hdr.state) same, congrArg (fun y : Slot => y.hdr.world) same,
        congrArg (fun y : Slot => y.hdr.crc) same, fun ho => ?_, fun y hy => slotOf_writeTile_other _ _ hs hfree hy, (writeTile_frame ..).2.1⟩
      exact (congrArg (fun y : Slot => y.hdr.owner) same).trans (if_neg ho)
    · exact (execVectorOp_of_not_egress hg).trans (by rw [hk, vectorOp_of_fault hc ht])
    · by_cases hg : ∃ g t h, v.kind = .egress g t h
      · obtain ⟨g, t, h, hg⟩ := hg
        exact (execVectorOp_of_egress hg).trans (congrArg Host.Outcome.next (egress_of_outside hc ht))
      · refine (execVectorOp_of_not_egress fun g t h he => hg ⟨g, t, h, he⟩).trans ?_
        exact congrArg Host.Outcome.next (vectorOp_of_outside hc ht)
  · intro x row inTable hc hk ha
    refine ⟨fun hw hd => ?_, fun hw hrs hd => ?_, fun hd h2 hcs hsn => ?_, fun hb => ?_, fun hd hg => ⟨?_, fun hb => ?_⟩, ?_⟩
    · have ht : (Touch.mk [(w.a, w.n)] [(w.dst, 1)] [] []).outside sh = none := outside_eq_none (by simp [ha, hd]) (by simp)
      refine ⟨_, (if_pos hw).trans (by rw [hk]), vectorOp_wroteRow hc ht ?_ rfl⟩
      rfl
    · have ht : (Touch.mk ((List.range w.rows).map fun i => (w.a + i * rowRegs w.n, w.n)) [(w.dst, w.n)] [] []).outside sh = none := by
        refine outside_eq_none ?_ (by simp)
        simp only [List.mem_append, List.mem_map, List.mem_range, List.mem_singleton]
        rintro r (⟨i, hi, rfl⟩ | rfl)
        · exact hrs i hi
        · exact hd
      refine ⟨_, (if_neg hw.ne').trans (by rw [hk]), vectorOp_wroteRow hc ht ?_ (by simp [reduceDown])⟩
      rw [List.map_map]
      rfl
    · obtain ⟨hcp, hcf⟩ := Bool.and_eq_true_iff.1 hcs
      obtain ⟨hsp, hsf⟩ := Bool.and_eq_true_iff.1 hsn
      have ht : (Touch.mk [(w.a, w.n)] [(w.dst, w.n)]
          ([cs, sn].map fun k => (elemAddr k.fmt k.addr (k.pos * (w.n / 2)), (w.n / 2 * elemSize k.fmt + 7) / 8)) []).outside sh = none :=
        outside_eq_none (by simp [ha, hd]) (by simp [hcf, hsf])
      have law := rotary_of_within (s := s) (w := w) (half := half) (of_decide_eq_true hcp) (of_decide_eq_true hsp)
      rw [hk] at law
      exact ⟨_, congrArg Host.Outcome.next law, vectorOp_wroteRow hc ht rfl (length_rotated h2)⟩
    · exact congrArg Host.Outcome.next (rotary_of_beyond hc hb)
    · have ht : (Touch.mk ([(w.a, w.n), (g, w.n)] ++ []) [(w.dst, w.n)] [] []).outside sh = none := outside_eq_none (by simp [ha, hd, hg]) (by simp)
      refine ⟨_, congrArg (fun k => Host.Outcome.next (vectorOp s w.engine w.ctx k _ _)) hk, vectorOp_wroteRow hc ht rfl ?_⟩
      simp [rmsNorm, length_vrow]
    · have ht : (Touch.mk ([(w.a, w.n), (g, w.n)] ++ [(b, w.n)]) [(w.dst, w.n)] [] []).outside sh = none :=
        outside_eq_none (by simp [ha, hd, hg, hb]) (by simp)
      refine ⟨_, congrArg (fun k => Host.Outcome.next (vectorOp s w.engine w.ctx k _ _)) hk, vectorOp_wroteRow hc ht rfl ?_⟩
      exact length_zip3 _ (by rw [List.length_map, length_vrow]) (length_vrow ..) (length_vrow ..)
    · intro n q el hw hd
      have ht : (Touch.mk [(w.a, w.n)] [] [] [(w.dst, (w.n * elemSize f + 7) / 8), (d, (w.n + 31) / 32)]).outside sh = none :=
        outside_eq_none (by simp [ha]) (by simpa using ⟨hw, hd⟩)
      refine (congrArg (fun k => Host.Outcome.next (vectorOp s w.engine w.ctx k _ _)) hk).trans ?_
      rw [vectorOp_of_inside hc ht]
      rfl

end Sys2Proof.Machine

/-!
# The best entries of a selection in rank order (R140, R142, R145)
-/

namespace Sys2Proof.Machine

section
variable {asc : Bool}

/-! ## The rank order -/

theorem ranksBefore_iff {a b : PosEntry} : ranksBefore asc a b = true ↔
    selKey asc b.score < selKey asc a.score ∨ (selKey asc a.score = selKey asc b.score ∧ a.pos < b.pos) := by
  simp [ranksBefore]

theorem ranksBefore_trans {a b c : PosEntry} (h1 : ranksBefore asc a b = true) (h2 : ranksBefore asc b c = true) : ranksBefore asc a c = true := by
  rw [ranksBefore_iff] at *
  omega

theorem ranksBefore_asymm {a b : PosEntry} (h1 : ranksBefore asc a b = true) : ranksBefore asc b a ≠ true := by
  rw [ranksBefore_iff] at h1
  rw [Ne, ranksBefore_iff]
  omega

/-- Of two entries at different positions the one that does not rank after ranks before. -/
theorem ranksBefore_of_not {a b : PosEntry} (hp : a.pos ≠ b.pos) (h : ranksBefore asc a b ≠ true) : ranksBefore asc b a = true := by
  rw [Ne, ranksBefore_iff] at h
  rw [ranksBefore_iff]
  omega

/-! ## All entries in rank order -/

/-- Entries sorted by rank. -/
def rankSort (asc : Bool) (l : List PosEntry) : List PosEntry := l.foldl (fun b e => rankInsert asc e b) []

theorem perm_rankInsert (e : PosEntry) (l : List PosEntry) : (rankInsert asc e l).Perm (e :: l) := by
  induction l with
  | nil => rfl
  | cons x l ih =>
    unfold rankInsert
    split
    · rfl
    · exact (ih.cons x).trans (.swap e x l)

theorem perm_rankSort (l : List PosEntry) : (rankSort asc l).Perm l := by
  have go (l b : List PosEntry) : (l.foldl (fun b e => rankInsert asc e b) b).Perm (b ++ l) := by
    induction l generalizing b with
    | nil => rw [List.append_nil]; rfl
    | cons e l ih => exact (ih _).trans (((perm_rankInsert e b).append_right l).trans List.perm_middle.symm)
  exact go l []

theorem pairwise_rankInsert {e : PosEntry} {l : List PosEntry} (hl : l.Pairwise fun a b => ranksBefore asc a b = true)
    (he : ∀ x ∈ l, e.pos ≠ x.pos) : (rankInsert asc e l).Pairwise fun a b => ranksBefore asc a b = true := by
  induction l with
  | nil => exact List.pairwise_singleton _ e
  | cons x l ih =>
    obtain ⟨hx, hl'⟩ := List.pairwise_cons.1 hl
    unfold rankInsert
    split
    · next h =>
      refine List.pairwise_cons.2 ⟨fun y hy => ?_, hl⟩
      rcases List.mem_cons.1 hy with rfl | hy
      · exact h
      · exact ranksBefore_trans h (hx y hy)
    · next h =>
      refine List.pairwise_cons.2 ⟨fun y hy => ?_, ih hl' fun y hy => he y (List.mem_cons_of_mem x hy)⟩
      rcases List.mem_cons.1 ((perm_rankInsert e l).mem_iff.1 hy) with rfl | hy
      · exact ranksBefore_of_not (he x List.mem_cons_self) h
      · exact hx y hy

/-- The positions of a list of entries are distinct. -/
def PosDistinct (l : List PosEntry) : Prop := l.Pairwise fun a b => a.pos ≠ b.pos

theorem PosDistinct.filter {l : List PosEntry} (h : PosDistinct l) (p : PosEntry → Bool) : PosDistinct (l.filter p) := List.Pairwise.filter p h

theorem pairwise_rankSort {l : List PosEntry} (h : PosDistinct l) : (rankSort asc l).Pairwise fun a b => ranksBefore asc a b = true := by
  have go (l b : List PosEntry) (hb : b.Pairwise fun a b => ranksBefore asc a b = true) (hl : PosDistinct l)
      (hd : ∀ x ∈ b, ∀ y ∈ l, y.pos ≠ x.pos) :
      (l.foldl (fun b e => rankInsert asc e b) b).Pairwise fun a b => ranksBefore asc a b = true := by
    induction l generalizing b with
    | nil => exact hb
    | cons e l ih =>
      obtain ⟨he, hl'⟩ := List.pairwise_cons.1 hl
      refine ih _ (pairwise_rankInsert hb fun x hx => hd x hx e List.mem_cons_self) hl' fun x hx y hy => ?_
      rcases List.mem_cons.1 ((perm_rankInsert e b).mem_iff.1 hx) with rfl | hx
      · exact (he y hy).symm
      · exact hd x hx y (List.mem_cons_of_mem e hy)
  exact go l [] .nil h fun x hx => absurd hx List.not_mem_nil

/-- Only one list of given entries is in rank order. -/
theorem eq_rankSort {l m : List PosEntry} (h : PosDistinct l) (hm : m.Pairwise fun a b => ranksBefore asc a b = true) (hp : m.Perm l) :
    m = rankSort asc l :=
  List.Perm.eq_of_pairwise (le := fun a b => ranksBefore asc a b = true) (fun _ _ _ _ h1 h2 => absurd h2 (ranksBefore_asymm h1)) hm
    (pairwise_rankSort h) (hp.trans (perm_rankSort l).symm)

/-! ## The best k -/

theorem take_rankInsert (k : Nat) (e : PosEntry) (l : List PosEntry) :
    (rankInsert asc e (l.take k)).take k = (rankInsert asc e l).take k := by
  induction l generalizing k with
  | nil => rw [List.take_nil]
  | cons x l ih =>
    cases k with
    | zero => rfl
    | succ k =>
      unfold rankInsert
      rw [List.take_succ_cons]
      dsimp only
      split
      · cases k with
        | zero => rfl
        | succ k => simp [List.take_take]
      · rw [List.take_succ_cons, List.take_succ_cons, ih]

/-- The best k entries are the first k in rank order. -/
theorem bestOf_eq (asc : Bool) (k : Nat) (l : List PosEntry) : bestOf asc k l = (rankSort asc l).take k := by
  have go (l b : List PosEntry) : l.foldl (fun best e => (rankInsert asc e best).take k) (b.take k)
      = (l.foldl (fun b e => rankInsert asc e b) b).take k := by
    induction l generalizing b with
    | nil => rfl
    | cons e l ih => rw [List.foldl_cons, List.foldl_cons, take_rankInsert, ih]
  have := go l []
  rwa [List.take_nil] at this

theorem length_bestOf (k : Nat) (l : List PosEntry) : (bestOf asc k l).length = min k l.length := by
  rw [bestOf_eq, List.length_take, (perm_rankSort l).length_eq]

theorem subperm_bestOf (k : Nat) (l : List PosEntry) : (bestOf asc k l).Subperm l := by
  rw [bestOf_eq]
  exact (List.take_sublist k _).subperm.trans (perm_rankSort l).subperm

theorem pairwise_bestOf {k : Nat} {l : List PosEntry} (h : PosDistinct l) : (bestOf asc k l).Pairwise fun a b => ranksBefore asc a b = true := by
  rw [bestOf_eq]
  exact (pairwise_rankSort h).sublist (List.take_sublist k _)

/-- An entry that is not among the best ranks after all of them. -/
theorem bestOf_before {k : Nat} {l : List PosEntry} (h : PosDistinct l) {e : PosEntry} (he : e ∈ l) (hn : e ∉ bestOf asc k l) :
    ∀ b ∈ bestOf asc k l, ranksBefore asc b e = true := by
  rw [bestOf_eq] at *
  have hsplit := List.take_append_drop k (rankSort asc l)
  have hdrop : e ∈ (rankSort asc l).drop k := by
    have : e ∈ (rankSort asc l).take k ++ (rankSort asc l).drop k := hsplit.symm ▸ (perm_rankSort l).mem_iff.2 he
    exact (List.mem_append.1 this).resolve_left hn
  have hp := pairwise_rankSort (asc := asc) h
  rw [← hsplit, List.pairwise_append] at hp
  exact fun b hb => hp.2.2 b hb e hdrop

/-! ## Buckets (R145) -/

/-- The boundary bucket has k entries from it on, or is the lowest; above it there are fewer, or it is where the search began. -/
theorem boundary_spec (asc : Bool) (k : Nat) (l : List PosEntry) (n : Nat) :
    (boundary asc k l n = 0 ∨ k ≤ fromBucket asc (boundary asc k l n) l)
    ∧ (boundary asc k l n = n ∨ fromBucket asc (boundary asc k l n + 1) l < k) := by
  induction n with
  | zero => exact ⟨.inl rfl, .inl rfl⟩
  | succ n ih =>
    unfold boundary
    split
    · next h => exact ⟨.inr h, .inl rfl⟩
    · next h =>
      obtain ⟨h1, h2⟩ := ih
      refine ⟨h1, .inr ?_⟩
      rcases h2 with h2 | h2
      · rw [h2]
        exact Nat.lt_of_not_le h
      · exact h2

/-- The entries above bucket b, and those in it. -/
def aboveBucket (asc : Bool) (b : Nat) (l : List PosEntry) : List PosEntry := l.filter fun e => decide (b < selKey asc e.score / 2 ^ 22)
def inBucket (asc : Bool) (b : Nat) (l : List PosEntry) : List PosEntry := l.filter fun e => decide (selKey asc e.score / 2 ^ 22 = b)

theorem fromBucket_succ (b : Nat) (l : List PosEntry) : fromBucket asc (b + 1) l = (aboveBucket asc b l).length := rfl

/-- The entries of a list by bucket: above b, in b, below b. -/
theorem perm_buckets (b : Nat) (l : List PosEntry) :
    (aboveBucket asc b l ++ (inBucket asc b l ++ l.filter fun e => decide (selKey asc e.score / 2 ^ 22 < b))).Perm l := by
  have h1 := List.filter_append_perm (fun e : PosEntry => decide (b < selKey asc e.score / 2 ^ 22)) l
  have h2 := List.filter_append_perm (fun e : PosEntry => decide (selKey asc e.score / 2 ^ 22 = b))
    (l.filter fun e => !decide (b < selKey asc e.score / 2 ^ 22))
  rw [List.filter_filter, List.filter_filter] at h2
  have hin : l.filter (fun e => decide (selKey asc e.score / 2 ^ 22 = b) && !decide (b < selKey asc e.score / 2 ^ 22)) = inBucket asc b l :=
    List.filter_congr fun e _ => by
      rw [← decide_not, ← Bool.decide_and]
      exact decide_eq_decide.2 (by omega)
  have hbelow : l.filter (fun e => !decide (selKey asc e.score / 2 ^ 22 = b) && !decide (b < selKey asc e.score / 2 ^ 22))
      = l.filter fun e => decide (selKey asc e.score / 2 ^ 22 < b) :=
    List.filter_congr fun e _ => by
      rw [← decide_not, ← decide_not, ← Bool.decide_and]
      exact decide_eq_decide.2 (by omega)
  rw [hin, hbelow] at h2
  exact (h2.append_left _).trans h1

theorem fromBucket_eq (b : Nat) (l : List PosEntry) : fromBucket asc b l = (aboveBucket asc b l).length + (inBucket asc b l).length := by
  unfold fromBucket
  rw [← ((perm_buckets (asc := asc) b l).filter _).length_eq, List.filter_append, List.filter_append, List.length_append, List.length_append]
  have h1 : (aboveBucket asc b l).filter (fun e => decide (b ≤ selKey asc e.score / 2 ^ 22)) = aboveBucket asc b l :=
    List.filter_eq_self.2 fun e he => decide_eq_true (Nat.le_of_lt (of_decide_eq_true (List.mem_filter.1 he).2))
  have h2 : (inBucket asc b l).filter (fun e => decide (b ≤ selKey asc e.score / 2 ^ 22)) = inBucket asc b l :=
    List.filter_eq_self.2 fun e he => decide_eq_true (Nat.le_of_eq (of_decide_eq_true (List.mem_filter.1 he).2).symm)
  have h3 : (l.filter fun e => decide (selKey asc e.score / 2 ^ 22 < b)).filter (fun e => decide (b ≤ selKey asc e.score / 2 ^ 22)) = [] :=
    List.filter_eq_nil_iff.2 fun e he => by simpa using of_decide_eq_true (List.mem_filter.1 he).2
  rw [h1, h2, h3]
  rfl

theorem bucket_lt (s : Word) : selKey asc s / 2 ^ 22 < 1024 := by
  have : selKey asc s < 2 ^ 32 := BitVec.isLt _
  omega

/-- Where k entries are in the list: fewer than k above the boundary bucket, and at least k with those in it. -/
theorem boundary_counts {k : Nat} {l : List PosEntry} (h0 : 0 < k) (hk : k ≤ l.length) :
    (aboveBucket asc (boundary asc k l 1023) l).length < k
    ∧ k ≤ (aboveBucket asc (boundary asc k l 1023) l).length + (inBucket asc (boundary asc k l 1023) l).length := by
  obtain ⟨h1, h2⟩ := boundary_spec asc k l 1023
  refine ⟨?_, ?_⟩
  · rcases h2 with h2 | h2
    · have : aboveBucket asc 1023 l = [] := List.filter_eq_nil_iff.2 fun e _ => by
        have := bucket_lt (asc := asc) e.score
        simp only [decide_eq_true_eq]
        omega
      rw [h2, this]
      exact h0
    · exact h2
  · rw [← fromBucket_eq]
    rcases h1 with h1 | h1
    · rw [h1]
      have : fromBucket asc 0 l = l.length := by simp [fromBucket]
      rw [this]
      exact hk
    · exact h1

theorem before_of_bucket {a b : PosEntry} (h : selKey asc b.score / 2 ^ 22 < selKey asc a.score / 2 ^ 22) : ranksBefore asc a b = true := by
  rw [ranksBefore_iff]
  exact .inl (Nat.lt_of_div_lt_div h)

/-- Rank order goes bucket by bucket. -/
theorem rankSort_buckets {l : List PosEntry} (h : PosDistinct l) (b : Nat) : rankSort asc l =
    rankSort asc (aboveBucket asc b l) ++ (rankSort asc (inBucket asc b l)
      ++ rankSort asc (l.filter fun e => decide (selKey asc e.score / 2 ^ 22 < b))) := by
  have bucket {q : PosEntry → Bool} {e : PosEntry} (he : e ∈ rankSort asc (l.filter q)) : q e = true :=
    (List.mem_filter.1 ((perm_rankSort _).mem_iff.1 he)).2
  refine (eq_rankSort h ?_ ?_).symm
  · rw [List.pairwise_append, List.pairwise_append]
    refine ⟨pairwise_rankSort (h.filter _), ⟨pairwise_rankSort (h.filter _), pairwise_rankSort (h.filter _), fun x hx y hy => ?_⟩,
      fun x hx y hy => ?_⟩
    · have h1 := of_decide_eq_true (bucket hx)
      have h2 := of_decide_eq_true (bucket hy)
      exact before_of_bucket (by omega)
    · have h1 := of_decide_eq_true (bucket hx)
      rcases List.mem_append.1 hy with hy | hy
      · have h2 := of_decide_eq_true (bucket hy)
        exact before_of_bucket (by omega)
      · have h2 := of_decide_eq_true (bucket hy)
        exact before_of_bucket (by omega)
  · exact (((perm_rankSort _).append ((perm_rankSort _).append (perm_rankSort _)))).trans (perm_buckets b l)

/-- A bucketed selection whose boundary bucket is taken whole keeps the same entries as an exact one. -/
theorem bestOf_buckets {k : Nat} {l : List PosEntry} (h : PosDistinct l) (h0 : 0 < k) (hk : k ≤ l.length) :
    let b := boundary asc k l 1023
    bestOf asc k (aboveBucket asc b l) ++ bestOf asc (k - (aboveBucket asc b l).length) (inBucket asc b l) = bestOf asc k l := by
  obtain ⟨h1, h2⟩ := boundary_counts (asc := asc) h0 hk
  have la := (perm_rankSort (asc := asc) (aboveBucket asc (boundary asc k l 1023) l)).length_eq
  have li := (perm_rankSort (asc := asc) (inBucket asc (boundary asc k l 1023) l)).length_eq
  dsimp only
  rw [bestOf_eq, bestOf_eq, bestOf_eq, rankSort_buckets h (boundary asc k l 1023), List.take_append, List.take_append, la, li,
    show k - (aboveBucket asc (boundary asc k l 1023) l).length - (inBucket asc (boundary asc k l 1023) l).length = 0 by omega, List.take_zero,
    List.append_nil]

/-! ## What a method picks -/

theorem pickExact_subperm (k : Nat) (l : List PosEntry) : (pickExact asc k l).out.Subperm l := subperm_bestOf k l

theorem pickExact_length (k : Nat) (l : List PosEntry) : (pickExact asc k l).out.length ≤ k :=
  (length_bestOf (asc := asc) k l).trans_le (Nat.min_le_left ..)

theorem pickBucket_of_few {k : Nat} {l : List PosEntry} (h : l.length < k) : pickBucket asc k l = pickExact asc k l := if_pos h

theorem pickBucket_out {k : Nat} {l : List PosEntry} (h : k ≤ l.length) : (pickBucket asc k l).out =
    bestOf asc k (aboveBucket asc (boundary asc k l 1023) l)
      ++ bestOf asc (k - (aboveBucket asc (boundary asc k l 1023) l).length) ((inBucket asc (boundary asc k l 1023) l).take 4096) := by
  unfold pickBucket
  rw [if_neg (Nat.not_lt.2 h)]
  dsimp only
  split <;> rfl

theorem pickBucket_boundary {k : Nat} {l : List PosEntry} (h : k ≤ l.length) (hb : (pickBucket asc k l).boundary = none) :
    (inBucket asc (boundary asc k l 1023) l).length ≤ 4096 := by
  unfold pickBucket at hb
  rw [if_neg (Nat.not_lt.2 h)] at hb
  dsimp only at hb
  split at hb
  · cases hb
  · exact Nat.le_of_not_lt ‹_›

/-- A bucketed selection that is not approximate keeps what an exact one keeps. -/
theorem pickBucket_of_exact {k : Nat} {l : List PosEntry} (h : PosDistinct l) (h0 : 0 < k) (hb : (pickBucket asc k l).boundary = none) :
    (pickBucket asc k l).out = (pickExact asc k l).out := by
  by_cases hk : l.length < k
  · rw [pickBucket_of_few hk]
  · have hk := Nat.le_of_not_lt hk
    rw [pickBucket_out hk, List.take_of_length_le (pickBucket_boundary hk hb)]
    exact bestOf_buckets h h0 hk

theorem pickBucket_subperm (k : Nat) (l : List PosEntry) : (pickBucket asc k l).out.Subperm l := by
  by_cases hk : l.length < k
  · rw [pickBucket_of_few hk]
    exact pickExact_subperm k l
  · rw [pickBucket_out (Nat.le_of_not_lt hk)]
    have tail := (subperm_bestOf (asc := asc) (k - (aboveBucket asc (boundary asc k l 1023) l).length)
      ((inBucket asc (boundary asc k l 1023) l).take 4096)).trans
      ((List.take_sublist 4096 _).trans (List.sublist_append_left _ (l.filter fun e => decide (selKey asc e.score / 2 ^ 22 < boundary asc k l 1023)))).subperm
    exact ((subperm_bestOf k _).append tail).trans (perm_buckets (boundary asc k l 1023) l).subperm

theorem pickBucket_length {k : Nat} (l : List PosEntry) (h0 : 0 < k) : (pickBucket asc k l).out.length ≤ k := by
  by_cases hk : l.length < k
  · rw [pickBucket_of_few hk]
    exact pickExact_length k l
  · obtain ⟨h1, -⟩ := boundary_counts (asc := asc) h0 (Nat.le_of_not_lt hk)
    rw [pickBucket_out (Nat.le_of_not_lt hk), List.length_append, length_bestOf, length_bestOf]
    omega

end

end Sys2Proof.Machine

/-!
# Selections write the best entries (O19)
-/

namespace Sys2Proof.Machine

/-! ## Entries with their positions (R139) -/

section
variable {α : Type} {f : α → Word} {g : α → BitVec 40}

/-- The entries of a list in input order. -/
def entriesAt (f : α → Word) (g : α → BitVec 40) (l : List α) : List PosEntry :=
  ((List.range l.length).zip l).map fun x => { pos := x.1, score := f x.2, id := g x.2 }

theorem mem_entriesAt {l : List α} {e : PosEntry} : e ∈ entriesAt f g l ↔ ∃ a, l[e.pos]? = some a ∧ e.score = f a ∧ e.id = g a := by
  unfold entriesAt
  rw [List.mem_map]
  constructor
  · rintro ⟨x, hx, rfl⟩
    obtain ⟨i, hi⟩ := List.mem_iff_getElem?.1 hx
    obtain ⟨h1, h2⟩ := List.getElem?_zip_eq_some.1 hi
    obtain ⟨hlt, hr⟩ := List.getElem?_eq_some_iff.1 h1
    rw [List.getElem_range] at hr
    exact ⟨x.2, hr ▸ h2, rfl, rfl⟩
  · rintro ⟨a, ha, hs, hi⟩
    obtain ⟨hlt, -⟩ := List.getElem?_eq_some_iff.1 ha
    have hz : ((List.range l.length).zip l)[e.pos]? = some (e.pos, a) :=
      List.getElem?_zip_eq_some.2 ⟨by rw [List.getElem?_range hlt], ha⟩
    refine ⟨(e.pos, a), List.mem_iff_getElem?.2 ⟨_, hz⟩, ?_⟩
    obtain ⟨_, _, _⟩ := e
    cases hs
    cases hi
    rfl

theorem posDistinct_entriesAt (f : α → Word) (g : α → BitVec 40) (l : List α) : PosDistinct (entriesAt f g l) := by
  have hn : (((List.range l.length).zip l).map Prod.fst).Nodup := by
    rw [List.map_fst_zip (by rw [List.length_range])]
    exact List.nodup_range
  exact List.pairwise_map.2 ((List.pairwise_map.1 hn).imp fun h => h)

theorem countP_entriesAt (q : Word → BitVec 40 → Bool) (l : List α) :
    (entriesAt f g l).countP (fun e => q e.score e.id) = l.countP fun a => q (f a) (g a) := by
  have hl : ((List.range l.length).zip l).map Prod.snd = l := List.map_snd_zip (by rw [List.length_range])
  conv_rhs => rw [← hl]
  rw [entriesAt, List.countP_map, List.countP_map]
  rfl

end

/-! ## The list of a selection (R142, R145) -/

section
variable {p : SelParams} {bucket : Bool} {input : List SelEntry}

/-- The valid entries of an input. -/
def validEntries (input : List SelEntry) : List PosEntry := (entriesAt SelEntry.score SelEntry.id input).filter fun e => !invalidEntry e

/-- What a method picks. -/
def picked (p : SelParams) (bucket : Bool) (valid : List PosEntry) : Picked :=
  if bucket then pickBucket p.ascending p.k valid else pickExact p.ascending p.k valid

/-- The entries of a list as its tile holds them. -/
def tileEntries (l : List PosEntry) : List (BitVec 24 × BitVec 40 × Word) := l.map fun e => (BitVec.ofNat 24 e.pos, e.id, e.score)

theorem select_spec : (select p bucket input).entries = tileEntries (picked p bucket (validEntries input)).out
    ∧ (select p bucket input).nValid = (picked p bucket (validEntries input)).out.length
    ∧ (select p bucket input).inputCount = input.length
    ∧ (select p bucket input).approx = (picked p bucket (validEntries input)).boundary.isSome := ⟨rfl, rfl, rfl, rfl⟩

theorem length_tileEntries (l : List PosEntry) : (tileEntries l).length = l.length := List.length_map _

theorem posDistinct_valid (input : List SelEntry) : PosDistinct (validEntries input) := (posDistinct_entriesAt ..).filter _

theorem mem_validEntries {e : PosEntry} : e ∈ validEntries input ↔
    input[e.pos]? = some { score := e.score, id := e.id } ∧ isNan e.score = false ∧ e.id ≠ 0xFFFFFFFFFF := by
  have valid : (!invalidEntry e) = true ↔ isNan e.score = false ∧ e.id ≠ 0xFFFFFFFFFF := by
    rw [Bool.not_eq_true', invalidEntry, Bool.or_eq_false_iff, decide_eq_false_iff_not]
    rfl
  unfold validEntries
  rw [List.mem_filter, mem_entriesAt, valid]
  refine and_congr_left fun _ => ⟨?_, fun h => ⟨_, h, rfl, rfl⟩⟩
  rintro ⟨a, ha, hs, hi⟩
  rw [hs, hi]
  exact ha

theorem length_validEntries (input : List SelEntry) :
    (validEntries input).length = input.countP fun x => !isNan x.score && decide (x.id ≠ 0xFFFFFFFFFF) := by
  have h := countP_entriesAt (f := SelEntry.score) (g := SelEntry.id) (fun s i => !isNan s && decide (i ≠ 0xFFFFFFFFFF)) input
  rw [← h, validEntries, ← List.countP_eq_length_filter]
  refine List.countP_congr fun e _ => ?_
  rw [invalidEntry, Bool.not_or, ← decide_not]
  rfl

theorem subperm_picked (bucket : Bool) (valid : List PosEntry) : (picked p bucket valid).out.Subperm valid := by
  unfold picked
  split
  · exact pickBucket_subperm ..
  · exact pickExact_subperm ..

theorem length_picked (bucket : Bool) (valid : List PosEntry) (h0 : 0 < p.k) : (picked p bucket valid).out.length ≤ p.k := by
  unfold picked
  split
  · exact pickBucket_length _ h0
  · exact pickExact_length ..

/-- A bucketed selection that is not approximate lists the entries of an exact one. -/
theorem select_bucket_entries (h0 : 0 < p.k) (h : (select p true input).approx = false) : (select p true input).entries = (select p false input).entries := by
  obtain ⟨he, -, -, ha⟩ := select_spec (p := p) (bucket := true) (input := input)
  rw [ha] at h
  rw [he]
  exact congrArg tileEntries (pickBucket_of_exact (posDistinct_valid input) h0 (by simpa [picked] using h))

end

section
variable {p : SelParams} {input : List SelEntry}

/-- The key of the entry at a position of the input, and the rank order of positions (R140). -/
def keyAt (p : SelParams) (input : List SelEntry) (i : Nat) : Nat := selKey p.ascending ((input[i]?.map (·.score)).getD 0)
def RanksAt (p : SelParams) (input : List SelEntry) (i j : Nat) : Prop :=
  keyAt p input j < keyAt p input i ∨ (keyAt p input i = keyAt p input j ∧ i < j)

theorem keyAt_pos {x : PosEntry} (hx : x ∈ validEntries input) : keyAt p input x.pos = selKey p.ascending x.score := by
  unfold keyAt
  rw [(mem_validEntries.1 hx).1]
  rfl

theorem ranksAt_pos {a b : PosEntry} (ha : a ∈ validEntries input) (hb : b ∈ validEntries input) (h : ranksBefore p.ascending a b = true) :
    RanksAt p input a.pos b.pos := by
  unfold RanksAt
  rw [keyAt_pos ha, keyAt_pos hb]
  exact ranksBefore_iff.1 h

/-- A position of an input within the limits fits the list's POS field. -/
theorem toNat_pos (hn : input.length ≤ 16777216) {x : PosEntry} (hx : x ∈ validEntries input) : (BitVec.ofNat 24 x.pos).toNat = x.pos := by
  obtain ⟨hlt, -⟩ := List.getElem?_eq_some_iff.1 (mem_validEntries.1 hx).1
  rw [BitVec.toNat_ofNat]
  exact Nat.mod_eq_of_lt (by omega)

/-- An exact selection lists the best valid entries in rank order. -/
theorem select_exact_spec (hn : input.length ≤ 16777216) :
    let l := select p false input
    l.entries.length = min p.k (input.countP fun x => !isNan x.score && decide (x.id ≠ 0xFFFFFFFFFF))
    ∧ (∀ y ∈ l.entries, (∃ x, input[y.1.toNat]? = some x ∧ isNan x.score = false ∧ x.id ≠ 0xFFFFFFFFFF)
        ∧ input[y.1.toNat]? = some { score := y.2.2, id := y.2.1 })
    ∧ l.entries.Pairwise (fun a b => RanksAt p input a.1.toNat b.1.toNat)
    ∧ (∀ i, (∃ x, input[i]? = some x ∧ isNan x.score = false ∧ x.id ≠ 0xFFFFFFFFFF) → (∀ y ∈ l.entries, y.1.toNat ≠ i) →
        ∀ y ∈ l.entries, RanksAt p input y.1.toNat i)
    ∧ l.nValid = l.entries.length := by
  obtain ⟨he, hv, -, -⟩ := select_spec (p := p) (bucket := false) (input := input)
  have hsub : ∀ x ∈ bestOf p.ascending p.k (validEntries input), x ∈ validEntries input := fun x hx => (subperm_bestOf _ _).subset hx
  have hentry {y : BitVec 24 × BitVec 40 × Word} (hy : y ∈ tileEntries (bestOf p.ascending p.k (validEntries input))) :
      ∃ x ∈ bestOf p.ascending p.k (validEntries input), y = (BitVec.ofNat 24 x.pos, x.id, x.score) ∧ y.1.toNat = x.pos := by
    obtain ⟨x, hx, rfl⟩ := List.mem_map.1 hy
    exact ⟨x, hx, rfl, toNat_pos hn (hsub x hx)⟩
  dsimp only
  rw [he, show (picked p false (validEntries input)).out = bestOf p.ascending p.k (validEntries input) from rfl] at *
  refine ⟨?_, fun y hy => ?_, ?_, fun i hi hout y hy => ?_, hv.trans (length_tileEntries _).symm⟩
  · exact (length_tileEntries _).trans ((length_bestOf _ _).trans (congrArg (min p.k) (length_validEntries input)))
  · obtain ⟨x, hx, rfl, hp⟩ := hentry hy
    obtain ⟨hget, hnan, hid⟩ := mem_validEntries.1 (hsub x hx)
    rw [hp]
    exact ⟨⟨_, hget, hnan, hid⟩, hget⟩
  · refine List.pairwise_map.2 ((pairwise_bestOf (posDistinct_valid input)).imp_of_mem fun {a b} ha hb hr => ?_)
    dsimp only
    rw [toNat_pos hn (hsub a ha), toNat_pos hn (hsub b hb)]
    exact ranksAt_pos (hsub a ha) (hsub b hb) hr
  · obtain ⟨x, hx, rfl, hp⟩ := hentry hy
    obtain ⟨a, ha, hnan, hid⟩ := hi
    have hv : (⟨i, a.score, a.id⟩ : PosEntry) ∈ validEntries input := mem_validEntries.2 ⟨ha, hnan, hid⟩
    have hnot : (⟨i, a.score, a.id⟩ : PosEntry) ∉ bestOf p.ascending p.k (validEntries input) := fun hm =>
      hout _ (List.mem_map.2 ⟨_, hm, rfl⟩) (toNat_pos hn hv)
    rw [hp]
    exact ranksAt_pos (b := ⟨i, a.score, a.id⟩) (hsub x hx) hv (bestOf_before (posDistinct_valid input) hv hnot x hx)

end

/-! ## The list as a tile of the store (R147) -/

/-- List l stands in the unit's record of its output tile and as its tile; every other tile stays. -/
def WroteList (s : State) (p : SelParams) (out : TileIdx) (l : SelList) (t : State) : Prop :=
  mfind t.engines.selOut out.toNat = some l ∧ (slotOf t out).payload = pad 16384 (l.bytes s.free) ∧ (slotOf t out).hdr.state = .ready
    ∧ (slotOf t out).hdr.format = 0x11 ∧ (slotOf t out).hdr.rows.toNat = p.k ∧ (slotOf t out).hdr.cols = 12
    ∧ (∀ y, y ≠ out → slotOf t y = slotOf s y) ∧ t.tier = s.tier ∧ t.flash = s.flash

section
variable {s : State} {e : Engine} {sh : Share} {p : SelParams} {out : TileIdx} {n : Nat}

theorem selOk_bounds (h : selOk p n = true) : 0 < p.k ∧ p.k ≤ 1024 ∧ n ≤ 16777216 := by
  simp only [selOk, Bool.and_eq_true, decide_eq_true_eq] at h
  omega

/-- The state in which the list's tile is written. -/
def listNoted (s : State) (sh : Share) (out : TileIdx) (l : SelList) : State :=
  let s := { s with engines := { s.engines with selOut := mins s.engines.selOut out.toNat l }, free := s.free + 1 }
  if l.approx then flagOwners s sh.part out.toNat flagApprox else s

theorem listNoted_frame (s : State) (sh : Share) (out : TileIdx) (l : SelList) :
    (listNoted s sh out l).engines = { s.engines with selOut := mins s.engines.selOut out.toNat l } ∧ (listNoted s sh out l).store = s.store
    ∧ (listNoted s sh out l).tier = s.tier ∧ (listNoted s sh out l).flash = s.flash ∧ (listNoted s sh out l).gen = s.gen := by
  unfold listNoted
  dsimp only
  split <;> simp

theorem shapeOk_select (r c : Nat) : shapeOk 0x11 r c = true := by simp [shapeOk, formatBits]

theorem outTile_fields (x : EngineState) (sh : Share) (ep : Epoch) (t : TileIdx) (h : TileHeader) (b : Bytes) :
    (outTile x sh ep t h b).hdr.format = h.format ∧ (outTile x sh ep t h b).hdr.rows = h.rows ∧ (outTile x sh ep t h b).hdr.cols = h.cols
    ∧ (outTile x sh ep t h b).payload = b := ⟨rfl, rfl, rfl, rfl⟩

theorem putList_wroteList (l : SelList) (hk : p.k ≤ 1024) (hi : p.persist = true ∨ inShare (partOf s sh.part) out = true)
    (hf : (slotOf s out).hdr.state = .free) :
    WroteList s p out l (putList s e sh p out l) ∧ (putList s e sh p out l).engines.engine = s.engines.engine := by
  obtain ⟨heng, hstore, htier, hflash, hgen⟩ := listNoted_frame s sh out l
  have hslot (y : TileIdx) : slotOf (listNoted s sh out l) y = slotOf s y := slotOf_congr (by rw [hstore]) y
  have hpart : partOf (listNoted s sh out l) sh.part = partOf s sh.part := partOf_congr (by rw [hgen]) _
  have howner : (selHeader p).owner = 0x3E ∨ inShare (partOf (listNoted s sh out l) sh.part) out = true := by
    rw [hpart]
    exact hi.imp_left fun h => by simp [selHeader, h]
  have law : putList s e sh p out l = writeTile (listNoted s sh out l) (BitVec.ofNat 6 (e.val / 2)) out
      (outTile (engOf (listNoted s sh out l) e) sh (partOf (listNoted s sh out l) sh.part).step.epoch out (selHeader p) (pad 16384 (l.bytes s.free)))
      sh.world := by
    rw [← writeOut_of_taken howner]
    rfl
  generalize htl : outTile (engOf (listNoted s sh out l) e) sh (partOf (listNoted s sh out l) sh.part).step.epoch out (selHeader p)
    (pad 16384 (l.bytes s.free)) = tl at law
  have hrows : (BitVec.ofNat 16 p.k).toNat = p.k := by
    rw [BitVec.toNat_ofNat]
    omega
  have hform : tl.hdr.format = 0x11 ∧ tl.hdr.rows.toNat = p.k ∧ tl.hdr.cols = 12 ∧ tl.payload = pad 16384 (l.bytes s.free) := by
    obtain ⟨h1, h2, h3, h4⟩ := outTile_fields (engOf (listNoted s sh out l) e) sh (partOf (listNoted s sh out l) sh.part).step.epoch out
      (selHeader p) (pad 16384 (l.bytes s.free))
    rw [htl] at h1 h2 h3 h4
    exact ⟨h1, (congrArg BitVec.toNat h2).trans hrows, h3, h4⟩
  obtain ⟨hfmt, hr, hcols, hpay⟩ := hform
  have hshape : shapeOk tl.hdr.format tl.hdr.rows.toNat tl.hdr.cols.toNat = true := by
    rw [hfmt]
    exact shapeOk_select ..
  have hfree : (slotOf (listNoted s sh out l) out).hdr.state = .free := by rw [hslot]; exact hf
  have same := slotOf_writeTile_same (BitVec.ofNat 6 (e.val / 2)) sh.world hshape hfree
  rw [law]
  refine ⟨⟨?_, (congrArg Slot.payload same).trans hpay, congrArg (fun y : Slot => y.hdr.state) same,
    (congrArg (fun y : Slot => y.hdr.format) same).trans hfmt, (congrArg (fun y : Slot => y.hdr.rows.toNat) same).trans hr,
    (congrArg (fun y : Slot => y.hdr.cols) same).trans hcols, fun y hy => ?_, ?_, ?_⟩, ?_⟩
  · rw [(writeTile_frame ..).2.1, heng]
    simp
  · rw [slotOf_writeTile_other _ _ hshape hfree hy, hslot]
  · rw [(writeTile_frame ..).1, htier]
  · rw [(writeTile_frame ..).2.2.2.2.1, hflash]
  · rw [(writeTile_frame ..).2.1, heng]

/-! ## The commands of the selection unit -/

section
variable {inp : SelInput}

theorem selectOp_of_inside {bucket : Bool} (hc : contextShare (engOf s e) (engOf s e).running = some sh) (ht : inp.touch.outside sh = none)
    (hk : p.chk = {}) : selectOp s e p inp out bucket = putList s e sh p out (select p bucket (selEntries s e p inp)) := by
  unfold selectOp
  rw [hc]
  dsimp only
  rw [ht, hk]
  rfl

theorem selectOp_of_outside {bucket : Bool} {y : Nat} (hc : contextShare (engOf s e) (engOf s e).running = some sh)
    (ht : inp.touch.outside sh = some y) : selectOp s e p inp out bucket = violate s e sh y := by
  unfold selectOp
  rw [hc]
  dsimp only
  rw [ht]

end

/-! ## Merges (R149) -/

/-- What dedupStep has done with the entries of a list. -/
theorem dedup_spec (l : List PosEntry) : ((l.foldl dedupStep {}).kept.map PosEntry.id).Nodup ∧ (l.foldl dedupStep {}).kept.Sublist l := by
  have go (l : List PosEntry) (d : Dedup) (r : List PosEntry) (hn : (d.kept.map PosEntry.id).Nodup) (hs : d.kept.Sublist r) :
      ((l.foldl dedupStep d).kept.map PosEntry.id).Nodup ∧ (l.foldl dedupStep d).kept.Sublist (r ++ l) := by
    induction l generalizing d r with
    | nil => exact ⟨hn, by rwa [List.append_nil]⟩
    | cons e l ih =>
      rw [List.foldl_cons, List.append_cons]
      refine ih (dedupStep d e) (r ++ [e]) ?_ ?_
      · unfold dedupStep
        split
        · next h =>
          have hid : ∀ k ∈ d.kept, k.id ≠ e.id := fun k hk => of_decide_eq_false (Bool.eq_false_iff.2 (List.find?_eq_none.1 h k hk))
          rw [List.map_append]
          exact List.nodup_append.2 ⟨hn, List.nodup_singleton _, fun i hi j hj => by
            obtain ⟨k, hk, rfl⟩ := List.mem_map.1 hi
            rw [List.map_singleton, List.mem_singleton] at hj
            exact hj ▸ hid k hk⟩
        · exact hn
      · unfold dedupStep
        split
        · exact hs.append (List.Sublist.refl _)
        · exact hs.trans (List.sublist_append_left r [e])
  exact go l {} [] .nil (List.Sublist.refl _)

/-- All entries of some lists, lists in ascending source. -/
def allEntries (ls : List SelList) : List (BitVec 24 × BitVec 40 × Word) := (bySource ls).flatMap fun l => l.entries

theorem mem_bySource {ls : List SelList} {x : SelList} : x ∈ bySource ls ↔ x ∈ ls := by
  have ins (a x : SelList) (l : List SelList) : x ∈ insSource a l ↔ x = a ∨ x ∈ l := by
    induction l with
    | nil => simp [insSource]
    | cons y l ih =>
      unfold insSource
      split
      · simp
      · rw [List.mem_cons, ih, List.mem_cons]
        tauto
  have go (l b : List SelList) : x ∈ l.foldl (fun a x => insSource x a) b ↔ x ∈ l ∨ x ∈ b := by
    induction l generalizing b with
    | nil => simp
    | cons a l ih =>
      rw [List.foldl_cons, ih, ins, List.mem_cons]
      tauto
  exact (go ls []).trans (by simp)

/-- The entries of a merge that are kept. -/
def keptEntries (ls : List SelList) : List PosEntry :=
  ((entriesAt (fun x : BitVec 24 × BitVec 40 × Word => x.2.2) (fun x => x.2.1) (allEntries ls)).foldl dedupStep {}).kept

theorem mergeLists_entries (p : SelParams) (bucket : Bool) (ls : List SelList) :
    (mergeLists p bucket ls).entries = tileEntries (picked p bucket ((keptEntries ls).filter fun e => !invalidEntry e)).out := rfl

/-- A merge keeps at most K entries, each identifier once, and each one from one of its lists. -/
theorem mergeLists_spec (bucket : Bool) (ls : List SelList) (h0 : 0 < p.k) : (mergeLists p bucket ls).entries.length ≤ p.k
    ∧ ((mergeLists p bucket ls).entries.map (·.2.1)).Nodup
    ∧ ∀ y ∈ (mergeLists p bucket ls).entries, ∃ l ∈ ls, ∃ z ∈ l.entries, y.2 = z.2 := by
  obtain ⟨hn, hs⟩ := dedup_spec (entriesAt (fun x : BitVec 24 × BitVec 40 × Word => x.2.2) (fun x => x.2.1) (allEntries ls))
  have hsub := subperm_picked (p := p) bucket ((keptEntries ls).filter fun e => !invalidEntry e)
  rw [mergeLists_entries]
  refine ⟨(length_tileEntries _).trans_le (length_picked _ _ h0), ?_, fun y hy => ?_⟩
  · obtain ⟨m, hm, hmf⟩ := hsub
    have hmk : (m.map PosEntry.id).Nodup := hn.sublist ((hmf.trans List.filter_sublist).map _)
    rw [tileEntries, List.map_map]
    exact (hm.map PosEntry.id).nodup_iff.1 hmk
  · obtain ⟨e, he, rfl⟩ := List.mem_map.1 hy
    obtain ⟨a, ha, hsc, hid⟩ := mem_entriesAt.1 (hs.subset (List.mem_of_mem_filter (hsub.subset he)))
    obtain ⟨l, hl, hz⟩ := List.mem_flatMap.1 (List.mem_of_getElem? ha)
    exact ⟨l, mem_bySource.1 hl, a, hz, Prod.ext hid hsc⟩

theorem selectMerge_of_clean {tiles : List TileIdx} {bucket : Bool} (hc : contextShare (engOf s e) (engOf s e).running = some sh)
    (hk : p.chk = {}) : selectMerge s e p tiles bucket out =
      let l := mergeLists p bucket (tiles.map (listAt s))
      if l.dupMismatch then
        noteFault (flagOwners (setEng (putList s e sh p out l) e fun x => { x with
          dupTiles := if x.dupTiles = [] then differing (tiles.map fun t => (t, listAt s t)) else x.dupTiles }) sh.part out.toNat flagDupMismatch)
          e (0x0C, 0xFFFF)
      else putList s e sh p out l := by
  unfold selectMerge
  rw [hc]
  dsimp only
  rw [hk] <;> rfl

/-- A fault noted after the list was written: the list stands. -/
theorem WroteList.faulted {l : SelList} {u : State} (h : WroteList s p out l u) (f : EngineState → EngineState) (hf : ∀ x, (f x).faults = x.faults)
    (hu : u.engines.engine = s.engines.engine) (q : PartId) (fl : BitVec 16) (m : BitVec 8 × BitVec 16) :
    let t := noteFault (flagOwners (setEng u e f) q out.toNat fl) e m
    WroteList s p out l t ∧ (engOf t e).faults = (engOf s e).faults + 1 := by
  obtain ⟨h1, h2, h3, h4, h5, h6, h7, h8, h9⟩ := h
  have hs (y : TileIdx) : slotOf (noteFault (flagOwners (setEng u e f) q out.toNat fl) e m) y = slotOf u y := slotOf_congr (by simp) y
  have he : engOf (flagOwners (setEng u e f) q out.toNat fl) e = f (engOf u e) := by
    rw [engOf_congr (s := setEng u e f) (by simp), engOf_setEng, if_pos rfl]
  have hus : engOf u e = engOf s e := by
    unfold engOf
    rw [hu]
  refine ⟨⟨?_, ?_, ?_, ?_, ?_, ?_, fun y hy => ?_, ?_, ?_⟩, ?_⟩
  · exact (congrArg (fun x : EnginesState => mfind x.selOut out.toNat) (show _ = _ from rfl)).trans (by simpa [noteFault] using h1)
  · rw [hs, h2]
  · rw [hs, h3]
  · rw [hs, h4]
  · rw [hs, h5]
  · rw [hs, h6]
  · rw [hs, h7 y hy]
  · simpa using h8
  · simpa using h9
  · dsimp only [noteFault]
    rw [engOf_setEng, if_pos rfl, he, hus]
    exact congrArg (· + 1) (hf _)

end

/-- Settles O19: the exact, the bucketed and the merging selection by their sorted entries; each list by the tile that it is written as. -/
theorem selectionsKeepTheBest : Obligations.SelectionsKeepTheBest := by
  unfold Obligations.SelectionsKeepTheBest
  intro s e p inp tiles bucket out sh
  refine ⟨?_, fun h => if_neg (Bool.eq_false_iff.1 h)⟩
  intro input ok key before written
  refine ⟨fun h => ⟨if_neg (Bool.eq_false_iff.1 h), if_neg (Bool.eq_false_iff.1 h)⟩, fun hc => ⟨fun h y hy => ⟨?_, ?_⟩, fun ht hk h hi hf => ?_,
    fun hk h hi hf => ?_⟩⟩
  · exact (if_pos h).trans (congrArg Host.Outcome.next (selectOp_of_outside hc hy))
  · exact (if_pos h).trans (congrArg Host.Outcome.next (selectOp_of_outside hc hy))
  · obtain ⟨h0, hk1, hn⟩ := selOk_bounds h
    have law (b : Bool) : selectOp s e p inp out b = putList s e sh p out (select p b input) := selectOp_of_inside hc ht hk
    have wrote (b : Bool) := putList_wroteList (s := s) (e := e) (select p b input) hk1 hi hf
    refine ⟨⟨_, (if_pos h).trans (congrArg Host.Outcome.next (law false)), _, (wrote false).1, ?_⟩,
      ⟨_, (if_pos h).trans (congrArg Host.Outcome.next (law true)), _, (wrote true).1, select_bucket_entries h0, (wrote true).2⟩⟩
    obtain ⟨hlen, hmem, hpair, hrest, hv⟩ := select_exact_spec (p := p) hn
    exact ⟨hlen, hmem, hpair, hrest, hv, rfl, rfl, (wrote false).2⟩
  · obtain ⟨h0, hk1, -⟩ := selOk_bounds h
    obtain ⟨hw, heng⟩ := putList_wroteList (s := s) (e := e) (mergeLists p bucket (tiles.map (listAt s))) hk1 hi hf
    obtain ⟨hlen, hnd, hmem⟩ := mergeLists_spec bucket (tiles.map (listAt s)) h0
    have hfrom : ∀ y ∈ (mergeLists p bucket (tiles.map (listAt s))).entries, ∃ m ∈ tiles, ∃ z ∈ (listAt s m).entries, y.2 = z.2 := fun y hy => by
      obtain ⟨l, hl, z, hz, hyz⟩ := hmem y hy
      obtain ⟨m, hm, rfl⟩ := List.mem_map.1 hl
      exact ⟨m, hm, z, hz, hyz⟩
    have law := selectMerge_of_clean (tiles := tiles) (bucket := bucket) (out := out) hc hk
    cases hd : (mergeLists p bucket (tiles.map (listAt s))).dupMismatch with
    | true =>
      obtain ⟨hw', hfault⟩ := hw.faulted (e := e) (fun x => { x with
        dupTiles := if x.dupTiles = [] then differing (tiles.map fun t => (t, listAt s t)) else x.dupTiles }) (fun _ => rfl) heng sh.part
        flagDupMismatch (0x0C, 0xFFFF)
      exact ⟨_, (if_pos h).trans (congrArg Host.Outcome.next (law.trans (if_pos hd))), _, hw', hlen, hnd, hfrom, fun _ => hfault,
        fun hf => absurd (hd.symm.trans hf) (by decide)⟩
    | false =>
      exact ⟨_, (if_pos h).trans (congrArg Host.Outcome.next (law.trans (if_neg (Bool.eq_false_iff.1 hd)))), _, hw, hlen, hnd, hfrom,
        fun hf => absurd (hd.symm.trans hf) (by decide), fun _ => heng⟩

end Sys2Proof.Machine

/-!
# Loads take their images (O39)
-/

namespace Sys2Proof.Machine

/-! ## Checks that pass -/

theorem passes_iff {l : List (Option Reject)} : passes l ↔ ∀ x ∈ l, x = none := by
  unfold passes
  rw [List.findSome?_eq_none_iff]
  rfl

theorem passes_append {l m : List (Option Reject)} : passes (l ++ m) ↔ passes l ∧ passes m := by
  simp only [passes_iff, List.mem_append, or_imp, forall_and]

theorem passes_map {α : Type} {f : α → Option Reject} {l : List α} : passes (l.map f) ↔ ∀ x ∈ l, f x = none := by
  simp only [passes_iff, List.mem_map, forall_exists_index, and_imp, forall_apply_eq_imp_iff₂]

theorem require_true {c : Bool} {x : Reject} (h : c = true) : require c x = none := if_pos h
theorem require_false {c : Bool} {x : Reject} (h : c = false) : require c x = some x := if_neg (Bool.eq_false_iff.1 h)

section
variable {s : State} {fn : Tenant} {q : BitVec 3} {op : Opcode} {f : Fetched} {rest : List Fetched} {v : HostView}

theorem existing_of_all {h : Nat} {xs : List Nat} (hx : ∀ x ∈ xs, (entryOf s x).isSome = true) (go : State → State) :
    existing s h fn xs go = go s := by
  have hnone : (xs.find? fun x => (entryOf s x).isNone) = none :=
    List.find?_eq_none.2 fun x hm => by simp [Option.isSome_iff_ne_none.1 (hx x hm)]
  unfold existing
  rw [hnone]

/-! ## The end of an accepted request -/

/-- A request that a state holds beside its other parts ends with a completion. -/
theorem finish_setReq {h : Nat} {r : Request} (hp : r.phase ≠ .ending) (hm : r.remote = false) (hu : r.mute = false) (hc : canPost s r.fn r.qp)
    (st : Status) (b : CompBody) (pl : List (BitVec 64 × Bytes)) : finish (setReq s h r) h st b pl =
      ended (setReq s h r) h r { tag := r.tag, body := b, flags := r.flags, status := st, payload := pl, closes := some h } :=
  finish_of_open ((reqOf_setReq ..).trans (if_pos rfl)) hp hm (canPost_setReq hc hu) st b pl

theorem waiting_ended_setReq (s : State) (h : Nat) (r r' : Request) (c : Completion) :
    (qpOf (ended (setReq s h r') h r c) r.fn r.qp).waiting = (qpOf s r.fn r.qp).waiting ++ [c] := waiting_ended ..

theorem finish_accepted (hc : canPost s fn q) (st : Status) (b : CompBody) (pl : List (BitVec 64 × Bytes)) :
    finish (accepted s fn q op f rest v) f.handle st b pl =
      ended (accepted s fn q op f rest v) f.handle (newRequest s fn q op f.desc (paramBytes s f.desc v))
        { tag := f.desc.tag, body := b, status := st, payload := pl, closes := some f.handle } :=
  finish_of_open reqOf_accepted_same (newRequest_phase s fn q op f.desc (paramBytes s f.desc v)) rfl (canPost_accepted hc) st b pl

theorem finishPlain_accepted (hc : canPost s fn q) (st : Status) (aux : BitVec 32) :
    finishPlain (accepted s fn q op f rest v) f.handle st aux =
      ended (accepted s fn q op f rest v) f.handle (newRequest s fn q op f.desc (paramBytes s f.desc v))
        { tag := f.desc.tag, body := finalBody (newRequest s fn q op f.desc (paramBytes s f.desc v)) 0 0 .none 0 aux, status := st
          closes := some f.handle } :=
  finishPlain_of_open reqOf_accepted_same (newRequest_phase s fn q op f.desc (paramBytes s f.desc v)) rfl (canPost_accepted hc) st aux

theorem applyReject_accepted {x : Reject} (hx : x.deny = none) (hc : canPost s fn q) :
    applyReject (accepted s fn q op f rest v) f.handle x =
      ended (accepted s fn q op f rest v) f.handle (newRequest s fn q op f.desc (paramBytes s f.desc v))
        { tag := f.desc.tag, body := finalBody (newRequest s fn q op f.desc (paramBytes s f.desc v)) 0 0 .none 0 (w32 x.aux), status := x.st
          closes := some f.handle } :=
  applyReject_of_open reqOf_accepted_same (newRequest_phase s fn q op f.desc (paramBytes s f.desc v)) rfl hx (canPost_accepted hc)

/-- The end of a request is kept in the host's part. -/
theorem ended_parts (s : State) (h : Nat) (r : Request) (c : Completion) : (ended s h r c).store = s.store ∧ (ended s h r c).tier = s.tier
    ∧ (ended s h r c).flash = s.flash ∧ (ended s h r c).gen = s.gen ∧ (ended s h r c).text = s.text := ⟨rfl, rfl, rfl, rfl, rfl⟩

theorem accepted_parts (s : State) (fn : Tenant) (q : BitVec 3) (op : Opcode) (f : Fetched) (rest : List Fetched) (v : HostView) :
    (accepted s fn q op f rest v).store = s.store ∧ (accepted s fn q op f rest v).tier = s.tier ∧ (accepted s fn q op f rest v).flash = s.flash
    ∧ (accepted s fn q op f rest v).gen = s.gen ∧ (accepted s fn q op f rest v).text = s.text := ⟨rfl, rfl, rfl, rfl, rfl⟩

theorem ended_ending (s : State) (h : Nat) (r : Request) (c : Completion) : (reqOf (ended s h r c) h).map (·.phase) = some .ending := by
  rw [reqOf_ended_same]
  rfl

theorem waiting_ended_accepted (c : Completion) :
    (qpOf (ended (accepted s fn q op f rest v) f.handle (newRequest s fn q op f.desc (paramBytes s f.desc v)) c) fn q).waiting
      = (qpOf s fn q).waiting ++ [c] :=
  (waiting_ended (accepted s fn q op f rest v) f.handle (newRequest s fn q op f.desc (paramBytes s f.desc v)) c).trans
    (congrArg (· ++ [c]) waiting_accepted)

end

/-! ## LOAD_EXTENT (R303) -/

section
variable {s : State} {n : Nat} {e : ExtentEntry}

theorem clearLost_eq (s : State) (n : Nat) : ∃ t : TierState, clearLost s n = { s with tier := t } ∧ t.lmem = s.tier.lmem := by
  unfold clearLost
  dsimp only
  split
  · exact ⟨_, rfl, rfl⟩
  · obtain ⟨l, h⟩ := setEntry_eq { s with tier := { s.tier with lostTiles := without n s.tier.lostTiles } } (devExtent n) fun e => { e with lost := false }
    exact ⟨_, h, rfl⟩

theorem devAddr_eq (n : Nat) : 128 * devExtent n + (devPos n).toNat = n := by
  have : (devPos n).toNat = n % 128 := BitVec.toNat_ofNat ..
  rw [this, devExtent]
  omega

/-- A tile of a WB extent whose place is in tier L is written there, dirty. -/
theorem loadTile_wb (h : Nat) (t : Tile) (he : entryOf s (devExtent n) = some e) (hc : e.cls = 1) (hp : (place e (devPos n)).1 = 2) :
    ∃ u : TierState, loadTile s h n t = ({ s with tier := u }, 0, true) ∧ u.lmem = (putL s (place e (devPos n)).2 t true).tier.lmem := by
  obtain ⟨l, d, hw⟩ := devWrite_tierL t he hp
  rw [devAddr_eq, hc] at hw
  obtain ⟨u, hu, hmem⟩ := clearLost_eq (devWrite s n t) n
  have law : loadTile s h n t = (clearLost (devWrite s n t) n, 0, true) := by
    unfold loadTile
    rw [he]
    exact if_pos hc
  rw [hw] at hu hmem
  exact ⟨u, by rw [law, hw, hu]; rfl, hmem⟩

theorem goodImages_one (p : Bytes) : goodImages p 1 = if (tileImage p 0).crcOk then ([tileImage p 0], none) else ([], some 0) := by
  unfold goodImages
  cases h : (tileImage p 0).crcOk <;> simp [List.range_succ, h]

end

/-! ## ADAPTER_LOAD (R230, R304) -/

section
variable {s : State} {k : Nat} {a : AdapterVersion}

theorem takeVersion_spec (v : AdapterVersion) (h : ∃ k, k < 4096 ∧ mfind s.gen.adapters k = none) : ∃ k t, takeVersion s v = some (k, t)
    ∧ k < 4096 ∧ mfind s.gen.adapters k = none
    ∧ t = { s with free := s.free + 1, gen := { s.gen with
        adapters := mins s.gen.adapters k { v with order := s.gen.adapterNext }, adapterNext := s.gen.adapterNext + 1 } } := by
  obtain ⟨k0, hk0, hn0⟩ := h
  have hmem : k0 ∈ (List.range 4096).filter fun n => (mfind s.gen.adapters n).isNone :=
    List.mem_filter.2 ⟨List.mem_range.2 hk0, by simp [hn0]⟩
  generalize hfr : ((List.range 4096).filter fun n => (mfind s.gen.adapters n).isNone) = fr at hmem
  have hlen : 0 < fr.length := List.length_pos_of_mem hmem
  have hi : (drawFree s).1.toNat % max 1 fr.length < fr.length := by
    rw [Nat.max_eq_right hlen]
    exact Nat.mod_lt _ hlen
  have hin : fr[(drawFree s).1.toNat % max 1 fr.length] ∈ (List.range 4096).filter fun n => (mfind s.gen.adapters n).isNone := by
    rw [hfr]
    exact List.getElem_mem hi
  obtain ⟨hr, hx⟩ := List.mem_filter.1 hin
  refine ⟨fr[(drawFree s).1.toNat % max 1 fr.length], _, ?_, List.mem_range.1 hr, by simpa using hx, rfl⟩
  unfold takeVersion
  rw [hfr]
  dsimp only
  rw [List.getElem?_eq_getElem hi]
  rfl

/-- The newer of two versions, the first where they are of one age. -/
def newerVersion (a : Option (Nat × AdapterVersion)) (x : Nat × AdapterVersion) : Option (Nat × AdapterVersion) :=
  match a with
  | none => some x
  | some y => if y.2.order < x.2.order then some x else a

theorem newestVersion_eq (s : State) (p : PartId) (num : Nat) :
    newestVersion s p num = ((versionsOf s p num).filter fun x => x.2.bindable).foldl newerVersion none := rfl

/-- The newest of a list of versions: the one that is newer than all others. -/
theorem newest_of_max {x : Nat × AdapterVersion} {l : List (Nat × AdapterVersion)} (hx : x ∈ l)
    (hmax : ∀ y ∈ l, y ≠ x → y.2.order < x.2.order) : l.foldl newerVersion none = some x := by
  have keep (l : List (Nat × AdapterVersion)) (h : ∀ y ∈ l, y ≠ x → y.2.order < x.2.order) : l.foldl newerVersion (some x) = some x := by
    induction l with
    | nil => rfl
    | cons y l ih =>
      have step : newerVersion (some x) y = some x := by
        refine if_neg (Nat.not_lt.2 ?_)
        by_cases hy : y = x
        · rw [hy]
        · exact Nat.le_of_lt (h y List.mem_cons_self hy)
      rw [List.foldl_cons, step]
      exact ih fun z hz => h z (List.mem_cons_of_mem y hz)
  have go (l : List (Nat × AdapterVersion)) (a : Option (Nat × AdapterVersion)) (ha : ∀ y, a = some y → y.2.order < x.2.order) (hx : x ∈ l)
      (h : ∀ y ∈ l, y ≠ x → y.2.order < x.2.order) : l.foldl newerVersion a = some x := by
    induction l generalizing a with
    | nil => cases hx
    | cons y l ih =>
      have hl : ∀ z ∈ l, z ≠ x → z.2.order < x.2.order := fun z hz => h z (List.mem_cons_of_mem y hz)
      rw [List.foldl_cons]
      by_cases hy : y = x
      · have step : newerVersion a y = some x := by
          rw [hy]
          cases a with
          | none => rfl
          | some z => exact if_pos (ha z rfl)
        rw [step]
        exact keep l hl
      · refine ih (newerVersion a y) (fun z hz => ?_) ((List.mem_cons.1 hx).resolve_left (Ne.symm hy)) hl
        have hyx := h y List.mem_cons_self hy
        cases a with
        | none =>
          obtain rfl := Option.some.inj hz
          exact hyx
        | some w =>
          unfold newerVersion at hz
          dsimp only at hz
          split at hz
          · obtain rfl := Option.some.inj hz
            exact hyx
          · exact ha z hz
  exact go l none (fun _ h => nomatch h) hx hmax

theorem mfind_filter_of_keep {β : Type} {m : Map β} {keep : Nat × β → Bool} {k : Nat} {b : β} (hf : mfind m k = some b) (hk : keep (k, b) = true) :
    mfind (m.filter keep) k = some b := by
  induction m with
  | nil => cases hf
  | cons e m ih =>
    obtain ⟨j, c⟩ := e
    by_cases hj : j = k
    · subst hj
      have hc : c = b := by simpa [mfind] using hf
      subst hc
      simp [hk, mfind]
    · have hm : mfind m k = some b := by simpa [mfind, hj] using hf
      rw [List.filter_cons]
      split
      · simpa [mfind, hj] using ih hm
      · exact ih hm

theorem mins_mins_same {β : Type} (m : Map β) (k : Nat) (a b : β) : mins (mins m k a) k b = mins m k b := by
  induction m with
  | nil => simp [mins]
  | cons e m ih =>
    obtain ⟨j, c⟩ := e
    by_cases h1 : k < j
    · simp [mins, h1]
    · by_cases h2 : k = j
      · simp [mins, h2]
      · simp [mins, h1, h2, ih]

/-- A version newly placed is committed, and stays. -/
theorem commitVersion_spec {m : Map AdapterVersion} (hs : s.gen.adapters = mins m k a) (ho : ∀ x ∈ m, x.2.order < a.order) :
    ∃ l, commitVersion s k = { s with gen := { s.gen with adapters := l } } ∧ mfind l k = some { a with bindable := true } := by
  have hset : setAdapter s k (fun v => { v with bindable := true })
      = { s with gen := { s.gen with adapters := mins m k { a with bindable := true } } } := by
    unfold setAdapter
    rw [hs, mfind_mins, if_pos rfl]
    dsimp only
    rw [mins_mins_same]
  generalize hu : ({ s with gen := { s.gen with adapters := mins m k { a with bindable := true } } } : State) = u at hset
  have hgen : u.gen.adapters = mins m k { a with bindable := true } := by rw [← hu]
  have hfind : mfind u.gen.adapters k = some { a with bindable := true } := by
    rw [hgen, mfind_mins, if_pos rfl]
  have hnew : newestVersion u a.part a.number.toNat = some (k, { a with bindable := true }) := by
    rw [newestVersion_eq]
    refine newest_of_max (List.mem_filter.2 ⟨List.mem_filter.2 ⟨mem_of_mfind hfind, by simp⟩, rfl⟩) fun y hy hne => ?_
    have hm : y ∈ u.gen.adapters := (List.mem_filter.1 (List.mem_filter.1 hy).1).1
    rw [hgen] at hm
    exact (mem_mins hm).elim (fun h => absurd h hne) (ho y)
  have law : commitVersion s k = freeVersions u := congrArg freeVersions hset
  refine ⟨(freeVersions u).gen.adapters, ?_, mfind_filter_of_keep hfind (by simp [hnew])⟩
  rw [law, ← hu]
  rfl

end

/-! ## GRAMMAR_LOAD (R252, R253) -/

section
variable {s t : State} {fn : Tenant} (h : SameTables s t)

section
include h

theorem SameTables.grammarNum_eq (g : Grammar) : grammarNum t g = grammarNum s g := by
  funext off n
  simp only [grammarNum, devNum, h.devRead_eq]

theorem SameTables.grammarState_eq (g : Grammar) : grammarState t g = grammarState s g := by
  unfold grammarState
  rw [h.grammarNum_eq]

theorem SameTables.stateIntervals_eq (g : Grammar) : stateIntervals t g = stateIntervals s g := by
  unfold stateIntervals grammarInterval
  rw [h.grammarState_eq, h.grammarNum_eq]

theorem SameTables.grammarOk_eq (g : Grammar) (n : Nat) (tn : Tenant) : grammarOk t g n tn = grammarOk s g n tn := by
  unfold grammarOk
  rw [h.grammarNum_eq, h.grammarState_eq, h.stateIntervals_eq]

theorem SameTables.readGrammar_eq (addr : Nat) (tn : Tenant) : readGrammar t addr tn = readGrammar s addr tn := by
  unfold readGrammar
  rw [h.devRead_eq]

end

/-- An RO extent of the tenant in the normal world. -/
def ownExtent (s : State) (fn : Tenant) (x : Nat) : Bool := (entryOf s x).any fun y => decide (y.cls = 0 ∧ y.tenant = fn ∧ y.world = false)

theorem ownExtent_iff {x : Nat} : ownExtent s fn x = true ↔ ∃ y, entryOf s x = some y ∧ y.cls = 0 ∧ y.tenant = fn ∧ y.world = false := by
  unfold ownExtent
  rw [Option.any_eq_true]
  simp only [decide_eq_true_eq]

theorem passes_grammarExtents {xs : List Nat} (hx : ∀ x ∈ xs, ownExtent s fn x = true) : passes (grammarExtents s fn xs) := by
  unfold grammarExtents accessChecks
  rw [passes_append, passes_append, passes_map, passes_map, passes_map]
  refine ⟨fun x hm => ?_, fun y hy => ?_, fun y hy => ?_⟩
  · obtain ⟨y, he, hc, -, -⟩ := ownExtent_iff.1 (hx x hm)
    exact require_true (by rw [he]; simpa using hc)
  · obtain ⟨x, hm, rfl⟩ := List.mem_map.1 hy
    obtain ⟨y, he, -, -, hw⟩ := ownExtent_iff.1 (hx x hm)
    simp [namedWorld, he, hw]
  · obtain ⟨x, hm, rfl⟩ := List.mem_map.1 hy
    obtain ⟨y, he, -, ht, -⟩ := ownExtent_iff.1 (hx x hm)
    simp [namedTenant, he, ht, otherTenant]

theorem passes_grammarAccess {n : Nat} (hn : ((mfind s.text.grammars n).all fun y => decide (y.tenant = fn ∧ y.world = false)) = true) :
    passes (accessChecks s fn [.grammar n]) := by
  unfold accessChecks
  rw [passes_append, passes_map, passes_map]
  simp only [List.mem_singleton, forall_eq, namedWorld, namedTenant]
  cases hg : mfind s.text.grammars n with
  | none => exact ⟨rfl, rfl⟩
  | some g =>
    rw [hg] at hn
    obtain ⟨ht, hw⟩ := of_decide_eq_true hn
    simp [otherTenant, ht, hw]

/-- A grammar whose image lies in the tenant's own extents: what is left to check is its form and that no slot has it bound. -/
theorem grammarLoad_of_own {h : Nat} {r : Request} (h1 : ∀ x ∈ spanExtents r.desc.argC.toNat 64, ownExtent s r.fn x = true)
    (hs : (readGrammar s r.desc.argC.toNat r.fn).states ≤ 1048576) (hi : (readGrammar s r.desc.argC.toNat r.fn).intervals ≤ 67108864)
    (hb : r.desc.argC.toNat + grammarBytes (readGrammar s r.desc.argC.toNat r.fn) ≤ 2 ^ 48)
    (h2 : ∀ x ∈ spanExtents r.desc.argC.toNat (grammarBytes (readGrammar s r.desc.argC.toNat r.fn)), ownExtent s r.fn x = true)
    (hn : ((mfind s.text.grammars (r.desc.argA.toNat % 256)).all fun y => decide (y.tenant = r.fn ∧ y.world = false)) = true) :
    grammarLoad s h r =
      let n := r.desc.argA.toNat % 256
      let g := readGrammar s r.desc.argC.toNat r.fn
      if grammarOk s g n r.fn = false then applyReject s h (badAt 48)
      else if grammarBound s n = true then applyReject s h noRoom
      else finishPlain { s with text := { s.text with grammars := mins s.text.grammars n g } } h .ok 0 := by
  have some1 : ∀ x ∈ spanExtents r.desc.argC.toNat 64, (entryOf s x).isSome = true := fun x hx => by
    obtain ⟨y, he, -⟩ := ownExtent_iff.1 (h1 x hx)
    simp [he]
  have some2 : ∀ x ∈ spanExtents r.desc.argC.toNat (grammarBytes (readGrammar s r.desc.argC.toNat r.fn)), (entryOf s x).isSome = true := fun x hx => by
    obtain ⟨y, he, -⟩ := ownExtent_iff.1 (h2 x hx)
    simp [he]
  have pre : passes (grammarExtents s r.fn (spanExtents r.desc.argC.toNat (grammarBytes (readGrammar s r.desc.argC.toNat r.fn)))
      ++ accessChecks s r.fn [.grammar (r.desc.argA.toNat % 256)]) := passes_append.2 ⟨passes_grammarExtents h2, passes_grammarAccess hn⟩
  unfold grammarLoad
  dsimp only
  rw [existing_of_all some1, checked_of_passes (passes_grammarExtents h1), if_neg (by simp; omega), existing_of_all some2]
  split
  · next hok =>
    refine checked_of_fails ?_ s h _
    rw [List.findSome?_append, show (_ : List (Option Reject)).findSome? id = none from pre, require_false hok]
    rfl
  · next hok =>
    rw [Bool.not_eq_false] at hok
    split
    · next hbound =>
      refine checked_of_fails ?_ s h _
      rw [List.findSome?_append, show (_ : List (Option Reject)).findSome? id = none from pre, require_true hok, hbound]
      rfl
    · next hbound =>
      refine checked_of_passes ?_ s h _
      rw [passes_append]
      refine ⟨pre, ?_⟩
      rw [require_true hok, require_true (by simpa using hbound)]
      rfl

end

/-- ADAPTER_LOAD of a tenant that commits alone, of a loaded partition. -/
theorem runAdapter_of_alone {s : State} {h : Nat} {r : Request} (sw : Bool) (hr : reqOf s h = some r) (hm : mutRole s r.fn none = .alone)
    (hp : (progOf s (partId (adapterPart r.desc)).toNat).isNone = false) :
    runAdapter s h sw =
      match (goodImages r.param (r.param.length / 16416)).2 with
      | some i => finish s h .badDescriptor (finalBody r i 0 .none 0 (w32 (imageAux i))) []
      | none =>
        let tiles := (goodImages r.param (r.param.length / 16416)).1
        match takeVersion s { tenant := r.fn, number := adapterNumber r.desc, part := partId (adapterPart r.desc), image := tiles } with
        | none => finishPlain s h .noResources 0
        | some (n, s) => adapterDone (setReq s h { r with phase := .mutation, outCount := tiles.length, listsCut := n }) h := by
  unfold runAdapter
  rw [hr]
  dsimp only
  rw [hm]
  dsimp only
  rw [hp, if_neg Bool.false_ne_true]
  generalize goodImages r.param (r.param.length / 16416) = images
  obtain ⟨tiles, bad⟩ := images
  cases bad with
  | some i => rfl
  | none =>
    dsimp only
    cases takeVersion s { tenant := r.fn, number := adapterNumber r.desc, part := partId (adapterPart r.desc), image := tiles } <;> rfl

theorem goodImages_fst_of_none {p : Bytes} {n : Nat} (h : ((List.range n).find? fun i => !(tileImage p i).crcOk) = none) :
    goodImages p n = ((List.range n).map (tileImage p), none) := by
  unfold goodImages
  rw [h]

theorem goodImages_snd (p : Bytes) (n : Nat) : (goodImages p n).2 = (List.range n).find? fun i => !(tileImage p i).crcOk := by
  unfold goodImages
  cases h : (List.range n).find? fun i => !(tileImage p i).crcOk <;> rfl

/-- A load's request with its tiles written and no acknowledgement due. -/
def loadedReq (r : Request) (count how : Nat) : Request := { r with writesLeft := 0, outCount := count, skippedEdges := how }

/-- LOAD_EXTENT of one tile of a WB extent. -/
theorem loadExtent_of_wb {s : State} {h : Nat} {r : Request} {e : ExtentEntry} (ha : r.desc.argA = 1)
    (he : entryOf s (devExtent (r.desc.argC.toNat / 16384)) = some e) (hc : e.cls = 1) (hp : (place e (devPos (r.desc.argC.toNat / 16384))).1 = 2) :
    ((tileImage r.param 0).crcOk = true → ∃ u : TierState,
      loadExtent s h r = loadFinal (setReq { s with tier := u } h (loadedReq r 1 0)) h
        (loadedReq r 1 0)
      ∧ u.lmem = (putL s (place e (devPos (r.desc.argC.toNat / 16384))).2 (tileImage r.param 0) true).tier.lmem)
    ∧ ((tileImage r.param 0).crcOk = false → ∃ how, 1 < how ∧ w32 how = 0x10000
      ∧ loadExtent s h r = loadFinal (setReq s h (loadedReq r 0 how)) h (loadedReq r 0 how)) := by
  have h1 : r.desc.argA.toNat = 1 := by rw [ha]; rfl
  refine ⟨fun hok => ?_, fun hok => ?_⟩
  · obtain ⟨u, hu, hmem⟩ := loadTile_wb h (tileImage r.param 0) he hc hp
    refine ⟨u, ?_, hmem⟩
    unfold loadExtent
    rw [h1, goodImages_one, if_pos hok]
    simp only [loadTiles, hu]
    rfl
  · refine ⟨imageAux 0, by norm_num [imageAux], by rfl, ?_⟩
    unfold loadExtent
    rw [h1, goodImages_one, if_neg (Bool.eq_false_iff.1 hok)]
    rfl

theorem loadFinal_of_whole {s : State} {h : Nat} {r : Request} (hr : r.skippedEdges = 0) :
    loadFinal s h r = finish s h .ok (finalBody r r.outCount 0 .none 0 0) [] := by
  unfold loadFinal
  rw [hr]
  rfl

theorem loadFinal_of_bad {s : State} {h : Nat} {r : Request} (hr : 1 < r.skippedEdges) :
    loadFinal s h r = finish s h .badDescriptor (finalBody r r.outCount 0 .none 0 (w32 r.skippedEdges)) [] := by
  unfold loadFinal
  rw [if_neg (by omega), if_neg (by omega), if_neg (by omega)]

theorem partId_adapterPart (d : Descriptor) : (partId (adapterPart d)).toNat = adapterPart d := by
  have : adapterPart d < 32 := Nat.mod_lt _ (by decide)
  unfold partId
  rw [BitVec.toNat_ofNat]
  omega

/-- A version placed for a request of its own is committed, and the request ends. -/
theorem adapterDone_of_placed {s : State} {h k : Nat} {r : Request} {m : Map AdapterVersion} {a : AdapterVersion}
    (hs : s.gen.adapters = mins m k a) (ho : ∀ x ∈ m, x.2.order < a.order) (hk : r.listsCut = k) (hp : r.phase ≠ .ending) (hm : r.remote = false)
    (hu : r.mute = false) (hc : canPost s r.fn r.qp) :
    ∃ t, adapterDone (setReq s h r) h = t ∧ mfind t.gen.adapters k = some { a with bindable := true }
      ∧ (reqOf t h).map (·.phase) = some .ending ∧ t.store = s.store ∧ t.tier = s.tier := by
  obtain ⟨l, hl, hfind⟩ := commitVersion_spec (s := setReq s h r) (k := k) (m := m) hs ho
  have hr : reqOf (setReq s h r) h = some r := (reqOf_setReq ..).trans (if_pos rfl)
  have law : adapterDone (setReq s h r) h = finish (commitVersion (setReq s h r) r.listsCut) h .ok (finalBody r r.outCount 0 .none 0 (w32 r.listsCut)) [] := by
    unfold adapterDone
    rw [hr]
  rw [hk, hl] at law
  have fin := finish_of_open (s := { setReq s h r with gen := { s.gen with adapters := l } }) hr hp hm (canPost_setReq hc hu) .ok
    (finalBody r r.outCount 0 .none 0 (w32 k)) []
  exact ⟨_, law.trans fin, hfind, ended_ending .., rfl, rfl⟩

/-- The version that the images of an ADAPTER_LOAD make. -/
def imagesVersion (r : Request) : AdapterVersion :=
  { tenant := r.fn, number := adapterNumber r.desc, part := partId (adapterPart r.desc)
    image := (List.range (r.param.length / 16416)).map (tileImage r.param) }

/-- ADAPTER_LOAD with whole images, of a tenant that commits alone: its version is placed and committed. -/
theorem runAdapter_of_whole {s : State} {h : Nat} {r : Request} (sw : Bool) (hr : reqOf s h = some r) (hm : mutRole s r.fn none = .alone)
    (hp : (progOf s (partId (adapterPart r.desc)).toNat).isNone = false)
    (hw : ((List.range (r.param.length / 16416)).find? fun i => !(tileImage r.param i).crcOk) = none)
    (hroom : ∃ k, k < 4096 ∧ mfind s.gen.adapters k = none) (hord : ∀ a ∈ s.gen.adapters, a.2.order < s.gen.adapterNext)
    (hrem : r.remote = false) (hmute : r.mute = false) (hc : canPost s r.fn r.qp) :
    ∃ t k a, runAdapter s h sw = t ∧ k < 4096 ∧ mfind s.gen.adapters k = none ∧ mfind t.gen.adapters k = some a ∧ a.tenant = r.fn
      ∧ a.number = adapterNumber r.desc ∧ a.part = partId (adapterPart r.desc)
      ∧ a.image = (List.range (r.param.length / 16416)).map (tileImage r.param) ∧ a.bindable = true
      ∧ (reqOf t h).map (·.phase) = some .ending ∧ t.store = s.store ∧ t.tier = s.tier := by
  have himages := goodImages_fst_of_none hw
  obtain ⟨k, t, htake, hk, hnone, ht⟩ := takeVersion_spec (s := s) (imagesVersion r) hroom
  have run : runAdapter s h sw = adapterDone (setReq t h { r with
      phase := .mutation, outCount := ((List.range (r.param.length / 16416)).map (tileImage r.param)).length, listsCut := k }) h := by
    rw [runAdapter_of_alone sw hr hm hp, himages]
    unfold imagesVersion at htake
    dsimp only
    rw [htake]
  obtain ⟨w, hw, hfind, hend, hstore, htier⟩ := adapterDone_of_placed (s := t) (h := h) (r := { r with
      phase := .mutation, outCount := ((List.range (r.param.length / 16416)).map (tileImage r.param)).length, listsCut := k })
    (m := s.gen.adapters) (a := { imagesVersion r with order := s.gen.adapterNext })
    (by rw [ht]) hord rfl (by simp) hrem hmute (by rw [ht]; exact hc)
  exact ⟨w, k, _, run.trans hw, hk, hnone, hfind, rfl, rfl, rfl, rfl, rfl, hend, hstore.trans (by rw [ht]), htier.trans (by rw [ht])⟩

/-- The end of GRAMMAR_LOAD: its text part is that of the load, the store, the tier and the generators stay. -/
theorem finishPlain_text {s : State} {h : Nat} {r : Request} (x : TextState) (hr : reqOf s h = some r) (hp : r.phase ≠ .ending) (hm : r.remote = false)
    (hc : canPost s r.fn r.qp) : ∃ t, finishPlain { s with text := x } h .ok 0 = t ∧ t.text = x ∧ (reqOf t h).map (·.phase) = some .ending
      ∧ t.store = s.store ∧ t.tier = s.tier ∧ t.gen = s.gen :=
  ⟨_, finishPlain_of_open (s := { s with text := x }) hr hp hm hc .ok 0, rfl, ended_ending .., rfl, rfl, rfl⟩

theorem applyReject_ends {s : State} {h : Nat} {r : Request} {x : Reject} (hr : reqOf s h = some r) (hp : r.phase ≠ .ending) (hm : r.remote = false)
    (hx : x.deny = none) (hc : canPost s r.fn r.qp) : ∃ t, applyReject s h x = t ∧ t.text = s.text ∧ (reqOf t h).map (·.phase) = some .ending
      ∧ t.store = s.store ∧ t.tier = s.tier ∧ t.gen = s.gen :=
  ⟨_, applyReject_of_open hr hp hm hx hc, rfl, ended_ending .., rfl, rfl, rfl⟩

section
variable {s : State} {fn : Tenant} {q : BitVec 3} {v : HostView} {f : Fetched} {rest : List Fetched} {e : ExtentEntry}

/-- LOAD_EXTENT of one tile: it is in tier L and its request ends, or its image is refused. -/
theorem loadExtent_accepted (hpost : canPost s fn q) (ha : f.desc.argA = 1)
    (he : entryOf s (devExtent (f.desc.argC.toNat / 16384)) = some e) (hc : e.cls = 1) (hp : (place e (devPos (f.desc.argC.toNat / 16384))).1 = 2) :
    let u := accepted s fn q .loadExtent f rest v
    let r := newRequest s fn q .loadExtent f.desc (paramBytes s f.desc v)
    ∃ t, loadExtent u f.handle r = t ∧ t.store = s.store ∧ t.flash = s.flash ∧ t.gen = s.gen
      ∧ ((tileImage r.param 0).crcOk = true →
          t.tier.lmem = (putL s (place e (devPos (f.desc.argC.toNat / 16384))).2 (tileImage r.param 0) true).tier.lmem
          ∧ (qpOf t fn q).waiting = (qpOf s fn q).waiting ++ [{ tag := f.desc.tag, body := finalBody r 1 0 .none 0 0, closes := some f.handle }])
      ∧ ((tileImage r.param 0).crcOk = false → t.tier = s.tier ∧ (qpOf t fn q).waiting = (qpOf s fn q).waiting ++ [
          { tag := f.desc.tag, body := finalBody r 0 0 .none 0 0x10000, status := .badDescriptor, closes := some f.handle }]) := by
  intro u r
  obtain ⟨hgood, hbad⟩ := loadExtent_of_wb (s := u) (h := f.handle) (r := r) ha he hc hp
  have hph : r.phase ≠ .ending := newRequest_phase s fn q .loadExtent f.desc (paramBytes s f.desc v)
  cases hok : (tileImage r.param 0).crcOk with
  | true =>
    obtain ⟨t, ht, hmem⟩ := hgood hok
    have fin := finish_setReq (s := { u with tier := t }) (h := f.handle) (r := loadedReq r 1 0) hph rfl rfl (canPost_accepted hpost) .ok
      (finalBody (loadedReq r 1 0) 1 0 .none 0 0) []
    refine ⟨_, ht.trans ((loadFinal_of_whole rfl).trans fin), rfl, rfl, rfl, fun _ => ⟨hmem, ?_⟩, fun h => absurd h (by decide)⟩
    exact (waiting_ended_setReq { u with tier := t } f.handle (loadedReq r 1 0) (loadedReq r 1 0) _).trans
      (congrArg (· ++ _) (waiting_accepted (s := s) (op := .loadExtent) (v := v)))
  | false =>
    obtain ⟨how, h1, hw, hload⟩ := hbad hok
    have fin := finish_setReq (s := u) (h := f.handle) (r := loadedReq r 0 how) hph rfl rfl (canPost_accepted hpost) .badDescriptor
      (finalBody (loadedReq r 0 how) 0 0 .none 0 0x10000) []
    have last : loadFinal (setReq u f.handle (loadedReq r 0 how)) f.handle (loadedReq r 0 how) =
        finish (setReq u f.handle (loadedReq r 0 how)) f.handle .badDescriptor (finalBody (loadedReq r 0 how) 0 0 .none 0 0x10000) [] := by
      rw [loadFinal_of_bad (r := loadedReq r 0 how) h1, ← hw]
      rfl
    obtain ⟨hs1, ht1, hf1, hg1, -⟩ := ended_parts (setReq u f.handle (loadedReq r 0 how)) f.handle (loadedReq r 0 how)
      { tag := f.desc.tag, body := finalBody (loadedReq r 0 how) 0 0 .none 0 0x10000, status := .badDescriptor, closes := some f.handle }
    refine ⟨_, hload.trans (last.trans fin), hs1, hf1, hg1, fun h => absurd h (by decide), fun _ => ⟨ht1, ?_⟩⟩
    exact (waiting_ended_setReq u f.handle (loadedReq r 0 how) (loadedReq r 0 how) _).trans
      (congrArg (· ++ _) (waiting_accepted (s := s) (op := .loadExtent) (v := v)))

end

/-- Settles O39: a WB tile written dirty or refused, a version committed or its images refused, a grammar loaded or refused. -/
theorem loadsTakeTheirImages : Obligations.LoadsTakeTheirImages := by
  unfold Obligations.LoadsTakeTheirImages
  intro s fn q v f rest e g u r0 p c hpost
  refine ⟨?_, ?_, ?_⟩
  · intro xs n l hfront hxs hpass ha he hc hp
    have law : execLoadExtent fn q v s = .next (loadExtent (u .loadExtent) f.handle (r0 .loadExtent)) := by
      refine congrArg Host.Outcome.next ((acceptFront_of_ok _ hfront rfl).trans ?_)
      exact (existing_of_all (s := u .loadExtent) hxs _).trans (checked_of_passes hpass _ _ _)
    obtain ⟨t, ht, hstore, hflash, hgen, hgood, hbad⟩ := loadExtent_accepted (rest := rest) (v := v) hpost ha he hc hp
    refine ⟨t, law.trans (congrArg Host.Outcome.next ht), hstore, hflash, hgen, ?_⟩
    cases hok : (tileImage p 0).crcOk with
    | true =>
      obtain ⟨hmem, hwait⟩ := hgood hok
      rw [if_pos rfl]
      exact ⟨(lTile_congr hmem l).trans (lTile_putL_same ..), fun k hk => (lTile_congr hmem k).trans (lTile_putL_other _ _ _ _ _ hk), hwait⟩
    | false =>
      rw [if_neg Bool.false_ne_true]
      exact hbad hok
  · intro n hfront hpass hrole hprog hroom hord
    have law : execAdapterLoad fn q v s = .next (runAdapter (u .adapterLoad) f.handle v.swapOk) :=
      congrArg Host.Outcome.next ((acceptFront_of_ok _ hfront rfl).trans (checked_of_passes hpass _ _ _))
    have hsome : (progOf (u .adapterLoad) (partId (adapterPart (r0 .adapterLoad).desc)).toNat).isNone = false := by
      rw [partId_adapterPart, show progOf (u .adapterLoad) (adapterPart (r0 .adapterLoad).desc) = some g from hprog]
      rfl
    have run := runAdapter_of_alone v.swapOk (s := u .adapterLoad) (h := f.handle) (r := r0 .adapterLoad) reqOf_accepted_same hrole hsome
    rw [goodImages_snd, show (r0 .adapterLoad).param = p from rfl] at run
    cases hbad : (List.range n).find? fun i => !(tileImage p i).crcOk with
    | some i =>
      rw [show (List.range (p.length / 16416)).find? (fun i => !(tileImage p i).crcOk) = some i from hbad] at run
      refine ⟨_, law.trans (congrArg Host.Outcome.next (run.trans (finish_accepted hpost _ _ _))), ended_ending .., rfl, rfl, rfl, ?_⟩
      exact waiting_ended_accepted _
    | none =>
      obtain ⟨w, k, a, hw, hk, hnone, hfind, htn, hnum, hpart, himg, hbind, hend, hstore, htier⟩ := runAdapter_of_whole v.swapOk (s := u .adapterLoad)
        (h := f.handle) (r := r0 .adapterLoad) reqOf_accepted_same hrole hsome hbad hroom hord rfl rfl (canPost_accepted hpost)
      exact ⟨w, law.trans (congrArg Host.Outcome.next hw), hend, hstore, htier, k, a, hk, hnone, hfind, htn, hnum, hpart, himg, hbind⟩
  · intro n gr own hfront hown hst hiv hsz hown2 hgr
    have same : SameTables s (u .grammarLoad) := sameTables_accepted ..
    have hph : (r0 .grammarLoad).phase ≠ .ending := newRequest_phase s fn q .grammarLoad f.desc (paramBytes s f.desc v)
    have hread : readGrammar (u .grammarLoad) c fn = gr := same.readGrammar_eq c fn
    have law : execGrammarLoad fn q v s = .next (grammarLoad (u .grammarLoad) f.handle (r0 .grammarLoad)) :=
      congrArg Host.Outcome.next (acceptFront_of_ok _ hfront rfl)
    have run := grammarLoad_of_own (s := u .grammarLoad) (h := f.handle) (r := r0 .grammarLoad) hown (by rw [← hread] at hst; exact hst)
      (by rw [← hread] at hiv; exact hiv) (by rw [← hread] at hsz; exact hsz) (by rw [← hread] at hown2; exact hown2) hgr
    rw [show readGrammar (u .grammarLoad) (r0 .grammarLoad).desc.argC.toNat (r0 .grammarLoad).fn = gr from hread] at run
    dsimp only at run
    rw [same.grammarOk_eq] at run
    refine ⟨fun hok hb => ?_, fun hno => ?_⟩
    · have run := run.trans ((if_neg fun h => absurd (hok.symm.trans h) (by decide)).trans (if_neg (Bool.eq_false_iff.1 hb)))
      obtain ⟨t, ht, htext, hend, hstore, htier, hgen⟩ := finishPlain_text { s.text with grammars := mins s.text.grammars n gr } (s := u .grammarLoad)
        (h := f.handle) reqOf_accepted_same hph rfl (canPost_accepted hpost)
      refine ⟨t, law.trans (congrArg Host.Outcome.next (run.trans ht)), ?_, fun k hk => ?_, hend, hstore, htier, hgen⟩
      · rw [htext]
        exact (mfind_mins ..).trans (if_pos rfl)
      · rw [htext]
        exact (mfind_mins ..).trans (if_neg hk)
    · have refused : ∃ x : Reject, x.deny = none ∧ grammarLoad (u .grammarLoad) f.handle (r0 .grammarLoad) = applyReject (u .grammarLoad) f.handle x := by
        by_cases hok : grammarOk s gr n fn = false
        · exact ⟨badAt 48, rfl, run.trans (if_pos hok)⟩
        · exact ⟨noRoom, rfl, run.trans ((if_neg hok).trans (if_pos (hno.resolve_left hok)))⟩
      obtain ⟨x, hx, hrej⟩ := refused
      obtain ⟨t, ht, htext, hend, hstore, htier, hgen⟩ := applyReject_ends (s := u .grammarLoad) (h := f.handle) reqOf_accepted_same hph rfl hx
        (canPost_accepted hpost)
      exact ⟨t, law.trans (congrArg Host.Outcome.next (hrej.trans ht)), htext, hend, hstore, htier, hgen⟩

end Sys2Proof.Machine

/-!
# The mailbox (R32, R123, R425 to R429, R457)

What an answer leaves in the mailbox's registers, and what each command answers. Most commands answer from the state alone; the ones with an
effect are the quiesce, the block reset, the limits and the clear of the event area.
-/

namespace Sys2Proof.Machine

/-! ## An answer -/

theorem reply_true (s : State) (st : BitVec 8) (data : Bytes) (tk : Option Word) : reply s true st data tk = emit s (.mctp (st :: data)) := rfl

theorem reply_bureau_eq (s : State) (m : Bool) (st : BitVec 8) (data : Bytes) (tk : Option Word) {α : Type} (p : BureauState → α)
    (h : ∀ (b : BureauState) (d : Map (BitVec 8)) (x : BitVec 8) (n : BitVec 13) (y : Bool) (w : Word),
      p { b with mbData := d, mbExec := false, mbStatus := x, mbOutLen := n, mbBackground := y, mbTicket := w } = p b) :
    p (reply s m st data tk).bureau = p s.bureau := by
  cases m with
  | true => rfl
  | false =>
    rw [reply_bureau]
    exact h s.bureau (putData s data).bureau.mbData ..

/-- The mailbox's output is among what went out. -/
theorem mem_out_reply (s : State) (st : BitVec 8) (data : Bytes) (tk : Option Word) : .mailboxReply st data ∈ (reply s false st data tk).host.out := by
  unfold reply
  simp only [Bool.false_eq_true, if_false]
  split
  · unfold signalVector
    dsimp only
    split
    · exact List.mem_cons_self
    · exact List.mem_cons_of_mem _ List.mem_cons_self
  · exact List.mem_cons_self

theorem mget_foldl_mput {l : List (BitVec 8 × Nat)} (h : (l.map (·.2)).Nodup) (m : Map (BitVec 8)) {v : BitVec 8} {i : Nat} (hx : (v, i) ∈ l) :
    mget 0 (l.foldl (fun m x => mput 0 m x.2 x.1) m) i = v := by
  have other (l : List (BitVec 8 × Nat)) (m : Map (BitVec 8)) (hi : i ∉ l.map (·.2)) :
      mget 0 (l.foldl (fun m x => mput 0 m x.2 x.1) m) i = mget 0 m i := by
    induction l generalizing m with
    | nil => rfl
    | cons y l ih =>
      rw [List.map_cons, List.mem_cons, not_or] at hi
      rw [List.foldl_cons, ih _ hi.2, mget_mput, if_neg hi.1]
  induction l generalizing m with
  | nil => cases hx
  | cons y l ih =>
    rw [List.map_cons, List.nodup_cons] at h
    rw [List.foldl_cons]
    rcases List.mem_cons.1 hx with rfl | hx
    · rw [other _ _ h.1, mget_mput, if_pos rfl]
    · exact ih h.2 _ hx

theorem mget_putData (s : State) (data : Bytes) {i : Nat} (h : i < 4096) (hd : i < data.length) :
    mget 0 (putData s data).bureau.mbData i = data.getD i 0 := by
  refine mget_foldl_mput ?_ _ ?_
  · rw [List.zipIdx_map_snd]
    exact List.nodup_range'
  · rw [List.mk_mem_zipIdx_iff_getElem?, List.getElem?_take_of_lt h, List.getD_eq_getElem?_getD, List.getElem?_eq_getElem hd]
    rfl

/-! ## Worlds -/

/-- The world of a block is set, and no other block's. -/
theorem secureBlock_setWorld (s : State) (b : BlockId) (v : Bool) (d : DieId) (k : BitVec 4) :
    secureBlock (setWorld s b v) d k = if d = b.die ∧ k = b.block then v else secureBlock s d k := by
  unfold setWorld
  by_cases hv : secureBlock s b.die b.block = v
  · rw [if_pos hv]
    by_cases h : d = b.die ∧ k = b.block
    · rw [if_pos h, h.1, h.2, hv]
    · rw [if_neg h]
  · rw [if_neg hv]
    unfold secureBlock at hv ⊢
    dsimp only
    rw [mget_mmod]
    by_cases hd : d = b.die
    · subst hd
      have hpow (j : BitVec 4) : (BitVec.ofNat 16 (2 ^ b.block.toNat)).getLsbD j.toNat = decide (j = b.block) := by
        generalize b.block = c
        revert c j
        decide
      simp only [if_true, true_and, BitVec.getLsbD_xor] at hv ⊢
      by_cases hk : k = b.block
      · subst hk
        rw [if_pos rfl, hpow, decide_eq_true rfl, ← Bool.xor_assoc]
        generalize (((secureReset b.die).getLsbD b.block.toNat) ^^ ((mget 0 s.bureau.secureXor b.die.toNat).getLsbD b.block.toNat)) = w at hv ⊢
        rw [Bool.xor_true, Bool.not_eq_eq_eq_not]
        exact Bool.eq_not_of_ne hv
      · rw [if_neg hk, hpow, decide_eq_false hk, Bool.xor_false]
    · have : d.toNat ≠ b.die.toNat := fun h => hd (BitVec.eq_of_toNat_eq h)
      rw [if_neg this, if_neg fun h => hd h.1]

theorem secureBlock_congr {s t : State} (h : t.bureau.secureXor = s.bureau.secureXor) (d : DieId) (k : BitVec 4) :
    secureBlock t d k = secureBlock s d k := by
  unfold secureBlock
  rw [h]

@[simp] theorem logEvent_secureXor (s : State) (e : Ev) : (logEvent s e).bureau.secureXor = s.bureau.secureXor :=
  (congrArg BureauState.secureXor (logEvent_outsideRecorder s e) :)

/-! ## The reset of a block (R457) -/

/-- Of the fabric's part at most the rings differ. -/
def OnlyRings (s t : State) : Prop := ∃ ring, t.fabric = { s.fabric with ring := ring }

theorem OnlyRings.of_eq {s t : State} (h : t.fabric = s.fabric) : OnlyRings s t := ⟨s.fabric.ring, by rw [h]⟩

theorem OnlyRings.trans {s t u : State} (h : OnlyRings s t) (h' : OnlyRings t u) : OnlyRings s u := by
  obtain ⟨_, h⟩ := h
  obtain ⟨r, h'⟩ := h'
  exact ⟨r, by rw [h', h]⟩

theorem writeTile_onlyRings (s : State) (src : DieId) (i : TileIdx) (t : Tile) (w : Bool) : OnlyRings s (writeTile s src i t w) := by
  have refused (c : Nat) : OnlyRings s (refuseWrite s src 0 i t.hdr c) := by
    unfold refuseWrite
    split <;> exact .of_eq (by simp)
  unfold writeTile
  split
  · exact refused 0
  · split
    · exact refused 1
    · obtain ⟨ring, h⟩ := announce_eq (setSlot s i fun _ =>
        { hdr := { acceptHeader src t.hdr w with state := .ready }, payload := t.payload, src := src }) i
      exact ⟨ring, by rw [h]; rfl⟩

theorem conductorPut_onlyRings (src : DieId) (w : Bool) (l : List Tile) (s : State) {r : List TileIdx × State}
    (h : conductorPut src w l s = some r) : OnlyRings s r.2 := by
  induction l generalizing s r with
  | nil =>
    cases h
    exact .of_eq rfl
  | cons t l ih =>
    rw [conductorPut, Option.bind_eq_some_iff] at h
    obtain ⟨i, -, h⟩ := h
    obtain ⟨r', h', rfl⟩ := Option.map_eq_some_iff.1 h
    exact (writeTile_onlyRings s src i (passing t) w).trans (ih _ (r := r') h')

theorem modReq_fabric (s : State) (h : Nat) (f : Request → Request) : (modReq s h f).fabric = s.fabric := by
  unfold modReq
  split <;> rfl

theorem shelfWrites_onlyRings {s t : State} {h shelf : Nat} (hw : shelfWrites s h shelf = some t) : OnlyRings s t := by
  unfold shelfWrites at hw
  obtain ⟨q, -, hw⟩ := Option.bind_eq_some_iff.1 hw
  obtain ⟨r, -, hw⟩ := Option.bind_eq_some_iff.1 hw
  obtain ⟨u, hu, rfl⟩ := Option.map_eq_some_iff.1 hw
  unfold scanPut at hu
  obtain ⟨_, -, hu⟩ := Option.bind_eq_some_iff.1 hu
  obtain ⟨x, hx, rfl⟩ := Option.map_eq_some_iff.1 hu
  have hput := conductorPut_onlyRings _ _ _ _ hx
  have hfab (f g : Request → Request) : OnlyRings x.2 (modReq (modReq x.2 h f) h g) := .of_eq ((modReq_fabric ..).trans (modReq_fabric ..))
  exact OnlyRings.trans (s := s) (.of_eq rfl) (hput.trans (hfab _ _))

theorem endScans_onlyRings (s : State) (shelf : Nat) : OnlyRings s (endScans s shelf) := by
  unfold endScans
  generalize s.host.requests.filter _ = l
  induction l generalizing s with
  | nil => exact .of_eq rfl
  | cons x l ih =>
    rw [List.foldl_cons]
    refine OnlyRings.trans ?_ (ih _)
    cases hw : shelfWrites s x.1 shelf with
    | none => exact .of_eq rfl
    | some t => exact (shelfWrites_onlyRings hw).trans (.of_eq (modReq_fabric ..))

/-- What a reset does to the contents of the block itself. -/
def resetContents (s : State) (b : BlockId) : State :=
  match engineOfBlock b with
  | some e => setEng s e fun x => { x.afterReset s.engines.holdGap s.engines.holdSlope with ctx0 := none, ctx1 := none }
  | none =>
    if isMemory b.die then { s with tier := { s.tier with cache := [] } }
    else if isFlash b.die then
      { endScans s (shelfOf b) with gen := { (endScans s (shelfOf b)).gen with codebooks := mdel (endScans s (shelfOf b)).gen.codebooks (shelfOf b) } }
    else { s with text := { s.text with streams := [], masks := [] } }

/-- The reset of a block before its world. -/
def resetQuiesced (s : State) (b : BlockId) : State := endQuiesce (resetFences (abandonWrites (resetContents s b) b) b.die) b

theorem resetBlock_eq (s : State) (b : BlockId) :
    resetBlock s b = if worldChanges b then setWorld (resetQuiesced s b) b false else resetQuiesced s b := rfl

theorem resetContents_onlyRings (s : State) (b : BlockId) : OnlyRings s (resetContents s b) := by
  unfold resetContents
  split
  · exact .of_eq rfl
  · split
    · exact .of_eq rfl
    · split
      · exact (endScans_onlyRings s (shelfOf b)).trans (.of_eq rfl)
      · exact .of_eq rfl

theorem endQuiesce_fences (s : State) (b : BlockId) : (endQuiesce s b).fabric.fences = s.fabric.fences := by
  unfold endQuiesce
  split <;> rfl

theorem mfind_endQuiesce (s : State) (b : BlockId) : mfind (endQuiesce s b).fabric.quiesce (blockKey b) =
    (mfind s.fabric.quiesce (blockKey b)).filter fun x => decide (x.stage = .hung) := by
  unfold endQuiesce
  split
  · next h =>
    rw [h]
    rfl
  · next h =>
    rw [mfind_mdel, if_pos rfl]
    cases hq : mfind s.fabric.quiesce (blockKey b) with
    | none => rfl
    | some x =>
      obtain ⟨st, at'⟩ := x
      have : st ≠ .hung := fun e => h at' (by rw [hq, e])
      simp [Option.filter, this]

theorem mfind_resetQuiesced (s : State) (b : BlockId) : mfind (resetQuiesced s b).fabric.quiesce (blockKey b) =
    (mfind s.fabric.quiesce (blockKey b)).filter fun x => decide (x.stage = .hung) := by
  obtain ⟨ring, h⟩ := resetContents_onlyRings s b
  have : (resetFences (abandonWrites (resetContents s b) b) b.die).fabric.quiesce = (resetContents s b).fabric.quiesce := rfl
  unfold resetQuiesced
  rw [mfind_endQuiesce, this, h]

theorem fences_resetQuiesced (s : State) (b : BlockId) : (resetQuiesced s b).fabric.fences =
    mmap (fun k f => if k % 64 = b.die.toNat then { f with reset := true } else f) s.fabric.fences := by
  obtain ⟨ring, h⟩ := resetContents_onlyRings s b
  have : (resetFences (abandonWrites (resetContents s b) b) b.die).fabric.fences =
    mmap (fun k f => if k % 64 = b.die.toNat then { f with reset := true } else f) (resetContents s b).fabric.fences := rfl
  unfold resetQuiesced
  rw [endQuiesce_fences, this, h]

/-- The reset's world and its fabric. -/
theorem resetBlock_fabric (s : State) (b : BlockId) : (resetBlock s b).fabric = (resetQuiesced s b).fabric := by
  rw [resetBlock_eq]
  split
  · exact (setWorld_frame ..).1
  · rfl

theorem resetBlock_engines (s : State) (b : BlockId) : (resetBlock s b).engines = (resetContents s b).engines := by
  have h : (resetQuiesced s b).engines = (resetContents s b).engines := by simp [resetQuiesced]
  rw [resetBlock_eq]
  split
  · simp [h]
  · exact h

theorem resetBlock_text (s : State) (b : BlockId) : (resetBlock s b).text = (resetContents s b).text := by
  have h : (resetQuiesced s b).text = (resetContents s b).text := by simp [resetQuiesced]
  rw [resetBlock_eq]
  split
  · simp [h]
  · exact h

theorem blockReset_of_unknown {s : State} {b : BlockId} (h : resettable b = false) : blockReset s b = (s, .badDescriptor, []) :=
  if_pos (by rw [h]; rfl)

theorem blockReset_of_refused {s : State} {b : BlockId} (h : resettable b = true) (hr : resetRefused s b = true) :
    blockReset s b = (s, .noResources, []) := (if_neg (by rw [h]; decide)).trans (if_pos hr)

theorem blockReset_of_allowed {s : State} {b : BlockId} (h : resettable b = true) (hr : resetRefused s b = false) (hp : s.power.resetting = none) :
    blockReset s b = (logEvent (resetBlock s b) (.blockResetDone b.die b.block.toNat (isQuiet s b)), .ok, toLE 1 (b2n (isQuiet s b))) := by
  unfold blockReset
  rw [if_neg (by rw [h]; decide), if_neg (by rw [hr]; decide)]
  unfold orHold
  rw [hp]

theorem toLE_one_b2n (v : Bool) : toLE 1 (b2n v) = [BitVec.ofNat 8 (b2n v)] := rfl

theorem engineOfBlock_die {b : BlockId} {e : Engine} (h : engineOfBlock b = some e) : b.die.toNat < 24 := by
  unfold engineOfBlock at h
  have hp := List.find?_some h
  have : engineBlock e = b := of_decide_eq_true hp
  rw [← this]
  simp only [engineBlock, BitVec.toNat_ofNat]
  omega

theorem resetContents_text {b : BlockId} (h : b.die = 0x3E) (s : State) : (resetContents s b).text.streams = [] := by
  have he : engineOfBlock b = none := by
    cases hx : engineOfBlock b with
    | none => rfl
    | some e =>
      have := engineOfBlock_die hx
      rw [h] at this
      exact absurd this (by decide)
  unfold resetContents
  rw [he, h]
  rfl

theorem engOf_resetContents {s : State} {b : BlockId} {x : Engine} (h : engineOfBlock b = some x) : engOf (resetContents s b) x =
    { (engOf s x).afterReset s.engines.holdGap s.engines.holdSlope with ctx0 := none, ctx1 := none } := by
  unfold resetContents
  rw [h]
  dsimp only
  rw [engOf_setEng, if_pos rfl]

/-! ## The quiesce (R32) -/

/-- The request for quiet goes out once. -/
def quiesceAsked (s : State) (b : BlockId) : State :=
  if (mfind s.fabric.quiesce (blockKey b)).isSome then s else
    quiesceReq (sendCtrl s { src := 0x3F, dest := b.die, block := b.block, scope := 0xFF, type := 0x06 }) b

theorem quiesceAsked_bureau (s : State) (b : BlockId) : (quiesceAsked s b).bureau = s.bureau := by
  unfold quiesceAsked
  split
  · rfl
  · rw [(quiesceReq_frame ..).2.2.2.2.2.2.2.1]
    rfl

theorem quiesceReq_records (s : State) (b : BlockId) : (mfind (quiesceReq s b).fabric.quiesce (blockKey b)).isSome = true := by
  unfold quiesceReq
  split
  · next h => rw [h]; rfl
  · split
    · simp
    · simp [startDrain]

theorem quiesceAsked_records (s : State) (b : BlockId) : (mfind (quiesceAsked s b).fabric.quiesce (blockKey b)).isSome = true := by
  unfold quiesceAsked
  split
  · assumption
  · exact quiesceReq_records ..

theorem mailboxQuiesce_of_recovery {s : State} {b : BlockId} (h : s.bureau.recovery = true) :
    mailboxQuiesce s b = reply s false (BitVec.ofNat 8 Status.badDescriptor.code) [] none := if_pos h

theorem mailboxQuiesce_of_quiet {s : State} {b : BlockId} (h : s.bureau.recovery = false) (hq : isQuiet s b = true) :
    mailboxQuiesce s b = reply s false (BitVec.ofNat 8 Status.ok.code) [] none :=
  (if_neg (by rw [h]; decide)).trans (if_pos hq)

theorem mailboxQuiesce_of_busy {s : State} {b : BlockId} (h : s.bureau.recovery = false) (hq : isQuiet s b = false) :
    mailboxQuiesce s b = replyBusy (quiesceAsked s b) false { ticket := 0, fromMailbox := true, die := b.die, block := b.block, code := 0x05, sub := 0 } :=
  (if_neg (by rw [h]; decide)).trans (if_neg (by rw [hq]; decide))

/-- A command that goes on in the background has a ticket and a record. -/
theorem replyBusy_spec (s : State) (x : Background) :
    (replyBusy s false x).bureau.ticketNext = s.bureau.ticketNext + 1 ∧ (replyBusy s false x).bureau.mbBackground = true
    ∧ (replyBusy s false x).bureau.mbTicket = w32 s.bureau.ticketNext ∧ (replyBusy s false x).bureau.mbExec = false
    ∧ { x with ticket := w32 s.bureau.ticketNext, fromMailbox := true } ∈ (replyBusy s false x).bureau.background := by
  unfold replyBusy
  dsimp only
  refine ⟨?_, ?_, ?_, reply_mbExec .., ?_⟩
  · exact reply_bureau_eq _ _ _ _ _ BureauState.ticketNext fun _ _ _ _ _ _ => rfl
  · rw [reply_bureau]
    rfl
  · rw [reply_bureau]
    rfl
  · rw [reply_bureau_eq _ _ _ _ _ BureauState.background fun _ _ _ _ _ _ => rfl]
    exact List.mem_append_right _ List.mem_cons_self

/-! ## Records, limits and events -/

theorem readSlot_of_some {s : State} {p : PartId} {g : Program} (h : (partOf s p).prog = some g) (n : Nat) : readSlot s p n =
    if n < g.slots then (s, .ok, toLE 37 (packFields (slotFields (slotRec s p n)))) else (s, .badDescriptor, []) := by
  unfold readSlot
  rw [h]
  rfl

theorem flushEvents_of_none {s : State} (h : s.bureau.staged = []) : flushEvents s = s := by
  have hs : { s with bureau := { s.bureau with staged := s.bureau.staged } } = s := rfl
  unfold flushEvents
  rw [h, List.foldr_nil, ← h, hs]

/-- The record of a cleared event area. -/
def clearedRecord (s : State) : EventRec :=
  { code := 0x1208, source := (Ev.eventAreaCleared s.bureau.firstArea.length).src, world := (Ev.eventAreaCleared s.bureau.firstArea.length).world
    severity := 0, summary := false, time := recNow s, seq := s.bureau.evSeq, params := [w32 s.bureau.firstArea.length] }

/-- The first area emptied. -/
def areaEmptied (s : State) : State := { s with bureau := { s.bureau with firstArea := [] } }

theorem clearEvents_of_flushed {s : State} (h : s.bureau.staged = []) :
    clearEvents s = flushEvents (storeRecord (areaEmptied s) (.eventAreaCleared s.bureau.firstArea.length) false) := by
  unfold clearEvents
  rw [flushEvents_of_none h]
  rfl

theorem clearEvents_bureau {s : State} (h : s.bureau.staged = []) : (clearEvents s).bureau.evSeq = s.bureau.evSeq + 1
    ∧ (clearEvents s).bureau.staged = [] ∧ (clearEvents s).bureau.firstArea = [clearedRecord s]
    ∧ (clearEvents s).bureau.lastArea = (clearedRecord s :: s.bureau.lastArea).take 16384 := by
  have hb := storeRecord_bureau (areaEmptied s) (.eventAreaCleared s.bureau.firstArea.length) false
  have hst : (storeRecord (areaEmptied s) (.eventAreaCleared s.bureau.firstArea.length) false).bureau.staged = [clearedRecord s] := by
    rw [hb]
    show _ :: s.bureau.staged = _
    rw [h]
    rfl
  have hseq := congrArg BureauState.evSeq hb
  have hfirst := congrArg BureauState.firstArea hb
  have hlast := congrArg BureauState.lastArea hb
  rw [clearEvents_of_flushed h]
  generalize storeRecord (areaEmptied s) (.eventAreaCleared s.bureau.firstArea.length) false = u at hst hseq hfirst hlast
  unfold flushEvents
  rw [hst]
  refine ⟨hseq, rfl, ?_, ?_⟩
  · simp only [List.foldr_cons, List.foldr_nil, keepRecord, hfirst]
    rfl
  · simp only [List.foldr_cons, List.foldr_nil, keepRecord, hlast]
    rfl

theorem regulated_lt {d : Nat} (h : regulated d = true) : d < 30 := by
  simp only [regulated, Bool.and_eq_true, decide_eq_true_eq] at h
  omega

/-! ## The attestation report (R429) -/

theorem length_flatMap_const {α β : Type} {f : α → List β} {n : Nat} (h : ∀ a, (f a).length = n) (l : List α) : (l.flatMap f).length = l.length * n := by
  induction l with
  | nil => simp
  | cons a l ih => simp only [List.flatMap_cons, List.length_append, ih, h, List.length_cons]; ring

theorem length_dieIdentity (d : DieId) : (dieIdentity d).length = 12 := by simp [dieIdentity]

theorem length_configDigests (s : State) : (configDigests s).1.length = 2304 := by
  simp [configDigests, freeBytes, length_flatMap_const fun _ => length_toLE 64 _]

/-- The report's first 64 bytes: its heading and the nonce. -/
def reportHead (s : State) (nonce : BitVec 256) : Bytes :=
  toLE 2 1 ++ toLE 2 0 ++ toLE 4 5208 ++ toLE 4 s.bureau.reports.toNat ++ toLE 6 (recNow s).toNat ++ pad 14 []

/-- The report between the serial number and the rollback counter. -/
def reportMiddle (s : State) : Bytes :=
  allDies.flatMap dieIdentity ++ (List.range 8).flatMap (fun i => toLE 64 (if i = 7 then 0 else (Config.measurement i).toNat)) ++ (configDigests s).1

/-- The report after the rollback counter. -/
def reportTail (s : State) : Bytes :=
  toLE 1 s.bureau.keySlot.toNat ++ toLE 1 (b2n s.bureau.activeB + 2 * b2n s.bureau.debugUnlocked + 4 * b2n s.bureau.recoveryBit)

theorem length_reportHead (s : State) (nonce : BitVec 256) : (reportHead s nonce).length = 32 := by simp [reportHead]

theorem length_reportMiddle (s : State) : (reportMiddle s).length = 3584 := by
  simp only [reportMiddle, List.length_append, length_configDigests, length_flatMap_const length_dieIdentity,
    length_flatMap_const fun _ => length_toLE 64 _, allDies, List.length_map, List.length_range]

theorem configDigests_state (s : State) : (configDigests s).2 = { s with free := s.free + 1 } := rfl

theorem reportBody_eq (s : State) (nonce : BitVec 256) : (reportBody s nonce).1 =
    reportHead s nonce ++ (toLE 32 nonce.toNat ++ (toLE 16 Config.serial.toNat ++ (reportMiddle s ++ (toLE 2 s.fuses.rollback ++ reportTail s)))) := by
  simp only [reportBody, configDigests_state, reportHead, reportMiddle, reportTail, List.append_assoc]
  rfl

theorem reportBody_state (s : State) (nonce : BitVec 256) : (reportBody s nonce).2 = { s with free := s.free + 1 } := rfl

theorem length_reportTail (s : State) : (reportTail s).length = 2 := by simp [reportTail]

/-- The state in which a report is counted. -/
def reportCounted (s : State) : State := { s with bureau := { s.bureau with reports := s.bureau.reports + 1 } }

/-- The report with its signature. -/
def signedReport (s : State) (nonce : BitVec 256) : Bytes :=
  (reportBody s nonce).1 ++ (toLE 2 ((Config.falconSignature (reportBody s nonce).1).take 1536).length ++ toLE 2 0
    ++ pad 1536 ((Config.falconSignature (reportBody s nonce).1).take 1536))

theorem attest_eq (s : State) (nonce : BitVec 256) : attest s nonce =
    ({ reportCounted s with free := s.free + 1 }, .ok, signedReport (reportCounted s) nonce) := by
  simp only [attest, signedReport, reportCounted, reportBody_state, List.append_assoc]

theorem take_drop_append {l l' r : Bytes} {a b : Nat} (ha : l.length = a) (hb : l'.length = b) : ((l ++ (l' ++ r)).drop a).take b = l' := by
  subst ha hb
  rw [List.drop_left, List.take_left]

theorem signedReport_spec (s : State) (nonce : BitVec 256) : (signedReport s nonce).length = 5208
    ∧ ((signedReport s nonce).drop 32).take 32 = toLE 32 nonce.toNat ∧ ((signedReport s nonce).drop 64).take 16 = toLE 16 Config.serial.toNat
    ∧ ((signedReport s nonce).drop 3664).take 2 = toLE 2 s.fuses.rollback := by
  unfold signedReport
  generalize hsig : toLE 2 ((Config.falconSignature (reportBody s nonce).1).take 1536).length ++ toLE 2 0
    ++ pad 1536 ((Config.falconSignature (reportBody s nonce).1).take 1536) = sig
  have hl : sig.length = 1540 := by simp [← hsig]
  rw [reportBody_eq]
  have hh := length_reportHead s nonce
  have hm := length_reportMiddle s
  have ht := length_reportTail s
  refine ⟨?_, ?_, ?_, ?_⟩
  · simp only [List.length_append, length_toLE, hh, hm, ht, hl]
  · rw [List.append_assoc, List.append_assoc]
    exact take_drop_append hh (length_toLE ..)
  · simp only [← List.append_assoc (reportHead s nonce), List.append_assoc (reportHead s nonce ++ _)]
    refine take_drop_append (l := reportHead s nonce ++ toLE 32 nonce.toNat) ?_ (length_toLE ..)
    simp [hh]
  · have : reportHead s nonce ++ (toLE 32 nonce.toNat ++ (toLE 16 Config.serial.toNat ++ (reportMiddle s ++ (toLE 2 s.fuses.rollback ++ reportTail s))))
        ++ sig = (reportHead s nonce ++ toLE 32 nonce.toNat ++ toLE 16 Config.serial.toNat ++ reportMiddle s)
          ++ (toLE 2 s.fuses.rollback ++ (reportTail s ++ sig)) := by simp only [List.append_assoc]
    rw [this]
    refine take_drop_append ?_ (length_toLE ..)
    simp [hh, hm]

/-! ## Background commands (R426) -/

section
variable {s : State} {m : Bool} {tk : Word}

theorem statusCommand_of_outcome {st : BitVec 8} {d : Bytes} (h : mfind s.bureau.outcomes tk.toNat = some (st, d)) :
    statusCommand s m tk = reply s m st d none := by
  unfold statusCommand
  rw [h]

theorem statusCommand_of_unknown (h : mfind s.bureau.outcomes tk.toNat = none) (hb : ∀ x ∈ s.bureau.background, x.ticket ≠ tk) :
    statusCommand s m tk = reply s m (BitVec.ofNat 8 Status.badDescriptor.code) [] none := by
  unfold statusCommand
  rw [h]
  refine if_neg ?_
  simpa using hb

theorem backgroundDone_of_unknown (hb : ∀ x ∈ s.bureau.background, x.ticket ≠ tk) : backgroundDone s tk = s := by
  unfold backgroundDone
  have : (s.bureau.background.find? fun b => decide (b.ticket = tk)) = none := by simpa [List.find?_eq_none] using hb
  rw [this]

/-- A background command that ended well. -/
theorem backgroundDone_of_ok {q : Background} (hq : (s.bureau.background.find? fun x => decide (x.ticket = tk)) = some q)
    (ho : backgroundOutcome s q = some (some .ok)) : backgroundDone s tk = { s with
      free := s.free + 1
      bureau := { s.bureau with
        background := s.bureau.background.filter fun x => decide (x.ticket ≠ tk), outcomes := mins s.bureau.outcomes tk.toNat (0, [])
        mbBackground := s.bureau.mbBackground && !decide (s.bureau.mbTicket = tk) } } := by
  unfold backgroundDone
  rw [hq]
  dsimp only
  rw [ho]
  rfl

theorem backgroundOutcome_of_quiet {q : Background} (hc : q.code = 0x05)
    (h : (mfind s.fabric.quiesce (blockKey { die := q.die, block := q.block })).map (·.stage) = some .done) :
    backgroundOutcome s q = some (some .ok) := by
  obtain ⟨x, hx, hst⟩ := Option.map_eq_some_iff.1 h
  unfold backgroundOutcome
  rw [if_pos hc, hx]
  exact if_pos hst

end

/-- The state in which the control message has set the endpoint identifier. -/
def endpointSet (s : State) (req : Bytes) : State :=
  { s with bureau := { s.bureau with mctpEid := if rd req 1 1 = 1 then BitVec.ofNat 8 (rd req 3 1) else s.bureau.mctpEid } }

theorem mctpControl_eq (s : State) (req : Bytes) : mctpControl s req =
    emit { endpointSet s req with free := s.free + 1 } (.mctp ((List.range 4).map (Config.freeByte s.free))) := by
  unfold mctpControl endpointSet
  split <;> rfl

theorem pldmRequest_of_some {s : State} {id : BitVec 16} {v : Int} (h : sensorReading s id.toNat = some v) :
    pldmRequest s id = emit s (.mctp (toLE 4 (w32i v).toNat)) := by
  unfold pldmRequest
  rw [h]

theorem pldmRequest_of_none {s : State} {id : BitVec 16} (h : sensorReading s id.toNat = none) :
    pldmRequest s id = emit { s with free := s.free + 1 } (.mctp ((List.range 1).map (Config.freeByte s.free))) := by
  unfold pldmRequest
  rw [h]
  rfl

/-- Settles O49: the answer's registers first, then every command outside recovery by the rule of what it does. -/
theorem mailboxCommandsAreAnswered : Obligations.MailboxCommandsAreAnswered := by
  unfold Obligations.MailboxCommandsAreAnswered
  intro s b m first off p slot a n e l nonce tk req id st data g q
  dsimp only
  refine ⟨⟨?_, ?_⟩, fun hr => ⟨?_, ?_⟩, fun hr => ⟨?_, ?_, ?_, ?_, ?_, ?_, ?_, ?_, ?_, ?_, ?_, ?_, ?_, ?_, ?_, ?_, ?_, ?_, ?_⟩, ?_, ?_, ?_, ?_, ?_, ?_, ?_⟩
  · rintro rfl
    rfl
  · rintro rfl
    have hb := reply_bureau s st data none
    refine ⟨reply_mbExec .., reply_mbStatus .., ?_, ?_, fun i hi hd => ?_, mem_out_reply .., ?_, ?_, ?_, ?_⟩
    · rw [hb]
      simp only [BitVec.toNat_ofNat]
      omega
    · rw [hb]
      rfl
    · rw [hb]
      exact mget_putData s data hi hd
    all_goals simp
  · exact congrArg Host.Outcome.next (mailboxQuiesce_of_recovery hr)
  · intro c hc
    simp only [List.mem_cons, List.not_mem_nil, or_false] at hc
    rcases hc with rfl | rfl | rfl | rfl | rfl | rfl | rfl | rfl <;>
      exact congrArg Host.Outcome.next (command_of_recovery hr _)
  · exact fun hq => congrArg Host.Outcome.next (mailboxQuiesce_of_quiet hr hq)
  · intro hq
    obtain ⟨hnext, hback, hticket, hexec, hmem⟩ :=
      replyBusy_spec (quiesceAsked s b) { ticket := 0, fromMailbox := true, die := b.die, block := b.block, code := 0x05, sub := 0 }
    rw [quiesceAsked_bureau] at hnext hticket hmem
    refine ⟨_, congrArg Host.Outcome.next (mailboxQuiesce_of_busy hr hq), ?_, hnext, hback, hticket, hexec, hmem⟩
    rw [(replyBusy_frame ..).1]
    exact quiesceAsked_records s b
  · intro h
    refine congrArg Host.Outcome.next ((command_of_running hr _).trans ?_)
    rw [blockReset_of_unknown h]
  · intro h h'
    refine congrArg Host.Outcome.next ((command_of_running hr _).trans ?_)
    rw [blockReset_of_refused h h']
  · intro h h' hp
    have law := command_of_running (m := false) hr fun s => blockReset s b
    rw [blockReset_of_allowed h h' hp] at law
    refine ⟨_, congrArg Host.Outcome.next law, ?_, fun k f hf hk => ?_, fun hw => ?_, fun x hx => ?_, fun hd => ?_, reply_mbStatus .., ?_⟩
    · simp only [reply_frame, logEvent_frame, resetBlock_fabric]
      exact mfind_resetQuiesced s b
    · simp only [reply_frame, logEvent_frame, resetBlock_fabric, fences_resetQuiesced, mfind_mmap, hf, Option.map_some]
      rw [if_pos hk]
    · have hx : (reply (logEvent (resetBlock s b) (.blockResetDone b.die b.block.toNat (isQuiet s b))) false (BitVec.ofNat 8 Status.ok.code)
          (toLE 1 (b2n (isQuiet s b))) none).bureau.secureXor = (resetBlock s b).bureau.secureXor :=
        (reply_bureau_eq _ _ _ _ _ BureauState.secureXor fun _ _ _ _ _ _ => rfl).trans (logEvent_secureXor ..)
      rw [secureBlock_congr hx, resetBlock_eq, if_pos hw, secureBlock_setWorld, if_pos ⟨rfl, rfl⟩]
    · rw [engOf_congr (s := resetContents s b) (by simp [resetBlock_engines]), engOf_resetContents hx]
      exact ⟨rfl, rfl, rfl, rfl, rfl, rfl⟩
    · simp only [reply_frame, logEvent_frame, resetBlock_text]
      exact resetContents_text hd s
    · exact mem_out_reply ..
  · refine congrArg Host.Outcome.next ((command_of_running hr _).trans ?_)
    cases m <;> rfl
  · exact congrArg Host.Outcome.next (command_of_running hr _)
  · intro hg
    refine ⟨fun hs => ?_, fun hs => ?_⟩ <;>
      refine congrArg Host.Outcome.next ((command_of_running hr _).trans ?_)
    · rw [readSlot_of_some hg, if_pos hs]
      rfl
    · rw [readSlot_of_some hg, if_neg (Nat.not_lt.2 hs)]
  · exact congrArg Host.Outcome.next (command_of_running hr _)
  · intro hl
    refine congrArg Host.Outcome.next ((command_of_running hr _).trans ?_)
    rw [if_neg (by rw [hl]; decide)]
  · intro v hlo hhi
    refine congrArg Host.Outcome.next ((command_of_running hr _).trans ?_)
    rw [if_pos (by simp [Limits.ok, hlo, hhi])]
    rfl
  · intro v hlo hhi
    refine congrArg Host.Outcome.next ((command_of_running hr _).trans ?_)
    rw [if_pos (by simp [Limits.ok, hlo, hhi])]
    rfl
  · intro v hlo hhi
    refine congrArg Host.Outcome.next ((command_of_running hr _).trans ?_)
    rw [if_pos (by simp [Limits.ok, hlo, hhi])]
    rfl
  · intro d v hd hlo hhi
    have hlt := regulated_lt hd
    have law := command_of_running (m := m) hr
      fun s => if (Limits.rateTarget d v).ok then ({ s with limits := setLimit s.limits (.rateTarget d v) }, .ok, []) else (s, .badDescriptor, [])
    rw [if_pos (by simp [Limits.ok, hd, hlt, hlo, hhi])] at law
    refine ⟨_, congrArg Host.Outcome.next law, ?_, ?_, fun k hk => ?_⟩
    · simp [rateTargetOf, setLimit]
    · simp [setLimit]
    · simp [rateTargetOf, setLimit, hk]
  · exact congrArg Host.Outcome.next (command_of_running hr _)
  · intro hs
    obtain ⟨hseq, hstaged, hfirst, hlast⟩ := clearEvents_bureau hs
    refine ⟨_, congrArg Host.Outcome.next (command_of_running hr _), ?_, ?_, clearedRecord s, ?_, rfl, rfl, rfl, rfl, ?_⟩
    · exact (reply_bureau_eq _ _ _ _ _ BureauState.evSeq fun _ _ _ _ _ _ => rfl).trans hseq
    · exact (reply_bureau_eq _ _ _ _ _ BureauState.staged fun _ _ _ _ _ _ => rfl).trans hstaged
    · exact (reply_bureau_eq _ _ _ _ _ BureauState.firstArea fun _ _ _ _ _ _ => rfl).trans hfirst
    · exact (reply_bureau_eq _ _ _ _ _ BureauState.lastArea fun _ _ _ _ _ _ => rfl).trans hlast
  · refine congrArg Host.Outcome.next ((command_of_running hr _).trans ?_)
    rw [List.flatMap_def, List.flatMap_def]
    rfl
  · obtain ⟨hlen, hnonce, hserial, hroll⟩ := signedReport_spec (reportCounted s) nonce
    have law := command_of_running (m := false) hr fun s => attest s nonce
    rw [attest_eq] at law
    refine ⟨_, congrArg Host.Outcome.next law, ?_, ?_, ?_, _, hlen, mem_out_reply .., hnonce, hserial, hroll⟩
    · exact reply_bureau_eq _ _ _ _ _ BureauState.reports fun _ _ _ _ _ _ => rfl
    · rw [reply_bureau]
      simp [hlen]
    · simp [reportCounted]
  · exact congrArg Host.Outcome.next (command_of_running hr _)
  · exact fun st d h => congrArg Host.Outcome.next (statusCommand_of_outcome h)
  · exact fun h hb => congrArg Host.Outcome.next (statusCommand_of_unknown h hb)
  · exact fun hb => congrArg Host.Outcome.next (backgroundDone_of_unknown hb)
  · intro hq hc hd
    refine ⟨_, congrArg Host.Outcome.next (backgroundDone_of_ok hq (backgroundOutcome_of_quiet hc hd)), ?_, ?_, fun ht => ?_, rfl, rfl⟩
    · simp
    · intro x hx
      simpa using (List.mem_filter.1 hx).2
    · simp [ht]
  · exact ⟨_, congrArg Host.Outcome.next (mctpControl_eq s req), rfl, rfl, _, rfl, by simp⟩
  · exact fun v hv => congrArg Host.Outcome.next (pldmRequest_of_some hv)
  · exact fun hv => ⟨_, congrArg Host.Outcome.next (pldmRequest_of_none hv), rfl, rfl, _, rfl, by simp⟩

end Sys2Proof.Machine

/-!
# The step watchdog, worlds of blocks and in-field tests (R335, R349 to R355, R363, R416, Table 15.8)

A step that nothing is wrong with but the time it takes is retracted and issued again; an engine that did not answer is retired, and the third
attempt runs on the mapping without it. A block that changes its world is zeroed. An engine under test is out of use until its test ends.
-/

namespace Sys2Proof.Machine

/-! ## The sequencer's state -/

theorem mget_mmap {β : Type} (d : β) (f : Nat → β → β) (m : Map β) (k : Nat) (h : f k d = d) : mget d (mmap f m) k = f k (mget d m k) := by
  unfold mget
  rw [mfind_mmap]
  cases mfind m k with
  | none => exact h.symm
  | some v => rfl

theorem partOf_mmap {s t : State} {f : Nat → Partition → Partition} (ht : t.gen.parts = mmap f s.gen.parts) (h : ∀ n, f n {} = {}) (r : PartId) :
    partOf t r = f r.toNat (partOf s r) := by
  unfold partOf
  rw [ht, mget_mmap _ _ _ _ (h _)]

theorem logEvent_gen (s : State) (e : Ev) : (logEvent s e).gen = s.gen := (logEvent_frame s e).2.2.2.2.1

@[simp] theorem partOf_logEvent (s : State) (e : Ev) (r : PartId) : partOf (logEvent s e) r = partOf s r := partOf_congr (by rw [logEvent_gen]) r

@[simp] theorem engOf_logEvent (s : State) (e : Ev) (k : Engine) : engOf (logEvent s e) k = engOf s k := engOf_congr (by simp) k

theorem recordFault_parts (s : State) (f : FaultInfo) (ev : Nat → Ev) : (recordFault s f ev).gen.parts = s.gen.parts := by
  unfold recordFault
  simp only [logEvent_gen]
  rfl

/-- Nothing of an engine decides of a mapping but whether it is retired, and its spares. -/
theorem minusFor_congr {s t : State} (h : ∀ k, (engOf t k).retired = (engOf s k).retired ∧ (engOf t k).spareApplied = (engOf s k).spareApplied)
    (q : Partition) (e : Engine) : minusFor t q e = minusFor s q e := by
  have hu (m : Mapping) : usable t m = usable s m := by
    unfold usable usableWith spareUsed
    refine congrArg (List.all (mappingEngines m)) (funext fun k => ?_)
    rw [(h k).1, (h k).2]
  unfold minusFor
  simp only [hu]

theorem thirdMapping_congr {s t : State} (h : t.engines = s.engines) (q : Partition) (es : List Engine) : thirdMapping t q es = thirdMapping s q es := by
  have hm (e : Engine) : minusFor t q e = minusFor s q e := minusFor_congr (fun k => by rw [engOf_congr h]; exact ⟨rfl, rfl⟩) q e
  unfold thirdMapping
  simp only [hm]

/-! ## A step issued again (R349, R350) -/

/-- What a cleared attempt keeps of a partition. -/
def clearedPart (q : Partition) : Partition :=
  { q with
    slots := mmap (fun _ x => if inService x then clearSamples x else x) q.slots
    step := { q.step with
      checks := [], outs := [], partials := [], recordsDue := [], recordTiles := 0, attnRows := [], kvWritten := [], refused := []
      refusedAll := none, storeRefusal := none, refusalBy := none, hung := [], retracted := false } }

/-- An engine of the step, when its attempt is cleared. -/
def clearedEngine (p : PartId) (x : EngineState) : EngineState :=
  forgetTiles { x with retrying := [], saturated := [], satRows := [], faults := 0, firstFault := none, badTile := none, dupTiles := [], retries := 0
                       crcChecked := 0 } p

theorem clearAttempt_eq (s : State) (p : PartId) : clearAttempt s p =
    (stepEngines (partOf (setPart s p clearedPart) p)).foldl (fun s e => setEng s e (clearedEngine p)) (setPart s p clearedPart) := rfl

theorem setEngs_gen (f : EngineState → EngineState) (l : List Engine) (s : State) : (l.foldl (fun s e => setEng s e f) s).gen = s.gen := by
  induction l generalizing s with
  | nil => rfl
  | cons e l ih => exact ih _

/-- What all the updates keep of each engine. -/
theorem setEngs_keep {α : Type} (g : EngineState → α) {f : EngineState → EngineState} (h : ∀ x, g (f x) = g x) (l : List Engine) (s : State) (k : Engine) :
    g (engOf (l.foldl (fun s e => setEng s e f) s) k) = g (engOf s k) := by
  induction l generalizing s with
  | nil => rfl
  | cons e l ih =>
    rw [List.foldl_cons, ih, engOf_setEng]
    split
    · next hk => rw [h, hk]
    · rfl

theorem partOf_clearAttempt (s : State) (p r : PartId) :
    partOf (clearAttempt s p) r = if r = p then clearedPart (partOf s p) else partOf s r := by
  rw [clearAttempt_eq, partOf_congr (congrArg GenState.parts (setEngs_gen ..)), partOf_setPart]

theorem engOf_clearAttempt {α : Type} (g : EngineState → α) (h : ∀ p x, g (clearedEngine p x) = g x) (s : State) (p : PartId) (k : Engine) :
    g (engOf (clearAttempt s p) k) = g (engOf s k) := by
  rw [clearAttempt_eq]
  exact setEngs_keep g (h p) ..

theorem partOf_restartStream (s : State) (p : PartId) (e : Epoch) : ∃ n, ∀ r, partOf (restartStream s p e) r =
    if r = p then { partOf s p with step := { (partOf s p).step with pass := n } } else partOf s r := by
  have same : ∀ r, partOf s r =
      if r = p then { partOf s p with step := { (partOf s p).step with pass := (partOf s p).step.pass } } else partOf s r := by
    intro r
    split
    · next hr => rw [hr]
    · rfl
  unfold restartStream
  split
  · exact ⟨_, same⟩
  · split
    · exact ⟨_, fun r => partOf_setStep ..⟩
    · exact ⟨_, same⟩

/-- What a partition is whose step is issued again. -/
def Reissued (q : Partition) (n : Nat) (q' : Partition) : Prop :=
  q'.step.running = q.step.running ∧ q'.step.epoch = q.step.epoch ∧ q'.step.items = q.step.items ∧ q'.step.attempt = n
    ∧ q'.step.tries = q.step.tries + 1 ∧ q'.committed = q.committed ∧ q'.mapping = q.mapping

theorem reissue_of_works {s : State} {p : PartId} (h : stepWorks (partOf s p) = true) (f : Step → Step) : ∃ e,
    reissue s p f none = logEvent (restartStream (setStep (clearAttempt s p) p f) p (partOf (setStep (clearAttempt s p) p f) p).step.epoch) e :=
  ⟨_, if_neg (by rw [h]; decide)⟩

theorem reissue_spec {s : State} {p : PartId} (h : stepWorks (partOf s p) = true) (old : Step) (engs : List Engine) (sat : Bool) (n : Nat) :
    let t := reissue s p (nextAttempt old engs sat n) none
    Reissued (partOf s p) n (partOf t p) ∧ (∀ r, r ≠ p → partOf t r = partOf s r) ∧ t.store = s.store
    ∧ ∀ k, (engOf t k).retired = (engOf s k).retired ∧ (engOf t k).retiredAt = (engOf s k).retiredAt := by
  intro t
  obtain ⟨e, ht⟩ := reissue_of_works h (nextAttempt old engs sat n)
  have ht : t = _ := ht
  generalize hu : setStep (clearAttempt s p) p (nextAttempt old engs sat n) = u at ht
  obtain ⟨m, hpart⟩ := partOf_restartStream u p (partOf u p).step.epoch
  have hup (r : PartId) : partOf u r = if r = p then
      { clearedPart (partOf s p) with step := nextAttempt old engs sat n (clearedPart (partOf s p)).step } else partOf s r := by
    rw [← hu, partOf_setStep, partOf_clearAttempt, if_pos rfl]
    split
    · rfl
    · next hr => rw [partOf_clearAttempt, if_neg hr]
  have heng {α : Type} (g : EngineState → α) (hg : ∀ p x, g (clearedEngine p x) = g x) (k : Engine) : g (engOf t k) = g (engOf s k) := by
    rw [ht, engOf_logEvent, engOf_congr (restartStream_frame ..).2.2.1, ← hu]
    exact engOf_clearAttempt g hg s p k
  refine ⟨?_, fun r hr => ?_, ?_, fun k => ⟨heng EngineState.retired (fun _ _ => rfl) k, heng EngineState.retiredAt (fun _ _ => rfl) k⟩⟩
  · rw [ht, partOf_logEvent, hpart, if_pos rfl, hup, if_pos rfl]
    exact ⟨rfl, rfl, rfl, rfl, rfl, rfl, rfl⟩
  · rw [ht, partOf_logEvent, hpart, if_neg hr, hup, if_neg hr]
  · rw [ht, (logEvent_frame ..).2.1, (restartStream_frame ..).2.1, ← hu]
    exact (clearAttempt_frame ..).2.1

/-! ## An engine retired (R355) -/

theorem engOf_retireEngine (s : State) (e : Engine) (f : FaultInfo) (p : Option PartId) (k : Engine) : ∃ a b c,
    engOf (retireEngine s e f p) k = if k = e then
      { engOf s e with
        retired := 1, testDue := none, sparePending := a, groupLost := b, permanent := c, retiredAt := recNow s :: (engOf s e).retiredAt }
      else engOf s k :=
  ⟨_, _, _, (engOf_congr (recordFault_frame ..).2.2.2.1 k).trans (engOf_setEng ..)⟩

/-- What a partition is that an engine leaves. -/
def partWithout (p : Option PartId) (e : Engine) (n : Nat) (q : Partition) : Partition :=
  { q with
    switchDue := if usesEngine q e && decide (p ≠ some (partId n)) then withLast e q.switchDue else q.switchDue
    pauseFor := if q.pauseFor = some e then none else q.pauseFor }

theorem retireEngine_parts (s : State) (e : Engine) (f : FaultInfo) (p : Option PartId) :
    (retireEngine s e f p).gen.parts = mmap (partWithout p e) s.gen.parts := recordFault_parts ..

theorem partOf_retireEngine (s : State) (e : Engine) (f : FaultInfo) (p : Option PartId) (r : PartId) :
    partOf (retireEngine s e f p) r = partWithout p e r.toNat (partOf s r) := partOf_mmap (retireEngine_parts ..) (fun _ => rfl) r

/-! ## A failed attempt -/

/-- The state once the notices of a failed step are out. -/
def retractedStep (s : State) (p : PartId) : State :=
  settleSent (retractNotice (broadcast s p (partOf s p).step.epoch 0x09) p (partOf s p).step.epoch) p (partOf s p).step.epoch 0x42

section
variable {s : State} {p : PartId}

theorem retractedStep_engines (s : State) (p : PartId) : (retractedStep s p).engines = s.engines := by simp [retractedStep]

theorem retractedStep_gen (s : State) (p : PartId) : (retractedStep s p).gen = s.gen := by simp [retractedStep]

theorem partOf_retractedStep (s : State) (p r : PartId) : partOf (retractedStep s p) r = partOf s r := partOf_congr (by rw [retractedStep_gen]) r

theorem slotOf_retractedStep (hc : canonical {} s.store.slots = true) (p : PartId) (k : TileIdx) :
    slotOf (retractedStep s p) k = retractSlot p (partOf s p).step.epoch (slotOf s k) := by
  have hb : (broadcast s p (partOf s p).step.epoch 0x09).store = s.store := (broadcast_frame ..).1
  refine (slotOf_congr (congrArg StoreState.slots (settleSent_frame ..).2.1) k).trans ?_
  rw [slotOf_retractNotice (by rw [hb]; exact hc), slotOf_congr (congrArg StoreState.slots hb)]

theorem retractSlot_poison (p : PartId) (e : Epoch) (x : Slot) : (retractSlot p e x).hdr.poison = x.hdr.poison := by
  by_cases h : RetractTakes p e x.hdr
  · rw [retractSlot_of_taken h]
  · rw [retractSlot_of_not_taken h]

theorem saturatedTiles_congr {s t : State} (h : t.engines = s.engines) (q : Partition) : saturatedTiles t q = saturatedTiles s q := by
  unfold saturatedTiles
  simp only [engOf_congr h]

/-- A step that nothing is wrong with but its time. -/
structure OnlyLate (s : State) (q : Partition) : Prop where
  checks : q.step.checks = []
  refused : q.step.refused = []
  refusedAll : q.step.refusedAll = none
  store : q.step.storeRefusal = none
  saturated : saturatedTiles s q = []
  poisoned : poisonedTiles s q = []

/-- No fault of the step itself: its failure is counted, and nothing of it removed. -/
theorem failStep_of_onlyLate (hl : OnlyLate s (partOf s p)) (hc : canonical {} s.store.slots = true) (hung : List Engine) :
    failStep s p true hung = countedFailure (retractedStep s p) p [] hung false := by
  obtain ⟨hchecks, hrefused, hall, hstore, hsat, hpoison⟩ := hl
  have hsus : stepSuspects s (partOf s p) = [] := by simp [stepSuspects, hchecks, hstore]
  have hpart := partOf_retractedStep s p p
  have hpoison' : poisonedTiles (retractedStep s p) (partOf s p) = [] := by
    rw [← hpoison]
    unfold poisonedTiles
    simp only [engOf_congr (retractedStep_engines s p), slotOf_retractedStep hc, retractSlot_poison]
  have hsat' : stepSaturated (retractedStep s p) (partOf s p) = false := by
    simp [stepSaturated, saturatedTiles_congr (retractedStep_engines s p), hsat, hchecks]
  have hremove : removeRefused (retractedStep s p) p = retractedStep s p := by
    unfold removeRefused
    dsimp only
    rw [hpart, hrefused, hall]
    rfl
  have hsatrem : removeSaturated (retractedStep s p) p = retractedStep s p := by
    unfold removeSaturated
    dsimp only
    rw [hpart]
    exact if_pos (by simp [saturationRecurs, hsat'])
  have hwrite : removeRefusedWrite (retractedStep s p) p (partOf s p) = (retractedStep s p, false) := by
    unfold removeRefusedWrite
    rw [hstore, ite_self]
  have hfold : settleSent (retractNotice (broadcast s p (partOf s p).step.epoch 0x09) p (partOf s p).step.epoch) p (partOf s p).step.epoch 0x42
    = retractedStep s p := rfl
  unfold failStep
  dsimp only
  rw [hfold, hpoison', List.foldl_nil, hremove, hsatrem, hwrite, hsus, hsat']
  rfl

/-- Nobody is to blame: the same mapping again. -/
theorem countedFailure_of_none (ha : (partOf s p).step.attempt < 3) : countedFailure s p [] [] false =
    reissue s p (nextAttempt (partOf s p).step [] false ((partOf s p).step.attempt + 1)) none := by
  have h3 : ¬(3 ≤ (partOf s p).step.attempt) := by omega
  have law : countedFailure s p [] [] false =
    if decide (3 ≤ (partOf s p).step.attempt) then stepFailed s p (stepInfo p (partOf s p) { kind := 8, number := 0, mech := 0 } 1 none)
    else reissue s p (nextAttempt (partOf s p).step [] false ((partOf s p).step.attempt + 1)) none := rfl
  rw [law, if_neg (by simpa using h3)]

/-- One engine did not answer, and there is a mapping without it. -/
theorem countedFailure_of_hung {e : Engine} {m : Nat} (ha : (partOf s p).step.attempt < 3) (hm : thirdMapping s (partOf s p) [e] = some m) : ∃ f,
    countedFailure s p [] [e] false =
      reissue (setPart (retireEngine s e f (some p)) p fun q => { q with mapping := m }) p (nextAttempt (partOf s p).step [] false 3) none := by
  have h3 : decide (3 ≤ (partOf s p).step.attempt) = false := decide_eq_false (by omega)
  have hdue : retirements s (partOf s p) [] [e] = [(e, { kind := 1, number := e.val, mech := 0 }, 3, none)] := rfl
  unfold countedFailure
  dsimp only
  rw [hdue, h3]
  simp only [List.filter_nil, List.foldl_nil, List.map_cons, List.map_nil, show engineSuspects [] = [] from rfl, hm]
  exact ⟨_, rfl⟩

theorem stepWatchdog_of_idle (hung : List Engine) (h : (partOf s p).step.running = false ∨ recordsIn (partOf s p) (stepEngines (partOf s p)) = true
    ∨ since (partOf s p).step.startAt (now s) ≤ stepTableUs (partOf s p) + (partOf s p).step.watchdog.toNat * 1000) : stepWatchdog s p hung = s := by
  refine if_pos ?_
  rcases h with h | h | h <;> simp [h]

theorem stepWatchdog_of_late (hung : List Engine) (hr : (partOf s p).step.running = true)
    (hrec : recordsIn (partOf s p) (stepEngines (partOf s p)) = false)
    (ht : stepTableUs (partOf s p) + (partOf s p).step.watchdog.toNat * 1000 < since (partOf s p).step.startAt (now s)) : stepWatchdog s p hung =
    failStep ((hung.filter fun e => usesEngine (partOf s p) e).foldl (fun s e => recordHung s (engineBlock e)) s) p true
      (hung.filter fun e => usesEngine (partOf s p) e) := by
  refine if_neg ?_
  simpa [hr, hrec] using ht

end

theorem recordHung_engines (s : State) (b : BlockId) : (recordHung s b).engines = s.engines := (recordHung_frame ..).2.2.1

theorem partOf_recordHung (s : State) (b : BlockId) (r : PartId) : partOf (recordHung s b) r = partOf s r := partOf_congr (by simp) r

theorem slotOf_recordHung (s : State) (b : BlockId) (k : TileIdx) : slotOf (recordHung s b) k = slotOf s k := slotOf_congr (by simp) k

@[simp] theorem logEvent_recTime (s : State) (e : Ev) : (logEvent s e).bureau.recTime = s.bureau.recTime :=
  (congrArg BureauState.recTime (logEvent_outsideRecorder s e) :)

theorem recNow_retractedStep (s : State) (p : PartId) : recNow (retractedStep s p) = recNow s := by
  unfold recNow
  simp [retractedStep]

theorem recNow_recordHung (s : State) (b : BlockId) : recNow (recordHung s b) = recNow s := logEvent_recTime ..

/-! ## Worlds (R416) -/

theorem worldMapWrite_of_refused {s : State} {b : BlockId} (h : worldChanges b = false ∨ inPartition s b = true ∨ isQuiet s b = false) (sec : Bool) :
    worldMapWrite s b sec = logEvent s (.unnamed 22 b.die [w32 b.die.toNat, w32 b.block.toNat, w32 (b2n sec)]) := by
  refine if_pos ?_
  rcases h with h | h | h <;> simp [h]

/-- The block zeroed before its world changes (R335). -/
def zeroedBlock (s : State) (b : BlockId) : State :=
  match engineOfBlock b with
  | some e => setEng s e zeroEngine
  | none => { s with text := { s.text with streams := [], masks := [] } }

theorem zeroedBlock_of_some {s : State} {b : BlockId} {e : Engine} (h : engineOfBlock b = some e) : zeroedBlock s b = setEng s e zeroEngine := by
  unfold zeroedBlock
  rw [h]

theorem zeroedBlock_of_none {s : State} {b : BlockId} (h : engineOfBlock b = none) :
    zeroedBlock s b = { s with text := { s.text with streams := [], masks := [] } } := by
  unfold zeroedBlock
  rw [h]

theorem worldMapWrite_of_quiet {s : State} {b : BlockId} (hw : worldChanges b = true) (hp : inPartition s b = false) (hq : isQuiet s b = true) (sec : Bool) :
    worldMapWrite s b sec = setWorld (zeroedBlock s b) b sec := (if_neg (by simp [hw, hp, hq])).trans rfl

theorem engOf_setWorld (s : State) (b : BlockId) (v : Bool) (k : Engine) : engOf (setWorld s b v) k = engOf s k := engOf_congr (by simp) k

theorem partOf_setWorld (s : State) (b : BlockId) (v : Bool) (r : PartId) : partOf (setWorld s b v) r = partOf s r := partOf_congr (by simp) r

/-! ## In-field tests (Table 15.8) -/

section
variable {s : State} {e : Engine}

/-- The engine waits for its test. -/
def testAsked (s : State) (e : Engine) : State := setEng s e fun x => { x with testDue := some (recNow s) }

/-- A partition that has a mapping without the engine is due to switch to it. -/
def switching (s : State) (e : Engine) (_ : Nat) (q : Partition) : Partition :=
  if usesEngine q e && (minusFor s q e).isSome then { q with switchDue := withLast e q.switchDue } else q

def switchesDue (s : State) (e : Engine) : State :=
  { testAsked s e with gen := { s.gen with parts := mmap (switching (testAsked s e) e) s.gen.parts } }

theorem minusFor_testAsked (s : State) (e : Engine) (q : Partition) (k : Engine) : minusFor (testAsked s e) q k = minusFor s q k := by
  refine minusFor_congr (fun d => ?_) q k
  unfold testAsked
  rw [engOf_setEng]
  split
  · next h => rw [h]; exact ⟨rfl, rfl⟩
  · exact ⟨rfl, rfl⟩

/-- When a test of the engine falls due. -/
def TestFallsDue (s : State) (e : Engine) : Prop :=
  (engOf s e).retired = 0 ∧ (∀ k, testing (engOf s k) = false) ∧ s.gen.testInterval.toNat * 3600000000 ≤ since (engOf s e).testedAt (recNow s)

theorem fieldTestDue_of_not (h : ¬TestFallsDue s e) : fieldTestDue s e = s := by
  refine if_pos ?_
  by_contra hn
  simp only [Bool.or_eq_true, decide_eq_true_eq, List.any_eq_true, not_or, not_exists, not_and, Nat.not_lt, ne_eq, not_not, List.mem_finRange,
    true_implies, Bool.not_eq_true] at hn
  exact h ⟨hn.1.1, hn.1.2, hn.2⟩

theorem fieldTestDue_of_due (h : TestFallsDue s e) : fieldTestDue s e = startTest (switchesDue s e) e := by
  obtain ⟨hret, htest, hsince⟩ := h
  refine (if_neg ?_).trans rfl
  simp [hret, htest, hsince]

theorem engOf_switchesDue (s : State) (e k : Engine) : engOf (switchesDue s e) k = if k = e then { engOf s e with testDue := some (recNow s) } else engOf s k :=
  engOf_setEng ..

theorem partOf_switchesDue (s : State) (e : Engine) (r : PartId) : partOf (switchesDue s e) r =
    if usesEngine (partOf s r) e && (minusFor s (partOf s r) e).isSome then { partOf s r with switchDue := withLast e (partOf s r).switchDue }
    else partOf s r := by
  rw [partOf_mmap (s := s) (t := switchesDue s e) (f := switching (testAsked s e) e) rfl (fun _ => rfl) r]
  unfold switching
  rw [minusFor_testAsked]

theorem mem_parts_of_uses {r : PartId} (h : usesEngine (partOf s r) e = true) : (r.toNat, partOf s r) ∈ s.gen.parts := by
  cases hm : mfind s.gen.parts r.toNat with
  | none =>
    have hp : partOf s r = {} := by
      unfold partOf mget
      rw [hm]
      rfl
    rw [hp] at h
    cases h
  | some q =>
    have hp : partOf s r = q := by
      unfold partOf mget
      rw [hm]
      rfl
    rw [hp]
    exact mem_of_mfind hm

/-- A partition that runs holds the test back. -/
theorem startTest_of_running {r : PartId} (hs : (partOf s r).state = .running) (hu : usesEngine (partOf s r) e = true) : startTest s e = s := by
  refine if_neg ?_
  simp only [testMayStart, Bool.and_eq_true, List.all_eq_true, not_and, not_forall]
  refine fun _ => ⟨_, mem_parts_of_uses hu, ?_⟩
  simp [hs, hu]

theorem startTest_of_unused (ht : (engOf s e).testDue.isSome = true) (hr : (engOf s e).retired = 0) (hp : ∀ y ∈ s.gen.parts, usesEngine y.2 e = false) :
    startTest s e = setWorld (setEng s e fun x => { zeroEngine x with retired := 2, testDue := some (recNow s) }) (engineBlock e) true := by
  refine if_pos ?_
  simp only [testMayStart, ht, hr, decide_true, Bool.and_self, Bool.true_and, List.all_eq_true]
  intro y hy
  rw [hp y hy]
  rfl

theorem partOf_unused (hp : ∀ y ∈ s.gen.parts, usesEngine y.2 e = false) (r : PartId) : usesEngine (partOf s r) e = false := by
  by_contra h
  have h : usesEngine (partOf s r) e = true := by simpa using h
  rw [hp _ (mem_parts_of_uses h)] at h
  cases h

theorem switchesDue_unused (hp : ∀ y ∈ s.gen.parts, usesEngine y.2 e = false) : ∀ y ∈ (switchesDue s e).gen.parts, usesEngine y.2 e = false := by
  intro y hy
  obtain ⟨z, hz, rfl⟩ := List.mem_map.1 hy
  unfold switching
  dsimp only
  rw [hp z hz]
  exact hp z hz

/-- A partition that has no mapping without the engine is to pause for it. -/
def pausing (s : State) (e : Engine) (_ : Nat) (q : Partition) : Partition :=
  if usesEngine q e && decide (q.state = .running) && (minusFor s q e).isNone then { q with pauseFor := some e } else q

def pausesDue (s : State) (e : Engine) : State := { s with gen := { s.gen with parts := mmap (pausing s e) s.gen.parts } }

theorem fieldTestDeferralEnd_of_overdue {a : BitVec 48} (ha : (engOf s e).testDue = some a) (hr : (engOf s e).retired = 0)
    (ht : 900000000 ≤ since a (recNow s)) : fieldTestDeferralEnd s e = pausesDue s e := by
  unfold fieldTestDeferralEnd
  rw [ha]
  dsimp only
  rw [if_neg (by simpa [hr] using ht)]
  rfl

theorem fieldTestDeferralEnd_of_none (h : (engOf s e).testDue = none) : fieldTestDeferralEnd s e = s := by
  unfold fieldTestDeferralEnd
  rw [h]

/-- The engine after its test, out of use until the outcome is known. -/
def tested (s : State) (e : Engine) : State := setWorld (setEng s e fun x => { zeroEngine x with testDue := none, testedAt := recNow s }) (engineBlock e) false

/-- The partition when the engine is back. -/
def engineBack (e : Engine) (q : Partition) : Partition :=
  { q with
    pauseFor := if q.pauseFor = some e then none else q.pauseFor
    switchBack := q.switchBack || decide ((mappingOf q).excluded = some e) }

/-- The state of a test that passed, before its event. -/
def testPassed (s : State) (e : Engine) : State :=
  let t := setEng (tested s e) e fun x => { x with retired := 0 }
  { t with gen := { t.gen with parts := mmap (fun _ q => engineBack e q) t.gen.parts } }

theorem endTest_of_pass (h : (engOf s e).retired = 2) : ∃ us n, endTest s e none = logEvent (testPassed s e) (.fieldTestDone e.val false us n 0) :=
  ⟨_, _, if_neg (not_not.2 h)⟩

theorem endTest_of_fail (h : (engOf s e).retired = 2) (m : BitVec 8) : ∃ us n k f,
    endTest s e (some m) = logEvent (retireEngine (tested s e) e f none) (.fieldTestDone e.val true us n k) :=
  ⟨_, _, _, _, if_neg (not_not.2 h)⟩

/-- No load waits: nothing is taken up again. -/
theorem resumeLoads_of_none (h : ∀ y ∈ s.gen.parts, y.2.loadWait = none) : resumeLoads s = s := by
  unfold resumeLoads
  generalize s.gen.parts = l at h
  induction l with
  | nil => rfl
  | cons y l ih =>
    rw [List.foldl_cons, h y List.mem_cons_self]
    exact ih fun z hz => h z (List.mem_cons_of_mem _ hz)

theorem engOf_tested (s : State) (e k : Engine) : engOf (tested s e) k =
    if k = e then { zeroEngine (engOf s e) with testDue := none, testedAt := recNow s } else engOf s k := by
  unfold tested
  rw [engOf_setWorld, engOf_setEng]

theorem secureBlock_tested (s : State) (e : Engine) : secureBlock (tested s e) (engineBlock e).die (engineBlock e).block = false := by
  unfold tested
  rw [secureBlock_setWorld, if_pos ⟨rfl, rfl⟩]

theorem tested_parts (s : State) (e : Engine) : (tested s e).gen.parts = s.gen.parts := by
  unfold tested
  rw [(setWorld_frame ..).2.2.2.2.2.1]
  rfl

end

theorem retireEngine_secureXor (s : State) (e : Engine) (f : FaultInfo) (p : Option PartId) :
    (retireEngine s e f p).bureau.secureXor = s.bureau.secureXor := by
  unfold retireEngine recordFault
  exact logEvent_secureXor ..

/-- What a test leaves, whatever its outcome. -/
structure TestEnded (s : State) (e : Engine) (fail : Bool) (t : State) : Prop where
  due : (engOf t e).testDue = none
  tested : (engOf t e).testedAt = recNow s
  frames : (engOf t e).frames = []
  acc : (engOf t e).acc = []
  retired : (engOf t e).retired = if fail then 1 else 0
  others : ∀ k, k ≠ e → engOf t k = engOf s k
  world : secureBlock t (engineBlock e).die (engineBlock e).block = false
  waits : (∀ y ∈ s.gen.parts, y.2.loadWait = none) → ∀ y ∈ t.gen.parts, y.2.loadWait = none

theorem testEnded_passed (s : State) (e : Engine) : TestEnded s e false (testPassed s e) := by
  have he (k : Engine) : engOf (testPassed s e) k =
      if k = e then { zeroEngine (engOf s e) with testDue := none, testedAt := recNow s, retired := 0 } else engOf s k := by
    have h : engOf (testPassed s e) k = engOf (setEng (tested s e) e fun x => { x with retired := 0 }) k := rfl
    rw [h, engOf_setEng, engOf_tested, engOf_tested, if_pos rfl]
    split <;> rfl
  have hsame := he e
  rw [if_pos rfl] at hsame
  refine ⟨by rw [hsame], by rw [hsame], by rw [hsame]; rfl, by rw [hsame]; rfl, by rw [hsame]; rfl, fun k hk => (he k).trans (if_neg hk), ?_, ?_⟩
  · exact secureBlock_tested s e
  · intro h y hy
    obtain ⟨z, hz, rfl⟩ := List.mem_map.1 hy
    have hz : z ∈ (tested s e).gen.parts := hz
    rw [tested_parts] at hz
    exact h z hz

theorem testEnded_failed (s : State) (e : Engine) (f : FaultInfo) : TestEnded s e true (retireEngine (tested s e) e f none) := by
  have he (k : Engine) := engOf_retireEngine (tested s e) e f none k
  simp only [engOf_tested, if_true] at he
  obtain ⟨a, b, c, hsame⟩ := he e
  rw [if_pos rfl] at hsame
  refine ⟨by rw [hsame], by rw [hsame], by rw [hsame]; rfl, by rw [hsame]; rfl, by rw [hsame]; rfl, fun k hk => ?_, ?_, ?_⟩
  · obtain ⟨a, b, c, hk'⟩ := he k
    rw [hk', if_neg hk, if_neg hk]
  · rw [secureBlock_congr (retireEngine_secureXor ..), secureBlock_tested]
  · intro h y hy
    rw [retireEngine_parts, tested_parts] at hy
    obtain ⟨z, hz, rfl⟩ := List.mem_map.1 hy
    exact h z hz

/-- An event after the test changes nothing of it. -/
theorem TestEnded.logEvent {s t : State} {e : Engine} {fail : Bool} (h : TestEnded s e fail t) (ev : Ev) : TestEnded s e fail (logEvent t ev) := by
  obtain ⟨hd, ht, hf, ha, hr, ho, hw, hl⟩ := h
  refine ⟨?_, ?_, ?_, ?_, ?_, fun k hk => ?_, ?_, ?_⟩
  · rwa [engOf_logEvent]
  · rwa [engOf_logEvent]
  · rwa [engOf_logEvent]
  · rwa [engOf_logEvent]
  · rwa [engOf_logEvent]
  · rw [engOf_logEvent, ho k hk]
  · rwa [secureBlock_congr (logEvent_secureXor ..)]
  · rwa [logEvent_gen]

theorem endTest_spec {s : State} {e : Engine} (h : (engOf s e).retired = 2) (mech : Option (BitVec 8)) :
    TestEnded s e mech.isSome (endTest s e mech) ∧ ∃ u us n k, endTest s e mech = logEvent u (.fieldTestDone e.val mech.isSome us n k) := by
  cases mech with
  | none =>
    obtain ⟨us, n, hp⟩ := endTest_of_pass h
    rw [hp]
    exact ⟨(testEnded_passed s e).logEvent _, _, _, _, _, rfl⟩
  | some m =>
    obtain ⟨us, n, k, f, hp⟩ := endTest_of_fail h m
    rw [hp]
    exact ⟨(testEnded_failed s e f).logEvent _, _, _, _, _, rfl⟩

theorem partId_toNat (r : PartId) : partId r.toNat = r := BitVec.eq_of_toNat_eq (by simp [partId])

/-- Settles O42: a late step by the laws of a counted failure, the worlds and the tests each by their rule. -/
theorem watchdogTestsAndWorlds : Obligations.WatchdogTestsAndWorlds := by
  unfold Obligations.WatchdogTestsAndWorlds
  intro s p e b sec m mech
  dsimp only
  refine ⟨⟨fun h => ?_, ?_, ?_⟩, fun h => ?_, ?_, fun h => ?_, ?_, ?_, ?_, fun h => ?_, ?_⟩
  · exact congrArg Host.Outcome.next (stepWatchdog_of_idle [e] h)
  · rintro ⟨hrun, hrec, hchecks, hrefused, hall, hstore, hsat, hatt, hworks, hpoison, hcan, hlate⟩
    have law := stepWatchdog_of_late [] hrun hrec hlate
    rw [List.filter_nil, List.foldl_nil, failStep_of_onlyLate ⟨hchecks, hrefused, hall, hstore, hsat, hpoison⟩ hcan,
      countedFailure_of_none (by rwa [partOf_retractedStep])] at law
    obtain ⟨⟨hr, he, hi, ha, ht, hc, -⟩, hother, hst, -⟩ := reissue_spec (s := retractedStep s p) (p := p) (by rwa [partOf_retractedStep])
      (partOf (retractedStep s p) p).step [] false ((partOf (retractedStep s p) p).step.attempt + 1)
    simp only [partOf_retractedStep] at hr he hi ha ht hc hother hst law
    refine ⟨_, congrArg Host.Outcome.next law, hr.trans hrun, he, hi, ha, ht, hc, fun k => ?_, hother⟩
    rw [slotOf_congr (congrArg StoreState.slots hst), slotOf_retractedStep hcan]
  · rintro ⟨hrun, hrec, hchecks, hrefused, hall, hstore, hsat, hatt, hworks, hpoison, hcan, hlate⟩ huse hm
    have law := stepWatchdog_of_late [e] hrun hrec hlate
    have hfilter : ([e].filter fun e => usesEngine (partOf s p) e) = [e] := by simp [huse]
    rw [hfilter, List.foldl_cons, List.foldl_nil] at law
    generalize hu : recordHung s (engineBlock e) = u at law
    have hup (r : PartId) : partOf u r = partOf s r := by rw [← hu, partOf_recordHung]
    have hue : u.engines = s.engines := by rw [← hu, recordHung_engines]
    have husl (k : TileIdx) : slotOf u k = slotOf s k := by rw [← hu, slotOf_recordHung]
    have hucan : canonical {} u.store.slots = true := by
      rw [← hu, (recordHung_frame ..).1]
      exact hcan
    have hlate' : OnlyLate u (partOf u p) := by
      rw [hup]
      refine ⟨hchecks, hrefused, hall, hstore, ?_, ?_⟩
      · rw [saturatedTiles_congr hue, hsat]
      · rw [← hpoison]
        unfold poisonedTiles
        simp only [engOf_congr hue, husl]
    have hwp (r : PartId) : partOf (retractedStep u p) r = partOf s r := by rw [partOf_retractedStep, hup]
    have hwe : (retractedStep u p).engines = s.engines := (retractedStep_engines u p).trans hue
    rw [failStep_of_onlyLate hlate' hucan] at law
    generalize hw : retractedStep u p = w at law hwp hwe
    have hwt : recNow w = recNow s := by rw [← hw, recNow_retractedStep, ← hu, recNow_recordHung]
    obtain ⟨f, hf⟩ := countedFailure_of_hung (s := w) (p := p) (e := e) (m := m) (by rwa [hwp]) (by rw [hwp, thirdMapping_congr hwe, hm])
    rw [hf] at law
    have hpart (r : PartId) : partOf (setPart (retireEngine w e f (some p)) p fun q => { q with mapping := m }) r =
        if r = p then { partWithout (some p) e p.toNat (partOf s p) with mapping := m } else partWithout (some p) e r.toNat (partOf s r) := by
      rw [partOf_setPart]
      simp only [partOf_retireEngine, hwp]
    have hsame := hpart p
    rw [if_pos rfl] at hsame
    obtain ⟨⟨-, hep, -, ha, -, -, hmap⟩, hother, -, heng⟩ := reissue_spec
      (s := setPart (retireEngine w e f (some p)) p fun q => { q with mapping := m }) (p := p) (by rw [hsame]; exact hworks) (partOf w p).step [] false 3
    rw [hsame] at hep hmap
    obtain ⟨a, b, c, hret⟩ := engOf_retireEngine w e f (some p) e
    rw [if_pos rfl, hwt, engOf_congr hwe] at hret
    refine ⟨_, congrArg Host.Outcome.next law, hmap, ha, hep, (heng e).1.trans (congrArg EngineState.retired hret),
      (heng e).2.trans (congrArg EngineState.retiredAt hret), fun r hr hur => ?_⟩
    · have hpr : p ≠ r := fun h => hr h.symm
      rw [hother r hr, hpart, if_neg hr]
      simp only [partWithout, hur, partId_toNat, ne_eq, Option.some.injEq, hpr, not_false_eq_true, decide_true, Bool.and_self, if_true]
      unfold withLast
      split
      · assumption
      · exact List.mem_append_right _ List.mem_cons_self
  · exact congrArg Host.Outcome.next (worldMapWrite_of_refused h sec)
  · intro hw hp hq
    refine ⟨_, congrArg Host.Outcome.next (worldMapWrite_of_quiet hw hp hq sec), ?_, fun d k hdk => ?_, fun x hx => ?_, fun x hx => ?_, ?_, ?_, ?_⟩
    · rw [secureBlock_setWorld, if_pos ⟨rfl, rfl⟩]
    · rw [secureBlock_setWorld, if_neg fun h => hdk (Prod.ext h.1 h.2)]
      refine secureBlock_congr ?_ d k
      unfold zeroedBlock
      split <;> rfl
    · rw [engOf_setWorld, zeroedBlock_of_some hx, engOf_setEng, if_pos rfl]
      exact ⟨rfl, by simp⟩
    · rw [engOf_setWorld]
      cases hb : engineOfBlock b with
      | none =>
        rw [zeroedBlock_of_none hb]
        rfl
      | some y =>
        rw [zeroedBlock_of_some hb, engOf_setEng, if_neg]
        rintro rfl
        exact hx hb
    all_goals
      unfold zeroedBlock
      split <;> simp
  · exact congrArg Host.Outcome.next (fieldTestDue_of_not h)
  · intro hdue hp
    have law := fieldTestDue_of_due hdue
    have hself := engOf_switchesDue s e e
    rw [if_pos rfl] at hself
    rw [startTest_of_unused (by rw [hself]; rfl) (by rw [hself]; exact hdue.1) (switchesDue_unused hp)] at law
    refine ⟨_, congrArg Host.Outcome.next law, ?_, ?_, fun r => ?_, fun k hk => ?_⟩
    · rw [engOf_setWorld, engOf_setEng, if_pos rfl, hself]
      rfl
    · rw [secureBlock_setWorld, if_pos ⟨rfl, rfl⟩]
    · have hr : partOf (setEng (switchesDue s e) e fun x => { zeroEngine x with retired := 2, testDue := some (recNow (switchesDue s e)) }) r =
        partOf (switchesDue s e) r := rfl
      rw [partOf_setWorld, hr, partOf_switchesDue, partOf_unused hp]
      rfl
    · rw [engOf_setWorld, engOf_setEng, if_neg hk, engOf_switchesDue, if_neg hk]
  · intro hdue hst huse hm
    have law := fieldTestDue_of_due hdue
    have hpart := partOf_switchesDue s e p
    rw [huse, hm] at hpart
    have hpart : partOf (switchesDue s e) p = { partOf s p with switchDue := withLast e (partOf s p).switchDue } := hpart
    rw [startTest_of_running (r := p) (by rw [hpart]; exact hst) (by rw [hpart]; exact huse)] at law
    refine ⟨_, congrArg Host.Outcome.next law, ?_, ?_, rfl⟩
    · rw [engOf_switchesDue, if_pos rfl]
    · rw [hpart]
  · intro a ha hr ht
    refine ⟨_, congrArg Host.Outcome.next (fieldTestDeferralEnd_of_overdue ha hr ht), fun r => ?_, rfl⟩
    rw [partOf_mmap (s := s) (t := pausesDue s e) (f := pausing s e) rfl (fun _ => rfl) r]
    refine if_congr ?_ rfl rfl
    simp [and_assoc]
  · exact congrArg Host.Outcome.next (fieldTestDeferralEnd_of_none h)
  · intro hr hw
    obtain ⟨⟨hd, ht, hf, ha, hret, ho, hworld, hwaits⟩, hlog⟩ := endTest_spec hr mech
    refine ⟨_, congrArg Host.Outcome.next (resumeLoads_of_none (hwaits hw)), hd, ht, hf, ha, ?_, ho, hworld, hlog⟩
    rw [hret]
    cases mech <;> rfl

end Sys2Proof.Machine

/-!
# A load whose hot copy is refused (R131, R322, R351)

PROGRAM_LOAD rebuilds the hot copies of the partition's tables in its store share. A stored tile whose header has no shape is refused by the
store die, and the refusal is kept in the partition's step: the step of a loaded partition is then not the one of epoch 1 with nothing in it.
-/

namespace Sys2Proof.Machine

/-! ## The load -/

/-- The state of a placed program before the hot copies of its tables. -/
def placedBefore (p : PartId) (g : Program) (m : Nat) (kv rest : List Nat) (pool : Map Nat) (s : State) : State :=
  let s := setPart s p fun q => { q with
    state := .running, mapping := m, prog := some g, kvFree := kvLists kv, pool := pool, lShare := kv ++ rest, storeBase := g.sec.storeBase
    storeCount := g.storeTiles, committed := 0, matched := 0, step := { epoch := 1 }, needReload := false }
  setStream (pinPlan (g.sec.shares.foldl (addContext p) s) g true) p fun _ => { epoch := 1 }

/-- The L extents of a placed program, their extents, and the state that has taken them. -/
def placement (s : State) (p : PartId) (g : Program) : Option (List Nat × List Nat × Map Nat × State) :=
  (takeL s g).bind fun x => (mapPool x.2.2 p (x.1 ++ x.2.1)).map fun y => (x.1, x.2.1, y)

/-- The partition has its program and its shares; its hot copies are to come. -/
def beforeHot (s : State) (p : PartId) (g : Program) (m : Nat) : State :=
  (placement s p g).elim s fun y => placedBefore p g m y.1 y.2.1 y.2.2.1 y.2.2.2

theorem placeProgram_of_placed {s : State} {p : PartId} {g : Program} (h : (placement s p g).isSome = true) (m : Nat) :
    placeProgram s p g m = rebuildHot (beforeHot s p g m) p := by
  obtain ⟨y, hy⟩ := Option.isSome_iff_exists.1 h
  obtain ⟨kv, rest, pool, s'⟩ := y
  unfold beforeHot placeProgram
  have hy' : ((takeL s g).bind fun x => (mapPool x.2.2 p (x.1 ++ x.2.1)).map fun y => (x.1, x.2.1, y)) = some (kv, rest, pool, s') := hy
  rw [hy', hy]
  rfl

/-- What a load needs to succeed on a partition that holds nothing. -/
structure LoadFits (s : State) (p : PartId) (addr : Nat) (sec : ImageSections) : Prop where
  empty : (partOf s p).state = .empty
  busy : partBusy (partOf s p) = false
  extent : (entryOf s (devExtent (addr / 16384))).isSome = true
  image : Machine.imageOk s addr = true
  order3 : order3 s p (readProgram s addr sec) = true
  order4 : order4 s (readProgram s addr sec) = true
  usable : ((readProgram s addr sec).maps.head?).any (usable s) = true
  order5 : order5 s p (readProgram s addr sec) = true
  plan : planOk s (readProgram s addr sec).plan = true
  order6 : order6 (releaseShares s p) (readProgram s addr sec) 0 = true

theorem selectMapping_of_head {s : State} {g : Program} (h : (g.maps.head?).any (usable s) = true) : selectMapping s g = some 0 := by
  unfold selectMapping
  cases hm : g.maps with
  | nil =>
    rw [hm] at h
    cases h
  | cons a l =>
    rw [hm] at h
    rw [List.length_cons, List.range_succ_eq_map, List.find?_cons_of_pos]
    exact h

theorem programLoad_of_fit {s : State} {h : Nat} {r : Request} {sec : ImageSections}
    (hf : LoadFits s (partId r.desc.argA.toNat) r.desc.argC.toNat sec) : programLoad s h r sec =
      finishPlain (placeProgram (dropAdapters (releaseShares s (partId r.desc.argA.toNat)) (partId r.desc.argA.toNat)) (partId r.desc.argA.toNat)
        (readProgram s r.desc.argC.toNat sec) 0) h .ok 0 := by
  obtain ⟨hempty, hbusy, hext, himage, h3, h4, husable, h5, hplan, h6⟩ := hf
  unfold programLoad
  dsimp only
  rw [if_neg (by simp [hempty, hbusy]), if_neg (by rw [← Option.not_isSome, hext]; decide), if_neg (by simp [himage]), if_neg (by simp [h3, h4])]
  unfold loadSelect
  dsimp only
  rw [if_neg (by rw [husable]; exact Bool.false_ne_true), selectMapping_of_head husable]
  unfold loadOn without_
  dsimp only
  rw [if_neg (by simp [h5]), if_neg (by simp [hplan]), if_neg (by simp [h6]), if_neg (by rw [hempty]; decide)]

/-! ## The hot copy -/

theorem rebuildHot_of_one {s : State} {p : PartId} {n : Nat} {r : TableRec} (ht : s.gen.tables = [(n, r)]) (hp : r.part = p) (hk : r.hotTiles = 1) :
    rebuildHot s p = hotCopy (setPart s p fun q => { q with hotDir := [] }) n 0 := by
  have ht' : (setPart s p fun q => { q with hotDir := [] }).gen.tables = [(n, r)] := ht
  unfold rebuildHot
  dsimp only
  rw [ht', List.filter_cons_of_pos (by simp [hp]), List.filter_nil, List.foldl_cons, List.foldl_nil, hk]
  rfl

/-- What a hot copy writes of a stored tile. -/
def hotHeader (r : TableRec) (n : Nat) (slot : TileIdx) (h : TileHeader) : TileHeader :=
  { h with scaleIndex := slot + h.scaleIndex, srcValid := true, srcTile := BitVec.ofNat 34 n, owner := r.part.setWidth 6, persist := true, tenant := r.tenant }

/-- A stored tile without a shape is refused, and the refusal kept in the step of the table's partition. -/
theorem hotCopy_of_misshapen {s : State} {t k : Nat} {r : TableRec} {tl : Tile} (ht : tableOf s t = some r)
    (hd : devTile s (r.hotBase / 16384 + k) = some tl) (hs : shapeOk tl.hdr.format tl.hdr.rows.toNat tl.hdr.cols.toNat = false)
    (hf : freeTiles s r.part ≠ []) (ho : mfind (partOf s r.part).hotDir (hotKey t k) = none) : ∃ slot src,
    hotCopy s t k = setPart (refuseWrite { s with free := s.free + 1 } src 0 slot (hotHeader r (r.hotBase / 16384 + k) slot tl.hdr) 0) r.part
      fun q => { q with hotDir := mins q.hotDir (hotKey t k) slot } := by
  have hlen : 0 < (freeTiles s r.part).length := List.length_pos_iff.2 hf
  have hlt : (Config.freeValue s.free).toNat % max 1 (freeTiles s r.part).length < (freeTiles s r.part).length := by
    rw [Nat.max_eq_right hlen]
    exact Nat.mod_lt _ hlen
  refine ⟨(freeTiles s r.part)[(Config.freeValue s.free).toNat % max 1 (freeTiles s r.part).length], channelDie (r.hotBase / 16384 + k), ?_⟩
  have hd' : devTile (drawFree s).2 (r.hotBase / 16384 + k) = some tl := hd
  have hf' : (freeTiles (drawFree s).2 r.part) = freeTiles s r.part := rfl
  unfold hotCopy
  rw [ht]
  dsimp only
  rw [hd', hf', drawFree_fst, List.getElem?_eq_getElem hlt, ho]
  dsimp only
  unfold writeTile
  dsimp only
  rw [if_pos (by rw [hs]; rfl)]
  rfl

/-- The refusal as the step has it. -/
theorem storeRefusal_refuseWrite (s : State) (src : DieId) (slot : TileIdx) {h : TileHeader} {p : PartId} (hp : partField h.owner = some p) :
    (partOf (refuseWrite s src 0 slot h 0) p).step.storeRefusal.isSome = true := by
  unfold refuseWrite
  rw [hp]
  dsimp only
  rw [partOf_logEvent, partOf_setStep, if_pos rfl]
  dsimp only
  cases (partOf s p).step.storeRefusal <;> rfl

/-! ## What the end of a request leaves of the sequencer's part -/

/-- Of the sequencer's part at most the indexes differ. -/
def OnlyIndexes (s t : State) : Prop := ∃ ix, t.gen = { s.gen with indexes := ix }

theorem OnlyIndexes.of_eq {s t : State} (h : t.gen = s.gen) : OnlyIndexes s t := ⟨s.gen.indexes, by rw [h]⟩

theorem OnlyIndexes.trans {s t u : State} (h : OnlyIndexes s t) (h' : OnlyIndexes t u) : OnlyIndexes s u := by
  obtain ⟨_, h⟩ := h
  obtain ⟨ix, h'⟩ := h'
  exact ⟨ix, by rw [h', h]⟩

theorem OnlyIndexes.foldl {α : Type} {f : State → α → State} (hf : ∀ s a, OnlyIndexes s (f s a)) (l : List α) (s : State) : OnlyIndexes s (l.foldl f s) := by
  induction l generalizing s with
  | nil => exact .of_eq rfl
  | cons a l ih => exact (hf s a).trans (ih _)

theorem OnlyIndexes.partOf_eq {s t : State} (h : OnlyIndexes s t) (p : PartId) : partOf t p = partOf s p := by
  obtain ⟨ix, h⟩ := h
  exact partOf_congr (by rw [h]) p

theorem setIndex_onlyIndexes (s : State) (i : Nat) (f : IndexRec → IndexRec) : OnlyIndexes s (setIndex s i f) := by
  unfold setIndex
  split
  · exact .of_eq rfl
  · exact ⟨_, rfl⟩

theorem endRerun_onlyIndexes (s : State) (h : Nat) : OnlyIndexes s (endRerun s h) := by
  unfold endRerun
  refine OnlyIndexes.foldl (fun s t => ?_) _ s
  dsimp only
  split
  · exact OnlyIndexes.trans (.of_eq rfl) (setIndex_onlyIndexes ..)
  · exact .of_eq rfl

theorem sendMsg_gen (s : State) (m : MsgHdr) (b : MsgBody) : (sendMsg s m b).gen = s.gen := (sendMsg_frame ..).2.2.2.2.1

theorem dropRequest_onlyIndexes (s : State) (h : Nat) : OnlyIndexes s (dropRequest s h) := by
  unfold dropRequest
  split
  · exact .of_eq rfl
  · have hrun := endRerun_onlyIndexes { s with host := { s.host with requests := mdel s.host.requests h } } h
    dsimp only
    split
    · exact OnlyIndexes.trans hrun (.of_eq (sendMsg_gen ..))
    · exact hrun

theorem tryPost_gen (s : State) (fn : Tenant) (q : BitVec 3) (c : Completion) : (tryPost s fn q c).1.gen = s.gen := (tryPost_frame ..).2.2.2.2.1

theorem releaseCancel_onlyIndexes (h : Nat) (s : State) (x : Nat × Request) : OnlyIndexes s (releaseCancel h s x) := by
  unfold releaseCancel
  split
  · dsimp only
    split
    · exact .of_eq (tryPost_gen ..)
    · refine OnlyIndexes.trans ?_ (dropRequest_onlyIndexes ..)
      exact .of_eq (tryPost_gen ..)
  · exact .of_eq rfl

theorem closeRequest_onlyIndexes (s : State) (h : Nat) : OnlyIndexes s (closeRequest s h) :=
  (dropRequest_onlyIndexes s h).trans (OnlyIndexes.foldl (releaseCancel_onlyIndexes h) _ _)

theorem post_onlyIndexes (s : State) (fn : Tenant) (q : BitVec 3) (c : Completion) : OnlyIndexes s (post s fn q c) := by
  unfold post
  have ht : OnlyIndexes s (tryPost s fn q c).1 := .of_eq (tryPost_gen ..)
  generalize tryPost s fn q c = y at ht
  obtain ⟨t, taken⟩ := y
  dsimp only
  split
  · exact ht.trans (closeRequest_onlyIndexes ..)
  · exact ht

theorem finish_onlyIndexes (s : State) (h : Nat) (st : Status) (b : CompBody) (pl : List (BitVec 64 × Bytes)) : OnlyIndexes s (finish s h st b pl) := by
  unfold finish
  split
  · exact .of_eq rfl
  · split
    · exact .of_eq rfl
    · split
      · unfold forwardDone
        split
        · exact OnlyIndexes.trans (.of_eq (sendMsg_gen ..)) (dropRequest_onlyIndexes ..)
        · exact dropRequest_onlyIndexes ..
      · exact OnlyIndexes.trans (.of_eq rfl) (post_onlyIndexes ..)

theorem finishPlain_onlyIndexes (s : State) (h : Nat) (st : Status) (aux : BitVec 32) : OnlyIndexes s (finishPlain s h st aux) := by
  unfold finishPlain
  split
  · exact .of_eq rfl
  · exact finish_onlyIndexes ..

/-! ## The load that is refuted -/

/-- An image of one tile in device tile 8: a general program with a store share of 128 tiles, one mapping on engine 0, and a plan of one entry. -/
def loadImage : Bytes :=
  splice (splice (splice (splice (splice (splice (splice (splice (splice (splice (pad 1024 []) 64 [0, 3]) 800 (toLE 16 (8 * 2 ^ 94))) 0 [1, 0, 0, 1, 1])
    8 [1]) 32 [255, 255, 0, 0]) 36 [128]) 52 [1]) 96 [0, 1]) 104 [0, 2]) 256 [255]

/-- The extent of the image, in tier L, RO, of tenant 0. -/
def imageEntry : ExtentEntry := { valid := true, homeTier := 2 }

/-- A table of partition 2 whose one hot tile is device tile 9. -/
def misshapenTable : TableRec := { part := 2, hotTiles := 1, hotBase := 147456 }

/-- The descriptor that loads the image into partition 2. -/
def loadFetched : Fetched := { handle := 7, desc := { opcode := 0x23, argA := 2, argC := 131072, tag := 77 } }

/-- The module with the image, the table, its tile of no known format, and the descriptor. -/
def loadReady : State :=
  let s : State := { tier := { dir := [(0, 0)], leaves := [(0, imageEntry)], lmem := [], mts := 14400 }, gen := { tables := [(0, misshapenTable)] } }
  let s := putL (putL s 8 { payload := loadImage } false) 9 { hdr := { format := 0xFF } } false
  setQp (setTen s 0 fun t => { t with serve := 4 }) 0 1 fun p =>
    { p with enable := true, state := .enabled, cqLog2 := 8, dbAddr := 64, fetched := [loadFetched] }

def loadSections : ImageSections := { plan := { windowTiles := 4096, groups := 1 } }

/-- The module once the descriptor is accepted. -/
def loadAccepted : State := accepted loadReady 0 1 .programLoad loadFetched [] {}

/-- The image's program. -/
def loadProgram : Program := readProgram loadReady 131072 loadSections

theorem loadReady_front : frontOk loadReady 0 1 .programLoad loadFetched [] {} ∧ passes (loadChecks loadAccepted
    (newRequest loadReady 0 1 .programLoad loadFetched.desc (paramBytes loadReady loadFetched.desc {}))) ∧ canPost loadReady 0 1 := by
  unfold frontOk passes
  decide +kernel

theorem loadReady_fits : LoadFits loadReady 2 131072 loadSections := by
  constructor <;> decide +kernel

theorem loadAccepted_fits : LoadFits loadAccepted 2 131072 loadSections := by
  constructor <;> decide +kernel

/-- The module before the hot copies are built. -/
def loadPlaced : State := beforeHot (dropAdapters (releaseShares loadAccepted 2) 2) 2 (readProgram loadAccepted 131072 loadSections) 0

theorem loadAccepted_places :
    (placement (dropAdapters (releaseShares loadAccepted 2) 2) 2 (readProgram loadAccepted 131072 loadSections)).isSome = true := by decide +kernel

/-- The state of the placed program, as far as the hot copy depends on it. -/
structure PlacedMisshapen (s : State) : Prop where
  tables : s.gen.tables = [(0, misshapenTable)]
  shape : ((devTile s 9).map fun tl => shapeOk tl.hdr.format tl.hdr.rows.toNat tl.hdr.cols.toNat) = some false
  free : (slotOf s 0).hdr.state = .free
  count : (partOf s 2).storeCount = 128
  base : (partOf s 2).storeBase = 0

/-- The partition's hot directory is emptied first. -/
def hotEmptied (s : State) : State := setPart s 2 fun q => { q with hotDir := [] }

theorem partOf_hotEmptied (s : State) : partOf (hotEmptied s) 2 = { partOf s 2 with hotDir := [] } := by
  unfold hotEmptied
  rw [partOf_setPart, if_pos rfl]

theorem freeTiles_hotEmptied {s : State} (h : PlacedMisshapen s) : freeTiles (hotEmptied s) 2 ≠ [] := by
  obtain ⟨-, -, hfree, hcount, hbase⟩ := h
  have hslot : slotOf (hotEmptied s) 0 = slotOf s 0 := rfl
  refine List.ne_nil_of_mem (a := 0) ?_
  unfold freeTiles
  dsimp only
  rw [partOf_hotEmptied, hcount, hbase]
  refine List.mem_filter.2 ⟨List.mem_map.2 ⟨0, List.mem_range.2 (by decide), rfl⟩, ?_⟩
  rw [hslot, hfree]
  rfl

/-- The step of the loaded partition keeps the refusal. -/
theorem storeRefusal_of_hot {s : State} (hs : PlacedMisshapen s) (h : Nat) (st : Status) (aux : BitVec 32) :
    (partOf (finishPlain (rebuildHot s 2) h st aux) 2).step.storeRefusal.isSome = true := by
  obtain ⟨tl, htl, hshape⟩ := Option.map_eq_some_iff.1 hs.shape
  have htable : tableOf (hotEmptied s) 0 = some misshapenTable := by
    have h : tableOf (hotEmptied s) 0 = mfind s.gen.tables 0 := rfl
    rw [h, hs.tables]
    rfl
  have hdir : mfind (partOf (hotEmptied s) 2).hotDir (hotKey 0 0) = none := by
    rw [partOf_hotEmptied]
    rfl
  have htl' : devTile (hotEmptied s) (misshapenTable.hotBase / 16384 + 0) = some tl := htl
  obtain ⟨slot, src, hcopy⟩ := hotCopy_of_misshapen htable htl' hshape (freeTiles_hotEmptied hs) hdir
  have hrebuilt : rebuildHot s 2 = hotCopy (hotEmptied s) 0 0 := rebuildHot_of_one hs.tables rfl rfl
  rw [(finishPlain_onlyIndexes ..).partOf_eq, hrebuilt, hcopy]
  refine (congrArg (fun q : Partition => q.step.storeRefusal.isSome) ((partOf_setPart ..).trans (if_pos rfl))).trans ?_
  exact storeRefusal_refuseWrite _ _ _ rfl

theorem loadPlaced_misshapen : PlacedMisshapen loadPlaced := by
  constructor <;> decide +kernel

/-- Refutes O40: the load of a partition whose table has a stored tile of no shape succeeds, but the refused hot copy stays in its step, which
is then not the empty step of epoch 1. -/
theorem not_programsAreLoadedAndUnloaded : ¬ Obligations.ProgramsAreLoadedAndUnloaded := by
  unfold Obligations.ProgramsAreLoadedAndUnloaded
  intro h
  obtain ⟨hfront, hpass, hpost⟩ := loadReady_front
  obtain ⟨hempty, hbusy, hext, himage, h3, h4, husable, h5, -, h6⟩ := loadReady_fits
  obtain ⟨hload, -⟩ := h loadReady 0 1 {} loadFetched [] loadSections 2 7 0 (newRequest loadReady 0 1 .programLoad loadFetched.desc []) {}
  obtain ⟨-, hruns⟩ := hload hfront (by decide) hpass rfl hbusy hpost
  obtain ⟨-, hplaced⟩ := hruns (.inl hempty) hext
  obtain ⟨-, hstarts⟩ := hplaced himage h3 h4 husable h5 h6
  obtain ⟨t, ht, -, -, -, -, hstep, -⟩ := hstarts hempty (by decide +kernel)
  have law : exec (.programLoad 0 1 {} loadSections) loadReady = .next (finishPlain (rebuildHot loadPlaced 2) 7 .ok 0) := by
    have hprog := programLoad_of_fit (h := 7) (r := newRequest loadReady 0 1 .programLoad loadFetched.desc (paramBytes loadReady loadFetched.desc {}))
      loadAccepted_fits
    exact congrArg Host.Outcome.next ((acceptFront_of_ok _ hfront (by decide)).trans ((checked_of_passes hpass _ _ _).trans
      (hprog.trans (congrArg (finishPlain · 7 .ok 0) (placeProgram_of_placed loadAccepted_places 0)))))
  obtain rfl := Host.Outcome.next.inj (law.symm.trans ht)
  have hrefused := storeRefusal_of_hot loadPlaced_misshapen 7 .ok 0
  rw [hstep] at hrefused
  cases hrefused

end Sys2Proof.Machine

/-! The switch of a compaction (R187) when the directory tile fails its CRC (R43): the failed check is logged, and the event is posted. -/

namespace Sys2Proof.Machine

/-- A list with no base unit, no delta and no tombstone: the switch clears its directory entry, and leaves its old parts to be freed. -/
theorem compactionSwitch_of_empty {s : State} {i l : Nat} {r : IndexRec} {c : Compaction} (hr : indexOf s i = some r) (hc : mfind r.compact l = some c)
    (hb : r.batch = none) (hu : dirUnits (dirEntry s r l) = 0) (hd : deltaChain s (dirEntry s r l) = []) (ht : tombChain s (dirEntry s r l) = [])
    (base : Nat) : ∃ f old, compactionSwitch s i l base =
      leaveFreeing (setIndex (setDir s i false l f) i fun r => { r with compact := mdel r.compact l, newDeltas := [], newTombs := [] }) i l old := by
  have htl : tombList s (dirEntry s r l) = [] := by simp [tombList, ht]
  have hbase : baseEntries s r l (dirEntry s r l) = [] := by simp [baseEntries, hu]
  have hde : deltaEntries s r (dirEntry s r l) = [] := by simp [deltaEntries, hd]
  have hgood : listGood s r l = true := by simp [listGood, badUnits, chainGood, hu, hd, ht]
  have hfit : baseFits s r (dirEntry s r l) base 0 = true := rfl
  have hroom : chainRoom r 0 0 = true := by
    have hper : (0 + max 1 (entriesPerTile r) - 1) / max 1 (entriesPerTile r) = 0 := Nat.div_eq_of_lt (by omega)
    simp only [chainRoom, hper, Nat.zero_le, decide_true, Bool.true_and]
    simp
  unfold compactionSwitch
  rw [hr]
  dsimp only
  rw [hc]
  simp only [htl, hbase, hde, List.take_nil, List.drop_nil, List.append_nil, List.map_nil, List.filter_nil, if_true, List.length_nil, hb, hgood, hfit, hroom,
    Option.isSome_none, Bool.not_true, Bool.or_self, List.range_zero, List.zip_nil_left, List.foldl_nil]
  exact ⟨_, _, rfl⟩

/-- A tile whose CRC fails is not patched; the failure is logged. -/
theorem devPatch_of_bad {s : State} {a : Nat} {t : Tile} (ht : devTile s (a / 16384) = some t) (hg : t.good = false) (data : Bytes) :
    devPatch s a data = logEvent s (.unnamed 16 0x3F [w32 (a / 16384), w32 (a % 16384)]) := by
  unfold devPatch
  dsimp only
  rw [ht]
  exact if_neg (by rw [hg]; exact Bool.false_ne_true)

theorem setIndex_host (s : State) (i : Nat) (f : IndexRec → IndexRec) : (setIndex s i f).host = s.host := by
  unfold setIndex
  split <;> rfl

/-- A stored record that concerns no tenant is posted on PF0's event queue pair. -/
theorem storeRecord_posts {s u : State} {e : Ev} {q : BitVec 3} (hu : u.host = s.host) (he : e.tenant = none) (ha : e.also0 = false) (hq : mget 0 s.host.eventQp 0 = q)
    (hc : canPost s 0 q) (summary : Bool) : ∃ c, (qpOf (storeRecord u e summary) 0 q).waiting = (qpOf s 0 q).waiting ++ [c] := by
  unfold storeRecord postEvent evFunction
  rw [he, ha]
  have hpost (u : State) (hu : u.host = s.host) : ∃ c, (qpOf (postEventTo u e 0) 0 q).waiting = (qpOf s 0 q).waiting ++ [c] := by
    have hqp : qpOf u 0 q = qpOf s 0 q := by
      unfold qpOf
      rw [hu]
    have hcu : canPost u 0 q := by
      refine canPost_of_pair hc (by rw [hqp]) (by rw [hqp]) (by rw [hqp]) ?_
      rw [hu]
      exact hc.2.2
    have hev : mget 0 u.host.eventQp (0 : Tenant).toNat = q := by
      rw [hu]
      exact hq
    unfold postEventTo
    dsimp only
    rw [hev, post_of_canPost hcu, waiting_posted, hqp]
    exact ⟨_, rfl⟩
  exact hpost _ hu

/-- No code is suppressed yet: the event is stored. -/
theorem logEvent_posts {s : State} {e : Ev} {q : BitVec 3} (hb : s.bureau.buckets = []) (he : e.tenant = none) (ha : e.also0 = false)
    (hq : mget 0 s.host.eventQp 0 = q) (hc : canPost s 0 q) : ∃ c, (qpOf (logEvent s e) 0 q).waiting = (qpOf s 0 q).waiting ++ [c] := by
  unfold logEvent
  split
  · exact storeRecord_posts rfl he ha hq hc false
  · dsimp only
    have htokens : 0 < (mget {} s.bureau.buckets e.code.toNat).tokens := by
      rw [hb]
      exact Nat.zero_lt_succ 7
    rw [if_pos htokens]
    refine storeRecord_posts ?_ he ha hq hc false
    rfl

/-- An index whose list 0 is being compacted, and whose directory starts at device tile 8. -/
def compactingIndex : IndexRec := { listdirBase := 131072, compact := [(0, { d0 := 0, t0 := 0, o := 1 })] }

/-- A tile of zeros with a CRC that does not match. -/
def badZeroTile : Tile := { hdr := { crc := tileCrc {} [0] + 1 }, payload := [0] }

/-- That index as index 0, the bad tile as its directory, and PF0's event queue pair enabled. -/
def holdsBadDirectory : State :=
  setQp { tier := { dir := [(0, 0)], leaves := [(0, { valid := true, homeTier := 2 })]
                    lmem := [(8, { hdr := badZeroTile.hdr, payload := badZeroTile.payload, dirty := false })] }
          gen := { indexes := [(0, compactingIndex)] } } 0 0 fun p => { p with enable := true, state := .enabled, cqLog2 := 8 }

theorem holdsBadDirectory_applies : indexOf holdsBadDirectory 0 = some compactingIndex
    ∧ dirUnits (dirEntry holdsBadDirectory compactingIndex 0) = 0 ∧ deltaChain holdsBadDirectory (dirEntry holdsBadDirectory compactingIndex 0) = []
    ∧ tombChain holdsBadDirectory (dirEntry holdsBadDirectory compactingIndex 0) = [] ∧ canPost holdsBadDirectory 0 0 := by decide +kernel

theorem badZeroTile_bad : badZeroTile.good = false := by
  have hne : badZeroTile ≠ {} := fun h => absurd (congrArg Tile.payload h) (List.cons_ne_nil _ _)
  have hcrc : badZeroTile.hdr.crc ≠ tileCrc badZeroTile.hdr badZeroTile.payload := by
    have hcover : crcCover badZeroTile.hdr badZeroTile.payload = crcCover {} [0] := by unfold crcCover badZeroTile; rfl
    have hcrc : tileCrc badZeroTile.hdr badZeroTile.payload = tileCrc {} [0] := by unfold tileCrc; rw [hcover]
    rw [hcrc]
    unfold badZeroTile
    dsimp only
    generalize tileCrc {} [0] = c
    simp
  unfold Tile.good Tile.crcOk
  rw [decide_eq_false hne, decide_eq_false hcrc]
  rfl

theorem devTile_badDirectory : devTile holdsBadDirectory 8 = some badZeroTile := rfl

/-- The switch leaves the host's part as the event does. -/
theorem host_of_badDirectory : (compactionSwitch holdsBadDirectory 0 0 0).host = (logEvent holdsBadDirectory (.unnamed 16 0x3F [w32 8, w32 0])).host := by
  obtain ⟨hindex, hunits, hdeltas, htombs, -⟩ := holdsBadDirectory_applies
  obtain ⟨f, old, hswitch⟩ := compactionSwitch_of_empty hindex rfl rfl hunits hdeltas htombs 0
  have hdir : setDir holdsBadDirectory 0 false 0 f = devPatch holdsBadDirectory 131072 (toLE 32 (f (dirEntry holdsBadDirectory compactingIndex 0))) := by
    unfold setDir
    rw [hindex]
    rfl
  rw [hswitch]
  unfold leaveFreeing
  rw [setIndex_host, setIndex_host, hdir, devPatch_of_bad devTile_badDirectory badZeroTile_bad]

/-- Refutes O37: a directory tile whose CRC fails is reported when the compaction's switch writes its entry, so the host's part changes. -/
theorem not_indexBatchesAreWhole : ¬ Obligations.IndexBatchesAreWhole := by
  unfold Obligations.IndexBatchesAreWhole
  intro h
  obtain ⟨hindex, hunits, hdeltas, htombs, hpost⟩ := holdsBadDirectory_applies
  obtain ⟨-, -, -, -, -, hswitch, -⟩ := h holdsBadDirectory 0 0 {} { handle := 7, desc := {} } [] compactingIndex 0 0 0 {}
  obtain ⟨y, hy, -, -, -, -, -, -, hhost⟩ := hswitch { d0 := 0, t0 := 0, o := 1 } hindex rfl rfl hunits hdeltas htombs
  obtain rfl := Host.Outcome.next.inj hy
  have hqp : qpOf (logEvent holdsBadDirectory (.unnamed 16 0x3F [w32 8, w32 0])) 0 0 = qpOf holdsBadDirectory 0 0 := by
    unfold qpOf
    rw [← host_of_badDirectory, hhost]
  obtain ⟨c, hc⟩ := logEvent_posts (s := holdsBadDirectory) (e := .unnamed 16 0x3F [w32 8, w32 0]) (q := 0) rfl rfl rfl rfl hpost
  rw [hqp] at hc
  exact List.cons_ne_nil _ _ (List.self_eq_append_right.1 hc)

end Sys2Proof.Machine

/-!
# Extents, indexes, tables and tenants made and removed (R65, R67, R71, R155, R256, R315, R373)

Each command is a function of the state with a status, which the mailbox answers; one lemma says what the answer leaves, one what a change of an
object is on a module that is not paired, and then each function has its equation per case.
-/

namespace Sys2Proof.Machine

/-! ## The command and its answer -/

section
variable {s u : State} {st : Status}

theorem command_gives {m : Bool} {f : State → State × Status × Bytes} {d : Bytes} (hr : s.bureau.recovery = false) (hf : f s = (u, st, d)) :
    command s m f = reply u m (BitVec.ofNat 8 st.code) d none := by
  rw [command_of_running hr, hf]

/-- What the mailbox's registers say of a command that has ended. -/
theorem reply_done (u : State) (st : Status) (d : Bytes) : (reply u false (BitVec.ofNat 8 st.code) d none).bureau.mbExec = false
    ∧ (reply u false (BitVec.ofNat 8 st.code) d none).bureau.mbStatus = BitVec.ofNat 8 st.code
    ∧ (reply u false (BitVec.ofNat 8 st.code) d none).bureau.mbBackground = false :=
  ⟨reply_mbExec .., reply_mbStatus .., congrArg BureauState.mbBackground (reply_bureau u (BitVec.ofNat 8 st.code) d none)⟩

theorem objectRole_of_alone (h : s.pair.enable = false) (tn : Tenant) : objectRole s tn = none := by
  unfold objectRole mutRole
  simp [h]

theorem mirrorConfigOut_of_alone (h : s.pair.enable = false) (tn : Tenant) (c : ConfigBody) : mirrorConfigOut s tn c = s := if_pos (by rw [h]; rfl)

/-- On a module that is not paired a change of an object has nothing to ask and nothing to mirror. -/
theorem changeObject_of_alone {tn : Tenant} {f : State → State × Status} {c : State → ConfigBody} (h : s.pair.enable = false) (hf : f s = (u, st))
    (hu : u.pair.enable = false) : changeObject s tn f c = (u, st, []) := by
  unfold changeObject
  rw [objectRole_of_alone h]
  dsimp only
  rw [hf]
  dsimp only
  rw [mirrorConfigOut_of_alone hu, ite_self]

end

theorem tableOf_congr {s t : State} (h : t.gen.tables = s.gen.tables) (n : Nat) : tableOf t n = tableOf s n := by
  unfold tableOf
  rw [h]

theorem indexOf_congr {s t : State} (h : t.gen.indexes = s.gen.indexes) (n : Nat) : indexOf t n = indexOf s n := by
  unfold indexOf
  rw [h]

section
variable {s u : State} {st : Status}

theorem command_ends {m : Bool} {f : State → State × Status × Bytes} {d : Bytes} (hr : s.bureau.recovery = false) (hf : f s = (u, st, d)) :
    (Host.Outcome.next (command s m f) : Out) = .next (reply u m (BitVec.ofNat 8 st.code) d none) := congrArg Host.Outcome.next (command_gives hr hf)

theorem made_alone {tn : State → Tenant} {f : State → State × Status} {c : State → ConfigBody} (hr : s.bureau.recovery = false) (hp : s.pair.enable = false)
    (hf : f s = (u, st)) (hu : u.pair.enable = false) :
    (Host.Outcome.next (command s false fun s => changeObject s (tn s) f c) : Out) = .next (reply u false (BitVec.ofNat 8 st.code) [] none) :=
  command_ends hr (changeObject_of_alone hp hf hu)

end

/-! ## Extents (R65) -/

section
variable {s : State} {x : Nat} {e old : ExtentEntry} {l : BitVec 11}

theorem entryOf_storeEntry_same (hv : e.valid = true) : entryOf (storeEntry s x l e) x = some e := by
  have hkey : entryKey (storeEntry s x l e) x = some (l.toNat * 16384 + x % 16384) := by simp [entryKey, storeEntry]
  unfold entryOf
  rw [hkey]
  simp [storeEntry, hv]

/-- A stored entry leaves the others, where its leaf is the one its directory entry names and no other names it. -/
theorem entryOf_storeEntry_other (hl : mfind s.tier.dir (x / 16384) = some l)
    (hinj : ∀ j k m, mfind s.tier.dir j = some m → mfind s.tier.dir k = some m → j = k) {y : Nat} (hy : y ≠ x) :
    entryOf (storeEntry s x l e) y = entryOf s y := by
  have hdir (j : Nat) : mfind (mins s.tier.dir (x / 16384) l) j = mfind s.tier.dir j := by
    rw [mfind_mins]
    split
    · next h => rw [h, hl]
    · rfl
  have hkey : entryKey (storeEntry s x l e) y = entryKey s y := by
    unfold entryKey
    exact congrArg (Option.map _) (hdir _)
  have hleaf (k : Nat) (hk : k ≠ l.toNat * 16384 + x % 16384) : mfind (storeEntry s x l e).tier.leaves k = mfind s.tier.leaves k := by
    show mfind (mins s.tier.leaves (l.toNat * 16384 + x % 16384) e) k = _
    rw [mfind_mins, if_neg hk]
  unfold entryOf
  rw [hkey]
  cases hd : mfind s.tier.dir (y / 16384) with
  | none =>
    have : entryKey s y = none := by simp [entryKey, hd]
    rw [this]
  | some m =>
    have hk : entryKey s y = some (m.toNat * 16384 + y % 16384) := by simp [entryKey, hd]
    rw [hk]
    dsimp only
    rw [hleaf]
    intro heq
    have hm : m.toNat = l.toNat := by omega
    have hmod : y % 16384 = x % 16384 := by omega
    have hdiv : y / 16384 = x / 16384 := hinj _ _ m hd (by rw [hl, BitVec.eq_of_toNat_eq hm])
    exact hy (by omega)

theorem mapExtent_of_free (hx : x < 134217728) (hm : mappingAllowed e = true) (hn : entryOf s x = none) (hw : isWindow s x = false)
    (ho : (e.shared && objectNames s x) = false) (hh : locFree s e.homeTier e.homeLoc = true) (hc : locFree s e.copyTier e.copyLoc = true)
    (hl : leafFor s x = some l) : mapExtent s x e = (storeEntry s x l (freshEntry e), .ok) := by
  unfold mapExtent
  rw [if_neg (by simpa [hm] using hx), if_neg (by simp [hn, hw, ho, hh, hc]), hl]

theorem mapExtent_of_disallowed (h : 134217728 ≤ x ∨ mappingAllowed e = false) : mapExtent s x e = (s, .badDescriptor) :=
  if_pos (by rcases h with h | h <;> simp [h])

theorem mapExtent_of_mapped (hx : x < 134217728) (hm : mappingAllowed e = true) (h : (entryOf s x).isSome = true) : mapExtent s x e = (s, .noResources) := by
  unfold mapExtent
  rw [if_neg (by simpa [hm] using hx), if_pos (by simp [h])]

theorem unmapExtent_of_none (h : entryOf s x = none) : unmapExtent s x = (s, .badDescriptor) := by
  unfold unmapExtent
  rw [h]

theorem setExtent_of_none (h : entryOf s x = none) : setExtent s x e = (s, .badDescriptor) := by
  unfold setExtent
  rw [h]

/-- Nothing moves the extent, and nobody is in flight. -/
def Still (e : ExtentEntry) : Prop := e.mstate = 0 ∧ e.newTier = 0 ∧ e.inflight = 0

theorem unmapExtent_of_still (he : entryOf s x = some e) (hs : Still e) (hn : extentNamed s x = false) (hw : isWindow s x = false)
    (hd : mfind s.tier.drains x = none) (hc : isClean (writeBackAll s x) x = true) : unmapExtent s x = (dropExtent (writeBackAll s x) x, .ok) := by
  obtain ⟨h1, h2, h3⟩ := hs
  unfold unmapExtent
  rw [he]
  dsimp only
  rw [if_neg (by simp [hn, hw, h1, h2, h3, hd]), if_pos hc]

theorem unmapExtent_of_held (he : entryOf s x = some e) (h : extentNamed s x = true ∨ isWindow s x = true ∨ ¬Still e) :
    unmapExtent s x = (s, .noResources) := by
  unfold unmapExtent
  rw [he]
  refine if_pos ?_
  rcases h with h | h | h
  · simp [h]
  · simp [h]
  · by_contra hn
    simp only [Bool.or_eq_true, decide_eq_true_eq, not_or, not_not, ne_eq] at hn
    exact h ⟨hn.1.1.1.2, hn.1.1.2, hn.1.2⟩

/-- A dropped extent has no entry. -/
theorem entryOf_dropExtent (s : State) (x : Nat) : entryOf (dropExtent s x) x = none := by
  unfold dropExtent
  split
  · next e k he hk =>
    have htier (u : State) (b : Bool) (hu : u.tier = s.tier) :
        (if b then (List.range 128).foldl (fun s t => trimUnit s (128 * e.homeLoc.toNat + t)) u else freeLoc u e.homeTier e.homeLoc).tier = s.tier := by
      split
      · rw [foldl_keeps State.tier fun s a => (trimUnit_frame ..).2.2.1, hu]
      · rw [(freeLoc_frame ..).2.1, hu]
    have h := htier (freeLoc s e.copyTier e.copyLoc) (decide (e.homeTier = 3)) (freeLoc_frame ..).2.1
    simp only [decide_eq_true_eq] at h
    have hkey : entryKey s x = some k := hk
    dsimp only
    unfold entryOf entryKey
    dsimp only
    rw [h]
    unfold entryKey at hkey
    rw [hkey]
    simp
  · next h =>
    cases he : entryOf s x with
    | none => rfl
    | some e =>
      obtain ⟨k, hk, -, -⟩ := exists_key he
      exact absurd hk (h e k he)

/-- The attributes that a set which keeps the class changes. -/
theorem setAttributes_of_class (hc : e.cls = old.cls) (hd : ¬(e.cls = 0 ∧ e.copyTier = 0)) :
    setAttributes old e = { old with tenant := e.tenant, world := e.world, shared := e.shared, pin := e.pin, owner := e.owner } := by
  have h : (decide (e.cls = 0) && decide (e.copyTier = 0)) = false := by
    by_contra hn
    simp only [Bool.not_eq_false, Bool.and_eq_true, decide_eq_true_eq] at hn
    exact hd hn
  unfold setAttributes
  dsimp only
  rw [h, hc]
  rfl

theorem setExtent_of_allowed (he : entryOf s x = some old) (hm : mappingAllowed (setAttributes old e) = true) (hw : isWindow s x = false)
    (hs : Still old) (hdr : mfind s.tier.drains x = none) (hb : setBarred s x old (setAttributes old e) = false) (hc : e.cls = old.cls)
    (hd : ¬(e.cls = 0 ∧ e.copyTier = 0)) : setExtent s x e = (dropCached (setEntry s x fun y => setAttributes y e) x, .ok) := by
  obtain ⟨h1, h2, h3⟩ := hs
  have hnew := setAttributes_of_class hc hd
  have hcls : (setAttributes old e).cls = old.cls := by rw [hnew]
  have hcopy : (setAttributes old e).copyTier = old.copyTier := by rw [hnew]
  have hclean : (!isClean s x && decide ((setAttributes old e).cls ≠ 1)) = false := by
    rw [hcls]
    simp only [isClean, he, Option.all_some]
    by_cases h : old.cls = 1
    · simp [h]
    · rw [decide_eq_true h]
      rfl
  unfold setExtent
  rw [he]
  dsimp only
  rw [if_neg (by simp [hm]), if_neg (by simp [hw, h1, h2, h3, hdr, hb]), if_neg (not_not.2 hcls), hclean]
  simp [hcopy]

theorem setExtent_of_barred (he : entryOf s x = some old) (hm : mappingAllowed (setAttributes old e) = true)
    (hb : setBarred s x old (setAttributes old e) = true) : setExtent s x e = (s, .noResources) := by
  unfold setExtent
  rw [he]
  dsimp only
  rw [if_neg (by simp [hm]), if_pos (by simp [hb])]

theorem setExtent_of_disallowed (he : entryOf s x = some old) (hm : mappingAllowed (setAttributes old e) = false) :
    setExtent s x e = (s, .badDescriptor) := by
  unfold setExtent
  rw [he]
  exact if_pos (by simp [hm])

end

/-! ## Indexes (R155) -/

section
variable {s v : State} {n : Nat} {r : IndexRec}

/-- The record of an index as it is created. -/
def createdIndex (r : IndexRec) : IndexRec :=
  { r with
    epoch := 1, oldestSnap := 1, insertNext := 0x8000000000, snaps := [], deltaUsed := 0, tombUsed := 0, deltaFree := [], tombFree := []
    batch := none, undo := [], newDeltas := [], newTombs := [], queue := [], compact := [], freeing := [] }

theorem createIndex_of_ok (hn : n < 256) (hf : indexFieldsOk r = true) (he : indexExtentsOk s r = true) (hi : indexOf s n = none)
    (hc : (s.gen.indexes.map fun x => x.2.centroids).sum + r.centroids ≤ 33554432) (hp : passageRoom s (heldPassages s r) = true)
    (ht : storeTakes s (1 + (r.entryCount * r.dim + 16383) / 16384) = true) (hv : pinAll (entryExtents r) s = some v) :
    createIndex s n r = ({ v with gen := { v.gen with indexes := mins v.gen.indexes n (createdIndex r) } }, .ok) := by
  unfold createIndex
  rw [if_neg (by simpa [hf, he] using hn), if_neg (by simpa [hi, hp, ht] using hc), hv]
  rfl

theorem createIndex_of_bad (h : 256 ≤ n ∨ indexFieldsOk r = false) : createIndex s n r = (s, .badDescriptor) :=
  if_pos (by rcases h with h | h <;> simp [h])

theorem createIndex_of_full (hn : n < 256) (hf : indexFieldsOk r = true) (he : indexExtentsOk s r = true)
    (hp : passageRoom s (heldPassages s r) = false) : createIndex s n r = (s, .noResources) := by
  unfold createIndex
  rw [if_neg (by simpa [hf, he] using hn), if_pos (by simp [hp])]

theorem destroyIndex_of_none (h : indexOf s n = none) : destroyIndex s n = (s, .badDescriptor) := by
  unfold destroyIndex
  rw [h]

theorem destroyIndex_of_busy (h : indexOf s n = some r) (hb : indexBusy s n r = true) : destroyIndex s n = (s, .noResources) := by
  unfold destroyIndex
  rw [h]
  exact if_pos hb

/-- An index that goes: of the state outside the tier table only the sequencer's indexes and code books change. -/
theorem destroyIndex_of_idle (h : indexOf s n = some r) (hb : indexBusy s n r = false) : ∃ c t,
    destroyIndex s n = ({ s with gen := { s.gen with indexes := mdel s.gen.indexes n, codebooks := c }, tier := t }, .ok) := by
  have unpin (l others : List Nat) (s : State) : ∃ t,
      l.foldl (fun (s : State) (x : Nat) => if x ∈ others ∨ x ∈ plannedExtents s then s else setEntry s x fun e => { e with pin := false }) s
        = { s with tier := t } := by
    induction l generalizing s with
    | nil => exact ⟨s.tier, rfl⟩
    | cons x l ih =>
      rw [List.foldl_cons]
      split
      · exact ih s
      · obtain ⟨lv, hl⟩ := setEntry_eq s x fun e => { e with pin := false }
        rw [hl]
        obtain ⟨t, ht⟩ := ih { s with tier := { s.tier with leaves := lv } }
        exact ⟨t, ht⟩
  unfold destroyIndex
  rw [h]
  dsimp only
  rw [if_neg (by rw [hb]; exact Bool.false_ne_true)]
  obtain ⟨t, ht⟩ := unpin (entryExtents r) ((mdel s.gen.indexes n).flatMap fun i => entryExtents i.2) { s with gen := { s.gen with
    indexes := mdel s.gen.indexes n, codebooks := (mmap (fun _ l => without r.codebookBase l) s.gen.codebooks).filter fun e => decide (e.2 ≠ []) } }
  exact ⟨_, t, congrArg (·, Status.ok) ht⟩

end

/-! ## Tables (R256) -/

section
variable {s : State} {n : Nat} {r : TableRec}

/-- The record of a table as it is created at a time. -/
def createdTable (r : TableRec) (t : BitVec 48) : TableRec :=
  { r with
    updateSeq := 0, lookups := 0, lastBatch := [], batch := none, leftOut := 0, mirrorIn := [], undo := [], skippedRebuilds := 0
    cntInvalid := 0, cntMissing := 0, refreshedAt := t }

theorem createTable_of_ok (hn : n < 64) (hf : tableFieldsOk r = true) (he : tableExtentsOk s r = true) (ht : tableOf s n = none)
    (hp : (partOf s r.part).prog = none) (hb : hotTilesOf s r.part + r.hotTiles ≤ min 16384 (partOf s r.part).hotBudgetUsed.toNat) :
    createTable s n r = ({ s with gen := { s.gen with tables := mins s.gen.tables n (createdTable r (now s)) } }, .ok) := by
  have hprog : (partOf { s with gen := { s.gen with tables := mins s.gen.tables n (createdTable r (now s)) } } r.part).prog = none := hp
  unfold createTable
  rw [if_neg (by simp only [hf, he, Bool.not_true, Bool.or_false, Bool.or_eq_true, decide_eq_true_eq]; omega), if_neg (by simp [ht])]
  refine congrArg (·, Status.ok) (if_neg ?_)
  exact fun h => absurd (h.symm.trans (congrArg Option.isSome hprog)) (by decide)

theorem createTable_of_bad (h : 64 ≤ n ∨ tableFieldsOk r = false) : createTable s n r = (s, .badDescriptor) :=
  if_pos (by rcases h with h | h <;> simp [h])

theorem destroyTable_of_none (h : tableOf s n = none) : destroyTable s n = (s, .badDescriptor) := by
  unfold destroyTable
  rw [h]

theorem destroyTable_of_busy (h : tableOf s n = some r) (hb : tableBusy s n r = true) : destroyTable s n = (s, .noResources) := by
  unfold destroyTable
  rw [h]
  exact if_pos hb

/-- The hot copies of a table of partition p. -/
def hotCopies (s : State) (n : Nat) (r : TableRec) : List (Nat × TileIdx) :=
  (partOf s r.part).hotDir.filter fun x => decide (x.1 ∈ (List.range r.hotTiles).map (hotKey n))

/-- The slots of hot copies freed. -/
def freeHots (l : List (Nat × TileIdx)) (s : State) : State :=
  l.foldl (fun s x => setSlot s x.2 fun y => { y with hdr := { y.hdr with state := .free } }) s

theorem destroyTable_of_idle (h : tableOf s n = some r) (hb : tableBusy s n r = false) : destroyTable s n =
    (let u := setPart (freeHots (hotCopies s n r) s) r.part fun q => { q with hotDir := q.hotDir.filter fun x => decide (x ∉ hotCopies s n r) }
     { u with gen := { u.gen with tables := mdel u.gen.tables n } }, .ok) := by
  unfold destroyTable
  rw [h]
  exact if_neg (by rw [hb]; exact Bool.false_ne_true)

theorem freeHots_store (l : List (Nat × TileIdx)) (s : State) : ∃ m, freeHots l s = { s with store := { s.store with slots := m } } := by
  induction l generalizing s with
  | nil => exact ⟨s.store.slots, rfl⟩
  | cons x l ih =>
    obtain ⟨m, h⟩ := ih (setSlot s x.2 fun y => { y with hdr := { y.hdr with state := .free } })
    exact ⟨m, h⟩

/-- A slot that is freed stays free while others are. -/
theorem freeHots_free (l : List (Nat × TileIdx)) (s : State) (i : TileIdx) (h : (slotOf s i).hdr.state = .free ∨ ∃ y ∈ l, y.2 = i) :
    (slotOf (freeHots l s) i).hdr.state = .free := by
  induction l generalizing s with
  | nil => exact h.resolve_right fun ⟨_, h, _⟩ => by cases h
  | cons x l ih =>
    refine ih (setSlot s x.2 fun y => { y with hdr := { y.hdr with state := .free } }) ?_
    rw [slotOf_setSlot]
    by_cases hi : i = x.2
    · rw [if_pos hi]
      exact .inl rfl
    · rw [if_neg hi]
      rcases h with h | ⟨y, hy, rfl⟩
      · exact .inl h
      · rcases List.mem_cons.1 hy with rfl | hy
        · exact absurd rfl hi
        · exact .inr ⟨y, hy, rfl⟩

end

/-! ## Tenants (R315) -/

section
variable {s : State} {tn : Tenant}

theorem removeAdapters_of_used (h : ∃ y ∈ s.gen.adapters, y.2.tenant = tn ∧ y.2.refs ≠ 0) : removeAdapters s tn = (s, .noResources) := by
  refine if_pos (List.any_eq_true.2 ?_)
  obtain ⟨y, hy, ht, hr⟩ := h
  exact ⟨y, hy, by simp [ht, hr]⟩

theorem removeAdapters_of_free (h : ∀ y ∈ s.gen.adapters, y.2.tenant = tn → y.2.refs = 0) : removeAdapters s tn =
    ({ s with gen := { s.gen with adapters := s.gen.adapters.filter fun a => decide (a.2.tenant ≠ tn) } }, .ok) := by
  refine if_neg ?_
  simp only [List.any_eq_true, not_exists, not_and]
  intro y hy
  by_cases ht : y.2.tenant = tn
  · simp [ht, h y hy ht]
  · simp [ht]

theorem removeGrammars_of_free (h : ∀ y ∈ s.text.grammars, y.2.tenant = tn → grammarBound s y.1 = false) : removeGrammars s tn =
    ({ s with text := { s.text with grammars := s.text.grammars.filter fun g => decide (g.2.tenant ≠ tn) } }, .ok) := by
  refine if_neg ?_
  simp only [List.any_eq_true, not_exists, not_and]
  intro y hy
  by_cases ht : y.2.tenant = tn
  · simp [ht, h y hy ht]
  · simp [ht]

/-- A tenant without indexes and tables keeps everything when an adapter of it is in use. -/
theorem removeTenant_of_used (hi : ∀ y ∈ s.gen.indexes, y.2.tenant ≠ tn) (ht : ∀ y ∈ s.gen.tables, y.2.tenant ≠ tn)
    (ha : ∃ y ∈ s.gen.adapters, y.2.tenant = tn ∧ y.2.refs ≠ 0) : removeTenant s tn = (s, .noResources) := by
  have hi' : (s.gen.indexes.filter fun i => decide (i.2.tenant = tn)) = [] := List.filter_eq_nil_iff.2 fun y hy => by simpa using hi y hy
  have ht' : (s.gen.tables.filter fun t => decide (t.2.tenant = tn)) = [] := List.filter_eq_nil_iff.2 fun y hy => by simpa using ht y hy
  have given (l : List Nat) : l.foldl (thenRemove unmapExtent) (s, .noResources) = (s, .noResources) := by
    induction l with
    | nil => rfl
    | cons a l ih => exact ih
  have had : thenRemove (fun s _ => removeAdapters s tn) (s, .ok) () = (s, .noResources) := removeAdapters_of_used ha
  have hgr : thenRemove (fun s _ => removeGrammars s tn) (s, .noResources) () = (s, .noResources) := rfl
  unfold removeTenant
  dsimp only
  rw [hi', ht', List.map_nil, List.map_nil, List.foldl_nil, List.foldl_nil, had, hgr, given]
  rfl

/-- The state without the adapters and grammars of a tenant. -/
def tenantGone (s : State) (tn : Tenant) : State :=
  { s with
    gen := { s.gen with adapters := s.gen.adapters.filter fun a => decide (a.2.tenant ≠ tn) }
    text := { s.text with grammars := s.text.grammars.filter fun g => decide (g.2.tenant ≠ tn) } }

theorem removeTenant_of_free (hi : ∀ y ∈ s.gen.indexes, y.2.tenant ≠ tn) (ht : ∀ y ∈ s.gen.tables, y.2.tenant ≠ tn)
    (ha : ∀ y ∈ s.gen.adapters, y.2.tenant = tn → y.2.refs = 0) (hg : ∀ y ∈ s.text.grammars, y.2.tenant = tn → grammarBound s y.1 = false)
    (hl : ∀ y ∈ s.tier.leaves, y.2.valid = true → y.2.tenant ≠ tn) : removeTenant s tn = (tenantGone s tn, .ok) := by
  have hi' : (s.gen.indexes.filter fun i => decide (i.2.tenant = tn)) = [] := List.filter_eq_nil_iff.2 fun y hy => by simpa using hi y hy
  have ht' : (s.gen.tables.filter fun t => decide (t.2.tenant = tn)) = [] := List.filter_eq_nil_iff.2 fun y hy => by simpa using ht y hy
  have hl' : (s.tier.leaves.filter fun l => l.2.valid && decide (l.2.tenant = tn)) = [] :=
    List.filter_eq_nil_iff.2 fun y hy => by simpa using hl y hy
  have had : thenRemove (fun s _ => removeAdapters s tn) (s, .ok) () = _ := removeAdapters_of_free ha
  have hgr : thenRemove (fun s _ => removeGrammars s tn)
      ({ s with gen := { s.gen with adapters := s.gen.adapters.filter fun a => decide (a.2.tenant ≠ tn) } }, .ok) () = (tenantGone s tn, .ok) :=
    removeGrammars_of_free (s := { s with gen := _ }) hg
  have htier : (tenantGone s tn).tier = s.tier := rfl
  unfold removeTenant
  dsimp only
  rw [hi', ht', List.map_nil, List.map_nil, List.foldl_nil, List.foldl_nil, had, hgr]
  dsimp only
  rw [htier, hl']
  rfl

end

/-- What `f` makes of a partition stays when the directory of tables is written as well. -/
theorem partOf_setPart_tables (u : State) (p : PartId) (f : Partition → Partition) (m) :
    partOf { setPart u p f with gen := { (setPart u p f).gen with tables := m } } p = f (partOf u p) :=
  (partOf_congr (s := setPart u p f) rfl p).trans ((partOf_setPart ..).trans (if_pos rfl))

/-- Settles O48: every command by the equation of its function, on what the mailbox's answer leaves. -/
theorem objectsAreMadeAndRemoved : Obligations.ObjectsAreMadeAndRemoved := by
  unfold Obligations.ObjectsAreMadeAndRemoved
  intro s x n e old l ib v td i tb tn
  dsimp only
  intro hr
  refine ⟨?_, fun h => ?_, fun hx hm h => ?_, fun h => ⟨?_, ?_⟩, fun he hs hn hw hd hc => ?_, fun he h => ?_, ?_, fun he hm hb => ?_, fun he hm => ?_,
    ?_, fun hp h => ?_, fun hp hb hn hf he hfull => ?_, fun hp h => ?_, fun hp h => ⟨fun hb => ?_, fun hb => ?_⟩, ?_, fun hp h => ?_, fun hp h => ?_,
    fun hp h => ⟨fun hb => ?_, fun hb => ?_⟩, fun h => ?_, fun hp hi ht => ⟨fun ha => ?_, fun ha hg hl => ?_⟩⟩
  · intro hx hm hn hw ho hh hc hl
    refine ⟨_, command_ends hr (congrArg (fun y : State × Status => (y.1, y.2, ([] : Bytes))) (mapExtent_of_free hx hm hn hw ho hh hc hl)), reply_done .., ?_,
      fun hd hinj y hy => ?_, ?_, ?_, ?_⟩
    · rw [entryOf_tier (reply_frame ..).2.2.1, entryOf_storeEntry_same rfl]
    · rw [entryOf_tier (reply_frame ..).2.2.1, entryOf_storeEntry_other hd hinj hy]
    all_goals simp [storeEntry]
  · exact command_ends hr (congrArg (fun y : State × Status => (y.1, y.2, ([] : Bytes))) (mapExtent_of_disallowed h))
  · exact command_ends hr (congrArg (fun y : State × Status => (y.1, y.2, ([] : Bytes))) (mapExtent_of_mapped hx hm h))
  · exact command_ends hr (congrArg (fun y : State × Status => (y.1, y.2, ([] : Bytes))) (unmapExtent_of_none h))
  · exact command_ends hr (congrArg (fun y : State × Status => (y.1, y.2, ([] : Bytes))) (setExtent_of_none h))
  · refine ⟨_, command_ends hr (congrArg (fun y : State × Status => (y.1, y.2, ([] : Bytes))) (unmapExtent_of_still he hs hn hw hd hc)), reply_done .., ?_⟩
    rw [entryOf_tier (reply_frame ..).2.2.1, entryOf_dropExtent]
  · exact command_ends hr (congrArg (fun y : State × Status => (y.1, y.2, ([] : Bytes))) (unmapExtent_of_held he h))
  · intro he hm hw h1 h2 h3 hdr hb hc hd
    obtain ⟨-, -, -, hvalid⟩ := exists_key he
    have hset := entryOf_setEntry (fun y => setAttributes y e) he ((congrArg ExtentEntry.valid (setAttributes_of_class hc hd)).trans hvalid)
    rw [setAttributes_of_class hc hd] at hset
    obtain ⟨lv, hlv⟩ := setEntry_eq s x fun y => setAttributes y e
    refine ⟨_, command_ends hr (congrArg (fun y : State × Status => (y.1, y.2, ([] : Bytes))) (setExtent_of_allowed he hm hw ⟨h1, h2, h3⟩ hdr hb hc hd)),
      reply_done .., ?_, ?_, ?_, ?_⟩
    · rw [entryOf_tier (reply_frame ..).2.2.1, ← hset]
      exact entryOf_congr rfl rfl x
    all_goals simp [hlv]
  · exact command_ends hr (congrArg (fun y : State × Status => (y.1, y.2, ([] : Bytes))) (setExtent_of_barred he hm hb))
  · exact command_ends hr (congrArg (fun y : State × Status => (y.1, y.2, ([] : Bytes))) (setExtent_of_disallowed he hm))
  · intro hp hb hn hf he hi hc hroom ht hv hgen
    have hpair : v.pair.enable = false := by
      rw [(pinAll_frame _ _ _ hv).2.2.1]
      exact hp
    have hindex (k : Nat) : mfind (mins v.gen.indexes n (createdIndex (indexOfBytes ib))) k =
        if k = n then some (createdIndex (indexOfBytes ib)) else indexOf s k := by
      rw [mfind_mins, hgen]
      rfl
    refine ⟨_, made_alone hr hp ((if_pos hb).trans (createIndex_of_ok hn hf he hi hc hroom ht hv)) hpair, reply_done .., ?_, fun k hk => ?_,
      createdIndex (indexOfBytes ib), ?_, rfl, rfl, rfl, rfl, rfl, rfl, rfl, rfl⟩
    · rw [(reply_frame ..).2.2.1]
    · rw [indexOf_congr (congrArg GenState.indexes (reply_frame ..).2.2.2.2.1)]
      exact (hindex k).trans (if_neg hk)
    · rw [indexOf_congr (congrArg GenState.indexes (reply_frame ..).2.2.2.2.1)]
      exact (hindex n).trans (if_pos rfl)
  · refine made_alone (u := s) (st := .badDescriptor) hr hp ?_ hp
    by_cases hb : indexBytesOk n ib = true
    · exact (if_pos hb).trans (createIndex_of_bad (h.resolve_left (by rw [hb]; decide)))
    · exact if_neg hb
  · exact made_alone (u := s) (st := .noResources) hr hp ((if_pos hb).trans (createIndex_of_full hn hf he hfull)) hp
  · exact made_alone (f := fun s => destroyIndex s n) hr hp (destroyIndex_of_none h) hp
  · exact made_alone (f := fun s => destroyIndex s n) hr hp (destroyIndex_of_busy h hb) hp
  · obtain ⟨c, t, hdel⟩ := destroyIndex_of_idle h hb
    have hindex (k : Nat) : mfind (mdel s.gen.indexes n) k = if k = n then none else indexOf s k := mfind_mdel ..
    refine ⟨_, made_alone (f := fun s => destroyIndex s n) hr hp hdel hp, reply_done .., ?_, fun k hk => ?_, ?_, ?_⟩
    · rw [indexOf_congr (congrArg GenState.indexes (reply_frame ..).2.2.2.2.1)]
      exact (hindex n).trans (if_pos rfl)
    · rw [indexOf_congr (congrArg GenState.indexes (reply_frame ..).2.2.2.2.1)]
      exact (hindex k).trans (if_neg hk)
    all_goals simp
  · intro hp hb hn hf he hnone hprog hroom
    have htable (k : Nat) : mfind (mins s.gen.tables n (createdTable (tableOfBytes td) (now s))) k =
        if k = n then some (createdTable (tableOfBytes td) (now s)) else tableOf s k := mfind_mins ..
    refine ⟨_, made_alone hr hp ((if_pos hb).trans (createTable_of_ok hn hf he hnone hprog hroom)) hp, reply_done .., fun k hk => ?_, ?_, ?_,
      createdTable (tableOfBytes td) (now s), ?_, rfl, rfl, rfl, rfl, rfl⟩
    · rw [tableOf_congr (congrArg GenState.tables (reply_frame ..).2.2.2.2.1)]
      exact (htable k).trans (if_neg hk)
    · simp
    · simp
    · rw [tableOf_congr (congrArg GenState.tables (reply_frame ..).2.2.2.2.1)]
      exact (htable n).trans (if_pos rfl)
  · refine made_alone (u := s) (st := .badDescriptor) hr hp ?_ hp
    by_cases hb : tableBytesOk n td = true
    · exact (if_pos hb).trans (createTable_of_bad (h.resolve_left (by rw [hb]; decide)))
    · exact if_neg hb
  · exact made_alone (f := fun s => destroyTable s n) hr hp (destroyTable_of_none h) hp
  · exact made_alone (f := fun s => destroyTable s n) hr hp (destroyTable_of_busy h hb) hp
  · have hdel := destroyTable_of_idle h hb
    obtain ⟨m, hm⟩ := freeHots_store (hotCopies s n tb) s
    have hfree := freeHots_free (hotCopies s n tb) s
    dsimp only at hdel
    rw [hm] at hdel hfree
    have htable (k : Nat) : mfind (mdel s.gen.tables n) k = if k = n then none else tableOf s k := mfind_mdel ..
    refine ⟨_, made_alone (f := fun s => destroyTable s n) hr hp hdel hp, reply_done .., ?_, fun k hk => ?_, fun y hy hk => ⟨?_, ?_⟩, ?_, ?_⟩
    · rw [tableOf_congr (congrArg GenState.tables (reply_frame ..).2.2.2.2.1)]
      exact (htable n).trans (if_pos rfl)
    · rw [tableOf_congr (congrArg GenState.tables (reply_frame ..).2.2.2.2.1)]
      exact (htable k).trans (if_neg hk)
    · rw [slotOf_congr (congrArg StoreState.slots (reply_frame ..).2.1)]
      exact hfree y.2 (.inr ⟨y, List.mem_filter.2 ⟨hy, decide_eq_true hk⟩, rfl⟩)
    · rw [partOf_congr (congrArg GenState.parts (reply_frame ..).2.2.2.2.1)]
      intro hmem
      have hmem := (congrArg (fun q : Partition => y ∈ q.hotDir) (partOf_setPart_tables ..)).mp hmem
      obtain ⟨-, hnot⟩ := List.mem_filter.1 hmem
      exact of_decide_eq_true hnot (List.mem_filter.2 ⟨hy, decide_eq_true hk⟩)
    all_goals simp
  · refine command_ends (u := s) (st := .redirectPartner) (d := []) hr ?_
    dsimp only
    rw [h]
  · refine command_ends (u := s) (st := .noResources) (d := []) hr ?_
    dsimp only
    rw [objectRole_of_alone hp, removeTenant_of_used hi ht ha]
  · refine ⟨_, command_ends (u := tenantGone s tn) (st := .ok) (d := []) hr ?_, reply_done .., ?_, ?_, ?_, ?_⟩
    · dsimp only
      rw [objectRole_of_alone hp, removeTenant_of_free hi ht ha hg hl]
    all_goals simp [tenantGone]

end Sys2Proof.Machine

/-! # What the event recorder leaves alone

The commands that reset, settle or replay work log events on their way; of the Bureau they change nothing else. One law per operation says that
the Bureau's state outside its recorder is what it was. -/

namespace Sys2Proof.Machine

set_option Elab.async false

@[simp] theorem storeRecord_recorder (s : State) (e : Ev) (summary : Bool) :
    (storeRecord s e summary).bureau.outsideRecorder = s.bureau.outsideRecorder := by
  rw [storeRecord_bureau]
  rfl

@[simp] theorem logEvent_recorder (s : State) (e : Ev) : (logEvent s e).bureau.outsideRecorder = s.bureau.outsideRecorder :=
  logEvent_outsideRecorder s e

@[simp] theorem ite_recorder (c : Prop) [Decidable c] (a b : State) :
    (if c then a else b).bureau.outsideRecorder = if c then a.bureau.outsideRecorder else b.bureau.outsideRecorder := by
  split <;> rfl

/-- What every step of a fold leaves to the recorder, the fold does. -/
@[simp] theorem foldl_recorder {α : Type} {f : State → α → State} (h : ∀ s a, (f s a).bureau.outsideRecorder = s.bureau.outsideRecorder)
    (l : List α) (s : State) : (l.foldl f s).bureau.outsideRecorder = s.bureau.outsideRecorder := by
  induction l generalizing s with
  | nil => rfl
  | cons a l ih => exact (ih _).trans (h s a)

@[simp] theorem outsideRecorder_ite (c : Prop) [Decidable c] (a b : BureauState) :
    (if c then a else b).outsideRecorder = if c then a.outsideRecorder else b.outsideRecorder := by
  split <;> rfl

theorem foldl_fst_recorder {α β : Type} {f : State × β → α → State × β}
    (h : ∀ a x, (f a x).1.bureau.outsideRecorder = a.1.bureau.outsideRecorder) (l : List α) (a : State × β) :
    (l.foldl f a).1.bureau.outsideRecorder = a.1.bureau.outsideRecorder := by
  induction l generalizing a with
  | nil => rfl
  | cons x l ih => exact (ih _).trans (h a x)

@[simp] theorem refuseWrite_recorder (s : State) (src : DieId) (tag : BitVec 16) (t : TileIdx) (h : TileHeader) (cause : Nat) :
    (refuseWrite s src tag t h cause).bureau.outsideRecorder = s.bureau.outsideRecorder := by
  unfold refuseWrite
  split <;> simp

@[simp] theorem writeTile_recorder (s : State) (src : DieId) (t : TileIdx) (tile : Tile) (world : Bool) :
    (writeTile s src t tile world).bureau.outsideRecorder = s.bureau.outsideRecorder := by simp [writeTile]

@[simp] theorem raiseOnce_recorder (s : State) (k : Nat) (cond : Bool) (e : Ev) :
    (raiseOnce s k cond e).bureau.outsideRecorder = s.bureau.outsideRecorder := by simp [raiseOnce]

@[simp] theorem checkHealth_recorder (s : State) (c : Nat) : (checkHealth s c).bureau.outsideRecorder = s.bureau.outsideRecorder := by simp [checkHealth]

@[simp] theorem retireBlock_recorder (s : State) (c d b cause : Nat) :
    (retireBlock s c d b cause).bureau.outsideRecorder = s.bureau.outsideRecorder := by simp [retireBlock]

@[simp] theorem flashProgramDone_recorder (s : State) (i : Nat) (good : Bool) :
    (flashProgramDone s i good).bureau.outsideRecorder = s.bureau.outsideRecorder := by
  unfold flashProgramDone
  split <;> simp

@[simp] theorem eraseDone_recorder (s : State) (c d b : Nat) (good : Bool) :
    (eraseDone s c d b good).bureau.outsideRecorder = s.bureau.outsideRecorder := by simp [eraseDone]

@[simp] theorem putAt_recorder (s : State) (p : BitVec 2 × Nat) (t : Tile) (e : ExtentEntry) (n : Nat) (bureau : Bool) :
    (putAt s p t e n bureau).bureau.outsideRecorder = s.bureau.outsideRecorder := by
  unfold putAt
  split <;> simp

@[simp] theorem devWrite_recorder (s : State) (n : Nat) (t : Tile) : (devWrite s n t).bureau.outsideRecorder = s.bureau.outsideRecorder := by
  unfold devWrite
  split <;> simp

@[simp] theorem devPatch_recorder (s : State) (addr : Nat) (data : Bytes) :
    (devPatch s addr data).bureau.outsideRecorder = s.bureau.outsideRecorder := by
  simp only [devPatch]
  repeat' split
  all_goals simp

@[simp] theorem recoverWb_recorder (s : State) (x n : Nat) (e : ExtentEntry) (t : BitVec 7) :
    (recoverWb s x n e t).1.bureau.outsideRecorder = s.bureau.outsideRecorder := by
  unfold recoverWb
  dsimp only
  split
  · generalize Tile.sealed _ = z
    simp
  · split <;> simp

@[simp] theorem recoverL_recorder (s : State) (x n : Nat) (e : ExtentEntry) (t : BitVec 7) :
    (recoverL s x n e t).1.bureau.outsideRecorder = s.bureau.outsideRecorder := by
  simp only [recoverL]
  repeat' split
  all_goals ((try simp only [Prod.ext_iff] at *); (try casesm* _ ∧ _); (try subst_vars); (try simp))

@[simp] theorem fillTile_recorder (x : Nat) (tier : BitVec 2) (loc : BitVec 25) (s : State) (t : Nat) :
    (fillTile x tier loc s t).bureau.outsideRecorder = s.bureau.outsideRecorder := by
  simp only [fillTile]
  repeat' split
  all_goals simp

@[simp] theorem noteRetired_recorder (s : State) (tier : BitVec 2) (loc : BitVec 25) :
    (noteRetired s tier loc).bureau.outsideRecorder = s.bureau.outsideRecorder := by simp [noteRetired]

@[simp] theorem freeLoc_recorder (s : State) (tier : BitVec 2) (loc : BitVec 25) :
    (freeLoc s tier loc).bureau.outsideRecorder = s.bureau.outsideRecorder := by simp [freeLoc]

@[simp] theorem migrateRoDrainEnd_recorder (s : State) (x : Nat) :
    (migrateRoDrainEnd s x).bureau.outsideRecorder = s.bureau.outsideRecorder := by
  unfold migrateRoDrainEnd
  split <;> simp

@[simp] theorem copyTile_recorder (s : State) (x : Nat) (e : ExtentEntry) (t : Nat) :
    (copyTile s x e t).bureau.outsideRecorder = s.bureau.outsideRecorder := by
  simp only [copyTile]
  repeat' split
  all_goals simp

@[simp] theorem migrateTileCopy_recorder (s : State) (x : Nat) : (migrateTileCopy s x).bureau.outsideRecorder = s.bureau.outsideRecorder := by
  unfold migrateTileCopy
  split <;> simp

@[simp] theorem verifyTile_recorder (a : State × Bool) (n : Nat) :
    (verifyTile a n).1.bureau.outsideRecorder = a.1.bureau.outsideRecorder := by
  simp only [verifyTile]
  split
  · rfl
  · split
    · rfl
    · next e he =>
      have hl := recoverL_recorder a.1 (devExtent n) (readPlace e (devPos n)).2 e (devPos n)
      have hs : (setLost a.1 (devExtent n) (devPos n)).bureau.outsideRecorder = a.1.bureau.outsideRecorder := by simp
      by_cases hp : (readPlace e (devPos n)).1 = 2
      · rw [if_pos hp]
        generalize recoverL a.1 (devExtent n) (readPlace e (devPos n)).2 e (devPos n) = w at hl
        obtain ⟨u, o, w⟩ := w
        cases o <;> exact hl
      · rw [if_neg hp]
        exact hs

@[simp] theorem verifyTiles_recorder (s : State) (l : List Nat) : (verifyTiles s l).1.bureau.outsideRecorder = s.bureau.outsideRecorder := by
  unfold verifyTiles
  split
  · rfl
  · exact foldl_fst_recorder verifyTile_recorder l (s, true)

@[simp] theorem loseLease_recorder (s : State) (tn : Tenant) (cause : Nat) :
    (loseLease s tn cause).bureau.outsideRecorder = s.bureau.outsideRecorder := by simp [loseLease]

@[simp] theorem swapLease_recorder (s : State) (tn : Tenant) (ok : Bool) (f : LeaseWord → LeaseWord) :
    (swapLease s tn ok f).bureau.outsideRecorder = s.bureau.outsideRecorder := by simp [swapLease]

@[simp] theorem mutPatch_recorder (s : State) (i : Nat) (u : Bool) (addr : Nat) (data : Bytes) :
    (mutPatch s i u addr data).bureau.outsideRecorder = s.bureau.outsideRecorder := by simp [mutPatch]

@[simp] theorem setDir_recorder (s : State) (i : Nat) (u : Bool) (l : Nat) (f : Nat → Nat) :
    (setDir s i u l f).bureau.outsideRecorder = s.bureau.outsideRecorder := by
  unfold setDir
  split <;> simp

@[simp] theorem freshTile_recorder (s : State) (r : IndexRec) (t : Nat) (trailer : Bytes) (off : Nat) :
    (freshTile s r t trailer off).bureau.outsideRecorder = s.bureau.outsideRecorder := devWrite_recorder s t _

theorem deltaTail_recorder (s : State) (i : Nat) (u : Bool) (l : Nat) (r : IndexRec) :
    ∀ t, deltaTail s i u l r = some t → t.2.bureau.outsideRecorder = s.bureau.outsideRecorder := by
  intro t ht
  unfold deltaTail at ht
  cases hl : (deltaChain s (dirEntry s r l)).getLast? with
  | none =>
    simp only [hl, Bool.not_true, Bool.false_eq_true, if_false, Option.map_eq_some_iff] at ht
    obtain ⟨⟨n, v⟩, hx, rfl⟩ := ht
    obtain ⟨-, -, -, -, -, -, -, -, hb, -⟩ := takeDelta_frame s i _ hx
    simpa using congrArg BureauState.outsideRecorder hb
  | some c =>
    simp only [hl] at ht
    split at ht
    · cases ht
      rfl
    · obtain ⟨⟨n, v⟩, hx, rfl⟩ := Option.map_eq_some_iff.1 ht
      obtain ⟨-, -, -, -, -, -, -, -, hb, -⟩ := takeDelta_frame s i _ hx
      simpa using congrArg BureauState.outsideRecorder hb

@[simp] theorem appendEntry_recorder (s : State) (i : Nat) (u : Bool) (l : Nat) (e : Bytes) :
    (appendEntry s i u l e).bureau.outsideRecorder = s.bureau.outsideRecorder := by
  unfold appendEntry
  split
  · rfl
  · split
    · rfl
    · next ht =>
      have htail := deltaTail_recorder _ _ _ _ _ _ ht
      dsimp only at htail ⊢
      split <;> simp [htail]

theorem tombTail_recorder (s : State) (i : Nat) (u : Bool) (l : Nat) (r : IndexRec) :
    ∀ t, tombTail s i u l r = some t → t.2.bureau.outsideRecorder = s.bureau.outsideRecorder := by
  intro t ht
  simp only [tombTail] at ht
  split at ht
  · obtain ⟨n, -, rfl⟩ := Option.map_eq_some_iff.1 ht
    rfl
  · obtain ⟨⟨n, v⟩, hx, rfl⟩ := Option.map_eq_some_iff.1 ht
    obtain ⟨-, -, -, -, -, -, -, -, hb, -⟩ := takeTomb_frame s i _ hx
    cases (tombChain s (dirEntry s r l)).getLast? <;> simpa using congrArg BureauState.outsideRecorder hb

@[simp] theorem appendTomb_recorder (s : State) (i : Nat) (u : Bool) (l : Nat) (pid del : Nat) :
    (appendTomb s i u l pid del).bureau.outsideRecorder = s.bureau.outsideRecorder := by
  unfold appendTomb
  split
  · rfl
  · split
    · rfl
    · next ht =>
      have htail := tombTail_recorder _ _ _ _ _ _ ht
      dsimp only at htail ⊢
      split <;> simp [htail]

@[simp] theorem putBlock_recorder (s : State) (i : Nat) (u : Bool) (pid : Nat) (b : Bytes) :
    (putBlock s i u pid b).bureau.outsideRecorder = s.bureau.outsideRecorder := by
  unfold putBlock
  split <;> simp

@[simp] theorem writeBatch_recorder (s : State) (i : Nat) (u : Bool) (epoch : Nat) (es : List (Nat × Bytes)) (ts : List (Nat × Nat)) (bs : List (Nat × Bytes)) :
    (writeBatch s i u epoch es ts bs).bureau.outsideRecorder = s.bureau.outsideRecorder := by simp [writeBatch]

@[simp] theorem roWrite_recorder (s : State) (n : Nat) (t : Tile) : (roWrite s n t).bureau.outsideRecorder = s.bureau.outsideRecorder := by
  unfold roWrite
  split <;> simp

@[simp] theorem forwardCentroid_recorder (s : State) (r : IndexRec) (c new : Nat) :
    (forwardCentroid s r c new).bureau.outsideRecorder = s.bureau.outsideRecorder := by
  simp only [forwardCentroid]
  repeat' split
  all_goals simp

@[simp] theorem applyPatch_recorder (i : Nat) (s : State) (p : Nat × Nat) :
    (applyPatch i s p).bureau.outsideRecorder = s.bureau.outsideRecorder := by
  unfold applyPatch
  split <;> simp

@[simp] theorem startCompaction_recorder (i : Nat) (s : State) (l : Nat) :
    (startCompaction i s l).bureau.outsideRecorder = s.bureau.outsideRecorder := by
  unfold startCompaction
  split <;> simp

@[simp] theorem makeVisible_recorder (s : State) (i : Nat) (patches : List (Nat × Nat)) (epoch : Epoch) :
    (makeVisible s i patches epoch).bureau.outsideRecorder = s.bureau.outsideRecorder := by
  simp only [makeVisible]
  repeat' split
  all_goals simp

@[simp] theorem rollbackBatch_recorder (s : State) (i : Nat) : (rollbackBatch s i).bureau.outsideRecorder = s.bureau.outsideRecorder := by
  unfold rollbackBatch
  split <;> simp

@[simp] theorem runBatch_recorder (s : State) (h : Nat) (swapOk : Bool) :
    (runBatch s h swapOk).bureau.outsideRecorder = s.bureau.outsideRecorder := by
  simp only [runBatch]
  repeat' split
  all_goals simp

@[simp] theorem drainBatches_recorder (s : State) (i : Nat) (swapOk : Bool) (k : Nat) :
    (drainBatches s i swapOk k).bureau.outsideRecorder = s.bureau.outsideRecorder := by
  induction k generalizing s with
  | zero => rfl
  | succ k ih =>
    unfold drainBatches
    repeat' split
    all_goals simp [ih]

@[simp] theorem acceptBatch_recorder (s : State) (h i : Nat) (swapOk : Bool) :
    (acceptBatch s h i swapOk).bureau.outsideRecorder = s.bureau.outsideRecorder := by simp [acceptBatch]

@[simp] theorem batchAnswered_recorder (s : State) (h : Nat) (st : Status) (swapOk : Bool) :
    (batchAnswered s h st swapOk).bureau.outsideRecorder = s.bureau.outsideRecorder := by
  simp only [batchAnswered]
  repeat' split
  all_goals simp

@[simp] theorem hotCopy_recorder (s : State) (t k : Nat) : (hotCopy s t k).bureau.outsideRecorder = s.bureau.outsideRecorder := by
  simp only [hotCopy]
  repeat' split
  all_goals simp

@[simp] theorem writeImage_recorder (s : State) (t : Nat) (row : Nat) (v : List Word) (h : Option Nat) :
    (writeImage s t row v h).bureau.outsideRecorder = s.bureau.outsideRecorder := by
  unfold writeImage
  repeat' split
  all_goals simp

@[simp] theorem undoRows_recorder (s : State) (t h : Nat) : (undoRows s t h).bureau.outsideRecorder = s.bureau.outsideRecorder := by
  simp only [undoRows]
  repeat' split
  all_goals simp

@[simp] theorem updateFails_recorder (s : State) (t h : Nat) (st : Status) :
    (updateFails s t h st).bureau.outsideRecorder = s.bureau.outsideRecorder := by
  simp only [updateFails]
  repeat' split
  all_goals simp

@[simp] theorem updateCommit_recorder (lost : List Tenant) (s : State) (h : Nat) :
    (updateCommit lost s h).bureau.outsideRecorder = s.bureau.outsideRecorder := by
  simp only [updateCommit]
  repeat' split
  all_goals ((try simp only [Prod.ext_iff] at *); (try casesm* _ ∧ _); (try subst_vars); (try simp))

@[simp] theorem updateAnswered_recorder (s : State) (h : Nat) (st : Status) :
    (updateAnswered s h st).bureau.outsideRecorder = s.bureau.outsideRecorder := by
  unfold updateAnswered
  split <;> simp

@[simp] theorem runAdapter_recorder (s : State) (h : Nat) (swapOk : Bool) :
    (runAdapter s h swapOk).bureau.outsideRecorder = s.bureau.outsideRecorder := by
  simp only [runAdapter]
  split
  · rfl
  · split
    all_goals try simp; done
    split
    · simp
    · split
      · simp
      · split
        · simp
        · next hv =>
          obtain ⟨-, -, -, -, -, -, -, -, hb, -⟩ := takeVersion_frame _ _ _ hv
          have hb := congrArg BureauState.outsideRecorder hb
          repeat' split
          all_goals simpa using hb

@[simp] theorem mutationAnswered_recorder (s : State) (h : Nat) (st : Status) (swapOk : Bool) :
    (mutationAnswered s h st swapOk).bureau.outsideRecorder = s.bureau.outsideRecorder := by
  unfold mutationAnswered
  repeat' split
  all_goals simp

@[simp] theorem settleDown_recorder (swaps : List Tenant) (s : State) (e : JournalEntry) :
    (settleDown swaps s e).bureau.outsideRecorder = s.bureau.outsideRecorder := by
  simp only [settleDown]
  repeat' split
  all_goals simp

@[simp] theorem retryMutation_recorder (swaps : List Tenant) (s : State) (h : Nat) :
    (retryMutation swaps s h).bureau.outsideRecorder = s.bureau.outsideRecorder := by
  simp only [retryMutation]
  repeat' split
  all_goals simp

@[simp] theorem retryWaiting_recorder (s : State) (swaps : List Tenant) :
    (retryWaiting s swaps).bureau.outsideRecorder = s.bureau.outsideRecorder := by simp [retryWaiting]

@[simp] theorem logSplit_recorder (s : State) (c : SplitCause) : (logSplit s c).bureau.outsideRecorder = s.bureau.outsideRecorder := by simp [logSplit]

@[simp] theorem enterDown_recorder (s : State) (c : SplitCause) (swaps : List Tenant) :
    (enterDown s c swaps).bureau.outsideRecorder = s.bureau.outsideRecorder := by simp [enterDown]

@[simp] theorem runForward_recorder (s : State) (m : MsgHdr) (d : Descriptor) (p : Bytes) :
    (runForward s m d p).bureau.outsideRecorder = s.bureau.outsideRecorder := by
  simp only [runForward]
  repeat' split
  all_goals simp

@[simp] theorem forward_recorder (s : State) (m : MsgHdr) (b : MsgBody) :
    (forward s m b).bureau.outsideRecorder = s.bureau.outsideRecorder := by
  simp only [forward]
  repeat' split
  all_goals simp

@[simp] theorem cancelForReset_recorder (s : State) (h : Nat) (r : Request) :
    (cancelForReset s h r).bureau.outsideRecorder = s.bureau.outsideRecorder := by
  unfold cancelForReset
  repeat' split
  all_goals simp

@[simp] theorem cancelOutstanding_recorder (s : State) (keep : List Nat) :
    (cancelOutstanding s keep).1.bureau.outsideRecorder = s.bureau.outsideRecorder := by simp [cancelOutstanding]

@[simp] theorem discardNew_recorder (s : State) (x : Nat) (e : ExtentEntry) :
    (discardNew s x e).bureau.outsideRecorder = s.bureau.outsideRecorder := by simp [discardNew]

@[simp] theorem resumeRo_recorder (s : State) (x : Nat) (e : ExtentEntry) :
    (resumeRo s x e).bureau.outsideRecorder = s.bureau.outsideRecorder := by simp [resumeRo]

@[simp] theorem finishMigration_recorder (s : State) (x : Nat) : (finishMigration s x).bureau.outsideRecorder = s.bureau.outsideRecorder := by
  unfold finishMigration
  split <;> simp

@[simp] theorem compareDirty_recorder (s : State) (x : Nat) : (compareDirty s x).bureau.outsideRecorder = s.bureau.outsideRecorder := by
  simp only [compareDirty]
  repeat' split
  all_goals simp

@[simp] theorem resetTiers_recorder (s : State) : (resetTiers s).bureau.outsideRecorder = s.bureau.outsideRecorder := by simp [resetTiers]

@[simp] theorem mapRows_recorder (s : State) : (mapRows s).bureau.outsideRecorder = s.bureau.outsideRecorder := by simp [mapRows]

@[simp] theorem quiesceMedia_recorder (s : State) : (quiesceMedia s).bureau.outsideRecorder = s.bureau.outsideRecorder := by simp [quiesceMedia]

@[simp] theorem linkDownForReset_recorder (s : State) : (linkDownForReset s).bureau.outsideRecorder = s.bureau.outsideRecorder := by simp [linkDownForReset]

end Sys2Proof.Machine

/-! # Staging, activation and boot of firmware (O50; R430 to R437, Table 18.9) -/

namespace Sys2Proof.Machine

/-! ## What an event leaves of the banks -/

section
variable (s : State) (e : Ev)

theorem logEvent_banks : (logEvent s e).bureau.banks = s.bureau.banks := (congrArg BureauState.banks (logEvent_outsideRecorder s e) :)

theorem logEvent_activeB : (logEvent s e).bureau.activeB = s.bureau.activeB := (congrArg BureauState.activeB (logEvent_outsideRecorder s e) :)

theorem logEvent_fuses : (logEvent s e).fuses = s.fuses := by simp

theorem logEvent_store : (logEvent s e).store = s.store := by simp

theorem stagedImage_logEvent : stagedImage (logEvent s e) = stagedImage s := by
  unfold stagedImage inactiveBank
  rw [logEvent_banks, logEvent_activeB]

end

/-! ## The offer of an image (R433) -/

theorem pldmAnswer_out (s : State) : ∃ f, (pldmAnswer s).host.out = .mctp f :: s.host.out ∧ f.length = 1 := ⟨_, rfl, by simp⟩

section
variable {s : State} {c : ComponentOffer} {i : BankImage}

theorem updateComponent_of_refused (h : offerRefused s c = true) : updateComponent s c = pldmAnswer s := if_pos h

theorem updateComponent_of_taken (h : offerRefused s c = false) : updateComponent s c =
    (missingChunks (offeredImage s c)).foldl (requestChunk (offeredImage s c).size)
      { pldmAnswer s with bureau := { s.bureau with banks := mins s.bureau.banks (inactiveBank s) (offeredImage s c), session := true } } :=
  if_neg (by rw [show offerRefused (pldmAnswer s) c = false from h]; exact Bool.false_ne_true)

/-- The image that an offer finds nothing of. -/
def newImage (c : ComponentOffer) : BankImage := { version := c.version, size := c.size, stamp := c.stamp, svn := c.svn, keySlot := c.keySlot }

theorem offeredImage_of_none (h : stagedImage s = none) : offeredImage s c = newImage c := by
  unfold offeredImage
  rw [h]
  rfl

theorem offeredImage_of_same (h : stagedImage s = some i) (hc : sameComponent i c = true) : offeredImage s c = i := by
  unfold offeredImage
  rw [h]
  exact if_pos hc

/-- Of a new image every chunk is missing. -/
theorem missingChunks_newImage (c : ComponentOffer) : missingChunks (newImage c) = List.range (chunkCount c.size) :=
  List.filter_eq_self.2 fun _ _ => rfl

theorem foldl_requestChunk_bureau (n : Nat) (l : List Nat) (s : State) : (l.foldl (requestChunk n) s).bureau = s.bureau :=
  State.foldl_bureau (f := requestChunk n) (fun _ _ => rfl) l s

/-- The requests for chunks go out in the order of their offsets. -/
theorem foldl_requestChunk_out (n : Nat) (l : List Nat) (s : State) : (l.foldl (requestChunk n) s).host.out =
    (l.map fun k => Output.mctp (toLE 4 (4096 * k) ++ toLE 4 (chunkBytes n k))).reverse ++ s.host.out := by
  induction l generalizing s with
  | nil => rfl
  | cons k l ih =>
    rw [List.foldl_cons, ih, List.map_cons, List.reverse_cons, List.append_assoc]
    rfl

theorem updateComponent_bureau (h : offerRefused s c = false) : (updateComponent s c).bureau =
    { s.bureau with banks := mins s.bureau.banks (inactiveBank s) (offeredImage s c), session := true } := by
  rw [updateComponent_of_taken h, foldl_requestChunk_bureau]

theorem stagedImage_updateComponent (h : offerRefused s c = false) : stagedImage (updateComponent s c) = some (offeredImage s c) := by
  unfold stagedImage inactiveBank
  rw [updateComponent_bureau h]
  exact (mfind_mins ..).trans (if_pos rfl)

end

/-! ## The transfer of its chunks -/

/-- The inactive bank holds image `i`. -/
def withStaged (s : State) (i : BankImage) : State := { s with bureau := { s.bureau with banks := mins s.bureau.banks (inactiveBank s) i } }

section
variable {s : State} {i : BankImage} {k : Nat} {data : Bytes} {verdict : Option Verdict} {rv : Option (BitVec 2 × BitVec 2)}

theorem stagedImage_withStaged (s : State) (i : BankImage) : stagedImage (withStaged s i) = some i := (mfind_mins ..).trans (if_pos rfl)

/-- A chunk outside a transfer, or of the wrong length, changes nothing. -/
theorem dataChunk_of_useless (hi : stagedImage s = some i) (h : s.bureau.session = false ∨ data.length ≠ chunkBytes i.size k) :
    dataChunk s k data verdict rv = s := by
  unfold dataChunk
  rw [hi]
  refine if_pos ?_
  rcases h with h | h <;> simp [h]

theorem dataChunk_of_useful (hi : stagedImage s = some i) (hs : s.bureau.session = true) (hv : i.verified = false) (hk : k < chunkCount i.size)
    (hd : data.length = chunkBytes i.size k) : dataChunk s k data verdict rv =
      if (missingChunks { i with chunks := mins i.chunks k data }).isEmpty
      then verifyStaged (withStaged s { i with chunks := mins i.chunks k data }) { i with chunks := mins i.chunks k data } verdict rv
      else withStaged s { i with chunks := mins i.chunks k data } := by
  unfold dataChunk
  rw [hi]
  refine if_neg ?_
  simp [hs, hv, hk, hd]

theorem verifyStaged_of_bad {comp cause : Word} (h : imageCause s i.svn i.keySlot verdict = some (comp, cause)) : verifyStaged s i verdict rv =
    logEvent { s with bureau := { s.bureau with banks := mins s.bureau.banks (inactiveBank s) {} } } (.fwVerifyFailed (inactiveBank s) comp cause) := by
  unfold verifyStaged
  rw [h]

/-- An image that verifies is staged, and the event says so. -/
def staged (s : State) (i : BankImage) : State :=
  logEvent (withStaged s { i with verified := true }) (.fwStaged (inactiveBank s) i.svn i.size i.keySlot.toNat)

theorem verifyStaged_of_good (h : imageCause s i.svn i.keySlot verdict = none) : verifyStaged s i verdict none = staged s i := by
  unfold verifyStaged
  rw [h]
  rfl

theorem verifyStaged_of_revoking {slot signer : BitVec 2} (h : imageCause s i.svn i.keySlot verdict = none) :
    verifyStaged s i verdict (some (slot, signer)) = revokeSlot (staged s i) slot signer := by
  unfold verifyStaged
  rw [h]
  rfl

theorem staged_fuses (s : State) (i : BankImage) : (staged s i).fuses = s.fuses := logEvent_fuses ..

theorem stagedImage_staged (s : State) (i : BankImage) : stagedImage (staged s i) = some { i with verified := true } :=
  (stagedImage_logEvent ..).trans (stagedImage_withStaged ..)

theorem revokeSlot_of_unrevoked {slot signer : BitVec 2} (hd : slot ≠ signer) (h : s.fuses.revoked.getLsbD slot.toNat = false)
    (h' : s.fuses.revoked.getLsbD signer.toNat = false) : revokeSlot s slot signer =
      logEvent { s with fuses := { s.fuses with revoked := s.fuses.revoked ||| BitVec.ofNat 4 (2 ^ slot.toNat) } } (.keySlotRevoked slot.toNat signer.toNat) :=
  if_neg (by simp [hd, h, h'])

/-- The image with one more chunk. -/
def newChunk (i : BankImage) (k : Nat) (data : Bytes) : BankImage := { i with chunks := mins i.chunks k data }

section
variable (hi : stagedImage s = some i) (hs : s.bureau.session = true) (hv : i.verified = false) (hk : k < chunkCount i.size)
  (hd : data.length = chunkBytes i.size k)
include hi hs hv hk hd

theorem dataChunk_of_more (hm : missingChunks (newChunk i k data) ≠ []) : dataChunk s k data verdict rv = withStaged s (newChunk i k data) :=
  (dataChunk_of_useful hi hs hv hk hd).trans (if_neg fun h => hm (List.isEmpty_iff.1 h))

theorem dataChunk_of_last (hm : missingChunks (newChunk i k data) = []) :
    dataChunk s k data verdict rv = verifyStaged (withStaged s (newChunk i k data)) (newChunk i k data) verdict rv :=
  (dataChunk_of_useful hi hs hv hk hd).trans (if_pos (List.isEmpty_iff.2 hm))

/-- The last chunk of an image that revokes a slot under another's signature burns that fuse. -/
theorem dataChunk_of_revoking {slot signer : BitVec 2} (hm : missingChunks (newChunk i k data) = [])
    (hc : imageCause s i.svn i.keySlot verdict = none) (hne : slot ≠ signer) (h : s.fuses.revoked.getLsbD slot.toNat = false)
    (h' : s.fuses.revoked.getLsbD signer.toNat = false) : ∃ u, u.fuses = { s.fuses with revoked := s.fuses.revoked ||| BitVec.ofNat 4 (2 ^ slot.toNat) }
      ∧ dataChunk s k data verdict (some (slot, signer)) = logEvent u (.keySlotRevoked slot.toNat signer.toNat) := by
  have hf : (staged (withStaged s (newChunk i k data)) (newChunk i k data)).fuses = s.fuses := staged_fuses ..
  rw [dataChunk_of_last hi hs hv hk hd hm,
    verifyStaged_of_revoking (s := withStaged s (newChunk i k data)) (i := newChunk i k data) hc,
    revokeSlot_of_unrevoked hne (by rw [hf]; exact h) (by rw [hf]; exact h'), hf]
  exact ⟨_, rfl, rfl⟩

end

end

/-! ## Activation (R434 to R436) -/

section
variable {s : State}

theorem noteNoUtc_of_quiet (h : s.bureau.pendingBank = false ∨ s.bureau.activateUtc = 0 ∨ s.bureau.utc.isSome = true) : noteNoUtc s = s := by
  refine if_neg ?_
  rcases h with h | h | h
  · simp [h]
  · simp [h]
  · obtain ⟨o, ho⟩ := Option.isSome_iff_exists.1 h
    simp [ho]

theorem noteNoUtc_of_waiting (hp : s.bureau.pendingBank = true) (ha : s.bureau.activateUtc ≠ 0) (hu : s.bureau.utc = none) :
    noteNoUtc s = logEvent s (.fwActivationHeld 0 (inactiveBank s)) := if_pos (by simpa [hp, hu] using ha)

theorem noteNoUtc_recorder (s : State) : (noteNoUtc s).bureau.outsideRecorder = s.bureau.outsideRecorder := by
  unfold noteNoUtc
  split
  · exact logEvent_outsideRecorder ..
  · rfl

/-- The staged bank is pending. -/
def madePending (s : State) : State := { pldmAnswer s with bureau := { s.bureau with
  session := false, pendingBank := true, pendingSent := false, fwHeld := false, fwWaitsPartner := false } }

theorem activateFirmware_of_verified (hs : s.bureau.session = true) (hp : s.bureau.pendingBank = false)
    (hv : (stagedImage s).any (·.verified) = true) :
    activateFirmware s = if s.bureau.activateUtc = 0 then beginDrain (madePending s) else noteNoUtc (madePending s) :=
  if_pos (by
    have hv' : (stagedImage (pldmAnswer s)).any (·.verified) = true := hv
    rw [hv', show (pldmAnswer s).bureau.session = true from hs, show (pldmAnswer s).bureau.pendingBank = false from hp]
    rfl)

theorem schedule_of_drain (h : s.bureau.drainAt.isSome = true) (utc : BitVec 64) : schedule s utc = (s, .noResources, []) := if_pos h

theorem schedule_of_quiet {utc : BitVec 64} (h : s.bureau.drainAt = none) (hq : s.bureau.pendingBank = false ∨ s.bureau.utc.isSome = true ∨ utc = 0) :
    schedule s utc =
      ({ s with bureau := { s.bureau with activateUtc := utc, pendingSent := false, fwHeld := false, fwWaitsPartner := false } }, .ok, []) := by
  unfold schedule
  rw [if_neg (by rw [h]; exact Bool.false_ne_true), noteNoUtc_of_quiet (by tauto)]

theorem cancelActivation_of_pending (hp : s.bureau.pendingBank = true) (h : s.bureau.drainAt = none) : cancelActivation s =
    ({ s with bureau := { s.bureau with pendingBank := false, pendingSent := false, fwHeld := false, fwWaitsPartner := false, session := true } }, .ok, []) :=
  if_pos (by simp [hp, h])

theorem cancelActivation_of_none (h : s.bureau.pendingBank = false ∨ s.bureau.drainAt.isSome = true) : cancelActivation s = (s, .noResources, []) := by
  refine if_neg ?_
  rcases h with h | h
  · simp [h]
  · obtain ⟨t, ht⟩ := Option.isSome_iff_exists.1 h
    simp [ht]

theorem commitFirmware_of_down (h : s.host.bootOk = false) : commitFirmware s = (s, .noResources, []) := if_pos (by simp [h])

/-- A commit raises the counter to that of the image that runs, and burns no other fuse. -/
theorem commitFirmware_spec (h : s.host.bootOk = true) : (commitFirmware s).1.fuses = { s.fuses with rollback := max s.fuses.rollback (min 64 s.bureau.runningSvn) }
    ∧ (commitFirmware s).1.store = s.store := by
  unfold commitFirmware
  rw [if_neg (by simp [h])]
  dsimp only
  split
  · next hlt => exact ⟨(logEvent_fuses ..).trans (by rw [max_eq_right hlt.le]), logEvent_store ..⟩
  · next hge => exact ⟨by rw [max_eq_left (Nat.le_of_not_lt hge)], rfl⟩

theorem pendingNotice_of_due (ha : awaitsTime s = true) (hs : s.bureau.pendingSent = false) (hu : utcReached s 10000000 = true) : pendingNotice s =
    logEvent { s with bureau := { s.bureau with pendingSent := true } } (.fwPending s.bureau.activateUtc.toNat (inactiveBank s)) :=
  if_pos (by simp [ha, hs, hu])

theorem pendingNotice_of_not_due (h : awaitsTime s = false ∨ s.bureau.pendingSent = true ∨ utcReached s 10000000 = false) : pendingNotice s = s := by
  refine if_neg ?_
  rcases h with h | h | h <;> simp [h]

theorem activationTime_of_due (ha : awaitsTime s = true) (hu : s.bureau.activateUtc = 0 ∨ utcReached s 0 = true) : activationTime s =
    if s.pair.enable && s.pair.position && decide (s.bureau.activateUtc ≠ 0) then
      if s.pair.link = .down then logEvent { s with bureau := { s.bureau with fwHeld := true } } (.fwActivationHeld 2 (inactiveBank s))
      else { s with bureau := { s.bureau with fwWaitsPartner := true, fwWaitAt := recNow s } }
    else beginDrain s :=
  if_neg (by rcases hu with hu | hu <;> simp [ha, hu])

theorem activationHeld_of_late (hp : s.bureau.pendingBank = true) (hw : s.bureau.fwWaitsPartner = true) (hl : s.pair.link ≠ .up)
    (ht : 10000000 ≤ since s.bureau.fwWaitAt (recNow s)) : activationHeld s =
      logEvent { s with bureau := { s.bureau with fwHeld := true, fwWaitsPartner := false } } (.fwActivationHeld 1 (inactiveBank s)) :=
  if_pos (by simp [hp, hw, hl, ht])

theorem activationHeld_of_up (hl : s.pair.link = .up) : activationHeld s = s := if_neg (by simp [hl])

end

end Sys2Proof.Machine

/-! # What leaves the state of the Settee link alone

Once the link is DOWN for a reset, what the reset still does (mutations settle, media come to rest) does not bring it up: one law per operation. -/

namespace Sys2Proof.Machine

set_option Elab.async false

@[simp] theorem ite_pairLink (c : Prop) [Decidable c] (a b : State) :
    (if c then a else b).pair.link = if c then a.pair.link else b.pair.link := by
  split <;> rfl

@[simp] theorem link_ite (c : Prop) [Decidable c] (a b : PairState) : (if c then a else b).link = if c then a.link else b.link := by
  split <;> rfl

/-- What every step of a fold leaves of the link, the fold does. -/
@[simp] theorem foldl_pairLink {α : Type} {f : State → α → State} (h : ∀ s a, (f s a).pair.link = s.pair.link)
    (l : List α) (s : State) : (l.foldl f s).pair.link = s.pair.link := by
  induction l generalizing s with
  | nil => rfl
  | cons a l ih => exact (ih _).trans (h s a)

theorem foldl_fst_pairLink {α β : Type} {f : State × β → α → State × β} (h : ∀ a x, (f a x).1.pair.link = a.1.pair.link) (l : List α)
    (a : State × β) : (l.foldl f a).1.pair.link = a.1.pair.link := by
  induction l generalizing a with
  | nil => rfl
  | cons x l ih => exact (ih _).trans (h a x)

@[simp] theorem setPair_pair (s : State) (f : PairState → PairState) : (setPair s f).pair = f s.pair := rfl

@[simp] theorem setLease_pairLink (s : State) (n : Tenant) (f : LeaseInfo → LeaseInfo) : (setLease s n f).pair.link = s.pair.link := by simp [setLease]

@[simp] theorem frameSent_pairLink (s : State) (f : Frame) : (frameSent s f).pair.link = s.pair.link := by simp [frameSent]

@[simp] theorem pumpFrames_pairLink (k : Nat) (s : State) : (pumpFrames k s).pair.link = s.pair.link := by
  induction k generalizing s with
  | zero => rfl
  | succ k ih =>
    unfold pumpFrames
    repeat' split
    · rfl
    · rfl
    · exact ih _

@[simp] theorem sendMsg_pairLink (s : State) (m : MsgHdr) (b : MsgBody) : (sendMsg s m b).pair.link = s.pair.link := by simp [sendMsg]

@[simp] theorem journalMsg_pairLink (s : State) (m : MsgHdr) (b : MsgBody) (h : Option Nat) :
    (journalMsg s m b h).pair.link = s.pair.link := by simp [journalMsg]

@[simp] theorem endRerun_pairLink (s : State) (h : Nat) : (endRerun s h).pair.link = s.pair.link := by
  refine foldl_pairLink (fun u t => ?_) _ s
  dsimp only
  split <;> simp

@[simp] theorem dropRequest_pairLink (s : State) (h : Nat) : (dropRequest s h).pair.link = s.pair.link := by
  unfold dropRequest
  split <;> simp

@[simp] theorem releaseCancel_pairLink (h : Nat) (s : State) (x : Nat × Request) : (releaseCancel h s x).pair.link = s.pair.link := by simp [releaseCancel]

@[simp] theorem closeRequest_pairLink (s : State) (h : Nat) : (closeRequest s h).pair.link = s.pair.link := by simp [closeRequest]

@[simp] theorem post_pairLink (s : State) (fn : Tenant) (q : BitVec 3) (c : Completion) : (post s fn q c).pair.link = s.pair.link := by
  simp only [post]
  repeat' split
  all_goals simp

@[simp] theorem forwardDone_pairLink (x0 x1 x2 x3 x4) : (forwardDone x0 x1 x2 x3 x4).pair.link = x0.pair.link := by
  unfold forwardDone
  split <;> simp

@[simp] theorem finish_pairLink (s : State) (h : Nat) (st : Status) (body : CompBody) (payload : List (BitVec 64 × Bytes)) :
    (finish s h st body payload).pair.link = s.pair.link := by
  unfold finish
  repeat' split
  all_goals simp

@[simp] theorem finishPlain_pairLink (s : State) (h : Nat) (st : Status) (aux : BitVec 32) :
    (finishPlain s h st aux).pair.link = s.pair.link := by
  unfold finishPlain
  split <;> simp

@[simp] theorem loadFinal_pairLink (s : State) (h : Nat) (r : Request) : (loadFinal s h r).pair.link = s.pair.link := by simp [loadFinal]

@[simp] theorem loadAck_pairLink (s : State) (h : Nat) : (loadAck s h).pair.link = s.pair.link := by
  unfold loadAck
  split <;> simp

@[simp] theorem ackWaiter_pairLink (x0 x1) : (ackWaiter x0 x1).pair.link = x0.pair.link := by
  unfold ackWaiter
  split <;> simp

@[simp] theorem programDone_pairLink (s : State) (x : PageProgram) : (programDone s x).pair.link = s.pair.link := by
  unfold programDone
  split <;> simp

@[simp] theorem flashProgramDone_pairLink (s : State) (i : Nat) (good : Bool) : (flashProgramDone s i good).pair.link = s.pair.link := by
  unfold flashProgramDone
  split <;> simp

@[simp] theorem recoverWb_pairLink (s : State) (x n : Nat) (e : ExtentEntry) (t : BitVec 7) :
    (recoverWb s x n e t).1.pair.link = s.pair.link := by
  unfold recoverWb
  dsimp only
  split
  · generalize Tile.sealed _ = z
    simp
  · split <;> simp

@[simp] theorem recoverL_pairLink (s : State) (x n : Nat) (e : ExtentEntry) (t : BitVec 7) :
    (recoverL s x n e t).1.pair.link = s.pair.link := by
  simp only [recoverL]
  repeat' split
  all_goals ((try simp only [Prod.ext_iff] at *); (try casesm* _ ∧ _); (try subst_vars); (try simp))

@[simp] theorem verifyTile_pairLink (a : State × Bool) (n : Nat) :
    (verifyTile a n).1.pair.link = a.1.pair.link := by
  simp only [verifyTile]
  split
  · rfl
  · split
    · rfl
    · next e he =>
      have hl := recoverL_pairLink a.1 (devExtent n) (readPlace e (devPos n)).2 e (devPos n)
      have hs : (setLost a.1 (devExtent n) (devPos n)).pair.link = a.1.pair.link := by simp
      by_cases hp : (readPlace e (devPos n)).1 = 2
      · rw [if_pos hp]
        generalize recoverL a.1 (devExtent n) (readPlace e (devPos n)).2 e (devPos n) = w at hl
        obtain ⟨u, o, w⟩ := w
        cases o <;> exact hl
      · rw [if_neg hp]
        exact hs

@[simp] theorem verifyTiles_pairLink (s : State) (l : List Nat) : (verifyTiles s l).1.pair.link = s.pair.link := by
  unfold verifyTiles
  split
  · rfl
  · exact foldl_fst_pairLink verifyTile_pairLink l (s, true)

@[simp] theorem sendObject_pairLink (s : State) (m : MsgHdr) (b : MsgBody) : (sendObject s m b).pair.link = s.pair.link := by simp [sendObject]

@[simp] theorem journalObject_pairLink (s : State) (m : MsgHdr) (b : MsgBody) (h : Option Nat) :
    (journalObject s m b h).pair.link = s.pair.link := by simp [journalObject]

@[simp] theorem loseLease_pairLink (s : State) (tn : Tenant) (cause : Nat) : (loseLease s tn cause).pair.link = s.pair.link := by simp [loseLease]

@[simp] theorem swapLease_pairLink (s : State) (tn : Tenant) (ok : Bool) (f : LeaseWord → LeaseWord) :
    (swapLease s tn ok f).pair.link = s.pair.link := by simp [swapLease]

@[simp] theorem forwardMut_pairLink (s : State) (h : Nat) : (forwardMut s h).pair.link = s.pair.link := by
  unfold forwardMut
  split <;> simp

@[simp] theorem waitReplay_pairLink (s : State) (h : Nat) : (waitReplay s h).pair.link = s.pair.link := by simp [waitReplay]

@[simp] theorem roWrite_pairLink (s : State) (n : Nat) (t : Tile) : (roWrite s n t).pair.link = s.pair.link := by
  unfold roWrite
  split <;> simp

@[simp] theorem forwardCentroid_pairLink (s : State) (r : IndexRec) (c new : Nat) : (forwardCentroid s r c new).pair.link = s.pair.link := by
  simp only [forwardCentroid]
  repeat' split
  all_goals simp

@[simp] theorem applyPatch_pairLink (i : Nat) (s : State) (p : Nat × Nat) : (applyPatch i s p).pair.link = s.pair.link := by
  unfold applyPatch
  split <;> simp

@[simp] theorem batchFinal_pairLink (s : State) (h : Nat) (r : IndexRec) : (batchFinal s h r).pair.link = s.pair.link := by
  unfold batchFinal
  split <;> simp

@[simp] theorem makeVisible_pairLink (s : State) (i : Nat) (patches : List (Nat × Nat)) (epoch : Epoch) :
    (makeVisible s i patches epoch).pair.link = s.pair.link := by
  simp only [makeVisible]
  repeat' split
  all_goals simp

@[simp] theorem batchFails_pairLink (s : State) (h : Nat) (st : Status) (aux : BitVec 32) :
    (batchFails s h st aux).pair.link = s.pair.link := by simp [batchFails]

@[simp] theorem runBatch_pairLink (s : State) (h : Nat) (swapOk : Bool) : (runBatch s h swapOk).pair.link = s.pair.link := by
  simp only [runBatch]
  repeat' split
  all_goals simp

@[simp] theorem drainBatches_pairLink (s : State) (i : Nat) (swapOk : Bool) (k : Nat) :
    (drainBatches s i swapOk k).pair.link = s.pair.link := by
  induction k generalizing s with
  | zero => rfl
  | succ k ih =>
    unfold drainBatches
    repeat' split
    all_goals simp [ih]

@[simp] theorem acceptBatch_pairLink (s : State) (h i : Nat) (swapOk : Bool) : (acceptBatch s h i swapOk).pair.link = s.pair.link := by simp [acceptBatch]

@[simp] theorem batchAnswered_pairLink (s : State) (h : Nat) (st : Status) (swapOk : Bool) :
    (batchAnswered s h st swapOk).pair.link = s.pair.link := by
  simp only [batchAnswered]
  repeat' split
  all_goals simp

@[simp] theorem updateFinal_pairLink (s : State) (h : Nat) (st : Status) (repeated : Bool) :
    (updateFinal s h st repeated).pair.link = s.pair.link := by
  unfold updateFinal
  split <;> simp

@[simp] theorem updateOk_pairLink (s : State) (t h : Nat) : (updateOk s t h).pair.link = s.pair.link := by simp [updateOk]

@[simp] theorem updateFails_pairLink (s : State) (t h : Nat) (st : Status) : (updateFails s t h st).pair.link = s.pair.link := by
  simp only [updateFails]
  repeat' split
  all_goals simp

@[simp] theorem updateCommit_pairLink (lost : List Tenant) (s : State) (h : Nat) : (updateCommit lost s h).pair.link = s.pair.link := by
  simp only [updateCommit]
  repeat' split
  all_goals ((try simp only [Prod.ext_iff] at *); (try casesm* _ ∧ _); (try subst_vars); (try simp))

@[simp] theorem updateAnswered_pairLink (s : State) (h : Nat) (st : Status) : (updateAnswered s h st).pair.link = s.pair.link := by
  unfold updateAnswered
  split <;> simp

@[simp] theorem adapterDone_pairLink (s : State) (h : Nat) : (adapterDone s h).pair.link = s.pair.link := by
  unfold adapterDone
  split <;> simp

@[simp] theorem adapterFails_pairLink (s : State) (h : Nat) (st : Status) : (adapterFails s h st).pair.link = s.pair.link := by
  unfold adapterFails
  split <;> simp

@[simp] theorem adapterAnswered_pairLink (s : State) (h : Nat) (st : Status) : (adapterAnswered s h st).pair.link = s.pair.link := by simp [adapterAnswered]

@[simp] theorem runAdapter_pairLink (s : State) (h : Nat) (swapOk : Bool) :
    (runAdapter s h swapOk).pair.link = s.pair.link := by
  simp only [runAdapter]
  split
  · rfl
  · split
    all_goals try simp; done
    split
    · simp
    · split
      · simp
      · split
        · simp
        · next hv =>
          obtain ⟨-, -, -, -, -, -, hb, -⟩ := takeVersion_frame _ _ _ hv
          have hb := congrArg PairState.link hb
          repeat' split
          all_goals simpa using hb

@[simp] theorem freeEntry_pairLink (s : State) (j : Nat) : (freeEntry s j).pair.link = s.pair.link := by simp [freeEntry]

@[simp] theorem mutationAnswered_pairLink (s : State) (h : Nat) (st : Status) (swapOk : Bool) :
    (mutationAnswered s h st swapOk).pair.link = s.pair.link := by
  unfold mutationAnswered
  repeat' split
  all_goals simp

@[simp] theorem settleDown_pairLink (swaps : List Tenant) (s : State) (e : JournalEntry) : (settleDown swaps s e).pair.link = s.pair.link := by
  simp only [settleDown]
  repeat' split
  all_goals simp

@[simp] theorem retryMutation_pairLink (swaps : List Tenant) (s : State) (h : Nat) : (retryMutation swaps s h).pair.link = s.pair.link := by
  simp only [retryMutation]
  repeat' split
  all_goals simp

@[simp] theorem retryWaiting_pairLink (s : State) (swaps : List Tenant) : (retryWaiting s swaps).pair.link = s.pair.link := by simp [retryWaiting]

@[simp] theorem loseForward_pairLink (s : State) (h : Nat) : (loseForward s h).pair.link = s.pair.link := by simp [loseForward]

@[simp] theorem retractTile_pairLink (s : State) (x : RemoteProv) : (retractTile s x).pair.link = s.pair.link := by simp [retractTile]

@[simp] theorem popMsg_pairLink (s : State) (type : BitVec 8) : (popMsg s type).pair.link = s.pair.link := by
  unfold popMsg
  split <;> simp

@[simp] theorem dropParts_pairLink (s : State) (m : MsgHdr) : (dropParts s m).pair.link = s.pair.link := by simp [dropParts]

@[simp] theorem keepPart_pairLink (s : State) (m : MsgHdr) (b : MsgBody) : (keepPart s m b).pair.link = s.pair.link := by simp [keepPart]

@[simp] theorem runForward_pairLink (s : State) (m : MsgHdr) (d : Descriptor) (p : Bytes) : (runForward s m d p).pair.link = s.pair.link := by
  simp only [runForward]
  repeat' split
  all_goals simp

@[simp] theorem forward_pairLink (s : State) (m : MsgHdr) (b : MsgBody) : (forward s m b).pair.link = s.pair.link := by
  simp only [forward]
  repeat' split
  all_goals simp

@[simp] theorem quiesceMedia_pairLink (s : State) : (quiesceMedia s).pair.link = s.pair.link := by simp [quiesceMedia]

end Sys2Proof.Machine

/-! # The warm reset and the boot (R432, R435, R437, R456, R458) -/

namespace Sys2Proof.Machine

/-! ## Stage 0 -/

section
variable {s t : State}

theorem bankCause_congr (hb : t.bureau.banks = s.bureau.banks) (hf : t.fuses = s.fuses) (b : Bool) : bankCause t b = bankCause s b := by
  unfold bankCause bankImage
  rw [hb, hf]

theorem stage0_of_failed (h : 3 ≤ s.bureau.bootFails) : stage0 s = enterRecovery s 1 := if_pos h

theorem stage0_of_good (h : s.bureau.bootFails < 3) (hb : bankCause s s.bureau.activeB = none) : stage0 s = bootBank s s.bureau.activeB := by
  unfold stage0
  rw [if_neg (Nat.not_le.2 h), hb]

/-- The recovery mailbox is all that is left: no step of the release chain runs, and only PD00, PD01, PD05 and PD28 have power (R437). -/
def inRecovery (s : State) : State := { (drawFree (drawFree s).2).2 with
  bureau := { s.bureau with recovery := true, recoveryBit := true, booting := false }
  power := { s.power with domains := s.power.domains.filter fun d => decide (d ∈ [0, 1, 5, 28]), releaseStep := 0, resetting := none }
  pair := { s.pair.quietLink with link := .down } }

theorem enterRecovery_eq (s : State) (cause : Nat) : ∃ e, enterRecovery s cause = logEvent (inRecovery s) e := ⟨_, rfl⟩

theorem enterRecovery_recorder (s : State) (cause : Nat) :
    (enterRecovery s cause).bureau.outsideRecorder = (inRecovery s).bureau.outsideRecorder := by
  obtain ⟨e, he⟩ := enterRecovery_eq s cause
  rw [he, logEvent_outsideRecorder]

theorem enterRecovery_power (s : State) (cause : Nat) : (enterRecovery s cause).power = (inRecovery s).power := by
  obtain ⟨e, he⟩ := enterRecovery_eq s cause
  rw [he]
  exact (logEvent_frame ..).2.2.2.2.2.2.2.2.1

theorem mem_domains_inRecovery {d : Nat} (h : d ∈ (inRecovery s).power.domains) : d = 0 ∨ d = 1 ∨ d = 5 ∨ d = 28 := by
  simpa using (List.mem_filter.1 h).2

theorem enterRecovery_link (s : State) (cause : Nat) : (enterRecovery s cause).pair.link = .down := by
  obtain ⟨e, he⟩ := enterRecovery_eq s cause
  rw [he, logEvent_pair]
  rfl

/-- Stage 0 leaves the link as it is, or DOWN. -/
theorem stage0_link (h : s.pair.link = .down) : (stage0 s).pair.link = .down := by
  unfold stage0
  dsimp only
  repeat' split
  · exact enterRecovery_link ..
  · exact h
  · simpa using h
  · exact enterRecovery_link ..

end

/-! ## The warm reset up to stage 0 -/

/-- The state `w` that stage 0 finds after a warm reset of `s`. -/
structure WarmEntry (s : State) (cause : Nat) (w : State) : Prop where
  slots : w.store.slots = []
  limits : w.limits = {}
  fuses : w.fuses = s.fuses
  sources : w.bureau.sources = []
  secureXor : w.bureau.secureXor = []
  activeB : w.bureau.activeB = s.bureau.activeB
  banks : w.bureau.banks = s.bureau.banks
  bootFails : w.bureau.bootFails = s.bureau.bootFails
  pendingBank : w.bureau.pendingBank = s.bureau.pendingBank
  bootOk : w.host.bootOk = false
  fetchStopped : w.host.fetchStopped = true
  resetting : w.power.resetting = some .warm
  releaseStep : w.power.releaseStep = 8
  warmCause : w.power.warmCause = some cause
  released : w.fabric.released = [0x3C, 0x3D]
  link : w.pair.link = .down

/-- What a reset does to the link: whatever its state, it ends DOWN. -/
theorem enterDown_link (s : State) (c : SplitCause) (swaps : List Tenant) : (enterDown s c swaps).pair.link = .down := by
  unfold enterDown
  split
  · assumption
  · dsimp only
    split <;> simp

theorem linkDownForReset_link (s : State) : (linkDownForReset s).pair.link = .down := by
  unfold linkDownForReset
  split
  · assumption
  · exact enterDown_link ..

theorem mapRows_slots (s : State) : (mapRows s).store.slots = s.store.slots := by
  refine foldl_keeps (fun u : State => u.store.slots) (fun u r => ?_) _ _
  dsimp only
  split <;> simp

/-- Staged records that are kept change only where records are kept. -/
theorem flushEvents_bureau {α : Type} (p : BureauState → α)
    (h : ∀ (b : BureauState) (l f g : List EventRec), p { b with lastArea := l, firstArea := f, staged := g } = p b) (s : State) :
    p (flushEvents s).bureau = p s.bureau := by
  have hkeep (l : List EventRec) (b : BureauState) : ∃ x y, l.foldr (fun r b => keepRecord b r) b = { b with lastArea := x, firstArea := y } := by
    induction l with
    | nil => exact ⟨_, _, rfl⟩
    | cons r l ih =>
      obtain ⟨x, y, hl⟩ := ih
      rw [List.foldr_cons, hl]
      exact ⟨_, _, rfl⟩
  obtain ⟨x, y, hl⟩ := hkeep s.bureau.staged s.bureau
  have : (flushEvents s).bureau = { s.bureau with lastArea := x, firstArea := y, staged := [] } := by
    unfold flushEvents
    rw [hl]
  rw [this, h]

/-- What the recorder of events does not touch, and the fuses. -/
def sameBoot (s t : State) : Prop := t.bureau.outsideRecorder = s.bureau.outsideRecorder ∧ t.fuses = s.fuses

/-- What does not speak of the recorder is the same. -/
theorem sameBoot.bureau {s t : State} {α : Type} (h : sameBoot s t) (p : BureauState → α) (hp : ∀ b, p b.outsideRecorder = p b) :
    p t.bureau = p s.bureau := by
  rw [← hp t.bureau, h.1, hp]

theorem sameBoot.trans {s t u : State} (h : sameBoot s t) (h' : sameBoot t u) : sameBoot s u := ⟨h'.1.trans h.1, h'.2.trans h.2⟩

/-- The state `u` in which the release chain is about to start again, before the Bureau's own reset. -/
structure AtRelease (s : State) (cause : Nat) (u : State) : Prop where
  slots : u.store.slots = []
  boot : sameBoot s u
  bootOk : u.host.bootOk = false
  fetchStopped : u.host.fetchStopped = true
  resetting : u.power.resetting = some .warm
  releaseStep : u.power.releaseStep = 8
  warmCause : u.power.warmCause = some cause
  released : u.fabric.released = [0x3C, 0x3D]
  link : u.pair.link = .down

theorem AtRelease.logEvent {s u : State} {cause : Nat} (h : AtRelease s cause u) (e : Ev) : AtRelease s cause (logEvent u e) where
  slots := by simpa using h.slots
  boot := h.boot.trans ⟨logEvent_outsideRecorder .., logEvent_fuses ..⟩
  bootOk := by rw [logEvent_host]; exact h.bootOk
  fetchStopped := by rw [logEvent_host]; exact h.fetchStopped
  resetting := by simpa using h.resetting
  releaseStep := by simpa using h.releaseStep
  warmCause := by simpa using h.warmCause
  released := by simpa using h.released
  link := by simpa using h.link

theorem AtRelease.entry {s u : State} {cause : Nat} (h : AtRelease s cause u) : WarmEntry s cause (resetBureau (flushEvents u)) where
  slots := by simpa using h.slots
  limits := rfl
  fuses := by simpa using h.boot.2
  sources := rfl
  secureXor := rfl
  activeB := (flushEvents_bureau BureauState.activeB (fun _ _ _ _ => rfl) u).trans (h.boot.bureau BureauState.activeB fun _ => rfl)
  banks := (flushEvents_bureau BureauState.banks (fun _ _ _ _ => rfl) u).trans (h.boot.bureau BureauState.banks fun _ => rfl)
  bootFails := (flushEvents_bureau BureauState.bootFails (fun _ _ _ _ => rfl) u).trans (h.boot.bureau BureauState.bootFails fun _ => rfl)
  pendingBank := (flushEvents_bureau BureauState.pendingBank (fun _ _ _ _ => rfl) u).trans (h.boot.bureau BureauState.pendingBank fun _ => rfl)
  bootOk := by simpa using h.bootOk
  fetchStopped := by simpa using h.fetchStopped
  resetting := by simpa using h.resetting
  releaseStep := by simpa using h.releaseStep
  warmCause := by simpa using h.warmCause
  released := by simpa using h.released
  link := by simpa using h.link

/-- A warm reset ends in stage 0, with everything at rest. -/
theorem warmReset_entry (s : State) (cause : Nat) : ∃ w, warmReset s cause = stage0 w ∧ WarmEntry s cause w := by
  unfold warmReset
  extract_lets s₁ js p₁ s₂ p₂ s₃
  have h₁ : sameBoot s s₁ := by
    unfold s₁
    split <;> simp [sameBoot]
  have h₃ : sameBoot s s₃ := by
    unfold s₃ s₂
    split <;> exact h₁
  clear_value js s₃
  have hc : sameBoot s (cancelOutstanding s₃ js).1 := ⟨(cancelOutstanding_recorder ..).trans h₃.1, (by simp : _ = s₃.fuses).trans h₃.2⟩
  generalize cancelOutstanding s₃ js = c at hc
  obtain ⟨s₄, cancelled, rolled⟩ := c
  dsimp -zeta only
  extract_lets s₅ s₆ s₇ host power s₈ e s₉
  have h₇ : sameBoot s s₇ := hc.trans ⟨by simp [s₇, s₆, s₅, clearStore_frame], by simp [s₇, s₆, s₅]⟩
  have hlink : s₇.pair.link = .down := by
    simpa [s₇, s₆] using linkDownForReset_link s₄
  have hslots : s₇.store.slots = [] := mapRows_slots _
  clear_value s₇
  have h₈ : AtRelease s cause s₈ :=
    { slots := hslots, boot := h₇, bootOk := rfl, fetchStopped := rfl, resetting := rfl, releaseStep := rfl, warmCause := rfl
      released := rfl, link := hlink }
  clear_value s₈
  have h₉ : AtRelease s cause s₉ := by
    unfold s₉
    split
    · exact h₈
    · exact h₈.logEvent _
  clear_value s₉
  exact ⟨_, rfl, h₉.entry⟩

end Sys2Proof.Machine

/-! # The boot's outcome, the drain and recovery (O50; R432, R435, R437, Table 18.9) -/

namespace Sys2Proof.Machine

/-! ## BOOT_OK -/

section
variable {s : State}

theorem bootOk_of_idle (h : s.bureau.booting = false ∨ s.power.releaseStep ≠ 17) : bootOk s = s := by
  refine if_pos ?_
  rcases h with h | h <;> simp [h]

/-- The module after a boot that ended well, but for the fetch of descriptors. -/
def bootedWell (s : State) : State := { s with
  bureau := { s.bureau with booting := false, bootFails := 0, recoveryBit := false }
  host := { s.host with bootOk := true, inWarmReset := false }
  power := { s.power with resetting := none, releaseStep := 0, held := [], finishing := [] } }

theorem bootOk_of_ready (hb : s.bureau.booting = true) (hr : s.power.releaseStep = 17) (hf : s.host.failed = false) (hh : s.power.held = [])
    (hd : s.power.finishing = []) : bootOk s = resumeFetch (activated (bootedWell s)) := by
  unfold bootOk
  rw [if_neg (by simp [hb, hr, hf])]
  dsimp only
  rw [hh, hd]
  rfl

/-- An activation ends; of the Bureau's state nothing else changes but in the recorder. -/
theorem activated_bureau {α : Type} (p : BureauState → α)
    (hp : ∀ b : BureauState, p { b.outsideRecorder with activating := false, drainAt := none } = p { b with activating := false, drainAt := none })
    (s : State) : p (activated s).bureau = p { s.bureau with activating := false, drainAt := none } := by
  unfold activated
  dsimp only
  split
  · rw [← hp, ← hp s.bureau, logEvent_outsideRecorder]
  · rfl

theorem activated_host (s : State) : ∃ qps, (activated s).host = { s.host with qps := qps } := by
  unfold activated
  dsimp only
  split
  · exact ⟨_, logEvent_host s _⟩
  · exact ⟨_, rfl⟩

theorem doorbellInvalidation_host (s : State) (fn : Tenant) (q : BitVec 3) :
    ∃ qps out, (doorbellInvalidation s fn q).host = { s.host with qps := qps, out := out } := by
  unfold doorbellInvalidation
  dsimp only
  split <;> exact ⟨_, _, rfl⟩

/-- Fetch resumes: of the host's state but the queue pairs and what goes out, nothing else changes. -/
theorem resumeFetch_host {α : Type} (p : HostState → α) (hp : ∀ (h : HostState) q o, p { h with qps := q, out := o } = p h) (s : State) :
    p (resumeFetch s).host = p { s.host with fetchStopped := false } := by
  refine foldl_keeps (fun u : State => p u.host) (fun u x => ?_) _ _
  split
  · obtain ⟨q, o, hu⟩ := doorbellInvalidation_host u (BitVec.ofNat 9 (x.1 / 8)) (BitVec.ofNat 3 x.1)
    rw [hu, hp]
  · rfl

theorem bootOk_bureau {α : Type} (p : BureauState → α) (h : bootOk s = resumeFetch (activated (bootedWell s)))
    (hp : ∀ b : BureauState, p { b.outsideRecorder with activating := false, drainAt := none } = p { b with activating := false, drainAt := none }) :
    p (bootOk s).bureau = p { (bootedWell s).bureau with activating := false, drainAt := none } := by
  rw [h, (resumeFetch_frame _).2.2.2.2.2.2.2.2.1, activated_bureau p hp]

theorem bootOk_host {α : Type} (p : HostState → α) (h : bootOk s = resumeFetch (activated (bootedWell s)))
    (hp : ∀ (h : HostState) q o, p { h with qps := q, out := o } = p h) : p (bootOk s).host = p { (bootedWell s).host with fetchStopped := false } := by
  obtain ⟨q, hq⟩ := activated_host (bootedWell s)
  rw [h, resumeFetch_host p hp, hq]
  exact (hp { (bootedWell s).host with fetchStopped := false } q s.host.out)

end

/-! ## BOOT_TIMEOUT -/

section
variable {s : State}

theorem startChain_of_off (h : s.bureau.booting = false) : startChain s = s := if_neg (by simp [h])

/-- Stage 0 is about to run again. -/
def rebooting (s : State) : State := { s with
  fabric := { s.fabric with released := if s.power.resetting = some .warm then [0x3C, 0x3D] else [] }
  power := { s.power with releaseStep := 0 }
  bureau := { s.bureau with booting := false, bootAt := recNow s } }

theorem restartBoot_eq (s : State) : restartBoot s = startChain (stage0 (rebooting s)) := rfl

/-- After three boots in a row that fail the module is in recovery (R432, R437). -/
theorem restartBoot_of_failed (h : 3 ≤ s.bureau.bootFails) : (restartBoot s).bureau.recovery = true
    ∧ (restartBoot s).bureau.bootFails = s.bureau.bootFails ∧ (restartBoot s).bureau.activeB = s.bureau.activeB
    ∧ (restartBoot s).power.releaseStep = 0 ∧ ∀ d ∈ (restartBoot s).power.domains, d = 0 ∨ d = 1 ∨ d = 5 ∨ d = 28 := by
  have hrec := enterRecovery_recorder (rebooting s) 1
  have hoff : (enterRecovery (rebooting s) 1).bureau.booting = (inRecovery (rebooting s)).bureau.booting := (congrArg BureauState.booting hrec :)
  have hrecovery : (enterRecovery (rebooting s) 1).bureau.recovery = (inRecovery (rebooting s)).bureau.recovery :=
    (congrArg BureauState.recovery hrec :)
  have hfails : (enterRecovery (rebooting s) 1).bureau.bootFails = (inRecovery (rebooting s)).bureau.bootFails :=
    (congrArg BureauState.bootFails hrec :)
  have hactive : (enterRecovery (rebooting s) 1).bureau.activeB = (inRecovery (rebooting s)).bureau.activeB := (congrArg BureauState.activeB hrec :)
  rw [restartBoot_eq, stage0_of_failed (s := rebooting s) h, startChain_of_off hoff]
  refine ⟨hrecovery, hfails, hactive, ?_, ?_⟩
  · rw [enterRecovery_power]
    rfl
  · rw [enterRecovery_power]
    exact fun d => mem_domains_inRecovery

theorem restartBoot_of_good (h : s.bureau.bootFails < 3) (hb : bankCause s s.bureau.activeB = none) :
    (restartBoot s).bureau = (bootBank (rebooting s) s.bureau.activeB).bureau := by
  rw [restartBoot_eq, stage0_of_good (s := rebooting s) h hb, (startChain_frame _).2.2.2.2.2.2.2.2.1]
  rfl

theorem bootTimeout_of_early (h : s.bureau.booting = false ∨ since s.bureau.bootAt (recNow s) < 30000000) : bootTimeout s = s := by
  refine if_pos ?_
  rcases h with h | h <;> simp [h]

/-- One more boot has failed. -/
def oneMoreFail (s : State) : State := { s with bureau := { s.bureau with bootFails := s.bureau.bootFails + 1 } }

/-- The bank that was being activated is left for the old one, with the event. -/
def rolledBack (s : State) : State :=
  logEvent { oneMoreFail s with bureau := { (oneMoreFail s).bureau with activeB := !s.bureau.activeB, activating := false, drainAt := none } }
    (.fwRolledBack (b2n s.bureau.activeB) (s.bureau.bootFails + 1))

theorem bootTimeout_of_late (hb : s.bureau.booting = true) (ht : 30000000 ≤ since s.bureau.bootAt (recNow s)) :
    bootTimeout s = restartBoot (if s.bureau.activating then rolledBack s else oneMoreFail s) := by
  unfold bootTimeout
  rw [if_neg (by simp [hb, ht])]
  dsimp only
  split <;> rfl

theorem rolledBack_recorder (s : State) : (rolledBack s).bureau.outsideRecorder =
    { s.bureau.outsideRecorder with bootFails := s.bureau.bootFails + 1, activeB := !s.bureau.activeB, activating := false, drainAt := none } :=
  logEvent_outsideRecorder ..

/-- A bank that fails while it is activated is left for the old one (R435). -/
theorem bootTimeout_rolls_back (hb : s.bureau.booting = true) (ht : 30000000 ≤ since s.bureau.bootAt (recNow s)) (hf : s.bureau.bootFails + 1 < 3)
    (ha : s.bureau.activating = true) (hc : bankCause s (!s.bureau.activeB) = none) : (bootTimeout s).bureau.activeB = (!s.bureau.activeB)
      ∧ (bootTimeout s).bureau.booting = true ∧ (bootTimeout s).bureau.activating = false
      ∧ (bootTimeout s).bureau.bootFails = s.bureau.bootFails + 1 ∧ (bootTimeout s).bureau.recovery = false := by
  have hlate := (bootTimeout_of_late hb ht).trans (congrArg restartBoot (if_pos ha))
  have hroll := rolledBack_recorder s
  have hsame : (rolledBack s).fuses = s.fuses := logEvent_fuses ..
  generalize rolledBack s = u at hlate hroll hsame
  have hactive : u.bureau.activeB = !s.bureau.activeB := (congrArg BureauState.activeB hroll :)
  have hfails : u.bureau.bootFails = s.bureau.bootFails + 1 := (congrArg BureauState.bootFails hroll :)
  have hgood : bankCause u u.bureau.activeB = none := by
    rw [hactive, bankCause_congr (congrArg BureauState.banks hroll :) hsame]
    exact hc
  have hbureau := restartBoot_of_good (hfails.trans_lt hf) hgood
  rw [← hlate] at hbureau
  rw [hbureau]
  exact ⟨hactive, rfl, (congrArg BureauState.activating hroll :), hfails, rfl⟩

end

/-! ## DRAIN_END -/

section
variable {s : State} {start : BitVec 48}

theorem drainEnd_of_none (h : s.bureau.drainAt = none) : drainEnd s = s := by
  unfold drainEnd
  rw [h]

/-- The drain ends in the warm reset that starts the other bank. -/
theorem drainEnd_of_drained (h : s.bureau.drainAt = some start) (ha : s.bureau.activating = false) (hd : drained s = true) :
    ∃ u n, sameBoot s u ∧ drainEnd s =
      (let t := warmReset { u with bureau := { u.bureau with activeB := !s.bureau.activeB, pendingBank := false, drainCancelled := n } } 2
       { t with bureau := { t.bureau with activating := t.bureau.booting && decide (t.bureau.activeB = !s.bureau.activeB) } }) := by
  have hc : sameBoot s (cancelOutstanding (dropMutations s) []).1 :=
    ⟨(cancelOutstanding_recorder ..).trans (by simp), by simp⟩
  unfold drainEnd
  rw [h]
  dsimp -zeta only
  rw [if_neg (by simp [ha, hd])]
  generalize cancelOutstanding (dropMutations s) [] = c at hc
  obtain ⟨u, n, k⟩ := c
  have hlog : sameBoot s (if n = 0 then u else logEvent u (.fwDrainCancelled n)) := by
    split
    · exact hc
    · exact hc.trans ⟨logEvent_outsideRecorder .., logEvent_fuses ..⟩
  refine ⟨_, n, hlog, ?_⟩
  have hactive := hlog.bureau BureauState.activeB fun _ => rfl
  dsimp -zeta only
  rw [← hactive]

/-- With the other bank good the drain ends in its boot (Table 18.9). -/
theorem drainEnd_boots (h : s.bureau.drainAt = some start) (ha : s.bureau.activating = false) (hd : drained s = true) (hf : s.bureau.bootFails < 3)
    (hb : bankCause s (!s.bureau.activeB) = none) : ∃ v w, WarmEntry v 2 w ∧ v.fuses = s.fuses ∧ v.bureau.pendingBank = false
      ∧ drainEnd s = { bootBank w (!s.bureau.activeB) with bureau := { (bootBank w (!s.bureau.activeB)).bureau with activating := true } } := by
  obtain ⟨u, n, hu, ht⟩ := drainEnd_of_drained h ha hd
  generalize hv : ({ u with bureau := { u.bureau with activeB := !s.bureau.activeB, pendingBank := false, drainCancelled := n } } : State) = v at ht
  have hfuses : v.fuses = s.fuses := by rw [← hv]; exact hu.2
  have hactive : v.bureau.activeB = !s.bureau.activeB := by rw [← hv]
  have hbanks : v.bureau.banks = s.bureau.banks := by rw [← hv]; exact hu.bureau BureauState.banks fun _ => rfl
  have hfails : v.bureau.bootFails = s.bureau.bootFails := by rw [← hv]; exact hu.bureau BureauState.bootFails fun _ => rfl
  obtain ⟨w, hw, hentry⟩ := warmReset_entry v 2
  have hgood : bankCause w w.bureau.activeB = none := by
    rw [hentry.activeB, hactive, bankCause_congr (hentry.banks.trans hbanks) (hentry.fuses.trans hfuses)]
    exact hb
  have hstage := stage0_of_good (s := w) (by rw [hentry.bootFails, hfails]; exact hf) hgood
  rw [hentry.activeB, hactive] at hstage
  refine ⟨v, w, hentry, hfuses, by rw [← hv], ?_⟩
  rw [ht, hw, hstage]
  simp [bootBank]

end

/-! ## Recovery -/

section
variable {s : State}

theorem recoveryCommand_of_running (h : s.bureau.recovery = false) (m : Bool) (f : State → State × Status × Bytes) :
    recoveryCommand s m f = reply s m (BitVec.ofNat 8 Status.badDescriptor.code) [] none := if_neg (by rw [h]; exact Bool.false_ne_true)

theorem recoveryCommand_of_recovery {u : State} {st : Status} {d : Bytes} {f : State → State × Status × Bytes} (h : s.bureau.recovery = true) (m : Bool)
    (hf : f s = (u, st, d)) : recoveryCommand s m f = reply u m (BitVec.ofNat 8 st.code) d none := by
  unfold recoveryCommand
  rw [if_pos h, hf]

theorem recoveryWrite_of_fits {n : Nat} {data : Bytes} (hl : data.length ≤ 4096) (hn : n + data.length ≤ 33554432) : recoveryWrite s n data =
    ({ s with bureau := { s.bureau with recoveryImage := mins s.bureau.recoveryImage n data, banks := mins s.bureau.banks 0 {} } }, .ok, []) :=
  if_neg (by omega)

theorem recoveryWrite_of_long {n : Nat} {data : Bytes} (hl : 4096 < data.length) : recoveryWrite s n data = (s, .badDescriptor, []) :=
  if_pos (.inl hl)

theorem recoveryBoot_of_bad {svn : Nat} {slot : BitVec 2} {v : Option Verdict} {comp cause : Word} (h : imageCause s svn slot v = some (comp, cause)) :
    recoveryBoot s svn slot v = (logEvent s (.fwVerifyFailed 0 comp cause), .noResources, []) := by
  unfold recoveryBoot
  rw [h]

/-- The module that boots out of recovery, from the image that the recovery mailbox has loaded into bank A. -/
def recovered (s : State) (svn : Nat) (slot : BitVec 2) : State :=
  bootBank (leaveRecovery { s with bureau := { s.bureau with
    banks := mins s.bureau.banks 0 { svn := svn, keySlot := slot, chunks := s.bureau.recoveryImage, verified := true }, recoveryImage := [] } }) false

/-- Batches in progress are rolled back before what survives is told apart. -/
def rolledBatches (s : State) : State := s.gen.indexes.foldl (fun s i => if i.2.batch.isSome then rollbackBatch s i.1 else s) s

theorem rolledBatches_boot (s : State) : sameBoot s (rolledBatches s) := by
  have hf (u : State) (i : Nat × IndexRec) : (if i.2.batch.isSome then rollbackBatch u i.1 else u).fuses = u.fuses := by split <;> simp
  have hb (u : State) (i : Nat × IndexRec) :
      (if i.2.batch.isSome then rollbackBatch u i.1 else u).bureau.outsideRecorder = u.bureau.outsideRecorder := by split <;> simp
  exact ⟨foldl_recorder hb _ s, State.foldl_fuses hf _ s⟩

/-- Of what survives a loss of power: the fuses, the banks, and no tile of the store. -/
theorem survivors_spec (s : State) : (survivors s).fuses = s.fuses ∧ (survivors s).bureau.banks = s.bureau.banks ∧ (survivors s).store.slots = [] :=
  ⟨(rolledBatches_boot s).2, (rolledBatches_boot s).bureau (fun b => (coldBureau b).banks) fun _ => rfl, rfl⟩

theorem recovered_spec (s : State) (svn : Nat) (slot : BitVec 2) : (recovered s svn slot).bureau.recovery = false
    ∧ (recovered s svn slot).bureau.booting = true ∧ (recovered s svn slot).bureau.activeB = false ∧ (recovered s svn slot).bureau.runningSvn = svn
    ∧ (recovered s svn slot).bureau.keySlot = slot ∧ (recovered s svn slot).fuses = s.fuses
    ∧ (recovered s svn slot).power.resetting = some .powerOn ∧ (recovered s svn slot).power.domains = [0, 1, 5, 28]
    ∧ (recovered s svn slot).store.slots = [] ∧ (recovered s svn slot).pair.journalGen = s.pair.journalGen := by
  let u := { s with bureau := { s.bureau with
    banks := mins s.bureau.banks 0 { svn := svn, keySlot := slot, chunks := s.bureau.recoveryImage, verified := true }, recoveryImage := [] } }
  obtain ⟨hf, hb, hs⟩ := survivors_spec u
  have himage : bankImage (leaveRecovery u) false = some { svn := svn, keySlot := slot, chunks := s.bureau.recoveryImage, verified := true } := by
    unfold bankImage
    rw [show (leaveRecovery u).bureau.banks = u.bureau.banks from hb, show mfind u.bureau.banks (b2n false) = _ from (mfind_mins ..).trans (if_pos rfl)]
  refine ⟨rfl, rfl, rfl, ?_, ?_, hf, rfl, rfl, hs, rfl⟩
  · exact congrArg (fun i : Option BankImage => (i.getD {}).svn) himage
  · exact congrArg (fun i : Option BankImage => (i.getD {}).keySlot) himage

theorem recoveryBoot_of_good {svn : Nat} {slot : BitVec 2} {v : Option Verdict} (h : imageCause s svn slot v = none) :
    recoveryBoot s svn slot v = (recovered s svn slot, .ok, []) := by
  unfold recoveryBoot
  rw [h]
  rfl

end

/-- Settles O50: each step of the life of an image, from its offer to the boot that ends well or falls back, and the recovery mailbox. -/
theorem firmwareIsStagedActivatedAndBooted : Obligations.FirmwareIsStagedActivatedAndBooted := by
  unfold Obligations.FirmwareIsStagedActivatedAndBooted
  intro s c k n svn data verdict i m utc slot signer comp cause start B bank no at_
  refine ⟨fun h => ?_, fun h hi => ?_, fun h hi hc => ?_, fun hi hs hv hk hd => ?_, fun h hi => congrArg Host.Outcome.next (dataChunk_of_useless hi h),
    fun hs hp hv => ?_, fun hr => ⟨fun h hq => ?_, fun h => ?_, fun hp h => ?_, fun h => ?_, fun h => ?_, fun h => ?_⟩,
    fun ha hs hu => congrArg Host.Outcome.next (pendingNotice_of_due ha hs hu), fun h => congrArg Host.Outcome.next (pendingNotice_of_not_due h),
    fun ha hu => ?_, fun hp hw => ⟨fun h => ?_, fun h => ?_, fun hl ht => congrArg Host.Outcome.next (activationHeld_of_late hp hw hl ht),
      fun h => congrArg Host.Outcome.next (activationHeld_of_up h)⟩,
    fun h => congrArg Host.Outcome.next (drainEnd_of_none h), fun h ha hd hf hb => ?_, fun h => congrArg Host.Outcome.next (bootOk_of_idle h),
    fun hb hr hf hh hd => ?_, fun h => congrArg Host.Outcome.next (bootTimeout_of_early h), fun hb ht => ⟨fun hf => ?_, fun hf ha hc => ?_⟩,
    fun hr o ho => ?_, fun hr => ⟨fun hl hn => ?_, fun hl => ?_, ?_, fun h => ?_, fun h => ?_⟩⟩
  · obtain ⟨f, hf, hlen⟩ := pldmAnswer_out s
    exact ⟨_, congrArg Host.Outcome.next (updateComponent_of_refused h), rfl, f, hf, hlen⟩
  · obtain ⟨f, hf, -⟩ := pldmAnswer_out s
    have himage := offeredImage_of_none (c := c) hi
    refine ⟨_, rfl, congrArg BureauState.session (updateComponent_bureau h), (stagedImage_updateComponent h).trans (congrArg some himage), f, ?_⟩
    rw [updateComponent_of_taken h, himage, foldl_requestChunk_out, missingChunks_newImage]
    exact congrArg (_ ++ ·) hf
  · exact ⟨_, rfl, (stagedImage_updateComponent h).trans (congrArg some (offeredImage_of_same hi hc)),
      congrArg BureauState.session (updateComponent_bureau h)⟩
  · intro j
    refine ⟨fun hm => congrArg Host.Outcome.next (dataChunk_of_more hi hs hv hk hd hm), fun hm hc => ?_, fun hm hc => ⟨?_, fun hne hslot hsigner => ?_⟩⟩
    · exact congrArg Host.Outcome.next ((dataChunk_of_last hi hs hv hk hd hm).trans (verifyStaged_of_bad (s := withStaged s j) (i := j) hc))
    · exact ⟨_, congrArg Host.Outcome.next ((dataChunk_of_last hi hs hv hk hd hm).trans (verifyStaged_of_good (s := withStaged s j) (i := j) hc)),
        stagedImage_staged .., staged_fuses .., _, rfl⟩
    · obtain ⟨u, hu, ht⟩ := dataChunk_of_revoking hi hs hv hk hd hm hc hne hslot hsigner
      have hf := (logEvent_fuses u (.keySlotRevoked slot.toNat signer.toNat)).trans hu
      exact ⟨_, congrArg Host.Outcome.next ht, (congrArg FuseState.rollback hf :), (congrArg FuseState.revoked hf :), u, rfl⟩
  · have hact := activateFirmware_of_verified hs hp hv
    have hsame := noteNoUtc_recorder (madePending s)
    by_cases ha : B.activateUtc = 0
    · exact ⟨_, congrArg Host.Outcome.next (hact.trans (if_pos ha)), rfl, rfl, fun _ => ⟨rfl, rfl⟩, fun h => absurd ha h⟩
    · refine ⟨_, congrArg Host.Outcome.next (hact.trans (if_neg ha)), (congrArg BureauState.pendingBank hsame :), (congrArg BureauState.session hsame :),
        fun h => absurd h ha, fun _ => ⟨(congrArg BureauState.drainAt hsame :), fun hu => ?_, fun hu => ⟨_, noteNoUtc_of_waiting rfl ha hu⟩⟩⟩
      rw [noteNoUtc_of_quiet (s := madePending s) (.inr (.inr hu))]
      rfl
  · exact command_ends (st := .ok) hr (schedule_of_quiet h hq)
  · exact command_ends hr (schedule_of_drain h utc)
  · exact command_ends (st := .ok) hr (cancelActivation_of_pending hp h)
  · exact command_ends hr (cancelActivation_of_none h)
  · exact command_ends hr (commitFirmware_of_down h)
  · obtain ⟨hf, hstore⟩ := commitFirmware_spec h
    refine ⟨_, congrArg Host.Outcome.next (command_of_running hr _), ?_, ?_, ?_⟩
    · rw [(reply_frame ..).2.2.2.2.2.2.2.2.2.2.1, hf]
    · rw [(reply_frame ..).2.1, hstore]
    · rw [(reply_frame ..).2.2.2.2.2.2.2.2.2.2.1, hf]
  · have htime := activationTime_of_due ha hu
    intro waits
    have hcond : (s.pair.enable && s.pair.position && decide (B.activateUtc ≠ 0)) = true ↔ waits := by simp [waits, and_assoc]
    exact ⟨fun h => congrArg Host.Outcome.next (htime.trans (if_neg (mt hcond.1 h))),
      fun h hl => congrArg Host.Outcome.next (htime.trans ((if_pos (hcond.2 h)).trans (if_pos hl))),
      fun h hl => congrArg Host.Outcome.next (htime.trans ((if_pos (hcond.2 h)).trans (if_neg hl)))⟩
  · exact congrArg Host.Outcome.next (if_pos (by simp [B] at hp hw; simp [hp, hw, h]))
  · exact congrArg Host.Outcome.next (if_neg (by simp [h]))
  · obtain ⟨v, w, hentry, hfuses, hpending, ht⟩ := drainEnd_boots h ha hd hf hb
    exact ⟨_, congrArg Host.Outcome.next ht, rfl, rfl, rfl, hentry.pendingBank.trans hpending, hentry.bootOk, hentry.warmCause, hentry.releaseStep,
      hentry.slots, hentry.fuses.trans hfuses⟩
  · have h := bootOk_of_ready hb hr hf hh hd
    have hpower : (bootOk s).power = (bootedWell s).power := by
      rw [h, (resumeFetch_frame _).2.2.2.2.2.2.2.2.2.1, (activated_frame _).2.2.2.2.2.2.2.2.1]
    exact ⟨_, rfl, bootOk_host HostState.bootOk h fun _ _ _ => rfl, bootOk_host HostState.fetchStopped h fun _ _ _ => rfl,
      bootOk_host HostState.inWarmReset h fun _ _ _ => rfl, congrArg PowerState.resetting hpower, bootOk_bureau BureauState.booting h fun _ => rfl,
      bootOk_bureau BureauState.bootFails h fun _ => rfl, bootOk_bureau BureauState.activating h fun _ => rfl,
      bootOk_bureau BureauState.recoveryBit h fun _ => rfl, by rw [h, (resumeFetch_frame _).2.1, (activated_frame _).2.1]; rfl,
      by rw [h, (resumeFetch_frame _).2.2.2.2.1, (activated_frame _).2.2.2.2.1]; rfl⟩
  · have hlate := bootTimeout_of_late hb ht
    have hroll := rolledBack_recorder s
    have hfails : (if s.bureau.activating then rolledBack s else oneMoreFail s).bureau.bootFails = B.bootFails + 1 := by
      split
      · exact (congrArg BureauState.bootFails hroll :)
      · rfl
    obtain ⟨hrec, hboot, hactive, hstep, hdom⟩ := restartBoot_of_failed (hf.trans_eq hfails.symm)
    rw [← hlate] at hrec hboot hactive hstep hdom
    refine ⟨_, rfl, hrec, hboot.trans hfails, hstep, hdom, fun ha => hactive.trans ?_⟩
    rw [if_pos ha]
    exact (congrArg BureauState.activeB hroll :)
  · exact ⟨_, rfl, bootTimeout_rolls_back hb ht hf ha hc⟩
  · simp only [List.mem_cons, List.not_mem_nil, or_false] at ho
    rcases ho with rfl | rfl | rfl <;> exact congrArg Host.Outcome.next (recoveryCommand_of_running hr m _)
  · exact congrArg Host.Outcome.next (recoveryCommand_of_recovery (st := .ok) hr m (recoveryWrite_of_fits hl hn))
  · exact congrArg Host.Outcome.next (recoveryCommand_of_recovery hr m (recoveryWrite_of_long hl))
  · refine ⟨_, congrArg Host.Outcome.next (recoveryCommand_of_recovery (st := .ok) hr false (f := recoveryStatus) rfl), reply_mbStatus .., ?_, ?_⟩
    · rw [reply_bureau]
      simp
    · exact (reply_bureau_eq _ _ _ _ _ BureauState.recovery fun _ _ _ _ _ _ => rfl).trans hr
  · exact congrArg Host.Outcome.next (recoveryCommand_of_recovery hr m (recoveryBoot_of_bad h))
  · obtain ⟨hrec, hboot, hactive, hsvn, hkey, hfuses, hreset, hdom, hslots, hgen⟩ := recovered_spec s svn slot
    have hbur {α : Type} (p : BureauState → α) (hp) := reply_bureau_eq (recovered s svn slot) m (BitVec.ofNat 8 Status.ok.code) [] none p hp
    obtain ⟨-, hs, -, -, -, -, hpair, -, hpower, -, hf, -⟩ := reply_frame (recovered s svn slot) m (BitVec.ofNat 8 Status.ok.code) [] none
    refine ⟨_, congrArg Host.Outcome.next (recoveryCommand_of_recovery (st := .ok) hr m (recoveryBoot_of_good h)),
      (hbur BureauState.recovery fun _ _ _ _ _ _ => rfl).trans hrec, (hbur BureauState.booting fun _ _ _ _ _ _ => rfl).trans hboot,
      (hbur BureauState.activeB fun _ _ _ _ _ _ => rfl).trans hactive, (hbur BureauState.runningSvn fun _ _ _ _ _ _ => rfl).trans hsvn,
      (hbur BureauState.keySlot fun _ _ _ _ _ _ => rfl).trans hkey, hf.trans hfuses, ?_, ?_, ?_, ?_⟩
    · rw [hpower, hreset]
    · rw [hpower, hdom]
    · rw [hs, hslots]
    · rw [hpair, hgen]

end Sys2Proof.Machine

/-! # Power, the release chain and the resets (O51) -/

namespace Sys2Proof.Machine

/-! ## What outlives a loss of power -/

/-- A module without power has nothing but its flash, its fuses and its secure flash. -/
def ColdFrom (s t : State) : Prop := t.store.slots = [] ∧ t.tier.lmem = [] ∧ t.host.requests = [] ∧ t.host.qps = [] ∧ t.gen.parts = []
  ∧ t.engines.merges = [] ∧ t.limits = {} ∧ t.flash.map = [] ∧ t.flash.ring = [] ∧ t.fabric.released = [] ∧ t.pair.link = .down
  ∧ t.pair.enable = false ∧ t.fuses = s.fuses ∧ t.pending = s.pending

theorem rolledBatches_pending (s : State) : (rolledBatches s).pending = s.pending :=
  State.foldl_pending (fun u i => by split <;> simp) _ s

theorem survivors_cold (s : State) : ColdFrom s (survivors s) :=
  ⟨rfl, rfl, rfl, rfl, rfl, rfl, rfl, rfl, rfl, rfl, rfl, rfl, (rolledBatches_boot s).2, rolledBatches_pending s⟩

theorem rolledBatches_of_none {s : State} (h : s.gen.indexes = []) : rolledBatches s = s := by
  unfold rolledBatches
  rw [h]
  rfl

/-- Without an index, what flash has of its journal and flush outlives the loss. -/
theorem survivors_flash {s : State} (h : s.gen.indexes = []) : (survivors s).flash = coldFlash s.flash :=
  congrArg (fun u : State => coldFlash u.flash) (rolledBatches_of_none h)

/-- The record areas outlive the loss. -/
theorem survivors_lastArea (s : State) : (survivors s).bureau.lastArea = s.bureau.lastArea :=
  (rolledBatches_boot s).bureau (fun b => (coldBureau b).lastArea) fun _ => rfl

/-- Power is off (`trip`: after a trip or emergency off). -/
def PoweredOff (s t : State) (trip : Bool) : Prop :=
  ColdFrom s t ∧ t.power.powerGood = false ∧ t.power.domains = [] ∧ t.power.tripped = trip ∧ t.power.lost = true

theorem powerOff_spec (s : State) (trip : Bool) : PoweredOff s (powerOff s trip) trip := ⟨survivors_cold s, rfl, rfl, rfl, rfl⟩

theorem PoweredOff.of_same {s u t : State} {trip : Bool} (h : PoweredOff u t trip) (hf : u.fuses = s.fuses) (hp : u.pending = s.pending) :
    PoweredOff s t trip := by
  unfold PoweredOff ColdFrom at h ⊢
  rwa [hf, hp] at h

/-- The converter runs, and the Bureau is released. -/
def PoweredOn (s t : State) (seed : BitVec 64) : Prop :=
  ColdFrom s t ∧ t.power.powerGood = true ∧ t.power.converter = true ∧ t.power.domains = [0, 5] ∧ t.power.armed = false
  ∧ t.power.resetting = some .powerOn ∧ t.power.bureauHeld = false ∧ t.pair.journalGen = seed

theorem powerOn_spec (s : State) (mv : Nat) (seed : BitVec 64) : PoweredOn s (powerOn s mv seed) seed :=
  ⟨survivors_cold s, rfl, rfl, rfl, rfl, rfl, rfl, rfl⟩

/-! ## The flush -/

section
variable {s : State} {ok : Bool} {us : Nat}

/-- The flush of Table 17.7 takes the ring into the journal; complete, it leaves its mark. -/
theorem powerFlush_of_idle (h : s.flash.programs = []) : (powerFlush s ok us).gen = s.gen
    ∧ (powerFlush s ok us).flash.journal = s.flash.journal ++ s.flash.ring ∧ (powerFlush s ok us).flash.flushMark.isSome = ok := by
  unfold powerFlush
  dsimp only
  rw [h]
  simp only [logEvent_frame]
  refine ⟨rfl, rfl, ?_⟩
  cases ok <;> rfl

end

/-! ## The release chain -/

section
variable {s : State} {r : ReleaseInfo} {n : Nat}

theorem mem_foldl_withLast {α : Type} [DecidableEq α] (x : α) (l m : List α) : x ∈ l.foldl (fun m a => withLast a m) m ↔ x ∈ m ∨ x ∈ l := by
  induction l generalizing m with
  | nil => simp
  | cons a l ih => rw [List.foldl_cons, ih, mem_withLast, List.mem_cons]; tauto

theorem mem_releaseDies (s : State) (n : Nat) (x : DieId) : x ∈ (releaseDies s n).fabric.released ↔ x ∈ s.fabric.released ∨ x ∈ chainDies n :=
  mem_foldl_withLast ..

theorem startChain_of_ready (hp : s.power.perstN = true) (hh : s.power.bureauHeld = false) (hb : s.bureau.booting = true) (hf : s.host.failed = false)
    (h0 : s.power.releaseStep = 0) (hr : s.power.resetting ≠ none) (ha : allPowered s = true) :
    startChain s = releaseDies { s with power := { s.power with releaseStep := 8 } } 8 :=
  if_pos (by simp [hp, hh, hb, hf, h0, ha, Option.isSome_iff_ne_none, hr])

theorem chainStep_of_waiting (h : chainEnds s s.power.releaseStep = false) : chainStep s r = s := if_pos (by rw [h]; rfl)

theorem chainStep_of_good (hn : s.power.releaseStep = n) (he : chainEnds s n = true) (hb : badIdentities r n = []) : chainStep s r =
    releaseDies (chainStart { chainEffect s r n with power := { (chainEffect s r n).power with releaseStep := chainNext n } } r (chainNext n)) (chainNext n) := by
  subst hn
  unfold chainStep
  rw [if_neg (by rw [he]; exact Bool.false_ne_true), hb]

/-- A die of the wrong identity keeps the data plane from starting. -/
theorem chainStep_of_bad (he : chainEnds s s.power.releaseStep = true) (hb : badIdentities r s.power.releaseStep ≠ []) :
    (chainStep s r).host.failed = true ∧ (chainStep s r).power.releaseStep = 0 ∧ (chainStep s r).fabric = s.fabric := by
  unfold chainStep
  rw [if_neg (by rw [he]; exact Bool.false_ne_true)]
  split
  · contradiction
  · exact ⟨rfl, rfl, State.foldl_fabric (fun _ _ => (logEvent_frame ..).1) _ s⟩

theorem readParameters_of_cold (h : s.power.resetting ≠ some .warm) : (readParameters s r).flash.failedChans =
    (failures r).foldl (fun l x => withLast x.1 l) s.flash.failedChans := by
  unfold readParameters
  rw [if_neg h]
  exact congrArg FlashState.failedChans (State.foldl_flash (fun _ _ => (logEvent_frame ..).2.2.2.2.2.2.2.1) _ _)

theorem mem_foldl_withLast_fst (c : Nat) (l : List (Nat × Nat × Nat)) (m : List Nat) :
    c ∈ l.foldl (fun l x => withLast x.1 l) m ↔ c ∈ m ∨ ∃ x ∈ l, x.1 = c := by
  have hmap : l.foldl (fun l x => withLast x.1 l) m = (l.map (·.1)).foldl (fun l x => withLast x l) m :=
    (List.foldl_map (f := fun x : Nat × Nat × Nat => x.1) (g := fun l x => withLast x l)).symm
  rw [hmap, mem_foldl_withLast, List.mem_map]

theorem mem_failures_of_refused {x : Nat × ParamPage} (hx : x ∈ r.params) (h : x.2.accepted = false) : (x.1 / 16, 0, x.1 % 16) ∈ failures r :=
  List.mem_append_right _ (List.mem_map.2 ⟨x, List.mem_filter.2 ⟨hx, by rw [h]; rfl⟩, rfl⟩)

end

/-! ## Domains, the input, HOST_PERST_N -/

section
variable {s : State}

theorem domainUp_of_all (h : allPowered s = true) : domainUp s = s := by
  have hnone : domainOrder.find? (fun d => decide (d ∉ s.power.domains)) = none := by
    refine List.find?_eq_none.2 fun d hd => ?_
    simpa using List.all_eq_true.1 h d hd
  unfold domainUp
  rw [hnone]
  exact ite_self _

/-- The domain `n` has power as well. -/
def powered (s : State) (n : Nat) : State := { s with power := { s.power with domains := s.power.domains ++ [n] } }

theorem domainUp_of_next {n : Nat} (hg : s.power.powerGood = true) (hh : s.power.bureauHeld = false) (hr : s.bureau.recovery = false)
    (hn : domainOrder.find? (fun d => decide (d ∉ s.power.domains)) = some n) : domainUp s =
      if allPowered (powered s n) then startChain (if (powered s n).bureau.booting then powered s n else stage0 (powered s n)) else powered s n := by
  unfold domainUp
  rw [if_neg (by simp [hg, hh, hr]), hn]
  rfl

/-- What stage 0 keeps, if an event, the choice of a bank and recovery keep it. -/
theorem stage0_keeps {α : Type} (p : State → α) (hlog : ∀ u e, p (logEvent u e) = p u) (hboot : ∀ u b, p (bootBank u b) = p u)
    (hrec : ∀ u, p (inRecovery u) = p u) (s : State) : p (stage0 s) = p s := by
  have henter (u : State) (c : Nat) : p (enterRecovery u c) = p u := by
    obtain ⟨e, he⟩ := enterRecovery_eq u c
    rw [he, hlog, hrec]
  unfold stage0
  dsimp only
  repeat' split
  · exact henter ..
  · exact hboot ..
  · rw [hboot, hlog, hlog]
  · rw [henter, hlog, hlog, hlog]

theorem perstDeassert_of_recovery (hp : s.power.perstN = false) (hr : s.bureau.recovery = true) : perstDeassert s =
    { s with power := { s.power with perstN := true }, fabric := { s.fabric with released := withLast 0x3C s.fabric.released } } := by
  unfold perstDeassert
  rw [if_neg (by rw [hp]; exact Bool.false_ne_true)]
  exact if_pos hr

theorem perstDeassert_of_running (hp : s.power.perstN = false) (hr : s.bureau.recovery = false) :
    perstDeassert s = startChain { s with power := { s.power with perstN := true } } := by
  unfold perstDeassert
  rw [if_neg (by rw [hp]; exact Bool.false_ne_true)]
  exact if_neg (by rw [hr]; exact Bool.false_ne_true)

theorem startChain_perstN (s : State) : (startChain s).power.perstN = s.power.perstN := by
  unfold startChain
  dsimp only
  split <;> rfl

end

/-! ## Losses, trips and restarts -/

section
variable {s : State} {mv us : Nat} {ok : Bool} {seed : BitVec 64}

/-- The state whose power fails: the flush, where the protection is armed, and the staged records are written. -/
def flushed (s : State) (mv : Nat) (ok : Bool) (us : Nat) : State :=
  if (noteInput s mv).power.armed then flushAll (noteInput s mv) ok us else flushEvents (noteInput s mv)

theorem flushed_frame (s : State) (mv : Nat) (ok : Bool) (us : Nat) : (flushed s mv ok us).fuses = s.fuses
    ∧ (flushed s mv ok us).pending = s.pending ∧ (flushed s mv ok us).power = { s.power with j1 := mv } := by
  unfold flushed
  split <;> simp [noteInput]

theorem powerLoss_spec (s : State) (mv : Nat) (ok : Bool) (us : Nat) (trip : Bool) : PoweredOff s (powerLoss s mv ok us trip) trip
    ∧ (powerLoss s mv ok us trip).power.j1 = mv ∧ (powerLoss s mv ok us trip).power.emergN = s.power.emergN := by
  obtain ⟨hf, hp, hpower⟩ := flushed_frame s mv ok us
  refine ⟨(powerOff_spec (flushed s mv ok us) trip).of_same hf hp, ?_, ?_⟩
  · exact (congrArg PowerState.j1 hpower :)
  · exact (congrArg PowerState.emergN hpower :)

/-- Unarmed, no flush is written. -/
theorem powerLoss_flash_of_unarmed (ha : s.power.armed = false) (hi : s.gen.indexes = []) (trip : Bool) :
    (powerLoss s mv ok us trip).flash.journal = s.flash.journal := by
  have hflush : flushed s mv ok us = flushEvents (noteInput s mv) := if_neg (by rw [show (noteInput s mv).power.armed = false from ha]; decide)
  have hflash := survivors_flash (s := flushEvents (noteInput s mv)) ((congrArg GenState.indexes (flushEvents_frame _).2.2.2.2.2.1).trans hi)
  rw [(flushEvents_frame _).2.2.2.2.2.2.2.2.1] at hflash
  rw [show powerLoss s mv ok us trip = powerOff (flushed s mv ok us) trip from rfl, hflush]
  exact (congrArg FlashState.journal hflash :)

/-- Armed, the journal takes the ring. -/
theorem powerLoss_flash_of_armed (ha : s.power.armed = true) (hi : s.gen.indexes = []) (hr : s.flash.rebuilding = false) (hp : s.flash.programs = [])
    (trip : Bool) : (powerLoss s mv ok us trip).flash.journal = s.flash.journal ++ s.flash.ring
      ∧ (powerLoss s mv ok us trip).flash.flushMark.isSome = ok := by
  obtain ⟨hgen, hjournal, hmark⟩ := powerFlush_of_idle (s := noteInput s mv) (ok := ok) (us := us) hp
  have hflush : flushed s mv ok us = flushEvents (powerFlush (noteInput s mv) ok us) := by
    unfold flushed
    rw [if_pos (show (noteInput s mv).power.armed = true from ha)]
    exact congrArg flushEvents (if_neg (by rw [show (noteInput s mv).flash.rebuilding = false from hr]; decide))
  have hflash := survivors_flash (s := flushEvents (powerFlush (noteInput s mv) ok us))
    ((congrArg GenState.indexes ((flushEvents_frame _).2.2.2.2.2.1.trans hgen)).trans hi)
  rw [(flushEvents_frame _).2.2.2.2.2.2.2.2.1] at hflash
  rw [show powerLoss s mv ok us trip = powerOff (flushed s mv ok us) trip from rfl, hflush]
  exact ⟨(congrArg FlashState.journal hflash :).trans hjournal, (congrArg (fun f => f.flushMark.isSome) hflash :).trans hmark⟩

theorem firmwareTrip_eq (s : State) (c : TripCause) (ok : Bool) (us : Nat) : ∃ u, firmwareTrip s c ok us = powerOff (flushAll u ok us) true
    ∧ u.fuses = s.fuses ∧ u.pending = s.pending ∧ u.power.flowOk = (s.power.flowOk && decide (c.params.1 ≠ 2)) := by
  refine ⟨_, rfl, ?_, ?_, ?_⟩
  · simp
  · simp
  · simp only [logEvent_frame]
    rfl

theorem firmwareTrip_spec (s : State) (c : TripCause) (ok : Bool) (us : Nat) : PoweredOff s (firmwareTrip s c ok us) true
    ∧ (c = .flow → (firmwareTrip s c ok us).power.flowOk = false) := by
  obtain ⟨u, htrip, hf, hp, hflow⟩ := firmwareTrip_eq s c ok us
  rw [htrip]
  refine ⟨(powerOff_spec _ true).of_same (by simp [hf]) (by simp [hp]), fun hc => ?_⟩
  have hpower : (flushAll u ok us).power.flowOk = u.power.flowOk := by simp
  exact (hpower.trans hflow).trans (by rw [hc]; exact Bool.and_false _)

theorem emergencyOff_spec (s : State) (mv : Nat) (ok : Bool) (us : Nat) :
    let t := powerLoss (logEvent { s with power := { s.power with emergN := false, converter := false } } (.emergencyOff mv)) mv ok us true
    PoweredOff s t true ∧ t.power.emergN = false ∧ t.power.j1 = mv := by
  obtain ⟨hoff, hj, he⟩ := powerLoss_spec (logEvent { s with power := { s.power with emergN := false, converter := false } } (.emergencyOff mv)) mv ok us true
  exact ⟨hoff.of_same (by simp) (by simp), he.trans (by simp), hj⟩

end

/-- Settles O51: power comes up domain by domain and the dies are released in order; excursions, losses, trips and resets do what chapter 19
says. -/
theorem powerReleaseAndResets : Obligations.PowerReleaseAndResets := by
  unfold Obligations.PowerReleaseAndResets
  intro s mv ms cap us ok emerg seed r cause d k P cold started off
  refine ⟨fun hg ht he hv => ?_, fun h => ?_, fun hg hh hr n hn => ⟨fun ha => ?_, fun ha hb hf hc hp hfail h0 hreset => ?_⟩,
    fun h => congrArg Host.Outcome.next (domainUp_of_all h), fun hg hh => congrArg Host.Outcome.next (if_pos (by simp [P] at hg hh; simp [hg, hh])),
    fun hg => congrArg Host.Outcome.next (if_neg (by simp [P] at hg; simp [hg])), fun h => congrArg Host.Outcome.next (chainStep_of_waiting h),
    fun h8 hb => ?_, fun h9 hb => ?_, fun he hb => ⟨_, rfl, chainStep_of_bad he hb⟩, ?_⟩
  · exact ⟨_, congrArg Host.Outcome.next (if_neg (by simp [P] at hg ht he; simp [hg, ht, he, hv])), powerOn_spec s mv seed⟩
  · refine congrArg Host.Outcome.next (if_pos ?_)
    simp only [P] at h
    rcases h with h | h | h <;> simp [h]
  · exact congrArg Host.Outcome.next ((domainUp_of_next hg hh hr hn).trans (if_neg (by rw [show allPowered (powered s n) = false from ha]; decide)))
  · have hup := (domainUp_of_next hg hh hr hn).trans (if_pos ha)
    have hbank : bankCause (powered s n) (powered s n).bureau.activeB = none := hc
    rw [if_neg (by rw [show (powered s n).bureau.booting = false from hb]; decide), stage0_of_good (s := powered s n) hf hbank,
      startChain_of_ready (s := bootBank (powered s n) (powered s n).bureau.activeB) hp hh rfl hfail h0 (fun h => by cases hreset.symm.trans h) ha] at hup
    exact ⟨_, congrArg Host.Outcome.next hup, rfl, rfl, (mem_releaseDies ..).2 (.inr (by decide)), rfl⟩
  · refine ⟨_, congrArg Host.Outcome.next (chainStep_of_good h8 rfl hb), rfl, rfl, fun x hx => (mem_releaseDies ..).2 (.inr ?_), rfl⟩
    revert x
    decide
  · exact ⟨_, congrArg Host.Outcome.next (chainStep_of_good h9 rfl hb), rfl, rfl, fun x hx => (mem_releaseDies ..).2 (.inr hx)⟩
  refine ⟨fun hg hl hh => ?_, fun h => ?_, fun hg hl hh => ?_, fun h => ?_, fun hg h => ?_, fun h => ?_, fun hg h => ?_, fun hl hc => ?_,
    fun hg => ⟨fun h => ?_, fun h => ?_⟩, fun hl ht => ?_, fun h => ?_, fun hg hc => ?_, fun hc => ?_, fun hg => ?_, fun hg => ?_, fun hg hv => ?_,
    fun hg hv => ?_, fun h => ?_, fun h => ?_, fun h => ?_, fun hh hg => ?_, fun h => ?_, fun h => ?_, fun h => ?_, fun h => ?_,
    fun hg hr hon hperst => ?_, fun h11 hw hm hb => ?_⟩
  · exact congrArg Host.Outcome.next (if_pos (by simp [P] at hg; simp [hg, hl, hh]))
  · exact congrArg Host.Outcome.next (if_neg (by simp; omega))
  · exact congrArg Host.Outcome.next (if_pos (by simp [P] at hg; simp [hg, hl, hh]))
  · exact congrArg Host.Outcome.next (if_neg (by simp; omega))
  · exact congrArg Host.Outcome.next (if_pos (by simp [P] at hg; simp [hg, h]))
  · exact congrArg Host.Outcome.next (if_neg (by simp; omega))
  · obtain ⟨hoff, hj, -⟩ := powerLoss_spec s mv ok us false
    refine ⟨_, congrArg Host.Outcome.next (if_pos ?_), hoff, hj, fun ha hi => powerLoss_flash_of_unarmed ha hi false,
      fun ha hi hr hp => powerLoss_flash_of_armed ha hi hr hp false⟩
    simp only [P] at hg h
    rcases h with h | h <;> simp [hg, h]
  · exact congrArg Host.Outcome.next (if_neg (by simp [P] at hc; simp [hc]; omega))
  · exact congrArg Host.Outcome.next ((if_pos hg).trans (if_neg (by omega)))
  · exact congrArg Host.Outcome.next ((if_pos hg).trans (if_pos h))
  · exact ⟨_, congrArg Host.Outcome.next (if_pos (by simp [P] at hl ht; simp [hl, ht])), powerOn_spec s _ seed, rfl⟩
  · refine congrArg Host.Outcome.next (if_neg ?_)
    simp only [P] at h
    rcases h with h | h <;> simp [h]
  · exact ⟨_, congrArg Host.Outcome.next (if_pos (by simp [P] at hg; simp [hg, hc])), firmwareTrip_spec s cause ok us⟩
  · exact congrArg Host.Outcome.next (if_neg (by simp [hc]))
  · refine ⟨_, congrArg Host.Outcome.next (if_pos hg), powerOff_spec _ true, survivors_lastArea _, fun hi => ?_⟩
    have hflash := survivors_flash (s := { s with
      bureau := { s.bureau with junction := mput 0 s.bureau.junction d.toNat 1250 }, flash := { s.flash with flushMark := none } }) hi
    exact ⟨(congrArg FlashState.journal hflash :), (congrArg FlashState.flushMark hflash :)⟩
  · exact ⟨_, congrArg Host.Outcome.next (if_pos hg), emergencyOff_spec s mv ok us⟩
  · exact ⟨_, congrArg Host.Outcome.next (if_neg (by simp [P] at hg; simp [hg, hv])), powerOn_spec _ _ _, rfl, rfl⟩
  · exact congrArg Host.Outcome.next (if_neg (by simp [P] at hg; simp [hg, hv]))
  · exact congrArg Host.Outcome.next (if_pos (by simp [h]))
  · exact ⟨_, congrArg Host.Outcome.next (if_pos h), survivors_cold s, rfl, rfl, rfl, rfl, rfl, rfl⟩
  · exact congrArg Host.Outcome.next (if_neg (by simp [P] at h; simp [h]))
  · exact congrArg Host.Outcome.next (if_pos (by simp [P] at hh hg; simp [hh, hg]))
  · exact congrArg Host.Outcome.next (if_neg (by simp [P] at h; simp [h]))
  · by_cases hr : s.bureau.recovery = true
    · have hup := perstDeassert_of_recovery h hr
      exact ⟨_, congrArg Host.Outcome.next hup, rfl, rfl, fun _ => rfl, fun hr' => by cases hr.symm.trans hr'⟩
    · have hup := perstDeassert_of_running h (Bool.not_eq_true _ ▸ hr)
      refine ⟨_, congrArg Host.Outcome.next hup, startChain_perstN _, (startChain_frame _).1, fun hr' => absurd hr' hr, fun _ hb hh hf h0 hreset ha => ?_⟩
      rw [startChain_of_ready (s := { s with power := { s.power with perstN := true } }) rfl hh hb hf h0 hreset ha]
      exact ⟨rfl, (mem_releaseDies ..).2 (.inr (by decide)), (mem_releaseDies ..).2 (.inr (by decide))⟩
  · exact congrArg Host.Outcome.next (if_pos h)
  · refine congrArg Host.Outcome.next (if_pos ?_)
    simp only [P] at h
    rcases h with h | h | h | h <;> simp [h]
  · have hreset : exec (.warmReset k) s = .next (warmReset s k.toNat) :=
      congrArg Host.Outcome.next (if_neg (by simp [P] at hg hon hperst; simp [hg, hr, hon, hperst]))
    obtain ⟨w, hw, hentry⟩ := warmReset_entry s k.toNat
    rw [hw] at hreset
    refine ⟨_, hreset, ?_, ?_, ?_, ?_, ?_, ?_, ?_, ?_, stage0_link hentry.link, fun hf hb => ?_⟩
    · rw [(stage0_frame w).2.1, hentry.slots]
    · rw [(stage0_frame w).2.2.2.2.2.2.2.1, hentry.limits]
    · exact (stage0_keeps (fun u => u.bureau.sources) (fun u e => (congrArg BureauState.sources (logEvent_outsideRecorder u e) :)) (fun _ _ => rfl)
        (fun _ => rfl) w).trans hentry.sources
    · exact (stage0_keeps (fun u => u.bureau.secureXor) logEvent_secureXor (fun _ _ => rfl) (fun _ => rfl) w).trans hentry.secureXor
    · exact (stage0_keeps (fun u => u.host.bootOk) (fun u e => by rw [logEvent_host]) (fun _ _ => rfl) (fun _ => rfl) w).trans hentry.bootOk
    · exact (stage0_keeps (fun u => u.host.fetchStopped) (fun u e => by rw [logEvent_host]) (fun _ _ => rfl) (fun _ => rfl) w).trans hentry.fetchStopped
    · rw [(stage0_frame w).2.2.2.2.2.2.2.2.1, hentry.fuses]
    · exact (stage0_keeps (fun u => u.power.warmCause) (fun u e => by simp) (fun _ _ => rfl) (fun _ => rfl) w).trans hentry.warmCause
    · have hgood : bankCause w w.bureau.activeB = none := by
        rw [hentry.activeB, bankCause_congr hentry.banks hentry.fuses]
        exact hb
      rw [stage0_of_good (by rw [hentry.bootFails]; exact hf) hgood]
      exact ⟨rfl, hentry.resetting, hentry.releaseStep, hentry.released⟩
  · have hstep := chainStep_of_good h11 (by simp only [chainEnds]; simp [P] at hm; simp [hm]) hb
    have hfailed := readParameters_of_cold (s := { s with power := { s.power with releaseStep := 14 } }) (r := r) hw
    have hmem (c : Nat) : c ∈ (chainStep s r).flash.failedChans ↔ c ∈ s.flash.failedChans ∨ ∃ x ∈ failures r, x.1 = c := by
      rw [hstep]
      exact (congrArg (c ∈ ·) hfailed).to_iff.trans (mem_foldl_withLast_fst ..)
    refine ⟨_, rfl, ?_, fun x hx hacc => (hmem _).2 (.inr ⟨_, mem_failures_of_refused hx hacc, rfl⟩), fun c => (hmem c).1, ?_⟩
    · rw [hstep]
      exact (congrArg PowerState.releaseStep (readParameters_frame ..).2.2.2.2.2.2.2.1 :)
    · rw [hstep]
      exact (readParameters_frame ..).2.1

end Sys2Proof.Machine

/-! # Registers (O52) -/

namespace Sys2Proof.Machine

/-! ## A queue pair that cannot be enabled though 4,095 lines are pinned

The directory of queue pairs need not be in order. Where it is not, a write of CTRL puts a copy of the pair in front of the old one, and a line
that the pair already has pinned is counted twice. -/

/-- A pair set up to be enabled, its line pinned already. -/
def setUpPair : QueuePair := { sqBase := 4096, cqBase := 4096, sqLog2 := 6, cqLog2 := 6, pinned := true }

/-- `n` lines pinned before pair 0's own. -/
def crowdedPairs (n : Nat) : Map QueuePair := List.replicate n (1, { pinned := true }) ++ [(0, setUpPair)]

/-- BAR0 answers and the data plane is ready; the directory of queue pairs is `m`. -/
def hostWith (m : Map QueuePair) : State := { State.reset with
  power := { State.reset.power with configReady := true }
  host := { State.reset.host with bootOk := true, cacheEn := true, qps := m } }

/-- The line that the host has set up. -/
def emptyLine : DoorbellLine := { sqTail := 0, cqHead := 0, reserved := false, translates := true }

section
variable {n : Nat} {f : QueuePair → QueuePair} {p p' : QueuePair}

theorem mfind_crowdedPairs (n : Nat) : mfind (crowdedPairs n) 0 = some setUpPair := by
  unfold crowdedPairs
  induction n with
  | zero => rfl
  | succ n ih => exact ih

theorem qpOf_crowded (n : Nat) : qpOf (hostWith (crowdedPairs n)) 0 0 = setUpPair := congrArg (·.getD {}) (mfind_crowdedPairs n)

theorem doorbellLines_crowded (n : Nat) : doorbellLines (hostWith (crowdedPairs n)) = n + 1 := by
  show ((crowdedPairs n).filter fun x => x.2.pinned).length = n + 1
  simp [crowdedPairs, setUpPair, List.filter_replicate]

/-- The copy of pair 0 in front counts as a line of its own. -/
theorem doorbellLines_crowdedTwice (h : p.pinned = true) : doorbellLines (hostWith ((0, p) :: crowdedPairs n)) = n + 2 := by
  show (((0, p) :: crowdedPairs n).filter fun x => x.2.pinned).length = n + 2
  rw [List.filter_cons_of_pos (p := fun x : Nat × QueuePair => x.2.pinned) h, List.length_cons]
  exact congrArg (· + 1) (doorbellLines_crowded n)

/-- The first write puts the copy in front. -/
theorem setQp_crowded (hp : f setUpPair = p) (hd : p ≠ {}) :
    setQp (hostWith (crowdedPairs (n + 1))) 0 0 f = hostWith ((0, p) :: crowdedPairs (n + 1)) := by
  refine congrArg hostWith ?_
  unfold mmod mput
  rw [show mget {} _ (qpKey 0 0) = setUpPair from qpOf_crowded (n + 1), hp, if_neg hd]
  rfl

theorem setQp_crowdedTwice (hp : f p = p') (hd : p' ≠ {}) :
    setQp (hostWith ((0, p) :: crowdedPairs n)) 0 0 f = hostWith ((0, p') :: crowdedPairs n) := by
  refine congrArg hostWith ?_
  unfold mmod mput
  rw [show mget {} (hostWith ((0, p) :: crowdedPairs n)).host.qps (qpKey 0 0) = p from rfl, hp, if_neg hd]
  rfl

end

theorem writeCtrl_of_disabled {s : State} {fn : Tenant} {q : BitVec 3} {v : Word} {line : Option (DoorbellLine × List Descriptor)}
    (hd : (qpOf s fn q).state = .disabled) (hv : bit v.toNat 31 = true) : writeCtrl s fn q v line =
      enablePair (setQp (setQp s fn q fun p => { p with pasidEn := bit v.toNat 30, pasid := BitVec.ofNat 20 (bits v.toNat 23 4) }) fn q
        fun p => { p with vector := BitVec.ofNat 4 v.toNat }) fn q line := by
  unfold writeCtrl
  simp only [hd, hv]
  rfl

/-- CTRL is written with ENABLE 1 while 4,095 lines are pinned, and the pair stays DISABLED (error 0x08). -/
theorem writeCtrl_crowded : writeCtrl (hostWith (crowdedPairs (4093 + 1))) 0 0 (0 ||| 0x80000000) (some (emptyLine, [])) =
    hostWith ((0, { setUpPair with errCode := 0x08 }) :: crowdedPairs (4093 + 1)) := by
  have herror : enableError (hostWith ((0, setUpPair) :: crowdedPairs (4093 + 1))) setUpPair = some 0x08 := by
    unfold enableError
    rw [doorbellLines_crowdedTwice rfl]
    rfl
  rw [writeCtrl_of_disabled (by rw [qpOf_crowded]; rfl) (by decide), setQp_crowded (p := setUpPair) (by decide) (by decide),
    setQp_crowdedTwice (p' := setUpPair) (by decide) (by decide)]
  unfold enablePair
  rw [show qpOf (hostWith ((0, setUpPair) :: crowdedPairs (4093 + 1))) 0 0 = setUpPair from rfl, herror]
  exact setQp_crowdedTwice rfl (by decide)

/-- Refutes O52: a pair set up, its line pinned already, is enabled while fewer than 4,096 lines are pinned, and yet it stays DISABLED, since the
write of CTRL counts its line twice. -/
theorem not_registersTakeWritesAndAnswerReads : ¬ Obligations.RegistersTakeWritesAndAnswerReads := by
  unfold Obligations.RegistersTakeWritesAndAnswerReads
  intro h
  obtain ⟨-, hready, -⟩ := h (hostWith (crowdedPairs (4093 + 1))) 0 0 0 0 0 0 0 0 emptyLine 0
  obtain ⟨-, -, -, -, henable, -⟩ := hready ⟨rfl, rfl⟩
  have hp := qpOf_crowded (4093 + 1)
  obtain ⟨-, hok⟩ := henable (by rw [hp]; rfl)
  obtain ⟨t, ht, hon, -⟩ := hok rfl rfl (by rw [hp]; decide) (by rw [doorbellLines_crowded]; decide) rfl rfl rfl (by rw [hp]; decide)
  have hout : exec (.qpEnable 0 0 0 emptyLine []) (hostWith (crowdedPairs (4093 + 1))) =
      .next (hostWith ((0, { setUpPair with errCode := 0x08 }) :: crowdedPairs (4093 + 1))) :=
    congrArg Host.Outcome.next ((if_pos rfl).trans writeCtrl_crowded)
  cases Host.Outcome.next.inj (hout.symm.trans ht)
  exact absurd hon (by decide)

end Sys2Proof.Machine

/-! # The identification that a partner of the same position sends (R369)

The event of an unequal identification names the position that the partner sent, not whether the two are equal. -/

namespace Sys2Proof.Machine

variable {s : State} {e : Ev}

/-- The record that an event makes. -/
def recordOf (s : State) (e : Ev) (summary : Bool) : EventRec :=
  { code := e.code, source := e.src, world := e.world, severity := e.sev, summary := summary, time := s.bureau.recTime,
    seq := s.bureau.evSeq, params := e.p }

theorem staged_storeRecord (s : State) (e : Ev) (summary : Bool) :
    (storeRecord s e summary).bureau.staged = recordOf s e summary :: s.bureau.staged := by
  unfold storeRecord
  simp [recordOf]

/-- An event below FATAL makes a record with its parameters, or is counted in the bucket of its code. -/
theorem logEvent_records (hsev : e.sev ≠ 3) :
    (∃ r l, (logEvent s e).bureau.staged = r :: l ∧ r.params = e.p) ∨ 0 < (mget {} (logEvent s e).bureau.buckets e.code.toNat).suppressed := by
  unfold logEvent
  rw [if_neg hsev]
  dsimp only
  split
  · exact .inl ⟨_, _, staged_storeRecord .., rfl⟩
  · right
    simp [mget_mput]

/-- A module whose link trains, its own position the first. -/
def trainingModule : State := { pair := { link := .training } }

/-- The partner's identification names the first position too. -/
theorem ident_trainingModule : ident trainingModule {} =
    logEvent (setPair trainingModule fun p => { p.quietLink with link := .down, triedAt := now trainingModule }) (.pairIdentMismatch 0 0 0) := rfl

/-- The two positions are equal, and the event names a position of 0. -/
theorem staged_ident_trainingModule : ((ident trainingModule {}).bureau.staged.map (·.params)) = [[0, 0, 0]] := by
  rw [ident_trainingModule]
  rfl

theorem suppressed_ident_trainingModule : (mget {} (ident trainingModule {}).bureau.buckets 0x1008).suppressed = 0 := by
  rw [ident_trainingModule]
  rfl

/-- Refutes O44: the identification of a partner of the same position, the first, is logged with that position, 0, where the statement asks for
1, that the positions are equal. -/
theorem not_partnerMessagesAreApplied : ¬ Obligations.PartnerMessagesAreApplied := by
  unfold Obligations.PartnerMessagesAreApplied
  intro h
  obtain ⟨htrain, -⟩ := h trainingModule {} .none {} [] [] 0 0 0
  obtain ⟨hmismatch, -⟩ := htrain rfl
  obtain ⟨t, ht, -, -, u, hu⟩ := hmismatch (.inl rfl)
  have hout : t = ident trainingModule {} := (Host.Outcome.next.inj ht).symm
  have hlog : logEvent u (.pairIdentMismatch 1 0 0) = ident trainingModule {} := hu.symm.trans hout
  rcases logEvent_records (s := u) (e := .pairIdentMismatch 1 0 0) (by decide) with ⟨r, l, hstaged, hparams⟩ | hcounted
  · rw [hlog] at hstaged
    have hmap := staged_ident_trainingModule
    rw [hstaged, List.map_cons, hparams] at hmap
    exact absurd (List.cons.inj hmap).1 (by decide)
  · rw [hlog] at hcounted
    exact absurd suppressed_ident_trainingModule hcounted.ne'

end Sys2Proof.Machine

/-! # Pages, map and blocks of the flash (R391 to R407)

Page programs leave the map, the pages of every block, and what is retired as they are: they add programs, and writes that wait for a group. -/

namespace Sys2Proof.Machine

variable {s t v : State} {c d b g u i : Nat} {p : PageProgram → Prop} {α : Type}

/-! ## Blocks -/

theorem fblkOf_congr (h : t.flash.blocks = s.flash.blocks) (c d b : Nat) : fblkOf t c d b = fblkOf s c d b := by
  unfold fblkOf
  rw [h]

theorem fblkOf_setFblk_same (s : State) (c d b : Nat) (f : FlashBlock → FlashBlock) : fblkOf (setFblk s c d b f) c d b = f (fblkOf s c d b) := by
  unfold fblkOf setFblk
  simp

/-- What a change of one block leaves in each block, every block keeps. -/
theorem fblkOf_setFblk_keeps {f : FlashBlock → FlashBlock} (P : FlashBlock → α) (h : P (f (fblkOf s c d b)) = P (fblkOf s c d b)) (c' d' b' : Nat) :
    P (fblkOf (setFblk s c d b f) c' d' b') = P (fblkOf s c' d' b') := by
  unfold fblkOf setFblk at *
  simp only [mget_mmod]
  split
  · rename_i hk
    rw [h, hk]
  · rfl

theorem mapOf_congr (h : t.flash.map = s.flash.map) (u : Nat) : mapOf t u = mapOf s u := by
  unfold mapOf
  rw [h]

theorem ppb_congr (h : t.flash.params = s.flash.params) (c d : Nat) : ppb t c d = ppb s c d := by
  unfold ppb
  rw [h]

theorem entryPos_congr (h : t.flash.params = s.flash.params) (u : Nat) (e : BitVec 32) : entryPos t u e = entryPos s u e := by
  unfold entryPos
  simp only [ppb_congr h]

theorem validPages_congr (hmap : t.flash.map = s.flash.map) (hparams : t.flash.params = s.flash.params)
    (hpages : (fblkOf t c d b).pages = (fblkOf s c d b).pages) : validPages t c d b = validPages s c d b := by
  unfold validPages
  simp only [mapOf_congr hmap, entryPos_congr hparams, hpages]

/-! ## What page programs leave -/

/-- A block but for where its next page goes and whose group it is. -/
def FlashBlock.lasting (b : FlashBlock) : FlashBlock := { b with wp := 0, group := none }

/-- The flash but for the programs, the writes that wait, the groups, and the blocks' own state. -/
def FlashState.lasting (f : FlashState) : FlashState := { f with blocks := [], seq := [], groups := [], groupNext := 0, programs := [], stalled := [] }

/-- From s to t pages are programmed, each as p says, and nothing else becomes of the flash. -/
structure Issues (p : PageProgram → Prop) (s t : State) : Prop where
  rest : t.flash.lasting = s.flash.lasting
  blocks : ∀ c d b, (fblkOf t c d b).lasting = (fblkOf s c d b).lasting
  programs : ∃ l, t.flash.programs = s.flash.programs ++ l ∧ ∀ y ∈ l, p y
  stalled : ∃ l, t.flash.stalled = s.flash.stalled ++ l

namespace Issues

theorem of_kept (hrest : t.flash.lasting = s.flash.lasting) (hblocks : ∀ c d b, (fblkOf t c d b).lasting = (fblkOf s c d b).lasting)
    (hprograms : t.flash.programs = s.flash.programs) (hstalled : t.flash.stalled = s.flash.stalled) : Issues p s t :=
  ⟨hrest, hblocks, ⟨[], by simp [hprograms]⟩, [], by simp [hstalled]⟩

theorem refl (s : State) : Issues p s s := of_kept rfl (fun _ _ _ => rfl) rfl rfl

theorem trans (h : Issues p s t) (h' : Issues p t v) : Issues p s v := by
  obtain ⟨l, hl, hp⟩ := h.programs
  obtain ⟨l', hl', hp'⟩ := h'.programs
  obtain ⟨m, hm⟩ := h.stalled
  obtain ⟨m', hm'⟩ := h'.stalled
  exact ⟨h'.rest.trans h.rest, fun c d b => (h'.blocks c d b).trans (h.blocks c d b),
    ⟨l ++ l', by rw [hl', hl, List.append_assoc], fun y hy => (List.mem_append.mp hy).elim (hp y) (hp' y)⟩,
    ⟨m ++ m', by rw [hm', hm, List.append_assoc]⟩⟩

theorem foldl {β : Type} {f : State → β → State} {l : List β} (h : ∀ s, ∀ a ∈ l, Issues p s (f s a)) (s : State) : Issues p s (l.foldl f s) := by
  induction l generalizing s with
  | nil => exact refl s
  | cons a l ih => exact (h s a (.head _)).trans (ih (fun s a ha => h s a (.tail _ ha)) _)

theorem map (h : Issues p s t) : t.flash.map = s.flash.map := (congrArg FlashState.map h.rest :)
theorem params (h : Issues p s t) : t.flash.params = s.flash.params := (congrArg FlashState.params h.rest :)
theorem retiredCount (h : Issues p s t) : t.flash.retiredCount = s.flash.retiredCount := (congrArg FlashState.retiredCount h.rest :)
theorem movedAt (h : Issues p s t) : t.flash.movedAt = s.flash.movedAt := (congrArg FlashState.movedAt h.rest :)
theorem pages (h : Issues p s t) (c d b : Nat) : (fblkOf t c d b).pages = (fblkOf s c d b).pages := (congrArg FlashBlock.pages (h.blocks c d b) :)
theorem retired (h : Issues p s t) (c d b : Nat) : (fblkOf t c d b).retired = (fblkOf s c d b).retired := (congrArg FlashBlock.retired (h.blocks c d b) :)
theorem rewriteBy (h : Issues p s t) (c d b : Nat) : (fblkOf t c d b).rewriteBy = (fblkOf s c d b).rewriteBy :=
  (congrArg FlashBlock.rewriteBy (h.blocks c d b) :)

end Issues

theorem setFblk_issues {f : FlashBlock → FlashBlock} (h : ∀ x, (f x).lasting = x.lasting) (s : State) (c d b : Nat) : Issues p s (setFblk s c d b f) :=
  .of_kept rfl (fblkOf_setFblk_keeps FlashBlock.lasting (h _)) rfl rfl

/-- A page that is programmed is the page given, but for its SEQ and its group. -/
def programOf (pg : NandPage) (w : ProgWaiter) (y : PageProgram) : Prop :=
  y.page.payload = pg.payload ∧ y.page.hdr = pg.hdr ∧ y.page.unit = pg.unit ∧ y.waiter = w

/-- A page is programmed where the group has room on the channel. -/
theorem issueProgram_takes {gr : ParityGroup} {chan : Nat} (hg : mfind s.flash.groups g = some gr) (hm : (groupMember s gr chan).isSome = true)
    (pg : NandPage) (w : ProgWaiter) : ∃ y, (issueProgram s g chan pg w).flash.programs = s.flash.programs ++ [y] ∧ programOf pg w y := by
  obtain ⟨⟨c, d, b⟩, hm⟩ := Option.isSome_iff_exists.mp hm
  unfold issueProgram
  simp only [hg, hm]
  exact ⟨_, rfl, rfl, rfl, rfl, rfl⟩

theorem issueProgram_issues (s : State) (g chan : Nat) (pg : NandPage) (w : ProgWaiter) : Issues (programOf pg w) s (issueProgram s g chan pg w) := by
  unfold issueProgram
  split
  · exact .refl s
  · split
    · exact .refl s
    · rename_i c d b _
      have hseq : Issues (programOf pg w) s (takeSeq s chan).2 := .of_kept rfl (fun _ _ _ => rfl) rfl rfl
      have hwp := setFblk_issues (p := programOf pg w) (f := fun x => { x with wp := x.wp + 1 }) (fun _ => rfl) (takeSeq s chan).2 c d b
      refine (hseq.trans hwp).trans ⟨rfl, fun _ _ _ => rfl, ⟨_, rfl, ?_⟩, [], (List.append_nil _).symm⟩
      rintro y hy
      cases List.mem_singleton.mp hy
      exact ⟨rfl, rfl, rfl, rfl⟩

theorem flash_pickMembers {col : Nat} {pref : Option (Nat × Nat × Nat)} {ms : List (Nat × Nat × Nat)} (h : pickMembers s col pref c = some (ms, t)) :
    t.flash = s.flash := by
  have hframe := pickMembers_frame s col pref c (ms, t) h
  simp only at hframe
  simp [hframe]

theorem foldl_group (ms : List (Nat × Nat × Nat)) (g : Nat) (s : State) :
    (ms.foldl (fun s m => setFblk s m.1 m.2.1 m.2.2 fun b => { b with group := some g }) s).flash.groups = s.flash.groups := by
  induction ms generalizing s with
  | nil => rfl
  | cons m ms ih => exact ih _

theorem openGroup_issues {col : Nat} {reloc : Bool} {pref : Option (Nat × Nat × Nat)} (h : openGroup s col reloc pref = some (g, t)) : Issues p s t := by
  unfold openGroup at h
  split at h
  · cases h
  · split at h
    · cases h
    · rename_i ms u hpick
      cases h
      have hflash := flash_pickMembers hpick
      refine Issues.trans (t := u) (.of_kept (by rw [hflash]) (fun c d b => congrArg FlashBlock.lasting (fblkOf_congr (congrArg _ hflash) c d b)) (by rw [hflash]) (by rw [hflash])) ?_
      refine Issues.trans (t := { u with flash := { u.flash with
        groupNext := u.flash.groupNext + 1, groups := mins u.flash.groups u.flash.groupNext { col := col, reloc := reloc, members := ms } } })
        (.of_kept rfl (fun _ _ _ => rfl) rfl rfl) (.foldl (fun s m _ => setFblk_issues (f := fun b => { b with group := some u.flash.groupNext }) (fun _ => rfl) s m.1 m.2.1 m.2.2) _)

theorem programUnit_issues (s : State) (u : Nat) (pg : NandPage) (reloc : Bool) (w : ProgWaiter) :
    Issues (programOf pg w) s (programUnit s u pg reloc w) := by
  unfold programUnit
  split
  · exact issueProgram_issues ..
  · split
    · rename_i g t h
      exact (openGroup_issues h).trans (issueProgram_issues ..)
    · exact ⟨rfl, fun _ _ _ => rfl, ⟨[], by simp, by simp⟩, _, rfl⟩

/-- The copy of a valid page of a block. -/
def copyOf (valid : List (Nat × NandPage)) (c d b : Nat) (y : PageProgram) : Prop :=
  ∃ p ∈ valid, y.page.payload = p.2.payload ∧ y.page.hdr = p.2.hdr ∧ y.page.unit = p.2.unit
    ∧ y.waiter = .moved { chan := c, die := d, block := b, page := p.1 }

theorem Issues.mono {q : PageProgram → Prop} (h : Issues p s t) (hpq : ∀ y, p y → q y) : Issues q s t := by
  obtain ⟨l, hl, hp⟩ := h.programs
  exact ⟨h.rest, h.blocks, ⟨l, hl, fun y hy => hpq y (hp y hy)⟩, h.stalled⟩

theorem relocateBlock_issues (s : State) (c d b : Nat) : Issues (copyOf (validPages s c d b) c d b) s (relocateBlock s c d b) :=
  .foldl (fun s x hx => (programUnit_issues s x.2.unit { x.2 with dead := false } true (.moved { chan := c, die := d, block := b, page := x.1 })).mono
    fun y ⟨hpayload, hhdr, hunit, hw⟩ => ⟨x, hx, hpayload, hhdr, hunit, hw⟩) s

end Sys2Proof.Machine

/-! # The commands of the flash (R391 to R407) -/

namespace Sys2Proof.Machine

variable {s t v : State} {c d b g u i ms : Nat} {p : PageProgram → Prop} {α : Type} {pg : NandPage} {x : PageProgram} {pos : PagePos}

/-! ## Health -/

/-- The flash but for the warnings raised and the channels that take no write. -/
def FlashState.outsideHealth (f : FlashState) : FlashState := { f with raised := [], readonly := [] }

theorem raiseOnce_flash (s : State) (k : Nat) (cond : Bool) (e : Ev) :
    (raiseOnce s k cond e).flash.outsideHealth = s.flash.outsideHealth := by
  unfold raiseOnce
  split
  · split
    · rfl
    · simp [FlashState.outsideHealth]
  · rfl

theorem checkHealth_flash (s : State) (c : Nat) : (checkHealth s c).flash.outsideHealth = s.flash.outsideHealth := by
  unfold checkHealth
  extract_lets pm s₁ s₂ src s₃ w s₄ last
  have hreadonly : s₃.flash.outsideHealth = s₂.flash.outsideHealth := by
    simp only [s₃]
    split
    · simp [FlashState.outsideHealth, src]
    · rfl
  exact ((raiseOnce_flash ..).trans (raiseOnce_flash ..)).trans (hreadonly.trans ((raiseOnce_flash ..).trans (raiseOnce_flash ..)))

/-! ## Programs (R394, R395, R397, R402) -/

/-- The flash after the relocation and the records of a block's retirement. -/
theorem retireBlock_relocates (s : State) (c d b cause : Nat) : ∃ v, Issues (fun _ => True) (setFblk s c d b fun x => { x with retired := true, erasing := none }) v
    ∧ (validPages s c d b = [] → v = setFblk s c d b fun x => { x with retired := true, erasing := none })
    ∧ (retireBlock s c d b cause).flash.outsideHealth = FlashState.outsideHealth { v.flash with
      ring := v.flash.ring ++ [{ unit := fblkKey c d b, entry := 0, seq := seqOf v (c / 8), type := 3 }]
      retiredCount := mcount v.flash.retiredCount c 1 } := by
  refine ⟨relocateBlock (setFblk s c d b fun x => { x with retired := true, erasing := none }) c d b, (relocateBlock_issues ..).mono fun _ _ => trivial, fun hnone => ?_, ?_⟩
  · unfold relocateBlock
    rw [validPages_congr (t := setFblk s c d b fun x => { x with retired := true, erasing := none }) (s := s) rfl rfl
      (by rw [fblkOf_setFblk_same]), hnone]
    rfl
  · unfold retireBlock
    refine (checkHealth_flash ..).trans ?_
    simp [appendRecord]

theorem retireBlock_retires (s : State) (c d b cause : Nat) : (fblkOf (retireBlock s c d b cause) c d b).retired = true
    ∧ mget 0 (retireBlock s c d b cause).flash.retiredCount c = mget 0 s.flash.retiredCount c + 1
    ∧ (retireBlock s c d b cause).flash.map = s.flash.map := by
  obtain ⟨v, hissues, -, hflash⟩ := retireBlock_relocates s c d b cause
  refine ⟨?_, ?_, (congrArg FlashState.map hflash :).trans hissues.map⟩
  · rw [fblkOf_congr (congrArg FlashState.blocks hflash :), hissues.retired, fblkOf_setFblk_same]
  · have hcount : (retireBlock s c d b cause).flash.retiredCount = mcount v.flash.retiredCount c 1 := (congrArg FlashState.retiredCount hflash :)
    rw [hcount, show mget 0 (mcount v.flash.retiredCount c 1) c = mget 0 v.flash.retiredCount c + 1 by simp [mcount],
      hissues.retiredCount]
    rfl

/-- A free member of a new group still has room, for each channel below n. -/
theorem pickMembers_rooms {col n : Nat} {l : List (Nat × Nat × Nat)} (h : pickMembers s col none n = some (l, t)) {chan : Nat} (hc : chan < n) :
    ∃ m ∈ l, m.1 = chan ∧ (fblkOf s m.1 m.2.1 m.2.2).wp < ppb s m.1 m.2.1 := by
  induction n generalizing l t with
  | zero => exact absurd hc (Nat.not_lt_zero _)
  | succ n ih =>
    simp only [pickMembers, pickMembers.pickOne] at h
    split at h
    · cases h
    · rename_i l' s' hprev
      have hflash := flash_pickMembers hprev
      split at h
      · cases h
      · rename_i m hm
        cases h
        by_cases hlast : chan < n
        · obtain ⟨m', hm', hrest⟩ := ih hprev hlast
          exact ⟨m', List.mem_append_left _ hm', hrest⟩
        · refine ⟨m, by simp, ?_⟩
          have hmem := List.mem_of_getElem? hm
          have hfree : ∀ die, m ∈ (freeBlocks s' n die).map (fun b => (n, die, b)) →
              m.1 = n ∧ (fblkOf s m.1 m.2.1 m.2.2).wp < ppb s m.1 m.2.1 := by
            intro die hmap
            obtain ⟨b, hb, rfl⟩ := List.mem_map.mp hmap
            obtain ⟨hrange, hblock⟩ := List.mem_filter.mp hb
            have hwp : (fblkOf s' n die b).wp = 0 := by
              unfold isFree at hblock
              simp only [Bool.and_eq_true, decide_eq_true_eq] at hblock
              exact hblock.1.1.1
            have hppb : 0 < ppb s' n die := by
              rw [Nat.pos_iff_ne_zero]
              intro hzero
              rw [List.mem_range, dieBlocks, if_pos hzero] at hrange
              exact absurd hrange (Nat.not_lt_zero _)
            exact ⟨rfl, by rw [← fblkOf_congr (congrArg _ hflash), ← ppb_congr (congrArg _ hflash), hwp]; exact hppb⟩
          have hn : chan = n := by omega
          rw [hn]
          rcases List.mem_append.mp hmem with hmem | hmem
          · exact hfree _ hmem
          · split at hmem
            · exact hfree _ hmem
            · cases hmem

theorem groupMember_isSome_of_mem {gr : ParityGroup} {chan : Nat} {m : Nat × Nat × Nat} (hm : m ∈ gr.members) (hc : m.1 = chan)
    (hroom : (fblkOf s m.1 m.2.1 m.2.2).wp < ppb s m.1 m.2.1) : (groupMember s gr chan).isSome = true := by
  unfold groupMember
  rw [List.find?_isSome]
  subst hc
  exact ⟨m, hm, by simp [hroom]⟩

/-- A group that was opened has room on each of its 32 channels. -/
theorem openGroup_rooms {col : Nat} {reloc : Bool} (h : openGroup s col reloc none = some (g, t)) {chan : Nat} (hc : chan < 32) :
    ∃ gr, mfind t.flash.groups g = some gr ∧ (groupMember t gr chan).isSome = true := by
  have hissues : Issues (fun _ => False) s t := openGroup_issues h
  unfold openGroup at h
  split at h
  · cases h
  · split at h
    · cases h
    · rename_i l s' hpick
      obtain ⟨m, hm, hchan, hroom⟩ := pickMembers_rooms hpick hc
      have hflash := flash_pickMembers hpick
      obtain ⟨rfl, rfl⟩ := Prod.mk.inj (Option.some.inj h)
      refine ⟨{ col := col, reloc := reloc, members := l }, by rw [foldl_group]; simp, groupMember_isSome_of_mem hm hchan ?_⟩
      rw [ppb_congr hissues.params]
      refine lt_of_eq_of_lt ?_ hroom
      refine foldl_keeps (fun s => (fblkOf s m.1 m.2.1 m.2.2).wp) ?_ l _ |>.trans ?_
      · exact fun s m' => fblkOf_setFblk_keeps FlashBlock.wp rfl ..
      · exact congrArg FlashBlock.wp (fblkOf_congr (congrArg _ hflash) ..)

/-- A page that is written is programmed, or waits for a group. -/
theorem programUnit_takes (hgroups : ∀ y ∈ s.flash.groups, mfind s.flash.groups y.1 = some y.2) (u : Nat) (pg : NandPage) (reloc : Bool) (w : ProgWaiter) :
    (∃ y ∈ (programUnit s u pg reloc w).flash.programs, programOf pg w y) ∨ (u, pg, w) ∈ (programUnit s u pg reloc w).flash.stalled := by
  unfold programUnit
  split
  · rename_i g hopen
    obtain ⟨e, he, rfl⟩ := Option.map_eq_some_iff.mp hopen
    have hroom : (groupMember s e.2 (unitChan u)).isSome = true := by
      have := List.find?_some he
      simp only [Bool.and_eq_true] at this
      exact this.2
    obtain ⟨y, hprograms, hy⟩ := issueProgram_takes (hgroups e (List.mem_of_find?_eq_some he)) hroom pg w
    exact .inl ⟨y, by simp [hprograms], hy⟩
  · split
    · rename_i g t hopen
      obtain ⟨gr, hg, hroom⟩ := openGroup_rooms hopen (chan := unitChan u) (Nat.mod_lt _ (by decide))
      obtain ⟨y, hprograms, hy⟩ := issueProgram_takes hg hroom pg w
      exact .inl ⟨y, by simp [hprograms], hy⟩
    · right
      simp

theorem programFails_spec (hx : s.flash.programs[i]? = some x) (hnone : validPages s x.pos.chan x.pos.die x.pos.block = [])
    (hgroups : ∀ y ∈ s.flash.groups, mfind s.flash.groups y.1 = some y.2) :
    (fblkOf (flashProgramDone s i false) x.pos.chan x.pos.die x.pos.block).retired = true
    ∧ mget 0 (flashProgramDone s i false).flash.retiredCount x.pos.chan = mget 0 s.flash.retiredCount x.pos.chan + 1
    ∧ (flashProgramDone s i false).flash.map = s.flash.map
    ∧ ((∃ y ∈ (flashProgramDone s i false).flash.programs, y.page.unit = x.page.unit ∧ y.page.payload = x.page.payload ∧ y.waiter = x.waiter)
      ∨ (x.page.unit, x.page, x.waiter) ∈ (flashProgramDone s i false).flash.stalled) := by
  unfold flashProgramDone
  simp only [hx, Bool.false_eq_true, if_false]
  generalize hs₁ : ({ s with flash := { s.flash with programs := s.flash.programs.eraseIdx i } } : State) = s₁
  have hflash : s₁.flash = { s.flash with programs := s.flash.programs.eraseIdx i } := by rw [← hs₁]
  obtain ⟨hretired, hcount, hmap⟩ := retireBlock_retires s₁ x.pos.chan x.pos.die x.pos.block 0
  obtain ⟨v, -, hstill, hretire⟩ := retireBlock_relocates s₁ x.pos.chan x.pos.die x.pos.block 0
  generalize retireBlock s₁ x.pos.chan x.pos.die x.pos.block 0 = s₂ at *
  have hissues := fun r => programUnit_issues s₂ x.page.unit x.page r x.waiter
  have hv : v.flash.groups = s.flash.groups := by
    rw [hstill (by rw [validPages_congr (s := s) (by rw [hflash]) (by rw [hflash]) (congrArg FlashBlock.pages (fblkOf_congr (by rw [hflash]) ..)), hnone]),
      ← hs₁]
    rfl
  have hkept : s₂.flash.groups = s.flash.groups := (congrArg FlashState.groups hretire :).trans hv
  refine ⟨((hissues _).retired ..).trans hretired, ?_, ?_, ?_⟩
  · rw [(hissues _).retiredCount, hcount, hflash]
  · rw [(hissues _).map, hmap, hflash]
  · exact (programUnit_takes (by rw [hkept]; exact hgroups) ..).imp (fun ⟨y, hy, hpayload, _, hunit, hw⟩ => ⟨y, hy, hunit, hpayload, hw⟩) id

theorem newer_of_unmapped (h : entryState (mapOf s u) ≠ 1) (q : BitVec 48) : newer s u q = true := by
  unfold newer
  split
  · rename_i hmapped
    exact absurd hmapped h
  · rfl

/-- A program whose writer waits for nothing, of a unit without a page. -/
theorem programDone_spec (hx : s.flash.programs[i]? = some x) (hkind : x.page.kind = 1) (hw : x.waiter = .nobody) (hg : x.page.group = none)
    (hnew : entryState (mapOf s x.page.unit) ≠ 1) : flashProgramDone s i true = setMap
      (setFblk { s with flash := { s.flash with programs := s.flash.programs.eraseIdx i } } x.pos.chan x.pos.die x.pos.block
        fun b => { b with pages := mins b.pages x.pos.page x.page }) x.page.unit (mapEntry s (unitCol x.page.unit) x.pos) x.page.seq 1 := by
  unfold flashProgramDone
  simp only [hx, if_true]
  unfold programDone
  simp only [hw, hg, ackWaiter]
  rw [if_pos (by rw [hkind, newer_of_unmapped (by exact hnew)]; rfl)]
  rfl

/-! ## Reads (R391, R392, R399) -/

theorem readDone_of_mapped (he : entryState (mapOf s u) = 1) (hp : entryPos s u (mapOf s u) = pos) (hpg : pageAt s pos = some pg) {r : FlashRead}
    (hu : r.uncw = 0) : flashReadDone s u r =
      if r.ok then
        if r.retried || decide (196 < r.bits) then
          setFblk s pos.chan pos.die pos.block fun b => { b with rewriteBy := some (recNow s + 60000000) }
        else s
      else if !groupVerified s pg then programUnit s u pg true (.moved pos)
      else
        let s := setFblk s pos.chan pos.die pos.block fun b => { b with pages := mins b.pages pos.page { pg with dead := true } }
        match extentOfUnit s u with
        | none => setMap s u (BitVec.ofNat 32 (2 * 2 ^ 30)) pg.seq 1
        | some (k, e) =>
          let s := if e.copyTier = 0 then setMap s u (BitVec.ofNat 32 (2 * 2 ^ 30)) pg.seq 1 else s
          if e.cls = 0 then { s with tier := { s.tier with leaves := mins s.tier.leaves k { e with lost := true } } } else s := by
  unfold flashReadDone
  rw [if_neg (not_not.mpr he)]
  simp only [hp, hu, lt_irrefl, if_false, List.replicate_zero, List.nil_append, hpg] <;> rfl

end Sys2Proof.Machine

/-! # The commands of the flash, one by one (R391 to R407) -/

namespace Sys2Proof.Machine

variable {s t v : State} {c d b g u i ms : Nat} {pg : NandPage} {x : PageProgram} {pos : PagePos}

/-! ## Lookups and reads -/

theorem mapPort_of_unmapped (h : entryState (mapOf s u) = 0) : mapPort s u =
    { s with flash := { s.flash with port := s.flash.port ++ [{ unit := u }] } } := by
  unfold mapPort
  simp [h]

theorem mapPort_of_lost (h : entryState (mapOf s u) = 2) : mapPort s u =
    { s with flash := { s.flash with port := s.flash.port ++ [{ unit := u, lost := true }] } } := by
  unfold mapPort
  simp [h]

/-- A program that a read of the page at e suspends. -/
def suspended (e : PagePos) (p : PageProgram) : PageProgram :=
  if p.pos.chan = e.chan ∧ p.pos.die = e.die ∧ p.suspends < 4 then { p with suspends := p.suspends + 1 } else p

theorem mapPort_of_mapped (h : entryState (mapOf s u) = 1) :
    (mapPort s u).flash.port = s.flash.port ++ [{ unit := u, pos := some (entryPos s u (mapOf s u)) }] ∧ (mapPort s u).flash.map = s.flash.map
    ∧ (mapPort s u).flash.programs = s.flash.programs.map (suspended (entryPos s u (mapOf s u))) := by
  unfold mapPort
  simp only [h, ne_eq, not_true_eq_false, if_false, true_and]
  refine List.map_congr_left fun p _ => ?_
  unfold suspended
  simp [and_assoc]

theorem readDone_of_lost (he : entryState (mapOf s u) = 1) (hp : entryPos s u (mapOf s u) = pos) (hpg : pageAt s pos = some pg) {r : FlashRead}
    (hu : r.uncw = 0) (hok : r.ok = false) (hver : groupVerified s pg = true) :
    pageAt (flashReadDone s u r) pos = some { pg with dead := true } ∧ (flashReadDone s u r).host = s.host
    ∧ (∀ k, k ≠ u → mapOf (flashReadDone s u r) k = mapOf s k)
    ∧ (extentOfUnit s u = none → entryState (mapOf (flashReadDone s u r) u) = 2 ∧ (flashReadDone s u r).tier = s.tier)
    ∧ ∀ k e, extentOfUnit s u = some (k, e) → entryState (mapOf (flashReadDone s u r) u) = (if e.copyTier = 0 then 2 else 1)
      ∧ (e.cls = 0 → mfind (flashReadDone s u r).tier.leaves k = some { e with lost := true })
      ∧ (e.cls ≠ 0 → (flashReadDone s u r).tier = s.tier) := by
  rw [readDone_of_mapped he hp hpg hu]
  simp only [hok, hver, Bool.false_eq_true, if_false, Bool.not_true]
  have hstate : entryState (BitVec.ofNat 32 (2 * 2 ^ 30)) = 2 := by decide
  generalize BitVec.ofNat 32 (2 * 2 ^ 30) = lost at hstate ⊢
  generalize hs₁ : setFblk s pos.chan pos.die pos.block (fun b => { b with pages := mins b.pages pos.page { pg with dead := true } }) = s₁
  have hpage : pageAt s₁ pos = some { pg with dead := true } := by
    unfold pageAt
    rw [← hs₁, fblkOf_setFblk_same]
    simp
  have hext : extentOfUnit s₁ u = extentOfUnit s u := by rw [← hs₁]; rfl
  have hhost : s₁.host = s.host := by rw [← hs₁]; rfl
  have htier : s₁.tier = s.tier := by rw [← hs₁]; rfl
  have hmap : ∀ k, mapOf s₁ k = mapOf s k := fun k => by rw [← hs₁]; rfl
  have hlost : ∀ k, mapOf (setMap s₁ u lost pg.seq 1) k = if k = u then lost else mapOf s k := fun k => by
    rw [← hmap k]
    exact mget_mput (0 : BitVec 32) ..
  rw [hext]
  cases hx : extentOfUnit s u with
  | none =>
    refine ⟨hpage, hhost, fun k hk => (hlost k).trans (if_neg hk), fun _ => ⟨?_, htier⟩, nofun⟩
    rw [hlost u, if_pos rfl, hstate]
  | some y =>
    obtain ⟨k, e⟩ := y
    dsimp only
    generalize hs₂ : (if e.copyTier = 0 then setMap s₁ u lost pg.seq 1 else s₁) = s₂
    have hmap₂ : ∀ j, mapOf s₂ j = if e.copyTier = 0 ∧ j = u then lost else mapOf s j := fun j => by
      rw [← hs₂]
      by_cases hcopy : e.copyTier = 0
      · simp only [hcopy, if_true, true_and, hlost]
      · simp only [hcopy, if_false, false_and, hmap]
    have hkept : pageAt s₂ pos = some { pg with dead := true } ∧ s₂.host = s.host ∧ s₂.tier = s.tier := by
      rw [← hs₂]
      split
      · exact ⟨hpage, hhost, htier⟩
      · exact ⟨hpage, hhost, htier⟩
    obtain ⟨hpage₂, hhost₂, htier₂⟩ := hkept
    have hstate₂ : entryState (mapOf s₂ u) = if e.copyTier = 0 then 2 else 1 := by
      rw [hmap₂]
      by_cases hcopy : e.copyTier = 0
      · simp only [hcopy, if_true, and_self, hstate]
      · simp only [hcopy, if_false, false_and, he]
    have hother : ∀ j, j ≠ u → mapOf s₂ j = mapOf s j := fun j hj => (hmap₂ j).trans (if_neg fun h => hj h.2)
    by_cases hcls : e.cls = 0
    · rw [if_pos hcls]
      refine ⟨hpage₂, hhost₂, hother, nofun, fun k' e' h => ?_⟩
      obtain ⟨rfl, rfl⟩ := Prod.mk.inj (Option.some.inj h)
      exact ⟨hstate₂, fun _ => by simp, fun h => absurd hcls h⟩
    · rw [if_neg hcls]
      refine ⟨hpage₂, hhost₂, hother, nofun, fun k' e' h => ?_⟩
      obtain ⟨rfl, rfl⟩ := Prod.mk.inj (Option.some.inj h)
      exact ⟨hstate₂, fun h => absurd h hcls, fun _ => htier₂⟩

/-! ## Copies of a block (R400, R401, R404) -/

/-- The valid pages of block b of the die, as they are in s, are programmed anew or wait, and nothing else becomes of the map and the pages. -/
def Copied (s : State) (c d : Nat) (t : State) (b : Nat) : Prop :=
  ∃ l m, t.flash.programs = s.flash.programs ++ l ∧ t.flash.stalled = s.flash.stalled ++ m ∧ t.flash.map = s.flash.map
    ∧ (∀ c d b, (fblkOf t c d b).pages = (fblkOf s c d b).pages) ∧ ∀ y ∈ l, copyOf (validPages s c d b) c d b y

theorem copied_of_issues (h : Issues (copyOf (validPages s c d b) c d b) s t) : Copied s c d t b := by
  obtain ⟨l, hl, hcopy⟩ := h.programs
  obtain ⟨m, hm⟩ := h.stalled
  exact ⟨l, m, hl, hm, h.map, h.pages, hcopy⟩

theorem blockRewrite_copies (h : (fblkOf s c d b).rewriteBy ≠ none) :
    Copied s c d (blockRewrite s c d b) b ∧ (fblkOf (blockRewrite s c d b) c d b).rewriteBy = none := by
  unfold blockRewrite
  rw [if_neg (by simpa using h)]
  generalize hs₁ : setFblk s c d b (fun x => { x with rewriteBy := none }) = s₁
  have hpages : ∀ c' d' b', (fblkOf s₁ c' d' b').pages = (fblkOf s c' d' b').pages := by
    rw [← hs₁]
    exact fblkOf_setFblk_keeps FlashBlock.pages rfl
  have hflash : s₁.flash.programs = s.flash.programs ∧ s₁.flash.stalled = s.flash.stalled ∧ s₁.flash.map = s.flash.map
      ∧ s₁.flash.params = s.flash.params := by
    rw [← hs₁]
    exact ⟨rfl, rfl, rfl, rfl⟩
  obtain ⟨hprograms, hstalled, hmap, hparams⟩ := hflash
  have hissues := relocateBlock_issues s₁ c d b
  obtain ⟨l, m, hl, hm, hmap', hpages', hcopy⟩ := copied_of_issues hissues
  rw [validPages_congr hmap hparams (hpages c d b)] at hcopy
  refine ⟨⟨l, m, by rw [hl, hprograms], by rw [hm, hstalled], hmap'.trans hmap, fun c' d' b' => (hpages' c' d' b').trans (hpages c' d' b'), hcopy⟩, ?_⟩
  rw [hissues.rewriteBy, ← hs₁, fblkOf_setFblk_same]

/-- The block with fewer valid units, of the best so far and the next. -/
def fewer (n : Nat × FlashBlock → Nat) (m : Option (Nat × Nat)) (e : Nat × FlashBlock) : Option (Nat × Nat) :=
  match m with
  | none => some (e.1 % 2 ^ 23, n e)
  | some y => if n e < y.2 then some (e.1 % 2 ^ 23, n e) else some y

theorem foldl_fewer (n : Nat × FlashBlock → Nat) (l : List (Nat × FlashBlock)) (e : Nat × FlashBlock) :
    ∃ x ∈ e :: l, l.foldl (fewer n) (some (e.1 % 2 ^ 23, n e)) = some (x.1 % 2 ^ 23, n x) ∧ ∀ y ∈ e :: l, n x ≤ n y := by
  induction l generalizing e with
  | nil => exact ⟨e, .head _, rfl, fun y hy => by cases List.mem_singleton.mp hy; exact le_refl _⟩
  | cons a l ih =>
    by_cases h : n a < n e
    · obtain ⟨x, hx, hfold, hmin⟩ := ih a
      refine ⟨x, .tail _ hx, by rw [List.foldl_cons, show fewer n (some (e.1 % 2 ^ 23, n e)) a = _ from if_pos h, hfold], fun y hy => ?_⟩
      rcases List.mem_cons.mp hy with rfl | hy
      · exact (hmin a (.head _)).trans h.le
      · exact hmin y hy
    · obtain ⟨x, hx, hfold, hmin⟩ := ih e
      refine ⟨x, ?_, by rw [List.foldl_cons, show fewer n (some (e.1 % 2 ^ 23, n e)) a = _ from if_neg h, hfold], fun y hy => ?_⟩
      · exact List.mem_cons.mpr ((List.mem_cons.mp hx).imp id (.tail _))
      · rcases List.mem_cons.mp hy with rfl | hy
        · exact hmin y (.head _)
        · rcases List.mem_cons.mp hy with rfl | hy
          · exact (hmin e (.head _)).trans (not_lt.mp h)
          · exact hmin y (.tail _ hy)

/-- A full block of a die (R404). -/
def fullBlock (s : State) (c d : Nat) (e : Nat × FlashBlock) : Prop :=
  e.1 / 2 ^ 23 = fdieKey c d ∧ ppb s c d ≤ e.2.wp ∧ e.2.retired = false ∧ e.2.erasing = none

theorem garbageCollect_copies (hfew : (freeBlocks s c d).length < 4) (hfull : ∃ e ∈ s.flash.blocks, fullBlock s c d e) :
    ∃ e ∈ s.flash.blocks, fullBlock s c d e
      ∧ (∀ y ∈ s.flash.blocks, fullBlock s c d y → (validPages s c d (e.1 % 2 ^ 23)).length ≤ (validPages s c d (y.1 % 2 ^ 23)).length)
      ∧ Copied s c d (garbageCollect s c d) (e.1 % 2 ^ 23) := by
  unfold garbageCollect
  rw [if_neg (not_le.mpr hfew)]
  extract_lets full best
  have hmem : ∀ e, e ∈ full ↔ e ∈ s.flash.blocks ∧ fullBlock s c d e := fun e => by
    simp [full, fullBlock, and_assoc]
  have hbest : best = full.foldl (fewer fun e => (validPages s c d (e.1 % 2 ^ 23)).length) none := rfl
  obtain ⟨e₀, he₀⟩ := hfull
  cases hl : full with
  | nil => exact absurd ((hmem e₀).mpr he₀) (by simp [hl])
  | cons a l =>
    obtain ⟨x, hx, hfold, hmin⟩ := foldl_fewer (fun e => (validPages s c d (e.1 % 2 ^ 23)).length) l a
    rw [← hl] at hx hmin
    have hsome : best = some (x.1 % 2 ^ 23, (validPages s c d (x.1 % 2 ^ 23)).length) := by
      rw [hbest, hl]
      exact hfold
    obtain ⟨hin, hx⟩ := (hmem x).mp hx
    rw [hsome]
    exact ⟨x, hin, hx, fun y hy hfull => hmin y ((hmem y).mpr ⟨hy, hfull⟩), copied_of_issues (relocateBlock_issues ..)⟩

/-- The spread of wear over the blocks that hold data. -/
def wearSpread (s : State) (c col : Nat) (x : FlashBlock) : Nat := (dataBlocks s c col).foldl (fun n y => max n y.2.2.pe) 0 - x.pe

section
variable {col : Nat} {x : FlashBlock} {m : Nat × Nat × Nat}

theorem wearLevel_of_even (hy : youngest (dataBlocks s c col) = some (d, b, x)) (hw : wornFree s c col = some m)
    (h : wearSpread s c col x ≤ s.limits.wlSpread) : wearLevel s c col = s := by
  unfold wearLevel
  simp only [hy, hw]
  exact if_pos (by rw [Bool.or_eq_true]; exact .inl (decide_eq_true h))

theorem wearLevel_of_uneven (hy : youngest (dataBlocks s c col) = some (d, b, x)) (hw : wornFree s c col = some m)
    (h : s.limits.wlSpread < wearSpread s c col x) (hmoved : mfind s.flash.movedAt (fdieKey c d) = none) :
    wearLevel s c col = match openGroup s col true (some m) with
      | none => s
      | some (g, s) =>
        let s := { s with flash := { s.flash with movedAt := mins s.flash.movedAt (fdieKey c d) (recNow s) } }
        (validPages s c d b).foldl (fun s p => issueProgram s g c p.2 (.moved { chan := c, die := d, block := b, page := p.1 })) s := by
  unfold wearLevel
  simp only [hy, hw, hmoved]
  rw [if_neg (by rw [Bool.or_false, decide_eq_true_eq]; exact not_le.mpr h)] <;> rfl

theorem wearLevel_copies (hy : youngest (dataBlocks s c col) = some (d, b, x)) (hw : wornFree s c col = some m)
    (h : s.limits.wlSpread < wearSpread s c col x) (hmoved : mfind s.flash.movedAt (fdieKey c d) = none) {y : Nat × State}
    (hopen : openGroup s col true (some m) = some y) :
    Copied s c d (wearLevel s c col) b ∧ mfind (wearLevel s c col).flash.movedAt (fdieKey c d) = some (recNow s) := by
  obtain ⟨g, s₁⟩ := y
  rw [wearLevel_of_uneven hy hw h hmoved, hopen]
  have hissues : Issues (copyOf (validPages s c d b) c d b) s s₁ := openGroup_issues hopen
  have hrec : recNow s₁ = recNow s := congrArg BureauState.recTime (openGroup_frame _ _ _ _ _ hopen).2.2.2.2.2.2.2.2.1
  dsimp only
  generalize hs₂ : ({ s₁ with flash := { s₁.flash with movedAt := mins s₁.flash.movedAt (fdieKey c d) (recNow s₁) } } : State) = s₂
  have hvalid : validPages s₂ c d b = validPages s c d b := by
    rw [← hs₂]
    exact validPages_congr hissues.map hissues.params (hissues.pages c d b)
  have hmoves : Issues (copyOf (validPages s c d b) c d b) s₂
      ((validPages s₂ c d b).foldl (fun s p => issueProgram s g c p.2 (.moved { chan := c, die := d, block := b, page := p.1 })) s₂) := by
    rw [hvalid]
    exact .foldl (fun s p hp => (issueProgram_issues s g c p.2 _).mono fun y ⟨hpayload, hhdr, hunit, hw⟩ => ⟨p, hp, hpayload, hhdr, hunit, hw⟩) s₂
  obtain ⟨l, hl, -⟩ := hissues.programs
  obtain ⟨l', hl', hcopy'⟩ := hmoves.programs
  obtain ⟨n, hn⟩ := hissues.stalled
  obtain ⟨n', hn'⟩ := hmoves.stalled
  have hflash : s₂.flash.programs = s₁.flash.programs ∧ s₂.flash.stalled = s₁.flash.stalled ∧ s₂.flash.map = s₁.flash.map
      ∧ s₂.flash.movedAt = mins s₁.flash.movedAt (fdieKey c d) (recNow s₁) ∧ s₂.flash.blocks = s₁.flash.blocks := by
    rw [← hs₂]
    exact ⟨rfl, rfl, rfl, rfl, rfl⟩
  obtain ⟨hprograms, hstalled, hmap, hmovedAt, hblocks⟩ := hflash
  obtain ⟨k, hk, hcopy⟩ := hissues.programs
  refine ⟨⟨k ++ l', n ++ n', by rw [hl', hprograms, hk, List.append_assoc], by rw [hn', hstalled, hn, List.append_assoc],
    hmoves.map.trans (hmap.trans hissues.map),
    fun c' d' b' => (hmoves.pages ..).trans ((congrArg _ (fblkOf_congr hblocks ..)).trans (hissues.pages ..)), fun y hy => ?_⟩, ?_⟩
  · exact (List.mem_append.mp hy).elim (hcopy y) (hcopy' y)
  · rw [hmoves.movedAt, hmovedAt, hrec]
    simp

end

/-! ## Groups, erases and rebuilds (R398, R405 to R407) -/

theorem retryStalled_of_none (h : s.flash.stalled = []) : retryStalled s = s := by
  have hs : ({ s with flash := { s.flash with stalled := [] } } : State) = s := by rw [← h]
  unfold retryStalled
  rw [h, hs]
  rfl

theorem groupReadback_of_good {y : ParityGroup} (hg : mfind s.flash.groups g = some y) (hc : y.closed = true) (hv : y.verified = false)
    (h : s.flash.stalled = []) :
    groupReadback s g [] = { s with flash := { s.flash with groups := mins s.flash.groups g { y with verified := true } } } := by
  unfold groupReadback
  simp only [hg, hc, hv, Bool.not_true, Bool.or_self, Bool.false_eq_true, if_false, if_true]
  exact retryStalled_of_none h

theorem groupReadback_of_bad {y : ParityGroup} (hg : mfind s.flash.groups g = some y) (hc : y.closed = true) (hv : y.verified = false)
    (hpg : pageAt s pos = some pg) (hpgg : pg.group = some g) :
    groupReadback s g [pos] = programUnit s pg.unit { pg with dead := false } true (.moved pos) := by
  unfold groupReadback
  simp [hg, hc, hv, hpg, hpgg]

theorem eraseDone_of_good (h : (fblkOf s c d b).erasing ≠ none) (hs : s.flash.stalled = []) :
    fblkOf (eraseDone s c d b true) c d b = { pe := (fblkOf s c d b).pe + 1 } ∧ (eraseDone s c d b true).flash.map = s.flash.map := by
  unfold eraseDone
  rw [if_neg (by simpa using h), if_pos rfl]
  have hflash := checkHealth_flash (setFblk s c d b fun x => { pe := x.pe + 1 }) c
  rw [retryStalled_of_none ((congrArg FlashState.stalled hflash :).trans hs), fblkOf_congr (congrArg FlashState.blocks hflash :), fblkOf_setFblk_same]
  exact ⟨rfl, (congrArg FlashState.map hflash :)⟩

theorem eraseDone_of_bad (h : (fblkOf s c d b).erasing ≠ none) : eraseDone s c d b false = retireBlock s c d b 1 := by
  unfold eraseDone
  rw [if_neg (by simpa using h)]
  rfl

/-- The cold rebuild with no checkpoint, before its event. -/
def rebuiltCold (s : State) : State :=
  let s := freeStale { s with flash := { s.flash with map := mapFromFlash s, ring := [], programs := [], stalled := [] } }
  { s with flash := { s.flash with
    groups := if s.flash.flushMark.isSome then s.flash.groups else mmap (fun _ g => { g with parityGone := g.parityGone || !g.verified }) s.flash.groups
    seq := (List.range 4).foldl (fun m fc => mins m fc (BitVec.ofNat 48 (highestSeq s fc + 2 ^ 20))) s.flash.seq
    flushMark := none, rebuilding := false, stopped := false, flushedAt := now s } }

theorem coldRebuild_of_unchecked (h : s.flash.rebuilding = true) (hc : s.flash.checkpoint = none) (ms : Nat) :
    coldRebuild s ms = logEvent (rebuiltCold s) (.flashRebuild true ms 0 0 0) := by
  have hs : ({ s with flash := { s.flash with checkpoint := none } } : State) = s := by rw [← hc]
  have hrebuild : coldRebuild { s with flash := { s.flash with checkpoint := none } } ms =
      logEvent (rebuiltCold { s with flash := { s.flash with checkpoint := none } }) (.flashRebuild true ms 0 0 0) :=
    if_neg (by simp [h])
  rwa [hs] at hrebuild

theorem rebuiltCold_groups (h : s.flash.flushMark = none) : ∀ x ∈ (rebuiltCold s).flash.groups, x.2.verified = true ∨ x.2.parityGone = true := by
  have hgroups : (rebuiltCold s).flash.groups = mmap (fun _ g => { g with parityGone := g.parityGone || !g.verified }) s.flash.groups := by
    show ite (s.flash.flushMark.isSome = true) _ _ = _
    rw [h]
    rfl
  intro x hx
  rw [hgroups] at hx
  obtain ⟨y, -, rfl⟩ := List.mem_map.mp hx
  cases hver : y.2.verified
  · exact .inr (by simp [hver])
  · exact .inl rfl

theorem mget_foldl_mput_map (m : Map (BitVec 32)) (bad : List Nat) (a : Map (BitVec 32)) (u : Nat) :
    mget 0 (bad.foldl (fun a u => mput 0 a u (mget 0 m u)) a) u = if u ∈ bad then mget 0 m u else mget 0 a u := by
  induction bad generalizing a with
  | nil => simp
  | cons k bad ih =>
    rw [List.foldl_cons, ih, mget_mput]
    by_cases hu : u ∈ bad
    · simp [hu]
    · by_cases hk : u = k
      · simp [hu, hk]
      · simp [hu, hk]

end Sys2Proof.Machine

/-! # O46: what becomes of pages, map and blocks (R391 to R407) -/

namespace Sys2Proof.Machine

variable {s : State} {u c d b g ms : Nat} {pg : NandPage} {pos : PagePos} {i : Nat} {x : PageProgram}

/-- The statement's form of a copy. -/
theorem copied_form {t : State} (h : Copied s c d t b) : ∃ l m, t.flash.programs = s.flash.programs ++ l ∧ t.flash.stalled = s.flash.stalled ++ m
    ∧ t.flash.map = s.flash.map ∧ (∀ c d b, (fblkOf t c d b).pages = (fblkOf s c d b).pages)
    ∧ ∀ y ∈ l, ∃ p ∈ validPages s c d b, y.page.payload = p.2.payload ∧ y.page.hdr = p.2.hdr ∧ y.page.unit = p.2.unit
      ∧ y.waiter = .moved { chan := c, die := d, block := b, page := p.1 } := h

section
variable (v : State) (f : FlashBlock → FlashBlock) (k : Nat) (e : BitVec 32) (q : BitVec 48) (ty : BitVec 8)

theorem pageAt_setMap_setFblk (pos : PagePos) : pageAt (setMap (setFblk v pos.chan pos.die pos.block f) k e q ty) pos =
    mfind (f (fblkOf v pos.chan pos.die pos.block)).pages pos.page := by
  rw [← fblkOf_setFblk_same v pos.chan pos.die pos.block f]
  rfl

theorem setMap_setFblk_keeps : (setMap (setFblk v c d b f) k e q ty).flash.ring = v.flash.ring ++ [{ unit := k, entry := e, seq := q, type := ty }]
    ∧ (setMap (setFblk v c d b f) k e q ty).flash.programs = v.flash.programs ∧ (setMap (setFblk v c d b f) k e q ty).host = v.host
    ∧ (setMap (setFblk v c d b f) k e q ty).tier = v.tier := ⟨rfl, rfl, rfl, rfl⟩

end

theorem programDone_map (hx : s.flash.programs[i]? = some x) (hkind : x.page.kind = 1) (hw : x.waiter = .nobody) (hg : x.page.group = none)
    (hnew : entryState (mapOf s x.page.unit) ≠ 1) :
    mapOf (flashProgramDone s i true) x.page.unit = mapEntry s (unitCol x.page.unit) x.pos
    ∧ (∀ k, k ≠ x.page.unit → mapOf (flashProgramDone s i true) k = mapOf s k)
    ∧ pageAt (flashProgramDone s i true) x.pos = some x.page := by
  rw [programDone_spec hx hkind hw hg hnew]
  refine ⟨(mget_mput (0 : BitVec 32) ..).trans (if_pos rfl), fun k hk => (mget_mput (0 : BitVec 32) ..).trans (if_neg hk), ?_⟩
  exact (pageAt_setMap_setFblk ..).trans (by simp)

/-- Settles O46: page programs leave the map and every page as they are (`Issues`), so that copies, rewrites, collection and wear moves add only
programs of the block's valid pages; the other commands change what their own equation says. -/
theorem flashPagesMapAndBlocks : Obligations.FlashPagesMapAndBlocks := by
  unfold Obligations.FlashPagesMapAndBlocks
  intro s u i c d b g ms r pos pg x bad F blk copied
  refine ⟨?_, ?_, ?_, ?_, ?_, ?_, ?_, ?_, ?_, ?_, ?_, ?_, ?_, ?_, ?_, ?_, ?_, ?_, ?_, ?_, ?_, ?_, ?_, ?_⟩
  · exact fun h => congrArg Host.Outcome.next (mapPort_of_unmapped h)
  · exact fun h => congrArg Host.Outcome.next (mapPort_of_lost h)
  · exact fun h => ⟨_, rfl, mapPort_of_mapped h⟩
  · refine fun hx => ⟨fun hkind hw hg hnew => ?_, fun hnone hgroups => ⟨_, rfl, programFails_spec hx hnone hgroups⟩⟩
    obtain ⟨hmap, hother, hpage⟩ := programDone_map hx hkind hw hg hnew
    have hdone := programDone_spec hx hkind hw hg hnew
    refine ⟨flashProgramDone s i true, rfl, hmap, hother, hpage, ?_⟩
    rw [hdone]
    exact setMap_setFblk_keeps ..
  · intro h good
    refine congrArg Host.Outcome.next ?_
    unfold flashProgramDone
    rw [h]
  · exact fun h => congrArg Host.Outcome.next (if_pos h)
  · intro he hp hpg hu
    refine ⟨fun hok hr hbits => ?_, fun hok hr => ?_, fun hok hver => ?_, fun hok hver => ⟨_, rfl, readDone_of_lost he hp hpg hu hok hver⟩⟩
    · refine congrArg Host.Outcome.next ((readDone_of_mapped he hp hpg hu).trans ?_)
      rw [if_pos hok, if_neg (by simp [hr, hbits])]
    · refine congrArg Host.Outcome.next ((readDone_of_mapped he hp hpg hu).trans ?_)
      rw [if_pos hok, if_pos (by simpa using hr)]
    · refine congrArg Host.Outcome.next ((readDone_of_mapped he hp hpg hu).trans ?_)
      rw [if_neg (by simp [hok]), if_pos (by simp [hver])]
  · intro h
    refine ⟨flushJournal s, congrArg Host.Outcome.next (if_pos h), rfl, _, rfl, rfl, List.length_append⟩
  · exact fun hsince hring => congrArg Host.Outcome.next (if_neg (not_or.mpr ⟨not_le.mpr hsince, not_le.mpr hring⟩))
  · refine ⟨mapImageSegment s, rfl, by simp [mapImageSegment, F], rfl, fun y hy => ?_, fun hshort => ?_, rfl, rfl⟩
    · have hjournal : (mapImageSegment s).flash.journal = ite _ _ _ := rfl
      rw [hjournal] at hy
      split at hy
      · exact List.mem_of_mem_filter hy
      · exact hy
    · exact if_neg (by simpa [mapImageSegment] using hshort)
  · exact fun y hg hc hv => ⟨fun hs => congrArg Host.Outcome.next (groupReadback_of_good hg hc hv hs),
      fun hpg hpgg => congrArg Host.Outcome.next (groupReadback_of_bad hg hc hv hpg hpgg)⟩
  · intro h
    refine congrArg Host.Outcome.next ?_
    unfold groupReadback
    rw [h]
  · exact fun h => congrArg Host.Outcome.next (if_pos (by simpa using h))
  · intro h
    obtain ⟨hcopied, hnone⟩ := blockRewrite_copies h
    exact ⟨_, rfl, hcopied, hnone⟩
  · exact fun h => congrArg Host.Outcome.next (if_pos h)
  · intro full hfew hfull
    obtain ⟨e, he, hfull, hmin, hcopied⟩ := garbageCollect_copies hfew hfull
    exact ⟨_, rfl, e, he, hfull, hmin, hcopied⟩
  · intro col x m hy hw spread
    refine ⟨fun h => congrArg Host.Outcome.next (wearLevel_of_even hy hw h), fun h hmoved => ⟨_, rfl, ?_⟩⟩
    split
    · rename_i y hopen
      exact wearLevel_copies hy hw h hmoved hopen
    · rename_i hopen
      rw [wearLevel_of_uneven hy hw h hmoved, hopen]
  · exact fun h => congrArg Host.Outcome.next (if_pos h)
  · exact fun h => congrArg Host.Outcome.next (if_neg (by simp [h]))
  · exact fun h good => congrArg Host.Outcome.next (if_pos (by simpa using h))
  · intro h
    refine ⟨fun hs => ⟨_, rfl, eraseDone_of_good h hs⟩, _, congrArg Host.Outcome.next (eraseDone_of_bad h), ?_⟩
    obtain ⟨hretired, hcount, -⟩ := retireBlock_retires s c d b 1
    exact ⟨hretired, hcount⟩
  · exact fun h => congrArg Host.Outcome.next (if_pos (by simpa using h))
  · intro h hc
    refine ⟨_, congrArg Host.Outcome.next (coldRebuild_of_unchecked h hc ms), ?_⟩
    have hflash : (logEvent (rebuiltCold s) (.flashRebuild true ms 0 0 0)).flash = (rebuiltCold s).flash := by simp
    rw [hflash]
    exact ⟨rfl, rfl, rfl, rfl, rfl, rfl, rebuiltCold_groups, _, rfl⟩
  · refine ⟨warmRebuild s bad ms, rfl, ?_⟩
    generalize hv : ({ flushJournal s with flash := { (flushJournal s).flash with
      map := bad.foldl (fun a u => mput 0 a u (mget 0 (mapFromFlash (flushJournal s)) u)) (flushJournal s).flash.map
      stopped := false, rebuilding := false } } : State) = v
    have hwarm : warmRebuild s bad ms = logEvent v (.flashRebuild false ms bad.length bad.length 0) := by rw [← hv]; rfl
    have hflash : (warmRebuild s bad ms).flash = v.flash := by rw [hwarm]; simp
    refine ⟨fun u => ?_, ?_, ?_, ?_, v, hwarm⟩
    · rw [mapOf_congr (congrArg _ hflash), ← hv]
      exact mget_foldl_mput_map ..
    · rw [hflash, ← hv]
      rfl
    · rw [hflash, ← hv]
      rfl
    · rw [hflash, ← hv]

end Sys2Proof.Machine

/-! # Requests and the tiles of the turn conductor's pool

What a write into the pool leaves: the requests, and every slot but its own. -/

namespace Sys2Proof.Machine

variable {s t : State} {h k : Nat} {q : Request} {f : Request → Request} {src : DieId} {w : Bool} {i : TileIdx}

/-! ## Requests -/

theorem modReq_of_open (hq : reqOf s h = some q) (f : Request → Request) : modReq s h f = setReq s h (f q) := by
  unfold modReq
  rw [hq]

theorem reqOf_setReq_same (s : State) (h : Nat) (q : Request) : reqOf (setReq s h q) h = some q := by rw [reqOf_setReq, if_pos rfl]

theorem reqOf_modReq_same (hq : reqOf s h = some q) (f : Request → Request) : reqOf (modReq s h f) h = some (f q) := by
  rw [modReq_of_open hq, reqOf_setReq, if_pos rfl]

theorem reqOf_modReq_other (s : State) (f : Request → Request) (hk : k ≠ h) : reqOf (modReq s h f) k = reqOf s k := by
  unfold modReq
  split
  · rfl
  · rw [reqOf_setReq, if_neg hk]

theorem reqOf_congr (ht : t.host.requests = s.host.requests) (k : Nat) : reqOf t k = reqOf s k := by
  unfold reqOf
  rw [ht]

theorem toPhase_of_open (hq : reqOf s h = some q) (hc : q.cancel = false) (p : Phase) :
    toPhase s h p = setReq (phaseEnds s h) h { q with phase := p } := by
  unfold toPhase
  rw [if_neg (by simp [hq, hc])]
  exact modReq_of_open (s := phaseEnds s h) hq _

/-! ## Writes into the pool -/

@[simp] theorem refuseWrite_requests (s : State) (src : DieId) (tag : BitVec 16) (x : TileIdx) (hd : TileHeader) (cause : Nat) :
    (refuseWrite s src tag x hd cause).host.requests = s.host.requests := by
  unfold refuseWrite
  split <;> simp [setStep, setPart]

@[simp] theorem writeTile_requests (s : State) (src : DieId) (x : TileIdx) (tl : Tile) (w : Bool) :
    (writeTile s src x tl w).host.requests = s.host.requests := by
  unfold writeTile
  split
  · exact refuseWrite_requests ..
  · split
    · exact refuseWrite_requests ..
    · simp

/-- A write reaches only the slot that it names. -/
theorem slotOf_writeTile_of_ne (s : State) (src : DieId) {x y : TileIdx} (tl : Tile) (w : Bool) (hy : y ≠ x) :
    slotOf (writeTile s src x tl w) y = slotOf s y := by
  unfold writeTile
  split
  · exact slotOf_congr (by simp) y
  · split
    · exact slotOf_congr (by simp) y
    · rw [slotOf_announce, slotOf_setSlot_other _ _ _ _ hy]

theorem conductorPut_requests {l : List Tile} {r : List TileIdx × State} (hr : conductorPut src w l s = some r) :
    r.2.host.requests = s.host.requests := by
  induction l generalizing s r with
  | nil =>
    cases hr
    rfl
  | cons a l ih =>
    simp only [conductorPut, Option.bind_eq_some_iff, Option.map_eq_some_iff] at hr
    obtain ⟨i, -, r, hr, rfl⟩ := hr
    exact (ih hr).trans (writeTile_requests ..)

theorem conductorPut_length {l : List Tile} {r : List TileIdx × State} (hr : conductorPut src w l s = some r) : r.1.length = l.length := by
  induction l generalizing s r with
  | nil =>
    cases hr
    rfl
  | cons a l ih =>
    simp only [conductorPut, Option.bind_eq_some_iff, Option.map_eq_some_iff] at hr
    obtain ⟨i, -, r, hr, rfl⟩ := hr
    exact congrArg (· + 1) (ih hr)

theorem conductorPut_single (hi : freeConductor s = some i) (src : DieId) (w : Bool) (tl : Tile) :
    conductorPut src w [tl] s = some ([i], writeTile s src i (passing tl) w) := by
  simp [conductorPut, hi]

theorem conductorPut_of_full (hi : freeConductor s = none) (src : DieId) (w : Bool) (tl : Tile) (l : List Tile) :
    conductorPut src w (tl :: l) s = none := by
  simp [conductorPut, hi]

theorem freeConductor_congr (ht : t.store = s.store) : freeConductor t = freeConductor s := by
  have hslot : slotOf t = slotOf s := funext (slotOf_congr (congrArg _ ht))
  unfold freeConductor
  rw [hslot]

theorem free_of_freeConductor (hi : freeConductor s = some i) : (slotOf s i).hdr.state = .free := by
  have := List.find?_some hi
  simpa using this

/-- The tile that the turn conductor writes to a free slot of its pool. -/
theorem slotOf_passing {tl : Tile} (hs : shapeOk tl.hdr.format tl.hdr.rows.toNat tl.hdr.cols.toNat = true) (hi : freeConductor s = some i) :
    slotOf (writeTile s src i (passing tl) w) i =
      { hdr := { acceptHeader src (passing tl).hdr w with state := .ready }, payload := tl.payload, src := src } :=
  slotOf_writeTile_same src w hs (free_of_freeConductor hi)

/-- A scan's tiles are written, and noted with the request. -/
theorem scanPut_spec {ts : List Tile} (hq : reqOf s h = some q) (hp : scanPut s h src ts = some t) :
    ∃ l : List TileIdx, l.length = ts.length ∧ reqOf t h = some { q with ret := { q.ret with scanTiles := q.ret.scanTiles ++ l } }
      ∧ ∀ k, k ≠ h → reqOf t k = reqOf s k := by
  unfold scanPut at hp
  simp only [hq, Option.bind_some, Option.map_eq_some_iff] at hp
  obtain ⟨r, hr, rfl⟩ := hp
  have hsame := reqOf_congr (conductorPut_requests hr)
  exact ⟨r.1, conductorPut_length hr, reqOf_modReq_same ((hsame h).trans hq) _, fun k hk => (reqOf_modReq_other _ _ hk).trans (hsame k)⟩

theorem scanPut_single (hq : reqOf s h = some q) (hi : freeConductor s = some i) (src : DieId) (tl : Tile) :
    scanPut s h src [tl] = some (setReq (writeTile s src i (passing tl) false) h { q with ret := { q.ret with scanTiles := q.ret.scanTiles ++ [i] } }) := by
  unfold scanPut
  rw [hq, conductorPut_single hi]
  exact congrArg some (modReq_of_open ((reqOf_congr (writeTile_requests ..) h).trans hq) _)

end Sys2Proof.Machine

/-! # The passage fetch (R165, R178, R179) -/

namespace Sys2Proof.Machine

variable {s t : State} {h i n k : Nat} {q : Request} {r : IndexRec} {c : Cand} {tl : Tile} {j : TileIdx} {b : Bytes}

/-! ## Candidates -/

/-- The request once candidate i is dropped. -/
def withDropped (q : Request) (i : Nat) (c : Cand) : Request :=
  { q with flags := q.flags ||| flagFewerCandidates, candDropped := q.candDropped + 1
           ret := { q.ret with cands := q.ret.cands.set i { c with waiting := false, block := none, score := fpNan } } }

/-- The request once candidate i has its block. -/
def withBlock (q : Request) (i : Nat) (c : Cand) (b : Bytes) (j : TileIdx) : Request :=
  { q with ret := { q.ret with cands := q.ret.cands.set i { c with waiting := false, block := some b, stored := some (j, c.pid.toNat % 8) } } }

theorem modify_eq_set {α : Type} {l : List α} {i : Nat} {a : α} (h : l[i]? = some a) (f : α → α) : l.modify i f = l.set i (f a) := by
  rw [List.modify_eq_set_getElem?, h]
  rfl

theorem dropCand_of_open (hq : reqOf s h = some q) (hc : q.ret.cands[i]? = some c) : dropCand s h i = setReq s h (withDropped q i c) := by
  unfold dropCand
  rw [modReq_of_open hq, modify_eq_set hc]
  rfl

/-- What the fetch requires of a passage block: VALID, and the passage and tenant that the candidate names (R179). -/
def goodBlock (q : Request) (c : Cand) (b : Bytes) : Prop := bit (rd b 15 1) 0 = true ∧ rd b 8 5 = c.pid.toNat ∧ rd b 13 2 % 512 = q.fn.toNat

section
variable {q₀ : Request} (hq : reqOf s h = some q) (hc : q.ret.cands[i]? = some c)
include hq hc

theorem judgeBlock_of_good (hgood : goodBlock q₀ c b) : judgeBlock s h i q₀ c b j = setReq s h (withBlock q i c b j) := by
  obtain ⟨hvalid, hpid, hfn⟩ := hgood
  unfold judgeBlock
  rw [if_neg (by simp [hvalid]), if_neg (not_not.mpr hpid), if_neg (not_not.mpr hfn), modReq_of_open hq, modify_eq_set hc]
  rfl

theorem judgeBlock_of_invalid (hv : bit (rd b 15 1) 0 = false) : judgeBlock s h i q₀ c b j = setReq s h (withDropped q i c) := by
  unfold judgeBlock
  rw [if_pos (by simp [hv]), dropCand_of_open hq hc]

theorem judgeBlock_of_mismatch (hv : bit (rd b 15 1) 0 = true)
    (hk : rd b 8 5 ≠ c.pid.toNat ∧ k = 0 ∨ rd b 8 5 = c.pid.toNat ∧ rd b 13 2 % 512 ≠ q₀.fn.toNat ∧ k = 1) :
    judgeBlock s h i q₀ c b j = logEvent (setReq s h (withDropped q i c)) (.passageMismatch q₀.fn q₀.block.index c.pid k) := by
  unfold judgeBlock
  rw [if_neg (by simp [hv]), dropCand_of_open hq hc]
  rcases hk with ⟨hpid, rfl⟩ | ⟨hpid, hfn, rfl⟩
  · rw [if_pos hpid]
  · rw [if_neg (not_not.mpr hpid), if_pos hfn]

/-- A block that is not good drops its candidate. -/
theorem judgeBlock_of_bad (hbad : ¬goodBlock q₀ c b) : reqOf (judgeBlock s h i q₀ c b j) h = some (withDropped q i c)
    ∧ (judgeBlock s h i q₀ c b j).store = s.store ∧ (judgeBlock s h i q₀ c b j).flash = s.flash := by
  by_cases hv : bit (rd b 15 1) 0 = true
  · have hk : ∃ k, rd b 8 5 ≠ c.pid.toNat ∧ k = 0 ∨ rd b 8 5 = c.pid.toNat ∧ rd b 13 2 % 512 ≠ q₀.fn.toNat ∧ k = 1 := by
      by_cases hpid : rd b 8 5 = c.pid.toNat
      · exact ⟨1, .inr ⟨hpid, fun hfn => hbad ⟨hv, hpid, hfn⟩, rfl⟩⟩
      · exact ⟨0, .inl ⟨hpid, rfl⟩⟩
    obtain ⟨k, hk⟩ := hk
    rw [judgeBlock_of_mismatch hq hc hv hk]
    simp
  · rw [judgeBlock_of_invalid hq hc (by simpa using hv)]
    simp

end

/-- The fetch goes on while a candidate waits. -/
theorem fetchEnds_of_waiting (hq : reqOf s h = some q) (hw : ∃ x ∈ q.ret.cands, x.waiting = true) : fetchEnds s h = s := by
  unfold fetchEnds
  rw [hq]
  exact if_pos (List.any_eq_true.mpr hw)

theorem waiting_set {x a : Cand} {l : List Cand} (hk : k ≠ i) (hx : l[k]? = some x) (hw : x.waiting = true) :
    ∃ y ∈ l.set i a, y.waiting = true :=
  ⟨x, List.mem_of_getElem? (by rw [List.getElem?_set_ne hk.symm]; exact hx), hw⟩

/-! ## A unit arrives -/

theorem passageFetch_of_waiting (hq : reqOf s h = some q) (hp : q.phase = .fetch) (hw : ∃ x ∈ q.ret.cands, x.waiting = true)
    (hf : q.ret.fetchAt = none) : passageFetch s h = setReq s h { q with ret := { q.ret with fetchAt := some (now s) } } := by
  unfold passageFetch
  rw [hq]
  dsimp only
  rw [if_neg (by simp [hp, hf]), modReq_of_open hq]
  exact fetchEnds_of_waiting (q := { q with ret := { q.ret with fetchAt := some (now s) } }) (reqOf_setReq_same ..) hw

section
variable (hq : reqOf s h = some q) (hr : indexOf s q.block.index = some r) (hp : q.phase = .fetch) (hf : q.ret.fetchAt.isSome = true)
  (hc : q.ret.cands[i]? = some c) (hw : c.waiting = true) (hread : readOrCopy s (passageUnit r c.pid) true (fun _ => true) = some tl)
include hq hr hp hf hc hw hread

theorem passageArrive_of_read : passageArrive s h i true = match unitTile s h (passageUnit r c.pid) q tl with
    | some (j, s) => fetchEnds (judgeBlock s h i q c (slice tl.payload (2048 * (c.pid.toNat % 8)) 2048) j) h
    | none => s := by
  unfold passageArrive
  simp only [hq, hc, hr, hp, hw, hread, Option.isNone_eq_false_iff.mpr hf]
  rfl

theorem passageArrive_of_held (hj : mfind q.ret.unitTiles (passageUnit r c.pid) = some j) : passageArrive s h i true =
    fetchEnds (judgeBlock s h i q c (slice tl.payload (2048 * (c.pid.toNat % 8)) 2048) j) h := by
  rw [passageArrive_of_read hq hr hp hf hc hw hread]
  unfold unitTile
  simp only [hj]

theorem passageArrive_of_full (hj : mfind q.ret.unitTiles (passageUnit r c.pid) = none) (hi : freeConductor s = none) :
    passageArrive s h i true = s := by
  rw [passageArrive_of_read hq hr hp hf hc hw hread]
  unfold unitTile
  simp only [hj, conductorPut_of_full hi, Option.bind_none]

end

/-- The unit's tile as the turn conductor stores it. -/
def unitCopy (tl : Tile) (n : Nat) : Tile := { tl with hdr := { storedHeader tl.hdr with srcValid := true, srcTile := BitVec.ofNat 34 n } }

/-- The state once a unit is in the pool, and noted with the request. -/
def unitStored (s : State) (h n : Nat) (q : Request) (tl : Tile) (j : TileIdx) : State :=
  setReq (writeTile s 0x3C j (passing (unitCopy tl n)) false) h { q with ret := { q.ret with unitTiles := mins q.ret.unitTiles n j } }

theorem unitTile_of_free (hq : reqOf s h = some q) (hj : mfind q.ret.unitTiles n = none) (hi : freeConductor s = some j) :
    unitTile s h n q tl = some (j, unitStored s h n q tl j) := by
  unfold unitTile
  rw [hj]
  show (conductorPut 0x3C false [unitCopy tl n] s).bind _ = _
  rw [conductorPut_single hi]
  simp only [Option.bind_some, List.head?_cons, Option.map_some]
  rw [modReq_of_open ((reqOf_congr (writeTile_requests ..) h).trans hq)]
  rfl

theorem slotOf_unitStored_other (s : State) (h n : Nat) (q : Request) (tl : Tile) {y : TileIdx} (hy : y ≠ j) :
    slotOf (unitStored s h n q tl j) y = slotOf s y :=
  (slotOf_congr rfl y).trans (slotOf_writeTile_of_ne _ _ _ _ hy)

theorem slotOf_unitStored_same (hs : shapeOk tl.hdr.format tl.hdr.rows.toNat tl.hdr.cols.toNat = true) (hi : freeConductor s = some j) :
    (slotOf (unitStored s h n q tl j) j).payload = tl.payload ∧ (slotOf (unitStored s h n q tl j) j).hdr.state = .ready
    ∧ (slotOf (unitStored s h n q tl j) j).hdr.owner = 0x3E ∧ (slotOf (unitStored s h n q tl j) j).hdr.persist = true := by
  have hslot : slotOf (unitStored s h n q tl j) j = slotOf (writeTile s 0x3C j (passing (unitCopy tl n)) false) j := slotOf_congr rfl j
  rw [hslot, slotOf_passing (tl := unitCopy tl n) hs hi]
  exact ⟨rfl, rfl, rfl, rfl⟩

/-! ## The budget -/

/-- What late reads become: each of the waiting candidates in l is dropped, and counted once. -/
theorem foldl_dropCand (l : List Nat) (hq : reqOf s h = some q) (hl : l.Nodup) (hlate : ∀ i ∈ l, (q.ret.cands[i]?).any (·.waiting) = true) :
    ∃ v, reqOf (l.foldl (fun s i => dropCand s h i) s) h = some v ∧ v.candDropped = q.candDropped + l.length ∧ v.cancel = q.cancel
      ∧ v.ret.snap = q.ret.snap ∧ v.ret.cands.length = q.ret.cands.length
      ∧ (∀ i ∈ l, ∀ x, v.ret.cands[i]? = some x → x.waiting = false) ∧ ∀ i ∉ l, v.ret.cands[i]? = q.ret.cands[i]? := by
  induction l generalizing s q with
  | nil => exact ⟨q, hq, rfl, rfl, rfl, rfl, nofun, fun _ _ => rfl⟩
  | cons a l ih =>
    obtain ⟨ha, hl⟩ := List.nodup_cons.mp hl
    have hlate_a := hlate a (.head _)
    obtain ⟨c, hc⟩ : ∃ c, q.ret.cands[a]? = some c := by
      cases hx : q.ret.cands[a]? with
      | none => simp [hx] at hlate_a
      | some c => exact ⟨c, rfl⟩
    have hdrop : reqOf (dropCand s h a) h = some (withDropped q a c) := by rw [dropCand_of_open hq hc, reqOf_setReq, if_pos rfl]
    have hother : ∀ i, i ≠ a → (withDropped q a c).ret.cands[i]? = q.ret.cands[i]? := fun i hi => List.getElem?_set_ne (Ne.symm hi)
    have hlate' : ∀ i ∈ l, ((withDropped q a c).ret.cands[i]?).any (·.waiting) = true := fun i hi => by
      rw [hother i (ne_of_mem_of_not_mem hi ha)]
      exact hlate i (.tail _ hi)
    obtain ⟨v, hv, hcount, hcancel, hsnap, hlen, hdropped, hkept⟩ := ih hdrop hl hlate'
    refine ⟨v, hv, hcount.trans ?_, hcancel, hsnap, hlen.trans List.length_set, fun i hi x hx => ?_, fun i hi => ?_⟩
    · show q.candDropped + 1 + l.length = q.candDropped + (l.length + 1)
      omega
    · rcases List.mem_cons.mp hi with rfl | hi
      · rw [hkept i ha] at hx
        obtain ⟨hlt, -⟩ := List.getElem?_eq_some_iff.mp hc
        rw [show (withDropped q i c).ret.cands[i]? = _ from List.getElem?_set_self hlt] at hx
        cases hx
        rfl
      · exact hdropped i hi x hx
    · obtain ⟨hia, hi⟩ := not_or.mp (fun hmem => hi (List.mem_cons.mpr hmem))
      rw [hkept i hi, hother i hia]

theorem foldl_dropCand_frame (l : List Nat) (s : State) (h : Nat) :
    (l.foldl (fun s i => dropCand s h i) s).store = s.store ∧ (l.foldl (fun s i => dropCand s h i) s).flash = s.flash := by
  induction l generalizing s with
  | nil => exact ⟨rfl, rfl⟩
  | cons a l ih =>
    obtain ⟨hstore, hflash⟩ := ih (dropCand s h a)
    exact ⟨hstore.trans (by simp [dropCand]), hflash.trans (by simp [dropCand])⟩

/-- The places of the candidates that wait. -/
def lateCands (q : Request) : List Nat := (List.range q.ret.cands.length).filter fun i => (q.ret.cands[i]?).any (·.waiting)

theorem length_filter_getElem? {α : Type} (p : α → Bool) (l : List α) :
    ((List.range l.length).filter fun i => (l[i]?).any p).length = (l.filter p).length := by
  induction l with
  | nil => rfl
  | cons a l ih =>
    rw [List.length_cons, List.range_succ_eq_map, List.filter_cons, List.filter_map, List.filter_cons]
    have hrest : ((fun i => ((a :: l)[i]?).any p) ∘ Nat.succ) = fun i => (l[i]?).any p := by
      funext i
      simp
    rw [hrest]
    cases hp : p a <;> simp [hp, ih]

theorem fetchBudget_of_early {a : BitVec 48} (hq : reqOf s h = some q) (hf : q.ret.fetchAt = some a) (he : since a (now s) < q.block.readBudget) :
    fetchBudget s h = s := by
  unfold fetchBudget
  simp [hq, hf, he]

theorem fetchBudget_of_late {a : BitVec 48} (hq : reqOf s h = some q) (hp : q.phase = .fetch) (hc : q.cancel = false) (hf : q.ret.fetchAt = some a)
    (hb : q.block.readBudget ≤ since a (now s)) (hsnap : q.ret.snap = none) :
    ∃ v, reqOf (fetchBudget s h) h = some v ∧ v.phase = .rerank ∧ v.candDropped = q.candDropped + (q.ret.cands.filter (·.waiting)).length
      ∧ (∀ x ∈ v.ret.cands, x.waiting = false) ∧ (fetchBudget s h).store = s.store ∧ (fetchBudget s h).flash = s.flash := by
  have hrun : fetchBudget s h = fetchEnds ((lateCands q).foldl (fun s i => dropCand s h i) s) h := by
    unfold fetchBudget
    simp only [hq, hf, hp]
    exact if_neg (by simpa using hb)
  obtain ⟨v, hv, hcount, hcancel, hvsnap, hlen, hdropped, hkept⟩ := foldl_dropCand (lateCands q) hq (List.nodup_range.filter _)
    fun i hi => (List.mem_filter.mp hi).2
  obtain ⟨hstore, hflash⟩ := foldl_dropCand_frame (lateCands q) s h
  generalize (lateCands q).foldl (fun s i => dropCand s h i) s = s' at *
  have hnone : ∀ x ∈ v.ret.cands, x.waiting = false := fun x hx => by
    obtain ⟨i, hi⟩ := List.mem_iff_getElem?.mp hx
    by_cases hlate : i ∈ lateCands q
    · exact hdropped i hlate x hi
    · rw [hkept i hlate] at hi
      obtain ⟨hlt, -⟩ := List.getElem?_eq_some_iff.mp hi
      by_contra hwait
      exact hlate (List.mem_filter.mpr ⟨List.mem_range.mpr hlt, by rw [hi]; simpa using hwait⟩)
  have hends : fetchEnds s' h = setReq (phaseEnds s' h) h { v with phase := .rerank } := by
    unfold fetchEnds
    rw [hv]
    simp only []
    rw [if_neg (by simpa using hnone)]
    have hrelease : releaseSnap s' h = s' := by
      unfold releaseSnap
      simp only [hv, hvsnap, hsnap]
    rw [hrelease, toPhase_of_open hv (hcancel.trans hc)]
  rw [hrun, hends]
  refine ⟨_, reqOf_setReq_same .., rfl, hcount.trans (congrArg _ (length_filter_getElem? _ _)), hnone, ?_, ?_⟩
  · exact hstore
  · exact hflash

/-- Settles O23: a judged block gives its candidate the block or drops it; the unit's tile takes the first free slot of the pool. -/
theorem passageFetchJudgesBlocks : Obligations.PassageFetchJudgesBlocks := by
  unfold Obligations.PassageFetchJudgesBlocks
  intro s h i j q r c tl at' hq hr hp hcancel n b taken dropped good drop
  refine ⟨fun hw hf => congrArg Host.Outcome.next (passageFetch_of_waiting hq hp hw hf), ?_, fun hf => ⟨?_, ?_⟩⟩
  · rintro hf hc hw ⟨k, x, hk, hx, hxw⟩ hread
    refine ⟨fun hj => ?_, fun hj hi => ?_, fun hj hi => congrArg Host.Outcome.next (passageArrive_of_full hq hr hp hf hc hw hread hj hi)⟩
    · have hrun := passageArrive_of_held hq hr hp hf hc hw hread hj
      refine ⟨fun hgood => ?_, fun hv => ?_, fun k hv hk => ?_⟩
      · refine congrArg Host.Outcome.next (hrun.trans ?_)
        rw [judgeBlock_of_good hq hc hgood]
        exact fetchEnds_of_waiting (reqOf_setReq_same ..) (waiting_set hk hx hxw)
      · refine congrArg Host.Outcome.next (hrun.trans ?_)
        rw [judgeBlock_of_invalid hq hc hv]
        exact fetchEnds_of_waiting (reqOf_setReq_same ..) (waiting_set ‹_› hx hxw)
      · refine congrArg Host.Outcome.next (hrun.trans ?_)
        rw [judgeBlock_of_mismatch hq hc hv hk]
        exact fetchEnds_of_waiting (by rw [reqOf_logEvent]; exact reqOf_setReq_same ..) (waiting_set ‹_› hx hxw)
    · have hstored := unitTile_of_free (tl := tl) hq hj hi
      have hrun : passageArrive s h i true = fetchEnds (judgeBlock (unitStored s h n q tl j) h i q c b j) h := by
        rw [passageArrive_of_read hq hr hp hf hc hw hread, hstored]
      have hq' : reqOf (unitStored s h n q tl j) h = some { q with ret := { q.ret with unitTiles := mins q.ret.unitTiles n j } } :=
        reqOf_setReq_same ..
      have hflash : (unitStored s h n q tl j).flash = s.flash := by simp [unitStored]
      refine ⟨_, rfl, ?_⟩
      rw [hrun]
      by_cases hgood : goodBlock q c b
      · have hjudged := judgeBlock_of_good (j := j) (q₀ := q) hq' hc hgood
        have hends : fetchEnds (judgeBlock (unitStored s h n q tl j) h i q c b j) h = judgeBlock (unitStored s h n q tl j) h i q c b j :=
          fetchEnds_of_waiting (by rw [hjudged]; exact reqOf_setReq_same ..) (waiting_set hk hx hxw)
        rw [hends, hjudged]
        exact ⟨_, reqOf_setReq_same .., rfl, fun _ => ⟨rfl, rfl⟩, fun hbad => absurd hgood hbad,
          fun hs => slotOf_unitStored_same (h := h) (q := q) hs hi, fun y hy => slotOf_unitStored_other s h n q tl hy, hflash⟩
      · obtain ⟨hjudged, hstore, hjflash⟩ := judgeBlock_of_bad (j := j) (q₀ := q) hq' hc hgood
        have hends : fetchEnds (judgeBlock (unitStored s h n q tl j) h i q c b j) h = judgeBlock (unitStored s h n q tl j) h i q c b j :=
          fetchEnds_of_waiting hjudged (waiting_set hk hx hxw)
        rw [hends]
        have hslot := slotOf_congr (congrArg StoreState.slots hstore)
        refine ⟨_, hjudged, rfl, fun hg => absurd hg hgood, fun _ => ⟨rfl, rfl, rfl⟩, fun hs => ?_, fun y hy => ?_, hjflash.trans hflash⟩
        · rw [hslot]
          exact slotOf_unitStored_same hs hi
        · rw [hslot]
          exact slotOf_unitStored_other s h n q tl hy
  · exact fun he => congrArg Host.Outcome.next (fetchBudget_of_early hq hf he)
  · exact fun hb hsnap => ⟨_, rfl, fetchBudget_of_late hq hp hcancel hf hb hsnap⟩

end Sys2Proof.Machine

/-! # What a turn's retrieval reads

A phase of a turn changes the turn's own request; what its centroids, vectors, and codebooks read stays. -/

namespace Sys2Proof.Machine

variable {s t v : State} {h : Nat} {q : Request} {α : Type}

/-- From s to t only request h changes, and counters. -/
structure OnlyTurn (h : Nat) (s t : State) : Prop where
  others : ∀ k, k ≠ h → reqOf t k = reqOf s k
  store : t.store = s.store
  tier : t.tier = s.tier
  flash : t.flash = s.flash
  text : t.text = s.text

namespace OnlyTurn

theorem refl (h : Nat) (s : State) : OnlyTurn h s s := ⟨fun _ _ => rfl, rfl, rfl, rfl, rfl⟩

theorem trans (ha : OnlyTurn h s t) (hb : OnlyTurn h t v) : OnlyTurn h s v :=
  ⟨fun k hk => (hb.others k hk).trans (ha.others k hk), hb.store.trans ha.store, hb.tier.trans ha.tier, hb.flash.trans ha.flash, hb.text.trans ha.text⟩

theorem setReq (s : State) (h : Nat) (q : Request) : OnlyTurn h s (setReq s h q) :=
  ⟨fun k hk => by rw [reqOf_setReq, if_neg hk], rfl, rfl, rfl, rfl⟩

theorem modReq (s : State) (h : Nat) (f : Request → Request) : OnlyTurn h s (modReq s h f) := by
  unfold Machine.modReq
  split
  · exact refl h s
  · exact setReq ..

theorem readUnit_eq (ht : OnlyTurn h s t) (u : Nat) : readUnit t u = readUnit s u := by
  simp only [readUnit, mapOf, pageAt, fblkOf, entryPos, ppb, ht.flash]

theorem tileAt_eq (ht : OnlyTurn h s t) (p : BitVec 2 × Nat) : tileAt t p = tileAt s p := by
  simp only [tileAt, slotOf, lTile, ht.store, ht.tier, ht.readUnit_eq]
  rfl

theorem devTile_eq (ht : OnlyTurn h s t) (n : Nat) : devTile t n = devTile s n := by
  unfold devTile
  rw [entryOf_tier ht.tier]
  simp only [ht.tileAt_eq]

theorem sameTables (ht : OnlyTurn h s t) : SameTables s t := ⟨ht.devTile_eq, congrArg TextState.sets ht.text⟩

theorem devRead_eq (ht : OnlyTurn h s t) (a n : Nat) : devRead t a n = devRead s a n := ht.sameTables.devRead_eq a n

theorem devNum_eq (ht : OnlyTurn h s t) (a n : Nat) : devNum t a n = devNum s a n := by
  unfold devNum
  rw [ht.devRead_eq]

theorem scanScore_eq (ht : OnlyTurn h s t) (r : IndexRec) (p : Probe) (e : Bytes) : scanScore t r p e = scanScore s r p e := by
  simp only [scanScore, lutEntry, subCentroid, ht.devRead_eq]

end OnlyTurn

/-! # The scan (R172 to R177) -/

section
variable {k u shelf n pos : Nat} {r : IndexRec} {p : Probe} {e : Bytes} {i : TileIdx} {tl : Tile}

/-! ## Entries -/

/-- The query's own entries that its filter and snapshot let through (R172, R185). -/
def offers (q : Request) (p : Probe) (e : Bytes) : Bool :=
  decide (rd e 0 8 % 512 = q.fn.toNat) && filterPasses q.block.filter (rd e 0 8) && visible e (q.ret.snap.getD 0).toNat p.tombs

/-- What an entry at a position adds to its shelf engine's selection. -/
def offer (s : State) (r : IndexRec) (p : Probe) (pos : Nat) (e : Bytes) : Nat × Word × BitVec 40 := (pos, scanScore s r p e, BitVec.ofNat 40 (rd e 8 5))

/-- From request q to v entries reach a shelf engine: the skipped are counted, and the offered appended. -/
structure Offered (q v : Request) (shelf skipped : Nat) (new : List (Nat × Word × BitVec 40)) : Prop where
  skips : v.ret.tenantSkips = q.ret.tenantSkips + skipped
  offered : mget [] v.ret.offered shelf = mget [] q.ret.offered shelf ++ new
  probes : v.ret.probes = q.ret.probes
  offers : ∀ p e, offers v p e = offers q p e
  fn : v.fn = q.fn

theorem offerEntry_spec (hq : reqOf s h = some q) : ∃ v, reqOf (offerEntry s h shelf r p pos e) h = some v
    ∧ OnlyTurn h s (offerEntry s h shelf r p pos e)
    ∧ Offered q v shelf (if rd e 0 8 % 512 ≠ q.fn.toNat then 1 else 0) (if offers q p e then [offer s r p pos e] else []) := by
  unfold offerEntry
  rw [hq]
  dsimp only
  by_cases hfn : rd e 0 8 % 512 ≠ q.fn.toNat
  · have hno : offers q p e = false := by simp [offers, hfn]
    rw [if_pos hfn, if_pos hfn, modReq_of_open (s := { s with shelfSkips := mcount s.shelfSkips shelf 1 }) hq, hno]
    exact ⟨_, reqOf_setReq_same .., ⟨fun k hk => by rw [reqOf_setReq, if_neg hk]; rfl, rfl, rfl, rfl, rfl⟩,
      rfl, by simp, rfl, fun _ _ => rfl, rfl⟩
  · rw [if_neg hfn, if_neg hfn]
    have hoffers : offers q p e = (filterPasses q.block.filter (rd e 0 8) && visible e (q.ret.snap.getD 0).toNat p.tombs) := by
      simp [offers, not_not.mp hfn]
    rw [← hoffers]
    cases ho : offers q p e
    · exact ⟨q, hq, .refl h s, rfl, by simp, rfl, fun _ _ => rfl, rfl⟩
    · simp only [if_true]
      rw [modReq_of_open hq]
      exact ⟨_, reqOf_setReq_same .., .setReq .., rfl, by simp [offer], rfl, fun _ _ => rfl, rfl⟩

/-- Entries of one unit, offered in order. -/
theorem foldl_offerEntry (place : α → Nat) (ent : α → Bytes) (l : List α) (hq : reqOf s h = some q) :
    ∃ v, reqOf (l.foldl (fun s x => offerEntry s h shelf r p (place x) (ent x)) s) h = some v
    ∧ OnlyTurn h s (l.foldl (fun s x => offerEntry s h shelf r p (place x) (ent x)) s)
    ∧ Offered q v shelf (l.filter fun x => decide (rd (ent x) 0 8 % 512 ≠ q.fn.toNat)).length
      ((l.filter fun x => offers q p (ent x)).map fun x => offer s r p (place x) (ent x)) := by
  induction l generalizing s q with
  | nil => exact ⟨q, hq, .refl h s, rfl, (List.append_nil _).symm, rfl, fun _ _ => rfl, rfl⟩
  | cons a l ih =>
    obtain ⟨v, hv, hturn, hskips, hoff, hprobes, hoffers, hfn⟩ := offerEntry_spec (shelf := shelf) (r := r) (p := p) (pos := place a) (e := ent a) hq
    obtain ⟨w, hw, hturn', hskips', hoff', hprobes', hoffers', hfn'⟩ := ih hv
    have hscore : ∀ x, offer (offerEntry s h shelf r p (place a) (ent a)) r p (place x) (ent x) = offer s r p (place x) (ent x) := fun x => by
      unfold offer
      rw [hturn.scanScore_eq]
    refine ⟨w, hw, hturn.trans hturn', ?_, ?_, hprobes'.trans hprobes, fun p e => (hoffers' p e).trans (hoffers p e), hfn'.trans hfn⟩
    · rw [hskips', hskips, hfn, List.filter_cons]
      by_cases ha : rd (ent a) 0 8 % 512 ≠ q.fn.toNat
      · rw [if_pos ha, if_pos (decide_eq_true ha), List.length_cons]
        omega
      · rw [if_neg ha, if_neg (by simpa using ha)]
        rfl
    · rw [hoff', hoff, List.filter_cons]
      simp only [hoffers, hscore]
      cases offers q p (ent a)
      · simp
      · simp

/-! ## A unit arrives (R173, R175) -/

theorem reqOf_modProbe (hq : reqOf s h = some q) (f : Probe → Probe) :
    reqOf (modProbe s h k f) h = some { q with ret := { q.ret with probes := q.ret.probes.modify k f } } := reqOf_modReq_same hq _

theorem getElem?_modify_same {l : List Probe} (hp : l[k]? = some p) (f : Probe → Probe) : (l.modify k f)[k]? = some (f p) := by
  simp [hp]

/-- While the tombstone chain is not whole the entries are held back. -/
theorem arriveEntries_of_chained (hq : reqOf s h = some q) (hp : q.ret.probes[k]? = some p) (hc : p.tombTiles ≠ []) (es : List Bytes) :
    ∃ xs : List (Nat × Bytes), xs.length = es.length ∧ arriveEntries s h k r u es = modProbe s h k fun p => { p with held := p.held ++ xs } := by
  refine ⟨_, ?_, by unfold arriveEntries; simp only [hq, Option.bind_some, hp]; exact if_pos hc⟩
  simp

theorem arriveEntries_of_whole (hq : reqOf s h = some q) (hp : q.ret.probes[k]? = some p) (hc : p.tombTiles = []) (hu : u < 2 ^ 17) (es : List Bytes) :
    arriveEntries s h k r u es = ((List.range es.length).zip es).foldl
      (fun s x => offerEntry s h (unitShelf p u) r p (entryPosKey k u x.1) x.2) s := by
  unfold arriveEntries
  simp only [hq, Option.bind_some, hp]
  rw [if_neg (not_not.mpr hc), if_pos hu, List.foldl_map]

theorem length_filter_zip (es : List Bytes) (f : Bytes → Bool) :
    (((List.range es.length).zip es).filter fun x => f x.2).length = (es.filter f).length := by
  have hsnd : ((List.range es.length).zip es).map Prod.snd = es := List.map_snd_zip (by simp)
  conv_rhs => rw [← hsnd, List.filter_map, List.length_map]
  rfl

/-- A unit's arrival, once it has left the units that the probe waits for. -/
theorem unitArrive_eq (hq : reqOf s h = some q) (hr : indexOf s q.block.index = some r) (hphase : q.phase = .scan) (hp : q.ret.probes[k]? = some p)
    (hu : u ∈ p.units) (ho : shelfOpen q (unitShelf p u) = true)
    (hread : readOrCopy s (p.base + u) true (fun t => trailerOk p.list p.gen.toNat u t.payload) = some tl) :
    unitArrive s h k u true = arriveEntries (modProbe s h k fun p => { p with units := without u p.units }) h k r u (unitEntries r tl.payload) := by
  unfold unitArrive
  simp only [hq, hp, hr]
  rw [if_neg (by simp [hphase, hu, ho]), hread]

theorem unitArrive_spec (hq : reqOf s h = some q) (hr : indexOf s q.block.index = some r) (hphase : q.phase = .scan) (hp : q.ret.probes[k]? = some p)
    (hu : u ∈ p.units) (hlt : u < 2 ^ 17) (ho : shelfOpen q (unitShelf p u) = true)
    (hread : readOrCopy s (p.base + u) true (fun t => trailerOk p.list p.gen.toNat u t.payload) = some tl) :
    ∃ v y, reqOf (unitArrive s h k u true) h = some v ∧ v.ret.probes[k]? = some y ∧ y.units = without u p.units
      ∧ (p.tombTiles ≠ [] → y.held.length = p.held.length + (unitEntries r tl.payload).length ∧ v.ret.offered = q.ret.offered)
      ∧ (p.tombTiles = [] → y.held = p.held
        ∧ v.ret.tenantSkips = q.ret.tenantSkips + ((unitEntries r tl.payload).filter fun e => decide (rd e 0 8 % 512 ≠ q.fn.toNat)).length
        ∧ mget [] v.ret.offered (unitShelf p u) = mget [] q.ret.offered (unitShelf p u)
          ++ (((List.range (unitEntries r tl.payload).length).zip (unitEntries r tl.payload)).filter fun x => offers q p x.2).map
              fun x => offer s r p (entryPosKey k u x.1) x.2)
      ∧ OnlyTurn h s (unitArrive s h k u true) := by
  rw [unitArrive_eq hq hr hphase hp hu ho hread]
  generalize hs₁ : modProbe s h k (fun p => { p with units := without u p.units }) = s₁
  have hq₁ : reqOf s₁ h = some { q with ret := { q.ret with probes := q.ret.probes.modify k fun p => { p with units := without u p.units } } } := by
    rw [← hs₁]
    exact reqOf_modProbe hq _
  have hturn : OnlyTurn h s s₁ := by
    rw [← hs₁]
    exact .modReq ..
  have hp₁ := getElem?_modify_same hp fun p => { p with units := without u p.units }
  by_cases hc : p.tombTiles = []
  · rw [arriveEntries_of_whole hq₁ hp₁ hc hlt]
    obtain ⟨v, hv, hturn', hskips, hoff, hprobes, -, -⟩ := foldl_offerEntry (shelf := unitShelf p u) (r := r)
      (p := { p with units := without u p.units }) (fun x : Nat × Bytes => entryPosKey k u x.1) (fun x => x.2)
      ((List.range (unitEntries r tl.payload).length).zip (unitEntries r tl.payload)) hq₁
    refine ⟨v, { p with units := without u p.units }, hv, (congrArg (·[k]?) hprobes).trans hp₁, rfl, fun hne => absurd hc hne, fun _ => ⟨rfl, ?_, ?_⟩, hturn.trans hturn'⟩
    · exact hskips.trans (congrArg _ (length_filter_zip _ fun e => decide (rd e 0 8 % 512 ≠ q.fn.toNat)))
    · refine hoff.trans (congrArg _ (List.map_congr_left fun x _ => ?_))
      unfold offer
      rw [hturn.scanScore_eq]
      rfl
  · obtain ⟨xs, hxs, harrive⟩ := arriveEntries_of_chained (u := u) (r := r) hq₁ hp₁ hc (unitEntries r tl.payload)
    rw [harrive]
    refine ⟨_, _, reqOf_modProbe hq₁ _, getElem?_modify_same hp₁ _, rfl, fun _ => ⟨?_, rfl⟩, fun h => absurd h hc, hturn.trans (.modReq ..)⟩
    show (p.held ++ xs).length = _
    rw [List.length_append, hxs]

/-! ## A tile of the tombstone chain arrives (R164, R175) -/

/-- The chain's tile as its channel unit stores it. -/
def chainCopy (tl : Tile) (n : Nat) : Tile := { tl with hdr := { storedHeader tl.hdr with srcValid := true, srcTile := BitVec.ofNat 34 n } }

/-- The probe once a tombstone tile is read. -/
def withTombs (b : Bytes) (p : Probe) : Probe := { p with tombTiles := p.tombTiles.tail, tombs := p.tombs ++ tombRecords b }

theorem chainArrive_of_tomb {x : ExtentEntry} (hq : reqOf s h = some q) (hr : indexOf s q.block.index = some r) (hphase : q.phase = .scan)
    (hp : q.ret.probes[k]? = some p) (hn : p.tombTiles.head? = some n) (hmore : 1 < p.tombTiles.length) (hcut : q.ret.cutSent = false)
    (hread : chainRead s n = (s, .ok, some (x, tl))) (hi : freeConductor s = some i) : chainArrive s h k n =
      modProbe (setReq (writeTile s (channelDie (readPlace x (devPos n)).2) i (passing (chainCopy tl n)) false) h
        { q with ret := { q.ret with scanTiles := q.ret.scanTiles ++ [i] } }) h k (withTombs tl.payload) := by
  unfold chainArrive
  simp only [hq, hp, hr]
  rw [if_neg (by simp [hphase, hn, hcut]), hread]
  dsimp only
  have hput := scanPut_single hq hi (channelDie (readPlace x (devPos n)).2) (chainCopy tl n)
  unfold chainCopy at hput
  rw [hput]
  dsimp only
  unfold chainTaken
  rw [if_pos (by simp [hn, hcut]), if_neg (by omega)]
  rfl

theorem slotOf_chainCopy (hs : shapeOk tl.hdr.format tl.hdr.rows.toNat tl.hdr.cols.toNat = true) (hi : freeConductor s = some i) (src : DieId) :
    (slotOf (writeTile s src i (passing (chainCopy tl n)) false) i).payload = tl.payload
    ∧ (slotOf (writeTile s src i (passing (chainCopy tl n)) false) i).hdr.owner = 0x3E
    ∧ (slotOf (writeTile s src i (passing (chainCopy tl n)) false) i).hdr.persist = true := by
  rw [slotOf_passing (tl := chainCopy tl n) hs hi]
  exact ⟨rfl, rfl, rfl⟩

end

end Sys2Proof.Machine

/-! # The scan ends: cuts, shelf lists, and their merge (R173 to R177) -/

namespace Sys2Proof.Machine

variable {s t : State} {h k u shelf n : Nat} {q : Request} {r : IndexRec} {p : Probe} {i : TileIdx} {tl : Tile} {a : BitVec 48}

/-! ## Budget and deadline -/

/-- The request once its shelf engines are sent a cut. -/
def withCut (q : Request) : Request := { q with flags := q.flags ||| flagPartialProbe, ret := { q.ret with cutSent := true } }

theorem sendCut_of_open (hq : reqOf s h = some q) : sendCut s h = setReq s h (withCut q) := modReq_of_open hq _

section
variable (hq : reqOf s h = some q) (hp : q.phase = .scan) (ha : q.ret.scanAt = some a) (hc : q.ret.cutSent = false) (hu : scanUnread q = true)
include hq hp ha hc hu

theorem scanBudget_eq : scanBudget s h = if q.block.readBudget ≤ since a (now s) then setReq s h (withCut q) else s := by
  unfold scanBudget
  rw [hq]
  dsimp only
  rw [ha]
  dsimp only
  rw [hp, hc, hu, sendCut_of_open hq]
  simp

theorem softDeadline_of_passed (hd : passed s q.block.softDeadline = true) (hlt : a.toNat < q.block.softDeadline) :
    softDeadline s h = setReq s h (withCut q) := by
  unfold softDeadline
  rw [hq]
  dsimp only
  rw [ha]
  dsimp only
  rw [if_pos (by simp [hp, hc, hu, hd, hlt]), sendCut_of_open hq]

end

/-! ## The list of a shelf engine (R147, R173) -/

theorem shapeOk_selectTile (tn : Tenant) (l : SelList) (n : Nat) :
    shapeOk (selectTile tn l n).hdr.format (selectTile tn l n).hdr.rows.toNat (selectTile tn l n).hdr.cols.toNat = true := shapeOk_select ..

theorem freeConductor_drawn (s : State) : freeConductor { s with free := s.free + 1 } = freeConductor s := freeConductor_congr rfl

/-- The state once a shelf engine has written its list. -/
def listWritten (s : State) (h shelf : Nat) (q : Request) (r : IndexRec) (i : TileIdx) : State :=
  setReq (setReq (writeTile { s with free := s.free + 1 } (shelfBlock shelf).die i
      (passing (selectTile q.fn (shelfList r shelf (mget [] q.ret.offered shelf)) s.free)) false) h
    { q with ret := { q.ret with scanTiles := q.ret.scanTiles ++ [i] } }) h
    { q with ret := { q.ret with scanTiles := q.ret.scanTiles ++ [i]
                                 shelfOut := mins q.ret.shelfOut shelf (shelfList r shelf (mget [] q.ret.offered shelf)) } }

theorem shelfWrites_of_free (hq : reqOf s h = some q) (hr : indexOf s q.block.index = some r) (hi : freeConductor s = some i) :
    shelfWrites s h shelf = some (listWritten s h shelf q r i) := by
  unfold shelfWrites
  rw [hq, Option.bind_some, hr, Option.bind_some]
  dsimp only
  rw [scanPut_single (s := { s with free := s.free + 1 }) hq ((freeConductor_drawn s).trans hi), Option.map_some, modReq_of_open (reqOf_setReq_same ..)]
  rfl

/-- The request once shelf's list is in the tile i. -/
def withList (q : Request) (r : IndexRec) (shelf : Nat) (i : TileIdx) : Request :=
  { q with ret := { q.ret with scanTiles := q.ret.scanTiles ++ [i]
                               shelfOut := mins q.ret.shelfOut shelf (shelfList r shelf (mget [] q.ret.offered shelf)) } }

theorem reqOf_listWritten (s : State) (h shelf : Nat) (q : Request) (r : IndexRec) (i : TileIdx) :
    reqOf (listWritten s h shelf q r i) h = some (withList q r shelf i) := reqOf_setReq_same ..

theorem selectTile_payload (tn : Tenant) (l : SelList) (n : Nat) : (selectTile tn l n).payload = pad 16384 (l.bytes n) := by
  simp only [selectTile, Tile.sealed]

theorem shelfCuts_listWritten (s : State) (h shelf : Nat) (q : Request) (r : IndexRec) (i : TileIdx) :
    (listWritten s h shelf q r i).shelfCuts = s.shelfCuts := by simp [listWritten]

theorem slotOf_listWritten (hi : freeConductor s = some i) : (slotOf (listWritten s h shelf q r i) i).hdr.state = .ready
    ∧ (slotOf (listWritten s h shelf q r i) i).hdr.format = 0x11
    ∧ (slotOf (listWritten s h shelf q r i) i).payload = pad 16384 ((shelfList r shelf (mget [] q.ret.offered shelf)).bytes s.free) := by
  have hslot : slotOf (listWritten s h shelf q r i) i = slotOf (writeTile { s with free := s.free + 1 } (shelfBlock shelf).die i
      (passing (selectTile q.fn (shelfList r shelf (mget [] q.ret.offered shelf)) s.free)) false) i := slotOf_congr rfl i
  rw [hslot, slotOf_passing (s := { s with free := s.free + 1 }) (shapeOk_selectTile ..) ((freeConductor_drawn s).trans hi)]
  refine ⟨rfl, rfl, ?_⟩
  simp only [selectTile_payload]

theorem slotOf_listWritten_other {y : TileIdx} (hy : y ≠ i) : slotOf (listWritten s h shelf q r i) y = slotOf s y :=
  (slotOf_congr rfl y).trans (slotOf_writeTile_of_ne { s with free := s.free + 1 } _ _ _ hy)

theorem shelfEnd_of_done (hq : reqOf s h = some q) (hr : indexOf s q.block.index = some r) (hp : q.phase = .scan) (ha : q.ret.scanAt.isSome = true)
    (ho : shelfOpen q shelf = true) (hs : shelf < 32) (hi : freeConductor s = some i) (hb : shelfBusy q shelf = false) :
    shelfEnd s h shelf = listWritten s h shelf q r i := by
  unfold shelfEnd
  rw [hq]
  dsimp only
  rw [if_pos (by simp [hp, ha, ho, hs, hb]), shelfWrites_of_free hq hr hi]
  rfl

theorem scanCut_of_cut (hq : reqOf s h = some q) (hr : indexOf s q.block.index = some r) (hp : q.phase = .scan) (ho : shelfOpen q shelf = true)
    (hs : shelf < 32) (hi : freeConductor s = some i) (hc : q.ret.cutSent = true) :
    ∃ v, reqOf (scanCut s h shelf) h = some v ∧ shelf ∈ v.ret.cutDone
      ∧ mfind v.ret.shelfOut shelf = some (shelfList r shelf (mget [] q.ret.offered shelf))
      ∧ mget 0 (scanCut s h shelf).shelfCuts shelf = mget 0 s.shelfCuts shelf + 1 ∧ v.ret.scanTiles.length = q.ret.scanTiles.length + 1 := by
  unfold scanCut
  rw [hq]
  dsimp only
  rw [if_pos (by simp [hp, hc, ho, hs]), shelfWrites_of_free hq hr hi]
  dsimp only [Option.elim]
  generalize hw : listWritten s h shelf q r i = w
  have hq' : reqOf w h = some (withList q r shelf i) := by rw [← hw, reqOf_listWritten]
  have hcuts : w.shelfCuts = s.shelfCuts := by rw [← hw, shelfCuts_listWritten]
  refine ⟨_, reqOf_modReq_same (s := { w with shelfCuts := mcount w.shelfCuts shelf 1 }) hq' _, .head _, by simp [withList], ?_, by simp [withList]⟩
  simp [hcuts, mcount]

/-! ## The merge (R177) -/

theorem scanOver_of_open (hq : reqOf s h = some q) :
    reqOf (scanOver s h) h = some { q with listsCut := (q.ret.probes.filter probeUnread).length } := by
  unfold scanOver
  rw [hq]
  dsimp only
  refine reqOf_modReq_same (q := q) ?_ _
  split
  · rw [reqOf_logEvent]
    exact hq
  · exact hq

theorem reqOf_freePassing (s : State) (ts : List TileIdx) (k : Nat) : reqOf (freePassing s ts) k = reqOf s k := reqOf_congr (by simp) k

theorem freeScan_of_open (hq : reqOf s h = some q) : reqOf (freeScan s h) h = some { q with ret := { q.ret with scanTiles := [] } } := by
  unfold freeScan
  rw [hq]
  exact reqOf_modReq_same ((reqOf_freePassing ..).trans hq) _

theorem mergeCandidates_of_turn (hq : reqOf s h = some q) (hr : indexOf s q.block.index = some r) (hp : q.phase = .scan)
    (hn : 32 ≤ q.ret.shelfOut.length) (hd : (candidateMerge q r).dupMismatch = false) (ho : q.op = .turn) (hc : q.cancel = false) :
    ∃ v, reqOf (mergeCandidates s h) h = some v ∧ v.phase = .fetch ∧ v.ret.merged = some (candidateMerge q r)
      ∧ v.ret.cands = ((candidateMerge q r).entries.map fun e => { pid := e.2.1, score := e.2.2 })
      ∧ v.listsCut = (q.ret.probes.filter probeUnread).length ∧ v.ret.scanTiles = [] ∧ (mergeCandidates s h).flash = s.flash := by
  unfold mergeCandidates
  rw [hq]
  dsimp only
  rw [hr]
  dsimp only
  rw [if_neg (by simpa [hp] using hn), if_neg (by simp [hd]), if_neg (by simp [ho])]
  have hmerged := reqOf_modReq_same (freeScan_of_open (scanOver_of_open hq)) fun q' : Request => { q' with
    flags := if (candidateMerge q r).approx then q'.flags ||| flagApprox else q'.flags
    ret := { q'.ret with merged := some (candidateMerge q r)
                         cands := (candidateMerge q r).entries.map fun e => { pid := e.2.1, score := e.2.2 } } }
  rw [toPhase_of_open hmerged hc]
  refine ⟨_, reqOf_setReq_same .., rfl, rfl, rfl, rfl, rfl, ?_⟩
  simp

/-- Settles O22: entries reach their shelf engine one by one (`foldl_offerEntry`), every tile of the scan takes the first free slot of the pool, and
the merge follows the 32 lists. -/
theorem theScanOffersEntries : Obligations.TheScanOffersEntries := by
  unfold Obligations.TheScanOffersEntries
  intro s h k u shelf n q r p tl e at' hq hr hphase hat
  refine ⟨fun hp hu hlt ho hread => ?_, fun hp hn hmore hcut hread hfree => ?_, fun hcut hunread => ⟨fun hb => ?_, fun hb => ?_, fun hd hlt => ?_⟩,
    fun ho hlt hfree => ⟨fun hcut => ?_, fun hbusy => ?_⟩, fun hlen hdup hop hcancel => ?_⟩
  · obtain ⟨v, y, hv, hy, hunits, hheld, hoffered, hturn⟩ := unitArrive_spec hq hr hphase hp hu hlt ho hread
    exact ⟨_, rfl, v, y, hv, hy, hunits, hheld, hoffered, hturn.others, hturn.store, hturn.flash, hturn.tier⟩
  · obtain ⟨i, hi⟩ := Option.isSome_iff_exists.mp hfree
    have hrun := chainArrive_of_tomb hq hr hphase hp hn hmore hcut hread hi
    refine ⟨_, congrArg Host.Outcome.next hrun, _, _, i, reqOf_modProbe (reqOf_setReq_same ..) _, getElem?_modify_same hp _, rfl, rfl, rfl, rfl, hi,
      rfl, fun hs => ?_, ?_⟩
    · have hslot : ∀ t, slotOf (modProbe (setReq t h { q with ret := { q.ret with scanTiles := q.ret.scanTiles ++ [i] } }) h k (withTombs tl.payload)) i =
          slotOf t i := fun t => slotOf_congr (by simp [modProbe]) i
      rw [hslot]
      exact slotOf_chainCopy hs hi _
    · simp [modProbe]
  · exact congrArg Host.Outcome.next ((scanBudget_eq hq hphase hat hcut hunread).trans (if_pos hb))
  · exact congrArg Host.Outcome.next ((scanBudget_eq hq hphase hat hcut hunread).trans (if_neg (not_le.mpr hb)))
  · exact congrArg Host.Outcome.next (softDeadline_of_passed hq hphase hat hcut hunread hd hlt)
  · obtain ⟨i, hi⟩ := Option.isSome_iff_exists.mp hfree
    exact ⟨_, rfl, scanCut_of_cut hq hr hphase ho hlt hi hcut⟩
  · obtain ⟨i, hi⟩ := Option.isSome_iff_exists.mp hfree
    obtain ⟨hready, hformat, hpayload⟩ := slotOf_listWritten (h := h) (shelf := shelf) (q := q) (r := r) hi
    refine ⟨_, congrArg Host.Outcome.next (shelfEnd_of_done hq hr hphase (by simp [hat]) ho hlt hi hbusy), _, i, reqOf_listWritten .., hi,
      by simp [withList], rfl, hready, hformat, hpayload, fun y hy => slotOf_listWritten_other hy, shelfCuts_listWritten ..⟩
  · exact ⟨_, rfl, mergeCandidates_of_turn hq hr hphase hlen hdup hop hcancel⟩

end Sys2Proof.Machine

/-! # The walk (R157, R158, R167 to R169, R174) -/

namespace Sys2Proof.Machine

variable {s t : State} {h k : Nat} {q u : Request} {r : IndexRec}

/-! ## The beam -/

section
variable {a b c x : Word × Nat} {l : List (Word × Nat)}

theorem beamBefore_iff : beamBefore a b = true ↔
    selKey false b.1 < selKey false a.1 ∨ selKey false a.1 = selKey false b.1 ∧ a.2 < b.2 := by simp [beamBefore]

theorem beamBefore_trans (hab : beamBefore a b = true) (hbc : beamBefore b c = true) : beamBefore a c = true := by
  rw [beamBefore_iff] at *
  omega

theorem beamBefore_of_not (hne : a.2 ≠ b.2) (h : beamBefore a b = false) : beamBefore b a = true := by
  rw [beamBefore_iff]
  have hno : ¬(selKey false b.1 < selKey false a.1 ∨ selKey false a.1 = selKey false b.1 ∧ a.2 < b.2) := fun hb => by
    rw [beamBefore_iff.mpr hb] at h
    cases h
  omega

theorem mem_beamInsert {y : Word × Nat} : y ∈ beamInsert x l ↔ y = x ∨ y ∈ l := by
  induction l with
  | nil => simp [beamInsert]
  | cons a l ih =>
    unfold beamInsert
    split
    · exact List.mem_cons
    · rw [List.mem_cons, ih, List.mem_cons]
      tauto

theorem length_beamInsert (x : Word × Nat) (l : List (Word × Nat)) : (beamInsert x l).length = l.length + 1 := by
  induction l with
  | nil => rfl
  | cons a l ih =>
    unfold beamInsert
    split
    · rfl
    · exact congrArg (· + 1) ih

/-- An id that the beam does not hold keeps the beam in order. -/
theorem pairwise_beamInsert (hl : l.Pairwise fun a b => beamBefore a b = true) (hx : ∀ y ∈ l, y.2 ≠ x.2) :
    (beamInsert x l).Pairwise fun a b => beamBefore a b = true := by
  induction l with
  | nil => exact List.pairwise_singleton ..
  | cons a l ih =>
    obtain ⟨ha, hl'⟩ := List.pairwise_cons.mp hl
    unfold beamInsert
    split
    · rename_i hxa
      exact List.pairwise_cons.mpr ⟨fun y hy => (List.mem_cons.mp hy).elim (fun h => h ▸ hxa) fun hy => beamBefore_trans hxa (ha y hy), hl⟩
    · rename_i hxa
      refine List.pairwise_cons.mpr ⟨fun y hy => ?_, ih hl' fun y hy => hx y (.tail _ hy)⟩
      rcases mem_beamInsert.mp hy with rfl | hy
      · exact beamBefore_of_not (hx a (.head _)).symm (by simpa using hxa)
      · exact ha y hy

end

/-! ## Ids scored and resolved -/

/-- A beam over the ids given: in order, no wider than width, each with its own score, which is a number. -/
structure BeamOver (s : State) (r : IndexRec) (q8 : List Nat) (width : Nat) (ids : List Nat) (beam : List (Word × Nat)) : Prop where
  short : beam.length ≤ width
  sorted : beam.Pairwise fun a b => beamBefore a b = true
  scored : ∀ b ∈ beam, b.2 ∈ ids ∧ b.1 = walkScore s r q8 b.2 ∧ isNan b.1 = false

theorem scoreInto_beam {q8 : List Nat} {width c : Nat} {ids : List Nat} {acc : List (Word × Nat) × Nat} (hb : BeamOver s r q8 width ids acc.1)
    (hc : c ∉ ids) : BeamOver s r q8 width (ids ++ [c]) (scoreInto s r q8 width acc c).1 := by
  unfold scoreInto
  dsimp only
  split
  · exact ⟨hb.short, hb.sorted, fun b hm => (hb.scored b hm).imp_left (List.mem_append_left _)⟩
  · rename_i hnan
    refine ⟨List.length_take_le .., ?_, fun b hm => ?_⟩
    · refine (pairwise_beamInsert hb.sorted fun y hy heq => hc ?_).sublist (List.take_sublist ..)
      obtain ⟨hmem, -⟩ := hb.scored y hy
      have hc : y.2 = c := heq
      exact hc ▸ hmem
    · rcases mem_beamInsert.mp (List.mem_of_mem_take hm) with rfl | hold
      · exact ⟨by simp, rfl, by simpa using hnan⟩
      · exact (hb.scored b hold).imp_left (List.mem_append_left _)

theorem foldl_scoreInto_beam {q8 : List Nat} {width : Nat} (l : List Nat) {ids : List Nat} {acc : List (Word × Nat) × Nat}
    (hb : BeamOver s r q8 width ids acc.1) (hl : (ids ++ l).Nodup) : BeamOver s r q8 width (ids ++ l) (l.foldl (scoreInto s r q8 width) acc).1 := by
  induction l generalizing ids acc with
  | nil => simpa using hb
  | cons c l ih =>
    have hc : c ∉ ids := fun hc => (List.disjoint_of_nodup_append hl) hc (.head _)
    have hlist : ids ++ c :: l = ids ++ [c] ++ l := by simp
    rw [hlist] at hl ⊢
    exact ih (scoreInto_beam hb hc) hl

theorem foldl_scoreInto_length {q8 : List Nat} {width : Nat} (l : List Nat) (acc : List (Word × Nat) × Nat) :
    (l.foldl (scoreInto s r q8 width) acc).1.length ≤ max acc.1.length width := by
  induction l generalizing acc with
  | nil => exact le_max_left ..
  | cons c l ih =>
    refine (ih _).trans (max_le ?_ (le_max_right ..))
    unfold scoreInto
    dsimp only
    split
    · exact le_max_left ..
    · exact (List.length_take_le ..).trans (le_max_right ..)

/-- What resolving a list of ids leaves: the new ids, in order, are those visited beyond the ones before. -/
structure Resolved (s : State) (r : IndexRec) (l : List Nat) (acc : List Nat × List Nat × Nat) : Prop where
  same : ∀ c, c ∈ acc.1 ↔ c ∈ acc.2.1
  nodup : acc.1.Nodup
  newNodup : acc.2.1.Nodup
  from_ids : ∀ c ∈ acc.1, ∃ n ∈ l, resolve s r n = some c

theorem resolveNew_resolved {l : List Nat} {acc : List Nat × List Nat × Nat} (ha : Resolved s r l acc) (n : Nat) :
    Resolved s r (l ++ [n]) (resolveNew s r acc n) := by
  have hold : ∀ c ∈ acc.1, ∃ n' ∈ l ++ [n], resolve s r n' = some c := fun c hc => by
    obtain ⟨n', hn', hr⟩ := ha.from_ids c hc
    exact ⟨n', List.mem_append_left _ hn', hr⟩
  unfold resolveNew
  split
  · exact ⟨ha.same, ha.nodup, ha.newNodup, hold⟩
  · rename_i c hc
    split
    · exact ⟨ha.same, ha.nodup, ha.newNodup, hold⟩
    · rename_i hnew
      refine ⟨fun x => ?_, List.nodup_cons.mpr ⟨hnew, ha.nodup⟩, ?_, fun x hx => ?_⟩
      · simp [ha.same, or_comm]
      · exact List.nodup_append.mpr ⟨ha.newNodup, List.nodup_singleton c, fun x hx y hy hxy =>
          hnew ((ha.same c).mpr (List.mem_singleton.mp hy ▸ hxy ▸ hx))⟩
      · rcases List.mem_cons.mp hx with rfl | hx
        · exact ⟨n, by simp, hc⟩
        · exact hold x hx

theorem foldl_resolveNew (l : List Nat) {l₀ : List Nat} {acc : List Nat × List Nat × Nat} (ha : Resolved s r l₀ acc) :
    Resolved s r (l₀ ++ l) (l.foldl (resolveNew s r) acc) := by
  induction l generalizing l₀ acc with
  | nil => simpa using ha
  | cons n l ih =>
    have hlist : l₀ ++ n :: l = l₀ ++ [n] ++ l := by simp
    rw [hlist]
    exact ih (resolveNew_resolved ha n)

/-! ## What the walk reads -/

namespace OnlyTurn

theorem resolve_eq (ht : OnlyTurn h s t) (r : IndexRec) (n : Nat) : resolve t r n = resolve s r n := by
  have hrec : centRecord t r = centRecord s r := funext fun c => by simp only [centRecord, ht.devNum_eq]
  have hhops : ∀ k n, resolveHops t r k n = resolveHops s r k n := fun k => by
    induction k with
    | zero => exact fun _ => rfl
    | succ k ih =>
      intro n
      unfold resolveHops
      simp only [hrec, ih]
  exact hhops ..

theorem walkScore_eq (ht : OnlyTurn h s t) (r : IndexRec) (q8 : List Nat) (c : Nat) : walkScore t r q8 c = walkScore s r q8 c := by
  simp only [walkScore, centVector, ht.devRead_eq, ht.devNum_eq]

theorem entrySet_eq (ht : OnlyTurn h s t) (r : IndexRec) : entrySet t r = entrySet s r := by
  simp only [entrySet, ht.devNum_eq]

theorem takeSnap (s : State) (h i : Nat) (e : Epoch) : OnlyTurn h s (takeSnap s i e) :=
  ⟨fun k _ => reqOf_congr (by simp) k, by simp, by simp, by simp, by simp⟩

end OnlyTurn

/-! ## The walk starts -/

theorem indexOf_takeSnap {i : Nat} {e : Epoch} (hr : indexOf s i = some r) :
    ∃ g, indexOf (takeSnap s i e) i = some g ∧ mget 0 g.snaps e.toNat = mget 0 r.snaps e.toNat + 1 := by
  unfold takeSnap setIndex
  rw [show mfind s.gen.indexes i = some r from hr]
  refine ⟨_, by unfold indexOf; dsimp only; rw [mfind_mins, if_pos rfl], ?_⟩
  show mget 0 (mcount r.snaps e.toNat 1) e.toNat = _
  simp [mcount]

/-- The ids of the entry set that resolve, each once: those visited, and in order. -/
def entryIds (s : State) (r : IndexRec) : List Nat × List Nat × Nat := (entrySet s r).foldl (resolveNew s r) ([], [], 0)

/-- The first beam. -/
def firstBeam (s : State) (r : IndexRec) (q : Request) : List (Word × Nat) × Nat :=
  (entryIds s r).2.1.foldl (scoreInto s r (toE4m3 q.ret.query) (beamWidth r q.block)) ([], 0)

/-- The request as its walk starts. -/
def walking (s : State) (r : IndexRec) (q : Request) : Request := { q with
  skippedEdges := q.skippedEdges + (entryIds s r).2.2 + (firstBeam s r q).2
  ret := { q.ret with snap := some (q.mirrorSnap.getD r.epoch), beam := (firstBeam s r q).1, visited := (entryIds s r).1, expanded := [], round := 0 } }

theorem walkStart_eq (hq : reqOf s h = some q) (hr : indexOf s q.block.index = some r) (hp : q.phase = .walk) (hd : q.ret.query.length = r.dim)
    (hm : q.mirrored = false) : walkStart s h = setReq (takeSnap s q.block.index (q.mirrorSnap.getD r.epoch)) h
      (walking (takeSnap s q.block.index (q.mirrorSnap.getD r.epoch)) r q) := by
  unfold walkStart
  rw [hq]
  dsimp only
  rw [if_neg (not_not.mpr hp), hr]
  dsimp only
  rw [if_neg (not_not.mpr hd), hm, Bool.false_and, if_neg Bool.false_ne_true]
  exact modReq_of_open (s := takeSnap s q.block.index (q.mirrorSnap.getD r.epoch)) ((reqOf_congr (by simp) h).trans hq) _

theorem walking_spec (ht : OnlyTurn h s t) : (walking t r q).ret.beam.length ≤ beamWidth r q.block
    ∧ (walking t r q).ret.beam.Pairwise (fun a b => beamBefore a b = true)
    ∧ (∀ b ∈ (walking t r q).ret.beam, b.2 ∈ (walking t r q).ret.visited ∧ b.1 = walkScore s r (toE4m3 q.ret.query) b.2 ∧ isNan b.1 = false)
    ∧ (∀ c ∈ (walking t r q).ret.visited, ∃ n ∈ entrySet s r, resolve s r n = some c) ∧ (walking t r q).ret.visited.Nodup := by
  have hids : Resolved t r (entrySet t r) (entryIds t r) := by
    have hnone : Resolved t r [] ([], [], 0) := ⟨fun _ => Iff.rfl, .nil, .nil, nofun⟩
    exact foldl_resolveNew (entrySet t r) hnone
  have hbeam : BeamOver t r (toE4m3 q.ret.query) (beamWidth r q.block) (entryIds t r).2.1 (firstBeam t r q).1 := by
    have hnone : BeamOver t r (toE4m3 q.ret.query) (beamWidth r q.block) [] ([], 0).1 := ⟨Nat.zero_le _, .nil, nofun⟩
    exact foldl_scoreInto_beam (entryIds t r).2.1 hnone hids.newNodup
  refine ⟨hbeam.short, hbeam.sorted, fun b hb => ?_, fun c hc => ?_, hids.nodup⟩
  · obtain ⟨hmem, hscore, hnan⟩ := hbeam.scored b hb
    exact ⟨(hids.same _).mpr hmem, hscore.trans (ht.walkScore_eq ..), hnan⟩
  · obtain ⟨n, hn, hres⟩ := hids.from_ids c hc
    exact ⟨n, ht.entrySet_eq r ▸ hn, (ht.resolve_eq r n).symm.trans hres⟩

/-! ## The walk ends -/

/-- The walk's own fields of two requests are the same. -/
structure SameWalk (q u : Request) : Prop where
  beam : u.ret.beam = q.ret.beam
  visited : u.ret.visited = q.ret.visited
  expanded : u.ret.expanded = q.ret.expanded
  round : u.ret.round = q.ret.round

theorem SameWalk.walkOver_eq (hw : SameWalk q u) (r : IndexRec) : walkOver r u = walkOver r q := by
  simp only [walkOver, frontierOf, hw.beam, hw.visited, hw.expanded, hw.round]

/-- The probes of the best n centroids. -/
def bestProbes (s : State) (r : IndexRec) (q : Request) (n : Nat) : List Probe := (q.ret.beam.take n).map (probeOf s r q.ret.query)

/-- The walk's end waits for the pool, or puts the probe records in the store and goes on to the scan. -/
theorem walkEnd_cases (hq : reqOf s h = some q) (hc : q.cancel = false) : ∃ n few, (few = false ∧ n = q.block.nprobe ∨ few = true ∧ n = q.block.nprobeMin)
    ∧ (scanPut s h 0x3C (probeTiles q.fn (bestProbes s r q n)) = none ∧ walkEnd s h r = s
      ∨ ∃ v, reqOf (walkEnd s h r) h = some v ∧ v.phase = .scan ∧ v.flags = (if few then q.flags ||| flagFewerLists else q.flags)
        ∧ v.ret.probes = bestProbes s r q n ∧ v.ret.scanTiles.length = q.ret.scanTiles.length + (probeTiles q.fn (bestProbes s r q n)).length
        ∧ SameWalk q v ∧ (∀ k, k ≠ h → reqOf (walkEnd s h r) k = reqOf s k)) := by
  unfold walkEnd
  rw [hq]
  dsimp only
  generalize hfew : (_ && decide (q.block.nprobeMin < q.block.nprobe)) = few
  refine ⟨if few then q.block.nprobeMin else q.block.nprobe, few, by cases few <;> simp, ?_⟩
  change (scanPut s h 0x3C (probeTiles q.fn (bestProbes s r q (if few then q.block.nprobeMin else q.block.nprobe))) = none ∧ _) ∨ _
  cases hput : scanPut s h 0x3C (probeTiles q.fn (bestProbes s r q (if few then q.block.nprobeMin else q.block.nprobe))) with
  | none =>
    left
    refine ⟨rfl, ?_⟩
    unfold bestProbes at hput
    rw [hput]
  | some t =>
    right
    obtain ⟨l, hl, hqt, hother⟩ := scanPut_spec hq hput
    unfold bestProbes at hput
    rw [hput]
    dsimp only
    rw [toPhase_of_open (reqOf_modReq_same hqt _) hc]
    refine ⟨_, reqOf_setReq_same .., rfl, rfl, rfl, ?_, ⟨rfl, rfl, rfl, rfl⟩, fun k hk => ?_⟩
    · show (q.ret.scanTiles ++ l).length = _
      rw [List.length_append, hl]
    · rw [reqOf_setReq, if_neg hk]
      exact (reqOf_modReq_other _ _ hk).trans (hother k hk)

/-! ## A round of the walk -/

section
variable (hq : reqOf s h = some q) (hr : indexOf s q.block.index = some r) (hp : q.phase = .walk) (hs : q.ret.snap.isSome = true)
include hq hr hp hs

theorem walkRoundEnd_of_over (ho : walkOver r q = true) : walkRoundEnd s h = walkEnd s h r := by
  unfold walkRoundEnd
  rw [hq]
  dsimp only
  rw [if_neg (by simpa [hp, Option.isSome_iff_ne_none] using hs), hr]
  exact if_pos ho

/-- A round expands its frontier, and the walk goes on or ends. -/
theorem walkRoundEnd_of_open (ho : walkOver r q = false) : ∃ w, reqOf (walkRound s h r q (frontierOf q)) h = some w
    ∧ w.ret.round = q.ret.round + 1 ∧ w.ret.expanded = q.ret.expanded ++ frontierOf q ∧ w.phase = q.phase ∧ w.cancel = q.cancel
    ∧ w.ret.beam.length ≤ max q.ret.beam.length (beamWidth r q.block) ∧ OnlyTurn h s (walkRound s h r q (frontierOf q))
    ∧ walkRoundEnd s h = if walkOver r w then walkEnd (walkRound s h r q (frontierOf q)) h r else walkRound s h r q (frontierOf q) := by
  have hround : walkRoundEnd s h = match reqOf (walkRound s h r q (frontierOf q)) h with
      | some w => if walkOver r w then walkEnd (walkRound s h r q (frontierOf q)) h r else walkRound s h r q (frontierOf q)
      | none => walkRound s h r q (frontierOf q) := by
    unfold walkRoundEnd
    rw [hq]
    dsimp only
    rw [if_neg (by simpa [hp, Option.isSome_iff_ne_none] using hs), hr]
    exact if_neg (by simp [ho])
  have hturn : OnlyTurn h s (walkRound s h r q (frontierOf q)) := .modReq ..
  have hw : reqOf (walkRound s h r q (frontierOf q)) h = some _ := reqOf_modReq_same hq _
  rw [hw] at hround
  exact ⟨_, hw, rfl, rfl, rfl, rfl, foldl_scoreInto_length .., hturn, hround⟩

end

/-! ## The scan is issued (R170, R174) -/

/-- A shelf engine holds the codebook as the last one used. -/
def holdsCodebook (a : Nat) (s : State) (k : Nat) : Prop :=
  (mget [] s.gen.codebooks k).head? = some a ∧ (mget [] s.gen.codebooks k).length ≤ 2

theorem holdsCodebook_useCodebook (a : Nat) (s : State) (k j : Nat) (hj : k = j ∨ holdsCodebook a s j) : holdsCodebook a (useCodebook a s k) j := by
  unfold holdsCodebook useCodebook
  dsimp only
  rw [mget_mmod]
  split
  · exact ⟨rfl, List.length_take_le ..⟩
  · rename_i hne
    exact hj.resolve_left fun h => hne h.symm

theorem foldl_useCodebook (a : Nat) (l : List Nat) (s : State) (j : Nat) (hj : j ∈ l ∨ holdsCodebook a s j) :
    holdsCodebook a (l.foldl (useCodebook a) s) j := by
  induction l generalizing s with
  | nil => exact hj.resolve_left List.not_mem_nil
  | cons k l ih =>
    refine ih _ ?_
    rcases hj with hj | hj
    · rcases List.mem_cons.mp hj with rfl | hj
      · exact .inr (holdsCodebook_useCodebook a s j j (.inl rfl))
      · exact .inl hj
    · exact .inr (holdsCodebook_useCodebook a s k j (.inr hj))

theorem foldl_useCodebook_turn (a : Nat) (l : List Nat) (s : State) (h : Nat) : OnlyTurn h s (l.foldl (useCodebook a) s)
    ∧ (l.foldl (useCodebook a) s).host = s.host := by
  induction l generalizing s with
  | nil => exact ⟨.refl h s, rfl⟩
  | cons k l ih =>
    obtain ⟨hturn, hhost⟩ := ih (useCodebook a s k)
    exact ⟨.trans (t := useCodebook a s k) ⟨fun _ _ => rfl, rfl, rfl, rfl, rfl⟩ hturn, hhost⟩

section
variable (hq : reqOf s h = some q) (hr : indexOf s q.block.index = some r) (hp : q.phase = .scan) (hs : q.ret.scanAt = none)
include hq hr hp hs

/-- The shelf engines that serve the probes, each once. -/
theorem scanIssue_eq : scanIssue s h =
    let ks := ((q.ret.probes.map (issueProbe s r)).flatMap servingShelves).foldl (fun a k => withLast k a) []
    if ks.any fun k => notTaking s (shelfBlock k) then s
    else modReq (ks.foldl (useCodebook r.codebookBase) s) h fun v => { v with ret := { v.ret with
      scanAt := some (now s), probes := q.ret.probes.map (issueProbe s r) } } := by
  unfold scanIssue
  rw [hq]
  dsimp only
  rw [if_neg (by simp [hp, hs]), hr]

theorem scanIssue_of_taking (ht : ∀ k ∈ (q.ret.probes.map (issueProbe s r)).flatMap servingShelves, notTaking s (shelfBlock k) = false) :
    ∃ ks : List Nat, (∀ k, k ∈ ks ↔ k ∈ (q.ret.probes.map (issueProbe s r)).flatMap servingShelves)
      ∧ scanIssue s h = setReq (ks.foldl (useCodebook r.codebookBase) s) h { q with ret := { q.ret with
        scanAt := some (now s), probes := q.ret.probes.map (issueProbe s r) } } := by
  have hmem : ∀ k, k ∈ ((q.ret.probes.map (issueProbe s r)).flatMap servingShelves).foldl (fun a k => withLast k a) []
      ↔ k ∈ (q.ret.probes.map (issueProbe s r)).flatMap servingShelves := fun k => by
    rw [mem_foldl_withLast]
    simp only [List.not_mem_nil, false_or]
  refine ⟨_, hmem, ?_⟩
  rw [scanIssue_eq hq hr hp hs]
  dsimp only
  rw [if_neg]
  · exact modReq_of_open ((reqOf_congr (congrArg _ (foldl_useCodebook_turn r.codebookBase _ s h).2) h).trans hq) _
  · rw [List.any_eq_true]
    rintro ⟨k, hk, hnot⟩
    rw [ht k ((hmem k).mp hk)] at hnot
    cases hnot

theorem scanIssue_of_notTaking (ht : ∃ k ∈ (q.ret.probes.map (issueProbe s r)).flatMap servingShelves, notTaking s (shelfBlock k) = true) :
    scanIssue s h = s := by
  obtain ⟨k, hk, hnot⟩ := ht
  rw [scanIssue_eq hq hr hp hs]
  exact if_pos (List.any_eq_true.mpr ⟨k, (mem_foldl_withLast ..).mpr (.inr hk), hnot⟩)

end

/-- Settles O21: the first beam is kept in order as ids are scored (`foldl_scoreInto_beam`); a walk that ends waits for the pool or issues its probe
records; each serving shelf engine holds the codebook afterwards (`foldl_useCodebook`). -/
theorem theWalkChoosesProbes : Obligations.TheWalkChoosesProbes := by
  unfold Obligations.TheWalkChoosesProbes
  intro s h q r hq hr probes issued shelves
  refine ⟨fun hp hd hm => ?_, fun hp hs hc => ⟨fun ho hput => ?_, fun ho => ?_⟩, fun hp hs => ⟨fun ht => ?_, fun ht => ?_⟩⟩
  · have hsnap := OnlyTurn.takeSnap s h q.block.index (q.mirrorSnap.getD r.epoch)
    obtain ⟨hlen, hsorted, hscored, hids, hnodup⟩ := walking_spec (q := q) (r := r) hsnap
    obtain ⟨g, hg, hcount⟩ := indexOf_takeSnap (e := q.mirrorSnap.getD r.epoch) hr
    have hturn := hsnap.trans (.setReq _ h (walking (takeSnap s q.block.index (q.mirrorSnap.getD r.epoch)) r q))
    exact ⟨_, congrArg Host.Outcome.next (walkStart_eq hq hr hp hd hm), _, reqOf_setReq_same .., hp, rfl, rfl, rfl, hlen, hsorted, hscored, hids,
      hnodup, ⟨g, hg, hcount⟩, hturn.others, hturn.store, hturn.tier, hturn.flash⟩
  · obtain ⟨n, few, hn, hend⟩ := walkEnd_cases (r := r) hq hc
    have hsome := hput n (hn.imp And.right And.right)
    obtain ⟨hnone, -⟩ | ⟨v, hv, hphase, hflags, hprobes, htiles, -, hother⟩ := hend
    · rw [show scanPut s h 0x3C (probeTiles q.fn (probes n)) = none from hnone] at hsome
      cases hsome
    · refine ⟨_, congrArg Host.Outcome.next (walkRoundEnd_of_over hq hr hp hs ho), v, n, hv, hphase, ?_, hprobes, htiles, hother, by simp⟩
      rcases hn with ⟨rfl, rfl⟩ | ⟨rfl, rfl⟩
      · exact .inl ⟨rfl, hflags⟩
      · exact .inr ⟨rfl, hflags⟩
  · obtain ⟨w, hw, hround, hexpanded, hphase, hcancel, hbeam, hturn, hrun⟩ := walkRoundEnd_of_open hq hr hp hs ho
    refine ⟨_, congrArg Host.Outcome.next hrun, ?_⟩
    have hstill : walkOver r w = false → w.phase = .walk ∧ (walkRound s h r q (frontierOf q)).store = s.store :=
      fun _ => ⟨hphase.trans hp, hturn.store⟩
    cases hover : walkOver r w with
    | false =>
      rw [if_neg Bool.false_ne_true]
      refine ⟨w, hw, hround, hexpanded, fun hscan => ?_, hstill, hbeam, hturn.others, hturn.flash⟩
      rw [hphase, hp] at hscan
      cases hscan
    | true =>
      rw [if_pos rfl]
      obtain ⟨n, few, -, hend⟩ := walkEnd_cases (r := r) hw (hcancel.trans hc)
      obtain ⟨-, hwait⟩ | ⟨v, hv, -, -, -, -, hsame, hother⟩ := hend
      · rw [hwait]
        refine ⟨w, hw, hround, hexpanded, fun _ => hover, fun hopen => ?_, hbeam, hturn.others, hturn.flash⟩
        rw [hover] at hopen
        cases hopen
      · have hover' : walkOver r v = true := (hsame.walkOver_eq r).trans hover
        refine ⟨v, hv, hsame.round.trans hround, hsame.expanded.trans hexpanded, fun _ => hover', fun hopen => ?_, ?_,
          fun k hk => (hother k hk).trans (hturn.others k hk), ?_⟩
        · rw [hover'] at hopen
          cases hopen
        · rw [hsame.beam]
          exact hbeam
        · simp [hturn.flash]
  · obtain ⟨ks, hks, hrun⟩ := scanIssue_of_taking hq hr hp hs ht
    obtain ⟨hturn, -⟩ := foldl_useCodebook_turn r.codebookBase ks s h
    have hturn := hturn.trans (.setReq _ h { q with ret := { q.ret with scanAt := some (now s), probes := issued } })
    refine ⟨_, congrArg Host.Outcome.next hrun, reqOf_setReq_same .., fun k hk => ?_, hturn.others, hturn.store, hturn.tier, hturn.flash⟩
    exact foldl_useCodebook r.codebookBase ks s k (.inl ((hks k).mpr hk))
  · exact congrArg Host.Outcome.next (scanIssue_of_notTaking hq hr hp hs ht)

end Sys2Proof.Machine

/-! # Ranking (R197, R198) -/

namespace Sys2Proof.Machine

variable {cs : List Cand} {s : State} {h : Nat} {q : Request}

/-- The entries of the re-rank selection. -/
def rankInput (cs : List Cand) : List SelEntry := cs.map fun c => { score := c.rerank.getD fpNan, id := c.pid }

/-- The candidates that the selection ranks, best first. -/
def rankedEntries (cs : List Cand) : List PosEntry := bestOf false cs.length (validEntries (rankInput cs))

/-- Their places among the candidates. -/
def rankedPlaces (cs : List Cand) : List Nat := (rankedEntries cs).map (·.pos)

theorem length_rankInput (cs : List Cand) : (rankInput cs).length = cs.length := List.length_map _

theorem length_validEntries_le (cs : List Cand) : (validEntries (rankInput cs)).length ≤ cs.length := by
  rw [length_validEntries, ← length_rankInput cs]
  exact List.countP_le_length

/-- Every valid candidate is ranked. -/
theorem perm_rankedEntries (cs : List Cand) : (rankedEntries cs).Perm (validEntries (rankInput cs)) := by
  unfold rankedEntries
  rw [bestOf_eq, List.take_of_length_le]
  · exact perm_rankSort _
  · rw [(perm_rankSort (asc := false) _).length_eq]
    exact length_validEntries_le cs

theorem nodup_rankedPlaces (cs : List Cand) : (rankedPlaces cs).Nodup := by
  have hd : PosDistinct (validEntries (rankInput cs)) := posDistinct_valid _
  have hnodup : ((validEntries (rankInput cs)).map (·.pos)).Nodup := List.pairwise_map.mpr hd
  exact ((perm_rankedEntries cs).map _).nodup_iff.mpr hnodup

theorem mem_rankedPlaces {i : Nat} : i ∈ rankedPlaces cs ↔
    ∃ c, cs[i]? = some c ∧ isNan (c.rerank.getD fpNan) = false ∧ c.pid ≠ 0xFFFFFFFFFF := by
  have hvalid : i ∈ rankedPlaces cs ↔ ∃ e ∈ validEntries (rankInput cs), e.pos = i := by
    unfold rankedPlaces
    rw [List.mem_map]
    exact exists_congr fun e => and_congr_left fun _ => (perm_rankedEntries cs).mem_iff
  rw [hvalid]
  constructor
  · rintro ⟨e, he, rfl⟩
    obtain ⟨hget, hnan, hid⟩ := mem_validEntries.mp he
    obtain ⟨c, hc, heq⟩ := Option.map_eq_some_iff.mp ((List.getElem?_map ..).symm.trans hget)
    obtain ⟨hscore, hpid⟩ := SelEntry.mk.inj heq
    exact ⟨c, hc, hscore ▸ hnan, hpid ▸ hid⟩
  · rintro ⟨c, hc, hnan, hid⟩
    refine ⟨{ pos := i, score := c.rerank.getD fpNan, id := c.pid }, mem_validEntries.mpr ⟨?_, hnan, hid⟩, rfl⟩
    unfold rankInput
    rw [List.getElem?_map, hc]
    rfl

theorem rankOrder_eq (hn : cs.length ≤ 1024) : rankOrder (rankList cs) cs.length =
    rankedPlaces cs ++ (List.range cs.length).filter fun i => decide (i ∉ rankedPlaces cs) := by
  have hentries : (rankList cs).entries = tileEntries (rankedEntries cs) := (select_spec (p := rankParams cs.length) (bucket := false)).1
  have hplaces : (rankList cs).entries.map (fun e => e.1.toNat) = rankedPlaces cs := by
    rw [hentries, tileEntries, List.map_map]
    refine List.map_congr_left fun e he => toNat_pos (input := rankInput cs) ?_ ((perm_rankedEntries cs).mem_iff.mp he)
    rw [length_rankInput]
    omega
  unfold rankOrder
  rw [hplaces]

theorem perm_rankOrder (hn : cs.length ≤ 1024) : (rankOrder (rankList cs) cs.length).Perm (List.range cs.length) := by
  rw [rankOrder_eq hn]
  have hsplit := List.filter_append_perm (fun i => decide (i ∈ rankedPlaces cs)) (List.range cs.length)
  have hranked : (rankedPlaces cs).Perm ((List.range cs.length).filter fun i => decide (i ∈ rankedPlaces cs)) := by
    refine (List.perm_ext_iff_of_nodup (nodup_rankedPlaces cs) (List.nodup_range.filter _)).mpr fun i => ?_
    rw [List.mem_filter, List.mem_range, decide_eq_true_eq]
    refine ⟨fun hi => ⟨?_, hi⟩, And.right⟩
    obtain ⟨c, hc, -⟩ := mem_rankedPlaces.mp hi
    exact (List.getElem?_eq_some_iff.mp hc).1
  refine (hranked.append_right _).trans ?_
  have hnot : ((List.range cs.length).filter fun i => decide (i ∉ rankedPlaces cs)) =
      (List.range cs.length).filter fun i => !decide (i ∈ rankedPlaces cs) := List.filter_congr fun i _ => by simp
  rw [hnot]
  exact hsplit

/-- The re-rank score of the candidate at place i of an order. -/
def scoreAt (cs : List Cand) (order : List Nat) (i : Nat) : Option Word := (order[i]?).bind fun j => (cs[j]?).bind (·.rerank)

theorem scoreAt_ranked {order : List Nat} {i : Nat} {a : Word} (hpid : ∀ c ∈ cs, c.pid ≠ 0xFFFFFFFFFF) (ha : scoreAt cs order i = some a)
    (hnan : isNan a = false) : ∃ j, order[i]? = some j ∧ j ∈ rankedPlaces cs := by
  obtain ⟨j, hj, hc⟩ := Option.bind_eq_some_iff.mp ha
  obtain ⟨c, hc, hrank⟩ := Option.bind_eq_some_iff.mp hc
  refine ⟨j, hj, mem_rankedPlaces.mpr ⟨c, hc, ?_, hpid c (List.mem_of_getElem? hc)⟩⟩
  rw [hrank]
  exact hnan

theorem score_rankedEntries {e : PosEntry} (he : e ∈ rankedEntries cs) {c : Cand} (hc : cs[e.pos]? = some c) : e.score = c.rerank.getD fpNan := by
  obtain ⟨hget, -, -⟩ := mem_validEntries.mp ((perm_rankedEntries cs).mem_iff.mp he)
  unfold rankInput at hget
  rw [List.getElem?_map, hc] at hget
  exact (SelEntry.mk.inj (Option.some.inj hget)).1.symm

/-- Scores that are numbers follow each other in falling order. -/
theorem rankOrder_falls (hn : cs.length ≤ 1024) (hpid : ∀ c ∈ cs, c.pid ≠ 0xFFFFFFFFFF) {i : Nat} {a b : Word}
    (ha : scoreAt cs (rankOrder (rankList cs) cs.length) i = some a) (hb : scoreAt cs (rankOrder (rankList cs) cs.length) (i + 1) = some b)
    (hbn : isNan b = false) : selKey false b ≤ selKey false a := by
  obtain ⟨k, hk, hkr⟩ := scoreAt_ranked hpid hb hbn
  have hlt : i + 1 < (rankedPlaces cs).length := by
    by_contra hge
    rw [rankOrder_eq hn, List.getElem?_append_right (not_lt.mp hge)] at hk
    have hmem := List.mem_of_getElem? hk
    rw [List.mem_filter, decide_eq_true_eq] at hmem
    exact hmem.2 hkr
  have hlen : (rankedPlaces cs).length = (rankedEntries cs).length := List.length_map _
  have hentry : ∀ j w, j < (rankedPlaces cs).length → scoreAt cs (rankOrder (rankList cs) cs.length) j = some w →
      ∃ e, (rankedEntries cs)[j]? = some e ∧ e.score = w := by
    intro j w hj hw
    rw [hlen] at hj
    refine ⟨_, List.getElem?_eq_getElem hj, ?_⟩
    obtain ⟨m, hm, hc⟩ := Option.bind_eq_some_iff.mp hw
    obtain ⟨c, hc, hrank⟩ := Option.bind_eq_some_iff.mp hc
    rw [rankOrder_eq hn, List.getElem?_append_left (by rw [hlen]; exact hj)] at hm
    unfold rankedPlaces at hm
    rw [List.getElem?_map, List.getElem?_eq_getElem hj] at hm
    have hpos := Option.some.inj hm
    dsimp only at hpos
    rw [score_rankedEntries (List.getElem_mem hj) (hpos ▸ hc), hrank]
    rfl
  obtain ⟨x, hx, rfl⟩ := hentry i a (by omega) ha
  obtain ⟨y, hy, rfl⟩ := hentry (i + 1) b hlt hb
  have hsorted : (rankedEntries cs).Pairwise fun a b => ranksBefore false a b = true := pairwise_bestOf (posDistinct_valid _)
  obtain ⟨hi, hxi⟩ := List.getElem?_eq_some_iff.mp hx
  obtain ⟨hi', hyi⟩ := List.getElem?_eq_some_iff.mp hy
  have hbefore := ranksBefore_iff.mp (List.pairwise_iff_getElem.mp hsorted i (i + 1) hi hi' (Nat.lt_succ_self i))
  rw [hxi, hyi] at hbefore
  omega

theorem rerankEnd_of_ranked (hq : reqOf s h = some q) (hp : q.phase = .rerank) (ho : q.op = .turn) (hne : q.ret.cands ≠ [])
    (hr : ∀ c ∈ q.ret.cands, c.rerank.isSome = true) (hc : q.cancel = false) : ∃ v, reqOf (rerankEnd s h) h = some v ∧ v.phase = .pack
      ∧ v.ret.ranked = rankOrder (rankList q.ret.cands) q.ret.cands.length ∧ v.ret.cands = withNorms (rankList q.ret.cands) q.ret.cands
      ∧ (rerankEnd s h).store = s.store := by
  unfold rerankEnd
  rw [hq]
  dsimp only
  have hall : q.ret.cands.any (fun c => c.rerank.isNone) = false := by
    rw [List.any_eq_false]
    intro c hmem
    simp [Option.isSome_iff_ne_none.mp (hr c hmem)]
  rw [if_neg (by simp [hp, hall]), if_neg (by simp [ho]), if_neg (by simpa using hne)]
  rw [toPhase_of_open (reqOf_modReq_same hq _) hc]
  exact ⟨_, reqOf_setReq_same .., rfl, rfl, rfl, by simp⟩

end Sys2Proof.Machine

/-! # Re-rank pairs (R192, R193, R195, R199) -/

namespace Sys2Proof.Machine

variable {s t : State} {h k : Nat} {q : Request} {g : Program} {p : PartId}

/-- A block whose tokens need no tokenizing has the same ones in every state. -/
theorem passageTokens_stored {k : BitVec 2} {b : Bytes} (hs : (passageTokens s k b).2 = none) (t : State) : (passageTokens t k b).2 = none := by
  unfold passageTokens at hs ⊢
  dsimp only at hs ⊢
  split
  · rfl
  · split
    · rfl
    · rename_i h1 h2
      rw [if_neg h1, if_neg h2] at hs
      cases hs

/-- From request q to v candidates have become pairs. -/
structure Paired (q v : Request) : Prop where
  fn : v.fn = q.fn
  reranked : v.ret.reranked = q.ret.reranked
  length : v.ret.cands.length = q.ret.cands.length
  blocks : ∀ j : Nat, (v.ret.cands[j]?).bind Cand.block = (q.ret.cands[j]?).bind Cand.block

/-- A pair's item in a tenant's queue. -/
def pairItem (h i : Nat) : Item := { kind := .pair, handle := h, index := i }

theorem queuePair_spec {i : Nat} {b : Bytes} (hq : reqOf s h = some q) (hb : (q.ret.cands[i]?).bind Cand.block = some b)
    (ht : (passageTokens s (BitVec.ofNat 2 g.tokSet) b).2 = none) : ∃ v, reqOf (queuePair h g p s i) h = some v ∧ Paired q v
      ∧ mget [] (partOf (queuePair h g p s i) p).rings q.fn.toNat = mget [] (partOf s p).rings q.fn.toNat ++ [pairItem h i]
      ∧ (queuePair h g p s i).store = s.store ∧ (queuePair h g p s i).engines = s.engines := by
  unfold queuePair
  rw [hq]
  dsimp only
  rw [show (q.ret.cands[i]?).bind (fun c => c.block) = some b from hb]
  dsimp only
  rw [ht]
  dsimp only
  generalize hs₁ : modReq s h _ = s₁
  have hpart : partOf s₁ p = partOf s p := by
    rw [← hs₁]
    simp [partOf]
  have hreq : ∃ v, reqOf s₁ h = some v ∧ Paired q v := by
    rw [← hs₁]
    refine ⟨_, reqOf_modReq_same hq _, rfl, rfl, List.length_modify .., fun j => ?_⟩
    dsimp only
    rw [List.getElem?_modify]
    cases q.ret.cands[j]? with
    | none => rfl
    | some c =>
      dsimp only [Option.map_some, Option.bind_some]
      split <;> rfl
  obtain ⟨v, hv, hpair⟩ := hreq
  refine ⟨v, hv, hpair, ?_, ?_, ?_⟩
  · unfold queueItem
    rw [partOf_setPart, if_pos rfl, hpart]
    simp [pairItem]
  · rw [show (queueItem s₁ p q.fn _).store = s₁.store from rfl, ← hs₁]
    simp
  · rw [show (queueItem s₁ p q.fn _).engines = s₁.engines from rfl, ← hs₁]
    simp

theorem foldl_queuePair (l : List Nat) (hq : reqOf s h = some q) (hb : ∀ i ∈ l, ∃ b, (q.ret.cands[i]?).bind Cand.block = some b
      ∧ (passageTokens s (BitVec.ofNat 2 g.tokSet) b).2 = none) : ∃ v, reqOf (l.foldl (queuePair h g p) s) h = some v ∧ Paired q v
      ∧ mget [] (partOf (l.foldl (queuePair h g p) s) p).rings q.fn.toNat = mget [] (partOf s p).rings q.fn.toNat ++ l.map (pairItem h)
      ∧ (l.foldl (queuePair h g p) s).store = s.store ∧ (l.foldl (queuePair h g p) s).engines = s.engines := by
  induction l generalizing s q with
  | nil => exact ⟨q, hq, ⟨rfl, rfl, rfl, fun _ => rfl⟩, (List.append_nil _).symm, rfl, rfl⟩
  | cons i l ih =>
    obtain ⟨b, hbi, hti⟩ := hb i (.head _)
    obtain ⟨v, hv, hpair, hring, hstore, hengines⟩ := queuePair_spec (p := p) hq hbi hti
    obtain ⟨w, hw, hpair', hring', hstore', hengines'⟩ := ih hv fun j hj => by
      obtain ⟨b, hbj, htj⟩ := hb j (.tail _ hj)
      exact ⟨b, (hpair.blocks j).trans hbj, passageTokens_stored htj _⟩
    refine ⟨w, hw, ⟨hpair'.fn.trans hpair.fn, hpair'.reranked.trans hpair.reranked, hpair'.length.trans hpair.length,
      fun j => (hpair'.blocks j).trans (hpair.blocks j)⟩, ?_, hstore'.trans hstore, hengines'.trans hengines⟩
    rw [hpair.fn, hring] at hring'
    exact hring'.trans (by simp)

theorem heldCands_of_blocks (hb : ∀ c ∈ q.ret.cands, c.block.isSome = true) : heldCands q = q.ret.cands :=
  List.filter_eq_self.mpr fun c hc => by simp [hb c hc]

theorem questionFor_of_other (hq : reqOf s h = some q) (ho : q.op ≠ .turn) (k : BitVec 2) : questionFor s h k = s := by
  unfold questionFor
  rw [hq]
  exact if_pos (by simp [ho])

section
variable (hq : reqOf s h = some q) (hp : q.phase = .rerank) (hn : q.ret.noRerank = false) (hr : q.ret.reranked = 0) (hne : heldCands q ≠ [])
include hq hp hn hr hne

/-- With no re-ranker the scan scores stand. -/
theorem rerankStart_of_none (hg : progOf s q.block.rerankPart = none) (ho : q.op = .turn) :
    rerankStart s h = setReq (setReq s h { q with ret := { q.ret with cands := heldCands q } }) h
      { q with ret := { q.ret with noRerank := true, cands := (heldCands q).map fun c => { c with rerank := some c.score } } } := by
  unfold rerankStart
  rw [hq]
  dsimp only
  rw [if_neg (by simp [hp, hn, hr]), if_neg (by simpa using hne), modReq_of_open hq, show progOf (setReq s h _) _ = _ from hg]
  dsimp only
  rw [if_neg (by simp [ho])]
  unfold scanScores
  rw [modReq_of_open (reqOf_setReq_same ..)]

theorem rerankStart_of_rerank (hg : progOf s q.block.rerankPart = some g) (ho : q.op = .rerank) (hb : ∀ c ∈ q.ret.cands, c.block.isSome = true)
    (hv : setVerified s (BitVec.ofNat 2 g.tokSet))
    (htok : ∀ c ∈ q.ret.cands, (passageTokens s (BitVec.ofNat 2 g.tokSet) (c.block.getD [])).2 = none) :
    ∃ v, reqOf (rerankStart s h) h = some v ∧ v.ret.reranked = q.ret.cands.length ∧ v.ret.cands.length = q.ret.cands.length
      ∧ mget [] (partOf (rerankStart s h) (partId q.block.rerankPart)).rings q.fn.toNat
        = mget [] (partOf s (partId q.block.rerankPart)).rings q.fn.toNat ++ (List.range q.ret.cands.length).map (pairItem h)
      ∧ (rerankStart s h).store = s.store ∧ (rerankStart s h).engines = s.engines := by
  have hheld := heldCands_of_blocks hb
  have hne' := hne
  rw [hheld] at hne'
  have hrun : ∃ v s₁, reqOf s₁ h = some v ∧ v.fn = q.fn ∧ v.ret.cands = q.ret.cands ∧ v.ret.reranked = q.ret.cands.length ∧ s₁.store = s.store
      ∧ s₁.engines = s.engines ∧ s₁.gen = s.gen
      ∧ rerankStart s h = (List.range q.ret.cands.length).foldl (queuePair h g (partId q.block.rerankPart)) s₁ := by
    unfold rerankStart
    rw [hq]
    dsimp only
    rw [if_neg (by simp [hp, hn, hr]), hheld, if_neg (by simpa using hne'), modReq_of_open hq, show progOf (setReq s h _) _ = _ from hg]
    dsimp only
    rw [if_pos ho]
    dsimp only
    rw [useSets_of_verified ((OnlyTurn.setReq s h _).sameTables.verified hv), questionFor_of_other (reqOf_setReq_same ..) (by rw [ho]; decide)]
    rw [reqOf_setReq_same, Option.getD_some, modReq_of_open (reqOf_setReq_same ..)]
    refine ⟨_, _, reqOf_setReq_same .., ?_, ?_, ?_, ?_, ?_, ?_, rfl⟩
    · rfl
    · exact List.take_length
    · rfl
    · rfl
    · rfl
    · rfl
  obtain ⟨v, s₁, hv₁, hfn, hcands, hreranked, hstore, hengines, hgen, hrun⟩ := hrun
  obtain ⟨w, hw, hpair, hring, hstore', hengines'⟩ := foldl_queuePair (g := g) (p := partId q.block.rerankPart) (List.range q.ret.cands.length) hv₁ fun i hi => by
    obtain ⟨c, hc⟩ : ∃ c, q.ret.cands[i]? = some c := ⟨_, List.getElem?_eq_getElem (List.mem_range.mp hi)⟩
    have hmem := List.mem_of_getElem? hc
    obtain ⟨b, hblock⟩ := Option.isSome_iff_exists.mp (hb c hmem)
    have hnone := htok c hmem
    rw [hblock] at hnone
    exact ⟨b, by rw [hcands, hc]; exact hblock, passageTokens_stored hnone _⟩
  rw [hrun]
  refine ⟨w, hw, hpair.reranked.trans hreranked, hpair.length.trans (congrArg _ hcands), ?_, hstore'.trans hstore, hengines'.trans hengines⟩
  rw [← hfn, hring]
  simp [partOf, hgen]

end

end Sys2Proof.Machine

/-! # Packing (R202 to R207) -/

namespace Sys2Proof.Machine

variable {s : State} {h : Nat} {q : Request} {t : Bytes}

/-! ## The plan stays within its room, its passages and its documents (R204) -/

/-- Plan entries with their passage numbers. -/
def numbered (kept : List (Nat × Nat × Nat)) : List (Nat × (Nat × Nat × Nat)) := ((List.range kept.length).zip kept).map fun x => (x.1 + 1, x.2)

/-- Tokens that the passages of a plan take, with what frames them. -/
def planCost (t : Bytes) (kept : List (Nat × Nat × Nat)) : Nat := ((numbered kept).map fun y => passageFrame t y.1 + y.2.2.1).sum

theorem numbered_append (l : List (Nat × Nat × Nat)) (x : Nat × Nat × Nat) : numbered (l ++ [x]) = numbered l ++ [(l.length + 1, x)] := by
  unfold numbered
  rw [List.length_append, List.length_singleton, List.range_succ, List.zip_append (by simp), List.map_append]
  rfl

theorem planCost_append (t : Bytes) (l : List (Nat × Nat × Nat)) (x : Nat × Nat × Nat) :
    planCost t (l ++ [x]) = planCost t l + (passageFrame t (l.length + 1) + x.2.1) := by
  unfold planCost
  rw [numbered_append, List.map_append, List.sum_append]
  simp

/-- The first entries of a plan cost no more than all. -/
theorem planCost_take (t : Bytes) (l : List (Nat × Nat × Nat)) (n : Nat) : planCost t (l.take n) ≤ planCost t l := by
  induction l using List.reverseRecOn with
  | nil => simp
  | append_singleton l x ih =>
    by_cases hn : n ≤ l.length
    · rw [List.take_append_of_le_length hn, planCost_append]
      omega
    · rw [List.take_of_length_le (by simp; omega)]

/-- The plan so far keeps the room R, and the template's limits. -/
structure PlanOk (t : Bytes) (room : Nat) (p : PackPlan) : Prop where
  cost : planCost t p.used + p.room ≤ room
  passages : p.used.length ≤ tplMaxPassages t
  docs : ∀ d, (p.used.filter fun u => decide (u.2.2 = d)).length ≤ tplDocLimit t

theorem PlanOk.take {room : Nat} {p : PackPlan} (hp : PlanOk t room p) {i doc k : Nat} {x : PackPlan} (hroom : passageFrame t (p.used.length + 1) + k ≤ p.room)
    (hlen : p.used.length < tplMaxPassages t) (hdoc : (p.used.filter fun u => decide (u.2.2 = doc)).length < tplDocLimit t)
    (hused : x.used = p.used ++ [(i, k, doc)]) (hleft : x.room = p.room - (passageFrame t (p.used.length + 1) + k)) : PlanOk t room x := by
  obtain ⟨hcost, -, hdocs⟩ := hp
  refine ⟨?_, by rw [hused, List.length_append]; exact hlen, fun d => ?_⟩
  · rw [hused, hleft, planCost_append]
    dsimp only
    omega
  · rw [hused, List.filter_append, List.length_append]
    by_cases hd : doc = d
    · subst hd
      simpa using hdoc
    · simpa [hd] using hdocs d

theorem cutPoint_le {toks : List Nat} {top k : Nat} (hk : cutPoint t toks top = some k) : k ≤ top := by
  have hmem := List.mem_of_find?_eq_some hk
  rw [List.mem_reverse, List.mem_range] at hmem
  omega

theorem planStep_ok {room : Nat} {p : PackPlan} (hp : PlanOk t room p) (c : PackCand) : PlanOk t room (planStep t p c) := by
  have hcost := hp.cost
  unfold planStep
  split
  · exact hp
  · rename_i hlen
    split
    · exact ⟨hp.cost, hp.passages, hp.docs⟩
    · rename_i hdoc
      dsimp only
      split
      · rename_i hfit
        exact hp.take hfit (not_le.mp hlen) (not_le.mp hdoc) rfl rfl
      · split
        · rename_i k hcut
          split at hcut
          · rename_i htr
            have hle := cutPoint_le hcut
            have hframe : passageFrame t (p.used.length + 1) ≤ p.room := by simpa using (Bool.and_eq_true_iff.mp htr).2
            exact hp.take (by omega) (not_le.mp hlen) (not_le.mp hdoc) rfl rfl
          · cases hcut
        · exact ⟨hp.cost, hp.passages, hp.docs⟩

theorem packPlan_ok (t : Bytes) (cs : List PackCand) (room : Nat) : PlanOk t room (packPlan t cs room) := by
  have hfold : ∀ (cs : List PackCand) (p : PackPlan), PlanOk t room p → PlanOk t room (cs.foldl (planStep t) p) := by
    intro cs
    induction cs with
    | nil => exact fun _ hp => hp
    | cons c cs ih => exact fun p hp => ih _ (planStep_ok hp c)
  refine hfold cs _ ⟨?_, Nat.zero_le _, fun _ => Nat.zero_le _⟩
  show 0 + room ≤ room
  omega

theorem keepHistory_sum (cap : Nat) (l : List (List Nat)) : ((keepHistory cap l).map List.length).sum ≤ cap := by
  induction l generalizing cap with
  | nil => exact Nat.zero_le _
  | cons e l ih =>
    unfold keepHistory
    split
    · have := ih (cap - e.length)
      rw [List.map_append, List.sum_append]
      simp only [List.map_cons, List.map_nil, List.sum_cons, List.sum_nil]
      omega
    · exact Nat.zero_le _

/-! ## The prompt (R200, R206) -/

section
variable (q : Request) (question : List Nat) (hist : List (List Nat)) (toksOf : Nat → List Nat × Bool) (kept : List (Nat × Nat × Nat))

/-- Tokens that a passage takes in the prompt. -/
def emitCost (t : Bytes) (toksOf : Nat → List Nat × Bool) (y : Nat × (Nat × Nat × Nat)) : Nat :=
  (emitPassage t y.1 ((toksOf y.2.1).1.take y.2.2.1)).length

theorem emitCost_le (t : Bytes) (y : Nat × (Nat × Nat × Nat)) : emitCost t toksOf y ≤ passageFrame t y.1 + y.2.2.1 := by
  have htake : ((toksOf y.2.1).1.take y.2.2.1).length ≤ y.2.2.1 := List.length_take_le ..
  unfold emitCost emitPassage passageFrame
  simp only [List.length_append]
  omega

/-- The passages stand in their order, or the other way round. -/
theorem perm_placed (t : Bytes) (kept : List (Nat × Nat × Nat)) : (placed t kept).Perm (numbered kept) := by
  unfold placed
  extract_lets n kinds first
  split
  · exact .refl _
  · exact List.reverse_perm _

/-- The passages take no more than the plan. -/
theorem sum_placed_le (t : Bytes) : ((placed t kept).map (emitCost t toksOf)).sum ≤ planCost t kept := by
  rw [((perm_placed t kept).map _).sum_eq]
  exact List.sum_le_sum fun y _ => emitCost_le toksOf t y

/-- What a slot adds to the prompt. -/
def slotCost (t : Bytes) (x : Nat × Nat × Nat) : Nat :=
  match x.1 with
  | 0 => x.2.2
  | 1 => hist.flatten.length
  | 3 => question.length
  | _ => ((placed t kept).map (emitCost t toksOf)).sum

theorem length_tplRun (t : Bytes) (off len : Nat) : (tplRun t off len).length = len := by simp [tplRun]

theorem length_assemble (t : Bytes) : (assemble t q question hist toksOf kept).prompt.length =
    ((tplSlotList t).map (slotCost question hist toksOf kept t)).sum := by
  have hpassages : ∀ (l : List (Nat × (Nat × Nat × Nat))) (a : Packed), (l.foldl (fun a y =>
      ({ prompt := a.prompt ++ emitPassage t y.1 ((toksOf y.2.1).1.take y.2.2.1)
         entries := a.entries ++ reportEntry t ((q.ret.cands[y.2.1]?).getD { pid := 0, score := 0 }) (toksOf y.2.1).1.length y.2.2.1 y.1 q.ret.noRerank
          (((q.ret.cands[y.2.1]?).getD { pid := 0, score := 0 }).tokenized || (toksOf y.2.1).2) a.prompt.length } : Packed)) a).prompt.length =
      a.prompt.length + (l.map (emitCost t toksOf)).sum := by
    intro l
    induction l with
    | nil => exact fun _ => rfl
    | cons y l ih =>
      intro a
      rw [List.foldl_cons, ih, List.map_cons, List.sum_cons, List.length_append, ← Nat.add_assoc]
      rfl
  have hslots : ∀ (l : List (Nat × Nat × Nat)) (a : Packed), (l.foldl (fun a x =>
      match x.1 with
      | 0 => { a with prompt := a.prompt ++ tplRun t x.2.1 x.2.2 }
      | 1 => { a with prompt := a.prompt ++ hist.flatten }
      | 3 => { a with prompt := a.prompt ++ question }
      | _ => (placed t kept).foldl (fun a y =>
        ({ prompt := a.prompt ++ emitPassage t y.1 ((toksOf y.2.1).1.take y.2.2.1)
           entries := a.entries ++ reportEntry t ((q.ret.cands[y.2.1]?).getD { pid := 0, score := 0 }) (toksOf y.2.1).1.length y.2.2.1 y.1 q.ret.noRerank
            (((q.ret.cands[y.2.1]?).getD { pid := 0, score := 0 }).tokenized || (toksOf y.2.1).2) a.prompt.length } : Packed)) a) a).prompt.length =
      a.prompt.length + (l.map (slotCost question hist toksOf kept t)).sum := by
    intro l
    induction l with
    | nil => exact fun _ => rfl
    | cons x l ih =>
      intro a
      rw [List.foldl_cons, ih, List.map_cons, List.sum_cons, ← Nat.add_assoc]
      congr 1
      unfold slotCost
      split
      · simp [length_tplRun]
      · simp
      · simp
      · exact hpassages ..
  exact (hslots (tplSlotList t) {}).trans (Nat.zero_add _)

/-- The slots of a kind. -/
def ofKind (k : Nat) (l : List (Nat × Nat × Nat)) : List (Nat × Nat × Nat) := l.filter fun x => decide (x.1 = k)

theorem sum_slotCost (t : Bytes) (l : List (Nat × Nat × Nat)) (hl : ∀ x ∈ l, x.1 ≤ 3) : (l.map (slotCost question hist toksOf kept t)).sum =
    ((ofKind 0 l).map (·.2.2)).sum + (ofKind 1 l).length * hist.flatten.length + (ofKind 3 l).length * question.length
      + (ofKind 2 l).length * ((placed t kept).map (emitCost t toksOf)).sum := by
  induction l with
  | nil => simp [ofKind]
  | cons x l ih =>
    obtain ⟨k, off, len⟩ := x
    have hk : k ≤ 3 := hl _ (.head _)
    rw [List.map_cons, List.sum_cons, ih fun y hy => hl y (.tail _ hy)]
    unfold ofKind slotCost
    match k, hk with
    | 0, _ => simp; ring
    | 1, _ => simp; ring
    | 2, _ => simp; ring
    | 3, _ => simp; ring

theorem mandatory_eq (t : Bytes) : mandatory t question = question.length + ((ofKind 0 (tplSlotList t)).map (·.2.2)).sum := by
  have hfold : ∀ (l : List (Nat × Nat × Nat)) (n : Nat), l.foldl (fun a x => a + x.2.2) n = n + (l.map (·.2.2)).sum := by
    intro l
    induction l with
    | nil => exact fun _ => rfl
    | cons x l ih =>
      intro n
      rw [List.foldl_cons, ih, List.map_cons, List.sum_cons, Nat.add_assoc]
  exact hfold ..

end

/-- What a valid template says of its slots (R201). -/
structure TemplateSlots (t : Bytes) : Prop where
  kinds : ∀ x ∈ tplSlotList t, x.1 ≤ 3
  passages : kindCount t 2 = 1
  question : kindCount t 3 = 1
  history : kindCount t 1 ≤ 1
  budget : tplBudget t ≤ 32768

theorem templateSlots_of_ok (ht : templateOk t = true) : TemplateSlots t := by
  unfold templateOk at ht
  simp only [Bool.and_eq_true, decide_eq_true_eq, List.all_eq_true] at ht
  obtain ⟨⟨⟨⟨⟨⟨⟨⟨⟨⟨⟨⟨⟨⟨⟨⟨-, -⟩, hbudget⟩, -⟩, -⟩, -⟩, -⟩, -⟩, -⟩, -⟩, -⟩, -⟩, -⟩, hkinds⟩, hpassages⟩, hquestion⟩, hhistory⟩ := ht
  exact ⟨fun x hx => (hkinds x hx).1, hpassages, hquestion, hhistory, hbudget.2⟩

/-- Literals, question, history and passages stay within the budget (R203 to R206). -/
theorem length_prompt_le (ht : templateOk t = true) {question : List Nat} {hist : List (List Nat)} {toksOf : Nat → List Nat × Bool}
    {kept : List (Nat × Nat × Nat)} (hfit : mandatory t question + (hist.map List.length).sum + planCost t kept ≤ tplBudget t) :
    (assemble t q question hist toksOf kept).prompt.length ≤ tplBudget t := by
  obtain ⟨hkinds, hpassages, hquestion, hhistory, -⟩ := templateSlots_of_ok ht
  have h1 : (ofKind 1 (tplSlotList t)).length ≤ 1 := hhistory
  have h2 : (ofKind 2 (tplSlotList t)).length = 1 := hpassages
  have h3 : (ofKind 3 (tplSlotList t)).length = 1 := hquestion
  have hplaced := sum_placed_le toksOf kept t
  rw [mandatory_eq] at hfit
  have hhist : (ofKind 1 (tplSlotList t)).length * hist.flatten.length ≤ (hist.map List.length).sum := by
    rw [List.length_flatten]
    exact (Nat.mul_le_mul_right _ h1).trans_eq (Nat.one_mul _)
  rw [length_assemble, sum_slotCost question hist toksOf kept t _ hkinds, h2, h3]
  omega

end Sys2Proof.Machine

/-! # The prompt in the store, and on to the generator (R203, R207, R208, R310) -/

namespace Sys2Proof.Machine

variable {s t : State} {h k : Nat} {q : Request} {tpl : Bytes} {src : DieId} {w : Bool}

/-! ## Room in the pool -/

theorem freeConductor_isSome {i : TileIdx} (hi : i ∈ (List.range Config.conductorTiles).map fun k => BitVec.ofNat 17 (Config.conductorBase + k))
    (hf : (slotOf s i).hdr.state = .free) : (freeConductor s).isSome = true := by
  unfold freeConductor
  rw [List.find?_isSome]
  exact ⟨i, hi, decide_eq_true hf⟩

/-- As many free tiles as are written suffice. -/
theorem conductorPut_of_room (l : List Tile) {free : List TileIdx} (hn : free.Nodup) (hlen : l.length ≤ free.length)
    (hpool : ∀ i ∈ free, i ∈ (List.range Config.conductorTiles).map fun k => BitVec.ofNat 17 (Config.conductorBase + k))
    (hfree : ∀ i ∈ free, (slotOf s i).hdr.state = .free) : (conductorPut src w l s).isSome = true := by
  induction l generalizing s free with
  | nil => rfl
  | cons a l ih =>
    obtain ⟨i₀, hi₀⟩ : ∃ i, i ∈ free := List.exists_mem_of_length_pos (by simp at hlen; omega)
    obtain ⟨i, hi⟩ := Option.isSome_iff_exists.mp (freeConductor_isSome (hpool i₀ hi₀) (hfree i₀ hi₀))
    have hrest := ih (s := writeTile s src i (passing a) w) (hn.erase i) (by
      rw [List.length_cons] at hlen
      rw [List.length_erase]
      split <;> omega) (fun j hj => hpool j (List.mem_of_mem_erase hj)) fun j hj => by
        rw [slotOf_writeTile_of_ne _ _ _ _ fun h => (hn.not_mem_erase) (h ▸ hj)]
        exact hfree j (List.mem_of_mem_erase hj)
    unfold conductorPut
    rw [hi, Option.bind_some]
    simpa using hrest

/-- A pool that is free takes up to 8,192 tiles. -/
theorem conductorPut_of_free (hf : conductorFree s) {l : List Tile} (hl : l.length ≤ Config.conductorTiles) : (conductorPut src w l s).isSome = true := by
  refine conductorPut_of_room l (free := (List.range Config.conductorTiles).map fun k => BitVec.ofNat 17 (Config.conductorBase + k)) ?_ ?_
    (fun _ hi => hi) fun i hi => ?_
  · refine List.Nodup.map_on (fun a ha b hb hab => ?_) List.nodup_range
    rw [List.mem_range] at ha hb
    have := congrArg BitVec.toNat hab
    rw [BitVec.toNat_ofNat, BitVec.toNat_ofNat] at this
    unfold Config.conductorTiles Config.conductorBase at *
    omega
  · rw [List.length_map, List.length_range]
    exact hl
  · obtain ⟨k, hk, rfl⟩ := List.mem_map.mp hi
    exact hf k (List.mem_range.mp hk)

theorem length_promptTiles (tn : Tenant) {l : List Nat} (hl : l.length ≤ 32768) : (promptTilesOf tn l).length ≤ Config.conductorTiles := by
  have hbytes : (l.flatMap (toLE 4)).length = 4 * l.length := by
    rw [List.length_flatMap]
    simp [length_toLE, Nat.mul_comm]
  unfold promptTilesOf rawTiles
  rw [List.length_map, List.length_range, hbytes]
  unfold Config.conductorTiles
  omega

/-! ## Packing a turn -/

/-- History entries that the prompt keeps (R203). -/
def packHistory (q : Request) (t : Bytes) : List (List Nat) :=
  if kindCount t 1 = 0 then []
  else keepHistory (min (tplHistoryMax t) (tplBudget t - mandatory t (questionIn q (BitVec.ofNat 2 (tplSet t))))) q.block.history.reverse

/-- Tokens of the prompt without its passages. -/
def packUsed (q : Request) (t : Bytes) : Nat := mandatory t (questionIn q (BitVec.ofNat 2 (tplSet t))) + ((packHistory q t).map List.length).sum

/-- The ranked candidates with their tokens. -/
def packCands (s : State) (q : Request) (t : Bytes) : List (Nat × List Nat × Option Tokens) := q.ret.ranked.map (packTokens s (BitVec.ofNat 2 (tplSet t)) q)

/-- The plan of a turn (R204). -/
def packedPlan (s : State) (q : Request) (t : Bytes) : PackPlan :=
  packPlan t ((packCands s q t).map fun c => { idx := c.1, doc := rd (((q.ret.cands[c.1]?).bind (·.block)).getD []) 0 8, toks := c.2.1 }) (tplBudget t - packUsed q t)

/-- The state once the replaced and joined characters of tokenizing are counted. -/
def packCounted (s : State) (q : Request) (t : Bytes) : State :=
  ((packCands s q t).filterMap fun c => c.2.2).foldl (fun s m => countText s q.fn q.tag m) s

/-- The passages that rung 5 leaves. -/
def packKept (s : State) (q : Request) (t : Bytes) : List (Nat × Nat × Nat) :=
  (packedPlan s q t).used.take (rungPassages (packCounted s q t) q t (packUsed q t) (packedPlan s q t).used)

/-- A candidate's tokens for the prompt. -/
def packToks (s : State) (q : Request) (t : Bytes) (i : Nat) : List Nat × Bool :=
  match (packCands s q t).find? fun c => decide (c.1 = i) with
  | some c => (c.2.1, c.2.2.isSome)
  | none => ([], false)

/-- The prompt and its report. -/
def packOut (s : State) (q : Request) (t : Bytes) : Packed :=
  assemble t q (questionIn q (BitVec.ofNat 2 (tplSet t))) (packHistory q t) (packToks s q t) (packKept s q t)

/-- The request with its plan and prompt. -/
def packNoted (s : State) (q : Request) (t : Bytes) (v : Request) : Request :=
  { v with
    flags := if rungPassages (packCounted s q t) q t (packUsed q t) (packedPlan s q t).used < (packedPlan s q t).used.length
      then v.flags ||| flagFewerPassages else v.flags
    invalidText := v.invalidText + (((packCands s q t).filterMap fun c => c.2.2).map (·.replaced)).sum
    ret := { v.ret with
      plan := packKept s q t, docSkips := (packedPlan s q t).docSkips, budgetSkips := (packedPlan s q t).budgetSkips
      historyDropped := v.block.history.length - (packHistory q t).length, prompt := (packOut s q t).prompt } }

theorem packTurn_eq (s : State) (h : Nat) (q : Request) (t : Bytes) : packTurn s h q t =
    match conductorPut 0x3C false (promptTilesOf q.fn (packOut s q t).prompt) (modReq (packCounted s q t) h (packNoted s q t)) with
    | none => s
    | some (ts, s') => toPhase (modReq s' h fun v => { v with ret := { v.ret with
        report := reportSummary v (packKept s q t).length (packOut s q t).prompt.length ++ (packOut s q t).entries, promptTiles := ts } }) h .ready := by
  rfl

theorem countText_keeps (s : State) (tn : Tenant) (tag : BitVec 64) (m : Tokens) :
    (countText s tn tag m).store = s.store ∧ (countText s tn tag m).host.requests = s.host.requests := by
  unfold countText
  dsimp only
  split
  · simp
  · exact ⟨rfl, rfl⟩

theorem packCounted_keeps (s : State) (q : Request) (t : Bytes) :
    (packCounted s q t).store = s.store ∧ (packCounted s q t).host.requests = s.host.requests := by
  have hfold : ∀ (l : List Tokens) (s : State), (l.foldl (fun s m => countText s q.fn q.tag m) s).store = s.store
      ∧ (l.foldl (fun s m => countText s q.fn q.tag m) s).host.requests = s.host.requests := by
    intro l
    induction l with
    | nil => exact fun _ => ⟨rfl, rfl⟩
    | cons m l ih =>
      intro s
      obtain ⟨hstore, hreq⟩ := ih (countText s q.fn q.tag m)
      obtain ⟨hstore', hreq'⟩ := countText_keeps s q.fn q.tag m
      exact ⟨hstore.trans hstore', hreq.trans hreq'⟩
  exact hfold ..

theorem length_packOut_le (ht : templateOk tpl = true) (hm : mandatory tpl (questionIn q (BitVec.ofNat 2 (tplSet tpl))) ≤ tplBudget tpl) :
    (packOut s q tpl).prompt.length ≤ tplBudget tpl := by
  refine length_prompt_le ht ?_
  have hplan := (packPlan_ok tpl ((packCands s q tpl).map fun c =>
    { idx := c.1, doc := rd (((q.ret.cands[c.1]?).bind (·.block)).getD []) 0 8, toks := c.2.1 }) (tplBudget tpl - packUsed q tpl)).cost
  have hkept : planCost tpl (packKept s q tpl) ≤ planCost tpl (packedPlan s q tpl).used := planCost_take ..
  have hhist : ((packHistory q tpl).map List.length).sum ≤ tplBudget tpl - mandatory tpl (questionIn q (BitVec.ofNat 2 (tplSet tpl))) := by
    unfold packHistory
    split
    · exact Nat.zero_le _
    · exact (keepHistory_sum ..).trans (min_le_right ..)
  have hused : packUsed q tpl = mandatory tpl (questionIn q (BitVec.ofNat 2 (tplSet tpl))) + ((packHistory q tpl).map List.length).sum := rfl
  have hcost : planCost tpl (packedPlan s q tpl).used + (packedPlan s q tpl).room ≤ tplBudget tpl - packUsed q tpl := hplan
  omega

theorem packStart_packs (hq : reqOf s h = some q) (hp : q.phase = .pack) (hc : q.cancel = false) (htpl : q.template = some tpl)
    (ht : templateOk tpl = true) (hf : conductorFree s) (hm : mandatory tpl (questionIn q (BitVec.ofNat 2 (tplSet tpl))) ≤ tplBudget tpl) :
    ∃ v, reqOf (packStart s h) h = some v ∧ v.phase = .ready ∧ v.ret.prompt.length ≤ tplBudget tpl ∧ v.ret.plan.length ≤ tplMaxPassages tpl
      ∧ v.ret.promptTiles.length = (promptTilesOf q.fn v.ret.prompt).length
      ∧ (∀ d, (v.ret.plan.filter fun x => decide (x.2.2 = d)).length ≤ tplDocLimit tpl) := by
  have hrun : packStart s h = packTurn s h q tpl := by
    unfold packStart
    rw [hq]
    dsimp only
    rw [if_neg (not_not.mpr hp), htpl]
    exact if_neg (not_lt.mpr hm)
  obtain ⟨hstore, hreq⟩ := packCounted_keeps s q tpl
  have hq₁ : reqOf (packCounted s q tpl) h = some q := (reqOf_congr hreq h).trans hq
  have hprompt := length_packOut_le (s := s) (q := q) ht hm
  have hbudget := (templateSlots_of_ok ht).budget
  have hfree : conductorFree (modReq (packCounted s q tpl) h (packNoted s q tpl)) := fun k hk => by
    rw [slotOf_congr (s := s) (by simp [hstore])]
    exact hf k hk
  obtain ⟨⟨ts, s'⟩, hput⟩ := Option.isSome_iff_exists.mp (conductorPut_of_free (src := 0x3C) (w := false) hfree
    (length_promptTiles q.fn (l := (packOut s q tpl).prompt) (by omega)))
  have hq₂ : reqOf s' h = some (packNoted s q tpl q) := (reqOf_congr (conductorPut_requests hput) h).trans (reqOf_modReq_same hq₁ _)
  have hplan : PlanOk tpl (tplBudget tpl - packUsed q tpl) (packedPlan s q tpl) := packPlan_ok ..
  rw [hrun, packTurn_eq, hput]
  dsimp only
  rw [toPhase_of_open (reqOf_modReq_same hq₂ _) hc]
  refine ⟨_, reqOf_setReq_same .., rfl, hprompt, ?_, conductorPut_length hput, fun d => ?_⟩
  · exact (List.length_take_le' ..).trans hplan.passages
  · exact (((List.take_sublist _ _).filter _).length_le).trans (hplan.docs d)

end Sys2Proof.Machine

/-! # From the packed prompt to the generator (R190, R207, R208, R310) -/

namespace Sys2Proof.Machine

variable {s t : State} {h k : Nat} {q : Request}

/-! ## Tiles given back -/

theorem free_of_freePassing_free (ts : List TileIdx) {i : TileIdx} (hi : (slotOf s i).hdr.state = .free) :
    (slotOf (freePassing s ts) i).hdr.state = .free := by
  induction ts generalizing s with
  | nil => exact hi
  | cons a ts ih =>
    refine ih (s := setSlot s a fun x => { x with hdr := { x.hdr with state := .free } }) ?_
    rw [slotOf_setSlot]
    split
    · rfl
    · exact hi

theorem free_of_freePassing {ts : List TileIdx} {i : TileIdx} (hi : i ∈ ts) : (slotOf (freePassing s ts) i).hdr.state = .free := by
  induction ts generalizing s with
  | nil => cases hi
  | cons a ts ih =>
    rcases List.mem_cons.mp hi with rfl | hi
    · refine free_of_freePassing_free (s := setSlot s i fun x => { x with hdr := { x.hdr with state := .free } }) ts ?_
      rw [slotOf_setSlot, if_pos rfl]
    · exact ih hi

/-! ## A prompt that came back damaged -/

theorem promptReady_of_damaged (hq : reqOf s h = some q) (hp : q.phase = .ready) (hc : q.cancel = false) (hr : q.ret.rerun = false) :
    reqOf (promptReady s h false) h = some { q with phase := .pack, ret := { q.ret with rerun := true, promptTiles := [] } }
      ∧ ∀ i ∈ q.ret.promptTiles, (slotOf (promptReady s h false) i).hdr.state = .free := by
  have hfree := reqOf_modReq_same ((reqOf_freePassing s q.ret.promptTiles h).trans hq) fun q' : Request => { q' with ret := { q'.ret with promptTiles := [] } }
  have hrun : promptReady s h false = modReq (modReq (freePrompt s h) h fun r => { r with ret := { r.ret with rerun := true } }) h
      fun r => { r with phase := .pack } := by
    unfold promptReady freePrompt
    rw [hq]
    dsimp only
    rw [if_neg (not_not.mpr hp), if_neg (by simp [hc]), if_pos (show (!false) = true from rfl)]
    unfold rerunPhase
    rw [hfree]
    exact if_neg (by simp [hr])
  rw [hrun]
  unfold freePrompt
  rw [hq]
  refine ⟨reqOf_modReq_same (reqOf_modReq_same hfree _) _, fun i hi => ?_⟩
  rw [slotOf_congr (s := freePassing s q.ret.promptTiles) (by simp)]
  exact free_of_freePassing hi

/-! ## A prompt that goes on -/

/-- The request as it waits for its generator. -/
def sentOn (q : Request) : Request :=
  { q with phase := .waiting, template := none, ret := { q.ret with scanTiles := [], unitTiles := [], tplTile := [], cands := [], probes := [] } }

/-- The state in which the turn's tiles are free and its prompt waits for the generator. -/
def promptSent (s : State) (h : Nat) (q : Request) : State :=
  setReq (phaseEnds (modReq (freeHeld s h) h fun q => { q with template := none, ret := { q.ret with cands := [], probes := [] } }) h) h (sentOn q)

/-- A post of PASSAGES leaves all but the queue pairs. -/
theorem post_passages (s : State) (q : Request) : ∃ qps, post s q.fn q.qp (passagesOf q) = { s with host := { s.host with qps := qps } } := by
  rw [post_of_closes_none _ _ _ rfl]
  exact (tryPost_onlyPosts ..).state

theorem promptReady_eq (hq : reqOf s h = some q) (hp : q.phase = .ready) (hc : q.cancel = false)
    (ht : ∀ i ∈ q.ret.promptTiles, readable s i = true) : promptReady s h true =
      queueItem (promptSent (post s q.fn q.qp (passagesOf q)) h q) (partId q.block.genPart) q.fn { kind := .prompt, handle := h } := by
  obtain ⟨qps, hqps⟩ := post_passages s q
  have hq' : reqOf (post s q.fn q.qp (passagesOf q)) h = some q := by
    rw [hqps]
    exact hq
  have hheld : reqOf (freeHeld (post s q.fn q.qp (passagesOf q)) h) h = some { q with ret := { q.ret with scanTiles := [], unitTiles := [], tplTile := [] } } := by
    unfold freeHeld
    rw [hq']
    exact reqOf_modReq_same ((reqOf_freePassing ..).trans hq') _
  have hphase : toPhase (modReq (freeHeld (post s q.fn q.qp (passagesOf q)) h) h fun q =>
      { q with template := none, ret := { q.ret with cands := [], probes := [] } }) h .waiting = promptSent (post s q.fn q.qp (passagesOf q)) h q :=
    toPhase_of_open (reqOf_modReq_same hheld _) hc _
  have hall : q.ret.promptTiles.all (readable s) = true := List.all_eq_true.mpr ht
  unfold promptReady
  rw [hq]
  dsimp only
  rw [if_neg (not_not.mpr hp), if_neg (by simp [hc]), if_neg (show ¬(!true) = true from Bool.false_ne_true), if_neg (by simp [hall]), hphase]
  refine if_pos ?_
  exact (congrArg (Option.any fun r => decide (r.phase = .waiting)) (reqOf_setReq_same ..)).trans rfl

theorem modReq_qps (s : State) (f : Request → Request) : (modReq s h f).host.qps = s.host.qps := by
  unfold modReq
  split <;> rfl

theorem reqOf_promptSent_same : reqOf (promptSent s h q) h = some (sentOn q) := reqOf_setReq_same ..

theorem reqOf_promptSent_other (hk : k ≠ h) : reqOf (promptSent s h q) k = reqOf s k := by
  have hreq : reqOf (promptSent s h q) k = reqOf (freeHeld s h) k := by
    unfold promptSent
    rw [reqOf_setReq, if_neg hk]
    exact reqOf_modReq_other _ _ hk
  rw [hreq]
  unfold freeHeld
  split
  · rfl
  · rw [reqOf_modReq_other _ _ hk, reqOf_freePassing]

theorem slotOf_promptSent (hq : reqOf s h = some q) {i : TileIdx} (hi : i ∈ heldTiles q) : (slotOf (promptSent s h q) i).hdr.state = .free := by
  have hslot : slotOf (promptSent s h q) i = slotOf (freePassing s (heldTiles q)) i := by
    unfold promptSent freeHeld
    rw [hq]
    exact slotOf_congr (by simp) i
  rw [hslot]
  exact free_of_freePassing hi

theorem qpOf_promptSent (fn : Tenant) (p : BitVec 3) : qpOf (promptSent s h q) fn p = qpOf s fn p := by
  have hqps : (promptSent s h q).host.qps = s.host.qps := by
    rw [show (promptSent s h q).host.qps = (modReq (freeHeld s h) h _).host.qps from rfl, modReq_qps]
    unfold freeHeld
    split
    · rfl
    · simp [modReq_qps]
  exact qpOf_congr hqps fn p

theorem partOf_promptSent (p : PartId) : partOf (promptSent s h q) p = partOf s p := by
  have hgen : (promptSent s h q).gen = s.gen := by
    unfold promptSent freeHeld
    split <;> simp
  unfold partOf
  rw [hgen]

theorem slotOf_queueItem (s : State) (p : PartId) (tn : Tenant) (x : Item) (i : TileIdx) : slotOf (queueItem s p tn x) i = slotOf s i := rfl

theorem reqOf_queueItem (s : State) (p : PartId) (tn : Tenant) (x : Item) (k : Nat) : reqOf (queueItem s p tn x) k = reqOf s k := rfl

theorem qpOf_queueItem (s : State) (p : PartId) (tn : Tenant) (x : Item) (fn : Tenant) (r : BitVec 3) : qpOf (queueItem s p tn x) fn r = qpOf s fn r := rfl

theorem promptReady_of_good (hq : reqOf s h = some q) (hp : q.phase = .ready) (hc : q.cancel = false)
    (ht : ∀ i ∈ q.ret.promptTiles, readable s i = true) : reqOf (promptReady s h true) h = some (sentOn q)
      ∧ (∀ i ∈ heldTiles q, (slotOf (promptReady s h true) i).hdr.state = .free)
      ∧ mget [] (partOf (promptReady s h true) (partId q.block.genPart)).rings q.fn.toNat
        = mget [] (partOf s (partId q.block.genPart)).rings q.fn.toNat ++ [{ kind := .prompt, handle := h }]
      ∧ (canPost s q.fn q.qp → (qpOf (promptReady s h true) q.fn q.qp).waiting = (qpOf s q.fn q.qp).waiting ++ [passagesOf q])
      ∧ ∀ k, k ≠ h → reqOf (promptReady s h true) k = reqOf s k := by
  obtain ⟨qps, hqps⟩ := post_passages s q
  have hreq : (post s q.fn q.qp (passagesOf q)).host.requests = s.host.requests := by rw [hqps]
  rw [promptReady_eq hq hp hc ht]
  refine ⟨?_, fun i hi => ?_, ?_, fun hpost => ?_, fun k hk => ?_⟩
  · rw [reqOf_queueItem, reqOf_promptSent_same]
  · rw [slotOf_queueItem]
    exact slotOf_promptSent ((reqOf_congr hreq h).trans hq) hi
  · unfold queueItem
    rw [partOf_setPart, if_pos rfl, partOf_promptSent, hqps]
    simp [partOf]
  · rw [qpOf_queueItem, qpOf_promptSent, post_of_canPost hpost, waiting_posted]
  · rw [reqOf_queueItem, reqOf_promptSent_other hk, reqOf_congr hreq]

/-- Settles O24: pairs are queued one by one (`foldl_queuePair`), the ranks are those of an exact selection (`rankOrder_falls`), a plan keeps its
budget (`length_prompt_le`), and the prompt waits for its generator once its tiles are free (`promptReady_eq`). -/
theorem rerankAndPackKeepTheBudget : Obligations.RerankAndPackKeepTheBudget := by
  unfold Obligations.RerankAndPackKeepTheBudget
  intro s h q g tpl hq hc
  refine ⟨fun hp hn hr => ⟨fun hne hg ho hb hv ht => ?_, fun hne hg ho => ?_⟩, fun hp ho hne hlen hrank => ?_, fun hp htpl htok hfree hm => ?_,
    fun hp ht => ?_, fun hp hr => ?_⟩
  · exact ⟨_, rfl, rerankStart_of_rerank hq hp hn hr hne hg ho hb hv ht⟩
  · have hrun := rerankStart_of_none hq hp hn hr hne hg ho
    refine ⟨_, congrArg Host.Outcome.next hrun, reqOf_setReq_same .., rfl⟩
  · obtain ⟨v, hv, hphase, hranked, hcands, hstore⟩ := rerankEnd_of_ranked hq hp ho hne (fun c hmem => (hrank c hmem).1) hc
    refine ⟨_, rfl, v, hv, hphase, ?_, hcands, fun i _ a b ha hb hbn _ => ?_, hstore⟩
    · rw [hranked]
      exact perm_rankOrder hlen
    · rw [hranked] at ha hb
      exact rankOrder_falls hlen (fun c hmem => (hrank c hmem).2) ha hb hbn
  · obtain ⟨v, hv, hphase, hprompt, hplan, htiles, hdocs⟩ := packStart_packs hq hp hc htpl htok hfree hm
    exact ⟨_, rfl, v, hv, hphase, hprompt, hplan, htiles, hdocs, (packStart_frame s h).1⟩
  · obtain ⟨hsent, hfree, hring, hpost, hothers⟩ := promptReady_of_good hq hp hc ht
    exact ⟨_, rfl, _, hsent, rfl, rfl, rfl, rfl, hfree, rfl, hring, hpost, hothers, (promptReady_frame s h true).2.1⟩
  · exact ⟨_, rfl, promptReady_of_damaged hq hp hc hr⟩

end Sys2Proof.Machine

/-! # Check records of a step (R346, R349) -/

namespace Sys2Proof.Machine

section
variable {s : State} {p : PartId} {c : CheckRecord} {outs : List (Nat × Nat × List Word)}

/-- A check record takes 64 bytes. -/
theorem length_checkRecord (c : CheckRecord) : c.bytes.length = 64 := by
  unfold CheckRecord.bytes
  simp only [List.length_append, length_toLE, List.length_cons, List.length_nil, List.length_replicate]

/-- The tile of an engine's check record. -/
def checkTile (p : PartId) (e : Epoch) (r : CheckRecord) : Tile := recordTile p e e true 64 [r.bytes]

theorem shapeOk_checkTile (p : PartId) (e : Epoch) (r : CheckRecord) :
    shapeOk (checkTile p e r).hdr.format (checkTile p e r).hdr.rows.toNat (checkTile p e r).hdr.cols.toNat = true := by
  have h : shapeOk 0x10 (BitVec.ofNat 16 1).toNat (BitVec.ofNat 16 64).toNat = true := by decide
  exact h

theorem take_checkTile (p : PartId) (e : Epoch) (r : CheckRecord) : (checkTile p e r).payload.take 64 = r.bytes := by
  have h : (checkTile p e r).payload = pad 16384 r.bytes := congrArg (pad 16384) (List.flatten_singleton ..)
  rw [h, ← length_checkRecord r]
  exact take_pad_of_le (by rw [length_checkRecord]; decide)

/-- A lead engine whose step has no update writes no images. -/
theorem writeImages_of_none (h : ∀ i ∈ (partOf s p).step.items, i.kind ≠ .update) (e : Engine) : writeImages s p e = s := by
  have hnone : (partOf s p).step.items.filter (fun i => decide (i.kind = .update)) = [] :=
    List.filter_eq_nil_iff.mpr fun i hi => by simp [h i hi]
  unfold writeImages
  dsimp only
  rw [hnone]
  rfl

/-- The step with an engine's record. -/
def recorded (s : State) (c : CheckRecord) (outs : List (Nat × Nat × List Word)) (st : Step) : Step :=
  { st with checks := st.checks ++ [ownRecord s c], outs := st.outs ++ outs.filter (ofInput st) }

theorem checkRecordWrite_of_recorded (hr : ∃ r ∈ (partOf s c.partition).step.checks, r.engine = c.engine) : checkRecordWrite s c outs = s := by
  obtain ⟨r, hmem, he⟩ := hr
  refine if_pos ?_
  simp only [Bool.or_eq_true, List.any_eq_true, decide_eq_true_eq]
  exact .inr ⟨r, hmem, he⟩

theorem checkRecordWrite_of_first (hrun : (partOf s c.partition).step.running = true)
    (he : c.engine ∈ mappingEngines (mappingOf (partOf s c.partition))) (hr : ∀ r ∈ (partOf s c.partition).step.checks, r.engine ≠ c.engine)
    (hi : c.engine = leadEngine (partOf s c.partition) → ∀ i ∈ (partOf s c.partition).step.items, i.kind ≠ .update) :
    checkRecordWrite s c outs = writeTile (setStep s c.partition (recorded s c outs)) (BitVec.ofNat 6 (c.engine.val / 2))
      (BitVec.ofNat 17 (checkPlace (partOf s c.partition) c.engine)) (checkTile c.partition (partOf s c.partition).step.epoch (ownRecord s c)) false := by
  have himages : (if c.engine = leadEngine (partOf s c.partition) then writeImages s c.partition c.engine else s) = s := by
    split
    · rename_i hlead
      exact writeImages_of_none (hi hlead) _
    · rfl
  have hfirst : (partOf s c.partition).step.checks.any (fun r => decide (r.engine = c.engine)) = false :=
    List.any_eq_false.mpr fun r hmem => by simp [hr r hmem]
  unfold checkRecordWrite
  dsimp only
  rw [if_neg (by simp [hrun, he, hfirst]), himages, putRecords_single]
  rfl

/-- The record stands in its place, and all else but the step is as before. -/
theorem checkRecordWrite_spec (hp : c.partition = p) (hrun : (partOf s p).step.running = true) (he : c.engine ∈ mappingEngines (mappingOf (partOf s p)))
    (hr : ∀ r ∈ (partOf s p).step.checks, r.engine ≠ c.engine)
    (hi : c.engine = leadEngine (partOf s p) → ∀ i ∈ (partOf s p).step.items, i.kind ≠ .update)
    (hf : (slotOf s (BitVec.ofNat 17 (checkPlace (partOf s p) c.engine))).hdr.state = .free) :
    (partOf (checkRecordWrite s c outs) p).step = recorded s c outs (partOf s p).step
      ∧ slotOf (checkRecordWrite s c outs) (BitVec.ofNat 17 (checkPlace (partOf s p) c.engine)) =
        { hdr := { acceptHeader (BitVec.ofNat 6 (c.engine.val / 2)) (checkTile p (partOf s p).step.epoch (ownRecord s c)).hdr false with state := .ready }
          payload := (checkTile p (partOf s p).step.epoch (ownRecord s c)).payload, src := BitVec.ofNat 6 (c.engine.val / 2) }
      ∧ (∀ k, k ≠ BitVec.ofNat 17 (checkPlace (partOf s p) c.engine) → slotOf (checkRecordWrite s c outs) k = slotOf s k)
      ∧ (∀ r, r ≠ p → partOf (checkRecordWrite s c outs) r = partOf s r) ∧ (checkRecordWrite s c outs).engines = s.engines
      ∧ (checkRecordWrite s c outs).tier = s.tier := by
  subst hp
  have hslot : ∀ k, slotOf (setStep s c.partition (recorded s c outs)) k = slotOf s k := fun _ => rfl
  have hf' := (congrArg (fun x : Slot => x.hdr.state) (hslot (BitVec.ofNat 17 (checkPlace (partOf s c.partition) c.engine)))).trans hf
  have hshape := shapeOk_checkTile c.partition (partOf s c.partition).step.epoch (ownRecord s c)
  obtain ⟨hgen, htier, -⟩ := writeTile_outside (BitVec.ofNat 6 (c.engine.val / 2)) false hshape hf'
  rw [checkRecordWrite_of_first hrun he hr hi]
  refine ⟨?_, slotOf_writeTile_same _ _ hshape hf', fun k hk => (slotOf_writeTile_other _ _ hshape hf' hk).trans (hslot k), fun r hr => ?_, ?_, htier⟩
  · rw [partOf_congr (congrArg GenState.parts hgen), partOf_setStep, if_pos rfl]
  · rw [partOf_congr (congrArg GenState.parts hgen), partOf_setStep, if_neg hr]
  · rw [writeTile_of_free _ _ hshape hf']
    simp [setStep]

end

end Sys2Proof.Machine

/-! # A step retracted with its input (R360) -/

namespace Sys2Proof.Machine

section
variable {s : State} {p : PartId}

/-- A step at whose boundary nothing is wrong but that its input was retracted. -/
structure OnlyRetracted (s : State) (q : Partition) : Prop where
  checks : ∀ r ∈ q.step.checks, r.result = 0
  refused : q.step.refused = []
  refusedAll : q.step.refusedAll = none
  store : q.step.storeRefusal = none
  saturated : saturatedTiles s q = []
  poisoned : poisonedTiles s q = []

theorem OnlyRetracted.result_ne {q : Partition} (hr : OnlyRetracted s q) {n : BitVec 8} (hn : n ≠ 0) :
    q.step.checks.any (fun r => decide (r.result = n)) = false :=
  List.any_eq_false.mpr fun r hmem h => hn ((of_decide_eq_true h).symm.trans (hr.checks r hmem))

theorem OnlyRetracted.countedFault_eq {q : Partition} (hr : OnlyRetracted s q) : countedFault q = false := by
  unfold countedFault
  rw [hr.result_ne (by decide), hr.store]
  rfl

theorem OnlyRetracted.stepSaturated_eq {q : Partition} (hr : OnlyRetracted s q) {t : State} (ht : t.engines = s.engines) : stepSaturated t q = false := by
  unfold stepSaturated
  rw [hr.result_ne (by decide), saturatedTiles_congr ht, hr.saturated]
  rfl

theorem poisonedTiles_retractedStep (hc : canonical {} s.store.slots = true) (q : Partition) :
    poisonedTiles (retractedStep s p) q = poisonedTiles s q := by
  unfold poisonedTiles
  simp only [engOf_congr (retractedStep_engines s p), slotOf_retractedStep hc, retractSlot_poison]

/-- Its step is issued again, and is not counted. -/
theorem failStep_of_onlyRetracted (hr : OnlyRetracted s (partOf s p)) (hc : canonical {} s.store.slots = true) :
    failStep s p false [] = reissue (retractedStep s p) p (fun st => { st with prevRefusal := none, saturated := false }) none := by
  have hpart := partOf_retractedStep s p p
  have hpoison : poisonedTiles (retractedStep s p) (partOf s p) = [] := (poisonedTiles_retractedStep hc _).trans hr.poisoned
  have hsat : stepSaturated (retractedStep s p) (partOf s p) = false := hr.stepSaturated_eq (retractedStep_engines s p)
  have hremove : removeRefused (retractedStep s p) p = retractedStep s p := by
    unfold removeRefused
    dsimp only
    rw [hpart, hr.refused, hr.refusedAll]
    rfl
  have hsatrem : removeSaturated (retractedStep s p) p = retractedStep s p := by
    unfold removeSaturated
    dsimp only
    rw [hpart]
    exact if_pos (by simp [saturationRecurs, hsat])
  have hwrite : removeRefusedWrite (retractedStep s p) p (partOf s p) = (retractedStep s p, false) := by
    unfold removeRefusedWrite
    rw [hr.store, ite_self]
  have hfold : settleSent (retractNotice (broadcast s p (partOf s p).step.epoch 0x09) p (partOf s p).step.epoch) p (partOf s p).step.epoch 0x42
    = retractedStep s p := rfl
  unfold failStep
  dsimp only
  rw [hfold, hpoison, List.foldl_nil, hremove, hsatrem, hwrite, hsat, hr.countedFault_eq, hr.store]
  rfl

/-- A step issued again under the same attempt. -/
theorem reissue_same {s : State} (h : stepWorks (partOf s p) = true) :
    let t := reissue s p (fun st => { st with prevRefusal := none, saturated := false }) none
    let st := (partOf s p).step
    let st' := (partOf t p).step
    (partOf t p).committed = (partOf s p).committed ∧ st'.running = st.running ∧ st'.epoch = st.epoch ∧ st'.attempt = st.attempt ∧ st'.checks = []
      ∧ st'.items = st.items ∧ t.store = s.store ∧ ∀ r, r ≠ p → partOf t r = partOf s r := by
  intro t
  obtain ⟨e, ht⟩ := reissue_of_works h fun st => { st with prevRefusal := none, saturated := false }
  have ht : t = _ := ht
  generalize hu : setStep (clearAttempt s p) p (fun st => { st with prevRefusal := none, saturated := false }) = u at ht
  obtain ⟨m, hpart⟩ := partOf_restartStream u p (partOf u p).step.epoch
  have hown : partOf u p = { clearedPart (partOf s p) with step := { (clearedPart (partOf s p)).step with prevRefusal := none, saturated := false } } := by
    rw [← hu, partOf_setStep, if_pos rfl, partOf_clearAttempt, if_pos rfl]
  have hother : ∀ r, r ≠ p → partOf u r = partOf s r := fun r hr => by
    rw [← hu, partOf_setStep, if_neg hr, partOf_clearAttempt, if_neg hr]
  have hnew : partOf t p = { partOf u p with step := { (partOf u p).step with pass := m } } := by
    rw [ht, partOf_logEvent, hpart, if_pos rfl]
  rw [hnew, hown]
  refine ⟨rfl, rfl, rfl, rfl, rfl, rfl, ?_, fun r hr => ?_⟩
  · rw [ht, (logEvent_frame ..).2.1, (restartStream_frame ..).2.1, ← hu]
    exact (clearAttempt_frame ..).2.1
  · rw [ht, partOf_logEvent, hpart, if_neg hr, hother r hr]

theorem stepFails_of_retracted {q : Partition} (h : q.step.retracted = true) : stepFails q = true := by
  unfold stepFails
  rw [h, Bool.or_true]

/-! ## Boundaries that change nothing -/

theorem stepBoundary_of_absent (h : (partOf s p).state = .empty ∨ (partOf s p).state = .loading ∨ (partOf s p).state = .failed) (lost : List Tenant) :
    stepBoundary s p lost = s := by
  unfold stepBoundary
  rcases h with h | h | h <;> simp only [h]

/-- The boundary of a partition whose step runs. -/
theorem stepBoundary_of_running (hs : (partOf s p).state = .running) (hr : (partOf s p).step.running = true) (lost : List Tenant) :
    stepBoundary s p lost =
      if !recordsIn (partOf s p) (usedEngines (partOf s p)) && !(partOf s p).needReload then s
      else if stepFails (partOf s p) then if awaitsResend s p then s else failStep s p false []
      else if (partOf s p).step.provisional ≠ [] || !resultsIn s (partOf s p) || !matchedIn (partOf s p) || writesWait s p then s
      else openStep (commitStep s p lost) p := by
  unfold stepBoundary
  dsimp only
  rw [hs]
  exact if_neg (by simp [hr])

theorem stepBoundary_of_waits (hs : (partOf s p).state = .running) (hr : (partOf s p).step.running = true)
    (hrec : recordsIn (partOf s p) (usedEngines (partOf s p)) = false) (hn : (partOf s p).needReload = false) (lost : List Tenant) :
    stepBoundary s p lost = s := by
  rw [stepBoundary_of_running hs hr]
  exact if_pos (by simp [hrec, hn])

theorem retracted_of_awaitsResend (h : awaitsResend s p = true) : (partOf s p).step.retracted = true := by
  simp only [awaitsResend, Bool.and_eq_true] at h
  exact h.1.1

theorem stepBoundary_of_awaitsResend (hs : (partOf s p).state = .running) (hr : (partOf s p).step.running = true) (ha : awaitsResend s p = true)
    (lost : List Tenant) : stepBoundary s p lost = s := by
  rw [stepBoundary_of_running hs hr, if_pos (stepFails_of_retracted (retracted_of_awaitsResend ha)), if_pos ha, ite_self]

theorem stepBoundary_of_retracted (hs : (partOf s p).state = .running) (hr : (partOf s p).step.running = true)
    (hrec : recordsIn (partOf s p) (usedEngines (partOf s p)) = true) (hret : (partOf s p).step.retracted = true) (ha : awaitsResend s p = false)
    (ho : OnlyRetracted s (partOf s p)) (hc : canonical {} s.store.slots = true) (lost : List Tenant) :
    stepBoundary s p lost = reissue (retractedStep s p) p (fun st => { st with prevRefusal := none, saturated := false }) none := by
  rw [stepBoundary_of_running hs hr, if_neg (by simp [hrec]), if_pos (stepFails_of_retracted hret), if_neg (by simp [ha]),
    failStep_of_onlyRetracted ho hc]

end

end Sys2Proof.Machine

/-! # A boundary at which nothing waits (R209, R213, R231, R345) -/

namespace Sys2Proof.Machine

section
variable {s t u : State} {p : PartId}

/-! ## Updates that leave a partition as it is -/

/-- The states may hold their partitions in another form, and are otherwise the same. -/
structure SameParts (s t : State) : Prop where
  state : t = { s with gen := { s.gen with parts := t.gen.parts } }
  parts : ∀ r, partOf t r = partOf s r

theorem SameParts.trans (h : SameParts s t) (h' : SameParts t u) : SameParts s u := by
  refine ⟨?_, fun r => (h'.parts r).trans (h.parts r)⟩
  rw [h'.state, h.state]

theorem SameParts.setPart (s : State) {f : Partition → Partition} (h : f (partOf s p) = partOf s p) : SameParts s (setPart s p f) := by
  refine ⟨rfl, fun r => ?_⟩
  rw [partOf_setPart]
  split
  · next hr => rw [h, hr]
  · rfl

theorem SameParts.engines (h : SameParts s t) : t.engines = s.engines := by rw [h.state]

theorem SameParts.engOf_eq (h : SameParts s t) (e : Engine) : engOf t e = engOf s e := engOf_congr h.engines e

theorem SameParts.tables (h : SameParts s t) : t.gen.tables = s.gen.tables := by rw [h.state]

/-- A partition that has no slots, reports or queued items, and need not change its mapping. -/
structure AtRest (s : State) (p : PartId) : Prop where
  slots : (partOf s p).slots = []
  rings : (partOf s p).rings = []
  reports : (partOf s p).reports = []
  hotOld : (partOf s p).hotOld = []
  switchDue : (partOf s p).switchDue = []
  switchBack : (partOf s p).switchBack = false
  pauseFor : (partOf s p).pauseFor = none
  needReload : (partOf s p).needReload = false
  running : (partOf s p).state = .running
  epochs : (partOf s p).committed.toNat < 0xFFFFFFEF
  tests : ∀ e, (engOf s e).testDue = none
  tables : s.gen.tables = []

theorem AtRest.of_same (h : AtRest s p) (ht : SameParts s t) : AtRest t p := by
  have hp := ht.parts p
  exact ⟨by rw [hp, h.slots], by rw [hp, h.rings], by rw [hp, h.reports], by rw [hp, h.hotOld], by rw [hp, h.switchDue], by rw [hp, h.switchBack],
    by rw [hp, h.pauseFor], by rw [hp, h.needReload], by rw [hp, h.running], by rw [hp]; exact h.epochs, fun e => by rw [ht.engOf_eq, h.tests],
    by rw [ht.tables, h.tables]⟩

/-! ## The boundary's parts -/

theorem startTest_of_none {e : Engine} (h : (engOf s e).testDue = none) : startTest s e = s :=
  if_neg (by simp [testMayStart, h])

theorem startTests_of_none (h : ∀ e, (engOf s e).testDue = none) : startTests s = s := by
  have hfold : ∀ l : List Engine, l.foldl startTest s = s := by
    intro l
    induction l with
    | nil => rfl
    | cons e l ih => rw [List.foldl_cons, startTest_of_none (h e), ih]
  exact hfold _

theorem judgeSlots_of_rest (hslots : (partOf s p).slots = []) (hreports : (partOf s p).reports = []) : SameParts s (judgeSlots s p) := by
  have hrun : judgeSlots s p = setPart s p fun q => { q with reports := [] } := by
    unfold judgeSlots slotNumbers
    dsimp only
    rw [hslots, hreports]
    rfl
  rw [hrun]
  exact .setPart s (by rw [← hreports])

theorem freeHotOld_of_none (h : (partOf s p).hotOld = []) : SameParts s (freeHotOld s p) := by
  have hrun : freeHotOld s p = setPart s p fun q => { q with hotOld := [] } := by
    unfold freeHotOld
    dsimp only
    rw [h]
    rfl
  rw [hrun]
  exact .setPart s (by rw [← h])

theorem writeAllMirrored_of_none (h : s.gen.tables = []) : writeAllMirrored s p = s := by
  unfold writeAllMirrored
  rw [h]
  rfl

theorem migrateTables_of_none (h : s.gen.tables = []) (lost : List Tenant) : migrateTables lost s p = s := by
  unfold migrateTables
  rw [h]
  rfl

theorem markNoSpec_of_none (h : (partOf s p).slots = []) : markNoSpec s p = s := by
  unfold markNoSpec
  dsimp only
  rw [h]
  exact ite_self _

theorem switchMappings_of_rest (h : AtRest s p) : SameParts s (switchMappings s p) := by
  have hdue : SameParts s (setPart s p fun q => { q with switchDue := [] }) := .setPart s (by rw [← h.switchDue])
  have hback : SameParts s (setPart (setPart s p fun q => { q with switchDue := [] }) p fun q => { q with mapping := q.mapping, switchBack := false }) := by
    refine hdue.trans (.setPart _ ?_)
    rw [← (h.of_same hdue).switchBack]
  have hpause : SameParts s (setPart (setPart (setPart s p fun q => { q with switchDue := [] }) p fun q => { q with mapping := q.mapping, switchBack := false }) p
      fun q => { q with state := if q.state = .running && q.pauseFor.isSome then .paused else q.state }) := by
    refine hback.trans (.setPart _ ?_)
    rw [if_neg (by simp [h.pauseFor])]
  have hrun : switchMappings s p = startTests (setPart (setPart (setPart s p fun q => { q with switchDue := [] }) p
      fun q => { q with mapping := q.mapping, switchBack := false }) p
      fun q => { q with state := if q.state = .running && q.pauseFor.isSome then .paused else q.state }) := by
    unfold switchMappings
    dsimp only
    rw [h.switchDue, h.switchBack]
    rfl
  rw [hrun, startTests_of_none (h.of_same hpause).tests]
  exact hpause

theorem purgeRings_of_none (h : (partOf s p).rings = []) : SameParts s (purgeRings s p) := by
  have hrun : purgeRings s p = setPart s p fun q => { q with rings := [] } := by
    unfold purgeRings
    dsimp only
    rw [h]
    rfl
  rw [hrun]
  exact .setPart s (by rw [← h])

theorem admitLoop_of_none (h : (partOf s p).rings = []) (k : Nat) (blocked : List Nat) : admitLoop p k blocked s = s := by
  cases k with
  | zero => rfl
  | succ k =>
    unfold admitLoop
    dsimp only
    rw [h]
    split
    · rfl
    · exact if_pos (.inr rfl)

theorem admitItems_of_rest (h : AtRest s p) : SameParts s (admitItems s p) := by
  have hpurge := purgeRings_of_none h.rings
  unfold admitItems
  dsimp only
  rw [admitLoop_of_none (h.of_same hpurge).rings, ite_self]
  exact hpurge

theorem grantChunks_of_none (h : (partOf s p).slots = []) : grantChunks s p = s := by
  unfold grantChunks
  split
  · rfl
  · have horder : prefillOrder (partOf s p) = [] := by simp [prefillOrder, h]
    rw [horder]
    rfl

/-- No draws are asked for. -/
def withoutDraws (q : Partition) : Partition := { q with drawsAsked := [], draws := [] }

theorem requestTiles_nil (p : PartId) (e : Epoch) : requestTiles p e [] = [] := by simp [requestTiles, runsOf]

theorem requestDraws_of_none (h : (partOf s p).slots = []) : requestDraws s p = setPart s p withoutDraws := by
  unfold requestDraws
  dsimp only
  rw [h, List.flatMap_nil, requestTiles_nil]
  rfl

/-- Nothing comes to the step that opens but what it already holds. -/
theorem openStep_of_rest (h : AtRest s p) : ∃ t, SameParts s t ∧ openStep s p = startStep (setPart t p withoutDraws) p := by
  have hswitch := switchMappings_of_rest h
  have hrest := h.of_same hswitch
  have hadmit := admitItems_of_rest hrest
  have hslots := (hrest.of_same hadmit).slots
  refine ⟨_, hswitch.trans hadmit, ?_⟩
  have hlt : ¬(0xFFFFFFF0 ≤ (partOf (switchMappings s p) p).committed.toNat + 1) := by
    have := hrest.epochs
    omega
  unfold openStep
  dsimp only
  rw [if_neg (not_not.mpr hrest.running), if_neg (by simpa [hrest.needReload] using hlt), grantChunks_of_none hslots, requestDraws_of_none hslots]

/-! ## A step that starts -/

theorem lentReady_congr {e : Engine} (he : t.engines = s.engines) (hs : sharedWith (partOf t p) e = sharedWith (partOf s p) e)
    (hstep : ∀ r, (partOf t r).step = (partOf s r).step) (hu : ∀ r, usedEngines (partOf t r) = usedEngines (partOf s r)) :
    lentReady t p e = lentReady s p e := by
  unfold lentReady
  rw [hs]
  dsimp only
  simp only [hstep, hu, engOf_congr he]

theorem foldl_startEngine (l : List Engine) (s : State) : ∃ es, l.foldl (startEngine p) s = { s with engines := es } := by
  induction l generalizing s with
  | nil => exact ⟨_, rfl⟩
  | cons e l ih =>
    obtain ⟨es, h⟩ := ih (startEngine p s e)
    exact ⟨es, h⟩

/-- The step that starts with the items of the one before. -/
def startedStep (s : State) (p : PartId) (st : Step) : Step :=
  { running := true, epoch := (partOf s p).committed + 1, pass := passOf s p ((partOf s p).committed + 1), startAt := now s,
    startRate := partRate s (partOf s p), items := st.items, watchdog := (partOf s p).watchdog, refresh := (partOf s p).refresh,
    hotBudget := (partOf s p).hotBudget
    provisional := (s.pair.provisional.filter fun x => decide (x.part = p.toNat)).map fun x => (x.part, x.epoch) }

/-- Its engines are ready, and there are items: the step starts. -/
theorem startStep_of_ready (hslots : (partOf s p).slots = []) (hitems : (partOf s p).step.items ≠ [])
    (hready : ∀ e ∈ usedEngines (partOf s p), lentReady s p e = true ∧ notTaking s (engineBlock e) = false) : ∃ es,
      startStep s p = setStep { s with engines := es } p (startedStep s p) := by
  obtain ⟨es, hes⟩ := foldl_startEngine (p := p) (usedEngines (partOf s p)) s
  have hall : (usedEngines (partOf s p)).all (fun e => lentReady s p e && !notTaking s (engineBlock e)) = true :=
    List.all_eq_true.mpr fun e he => by simp [hready e he]
  refine ⟨es, ?_⟩
  unfold startStep
  dsimp only
  rw [if_neg (by simp [holdsWork, hitems]), if_neg (by simp [hall]), markNoSpec_of_none hslots, hes]
  rfl

theorem startStep_of_idle (hslots : (partOf s p).slots = []) (hitems : (partOf s p).step.items = []) : startStep s p = s :=
  if_pos (by simp [holdsWork, hslots, hitems])

/-! ## An idle boundary -/

theorem idleBoundary_of_rest (h : AtRest s p) (lost : List Tenant) : ∃ t, SameParts s t ∧ idleBoundary s p lost = startStep (setPart t p withoutDraws) p := by
  have hjudge := judgeSlots_of_rest h.slots h.reports
  have hrest := h.of_same hjudge
  have hhot := freeHotOld_of_none hrest.hotOld
  obtain ⟨t, ht, hopen⟩ := openStep_of_rest (hrest.of_same hhot)
  refine ⟨t, hjudge.trans (hhot.trans ht), ?_⟩
  unfold idleBoundary slotNumbers
  dsimp only
  rw [h.slots, h.running, List.map_nil, List.foldl_nil, if_neg (by decide), writeAllMirrored_of_none hrest.tables, migrateTables_of_none hrest.tables, hopen]

theorem stepBoundary_of_idle (hs : (partOf s p).state = .running) (hr : (partOf s p).step.running = false) (lost : List Tenant) :
    stepBoundary s p lost = idleBoundary s p lost := by
  unfold stepBoundary
  dsimp only
  rw [hs]
  exact if_pos (by simp [hr])

/-- An idle boundary starts the step for which items wait. -/
theorem stepBoundary_starts (h : AtRest s p) (hr : (partOf s p).step.running = false) (hitems : (partOf s p).step.items ≠ [])
    (hready : ∀ e ∈ usedEngines (partOf s p), lentReady s p e = true ∧ notTaking s (engineBlock e) = false) (lost : List Tenant) :
    let t := stepBoundary s p lost
    let st := (partOf t p).step
    st.running = true ∧ st.epoch = (partOf s p).committed + 1 ∧ st.items = (partOf s p).step.items ∧ st.startAt = now s ∧ st.attempt = 1
      ∧ (partOf t p).committed = (partOf s p).committed ∧ t.store = s.store ∧ ∀ r, r ≠ p → partOf t r = partOf s r := by
  obtain ⟨t, ht, hidle⟩ := idleBoundary_of_rest h lost
  generalize hu : setPart t p withoutDraws = u at hidle
  have hown : partOf u p = withoutDraws (partOf s p) := by rw [← hu, partOf_setPart, if_pos rfl, ht.parts]
  have hother : ∀ r, r ≠ p → partOf u r = partOf s r := fun r hr => by rw [← hu, partOf_setPart, if_neg hr, ht.parts]
  have hstate : u = { s with gen := { s.gen with parts := u.gen.parts } } := by rw [← hu, ht.state]; rfl
  have hlent : ∀ e, lentReady u p e = lentReady s p e := fun e => by
    refine lentReady_congr (by rw [hstate]) (by rw [hown]; rfl) (fun r => ?_) fun r => ?_
    · by_cases hr : r = p
      · rw [hr, hown]; rfl
      · rw [hother r hr]
    · by_cases hr : r = p
      · rw [hr, hown]; rfl
      · rw [hother r hr]
  have htaking : ∀ b, notTaking u b = notTaking s b := fun b => by
    rw [hstate]
    rfl
  obtain ⟨es, hstart⟩ := startStep_of_ready (s := u) (p := p) (by rw [hown]; exact h.slots) (by rw [hown]; exact hitems) fun e he => by
    rw [hlent, htaking]
    rw [hown] at he
    exact hready e he
  have hnow : now u = now s := by
    rw [hstate]
    rfl
  have hfinal : partOf (setStep { u with engines := es } p (startedStep u p)) p = { partOf u p with step := startedStep u p (partOf u p).step } := by
    rw [partOf_setStep, if_pos rfl]
    rfl
  rw [stepBoundary_of_idle h.running hr, hidle, hstart]
  dsimp only
  rw [hfinal]
  have hcommitted : (partOf u p).committed = (partOf s p).committed := by rw [hown]; rfl
  have hkept : (partOf u p).step.items = (partOf s p).step.items := by rw [hown]; rfl
  refine ⟨rfl, congrArg (· + 1) hcommitted, hkept, hnow, rfl, hcommitted, ?_, fun r hr => ?_⟩
  · rw [show (setStep { u with engines := es } p (startedStep u p)).store = u.store from rfl, hstate]
  · rw [partOf_setStep, if_neg hr]
    exact hother r hr

end

end Sys2Proof.Machine

/-! # A step that commits alone (R53, R209, R345, R346) -/

namespace Sys2Proof.Machine

section
variable {s t : State} {p : PartId}

/-! ## The parts of a commit -/

theorem interference_of_none (hslots : (partOf s p).slots = []) (hitems : (partOf s p).step.items = []) : interference s (partOf s p) = s := by
  unfold interference stepTenants
  rw [hslots, hitems]
  split <;> rfl

/-- The state once the notices of a commit are out. -/
def committedNotices (s : State) (p : PartId) (e : Epoch) : State := settleSent (commitNotice (broadcast s p e 0x08) p e) p e 0x41

theorem committedNotices_gen (s : State) (p : PartId) (e : Epoch) : (committedNotices s p e).gen = s.gen := by simp [committedNotices]

theorem committedNotices_engines (s : State) (p : PartId) (e : Epoch) : (committedNotices s p e).engines = s.engines := by simp [committedNotices]

theorem slotOf_committedNotices (hc : canonical {} s.store.slots = true) (p : PartId) (e : Epoch) (k : TileIdx) :
    slotOf (committedNotices s p e) k = commitSlot p e (slotOf s k) := by
  have hb : (broadcast s p e 0x08).store = s.store := (broadcast_frame ..).1
  refine (slotOf_congr (congrArg StoreState.slots (settleSent_frame ..).2.1) k).trans ?_
  rw [slotOf_commitNotice (by rw [hb]; exact hc), slotOf_congr (congrArg StoreState.slots hb)]

/-- An engine that ran the step. -/
def ranStep (x : EngineState) : EngineState := { x with stepsRun := x.stepsRun + 1 }

/-- An engine that the step blamed before. -/
def ranReplay (x : EngineState) : EngineState := { x with cntReplays := x.cntReplays + 1 }

/-- The engines of a step, counted. -/
def countedEngines (s : State) (q : Partition) : State :=
  q.step.prevSuspect.foldl (fun s e => setEng s e ranReplay) ((usedEngines q).foldl (fun s e => setEng s e ranStep) s)

/-- A partition whose step is counted. -/
def countedPart (q x : Partition) : Partition := { x with committed := q.step.epoch, steps := x.steps + 1 }

theorem countStep_eq (s : State) (p : PartId) (q : Partition) : countStep s p q =
    { setPart (countedEngines s q) p (countedPart q) with gen :=
      { (setPart (countedEngines s q) p (countedPart q)).gen with stepCount := (setPart (countedEngines s q) p (countedPart q)).gen.stepCount + 1 } } := rfl

theorem engOf_setEngs_other (f : EngineState → EngineState) {l : List Engine} {k : Engine} (hk : k ∉ l) (s : State) :
    engOf (l.foldl (fun s e => setEng s e f) s) k = engOf s k := by
  induction l generalizing s with
  | nil => rfl
  | cons e l ih =>
    rw [List.mem_cons, not_or] at hk
    rw [List.foldl_cons, ih hk.2, engOf_setEng, if_neg hk.1]

theorem countedEngines_gen (s : State) (q : Partition) : (countedEngines s q).gen = s.gen := (setEngs_gen ..).trans (setEngs_gen ..)

theorem engOf_countStep (s : State) (p : PartId) (q : Partition) (e : Engine) : engOf (countStep s p q) e = engOf (countedEngines s q) e :=
  engOf_congr (by rw [countStep_eq]; simp) e

theorem engOf_countStep_other {q : Partition} {e : Engine} (hu : e ∉ usedEngines q) (hs : e ∉ q.step.prevSuspect) :
    engOf (countStep s p q) e = engOf s e := by
  rw [engOf_countStep, countedEngines, engOf_setEngs_other _ hs, engOf_setEngs_other _ hu]

theorem testDue_countStep (s : State) (p : PartId) (q : Partition) (e : Engine) : (engOf (countStep s p q) e).testDue = (engOf s e).testDue := by
  rw [engOf_countStep, countedEngines, setEngs_keep EngineState.testDue (f := ranReplay) fun _ => rfl,
    setEngs_keep EngineState.testDue (f := ranStep) fun _ => rfl]

theorem setPart_stepCount (s : State) (p : PartId) (f : Partition → Partition) : (setPart s p f).gen.stepCount = s.gen.stepCount := rfl

theorem setPart_tables (s : State) (p : PartId) (f : Partition → Partition) : (setPart s p f).gen.tables = s.gen.tables := rfl

theorem partOf_countStep (s : State) (p : PartId) (q : Partition) (r : PartId) :
    partOf (countStep s p q) r = if r = p then countedPart q (partOf s p) else partOf s r := by
  have hparts : ∀ k, partOf (countedEngines s q) k = partOf s k := partOf_congr (by rw [countedEngines_gen])
  rw [partOf_congr (s := setPart (countedEngines s q) p (countedPart q)) (by rw [countStep_eq]), partOf_setPart, hparts, hparts]

theorem countStep_count (s : State) (p : PartId) (q : Partition) : (countStep s p q).gen.stepCount = s.gen.stepCount + 1 := by
  rw [countStep_eq, setPart_stepCount, countedEngines_gen]

theorem countStep_tables (s : State) (p : PartId) (q : Partition) : (countStep s p q).gen.tables = s.gen.tables := by
  rw [countStep_eq, setPart_tables, countedEngines_gen]

theorem foldl_takeScore_none (g : Program) {l : List (Option Item × List Nat × Nat)} (h : ∀ x ∈ l, x.1 = none) (s : State) : l.foldl (takeScore g) s = s := by
  induction l with
  | nil => rfl
  | cons x l ih =>
    have hx : takeScore g s x = s := by
      unfold takeScore
      rw [h x (.head _)]
    rw [List.foldl_cons, hx, ih fun y hy => h y (.tail _ hy)]

theorem takeScores_of_none {st : Step} (h : st.items = []) (s : State) (p : PartId) : takeScores s p st = s := by
  unfold takeScores
  split
  · rfl
  · refine foldl_takeScore_none _ (fun x hx => ?_) s
    unfold pairPlaces at hx
    rw [h] at hx
    exact congrArg Prod.fst (List.eq_of_mem_replicate hx)

theorem commitItems_of_none {st : Step} (h : st.items = []) (s : State) (p : PartId) :
    commitItems s p st false = setPart s p fun q => { q with step := { q.step with items := [] } } := by
  unfold commitItems
  dsimp only
  rw [if_neg Bool.false_ne_true, takeScores_of_none h, h]
  rfl

/-! ## The commit of a step with no items -/

/-- A partition when its step has committed. -/
def committedPart (q : Partition) : Partition :=
  { q with committed := q.step.epoch, steps := q.steps + 1, step := {}, draws := [], drawsAsked := [] }

/-- What a commit alone does. -/
structure Committed (s : State) (p : PartId) (t : State) : Prop where
  own : partOf t p = committedPart (partOf s p)
  others : ∀ r, r ≠ p → partOf t r = partOf s r
  count : t.gen.stepCount = s.gen.stepCount + 1
  slots : ∀ k, slotOf t k = commitSlot p (partOf s p).step.epoch (slotOf s k)
  engines : ∀ e, e ∉ usedEngines (partOf s p) → e ∉ (partOf s p).step.prevSuspect → engOf t e = engOf s e
  tests : ∀ e, (engOf t e).testDue = (engOf s e).testDue
  tables : t.gen.tables = s.gen.tables

/-- The partition without its step. -/
def stepCleared (q : Partition) : Partition := { q with step := {}, draws := [], drawsAsked := [] }

/-- The state once the step is counted, when the partition's slots are judged. -/
def countedCommit (s : State) (p : PartId) : State :=
  countStep (committedNotices (judgeSlots s p) p (partOf s p).step.epoch) p (partOf s p)

theorem commitStep_eq (h : AtRest s p) (hitems : (partOf s p).step.items = []) (lost : List Tenant) : commitStep s p lost =
    freeHotOld (migrateTables lost (writeAllMirrored (setPart (setPart (countedCommit s p) p fun q => { q with step := { q.step with items := [] } })
      p stepCleared) p) p) p := by
  have hupdates : ∀ t : State, commitUpdates t (partOf s p).step lost false = t := fun t => by
    unfold commitUpdates
    rw [hitems]
    rfl
  unfold commitStep slotNumbers
  dsimp only
  rw [h.slots, interference_of_none h.slots hitems, markNoSpec_of_none h.slots, h.running, List.map_nil, List.foldl_nil,
    show decide (PartState.running = PartState.unloading) = false from rfl, commitItems_of_none hitems, hupdates]
  rfl

theorem commitStep_of_rest (h : AtRest s p) (hitems : (partOf s p).step.items = []) (hc : canonical {} s.store.slots = true) (lost : List Tenant) :
    Committed s p (commitStep s p lost) := by
  have hjudge := judgeSlots_of_rest h.slots h.reports
  have hslots : (judgeSlots s p).store = s.store := by rw [hjudge.state]
  have hnotices : ∀ r, partOf (committedNotices (judgeSlots s p) p (partOf s p).step.epoch) r = partOf s r := fun r =>
    (partOf_congr (by rw [committedNotices_gen]) r).trans (hjudge.parts r)
  generalize hv : setPart (setPart (countedCommit s p) p fun q => { q with step := { q.step with items := [] } }) p stepCleared = v
  have hown : partOf v p = committedPart (partOf s p) := by
    rw [← hv, partOf_setPart, if_pos rfl, partOf_setPart, if_pos rfl, countedCommit, partOf_countStep, if_pos rfl, hnotices]
    rfl
  have htables : v.gen.tables = s.gen.tables := by
    rw [← hv, setPart_tables, setPart_tables, countedCommit, countStep_tables, committedNotices_gen, hjudge.tables]
  have hhot : SameParts v (freeHotOld v p) := freeHotOld_of_none (by rw [hown]; exact h.hotOld)
  have hrun : commitStep s p lost = freeHotOld v p := by
    rw [commitStep_eq h hitems, hv, writeAllMirrored_of_none (htables.trans h.tables), migrateTables_of_none (htables.trans h.tables)]
  have heng : v.engines = (countedCommit s p).engines := by simp [← hv]
  have hnotEng : ∀ e, engOf (committedNotices (judgeSlots s p) p (partOf s p).step.epoch) e = engOf s e := fun e =>
    (engOf_congr (committedNotices_engines ..) e).trans (hjudge.engOf_eq e)
  rw [hrun]
  refine ⟨(hhot.parts p).trans hown, fun r hr => (hhot.parts r).trans ?_, ?_, fun k => ?_, fun e hu hs => ?_, fun e => ?_, hhot.tables.trans htables⟩
  · rw [← hv, partOf_setPart, if_neg hr, partOf_setPart, if_neg hr, countedCommit, partOf_countStep, if_neg hr, hnotices]
  · have hcount : v.gen.stepCount = s.gen.stepCount + 1 := by
      rw [← hv, setPart_stepCount, setPart_stepCount, countedCommit, countStep_count, committedNotices_gen, hjudge.state]
    rw [hhot.state]
    exact hcount
  · have hstore : (freeHotOld v p).store = (committedNotices (judgeSlots s p) p (partOf s p).step.epoch).store := by
      rw [hhot.state, ← hv]
      simp [countedCommit]
    rw [slotOf_congr (congrArg StoreState.slots hstore), slotOf_committedNotices (by rw [hslots]; exact hc), slotOf_congr (congrArg StoreState.slots hslots)]
  · rw [hhot.engOf_eq, engOf_congr heng, countedCommit, engOf_countStep_other hu hs, hnotEng]
  · rw [hhot.engOf_eq, engOf_congr heng, countedCommit, testDue_countStep, hnotEng]

theorem AtRest.of_committed (h : AtRest s p) (he : (partOf s p).step.epoch.toNat < 0xFFFFFFEF) (ht : Committed s p t) : AtRest t p := by
  have hp := ht.own
  exact ⟨by rw [hp]; exact h.slots, by rw [hp]; exact h.rings, by rw [hp]; exact h.reports, by rw [hp]; exact h.hotOld, by rw [hp]; exact h.switchDue,
    by rw [hp]; exact h.switchBack, by rw [hp]; exact h.pauseFor, by rw [hp]; exact h.needReload, by rw [hp]; exact h.running, by rw [hp]; exact he,
    fun e => (ht.tests e).trans (h.tests e), ht.tables.trans h.tables⟩

/-- Nothing waits for the step after it: the boundary commits, and leaves the partition idle. -/
theorem openStep_of_committed (h : AtRest s p) (he : (partOf s p).step.epoch.toNat < 0xFFFFFFEF) (ht : Committed s p t) :
    (partOf (openStep t p) p).committed = (partOf s p).step.epoch ∧ (partOf (openStep t p) p).step.running = false
      ∧ (partOf (openStep t p) p).state = .running ∧ (openStep t p).gen.stepCount = s.gen.stepCount + 1
      ∧ (∀ k, slotOf (openStep t p) k = commitSlot p (partOf s p).step.epoch (slotOf s k)) ∧ (∀ r, r ≠ p → partOf (openStep t p) r = partOf s r)
      ∧ ∀ e, e ∉ usedEngines (partOf s p) → e ∉ (partOf s p).step.prevSuspect → engOf (openStep t p) e = engOf s e := by
  obtain ⟨u, hu, hopen⟩ := openStep_of_rest (h.of_committed he ht)
  have hown : partOf (setPart u p withoutDraws) p = withoutDraws (committedPart (partOf s p)) := by
    rw [partOf_setPart, if_pos rfl, hu.parts, ht.own]
  have hidle : openStep t p = setPart u p withoutDraws := by
    rw [hopen, startStep_of_idle (by rw [hown]; exact h.slots) (by rw [hown]; rfl)]
  have hstore : (setPart u p withoutDraws).store = t.store := by
    rw [show (setPart u p withoutDraws).store = u.store from rfl, hu.state]
  have hcount : (setPart u p withoutDraws).gen.stepCount = t.gen.stepCount := by
    rw [show (setPart u p withoutDraws).gen.stepCount = u.gen.stepCount from rfl, hu.state]
  rw [hidle, hown]
  refine ⟨rfl, rfl, h.running, hcount.trans ht.count, fun k => ?_, fun r hr => ?_, fun e hue hse => ?_⟩
  · rw [slotOf_congr (congrArg StoreState.slots hstore), ht.slots]
  · rw [partOf_setPart, if_neg hr, hu.parts, ht.others r hr]
  · rw [show engOf (setPart u p withoutDraws) e = engOf u e from rfl, hu.engOf_eq, ht.engines e hue hse]

theorem stepBoundary_commits (hs : (partOf s p).state = .running) (hr : (partOf s p).step.running = true)
    (hrec : recordsIn (partOf s p) (usedEngines (partOf s p)) = true) (hf : stepFails (partOf s p) = false) (hprov : (partOf s p).step.provisional = [])
    (hres : resultsIn s (partOf s p) = true) (hm : matchedIn (partOf s p) = true) (hw : writesWait s p = false) (lost : List Tenant) :
    stepBoundary s p lost = openStep (commitStep s p lost) p := by
  rw [stepBoundary_of_running hs hr, if_neg (by simp [hrec]), if_neg (by simp [hf]), if_neg (by simp [hprov, hres, hm, hw])]

theorem writesWait_of_none (h : ∀ w ∈ s.tier.waiting, w.rq.part ≠ p.setWidth 6) : writesWait s p = false :=
  List.any_eq_false.mpr fun w hw => by simpa using h w hw

theorem resultsIn_of_none {q : Partition} (hslots : q.slots = []) (hitems : q.step.items = []) : resultsIn s q = true := by
  unfold resultsIn
  rw [hslots, hitems]
  rfl

end

/-- Settles O25: an engine's record takes its place in the store (`checkRecordWrite_spec`), a commit of a step alone is its notices and its count
(`commitStep_of_rest`), a retracted step is issued again as it was (`reissue_same`), and an idle boundary opens the next one (`stepBoundary_starts`). -/
theorem stepsCommitOrReplay : Obligations.StepsCommitOrReplay := by
  unfold Obligations.StepsCommitOrReplay
  intro s p c outs g lost q place alone
  have hrest : alone → q.state = .running → AtRest s p ∧ q.step.epoch.toNat < 0xFFFFFFEF ∧ ∀ w ∈ s.tier.waiting, w.rq.part ≠ p.setWidth 6 := by
    rintro ⟨htables, hslots, hrings, hreports, hdue, hback, hpause, hhot, -, hreload, htests, hwaits, hepoch, hcommitted⟩ hrun
    exact ⟨⟨hslots, hrings, hreports, hhot, hdue, hback, hpause, hreload, hrun, hcommitted, htests, htables⟩, hepoch, hwaits⟩
  refine ⟨fun hp hrun he hr hi hf => ?_, fun hp hr => ?_, fun hs => ?_, fun hs hr hrec hn => ?_, fun ha hs hg hr hitems hrec hf hprov hm hc => ?_,
    fun hs hr hw => ?_, fun hs hr hrec hres hrefused hall hstore hret hw hsat hpoison hworks hc => ?_, fun ha hs hg _ hr hitems hready => ?_⟩
  · obtain ⟨hstep, hslot, hkept, hothers, hengines, htier⟩ := checkRecordWrite_spec (outs := outs) hp hrun he hr hi hf
    refine ⟨_, rfl, hstep, ?_, ?_, hkept, hothers, hengines, htier⟩
    · have hslot : slotOf (checkRecordWrite s c outs) place = _ := hslot
      rw [hslot]
      exact ⟨rfl, rfl, rfl, rfl, rfl, rfl, rfl, rfl, rfl⟩
    · have hslot : slotOf (checkRecordWrite s c outs) place = _ := hslot
      rw [hslot]
      exact take_checkTile p q.step.epoch _
  · exact congrArg Host.Outcome.next (checkRecordWrite_of_recorded (by rw [hp]; exact hr))
  · exact congrArg Host.Outcome.next (stepBoundary_of_absent hs lost)
  · exact congrArg Host.Outcome.next (stepBoundary_of_waits hs hr hrec hn lost)
  · obtain ⟨h, hepoch, hwaits⟩ := hrest ha hs
    have hrun := stepBoundary_commits hs hr hrec hf hprov (resultsIn_of_none h.slots hitems) hm (writesWait_of_none hwaits) lost
    exact ⟨_, congrArg Host.Outcome.next hrun, openStep_of_committed h hepoch (commitStep_of_rest h hitems hc lost)⟩
  · exact congrArg Host.Outcome.next (stepBoundary_of_awaitsResend hs hr hw lost)
  · have hrun := stepBoundary_of_retracted hs hr hrec hret hw ⟨hres, hrefused, hall, hstore, hsat, hpoison⟩ hc lost
    have hown := partOf_retractedStep s p p
    obtain ⟨hcommitted, hrunning, hepoch, hattempt, hchecks, hkept, hst, hothers⟩ := reissue_same (s := retractedStep s p) (p := p) (by rw [hown]; exact hworks)
    rw [hown] at hcommitted hrunning hepoch hattempt hkept
    refine ⟨_, congrArg Host.Outcome.next hrun, hcommitted, hrunning.trans hr, hepoch, hattempt, hchecks, hkept, fun k => ?_, fun r hr => ?_⟩
    · rw [slotOf_congr (congrArg StoreState.slots hst)]
      exact slotOf_retractedStep hc p k
    · exact (hothers r hr).trans (partOf_retractedStep s p r)
  · obtain ⟨h, -, -⟩ := hrest ha hs
    obtain ⟨hrun, hepoch, hkept, hat, hattempt, hcommitted, hstore, hothers⟩ := stepBoundary_starts h hr hitems hready lost
    exact ⟨_, rfl, hrun, hepoch, hkept, hat, hattempt, hcommitted, hstore, hothers⟩

end Sys2Proof.Machine
